-- ==== Sys2Proof/Word.lean ====
section
/-! DEFINITION. Word.lean: the word types of the device and nothing else.
An I/O register is 32 bits wide (R11), a memory word is 64 bits (R311), both little-endian (R8),
and bit 0 is the least significant bit (R7). -/

namespace Sys2Proof

/-- One byte. -/
abbrev Byte := BitVec 8

/-- One I/O register, or one half of a memory word (R11). -/
abbrev Word := BitVec 32

/-- One 64-bit memory word, register or port value. -/
abbrev DWord := BitVec 64

end Sys2Proof
end

