-- ==== Sys2Proof/Syntax.lean ====
section
/-! DEFINITION. Syntax.lean: the commands of the block, one constructor for each row of spec/opcode_table.json, with
what each is given from outside the device: which instance it concerns, and the values that a pin, a line, a sensor, a
user of the Tender wire or a fault of the hardware brings. -/

namespace Sys2Proof

/-- What a checkpoint hold brings from outside: the lane groups that fail to flag a pattern of the comparator self-test
(R250, R251), and whether the logic slice in it fails (R538). -/
structure HoldReport where
  lgFail : Nat := 0
  sliceFail : Bool := false
deriving DecidableEq, Repr

/-- A difference that the comparator or the capture stage finds (R207, R209): PAIRCTL.LASTMM.KIND and the lane group. -/
structure Mismatch where
  kind : Fin 4
  lg : Fin 12
deriving DecidableEq, Repr

/-- The output of a mains phase detector (R265): angle in units of 2^-32 turn, angular velocity in units of VEL before POLES,
and the phase error of its loop in units of 2^-32 turn. -/
structure MainsOut where
  angle : BitVec 32
  vel : BitVec 32
  err : BitVec 32
deriving DecidableEq, Repr

/-- An arbitration point (chapter 11): a cluster's uplink, a plane of a memory instance, the boot ROM, the NV store
window, an I/O block. -/
inductive Point where
  | uplink (n : Fin 4)
  | bank (inst : Nat) (planeB : Bool)
  | rom
  | nvWindow
  | io (block : Nat)
deriving DecidableEq, Repr

/-- How a command of R421 reaches the island (R420): a write to SYSCTL.CMD, or a signed command of a role and slot. -/
inductive CmdSrc where
  | register
  | signed (role : Fin 3) (slot : Nat)
deriving DecidableEq, Repr

/-- What a start finds outside the model (R424): a journal that cannot be mounted, the lane groups that each pair's
comparator self-test leaves unflagged, the pairs whose S7 slices fail, the highest step that each pair's monitors allow
at S6, none where no step from 36 upward does, and the lt that pass from the lock of the system PLL at S2 to the end of
the start (R254). -/
structure BootEnv where
  journalBad : Bool := false
  cmpFails : List Nat := []
  sliceFails : List Nat := []
  steps : List (Option Nat) := []
  lanternLt : Nat := 0
deriving DecidableEq, Repr

/-- What wakes the device (R435). -/
inductive WakeBy where
  | eth
  | can (k : Fin 4)
  | timer
deriving DecidableEq, Repr

/-- A clock that the power supervisor watches (R22). -/
inductive ClockSrc where
  | sysPll
  | ethPll
  | pairSynth (n : Fin 16)
  | refosc
deriving DecidableEq, Repr

/-- An Ethernet frame (R437 to R439, R443): addresses, C-tag (PCP and VID), whether it carries an S-tag, EtherType and
the bytes after it. -/
structure Frame where
  dst : Nat
  src : Nat
  ctag : Option (Nat × Nat) := none
  stag : Bool := false
  etype : Nat
  body : List Byte
deriving DecidableEq, Repr

/-- A Sync interval (R440, R441): with a Sync or without, the port on which the Sync came, the gPTP time in ns at which it left
its master with the corrections of its follow-up, the peer delay and the time since its arrival in ns, and the best
other master heard: its priority1, and whether it wins where that is the same. -/
structure SyncSample where
  got : Bool
  port : Fin 2
  origin : Nat
  delay : Nat
  age : Nat
  best : Option (BitVec 8 × Bool)
deriving DecidableEq, Repr

/-- A CAN frame (R452, R453): identifier, IDE, format, SDT, VCID, EVT, data, for a remote frame the length that it asks for, the
Lantern time of its start of frame, and whether its CRC is right. -/
structure CanFrame where
  id : BitVec 29
  ide : Bool
  fmt : Fin 4
  sdt : BitVec 8
  vcid : BitVec 8
  data : List Byte
  remote : Bool := false
  rlen : BitVec 4 := 0
  sof : Nat
  crcOk : Bool := true
  evt : Bool := false
deriving DecidableEq, Repr

/-- What a Buoy port receives (R462 to R464): the bytes of the frame from its header to its CRC, whether a cell was
violated, the pair on which it came, and the time from the sent start delimiter to this one in units of 1/16 lt. -/
structure BuoyReply where
  bytes : List Byte
  violated : Bool := false
  onReturn : Bool := true
  delay : Nat := 0
deriving DecidableEq, Repr

/-- The ring that an enumeration meets (R477, R478): the ring latency that CLRADDR shows, none where it does not return
within 1 ms, and the UID and TYPE of each partner in ring order. -/
structure EnumRing where
  rlat : Option Nat
  partners : List (BitVec 64 × BitVec 16)
deriving DecidableEq, Repr

/-- The path by which a signed block comes (R492): the Tender wire, or the safety transport from a system address under a
key, with the ID of its fragments. -/
inductive SignedVia where
  | tender
  | transport (src : Nat) (keyid : Fin 4) (id : Nat)
deriving DecidableEq, Repr

/-- A signed command as its row takes it (R491): signer, command counter, argument, and its path. -/
structure SignedArg where
  role : Fin 3
  slot : Nat
  ctr : Nat
  arg : List Byte
  via : SignedVia
deriving DecidableEq, Repr

/-- A block that Watch tests by a loopback (R539). -/
inductive LoopBlock where
  | pwm (g : Fin 12)
  | sdf (n : Fin 36)
  | adc (c : Fin 6)
deriving DecidableEq, Repr

/-- What is applied to an SSTOP input (R62): the voltage between its contacts in units of 0.1 V, and the current in µA. -/
structure StopLevel where
  dv : Nat
  ua : Nat
deriving DecidableEq, Repr

/-- An SSTOP input with the level applied to it. -/
structure StopInput where
  i : Fin 2
  level : StopLevel
deriving DecidableEq, Repr

/-- The commands: one constructor for each row of spec/opcode_table.json. -/
inductive Instr where
  /-- BUNDLE_ISSUE (R75): The core issues one bundle: results land, guards and sources are read, moves write their destinations and triggered operations start. -/
  | bundleIssue (p : Fin 16)
  /-- TAG_COMPLETION (R104): A tagged operation's completion passes the capture stage and its tag entry becomes done or failed in both cores. -/
  | tagCompletion (p : Fin 16) (t : Fin 32)
  /-- CAPTURE_INPUT (R203): An input captured at the capture stage is presented to the lead and, two edges later, to the shadow core. -/
  | captureInput (p : Fin 16) (parityErr : Bool)
  /-- INTERRUPT_ENTRY (R182): At an ISAFE point with IE set and a free bank, the core enters the highest visible interrupt in 8 cc. -/
  | interruptEntry (p : Fin 16) (arrivals : List (Fin 5))
  /-- PRECISE_EXCEPTION_ENTRY (R191): The core enters a precise exception at row 2, 3 or 7 of the bundle boundary whatever ISAFE, IE or level. -/
  | preciseExceptionEntry (p : Fin 16) (arrivals : List (Fin 5))
  /-- IMPRECISE_EXCEPTION_ENTRY (R192): At an ISAFE point the core enters the imprecise exception of the lowest failed tag or a pending COMMIT_ERR. -/
  | impreciseExceptionEntry (p : Fin 16) (arrivals : List (Fin 5))
  /-- EXPIRY_TRAP_ENTRY (R193): The core enters the Keeper expiry trap at level 17, writing its record and saving no bank. -/
  | expiryTrapEntry (p : Fin 16)
  /-- RETURN_RESTORE (R188): After an rfi's second delay bundle the core restores the bank, takes PC from the record and frees the bank. -/
  | returnRestore (p : Fin 16)
  /-- ISAFE_STARVE (R194): The count of issued non-ISAFE bundles reaches the limit, so STARVE is set and ISAFE_STARVE is presented once. -/
  | isafeStarve (p : Fin 16)
  /-- INTERRUPT_SOURCE_EDGE (R175): A level or edge interrupt source changes and becomes pending, with an edge on a pending source counted in LOST. -/
  | interruptSourceEdge (n : Fin 16) (src : Fin 256)
  /-- INTERRUPT_PRESENTATION (R176): INTC presents its highest-priority unacknowledged pending source to the pair through the capture stage. -/
  | interruptPresentation (n : Fin 16)
  /-- SWSET_WRITE (R175): A write to INTC.SWSET makes each software source with a 1 bit pending as an edge. -/
  | swsetWrite (n : Fin 16) (set : BitVec 8)
  /-- CHECKPOINT_DUE (R211): A checkpoint falls due on segment limit, buffer, log or record fill, or around an immediate-class access. -/
  | checkpointDue (p : Fin 16)
  /-- CHECKPOINT_K0 (R213): A due checkpoint begins K0 once tags are done, no lock is open and the previous release has ended. -/
  | checkpointK0 (p : Fin 16)
  /-- CHECKPOINT_COMMIT (R218): Writing the slot header commits the checkpoint; at resume the logs empty, the number increments and held inputs are presented. -/
  | checkpointCommit (p : Fin 16) (hold : HoldReport)
  /-- COMMIT_BUFFER_RELEASE (R221): The commit buffer releases the closed segment's entries in order, ending when every entry is accepted. -/
  | commitBufferRelease (p : Fin 16)
  /-- DELTA_APPLIED (R218): The mirror port finishes copying the delta into the data-memory image and sets APPLIED. -/
  | deltaApplied (p : Fin 16)
  /-- COMMIT_ENTRY_FAILURE (R222): A released entry fails at its target, setting CERR and COMMITERR and pending a COMMIT_ERR entry. -/
  | commitEntryFailure (p : Fin 16)
  /-- SEG_OVERRUN (R214): The segment count reaches LIMIT before K0 ends, so SEGOVR is set and SEG_OVERRUN is presented. -/
  | segOverrun (p : Fin 16)
  /-- LOCKSTEP_MISMATCH (R209): A lane group differs at the comparator, so held outputs are discarded and recovery starts. -/
  | lockstepMismatch (p : Fin 16) (mm : Mismatch)
  /-- SPARE_FIRST_BUNDLE (R242): The migrated spare issues its first bundle once the release of the restart checkpoint is complete. -/
  | spareFirstBundle (p : Fin 16)
  /-- PAIR_FENCE (R249): A pair is fenced after any begun release completes: outputs stop, ports shut and VPAIRn switches off. -/
  | pairFence (p : Fin 16)
  /-- SPARE_DESIGNATION (R246): A write to PAIRCTL.SPARE designates a spare, or is ignored with BADSPARE if it names itself or a non-spare. -/
  | spareDesignation (p : Fin 16) (w : Word)
  /-- CMPTEST_START (R251): A write of 1 to PAIRCTL.CMPTEST.START runs the comparator self-test in the next checkpoint hold. -/
  | cmptestStart (p : Fin 16)
  /-- TIMEBASE_SAMPLE (R258): A timebase takes a source sample, updates its velocity and applies a move, jump or hold. -/
  | timebaseSample (t : Fin 16) (det : MainsOut)
  /-- HOLD_RESUME (R261): The advancing target reaches the held P and the timebase resumes with P := T. -/
  | holdResume (t : Fin 16)
  /-- LINE_SAMPLE_DELIVERY (R257): A write to LTIMEHI delivers the line-sample registers to the timebase as one sample. -/
  | lineSampleDelivery (t : Fin 16) (hi : Word)
  /-- ADJ (R262): Writes to TBt.ADJ are summed and applied as one step in the next lt. -/
  | adj (t : Fin 16) (v : Word)
  /-- TIMEBASE_ENABLE (R264): A change of TBt.CFG.EN or of its source fields stops or restarts the timebase and clears VALID. -/
  | timebaseEnable (t : Fin 16) (w : Word)
  /-- LTN_LOSS (R263): No valid sample arrives for STALE µs, so VALID clears, LOSS is set and LTN_LOSS is presented. -/
  | ltnLoss (t : Fin 16)
  /-- MAINS_LOCK (R265): The mains phase detector gains lock and the timebase starts detecting crossings. -/
  | mainsLock (t : Fin 16)
  /-- HOLDOVER (R266): A locked mains timebase loses lock, sets HOLDOVER and extrapolates at the last locked frequency. -/
  | holdover (t : Fin 16)
  /-- COMPARATOR_CROSSING (R270): A comparator takes a crossing, records its stamp, sets FIRED and produces its event in the next lt. -/
  | comparatorCrossing (c : Fin 256)
  /-- GATE_RELEASE (R274): A gate detector takes its crossing and sends the release with generation and stamp to the capture stage. -/
  | gateRelease (n : Fin 16) (k : Fin 8)
  /-- CARRIER_VALLEY (R280): A PWM carrier passes its valley, producing VALLEY and acting as a load event when selected. -/
  | carrierValley (g : Fin 12)
  /-- CARRIER_PEAK (R280): A triangle carrier passes its peak, producing PEAK and acting as a load event when selected. -/
  | carrierPeak (g : Fin 12)
  /-- PWM_GROUP_ENABLE (R285): Setting CFG.EN copies the shadow set to the active set and starts the carrier. -/
  | pwmGroupEnable (g : Fin 12)
  /-- PWM_SYNC (R286): A write to PWM.SYNC restarts the time carriers of the named enabled groups. -/
  | pwmSync (mask : BitVec 12)
  /-- SW_FORCE (R290): Setting or clearing CTL.FORCE adds or removes the SW forcing cause of a group. -/
  | swForce (g : Fin 12) (on : Bool)
  /-- TRIPCLR (R295): A write of 1 to CTL.TRIPCLR clears the group's trip latch. -/
  | tripclr (g : Fin 12)
  /-- TRIP_LATCH_SET (R295): A selected SDF input trips or loses its clock, setting the trip latch, forcing the group and presenting OC_TRIP. -/
  | tripLatchSet (g : Fin 12)
  /-- PWM_PINERR (R294): A pin differs from its commanded level for 200 ns, so PINERR is set and PWM_PINERR is presented. -/
  | pwmPinerr (g : Fin 12) (lvl : BitVec 6)
  /-- SDF_FILTER_OUTPUT (R298): The sinc3 filter delivers an output every DEC modulator clocks, updating DATA and setting DRDY. -/
  | sdfFilterOutput (n : Fin 36) (bits : List Bool)
  /-- SDF_FAST_TRIP (R299): The fast filter exceeds a threshold for FCNT clocks and the input trips high or low. -/
  | sdfFastTrip (n : Fin 36) (bits : List Bool)
  /-- SDF_CKLOSS (R301): An enabled input sees no modulator clock for 2 µs, sets CKLOSS, counts as tripped and presents SDF_CKLOSS. -/
  | sdfCkloss (n : Fin 36)
  /-- SDF_SNAPSHOT (R302): A snapshot set's trigger copies the masked filters' DATA, records the time and restarts decimation. -/
  | sdfSnapshot (setB : Bool)
  /-- ADC_SEQUENCE_START (R305): A converter starts a sequence from its latched trigger, from continuous mode or from software. -/
  | adcSequenceStart (c : Fin 6)
  /-- ADC_START (R305): A write of 1 to ADC.START starts a sequence if idle, or is dropped with SWOVR. -/
  | adcStart (c : Fin 6)
  /-- ADC_SEQUENCE_DONE (R304): A sequence ends, results enter RES0-RES3, SEQCNT increments and the DONE event is produced. -/
  | adcSequenceDone (c : Fin 6) (volts : List Int)
  /-- RESOLVER_SAMPLE (R306): At each excitation peak the resolver interface samples sine and cosine and delivers the angle or discards it. -/
  | resolverSample (i : Fin 12) (sin : BitVec 16) (cos : BitVec 16) (negPeak : Bool)
  /-- ABZ_EDGE (R307): An accepted quadrature step changes the ABZ count, or sets QERR on an illegal step. -/
  | abzEdge (i : Fin 12) (a : Bool) (b : Bool)
  /-- Z_INDEX_EDGE (R308): A rising Z edge sets or corrects the count as ZMODE selects, setting ZERR on a change. -/
  | zIndexEdge (i : Fin 12)
  /-- ABZ_SAMPLE_DELIVERY (R309): Every SPER lt the ABZ interface delivers the count and time of its latest edge. -/
  | abzSampleDelivery (i : Fin 12)
  /-- SSI_FRAME (R310): Every SPER lt the SSI interface runs one frame and delivers its position or discards it with SERR. -/
  | ssiFrame (i : Fin 12) (line : Bool) (bits : List Bool) (lag : Nat)
  /-- TARGET_ACCESS (R320): A bank performs a granted access, checking and correcting each read word under the check code. -/
  | targetAccess (ids : List Nat)
  /-- CORRECTED_WRITE_BACK (R326): A corrected word is written back in the first bank cycle that no plane or core uses. -/
  | correctedWriteBack (inst : Fin 153) (word : Nat)
  /-- SCRUB_READ (R331): The scrubber reads the next valid word in an idle bank cycle and handles any error it finds. -/
  | scrubRead
  /-- BUCKET_LEAK (R332): Every LEAK ms every bucket above zero loses one. -/
  | bucketLeak
  /-- ETCTL_WRITE (R341): A write to MEMCTL.ETCTL enables ECC test mode only in BOOT, CONFIG and MAKER-TEST. -/
  | etctlWrite (w : Word)
  /-- ARBITRATION_GRANT (R348): A free arbitration point grants one request by urgency, effective priority, wait and master number. -/
  | arbitrationGrant (pt : Point)
  /-- REQUEST_URGENT (R347): A waiting request's wait reaches URGENT_AGE and it becomes urgent. -/
  | requestUrgent (id : Nat)
  /-- FAB_PROT (R344): A request or response check code fails, the access is answered as UNCORR or re-requested, and FAB_PROT is presented. -/
  | fabProt (id : Nat) (response : Bool)
  /-- LOCK_BREAK (R353): The lock count reaches LOCK_MAX, the bank is freed, the broken mark is set and FAB_LOCKBREAK is presented. -/
  | lockBreak (inst : Fin 153)
  /-- MPU_DENY (R364): A denied access is answered at the master's port and MPU_DENY is presented. -/
  | mpuDeny
  /-- MPU_ENABLE (R365): A write of 1 to MPU.CTLm.ENABLE checks the staging set and applies it or refuses it. -/
  | mpuEnable (m : Fin 31) (w : Word)
  /-- MPU_SYNC (R366): A read of MPU.SYNC completes only after requests checked under replaced sets have completed. -/
  | mpuSync (m : Fin 31)
  /-- EVENT_EMISSION (R372): An event reaches the matrix and each enabled channel emits it, merging coincident producers. -/
  | eventEmission (n : Nat)
  /-- EVENT_DELIVERY (R375): An emitted event reaches every listening consumer input in the next fc, latching, completing a wait or overrunning. -/
  | eventDelivery
  /-- WAIT_REQUEST_ARRIVAL (R379): A pair's wait request reaches its input and takes the latched event or increments W. -/
  | waitRequestArrival
  /-- EVT_LOOP (R381): A consequence event whose hop would be 7 is dropped, LOOP is set and EVT_LOOP is presented. -/
  | evtLoop
  /-- CEN_WRITE (R374): A CEN write that would leave more than 8 channels enabled is refused with ENREF. -/
  | cenWrite (c : Fin 384) (hi : Bool) (v : Word)
  /-- WATCH_INPUT_TAKE (R382): Writing 1 to a watch input's CSTAT.PEND takes its latched event. -/
  | watchInputTake (c : Fin 384)
  /-- FAULT_PROCESSING (R387): The island processes a presented fault input: it records it and applies its reaction. -/
  | faultProcessing
  /-- ISL_VOTE (R385): One island lane differs, so it is dropped from the vote and ISL_VOTE is presented. -/
  | islVote (lane : Fin 3)
  /-- LANE_RESYNC (R385): The dropped lane takes a majority lane's state and returns to the vote. -/
  | laneResync
  /-- LANE_DISAGREEMENT_RESET (R385): All lanes differ, so the force line is asserted and the device resets. -/
  | laneDisagreementReset
  /-- HOURLY_FAULT_COUNTS (R399): Once every hour of island time the non-zero counts of F1 inputs are journaled. -/
  | hourlyFaultCounts
  /-- LOGREAD_ACK (R398): A write of n to SAFEISL.LOGREAD.ACK marks the n oldest unread records as read. -/
  | logreadAck (n : BitVec 8)
  /-- CLRCNT (R398): A write of 1 to SAFEISL.CTL.CLRCNT clears every REACTi.COUNT. -/
  | clrcnt
  /-- REACT_WRITE (R393): A write to REACTi.REACT is performed only in BOOT and CONFIG before LOCK, raised to the floor, or refused with WREFUSED. -/
  | reactWrite (i : Fin 256) (v : BitVec 3)
  /-- KEEPER_ENABLE (R401): The first write to KEEPER.CFG enables Keeper with the written settings and locks its configuration. -/
  | keeperEnable (w : Word)
  /-- SVC_WRITE (R406): A write to KEEPER.SVC is judged as valid service, EARLY, DOUBLE, EXTRA or FOREIGN. -/
  | svcWrite (m : Fin 31) (v : BitVec 16)
  /-- CHECK_IN (R407): A released check-in reaches Keeper and is counted, rejected as foreign or ignored as unsupervised. -/
  | checkIn (p : Fin 16)
  /-- WINDOW_CLOSE (R408): At the close tick Keeper evaluates service and tasks and starts the next window or expires. -/
  | windowClose
  /-- KPR_EXPIRY (R410): Keeper expires: it records the cause, forces outputs, raises the expiry trap at every active pair and starts the hard timer. -/
  | kprExpiry
  /-- HARD_TIMER_END (R411): The Keeper hard timer ends and the island applies a RESET reaction. -/
  | hardTimerEnd
  /-- KEEPER_CLOCK_TRIP (R403): Keeper's clock monitor finds the chosen clock off frequency or stopped and expires Keeper with cause CLOCK. -/
  | keeperClockTrip
  /-- EVSTAT_CLEAR (R412): Clearing KEEPER.EVSTAT.VALID also clears every EVPCp.VALID. -/
  | evstatClear
  /-- RUN (R423): The RUN command enters RUN or DEGRADED, or SAFE-STOP while SSLATCH is set, confirming the start, or is refused. -/
  | run (src : CmdSrc)
  /-- SAFE_STOP (R417): The SAFE_STOP command moves the device from RUN or DEGRADED to SAFE-STOP. -/
  | safeStop (src : CmdSrc)
  /-- STANDBY (R434): The STANDBY command enters STANDBY, waits for releases, seals the journal and stops clocks, or is refused NOWAKE. -/
  | standby (src : CmdSrc)
  /-- STANDBY_COMPLETION (R434): Once releases are complete or 1 ms has passed, the journal is sealed and clocks and VPAIRn stop. -/
  | standbyCompletion
  /-- ENTER_CONFIG (R421): The protected ENTER_CONFIG command enters CONFIG from BOOT or SAFE-STOP and confirms the start. -/
  | enterConfig (src : CmdSrc)
  /-- MAKER_TEST (R421): The protected MAKER_TEST command enters MAKER-TEST in MANUFACTURE or RETURNED. -/
  | makerTest (src : CmdSrc)
  /-- CLEAR_FOG (R433): The protected CLEAR_FOG command zeroes the fail counts and resets the device out of FOG. -/
  | clearFog (src : CmdSrc)
  /-- UNFENCE (R423): The protected UNFENCE command sets a fenced pair to OFF in retention for the next BOOT. -/
  | unfence (src : CmdSrc) (n : Fin 16)
  /-- RESET (R421): The protected RESET command performs a device reset in any mode. -/
  | reset (src : CmdSrc)
  /-- UNKNOWN_COMMAND (R422): A command code not in the table completes with status UNKNOWN and no effect. -/
  | unknownCommand (src : CmdSrc) (code : BitVec 8)
  /-- DEVICE_RESET (R424): A device reset runs start-up steps S1 to S7: ROM boot, PLL lock, journal mount, slot choice and verification, planning and pair load. -/
  | deviceReset (env : BootEnv)
  /-- BOOT_CONFIRM_EXPIRY (R426): BOOT_CONFIRM expires unconfirmed, the failure is journaled and the device resets. -/
  | bootConfirmExpiry
  /-- WAKE (R435): An enabled wake source wakes the device from STANDBY with a device reset into BOOT. -/
  | wake (w : WakeBy)
  /-- POWER_ON_RESET (R48): VBUS rises through 34 V, the rails come up in order and power-on reset is released into BOOT. -/
  | powerOnReset
  /-- PORT_LOSS (R45): One port loses supply while the other supplies, setting PORTLOSS and presenting PORT_LOSS. -/
  | portLoss (b : Bool) (v : Nat)
  /-- LOWIN (R52): The higher port voltage enters 33-36 V, setting LOWIN and counting the entry. -/
  | lowin (b : Bool) (v : Nat)
  /-- PFAIL (R54): Power failure is detected: PFAIL is set, POWER_FAIL is presented and produced, and the journal is told to seal. -/
  | pfail (hold : Bool)
  /-- RIDE_END (R57): At the end of RIDE the ride-through succeeds and PFAIL clears, or the failure commits and outputs are forced safe. -/
  | rideEnd
  /-- POWER_FAIL_SEAL_DONE (R59): After a commit the seal completes and the island stops pair clocks and switches VPAIR off. -/
  | powerFailSealDone
  /-- INPUT_RETURN (R60): Input returns after a commit for 1 ms, and after the seal the device resets into BOOT. -/
  | inputReturn
  /-- CONVERTER_STOP (R47): VBUS falls below 18 V and the main converter stops. -/
  | converterStop
  /-- TEMPERATURE_SAMPLE (R33): Every 1 ms the device reads its temperature sensors and sets THWARN, presents THERM_HI or forces and resets on THERM_CRIT. -/
  | temperatureSample (base : Int) (dies : List Int)
  /-- SUPPLY_OVERLOAD (R41): V3P3_OUT or V5_OUT overloads and switches off, setting SUPOVL. -/
  | supplyOverload (v5 : Bool)
  /-- V5ON (R41): Writing 1 to POWER.SUPCTL.V5ON re-enables V5_OUT. -/
  | v5on
  /-- V3ON (R41): Writing 1 to POWER.SUPCTL.V3ON re-enables V3P3_OUT. -/
  | v3on
  /-- CLOCK_LOSS (R22): A PLL, synthesiser or REFOSC loses lock and the power supervisor presents the loss to the island. -/
  | clockLoss (c : ClockSrc)
  /-- SSTOP (R63): An SSTOP input stays de-energised beyond its filter time, so outputs are forced and the device enters SAFE-STOP. -/
  | sstop (x : StopInput)
  /-- SSTOP_DISCREP (R65): The two SSTOP inputs differ for 500 ms and SSTOP_DISCREP is presented. -/
  | sstopDiscrep
  /-- SWITCH_FORWARD (R438): The switch receives a whole frame and forwards, floods or drops it. -/
  | switchForward (port : Fin 3) (f : Frame)
  /-- ETH_LINK (R457): A T1 port's link changes, setting LINKCHG, and a loss presents ETH_LINK. -/
  | ethLink (q : Fin 2) (up : Bool) (master : Bool) (sqi : Fin 8)
  /-- SAFETY_MESSAGE_RECEIVE (R449): The host port checks a safety-transport message in order and accepts it into the receive ring or drops it. -/
  | safetyMessageReceive
  /-- RAW_FRAME_RECEIVE (R451): A frame of another EtherType goes to the raw receive ring or is dropped. -/
  | rawFrameReceive
  /-- TX_DESCRIPTOR_SEND (R446): The host port sends a descriptor's message, filling SRC, SEQ and TIME, computing TAG and writing DONE. -/
  | txDescriptorSend (r : Fin 16)
  /-- TXR_GATED_TRIGGER (R448): A gated ring's trigger sends one descriptor, or is lost with TXEMPTY. -/
  | txrGatedTrigger (r : Fin 16)
  /-- GPTP_SYNC_CHANGE (R441): The offset estimate enters or leaves its bound and SYNC changes, presenting ETH_SYNC on loss. -/
  | gptpSyncChange (x : SyncSample)
  /-- TIME_PULSE (R442): A time pulse captures SGT and SLT and produces event 462. -/
  | timePulse
  /-- EPOCH_WRAP (R445): The SEQ count wraps and the epoch increments and is journaled. -/
  | epochWrap
  /-- CAN_FRAME_RECEIVE (R453): A CAN frame that passes the filter and CRC is written to the RX ring or counted as lost. -/
  | canFrameReceive (k : Fin 4) (f : CanFrame)
  /-- CAN_FRAME_SEND (R454): The controller sends the head TX entry, gated by its trigger input if GATED. -/
  | canFrameSend (k : Fin 4)
  /-- CAN_BUSOFF (R455): A controller goes bus-off and presents CAN_BUSOFF. -/
  | canBusoff (k : Fin 4)
  /-- BUSOFF_AUTO_RECOVERY (R455): With AUTOREC set the controller recovers after 128 × 11 recessive bits. -/
  | busoffAutoRecovery (k : Fin 4)
  /-- RECOVER (R455): Writing 1 to CTL.RECOVER starts bus-off recovery. -/
  | recover (k : Fin 4)
  /-- CAN_WAKE_PATTERN (R435): A CAN wake-up pattern on an enabled controller in STANDBY wakes the device. -/
  | canWakePattern (k : Fin 4)
  /-- BUOY_LIST_START (R473): An idle Buoy port starts the lowest waiting list from a trigger. -/
  | buoyListStart (k : Fin 8)
  /-- BUOY_START (R473): A write to Pk.CTL.START starts or queues list t, or sets CMDREF. -/
  | buoyStart (k : Fin 8) (lists : BitVec 8)
  /-- BUOY_TRANSACTION_SEND (R475): The port sends the next descriptor's request in its slot. -/
  | buoyTransactionSend (k : Fin 8)
  /-- BUOY_REPLY_RECEIVE (R471): A reply arrives and ends the transaction OK, STATE or LENERR, or fails the attempt. -/
  | buoyReplyReceive (k : Fin 8) (r : BuoyReply)
  /-- BUOY_DEADLINE (R471): A reply deadline passes and the attempt fails, retrying or ending TIMEOUT. -/
  | buoyDeadline (k : Fin 8)
  /-- BUOY_WAIT_END (R475): A WAIT descriptor's time is reached and the next descriptor may start. -/
  | buoyWaitEnd (k : Fin 8)
  /-- BUOY_CYCLE_COMPLETE (R476): The last descriptor is final, LAST is written, CYC is set and event 450 + k is produced. -/
  | buoyCycleComplete (k : Fin 8)
  /-- BUOY_ENUM (R478): A write to Pk.CTL.ENUM enumerates the ring, assigning addresses in ring order. -/
  | buoyEnum (k : Fin 8) (ring : EnumRing)
  /-- BUOY_BREAK (R479): A ring break is declared and the port switches to LINE mode or disables itself. -/
  | buoyBreak (k : Fin 8)
  /-- BUOY_HEAL (R480): The port receives its own frame on the other pair and returns to RING mode at its next cycle. -/
  | buoyHeal (k : Fin 8)
  /-- BUOY_MEM (R481): A descriptor read or reply write fails, ending the cycle with ABORT and presenting BUOY_MEM. -/
  | buoyMem (k : Fin 8)
  /-- SIGNED_FRAGMENT_RECEIVE (R492): The island takes a fragment of a signed block and reassembles it. -/
  | signedFragmentReceive
  /-- REASSEMBLY_TIMEOUT (R492): A block's fragments have not all arrived within 100 ms and it is discarded. -/
  | reassemblyTimeout
  /-- SIGNED_BLOCK_CHECK (R493): The island checks a complete signed block in order, updates the role counter and answers it. -/
  | signedBlockCheck
  /-- ENROL_MAKER (R497): The unsigned ENROL_MAKER writes the maker roots and moves BLANK to MANUFACTURE. -/
  | enrolMaker (b : SignedArg)
  /-- PROVISION (R497): PROVISION fuses the installer roots and IWK and moves MANUFACTURE to PROVISIONED. -/
  | provision (b : SignedArg)
  /-- GENKEY (R502): GENKEY draws seeds and starts building the attestation key. -/
  | genkey (b : SignedArg) (seeds : Nat)
  /-- ATTKEY_READY (R502): Both first trees are built and the attestation key becomes READY. -/
  | attkeyReady
  /-- TRUST_ENTROPY (R502): A noise-source health test fails, the seeds are discarded and TRUST_ENTROPY is presented. -/
  | trustEntropy
  /-- DEPLOY (R497): DEPLOY moves PROVISIONED to DEPLOYED. -/
  | deploy (b : SignedArg)
  /-- RETURN (R487): RETURN moves the device to RETURNED, erasing keys, operator roots and grants. -/
  | returnToMaker (b : SignedArg)
  /-- SCRAP (R487): SCRAP moves the device to SCRAPPED and destroys the attestation key. -/
  | scrap (b : SignedArg)
  /-- REVOKE_ROOT (R489): REVOKE_ROOT revokes an installer or maker slot or empties an operator slot. -/
  | revokeRoot (b : SignedArg)
  /-- SET_OPROOT (R488): SET_OPROOT writes an operator root slot. -/
  | setOproot (b : SignedArg)
  /-- SET_KEY (R490): SET_KEY stores a transport key unwrapped under IWK, DEVUID and CTR. -/
  | setKey (b : SignedArg)
  /-- SET_POLICY (R497): SET_POLICY sets OPINSTALL and OPCOSIGN. -/
  | setPolicy (b : SignedArg)
  /-- INSTALL (R501): INSTALL checks a slot and, with ACTIVATE, makes it active and resets fail counts. -/
  | install (b : SignedArg)
  /-- DEBUG_GRANT (R506): DEBUG_GRANT puts a debug grant with rights, regions and duration in force. -/
  | debugGrant (b : SignedArg)
  /-- GRANT_END (R506): A debug grant's duration runs out and the grant and session end. -/
  | grantEnd
  /-- ATTEST (R504): ATTEST answers a nonce with a statement signed by the attestation key. -/
  | attest (b : SignedArg)
  /-- JOURNAL_SEAL (R516): The engine programs the open-page buffer into the next page, reads it back and verifies it. -/
  | journalSeal (badPages : Nat)
  /-- SEAL_PERIOD (R516): PERIOD passes since the last seal with entries waiting and a seal is made. -/
  | sealPeriod (badPages : Nat)
  /-- APPEND (R518): A write to NVS.APPEND adds a software entry from shared memory, sealing on request. -/
  | append (addr : Word)
  /-- CHAIN_VERIFY (R521): Within 2 s after S3 the engine verifies the chain hash and sets CHAINOK or presents NVS_CHAIN. -/
  | chainVerify (broken : Option Nat)
  /-- COMPACTION (R522): At 75 % fill the engine writes the new area's page 0 and erases the old area. -/
  | compaction
  /-- BLOCK_REMAP (R511): At the next idle time a block needing many corrections is copied to a reserve block and remapped. -/
  | blockRemap (block : Fin 2048)
  /-- ERASE (R525): SLOTCTL ERASE erases a slot from its manifest block, or one evidence record. -/
  | erase (m : Fin 31) (w : Word)
  /-- PROGRAM (R525): SLOTCTL PROGRAM copies pages from shared memory into a slot or record. -/
  | program (m : Fin 31) (w : Word)
  /-- FINISH (R525): SLOTCTL FINISH programs a slot's manifest or journals an EVIDENCE entry. -/
  | finish (m : Fin 31) (w : Word)
  /-- BIST_START (R528): A write of 1 to TEST.BISTCTL.START stops the pairs and runs the factory BIST, or is refused. -/
  | bistStart
  /-- BIST_CONDITION_CHECK (R529): Every 100 µs the island checks the BIST clock and supply and aborts the run on a failure. -/
  | bistConditionCheck (clockKHz : Nat) (supplyMv : Nat) (results : List DWord)
  /-- BIST_END (R530): A BIST run ends, clearing valid copies and leaving every pair OFF. -/
  | bistEnd (results : List DWord)
  /-- REPAIR (R532): A write of 1 to BISTCTL.REPAIR blows the planned repairs and journals them. -/
  | repair
  /-- WATCH_PERIOD_END (R533): A Watch period ends and uncovered elements are listed and WATCH_LATE is presented. -/
  | watchPeriodEnd
  /-- MARCH_WORD (R534): The transparent march tests one bank word in an idle cycle and a 4-fc hold. -/
  | marchWord (inst : Fin 153) (word : Nat) (stuck : List (Fin 75))
  /-- OFFER (R536): A write to TEST.OFFERp offers a budget that Watch accepts for a slice or discards. -/
  | offer (p : Fin 16) (budget : BitVec 16)
  /-- OFFER_ABANDON (R537): The slice checkpoint's K0 has not begun within 0.200 µs and the slice is abandoned. -/
  | offerAbandon (p : Fin 16)
  /-- SPARE_SLICE (R536): Watch runs a logic slice on a pair in state SPARE. -/
  | spareSlice (n : Fin 16) (fail : Bool)
  /-- LOOPBACK (R539): Watch runs a PWM, SDF or ADC loopback and presents WATCH_LOOP on a failure. -/
  | loopback (block : LoopBlock) (pass : Bool)
  /-- VOLTAGE_ADJUST (R540): Every 1 ms each pair's regulator moves VPAIR to keep the replica slack, presenting AGE_MONITOR if it cannot. -/
  | voltageAdjust (n : Fin 16) (slack : Nat) (nbti : Nat)
  /-- MARGIN_PLANNER_RUN (R541): After 500 operating hours or at S6 the planner chooses each pair's step, retiring pairs and reporting shortfalls. -/
  | marginPlannerRun (projected : List (Option Nat))
  /-- RESET_PULSE (R547): NRST_TDR stays low for 100 µs and the device resets until the line is high for 10 µs. -/
  | resetPulse
  /-- LINE_ERROR (R546): A symbol or line error on NRST_TDR discards the frame in progress and is counted. -/
  | lineError
  /-- BADFRAME (R550): A request frame with a wrong CRC or length is answered BADFRAME. -/
  | badframe
  /-- PENDING_REPLY (R550): A command's work is not done 80 µs after the request and the module replies PENDING. -/
  | pendingReply
  /-- ATTACH (R553): ATTACH opens a debug session and replies with lifecycle, mode, rights and DEVUID. -/
  | attach (tag : BitVec 8)
  /-- DETACH (R553): DETACH ends the session, resumes halted pairs and disables comparators. -/
  | detach (tag : BitVec 8)
  /-- SESSION_IDLE_TIMEOUT (R553): IDLE seconds pass without a valid request and the session ends. -/
  | sessionIdleTimeout
  /-- STATUS (R552): STATUS replies with DEBUG.STAT, SYSCTL.STAT and every PnSTAT. -/
  | status (tag : BitVec 8)
  /-- RESULT (R550): RESULT returns the result of the last PENDING command, or PENDING again. -/
  | result (tag : BitVec 8)
  /-- SIGNED (R552): SIGNED carries a signed command block over the Tender wire to the island. -/
  | signed (tag : BitVec 8) (block : List Byte)
  /-- HALT (R556): HALT halts the named pairs at the next bundle boundary, deferred while a lock is open. -/
  | halt (tag : BitVec 8) (pairs : BitVec 16)
  /-- RESUME (R557): RESUME lets the named pairs apply the bundle boundary again from the next cycle. -/
  | resume (tag : BitVec 8) (pairs : BitVec 16)
  /-- STEP (R558): STEP resumes a halted pair for n bundles and then halts it again. -/
  | step (tag : BitVec 8) (p : Fin 16) (count : BitVec 16)
  /-- SETCOMP (R561): SETCOMP writes a debug comparator of a logical pair. -/
  | setcomp (tag : BitVec 8) (p : Fin 16) (k : Fin 8) (addr : Word) (mask : Word) (ctl : Word)
  /-- RDCORE (R560): RDCORE reads a pair's frame, data or instruction memory after both cores agree. -/
  | rdcore (tag : BitVec 8) (p : Fin 16) (area : Fin 3) (count : Nat) (offset : Nat)
  /-- WRCORE (R560): WRCORE writes both cores of a halted pair alike and forces a checkpoint before the next bundle. -/
  | wrcore (tag : BitVec 8) (p : Fin 16) (area : Fin 3) (offset : Nat) (data : List Byte)
  /-- READ (R555): READ peeks or live-reads the data or I/O space as debug master 30. -/
  | read (tag : BitVec 8) (io : Bool) (live : Bool) (count : Nat) (addr : Word)
  /-- WRITE (R555): WRITE writes the data or I/O space as debug master 30. -/
  | write (tag : BitVec 8) (io : Bool) (addr : Word) (data : List Byte)
  /-- DEBUG_UNKNOWN (R551): A request whose CMD is not in the command table is answered UNKNOWN. -/
  | debugUnknown (tag : BitVec 8)
  /-- DMA_CHANNEL_START (R564): A DMA channel starts a transfer from its trigger or a START write, or drops the START with SWOVR. -/
  | dmaChannelStart (e : Fin 2) (j : Fin 32) (sw : Bool)
  /-- DMA_TRANSFER_END (R564): A DMA transfer ends, writing CODE, setting DONE or ERR and producing its event. -/
  | dmaTransferEnd (e : Fin 2) (j : Fin 32)
  /-- REGISTER_WRITE (R14): A write to a register with no row of its own changes its fields as their access codes lay down. -/
  | registerWrite (m : Fin 31) (user : Bool) (addr : Nat) (v : Word)
  /-- PORT_SUPPLY_RETURN (R44): A lost port's voltage returns to or above 33 V while the other port supplies, changing SRC and PORTx_ON and ending LOWIN where it held. -/
  | portSupplyReturn (b : Bool) (v : Nat)
  /-- SSTOP_REENERGISED (R62): An SSTOP input receives at least 15 V and 2 mA again and becomes energised, updating SSTOPE and lifting the RUN refusal of R66. -/
  | sstopReenergised (x : StopInput)
  /-- SDF_CLOCK_RETURN (R301): The modulator clock of an input that had lost it returns, and the input stops counting as tripped. -/
  | sdfClockReturn (n : Fin 36)
  /-- SDF_TRIP_END (R299): The fast sinc2 value comes back within FTHR, so the input stops being tripped. -/
  | sdfTripEnd (n : Fin 36) (bits : List Bool)
  /-- SLOT_OPERATION_DONE (R525): A SLOTCTL erase, program or finish completes in flash, clearing SLOTSTAT.BUSY and writing its STATUS. -/
  | slotOperationDone (err : Bool)
  /-- COMPACTION_ERASE_DONE (R522): The block-by-block erase of the old journal area ends and STAT.COMPACT clears, leaving the area ready to become active at the next compaction. -/
  | compactionEraseDone
  /-- LEARNING_ENTRY_AGEOUT (R438): An entry of the switch's learning table ages out after SW.AGE seconds without refresh. -/
  | learningEntryAgeout
deriving DecidableEq, Repr

end Sys2Proof
end

