-- ==== Sys2Proof/Decode.lean ====
section
/-! DEFINITION. Decode.lean: the command that a word spells by the bits of spec/opcode_table.json. No row of that table
gives its command any bits, so no word spells a command. -/

namespace Sys2Proof

/-- The command of a word of `nbits` bits by the table's encodings: none, since no row has an encoding. -/
def decodeTableWord (_nbits _w : Nat) : Option Instr := none

end Sys2Proof
end

