-- ==== Sys2Proof/Config.lean ====
section
/-! DEFINITION. Config.lean: the values that the spec leaves open, as constants without a body: nothing can evaluate them
or prove a value of them, so what is proved holds for every value. A function of a counter gives a fresh value each
time; the counter is the model's own field (`Dev.free`, `Pair.choice`). -/

namespace Sys2Proof.Config

/-- A fresh choice of two: which form of a rewritten bundle has been fetched ahead (R196), how an angle is rounded. -/
opaque freeBit : Nat → Bool

/-- A fresh number, cut to the width where it is used. -/
opaque freeNat : Nat → Nat

/-- How long after 50 ns from a cause of forcing a group's safe-high outputs are driven high, up to 100 ns (R291). -/
opaque safeHighLag : Nat → Nat

/-- The boot ROM's words (R25): the spec gives no contents. -/
opaque romWord : Nat → DWord

/-- XMSS verification (R488, R493, R499): root, message and signature. The signature scheme is that of RFC 8391. -/
opaque xmssVerify : List Byte → List Byte → List Byte → Bool

/-- The payload of a journal entry of a type whose layout no chapter gives: from its type and the values it records. -/
opaque journalPayload : Nat → List Nat → List Byte

/-- A byte of a programmed journal page beyond its header: from generation, page and offset. Its entries' payload layouts
are open, so their bytes are. -/
opaque journalByte : Nat → Nat → Nat → Byte

/-- A byte of the store's flash that an operation has left undefined: it failed, was stopped, or ended with a reset
(R525): from the number of the failure and the byte's offset. -/
opaque spoiltByte : Nat → Nat → Byte

/-- The public key of the attestation key grown from numbered seeds (R502). -/
opaque attPublicKey : Nat → List Byte

/-- The attestation signature over a statement under an index (R504). -/
opaque attSignature : Nat → Nat → List Byte → List Byte

/-- A word of a frame's areas whose inner layout no chapter gives (the first 64 bytes, in-flight results, gates and shadow
banks, R235): from the area's first offset, the word within it and the values that the area holds. -/
opaque frameWord : Nat → Nat → List Nat → DWord

/-- What a debug write of such an area makes of the values it holds (R560): from the area, the byte offset within it, the
bytes written and the values before. -/
opaque frameWritten : Nat → Nat → List Byte → List Nat → List Nat

/-- A word of a slot header after its checkpoint number and signature (R237): the placing of d, the logical pair, the
clock step, APPLIED and VALID is open. -/
opaque headerWord : Nat → List Nat → DWord

/-- The ROM recovery firmware's entry bundle and images (R431): the spec gives no contents. -/
opaque recoveryEntry : Nat
opaque recoveryByte : Nat → Byte

end Sys2Proof.Config
end

