-- ==== Sys2Proof/Machine/Bits.lean ====
section
/-! DEFINITION. Bits.lean: bit fields, sign extension, byte order and saturating counts (R7, R8). -/

namespace Sys2Proof.Machine

/-- Bits `[lo + w - 1 : lo]` of a number (R7). -/
def bitsOf (x lo w : Nat) : Nat := (x >>> lo) % 2 ^ w

/-- Bit `i` of a number as 0 or 1. -/
def bitOf (x i : Nat) : Nat := (x >>> i) % 2

/-- Bit `i` of a number as a truth value. -/
def hasBit (x i : Nat) : Bool := x.testBit i

/-- The number with bit `i` set. -/
def withBit (x i : Nat) : Nat := x ||| (1 <<< i)

/-- The number with bit `i` clear. -/
def withoutBit (x i : Nat) : Nat := if x.testBit i then x - 2 ^ i else x

/-- The mask with bit `i` set where `p i` holds, for `i < n`. -/
def maskOf (p : Nat → Bool) : Nat → Nat
  | 0 => 0
  | n + 1 => maskOf p n + (if p n then 2 ^ n else 0)

/-- The numbers below `n` whose bit is set in `x`, rising. -/
def bitsList (x : Nat) (n : Nat) : List Nat := (List.range n).filter (fun i => x.testBit i)

/-- `n` kept between `a` and `b`. -/
def clamp (a b n : Nat) : Nat := if n < a then a else if b < n then b else n

/-- `x + 1`, or `top` once there (a saturating count). -/
def satInc (top x : Nat) : Nat := if x < top then x + 1 else top

/-- `x - n` to no less than zero is natural subtraction; `x + n` to no more than `top`. -/
def satAdd (top x n : Nat) : Nat := if x + n < top then x + n else top

/-- The two's complement value of the low `w` bits of `x`. -/
def sext (w x : Nat) : Int :=
  let y := x % 2 ^ w
  if y < 2 ^ (w - 1) then (y : Int) else (y : Int) - (2 ^ w : Int)

/-- The low `w` bits of an integer, as a number. -/
def wrap (w : Nat) (x : Int) : Nat := (x % (2 ^ w : Int)).toNat

/-- An integer kept within the signed range of `w` bits. -/
def satInt (w : Nat) (x : Int) : Int :=
  if x > (2 ^ (w - 1) : Int) - 1 then (2 ^ (w - 1) : Int) - 1
  else if x < -(2 ^ (w - 1) : Int) then -(2 ^ (w - 1) : Int) else x

/-- The number whose little-endian bytes are listed (R8). -/
def leNat : List Byte → Nat
  | [] => 0
  | b :: t => b.toNat + 256 * leNat t

/-- The low `n` bytes of a number, least significant first (R8). -/
def leBytes : Nat → Nat → List Byte
  | 0, _ => []
  | n + 1, x => BitVec.ofNat 8 x :: leBytes n (x / 256)

/-- The bitwise complement within `w` bits. -/
def notW (w x : Nat) : Nat := (2 ^ w - 1) - x % 2 ^ w

/-- Numbers packed from bit fields listed as (value, lowest bit, width), each value cut to its width. -/
def packFields : List (Nat × Nat × Nat) → Nat
  | [] => 0
  | (v, lo, w) :: t => (v % 2 ^ w) <<< lo ||| packFields t

/-- The absolute value of an integer as a number. -/
def absNat (x : Int) : Nat := x.natAbs

/-- The greatest element of a list, or 0. -/
def maxOf (l : List Nat) : Nat := l.foldl max 0

/-- How many bits of the low `n` are set. -/
def popCount (x : Nat) : Nat → Nat
  | 0 => 0
  | n + 1 => bitOf x n + popCount x n

end Sys2Proof.Machine
end

