-- ==== Sys2Proof/Machine/FaultTable.lean ====
section
/-! DEFINITION. FaultTable.lean: the fault inputs with their inherent class, floor and default reaction (R388 to R390, R457,
R483, R508, R527, R545, R562). -/

namespace Sys2Proof.Machine

/-- A row of the reaction table as the manual gives it: inherent class (1 to 5 for F1 to F5), floor (7 for a fixed input)
and default reaction code (R391; a fixed input reads 0b101). A reserved input has class 0. -/
structure FaultRow where
  inher : Nat
  floor : Nat
  react : Nat
deriving DecidableEq, Repr

/-- F1, floor RECORD, INTERRUPT: the row that most inputs have. -/
def plainRow : FaultRow := { inher := 1, floor := 0, react := 1 }

/-- A reserved input, which is never presented (R390). -/
def reservedRow : FaultRow := { inher := 0, floor := 0, react := 0 }

/-- The device-wide inputs 0 to 31 (R388). POWER_FAIL is F1 or F4; its row shows F1. -/
def deviceRow (n : Nat) : FaultRow :=
  if n = 4 ∨ n = 5 then { inher := 1, floor := 4, react := 5 }
  else if n = 7 then { inher := 1, floor := 3, react := 3 }
  else if n = 8 ∨ n = 25 then { inher := 5, floor := 7, react := 5 }
  else if n = 20 then { inher := 1, floor := 0, react := 4 }
  else if n = 23 then { inher := 1, floor := 7, react := 5 }
  else if n = 24 then { inher := 4, floor := 7, react := 5 }
  else if n = 26 then { inher := 1, floor := 0, react := 0 }
  else if n < 27 then plainRow
  else reservedRow

/-- Pair fault k (R389). -/
def pairRow (k : Nat) : FaultRow :=
  if k = 0 ∨ k = 4 then { inher := 2, floor := 0, react := 0 }
  else if k = 1 then { inher := 3, floor := 0, react := 1 }
  else if k = 2 then { inher := 3, floor := 3, react := 3 }
  else if k = 5 then { inher := 1, floor := 0, react := 3 }
  else if 7 ≤ k then { inher := 1, floor := 4, react := 4 }
  else plainRow

/-- The row of input `n`. -/
def faultRow (n : Nat) : FaultRow :=
  if n < 32 then deviceRow n
  else if n < 192 then pairRow ((n - 32) % 10)
  else if n ≤ 199 then plainRow
  else if n < 208 then reservedRow
  else if n ≤ 218 then plainRow
  else if n < 224 then reservedRow
  else if n = 226 ∨ n = 235 then { inher := 1, floor := 0, react := 4 }
  else if n ≤ 227 then plainRow
  else if n < 232 then reservedRow
  else if n ≤ 234 then plainRow
  else if n < 240 then reservedRow
  else if n = 241 ∨ n = 245 then { inher := 3, floor := 3, react := 3 }
  else if n ≤ 246 then plainRow
  else if n = 248 ∨ n = 249 then plainRow
  else reservedRow

/-- The reaction table does not govern the input (R388, R397). -/
def fixedInput (n : Nat) : Bool := (faultRow n).floor = 7

/-- Pair fault `k` of physical pair `p` (R389). -/
def pairFault (p k : Nat) : Nat := 32 + 10 * p + k

/-- The physical pair that a presented input concerns (R389, R391): a pair input's own, or the one that the detail of
PSYN_LOSS, WATCH_LBIST or AGE_RETIRE names. AGE_MONITOR's detail names one too (R545). -/
def pairOfFault (n detail : Nat) : Option Nat :=
  if 32 ≤ n ∧ n < 192 then some ((n - 32) / 10)
  else if n = 7 ∨ n = 241 ∨ n = 245 ∨ n = 246 then some (detail % 16)
  else none

/-! ### The inputs by name (R388, R390) -/

def fiIslVote : Nat := 0
def fiIslWrite : Nat := 1
def fiThermHi : Nat := 2
def fiSstopDiscrep : Nat := 3
def fiRefoscLoss : Nat := 4
def fiSpllLoss : Nat := 5
def fiEpllLoss : Nat := 6
def fiPsynLoss : Nat := 7
def fiKprExpiry : Nat := 8
def fiKprSvc : Nat := 9
def fiKprTask : Nat := 10
def fiMemUncorr : Nat := 11
def fiMemCerate : Nat := 12
def fiFabProt : Nat := 13
def fiLockbreak : Nat := 14
def fiMpuDeny : Nat := 15
def fiEvtLoop : Nat := 16
def fiLtnJump : Nat := 17
def fiLtnLoss : Nat := 18
def fiOcTrip : Nat := 19
def fiPinerr : Nat := 20
def fiCkloss : Nat := 21
def fiPosErr : Nat := 22
def fiPowerFail : Nat := 23
def fiSstop : Nat := 24
def fiThermCrit : Nat := 25
def fiPortLoss : Nat := 26
def fiEthLink : Nat := 192
def fiEthInteg : Nat := 194
def fiEthSync : Nat := 195
def fiCanBusoff : Nat := 196
def fiBuoyBreak : Nat := 208
def fiBuoyPfail : Nat := 216
def fiBuoyMem : Nat := 217
def fiBuoyEnum : Nat := 218
def fiSigfail : Nat := 224
def fiEntropy : Nat := 225
def fiFuse : Nat := 226
def fiRollback : Nat := 227
def fiJfail : Nat := 232
def fiChain : Nat := 233
def fiWear : Nat := 234
def fiFull : Nat := 235
def fiMarch : Nat := 240
def fiLbist : Nat := 241
def fiLoop : Nat := 242
def fiLate : Nat := 243
def fiShortfall : Nat := 244
def fiRetire : Nat := 245
def fiMonitor : Nat := 246
def fiDbgDeny : Nat := 248
def fiDbgLine : Nat := 249

/-- The pair faults by their number k (R389). -/
def pfMismatch : Nat := 0
def pfMigrated : Nat := 1
def pfNospare : Nat := 2
def pfOverrun : Nat := 3
def pfCapture : Nat := 4
def pfCmptest : Nat := 5
def pfStarve : Nat := 6
def pfNobank : Nat := 7
def pfVector : Nat := 8
def pfLmem : Nat := 9

end Sys2Proof.Machine
end

