-- ==== Sys2Proof/Machine/RegTypes.lean ====
section
/-! DEFINITION. RegTypes.lean: what a field of an I/O register is: where it stands, its access code (R14), its reset
value (R13) and what a written value is stored as. -/

namespace Sys2Proof.Machine

/-- A field of a register by its place: the register's I/O address, the field's lowest bit and its width (R7). -/
structure Fld where
  addr : Nat
  lo : Nat
  w : Nat
deriving DecidableEq, Repr

/-- The access codes of R14. -/
inductive Acc where
  | rw | ro | wo | w1c | w1s | tgl | rc | lck
deriving DecidableEq, Repr

/-- What a field table says a written value is stored as. -/
inductive Norm where
  /-- As written. -/
  | any
  /-- A value outside `lo` to `hi` is stored as the nearer bound. -/
  | clamped (lo hi : Nat)
  /-- The value `v` is stored as `as`. -/
  | storedAs (v as : Nat)
  /-- A write of the value `v` leaves the field as it was. -/
  | kept (v : Nat)
  /-- AGEING.NEED: steps 36 to 48, any other value stored as 0. -/
  | needStep
  /-- DMA LEN: the low three bits are stored as 0. -/
  | align8
deriving DecidableEq, Repr

/-- A field's reset value: a number, the number of the instance, or the default reaction of the fault input of that
number (R388). -/
inductive Rst where
  | value (n : Nat)
  | index
  | reaction
deriving DecidableEq, Repr

/-- One row of a register's field table. `ret`: its Meaning names retention (R13). `live`: it reads as the present
state of its block. `lockBit`: it is the block's LOCK bit (R569). -/
structure FieldRow where
  lo : Nat
  w : Nat
  acc : Acc
  rst : Rst := .value 0
  ret : Bool := false
  live : Bool := false
  lockBit : Bool := false
  norm : Norm := .any
deriving DecidableEq, Repr

/-- The value stored for a written value `v` over an old value `old`. -/
def Norm.apply (n : Norm) (old v : Nat) : Nat :=
  match n with
  | .any => v
  | .clamped a b => clamp a b v
  | .storedAs x y => if v = x then y else v
  | .kept x => if v = x then old else v
  | .needStep => if 36 ≤ v ∧ v ≤ 48 then v else 0
  | .align8 => v - v % 8

end Sys2Proof.Machine
end

