-- ==== Sys2Proof/Machine/RegTable.lean ====
section
/-! DEFINITION. RegTable.lean: the I/O map as data. Each block of R28 lists its registers with their offsets and
their repetitions, and each register lists its fields as its field table gives them (bits, access code, reset value,
retention, and what a written value is stored as). A register is one of R11's 32-bit words. -/

namespace Sys2Proof.Machine

/-- The registers of the device, one name for each row of the I/O map. -/
inductive Reg where
  | SYSCTL_STAT | SYSCTL_CMD | SYSCTL_CMDSTAT | SYSCTL_BOOTCFG | SYSCTL_BOOTSTAT | SYSCTL_FOGREASON | SYSCTL_MAP
  | SYSCTL_NEED | SYSCTL_WAKE | SYSCTL_WAKESRC | SYSCTL_REFUSED | SYSCTL_LOCK | PAIRCTL_ROLE | PAIRCTL_SEGMAX
  | PAIRCTL_SEGEFF | PAIRCTL_SPARE | PAIRCTL_FSTAT | PAIRCTL_CNT | PAIRCTL_CKNUM | PAIRCTL_LASTMM | PAIRCTL_CERR
  | PAIRCTL_CERRADDR | PAIRCTL_OCC | PAIRCTL_CMPTEST | PAIRCTL_LOCK | INTC_CFG | INTC_PEND | INTC_LOST
  | INTC_SWSET | INTC_ISAFEMAX | INTC_FSTAT | INTC_LOCK | FABRIC_PRI | FABRIC_ARB | FABRIC_LOCKMAX | FABRIC_ISTAT
  | FABRIC_IEN | FABRIC_LKBRK | FABRIC_LKADDR | FABRIC_URG | FABRIC_PROT | FABRIC_LOCK | MPU_RBASE | MPU_RLIMIT
  | MPU_RATTR | MPU_CTL | MPU_SYNC | MPU_ISTAT | MPU_IEN | MPU_OVL | MPU_DENY | MPU_DENYADDR | MPU_LOCK
  | MEMCTL_ISTAT | MEMCTL_IEN | MEMCTL_BUCKET | MEMCTL_SCRUB | MEMCTL_OVF | MEMCTL_UEINST | MEMCTL_UEADDR
  | MEMCTL_COLL | MEMCTL_COLLADDR | MEMCTL_ETCTL | MEMCTL_ETDXLO | MEMCTL_ETDXHI | MEMCTL_ETCHK | MEMCTL_ETSYN
  | MEMCTL_LOCK | MEMCTL_INST | EVTMX_ISTAT | EVTMX_IEN | EVTMX_LOOPREC | EVTMX_CHFLAG | EVTMX_LOCK | EVTMX_PEN
  | EVTMX_CNT | EVTMX_STAMPLO | EVTMX_STAMPHI | EVTMX_CEN0 | EVTMX_CEN1 | EVTMX_CSTAT | EVTMX_CCNT
  | LANTERN_TIMELO | LANTERN_TIMEHI | LANTERN_ISTAT | LANTERN_IEN | LANTERN_LOCK | LANTERN_TBCFG
  | LANTERN_TBOFFSET | LANTERN_TBHYST | LANTERN_TBFREQ | LANTERN_TBMAINS | LANTERN_TBANGLE | LANTERN_TBSTAT
  | LANTERN_TBVEL | LANTERN_TBANGREV | LANTERN_TBLPOSA | LANTERN_TBLPOSR | LANTERN_TBLTIMELO | LANTERN_TBLTIMEHI
  | LANTERN_TBADJ | LANTERN_GATE | LANTERN_CMPCFG | LANTERN_CMPANGLE | LANTERN_CMPPERIOD | LANTERN_CMPSTAMPLO
  | LANTERN_CMPSTAMPHI | LANTERN_CMPSTAMPPOS | LANTERN_CMPSTAT | PWM_SYNC | PWM_LOCK | PWM_CFG | PWM_PERIOD
  | PWM_PHASE | PWM_DT | PWM_CMPA | PWM_CMPB | PWM_SAFE | PWM_TRIPSRC0 | PWM_TRIPSRC1 | PWM_CTL | PWM_STAT
  | PWM_ISTAT | PWM_IEN | PWM_PIN | SDF_SNAPMA0 | SDF_SNAPMA1 | SDF_SNAPMB0 | SDF_SNAPMB1 | SDF_SNAPTALO
  | SDF_SNAPTAHI | SDF_SNAPTBLO | SDF_SNAPTBHI | SDF_LOCK | SDF_CFG | SDF_FTHR | SDF_DATA | SDF_FAST | SDF_ISTAT
  | SDF_IEN | SDF_SNAPA | SDF_SNAPB | ADC_CFG | ADC_START | ADC_RES | ADC_STAMPLO | ADC_STAMPHI | ADC_ISTAT
  | ADC_IEN | POSIF_CFG | POSIF_RES | POSIF_ABZ | POSIF_SSI | POSIF_SSITIM | POSIF_POS | POSIF_REV | POSIF_COUNT
  | POSIF_ISTAT | POSIF_IEN | SAFEISL_STAT | SAFEISL_ISTAT | SAFEISL_IEN | SAFEISL_INTPAIRS | SAFEISL_SSTOP
  | SAFEISL_TIMELO | SAFEISL_TIMEHI | SAFEISL_LOGHEAD | SAFEISL_CTL | SAFEISL_LOGREAD | SAFEISL_LOCK
  | SAFEISL_REACT | SAFEISL_LOGW0 | SAFEISL_LOGW1 | SAFEISL_LOGW2 | SAFEISL_LOGW3 | KEEPER_CFG | KEEPER_WIN
  | KEEPER_SVC | KEEPER_STAT | KEEPER_ISTAT | KEEPER_KTIMELO | KEEPER_KTIMEHI | KEEPER_LASTSVCLO
  | KEEPER_LASTSVCHI | KEEPER_LASTCHK | KEEPER_EVSTAT | KEEPER_EVTIMELO | KEEPER_EVTIMEHI | KEEPER_PAUSE
  | KEEPER_LOCK | KEEPER_TLO | KEEPER_THI | KEEPER_EVPC | KEEPER_TASK | ETH_ADDR | ETH_STCFG | ETH_VLAN
  | ETH_ISTAT | ETH_IEN | ETH_DROP | ETH_DROP2 | ETH_SWAGE | ETH_LOCK | ETH_PORTCFG | ETH_PORTSTAT | ETH_PORTCNT
  | ETH_PORTISTAT | ETH_PORTIEN | ETH_GPTPCFG | ETH_GPTPSTAT | ETH_GPTPSGTLO | ETH_GPTPSGTHI | ETH_GPTPSLTLO
  | ETH_GPTPSLTHI | ETH_PEERCFG | ETH_PEERHLO | ETH_PEERHHI | ETH_TXRBASE | ETH_TXRCFG | ETH_TXRHEAD | ETH_TXRTAIL
  | ETH_RXRBASE | ETH_RXRCFG | ETH_RXRHEAD | ETH_RXRTAIL | CANXL_CFG | CANXL_NBT | CANXL_DBT | CANXL_XCFG
  | CANXL_CTL | CANXL_STAT | CANXL_ISTAT | CANXL_IEN | CANXL_TXBASE | CANXL_TXCFG | CANXL_TXHEAD | CANXL_TXTAIL
  | CANXL_RXBASE | CANXL_RXCFG | CANXL_RXHEAD | CANXL_RXTAIL | CANXL_FLTID | CANXL_FLTMASK | CANXL_FLT2ID
  | CANXL_FLT2MASK | BUOY_LOCK | BUOY_CFG | BUOY_CTL | BUOY_STAT | BUOY_RLAT | BUOY_ENUMBUF | BUOY_ISTAT
  | BUOY_IEN | BUOY_CNT | BUOY_LAST | BUOY_LISTBASE | BUOY_LISTCNT | BUOY_T | TRUST_STAT | TRUST_DEVUIDLO
  | TRUST_DEVUIDHI | TRUST_ARB | TRUST_FUSEARB | TRUST_ATTNEXTLO | TRUST_ATTNEXTHI | TRUST_CTRLO | TRUST_CTRHI
  | TRUST_LASTCMD | TRUST_ISTAT | TRUST_IEN | TRUST_SIGCNT | TRUST_ATTPK | NVS_STAT | NVS_SEALLO | NVS_SEALHI
  | NVS_CFG | NVS_APPEND | NVS_APSTAT | NVS_JSTAT | NVS_SLOTCTL | NVS_SRC | NVS_OFF | NVS_LEN | NVS_SLOTSTAT
  | NVS_WEAR | NVS_ISTAT | NVS_IEN | NVS_LOCK | TEST_BISTCTL | TEST_BISTCFG | TEST_BISTSTAT | TEST_WCFG
  | TEST_WSTAT | TEST_WFAIL | TEST_ISTAT | TEST_IEN | TEST_LOCK | TEST_OFFER | TEST_BISTRESLO | TEST_BISTRESHI
  | AGEING_STAT | AGEING_CFG | AGEING_SHORT | AGEING_ISTAT | AGEING_IEN | AGEING_LOCK | AGEING_NEED | AGEING_PAIR
  | DEBUG_STAT | DEBUG_CFG | DEBUG_ISTAT | DEBUG_IEN | DEBUG_CNT | DEBUG_RSTCNT | DEBUG_LOCK | DEBUG_PSTAT
  | DEBUG_COMPADDR | DEBUG_COMPMASK | DEBUG_COMPCTL | POWER_STAT | POWER_PFCFG | POWER_PFCNT | POWER_VIN
  | POWER_TEMP | POWER_ISTAT | POWER_SUPCTL | POWER_LOCK | POWER_IEN | DMA_DONE | DMA_ERR | DMA_IEN | DMA_CHSRC
  | DMA_CHDST | DMA_CHLEN | DMA_CHCFG | DMA_CHSTAT
deriving DecidableEq, Repr

/-- The registers of SYSCTL: offset, repetitions as (stride, count), and the register (R414). -/
def rowsSYSCTL : List (Nat × List (Nat × Nat) × Reg) := [
  (0x0, [], .SYSCTL_STAT),
  (0x4, [], .SYSCTL_CMD),
  (0x8, [], .SYSCTL_CMDSTAT),
  (0xC, [], .SYSCTL_BOOTCFG),
  (0x10, [], .SYSCTL_BOOTSTAT),
  (0x14, [], .SYSCTL_FOGREASON),
  (0x18, [], .SYSCTL_MAP),
  (0x1C, [], .SYSCTL_NEED),
  (0x20, [], .SYSCTL_WAKE),
  (0x24, [], .SYSCTL_WAKESRC),
  (0x28, [], .SYSCTL_REFUSED),
  (0x3C, [], .SYSCTL_LOCK)]

/-- The registers of PAIRCTL: offset, repetitions as (stride, count), and the register (R243). -/
def rowsPAIRCTL : List (Nat × List (Nat × Nat) × Reg) := [
  (0x0, [(0x1000, 16)], .PAIRCTL_ROLE),
  (0x4, [(0x1000, 16)], .PAIRCTL_SEGMAX),
  (0x8, [(0x1000, 16)], .PAIRCTL_SEGEFF),
  (0xC, [(0x1000, 16)], .PAIRCTL_SPARE),
  (0x10, [(0x1000, 16)], .PAIRCTL_FSTAT),
  (0x14, [(0x1000, 16)], .PAIRCTL_CNT),
  (0x18, [(0x1000, 16)], .PAIRCTL_CKNUM),
  (0x1C, [(0x1000, 16)], .PAIRCTL_LASTMM),
  (0x20, [(0x1000, 16)], .PAIRCTL_CERR),
  (0x24, [(0x1000, 16)], .PAIRCTL_CERRADDR),
  (0x28, [(0x1000, 16)], .PAIRCTL_OCC),
  (0x2C, [(0x1000, 16)], .PAIRCTL_CMPTEST),
  (0x3C, [(0x1000, 16)], .PAIRCTL_LOCK)]

/-- The registers of INTC: offset, repetitions as (stride, count), and the register (R175). -/
def rowsINTC : List (Nat × List (Nat × Nat) × Reg) := [
  (0x0, [(0x1000, 16), (0x4, 256)], .INTC_CFG),
  (0x400, [(0x1000, 16), (0x4, 8)], .INTC_PEND),
  (0x420, [(0x1000, 16), (0x4, 8)], .INTC_LOST),
  (0x440, [(0x1000, 16)], .INTC_SWSET),
  (0x444, [(0x1000, 16)], .INTC_ISAFEMAX),
  (0x448, [(0x1000, 16)], .INTC_FSTAT),
  (0x44C, [(0x1000, 16)], .INTC_LOCK)]

/-- The registers of FABRIC: offset, repetitions as (stride, count), and the register (R346). -/
def rowsFABRIC : List (Nat × List (Nat × Nat) × Reg) := [
  (0x0, [(0x4, 31)], .FABRIC_PRI),
  (0x80, [], .FABRIC_ARB),
  (0x84, [], .FABRIC_LOCKMAX),
  (0x88, [], .FABRIC_ISTAT),
  (0x8C, [], .FABRIC_IEN),
  (0x90, [], .FABRIC_LKBRK),
  (0x94, [], .FABRIC_LKADDR),
  (0x98, [], .FABRIC_URG),
  (0xA0, [], .FABRIC_PROT),
  (0xBC, [], .FABRIC_LOCK)]

/-- The registers of MPU: offset, repetitions as (stride, count), and the register (R360). -/
def rowsMPU : List (Nat × List (Nat × Nat) × Reg) := [
  (0x0, [(0x100, 31), (0x10, 16)], .MPU_RBASE),
  (0x4, [(0x100, 31), (0x10, 16)], .MPU_RLIMIT),
  (0x8, [(0x100, 31), (0x10, 16)], .MPU_RATTR),
  (0x2000, [(0x4, 31)], .MPU_CTL),
  (0x2100, [], .MPU_SYNC),
  (0x2104, [], .MPU_ISTAT),
  (0x2108, [], .MPU_IEN),
  (0x210C, [], .MPU_OVL),
  (0x2110, [], .MPU_DENY),
  (0x2114, [], .MPU_DENYADDR),
  (0x211C, [], .MPU_LOCK)]

/-- The registers of MEMCTL: offset, repetitions as (stride, count), and the register (R333). -/
def rowsMEMCTL : List (Nat × List (Nat × Nat) × Reg) := [
  (0x0, [], .MEMCTL_ISTAT),
  (0x4, [], .MEMCTL_IEN),
  (0x8, [], .MEMCTL_BUCKET),
  (0xC, [], .MEMCTL_SCRUB),
  (0x10, [(0x4, 5)], .MEMCTL_OVF),
  (0x30, [], .MEMCTL_UEINST),
  (0x34, [], .MEMCTL_UEADDR),
  (0x40, [], .MEMCTL_COLL),
  (0x44, [], .MEMCTL_COLLADDR),
  (0x50, [], .MEMCTL_ETCTL),
  (0x54, [], .MEMCTL_ETDXLO),
  (0x58, [], .MEMCTL_ETDXHI),
  (0x5C, [], .MEMCTL_ETCHK),
  (0x60, [], .MEMCTL_ETSYN),
  (0x7C, [], .MEMCTL_LOCK),
  (0x400, [(0x4, 153)], .MEMCTL_INST)]

/-- The registers of EVTMX: offset, repetitions as (stride, count), and the register (R372). -/
def rowsEVTMX : List (Nat × List (Nat × Nat) × Reg) := [
  (0x0, [], .EVTMX_ISTAT),
  (0x4, [], .EVTMX_IEN),
  (0x8, [], .EVTMX_LOOPREC),
  (0x20, [(0x4, 2)], .EVTMX_CHFLAG),
  (0x3C, [], .EVTMX_LOCK),
  (0x100, [(0x10, 64)], .EVTMX_PEN),
  (0x104, [(0x10, 64)], .EVTMX_CNT),
  (0x108, [(0x10, 64)], .EVTMX_STAMPLO),
  (0x10C, [(0x10, 64)], .EVTMX_STAMPHI),
  (0x1000, [(0x10, 384)], .EVTMX_CEN0),
  (0x1004, [(0x10, 384)], .EVTMX_CEN1),
  (0x1008, [(0x10, 384)], .EVTMX_CSTAT),
  (0x100C, [(0x10, 384)], .EVTMX_CCNT)]

/-- The registers of LANTERN: offset, repetitions as (stride, count), and the register (R252). -/
def rowsLANTERN : List (Nat × List (Nat × Nat) × Reg) := [
  (0x0, [], .LANTERN_TIMELO),
  (0x4, [], .LANTERN_TIMEHI),
  (0x8, [], .LANTERN_ISTAT),
  (0xC, [], .LANTERN_IEN),
  (0x1C, [], .LANTERN_LOCK),
  (0x100, [(0x40, 16)], .LANTERN_TBCFG),
  (0x104, [(0x40, 16)], .LANTERN_TBOFFSET),
  (0x108, [(0x40, 16)], .LANTERN_TBHYST),
  (0x10C, [(0x40, 16)], .LANTERN_TBFREQ),
  (0x110, [(0x40, 16)], .LANTERN_TBMAINS),
  (0x114, [(0x40, 16)], .LANTERN_TBANGLE),
  (0x118, [(0x40, 16)], .LANTERN_TBSTAT),
  (0x11C, [(0x40, 16)], .LANTERN_TBVEL),
  (0x120, [(0x40, 16)], .LANTERN_TBANGREV),
  (0x124, [(0x40, 16)], .LANTERN_TBLPOSA),
  (0x128, [(0x40, 16)], .LANTERN_TBLPOSR),
  (0x12C, [(0x40, 16)], .LANTERN_TBLTIMELO),
  (0x130, [(0x40, 16)], .LANTERN_TBLTIMEHI),
  (0x134, [(0x40, 16)], .LANTERN_TBADJ),
  (0x800, [(0x4, 16)], .LANTERN_GATE),
  (0x1000, [(0x20, 256)], .LANTERN_CMPCFG),
  (0x1004, [(0x20, 256)], .LANTERN_CMPANGLE),
  (0x1008, [(0x20, 256)], .LANTERN_CMPPERIOD),
  (0x100C, [(0x20, 256)], .LANTERN_CMPSTAMPLO),
  (0x1010, [(0x20, 256)], .LANTERN_CMPSTAMPHI),
  (0x1014, [(0x20, 256)], .LANTERN_CMPSTAMPPOS),
  (0x1018, [(0x20, 256)], .LANTERN_CMPSTAT)]

/-- The registers of PWM: offset, repetitions as (stride, count), and the register (R287). -/
def rowsPWM : List (Nat × List (Nat × Nat) × Reg) := [
  (0x0, [], .PWM_SYNC),
  (0x1C, [], .PWM_LOCK),
  (0x100, [(0x80, 12)], .PWM_CFG),
  (0x104, [(0x80, 12)], .PWM_PERIOD),
  (0x108, [(0x80, 12)], .PWM_PHASE),
  (0x10C, [(0x80, 12)], .PWM_DT),
  (0x110, [(0x80, 12), (0x8, 3)], .PWM_CMPA),
  (0x114, [(0x80, 12), (0x8, 3)], .PWM_CMPB),
  (0x128, [(0x80, 12)], .PWM_SAFE),
  (0x12C, [(0x80, 12)], .PWM_TRIPSRC0),
  (0x130, [(0x80, 12)], .PWM_TRIPSRC1),
  (0x134, [(0x80, 12)], .PWM_CTL),
  (0x138, [(0x80, 12)], .PWM_STAT),
  (0x13C, [(0x80, 12)], .PWM_ISTAT),
  (0x140, [(0x80, 12)], .PWM_IEN),
  (0x144, [(0x80, 12)], .PWM_PIN)]

/-- The registers of SDF: offset, repetitions as (stride, count), and the register (R298). -/
def rowsSDF : List (Nat × List (Nat × Nat) × Reg) := [
  (0x0, [], .SDF_SNAPMA0),
  (0x4, [], .SDF_SNAPMA1),
  (0x8, [], .SDF_SNAPMB0),
  (0xC, [], .SDF_SNAPMB1),
  (0x10, [], .SDF_SNAPTALO),
  (0x14, [], .SDF_SNAPTAHI),
  (0x18, [], .SDF_SNAPTBLO),
  (0x1C, [], .SDF_SNAPTBHI),
  (0x3C, [], .SDF_LOCK),
  (0x100, [(0x20, 36)], .SDF_CFG),
  (0x104, [(0x20, 36)], .SDF_FTHR),
  (0x108, [(0x20, 36)], .SDF_DATA),
  (0x10C, [(0x20, 36)], .SDF_FAST),
  (0x110, [(0x20, 36)], .SDF_ISTAT),
  (0x114, [(0x20, 36)], .SDF_IEN),
  (0x800, [(0x4, 36)], .SDF_SNAPA),
  (0x900, [(0x4, 36)], .SDF_SNAPB)]

/-- The registers of ADC: offset, repetitions as (stride, count), and the register (R304). -/
def rowsADC : List (Nat × List (Nat × Nat) × Reg) := [
  (0x100, [(0x40, 6)], .ADC_CFG),
  (0x104, [(0x40, 6)], .ADC_START),
  (0x108, [(0x40, 6), (0x4, 4)], .ADC_RES),
  (0x118, [(0x40, 6)], .ADC_STAMPLO),
  (0x11C, [(0x40, 6)], .ADC_STAMPHI),
  (0x120, [(0x40, 6)], .ADC_ISTAT),
  (0x124, [(0x40, 6)], .ADC_IEN)]

/-- The registers of POSIF: offset, repetitions as (stride, count), and the register (R306). -/
def rowsPOSIF : List (Nat × List (Nat × Nat) × Reg) := [
  (0x100, [(0x40, 12)], .POSIF_CFG),
  (0x104, [(0x40, 12)], .POSIF_RES),
  (0x108, [(0x40, 12)], .POSIF_ABZ),
  (0x10C, [(0x40, 12)], .POSIF_SSI),
  (0x110, [(0x40, 12)], .POSIF_SSITIM),
  (0x114, [(0x40, 12)], .POSIF_POS),
  (0x118, [(0x40, 12)], .POSIF_REV),
  (0x11C, [(0x40, 12)], .POSIF_COUNT),
  (0x120, [(0x40, 12)], .POSIF_ISTAT),
  (0x124, [(0x40, 12)], .POSIF_IEN)]

/-- The registers of SAFEISL: offset, repetitions as (stride, count), and the register (R388). -/
def rowsSAFEISL : List (Nat × List (Nat × Nat) × Reg) := [
  (0x0, [], .SAFEISL_STAT),
  (0x4, [], .SAFEISL_ISTAT),
  (0x8, [], .SAFEISL_IEN),
  (0xC, [], .SAFEISL_INTPAIRS),
  (0x10, [], .SAFEISL_SSTOP),
  (0x14, [], .SAFEISL_TIMELO),
  (0x18, [], .SAFEISL_TIMEHI),
  (0x20, [], .SAFEISL_LOGHEAD),
  (0x24, [], .SAFEISL_CTL),
  (0x28, [], .SAFEISL_LOGREAD),
  (0x3C, [], .SAFEISL_LOCK),
  (0x400, [(0x4, 256)], .SAFEISL_REACT),
  (0x800, [(0x10, 64)], .SAFEISL_LOGW0),
  (0x804, [(0x10, 64)], .SAFEISL_LOGW1),
  (0x808, [(0x10, 64)], .SAFEISL_LOGW2),
  (0x80C, [(0x10, 64)], .SAFEISL_LOGW3)]

/-- The registers of KEEPER: offset, repetitions as (stride, count), and the register (R401). -/
def rowsKEEPER : List (Nat × List (Nat × Nat) × Reg) := [
  (0x0, [], .KEEPER_CFG),
  (0x4, [], .KEEPER_WIN),
  (0x8, [], .KEEPER_SVC),
  (0xC, [], .KEEPER_STAT),
  (0x10, [], .KEEPER_ISTAT),
  (0x14, [], .KEEPER_KTIMELO),
  (0x18, [], .KEEPER_KTIMEHI),
  (0x1C, [], .KEEPER_LASTSVCLO),
  (0x20, [], .KEEPER_LASTSVCHI),
  (0x24, [], .KEEPER_LASTCHK),
  (0x28, [], .KEEPER_EVSTAT),
  (0x2C, [], .KEEPER_EVTIMELO),
  (0x30, [], .KEEPER_EVTIMEHI),
  (0x34, [], .KEEPER_PAUSE),
  (0x3C, [], .KEEPER_LOCK),
  (0x40, [(0x4, 2)], .KEEPER_TLO),
  (0x48, [(0x4, 2)], .KEEPER_THI),
  (0x80, [(0x4, 16)], .KEEPER_EVPC),
  (0x100, [(0x4, 64)], .KEEPER_TASK)]

/-- The registers of ETH: offset, repetitions as (stride, count), and the register (R449). -/
def rowsETH : List (Nat × List (Nat × Nat) × Reg) := [
  (0x0, [], .ETH_ADDR),
  (0x4, [], .ETH_STCFG),
  (0x8, [], .ETH_VLAN),
  (0x10, [], .ETH_ISTAT),
  (0x14, [], .ETH_IEN),
  (0x18, [], .ETH_DROP),
  (0x1C, [], .ETH_DROP2),
  (0x20, [], .ETH_SWAGE),
  (0x3C, [], .ETH_LOCK),
  (0x100, [(0x40, 2)], .ETH_PORTCFG),
  (0x104, [(0x40, 2)], .ETH_PORTSTAT),
  (0x108, [(0x40, 2)], .ETH_PORTCNT),
  (0x10C, [(0x40, 2)], .ETH_PORTISTAT),
  (0x110, [(0x40, 2)], .ETH_PORTIEN),
  (0x200, [], .ETH_GPTPCFG),
  (0x204, [], .ETH_GPTPSTAT),
  (0x208, [], .ETH_GPTPSGTLO),
  (0x20C, [], .ETH_GPTPSGTHI),
  (0x210, [], .ETH_GPTPSLTLO),
  (0x214, [], .ETH_GPTPSLTHI),
  (0x400, [(0x10, 64)], .ETH_PEERCFG),
  (0x404, [(0x10, 64)], .ETH_PEERHLO),
  (0x408, [(0x10, 64)], .ETH_PEERHHI),
  (0x800, [(0x10, 16)], .ETH_TXRBASE),
  (0x804, [(0x10, 16)], .ETH_TXRCFG),
  (0x808, [(0x10, 16)], .ETH_TXRHEAD),
  (0x80C, [(0x10, 16)], .ETH_TXRTAIL),
  (0x900, [], .ETH_RXRBASE),
  (0x904, [], .ETH_RXRCFG),
  (0x908, [], .ETH_RXRHEAD),
  (0x90C, [], .ETH_RXRTAIL)]

/-- The registers of CANXL: offset, repetitions as (stride, count), and the register (R453). -/
def rowsCANXL : List (Nat × List (Nat × Nat) × Reg) := [
  (0x100, [(0x100, 4)], .CANXL_CFG),
  (0x104, [(0x100, 4)], .CANXL_NBT),
  (0x108, [(0x100, 4)], .CANXL_DBT),
  (0x10C, [(0x100, 4)], .CANXL_XCFG),
  (0x110, [(0x100, 4)], .CANXL_CTL),
  (0x114, [(0x100, 4)], .CANXL_STAT),
  (0x118, [(0x100, 4)], .CANXL_ISTAT),
  (0x11C, [(0x100, 4)], .CANXL_IEN),
  (0x120, [(0x100, 4)], .CANXL_TXBASE),
  (0x124, [(0x100, 4)], .CANXL_TXCFG),
  (0x128, [(0x100, 4)], .CANXL_TXHEAD),
  (0x12C, [(0x100, 4)], .CANXL_TXTAIL),
  (0x130, [(0x100, 4)], .CANXL_RXBASE),
  (0x134, [(0x100, 4)], .CANXL_RXCFG),
  (0x138, [(0x100, 4)], .CANXL_RXHEAD),
  (0x13C, [(0x100, 4)], .CANXL_RXTAIL),
  (0x180, [(0x100, 4), (0x8, 16)], .CANXL_FLTID),
  (0x184, [(0x100, 4), (0x8, 16)], .CANXL_FLTMASK),
  (0x800, [(0x80, 4), (0x8, 16)], .CANXL_FLT2ID),
  (0x804, [(0x80, 4), (0x8, 16)], .CANXL_FLT2MASK)]

/-- The registers of BUOY: offset, repetitions as (stride, count), and the register (R473). -/
def rowsBUOY : List (Nat × List (Nat × Nat) × Reg) := [
  (0x3C, [], .BUOY_LOCK),
  (0x1000, [(0x1000, 8)], .BUOY_CFG),
  (0x1004, [(0x1000, 8)], .BUOY_CTL),
  (0x1008, [(0x1000, 8)], .BUOY_STAT),
  (0x100C, [(0x1000, 8)], .BUOY_RLAT),
  (0x1010, [(0x1000, 8)], .BUOY_ENUMBUF),
  (0x1020, [(0x1000, 8)], .BUOY_ISTAT),
  (0x1024, [(0x1000, 8)], .BUOY_IEN),
  (0x1028, [(0x1000, 8)], .BUOY_CNT),
  (0x102C, [(0x1000, 8)], .BUOY_LAST),
  (0x1040, [(0x1000, 8), (0x8, 8)], .BUOY_LISTBASE),
  (0x1044, [(0x1000, 8), (0x8, 8)], .BUOY_LISTCNT),
  (0x1800, [(0x1000, 8), (0x4, 512)], .BUOY_T)]

/-- The registers of TRUST: offset, repetitions as (stride, count), and the register (R484). -/
def rowsTRUST : List (Nat × List (Nat × Nat) × Reg) := [
  (0x0, [], .TRUST_STAT),
  (0x4, [], .TRUST_DEVUIDLO),
  (0x8, [], .TRUST_DEVUIDHI),
  (0xC, [], .TRUST_ARB),
  (0x10, [], .TRUST_FUSEARB),
  (0x14, [], .TRUST_ATTNEXTLO),
  (0x18, [], .TRUST_ATTNEXTHI),
  (0x20, [(0x8, 3)], .TRUST_CTRLO),
  (0x24, [(0x8, 3)], .TRUST_CTRHI),
  (0x38, [], .TRUST_LASTCMD),
  (0x40, [], .TRUST_ISTAT),
  (0x44, [], .TRUST_IEN),
  (0x48, [], .TRUST_SIGCNT),
  (0x100, [(0x4, 16)], .TRUST_ATTPK)]

/-- The registers of NVS: offset, repetitions as (stride, count), and the register (R516). -/
def rowsNVS : List (Nat × List (Nat × Nat) × Reg) := [
  (0x0, [], .NVS_STAT),
  (0x4, [], .NVS_SEALLO),
  (0x8, [], .NVS_SEALHI),
  (0xC, [], .NVS_CFG),
  (0x10, [], .NVS_APPEND),
  (0x14, [], .NVS_APSTAT),
  (0x18, [], .NVS_JSTAT),
  (0x20, [], .NVS_SLOTCTL),
  (0x24, [], .NVS_SRC),
  (0x28, [], .NVS_OFF),
  (0x2C, [], .NVS_LEN),
  (0x30, [], .NVS_SLOTSTAT),
  (0x40, [], .NVS_WEAR),
  (0x48, [], .NVS_ISTAT),
  (0x4C, [], .NVS_IEN),
  (0x7C, [], .NVS_LOCK)]

/-- The registers of TEST: offset, repetitions as (stride, count), and the register (R528). -/
def rowsTEST : List (Nat × List (Nat × Nat) × Reg) := [
  (0x0, [], .TEST_BISTCTL),
  (0x4, [], .TEST_BISTCFG),
  (0x8, [], .TEST_BISTSTAT),
  (0x10, [], .TEST_WCFG),
  (0x14, [], .TEST_WSTAT),
  (0x18, [], .TEST_WFAIL),
  (0x20, [], .TEST_ISTAT),
  (0x24, [], .TEST_IEN),
  (0x3C, [], .TEST_LOCK),
  (0x40, [(0x4, 16)], .TEST_OFFER),
  (0x100, [(0x8, 256)], .TEST_BISTRESLO),
  (0x104, [(0x8, 256)], .TEST_BISTRESHI)]

/-- The registers of AGEING: offset, repetitions as (stride, count), and the register (R540). -/
def rowsAGEING : List (Nat × List (Nat × Nat) × Reg) := [
  (0x0, [], .AGEING_STAT),
  (0x4, [], .AGEING_CFG),
  (0x8, [], .AGEING_SHORT),
  (0x10, [], .AGEING_ISTAT),
  (0x14, [], .AGEING_IEN),
  (0x3C, [], .AGEING_LOCK),
  (0x100, [(0x4, 16)], .AGEING_NEED),
  (0x200, [(0x4, 16)], .AGEING_PAIR)]

/-- The registers of DEBUG: offset, repetitions as (stride, count), and the register (R553). -/
def rowsDEBUG : List (Nat × List (Nat × Nat) × Reg) := [
  (0x0, [], .DEBUG_STAT),
  (0x4, [], .DEBUG_CFG),
  (0x8, [], .DEBUG_ISTAT),
  (0xC, [], .DEBUG_IEN),
  (0x10, [], .DEBUG_CNT),
  (0x14, [], .DEBUG_RSTCNT),
  (0x3C, [], .DEBUG_LOCK),
  (0x100, [(0x100, 16)], .DEBUG_PSTAT),
  (0x110, [(0x100, 16), (0x10, 8)], .DEBUG_COMPADDR),
  (0x114, [(0x100, 16), (0x10, 8)], .DEBUG_COMPMASK),
  (0x118, [(0x100, 16), (0x10, 8)], .DEBUG_COMPCTL)]

/-- The registers of POWER: offset, repetitions as (stride, count), and the register (R71). -/
def rowsPOWER : List (Nat × List (Nat × Nat) × Reg) := [
  (0x0, [], .POWER_STAT),
  (0x4, [], .POWER_PFCFG),
  (0x8, [], .POWER_PFCNT),
  (0xC, [], .POWER_VIN),
  (0x10, [], .POWER_TEMP),
  (0x14, [], .POWER_ISTAT),
  (0x18, [], .POWER_SUPCTL),
  (0x1C, [], .POWER_LOCK),
  (0x20, [], .POWER_IEN)]

/-- The registers of DMA: offset, repetitions as (stride, count), and the register (R564). -/
def rowsDMA : List (Nat × List (Nat × Nat) × Reg) := [
  (0x1000, [(0x1000, 2)], .DMA_DONE),
  (0x1004, [(0x1000, 2)], .DMA_ERR),
  (0x1008, [(0x1000, 2)], .DMA_IEN),
  (0x1100, [(0x1000, 2), (0x20, 32)], .DMA_CHSRC),
  (0x1104, [(0x1000, 2), (0x20, 32)], .DMA_CHDST),
  (0x1108, [(0x1000, 2), (0x20, 32)], .DMA_CHLEN),
  (0x110C, [(0x1000, 2), (0x20, 32)], .DMA_CHCFG),
  (0x1110, [(0x1000, 2), (0x20, 32)], .DMA_CHSTAT)]

/-- The fields of SYSCTL.STAT. -/
def fieldsSYSCTL_STAT : List FieldRow := [
  { lo := 12, w := 1, acc := .ro },
  { lo := 11, w := 1, acc := .ro },
  { lo := 10, w := 1, acc := .ro },
  { lo := 9, w := 1, acc := .ro },
  { lo := 8, w := 1, acc := .ro, live := true },
  { lo := 4, w := 3, acc := .ro },
  { lo := 0, w := 3, acc := .ro }]

/-- The fields of SYSCTL.CMD. -/
def fieldsSYSCTL_CMD : List FieldRow := [
  { lo := 8, w := 16, acc := .wo },
  { lo := 0, w := 8, acc := .wo }]

/-- The fields of SYSCTL.CMDSTAT. -/
def fieldsSYSCTL_CMDSTAT : List FieldRow := [
  { lo := 31, w := 1, acc := .ro },
  { lo := 8, w := 8, acc := .ro },
  { lo := 0, w := 8, acc := .ro }]

/-- The fields of SYSCTL.BOOTCFG. -/
def fieldsSYSCTL_BOOTCFG : List FieldRow := [
  { lo := 0, w := 16, acc := .lck, rst := .value 500, ret := true, norm := .clamped 10 60000 }]

/-- The fields of SYSCTL.BOOTSTAT. -/
def fieldsSYSCTL_BOOTSTAT : List FieldRow := [
  { lo := 16, w := 16, acc := .ro, live := true },
  { lo := 7, w := 1, acc := .ro },
  { lo := 2, w := 1, acc := .ro },
  { lo := 0, w := 2, acc := .ro }]

/-- The fields of SYSCTL.FOGREASON. -/
def fieldsSYSCTL_FOGREASON : List FieldRow := [
  { lo := 12, w := 4, acc := .ro },
  { lo := 8, w := 4, acc := .ro },
  { lo := 0, w := 4, acc := .ro }]

/-- The fields of SYSCTL.MAP. -/
def fieldsSYSCTL_MAP : List FieldRow := [
  { lo := 0, w := 1, acc := .lck }]

/-- The fields of SYSCTL.NEED. -/
def fieldsSYSCTL_NEED : List FieldRow := [
  { lo := 0, w := 16, acc := .lck }]

/-- The fields of SYSCTL.WAKE. -/
def fieldsSYSCTL_WAKE : List FieldRow := [
  { lo := 16, w := 16, acc := .rw },
  { lo := 1, w := 4, acc := .rw },
  { lo := 0, w := 1, acc := .rw }]

/-- The fields of SYSCTL.WAKESRC. -/
def fieldsSYSCTL_WAKESRC : List FieldRow := [
  { lo := 0, w := 3, acc := .ro, ret := true }]

/-- The fields of SYSCTL.REFUSED. -/
def fieldsSYSCTL_REFUSED : List FieldRow := [
  { lo := 16, w := 16, acc := .rc, ret := true },
  { lo := 8, w := 3, acc := .ro },
  { lo := 0, w := 8, acc := .ro }]

/-- The fields of SYSCTL.LOCK. -/
def fieldsSYSCTL_LOCK : List FieldRow := [
  { lo := 0, w := 1, acc := .w1s, lockBit := true }]

/-- The fields of PAIRCTL.ROLE. -/
def fieldsPAIRCTL_ROLE : List FieldRow := [
  { lo := 8, w := 4, acc := .ro, rst := .index },
  { lo := 0, w := 3, acc := .ro, ret := true }]

/-- The fields of PAIRCTL.SEGMAX. -/
def fieldsPAIRCTL_SEGMAX : List FieldRow := [
  { lo := 16, w := 12, acc := .lck, rst := .value 1200, norm := .clamped 100 4000 },
  { lo := 0, w := 14, acc := .lck, rst := .value 8000, norm := .clamped 2000 12000 }]

/-- The fields of PAIRCTL.SEGEFF. -/
def fieldsPAIRCTL_SEGEFF : List FieldRow := [
  { lo := 16, w := 16, acc := .ro, live := true },
  { lo := 0, w := 16, acc := .ro, live := true }]

/-- The fields of PAIRCTL.SPARE. -/
def fieldsPAIRCTL_SPARE : List FieldRow := [
  { lo := 4, w := 1, acc := .lck },
  { lo := 0, w := 4, acc := .lck }]

/-- The fields of PAIRCTL.FSTAT. -/
def fieldsPAIRCTL_FSTAT : List FieldRow := [
  { lo := 9, w := 1, acc := .w1c },
  { lo := 8, w := 1, acc := .w1c },
  { lo := 7, w := 1, acc := .w1c, ret := true },
  { lo := 6, w := 1, acc := .w1c },
  { lo := 5, w := 1, acc := .w1c },
  { lo := 4, w := 1, acc := .w1c },
  { lo := 3, w := 1, acc := .w1c, ret := true },
  { lo := 2, w := 1, acc := .w1c, ret := true },
  { lo := 1, w := 1, acc := .w1c },
  { lo := 0, w := 1, acc := .w1c }]

/-- The fields of PAIRCTL.CNT. -/
def fieldsPAIRCTL_CNT : List FieldRow := [
  { lo := 16, w := 16, acc := .rc, ret := true },
  { lo := 0, w := 16, acc := .rc, ret := true }]

/-- The fields of PAIRCTL.CKNUM. -/
def fieldsPAIRCTL_CKNUM : List FieldRow := [
  { lo := 0, w := 32, acc := .ro, live := true }]

/-- The fields of PAIRCTL.LASTMM. -/
def fieldsPAIRCTL_LASTMM : List FieldRow := [
  { lo := 16, w := 2, acc := .ro, ret := true },
  { lo := 12, w := 4, acc := .ro, ret := true },
  { lo := 0, w := 12, acc := .ro, ret := true }]

/-- The fields of PAIRCTL.CERR. -/
def fieldsPAIRCTL_CERR : List FieldRow := [
  { lo := 24, w := 8, acc := .rc },
  { lo := 0, w := 16, acc := .ro }]

/-- The fields of PAIRCTL.CERRADDR. -/
def fieldsPAIRCTL_CERRADDR : List FieldRow := [
  { lo := 0, w := 32, acc := .ro }]

/-- The fields of PAIRCTL.OCC. -/
def fieldsPAIRCTL_OCC : List FieldRow := [
  { lo := 24, w := 8, acc := .rc },
  { lo := 16, w := 8, acc := .rc },
  { lo := 8, w := 8, acc := .rc }]

/-- The fields of PAIRCTL.CMPTEST. -/
def fieldsPAIRCTL_CMPTEST : List FieldRow := [
  { lo := 20, w := 12, acc := .ro, ret := true },
  { lo := 1, w := 1, acc := .ro },
  { lo := 0, w := 1, acc := .wo }]

/-- The fields of PAIRCTL.LOCK. -/
def fieldsPAIRCTL_LOCK : List FieldRow := [
  { lo := 0, w := 1, acc := .w1s, lockBit := true }]

/-- The fields of INTC.CFG. -/
def fieldsINTC_CFG : List FieldRow := [
  { lo := 4, w := 1, acc := .rw, live := true },
  { lo := 0, w := 4, acc := .rw }]

/-- The fields of INTC.PEND. -/
def fieldsINTC_PEND : List FieldRow := [
  { lo := 0, w := 32, acc := .w1c, live := true }]

/-- The fields of INTC.LOST. -/
def fieldsINTC_LOST : List FieldRow := [
  { lo := 0, w := 32, acc := .w1c }]

/-- The fields of INTC.SWSET. -/
def fieldsINTC_SWSET : List FieldRow := [
  { lo := 0, w := 8, acc := .wo }]

/-- The fields of INTC.ISAFEMAX. -/
def fieldsINTC_ISAFEMAX : List FieldRow := [
  { lo := 0, w := 12, acc := .lck, rst := .value 128, norm := .clamped 16 4095 }]

/-- The fields of INTC.FSTAT. -/
def fieldsINTC_FSTAT : List FieldRow := [
  { lo := 2, w := 1, acc := .w1c },
  { lo := 1, w := 1, acc := .w1c },
  { lo := 0, w := 1, acc := .w1c }]

/-- The fields of INTC.LOCK. -/
def fieldsINTC_LOCK : List FieldRow := [
  { lo := 0, w := 1, acc := .w1s, lockBit := true }]

/-- The fields of FABRIC.PRI. -/
def fieldsFABRIC_PRI : List FieldRow := [
  { lo := 0, w := 32, acc := .lck, rst := .value 0x88888888 }]

/-- The fields of FABRIC.ARB. -/
def fieldsFABRIC_ARB : List FieldRow := [
  { lo := 8, w := 13, acc := .lck, rst := .value 512, norm := .clamped 64 8191 },
  { lo := 0, w := 8, acc := .lck, rst := .value 16, norm := .clamped 1 255 }]

/-- The fields of FABRIC.LOCKMAX. -/
def fieldsFABRIC_LOCKMAX : List FieldRow := [
  { lo := 0, w := 13, acc := .lck, rst := .value 256, norm := .clamped 16 4096 }]

/-- The fields of FABRIC.ISTAT. -/
def fieldsFABRIC_ISTAT : List FieldRow := [
  { lo := 2, w := 1, acc := .w1c },
  { lo := 1, w := 1, acc := .w1c },
  { lo := 0, w := 1, acc := .w1c }]

/-- The fields of FABRIC.IEN. -/
def fieldsFABRIC_IEN : List FieldRow := [
  { lo := 0, w := 3, acc := .rw }]

/-- The fields of FABRIC.LKBRK. -/
def fieldsFABRIC_LKBRK : List FieldRow := [
  { lo := 16, w := 16, acc := .rc },
  { lo := 8, w := 5, acc := .ro },
  { lo := 0, w := 8, acc := .ro }]

/-- The fields of FABRIC.LKADDR. -/
def fieldsFABRIC_LKADDR : List FieldRow := [
  { lo := 0, w := 32, acc := .ro }]

/-- The fields of FABRIC.URG. -/
def fieldsFABRIC_URG : List FieldRow := [
  { lo := 16, w := 16, acc := .rc },
  { lo := 0, w := 16, acc := .rc }]

/-- The fields of FABRIC.PROT. -/
def fieldsFABRIC_PROT : List FieldRow := [
  { lo := 16, w := 16, acc := .rc, ret := true },
  { lo := 15, w := 1, acc := .ro, ret := true },
  { lo := 8, w := 5, acc := .ro, ret := true }]

/-- The fields of FABRIC.LOCK. -/
def fieldsFABRIC_LOCK : List FieldRow := [
  { lo := 0, w := 1, acc := .w1s, lockBit := true }]

/-- The fields of MPU.RBASE. -/
def fieldsMPU_RBASE : List FieldRow := [
  { lo := 6, w := 26, acc := .lck }]

/-- The fields of MPU.RLIMIT. -/
def fieldsMPU_RLIMIT : List FieldRow := [
  { lo := 6, w := 26, acc := .lck }]

/-- The fields of MPU.RATTR. -/
def fieldsMPU_RATTR : List FieldRow := [
  { lo := 31, w := 1, acc := .lck },
  { lo := 4, w := 1, acc := .lck },
  { lo := 3, w := 1, acc := .lck },
  { lo := 1, w := 1, acc := .lck },
  { lo := 0, w := 1, acc := .lck }]

/-- The fields of MPU.CTL. -/
def fieldsMPU_CTL : List FieldRow := [
  { lo := 31, w := 1, acc := .wo },
  { lo := 16, w := 1, acc := .lck },
  { lo := 0, w := 16, acc := .ro, ret := true }]

/-- The fields of MPU.SYNC. -/
def fieldsMPU_SYNC : List FieldRow := [
  { lo := 0, w := 32, acc := .ro }]

/-- The fields of MPU.ISTAT. -/
def fieldsMPU_ISTAT : List FieldRow := [
  { lo := 2, w := 1, acc := .w1c },
  { lo := 1, w := 1, acc := .w1c },
  { lo := 0, w := 1, acc := .w1c }]

/-- The fields of MPU.IEN. -/
def fieldsMPU_IEN : List FieldRow := [
  { lo := 0, w := 3, acc := .rw }]

/-- The fields of MPU.OVL. -/
def fieldsMPU_OVL : List FieldRow := [
  { lo := 8, w := 5, acc := .ro },
  { lo := 4, w := 4, acc := .ro },
  { lo := 0, w := 4, acc := .ro }]

/-- The fields of MPU.DENY. -/
def fieldsMPU_DENY : List FieldRow := [
  { lo := 16, w := 16, acc := .rc, ret := true },
  { lo := 13, w := 1, acc := .ro },
  { lo := 12, w := 1, acc := .ro },
  { lo := 11, w := 1, acc := .ro },
  { lo := 10, w := 1, acc := .ro },
  { lo := 0, w := 5, acc := .ro, ret := true }]

/-- The fields of MPU.DENYADDR. -/
def fieldsMPU_DENYADDR : List FieldRow := [
  { lo := 0, w := 32, acc := .ro, ret := true }]

/-- The fields of MPU.LOCK. -/
def fieldsMPU_LOCK : List FieldRow := [
  { lo := 0, w := 1, acc := .w1s, lockBit := true }]

/-- The fields of MEMCTL.ISTAT. -/
def fieldsMEMCTL_ISTAT : List FieldRow := [
  { lo := 3, w := 1, acc := .w1c },
  { lo := 2, w := 1, acc := .w1c },
  { lo := 1, w := 1, acc := .w1c },
  { lo := 0, w := 1, acc := .w1c }]

/-- The fields of MEMCTL.IEN. -/
def fieldsMEMCTL_IEN : List FieldRow := [
  { lo := 0, w := 4, acc := .rw }]

/-- The fields of MEMCTL.BUCKET. -/
def fieldsMEMCTL_BUCKET : List FieldRow := [
  { lo := 8, w := 16, acc := .lck, rst := .value 10000, norm := .clamped 1 65535 },
  { lo := 0, w := 8, acc := .lck, rst := .value 16, norm := .clamped 1 255 }]

/-- The fields of MEMCTL.SCRUB. -/
def fieldsMEMCTL_SCRUB : List FieldRow := [
  { lo := 31, w := 1, acc := .lck, rst := .value 1 },
  { lo := 0, w := 11, acc := .lck, rst := .value 60, norm := .clamped 1 1440 }]

/-- The fields of MEMCTL.OVF. -/
def fieldsMEMCTL_OVF : List FieldRow := [
  { lo := 0, w := 32, acc := .w1c, ret := true }]

/-- The fields of MEMCTL.UEINST. -/
def fieldsMEMCTL_UEINST : List FieldRow := [
  { lo := 31, w := 1, acc := .w1c, ret := true },
  { lo := 30, w := 1, acc := .ro, ret := true },
  { lo := 8, w := 5, acc := .ro, ret := true },
  { lo := 0, w := 8, acc := .ro, ret := true }]

/-- The fields of MEMCTL.UEADDR. -/
def fieldsMEMCTL_UEADDR : List FieldRow := [
  { lo := 0, w := 32, acc := .ro, ret := true }]

/-- The fields of MEMCTL.COLL. -/
def fieldsMEMCTL_COLL : List FieldRow := [
  { lo := 16, w := 16, acc := .rc },
  { lo := 8, w := 5, acc := .ro },
  { lo := 0, w := 5, acc := .ro }]

/-- The fields of MEMCTL.COLLADDR. -/
def fieldsMEMCTL_COLLADDR : List FieldRow := [
  { lo := 0, w := 32, acc := .ro }]

/-- The fields of MEMCTL.ETCTL. -/
def fieldsMEMCTL_ETCTL : List FieldRow := [
  { lo := 31, w := 1, acc := .rw },
  { lo := 0, w := 8, acc := .rw }]

/-- The fields of MEMCTL.ETDXLO. -/
def fieldsMEMCTL_ETDXLO : List FieldRow := [
  { lo := 0, w := 32, acc := .rw }]

/-- The fields of MEMCTL.ETDXHI. -/
def fieldsMEMCTL_ETDXHI : List FieldRow := [
  { lo := 0, w := 32, acc := .rw }]

/-- The fields of MEMCTL.ETCHK. -/
def fieldsMEMCTL_ETCHK : List FieldRow := [
  { lo := 0, w := 8, acc := .rw }]

/-- The fields of MEMCTL.ETSYN. -/
def fieldsMEMCTL_ETSYN : List FieldRow := [
  { lo := 31, w := 1, acc := .w1c },
  { lo := 25, w := 2, acc := .ro },
  { lo := 8, w := 17, acc := .ro },
  { lo := 0, w := 8, acc := .ro }]

/-- The fields of MEMCTL.LOCK. -/
def fieldsMEMCTL_LOCK : List FieldRow := [
  { lo := 0, w := 1, acc := .w1s, lockBit := true }]

/-- The fields of MEMCTL.INST. -/
def fieldsMEMCTL_INST : List FieldRow := [
  { lo := 16, w := 16, acc := .rc, ret := true },
  { lo := 8, w := 8, acc := .rc, ret := true },
  { lo := 0, w := 8, acc := .ro }]

/-- The fields of EVTMX.ISTAT. -/
def fieldsEVTMX_ISTAT : List FieldRow := [
  { lo := 3, w := 1, acc := .w1c },
  { lo := 2, w := 1, acc := .w1c },
  { lo := 1, w := 1, acc := .w1c },
  { lo := 0, w := 1, acc := .w1c }]

/-- The fields of EVTMX.IEN. -/
def fieldsEVTMX_IEN : List FieldRow := [
  { lo := 0, w := 4, acc := .rw }]

/-- The fields of EVTMX.LOOPREC. -/
def fieldsEVTMX_LOOPREC : List FieldRow := [
  { lo := 31, w := 1, acc := .w1c },
  { lo := 16, w := 9, acc := .ro },
  { lo := 0, w := 9, acc := .ro }]

/-- The fields of EVTMX.CHFLAG. -/
def fieldsEVTMX_CHFLAG : List FieldRow := [
  { lo := 0, w := 32, acc := .w1c }]

/-- The fields of EVTMX.LOCK. -/
def fieldsEVTMX_LOCK : List FieldRow := [
  { lo := 0, w := 1, acc := .w1s, lockBit := true }]

/-- The fields of EVTMX.PEN. -/
def fieldsEVTMX_PEN : List FieldRow := [
  { lo := 0, w := 16, acc := .lck }]

/-- The fields of EVTMX.CNT. -/
def fieldsEVTMX_CNT : List FieldRow := [
  { lo := 16, w := 16, acc := .rc },
  { lo := 0, w := 16, acc := .rc }]

/-- The fields of EVTMX.STAMPLO. -/
def fieldsEVTMX_STAMPLO : List FieldRow := [
  { lo := 0, w := 32, acc := .ro }]

/-- The fields of EVTMX.STAMPHI. -/
def fieldsEVTMX_STAMPHI : List FieldRow := [
  { lo := 0, w := 32, acc := .ro }]

/-- The fields of EVTMX.CEN0. -/
def fieldsEVTMX_CEN0 : List FieldRow := [
  { lo := 0, w := 32, acc := .lck }]

/-- The fields of EVTMX.CEN1. -/
def fieldsEVTMX_CEN1 : List FieldRow := [
  { lo := 0, w := 32, acc := .lck }]

/-- The fields of EVTMX.CSTAT. -/
def fieldsEVTMX_CSTAT : List FieldRow := [
  { lo := 16, w := 6, acc := .ro, live := true },
  { lo := 2, w := 1, acc := .w1c },
  { lo := 1, w := 1, acc := .w1c },
  { lo := 0, w := 1, acc := .w1c, live := true }]

/-- The fields of EVTMX.CCNT. -/
def fieldsEVTMX_CCNT : List FieldRow := [
  { lo := 16, w := 16, acc := .rc },
  { lo := 0, w := 16, acc := .rc }]

/-- The fields of LANTERN.TIMELO. -/
def fieldsLANTERN_TIMELO : List FieldRow := [
  { lo := 0, w := 32, acc := .ro, live := true }]

/-- The fields of LANTERN.TIMEHI. -/
def fieldsLANTERN_TIMEHI : List FieldRow := [
  { lo := 0, w := 32, acc := .ro, live := true }]

/-- The fields of LANTERN.ISTAT. -/
def fieldsLANTERN_ISTAT : List FieldRow := [
  { lo := 16, w := 16, acc := .w1c },
  { lo := 0, w := 16, acc := .w1c }]

/-- The fields of LANTERN.IEN. -/
def fieldsLANTERN_IEN : List FieldRow := [
  { lo := 0, w := 32, acc := .rw }]

/-- The fields of LANTERN.LOCK. -/
def fieldsLANTERN_LOCK : List FieldRow := [
  { lo := 0, w := 1, acc := .w1s, lockBit := true }]

/-- The fields of LANTERN.TBCFG. -/
def fieldsLANTERN_TBCFG : List FieldRow := [
  { lo := 31, w := 1, acc := .rw },
  { lo := 29, w := 2, acc := .lck },
  { lo := 24, w := 5, acc := .lck },
  { lo := 20, w := 4, acc := .lck, rst := .value 1, norm := .clamped 1 15 },
  { lo := 17, w := 3, acc := .rw, rst := .value 2 },
  { lo := 0, w := 16, acc := .rw, rst := .value 100 }]

/-- The fields of LANTERN.TBOFFSET. -/
def fieldsLANTERN_TBOFFSET : List FieldRow := [
  { lo := 0, w := 32, acc := .lck }]

/-- The fields of LANTERN.TBHYST. -/
def fieldsLANTERN_TBHYST : List FieldRow := [
  { lo := 0, w := 24, acc := .rw, rst := .value 0x10000 }]

/-- The fields of LANTERN.TBFREQ. -/
def fieldsLANTERN_TBFREQ : List FieldRow := [
  { lo := 0, w := 32, acc := .rw }]

/-- The fields of LANTERN.TBMAINS. -/
def fieldsLANTERN_TBMAINS : List FieldRow := [
  { lo := 16, w := 2, acc := .rw, rst := .value 1 },
  { lo := 0, w := 16, acc := .rw, rst := .value 5000, norm := .clamped 1000 40000 }]

/-- The fields of LANTERN.TBANGLE. -/
def fieldsLANTERN_TBANGLE : List FieldRow := [
  { lo := 0, w := 32, acc := .ro, live := true }]

/-- The fields of LANTERN.TBSTAT. -/
def fieldsLANTERN_TBSTAT : List FieldRow := [
  { lo := 19, w := 1, acc := .ro, live := true },
  { lo := 18, w := 1, acc := .ro, live := true },
  { lo := 17, w := 1, acc := .ro, live := true },
  { lo := 16, w := 1, acc := .ro, live := true },
  { lo := 0, w := 16, acc := .ro, live := true }]

/-- The fields of LANTERN.TBVEL. -/
def fieldsLANTERN_TBVEL : List FieldRow := [
  { lo := 0, w := 32, acc := .ro, live := true }]

/-- The fields of LANTERN.TBANGREV. -/
def fieldsLANTERN_TBANGREV : List FieldRow := [
  { lo := 16, w := 16, acc := .ro, live := true },
  { lo := 0, w := 16, acc := .ro, live := true }]

/-- The fields of LANTERN.TBLPOSA. -/
def fieldsLANTERN_TBLPOSA : List FieldRow := [
  { lo := 0, w := 32, acc := .rw }]

/-- The fields of LANTERN.TBLPOSR. -/
def fieldsLANTERN_TBLPOSR : List FieldRow := [
  { lo := 16, w := 1, acc := .rw },
  { lo := 0, w := 16, acc := .rw }]

/-- The fields of LANTERN.TBLTIMELO. -/
def fieldsLANTERN_TBLTIMELO : List FieldRow := [
  { lo := 0, w := 32, acc := .rw }]

/-- The fields of LANTERN.TBLTIMEHI. -/
def fieldsLANTERN_TBLTIMEHI : List FieldRow := [
  { lo := 0, w := 32, acc := .wo }]

/-- The fields of LANTERN.TBADJ. -/
def fieldsLANTERN_TBADJ : List FieldRow := [
  { lo := 0, w := 32, acc := .wo }]

/-- The fields of LANTERN.GATE. -/
def fieldsLANTERN_GATE : List FieldRow := [
  { lo := 16, w := 16, acc := .ro, live := true },
  { lo := 8, w := 8, acc := .ro, live := true },
  { lo := 0, w := 8, acc := .ro, live := true }]

/-- The fields of LANTERN.CMPCFG. -/
def fieldsLANTERN_CMPCFG : List FieldRow := [
  { lo := 31, w := 1, acc := .rw },
  { lo := 8, w := 1, acc := .rw },
  { lo := 4, w := 2, acc := .rw, norm := .kept 3 },
  { lo := 0, w := 4, acc := .rw }]

/-- The fields of LANTERN.CMPANGLE. -/
def fieldsLANTERN_CMPANGLE : List FieldRow := [
  { lo := 0, w := 32, acc := .rw }]

/-- The fields of LANTERN.CMPPERIOD. -/
def fieldsLANTERN_CMPPERIOD : List FieldRow := [
  { lo := 0, w := 32, acc := .rw }]

/-- The fields of LANTERN.CMPSTAMPLO. -/
def fieldsLANTERN_CMPSTAMPLO : List FieldRow := [
  { lo := 0, w := 32, acc := .ro }]

/-- The fields of LANTERN.CMPSTAMPHI. -/
def fieldsLANTERN_CMPSTAMPHI : List FieldRow := [
  { lo := 0, w := 32, acc := .ro }]

/-- The fields of LANTERN.CMPSTAMPPOS. -/
def fieldsLANTERN_CMPSTAMPPOS : List FieldRow := [
  { lo := 0, w := 32, acc := .ro }]

/-- The fields of LANTERN.CMPSTAT. -/
def fieldsLANTERN_CMPSTAT : List FieldRow := [
  { lo := 16, w := 16, acc := .ro },
  { lo := 8, w := 8, acc := .ro },
  { lo := 0, w := 1, acc := .w1c }]

/-- The fields of PWM.SYNC. -/
def fieldsPWM_SYNC : List FieldRow := [
  { lo := 0, w := 12, acc := .wo }]

/-- The fields of PWM.LOCK. -/
def fieldsPWM_LOCK : List FieldRow := [
  { lo := 0, w := 1, acc := .w1s, lockBit := true }]

/-- The fields of PWM.CFG. -/
def fieldsPWM_CFG : List FieldRow := [
  { lo := 31, w := 1, acc := .rw },
  { lo := 30, w := 1, acc := .rw },
  { lo := 29, w := 1, acc := .rw },
  { lo := 27, w := 2, acc := .rw, norm := .storedAs 3 0 },
  { lo := 26, w := 1, acc := .rw },
  { lo := 23, w := 3, acc := .rw },
  { lo := 16, w := 4, acc := .rw },
  { lo := 0, w := 16, acc := .rw, rst := .value 1, norm := .clamped 1 65535 }]

/-- The fields of PWM.PERIOD. -/
def fieldsPWM_PERIOD : List FieldRow := [
  { lo := 0, w := 28, acc := .rw, rst := .value 96000, norm := .clamped 2 268435455 }]

/-- The fields of PWM.PHASE. -/
def fieldsPWM_PHASE : List FieldRow := [
  { lo := 0, w := 32, acc := .rw }]

/-- The fields of PWM.DT. -/
def fieldsPWM_DT : List FieldRow := [
  { lo := 16, w := 16, acc := .lck },
  { lo := 0, w := 16, acc := .lck }]

/-- The fields of PWM.CMPA. -/
def fieldsPWM_CMPA : List FieldRow := [
  { lo := 0, w := 28, acc := .rw }]

/-- The fields of PWM.CMPB. -/
def fieldsPWM_CMPB : List FieldRow := [
  { lo := 0, w := 28, acc := .rw }]

/-- The fields of PWM.SAFE. -/
def fieldsPWM_SAFE : List FieldRow := [
  { lo := 0, w := 12, acc := .lck, rst := .value 0xAAA }]

/-- The fields of PWM.TRIPSRC0. -/
def fieldsPWM_TRIPSRC0 : List FieldRow := [
  { lo := 0, w := 32, acc := .lck }]

/-- The fields of PWM.TRIPSRC1. -/
def fieldsPWM_TRIPSRC1 : List FieldRow := [
  { lo := 0, w := 4, acc := .lck }]

/-- The fields of PWM.CTL. -/
def fieldsPWM_CTL : List FieldRow := [
  { lo := 2, w := 1, acc := .wo },
  { lo := 1, w := 1, acc := .rw },
  { lo := 0, w := 1, acc := .w1s }]

/-- The fields of PWM.STAT. -/
def fieldsPWM_STAT : List FieldRow := [
  { lo := 16, w := 16, acc := .ro },
  { lo := 8, w := 4, acc := .ro, live := true },
  { lo := 0, w := 1, acc := .ro, live := true }]

/-- The fields of PWM.ISTAT. -/
def fieldsPWM_ISTAT : List FieldRow := [
  { lo := 5, w := 1, acc := .w1c },
  { lo := 4, w := 1, acc := .w1c },
  { lo := 3, w := 1, acc := .w1c },
  { lo := 2, w := 1, acc := .w1c },
  { lo := 1, w := 1, acc := .w1c },
  { lo := 0, w := 1, acc := .w1c }]

/-- The fields of PWM.IEN. -/
def fieldsPWM_IEN : List FieldRow := [
  { lo := 0, w := 6, acc := .rw }]

/-- The fields of PWM.PIN. -/
def fieldsPWM_PIN : List FieldRow := [
  { lo := 8, w := 6, acc := .ro, live := true },
  { lo := 0, w := 6, acc := .ro, live := true }]

/-- The fields of SDF.SNAPMA0. -/
def fieldsSDF_SNAPMA0 : List FieldRow := [
  { lo := 0, w := 32, acc := .rw }]

/-- The fields of SDF.SNAPMA1. -/
def fieldsSDF_SNAPMA1 : List FieldRow := [
  { lo := 0, w := 4, acc := .rw }]

/-- The fields of SDF.SNAPMB0. -/
def fieldsSDF_SNAPMB0 : List FieldRow := [
  { lo := 0, w := 32, acc := .rw }]

/-- The fields of SDF.SNAPMB1. -/
def fieldsSDF_SNAPMB1 : List FieldRow := [
  { lo := 0, w := 4, acc := .rw }]

/-- The fields of SDF.SNAPTALO. -/
def fieldsSDF_SNAPTALO : List FieldRow := [
  { lo := 0, w := 32, acc := .ro }]

/-- The fields of SDF.SNAPTAHI. -/
def fieldsSDF_SNAPTAHI : List FieldRow := [
  { lo := 0, w := 32, acc := .ro }]

/-- The fields of SDF.SNAPTBLO. -/
def fieldsSDF_SNAPTBLO : List FieldRow := [
  { lo := 0, w := 32, acc := .ro }]

/-- The fields of SDF.SNAPTBHI. -/
def fieldsSDF_SNAPTBHI : List FieldRow := [
  { lo := 0, w := 32, acc := .ro }]

/-- The fields of SDF.LOCK. -/
def fieldsSDF_LOCK : List FieldRow := [
  { lo := 0, w := 1, acc := .w1s, lockBit := true }]

/-- The fields of SDF.CFG. -/
def fieldsSDF_CFG : List FieldRow := [
  { lo := 31, w := 1, acc := .rw },
  { lo := 30, w := 1, acc := .rw },
  { lo := 29, w := 1, acc := .rw },
  { lo := 28, w := 1, acc := .rw },
  { lo := 20, w := 8, acc := .rw, rst := .value 10, norm := .clamped 8 100 },
  { lo := 14, w := 6, acc := .lck, rst := .value 8, norm := .clamped 4 32 },
  { lo := 10, w := 4, acc := .lck, rst := .value 2, norm := .clamped 1 15 },
  { lo := 0, w := 9, acc := .rw, rst := .value 64, norm := .clamped 16 256 }]

/-- The fields of SDF.FTHR. -/
def fieldsSDF_FTHR : List FieldRow := [
  { lo := 16, w := 16, acc := .lck, rst := .value 0x7FFF },
  { lo := 0, w := 16, acc := .lck, rst := .value 0x8000 }]

/-- The fields of SDF.DATA. -/
def fieldsSDF_DATA : List FieldRow := [
  { lo := 0, w := 32, acc := .ro }]

/-- The fields of SDF.FAST. -/
def fieldsSDF_FAST : List FieldRow := [
  { lo := 0, w := 16, acc := .ro }]

/-- The fields of SDF.ISTAT. -/
def fieldsSDF_ISTAT : List FieldRow := [
  { lo := 3, w := 1, acc := .w1c },
  { lo := 2, w := 1, acc := .w1c },
  { lo := 1, w := 1, acc := .w1c },
  { lo := 0, w := 1, acc := .w1c }]

/-- The fields of SDF.IEN. -/
def fieldsSDF_IEN : List FieldRow := [
  { lo := 0, w := 4, acc := .rw }]

/-- The fields of SDF.SNAPA. -/
def fieldsSDF_SNAPA : List FieldRow := [
  { lo := 0, w := 32, acc := .ro }]

/-- The fields of SDF.SNAPB. -/
def fieldsSDF_SNAPB : List FieldRow := [
  { lo := 0, w := 32, acc := .ro }]

/-- The fields of ADC.CFG. -/
def fieldsADC_CFG : List FieldRow := [
  { lo := 31, w := 1, acc := .rw },
  { lo := 29, w := 2, acc := .rw, norm := .storedAs 3 0 },
  { lo := 8, w := 2, acc := .rw },
  { lo := 6, w := 2, acc := .rw },
  { lo := 4, w := 2, acc := .rw },
  { lo := 2, w := 2, acc := .rw },
  { lo := 0, w := 2, acc := .rw }]

/-- The fields of ADC.START. -/
def fieldsADC_START : List FieldRow := [
  { lo := 0, w := 1, acc := .wo }]

/-- The fields of ADC.RES. -/
def fieldsADC_RES : List FieldRow := [
  { lo := 16, w := 16, acc := .ro },
  { lo := 0, w := 16, acc := .ro }]

/-- The fields of ADC.STAMPLO. -/
def fieldsADC_STAMPLO : List FieldRow := [
  { lo := 0, w := 32, acc := .ro }]

/-- The fields of ADC.STAMPHI. -/
def fieldsADC_STAMPHI : List FieldRow := [
  { lo := 0, w := 32, acc := .ro }]

/-- The fields of ADC.ISTAT. -/
def fieldsADC_ISTAT : List FieldRow := [
  { lo := 1, w := 1, acc := .w1c },
  { lo := 0, w := 1, acc := .w1c }]

/-- The fields of ADC.IEN. -/
def fieldsADC_IEN : List FieldRow := [
  { lo := 0, w := 2, acc := .rw }]

/-- The fields of POSIF.CFG. -/
def fieldsPOSIF_CFG : List FieldRow := [
  { lo := 31, w := 1, acc := .rw },
  { lo := 29, w := 2, acc := .rw, norm := .kept 3 },
  { lo := 0, w := 16, acc := .rw, rst := .value 600, norm := .clamped 8 65535 }]

/-- The fields of POSIF.RES. -/
def fieldsPOSIF_RES : List FieldRow := [
  { lo := 8, w := 8, acc := .rw },
  { lo := 4, w := 4, acc := .rw },
  { lo := 0, w := 2, acc := .rw, rst := .value 1, norm := .storedAs 3 1 }]

/-- The fields of POSIF.ABZ. -/
def fieldsPOSIF_ABZ : List FieldRow := [
  { lo := 30, w := 2, acc := .rw, norm := .kept 3 },
  { lo := 27, w := 3, acc := .rw, rst := .value 2 },
  { lo := 0, w := 24, acc := .rw, rst := .value 4096, norm := .clamped 4 16777215 }]

/-- The fields of POSIF.SSI. -/
def fieldsPOSIF_SSI : List FieldRow := [
  { lo := 31, w := 1, acc := .rw },
  { lo := 30, w := 1, acc := .rw },
  { lo := 25, w := 5, acc := .rw, rst := .value 12 },
  { lo := 19, w := 6, acc := .rw, rst := .value 13, norm := .clamped 1 63 },
  { lo := 13, w := 6, acc := .rw, rst := .value 25, norm := .clamped 8 40 },
  { lo := 0, w := 10, acc := .rw, rst := .value 200, norm := .clamped 20 1000 }]

/-- The fields of POSIF.SSITIM. -/
def fieldsPOSIF_SSITIM : List FieldRow := [
  { lo := 16, w := 16, acc := .rw },
  { lo := 8, w := 8, acc := .rw, rst := .value 20, norm := .clamped 1 255 },
  { lo := 0, w := 8, acc := .rw }]

/-- The fields of POSIF.POS. -/
def fieldsPOSIF_POS : List FieldRow := [
  { lo := 0, w := 32, acc := .ro }]

/-- The fields of POSIF.REV. -/
def fieldsPOSIF_REV : List FieldRow := [
  { lo := 24, w := 8, acc := .ro },
  { lo := 16, w := 1, acc := .ro },
  { lo := 0, w := 16, acc := .ro }]

/-- The fields of POSIF.COUNT. -/
def fieldsPOSIF_COUNT : List FieldRow := [
  { lo := 0, w := 32, acc := .ro }]

/-- The fields of POSIF.ISTAT. -/
def fieldsPOSIF_ISTAT : List FieldRow := [
  { lo := 4, w := 1, acc := .w1c },
  { lo := 3, w := 1, acc := .w1c },
  { lo := 2, w := 1, acc := .w1c },
  { lo := 1, w := 1, acc := .w1c },
  { lo := 0, w := 1, acc := .w1c }]

/-- The fields of POSIF.IEN. -/
def fieldsPOSIF_IEN : List FieldRow := [
  { lo := 0, w := 5, acc := .rw }]

/-- The fields of SAFEISL.STAT. -/
def fieldsSAFEISL_STAT : List FieldRow := [
  { lo := 8, w := 2, acc := .ro, live := true },
  { lo := 7, w := 1, acc := .ro },
  { lo := 6, w := 1, acc := .ro, live := true },
  { lo := 5, w := 1, acc := .ro },
  { lo := 4, w := 1, acc := .ro, rst := .value 1 },
  { lo := 0, w := 3, acc := .ro, rst := .value 7 }]

/-- The fields of SAFEISL.ISTAT. -/
def fieldsSAFEISL_ISTAT : List FieldRow := [
  { lo := 6, w := 1, acc := .w1c },
  { lo := 5, w := 1, acc := .w1c },
  { lo := 0, w := 5, acc := .w1c }]

/-- The fields of SAFEISL.IEN. -/
def fieldsSAFEISL_IEN : List FieldRow := [
  { lo := 0, w := 7, acc := .rw }]

/-- The fields of SAFEISL.INTPAIRS. -/
def fieldsSAFEISL_INTPAIRS : List FieldRow := [
  { lo := 0, w := 16, acc := .lck, rst := .value 1 }]

/-- The fields of SAFEISL.SSTOP. -/
def fieldsSAFEISL_SSTOP : List FieldRow := [
  { lo := 0, w := 6, acc := .lck, rst := .value 20, norm := .clamped 1 40 }]

/-- The fields of SAFEISL.TIMELO. -/
def fieldsSAFEISL_TIMELO : List FieldRow := [
  { lo := 0, w := 32, acc := .ro, live := true }]

/-- The fields of SAFEISL.TIMEHI. -/
def fieldsSAFEISL_TIMEHI : List FieldRow := [
  { lo := 0, w := 32, acc := .ro, live := true }]

/-- The fields of SAFEISL.LOGHEAD. -/
def fieldsSAFEISL_LOGHEAD : List FieldRow := [
  { lo := 16, w := 16, acc := .ro, ret := true },
  { lo := 8, w := 8, acc := .ro },
  { lo := 0, w := 6, acc := .ro }]

/-- The fields of SAFEISL.CTL. -/
def fieldsSAFEISL_CTL : List FieldRow := [
  { lo := 0, w := 1, acc := .wo }]

/-- The fields of SAFEISL.LOGREAD. -/
def fieldsSAFEISL_LOGREAD : List FieldRow := [
  { lo := 16, w := 8, acc := .wo },
  { lo := 8, w := 7, acc := .ro },
  { lo := 0, w := 6, acc := .ro }]

/-- The fields of SAFEISL.LOCK. -/
def fieldsSAFEISL_LOCK : List FieldRow := [
  { lo := 0, w := 1, acc := .w1s, lockBit := true }]

/-- The fields of SAFEISL.REACT. -/
def fieldsSAFEISL_REACT : List FieldRow := [
  { lo := 16, w := 16, acc := .ro, ret := true },
  { lo := 9, w := 3, acc := .ro, live := true },
  { lo := 6, w := 3, acc := .ro, live := true },
  { lo := 0, w := 3, acc := .lck, rst := .reaction }]

/-- The fields of SAFEISL.LOGW0. -/
def fieldsSAFEISL_LOGW0 : List FieldRow := [
  { lo := 16, w := 16, acc := .ro },
  { lo := 15, w := 1, acc := .ro },
  { lo := 12, w := 3, acc := .ro },
  { lo := 8, w := 3, acc := .ro },
  { lo := 0, w := 8, acc := .ro }]

/-- The fields of SAFEISL.LOGW1. -/
def fieldsSAFEISL_LOGW1 : List FieldRow := [
  { lo := 0, w := 16, acc := .ro }]

/-- The fields of SAFEISL.LOGW2. -/
def fieldsSAFEISL_LOGW2 : List FieldRow := [
  { lo := 0, w := 32, acc := .ro }]

/-- The fields of SAFEISL.LOGW3. -/
def fieldsSAFEISL_LOGW3 : List FieldRow := [
  { lo := 0, w := 32, acc := .ro }]

/-- The fields of KEEPER.CFG. -/
def fieldsKEEPER_CFG : List FieldRow := [
  { lo := 28, w := 1, acc := .lck, ret := true },
  { lo := 27, w := 1, acc := .lck, ret := true },
  { lo := 20, w := 6, acc := .lck, rst := .value 15, ret := true },
  { lo := 16, w := 4, acc := .lck, ret := true },
  { lo := 8, w := 4, acc := .lck, rst := .value 15, ret := true }]

/-- The fields of KEEPER.WIN. -/
def fieldsKEEPER_WIN : List FieldRow := [
  { lo := 16, w := 16, acc := .lck, rst := .value 1000, ret := true },
  { lo := 0, w := 16, acc := .lck, rst := .value 800, ret := true, norm := .clamped 1 65534 }]

/-- The fields of KEEPER.SVC. -/
def fieldsKEEPER_SVC : List FieldRow := [
  { lo := 0, w := 16, acc := .tgl, ret := true }]

/-- The fields of KEEPER.STAT. -/
def fieldsKEEPER_STAT : List FieldRow := [
  { lo := 16, w := 16, acc := .ro, live := true },
  { lo := 3, w := 1, acc := .ro },
  { lo := 0, w := 3, acc := .ro }]

/-- The fields of KEEPER.ISTAT. -/
def fieldsKEEPER_ISTAT : List FieldRow := [
  { lo := 6, w := 1, acc := .w1c },
  { lo := 5, w := 1, acc := .w1c },
  { lo := 4, w := 1, acc := .w1c },
  { lo := 3, w := 1, acc := .w1c },
  { lo := 2, w := 1, acc := .w1c },
  { lo := 1, w := 1, acc := .w1c },
  { lo := 0, w := 1, acc := .w1c }]

/-- The fields of KEEPER.KTIMELO. -/
def fieldsKEEPER_KTIMELO : List FieldRow := [
  { lo := 0, w := 32, acc := .ro, live := true }]

/-- The fields of KEEPER.KTIMEHI. -/
def fieldsKEEPER_KTIMEHI : List FieldRow := [
  { lo := 0, w := 32, acc := .ro, live := true }]

/-- The fields of KEEPER.LASTSVCLO. -/
def fieldsKEEPER_LASTSVCLO : List FieldRow := [
  { lo := 0, w := 32, acc := .ro, ret := true }]

/-- The fields of KEEPER.LASTSVCHI. -/
def fieldsKEEPER_LASTSVCHI : List FieldRow := [
  { lo := 0, w := 32, acc := .ro, ret := true }]

/-- The fields of KEEPER.LASTCHK. -/
def fieldsKEEPER_LASTCHK : List FieldRow := [
  { lo := 31, w := 1, acc := .ro, ret := true },
  { lo := 8, w := 4, acc := .ro, ret := true },
  { lo := 0, w := 6, acc := .ro, ret := true }]

/-- The fields of KEEPER.EVSTAT. -/
def fieldsKEEPER_EVSTAT : List FieldRow := [
  { lo := 31, w := 1, acc := .w1c, ret := true },
  { lo := 30, w := 1, acc := .ro, ret := true },
  { lo := 0, w := 3, acc := .ro, ret := true }]

/-- The fields of KEEPER.EVTIMELO. -/
def fieldsKEEPER_EVTIMELO : List FieldRow := [
  { lo := 0, w := 32, acc := .ro, ret := true }]

/-- The fields of KEEPER.EVTIMEHI. -/
def fieldsKEEPER_EVTIMEHI : List FieldRow := [
  { lo := 0, w := 32, acc := .ro, ret := true }]

/-- The fields of KEEPER.PAUSE. -/
def fieldsKEEPER_PAUSE : List FieldRow := [
  { lo := 16, w := 16, acc := .rc },
  { lo := 0, w := 16, acc := .ro }]

/-- The fields of KEEPER.LOCK. -/
def fieldsKEEPER_LOCK : List FieldRow := [
  { lo := 0, w := 1, acc := .ro, lockBit := true }]

/-- The fields of KEEPER.TLO. -/
def fieldsKEEPER_TLO : List FieldRow := [
  { lo := 0, w := 32, acc := .ro, ret := true }]

/-- The fields of KEEPER.THI. -/
def fieldsKEEPER_THI : List FieldRow := [
  { lo := 0, w := 32, acc := .ro, ret := true }]

/-- The fields of KEEPER.EVPC. -/
def fieldsKEEPER_EVPC : List FieldRow := [
  { lo := 31, w := 1, acc := .ro, ret := true },
  { lo := 16, w := 4, acc := .ro, ret := true },
  { lo := 0, w := 12, acc := .ro, ret := true }]

/-- The fields of KEEPER.TASK. -/
def fieldsKEEPER_TASK : List FieldRow := [
  { lo := 31, w := 1, acc := .lck, ret := true },
  { lo := 24, w := 4, acc := .lck, ret := true },
  { lo := 16, w := 8, acc := .ro },
  { lo := 8, w := 8, acc := .lck, rst := .value 1, ret := true },
  { lo := 0, w := 8, acc := .lck, rst := .value 1, ret := true }]

/-- The fields of ETH.ADDR. -/
def fieldsETH_ADDR : List FieldRow := [
  { lo := 12, w := 6, acc := .lck, ret := true },
  { lo := 0, w := 12, acc := .lck, ret := true, norm := .storedAs 4095 0 }]

/-- The fields of ETH.STCFG. -/
def fieldsETH_STCFG : List FieldRow := [
  { lo := 31, w := 1, acc := .lck },
  { lo := 16, w := 15, acc := .lck, rst := .value 1000, norm := .clamped 1 32767 },
  { lo := 0, w := 16, acc := .lck, rst := .value 0x88B5 }]

/-- The fields of ETH.VLAN. -/
def fieldsETH_VLAN : List FieldRow := [
  { lo := 0, w := 12, acc := .lck, rst := .value 1 }]

/-- The fields of ETH.ISTAT. -/
def fieldsETH_ISTAT : List FieldRow := [
  { lo := 2, w := 1, acc := .w1c },
  { lo := 1, w := 1, acc := .w1c },
  { lo := 0, w := 1, acc := .w1c }]

/-- The fields of ETH.IEN. -/
def fieldsETH_IEN : List FieldRow := [
  { lo := 0, w := 3, acc := .rw }]

/-- The fields of ETH.DROP. -/
def fieldsETH_DROP : List FieldRow := [
  { lo := 24, w := 8, acc := .rc },
  { lo := 16, w := 8, acc := .rc },
  { lo := 8, w := 8, acc := .rc },
  { lo := 0, w := 8, acc := .rc }]

/-- The fields of ETH.DROP2. -/
def fieldsETH_DROP2 : List FieldRow := [
  { lo := 24, w := 8, acc := .rc },
  { lo := 16, w := 8, acc := .rc },
  { lo := 8, w := 8, acc := .rc },
  { lo := 0, w := 8, acc := .rc }]

/-- The fields of ETH.SWAGE. -/
def fieldsETH_SWAGE : List FieldRow := [
  { lo := 0, w := 16, acc := .rw, rst := .value 300 }]

/-- The fields of ETH.LOCK. -/
def fieldsETH_LOCK : List FieldRow := [
  { lo := 0, w := 1, acc := .w1s, lockBit := true }]

/-- The fields of ETH.PORTCFG. -/
def fieldsETH_PORTCFG : List FieldRow := [
  { lo := 31, w := 1, acc := .rw, rst := .value 1 },
  { lo := 29, w := 2, acc := .rw, rst := .value 2, norm := .storedAs 3 2 },
  { lo := 0, w := 3, acc := .rw }]

/-- The fields of ETH.PORTSTAT. -/
def fieldsETH_PORTSTAT : List FieldRow := [
  { lo := 4, w := 1, acc := .ro },
  { lo := 3, w := 1, acc := .ro },
  { lo := 0, w := 3, acc := .ro }]

/-- The fields of ETH.PORTCNT. -/
def fieldsETH_PORTCNT : List FieldRow := [
  { lo := 16, w := 16, acc := .rc },
  { lo := 0, w := 16, acc := .rc }]

/-- The fields of ETH.PORTISTAT. -/
def fieldsETH_PORTISTAT : List FieldRow := [
  { lo := 0, w := 1, acc := .w1c }]

/-- The fields of ETH.PORTIEN. -/
def fieldsETH_PORTIEN : List FieldRow := [
  { lo := 0, w := 1, acc := .rw }]

/-- The fields of ETH.GPTPCFG. -/
def fieldsETH_GPTPCFG : List FieldRow := [
  { lo := 31, w := 1, acc := .lck },
  { lo := 16, w := 8, acc := .lck, rst := .value 248 },
  { lo := 0, w := 16, acc := .rw, rst := .value 1000, norm := .clamped 1 65535 }]

/-- The fields of ETH.GPTPSTAT. -/
def fieldsETH_GPTPSTAT : List FieldRow := [
  { lo := 1, w := 1, acc := .ro },
  { lo := 0, w := 1, acc := .ro }]

/-- The fields of ETH.GPTPSGTLO. -/
def fieldsETH_GPTPSGTLO : List FieldRow := [
  { lo := 0, w := 32, acc := .ro }]

/-- The fields of ETH.GPTPSGTHI. -/
def fieldsETH_GPTPSGTHI : List FieldRow := [
  { lo := 0, w := 32, acc := .ro }]

/-- The fields of ETH.GPTPSLTLO. -/
def fieldsETH_GPTPSLTLO : List FieldRow := [
  { lo := 0, w := 32, acc := .ro }]

/-- The fields of ETH.GPTPSLTHI. -/
def fieldsETH_GPTPSLTHI : List FieldRow := [
  { lo := 0, w := 32, acc := .ro }]

/-- The fields of ETH.PEERCFG. -/
def fieldsETH_PEERCFG : List FieldRow := [
  { lo := 31, w := 1, acc := .lck },
  { lo := 0, w := 18, acc := .lck }]

/-- The fields of ETH.PEERHLO. -/
def fieldsETH_PEERHLO : List FieldRow := [
  { lo := 0, w := 32, acc := .ro, ret := true }]

/-- The fields of ETH.PEERHHI. -/
def fieldsETH_PEERHHI : List FieldRow := [
  { lo := 0, w := 16, acc := .ro, ret := true }]

/-- The fields of ETH.TXRBASE. -/
def fieldsETH_TXRBASE : List FieldRow := [
  { lo := 5, w := 27, acc := .rw }]

/-- The fields of ETH.TXRCFG. -/
def fieldsETH_TXRCFG : List FieldRow := [
  { lo := 31, w := 1, acc := .rw },
  { lo := 0, w := 12, acc := .rw }]

/-- The fields of ETH.TXRHEAD. -/
def fieldsETH_TXRHEAD : List FieldRow := [
  { lo := 0, w := 12, acc := .ro }]

/-- The fields of ETH.TXRTAIL. -/
def fieldsETH_TXRTAIL : List FieldRow := [
  { lo := 0, w := 12, acc := .rw }]

/-- The fields of ETH.RXRBASE. -/
def fieldsETH_RXRBASE : List FieldRow := [
  { lo := 5, w := 27, acc := .rw }]

/-- The fields of ETH.RXRCFG. -/
def fieldsETH_RXRCFG : List FieldRow := [
  { lo := 31, w := 1, acc := .rw },
  { lo := 0, w := 12, acc := .rw }]

/-- The fields of ETH.RXRHEAD. -/
def fieldsETH_RXRHEAD : List FieldRow := [
  { lo := 0, w := 12, acc := .rw }]

/-- The fields of ETH.RXRTAIL. -/
def fieldsETH_RXRTAIL : List FieldRow := [
  { lo := 0, w := 12, acc := .ro }]

/-- The fields of CANXL.CFG. -/
def fieldsCANXL_CFG : List FieldRow := [
  { lo := 31, w := 1, acc := .rw },
  { lo := 30, w := 1, acc := .rw },
  { lo := 29, w := 1, acc := .rw },
  { lo := 28, w := 1, acc := .rw, rst := .value 1 },
  { lo := 26, w := 2, acc := .rw, rst := .value 2, norm := .storedAs 3 2 }]

/-- The fields of CANXL.NBT. -/
def fieldsCANXL_NBT : List FieldRow := [
  { lo := 24, w := 8, acc := .rw, rst := .value 7 },
  { lo := 16, w := 8, acc := .rw, rst := .value 15, norm := .clamped 1 255 },
  { lo := 8, w := 8, acc := .rw, rst := .value 4, norm := .clamped 1 255 },
  { lo := 0, w := 8, acc := .rw, rst := .value 4, norm := .clamped 1 255 }]

/-- The fields of CANXL.DBT. -/
def fieldsCANXL_DBT : List FieldRow := [
  { lo := 24, w := 8, acc := .rw },
  { lo := 16, w := 8, acc := .rw, rst := .value 7, norm := .clamped 1 255 },
  { lo := 8, w := 8, acc := .rw, rst := .value 2, norm := .clamped 1 255 },
  { lo := 0, w := 8, acc := .rw, rst := .value 2, norm := .clamped 1 255 }]

/-- The fields of CANXL.XCFG. -/
def fieldsCANXL_XCFG : List FieldRow := [
  { lo := 31, w := 1, acc := .rw }]

/-- The fields of CANXL.CTL. -/
def fieldsCANXL_CTL : List FieldRow := [
  { lo := 0, w := 1, acc := .wo }]

/-- The fields of CANXL.STAT. -/
def fieldsCANXL_STAT : List FieldRow := [
  { lo := 24, w := 8, acc := .rc },
  { lo := 16, w := 8, acc := .ro },
  { lo := 8, w := 8, acc := .ro },
  { lo := 0, w := 2, acc := .ro }]

/-- The fields of CANXL.ISTAT. -/
def fieldsCANXL_ISTAT : List FieldRow := [
  { lo := 3, w := 1, acc := .w1c },
  { lo := 2, w := 1, acc := .w1c },
  { lo := 1, w := 1, acc := .w1c },
  { lo := 0, w := 1, acc := .w1c }]

/-- The fields of CANXL.IEN. -/
def fieldsCANXL_IEN : List FieldRow := [
  { lo := 0, w := 4, acc := .rw }]

/-- The fields of CANXL.TXBASE. -/
def fieldsCANXL_TXBASE : List FieldRow := [
  { lo := 5, w := 27, acc := .rw }]

/-- The fields of CANXL.TXCFG. -/
def fieldsCANXL_TXCFG : List FieldRow := [
  { lo := 31, w := 1, acc := .rw },
  { lo := 0, w := 12, acc := .rw }]

/-- The fields of CANXL.TXHEAD. -/
def fieldsCANXL_TXHEAD : List FieldRow := [
  { lo := 0, w := 12, acc := .ro }]

/-- The fields of CANXL.TXTAIL. -/
def fieldsCANXL_TXTAIL : List FieldRow := [
  { lo := 0, w := 12, acc := .rw }]

/-- The fields of CANXL.RXBASE. -/
def fieldsCANXL_RXBASE : List FieldRow := [
  { lo := 5, w := 27, acc := .rw }]

/-- The fields of CANXL.RXCFG. -/
def fieldsCANXL_RXCFG : List FieldRow := [
  { lo := 0, w := 12, acc := .rw }]

/-- The fields of CANXL.RXHEAD. -/
def fieldsCANXL_RXHEAD : List FieldRow := [
  { lo := 0, w := 12, acc := .rw }]

/-- The fields of CANXL.RXTAIL. -/
def fieldsCANXL_RXTAIL : List FieldRow := [
  { lo := 0, w := 12, acc := .ro }]

/-- The fields of CANXL.FLTID. -/
def fieldsCANXL_FLTID : List FieldRow := [
  { lo := 31, w := 1, acc := .rw },
  { lo := 0, w := 29, acc := .rw }]

/-- The fields of CANXL.FLTMASK. -/
def fieldsCANXL_FLTMASK : List FieldRow := [
  { lo := 31, w := 1, acc := .rw },
  { lo := 0, w := 29, acc := .rw }]

/-- The fields of CANXL.FLT2ID. -/
def fieldsCANXL_FLT2ID : List FieldRow := [
  { lo := 31, w := 1, acc := .rw },
  { lo := 0, w := 29, acc := .rw }]

/-- The fields of CANXL.FLT2MASK. -/
def fieldsCANXL_FLT2MASK : List FieldRow := [
  { lo := 31, w := 1, acc := .rw },
  { lo := 0, w := 29, acc := .rw }]

/-- The fields of BUOY.LOCK. -/
def fieldsBUOY_LOCK : List FieldRow := [
  { lo := 0, w := 1, acc := .w1s, lockBit := true }]

/-- The fields of BUOY.CFG. -/
def fieldsBUOY_CFG : List FieldRow := [
  { lo := 31, w := 1, acc := .rw },
  { lo := 30, w := 1, acc := .lck, rst := .value 1 },
  { lo := 16, w := 6, acc := .rw, rst := .value 3 },
  { lo := 0, w := 16, acc := .rw, rst := .value 20, norm := .clamped 1 65535 }]

/-- The fields of BUOY.CTL. -/
def fieldsBUOY_CTL : List FieldRow := [
  { lo := 8, w := 8, acc := .wo },
  { lo := 0, w := 1, acc := .wo }]

/-- The fields of BUOY.STAT. -/
def fieldsBUOY_STAT : List FieldRow := [
  { lo := 16, w := 10, acc := .ro },
  { lo := 8, w := 8, acc := .ro, live := true },
  { lo := 5, w := 3, acc := .ro },
  { lo := 4, w := 1, acc := .ro },
  { lo := 3, w := 1, acc := .ro },
  { lo := 2, w := 1, acc := .ro }]

/-- The fields of BUOY.RLAT. -/
def fieldsBUOY_RLAT : List FieldRow := [
  { lo := 0, w := 24, acc := .ro }]

/-- The fields of BUOY.ENUMBUF. -/
def fieldsBUOY_ENUMBUF : List FieldRow := [
  { lo := 4, w := 28, acc := .rw }]

/-- The fields of BUOY.ISTAT. -/
def fieldsBUOY_ISTAT : List FieldRow := [
  { lo := 9, w := 1, acc := .w1c },
  { lo := 8, w := 1, acc := .w1c },
  { lo := 7, w := 1, acc := .w1c },
  { lo := 6, w := 1, acc := .w1c },
  { lo := 5, w := 1, acc := .w1c },
  { lo := 4, w := 1, acc := .w1c },
  { lo := 3, w := 1, acc := .w1c },
  { lo := 2, w := 1, acc := .w1c },
  { lo := 1, w := 1, acc := .w1c },
  { lo := 0, w := 1, acc := .w1c }]

/-- The fields of BUOY.IEN. -/
def fieldsBUOY_IEN : List FieldRow := [
  { lo := 0, w := 10, acc := .rw }]

/-- The fields of BUOY.CNT. -/
def fieldsBUOY_CNT : List FieldRow := [
  { lo := 16, w := 16, acc := .rc },
  { lo := 0, w := 16, acc := .rc }]

/-- The fields of BUOY.LAST. -/
def fieldsBUOY_LAST : List FieldRow := [
  { lo := 31, w := 1, acc := .ro },
  { lo := 24, w := 3, acc := .ro },
  { lo := 16, w := 8, acc := .ro },
  { lo := 0, w := 16, acc := .ro }]

/-- The fields of BUOY.LISTBASE. -/
def fieldsBUOY_LISTBASE : List FieldRow := [
  { lo := 4, w := 28, acc := .rw }]

/-- The fields of BUOY.LISTCNT. -/
def fieldsBUOY_LISTCNT : List FieldRow := [
  { lo := 0, w := 10, acc := .rw }]

/-- The fields of BUOY.T. -/
def fieldsBUOY_T : List FieldRow := [
  { lo := 31, w := 1, acc := .rw },
  { lo := 29, w := 2, acc := .ro },
  { lo := 18, w := 6, acc := .ro },
  { lo := 12, w := 4, acc := .ro },
  { lo := 8, w := 2, acc := .rw },
  { lo := 0, w := 8, acc := .rw, norm := .clamped 1 255 }]

/-- The fields of TRUST.STAT. -/
def fieldsTRUST_STAT : List FieldRow := [
  { lo := 18, w := 1, acc := .ro, live := true },
  { lo := 17, w := 1, acc := .ro, live := true },
  { lo := 16, w := 1, acc := .ro, live := true },
  { lo := 12, w := 4, acc := .ro, live := true },
  { lo := 10, w := 2, acc := .ro, live := true },
  { lo := 8, w := 2, acc := .ro, live := true },
  { lo := 4, w := 2, acc := .ro, live := true },
  { lo := 0, w := 3, acc := .ro, live := true }]

/-- The fields of TRUST.DEVUIDLO. -/
def fieldsTRUST_DEVUIDLO : List FieldRow := [
  { lo := 0, w := 32, acc := .ro, live := true }]

/-- The fields of TRUST.DEVUIDHI. -/
def fieldsTRUST_DEVUIDHI : List FieldRow := [
  { lo := 0, w := 32, acc := .ro, live := true }]

/-- The fields of TRUST.ARB. -/
def fieldsTRUST_ARB : List FieldRow := [
  { lo := 0, w := 32, acc := .ro, live := true }]

/-- The fields of TRUST.FUSEARB. -/
def fieldsTRUST_FUSEARB : List FieldRow := [
  { lo := 0, w := 8, acc := .ro, live := true }]

/-- The fields of TRUST.ATTNEXTLO. -/
def fieldsTRUST_ATTNEXTLO : List FieldRow := [
  { lo := 0, w := 32, acc := .ro, live := true }]

/-- The fields of TRUST.ATTNEXTHI. -/
def fieldsTRUST_ATTNEXTHI : List FieldRow := [
  { lo := 0, w := 8, acc := .ro, live := true }]

/-- The fields of TRUST.CTRLO. -/
def fieldsTRUST_CTRLO : List FieldRow := [
  { lo := 0, w := 32, acc := .ro, live := true }]

/-- The fields of TRUST.CTRHI. -/
def fieldsTRUST_CTRHI : List FieldRow := [
  { lo := 0, w := 32, acc := .ro, live := true }]

/-- The fields of TRUST.LASTCMD. -/
def fieldsTRUST_LASTCMD : List FieldRow := [
  { lo := 18, w := 1, acc := .ro },
  { lo := 16, w := 2, acc := .ro },
  { lo := 8, w := 8, acc := .ro },
  { lo := 0, w := 8, acc := .ro }]

/-- The fields of TRUST.ISTAT. -/
def fieldsTRUST_ISTAT : List FieldRow := [
  { lo := 7, w := 1, acc := .w1c },
  { lo := 6, w := 1, acc := .w1c },
  { lo := 5, w := 1, acc := .w1c },
  { lo := 4, w := 1, acc := .w1c },
  { lo := 3, w := 1, acc := .w1c },
  { lo := 2, w := 1, acc := .w1c },
  { lo := 1, w := 1, acc := .w1c },
  { lo := 0, w := 1, acc := .w1c }]

/-- The fields of TRUST.IEN. -/
def fieldsTRUST_IEN : List FieldRow := [
  { lo := 0, w := 8, acc := .rw }]

/-- The fields of TRUST.SIGCNT. -/
def fieldsTRUST_SIGCNT : List FieldRow := [
  { lo := 24, w := 8, acc := .rc },
  { lo := 16, w := 8, acc := .rc },
  { lo := 0, w := 16, acc := .rc, ret := true }]

/-- The fields of TRUST.ATTPK. -/
def fieldsTRUST_ATTPK : List FieldRow := [
  { lo := 0, w := 32, acc := .ro, live := true }]

/-- The fields of NVS.STAT. -/
def fieldsNVS_STAT : List FieldRow := [
  { lo := 16, w := 16, acc := .ro, live := true },
  { lo := 8, w := 8, acc := .ro, live := true },
  { lo := 4, w := 1, acc := .ro },
  { lo := 3, w := 1, acc := .ro },
  { lo := 2, w := 1, acc := .ro },
  { lo := 0, w := 1, acc := .ro, live := true }]

/-- The fields of NVS.SEALLO. -/
def fieldsNVS_SEALLO : List FieldRow := [
  { lo := 0, w := 32, acc := .ro, live := true }]

/-- The fields of NVS.SEALHI. -/
def fieldsNVS_SEALHI : List FieldRow := [
  { lo := 0, w := 16, acc := .ro, live := true }]

/-- The fields of NVS.CFG. -/
def fieldsNVS_CFG : List FieldRow := [
  { lo := 0, w := 10, acc := .lck, rst := .value 50, norm := .clamped 1 600 }]

/-- The fields of NVS.APPEND. -/
def fieldsNVS_APPEND : List FieldRow := [
  { lo := 0, w := 32, acc := .wo }]

/-- The fields of NVS.APSTAT. -/
def fieldsNVS_APSTAT : List FieldRow := [
  { lo := 31, w := 1, acc := .ro },
  { lo := 0, w := 3, acc := .ro }]

/-- The fields of NVS.JSTAT. -/
def fieldsNVS_JSTAT : List FieldRow := [
  { lo := 16, w := 16, acc := .rc },
  { lo := 0, w := 16, acc := .rc }]

/-- The fields of NVS.SLOTCTL. -/
def fieldsNVS_SLOTCTL : List FieldRow := [
  { lo := 31, w := 1, acc := .wo },
  { lo := 4, w := 8, acc := .rw },
  { lo := 2, w := 2, acc := .rw, norm := .storedAs 3 2 },
  { lo := 0, w := 2, acc := .rw, norm := .storedAs 3 0 }]

/-- The fields of NVS.SRC. -/
def fieldsNVS_SRC : List FieldRow := [
  { lo := 0, w := 32, acc := .rw }]

/-- The fields of NVS.OFF. -/
def fieldsNVS_OFF : List FieldRow := [
  { lo := 0, w := 32, acc := .rw }]

/-- The fields of NVS.LEN. -/
def fieldsNVS_LEN : List FieldRow := [
  { lo := 0, w := 32, acc := .rw }]

/-- The fields of NVS.SLOTSTAT. -/
def fieldsNVS_SLOTSTAT : List FieldRow := [
  { lo := 31, w := 1, acc := .ro },
  { lo := 0, w := 3, acc := .ro }]

/-- The fields of NVS.WEAR. -/
def fieldsNVS_WEAR : List FieldRow := [
  { lo := 16, w := 16, acc := .ro, live := true },
  { lo := 8, w := 8, acc := .ro, live := true },
  { lo := 0, w := 8, acc := .ro, live := true }]

/-- The fields of NVS.ISTAT. -/
def fieldsNVS_ISTAT : List FieldRow := [
  { lo := 3, w := 1, acc := .w1c },
  { lo := 2, w := 1, acc := .w1c },
  { lo := 1, w := 1, acc := .w1c },
  { lo := 0, w := 1, acc := .w1c }]

/-- The fields of NVS.IEN. -/
def fieldsNVS_IEN : List FieldRow := [
  { lo := 0, w := 4, acc := .rw }]

/-- The fields of NVS.LOCK. -/
def fieldsNVS_LOCK : List FieldRow := [
  { lo := 0, w := 1, acc := .w1s, lockBit := true }]

/-- The fields of TEST.BISTCTL. -/
def fieldsTEST_BISTCTL : List FieldRow := [
  { lo := 1, w := 1, acc := .wo },
  { lo := 0, w := 1, acc := .wo }]

/-- The fields of TEST.BISTCFG. -/
def fieldsTEST_BISTCFG : List FieldRow := [
  { lo := 16, w := 2, acc := .rw, rst := .value 3 },
  { lo := 0, w := 12, acc := .rw, rst := .value 750 }]

/-- The fields of TEST.BISTSTAT. -/
def fieldsTEST_BISTSTAT : List FieldRow := [
  { lo := 31, w := 1, acc := .ro },
  { lo := 24, w := 3, acc := .ro },
  { lo := 16, w := 8, acc := .ro },
  { lo := 0, w := 9, acc := .ro }]

/-- The fields of TEST.WCFG. -/
def fieldsTEST_WCFG : List FieldRow := [
  { lo := 16, w := 16, acc := .lck, rst := .value 0xFFFF },
  { lo := 0, w := 11, acc := .lck, rst := .value 60, norm := .clamped 10 1440 }]

/-- The fields of TEST.WSTAT. -/
def fieldsTEST_WSTAT : List FieldRow := [
  { lo := 16, w := 16, acc := .rc },
  { lo := 8, w := 5, acc := .ro },
  { lo := 0, w := 8, acc := .ro }]

/-- The fields of TEST.WFAIL. -/
def fieldsTEST_WFAIL : List FieldRow := [
  { lo := 0, w := 32, acc := .ro, ret := true }]

/-- The fields of TEST.ISTAT. -/
def fieldsTEST_ISTAT : List FieldRow := [
  { lo := 3, w := 1, acc := .w1c },
  { lo := 2, w := 1, acc := .w1c },
  { lo := 1, w := 1, acc := .w1c },
  { lo := 0, w := 1, acc := .w1c }]

/-- The fields of TEST.IEN. -/
def fieldsTEST_IEN : List FieldRow := [
  { lo := 0, w := 4, acc := .rw }]

/-- The fields of TEST.LOCK. -/
def fieldsTEST_LOCK : List FieldRow := [
  { lo := 0, w := 1, acc := .w1s, lockBit := true }]

/-- The fields of TEST.OFFER. -/
def fieldsTEST_OFFER : List FieldRow := [
  { lo := 0, w := 16, acc := .wo }]

/-- The fields of TEST.BISTRESLO. -/
def fieldsTEST_BISTRESLO : List FieldRow := [
  { lo := 0, w := 32, acc := .ro }]

/-- The fields of TEST.BISTRESHI. -/
def fieldsTEST_BISTRESHI : List FieldRow := [
  { lo := 0, w := 32, acc := .ro }]

/-- The fields of AGEING.STAT. -/
def fieldsAGEING_STAT : List FieldRow := [
  { lo := 0, w := 32, acc := .ro, live := true }]

/-- The fields of AGEING.CFG. -/
def fieldsAGEING_CFG : List FieldRow := [
  { lo := 0, w := 8, acc := .lck, rst := .value 40, norm := .clamped 10 255 }]

/-- The fields of AGEING.SHORT. -/
def fieldsAGEING_SHORT : List FieldRow := [
  { lo := 0, w := 16, acc := .w1c }]

/-- The fields of AGEING.ISTAT. -/
def fieldsAGEING_ISTAT : List FieldRow := [
  { lo := 2, w := 1, acc := .w1c },
  { lo := 1, w := 1, acc := .w1c },
  { lo := 0, w := 1, acc := .w1c }]

/-- The fields of AGEING.IEN. -/
def fieldsAGEING_IEN : List FieldRow := [
  { lo := 0, w := 3, acc := .rw }]

/-- The fields of AGEING.LOCK. -/
def fieldsAGEING_LOCK : List FieldRow := [
  { lo := 0, w := 1, acc := .w1s, lockBit := true }]

/-- The fields of AGEING.NEED. -/
def fieldsAGEING_NEED : List FieldRow := [
  { lo := 0, w := 6, acc := .lck, norm := .needStep }]

/-- The fields of AGEING.PAIR. -/
def fieldsAGEING_PAIR : List FieldRow := [
  { lo := 24, w := 8, acc := .ro, live := true },
  { lo := 12, w := 12, acc := .ro, live := true },
  { lo := 6, w := 6, acc := .ro, live := true },
  { lo := 0, w := 6, acc := .ro, ret := true, live := true }]

/-- The fields of DEBUG.STAT. -/
def fieldsDEBUG_STAT : List FieldRow := [
  { lo := 16, w := 16, acc := .ro, live := true },
  { lo := 0, w := 1, acc := .ro }]

/-- The fields of DEBUG.CFG. -/
def fieldsDEBUG_CFG : List FieldRow := [
  { lo := 0, w := 16, acc := .lck, rst := .value 600, norm := .clamped 1 65535 }]

/-- The fields of DEBUG.ISTAT. -/
def fieldsDEBUG_ISTAT : List FieldRow := [
  { lo := 3, w := 1, acc := .w1c },
  { lo := 2, w := 1, acc := .w1c },
  { lo := 1, w := 1, acc := .w1c },
  { lo := 0, w := 1, acc := .w1c }]

/-- The fields of DEBUG.IEN. -/
def fieldsDEBUG_IEN : List FieldRow := [
  { lo := 0, w := 4, acc := .rw }]

/-- The fields of DEBUG.CNT. -/
def fieldsDEBUG_CNT : List FieldRow := [
  { lo := 16, w := 16, acc := .rc },
  { lo := 0, w := 16, acc := .rc }]

/-- The fields of DEBUG.RSTCNT. -/
def fieldsDEBUG_RSTCNT : List FieldRow := [
  { lo := 0, w := 16, acc := .ro, ret := true }]

/-- The fields of DEBUG.LOCK. -/
def fieldsDEBUG_LOCK : List FieldRow := [
  { lo := 0, w := 1, acc := .w1s, lockBit := true }]

/-- The fields of DEBUG.PSTAT. -/
def fieldsDEBUG_PSTAT : List FieldRow := [
  { lo := 31, w := 1, acc := .ro, live := true },
  { lo := 30, w := 1, acc := .ro, live := true },
  { lo := 29, w := 1, acc := .ro, live := true },
  { lo := 20, w := 4, acc := .ro, live := true },
  { lo := 16, w := 4, acc := .ro, live := true },
  { lo := 0, w := 12, acc := .ro, live := true }]

/-- The fields of DEBUG.COMPADDR. -/
def fieldsDEBUG_COMPADDR : List FieldRow := [
  { lo := 0, w := 32, acc := .ro }]

/-- The fields of DEBUG.COMPMASK. -/
def fieldsDEBUG_COMPMASK : List FieldRow := [
  { lo := 0, w := 32, acc := .ro }]

/-- The fields of DEBUG.COMPCTL. -/
def fieldsDEBUG_COMPCTL : List FieldRow := [
  { lo := 31, w := 1, acc := .ro },
  { lo := 8, w := 2, acc := .ro },
  { lo := 0, w := 8, acc := .ro }]

/-- The fields of POWER.STAT. -/
def fieldsPOWER_STAT : List FieldRow := [
  { lo := 7, w := 1, acc := .ro },
  { lo := 6, w := 1, acc := .ro },
  { lo := 5, w := 1, acc := .ro },
  { lo := 4, w := 1, acc := .ro, live := true },
  { lo := 3, w := 1, acc := .ro, live := true },
  { lo := 0, w := 2, acc := .ro, live := true }]

/-- The fields of POWER.PFCFG. -/
def fieldsPOWER_PFCFG : List FieldRow := [
  { lo := 0, w := 10, acc := .lck, rst := .value 200, norm := .clamped 0 1000 }]

/-- The fields of POWER.PFCNT. -/
def fieldsPOWER_PFCNT : List FieldRow := [
  { lo := 16, w := 16, acc := .rc, ret := true },
  { lo := 0, w := 16, acc := .rc, ret := true }]

/-- The fields of POWER.VIN. -/
def fieldsPOWER_VIN : List FieldRow := [
  { lo := 16, w := 16, acc := .ro, live := true },
  { lo := 0, w := 16, acc := .ro, live := true }]

/-- The fields of POWER.TEMP. -/
def fieldsPOWER_TEMP : List FieldRow := [
  { lo := 16, w := 16, acc := .ro, live := true },
  { lo := 0, w := 16, acc := .ro, live := true }]

/-- The fields of POWER.ISTAT. -/
def fieldsPOWER_ISTAT : List FieldRow := [
  { lo := 5, w := 1, acc := .w1c },
  { lo := 4, w := 1, acc := .w1c },
  { lo := 3, w := 1, acc := .w1c },
  { lo := 2, w := 1, acc := .w1c },
  { lo := 1, w := 1, acc := .w1c },
  { lo := 0, w := 1, acc := .w1c }]

/-- The fields of POWER.SUPCTL. -/
def fieldsPOWER_SUPCTL : List FieldRow := [
  { lo := 1, w := 1, acc := .wo },
  { lo := 0, w := 1, acc := .wo }]

/-- The fields of POWER.LOCK. -/
def fieldsPOWER_LOCK : List FieldRow := [
  { lo := 0, w := 1, acc := .w1s, lockBit := true }]

/-- The fields of POWER.IEN. -/
def fieldsPOWER_IEN : List FieldRow := [
  { lo := 0, w := 5, acc := .rw }]

/-- The fields of DMA.DONE. -/
def fieldsDMA_DONE : List FieldRow := [
  { lo := 0, w := 32, acc := .w1c }]

/-- The fields of DMA.ERR. -/
def fieldsDMA_ERR : List FieldRow := [
  { lo := 0, w := 32, acc := .w1c }]

/-- The fields of DMA.IEN. -/
def fieldsDMA_IEN : List FieldRow := [
  { lo := 0, w := 2, acc := .rw }]

/-- The fields of DMA.CHSRC. -/
def fieldsDMA_CHSRC : List FieldRow := [
  { lo := 0, w := 32, acc := .rw }]

/-- The fields of DMA.CHDST. -/
def fieldsDMA_CHDST : List FieldRow := [
  { lo := 0, w := 32, acc := .rw }]

/-- The fields of DMA.CHLEN. -/
def fieldsDMA_CHLEN : List FieldRow := [
  { lo := 0, w := 24, acc := .rw, norm := .align8 }]

/-- The fields of DMA.CHCFG. -/
def fieldsDMA_CHCFG : List FieldRow := [
  { lo := 31, w := 1, acc := .rw },
  { lo := 30, w := 1, acc := .rw },
  { lo := 29, w := 1, acc := .wo },
  { lo := 28, w := 1, acc := .rw },
  { lo := 27, w := 1, acc := .rw }]

/-- The fields of DMA.CHSTAT. -/
def fieldsDMA_CHSTAT : List FieldRow := [
  { lo := 31, w := 1, acc := .ro },
  { lo := 30, w := 1, acc := .w1c },
  { lo := 0, w := 16, acc := .ro }]

/-- The fields of a register, from its field table. -/
def Reg.fields : Reg → List FieldRow
  | .SYSCTL_STAT => fieldsSYSCTL_STAT
  | .SYSCTL_CMD => fieldsSYSCTL_CMD
  | .SYSCTL_CMDSTAT => fieldsSYSCTL_CMDSTAT
  | .SYSCTL_BOOTCFG => fieldsSYSCTL_BOOTCFG
  | .SYSCTL_BOOTSTAT => fieldsSYSCTL_BOOTSTAT
  | .SYSCTL_FOGREASON => fieldsSYSCTL_FOGREASON
  | .SYSCTL_MAP => fieldsSYSCTL_MAP
  | .SYSCTL_NEED => fieldsSYSCTL_NEED
  | .SYSCTL_WAKE => fieldsSYSCTL_WAKE
  | .SYSCTL_WAKESRC => fieldsSYSCTL_WAKESRC
  | .SYSCTL_REFUSED => fieldsSYSCTL_REFUSED
  | .SYSCTL_LOCK => fieldsSYSCTL_LOCK
  | .PAIRCTL_ROLE => fieldsPAIRCTL_ROLE
  | .PAIRCTL_SEGMAX => fieldsPAIRCTL_SEGMAX
  | .PAIRCTL_SEGEFF => fieldsPAIRCTL_SEGEFF
  | .PAIRCTL_SPARE => fieldsPAIRCTL_SPARE
  | .PAIRCTL_FSTAT => fieldsPAIRCTL_FSTAT
  | .PAIRCTL_CNT => fieldsPAIRCTL_CNT
  | .PAIRCTL_CKNUM => fieldsPAIRCTL_CKNUM
  | .PAIRCTL_LASTMM => fieldsPAIRCTL_LASTMM
  | .PAIRCTL_CERR => fieldsPAIRCTL_CERR
  | .PAIRCTL_CERRADDR => fieldsPAIRCTL_CERRADDR
  | .PAIRCTL_OCC => fieldsPAIRCTL_OCC
  | .PAIRCTL_CMPTEST => fieldsPAIRCTL_CMPTEST
  | .PAIRCTL_LOCK => fieldsPAIRCTL_LOCK
  | .INTC_CFG => fieldsINTC_CFG
  | .INTC_PEND => fieldsINTC_PEND
  | .INTC_LOST => fieldsINTC_LOST
  | .INTC_SWSET => fieldsINTC_SWSET
  | .INTC_ISAFEMAX => fieldsINTC_ISAFEMAX
  | .INTC_FSTAT => fieldsINTC_FSTAT
  | .INTC_LOCK => fieldsINTC_LOCK
  | .FABRIC_PRI => fieldsFABRIC_PRI
  | .FABRIC_ARB => fieldsFABRIC_ARB
  | .FABRIC_LOCKMAX => fieldsFABRIC_LOCKMAX
  | .FABRIC_ISTAT => fieldsFABRIC_ISTAT
  | .FABRIC_IEN => fieldsFABRIC_IEN
  | .FABRIC_LKBRK => fieldsFABRIC_LKBRK
  | .FABRIC_LKADDR => fieldsFABRIC_LKADDR
  | .FABRIC_URG => fieldsFABRIC_URG
  | .FABRIC_PROT => fieldsFABRIC_PROT
  | .FABRIC_LOCK => fieldsFABRIC_LOCK
  | .MPU_RBASE => fieldsMPU_RBASE
  | .MPU_RLIMIT => fieldsMPU_RLIMIT
  | .MPU_RATTR => fieldsMPU_RATTR
  | .MPU_CTL => fieldsMPU_CTL
  | .MPU_SYNC => fieldsMPU_SYNC
  | .MPU_ISTAT => fieldsMPU_ISTAT
  | .MPU_IEN => fieldsMPU_IEN
  | .MPU_OVL => fieldsMPU_OVL
  | .MPU_DENY => fieldsMPU_DENY
  | .MPU_DENYADDR => fieldsMPU_DENYADDR
  | .MPU_LOCK => fieldsMPU_LOCK
  | .MEMCTL_ISTAT => fieldsMEMCTL_ISTAT
  | .MEMCTL_IEN => fieldsMEMCTL_IEN
  | .MEMCTL_BUCKET => fieldsMEMCTL_BUCKET
  | .MEMCTL_SCRUB => fieldsMEMCTL_SCRUB
  | .MEMCTL_OVF => fieldsMEMCTL_OVF
  | .MEMCTL_UEINST => fieldsMEMCTL_UEINST
  | .MEMCTL_UEADDR => fieldsMEMCTL_UEADDR
  | .MEMCTL_COLL => fieldsMEMCTL_COLL
  | .MEMCTL_COLLADDR => fieldsMEMCTL_COLLADDR
  | .MEMCTL_ETCTL => fieldsMEMCTL_ETCTL
  | .MEMCTL_ETDXLO => fieldsMEMCTL_ETDXLO
  | .MEMCTL_ETDXHI => fieldsMEMCTL_ETDXHI
  | .MEMCTL_ETCHK => fieldsMEMCTL_ETCHK
  | .MEMCTL_ETSYN => fieldsMEMCTL_ETSYN
  | .MEMCTL_LOCK => fieldsMEMCTL_LOCK
  | .MEMCTL_INST => fieldsMEMCTL_INST
  | .EVTMX_ISTAT => fieldsEVTMX_ISTAT
  | .EVTMX_IEN => fieldsEVTMX_IEN
  | .EVTMX_LOOPREC => fieldsEVTMX_LOOPREC
  | .EVTMX_CHFLAG => fieldsEVTMX_CHFLAG
  | .EVTMX_LOCK => fieldsEVTMX_LOCK
  | .EVTMX_PEN => fieldsEVTMX_PEN
  | .EVTMX_CNT => fieldsEVTMX_CNT
  | .EVTMX_STAMPLO => fieldsEVTMX_STAMPLO
  | .EVTMX_STAMPHI => fieldsEVTMX_STAMPHI
  | .EVTMX_CEN0 => fieldsEVTMX_CEN0
  | .EVTMX_CEN1 => fieldsEVTMX_CEN1
  | .EVTMX_CSTAT => fieldsEVTMX_CSTAT
  | .EVTMX_CCNT => fieldsEVTMX_CCNT
  | .LANTERN_TIMELO => fieldsLANTERN_TIMELO
  | .LANTERN_TIMEHI => fieldsLANTERN_TIMEHI
  | .LANTERN_ISTAT => fieldsLANTERN_ISTAT
  | .LANTERN_IEN => fieldsLANTERN_IEN
  | .LANTERN_LOCK => fieldsLANTERN_LOCK
  | .LANTERN_TBCFG => fieldsLANTERN_TBCFG
  | .LANTERN_TBOFFSET => fieldsLANTERN_TBOFFSET
  | .LANTERN_TBHYST => fieldsLANTERN_TBHYST
  | .LANTERN_TBFREQ => fieldsLANTERN_TBFREQ
  | .LANTERN_TBMAINS => fieldsLANTERN_TBMAINS
  | .LANTERN_TBANGLE => fieldsLANTERN_TBANGLE
  | .LANTERN_TBSTAT => fieldsLANTERN_TBSTAT
  | .LANTERN_TBVEL => fieldsLANTERN_TBVEL
  | .LANTERN_TBANGREV => fieldsLANTERN_TBANGREV
  | .LANTERN_TBLPOSA => fieldsLANTERN_TBLPOSA
  | .LANTERN_TBLPOSR => fieldsLANTERN_TBLPOSR
  | .LANTERN_TBLTIMELO => fieldsLANTERN_TBLTIMELO
  | .LANTERN_TBLTIMEHI => fieldsLANTERN_TBLTIMEHI
  | .LANTERN_TBADJ => fieldsLANTERN_TBADJ
  | .LANTERN_GATE => fieldsLANTERN_GATE
  | .LANTERN_CMPCFG => fieldsLANTERN_CMPCFG
  | .LANTERN_CMPANGLE => fieldsLANTERN_CMPANGLE
  | .LANTERN_CMPPERIOD => fieldsLANTERN_CMPPERIOD
  | .LANTERN_CMPSTAMPLO => fieldsLANTERN_CMPSTAMPLO
  | .LANTERN_CMPSTAMPHI => fieldsLANTERN_CMPSTAMPHI
  | .LANTERN_CMPSTAMPPOS => fieldsLANTERN_CMPSTAMPPOS
  | .LANTERN_CMPSTAT => fieldsLANTERN_CMPSTAT
  | .PWM_SYNC => fieldsPWM_SYNC
  | .PWM_LOCK => fieldsPWM_LOCK
  | .PWM_CFG => fieldsPWM_CFG
  | .PWM_PERIOD => fieldsPWM_PERIOD
  | .PWM_PHASE => fieldsPWM_PHASE
  | .PWM_DT => fieldsPWM_DT
  | .PWM_CMPA => fieldsPWM_CMPA
  | .PWM_CMPB => fieldsPWM_CMPB
  | .PWM_SAFE => fieldsPWM_SAFE
  | .PWM_TRIPSRC0 => fieldsPWM_TRIPSRC0
  | .PWM_TRIPSRC1 => fieldsPWM_TRIPSRC1
  | .PWM_CTL => fieldsPWM_CTL
  | .PWM_STAT => fieldsPWM_STAT
  | .PWM_ISTAT => fieldsPWM_ISTAT
  | .PWM_IEN => fieldsPWM_IEN
  | .PWM_PIN => fieldsPWM_PIN
  | .SDF_SNAPMA0 => fieldsSDF_SNAPMA0
  | .SDF_SNAPMA1 => fieldsSDF_SNAPMA1
  | .SDF_SNAPMB0 => fieldsSDF_SNAPMB0
  | .SDF_SNAPMB1 => fieldsSDF_SNAPMB1
  | .SDF_SNAPTALO => fieldsSDF_SNAPTALO
  | .SDF_SNAPTAHI => fieldsSDF_SNAPTAHI
  | .SDF_SNAPTBLO => fieldsSDF_SNAPTBLO
  | .SDF_SNAPTBHI => fieldsSDF_SNAPTBHI
  | .SDF_LOCK => fieldsSDF_LOCK
  | .SDF_CFG => fieldsSDF_CFG
  | .SDF_FTHR => fieldsSDF_FTHR
  | .SDF_DATA => fieldsSDF_DATA
  | .SDF_FAST => fieldsSDF_FAST
  | .SDF_ISTAT => fieldsSDF_ISTAT
  | .SDF_IEN => fieldsSDF_IEN
  | .SDF_SNAPA => fieldsSDF_SNAPA
  | .SDF_SNAPB => fieldsSDF_SNAPB
  | .ADC_CFG => fieldsADC_CFG
  | .ADC_START => fieldsADC_START
  | .ADC_RES => fieldsADC_RES
  | .ADC_STAMPLO => fieldsADC_STAMPLO
  | .ADC_STAMPHI => fieldsADC_STAMPHI
  | .ADC_ISTAT => fieldsADC_ISTAT
  | .ADC_IEN => fieldsADC_IEN
  | .POSIF_CFG => fieldsPOSIF_CFG
  | .POSIF_RES => fieldsPOSIF_RES
  | .POSIF_ABZ => fieldsPOSIF_ABZ
  | .POSIF_SSI => fieldsPOSIF_SSI
  | .POSIF_SSITIM => fieldsPOSIF_SSITIM
  | .POSIF_POS => fieldsPOSIF_POS
  | .POSIF_REV => fieldsPOSIF_REV
  | .POSIF_COUNT => fieldsPOSIF_COUNT
  | .POSIF_ISTAT => fieldsPOSIF_ISTAT
  | .POSIF_IEN => fieldsPOSIF_IEN
  | .SAFEISL_STAT => fieldsSAFEISL_STAT
  | .SAFEISL_ISTAT => fieldsSAFEISL_ISTAT
  | .SAFEISL_IEN => fieldsSAFEISL_IEN
  | .SAFEISL_INTPAIRS => fieldsSAFEISL_INTPAIRS
  | .SAFEISL_SSTOP => fieldsSAFEISL_SSTOP
  | .SAFEISL_TIMELO => fieldsSAFEISL_TIMELO
  | .SAFEISL_TIMEHI => fieldsSAFEISL_TIMEHI
  | .SAFEISL_LOGHEAD => fieldsSAFEISL_LOGHEAD
  | .SAFEISL_CTL => fieldsSAFEISL_CTL
  | .SAFEISL_LOGREAD => fieldsSAFEISL_LOGREAD
  | .SAFEISL_LOCK => fieldsSAFEISL_LOCK
  | .SAFEISL_REACT => fieldsSAFEISL_REACT
  | .SAFEISL_LOGW0 => fieldsSAFEISL_LOGW0
  | .SAFEISL_LOGW1 => fieldsSAFEISL_LOGW1
  | .SAFEISL_LOGW2 => fieldsSAFEISL_LOGW2
  | .SAFEISL_LOGW3 => fieldsSAFEISL_LOGW3
  | .KEEPER_CFG => fieldsKEEPER_CFG
  | .KEEPER_WIN => fieldsKEEPER_WIN
  | .KEEPER_SVC => fieldsKEEPER_SVC
  | .KEEPER_STAT => fieldsKEEPER_STAT
  | .KEEPER_ISTAT => fieldsKEEPER_ISTAT
  | .KEEPER_KTIMELO => fieldsKEEPER_KTIMELO
  | .KEEPER_KTIMEHI => fieldsKEEPER_KTIMEHI
  | .KEEPER_LASTSVCLO => fieldsKEEPER_LASTSVCLO
  | .KEEPER_LASTSVCHI => fieldsKEEPER_LASTSVCHI
  | .KEEPER_LASTCHK => fieldsKEEPER_LASTCHK
  | .KEEPER_EVSTAT => fieldsKEEPER_EVSTAT
  | .KEEPER_EVTIMELO => fieldsKEEPER_EVTIMELO
  | .KEEPER_EVTIMEHI => fieldsKEEPER_EVTIMEHI
  | .KEEPER_PAUSE => fieldsKEEPER_PAUSE
  | .KEEPER_LOCK => fieldsKEEPER_LOCK
  | .KEEPER_TLO => fieldsKEEPER_TLO
  | .KEEPER_THI => fieldsKEEPER_THI
  | .KEEPER_EVPC => fieldsKEEPER_EVPC
  | .KEEPER_TASK => fieldsKEEPER_TASK
  | .ETH_ADDR => fieldsETH_ADDR
  | .ETH_STCFG => fieldsETH_STCFG
  | .ETH_VLAN => fieldsETH_VLAN
  | .ETH_ISTAT => fieldsETH_ISTAT
  | .ETH_IEN => fieldsETH_IEN
  | .ETH_DROP => fieldsETH_DROP
  | .ETH_DROP2 => fieldsETH_DROP2
  | .ETH_SWAGE => fieldsETH_SWAGE
  | .ETH_LOCK => fieldsETH_LOCK
  | .ETH_PORTCFG => fieldsETH_PORTCFG
  | .ETH_PORTSTAT => fieldsETH_PORTSTAT
  | .ETH_PORTCNT => fieldsETH_PORTCNT
  | .ETH_PORTISTAT => fieldsETH_PORTISTAT
  | .ETH_PORTIEN => fieldsETH_PORTIEN
  | .ETH_GPTPCFG => fieldsETH_GPTPCFG
  | .ETH_GPTPSTAT => fieldsETH_GPTPSTAT
  | .ETH_GPTPSGTLO => fieldsETH_GPTPSGTLO
  | .ETH_GPTPSGTHI => fieldsETH_GPTPSGTHI
  | .ETH_GPTPSLTLO => fieldsETH_GPTPSLTLO
  | .ETH_GPTPSLTHI => fieldsETH_GPTPSLTHI
  | .ETH_PEERCFG => fieldsETH_PEERCFG
  | .ETH_PEERHLO => fieldsETH_PEERHLO
  | .ETH_PEERHHI => fieldsETH_PEERHHI
  | .ETH_TXRBASE => fieldsETH_TXRBASE
  | .ETH_TXRCFG => fieldsETH_TXRCFG
  | .ETH_TXRHEAD => fieldsETH_TXRHEAD
  | .ETH_TXRTAIL => fieldsETH_TXRTAIL
  | .ETH_RXRBASE => fieldsETH_RXRBASE
  | .ETH_RXRCFG => fieldsETH_RXRCFG
  | .ETH_RXRHEAD => fieldsETH_RXRHEAD
  | .ETH_RXRTAIL => fieldsETH_RXRTAIL
  | .CANXL_CFG => fieldsCANXL_CFG
  | .CANXL_NBT => fieldsCANXL_NBT
  | .CANXL_DBT => fieldsCANXL_DBT
  | .CANXL_XCFG => fieldsCANXL_XCFG
  | .CANXL_CTL => fieldsCANXL_CTL
  | .CANXL_STAT => fieldsCANXL_STAT
  | .CANXL_ISTAT => fieldsCANXL_ISTAT
  | .CANXL_IEN => fieldsCANXL_IEN
  | .CANXL_TXBASE => fieldsCANXL_TXBASE
  | .CANXL_TXCFG => fieldsCANXL_TXCFG
  | .CANXL_TXHEAD => fieldsCANXL_TXHEAD
  | .CANXL_TXTAIL => fieldsCANXL_TXTAIL
  | .CANXL_RXBASE => fieldsCANXL_RXBASE
  | .CANXL_RXCFG => fieldsCANXL_RXCFG
  | .CANXL_RXHEAD => fieldsCANXL_RXHEAD
  | .CANXL_RXTAIL => fieldsCANXL_RXTAIL
  | .CANXL_FLTID => fieldsCANXL_FLTID
  | .CANXL_FLTMASK => fieldsCANXL_FLTMASK
  | .CANXL_FLT2ID => fieldsCANXL_FLT2ID
  | .CANXL_FLT2MASK => fieldsCANXL_FLT2MASK
  | .BUOY_LOCK => fieldsBUOY_LOCK
  | .BUOY_CFG => fieldsBUOY_CFG
  | .BUOY_CTL => fieldsBUOY_CTL
  | .BUOY_STAT => fieldsBUOY_STAT
  | .BUOY_RLAT => fieldsBUOY_RLAT
  | .BUOY_ENUMBUF => fieldsBUOY_ENUMBUF
  | .BUOY_ISTAT => fieldsBUOY_ISTAT
  | .BUOY_IEN => fieldsBUOY_IEN
  | .BUOY_CNT => fieldsBUOY_CNT
  | .BUOY_LAST => fieldsBUOY_LAST
  | .BUOY_LISTBASE => fieldsBUOY_LISTBASE
  | .BUOY_LISTCNT => fieldsBUOY_LISTCNT
  | .BUOY_T => fieldsBUOY_T
  | .TRUST_STAT => fieldsTRUST_STAT
  | .TRUST_DEVUIDLO => fieldsTRUST_DEVUIDLO
  | .TRUST_DEVUIDHI => fieldsTRUST_DEVUIDHI
  | .TRUST_ARB => fieldsTRUST_ARB
  | .TRUST_FUSEARB => fieldsTRUST_FUSEARB
  | .TRUST_ATTNEXTLO => fieldsTRUST_ATTNEXTLO
  | .TRUST_ATTNEXTHI => fieldsTRUST_ATTNEXTHI
  | .TRUST_CTRLO => fieldsTRUST_CTRLO
  | .TRUST_CTRHI => fieldsTRUST_CTRHI
  | .TRUST_LASTCMD => fieldsTRUST_LASTCMD
  | .TRUST_ISTAT => fieldsTRUST_ISTAT
  | .TRUST_IEN => fieldsTRUST_IEN
  | .TRUST_SIGCNT => fieldsTRUST_SIGCNT
  | .TRUST_ATTPK => fieldsTRUST_ATTPK
  | .NVS_STAT => fieldsNVS_STAT
  | .NVS_SEALLO => fieldsNVS_SEALLO
  | .NVS_SEALHI => fieldsNVS_SEALHI
  | .NVS_CFG => fieldsNVS_CFG
  | .NVS_APPEND => fieldsNVS_APPEND
  | .NVS_APSTAT => fieldsNVS_APSTAT
  | .NVS_JSTAT => fieldsNVS_JSTAT
  | .NVS_SLOTCTL => fieldsNVS_SLOTCTL
  | .NVS_SRC => fieldsNVS_SRC
  | .NVS_OFF => fieldsNVS_OFF
  | .NVS_LEN => fieldsNVS_LEN
  | .NVS_SLOTSTAT => fieldsNVS_SLOTSTAT
  | .NVS_WEAR => fieldsNVS_WEAR
  | .NVS_ISTAT => fieldsNVS_ISTAT
  | .NVS_IEN => fieldsNVS_IEN
  | .NVS_LOCK => fieldsNVS_LOCK
  | .TEST_BISTCTL => fieldsTEST_BISTCTL
  | .TEST_BISTCFG => fieldsTEST_BISTCFG
  | .TEST_BISTSTAT => fieldsTEST_BISTSTAT
  | .TEST_WCFG => fieldsTEST_WCFG
  | .TEST_WSTAT => fieldsTEST_WSTAT
  | .TEST_WFAIL => fieldsTEST_WFAIL
  | .TEST_ISTAT => fieldsTEST_ISTAT
  | .TEST_IEN => fieldsTEST_IEN
  | .TEST_LOCK => fieldsTEST_LOCK
  | .TEST_OFFER => fieldsTEST_OFFER
  | .TEST_BISTRESLO => fieldsTEST_BISTRESLO
  | .TEST_BISTRESHI => fieldsTEST_BISTRESHI
  | .AGEING_STAT => fieldsAGEING_STAT
  | .AGEING_CFG => fieldsAGEING_CFG
  | .AGEING_SHORT => fieldsAGEING_SHORT
  | .AGEING_ISTAT => fieldsAGEING_ISTAT
  | .AGEING_IEN => fieldsAGEING_IEN
  | .AGEING_LOCK => fieldsAGEING_LOCK
  | .AGEING_NEED => fieldsAGEING_NEED
  | .AGEING_PAIR => fieldsAGEING_PAIR
  | .DEBUG_STAT => fieldsDEBUG_STAT
  | .DEBUG_CFG => fieldsDEBUG_CFG
  | .DEBUG_ISTAT => fieldsDEBUG_ISTAT
  | .DEBUG_IEN => fieldsDEBUG_IEN
  | .DEBUG_CNT => fieldsDEBUG_CNT
  | .DEBUG_RSTCNT => fieldsDEBUG_RSTCNT
  | .DEBUG_LOCK => fieldsDEBUG_LOCK
  | .DEBUG_PSTAT => fieldsDEBUG_PSTAT
  | .DEBUG_COMPADDR => fieldsDEBUG_COMPADDR
  | .DEBUG_COMPMASK => fieldsDEBUG_COMPMASK
  | .DEBUG_COMPCTL => fieldsDEBUG_COMPCTL
  | .POWER_STAT => fieldsPOWER_STAT
  | .POWER_PFCFG => fieldsPOWER_PFCFG
  | .POWER_PFCNT => fieldsPOWER_PFCNT
  | .POWER_VIN => fieldsPOWER_VIN
  | .POWER_TEMP => fieldsPOWER_TEMP
  | .POWER_ISTAT => fieldsPOWER_ISTAT
  | .POWER_SUPCTL => fieldsPOWER_SUPCTL
  | .POWER_LOCK => fieldsPOWER_LOCK
  | .POWER_IEN => fieldsPOWER_IEN
  | .DMA_DONE => fieldsDMA_DONE
  | .DMA_ERR => fieldsDMA_ERR
  | .DMA_IEN => fieldsDMA_IEN
  | .DMA_CHSRC => fieldsDMA_CHSRC
  | .DMA_CHDST => fieldsDMA_CHDST
  | .DMA_CHLEN => fieldsDMA_CHLEN
  | .DMA_CHCFG => fieldsDMA_CHCFG
  | .DMA_CHSTAT => fieldsDMA_CHSTAT

/-- The registers whose read has an effect of its own (MPU.SYNC, R366). -/
def Reg.readActs : Reg → Bool
  | .MPU_SYNC => true
  | _ => false

/-- One 64 KiB block of I/O space (R28): its registers, and the offset of its LOCK register where it has one
(one for each pair in PAIRCTL and INTC). -/
structure IoBlock where
  rows : List (Nat × List (Nat × Nat) × Reg)
  lock : Option Nat
  perPair : Bool
deriving DecidableEq, Repr

/-- Block `b` of I/O space, at base `b * 0x10000` (the R28 table). -/
def ioBlock : Nat → Option IoBlock
  | 0 => some { rows := rowsSYSCTL, lock := some 0x3C, perPair := false }
  | 1 => some { rows := rowsPAIRCTL, lock := some 0x3C, perPair := true }
  | 2 => some { rows := rowsINTC, lock := some 0x44C, perPair := true }
  | 3 => some { rows := rowsFABRIC, lock := some 0xBC, perPair := false }
  | 4 => some { rows := rowsMPU, lock := some 0x211C, perPair := false }
  | 5 => some { rows := rowsMEMCTL, lock := some 0x7C, perPair := false }
  | 6 => some { rows := rowsEVTMX, lock := some 0x3C, perPair := false }
  | 7 => some { rows := rowsLANTERN, lock := some 0x1C, perPair := false }
  | 8 => some { rows := rowsPWM, lock := some 0x1C, perPair := false }
  | 9 => some { rows := rowsSDF, lock := some 0x3C, perPair := false }
  | 10 => some { rows := rowsADC, lock := none, perPair := false }
  | 11 => some { rows := rowsPOSIF, lock := none, perPair := false }
  | 12 => some { rows := rowsSAFEISL, lock := some 0x3C, perPair := false }
  | 13 => some { rows := rowsKEEPER, lock := some 0x3C, perPair := false }
  | 14 => some { rows := rowsETH, lock := some 0x3C, perPair := false }
  | 15 => some { rows := rowsCANXL, lock := none, perPair := false }
  | 16 => some { rows := rowsBUOY, lock := some 0x3C, perPair := false }
  | 17 => some { rows := rowsTRUST, lock := none, perPair := false }
  | 18 => some { rows := rowsNVS, lock := some 0x7C, perPair := false }
  | 19 => some { rows := rowsTEST, lock := some 0x3C, perPair := false }
  | 20 => some { rows := rowsAGEING, lock := some 0x3C, perPair := false }
  | 21 => some { rows := rowsDEBUG, lock := some 0x3C, perPair := false }
  | 22 => some { rows := rowsPOWER, lock := some 0x1C, perPair := false }
  | 23 => some { rows := rowsDMA, lock := none, perPair := false }
  | _ => none

end Sys2Proof.Machine
end

