-- ==== Sys2Proof/Machine/Table.lean ====
section
/-! DEFINITION. Table.lean: sparse tables, the one shape of every memory, register map and array of the state.
A table is a list of key and value pairs with strictly rising keys. `mapGet` reads a key through a default, and
`mapSet` keeps the canonical form in which no entry equals its default, so equal contents are equal data. -/

namespace Sys2Proof.Machine

/-- The entry of a key, if the table lists it. -/
def mapFind {β : Type} : List (Nat × β) → Nat → Option β
  | [], _ => none
  | (j, v) :: t, k => if j = k then some v else mapFind t k

/-- The table with `k` listed at `v`, the keys kept rising. -/
def mapPut {β : Type} : List (Nat × β) → Nat → β → List (Nat × β)
  | [], k, v => [(k, v)]
  | (j, w) :: t, k, v =>
    if j = k then (k, v) :: t
    else if k < j then (k, v) :: (j, w) :: t
    else (j, w) :: mapPut t k v

/-- The table with `k` not listed. -/
def mapDel {β : Type} : List (Nat × β) → Nat → List (Nat × β)
  | [], _ => []
  | (j, w) :: t, k => if j = k then mapDel t k else (j, w) :: mapDel t k

/-- What key `k` reads as: its entry, or the default for `k`. -/
def mapGet {β : Type} (dflt : Nat → β) (m : List (Nat × β)) (k : Nat) : β :=
  match mapFind m k with
  | some v => v
  | none => dflt k

/-- The table with `k` reading as `v`: an entry equal to its default is not listed. -/
def mapSet {β : Type} [DecidableEq β] (dflt : Nat → β) (m : List (Nat × β)) (k : Nat) (v : β) :
    List (Nat × β) :=
  if v = dflt k then mapDel m k else mapPut m k v

/-- Keys strictly rising from `lo`. -/
def mapRising {β : Type} : Nat → List (Nat × β) → Bool
  | _, [] => true
  | lo, (j, _) :: t => decide (lo ≤ j) && mapRising (j + 1) t

/-- The canonical form: keys strictly rising and no entry equal to its default. -/
def mapWf {β : Type} [DecidableEq β] (dflt : Nat → β) (m : List (Nat × β)) : Bool :=
  mapRising 0 m && m.all (fun e => decide (e.2 ≠ dflt e.1))

/-- The entries of a table whose keys satisfy `p`. -/
def mapKeep {β : Type} (p : Nat → Bool) (m : List (Nat × β)) : List (Nat × β) :=
  m.filter (fun e => p e.1)

/-- Entry `k` of an array held as a table with one default for every index. -/
def arrGet {β : Type} (dflt : β) (m : List (Nat × β)) (k : Nat) : β := mapGet (fun _ => dflt) m k

/-- The array with entry `k` at `v`. -/
def arrSet {β : Type} [DecidableEq β] (dflt : β) (m : List (Nat × β)) (k : Nat) (v : β) : List (Nat × β) :=
  mapSet (fun _ => dflt) m k v

/-- Entry `i` of a list, or the default past its end. -/
def nth {β : Type} (dflt : β) : List β → Nat → β
  | [], _ => dflt
  | x :: _, 0 => x
  | _ :: t, i + 1 => nth dflt t i

/-- The list with entry `i` replaced by `v`; a list without entry `i` is unchanged. -/
def setNth {β : Type} : List β → Nat → β → List β
  | [], _, _ => []
  | _ :: t, 0, v => v :: t
  | x :: t, i + 1, v => x :: setNth t i v

/-- A sorted list of numbers without its repeats. -/
def uniq : List Nat → List Nat
  | [] => []
  | [x] => [x]
  | x :: y :: t => if x = y then uniq (y :: t) else x :: uniq (y :: t)

/-- The first index at which `p` holds. -/
def findIdxOf {β : Type} (p : β → Bool) : List β → Option Nat
  | [] => none
  | x :: t => if p x then some 0 else (findIdxOf p t).map (· + 1)

end Sys2Proof.Machine
end

