-- ==== Sys2Proof/Machine/IoMap.lean ====
section
/-! DEFINITION. IoMap.lean: the I/O registers as one sparse map from I/O address to 32-bit word (R11, R28), read and
written field by field as the access codes lay down (R12 to R17, R569). -/

namespace Sys2Proof.Machine

/-- The stored I/O registers: address and word, in canonical form over `regReset`. -/
abbrev IoMap := List (Nat × Word)

/-- The indices of an offset from a register's first address, one for each repetition; `none` where the offset is no
repetition of the register. -/
def dimIndex : Nat → List (Nat × Nat) → Option (List Nat)
  | rel, [] => if rel = 0 then some [] else none
  | rel, (stride, count) :: t =>
    if rel / stride < count then
      match dimIndex (rel % stride) t with
      | some l => some (rel / stride :: l)
      | none => none
    else none

/-- The register of a block at an offset, with its indices. -/
def rowAt : List (Nat × List (Nat × Nat) × Reg) → Nat → Option (Reg × List Nat)
  | [], _ => none
  | (o, dims, r) :: t, off =>
    if o ≤ off then
      match dimIndex (off - o) dims with
      | some l => some (r, l)
      | none => rowAt t off
    else rowAt t off

/-- The register at an I/O address with its indices, `none` where no register is defined (R28). -/
def regAt (addr : Nat) : Option (Reg × List Nat) :=
  match ioBlock (addr / 0x10000) with
  | some b => rowAt b.rows (addr % 0x10000)
  | none => none

/-- The reset value of a field of a register whose first index is `i`. -/
def FieldRow.resetAt (f : FieldRow) (i : Nat) : Nat :=
  match f.rst with
  | .value n => n
  | .index => i
  | .reaction => (faultRow i).react

/-- The word with each listed field at the value `v` gives it; other bits are reserved and zero (R12). -/
def wordOf (v : FieldRow → Nat) : List FieldRow → Nat
  | [] => 0
  | f :: t => ((v f % 2 ^ f.w) <<< f.lo) ||| wordOf v t

/-- The reset value of the register at an address (R13): zero where none is defined. -/
def regReset (addr : Nat) : Word :=
  match regAt addr with
  | some (r, l) => BitVec.ofNat 32 (wordOf (fun f => f.resetAt (nth 0 l 0)) r.fields)
  | none => 0

/-- The stored word of the register at an address. -/
def ioGet (m : IoMap) (a : Nat) : Word := mapGet regReset m a

/-- The map with the register at an address holding `w`. -/
def ioSet (m : IoMap) (a : Nat) (w : Word) : IoMap := mapSet regReset m a w

/-- A field of a word. -/
def fieldOf (x : Word) (lo w : Nat) : Nat := (x.toNat >>> lo) % 2 ^ w

/-- The word with a field at `v`, its other bits unchanged. -/
def withField (x : Word) (lo w v : Nat) : Word :=
  let mask := BitVec.ofNat 32 ((2 ^ w - 1) <<< lo)
  (x &&& ~~~mask) ||| BitVec.ofNat 32 ((v % 2 ^ w) <<< lo)

/-- The value of a field in the map. -/
def ioFld (m : IoMap) (f : Fld) : Nat := fieldOf (ioGet m f.addr) f.lo f.w

/-- The map with a field at `v` (cut to the field's width). -/
def ioSetFld (m : IoMap) (f : Fld) (v : Nat) : IoMap :=
  ioSet m f.addr (withField (ioGet m f.addr) f.lo f.w v)

/-- The address of the LOCK register that governs the register at `addr`, where its block has one. -/
def lockAddr (addr : Nat) : Option Nat :=
  match ioBlock (addr / 0x10000) with
  | some b =>
    match b.lock with
    | some o =>
      if b.perPair then some (addr / 0x1000 * 0x1000 + o) else some (addr / 0x10000 * 0x10000 + o)
    | none => none
  | none => none

/-- The block of the register at `addr` is locked: its LOCK bit is 1 (R14, R569). -/
def ioLocked (m : IoMap) (addr : Nat) : Bool :=
  match lockAddr addr with
  | some a => (ioGet m a).toNat.testBit 0
  | none => false

/-- What a field becomes when `v` is written over `old` (the table of R14). -/
def FieldRow.written (f : FieldRow) (locked : Bool) (old v : Nat) : Nat :=
  match f.acc with
  | .rw => f.norm.apply old v
  | .lck => if locked then old else f.norm.apply old v
  | .w1c => old &&& notW f.w v
  | .w1s => old ||| v
  | .tgl => if v = notW f.w old then v else old
  | .ro | .wo | .rc => old

/-- The register word after a write of `x` over `old`: every field changes at once (R17). -/
def regWritten (fields : List FieldRow) (locked : Bool) (old x : Word) : Word :=
  BitVec.ofNat 32 (wordOf (fun f =>
    f.written locked (fieldOf old f.lo f.w) (fieldOf x f.lo f.w)) fields)

/-- The word left behind by a read: each RC field cleared (R14). -/
def regAfterRead (fields : List FieldRow) (old : Word) : Word :=
  BitVec.ofNat 32 (wordOf (fun f =>
    match f.acc with
    | .rc => 0
    | _ => fieldOf old f.lo f.w) fields)

/-- The map after a write of `x` to the register `r` at `a`, its fields changing as their access codes lay down. -/
def ioWriteReg (m : IoMap) (r : Reg) (a : Nat) (x : Word) : IoMap :=
  ioSet m a (regWritten r.fields (ioLocked m a) (ioGet m a) x)

/-- A field keeps its value through a device reset (R13, R569). -/
def FieldRow.keeps (f : FieldRow) (locked : Bool) : Bool :=
  f.ret || f.lockBit || (f.acc == .lck && locked)

/-- The stored word of one register after a device reset (R13, R569). -/
def regAfterReset (m : IoMap) (a : Nat) : Word :=
  match regAt a with
  | some (r, l) =>
    BitVec.ofNat 32 (wordOf (fun f =>
      if f.keeps (ioLocked m a) then fieldOf (ioGet m a) f.lo f.w
      else f.resetAt (nth 0 l 0)) r.fields)
  | none => 0

/-- The map after a device reset: every register as `regAfterReset` leaves it. -/
def ioReset (m : IoMap) : IoMap :=
  m.filterMap (fun e =>
    if regAfterReset m e.1 = regReset e.1 then none else some (e.1, regAfterReset m e.1))

end Sys2Proof.Machine
end

