-- ==== Sys2Proof/Machine/Codes.lean ====
section
/-! DEFINITION. Codes.lean: the device's codes: the SECDED check code of the memories (R319, R320), the cyclic checks
(R159, R234, R464) and Keccak-f[1600] with SHAKE256 (R159, R513). -/

namespace Sys2Proof.Machine

/-! ### The check code (R319) -/

/-- The 8-bit values of a given weight, rising. -/
def weightList (w : Nat) : List Nat := (List.range 256).filter (fun x => popCount x 8 = w)

/-- The columns of data bits 0 to 63. -/
def dataCols : List Nat := weightList 3 ++ (weightList 5).take 8

/-- The columns of word-index bits 0 to 16. -/
def indexCols : List Nat := (weightList 2).take 17

/-- The parity sum of the columns of the 1 bits of `x`, from bit `i` on. -/
def colSum (x : Nat) : List Nat → Nat → Nat
  | [], _ => 0
  | c :: t, i => (if x.testBit i then c else 0) ^^^ colSum x t (i + 1)

/-- The check bits of a data word at a word index. -/
def eccCheck (data : Nat) (index : Nat) : Nat := colSum data dataCols 0 ^^^ colSum index indexCols 0

/-- What a read finds (R320). -/
inductive EccKind where
  | clean
  | dataBit (j : Nat)
  | checkBit
  | uncorrectable
deriving DecidableEq, Repr

/-- The meaning of a syndrome (the table of R320). -/
def eccKind (syn : Nat) : EccKind :=
  if syn = 0 then .clean
  else
    match findIdxOf (fun c => c = syn) dataCols with
    | some j => .dataBit j
    | none => if popCount syn 8 = 1 then .checkBit else .uncorrectable

/-! ### Cyclic checks -/

/-- One bit of a reflected CRC. -/
def crcBit (poly c : Nat) : Nat := if c % 2 = 1 then (c / 2) ^^^ poly else c / 2

/-- One byte of a reflected CRC. -/
def crcByte (poly c b : Nat) : Nat :=
  let x := c ^^^ b
  crcBit poly (crcBit poly (crcBit poly (crcBit poly (crcBit poly (crcBit poly (crcBit poly (crcBit poly x)))))))

/-- A reflected CRC over bytes, from a running value. -/
def crcBytes (poly c : Nat) (l : List Nat) : Nat := l.foldl (crcByte poly) c

/-- The polynomials of R159. -/
def polyC : Nat := 0x82F63B78
def poly32 : Nat := 0xEDB88320

/-- CRC-32C of a byte string with initial value and final complement (R464). -/
def crc32c (l : List Byte) : Nat := notW 32 (crcBytes polyC 0xFFFFFFFF (l.map BitVec.toNat))

/-- One bit of CRC-64 of ECMA-182, most significant bit first (R234). -/
def crc64Bit (c : Nat) : Nat :=
  if c ≥ 2 ^ 63 then ((c * 2) % 2 ^ 64) ^^^ 0x42F0E1EBA9EA3693 else c * 2

/-- One byte of CRC-64. -/
def crc64Byte (c b : Nat) : Nat :=
  let x := c ^^^ (b * 2 ^ 56)
  crc64Bit (crc64Bit (crc64Bit (crc64Bit (crc64Bit (crc64Bit (crc64Bit (crc64Bit x)))))))

/-- The signature term of item `i` with value `v`: crc64(le64(i) ‖ le64(v)) (R234). -/
def sigTerm (i v : Nat) : Nat :=
  ((leBytes 8 i ++ leBytes 8 v).map BitVec.toNat).foldl crc64Byte 0

/-! ### Keccak-f[1600] -/

/-- A 64-bit rotation to the left. -/
def rotl64 (x n : Nat) : Nat := ((x <<< (n % 64)) ||| (x >>> (64 - n % 64))) % 2 ^ 64

/-- The lanes that ρ walks through from lane `i` on: from (x, y) to (y, 2x + 3y). -/
def rhoWalk : Nat → Nat → List Nat
  | 0, _ => []
  | n + 1, i => i :: rhoWalk n (i / 5 + 5 * ((2 * (i % 5) + 3 * (i / 5)) % 5))

/-- The rotation of a lane under ρ: the t-th lane of the walk from (1, 0), counted from 0, turns by (t + 1)(t + 2) / 2;
lane 0 keeps its place. -/
def keccakRho (i : Nat) : Nat :=
  match findIdxOf (fun j => j = i) (rhoWalk 24 1) with
  | some t => (t + 1) * (t + 2) / 2 % 64
  | none => 0

/-- The rotations of all lanes. -/
def rhoTable : List Nat := (List.range 25).map keccakRho

/-- The next state of the shift register of ι, of polynomial x⁸ + x⁶ + x⁵ + x⁴ + 1. -/
def iotaNext (r : Nat) : Nat := if 128 ≤ r then (2 * r) ^^^ 0x171 else 2 * r

/-- One round's constant from the register's state: seven of its output bits, the j-th at bit 2^j - 1. With it, the state
from which the next round goes on. -/
def iotaBits : Nat → Nat → Nat → Nat × Nat
  | 0, _, r => (0, r)
  | n + 1, j, r =>
    let (v, r') := iotaBits n (j + 1) (iotaNext r)
    (v + r % 2 * 2 ^ (2 ^ j - 1), r')

/-- The constants of `n` rounds. -/
def iotaList : Nat → Nat → List Nat
  | 0, _ => []
  | n + 1, r => (iotaBits 7 0 r).1 :: iotaList n (iotaBits 7 0 r).2

/-- The constants of the 24 rounds. -/
def iotaConsts : List Nat := iotaList 24 1

/-- One round on the 25 lanes, lane x + 5y. -/
def keccakRound (a : List Nat) (rc : Nat) : List Nat :=
  let g (l : List Nat) (i : Nat) := nth 0 l i
  let c := (List.range 5).map (fun x => g a x ^^^ g a (x + 5) ^^^ g a (x + 10) ^^^ g a (x + 15) ^^^ g a (x + 20))
  let d := (List.range 5).map (fun x => g c ((x + 4) % 5) ^^^ rotl64 (g c ((x + 1) % 5)) 1)
  let e := (List.range 25).map (fun i => rotl64 (g a i ^^^ g d (i % 5)) (g rhoTable i))
  -- π: lane (x, y) of the result comes from (x + 3y, x)
  let b := (List.range 25).map (fun i => g e ((i % 5 + 3 * (i / 5)) % 5 + 5 * (i % 5)))
  (List.range 25).map (fun i =>
    let row := 5 * (i / 5)
    let chi := g b i ^^^ (notW 64 (g b (row + (i + 1) % 5)) &&& g b (row + (i + 2) % 5))
    if i = 0 then chi ^^^ rc else chi)

/-- Keccak-f[1600], 24 rounds, on 25 lanes. -/
def keccakF (a : List Nat) : List Nat := iotaConsts.foldl keccakRound a

/-- The 25 lanes of 200 bytes, little-endian. -/
def lanesOf (bytes : List Byte) : List Nat :=
  (List.range 25).map (fun i => leNat ((bytes.drop (8 * i)).take 8))

/-- The 200 bytes of 25 lanes. -/
def bytesOfLanes (l : List Nat) : List Byte := l.flatMap (leBytes 8)

/-- The lanes with a block of bytes XORed into the first of them. -/
def absorb (lanes : List Nat) (block : List Byte) : List Nat :=
  let b := lanesOf block
  (List.range 25).map (fun i => nth 0 lanes i ^^^ nth 0 b i)

/-- Absorbing whole SHAKE256 blocks of 136 bytes; `n` bounds their number. -/
def absorbAll (n : Nat) (lanes : List Nat) (msg : List Byte) : List Nat :=
  match n with
  | 0 => lanes
  | m + 1 =>
    match msg with
    | [] => lanes
    | _ => absorbAll m (keccakF (absorb lanes (msg.take 136))) (msg.drop 136)

/-- The message with SHAKE's suffix and padding to whole blocks. -/
def shakePad (msg : List Byte) : List Byte :=
  let r := msg.length % 136
  if r = 135 then msg ++ [0x9F]
  else msg ++ [0x1F] ++ List.replicate (134 - r) 0 ++ [0x80]

/-- Squeezing `n` blocks. -/
def squeeze : Nat → List Nat → List Byte
  | 0, _ => []
  | n + 1, lanes => (bytesOfLanes lanes).take 136 ++ squeeze n (keccakF lanes)

/-- The first `n` bytes of SHAKE256. -/
def shake256 (msg : List Byte) (n : Nat) : List Byte :=
  let p := shakePad msg
  let lanes := absorbAll (p.length / 136) (List.replicate 25 0) p
  (squeeze ((n + 135) / 136) lanes).take n

end Sys2Proof.Machine
end

