-- ==== Sys2Proof/Machine/Fp.lean ====
section
/-! DEFINITION. Fp.lean: IEEE 754-2019 binary32 and binary64 as R92 asks of them: exact results rounded once in the mode
of PSW.FPRM, subnormals in full, tininess after rounding, default results, canonical NaNs, and the flags raised. -/

namespace Sys2Proof.Machine

/-- A binary format: exponent bits and stored significand bits. -/
structure FpFmt where
  eb : Nat
  mb : Nat
deriving DecidableEq, Repr

/-- fp32 (R90). -/
def fp32 : FpFmt := ⟨8, 23⟩
/-- fp64 (R90). -/
def fp64 : FpFmt := ⟨11, 52⟩

/-- The rounding modes of PSW.FPRM (R86). -/
inductive Rm where
  | nearestEven | zero | up | down
deriving DecidableEq, Repr

/-- The mode that a value of FPRM names. -/
def Rm.ofCode (n : Nat) : Rm :=
  if n = 0 then .nearestEven else if n = 1 then .zero else if n = 2 then .up else .down

/-- A decoded operand. A finite value is `m * 2 ^ e` with its sign. -/
inductive FpVal where
  | nan (signalling : Bool)
  | inf (neg : Bool)
  | fin (neg : Bool) (m : Nat) (e : Int)
deriving DecidableEq, Repr

/-! The flags, as masks at their PSW places (R86). -/

def flagInx : Nat := 2 ^ 5
def flagUnf : Nat := 2 ^ 6
def flagOvf : Nat := 2 ^ 7
def flagDz : Nat := 2 ^ 8
def flagInv : Nat := 2 ^ 9
def flagSat : Nat := 2 ^ 10
def flagTagEarly : Nat := 2 ^ 11

/-- The exponent bias of a format. -/
def FpFmt.bias (f : FpFmt) : Nat := 2 ^ (f.eb - 1) - 1
/-- The exponent of the least significant bit of a subnormal. -/
def FpFmt.emin (f : FpFmt) : Int := 1 - (f.bias : Int) - (f.mb : Int)
/-- The all-ones exponent field. -/
def FpFmt.emaxField (f : FpFmt) : Nat := 2 ^ f.eb - 1

/-- The canonical quiet NaN (R92). -/
def FpFmt.qnan (f : FpFmt) : Nat := f.emaxField * 2 ^ f.mb + 2 ^ (f.mb - 1)
/-- Infinity of a sign. -/
def FpFmt.inf (f : FpFmt) (neg : Bool) : Nat :=
  (if neg then 2 ^ (f.eb + f.mb) else 0) + f.emaxField * 2 ^ f.mb
/-- Zero of a sign. -/
def FpFmt.zero (f : FpFmt) (neg : Bool) : Nat := if neg then 2 ^ (f.eb + f.mb) else 0
/-- The largest finite value of a sign. -/
def FpFmt.maxFin (f : FpFmt) (neg : Bool) : Nat := f.inf neg - 1

/-- The value that a bit pattern holds. -/
def FpFmt.decode (f : FpFmt) (x : Nat) : FpVal :=
  let neg := x.testBit (f.eb + f.mb)
  let e := bitsOf x f.mb f.eb
  let m := x % 2 ^ f.mb
  if e = f.emaxField then
    if m = 0 then .inf neg else .nan (!(m.testBit (f.mb - 1)))
  else if e = 0 then .fin neg m f.emin
  else .fin neg (m + 2 ^ f.mb) (f.emin + (e : Int) - 1)

/-- A number shifted right by `n`, and whether any 1 was lost. -/
def shrSticky (m n : Nat) : Nat × Bool := (m >>> n, decide (m % 2 ^ n ≠ 0))

/-- Whether a magnitude whose kept part is `q` is rounded away from zero: `half` compares the discarded part with one
half (0 below, 1 equal, 2 above), `inexact` says that it is not zero. -/
def roundUp (rm : Rm) (neg : Bool) (q half : Nat) (inexact : Bool) : Bool :=
  match rm with
  | .nearestEven => decide (half = 2) || (decide (half = 1) && decide (q % 2 = 1))
  | .zero => false
  | .up => inexact && !neg
  | .down => inexact && neg

/-- `(m + sticky·ε) * 2^e` rounded to a multiple of `2^t`: the multiple and whether it is inexact. -/
def roundAt (rm : Rm) (neg : Bool) (m : Nat) (e : Int) (sticky : Bool) (t : Int) : Nat × Bool :=
  if t ≤ e then
    let q := m * 2 ^ (e - t).toNat
    (if roundUp rm neg q 0 sticky then q + 1 else q, sticky)
  else
    let n := (t - e).toNat
    let q := m >>> n
    let r := m % 2 ^ n
    let h := 2 ^ (n - 1)
    let half := if r < h then 0 else if r = h && !sticky then 1 else 2
    let inexact := r != 0 || sticky
    (if roundUp rm neg q half inexact then q + 1 else q, inexact)

/-- An exact magnitude `(m + sticky·ε) * 2^e`, not zero, rounded into a format: the bit pattern and its flags. -/
def FpFmt.round (f : FpFmt) (rm : Rm) (neg : Bool) (m : Nat) (e : Int) (sticky : Bool) : Nat × Nat :=
  let top : Int := e + (Nat.log2 m : Int)           -- exponent of the leading 1
  let tn : Int := top - (f.mb : Int)                -- last place with the exponent range unbounded
  let unb := roundAt rm neg m e sticky tn
  -- tininess is judged on the value rounded as if the exponent range were unbounded (R92)
  let topU : Int := tn + (Nat.log2 unb.1 : Int)
  let tiny := topU < 1 - (f.bias : Int)
  let t : Int := if tn < f.emin then f.emin else tn
  let (q, inexact) := roundAt rm neg m e sticky t
  let topQ : Int := t + (Nat.log2 q : Int)
  if q ≠ 0 ∧ topQ > (f.bias : Int) then
    let toInf := match rm with
      | .nearestEven => true | .zero => false | .up => !neg | .down => neg
    (if toInf then f.inf neg else f.maxFin neg, flagOvf ||| flagInx)
  else
    -- `q * 2^t` is exactly representable: its pattern is the sum of the parts
    let ef : Nat := (t - f.emin).toNat
    let body := if q < 2 ^ f.mb then q else (ef + 1) * 2 ^ f.mb + (q - 2 ^ f.mb)
    (f.zero neg + body,
      (if inexact then flagInx else 0) ||| (if tiny && inexact then flagUnf else 0))

/-- The sign of a sum that is exactly zero. -/
def zeroSumNeg (rm : Rm) (na nb : Bool) : Bool := if na = nb then na else decide (rm = .down)

/-- The signed magnitude of a finite value scaled to exponent `e`. -/
def scaleTo (neg : Bool) (m : Nat) (e0 e : Int) : Int :=
  let v : Int := (m * 2 ^ (e0 - e).toNat : Nat)
  if neg then -v else v

/-- The exact sum of two finite values, rounded. -/
def FpFmt.addFin (f : FpFmt) (rm : Rm) (na : Bool) (ma : Nat) (ea : Int) (nb : Bool) (mb : Nat) (eb : Int) :
    Nat × Nat :=
  let e := if ea ≤ eb then ea else eb
  let s := scaleTo na ma ea e + scaleTo nb mb eb e
  if s = 0 then (f.zero (zeroSumNeg rm na nb), 0)
  else f.round rm (decide (s < 0)) s.natAbs e false

/-- Whether an operand is a signalling NaN. -/
def FpVal.isSnan : FpVal → Bool
  | .nan s => s
  | _ => false

/-- Whether an operand is a NaN. -/
def FpVal.isNan : FpVal → Bool
  | .nan _ => true
  | _ => false

/-- The value with its sign changed. -/
def FpVal.neg : FpVal → FpVal
  | .nan s => .nan s
  | .inf n => .inf (!n)
  | .fin n m e => .fin (!n) m e

/-- Addition of decoded values. -/
def FpFmt.addV (f : FpFmt) (rm : Rm) (a b : FpVal) : Nat × Nat :=
  if a.isNan || b.isNan then (f.qnan, if a.isSnan || b.isSnan then flagInv else 0) else
  match a, b with
  | .inf na, .inf nb => if na = nb then (f.inf na, 0) else (f.qnan, flagInv)
  | .inf na, _ => (f.inf na, 0)
  | _, .inf nb => (f.inf nb, 0)
  | .fin na ma ea, .fin nb mb eb => f.addFin rm na ma ea nb mb eb
  | _, _ => (f.qnan, 0)

/-- Multiplication of decoded values. -/
def FpFmt.mulV (f : FpFmt) (rm : Rm) (a b : FpVal) : Nat × Nat :=
  if a.isNan || b.isNan then (f.qnan, if a.isSnan || b.isSnan then flagInv else 0) else
  match a, b with
  | .inf na, .inf nb => (f.inf (na != nb), 0)
  | .inf na, .fin nb mb _ => if mb = 0 then (f.qnan, flagInv) else (f.inf (na != nb), 0)
  | .fin na ma _, .inf nb => if ma = 0 then (f.qnan, flagInv) else (f.inf (na != nb), 0)
  | .fin na ma ea, .fin nb mb eb =>
    if ma * mb = 0 then (f.zero (na != nb), 0) else f.round rm (na != nb) (ma * mb) (ea + eb) false
  | _, _ => (f.qnan, 0)

/-- `a * b + c` with a single rounding; 0 × ∞ is invalid whatever `c` holds (R146). -/
def FpFmt.fmaV (f : FpFmt) (rm : Rm) (a b c : FpVal) : Nat × Nat :=
  let snan := a.isSnan || b.isSnan || c.isSnan
  let zeroInf : Bool := match a, b with
    | .inf _, .fin _ m _ => decide (m = 0)
    | .fin _ m _, .inf _ => decide (m = 0)
    | _, _ => false
  if zeroInf then (f.qnan, flagInv)
  else if a.isNan || b.isNan || c.isNan then (f.qnan, if snan then flagInv else 0)
  else
    match a, b, c with
    | .fin na ma ea, .fin nb mb eb, .fin nc mc ec => f.addFin rm (na != nb) (ma * mb) (ea + eb) nc mc ec
    | .fin _ _ _, .fin _ _ _, .inf nc => (f.inf nc, 0)
    | .inf na, .inf nb, .inf nc => if (na != nb) = nc then (f.inf nc, 0) else (f.qnan, flagInv)
    | .inf na, .inf nb, _ => (f.inf (na != nb), 0)
    | .inf na, .fin nb _ _, .inf nc => if (na != nb) = nc then (f.inf nc, 0) else (f.qnan, flagInv)
    | .inf na, .fin nb _ _, _ => (f.inf (na != nb), 0)
    | .fin na _ _, .inf nb, .inf nc => if (na != nb) = nc then (f.inf nc, 0) else (f.qnan, flagInv)
    | .fin na _ _, .inf nb, _ => (f.inf (na != nb), 0)
    | _, _, _ => (f.qnan, 0)

/-- Division (R156). -/
def FpFmt.div (f : FpFmt) (rm : Rm) (x y : Nat) : Nat × Nat :=
  let a := f.decode x
  let b := f.decode y
  if a.isNan || b.isNan then (f.qnan, if a.isSnan || b.isSnan then flagInv else 0) else
  match a, b with
  | .inf _, .inf _ => (f.qnan, flagInv)
  | .inf na, .fin nb _ _ => (f.inf (na != nb), 0)
  | .fin na _ _, .inf nb => (f.zero (na != nb), 0)
  | .fin na ma ea, .fin nb mb eb =>
    if mb = 0 then (if ma = 0 then (f.qnan, flagInv) else (f.inf (na != nb), flagDz))
    else if ma = 0 then (f.zero (na != nb), 0)
    else
      let n := 2 * f.mb + 8 + mb.log2
      let q := (ma * 2 ^ n) / mb
      f.round rm (na != nb) q (ea - eb - (n : Int)) (decide ((ma * 2 ^ n) % mb ≠ 0))
  | _, _ => (f.qnan, 0)

/-- The square root of a natural number, rounded down, by bisection over `n` bits. -/
def isqrtBits (x : Nat) : Nat → Nat → Nat
  | 0, r => r
  | n + 1, r => if (r + 2 ^ n) * (r + 2 ^ n) ≤ x then isqrtBits x n (r + 2 ^ n) else isqrtBits x n r

/-- The square root of a natural number, rounded down. -/
def isqrt (x : Nat) : Nat := isqrtBits x (x.log2 / 2 + 1) 0

/-- Square root (R156). -/
def FpFmt.sqrt (f : FpFmt) (rm : Rm) (x : Nat) : Nat × Nat :=
  match f.decode x with
  | .nan s => (f.qnan, if s then flagInv else 0)
  | .inf neg => if neg then (f.qnan, flagInv) else (f.inf false, 0)
  | .fin neg m e =>
    if m = 0 then (f.zero neg, 0)
    else if neg then (f.qnan, flagInv)
    else
      let n := 2 * f.mb + 8
      let n := if (e - (n : Int)) % 2 = 0 then n else n + 1
      let v := m * 2 ^ n
      let r := isqrt v
      f.round rm false r ((e - (n : Int)) / 2) (decide (r * r ≠ v))

/-- Whether `a < b` for values that are not NaN (zeros equal). -/
def FpVal.lt (a b : FpVal) : Bool :=
  match a, b with
  | .inf na, .inf nb => na && !nb
  | .inf na, .fin _ _ _ => na
  | .fin _ _ _, .inf nb => !nb
  | .fin na ma ea, .fin nb mb eb =>
    let e := if ea ≤ eb then ea else eb
    decide (scaleTo na ma ea e < scaleTo nb mb eb e)
  | _, _ => false

/-- The sign bit of a pattern. -/
def FpFmt.signOf (f : FpFmt) (x : Nat) : Bool := x.testBit (f.eb + f.mb)

/-- minimumNumber (`wantMax = false`) or maximumNumber of IEEE 754-2019, −0 below +0 (R146). -/
def FpFmt.minmax (f : FpFmt) (wantMax : Bool) (x y : Nat) : Nat × Nat :=
  let a := f.decode x
  let b := f.decode y
  let flags := if a.isSnan || b.isSnan then flagInv else 0
  if a.isNan && b.isNan then (f.qnan, flags)
  else if a.isNan then (y, flags)
  else if b.isNan then (x, flags)
  else
    let less := a.lt b || (!(b.lt a) && f.signOf x && !(f.signOf y))
    (if less != wantMax then x else y, flags)

/-- A quiet comparison for equality (R143). -/
def FpFmt.eqQuiet (f : FpFmt) (x y : Nat) : Bool × Nat :=
  let a := f.decode x
  let b := f.decode y
  if a.isNan || b.isNan then (false, if a.isSnan || b.isSnan then flagInv else 0)
  else (!(a.lt b) && !(b.lt a), 0)

/-- A signalling comparison, `a < b` or `a ≤ b` (R143). -/
def FpFmt.ltSignal (f : FpFmt) (orEq : Bool) (x y : Nat) : Bool × Nat :=
  let a := f.decode x
  let b := f.decode y
  if a.isNan || b.isNan then (false, flagInv)
  else (if orEq then !(b.lt a) else a.lt b, 0)

/-- Whether either is a NaN, quiet (R143). -/
def FpFmt.unordered (f : FpFmt) (x y : Nat) : Bool × Nat :=
  let a := f.decode x
  let b := f.decode y
  (a.isNan || b.isNan, if a.isSnan || b.isSnan then flagInv else 0)

/-- A signed integer converted to a format (R146 `cvtif`). -/
def FpFmt.ofInt (f : FpFmt) (rm : Rm) (x : Int) : Nat × Nat :=
  if x = 0 then (f.zero false, 0) else f.round rm (decide (x < 0)) x.natAbs 0 false

/-- A value converted to a signed integer of `w` bits (R146, R147). -/
def FpFmt.toInt (f : FpFmt) (rm : Rm) (w x : Nat) : Nat × Nat :=
  match f.decode x with
  | .nan _ => (0, flagInv)
  | .inf neg => (if neg then 2 ^ (w - 1) else 2 ^ (w - 1) - 1, flagInv)
  | .fin neg m e =>
    let (q, inexact) := roundAt rm neg m e false 0
    let v : Int := if neg then -(q : Int) else (q : Int)
    if v > (2 ^ (w - 1) : Int) - 1 then (2 ^ (w - 1) - 1, flagInv)
    else if v < -(2 ^ (w - 1) : Int) then (2 ^ (w - 1), flagInv)
    else (wrap w v, if inexact then flagInx else 0)

/-- A value of format `g` converted to format `f` (R146 `cvtsd`, `cvtds`). -/
def FpFmt.convert (f g : FpFmt) (rm : Rm) (x : Nat) : Nat × Nat :=
  match g.decode x with
  | .nan s => (f.qnan, if s then flagInv else 0)
  | .inf neg => (f.inf neg, 0)
  | .fin neg m e => if m = 0 then (f.zero neg, 0) else f.round rm neg m e false

/-- The pattern with its sign changed, a NaN as it is. -/
def FpFmt.negate (f : FpFmt) (x : Nat) : Nat := (x ^^^ 2 ^ (f.eb + f.mb)) % 2 ^ (f.eb + f.mb + 1)

/-- The scalar operations of the FMA units (R146): 0 fma, 1 fms, 2 fnma, 3 mul, 4 add, 5 sub. -/
def FpFmt.arith (f : FpFmt) (rm : Rm) (op a b c : Nat) : Nat × Nat :=
  let A := f.decode a
  let B := f.decode b
  let C := f.decode c
  if op = 0 then f.fmaV rm A B C
  else if op = 1 then f.fmaV rm A B C.neg
  else if op = 2 then f.fmaV rm A.neg B C
  else if op = 3 then f.mulV rm A B
  else if op = 4 then f.addV rm A B
  else f.addV rm A B.neg

end Sys2Proof.Machine
end

