-- ==== Sys2Proof/Machine/Operands.lean ====
section
/-! DEFINITION. Operands.lean: every operand form of a Queba move (widths R88, sockets R120 to R123, short immediates
R119), the operations that the catalogue lists for each unit with their widths (R140 to R167), and which of them
take a tag or are privileged. -/

namespace Sys2Proof.Machine

/-- The width in bits of a width code (R88). -/
def widthBits (code : Nat) : Nat := 8 * 2 ^ code

/-- The file of a register socket (R120): `some f` for 0x080 + 32f + i. -/
def regFileOf (s : Nat) : Option Nat := if 0x080 ≤ s ∧ s < 0x100 then some ((s - 0x080) / 32) else none

/-- The operand ports of the catalogue, as destination sockets, ascending (23 of them, R235). -/
def operandPorts : List Nat :=
  [0x108, 0x110, 0x118, 0x120, 0x128, 0x130, 0x138, 0x140, 0x141, 0x148, 0x149, 0x150, 0x151, 0x158, 0x159,
   0x160, 0x161, 0x168, 0x170, 0x171, 0x178, 0x179, 0x180]

/-- The result ports of the catalogue, as source sockets, ascending (16 of them, R235). -/
def resultPorts : List Nat :=
  [0x200, 0x208, 0x210, 0x218, 0x220, 0x230, 0x231, 0x238, 0x239, 0x240, 0x248, 0x250, 0x251, 0x258, 0x259, 0x280]

/-- Widths as a mask: bit k for width code k. -/
def wAll : Nat := 0b1111
def w16up : Nat := 0b1110
def w32 : Nat := 0b0100
def w64 : Nat := 0b1000
def w32up : Nat := 0b1100
def w16or32 : Nat := 0b0110

/-- The widths at which the catalogue defines operation `op` of unit `u`, 0 where it lists none. -/
def opWidths (u op : Nat) : Nat :=
  if u = 0 then
    if op ≤ 1 then w16up else if op = 2 then w32 else if op = 3 then w64 else if op = 4 then wAll
    else if 8 ≤ op ∧ op ≤ 0xA then wAll else 0
  else if u ≤ 4 then
    if op ≤ 1 ∨ (4 ≤ op ∧ op ≤ 0x11) ∨ (0x14 ≤ op ∧ op ≤ 0x16) then wAll
    else if op = 2 ∨ op = 3 ∨ op = 0x12 ∨ op = 0x13 then w16or32
    else if op = 0x18 ∨ op = 0x19 ∨ (0x20 ≤ op ∧ op ≤ 0x2B) then w64
    else 0
  else if u = 5 then
    if op % 8 = 0 ∨ op / 8 ≥ 14 then 0 else if op / 8 ≤ 9 then wAll else w32up
  else if u ≤ 7 then
    if op ≤ 1 then wAll else if op = 2 then w16or32 else if op ≤ 7 then w64 else 0
  else if u ≤ 9 then
    if op ≤ 0xA then w32up else if op ≤ 0xC then w64 else if 0x10 ≤ op ∧ op ≤ 0x15 then w64 else 0
  else if u ≤ 11 then
    if op ≤ 7 ∨ (0x10 ≤ op ∧ op ≤ 0x15) then wAll
    else if 0x18 ≤ op ∧ op ≤ 0x1B then w32up else if op = 0x1C then wAll else 0
  else if u = 12 then (if op ≤ 2 then wAll else 0)
  else if u = 13 then
    if op ≤ 3 then wAll else if op ≤ 6 then w32up else if op = 8 then w64
    else if op = 9 then w16or32 else if op = 0xA ∨ op = 0xB then w32 else 0
  else if u = 14 then (if op ≤ 1 then w64 else if op ≤ 3 then wAll else 0)
  else if u = 15 then (if op = 0 then w16up else 0)
  else if u = 16 then (if op ≤ 0x10 then w32up else 0)
  else if u = 17 then (if op ≤ 3 then wAll else 0)
  else if u = 18 then (if op = 0 then wAll else 0)
  else 0

/-- The unit of a trigger socket. -/
def trigUnit (d : Nat) : Nat := (d - 0x400) / 0x80
/-- The operation code of a trigger socket. -/
def trigOp (d : Nat) : Nat := (d - 0x400) % 0x80
/-- Whether a destination socket is a trigger port. -/
def isTrig (d : Nat) : Bool := decide (0x400 ≤ d)

/-- Whether an operation takes a tag (the operations of R100's list). -/
def opTagged (u op : Nat) : Bool :=
  (u == 0 && op == 9) || ((u == 10 || u == 11) && decide (op ≥ 0x10)) || u == 12 || u == 13 || u == 14 || u == 15
    || (u == 17 && op == 2)

/-- Whether an operation is privileged (R97). -/
def opPrivileged (u op : Nat) : Bool := u == 12 || u == 15 || (u == 0 && op == 0xA)

/-- A source socket number is allocated (R120). -/
def srcValid (s : Nat) : Bool :=
  decide (s ≤ 3) || (decide (8 ≤ s) && decide (s ≤ 15)) || (decide (0x080 ≤ s) && decide (s ≤ 0x122))
    || resultPorts.contains s

/-- A destination socket number is allocated (R121, R123). -/
def dstValid (d : Nat) : Bool :=
  decide (d ≤ 3) || (decide (8 ≤ d) && decide (d ≤ 15)) || (decide (0x080 ≤ d) && decide (d ≤ 0x0FF))
    || operandPorts.contains d || (isTrig d && opWidths (trigUnit d) (trigOp d) != 0)

/-- A short immediate (R119): 11 bits sign-extended to 64. -/
def shortImm (src : Nat) : Nat := wrap 64 (sext 11 src)

/-- One move slot (R117). -/
structure Move where
  ginv : Bool
  greg : Nat
  width : Nat
  src : Nat
  dst : Nat
deriving DecidableEq, Repr

/-- A decoded bundle: its header, its move slots in slot order, and its long immediates LI0, LI1, LI2 (R113 to R126). -/
structure Bundle where
  await : Option Nat
  gate : Option Nat
  isafe : Bool
  limm : Nat
  moves : List Move
  imms : List Nat
deriving DecidableEq, Repr

/-- Why a bundle's encoding is illegal (the rows of R130). -/
inductive IllegalWhy where
  | headerReserved | strayTag | strayGate | limmReserved | immTop | badSource | badDest | noImm | badWidth
  | fileLimit | tagMove
deriving DecidableEq, Repr

end Sys2Proof.Machine
end

