-- ==== Sys2Proof/Machine/Bundle.lean ====
section
/-! DEFINITION. Bundle.lean: the 256 bits of a bundle read and written (R113 to R126), and its legality decided from the
bits alone (R130, R131). A bundle is held as the number whose bit i is bundle bit i. -/

namespace Sys2Proof.Machine

/-- The 30 bits of slot `s` (R113). -/
def slotBits (x s : Nat) : Nat := x / 2 ^ (16 + 30 * s) % 2 ^ 30

/-- A move slot decoded (R117). -/
def decodeMove (v : Nat) : Move :=
  { ginv := v / 2 ^ 29 % 2 = 1, greg := v / 2 ^ 26 % 8, width := v / 2 ^ 24 % 4,
    src := v / 2 ^ 12 % 2 ^ 12, dst := v % 2 ^ 12 }

/-- A move slot encoded (R117). -/
def encodeMove (m : Move) : Nat :=
  (if m.ginv then 2 ^ 29 else 0) + m.greg * 2 ^ 26 + m.width * 2 ^ 24 + m.src * 2 ^ 12 + m.dst

/-- How many slots hold moves for a LIMM value (R125). -/
def moveSlots (limm : Nat) : Nat := nth 0 [8, 6, 4, 5, 2, 2, 3] limm

/-- The long immediates of a LIMM value in the order LI0, LI1, LI2: lowest slot, and whether 64-bit (R125). -/
def immForms (limm : Nat) : List (Nat × Bool) :=
  nth [] [[], [(6, false)], [(6, false), (4, false)], [(5, true)], [(5, true), (2, true)],
    [(6, false), (4, false), (2, false)], [(5, true), (3, false)]] limm

/-- The value of a long immediate whose lowest slot is `s` (R126). -/
def immValue (x : Nat) (f : Nat × Bool) : Nat :=
  let low := slotBits x f.1 + slotBits x (f.1 + 1) * 2 ^ 30
  if f.2 then low + (slotBits x (f.1 + 2) % 16) * 2 ^ 60 else wrap 64 (sext 60 low)

/-- The slot values of a long immediate, lowest slot first (R126). -/
def immSlots (v : Nat) (is64 : Bool) : List Nat :=
  if is64 then [v % 2 ^ 30, v / 2 ^ 30 % 2 ^ 30, v / 2 ^ 60 % 16] else [v % 2 ^ 30, v / 2 ^ 30 % 2 ^ 30]

/-- A source is a register of file `f`. -/
def srcInFile (f : Nat) (m : Move) : Bool := decide (m.src < 2 ^ 11) && regFileOf m.src == some f

/-- A destination is a register of file `f`. -/
def dstInFile (f : Nat) (m : Move) : Bool := regFileOf m.dst == some f

/-- The register limits of R82, counted move by move. -/
def fileLimitOk (ms : List Move) : Bool :=
  (List.range 4).all (fun f =>
    decide ((ms.filter (srcInFile f)).length ≤ 4) && decide ((ms.filter (dstInFile f)).length ≤ 4))

/-- A move is a tagged trigger. -/
def moveTagged (m : Move) : Bool := isTrig m.dst && opTagged (trigUnit m.dst) (trigOp m.dst)

/-- The first reason, in the order of R130's table, why the moves of a bundle with `n` long immediates are illegal. -/
def movesIllegal (ms : List Move) (n : Nat) : Option IllegalWhy :=
  if ms.any (fun m => decide (m.src < 2 ^ 11) && !(srcValid m.src)) then some .badSource
  else if ms.any (fun m => !(dstValid m.dst)) then some .badDest
  else if ms.any (fun m => decide (0x120 + n ≤ m.src) && decide (m.src ≤ 0x122)) then some .noImm
  else if ms.any (fun m => isTrig m.dst && !((opWidths (trigUnit m.dst) (trigOp m.dst)).testBit m.width)) then
    some .badWidth
  else if !(fileLimitOk ms) then some .fileLimit
  else if ms.any (fun m => m.dst == 2) && ms.any moveTagged then some .tagMove
  else none

/-- A bundle decoded from its 256 bits, or why its encoding is illegal (R130). -/
def decodeBundle (x : Nat) : Except IllegalWhy Bundle :=
  let h := x % 2 ^ 16
  let limm := h / 4 % 8
  let awe := h / 2 ^ 15 % 2 = 1
  let ang := h / 2 ^ 9 % 2 = 1
  if h % 4 ≠ 0 then .error .headerReserved
  else if ¬ awe ∧ h / 2 ^ 10 % 32 ≠ 0 then .error .strayTag
  else if ¬ ang ∧ h / 2 ^ 6 % 8 ≠ 0 then .error .strayGate
  else if limm = 7 then .error .limmReserved
  else if (immForms limm).any (fun f => f.2 && slotBits x (f.1 + 2) / 16 != 0) then .error .immTop
  else
    let moves := (List.range (moveSlots limm)).map (fun s => decodeMove (slotBits x s))
    let imms := (immForms limm).map (immValue x)
    match movesIllegal moves imms.length with
    | some why => .error why
    | none =>
      .ok { await := if awe then some (h / 2 ^ 10 % 32) else none,
            gate := if ang then some (h / 2 ^ 6 % 8) else none,
            isafe := h / 2 ^ 5 % 2 = 1, limm := limm, moves := moves, imms := imms }

/-- The 16 header bits (R114). -/
def encodeHeader (b : Bundle) : Nat :=
  (match b.await with | some t => 2 ^ 15 + t * 2 ^ 10 | none => 0)
    + (match b.gate with | some k => 2 ^ 9 + k * 2 ^ 6 | none => 0)
    + (if b.isafe then 2 ^ 5 else 0) + b.limm * 4

/-- Slot values packed upwards from bit 0, 30 bits each (R113). -/
def packSlots : List Nat → Nat
  | [] => 0
  | v :: t => v + 2 ^ 30 * packSlots t

/-- The slot values above the move slots: the long immediates, the one with the lowest slot first (R125). -/
def immTail (limm : Nat) (imms : List Nat) : List Nat :=
  ((imms.zip ((immForms limm).map (·.2))).reverse).flatMap (fun e => immSlots e.1 e.2)

/-- The 256 bits of a bundle. -/
def encodeBundle (b : Bundle) : Nat :=
  encodeHeader b + 2 ^ 16 * packSlots (b.moves.map encodeMove ++ immTail b.limm b.imms)

/-- The no-op move (R127). -/
def nopMove : Move := ⟨false, 0, 0, 0, 0⟩

/-- A bundle that fits the encoding: every field in range, the moves and immediates that its LIMM value gives, each
60-bit immediate one that sign extension restores, and no condition of R130. -/
def Bundle.wf (b : Bundle) : Bool :=
  (match b.await with | some t => decide (t < 32) | none => true)
    && (match b.gate with | some k => decide (k < 8) | none => true)
    && decide (b.limm < 7) && decide (b.moves.length = moveSlots b.limm)
    && decide (b.imms.length = (immForms b.limm).length)
    && b.moves.all (fun m => decide (m.greg < 8) && decide (m.width < 4) && decide (m.src < 2 ^ 12)
        && decide (m.dst < 2 ^ 12))
    && (b.imms.zip (immForms b.limm)).all (fun e =>
        decide (e.1 < 2 ^ 64) && (e.2.2 || decide (wrap 64 (sext 60 (e.1 % 2 ^ 60)) = e.1)))
    && (movesIllegal b.moves b.imms.length).isNone

end Sys2Proof.Machine
end

