-- ==== Sys2Proof/Machine/StateCore.lean ====
section
/-! DEFINITION. StateCore.lean: the state of a memory instance, of one Queba core and of one lockstep pair
(R85, R179, R198, R201, R235, R315). -/

namespace Sys2Proof.Machine

/-- A memory of 64-bit words: the stored bytes, the stored check bits of each word and the three copies of each word's
valid bit (R315, R319, R321). What nothing has written reads as zero with every copy of the valid bit clear. -/
structure Ram where
  data : List Host.Cell := []
  check : List (Nat × Byte) := []
  valid : List (Nat × BitVec 3) := []
deriving DecidableEq, Repr

/-- A pending transfer (R168, R171): the bundle it fixes, the positions that remain before that bundle, and whether it
is an `rfi`, for which the target is the RPC read at the trigger (R188). -/
structure Transfer where
  target : Nat
  remain : Nat
  rfi : Bool := false
deriving DecidableEq, Repr

/-- A fixed-latency result in flight (R76): its result port (a source socket) or guard register (8 + n), its value, the
flags that land with it, and its remaining positions. -/
structure Inflight where
  port : Nat
  value : DWord
  flags : Nat
  remain : Nat
deriving DecidableEq, Repr

/-- The states of a tag entry (R192, R235). -/
inductive TagSt where
  | done | pending | failed | waitEvent
deriving DecidableEq, Repr

/-- What a BARRIER found failed: tag, error code, address (R107). -/
structure BarrierFail where
  tag : Nat
  code : Nat
  addr : Nat
deriving DecidableEq, Repr

/-- A tag entry (R100 to R107): value, state, the error code kept with a failure (R139), the address of the access, and
the report that a BARRIER in this entry still owes. -/
structure TagEnt where
  value : DWord := 0
  st : TagSt := .done
  code : Nat := 0
  addr : Nat := 0
  barrier : Option BarrierFail := none
deriving DecidableEq, Repr

/-- An angle gate of a core (R164): armed on a timebase, angle and direction, and released. -/
structure CoreGate where
  armed : Bool := false
  released : Bool := false
  tb : Nat := 0
  angle : Nat := 0
  down : Bool := false
  /-- The two-bit generation, advanced at each arm and disarm (R273). -/
  gen : Nat := 0
deriving DecidableEq, Repr

/-- A shadow bank in use: what R179 saves. -/
structure Bank where
  transfers : List Transfer
  psw : Nat
  level : Nat
  guards : Nat
  lc : Nat
  a : List (Nat × DWord)
  oports : List (Nat × DWord)
  rports : List (Nat × DWord)
  inflight : List Inflight
  pc : Nat
deriving DecidableEq, Repr

/-- The state write of a Keccak operation: word index and 25 words (R160). -/
structure KcWrite where
  word : Nat
  lanes : List DWord
deriving DecidableEq, Repr

/-- An operation of a unit inside the core whose completion has yet to pass the capture stage (R202, R204). `unit` is
the unit's number (13 `lu`, 14 `kc`), 10 for a far form at a local address and 0 for an entry made in, or refused by,
the commit buffer. -/
structure LocalOp where
  tag : Nat
  unit : Nat
  value : DWord
  code : Nat := 0
  addr : Nat := 0
  flags : Nat := 0
  write : Option KcWrite := none
deriving DecidableEq, Repr

/-- A pending BARRIER: its tag and the tagged operations triggered before it, in trigger order (R107). -/
structure Barrier where
  tag : Nat
  before : List Nat
deriving DecidableEq, Repr

/-- What an entry of the commit buffer does when it is released (R219), and the acknowledged set sent last (R177). -/
inductive CbKind where
  | store | ioWrite | sig | clr | chk | ack
deriving DecidableEq, Repr

/-- A commit-buffer entry (R219). `addr` is an address, a producer, an input or a task; `data` the value or, for the
acknowledged set, its 256 bits. -/
structure CbEntry where
  kind : CbKind
  addr : Nat
  size : Nat := 8
  data : Nat := 0
  user : Bool := false
deriving DecidableEq, Repr

/-- A precise exception that the expiry trap displaced (R184): what it is, and what its record takes from the context that
it interrupted. -/
structure KeptExc where
  cause : Nat
  slot : Nat
  addr : Nat
  info : Nat
  num : Nat
  tag : Nat := 0
  rpc : Nat
  level : Nat
  priv : Bool
  ie : Bool
deriving DecidableEq, Repr

/-- A bundle that fills have rewritten and whose earlier form may still have been fetched ahead of issue (R196, R197), with
what the fetch of that form found wrong (R129). -/
structure StaleBundle where
  index : Nat
  bits : Nat
  bad : Bool
deriving DecidableEq, Repr

/-- One Queba core: the architectural state of R85, the interrupt state of R198, and the core's own copies of the undo
log and the commit buffer (R201, R219, R223). -/
structure Core where
  pc : Nat := 0
  transfers : List Transfer := []
  lc : Nat := 0
  psw : Nat := 1
  tagNext : Nat := 0
  guards : Nat := 0
  regs : List (Nat × DWord) := []
  oports : List (Nat × DWord) := []
  rports : List (Nat × DWord) := []
  inflight : List Inflight := []
  tags : List (Nat × TagEnt) := []
  gates : List (Nat × CoreGate) := []
  -- interrupt state (R198)
  bank0 : Option Bank := none
  bank1 : Option Bank := none
  /-- The bank occupied last, while any is. -/
  lastBank : Nat := 0
  level : Nat := 0
  acked : Nat := 0
  isafeCount : Nat := 0
  starved : Bool := false
  lockAddr : Option Nat := none
  -- what the next bundle boundary finds (R172)
  trapDue : Option Nat := none
  visible : Option (Nat × Nat) := none
  expiry : Bool := false
  /-- The displaced precise exceptions, oldest first. -/
  kept : List KeptExc := []
  commitErr : Option (Nat × Nat) := none
  idle : Nat := 0
  stopped : Bool := false
  -- units inside the core
  ops : List LocalOp := []
  barriers : List Barrier := []
  waits : List (Nat × Nat) := []
  /-- Tagged operations in the order of their triggers, those not yet complete or failed. -/
  order : List Nat := []
  stale : List StaleBundle := []
  staleFor : Nat := 0
  -- logs
  undo : List (Nat × DWord) := []
  undoReserved : Nat := 0
  cb : List CbEntry := []
  -- memories
  dmem : Ram := {}
  imem : Ram := {}
deriving DecidableEq, Repr

/-- An input waiting in a pair's capture stage (R202), in the order of capture. -/
inductive CapInput where
  /-- A fabric or I/O response: the mark of the execution that sent the request (R573), tag, immediate class, slot,
  value, error code (R139; 0 for none), address, and what it answers: 1 an `ldf.lock`, 2 a `stf.unlock` or `unlock`,
  0 anything else. -/
  | response (mark tag : Nat) (imm : Bool) (slot value code addr lock : Nat)
  /-- A fill's completion: the words read for the bundles from `index` on, and the error code. -/
  | fillDone (mark tag slot index code addr : Nat) (words : List DWord)
  /-- The interrupt request presented by INTC: source and priority, or none (R176). -/
  | irq (req : Option (Nat × Nat))
  /-- An event sent as a wait's completion: consumer input and stamp (R379). -/
  | event (input stamp : Nat)
  /-- An angle-gate release: gate, generation, timebase, angle, direction, stamp (R274). -/
  | gate (k gen tb angle : Nat) (down : Bool) (stamp : Nat)
  /-- The Keeper expiry trap (R410). -/
  | expiry
  /-- A debug halt or resume request (R556, R557). -/
  | halt
  | resume
  /-- A debug resume for `n` bundles (R558). -/
  | step (n : Nat)
  /-- New values of the registers the pair depends on. -/
  | isafeMax (limit : Nat)
  | segMax (limit drain : Nat)
  | spare (en : Bool) (n : Nat)
deriving DecidableEq, Repr

/-- An entry of the happenings record (R225). -/
inductive HappKind where
  | gate (k tb angle : Nat) (down : Bool) (stamp : Nat)
  | event (input stamp : Nat)
  | depart (slot : Nat)
  | complete (tag value code addr lock : Nat)
deriving DecidableEq, Repr

/-- A happening and whether the present execution has consumed it (R226). -/
structure Happ where
  kind : HappKind
  used : Bool
deriving DecidableEq, Repr

/-- A mirror slot's header and contents (R237): the frame is held as the core state that it stores. -/
structure Slot where
  ckNum : Nat := 0
  sig : Nat := 0
  delta : List (Nat × DWord) := []
  lpair : Nat := 0
  step : Nat := 0
  applied : Bool := false
  valid : Bool := false
  frame : Core := {}
deriving DecidableEq, Repr

/-- The phase of a pair's checkpoint. -/
inductive CkPhase where
  | run | closed
deriving DecidableEq, Repr

/-- Why a pair stopped for the debugger (PnSTAT.CAUSE is numbered in R556). -/
structure DbgState where
  halted : Bool := false
  haltAsked : Bool := false
  stepLeft : Nat := 0
  stepping : Bool := false
  cause : Nat := 0
  /-- A BUNDLE match on the bundle that is resumed is ignored once (R561). -/
  pass : Bool := false
  /-- WRCORE has written the halted pair: a checkpoint before the next bundle (R560). -/
  ckptFirst : Bool := false
deriving DecidableEq, Repr

/-- One physical pair: two cores and the parts that serve both (R201). -/
structure Pair where
  lead : Core := {}
  shadow : Core := {}
  /-- The capture stage's waiting inputs (R202, R205). -/
  capture : List CapInput := []
  /-- The mark of the present execution (R573). -/
  mark : Nat := 0
  happ : List Happ := []
  segCount : Nat := 0
  /-- A checkpoint is due (R211). -/
  due : Bool := false
  /-- A `ckpt` has issued since the last checkpoint (R211). -/
  asked : Bool := false
  /-- The bundle issued last held an immediate-class trigger (R211, R232). -/
  immIssued : Bool := false
  /-- No bundle has issued since the last checkpoint (R211). -/
  fresh : Bool := true
  phase : CkPhase := .run
  ckSig : Nat := 0
  /-- The entries under release, as the lead's and as the shadow's copy holds them (R219, R221), and whether a release is in
  progress. -/
  rel : List CbEntry := []
  relShadow : List CbEntry := []
  releasing : Bool := false
  /-- The head entry is on its way to its target. -/
  relSent : Bool := false
  /-- Failures of the present release still to be reported, and whether its first has been (R222). -/
  relFails : List (Nat × Nat) := []
  relFailed : Bool := false
  /-- The delta still to be applied to the data-memory image (R218). -/
  deltaLeft : Bool := false
  ckNum : Nat := 0
  /-- The segment has been re-executed since the last checkpoint (R239). -/
  retried : Bool := false
  overrun : Bool := false
  /-- Each core's checkpoint store (R216). -/
  storeLead : Core := {}
  storeShadow : Core := {}
  /-- The physical spare that has taken over, while the fence of this pair is awaited (R242). -/
  movedTo : Option Nat := none
  movedFrom : Option Nat := none
  /-- The pair is out of work and awaits its fence, which waits for a release to end (R249). -/
  fencing : Bool := false
  /-- The fence leaves the pair RETIRED instead of FENCED (R543). -/
  retiring : Bool := false
  /-- Cycles that issues, entries and returns have taken and that no tick has yet counted (R210). -/
  ccUsed : Nat := 0
  /-- The planned clock in 25 MHz steps (R210). -/
  step : Nat := 48
  /-- VPAIRn in mV, 0 when off (R49, R540). -/
  vmv : Nat := 0
  /-- The register values in effect (R202). -/
  isafeMax : Nat := 128
  segLimit : Nat := 8000
  segDrain : Nat := 1200
  nextLimit : Nat := 8000
  nextDrain : Nat := 1200
  spareEn : Bool := false
  spareNum : Nat := 0
  cmpTest : Bool := false
  /-- The pair is held by the factory BIST or STANDBY with its clock stopped. -/
  clockOff : Bool := false
  /-- A Watch slice accepted for the next hold, and its number (R536). -/
  slice : Option Nat := none
  dbg : DbgState := {}
  /-- The number of the next free choice (see Config.freeBit). -/
  choice : Nat := 0
deriving DecidableEq, Repr

end Sys2Proof.Machine
end

