-- ==== Sys2Proof/Machine/RamOps.lean ====
section
/-! DEFINITION. RamOps.lean: one memory instance read and written under its check code (R319 to R326). A word is named by
its key in the memory's tables and by its word index within its instance, which the check code covers. -/

namespace Sys2Proof.Machine

/-- A stored byte. -/
def ramByte (r : Ram) (a : Nat) : Byte := mapGet (fun _ => 0) r.data a

/-- The bytes from `a` on. -/
def ramBytes (r : Ram) : Nat → Nat → List Byte
  | _, 0 => []
  | a, n + 1 => ramByte r a :: ramBytes r (a + 1) n

/-- The memory with the listed bytes stored from `a` on. -/
def ramPutBytes (r : Ram) : Nat → List Byte → Ram
  | _, [] => r
  | a, b :: t => ramPutBytes { r with data := mapSet (fun _ => 0) r.data a b } (a + 1) t

/-- The stored data of a word, as it stands in the cells. -/
def ramRaw (r : Ram) (key : Nat) : Nat := leNat (ramBytes r (8 * key) 8)

/-- The stored check bits of a word. -/
def ramCheck (r : Ram) (key : Nat) : Nat := (arrGet 0 r.check key).toNat

/-- The three copies of a word's valid bit. -/
def ramValid (r : Ram) (key : Nat) : Nat := (arrGet 0 r.valid key).toNat

/-- The majority of the three copies (R322). -/
def ramVote (r : Ram) (key : Nat) : Bool := decide (2 ≤ popCount (ramValid r key) 3)

/-- The copies disagree (R322). -/
def ramSplit (r : Ram) (key : Nat) : Bool := ramValid r key != 0 && ramValid r key != 7

/-- What a read finds: the data delivered, the kind of error, the syndrome, and whether the valid copies disagreed. -/
structure WordRead where
  value : Nat
  kind : EccKind
  syn : Nat
  split : Bool
deriving DecidableEq, Repr

/-- A read of a word (R320, R322): zero without a check while its valid vote is 0. -/
def ramRead (r : Ram) (key index : Nat) : WordRead :=
  if ramVote r key then
    let d := ramRaw r key
    let syn := ramCheck r key ^^^ eccCheck d index
    let kind := eccKind syn
    let v := match kind with
      | .clean | .checkBit => d
      | .dataBit j => d ^^^ 2 ^ j
      | .uncorrectable => 0
    { value := v, kind := kind, syn := syn, split := ramSplit r key }
  else { value := 0, kind := .clean, syn := 0, split := ramSplit r key }

/-- The read is uncorrectable (R320). -/
def WordRead.bad (w : WordRead) : Bool := decide (w.kind = .uncorrectable)

/-- The read counts as a correctable error (R320, R322). -/
def WordRead.corrected (w : WordRead) : Bool :=
  w.split || (match w.kind with | .dataBit _ | .checkBit => true | _ => false)

/-- A word stored with given check bits and all valid copies set (R321, R340). -/
def ramPut (r : Ram) (key : Nat) (v check : Nat) : Ram :=
  let r1 := ramPutBytes r (8 * key) (leBytes 8 v)
  { r1 with check := arrSet 0 r1.check key (BitVec.ofNat 8 check), valid := arrSet 0 r1.valid key 7 }

/-- A whole word written with its true check bits (R324). -/
def ramWrite (r : Ram) (key index v : Nat) : Ram := ramPut r key v (eccCheck v index)

/-- The bytes of `v` selected by a byte mask over the bytes of `old` (R325). -/
def mergeBytes (old v : Nat) (mask : Nat) : Nat :=
  leNat ((List.range 8).map (fun i =>
    BitVec.ofNat 8 (if mask.testBit i then v >>> (8 * i) else old >>> (8 * i))))

/-- The valid copies of every word cleared (R321). -/
def ramInvalidate (r : Ram) : Ram := { r with valid := [] }

/-- The canonical form of a memory: its tables rising and without default entries. -/
def ramWf (r : Ram) : Bool :=
  mapWf (fun _ => (0 : Byte)) r.data && mapWf (fun _ => (0 : Byte)) r.check
    && mapWf (fun _ => (0 : BitVec 3)) r.valid

/-- The mask of `n` bytes from byte `o` of a word. -/
def byteMask (o n : Nat) : Nat := ((2 ^ n - 1) <<< o) % 256

end Sys2Proof.Machine
end

