-- ==== Sys2Proof/Machine/Flags.lean ====
section
/-! DEFINITION. Flags.lean: the PSW (R86) and how its flags and fields change (R87, R570). -/

namespace Sys2Proof.Machine

/-- The bits of the PSW that exist: reserved bits [31:12] and [2] read as zero (R86). -/
def pswMask : Nat := 0xFFB

/-- PSW.PRIV (R86). -/
def pswPriv (p : Nat) : Bool := p.testBit 0
/-- PSW.IE (R86). -/
def pswIE (p : Nat) : Bool := p.testBit 1
/-- The rounding mode of PSW.FPRM (R86). -/
def pswRm (p : Nat) : Rm := Rm.ofCode (bitsOf p 3 2)

/-- The PSW with the sticky flags of `f` set (R570). -/
def pswFlag (p f : Nat) : Nat := p ||| f

/-- The PSW that a move of `v` to `cu.psw` leaves: the moved value stands in every field (R570). -/
def pswMoved (v : Nat) : Nat := v &&& pswMask

/-- A user-state move to `cu.psw` that differs from the present PSW in IE or PRIV (R87). -/
def pswDenied (p v : Nat) : Bool := !(pswPriv p) && (bitsOf p 0 2 != bitsOf v 0 2)

/-- The PSW after an entry: PRIV is 1 and IE is unchanged (R180). -/
def pswEntered (p : Nat) : Nat := p ||| 1

end Sys2Proof.Machine
end

