-- ==== Sys2Proof/Machine/LongUnit.lean ====
section
/-! DEFINITION. LongUnit.lean: the operations of the long unit (R156 to R158): integer division, IEEE division and square
root, and sine, cosine, arctangent and magnitude rounded to nearest from a fixed-point value of 192 fraction bits. -/

namespace Sys2Proof.Machine

/-- Fraction bits of the working precision. -/
def trigBits : Nat := 192

/-- π · 2^200, rounded down, the constant of the angle in radians. -/
def piScaled : Nat := 5048344754617993871973410141242436836214643421488662971535368

/-- The quarter-turn fraction `x / 2^32 < 1/4` in radians, scaled by `2^trigBits`. -/
def radScaled (x : Nat) : Nat := (2 * x * piScaled) >>> 40

/-- A series `Σ (-1)^k t^(2k+j)/(2k+j)!` by its terms: `term`, the next divisor's index `n`, and `fuel` terms. -/
def trigSeries (t2 : Nat) : Nat → Nat → Int → Nat → Int
  | 0, _, acc, _ => acc
  | fuel + 1, n, acc, term =>
    -- `term` carries no sign; the sign alternates with the index
    let next := ((term * t2) >>> trigBits) / ((n + 1) * (n + 2))
    let sign : Int := if (n / 2) % 2 = 0 then (term : Int) else -(term : Int)
    trigSeries t2 fuel (n + 2) (acc + sign) next

/-- Sine of a first-quadrant angle, scaled. -/
def sinScaled (x : Nat) : Int :=
  let t := radScaled x
  trigSeries ((t * t) >>> trigBits) 30 1 0 t

/-- Cosine of a first-quadrant angle, scaled. -/
def cosScaled (x : Nat) : Int :=
  let t := radScaled x
  trigSeries ((t * t) >>> trigBits) 30 0 0 (2 ^ trigBits)

/-- Sine and cosine of an angle in turns (`2^32` to one turn), scaled; exact at the quarter turns (R157). -/
def sincosScaled (x : Nat) : Int × Int :=
  let x := x % 2 ^ 32
  let q := x / 2 ^ 30
  let r := x % 2 ^ 30
  let one : Int := (2 ^ trigBits : Nat)
  let (s, c) := if r = 0 then ((0 : Int), one) else (sinScaled r, cosScaled r)
  if q = 0 then (s, c) else if q = 1 then (c, -s) else if q = 2 then (-s, -c) else (-c, s)

/-- A scaled value rounded to fp32, to nearest with ties to even; an exact zero is +0 (R157). -/
def scaledToFp32 (v : Int) : Nat :=
  if v = 0 then 0 else (fp32.round .nearestEven (decide (v < 0)) v.natAbs (-(trigBits : Int)) false).1

/-- A scaled value rounded to nearest, ties to even, with `n` fraction bits. -/
def scaledToFixed (v : Int) (n : Nat) : Int :=
  let (q, _) := roundAt .nearestEven (decide (v < 0)) v.natAbs (-(trigBits : Int)) false (-(n : Int))
  if v < 0 then -(q : Int) else (q : Int)

/-- `sincos.f`: sine in bits [31:0], cosine in bits [63:32], as fp32. -/
def sincosF (x : Nat) : Nat :=
  let (s, c) := sincosScaled x
  scaledToFp32 s + scaledToFp32 c * 2 ^ 32

/-- `sincos.q` at width 16 or 32: +1.0 is delivered as the largest value (R91, R157). -/
def sincosQ (w x : Nat) : Nat :=
  let (s, c) := sincosScaled x
  wrap w (satInt w (scaledToFixed s (w - 1))) + wrap w (satInt w (scaledToFixed c (w - 1))) * 2 ^ w

/-- Whether the angle `a / 2^33` turns, in the first quadrant, is at most the direction of `(x, y)`, both positive. -/
def angleLe (a x y : Nat) : Bool :=
  -- half steps of the result format: the angle in turns is a / 2^33
  let t := (a * piScaled) >>> 40
  let t2 := (t * t) >>> trigBits
  let s := trigSeries t2 40 1 0 t
  let c := trigSeries t2 40 0 0 (2 ^ trigBits)
  decide (s * (x : Int) ≤ c * (y : Int))

/-- The greatest `a` below `2^n` more than `lo` with `angleLe a`, by bisection. -/
def angleSearch (x y : Nat) : Nat → Nat → Nat
  | 0, lo => lo
  | n + 1, lo => if angleLe (lo + 2 ^ n) x y then angleSearch x y n (lo + 2 ^ n) else angleSearch x y n lo

/-- The angle of `(x, y)`, both positive, in half steps of `2^-33` turn, rounded down. -/
def angleHalfSteps (x y : Nat) : Nat := angleSearch x y 31 0

/-- `atan2.q` of `y` and `x` in turns, rounded to 32 bits modulo one turn; 0 for (0, 0) (R156, R157). -/
def atan2Q (y x : Int) : Nat :=
  if x = 0 ∧ y = 0 then 0
  else if y = 0 then (if x > 0 then 0 else 2 ^ 31)
  else if x = 0 then (if y > 0 then 2 ^ 30 else 3 * 2 ^ 30)
  else if x.natAbs = y.natAbs then
    (if y > 0 then (if x > 0 then 2 ^ 29 else 3 * 2 ^ 29) else (if x < 0 then 5 * 2 ^ 29 else 7 * 2 ^ 29))
  else
    let h := (angleHalfSteps x.natAbs y.natAbs + 1) / 2   -- nearest step of the first-quadrant angle
    let a : Int :=
      if x > 0 then (if y > 0 then (h : Int) else -(h : Int))
      else (if y > 0 then 2 ^ 31 - (h : Int) else 2 ^ 31 + (h : Int))
    wrap 32 a

/-- `mag.q`: √(a² + b²) of Q31 values rounded to nearest, then saturated with SAT (R156, R157). -/
def magQ (a b : Int) : Nat × Nat :=
  let s := a.natAbs * a.natAbs + b.natAbs * b.natAbs
  let n := isqrt s
  let r := if s > n * n + n then n + 1 else n
  if r > 2 ^ 31 - 1 then (2 ^ 31 - 1, flagSat) else (r, 0)

/-- `divs` with its corners (R156, R158). -/
def divS (w : Nat) (a b : Int) : Nat :=
  if b = 0 then (if a ≥ 0 then 2 ^ (w - 1) - 1 else 2 ^ (w - 1))
  else wrap w (Int.tdiv a b)

/-- `rems`: the remainder with the sign of A; division by zero delivers A (R158). -/
def remS (w : Nat) (a b : Int) : Nat := if b = 0 then wrap w a else wrap w (Int.tmod a b)

/-- `divu`: division by zero delivers all ones (R158). -/
def divU (w a b : Nat) : Nat := if b = 0 then 2 ^ w - 1 else a / b

/-- `remu`: division by zero delivers A (R158). -/
def remU (a b : Nat) : Nat := if b = 0 then a else a % b

/-- The long unit's operation `op` at element width `w` on A and B (64-bit values), with the flags it sets (R156). -/
def longOp (rm : Rm) (op w a b : Nat) : Nat × Nat :=
  let aw := a % 2 ^ w
  let bw := b % 2 ^ w
  let fmt := if w = 32 then fp32 else fp64
  if op = 0 then (divS w (sext w a) (sext w b), 0)
  else if op = 1 then (divU w aw bw, 0)
  else if op = 2 then (remS w (sext w a) (sext w b), 0)
  else if op = 3 then (remU aw bw, 0)
  else if op = 4 then fmt.div rm aw bw
  else if op = 5 then fmt.sqrt rm bw
  else if op = 6 then (isqrt bw, 0)
  else if op = 8 then (sincosF (b % 2 ^ 32), 0)
  else if op = 9 then (sincosQ w (b % 2 ^ 32), 0)
  else if op = 10 then (atan2Q (sext 32 a) (sext 32 b), 0)
  else magQ (sext 32 a) (sext 32 b)

end Sys2Proof.Machine
end

