-- ==== Sys2Proof/Machine/Units.lean ====
section
/-! DEFINITION. Units.lean: what the fixed-latency units compute (R142 to R147): values of the element width, with the
flags that land beside them. Operands arrive as 64-bit numbers. -/

namespace Sys2Proof.Machine

/-- An exact value delivered at width `w`, saturating: SAT is set when it saturates (R91). -/
def satResult (w : Nat) (x : Int) : Nat × Nat := (wrap w (satInt w x), if satInt w x = x then 0 else flagSat)

/-- A lane-wise operation: `n` lanes of `w` bits, flags set if any lane sets them (R93). -/
def lanes (w : Nat) (f : Nat → Nat → Nat × Nat) (a b : Nat) : Nat → Nat × Nat
  | 0 => (0, 0)
  | n + 1 =>
    let r := lanes w f a b n
    let x := f (bitsOf a (w * n) w) (bitsOf b (w * n) w)
    (r.1 + (x.1 % 2 ^ w) <<< (w * n), r.2 ||| x.2)

/-- Leading zeros of the low `w` bits. -/
def clz (w x : Nat) : Nat := if x = 0 then w else w - 1 - x.log2

/-- The signed minimum or maximum of `w`-bit values. -/
def minMaxS (w : Nat) (wantMax : Bool) (a b : Nat) : Nat :=
  if decide (sext w a < sext w b) != wantMax then a else b

/-- An ALU operation at width `w` (R142): the result and its flags. -/
def aluOp (op w a64 b64 : Nat) : Nat × Nat :=
  let a := a64 % 2 ^ w
  let b := b64 % 2 ^ w
  let sa := sext w a64
  let sb := sext w b64
  if op = 0x00 then ((a + b) % 2 ^ w, 0)
  else if op = 0x01 then (wrap w ((a : Int) - b), 0)
  else if op = 0x02 then satResult w (sa + sb)
  else if op = 0x03 then satResult w (sa - sb)
  else if op = 0x04 then (a &&& b, 0)
  else if op = 0x05 then (a ||| b, 0)
  else if op = 0x06 then (a ^^^ b, 0)
  else if op = 0x07 then (a &&& notW w b, 0)
  else if op = 0x08 then ((if b ≥ w then 0 else (a <<< b) % 2 ^ w), 0)
  else if op = 0x09 then ((if b ≥ w then 0 else a >>> b), 0)
  else if op = 0x0A then (wrap w (sa >>> (if b ≥ w then w else b)), 0)
  else if op = 0x0B then (((a <<< (b % w)) ||| (a >>> (w - b % w))) % 2 ^ w, 0)
  else if op = 0x0C then (minMaxS w false a b, 0)
  else if op = 0x0D then (minMaxS w true a b, 0)
  else if op = 0x0E then (min a b, 0)
  else if op = 0x0F then (max a b, 0)
  else if op = 0x10 then (wrap w (sb.natAbs : Int), 0)
  else if op = 0x11 then (wrap w (-sb), 0)
  else if op = 0x12 then satResult w (sb.natAbs : Int)
  else if op = 0x13 then satResult w (-sb)
  else if op = 0x14 then (wrap 64 sb, 0)
  else if op = 0x15 then (clz w b, 0)
  else if op = 0x16 then (popCount b w, 0)
  else if op = 0x18 then (a64 % 2 ^ 32 + (b64 % 2 ^ 32) * 2 ^ 32, 0)
  else if op = 0x19 then ((b64 % 2 ^ 32) * 2 ^ 32 + b64 / 2 ^ 32 % 2 ^ 32, 0)
  else if op = 0x20 then lanes 8 (fun x y => (x + y, 0)) a64 b64 8
  else if op = 0x21 then lanes 16 (fun x y => (x + y, 0)) a64 b64 4
  else if op = 0x22 then lanes 32 (fun x y => (x + y, 0)) a64 b64 2
  else if op = 0x23 then lanes 8 (fun x y => (x + 2 ^ 8 - y, 0)) a64 b64 8
  else if op = 0x24 then lanes 16 (fun x y => (x + 2 ^ 16 - y, 0)) a64 b64 4
  else if op = 0x25 then lanes 32 (fun x y => (x + 2 ^ 32 - y, 0)) a64 b64 2
  else if op = 0x26 then lanes 16 (fun x y => satResult 16 (sext 16 x + sext 16 y)) a64 b64 4
  else if op = 0x27 then lanes 16 (fun x y => satResult 16 (sext 16 x - sext 16 y)) a64 b64 4
  else if op = 0x28 then lanes 32 (fun x y => satResult 32 (sext 32 x + sext 32 y)) a64 b64 2
  else if op = 0x29 then lanes 32 (fun x y => satResult 32 (sext 32 x - sext 32 y)) a64 b64 2
  else if op = 0x2A then lanes 16 (fun x y => (minMaxS 16 false x y, 0)) a64 b64 4
  else lanes 16 (fun x y => (minMaxS 16 true x y, 0)) a64 b64 4

/-- The guard unit's test of a kind on A and B at width `w` (R143), with the flags of the floating-point kinds. -/
def guardTest (kind w a64 b64 : Nat) : Bool × Nat :=
  let a := a64 % 2 ^ w
  let b := b64 % 2 ^ w
  let fmt := if w = 32 then fp32 else fp64
  if kind = 0 then (decide (a = b), 0)
  else if kind = 1 then (decide (a ≠ b), 0)
  else if kind = 2 then (decide (sext w a < sext w b), 0)
  else if kind = 3 then (decide (a < b), 0)
  else if kind = 4 then (decide (sext w a ≤ sext w b), 0)
  else if kind = 5 then (decide (a ≤ b), 0)
  else if kind = 6 then (decide (a &&& b ≠ 0), 0)
  else if kind = 7 then (decide (a ≠ 0) && decide (b ≠ 0), 0)
  else if kind = 8 then (decide (a ≠ 0) || decide (b ≠ 0), 0)
  else if kind = 9 then (decide (a ≠ 0) && decide (b = 0), 0)
  else if kind = 10 then fmt.eqQuiet a b
  else if kind = 11 then fmt.ltSignal false a b
  else if kind = 12 then fmt.ltSignal true a b
  else fmt.unordered a b

/-- A Q15 or Q31 product, rounded to nearest with ties upward, then saturated (R145). -/
def mulQ (w a b : Nat) : Nat × Nat :=
  satResult w ((sext w a * sext w b + 2 ^ (w - 2)) >>> (w - 1))

/-- A multiplier operation (R145): r, r2 and the flags. -/
def mulOp (op w a64 b64 : Nat) : Nat × Nat × Nat :=
  let a := a64 % 2 ^ w
  let b := b64 % 2 ^ w
  if op = 0 then
    let p := sext w a * sext w b
    (wrap w p, wrap w (p >>> w), 0)
  else if op = 1 then ((a * b) % 2 ^ w, (a * b) >>> w, 0)
  else if op = 2 then let r := mulQ w a b; (r.1, 0, r.2)
  else if op = 3 then let r := lanes 8 (fun x y => (x * y, 0)) a64 b64 8; (r.1, 0, r.2)
  else if op = 4 then let r := lanes 16 (fun x y => (x * y, 0)) a64 b64 4; (r.1, 0, r.2)
  else if op = 5 then let r := lanes 16 (mulQ 16) a64 b64 4; (r.1, 0, r.2)
  else if op = 6 then let r := lanes 32 (fun x y => (x * y, 0)) a64 b64 2; (r.1, 0, r.2)
  else let r := lanes 32 (mulQ 32) a64 b64 2; (r.1, 0, r.2)

/-- A two-lane fp32 operation with three operands. -/
def lanes32f (rm : Rm) (op a b c : Nat) : Nat × Nat :=
  let lo := fp32.arith rm op (bitsOf a 0 32) (bitsOf b 0 32) (bitsOf c 0 32)
  let hi := fp32.arith rm op (bitsOf a 32 32) (bitsOf b 32 32) (bitsOf c 32 32)
  (lo.1 + hi.1 * 2 ^ 32, lo.2 ||| hi.2)

/-- An operation of an FMA unit (R146, R147): the result and its flags. -/
def fmaOp (rm : Rm) (op w a64 b64 c64 : Nat) : Nat × Nat :=
  let fmt := if w = 32 then fp32 else fp64
  let a := a64 % 2 ^ w
  let b := b64 % 2 ^ w
  let c := c64 % 2 ^ w
  if op ≤ 5 then fmt.arith rm op a b c
  else if op = 6 then fmt.minmax false a b
  else if op = 7 then fmt.minmax true a b
  else if op = 8 then fmt.ofInt rm (sext w b)
  else if op = 9 then fmt.toInt rm w b
  else if op = 0xA then fmt.toInt .zero w b
  else if op = 0xB then fp64.convert fp32 rm (b64 % 2 ^ 32)
  else if op = 0xC then fp32.convert fp64 rm b64
  else lanes32f rm (op - 0x10) a64 b64 c64

end Sys2Proof.Machine
end

