-- ==== Sys2Proof/Machine/Queba.lean ====
section
/-! DEFINITION. Queba.lean: one core issuing one bundle (R72 to R107, R134 to R167): results land, guards and sources are
read, moves write, operations start; the exceptions that a bundle meets (R99); and the signals that leave the core. -/

namespace Sys2Proof.Machine

/-- The operations of a request that leaves a pair for the fabric, and `busRd` and `busWr`, the requests of the other
masters. -/
inductive ReqOp where
  | ld | st | aadd | aswp | ldLock | stUnlock | unlock | ioRd | ioWr | fill | busRd | busWr
deriving DecidableEq, Repr

/-- A request of a pair (R148, R154, R162). `fwdMask` and `fwdData` are the bytes that the commit buffer supplies to a
far load (R220); `count` and `dst` belong to a fill. -/
structure PairReq where
  op : ReqOp
  tag : Nat
  addr : Nat
  size : Nat := 8
  data : Nat := 0
  slot : Nat := 0
  imm : Bool := false
  user : Bool := false
  lockMark : Bool := false
  fwdMask : Nat := 0
  fwdData : Nat := 0
  count : Nat := 0
  dst : Nat := 0
  /-- An entry of a commit-buffer release (R221). -/
  rel : Bool := false
deriving DecidableEq, Repr

/-- A signal that leaves a core through the comparator (R207). -/
inductive CoreOut where
  | req (r : PairReq)
  | arm (k tb angle : Nat) (down : Bool)
  | disarm (k : Nat)
  | wait (input : Nat)
  | sigImm (n slot : Nat)
  /-- A fill from the pair's own data memory, read inside the core (R163, R318): its words and how it ends. -/
  | fillLocal (r : PairReq) (words : List DWord) (code : Nat)
  /-- An access that the MPU denied as it entered the commit buffer (R364). -/
  | denied (io : Bool) (addr size : Nat) (user : Bool)
  | lmemError
  | vecError
  | noBank
  | expiryPc (rpc : Nat)
deriving DecidableEq, Repr

/-- A report outside the comparator (R330): a read of the local memory `m` (0 data, 1 instruction) found `kind` at a
word. -/
structure MemNote where
  m : Nat
  word : Nat
  bad : Bool
deriving DecidableEq, Repr

/-- What a core's cycle is given from outside the core: the check of an access as it enters the commit buffer (R219),
answering an error code of R139 or 0, and the entries of the last release still in the buffer (R220). -/
structure CoreEnv where
  check : (io : Bool) → (addr size : Nat) → (user : Bool) → Nat
  rel : List CbEntry

/-- What a core's cycle gives: its signals in slot order, its notes, and whether a `ckpt` was triggered. -/
structure CoreStep where
  core : Core
  outs : List CoreOut := []
  notes : List MemNote := []
  ckpt : Bool := false

/-! ### Registers, ports and tags -/

/-- A guard register: g0 reads as true (R84). -/
def Core.guard (c : Core) (n : Nat) : Bool := n = 0 || c.guards.testBit n

/-- The core with guard register `n` at `v`; g0 is not written (R84). -/
def Core.setGuard (c : Core) (n : Nat) (v : Bool) : Core :=
  if n = 0 then c
  else { c with guards := if v then withBit c.guards n else withoutBit c.guards n }

/-- Register `i` of the 128 (32f + i of R120). -/
def Core.reg (c : Core) (i : Nat) : Nat := (arrGet (0 : DWord) c.regs i).toNat

/-- The core with a register at `v`. -/
def Core.setReg (c : Core) (i v : Nat) : Core :=
  { c with regs := arrSet (0 : DWord) c.regs i (BitVec.ofNat 64 v) }

/-- An operand port by its destination socket. -/
def Core.oport (c : Core) (s : Nat) : Nat := (arrGet (0 : DWord) c.oports s).toNat

/-- The core with an operand port at `v` (R74). -/
def Core.setOport (c : Core) (s v : Nat) : Core :=
  { c with oports := arrSet (0 : DWord) c.oports s (BitVec.ofNat 64 v) }

/-- A result port by its source socket. -/
def Core.rport (c : Core) (s : Nat) : Nat := (arrGet (0 : DWord) c.rports s).toNat

/-- The core with a result port at `v` (R78). -/
def Core.setRport (c : Core) (s v : Nat) : Core :=
  { c with rports := arrSet (0 : DWord) c.rports s (BitVec.ofNat 64 v) }

/-- A tag entry. -/
def Core.tag (c : Core) (t : Nat) : TagEnt := arrGet {} c.tags t

/-- The core with a tag entry at `e`. -/
def Core.setTag (c : Core) (t : Nat) (e : TagEnt) : Core := { c with tags := arrSet {} c.tags t e }

/-- A tag entry is pending, an event wait included (R101). -/
def TagEnt.busy (e : TagEnt) : Bool := e.st == .pending || e.st == .waitEvent

/-- An angle gate of the core. -/
def Core.gate (c : Core) (k : Nat) : CoreGate := arrGet {} c.gates k

/-- The core with an angle gate at `g`. -/
def Core.setGate (c : Core) (k : Nat) (g : CoreGate) : Core := { c with gates := arrSet {} c.gates k g }

/-! ### Landing (R75 step 1, R76 to R78, R144, R570) -/

/-- The core with one result landed. -/
def Core.landOne (c : Core) (f : Inflight) : Core :=
  let c := { c with psw := pswFlag c.psw f.flags }
  if f.port < 0x80 then c.setGuard (f.port - 8) (f.value != 0) else c.setRport f.port f.value.toNat

/-- The core as a bundle issues: every pipeline advances by one position and the results that are due land, in the order
of their triggers. -/
def Core.land (c : Core) : Core :=
  let due := c.inflight.filter (fun f => f.remain ≤ 1)
  let rest := (c.inflight.filter (fun f => !(decide (f.remain ≤ 1)))).map (fun f => { f with remain := f.remain - 1 })
  due.foldl Core.landOne { c with inflight := rest }

/-! ### Reading sources and guards (R75 step 2) -/

/-- The 64-bit value of a source (R119, R120). -/
def Core.source (c : Core) (b : Bundle) (src : Nat) : Nat :=
  if 2 ^ 11 ≤ src then shortImm src
  else if src = 0 then 0
  else if src = 1 then c.psw
  else if src = 2 then c.tagNext
  else if src = 3 then c.lc
  else if src < 16 then (if c.guard (src - 8) then 1 else 0)
  else if src < 0x100 then c.reg (src - 0x80)
  else if src < 0x120 then (c.tag (src - 0x100)).value.toNat
  else if src < 0x200 then nth 0 b.imms (src - 0x120)
  else c.rport src

/-- A move whose guard is met, with its source's value. -/
structure LiveMove where
  slot : Nat
  dst : Nat
  width : Nat
  val : Nat
deriving DecidableEq, Repr

/-- The value at the move's width, its upper bits zero (R89). -/
def LiveMove.cut (m : LiveMove) : Nat := m.val % 2 ^ widthBits m.width

/-- The moves of a bundle whose guards are met (R83), with their values, in slot order from slot `s`. -/
def Core.liveMoves (c : Core) (b : Bundle) : List Move → Nat → List LiveMove
  | [], _ => []
  | m :: t, s =>
    if c.guard m.greg != m.ginv then
      { slot := s, dst := m.dst, width := m.width, val := c.source b m.src } :: c.liveMoves b t (s + 1)
    else c.liveMoves b t (s + 1)

/-- An enabled move of the bundle reads a pending tag (R102). -/
def Core.readsEarly (c : Core) (b : Bundle) : Bool :=
  b.moves.any (fun m => (c.guard m.greg != m.ginv) && decide (0x100 ≤ m.src) && decide (m.src < 0x120)
    && (c.tag (m.src - 0x100)).busy)

/-! ### Writing destinations (R75 step 3) -/

/-- The core after one move to a register, guard register, control location or operand port. -/
def Core.applyMove (c : Core) (m : LiveMove) : Core :=
  if isTrig m.dst then c
  else if m.dst = 0 then c
  else if m.dst = 1 then { c with psw := pswMoved m.cut }
  else if m.dst = 2 then { c with tagNext := m.cut % 32 }
  else if m.dst = 3 then { c with lc := m.cut % 2 ^ 32 }
  else if m.dst < 16 then c.setGuard (m.dst - 8) (m.cut != 0)
  else if m.dst < 0x100 then c.setReg (m.dst - 0x80) m.cut
  else c.setOport m.dst m.cut

/-- The value of an operand port as the triggers of the bundle use it (R74). -/
def operandAfter (c : Core) (ms : List LiveMove) (s : Nat) : Nat :=
  match ms.find? (fun m => m.dst = s) with
  | some m => m.cut
  | none => c.oport s

/-- The operand ports o1 and o2 of a unit. -/
def o1Of (u : Nat) : Nat := 0x100 + 8 * u
def o2Of (u : Nat) : Nat := 0x101 + 8 * u

/-! ### Addresses (R148, R154) -/

/-- The first byte of the pair's data memory and its size (R25, R181). -/
def localBase : Nat := 0x08000000
def localSize : Nat := 0x20000

/-- An address lies in the pair's data memory. -/
def isLocal (a : Nat) : Bool := decide (localBase ≤ a) && decide (a < localBase + localSize)

/-- A base plus a two's-complement 64-bit offset, modulo 2^32 (R148). -/
def addrAdd (a off : Nat) : Nat := (a % 2 ^ 32 + off % 2 ^ 32) % 2 ^ 32

/-- A base less an offset, modulo 2^32. -/
def addrSub (a off : Nat) : Nat := (a % 2 ^ 32 + (2 ^ 32 - off % 2 ^ 32)) % 2 ^ 32

/-- The address of a load/store operation (R148): A and C are the operand ports, B the trigger operand. -/
def lsAddr (op w a b c : Nat) : Nat :=
  let n := w / 8
  if op = 0 then addrAdd a b
  else if op = 1 then addrAdd a (b * n)
  else if op = 2 ∨ op = 6 then a % 2 ^ 32
  else if op = 3 then addrSub a b
  else if op = 7 then addrSub a c
  else if op = 5 ∨ op = 0x11 ∨ op = 0x13 ∨ op = 0x15 then addrAdd a (c * n)
  else addrAdd a c

/-- The new pointer of a post-increment or pre-decrement form (R148). -/
def lsPointer (op a b c : Nat) : Nat :=
  if op = 2 then addrAdd a b else if op = 3 then addrSub a b else if op = 6 then addrAdd a c else addrSub a c

/-- The address of an I/O operation, modulo 2^24 (R154). -/
def ioAddr (op a b c : Nat) : Nat := (a % 2 ^ 24 + (if op = 0 then b else c) % 2 ^ 24) % 2 ^ 24

/-- A register with an RC field or a read action at an I/O address (R155). -/
def ioReadActs (addr : Nat) : Bool :=
  match regAt addr with
  | some (r, _) => r.readActs || r.fields.any (fun f => f.acc == .rc)
  | none => false

/-! ### Immediate class (R229) -/

/-- An enabled trigger of unit `u`, operation `op`, is of immediate class. -/
def Core.isImmediate (c : Core) (u op w a b cc : Nat) : Bool :=
  if u = 10 ∨ u = 11 then
    if op < 0x10 then false
    else if 0x18 ≤ op then true
    else
      let ad := lsAddr op w a b cc
      !(isLocal ad) && (op == 0x14 || op == 0x15 || c.lockAddr.isSome)
  else if u = 12 then op = 2 || (op = 0 && ioReadActs (ioAddr op a b cc))
  else if u = 15 then true
  else if u = 17 then op = 1
  else false

/-- A live trigger of the bundle is of immediate class (R211, R230). -/
def Core.bundleImmediate (c : Core) (ms : List LiveMove) : Bool :=
  ms.any (fun m => isTrig m.dst &&
    c.isImmediate (trigUnit m.dst) (trigOp m.dst) (widthBits m.width)
      (operandAfter c ms (o1Of (trigUnit m.dst))) m.val (operandAfter c ms (o2Of (trigUnit m.dst))))

/-- A live `rd` of the bundle matches an I/O write held in the commit buffer (R211). -/
def Core.bundleReadsHeld (c : Core) (rel : List CbEntry) (ms : List LiveMove) : Bool :=
  ms.any (fun m => m.dst == 0xA00 &&
    (c.cb ++ rel).any (fun e => e.kind == .ioWrite
      && e.addr == ioAddr 0 (operandAfter c ms 0x160) m.val 0))

/-! ### Exceptions that a bundle meets (R81, R99) -/

/-- The destination for R81: every trigger port of a unit is one, and `dbnz` counts as `cu.lc` besides (R124, R141). -/
def destKey (d : Nat) : Nat := if isTrig d then 0x10000 + trigUnit d else d

/-- Two enabled moves write one destination (R81, R124, R141). -/
def destConflict : List LiveMove → Bool
  | [] => false
  | m :: t =>
    (m.dst != 0 && m.dst != 8 && t.any (fun n => destKey n.dst == destKey m.dst))
      || (m.dst == 0x402 && t.any (fun n => n.dst == 3)) || (m.dst == 3 && t.any (fun n => n.dst == 0x402))
      || destConflict t

/-- A precise exception: cause code (R190), slot, address and operand. -/
structure Exc where
  cause : Nat
  slot : Nat := 0
  addr : Nat := 0
  info : Nat := 0
  num : Nat := 0
  tag : Nat := 0
deriving DecidableEq, Repr

/-- An area of local memory read or written by a Keccak operation lies outside the data memory. -/
def areaOutside (a n : Nat) : Bool :=
  decide (a < localBase) || decide (localBase + localSize < a + n)

/-- The condition of R99 that one live move meets, given how many tags earlier slots take: PRIV, LOCAL_RANGE, ALIGN,
ILLEGAL_OPERAND, TAG_BUSY in that order. -/
def Core.moveExc (c : Core) (ms : List LiveMove) (m : LiveMove) (tagsBefore : Nat) : Option Exc :=
  let user := !(pswPriv c.psw)
  if m.dst = 1 then
    if pswDenied c.psw (pswMoved m.cut) then some { cause := 5, slot := m.slot } else none
  else if !(isTrig m.dst) then none
  else
    let u := trigUnit m.dst
    let op := trigOp m.dst
    let w := widthBits m.width
    let n := w / 8
    let a := operandAfter c ms (o1Of u)
    let cc := operandAfter c ms (o2Of u)
    let ad := lsAddr op w a m.val cc
    let busy := opTagged u op && (c.tag ((c.tagNext + tagsBefore) % 32)).busy
    if user && opPrivileged u op then some { cause := 5, slot := m.slot }
    else if (u = 10 ∨ u = 11) ∧ op < 8 ∧ !(isLocal ad) then some { cause := 6, slot := m.slot, addr := ad }
    else if u = 14 ∧ op ≤ 1 ∧ areaOutside (m.val % 2 ^ 32) 200 then
      some { cause := 6, slot := m.slot, addr := m.val % 2 ^ 32 }
    else if u = 14 ∧ op = 1 ∧ areaOutside (a % 2 ^ 32) cc then
      some { cause := 6, slot := m.slot, addr := a % 2 ^ 32 }
    else if (u = 10 ∨ u = 11) ∧ op ≠ 0x1C ∧ ad % n ≠ 0 then some { cause := 7, slot := m.slot, addr := ad }
    else if u = 14 ∧ op ≤ 1 ∧ m.val % 8 ≠ 0 then some { cause := 7, slot := m.slot, addr := m.val % 2 ^ 32 }
    else if u = 14 ∧ op = 1 ∧ a % 8 ≠ 0 then some { cause := 7, slot := m.slot, addr := a % 2 ^ 32 }
    else if u = 15 ∧ a % 32 ≠ 0 then some { cause := 7, slot := m.slot, addr := a % 2 ^ 32 }
    else if u = 14 ∧ op = 1 ∧ (cc < 8 ∨ 200 < cc ∨ cc % 8 ≠ 0) then
      some { cause := 9, slot := m.slot, info := m.cut }
    else if u = 17 ∧ ((op ≤ 1 ∧ 3 < m.cut) ∨ (2 ≤ op ∧ 7 < m.cut)) then
      some { cause := 9, slot := m.slot, info := m.cut }
    else if u = 0 ∧ op = 3 ∧ c.bank0.isNone ∧ c.bank1.isNone then
      some { cause := 9, slot := m.slot, info := m.cut }
    else if busy then some { cause := 8, slot := m.slot }
    else none

/-- The condition of the lowest-numbered slot (R99). -/
def Core.firstExc (c : Core) (all : List LiveMove) : List LiveMove → Nat → Option Exc
  | [], _ => none
  | m :: t, k =>
    match c.moveExc all m k with
    | some e => some e
    | none =>
      c.firstExc all t (if isTrig m.dst && opTagged (trigUnit m.dst) (trigOp m.dst) then k + 1 else k)

/-- The precise exception that the bundle meets as it would issue (R99). DESIGN CHOICE: the report of a BARRIER whose tag it
awaits (R107) comes after DEST_CONFLICT, which R99 has reported first, and ahead of the conditions of its slots. -/
def Core.bundleExc (c : Core) (b : Bundle) (ms : List LiveMove) : Option Exc :=
  let owed := match b.await with
    | some t => (c.tag t).barrier
    | none => none
  if destConflict ms then some { cause := 4 }
  else
  match owed with
  | some f =>
    -- BUS_ERR, MPU_ERR, COLLIDE or LOCKBREAK by the kept error code (R139, R190)
    let cause := if f.code = 3 then 0x0B else if f.code = 4 then 0x0C else if f.code = 5 then 0x0D else 0x0A
    some { cause := cause, addr := f.addr, info := 2 ^ 63 + f.code, tag := f.tag }
  | none => c.firstExc ms ms 0

/-! ### Local data memory (R151, R223, R328) -/

/-- What a local load of `n` bytes finds in a memory: the value, whether it is uncorrectable, and its note. -/
def localRead (m : Ram) (addr n : Nat) : Nat × Bool × List MemNote :=
  let o := addr - localBase
  let r := ramRead m (o / 8) (o / 8)
  let v := if r.bad then 0 else bitsOf r.value (8 * (o % 8)) (8 * n)
  (v, r.bad, if r.bad || r.corrected then [{ m := 0, word := o / 8, bad := r.bad }] else [])

/-- The core with the old value of a data-memory word logged, if this segment has not logged it (R223). -/
def Core.logWord (c : Core) (w : Nat) : Core :=
  if c.undo.any (fun e => e.1 = w) then c
  else
    let r := ramRead c.dmem w w
    { c with undo := (w, BitVec.ofNat 64 (if r.bad then ramRaw c.dmem w else r.value)) :: c.undo }

/-- A local store of `n` bytes (R324, R325, R328): not performed where its read of a partly written word is
uncorrectable. -/
def Core.localStore (c : Core) (addr n v : Nat) : Core × Bool × List MemNote :=
  let o := addr - localBase
  let w := o / 8
  if n = 8 then
    let c := c.logWord w
    ({ c with dmem := ramWrite c.dmem w w (v % 2 ^ 64) }, false, [])
  else
    let r := ramRead c.dmem w w
    if r.bad then (c, true, [{ m := 0, word := w, bad := true }])
    else
      let c := c.logWord w
      let new := mergeBytes r.value (v <<< (8 * (o % 8))) (byteMask (o % 8) n)
      ({ c with dmem := ramWrite c.dmem w w new }, false,
        if r.corrected then [{ m := 0, word := w, bad := false }] else [])

/-! ### Commit-buffer forwarding (R220) -/

/-- The bytes of a far load that the commit buffer holds, youngest entry first: a mask and their values in place. -/
def forwardBytes (cb : List CbEntry) (addr : Nat) : Nat → Nat × Nat
  | 0 => (0, 0)
  | n + 1 =>
    let (mask, data) := forwardBytes cb addr n
    let a := addr + n
    match cb.reverse.find? (fun e => e.kind == .store && decide (e.addr ≤ a) && decide (a < e.addr + e.size)) with
    | some e => (mask + 2 ^ n, data + bitsOf e.data (8 * (a - e.addr)) 8 * 2 ^ (8 * n))
    | none => (mask, data)

/-! ### Starting operations (R75 step 4) -/

/-- The core after a tagged trigger took the tag that TAGNEXT names (R100). -/
def Core.takeTag (c : Core) (st : TagSt) : Core × Nat :=
  let t := c.tagNext
  let c := c.setTag t { c.tag t with st := st, code := 0, addr := 0, barrier := none }
  ({ c with
      tagNext := (t + 1) % 32
      order := c.order.filter (fun x => x != t) ++ [t]
      barriers := c.barriers.map (fun b => { b with before := b.before.filter (fun x => x != t) }) }, t)

/-- The core with a result in flight (R76). -/
def Core.flow (c : Core) (port : Nat) (v flags lat : Nat) : Core :=
  { c with inflight := c.inflight ++ [{ port := port, value := BitVec.ofNat 64 v, flags := flags, remain := lat }] }

/-- The core with a transfer triggered (R168). -/
def Core.transferTo (c : Core) (target : Nat) (rfi : Bool) : Core :=
  { c with transfers := c.transfers ++ [{ target := target % 4096, remain := 3, rfi := rfi }] }

/-- The core with an operation of one of its own units begun. -/
def Core.begin (c : Core) (o : LocalOp) : Core := { c with ops := c.ops ++ [o] }

/-- The core with an entry at the end of its commit buffer (R219). -/
def Core.buffer (c : Core) (e : CbEntry) : Core := { c with cb := c.cb ++ [e] }

/-- The value that a failed store, I/O write, fill or Keccak/CRC operation delivers (R139). -/
def errorStatus (code : Nat) : Nat := 2 ^ 63 + code

/-- The bank that an `rfi` frees: the one occupied last (R188, R189). -/
def Core.rfiBank (c : Core) : Option Nat :=
  if c.lastBank = 1 && c.bank1.isSome then some 1
  else if c.bank0.isSome then some 0
  else if c.bank1.isSome then some 1 else none

/-- The word index of bank `k`'s record in the data memory (R181). -/
def recordWord (k : Nat) : Nat := (0x1FF80 + 0x20 * k) / 8

/-- A control-unit operation (R140, R141, R168, R188, R197). DESIGN CHOICE: the triggers of one bundle take effect in slot
order, so an `rfi` reads its record after the stores of lower slots and before those of higher ones, and a tagged trigger in
a lower slot of a BARRIER's own bundle counts as triggered before it. An `iflush` leaves the two bundles after its own as
fetched. -/
def Core.trigCu (c : Core) (op : Nat) (m : LiveMove) : CoreStep :=
  if op = 0 then { core := c.transferTo m.val false }
  else if op = 1 then { core := (c.transferTo m.val false).flow 0x200 ((c.pc + 3) % 4096) 0 1 }
  else if op = 2 then
    let n := (c.lc + 2 ^ 32 - 1) % 2 ^ 32
    let c := { c with lc := n }
    { core := if n = 0 then c else c.transferTo m.val false }
  else if op = 3 then
    match c.rfiBank with
    | some k =>
      let (v, bad, notes) := localRead c.dmem (localBase + 8 * recordWord k) 8
      { core := c.transferTo (bitsOf v 0 12) true, outs := if bad then [.lmemError] else [], notes := notes }
    | none => { core := c }
  else if op = 4 then { core := { c with trapDue := some m.cut } }
  else if op = 8 then { core := c, ckpt := true }
  else if op = 9 then
    let (c, t) := c.takeTag .pending
    { core := { c with barriers := c.barriers ++ [{ tag := t, before := c.order.filter (fun x => x != t) }] } }
  else { core := { c with staleFor := min c.staleFor 3 } }

/-- A trigger of a load/store unit (R148 to R153). `m0` and `cb0` are the data memory and the commit buffer before the
bundle's own stores (R151). A far load whose bytes the commit buffer holds all goes to the pair's port for its MPU check and
no further (R220, R360). DESIGN CHOICE: an `ldf.lock` at a local address while a sequence is open fails with DECODE (R152),
not LOCKSTATE (R153); a `stf.unlock` at a local address leaves the sequence open. -/
def Core.trigLs (c : Core) (env : CoreEnv) (user : Bool) (m0 : Ram) (cb0 : List CbEntry) (u op : Nat) (m : LiveMove) :
    CoreStep :=
  let w := widthBits m.width
  let n := w / 8
  let a := c.oport (o1Of u)
  let cc := c.oport (o2Of u)
  let r := 0x200 + 8 * u
  let ad := lsAddr op w a m.val cc
  let err (bad : Bool) : List CoreOut := if bad then [.lmemError] else []
  let unlocking := op = 0x1B
  if op ≤ 3 then
    let (v, bad, notes) := localRead m0 ad n
    let c := c.flow r v 0 3
    let c :=
      if op = 2 ∨ op = 3 then
        let p := lsPointer op a m.val cc
        (c.setOport (o1Of u) p).flow (r + 1) p 0 1
      else c
    { core := c, outs := err bad, notes := notes }
  else if op ≤ 7 then
    let (c, bad, notes) := c.localStore ad n m.val
    let c :=
      if op = 6 ∨ op = 7 then
        let p := lsPointer op a m.val cc
        (c.setOport (o1Of u) p).flow (r + 1) p 0 1
      else c
    { core := c, outs := err bad, notes := notes }
  else if op ≤ 0x15 ∧ isLocal ad then
    -- a far form at the pair's own data memory (R152)
    if op ≤ 0x11 then
      let (v, bad, notes) := localRead m0 ad n
      let (c, t) := c.takeTag .pending
      { core := c.begin { tag := t, unit := 10, value := BitVec.ofNat 64 v }, outs := err bad, notes := notes }
    else
      let (c, bad, notes) := c.localStore ad n m.val
      let (c, t) := c.takeTag .pending
      { core := c.begin { tag := t, unit := 10, value := 0 }, outs := err bad, notes := notes }
  else if op ≤ 0x11 then
    let (c, t) := c.takeTag .pending
    let (mask, data) := forwardBytes (env.rel ++ cb0) ad n
    { core := c,
      outs := [.req { op := .ld, tag := t, addr := ad, size := n, slot := m.slot, imm := c.lockAddr.isSome,
                      user := user, lockMark := c.lockAddr.isSome, fwdMask := mask, fwdData := data }] }
  else if op ≤ 0x13 ∧ c.lockAddr.isNone then
    -- a far store enters the commit buffer, checked as it enters (R219)
    let (c, t) := c.takeTag .pending
    let code := env.check false ad n user
    if code = 0 then
      let c := c.buffer { kind := .store, addr := ad, size := n, data := m.val % 2 ^ w, user := user }
      { core := c.begin { tag := t, unit := 0, value := 0 } }
    else
      { core := c.begin { tag := t, unit := 0, value := BitVec.ofNat 64 (errorStatus code), code := code,
                          addr := ad },
        outs := if code = 3 then [.denied false ad n user] else [] }
  else if op ≤ 0x15 then
    let (c, t) := c.takeTag .pending
    { core := c,
      outs := [.req { op := .st, tag := t, addr := ad, size := n, data := m.val % 2 ^ w, slot := m.slot, imm := true,
                      user := user, lockMark := c.lockAddr.isSome }] }
  else if op = 0x1C then
    let (c, t) := c.takeTag .pending
    if c.lockAddr.isNone then { core := c.begin { tag := t, unit := 0, value := 0 } }
    else
      { core := c,
        outs := [.req { op := .unlock, tag := t, addr := c.lockAddr.getD 0, size := n, slot := m.slot, imm := true,
                        user := user, lockMark := true }] }
  else if isLocal ad then
    let (c, t) := c.takeTag .pending
    { core := c.begin { tag := t, unit := 0, value := if unlocking then BitVec.ofNat 64 (errorStatus 1) else 0,
                        code := 1, addr := ad } }
  else if op = 0x1A then
    let (c, t) := c.takeTag .pending
    if c.lockAddr.isSome then { core := c.begin { tag := t, unit := 0, value := 0, code := 6, addr := ad } }
    else
      { core := { c with lockAddr := some ad },
        outs := [.req { op := .ldLock, tag := t, addr := ad, size := n, slot := m.slot, imm := true, user := user }] }
  else
    let (c, t) := c.takeTag .pending
    { core := c,
      outs := [.req { op := if op = 0x18 then .aadd else if op = 0x19 then .aswp
                            else if c.lockAddr.isSome then .stUnlock else .st,
                      tag := t, addr := ad, size := n, data := m.val % 2 ^ w, slot := m.slot, imm := true,
                      user := user, lockMark := c.lockAddr.isSome }] }

/-- A trigger of the I/O unit (R154, R219). An ordinary write enters the commit buffer. -/
def Core.trigIo (c : Core) (env : CoreEnv) (user : Bool) (op : Nat) (m : LiveMove) : CoreStep :=
  let a := c.oport 0x160
  let cc := c.oport 0x161
  let ad := ioAddr op a m.val cc
  let n := widthBits m.width / 8
  let (c, t) := c.takeTag .pending
  if op = 1 then
    let code := env.check true ad n user
    if code = 0 then
      let c := c.buffer { kind := .ioWrite, addr := ad, size := n, data := m.val % 2 ^ 32, user := user }
      { core := c.begin { tag := t, unit := 0, value := 0 } }
    else
      { core := c.begin { tag := t, unit := 0, value := BitVec.ofNat 64 (errorStatus code), code := code,
                          addr := ad },
        outs := if code = 3 then [.denied true ad n user] else [] }
  else
    { core := c,
      outs := [.req { op := if op = 0 then .ioRd else .ioWr, tag := t, addr := ad, size := n,
                      data := m.val % 2 ^ 32, slot := m.slot, imm := op = 2 || ioReadActs ad, user := user }] }

/-- The `n` words of the data memory from word `w` on, whether any is uncorrectable, and the notes of their reads. -/
def readWords (m : Ram) : Nat → Nat → List DWord × Bool × List MemNote
  | _, 0 => ([], false, [])
  | w, n + 1 =>
    let r := ramRead m w w
    let (t, bad, notes) := readWords m (w + 1) n
    (BitVec.ofNat 64 r.value :: t, bad || r.bad, if r.bad || r.corrected then { m := 0, word := w, bad := r.bad } :: notes else notes)

/-- A trigger of the Keccak/CRC unit (R159 to R161, R224): a permutation reads its source and state in this cycle and
writes the state as its tag is captured. DESIGN CHOICE: it reads memory as it stands before the stores of its own bundle. -/
def Core.trigKc (c : Core) (m0 : Ram) (op : Nat) (m : LiveMove) : CoreStep :=
  let a := c.oport 0x170
  let cc := c.oport 0x171
  let n := widthBits m.width / 8
  let (c, t) := c.takeTag .pending
  if op ≤ 1 then
    let sw := (m.val % 2 ^ 32 - localBase) / 8
    let (st, badS, notesS) := readWords m0 sw 25
    let (src, badX, notesX) := if op = 1 then readWords m0 ((a % 2 ^ 32 - localBase) / 8) (cc / 8) else ([], false, [])
    let c := { c with undoReserved := c.undoReserved + 25 }
    if badS || badX then
      { core := c.begin { tag := t, unit := 14, value := BitVec.ofNat 64 (errorStatus 2), code := 2,
                          addr := m.val % 2 ^ 32 },
        outs := [.lmemError], notes := notesS ++ notesX }
    else
      let lanes := (List.range 25).map (fun i => (nth 0 st i).toNat ^^^ (nth 0 src i).toNat)
      { core := c.begin { tag := t, unit := 14, value := 0,
                          write := some { word := sw, lanes := (keccakF lanes).map (BitVec.ofNat 64) } },
        notes := notesS ++ notesX }
  else
    let poly := if op = 2 then polyC else poly32
    let v := crcBytes poly (a % 2 ^ 32) ((leBytes n m.val).map BitVec.toNat)
    { core := c.begin { tag := t, unit := 14, value := BitVec.ofNat 64 v } }

/-- The bundles of a fill that its source holds in the pair's own data memory (R163), read until an error: the words, the error
code and the notes. -/
def localFill (m : Ram) : Nat → Nat → List DWord × Nat × List MemNote
  | _, 0 => ([], 0, [])
  | a, n + 1 =>
    if !(isLocal a) then ([], 1, [])
    else
      let (ws, bad, notes) := readWords m ((a - localBase) / 8) 4
      if bad then ([], 2, notes)
      else
        let (rest, code, more) := localFill m (a + 32) n
        (ws ++ rest, code, notes ++ more)

/-- A trigger of the fill unit (R162, R163). Every fill is of immediate class (R196). One whose source is the pair's own data
memory reads it, before the stores of its own bundle, inside the core, where no MPU checks it (R318, R360; DEDUCED, as a
fill is not among the forms that R360 names). -/
def Core.trigFill (c : Core) (user : Bool) (m0 : Ram) (m : LiveMove) : CoreStep :=
  let a := c.oport 0x178 % 2 ^ 32
  let dst := c.oport 0x179 % 4096
  let (c, t) := c.takeTag .pending
  if 4096 < dst + m.cut then
    { core := c.begin { tag := t, unit := 15, value := BitVec.ofNat 64 (errorStatus 7), code := 7, addr := a } }
  else if m.cut = 0 then { core := c.begin { tag := t, unit := 15, value := 0 } }
  else
    let r : PairReq :=
      { op := .fill, tag := t, addr := a, size := 32, slot := m.slot, imm := true, user := user, count := m.cut, dst := dst }
    if isLocal a then
      let (ws, code, notes) := localFill m0 a m.cut
      { core := c, outs := [.fillLocal r ws code], notes := notes }
    else { core := c, outs := [.req r] }

/-- A trigger of the angle-gate port (R164). -/
def Core.trigAg (c : Core) (op : Nat) (m : LiveMove) : CoreStep :=
  if op < 8 then
    let tb := m.val % 16
    let down := m.val.testBit 4
    let angle := c.oport 0x180 % 2 ^ 32
    { core := c.setGate op { armed := true, released := false, tb := tb, angle := angle, down := down,
                             gen := ((c.gate op).gen + 1) % 4 },
      outs := [.arm op tb angle down] }
  else if op < 16 then { core := c.setGate (op - 8) { gen := ((c.gate (op - 8)).gen + 1) % 4 }, outs := [.disarm (op - 8)] }
  else
    let armed := maskOf (fun k => (c.gate k).armed) 8
    let rel := maskOf (fun k => (c.gate k).released) 8
    { core := c.flow 0x280 (armed + rel * 256) 0 1 }

/-- A trigger of the event port (R165): `sig` and `clr` enter the commit buffer, `wait` leaves as a wait request (R379). -/
def Core.trigEv (c : Core) (op : Nat) (m : LiveMove) : CoreStep :=
  if op = 0 then { core := c.buffer { kind := .sig, addr := m.cut } }
  else if op = 1 then { core := c, outs := [.sigImm m.cut m.slot] }
  else if op = 2 then
    let (c, t) := c.takeTag .waitEvent
    { core := { c with waits := c.waits ++ [(m.cut, t)] }, outs := [.wait m.cut] }
  else { core := c.buffer { kind := .clr, addr := m.cut } }

/-- One triggered operation started. `rm` and `user` are the rounding mode and state before the bundle's moves (R570). -/
def Core.trigger (c : Core) (env : CoreEnv) (rm : Rm) (user : Bool) (m0 : Ram) (cb0 : List CbEntry) (m : LiveMove) :
    CoreStep :=
  let u := trigUnit m.dst
  let op := trigOp m.dst
  let w := widthBits m.width
  let a := c.oport (o1Of u)
  let r := 0x200 + 8 * u
  if u = 0 then c.trigCu op m
  else if u ≤ 4 then
    let x := aluOp op w a m.val
    { core := c.flow r x.1 x.2 1 }
  else if u = 5 then
    let x := guardTest (op / 8) w a m.val
    { core := c.flow (8 + op % 8) (if x.1 then 1 else 0) x.2 1 }
  else if u ≤ 7 then
    let x := mulOp op w a m.val
    { core := (c.flow r x.1 x.2.2 3).flow (r + 1) x.2.1 0 3 }
  else if u ≤ 9 then
    let x := fmaOp rm op w a m.val (c.oport (o2Of u))
    { core := c.flow r x.1 x.2 4 }
  else if u ≤ 11 then c.trigLs env user m0 cb0 u op m
  else if u = 12 then c.trigIo env user op m
  else if u = 13 then
    let x := longOp rm op w a m.val
    let (c, t) := c.takeTag .pending
    { core := c.begin { tag := t, unit := 13, value := BitVec.ofNat 64 x.1, flags := x.2 } }
  else if u = 14 then c.trigKc m0 op m
  else if u = 15 then c.trigFill user m0 m
  else if u = 16 then c.trigAg op m
  else if u = 17 then c.trigEv op m
  else { core := c.buffer { kind := .chk, addr := m.val % 64 } }

/-- Whether a trigger is a local load or a Keccak operation needs no order; stores take effect in slot order, each load
reading the memory before them (R151). -/
def Core.triggers (env : CoreEnv) (rm : Rm) (user : Bool) (m0 : Ram) (cb0 : List CbEntry) :
    List LiveMove → CoreStep → CoreStep
  | [], s => s
  | m :: t, s =>
    let x := s.core.trigger env rm user m0 cb0 m
    Core.triggers env rm user m0 cb0 t
      { core := x.core, outs := s.outs ++ x.outs, notes := s.notes ++ x.notes, ckpt := s.ckpt || x.ckpt }

/-- The core after positions advance past an issued bundle: the pending transfer that is now due fixes PC, otherwise PC
advances (R129, R168, R169). A due `rfi` leaves PC at its target and the return to be made (R188). -/
def Core.advance (c : Core) : Core :=
  let ts := c.transfers.map (fun t => { t with remain := t.remain - 1 })
  match ts.find? (fun t => t.remain = 0) with
  | some t =>
    { c with pc := t.target, transfers := if t.rfi then ts else ts.filter (fun x => x.remain != 0) }
  | none => { c with pc := (c.pc + 1) % 4096, transfers := ts }

/-- An `rfi` whose delay bundles have issued awaits its return (R188). -/
def Core.returnDue (c : Core) : Bool := c.transfers.any (fun t => t.rfi && t.remain == 0)

/-- The core and its signals as the bundle issues (R75). The bundle meets no condition of R99. -/
def Core.issue (c : Core) (env : CoreEnv) (b : Bundle) : CoreStep :=
  let user := !(pswPriv c.psw)
  let rm := pswRm c.psw
  let c := c.land
  let ms := c.liveMoves b b.moves 0
  let c := if c.readsEarly b then { c with psw := pswFlag c.psw flagTagEarly } else c
  let m0 := c.dmem
  let cb0 := c.cb
  let c := ms.foldl Core.applyMove c
  let s := Core.triggers env rm user m0 cb0 (ms.filter (fun m => isTrig m.dst)) { core := c }
  let c := s.core.advance
  { s with core := { c with
      isafeCount := if b.isafe then c.isafeCount else c.isafeCount + 1
      staleFor := c.staleFor - 1
      stale := if c.staleFor ≤ 1 then [] else c.stale } }

end Sys2Proof.Machine
end

