-- ==== Sys2Proof/Machine/Flow.lean ====
section
/-! DEFINITION. Flow.lean: what one core does at a bundle boundary besides issuing: fetching (R129, R196, R197, R329), the
boundary table (R172), entries with their banks, vectors and records (R179 to R187, R193), returns (R188, R189), and
the completion of tags (R104 to R107, R192). -/

namespace Sys2Proof.Machine

/-! ### Fetch -/

/-- The 256 bits of bundle `i` as the instruction memory holds them, and whether any word is uncorrectable (R329). -/
def fetchBits (m : Ram) (i : Nat) : Nat × Bool :=
  let w (q : Nat) := ramRead m (4 * i + q) (4 * i + q)
  let bad := (w 0).bad || (w 1).bad || (w 2).bad || (w 3).bad
  ((w 0).value + (w 1).value * 2 ^ 64 + (w 2).value * 2 ^ 128 + (w 3).value * 2 ^ 192, bad)

/-- The notes of a fetch (R330). -/
def fetchNotes (m : Ram) (i : Nat) : List MemNote :=
  (List.range 4).filterMap (fun q =>
    let r := ramRead m (4 * i + q) (4 * i + q)
    if r.bad || r.corrected then some { m := 1, word := 4 * i + q, bad := r.bad } else none)

/-- The next bundle as fetched: a bundle that a fill has rewritten may still be held in its earlier form, and `old` says
whether it is (R196, R197). -/
def Core.fetch (c : Core) (old : Bool) : Nat × Bool :=
  match c.stale.find? (fun s => s.index = c.pc) with
  | some s => if old && 0 < c.staleFor then (s.bits, s.bad) else fetchBits c.imem c.pc
  | none => fetchBits c.imem c.pc

/-! ### The boundary table (R172) -/

/-- A shadow bank is free (R175). -/
def Core.freeBank (c : Core) : Option Nat :=
  if c.bank0.isNone then some 0 else if c.bank1.isNone then some 1 else none

/-- The lowest-numbered tag in the failed state below `n` (R192). -/
def Core.failedTag (c : Core) : Option Nat :=
  (List.range 32).find? (fun t => (c.tag t).st = .failed)

/-- The next bundle can be read, is legal and has ISAFE = 1. -/
def Core.nextIsafe (c : Core) (old : Bool) : Bool :=
  let (bits, bad) := c.fetch old
  if bad then false
  else
    match decodeBundle bits with
    | .error _ => false
    | .ok b => b.isafe

/-- The count of bundles without ISAFE restarts as a bundle with ISAFE = 1 becomes the next (R194). -/
def Core.restartIsafe (c : Core) (old : Bool) : Core :=
  if c.nextIsafe old then { c with isafeCount := 0, starved := false } else c

/-- Rows 5 and 6 may enter at this ISAFE bundle. -/
def Core.entryOpen (c : Core) (b : Bundle) : Bool :=
  b.isafe && pswIE c.psw && c.freeBank.isSome && c.lockAddr.isNone

/-- The AWAIT and ANG conditions of the next bundle hold (R103, R115). -/
def Core.conditionsHold (c : Core) (b : Bundle) : Bool :=
  (match b.await with | some t => !(c.tag t).busy | none => true)
    && (match b.gate with | some k => (c.gate k).released | none => true)

/-- What the next bundle boundary brings (the rows of R172). -/
inductive Boundary where
  /-- Row 1. -/
  | expiry
  /-- The exception that the expiry trap displaced (R184). -/
  | kept (e : KeptExc)
  /-- Row 2. -/
  | trap (num : Nat)
  /-- A bundle that cannot be read (R329). -/
  | unreadable
  /-- Row 3. -/
  | illegal
  /-- Row 4. -/
  | checkpoint
  /-- Row 5: a failed tag, or a failed commit-buffer entry ahead of any. -/
  | imprecise (tag : Option Nat)
  /-- Row 6. -/
  | interrupt (source prio : Nat)
  /-- Row 7 with a condition of R99. -/
  | exception (e : Exc)
  /-- Row 7. -/
  | issue (b : Bundle)
  /-- Row 8. -/
  | hold
  /-- No row applies: a return, a stop. -/
  | none
deriving DecidableEq, Repr

/-- The boundary table applied to a core. `old` is the form in which a rewritten bundle is held, `ckpt` decides from the
decoded next bundle whether a checkpoint is due, `wait` whether that bundle must wait for a release (R231), and `shut`
whether rows 5 and 6 may not come ahead of it (R230). -/
def Core.boundary (c : Core) (old : Bool) (ckpt : Option Bundle → Bool) (wait shut : Bundle → Bool) : Boundary :=
  if c.stopped || c.returnDue || c.idle != 0 then .none
  else if c.expiry then .expiry
  else
    match (if c.level = 17 then none else c.kept.head?) with
    | some k => .kept k
    | none =>
      match c.trapDue with
      | some n => .trap n
      | none =>
        let (bits, bad) := c.fetch old
        if bad then .unreadable
        else
          match decodeBundle bits with
          | .error _ => .illegal
          | .ok b =>
            if ckpt (some b) then .checkpoint
            else if c.entryOpen b && !(shut b) && decide (c.level < 16) && (c.failedTag.isSome || c.commitErr.isSome) then
              .imprecise (if c.commitErr.isSome then none else c.failedTag)
            else
              let irq := match c.visible with
                | some (s, p) => if c.entryOpen b && !(shut b) && decide (c.level < p) && !(c.acked.testBit s) then some (s, p) else none
                | none => none
              match irq with
              | some (s, p) => .interrupt s p
              | none =>
                if !(c.conditionsHold b) || wait b then .hold
                else
                  let l := c.land
                  match l.bundleExc b (l.liveMoves b b.moves 0) with
                  | some e => .exception e
                  | none => .issue b

/-! ### Entry (R179 to R187) -/

/-- The core's state as a shadow bank saves it (R179). -/
def Core.saved (c : Core) : Bank :=
  { pc := c.pc, transfers := c.transfers, psw := c.psw, level := c.level, guards := c.guards, lc := c.lc,
    a := c.regs.filter (fun e => e.1 < 16), oports := c.oports, rports := c.rports, inflight := c.inflight }

/-- The core with bank `k` occupied. -/
def Core.occupy (c : Core) (k : Nat) (b : Bank) : Core :=
  if k = 0 then { c with bank0 := some b, lastBank := 0 } else { c with bank1 := some b, lastBank := 1 }

/-- The four words of a record (R187). -/
structure Rec where
  rpc : Nat
  cause : Nat
  num : Nat := 0
  slot : Nat := 0
  tag : Nat := 0
  level : Nat
  priv : Bool
  ie : Bool
  addr : Nat := 0
  info : Nat := 0
deriving DecidableEq, Repr

/-- Word 0x00 of a record (R187). -/
def Rec.word0 (r : Rec) : Nat :=
  packFields [(r.rpc, 0, 12), (r.cause, 16, 8), (r.num, 24, 8), (r.slot, 32, 3), (r.tag, 35, 5), (r.level, 40, 5),
    (if r.priv then 1 else 0, 45, 1), (if r.ie then 1 else 0, 46, 1)]

/-- The core with a record written at word `w`, each word a local store (R181, R187). -/
def Core.writeRecord (c : Core) (w : Nat) (r : Rec) : Core :=
  let put (c : Core) (i v : Nat) : Core := (c.localStore (localBase + 8 * (w + i)) 8 v).1
  put (put (put (put c 0 r.word0) 1 r.addr) 2 r.info) 3 0

/-- The vector at a byte offset of the data memory, or none where the read is uncorrectable (R181, R186). -/
def Core.vector (c : Core) (off : Nat) : Option Nat :=
  let (v, bad, _) := localRead c.dmem (localBase + off) 2
  if bad then none else some (v % 4096)

/-- The notes of a vector's read (R328, R330). -/
def Core.vectorNotes (c : Core) (off : Nat) : List MemNote := (localRead c.dmem (localBase + off) 2).2.2

/-- The vector of an interrupt source (R181). -/
def intVector (s : Nat) : Nat := 0x1FC00 + 2 * s
/-- The vector of a cause code (R181). -/
def excVector (cause : Nat) : Nat := 0x1FE00 + 2 * cause

/-- What a core begins its handler with (R180, R194, R197): no result in flight, privileged, at its level, everything
fetched afresh. -/
def Core.startHandler (c : Core) (pc level : Nat) : Core :=
  { c with
    pc := pc, level := level, psw := pswEntered c.psw, transfers := [], inflight := []
    isafeCount := 0, starved := false, stale := [], staleFor := 0 }

/-- The core stopped because it cannot read the vector at an offset (R186). -/
def Core.stopVector (c : Core) (off : Nat) : CoreStep :=
  { core := { c with stopped := true }, outs := [.vecError], notes := c.vectorNotes off }

/-- An entry that saves a bank and writes that bank's record (R179, R182): `rec` is made from the interrupted context. -/
def Core.enter (c : Core) (vec level : Nat) (mk : Rec → Rec) : CoreStep :=
  match c.freeBank with
  | none => { core := { c with stopped := true }, outs := [.noBank] }
  | some k =>
    match c.vector vec with
    | none => c.stopVector vec
    | some pc =>
      let notes := c.vectorNotes vec
      let base : Rec := { rpc := c.pc, cause := 0, level := c.level, priv := pswPriv c.psw, ie := pswIE c.psw }
      let saved := c.saved
      let c := (c.occupy k saved).writeRecord (recordWord k) (mk base)
      { core := c.startHandler pc level, notes := notes }

/-- The entry of interrupt `s` at priority `p` (R177, R182). -/
def Core.enterInterrupt (c : Core) (s p : Nat) : CoreStep :=
  let x := c.enter (intVector s) p (fun r => { r with cause := 1, num := s })
  if x.core.stopped then x else { x with core := { x.core with
    acked := withBit x.core.acked s, visible := if x.core.visible = some (s, p) then none else x.core.visible } }

/-- The entry of an exception at level 16 (R174, R187, R191). -/
def Core.enterException (c : Core) (e : Exc) : CoreStep :=
  c.enter (excVector e.cause) 16
    (fun r => { r with cause := e.cause, num := e.num, slot := e.slot, tag := e.tag, addr := e.addr, info := e.info })

/-- The entry of the Keeper expiry trap (R193): no bank is saved, pending transfers and results in flight are discarded,
and the record at 0x0801_FFC0 takes the bundle that would have issued next. -/
def Core.enterExpiry (c : Core) : CoreStep :=
  match c.vector (excVector 0x0E) with
  | none => c.stopVector (excVector 0x0E)
  | some pc =>
    let notes := c.vectorNotes (excVector 0x0E)
    let r : Rec := { rpc := c.pc, cause := 0x0E, level := c.level, priv := pswPriv c.psw, ie := pswIE c.psw }
    let rpc := c.pc
    let c := (c.writeRecord (0x1FFC0 / 8) r).startHandler pc 17
    { core := { c with expiry := false }, outs := [.expiryPc rpc], notes := notes }

/-- The cause code of an error code kept with a failed tag (R139, R190). -/
def causeOfError (code : Nat) : Nat :=
  if code = 3 then 0x0B else if code = 4 then 0x0C else if code = 5 then 0x0D else 0x0A

/-- The core with a failed tag entry returned to done (R192). -/
def Core.clearFailed (c : Core) (t : Nat) : Core :=
  let c := c.setTag t { c.tag t with st := .done }
  { c with order := c.order.filter (fun x => x != t) }

/-- The entry of the imprecise exception of a failed tag, or of COMMIT_ERR (R192, R222). -/
def Core.enterImprecise (c : Core) (tag : Option Nat) : CoreStep :=
  match tag with
  | some t =>
    let e := c.tag t
    let x := c.enterException { cause := causeOfError e.code, tag := t, addr := e.addr, info := errorStatus e.code }
    if x.core.stopped then x else { x with core := x.core.clearFailed t }
  | none =>
    let (code, addr) := c.commitErr.getD (0, 0)
    let x := c.enterException { cause := 0x0F, addr := addr, info := errorStatus code }
    if x.core.stopped then x else { x with core := { x.core with commitErr := none } }

/-- The precise exception that a `trap` with operand B is (R140, R187). -/
def trapExc (b : Nat) : Exc := { cause := 2, num := b % 256, info := b }

/-! ### Return (R188, R189) -/

/-- The core with bank `k` freed. -/
def Core.freeBankK (c : Core) (k : Nat) : Core :=
  if k = 0 then { c with bank0 := none, lastBank := if c.bank1.isSome then 1 else 0 }
  else { c with bank1 := none, lastBank := 0 }

/-- The bank by number. -/
def Core.bank (c : Core) (k : Nat) : Option Bank := if k = 0 then c.bank0 else c.bank1

/-- The core after a return: every item of R179 restored, the bank freed, the next bundle at the RPC that the `rfi` read
(R188), results landing where the interrupted context counts them (R180). -/
def Core.restore (c : Core) : Core :=
  match c.transfers.find? (fun t => t.rfi && t.remain == 0), c.rfiBank with
  | some t, some k =>
    match c.bank k with
    | some b =>
      let regs := (List.range 16).foldl
        (fun m i => arrSet (0 : DWord) m i (arrGet (0 : DWord) b.a i)) c.regs
      let c := c.freeBankK k
      { c with
        pc := t.target, transfers := b.transfers, psw := b.psw, level := b.level, guards := b.guards, lc := b.lc
        regs := regs, oports := b.oports, rports := b.rports, inflight := b.inflight
        isafeCount := 0, starved := false, stale := [], staleFor := 0 }
    | none => { c with transfers := [] }
  | _, _ => { c with transfers := c.transfers.filter (fun t => t.remain != 0) }

/-! ### Completion of tags (R104 to R107, R160, R192) -/

/-- The core with the state write of a Keccak operation made, each word a local store (R160, R223). -/
def Core.writeLanes (c : Core) : Nat → List DWord → Core
  | _, [] => c
  | w, v :: t =>
    let c := c.logWord w
    Core.writeLanes { c with dmem := ramWrite c.dmem w w v.toNat } (w + 1) t

/-- The core as tag `t` becomes done, or failed where `code` is not 0 (R104, R106, R192). -/
def Core.completeTag (c : Core) (t : Nat) (value : DWord) (code addr flags : Nat) : Core :=
  let c := { c with psw := pswFlag c.psw flags }
  let c := c.setTag t { value := value, st := if code = 0 then .done else .failed, code := code, addr := addr,
                        barrier := none }
  { c with order := if code = 0 then c.order.filter (fun x => x != t) else c.order }

/-- The core with what an operation of its own units does at its completion (R204, R160). -/
def Core.finishOp (c : Core) (o : LocalOp) : Core :=
  let c := match o.write with
    | some w => c.writeLanes w.word w.lanes
    | none => c
  let c := if o.unit = 14 && (o.write.isSome || o.code != 0) then { c with undoReserved := c.undoReserved - 25 } else c
  c.completeTag o.tag o.value o.code o.addr o.flags

/-- The core with the operation of one of its own units complete. -/
def Core.completeOp (c : Core) (o : LocalOp) : Core := ({ c with ops := c.ops.erase o } : Core).finishOp o

/-- The operation of the core's own units that may complete tag `t`: the first that its unit has taken (R137). -/
def Core.readyOp (c : Core) (t : Nat) : Option LocalOp :=
  match c.ops.find? (fun o => o.tag = t) with
  | some o =>
    if o.unit = 13 || o.unit = 14 || o.unit = 15 then
      (if (c.ops.find? (fun x => x.unit = o.unit)) = some o then some o else none)
    else some o
  | none => none

/-- The BARRIER of tag `t`, if every tagged operation before it is done or failed (R107). -/
def Core.readyBarrier (c : Core) (t : Nat) : Option Barrier :=
  match c.barriers.find? (fun b => b.tag = t) with
  | some b => if b.before.all (fun x => !(c.tag x).busy) then some b else none
  | none => none

/-- The core with a BARRIER complete: it delivers 0, or the status kept with the first operation before it that is still
in the failed state, which returns to done and is reported at the AWAIT (R105, R107, R192). -/
def Core.completeBarrier (c : Core) (b : Barrier) : Core :=
  let c := { c with barriers := c.barriers.erase b }
  match b.before.find? (fun x => (c.tag x).st = .failed) with
  | some f =>
    let e := c.tag f
    let c := (c.clearFailed f).completeTag b.tag (BitVec.ofNat 64 (errorStatus e.code)) 0 0 0
    c.setTag b.tag { c.tag b.tag with barrier := some { tag := f, code := e.code, addr := e.addr } }
  | none => c.completeTag b.tag 0 0 0 0

/-- The core with the oldest wait on an input completed by an event's stamp (R166, R379). -/
def Core.completeWait (c : Core) (input stamp : Nat) : Core :=
  match c.waits.find? (fun w => w.1 = input) with
  | some w =>
    { (c.completeTag w.2 (BitVec.ofNat 64 stamp) 0 0 0) with waits := c.waits.erase w }
  | none => c

/-- The core with a gate released, where the release's generation is the gate's own (R164, R274). -/
def Core.releaseGate (c : Core) (k gen : Nat) : Core :=
  if (c.gate k).gen == gen then c.setGate k { c.gate k with armed := false, released := true } else c

/-- The core with the words of a fill written into its instruction memory from word `w` (R162, R197). -/
def Core.writeImem (c : Core) : Nat → List DWord → Core
  | _, [] => c
  | w, v :: t => Core.writeImem { c with imem := ramWrite c.imem w w v.toNat } (w + 1) t

/-- The core after a fill's bundles are written: their earlier forms may still have been fetched ahead (R196, R197). -/
def Core.fillWritten (c : Core) (index : Nat) (words : List DWord) : Core :=
  let n := words.length / 4
  let olds := (List.range n).map (fun i =>
    let f := fetchBits c.imem (index + i)
    ({ index := index + i, bits := f.1, bad := f.2 } : StaleBundle))
  let c := c.writeImem (4 * index) words
  { c with stale := olds ++ c.stale.filter (fun s => decide (s.index < index) || decide (index + n ≤ s.index)),
           staleFor := 4 }

/-- The core as it stands after a reset of its pair (R79, R86): every port, register and tag zero, every guard false,
privileged, with its memories as given. -/
def Core.fresh (entry : Nat) (dmem imem : Ram) : Core := { pc := entry, dmem := dmem, imem := imem }

end Sys2Proof.Machine
end

