-- ==== Sys2Proof/Machine/Regs.lean ====
section
/-! DEFINITION. Regs.lean: the name of every field of every I/O register, as the register chapters give them:
address (its index in brackets where the register is one of several), lowest bit and width.
`BLOCK_REGISTER_FIELD` is the manual's BLOCK.REGISTER.FIELD. -/

namespace Sys2Proof.Machine

/-! ### SYSCTL (R414) -/

def SYSCTL_STAT_DBGATT : Fld := ⟨0x000000, 12, 1⟩
def SYSCTL_STAT_EMUL : Fld := ⟨0x000000, 11, 1⟩
def SYSCTL_STAT_BOOTSLOT : Fld := ⟨0x000000, 10, 1⟩
def SYSCTL_STAT_ACTSLOT : Fld := ⟨0x000000, 9, 1⟩
def SYSCTL_STAT_COVER : Fld := ⟨0x000000, 8, 1⟩
def SYSCTL_STAT_PREV : Fld := ⟨0x000000, 4, 3⟩
def SYSCTL_STAT_MODE : Fld := ⟨0x000000, 0, 3⟩
def SYSCTL_CMD_ARG : Fld := ⟨0x000004, 8, 16⟩
def SYSCTL_CMD_CODE : Fld := ⟨0x000004, 0, 8⟩
def SYSCTL_CMDSTAT_BUSY : Fld := ⟨0x000008, 31, 1⟩
def SYSCTL_CMDSTAT_CODE : Fld := ⟨0x000008, 8, 8⟩
def SYSCTL_CMDSTAT_STATUS : Fld := ⟨0x000008, 0, 8⟩
def SYSCTL_BOOTCFG_CONFIRM : Fld := ⟨0x00000C, 0, 16⟩
def SYSCTL_BOOTSTAT_CONFREM : Fld := ⟨0x000010, 16, 16⟩
def SYSCTL_BOOTSTAT_CONFIRMED : Fld := ⟨0x000010, 7, 1⟩
def SYSCTL_BOOTSTAT_ALTFAIL : Fld := ⟨0x000010, 2, 1⟩
def SYSCTL_BOOTSTAT_ACTFAIL : Fld := ⟨0x000010, 0, 2⟩
def SYSCTL_FOGREASON_ALTCAUSE : Fld := ⟨0x000014, 12, 4⟩
def SYSCTL_FOGREASON_ACTCAUSE : Fld := ⟨0x000014, 8, 4⟩
def SYSCTL_FOGREASON_CODE : Fld := ⟨0x000014, 0, 4⟩
def SYSCTL_MAP_REMAP : Fld := ⟨0x000018, 0, 1⟩
def SYSCTL_NEED_NEED : Fld := ⟨0x00001C, 0, 16⟩
def SYSCTL_WAKE_TMR : Fld := ⟨0x000020, 16, 16⟩
def SYSCTL_WAKE_CAN : Fld := ⟨0x000020, 1, 4⟩
def SYSCTL_WAKE_ETH : Fld := ⟨0x000020, 0, 1⟩
def SYSCTL_WAKESRC_SRC : Fld := ⟨0x000024, 0, 3⟩
def SYSCTL_REFUSED_COUNT : Fld := ⟨0x000028, 16, 16⟩
def SYSCTL_REFUSED_MODE : Fld := ⟨0x000028, 8, 3⟩
def SYSCTL_REFUSED_CODE : Fld := ⟨0x000028, 0, 8⟩
def SYSCTL_LOCK_LOCK : Fld := ⟨0x00003C, 0, 1⟩

/-! ### PAIRCTL (R243) -/

def PAIRCTL_ROLE_LPAIR (n : Nat) : Fld := ⟨0x010000 + 0x1000 * n, 8, 4⟩
def PAIRCTL_ROLE_STATE (n : Nat) : Fld := ⟨0x010000 + 0x1000 * n, 0, 3⟩
def PAIRCTL_SEGMAX_DRAIN (n : Nat) : Fld := ⟨0x010004 + 0x1000 * n, 16, 12⟩
def PAIRCTL_SEGMAX_LIMIT (n : Nat) : Fld := ⟨0x010004 + 0x1000 * n, 0, 14⟩
def PAIRCTL_SEGEFF_DUE (n : Nat) : Fld := ⟨0x010008 + 0x1000 * n, 16, 16⟩
def PAIRCTL_SEGEFF_LEN (n : Nat) : Fld := ⟨0x010008 + 0x1000 * n, 0, 16⟩
def PAIRCTL_SPARE_SPEN (n : Nat) : Fld := ⟨0x01000C + 0x1000 * n, 4, 1⟩
def PAIRCTL_SPARE_SPARE (n : Nat) : Fld := ⟨0x01000C + 0x1000 * n, 0, 4⟩
def PAIRCTL_FSTAT_BADSPARE (n : Nat) : Fld := ⟨0x010010 + 0x1000 * n, 9, 1⟩
def PAIRCTL_FSTAT_SLOWSPARE (n : Nat) : Fld := ⟨0x010010 + 0x1000 * n, 8, 1⟩
def PAIRCTL_FSTAT_CMPFAIL (n : Nat) : Fld := ⟨0x010010 + 0x1000 * n, 7, 1⟩
def PAIRCTL_FSTAT_COMMITERR (n : Nat) : Fld := ⟨0x010010 + 0x1000 * n, 6, 1⟩
def PAIRCTL_FSTAT_SEGOVR (n : Nat) : Fld := ⟨0x010010 + 0x1000 * n, 5, 1⟩
def PAIRCTL_FSTAT_CAPTERR (n : Nat) : Fld := ⟨0x010010 + 0x1000 * n, 4, 1⟩
def PAIRCTL_FSTAT_NOSPARE (n : Nat) : Fld := ⟨0x010010 + 0x1000 * n, 3, 1⟩
def PAIRCTL_FSTAT_MIGRATED (n : Nat) : Fld := ⟨0x010010 + 0x1000 * n, 2, 1⟩
def PAIRCTL_FSTAT_RECOVERED (n : Nat) : Fld := ⟨0x010010 + 0x1000 * n, 1, 1⟩
def PAIRCTL_FSTAT_MISMATCH (n : Nat) : Fld := ⟨0x010010 + 0x1000 * n, 0, 1⟩
def PAIRCTL_CNT_MIGRATIONS (n : Nat) : Fld := ⟨0x010014 + 0x1000 * n, 16, 16⟩
def PAIRCTL_CNT_RESTARTS (n : Nat) : Fld := ⟨0x010014 + 0x1000 * n, 0, 16⟩
def PAIRCTL_CKNUM_CKNUM (n : Nat) : Fld := ⟨0x010018 + 0x1000 * n, 0, 32⟩
def PAIRCTL_LASTMM_KIND (n : Nat) : Fld := ⟨0x01001C + 0x1000 * n, 16, 2⟩
def PAIRCTL_LASTMM_LG (n : Nat) : Fld := ⟨0x01001C + 0x1000 * n, 12, 4⟩
def PAIRCTL_LASTMM_SEGCNT (n : Nat) : Fld := ⟨0x01001C + 0x1000 * n, 0, 12⟩
def PAIRCTL_CERR_MORE (n : Nat) : Fld := ⟨0x010020 + 0x1000 * n, 24, 8⟩
def PAIRCTL_CERR_CODE (n : Nat) : Fld := ⟨0x010020 + 0x1000 * n, 0, 16⟩
def PAIRCTL_CERRADDR_ADDR (n : Nat) : Fld := ⟨0x010024 + 0x1000 * n, 0, 32⟩
def PAIRCTL_OCC_CBMAX (n : Nat) : Fld := ⟨0x010028 + 0x1000 * n, 24, 8⟩
def PAIRCTL_OCC_UNDOMAX (n : Nat) : Fld := ⟨0x010028 + 0x1000 * n, 16, 8⟩
def PAIRCTL_OCC_RECMAX (n : Nat) : Fld := ⟨0x010028 + 0x1000 * n, 8, 8⟩
def PAIRCTL_CMPTEST_LGFAIL (n : Nat) : Fld := ⟨0x01002C + 0x1000 * n, 20, 12⟩
def PAIRCTL_CMPTEST_DONE (n : Nat) : Fld := ⟨0x01002C + 0x1000 * n, 1, 1⟩
def PAIRCTL_CMPTEST_START (n : Nat) : Fld := ⟨0x01002C + 0x1000 * n, 0, 1⟩
def PAIRCTL_LOCK_LOCK (n : Nat) : Fld := ⟨0x01003C + 0x1000 * n, 0, 1⟩

/-! ### INTC (R175) -/

def INTC_CFG_EDGE (n s : Nat) : Fld := ⟨0x020000 + 0x1000 * n + 0x4 * s, 4, 1⟩
def INTC_CFG_PRI (n s : Nat) : Fld := ⟨0x020000 + 0x1000 * n + 0x4 * s, 0, 4⟩
def INTC_PEND_PEND (n k : Nat) : Fld := ⟨0x020400 + 0x1000 * n + 0x4 * k, 0, 32⟩
def INTC_LOST_LOST (n k : Nat) : Fld := ⟨0x020420 + 0x1000 * n + 0x4 * k, 0, 32⟩
def INTC_SWSET_SET (n : Nat) : Fld := ⟨0x020440 + 0x1000 * n, 0, 8⟩
def INTC_ISAFEMAX_LIMIT (n : Nat) : Fld := ⟨0x020444 + 0x1000 * n, 0, 12⟩
def INTC_FSTAT_VECERR (n : Nat) : Fld := ⟨0x020448 + 0x1000 * n, 2, 1⟩
def INTC_FSTAT_NOBANK (n : Nat) : Fld := ⟨0x020448 + 0x1000 * n, 1, 1⟩
def INTC_FSTAT_STARVE (n : Nat) : Fld := ⟨0x020448 + 0x1000 * n, 0, 1⟩
def INTC_LOCK_LOCK (n : Nat) : Fld := ⟨0x02044C + 0x1000 * n, 0, 1⟩

/-! ### FABRIC (R346) -/

def FABRIC_PRI_PRI (m : Nat) : Fld := ⟨0x030000 + 0x4 * m, 0, 32⟩
def FABRIC_ARB_URGENT_AGE : Fld := ⟨0x030080, 8, 13⟩
def FABRIC_ARB_AGE_STEP : Fld := ⟨0x030080, 0, 8⟩
def FABRIC_LOCKMAX_LOCK_MAX : Fld := ⟨0x030084, 0, 13⟩
def FABRIC_ISTAT_PROT : Fld := ⟨0x030088, 2, 1⟩
def FABRIC_ISTAT_URGENT : Fld := ⟨0x030088, 1, 1⟩
def FABRIC_ISTAT_LOCKBREAK : Fld := ⟨0x030088, 0, 1⟩
def FABRIC_IEN_IEN : Fld := ⟨0x03008C, 0, 3⟩
def FABRIC_LKBRK_COUNT : Fld := ⟨0x030090, 16, 16⟩
def FABRIC_LKBRK_MASTER : Fld := ⟨0x030090, 8, 5⟩
def FABRIC_LKBRK_INST : Fld := ⟨0x030090, 0, 8⟩
def FABRIC_LKADDR_ADDR : Fld := ⟨0x030094, 0, 32⟩
def FABRIC_URG_COUNT : Fld := ⟨0x030098, 16, 16⟩
def FABRIC_URG_MAXWAIT : Fld := ⟨0x030098, 0, 16⟩
def FABRIC_PROT_COUNT : Fld := ⟨0x0300A0, 16, 16⟩
def FABRIC_PROT_DIR : Fld := ⟨0x0300A0, 15, 1⟩
def FABRIC_PROT_MASTER : Fld := ⟨0x0300A0, 8, 5⟩
def FABRIC_LOCK_LOCK : Fld := ⟨0x0300BC, 0, 1⟩

/-! ### MPU (R360) -/

def MPU_RBASE_BASE (m r : Nat) : Fld := ⟨0x040000 + 0x100 * m + 0x10 * r, 6, 26⟩
def MPU_RLIMIT_LIMIT (m r : Nat) : Fld := ⟨0x040004 + 0x100 * m + 0x10 * r, 6, 26⟩
def MPU_RATTR_EN (m r : Nat) : Fld := ⟨0x040008 + 0x100 * m + 0x10 * r, 31, 1⟩
def MPU_RATTR_SPACE (m r : Nat) : Fld := ⟨0x040008 + 0x100 * m + 0x10 * r, 4, 1⟩
def MPU_RATTR_U (m r : Nat) : Fld := ⟨0x040008 + 0x100 * m + 0x10 * r, 3, 1⟩
def MPU_RATTR_W (m r : Nat) : Fld := ⟨0x040008 + 0x100 * m + 0x10 * r, 1, 1⟩
def MPU_RATTR_R (m r : Nat) : Fld := ⟨0x040008 + 0x100 * m + 0x10 * r, 0, 1⟩
def MPU_CTL_ENABLE (m : Nat) : Fld := ⟨0x042000 + 0x4 * m, 31, 1⟩
def MPU_CTL_NODEF (m : Nat) : Fld := ⟨0x042000 + 0x4 * m, 16, 1⟩
def MPU_CTL_GEN (m : Nat) : Fld := ⟨0x042000 + 0x4 * m, 0, 16⟩
def MPU_SYNC_SYNC : Fld := ⟨0x042100, 0, 32⟩
def MPU_ISTAT_BADREG : Fld := ⟨0x042104, 2, 1⟩
def MPU_ISTAT_DENY : Fld := ⟨0x042104, 1, 1⟩
def MPU_ISTAT_OVERLAP : Fld := ⟨0x042104, 0, 1⟩
def MPU_IEN_IEN : Fld := ⟨0x042108, 0, 3⟩
def MPU_OVL_MASTER : Fld := ⟨0x04210C, 8, 5⟩
def MPU_OVL_RA : Fld := ⟨0x04210C, 4, 4⟩
def MPU_OVL_RB : Fld := ⟨0x04210C, 0, 4⟩
def MPU_DENY_COUNT : Fld := ⟨0x042110, 16, 16⟩
def MPU_DENY_FIXED : Fld := ⟨0x042110, 13, 1⟩
def MPU_DENY_NOMATCH : Fld := ⟨0x042110, 12, 1⟩
def MPU_DENY_USER : Fld := ⟨0x042110, 11, 1⟩
def MPU_DENY_WRITE : Fld := ⟨0x042110, 10, 1⟩
def MPU_DENY_MASTER : Fld := ⟨0x042110, 0, 5⟩
def MPU_DENYADDR_ADDR : Fld := ⟨0x042114, 0, 32⟩
def MPU_LOCK_LOCK : Fld := ⟨0x04211C, 0, 1⟩

/-! ### MEMCTL (R333) -/

def MEMCTL_ISTAT_COLLIDE : Fld := ⟨0x050000, 3, 1⟩
def MEMCTL_ISTAT_SCRUBUE : Fld := ⟨0x050000, 2, 1⟩
def MEMCTL_ISTAT_UE : Fld := ⟨0x050000, 1, 1⟩
def MEMCTL_ISTAT_CERATE : Fld := ⟨0x050000, 0, 1⟩
def MEMCTL_IEN_IEN : Fld := ⟨0x050004, 0, 4⟩
def MEMCTL_BUCKET_LEAK : Fld := ⟨0x050008, 8, 16⟩
def MEMCTL_BUCKET_LIMIT : Fld := ⟨0x050008, 0, 8⟩
def MEMCTL_SCRUB_EN : Fld := ⟨0x05000C, 31, 1⟩
def MEMCTL_SCRUB_PERIOD : Fld := ⟨0x05000C, 0, 11⟩
def MEMCTL_OVF_OVF (k : Nat) : Fld := ⟨0x050010 + 0x4 * k, 0, 32⟩
def MEMCTL_UEINST_VALID : Fld := ⟨0x050030, 31, 1⟩
def MEMCTL_UEINST_SCRUB : Fld := ⟨0x050030, 30, 1⟩
def MEMCTL_UEINST_MASTER : Fld := ⟨0x050030, 8, 5⟩
def MEMCTL_UEINST_INST : Fld := ⟨0x050030, 0, 8⟩
def MEMCTL_UEADDR_ADDR : Fld := ⟨0x050034, 0, 32⟩
def MEMCTL_COLL_COUNT : Fld := ⟨0x050040, 16, 16⟩
def MEMCTL_COLL_BMST : Fld := ⟨0x050040, 8, 5⟩
def MEMCTL_COLL_AMST : Fld := ⟨0x050040, 0, 5⟩
def MEMCTL_COLLADDR_ADDR : Fld := ⟨0x050044, 0, 32⟩
def MEMCTL_ETCTL_EN : Fld := ⟨0x050050, 31, 1⟩
def MEMCTL_ETCTL_INST : Fld := ⟨0x050050, 0, 8⟩
def MEMCTL_ETDXLO_DX : Fld := ⟨0x050054, 0, 32⟩
def MEMCTL_ETDXHI_DX : Fld := ⟨0x050058, 0, 32⟩
def MEMCTL_ETCHK_CHKX : Fld := ⟨0x05005C, 0, 8⟩
def MEMCTL_ETSYN_NEW : Fld := ⟨0x050060, 31, 1⟩
def MEMCTL_ETSYN_KIND : Fld := ⟨0x050060, 25, 2⟩
def MEMCTL_ETSYN_WORD : Fld := ⟨0x050060, 8, 17⟩
def MEMCTL_ETSYN_SYN : Fld := ⟨0x050060, 0, 8⟩
def MEMCTL_LOCK_LOCK : Fld := ⟨0x05007C, 0, 1⟩
def MEMCTL_INST_CECNT (i : Nat) : Fld := ⟨0x050400 + 0x4 * i, 16, 16⟩
def MEMCTL_INST_UECNT (i : Nat) : Fld := ⟨0x050400 + 0x4 * i, 8, 8⟩
def MEMCTL_INST_BUCKET (i : Nat) : Fld := ⟨0x050400 + 0x4 * i, 0, 8⟩

/-! ### EVTMX (R372) -/

def EVTMX_ISTAT_ENREF : Fld := ⟨0x060000, 3, 1⟩
def EVTMX_ISTAT_LOOP : Fld := ⟨0x060000, 2, 1⟩
def EVTMX_ISTAT_COINC : Fld := ⟨0x060000, 1, 1⟩
def EVTMX_ISTAT_OVR : Fld := ⟨0x060000, 0, 1⟩
def EVTMX_IEN_IEN : Fld := ⟨0x060004, 0, 4⟩
def EVTMX_LOOPREC_VALID : Fld := ⟨0x060008, 31, 1⟩
def EVTMX_LOOPREC_CONS : Fld := ⟨0x060008, 16, 9⟩
def EVTMX_LOOPREC_PROD : Fld := ⟨0x060008, 0, 9⟩
def EVTMX_CHFLAG_FLAG (h : Nat) : Fld := ⟨0x060020 + 0x4 * h, 0, 32⟩
def EVTMX_LOCK_LOCK : Fld := ⟨0x06003C, 0, 1⟩
def EVTMX_PEN_PEN (n : Nat) : Fld := ⟨0x060100 + 0x10 * n, 0, 16⟩
def EVTMX_CNT_COINC (n : Nat) : Fld := ⟨0x060104 + 0x10 * n, 16, 16⟩
def EVTMX_CNT_COUNT (n : Nat) : Fld := ⟨0x060104 + 0x10 * n, 0, 16⟩
def EVTMX_STAMPLO_STAMP (n : Nat) : Fld := ⟨0x060108 + 0x10 * n, 0, 32⟩
def EVTMX_STAMPHI_STAMP (n : Nat) : Fld := ⟨0x06010C + 0x10 * n, 0, 32⟩
def EVTMX_CEN0_CEN (c : Nat) : Fld := ⟨0x061000 + 0x10 * c, 0, 32⟩
def EVTMX_CEN1_CEN (c : Nat) : Fld := ⟨0x061004 + 0x10 * c, 0, 32⟩
def EVTMX_CSTAT_WAITS (c : Nat) : Fld := ⟨0x061008 + 0x10 * c, 16, 6⟩
def EVTMX_CSTAT_COINC (c : Nat) : Fld := ⟨0x061008 + 0x10 * c, 2, 1⟩
def EVTMX_CSTAT_OVR (c : Nat) : Fld := ⟨0x061008 + 0x10 * c, 1, 1⟩
def EVTMX_CSTAT_PEND (c : Nat) : Fld := ⟨0x061008 + 0x10 * c, 0, 1⟩
def EVTMX_CCNT_OVRCNT (c : Nat) : Fld := ⟨0x06100C + 0x10 * c, 16, 16⟩
def EVTMX_CCNT_COINCCNT (c : Nat) : Fld := ⟨0x06100C + 0x10 * c, 0, 16⟩

/-! ### LANTERN (R252) -/

def LANTERN_TIMELO_TIME : Fld := ⟨0x070000, 0, 32⟩
def LANTERN_TIMEHI_TIME : Fld := ⟨0x070004, 0, 32⟩
def LANTERN_ISTAT_LOSS : Fld := ⟨0x070008, 16, 16⟩
def LANTERN_ISTAT_JUMP : Fld := ⟨0x070008, 0, 16⟩
def LANTERN_IEN_IEN : Fld := ⟨0x07000C, 0, 32⟩
def LANTERN_LOCK_LOCK : Fld := ⟨0x07001C, 0, 1⟩
def LANTERN_TBCFG_EN (t : Nat) : Fld := ⟨0x070100 + 0x40 * t, 31, 1⟩
def LANTERN_TBCFG_SRC (t : Nat) : Fld := ⟨0x070100 + 0x40 * t, 29, 2⟩
def LANTERN_TBCFG_SEL (t : Nat) : Fld := ⟨0x070100 + 0x40 * t, 24, 5⟩
def LANTERN_TBCFG_POLES (t : Nat) : Fld := ⟨0x070100 + 0x40 * t, 20, 4⟩
def LANTERN_TBCFG_VSH (t : Nat) : Fld := ⟨0x070100 + 0x40 * t, 17, 3⟩
def LANTERN_TBCFG_STALE (t : Nat) : Fld := ⟨0x070100 + 0x40 * t, 0, 16⟩
def LANTERN_TBOFFSET_OFFSET (t : Nat) : Fld := ⟨0x070104 + 0x40 * t, 0, 32⟩
def LANTERN_TBHYST_HYST (t : Nat) : Fld := ⟨0x070108 + 0x40 * t, 0, 24⟩
def LANTERN_TBFREQ_FREQ (t : Nat) : Fld := ⟨0x07010C + 0x40 * t, 0, 32⟩
def LANTERN_TBMAINS_BW (t : Nat) : Fld := ⟨0x070110 + 0x40 * t, 16, 2⟩
def LANTERN_TBMAINS_NOM (t : Nat) : Fld := ⟨0x070110 + 0x40 * t, 0, 16⟩
def LANTERN_TBANGLE_ANGLE (t : Nat) : Fld := ⟨0x070114 + 0x40 * t, 0, 32⟩
def LANTERN_TBSTAT_HOLDOVER (t : Nat) : Fld := ⟨0x070118 + 0x40 * t, 19, 1⟩
def LANTERN_TBSTAT_HELD (t : Nat) : Fld := ⟨0x070118 + 0x40 * t, 18, 1⟩
def LANTERN_TBSTAT_LOCKED (t : Nat) : Fld := ⟨0x070118 + 0x40 * t, 17, 1⟩
def LANTERN_TBSTAT_VALID (t : Nat) : Fld := ⟨0x070118 + 0x40 * t, 16, 1⟩
def LANTERN_TBSTAT_REV (t : Nat) : Fld := ⟨0x070118 + 0x40 * t, 0, 16⟩
def LANTERN_TBVEL_VEL (t : Nat) : Fld := ⟨0x07011C + 0x40 * t, 0, 32⟩
def LANTERN_TBANGREV_REV (t : Nat) : Fld := ⟨0x070120 + 0x40 * t, 16, 16⟩
def LANTERN_TBANGREV_ANGLE (t : Nat) : Fld := ⟨0x070120 + 0x40 * t, 0, 16⟩
def LANTERN_TBLPOSA_ANGLE (t : Nat) : Fld := ⟨0x070124 + 0x40 * t, 0, 32⟩
def LANTERN_TBLPOSR_REVOK (t : Nat) : Fld := ⟨0x070128 + 0x40 * t, 16, 1⟩
def LANTERN_TBLPOSR_REV (t : Nat) : Fld := ⟨0x070128 + 0x40 * t, 0, 16⟩
def LANTERN_TBLTIMELO_TIME (t : Nat) : Fld := ⟨0x07012C + 0x40 * t, 0, 32⟩
def LANTERN_TBLTIMEHI_TIME (t : Nat) : Fld := ⟨0x070130 + 0x40 * t, 0, 32⟩
def LANTERN_TBADJ_ADJ (t : Nat) : Fld := ⟨0x070134 + 0x40 * t, 0, 32⟩
def LANTERN_GATE_GEN (n : Nat) : Fld := ⟨0x070800 + 0x4 * n, 16, 16⟩
def LANTERN_GATE_SENT (n : Nat) : Fld := ⟨0x070800 + 0x4 * n, 8, 8⟩
def LANTERN_GATE_ARMED (n : Nat) : Fld := ⟨0x070800 + 0x4 * n, 0, 8⟩
def LANTERN_CMPCFG_EN (c : Nat) : Fld := ⟨0x071000 + 0x20 * c, 31, 1⟩
def LANTERN_CMPCFG_MODE (c : Nat) : Fld := ⟨0x071000 + 0x20 * c, 8, 1⟩
def LANTERN_CMPCFG_DIR (c : Nat) : Fld := ⟨0x071000 + 0x20 * c, 4, 2⟩
def LANTERN_CMPCFG_TB (c : Nat) : Fld := ⟨0x071000 + 0x20 * c, 0, 4⟩
def LANTERN_CMPANGLE_ANGLE (c : Nat) : Fld := ⟨0x071004 + 0x20 * c, 0, 32⟩
def LANTERN_CMPPERIOD_PERIOD (c : Nat) : Fld := ⟨0x071008 + 0x20 * c, 0, 32⟩
def LANTERN_CMPSTAMPLO_STAMP (c : Nat) : Fld := ⟨0x07100C + 0x20 * c, 0, 32⟩
def LANTERN_CMPSTAMPHI_STAMP (c : Nat) : Fld := ⟨0x071010 + 0x20 * c, 0, 32⟩
def LANTERN_CMPSTAMPPOS_POS (c : Nat) : Fld := ⟨0x071014 + 0x20 * c, 0, 32⟩
def LANTERN_CMPSTAT_REV (c : Nat) : Fld := ⟨0x071018 + 0x20 * c, 16, 16⟩
def LANTERN_CMPSTAT_MISS (c : Nat) : Fld := ⟨0x071018 + 0x20 * c, 8, 8⟩
def LANTERN_CMPSTAT_FIRED (c : Nat) : Fld := ⟨0x071018 + 0x20 * c, 0, 1⟩

/-! ### PWM (R287) -/

def PWM_SYNC_SYNC : Fld := ⟨0x080000, 0, 12⟩
def PWM_LOCK_LOCK : Fld := ⟨0x08001C, 0, 1⟩
def PWM_CFG_EN (g : Nat) : Fld := ⟨0x080100 + 0x80 * g, 31, 1⟩
def PWM_CFG_CARR (g : Nat) : Fld := ⟨0x080100 + 0x80 * g, 30, 1⟩
def PWM_CFG_SHAPE (g : Nat) : Fld := ⟨0x080100 + 0x80 * g, 29, 1⟩
def PWM_CFG_LDE (g : Nat) : Fld := ⟨0x080100 + 0x80 * g, 27, 2⟩
def PWM_CFG_LDM (g : Nat) : Fld := ⟨0x080100 + 0x80 * g, 26, 1⟩
def PWM_CFG_INDEP (g : Nat) : Fld := ⟨0x080100 + 0x80 * g, 23, 3⟩
def PWM_CFG_TB (g : Nat) : Fld := ⟨0x080100 + 0x80 * g, 16, 4⟩
def PWM_CFG_DIV (g : Nat) : Fld := ⟨0x080100 + 0x80 * g, 0, 16⟩
def PWM_PERIOD_PERIOD (g : Nat) : Fld := ⟨0x080104 + 0x80 * g, 0, 28⟩
def PWM_PHASE_PHASE (g : Nat) : Fld := ⟨0x080108 + 0x80 * g, 0, 32⟩
def PWM_DT_DTL (g : Nat) : Fld := ⟨0x08010C + 0x80 * g, 16, 16⟩
def PWM_DT_DTH (g : Nat) : Fld := ⟨0x08010C + 0x80 * g, 0, 16⟩
def PWM_CMPA_CMP (g c : Nat) : Fld := ⟨0x080110 + 0x80 * g + 0x8 * c, 0, 28⟩
def PWM_CMPB_CMP (g c : Nat) : Fld := ⟨0x080114 + 0x80 * g + 0x8 * c, 0, 28⟩
def PWM_SAFE_SAFE (g : Nat) : Fld := ⟨0x080128 + 0x80 * g, 0, 12⟩
def PWM_TRIPSRC0_SRC (g : Nat) : Fld := ⟨0x08012C + 0x80 * g, 0, 32⟩
def PWM_TRIPSRC1_SRC (g : Nat) : Fld := ⟨0x080130 + 0x80 * g, 0, 4⟩
def PWM_CTL_TRIPCLR (g : Nat) : Fld := ⟨0x080134 + 0x80 * g, 2, 1⟩
def PWM_CTL_FORCE (g : Nat) : Fld := ⟨0x080134 + 0x80 * g, 1, 1⟩
def PWM_CTL_RDY (g : Nat) : Fld := ⟨0x080134 + 0x80 * g, 0, 1⟩
def PWM_STAT_REPEAT (g : Nat) : Fld := ⟨0x080138 + 0x80 * g, 16, 16⟩
def PWM_STAT_CAUSE (g : Nat) : Fld := ⟨0x080138 + 0x80 * g, 8, 4⟩
def PWM_STAT_FORCED (g : Nat) : Fld := ⟨0x080138 + 0x80 * g, 0, 1⟩
def PWM_ISTAT_SHWR (g : Nat) : Fld := ⟨0x08013C + 0x80 * g, 5, 1⟩
def PWM_ISTAT_PINERR (g : Nat) : Fld := ⟨0x08013C + 0x80 * g, 4, 1⟩
def PWM_ISTAT_TBJ (g : Nat) : Fld := ⟨0x08013C + 0x80 * g, 3, 1⟩
def PWM_ISTAT_REPEAT (g : Nat) : Fld := ⟨0x08013C + 0x80 * g, 2, 1⟩
def PWM_ISTAT_TRIP (g : Nat) : Fld := ⟨0x08013C + 0x80 * g, 1, 1⟩
def PWM_ISTAT_LOAD (g : Nat) : Fld := ⟨0x08013C + 0x80 * g, 0, 1⟩
def PWM_IEN_IEN (g : Nat) : Fld := ⟨0x080140 + 0x80 * g, 0, 6⟩
def PWM_PIN_CMD (g : Nat) : Fld := ⟨0x080144 + 0x80 * g, 8, 6⟩
def PWM_PIN_LVL (g : Nat) : Fld := ⟨0x080144 + 0x80 * g, 0, 6⟩

/-! ### SDF (R298) -/

def SDF_SNAPMA0_MASK : Fld := ⟨0x090000, 0, 32⟩
def SDF_SNAPMA1_MASK : Fld := ⟨0x090004, 0, 4⟩
def SDF_SNAPMB0_MASK : Fld := ⟨0x090008, 0, 32⟩
def SDF_SNAPMB1_MASK : Fld := ⟨0x09000C, 0, 4⟩
def SDF_SNAPTALO_TIME : Fld := ⟨0x090010, 0, 32⟩
def SDF_SNAPTAHI_TIME : Fld := ⟨0x090014, 0, 32⟩
def SDF_SNAPTBLO_TIME : Fld := ⟨0x090018, 0, 32⟩
def SDF_SNAPTBHI_TIME : Fld := ⟨0x09001C, 0, 32⟩
def SDF_LOCK_LOCK : Fld := ⟨0x09003C, 0, 1⟩
def SDF_CFG_EN (n : Nat) : Fld := ⟨0x090100 + 0x20 * n, 31, 1⟩
def SDF_CFG_CKOUT (n : Nat) : Fld := ⟨0x090100 + 0x20 * n, 30, 1⟩
def SDF_CFG_EDGE (n : Nat) : Fld := ⟨0x090100 + 0x20 * n, 29, 1⟩
def SDF_CFG_RST (n : Nat) : Fld := ⟨0x090100 + 0x20 * n, 28, 1⟩
def SDF_CFG_CKDIV (n : Nat) : Fld := ⟨0x090100 + 0x20 * n, 20, 8⟩
def SDF_CFG_FOSR (n : Nat) : Fld := ⟨0x090100 + 0x20 * n, 14, 6⟩
def SDF_CFG_FCNT (n : Nat) : Fld := ⟨0x090100 + 0x20 * n, 10, 4⟩
def SDF_CFG_DEC (n : Nat) : Fld := ⟨0x090100 + 0x20 * n, 0, 9⟩
def SDF_FTHR_HI (n : Nat) : Fld := ⟨0x090104 + 0x20 * n, 16, 16⟩
def SDF_FTHR_LO (n : Nat) : Fld := ⟨0x090104 + 0x20 * n, 0, 16⟩
def SDF_DATA_DATA (n : Nat) : Fld := ⟨0x090108 + 0x20 * n, 0, 32⟩
def SDF_FAST_FAST (n : Nat) : Fld := ⟨0x09010C + 0x20 * n, 0, 16⟩
def SDF_ISTAT_CKLOSS (n : Nat) : Fld := ⟨0x090110 + 0x20 * n, 3, 1⟩
def SDF_ISTAT_TRIPH (n : Nat) : Fld := ⟨0x090110 + 0x20 * n, 2, 1⟩
def SDF_ISTAT_TRIPL (n : Nat) : Fld := ⟨0x090110 + 0x20 * n, 1, 1⟩
def SDF_ISTAT_DRDY (n : Nat) : Fld := ⟨0x090110 + 0x20 * n, 0, 1⟩
def SDF_IEN_IEN (n : Nat) : Fld := ⟨0x090114 + 0x20 * n, 0, 4⟩
def SDF_SNAPA_DATA (n : Nat) : Fld := ⟨0x090800 + 0x4 * n, 0, 32⟩
def SDF_SNAPB_DATA (n : Nat) : Fld := ⟨0x090900 + 0x4 * n, 0, 32⟩

/-! ### ADC (R304) -/

def ADC_CFG_EN (c : Nat) : Fld := ⟨0x0A0100 + 0x40 * c, 31, 1⟩
def ADC_CFG_TRIG (c : Nat) : Fld := ⟨0x0A0100 + 0x40 * c, 29, 2⟩
def ADC_CFG_LEN (c : Nat) : Fld := ⟨0x0A0100 + 0x40 * c, 8, 2⟩
def ADC_CFG_S3 (c : Nat) : Fld := ⟨0x0A0100 + 0x40 * c, 6, 2⟩
def ADC_CFG_S2 (c : Nat) : Fld := ⟨0x0A0100 + 0x40 * c, 4, 2⟩
def ADC_CFG_S1 (c : Nat) : Fld := ⟨0x0A0100 + 0x40 * c, 2, 2⟩
def ADC_CFG_S0 (c : Nat) : Fld := ⟨0x0A0100 + 0x40 * c, 0, 2⟩
def ADC_START_START (c : Nat) : Fld := ⟨0x0A0104 + 0x40 * c, 0, 1⟩
def ADC_RES_SEQCNT (c j : Nat) : Fld := ⟨0x0A0108 + 0x40 * c + 0x4 * j, 16, 16⟩
def ADC_RES_DATA (c j : Nat) : Fld := ⟨0x0A0108 + 0x40 * c + 0x4 * j, 0, 16⟩
def ADC_STAMPLO_STAMP (c : Nat) : Fld := ⟨0x0A0118 + 0x40 * c, 0, 32⟩
def ADC_STAMPHI_STAMP (c : Nat) : Fld := ⟨0x0A011C + 0x40 * c, 0, 32⟩
def ADC_ISTAT_SWOVR (c : Nat) : Fld := ⟨0x0A0120 + 0x40 * c, 1, 1⟩
def ADC_ISTAT_DONE (c : Nat) : Fld := ⟨0x0A0120 + 0x40 * c, 0, 1⟩
def ADC_IEN_IEN (c : Nat) : Fld := ⟨0x0A0124 + 0x40 * c, 0, 2⟩

/-! ### POSIF (R306) -/

def POSIF_CFG_EN (i : Nat) : Fld := ⟨0x0B0100 + 0x40 * i, 31, 1⟩
def POSIF_CFG_MODE (i : Nat) : Fld := ⟨0x0B0100 + 0x40 * i, 29, 2⟩
def POSIF_CFG_SPER (i : Nat) : Fld := ⟨0x0B0100 + 0x40 * i, 0, 16⟩
def POSIF_RES_PHC (i : Nat) : Fld := ⟨0x0B0104 + 0x40 * i, 8, 8⟩
def POSIF_RES_EXA (i : Nat) : Fld := ⟨0x0B0104 + 0x40 * i, 4, 4⟩
def POSIF_RES_EXF (i : Nat) : Fld := ⟨0x0B0104 + 0x40 * i, 0, 2⟩
def POSIF_ABZ_ZMODE (i : Nat) : Fld := ⟨0x0B0108 + 0x40 * i, 30, 2⟩
def POSIF_ABZ_FLT (i : Nat) : Fld := ⟨0x0B0108 + 0x40 * i, 27, 3⟩
def POSIF_ABZ_CPR (i : Nat) : Fld := ⟨0x0B0108 + 0x40 * i, 0, 24⟩
def POSIF_SSI_PAR (i : Nat) : Fld := ⟨0x0B010C + 0x40 * i, 31, 1⟩
def POSIF_SSI_GRAY (i : Nat) : Fld := ⟨0x0B010C + 0x40 * i, 30, 1⟩
def POSIF_SSI_MTB (i : Nat) : Fld := ⟨0x0B010C + 0x40 * i, 25, 5⟩
def POSIF_SSI_STB (i : Nat) : Fld := ⟨0x0B010C + 0x40 * i, 19, 6⟩
def POSIF_SSI_LEN (i : Nat) : Fld := ⟨0x0B010C + 0x40 * i, 13, 6⟩
def POSIF_SSI_CKDIV (i : Nat) : Fld := ⟨0x0B010C + 0x40 * i, 0, 10⟩
def POSIF_SSITIM_TLAT (i : Nat) : Fld := ⟨0x0B0110 + 0x40 * i, 16, 16⟩
def POSIF_SSITIM_MONO (i : Nat) : Fld := ⟨0x0B0110 + 0x40 * i, 8, 8⟩
def POSIF_SSITIM_DLY (i : Nat) : Fld := ⟨0x0B0110 + 0x40 * i, 0, 8⟩
def POSIF_POS_ANGLE (i : Nat) : Fld := ⟨0x0B0114 + 0x40 * i, 0, 32⟩
def POSIF_REV_SSTAT (i : Nat) : Fld := ⟨0x0B0118 + 0x40 * i, 24, 8⟩
def POSIF_REV_REVOK (i : Nat) : Fld := ⟨0x0B0118 + 0x40 * i, 16, 1⟩
def POSIF_REV_REV (i : Nat) : Fld := ⟨0x0B0118 + 0x40 * i, 0, 16⟩
def POSIF_COUNT_COUNT (i : Nat) : Fld := ⟨0x0B011C + 0x40 * i, 0, 32⟩
def POSIF_ISTAT_ZERR (i : Nat) : Fld := ⟨0x0B0120 + 0x40 * i, 4, 1⟩
def POSIF_ISTAT_SERR (i : Nat) : Fld := ⟨0x0B0120 + 0x40 * i, 3, 1⟩
def POSIF_ISTAT_QERR (i : Nat) : Fld := ⟨0x0B0120 + 0x40 * i, 2, 1⟩
def POSIF_ISTAT_AMPHI (i : Nat) : Fld := ⟨0x0B0120 + 0x40 * i, 1, 1⟩
def POSIF_ISTAT_AMPLO (i : Nat) : Fld := ⟨0x0B0120 + 0x40 * i, 0, 1⟩
def POSIF_IEN_IEN (i : Nat) : Fld := ⟨0x0B0124 + 0x40 * i, 0, 5⟩

/-! ### SAFEISL (R388) -/

def SAFEISL_STAT_SSTOPE : Fld := ⟨0x0C0000, 8, 2⟩
def SAFEISL_STAT_SSLATCH : Fld := ⟨0x0C0000, 7, 1⟩
def SAFEISL_STAT_BEACON : Fld := ⟨0x0C0000, 6, 1⟩
def SAFEISL_STAT_REACT : Fld := ⟨0x0C0000, 5, 1⟩
def SAFEISL_STAT_FORCE : Fld := ⟨0x0C0000, 4, 1⟩
def SAFEISL_STAT_LANES : Fld := ⟨0x0C0000, 0, 3⟩
def SAFEISL_ISTAT_WREFUSED : Fld := ⟨0x0C0004, 6, 1⟩
def SAFEISL_ISTAT_LOGLOST : Fld := ⟨0x0C0004, 5, 1⟩
def SAFEISL_ISTAT_FC : Fld := ⟨0x0C0004, 0, 5⟩
def SAFEISL_IEN_IEN : Fld := ⟨0x0C0008, 0, 7⟩
def SAFEISL_INTPAIRS_PAIRS : Fld := ⟨0x0C000C, 0, 16⟩
def SAFEISL_SSTOP_FILT : Fld := ⟨0x0C0010, 0, 6⟩
def SAFEISL_TIMELO_TIME : Fld := ⟨0x0C0014, 0, 32⟩
def SAFEISL_TIMEHI_TIME : Fld := ⟨0x0C0018, 0, 32⟩
def SAFEISL_LOGHEAD_TOTAL : Fld := ⟨0x0C0020, 16, 16⟩
def SAFEISL_LOGHEAD_LOST : Fld := ⟨0x0C0020, 8, 8⟩
def SAFEISL_LOGHEAD_NEXT : Fld := ⟨0x0C0020, 0, 6⟩
def SAFEISL_CTL_CLRCNT : Fld := ⟨0x0C0024, 0, 1⟩
def SAFEISL_LOGREAD_ACK : Fld := ⟨0x0C0028, 16, 8⟩
def SAFEISL_LOGREAD_UNREAD : Fld := ⟨0x0C0028, 8, 7⟩
def SAFEISL_LOGREAD_OLDEST : Fld := ⟨0x0C0028, 0, 6⟩
def SAFEISL_LOCK_LOCK : Fld := ⟨0x0C003C, 0, 1⟩
def SAFEISL_REACT_COUNT (i : Nat) : Fld := ⟨0x0C0400 + 0x4 * i, 16, 16⟩
def SAFEISL_REACT_FLOOR (i : Nat) : Fld := ⟨0x0C0400 + 0x4 * i, 9, 3⟩
def SAFEISL_REACT_INHER (i : Nat) : Fld := ⟨0x0C0400 + 0x4 * i, 6, 3⟩
def SAFEISL_REACT_REACT (i : Nat) : Fld := ⟨0x0C0400 + 0x4 * i, 0, 3⟩
def SAFEISL_LOGW0_DETAIL (e : Nat) : Fld := ⟨0x0C0800 + 0x10 * e, 16, 16⟩
def SAFEISL_LOGW0_JNL (e : Nat) : Fld := ⟨0x0C0800 + 0x10 * e, 15, 1⟩
def SAFEISL_LOGW0_REACT (e : Nat) : Fld := ⟨0x0C0800 + 0x10 * e, 12, 3⟩
def SAFEISL_LOGW0_CLASS (e : Nat) : Fld := ⟨0x0C0800 + 0x10 * e, 8, 3⟩
def SAFEISL_LOGW0_INPUT (e : Nat) : Fld := ⟨0x0C0800 + 0x10 * e, 0, 8⟩
def SAFEISL_LOGW1_COUNT (e : Nat) : Fld := ⟨0x0C0804 + 0x10 * e, 0, 16⟩
def SAFEISL_LOGW2_TIME (e : Nat) : Fld := ⟨0x0C0808 + 0x10 * e, 0, 32⟩
def SAFEISL_LOGW3_TIME (e : Nat) : Fld := ⟨0x0C080C + 0x10 * e, 0, 32⟩

/-! ### KEEPER (R401) -/

def KEEPER_CFG_CLK : Fld := ⟨0x0D0000, 28, 1⟩
def KEEPER_CFG_UNIT : Fld := ⟨0x0D0000, 27, 1⟩
def KEEPER_CFG_HARD : Fld := ⟨0x0D0000, 20, 6⟩
def KEEPER_CFG_SVCP : Fld := ⟨0x0D0000, 16, 4⟩
def KEEPER_CFG_ACT : Fld := ⟨0x0D0000, 8, 4⟩
def KEEPER_WIN_CLOSE : Fld := ⟨0x0D0004, 16, 16⟩
def KEEPER_WIN_OPEN : Fld := ⟨0x0D0004, 0, 16⟩
def KEEPER_SVC_SVC : Fld := ⟨0x0D0008, 0, 16⟩
def KEEPER_STAT_TICK : Fld := ⟨0x0D000C, 16, 16⟩
def KEEPER_STAT_SERVED : Fld := ⟨0x0D000C, 3, 1⟩
def KEEPER_STAT_STATE : Fld := ⟨0x0D000C, 0, 3⟩
def KEEPER_ISTAT_PAUSE : Fld := ⟨0x0D0010, 6, 1⟩
def KEEPER_ISTAT_UNSUP : Fld := ⟨0x0D0010, 5, 1⟩
def KEEPER_ISTAT_FOREIGN : Fld := ⟨0x0D0010, 4, 1⟩
def KEEPER_ISTAT_TASK : Fld := ⟨0x0D0010, 3, 1⟩
def KEEPER_ISTAT_EXTRA : Fld := ⟨0x0D0010, 2, 1⟩
def KEEPER_ISTAT_DOUBLE : Fld := ⟨0x0D0010, 1, 1⟩
def KEEPER_ISTAT_EARLY : Fld := ⟨0x0D0010, 0, 1⟩
def KEEPER_KTIMELO_KTIME : Fld := ⟨0x0D0014, 0, 32⟩
def KEEPER_KTIMEHI_KTIME : Fld := ⟨0x0D0018, 0, 32⟩
def KEEPER_LASTSVCLO_LASTSVC : Fld := ⟨0x0D001C, 0, 32⟩
def KEEPER_LASTSVCHI_LASTSVC : Fld := ⟨0x0D0020, 0, 32⟩
def KEEPER_LASTCHK_VALID : Fld := ⟨0x0D0024, 31, 1⟩
def KEEPER_LASTCHK_LPAIR : Fld := ⟨0x0D0024, 8, 4⟩
def KEEPER_LASTCHK_TASK : Fld := ⟨0x0D0024, 0, 6⟩
def KEEPER_EVSTAT_VALID : Fld := ⟨0x0D0028, 31, 1⟩
def KEEPER_EVSTAT_JNL : Fld := ⟨0x0D0028, 30, 1⟩
def KEEPER_EVSTAT_CAUSE : Fld := ⟨0x0D0028, 0, 3⟩
def KEEPER_EVTIMELO_EVTIME : Fld := ⟨0x0D002C, 0, 32⟩
def KEEPER_EVTIMEHI_EVTIME : Fld := ⟨0x0D0030, 0, 32⟩
def KEEPER_PAUSE_COUNT : Fld := ⟨0x0D0034, 16, 16⟩
def KEEPER_PAUSE_LAST : Fld := ⟨0x0D0034, 0, 16⟩
def KEEPER_LOCK_LOCK : Fld := ⟨0x0D003C, 0, 1⟩
def KEEPER_TLO_FAIL (h : Nat) : Fld := ⟨0x0D0040 + 0x4 * h, 0, 32⟩
def KEEPER_THI_FAIL (h : Nat) : Fld := ⟨0x0D0048 + 0x4 * h, 0, 32⟩
def KEEPER_EVPC_VALID (p : Nat) : Fld := ⟨0x0D0080 + 0x4 * p, 31, 1⟩
def KEEPER_EVPC_LPAIR (p : Nat) : Fld := ⟨0x0D0080 + 0x4 * p, 16, 4⟩
def KEEPER_EVPC_RPC (p : Nat) : Fld := ⟨0x0D0080 + 0x4 * p, 0, 12⟩
def KEEPER_TASK_EN (t : Nat) : Fld := ⟨0x0D0100 + 0x4 * t, 31, 1⟩
def KEEPER_TASK_OWNER (t : Nat) : Fld := ⟨0x0D0100 + 0x4 * t, 24, 4⟩
def KEEPER_TASK_COUNT (t : Nat) : Fld := ⟨0x0D0100 + 0x4 * t, 16, 8⟩
def KEEPER_TASK_MAX (t : Nat) : Fld := ⟨0x0D0100 + 0x4 * t, 8, 8⟩
def KEEPER_TASK_MIN (t : Nat) : Fld := ⟨0x0D0100 + 0x4 * t, 0, 8⟩

/-! ### ETH (R449) -/

def ETH_ADDR_SEG : Fld := ⟨0x0E0000, 12, 6⟩
def ETH_ADDR_DEV : Fld := ⟨0x0E0000, 0, 12⟩
def ETH_STCFG_NOSYNCOK : Fld := ⟨0x0E0004, 31, 1⟩
def ETH_STCFG_MAXAGE : Fld := ⟨0x0E0004, 16, 15⟩
def ETH_STCFG_ETYPE : Fld := ⟨0x0E0004, 0, 16⟩
def ETH_VLAN_VID : Fld := ⟨0x0E0008, 0, 12⟩
def ETH_ISTAT_TXEMPTY : Fld := ⟨0x0E0010, 2, 1⟩
def ETH_ISTAT_DROP : Fld := ⟨0x0E0010, 1, 1⟩
def ETH_ISTAT_RXMSG : Fld := ⟨0x0E0010, 0, 1⟩
def ETH_IEN_IEN : Fld := ⟨0x0E0014, 0, 3⟩
def ETH_DROP_TAG : Fld := ⟨0x0E0018, 24, 8⟩
def ETH_DROP_KEY : Fld := ⟨0x0E0018, 16, 8⟩
def ETH_DROP_DST : Fld := ⟨0x0E0018, 8, 8⟩
def ETH_DROP_FMT : Fld := ⟨0x0E0018, 0, 8⟩
def ETH_DROP2_FULL : Fld := ⟨0x0E001C, 24, 8⟩
def ETH_DROP2_AGE : Fld := ⟨0x0E001C, 16, 8⟩
def ETH_DROP2_SEQ : Fld := ⟨0x0E001C, 8, 8⟩
def ETH_DROP2_PEER : Fld := ⟨0x0E001C, 0, 8⟩
def ETH_SWAGE_AGE : Fld := ⟨0x0E0020, 0, 16⟩
def ETH_LOCK_LOCK : Fld := ⟨0x0E003C, 0, 1⟩
def ETH_PORTCFG_EN (q : Nat) : Fld := ⟨0x0E0100 + 0x40 * q, 31, 1⟩
def ETH_PORTCFG_MS (q : Nat) : Fld := ⟨0x0E0100 + 0x40 * q, 29, 2⟩
def ETH_PORTCFG_DPCP (q : Nat) : Fld := ⟨0x0E0100 + 0x40 * q, 0, 3⟩
def ETH_PORTSTAT_LINK (q : Nat) : Fld := ⟨0x0E0104 + 0x40 * q, 4, 1⟩
def ETH_PORTSTAT_MSR (q : Nat) : Fld := ⟨0x0E0104 + 0x40 * q, 3, 1⟩
def ETH_PORTSTAT_SQI (q : Nat) : Fld := ⟨0x0E0104 + 0x40 * q, 0, 3⟩
def ETH_PORTCNT_OVS (q : Nat) : Fld := ⟨0x0E0108 + 0x40 * q, 16, 16⟩
def ETH_PORTCNT_DROP (q : Nat) : Fld := ⟨0x0E0108 + 0x40 * q, 0, 16⟩
def ETH_PORTISTAT_LINKCHG (q : Nat) : Fld := ⟨0x0E010C + 0x40 * q, 0, 1⟩
def ETH_PORTIEN_IEN (q : Nat) : Fld := ⟨0x0E0110 + 0x40 * q, 0, 1⟩
def ETH_GPTPCFG_GMCAP : Fld := ⟨0x0E0200, 31, 1⟩
def ETH_GPTPCFG_PRIO1 : Fld := ⟨0x0E0200, 16, 8⟩
def ETH_GPTPCFG_PPER : Fld := ⟨0x0E0200, 0, 16⟩
def ETH_GPTPSTAT_GM : Fld := ⟨0x0E0204, 1, 1⟩
def ETH_GPTPSTAT_SYNC : Fld := ⟨0x0E0204, 0, 1⟩
def ETH_GPTPSGTLO_SGT : Fld := ⟨0x0E0208, 0, 32⟩
def ETH_GPTPSGTHI_SGT : Fld := ⟨0x0E020C, 0, 32⟩
def ETH_GPTPSLTLO_SLT : Fld := ⟨0x0E0210, 0, 32⟩
def ETH_GPTPSLTHI_SLT : Fld := ⟨0x0E0214, 0, 32⟩
def ETH_PEERCFG_EN (n : Nat) : Fld := ⟨0x0E0400 + 0x10 * n, 31, 1⟩
def ETH_PEERCFG_SRC (n : Nat) : Fld := ⟨0x0E0400 + 0x10 * n, 0, 18⟩
def ETH_PEERHLO_H (n : Nat) : Fld := ⟨0x0E0404 + 0x10 * n, 0, 32⟩
def ETH_PEERHHI_H (n : Nat) : Fld := ⟨0x0E0408 + 0x10 * n, 0, 16⟩
def ETH_TXRBASE_BASE (r : Nat) : Fld := ⟨0x0E0800 + 0x10 * r, 5, 27⟩
def ETH_TXRCFG_GATED (r : Nat) : Fld := ⟨0x0E0804 + 0x10 * r, 31, 1⟩
def ETH_TXRCFG_SIZE (r : Nat) : Fld := ⟨0x0E0804 + 0x10 * r, 0, 12⟩
def ETH_TXRHEAD_HEAD (r : Nat) : Fld := ⟨0x0E0808 + 0x10 * r, 0, 12⟩
def ETH_TXRTAIL_TAIL (r : Nat) : Fld := ⟨0x0E080C + 0x10 * r, 0, 12⟩
def ETH_RXRBASE_BASE : Fld := ⟨0x0E0900, 5, 27⟩
def ETH_RXRCFG_RAW : Fld := ⟨0x0E0904, 31, 1⟩
def ETH_RXRCFG_SIZE : Fld := ⟨0x0E0904, 0, 12⟩
def ETH_RXRHEAD_HEAD : Fld := ⟨0x0E0908, 0, 12⟩
def ETH_RXRTAIL_TAIL : Fld := ⟨0x0E090C, 0, 12⟩

/-! ### CANXL (R453) -/

def CANXL_CFG_EN (k : Nat) : Fld := ⟨0x0F0100 + 0x100 * k, 31, 1⟩
def CANXL_CFG_TERM (k : Nat) : Fld := ⟨0x0F0100 + 0x100 * k, 30, 1⟩
def CANXL_CFG_LOM (k : Nat) : Fld := ⟨0x0F0100 + 0x100 * k, 29, 1⟩
def CANXL_CFG_AUTOREC (k : Nat) : Fld := ⟨0x0F0100 + 0x100 * k, 28, 1⟩
def CANXL_CFG_FMTS (k : Nat) : Fld := ⟨0x0F0100 + 0x100 * k, 26, 2⟩
def CANXL_NBT_PRE (k : Nat) : Fld := ⟨0x0F0104 + 0x100 * k, 24, 8⟩
def CANXL_NBT_SEG1 (k : Nat) : Fld := ⟨0x0F0104 + 0x100 * k, 16, 8⟩
def CANXL_NBT_SEG2 (k : Nat) : Fld := ⟨0x0F0104 + 0x100 * k, 8, 8⟩
def CANXL_NBT_SJW (k : Nat) : Fld := ⟨0x0F0104 + 0x100 * k, 0, 8⟩
def CANXL_DBT_PRE (k : Nat) : Fld := ⟨0x0F0108 + 0x100 * k, 24, 8⟩
def CANXL_DBT_SEG1 (k : Nat) : Fld := ⟨0x0F0108 + 0x100 * k, 16, 8⟩
def CANXL_DBT_SEG2 (k : Nat) : Fld := ⟨0x0F0108 + 0x100 * k, 8, 8⟩
def CANXL_DBT_SJW (k : Nat) : Fld := ⟨0x0F0108 + 0x100 * k, 0, 8⟩
def CANXL_XCFG_FAST (k : Nat) : Fld := ⟨0x0F010C + 0x100 * k, 31, 1⟩
def CANXL_CTL_RECOVER (k : Nat) : Fld := ⟨0x0F0110 + 0x100 * k, 0, 1⟩
def CANXL_STAT_RXLOST (k : Nat) : Fld := ⟨0x0F0114 + 0x100 * k, 24, 8⟩
def CANXL_STAT_REC (k : Nat) : Fld := ⟨0x0F0114 + 0x100 * k, 16, 8⟩
def CANXL_STAT_TEC (k : Nat) : Fld := ⟨0x0F0114 + 0x100 * k, 8, 8⟩
def CANXL_STAT_ESTATE (k : Nat) : Fld := ⟨0x0F0114 + 0x100 * k, 0, 2⟩
def CANXL_ISTAT_WAKE (k : Nat) : Fld := ⟨0x0F0118 + 0x100 * k, 3, 1⟩
def CANXL_ISTAT_BUSOFF (k : Nat) : Fld := ⟨0x0F0118 + 0x100 * k, 2, 1⟩
def CANXL_ISTAT_RXF (k : Nat) : Fld := ⟨0x0F0118 + 0x100 * k, 1, 1⟩
def CANXL_ISTAT_TXF (k : Nat) : Fld := ⟨0x0F0118 + 0x100 * k, 0, 1⟩
def CANXL_IEN_IEN (k : Nat) : Fld := ⟨0x0F011C + 0x100 * k, 0, 4⟩
def CANXL_TXBASE_BASE (k : Nat) : Fld := ⟨0x0F0120 + 0x100 * k, 5, 27⟩
def CANXL_TXCFG_GATED (k : Nat) : Fld := ⟨0x0F0124 + 0x100 * k, 31, 1⟩
def CANXL_TXCFG_SIZE (k : Nat) : Fld := ⟨0x0F0124 + 0x100 * k, 0, 12⟩
def CANXL_TXHEAD_HEAD (k : Nat) : Fld := ⟨0x0F0128 + 0x100 * k, 0, 12⟩
def CANXL_TXTAIL_TAIL (k : Nat) : Fld := ⟨0x0F012C + 0x100 * k, 0, 12⟩
def CANXL_RXBASE_BASE (k : Nat) : Fld := ⟨0x0F0130 + 0x100 * k, 5, 27⟩
def CANXL_RXCFG_SIZE (k : Nat) : Fld := ⟨0x0F0134 + 0x100 * k, 0, 12⟩
def CANXL_RXHEAD_HEAD (k : Nat) : Fld := ⟨0x0F0138 + 0x100 * k, 0, 12⟩
def CANXL_RXTAIL_TAIL (k : Nat) : Fld := ⟨0x0F013C + 0x100 * k, 0, 12⟩
def CANXL_FLTID_EN (k f : Nat) : Fld := ⟨0x0F0180 + 0x100 * k + 0x8 * f, 31, 1⟩
def CANXL_FLTID_ID (k f : Nat) : Fld := ⟨0x0F0180 + 0x100 * k + 0x8 * f, 0, 29⟩
def CANXL_FLTMASK_EN (k f : Nat) : Fld := ⟨0x0F0184 + 0x100 * k + 0x8 * f, 31, 1⟩
def CANXL_FLTMASK_MASK (k f : Nat) : Fld := ⟨0x0F0184 + 0x100 * k + 0x8 * f, 0, 29⟩
def CANXL_FLT2ID_EN (k f : Nat) : Fld := ⟨0x0F0800 + 0x80 * k + 0x8 * f, 31, 1⟩
def CANXL_FLT2ID_ID (k f : Nat) : Fld := ⟨0x0F0800 + 0x80 * k + 0x8 * f, 0, 29⟩
def CANXL_FLT2MASK_EN (k f : Nat) : Fld := ⟨0x0F0804 + 0x80 * k + 0x8 * f, 31, 1⟩
def CANXL_FLT2MASK_MASK (k f : Nat) : Fld := ⟨0x0F0804 + 0x80 * k + 0x8 * f, 0, 29⟩

/-! ### BUOY (R473) -/

def BUOY_LOCK_LOCK : Fld := ⟨0x10003C, 0, 1⟩
def BUOY_CFG_EN (k : Nat) : Fld := ⟨0x101000 + 0x1000 * k, 31, 1⟩
def BUOY_CFG_LINEOK (k : Nat) : Fld := ⟨0x101000 + 0x1000 * k, 30, 1⟩
def BUOY_CFG_FAILMAX (k : Nat) : Fld := ⟨0x101000 + 0x1000 * k, 16, 6⟩
def BUOY_CFG_LEAD (k : Nat) : Fld := ⟨0x101000 + 0x1000 * k, 0, 16⟩
def BUOY_CTL_START (k : Nat) : Fld := ⟨0x101004 + 0x1000 * k, 8, 8⟩
def BUOY_CTL_ENUM (k : Nat) : Fld := ⟨0x101004 + 0x1000 * k, 0, 1⟩
def BUOY_STAT_COUNT (k : Nat) : Fld := ⟨0x101008 + 0x1000 * k, 16, 10⟩
def BUOY_STAT_WAITING (k : Nat) : Fld := ⟨0x101008 + 0x1000 * k, 8, 8⟩
def BUOY_STAT_LIST (k : Nat) : Fld := ⟨0x101008 + 0x1000 * k, 5, 3⟩
def BUOY_STAT_LINE (k : Nat) : Fld := ⟨0x101008 + 0x1000 * k, 4, 1⟩
def BUOY_STAT_BUSY (k : Nat) : Fld := ⟨0x101008 + 0x1000 * k, 3, 1⟩
def BUOY_STAT_ENUMBUSY (k : Nat) : Fld := ⟨0x101008 + 0x1000 * k, 2, 1⟩
def BUOY_RLAT_RLAT (k : Nat) : Fld := ⟨0x10100C + 0x1000 * k, 0, 24⟩
def BUOY_ENUMBUF_BASE (k : Nat) : Fld := ⟨0x101010 + 0x1000 * k, 4, 28⟩
def BUOY_ISTAT_PFAIL (k : Nat) : Fld := ⟨0x101020 + 0x1000 * k, 9, 1⟩
def BUOY_ISTAT_CMDREF (k : Nat) : Fld := ⟨0x101020 + 0x1000 * k, 8, 1⟩
def BUOY_ISTAT_LATE (k : Nat) : Fld := ⟨0x101020 + 0x1000 * k, 7, 1⟩
def BUOY_ISTAT_MEMERR (k : Nat) : Fld := ⟨0x101020 + 0x1000 * k, 6, 1⟩
def BUOY_ISTAT_TOOMANY (k : Nat) : Fld := ⟨0x101020 + 0x1000 * k, 5, 1⟩
def BUOY_ISTAT_ENUMDONE (k : Nat) : Fld := ⟨0x101020 + 0x1000 * k, 4, 1⟩
def BUOY_ISTAT_HEAL (k : Nat) : Fld := ⟨0x101020 + 0x1000 * k, 3, 1⟩
def BUOY_ISTAT_BREAK (k : Nat) : Fld := ⟨0x101020 + 0x1000 * k, 2, 1⟩
def BUOY_ISTAT_FAIL (k : Nat) : Fld := ⟨0x101020 + 0x1000 * k, 1, 1⟩
def BUOY_ISTAT_CYC (k : Nat) : Fld := ⟨0x101020 + 0x1000 * k, 0, 1⟩
def BUOY_IEN_IEN (k : Nat) : Fld := ⟨0x101024 + 0x1000 * k, 0, 10⟩
def BUOY_CNT_CRCERR (k : Nat) : Fld := ⟨0x101028 + 0x1000 * k, 16, 16⟩
def BUOY_CNT_TMOUT (k : Nat) : Fld := ⟨0x101028 + 0x1000 * k, 0, 16⟩
def BUOY_LAST_ABORT (k : Nat) : Fld := ⟨0x10102C + 0x1000 * k, 31, 1⟩
def BUOY_LAST_LIST (k : Nat) : Fld := ⟨0x10102C + 0x1000 * k, 24, 3⟩
def BUOY_LAST_FAILED (k : Nat) : Fld := ⟨0x10102C + 0x1000 * k, 16, 8⟩
def BUOY_LAST_CYCLES (k : Nat) : Fld := ⟨0x10102C + 0x1000 * k, 0, 16⟩
def BUOY_LISTBASE_BASE (k t : Nat) : Fld := ⟨0x101040 + 0x1000 * k + 0x8 * t, 4, 28⟩
def BUOY_LISTCNT_COUNT (k t : Nat) : Fld := ⟨0x101044 + 0x1000 * k + 0x8 * t, 0, 10⟩
def BUOY_T_EN (k a : Nat) : Fld := ⟨0x101800 + 0x1000 * k + 0x4 * a, 31, 1⟩
def BUOY_T_SIDE (k a : Nat) : Fld := ⟨0x101800 + 0x1000 * k + 0x4 * a, 29, 2⟩
def BUOY_T_FAILS (k a : Nat) : Fld := ⟨0x101800 + 0x1000 * k + 0x4 * a, 18, 6⟩
def BUOY_T_SEQ (k a : Nat) : Fld := ⟨0x101800 + 0x1000 * k + 0x4 * a, 12, 4⟩
def BUOY_T_RETRY (k a : Nat) : Fld := ⟨0x101800 + 0x1000 * k + 0x4 * a, 8, 2⟩
def BUOY_T_TMO (k a : Nat) : Fld := ⟨0x101800 + 0x1000 * k + 0x4 * a, 0, 8⟩

/-! ### TRUST (R484) -/

def TRUST_STAT_GRANT : Fld := ⟨0x110000, 18, 1⟩
def TRUST_STAT_OPINSTALL : Fld := ⟨0x110000, 17, 1⟩
def TRUST_STAT_OPCOSIGN : Fld := ⟨0x110000, 16, 1⟩
def TRUST_STAT_OROOT : Fld := ⟨0x110000, 12, 4⟩
def TRUST_STAT_IROOT : Fld := ⟨0x110000, 10, 2⟩
def TRUST_STAT_MROOT : Fld := ⟨0x110000, 8, 2⟩
def TRUST_STAT_ATTKEY : Fld := ⟨0x110000, 4, 2⟩
def TRUST_STAT_LCS : Fld := ⟨0x110000, 0, 3⟩
def TRUST_DEVUIDLO_DEVUID : Fld := ⟨0x110004, 0, 32⟩
def TRUST_DEVUIDHI_DEVUID : Fld := ⟨0x110008, 0, 32⟩
def TRUST_ARB_ARB : Fld := ⟨0x11000C, 0, 32⟩
def TRUST_FUSEARB_K : Fld := ⟨0x110010, 0, 8⟩
def TRUST_ATTNEXTLO_IDX : Fld := ⟨0x110014, 0, 32⟩
def TRUST_ATTNEXTHI_IDX : Fld := ⟨0x110018, 0, 8⟩
def TRUST_CTRLO_CTR (r : Nat) : Fld := ⟨0x110020 + 0x8 * r, 0, 32⟩
def TRUST_CTRHI_CTR (r : Nat) : Fld := ⟨0x110024 + 0x8 * r, 0, 32⟩
def TRUST_LASTCMD_PATH : Fld := ⟨0x110038, 18, 1⟩
def TRUST_LASTCMD_ROLE : Fld := ⟨0x110038, 16, 2⟩
def TRUST_LASTCMD_STATUS : Fld := ⟨0x110038, 8, 8⟩
def TRUST_LASTCMD_CODE : Fld := ⟨0x110038, 0, 8⟩
def TRUST_ISTAT_FUSE : Fld := ⟨0x110040, 7, 1⟩
def TRUST_ISTAT_ENTROPY : Fld := ⟨0x110040, 6, 1⟩
def TRUST_ISTAT_ATTLOW : Fld := ⟨0x110040, 5, 1⟩
def TRUST_ISTAT_GRANTCHG : Fld := ⟨0x110040, 4, 1⟩
def TRUST_ISTAT_KEYSET : Fld := ⟨0x110040, 3, 1⟩
def TRUST_ISTAT_ROOTCHG : Fld := ⟨0x110040, 2, 1⟩
def TRUST_ISTAT_ARBUP : Fld := ⟨0x110040, 1, 1⟩
def TRUST_ISTAT_SIGFAIL : Fld := ⟨0x110040, 0, 1⟩
def TRUST_IEN_IEN : Fld := ⟨0x110044, 0, 8⟩
def TRUST_SIGCNT_FRAGLOST : Fld := ⟨0x110048, 24, 8⟩
def TRUST_SIGCNT_REPLAY : Fld := ⟨0x110048, 16, 8⟩
def TRUST_SIGCNT_SIGFAIL : Fld := ⟨0x110048, 0, 16⟩
def TRUST_ATTPK_PK (w : Nat) : Fld := ⟨0x110100 + 0x4 * w, 0, 32⟩

/-! ### NVS (R516) -/

def NVS_STAT_GEN : Fld := ⟨0x120000, 16, 16⟩
def NVS_STAT_FILL : Fld := ⟨0x120000, 8, 8⟩
def NVS_STAT_CHAINOK : Fld := ⟨0x120000, 4, 1⟩
def NVS_STAT_COMPACT : Fld := ⟨0x120000, 3, 1⟩
def NVS_STAT_SLOTBUSY : Fld := ⟨0x120000, 2, 1⟩
def NVS_STAT_AREA : Fld := ⟨0x120000, 0, 1⟩
def NVS_SEALLO_SEQ : Fld := ⟨0x120004, 0, 32⟩
def NVS_SEALHI_SEQ : Fld := ⟨0x120008, 0, 16⟩
def NVS_CFG_PERIOD : Fld := ⟨0x12000C, 0, 10⟩
def NVS_APPEND_ADDR : Fld := ⟨0x120010, 0, 32⟩
def NVS_APSTAT_BUSY : Fld := ⟨0x120014, 31, 1⟩
def NVS_APSTAT_STATUS : Fld := ⟨0x120014, 0, 3⟩
def NVS_JSTAT_VFAIL : Fld := ⟨0x120018, 16, 16⟩
def NVS_JSTAT_SEALS : Fld := ⟨0x120018, 0, 16⟩
def NVS_SLOTCTL_GO : Fld := ⟨0x120020, 31, 1⟩
def NVS_SLOTCTL_REC : Fld := ⟨0x120020, 4, 8⟩
def NVS_SLOTCTL_TGT : Fld := ⟨0x120020, 2, 2⟩
def NVS_SLOTCTL_OP : Fld := ⟨0x120020, 0, 2⟩
def NVS_SRC_SRC : Fld := ⟨0x120024, 0, 32⟩
def NVS_OFF_OFF : Fld := ⟨0x120028, 0, 32⟩
def NVS_LEN_LEN : Fld := ⟨0x12002C, 0, 32⟩
def NVS_SLOTSTAT_BUSY : Fld := ⟨0x120030, 31, 1⟩
def NVS_SLOTSTAT_STATUS : Fld := ⟨0x120030, 0, 3⟩
def NVS_WEAR_JMAX : Fld := ⟨0x120040, 16, 16⟩
def NVS_WEAR_REMAP : Fld := ⟨0x120040, 8, 8⟩
def NVS_WEAR_SPARE : Fld := ⟨0x120040, 0, 8⟩
def NVS_ISTAT_WEAR : Fld := ⟨0x120048, 3, 1⟩
def NVS_ISTAT_FULL : Fld := ⟨0x120048, 2, 1⟩
def NVS_ISTAT_CHAIN : Fld := ⟨0x120048, 1, 1⟩
def NVS_ISTAT_JFAIL : Fld := ⟨0x120048, 0, 1⟩
def NVS_IEN_IEN : Fld := ⟨0x12004C, 0, 4⟩
def NVS_LOCK_LOCK : Fld := ⟨0x12007C, 0, 1⟩

/-! ### TEST (R528) -/

def TEST_BISTCTL_REPAIR : Fld := ⟨0x130000, 1, 1⟩
def TEST_BISTCTL_START : Fld := ⟨0x130000, 0, 1⟩
def TEST_BISTCFG_SCOPE : Fld := ⟨0x130004, 16, 2⟩
def TEST_BISTCFG_VSET : Fld := ⟨0x130004, 0, 12⟩
def TEST_BISTSTAT_BUSY : Fld := ⟨0x130008, 31, 1⟩
def TEST_BISTSTAT_STATUS : Fld := ⟨0x130008, 24, 3⟩
def TEST_BISTSTAT_LOST : Fld := ⟨0x130008, 16, 8⟩
def TEST_BISTSTAT_COUNT : Fld := ⟨0x130008, 0, 9⟩
def TEST_WCFG_SLICEOK : Fld := ⟨0x130010, 16, 16⟩
def TEST_WCFG_PERIOD : Fld := ⟨0x130010, 0, 11⟩
def TEST_WSTAT_OFFDROP : Fld := ⟨0x130014, 16, 16⟩
def TEST_WSTAT_LATE : Fld := ⟨0x130014, 8, 5⟩
def TEST_WSTAT_PASSES : Fld := ⟨0x130014, 0, 8⟩
def TEST_WFAIL_REC : Fld := ⟨0x130018, 0, 32⟩
def TEST_ISTAT_LATE : Fld := ⟨0x130020, 3, 1⟩
def TEST_ISTAT_LOOP : Fld := ⟨0x130020, 2, 1⟩
def TEST_ISTAT_LBIST : Fld := ⟨0x130020, 1, 1⟩
def TEST_ISTAT_MARCH : Fld := ⟨0x130020, 0, 1⟩
def TEST_IEN_IEN : Fld := ⟨0x130024, 0, 4⟩
def TEST_LOCK_LOCK : Fld := ⟨0x13003C, 0, 1⟩
def TEST_OFFER_BUDGET (p : Nat) : Fld := ⟨0x130040 + 0x4 * p, 0, 16⟩
def TEST_BISTRESLO_REC (n : Nat) : Fld := ⟨0x130100 + 0x8 * n, 0, 32⟩
def TEST_BISTRESHI_REC (n : Nat) : Fld := ⟨0x130104 + 0x8 * n, 0, 32⟩

/-! ### AGEING (R540) -/

def AGEING_STAT_HOURS : Fld := ⟨0x140000, 0, 32⟩
def AGEING_CFG_GUARD : Fld := ⟨0x140004, 0, 8⟩
def AGEING_SHORT_SHORT : Fld := ⟨0x140008, 0, 16⟩
def AGEING_ISTAT_MONITOR : Fld := ⟨0x140010, 2, 1⟩
def AGEING_ISTAT_RETIRE : Fld := ⟨0x140010, 1, 1⟩
def AGEING_ISTAT_SHORTFALL : Fld := ⟨0x140010, 0, 1⟩
def AGEING_IEN_IEN : Fld := ⟨0x140014, 0, 3⟩
def AGEING_LOCK_LOCK : Fld := ⟨0x14003C, 0, 1⟩
def AGEING_NEED_STEP (p : Nat) : Fld := ⟨0x140100 + 0x4 * p, 0, 6⟩
def AGEING_PAIR_SLACK (n : Nat) : Fld := ⟨0x140200 + 0x4 * n, 24, 8⟩
def AGEING_PAIR_VMV (n : Nat) : Fld := ⟨0x140200 + 0x4 * n, 12, 12⟩
def AGEING_PAIR_NBTI (n : Nat) : Fld := ⟨0x140200 + 0x4 * n, 6, 6⟩
def AGEING_PAIR_STEP (n : Nat) : Fld := ⟨0x140200 + 0x4 * n, 0, 6⟩

/-! ### DEBUG (R553) -/

def DEBUG_STAT_HALTED : Fld := ⟨0x150000, 16, 16⟩
def DEBUG_STAT_SESSION : Fld := ⟨0x150000, 0, 1⟩
def DEBUG_CFG_IDLE : Fld := ⟨0x150004, 0, 16⟩
def DEBUG_ISTAT_HALT : Fld := ⟨0x150008, 3, 1⟩
def DEBUG_ISTAT_DENY : Fld := ⟨0x150008, 2, 1⟩
def DEBUG_ISTAT_LINE : Fld := ⟨0x150008, 1, 1⟩
def DEBUG_ISTAT_SESSION : Fld := ⟨0x150008, 0, 1⟩
def DEBUG_IEN_IEN : Fld := ⟨0x15000C, 0, 4⟩
def DEBUG_CNT_DENY : Fld := ⟨0x150010, 16, 16⟩
def DEBUG_CNT_LINE : Fld := ⟨0x150010, 0, 16⟩
def DEBUG_RSTCNT_PULSES : Fld := ⟨0x150014, 0, 16⟩
def DEBUG_LOCK_LOCK : Fld := ⟨0x15003C, 0, 1⟩
def DEBUG_PSTAT_HALTED (p : Nat) : Fld := ⟨0x150100 + 0x100 * p, 31, 1⟩
def DEBUG_PSTAT_DEFER (p : Nat) : Fld := ⟨0x150100 + 0x100 * p, 30, 1⟩
def DEBUG_PSTAT_STEP (p : Nat) : Fld := ⟨0x150100 + 0x100 * p, 29, 1⟩
def DEBUG_PSTAT_CAUSE (p : Nat) : Fld := ⟨0x150100 + 0x100 * p, 20, 4⟩
def DEBUG_PSTAT_PPAIR (p : Nat) : Fld := ⟨0x150100 + 0x100 * p, 16, 4⟩
def DEBUG_PSTAT_NEXT (p : Nat) : Fld := ⟨0x150100 + 0x100 * p, 0, 12⟩
def DEBUG_COMPADDR_ADDR (p k : Nat) : Fld := ⟨0x150110 + 0x100 * p + 0x10 * k, 0, 32⟩
def DEBUG_COMPMASK_MASK (p k : Nat) : Fld := ⟨0x150114 + 0x100 * p + 0x10 * k, 0, 32⟩
def DEBUG_COMPCTL_EN (p k : Nat) : Fld := ⟨0x150118 + 0x100 * p + 0x10 * k, 31, 1⟩
def DEBUG_COMPCTL_KIND (p k : Nat) : Fld := ⟨0x150118 + 0x100 * p + 0x10 * k, 8, 2⟩
def DEBUG_COMPCTL_SLOTS (p k : Nat) : Fld := ⟨0x150118 + 0x100 * p + 0x10 * k, 0, 8⟩

/-! ### POWER (R71) -/

def POWER_STAT_PFCOMMIT : Fld := ⟨0x160000, 7, 1⟩
def POWER_STAT_PFAIL : Fld := ⟨0x160000, 6, 1⟩
def POWER_STAT_LOWIN : Fld := ⟨0x160000, 5, 1⟩
def POWER_STAT_PORTB_ON : Fld := ⟨0x160000, 4, 1⟩
def POWER_STAT_PORTA_ON : Fld := ⟨0x160000, 3, 1⟩
def POWER_STAT_SRC : Fld := ⟨0x160000, 0, 2⟩
def POWER_PFCFG_RIDE : Fld := ⟨0x160004, 0, 10⟩
def POWER_PFCNT_LOWCNT : Fld := ⟨0x160008, 16, 16⟩
def POWER_PFCNT_RIDES : Fld := ⟨0x160008, 0, 16⟩
def POWER_VIN_VB : Fld := ⟨0x16000C, 16, 16⟩
def POWER_VIN_VA : Fld := ⟨0x16000C, 0, 16⟩
def POWER_TEMP_DIE : Fld := ⟨0x160010, 16, 16⟩
def POWER_TEMP_BASE : Fld := ⟨0x160010, 0, 16⟩
def POWER_ISTAT_PFSTART : Fld := ⟨0x160014, 5, 1⟩
def POWER_ISTAT_SUPOVL : Fld := ⟨0x160014, 4, 1⟩
def POWER_ISTAT_THHI : Fld := ⟨0x160014, 3, 1⟩
def POWER_ISTAT_THWARN : Fld := ⟨0x160014, 2, 1⟩
def POWER_ISTAT_PORTLOSS : Fld := ⟨0x160014, 1, 1⟩
def POWER_ISTAT_PFRIDE : Fld := ⟨0x160014, 0, 1⟩
def POWER_SUPCTL_V5ON : Fld := ⟨0x160018, 1, 1⟩
def POWER_SUPCTL_V3ON : Fld := ⟨0x160018, 0, 1⟩
def POWER_LOCK_LOCK : Fld := ⟨0x16001C, 0, 1⟩
def POWER_IEN_IEN : Fld := ⟨0x160020, 0, 5⟩

/-! ### DMA (R564) -/

def DMA_DONE_DONE (e : Nat) : Fld := ⟨0x171000 + 0x1000 * e, 0, 32⟩
def DMA_ERR_ERR (e : Nat) : Fld := ⟨0x171004 + 0x1000 * e, 0, 32⟩
def DMA_IEN_IEN (e : Nat) : Fld := ⟨0x171008 + 0x1000 * e, 0, 2⟩
def DMA_CHSRC_SRC (e j : Nat) : Fld := ⟨0x171100 + 0x1000 * e + 0x20 * j, 0, 32⟩
def DMA_CHDST_DST (e j : Nat) : Fld := ⟨0x171104 + 0x1000 * e + 0x20 * j, 0, 32⟩
def DMA_CHLEN_LEN (e j : Nat) : Fld := ⟨0x171108 + 0x1000 * e + 0x20 * j, 0, 24⟩
def DMA_CHCFG_EN (e j : Nat) : Fld := ⟨0x17110C + 0x1000 * e + 0x20 * j, 31, 1⟩
def DMA_CHCFG_GATED (e j : Nat) : Fld := ⟨0x17110C + 0x1000 * e + 0x20 * j, 30, 1⟩
def DMA_CHCFG_START (e j : Nat) : Fld := ⟨0x17110C + 0x1000 * e + 0x20 * j, 29, 1⟩
def DMA_CHCFG_SIO (e j : Nat) : Fld := ⟨0x17110C + 0x1000 * e + 0x20 * j, 28, 1⟩
def DMA_CHCFG_DIO (e j : Nat) : Fld := ⟨0x17110C + 0x1000 * e + 0x20 * j, 27, 1⟩
def DMA_CHSTAT_BUSY (e j : Nat) : Fld := ⟨0x171110 + 0x1000 * e + 0x20 * j, 31, 1⟩
def DMA_CHSTAT_SWOVR (e j : Nat) : Fld := ⟨0x171110 + 0x1000 * e + 0x20 * j, 30, 1⟩
def DMA_CHSTAT_CODE (e j : Nat) : Fld := ⟨0x171110 + 0x1000 * e + 0x20 * j, 0, 16⟩

end Sys2Proof.Machine
end

