-- ==== Sys2Proof/Machine/State.lean ====
section
/-! DEFINITION. State.lean: the state of the block: every register, memory, latch, queue and mode that the spec gives the
device, the commands that wait, the state after reset, and the reasons for which a step can stop. A structure field that
the spec does not name says so. -/

namespace Sys2Proof.Machine

/-! ### The fabric (chapter 11) -/

/-- A pair's request in the fabric: its sender, the physical pair that sent it, its execution mark, the arbitration points it has still to pass, the tick
at which it became its master's presented request at the first of them, the tick at which it became urgent, and the
address after the remap decode (R345, R347, R358, R573). -/
structure FabReq where
  id : Nat
  lpair : Nat
  phys : Nat
  mark : Nat
  req : PairReq
  target : Nat
  route : List Point
  since : Nat
  urgentAt : Option Nat := none
  /-- The mapping of SYSCTL.MAP.REMAP under which the request was decoded (R358). -/
  map : Bool := false
  /-- How often an engine's write has lost a collision (R339). -/
  losses : Nat := 0
deriving DecidableEq, Repr

/-- An entry of the lock table (R351): holder, bank, address of the `ldf.lock`, tick at which it was performed. -/
structure LockEnt where
  lpair : Nat
  inst : Nat
  addr : Nat
  since : Nat
deriving DecidableEq, Repr

/-- A denied access waiting to be answered (R364). -/
structure Denial where
  master : Nat
  addr : Nat
  write : Bool
  user : Bool
  fixed : Bool
  noMatch : Bool
  req : Option FabReq
deriving DecidableEq, Repr

/-- The response that a target holds to the last immediate-class access of a logical pair (R344): the request, its value,
its error code and a fill's words. -/
structure HeldAnswer where
  req : FabReq
  value : Nat
  code : Nat
  words : List DWord
deriving DecidableEq, Repr

/-- The fabric: waiting requests, requests granted their last point, the lock table, the broken marks and the response
that targets hold for each logical pair (R344, R351, R354). -/
structure FabricSt where
  nextId : Nat := 0
  waiting : List FabReq := []
  granted : List FabReq := []
  locks : List LockEnt := []
  broken : Nat := 0
  held : List HeldAnswer := []
  denials : List Denial := []
  /-- Requests of masters that are not pairs which have failed on their way, with the error code that their access ends with. -/
  ended : List (FabReq × Nat) := []
deriving DecidableEq, Repr

/-- A protection region in force (R362). -/
structure MpuRegion where
  en : Bool := false
  io : Bool := false
  u : Bool := false
  w : Bool := false
  r : Bool := false
  base : Nat := 0
  limit : Nat := 0
deriving DecidableEq, Repr

/-- A master's set in force (R365). -/
structure MpuSet where
  regions : List MpuRegion := []
  nodef : Bool := false
deriving DecidableEq, Repr

/-- The MPUs: the set in force of each master; and for each master the requests checked under sets that it replaced, and
the pairs whose commit buffers held entries checked under them, each with the checkpoint number whose release ends
them (R366). -/
structure MpuSt where
  sets : List (Nat × MpuSet) := []
  replaced : List (Nat × List Nat) := []
  buffered : List (Nat × List (Nat × Nat)) := []
deriving DecidableEq, Repr

/-! ### Memories (chapter 10) -/

/-- A correction waiting to be written back (R326): the memory instance and the word. -/
structure WriteBack where
  inst : Nat
  word : Nat
deriving DecidableEq, Repr

/-- The shared and cluster memories as one table of words keyed `instance * 2^17 + word`, the boot ROM's error state,
the pending write-backs, the scrubber's place and the tick of the last leak. -/
structure MemSt where
  ram : Ram := {}
  writeBacks : List WriteBack := []
  scrubInst : Nat := 0
  scrubWord : Nat := 0
  lastLeak : Nat := 0
deriving DecidableEq, Repr

/-! ### Event matrix (chapter 12) -/

/-- An event on its way to the matrix (R369, R370): producer, stamp (none where it is stamped on arrival), hop count, and
the consumer input of the trigger that started its task. -/
structure Ev where
  prod : Nat
  stamp : Option Nat := none
  hop : Nat := 0
  cons : Nat := 0
deriving DecidableEq, Repr

/-- A trigger held in, or on its way to, a consumer input's latch (R376, R377). -/
structure Trig where
  stamp : Nat
  hop : Nat
deriving DecidableEq, Repr

/-- A delivery in the next fc: the input, the trigger and whether it merges several events (R375, R376). -/
structure Deliv where
  input : Nat
  trig : Trig
  merged : Bool
deriving DecidableEq, Repr

/-- The event matrix: events produced and not yet arrived, deliveries due fc by fc, the pending latches, the counts W of
outstanding wait requests and the wait requests on their way (R377, R379). -/
structure EvtSt where
  produced : List Ev := []
  due : List (List Deliv) := []
  latch : List (Nat × Option Trig) := []
  waits : List (Nat × Nat) := []
  requests : List Nat := []
deriving DecidableEq, Repr

/-! ### Interrupt controllers (R175 to R178) -/

/-- One INTC: the pending edge sources, the lines as last seen, and the request last presented. -/
structure IntcSt where
  edges : Nat := 0
  lines : Nat := 0
  presented : Option (Nat × Nat) := none
deriving DecidableEq, Repr

/-! ### Safety island and Keeper (chapter 13) -/

/-- A presented fault input that the island has not processed: input, detail, and how many presentations it merges
(R387). -/
structure Presented where
  input : Nat
  detail : Nat
  count : Nat := 1
deriving DecidableEq, Repr

/-- The island: unprocessed presentations in order, the inputs sampled in the present CLK_ISL cycle and not yet processed
(R387), a RESET reaction whose device reset waits for the seal and what brought it, CLK_ISL on KOSC, as it is until the system
PLL locks (R20, R386), a cause kept for the next BOOT, the last hourly journal, the inputs that have had a record
above F1 (R399), as a mask, the SSTOP inputs (energised or not, R62), the ticks since which each has been de-energised
and since which the two have differed, and whether that difference has been presented. -/
structure IslandSt where
  presented : List Presented := []
  cycle : List Nat := []
  resetAfterSeal : Bool := false
  resetTrig : Nat := 0
  kosc : Bool := true
  keptCause : Option (Nat × Nat) := none
  lastHour : Nat := 0
  above : Nat := 0
  sstop : List (Nat × Bool) := []
  lowSince : List (Nat × Nat) := []
  differSince : Nat := 0
  differTold : Bool := false
deriving DecidableEq, Repr

/-- Keeper beside its registers: the tick at which it was enabled, tick 0 of the window, the start of a freeze, a cause
whose expiry has yet to take effect, and the hard timer's start (R404, R408, R410, R413). -/
structure KeeperSt where
  start : Nat := 0
  winStart : Nat := 0
  frozenAt : Option Nat := none
  expiring : Option Nat := none
  hardStart : Option Nat := none
deriving DecidableEq, Repr

/-! ### Power (chapter 2) -/

/-- The power supervisor: port voltages in 10 mV (as they are, and as VIN last took them), the ticks since which each
port has been at or above 36.0 V, the start of the power-fail sequence, the cut-off after a commit, the converter, the supply outputs and the temperatures in 1/16 °C. -/
structure PowerSt where
  va : Nat := 4800
  vb : Nat := 4800
  vinA : Nat := 4800
  vinB : Nat := 4800
  goodA : Option Nat := some 0
  goodB : Option Nat := some 0
  pfStart : Option Nat := none
  cut : Bool := false
  converter : Bool := true
  v3off : Bool := false
  v5off : Bool := false
  base : Int := 0
  dies : List Int := []
  /-- In reset until every die sensor reads 115.0 °C or below (R33). -/
  hotReset : Bool := false
deriving DecidableEq, Repr

/-! ### Lantern (chapter 8) -/

/-- A sample as a source delivers it (R255): angle in turns with 16 sub-angle bits where the source has them, revolution
count with its validity, Lantern time. -/
structure Sample where
  angle : Nat
  rev : Nat
  revOk : Bool
  time : Nat
deriving DecidableEq, Repr

/-- A timebase (R252 to R266): position and velocity, the position at the end of the lt before, whether this lt's move
detects crossings, the previous sample taken, the hold's target, the sums and samples waiting for a next lt. -/
structure Timebase where
  p : DWord := 0
  p0 : DWord := 0
  moved : Bool := false
  vel : Word := 0
  /-- The previous sample taken: scaled position and time. -/
  prev : Option (Nat × Nat) := none
  /-- The next sample sets VEL to its raw velocity (R258 step 2, R260). -/
  velFresh : Bool := true
  held : Option DWord := none
  valid : Bool := false
  locked : Bool := false
  everLocked : Bool := false
  holdover : Bool := false
  /-- The lt of the last sample taken, and of the last valid one. -/
  lastTaken : Option Nat := none
  lastValid : Nat := 0
  lossTold : Bool := false
  waiting : Option Sample := none
  adj : Int := 0
  adjAny : Bool := false
  /-- The mains channel's conversion last delivered: code and Lantern time (R265). -/
  conv : Option (Nat × Nat) := none
  /-- The detector's velocity last delivered within ±10 % of NOM (R265, R266). -/
  lockVel : Int := 0
  /-- The sampling instants of the channel's last 200 conversions, newest first (R265). -/
  convTimes : List Nat := []
  /-- Since when the phase error has stayed below 2^-8 turn within ±10 % of NOM, since when it has exceeded 2^-5 turn, and
  whether the frequency has left ±10 % of NOM (R265). -/
  goodSince : Option Nat := none
  badSince : Option Nat := none
  offFreq : Bool := false
  /-- After holdover, the timebase still moves towards the detector's output (R266). -/
  returning : Bool := false
  /-- P at the start of the lt before the present one, and whether that lt's move was searched (R289). -/
  q0 : DWord := 0
  qMoved : Bool := false
deriving DecidableEq, Repr

/-- A gate detector (R273, R274). -/
structure Detector where
  armed : Bool := false
  sent : Bool := false
  gen : Nat := 0
  tb : Nat := 0
  angle : Nat := 0
  down : Bool := false
  /-- The lt in which it was armed (R269). -/
  since : Nat := 0
deriving DecidableEq, Repr

/-- A comparator's target: its timebase, DIR, MODE, ANGLE and PERIOD, whether it is enabled, and the lt of its last arming
or firing (R269 to R271). -/
structure CmpTarget where
  tb : Nat
  dir : Nat
  periodic : Bool
  angle : Nat
  period : Nat
  en : Bool
  since : Nat
deriving DecidableEq, Repr

/-- The target that comparator `c` had before the writes of lt `lt`, and whether they wrote CFG or ANGLE (R272). -/
structure CmpOld where
  c : Nat
  lt : Nat
  was : CmpTarget
  wroteCfg : Bool
  wroteAngle : Bool
deriving DecidableEq, Repr

/-- Lantern: its count of lt, the timebases, the lt of each comparator's last arming or firing, the targets written in the
present lt, and the 128 detectors (8n + k). -/
structure LanternSt where
  lt : Nat := 0
  tbs : List (Nat × Timebase) := []
  cmpSince : List (Nat × Nat) := []
  cmpOld : List CmpOld := []
  dets : List (Nat × Detector) := []
deriving DecidableEq, Repr

/-! ### Drive I/O (chapter 9) -/

/-- The active set of a PWM group (R287). -/
structure ActiveSet where
  carr : Bool := false
  shape : Bool := false
  indep : Nat := 0
  tb : Nat := 0
  div : Nat := 1
  period : Nat := 96000
  phase : Nat := 0
  dtl : Nat := 0
  dth : Nat := 0
  cmpA : List Nat := [0, 0, 0]
  cmpB : List Nat := [0, 0, 0]
deriving DecidableEq, Repr

/-- A valley or a peak of a carrier: its lt and edge step in it, and the shadow set and RDY at the start of that lt
(R287). -/
structure PwmEvent where
  lt : Nat
  step : Nat
  set : ActiveSet
  rdy : Bool
deriving DecidableEq, Repr

/-- One lt of a carrier whose outputs are still to be computed: the positions after its edge steps under the active set
before a load in it, and those under the set after it. -/
structure PwmLt where
  lt : Nat
  old : ActiveSet
  oldKs : List Nat
  act : ActiveSet
  ks : List Nat
deriving DecidableEq, Repr

/-- A PWM group beside its registers: carrier position, active set, trip latch, outputs held at their safe levels
since a tick (R291, R293), each output's edge steps since its reference rose and the mask of those that are high (R282),
the carrier's lts whose outputs are still to be computed and the levels at the ends of the 3 before them (R284), the
valleys and peaks passed and not yet acted on (R280), the pins that something outside holds, their levels, and how many
lt each pin has differed from its command (R294). -/
structure PwmGroup where
  k : Nat := 0
  act : ActiveSet := {}
  running : Bool := false
  trip : Bool := false
  safe : Bool := true
  forcedAt : Nat := 0
  rise : List Nat := [0, 0, 0, 0, 0, 0]
  high : Nat := 0
  todo : List PwmLt := []
  pipe : List Nat := [0, 0, 0]
  /-- The last lt that the carrier has passed or that it skips (R285). -/
  done : Nat := 0
  /-- The shadow set and RDY at the start of the present lt, and the lt in which RDY was last set (R287). -/
  shadow : ActiveSet := {}
  rdy : Bool := false
  rdyAt : Option Nat := none
  valleys : List PwmEvent := []
  peaks : List PwmEvent := []
  stuck : Nat := 0
  stuckLvl : Nat := 0
  differ : List Nat := [0, 0, 0, 0, 0, 0]
deriving DecidableEq, Repr

/-- An SDF input: the modulator bits, newest first, the clocks since enabling and until the next output, consecutive
clocks beyond each threshold, and the trip and clock-loss conditions (R297 to R301). -/
structure SdfInput where
  bits : List Bool := []
  /-- At most 768, three times the greatest DEC. -/
  clocks : Nat := 0
  toNext : Nat := 0
  hiRun : Nat := 0
  loRun : Nat := 0
  high : Bool := false
  low : Bool := false
  lost : Bool := false
  lastClock : Nat := 0
deriving DecidableEq, Repr

/-- A running ADC sequence: first edge t0, the inputs of its slots, and the trigger that started it (R304, R305). -/
structure AdcSeq where
  t0 : Nat
  slots : List Nat
  trig : Option Trig
deriving DecidableEq, Repr

/-- An SAR converter: its running sequence, and the end of the one before where the next one starts there. -/
structure AdcSt where
  seq : Option AdcSeq := none
  lastEnd : Option Nat := none
deriving DecidableEq, Repr

/-- A position interface: ABZ count, levels and index state, the latest edge, the lt of the last delivery or of the start
of the last frame, and the end of the last SSI frame in Lantern time (R306 to R311). -/
structure PosIf where
  count : Int := 0
  a : Bool := false
  b : Bool := false
  zSeen : Bool := false
  edgeTime : Nat := 0
  edgeNew : Bool := false
  lastDeliver : Nat := 0
  frameEnd : Option Nat := none
deriving DecidableEq, Repr

/-- The drive I/O blocks. -/
structure DriveSt where
  pwm : List (Nat × PwmGroup) := []
  sdf : List (Nat × SdfInput) := []
  adc : List (Nat × AdcSt) := []
  pos : List (Nat × PosIf) := []
deriving DecidableEq, Repr

/-! ### Non-volatile store (chapter 18) -/

/-- A journal entry (R512): SEQ, TYPE, island time, the values that the entry records, and its payload bytes where a
chapter lays them out (software entries, EVIDENCE). -/
structure JEntry where
  seq : Nat
  type : Nat
  time : Nat
  args : List Nat := []
  body : List Byte := []
deriving DecidableEq, Repr

/-- A journal area (R510, R515): generation, programmed pages, the chain seed of its page 0, its sealed entries oldest
first, blocks still to be erased, and how often its blocks have been erased. -/
structure JArea where
  gen : Nat := 0
  pages : Nat := 0
  seed : List Byte := []
  entries : List JEntry := []
  eraseLeft : Nat := 0
  erases : Nat := 0
deriving DecidableEq, Repr

/-- A running operation on a slot or an evidence record (R525). -/
structure SlotOp where
  op : Nat
  tgt : Nat
  record : Nat
  src : Nat
  off : Nat
  len : Nat
deriving DecidableEq, Repr

/-- Bytes of the slots and the evidence area from `lo` to below `hi` whose contents the failed operation `num` has left
undefined (R525). -/
structure SpoiltRange where
  lo : Nat
  hi : Nat
  num : Nat
deriving DecidableEq, Repr

/-- The NV store engine: the two areas, which is active, the entries in the open-page buffer, the next SEQ, the tick of
the last seal, the address of the append in progress, the slot operation, the flash of the slots and the evidence
area (erased bytes read 0xFF), the pages programmed since their erase, and the blocks remapped (R511). -/
structure NvsSt where
  area0 : JArea := {}
  area1 : JArea := {}
  active : Bool := false
  opened : List JEntry := []
  nextSeq : Nat := 0
  lastSeal : Nat := 0
  append : Option Nat := none
  slotOp : Option SlotOp := none
  stoppedByPf : Bool := false
  flash : List (Nat × Byte) := []
  programmed : List (Nat × Bool) := []
  /-- Ranges of the flash with undefined contents. -/
  spoilt : List SpoiltRange := []
  remapped : Nat := 0
  /-- Pages that the BCH code cannot correct (R511). -/
  badPages : List (Nat × Bool) := []
  /-- Consecutive page verifications that failed (R516). -/
  verifyRun : Nat := 0
  /-- The tick at which S3 ended, until the chain is verified (R521). -/
  verifyFrom : Option Nat := none
  /-- An area filled while the other was not erased (R523). -/
  full : Bool := false
deriving DecidableEq, Repr

/-- What the journal's SUMMARY holds beside registers (R519): active slot, fail counts and causes, transport epoch, pair
states and steps, ARB, role counters, operator roots, transport keys, policy and next attestation block; and an attempt
that has neither an outcome nor a confirmation (R426). -/
structure Persist where
  actSlot : Bool := false
  actFail : Nat := 0
  altFail : Nat := 0
  actCause : Nat := 0
  altCause : Nat := 0
  attempt : Option Bool := none
  epoch : Nat := 0
  pairState : List (Nat × Nat) := []
  /-- Physical pairs unfenced and not yet through the slices of S7 (R249, R538), as a mask. -/
  unfenced : Nat := 0
  pairStep : List (Nat × Nat) := []
  arb : Nat := 0
  ctrs : List (Nat × Nat) := []
  opRoots : List (Nat × List Byte) := []
  /-- Transport keys K0 to K3, none where not installed (R490). -/
  keys : List (Nat × List Byte) := []
  opInstall : Bool := false
  opCosign : Bool := false
  attBlock : Nat := 0
  hours : Nat := 0
  bootConfirm : Nat := 500
  ethAddr : Nat := 0
  /-- A lifecycle transition whose intent has no completion (R485): the state that it enters. -/
  intent : Option Nat := none
deriving DecidableEq, Repr

/-! ### Modes and start-up (chapter 14) -/

/-- The start in progress: the device is in BOOT and S1 to S7 have yet to run, after a reset with the trigger `trig` (R416,
R419); the tick at which S7 ended and the BOOT_CONFIRM that runs from it, in units of 10 ms (R428); the running image (version, digest, SVN); the entry into STANDBY,
the start of its wait for releases, and its clocks stopped (R434). -/
structure ModeSt where
  starting : Bool := true
  trig : Nat := 0x10
  s7End : Option Nat := none
  confirm : Nat := 500
  imgVer : Nat := 0
  imgDigest : List Byte := []
  imgSvn : Nat := 0
  standbyAt : Option Nat := none
  waitFrom : Option Nat := none
  /-- Commands that wait while another is carried out, first in, first out: how each came, its code and argument (R420). -/
  waiting : List (CmdSrc × Nat × Nat) := []
  clocksOff : Bool := false
  /-- The tick at which the device entered FOG, for BEACON's pattern (R433). -/
  fogAt : Nat := 0
deriving DecidableEq, Repr

/-! ### Ethernet, CAN XL (chapter 15) -/

/-- An entry of the switch's learning table (R438). -/
structure Learned where
  mac : Nat
  port : Nat
  seen : Nat
deriving DecidableEq, Repr

/-- A frame in an egress queue (R438, R439): port, PCP and the frame. -/
structure Egress where
  port : Nat
  pcp : Nat
  frame : Frame
deriving DecidableEq, Repr

/-- The line of a T1 port: the tick until which it sends, and the frame that it sends or sent last. -/
structure PortLine where
  until_ : Nat := 0
  frame : Option Frame := none
deriving DecidableEq, Repr

/-- A frame at the host port, with the Lantern time and the gPTP time of its first bit (R449). -/
structure HostFrame where
  frame : Frame
  first : Nat
  gptp : Nat
deriving DecidableEq, Repr

/-- The switch, the host port and the transport (R438 to R451): static addresses, each with the ports that it names as a
mask, learned addresses, egress queues, the lines of ports 0 and 1, frames at the host port, each peer's
window, the 24-bit count of SEQ and whether it has wrapped, Sync intervals in a row inside and
outside the bound, the gPTP time measured last, the tick to which it belongs, whether there is one, the measured rate in ns
to a number of ticks, the ports on which the last interval's Sync was sent, and the time of the last pulse. -/
structure EthSt where
  statics : List (Nat × Nat) := []
  learned : List Learned := []
  egress : List Egress := []
  lines : List (Nat × PortLine) := []
  host : List HostFrame := []
  windows : List (Nat × Nat) := []
  count : Nat := 0
  wrapped : Bool := false
  inBound : Nat := 0
  outBound : Nat := 0
  gptp : Nat := 0
  gptpTick : Nat := 0
  gptpSeen : Bool := false
  rateN : Nat := 5
  rateD : Nat := 3
  syncSent : Nat := 0
  lastPulse : Nat := 0
deriving DecidableEq, Repr

/-- A CAN XL controller beside its registers: recovering from bus-off, the frame it sent last, and frames received that have
yet to be written into the RX ring. -/
structure CanSt where
  recovering : Bool := false
  sent : Option CanFrame := none
  received : List CanFrame := []
deriving DecidableEq, Repr

/-! ### Buoy ports (chapter 16) -/

/-- A transaction that has been sent (R469 to R471): descriptor, address, command, request payload, reply address and
length, STOP, SEQ, attempts made, the Lantern time S of its last sending, its deadline, and the pairs on which it was
sent. -/
structure BuoyTx where
  j : Nat
  addr : Nat
  cmd : Nat
  payload : List Byte
  rptr : Nat
  rlen : Nat
  stop : Bool
  seq : Nat := 0
  attempts : Nat := 0
  sentAt : Nat := 0
  deadline : Nat := 0
  onOut : Bool := true
  onReturn : Bool := false
  /-- The attempt has failed, or a break has come: it is sent again in the next slot. -/
  again : Bool := false
deriving DecidableEq, Repr

/-- A cycle (R473 to R476, R481): list, address and number of its descriptors, the next one, stamp, trigger, the earliest
start of the next frame, the transactions not yet final, the descriptors that failed, a WAIT that holds the cycle, and
why the cycle ends early: a STOP, a break without LINE mode, a memory failure. -/
structure BuoyCycle where
  list : Nat
  base : Nat
  count : Nat
  next : Nat := 0
  stamp : Nat
  trig : Option Trig
  earliest : Nat
  txs : List BuoyTx := []
  failed : Nat := 0
  waitUntil : Option Nat := none
  stopped : Bool := false
  memFail : Bool := false
deriving DecidableEq, Repr

/-- A Buoy port beside its registers: the cycle, lists waiting for a START with the stamp of the write, the broadcast
SEQ, slots that returned nothing in a row, a healed ring, the frames on the line last sent. -/
structure BuoySt where
  cycle : Option BuoyCycle := none
  starts : List (Nat × Nat) := []
  bseq : Nat := 0
  silent : Nat := 0
  healed : Bool := false
  /-- The partners whose BUOY_PFAIL was presented since their FAILS was last 0 (R472). -/
  told : List Nat := []
  /-- The bytes of the frame sent last and the pairs that it left on (out, return). -/
  sent : Option (List Byte × Bool × Bool) := none
deriving DecidableEq, Repr

/-! ### Trust (chapter 17) -/

/-- A block in reassembly (R492). -/
structure Reassembly where
  src : Nat
  id : Nat
  keyid : Nat
  cnt : Nat
  got : List (Nat × List Byte)
  first : Nat
deriving DecidableEq, Repr

/-- The payload of an accepted SIGNED message on its way to the island (R449, R492): source, key and bytes. -/
structure Fragment where
  src : Nat
  keyid : Nat
  bytes : List Byte
deriving DecidableEq, Repr

/-- A block that a row of R497 has brought as well formed and rightly signed: its code and fields, and for GENKEY the number of
its seeds. -/
structure RowBlock where
  code : Nat
  arg : SignedArg
  seeds : Nat
deriving DecidableEq, Repr

/-- A complete block that waits for its check, or is PENDING on the Tender wire (R493, R495): its bytes, or the row that has
brought it. -/
structure Block where
  bytes : List Byte
  via : SignedVia
  row : Option RowBlock := none
deriving DecidableEq, Repr

/-- A debug grant in force (R506). -/
structure Grant where
  pairs : Nat
  rights : Nat
  regions : List (Nat × Nat × Nat)
  start : Nat
  dur : Nat
deriving DecidableEq, Repr

/-- An answer to a signed block (R496): its path, code, status, counter, and the statement that ATTEST adds. -/
structure Answer where
  via : SignedVia
  code : Nat
  status : Nat
  ctr : Nat
  extra : List Byte := []
deriving DecidableEq, Repr

/-- The states of the attestation key (R502). -/
inductive AttKey where
  | none | generating | ready | destroyed
deriving DecidableEq, Repr

/-- The TRUST block: fuses (two per lifecycle bit, roots, revocations, wrap key, identity, anchors), the attestation key,
blocks in reassembly and waiting, the grant, the signature failures of the last second, the second of the last audit
entry, and the last answer (R484 to R508). -/
structure TrustSt where
  lcsFuses : List (Nat × Nat) := []
  devuid : Nat := 0
  makerRoots : List (Nat × List Byte) := []
  instRoots : List (Nat × List Byte) := []
  revoked : List (Nat × Bool) := []
  iwk : List Byte := []
  arbAnchor : Nat := 0
  attAnchor : Nat := 0
  att : AttKey := .none
  attSeed : Nat := 0
  attFrom : Nat := 0
  attNext : Nat := 0
  attEnd : Nat := 0
  frags : List Fragment := []
  parts : List Reassembly := []
  waiting : List Block := []
  grant : Option Grant := none
  /-- A device reset has ended a grant, and the journal does not yet hold its end (R506, R507). -/
  grantLost : Bool := false
  sigTimes : List Nat := []
  auditAt : Option Nat := none
  auditPend : Nat := 0
  answer : Option Answer := none
deriving DecidableEq, Repr

/-! ### Self-test, Watch and ageing (chapter 19) -/

/-- A logic slice that an offer has won (R536, R537): logical pair, physical pair, slice number, tick of arrival. -/
structure Offer where
  lpair : Nat
  phys : Nat
  since : Nat
deriving DecidableEq, Repr

/-- Self-test and Watch (R528 to R539): the run, its repairs, the repair fuses, the start of the period, what of it has
been covered, the place of the march, the slices done by each physical pair, offers accepted. -/
structure TestSt where
  bistFrom : Option Nat := none
  bistChecked : Option Nat := none
  planned : List DWord := []
  repairs : List DWord := []
  periodStart : Option Nat := none
  marched : List (Nat × Nat) := []
  romDone : Bool := false
  slices : List (Nat × Nat) := []
  cmpDone : Nat := 0
  loops : List (Nat × Bool) := []
  offers : List Offer := []
deriving DecidableEq, Repr

/-- Ageing (R540 to R544): each pair's replica slack and threshold drift, the ticks since which its slack has stayed low,
operating time in ticks, and the hours at the last planner run. -/
structure AgeSt where
  slack : List (Nat × Nat) := []
  nbti : List (Nat × Nat) := []
  lowSince : List (Nat × Option Nat) := []
  /-- Pairs whose present low slack has been presented, as a mask. -/
  lowTold : Nat := 0
  onTicks : Nat := 0
  planHours : Nat := 0
deriving DecidableEq, Repr

/-! ### Debug (chapter 20) -/

/-- A reply on the Tender wire (R549 to R551). -/
structure Reply where
  status : Nat
  tag : Nat
  payload : List Byte := []
deriving DecidableEq, Repr

/-- A READ or WRITE of the Tender wire (R555): which space, peek or live, address, count, and the bytes of a WRITE. -/
structure DebugReq where
  wr : Bool
  io : Bool
  live : Bool
  addr : Nat
  count : Nat
  data : List Byte
deriving DecidableEq, Repr

/-- The work of a command that has not ended (R550): its TAG, the result once there is one, and the transfer that waits
for a locked bank or for MPU.SYNC. -/
structure Work where
  tag : Nat
  result : Option Reply
  req : Option DebugReq := none
  /-- PENDING has been replied. -/
  told : Bool := false
deriving DecidableEq, Repr

/-- The debug interface: the last reply, the command whose work has not ended or whose result is held, the tick of the
last valid request, the last CMD, and the ticks of recent denials and line errors (R547 to R562). -/
structure DebugSt where
  reply : Option Reply := none
  work : Option Work := none
  lastValid : Nat := 0
  denyTimes : List Nat := []
  lineTimes : List Nat := []
  lastCmd : Nat := 0
deriving DecidableEq, Repr

/-! ### DMA (R564) -/

/-- A running transfer of a channel: the trigger that started it, none for a START; source, destination, bytes and spaces
as its registers held them when it started. -/
structure DmaRun where
  trig : Option Trig
  src : Nat
  dst : Nat
  len : Nat
  sio : Bool
  dio : Bool
deriving DecidableEq, Repr

/-! ### The device -/

/-- Everything but the queue of commands. `ticks` counts lt, 1/600 µs, since power-on; `free` numbers the free values used
(the model's own field, see Config). -/
structure Dev where
  ticks : Nat := 0
  free : Nat := 0
  io : List (Nat × Word) := []
  pairs : List Pair := []
  /-- The physical pair bound to each logical pair (R243). -/
  bind : List Nat := List.range 16
  /-- The physical pairs whose designated spare has been taken since it was designated (R246, R247), as a mask. -/
  spareGone : Nat := 0
  rom : List (Nat × DWord) := []
  fab : FabricSt := {}
  mpu : MpuSt := {}
  mem : MemSt := {}
  evt : EvtSt := {}
  intc : List (Nat × IntcSt) := []
  island : IslandSt := {}
  keeper : KeeperSt := {}
  power : PowerSt := {}
  lantern : LanternSt := {}
  drive : DriveSt := {}
  nvs : NvsSt := {}
  persist : Persist := {}
  start : ModeSt := {}
  /-- Each mirror's slots: 2·n is slot A and 2·n + 1 slot B of logical pair n (R236, R237). -/
  mirror : List (Nat × Slot) := []
  eth : EthSt := {}
  can : List (Nat × CanSt) := []
  buoy : List (Nat × BuoySt) := []
  trust : TrustSt := {}
  test : TestSt := {}
  age : AgeSt := {}
  tdr : DebugSt := {}
  dma : List (Nat × DmaRun) := []
deriving DecidableEq, Repr

/-- The state: the device, and the commands that wait, first in, first out. -/
structure State where
  pending : List Instr
  dev : Dev
deriving DecidableEq, Repr

/-- Why a step can stop as a fault. The spec answers every access and every command, so no command raises one; a closed
type without constructors says so (safe). -/
inductive Fault where
deriving DecidableEq, Repr

/-- Why a step can be refused. -/
inductive Refusal where
  /-- Raised by an arm of `exec` whose command has no meaning in the model yet (safe: nothing is claimed of it). -/
  | notModelled (mnemonic : String)
deriving DecidableEq, Repr

/-- The device right after power-on reset (R13): registers at their reset values, memories with every valid bit clear
(R321), mode BOOT (R416), the start-up steps S1 to S7 still to run (R424). -/
def Dev.reset : Dev := { pairs := List.replicate 16 {} }

/-- The state right after reset: nothing waits. -/
def State.reset : State := { pending := [], dev := Dev.reset }

end Sys2Proof.Machine
end

