-- ==== Sys2Proof/Machine/Ops.lean ====
section
/-! DEFINITION. Ops.lean: the named operations over the device that every block shares: registers, time, free values, fault
presentations, events, pairs and their binding, the journal, the force line and the mode. -/

namespace Sys2Proof.Machine

/-! ### Registers -/

/-- The stored word of a register. -/
def Dev.word (d : Dev) (a : Nat) : Word := ioGet d.io a

/-- The device with a register's stored word at `w`. -/
def Dev.setWord (d : Dev) (a : Nat) (w : Word) : Dev := { d with io := ioSet d.io a w }

/-- A field of a register. -/
def Dev.fld (d : Dev) (f : Fld) : Nat := ioFld d.io f

/-- The device with a field at `v`, cut to the field's width. -/
def Dev.setFld (d : Dev) (f : Fld) (v : Nat) : Dev := { d with io := ioSetFld d.io f v }

/-- A one-bit field as a truth value. -/
def Dev.on (d : Dev) (f : Fld) : Bool := d.fld f != 0

/-- The device with a one-bit flag set. -/
def Dev.flag (d : Dev) (f : Fld) : Dev := d.setFld f 1

/-- The device after a write of `w` to the register at `a`, its fields changing by their access codes (R14). -/
def Dev.storeReg (d : Dev) (a : Nat) (w : Word) : Dev :=
  match regAt a with
  | some (r, _) => { d with io := ioWriteReg d.io r a w }
  | none => d

/-- The device with bit `i` of a field set. -/
def Dev.setBitOf (d : Dev) (f : Fld) (i : Nat) : Dev := d.setFld f (withBit (d.fld f) i)

/-- The device with bit `i` of a field clear. -/
def Dev.clearBitOf (d : Dev) (f : Fld) (i : Nat) : Dev := d.setFld f (withoutBit (d.fld f) i)

/-- The device with a saturating count advanced by one: it stays at the field's highest value. -/
def Dev.count (d : Dev) (f : Fld) : Dev := d.setFld f (satInc (2 ^ f.w - 1) (d.fld f))

/-- The device with a 64-bit value in a low and a high register. -/
def Dev.setPair64 (d : Dev) (lo hi : Fld) (v : Nat) : Dev := (d.setFld lo v).setFld hi (v / 2 ^ 32)

/-- The 64-bit value of a low and a high register. -/
def Dev.fld64 (d : Dev) (lo hi : Fld) : Nat := d.fld lo + d.fld hi * 2 ^ 32

/-! ### Time: `ticks` counts lt of 1/600 µs -/

/-- Ticks of one µs and one ms. -/
def usTicks : Nat := 600
def msTicks : Nat := 600000

/-- Island time in µs (R399). -/
def Dev.islandTime (d : Dev) : Nat := d.ticks / usTicks

/-- Lantern time: 1/16 lt since CLK_LTN started (R254). -/
def Dev.lanternTime (d : Dev) : Nat := 16 * d.lantern.lt

/-- At least `n` ticks have passed since `t`. -/
def Dev.elapsed (d : Dev) (t n : Nat) : Bool := decide (t + n ≤ d.ticks)

/-! ### Free values -/

/-- The number of the next free value, and the device with it used. -/
def Dev.fresh (d : Dev) : Nat × Dev := (d.free, { d with free := d.free + 1 })

/-! ### Fault inputs (R387) -/

/-- The presentations with one more: an equal one not yet processed is merged with it (R387). -/
def addPresented : List Presented → Nat → Nat → List Presented
  | [], i, v => [{ input := i, detail := v }]
  | x :: t, i, v =>
    if x.input = i ∧ x.detail = v then { x with count := x.count + 1 } :: t else x :: addPresented t i v

/-- The device with a fault input presented to the island. -/
def Dev.present (d : Dev) (input detail : Nat) : Dev :=
  { d with island := { d.island with presented := addPresented d.island.presented input (detail % 65536) } }

/-! ### Events (R369, R370) -/

/-- The device with an event on its way to the matrix. -/
def Dev.produce (d : Dev) (e : Ev) : Dev := { d with evt := { d.evt with produced := d.evt.produced ++ [e] } }

/-- The latch of a consumer input (R377). -/
def Dev.latch (d : Dev) (c : Nat) : Option Trig := arrGet none d.evt.latch c

/-- The device with the latch of a consumer input at `v`. -/
def Dev.setLatch (d : Dev) (c : Nat) (v : Option Trig) : Dev :=
  { d with evt := { d.evt with latch := arrSet none d.evt.latch c v } }

/-! ### Pairs and their binding (R243) -/

/-- A physical pair. -/
def Dev.pair (d : Dev) (p : Nat) : Pair := nth {} d.pairs p

/-- The device with a physical pair at `x`. -/
def Dev.setPair (d : Dev) (p : Nat) (x : Pair) : Dev := { d with pairs := setNth d.pairs p x }

/-- The physical pair bound to a logical pair. -/
def Dev.physOf (d : Dev) (lp : Nat) : Nat := nth lp d.bind lp

/-- The logical pair bound to a physical pair, as PAIRCTL.ROLE shows it. -/
def Dev.lpairOf (d : Dev) (p : Nat) : Nat := d.fld (PAIRCTL_ROLE_LPAIR p)

/-- The states of a pair (PAIRCTL.ROLE.STATE). -/
def stOff : Nat := 0
def stActive : Nat := 1
def stSpare : Nat := 2
def stRecovering : Nat := 3
def stFenced : Nat := 4
def stRetired : Nat := 5

/-- The state of a physical pair. -/
def Dev.pairState (d : Dev) (p : Nat) : Nat := d.fld (PAIRCTL_ROLE_STATE p)

/-- The device with the state of a physical pair at `s`. -/
def Dev.setPairState (d : Dev) (p s : Nat) : Dev := d.setFld (PAIRCTL_ROLE_STATE p) s

/-- The pair runs: it is ACTIVE or RECOVERING, its clock runs. -/
def Dev.pairRuns (d : Dev) (p : Nat) : Bool :=
  (d.pairState p = stActive || d.pairState p = stRecovering) && !(d.pair p).clockOff

/-- The device with an input captured by physical pair `p`'s capture stage (R202). -/
def Dev.capture (d : Dev) (p : Nat) (c : CapInput) : Dev :=
  d.setPair p { d.pair p with capture := (d.pair p).capture ++ [c] }

/-- The device with pair fault `k` of physical pair `p` presented, its detail the segment count divided by 4 (R389). -/
def Dev.presentPair (d : Dev) (p k : Nat) : Dev := d.present (pairFault p k) ((d.pair p).segCount / 4)

/-! ### Modes (R414) -/

def modeBoot : Nat := 0
def modeConfig : Nat := 1
def modeRun : Nat := 2
def modeDegraded : Nat := 3
def modeSafeStop : Nat := 4
def modeStandby : Nat := 5
def modeFog : Nat := 6
def modeMaker : Nat := 7

/-- SYSCTL.STAT.MODE. -/
def Dev.mode (d : Dev) : Nat := d.fld SYSCTL_STAT_MODE

/-- RUN or DEGRADED. -/
def Dev.running (d : Dev) : Bool := d.mode = modeRun || d.mode = modeDegraded

/-- The register may be written only in BOOT and CONFIG, and the mode is one of them. -/
def Dev.configurable (d : Dev) : Bool := d.mode = modeBoot || d.mode = modeConfig

/-- Coverage holds (R415). -/
def Dev.covered (d : Dev) : Bool :=
  (bitsList (d.fld SYSCTL_NEED_NEED) 16).all (fun lp =>
    d.pairState (d.physOf lp) = stActive || d.pairState (d.physOf lp) = stRecovering)

/-- Some physical pair is FENCED or RETIRED (R414). -/
def Dev.anyLost (d : Dev) : Bool :=
  (List.range 16).any (fun p => d.pairState p = stFenced || d.pairState p = stRetired)

/-! ### The journal (R512 to R519) -/

/-- The active journal area. -/
def NvsSt.area (n : NvsSt) : JArea := if n.active then n.area1 else n.area0

/-- The store with its active area at `a`. -/
def NvsSt.setArea (n : NvsSt) (a : JArea) : NvsSt := if n.active then { n with area1 := a } else { n with area0 := a }

/-- The inactive area. -/
def NvsSt.other (n : NvsSt) : JArea := if n.active then n.area0 else n.area1

/-- The store with its inactive area at `a`. -/
def NvsSt.setOther (n : NvsSt) (a : JArea) : NvsSt := if n.active then { n with area0 := a } else { n with area1 := a }

/-- Pages of an area (R510: 128 blocks of 64 pages). -/
def areaPages : Nat := 8192

/-- What a SUMMARY records (R519). -/
def Persist.summary (p : Persist) : List Nat :=
  [if p.actSlot then 1 else 0, p.actFail, p.altFail, p.bootConfirm, p.ethAddr, p.epoch, p.arb, arrGet 0 p.ctrs 0,
   arrGet 0 p.ctrs 1, arrGet 0 p.ctrs 2, if p.opInstall then 1 else 0, if p.opCosign then 1 else 0, p.attBlock, p.hours]
    ++ (List.range 16).map (fun n => arrGet 0 p.pairState n) ++ (List.range 16).map (fun n => arrGet 48 p.pairStep n)
    ++ (p.opRoots ++ p.keys).flatMap (fun e => e.1 :: e.2.map BitVec.toNat)

/-- The entry types that are sealed before the action that wrote them goes on (R514). -/
def sealedType (t : Nat) : Bool :=
  t = 0x10 || t = 0x14 || t = 0x16 || (decide (0x20 ≤ t) && decide (t ≤ 0x26))
    || (decide (0x30 ≤ t) && decide (t ≤ 0x3B) && t != 0x3A) || t = 0x40

/-- The device with an entry in the open-page buffer. The first entry of a page whose index is a multiple of 64 is a
SUMMARY (R519). Nothing is added to a full journal (R523). -/
def Dev.addEntry (d : Dev) (type : Nat) (args : List Nat) (body : List Byte) : Dev :=
  let n := d.nvs
  if n.full then d
  else
    let summary := n.opened.isEmpty && n.area.pages % 64 = 0
    let first : List JEntry :=
      if summary then [{ seq := n.nextSeq, type := 1, time := d.islandTime, args := d.persist.summary }] else []
    let seq := if summary then n.nextSeq + 1 else n.nextSeq
    { d with nvs := { n with
        opened := n.opened ++ first ++ [{ seq := seq, type := type, time := d.islandTime, args := args, body := body }]
        nextSeq := (seq + 1) % 2 ^ 48 } }

/-- The device after the open-page buffer is programmed into the next page and `bad` pages before it failed their
verification (R516). Three failures in a row present NVS_JFAIL. An area that fills while the other is not erased refuses
every new entry (R523). -/
def Dev.sealPage (d : Dev) (bad : Nat) : Dev :=
  let n := d.nvs
  let a := n.area
  let run := n.verifyRun + bad
  let d := if 3 ≤ run then (d.present fiJfail (a.pages + bad)).flag NVS_ISTAT_JFAIL else d
  let d := d.setFld NVS_JSTAT_VFAIL (satAdd 65535 (d.fld NVS_JSTAT_VFAIL) bad)
  let pages := a.pages + bad + 1
  let overfull := decide (areaPages ≤ pages) && n.other.eraseLeft != 0
  let d := if overfull && !n.full then (d.present fiFull (if n.active then 1 else 0)).flag NVS_ISTAT_FULL else d
  let d := d.count NVS_JSTAT_SEALS
  { d with nvs := { (n.setArea { a with pages := min pages areaPages, entries := a.entries ++ n.opened }) with
      opened := [], lastSeal := d.ticks, verifyRun := 0, full := n.full || overfull } }

/-- The device with an entry journaled: an entry of a type marked S is sealed at once (R514, R516). -/
def Dev.journal (d : Dev) (type : Nat) (args : List Nat) (body : List Byte := []) : Dev :=
  if d.nvs.full then d
  else
    let d := d.addEntry type args body
    if sealedType type then d.sealPage 0 else d

/-- SEQ of the last sealed entry. -/
def NvsSt.sealedSeq (n : NvsSt) : Nat := n.nextSeq - n.opened.length - 1

/-! ### The force line (R396) -/

/-- A PWM group. -/
def Dev.group (d : Dev) (g : Nat) : PwmGroup := arrGet {} d.drive.pwm g

/-- The device with a PWM group at `x`. -/
def Dev.setGroup (d : Dev) (g : Nat) (x : PwmGroup) : Dev :=
  { d with drive := { d.drive with pwm := arrSet {} d.drive.pwm g x } }

/-- The device with a PWM group held at its safe levels (R291). Several causes act as one forcing (R293). -/
def Dev.forceGroup (d : Dev) (g : Nat) : Dev :=
  let G := d.group g
  d.setGroup g { G with safe := true, forcedAt := if G.safe then G.forcedAt else d.ticks }

/-- The device with the force line asserted: every group goes to its safe levels. -/
def Dev.assertForce (d : Dev) : Dev :=
  (List.range 12).foldl Dev.forceGroup (d.flag SAFEISL_STAT_FORCE)

/-- A cause demands the force line in RUN and DEGRADED (R396): a reaction in progress, a Keeper expiry, a committed power
failure. -/
def Dev.forceDemanded (d : Dev) : Bool :=
  d.on SAFEISL_STAT_REACT || d.fld KEEPER_STAT_STATE = 4 || d.on POWER_STAT_PFCOMMIT

/-- The device with the force line as the mode that it has entered has it (R396). -/
def Dev.forceByMode (d : Dev) : Dev :=
  if d.running && !d.forceDemanded then d.setFld SAFEISL_STAT_FORCE 0 else d.assertForce

/-! ### Keeper's states with the mode (R404) -/

/-- The ticks of one keeper tick (CFG.UNIT, R403). -/
def Dev.ktTicks (d : Dev) : Nat := if d.on KEEPER_CFG_UNIT then msTicks else usTicks

/-- The tasks of Keeper with every COUNT at zero. -/
def Dev.clearCounts (d : Dev) : Dev :=
  (List.range 64).foldl (fun d t => d.setFld (KEEPER_TASK_COUNT t) 0) d

/-- A fresh window at tick 0, every task count at zero and the window unserved (R404). -/
def Dev.freshWindow (d : Dev) : Dev :=
  let d := d.clearCounts.setFld KEEPER_STAT_SERVED 0
  { d with keeper := { d.keeper with winStart := d.ticks, frozenAt := none } }

/-- A mode in which Keeper watches. -/
def watchMode (m : Nat) : Bool := m = modeRun || m = modeDegraded || m = modeSafeStop

/-- Keeper as the device enters mode `m` (R404). -/
def Dev.keeperMode (d : Dev) (m : Nat) : Dev :=
  let st := d.fld KEEPER_STAT_STATE
  if st = 0 || st = 4 then d
  else if watchMode m then (if st = 1 then (d.setFld KEEPER_STAT_STATE 2).freshWindow else d)
  else { (d.setFld KEEPER_STAT_STATE 1) with keeper := { d.keeper with frozenAt := none } }

/-! ### Mode changes (R416 to R419) -/

/-- The triggers of mode changes (R416), as the model numbers them in its journal entries: a command, a pair lost with and
without coverage, a SAFE_STOP reaction, an SSTOP input, a committed power failure, a start that fails; and the causes of
a device reset. DESIGN CHOICE: the numbers. -/
def trigCommand : Nat := 1
def trigFence : Nat := 2
def trigCoverage : Nat := 3
def trigSafeStop : Nat := 4
def trigSstop : Nat := 5
def trigPower : Nat := 6
def trigStart : Nat := 7
def trigPowerOn : Nat := 0x10
def trigReaction : Nat := 0x11
def trigKeeper : Nat := 0x12
def trigLanes : Nat := 0x13
def trigTherm : Nat := 0x14
def trigPulse : Nat := 0x15
def trigResetCmd : Nat := 0x16
def trigWake : Nat := 0x17
def trigReturn : Nat := 0x18
def trigFog : Nat := 0x19
def trigConfirm : Nat := 0x1A
/-- A device reset that DEVICE_RESET reports without its cause. -/
def trigBare : Nat := 0x1F

/-- The device after a mode change (R419): PREV and MODE, the journal, the force line, Keeper, SSLATCH (R417), the Watch
period on leaving BOOT (R533), ECC test mode off outside its modes (R341). -/
def Dev.enterMode (d : Dev) (m trig : Nat) : Dev :=
  let old := d.mode
  let d := (d.setFld SYSCTL_STAT_PREV old).setFld SYSCTL_STAT_MODE m
  let d := if m = modeSafeStop then d.setFld SAFEISL_STAT_SSLATCH 0 else d
  let d := (d.journal 0x11 [old, m, trig]).keeperMode m
  let d := d.forceByMode
  let d := if m = modeBoot || m = modeConfig || m = modeMaker then d else d.setFld MEMCTL_ETCTL_EN 0
  if old = modeBoot && (m = modeConfig || watchMode m) then
    { d with test := { d.test with periodStart := some d.ticks } }
  else if m = modeStandby || m = modeFog || m = modeMaker then { d with test := { d.test with periodStart := none } }
  else d

/-- The device after a safe-stop cause with its trigger (R417): SAFE-STOP from RUN and DEGRADED; in BOOT, CONFIG, FOG,
STANDBY and MAKER-TEST the mode stays and SSLATCH is set. -/
def Dev.safeStopCause (d : Dev) (trig : Nat) : Dev :=
  let d := d.assertForce
  if d.running then d.enterMode modeSafeStop trig
  else if d.mode = modeSafeStop then d
  else d.flag SAFEISL_STAT_SSLATCH

/-- The device after a pair has become FENCED or RETIRED (R416). -/
def Dev.afterPairLost (d : Dev) : Dev :=
  if d.running && !d.covered then (d.assertForce).enterMode modeSafeStop trigCoverage
  else if d.mode = modeRun then d.enterMode modeDegraded trigFence
  else d

/-! ### Commands (R420 to R422) -/

/-- The device with SYSCTL.CMDSTAT reporting a command judged. -/
def Dev.cmdStat (d : Dev) (code status : Nat) : Dev :=
  ((d.setFld SYSCTL_CMDSTAT_CODE code).setFld SYSCTL_CMDSTAT_STATUS status).setFld SYSCTL_CMDSTAT_BUSY 0

/-- The device after a refusal (R422): counted and recorded; journaled where the command is protected. -/
def Dev.refuse (d : Dev) (code : Nat) (prot : Bool) : Dev :=
  let d := ((d.count SYSCTL_REFUSED_COUNT).setFld SYSCTL_REFUSED_MODE d.mode).setFld SYSCTL_REFUSED_CODE code
  if prot then d.journal 0x27 [code, d.mode] else d

/-- The code under which the refusal of a register write is recorded (SYSCTL.REFUSED). -/
def refusedWrite : Nat := 0xFF

/-! ### Running a command -/

/-- The device is held: its converter has stopped (R47), or it stays in reset until every die reads 115.0 °C or below
(R33). -/
def Dev.held (d : Dev) : Bool := !d.power.converter || d.power.hotReset

/-- The state with its device changed by what happens at its outside, held or not. -/
def State.onLine (s : State) (f : Dev → Dev) : Host.Outcome State Fault Refusal := .next { s with dev := f s.dev }

/-- The state with its device changed; a device that is held does nothing. -/
def State.onDev (s : State) (f : Dev → Dev) : Host.Outcome State Fault Refusal :=
  s.onLine (fun d => if d.held then d else f d)

/-- The same for a block whose clock stops in STANDBY (R20, R434): while the clocks are stopped, it does nothing. -/
def State.onClock (s : State) (f : Dev → Dev) : Host.Outcome State Fault Refusal :=
  s.onDev (fun d => if d.start.clocksOff then d else f d)

end Sys2Proof.Machine
end

