-- ==== Sys2Proof/Machine/Intc.lean ====
section
/-! DEFINITION. Intc.lean: the interrupt controllers (R175 to R178): sources, pending bits, presentation, acknowledgement. -/

namespace Sys2Proof.Machine

/-- A bit of the register at `istat` whose bit of the register at `ien` is 1. -/
def Dev.enabledFlag (d : Dev) (istat ien : Nat) : Bool := (d.word istat &&& d.word ien) != 0

/-- The line of level source `s` at logical pair `lp` (R178 and each block's rule: R71, R313, R333, R368, R383, R400, R456,
R482, R508, R527, R545, R562, R564). -/
def Dev.line (d : Dev) (lp s : Nat) : Bool :=
  if s = 0 then d.on POWER_ISTAT_PFSTART || d.enabledFlag 0x160014 0x160020
  else if s = 1 then (d.fld SAFEISL_INTPAIRS_PAIRS).testBit lp && d.enabledFlag 0x0C0004 0x0C0008
  else if s = 2 then d.enabledFlag 0x050000 0x050004
  else if s = 3 then d.enabledFlag 0x030088 0x03008C
  else if s = 4 then d.enabledFlag 0x042104 0x042108
  else if s = 5 then d.enabledFlag 0x060000 0x060004
  else if s = 6 then d.enabledFlag 0x070008 0x07000C
  else if s = 7 then d.enabledFlag 0x110040 0x110044
  else if s = 8 then d.enabledFlag 0x120048 0x12004C
  else if s = 9 then d.enabledFlag 0x130020 0x130024
  else if s = 10 then d.enabledFlag 0x140010 0x140014
  else if s = 11 then d.enabledFlag 0x150008 0x15000C
  else if s = 12 ∨ s = 13 then
    let e := s - 12
    ((d.fld (DMA_IEN_IEN e)).testBit 0 && d.fld (DMA_DONE_DONE e) != 0)
      || ((d.fld (DMA_IEN_IEN e)).testBit 1 && d.fld (DMA_ERR_ERR e) != 0)
  else if s < 16 then false
  else if s < 28 then d.enabledFlag (0x08013C + 0x80 * (s - 16)) (0x080140 + 0x80 * (s - 16))
  else if s < 64 then d.enabledFlag (0x090110 + 0x20 * (s - 28)) (0x090114 + 0x20 * (s - 28))
  else if s < 70 then d.enabledFlag (0x0A0120 + 0x40 * (s - 64)) (0x0A0124 + 0x40 * (s - 64))
  else if s < 82 then d.enabledFlag (0x0B0120 + 0x40 * (s - 70)) (0x0B0124 + 0x40 * (s - 70))
  else if s < 84 then d.enabledFlag (0x0E010C + 0x40 * (s - 82)) (0x0E0110 + 0x40 * (s - 82))
  else if s = 84 then d.enabledFlag 0x0E0010 0x0E0014
  else if s < 89 then d.enabledFlag (0x0F0118 + 0x100 * (s - 85)) (0x0F011C + 0x100 * (s - 85))
  else if s < 97 then d.enabledFlag (0x101020 + 0x1000 * (s - 89)) (0x101024 + 0x1000 * (s - 89))
  else false

/-- The sources that are edge sources: the matrix's channels and the software sources (R175, R372). DEDUCED: every other
source's chapter fixes it as a level source. -/
def edgeSource (s : Nat) : Bool := (decide (128 ≤ s) && decide (s < 192)) || (decide (248 ≤ s) && decide (s < 256))

/-- The sources that exist (R178). -/
def sourceExists (s : Nat) : Bool := decide (s < 14) || (decide (16 ≤ s) && decide (s < 97)) || edgeSource s

/-- One interrupt controller. -/
def Dev.intcOf (d : Dev) (n : Nat) : IntcSt := arrGet {} d.intc n

/-- The device with one interrupt controller at `x`. -/
def Dev.setIntc (d : Dev) (n : Nat) (x : IntcSt) : Dev := { d with intc := arrSet {} d.intc n x }

/-- Source `s` is pending at logical pair `n` (R175). -/
def Dev.pendingAt (d : Dev) (n s : Nat) : Bool :=
  if edgeSource s then (d.intcOf n).edges.testBit s else d.line n s

/-- One rising edge of edge source `s` at logical pair `n`: pending, or lost into an edge already pending (R175). -/
def Dev.edge (d : Dev) (n s : Nat) : Dev :=
  let x := d.intcOf n
  if x.edges.testBit s then d.setBitOf (INTC_LOST_LOST n (s / 32)) (s % 32)
  else d.setIntc n { x with edges := withBit x.edges s }

/-- The pending bit of edge source `s` cleared. -/
def Dev.clearEdge (d : Dev) (n s : Nat) : Dev :=
  let x := d.intcOf n
  d.setIntc n { x with edges := withoutBit x.edges s }

/-- The acknowledgements that a pair's core has made and that have not reached the controller: its acknowledged set, and
the sets in its commit buffer and under release (R177). -/
def Pair.ackedSet (x : Pair) : Nat :=
  ((x.lead.cb ++ x.rel).filter (fun e => e.kind == .ack)).foldl (fun m e => m ||| e.data) x.lead.acked

/-- The better of two candidates: the higher priority, then the lower number, the first being the lower. -/
def betterIrq (a : Option (Nat × Nat)) (b : Nat × Nat) : Option (Nat × Nat) :=
  match a with
  | some x => if x.2 < b.2 then some b else some x
  | none => some b

/-- The pending source of highest priority that the pair has not acknowledged, with its priority (R176). -/
def Dev.bestIrq (d : Dev) (n : Nat) : Option (Nat × Nat) :=
  let acked := (d.pair (d.physOf n)).ackedSet
  ((List.range 256).filter (fun s => sourceExists s && d.pendingAt n s && !(acked.testBit s)
      && d.fld (INTC_CFG_PRI n s) != 0)).foldl
    (fun a s => betterIrq a (s, d.fld (INTC_CFG_PRI n s))) none

/-- The acknowledgements of a released set: each edge source's pending bit is cleared (R177). -/
def Dev.acknowledge (d : Dev) (n set : Nat) : Dev :=
  ((bitsList set 256).filter edgeSource).foldl (fun d s => d.clearEdge n s) d

/-- Source `s` changes at logical pair `n` (R175): a rising edge of an edge source makes it pending or is lost; of a level
source the controller takes the level of its block's line. -/
def sourceEdge (n s : Nat) (d : Dev) : Dev :=
  if edgeSource s then d.edge n s
  else
    let x := d.intcOf n
    d.setIntc n { x with lines := if d.line n s then withBit x.lines s else withoutBit x.lines s }

/-- The controller presents its request to the pair bound to logical pair `n`, through the pair's capture stage (R176). -/
def presentIrq (n : Nat) (d : Dev) : Dev :=
  let r := d.bestIrq n
  let d := d.setIntc n { d.intcOf n with presented := r }
  d.capture (d.physOf n) (.irq r)

/-- A write to INTC.SWSET: one rising edge at each software source whose bit is 1 (R175). -/
def swset (n set : Nat) (d : Dev) : Dev := (bitsList set 8).foldl (fun d j => d.edge n (248 + j)) d

/-- INTERRUPT_SOURCE_EDGE (R175). -/
def execInterruptSourceEdge (n : Fin 16) (s : Fin 256) (st : State) : Host.Outcome State Fault Refusal :=
  st.onDev (sourceEdge n s)

/-- INTERRUPT_PRESENTATION (R176). -/
def execInterruptPresentation (n : Fin 16) (st : State) : Host.Outcome State Fault Refusal := st.onDev (presentIrq n)

/-- SWSET_WRITE (R175). -/
def execSwsetWrite (n : Fin 16) (set : BitVec 8) (st : State) : Host.Outcome State Fault Refusal :=
  st.onDev (swset n set.toNat)

end Sys2Proof.Machine
end

