-- ==== Sys2Proof/Machine/Events.lean ====
section
/-! DEFINITION. Events.lean: the event matrix (chapter 12): channels, consumer inputs, latches, waits and loops. -/

namespace Sys2Proof.Machine

/-- The consequence event of a task (R381): its hop is the starting trigger's plus 1, or 0 where no trigger started it. -/
def Dev.consequence (d : Dev) (prod cons : Nat) (trig : Option Trig) (stamp : Option Nat) : Dev :=
  d.produce { prod := prod, stamp := stamp, hop := (match trig with | some t => t.hop + 1 | none => 0), cons := cons }

/-- The device with the trigger in an input's latch taken by the consumer. -/
def Dev.takeLatch (d : Dev) (c : Nat) : Option Trig × Dev := (d.latch c, d.setLatch c none)

/-- W of a pair input (R379). -/
def Dev.waitsOf (d : Dev) (c : Nat) : Nat := arrGet 0 d.evt.waits c

/-- The device with W of an input at `n`. -/
def Dev.setWaits (d : Dev) (c n : Nat) : Dev := { d with evt := { d.evt with waits := arrSet 0 d.evt.waits c n } }

/-- The device with an event sent to the pair as a wait's completion (R379). -/
def Dev.sendWait (d : Dev) (c stamp : Nat) : Dev := d.capture (d.physOf (c / 8)) (.event c stamp)

/-! ### Channels (R371, R372) -/

/-- Producer `p` is wired to channel `n` and enabled there (R371). -/
def Dev.channelTakes (d : Dev) (n p : Nat) : Bool :=
  let pen := d.fld (EVTMX_PEN_PEN n)
  (p % 64 = n && pen.testBit (p / 64)) || (p / 8 = n && pen.testBit (8 + p % 8))

/-- The earliest stamp of a list that is not empty. -/
def minStamp : List Nat → Nat
  | [] => 0
  | [x] => x
  | x :: t => min x (minStamp t)

/-- What channel `n` emits of the events that reach the matrix (R372), and whether it merges several. -/
def Dev.channelEmit (d : Dev) (evs : List (Nat × Trig)) (n : Nat) : Option (Trig × Bool) :=
  match evs.filter (fun e => d.channelTakes n e.1) with
  | [] => none
  | es => some ({ stamp := minStamp (es.map (fun e => e.2.stamp)), hop := maxOf (es.map (fun e => e.2.hop)) },
      decide (2 ≤ es.length))

/-- The record of one emission (R372): counts, flags, stamp, and an edge of source 128 + n at every pair. -/
def Dev.emitted (d : Dev) (n : Nat) (t : Trig) (merged : Bool) : Dev :=
  let d := if merged then (d.count (EVTMX_CNT_COINC n)).flag EVTMX_ISTAT_COINC else d
  let d := (d.count (EVTMX_CNT_COUNT n)).setBitOf (EVTMX_CHFLAG_FLAG (n / 32)) (n % 32)
  let d := (d.setFld (EVTMX_STAMPLO_STAMP n) t.stamp).setFld (EVTMX_STAMPHI_STAMP n) (t.stamp / 2 ^ 32)
  (List.range 16).foldl (fun d lp => d.edge lp (128 + n)) d

/-- The consumer inputs whose CEN registers hold anything, rising: the others listen to no channel (R374). -/
def Dev.listeningInputs (d : Dev) : List Nat :=
  uniq ((d.io.filter (fun e => decide (0x061000 ≤ e.1) && decide (e.1 < 0x062800) && decide (e.1 % 16 < 8))).map
    (fun e => (e.1 - 0x061000) / 16))

/-- Input `c` listens to channel `n`. -/
def Dev.listens (d : Dev) (c n : Nat) : Bool :=
  if n < 32 then (d.fld (EVTMX_CEN0_CEN c)).testBit n else (d.fld (EVTMX_CEN1_CEN c)).testBit (n - 32)

/-- What input `c` receives of the emissions of one fc (R375, R376). -/
def Dev.deliveryTo (d : Dev) (es : List (Nat × Trig)) (c : Nat) : Option Deliv :=
  match es.filter (fun e => d.listens c e.1) with
  | [] => none
  | xs => some { input := c, merged := decide (2 ≤ xs.length),
                 trig := { stamp := minStamp (xs.map (fun e => e.2.stamp)), hop := maxOf (xs.map (fun e => e.2.hop)) } }

/-- The first `n` events produced reach the matrix in this fc (R370): each channel emits, and the deliveries of the next fc
are fixed under the present enables (R374). An event without a stamp of its own takes the Lantern time of this fc. -/
def emission (n : Nat) (d : Dev) : Dev :=
  let ready := d.evt.produced.filter (fun e => decide (e.hop < 7))
  let loops := d.evt.produced.filter (fun e => !decide (e.hop < 7))
  let evs := (ready.take n).map (fun e => (e.prod, { stamp := e.stamp.getD d.lanternTime, hop := e.hop : Trig }))
  let out := (List.range 64).filterMap (fun ch => (d.channelEmit evs ch).map (fun x => (ch, x)))
  let due := d.listeningInputs.filterMap (d.deliveryTo (out.map (fun x => (x.1, x.2.1))))
  let d := { d with evt := { d.evt with produced := ready.drop n ++ loops } }
  let d := out.foldl (fun d x => d.emitted x.1 x.2.1 x.2.2) d
  if due.isEmpty then d else { d with evt := { d.evt with due := d.evt.due ++ [due] } }

/-! ### Consumer inputs (R375 to R379) -/

/-- One trigger reaches an input: a wait completes, the latch is set, or the trigger is dropped (R377, R379). -/
def Dev.deliver (d : Dev) (x : Deliv) : Dev :=
  let c := x.input
  let d := if x.merged then ((d.flag (EVTMX_CSTAT_COINC c)).flag EVTMX_ISTAT_COINC).count (EVTMX_CCNT_COINCCNT c) else d
  if c < 128 ∧ 0 < d.waitsOf c then (d.setWaits c (d.waitsOf c - 1)).sendWait c x.trig.stamp
  else if (d.latch c).isNone then d.setLatch c (some x.trig)
  else ((d.flag (EVTMX_CSTAT_OVR c)).flag EVTMX_ISTAT_OVR).count (EVTMX_CCNT_OVRCNT c)

/-- The oldest deliveries due reach their inputs, all in one fc (R375). -/
def delivery (d : Dev) : Dev :=
  match d.evt.due with
  | [] => d
  | b :: t => b.foldl Dev.deliver { d with evt := { d.evt with due := t } }

/-- The oldest wait request reaches its input (R379). -/
def waitArrival (d : Dev) : Dev :=
  match d.evt.requests with
  | [] => d
  | c :: t =>
    let d := { d with evt := { d.evt with requests := t } }
    match d.latch c with
    | some x => (d.setLatch c none).sendWait c x.stamp
    | none => d.setWaits c (d.waitsOf c + 1)

/-- A consequence event whose hop count would be 7 is dropped (R381). -/
def dropLoop (d : Dev) : Dev :=
  match d.evt.produced.find? (fun e => decide (7 ≤ e.hop)) with
  | none => d
  | some e =>
    let d := { d with evt := { d.evt with produced := d.evt.produced.erase e } }
    let d := (d.flag EVTMX_ISTAT_LOOP).present fiEvtLoop e.prod
    if d.on EVTMX_LOOPREC_VALID then d
    else ((d.flag EVTMX_LOOPREC_VALID).setFld EVTMX_LOOPREC_CONS e.cons).setFld EVTMX_LOOPREC_PROD e.prod

/-- A write of a consumer input's CEN0 or CEN1 (R374): refused if more than 8 bits would be set across the two. -/
def cenWrite (c : Nat) (hi : Bool) (v : Nat) (d : Dev) : Dev :=
  let f := if hi then EVTMX_CEN1_CEN c else EVTMX_CEN0_CEN c
  let g := if hi then EVTMX_CEN0_CEN c else EVTMX_CEN1_CEN c
  if ioLocked d.io f.addr then d
  else if 8 < popCount v 32 + popCount (d.fld g) 32 then d.flag EVTMX_ISTAT_ENREF
  else d.setFld f v

/-- Software takes the event of a watch input by writing 1 to PEND (R382). PEND of other inputs is read-only. -/
def watchTake (c : Nat) (d : Dev) : Dev := if 344 ≤ c then d.setLatch c none else d

/-- EVENT_EMISSION (R372). -/
def execEventEmission (n : Nat) (s : State) : Host.Outcome State Fault Refusal := s.onDev (emission n)

/-- EVENT_DELIVERY (R375). -/
def execEventDelivery (s : State) : Host.Outcome State Fault Refusal := s.onDev delivery

/-- WAIT_REQUEST_ARRIVAL (R379). -/
def execWaitRequestArrival (s : State) : Host.Outcome State Fault Refusal := s.onDev waitArrival

/-- EVT_LOOP (R381). -/
def execEvtLoop (s : State) : Host.Outcome State Fault Refusal := s.onDev dropLoop

/-- CEN_WRITE (R374). -/
def execCenWrite (c : Fin 384) (hi : Bool) (v : Word) (s : State) : Host.Outcome State Fault Refusal :=
  s.onDev (cenWrite c hi v.toNat)

/-- WATCH_INPUT_TAKE (R382). -/
def execWatchInputTake (c : Fin 384) (s : State) : Host.Outcome State Fault Refusal := s.onDev (watchTake c)

end Sys2Proof.Machine
end

