-- ==== Sys2Proof/Machine/Memory.lean ====
section
/-! DEFINITION. Memory.lean: the data space (R25 to R27, R316), the shared and cluster banks and the boot ROM under their
check code (R319 to R341), and the NV store window (R510). -/

namespace Sys2Proof.Machine

/-! ### The map (R25, R316) -/

/-- What an address names: the pair's own data memory, a word of a bank (plain, through a bit-set or a bit-clear alias),
a word of the boot ROM, a byte of the NV store, or nothing. -/
inductive Target where
  | own
  | bank (inst word al : Nat)
  | rom (word : Nat)
  | nv (off : Nat)
  | none
deriving DecidableEq, Repr

/-- The bank and word of a shared-memory offset (R316). -/
def sharedTarget (o al : Nat) : Target := .bank (o / 64 % 32) (o / 2048 * 8 + o / 8 % 8) al

/-- The bank and word of an offset in cluster memory `n` (R316). -/
def clusterTarget (n o al : Nat) : Target := .bank (32 + 14 * n + o / 64 % 14) (o / 64 / 14 * 8 + o / 8 % 8) al

/-- A cluster window from `base` (R25). -/
def clusterAt (base a al : Nat) : Target :=
  let n := (a - base) / 0x1000000
  let o := (a - base) % 0x1000000
  if o < 0x700000 then clusterTarget n o al else .none

/-- The first 256 KiB of the data space (R25): boot ROM, or shared memory while REMAP is 1. -/
def lowTarget (remap : Bool) (o : Nat) : Target := if remap then sharedTarget o 0 else .rom (o / 8)

/-- What an address names (R25, R316) under REMAP. -/
def targetOf (remap : Bool) (a : Nat) : Target :=
  if a < 0x40000 then lowTarget remap a
  else if localBase ≤ a ∧ a < localBase + localSize then .own
  else if 0x10000000 ≤ a ∧ a < 0x12000000 then
    (if a < 0x10040000 then lowTarget (!remap) (a - 0x10000000) else sharedTarget (a - 0x10000000) 0)
  else if 0x20000000 ≤ a ∧ a < 0x24000000 then clusterAt 0x20000000 a 0
  else if 0x40000000 ≤ a ∧ a < 0x42000000 then sharedTarget (a - 0x40000000) 1
  else if 0x48000000 ≤ a ∧ a < 0x4C000000 then clusterAt 0x48000000 a 1
  else if 0x50000000 ≤ a ∧ a < 0x52000000 then sharedTarget (a - 0x50000000) 2
  else if 0x58000000 ≤ a ∧ a < 0x5C000000 then clusterAt 0x58000000 a 2
  else if 0x60000000 ≤ a ∧ a < 0x80000000 then .nv (a - 0x60000000)
  else .none

/-- SYSCTL.MAP.REMAP. -/
def Dev.remap (d : Dev) : Bool := d.on SYSCTL_MAP_REMAP

/-- The key of a word of a bank in the memory's tables. -/
def bankKey (inst word : Nat) : Nat := inst * 2 ^ 17 + word

/-- The address of a word of an instance while REMAP is 0 (R316). -/
def wordAddr (inst word : Nat) : Nat :=
  if inst < 32 then 0x10000000 + word / 8 * 2048 + inst * 64 + word % 8 * 8
  else if inst < 88 then
    0x20000000 + (inst - 32) / 14 * 0x1000000 + (word / 8 * 14 + (inst - 32) % 14) * 64 + word % 8 * 8
  else if inst = 152 then word * 8
  else localBase + word * 8

/-- The address of a word in the data space as REMAP stands, as UEADDR and COLLADDR report it (R25, R316). -/
def Dev.dataAddr (d : Dev) (inst word : Nat) : Nat :=
  let a := wordAddr inst word
  if !d.remap then a
  else if inst = 152 then 0x10000000 + a
  else if inst < 32 ∧ a < 0x10040000 then a - 0x10000000 else a

/-! ### Counting errors (R327, R331, R332, R340) -/

/-- ECC test mode acts on the instance (R340). -/
def Dev.testing (d : Dev) (inst : Nat) : Bool := d.on MEMCTL_ETCTL_EN && d.fld MEMCTL_ETCTL_INST = inst

/-- One correctable error in the bucket of an instance (R332). -/
def Dev.bucketUp (d : Dev) (inst : Nat) : Dev :=
  let b := d.fld (MEMCTL_INST_BUCKET inst) + 1
  let limit := d.fld MEMCTL_BUCKET_LIMIT
  if b ≤ limit then d.setFld (MEMCTL_INST_BUCKET inst) b
  else
    let d := d.setFld (MEMCTL_INST_BUCKET inst) limit
    if (d.fld (MEMCTL_OVF_OVF (inst / 32))).testBit (inst % 32) then d
    else ((d.setBitOf (MEMCTL_OVF_OVF (inst / 32)) (inst % 32)).flag MEMCTL_ISTAT_CERATE).present fiMemCerate inst

/-- One correctable error of an instance: counted, and in the bucket unless the instance is under test (R332, R340). -/
def Dev.correctable (d : Dev) (inst : Nat) : Dev :=
  let d := d.count (MEMCTL_INST_CECNT inst)
  if d.testing inst then d else d.bucketUp inst

/-- The first uncorrectable error is recorded while no record is held (R327). -/
def Dev.recordUe (d : Dev) (master inst addr : Nat) (scrub : Bool) : Dev :=
  if d.on MEMCTL_UEINST_VALID then d
  else
    ((((d.flag MEMCTL_UEINST_VALID).setFld MEMCTL_UEINST_SCRUB (if scrub then 1 else 0)).setFld
      MEMCTL_UEINST_MASTER master).setFld MEMCTL_UEINST_INST inst).setFld MEMCTL_UEADDR_ADDR addr

/-- One uncorrectable error of an instance (R327, R331): presented unless the instance is under test (R340). -/
def Dev.uncorrectable (d : Dev) (master inst addr : Nat) (scrub : Bool) : Dev :=
  let d := d.count (MEMCTL_INST_UECNT inst)
  let d := if scrub then d.flag MEMCTL_ISTAT_SCRUBUE else d.flag MEMCTL_ISTAT_UE
  let d := d.recordUe master inst addr scrub
  if d.testing inst then d else d.present fiMemUncorr inst

/-- ETSYN.KIND of a read (R340). -/
def synKind (r : WordRead) : Nat :=
  match r.kind with
  | .uncorrectable => 3
  | .checkBit => 2
  | .dataBit _ => 1
  | .clean => if r.split then 2 else 0

/-- A corrected word waits to be written back (R326). -/
def Dev.queueWriteBack (d : Dev) (inst word : Nat) : Dev :=
  let wb : WriteBack := { inst := inst, word := word }
  if d.mem.writeBacks.contains wb then d
  else { d with mem := { d.mem with writeBacks := d.mem.writeBacks ++ [wb] } }

/-- What a read of an instance leaves behind: ETSYN, the counts, a write-back that waits (R320, R322, R326, R340). -/
def Dev.noteRead (d : Dev) (master inst word addr : Nat) (r : WordRead) (scrub : Bool) : Dev :=
  let d :=
    if d.testing inst then
      (((d.flag MEMCTL_ETSYN_NEW).setFld MEMCTL_ETSYN_KIND (synKind r)).setFld MEMCTL_ETSYN_WORD word).setFld
        MEMCTL_ETSYN_SYN r.syn
    else d
  if r.bad then (if r.split then d.correctable inst else d).uncorrectable master inst addr scrub
  else if r.corrected then
    let d := d.correctable inst
    if r.kind = .clean then d else d.queueWriteBack inst word
  else d

/-! ### Bank accesses -/

/-- The valid copies of a word rewritten with their majority (R322). -/
def ramHeal (m : Ram) (key : Nat) : Ram :=
  if ramSplit m key then { m with valid := arrSet 0 m.valid key (if ramVote m key then 7 else 0) } else m

/-- A read of a word of a shared or cluster bank: the value, whether it is uncorrectable, and the device (R320). -/
def Dev.bankRead (d : Dev) (master inst word : Nat) : Nat × Bool × Dev :=
  let r := ramRead d.mem.ram (bankKey inst word) word
  let d := { d with mem := { d.mem with ram := ramHeal d.mem.ram (bankKey inst word) } }
  (r.value, r.bad, d.noteRead master inst word (d.dataAddr inst word) r false)

/-- A word of a bank written (R324): under ECC test mode with the test masks (R340). A write cancels a write-back of the
word (R326). -/
def Dev.bankWrite (d : Dev) (inst word v : Nat) : Dev :=
  let wb : WriteBack := { inst := inst, word := word }
  let dx := if d.testing inst then d.fld64 MEMCTL_ETDXLO_DX MEMCTL_ETDXHI_DX else 0
  let ck := if d.testing inst then d.fld MEMCTL_ETCHK_CHKX else 0
  { d with mem := { d.mem with
      ram := ramPut d.mem.ram (bankKey inst word) ((v % 2 ^ 64) ^^^ dx) (eccCheck (v % 2 ^ 64) word ^^^ ck)
      writeBacks := d.mem.writeBacks.filter (fun x => x != wb) } }

/-- The word that a write of `data` under a byte mask makes of `old`: the bytes themselves, or through an alias their OR
or AND NOT (R325, R335). -/
def newWord (al old data mask : Nat) : Nat :=
  if al = 0 then mergeBytes old data mask
  else if al = 1 then mergeBytes old (old ||| data) mask
  else mergeBytes old (old &&& notW 64 data) mask

/-- A write of the bytes of a word that `mask` names: the error code and the device (R324, R325, R335). -/
def Dev.bankStore (d : Dev) (master inst word al data mask : Nat) : Nat × Dev :=
  if al = 0 ∧ mask = 255 then (0, d.bankWrite inst word data)
  else
    let (old, bad, d) := d.bankRead master inst word
    if bad then (2, d) else (0, d.bankWrite inst word (newWord al old data mask))

/-- A read of a word of the boot ROM (R25): its contents are the spec's own but not given; `rom` holds its flipped bits. -/
def Dev.romRead (d : Dev) (master word : Nat) : Nat × Bool × Dev :=
  let good := (Config.romWord word).toNat
  let flip := (arrGet (0 : DWord) d.rom word).toNat
  if flip = 0 then (good, false, d)
  else
    let bad := good ^^^ flip
    let syn := eccCheck good word ^^^ eccCheck bad word
    let kind := eccKind syn
    let v := match kind with
      | .dataBit j => bad ^^^ 2 ^ j
      | .uncorrectable => 0
      | _ => bad
    let r : WordRead := { value := v, kind := kind, syn := syn, split := false }
    (v, r.bad, if r.bad then d.uncorrectable master 152 (d.dataAddr 152 word) false else d.correctable 152)

/-! ### The NV store window (R510) -/

/-- A byte of the journal area `a` at an offset: pages not programmed read as all ones (R520), a programmed page begins
with its header (R515). -/
def journalAreaByte (a : JArea) (o : Nat) : Byte :=
  let page := o / 4096
  let k := o % 4096
  if a.pages ≤ page then 0xFF
  else if k < 4 then BitVec.ofNat 8 (bitsOf 0x504C4E4A (8 * k) 8)
  else if k < 8 then BitVec.ofNat 8 (bitsOf a.gen (8 * (k - 4)) 8)
  else if k < 10 then BitVec.ofNat 8 (bitsOf page (8 * (k - 8)) 8)
  else if k = 14 ∨ k = 15 then 0
  else Config.journalByte a.gen page k

/-- The failed operation that has left a byte of the flash undefined, if one has. -/
def spoiltAt : List SpoiltRange → Nat → Option Nat
  | [], _ => none
  | r :: t, a => if r.lo ≤ a ∧ a < r.hi then some r.num else spoiltAt t a

/-- A byte of the slots and the evidence area. -/
def NvsSt.flashByte (n : NvsSt) (off : Nat) : Byte :=
  match spoiltAt n.spoilt off with
  | some k => Config.spoiltByte k off
  | none => arrGet 0xFF n.flash off

/-- A byte of the NV store (R510). -/
def NvsSt.byte (n : NvsSt) (off : Nat) : Byte :=
  if off < 0x08000000 then n.flashByte off
  else if off < 0x0A000000 then journalAreaByte n.area0 (off - 0x08000000)
  else if off < 0x0C000000 then journalAreaByte n.area1 (off - 0x0A000000)
  else if off < 0x1C000000 then n.flashByte off
  else 0

/-- The word of the NV store at an 8-byte offset, and whether its page is beyond correction (R511). -/
def NvsSt.word (n : NvsSt) (off : Nat) : Nat × Bool :=
  let o := off / 8 * 8
  if arrGet false n.badPages (o / 4096) then (0, true)
  else (leNat ((List.range 8).map (fun i => n.byte (o + i))), false)

/-! ### Reads and writes of whole targets -/

/-- A read of the 8-byte word that holds an address: its value, the error code of R139 and the device. -/
def Dev.targetRead (d : Dev) (master : Nat) (t : Target) : Nat × Nat × Dev :=
  match t with
  | .bank inst word _ =>
    let (v, bad, d) := d.bankRead master inst word
    if bad then (0, 2, d) else (v, 0, d)
  | .rom word =>
    let (v, bad, d) := d.romRead master word
    if bad then (0, 2, d) else (v, 0, d)
  | .nv off =>
    let (v, bad) := d.nvs.word off
    if bad then (0, 2, d) else (v, 0, d)
  | .own | .none => (0, 1, d)

/-- A write of bytes of the word that holds an address (R26: not to the ROM or the NV store window). -/
def Dev.targetWrite (d : Dev) (master : Nat) (t : Target) (data mask : Nat) : Nat × Dev :=
  match t with
  | .bank inst word al => d.bankStore master inst word al data mask
  | _ => (1, d)

/-! ### Write-back, scrubbing, leaking (R326, R331, R332) -/

/-- The memory of an instance of a core: the pair, whether the shadow, whether the instruction memory (R315). -/
def localInst (inst : Nat) : Nat × Bool × Bool := ((inst - 88) / 4, (inst - 88) / 2 % 2 = 1, inst % 2 = 1)

/-- A core's memory by its instance. -/
def Dev.localRam (d : Dev) (inst : Nat) : Ram :=
  let (p, sh, im) := localInst inst
  let c := if sh then (d.pair p).shadow else (d.pair p).lead
  if im then c.imem else c.dmem

/-- The device with a core's memory at `m`. -/
def Dev.setLocalRam (d : Dev) (inst : Nat) (m : Ram) : Dev :=
  let (p, sh, im) := localInst inst
  let x := d.pair p
  let put (c : Core) : Core := if im then { c with imem := m } else { c with dmem := m }
  d.setPair p (if sh then { x with shadow := put x.shadow } else { x with lead := put x.lead })

/-- The memory tables that hold an instance, and the key of its word 0. -/
def Dev.instRam (d : Dev) (inst : Nat) : Ram × Nat :=
  if inst < 88 then (d.mem.ram, bankKey inst 0) else (d.localRam inst, 0)

/-- The device with the tables that hold an instance at `m`. -/
def Dev.setInstRam (d : Dev) (inst : Nat) (m : Ram) : Dev :=
  if inst < 88 then { d with mem := { d.mem with ram := m } } else d.setLocalRam inst m

/-- A corrected word is written back with its true check bits, if its write-back still waits (R326, R340). -/
def writeBack (inst word : Nat) (d : Dev) : Dev :=
  let wb : WriteBack := { inst := inst, word := word }
  if d.mem.writeBacks.contains wb && inst != 152 then
    let (m, k0) := d.instRam inst
    let r := ramRead m (k0 + word) word
    let d := { d with mem := { d.mem with writeBacks := d.mem.writeBacks.filter (fun x => x != wb) } }
    if r.bad || !ramVote m (k0 + word) then d
    else d.setInstRam inst (ramPut m (k0 + word) r.value (eccCheck r.value word))
  else d

/-- The lowest word of an instance at or above `w` whose valid vote is 1 (R331). -/
def Dev.nextValid (d : Dev) (inst w : Nat) : Option Nat :=
  let (m, k0) := d.instRam inst
  let size := if inst < 32 then 131072 else if inst < 88 then 65536 else 16384
  ((m.valid.map (fun e => e.1)).find? (fun k => decide (k0 + w ≤ k) && decide (k < k0 + size) && ramVote m k)).map
    (fun k => k - k0)

/-- The next word for the scrubber: from its place on, then from the first instance again (R331). -/
def Dev.scrubTarget (d : Dev) : Option (Nat × Nat) :=
  match d.nextValid d.mem.scrubInst d.mem.scrubWord with
  | some w => some (d.mem.scrubInst, w)
  | none =>
    let order := (List.range 152).map (fun i => (d.mem.scrubInst + 1 + i) % 152)
    (order.filterMap (fun i => (d.nextValid i 0).map (fun w => (i, w)))).head?

/-- The scrubber reads the next valid word (R331). -/
def scrub (d : Dev) : Dev :=
  if d.on MEMCTL_SCRUB_EN then
    match d.scrubTarget with
    | none => d
    | some (inst, w) =>
      let (m, k0) := d.instRam inst
      let r := ramRead m (k0 + w) w
      let d := { d with mem := { d.mem with scrubInst := inst, scrubWord := w + 1 } }
      let d := d.setInstRam inst (ramHeal m (k0 + w))
      d.noteRead 31 inst w (d.dataAddr inst w) r true
  else d

/-- Every bucket above zero loses one, once LEAK ms have passed since the last leak (R332). -/
def leak (d : Dev) : Dev :=
  if d.elapsed d.mem.lastLeak (d.fld MEMCTL_BUCKET_LEAK * msTicks) then
    let d := { d with mem := { d.mem with lastLeak := d.ticks } }
    (List.range 153).foldl
      (fun d i => if d.fld (MEMCTL_INST_BUCKET i) = 0 then d
        else d.setFld (MEMCTL_INST_BUCKET i) (d.fld (MEMCTL_INST_BUCKET i) - 1)) d
  else d

/-- A write of MEMCTL.ETCTL (R341): EN is set only in BOOT, CONFIG and MAKER-TEST; an INST above 87 is stored as 0. -/
def etctlWrite (w : Nat) (d : Dev) : Dev :=
  let inst := w % 256
  let d := d.setFld MEMCTL_ETCTL_INST (if 87 < inst then 0 else inst)
  d.setFld MEMCTL_ETCTL_EN (if w.testBit 31 && (d.configurable || d.mode = modeMaker) then 1 else 0)

/-- CORRECTED_WRITE_BACK (R326). -/
def execCorrectedWriteBack (inst : Fin 153) (word : Nat) (s : State) : Host.Outcome State Fault Refusal :=
  s.onDev (writeBack inst word)

/-- SCRUB_READ (R331). -/
def execScrubRead (s : State) : Host.Outcome State Fault Refusal := s.onDev scrub

/-- BUCKET_LEAK (R332). -/
def execBucketLeak (s : State) : Host.Outcome State Fault Refusal := s.onDev leak

/-- ETCTL_WRITE (R341). -/
def execEtctlWrite (w : Word) (s : State) : Host.Outcome State Fault Refusal := s.onDev (etctlWrite w.toNat)

end Sys2Proof.Machine
end

