-- ==== Sys2Proof/Machine/Mpu.lean ====
section
/-! DEFINITION. Mpu.lean: memory protection (R360 to R368): the check of an access, its denial and the staging of a set. -/

namespace Sys2Proof.Machine

/-! ### Masters (R29) -/

def mDma0 : Nat := 16
def mBuoy0 : Nat := 18
def mEth : Nat := 26
def mCan : Nat := 27
def mNvs : Nat := 28
def mIsland : Nat := 29
def mDebug : Nat := 30

/-- Master `m` reaches the target, by its row of R29. A hole is no target: R26 answers it. -/
def reaches (m : Nat) (t : Target) : Bool :=
  match t with
  | .none | .own => true
  | .bank inst _ al => if m = mNvs then decide (inst < 32) && al == 0 else true
  | .rom _ => decide (m < 16) || m = mIsland || m = mDebug
  | .nv _ => decide (m < 18) || m = mIsland

/-- Master `m` reaches the I/O space, and the block (R29). -/
def reachesIo (m addr : Nat) : Bool :=
  decide (m < 18) || m = mIsland || (m = mDebug && addr / 0x10000 != 0x11)

/-- The mirror area (R236), by a word of shared memory: its byte offset is 0x1B0_0000 or above. -/
def inMirror (t : Target) : Bool :=
  match t with
  | .bank inst word _ => decide (inst < 32) && decide (0x11B00000 ≤ wordAddr inst word)
  | _ => false

/-! ### The check (R360 to R363) -/

/-- An access as an MPU sees it: the space, the bytes, the kind and the state. -/
structure Access where
  io : Bool := false
  addr : Nat
  size : Nat
  rd : Bool
  wr : Bool
  user : Bool := false
deriving DecidableEq, Repr

/-- Region `r` covers the byte at `a` of the access's space (R362). -/
def MpuRegion.covers (r : MpuRegion) (io : Bool) (a : Nat) : Bool :=
  r.en && r.io == io &&
    (if io then decide (r.base % 2 ^ 18 ≤ a / 64) && decide (a / 64 ≤ r.limit % 2 ^ 18)
     else decide (r.base ≤ a / 64) && decide (a / 64 ≤ r.limit))

/-- The last byte of an access. -/
def Access.last (a : Access) : Nat := a.addr + a.size - 1

/-- A region covers some line that the access touches. -/
def MpuRegion.touches (r : MpuRegion) (a : Access) : Bool :=
  (List.range (a.last / 64 - a.addr / 64 + 1)).any (fun i => r.covers a.io ((a.addr / 64 + i) * 64))

/-- A region covers the whole access: its first and its last byte (R362). -/
def MpuRegion.matches (r : MpuRegion) (a : Access) : Bool := r.covers a.io a.addr && r.covers a.io a.last

/-- The region grants the access (R362). -/
def MpuRegion.grants (r : MpuRegion) (a : Access) : Bool :=
  (!a.rd || r.r) && (!a.wr || r.w) && (!a.user || r.u)

/-- The set in force of a master (R367: none of its regions enabled at first). -/
def Dev.mpuSet (d : Dev) (m : Nat) : MpuSet := arrGet {} d.mpu.sets m

/-- The fixed rules of R361 deny the access. -/
def Dev.fixedDeny (d : Dev) (m : Nat) (a : Access) : Bool :=
  if a.io then decide (a.addr < 0x180000) && !(reachesIo m a.addr)
  else
    let t := targetOf d.remap a.addr
    let u := targetOf d.remap a.last
    (a.wr && (inMirror t || inMirror u)) || !(reaches m t) || !(reaches m u)

/-- What the MPU decides: none where it allows the access, otherwise whether a fixed rule denied it, and whether no region
matched it (DENY.FIXED, DENY.NOMATCH). -/
def Dev.mpuCheck (d : Dev) (m : Nat) (a : Access) : Option (Bool × Bool) :=
  if d.fixedDeny m a then some (true, false)
  else
    let s := d.mpuSet m
    match s.regions.find? (fun r => r.matches a) with
    | some r => if r.grants a then none else some (false, false)
    | none =>
      if s.regions.any (fun r => r.touches a) || a.user || s.nodef then some (false, true) else none

/-- The device with a denial waiting to be answered and counted (R364). -/
def Dev.denied (d : Dev) (m : Nat) (a : Access) (why : Bool × Bool) (req : Option FabReq) : Dev :=
  { d with fab := { d.fab with denials := d.fab.denials ++
      [{ master := m, addr := a.addr, write := a.wr, user := a.user, fixed := why.1, noMatch := why.2, req := req }] } }

/-- The record of one denial (R364): count, first record, flag, fault input. -/
def Dev.recordDenial (d : Dev) (x : Denial) : Dev :=
  let b (p : Bool) : Nat := if p then 1 else 0
  let d := d.count MPU_DENY_COUNT
  let d :=
    if d.on MPU_ISTAT_DENY then d
    else
      (((((d.setFld MPU_DENY_FIXED (b x.fixed)).setFld MPU_DENY_NOMATCH (b x.noMatch)).setFld
        MPU_DENY_USER (b x.user)).setFld MPU_DENY_WRITE (b x.write)).setFld MPU_DENY_MASTER x.master).setFld
        MPU_DENYADDR_ADDR x.addr
  (d.flag MPU_ISTAT_DENY).present fiMpuDeny x.master

/-! ### Staging and enabling (R365 to R367) -/

/-- Region `r` of master `m` as its registers stage it. -/
def Dev.staged (d : Dev) (m r : Nat) : MpuRegion :=
  { en := d.on (MPU_RATTR_EN m r), io := d.on (MPU_RATTR_SPACE m r), u := d.on (MPU_RATTR_U m r)
    w := d.on (MPU_RATTR_W m r), r := d.on (MPU_RATTR_R m r), base := d.fld (MPU_RBASE_BASE m r)
    limit := d.fld (MPU_RLIMIT_LIMIT m r) }

/-- First and last line of a region, by the bits that its space compares (R365). -/
def MpuRegion.lines (r : MpuRegion) : Nat × Nat :=
  if r.io then (r.base % 2 ^ 18, r.limit % 2 ^ 18) else (r.base, r.limit)

/-- LIMIT lies below BASE in an enabled region. -/
def MpuRegion.bad (r : MpuRegion) : Bool := r.en && decide (r.lines.2 < r.lines.1)

/-- Two enabled regions of one space share a line. -/
def MpuRegion.overlaps (r s : MpuRegion) : Bool :=
  r.en && s.en && r.io == s.io && !r.bad && !s.bad && decide (r.lines.1 ≤ s.lines.2) && decide (s.lines.1 ≤ r.lines.2)

/-- The lowest-numbered overlapping pair of regions. -/
def firstOverlap (rs : List MpuRegion) : Option (Nat × Nat) :=
  ((List.range 16).flatMap (fun a => ((List.range 16).filter (fun b => decide (a < b))).map (fun b => (a, b)))).find?
    (fun x => (nth {} rs x.1).overlaps (nth {} rs x.2))

/-- The requests of the fabric that belong to logical pair `m` and were checked under its set in force. -/
def Dev.requestsOf (d : Dev) (m : Nat) : List Nat :=
  ((d.fab.waiting ++ d.fab.granted).filter (fun r => r.lpair = m)).map (fun r => r.id)

/-- The commit-buffer entries of logical pair `m` that were checked under its set in force: the checkpoint number whose
release ends them (R219, R366). -/
def Dev.bufferedOf (d : Dev) (m : Nat) : List (Nat × Nat) :=
  if m < 16 then
    let x := d.pair (d.physOf m)
    if x.lead.cb.isEmpty then (if x.releasing then [(m, x.ckNum)] else []) else [(m, x.ckNum + 1)]
  else []

/-- A write of MPU.CTLm by master `by` (R365 to R367): NODEF is stored, and ENABLE checks and applies the staging set. The
requests then in the fabric under the set that it replaces are noted for MPU.SYNC. -/
def enableWrite (by_ m w : Nat) (d : Dev) : Dev :=
  let locked := d.on MPU_LOCK_LOCK
  let d := if locked then d else d.setFld (MPU_CTL_NODEF m) (bitOf w 16)
  if locked || !(w.testBit 31) then d
  else
    let rs := (List.range 16).map (d.staged m)
    let bad := findIdxOf MpuRegion.bad rs
    let ov := firstOverlap rs
    match bad, ov with
    | none, none =>
      let old := arrGet [] d.mpu.replaced by_
      let d := { d with mpu := { d.mpu with
        sets := arrSet {} d.mpu.sets m { regions := rs, nodef := d.on (MPU_CTL_NODEF m) }
        replaced := arrSet [] d.mpu.replaced by_ (old ++ d.requestsOf m)
        buffered := arrSet [] d.mpu.buffered by_ (arrGet [] d.mpu.buffered by_ ++ d.bufferedOf m) } }
      d.setFld (MPU_CTL_GEN m) (d.fld (MPU_CTL_GEN m) + 1)
    | _, _ =>
      let d := if bad.isSome then d.flag MPU_ISTAT_BADREG else d
      let d := if ov.isSome then d.flag MPU_ISTAT_OVERLAP else d
      let rec2 : Nat × Nat := match bad, ov with
        | some r, _ => (r, r)
        | none, some x => x
        | none, none => (0, 0)
      ((d.setFld MPU_OVL_MASTER m).setFld MPU_OVL_RA rec2.1).setFld MPU_OVL_RB rec2.2

/-- The release of a checkpoint of a logical pair is complete; a pair that does not run has none to come. -/
def Dev.releaseOver (d : Dev) (lp ck : Nat) : Bool :=
  let x := d.pair (d.physOf lp)
  decide (ck < x.ckNum) || (ck == x.ckNum && !x.releasing) || !(d.pairRuns (d.physOf lp))

/-- A read of MPU.SYNC by a master may complete: no request checked under a set that it replaced is under way (R366). -/
def Dev.syncReady (d : Dev) (x : Nat) : Bool :=
  (arrGet [] d.mpu.replaced x).all (fun id => !((d.fab.waiting ++ d.fab.granted).any (fun r => r.id = id)))
    && (arrGet [] d.mpu.buffered x).all (fun b => d.releaseOver b.1 b.2)

/-- The device after master `x`'s read of MPU.SYNC has completed. -/
def Dev.syncDone (d : Dev) (x : Nat) : Dev :=
  { d with mpu := { d.mpu with replaced := arrSet [] d.mpu.replaced x [], buffered := arrSet [] d.mpu.buffered x [] } }

/-- MPU_ENABLE (R365), written by software of master `m`'s own set. -/
def execMpuEnable (m : Fin 31) (w : Word) (s : State) : Host.Outcome State Fault Refusal :=
  s.onDev (enableWrite m m w.toNat)

/-! ### What the masters that are not pairs reach (R27, R351) -/

/-- A bank is locked against master `m` (R351). -/
def Dev.lockedAgainst (d : Dev) (m inst : Nat) : Bool := d.fab.locks.any (fun l => l.inst = inst && l.lpair != m)

/-- A target that a lock holds back from the engines. -/
def Dev.targetHeld (d : Dev) (m : Nat) (t : Target) : Bool :=
  match t with
  | .bank inst _ _ => d.lockedAgainst m inst
  | _ => false

/-- What an address names for a master that is not a pair (R27). -/
def engineTarget (remap : Bool) (a : Nat) : Target :=
  match targetOf remap a with
  | .own => .none
  | t => t

/-- The addresses and sizes of the pieces of a byte range that lie within one word each, at most `k` of them. -/
def wordPieces : Nat → Nat → Nat → List (Nat × Nat)
  | 0, _, _ => []
  | k + 1, a, n =>
    if n = 0 then []
    else
      let m := min n (8 - a % 8)
      (a, m) :: wordPieces k (a + m) (n - m)

/-- The pieces of a range of `n` bytes. -/
def piecesOf (a n : Nat) : List (Nat × Nat) := wordPieces (n / 8 + 2) a n

/-- Some word of a range is held by a lock. -/
def Dev.rangeHeld (d : Dev) (m a n : Nat) : Bool :=
  (piecesOf a n).any (fun x => d.targetHeld m (engineTarget d.remap x.1))

/-- The access of a write to a range: through an alias it reads too (R362). -/
def writeAccess (remap : Bool) (addr n : Nat) : Access :=
  let alias_ := match targetOf remap addr with
    | .bank _ _ al => al != 0
    | _ => false
  { addr := addr, size := n, rd := alias_, wr := true }

end Sys2Proof.Machine
end

