-- ==== Sys2Proof/Machine/Fabric.lean ====
section
/-! DEFINITION. Fabric.lean: the path of a pair's requests (chapter 11): the pair's port, the arbitration points, locks and
breaks, and the answers, which reach the pair through its capture stage. -/

namespace Sys2Proof.Machine

/-! ### Requests -/

/-- The request goes to I/O space. -/
def PairReq.isIo (r : PairReq) : Bool := r.op == .ioRd || r.op == .ioWr

/-- The request reads its target and delivers data. -/
def PairReq.reads (r : PairReq) : Bool :=
  r.op == .ld || r.op == .ldLock || r.op == .fill || r.op == .ioRd || r.op == .aadd || r.op == .aswp || r.op == .busRd

/-- The request writes its target. -/
def PairReq.writes (r : PairReq) : Bool :=
  r.op == .st || r.op == .stUnlock || r.op == .ioWr || r.op == .aadd || r.op == .aswp || r.op == .busWr

/-- The request is an atomic or a locked access, which only a bank outside its aliases takes (R139, R334). -/
def PairReq.bankOnly (r : PairReq) : Bool := r.op == .aadd || r.op == .aswp || r.op == .ldLock || r.op == .stUnlock

/-- The request ends a locked sequence (R353). -/
def PairReq.unlocks (r : PairReq) : Bool := r.op == .stUnlock || r.op == .unlock

/-- What a response answers, as the core needs it (R153). -/
def PairReq.lockCode (r : PairReq) : Nat := if r.op == .ldLock then 1 else if r.unlocks then 2 else 0

/-- The value that a failed request delivers (R139): the error status, or zero for a load, a read and an atomic. -/
def PairReq.failValue (r : PairReq) (code : Nat) : Nat :=
  if r.op == .st || r.op == .stUnlock || r.op == .unlock || r.op == .ioWr || r.op == .fill then errorStatus code else 0

/-- A plain address after the decode against REMAP (R358): the address that names the same word while REMAP is 0. -/
def remapDecode (remap : Bool) (a : Nat) : Nat :=
  if !remap then a
  else if a < 0x40000 then a + 0x10000000
  else if 0x10000000 ≤ a ∧ a < 0x10040000 then a - 0x10000000 else a

/-- What a request names, once decoded. -/
def FabReq.goal (r : FabReq) : Target := targetOf false r.target

/-- The request has yet to be decoded: it waits at an uplink. -/
def FabReq.undecoded (r : FabReq) : Bool :=
  match r.route.head? with
  | some (.uplink _) => true
  | _ => false

/-- The class of R346 of a request's final target, under the mapping `map` where it has yet to be decoded. -/
def FabReq.classOf (r : FabReq) (map : Bool) : Nat :=
  let io : Bool := match r.route.head? with
    | some (.io _) => true
    | _ => r.req.isIo
  if io then 5
  else
    match targetOf (map && r.undecoded) r.target with
    | .bank inst _ _ => if inst < 32 then 0 else 1 + (inst - 32) / 14
    | .nv _ => 6
    | _ => 7

/-- The arbitration point of a request's final target. The bank's plane is A for shared memory and for a pair's own
cluster, B for another cluster's memory (R317). -/
def FabReq.finalPoint (r : FabReq) : Point :=
  if r.req.isIo then .io (r.req.addr / 0x10000)
  else
    match r.goal with
    | .bank inst _ _ => .bank inst (decide (32 ≤ inst) && (inst - 32) / 14 != r.phys / 4)
    | .nv _ => .nvWindow
    | _ => .rom

/-- The address lies in the memory of the pair's own cluster, plain or through an alias (R31). -/
def ownCluster (p : Nat) (t : Target) : Bool :=
  match t with
  | .bank inst _ _ => decide (32 ≤ inst) && (inst - 32) / 14 == p / 4
  | _ => false

/-- The device crossbar, or a pair's own cluster crossbar, answers the request without a target access (R26, R139). -/
def FabReq.crossbarRefuses (r : FabReq) : Bool :=
  !r.req.isIo &&
    (match r.goal with
     | .bank _ _ al => r.req.bankOnly && al != 0
     | .rom _ | .nv _ => r.req.writes || r.req.op == .ldLock
     | _ => true)

/-! ### Answers (R202, R233, R573) -/

/-- A happening recorded at the end of a pair's record (R225). -/
def Pair.record (x : Pair) (k : HappKind) (used : Bool) : Pair := { x with happ := x.happ ++ [{ kind := k, used := used }] }

/-- The pair with the first entry of its record that satisfies `p` and is not consumed marked consumed. -/
def consumeFirst (p : HappKind → Bool) : List Happ → List Happ
  | [] => []
  | h :: t => if !h.used && p h.kind then { h with used := true } :: t else h :: consumeFirst p t

/-- A departure at a slot. -/
def isDepart (slot : Nat) (k : HappKind) : Bool :=
  match k with
  | .depart s => s == slot
  | _ => false

/-- A completion of a tag. -/
def isComplete (tag : Nat) (k : HappKind) : Bool :=
  match k with
  | .complete t _ _ _ _ => t == tag
  | _ => false

/-- Both cores of a pair changed alike. -/
def Pair.both (x : Pair) (f : Core → Core) : Pair := { x with lead := f x.lead, shadow := f x.shadow }

/-- The words of a fill written into both cores' instruction memories (R162). -/
def Pair.filled (x : Pair) (index : Nat) (words : List DWord) : Pair := x.both (fun c => c.fillWritten index words)

/-- A word of logical pair `lp`'s mirror written at a byte offset (R236), through the mirror port. -/
def Dev.mirrorWord (d : Dev) (lp off v : Nat) : Dev :=
  match targetOf false (0x11B00000 + lp * 0x50000 + off) with
  | .bank inst word _ => d.bankWrite inst word v
  | _ => d

/-- Words written into a mirror from a byte offset on. -/
def Dev.mirrorWords (d : Dev) (lp : Nat) : Nat → List DWord → Dev
  | _, [] => d
  | off, v :: t => Dev.mirrorWords (d.mirrorWord lp off v.toNat) lp (off + 8) t

/-- A response reaches the capture stage of the pair bound to logical pair `lp`. Of an earlier execution, an answer that is
not of immediate class is discarded, and one of immediate class is recorded; a trigger that has issued again takes it
from the record at once (R233, R573). -/
def Dev.answer (d : Dev) (lp : Nat) (imm : Bool) (mark tag slot : Nat) (value code addr lock : Nat)
    (fill : Option (Nat × List DWord)) : Dev :=
  let p := d.physOf lp
  let d := match fill with
    | some (index, words) => if words.isEmpty then d else d.mirrorWords lp (32 * index) words
    | none => d
  let x := d.pair p
  let input (mk : Nat) : CapInput :=
    match fill with
    | some (index, words) => .fillDone mk tag slot index code addr words
    | none => .response mk tag imm slot value code addr lock
  if mark = x.mark then d.capture p (input x.mark)
  else if !imm then d
  else
    let x := match fill with
      | some (index, words) => x.filled index words
      | none => x
    let again := x.happ.any (fun h => h.used && isDepart slot h.kind)
    let x := x.record (.complete tag value code addr lock) again
    let d := d.setPair p x
    if again then d.capture p (.response x.mark tag false slot value code addr lock) else d

/-- The head entry of a release has been accepted at its target, or has failed there (R221, R222). -/
def Pair.accepted (x : Pair) (code addr : Nat) : Pair :=
  let rest := x.rel.tail
  let restS := x.relShadow.tail
  { x with rel := rest, relShadow := restS, relSent := false, releasing := !(rest.isEmpty && restS.isEmpty)
           relFails := if code = 0 then x.relFails else x.relFails ++ [(code, addr)] }

/-- A request answered with a value and an error code. -/
def Dev.respond (d : Dev) (r : FabReq) (value code : Nat) : Dev :=
  if r.req.rel then d.setPair r.phys ((d.pair r.phys).accepted code r.req.addr)
  else if r.req.op == .fill then
    d.answer r.lpair true r.mark r.req.tag r.req.slot value code r.req.addr 0 (some (r.req.dst, []))
  else d.answer r.lpair r.req.imm r.mark r.req.tag r.req.slot value code r.req.addr r.req.lockCode none

/-- The device with the lock of logical pair `lp` gone. -/
def Dev.dropLock (d : Dev) (lp : Nat) : Dev :=
  { d with fab := { d.fab with locks := d.fab.locks.filter (fun l => l.lpair != lp) } }

/-- A request answered with an error (R139). A `stf.unlock` or `unlock` releases its lock whatever the error (R353), unless the
MPU has kept it out of the fabric, or it is answered LOCKBREAK and holds none. -/
def Dev.respondError (d : Dev) (r : FabReq) (code : Nat) : Dev :=
  (if r.req.unlocks && code != 3 && code != 5 then d.dropLock r.lpair else d).respond r (r.req.failValue code) code

/-- The pair that holds the broken mark, or sent the request before its recovery began, gets LOCKBREAK (R354, R355). -/
def Dev.brokenFor (d : Dev) (r : FabReq) : Bool :=
  (r.req.lockMark && (d.fab.broken.testBit r.lpair || r.mark != (d.pair (d.physOf r.lpair)).mark))
    || (r.req.op == .ldLock && r.mark != (d.pair (d.physOf r.lpair)).mark)

/-- The broken mark of a logical pair cleared. -/
def Dev.clearBroken (d : Dev) (lp : Nat) : Dev :=
  { d with fab := { d.fab with broken := withoutBit d.fab.broken lp } }

/-- A request that a crossbar does not pass on: LOCKBREAK where its lock has been broken (R354), else DECODE (R26). -/
def Dev.refuseReq (d : Dev) (r : FabReq) : Dev :=
  if d.brokenFor r then (d.clearBroken r.lpair).respondError r 5 else d.respondError r 1

/-! ### The port (R343, R345, R360, R364) -/

/-- The presented request of a logical pair at a point is the first of its requests there (R345). -/
def FabReq.at (r : FabReq) (pt : Point) : Bool := decide (r.route.head? = some pt)

/-- The request joins the queue at its next point. -/
def Dev.enqueue (d : Dev) (r : FabReq) : Dev :=
  { d with fab := { d.fab with waiting := d.fab.waiting ++ [{ r with since := d.ticks, urgentAt := none }] } }

/-- What a pair's request asks of its MPU. An `unlock` neither reads nor writes. -/
def FabReq.access (r : FabReq) : Access :=
  let al := match r.goal with
    | .bank _ _ a => a != 0 && r.req.writes
    | _ => false
  { io := r.req.isIo, addr := r.req.addr, size := r.req.size, rd := r.req.reads || al, wr := r.req.writes,
    user := r.req.user }

/-- A request leaves the pair's port: denied, answered at the port, as is a far load whose bytes the commit buffer holds all
(R220), or sent into the fabric. -/
def Dev.sendReq (d : Dev) (p : Nat) (r : PairReq) : Dev :=
  let lp := d.lpairOf p
  let id := d.fab.nextId
  let d := { d with fab := { d.fab with nextId := id + 1 } }
  let f : FabReq :=
    { id := id, lpair := lp, phys := p, mark := (d.pair p).mark, req := r, target := r.addr, route := [],
      since := d.ticks }
  let t := targetOf d.remap r.addr
  match (if r.rel then none else d.mpuCheck lp f.access) with
  | some why => d.denied lp f.access why (some f)
  | none =>
    if r.isIo then
      (if r.size ≠ 4 ∨ 0x180000 ≤ r.addr then d.respondError f 1 else d.enqueue { f with route := [.uplink ⟨p / 4 % 4, Nat.mod_lt _ (by decide)⟩] })
    else if r.op == .ld && r.fwdMask = 2 ^ r.size - 1 then d.answer lp r.imm f.mark r.tag r.slot r.fwdData 0 r.addr 0 none
    else if t = .none ∨ t = .own then d.refuseReq f
    else if ownCluster p t then
      (if f.crossbarRefuses then d.refuseReq f else d.enqueue { f with route := [f.finalPoint] })
    else d.enqueue { f with route := [.uplink ⟨p / 4 % 4, Nat.mod_lt _ (by decide)⟩] }

/-- The code of R139 that the check of an access entering the commit buffer gives (R219), for the pair's environment. -/
def Dev.bufferCheck (d : Dev) (lp : Nat) (io : Bool) (addr size : Nat) (user : Bool) : Nat :=
  let f : FabReq :=
    { id := 0, lpair := lp, phys := 0, mark := 0, target := addr, route := [], since := 0,
      req := { op := if io then .ioWr else .st, tag := 0, addr := addr, size := size, user := user } }
  if (d.mpuCheck lp f.access).isSome then 3
  else if io then (if size ≠ 4 ∨ 0x180000 ≤ addr then 1 else 0)
  else
    match targetOf d.remap addr with
    | .none => 1
    | _ => 0

/-! ### Waits, urgency and grants (R345 to R350) -/

/-- Waits are counted in fc of 900 MHz: three to two ticks. -/
def fcOf (ticks : Nat) : Nat := ticks * 3 / 2

/-- The presented requests at a point: the first of each master (R345). -/
def Dev.presentedAt (d : Dev) (pt : Point) : List FabReq :=
  let here := d.fab.waiting.filter (fun r => r.at pt)
  (List.range 31).filterMap (fun lp => here.find? (fun r => r.lpair = lp))

/-- A request's wait in fc. -/
def Dev.waitOf (d : Dev) (r : FabReq) : Nat := fcOf (d.ticks - r.since)

/-- The priority that FABRIC.PRIm gives (R346). -/
def Dev.priorityOf (d : Dev) (r : FabReq) : Nat := bitsOf (d.fld (FABRIC_PRI_PRI r.lpair)) (4 * r.classOf d.remap) 4

/-- The effective priority (R347). -/
def Dev.effective (d : Dev) (r : FabReq) : Nat :=
  min 15 (d.priorityOf r + d.waitOf r / (max 1 (d.fld FABRIC_ARB_AGE_STEP)))

/-- The cluster clocks stand (R20, R434) and the point is in a cluster. -/
def Dev.clusterStopped (d : Dev) (pt : Point) : Bool :=
  d.start.clocksOff &&
    (match pt with
     | .uplink _ => true
     | .bank inst _ => decide (32 ≤ inst) && decide (inst < 88)
     | _ => false)

/-- A lock holds the request back at the point (R351), or the point's clock stands. -/
def Dev.lockedOut (d : Dev) (pt : Point) (r : FabReq) : Bool :=
  d.clusterStopped pt ||
    (match pt with
     | .bank inst _ => d.lockedAgainst r.lpair inst
     | _ => false)

/-- Of two requests, the one that R348 grants first. -/
def Dev.betterReq (d : Dev) (a b : FabReq) : FabReq :=
  match a.urgentAt, b.urgentAt with
  | some x, some y => if y < x ∨ (y = x ∧ b.lpair < a.lpair) then b else a
  | some _, none => a
  | none, some _ => b
  | none, none =>
    let pa := d.effective a
    let pb := d.effective b
    if pa < pb then b
    else if pb < pa then a
    else if b.since < a.since then b
    else if a.since < b.since then a
    else if b.lpair < a.lpair then b else a

/-- The request that a point grants (R348). -/
def Dev.winner (d : Dev) (pt : Point) : Option FabReq :=
  match (d.presentedAt pt).filter (fun r => !(d.lockedOut pt r)) with
  | [] => none
  | r :: t => some (t.foldl d.betterReq r)

/-- The waiting requests after one has left: the next request of its master at that point is presented from now on. -/
def nextPresented (now lp : Nat) (pt : Point) : List FabReq → List FabReq
  | [] => []
  | r :: t => if r.lpair = lp && r.at pt then { r with since := now } :: t else r :: nextPresented now lp pt t

/-- The device with a granted request out of the queue at a point; its wait is recorded (R350). -/
def Dev.leaveQueue (d : Dev) (pt : Point) (r : FabReq) : Dev :=
  let w := min 65535 (d.waitOf r)
  let d := if d.fld FABRIC_URG_MAXWAIT < w then d.setFld FABRIC_URG_MAXWAIT w else d
  let rest := d.fab.waiting.filter (fun x => x.id != r.id)
  { d with fab := { d.fab with waiting := nextPresented d.ticks r.lpair pt rest } }

/-- A granted request passes a point: the uplink hands it to the device crossbar, which decodes it against REMAP
(R358); the last point hands it to its target. -/
def Dev.passPoint (d : Dev) (pt : Point) (r : FabReq) : Dev :=
  match pt with
  | .uplink _ =>
    let r := { r with target := if r.req.isIo then r.req.addr else remapDecode d.remap r.req.addr, map := d.remap }
    if r.crossbarRefuses then d.refuseReq r else d.enqueue { r with route := [r.finalPoint] }
  | _ => { d with fab := { d.fab with granted := d.fab.granted ++ [r] } }

/-- MPU.SYNC. -/
def mpuSyncAddr : Nat := 0x042100

/-- The request reads MPU.SYNC: such a read waits in the block and leaves its point free (R366). -/
def FabReq.syncRead (r : FabReq) : Bool := r.req.op == .ioRd && r.req.addr = mpuSyncAddr

/-- A point grants one request, if it is free: the access that it granted last has ended (R348). -/
def grant (pt : Point) (d : Dev) : Dev :=
  if d.fab.granted.any (fun r => r.at pt && !r.syncRead) then d
  else
    match d.winner pt with
    | none => d
    | some r => (d.leaveQueue pt r).passPoint pt r

/-- A presented request whose wait reaches URGENT_AGE becomes urgent (R347). -/
def urgent (id : Nat) (d : Dev) : Dev :=
  match d.fab.waiting.find? (fun r => r.id = id) with
  | none => d
  | some r =>
    let pt := r.route.headD .rom
    if (d.presentedAt pt).any (fun x => x.id = id) && r.urgentAt.isNone
        && decide (d.fld FABRIC_ARB_URGENT_AGE ≤ d.waitOf r) then
      let d := { d with fab := { d.fab with
        waiting := d.fab.waiting.map (fun (x : FabReq) => if x.id = id then { x with urgentAt := some d.ticks } else x) } }
      (d.count FABRIC_URG_COUNT).flag FABRIC_ISTAT_URGENT
    else d

/-! ### Locks (R351 to R357) -/

/-- The break of a lock (R353, R355): the holder's broken mark, the record, the fault input. -/
def Dev.breakLock (d : Dev) (l : LockEnt) : Dev :=
  let d := d.dropLock l.lpair
  let d := { d with fab := { d.fab with broken := withBit d.fab.broken l.lpair } }
  let d := (d.flag FABRIC_ISTAT_LOCKBREAK).count FABRIC_LKBRK_COUNT
  (((d.setFld FABRIC_LKBRK_MASTER l.lpair).setFld FABRIC_LKBRK_INST l.inst).setFld FABRIC_LKADDR_ADDR l.addr).present
    fiLockbreak l.lpair

/-- The lock that recovery of a logical pair closes, if it holds one (R244, R355). -/
def Dev.recoveryBreak (d : Dev) (lp : Nat) : Dev :=
  match d.fab.locks.find? (fun l => l.lpair = lp) with
  | some l => d.breakLock l
  | none => d

/-- A lock whose count has reached LOCK_MAX is broken (R353). -/
def lockBreak (inst : Nat) (d : Dev) : Dev :=
  match d.fab.locks.find? (fun l => l.inst = inst) with
  | some l => if d.fld FABRIC_LOCKMAX_LOCK_MAX ≤ fcOf (d.ticks - l.since) then d.breakLock l else d
  | none => d

/-! ### Denials (R364) -/

/-- The oldest denied access is recorded, presented and answered; a pair's answer enters through its capture stage. -/
def deny (d : Dev) : Dev :=
  match d.fab.denials with
  | [] => d
  | x :: t =>
    let d := { d with fab := { d.fab with denials := t } }
    let d := d.recordDenial x
    match x.req with
    | some r => d.respondError r 3
    | none => d

/-- ARBITRATION_GRANT (R348). -/
def execArbitrationGrant (pt : Point) (s : State) : Host.Outcome State Fault Refusal := s.onDev (grant pt)

/-- REQUEST_URGENT (R347). -/
def execRequestUrgent (id : Nat) (s : State) : Host.Outcome State Fault Refusal := s.onDev (urgent id)

/-- LOCK_BREAK (R353). -/
def execLockBreak (inst : Fin 153) (s : State) : Host.Outcome State Fault Refusal := s.onDev (lockBreak inst)

/-- MPU_DENY (R364). -/
def execMpuDeny (s : State) : Host.Outcome State Fault Refusal := s.onDev deny

end Sys2Proof.Machine
end

