-- ==== Sys2Proof/Machine/Engine.lean ====
section
/-! DEFINITION. Engine.lean: the accesses of the masters that are not pairs (R325, R339, R342, R344 to R350, R364): their
turn at the arbitration points, and their reads and writes. An access acts within the command of its engine, as the
fabric grants it there; one that may not be granted yet waits in the fabric as a request of its master, and the
command does nothing else. -/

namespace Sys2Proof.Machine

/-! ### Turns at the arbitration points (R345 to R351) -/

/-- An access that must wait: the master, the point, the range, the direction. -/
structure EngineWait where
  m : Nat
  pt : Point
  addr : Nat
  size : Nat
  wr : Bool
deriving DecidableEq, Repr

/-- The arbitration point of a target for a master that is not a pair: plane B in cluster memory, and in shared memory for
the NV store engine (R317). -/
def enginePoint (m : Nat) (t : Target) : Point :=
  match t with
  | .bank inst _ _ => .bank inst (decide (32 ≤ inst) || m = mNvs)
  | .nv _ => .nvWindow
  | _ => .rom

/-- The request that a waiting access presents. -/
def Dev.requestFor (d : Dev) (w : EngineWait) : FabReq :=
  let io : Bool := match w.pt with
    | .io _ => true
    | _ => false
  { id := d.fab.nextId, lpair := w.m, phys := 0, mark := 0, route := [w.pt], since := d.ticks
    target := if io then w.addr else remapDecode d.remap w.addr
    req := { op := if w.wr then .busWr else .busRd
             tag := 0, addr := w.addr, size := w.size } }

/-- The request belongs to the access. -/
def EngineWait.owns (w : EngineWait) (r : FabReq) : Bool := r.lpair = w.m && r.req.addr = w.addr && r.at w.pt

/-- The access may not act yet: a lock, another access that its point is performing, or a request that R348 grants first. -/
def Dev.blocked (d : Dev) (w : EngineWait) : Bool :=
  d.lockedOut w.pt (d.requestFor w)
    || d.fab.granted.any (fun r => r.at w.pt && !r.syncRead && !(w.owns r))
    || (!(d.fab.granted.any w.owns) &&
        (let mine := (d.fab.waiting.find? w.owns).getD (d.requestFor w)
         ((d.presentedAt w.pt).filter (fun r => r.lpair != w.m && !(d.lockedOut w.pt r))).any
           (fun r => (d.betterReq mine r).id != mine.id)))

/-- The first point of a range at which an access of it must wait, if any. -/
def Dev.rangeWait (d : Dev) (m a n : Nat) (wr : Bool) : Option EngineWait :=
  if !d.start.clocksOff && d.fab.locks.isEmpty && d.fab.waiting.isEmpty && d.fab.granted.isEmpty then none
  else
    ((piecesOf a n).map (fun x =>
      ({ m := m, pt := enginePoint m (engineTarget d.remap x.1), addr := a, size := n, wr := wr } : EngineWait))).find? d.blocked

/-- The same for a register. -/
def Dev.ioWait (d : Dev) (m a : Nat) (wr : Bool) : Option EngineWait :=
  let w : EngineWait := { m := m, pt := .io (a / 0x10000), addr := a, size := 4, wr := wr }
  if d.blocked w then some w else none

/-- The device with a waiting access's request in the fabric, where it is not there yet (R345). -/
def Dev.waits (d : Dev) (w : EngineWait) : Dev :=
  if (d.fab.waiting ++ d.fab.granted).any w.owns then d
  else { d with fab := { d.fab with nextId := d.fab.nextId + 1, waiting := d.fab.waiting ++ [d.requestFor w] } }

/-- What holds an access back: its turn at a point, with the request that waits for it, or, with none, a register read that may
not complete yet (R366). -/
abbrev Hold := Option EngineWait

/-- The device with what holds an access back noted; nothing else has happened. -/
def Dev.onHold (d : Dev) (h : Hold) : Dev :=
  match h with
  | some w => d.waits w
  | none => d

/-- An engine's command is done, or its access waits. -/
def Dev.orWait (d : Dev) (x : Except Hold Dev) : Dev :=
  match x with
  | .ok e => e
  | .error h => d.onHold h

/-- The access of master `m` at an address acts: its requests leave the fabric, their waits recorded (R350). -/
def Dev.served (d : Dev) (m a : Nat) : Dev :=
  let mine (r : FabReq) : Bool := r.lpair = m && r.req.addr = a
  let d := (d.fab.waiting.filter mine).foldl (fun d r => d.leaveQueue (r.route.headD .rom) r) d
  { d with fab := { d.fab with granted := d.fab.granted.filter (fun r => !(mine r)) } }

/-- The error code with which a request of the access has failed on its way: a check code (R344), a fourth collision (R339). -/
def Dev.failedAt (d : Dev) (m a : Nat) : Option Nat :=
  (d.fab.ended.find? (fun x => x.1.lpair = m && x.1.req.addr = a)).map (fun x => x.2)

/-- The device with that failure taken. -/
def Dev.takeFailure (d : Dev) (m a : Nat) : Dev :=
  { d with fab := { d.fab with ended := d.fab.ended.filter (fun x => !(x.1.lpair = m && x.1.req.addr = a)) } }

/-- A granted request of such a master has lost a collision (R339): it is presented again, up to four attempts in all; the
debug master does not repeat. -/
def Dev.lostWrite (d : Dev) (r : FabReq) : Dev :=
  let r := { r with losses := r.losses + 1 }
  let d := { d with fab := { d.fab with granted := d.fab.granted.filter (fun x => x.id != r.id) } }
  if r.losses < 4 ∧ r.lpair ≠ mDebug then d.enqueue r
  else { d with fab := { d.fab with ended := d.fab.ended ++ [(r, 4)] } }

/-! ### Reads and writes -/

/-- How an engine's access ends. `held`: it waits; nothing has been done. -/
inductive BusEnd where
  | ok
  | error (code : Nat)
  | held (h : Hold)
deriving DecidableEq, Repr

/-- A read of up to 8 bytes within one word, after its MPU check: the value, the error code and the device. -/
def Dev.engineRead (d : Dev) (m addr n : Nat) : Nat × Nat × Dev :=
  let (v, code, d) := d.targetRead m (engineTarget d.remap addr)
  (bitsOf v (8 * (addr % 8)) (8 * n), code, d)

/-- A write of up to 8 bytes within one word, after its MPU check. -/
def Dev.engineWrite (d : Dev) (m addr n v : Nat) : Nat × Dev :=
  d.targetWrite m (engineTarget d.remap addr) (v <<< (8 * (addr % 8)) % 2 ^ 64) (byteMask (addr % 8) n)

/-- The region of R25 that a target lies in, as a number; an alias is a region of its own. -/
def regionId (t : Target) : Nat :=
  match t with
  | .none | .own => 0
  | .rom _ => 1
  | .nv _ => 2
  | .bank inst _ al => 3 + 5 * al + (if inst < 32 then 0 else 1 + (inst - 32) / 14)

/-- A range lies in one region of R25 and a burst or alias write of its size is one that the banks perform: through an
alias 1, 2, 4 or 8 bytes, naturally aligned (R26, R335). -/
def rangeSound (remap : Bool) (a n : Nat) (wr : Bool) : Bool :=
  let t := engineTarget remap a
  let r := regionId t
  r != 0 && regionId (engineTarget remap (a + n - 1)) == r &&
    (match t with
     | .bank _ _ al => al == 0 || !wr || ((n == 1 || n == 2 || n == 4 || n == 8) && a % n == 0)
     | _ => !wr)

/-- Pieces read one after another until the first error. -/
def Dev.readPieces (d : Dev) (m : Nat) : List (Nat × Nat) → List Byte × Nat × Dev
  | [] => ([], 0, d)
  | (a, n) :: t =>
    let (v, code, d) := d.engineRead m a n
    if code != 0 then ([], code, d)
    else
      let (rest, c, d) := Dev.readPieces d m t
      (leBytes n v ++ rest, c, d)

/-- Pieces written one after another until the first error. -/
def Dev.writePieces (d : Dev) (m : Nat) (bytes : List Byte) : List (Nat × Nat) → Nat × Dev
  | [] => (0, d)
  | (a, n) :: t =>
    let (code, d) := d.engineWrite m a n (leNat (bytes.take n))
    if code != 0 then (code, d) else Dev.writePieces d m (bytes.drop n) t

/-- The access that a master's read or write of a range asks of its MPU. -/
def rangeAccess (remap : Bool) (a n : Nat) (wr : Bool) : Access :=
  if wr then writeAccess remap a n else { addr := a, size := n, rd := true, wr := false }

/-- What becomes of a burst before it reaches its target: denied by the MPU, which comes first and keeps it out of the
fabric (R364), unsound (R26), failed on its way, or waiting. -/
inductive BurstGate where
  | denied (why : Bool × Bool)
  | fails (code : Nat)
  | waits (w : EngineWait)
  | passes
deriving DecidableEq, Repr

/-- The gate of a burst. -/
def Dev.burstGate (d : Dev) (m a n : Nat) (wr : Bool) : BurstGate :=
  match d.mpuCheck m (rangeAccess d.remap a n wr) with
  | some why => .denied why
  | none =>
    if !(rangeSound d.remap a n wr) then .fails 1
    else
      match d.failedAt m a with
      | some code => .fails code
      | none =>
        match d.rangeWait m a n wr with
        | some w => .waits w
        | none => .passes

/-- The gate of an access to one register. -/
def Dev.ioGate (d : Dev) (m : Nat) (a : Access) : BurstGate :=
  match d.mpuCheck m a with
  | some why => .denied why
  | none =>
    match d.failedAt m a.addr with
    | some code => .fails code
    | none =>
      match d.ioWait m a.addr a.wr with
      | some w => .waits w
      | none => .passes

/-- A master's read of `n` bytes of the data space (R364): denied, it reads zeros and the master is not told. -/
def Dev.busRead (d : Dev) (m a n : Nat) : List Byte × BusEnd × Dev :=
  if n = 0 then ([], .ok, d)
  else
    match d.burstGate m a n false with
    | .denied why => (List.replicate n 0, .ok, d.denied m (rangeAccess d.remap a n false) why none)
    | .fails code => (List.replicate n 0, .error code, d.takeFailure m a)
    | .waits w => ([], .held (some w), d)
    | .passes =>
      let (bytes, code, d) := (d.served m a).readPieces m (piecesOf a n)
      if code = 0 then (bytes, .ok, d) else (List.replicate n 0, .error code, d)

/-- A master's write of bytes to the data space (R364): denied, it is dropped and the master is not told. -/
def Dev.busWrite (d : Dev) (m a : Nat) (bytes : List Byte) : BusEnd × Dev :=
  let n := bytes.length
  if n = 0 then (.ok, d)
  else
    match d.burstGate m a n true with
    | .denied why => (.ok, d.denied m (rangeAccess d.remap a n true) why none)
    | .fails code => (.error code, d.takeFailure m a)
    | .waits w => (.held (some w), d)
    | .passes =>
      let (code, d) := (d.served m a).writePieces m bytes (piecesOf a n)
      if code = 0 then (.ok, d) else (.error code, d)

/-- Bursts of at most 256 bytes within a range (R363: 1 to 16 beats of 16 bytes). -/
def burstsOf : Nat → Nat → Nat → List (Nat × Nat)
  | 0, _, _ => []
  | k + 1, a, n =>
    if n = 0 then []
    else
      let m := min n (256 - a % 16)
      (a, m) :: burstsOf k (a + m) (n - m)

/-- The first of a list of bursts that must wait, no earlier one failing; `through` where a denied one does not end the list. -/
def Dev.firstWait (d : Dev) (m : Nat) (wr through : Bool) : List (Nat × Nat) → Option EngineWait
  | [] => none
  | (a, n) :: t =>
    match d.burstGate m a n wr with
    | .waits w => some w
    | .fails _ => none
    | .denied _ => if through then Dev.firstWait d m wr through t else none
    | .passes => Dev.firstWait d m wr through t

/-- The first wait of a range of any length. -/
def Dev.spanWait (d : Dev) (m a n : Nat) (wr : Bool) : Option EngineWait := d.firstWait m wr true (burstsOf (n / 240 + 2) a n)

/-- Reads burst by burst, each under its own check. -/
def Dev.readBursts (d : Dev) (m : Nat) : List (Nat × Nat) → List Byte × BusEnd × Dev
  | [] => ([], .ok, d)
  | (a, n) :: t =>
    let (b, e, d) := d.busRead m a n
    match e with
    | .ok =>
      let (rest, e, d) := Dev.readBursts d m t
      (b ++ rest, e, d)
    | e => (b, e, d)

/-- Writes burst by burst, each under its own check. -/
def Dev.writeBursts (d : Dev) (m : Nat) (bytes : List Byte) : List (Nat × Nat) → BusEnd × Dev
  | [] => (.ok, d)
  | (a, n) :: t =>
    let (e, d) := d.busWrite m a (bytes.take n)
    match e with
    | .ok => Dev.writeBursts d m (bytes.drop n) t
    | e => (e, d)

/-- An engine's read of a range of any length. A burst that must wait holds the whole access. -/
def Dev.engineLoad (d : Dev) (m a n : Nat) : List Byte × BusEnd × Dev :=
  match d.spanWait m a n false with
  | some w => ([], .held (some w), d)
  | none => d.readBursts m (burstsOf (n / 240 + 2) a n)

/-- An engine's write of a range of any length. -/
def Dev.engineStore (d : Dev) (m a : Nat) (bytes : List Byte) : BusEnd × Dev :=
  match d.spanWait m a bytes.length true with
  | some w => (.held (some w), d)
  | none => d.writeBursts m bytes (burstsOf (bytes.length / 240 + 2) a bytes.length)

end Sys2Proof.Machine
end

