-- ==== Sys2Proof/Machine/Keeper.lean ====
section
/-! DEFINITION. Keeper.lean: Keeper (R401 to R413): enabling, windows, service, check-ins, expiry, freezes; and the RESET
reaction that ends an expiry (R391). -/

namespace Sys2Proof.Machine

/-! ### Time and state -/

/-- KTIME: keeper ticks since enabling; zero while Keeper is off. -/
def Dev.kTime (d : Dev) : Nat := if d.on KEEPER_LOCK_LOCK then (d.ticks - d.keeper.start) / d.ktTicks else 0

/-- STAT.TICK: the present tick within the window (R405); a freeze stops it (R413). -/
def Dev.kTick (d : Dev) : Nat :=
  if d.fld KEEPER_STAT_STATE = 2 then (d.ticks - d.keeper.winStart) / d.ktTicks
  else if d.fld KEEPER_STAT_STATE = 3 then (d.keeper.frozenAt.getD d.ticks - d.keeper.winStart) / d.ktTicks
  else 0

/-- Keeper judges nothing: it is off, expired or about to expire (R404). -/
def Dev.keeperDeaf (d : Dev) : Bool :=
  d.fld KEEPER_STAT_STATE = 0 || d.fld KEEPER_STAT_STATE = 4 || d.keeper.expiring.isSome

/-- Keeper is to expire with a cause; the first cause stands. -/
def Dev.expireWith (d : Dev) (cause : Nat) : Dev :=
  if d.keeperDeaf then d else { d with keeper := { d.keeper with expiring := some cause } }

/-- What a Keeper fault of kind `k` (0 EARLY, 1 DOUBLE, 2 EXTRA) does by its ACT bit (R409). -/
def Dev.keeperFault (d : Dev) (k : Nat) : Dev :=
  if (d.fld KEEPER_CFG_ACT).testBit k then d.expireWith (k + 1) else d.present fiKprSvc k

/-- The logical pair is supervised (R413). -/
def Dev.supervised (d : Dev) (lp : Nat) : Bool :=
  d.fld KEEPER_CFG_SVCP = lp || (List.range 64).any (fun t => d.on (KEEPER_TASK_EN t) && d.fld (KEEPER_TASK_OWNER t) = lp)

/-! ### Enabling (R401, R403) -/

/-- The first write to CFG: the written settings, LOCK, and the state that the mode gives (R404). -/
def keeperEnable (w : Nat) (d : Dev) : Dev :=
  if d.on KEEPER_LOCK_LOCK then d
  else
    let d := (d.setFld KEEPER_CFG_CLK (bitOf w 28)).setFld KEEPER_CFG_UNIT (bitOf w 27)
    let d := (d.setFld KEEPER_CFG_HARD (bitsOf w 20 6)).setFld KEEPER_CFG_SVCP (bitsOf w 16 4)
    let d := (d.setFld KEEPER_CFG_ACT (bitsOf w 8 4)).setFld KEEPER_LOCK_LOCK 1
    let d := { d with keeper := { start := d.ticks, winStart := d.ticks } }
    (d.setFld KEEPER_STAT_STATE 1).keeperMode d.mode

/-! ### Service (R406) -/

/-- A write of `v` to KEEPER.SVC by master `m`, in the window in progress. -/
def judgeService (m v : Nat) (d : Dev) : Dev :=
  let st := d.fld KEEPER_STAT_STATE
  let old := d.fld KEEPER_SVC_SVC
  if d.keeperDeaf || (16 ≤ m && m != mIsland) then d
  else if m ≠ d.fld KEEPER_CFG_SVCP then (if st = 1 then d else d.flag KEEPER_ISTAT_FOREIGN)
  else if v ≠ notW 16 old then (if st = 1 then d else (d.flag KEEPER_ISTAT_DOUBLE).keeperFault 1)
  else
    let d := d.setFld KEEPER_SVC_SVC v
    if st ≠ 2 then d
    else if d.kTick < d.fld KEEPER_WIN_OPEN then (d.flag KEEPER_ISTAT_EARLY).keeperFault 0
    else if d.fld KEEPER_WIN_CLOSE ≤ d.kTick then d
    else if d.on KEEPER_STAT_SERVED then (d.flag KEEPER_ISTAT_EXTRA).keeperFault 2
    else (d.flag KEEPER_STAT_SERVED).setPair64 KEEPER_LASTSVCLO_LASTSVC KEEPER_LASTSVCHI_LASTSVC d.kTime

/-! ### Check-ins (R407) -/

/-- A check-in of task `t` from logical pair `lp`, in the window in progress. -/
def countCheckIn (lp t : Nat) (d : Dev) : Dev :=
  if d.keeperDeaf || d.fld KEEPER_STAT_STATE ≠ 2 then d
  else if !(d.on (KEEPER_TASK_EN t)) then d.flag KEEPER_ISTAT_UNSUP
  else if d.fld (KEEPER_TASK_OWNER t) ≠ lp then (d.flag KEEPER_ISTAT_FOREIGN).present fiKprTask (0x8000 + t)
  else
    (((d.count (KEEPER_TASK_COUNT t)).flag KEEPER_LASTCHK_VALID).setFld KEEPER_LASTCHK_LPAIR lp).setFld
      KEEPER_LASTCHK_TASK t

/-! ### The close tick (R408) -/

/-- The enabled tasks whose COUNT lies below MIN, and those whose COUNT lies above MAX, as 64-bit masks. -/
def Dev.taskFails (d : Dev) : Nat × Nat :=
  (maskOf (fun t => d.on (KEEPER_TASK_EN t) && decide (d.fld (KEEPER_TASK_COUNT t) < d.fld (KEEPER_TASK_MIN t))) 64,
   maskOf (fun t => d.on (KEEPER_TASK_EN t) && decide (d.fld (KEEPER_TASK_MAX t) < d.fld (KEEPER_TASK_COUNT t))) 64)

/-- The lowest set bit below 64. -/
def lowestBit (x : Nat) : Nat := ((List.range 64).find? (fun i => x.testBit i)).getD 0

/-- The window closes: service, then tasks, then the next window. -/
def windowClose (d : Dev) : Dev :=
  let len := d.fld KEEPER_WIN_CLOSE * d.ktTicks
  if d.fld KEEPER_STAT_STATE = 2 && d.keeper.expiring.isNone && d.elapsed d.keeper.winStart len then
    let d := if d.on KEEPER_STAT_SERVED then d else d.expireWith 0
    let (lo, hi) := d.taskFails
    let d := (d.setPair64 (KEEPER_TLO_FAIL 0) (KEEPER_TLO_FAIL 1) lo).setPair64 (KEEPER_THI_FAIL 0) (KEEPER_THI_FAIL 1) hi
    let d :=
      if lo + hi = 0 then d
      else if (d.fld KEEPER_CFG_ACT).testBit 3 then (d.flag KEEPER_ISTAT_TASK).expireWith 4
      else (d.flag KEEPER_ISTAT_TASK).present fiKprTask (lowestBit (lo ||| hi))
    if d.keeper.expiring.isSome then d
    else
      let start := d.keeper.winStart + len
      let d := d.freshWindow
      { d with keeper := { d.keeper with winStart := start } }
  else d

/-- The windows whose close tick has come are closed before a write or a check-in is judged (R408 step 4). The window that
starts at a close is unserved: if it has closed too, Keeper expires, and nothing further closes. -/
def Dev.closeDue (d : Dev) : Dev := windowClose (windowClose d)

/-- A write of `v` to KEEPER.SVC by master `m` (R406). -/
def service (m v : Nat) (d : Dev) : Dev := judgeService m v d.closeDue

/-- A check-in of task `t` from logical pair `lp` (R407). -/
def keeperCheck (lp t : Nat) (d : Dev) : Dev := countCheckIn lp t d.closeDue

/-! ### Expiry (R410 to R412) -/

/-- The RESET reaction (R391, R394): all that a SAFE_STOP reaction does, the seal of the open page, then the device reset,
which the device owes from then on. -/
def Dev.resetReaction (d : Dev) (trig : Nat) : Dev :=
  let d := (d.safeStopCause trigSafeStop).flag SAFEISL_STAT_REACT
  let d := if d.nvs.opened.isEmpty then d else d.sealPage 0
  { d with island := { d.island with resetAfterSeal := true, resetTrig := trig } }

/-- The physical pair takes the expiry trap through its capture stage. -/
def Dev.raiseTrap (d : Dev) (p : Nat) : Dev :=
  if d.pairState p = stActive || d.pairState p = stRecovering then d.capture p .expiry else d

/-- Keeper expires (R410 steps 1 to 3). -/
def keeperExpiry (d : Dev) : Dev :=
  match d.keeper.expiring with
  | none => d
  | some cause =>
    let now := d.kTime
    let d := { d with keeper := { d.keeper with expiring := none, hardStart := some d.ticks } }
    let d := (d.setFld KEEPER_STAT_STATE 4).setPair64 KEEPER_EVTIMELO_EVTIME KEEPER_EVTIMEHI_EVTIME now
    let d := ((d.setFld KEEPER_EVSTAT_CAUSE cause).flag KEEPER_EVSTAT_VALID).setFld KEEPER_EVSTAT_JNL 0
    let d := (List.range 16).foldl (fun d p => d.setFld (KEEPER_EVPC_VALID p) 0) d
    let d := (d.present fiKprExpiry cause).assertForce
    (List.range 16).foldl Dev.raiseTrap d

/-- The hard timer ends: the island applies a RESET reaction (R410 step 5). -/
def hardTimerEnd (d : Dev) : Dev :=
  match d.keeper.hardStart with
  | none => d
  | some t =>
    if d.elapsed t (16 * (d.fld KEEPER_CFG_HARD + 1) * usTicks) then
      { d with keeper := { d.keeper with hardStart := none } }.resetReaction trigKeeper
    else d

/-- A pair's trap record reaches Keeper (R410 step 4). -/
def Dev.trapRpc (d : Dev) (p rpc : Nat) : Dev :=
  ((d.setFld (KEEPER_EVPC_RPC p) rpc).setFld (KEEPER_EVPC_LPAIR p) (d.lpairOf p)).flag (KEEPER_EVPC_VALID p)

/-- The evidence as the journal entry holds it (R412). -/
def Dev.evidenceArgs (d : Dev) : List Nat :=
  [0x0D001C, 0x0D0020, 0x0D0024, 0x0D0028, 0x0D002C, 0x0D0030, 0x0D0040, 0x0D0044, 0x0D0048, 0x0D004C].map
      (fun a => (d.word a).toNat) ++ (List.range 16).map (fun p => (d.word (0x0D0080 + 4 * p)).toNat)

/-- EVSTAT.VALID is cleared by a 1, and every EVPCp.VALID with it. -/
def evstatClear (d : Dev) : Dev :=
  (List.range 16).foldl (fun d p => d.setFld (KEEPER_EVPC_VALID p) 0) (d.setFld KEEPER_EVSTAT_VALID 0)

/-! ### Freezes (R413) -/

/-- A supervised logical pair halts: in WATCH, Keeper freezes. -/
def Dev.keeperFreeze (d : Dev) (lp : Nat) : Dev :=
  if d.fld KEEPER_STAT_STATE = 2 && d.keeper.expiring.isNone && d.supervised lp then
    { (d.setFld KEEPER_STAT_STATE 3) with keeper := { d.keeper with frozenAt := some d.ticks } }
  else d

/-- A logical pair is released: when the last supervised one is, a fresh window starts and the pause is recorded. -/
def Dev.keeperThaw (d : Dev) : Dev :=
  if d.fld KEEPER_STAT_STATE = 3 &&
      !((List.range 16).any (fun lp => d.supervised lp && d.on (DEBUG_PSTAT_HALTED lp))) then
    let len := min 65535 ((d.ticks - d.keeper.frozenAt.getD d.ticks) / d.ktTicks)
    let d := ((d.count KEEPER_PAUSE_COUNT).setFld KEEPER_PAUSE_LAST len).flag KEEPER_ISTAT_PAUSE
    ((d.setFld KEEPER_STAT_STATE 2).freshWindow).journal 0x15 [len]
  else d

/-! ### The commands -/

/-- KEEPER_ENABLE (R401). -/
def execKeeperEnable (w : Word) (s : State) : Host.Outcome State Fault Refusal := s.onDev (keeperEnable w.toNat)

/-- SVC_WRITE (R406). -/
def execSvcWrite (m : Fin 31) (v : BitVec 16) (s : State) : Host.Outcome State Fault Refusal :=
  s.onDev (service m v.toNat)

/-- WINDOW_CLOSE (R408). -/
def execWindowClose (s : State) : Host.Outcome State Fault Refusal := s.onDev windowClose

/-- KPR_EXPIRY (R410). -/
def execKprExpiry (s : State) : Host.Outcome State Fault Refusal := s.onDev keeperExpiry

/-- HARD_TIMER_END (R410, R411). -/
def execHardTimerEnd (s : State) : Host.Outcome State Fault Refusal := s.onDev hardTimerEnd

/-- KEEPER_CLOCK_TRIP (R403). -/
def execKeeperClockTrip (s : State) : Host.Outcome State Fault Refusal := s.onDev (fun d => d.expireWith 5)

/-- EVSTAT_CLEAR (R412). -/
def execEvstatClear (s : State) : Host.Outcome State Fault Refusal := s.onDev evstatClear

end Sys2Proof.Machine
end

