-- ==== Sys2Proof/Machine/Pair.lean ====
section
/-! DEFINITION. Pair.lean: the parts that serve both cores of a pair outside checkpoints (R200 to R215, R225 to R233): the
happenings record, what leaves the pair, checkpoint conditions, and debug halts (R556 to R558, R561). -/

namespace Sys2Proof.Machine

/-! ### Limits and occupancy (R210, R211) -/

/-- A limit in cc at 1.2 GHz as it takes effect at clock step `s` (R210). -/
def effective (stored s : Nat) : Nat := stored * s / 48

/-- SEGEFF.LEN and SEGEFF.DUE of a pair (R210). -/
def Pair.len (x : Pair) : Nat := effective x.segLimit x.step
def Pair.dueAt (x : Pair) : Nat := x.len - effective x.segDrain x.step

/-- Entries of the commit buffer in use: those under release count (R221). -/
def Pair.cbUsed (x : Pair) : Nat := x.lead.cb.length + x.rel.length

/-- Undo-log entries in use, reservations included (R224). -/
def Pair.undoUsed (x : Pair) : Nat := x.lead.undo.length + x.lead.undoReserved

/-- The device with PAIRCTL.OCC at the highest occupancies seen. -/
def Dev.noteOcc (d : Dev) (p : Nat) : Dev :=
  let x := d.pair p
  let up (d : Dev) (f : Fld) (v : Nat) : Dev := if d.fld f < v then d.setFld f (min 255 v) else d
  up (up (up d (PAIRCTL_OCC_CBMAX p) (x.cbUsed / 2)) (PAIRCTL_OCC_UNDOMAX p) (x.undoUsed / 8))
    (PAIRCTL_OCC_RECMAX p) x.happ.length

/-! ### When a checkpoint falls due (R211) -/

/-- The next bundle with its live moves, as it would issue. -/
def Core.nextMoves (c : Core) (b : Bundle) : List LiveMove := c.land.liveMoves b b.moves 0

/-- The next bundle holds an enabled immediate-class trigger. -/
def Core.nextImmediate (c : Core) (b : Bundle) : Bool := c.land.bundleImmediate (c.nextMoves b)

/-- The next bundle holds an enabled `rd` that matches an I/O write among `held`. -/
def Core.nextReads (c : Core) (held : List CbEntry) (b : Bundle) : Bool :=
  { c.land with cb := [] }.bundleReadsHeld held (c.nextMoves b)

/-- A condition of R211 holds, the next bundle being `b` where it can be decoded. -/
def Pair.dueNow (x : Pair) (b : Option Bundle) : Bool :=
  x.due || x.asked || x.immIssued || decide (x.dueAt ≤ x.segCount) || decide (256 < x.cbUsed + 8)
    || decide (1024 < x.undoUsed + 64) || decide (24 ≤ x.happ.length)
    || (match b with
        | some b =>
          (!x.fresh && x.lead.nextImmediate b) || x.lead.nextReads x.lead.cb b || (!x.fresh && x.lead.nextReads x.rel b)
        | none => false)

/-- The bundle must wait for a release in progress (R231). -/
def Pair.mustWait (x : Pair) (b : Bundle) : Bool :=
  x.releasing && (x.lead.nextImmediate b || x.lead.nextReads x.rel b)

/-- The form in which a rewritten bundle is held: a free choice (R197). -/
def Pair.oldForm (x : Pair) : Bool := Config.freeBit x.choice

/-- The boundary of one core of the pair (R172). A debug write makes a checkpoint due before the first bundle (R560); no
entry of rows 5 and 6 is taken during a step (R558). -/
def Pair.boundaryOf (x : Pair) (c : Core) : Boundary :=
  (if x.dbg.stepping && decide (c.level < 16) then { c with level := 16 } else c).boundary x.oldForm
    (fun b => x.dueNow b || x.dbg.ckptFirst) x.mustWait c.nextImmediate

/-- The boundary of the pair, if its cores reach the same one. -/
def Pair.boundary (x : Pair) : Option Boundary :=
  let a := x.boundaryOf x.lead
  if a = x.boundaryOf x.shadow then some a else none

/-- The pair may act at a boundary: it runs, no checkpoint is in progress, it is not halted, and it has taken over. -/
def Dev.atBoundary (d : Dev) (p : Nat) : Bool :=
  let x := d.pair p
  d.pairRuns p && x.phase == .run && !x.dbg.halted && x.movedFrom.isNone && !x.fencing

/-! ### Halts (R556 to R558) -/

/-- The pair's halt takes effect: flags, cause, Keeper. -/
def Dev.haltPair (d : Dev) (p cause : Nat) : Dev :=
  let lp := d.lpairOf p
  let x := d.pair p
  let d := d.setPair p { x with dbg := { x.dbg with halted := true, haltAsked := false, stepping := false, cause := cause } }
  let d := ((d.setFld (DEBUG_PSTAT_HALTED lp) 1).setFld (DEBUG_PSTAT_DEFER lp) 0).setFld (DEBUG_PSTAT_STEP lp) 0
  let d := (d.setFld (DEBUG_PSTAT_CAUSE lp) cause).setBitOf DEBUG_STAT_HALTED lp
  (d.flag DEBUG_ISTAT_HALT).keeperFreeze lp

/-- A halt that is asked for is taken at a boundary with no locked sequence open; while one is open it is deferred. -/
def Dev.settleHalt (d : Dev) (p : Nat) : Dev :=
  let x := d.pair p
  if !x.dbg.haltAsked || x.dbg.halted then d
  else if x.lead.lockAddr.isSome then d.setFld (DEBUG_PSTAT_DEFER (d.lpairOf p)) 1
  else if x.phase == .run && !x.lead.returnDue && d.pairRuns p then d.haltPair p x.dbg.cause
  else d

/-- A pair released from its halt. -/
def Dev.releasePair (d : Dev) (p : Nat) : Dev :=
  let lp := d.lpairOf p
  let x := d.pair p
  let d := d.setPair p { x with dbg := { x.dbg with halted := false, haltAsked := false, pass := true } }
  let d := ((d.setFld (DEBUG_PSTAT_HALTED lp) 0).setFld (DEBUG_PSTAT_DEFER lp) 0).clearBitOf DEBUG_STAT_HALTED lp
  d.keeperThaw

/-! ### Debug comparators (R561) -/

/-- Comparator `k` of logical pair `lp` is enabled with a kind. -/
def Dev.compOn (d : Dev) (lp k kind : Nat) : Bool :=
  d.on (DEBUG_COMPCTL_EN lp k) && d.fld (DEBUG_COMPCTL_KIND lp k) = kind

/-- The address matches comparator `k`. -/
def Dev.compHits (d : Dev) (lp k a : Nat) : Bool :=
  ((a ^^^ d.fld (DEBUG_COMPADDR_ADDR lp k)) &&& d.fld (DEBUG_COMPMASK_MASK lp k)) = 0

/-- A BUNDLE comparator that matches the next bundle. -/
def Dev.bundleHit (d : Dev) (lp : Nat) (c : Core) (b : Bundle) : Option Nat :=
  let ms := c.nextMoves b
  (List.range 8).find? (fun k =>
    d.compOn lp k 0 && d.compHits lp k c.pc &&
      (let slots := d.fld (DEBUG_COMPCTL_SLOTS lp k)
       slots = 0 || ms.any (fun m => slots.testBit m.slot)))

/-- What a live move accesses: kind 1 reads, 2 writes, 3 I/O, with the address. An atomic both reads and writes. -/
def Core.moveAccess (c : Core) (ms : List LiveMove) (m : LiveMove) : List (Nat × Nat) :=
  if !(isTrig m.dst) then []
  else
    let u := trigUnit m.dst
    let op := trigOp m.dst
    let a := operandAfter c ms (o1Of u)
    let cc := operandAfter c ms (o2Of u)
    if u = 10 ∨ u = 11 then
      let ad := lsAddr op (widthBits m.width) a m.val cc
      if op ≤ 3 ∨ op = 0x10 ∨ op = 0x11 ∨ op = 0x1A then [(1, ad)]
      else if op = 0x18 ∨ op = 0x19 then [(1, ad), (2, ad)]
      else if op = 0x1C then [] else [(2, ad)]
    else if u = 12 then [(3, ioAddr op a m.val cc)]
    else []

/-- A READ, WRITE or IO comparator that matches an access of the bundle. -/
def Dev.accessHit (d : Dev) (lp : Nat) (c : Core) (b : Bundle) : Option Nat :=
  let l := c.land
  let ms := c.nextMoves b
  (List.range 8).find? (fun k =>
    d.on (DEBUG_COMPCTL_EN lp k) &&
      ms.any (fun m => (d.fld (DEBUG_COMPCTL_SLOTS lp k)).testBit m.slot &&
        (l.moveAccess ms m).any (fun x => d.compOn lp k x.1 && d.compHits lp k x.2)))

/-- The device with a halt asked for by comparator `k`. -/
def Dev.askHalt (d : Dev) (p cause : Nat) : Dev :=
  let x := d.pair p
  d.setPair p { x with dbg := { x.dbg with haltAsked := true, cause := cause } }

/-! ### What leaves the pair (R207, R228, R233, R273, R379) -/

/-- What lane group `g` carries of a signal (R207): the part of a request that the group carries, or the whole signal.
DESIGN CHOICE: the bytes that the commit buffer supplies to a far load count as write data. -/
def CoreOut.onLane (g : Nat) (o : CoreOut) : Option CoreOut :=
  match o with
  | .req r =>
    if r.isIo then (if g = 3 then some o else none)
    else if g = 0 then some (.req { r with size := 0, data := 0, imm := false, lockMark := false, fwdMask := 0, fwdData := 0 })
    else if g = 1 then some (.req { op := .st, tag := 0, addr := 0, data := r.data, fwdMask := r.fwdMask, fwdData := r.fwdData })
    else if g = 2 then some (.req { op := .st, tag := 0, addr := r.addr % 8, size := r.size, imm := r.imm, lockMark := r.lockMark })
    else none
  | .arm .. | .disarm .. => if g = 3 then some o else none
  | .wait .. | .sigImm .. => if g = 6 then some o else none
  | .fillLocal .. => if g = 11 then some o else none
  | .denied .. | .lmemError | .vecError | .noBank | .expiryPc .. => if g = 9 then some o else none

/-- The device with detector `k` of physical pair `p` at `x` (R273). -/
def Dev.setDetector (d : Dev) (p k : Nat) (x : Detector) : Dev :=
  { d with lantern := { d.lantern with dets := arrSet {} d.lantern.dets (8 * p + k) x } }

/-- A detector of physical pair `p`. -/
def Dev.detector (d : Dev) (p k : Nat) : Detector := arrGet {} d.lantern.dets (8 * p + k)

/-- The detector that an arming of core gate `k` makes (R269, R273). -/
def Dev.armDetector (d : Dev) (p k : Nat) : Dev :=
  let g := (d.pair p).lead.gate k
  d.setDetector p k { armed := true, gen := g.gen, tb := g.tb, angle := g.angle, down := g.down, since := d.lantern.lt }

/-- The detector after a disarm: its generation follows the core's gate (R273). -/
def Dev.disarmDetector (d : Dev) (p k : Nat) : Dev :=
  d.setDetector p k { d.detector p k with armed := false, sent := false, gen := ((d.pair p).lead.gate k).gen }

/-- A gate release recorded for this gate, timebase, angle and direction. -/
def isGate (k tb angle : Nat) (down : Bool) (h : HappKind) : Bool :=
  match h with
  | .gate k' tb' a' dn' _ => k' == k && tb' == tb && a' == angle && dn' == down
  | _ => false

/-- An event recorded for an input. -/
def isEvent (i : Nat) (h : HappKind) : Bool :=
  match h with
  | .event c _ => c == i
  | _ => false

/-- The record holds an unconsumed entry that satisfies `p`. -/
def Pair.unused (x : Pair) (p : HappKind → Bool) : Option HappKind :=
  (x.happ.find? (fun h => !h.used && p h.kind)).map (fun h => h.kind)

/-- The pair with the first unconsumed entry that satisfies `p` consumed. -/
def Pair.consume (x : Pair) (p : HappKind → Bool) : Pair := { x with happ := consumeFirst p x.happ }

/-- An arming of gate `k`: served from the record, or sent to the detector (R228, R277). -/
def Dev.emitArm (d : Dev) (p k tb angle : Nat) (down : Bool) : Dev :=
  let x := d.pair p
  match x.unused (isGate k tb angle down) with
  | some _ =>
    let x := (x.consume (isGate k tb angle down)).both
      (fun c => c.setGate k { c.gate k with armed := false, released := true })
    (d.setPair p x).disarmDetector p k
  | none => d.armDetector p k

/-- A wait on input `c`: served from the record, or sent to the matrix (R228, R379, R380). -/
def Dev.emitWait (d : Dev) (p c : Nat) : Dev :=
  let x := d.pair p
  match x.unused (isEvent c) with
  | some (.event _ stamp) => d.setPair p ((x.consume (isEvent c)).both (fun k => k.completeWait (c % 8) stamp))
  | _ => { d with evt := { d.evt with requests := d.evt.requests ++ [c] } }

/-- An immediate-class request: one whose departure is recorded sends nothing and takes the recorded completion; another
departs, by `send` (R233). -/
def Dev.emitImmediate (d : Dev) (p : Nat) (r : PairReq) (send : Dev → Dev) : Dev :=
  let x := d.pair p
  match x.unused (isDepart r.slot) with
  | some _ =>
    let x := x.consume (isDepart r.slot)
    match x.unused (isComplete r.tag) with
    | some (.complete t v code a lock) =>
      let x := x.consume (isComplete r.tag)
      d.setPair p { x with capture := x.capture ++ [.response x.mark t false r.slot v code a lock] }
    | _ => d.setPair p x
  | none => send (d.setPair p (x.record (.depart r.slot) true))

/-- A `sig.imm` (R165, R233): produced once. -/
def Dev.emitSig (d : Dev) (p n slot : Nat) : Dev :=
  let x := d.pair p
  match x.unused (isDepart slot) with
  | some _ => d.setPair p (x.consume (isDepart slot))
  | none => (d.setPair p (x.record (.depart slot) true)).produce { prod := 322 + 4 * d.lpairOf p + n }

/-- One signal of a pair whose cores agree on it. -/
def Dev.emit (d : Dev) (p : Nat) (o : CoreOut) : Dev :=
  let lp := d.lpairOf p
  match o with
  | .req r => if r.imm then d.emitImmediate p r (fun d => d.sendReq p r) else d.sendReq p r
  | .fillLocal r ws code =>
    d.emitImmediate p r (fun d => d.answer lp true (d.pair p).mark r.tag r.slot (if code = 0 then 0 else errorStatus code) code
      r.addr 0 (some (r.dst, ws)))
  | .arm k tb angle down => d.emitArm p k tb angle down
  | .disarm k => d.disarmDetector p k
  | .wait i => d.emitWait p (8 * lp + i)
  | .sigImm n slot => d.emitSig p n slot
  | .denied io addr size user =>
    let a : Access :=
      if io then { io := true, addr := addr, size := size, rd := false, wr := true, user := user }
      else { writeAccess d.remap addr size with user := user }
    d.denied lp a ((d.mpuCheck lp a).getD (false, true)) none
  | .lmemError => d.presentPair p pfLmem
  | .vecError => (d.flag (INTC_FSTAT_VECERR lp)).presentPair p pfVector
  | .noBank => (d.flag (INTC_FSTAT_NOBANK lp)).presentPair p pfNobank
  | .expiryPc rpc => d.trapRpc p rpc

/-- The notes of a core's reads (R330): correctable errors counted and written back, disagreeing valid copies rewritten at
once (R322); uncorrectable ones counted. -/
def Dev.noteLocal (d : Dev) (p : Nat) (shadow : Bool) (n : MemNote) : Dev :=
  let inst := 88 + 4 * p + (if shadow then 2 else 0) + n.m
  let m := d.localRam inst
  let split := ramSplit m n.word
  let d := if split then d.setLocalRam inst (ramHeal m n.word) else d
  if n.bad then (if split then d.correctable inst else d).count (MEMCTL_INST_UECNT inst)
  else
    let d := d.correctable inst
    if (ramRead m n.word n.word).kind = .clean then d else d.queueWriteBack inst n.word

/-- The notes of both cores. -/
def Dev.noteBoth (d : Dev) (p : Nat) (a b : List MemNote) : Dev :=
  b.foldl (fun d n => d.noteLocal p true n) (a.foldl (fun d n => d.noteLocal p false n) d)

/-- The lane groups of a pair that have failed a self-test: differences in them go unseen (R251). -/
def Dev.unprotected (d : Dev) (p : Nat) : Nat := d.fld (PAIRCTL_CMPTEST_LGFAIL p)

/-- The lowest protected lane group in which two lists of signals differ (R208, R209). DESIGN CHOICE: the lowest, where
several differ in one pair cycle. -/
def outDiffer (failed : Nat) (a b : List CoreOut) : Option Nat :=
  if a = b then none
  else (List.range 12).find? (fun g =>
    !(failed.testBit g) && decide (a.filterMap (CoreOut.onLane g) ≠ b.filterMap (CoreOut.onLane g)))

/-- The environment of a pair's cores (R219, R220). -/
def Dev.coreEnv (d : Dev) (p : Nat) : CoreEnv := { check := d.bufferCheck (d.lpairOf p), rel := (d.pair p).rel }

/-- The pair with `n` cycles spent (R210). -/
def Pair.spend (x : Pair) (n : Nat) : Pair := { x with segCount := x.segCount + n, ccUsed := x.ccUsed + n }

end Sys2Proof.Machine
end

