-- ==== Sys2Proof/Machine/Frame.lean ====
section
/-! DEFINITION. Frame.lean: the frame of a core (R235), its signature (R234), and the mirror's slots and images
(R236 to R238). -/

namespace Sys2Proof.Machine

/-! ### The frame (R235) -/

/-- The code of a tag's state in the frame. DEDUCED: in the order in which R235 lists the states. -/
def TagSt.code : TagSt → Nat
  | .pending => 0
  | .done => 1
  | .failed => 2
  | .waitEvent => 3

/-- The tag state of a code. -/
def TagSt.ofCode (n : Nat) : TagSt :=
  if n = 0 then .pending else if n = 1 then .done else if n = 2 then .failed else .waitEvent

/-- The values of a pending transfer. -/
def Transfer.values (t : Transfer) : List Nat := [t.target, t.remain, if t.rfi then 1 else 0]

/-- The values of the frame's first 64 bytes. -/
def Core.headValues (c : Core) : List Nat :=
  [c.pc, c.lc, c.psw, c.tagNext, c.guards, c.level, c.isafeCount, if c.lockAddr.isSome then 1 else 0,
   c.lockAddr.getD 0] ++ c.transfers.flatMap Transfer.values

/-- The values of a result in flight. -/
def Inflight.values (f : Inflight) : List Nat := [f.port, f.value.toNat, f.flags, f.remain]

/-- The values of a gate. -/
def CoreGate.values (g : CoreGate) : List Nat :=
  [if g.armed then 1 else 0, if g.released then 1 else 0, g.tb, g.angle, if g.down then 1 else 0, g.gen]

/-- The values of a shadow bank. -/
def Bank.values (b : Bank) : List Nat :=
  [b.pc, b.psw, b.level, b.guards, b.lc] ++ (List.range 16).map (fun i => (arrGet (0 : DWord) b.a i).toNat)
    ++ operandPorts.map (fun s => (arrGet (0 : DWord) b.oports s).toNat)
    ++ resultPorts.map (fun s => (arrGet (0 : DWord) b.rports s).toNat) ++ [b.transfers.length]
    ++ b.transfers.flatMap Transfer.values ++ b.inflight.flatMap Inflight.values

/-- The values of a bank that may be free. -/
def bankValues : Option Bank → List Nat
  | none => []
  | some b => 1 :: b.values

/-- Word `w` of the frame: the 64 bits at byte offset 8w (R235). -/
def Core.frameWord (c : Core) (w : Nat) : Nat :=
  if w < 8 then (Config.frameWord 0 w c.headValues).toNat
  else if w < 136 then c.reg (w - 8)
  else if w < 159 then c.oport (nth 0 operandPorts (w - 136))
  else if w < 168 then 0
  else if w < 184 then c.rport (nth 0 resultPorts (w - 168))
  else if w < 248 then (Config.frameWord 0x5C0 (w - 184) (c.inflight.flatMap Inflight.values)).toNat
  else if w < 280 then (c.tag (w - 248)).value.toNat
  else if w = 280 then packFields ((List.range 32).map (fun t => ((c.tag t).st.code, 2 * t, 2)))
  else if w < 289 then
    packFields ((List.range 4).map (fun i => ((c.tag (4 * (w - 281) + i)).code, 16 * i, 16)))
  else if w < 296 then 0
  else if w < 304 then
    (Config.frameWord 0x940 (w - 296) ((List.range 8).flatMap (fun k => (c.gate k).values))).toNat
  else if w < 308 then bitsOf c.acked (64 * (w - 304)) 64
  else if w < 312 then 0
  else if w < 440 then (Config.frameWord 0x9C0 (w - 312) (bankValues c.bank0)).toNat
  else if w < 568 then (Config.frameWord 0xDC0 (w - 440) (bankValues c.bank1)).toNat
  else 0

/-- Words of a frame: 12,288 bytes. -/
def frameWords : Nat := 1536

/-- What a checkpoint store and a slot keep of a core: its frame and the interrupt state, nothing of its memories and
logs. -/
def Core.frame (c : Core) : Core :=
  { c with dmem := {}, imem := {}, undo := [], undoReserved := 0, cb := [], ops := [], barriers := [], stale := [],
           staleFor := 0 }

/-! ### The signature (R234) -/

/-- The XOR of the terms of the items from index `i0` on. -/
def sigSum (v : Nat → Nat) (i0 : Nat) : Nat → Nat
  | 0 => 0
  | n + 1 => sigSum v i0 n ^^^ sigTerm (i0 + n) (v n)

/-- A word of a memory as the signature covers it: the value written to it, which no flip and no write-back changes (R234,
R326). It is what the word reads as, from the other core's copy where this one is beyond correction. DEDUCED: a word
that neither copy can give counts as its bits stand. -/
def memItem (m other : Ram) (w : Nat) : Nat :=
  let r := ramRead m w w
  if !r.bad then r.value
  else
    let s := ramRead other w w
    if s.bad then ramRaw m w else s.value

/-- A core's signature, beside the other core of its pair: frame, data memory, instruction memory. -/
def Core.signature (c o : Core) : Nat :=
  sigSum c.frameWord 0 frameWords ^^^ sigSum (memItem c.dmem o.dmem) 0x10000 16384
    ^^^ sigSum (memItem c.imem o.imem) 0x20000 16384

/-- The two cores' signatures differ. Cores with equal covered state have equal signatures. -/
def Pair.sigDiffer (x : Pair) : Bool :=
  !(decide (x.lead.frame = x.shadow.frame) && decide (x.lead.dmem = x.shadow.dmem) && decide (x.lead.imem = x.shadow.imem))
    && x.lead.signature x.shadow != x.shadow.signature x.lead

/-! ### The mirror (R236, R237) -/

/-- The byte offset of a slot in its mirror. -/
def slotBase (b : Bool) : Nat := if b then 0x48000 else 0x40000

/-- A mirror slot: A or B of a logical pair. -/
def Dev.slotOf (d : Dev) (lp : Nat) (b : Bool) : Slot := arrGet {} d.mirror (2 * lp + (if b then 1 else 0))

/-- The device with a mirror slot at `x`. -/
def Dev.setSlot (d : Dev) (lp : Nat) (b : Bool) (x : Slot) : Dev :=
  { d with mirror := arrSet {} d.mirror (2 * lp + (if b then 1 else 0)) x }

/-- The eight words of a slot header: the checkpoint number, the signature and six words whose layout is open. -/
def Slot.header (x : Slot) : List DWord :=
  BitVec.ofNat 64 x.ckNum :: BitVec.ofNat 64 x.sig ::
    (List.range 6).map (fun i => Config.headerWord i
      [x.delta.length, x.lpair, x.step, if x.applied then 1 else 0, if x.valid then 1 else 0])

/-- The words of a slot's delta: each entry's value, then its word index. -/
def Slot.deltaWords (x : Slot) : List DWord := x.delta.flatMap (fun e => [e.2, BitVec.ofNat 64 e.1])

/-- The device with a slot's header written, in one beat. -/
def Dev.writeHeader (d : Dev) (lp : Nat) (b : Bool) (x : Slot) : Dev :=
  (d.mirrorWords lp (slotBase b) x.header).setSlot lp b x

/-- The device with a whole slot written: frame, delta, and the header last (R216). -/
def Dev.writeSlot (d : Dev) (lp : Nat) (b : Bool) (x : Slot) : Dev :=
  let d := d.mirrorWords lp (slotBase b + 0x40) ((List.range frameWords).map (fun w => BitVec.ofNat 64 (x.frame.frameWord w)))
  let d := d.mirrorWords lp (slotBase b + 0x4000) x.deltaWords
  d.writeHeader lp b x

/-- The restart point: the valid slot with the higher checkpoint number (R238). -/
def Dev.restartSlot (d : Dev) (lp : Nat) : Bool :=
  let a := d.slotOf lp false
  let b := d.slotOf lp true
  b.valid && (!a.valid || decide (a.ckNum < b.ckNum))

/-- A read of a mirror word by the mirror port: its value, whether it is uncorrectable, the device. -/
def Dev.mirrorRead (d : Dev) (lp off : Nat) : Nat × Bool × Dev :=
  match targetOf false (0x11B00000 + lp * 0x50000 + off) with
  | .bank inst word _ => d.bankRead 31 inst word
  | _ => (0, false, d)

/-- Words of a mirror read in order, stopping at the first uncorrectable one. -/
def Dev.mirrorReads (d : Dev) (lp : Nat) : Nat → Nat → List Nat × Bool × Dev
  | _, 0 => ([], false, d)
  | off, n + 1 =>
    let (v, bad, d) := d.mirrorRead lp off
    if bad then ([], true, d)
    else
      let (rest, bad, d) := Dev.mirrorReads d lp (off + 8) n
      (v :: rest, bad, d)

/-- A delta written into a mirror's data-memory image. -/
def Dev.applyDelta (d : Dev) (lp : Nat) : List (Nat × DWord) → Dev
  | [] => d
  | e :: t => Dev.applyDelta (d.mirrorWord lp (0x20000 + 8 * e.1) e.2.toNat) lp t

/-- Numbered bytes of a list of words, from word `w` on, the zero bytes left out. -/
def imageBytes : Nat → List Nat → List (Nat × Byte)
  | _, [] => []
  | w, v :: t =>
    ((List.range 8).filterMap (fun i =>
      let b := BitVec.ofNat 8 (bitsOf v (8 * i) 8)
      if b = 0 then none else some (8 * w + i, b))) ++ imageBytes (w + 1) t

/-- Numbered check codes of a list of words, the zero codes left out. -/
def imageChecks : Nat → List Nat → List (Nat × Byte)
  | _, [] => []
  | w, v :: t =>
    let c := BitVec.ofNat 8 (eccCheck (v % 2 ^ 64) w)
    if c = 0 then imageChecks (w + 1) t else (w, c) :: imageChecks (w + 1) t

/-- A memory that holds the words listed from word 0 on, and nothing else. -/
def ramImage (ws : List Nat) : Ram :=
  { data := imageBytes 0 ws, check := imageChecks 0 ws, valid := (List.range ws.length).map (fun w => (w, 7)) }

/-- A list of words with their word indices from `w` on. -/
def wordsFrom : Nat → List Nat → List (Nat × DWord)
  | _, [] => []
  | w, v :: t => (w, BitVec.ofNat 64 v) :: wordsFrom (w + 1) t

/-- Words of a memory written where a delta gives them. -/
def ramDelta : Ram → List (Nat × DWord) → Ram
  | m, [] => m
  | m, e :: t => ramDelta (ramWrite m e.1 e.1 e.2.toNat) t

end Sys2Proof.Machine
end

