-- ==== Sys2Proof/Machine/Recovery.lean ====
section
/-! DEFINITION. Recovery.lean: the recovery sequence (R209, R239 to R249, R573): restart, migration, stop, fencing; spares. -/

namespace Sys2Proof.Machine

/-! ### What recovery keeps (R226, R573) -/

/-- A waiting input as recovery begins: discarded, recorded unconsumed, or kept. A gate release is presented, and so recorded,
in the resume cycle, which is part of the restart or migration here: an arming restored or made again takes it from the
record (R228, R277). -/
def Pair.sortInput (x : Pair) (c : CapInput) : Pair :=
  match c with
  | .response _ tag imm _ v code a lock => if imm then x.record (.complete tag v code a lock) false else x
  | .fillDone _ tag _ index code a words =>
    (x.filled index words).record (.complete tag (if code = 0 then 0 else errorStatus code) code a 0) false
  | .event i stamp => x.record (.event i stamp) false
  | .gate k _ tb angle down stamp => x.record (.gate k tb angle down stamp) false
  | k => { x with capture := x.capture ++ [k] }

/-- The pair with its record's pointers reset and its waiting inputs sorted. -/
def Pair.sorted (x : Pair) : Pair :=
  x.capture.foldl Pair.sortInput
    { x with capture := [], happ := x.happ.map (fun h => { h with used := false }) }

/-- The data memory after the undo log is replayed, newest first (R240). -/
def undoReplay (m : Ram) (undo : List (Nat × DWord)) : Ram :=
  undo.foldl (fun m e => ramWrite m e.1 e.1 e.2.toNat) m

/-- A core restored from its checkpoint store, its memories as they stand, the undo log replayed. -/
def Core.restored (store cur : Core) : Core :=
  { store with dmem := undoReplay cur.dmem cur.undo, imem := cur.imem, undo := [], cb := [], ops := [], barriers := [] }

/-- The pair's state as its execution begins again. -/
def Pair.again (x : Pair) : Pair :=
  { x with
    mark := x.mark + 1, due := false, asked := false, immIssued := false, fresh := true, phase := .run, segCount := 0
    ccUsed := 0, overrun := false, slice := none }

/-! ### Gates and waits after a restore (R228, R276, R277, R380) -/

/-- Gate `k` of a restored pair: released from the record, or armed in its detector, or idle there. -/
def Dev.restoreGate (d : Dev) (p k : Nat) : Dev :=
  let g := (d.pair p).lead.gate k
  if g.armed then d.emitArm p k g.tb g.angle g.down
  else d.setDetector p k { gen := g.gen }

/-- A wait that the restored frame holds is served from the record where the record holds its event. -/
def Dev.restoreWait (d : Dev) (p : Nat) (w : Nat × Nat) : Dev :=
  let x := d.pair p
  let c := 8 * d.lpairOf p + w.1
  match x.unused (isEvent c) with
  | some (.event _ stamp) => d.setPair p ((x.consume (isEvent c)).both (fun k => k.completeWait w.1 stamp))
  | _ => d

/-- W of input `i` of a restored pair (R380). -/
def Dev.restoreW (d : Dev) (p i : Nat) : Dev :=
  let x := d.pair p
  let c := 8 * d.lpairOf p + i
  d.setWaits c ((x.lead.waits.filter (fun w => w.1 = i)).length - (x.happ.filter (fun h => isEvent c h.kind)).length)

/-- The device with a restored pair's gates, waits and W set; wait requests of its logical pair still on their way are the
failed execution's, and the re-execution sends its own. -/
def Dev.settleRestored (d : Dev) (p : Nat) : Dev :=
  let lp := d.lpairOf p
  let d := { d with evt := { d.evt with requests := d.evt.requests.filter (fun c => c / 8 != lp) } }
  let d := (List.range 8).foldl (fun d i => d.restoreW p i) d
  let d := (d.pair p).lead.waits.foldl (fun d w => d.restoreWait p w) d
  (List.range 8).foldl (fun d k => d.restoreGate p k) d

/-- A pair that was halted or stepping is halted again with cause RECOVERY (R559). -/
def Dev.haltAgain (d : Dev) (p : Nat) : Dev :=
  let x := d.pair p
  if x.dbg.halted || x.dbg.stepping then d.haltPair p 2 else d

/-! ### Restart (R240, R329) -/

/-- The four words of a bundle rewritten in both cores from the instruction-memory image (R329). -/
def Dev.rewriteBundle (d : Dev) (p i : Nat) : Dev :=
  let (ws, bad, d) := d.mirrorReads (d.lpairOf p) (32 * i) 4
  if bad then d else d.setPair p ((d.pair p).both (fun c => c.writeImem (4 * i) (ws.map (BitVec.ofNat 64))))

/-- The restart of a pair; `fix` is the bundle whose fetch error started it. -/
def Dev.restart (d : Dev) (p : Nat) (fix : Option Nat) : Dev :=
  let x := (d.pair p).sorted.again
  let x := { x with lead := x.storeLead.restored x.lead, shadow := x.storeShadow.restored x.shadow, retried := true }
  let d := d.setPair p x
  let d := match fix with
    | some i => d.rewriteBundle p i
    | none => d
  (d.settleRestored p).haltAgain p

/-! ### Steps and voltages (R49, R540, R542) -/

/-- Vmax of a step, in mV (R540). -/
def vMax (s : Nat) : Nat := 700 + 25 * (s - 36) / 2

/-- The pair at a new step. Where its VPAIRn is on, it goes to Vmax of that step, at which the planner has found the step good:
within the envelope of the clock that the pair now has (R49, R541, R542). -/
def Pair.takeStep (x : Pair) (s : Nat) : Pair :=
  if s = x.step then x else { x with step := s, vmv := if x.vmv = 0 then 0 else vMax s }

/-! ### Spares (R246 to R248) -/

/-- The spare that is available to a pair: designated, in state SPARE, and taken by no migration since (R246, R247). -/
def Dev.spareOf (d : Dev) (p : Nat) : Option Nat :=
  let x := d.pair p
  if x.spareEn && x.spareNum != p && d.pairState x.spareNum = stSpare && !(d.spareGone.testBit p) then some x.spareNum
  else none

/-- The pairs that name spare `q` have no spare until they are designated again (R247). -/
def Dev.takeSpare (d : Dev) (q : Nat) : Dev :=
  { d with spareGone := d.spareGone ||| maskOf (fun p =>
      (d.on (PAIRCTL_SPARE_SPEN p) && d.fld (PAIRCTL_SPARE_SPARE p) == q) || ((d.pair p).spareEn && (d.pair p).spareNum == q)) 16 }

/-- A write of PAIRCTL.SPARE (R246, R248). -/
def designate (p w : Nat) (d : Dev) : Dev :=
  let n := w % 16
  let en := w.testBit 4
  if d.on (PAIRCTL_LOCK_LOCK p) then d
  else if en && (n = p || d.pairState n != stSpare) then d.flag (PAIRCTL_FSTAT_BADSPARE p)
  else
    let d := (d.setFld (PAIRCTL_SPARE_SPARE p) n).setFld (PAIRCTL_SPARE_SPEN p) (if en then 1 else 0)
    let d := if en && d.fld (AGEING_PAIR_STEP n) < d.fld (AGEING_PAIR_STEP p) then d.flag (PAIRCTL_FSTAT_SLOWSPARE p) else d
    { d with spareGone := withoutBit d.spareGone p }.capture p (.spare en n)

/-- Every designation whose spare's planned clock is now below that of the pair that names it is shown (R248). -/
def Dev.noteSlow (d : Dev) : Dev :=
  (List.range 16).foldl (fun d p =>
    if d.on (PAIRCTL_SPARE_SPEN p) &&
        decide (d.fld (AGEING_PAIR_STEP (d.fld (PAIRCTL_SPARE_SPARE p))) < d.fld (AGEING_PAIR_STEP p)) then
      d.flag (PAIRCTL_FSTAT_SLOWSPARE p)
    else d) d

/-- A logical pair whose physical pair has a lower step than its need is reported (R544). -/
def Dev.checkShort (d : Dev) (lp : Nat) : Dev :=
  if d.fld (AGEING_PAIR_STEP (d.physOf lp)) < d.fld (AGEING_NEED_STEP lp) then
    (((d.setBitOf AGEING_SHORT_SHORT lp).flag AGEING_ISTAT_SHORTFALL)).present fiShortfall lp
  else d

/-! ### Stop and migration (R239, R242, R243) -/

/-- The pair is out of work: neither core issues, its open segment never commits, and its fence waits for its release
(R249). -/
def Dev.toFence (d : Dev) (p : Nat) (retire : Bool) : Dev :=
  let x := d.pair p
  d.setPair p { x.both (fun c => { c with stopped := true }) with
    fencing := true, retiring := retire, capture := [], slice := none, phase := .run }

/-- The Stop step: no spare takes over. -/
def Dev.stopPair (d : Dev) (p : Nat) : Dev :=
  ((d.toFence p false).flag (PAIRCTL_FSTAT_NOSPARE p)).presentPair p pfNospare

/-- The input belongs to the physical pair: a value of one of its PAIRCTL registers (R243). -/
def CapInput.physical : CapInput → Bool
  | .segMax .. | .spare .. => true
  | _ => false

/-- The spare as the mirror's images, its slot's frame and the failing pair's kept inputs make it. -/
def takenOver (x y : Pair) (s : Slot) (imem dmem : List Nat) (p : Nat) : Pair :=
  let im := ramImage imem
  let dm := ramImage dmem
  let dm := if s.applied then dm else ramDelta dm s.delta
  let f := { s.frame with
    visible := x.storeLead.visible, expiry := x.storeLead.expiry, commitErr := x.storeLead.commitErr }
  let core := { f with dmem := dm, imem := im }
  { y.again with
    lead := core, shadow := core, storeLead := f, storeShadow := f, happ := x.happ
    capture := y.capture.filter CapInput.physical ++ x.capture.filter (fun c => !c.physical)
    mark := max x.mark y.mark + 1, ckNum := s.ckNum, retried := false, movedFrom := some p, isafeMax := x.isafeMax
    dbg := x.dbg, rel := [], relShadow := [], releasing := false, relSent := false, deltaLeft := false, ckSig := s.sig, clockOff := false }

/-- The spare of an abandoned migration: reset, with what the transfer has left in its memories (R239). -/
def Pair.spareReset (y : Pair) (imem dmem : List Nat) (delta : List (Nat × DWord)) : Pair :=
  let c (k : Core) : Core :=
    { dmem := ramDelta (ramDelta k.dmem (wordsFrom 0 dmem)) delta, imem := ramDelta k.imem (wordsFrom 0 imem) }
  { y.again with lead := c y.lead, shadow := c y.shadow, capture := y.capture.filter CapInput.physical, happ := [] }

/-- The migration of pair `p` to spare `q` from the mirror; `retire` leaves `p` RETIRED in the end. The two exchange their
places in the binding: the spare's own number then belongs to no pair that runs. -/
def Dev.migrate (d : Dev) (p q : Nat) (retire : Bool) : Dev :=
  let lp := d.lpairOf p
  let own := d.lpairOf q
  let d := ({ d with bind := setNth (setNth d.bind lp q) own p }.setFld (PAIRCTL_ROLE_LPAIR q) lp).setPairState q stRecovering
  let b := d.restartSlot lp
  let s := d.slotOf lp b
  let (imem, bad1, d) := d.mirrorReads lp 0 16384
  let (dmem, bad2, d) := if bad1 then ([], true, d) else d.mirrorReads lp 0x20000 16384
  let (_, bad3, d) := if bad2 then ([], true, d) else d.mirrorReads lp (slotBase b) (8 + frameWords)
  let (got, bad4, d) := if bad3 then ([], true, d) else d.mirrorReads lp (slotBase b + 0x4000) (2 * s.delta.length)
  if bad4 then
    let d := ({ d with bind := setNth (setNth d.bind lp p) own q }.setFld (PAIRCTL_ROLE_LPAIR q) own).setPairState q stSpare
    (d.setPair q ((d.pair q).spareReset imem dmem (if s.applied then [] else s.delta.take (got.length / 2)))).stopPair p
  else
    let x := (d.pair p).sorted
    let d := (d.setPair q (takenOver x (d.pair q) s imem dmem p)).takeSpare q
    let d := if s.applied then d else (d.applyDelta lp s.delta).writeHeader lp b { s with applied := true }
    let d := d.toFence p retire
    let d := d.setPair p { d.pair p with movedTo := some q }
    let d := ((d.flag (PAIRCTL_FSTAT_MIGRATED p)).flag (PAIRCTL_FSTAT_MIGRATED q)).count (PAIRCTL_CNT_MIGRATIONS p)
    let d := (d.setFld (PAIRCTL_CKNUM_CKNUM q) s.ckNum).presentPair p pfMigrated
    let d := (d.setFld (DEBUG_PSTAT_PPAIR lp) q).checkShort lp
    (d.settleRestored q).haltAgain q

/-! ### The sequence (R209, R239) -/

/-- The pair can recover: it runs and awaits no fence. -/
def Dev.recoverable (d : Dev) (p : Nat) : Bool :=
  d.pairRuns p && !(d.pair p).fencing && (d.pair p).movedFrom.isNone

/-- A mismatch of physical pair `p`: its record, the lock that it closes (R244), and the first step that applies. -/
def Dev.mismatch (d : Dev) (p kind lg : Nat) (fix : Option Nat) : Dev :=
  if !(d.recoverable p) then d
  else
    let x := d.pair p
    let d := (d.flag (PAIRCTL_FSTAT_MISMATCH p)).setFld (PAIRCTL_LASTMM_KIND p) kind
    let d := (d.setFld (PAIRCTL_LASTMM_LG p) lg).setFld (PAIRCTL_LASTMM_SEGCNT p) (x.segCount / 4)
    let d := d.recoveryBreak (d.lpairOf p)
    if !x.retried then d.restart p fix
    else
      match d.spareOf p with
      | some q => d.migrate p q false
      | none => d.stopPair p

/-- The FENCE reaction on a pair (R391): a migration from its restart point if it is ACTIVE and a spare is available,
otherwise a fence. -/
def Dev.fenceReaction (d : Dev) (p : Nat) (retire : Bool) : Dev :=
  let st := d.pairState p
  if st = stFenced || st = stRetired || st = stRecovering || (d.pair p).fencing then d
  else
    let d := d.recoveryBreak (d.lpairOf p)
    match (if st = stActive then d.spareOf p else none) with
    | some q => d.migrate p q retire
    | none => d.toFence p retire

/-! ### The fence (R249) -/

/-- The ports of a physical pair are shut: of its requests only those of immediate class, which have departed and take effect
once, stay in the fabric (R233, R249). -/
def Dev.shutPorts (d : Dev) (p : Nat) : Dev :=
  let stays (r : FabReq) : Bool := r.phys != p || r.req.imm
  { d with fab := { d.fab with waiting := d.fab.waiting.filter stays, granted := d.fab.granted.filter stays } }

/-- The pair with everything of its cores cleared (R79, R321). -/
def Pair.cleared (x : Pair) : Pair :=
  { step := x.step, mark := x.mark + 1, choice := x.choice, cmpTest := false,
    lead := { dmem := ramInvalidate x.lead.dmem, imem := ramInvalidate x.lead.imem },
    shadow := { dmem := ramInvalidate x.shadow.dmem, imem := ramInvalidate x.shadow.imem } }

/-- A pair whose release is complete is fenced, or retired. -/
def fencePair (p : Nat) (d : Dev) : Dev :=
  let x := d.pair p
  if x.fencing && !x.releasing then
    let st := if x.retiring then stRetired else stFenced
    let d := d.setPairState p st
    let d := d.setPair p x.cleared
    let d := (List.range 8).foldl (fun d k => d.setDetector p k {}) (d.shutPorts p)
    let d := { d with persist := { d.persist with pairState := arrSet 0 d.persist.pairState p st } }
    (d.journal 0x26 [p, st]).afterPairLost
  else d

/-- LOCKSTEP_MISMATCH (R209). -/
def execLockstepMismatch (p : Fin 16) (mm : Mismatch) (s : State) : Host.Outcome State Fault Refusal :=
  s.onDev (fun d => d.mismatch p mm.kind mm.lg none)

/-- PAIR_FENCE (R249). -/
def execPairFence (p : Fin 16) (s : State) : Host.Outcome State Fault Refusal := s.onDev (fencePair p)

/-- SPARE_DESIGNATION (R246). -/
def execSpareDesignation (p : Fin 16) (w : Word) (s : State) : Host.Outcome State Fault Refusal :=
  s.onDev (designate p w.toNat)

end Sys2Proof.Machine
end

