-- ==== Sys2Proof/Machine/Issue.lean ====
section
/-! DEFINITION. Issue.lean: a pair at its bundle boundary: issuing (R75, R208), entries and takeovers (R182 to R193), returns
(R188), tag completions (R104, R204, R233), the capture stage (R202 to R206), ISAFE_STARVE (R194). -/

namespace Sys2Proof.Machine

/-! ### Both cores at once -/

/-- Both cores of pair `p` have acted: a difference between their signals is a mismatch (R209); equal signals leave the
pair (R208). -/
def Dev.pairCycle (d : Dev) (p : Nat) (a b : CoreStep) (f : Pair → Pair) : Dev :=
  let x := f { d.pair p with lead := a.core, shadow := b.core }
  let d := (d.setPair p x).noteBoth p a.notes b.notes
  match outDiffer (d.unprotected p) a.outs b.outs with
  | some lg => d.mismatch p (if lg = 11 then 2 else 0) lg none
  | none => (a.outs.foldl (fun d o => d.emit p o) d).noteOcc p

/-- The cores' boundaries differ: the bundle that only one of them cannot read is rewritten in the restart (R329).
DESIGN CHOICE: LASTMM.LG shows lane group 9 where the two cores stand at different boundaries. -/
def Dev.diverged (d : Dev) (p : Nat) : Dev :=
  let x := d.pair p
  let a := x.boundaryOf x.lead
  let b := x.boundaryOf x.shadow
  d.mismatch p 0 9 (if a = .unreadable then some x.lead.pc else if b = .unreadable then some x.shadow.pc else none)

/-- A step counts one bundle less; at its last the pair is halted again (R558). -/
def Dev.stepped (d : Dev) (p : Nat) : Dev :=
  let x := d.pair p
  if x.dbg.stepping then
    let d := d.setPair p { x with dbg := { x.dbg with stepLeft := x.dbg.stepLeft - 1 } }
    if x.dbg.stepLeft ≤ 1 then (d.askHalt p 1).settleHalt p else d
  else d

/-! ### BUNDLE_ISSUE -/

/-- Both cores fail to read the next bundle: they stop issuing (R329). -/
def Dev.unreadableBoth (d : Dev) (p : Nat) : Dev :=
  let x := d.pair p
  let i := x.lead.pc
  let d := d.noteBoth p (fetchNotes x.lead.imem i) (fetchNotes x.shadow.imem i)
  (d.setPair p ((d.pair p).both (fun c => { c with stopped := true }))).presentPair p pfLmem

/-- What a core has done, with the notes of its fetch ahead of its own. -/
def CoreStep.noting (a : CoreStep) (l : List MemNote) : CoreStep := { a with notes := l ++ a.notes }

/-- The bundle `b` issues in both cores. -/
def Dev.issueBundle (d : Dev) (p : Nat) (b : Bundle) : Dev :=
  let x := d.pair p
  let lp := d.lpairOf p
  let env := d.coreEnv p
  let i := x.lead.pc
  let imm := x.lead.nextImmediate b
  let hit := d.accessHit lp x.lead b
  let a := (x.lead.issue env b).noting (fetchNotes x.lead.imem i)
  let s := (x.shadow.issue { env with rel := x.relShadow } b).noting (fetchNotes x.shadow.imem i)
  let d := d.pairCycle p a s (fun y =>
    ({ y with asked := y.asked || a.ckpt, immIssued := imm, fresh := false, choice := y.choice + 1
              dbg := { y.dbg with pass := false } }.both
      (fun c => c.restartIsafe (Config.freeBit (y.choice + 1)))).spend 1)
  let d := match hit with
    | some k => d.askHalt p (8 + k)
    | none => d
  (d.stepped p).settleHalt p

/-- The pair applies R172 and issues its next bundle, where row 7 holds. -/
def bundleIssue (p : Nat) (d : Dev) : Dev :=
  if !(d.atBoundary p) then d
  else
    let x := d.pair p
    match x.boundary with
    | none => d.diverged p
    | some (.issue b) =>
      match (if x.dbg.pass then none else d.bundleHit (d.lpairOf p) x.lead b) with
      | some k => (d.askHalt p (8 + k)).settleHalt p
      | none => d.issueBundle p b
    | some .unreadable => d.unreadableBoth p
    | some _ => d

/-! ### The capture stage (R202 to R206) -/

/-- The input is a response, presented as a tag completion. -/
def CapInput.isTag : CapInput → Bool
  | .response .. | .fillDone .. => true
  | _ => false

/-- The input completes tag `t`. -/
def CapInput.completes (t : Nat) : CapInput → Bool
  | .response _ tag .. => tag == t
  | .fillDone _ tag .. => tag == t
  | _ => false

/-- A change made to both cores and to their checkpoint stores: an input that stays in force through a recovery. -/
def Pair.everywhere (x : Pair) (f : Core → Core) : Pair :=
  { x.both f with storeLead := f x.storeLead, storeShadow := f x.storeShadow }

/-- The core's locked sequence after an answer: closed by LOCKBREAK, by an unlock, and by an `ldf.lock` that failed. DESIGN
CHOICE: an unlock closes the core's sequence whatever answers it, a denial by the MPU included, which leaves the bank's lock
to LOCK_MAX. -/
def Core.lockAfter (c : Core) (lock code : Nat) : Core :=
  if code = 5 ∨ lock = 2 ∨ (lock = 1 ∧ code ≠ 0) then { c with lockAddr := none } else c

/-- A response completes its tag; an immediate-class completion is recorded before it is presented (R233). DESIGN CHOICE: a
fill's bundles reach both instruction memories as its completion is presented, so a bundle fetched while the fill is
still writing has its old form (R197). -/
def Pair.takeResponse (x : Pair) (c : CapInput) : Pair :=
  match c with
  | .response _ tag imm _ v code a lock =>
    let x := if imm then x.record (.complete tag v code a lock) true else x
    x.both (fun k => (k.completeTag tag (BitVec.ofNat 64 v) code a 0).lockAfter lock code)
  | .fillDone _ tag _ index code a words =>
    let v := if code = 0 then 0 else errorStatus code
    ((x.filled index words).record (.complete tag v code a 0) true).both
      (fun k => k.completeTag tag (BitVec.ofNat 64 v) code a 0)
  | _ => x

/-- One input presented to both cores (R203, R225). -/
def Dev.presentInput (d : Dev) (p : Nat) (c : CapInput) : Dev :=
  let x := d.pair p
  let x := { x with capture := x.capture.erase c }
  match c with
  | .irq r => d.setPair p (x.everywhere (fun k => { k with visible := r }))
  | .expiry => d.setPair p (x.everywhere (fun k => { k with expiry := true }))
  | .event i stamp =>
    let served := x.lead.waits.any (fun w => w.1 = i % 8)
    d.setPair p ((x.both (fun k => k.completeWait (i % 8) stamp)).record (.event i stamp) served)
  | .gate k gen tb angle down stamp =>
    if (x.lead.gate k).gen == gen then
      d.setPair p ((x.both (fun q => q.releaseGate k gen)).record (.gate k tb angle down stamp) true)
    else d.setPair p x
  | .halt => (d.setPair p { x with dbg := { x.dbg with haltAsked := true, cause := 0 } }).settleHalt p
  | .resume => (d.setPair p x).releasePair p
  | .step n =>
    let d := (d.setPair p x).releasePair p
    let x := d.pair p
    (d.setPair p { x with dbg := { x.dbg with stepping := true, stepLeft := n } }).flag (DEBUG_PSTAT_STEP (d.lpairOf p))
  | .isafeMax n => d.setPair p { x with isafeMax := n }
  | .segMax l dr => d.setPair p { x with nextLimit := l, nextDrain := dr }
  | .spare en n => d.setPair p { x with spareEn := en, spareNum := n }
  | .response .. | .fillDone .. => d.setPair p (x.takeResponse c)

/-- Nothing is presented during a checkpoint (R205), to a pair that does not run, to a spare before it has taken over, or to
a pair that is out of work. -/
def Dev.presents (d : Dev) (p : Nat) : Bool :=
  let x := d.pair p
  d.pairRuns p && x.phase == .run && x.movedFrom.isNone && !x.fencing

/-- The first `n` waiting inputs are presented, in the order of their capture (R203, R205). -/
def Dev.presentFirst (d : Dev) (p : Nat) : Nat → Dev
  | 0 => d
  | n + 1 =>
    match (d.pair p).capture with
    | c :: _ => if d.presents p then Dev.presentFirst ((d.presentInput p c).noteOcc p) p n else d
    | [] => d

/-- How many inputs are presented up to and with the first that satisfies `q`: one, where none does. -/
def upTo (q : CapInput → Bool) (l : List CapInput) : Nat := (findIdxOf q l).getD 0 + 1

/-- The capture stage presents its oldest input that is not a tag completion, after every response captured before it; one
response where it holds nothing else. -/
def Dev.captureNext (d : Dev) (p : Nat) : Dev := d.presentFirst p (upTo (fun c => !c.isTag) (d.pair p).capture)

/-- An input captured is presented; a parity error in it is a mismatch instead (R206). DESIGN CHOICE: LASTMM.LG shows lane
group 0 for it. -/
def captureInput (p : Nat) (parityErr : Bool) (d : Dev) : Dev :=
  if parityErr then
    (if (d.pair p).capture.isEmpty || !(d.recoverable p) then d
     else ((d.flag (PAIRCTL_FSTAT_CAPTERR p)).presentPair p pfCapture).mismatch p 3 0 none)
  else d.captureNext p

/-! ### Tag completion (R104, R153, R204, R233) -/

/-- Operation completions of the two cores are compared in lane group 11, unless that group is unprotected (R204, R251). -/
def Dev.opsAgree (d : Dev) (p : Nat) (a b : LocalOp) : Bool := a = b || (d.unprotected p).testBit 11

/-- A completion of tag `t` of pair `p`: a response, with every input captured before it; an operation of a unit inside the
cores; or a BARRIER. -/
def tagCompletion (p t : Nat) (d : Dev) : Dev :=
  if !(d.presents p) then d
  else
    let x := d.pair p
    let d :=
      if x.capture.any (CapInput.completes t) then d.presentFirst p (upTo (CapInput.completes t) x.capture)
      else
        match x.lead.readyOp t, x.shadow.readyOp t with
        | some a, some b =>
          if d.opsAgree p a b then
            d.setPair p { x with lead := x.lead.completeOp a, shadow := ({ x.shadow with ops := x.shadow.ops.erase b } : Core).finishOp a }
          else d.mismatch p 2 11 none
        | some _, none | none, some _ => d.mismatch p 2 11 none
        | none, none =>
          match x.lead.readyBarrier t, x.shadow.readyBarrier t with
          | some a, some b =>
            d.setPair p { x with lead := x.lead.completeBarrier a, shadow := x.shadow.completeBarrier b }
          | some _, none | none, some _ => d.mismatch p 2 11 none
          | none, none => d
    (d.noteOcc p).settleHalt p

/-! ### Entries (R182 to R193) -/

/-- What an entry in progress enters. -/
inductive Entering where
  | expiry
  | interrupt (source prio : Nat)
  | other
deriving DecidableEq, Repr

/-- The entry after what has become visible: the expiry trap takes over every entry, an interrupt of higher priority takes
over an interrupt (R183). -/
def Entering.takeover (e : Entering) (c : Core) : Entering :=
  if c.expiry then .expiry
  else
    match e, c.visible with
    | .interrupt s p, some (s2, p2) => if p < p2 ∧ !(c.acked.testBit s2) then .interrupt s2 p2 else .interrupt s p
    | e, _ => e

/-- The entry `e` through the entry cycles in which an input is presented: what is entered in the end, and how many cycles
that takes: 8, or k + 8 from a takeover at Ek on (R182, R183). -/
def Dev.arrive (d : Dev) (p : Nat) (e : Entering) (n : Nat) : List (Fin 5) → Dev × Entering × Nat
  | [] => (d, e, n)
  | k :: t =>
    let d := d.captureNext p
    let e2 := e.takeover (d.pair p).lead
    Dev.arrive d p e2 (if e2 = e then n else k.val + 8) t

/-- Both cores enter. -/
def Dev.enterBoth (d : Dev) (p : Nat) (f : Core → CoreStep) (cycles : Nat) : Dev :=
  let x := d.pair p
  (d.pairCycle p (f x.lead) (f x.shadow) (fun y => y.spend cycles)).settleHalt p

/-- The entry of an interrupt, taken over by the expiry trap or by a request of higher priority that becomes visible in
its first cycles (R183, R184). -/
def interruptEntry (p : Nat) (arrivals : List (Fin 5)) (d : Dev) : Dev :=
  if !(d.atBoundary p) then d
  else
    match (d.pair p).boundary with
    | none => d.diverged p
    | some (.interrupt s pr) =>
      match d.arrive p (.interrupt s pr) 8 arrivals with
      | (d, .interrupt s pr, n) => d.enterBoth p (fun k => k.enterInterrupt s pr) n
      | (d, _, n) => d.enterBoth p Core.enterExpiry n
    | some _ => d

/-- The core with the report that a BARRIER owed delivered (R107, R192). -/
def Core.reported (c : Core) (e : Exc) : Core :=
  { c with tags := c.tags.map (fun x =>
      if x.2.barrier = some { tag := e.tag, code := e.info - 2 ^ 63, addr := e.addr } then
        (x.1, { x.2 with barrier := none }) else x) }

/-- The core as it enters a precise exception: the trap is spent. -/
def Core.enterPrecise (c : Core) (e : Exc) : CoreStep :=
  let y := ({ c with trapDue := none }.reported e).enterException e
  if y.core.stopped then { y with core := { y.core with trapDue := c.trapDue } } else y

/-- A displaced exception as an exception. -/
def KeptExc.exc (k : KeptExc) : Exc :=
  { cause := k.cause, slot := k.slot, addr := k.addr, info := k.info, num := k.num, tag := k.tag }

/-- The core as it enters the exception displaced first: its record is that of the context that it interrupted (R184). -/
def Core.enterKept (c : Core) (k : KeptExc) : CoreStep :=
  let y := ({ c with kept := c.kept.tail }.reported k.exc).enter (excVector k.cause) 16 (fun r =>
    { r with cause := k.cause, num := k.num, slot := k.slot, tag := k.tag, addr := k.addr, info := k.info
             rpc := k.rpc, level := k.level, priv := k.priv, ie := k.ie })
  if y.core.stopped then { y with core := { y.core with kept := c.kept } } else y

/-- The expiry trap displaces a precise exception, which is kept (R184). -/
def Core.displaced (c : Core) (e : Exc) : CoreStep :=
  let k : KeptExc :=
    { cause := e.cause, slot := e.slot, addr := e.addr, info := e.info, num := e.num, tag := e.tag
      rpc := c.pc, level := c.level, priv := pswPriv c.psw, ie := pswIE c.psw }
  ({ c with trapDue := none, kept := c.kept ++ [k] } : Core).enterExpiry

/-- A precise exception of pair `p` entered by `enter`, or by `displaced` where the expiry trap takes over. -/
def Dev.precise (d : Dev) (p : Nat) (enter displaced : Core → CoreStep) (arrivals : List (Fin 5)) : Dev :=
  match d.arrive p .other 8 arrivals with
  | (d, .expiry, n) => d.enterBoth p displaced n
  | (d, _, n) => (d.enterBoth p enter n).stepped p

/-- The entry of a precise exception: rows 2, 3 and 7 of R172, and a kept one (R184, R191). -/
def preciseEntry (p : Nat) (arrivals : List (Fin 5)) (d : Dev) : Dev :=
  if !(d.atBoundary p) then d
  else
    let new (e : Exc) : Dev := d.precise p (fun c => c.enterPrecise e) (fun c => c.displaced e) arrivals
    match (d.pair p).boundary with
    | none => d.diverged p
    | some (.trap n) => new (trapExc n)
    | some .illegal => new { cause := 3 }
    | some (.exception e) => new e
    | some (.kept k) => d.precise p (fun c => c.enterKept k) Core.enterExpiry arrivals
    | some _ => d

/-- The entry of an imprecise exception (R192, R222); the expiry trap may take it over (R184). -/
def impreciseEntry (p : Nat) (arrivals : List (Fin 5)) (d : Dev) : Dev :=
  if !(d.atBoundary p) then d
  else
    match (d.pair p).boundary with
    | none => d.diverged p
    | some (.imprecise tag) =>
      match d.arrive p .other 8 arrivals with
      | (d, .expiry, n) => d.enterBoth p Core.enterExpiry n
      | (d, _, n) => d.enterBoth p (fun c => c.enterImprecise tag) n
    | some _ => d

/-- The entry of the expiry trap (R193). -/
def expiryEntry (p : Nat) (d : Dev) : Dev :=
  if !(d.atBoundary p) then d
  else
    match (d.pair p).boundary with
    | none => d.diverged p
    | some .expiry => d.enterBoth p Core.enterExpiry 8
    | some _ => d

/-- A return after its second delay bundle (R188). -/
def returnRestore (p : Nat) (d : Dev) : Dev :=
  let x := d.pair p
  if d.atBoundary p && x.lead.returnDue then
    (d.setPair p ((x.both Core.restore).spend 2)).settleHalt p
  else d

/-- The count of bundles without ISAFE has reached its limit (R194). -/
def isafeStarve (p : Nat) (d : Dev) : Dev :=
  let x := d.pair p
  if d.pairRuns p && decide (x.isafeMax ≤ x.lead.isafeCount) && !x.lead.starved then
    let d := d.setPair p (x.both (fun c => { c with starved := true }))
    (d.flag (INTC_FSTAT_STARVE (d.lpairOf p))).presentPair p pfStarve
  else d

/-! ### The commands -/

/-- BUNDLE_ISSUE (R75). -/
def execBundleIssue (p : Fin 16) (s : State) : Host.Outcome State Fault Refusal := s.onDev (bundleIssue p)

/-- TAG_COMPLETION (R104). -/
def execTagCompletion (p : Fin 16) (t : Fin 32) (s : State) : Host.Outcome State Fault Refusal :=
  s.onDev (tagCompletion p t)

/-- CAPTURE_INPUT (R203). -/
def execCaptureInput (p : Fin 16) (parityErr : Bool) (s : State) : Host.Outcome State Fault Refusal :=
  s.onDev (captureInput p parityErr)

/-- INTERRUPT_ENTRY (R182). -/
def execInterruptEntry (p : Fin 16) (arrivals : List (Fin 5)) (s : State) : Host.Outcome State Fault Refusal :=
  s.onDev (interruptEntry p arrivals)

/-- PRECISE_EXCEPTION_ENTRY (R191). -/
def execPreciseExceptionEntry (p : Fin 16) (arrivals : List (Fin 5)) (s : State) : Host.Outcome State Fault Refusal :=
  s.onDev (preciseEntry p arrivals)

/-- IMPRECISE_EXCEPTION_ENTRY (R192). -/
def execImpreciseExceptionEntry (p : Fin 16) (arrivals : List (Fin 5)) (s : State) : Host.Outcome State Fault Refusal :=
  s.onDev (impreciseEntry p arrivals)

/-- EXPIRY_TRAP_ENTRY (R193). -/
def execExpiryTrapEntry (p : Fin 16) (s : State) : Host.Outcome State Fault Refusal := s.onDev (expiryEntry p)

/-- RETURN_RESTORE (R188). -/
def execReturnRestore (p : Fin 16) (s : State) : Host.Outcome State Fault Refusal := s.onDev (returnRestore p)

/-- ISAFE_STARVE (R194). -/
def execIsafeStarve (p : Fin 16) (s : State) : Host.Outcome State Fault Refusal := s.onDev (isafeStarve p)

end Sys2Proof.Machine
end

