-- ==== Sys2Proof/Machine/Checkpoint.lean ====
section
/-! DEFINITION. Checkpoint.lean: checkpoints (R210 to R218), the commit-buffer release (R219 to R222), the comparator
self-test (R250, R251), and the first bundle after a migration (R242). -/

namespace Sys2Proof.Machine

/-! ### Due and K0 (R211 to R217) -/

/-- The next bundle of the pair, where it can be decoded. -/
def Pair.nextBundle (x : Pair) : Option Bundle :=
  let (bits, bad) := x.lead.fetch x.oldForm
  if bad then none else (decodeBundle bits).toOption

/-- A checkpoint falls due (R211). -/
def checkpointDue (p : Nat) (d : Dev) : Dev :=
  let x := d.pair p
  if d.atBoundary p && x.dueNow x.nextBundle then d.setPair p { x with due := true } else d

/-- The checkpoint is one of the two that an immediate-class access forces (R232). -/
def Pair.forced (x : Pair) : Bool :=
  x.immIssued || (!x.fresh && (match x.nextBundle with | some b => x.lead.nextImmediate b | none => false))

/-- The conditions of R213, beside the boundary: no pending tag, no locked sequence that stands in the way (R232), the
previous release and delta complete. -/
def Dev.k0Ready (d : Dev) (p : Nat) : Bool :=
  let x := d.pair p
  (List.range 32).all (fun t => (x.lead.tag t).st != .pending)
    && (x.lead.lockAddr.isNone || x.forced || d.fab.broken.testBit (d.lpairOf p))
    && !x.releasing && !x.deltaLeft

/-- The acknowledged set handed to the commit buffer as the segment's last entry (R177). -/
def Core.handAcked (c : Core) : Core :=
  if c.acked = 0 then c else { c.buffer { kind := .ack, addr := 0, data := c.acked } with acked := 0 }

/-- The segment count has reached LIMIT before K0 ended: the flag and the fault input, once a segment (R214). -/
def Dev.overran (d : Dev) (p : Nat) : Dev :=
  let x := d.pair p
  if x.overrun then d
  else ((d.setPair p { x with overrun := true }).flag (PAIRCTL_FSTAT_SEGOVR p)).presentPair p pfOverrun

/-- An offered slice is abandoned: the checkpoint that follows is an ordinary one (R537). -/
def Dev.dropSlice (d : Dev) (o : Offer) : Dev :=
  let d := d.setPair o.phys { d.pair o.phys with slice := none }
  { d with test := { d.test with offers := d.test.offers.erase o } }

/-- K0 of pair `p` begins more than 0.200 µs after a slice was offered: the slice is abandoned (R537). -/
def Dev.dropLateSlice (d : Dev) (p : Nat) : Dev :=
  match d.test.offers.find? (fun o => o.phys = p) with
  | some o => if d.elapsed o.since 121 then d.dropSlice o else d
  | none => d

/-- K0 of a due checkpoint (R213, R216): the acknowledged set handed over, the signatures compared in lane group 10 (R217).
A segment count that reaches LIMIT in one of its 28 cycles overruns (R214). -/
def checkpointK0 (p : Nat) (d : Dev) : Dev :=
  if d.atBoundary p && (d.pair p).boundary = some .checkpoint && d.k0Ready p then
    let d := d.dropLateSlice p
    let x := ((d.pair p).both Core.handAcked).spend 28
    let d := d.setPair p x
    let d := if x.len < x.segCount then d.overran p else d
    let x := d.pair p
    if x.sigDiffer && !((d.unprotected p).testBit 10) then d.mismatch p 1 10 none
    else d.setPair p { x with phase := .closed, due := true, ckSig := x.lead.signature x.shadow }
  else d

/-- SEG_OVERRUN: the count has reached LIMIT before K0 has begun. -/
def segOverrun (p : Nat) (d : Dev) : Dev :=
  let x := d.pair p
  if d.pairRuns p && x.phase == .run && decide (x.len ≤ x.segCount) then d.overran p else d

/-! ### Commit (R216, R218, R241) -/

/-- The dirty words of a core with their present values (R223). -/
def Core.dirty (c : Core) : List (Nat × DWord) :=
  c.undo.map (fun e => (e.1, BitVec.ofNat 64 (ramRead c.dmem e.1 e.1).value))

/-- The slot that a checkpoint of a logical pair writes: the one not used last (R238). -/
def Dev.nextSlot (d : Dev) (lp : Nat) : Bool := !(d.restartSlot lp)

/-- The comparator self-test with the lane groups that it leaves unflagged (R250, R251). -/
def Dev.selfTest (d : Dev) (p lgFail : Nat) : Dev :=
  let d := (d.setFld (PAIRCTL_CMPTEST_DONE p) 1).setFld (PAIRCTL_CMPTEST_LGFAIL p) (d.fld (PAIRCTL_CMPTEST_LGFAIL p) ||| lgFail)
  if lgFail % 4096 = 0 then d else (d.flag (PAIRCTL_FSTAT_CMPFAIL p)).presentPair p pfCmptest

/-- The self-test in a checkpoint hold: asked for by START, or due once in the Watch period (R251). -/
def Dev.holdSelfTest (d : Dev) (p lgFail : Nat) : Dev :=
  let x := d.pair p
  let watch := d.test.periodStart.isSome && !(d.test.cmpDone.testBit p)
  if x.cmpTest || watch then
    let d := d.setPair p { x with cmpTest := false }
    ({ d with test := { d.test with cmpDone := withBit d.test.cmpDone p } }).selfTest p lgFail
  else d

/-- The reports of a slice that failed (R531, R538): its record's upper word, the flag, the fault input. -/
def Dev.sliceFailed (d : Dev) (p slice : Nat) : Dev :=
  ((d.setFld TEST_WFAIL_REC (packFields [(p, 0, 8), (slice, 8, 8)])).flag TEST_ISTAT_LBIST).present fiLbist p

/-- The logic slice in a checkpoint hold (R537, R538): the cores are reset and restored from the checkpoint store; where
it fails, the pair does not resume. -/
def Dev.holdSlice (d : Dev) (p : Nat) (fail : Bool) : Dev :=
  let x := d.pair p
  match x.slice with
  | none => d
  | some n =>
    let x := { x.both (fun c => { c with stale := [], staleFor := 0 }) with slice := none }
    if fail then (d.setPair p (x.both (fun c => { c with stopped := true }))).sliceFailed p n
    else
      let d := d.setPair p x
      { d with test := { d.test with slices := arrSet 0 d.test.slices p (n + 1)
                                     offers := d.test.offers.filter (fun o => o.phys != p) } }

/-- A change of clock step takes effect in the checkpoint hold (R542). -/
def Dev.holdStep (d : Dev) (p : Nat) : Dev :=
  let x := d.pair p
  let s := d.fld (AGEING_PAIR_STEP p)
  if s = 0 then d else d.setPair p (x.takeStep s)

/-- The pair as it resumes: stores written, logs and record emptied, the number advanced, the closed segment's entries under
release, the new limits in effect (R218, R202). -/
def Pair.resumed (x : Pair) : Pair :=
  let strip (c : Core) : Core := { c with undo := [], cb := [] }
  { x with
    lead := strip x.lead, shadow := strip x.shadow, storeLead := x.lead.frame, storeShadow := x.shadow.frame
    rel := x.lead.cb, relShadow := x.shadow.cb, releasing := !(x.lead.cb.isEmpty && x.shadow.cb.isEmpty), relSent := false, relFailed := false, deltaLeft := true
    happ := [], ckNum := x.ckNum + 1, due := false, asked := false, immIssued := false, fresh := true, phase := .run
    segCount := 0, retried := false, overrun := false, segLimit := x.nextLimit, segDrain := x.nextDrain
    dbg := { x.dbg with ckptFirst := false } }

/-- A retry that reaches its checkpoint succeeds (R241). -/
def Dev.retrySucceeded (d : Dev) (p : Nat) : Dev :=
  if (d.pair p).retried then
    ((d.flag (PAIRCTL_FSTAT_RECOVERED p)).count (PAIRCTL_CNT_RESTARTS p)).presentPair p pfMismatch
  else d

/-- The lane group of the mirror port in which the two cores differ as K2 writes the slot: addresses in group 4, data in
group 5 (R207). -/
def Pair.mirrorDiffer (x : Pair) : Option Nat :=
  let a := x.lead.dirty
  let b := x.shadow.dirty
  if a.map Prod.fst ≠ b.map Prod.fst then some 4
  else if a ≠ b then some 5
  else if x.lead.frame = x.shadow.frame then none
  else if (List.range frameWords).all (fun w => x.lead.frameWord w == x.shadow.frameWord w) then none else some 5

/-- The slot header is written: the checkpoint commits, and what the hold brings follows (R216, R218). A difference at the
mirror port before it belongs to the segment that closes (R217). -/
def checkpointCommit (p : Nat) (h : HoldReport) (d : Dev) : Dev :=
  let x := d.pair p
  if x.phase == .closed && d.pairRuns p && !x.fencing then
    match x.mirrorDiffer.filter (fun g => !((d.unprotected p).testBit g)) with
    | some g => d.mismatch p 0 g none
    | none =>
    let lp := d.lpairOf p
    let b := d.nextSlot lp
    let s : Slot :=
      { ckNum := x.ckNum + 1, sig := x.ckSig, delta := x.lead.dirty, lpair := lp, step := x.step, applied := false,
        valid := true, frame := x.lead.frame }
    let d := (d.writeSlot lp b s).retrySucceeded p
    let d := d.setPair p (d.pair p).resumed
    let d := d.setFld (PAIRCTL_CKNUM_CKNUM p) (x.ckNum + 1)
    ((((d.holdSelfTest p h.lgFail).holdSlice p h.sliceFail).holdStep p).noteOcc p).settleHalt p
  else d

/-- The mirror port finishes copying the delta into the data-memory image (R218, R238); an uncorrectable entry leaves it
unapplied (R327). -/
def deltaApplied (p : Nat) (d : Dev) : Dev :=
  let x := d.pair p
  if x.deltaLeft then
    let lp := d.lpairOf p
    let b := d.restartSlot lp
    let s := d.slotOf lp b
    let d := d.setPair p { x with deltaLeft := false }
    let (_, bad, d) := d.mirrorReads lp (slotBase b + 0x4000) (2 * s.delta.length)
    if bad then d else (d.applyDelta lp s.delta).writeHeader lp b { s with applied := true }
  else d

/-! ### Release (R219 to R222) -/

/-- The latch of consumer input `c` emptied by a released `clr` (R379). -/
def Dev.clearLatch (d : Dev) (c : Nat) : Dev := d.setLatch c none

/-- The head entry of a release reaches its target or sets out for it. -/
def Dev.releaseHead (d : Dev) (p : Nat) (e : CbEntry) : Dev :=
  let lp := d.lpairOf p
  let done (d : Dev) : Dev := d.setPair p ((d.pair p).accepted 0 0)
  match e.kind with
  | .sig => done (d.produce { prod := 322 + 4 * lp + e.addr % 4 })
  | .clr => done (d.clearLatch (8 * lp + e.addr % 8))
  | .chk => done (keeperCheck lp (e.addr % 64) d)
  | .ack => done (d.acknowledge lp e.data)
  | .store | .ioWrite =>
    if (d.pair p).relSent then d
    else
      (d.setPair p { d.pair p with relSent := true }).sendReq p
        { op := if e.kind == .store then .st else .ioWr, tag := 0, addr := e.addr, size := e.size, data := e.data,
          user := e.user, rel := true }

/-- What lane group `g` carries of a commit-buffer entry (R207, R219). -/
def CbEntry.onLane (g : Nat) (e : CbEntry) : Option CbEntry :=
  match e.kind with
  | .store =>
    if g = 0 then some { e with size := 0, data := 0 }
    else if g = 1 then some { kind := .store, addr := 0, data := e.data }
    else if g = 2 then some { kind := .store, addr := e.addr % 8, size := e.size }
    else none
  | .ioWrite => if g = 3 then some e else none
  | .sig | .clr => if g = 6 then some e else none
  | .chk | .ack => if g = 7 then some e else none

/-- The lowest protected lane group in which the two copies of the entry that is released next differ (R219). -/
def Pair.headDiffer (x : Pair) (failed : Nat) : Option Nat :=
  if x.rel.head? = x.relShadow.head? then none
  else (List.range 8).find? (fun g =>
    !(failed.testBit g) && decide (x.rel.head?.bind (CbEntry.onLane g) ≠ x.relShadow.head?.bind (CbEntry.onLane g)))

/-- The next entry of a release that satisfies `q`: it sets out where its copies agree. DESIGN CHOICE: an entry whose copies
differ does not leave the pair (R209); the release goes on behind it (R221). -/
def Dev.releaseNext (d : Dev) (p : Nat) (q : CbEntry → Bool) : Dev :=
  let x := d.pair p
  if !x.releasing then d
  else
    match (if x.relSent then none else x.headDiffer (d.unprotected p)) with
    | some g => (d.setPair p (x.accepted 0 0)).mismatch p 0 g none
    | none =>
      match x.rel with
      | [] => d.setPair p (x.accepted 0 0)
      | e :: _ => if q e then d.releaseHead p e else d

/-- The commit buffer sends its next entry (R221). -/
def release (p : Nat) (d : Dev) : Dev := d.releaseNext p (fun _ => true)

/-- A check-in at the head of a release reaches Keeper (R167, R407). -/
def checkIn (p : Nat) (d : Dev) : Dev := d.releaseNext p (fun e => e.kind == .chk)

/-- A released entry has failed at its target (R222): the first failure of the release is recorded and entered, further
ones are counted. The failed response waits in the capture stage, and this presents it (R202): not during a checkpoint
(R205). -/
def entryFailure (p : Nat) (d : Dev) : Dev :=
  let x := d.pair p
  match (if x.phase == .run then x.relFails else []) with
  | [] => d
  | (code, addr) :: t =>
    if x.relFailed then (d.setPair p { x with relFails := t }).count (PAIRCTL_CERR_MORE p)
    else
      let y := ({ x with relFails := t, relFailed := true }).everywhere (fun c => { c with commitErr := some (code, addr) })
      let d := (d.setPair p y).setFld (PAIRCTL_CERR_CODE p) code
      ((d.setFld (PAIRCTL_CERR_MORE p) 0).setFld (PAIRCTL_CERRADDR_ADDR p) addr).flag (PAIRCTL_FSTAT_COMMITERR p)

/-! ### The comparator self-test's START and the spare's first bundle -/

/-- A write of 1 to CMPTEST.START (R251). -/
def cmptestStart (p : Nat) (d : Dev) : Dev :=
  (d.setPair p { d.pair p with cmpTest := true }).setFld (PAIRCTL_CMPTEST_DONE p) 0

/-- The spare that has taken over becomes ACTIVE and issues its first bundle, once the release of the restart slot's
checkpoint is complete (R242). -/
def spareFirst (q : Nat) (d : Dev) : Dev :=
  match (d.pair q).movedFrom with
  | none => d
  | some p =>
    if (d.pair p).releasing then d
    else bundleIssue q ((d.setPair q { d.pair q with movedFrom := none }).setPairState q stActive)

/-! ### The commands -/

/-- CHECKPOINT_DUE (R211). -/
def execCheckpointDue (p : Fin 16) (s : State) : Host.Outcome State Fault Refusal := s.onDev (checkpointDue p)

/-- CHECKPOINT_K0 (R213). -/
def execCheckpointK0 (p : Fin 16) (s : State) : Host.Outcome State Fault Refusal := s.onDev (checkpointK0 p)

/-- CHECKPOINT_COMMIT (R218). -/
def execCheckpointCommit (p : Fin 16) (hold : HoldReport) (s : State) : Host.Outcome State Fault Refusal :=
  s.onDev (checkpointCommit p hold)

/-- COMMIT_BUFFER_RELEASE (R221). -/
def execCommitBufferRelease (p : Fin 16) (s : State) : Host.Outcome State Fault Refusal := s.onDev (release p)

/-- DELTA_APPLIED (R218). -/
def execDeltaApplied (p : Fin 16) (s : State) : Host.Outcome State Fault Refusal := s.onDev (deltaApplied p)

/-- COMMIT_ENTRY_FAILURE (R222). -/
def execCommitEntryFailure (p : Fin 16) (s : State) : Host.Outcome State Fault Refusal := s.onDev (entryFailure p)

/-- SEG_OVERRUN (R214). -/
def execSegOverrun (p : Fin 16) (s : State) : Host.Outcome State Fault Refusal := s.onDev (segOverrun p)

/-- SPARE_FIRST_BUNDLE (R242). -/
def execSpareFirstBundle (p : Fin 16) (s : State) : Host.Outcome State Fault Refusal := s.onDev (spareFirst p)

/-- CMPTEST_START (R251). -/
def execCmptestStart (p : Fin 16) (s : State) : Host.Outcome State Fault Refusal := s.onDev (cmptestStart p)

/-- CHECK_IN (R167, R407). -/
def execCheckIn (p : Fin 16) (s : State) : Host.Outcome State Fault Refusal := s.onDev (checkIn p)

end Sys2Proof.Machine
end

