-- ==== Sys2Proof/Machine/Reset.lean ====
section
/-! DEFINITION. Reset.lean: the device reset (R13, R416): what each block takes and keeps, up to the start-up steps of
R424, which Boot.lean runs. -/

namespace Sys2Proof.Machine

/-- A physical pair is FENCED or RETIRED, which every reset keeps (R249, R543). -/
def Dev.outOfUse (d : Dev) (p : Nat) : Bool := d.pairState p = stFenced || d.pairState p = stRetired

/-- The store's region of a target: its offset and size (R510, R525). -/
def opRegion (tgt rec_ : Nat) : Nat × Nat :=
  if tgt = 0 then (0, 0x04000000) else if tgt = 1 then (0x04000000, 0x04000000) else (0x0C000000 + rec_ * 0x100000, 0x100000)

/-- The bytes of the flash that an operation writes: the first and their number (R525). A FINISH of evidence writes none. -/
def SlotOp.range (o : SlotOp) : Nat × Nat :=
  let (base, size) := opRegion o.tgt o.record
  if o.op = 0 then (base, size)
  else if o.op = 1 then (base + o.off, o.len)
  else if o.tgt < 2 then (base, 16384)
  else (base, 0)

/-- The store with the bytes of an operation that has not come to its end left undefined. -/
def NvsSt.spoilWith (n : NvsSt) (o : SlotOp) (num : Nat) : NvsSt :=
  let (a, k) := o.range
  if k = 0 then n else { n with spoilt := { lo := a, hi := a + k, num := num } :: n.spoilt }

/-- The store with the bytes of the operation under way, if there is one, left undefined. -/
def NvsSt.spoilRunning (n : NvsSt) (num : Nat) : NvsSt :=
  match n.slotOp with
  | some o => n.spoilWith o num
  | none => n

/-- The store as a device reset leaves it (R520): entries that no seal has made durable are lost, and a running operation
ends where it stands, its bytes undefined. -/
def NvsSt.afterReset (n : NvsSt) : NvsSt :=
  { n with nextSeq := n.nextSeq - n.opened.length, opened := [], append := none, slotOp := none
           stoppedByPf := false, verifyFrom := none, verifyRun := 0 }

/-- The protection sets through a device reset: a locked configuration stays in force (R367, R569). -/
def Dev.mpuAfterReset (d : Dev) : MpuSt := { sets := if d.on MPU_LOCK_LOCK then d.mpu.sets else [] }

/-- The trust block through a device reset: fuses and the attestation key stay; a grant ends (R506). -/
def TrustSt.afterReset (t : TrustSt) : TrustSt :=
  { t with frags := [], parts := [], waiting := [], grant := none, grantLost := t.grantLost || t.grant.isSome, sigTimes := []
           auditAt := none, auditPend := 0, answer := none }

/-- A physical pair that awaits its fence is fenced, or retired, before the reset: the fence stands through it (R249). -/
def Dev.fencePending (d : Dev) (p : Nat) : Dev :=
  let x := d.pair p
  if x.fencing && !(d.outOfUse p) then
    let st := if x.retiring then stRetired else stFenced
    let d := d.setPairState p st
    { d with persist := { d.persist with pairState := arrSet 0 d.persist.pairState p st } }.journal 0x26 [p, st]
  else d

/-- The registers after a device reset from mode `old`: reset values, kept fields (R13, R569), every pair's state among
them, Keeper in HOLD where it is on (R404), PREV. -/
def Dev.resetRegisters (d : Dev) : Dev :=
  let old := d.mode
  let d := { d with io := ioReset d.io }
  let d := if d.on KEEPER_LOCK_LOCK then d.setFld KEEPER_STAT_STATE 1 else d
  d.setFld SYSCTL_STAT_PREV old

/-- The power supply's ports are within the LOWIN range: the higher is at least 33.0 V and below 36.0 V (R52). -/
def PowerSt.low (p : PowerSt) : Bool := decide (3300 ≤ max p.va p.vb) && decide (max p.va p.vb < 3600)

/-- The device after a device reset with its trigger: the mode is BOOT and S1 to S7 have yet to run. The clock of every pair
stands until S7 loads it. -/
def Dev.deviceReset (d : Dev) (trig : Nat) : Dev :=
  let d := (List.range 16).foldl Dev.fencePending d
  let d := d.resetRegisters
  let d := if d.power.low then d.flag POWER_STAT_LOWIN else d
  { d with
    pairs := d.pairs.map (fun x => { x.cleared with clockOff := true })
    bind := List.range 16
    fab := {}
    mpu := d.mpuAfterReset
    mem := { ram := ramInvalidate d.mem.ram, lastLeak := d.ticks }
    evt := {}
    intc := []
    island := { keptCause := d.island.keptCause, lastHour := d.island.lastHour, above := d.island.above
                sstop := d.island.sstop, lowSince := d.island.lowSince, differSince := d.island.differSince
                differTold := d.island.differTold }
    keeper := { start := d.keeper.start }
    power := { d.power with pfStart := none, cut := false }
    lantern := { lt := d.lantern.lt }
    drive := {}
    nvs := (d.nvs.spoilRunning d.free).afterReset
    free := d.free + 1
    start := { trig := trig }
    mirror := []
    eth := { windows := d.eth.windows, statics := d.eth.statics, lastPulse := d.lanternTime * 5 / 48 }
    can := []
    buoy := []
    trust := d.trust.afterReset
    test := { repairs := d.test.repairs }
    tdr := {}
    dma := [] }

/-- A reset whose cause is kept for the next BOOT to journal (R385, R397): the force line first. -/
def Dev.keptReset (d : Dev) (input detail trig : Nat) : Dev :=
  let d := d.assertForce.deviceReset trig
  { d with island := { d.island with keptCause := some (input, detail) } }

end Sys2Proof.Machine
end

