-- ==== Sys2Proof/Machine/Island.lean ====
section
/-! DEFINITION. Island.lean: the safety island (R384 to R400): its lanes, the processing of fault inputs, records and
reactions. -/

namespace Sys2Proof.Machine

/-! ### Records (R392, R398, R399) -/

/-- The class of a reaction (the table of R391). -/
def reactionClass (code : Nat) : Nat := if code ≤ 1 then 1 else code

/-- The reaction applied to a presented input (R391, R397). A fixed input's handling is recorded under the code of the
same effect; while a RESET reaction is in progress, nothing but the record is made (R395). -/
def Dev.reactionOf (d : Dev) (n detail : Nat) : Nat :=
  if d.island.resetAfterSeal then 0
  else if n = fiPowerFail then (if detail = 0 then 0 else 4)
  else if n = fiSstop then 4
  else if n = fiKprExpiry ∨ n = fiThermCrit then 5
  else d.fld (SAFEISL_REACT_REACT n)

/-- The class of a record (R392, R397): the higher of the inherent class and the reaction's. -/
def classOf (n detail code : Nat) : Nat :=
  let inherent := if n = fiPowerFail then (if detail = 0 then 1 else 4) else (faultRow n).inher
  max inherent (reactionClass code)

/-- LOGREAD.OLDEST follows NEXT and UNREAD. -/
def Dev.setOldest (d : Dev) : Dev :=
  d.setFld SAFEISL_LOGREAD_OLDEST ((d.fld SAFEISL_LOGHEAD_NEXT + 64 - d.fld SAFEISL_LOGREAD_UNREAD) % 64)

/-- A new record at NEXT (R398). -/
def Dev.newRecord (d : Dev) (n detail k code cls : Nat) : Dev :=
  let e := d.fld SAFEISL_LOGHEAD_NEXT
  let d := (d.setFld (SAFEISL_LOGW0_DETAIL e) detail).setFld (SAFEISL_LOGW0_JNL e) (if 2 ≤ cls then 1 else 0)
  let d := ((d.setFld (SAFEISL_LOGW0_REACT e) code).setFld (SAFEISL_LOGW0_CLASS e) cls).setFld (SAFEISL_LOGW0_INPUT e) n
  let d := (d.setFld (SAFEISL_LOGW1_COUNT e) (min k 65535)).setPair64 (SAFEISL_LOGW2_TIME e) (SAFEISL_LOGW3_TIME e)
    d.islandTime
  let d := (d.setFld SAFEISL_LOGHEAD_NEXT (e + 1)).setFld SAFEISL_LOGHEAD_TOTAL (d.fld SAFEISL_LOGHEAD_TOTAL + 1)
  let u := d.fld SAFEISL_LOGREAD_UNREAD
  let d :=
    if u < 64 then d.setFld SAFEISL_LOGREAD_UNREAD (u + 1)
    else (d.count SAFEISL_LOGHEAD_LOST).flag SAFEISL_ISTAT_LOGLOST
  let d := d.setOldest
  if 2 ≤ cls then d.journal 0x12 [n, detail, code, cls, k] else d

/-- The newest record merges a presentation: the same input and detail, less than 1 ms old (R398). -/
def Dev.mergesInto (d : Dev) (e n detail : Nat) : Bool :=
  d.fld (SAFEISL_LOGW1_COUNT e) != 0 && d.fld (SAFEISL_LOGW0_INPUT e) = n && d.fld (SAFEISL_LOGW0_DETAIL e) = detail
    && decide (d.islandTime < d.fld64 (SAFEISL_LOGW2_TIME e) (SAFEISL_LOGW3_TIME e) + 1000)

/-- `k` merged presentations of an input are recorded with their reaction (R398); a reaction of INTERRUPT or higher sets
the flag of the record's class (R391). -/
def Dev.record (d : Dev) (n detail k code : Nat) : Dev :=
  let cls := classOf n detail code
  let d := if 2 ≤ cls then { d with island := { d.island with above := withBit d.island.above n } } else d
  let d := d.setFld (SAFEISL_REACT_COUNT n) (satAdd 65535 (d.fld (SAFEISL_REACT_COUNT n)) k)
  let e := (d.fld SAFEISL_LOGHEAD_NEXT + 63) % 64
  let d :=
    if d.mergesInto e n detail then
      d.setFld (SAFEISL_LOGW1_COUNT e) (satAdd 65535 (d.fld (SAFEISL_LOGW1_COUNT e)) k)
    else d.newRecord n detail k code cls
  if 1 ≤ code then d.setBitOf SAFEISL_ISTAT_FC (cls - 1) else d

/-! ### Reactions (R391, R395, R397) -/

/-- A SAFE_STOP reaction: the force line, and SAFE-STOP as R417 lays down. -/
def Dev.safeStopReaction (d : Dev) : Dev := d.safeStopCause trigSafeStop

/-- The reaction on the pair that an input concerns: RECOVER as a mismatch of its status outputs, FENCE from there up. -/
def Dev.pairReaction (d : Dev) (n p code : Nat) : Dev :=
  if code = 2 then d.mismatch p 0 9 none
  else if 3 ≤ code then d.fenceReaction p (n = fiRetire)
  else d

/-- The effect of a reaction code on an input (R391). -/
def Dev.react (d : Dev) (n detail code : Nat) : Dev :=
  let d := match pairOfFault n detail with
    | some p => d.pairReaction n p code
    | none => d
  if code = 5 then d.resetReaction trigReaction
  else if code = 4 || (code = 3 && (pairOfFault n detail).isNone) then d.safeStopReaction
  else d

/-- The presentations that wait and may be processed, in order of presentation. POWER_FAIL waits for the outcome of the
ride-through (R58). -/
def Dev.readyFaults (d : Dev) : List Presented :=
  d.island.presented.filter (fun x =>
    !(x.input = fiPowerFail && d.on POWER_STAT_PFAIL && !(d.on POWER_STAT_PFCOMMIT)))

/-- The inputs still to be processed in the present CLK_ISL cycle, ascending; when none is left, the cycle that follows
samples every input that waits (R387). -/
def Dev.sampled (d : Dev) : List Nat :=
  let ready (n : Nat) : Bool := d.readyFaults.any (fun x => x.input = n)
  match d.island.cycle.filter ready with
  | [] => (List.range 256).filter ready
  | l => l

/-- The presentation that the island processes next, and the inputs that then remain of its cycle: the lowest input
sampled, its earliest presentation (R387). A further detail of that input comes in a later cycle. -/
def Dev.nextFault (d : Dev) : Option (Presented × List Nat) :=
  match d.sampled with
  | [] => none
  | n :: rest => (d.readyFaults.find? (fun x => x.input = n)).map (fun x => (x, rest))

/-- The island processes one presentation: it records it and applies its reaction (R387, R391, R398). A fixed input's
handling comes with the happening that presents it (R397): the reaction table does not govern it. -/
def processFault (d : Dev) : Dev :=
  match d.nextFault with
  | none => d
  | some (x, rest) =>
    let d := { d with island := { d.island with presented := d.island.presented.erase x, cycle := rest } }
    let code := d.reactionOf x.input x.detail
    let busy := d.island.resetAfterSeal
    let d := d.record x.input x.detail x.count code
    if busy || fixedInput x.input then d
    else d.react x.input x.detail code

/-! ### Lanes (R385) -/

/-- One lane differs from the other two: it is dropped from the vote. -/
def dropLane (lane : Nat) (d : Dev) : Dev :=
  if d.fld SAFEISL_STAT_LANES = 7 then (d.clearBitOf SAFEISL_STAT_LANES lane).present fiIslVote lane else d

/-- The dropped lane returns to the vote. -/
def resyncLanes (d : Dev) : Dev := d.setFld SAFEISL_STAT_LANES 7

/-- The remaining lanes differ: the force line, then a device reset whose cause the next BOOT journals. -/
def lanesDiffer (d : Dev) : Dev := d.keptReset fiIslVote 3 trigLanes

/-! ### Counts and the log (R393, R398, R399) -/

/-- Inputs all of whose records have been F1 (R399). -/
def Dev.plainInput (d : Dev) (n : Nat) : Bool := !(d.island.above.testBit n)

/-- Once an hour of island time, the non-zero counts of the F1 inputs are journaled (R399). -/
def hourlyCounts (d : Dev) : Dev :=
  let hour := d.islandTime / 3600000000
  if d.island.lastHour < hour then
    let d := { d with island := { d.island with lastHour := hour } }
    let counts := ((List.range 256).filter (fun n => d.plainInput n && d.fld (SAFEISL_REACT_COUNT n) != 0)).flatMap
      (fun n => [n, d.fld (SAFEISL_REACT_COUNT n)])
    if counts.isEmpty then d else d.journal 0x13 counts
  else d

/-- A write of n to LOGREAD.ACK: the n oldest unread records are read (R398). -/
def logAck (n : Nat) (d : Dev) : Dev :=
  (d.setFld SAFEISL_LOGREAD_UNREAD (d.fld SAFEISL_LOGREAD_UNREAD - n)).setOldest

/-- Every REACTi.COUNT cleared. -/
def clearFaultCounts (d : Dev) : Dev := (List.range 256).foldl (fun d i => d.setFld (SAFEISL_REACT_COUNT i) 0) d

/-- The reaction that a write of `v` to input `i`'s row stores (R392): 0b110 and 0b111 as 0b101, below the floor as the
floor; a fixed input's row stays 0b101. -/
def reactionStored (i v : Nat) : Nat :=
  if fixedInput i then 5 else max (min v 5) (faultRow i).floor

/-- A write to SAFEISL.REACTi.REACT (R393). -/
def reactWrite (i v : Nat) (d : Dev) : Dev :=
  if !d.configurable then d.flag SAFEISL_ISTAT_WREFUSED
  else if d.on SAFEISL_LOCK_LOCK then d
  else d.setFld (SAFEISL_REACT_REACT i) (reactionStored i v)

/-! ### The commands -/

/-- FAULT_PROCESSING (R387). -/
def execFaultProcessing (s : State) : Host.Outcome State Fault Refusal := s.onDev processFault

/-- ISL_VOTE (R385). -/
def execIslVote (lane : Fin 3) (s : State) : Host.Outcome State Fault Refusal := s.onDev (dropLane lane)

/-- LANE_RESYNC (R385). -/
def execLaneResync (s : State) : Host.Outcome State Fault Refusal := s.onDev resyncLanes

/-- LANE_DISAGREEMENT_RESET (R385). -/
def execLaneDisagreementReset (s : State) : Host.Outcome State Fault Refusal := s.onDev lanesDiffer

/-- HOURLY_FAULT_COUNTS (R399). -/
def execHourlyFaultCounts (s : State) : Host.Outcome State Fault Refusal := s.onDev hourlyCounts

/-- LOGREAD_ACK (R398). -/
def execLogreadAck (n : BitVec 8) (s : State) : Host.Outcome State Fault Refusal := s.onDev (logAck n.toNat)

/-- CLRCNT (R398). -/
def execClrcnt (s : State) : Host.Outcome State Fault Refusal := s.onDev clearFaultCounts

/-- REACT_WRITE (R393). -/
def execReactWrite (i : Fin 256) (v : BitVec 3) (s : State) : Host.Outcome State Fault Refusal :=
  s.onDev (reactWrite i v.toNat)

end Sys2Proof.Machine
end

