-- ==== Sys2Proof/Machine/Power.lean ====
section
/-! DEFINITION. Power.lean: the power supervisor (R41 to R71), the temperature sensors (R33), the safe-stop inputs (R62 to
R66) and the loss of a clock (R22). Voltages are in 10 mV, temperatures in 1/16 °C. -/

namespace Sys2Proof.Machine

/-! ### Ports (R44, R45, R52) -/

/-- STAT.LOWIN follows the port voltages; each entry counts (R52). -/
def Dev.noteLowin (d : Dev) : Dev :=
  if d.power.low then
    (if d.on POWER_STAT_LOWIN then d else (d.flag POWER_STAT_LOWIN).count POWER_PFCNT_LOWCNT)
  else d.setFld POWER_STAT_LOWIN 0

/-- A port's voltage is `v`; the tick since which it has been at or above 36.0 V. -/
def PowerSt.setPort (p : PowerSt) (b : Bool) (v now : Nat) : PowerSt :=
  let good (old : Option Nat) : Option Nat := if v < 3600 then none else some (old.getD now)
  if b then { p with vb := v, goodB := good p.goodB } else { p with va := v, goodA := good p.goodA }

/-- The device with port `b`'s voltage at `v` (16 bits, as VIN holds it). The supervisor notes LOWIN while the converter
runs. -/
def Dev.setPort (d : Dev) (b : Bool) (v : Nat) : Dev :=
  let e := { d with power := d.power.setPort b (v % 65536) d.ticks }
  if d.power.converter then e.noteLowin else e

/-- The device with both port voltages changed at once. -/
def Dev.setPorts (d : Dev) (va vb : Nat) : Dev :=
  let e := { d with power := (d.power.setPort false va d.ticks).setPort true vb d.ticks }
  if d.power.converter then e.noteLowin else e

/-- POWER.STAT.SRC (R44). DESIGN CHOICE: a port supplies from 33.0 V on, the threshold of PORTA_ON and PORTB_ON; the spec
gives SRC none. -/
def PowerSt.source (p : PowerSt) : Nat :=
  if max p.va p.vb < 3300 then 0
  else if p.va ≤ p.vb + 50 ∧ p.vb ≤ p.va + 50 then 3
  else if p.vb < p.va then 1 else 2

/-- A port's supply falls to `v` while the other is at or above 36.0 V (R45). -/
def portLoss (b : Bool) (v : Nat) (d : Dev) : Dev :=
  let other := if b then d.power.va else d.power.vb
  let d := d.setPort b v
  if v % 65536 < 3300 ∧ 3600 ≤ other then (d.flag POWER_ISTAT_PORTLOSS).present fiPortLoss (if b then 1 else 0) else d

/-! ### Power failure (R51 to R61) -/

/-- Power failure (R51, R54, R55): with `hold` VBUS has fallen below 30.0 V, otherwise both ports have lost their supply.
The power-fail entry is sealed; an attempt followed by it is not counted (R426). -/
def pfail (hold : Bool) (d : Dev) : Dev :=
  if d.power.pfStart.isSome || d.on POWER_STAT_PFCOMMIT then d
  else
    let d := if hold then d else d.setPorts 0 0
    let d := { d with power := { d.power with pfStart := some d.ticks } }
    let d := ((d.flag POWER_STAT_PFAIL).flag POWER_ISTAT_PFSTART).present fiPowerFail 0
    let d := (d.produce { prod := 463 }).journal 0x10 []
    { d with nvs := { d.nvs with stoppedByPf := d.nvs.slotOp.isSome }, persist := { d.persist with attempt := none } }

/-- A port has been at or above 36.0 V for `n` ticks. -/
def Dev.inputGood (d : Dev) (n : Nat) : Bool :=
  (match d.power.goodA with | some t => d.elapsed t n | none => false) ||
    (match d.power.goodB with | some t => d.elapsed t n | none => false)

/-- The unprocessed presentation of POWER_FAIL takes its detail from the outcome (R388). -/
def Dev.settlePowerFail (d : Dev) (detail : Nat) : Dev :=
  { d with island := { d.island with presented := d.island.presented.map (fun x =>
      if x.input = fiPowerFail then { x with detail := detail } else x) } }

/-- A power failure outside a device that is held: only its port voltages fall. -/
def pfailLine (hold : Bool) (d : Dev) : Dev :=
  if d.held then (if hold then d else d.setPorts 0 0) else pfail hold d

/-- The end of RIDE (R57): ridden through, or committed. DESIGN CHOICE: RIDE is read at its end, so a write of PFCFG during the
sequence takes effect in it. -/
def rideEnd (d : Dev) : Dev :=
  match d.power.pfStart with
  | none => d
  | some t =>
    let ride := d.fld POWER_PFCFG_RIDE
    if !(d.elapsed t (ride * usTicks)) || d.on POWER_STAT_PFCOMMIT then d
    else if ride != 0 && d.inputGood (20 * usTicks) then
      let d := { d with power := { d.power with pfStart := none } }
      (((d.setFld POWER_STAT_PFAIL 0).count POWER_PFCNT_RIDES).flag POWER_ISTAT_PFRIDE).settlePowerFail 0
    else ((d.flag POWER_STAT_PFCOMMIT).settlePowerFail 1).safeStopCause trigPower

/-- Every pair's clock stopped and VPAIRn off. -/
def Dev.stopPairs (d : Dev) : Dev := { d with pairs := d.pairs.map (fun x => { x with clockOff := true, vmv := 0 }) }

/-- After a commit, once the seal is complete, the pair clocks stop and VPAIR0 to 15 switch off (R59). -/
def sealDone (d : Dev) : Dev :=
  if d.on POWER_STAT_PFCOMMIT && !d.power.cut then
    let d := if d.nvs.opened.isEmpty then d else d.sealPage 0
    { d with power := { d.power with cut := true } }.stopPairs
  else d

/-- Input returns after a commit: a port has been at or above 36.0 V for 1 ms (R60). -/
def inputReturn (d : Dev) : Dev :=
  if d.on POWER_STAT_PFCOMMIT && d.inputGood msTicks then
    (if d.nvs.opened.isEmpty then d else d.sealPage 0).deviceReset trigReturn
  else d

/-- VBUS falls below 18.0 V (R47, R59): neither port can then be at or above it. Nothing runs until the next power-on. -/
def converterStop (d : Dev) : Dev :=
  let d := d.setPorts (min d.power.va 1799) (min d.power.vb 1799)
  { d with power := { d.power with converter := false, cut := true } }.stopPairs.assertForce

/-- The state of a device switched on, with what flash and fuses hold. Ports below 34.0 V are taken at 48.0 V.
DESIGN CHOICE: a higher port from 34.0 V to below 36.0 V sets LOWIN without counting an entry in LOWCNT. -/
def Dev.switchedOn (d : Dev) : Dev :=
  let p := d.power
  let up := decide (3400 ≤ max p.va p.vb)
  let va := if up then p.va else 4800
  let vb := if up then p.vb else 4800
  let good (v : Nat) : Option Nat := if v < 3600 then none else some 0
  let e : Dev := { Dev.reset with
    free := d.free + 1
    power := { va := va, vb := vb, vinA := va, vinB := vb, goodA := good va, goodB := good vb
               base := p.base, dies := p.dies }
    rom := d.rom
    island := { sstop := d.island.sstop }
    nvs := { (d.nvs.spoilRunning d.free).afterReset with lastSeal := 0 }
    persist := d.persist
    trust := d.trust.afterReset
    test := { repairs := d.test.repairs }
    age := { slack := d.age.slack, nbti := d.age.nbti, onTicks := d.age.onTicks, planHours := d.age.planHours } }
  if e.power.low then e.flag POWER_STAT_LOWIN else e

/-- VBUS rises through 34.0 V and power-on reset is released (R47, R48). The rails come up within the command: VAON, the
supplies of pads and store, then SRAM and fabric; power-on reset, with NRST_TDR low, ends with the third step. A converter
that runs does not start. -/
def powerOn (d : Dev) : Dev := if d.power.converter then d else d.switchedOn

/-- NRST_TDR is driven low by the module: power-on reset is held from the converter's stop to its release (R48). -/
def Dev.drivesNrst (d : Dev) : Bool := !d.power.converter

/-! ### Temperature and supplies (R33, R41) -/

/-- The die sensors at or above a temperature, by number. -/
def hotDies (dies : List Int) (limit : Int) : List Nat :=
  (List.range 24).filter (fun i => match dies[i]? with | some t => decide (limit ≤ t) | none => false)

/-- A reading of the sensors (R33). A critical die forces the outputs and resets the device, which stays in reset until
every die reads 115.0 °C or below. -/
def temperature (base : Int) (dies : List Int) (d : Dev) : Dev :=
  if !d.power.converter then d else
  let d := { d with power := { d.power with base := base, dies := dies.take 24 } }
  if d.power.hotReset then
    { d with power := { d.power with hotReset := dies.take 24 |>.any (fun t => decide (1840 < t)) } }
  else
    let d := if 1680 < base then d.flag POWER_ISTAT_THWARN else d
    let hi := hotDies dies 2000
    let d := if hi.isEmpty then d else d.flag POWER_ISTAT_THHI
    let d := hi.foldl (fun d i => d.present fiThermHi i) d
    match hotDies dies 2160 with
    | [] => d
    | i :: _ =>
      let d := (d.record fiThermCrit i 1 5).keptReset fiThermCrit i trigTherm
      { d with power := { d.power with hotReset := true } }

/-- V3P3_OUT or V5_OUT overloads and switches off (R41). -/
def supplyOverload (v5 : Bool) (d : Dev) : Dev :=
  let d := d.flag POWER_ISTAT_SUPOVL
  { d with power := if v5 then { d.power with v5off := true } else { d.power with v3off := true } }

/-! ### Safe-stop inputs (R62 to R66) -/

/-- Input `i` is energised. -/
def Dev.energised (d : Dev) (i : Nat) : Bool := arrGet false d.island.sstop i

/-- The state of an input with a level applied (R62): at least 15 V and 2 mA energise it, no more than 5 V or 0.5 mA
de-energises it, and a level between keeps it. -/
def energises (x : StopLevel) (old : Bool) : Bool :=
  if 150 ≤ x.dv ∧ 2000 ≤ x.ua then true else if x.dv ≤ 50 ∨ x.ua ≤ 500 then false else old

/-- The device with a level applied to input `i`: the ticks since which it is de-energised and since which the inputs
differ. -/
def Dev.setSstop (d : Dev) (i : Nat) (x : StopLevel) : Dev :=
  let old := d.energised i
  let on := energises x old
  if on = old then d
  else
    let l := d.island
    let e := { d with island := { l with
      sstop := arrSet false l.sstop i on, lowSince := if on then l.lowSince else arrSet 0 l.lowSince i d.ticks } }
    if e.energised 0 = e.energised 1 then { e with island := { e.island with differTold := false } }
    else { e with island := { e.island with differSince := d.ticks } }

/-- The filter time in ticks (R64). -/
def Dev.sstopFilter (d : Dev) : Nat := d.fld SAFEISL_SSTOP_FILT * (50 * usTicks)

/-- Input `i` has stayed de-energised for longer than its filter time (R63). -/
def Dev.sstopTrips (d : Dev) (i : Nat) : Bool :=
  !(d.energised i) && decide (arrGet 0 d.island.lowSince i + d.sstopFilter < d.ticks)

/-- A level at input `i`, and its trip once the filter time has passed (R62, R63). -/
def sstop (i : Nat) (x : StopLevel) (d : Dev) : Dev :=
  let d := d.setSstop i x
  if !d.held && d.sstopTrips i then (d.present fiSstop i).safeStopCause trigSstop else d

/-- The inputs have differed for longer than 500 ms (R65). -/
def sstopDiscrep (d : Dev) : Dev :=
  if d.energised 0 != d.energised 1 && !d.island.differTold && decide (d.island.differSince + 500 * msTicks < d.ticks) then
    { d with island := { d.island with differTold := true } }.present fiSstopDiscrep 0
  else d

/-! ### Clocks (R22, R386) -/

/-- A clock is lost: the power supervisor presents it; without the system PLL the island runs from KOSC. -/
def clockLoss (c : ClockSrc) (d : Dev) : Dev :=
  match c with
  | .sysPll => { d with island := { d.island with kosc := true } }.present fiSpllLoss 0
  | .ethPll => d.present fiEpllLoss 0
  | .pairSynth n => d.present fiPsynLoss n
  | .refosc => d.present fiRefoscLoss 0

/-! ### The commands -/

/-- PORT_LOSS (R45). -/
def execPortLoss (b : Bool) (v : Nat) (s : State) : Host.Outcome State Fault Refusal :=
  s.onLine (fun d => if d.held then d.setPort b v else portLoss b v d)

/-- LOWIN (R52): port `b` (false A, true B) is now at `v`. -/
def execLowin (b : Bool) (v : Nat) (s : State) : Host.Outcome State Fault Refusal := s.onLine (fun d => d.setPort b v)

/-- PORT_SUPPLY_RETURN (R44, R52). -/
def execPortSupplyReturn (b : Bool) (v : Nat) (s : State) : Host.Outcome State Fault Refusal :=
  s.onLine (fun d => d.setPort b v)

/-- PFAIL (R54). -/
def execPfail (hold : Bool) (s : State) : Host.Outcome State Fault Refusal := s.onLine (pfailLine hold)

/-- RIDE_END (R57). -/
def execRideEnd (s : State) : Host.Outcome State Fault Refusal := s.onDev rideEnd

/-- POWER_FAIL_SEAL_DONE (R59). -/
def execPowerFailSealDone (s : State) : Host.Outcome State Fault Refusal := s.onDev sealDone

/-- INPUT_RETURN (R60). -/
def execInputReturn (s : State) : Host.Outcome State Fault Refusal := s.onDev inputReturn

/-- CONVERTER_STOP (R47). -/
def execConverterStop (s : State) : Host.Outcome State Fault Refusal := s.onLine converterStop

/-- POWER_ON_RESET (R48). -/
def execPowerOnReset (s : State) : Host.Outcome State Fault Refusal := s.onLine powerOn

/-- TEMPERATURE_SAMPLE (R33). -/
def execTemperatureSample (base : Int) (dies : List Int) (s : State) : Host.Outcome State Fault Refusal :=
  s.onLine (temperature base dies)

/-- SUPPLY_OVERLOAD (R41). -/
def execSupplyOverload (v5 : Bool) (s : State) : Host.Outcome State Fault Refusal := s.onDev (supplyOverload v5)

/-- V5ON (R41). -/
def execV5on (s : State) : Host.Outcome State Fault Refusal :=
  s.onDev (fun d => { d with power := { d.power with v5off := false } })

/-- V3ON (R41). -/
def execV3on (s : State) : Host.Outcome State Fault Refusal :=
  s.onDev (fun d => { d with power := { d.power with v3off := false } })

/-- CLOCK_LOSS (R22). -/
def execClockLoss (c : ClockSrc) (s : State) : Host.Outcome State Fault Refusal := s.onDev (clockLoss c)

/-- SSTOP (R63). -/
def execSstop (x : StopInput) (s : State) : Host.Outcome State Fault Refusal := s.onLine (sstop x.i x.level)

/-- SSTOP_DISCREP (R65). -/
def execSstopDiscrep (s : State) : Host.Outcome State Fault Refusal := s.onDev sstopDiscrep

/-- SSTOP_REENERGISED (R66). -/
def execSstopReenergised (x : StopInput) (s : State) : Host.Outcome State Fault Refusal :=
  s.onLine (fun d => d.setSstop x.i x.level)

end Sys2Proof.Machine
end

