-- ==== Sys2Proof/Machine/Lifecycle.lean ====
section
/-! DEFINITION. Lifecycle.lean: the lifecycle state (R484 to R487), roots (R488), the rights of a signer (R497), and the
check of an image slot (R498 to R500). -/

namespace Sys2Proof.Machine

/-! ### Lifecycle (R484, R485) -/

def lcBlank : Nat := 0
def lcManufacture : Nat := 1
def lcProvisioned : Nat := 2
def lcDeployed : Nat := 3
def lcReturned : Nat := 4
def lcScrapped : Nat := 5

/-- LCS: the number of state bits set, a bit being set if either of its two fuses is blown (R485). -/
def TrustSt.lcs (t : TrustSt) : Nat := ((List.range 5).filter (fun s => arrGet 0 t.lcsFuses s != 0)).length

/-- The lifecycle state. -/
def Dev.lcs (d : Dev) : Nat := d.trust.lcs

/-- Both fuses of every state bit below state `s` blown. -/
def TrustSt.blowTo (t : TrustSt) (s : Nat) : TrustSt :=
  { t with lcsFuses := (List.range s).foldl (fun f i => arrSet 0 f i 3) t.lcsFuses }

/-- A grant in force ends (R506): journaled, with its session. -/
def Dev.endGrant (d : Dev) : Dev :=
  match d.trust.grant with
  | none => d
  | some _ => ({ d with trust := { d.trust with grant := none } }.flag TRUST_ISTAT_GRANTCHG).journal 0x39 [0]

/-- The side effects of entry into a state (R487). -/
def Dev.lifecycleEffects (d : Dev) (s : Nat) : Dev :=
  let d :=
    if s = lcReturned || s = lcScrapped then
      { d with persist := { d.persist with keys := [(0, List.replicate 32 0)], opRoots := [] } }.endGrant
    else d
  if s = lcScrapped then { d with trust := { d.trust with att := .destroyed, attSeed := 0 } } else d

/-- A lifecycle transition (R485): intent, fuses, side effects, completion. Every transition ends a debug grant (R506). -/
def Dev.lifecycleTo (d : Dev) (s : Nat) : Dev :=
  let d := ({ d with persist := { d.persist with intent := some s } }).journal 0x31 [s]
  let d := ({ d with trust := d.trust.blowTo s }.lifecycleEffects s).endGrant
  ({ d with persist := { d.persist with intent := none } }).journal 0x32 [s]

/-! ### Roots (R488, R489) -/

/-- The root of a role's slot, empty where there is none or it is revoked. -/
def Dev.rootOf (d : Dev) (role slot : Nat) : List Byte :=
  if role = 0 then (if slot < 4 then arrGet [] d.persist.opRoots slot else [])
  else if role = 1 then (if slot < 2 && !(arrGet false d.trust.revoked (2 + slot)) then arrGet [] d.trust.instRoots slot else [])
  else if role = 2 then (if slot < 2 && !(arrGet false d.trust.revoked (4 + slot)) then arrGet [] d.trust.makerRoots slot else [])
  else []

/-- The slot holds a usable root. -/
def Dev.usable (d : Dev) (role slot : Nat) : Bool := !(d.rootOf role slot).isEmpty

/-! ### Rights (R497) -/

/-- The rights table gives a role the command in a lifecycle state. -/
def rightOf (code role lcs : Nat) (opInstall : Bool) : Bool :=
  let inst := role = 1
  let maker := role = 2
  let prov := lcs = lcProvisioned || lcs = lcDeployed
  if 1 ≤ code ∧ code ≤ 3 then true
  else if code = 0x04 then (inst && prov) || (maker && (lcs = lcManufacture || lcs = lcReturned))
  else if code = 0x05 then maker
  else if code = 0x06 ∨ code = 0x07 then inst || maker
  else if code = 0x08 then true
  else if code = 0x11 ∨ code = 0x12 then maker && lcs = lcManufacture
  else if code = 0x13 then inst && lcs = lcProvisioned
  else if code = 0x14 then (inst || maker) && prov
  else if code = 0x15 ∨ code = 0x16 then (inst || maker) && lcs != lcBlank
  else if code = 0x17 ∨ code = 0x18 ∨ code = 0x19 then inst && prov
  else if code = 0x1A then
    ((role = 0 && opInstall) || inst || maker) && decide (lcManufacture ≤ lcs) && decide (lcs ≤ lcReturned)
  else if code = 0x1B then (inst || maker) && prov
  else code = 0x1C

/-- The code is one that a signed block may carry (R497). -/
def signedCode (code : Nat) : Bool := (decide (1 ≤ code) && decide (code ≤ 8)) || (decide (0x10 ≤ code) && decide (code ≤ 0x1C))

/-! ### Image slots (R498 to R500) -/

/-- The NV offset of a slot. -/
def slotOffset (b : Bool) : Nat := if b then 0x04000000 else 0

/-- Bytes of the NV store. -/
def NvsSt.bytes (n : NvsSt) (off len : Nat) : List Byte := (List.range len).map (fun i => n.byte (off + i))

/-- A little-endian field of the NV store. -/
def NvsSt.num (n : NvsSt) (off len : Nat) : Nat := leNat (n.bytes off len)

/-- Some page of a range is beyond correction. -/
def NvsSt.rangeBad (n : NvsSt) (off len : Nat) : Bool :=
  n.badPages.any (fun e => e.2 && decide (off / 4096 ≤ e.1) && decide (e.1 * 4096 < off + len))

/-- The floor of R500. -/
def Dev.arbFloor (d : Dev) : Nat := max d.persist.arb (64 * d.trust.arbAnchor)

/-- The signers of a slot's manifest: role and slot, with whether each signature verifies. -/
def Dev.slotSigners (d : Dev) (o : Nat) : List (Nat × Nat × Bool) :=
  let msg := d.nvs.bytes o 384
  (List.range (min 2 (d.nvs.num (o + 6) 2))).map (fun i =>
    let s := o + 384 + 2824 * i
    let role := d.nvs.num s 1
    let slot := d.nvs.num (s + 1) 1
    (role, slot, d.usable role slot && Config.xmssVerify (d.rootOf role slot) msg (d.nvs.bytes (s + 4) 2820)))

/-- The signers that a lifecycle state asks for (R499). -/
def Dev.signersMeet (d : Dev) (sg : List (Nat × Nat × Bool)) : Bool :=
  let has (role : Nat) : Bool := sg.any (fun x => x.1 = role)
  let l := d.lcs
  if l = lcManufacture || l = lcReturned then has 2
  else if l = lcProvisioned || l = lcDeployed then has 1 && (!d.persist.opCosign || has 0)
  else false

/-- The check of a slot (R499): the cause of its failure (R432), or 0. -/
def Dev.verifySlot (d : Dev) (b : Bool) : Nat :=
  let o := slotOffset b
  let n := d.nvs
  let plen := n.num (o + 20) 4
  let mask := n.num (o + 56) 1
  let uid := n.num (o + 64) 8
  let sg := d.slotSigners o
  if n.rangeBad o 16384 || n.num o 4 != 0x51424D46 || n.num (o + 4) 2 != 1 then 3
  else if !(mask.testBit d.lcs) || (uid != 0 && uid != d.trust.devuid) then 1
  else if n.num (o + 6) 2 = 0 || 2 < n.num (o + 6) 2 || !(sg.all (fun x => x.2.2)) || !(d.signersMeet sg) then 1
  else if 0x04000000 - 16384 < plen || n.rangeBad (o + 16384) plen
      || shake256 (n.bytes (o + 16384) plen) 32 != n.bytes (o + 24) 32 then 1
  else if n.num (o + 16) 4 < d.arbFloor then 2
  else 0

/-- The check with its fault input: a slot below the floor presents TRUST_ROLLBACK (R508). -/
def Dev.checkSlot (d : Dev) (b : Bool) : Nat × Dev :=
  let c := d.verifySlot b
  (c, if c = 2 then d.present fiRollback (if b then 1 else 0) else d)

/-- Anchor bits blown until they match ARB (R500). -/
def Dev.blowAnchor (d : Dev) : Dev :=
  let k := min 128 (d.persist.arb / 64)
  if d.trust.arbAnchor < k then
    { d with trust := { d.trust with arbAnchor := k } }.journal 0x34 [k]
  else d

/-- A confirmed start with a higher SVN raises ARB (R500). -/
def Dev.raiseArb (d : Dev) (svn : Nat) : Dev :=
  if d.persist.arb < svn then
    (({ d with persist := { d.persist with arb := svn } }.journal 0x33 [svn]).flag TRUST_ISTAT_ARBUP).blowAnchor
  else d

/-! ### Transport keys (R490) -/

/-- A transport key, none where it is not installed: K0 always is. -/
def Dev.keyOf (d : Dev) (k : Nat) : Option (List Byte) :=
  match mapFind d.persist.keys k with
  | some v => some v
  | none => if k = 0 then some (List.replicate 32 0) else none

end Sys2Proof.Machine
end

