-- ==== Sys2Proof/Machine/Modes.lean ====
section
/-! DEFINITION. Modes.lean: the commands that change the mode (R420 to R423), the confirmation of a start (R427), FOG's exit
(R433) and STANDBY (R434 to R436). -/

namespace Sys2Proof.Machine

/-! ### Status values of a command (SYSCTL.CMDSTAT, R493) -/

def cmdDone : Nat := 0
def cmdRefused : Nat := 1
def cmdUnknown : Nat := 2
def cmdSigreq : Nat := 3
def cmdNowake : Nat := 4

/-! ### Slots and fail counts (R425 to R427, R432) -/

/-- The SYSCTL fields that show what the journal holds of the slots. -/
def Dev.showSlots (d : Dev) : Dev :=
  let p := d.persist
  let d := d.setFld SYSCTL_STAT_ACTSLOT (if p.actSlot then 1 else 0)
  let d := (d.setFld SYSCTL_BOOTSTAT_ACTFAIL p.actFail).setFld SYSCTL_BOOTSTAT_ALTFAIL p.altFail
  (d.setFld SYSCTL_FOGREASON_ACTCAUSE p.actCause).setFld SYSCTL_FOGREASON_ALTCAUSE p.altCause

/-- Fail counts at zero and slot `b` active, journaled. The causes stay with their slots. -/
def Dev.setActive (d : Dev) (b : Bool) : Dev :=
  let p := d.persist
  let p := if b = p.actSlot then p else { p with actSlot := b, actCause := p.altCause, altCause := p.actCause }
  ({ d with persist := { p with actFail := 0, altFail := 0 } }.journal 0x23 [if b then 1 else 0, 0, 0]).showSlots

/-- A failed start on slot `b` (R426): the outcome, and the count of its slot. -/
def Dev.failStart (d : Dev) (b : Bool) (cause : Nat) : Dev :=
  let p := { d.persist with attempt := none }
  let p := if b = p.actSlot then { p with actFail := min 2 (p.actFail + 1), actCause := cause }
    else { p with altFail := 1, altCause := cause }
  let d := { d with persist := p }.journal 0x21 [if b then 1 else 0, cause]
  (d.journal 0x23 [if p.actSlot then 1 else 0, p.actFail, p.altFail]).showSlots

/-- The first RUN or ENTER_CONFIG performed confirms the start (R427). -/
def Dev.confirmStart (d : Dev) : Dev :=
  if d.start.s7End.isNone || d.on SYSCTL_BOOTSTAT_CONFIRMED then d
  else
    let b := d.on SYSCTL_STAT_BOOTSLOT
    let d := ({ d with persist := { d.persist with attempt := none } }.flag SYSCTL_BOOTSTAT_CONFIRMED).journal 0x22
      [if b then 1 else 0]
    (d.setActive b).raiseArb d.start.imgSvn

/-- BOOT_CONFIRM has run out on a start that nothing has confirmed (R426, R428). -/
def confirmExpiry (d : Dev) : Dev :=
  match d.start.s7End with
  | none => d
  | some t =>
    if d.on SYSCTL_BOOTSTAT_CONFIRMED || !(d.elapsed t (d.start.confirm * 10 * msTicks)) then d
    else (d.failStart (d.on SYSCTL_STAT_BOOTSLOT) 4).deviceReset trigConfirm

/-! ### Conditions (R421, R423) -/

/-- The command is protected: only a signed command performs it (R421). -/
def protectedCode (code : Nat) : Bool := decide (4 ≤ code) && decide (code ≤ 8)

/-- The modes in which a command is permitted (R421). -/
def permittedIn (code m : Nat) : Bool :=
  if code = 1 then m = modeBoot || m = modeConfig || m = modeSafeStop
  else if code = 2 then m = modeRun || m = modeDegraded
  else if code = 3 then m = modeConfig || m = modeRun || m = modeDegraded || m = modeSafeStop
  else if code = 4 then m = modeBoot || m = modeSafeStop
  else if code = 5 then m = modeBoot || m = modeConfig
  else if code = 6 then m = modeFog
  else if code = 7 then m = modeConfig || m = modeSafeStop
  else code = 8

/-- RUN is not refused under R423. -/
def Dev.runAllowed (d : Dev) : Bool :=
  d.energised 0 && d.energised 1 && !(d.on POWER_STAT_PFCOMMIT) && !(d.on SAFEISL_STAT_REACT) && d.covered

/-- The further conditions of R421 and R423. -/
def Dev.conditionsMet (d : Dev) (code arg : Nat) : Bool :=
  if code = 1 then d.runAllowed
  else if code = 5 then d.lcs = lcManufacture || d.lcs = lcReturned
  else if code = 6 then d.lcs != lcScrapped
  else if code = 7 then d.pairState (arg % 16) = stFenced
  else true

/-! ### Effects -/

/-- The mode that RUN selects (R416, R417). -/
def Dev.runMode (d : Dev) : Nat :=
  if d.on SAFEISL_STAT_SSLATCH && (d.mode = modeBoot || d.mode = modeConfig) then modeSafeStop
  else if d.anyLost then modeDegraded else modeRun

/-- A session is attached. -/
def Dev.session (d : Dev) : Bool := d.on DEBUG_STAT_SESSION

/-- Every running pair is asked to halt (R436). -/
def Dev.haltAll (d : Dev) : Dev :=
  (List.range 16).foldl (fun d p => if d.pairRuns p then d.capture p .halt else d) d

/-- Entry into STANDBY (R434, R436). -/
def Dev.enterStandby (d : Dev) : Dev :=
  let d := d.assertForce.enterMode modeStandby trigCommand
  let d := { d with start := { d.start with standbyAt := some d.ticks } }
  if d.session then (d.flag SYSCTL_STAT_EMUL).haltAll
  else { d with start := { d.start with waitFrom := some d.ticks } }

/-- An UNFENCE (R423): OFF in retention, journaled. -/
def Dev.unfence (d : Dev) (p : Nat) : Dev :=
  let d := d.setPairState p stOff
  { d with persist := { d.persist with
      pairState := arrSet 0 d.persist.pairState p stOff, unfenced := withBit d.persist.unfenced p } }.journal 0x26 [p, stOff]

/-- The effect of a command of R421 that nothing refuses. -/
def Dev.command (d : Dev) (code arg : Nat) : Dev :=
  if code = 1 then let d := d.confirmStart; d.enterMode d.runMode trigCommand
  else if code = 2 then d.assertForce.enterMode modeSafeStop trigCommand
  else if code = 3 then d.enterStandby
  else if code = 4 then d.confirmStart.enterMode modeConfig trigCommand
  else if code = 5 then d.enterMode modeMaker trigCommand
  else if code = 6 then (d.setActive d.persist.actSlot).deviceReset trigFog
  else if code = 7 then d.unfence (arg % 16)
  else d.deviceReset trigResetCmd

/-- A command judged in the present mode (R421 to R423): its status and the device. A full journal takes no S entry, so it
refuses the protected commands (R523). -/
def Dev.judge (d : Dev) (code arg : Nat) : Nat × Dev :=
  if !(permittedIn code d.mode) || !(d.conditionsMet code arg) || (d.nvs.full && protectedCode code) then
    (cmdRefused, (d.refuse code (protectedCode code)).cmdStat code cmdRefused)
  else if code = 3 && d.word 0x000020 = 0 then (cmdNowake, d.cmdStat code cmdNowake)
  else (cmdDone, (d.cmdStat code cmdDone).command code arg)

/-- A command is being carried out: STANDBY, until its clocks stop (R420, R434). Every other command is done as it is
judged. -/
def Dev.carrying (d : Dev) : Bool := d.mode = modeStandby && d.start.waitFrom.isSome

/-- A command of R421 carried out by the way it comes (R420): written to SYSCTL.CMD, or in a signed block that has passed its
checks, of a role that the rights table gives the command (R497). -/
def Dev.carryOut (d : Dev) (src : CmdSrc) (code arg : Nat) : Dev :=
  match src with
  | .register =>
    if code = 0 || 8 < code then d.cmdStat code cmdUnknown
    else if protectedCode code then d.cmdStat code cmdSigreq
    else (d.judge code arg).2
  | .signed role _ =>
    if code = 0 || 8 < code then d.cmdStat code cmdUnknown
    else if !(rightOf code role d.lcs d.persist.opInstall) then d.count TRUST_SIGCNT_SIGFAIL
    else (d.judge code arg).2

/-- A command arrives: while another is carried out, it waits (R420). -/
def Dev.issueCommand (d : Dev) (src : CmdSrc) (code arg : Nat) : Dev :=
  if d.carrying then { d with start := { d.start with waiting := d.start.waiting ++ [(src, code, arg)] } }
  else d.carryOut src code arg

/-- The commands that have waited, in order, each judged against the mode that the one before it leaves (R420). A device
reset drops those that still wait. -/
def Dev.carryWaiting : List (CmdSrc × Nat × Nat) → Dev → Dev
  | [], d => d
  | (src, code, arg) :: t, d => if d.start.starting then d else Dev.carryWaiting t (d.carryOut src code arg)

/-! ### STANDBY's completion and wakes (R434 to R436) -/

/-- The commit-buffer release of every ACTIVE pair is complete. -/
def Dev.releasesOver (d : Dev) : Bool :=
  (List.range 16).all (fun p => d.pairState p != stActive || !(d.pair p).releasing)

/-- STANDBY completes: releases over or 1 ms passed; the open page is sealed; clocks and VPAIRn stop; the commands that have
waited follow. -/
def standbyComplete (d : Dev) : Dev :=
  match d.start.waitFrom with
  | none => d
  | some t =>
    if d.mode != modeStandby || !(d.releasesOver || d.elapsed t msTicks) then d
    else
      let d := if d.nvs.opened.isEmpty then d else d.sealPage 0
      Dev.carryWaiting d.start.waiting
        { d with start := { d.start with waitFrom := none, waiting := [], clocksOff := true } }.stopPairs

/-- The number of a wake source in WAKESRC. -/
def wakeNumber : WakeBy → Nat
  | .eth => 1
  | .can k => 2 + k
  | .timer => 6

/-- A wake source is enabled, and a timer's time has passed (R435). -/
def Dev.wakeEnabled (d : Dev) (w : WakeBy) : Bool :=
  match w with
  | .eth => d.on SYSCTL_WAKE_ETH
  | .can k => (d.fld SYSCTL_WAKE_CAN).testBit k
  | .timer =>
    let s := d.fld SYSCTL_WAKE_TMR
    s != 0 && (match d.start.standbyAt with | some t => d.elapsed t (s * 1000 * msTicks) | none => false)

/-- An enabled source wakes the device (R435). -/
def wakeUp (w : WakeBy) (d : Dev) : Dev :=
  if d.mode = modeStandby && d.wakeEnabled w then (d.setFld SYSCTL_WAKESRC_SRC (wakeNumber w)).deviceReset trigWake else d

/-- A wake-up pattern on CAN controller `k` (R435). -/
def canWake (k : Fin 4) (d : Dev) : Dev :=
  if d.mode = modeStandby && d.on (CANXL_CFG_EN k) then wakeUp (.can k) (d.flag (CANXL_ISTAT_WAKE k)) else d

/-! ### The commands -/

/-- RUN (R423). -/
def execRun (src : CmdSrc) (s : State) : Host.Outcome State Fault Refusal := s.onDev (fun d => d.issueCommand src 0x01 0)

/-- SAFE_STOP (R417). -/
def execSafeStop (src : CmdSrc) (s : State) : Host.Outcome State Fault Refusal :=
  s.onDev (fun d => d.issueCommand src 0x02 0)

/-- STANDBY (R434). -/
def execStandby (src : CmdSrc) (s : State) : Host.Outcome State Fault Refusal :=
  s.onDev (fun d => d.issueCommand src 0x03 0)

/-- STANDBY_COMPLETION (R434). -/
def execStandbyCompletion (s : State) : Host.Outcome State Fault Refusal := s.onDev standbyComplete

/-- ENTER_CONFIG (R421). -/
def execEnterConfig (src : CmdSrc) (s : State) : Host.Outcome State Fault Refusal :=
  s.onDev (fun d => d.issueCommand src 0x04 0)

/-- MAKER_TEST (R421). -/
def execMakerTest (src : CmdSrc) (s : State) : Host.Outcome State Fault Refusal :=
  s.onDev (fun d => d.issueCommand src 0x05 0)

/-- CLEAR_FOG (R433). -/
def execClearFog (src : CmdSrc) (s : State) : Host.Outcome State Fault Refusal :=
  s.onDev (fun d => d.issueCommand src 0x06 0)

/-- UNFENCE (R423). -/
def execUnfence (src : CmdSrc) (n : Fin 16) (s : State) : Host.Outcome State Fault Refusal :=
  s.onDev (fun d => d.issueCommand src 0x07 n)

/-- RESET (R421). -/
def execReset (src : CmdSrc) (s : State) : Host.Outcome State Fault Refusal := s.onDev (fun d => d.issueCommand src 0x08 0)

/-- UNKNOWN_COMMAND (R422): a code that the tables of R421 and R497 do not list. -/
def execUnknownCommand (src : CmdSrc) (code : BitVec 8) (s : State) : Host.Outcome State Fault Refusal :=
  s.onDev (fun d =>
    let listed := match src with
      | .register => decide (1 ≤ code.toNat) && decide (code.toNat ≤ 8)
      | .signed _ _ => signedCode code.toNat
    if listed then d else d.issueCommand .register code.toNat 0)

/-- BOOT_CONFIRM_EXPIRY (R426). -/
def execBootConfirmExpiry (s : State) : Host.Outcome State Fault Refusal := s.onDev confirmExpiry

/-- WAKE (R435). -/
def execWake (w : WakeBy) (s : State) : Host.Outcome State Fault Refusal := s.onDev (wakeUp w)

/-- CAN_WAKE_PATTERN (R435). -/
def execCanWakePattern (k : Fin 4) (s : State) : Host.Outcome State Fault Refusal := s.onDev (canWake k)

end Sys2Proof.Machine
end

