-- ==== Sys2Proof/Machine/Boot.lean ====
section
/-! DEFINITION. Boot.lean: the start-up steps S1 to S7 (R424 to R430) and the entry into FOG (R431 to R433). -/

namespace Sys2Proof.Machine

/-! ### S3: the journal and what it restores (R520, R412, R397, R485, R487, R500, R503, R445) -/

/-- Both areas are erased, and the engine formats area 0 with generation 1 and an empty SUMMARY (R520 step 1). -/
def Dev.formatJournal (d : Dev) : Dev :=
  let n := d.nvs
  if n.area0.pages = 0 && n.area1.pages = 0 then
    { d with nvs := { n with
      area0 := { n.area0 with gen := 1, pages := 1,
                              entries := [{ seq := n.nextSeq, type := 1, time := d.islandTime, args := d.persist.summary }] }
      active := false, nextSeq := n.nextSeq + 1 } }
  else d

/-- The registers and states that the journal restores (R424 S3). -/
def Dev.restoreRetained (d : Dev) : Dev :=
  let p := d.persist
  let d := (d.setFld SYSCTL_BOOTCFG_CONFIRM p.bootConfirm).setWord 0x0E0000 (BitVec.ofNat 32 p.ethAddr)
  let d := (List.range 16).foldl (fun d n =>
    let st := arrGet 0 p.pairState n
    let d := if st = stFenced || st = stRetired then d.setPairState n st else d
    let s := arrGet 48 p.pairStep n
    (d.setPair n { d.pair n with step := s }).setFld (AGEING_PAIR_STEP n) s) d
  d.showSlots

/-- The journal's own record of how the last run ended: the mode change, an unconfirmed attempt, Keeper's evidence, a kept
cause, a grant (R419, R426, R412, R397, R506). -/
def Dev.journalPast (d : Dev) : Dev :=
  let d := d.journal 0x11 [d.fld SYSCTL_STAT_PREV, modeBoot, d.start.trig]
  let d := match d.persist.attempt with
    | some b => d.failStart b 5
    | none => d
  let d :=
    if d.on KEEPER_EVSTAT_VALID && !(d.on KEEPER_EVSTAT_JNL) then
      (d.journal 0x14 d.evidenceArgs).flag KEEPER_EVSTAT_JNL
    else d
  let d := match d.island.keptCause with
    | some c => { d with island := { d.island with keptCause := none } }.journal 0x16 [c.1, c.2]
    | none => d
  if d.trust.grantLost then { d with trust := { d.trust with grantLost := false } }.journal 0x39 [0] else d

/-- Trust at S3: an open transition finished, the erasures of R487, the anchor, the next attestation block. -/
def Dev.trustStart (d : Dev) : Dev :=
  let d := match d.persist.intent with
    | some s =>
      let d := { d with trust := d.trust.blowTo s }.lifecycleEffects s
      ({ d with persist := { d.persist with intent := none } }).journal 0x32 [s]
    | none => d
  let d := (d.lifecycleEffects d.lcs).blowAnchor
  let b := max d.persist.attBlock (2 ^ 20 * d.trust.attAnchor)
  { d with trust := { d.trust with attNext := 1024 * b, attEnd := 1024 * b } }

/-- The transport epoch of this start (R445). -/
def Dev.nextEpoch (d : Dev) : Dev :=
  let e := (d.persist.epoch + 1) % 2 ^ 24
  { d with persist := { d.persist with epoch := e } }.journal 0x25 [e]

/-- Steps S1 to S3, the journal being mountable. CLK_ISL moves to the PLL at S2 (R386). -/
def Dev.stepsToS3 (d : Dev) : Dev :=
  let d := { d with island := { d.island with kosc := false }, nvs := { d.nvs with verifyFrom := some d.ticks } }
  d.formatJournal.restoreRetained.journalPast.trustStart.nextEpoch

/-! ### S6: the margin planner (R541 to R544) -/

/-- A pair out of use in retention and the journal. -/
def Dev.retire (d : Dev) (p : Nat) : Dev :=
  let d := d.setPairState p stRetired
  { d with persist := { d.persist with pairState := arrSet 0 d.persist.pairState p stRetired } }.journal 0x26 [p, stRetired]

/-- The highest step that a pair may take: its monitors allow `s` and below, and its step never rises (R541). -/
def planStep (present : Nat) (s : Option Nat) : Option Nat :=
  match s with
  | some s => if s < 36 then none else some (min present s)
  | none => none

/-- A change of step, journaled (R541). -/
def Dev.setStep (d : Dev) (p s : Nat) : Dev :=
  let d := d.setFld (AGEING_PAIR_STEP p) s
  { d with persist := { d.persist with pairStep := arrSet 48 d.persist.pairStep p s } }.journal 0x26 [p, d.pairState p, s]

/-- The plan of one pair at S6 (R541, R543): a step, or retirement. No entry of the list: its step stands. -/
def Dev.planAtStart (d : Dev) (steps : List (Option Nat)) (p : Nat) : Dev :=
  match steps[p]? with
  | none => d
  | some a =>
    if d.outOfUse p then d
    else
      match planStep (d.pair p).step a with
      | none => d.retire p
      | some s =>
        let d := if s = (d.pair p).step then d else d.setStep p s
        d.setPair p { d.pair p with step := s }

/-- The planner at S6, with the shortfalls that it finds (R544). -/
def Dev.plan (d : Dev) (steps : List (Option Nat)) : Dev :=
  let d := ((List.range 16).foldl (fun d p => d.planAtStart steps p) d).noteSlow
  (List.range 16).foldl (fun d lp => d.checkShort lp) d

/-! ### S7: loading (R429, R538) -/

/-- An unfenced pair runs the 64 slices; where one fails, it is fenced again (R249, R538). -/
def Dev.tryUnfenced (d : Dev) (fails : List Nat) (p : Nat) : Dev :=
  if !(d.persist.unfenced.testBit p) || d.outOfUse p then d
  else
    let d := { d with persist := { d.persist with unfenced := withoutBit d.persist.unfenced p } }
    if fails.contains p then
      let d := (d.setPairState p stFenced).sliceFailed p 0
      { d with persist := { d.persist with pairState := arrSet 0 d.persist.pairState p stFenced } }.journal 0x26 [p, stFenced]
    else d

/-- Words of the NV store from an offset. -/
def NvsSt.imageWords (n : NvsSt) (off : Nat) : List Nat := (List.range 16384).map (fun w => n.num (off + 8 * w) 8)

/-- Physical pair `p` loaded as logical pair `lp` in state `st` (R429): VPAIRn, images, checkpoint 0, the comparator
self-test. -/
def Dev.loadPair (d : Dev) (p lp st entry : Nat) (im dm : List Nat) (lgFail : Nat) : Dev :=
  let core : Core := { pc := entry % 4096, imem := ramImage im, dmem := ramImage dm }
  let x := (d.pair p).cleared
  let lim := d.fld (PAIRCTL_SEGMAX_LIMIT p)
  let dr := d.fld (PAIRCTL_SEGMAX_DRAIN p)
  let d := (d.setPair p { x with
    lead := core, shadow := core, storeLead := core.frame, storeShadow := core.frame, vmv := vMax x.step
    isafeMax := d.fld (INTC_ISAFEMAX_LIMIT lp), segLimit := lim, segDrain := dr, nextLimit := lim, nextDrain := dr
    spareEn := d.on (PAIRCTL_SPARE_SPEN p), spareNum := d.fld (PAIRCTL_SPARE_SPARE p) }).setPairState p st
  let d := { d with bind := setNth d.bind lp p }.setFld (PAIRCTL_ROLE_LPAIR p) lp
  let d := d.mirrorWords lp 0 (im.map (BitVec.ofNat 64))
  let d := d.mirrorWords lp 0x20000 (dm.map (BitVec.ofNat 64))
  let s : Slot := { ckNum := 0, sig := core.signature core, lpair := lp, step := x.step, applied := true, valid := true
                    frame := core.frame }
  (d.writeSlot lp false s).selfTest p lgFail

/-- The role, entry bundle and payload offsets of entry `p` of a slot's load table (R498). -/
def NvsSt.loadEntry (n : NvsSt) (o p : Nat) : Nat × Nat × Nat × Nat :=
  let a := o + 128 + 16 * p
  (n.num a 4, n.num (a + 4) 4, n.num (a + 8) 4, n.num (a + 12) 4)

/-- Entry `e` of the load table loaded into physical pair `p` in state `st`. -/
def Dev.loadFrom (d : Dev) (o e p st : Nat) (cmpFails : List Nat) : Dev :=
  let (_, entry, io, dof) := d.nvs.loadEntry o e
  d.loadPair p e st entry (d.nvs.imageWords (o + 16384 + io)) (d.nvs.imageWords (o + 16384 + dof)) (nth 0 cmpFails p)

/-- Every pair that is in use is OFF until it is loaded: what STATE kept through the reset ends (R13, R429). -/
def Dev.unloadPairs (d : Dev) : Dev :=
  (List.range 16).foldl (fun d p => if d.outOfUse p then d else d.setPairState p stOff) d

/-- Each skipped ACTIVE entry takes the lowest loaded SPARE: pairs of entry and physical pair. -/
def coverSkipped : List Nat → List Nat → List (Nat × Nat)
  | e :: es, q :: qs => (e, q) :: coverSkipped es qs
  | _, _ => []

/-- S7 from a slot whose image has been verified (R429), or none where a needed logical pair cannot be bound. -/
def Dev.loadSlot (d : Dev) (o : Nat) (env : BootEnv) : Option Dev :=
  let d := (List.range 16).foldl (fun d p => d.tryUnfenced env.sliceFails p) d
  let d := d.unloadPairs
  let role (p : Nat) : Nat := (d.nvs.loadEntry o p).1
  let acts := (List.range 16).filter (fun p => role p = 1)
  let skipped := acts.filter (fun p => d.outOfUse p)
  let spares := (List.range 16).filter (fun p => role p = 2 && !(d.outOfUse p))
  if spares.length < skipped.length then none
  else
    let cover := coverSkipped skipped spares
    let d := (acts.filter (fun p => !(d.outOfUse p))).foldl (fun d p => d.loadFrom o p p stActive env.cmpFails) d
    let d := cover.foldl (fun d x => d.loadFrom o x.1 x.2 stActive env.cmpFails) d
    let d := (spares.drop skipped.length).foldl (fun d p => d.loadFrom o p p stSpare env.cmpFails) d
    some (d.setFld SYSCTL_NEED_NEED (maskOf (fun p => role p = 1) 16))

/-! ### FOG (R430 to R433) -/

/-- Words of the ROM recovery firmware's images. -/
def recoveryWords (off : Nat) : List Nat :=
  (List.range 16384).map (fun w => leNat ((List.range 8).map (fun i => Config.recoveryByte (off + 8 * w + i))))

/-- The device enters FOG with a reason; the recovery pair is the lowest one in use (R431). An unfenced pair first passes
the slices, or is fenced again (R249). -/
def Dev.enterFog (d : Dev) (env : BootEnv) (code : Nat) : Dev :=
  let d := (d.setFld SYSCTL_FOGREASON_CODE code).unloadPairs
  let d := (List.range 16).foldl (fun d p => d.tryUnfenced env.sliceFails p) d
  let d := match (List.range 16).find? (fun p => !(d.outOfUse p)) with
    | some p => d.loadPair p p stActive Config.recoveryEntry (recoveryWords 0) (recoveryWords 0x20000)
        (nth 0 env.cmpFails p)
    | none => d
  let d := d.enterMode modeFog trigStart
  { d with start := { d.start with starting := false, fogAt := d.ticks } }

/-! ### S4 to S7 (R425, R426, R428) -/

/-- The slot that the fail counts leave (R425). -/
def Persist.choose (p : Persist) : Option Bool :=
  if p.actFail < 2 then some p.actSlot else if p.altFail = 0 then some (!p.actSlot) else none

/-- S7 has ended on slot `b`: the pairs start and BOOT_CONFIRM runs. -/
def Dev.started (d : Dev) (b : Bool) : Dev :=
  let o := slotOffset b
  let n := d.nvs
  { d.setFld SYSCTL_STAT_BOOTSLOT (if b then 1 else 0) with
    start := { starting := false, s7End := some d.ticks, confirm := d.persist.bootConfirm
               imgVer := n.num (o + 8) 8, imgDigest := n.bytes (o + 24) 32, imgSvn := n.num (o + 16) 4 } }

/-- Attempts, at most `k` of them; `last` is the cause of the last failure. -/
def Dev.attempts (env : BootEnv) : Nat → Nat → Dev → Dev
  | 0, last, d => d.enterFog env last
  | k + 1, last, d =>
    match d.persist.choose with
    | none => d.enterFog env last
    | some b =>
      let d := { d with persist := { d.persist with attempt := some b } }.journal 0x20 [if b then 1 else 0]
      let (cause, d) := d.checkSlot b
      if cause != 0 then Dev.attempts env k cause (d.failStart b cause)
      else
        let d := d.plan env.steps
        match d.loadSlot (slotOffset b) env with
        | none => Dev.attempts env k 6 (d.failStart b 6)
        | some d => d.started b

/-- Steps S1 to S7 after the release of a device reset (R424). The epoch rises at a start without a journal too, where there is
nothing to journal it in. -/
def Dev.startUp (d : Dev) (env : BootEnv) : Dev :=
  if env.journalBad then
    { d with island := { d.island with kosc := false }
             persist := { d.persist with epoch := (d.persist.epoch + 1) % 2 ^ 24 } }.enterFog env 7
  else
    let d := d.stepsToS3
    if d.lcs = lcScrapped then d.enterFog env 8 else Dev.attempts env 4 d.persist.altCause d

/-- A device reset and its start-up. A reset that another command has begun goes on with its start-up; a device held in
reset by its temperature does not start (R33). CLK_LTN runs again from the lock of the system PLL at S2 (R254). -/
def resetAndStart (env : BootEnv) (d : Dev) : Dev :=
  let d :=
    if d.island.resetAfterSeal then d.deviceReset d.island.resetTrig
    else if d.start.starting && d.mode = modeBoot then d else d.deviceReset trigBare
  if d.held then d
  else
    let d := d.startUp env
    { d with lantern := { d.lantern with lt := d.lantern.lt + env.lanternLt } }

/-- DEVICE_RESET (R424). -/
def execDeviceReset (env : BootEnv) (s : State) : Host.Outcome State Fault Refusal := s.onDev (resetAndStart env)

end Sys2Proof.Machine
end

