-- ==== Sys2Proof/Machine/Lantern.lean ====
section
/-! DEFINITION. Lantern.lean: the timebases, their samples, holds and losses (R252 to R266), crossings, comparators and gate
detectors (R267 to R276). -/

namespace Sys2Proof.Machine

/-! ### Timebases -/

/-- A timebase. -/
def Dev.tb (d : Dev) (t : Nat) : Timebase := arrGet {} d.lantern.tbs t

/-- The device with a timebase at `x`. -/
def Dev.setTb (d : Dev) (t : Nat) (x : Timebase) : Dev :=
  { d with lantern := { d.lantern with tbs := arrSet {} d.lantern.tbs t x } }

/-- CFG.EN and CFG.SRC of a timebase. -/
def Dev.tbOn (d : Dev) (t : Nat) : Bool := d.on (LANTERN_TBCFG_EN t)
def Dev.tbSrc (d : Dev) (t : Nat) : Nat := d.fld (LANTERN_TBCFG_SRC t)

/-- P as a number. -/
def Timebase.pos (x : Timebase) : Nat := x.p.toNat

/-- VEL as a number with its sign. -/
def Timebase.v (x : Timebase) : Int := sext 32 x.vel.toNat

/-- P advanced by a signed amount, modulo 2^64. -/
def posAdd (p : Nat) (d : Int) : Nat := wrap 64 ((p : Int) + d)

/-- A position as P holds it. -/
def toPos (n : Nat) : DWord := BitVec.ofNat 64 n

/-- One turn, and half of one, in units of P. -/
def turn : Nat := 2 ^ 48
def halfTurn : Int := 2 ^ 47

/-- STAT.VALID (R264): a free-running timebase is valid while it is enabled. -/
def Dev.tbValid (d : Dev) (t : Nat) : Bool := if d.tbSrc t = 0 then d.tbOn t else (d.tb t).valid

/-- The moves of the timebase are searched for crossings: a mains timebase must have locked since it was enabled (R266). -/
def Dev.tbDetects (d : Dev) (t : Nat) : Bool := d.tbSrc t != 2 || (d.tb t).everLocked

/-! ### Steps (R259 to R262) -/

/-- What a step does to a timebase. -/
inductive StepRow where
  | jump
  | hold
  | move
deriving DecidableEq, Repr

/-- Rows 2 to 4 of R259 for a step `d`. -/
def stepRow (v d : Int) (single : Bool) (hyst : Nat) : StepRow :=
  if halfTurn < d || d < -halfTurn || (single && d = -halfTurn) then .jump
  else if d != 0 && v != 0 && decide (d < 0) != decide (v < 0) && decide (d.natAbs ≤ hyst * 65536) then .hold
  else .move

/-- The groups with an angle carrier on the timebase note its jump (ISTAT.TBJ). -/
def Dev.carriersJump (d : Dev) (t : Nat) : Dev :=
  (List.range 12).foldl (fun d g =>
    if d.on (PWM_CFG_EN g) && (d.group g).act.carr && (d.group g).act.tb = t then d.flag (PWM_ISTAT_TBJ g) else d) d

/-- The flags of a jump (R260). -/
def Dev.jumped (d : Dev) (t : Nat) : Dev :=
  (d.setBitOf LANTERN_ISTAT_JUMP t).carriersJump t |>.present fiLtnJump t

/-- The timebase after a step to target `tgt` from `from_`, under its row; a hold keeps P where the step found it. -/
def Dev.stepTb (d : Dev) (t : Nat) (x : Timebase) (from_ tgt : Nat) (row : StepRow) : Dev :=
  match row with
  | .jump => (d.setTb t { x with p := toPos tgt, moved := false, held := none, velFresh := true }).jumped t
  | .hold => d.setTb t { x with p := toPos from_, moved := false, held := some (toPos tgt) }
  | .move => d.setTb t { x with p := toPos tgt, moved := true, held := none }

/-! ### Samples (R255 to R258) -/

/-- The scaled position of a sample (R256). -/
def Dev.scaled (d : Dev) (t : Nat) (s : Sample) : Nat :=
  let rev := if s.revOk then s.rev % 65536 else 0
  (d.fld (LANTERN_TBCFG_POLES t) * (s.angle % turn + rev * turn) + d.fld (LANTERN_TBOFFSET_OFFSET t) * 65536) % 2 ^ 64

/-- The difference of two positions, for a single-turn sample reduced to half a turn (R258). -/
def posDiff (single : Bool) (a b : Nat) : Int :=
  let x := wrap 64 ((a : Int) - b)
  if single then sext 48 x else sext 64 x

/-- VEL after a sample (R258 steps 1 and 2). -/
def newVel (x : Timebase) (ps ts : Nat) (single : Bool) (vsh : Nat) : Int :=
  match x.prev with
  | none => x.v
  | some (pp, tp) =>
    let v := satInt 32 ((posDiff single ps pp * 16).tdiv ((ts : Int) - tp))
    if x.velFresh then v else x.v + (v - x.v) >>> vsh

/-- The position that a sample predicts for lt `L` (R258 step 3). -/
def predicted (ps : Nat) (v : Int) (L ts : Nat) : Nat := posAdd ps ((v * (16 * (L : Int) - ts)).tdiv 16)

/-- A step that is at most `lim` beyond the timebase's advance. -/
def slewed (v d lim : Int) : Int := if d < v - lim then v - lim else if v + lim < d then v + lim else d

/-- How far a step of a mains timebase may go beyond its advance: the detector's output moves by at most 2^-10 turn per
sample, which POLES scales (R256, R265). After holdover, the timebase moves by at most 2^-10 turn itself until it has
reached the detector's output (R266). -/
def Dev.slewLimit (d : Dev) (t : Nat) : Int :=
  if (d.tb t).returning then 2 ^ 38 else d.fld (LANTERN_TBCFG_POLES t) * 2 ^ 38

/-- A sample is taken in the present lt (R258, R259). The step starts from the position at the end of the lt before. -/
def Dev.takeSample (d : Dev) (t : Nat) (s : Sample) : Dev :=
  let x := d.tb t
  let L := d.lantern.lt
  let ps := d.scaled t s
  let single := !s.revOk
  let x := { x with waiting := none, conv := none }
  match x.prev with
  | none =>
    let ts := predicted ps x.v L s.time
    d.setTb t { x with p := toPos ts, moved := false, held := none, prev := some (ps, s.time), velFresh := true
                       valid := true, lossTold := false, lastTaken := some L, lastValid := L }
  | some (_, tp) =>
    if s.time ≤ tp then d.setTb t x
    else
      let v := newVel x ps s.time single (d.fld (LANTERN_TBCFG_VSH t))
      let from_ := x.p0.toNat
      let raw := posDiff single (predicted ps v L s.time) from_
      let step := if d.tbSrc t = 2 then slewed v raw (d.slewLimit t) else raw
      let x := { x with returning := x.returning && decide (step != raw), vel := BitVec.ofInt 32 v, velFresh := false, prev := some (ps, s.time), valid := true
                        lossTold := false, lastTaken := some L, lastValid := L }
      d.stepTb t x from_ (posAdd from_ step) (stepRow v step single (d.fld (LANTERN_TBHYST_HYST t)))

/-- The sample that waits at a timebase: from its interface or line, or the detector's output at a conversion. -/
def Dev.sampleOf (d : Dev) (t : Nat) (det : MainsOut) : Option Sample :=
  let x := d.tb t
  if d.tbSrc t = 2 then x.conv.map (fun c => { angle := det.angle.toNat * 65536, rev := 0, revOk := false, time := c.2 })
  else if d.tbSrc t = 0 then none
  else x.waiting

/-- A nominal cycle of a mains timebase in Lantern time: NOM is in units of 0.01 Hz (R265). -/
def Dev.nomCycle (d : Dev) (t : Nat) : Nat := 960000000000 / d.fld (LANTERN_TBMAINS_NOM t)

/-- A detector's frequency lies within ±10 % of NOM (R265). -/
def Dev.nearNom (d : Dev) (t : Nat) (det : MainsOut) : Bool :=
  let nom : Int := d.fld (LANTERN_TBMAINS_NOM t) * 2 ^ 48
  decide ((det.vel.toInt * 60000000000 - nom).natAbs * 10 ≤ nom.natAbs)

/-- The channel has delivered fewer than 200 conversions in the last nominal cycle (R265). -/
def Dev.starved (d : Dev) (t : Nat) : Bool :=
  match (d.tb t).convTimes[199]? with
  | some x => decide (x + d.nomCycle t < d.lanternTime)
  | none => true

/-- A mains timebase after its detector's output at a conversion: the conditions of R265 that it meets. -/
def Dev.noteDetector (d : Dev) (t : Nat) (det : MainsOut) (time : Nat) : Timebase :=
  let x := d.tb t
  let near := d.nearNom t det
  let err := det.err.toInt.natAbs
  { x with
    goodSince := if near && decide (err < 2 ^ 24) then some (x.goodSince.getD time) else none
    badSince := if 2 ^ 27 < err then some (x.badSince.getD time) else none
    offFreq := !near, lockVel := if near then det.vel.toInt else x.lockVel }

/-- A timebase takes the sample that waits, at most one every 8 lt (R257). In holdover the detector's output is left
aside (R266). -/
def timebaseSample (t : Nat) (det : MainsOut) (d : Dev) : Dev :=
  let x := d.tb t
  let free := match x.lastTaken with | some l => decide (l + 8 ≤ d.lantern.lt) | none => true
  if !(d.tbOn t) || !free then d
  else
    match d.sampleOf t det with
    | none => d
    | some s =>
      let d := if d.tbSrc t = 2 then d.setTb t (d.noteDetector t det s.time) else d
      let x := d.tb t
      if x.holdover then d.setTb t { x with conv := none } else d.takeSample t s

/-- A sample reaches every enabled timebase that selects its source; an earlier one not yet taken is replaced (R257). -/
def Dev.offerSample (d : Dev) (src sel : Nat) (s : Sample) : Dev :=
  (List.range 16).foldl (fun d t =>
    if d.tbOn t && d.tbSrc t = src && d.fld (LANTERN_TBCFG_SEL t) = sel then d.setTb t { d.tb t with waiting := some s }
    else d) d

/-- A conversion of ADC channel `ch` reaches every enabled timebase whose detector selects it (R265). -/
def Dev.offerConversion (d : Dev) (ch code time : Nat) : Dev :=
  (List.range 16).foldl (fun d t =>
    if d.tbOn t && d.tbSrc t = 2 && d.fld (LANTERN_TBCFG_SEL t) = ch then
      d.setTb t { d.tb t with conv := some (code, time), convTimes := time :: (d.tb t).convTimes.take 199 }
    else d) d

/-- A write to LTIMEHI delivers the line sample (R257). -/
def lineSample (t hi : Nat) (d : Dev) : Dev :=
  if d.tbOn t && d.tbSrc t = 3 then
    let smp : Sample :=
      { angle := d.fld (LANTERN_TBLPOSA_ANGLE t) * 65536, rev := d.fld (LANTERN_TBLPOSR_REV t)
        revOk := d.on (LANTERN_TBLPOSR_REVOK t), time := d.fld (LANTERN_TBLTIMELO_TIME t) + hi % 2 ^ 32 * 2 ^ 32 }
    d.setTb t { d.tb t with waiting := some smp }
  else d

/-- A write to ADJ is summed; on a disabled timebase it is discarded (R262, R264). -/
def adjWrite (t v : Nat) (d : Dev) : Dev :=
  if d.tbOn t then
    let x := d.tb t
    d.setTb t { x with adj := x.adj + sext 32 v, adjAny := true }
  else d

/-- The held position resumes once the advancing target has reached or passed it in the direction of VEL (R261). -/
def holdResume (t : Nat) (d : Dev) : Dev :=
  let x := d.tb t
  match x.held with
  | none => d
  | some T =>
    let gap := posDiff false T.toNat x.pos
    if d.tbOn t && ((0 < x.v && 0 ≤ gap) || (x.v < 0 && gap ≤ 0)) then
      d.setTb t { x with p := T, held := none, moved := true }
    else d

/-! ### Enabling (R264) -/

/-- A timebase that begins or is stopped: no sample, hold, lock or shift of before counts, but for the lt in which it last
took a sample (R257). -/
def Timebase.fresh (x : Timebase) (lt : Nat) : Timebase :=
  { x with prev := none, velFresh := true, held := none, valid := false, locked := false, everLocked := false
           holdover := false, lastValid := lt, lossTold := false, waiting := none, adj := 0, adjAny := false, conv := none
           lockVel := 0, moved := false, convTimes := [], goodSince := none, badSince := none, offFreq := false
           returning := false }

/-- A timebase restarted, as if EN were written 0 and then 1. -/
def Dev.restartTb (d : Dev) (t : Nat) : Dev := d.setTb t ((d.tb t).fresh d.lantern.lt)

/-- A group is forced while its angle carrier's timebase is off (R290). -/
def Dev.tbStopped (d : Dev) (g : Nat) : Bool :=
  let a := (d.group g).act
  d.on (PWM_CFG_EN g) && a.carr && !(d.tbOn a.tb)

/-- The highest SEL of a source (R255). -/
def selTop (src : Nat) : Nat := if src = 1 then 11 else if src = 2 then 23 else 31

/-- A write of TBt.CFG (R255, R264). -/
def timebaseWrite (t : Nat) (w : Word) (d : Dev) : Dev :=
  let a := 0x070100 + 0x40 * t
  let key (d : Dev) : Nat × Nat × Nat := (d.tbSrc t, d.fld (LANTERN_TBCFG_SEL t), d.fld (LANTERN_TBCFG_POLES t))
  let was := d.tbOn t
  let old := key d
  let d := d.storeReg a w
  let d := if selTop (d.tbSrc t) < d.fld (LANTERN_TBCFG_SEL t) then d.setFld (LANTERN_TBCFG_SEL t) 0 else d
  let d := if was != d.tbOn t || (was && old != key d) then d.restartTb t else d
  (List.range 12).foldl (fun d g => if d.tbStopped g then d.forceGroup g else d) d

/-! ### Losses and locks (R263, R265, R266) -/

/-- The timebase's LOSS flag and fault input. -/
def Dev.lossTold (d : Dev) (t : Nat) : Dev := (d.setBitOf LANTERN_ISTAT_LOSS t).present fiLtnLoss t

/-- No valid sample for STALE µs (R263). -/
def sourceLost (t : Nat) (d : Dev) : Dev :=
  let x := d.tb t
  let st := d.fld (LANTERN_TBCFG_STALE t)
  if d.tbOn t && d.tbSrc t != 0 && st != 0 && !x.lossTold && decide (x.lastValid + 600 * st ≤ d.lantern.lt) then
    (d.setTb t { x with valid := false, lossTold := true }).lossTold t
  else d

/-- The phase error has stayed below 2^-8 turn for four cycles with the frequency within ±10 % of NOM. DESIGN CHOICE: a
cycle counted is one of NOM. -/
def Dev.mayLock (d : Dev) (t : Nat) : Bool :=
  match (d.tb t).goodSince with
  | some g => decide (g + 4 * d.nomCycle t ≤ d.lanternTime)
  | none => false

/-- The error has exceeded 2^-5 turn for two cycles, the frequency has left ±10 % of NOM, or conversions are too few. -/
def Dev.mustUnlock (d : Dev) (t : Nat) : Bool :=
  let x := d.tb t
  let bad := match x.badSince with | some b => decide (b + 2 * d.nomCycle t ≤ d.lanternTime) | none => false
  bad || x.offFreq || d.starved t

/-- The detector has locked (R265, R266). -/
def mainsLock (t : Nat) (d : Dev) : Dev :=
  let x := d.tb t
  if d.tbOn t && d.tbSrc t = 2 && !x.locked && d.mayLock t then
    d.setTb t { x with locked := true, everLocked := true, holdover := false, returning := x.holdover }
  else d

/-- A locked mains timebase loses lock (R266): it extrapolates at the last locked frequency. -/
def mainsLost (t : Nat) (d : Dev) : Dev :=
  let x := d.tb t
  if d.tbOn t && d.tbSrc t = 2 && x.locked && d.mustUnlock t then
    let v := satInt 32 (x.lockVel * d.fld (LANTERN_TBCFG_POLES t))
    (d.setTb t { x with locked := false, holdover := true, vel := BitVec.ofInt 32 v }).lossTold t
  else d

/-! ### One lt (R253, R261, R262) -/

/-- A timebase in the next lt: its advance, then the summed ADJ as one step. -/
def Dev.tickTb (d : Dev) (t : Nat) : Dev :=
  let x := { d.tb t with q0 := (d.tb t).p0, qMoved := (d.tb t).moved }
  if !(d.tbOn t) then d.setTb t { x with p0 := x.p, moved := false, adj := 0, adjAny := false }
  else
    let x := if d.tbSrc t = 0 then { x with vel := BitVec.ofNat 32 (d.fld (LANTERN_TBFREQ_FREQ t)) } else x
    let from_ := x.pos
    let pn := if x.held.isSome then from_ else posAdd from_ x.v
    let x := { x with p0 := x.p, p := toPos pn, moved := x.held.isNone
                      held := x.held.map (fun (T : DWord) => toPos (posAdd T.toNat x.v)) }
    if x.adjAny then
      let step := sext 48 (wrap 64 (x.adj * 65536))
      let x := { x with adj := 0, adjAny := false }
      d.stepTb t x from_ (posAdd pn step) (stepRow x.v step true (d.fld (LANTERN_TBHYST_HYST t)))
    else d.setTb t x

/-- Lantern in the next lt. -/
def Dev.tickLantern (d : Dev) : Dev :=
  let d := { d with lantern := { d.lantern with lt := d.lantern.lt + 1 } }
  (List.range 16).foldl (fun d t => if d.tbOn t || (d.tb t).moved || (d.tb t).qMoved then d.tickTb t else d) d

/-! ### Crossings (R267 to R269) -/

/-- A crossing in the present lt: the distance from P0 and the length of the move. -/
structure Crossing where
  x : Nat
  r : Nat
  up : Bool
deriving DecidableEq, Repr

/-- The crossing of an angle in the present lt's move of a timebase (R267). -/
def Dev.crossing (d : Dev) (t angle : Nat) : Option Crossing :=
  let x := d.tb t
  let move := posDiff false x.pos x.p0.toNat
  if !(d.tbOn t) || !x.moved || !(d.tbDetects t) || move = 0 then none
  else
    let up := decide (0 < move)
    let a := angle * 65536
    let p0 := x.p0.toNat % turn
    let dist := if up then (a + 2 * turn - p0 - 1) % turn + 1 else (p0 + 2 * turn - a - 1) % turn + 1
    if dist ≤ move.natAbs then some { x := dist, r := move.natAbs, up := up } else none

/-- The stamp of a crossing in lt `L` (R268). -/
def Crossing.stamp (c : Crossing) (L : Nat) : Nat := 16 * (L - 1) + (16 * c.x + c.r - 1) / c.r

/-! ### Comparators (R270 to R272) -/

/-- The lt in which a comparator was enabled, re-targeted or last fired. -/
def Dev.cmpSince (d : Dev) (c : Nat) : Nat := arrGet 0 d.lantern.cmpSince c

/-- A comparator's target as its registers have it. -/
def Dev.cmpNow (d : Dev) (c : Nat) : CmpTarget :=
  { tb := d.fld (LANTERN_CMPCFG_TB c), dir := d.fld (LANTERN_CMPCFG_DIR c), periodic := d.on (LANTERN_CMPCFG_MODE c)
    angle := d.fld (LANTERN_CMPANGLE_ANGLE c), period := d.fld (LANTERN_CMPPERIOD_PERIOD c)
    en := d.on (LANTERN_CMPCFG_EN c), since := d.cmpSince c }

/-- The target that a comparator had before the present lt's writes, where they met it enabled (R272). -/
def Dev.cmpBefore (d : Dev) (c : Nat) : Option CmpOld :=
  d.lantern.cmpOld.find? (fun o => o.c = c && o.lt = d.lantern.lt)

/-- The device with a comparator armed in the present lt (R269). -/
def Dev.armCmp (d : Dev) (c : Nat) : Dev :=
  { d with lantern := { d.lantern with cmpSince := arrSet 0 d.lantern.cmpSince c d.lantern.lt } }

/-- How many steps of PERIOD a periodic comparator takes to lie beyond P1 (R271). -/
def periodSteps (period : Nat) (x : Crossing) : Nat := if period = 0 then 1 else 1 + (x.r - x.x) / (period * 65536)

/-- A comparator after the crossing of its target (R271): off, or moved on. A register that was written in the same lt keeps
what was written (R272). -/
def Dev.cmpAfter (d : Dev) (c : Nat) (w : CmpTarget) (keepCfg keepAngle : Bool) (x : Crossing) : Dev :=
  if !w.periodic then (if keepCfg then d else d.setFld (LANTERN_CMPCFG_EN c) 0)
  else
    let n := periodSteps w.period x
    let a : Int := w.angle
    let dest : Int := if x.up then a + n * w.period else a - n * w.period
    let d := if keepAngle then d else d.setFld (LANTERN_CMPANGLE_ANGLE c) (wrap 32 dest)
    d.setFld (LANTERN_CMPSTAT_MISS c) (satAdd 255 (d.fld (LANTERN_CMPSTAT_MISS c)) (n - 1))

/-- A write to CFG, ANGLE or PERIOD of a comparator (R269, R272): the target of before is kept for a crossing of the present
lt. -/
def Dev.cmpWrite (d : Dev) (c r : Nat) (a : Nat) (w : Word) : Dev :=
  let now := d.cmpNow c
  let rest := d.lantern.cmpOld.filter (fun o => o.lt = d.lantern.lt && o.c != c)
  let kept := match d.cmpBefore c with
    | some o => [{ o with wroteCfg := o.wroteCfg || decide (r = 0), wroteAngle := o.wroteAngle || decide (r = 4) }]
    | none =>
      if now.en && decide (now.since < d.lantern.lt) then
        [{ c := c, lt := d.lantern.lt, was := now, wroteCfg := decide (r = 0), wroteAngle := decide (r = 4) }]
      else []
  let d := { d with lantern := { d.lantern with cmpOld := rest ++ kept } }
  (d.storeReg a w).armCmp c

/-- A comparator takes the crossing of the present lt (R270, R272). -/
def comparator (c : Nat) (d : Dev) : Dev :=
  let o := d.cmpBefore c
  let w := match o with | some o => o.was | none => d.cmpNow c
  let L := d.lantern.lt
  if !w.en || decide (L ≤ w.since) then d
  else
    match d.crossing w.tb w.angle with
    | none => d
    | some x =>
      if (w.dir = 0 && !x.up) || (w.dir = 1 && x.up) then d
      else
        let s := x.stamp L
        let p := (d.tb w.tb).pos
        let d := { d with lantern := { d.lantern with cmpOld := d.lantern.cmpOld.filter (fun o => o.c != c) } }
        let d := d.setPair64 (LANTERN_CMPSTAMPLO_STAMP c) (LANTERN_CMPSTAMPHI_STAMP c) s
        let d := (d.setFld (LANTERN_CMPSTAMPPOS_POS c) (p / 65536)).setFld (LANTERN_CMPSTAT_REV c) (p / turn)
        let d := (d.flag (LANTERN_CMPSTAT_FIRED c)).cmpAfter c w
          ((o.map (·.wroteCfg)).getD false) ((o.map (·.wroteAngle)).getD false) x
        (d.armCmp c).produce { prod := c, stamp := some s }

/-! ### Gate detectors (R273, R274) -/

/-- Detector `k` of physical pair `n` takes its crossing and sends the release to the pair's capture stage. -/
def gateRelease (n k : Nat) (d : Dev) : Dev :=
  let g := arrGet ({} : Detector) d.lantern.dets (8 * n + k)
  let L := d.lantern.lt
  if !g.armed || decide (L ≤ g.since) then d
  else
    match d.crossing g.tb g.angle with
    | none => d
    | some x =>
      if x.up = g.down then d
      else
        let d := { d with lantern := { d.lantern with
          dets := arrSet {} d.lantern.dets (8 * n + k) { g with armed := false, sent := true } } }
        d.capture n (.gate k g.gen g.tb g.angle g.down (x.stamp L))

/-! ### The commands -/

/-- TIMEBASE_SAMPLE (R258). -/
def execTimebaseSample (t : Fin 16) (det : MainsOut) (s : State) : Host.Outcome State Fault Refusal :=
  s.onClock (timebaseSample t det)

/-- HOLD_RESUME (R261). -/
def execHoldResume (t : Fin 16) (s : State) : Host.Outcome State Fault Refusal := s.onClock (holdResume t)

/-- LINE_SAMPLE_DELIVERY (R257). -/
def execLineSampleDelivery (t : Fin 16) (hi : Word) (s : State) : Host.Outcome State Fault Refusal :=
  s.onDev (lineSample t hi.toNat)

/-- ADJ (R262). -/
def execAdj (t : Fin 16) (v : Word) (s : State) : Host.Outcome State Fault Refusal := s.onDev (adjWrite t v.toNat)

/-- TIMEBASE_ENABLE (R264). -/
def execTimebaseEnable (t : Fin 16) (w : Word) (s : State) : Host.Outcome State Fault Refusal :=
  s.onDev (timebaseWrite t w)

/-- LTN_LOSS (R263). -/
def execLtnLoss (t : Fin 16) (s : State) : Host.Outcome State Fault Refusal := s.onClock (sourceLost t)

/-- MAINS_LOCK (R265, R266). -/
def execMainsLock (t : Fin 16) (s : State) : Host.Outcome State Fault Refusal := s.onClock (mainsLock t)

/-- HOLDOVER (R266). -/
def execHoldover (t : Fin 16) (s : State) : Host.Outcome State Fault Refusal := s.onClock (mainsLost t)

/-- COMPARATOR_CROSSING (R270). -/
def execComparatorCrossing (c : Fin 256) (s : State) : Host.Outcome State Fault Refusal := s.onClock (comparator c)

/-- GATE_RELEASE (R274). -/
def execGateRelease (n : Fin 16) (k : Fin 8) (s : State) : Host.Outcome State Fault Refusal := s.onClock (gateRelease n k)

end Sys2Proof.Machine
end

