-- ==== Sys2Proof/Machine/Drive.lean ====
section
/-! DEFINITION. Drive.lean: the drive I/O blocks (chapter 9): PWM groups, sigma-delta filters, SAR converters and position
interfaces. -/

namespace Sys2Proof.Machine

/-- FOG keeps the EN bits of the drive I/O blocks, the Buoy ports and the CAN controllers at 0 (R429). -/
def Dev.mayEnable (d : Dev) : Bool := d.mode != modeFog

/-- A CFG word with its EN, bit 31, cut where EN may not be set. -/
def Dev.maskEn (d : Dev) (w : Word) : Word := if d.mayEnable then w else w &&& 0x7FFFFFFF

/-! ### PWM: causes of forcing (R290) -/

/-- STAT.CAUSE. -/
def Dev.forceCauses (d : Dev) (g : Nat) : Nat :=
  packFields [(d.fld SAFEISL_STAT_FORCE, 0, 1), (if (d.group g).trip then 1 else 0, 1, 1),
    (d.fld (PWM_CTL_FORCE g), 2, 1), (if d.tbStopped g then 1 else 0, 3, 1)]

/-- The group goes to its safe levels while a cause holds. -/
def Dev.checkForce (d : Dev) (g : Nat) : Dev := if d.forceCauses g = 0 then d else d.forceGroup g

/-! ### PWM: references and outputs (R278 to R284) -/

/-- The shadow set of a group. -/
def Dev.shadowSet (d : Dev) (g : Nat) : ActiveSet :=
  { carr := d.on (PWM_CFG_CARR g), shape := d.on (PWM_CFG_SHAPE g), indep := d.fld (PWM_CFG_INDEP g)
    tb := d.fld (PWM_CFG_TB g), div := d.fld (PWM_CFG_DIV g), period := d.fld (PWM_PERIOD_PERIOD g)
    phase := d.fld (PWM_PHASE_PHASE g), dtl := d.fld (PWM_DT_DTL g), dth := d.fld (PWM_DT_DTH g)
    cmpA := (List.range 3).map (fun c => d.fld (PWM_CMPA_CMP g c))
    cmpB := (List.range 3).map (fun c => d.fld (PWM_CMPB_CMP g c)) }

/-- A reference at carrier position `k` (R281). -/
def pwmRef (a : ActiveSet) (cmp k : Nat) : Bool :=
  if a.shape then decide (k < (cmp + 1) / 2) || decide (a.period - cmp / 2 ≤ k) else decide (k < cmp)

/-- The reference that output `j` follows (R278). -/
def outRef (a : ActiveSet) (k j : Nat) : Bool :=
  let c := j / 2
  let rA := pwmRef a (nth 0 a.cmpA c) k
  if j % 2 = 0 then rA else if a.indep.testBit c then pwmRef a (nth 0 a.cmpB c) k else !rA

/-- The delay of output `j`'s rising edges in edge steps (R282). -/
def outDelay (a : ActiveSet) (j : Nat) : Nat :=
  if a.indep.testBit (j / 2) then 0 else if j % 2 = 0 then a.dth else a.dtl

/-- Each output's steps since its reference rose, 0 while it is low, after one edge step. The count stops above every
delay. -/
def riseStep (a : ActiveSet) (k : Nat) (rise : List Nat) : List Nat :=
  (List.range 6).map (fun j => if outRef a k j then satInc 0x20000 (nth 0 rise j) else 0)

/-- One edge step of the outputs from the mask of those that are high: an output rises once its delay has elapsed, stays
high while its reference does, and falls with it. -/
def outStep (a : ActiveSet) (k : Nat) (x : List Nat × Nat) : List Nat × Nat :=
  let rise := riseStep a k x.1
  (rise, maskOf (fun j => outRef a k j && (x.2.testBit j || decide (outDelay a j < nth 0 rise j))) 6)

/-- The position of an angle carrier, not reduced to one period, at position `p` in P units (R279). -/
def angleCount (a : ActiveSet) (p : Int) : Int := (a.period * (a.div * p + a.phase * 65536)) / 2 ^ 48

/-- The position of an angle carrier, not reduced to one period, after `i` of the 16 edge steps of an lt in which P went from
`p0` to `p` (R268, R279). -/
def angleAt (a : ActiveSet) (moved : Bool) (p0 p : DWord) (i : Nat) : Int :=
  if moved then
    let m := posDiff false p.toNat p0.toNat
    let q := (i * m.natAbs) / 16
    angleCount a ((p0.toNat : Int) + (if m < 0 then -(q : Int) else q))
  else angleCount a p.toNat

/-- The same in lt `M`, which is the present one or the one before. -/
def Dev.angleIn (d : Dev) (a : ActiveSet) (M i : Nat) : Int :=
  let x := d.tb a.tb
  if M = d.lantern.lt then angleAt a x.moved x.p0 x.p i else angleAt a x.qMoved x.q0 x.p0 i

/-- The carrier position, not reduced to one period, after `i` of the 16 edge steps of the present lt. -/
def Dev.carrierAt (d : Dev) (g i : Nat) : Int :=
  let G := d.group g
  if G.act.carr then d.angleIn G.act d.lantern.lt i else (G.k : Int) + i

/-- The edge step of the present lt in which the carrier passes `h` modulo its period in either direction (R280). -/
def Dev.passes (d : Dev) (g : Nat) (h : Nat) : Option Nat :=
  let per : Int := (d.group g).act.period
  ((List.range 16).find? (fun i => (d.carrierAt g i - h) / per != (d.carrierAt g (i + 1) - h) / per)).map (· + 1)

/-- A running carrier through lt `M`: its positions step by step, and a valley or a peak (R279, R280). No lt holds more than
one of these. -/
def Dev.passLt (d : Dev) (g M : Nat) : Dev :=
  let G := d.group g
  let a := G.act
  let v := d.passes g 0
  let p := if a.shape then d.passes g (a.period / 2) else none
  let valley := match v, p with | some x, some y => decide (x ≤ y) | some _, none => true | _, _ => false
  let ev (x : Option Nat) : List PwmEvent := [{ lt := M, step := x.getD 0, set := G.shadow, rdy := G.rdy }]
  d.setGroup g { G with
    k := (d.carrierAt g 16 % (a.period : Int)).toNat, done := M
    todo := G.todo ++ [{ lt := M, old := a, oldKs := [], act := a
                         ks := (List.range 16).map (fun i => (d.carrierAt g (i + 1) % (a.period : Int)).toNat) }]
    valleys := if valley then G.valleys ++ ev v else G.valleys
    peaks := if p.isSome && !valley then G.peaks ++ ev p else G.peaks }

/-- An angle carrier through the lt that now ends: P holds all its moves (R279). -/
def Dev.passAngle (d : Dev) (g : Nat) : Dev :=
  let G := d.group g
  if G.running && G.act.carr && decide (G.done < d.lantern.lt) then d.passLt g d.lantern.lt else d

/-- A time carrier through the lt that now begins, and through the one before where a load has just made it one (R289). -/
def Dev.passTime (d : Dev) (g : Nat) : Dev :=
  let G := d.group g
  let L := d.lantern.lt
  if G.running && !G.act.carr && decide (G.done < L) then
    let d := if G.done + 1 < L then d.passLt g (L - 1) else d
    d.passLt g L
  else d

/-- The shadow set and RDY as a group finds them at the start of an lt (R287). -/
def Dev.noteShadow (d : Dev) (g : Nat) : Dev :=
  if (d.group g).running then
    d.setGroup g { d.group g with shadow := d.shadowSet g, rdy := d.on (PWM_CTL_RDY g) }
  else d

/-- The outputs through an lt of the carrier. -/
def PwmLt.outputs (c : PwmLt) (x : List Nat × Nat) : List Nat × Nat :=
  c.ks.foldl (fun x k => outStep c.act k x) (c.oldKs.foldl (fun x k => outStep c.old k x) x)

/-- The outputs of the lts that ended at least one lt ago, when no load can change them any more; the levels that the pins
show 4 lt after them (R284). -/
def Dev.tickOutputs (d : Dev) (g : Nat) : Dev :=
  let G := d.group g
  if !G.running then d
  else
    let ready := G.todo.takeWhile (fun c => c.lt + 2 ≤ d.lantern.lt)
    let x := ready.foldl (fun x c => c.outputs x) (G.rise, G.high)
    d.setGroup g { G with rise := x.1, high := x.2, todo := G.todo.drop ready.length, pipe := G.pipe.drop 1 ++ [x.2] }

/-- The carriers and outputs of all groups as an lt begins. -/
def Dev.tickPwm (d : Dev) : Dev :=
  (List.range 12).foldl (fun d g => ((d.noteShadow g).passTime g).tickOutputs g) d

/-- The angle carriers of all groups as an lt ends. -/
def Dev.endPwm (d : Dev) : Dev := (List.range 12).foldl Dev.passAngle d

/-- The safe level of output `j` (R292). -/
def Dev.safeLevel (d : Dev) (g j : Nat) : Nat :=
  let l (i : Nat) : Nat := bitsOf (d.fld (PWM_SAFE_SAFE g)) (2 * i) 2
  let both := l (j / 2 * 2) = 1 && l (j / 2 * 2 + 1) = 1
  if both && !((d.group g).act.indep.testBit (j / 2)) then 0 else l j

/-- The ticks from a cause of forcing to its safe-high outputs' rise: 50 ns to 100 ns (R291). Where in between is open: a free
value. -/
def safeHighAfter (g : Nat) : Nat := 30 + Config.safeHighLag g % 31

/-- The commanded levels (PIN.CMD): a high-impedance output counts as low. While the supplies fall and in a reset that holds,
the pins are low (R40, R59). -/
def Dev.pwmCmd (d : Dev) (g : Nat) : Nat :=
  let G := d.group g
  if d.held then 0
  else if G.safe then maskOf (fun j => decide (d.safeLevel g j = 1) && decide (G.forcedAt + safeHighAfter g ≤ d.ticks)) 6
  else if G.running then nth 0 G.pipe 0 else 0

/-- The levels at the pins (PIN.LVL): those of the command but for the pins that something outside holds. -/
def Dev.pwmPins (d : Dev) (g : Nat) : Nat :=
  let G := d.group g
  maskOf (fun j => if G.stuck.testBit j then G.stuckLvl.testBit j else (d.pwmCmd g).testBit j) 6

/-- The pins' samples of one lt (R294): for how many lt each has differed from its command, counted up to 121. -/
def Dev.tickPins (d : Dev) : Dev :=
  (List.range 12).foldl (fun d g =>
    let G := d.group g
    if G.stuck = 0 && G.differ.all (· = 0) then d
    else
      let off := d.pwmPins g ^^^ d.pwmCmd g
      d.setGroup g { G with
        differ := (List.range 6).map (fun j => if off.testBit j then min 121 (nth 0 G.differ j + 1) else 0) }) d

/-! ### PWM: enabling, loading, forcing -/

/-- CFG.EN changes from 0 to 1 (R285). A time carrier stands at its start through the next lt. -/
def Dev.startGroup (d : Dev) (g : Nat) : Dev :=
  let a := d.shadowSet g
  let d := (d.setFld (PWM_CFG_EN g) 1).setFld (PWM_CTL_RDY g) 0
  let d := d.setGroup g { d.group g with
    act := a, k := a.phase % a.period, running := true, done := d.lantern.lt + (if a.carr then 0 else 1), shadow := a
    rdy := false, rdyAt := none, rise := [0, 0, 0, 0, 0, 0], high := 0, todo := [], pipe := [0, 0, 0], valleys := []
    peaks := [] }
  d.checkForce g

/-- Writing 1 to CFG.EN. -/
def enableGroup (g : Nat) (d : Dev) : Dev := if d.on (PWM_CFG_EN g) || !d.mayEnable then d else d.startGroup g

/-- CFG.EN becomes 0: a group that is not forced stops; a forced one keeps its carrier until its release (R293). -/
def Dev.stopGroup (d : Dev) (g : Nat) : Dev :=
  if (d.group g).safe then d else d.setGroup g { d.group g with running := false, todo := [], pipe := [0, 0, 0] }

/-- The load event of a valley or a peak is selected (CFG.LDE). -/
def Dev.loads (d : Dev) (g : Nat) (valley : Bool) : Bool :=
  let e := d.fld (PWM_CFG_LDE g)
  if valley then e = 0 || e = 2 || !(d.group g).act.shape else e = 1 || e = 2

/-- The Lantern time of the instant of a valley or peak (R296). -/
def PwmEvent.stamp (e : PwmEvent) : Nat := 16 * (e.lt - 1) + e.step

/-- The active set after a load (R287): at a peak only the compare values are taken. -/
def loadedSet (old set : ActiveSet) (valley : Bool) : ActiveSet :=
  if valley then set else { old with cmpA := set.cmpA, cmpB := set.cmpB }

/-- The position after edge step `i` of the lt of a load, under the set loaded: a time carrier that replaces an angle carrier
counts from the event, an angle carrier takes its timebase's position (R289), a time carrier goes on from `k`. -/
def Dev.loadedPos (d : Dev) (old new : ActiveSet) (e : PwmEvent) (i k : Nat) : Nat :=
  if new.carr then (d.angleIn new e.lt i % (new.period : Int)).toNat
  else (if old.carr then i - e.step else k) % new.period

/-- The lt of a load: the edge steps from the event on run under the set loaded. -/
def Dev.cutLt (d : Dev) (old new : ActiveSet) (e : PwmEvent) (c : PwmLt) : PwmLt :=
  if c.lt = e.lt then
    { c with oldKs := c.ks.take (e.step - 1), act := new
             ks := ((List.range 16).drop (e.step - 1)).map (fun i => d.loadedPos old new e (i + 1) (nth 0 c.ks i)) }
  else c

/-- The group after a load. -/
def Dev.takeShadow (d : Dev) (g : Nat) (valley : Bool) (e : PwmEvent) : Dev :=
  let G := d.group g
  let new := loadedSet G.act e.set valley
  d.setGroup g { G with act := new, k := d.loadedPos G.act new e 16 G.k, todo := G.todo.map (d.cutLt G.act new e) }

/-- A forced group whose causes have cleared drives its active set again; every rising edge waits its delay from the event
(R293). A group with EN = 0 returns to high impedance. -/
def Dev.releaseGroup (d : Dev) (g : Nat) (e : PwmEvent) : Dev :=
  let G := d.group g
  if d.forceCauses g = 0 && G.safe then
    let todo := (G.todo.filter (fun c => decide (e.lt ≤ c.lt))).map (fun c => if c.lt = e.lt then { c with oldKs := [] } else c)
    d.setGroup g { G with
      safe := false, rise := [0, 0, 0, 0, 0, 0], high := 0, pipe := [0, 0, 0], running := d.on (PWM_CFG_EN g), todo := todo }
  else d

/-- A load event acts on the shadow set and RDY at the start of its lt; an RDY that was set in that lt counts for the next one
(R287, R293). -/
def Dev.loadEvent (d : Dev) (g : Nat) (valley : Bool) (e : PwmEvent) : Dev :=
  let ldm := d.on (PWM_CFG_LDM g)
  let again := match (d.group g).rdyAt with | some l => decide (e.lt ≤ l) | none => false
  let d :=
    if ldm && !e.rdy then (d.count (PWM_STAT_REPEAT g)).flag (PWM_ISTAT_REPEAT g)
    else
      let d := (d.takeShadow g valley e).flag (PWM_ISTAT_LOAD g)
      if ldm && !again then d.setFld (PWM_CTL_RDY g) 0 else d
  (d.releaseGroup g e).checkForce g

/-- The oldest valley passed (R280, R287, R296). -/
def carrierValley (g : Nat) (d : Dev) : Dev :=
  let G := d.group g
  match G.valleys with
  | [] => d
  | e :: rest =>
    let d := (d.setGroup g { G with valleys := rest }).produce { prod := 256 + g, stamp := some e.stamp }
    if d.loads g true then d.loadEvent g true e else d

/-- The oldest peak passed (R280, R287, R296). -/
def carrierPeak (g : Nat) (d : Dev) : Dev :=
  let G := d.group g
  match G.peaks with
  | [] => d
  | e :: rest =>
    let d := (d.setGroup g { G with peaks := rest }).produce { prod := 268 + g, stamp := some e.stamp }
    if d.loads g false then d.loadEvent g false e else d

/-- A time carrier restarts (R286): a valley if its new position is 0. -/
def Dev.syncGroup (d : Dev) (g : Nat) : Dev :=
  let G := d.group g
  if d.on (PWM_CFG_EN g) && !G.act.carr then
    let k := G.act.phase % G.act.period
    let e : PwmEvent := { lt := d.lantern.lt, step := 16, set := G.shadow, rdy := G.rdy }
    d.setGroup g { G with k := k, done := d.lantern.lt, valleys := if k = 0 then G.valleys ++ [e] else G.valleys }
  else d

/-- A write to PWM.SYNC (R286). -/
def pwmSync (mask : Nat) (d : Dev) : Dev := (bitsList mask 12).foldl Dev.syncGroup d

/-- A write of CTL.FORCE (R290). -/
def swForce (g : Nat) (on : Bool) (d : Dev) : Dev :=
  (d.setFld (PWM_CTL_FORCE g) (if on then 1 else 0)).checkForce g

/-- A write of 1 to CTL.TRIPCLR (R295). -/
def tripClear (g : Nat) (d : Dev) : Dev := d.setGroup g { d.group g with trip := false }

/-- An SDF input. -/
def Dev.sdf (d : Dev) (n : Nat) : SdfInput := arrGet {} d.drive.sdf n

/-- The device with an SDF input at `x`. -/
def Dev.setSdf (d : Dev) (n : Nat) (x : SdfInput) : Dev :=
  { d with drive := { d.drive with sdf := arrSet {} d.drive.sdf n x } }

/-- The input counts as tripped (R295, R299, R301). -/
def Dev.sdfTripped (d : Dev) (n : Nat) : Bool :=
  d.on (SDF_CFG_EN n) && ((d.sdf n).high || (d.sdf n).low || (d.sdf n).lost)

/-- The SDF inputs that trip a group. -/
def Dev.tripMask (d : Dev) (g : Nat) : Nat := d.fld (PWM_TRIPSRC0_SRC g) + d.fld (PWM_TRIPSRC1_SRC g) * 2 ^ 32

/-- A masked input is tripped: the latch sets (R291, R295, R296). -/
def tripLatch (g : Nat) (d : Dev) : Dev :=
  if (d.group g).trip || !((bitsList (d.tripMask g) 36).any d.sdfTripped) then d
  else
    let d := (d.setGroup g { d.group g with trip := true }).flag (PWM_ISTAT_TRIP g)
    ((d.produce { prod := 280 + g, stamp := some d.lanternTime }).present fiOcTrip g).forceGroup g

/-- The levels now found at the pins: those that differ from the command are held from outside. PINERR follows once a pin has
differed for more than 200 ns, 120 lt (R294). -/
def pinError (g lvl : Nat) (d : Dev) : Dev :=
  let off := lvl ^^^ d.pwmCmd g
  let told := (List.range 6).any (fun j => off.testBit j && decide (120 < nth 0 (d.group g).differ j))
  let d := d.setGroup g { d.group g with stuck := off, stuckLvl := lvl }
  if told then (d.flag (PWM_ISTAT_PINERR g)).present fiPinerr g else d

/-- A write to a PWM register. -/
def Dev.pwmWrite (d : Dev) (a : Nat) (w : Word) : Dev :=
  let off := a % 0x10000
  if off = 0 then pwmSync (w.toNat % 4096) d
  else if off < 0x100 then d.storeReg a w
  else
    let g := (off - 0x100) / 0x80
    let r := (off - 0x100) % 0x80
    let d := if r < 0x28 && d.on (PWM_CFG_LDM g) && d.on (PWM_CTL_RDY g) then d.flag (PWM_ISTAT_SHWR g) else d
    if r = 0 then
      let was := d.on (PWM_CFG_EN g)
      let d := d.storeReg a (d.maskEn w)
      if !was && d.on (PWM_CFG_EN g) then d.startGroup g
      else if was && !d.on (PWM_CFG_EN g) then d.stopGroup g
      else d
    else if r = 0x34 then
      let d := if w.toNat.testBit 0 then d.setGroup g { d.group g with rdyAt := some d.lantern.lt } else d
      let d := (d.storeReg a w).checkForce g
      if w.toNat.testBit 2 then tripClear g d else d
    else if r = 0x3C then
      let d := d.storeReg a w
      if w.toNat.testBit 2 then d.setFld (PWM_STAT_REPEAT g) 0 else d
    else d.storeReg a w

/-! ### Sigma-delta filters (R297 to R302) -/

/-- A modulator bit as +1 or −1 (R297). -/
def bitVal (b : Bool) : Int := if b then 1 else -1

/-- `n` over 2, the number of pairs below `n`. -/
def choose2 (n : Int) : Int := if n < 2 then 0 else n * (n - 1) / 2

/-- The weight of the `i`-th newest bit in a sinc3 sum of factor `f`, and in a sinc2 sum. -/
def sinc3Weight (f i : Int) : Int :=
  choose2 (i + 2) - 3 * choose2 (i - f + 2) + 3 * choose2 (i - 2 * f + 2) - choose2 (i - 3 * f + 2)
def sinc2Weight (f i : Int) : Int := if i < f then i + 1 else if i < 2 * f then 2 * f - 1 - i else 0

/-- The weighted sum of bits, newest first, from index `i`. -/
def bitSum (wt : Int → Int) : List Bool → Int → Int
  | [], _ => 0
  | b :: t, i => bitVal b * wt i + bitSum wt t (i + 1)

/-- The main and the fast filter's outputs over bits listed newest first (R298, R299). -/
def sinc3 (dec : Nat) (bits : List Bool) : Int := bitSum (sinc3Weight dec) (bits.take (3 * dec)) 0
def sinc2 (fosr : Nat) (bits : List Bool) : Int := bitSum (sinc2Weight fosr) (bits.take (2 * fosr)) 0

/-- An input that has been enabled: nothing sampled, the first output due after 3 × DEC clocks (R298). -/
def Dev.startSdf (d : Dev) (n : Nat) : Dev :=
  d.setSdf n { toNext := 3 * d.fld (SDF_CFG_DEC n), lastClock := d.ticks }

/-- A trip begins (R299): its flag and the input's event. -/
def Dev.fastTrip (d : Dev) (n : Nat) (f : Fld) : Dev :=
  (d.flag f).produce { prod := 464 + n, stamp := some d.lanternTime }

/-- One modulator clock of an enabled input (R298, R299, R301). No output is delivered before 3 × DEC clocks, whatever
restarts the decimation count (R302). -/
def Dev.sdfClock (d : Dev) (n : Nat) (b : Bool) : Dev :=
  let x := d.sdf n
  let bits := b :: x.bits.take 767
  let v := sinc2 (d.fld (SDF_CFG_FOSR n)) bits
  let hi := decide (sext 16 (d.fld (SDF_FTHR_HI n)) < v)
  let lo := decide (v < sext 16 (d.fld (SDF_FTHR_LO n)))
  let hiRun := if hi then satInc 15 x.hiRun else 0
  let loRun := if lo then satInc 15 x.loRun else 0
  let fcnt := d.fld (SDF_CFG_FCNT n)
  let high := hi && (x.high || decide (fcnt ≤ hiRun))
  let low := lo && (x.low || decide (fcnt ≤ loRun))
  let next := decide (x.toNext ≤ 1)
  let due := next && decide (3 * d.fld (SDF_CFG_DEC n) ≤ x.clocks + 1)
  let d := d.setSdf n { x with clocks := min 768 (x.clocks + 1), bits := bits, hiRun := hiRun, loRun := loRun, high := high, low := low, lost := false
                               lastClock := d.ticks, toNext := if next then d.fld (SDF_CFG_DEC n) else x.toNext - 1 }
  let d := d.setFld (SDF_FAST_FAST n) (wrap 16 v)
  let d := if high && !x.high then d.fastTrip n (SDF_ISTAT_TRIPH n) else d
  let d := if low && !x.low then d.fastTrip n (SDF_ISTAT_TRIPL n) else d
  if due then (d.setFld (SDF_DATA_DATA n) (wrap 32 (sinc3 (d.fld (SDF_CFG_DEC n)) bits))).flag (SDF_ISTAT_DRDY n) else d

/-- Modulator bits, oldest first, that an input has sampled since the last command that brought any. -/
def Dev.sdfBits (d : Dev) (n : Nat) (bits : List Bool) : Dev :=
  if d.on (SDF_CFG_EN n) then bits.foldl (fun d b => d.sdfClock n b) d else d

/-- No modulator clock edge for 2 µs (R301). A clock that the module drives itself has its edges. -/
def clockLost (n : Nat) (d : Dev) : Dev :=
  let x := d.sdf n
  if d.on (SDF_CFG_EN n) && !d.on (SDF_CFG_CKOUT n) && !x.lost && d.elapsed x.lastClock 1200 then
    ((d.setSdf n { x with lost := true }).flag (SDF_ISTAT_CKLOSS n)).present fiCkloss n
  else d

/-- The modulator clock returns (R301). -/
def clockReturns (n : Nat) (d : Dev) : Dev := d.setSdf n { d.sdf n with lost := false, lastClock := d.ticks }

/-- A snapshot set takes its trigger (R302). -/
def snapshot (setB : Bool) (d : Dev) : Dev :=
  let c := if setB then 135 else 134
  if (d.latch c).isNone then d
  else
    let mask := if setB then d.fld SDF_SNAPMB0_MASK + d.fld SDF_SNAPMB1_MASK * 2 ^ 32
      else d.fld SDF_SNAPMA0_MASK + d.fld SDF_SNAPMA1_MASK * 2 ^ 32
    let d := d.setLatch c none
    let d := if setB then d.setPair64 SDF_SNAPTBLO_TIME SDF_SNAPTBHI_TIME d.lanternTime
      else d.setPair64 SDF_SNAPTALO_TIME SDF_SNAPTAHI_TIME d.lanternTime
    (bitsList mask 36).foldl (fun d n =>
      let d := d.setFld (if setB then SDF_SNAPB_DATA n else SDF_SNAPA_DATA n) (d.fld (SDF_DATA_DATA n))
      if d.on (SDF_CFG_RST n) then d.setSdf n { d.sdf n with toNext := d.fld (SDF_CFG_DEC n) } else d) d

/-- A write to an SDF register. -/
def Dev.sdfWrite (d : Dev) (a : Nat) (w : Word) : Dev :=
  let off := a % 0x10000
  if decide (0x100 ≤ off) && decide (off < 0x800) && off % 0x20 = 0 then
    let n := (off - 0x100) / 0x20
    let was := d.on (SDF_CFG_EN n)
    let d := d.storeReg a (d.maskEn w)
    if !was && d.on (SDF_CFG_EN n) then d.startSdf n
    else if was && !d.on (SDF_CFG_EN n) then d.setSdf n {}
    else d
  else d.storeReg a w

/-! ### SAR converters (R303 to R305) -/

/-- A converter. -/
def Dev.adc (d : Dev) (c : Nat) : AdcSt := arrGet {} d.drive.adc c

/-- The device with a converter at `x`. -/
def Dev.setAdc (d : Dev) (c : Nat) (x : AdcSt) : Dev :=
  { d with drive := { d.drive with adc := arrSet {} d.drive.adc c x } }

/-- The first CLK_ADC edge after a Lantern time: edges are 10 ns, 96 units, apart (R304). -/
def adcEdge (t : Nat) : Nat := (t / 96 + 1) * 96

/-- The inputs of a sequence's slots under the present CFG. -/
def Dev.adcSlots (d : Dev) (c : Nat) : List Nat :=
  [d.fld (ADC_CFG_S0 c), d.fld (ADC_CFG_S1 c), d.fld (ADC_CFG_S2 c), d.fld (ADC_CFG_S3 c)].take (d.fld (ADC_CFG_LEN c) + 1)

/-- A sequence starts at the end of the one before, or at the next CLK_ADC edge. -/
def Dev.startSeq (d : Dev) (c : Nat) (trig : Option Trig) : Dev :=
  let t0 := match (d.adc c).lastEnd with | some t => t | none => adcEdge d.lanternTime
  d.setAdc c { seq := some { t0 := t0, slots := d.adcSlots c, trig := trig }, lastEnd := none }

/-- The converter is enabled and idle. -/
def Dev.adcIdle (d : Dev) (c : Nat) : Bool := d.on (ADC_CFG_EN c) && (d.adc c).seq.isNone

/-- An idle converter starts from its latched trigger or in continuous mode (R305). -/
def adcSequenceStart (c : Nat) (d : Dev) : Dev :=
  if !(d.adcIdle c) then d
  else if d.fld (ADC_CFG_TRIG c) = 2 then d.startSeq c none
  else if d.fld (ADC_CFG_TRIG c) = 0 then
    match d.latch (128 + c) with
    | some t => (d.setLatch (128 + c) none).startSeq c (some t)
    | none => d
  else d

/-- A write of 1 to START (R305). -/
def adcStart (c : Nat) (d : Dev) : Dev :=
  if !(d.on (ADC_CFG_EN c)) || d.fld (ADC_CFG_TRIG c) != 1 then d
  else if (d.adc c).seq.isNone then d.startSeq c none
  else d.flag (ADC_ISTAT_SWOVR c)

/-- The code of an input voltage in µV (R303). -/
def adcCode (v : Int) : Nat := if v ≤ 0 then 0 else min 65535 (v.toNat * 65536 / 3000000)

/-- A sequence ends with the voltages sampled (R304, R381). -/
def adcDone (c : Nat) (volts : List Int) (d : Dev) : Dev :=
  match (d.adc c).seq with
  | none => d
  | some q =>
    let stop := q.t0 + 1920 * q.slots.length
    if d.lanternTime < stop then d
    else
      let n := d.fld (ADC_RES_SEQCNT c 0) + 1
      let at_ (j : Nat) : Nat := q.t0 + 1920 * j + 576
      let d := (List.range 4).foldl (fun d j =>
        let d := d.setFld (ADC_RES_SEQCNT c j) n
        if j < q.slots.length then d.setFld (ADC_RES_DATA c j) (adcCode (nth 0 volts j)) else d) d
      let d := (d.setPair64 (ADC_STAMPLO_STAMP c) (ADC_STAMPHI_STAMP c) (at_ 0)).flag (ADC_ISTAT_DONE c)
      let d := d.consequence (292 + c) (128 + c) q.trig (some (at_ 0))
      let chain := d.fld (ADC_CFG_TRIG c) = 2 || (d.fld (ADC_CFG_TRIG c) = 0 && (d.latch (128 + c)).isSome)
      let d := d.setAdc c { seq := none, lastEnd := if chain then some stop else none }
      (List.range q.slots.length).foldl (fun d j =>
        d.offerConversion (4 * c + nth 0 q.slots j) (adcCode (nth 0 volts j)) (at_ j)) d

/-- A write to an ADC register. -/
def Dev.adcWrite (d : Dev) (a : Nat) (w : Word) : Dev :=
  let off := a % 0x10000
  let c := (off - 0x100) / 0x40
  if off % 0x40 = 0 then
    let d := d.storeReg a (d.maskEn w)
    d.setAdc c { d.adc c with lastEnd := none }
  else if off % 0x40 = 4 then (if w.toNat.testBit 0 then adcStart c d else d)
  else d.storeReg a w

/-! ### Position interfaces (R306 to R312) -/

/-- A position interface. -/
def Dev.posIf (d : Dev) (i : Nat) : PosIf := arrGet {} d.drive.pos i

/-- The device with a position interface at `x`. -/
def Dev.setPosIf (d : Dev) (i : Nat) (x : PosIf) : Dev :=
  { d with drive := { d.drive with pos := arrSet {} d.drive.pos i x } }

/-- The interface runs in a mode: 0 resolver, 1 ABZ, 2 SSI. -/
def Dev.posMode (d : Dev) (i m : Nat) : Bool := d.on (POSIF_CFG_EN i) && d.fld (POSIF_CFG_MODE i) = m

/-- A position error flag is set (R312). -/
def Dev.posErr (d : Dev) (i : Nat) (f : Fld) : Dev := (d.flag f).present fiPosErr i

/-- A sample is delivered: POS and REV, the event, and the timebases that select the interface (R255, R369). -/
def Dev.deliverSample (d : Dev) (i angle rev : Nat) (revOk : Bool) (time : Nat) : Dev :=
  let d := d.setFld (POSIF_POS_ANGLE i) angle
  let d := (d.setFld (POSIF_REV_REV i) rev).setFld (POSIF_REV_REVOK i) (if revOk then 1 else 0)
  (d.produce { prod := 298 + i, stamp := some time }).offerSample 1 i
    { angle := angle * 65536, rev := rev, revOk := revOk, time := time }

/-- The first `n` bits of the angle of the vector (c, s) in turns, and whether they give it exactly: squaring a complex
number doubles its angle, and a bit is 1 where the angle has reached half a turn. -/
def angleBits : Nat → Int → Int → Nat × Bool
  | 0, c, s => (0, decide (s = 0) && decide (0 < c))
  | n + 1, c, s =>
    let b := if s < 0 ∨ (s = 0 ∧ c < 0) then 1 else 0
    let r := angleBits n (c * c - s * s) (2 * c * s)
    (b * 2 ^ n + r.1, r.2)

/-- A resolver samples at a peak of its excitation (R306). Full scale is 2^15. Which of the two nearest 16-bit values an
angle between them takes is open: a free value. -/
def resolverSample (i sin cos : Nat) (neg : Bool) (d : Dev) : Dev :=
  if !(d.posMode i 0) then d
  else
    let sg : Int := if neg then -1 else 1
    let s := sg * sext 16 sin
    let c := sg * sext 16 cos
    let m := s * s + c * c
    if 16 * m < 2 ^ 30 then d.posErr i (POSIF_ISTAT_AMPLO i)
    else if 361 * 2 ^ 30 < 400 * m then d.posErr i (POSIF_ISTAT_AMPHI i)
    else
      let r := angleBits 16 c s
      let (f, d) := d.fresh
      let up := !r.2 && Config.freeBit f
      d.deliverSample i ((if up then r.1 + 1 else r.1) % 65536 * 65536) 0 false d.lanternTime

/-- The time from the first sample at a new level to its acceptance, in Lantern time (R307). -/
def Dev.filterLag (d : Dev) (i : Nat) : Nat := 48 * d.fld (POSIF_ABZ_FLT i)

/-- The device with the ABZ count of an interface at `n`. -/
def Dev.setCount (d : Dev) (i : Nat) (n : Int) : Dev :=
  (d.setPosIf i { d.posIf i with count := sext 32 (wrap 32 n) }).setFld (POSIF_COUNT_COUNT i) (wrap 32 n)

/-- An accepted change of A and B (R307). -/
def abzEdge (i : Nat) (a b : Bool) (d : Dev) : Dev :=
  let x := d.posIf i
  if !(d.posMode i 1) || (a = x.a && b = x.b) then d
  else
    let d := d.setPosIf i { x with a := a, b := b }
    if a != x.a && b != x.b then d.posErr i (POSIF_ISTAT_QERR i)
    else
      let up := if a != x.a then a != x.b else b = x.a
      let d := d.setCount i (x.count + (if up then 1 else -1))
      d.setPosIf i { d.posIf i with edgeNew := true, edgeTime := d.lanternTime - d.filterLag i }

/-- The multiple of `cpr` nearest to a count; of two equally near, either. -/
def nearestMultiple (cpr n : Int) (high : Bool) : Int :=
  let r := n % cpr
  if 2 * r < cpr || (2 * r = cpr && !high) then n - r else n - r + cpr

/-- An accepted rising edge of Z (R308). -/
def zIndex (i : Nat) (d : Dev) : Dev :=
  let x := d.posIf i
  let zm := d.fld (POSIF_ABZ_ZMODE i)
  if !(d.posMode i 1) then d
  else
    let d := d.produce { prod := 310 + i, stamp := some (d.lanternTime - d.filterLag i) }
    if zm = 0 then d
    else if !x.zSeen then (d.setPosIf i { x with zSeen := true }).setCount i 0
    else if zm = 1 then d
    else
      let (f, d) := d.fresh
      let n := nearestMultiple (d.fld (POSIF_ABZ_CPR i)) x.count (Config.freeBit f)
      if n = x.count then d else (d.setCount i n).posErr i (POSIF_ISTAT_ZERR i)

/-- The ABZ interface's periodic delivery (R308, R309). -/
def abzDelivery (i : Nat) (d : Dev) : Dev :=
  let x := d.posIf i
  if !(d.posMode i 1) || decide (d.lantern.lt < x.lastDeliver + d.fld (POSIF_CFG_SPER i)) then d
  else
    let d := d.setPosIf i { x with lastDeliver := d.lantern.lt, edgeNew := false }
    if d.fld (POSIF_ABZ_ZMODE i) != 0 && !x.zSeen then d
    else
      let cpr : Int := d.fld (POSIF_ABZ_CPR i)
      d.deliverSample i ((x.count % cpr * 2 ^ 32 / cpr).toNat) (wrap 16 (x.count / cpr)) true
        (if x.edgeNew then x.edgeTime else d.lanternTime)

/-- The number that bits spell, most significant first. -/
def bitsNat (bits : List Bool) : Nat := bits.foldl (fun n b => 2 * n + b.toNat) 0

/-- Bits decoded from Gray code. -/
def grayBits : Bool → List Bool → List Bool
  | _, [] => []
  | p, b :: t => (p != b) :: grayBits (p != b) t

/-- The angle of ST of width `stb` in turns to 32 bits. For a width above 32 the spec gives none: a free value. -/
def Dev.ssiAngle (d : Dev) (stb st : Nat) : Nat × Dev :=
  if stb ≤ 32 then (st * 2 ^ (32 - stb), d) else (Config.freeNat d.free % 2 ^ 32, { d with free := d.free + 1 })

/-- A frame of an SSI interface (R310, R311): the line's level at its start, its data bits, and the Lantern time since its
first falling edge. -/
def ssiFrame (i : Nat) (line : Bool) (bits : List Bool) (lag : Nat) (d : Dev) : Dev :=
  let x := d.posIf i
  let t := d.lanternTime - lag
  let waits := match x.frameEnd with
    | some e => decide (t < e + 9600 * d.fld (POSIF_SSITIM_MONO i))
    | none => false
  if !(d.posMode i 2) || waits || decide (t < 16 * (x.lastDeliver + d.fld (POSIF_CFG_SPER i))) then d
  else
    let d := d.setPosIf i { x with lastDeliver := t / 16, frameEnd := some d.lanternTime }
    let len := d.fld (POSIF_SSI_LEN i)
    let mtb := d.fld (POSIF_SSI_MTB i)
    let stb := d.fld (POSIF_SSI_STB i)
    let par := d.fld (POSIF_SSI_PAR i)
    let bits := bits.take len
    let odd := par = 1 && (bits.filter id).length % 2 = 1
    if !line || odd || decide (len < mtb + stb + par) then d.posErr i (POSIF_ISTAT_SERR i)
    else
      let raw := bits.take (mtb + stb)
      let pos := if d.on (POSIF_SSI_GRAY i) then grayBits false raw else raw
      let status := (bits.drop (mtb + stb)).take (len - mtb - stb - par)
      let d := d.setFld (POSIF_REV_SSTAT i) (bitsNat status)
      let (angle, d) := d.ssiAngle stb (bitsNat (pos.drop mtb))
      d.deliverSample i angle (bitsNat (pos.take mtb) % 65536) (decide (0 < mtb)) (t + 48 * d.fld (POSIF_SSITIM_TLAT i))

/-- An interface enabled, stopped, or set up anew: its count starts at 0; the levels of A and B stay (R308, R312). -/
def Dev.restartPos (d : Dev) (i : Nat) : Dev :=
  let x := d.posIf i
  (d.setPosIf i { a := x.a, b := x.b, lastDeliver := d.lantern.lt, frameEnd := x.frameEnd }).setFld (POSIF_COUNT_COUNT i) 0

/-- A write to a POSIF register (R312). -/
def Dev.posWrite (d : Dev) (a : Nat) (w : Word) : Dev :=
  let off := a % 0x10000
  let i := (off - 0x100) / 0x40
  let r := off % 0x40
  let was := (d.on (POSIF_CFG_EN i), d.fld (POSIF_CFG_MODE i))
  let old := d.word a
  let d := d.storeReg a (if r = 0 then d.maskEn w else w)
  let en := d.on (POSIF_CFG_EN i)
  if r = 0 then
    if was.1 != en || (en && was.2 != d.fld (POSIF_CFG_MODE i)) then d.restartPos i else d
  else if r ≤ 0x10 && en && old != d.word a then d.restartPos i
  else d

/-! ### The commands -/

/-- CARRIER_VALLEY (R280, R287). -/
def execCarrierValley (g : Fin 12) (s : State) : Host.Outcome State Fault Refusal := s.onClock (carrierValley g)

/-- CARRIER_PEAK (R280, R287). -/
def execCarrierPeak (g : Fin 12) (s : State) : Host.Outcome State Fault Refusal := s.onClock (carrierPeak g)

/-- PWM_GROUP_ENABLE (R285). -/
def execPwmGroupEnable (g : Fin 12) (s : State) : Host.Outcome State Fault Refusal := s.onDev (enableGroup g)

/-- PWM_SYNC (R286). -/
def execPwmSync (mask : BitVec 12) (s : State) : Host.Outcome State Fault Refusal := s.onDev (pwmSync mask.toNat)

/-- SW_FORCE (R290). -/
def execSwForce (g : Fin 12) (on : Bool) (s : State) : Host.Outcome State Fault Refusal := s.onDev (swForce g on)

/-- TRIPCLR (R295). -/
def execTripclr (g : Fin 12) (s : State) : Host.Outcome State Fault Refusal := s.onDev (tripClear g)

/-- TRIP_LATCH_SET (R295). -/
def execTripLatchSet (g : Fin 12) (s : State) : Host.Outcome State Fault Refusal := s.onClock (tripLatch g)

/-- PWM_PINERR (R294). -/
def execPwmPinerr (g : Fin 12) (lvl : BitVec 6) (s : State) : Host.Outcome State Fault Refusal :=
  s.onClock (pinError g lvl.toNat)

/-- SDF_FILTER_OUTPUT (R298): the modulator bits up to an output of the main filter. -/
def execSdfFilterOutput (n : Fin 36) (bits : List Bool) (s : State) : Host.Outcome State Fault Refusal :=
  s.onClock (fun d => d.sdfBits n bits)

/-- SDF_FAST_TRIP (R299): the modulator bits up to a trip of the fast filter. -/
def execSdfFastTrip (n : Fin 36) (bits : List Bool) (s : State) : Host.Outcome State Fault Refusal :=
  s.onClock (fun d => d.sdfBits n bits)

/-- SDF_TRIP_END (R299): the modulator bits up to the end of a trip. -/
def execSdfTripEnd (n : Fin 36) (bits : List Bool) (s : State) : Host.Outcome State Fault Refusal :=
  s.onClock (fun d => d.sdfBits n bits)

/-- SDF_CKLOSS (R301). -/
def execSdfCkloss (n : Fin 36) (s : State) : Host.Outcome State Fault Refusal := s.onClock (clockLost n)

/-- SDF_CLOCK_RETURN (R301). -/
def execSdfClockReturn (n : Fin 36) (s : State) : Host.Outcome State Fault Refusal := s.onClock (clockReturns n)

/-- SDF_SNAPSHOT (R302). -/
def execSdfSnapshot (setB : Bool) (s : State) : Host.Outcome State Fault Refusal := s.onClock (snapshot setB)

/-- ADC_SEQUENCE_START (R305). -/
def execAdcSequenceStart (c : Fin 6) (s : State) : Host.Outcome State Fault Refusal := s.onClock (adcSequenceStart c)

/-- ADC_START (R305). -/
def execAdcStart (c : Fin 6) (s : State) : Host.Outcome State Fault Refusal := s.onDev (adcStart c)

/-- ADC_SEQUENCE_DONE (R304). -/
def execAdcSequenceDone (c : Fin 6) (volts : List Int) (s : State) : Host.Outcome State Fault Refusal :=
  s.onClock (adcDone c volts)

/-- RESOLVER_SAMPLE (R306). -/
def execResolverSample (i : Fin 12) (sin cos : BitVec 16) (negPeak : Bool) (s : State) :
    Host.Outcome State Fault Refusal := s.onClock (resolverSample i sin.toNat cos.toNat negPeak)

/-- ABZ_EDGE (R307). -/
def execAbzEdge (i : Fin 12) (a b : Bool) (s : State) : Host.Outcome State Fault Refusal := s.onClock (abzEdge i a b)

/-- Z_INDEX_EDGE (R308). -/
def execZIndexEdge (i : Fin 12) (s : State) : Host.Outcome State Fault Refusal := s.onClock (zIndex i)

/-- ABZ_SAMPLE_DELIVERY (R309). -/
def execAbzSampleDelivery (i : Fin 12) (s : State) : Host.Outcome State Fault Refusal := s.onClock (abzDelivery i)

/-- SSI_FRAME (R310). -/
def execSsiFrame (i : Fin 12) (line : Bool) (bits : List Bool) (lag : Nat) (s : State) :
    Host.Outcome State Fault Refusal := s.onClock (ssiFrame i line bits lag)

end Sys2Proof.Machine
end

