-- ==== Sys2Proof/Machine/Buoy.lean ====
section
/-! DEFINITION. Buoy.lean: the Buoy ports (chapter 16): frames, transactions, cycles, enumeration, breaks. Times are in
Lantern time: a cell of 20 ns is 192 units, 1 µs is 9,600. -/

namespace Sys2Proof.Machine

/-- A port beside its registers. -/
def Dev.buoyOf (d : Dev) (k : Nat) : BuoySt := arrGet {} d.buoy k

/-- The device with a port at `x`. -/
def Dev.setBuoy (d : Dev) (k : Nat) (x : BuoySt) : Dev := { d with buoy := arrSet {} d.buoy k x }

/-- The device with the cycle of a port at `c`. -/
def Dev.setCycle (d : Dev) (k : Nat) (c : Option BuoyCycle) : Dev := d.setBuoy k { d.buoyOf k with cycle := c }

/-- The port is in LINE mode (R459). -/
def Dev.buoyLine (d : Dev) (k : Nat) : Bool := d.on (BUOY_STAT_LINE k)

/-- The fabric master of a port. -/
def buoyMaster (k : Nat) : Nat := mBuoy0 + k

/-! ### Frames (R462 to R464) -/

/-- The time that a frame with payload `l` takes, and the time to the end of its end delimiter. -/
def frameTime (l : Nat) : Nat := (100 + 8 * l) * 192
def delimiterTime (l : Nat) : Nat := (92 + 8 * l) * 192

/-- A frame from its header to its CRC (R463, R464). -/
def buoyFrame (addr : Nat) (line rsp : Bool) (seq cmd : Nat) (payload : List Byte) : List Byte :=
  let h := leBytes 4 (packFields [(addr, 0, 10), (line.toNat, 10, 1), (rsp.toNat, 11, 1), (seq, 12, 4), (cmd, 16, 8),
    (payload.length, 24, 7)])
  let body := h ++ payload
  body ++ leBytes 4 (crc32c body)

/-- The header of a received frame as a number, and its fields. -/
def headOf (f : List Byte) : Nat := leNat (f.take 4)
def fAddr (f : List Byte) : Nat := bitsOf (headOf f) 0 10
def fRsp (f : List Byte) : Bool := (headOf f).testBit 11
def fSeq (f : List Byte) : Nat := bitsOf (headOf f) 12 4
def fCmd (f : List Byte) : Nat := bitsOf (headOf f) 16 8
def fLen (f : List Byte) : Nat := bitsOf (headOf f) 24 7
def fPayload (f : List Byte) : List Byte := (f.drop 4).take (fLen f)

/-- The receiver takes a frame (R464). -/
def frameGood (r : BuoyReply) : Bool :=
  let f := r.bytes
  let n := 4 + fLen f
  !r.violated && decide (8 ≤ f.length) && decide (fLen f ≤ 64) && !(headOf f).testBit 31 && decide (n + 4 ≤ f.length)
    && leNat ((f.drop n).take 4) = crc32c (f.take n)

/-! ### Starting a cycle (R473) -/

/-- The lists that wait to start. -/
def Dev.buoyWaiting (d : Dev) (k : Nat) : List Nat :=
  (List.range 8).filter (fun t => (d.buoyOf k).starts.any (fun x => x.1 = t) || (d.latch (200 + 8 * k + t)).isSome)

/-- STAT.WAITING. -/
def Dev.waitingMask (d : Dev) (k : Nat) : Nat := maskOf (fun t => (d.buoyWaiting k).contains t) 8

/-- The port runs and is idle. -/
def Dev.buoyIdle (d : Dev) (k : Nat) : Bool :=
  d.on (BUOY_CFG_EN k) && (d.buoyOf k).cycle.isNone && !d.on (BUOY_STAT_ENUMBUSY k)

/-- List `t` starts with a stamp and, where a trigger starts it, that trigger. A healed ring returns to RING mode
(R480). -/
def Dev.startCycle (d : Dev) (k t stamp : Nat) (trig : Option Trig) : Dev :=
  let c : BuoyCycle :=
    { list := t, base := 16 * d.fld (BUOY_LISTBASE_BASE k t), count := d.fld (BUOY_LISTCNT_COUNT k t), stamp := stamp
      trig := trig, earliest := d.lanternTime }
  let d := if (d.buoyOf k).healed then d.setFld (BUOY_STAT_LINE k) 0 else d
  let d := d.setBuoy k { d.buoyOf k with cycle := some c, healed := false, silent := 0 }
  (d.flag (BUOY_STAT_BUSY k)).setFld (BUOY_STAT_LIST k) t

/-- An idle port starts its lowest-numbered waiting list; a START goes before a trigger of the same list. -/
def listStart (k : Nat) (d : Dev) : Dev :=
  if !(d.buoyIdle k) then d
  else
    match d.buoyWaiting k with
    | [] => d
    | t :: _ =>
      let b := d.buoyOf k
      match b.starts.find? (fun x => x.1 = t) with
      | some x => (d.setBuoy k { b with starts := b.starts.erase x }).startCycle k t x.2 none
      | none =>
        let c := 200 + 8 * k + t
        match d.latch c with
        | some g => (d.setLatch c none).startCycle k t g.stamp (some g)
        | none => d

/-- A write of 1 to bit `t` of CTL.START (R473). -/
def Dev.startWrite (k : Nat) (d : Dev) (t : Nat) : Dev :=
  let b := d.buoyOf k
  let runs := match b.cycle with | some c => c.list = t | none => false
  if runs || (d.buoyWaiting k).contains t then d.flag (BUOY_ISTAT_CMDREF k)
  else d.setBuoy k { b with starts := b.starts ++ [(t, d.lanternTime)] }

/-- A write to CTL.START. -/
def startLists (k mask : Nat) (d : Dev) : Dev := (bitsList mask 8).foldl (Dev.startWrite k) d

/-! ### Ends of transactions (R471, R472, R474) -/

/-- FAILS after a transaction with a partner (R472): at FAILMAX, BUOY_PFAIL is presented once until FAILS is 0 again. -/
def Dev.countFails (d : Dev) (k addr status : Nat) : Dev :=
  let f := BUOY_T_FAILS k (addr - 1)
  let b := d.buoyOf k
  if status = 0 || status = 2 then (d.setFld f 0).setBuoy k { b with told := b.told.filter (· != addr) }
  else
    let n := satInc 63 (d.fld f)
    let top := d.fld (BUOY_CFG_FAILMAX k)
    let d := d.setFld f n
    if top != 0 && decide (top ≤ n) && !(b.told.contains addr) then
      ((d.setBuoy k { b with told := b.told ++ [addr] }).flag (BUOY_ISTAT_PFAIL k)).present fiBuoyPfail (k * 1024 + addr)
    else d

/-- Word 0xC of a descriptor, written once its transaction is final. -/
def statusWord (rlen tries status detail : Nat) : Nat :=
  packFields [(rlen, 0, 7), (tries, 8, 4), (status, 16, 8), (detail, 24, 8)]

/-- A transaction is final: word 0xC is written, failures are counted, a STOP ends the cycle. An error where the
write must wait. -/
def Dev.buoyFinal (d : Dev) (k : Nat) (c : BuoyCycle) (x : BuoyTx) (status detail : Nat) : Except Hold Dev :=
  let bytes := leBytes 4 (statusWord x.rlen x.attempts status detail)
  match d.engineStore (buoyMaster k) (c.base + 16 * x.j + 12) bytes with
  | (.held h, _) => .error h
  | (e, d) =>
    let c := { c with txs := c.txs.filter (fun y => y.j != x.j), memFail := c.memFail || e != .ok
                      failed := if status = 0 then c.failed else c.failed + 1
                      stopped := c.stopped || (x.stop && status != 0)
                      earliest := if d.buoyLine k then max c.earliest d.lanternTime else c.earliest }
    let d := if status = 0 then d else d.flag (BUOY_ISTAT_FAIL k)
    let d := if x.addr = 1023 || status = 5 || status = 6 then d else d.countFails k x.addr status
    .ok (d.setCycle k (some c))

/-- The cycle with a transaction changed. -/
def BuoyCycle.setTx (c : BuoyCycle) (x : BuoyTx) : BuoyCycle :=
  { c with txs := c.txs.map (fun y => if y.j = x.j then x else y) }

/-- An attempt has failed (R471): it is retried in a later slot, or the transaction ends TIMEOUT. -/
def Dev.attemptFailed (d : Dev) (k : Nat) (c : BuoyCycle) (x : BuoyTx) : Except Hold Dev :=
  if x.attempts ≤ d.fld (BUOY_T_RETRY k (x.addr - 1)) then
    let c := c.setTx { x with again := true }
    .ok (d.setCycle k (some { c with earliest := if d.buoyLine k then max c.earliest d.lanternTime else c.earliest }))
  else d.buoyFinal k c x 1 0

/-! ### Sending (R469, R474 to R476, R480) -/

/-- The payload that a request carries when it starts at the present instant: SAMPLE and SYNC are completed by the port. -/
def Dev.requestPayload (d : Dev) (k : Nat) (c : BuoyCycle) (x : BuoyTx) : List Byte :=
  if x.cmd = 3 then x.payload ++ leBytes 8 (c.stamp + 9600 * d.fld (BUOY_CFG_LEAD k))
  else if x.cmd = 4 then
    let n := d.fld (BUOY_STAT_COUNT k)
    leBytes 8 (d.lanternTime + 3072) ++ leBytes 2 (d.fld (BUOY_RLAT_RLAT k) / (n + 1)) ++ leBytes 2 n
  else x.payload

/-- The deadline of a request that starts now (R470); for a broadcast, that of its return (R479). -/
def Dev.buoyDeadline (d : Dev) (k : Nat) (x : BuoyTx) : Nat :=
  let rlat := d.fld (BUOY_RLAT_RLAT k)
  if x.addr = 1023 then d.lanternTime + rlat + 19200
  else
    d.lanternTime + frameTime x.payload.length + (if d.buoyLine k then 2 * rlat else rlat)
      + 9600 * d.fld (BUOY_T_TMO k (x.addr - 1))

/-- A request starts now. In LINE mode a broadcast leaves on one pair and then on the other, and is final. -/
def Dev.transmit (d : Dev) (k : Nat) (c : BuoyCycle) (x : BuoyTx) : Except Hold Dev :=
  let line := d.buoyLine k
  let bcast := x.addr = 1023
  let body := d.requestPayload k c x
  let side := if bcast then 0 else d.fld (BUOY_T_SIDE k (x.addr - 1))
  let t := d.lanternTime
  let x := { x with attempts := x.attempts + 1, sentAt := t, deadline := d.buoyDeadline k x, again := false
                    onOut := !line || side != 2, onReturn := line && side != 1 }
  let slot :=
    if line then (if bcast then 2 * frameTime body.length else 0)
    else if bcast then frameTime body.length
    else frameTime x.payload.length + frameTime x.rlen + 3840
  let late := x.cmd = 3 &&
    decide (c.stamp + 9600 * d.fld (BUOY_CFG_LEAD k) < t + delimiterTime body.length + 2 * d.fld (BUOY_RLAT_RLAT k))
  let d := if late then d.flag (BUOY_ISTAT_LATE k) else d
  let b := d.buoyOf k
  let d := d.setBuoy k { b with sent := some (buoyFrame x.addr line false x.seq x.cmd body, x.onOut, x.onReturn) }
  let has := c.txs.any (fun y => y.j = x.j)
  let c := if has then c.setTx x else { c with txs := c.txs ++ [x] }
  let c := { c with earliest := t + slot }
  if line && bcast then d.buoyFinal k c x 0 0 else .ok (d.setCycle k (some c))

/-- ADDR, CMD and QLEN of a descriptor go together (R465, R474). -/
def buoyLegal (addr cmd qlen : Nat) : Bool :=
  let uni := decide (1 ≤ addr) && decide (addr ≤ 512)
  if cmd = 1 then uni && qlen = 3
  else if cmd = 2 then (uni || addr = 1023) && decide (3 ≤ qlen) && decide (qlen ≤ 64)
  else if cmd = 3 then addr = 1023 && qlen = 1
  else cmd = 4 && addr = 1023 && qlen = 0

/-- The next SEQ of a request, and the device that has used it (R469). -/
def Dev.takeSeq (d : Dev) (k addr : Nat) : Nat × Dev :=
  if addr = 1023 then
    let s := ((d.buoyOf k).bseq + 1) % 16
    (s, d.setBuoy k { d.buoyOf k with bseq := s })
  else
    let s := (d.fld (BUOY_T_SEQ k (addr - 1)) + 1) % 16
    (s, d.setFld (BUOY_T_SEQ k (addr - 1)) s)

/-- A memory failure ends the cycle (R481). -/
def Dev.memFailed (d : Dev) (k : Nat) (c : BuoyCycle) : Except Hold Dev := .ok (d.setCycle k (some { c with memFail := true }))

/-- The next descriptor: a WAIT, an illegal or disabled one, or a request that starts now (R474, R475). -/
def Dev.nextDescriptor (d : Dev) (k : Nat) (c : BuoyCycle) : Except Hold Dev :=
  match d.engineLoad (buoyMaster k) (c.base + 16 * c.next) 16 with
  | (_, .held h, _) => .error h
  | (_, .error _, d) => d.memFailed k c
  | (bytes, .ok, d) =>
    let w (i : Nat) : Nat := leNat ((bytes.drop (4 * i)).take 4)
    let addr := bitsOf (w 0) 0 10
    let cmd := bitsOf (w 0) 16 8
    let qlen := bitsOf (w 0) 24 7
    let x : BuoyTx := { j := c.next, addr := addr, cmd := cmd, payload := [], rptr := w 2, rlen := bitsOf (w 3) 0 7
                        stop := (w 0).testBit 31 }
    let c := { c with next := c.next + 1 }
    if cmd = 0 then .ok (d.setCycle k (some { c with waitUntil := some (c.stamp + (w 1 * 48 + 4) / 5) }))
    else if !(buoyLegal addr cmd qlen) then d.buoyFinal k c x 5 0
    else if addr != 1023 && !(d.on (BUOY_T_EN k (addr - 1))) then d.buoyFinal k c x 6 0
    else
      let (body, e, d) :=
        if qlen ≤ 4 then ((leBytes 4 (w 1)).take qlen, BusEnd.ok, d) else d.engineLoad (buoyMaster k) (w 1) qlen
      match e with
      | .held h => .error h
      | .error _ => d.memFailed k { c with next := c.next - 1 }
      | .ok =>
        let (s, d) := d.takeSeq k addr
        d.transmit k c { x with payload := body, seq := s }

/-- The cycle ends early. -/
def BuoyCycle.ending (c : BuoyCycle) : Bool := c.stopped || c.memFail

/-- The port sends in a slot: a retry first, else the next descriptor, which a WAIT holds (R471, R475). -/
def buoySend (k : Nat) (d : Dev) : Dev :=
  match (d.buoyOf k).cycle with
  | none => d
  | some c =>
    if !(d.on (BUOY_CFG_EN k)) || c.ending || decide (d.lanternTime < c.earliest)
        || (d.buoyLine k && c.txs.any (fun x => !x.again)) then d
    else
      match c.txs.find? (fun x => x.again) with
      | some x => d.orWait (d.transmit k c x)
      | none => if c.waitUntil.isSome || decide (c.count ≤ c.next) then d else d.orWait (d.nextDescriptor k c)

/-- The time of a WAIT is reached (R475). -/
def buoyWaitEnd (k : Nat) (d : Dev) : Dev :=
  match (d.buoyOf k).cycle with
  | none => d
  | some c =>
    match c.waitUntil with
    | some t => if t ≤ d.lanternTime then d.setCycle k (some { c with waitUntil := none }) else d
    | none => d

/-! ### Ends of cycles (R476, R481) -/

/-- STATUS 7 is written to descriptor `j`, as far as that can be. -/
def Dev.abortDescriptor (k base : Nat) (d : Dev) (j : Nat) : Dev :=
  let (bytes, e, d) := d.engineLoad (buoyMaster k) (base + 16 * j + 12) 4
  if e = .ok then
    (d.engineStore (buoyMaster k) (base + 16 * j + 12) (leBytes 4 (statusWord (leNat bytes % 128) 0 7 0))).2
  else d

/-- The cycle is over: the descriptors not final are aborted, LAST, CYC and the event (R476, R481). -/
def Dev.endCycle (d : Dev) (k : Nat) (c : BuoyCycle) (early : Bool) : Except Hold Dev :=
  let left := c.txs.map (·.j) ++ (List.range c.count).drop c.next
  match left.findSome? (fun j => d.spanWait (buoyMaster k) (c.base + 16 * j + 12) 4 true) with
  | some w => .error (some w)
  | none =>
    let d := left.foldl (Dev.abortDescriptor k c.base) d
    let d := (d.setFld (BUOY_LAST_ABORT k) (if early then 1 else 0)).setFld (BUOY_LAST_LIST k) c.list
    let d := d.setFld (BUOY_LAST_FAILED k) (min 255 (c.failed + left.length))
    let d := d.setFld (BUOY_LAST_CYCLES k) (d.fld (BUOY_LAST_CYCLES k) + 1)
    let d := ((d.setFld (BUOY_STAT_BUSY k) 0).flag (BUOY_ISTAT_CYC k)).setCycle k none
    .ok (d.consequence (450 + k) (200 + 8 * k + c.list) c.trig (some d.lanternTime))

/-- The cycle's last descriptor is final, or a STOP has ended it. -/
def cycleComplete (k : Nat) (d : Dev) : Dev :=
  match (d.buoyOf k).cycle with
  | none => d
  | some c =>
    if c.memFail then d
    else if c.stopped then d.orWait (d.endCycle k c true)
    else if d.on (BUOY_CFG_EN k) && decide (c.count ≤ c.next) && c.txs.isEmpty then d.orWait (d.endCycle k c false)
    else d

/-- A descriptor read or a reply write has failed (R481). -/
def memFailure (k : Nat) (d : Dev) : Dev :=
  match (d.buoyOf k).cycle with
  | none => d
  | some c =>
    if c.memFail then d.orWait (((d.flag (BUOY_ISTAT_MEMERR k)).present fiBuoyMem k).endCycle k c true) else d

/-! ### Breaks (R479, R480) -/

/-- A transaction in flight at a break is sent again; that attempt does not count. -/
def BuoyTx.resend (x : BuoyTx) : BuoyTx := if x.again then x else { x with again := true, attempts := x.attempts - 1 }

/-- A break (R479): no carrier on the return pair for 1 µs, or two slots in a row that have returned nothing. -/
def ringBreak (k : Nat) (d : Dev) : Dev :=
  if !(d.on (BUOY_CFG_EN k)) || d.buoyLine k then d
  else
    let quiet := d
    let d := (d.flag (BUOY_ISTAT_BREAK k)).present (fiBuoyBreak + k) 0
    let b := d.buoyOf k
    if d.on (BUOY_CFG_LINEOK k) then
      let d := d.flag (BUOY_STAT_LINE k)
      d.setBuoy k { b with
        silent := 0, healed := false
        cycle := b.cycle.map (fun c => { c with txs := c.txs.map BuoyTx.resend, earliest := d.lanternTime }) }
    else
      let d := d.setFld (BUOY_CFG_EN k) 0
      match b.cycle with
      | some c => quiet.orWait (d.endCycle k c true)
      | none => d

/-! ### Receiving (R464, R471, R477) -/

/-- A frame answers a transaction: its reply, or its own request come back. -/
def answers (line : Bool) (f : List Byte) (x : BuoyTx) : Bool :=
  if fRsp f then fAddr f = x.addr && fSeq f = x.seq && (fCmd f = x.cmd || fCmd f = 0x7F)
  else !line && fAddr f = x.addr && fSeq f = x.seq && fCmd f = x.cmd

/-- A reply's payload is written and the transaction ends OK (R474). -/
def Dev.replyOk (d : Dev) (k : Nat) (c : BuoyCycle) (x : BuoyTx) (body : List Byte) : Except Hold Dev :=
  match d.engineStore (buoyMaster k) x.rptr body with
  | (.held h, _) => .error h
  | (.error _, d) => d.memFailed k c
  | (.ok, d) => d.buoyFinal k c x 0 0

/-- A frame that answers a transaction ends it. -/
def Dev.replyTo (d : Dev) (k : Nat) (c : BuoyCycle) (x : BuoyTx) (r : BuoyReply) : Except Hold Dev :=
  let f := r.bytes
  if x.addr = 1023 then (d.setFld (BUOY_RLAT_RLAT k) r.delay).buoyFinal k c x 0 0
  else if !(fRsp f) then d.buoyFinal k c x 3 0
  else
    let d := if d.buoyLine k && d.fld (BUOY_T_SIDE k (x.addr - 1)) = 0 then
        d.setFld (BUOY_T_SIDE k (x.addr - 1)) (if r.onReturn then 2 else 1) else d
    if fCmd f = 0x7F then d.buoyFinal k c x 2 (nth 0 (fPayload f) 1).toNat
    else if fLen f != x.rlen then d.buoyFinal k c x 4 0
    else d.replyOk k c x (fPayload f)

/-- A frame arrives at a port. One that answers no transaction in time fails the oldest attempt; a request that comes by in
LINE mode answers none and fails none. -/
def buoyReceive (k : Nat) (r : BuoyReply) (d : Dev) : Dev :=
  match (d.buoyOf k).cycle with
  | none => d
  | some c =>
    let inTime (x : BuoyTx) : Bool := !x.again && decide (x.sentAt + 3072 + r.delay ≤ x.deadline)
    if !(d.on (BUOY_CFG_EN k)) || c.ending then d
    else
      let quiet := d
      let d := d.setBuoy k { d.buoyOf k with silent := 0 }
      let hit := if frameGood r then c.txs.find? (fun x => inTime x && answers (d.buoyLine k) r.bytes x) else none
      let d := if frameGood r then d else d.count (BUOY_CNT_CRCERR k)
      match hit with
      | some x => quiet.orWait (d.replyTo k c x r)
      | none =>
        if d.buoyLine k && frameGood r && !(fRsp r.bytes) then d
        else
          match c.txs.find? (fun x => inTime x && x.addr != 1023) with
          | some x => quiet.orWait (d.attemptFailed k c x)
          | none => d

/-- The deadline of the oldest transaction due has passed (R471, R479). A second slot in a row that has returned nothing is a
break; its request is sent again in LINE mode. A broadcast that has not come back is final. -/
def buoyDeadlinePass (k : Nat) (d : Dev) : Dev :=
  match (d.buoyOf k).cycle with
  | none => d
  | some c =>
    match c.txs.find? (fun x => !x.again && decide (x.deadline < d.lanternTime)) with
    | none => d
    | some x =>
      if c.ending then d
      else
        let b := d.buoyOf k
        let t := if d.buoyLine k then d else d.setBuoy k { b with silent := b.silent + 1 }
        if !(d.buoyLine k) && decide (1 ≤ b.silent) then
          ringBreak k (if x.addr = 1023 then t else t.count (BUOY_CNT_TMOUT k))
        else if x.addr = 1023 then d.orWait (t.buoyFinal k c x 0 0)
        else d.orWait ((t.count (BUOY_CNT_TMOUT k)).attemptFailed k c x)

/-! ### The ring healed (R480) -/

/-- The port receives its own frame on the pair on which it does not send (R480). -/
def ringHeal (k : Nat) (d : Dev) : Dev :=
  let b := d.buoyOf k
  match b.sent with
  | some (_, out, ret) =>
    if d.on (BUOY_CFG_EN k) && d.buoyLine k && out != ret then (d.flag (BUOY_ISTAT_HEAL k)).setBuoy k { b with healed := true }
    else d
  | none => d

/-! ### Enumeration (R478) -/

/-- Entry `a` of the partner table after an enumeration of `n` partners. -/
def Dev.enumEntry (k n : Nat) (d : Dev) (i : Nat) : Dev :=
  let d := ((d.setFld (BUOY_T_SEQ k i) 0).setFld (BUOY_T_FAILS k i) 0).setFld (BUOY_T_SIDE k i) 0
  if i < n then ((d.flag (BUOY_T_EN k i)).setFld (BUOY_T_TMO k i) 2).setFld (BUOY_T_RETRY k i) 1
  else d.setFld (BUOY_T_EN k i) 0

/-- The record of one partner in the enumeration buffer. -/
def enumRecord (p : BitVec 64 × BitVec 16) : List Byte := leBytes 8 p.1.toNat ++ leBytes 2 p.2.toNat ++ leBytes 6 0

/-- The partners' records are written one after another. -/
def Dev.enumRecords (d : Dev) (k base : Nat) : List (BitVec 64 × BitVec 16) → Dev
  | [] => d
  | p :: t => Dev.enumRecords (d.engineStore (buoyMaster k) base (enumRecord p)).2 k (base + 16) t

/-- A write of 1 to CTL.ENUM (R478): the port begins to enumerate, or refuses. -/
def Dev.enumWrite (d : Dev) (k : Nat) : Dev :=
  if d.buoyIdle k && !d.buoyLine k then d.flag (BUOY_STAT_ENUMBUSY k) else d.flag (BUOY_ISTAT_CMDREF k)

/-- The partner table after an enumeration of `n` partners: every FAILS is 0. -/
def Dev.enumTable (d : Dev) (k n : Nat) : Dev :=
  ((List.range 512).foldl (Dev.enumEntry k n) d).setBuoy k { d.buoyOf k with told := [] }

/-- The run of an enumeration, its frames and their answers taken as one (R478). -/
def Dev.enumRun (d : Dev) (k : Nat) (ring : EnumRing) : Except Hold Dev :=
  let base := 16 * d.fld (BUOY_ENUMBUF_BASE k)
  let d := d.setFld (BUOY_STAT_ENUMBUSY k) 0
  let (_, d) := d.takeSeq k 1023
  match ring.rlat with
  | none => .ok ((d.setFld (BUOY_STAT_COUNT k) 0).flag (BUOY_ISTAT_ENUMDONE k))
  | some r =>
    let ps := ring.partners.take 512
    match d.spanWait (buoyMaster k) base (16 * ps.length) true with
    | some w => .error (some w)
    | none =>
      let d := (d.setFld (BUOY_RLAT_RLAT k) r).enumRecords k base ps
      let d := if 512 < ring.partners.length then (d.flag (BUOY_ISTAT_TOOMANY k)).present fiBuoyEnum k else d
      let d := d.setFld (BUOY_STAT_COUNT k) ps.length
      .ok ((d.enumTable k ps.length).flag (BUOY_ISTAT_ENUMDONE k))

/-- An enumeration that has begun runs, unless the port's clock stands still (R20, R434). -/
def Dev.enumGo (d : Dev) (k : Nat) (ring : EnumRing) : Dev :=
  if d.on (BUOY_STAT_ENUMBUSY k) && !d.start.clocksOff then d.orWait (d.enumRun k ring) else d

/-- An enumeration: of the write that has begun it, or, with none under way, of a write of its own. -/
def enumerate (k : Nat) (ring : EnumRing) (d : Dev) : Dev :=
  (if d.on (BUOY_STAT_ENUMBUSY k) then d else d.enumWrite k).enumGo k ring

/-- A write to a BUOY register. -/
def Dev.buoyWrite (d : Dev) (a : Nat) (w : Word) : Dev :=
  let off := a % 0x10000
  if decide (0x1000 ≤ off) && off % 0x1000 = 4 then
    let k := off / 0x1000 - 1
    startLists k (bitsOf w.toNat 8 8) (if w.toNat.testBit 0 then d.enumWrite k else d)
  else d.storeReg a (if decide (0x1000 ≤ off) && off % 0x1000 = 0 then d.maskEn w else w)

/-! ### The commands -/

/-- BUOY_LIST_START (R473). -/
def execBuoyListStart (k : Fin 8) (s : State) : Host.Outcome State Fault Refusal := s.onClock (listStart k)

/-- BUOY_START (R473). -/
def execBuoyStart (k : Fin 8) (lists : BitVec 8) (s : State) : Host.Outcome State Fault Refusal :=
  s.onDev (startLists k lists.toNat)

/-- BUOY_TRANSACTION_SEND (R475). -/
def execBuoyTransactionSend (k : Fin 8) (s : State) : Host.Outcome State Fault Refusal := s.onClock (buoySend k)

/-- BUOY_REPLY_RECEIVE (R471). -/
def execBuoyReplyReceive (k : Fin 8) (r : BuoyReply) (s : State) : Host.Outcome State Fault Refusal :=
  s.onClock (buoyReceive k r)

/-- BUOY_DEADLINE (R471). -/
def execBuoyDeadline (k : Fin 8) (s : State) : Host.Outcome State Fault Refusal := s.onClock (buoyDeadlinePass k)

/-- BUOY_WAIT_END (R475). -/
def execBuoyWaitEnd (k : Fin 8) (s : State) : Host.Outcome State Fault Refusal := s.onClock (buoyWaitEnd k)

/-- BUOY_CYCLE_COMPLETE (R476). -/
def execBuoyCycleComplete (k : Fin 8) (s : State) : Host.Outcome State Fault Refusal := s.onClock (cycleComplete k)

/-- BUOY_ENUM (R478). -/
def execBuoyEnum (k : Fin 8) (ring : EnumRing) (s : State) : Host.Outcome State Fault Refusal :=
  s.onDev (enumerate k ring)

/-- BUOY_BREAK (R479). -/
def execBuoyBreak (k : Fin 8) (s : State) : Host.Outcome State Fault Refusal := s.onClock (ringBreak k)

/-- BUOY_HEAL (R480). -/
def execBuoyHeal (k : Fin 8) (s : State) : Host.Outcome State Fault Refusal := s.onClock (ringHeal k)

/-- BUOY_MEM (R481). -/
def execBuoyMem (k : Fin 8) (s : State) : Host.Outcome State Fault Refusal := s.onClock (memFailure k)

end Sys2Proof.Machine
end

