-- ==== Sys2Proof/Machine/Ethernet.lean ====
section
/-! DEFINITION. Ethernet.lean: the switch (R437 to R439), gPTP and time pulses (R440 to R442), the safety transport and the
host port's rings (R443 to R451). -/

namespace Sys2Proof.Machine

/-! ### Bytes on the link: most significant byte first -/

/-- The low `n` bytes of a number, most significant first. -/
def beBytes (n x : Nat) : List Byte := (leBytes n x).reverse

/-- The number whose bytes are listed most significant first. -/
def beNat (l : List Byte) : Nat := leNat l.reverse

/-- `n` bytes from offset `o` of a list, most significant first. -/
def beAt (l : List Byte) (o n : Nat) : Nat := beNat ((l.drop o).take n)

/-! ### Addresses (R2, R3, R443) -/

/-- The device's own system address. -/
def Dev.ownAddr (d : Dev) : Nat := d.fld ETH_ADDR_SEG * 4096 + d.fld ETH_ADDR_DEV

/-- The broadcast address of the device's own segment. -/
def Dev.segmentAddr (d : Dev) : Nat := d.fld ETH_ADDR_SEG * 4096 + 4095

/-- The MAC address of a system address. -/
def macOf (a : Nat) : Nat := (if a % 4096 = 4095 then 0x034B00 else 0x024B00) * 2 ^ 24 + a % 2 ^ 18

/-- A MAC address names a group. -/
def macGroup (m : Nat) : Bool := m.testBit 40

/-! ### Frames -/

/-- A frame's length on the link, its check sequence included. -/
def frameSize (f : Frame) : Nat :=
  max 64 (18 + (if f.ctag.isSome then 4 else 0) + (if f.stag then 4 else 0) + f.body.length)

/-- A frame's bytes without its check sequence. -/
def frameBytes (f : Frame) : List Byte :=
  beBytes 6 f.dst ++ beBytes 6 f.src
    ++ (match f.ctag with | some (p, v) => beBytes 2 0x8100 ++ beBytes 2 (p * 8192 + v % 4096) | none => [])
    ++ beBytes 2 f.etype ++ f.body

/-- The frame of bytes as they stand in memory (R446, RAW). -/
def frameOf (l : List Byte) : Frame :=
  let dst := beAt l 0 6
  let src := beAt l 6 6
  if beAt l 12 2 = 0x8100 then
    { dst := dst, src := src, ctag := some (beAt l 14 2 / 8192, beAt l 14 2 % 4096), etype := beAt l 16 2
      body := l.drop 18 }
  else { dst := dst, src := src, stag := decide (beAt l 12 2 = 0x88A8), etype := beAt l 12 2, body := l.drop 14 }

/-! ### Time (R441, R442) -/

/-- Local time in ns: Lantern time × 5 / 48. -/
def nsOfLantern (l : Nat) : Nat := l * 5 / 48

/-- gPTP time in ns at tick `t`: the last measurement carried on at the measured rate. The switch's clock runs in STANDBY,
where Lantern time stands (R20). -/
def EthSt.gptpAt (e : EthSt) (t : Nat) : Nat := e.gptp + (t - e.gptpTick) * e.rateN / e.rateD

/-- gPTP time now, and the transport's time now: gPTP time, or local time while SYNC = 0. -/
def Dev.gptpNow (d : Dev) : Nat := d.eth.gptpAt d.ticks
def Dev.netNow (d : Dev) : Nat := if d.on ETH_GPTPSTAT_SYNC then d.gptpNow else nsOfLantern d.lanternTime

/-- The gPTP time of now that a Sync gives (R440): its origin with its corrections, the peer delay, and the time since its
arrival, whose stamp is resolved to 8 ns. -/
def syncTime (s : SyncSample) : Nat := s.origin + s.delay + s.age / 8 * 8

/-- The offset of a measurement from the time carried on: |a − b| in ns. -/
def offsetOf (a b : Nat) : Nat := (a - b) + (b - a)

/-- The rate and the time after a measurement (R441): the rate is that between it and the one before. -/
def EthSt.measured (e : EthSt) (g t : Nat) : EthSt :=
  let moved := e.gptpSeen && decide (e.gptpTick < t) && decide (e.gptp < g)
  { e with gptp := g, gptpTick := t, gptpSeen := true, rateN := if moved then g - e.gptp else e.rateN
           rateD := if moved then t - e.gptpTick else e.rateD }

/-- The best master clock algorithm as the spec gives its data (R440): a capable device is grandmaster unless one that it
hears has a lower priority1, or the same and wins on the rest of its data. -/
def Dev.isMaster (d : Dev) (s : SyncSample) : Bool :=
  d.on ETH_GPTPCFG_GMCAP &&
    (match s.best with
     | none => true
     | some (p, wins) =>
       decide (d.fld ETH_GPTPCFG_PRIO1 < p.toNat) || (d.fld ETH_GPTPCFG_PRIO1 = p.toNat && !wins))

/-- One Sync interval (R440, R441): SYNC rises after 8 good intervals in a row and falls after 3 bad ones. A change of SYNC
starts the count of pulses afresh from the new time. A grandmaster sends its Sync on both ports, another device relays the
one that it has received to the other port. -/
def syncInterval (s : SyncSample) (d : Dev) : Dev :=
  let gm := d.isMaster s
  let good := s.got && d.eth.gptpSeen && decide (offsetOf (syncTime s) d.gptpNow ≤ 1000)
  let e := if s.got then d.eth.measured (syncTime s) d.ticks else d.eth
  let e := { e with inBound := if good then min 8 (e.inBound + 1) else 0
                    outBound := if good then 0 else min 3 (e.outBound + 1)
                    syncSent := if gm then 3 else if s.got then 2 ^ (1 - s.port.val) else 0 }
  let d := { d with eth := e }.setFld ETH_GPTPSTAT_GM (if gm then 1 else 0)
  let was := d.on ETH_GPTPSTAT_SYNC
  let now := if was then decide (e.outBound < 3) else decide (8 ≤ e.inBound)
  if was = now then d
  else
    let d := d.setFld ETH_GPTPSTAT_SYNC (if now then 1 else 0)
    let d := { d with eth := { d.eth with lastPulse := d.netNow } }
    if was then d.present fiEthSync 0 else d

/-- The Lantern time that lies `ns` of the transport's time before now; Lantern time stands while its clock does. -/
def Dev.lanternBefore (d : Dev) (ns : Nat) : Nat :=
  if d.start.clocksOff then d.lanternTime
  else if d.on ETH_GPTPSTAT_SYNC then d.lanternTime - ns * 16 * d.eth.rateD / d.eth.rateN
  else d.lanternTime - ns * 48 / 5

/-- A time pulse (R442): the first multiple of PPER ms after the last pulse, once it has come. -/
def timePulse (d : Dev) : Dev :=
  let t := d.netNow
  let p := d.fld ETH_GPTPCFG_PPER * 1000000
  let m := (d.eth.lastPulse / p + 1) * p
  if p = 0 || decide (t < m) then d
  else
    let stamp := d.lanternBefore (t - m)
    let d := { d with eth := { d.eth with lastPulse := m } }
    let d := d.setPair64 ETH_GPTPSGTLO_SGT ETH_GPTPSGTHI_SGT (d.gptpNow - (t - m))
    (d.setPair64 ETH_GPTPSLTLO_SLT ETH_GPTPSLTHI_SLT stamp).produce { prod := 462, stamp := some stamp }

/-! ### The switch (R437 to R439) -/

/-- A T1 port runs and its link is up. -/
def Dev.portUp (d : Dev) (q : Nat) : Bool := d.on (ETH_PORTCFG_EN q) && d.on (ETH_PORTSTAT_LINK q)

/-- The bytes that the frame buffer holds: each egress copy and each frame that waits at the host port. -/
def EthSt.buffered (e : EthSt) : Nat :=
  (e.egress.map (fun x => frameSize x.frame)).foldl (· + ·) 0 + (e.host.map (fun x => frameSize x.frame)).foldl (· + ·) 0

/-- The size of the frame buffer (R438). -/
def frameBuffer : Nat := 262144

/-- The learning table with a source address seen at a port; a full table learns no new address (DESIGN CHOICE). -/
def learn (l : List Learned) (mac port now : Nat) : List Learned :=
  if macGroup mac then l
  else if l.any (fun x => x.mac = mac) then
    l.map (fun x => if x.mac = mac then { x with port := port, seen := now } else x)
  else if 1024 ≤ l.length then l
  else l ++ [{ mac := mac, port := port, seen := now }]

/-- The ports to which a destination leads, as a mask (R438, R443): the own address to the host port; the own segment's
broadcast address to the host port as well; then the static table, the learning table, and otherwise every port. -/
def Dev.lookup (d : Dev) (dst : Nat) : Nat :=
  if dst = macOf d.ownAddr && d.fld ETH_ADDR_DEV != 0 then 4
  else
    let base := match mapFind d.eth.statics dst with
      | some m => m
      | none =>
        match d.eth.learned.find? (fun x => x.mac = dst && !macGroup dst) with
        | some x => 2 ^ x.port
        | none => 7
    if dst = macOf d.segmentAddr then base ||| 4 else base

/-- How long ago, in ns, the first bit of a frame came that has just been received: 1 bit per ns. -/
def frameNs (f : Frame) : Nat := 8 * frameSize f

/-- A frame whose first bit came `ns` ago, in the queue of a T1 port or at the host port. -/
def Dev.deliverFrame (d : Dev) (f : Frame) (pcp : Nat) (ns : Nat) (port : Nat) : Dev :=
  if port = 2 then
    let h : HostFrame := { frame := f, first := d.lanternTime - ns * 48 / 5, gptp := d.gptpNow - ns }
    { d with eth := { d.eth with host := d.eth.host ++ [h] } }
  else if d.portUp port then
    { d with eth := { d.eth with egress := d.eth.egress ++ [{ port := port, pcp := pcp, frame := f }] } }
  else d

/-- The line of a port. -/
def EthSt.line (e : EthSt) (q : Nat) : PortLine := arrGet {} e.lines q

/-- A frame leaves a port: the line is taken for the frame, its preamble and the gap after it, 20 bytes (IEEE 802.3). -/
def Dev.startLine (d : Dev) (q : Nat) (f : Frame) : Dev :=
  let t := d.ticks + (8 * (frameSize f + 20) * 3 + 4) / 5
  { d with eth := { d.eth with lines := arrSet {} d.eth.lines q { until_ := t, frame := some f } } }

/-- Of the frames queued at a port, the first of the highest PCP (R439). -/
def EthSt.nextFrame (e : EthSt) (q : Nat) : Option Egress :=
  match e.egress.filter (fun x => x.port = q) with
  | [] => none
  | x :: t => some (t.foldl (fun a b => if a.pcp < b.pcp then b else a) x)

/-- A port whose line is free sends its next frame (R438, R439). -/
def Dev.drainPort (d : Dev) (q : Nat) : Dev :=
  if !(d.portUp q) || decide (d.ticks < (d.eth.line q).until_) then d
  else
    match d.eth.nextFrame q with
    | none => d
    | some x => ({ d with eth := { d.eth with egress := d.eth.egress.erase x } }).startLine q x.frame

/-- Both ports. -/
def Dev.drainPorts (d : Dev) : Dev := (d.drainPort 0).drainPort 1

/-- The shared buffer holds a further frame (R439). -/
def Dev.bufferTakes (d : Dev) (f : Frame) : Bool := decide (d.eth.buffered + frameSize f ≤ frameBuffer)

/-- A frame forwarded from its ingress port to every port that the lookup names but that one. -/
def Dev.forward (d : Dev) (ingress : Nat) (f : Frame) (pcp ns : Nat) : Dev :=
  (((bitsList (d.lookup f.dst) 3).filter (fun q => q != ingress)).foldl (fun d q => d.deliverFrame f pcp ns q) d).drainPorts

/-- The switch has received a whole frame at a port (R437 to R439). -/
def switchFrame (port : Nat) (f : Frame) (d : Dev) : Dev :=
  if port < 2 && !(d.portUp port) then d
  else if 1522 < frameSize f then (if port < 2 then d.count (ETH_PORTCNT_OVS port) else d)
  else if f.stag then d
  else if !(d.bufferTakes f) then (if port < 2 then d.count (ETH_PORTCNT_DROP port) else d)
  else
    let pcp := match f.ctag with
      | some (p, _) => p
      | none => if port < 2 then d.fld (ETH_PORTCFG_DPCP port) else 0
    let d := { d with eth := { d.eth with learned := learn d.eth.learned f.src port d.ticks } }
    d.forward port f pcp (frameNs f)

/-- An address ages out of the learning table SWAGE.AGE s after it was last seen (R438). -/
def ageOut (d : Dev) : Dev :=
  match d.eth.learned.find? (fun x => d.elapsed x.seen (d.fld ETH_SWAGE_AGE * 1000 * msTicks)) with
  | some x => { d with eth := { d.eth with learned := d.eth.learned.filter (fun y => y.mac != x.mac) } }
  | none => d

/-- The link of port `q` as the PHY now reports it (R457): a port that is off has no link. Its role is the forced one, or with
MS = AUTO the one that auto-negotiation resolved (R437). -/
def linkChange (q : Nat) (up auto : Bool) (sqi : Nat) (d : Dev) : Dev :=
  let ms := d.fld (ETH_PORTCFG_MS q)
  let master := if ms = 0 then true else if ms = 1 then false else auto
  let up := up && d.on (ETH_PORTCFG_EN q)
  let was := d.on (ETH_PORTSTAT_LINK q)
  let d := d.setFld (ETH_PORTSTAT_LINK q) (if up then 1 else 0)
  let d := (d.setFld (ETH_PORTSTAT_MSR q) (if master then 1 else 0)).setFld (ETH_PORTSTAT_SQI q) sqi
  let d := if was = up then d else d.flag (ETH_PORTISTAT_LINKCHG q)
  if was && !up then d.present (fiEthLink + q) 0 else d

/-! ### Messages (R444, R445) -/

/-- A message's header. -/
def messageHeader (type keyid dst src epoch count time len : Nat) : List Byte :=
  beBytes 1 (16 + type) ++ beBytes 1 keyid ++ beBytes 3 dst ++ beBytes 3 src ++ beBytes 3 epoch ++ beBytes 3 count
    ++ beBytes 8 time ++ beBytes 2 len

/-- The tag of a message under a key. -/
def messageTag (key msg : List Byte) : List Byte := shake256 (key ++ msg) 16

/-- A whole message of this device, sent now (R446). -/
def Dev.message (d : Dev) (key : List Byte) (type keyid dst : Nat) (payload : List Byte) : List Byte :=
  let m := messageHeader type keyid dst d.ownAddr d.persist.epoch d.eth.count d.netNow payload.length
    ++ payload
  m ++ messageTag key m

/-- The frame that carries a message (R443). -/
def Dev.messageFrame (d : Dev) (dst pcp : Nat) (msg : List Byte) : Frame :=
  { dst := macOf dst, src := macOf d.ownAddr, ctag := some (pcp, d.fld ETH_VLAN_VID), etype := d.fld ETH_STCFG_ETYPE
    body := msg }

/-- The count of SEQ advanced; a wrap holds sending until the epoch has been incremented (R445). -/
def Dev.advanceSeq (d : Dev) : Dev :=
  let c := d.eth.count + 1
  { d with eth := { d.eth with count := c % 2 ^ 24, wrapped := d.eth.wrapped || c = 2 ^ 24 } }

/-- The wrap of the count: the epoch is incremented and journaled (R445). -/
def epochWrap (d : Dev) : Dev :=
  if d.eth.wrapped then
    let e := (d.persist.epoch + 1) % 2 ^ 24
    { d with eth := { d.eth with wrapped := false }, persist := { d.persist with epoch := e } }.journal 0x25 [e]
  else d

/-- A SIGNED message of the island to a system address (R496), through the switch. A wrap of the count that awaits its epoch
takes it first, so that no SEQ is sent twice (R445). -/
def Dev.sendSigned (d : Dev) (keyid dst : Nat) (payload : List Byte) : Dev :=
  match d.keyOf keyid with
  | none => d
  | some k =>
    let d := epochWrap d
    let f := d.messageFrame dst 0 (d.message k 1 keyid dst payload)
    (if d.bufferTakes f then d.forward 2 f 0 0 else d).advanceSeq

/-! ### Transmit rings (R446 to R448) -/

/-- A transmit ring holds a descriptor. -/
def Dev.txReady (d : Dev) (r : Nat) : Bool :=
  d.fld (ETH_TXRCFG_SIZE r) != 0 && d.fld (ETH_TXRHEAD_HEAD r) != d.fld (ETH_TXRTAIL_TAIL r)

/-- Some burst of a range is denied to a master. -/
def Dev.rangeDenied (d : Dev) (m a n : Nat) (wr : Bool) : Bool :=
  (burstsOf (n / 240 + 2) a n).any (fun x =>
    (d.mpuCheck m (if wr then writeAccess d.remap x.1 x.2 else { addr := x.1, size := x.2, rd := true, wr := false })).isSome)

/-- A ring index after the next entry. -/
def ringNext (head size n : Nat) : Nat := if size ≤ head + n then head + n - size else head + n

/-- Whether a transmit descriptor can be sent, and its status if not (R446, R447): 0 goes on to its payload. -/
def Dev.txStatus (d : Dev) (raw : Bool) (len type keyid dst : Nat) : Nat :=
  if d.fld ETH_ADDR_DEV = 0 && !raw && type != 1 then 4
  else if raw then (if len < 14 || 1518 < len then 2 else 0)
  else if 1460 < len || 3 ≤ type || (type = 2 && len != 0) then 2
  else if dst % 4096 = 0 then 4
  else if (d.keyOf keyid).isNone then 3
  else 0

/-- What leaves the port for a descriptor: the raw frame, or the message; only a message takes a SEQ. The switch drops a frame
with an S-tag (R439). -/
def Dev.txEmit (d : Dev) (r : Nat) (raw : Bool) (type keyid dst : Nat) (payload : List Byte) : Dev :=
  let send (f : Frame) : Dev := if f.stag then d else d.startLine (r / 8) f
  if raw then send (frameOf payload)
  else
    match d.keyOf keyid with
    | none => d
    | some k => (send (d.messageFrame dst (r % 8) (d.message k type keyid dst payload))).advanceSeq

/-- The head descriptor of ring `r` is sent (R446): payload, header, tag, DONE. An access held by a lock leaves the
descriptor for later. The status after a payload that memory cannot deliver is a free value. -/
def Dev.sendHead (d : Dev) (r : Nat) : Except Hold Dev :=
  let head := d.fld (ETH_TXRHEAD_HEAD r)
  let a := 32 * d.fld (ETH_TXRBASE_BASE r) + 32 * head
  let (desc, e0, d1) := d.engineLoad mEth a 16
  let w (i : Nat) : Nat := leNat ((desc.drop (4 * i)).take 4)
  let raw := (w 2).testBit 31
  let len := w 2 % 65536
  let type := bitsOf (w 2) 16 4
  let keyid := bitsOf (w 2) 20 2
  let dst := w 1 % 2 ^ 18
  let st := if d.rangeDenied mEth a 16 false then 1 else d.txStatus raw len type keyid dst
  let (payload, e1, d2) := if st = 0 then d1.engineLoad mEth (w 0) len else ([], .ok, d1)
  match (match e0, e1 with
    | .held h, _ => some h
    | _, .held h => some h
    | _, _ => (d.spanWait mEth (a + 12) 4 true).map some) with
  | some h => .error h
  | none =>
    let (status, d3) :=
      match e0, e1 with
      | .ok, .ok =>
        if st != 0 then (st, d2)
        else if d1.rangeDenied mEth (w 0) len false then (1, d2)
        else (0, d2.txEmit r raw type keyid dst payload)
      | _, _ => let (i, d2) := d2.fresh; (Config.freeNat i % 65536, d2)
    let (_, d4) := d3.engineStore mEth (a + 12) (leBytes 4 (2 ^ 31 + status))
    .ok (d4.setFld (ETH_TXRHEAD_HEAD r) (ringNext head (d.fld (ETH_TXRCFG_SIZE r)) 1))

/-- A ring has a descriptor that may go: it has no gate, or its gate has been triggered (R448). -/
def Dev.txCalls (d : Dev) (r : Nat) : Bool :=
  d.txReady r && (!(d.on (ETH_TXRCFG_GATED r)) || (d.latch (328 + r)).isSome)

/-- A ring may send: its port is up with its line free, no frame of its PCP or above is queued there, no ring of a higher PCP
calls (R439), and no wrap of the count awaits its epoch. -/
def Dev.txOpen (d : Dev) (r : Nat) : Bool :=
  d.portUp (r / 8) && decide ((d.eth.line (r / 8)).until_ ≤ d.ticks)
    && !(d.eth.egress.any (fun x => x.port = r / 8 && decide (r % 8 ≤ x.pcp)))
    && !((List.range 8).any (fun j => decide (r % 8 < j) && d.txCalls (r / 8 * 8 + j))) && !d.eth.wrapped

/-- A ring without a gate sends as soon as TAIL has passed a descriptor (R448). -/
def txSend (r : Nat) (d : Dev) : Dev :=
  if !(d.on (ETH_TXRCFG_GATED r)) && d.txReady r && d.txOpen r then d.orWait (d.sendHead r) else d

/-- A gated ring sends one descriptor for each trigger of its input; a trigger that finds the ring empty is lost (R448). -/
def txGated (r : Nat) (d : Dev) : Dev :=
  if !(d.on (ETH_TXRCFG_GATED r)) || (d.latch (328 + r)).isNone then d
  else if !(d.txReady r) then (d.setLatch (328 + r) none).flag ETH_ISTAT_TXEMPTY
  else if !(d.txOpen r) then d
  else
    match d.sendHead r with
    | .ok d => d.setLatch (328 + r) none
    | .error h => d.onHold h

/-! ### The receive ring (R449, R451) -/

/-- Free units of a ring whose reader is at `head` and writer at `tail`; one unit stays empty. -/
def ringFree (size head tail : Nat) : Nat := if size = 0 then 0 else (head + 2 * size - tail - 1) % size

/-- A list padded with zero bytes to a multiple of `k`. -/
def padTo (k : Nat) (l : List Byte) : List Byte := l ++ List.replicate ((k - l.length % k) % k) 0

/-- Bytes written into a ring from unit `tail` on, wrapping at its end, unless they must wait. -/
def Dev.ringWrite (d : Dev) (m base unit size tail : Nat) (bytes : List Byte) : Except Hold Dev :=
  let first := (size - tail) * unit
  let a := base + unit * tail
  match (d.spanWait m a (min first bytes.length) true).or (d.spanWait m base (bytes.length - first) true) with
  | some w => .error (some w)
  | none =>
    let (_, d) := d.engineStore m a (bytes.take first)
    let (_, d) := d.engineStore m base (bytes.drop first)
    .ok d

/-- The entry of a frame or message in the receive ring: the record, then its bytes, padded to 32. The record holds the
Lantern time in bytes 0 to 7 and the slot's length in bytes in 8 to 11 (DESIGN CHOICE). -/
def rxEntry (first : Nat) (bytes : List Byte) : List Byte :=
  let len := (padTo 32 (List.replicate 16 0 ++ bytes)).length
  padTo 32 (leBytes 8 first ++ leBytes 4 len ++ leBytes 4 0 ++ bytes)

/-- How the receive ring takes an entry. -/
inductive RxEnd where
  | written (d : Dev)
  | full
  | held (h : Hold)

/-- An entry put into the receive ring. -/
def Dev.rxPut (d : Dev) (entry : List Byte) : RxEnd :=
  let size := d.fld ETH_RXRCFG_SIZE
  let tail := d.fld ETH_RXRTAIL_TAIL
  let n := entry.length / 32
  if ringFree size (d.fld ETH_RXRHEAD_HEAD) tail < n then .full
  else
    match d.ringWrite mEth (32 * d.fld ETH_RXRBASE_BASE) 32 size tail entry with
    | .ok d => .written (d.setFld ETH_RXRTAIL_TAIL (ringNext tail size n))
    | .error h => .held h

/-- A dropped message or frame: its counter and ISTAT.DROP. -/
def Dev.dropped (d : Dev) (f : Fld) : Dev := (d.count f).flag ETH_ISTAT_DROP

/-- The device without the frame at the head of the host port. -/
def Dev.takeHost (d : Dev) : Dev := { d with eth := { d.eth with host := d.eth.host.tail } }

/-! ### Checks of R449 -/

/-- The length of a message agrees with its frame, padding to the least frame apart. -/
def lenConsistent (body : List Byte) : Bool :=
  let n := 40 + beAt body 22 2
  decide (24 ≤ body.length) && decide (beAt body 22 2 ≤ 1460) && decide (n ≤ body.length)
    && (body.length = n || decide (body.length ≤ 46))

/-- Check 1: version, type, length; a WAKE message has no payload. -/
def formatOk (body : List Byte) : Bool :=
  beAt body 0 1 / 16 = 1 && decide (beAt body 0 1 % 16 ≤ 2) && lenConsistent body
    && (beAt body 0 1 % 16 != 2 || beAt body 22 2 = 0)

/-- Check 2: the destination, and the types that an unnumbered device takes (R447). -/
def Dev.dstOk (d : Dev) (body : List Byte) : Bool :=
  (beAt body 2 3 = d.ownAddr || beAt body 2 3 = d.segmentAddr)
    && (d.fld ETH_ADDR_DEV != 0 || beAt body 0 1 % 16 != 0)

/-- The enabled peer entry of a source. -/
def Dev.peerOf (d : Dev) (src : Nat) : Option Nat :=
  (List.range 64).find? (fun n => d.on (ETH_PEERCFG_EN n) && d.fld (ETH_PEERCFG_SRC n) = src)

/-- H of a peer. -/
def Dev.peerH (d : Dev) (n : Nat) : Nat := d.fld64 (ETH_PEERHLO_H n) (ETH_PEERHHI_H n)

/-- Check 6: SEQ is within the window (R450). -/
def Dev.seqOk (d : Dev) (n s : Nat) : Bool :=
  let h := d.peerH n
  decide (h < s) || (decide (h ≤ s + 63) && !((arrGet 0 d.eth.windows n).testBit (h - s)))

/-- The window after SEQ `s` has been accepted (R450). -/
def Dev.seqTaken (d : Dev) (n s : Nat) : Dev :=
  let h := d.peerH n
  let w := arrGet 0 d.eth.windows n
  if h < s then
    let w := if 64 ≤ s - h then 1 else (w * 2 ^ (s - h) + 1) % 2 ^ 64
    { d with eth := { d.eth with windows := arrSet 0 d.eth.windows n w } }.setPair64 (ETH_PEERHLO_H n) (ETH_PEERHHI_H n) s
  else { d with eth := { d.eth with windows := arrSet 0 d.eth.windows n (withBit w (h - s)) } }

/-- Check 7: the age of a message received at gPTP time `rx` (R449). -/
def Dev.ageOk (d : Dev) (rx time : Nat) : Bool :=
  if d.on ETH_GPTPSTAT_SYNC then decide (offsetOf rx time ≤ d.fld ETH_STCFG_MAXAGE * 1000)
  else d.on ETH_STCFG_NOSYNCOK

/-- An accepted message (R449): the window; a WAKE message in STANDBY wakes the device; any other goes to the receive
ring, a SIGNED one on to the island. -/
def Dev.accept (d : Dev) (n : Nat) (first : Nat) (body : List Byte) : Dev :=
  let type := beAt body 0 1 % 16
  let len := beAt body 22 2
  let d1 := d.takeHost.seqTaken n (beAt body 8 6)
  if type = 2 && d.mode = modeStandby then wakeUp .eth d1
  else
    match d1.rxPut (rxEntry first (body.take (24 + len))) with
    | .held h => d.onHold h
    | .full => d1.dropped ETH_DROP2_FULL
    | .written d2 =>
      if type = 0 then d2.flag ETH_ISTAT_RXMSG
      else if type = 1 then
        { d2 with trust := { d2.trust with frags := d2.trust.frags ++
            [{ src := beAt body 5 3, keyid := beAt body 1 1, bytes := (body.drop 24).take len }] } }
      else d2

/-- The host port checks a message in the order of R449. -/
def Dev.checkMessage (d : Dev) (first gptp : Nat) (body : List Byte) : Dev :=
  let t := d.takeHost
  let src := beAt body 5 3
  if !(formatOk body) then t.dropped ETH_DROP_FMT
  else if !(d.dstOk body) then t.dropped ETH_DROP_DST
  else
    match (if beAt body 1 1 < 4 then d.keyOf (beAt body 1 1) else none) with
    | none => t.dropped ETH_DROP_KEY
    | some k =>
      let n := 24 + beAt body 22 2
      if messageTag k (body.take n) != (body.drop n).take 16 then
        (t.dropped ETH_DROP_TAG).present fiEthInteg (src % 4096)
      else
        match d.peerOf src with
        | none => t.dropped ETH_DROP2_PEER
        | some p =>
          if !(d.seqOk p (beAt body 8 6)) then t.dropped ETH_DROP2_SEQ
          else if !(d.ageOk gptp (beAt body 14 8)) then t.dropped ETH_DROP2_AGE
          else d.accept p first body

/-- The frame at the head of the host port is a safety-transport message: it is checked (R449). -/
def messageReceive (d : Dev) : Dev :=
  match d.eth.host with
  | [] => d
  | h :: _ => if h.frame.etype = d.fld ETH_STCFG_ETYPE then d.checkMessage h.first h.gptp h.frame.body else d

/-- The frame at the head of the host port is of another EtherType: into the ring while RAW = 1, else dropped (R451). -/
def rawReceive (d : Dev) : Dev :=
  match d.eth.host with
  | [] => d
  | h :: _ =>
    if h.frame.etype = d.fld ETH_STCFG_ETYPE then d
    else if !(d.on ETH_RXRCFG_RAW) then d.takeHost
    else
      match d.takeHost.rxPut (rxEntry h.first (frameBytes h.frame)) with
      | .held h => d.onHold h
      | .full => d.takeHost.dropped ETH_DROP2_FULL
      | .written d => d

/-- SWITCH_FORWARD (R438). -/
def execSwitchForward (port : Fin 3) (f : Frame) (s : State) : Host.Outcome State Fault Refusal :=
  s.onDev (switchFrame port f)

/-- ETH_LINK (R457). -/
def execEthLink (q : Fin 2) (up master : Bool) (sqi : Fin 8) (s : State) : Host.Outcome State Fault Refusal :=
  s.onDev (linkChange q up master sqi)

/-- SAFETY_MESSAGE_RECEIVE (R449). -/
def execSafetyMessageReceive (s : State) : Host.Outcome State Fault Refusal := s.onDev messageReceive

/-- RAW_FRAME_RECEIVE (R451). -/
def execRawFrameReceive (s : State) : Host.Outcome State Fault Refusal := s.onDev rawReceive

/-- TX_DESCRIPTOR_SEND (R446). -/
def execTxDescriptorSend (r : Fin 16) (s : State) : Host.Outcome State Fault Refusal := s.onDev (txSend r)

/-- TXR_GATED_TRIGGER (R448). -/
def execTxrGatedTrigger (r : Fin 16) (s : State) : Host.Outcome State Fault Refusal := s.onDev (txGated r)

/-- GPTP_SYNC_CHANGE (R441). -/
def execGptpSyncChange (x : SyncSample) (s : State) : Host.Outcome State Fault Refusal := s.onDev (syncInterval x)

/-- TIME_PULSE (R442). -/
def execTimePulse (s : State) : Host.Outcome State Fault Refusal := s.onDev timePulse

/-- EPOCH_WRAP (R445). -/
def execEpochWrap (s : State) : Host.Outcome State Fault Refusal := s.onDev epochWrap

/-- LEARNING_ENTRY_AGEOUT (R438). -/
def execLearningEntryAgeout (s : State) : Host.Outcome State Fault Refusal := s.onDev ageOut

end Sys2Proof.Machine
end

