-- ==== Sys2Proof/Machine/Can.lean ====
section
/-! DEFINITION. Can.lean: the CAN XL controllers and their rings (R452 to R455). -/

namespace Sys2Proof.Machine

/-- A controller beside its registers. -/
def Dev.canOf (d : Dev) (k : Nat) : CanSt := arrGet {} d.can k

/-- The device with a controller at `x`. -/
def Dev.setCan (d : Dev) (k : Nat) (x : CanSt) : Dev := { d with can := arrSet {} d.can k x }

/-- The controller is bus-off. -/
def Dev.busOff (d : Dev) (k : Nat) : Bool := d.fld (CANXL_STAT_ESTATE k) = 2

/-- ESTATE of the two error counters (R455, ISO 11898-1): passive from 128 on; bus-off is entered and left by its own
commands. -/
def Dev.errorState (d : Dev) (k : Nat) : Dev :=
  if d.busOff k then d
  else
    d.setFld (CANXL_STAT_ESTATE k)
      (if 128 ≤ d.fld (CANXL_STAT_TEC k) || 128 ≤ d.fld (CANXL_STAT_REC k) then 1 else 0)

/-- The receive error counter after a frame without an error: 127 from above it, else one less (PRESUMED, ISO 11898-1). -/
def recAfter (r : Nat) : Nat := if 127 < r then 127 else r - 1

/-- The frame passes an enabled filter (R453): both registers of the entry have EN set, and (ID xor ID) and MASK is 0. -/
def Dev.canFilter (d : Dev) (k id : Nat) : Bool :=
  (List.range 16).any (fun f =>
    (d.on (CANXL_FLTID_EN k f) && d.on (CANXL_FLTMASK_EN k f)
      && (id ^^^ d.fld (CANXL_FLTID_ID k f)) &&& d.fld (CANXL_FLTMASK_MASK k f) = 0)
    || (d.on (CANXL_FLT2ID_EN k f) && d.on (CANXL_FLT2MASK_EN k f)
      && (id ^^^ d.fld (CANXL_FLT2ID_ID k f)) &&& d.fld (CANXL_FLT2MASK_MASK k f) = 0))

/-- The header of a ring entry (R453). A remote frame's LEN is the length that it asks for; it has no data (DESIGN CHOICE). -/
def canHeader (f : CanFrame) (sof : Nat) : List Byte :=
  leBytes 4 (packFields [(f.id.toNat, 0, 29), (if f.ide then 1 else 0, 29, 1), (f.fmt.val, 30, 2)])
    ++ leBytes 4 (packFields [(if f.remote then f.rlen.toNat else f.data.length, 0, 12), (f.sdt.toNat, 12, 8), (f.vcid.toNat, 20, 8),
      (if f.evt then 1 else 0, 31, 1)])
    ++ leBytes 8 sof

/-- The frame of a ring entry's header and data. -/
def canOfHeader (h data : List Byte) (sof : Nat) : CanFrame :=
  let w0 := leNat (h.take 4)
  let w1 := leNat ((h.drop 4).take 4)
  { id := BitVec.ofNat 29 w0, ide := w0.testBit 29, fmt := Fin.ofNat 4 (w0 / 2 ^ 30)
    sdt := BitVec.ofNat 8 (w1 / 2 ^ 12), vcid := BitVec.ofNat 8 (w1 / 2 ^ 20), data := data, sof := sof
    evt := w1.testBit 31 }

/-- The event of a frame whose EVT is 1 (R454), at its start of frame. -/
def Dev.canEvent (d : Dev) (k : Nat) (f : CanFrame) : Dev :=
  if f.evt then d.produce { prod := 458 + k, stamp := some f.sof } else d

/-- A frame that has passed its check and the filter: into the RX ring, or lost (R453). -/
def Dev.canStore (d : Dev) (k : Nat) (f : CanFrame) : Except Hold Dev :=
  let bytes := padTo 16 (canHeader f f.sof ++ (if f.remote then [] else f.data))
  let size := d.fld (CANXL_RXCFG_SIZE k)
  let tail := d.fld (CANXL_RXTAIL_TAIL k)
  let n := bytes.length / 16
  if ringFree size (d.fld (CANXL_RXHEAD_HEAD k)) tail < n then .ok (d.count (CANXL_STAT_RXLOST k))
  else
    match d.ringWrite mCan (32 * d.fld (CANXL_RXBASE_BASE k)) 16 size tail bytes with
    | .error h => .error h
    | .ok d => .ok ((d.setFld (CANXL_RXTAIL_TAIL k) (ringNext tail size n)).flag (CANXL_ISTAT_RXF k))

/-- The frames received, oldest first, as far as nothing holds their writing. -/
def Dev.canStoreAll (d : Dev) (k : Nat) : List CanFrame → Dev
  | [] => d.setCan k { d.canOf k with received := [] }
  | f :: t =>
    match d.canStore k f with
    | .ok d => d.canStoreAll k t
    | .error h => (d.setCan k { d.canOf k with received := f :: t }).onHold h

/-- Received frames that still wait, at every controller. -/
def Dev.canRetry (d : Dev) : Dev :=
  (List.range 4).foldl (fun d k => if (d.canOf k).received.isEmpty then d else d.canStoreAll k (d.canOf k).received) d

/-- A frame on the bus of controller `k` (R452 to R455). A frame of a format above FMTS is not taken; one whose CRC is
wrong counts as a receive error. -/
def canReceive (k : Nat) (f : CanFrame) (d : Dev) : Dev :=
  if !(d.on (CANXL_CFG_EN k)) || d.busOff k || d.fld (CANXL_CFG_FMTS k) < f.fmt.val then d
  else
    let rec_ := d.fld (CANXL_STAT_REC k)
    let d := if d.on (CANXL_CFG_LOM k) then d
      else (d.setFld (CANXL_STAT_REC k) (if f.crcOk then recAfter rec_ else min 255 (rec_ + 1))).errorState k
    if f.crcOk && d.canFilter k f.id.toNat then (d.canEvent k f).canStoreAll k ((d.canOf k).received ++ [f]) else d

/-- The format and length can be sent (R452): classical to 8 bytes, FD to 64, XL 1 to 2,048 without an extended identifier,
none above FMTS. -/
def Dev.canSendable (d : Dev) (k fmt len : Nat) (ide : Bool) : Bool :=
  decide (fmt ≤ d.fld (CANXL_CFG_FMTS k)) &&
    (if fmt = 0 then decide (len ≤ 8)
     else if fmt = 1 then decide (len ≤ 8) || [12, 16, 20, 24, 32, 48, 64].contains len
     else fmt = 2 && !ide && decide (1 ≤ len) && decide (len ≤ 2048))

/-- The head entry of the TX ring is sent now (R454): its frame, its start of frame written into its header. An entry that
cannot be sent is passed over (DESIGN CHOICE). -/
def Dev.canSendHead (d : Dev) (k : Nat) (header : List Byte) : Except Hold Dev :=
  let base := 32 * d.fld (CANXL_TXBASE_BASE k)
  let size := d.fld (CANXL_TXCFG_SIZE k)
  let head := d.fld (CANXL_TXHEAD_HEAD k)
  let w1 := leNat ((header.drop 4).take 4)
  let fmt := bitsOf (leNat (header.take 4)) 30 2
  let len := w1 % 4096
  let n := 1 + (len + 15) / 16
  let start := ringNext head size 1
  let first := (size - start) * 16
  let a := base + 16 * start
  let done (d : Dev) : Dev := d.setFld (CANXL_TXHEAD_HEAD k) (ringNext head size n % max 1 size)
  if !(d.canSendable k fmt len ((leNat (header.take 4)).testBit 29)) then .ok (done d)
  else
  match ((d.spanWait mCan a (min len first) false).or (d.spanWait mCan base (len - first) false)).or
      (d.spanWait mCan (base + 16 * head + 8) 8 true) with
  | some w => .error (some w)
  | none =>
    let (x, _, d) := d.engineLoad mCan a (min len first)
    let (y, _, d) := d.engineLoad mCan base (len - first)
    let sof := d.lanternTime
    let f := canOfHeader header (x ++ y) sof
    let (_, d) := d.engineStore mCan (base + 16 * head + 8) (leBytes 8 sof)
    let d := (d.setFld (CANXL_STAT_TEC k) (d.fld (CANXL_STAT_TEC k) - 1)).errorState k
    let d := d.setCan k { d.canOf k with sent := some f }
    .ok (((done d).flag (CANXL_ISTAT_TXF k)).canEvent k f)

/-- The controller sends the entry at the head of its TX ring, under its gate if GATED = 1 (R454). -/
def canSend (k : Nat) (d : Dev) : Dev :=
  let size := d.fld (CANXL_TXCFG_SIZE k)
  let head := d.fld (CANXL_TXHEAD_HEAD k)
  if !(d.on (CANXL_CFG_EN k)) || d.on (CANXL_CFG_LOM k) || d.busOff k || size = 0
      || head = d.fld (CANXL_TXTAIL_TAIL k) then d
  else
    let (header, e, d1) := d.engineLoad mCan (32 * d.fld (CANXL_TXBASE_BASE k) + 16 * head) 16
    let j := bitsOf (leNat ((header.drop 4).take 4)) 12 4
    let input := 264 + 16 * k + j
    let gated := d.on (CANXL_TXCFG_GATED k)
    match e with
    | .held h => d.onHold h
    | _ =>
      if gated && (d.latch input).isNone then d
      else
        match d1.canSendHead k header with
        | .error h => d.onHold h
        | .ok d2 => if gated then d2.setLatch input none else d2

/-- The controller goes bus-off (R455). -/
def goBusOff (k : Nat) (d : Dev) : Dev :=
  if !(d.on (CANXL_CFG_EN k)) || d.busOff k then d
  else
    let d := (d.setFld (CANXL_STAT_TEC k) 255).setFld (CANXL_STAT_ESTATE k) 2
    (d.flag (CANXL_ISTAT_BUSOFF k)).present (fiCanBusoff + k) 0

/-- 128 × 11 recessive bits have passed on the bus of a controller that recovers by itself or has been told to (R455). -/
def busRecovered (k : Nat) (d : Dev) : Dev :=
  if d.busOff k && (d.on (CANXL_CFG_AUTOREC k) || (d.canOf k).recovering) then
    let d := ((d.setFld (CANXL_STAT_TEC k) 0).setFld (CANXL_STAT_REC k) 0).setFld (CANXL_STAT_ESTATE k) 0
    d.setCan k { d.canOf k with recovering := false }
  else d

/-- A write of 1 to CTL.RECOVER starts the recovery of a controller that is bus-off (R455). -/
def startRecovery (k : Nat) (d : Dev) : Dev :=
  if d.busOff k then d.setCan k { d.canOf k with recovering := true } else d

/-- CAN_FRAME_RECEIVE (R453). -/
def execCanFrameReceive (k : Fin 4) (f : CanFrame) (s : State) : Host.Outcome State Fault Refusal :=
  s.onDev (canReceive k f)

/-- CAN_FRAME_SEND (R454). -/
def execCanFrameSend (k : Fin 4) (s : State) : Host.Outcome State Fault Refusal := s.onDev (canSend k)

/-- CAN_BUSOFF (R455). -/
def execCanBusoff (k : Fin 4) (s : State) : Host.Outcome State Fault Refusal := s.onDev (goBusOff k)

/-- BUSOFF_AUTO_RECOVERY (R455). -/
def execBusoffAutoRecovery (k : Fin 4) (s : State) : Host.Outcome State Fault Refusal := s.onDev (busRecovered k)

/-- RECOVER (R455). -/
def execRecover (k : Fin 4) (s : State) : Host.Outcome State Fault Refusal := s.onDev (startRecovery k)

end Sys2Proof.Machine
end

