-- ==== Sys2Proof/Machine/Nvs.lean ====
section
/-! DEFINITION. Nvs.lean: the non-volatile store engine (R509 to R527): seals, appends, chain verification, compaction,
image slots and evidence. -/

namespace Sys2Proof.Machine

/-! ### The chain (R512, R513) -/

/-- An entry's payload: its bytes where a chapter lays them out, otherwise an open layout of what it records. -/
def JEntry.payload (e : JEntry) : List Byte :=
  if e.type < 0x8000 ∧ e.type ≠ 0x40 then Config.journalPayload e.type e.args else e.body

/-- Bytes 0 to 19 + LEN of an entry. -/
def JEntry.hashed (e : JEntry) : List Byte :=
  leBytes 6 e.seq ++ leBytes 2 e.type ++ leBytes 2 e.payload.length ++ [0, 0] ++ leBytes 8 e.time ++ e.payload

/-- The chain hash after entries, from the hash before them (R513). -/
def chainHash (seed : List Byte) (es : List JEntry) : List Byte :=
  es.foldl (fun h e => shake256 (h ++ e.hashed) 32) seed

/-- The seed of an area; the first entry ever written follows 32 zero bytes. -/
def JArea.chainSeed (a : JArea) : List Byte := if a.seed.isEmpty then List.replicate 32 0 else a.seed

/-! ### Seals and appends (R516 to R518) -/

/-- A seal of the open page, if anything waits in it. -/
def sealOpen (bad : Nat) (d : Dev) : Dev := if d.nvs.opened.isEmpty then d else d.sealPage bad

/-- PERIOD has passed since the last seal with entries waiting (R516). -/
def sealPeriod (bad : Nat) (d : Dev) : Dev :=
  if d.elapsed d.nvs.lastSeal (d.fld NVS_CFG_PERIOD * 100 * msTicks) then sealOpen bad d else d

/-- The append in progress is over, with a status. -/
def Dev.appendEnd (d : Dev) (st : Nat) : Dev :=
  ({ d with nvs := { d.nvs with append := none } }.setFld NVS_APSTAT_STATUS st).setFld NVS_APSTAT_BUSY 0

/-- The engine takes the append in progress, unless a lock holds its bank back (R518, R523). -/
def Dev.tryAppend (d : Dev) : Dev :=
  match d.nvs.append with
  | none => d
  | some a =>
    if d.mode = modeStandby then d.appendEnd 1
    else
    let quiet := d
    let (h, e, d) := d.engineLoad mNvs a 8
    match e with
    | .held x => quiet.onHold x
    | .error _ => d.appendEnd 3
    | .ok =>
      let type := leNat (h.take 2)
      let len := leNat ((h.drop 2).take 2)
      if type < 0x8000 then d.appendEnd 1
      else if 4096 < len then d.appendEnd 2
      else if d.nvs.full then d.appendEnd 4
      else
        let (body, e, d) := d.engineLoad mNvs (a + 8) len
        match e with
        | .held x => quiet.onHold x
        | .error _ => d.appendEnd 3
        | .ok =>
          let d := d.journal type [] body
          (if leNat (h.drop 4) % 2 = 1 then sealOpen 0 d else d).appendEnd 0

/-- A write of NVS.APPEND (R518): one append at a time; the address is 8-byte aligned. -/
def appendWrite (addr : Nat) (d : Dev) : Dev :=
  if d.nvs.append.isSome then d
  else ({ d with nvs := { d.nvs with append := some (addr / 8 * 8) } }.flag NVS_APSTAT_BUSY).tryAppend

/-! ### Chain verification, compaction, remapping (R511, R521 to R523, R526) -/

/-- The engine has verified the chain of the active area, or found it broken at a page (R521). -/
def chainVerify (broken : Option Nat) (d : Dev) : Dev :=
  if d.nvs.verifyFrom.isNone then d
  else
    let d := { d with nvs := { d.nvs with verifyFrom := none } }
    match broken with
    | none => d.flag NVS_STAT_CHAINOK
    | some page => (d.flag NVS_ISTAT_CHAIN).present fiChain page

/-- Compaction at 75 % fill (R522): page 0 of the inactive area, which makes it active; the erase of the old one begins. -/
def compact (d : Dev) : Dev :=
  let n := d.nvs
  if 6144 ≤ n.area.pages && n.other.eraseLeft = 0 && n.append.isNone && !(d.on POWER_STAT_PFAIL) then
    let old := n.area
    let summary : JEntry := { seq := n.nextSeq - n.opened.length, type := 1, time := d.islandTime, args := d.persist.summary }
    let seed := chainHash old.chainSeed old.entries
    let next : JArea := { n.other with gen := old.gen + 1, pages := 1, seed := seed, entries := [summary] }
    let n := (n.setArea { old with eraseLeft := 128 }).setOther next
    { d with nvs := { n with
        active := !n.active, full := false, nextSeq := n.nextSeq + 1
        opened := n.opened.map (fun (e : JEntry) => { e with seq := e.seq + 1 }) } }.flag NVS_STAT_COMPACT
  else d

/-- The first block of the inactive area. -/
def NvsSt.otherBlock (n : NvsSt) : Nat := if n.active then 512 else 640

/-- The old area is erased (R522); its blocks' erase counts rise (R526). No erase goes on during a power failure (R517). -/
def eraseDone (d : Dev) : Dev :=
  let n := d.nvs
  let a := n.other
  if a.eraseLeft = 0 || d.on POWER_STAT_PFAIL then d
  else
    let d := { d with nvs := n.setOther { gen := a.gen, erases := a.erases + 1 } }.setFld NVS_STAT_COMPACT 0
    if a.erases + 1 = 90000 then (d.flag NVS_ISTAT_WEAR).present fiWear n.otherBlock else d

/-- A block is copied to a reserve block and remapped, while the store is idle (R511). -/
def blockRemap (d : Dev) : Dev :=
  if d.nvs.slotOp.isNone && decide (d.nvs.remapped < 256) then
    { d with nvs := { d.nvs with remapped := d.nvs.remapped + 1 } }
  else d

/-! ### Slots and evidence (R525) -/

/-- Some page of a range has been programmed since its erase, or a failed operation has left bytes of it undefined. -/
def NvsSt.anyProgrammed (n : NvsSt) (off len : Nat) : Bool :=
  n.spoilt.any (fun r => decide (r.lo < off + len) && decide (off < r.hi)) || n.programmed.any (fun e => e.2 && decide (off / 4096 ≤ e.1) && decide (e.1 * 4096 < off + len))

/-- The operation is refused (R525). -/
def Dev.opRefused (d : Dev) (o : SlotOp) : Bool :=
  let (base, size) := opRegion o.tgt o.record
  let active := if d.persist.actSlot then 1 else 0
  if o.op = 0 then (o.tgt = active && d.mode != modeFog) || d.on POWER_STAT_PFAIL
  else if o.op = 1 then
    o.off % 4096 != 0 || o.len % 4096 != 0 || o.len = 0 || decide (size < o.off + o.len)
      || (o.tgt < 2 && decide (o.off < 16384)) || d.nvs.anyProgrammed (base + o.off) o.len
  else if o.tgt < 2 then d.nvs.anyProgrammed base 16384
  else decide (size < o.len) || d.nvs.full

/-- A write of SLOTCTL whose OP is `op` (R525): the fields, and with GO the operation begins or is refused. -/
def slotctlWrite (op m w : Nat) (d : Dev) : Dev :=
  if !(reachesIo m 0x120020) || m = mDebug then d
  else
    let tgt := if bitsOf w 2 2 = 3 then 2 else bitsOf w 2 2
    let d := ((d.setFld NVS_SLOTCTL_REC (bitsOf w 4 8)).setFld NVS_SLOTCTL_TGT tgt).setFld NVS_SLOTCTL_OP op
    let o : SlotOp := { op := op, tgt := tgt, record := bitsOf w 4 8, src := d.fld NVS_SRC_SRC, off := d.fld NVS_OFF_OFF
                        len := d.fld NVS_LEN_LEN }
    if !(w.testBit 31) then d
    else if d.nvs.slotOp.isSome || d.opRefused o then d.setFld NVS_SLOTSTAT_STATUS 1
    else
      ({ d with nvs := { d.nvs with slotOp := some o, stoppedByPf := false } }.flag NVS_SLOTSTAT_BUSY).flag NVS_STAT_SLOTBUSY

/-- The running operation is over, with a status. -/
def Dev.opEnd (d : Dev) (st : Nat) : Dev :=
  let d := { d with nvs := { d.nvs with slotOp := none, stoppedByPf := false } }
  ((d.setFld NVS_SLOTSTAT_BUSY 0).setFld NVS_STAT_SLOTBUSY 0).setFld NVS_SLOTSTAT_STATUS st

/-- What of a range of undefined bytes lies outside the bytes from `off` to below `off + len`. -/
def SpoiltRange.outside (r : SpoiltRange) (off len : Nat) : List SpoiltRange :=
  (if r.lo < min r.hi off then [{ r with hi := min r.hi off }] else [])
    ++ (if max r.lo (off + len) < r.hi then [{ r with lo := max r.lo (off + len) }] else [])

/-- The undefined bytes that are left once the bytes from `off` to below `off + len` are written. -/
def spoiltOutside (l : List SpoiltRange) (off len : Nat) : List SpoiltRange := l.flatMap (fun r => r.outside off len)

/-- The running operation fails with a status: what its bytes then hold is undefined. -/
def Dev.opFail (d : Dev) (st : Nat) : Dev :=
  let (k, d) := d.fresh
  { d with nvs := d.nvs.spoilRunning k }.opEnd st

/-- The store with a range erased: every byte 0xFF, no page programmed. -/
def NvsSt.erased (n : NvsSt) (off len : Nat) : NvsSt :=
  let out (k : Nat) : Bool := decide (k < off / 4096) || decide ((off + len) / 4096 ≤ k)
  { n with flash := n.flash.filter (fun e => decide (e.1 < off) || decide (off + len ≤ e.1))
           spoilt := spoiltOutside n.spoilt off len, programmed := mapKeep out n.programmed, badPages := mapKeep out n.badPages }

/-- Bytes programmed from an offset on, and their pages. -/
def NvsSt.programmedWith (n : NvsSt) (off : Nat) (bytes : List Byte) : NvsSt :=
  { n with
    flash := (bytes.foldl (fun (x : Nat × List (Nat × Byte)) b => (x.1 + 1, arrSet 0xFF x.2 x.1 b)) (off, n.flash)).2
    spoilt := spoiltOutside n.spoilt off bytes.length
    programmed := (List.range (bytes.length / 4096)).foldl (fun m k => arrSet false m (off / 4096 + k) true) n.programmed }

/-- Pages copied from shared memory to an offset of the store; a locked bank leaves the operation running. -/
def Dev.opCopy (d : Dev) (src off len : Nat) : Dev :=
  let (bytes, e, d) := d.engineLoad mNvs src len
  match e with
  | .held h => d.onHold h
  | .error _ => d.opFail 2
  | .ok => { d with nvs := d.nvs.programmedWith off bytes }.opEnd 0

/-- The running operation completes in flash (R525), with a program error, or stopped by a power failure (R517). -/
def slotDone (err : Bool) (d : Dev) : Dev :=
  match d.nvs.slotOp with
  | none => d
  | some o =>
    let (base, size) := opRegion o.tgt o.record
    if d.nvs.stoppedByPf then d.opFail 4
    else if err then d.opFail 3
    else if o.op = 0 then { d with nvs := d.nvs.erased base size }.opEnd 0
    else if o.op = 1 then d.opCopy o.src (base + o.off) o.len
    else if o.tgt < 2 then d.opCopy o.src base 16384
    else (d.journal 0x40 [o.record, o.len] (leBytes 4 o.record ++ leBytes 4 o.len ++ shake256 (d.nvs.bytes base o.len) 32)).opEnd 0

/-! ### The commands -/

/-- JOURNAL_SEAL (R516): `badPages` pages fail their verification before one holds. -/
def execJournalSeal (badPages : Nat) (s : State) : Host.Outcome State Fault Refusal := s.onDev (sealOpen badPages)

/-- SEAL_PERIOD (R516). -/
def execSealPeriod (badPages : Nat) (s : State) : Host.Outcome State Fault Refusal := s.onDev (sealPeriod badPages)

/-- APPEND (R518). -/
def execAppend (addr : Word) (s : State) : Host.Outcome State Fault Refusal := s.onDev (appendWrite addr.toNat)

/-- CHAIN_VERIFY (R521). -/
def execChainVerify (broken : Option Nat) (s : State) : Host.Outcome State Fault Refusal := s.onDev (chainVerify broken)

/-- COMPACTION (R522). -/
def execCompaction (s : State) : Host.Outcome State Fault Refusal := s.onDev compact

/-- COMPACTION_ERASE_DONE (R522, R526). -/
def execCompactionEraseDone (s : State) : Host.Outcome State Fault Refusal := s.onDev eraseDone

/-- BLOCK_REMAP (R511): the window shows the block as before. -/
def execBlockRemap (_block : Fin 2048) (s : State) : Host.Outcome State Fault Refusal := s.onDev blockRemap

/-- ERASE (R525). -/
def execErase (m : Fin 31) (w : Word) (s : State) : Host.Outcome State Fault Refusal := s.onDev (slotctlWrite 0 m w.toNat)

/-- PROGRAM (R525). -/
def execProgram (m : Fin 31) (w : Word) (s : State) : Host.Outcome State Fault Refusal := s.onDev (slotctlWrite 1 m w.toNat)

/-- FINISH (R525). -/
def execFinish (m : Fin 31) (w : Word) (s : State) : Host.Outcome State Fault Refusal := s.onDev (slotctlWrite 2 m w.toNat)

/-- SLOT_OPERATION_DONE (R525). -/
def execSlotOperationDone (err : Bool) (s : State) : Host.Outcome State Fault Refusal := s.onDev (slotDone err)

end Sys2Proof.Machine
end

