-- ==== Sys2Proof/Machine/Test.lean ====
section
/-! DEFINITION. Test.lean: the factory BIST, Watch, the loopbacks, the voltage regulators and the margin planner
(chapter 19). -/

namespace Sys2Proof.Machine

/-! ### Factory BIST (R528 to R532) -/

/-- A pair stopped in state OFF with its clock stopped. -/
def Dev.bistStop (d : Dev) (p : Nat) : Dev :=
  let x := d.pair p
  (d.setPair p { x.both (fun c => { c with stopped := true }) with clockOff := true }).setPairState p stOff

/-- A write of 1 to BISTCTL.START (R528). -/
def bistStart (d : Dev) : Dev :=
  if d.mode = modeMaker && (d.lcs = lcManufacture || d.lcs = lcReturned) then
    if d.on TEST_BISTSTAT_BUSY then d
    else
      let d := (List.range 16).foldl Dev.bistStop d
      let d := ((d.flag TEST_BISTSTAT_BUSY).setFld TEST_BISTSTAT_COUNT 0).setFld TEST_BISTSTAT_LOST 0
      { d with test := { d.test with bistFrom := some d.ticks, bistChecked := none, planned := [] } }
  else (d.refuse refusedWrite false).setFld TEST_BISTSTAT_STATUS 3

/-- One record (R531): into the next entry, or counted as lost. -/
def Dev.bistRecord (d : Dev) (r : DWord) : Dev :=
  let n := d.fld TEST_BISTSTAT_COUNT
  let d := if r.toNat / 2 ^ 56 = 3 then { d with test := { d.test with planned := d.test.planned ++ [r] } } else d
  if 256 ≤ n then d.count TEST_BISTSTAT_LOST
  else (d.setPair64 (TEST_BISTRESLO_REC n) (TEST_BISTRESHI_REC n) r.toNat).setFld TEST_BISTSTAT_COUNT (n + 1)

/-- A run ends with a status: every valid copy is cleared, and every pair stays OFF (R530). -/
def Dev.bistOver (d : Dev) (status : Nat) : Dev :=
  let clear (c : Core) : Core := { c with dmem := ramInvalidate c.dmem, imem := ramInvalidate c.imem }
  let d := (d.setFld TEST_BISTSTAT_STATUS status).setFld TEST_BISTSTAT_BUSY 0
  { d with
    test := { d.test with bistFrom := none }
    pairs := d.pairs.map (fun x => x.both clear)
    mem := { d.mem with ram := ramInvalidate d.mem.ram }
    mirror := [] }

/-- A check of the run's conditions is due (R529): before the run starts, and every 100 µs during it. -/
def Dev.bistCheckDue (d : Dev) : Bool :=
  d.on TEST_BISTSTAT_BUSY &&
    (match d.test.bistChecked with
     | none => true
     | some t => d.elapsed t (100 * 600))

/-- The check of the run's conditions (R529), with the records made since the last one. -/
def bistCheck (clockKHz supplyMv : Nat) (results : List DWord) (d : Dev) : Dev :=
  if !d.bistCheckDue then d
  else
    let d := results.foldl Dev.bistRecord d
    let v := d.fld TEST_BISTCFG_VSET
    if clockKHz < 990000 || 1010000 < clockKHz then d.bistOver 1
    else if 100 * supplyMv < 98 * v || 102 * v < 100 * supplyMv then d.bistOver 2
    else { d with test := { d.test with bistChecked := some d.ticks } }

/-- The run ends (R530, R531), with the records made since the last check. It has begun with a first check (R529). -/
def bistEnd (results : List DWord) (d : Dev) : Dev :=
  if d.on TEST_BISTSTAT_BUSY && d.test.bistChecked.isSome then (results.foldl Dev.bistRecord d).bistOver 0 else d

/-- A write of 1 to BISTCTL.REPAIR (R532): the planned repairs become fuses, which act from the next device reset on. -/
def repair (d : Dev) : Dev :=
  if d.test.planned.isEmpty then d
  else
    let d := d.journal 0x26 (d.test.planned.map BitVec.toNat)
    { d with test := { d.test with repairs := d.test.repairs ++ d.test.planned, planned := [] } }

/-- A write to TEST.BISTCTL. -/
def bistctlWrite (w : Nat) (d : Dev) : Dev :=
  let d := if w.testBit 1 then repair d else d
  if w.testBit 0 then bistStart d else d

/-! ### The Watch period (R533) -/

/-- Words of a shared or cluster bank. -/
def bankWords (inst : Nat) : Nat := if inst < 32 then 131072 else 65536

/-- Watch tests the pair's logic in this period: it is ACTIVE or SPARE. -/
def Dev.watched (d : Dev) (p : Nat) : Bool := d.pairState p = stActive || d.pairState p = stSpare

/-- The number of a loopback's block. -/
def loopId : LoopBlock → Nat
  | .pwm g => g.val
  | .sdf n => 12 + n.val
  | .adc c => 48 + c.val

/-- The blocks that are enabled, and so have a loopback to run. -/
def Dev.loopsDue (d : Dev) : List Nat :=
  (List.range 54).filter (fun i =>
    if i < 12 then d.on (PWM_CFG_EN i) else if i < 48 then d.on (SDF_CFG_EN (i - 12)) else d.on (ADC_CFG_EN (i - 48)))

/-- The elements that the period has not covered, as the WATCH_LATE detail (R533, R545). -/
def Dev.uncovered (d : Dev) : Nat :=
  let t := d.test
  let banks := (List.range 88).any (fun i => decide (arrGet 0 t.marched i < bankWords i))
  let slices := (List.range 16).any (fun p => d.watched p && decide (arrGet 0 t.slices p < 64))
  let cmps := (List.range 16).any (fun p => d.pairState p = stActive && !(t.cmpDone.testBit p))
  let loops := d.loopsDue.any (fun i => !(arrGet false t.loops i))
  packFields [(banks.toNat, 0, 1), ((!t.romDone).toNat, 1, 1), (slices.toNat, 2, 1), (cmps.toNat, 3, 1), (loops.toNat, 4, 1)]

/-- The end of a Watch period; the next one starts. -/
def watchPeriodEnd (d : Dev) : Dev :=
  match d.test.periodStart with
  | none => d
  | some t =>
    if d.elapsed t (d.fld TEST_WCFG_PERIOD * 60000 * msTicks) then
      let late := d.uncovered
      let d := d.setFld TEST_WSTAT_LATE late
      let d := if late = 0 then d.setFld TEST_WSTAT_PASSES (d.fld TEST_WSTAT_PASSES + 1)
        else (d.flag TEST_ISTAT_LATE).present fiLate late
      { d with test := { d.test with periodStart := some d.ticks, marched := [], romDone := false, slices := [], cmpDone := 0
                                     loops := [] } }
    else d

/-! ### The march (R534) -/

/-- The word counts as covered where it is the next one of its instance; the boot ROM is done at its last word. -/
def Dev.covered1 (d : Dev) (inst word : Nat) : Dev :=
  if arrGet 0 d.test.marched inst = word then
    { d with test := { d.test with marched := arrSet 0 d.test.marched inst (word + 1)
                                   romDone := d.test.romDone || (inst = 152 && word = 32767) } }
  else d

/-- One raw bit that does not take its written value: the record's upper word, the flag, the fault input. -/
def Dev.marchFailed (inst : Nat) (d : Dev) (bit : Nat) : Dev :=
  ((d.setFld TEST_WFAIL_REC (packFields [(bit, 8, 8), (inst, 16, 8)])).flag TEST_ISTAT_MARCH).present fiMarch inst

/-- The march of one bank word: it is read and checked, and keeps its value. A word of the boot ROM is read only. -/
def marchWord (inst word : Nat) (stuck : List (Fin 75)) (d : Dev) : Dev :=
  if d.test.periodStart.isNone then d
  else if inst = 152 then
    if word < 32768 then ((d.romRead mIsland word).2.2).covered1 152 word else d
  else if inst < 88 && word < bankWords inst then
    let (m, k0) := d.instRam inst
    let r := ramRead m (k0 + word) word
    let d := d.setInstRam inst (ramHeal m (k0 + word))
    let d := d.noteRead 31 inst word (wordAddr inst word) r true
    (stuck.foldl (fun d b => Dev.marchFailed inst d b.val) d).covered1 inst word
  else d

/-! ### Logic slices (R535 to R538) -/

/-- The time of a slice at a pair's planned clock, in ns, times its step: 4.700 µs + 748 cc of 40 ns / step (R536). -/
def sliceCost (step : Nat) : Nat := 4700 * step + 748 * 40

/-- A write to TEST.OFFERp (R536). -/
def offer (lp budget : Nat) (d : Dev) : Dev :=
  let p := d.physOf lp
  let step := d.fld (AGEING_PAIR_STEP p)
  let ok := (d.fld TEST_WCFG_SLICEOK).testBit lp && d.pairState p = stActive && d.test.periodStart.isSome
    && decide (arrGet 0 d.test.slices p < 64) && decide (sliceCost step ≤ budget * step)
  if ok then
    let d := d.setPair p { d.pair p with slice := some (arrGet 0 d.test.slices p) }
    let os := d.test.offers.filter (fun o => o.phys != p) ++ [{ lpair := lp, phys := p, since := d.ticks }]
    { d with test := { d.test with offers := os } }
  else d.count TEST_WSTAT_OFFDROP

/-- K0 of the slice's checkpoint has not begun within 0.200 µs of the offer's arrival (R537). -/
def offerAbandon (lp : Nat) (d : Dev) : Dev :=
  match d.test.offers.find? (fun o => o.lpair = lp) with
  | none => d
  | some o => if d.elapsed o.since 120 && (d.pair o.phys).phase == .run then d.dropSlice o else d

/-- Watch runs the next slice on a spare (R536, R538). -/
def spareSlice (p : Nat) (fail : Bool) (d : Dev) : Dev :=
  let n := arrGet 0 d.test.slices p
  if d.test.periodStart.isNone || d.pairState p != stSpare || decide (64 ≤ n) then d
  else if fail then d.sliceFailed p n
  else { d with test := { d.test with slices := arrSet 0 d.test.slices p (n + 1) } }

/-! ### Loopbacks (R539) -/

/-- The WATCH_LOOP detail of a block. -/
def loopDetail : LoopBlock → Nat
  | .pwm g => g.val
  | .sdf n => 0x1000 + n.val
  | .adc c => 0x2000 + c.val

/-- The loopback of a block can run: it is enabled, and a converter is idle. -/
def Dev.loopReady (d : Dev) : LoopBlock → Bool
  | .pwm g => d.on (PWM_CFG_EN g.val)
  | .sdf n => d.on (SDF_CFG_EN n.val)
  | .adc c => d.adcIdle c.val

/-- A converter's next sequence waits for an inserted conversion. -/
def Dev.loopDelay (d : Dev) : LoopBlock → Dev
  | .adc c => d.setAdc c.val { d.adc c.val with lastEnd := (d.adc c.val).lastEnd.map (· + 1920) }
  | _ => d

/-- Watch runs a loopback. -/
def loopback (b : LoopBlock) (pass : Bool) (d : Dev) : Dev :=
  if d.test.periodStart.isNone || !(d.loopReady b) then d
  else
    let d := d.loopDelay b
    let d := { d with test := { d.test with loops := arrSet false d.test.loops (loopId b) true } }
    if pass then d else (d.flag TEST_ISTAT_LOOP).present fiLoop (loopDetail b)

/-! ### Ageing (R540 to R544) -/

/-- Operating hours (R541): an hour is 2.16 × 10^12 ticks. -/
def Dev.hours (d : Dev) : Nat := d.age.onTicks / 2160000000000

/-- A pair's slack is below GUARD at Vmax: after 10 ms it presents AGE_MONITOR once. -/
def Dev.slackLow (d : Dev) (p : Nat) : Dev :=
  match arrGet none d.age.lowSince p with
  | none => { d with age := { d.age with lowSince := arrSet none d.age.lowSince p (some d.ticks) } }
  | some t =>
    if d.elapsed t (10 * msTicks) && !(d.age.lowTold.testBit p) then
      let d := { d with age := { d.age with lowTold := withBit d.age.lowTold p } }
      (d.flag AGEING_ISTAT_MONITOR).present fiMonitor p
    else d

/-- The slack is not low at Vmax. -/
def Dev.slackFine (d : Dev) (p : Nat) : Dev :=
  { d with age := { d.age with lowSince := arrSet none d.age.lowSince p none, lowTold := withoutBit d.age.lowTold p } }

/-- A regulator's step every 1 ms, with what the pair's monitors report (R540). -/
def voltageAdjust (p slack nbti : Nat) (d : Dev) : Dev :=
  let d := { d with age := { d.age with slack := arrSet 0 d.age.slack p slack, nbti := arrSet 0 d.age.nbti p nbti } }
  let x := d.pair p
  let top := vMax x.step
  let guard_ := d.fld AGEING_CFG_GUARD
  if x.vmv = 0 then d
  else if slack < guard_ then
    if x.vmv < top then (d.setPair p { x with vmv := min top (x.vmv + 5) }).slackFine p else d.slackLow p
  else if guard_ + 20 < slack then (d.setPair p { x with vmv := max 650 (x.vmv - 5) }).slackFine p
  else d.slackFine p

/-- The plan of one pair in service (R541 to R543). -/
def Dev.planInService (d : Dev) (steps : List (Option Nat)) (p : Nat) : Dev :=
  match steps[p]? with
  | none => d
  | some a =>
    if d.outOfUse p then d
    else
      match planStep (d.fld (AGEING_PAIR_STEP p)) a with
      | none => (d.flag AGEING_ISTAT_RETIRE).present fiRetire p
      | some s =>
        let d := if s = d.fld (AGEING_PAIR_STEP p) then d else d.setStep p s
        if d.pairState p = stActive then d else d.setPair p ((d.pair p).takeStep s)

/-- The planner after every 500 operating hours (R541, R544). -/
def plannerRun (steps : List (Option Nat)) (d : Dev) : Dev :=
  let h := d.hours
  if h < d.age.planHours + 500 then d
  else
    let d := { d with age := { d.age with planHours := h }, persist := { d.persist with hours := h } }
    let d := ((List.range 16).foldl (fun d p => d.planInService steps p) d).noteSlow
    (List.range 16).foldl (fun d lp => d.checkShort lp) d

/-! ### The commands -/

/-- BIST_START (R528). -/
def execBistStart (s : State) : Host.Outcome State Fault Refusal := s.onDev bistStart

/-- BIST_CONDITION_CHECK (R529). -/
def execBistConditionCheck (clockKHz supplyMv : Nat) (results : List DWord) (s : State) :
    Host.Outcome State Fault Refusal := s.onDev (bistCheck clockKHz supplyMv results)

/-- BIST_END (R530). -/
def execBistEnd (results : List DWord) (s : State) : Host.Outcome State Fault Refusal := s.onDev (bistEnd results)

/-- REPAIR (R532). -/
def execRepair (s : State) : Host.Outcome State Fault Refusal := s.onDev repair

/-- WATCH_PERIOD_END (R533). -/
def execWatchPeriodEnd (s : State) : Host.Outcome State Fault Refusal := s.onDev watchPeriodEnd

/-- MARCH_WORD (R534). -/
def execMarchWord (inst : Fin 153) (word : Nat) (stuck : List (Fin 75)) (s : State) :
    Host.Outcome State Fault Refusal := s.onDev (marchWord inst word stuck)

/-- OFFER (R536). -/
def execOffer (p : Fin 16) (budget : BitVec 16) (s : State) : Host.Outcome State Fault Refusal :=
  s.onDev (offer p budget.toNat)

/-- OFFER_ABANDON (R537). -/
def execOfferAbandon (p : Fin 16) (s : State) : Host.Outcome State Fault Refusal := s.onDev (offerAbandon p)

/-- SPARE_SLICE (R536, R538). -/
def execSpareSlice (n : Fin 16) (fail : Bool) (s : State) : Host.Outcome State Fault Refusal := s.onDev (spareSlice n fail)

/-- LOOPBACK (R539). -/
def execLoopback (block : LoopBlock) (pass : Bool) (s : State) : Host.Outcome State Fault Refusal :=
  s.onDev (loopback block pass)

/-- VOLTAGE_ADJUST (R540). -/
def execVoltageAdjust (n : Fin 16) (slack nbti : Nat) (s : State) : Host.Outcome State Fault Refusal :=
  s.onDev (voltageAdjust n slack nbti)

/-- MARGIN_PLANNER_RUN (R541). -/
def execMarginPlannerRun (projected : List (Option Nat)) (s : State) : Host.Outcome State Fault Refusal :=
  s.onDev (plannerRun projected)

end Sys2Proof.Machine
end

