-- ==== Sys2Proof/Machine/Session.lean ====
section
/-! DEFINITION. Session.lean: the end of a debug session and of a debug grant (R506, R553, R436). -/

namespace Sys2Proof.Machine

/-- The interface holds the physical pair halted, or has asked it to halt. -/
def Pair.heldByDebug (x : Pair) : Bool := x.dbg.halted || x.dbg.haltAsked || x.capture.contains .halt

/-- A pair that the interface holds halted is resumed, through its capture stage. -/
def Dev.resumeHeld (d : Dev) (p : Nat) : Dev := if (d.pair p).heldByDebug then d.capture p .resume else d

/-- Every comparator is disabled. -/
def Dev.clearComparators (d : Dev) : Dev :=
  (List.range 128).foldl (fun d i => d.setFld (DEBUG_COMPCTL_EN (i / 8) (i % 8)) 0) d

/-- The session ends (R553): pairs resumed, comparators off, DBGATT clear; an emulated STANDBY goes on from its wait. -/
def Dev.endSession (d : Dev) : Dev :=
  if !d.session then d
  else
    let d := ((List.range 16).foldl Dev.resumeHeld d).clearComparators
    let d := ((d.setFld SYSCTL_STAT_DBGATT 0).setFld DEBUG_STAT_SESSION 0).flag DEBUG_ISTAT_SESSION
    if d.on SYSCTL_STAT_EMUL then
      { d.setFld SYSCTL_STAT_EMUL 0 with start := { d.start with waitFrom := some d.ticks } }
    else d

/-- The end of a grant ends the session that is open (R506). -/
def Dev.grantEnded (d : Dev) : Dev := d.endGrant.endSession

/-- The device after a change that may have ended a grant: its end ends the session. -/
def Dev.withGrantEnd (old new : Dev) : Dev :=
  if old.trust.grant.isSome && new.trust.grant.isNone then new.endSession else new

end Sys2Proof.Machine
end

