-- ==== Sys2Proof/Machine/Trust.lean ====
section
/-! DEFINITION. Trust.lean: signed commands (R490 to R497): reassembly, checks, judgement, effects and answers; the
attestation key (R502 to R504); grants (R506); the audit (R507). Every command here is one signed block. -/

namespace Sys2Proof.Machine

/-! ### The block (R491) -/

/-- A signed command: signer, code, counter, argument, path. -/
structure SignedCmd where
  role : Nat
  slot : Nat
  code : Nat
  ctr : Nat
  arg : List Byte
  via : SignedVia
deriving DecidableEq, Repr

/-- The command of a row's operand. -/
def cmdOf (code : Nat) (b : SignedArg) : SignedCmd :=
  { role := b.role, slot := b.slot, code := code, ctr := b.ctr, arg := b.arg, via := b.via }

/-- The command that a block spells. -/
def Block.command (b : Block) : SignedCmd :=
  match b.row with
  | some x => cmdOf x.code x.arg
  | none =>
  let n := min 1024 (beAt b.bytes 20 2)
  { role := beAt b.bytes 1 1, slot := beAt b.bytes 2 1, code := beAt b.bytes 3 1, ctr := beAt b.bytes 12 8
    arg := (b.bytes.drop 24).take n, via := b.via }

/-- Bytes of a signature. -/
def sigLen : Nat := 2820

/-- VER, ARGLEN and the length of a block; ENROL_MAKER is unsigned. -/
def Block.formatOk (b : Block) : Bool :=
  let n := beAt b.bytes 20 2
  decide (24 ≤ b.bytes.length) && beAt b.bytes 0 1 = 1 && decide (n ≤ 1024)
    && b.bytes.length = 24 + n + (if beAt b.bytes 3 1 = 0x10 then 0 else sigLen)

/-- The argument's layout is legal for the code (R493; the layouts that no rule gives are a DESIGN CHOICE). -/
def argLegal (code : Nat) (arg : List Byte) : Bool :=
  let n := arg.length
  if code = 0x07 then n = 2 && decide (beNat arg < 16)
  else if code = 0x10 then n = 128
  else if code = 0x11 then n = 160
  else if code = 0x16 then
    n = 2 && (decide (beAt arg 1 1 < 2) && (beAt arg 0 1 = 1 || beAt arg 0 1 = 2) || (beAt arg 0 1 = 0 && decide (beAt arg 1 1 < 4)))
  else if code = 0x17 then n = 65 && decide (beAt arg 0 1 < 4)
  else if code = 0x18 then n = 33 && decide (beAt arg 0 1 < 4)
  else if code = 0x19 then n = 1 && decide (beNat arg < 4)
  else if code = 0x1A then n = 2 && decide (beAt arg 0 1 < 2) && decide (beAt arg 1 1 < 2)
  else if code = 0x1B then
    decide (8 ≤ n) && decide (beAt arg 3 1 ≤ 4) && n = 8 + 16 * beAt arg 3 1
      && decide (1 ≤ beAt arg 4 4) && decide (beAt arg 4 4 ≤ 86400)
  else if code = 0x1C then n = 32
  else if signedCode code then n = 0
  else true

/-! ### Status values (R493) -/

def stFormat : Nat := 0x10
def stDevice : Nat := 0x11
def stRoot : Nat := 0x12
def stRights : Nat := 0x13
def stReplay : Nat := 0x14
def stSignature : Nat := 0x15
def stPath : Nat := 0x16
def stBusy : Nat := 0x17

/-- The counter of a role. -/
def Dev.roleCtr (d : Dev) (role : Nat) : Nat := arrGet 0 d.persist.ctrs role

/-- A code that only the Tender wire brings (R497). -/
def tenderOnly (code : Nat) : Bool := code = 0x10 || code = 0x11 || code = 0x1B

/-- Check 4 (R493, R497): a code absent from both tables ends UNKNOWN later, and ENROL_MAKER, whose block has ROLE 2, is
judged by its state. An installer has no right to revoke a maker's root (R489). -/
def Dev.rightsOk (d : Dev) (c : SignedCmd) : Bool :=
  !(signedCode c.code) || (c.code = 0x10 && c.role = 2) ||
    (rightOf c.code c.role d.lcs d.persist.opInstall && !(c.code = 0x16 && c.role = 1 && beAt c.arg 0 1 = 2))

/-- The status of the first check that fails, 0 where none does (R493). `fmt`, `dev` and `sig` are the outcomes of checks 1,
2 and 6 on the block's bytes. -/
def Dev.blockStatus (d : Dev) (c : SignedCmd) (fmt dev sig : Bool) : Nat :=
  if !fmt || !(argLegal c.code c.arg) then stFormat
  else if !dev then stDevice
  else if c.code != 0x10 && !(d.usable c.role c.slot) then stRoot
  else if !(d.rightsOk c) then stRights
  else if c.ctr ≤ d.roleCtr c.role then stReplay
  else if c.code != 0x10 && !sig then stSignature
  else if tenderOnly c.code && c.via != .tender then stPath
  else 0

/-! ### Conditions of the commands of R497 -/

/-- The number of a role's usable slots. -/
def Dev.usableCount (d : Dev) (role : Nat) : Nat := ((List.range 4).filter (fun s => d.usable role s)).length

/-- A root revoked or emptied (R489). -/
def Dev.revoke (d : Dev) (role slot : Nat) : Dev :=
  if role = 0 then { d with persist := { d.persist with opRoots := arrSet [] d.persist.opRoots slot [] } }
  else { d with trust := { d.trust with revoked := arrSet false d.trust.revoked (2 * role + slot) true } }

/-- REVOKE_ROOT is not refused (R489). -/
def Dev.mayRevoke (d : Dev) (c : SignedCmd) : Bool :=
  let role := beAt c.arg 0 1
  let slot := beAt c.arg 1 1
  let d' := d.revoke role slot
  !(role = c.role && slot = c.slot)
    && (role = 0 || d'.usableCount role != 0)
    && !(role = 0 && d.persist.opCosign && d.usable 0 slot && d'.usableCount 0 = 0)

/-- A slot may be installed: it passes R499 and is not being written (R501). -/
def Dev.mayInstall (d : Dev) (slot : Nat) : Bool :=
  d.verifySlot (slot = 1) = 0 && !(match d.nvs.slotOp with | some o => o.tgt = slot | none => false)

/-- The modes, states and keys that the table of R497 and the rules of the commands ask for. -/
def Dev.signedMet (d : Dev) (c : SignedCmd) : Bool :=
  let m := d.mode
  if c.code = 0x10 then d.lcs = lcBlank
  else if c.code = 0x11 then d.trust.att = .ready && (m = modeConfig || m = modeMaker)
  else if c.code = 0x12 then d.trust.att = .none && m = modeMaker
  else if c.code = 0x13 || c.code = 0x17 || c.code = 0x19 then m = modeConfig
  else if c.code = 0x14 then m = modeConfig || m = modeSafeStop || m = modeFog
  else if c.code = 0x15 then d.lcs != lcScrapped
  else if c.code = 0x16 then (m = modeConfig || m = modeFog) && d.mayRevoke c
  else if c.code = 0x18 then m = modeConfig || d.running || m = modeSafeStop
  else if c.code = 0x1A then m != modeBoot && m != modeStandby && d.mayInstall (beAt c.arg 0 1)
  else if c.code = 0x1C then d.trust.att = .ready && m != modeStandby && decide (d.trust.attNext < 2 ^ 40)
  else true

/-! ### Attestation (R502 to R504) -/

/-- A list cut or filled with zero bytes to `n` bytes. -/
def fixLen (n : Nat) (l : List Byte) : List Byte := (l ++ List.replicate (n - l.length) 0).take n

/-- ROLE.STATE as the statement gives it. -/
def stateCode (s : Nat) : Nat := if s = stActive then 1 else if s = stFenced then 2 else if s = stRetired then 3 else 0

/-- The states of pairs 0 to 15, 2 bits each. -/
def Dev.stateBits (d : Dev) : Nat := ((List.range 16).map (fun p => stateCode (d.pairState p) * 4 ^ p)).foldl (· + ·) 0

/-- The statement of R504. -/
def Dev.statement (d : Dev) (nonce : List Byte) : List Byte :=
  beBytes 1 1 ++ beBytes 1 d.lcs ++ beBytes 1 d.mode ++ beBytes 1 (d.fld SYSCTL_STAT_BOOTSLOT) ++ beBytes 8 d.trust.devuid
    ++ nonce ++ beBytes 8 d.islandTime ++ beBytes 4 d.persist.arb ++ beBytes 8 d.start.imgVer
    ++ fixLen 32 d.start.imgDigest ++ beBytes 4 d.stateBits ++ beBytes 4 0

/-- The block of the next index is reserved before its first index is used; a block that starts a new multiple of 2^20
blocks blows an anchor bit (R503). -/
def Dev.reserveAtt (d : Dev) : Dev :=
  if d.trust.attNext < d.trust.attEnd then d
  else
    let b := d.trust.attNext / 1024
    let d := { d with persist := { d.persist with attBlock := b + 1 }
                      trust := { d.trust with attEnd := 1024 * (b + 1) } }.journal 0x35 [b]
    if b % 2 ^ 20 = 0 && b != 0 then
      { d with trust := { d.trust with attAnchor := d.trust.attAnchor + 1 } }.journal 0x34 [b / 2 ^ 20]
    else d

/-- ATTEST (R504): the statement and its signature under the next index, which is then used up. -/
def Dev.attest (d : Dev) (nonce : List Byte) : List Byte × Dev :=
  let d := d.reserveAtt
  let i := d.trust.attNext
  let st := d.statement nonce
  let sig := beBytes 5 i ++ fixLen 5600 (Config.attSignature d.trust.attSeed i st)
  let d := { d with trust := { d.trust with attNext := i + 1 } }
  (st ++ sig, if 2 ^ 40 - 2 ^ 30 ≤ i + 1 then d.flag TRUST_ISTAT_ATTLOW else d)

/-! ### Effects (R487 to R490, R497, R501, R502, R506) -/

/-- The transport key that SET_KEY stores (R490). -/
def Dev.newKey (d : Dev) (w : List Byte) (ctr : Nat) : List Byte :=
  List.zipWith (fun a b => a ^^^ b) w (shake256 (d.trust.iwk ++ beBytes 8 d.trust.devuid ++ beBytes 8 ctr) 32)

/-- The grant that an argument holds (R506). -/
def grantOf (arg : List Byte) (now : Nat) : Grant :=
  { pairs := beAt arg 0 2, rights := beAt arg 2 1, start := now, dur := beAt arg 4 4
    regions := (List.range (beAt arg 3 1)).map (fun i =>
      (beAt arg (8 + 16 * i) 4, beAt arg (12 + 16 * i) 4, beAt arg (16 + 16 * i) 4)) }

/-- An installed slot (R501): journaled, made active where ACTIVATE is 1, and in FOG a device reset. -/
def Dev.install (d : Dev) (slot act : Nat) : Dev :=
  let d := d.journal 0x3B [slot, act]
  if act = 0 then d
  else
    let d := d.setActive (slot = 1)
    if d.mode = modeFog then d.deviceReset trigFog else d

/-- The effect of a command of R497 that is not refused, and what its answer adds. -/
def Dev.signedEffect (d : Dev) (c : SignedCmd) (seed : Nat) : List Byte × Dev :=
  let a := beAt c.arg 0 1
  let rest := c.arg.drop 1
  if c.code = 0x10 then
    ([], ({ d with trust := { d.trust with
      makerRoots := [(0, c.arg.take 64), (1, c.arg.drop 64)] } }.flag TRUST_ISTAT_ROOTCHG).lifecycleTo lcManufacture)
  else if c.code = 0x11 then
    ([], ({ d with trust := { d.trust with
      instRoots := [(0, c.arg.take 64), (1, (c.arg.drop 64).take 64)], iwk := c.arg.drop 128 } }.flag
        TRUST_ISTAT_ROOTCHG).lifecycleTo lcProvisioned)
  else if c.code = 0x12 then ([], { d with trust := { d.trust with att := .generating, attSeed := seed, attFrom := d.ticks } })
  else if c.code = 0x13 then ([], d.lifecycleTo lcDeployed)
  else if c.code = 0x14 then ([], d.lifecycleTo lcReturned)
  else if c.code = 0x15 then ([], d.lifecycleTo lcScrapped)
  else if c.code = 0x16 then
    let d := (d.revoke a (beAt c.arg 1 1)).flag TRUST_ISTAT_ROOTCHG
    ([], if a = 0 then d.journal 0x37 [beAt c.arg 1 1, 0] else d)
  else if c.code = 0x17 then
    ([], ({ d with persist := { d.persist with opRoots := arrSet [] d.persist.opRoots a rest } }.journal 0x37
      [a, 1] rest).flag TRUST_ISTAT_ROOTCHG)
  else if c.code = 0x18 then
    ([], ({ d with persist := { d.persist with keys := mapPut d.persist.keys a (d.newKey rest c.ctr) } }.journal 0x36
      [a]).flag TRUST_ISTAT_KEYSET)
  else if c.code = 0x19 then
    ([], { d with persist := { d.persist with opCosign := a.testBit 0, opInstall := a.testBit 1 } }.journal 0x38 [a])
  else if c.code = 0x1A then ([], d.install a (beAt c.arg 1 1))
  else if c.code = 0x1B then
    ([], ({ d with trust := { d.trust with grant := some (grantOf c.arg d.ticks) } }.journal 0x39
      [1, beAt c.arg 0 2, beAt c.arg 2 1, beAt c.arg 4 4]).flag TRUST_ISTAT_GRANTCHG)
  else d.attest c.arg

/-! ### Answers (R496) -/

/-- The fragments of an answer: at most 1,456 bytes each behind their header (R492). -/
def fragmentsOf (id : Nat) (bytes : List Byte) : List (List Byte) :=
  let n := (bytes.length + 1455) / 1456
  (List.range n).map (fun i =>
    beBytes 2 id ++ beBytes 1 (i * 16 + n) ++ beBytes 1 0 ++ (bytes.drop (1456 * i)).take 1456)

/-- What an answer says. -/
def Answer.bytes (a : Answer) : List Byte :=
  beBytes 1 1 ++ beBytes 1 a.code ++ beBytes 1 a.status ++ beBytes 1 0 ++ beBytes 8 a.ctr ++ a.extra

/-- A reply of the Tender wire becomes the result of the work that is PENDING. -/
def Dev.workResult (d : Dev) (status : Nat) (payload : List Byte) : Dev :=
  match d.tdr.work with
  | some w =>
    if w.result.isNone then
      { d with tdr := { d.tdr with work := some { w with result := some { status := status, tag := w.tag, payload := payload } } } }
    else d
  | none => d

/-- A block is answered on the path by which it came (R496), and LASTCMD records it. -/
def Dev.answerBlock (d : Dev) (role : Nat) (a : Answer) : Dev :=
  let d := ((d.setFld TRUST_LASTCMD_CODE a.code).setFld TRUST_LASTCMD_STATUS a.status).setFld TRUST_LASTCMD_ROLE role
  let d := (d.setFld TRUST_LASTCMD_PATH (if a.via = .tender then 1 else 0))
  let d := { d with trust := { d.trust with answer := some a } }
  match a.via with
  | .tender => d.workResult 0 a.bytes
  | .transport src keyid id => (fragmentsOf id a.bytes).foldl (fun d f => d.sendSigned keyid src f) d

/-! ### Failures (R493, R507, R508) -/

/-- The counts of failed blocks go to the journal, at most once a second. -/
def Dev.auditCounts (d : Dev) : Dev :=
  let due := match d.trust.auditAt with | some t => d.elapsed t (1000 * msTicks) | none => true
  if due && d.trust.auditPend != 0 then
    { d with trust := { d.trust with auditAt := some d.ticks, auditPend := 0 } }.journal 0x3A [d.trust.auditPend]
  else d

/-- A signature failure (check 6): the eighth within 1 s of island time presents TRUST_SIGFAIL. -/
def Dev.signatureFailed (d : Dev) (role : Nat) : Dev :=
  let ts := (d.trust.sigTimes.filter (fun t => !(d.elapsed t (1000 * msTicks)))) ++ [d.ticks]
  if 8 ≤ ts.length then { d with trust := { d.trust with sigTimes := [] } }.present fiSigfail role
  else { d with trust := { d.trust with sigTimes := ts } }

/-- A block that a check has stopped: counts, flag, audit. -/
def Dev.blockFailed (d : Dev) (role status : Nat) : Dev :=
  let d := if status = stReplay then d.count TRUST_SIGCNT_REPLAY else d.count TRUST_SIGCNT_SIGFAIL
  let d := if stRoot ≤ status ∧ status ≤ stSignature then d.flag TRUST_ISTAT_SIGFAIL else d
  let d := if status = stSignature then d.signatureFailed role else d
  { d with trust := { d.trust with auditPend := d.trust.auditPend + 1 } }.auditCounts

/-! ### Judgement (R493, R494, R497) -/

/-- The counter of a role set to CTR, with the sealed entry that records the command (R494, R507). -/
def Dev.recordBlock (d : Dev) (c : SignedCmd) (status : Nat) : Dev :=
  { d with persist := { d.persist with ctrs := arrSet 0 d.persist.ctrs c.role c.ctr } }.journal 0x30
    [c.role, c.slot, c.code, c.ctr, status]

/-- A slot below the floor presents TRUST_ROLLBACK; the cause of an INSTALL's failure is journaled (R501, R508). -/
def Dev.installFailed (d : Dev) (c : SignedCmd) : Dev :=
  if c.code = 0x1A then
    let slot := beAt c.arg 0 1
    let (cause, d) := d.checkSlot (slot = 1)
    if cause = 0 then d else d.journal 0x27 [c.code, d.mode, slot, cause]
  else d

/-- A command that has passed every check (R493): its status, what its answer adds, and the device. A full journal takes
no S entry, so it refuses every one of them (R523). -/
def Dev.judgeSigned (d : Dev) (c : SignedCmd) (seed : Nat) : Nat × List Byte × Dev :=
  if !(signedCode c.code) then (cmdUnknown, [], d.cmdStat c.code cmdUnknown)
  else if d.nvs.full then (cmdRefused, [], (d.refuse c.code false).cmdStat c.code cmdRefused)
  else if c.code ≤ 8 then
    let st := (d.judge c.code (beNat c.arg)).1
    (st, [], ((d.recordBlock c st).judge c.code (beNat c.arg)).2)
  else if !(d.signedMet c) then
    let d := (d.recordBlock c cmdRefused).installFailed c
    (cmdRefused, [], (d.refuse c.code true).cmdStat c.code cmdRefused)
  else
    let (x, d') := ((d.recordBlock c cmdDone).cmdStat c.code cmdDone).signedEffect c seed
    (cmdDone, x, d.withGrantEnd d')

/-- The command performs a device reset, which leaves no answer (DESIGN CHOICE: no rule orders the two). -/
def Dev.resetsDevice (d : Dev) (c : SignedCmd) : Bool :=
  c.code = 0x06 || c.code = 0x08 || (c.code = 0x1A && d.mode = modeFog && beAt c.arg 1 1 = 1)

/-- One block: its checks, judgement, effect and answer. -/
def Dev.runBlock (d : Dev) (c : SignedCmd) (fmt dev sig : Bool) (seed : Nat) : Dev :=
  let st := d.blockStatus c fmt dev sig
  if st != 0 then (d.blockFailed c.role st).answerBlock c.role { via := c.via, code := c.code, status := st, ctr := c.ctr }
  else
    let (st, x, d') := d.judgeSigned c seed
    if st = cmdDone && d.resetsDevice c then d'
    else d'.answerBlock c.role { via := c.via, code := c.code, status := st, ctr := c.ctr, extra := x }

/-! ### Reassembly and waiting (R492, R495) -/

/-- Places in which a complete block may stand: the one under verification and two that wait. -/
def blockPlaces : Nat := 3

/-- A complete block arrives (R495). -/
def Dev.blockArrives (d : Dev) (b : Block) : Dev :=
  if blockPlaces ≤ d.trust.waiting.length then
    let c := b.command
    d.answerBlock c.role { via := b.via, code := c.code, status := stBusy, ctr := c.ctr }
  else { d with trust := { d.trust with waiting := d.trust.waiting ++ [b] } }

/-- A command of R497 by its row: its block is well formed, addressed to this device and rightly signed. While the island
carries out a command, the block waits (R420). -/
def signedRow (code : Nat) (b : SignedArg) (d : Dev) (seeds : Nat := 0) : Dev :=
  if d.carrying then d.blockArrives { bytes := [], via := b.via, row := some { code := code, arg := b, seeds := seeds } }
  else d.runBlock (cmdOf code b) true true true seeds

/-- A reassembly with a fragment in its place. -/
def Reassembly.put (r : Reassembly) (idx : Nat) (bytes : List Byte) : Reassembly :=
  if (mapFind r.got idx).isSome then r else { r with got := mapPut r.got idx bytes }

/-- The reassembly that a fragment belongs to. -/
def Reassembly.is (r : Reassembly) (src id : Nat) : Bool := r.src = src && r.id = id

/-- A fragment joins its block, or begins one; the last one completes it (R492). -/
def Dev.takeFragment (d : Dev) (f : Fragment) : Dev :=
  let id := beAt f.bytes 0 2
  let idx := beAt f.bytes 2 1 / 16
  let cnt := beAt f.bytes 2 1 % 16
  if f.bytes.length < 4 || cnt = 0 || 4 < cnt || cnt ≤ idx then d
  else
    let t := d.trust
    let found := t.parts.find? (fun r => r.is f.src id)
    if found.isNone && decide (2 ≤ t.parts.length) then d.count TRUST_SIGCNT_FRAGLOST
    else
      let r := (found.getD { src := f.src, id := id, keyid := f.keyid, cnt := cnt, got := [], first := d.ticks }).put idx
        (f.bytes.drop 4)
      let others := t.parts.filter (fun r => !(r.is f.src id))
      if r.cnt ≤ r.got.length then
        ({ d with trust := { t with parts := others } }).blockArrives
          { bytes := r.got.flatMap (fun (e : Nat × List Byte) => e.2), via := .transport r.src (Fin.ofNat 4 r.keyid) r.id }
      else { d with trust := { t with parts := others ++ [r] } }

/-- The oldest accepted SIGNED message reaches the island's reassembly. -/
def fragmentReceive (d : Dev) : Dev :=
  match d.trust.frags with
  | [] => d
  | f :: t => { d with trust := { d.trust with frags := t } }.takeFragment f

/-- A block whose fragments have not all arrived within 100 ms of the first is discarded (R492). -/
def reassemblyTimeout (d : Dev) : Dev :=
  match d.trust.parts.find? (fun r => d.elapsed r.first (100 * msTicks)) with
  | some r =>
    { d with trust := { d.trust with parts := d.trust.parts.filter (fun x => !(x.is r.src r.id)) } }.count
      TRUST_SIGCNT_FRAGLOST
  | none => d

/-- The oldest complete block is checked and carried out (R493, R495). While the island carries out a command, it waits
(R420). -/
def blockCheck (d : Dev) : Dev :=
  if d.carrying then d else
  match d.trust.waiting with
  | [] => d
  | b :: t =>
    let d := { d with trust := { d.trust with waiting := t } }
    let c := b.command
    match b.row with
    | some x => d.runBlock c true true true x.seeds
    | none =>
    let n := 24 + beAt b.bytes 20 2
    let sig := d.usable c.role c.slot && Config.xmssVerify (d.rootOf c.role c.slot) (b.bytes.take n) (b.bytes.drop n)
    let (i, d) := if c.code = 0x12 then d.fresh else (0, d)
    d.runBlock c b.formatOk (beAt b.bytes 4 8 = d.trust.devuid) sig (Config.freeNat i)

/-! ### The attestation key and the noise source (R502) -/

/-- Both first trees are built. -/
def attReady (d : Dev) : Dev :=
  if d.trust.att = .generating then { d with trust := { d.trust with att := .ready } } else d

/-- A health test has failed: seeds being grown are discarded. -/
def entropyFailed (d : Dev) : Dev :=
  let d := if d.trust.att = .generating then { d with trust := { d.trust with att := .none, attSeed := 0 } } else d
  (d.flag TRUST_ISTAT_ENTROPY).present fiEntropy 0

/-- A grant's DURATION has passed in island time (R506). -/
def grantEnd (d : Dev) : Dev :=
  match d.trust.grant with
  | some g => if d.elapsed g.start (g.dur * 1000 * msTicks) then d.grantEnded else d
  | none => d

/-! ### The commands -/

/-- SIGNED_FRAGMENT_RECEIVE (R492). -/
def execSignedFragmentReceive (s : State) : Host.Outcome State Fault Refusal := s.onDev fragmentReceive

/-- REASSEMBLY_TIMEOUT (R492). -/
def execReassemblyTimeout (s : State) : Host.Outcome State Fault Refusal := s.onDev reassemblyTimeout

/-- SIGNED_BLOCK_CHECK (R493). -/
def execSignedBlockCheck (s : State) : Host.Outcome State Fault Refusal := s.onDev blockCheck

/-- ENROL_MAKER (R485, R497). -/
def execEnrolMaker (b : SignedArg) (s : State) : Host.Outcome State Fault Refusal := s.onDev (signedRow 0x10 b)

/-- PROVISION (R497). -/
def execProvision (b : SignedArg) (s : State) : Host.Outcome State Fault Refusal := s.onDev (signedRow 0x11 b)

/-- GENKEY (R502): `seeds` numbers what the noise source gives. -/
def execGenkey (b : SignedArg) (seeds : Nat) (s : State) : Host.Outcome State Fault Refusal :=
  s.onDev (fun d => signedRow 0x12 b d seeds)

/-- ATTKEY_READY (R502). -/
def execAttkeyReady (s : State) : Host.Outcome State Fault Refusal := s.onDev attReady

/-- TRUST_ENTROPY (R502). -/
def execTrustEntropy (s : State) : Host.Outcome State Fault Refusal := s.onDev entropyFailed

/-- DEPLOY (R486). -/
def execDeploy (b : SignedArg) (s : State) : Host.Outcome State Fault Refusal := s.onDev (signedRow 0x13 b)

/-- RETURN (R487). -/
def execReturnToMaker (b : SignedArg) (s : State) : Host.Outcome State Fault Refusal := s.onDev (signedRow 0x14 b)

/-- SCRAP (R487). -/
def execScrap (b : SignedArg) (s : State) : Host.Outcome State Fault Refusal := s.onDev (signedRow 0x15 b)

/-- REVOKE_ROOT (R489). -/
def execRevokeRoot (b : SignedArg) (s : State) : Host.Outcome State Fault Refusal := s.onDev (signedRow 0x16 b)

/-- SET_OPROOT (R488). -/
def execSetOproot (b : SignedArg) (s : State) : Host.Outcome State Fault Refusal := s.onDev (signedRow 0x17 b)

/-- SET_KEY (R490). -/
def execSetKey (b : SignedArg) (s : State) : Host.Outcome State Fault Refusal := s.onDev (signedRow 0x18 b)

/-- SET_POLICY (R497). -/
def execSetPolicy (b : SignedArg) (s : State) : Host.Outcome State Fault Refusal := s.onDev (signedRow 0x19 b)

/-- INSTALL (R501). -/
def execInstall (b : SignedArg) (s : State) : Host.Outcome State Fault Refusal := s.onDev (signedRow 0x1A b)

/-- DEBUG_GRANT (R506). -/
def execDebugGrant (b : SignedArg) (s : State) : Host.Outcome State Fault Refusal := s.onDev (signedRow 0x1B b)

/-- GRANT_END (R506). -/
def execGrantEnd (s : State) : Host.Outcome State Fault Refusal := s.onDev grantEnd

/-- ATTEST (R504). -/
def execAttest (b : SignedArg) (s : State) : Host.Outcome State Fault Refusal := s.onDev (signedRow 0x1C b)

end Sys2Proof.Machine
end

