-- ==== Sys2Proof/Machine/IoPort.lean ====
section
/-! DEFINITION. IoPort.lean: the reads and writes of I/O registers by any master (R11 to R17, R28): the fields that show the
present state of their blocks, the actions of reads and writes, and REGISTER_WRITE. The start of a DMA channel stands
here, since a register write makes it (R564). -/

namespace Sys2Proof.Machine

/-! ### Registers as they read -/

/-- The word with a one-bit field at a truth value. -/
def putBit (w : Word) (lo : Nat) (b : Bool) : Word := withField w lo 1 (if b then 1 else 0)

/-- BOOT_CONFIRM remaining in units of 10 ms (R428). -/
def Dev.confirmLeft (d : Dev) : Nat :=
  match d.start.s7End with
  | some t => if d.on SYSCTL_BOOTSTAT_CONFIRMED then 0 else d.start.confirm - (d.ticks - t) / (10 * msTicks)
  | none => 0

/-- BEACON is on its 1 kHz wave (R67 to R69, R433): in a powered device in RUN and DEGRADED with no F4 or F5 reaction in progress; in FOG
during the bursts of the reason code. -/
def Dev.beaconOn (d : Dev) : Bool :=
  if d.held then false
  else if d.running then !d.on SAFEISL_STAT_REACT && d.fld KEEPER_STAT_STATE != 4
  else if d.mode = modeFog then
    let c := d.fld SYSCTL_FOGREASON_CODE
    let t := (d.ticks - d.start.fogAt) / msTicks % (20 * c + 200 * (c - 1) + 2000)
    decide (t < 220 * (c - 1) + 20) && decide (t % 220 < 20)
  else false

/-- BEACON's level: 500 µs on and 500 µs off while it toggles. -/
def Dev.beacon (d : Dev) : Bool := d.beaconOn && decide (d.ticks % msTicks < 300000)

/-- The gate detectors of physical pair `n` as LANTERN.GATEn shows them. -/
def Dev.gateWord (d : Dev) (n : Nat) : Nat :=
  packFields ((List.range 8).map (fun k => ((d.detector n k).gen, 16 + 2 * k, 2)))
    + maskOf (fun k => (d.detector n k).sent) 8 * 256 + maskOf (fun k => (d.detector n k).armed) 8

/-- The attestation public key's word `w` (TRUST.ATTPKw): its first byte in bits [31:24]. -/
def Dev.attWord (d : Dev) (w : Nat) : Nat :=
  if d.trust.att = .ready then
    let pk := Config.attPublicKey d.trust.attSeed
    beNat ((List.range 4).map (fun i => nth 0 pk (4 * w + i)))
  else 0

/-- The code of TRUST.STAT.ATTKEY (R502). -/
def attCode : AttKey → Nat
  | .none => 0
  | .generating => 1
  | .ready => 2
  | .destroyed => 3

/-- TRUST.STAT as it reads (R484, R488, R497, R499, R502, R506). -/
def Dev.trustStat (d : Dev) : Nat :=
  packFields [(d.lcs, 0, 3), (attCode d.trust.att, 4, 2), (maskOf (fun j => d.usable 0 j) 2, 8, 2),
    (maskOf (fun j => d.usable 1 j) 2, 10, 2), (maskOf (fun j => d.usable 2 j) 4, 12, 4),
    (if d.persist.opCosign then 1 else 0, 16, 1), (if d.persist.opInstall then 1 else 0, 17, 1),
    (if d.trust.grant.isSome then 1 else 0, 18, 1)]

/-- The reserve blocks of the NV store (R510). -/
def reserveBlocks : Nat := 256

/-- A register's stored word with the fields that show present state put in. -/
def Dev.liveWord (d : Dev) (r : Reg) (ix : List Nat) (w : Word) : Word :=
  let i := nth 0 ix 0
  let j := nth 0 ix 1
  let num (n : Nat) : Word := BitVec.ofNat 32 n
  match r with
  | .SYSCTL_STAT => putBit w 8 d.covered
  | .SYSCTL_CMDSTAT => putBit w 31 d.carrying
  | .SYSCTL_BOOTSTAT => withField w 16 16 d.confirmLeft
  | .PAIRCTL_SEGEFF => num ((d.pair i).len + (d.pair i).dueAt * 65536)
  | .PAIRCTL_CKNUM => num (d.pair i).ckNum
  | .INTC_CFG => putBit w 4 (edgeSource j)
  | .INTC_PEND => num (maskOf (fun b => sourceExists (32 * j + b) && d.pendingAt i (32 * j + b)) 32)
  | .EVTMX_CSTAT => putBit (withField w 16 6 (d.waitsOf i)) 0 (d.latch i).isSome
  | .LANTERN_TIMELO => num d.lanternTime
  | .LANTERN_TIMEHI => num (d.lanternTime / 2 ^ 32)
  | .LANTERN_TBANGLE => num ((d.tb i).pos / 65536)
  | .LANTERN_TBSTAT =>
    let x := d.tb i
    putBit (putBit (putBit (putBit (withField w 0 16 (x.pos / turn)) 16 (d.tbValid i)) 17 x.locked) 18 x.held.isSome) 19
      x.holdover
  | .LANTERN_TBVEL => (d.tb i).vel
  | .LANTERN_TBANGREV => num ((d.tb i).pos / turn * 65536 + (d.tb i).pos / 2 ^ 32 % 65536)
  | .LANTERN_GATE => num (d.gateWord i)
  | .PWM_STAT => putBit (withField w 8 4 (d.forceCauses i)) 0 (d.group i).safe
  | .PWM_PIN => num (d.pwmPins i + d.pwmCmd i * 256)
  | .SAFEISL_STAT => putBit (putBit (putBit w 6 d.beaconOn) 8 (d.energised 0)) 9 (d.energised 1)
  | .SAFEISL_TIMELO => num d.islandTime
  | .SAFEISL_TIMEHI => num (d.islandTime / 2 ^ 32)
  | .SAFEISL_REACT => withField (withField w 9 3 (faultRow i).floor) 6 3 (faultRow i).inher
  | .KEEPER_STAT => withField w 16 16 d.kTick
  | .KEEPER_KTIMELO => num d.kTime
  | .KEEPER_KTIMEHI => num (d.kTime / 2 ^ 32)
  | .BUOY_STAT => withField w 8 8 (d.waitingMask i)
  | .TRUST_STAT => num d.trustStat
  | .TRUST_DEVUIDLO => num d.trust.devuid
  | .TRUST_DEVUIDHI => num (d.trust.devuid / 2 ^ 32)
  | .TRUST_ARB => num d.persist.arb
  | .TRUST_FUSEARB => num d.trust.arbAnchor
  | .TRUST_ATTNEXTLO => num d.trust.attNext
  | .TRUST_ATTNEXTHI => num (d.trust.attNext / 2 ^ 32 % 256)
  | .TRUST_CTRLO => num (d.roleCtr i)
  | .TRUST_CTRHI => num (d.roleCtr i / 2 ^ 32)
  | .TRUST_ATTPK => num (d.attWord i)
  | .NVS_STAT =>
    putBit (withField (withField w 16 16 d.nvs.area.gen) 8 8 (d.nvs.area.pages * 100 / areaPages)) 0 d.nvs.active
  | .NVS_SEALLO => num d.nvs.sealedSeq
  | .NVS_SEALHI => num (d.nvs.sealedSeq / 2 ^ 32 % 65536)
  | .NVS_WEAR =>
    num (packFields [(max d.nvs.area0.erases d.nvs.area1.erases / 4, 16, 16), (d.nvs.remapped, 8, 8),
      ((reserveBlocks - d.nvs.remapped) / 2, 0, 8)])
  | .AGEING_STAT => num d.hours
  | .AGEING_PAIR =>
    withField (withField (withField w 24 8 (min 255 (arrGet 0 d.age.slack i))) 12 12 (d.pair i).vmv) 6 6
      (min 63 (arrGet 0 d.age.nbti i))
  | .DEBUG_PSTAT => withField (withField w 16 4 (d.physOf i)) 0 12 (d.pair (d.physOf i)).lead.pc
  | .POWER_STAT =>
    putBit (putBit (withField w 0 2 d.power.source) 3 (decide (3300 ≤ d.power.va))) 4 (decide (3300 ≤ d.power.vb))
  | .POWER_VIN => num (d.power.vinA % 65536 + d.power.vinB * 65536)
  | .POWER_TEMP =>
    let die := d.power.dies.foldl max (d.power.dies.headD 0)
    num (wrap 16 d.power.base + wrap 16 die * 65536)
  | _ => w

/-- What a register reads as. -/
def Dev.readWord (d : Dev) (a : Nat) : Option Word := (regAt a).map (fun x => d.liveWord x.1 x.2 (d.word a))

/-- A read of an I/O register: its value, the error code of R139 and the device. A peek carries out no read action
(R16, R555). -/
def Dev.ioRead (d : Dev) (a : Nat) (peek : Bool) : Nat × Nat × Dev :=
  match regAt a with
  | none => (0, 1, d)
  | some (r, ix) =>
    let v := (d.liveWord r ix (d.word a)).toNat
    (v, 0, if peek then d else d.setWord a (regAfterRead r.fields (d.word a)))

/-! ### DMA channels start (R564) -/

/-- The number of channel `j` of engine `e`; its consumer input and its producer. -/
def dmaChannel (e j : Nat) : Nat := 32 * e + j
def dmaInput (e j : Nat) : Nat := 136 + dmaChannel e j
def dmaProducer (e j : Nat) : Nat := 386 + dmaChannel e j

/-- The channel has a transfer running. -/
def Dev.dmaBusy (d : Dev) (e j : Nat) : Bool := d.on (DMA_CHSTAT_BUSY e j)

/-- A transfer begins. -/
def Dev.dmaBegin (d : Dev) (e j : Nat) (trig : Option Trig) : Dev :=
  let run : DmaRun :=
    { trig := trig, src := d.fld (DMA_CHSRC_SRC e j), dst := d.fld (DMA_CHDST_DST e j), len := d.fld (DMA_CHLEN_LEN e j)
      sio := d.on (DMA_CHCFG_SIO e j), dio := d.on (DMA_CHCFG_DIO e j) }
  { d with dma := mapPut d.dma (dmaChannel e j) run }.flag (DMA_CHSTAT_BUSY e j)

/-- A channel starts: by software's START, which a busy channel drops, or by the trigger that its consumer input holds. -/
def dmaStart (e j : Nat) (sw : Bool) (d : Dev) : Dev :=
  if !(d.on (DMA_CHCFG_EN e j)) then d
  else if sw then (if d.dmaBusy e j then d.flag (DMA_CHSTAT_SWOVR e j) else d.dmaBegin e j none)
  else if !(d.on (DMA_CHCFG_GATED e j)) || d.dmaBusy e j then d
  else
    match d.latch (dmaInput e j) with
    | some t => (d.setLatch (dmaInput e j) none).dmaBegin e j (some t)
    | none => d

/-! ### Writes by block -/

/-- The register may be written only in BOOT and CONFIG: elsewhere the write is refused (R422). -/
def Dev.configWrite (d : Dev) (a : Nat) (w : Word) : Dev :=
  if d.configurable then d.storeReg a w else d.refuse refusedWrite false

/-- SYSCTL. A command comes only from a pair in privileged state and from the island (R420). -/
def Dev.sysctlWrite (d : Dev) (m : Nat) (user : Bool) (a : Nat) (w : Word) : Dev :=
  if a = 0x004 then
    if !((decide (m < 16) && !user) || m = mIsland) then d
    else d.issueCommand .register (bitsOf w.toNat 0 8) (bitsOf w.toNat 8 16)
  else if a = 0x00C then
    let locked := d.on SYSCTL_LOCK_LOCK
    let e := d.configWrite a w
    if d.configurable && !locked then
      let v := e.fld SYSCTL_BOOTCFG_CONFIRM
      { e with persist := { e.persist with bootConfirm := v } }.journal 0x24 [a, v]
    else e
  else if a = 0x018 ∨ a = 0x01C then d.configWrite a w
  else d.storeReg a w

/-- PAIRCTL: SEGMAX's DRAIN lies at or below half its LIMIT. -/
def Dev.pairctlWrite (d : Dev) (a : Nat) (w : Word) : Dev :=
  let n := a / 0x1000 % 16
  let off := a % 0x1000
  if off = 0x004 then
    let d := d.storeReg a w
    let l := d.fld (PAIRCTL_SEGMAX_LIMIT n)
    let d := if d.on (PAIRCTL_LOCK_LOCK n) then d else d.setFld (PAIRCTL_SEGMAX_DRAIN n) (min (d.fld (PAIRCTL_SEGMAX_DRAIN n)) (l / 2))
    d.capture n (.segMax l (d.fld (PAIRCTL_SEGMAX_DRAIN n)))
  else if off = 0x00C then designate n w.toNat d
  else if off = 0x02C then (if w.toNat.testBit 0 then cmptestStart n d else d)
  else d.storeReg a w

/-- INTC: PEND clears edge sources (R175). -/
def Dev.intcWrite (d : Dev) (a : Nat) (w : Word) : Dev :=
  let n := a / 0x1000 % 16
  let off := a % 0x1000
  if off < 0x400 then
    let s := off / 4
    if sourceExists s then d.setFld (INTC_CFG_PRI n s) (bitsOf w.toNat 0 4) else d
  else if off < 0x420 then
    ((bitsList w.toNat 32).map (fun b => 8 * (off - 0x400) + b)).foldl
      (fun d s => if edgeSource s then d.clearEdge n s else d) d
  else if off = 0x440 then swset n (bitsOf w.toNat 0 8) d
  else if off = 0x444 then
    let d := d.storeReg a w
    d.capture (d.physOf n) (.isafeMax (d.fld (INTC_ISAFEMAX_LIMIT n)))
  else d.storeReg a w

/-- EVTMX: the consumer enables and the watch inputs (R374, R382). -/
def Dev.evtmxWrite (d : Dev) (a : Nat) (w : Word) : Dev :=
  let off := a % 0x10000
  if 0x1000 ≤ off then
    let c := (off - 0x1000) / 16
    let r := off % 16
    if r = 0 then cenWrite c false w.toNat d
    else if r = 4 then cenWrite c true w.toNat d
    else if r = 8 then
      let d := d.storeReg a w
      if w.toNat.testBit 0 then watchTake c d else d
    else d.storeReg a w
  else d.storeReg a w

/-- LANTERN: timebases, line samples, ADJ, comparators (R257, R262, R264, R269, R272). -/
def Dev.lanternWrite (d : Dev) (a : Nat) (w : Word) : Dev :=
  let off := a % 0x10000
  if decide (0x100 ≤ off) && decide (off < 0x500) then
    let t := (off - 0x100) / 0x40
    let r := off % 0x40
    if r = 0 then timebaseWrite t w d
    else if r = 4 then
      let old := d.word a
      let d := d.storeReg a w
      if d.tbOn t && old != d.word a then d.restartTb t else d
    else if r = 0x30 then lineSample t w.toNat d
    else if r = 0x34 then adjWrite t w.toNat d
    else d.storeReg a w
  else if 0x1000 ≤ off then
    let c := (off - 0x1000) / 0x20
    let r := off % 0x20
    if r ≤ 8 then d.cmpWrite c r a w
    else if r = 0x18 && w.toNat.testBit 0 then (d.storeReg a w).setFld (LANTERN_CMPSTAT_MISS c) 0
    else d.storeReg a w
  else d.storeReg a w

/-- SAFEISL: LOGREAD, CTL and the reactions (R393, R398). -/
def Dev.safeislWrite (d : Dev) (a : Nat) (w : Word) : Dev :=
  let off := a % 0x10000
  if off = 0x024 then (if w.toNat.testBit 0 then clearFaultCounts d else d)
  else if off = 0x028 then logAck (bitsOf w.toNat 16 8) d
  else if off = 0x004 then
    let d := d.storeReg a w
    if w.toNat.testBit 5 then d.setFld SAFEISL_LOGHEAD_LOST 0 else d
  else if decide (0x400 ≤ off) && decide (off < 0x800) then reactWrite ((off - 0x400) / 4) (bitsOf w.toNat 0 3) d
  else d.storeReg a w

/-- KEEPER: written only by pairs in privileged state and by the island (R402). CLOSE lies above OPEN, a task's MAX at or
above its MIN. -/
def Dev.keeperWrite (d : Dev) (m : Nat) (user : Bool) (a : Nat) (w : Word) : Dev :=
  let off := a % 0x10000
  if !((decide (m < 16) && !user) || m = mIsland) then d
  else if off = 0 then keeperEnable w.toNat d
  else if off = 0x004 then
    let d := d.storeReg a w
    let o := d.fld KEEPER_WIN_OPEN
    if d.on KEEPER_LOCK_LOCK || decide (o < d.fld KEEPER_WIN_CLOSE) then d else d.setFld KEEPER_WIN_CLOSE (o + 1)
  else if off = 0x008 then service m (bitsOf w.toNat 0 16) d
  else if off = 0x028 then (if w.toNat.testBit 31 then evstatClear d else d)
  else if decide (0x100 ≤ off) && decide (off < 0x200) then
    let t := (off - 0x100) / 4
    let d := d.storeReg a w
    if d.on KEEPER_LOCK_LOCK then d
    else d.setFld (KEEPER_TASK_MAX t) (max (d.fld (KEEPER_TASK_MIN t)) (d.fld (KEEPER_TASK_MAX t)))
  else d.storeReg a w

/-- ETH: ADDR, STCFG and VLAN only in BOOT and CONFIG (R422); ADDR is journaled. -/
def Dev.ethWrite (d : Dev) (a : Nat) (w : Word) : Dev :=
  let off := a % 0x10000
  if off = 0 then
    let locked := d.on ETH_LOCK_LOCK
    let e := d.configWrite a w
    if d.configurable && !locked then { e with persist := { e.persist with ethAddr := e.ownAddr } }.journal 0x24 [a, e.ownAddr]
    else e
  else if off = 4 ∨ off = 8 then d.configWrite a w
  else d.storeReg a w

/-- CANXL: recovery, and the widths of R458. -/
def Dev.canWrite (d : Dev) (a : Nat) (w : Word) : Dev :=
  let off := a % 0x10000
  if off < 0x800 then
    let k := off / 0x100 - 1
    let r := off % 0x100
    if r = 0 then d.storeReg a (d.maskEn w)
    else if r = 4 then
      let d := d.storeReg a w
      d.setFld (CANXL_NBT_SJW k) (min (d.fld (CANXL_NBT_SJW k)) (d.fld (CANXL_NBT_SEG2 k)))
    else if r = 8 then
      let d := d.storeReg a w
      d.setFld (CANXL_DBT_SJW k) (min (d.fld (CANXL_DBT_SJW k)) (d.fld (CANXL_DBT_SEG2 k)))
    else if r = 0x10 then (if w.toNat.testBit 0 then startRecovery k d else d)
    else d.storeReg a w
  else d.storeReg a w

/-- NVS: appends and slot operations (R518, R525). -/
def Dev.nvsWrite (d : Dev) (m : Nat) (a : Nat) (w : Word) : Dev :=
  let off := a % 0x10000
  if off = 0x010 then appendWrite w.toNat d
  else if off = 0x020 then
    let op := bitsOf w.toNat 0 2
    slotctlWrite (if op = 3 then 0 else op) m w.toNat d
  else d.storeReg a w

/-- TEST: BISTCTL and the offers (R528, R536). -/
def Dev.testWrite (d : Dev) (a : Nat) (w : Word) : Dev :=
  let off := a % 0x10000
  if off = 0 then bistctlWrite w.toNat d
  else if decide (0x040 ≤ off) && decide (off < 0x080) then offer ((off - 0x040) / 4) (bitsOf w.toNat 0 16) d
  else d.storeReg a w

/-- POWER: SUPCTL switches an output on again. -/
def Dev.powerWrite (d : Dev) (a : Nat) (w : Word) : Dev :=
  if a % 0x10000 = 0x018 then
    let p := d.power
    let p := if w.toNat.testBit 1 then { p with v5off := false } else p
    { d with power := if w.toNat.testBit 0 then { p with v3off := false } else p }
  else d.storeReg a w

/-- DMA: a channel's CFG with START (R564). -/
def Dev.dmaWrite (d : Dev) (a : Nat) (w : Word) : Dev :=
  let e := a / 0x1000 % 16 - 1
  let off := a % 0x1000
  let d := d.storeReg a w
  if decide (0x100 ≤ off) && off % 0x20 = 0x0C && w.toNat.testBit 29 then dmaStart e ((off - 0x100) / 0x20) true d else d

/-- The write of a register in its block. -/
def Dev.blockWrite (d : Dev) (m : Nat) (user : Bool) (a : Nat) (w : Word) : Dev :=
  match a / 0x10000 with
  | 0 => d.sysctlWrite m user a w
  | 1 => d.pairctlWrite a w
  | 2 => d.intcWrite a w
  | 4 =>
    let off := a % 0x10000
    if decide (0x2000 ≤ off) && decide (off < 0x2100) then enableWrite m ((off - 0x2000) / 4) w.toNat d else d.storeReg a w
  | 5 => if a % 0x10000 = 0x050 then etctlWrite w.toNat d else d.storeReg a w
  | 6 => d.evtmxWrite a w
  | 7 => d.lanternWrite a w
  | 8 => d.pwmWrite a w
  | 9 => d.sdfWrite a w
  | 0xA => d.adcWrite a w
  | 0xB => d.posWrite a w
  | 0xC => d.safeislWrite a w
  | 0xD => d.keeperWrite m user a w
  | 0xE => d.ethWrite a w
  | 0xF => d.canWrite a w
  | 0x10 => d.buoyWrite a w
  | 0x12 => d.nvsWrite m a w
  | 0x13 => d.testWrite a w
  | 0x16 => d.powerWrite a w
  | 0x17 => d.dmaWrite a w
  | _ => d.storeReg a w

/-- A write of an I/O register by master `m`: the error code of R139 and the device. -/
def Dev.ioWrite (d : Dev) (m : Nat) (user : Bool) (a : Nat) (w : Word) : Nat × Dev :=
  if (regAt a).isSome then (0, d.blockWrite m user a w) else (1, d)

/-! ### The commands -/

/-- A write to an I/O register by master `m` after its MPU check (R14, R28, R361 to R364). A debug write goes through WRITE,
which adds the interface's own refusals (R554); here it meets R402. -/
def registerWrite (m : Nat) (user : Bool) (a : Nat) (w : Word) (d : Dev) : Dev :=
  let acc : Access := { io := true, addr := a, size := 4, rd := false, wr := true, user := user && decide (m < 16) }
  match d.mpuCheck m acc with
  | some why => d.denied m acc why none
  | none => (d.ioWrite m (user && decide (m < 16)) a w).2

/-- REGISTER_WRITE (R14). -/
def execRegisterWrite (m : Fin 31) (user : Bool) (addr : Nat) (v : Word) (s : State) : Host.Outcome State Fault Refusal :=
  s.onDev (registerWrite m user addr v)

/-- DMA_CHANNEL_START (R564). -/
def execDmaChannelStart (e : Fin 2) (j : Fin 32) (sw : Bool) (s : State) : Host.Outcome State Fault Refusal :=
  s.onDev (dmaStart e j sw)

end Sys2Proof.Machine
end

