-- ==== Sys2Proof/Machine/Target.lean ====
section
/-! DEFINITION. Target.lean: pairs' requests at their targets (R320 to R327, R334 to R338, R351 to R355), the check codes of
the fabric (R343, R344) and MPU.SYNC (R366). -/

namespace Sys2Proof.Machine

/-! ### What a request does at its target -/

/-- A bundle of a fill at an address under the mapping of its decode (R358), its four words until the first error. -/
def Dev.readBundle (d : Dev) (map : Bool) (lp a : Nat) : Nat → List DWord × Nat × Dev
  | 0 => ([], 0, d)
  | n + 1 =>
    let (v, code, d) := d.targetRead lp (targetOf map a)
    if code != 0 then ([], code, d)
    else
      let (rest, code, d) := Dev.readBundle d map lp (a + 8) n
      (BitVec.ofNat 64 v :: rest, code, d)

/-- The bundles of a fill from an address on, each checked by the pair's MPU, until the first that cannot be read (R163,
R363). The first was checked at the pair's port. -/
def Dev.readFill (d : Dev) (r : FabReq) (a : Nat) (first : Bool) : Nat → List DWord × Nat × Dev
  | 0 => ([], 0, d)
  | n + 1 =>
    let acc : Access := { addr := a, size := 32, rd := true, wr := false, user := r.req.user }
    match (if first then none else d.mpuCheck r.lpair acc) with
    | some why => ([], 3, d.denied r.lpair acc why none)
    | none =>
      let (ws, code, d) := d.readBundle r.map r.lpair a 4
      if code != 0 then ([], code, d)
      else
        let (rest, code, d) := Dev.readFill d r (a + 32) false n
        (ws ++ rest, code, d)

/-- An atomic's new value from the old one (R334). -/
def atomicNew (op : ReqOp) (old data n : Nat) : Nat := if op == .aadd then (old + data) % 2 ^ (8 * n) else data

/-- The lock of logical pair `lp` on a bank, from now on; a broken mark that the pair still holds is cleared (R351, R354). -/
def Dev.openLock (d : Dev) (lp inst addr : Nat) : Dev :=
  let d := (d.dropLock lp).clearBroken lp
  { d with fab := { d.fab with locks := d.fab.locks ++ [{ lpair := lp, inst := inst, addr := addr, since := d.ticks }] } }

/-- The request performed: value, error code of R139, a fill's words, and the device. -/
def Dev.perform (d : Dev) (r : FabReq) : Nat × Nat × List DWord × Dev :=
  let q := r.req
  let lp := r.lpair
  let o := r.target % 8
  let cut (v : Nat) : Nat := bitsOf v (8 * o) (8 * q.size)
  let store (d : Dev) : Nat × Nat × List DWord × Dev :=
    let (code, d) := d.targetWrite lp r.goal ((q.data <<< (8 * o)) % 2 ^ 64) (byteMask o q.size)
    (0, code, [], d)
  match q.op with
  | .ld =>
    let (v, code, d) := d.targetRead lp r.goal
    (mergeBytes (cut v) q.fwdData q.fwdMask, code, [], d)
  | .ldLock =>
    match r.goal with
    | .bank inst _ _ =>
      let (v, code, d) := d.targetRead lp r.goal
      if code = 0 then (cut v, 0, [], d.openLock lp inst q.addr) else (0, code, [], d)
    | _ => (0, 1, [], d)
  | .st => store d
  | .stUnlock => store (d.dropLock lp)
  | .unlock => (0, 0, [], d.dropLock lp)
  | .aadd | .aswp =>
    match r.goal with
    | .bank inst word _ =>
      let (v, bad, d) := d.bankRead lp inst word
      if bad then (0, 2, [], d)
      else
        let new := (atomicNew q.op (cut v) q.data q.size <<< (8 * o)) % 2 ^ 64
        (cut v, 0, [], d.bankWrite inst word (mergeBytes v new (byteMask o q.size)))
    | _ => (0, 1, [], d)
  | .fill =>
    let (ws, code, d) := d.readFill r q.addr true q.count
    (0, code, ws, d)
  | .ioRd =>
    let (v, code, d) := d.ioRead q.addr false
    (v, code, [], if q.addr = mpuSyncAddr then d.syncDone lp else d)
  | .ioWr =>
    let (code, d) := d.ioWrite lp q.user q.addr (BitVec.ofNat 32 q.data)
    (0, code, [], d)
  | .busRd | .busWr => (0, 0, [], d)

/-- The answer of a request delivered to its pair, or to its release. -/
def Dev.deliverAnswer (d : Dev) (r : FabReq) (value code : Nat) (words : List DWord) : Dev :=
  let v := if code = 0 then value else r.req.failValue code
  if r.req.op == .fill && !r.req.rel then
    d.answer r.lpair true r.mark r.req.tag r.req.slot v code r.req.addr 0 (some (r.req.dst, words))
  else d.respond r v code

/-- A granted request. -/
def Dev.grantedReq (d : Dev) (id : Nat) : Option FabReq := d.fab.granted.find? (fun r => r.id = id)

/-- The granted requests without one. -/
def Dev.ungrant (d : Dev) (id : Nat) : Dev :=
  { d with fab := { d.fab with granted := d.fab.granted.filter (fun r => r.id != id) } }

/-- The access must wait still: MPU.SYNC for requests under replaced sets (R366), a fill for a bank that another pair has
locked (R351). -/
def Dev.mustHold (d : Dev) (r : FabReq) : Bool :=
  r.syncRead && !(d.syncReady r.lpair)
    || (r.req.op == .fill && d.rangeHeld r.lpair r.req.addr (32 * r.req.count))

/-- Two requests have one target: a bank, whichever its plane, an I/O block, the ROM or the NV store. -/
def FabReq.sameTarget (r s : FabReq) : Bool :=
  match r.finalPoint, s.finalPoint with
  | .bank i _, .bank j _ => i == j
  | x, y => x == y

/-- The response that a target holds to the last immediate-class access of a logical pair is dropped as the pair's next
request reaches that target (R344). -/
def Dev.dropHeld (d : Dev) (r : FabReq) : Dev :=
  { d with fab := { d.fab with held := d.fab.held.filter (fun h => h.req.lpair != r.lpair || !(h.req.sameTarget r)) } }

/-- The request is of a master that is no pair: its access acts within its engine's own command. -/
def FabReq.engine (r : FabReq) : Bool := decide (16 ≤ r.lpair)

/-- The access of a granted request, and its answer: LOCKBREAK where the lock has been broken (R354, R355). -/
def Dev.accessNow (d : Dev) (r : FabReq) : Dev :=
  if r.engine || d.mustHold r then d
  else
    let d := d.dropHeld r
    if d.brokenFor r then ((d.ungrant r.id).clearBroken r.lpair).respondError r 5
    else
      let (v, code, ws, d) := d.perform r
      if (d.grantedReq r.id).isSome then (d.ungrant r.id).deliverAnswer r v code ws else d

/-! ### Two accesses of one word in one fc (R337, R338) -/

/-- The bank, plane and word of a request (R317). -/
def FabReq.bankPlace (r : FabReq) : Option (Nat × Bool × Nat) :=
  match r.goal, (if r.engine then r.route.head? else some r.finalPoint) with
  | .bank _ word _, some (.bank inst plane) => some (inst, plane, word)
  | _, _ => none

/-- The record of a collision: `a` has won on plane A. -/
def Dev.collided (d : Dev) (a b : FabReq) (inst word : Nat) : Dev :=
  let d := (d.count MEMCTL_COLL_COUNT).flag MEMCTL_ISTAT_COLLIDE
  ((d.setFld MEMCTL_COLL_AMST a.lpair).setFld MEMCTL_COLL_BMST b.lpair).setFld MEMCTL_COLLADDR_ADDR (d.dataAddr inst word)

/-- Two granted requests of one word, `a` on plane A: both writes, and `b` loses; a read before a write. -/
def Dev.sameWord (d : Dev) (a b : FabReq) (inst word : Nat) : Dev :=
  if a.req.writes && b.req.writes && !(d.brokenFor a) && !(d.brokenFor b) then
    let d := (d.accessNow a).collided a b inst word
    if b.engine then d.lostWrite b else ((d.dropHeld b).ungrant b.id).respondError b 4
  else if a.req.writes then (d.accessNow b).accessNow a
  else (d.accessNow a).accessNow b

/-- A response held for an immediate-class access is sent again (R344). -/
def Dev.resend (d : Dev) (id : Nat) : Dev :=
  match d.fab.held.find? (fun h => h.req.id = id) with
  | none => d
  | some h => (d.dropHeld h.req).deliverAnswer h.req h.value h.code h.words

/-- A target performs the granted accesses of one fc: those named, at most one on each plane of a bank. -/
def targetAccess (ids : List Nat) (d : Dev) : Dev :=
  match ids with
  | [i, j] =>
    match d.grantedReq i, d.grantedReq j with
    | some a, some b =>
      match a.bankPlace, b.bankPlace with
      | some (ia, pa, wa), some (ib, pb, wb) =>
        if ia = ib ∧ wa = wb ∧ pa ≠ pb then
          (if pb then d.sameWord a b ia wa else d.sameWord b a ia wa)
        else (d.accessNow a).accessNow b
      | _, _ => (d.accessNow a).accessNow b
    | some a, none => (d.accessNow a).resend j
    | none, some b => (d.resend i).accessNow b
    | none, none => (d.resend i).resend j
  | l => l.foldl (fun d i => match d.grantedReq i with | some r => d.accessNow r | none => d.resend i) d

/-! ### Check codes (R343, R344) -/

/-- The record of a check-code failure. -/
def Dev.protFailed (d : Dev) (master : Nat) (response : Bool) : Dev :=
  let d := (d.flag FABRIC_ISTAT_PROT).count FABRIC_PROT_COUNT
  ((d.setFld FABRIC_PROT_DIR (if response then 1 else 0)).setFld FABRIC_PROT_MASTER master).present fiFabProt master

/-- A check code fails (R344): of the request at its target, of the response at the pair's port, or of a repeated
response. The access of any other master fails with UNCORR. -/
def fabProt (id : Nat) (response : Bool) (d : Dev) : Dev :=
  match d.grantedReq id with
  | some r =>
    if r.engine then
      let d := d.ungrant id
      { d with fab := { d.fab with ended := d.fab.ended ++ [(r, 2)] } }.protFailed r.lpair response
    else if !response then ((d.ungrant id).respondError r 2).protFailed r.lpair false
    else if d.mustHold r then d
    else
      let broken := d.brokenFor r
      let d := d.dropHeld r
      let (v, code, ws, d) := if broken then (0, 5, [], d.clearBroken r.lpair) else d.perform r
      if (d.grantedReq id).isNone then d.protFailed r.lpair true
      else
        let d := (d.ungrant id).protFailed r.lpair true
        if r.req.imm then
          { d with fab := { d.fab with held := d.fab.held ++ [{ req := r, value := v, code := code, words := ws }] } }
        else
          let d := if r.req.rel then d.respond r v code else d
          let p := d.physOf r.lpair
          if d.recoverable p then ((d.flag (PAIRCTL_FSTAT_CAPTERR p)).presentPair p pfCapture).mismatch p 3 0 none else d
  | none =>
    match d.fab.held.find? (fun h => h.req.id = id) with
    | some h =>
      if response then ((d.dropHeld h.req).protFailed h.req.lpair true).deliverAnswer h.req 0 2 h.words else d
    | none => d

/-- A master's read of MPU.SYNC completes, once no request under a set that it replaced is under way (R366). -/
def mpuSync (m : Nat) (d : Dev) : Dev :=
  match d.fab.granted.find? (fun r => r.syncRead && r.lpair = m) with
  | some r => d.accessNow r
  | none => if d.syncReady m then d.syncDone m else d

/-- TARGET_ACCESS (R320). -/
def execTargetAccess (ids : List Nat) (s : State) : Host.Outcome State Fault Refusal := s.onDev (targetAccess ids)

/-- FAB_PROT (R344). -/
def execFabProt (id : Nat) (response : Bool) (s : State) : Host.Outcome State Fault Refusal := s.onDev (fabProt id response)

/-- MPU_SYNC (R366). -/
def execMpuSync (m : Fin 31) (s : State) : Host.Outcome State Fault Refusal := s.onDev (mpuSync m)

end Sys2Proof.Machine
end

