-- ==== Sys2Proof/Machine/Debug.lean ====
section
/-! DEFINITION. Debug.lean: the Tender wire (chapter 20): pulses, frames, sessions, judgement, transfers, core state. -/

namespace Sys2Proof.Machine

/-! ### The line and its frames (R546 to R551) -/

/-- The statuses of R551. -/
def dsOk : Nat := 0
def dsDenied : Nat := 1
def dsPending : Nat := 2
def dsBusy : Nat := 3
def dsUncorr : Nat := 4
def dsCollide : Nat := 5
def dsDecode : Nat := 6
def dsBadframe : Nat := 7
def dsNosession : Nat := 8
def dsState : Nat := 9
def dsUnknown : Nat := 10

/-- The module replies. -/
def Dev.reply (d : Dev) (status tag : Nat) (payload : List Byte) : Dev :=
  { d with tdr := { d.tdr with reply := some { status := status, tag := tag, payload := payload } } }

/-- A command's work has not ended. -/
def Dev.working (d : Dev) : Bool :=
  match d.tdr.work with
  | some w => w.result.isNone
  | none => false

/-- A valid request of command `code` arrives: a held result goes, unless RESULT asks for it (R550). -/
def Dev.received (d : Dev) (code : Nat) : Dev :=
  let d := { d with tdr := { d.tdr with lastValid := d.ticks, lastCmd := code } }
  if code = 4 || d.working then d else { d with tdr := { d.tdr with work := none } }

/-- The ticks of the last second among `l`, with the present one; `n` of them present input `fi` and begin afresh (R562). -/
def Dev.rate (d : Dev) (l : List Nat) (n fi detail : Nat) : List Nat × Dev :=
  let l := l.filter (fun t => !(d.elapsed t (1000 * msTicks))) ++ [d.ticks]
  if n ≤ l.length then ([], d.present fi detail) else (l, d)

/-- A symbol or line error (R546): counted and flagged, never answered. -/
def lineError (d : Dev) : Dev :=
  let d := (d.count DEBUG_CNT_LINE).flag DEBUG_ISTAT_LINE
  let (l, d) := d.rate d.tdr.lineTimes 16 fiDbgLine 0
  { d with tdr := { d.tdr with lineTimes := l } }

/-- A reset pulse (R547). -/
def resetPulse (d : Dev) : Dev := (d.deviceReset trigPulse).count DEBUG_RSTCNT_PULSES

/-- A request with a wrong CRC or length (R550). -/
def badFrame (d : Dev) : Dev := d.reply dsBadframe 0 []

/-! ### Judgement (R505, R506, R554) -/

/-- The grant in force gives right `right`, or none is needed; a pair command's pairs are named in it (R505, R506). -/
def Dev.debugRight (d : Dev) (right pairs : Nat) : Bool :=
  if d.lcs = lcScrapped then false
  else if d.lcs = lcProvisioned || d.lcs = lcDeployed then
    match d.trust.grant with
    | some g => g.rights.testBit right && (bitsList pairs 16).all (fun p => g.pairs.testBit p)
    | none => false
  else true

/-- A grant's region in the layout of the MPU registers. -/
def grantRegion (x : Nat × Nat × Nat) : MpuRegion :=
  { en := x.2.2.testBit 31, io := x.2.2.testBit 4, u := x.2.2.testBit 3, w := x.2.2.testBit 1, r := x.2.2.testBit 0
    base := x.1 / 64, limit := x.2.1 / 64 }

/-- One grant region covers every byte of a transfer and allows its kind, or no grant is needed (R554 step 3). -/
def Dev.grantCovers (d : Dev) (q : DebugReq) : Bool :=
  if d.lcs = lcProvisioned || d.lcs = lcDeployed then
    match d.trust.grant with
    | some g => g.regions.any (fun x =>
        (grantRegion x).matches { io := q.io, addr := q.addr, size := q.count, rd := !q.wr, wr := q.wr }
          && (if q.wr then (grantRegion x).w else (grantRegion x).r))
    | none => false
  else true

/-- The transfer writes a register of the KEEPER or the NVS block (R554 step 4). -/
def DebugReq.refused (q : DebugReq) : Bool :=
  q.wr && q.io && [0xD, 0x12].any (fun b => decide (q.addr < (b + 1) * 0x10000) && decide (b * 0x10000 < q.addr + q.count))

/-- A denial at steps 2 to 4 (R554, R562). -/
def Dev.debugDenied (d : Dev) (tag : Nat) : Dev :=
  let d := (d.count DEBUG_CNT_DENY).flag DEBUG_ISTAT_DENY
  let (l, d) := d.rate d.tdr.denyTimes 8 fiDbgDeny d.tdr.lastCmd
  { d with tdr := { d.tdr with denyTimes := l } }.reply dsDenied tag []

/-- A command of R552 that needs a session: BUSY, NOSESSION, DENIED, or its effect. -/
def Dev.sessionCommand (d : Dev) (code tag : Nat) (allowed : Bool) (f : Dev → Dev) : Dev :=
  let d := d.received code
  if d.working then d.reply dsBusy tag []
  else if !d.session then d.reply dsNosession tag []
  else if !allowed then d.debugDenied tag
  else f d

/-! ### Sessions (R552, R553) -/

/-- The rights of the grant in force, or 0. -/
def Dev.grantRights (d : Dev) : Nat :=
  match d.trust.grant with
  | some g => g.rights
  | none => 0

/-- ATTACH. -/
def attach (tag : Nat) (d : Dev) : Dev :=
  let d := d.received 1
  if d.working then d.reply dsBusy tag []
  else
    let d := if d.session then d
      else ((d.setFld SYSCTL_STAT_DBGATT 1).flag DEBUG_STAT_SESSION).flag DEBUG_ISTAT_SESSION
    d.reply dsOk tag (leBytes 1 d.lcs ++ leBytes 1 d.mode ++ leBytes 1 d.grantRights ++ [0] ++ leBytes 8 d.trust.devuid)

/-- The session ends, and the grant with it (R506, R553). -/
def Dev.closeSession (d : Dev) : Dev := if d.session then d.endGrant.endSession else d

/-- DETACH. -/
def detach (tag : Nat) (d : Dev) : Dev := ((d.received 2).closeSession).reply dsOk tag []

/-- IDLE seconds have passed without a valid request. -/
def sessionIdle (d : Dev) : Dev :=
  if d.elapsed d.tdr.lastValid (d.fld DEBUG_CFG_IDLE * 1000 * msTicks) then d.closeSession else d

/-- A register as a peek reads it. -/
def Dev.peekWord (d : Dev) (a : Nat) : Nat := (d.ioRead a true).1

/-- STATUS: DEBUG.STAT, SYSCTL.STAT, then every PnSTAT. -/
def debugStatus (tag : Nat) (d : Dev) : Dev :=
  let d := d.received 3
  d.reply dsOk tag (([0x150000, 0x000000] ++ (List.range 16).map (fun p => 0x150100 + 0x100 * p)).flatMap
    (fun a => leBytes 4 (d.peekWord a)))

/-! ### Transfers (R555) -/

/-- The status of R551 for an error code of R139. -/
def statusOfCode (code : Nat) : Nat :=
  if code = 0 then dsOk else if code = 1 then dsDecode else if code = 2 then dsUncorr else if code = 3 then dsDenied else dsCollide

/-- The 16-byte-aligned beats of a range, at most `k` of them. -/
def beatsFrom : Nat → Nat → Nat → List (Nat × Nat)
  | 0, _, _ => []
  | k + 1, a, n =>
    if n = 0 then []
    else
      let m := min n (16 - a % 16)
      (a, m) :: beatsFrom k (a + m) (n - m)

/-- The beats of a range of `n` bytes. -/
def beatsOf (a n : Nat) : List (Nat × Nat) := beatsFrom (n / 16 + 2) a n

/-- Beats of the data space read in order until one fails: status, bytes and device. -/
def Dev.readBeats (d : Dev) : List (Nat × Nat) → Nat × List Byte × Dev
  | [] => (dsOk, [], d)
  | (a, n) :: t =>
    let acc : Access := { addr := a, size := n, rd := true, wr := false }
    match d.mpuCheck mDebug acc with
    | some why => (dsDenied, [], d.denied mDebug acc why none)
    | none =>
      if !(rangeSound d.remap a n false) then (dsDecode, [], d)
      else
        let (b, code, d) := match d.failedAt mDebug a with
          | some code => ([], code, d.takeFailure mDebug a)
          | none => (d.served mDebug a).readPieces mDebug (piecesOf a n)
        if code != 0 then (statusOfCode code, [], d)
        else
          let (st, rest, d) := Dev.readBeats d t
          (st, b ++ rest, d)

/-- Beats written in order until one fails. -/
def Dev.writeBeats (d : Dev) (bytes : List Byte) : List (Nat × Nat) → Nat × Dev
  | [] => (dsOk, d)
  | (a, n) :: t =>
    let acc := writeAccess d.remap a n
    match d.mpuCheck mDebug acc with
    | some why => (dsDenied, d.denied mDebug acc why none)
    | none =>
      if !(rangeSound d.remap a n true) then (dsDecode, d)
      else
        let (code, d) := match d.failedAt mDebug a with
          | some code => (code, d.takeFailure mDebug a)
          | none => (d.served mDebug a).writePieces mDebug bytes (piecesOf a n)
        if code != 0 then (statusOfCode code, d) else Dev.writeBeats d (bytes.drop n) t

/-- Registers read in order until one fails, `n` of them from `a` on. -/
def Dev.readRegs (d : Dev) (live : Bool) (a : Nat) : Nat → Nat × List Byte × Dev
  | 0 => (dsOk, [], d)
  | n + 1 =>
    let acc : Access := { io := true, addr := a, size := 4, rd := true, wr := false }
    match d.mpuCheck mDebug acc with
    | some why => (dsDenied, [], d.denied mDebug acc why none)
    | none =>
      let (v, code, d) := match d.failedAt mDebug a with
        | some code => (0, code, d.takeFailure mDebug a)
        | none => (d.served mDebug a).ioRead a (!live)
      if code != 0 then (statusOfCode code, [], d)
      else
        let d := if live && a = mpuSyncAddr then d.syncDone mDebug else d
        let (st, rest, d) := Dev.readRegs d live (a + 4) n
        (st, leBytes 4 v ++ rest, d)

/-- Registers written in order until one fails. -/
def Dev.writeRegs (d : Dev) (bytes : List Byte) (a : Nat) : Nat → Nat × Dev
  | 0 => (dsOk, d)
  | n + 1 =>
    let acc : Access := { io := true, addr := a, size := 4, rd := false, wr := true }
    match d.mpuCheck mDebug acc with
    | some why => (dsDenied, d.denied mDebug acc why none)
    | none =>
      let (code, d) := match d.failedAt mDebug a with
        | some code => (code, d.takeFailure mDebug a)
        | none => (d.served mDebug a).ioWrite mDebug false a (BitVec.ofNat 32 (leNat (bytes.take 4)))
      if code != 0 then (statusOfCode code, d) else Dev.writeRegs d (bytes.drop 4) (a + 4) n

/-- What the transfer waits for: its turn at an arbitration point, a locked bank's among them (R348, R357), or MPU.SYNC
(R366). -/
def Dev.debugHold (d : Dev) (q : DebugReq) : Option Hold :=
  if q.io then
    (if !q.wr && q.live && decide (q.addr ≤ mpuSyncAddr) && decide (mpuSyncAddr < q.addr + q.count) && !(d.syncReady mDebug)
     then some none
     else if !q.live && !q.wr then none
     else (d.ioWait mDebug q.addr q.wr).map some)
  else (d.firstWait mDebug q.wr false (beatsOf q.addr q.count)).map some

/-- The transfer carried out: the reply's status and bytes, and the device. A reply to a failure carries no data. -/
def Dev.debugRun (d : Dev) (q : DebugReq) : Nat × List Byte × Dev :=
  if q.io then
    (if q.wr then
       let (st, d) := d.writeRegs q.data q.addr (q.count / 4)
       (st, [], d)
     else
       let (st, b, d) := d.readRegs q.live q.addr (q.count / 4)
       (st, if st = dsOk then b else [], d))
  else if q.wr then
    let (st, d) := d.writeBeats q.data (beatsOf q.addr q.count)
    (st, [], d)
  else
    let (st, b, d) := d.readBeats (beatsOf q.addr q.count)
    (st, if st = dsOk then b else [], d)

/-- The counts that R552 allows. -/
def DebugReq.countOk (q : DebugReq) : Bool :=
  decide (1 ≤ q.count) && decide (q.count ≤ 4096) && (!q.io || (q.count % 4 = 0 && q.addr % 4 = 0))

/-- A READ or WRITE that has passed steps 1 to 4. -/
def Dev.transfer (d : Dev) (tag : Nat) (q : DebugReq) : Dev :=
  if !q.countOk then d.reply dsDecode tag []
  else
    match d.debugHold q with
    | some h => { d with tdr := { d.tdr with reply := none, work := some { tag := tag, result := none, req := some q } } }.onHold h
    | none =>
      let (st, b, d) := d.debugRun q
      d.reply st tag b

/-- A transfer that waited is carried out once nothing holds it: its result is replied at once, or kept where PENDING has
been replied. -/
def Dev.retryWork (d : Dev) : Dev :=
  match d.tdr.work with
  | some { tag := tag, result := none, req := some q, told := told } =>
    match d.debugHold q with
    | some h => d.onHold h
    | none =>
      let (st, b, d) := d.debugRun q
      if told then d.workResult st b
      else { d with tdr := { d.tdr with work := none } }.reply st tag b
  | _ => d

/-- 80 µs have passed and the work has not ended (R550). -/
def pendingReply (d : Dev) : Dev :=
  let d := d.retryWork
  match d.tdr.work with
  | some w =>
    if w.result.isNone && !w.told then
      { d with tdr := { d.tdr with work := some { w with told := true } } }.reply dsPending w.tag []
    else d
  | none => d

/-- RESULT (R550): the result, or PENDING again. The status where no work of that TAG is held is open. -/
def debugResult (tag : Nat) (d : Dev) : Dev :=
  let d := (d.received 4).retryWork
  match d.tdr.work with
  | some w =>
    if w.tag = tag then
      match w.result with
      | some r => d.reply r.status tag r.payload
      | none => d.reply dsPending tag []
    else
      let (n, d) := d.fresh
      d.reply (Config.freeNat n % 256) tag []
  | none =>
    let (n, d) := d.fresh
    d.reply (Config.freeNat n % 256) tag []

/-- READ: the peek right, for a live read the live-read right (R506, R552). -/
def debugRead (tag : Nat) (q : DebugReq) (d : Dev) : Dev :=
  d.sessionCommand 0x20 tag (d.debugRight (if q.live then 2 else 1) 0 && d.grantCovers q) (fun d => d.transfer tag q)

/-- WRITE: the memory-write right, in I/O space the I/O-write right. -/
def debugWrite (tag : Nat) (q : DebugReq) (d : Dev) : Dev :=
  d.sessionCommand 0x21 tag (d.debugRight (if q.io then 4 else 3) 0 && d.grantCovers q && !q.refused)
    (fun d => d.transfer tag q)

/-! ### Halting and stepping (R556 to R558) -/

/-- HALT: the request goes through the capture stage of each named pair. -/
def debugHalt (tag pairs : Nat) (d : Dev) : Dev :=
  d.sessionCommand 0x10 tag (d.debugRight 0 pairs) (fun d =>
    ((bitsList pairs 16).foldl (fun (d : Dev) lp =>
      if (d.pair (d.physOf lp)).dbg.halted then d else d.capture (d.physOf lp) .halt) d).reply dsOk tag [])

/-- RESUME: each named pair that the interface holds halted goes on. -/
def debugResume (tag pairs : Nat) (d : Dev) : Dev :=
  d.sessionCommand 0x11 tag (d.debugRight 0 pairs) (fun d =>
    ((bitsList pairs 16).foldl (fun (d : Dev) lp => d.resumeHeld (d.physOf lp)) d).reply dsOk tag [])

/-- STEP: a halted pair goes on for `n` bundles. -/
def debugStep (tag lp n : Nat) (d : Dev) : Dev :=
  d.sessionCommand 0x12 tag (d.debugRight 0 (2 ^ lp)) (fun d =>
    let p := d.physOf lp
    if !(d.pair p).dbg.halted then d.reply dsState tag []
    else if n = 0 then d.reply dsOk tag []
    else (d.capture p (.step n)).reply dsOk tag [])

/-- SETCOMP (R561). -/
def setComparator (tag lp k addr mask ctl : Nat) (d : Dev) : Dev :=
  d.sessionCommand 0x13 tag (d.debugRight 0 (2 ^ lp)) (fun d =>
    let d := (d.setFld (DEBUG_COMPADDR_ADDR lp k) addr).setFld (DEBUG_COMPMASK_MASK lp k) mask
    let d := (d.setFld (DEBUG_COMPCTL_EN lp k) (bitOf ctl 31)).setFld (DEBUG_COMPCTL_KIND lp k) (bitsOf ctl 8 2)
    (d.setFld (DEBUG_COMPCTL_SLOTS lp k) (bitsOf ctl 0 8)).reply dsOk tag [])

/-! ### Core state (R560) -/

/-- The bytes of an area: the frame, the data memory, the instruction memory. -/
def areaBytes (area : Nat) : Nat := if area = 0 then 12288 else 131072

/-- A word of an area, with the note of its read. -/
def Core.areaWord (c : Core) (area w : Nat) : Nat × List MemNote :=
  if area = 0 then (c.frameWord w, [])
  else
    let r := if area = 1 then ramRead c.dmem w w else ramRead c.imem w w
    (r.value, if r.bad || r.corrected then [{ m := area - 1, word := w, bad := r.bad }] else [])

/-- The bytes of an area, and the notes of their words. -/
def Core.areaRead (c : Core) (area off n : Nat) : List Byte × List MemNote :=
  let ws := (List.range ((off + n + 7) / 8 - off / 8)).map (fun i => c.areaWord area (off / 8 + i))
  (((ws.flatMap (fun x => leBytes 8 x.1)).drop (off % 8)).take n, ws.flatMap (fun x => x.2))

/-- The range lies in its area and its count is one that R552 allows. -/
def areaOk (area off n : Nat) : Bool := decide (1 ≤ n) && decide (n ≤ 4096) && decide (off + n ≤ areaBytes area)

/-- RDCORE: the reply passes only if both cores agree (lane group 8). -/
def readCore (tag lp area n off : Nat) (d : Dev) : Dev :=
  d.sessionCommand 0x14 tag (d.debugRight 1 (2 ^ lp)) (fun d =>
    let p := d.physOf lp
    let x := d.pair p
    if !(areaOk area off n) then d.reply dsDecode tag []
    else if !(d.pairRuns p) || (area = 0 && !x.dbg.halted) then d.reply dsState tag []
    else
      let (a, na) := x.lead.areaRead area off n
      let (b, nb) := x.shadow.areaRead area off n
      let d := d.noteBoth p na nb
      let badA := na.any (fun m => m.bad)
      let badB := nb.any (fun m => m.bad)
      if badA != badB || (!badA && a != b) then
        { d with tdr := { d.tdr with reply := none } }.mismatch p 0 8 none
      else if badA then d.reply dsUncorr tag []
      else d.reply dsOk tag a)

/-- Pending transfers from the values that a frame's area holds. -/
def transfersOf : Nat → List Nat → List Transfer × List Nat
  | 0, l => ([], l)
  | n + 1, t :: r :: i :: l =>
    let (ts, rest) := transfersOf n l
    ({ target := t % 4096, remain := r, rfi := i % 2 = 1 } :: ts, rest)
  | _ + 1, l => ([], l)

/-- Results in flight from their values. -/
def inflightOf : List Nat → List Inflight
  | p :: v :: f :: r :: l => { port := p, value := BitVec.ofNat 64 v, flags := f, remain := r } :: inflightOf l
  | _ => []

/-- Gates from their values, gate `k` first. -/
def Core.gatesOf (c : Core) : Nat → List Nat → Core
  | k, a :: r :: t :: g :: dn :: n :: l =>
    Core.gatesOf (c.setGate k { armed := a % 2 = 1, released := r % 2 = 1, tb := t % 16, angle := g % 2 ^ 32
                                down := dn % 2 = 1, gen := n % 4 }) (k + 1) l
  | _, _ => c

/-- A table of 64-bit values numbered by `ks`. -/
def tableOf : List Nat → List Nat → List (Nat × DWord)
  | k :: ks, v :: vs => arrSet (0 : DWord) (tableOf ks vs) k (BitVec.ofNat 64 v)
  | _, _ => []

/-- A shadow bank from the values of its area. -/
def bankOf : List Nat → Option Bank
  | 1 :: pc :: psw :: level :: guards :: lc :: l =>
    let ports := l.drop 16
    let rest := ports.drop 39
    let (ts, fl) := transfersOf (rest.headD 0) (rest.drop 1)
    some { pc := pc % 4096, psw := pswMoved psw, level := level % 32, guards := guards % 256, lc := lc % 2 ^ 32
           a := tableOf (List.range 16) (l.take 16), oports := tableOf operandPorts (ports.take 23)
           rports := tableOf resultPorts ((ports.drop 23).take 16), transfers := ts, inflight := inflightOf fl }
  | _ => none

/-- The first 64 bytes of the frame from their values. -/
def Core.headOf (c : Core) (l : List Nat) : Core :=
  let v (i : Nat) : Nat := nth 0 l i
  { c with pc := v 0 % 4096, lc := v 1 % 2 ^ 32, psw := pswMoved (v 2), tagNext := v 3 % 32, guards := v 4 % 256
           level := v 5 % 32, isafeCount := v 6 % 4096, lockAddr := if v 7 % 2 = 1 then some (v 8 % 2 ^ 32) else none
           transfers := (transfersOf 2 (l.drop 9)).1 }

/-- The areas of the frame whose inner layout is open: first word and number of words. -/
def openAreas : List (Nat × Nat) := [(0, 8), (184, 64), (296, 8), (312, 128), (440, 128)]

/-- The part of a written range that falls into words `w` to `w + n - 1`: the offset within them, and the bytes. -/
def partOf (w n off : Nat) (bytes : List Byte) : Nat × List Byte :=
  let a := max off (8 * w)
  let b := min (off + bytes.length) (8 * (w + n))
  (a - 8 * w, (bytes.drop (a - off)).take (b - a))

/-- The core with the open area that starts at word `w` written. -/
def Core.writeOpen (c : Core) (w o : Nat) (bytes : List Byte) : Core :=
  if bytes.isEmpty then c
  else
    let new (values : List Nat) : List Nat := Config.frameWritten (8 * w) o bytes values
    if w = 0 then c.headOf (new c.headValues)
    else if w = 184 then { c with inflight := inflightOf (new (c.inflight.flatMap Inflight.values)) }
    else if w = 296 then c.gatesOf 0 (new ((List.range 8).flatMap (fun k => (c.gate k).values)))
    else if w = 312 then { c with bank0 := bankOf (new (bankValues c.bank0)) }
    else { c with bank1 := bankOf (new (bankValues c.bank1)) }

/-- The core with word `w` of the frame at `v`; reserved words keep zero, and the open areas are written whole. -/
def Core.setFrameWord (c : Core) (w v : Nat) : Core :=
  if w < 8 then c
  else if w < 136 then c.setReg (w - 8) v
  else if w < 159 then c.setOport (nth 0 operandPorts (w - 136)) v
  else if w < 168 then c
  else if w < 184 then c.setRport (nth 0 resultPorts (w - 168)) v
  else if w < 248 then c
  else if w < 280 then c.setTag (w - 248) { c.tag (w - 248) with value := BitVec.ofNat 64 v }
  else if w = 280 then
    (List.range 32).foldl (fun (c : Core) t => c.setTag t { c.tag t with st := TagSt.ofCode (bitsOf v (2 * t) 2) }) c
  else if w < 289 then
    (List.range 4).foldl (fun (c : Core) i =>
      c.setTag (4 * (w - 281) + i) { c.tag (4 * (w - 281) + i) with code := bitsOf v (16 * i) 16 }) c
  else if decide (304 ≤ w) && decide (w < 308) then
    { c with acked := c.acked - bitsOf c.acked (64 * (w - 304)) 64 * 2 ^ (64 * (w - 304)) + (v % 2 ^ 64) * 2 ^ (64 * (w - 304)) }
  else c

/-- Bytes written into a word of the frame. -/
def Core.pokeFrame (c : Core) (bytes : List Byte) : List (Nat × Nat) → Core
  | [] => c
  | (a, n) :: t =>
    let v := mergeBytes (c.frameWord (a / 8)) (leNat (bytes.take n) <<< (8 * (a % 8))) (byteMask (a % 8) n)
    Core.pokeFrame (c.setFrameWord (a / 8) v) (bytes.drop n) t

/-- The frame written at an offset. -/
def Core.writeFrame (c : Core) (off : Nat) (bytes : List Byte) : Core :=
  let c := c.pokeFrame bytes (piecesOf off bytes.length)
  openAreas.foldl (fun (c : Core) x =>
    let (o, b) := partOf x.1 x.2 off bytes
    c.writeOpen x.1 o b) c

/-- Bytes written into the core's data or instruction memory, a partly written word read first; true where such a read is
uncorrectable, which ends the write. -/
def Core.pokeMemory (c : Core) (area : Nat) (bytes : List Byte) : List (Nat × Nat) → Core × Bool × List MemNote
  | [] => (c, false, [])
  | (a, n) :: t =>
    let w := a / 8
    let r := if area = 1 then ramRead c.dmem w w else ramRead c.imem w w
    if n ≠ 8 ∧ r.bad then (c, true, [{ m := area - 1, word := w, bad := true }])
    else
      let v := if n = 8 then leNat (bytes.take 8)
        else mergeBytes r.value (leNat (bytes.take n) <<< (8 * (a % 8))) (byteMask (a % 8) n)
      let c := if area = 1 then (c.localStore (localBase + 8 * w) 8 v).1 else { c with imem := ramWrite c.imem w w v }
      let (c, bad, notes) := Core.pokeMemory c area (bytes.drop n) t
      (c, bad, (if n ≠ 8 ∧ r.corrected then [{ m := area - 1, word := w, bad := false }] else []) ++ notes)

/-- The words of both cores' instruction memory that a range covers, copied into the pair's image (R236, R560). -/
def Dev.imageFrom (d : Dev) (lp off n : Nat) (c : Core) : Dev :=
  (List.range ((off + n + 7) / 8 - off / 8)).foldl
    (fun (d : Dev) i => let w := off / 8 + i; d.mirrorWord lp (8 * w) (ramRead c.imem w w).value) d

/-- WRCORE: both cores alike; a checkpoint before the first bundle after the resume. -/
def writeCore (tag lp area off : Nat) (bytes : List Byte) (d : Dev) : Dev :=
  d.sessionCommand 0x15 tag (d.debugRight 3 (2 ^ lp)) (fun d =>
    let p := d.physOf lp
    let x := d.pair p
    let n := bytes.length
    if !(areaOk area off n) then d.reply dsDecode tag []
    else if !x.dbg.halted then d.reply dsState tag []
    else
      let x := { x with dbg := { x.dbg with ckptFirst := true } }
      if area = 0 then (d.setPair p (x.both (fun c => c.writeFrame off bytes))).reply dsOk tag []
      else
        let (a, badA, na) := x.lead.pokeMemory area bytes (piecesOf off n)
        let (b, badB, nb) := x.shadow.pokeMemory area bytes (piecesOf off n)
        let d := (d.setPair p { x with lead := a, shadow := b }).noteBoth p na nb
        let d := if area = 2 then d.imageFrom lp off n a else d
        d.reply (if badA || badB then dsUncorr else dsOk) tag [])

/-! ### SIGNED and unknown commands -/

/-- SIGNED (R492, R497, R550): PENDING at once; the island's answer becomes the result. -/
def signedBlock (tag : Nat) (block : List Byte) (d : Dev) : Dev :=
  let d := d.received 5
  if d.working then d.reply dsBusy tag []
  else
    let d := { d with tdr := { d.tdr with work := some { tag := tag, result := none, told := true } } }
    (d.reply dsPending tag []).blockArrives { bytes := block, via := .tender }

/-- A CMD that R552 does not list. -/
def unknownRequest (tag : Nat) (d : Dev) : Dev :=
  let d := d.received 0
  d.reply (if d.working then dsBusy else dsUnknown) tag []

/-! ### The commands -/

/-- RESET_PULSE (R547). -/
def execResetPulse (s : State) : Host.Outcome State Fault Refusal := s.onDev resetPulse

/-- LINE_ERROR (R546). -/
def execLineError (s : State) : Host.Outcome State Fault Refusal := s.onDev lineError

/-- BADFRAME (R550). -/
def execBadframe (s : State) : Host.Outcome State Fault Refusal := s.onDev badFrame

/-- PENDING_REPLY (R550). -/
def execPendingReply (s : State) : Host.Outcome State Fault Refusal := s.onDev pendingReply

/-- ATTACH (R553). -/
def execAttach (tag : BitVec 8) (s : State) : Host.Outcome State Fault Refusal := s.onDev (attach tag.toNat)

/-- DETACH (R553). -/
def execDetach (tag : BitVec 8) (s : State) : Host.Outcome State Fault Refusal := s.onDev (detach tag.toNat)

/-- SESSION_IDLE_TIMEOUT (R553). -/
def execSessionIdleTimeout (s : State) : Host.Outcome State Fault Refusal := s.onDev sessionIdle

/-- STATUS (R552). -/
def execStatus (tag : BitVec 8) (s : State) : Host.Outcome State Fault Refusal := s.onDev (debugStatus tag.toNat)

/-- RESULT (R550). -/
def execResult (tag : BitVec 8) (s : State) : Host.Outcome State Fault Refusal := s.onDev (debugResult tag.toNat)

/-- SIGNED (R552). -/
def execSigned (tag : BitVec 8) (block : List Byte) (s : State) : Host.Outcome State Fault Refusal :=
  s.onDev (signedBlock tag.toNat block)

/-- HALT (R556). -/
def execHalt (tag : BitVec 8) (pairs : BitVec 16) (s : State) : Host.Outcome State Fault Refusal :=
  s.onDev (debugHalt tag.toNat pairs.toNat)

/-- RESUME (R557). -/
def execResume (tag : BitVec 8) (pairs : BitVec 16) (s : State) : Host.Outcome State Fault Refusal :=
  s.onDev (debugResume tag.toNat pairs.toNat)

/-- STEP (R558). -/
def execStep (tag : BitVec 8) (p : Fin 16) (count : BitVec 16) (s : State) : Host.Outcome State Fault Refusal :=
  s.onDev (debugStep tag.toNat p count.toNat)

/-- SETCOMP (R561). -/
def execSetcomp (tag : BitVec 8) (p : Fin 16) (k : Fin 8) (addr mask ctl : Word) (s : State) :
    Host.Outcome State Fault Refusal :=
  s.onDev (setComparator tag.toNat p k addr.toNat mask.toNat ctl.toNat)

/-- RDCORE (R560). -/
def execRdcore (tag : BitVec 8) (p : Fin 16) (area : Fin 3) (count offset : Nat) (s : State) :
    Host.Outcome State Fault Refusal :=
  s.onDev (readCore tag.toNat p area count offset)

/-- WRCORE (R560). -/
def execWrcore (tag : BitVec 8) (p : Fin 16) (area : Fin 3) (offset : Nat) (data : List Byte) (s : State) :
    Host.Outcome State Fault Refusal :=
  s.onDev (writeCore tag.toNat p area offset data)

/-- READ (R555). -/
def execRead (tag : BitVec 8) (io live : Bool) (count : Nat) (addr : Word) (s : State) :
    Host.Outcome State Fault Refusal :=
  s.onDev (debugRead tag.toNat { wr := false, io := io, live := live, addr := addr.toNat, count := count, data := [] })

/-- WRITE (R555). -/
def execWrite (tag : BitVec 8) (io : Bool) (addr : Word) (data : List Byte) (s : State) :
    Host.Outcome State Fault Refusal :=
  s.onDev (debugWrite tag.toNat
    { wr := true, io := io, live := false, addr := addr.toNat, count := data.length, data := data })

/-- DEBUG_UNKNOWN (R551). -/
def execDebugUnknown (tag : BitVec 8) (s : State) : Host.Outcome State Fault Refusal := s.onDev (unknownRequest tag.toNat)

end Sys2Proof.Machine
end

