-- ==== Sys2Proof/Machine/Dma.lean ====
section
/-! DEFINITION. Dma.lean: the transfers of the DMA engines (R564). -/

namespace Sys2Proof.Machine

/-- An I/O-space beat read in whole words, each under its check: denied, a word reads 0 (R364). -/
def Dev.ioBeatRead (d : Dev) (m a : Nat) : Nat → List Byte × BusEnd × Dev
  | 0 => ([], .ok, d)
  | n + 1 =>
    let acc : Access := { io := true, addr := a, size := 4, rd := true, wr := false }
    match d.ioGate m acc with
    | .waits w => ([], .held (some w), d)
    | .fails code => ([], .error code, d.takeFailure m a)
    | g =>
      let (v, code, d) := match g with
        | .denied why => (0, 0, d.denied m acc why none)
        | _ =>
          let (v, code, d) := (d.served m a).ioRead a false
          (v, code, if a = mpuSyncAddr then d.syncDone m else d)
      if code != 0 then ([], .error code, d)
      else
        let (rest, e, d) := Dev.ioBeatRead d m (a + 4) n
        (leBytes 4 v ++ rest, e, d)

/-- An I/O-space beat written in whole words, each under its check: denied, a word is dropped. -/
def Dev.ioBeatWrite (d : Dev) (m a : Nat) (bytes : List Byte) : Nat → BusEnd × Dev
  | 0 => (.ok, d)
  | n + 1 =>
    let acc : Access := { io := true, addr := a, size := 4, rd := false, wr := true }
    match d.ioGate m acc with
    | .waits w => (.held (some w), d)
    | .fails code => (.error code, d.takeFailure m a)
    | g =>
      let (code, d) := match g with
        | .denied why => (0, d.denied m acc why none)
        | _ => (d.served m a).ioWrite m false a (BitVec.ofNat 32 (leNat (bytes.take 4)))
      if code != 0 then (.error code, d) else Dev.ioBeatWrite d m (a + 4) (bytes.drop 4) n

/-- An address lies in an alias window (R26). -/
def Dev.aliasAt (d : Dev) (a : Nat) : Bool :=
  match targetOf d.remap a with
  | .bank _ _ al => al != 0
  | _ => false

/-- The bytes of the next beat: up to 16, within 16 aligned bytes on both sides; 8 where a side is I/O space or the
destination is an alias window. -/
def Dev.dmaBeat (d : Dev) (r : DmaRun) (done : Nat) : Nat :=
  let s := r.src + done
  let t := r.dst + done
  if r.sio || r.dio || d.aliasAt t then min 8 (r.len - done) else min (min (16 - s % 16) (16 - t % 16)) (r.len - done)

/-- The read of a beat. A read of MPU.SYNC waits while it may not be answered (R366). -/
def Dev.dmaRead (d : Dev) (m : Nat) (r : DmaRun) (a n : Nat) : List Byte × BusEnd × Dev :=
  if r.sio then
    (if decide (a ≤ mpuSyncAddr) && decide (mpuSyncAddr < a + n) && !(d.syncReady m) then ([], .held none, d)
     else d.ioBeatRead m a (n / 4))
  else d.busRead m a n

/-- The write of a beat. -/
def Dev.dmaWriteBeat (d : Dev) (m : Nat) (r : DmaRun) (a : Nat) (bytes : List Byte) : BusEnd × Dev :=
  if r.dio then d.ioBeatWrite m a bytes (bytes.length / 4) else d.busWrite m a bytes

/-- The copy from byte `done` on, beat by beat until the first failure; `held` where a beat must wait. A write that resets
the device ends it. -/
def Dev.dmaCopy (d : Dev) (m ch : Nat) (r : DmaRun) (done : Nat) : Nat → BusEnd × Dev
  | 0 => (.ok, d)
  | k + 1 =>
    if r.len ≤ done then (.ok, d)
    else
      let n := d.dmaBeat r done
      let (bytes, e, d) := d.dmaRead m r (r.src + done) n
      match e with
      | .ok =>
        let (e, d) := d.dmaWriteBeat m r (r.dst + done) bytes
        (match e with
         | .ok => if (mapFind d.dma ch).isNone then (.ok, d) else Dev.dmaCopy d m ch r (done + n) k
         | e => (e, d))
      | e => (e, d)

/-- The end of a transfer: CODE, the DONE or ERR bit, the event. -/
def Dev.dmaFinish (d : Dev) (e j code : Nat) (r : DmaRun) : Dev :=
  let d := { d with dma := mapDel d.dma (dmaChannel e j) }
  let d := (d.setFld (DMA_CHSTAT_BUSY e j) 0).setFld (DMA_CHSTAT_CODE e j) code
  let d := if code = 0 then d.setBitOf (DMA_DONE_DONE e) j else d.setBitOf (DMA_ERR_ERR e) j
  d.consequence (dmaProducer e j) (dmaInput e j) r.trig none

/-- A transfer is carried out and ends; while an access must wait for a locked bank or for MPU.SYNC, nothing changes. -/
def dmaTransferEnd (e j : Nat) (d : Dev) : Dev :=
  match mapFind d.dma (dmaChannel e j) with
  | none => d
  | some r =>
    let (b, x) := d.dmaCopy (16 + e) (dmaChannel e j) r 0 (r.len / 4 + 4)
    match b with
    | .held h => d.onHold h
    | .ok => if (mapFind x.dma (dmaChannel e j)).isNone then x else x.dmaFinish e j 0 r
    | .error code => if (mapFind x.dma (dmaChannel e j)).isNone then x else x.dmaFinish e j code r

/-- DMA_TRANSFER_END (R564). -/
def execDmaTransferEnd (e : Fin 2) (j : Fin 32) (s : State) : Host.Outcome State Fault Refusal :=
  s.onDev (dmaTransferEnd e j)

end Sys2Proof.Machine
end

