-- ==== Sys2Proof/Machine/Dispatch.lean ====
section
/-! DEFINITION. Dispatch.lean: the meaning of each command, one arm a constructor of Instr. -/

namespace Sys2Proof.Machine

/-- A command's effect on everything but the queue. -/
def exec (i : Instr) (s : State) : Host.Outcome State Fault Refusal :=
  match i with
  | .bundleIssue p => Sys2Proof.Machine.execBundleIssue p s
  | .tagCompletion p t => Sys2Proof.Machine.execTagCompletion p t s
  | .captureInput p parityErr => Sys2Proof.Machine.execCaptureInput p parityErr s
  | .interruptEntry p arrivals => Sys2Proof.Machine.execInterruptEntry p arrivals s
  | .preciseExceptionEntry p arrivals => Sys2Proof.Machine.execPreciseExceptionEntry p arrivals s
  | .impreciseExceptionEntry p arrivals => Sys2Proof.Machine.execImpreciseExceptionEntry p arrivals s
  | .expiryTrapEntry p => Sys2Proof.Machine.execExpiryTrapEntry p s
  | .returnRestore p => Sys2Proof.Machine.execReturnRestore p s
  | .isafeStarve p => Sys2Proof.Machine.execIsafeStarve p s
  | .interruptSourceEdge n src => Sys2Proof.Machine.execInterruptSourceEdge n src s
  | .interruptPresentation n => Sys2Proof.Machine.execInterruptPresentation n s
  | .swsetWrite n set => Sys2Proof.Machine.execSwsetWrite n set s
  | .checkpointDue p => Sys2Proof.Machine.execCheckpointDue p s
  | .checkpointK0 p => Sys2Proof.Machine.execCheckpointK0 p s
  | .checkpointCommit p hold => Sys2Proof.Machine.execCheckpointCommit p hold s
  | .commitBufferRelease p => Sys2Proof.Machine.execCommitBufferRelease p s
  | .deltaApplied p => Sys2Proof.Machine.execDeltaApplied p s
  | .commitEntryFailure p => Sys2Proof.Machine.execCommitEntryFailure p s
  | .segOverrun p => Sys2Proof.Machine.execSegOverrun p s
  | .lockstepMismatch p mm => Sys2Proof.Machine.execLockstepMismatch p mm s
  | .spareFirstBundle p => Sys2Proof.Machine.execSpareFirstBundle p s
  | .pairFence p => Sys2Proof.Machine.execPairFence p s
  | .spareDesignation p w => Sys2Proof.Machine.execSpareDesignation p w s
  | .cmptestStart p => Sys2Proof.Machine.execCmptestStart p s
  | .timebaseSample t det => Sys2Proof.Machine.execTimebaseSample t det s
  | .holdResume t => Sys2Proof.Machine.execHoldResume t s
  | .lineSampleDelivery t hi => Sys2Proof.Machine.execLineSampleDelivery t hi s
  | .adj t v => Sys2Proof.Machine.execAdj t v s
  | .timebaseEnable t w => Sys2Proof.Machine.execTimebaseEnable t w s
  | .ltnLoss t => Sys2Proof.Machine.execLtnLoss t s
  | .mainsLock t => Sys2Proof.Machine.execMainsLock t s
  | .holdover t => Sys2Proof.Machine.execHoldover t s
  | .comparatorCrossing c => Sys2Proof.Machine.execComparatorCrossing c s
  | .gateRelease n k => Sys2Proof.Machine.execGateRelease n k s
  | .carrierValley g => Sys2Proof.Machine.execCarrierValley g s
  | .carrierPeak g => Sys2Proof.Machine.execCarrierPeak g s
  | .pwmGroupEnable g => Sys2Proof.Machine.execPwmGroupEnable g s
  | .pwmSync mask => Sys2Proof.Machine.execPwmSync mask s
  | .swForce g on => Sys2Proof.Machine.execSwForce g on s
  | .tripclr g => Sys2Proof.Machine.execTripclr g s
  | .tripLatchSet g => Sys2Proof.Machine.execTripLatchSet g s
  | .pwmPinerr g lvl => Sys2Proof.Machine.execPwmPinerr g lvl s
  | .sdfFilterOutput n bits => Sys2Proof.Machine.execSdfFilterOutput n bits s
  | .sdfFastTrip n bits => Sys2Proof.Machine.execSdfFastTrip n bits s
  | .sdfCkloss n => Sys2Proof.Machine.execSdfCkloss n s
  | .sdfSnapshot setB => Sys2Proof.Machine.execSdfSnapshot setB s
  | .adcSequenceStart c => Sys2Proof.Machine.execAdcSequenceStart c s
  | .adcStart c => Sys2Proof.Machine.execAdcStart c s
  | .adcSequenceDone c volts => Sys2Proof.Machine.execAdcSequenceDone c volts s
  | .resolverSample idx sin cos negPeak => Sys2Proof.Machine.execResolverSample idx sin cos negPeak s
  | .abzEdge idx a b => Sys2Proof.Machine.execAbzEdge idx a b s
  | .zIndexEdge idx => Sys2Proof.Machine.execZIndexEdge idx s
  | .abzSampleDelivery idx => Sys2Proof.Machine.execAbzSampleDelivery idx s
  | .ssiFrame idx line bits lag => Sys2Proof.Machine.execSsiFrame idx line bits lag s
  | .targetAccess ids => Sys2Proof.Machine.execTargetAccess ids s
  | .correctedWriteBack inst word => Sys2Proof.Machine.execCorrectedWriteBack inst word s
  | .scrubRead => Sys2Proof.Machine.execScrubRead s
  | .bucketLeak => Sys2Proof.Machine.execBucketLeak s
  | .etctlWrite w => Sys2Proof.Machine.execEtctlWrite w s
  | .arbitrationGrant pt => Sys2Proof.Machine.execArbitrationGrant pt s
  | .requestUrgent id => Sys2Proof.Machine.execRequestUrgent id s
  | .fabProt id response => Sys2Proof.Machine.execFabProt id response s
  | .lockBreak inst => Sys2Proof.Machine.execLockBreak inst s
  | .mpuDeny => Sys2Proof.Machine.execMpuDeny s
  | .mpuEnable m w => Sys2Proof.Machine.execMpuEnable m w s
  | .mpuSync m => Sys2Proof.Machine.execMpuSync m s
  | .eventEmission n => Sys2Proof.Machine.execEventEmission n s
  | .eventDelivery => Sys2Proof.Machine.execEventDelivery s
  | .waitRequestArrival => Sys2Proof.Machine.execWaitRequestArrival s
  | .evtLoop => Sys2Proof.Machine.execEvtLoop s
  | .cenWrite c hi v => Sys2Proof.Machine.execCenWrite c hi v s
  | .watchInputTake c => Sys2Proof.Machine.execWatchInputTake c s
  | .faultProcessing => Sys2Proof.Machine.execFaultProcessing s
  | .islVote lane => Sys2Proof.Machine.execIslVote lane s
  | .laneResync => Sys2Proof.Machine.execLaneResync s
  | .laneDisagreementReset => Sys2Proof.Machine.execLaneDisagreementReset s
  | .hourlyFaultCounts => Sys2Proof.Machine.execHourlyFaultCounts s
  | .logreadAck n => Sys2Proof.Machine.execLogreadAck n s
  | .clrcnt => Sys2Proof.Machine.execClrcnt s
  | .reactWrite idx v => Sys2Proof.Machine.execReactWrite idx v s
  | .keeperEnable w => Sys2Proof.Machine.execKeeperEnable w s
  | .svcWrite m v => Sys2Proof.Machine.execSvcWrite m v s
  | .checkIn p => Sys2Proof.Machine.execCheckIn p s
  | .windowClose => Sys2Proof.Machine.execWindowClose s
  | .kprExpiry => Sys2Proof.Machine.execKprExpiry s
  | .hardTimerEnd => Sys2Proof.Machine.execHardTimerEnd s
  | .keeperClockTrip => Sys2Proof.Machine.execKeeperClockTrip s
  | .evstatClear => Sys2Proof.Machine.execEvstatClear s
  | .run src => Sys2Proof.Machine.execRun src s
  | .safeStop src => Sys2Proof.Machine.execSafeStop src s
  | .standby src => Sys2Proof.Machine.execStandby src s
  | .standbyCompletion => Sys2Proof.Machine.execStandbyCompletion s
  | .enterConfig src => Sys2Proof.Machine.execEnterConfig src s
  | .makerTest src => Sys2Proof.Machine.execMakerTest src s
  | .clearFog src => Sys2Proof.Machine.execClearFog src s
  | .unfence src n => Sys2Proof.Machine.execUnfence src n s
  | .reset src => Sys2Proof.Machine.execReset src s
  | .unknownCommand src code => Sys2Proof.Machine.execUnknownCommand src code s
  | .deviceReset env => Sys2Proof.Machine.execDeviceReset env s
  | .bootConfirmExpiry => Sys2Proof.Machine.execBootConfirmExpiry s
  | .wake w => Sys2Proof.Machine.execWake w s
  | .powerOnReset => Sys2Proof.Machine.execPowerOnReset s
  | .portLoss b v => Sys2Proof.Machine.execPortLoss b v s
  | .lowin b v => Sys2Proof.Machine.execLowin b v s
  | .pfail hold => Sys2Proof.Machine.execPfail hold s
  | .rideEnd => Sys2Proof.Machine.execRideEnd s
  | .powerFailSealDone => Sys2Proof.Machine.execPowerFailSealDone s
  | .inputReturn => Sys2Proof.Machine.execInputReturn s
  | .converterStop => Sys2Proof.Machine.execConverterStop s
  | .temperatureSample base dies => Sys2Proof.Machine.execTemperatureSample base dies s
  | .supplyOverload v5 => Sys2Proof.Machine.execSupplyOverload v5 s
  | .v5on => Sys2Proof.Machine.execV5on s
  | .v3on => Sys2Proof.Machine.execV3on s
  | .clockLoss c => Sys2Proof.Machine.execClockLoss c s
  | .sstop x => Sys2Proof.Machine.execSstop x s
  | .sstopDiscrep => Sys2Proof.Machine.execSstopDiscrep s
  | .switchForward port f => Sys2Proof.Machine.execSwitchForward port f s
  | .ethLink q up master sqi => Sys2Proof.Machine.execEthLink q up master sqi s
  | .safetyMessageReceive => Sys2Proof.Machine.execSafetyMessageReceive s
  | .rawFrameReceive => Sys2Proof.Machine.execRawFrameReceive s
  | .txDescriptorSend r => Sys2Proof.Machine.execTxDescriptorSend r s
  | .txrGatedTrigger r => Sys2Proof.Machine.execTxrGatedTrigger r s
  | .gptpSyncChange x => Sys2Proof.Machine.execGptpSyncChange x s
  | .timePulse => Sys2Proof.Machine.execTimePulse s
  | .epochWrap => Sys2Proof.Machine.execEpochWrap s
  | .canFrameReceive k f => Sys2Proof.Machine.execCanFrameReceive k f s
  | .canFrameSend k => Sys2Proof.Machine.execCanFrameSend k s
  | .canBusoff k => Sys2Proof.Machine.execCanBusoff k s
  | .busoffAutoRecovery k => Sys2Proof.Machine.execBusoffAutoRecovery k s
  | .recover k => Sys2Proof.Machine.execRecover k s
  | .canWakePattern k => Sys2Proof.Machine.execCanWakePattern k s
  | .buoyListStart k => Sys2Proof.Machine.execBuoyListStart k s
  | .buoyStart k lists => Sys2Proof.Machine.execBuoyStart k lists s
  | .buoyTransactionSend k => Sys2Proof.Machine.execBuoyTransactionSend k s
  | .buoyReplyReceive k r => Sys2Proof.Machine.execBuoyReplyReceive k r s
  | .buoyDeadline k => Sys2Proof.Machine.execBuoyDeadline k s
  | .buoyWaitEnd k => Sys2Proof.Machine.execBuoyWaitEnd k s
  | .buoyCycleComplete k => Sys2Proof.Machine.execBuoyCycleComplete k s
  | .buoyEnum k ring => Sys2Proof.Machine.execBuoyEnum k ring s
  | .buoyBreak k => Sys2Proof.Machine.execBuoyBreak k s
  | .buoyHeal k => Sys2Proof.Machine.execBuoyHeal k s
  | .buoyMem k => Sys2Proof.Machine.execBuoyMem k s
  | .signedFragmentReceive => Sys2Proof.Machine.execSignedFragmentReceive s
  | .reassemblyTimeout => Sys2Proof.Machine.execReassemblyTimeout s
  | .signedBlockCheck => Sys2Proof.Machine.execSignedBlockCheck s
  | .enrolMaker b => Sys2Proof.Machine.execEnrolMaker b s
  | .provision b => Sys2Proof.Machine.execProvision b s
  | .genkey b seeds => Sys2Proof.Machine.execGenkey b seeds s
  | .attkeyReady => Sys2Proof.Machine.execAttkeyReady s
  | .trustEntropy => Sys2Proof.Machine.execTrustEntropy s
  | .deploy b => Sys2Proof.Machine.execDeploy b s
  | .returnToMaker b => Sys2Proof.Machine.execReturnToMaker b s
  | .scrap b => Sys2Proof.Machine.execScrap b s
  | .revokeRoot b => Sys2Proof.Machine.execRevokeRoot b s
  | .setOproot b => Sys2Proof.Machine.execSetOproot b s
  | .setKey b => Sys2Proof.Machine.execSetKey b s
  | .setPolicy b => Sys2Proof.Machine.execSetPolicy b s
  | .install b => Sys2Proof.Machine.execInstall b s
  | .debugGrant b => Sys2Proof.Machine.execDebugGrant b s
  | .grantEnd => Sys2Proof.Machine.execGrantEnd s
  | .attest b => Sys2Proof.Machine.execAttest b s
  | .journalSeal badPages => Sys2Proof.Machine.execJournalSeal badPages s
  | .sealPeriod badPages => Sys2Proof.Machine.execSealPeriod badPages s
  | .append addr => Sys2Proof.Machine.execAppend addr s
  | .chainVerify broken => Sys2Proof.Machine.execChainVerify broken s
  | .compaction => Sys2Proof.Machine.execCompaction s
  | .blockRemap block => Sys2Proof.Machine.execBlockRemap block s
  | .erase m w => Sys2Proof.Machine.execErase m w s
  | .program m w => Sys2Proof.Machine.execProgram m w s
  | .finish m w => Sys2Proof.Machine.execFinish m w s
  | .bistStart => Sys2Proof.Machine.execBistStart s
  | .bistConditionCheck clockKHz supplyMv results => Sys2Proof.Machine.execBistConditionCheck clockKHz supplyMv results s
  | .bistEnd results => Sys2Proof.Machine.execBistEnd results s
  | .repair => Sys2Proof.Machine.execRepair s
  | .watchPeriodEnd => Sys2Proof.Machine.execWatchPeriodEnd s
  | .marchWord inst word stuck => Sys2Proof.Machine.execMarchWord inst word stuck s
  | .offer p budget => Sys2Proof.Machine.execOffer p budget s
  | .offerAbandon p => Sys2Proof.Machine.execOfferAbandon p s
  | .spareSlice n fail => Sys2Proof.Machine.execSpareSlice n fail s
  | .loopback block pass => Sys2Proof.Machine.execLoopback block pass s
  | .voltageAdjust n slack nbti => Sys2Proof.Machine.execVoltageAdjust n slack nbti s
  | .marginPlannerRun projected => Sys2Proof.Machine.execMarginPlannerRun projected s
  | .resetPulse => Sys2Proof.Machine.execResetPulse s
  | .lineError => Sys2Proof.Machine.execLineError s
  | .badframe => Sys2Proof.Machine.execBadframe s
  | .pendingReply => Sys2Proof.Machine.execPendingReply s
  | .attach tag => Sys2Proof.Machine.execAttach tag s
  | .detach tag => Sys2Proof.Machine.execDetach tag s
  | .sessionIdleTimeout => Sys2Proof.Machine.execSessionIdleTimeout s
  | .status tag => Sys2Proof.Machine.execStatus tag s
  | .result tag => Sys2Proof.Machine.execResult tag s
  | .signed tag block => Sys2Proof.Machine.execSigned tag block s
  | .halt tag pairs => Sys2Proof.Machine.execHalt tag pairs s
  | .resume tag pairs => Sys2Proof.Machine.execResume tag pairs s
  | .step tag p count => Sys2Proof.Machine.execStep tag p count s
  | .setcomp tag p k addr mask ctl => Sys2Proof.Machine.execSetcomp tag p k addr mask ctl s
  | .rdcore tag p area count offset => Sys2Proof.Machine.execRdcore tag p area count offset s
  | .wrcore tag p area offset data => Sys2Proof.Machine.execWrcore tag p area offset data s
  | .read tag io live count addr => Sys2Proof.Machine.execRead tag io live count addr s
  | .write tag io addr data => Sys2Proof.Machine.execWrite tag io addr data s
  | .debugUnknown tag => Sys2Proof.Machine.execDebugUnknown tag s
  | .dmaChannelStart e j sw => Sys2Proof.Machine.execDmaChannelStart e j sw s
  | .dmaTransferEnd e j => Sys2Proof.Machine.execDmaTransferEnd e j s
  | .registerWrite m user addr v => Sys2Proof.Machine.execRegisterWrite m user addr v s
  | .portSupplyReturn b v => Sys2Proof.Machine.execPortSupplyReturn b v s
  | .sstopReenergised x => Sys2Proof.Machine.execSstopReenergised x s
  | .sdfClockReturn n => Sys2Proof.Machine.execSdfClockReturn n s
  | .sdfTripEnd n bits => Sys2Proof.Machine.execSdfTripEnd n bits s
  | .slotOperationDone err => Sys2Proof.Machine.execSlotOperationDone err s
  | .compactionEraseDone => Sys2Proof.Machine.execCompactionEraseDone s
  | .learningEntryAgeout => Sys2Proof.Machine.execLearningEntryAgeout s

end Sys2Proof.Machine
end

