-- ==== Sys2Proof/Machine/Tick.lean ====
section
/-! DEFINITION. Tick.lean: one lt, 1/600 µs, in which no command comes: the clocks of R20 count, Lantern and the carriers
move, and work that waited for a lock or for a second to pass goes on. DESIGN CHOICE: time passes on an empty queue only. -/

namespace Sys2Proof.Machine

/-- The cc of a pair at step `s` in the lt that ends at tick `t` (R210: s × 25 MHz against 600 MHz). -/
def ccOfTick (s t : Nat) : Nat := t * s / 24 - (t - 1) * s / 24

/-- A pair's segment counts the cc that no command has counted yet (R210). -/
def Pair.tick (x : Pair) (t : Nat) : Pair :=
  let cc := ccOfTick x.step t
  { x with segCount := x.segCount + (cc - x.ccUsed), ccUsed := x.ccUsed - cc }

/-- The cc of the pairs that run and that no debug halt holds. -/
def Dev.tickPairs (d : Dev) : Dev :=
  (List.range 16).foldl (fun d p =>
    let x := d.pair p
    if d.pairRuns p && x.phase == .run && !x.dbg.halted then d.setPair p (x.tick d.ticks) else d) d

/-- POWER.VIN holds the port voltages as last measured, every 100 µs (chapter 2). -/
def Dev.tickVin (d : Dev) : Dev :=
  if d.ticks % (100 * usTicks) = 0 then { d with power := { d.power with vinA := d.power.va, vinB := d.power.vb } } else d

/-- Operating time runs while any VPAIRn is on (R541). -/
def Dev.tickAge (d : Dev) : Dev :=
  if (List.range 16).any (fun p => (d.pair p).vmv != 0) then
    { d with age := { d.age with onTicks := d.age.onTicks + 1 } }
  else d

/-- Lantern and the PWM carriers: they stand during a start-up and in STANDBY with its clocks stopped (R253, R278, R434). -/
def Dev.tickClocks (d : Dev) : Dev :=
  if d.start.starting || d.start.clocksOff then d else d.endPwm.tickLantern.tickPwm.tickPins

/-- Work that could not be done before: a reset owed after a seal (R391, R394), an append (R518), a Tender transfer (R357), the
journal's counts of failed blocks (R507), and frames that leave the switch (R438). -/
def Dev.tickWork (d : Dev) : Dev :=
  let d := if d.island.resetAfterSeal then d.deviceReset d.island.resetTrig else d
  (((d.tryAppend.retryWork).auditCounts).drainPorts).canRetry

/-- One lt. Nothing runs while the converter is off (R47); a device held in reset only ages (R33). -/
def tick (d : Dev) : Dev :=
  if !d.power.converter then d
  else if d.power.hotReset then { d with ticks := d.ticks + 1 }.tickVin
  else ({ d with ticks := d.ticks + 1 }.tickClocks).tickPairs.tickVin.tickAge.tickWork

end Sys2Proof.Machine
end

