-- ==== Sys2Proof/Safety.lean ====
section
/-! DEFINITION. Safety.lean: the words in which the claims speak: sound states, commands that complete, what a command
leaves alone, and a device that a reset has sent back to BOOT. -/

namespace Sys2Proof.Machine

/-! ### Sound states -/

/-- The register map lists no register at its reset word, and its addresses rise. -/
def Dev.ioWf (d : Dev) : Bool := mapWf regReset d.io

/-- The banks and the boot ROM are in canonical form. -/
def Dev.memWf (d : Dev) : Bool := ramWf d.mem.ram

/-- A core's memories are in canonical form. -/
def Core.memWf (c : Core) : Bool := ramWf c.dmem && ramWf c.imem

/-- A pair's memories are in canonical form. -/
def Pair.memWf (x : Pair) : Bool := x.lead.memWf && x.shadow.memWf

/-- A sound state: equal contents are equal data, and there are 16 pairs. -/
def State.Canonical (s : State) : Prop :=
  s.dev.ioWf = true ∧ s.dev.memWf = true ∧ s.dev.pairs.all Pair.memWf = true ∧ s.dev.pairs.length = 16

/-- Every word of shared memory reads without an uncorrectable error. -/
def Dev.readable (d : Dev) : Prop := ∀ inst < 32, ∀ w < 131072, (ramRead d.mem.ram (bankKey inst w) w).bad = false

/-- No access of an engine has to wait: the clocks run, no bank is locked, no request waits or is under way. -/
def Dev.fabricIdle (d : Dev) : Prop :=
  d.start.clocksOff = false ∧ d.fab.locks = [] ∧ d.fab.waiting = [] ∧ d.fab.granted = [] ∧ d.fab.ended = []

/-! ### Commands that complete -/

/-- The command completes: it answers a next state, leaves the queue as it is, and its device satisfies `P`. Of a device
that is held, without its converter or in a temperature reset, nothing changes (R33, R47). -/
def Completes (c : Instr) (s : State) (P : Dev → Prop) : Prop :=
  ∃ t, exec c s = .next t ∧ t.pending = s.pending ∧ (if s.dev.held = true then t.dev = s.dev else P t.dev)

/-- The same for a command of a block whose clock stops in STANDBY: while the clocks are stopped, nothing changes (R20). -/
def CompletesClocked (c : Instr) (s : State) (P : Dev → Prop) : Prop :=
  Completes c s (fun e => if s.dev.start.clocksOff = true then e = s.dev else P e)

/-- The same for a command from outside that acts on a held device as well: its device satisfies `P` always. -/
def CompletesLine (c : Instr) (s : State) (P : Dev → Prop) : Prop :=
  ∃ t, exec c s = .next t ∧ t.pending = s.pending ∧ P t.dev

/-- The same as a decidable check on one state, for witnesses. -/
def completesWith (c : Instr) (s : State) (P : Dev → Bool) : Bool :=
  match exec c s with
  | .next t => P t.dev
  | _ => false

/-! ### What a command leaves alone -/

/-- Every register word outside the listed addresses is unchanged. -/
def Dev.SameWords (d e : Dev) (l : List Nat) : Prop := ∀ a, a ∉ l → e.word a = d.word a

/-- A fault input has been presented and the island has not yet processed it. -/
def Dev.hasFault (d : Dev) (n detail : Nat) : Bool :=
  d.island.presented.any (fun x => x.input = n && x.detail = detail)

/-! ### Reset and the force line -/

/-- The device is back in BOOT, its start-up steps still to run (R416, R424). -/
def Dev.backInBoot (d : Dev) : Bool := d.mode = modeBoot && d.start.starting

/-- The force line is asserted and every PWM group is held at its safe levels (R396). -/
def Dev.forced (d : Dev) : Bool :=
  d.on SAFEISL_STAT_FORCE && (List.range 12).all (fun g => (d.group g).safe)

/-- A command may come this way: unprotected through SYSCTL.CMD, or signed by a role with the right (R420, R497). -/
def Dev.mayIssue (d : Dev) (src : CmdSrc) (code : Nat) : Bool :=
  match src with
  | .register => !(protectedCode code)
  | .signed role _ => rightOf code role d.lcs d.persist.opInstall

/-! ### Pairs -/

/-- Physical pair `p` runs in lockstep and no debugger interferes: its cores are equal, as are the two copies of the entries
under release, no halt is asked for, no step runs and no comparator is enabled. -/
def Dev.quiet (d : Dev) (p : Nat) : Prop :=
  d.pairs.length = 16 ∧ (d.pair p).lead = (d.pair p).shadow ∧ (d.pair p).rel = (d.pair p).relShadow ∧ (d.pair p).dbg.haltAsked = false ∧
  (d.pair p).dbg.stepping = false ∧ ∀ k < 8, d.fld (DEBUG_COMPCTL_EN (d.lpairOf p) k) = 0

/-- Both cores of pair `p` have come to the same state, which satisfies `P`. -/
def Dev.cores (d : Dev) (p : Nat) (P : Core → Prop) : Prop := (d.pair p).lead = (d.pair p).shadow ∧ P (d.pair p).lead

end Sys2Proof.Machine
end

