-- ==== Sys2Proof/WellFormed.lean ====
section
/-! DEFINITION. WellFormed.lean: the operands that a command can have, beyond what their types say: lengths and ranges
that the lines, sensors and frames of the spec allow. A meaning is defined for every operand all the same. -/

namespace Sys2Proof

/-- A list rises, each element at or above the one before it and the first at or above `lo`. -/
def risingFrom : Nat → List Nat → Bool
  | _, [] => true
  | lo, x :: t => decide (lo ≤ x) && risingFrom x t

/-- An Ethernet frame as IEEE 802.3 delivers it: 48-bit addresses, a 16-bit EtherType, a PCP of 3 bits and a VID of 12. -/
def Frame.wf (f : Frame) : Bool :=
  decide (f.dst < 2 ^ 48) && decide (f.src < 2 ^ 48) && decide (f.etype < 65536)
    && (match f.ctag with | some (p, v) => decide (p < 8) && decide (v < 4096) | none => true)

/-- A CAN frame: one of the three formats, at most 2,048 data bytes (R452). -/
def CanFrame.wf (f : CanFrame) : Bool := decide (f.fmt.val < 3) && decide (f.data.length ≤ 2048) &&
  (!f.remote || (f.fmt.val = 0 && f.data.isEmpty))

/-- A signed command: a counter of 64 bits and an argument of at most 1,024 bytes (R491). -/
def SignedArg.wf (b : SignedArg) : Bool :=
  decide (b.slot < 256) && decide (b.ctr < 2 ^ 64) && decide (b.arg.length ≤ 1024)

/-- The operands of a command are well formed. -/
def Instr.wf : Instr → Bool
  | .bundleIssue _ => true
  | .tagCompletion _ _ => true
  | .captureInput _ _ => true
  | .interruptEntry _ arrivals => risingFrom 0 (arrivals.map Fin.val)
  | .preciseExceptionEntry _ arrivals => risingFrom 0 (arrivals.map Fin.val)
  | .impreciseExceptionEntry _ arrivals => risingFrom 0 (arrivals.map Fin.val)
  | .expiryTrapEntry _ => true
  | .returnRestore _ => true
  | .isafeStarve _ => true
  | .interruptSourceEdge _ _ => true
  | .interruptPresentation _ => true
  | .swsetWrite _ _ => true
  | .checkpointDue _ => true
  | .checkpointK0 _ => true
  | .checkpointCommit _ hold => decide (hold.lgFail < 4096)
  | .commitBufferRelease _ => true
  | .deltaApplied _ => true
  | .commitEntryFailure _ => true
  | .segOverrun _ => true
  | .lockstepMismatch _ _ => true
  | .spareFirstBundle _ => true
  | .pairFence _ => true
  | .spareDesignation _ _ => true
  | .cmptestStart _ => true
  | .timebaseSample _ _ => true
  | .holdResume _ => true
  | .lineSampleDelivery _ _ => true
  | .adj _ _ => true
  | .timebaseEnable _ _ => true
  | .ltnLoss _ => true
  | .mainsLock _ => true
  | .holdover _ => true
  | .comparatorCrossing _ => true
  | .gateRelease _ _ => true
  | .carrierValley _ => true
  | .carrierPeak _ => true
  | .pwmGroupEnable _ => true
  | .pwmSync _ => true
  | .swForce _ _ => true
  | .tripclr _ => true
  | .tripLatchSet _ => true
  | .pwmPinerr _ _ => true
  | .sdfFilterOutput _ bits => !bits.isEmpty
  | .sdfFastTrip _ bits => !bits.isEmpty
  | .sdfCkloss _ => true
  | .sdfSnapshot _ => true
  | .adcSequenceStart _ => true
  | .adcStart _ => true
  | .adcSequenceDone _ volts => decide (1 ≤ volts.length) && decide (volts.length ≤ 4)
  | .resolverSample _ _ _ _ => true
  | .abzEdge _ _ _ => true
  | .zIndexEdge _ => true
  | .abzSampleDelivery _ => true
  | .ssiFrame _ _ bits _ => decide (bits.length ≤ 41)
  | .targetAccess ids => decide (1 ≤ ids.length) && decide (ids.length ≤ 2)
  | .correctedWriteBack _ word => decide (word < 131072)
  | .scrubRead => true
  | .bucketLeak => true
  | .etctlWrite _ => true
  | .arbitrationGrant _ => true
  | .requestUrgent _ => true
  | .fabProt _ _ => true
  | .lockBreak _ => true
  | .mpuDeny => true
  | .mpuEnable _ _ => true
  | .mpuSync _ => true
  | .eventEmission _ => true
  | .eventDelivery => true
  | .waitRequestArrival => true
  | .evtLoop => true
  | .cenWrite _ _ _ => true
  | .watchInputTake _ => true
  | .faultProcessing => true
  | .islVote _ => true
  | .laneResync => true
  | .laneDisagreementReset => true
  | .hourlyFaultCounts => true
  | .logreadAck _ => true
  | .clrcnt => true
  | .reactWrite _ _ => true
  | .keeperEnable _ => true
  | .svcWrite _ _ => true
  | .checkIn _ => true
  | .windowClose => true
  | .kprExpiry => true
  | .hardTimerEnd => true
  | .keeperClockTrip => true
  | .evstatClear => true
  | .run _ => true
  | .safeStop _ => true
  | .standby _ => true
  | .standbyCompletion => true
  | .enterConfig _ => true
  | .makerTest _ => true
  | .clearFog _ => true
  | .unfence _ _ => true
  | .reset _ => true
  | .unknownCommand _ _ => true
  | .deviceReset env => decide (env.cmpFails.all (fun m => decide (m < 4096)))
  | .bootConfirmExpiry => true
  | .wake _ => true
  | .powerOnReset => true
  | .portLoss _ v => decide (v < 3300)
  | .lowin _ v => decide (3300 ≤ v) && decide (v < 3600)
  | .pfail _ => true
  | .rideEnd => true
  | .powerFailSealDone => true
  | .inputReturn => true
  | .converterStop => true
  | .temperatureSample _ dies => decide (dies.length = 24)
  | .supplyOverload _ => true
  | .v5on => true
  | .v3on => true
  | .clockLoss _ => true
  | .sstop _ => true
  | .sstopDiscrep => true
  | .switchForward _ f => f.wf
  | .ethLink _ _ _ _ => true
  | .safetyMessageReceive => true
  | .rawFrameReceive => true
  | .txDescriptorSend _ => true
  | .txrGatedTrigger _ => true
  | .gptpSyncChange _ => true
  | .timePulse => true
  | .epochWrap => true
  | .canFrameReceive _ f => f.wf
  | .canFrameSend _ => true
  | .canBusoff _ => true
  | .busoffAutoRecovery _ => true
  | .recover _ => true
  | .canWakePattern _ => true
  | .buoyListStart _ => true
  | .buoyStart _ _ => true
  | .buoyTransactionSend _ => true
  | .buoyReplyReceive _ r => decide (r.bytes.length ≤ 135)
  | .buoyDeadline _ => true
  | .buoyWaitEnd _ => true
  | .buoyCycleComplete _ => true
  | .buoyEnum _ _ => true
  | .buoyBreak _ => true
  | .buoyHeal _ => true
  | .buoyMem _ => true
  | .signedFragmentReceive => true
  | .reassemblyTimeout => true
  | .signedBlockCheck => true
  | .enrolMaker b => b.wf
  | .provision b => b.wf
  | .genkey b _ => b.wf
  | .attkeyReady => true
  | .trustEntropy => true
  | .deploy b => b.wf
  | .returnToMaker b => b.wf
  | .scrap b => b.wf
  | .revokeRoot b => b.wf
  | .setOproot b => b.wf
  | .setKey b => b.wf
  | .setPolicy b => b.wf
  | .install b => b.wf
  | .debugGrant b => b.wf
  | .grantEnd => true
  | .attest b => b.wf
  | .journalSeal badPages => decide (badPages ≤ 3)
  | .sealPeriod badPages => decide (badPages ≤ 3)
  | .append _ => true
  | .chainVerify _ => true
  | .compaction => true
  | .blockRemap _ => true
  | .erase _ _ => true
  | .program _ _ => true
  | .finish _ _ => true
  | .bistStart => true
  | .bistConditionCheck _ _ _ => true
  | .bistEnd results => decide (results.length < 65536)
  | .repair => true
  | .watchPeriodEnd => true
  | .marchWord _ word _ => decide (word < 131072)
  | .offer _ _ => true
  | .offerAbandon _ => true
  | .spareSlice _ _ => true
  | .loopback _ _ => true
  | .voltageAdjust _ _ _ => true
  | .marginPlannerRun projected => decide (projected.length = 16)
  | .resetPulse => true
  | .lineError => true
  | .badframe => true
  | .pendingReply => true
  | .attach _ => true
  | .detach _ => true
  | .sessionIdleTimeout => true
  | .status _ => true
  | .result _ => true
  | .signed _ block => decide (block.length ≤ 8192)
  | .halt _ _ => true
  | .resume _ _ => true
  | .step _ _ count => decide (1 ≤ count.toNat)
  | .setcomp _ _ _ _ _ _ => true
  | .rdcore _ _ _ count _ => decide (1 ≤ count) && decide (count ≤ 4096)
  | .wrcore _ _ _ _ data => decide (1 ≤ data.length) && decide (data.length ≤ 4096)
  | .read _ _ _ count _ => decide (1 ≤ count) && decide (count ≤ 4096)
  | .write _ _ _ data => decide (1 ≤ data.length) && decide (data.length ≤ 4096)
  | .debugUnknown _ => true
  | .dmaChannelStart _ _ _ => true
  | .dmaTransferEnd _ _ => true
  | .registerWrite _ _ addr _ => decide (addr < 0x1000000) && decide (addr % 4 = 0)
  | .portSupplyReturn _ v => decide (3300 ≤ v) && decide (v ≤ 6000)
  | .sstopReenergised _ => true
  | .sdfClockReturn _ => true
  | .sdfTripEnd _ bits => !bits.isEmpty
  | .slotOperationDone _ => true
  | .compactionEraseDone => true
  | .learningEntryAgeout => true

end Sys2Proof
end

