-- ==== Sys2Proof/Certificates/Slice0/Obligations.lean ====
section
/-! DEFINITION. Obligations.lean: the statements for the provers, in the order of the chapters. In each, `d` is the device
before the command and `e` the device after it. -/

open Sys2Proof Sys2Proof.Machine

/-- Each command that gives a port a voltage stores it for that port alone, also in a device that is held. While the
converter runs, STAT.LOWIN is then 1 exactly while the higher port voltage is at least 33.0 V and below 36.0 V, and
LOWCNT counts an entry into that condition and saturates. In a device that is not held, PORT_LOSS to a voltage below
33.0 V with the other port at or above 36.0 V also sets ISTAT.PORTLOSS and presents PORT_LOSS with the port as detail.
Only power, POWER.STAT, PFCNT, ISTAT and the presentations change. In a device that is not held, with no power-fail
sequence running and none committed, PFAIL sets STAT.PFAIL and ISTAT.PFSTART, presents POWER_FAIL, produces event 463,
starts RIDE, and leaves no unsealed journal entry unless the journal is full. The mode and the PWM groups are
unchanged (R56). A device that is held only sees its ports fall. (R52; R44; R45; R54; R55; R51;
spec/02_module_power.md; tier 2) -/
def Obligations.PortsAndPowerFail : Prop :=
  (∀ (s : State) (b : Bool) (v : Nat), v < 65536 →
     ∀ c ∈ [Instr.portLoss b v, Instr.lowin b v, Instr.portSupplyReturn b v],
       CompletesLine c s fun e =>
         let d := s.dev
         (e.power.va = if b then d.power.va else v) ∧ (e.power.vb = if b then v else d.power.vb) ∧
         (d.power.converter = true →
           e.on POWER_STAT_LOWIN = (decide (3300 ≤ max e.power.va e.power.vb) && decide (max e.power.va e.power.vb < 3600)) ∧
           e.fld POWER_PFCNT_LOWCNT = (if e.on POWER_STAT_LOWIN && !(d.on POWER_STAT_LOWIN)
             then min 65535 (d.fld POWER_PFCNT_LOWCNT + 1) else d.fld POWER_PFCNT_LOWCNT)) ∧
         (d.held = true → e.island = d.island) ∧ (d.power.converter = false → e.io = d.io) ∧
         (c = .portLoss b v → d.held = false → v < 3300 → 3600 ≤ (if b then d.power.va else d.power.vb) →
           e.fld POWER_ISTAT_PORTLOSS = 1 ∧ e.hasFault fiPortLoss (if b then 1 else 0)) ∧
         e = { d with io := e.io, power := e.power, island := { d.island with presented := e.island.presented } } ∧
         d.SameWords e [0x160000, 0x160008, 0x160014]) ∧
  (∀ (s : State) (hold : Bool), s.dev.power.pfStart = none → s.dev.fld POWER_STAT_PFCOMMIT = 0 →
     CompletesLine (.pfail hold) s fun e =>
       (s.dev.held = true → e.island = s.dev.island ∧ e.nvs = s.dev.nvs ∧ e.mode = s.dev.mode) ∧
       (hold = false → e.power.va = 0 ∧ e.power.vb = 0) ∧ (s.dev.held = false →
       e.fld POWER_STAT_PFAIL = 1 ∧ e.fld POWER_ISTAT_PFSTART = 1 ∧ e.hasFault fiPowerFail 0 ∧
       { prod := 463 } ∈ e.evt.produced ∧ e.power.pfStart = some s.dev.ticks ∧
       (s.dev.nvs.full = false → e.nvs.opened = []) ∧
       e.mode = s.dev.mode ∧ e.drive = s.dev.drive))

/-- Once RIDE has passed without a commit: if RIDE is not 0 and a port has been at or above 36.0 V for the preceding 20
µs, PFAIL clears, RIDES counts and ISTAT.PFRIDE sets, and the mode is unchanged. Otherwise PFCOMMIT sets, the force
line is asserted with every PWM group safe, and the mode becomes SAFE-STOP from RUN and DEGRADED, while elsewhere it
stays and, outside SAFE-STOP, SSLATCH sets. After a commit: POWER_FAIL_SEAL_DONE leaves no unsealed entry and stops
every pair's clock and VPAIRn; INPUT_RETURN, with a port at or above 36.0 V for 1 ms, sends the device back to BOOT
with the fail counts as they were. CONVERTER_STOP stops every pair, holds every PWM group safe and leaves both ports
below 18.0 V. POWER_ON_RESET does nothing while the converter runs; after its stop it starts in BOOT with memories
invalid, pairs off, and the NV store's flash (but for the range of a slot operation under way), the journal's retained
values and the lifecycle fuses as they were. The model's choices, no rules of the spec: RIDE is read at its end (log
entry 20); what a power-on reset keeps (log entry 24). (R57; R417; R61; R59; R60; R47; R40; R48; R321;
spec/02_module_power.md; tier 2) -/
def Obligations.RideThroughOrCommit : Prop :=
  (∀ (s : State) (t : Nat),
     let d := s.dev
     let good (g : Option Nat) : Bool := match g with | some u => decide (u + 12000 ≤ d.ticks) | none => false
     let saved := d.fld POWER_PFCFG_RIDE != 0 && (good d.power.goodA || good d.power.goodB)
     d.power.pfStart = some t → t + d.fld POWER_PFCFG_RIDE * 600 ≤ d.ticks → d.fld POWER_STAT_PFCOMMIT = 0 →
     Completes .rideEnd s fun e =>
       (saved = true → e.fld POWER_STAT_PFAIL = 0 ∧ e.fld POWER_ISTAT_PFRIDE = 1 ∧
         e.fld POWER_PFCNT_RIDES = min 65535 (d.fld POWER_PFCNT_RIDES + 1) ∧ e.mode = d.mode ∧
         e.fld POWER_STAT_PFCOMMIT = 0 ∧ e.drive = d.drive) ∧
       (saved = false → e.fld POWER_STAT_PFCOMMIT = 1 ∧ e.forced = true ∧
         (d.running = true → e.mode = modeSafeStop) ∧
         (d.running = false → e.mode = d.mode ∧ (d.mode ≠ modeSafeStop → e.fld SAFEISL_STAT_SSLATCH = 1)))) ∧
  (∀ s : State,
     (s.dev.fld POWER_STAT_PFCOMMIT = 1 → s.dev.power.cut = false →
       Completes .powerFailSealDone s fun e =>
         e.nvs.opened = [] ∧ e.power.cut = true ∧ e.pairs = s.dev.pairs.map (fun x => { x with clockOff := true, vmv := 0 })) ∧
     (s.dev.fld POWER_STAT_PFCOMMIT = 1 → (∃ t, (s.dev.power.goodA = some t ∨ s.dev.power.goodB = some t) ∧ t + 600000 ≤ s.dev.ticks) →
       Completes .inputReturn s fun e => e.backInBoot = true ∧ e.persist.actFail = s.dev.persist.actFail ∧
         e.persist.altFail = s.dev.persist.altFail ∧ e.nvs.opened = []) ∧
     (CompletesLine .converterStop s fun e => e.power.converter = false ∧ e.forced = true ∧ e.power.va < 1800 ∧ e.power.vb < 1800 ∧
         e.pairs = s.dev.pairs.map (fun x => { x with clockOff := true, vmv := 0 })) ∧
     (CompletesLine .powerOnReset s fun e => (s.dev.power.converter = true → e = s.dev) ∧ (s.dev.power.converter = false → e.backInBoot = true ∧ e.mem.ram = {} ∧ e.pairs = List.replicate 16 {} ∧
         e.nvs.flash = s.dev.nvs.flash ∧ (s.dev.nvs.slotOp = none → e.nvs.spoilt = s.dev.nvs.spoilt) ∧ e.persist = s.dev.persist ∧ e.trust.lcsFuses = s.dev.trust.lcsFuses ∧
         e.power.converter = true)))

/-- A reading needs the converter's supplies. Outside a temperature reset: a baseplate above 105.0 °C sets ISTAT.THWARN;
when a die is at or above 125.0 °C and none at or above 135.0 °C, ISTAT.THHI sets and THERM_HI is presented for every
such die; with every die below 125.0 °C nothing is presented; a die at or above 135.0 °C sends the device back to
BOOT, held in reset, its outputs at their safe levels. While held, a reading ends the reset exactly when every die is
at or below 115.0 °C and does nothing else. The model's choices, no rules of the spec: THERM_HI at every reading, not
at the crossing only (log entry 32); a held device does only what happens at its lines (log entry 4). (R33;
spec/02_module_power.md; tier 2) -/
def Obligations.TemperatureLimits : Prop :=
  ∀ (s : State) (base : Int) (dies : List Int), dies.length = 24 →
    CompletesLine (.temperatureSample base dies) s fun e =>
      (s.dev.power.converter = false → e = s.dev) ∧ (s.dev.power.converter = true →
      e.power.base = base ∧ e.power.dies = dies ∧
      (s.dev.power.hotReset = true → e.power.hotReset = dies.any (fun t => decide (1840 < t)) ∧
        e = { s.dev with power := e.power }) ∧
      (s.dev.power.hotReset = false → (∀ t ∈ dies, t < 2160) →
        e.power.hotReset = false ∧ e.mode = s.dev.mode ∧ (1680 < base → e.fld POWER_ISTAT_THWARN = 1) ∧
        ((∃ t ∈ dies, 2000 ≤ t) → e.fld POWER_ISTAT_THHI = 1) ∧
        ((∀ t ∈ dies, t < 2000) → e.island = s.dev.island) ∧
        (∀ i t, dies[i]? = some t → 2000 ≤ t → e.hasFault fiThermHi i = true)) ∧
      (s.dev.power.hotReset = false → (∃ t ∈ dies, 2160 ≤ t) →
        e.power.hotReset = true ∧ e.backInBoot = true ∧ ∀ g < 12, (e.group g).safe = true))

/-- SUPPLY_OVERLOAD switches the named output off and sets ISTAT.SUPOVL; V5ON and V3ON switch their output on and change
nothing else. CLOCK_LOSS presents the input of the lost clock, with the pair as the detail of a pair synthesiser's
loss. A level at an input energises it at 15 V and 2 mA or more, de-energises it at no more than 5 V or 0.5 mA, and
between leaves it as it was. SSTOP at an input that stays de-energised for longer than its filter time presents it and
asserts the force line with every PWM group safe; from RUN and DEGRADED the mode becomes SAFE-STOP, elsewhere it stays
and, outside SAFE-STOP, SSLATCH sets; before that time, and in a device that is held, only the input's state changes.
SSTOP_DISCREP presents its input once the two inputs have differed for more than 500 ms and it has not been presented
for this difference. SSTOP_REENERGISED gives the input its level and leaves the mode and all registers unchanged.
(R41; R22; R62; R63; R65; R417; R66; spec/02_module_power.md; tier 2) -/
def Obligations.SuppliesAndStopInputs : Prop :=
  (∀ s : State,
     (∀ v5, Completes (.supplyOverload v5) s fun e => e.fld POWER_ISTAT_SUPOVL = 1 ∧
       (if v5 then e.power.v5off = true ∧ e.power.v3off = s.dev.power.v3off else e.power.v3off = true ∧ e.power.v5off = s.dev.power.v5off) ∧
       e = { s.dev with io := e.io, power := e.power } ∧ s.dev.SameWords e [0x160014]) ∧
     (Completes .v5on s fun e => e = { s.dev with power := { s.dev.power with v5off := false } }) ∧
     (Completes .v3on s fun e => e = { s.dev with power := { s.dev.power with v3off := false } }) ∧
     (∀ c, Completes (.clockLoss c) s fun e =>
       (match c with
         | .sysPll => e.hasFault fiSpllLoss 0
         | .ethPll => e.hasFault fiEpllLoss 0
         | .pairSynth n => e.hasFault fiPsynLoss n
         | .refosc => e.hasFault fiRefoscLoss 0) = true ∧ e = { s.dev with island := e.island })) ∧
  (∀ (s : State) (i : Fin 2) (x : StopLevel),
     let d := s.dev
     let level (e : Dev) : Prop := (150 ≤ x.dv ∧ 2000 ≤ x.ua → e.energised i = true) ∧
       (x.dv ≤ 50 ∨ x.ua ≤ 500 → e.energised i = false) ∧
       (50 < x.dv → 500 < x.ua → (x.dv < 150 ∨ x.ua < 2000) → e.energised i = d.energised i)
     let over' (e : Dev) : Prop := d.energised i = false ∧ e.energised i = false ∧
       arrGet 0 d.island.lowSince i + d.fld SAFEISL_SSTOP_FILT * 30000 < d.ticks ∧ d.held = false
     let inputOnly (e : Dev) : Prop := e = { d with island := { d.island with
       sstop := e.island.sstop, lowSince := e.island.lowSince, differSince := e.island.differSince,
       differTold := e.island.differTold } }
     (CompletesLine (.sstop ⟨i, x⟩) s fun e => level e ∧ (¬ over' e → inputOnly e) ∧
       (over' e → e.hasFault fiSstop i = true ∧ e.forced = true ∧ (d.running = true → e.mode = modeSafeStop) ∧
         (d.running = false → e.mode = d.mode ∧ (d.mode ≠ modeSafeStop → e.fld SAFEISL_STAT_SSLATCH = 1)))) ∧
     (d.energised 0 ≠ d.energised 1 → d.island.differTold = false → d.island.differSince + 500 * msTicks < d.ticks →
       Completes .sstopDiscrep s fun e => e.hasFault fiSstopDiscrep 0 = true ∧ e = { d with island := e.island }) ∧
     (CompletesLine (.sstopReenergised ⟨i, x⟩) s fun e => level e ∧ e.mode = d.mode ∧ inputOnly e))

/-- If the two cores of physical pair p are in the same state, as are its two copies of the entries under release, the
cores are in the same state after the pair issues a bundle, completes a tag, takes a captured input, makes any entry,
or returns, whatever its arrivals, and no other pair's state changes (the pair being the one bound to its logical
number). (R208; R201; R203; R104; R182; R188; spec/07_lockstep_recovery.md; tier 2) -/
def Obligations.LockstepKept : Prop :=
  ∀ (s : State) (p : Fin 16) (t : Fin 32) (arr : List (Fin 5)), s.dev.pairs.length = 16 → s.dev.physOf (s.dev.lpairOf p) = p →
    (s.dev.pair p).lead = (s.dev.pair p).shadow → (s.dev.pair p).rel = (s.dev.pair p).relShadow →
    ∀ c ∈ [Instr.bundleIssue p, .tagCompletion p t, .captureInput p false, .interruptEntry p arr,
        .preciseExceptionEntry p arr, .impreciseExceptionEntry p arr, .expiryTrapEntry p, .returnRestore p],
      Completes c s fun e => (e.pair p).lead = (e.pair p).shadow ∧ e.pairs.length = 16 ∧
        ∀ q < 16, q ≠ p.val → e.pair q = s.dev.pair q

/-- At a boundary at which bundle b issues, in a pair that runs in lockstep without a debugger: both cores come to one
state, whose PC, registers, result ports, guards, level, pending transfers, commit buffer and undo log are those that
the bundle's moves make of the core, whatever the bundle sends out of the pair. If it sends nothing and no word of it
or of its data needs correction, the core is wholly the one that its moves make, the count of bundles without ISAFE
restarting where the next bundle has ISAFE. If no move of the bundle is enabled and no transfer is pending, PC
advances by one modulo 4,096, every result due lands and one position passes for the others, and registers, tags,
memories and commit buffer are unchanged; with one pending transfer that has one position left, PC is its target.
(R75; R129; R168; R194; R208; spec/06_flow_interrupts.md; tier 2) -/
def Obligations.BundleIssues : Prop :=
  ∀ (s : State) (p : Fin 16) (b : Bundle), s.dev.quiet p → s.dev.atBoundary p = true → (s.dev.pair p).boundary = some (.issue b) →
    let x := s.dev.pair p
    let c := x.lead
    let y := c.issue (s.dev.coreEnv p) b
    Completes (.bundleIssue p) s fun e =>
      (e.cores p fun k => k.pc = y.core.pc ∧ k.regs = y.core.regs ∧ k.rports = y.core.rports ∧ k.guards = y.core.guards ∧
        k.level = y.core.level ∧ k.transfers = y.core.transfers ∧ k.cb = y.core.cb ∧ k.undo = y.core.undo) ∧
      (y.outs = [] → y.notes = [] → fetchNotes c.imem c.pc = [] →
        e.cores p fun k => k = y.core.restartIsafe (Config.freeBit (x.choice + 1)) ∧
          (c.land.liveMoves b b.moves 0 = [] → c.transfers = [] → k.pc = (c.pc + 1) % 4096 ∧ k.regs = c.regs ∧ k.tags = c.tags ∧
            k.dmem = c.dmem ∧ k.imem = c.imem ∧ k.cb = c.cb ∧ k.inflight.length ≤ c.inflight.length ∧
            (k.isafeCount = 0 ∨ (b.isafe = false ∧ k.isafeCount = c.isafeCount + 1))) ∧
          (c.land.liveMoves b b.moves 0 = [] → ∀ t, c.transfers = [t] → t.remain = 1 → t.rfi = false →
            k.pc = t.target ∧ k.transfers = []))

/-- In a pair in lockstep that presents inputs: a fabric response first in the capture stage for tag t, not of immediate
class, leaves tag t done with its value, or failed where its error code is not 0, in both cores, and leaves the
capture stage. An interrupt request captured becomes visible in both cores. A parity error in a captured input of a
running pair presents CAPT_ERR and sets FSTAT.CAPTERR and MISMATCH. An edge of an edge source, also one set through
SWSET, makes it pending where it is not, and where it is sets its LOST bit. A level source's line is taken.
INTERRUPT_PRESENTATION captures at the bound pair the pending source, enabled and not acknowledged by the pair, of the
highest priority and of these the lowest-numbered, or none where there is none. The model's choices, no rules of the
spec: which sources are edge sources (log entry 36). (R104; R106; R203; R206; R175; R176; R177; R178;
spec/07_lockstep_recovery.md; spec/06_flow_interrupts.md; tier 2) -/
def Obligations.InputsAndControllers : Prop :=
  (∀ (s : State) (p : Fin 16), s.dev.quiet p → s.dev.presents p = true →
     (∀ (t : Fin 32) (mark slot value code addr lock : Nat) (rest : List CapInput), value < 2 ^ 64 →
       (s.dev.pair p).capture = .response mark t false slot value code addr lock :: rest →
       Completes (.tagCompletion p t) s fun e => (e.pair p).capture = rest ∧
         e.cores p fun k => (k.tag t).value.toNat = value ∧ (k.tag t).st = (if code = 0 then .done else .failed)) ∧
     (∀ (r : Option (Nat × Nat)) (rest : List CapInput), (s.dev.pair p).capture = .irq r :: rest →
       Completes (.captureInput p false) s fun e => (e.pair p).capture = rest ∧ e.cores p fun k => k.visible = r) ∧
     (s.dev.recoverable p = true → (s.dev.pair p).capture ≠ [] →
       Completes (.captureInput p true) s fun e => e.fld (PAIRCTL_FSTAT_CAPTERR p) = 1 ∧
         e.fld (PAIRCTL_FSTAT_MISMATCH p) = 1 ∧ e.hasFault (pairFault p pfCapture) ((s.dev.pair p).segCount / 4 % 65536) = true)) ∧
  (∀ (s : State) (n : Fin 16),
     let d := s.dev
     (∀ src : Fin 256, edgeSource src = true → Completes (.interruptSourceEdge n src) s fun e =>
       e.pendingAt n src = true ∧
       (d.pendingAt n src = true → (e.fld (INTC_LOST_LOST n (src / 32))).testBit (src % 32) = true ∧ e.intc = d.intc) ∧
       (d.pendingAt n src = false → e = { d with intc := e.intc } ∧ ∀ x, x ≠ src → e.pendingAt n x = d.pendingAt n x)) ∧
     (∀ src : Fin 256, edgeSource src = false → Completes (.interruptSourceEdge n src) s fun e =>
       (e.intcOf n).lines.testBit src = d.line n src ∧ e = { d with intc := e.intc }) ∧
     (∀ set : BitVec 8, Completes (.swsetWrite n set) s fun e =>
       ∀ j : Fin 8, e.pendingAt n (248 + j) = (d.pendingAt n (248 + j) || set.toNat.testBit j)) ∧
     (d.pairs.length = 16 → d.physOf n < 16 → Completes (.interruptPresentation n) s fun e =>
       let open' (x : Nat) : Prop := x < 256 ∧ sourceExists x = true ∧ d.pendingAt n x = true ∧
         (d.pair (d.physOf n)).ackedSet.testBit x = false ∧ d.fld (INTC_CFG_PRI n x) ≠ 0
       ∃ r, (e.pair (d.physOf n)).capture = (d.pair (d.physOf n)).capture ++ [.irq r] ∧
         (r = none ↔ ∀ x, ¬ open' x) ∧
         ∀ x q, r = some (x, q) → open' x ∧ q = d.fld (INTC_CFG_PRI n x) ∧
           ∀ y, open' y → d.fld (INTC_CFG_PRI n y) < q ∨ (d.fld (INTC_CFG_PRI n y) = q ∧ x ≤ y)))

/-- At a boundary at which interrupt src of priority pr is entered, with no arrival during the entry, bank k the lower
free one and the vector readable: both cores start at the vector, privileged, at level pr, with no transfer pending
and no result in flight; bank k holds the interrupted PC, PSW, level, guards, LC and transfers; src is in the
acknowledged set; b, c and d registers and tags are unchanged. In a pair in lockstep without a debugger, with the
vector readable and no arrival: an illegal bundle is entered with cause ILLEGAL, and a failed tag with the cause of
its error, at level 16 from a free bank, the failed tag returning to done; the expiry trap is entered at level 17 and
saves no bank, discards pending transfers and results in flight, and Keeper's EVPC of the pair takes the PC and the
logical pair. (R179; R180; R181; R182; R174; R177; R184; R190; R192; R193; spec/06_flow_interrupts.md; tier 2) -/
def Obligations.EntriesTaken : Prop :=
  (∀ (s : State) (p : Fin 16) (src pr k pc : Nat), s.dev.quiet p → s.dev.atBoundary p = true →
     (s.dev.pair p).boundary = some (.interrupt src pr) →
     let c := (s.dev.pair p).lead
     c.expiry = false → c.visible = some (src, pr) → c.freeBank = some k → c.vector (intVector src) = some pc →
     Completes (.interruptEntry p []) s fun e =>
       e.cores p fun h => h.pc = pc ∧ h.level = pr ∧ pswPriv h.psw = true ∧ pswIE h.psw = pswIE c.psw ∧ h.transfers = [] ∧
         h.inflight = [] ∧ h.acked.testBit src = true ∧ h.regs = c.regs ∧ h.tags = c.tags ∧ h.oports = c.oports ∧
         h.rports = c.rports ∧
         (∃ b, h.bank k = some b ∧ b.pc = c.pc ∧ b.psw = c.psw ∧ b.level = c.level ∧ b.guards = c.guards ∧ b.lc = c.lc ∧
           b.transfers = c.transfers ∧ b.inflight = c.inflight) ∧ h.bank (1 - k) = c.bank (1 - k)) ∧
  (∀ (s : State) (p : Fin 16) (pc : Nat), s.dev.quiet p → s.dev.atBoundary p = true →
     let c := (s.dev.pair p).lead
     (∀ k, c.expiry = false → c.freeBank = some k → (s.dev.pair p).boundary = some .illegal → c.vector 0x1FE06 = some pc →
       Completes (.preciseExceptionEntry p []) s fun e => e.cores p fun h => h.pc = pc ∧ h.level = 16 ∧
         pswPriv h.psw = true ∧ h.inflight = [] ∧ (h.bank k).isSome = true ∧ h.regs = c.regs) ∧
     (∀ k, ∀ t < 32, c.expiry = false → c.freeBank = some k → (s.dev.pair p).boundary = some (.imprecise (some t)) →
       c.vector (excVector (causeOfError (c.tag t).code)) = some pc →
       Completes (.impreciseExceptionEntry p []) s fun e => e.cores p fun h => h.pc = pc ∧ h.level = 16 ∧
         (h.tag t).st = .done ∧ (h.bank k).isSome = true ∧ h.regs = c.regs) ∧
     ((s.dev.pair p).boundary = some .expiry → c.vector 0x1FE1C = some pc →
       Completes (.expiryTrapEntry p) s fun e =>
         (e.cores p fun h => h.pc = pc ∧ h.level = 17 ∧ h.expiry = false ∧ h.bank0 = c.bank0 ∧ h.bank1 = c.bank1 ∧
           h.transfers = [] ∧ h.inflight = [] ∧ h.oports = c.oports ∧ h.rports = c.rports) ∧
         e.fld (KEEPER_EVPC_VALID p) = 1 ∧ e.fld (KEEPER_EVPC_RPC p) = c.pc % 4096 ∧
         e.fld (KEEPER_EVPC_LPAIR p) = s.dev.lpairOf p % 16))

/-- A return that is due, of the bank occupied last, restores PC from the rfi's target and transfers, PSW, level, guards,
LC, operand and result ports, results in flight and a0 to a15 from the bank, frees it, and leaves the other bank and
the registers above a15 as they were. When the count of bundles without ISAFE has reached the limit and has not been
reported, ISAFE_STARVE sets FSTAT.STARVE and presents its fault input; a second one changes nothing. (R188; R194;
R179; spec/06_flow_interrupts.md; tier 2) -/
def Obligations.ReturnsAndStarvation : Prop :=
  ∀ (s : State) (p : Fin 16), s.dev.quiet p →
    let c := (s.dev.pair p).lead
    (∀ (t : Transfer) (k : Nat) (b : Bank), s.dev.atBoundary p = true → c.returnDue = true →
      c.transfers.find? (fun t => t.rfi && t.remain == 0) = some t → c.rfiBank = some k → c.bank k = some b →
      Completes (.returnRestore p) s fun e => e.cores p fun h => h.pc = t.target ∧ h.transfers = b.transfers ∧
        h.psw = b.psw ∧ h.level = b.level ∧ h.guards = b.guards ∧ h.lc = b.lc ∧ h.oports = b.oports ∧ h.rports = b.rports ∧
        h.inflight = b.inflight ∧ h.bank k = none ∧ h.bank (1 - k) = c.bank (1 - k) ∧
        (∀ i < 16, h.reg i = (arrGet (0 : DWord) b.a i).toNat) ∧ (∀ i, 16 ≤ i → h.reg i = c.reg i)) ∧
    (s.dev.pairRuns p = true → (s.dev.pair p).isafeMax ≤ c.isafeCount → c.starved = false →
      Completes (.isafeStarve p) s fun e => e.fld (INTC_FSTAT_STARVE (s.dev.lpairOf p)) = 1 ∧
        e.hasFault (pairFault p pfStarve) ((s.dev.pair p).segCount / 4 % 65536) = true ∧
        e.cores p fun h => h = { c with starved := true }) ∧
    (c.starved = true → Completes (.isafeStarve p) s fun e => e = s.dev)

/-- CHECKPOINT_DUE at a boundary marks the pair due where a condition of R211 holds. At a due boundary with every tag
done, failed or waiting for an event, no lock open and the previous release and delta complete, cores that agree hand
over the acknowledged set, spend 28 cycles and close the segment under their signature; where the count passes LIMIT
in these cycles, SEGOVR sets. Committing a closed segment on whose state the cores agree, in a pair that awaits no
fence, writes the slot not used last with the frame and the dirty words, empties the undo log, commit buffer and
happenings record, starts the release of the segment's entries, and advances the checkpoint number; a retry is then
reported as recovered. A segment that reaches LIMIT before K0 sets SEGOVR and presents SEG_OVERRUN once. (R211; R213;
R214; R216; R218; R177; R241; spec/07_lockstep_recovery.md; tier 2) -/
def Obligations.CheckpointsTaken : Prop :=
  ∀ (s : State) (p : Fin 16), s.dev.pairs.length = 16 →
    let x := s.dev.pair p
    let lp := s.dev.lpairOf p
    (s.dev.atBoundary p = true →
      (x.asked = true ∨ x.immIssued = true ∨ effective x.segLimit x.step - effective x.segDrain x.step ≤ x.segCount ∨
        248 < x.lead.cb.length + x.rel.length ∨ 960 < x.lead.undo.length + x.lead.undoReserved ∨ 24 ≤ x.happ.length) →
      Completes (.checkpointDue p) s fun e => e = s.dev.setPair p { x with due := true }) ∧
    (s.dev.atBoundary p = true → x.boundary = some .checkpoint → x.lead = x.shadow → (∀ t < 32, (x.lead.tag t).st ≠ .pending) →
      x.lead.lockAddr = none → x.releasing = false → x.deltaLeft = false →
      Completes (.checkpointK0 p) s fun e => (e.pair p).phase = .closed ∧ (e.pair p).segCount = x.segCount + 28 ∧
        (e.pair p).lead.acked = 0 ∧ (e.pair p).ckSig = (e.pair p).lead.signature (e.pair p).shadow ∧
        (e.pair p).lead = (e.pair p).shadow ∧
        (e.pair p).lead.cb = x.lead.cb ++ (if x.lead.acked = 0 then [] else [{ kind := .ack, addr := 0, data := x.lead.acked }]) ∧
        (effective x.segLimit x.step < x.segCount + 28 → x.overrun = false → e.fld (PAIRCTL_FSTAT_SEGOVR p) = 1) ∧
        (x.segCount + 28 ≤ effective x.segLimit x.step → (∀ o ∈ s.dev.test.offers, o.phys ≠ p.val) →
          e = s.dev.setPair p (e.pair p))) ∧
    (∀ h : HoldReport, s.dev.pairRuns p = true → x.phase = .closed → x.fencing = false → x.lead = x.shadow →
      Completes (.checkpointCommit p h) s fun e =>
        (e.pair p).phase = .run ∧ (e.pair p).lead.undo = [] ∧ (e.pair p).lead.cb = [] ∧ (e.pair p).happ = [] ∧
        (e.pair p).segCount = 0 ∧ (e.pair p).rel = x.lead.cb ∧ (e.pair p).relShadow = x.lead.cb ∧
        (e.pair p).releasing = !x.lead.cb.isEmpty ∧
        (e.pair p).deltaLeft = true ∧ (e.pair p).storeLead = x.lead.frame ∧ (e.pair p).storeShadow = x.shadow.frame ∧
        (e.pair p).ckNum = x.ckNum + 1 ∧ e.fld (PAIRCTL_CKNUM_CKNUM p) = (x.ckNum + 1) % 2 ^ 32 ∧
        (e.slotOf lp (!(s.dev.restartSlot lp))) =
          { ckNum := x.ckNum + 1, sig := x.ckSig, delta := x.lead.dirty, lpair := lp, step := x.step, valid := true,
            frame := x.lead.frame } ∧
        e.slotOf lp (s.dev.restartSlot lp) = s.dev.slotOf lp (s.dev.restartSlot lp) ∧
        (x.retried = true → e.fld (PAIRCTL_FSTAT_RECOVERED p) = 1 ∧
          e.fld (PAIRCTL_CNT_RESTARTS p) = min 65535 (s.dev.fld (PAIRCTL_CNT_RESTARTS p) + 1) ∧
          e.hasFault (pairFault p pfMismatch) (x.segCount / 4 % 65536) = true)) ∧
    (s.dev.pairRuns p = true → x.phase = .run → effective x.segLimit x.step ≤ x.segCount → x.overrun = false →
      Completes (.segOverrun p) s fun e => e.fld (PAIRCTL_FSTAT_SEGOVR p) = 1 ∧ e.pair p = { x with overrun := true } ∧
        e.hasFault (pairFault p pfOverrun) (x.segCount / 4 % 65536) = true) ∧
    (x.overrun = true → Completes (.segOverrun p) s fun e => e = s.dev)

/-- The entry at the head of a release, its two copies alike, leaves it where it is a sig (its producer's event is
produced), a clr (the consumer input's latch is emptied), a check-in, or an acknowledged set (the edge sources in it
are no longer pending); a store to a bank, and an I/O write of a register in I/O space, sets out as a request once and
stays at the head. Outside a release nothing happens. The first failure of a release puts its code and address into
CERR and CERRADDR, sets COMMITERR and awaits its entry in both cores; a further one is counted in MORE. A delta that
can be read is applied and the slot shows APPLIED. (R218; R219; R221; R222; R107; R165; R177; R379;
spec/07_lockstep_recovery.md; tier 2) -/
def Obligations.ReleaseProceeds : Prop :=
  ∀ (s : State) (p : Fin 16), s.dev.pairs.length = 16 →
    let x := s.dev.pair p
    let lp := s.dev.lpairOf p
    (∀ (e0 : CbEntry) (rest rest' : List CbEntry), x.releasing = true → x.rel = e0 :: rest → x.relShadow = e0 :: rest' →
      (e0.kind = .sig → Completes (.commitBufferRelease p) s fun e => (e.pair p).rel = rest ∧
        (e.pair p).releasing = !(rest.isEmpty && rest'.isEmpty) ∧
        e.evt.produced = s.dev.evt.produced ++ [{ prod := 322 + 4 * lp + e0.addr % 4 }]) ∧
      (e0.kind = .clr → Completes (.commitBufferRelease p) s fun e => (e.pair p).rel = rest ∧
        e.latch (8 * lp + e0.addr % 8) = none ∧ ∀ c, c ≠ 8 * lp + e0.addr % 8 → e.latch c = s.dev.latch c) ∧
      (e0.kind = .ack → Completes (.commitBufferRelease p) s fun e => (e.pair p).rel = rest ∧
        ∀ src < 256, edgeSource src = true → e.pendingAt lp src = (s.dev.pendingAt lp src && !e0.data.testBit src)) ∧
      (e0.kind = .chk → Completes (.commitBufferRelease p) s fun e => (e.pair p).rel = rest) ∧
      (x.relSent = false →
        (e0.kind = .store ∧ (∃ inst w, targetOf s.dev.remap e0.addr = .bank inst w 0)) ∨
          (e0.kind = .ioWrite ∧ e0.size = 4 ∧ e0.addr < 0x180000) →
        Completes (.commitBufferRelease p) s fun e => (e.pair p).relSent = true ∧ (e.pair p).rel = x.rel ∧
          ∃ r, e.fab.waiting = s.dev.fab.waiting ++ [r] ∧ r.phys = p.val ∧ r.lpair = lp ∧ r.req.addr = e0.addr ∧
            r.req.data = e0.data ∧ r.req.op = (if e0.kind = .store then .st else .ioWr)) ∧
      (e0.kind = .store ∨ e0.kind = .ioWrite → x.relSent = true → Completes (.commitBufferRelease p) s fun e => e = s.dev)) ∧
    (x.releasing = false → Completes (.commitBufferRelease p) s fun e => e = s.dev) ∧
    (∀ (code addr : Nat) (rest : List (Nat × Nat)), x.phase = .run → x.relFails = (code, addr) :: rest → code < 65536 →
      addr < 2 ^ 32 →
      Completes (.commitEntryFailure p) s fun e => (e.pair p).relFails = rest ∧
        (x.relFailed = false → e.fld (PAIRCTL_CERR_CODE p) = code ∧ e.fld (PAIRCTL_CERR_MORE p) = 0 ∧
          e.fld (PAIRCTL_CERRADDR_ADDR p) = addr ∧ e.fld (PAIRCTL_FSTAT_COMMITERR p) = 1 ∧
          (e.pair p).lead.commitErr = some (code, addr) ∧ (e.pair p).shadow.commitErr = some (code, addr)) ∧
        (x.relFailed = true → e.fld (PAIRCTL_CERR_MORE p) = min 255 (s.dev.fld (PAIRCTL_CERR_MORE p) + 1) ∧
          e.fld (PAIRCTL_CERR_CODE p) = s.dev.fld (PAIRCTL_CERR_CODE p))) ∧
    (x.deltaLeft = true →
      let b := s.dev.restartSlot lp
      Completes (.deltaApplied p) s fun e => (e.pair p).deltaLeft = false ∧
        (s.dev.readable → (s.dev.slotOf lp b).delta.length ≤ 1024 → (e.slotOf lp b).applied = true))

/-- A mismatch in a segment not yet re-executed sets FSTAT.MISMATCH, records kind, lane group and segment count, and
brings both cores back to PC, PSW, registers and level of their checkpoint stores, with empty commit buffers, under a
new execution mark; the release under way keeps its entries. In the retry, with no spare available, the cores stop,
NOSPARE is set and LS_NOSPARE presented. A pair out of work whose release is complete is FENCED, in retention too, its
cores' state cleared, its supply off and its requests gone, but for those of immediate class, which have departed.
Another pair's state is unchanged by either mismatch. A mismatch in the retry with spare q available, which has a
logical number of its own, whose mirror reads without an uncorrectable error: the logical pair is bound to q, which is
RECOVERING and shows the number, both its cores start from the restart slot's frame with the kept inputs, MIGRATED is
set in both pairs, LS_MIGRATED is presented, and the failing pair has no spare left. SPARE_FIRST_BUNDLE changes
nothing while the failing pair's release runs; once it is complete, the spare becomes ACTIVE and its bundle issues.
SPARE of an unlocked pair takes n and SPEN where SPEN is 0 or pair n is another pair in state SPARE, and sets BADSPARE
otherwise. CMPTEST.START asks for a test and clears DONE. The model's choices, no rules of the spec: a restart or
migration is one command (log entry 38); the two pairs exchange places in the binding (log entry 39). (R209; R239;
R240; R573; R244; R249; R391; R242; R243; R246; R248; spec/07_lockstep_recovery.md; tier 2) -/
def Obligations.RecoveryAndMigration : Prop :=
  (∀ (s : State) (p : Fin 16) (mm : Mismatch), s.dev.pairs.length = 16 →
     let x := s.dev.pair p
     (s.dev.recoverable p = true → x.retried = false → x.dbg.halted = false → x.dbg.stepping = false →
       Completes (.lockstepMismatch p mm) s fun e => e.fld (PAIRCTL_FSTAT_MISMATCH p) = 1 ∧
         e.fld (PAIRCTL_LASTMM_KIND p) = mm.kind ∧ e.fld (PAIRCTL_LASTMM_LG p) = mm.lg ∧
         e.fld (PAIRCTL_LASTMM_SEGCNT p) = x.segCount / 4 % 4096 ∧
         (e.pair p).mark = x.mark + 1 ∧ (e.pair p).retried = true ∧ (e.pair p).segCount = 0 ∧ (e.pair p).rel = x.rel ∧
         (e.pair p).lead.pc = x.storeLead.pc ∧ (e.pair p).shadow.pc = x.storeShadow.pc ∧
         (e.pair p).lead.regs = x.storeLead.regs ∧ (e.pair p).lead.psw = x.storeLead.psw ∧
         (e.pair p).lead.level = x.storeLead.level ∧ (e.pair p).lead.cb = [] ∧ (e.pair p).lead.undo = [] ∧
         (∀ q, q ≠ p.val → e.pair q = s.dev.pair q)) ∧
     (s.dev.recoverable p = true → x.retried = true → s.dev.spareOf p = none →
       Completes (.lockstepMismatch p mm) s fun e => (e.pair p).lead.stopped = true ∧ (e.pair p).shadow.stopped = true ∧
         (e.pair p).fencing = true ∧ e.fld (PAIRCTL_FSTAT_NOSPARE p) = 1 ∧
         e.hasFault (pairFault p pfNospare) (x.segCount / 4 % 65536) = true ∧ ∀ q, q ≠ p.val → e.pair q = s.dev.pair q) ∧
     (x.fencing = true → x.releasing = false → Completes (.pairFence p) s fun e =>
       e.pairState p = (if x.retiring then 5 else 4) ∧ arrGet 0 e.persist.pairState p = e.pairState p ∧ (e.pair p).vmv = 0 ∧
       (e.pair p).lead.regs = [] ∧ (e.pair p).rel = [] ∧ (∀ r ∈ e.fab.waiting ++ e.fab.granted, r.phys = p.val → r.req.imm = true) ∧
       (s.dev.mode = modeRun → e.mode = modeDegraded ∨ e.mode = modeSafeStop)) ∧
     (x.fencing = false → Completes (.pairFence p) s fun e => e = s.dev)) ∧
  (∀ (s : State) (p : Fin 16), s.dev.pairs.length = 16 → s.dev.bind.length = 16 →
     let x := s.dev.pair p
     let lp := s.dev.lpairOf p
     (∀ (q : Nat) (mm : Mismatch), q < 16 → s.dev.recoverable p = true → x.retried = true → s.dev.spareOf p = some q →
       s.dev.lpairOf q ≠ lp → x.dbg.halted = false → x.dbg.stepping = false → s.dev.readable →
       (s.dev.slotOf lp (s.dev.restartSlot lp)).delta.length ≤ 1024 →
       Completes (.lockstepMismatch p mm) s fun e =>
         let f := (s.dev.slotOf lp (s.dev.restartSlot lp)).frame
         e.physOf lp = q ∧ e.lpairOf q = lp ∧ e.spareOf p = none ∧ e.pairState q = stRecovering ∧
         (e.pair q).lead.pc = f.pc ∧ (e.pair q).lead.regs = f.regs ∧ (e.pair q).lead.psw = f.psw ∧
         (e.pair q).shadow.pc = f.pc ∧ (e.pair q).shadow.regs = f.regs ∧ (e.pair q).movedFrom = some p.val ∧
         (e.pair p).fencing = true ∧ (e.pair p).rel = x.rel ∧
         e.fld (PAIRCTL_FSTAT_MIGRATED p) = 1 ∧ e.fld (PAIRCTL_FSTAT_MIGRATED q) = 1 ∧
         e.hasFault (pairFault p pfMigrated) (x.segCount / 4 % 65536) = true) ∧
     (∀ q, x.movedFrom = some q →
       ((s.dev.pair q).releasing = true → Completes (.spareFirstBundle p) s fun e => e = s.dev) ∧
       (∀ b : Bundle, (s.dev.pair q).releasing = false → s.dev.quiet p → s.dev.pairRuns p = true → x.phase = .run →
         x.dbg.halted = false → x.fencing = false → x.boundary = some (.issue b) →
         let d1 := (s.dev.setPair p { x with movedFrom := none }).setPairState p stActive
         let y := x.lead.issue (d1.coreEnv p) b
         Completes (.spareFirstBundle p) s fun e => e.pairState p = stActive ∧ (e.pair p).movedFrom = none ∧
           (e.cores p fun k => k.pc = y.core.pc ∧ k.regs = y.core.regs ∧ k.rports = y.core.rports ∧
             k.transfers = y.core.transfers ∧ k.cb = y.core.cb) ∧
           (y.outs = [] → y.notes = [] → fetchNotes x.lead.imem x.lead.pc = [] →
             e.cores p fun k => k = y.core.restartIsafe (Config.freeBit (x.choice + 1))))) ∧
     (∀ w : Word, s.dev.fld (PAIRCTL_LOCK_LOCK p) = 0 →
       let n := w.toNat % 16
       (w.toNat.testBit 4 = true → (n = p.val ∨ s.dev.pairState n ≠ stSpare) →
         Completes (.spareDesignation p w) s fun e => e.fld (PAIRCTL_FSTAT_BADSPARE p) = 1 ∧ e.pairs = s.dev.pairs ∧
           e.fld (PAIRCTL_SPARE_SPARE p) = s.dev.fld (PAIRCTL_SPARE_SPARE p)) ∧
       ((w.toNat.testBit 4 = false ∨ (n ≠ p.val ∧ s.dev.pairState n = stSpare)) →
         Completes (.spareDesignation p w) s fun e => e.fld (PAIRCTL_SPARE_SPARE p) = n ∧
           e.fld (PAIRCTL_SPARE_SPEN p) = (if w.toNat.testBit 4 then 1 else 0) ∧
           e.spareGone.testBit p = false ∧ (e.pair p).capture = x.capture ++ [.spare (w.toNat.testBit 4) n] ∧
           (w.toNat.testBit 4 = true → s.dev.fld (AGEING_PAIR_STEP n) < s.dev.fld (AGEING_PAIR_STEP p) → e.fld (PAIRCTL_FSTAT_SLOWSPARE p) = 1))) ∧
     (Completes (.cmptestStart p) s fun e => (e.pair p).cmpTest = true ∧ e.fld (PAIRCTL_CMPTEST_DONE p) = 0))

/-- For a line or position timebase with a sample waiting and 8 lt since the last: the first sample sets P to its target
without a move. A later one with a valid revolution count sets VEL as R258 filters it; with d from the position at the
end of the last lt, |d| above half a turn jumps (P takes the target, no crossing, JUMP and LTN_JUMP), a small d
against VEL holds P, and any other moves P to the target. A sample not later than the one before changes neither P nor
VEL. A hold resumes once its target has reached P in the direction of VEL. ADJ is summed while enabled and discarded
while not; LTIMEHI delivers the line registers as one sample. The model's choices, no rules of the spec: the position
from which an lt's step starts (log entry 78). (R256; R257; R258; R259; R260; R261; R262; spec/08_lantern.md; tier 2) -/
def Obligations.SamplesFollowed : Prop :=
  ∀ (s : State) (t : Fin 16) (det : MainsOut),
    let d := s.dev
    let x := d.tb t
    let L := d.lantern.lt
    (∀ smp : Sample, d.tbOn t = true → (d.tbSrc t = 1 ∨ d.tbSrc t = 3) → x.waiting = some smp → x.holdover = false →
      (∀ l, x.lastTaken = some l → l + 8 ≤ L) →
      let ps : Nat := (d.fld (LANTERN_TBCFG_POLES t) * (smp.angle % 2 ^ 48 + (if smp.revOk then smp.rev % 65536 else 0) * 2 ^ 48) +
        d.fld (LANTERN_TBOFFSET_OFFSET t) * 65536) % 2 ^ 64
      (x.prev = none → CompletesClocked (.timebaseSample t det) s fun e =>
        (e.tb t).p = BitVec.ofInt 64 (ps + (x.vel.toInt * (16 * L - smp.time)).tdiv 16) ∧ (e.tb t).vel = x.vel ∧
        (e.tb t).valid = true ∧ (e.tb t).moved = false ∧ (e.tb t).prev = some (ps, smp.time) ∧ (e.tb t).waiting = none ∧
        e = d.setTb t (e.tb t)) ∧
      (∀ pp tp : Nat, x.prev = some (pp, tp) → smp.time ≤ tp → CompletesClocked (.timebaseSample t det) s fun e =>
        (e.tb t).p = x.p ∧ (e.tb t).vel = x.vel ∧ (e.tb t).prev = x.prev ∧ e = d.setTb t (e.tb t)) ∧
      (∀ pp tp : Nat, x.prev = some (pp, tp) → tp < smp.time → smp.revOk = true →
        let raw : Int := satInt 32 (((BitVec.ofInt 64 ((ps : Int) - pp)).toInt * 16).tdiv ((smp.time : Int) - tp))
        let v : Int := if x.velFresh then raw else x.vel.toInt + (raw - x.vel.toInt) >>> d.fld (LANTERN_TBCFG_VSH t)
        let T : DWord := BitVec.ofInt 64 (ps + (v * (16 * L - smp.time)).tdiv 16)
        let dd : Int := (T - x.p0).toInt
        let against := dd ≠ 0 ∧ v ≠ 0 ∧ (dd < 0 ↔ 0 < v) ∧ dd.natAbs ≤ d.fld (LANTERN_TBHYST_HYST t) * 65536
        CompletesClocked (.timebaseSample t det) s fun e => (e.tb t).vel = BitVec.ofInt 32 v ∧ (e.tb t).valid = true ∧
          (e.tb t).prev = some (ps, smp.time) ∧ (∀ u, u ≠ t.val → e.tb u = d.tb u) ∧
          (2 ^ 47 < dd.natAbs → (e.tb t).p = T ∧ (e.tb t).moved = false ∧ (e.tb t).held = none ∧ (e.tb t).velFresh = true ∧
            (e.fld LANTERN_ISTAT_JUMP).testBit t = true ∧ e.hasFault fiLtnJump t = true) ∧
          (dd.natAbs ≤ 2 ^ 47 → against → (e.tb t).p = x.p0 ∧ (e.tb t).held = some T ∧ e.io = d.io) ∧
          (dd.natAbs ≤ 2 ^ 47 → ¬ against → (e.tb t).p = T ∧ (e.tb t).moved = true ∧ (e.tb t).held = none ∧ e.io = d.io))) ∧
    (∀ T : DWord, d.tbOn t = true → x.held = some T → 0 < x.vel.toInt →
      (0 ≤ (T - x.p).toInt → CompletesClocked (.holdResume t) s fun e =>
        (e.tb t).p = T ∧ (e.tb t).held = none ∧ (e.tb t).moved = true ∧ e = d.setTb t (e.tb t)) ∧
      ((T - x.p).toInt < 0 → CompletesClocked (.holdResume t) s fun e => e = d)) ∧
    (∀ v : Word, (d.tbOn t = true → Completes (.adj t v) s fun e =>
        e = d.setTb t { x with adj := x.adj + v.toInt, adjAny := true }) ∧
      (d.tbOn t = false → Completes (.adj t v) s fun e => e = d)) ∧
    (∀ hi : Word, d.tbOn t = true → d.tbSrc t = 3 → Completes (.lineSampleDelivery t hi) s fun e =>
      let smp : Sample := ⟨d.fld (LANTERN_TBLPOSA_ANGLE t) * 65536, d.fld (LANTERN_TBLPOSR_REV t),
        d.on (LANTERN_TBLPOSR_REVOK t), d.fld (LANTERN_TBLTIMELO_TIME t) + hi.toNat * 2 ^ 32⟩
      e = d.setTb t { x with waiting := some smp })

/-- A write of CFG stores its fields, those under LOCK only while LOCK is 0, a SEL beyond its source as 0 and POLES 0 as
1; P and VEL stay, and where EN changes, or the source of an enabled timebase, it has no previous sample and is not
valid. A source with STALE above 0 that has given no valid sample for STALE µs is lost once: VALID 0, LOSS, LTN_LOSS,
and VEL stays. MAINS_LOCK locks a mains timebase whose phase error has stayed small, its frequency near NOM, for four
nominal cycles, and ends holdover; a locked one whose error has been large for two, whose frequency has left ±10 % of
NOM, or whose channel has delivered fewer than 200 conversions in a cycle goes into holdover at the last locked
velocity with LOSS and LTN_LOSS. Otherwise neither does anything. Let a timebase that detects crossings have moved in
the present lt from P0 by at most half a turn over an angle at X. A comparator on it, enabled in an earlier lt, with
that ANGLE and a DIR that admits the direction, records 16(L - 1) + ceil(16 |X - P0| / |P1 - P0|) as its stamp, P1's
angle and REV, sets FIRED and produces its event with the stamp; one-shot it clears EN, periodic with a PERIOD that
leaves the move it adds PERIOD in the direction of the crossing. A detector armed earlier with that angle and
direction becomes idle and sends gate, generation and stamp to the pair's capture stage. A comparator written in the
same lt takes the crossing of the target that it had before, and keeps what was written. A comparator that is off and
a detector that is not armed do nothing. The model's choices, no rules of the spec: a crossing is found only by a
command of its own lt (log entry 80). (R255; R263; R264; R265; R266; R290; R267; R268; R269; R270; R271;
spec/08_lantern.md; tier 2) -/
def Obligations.TimebasesAndCrossings : Prop :=
  (∀ (s : State) (t : Fin 16),
     let d := s.dev
     let x := d.tb t
     let cycle : Nat := 960000000000 / d.fld (LANTERN_TBMAINS_NOM t)
     let may : Prop := ∃ g, x.goodSince = some g ∧ g + 4 * cycle ≤ d.lanternTime
     let must : Prop := (∃ b, x.badSince = some b ∧ b + 2 * cycle ≤ d.lanternTime) ∨ x.offFreq = true ∨
       x.convTimes[199]? = none ∨ (∃ u, x.convTimes[199]? = some u ∧ u + cycle < d.lanternTime)
     (∀ w : Word, Completes (.timebaseEnable t w) s fun e =>
       e.fld (LANTERN_TBCFG_EN t) = bitOf w.toNat 31 ∧ e.fld (LANTERN_TBCFG_VSH t) = bitsOf w.toNat 17 3 ∧
       e.fld (LANTERN_TBCFG_STALE t) = bitsOf w.toNat 0 16 ∧ (e.tb t).p = x.p ∧ (e.tb t).vel = x.vel ∧
       (d.fld LANTERN_LOCK_LOCK = 0 → e.fld (LANTERN_TBCFG_SRC t) = bitsOf w.toNat 29 2 ∧
         e.fld (LANTERN_TBCFG_POLES t) = (if bitsOf w.toNat 20 4 = 0 then 1 else bitsOf w.toNat 20 4) ∧
         e.fld (LANTERN_TBCFG_SEL t) =
           (if (bitsOf w.toNat 29 2 = 1 ∧ 11 < bitsOf w.toNat 24 5) ∨ (bitsOf w.toNat 29 2 = 2 ∧ 23 < bitsOf w.toNat 24 5)
            then 0 else bitsOf w.toNat 24 5)) ∧
       (d.fld LANTERN_LOCK_LOCK = 1 → e.fld (LANTERN_TBCFG_SRC t) = d.fld (LANTERN_TBCFG_SRC t) ∧
         e.fld (LANTERN_TBCFG_POLES t) = d.fld (LANTERN_TBCFG_POLES t)) ∧
       (e.fld (LANTERN_TBCFG_EN t) ≠ d.fld (LANTERN_TBCFG_EN t) ∨
         (d.tbOn t = true ∧ e.fld (LANTERN_TBCFG_SRC t) ≠ d.fld (LANTERN_TBCFG_SRC t)) →
         (e.tb t).prev = none ∧ (e.tb t).valid = false ∧ (e.tb t).locked = false ∧ (e.tb t).holdover = false ∧
         (e.tb t).held = none) ∧
       (∀ g < 12, d.on (PWM_CFG_EN g) = true → (d.group g).act.carr = true → (d.group g).act.tb = t.val →
         e.tbOn t = false → (e.group g).safe = true) ∧
       ∀ u, u ≠ t.val → e.tb u = d.tb u) ∧
     (d.tbOn t = true → d.tbSrc t ≠ 0 → d.fld (LANTERN_TBCFG_STALE t) ≠ 0 → x.lossTold = false →
       x.lastValid + 600 * d.fld (LANTERN_TBCFG_STALE t) ≤ d.lantern.lt → CompletesClocked (.ltnLoss t) s fun e =>
         (e.tb t).valid = false ∧ (e.tb t).vel = x.vel ∧ (e.tb t).p = x.p ∧ (e.fld LANTERN_ISTAT_LOSS).testBit t = true ∧
         e.hasFault fiLtnLoss t = true) ∧
     (d.fld (LANTERN_TBCFG_STALE t) = 0 → CompletesClocked (.ltnLoss t) s fun e => e = d) ∧
     (d.tbOn t = true → d.tbSrc t = 2 → x.locked = false → may → CompletesClocked (.mainsLock t) s fun e =>
       e = d.setTb t { x with locked := true, everLocked := true, holdover := false, returning := x.holdover }) ∧
     (¬ may → CompletesClocked (.mainsLock t) s fun e => e = d) ∧
     (¬ must → CompletesClocked (.holdover t) s fun e => e = d) ∧
     (d.tbOn t = true → d.tbSrc t = 2 → x.locked = true → must → CompletesClocked (.holdover t) s fun e =>
       (e.tb t).holdover = true ∧ (e.tb t).locked = false ∧ (e.tb t).p = x.p ∧
       (e.tb t).vel = BitVec.ofInt 32 (satInt 32 (x.lockVel * d.fld (LANTERN_TBCFG_POLES t))) ∧
       (e.fld LANTERN_ISTAT_LOSS).testBit t = true ∧ e.hasFault fiLtnLoss t = true)) ∧
  (∀ (s : State) (tb r a : Nat) (up : Bool) (X : Int),
     let d := s.dev
     let x := d.tb tb
     let L := d.lantern.lt
     let dist : Nat := (X - x.p0.toNat).natAbs
     let stamp : Nat := 16 * (L - 1) + (16 * dist + r - 1) / r
     tb < 16 → d.tbOn tb = true → x.moved = true → (d.tbSrc tb = 2 → x.everLocked = true) → 0 < r → r ≤ 2 ^ 47 → a < 2 ^ 32 →
     (x.p - x.p0).toInt = (if up then (r : Int) else -r) → X % 2 ^ 48 = a * 65536 →
     (if up then (x.p0.toNat : Int) < X ∧ X ≤ x.p0.toNat + r else X < x.p0.toNat ∧ x.p0.toNat - r ≤ X) →
     (∀ c : Fin 256, d.cmpBefore c = none → d.fld (LANTERN_CMPCFG_EN c) = 1 → d.fld (LANTERN_CMPCFG_TB c) = tb → d.fld (LANTERN_CMPANGLE_ANGLE c) = a →
       d.cmpSince c < L →
       (d.fld (LANTERN_CMPCFG_DIR c) ≠ (if up then 1 else 0) → CompletesClocked (.comparatorCrossing c) s fun e =>
         e.fld64 (LANTERN_CMPSTAMPLO_STAMP c) (LANTERN_CMPSTAMPHI_STAMP c) = stamp % 2 ^ 64 ∧
         e.fld (LANTERN_CMPSTAMPPOS_POS c) = bitsOf x.p.toNat 16 32 ∧ e.fld (LANTERN_CMPSTAT_REV c) = bitsOf x.p.toNat 48 16 ∧
         e.fld (LANTERN_CMPSTAT_FIRED c) = 1 ∧ e.evt.produced = d.evt.produced ++ [{ prod := c, stamp := some stamp }] ∧
         (d.fld (LANTERN_CMPCFG_MODE c) = 0 → e.fld (LANTERN_CMPCFG_EN c) = 0 ∧ e.fld (LANTERN_CMPANGLE_ANGLE c) = a) ∧
         (d.fld (LANTERN_CMPCFG_MODE c) = 1 →
           (d.fld (LANTERN_CMPPERIOD_PERIOD c) = 0 ∨ r - dist < d.fld (LANTERN_CMPPERIOD_PERIOD c) * 65536) →
           e.fld (LANTERN_CMPCFG_EN c) = 1 ∧ e.cmpSince c = L ∧ e.fld (LANTERN_CMPSTAT_MISS c) = d.fld (LANTERN_CMPSTAT_MISS c) ∧
           e.fld (LANTERN_CMPANGLE_ANGLE c) =
             ((if up then a + d.fld (LANTERN_CMPPERIOD_PERIOD c) else a + 2 ^ 32 - d.fld (LANTERN_CMPPERIOD_PERIOD c)) % 2 ^ 32)) ∧
         e.lantern.tbs = d.lantern.tbs) ∧
       (d.fld (LANTERN_CMPCFG_DIR c) = (if up then 1 else 0) → CompletesClocked (.comparatorCrossing c) s fun e => e = d)) ∧
     (∀ (c : Fin 256) (o : CmpOld), d.cmpBefore c = some o → o.was.en = true → o.was.since < L → o.was.tb = tb →
       o.was.angle = a → o.was.dir ≠ (if up then 1 else 0) → CompletesClocked (.comparatorCrossing c) s fun e =>
         e.fld64 (LANTERN_CMPSTAMPLO_STAMP c) (LANTERN_CMPSTAMPHI_STAMP c) = stamp % 2 ^ 64 ∧
         e.fld (LANTERN_CMPSTAT_FIRED c) = 1 ∧ e.evt.produced = d.evt.produced ++ [{ prod := c, stamp := some stamp }] ∧
         (o.wroteCfg = true → e.fld (LANTERN_CMPCFG_EN c) = d.fld (LANTERN_CMPCFG_EN c)) ∧
         (o.wroteAngle = true → e.fld (LANTERN_CMPANGLE_ANGLE c) = d.fld (LANTERN_CMPANGLE_ANGLE c))) ∧
     (∀ c : Fin 256, d.cmpBefore c = none → d.fld (LANTERN_CMPCFG_EN c) = 0 → CompletesClocked (.comparatorCrossing c) s fun e => e = d) ∧
     (∀ (n : Fin 16) (k : Fin 8), d.pairs.length = 16 → (d.detector n k).tb = tb → (d.detector n k).angle = a →
       ((d.detector n k).armed = true → (d.detector n k).since < L → (d.detector n k).down = !up →
         CompletesClocked (.gateRelease n k) s fun e =>
           (e.pair n).capture = (d.pair n).capture ++ [.gate k (d.detector n k).gen tb a (!up) stamp] ∧
           e.detector n k = { d.detector n k with armed := false, sent := true } ∧ e.io = d.io) ∧
       ((d.detector n k).armed = false → CompletesClocked (.gateRelease n k) s fun e => e = d)))

/-- The oldest valley of a group produces VALLEY with its stamp. Where it is a load event, the active set takes the shadow
set that the group noted at the start of the event's lt with LDM 0 or RDY 1 there (RDY then clears, unless it was set
since; LOAD is set); with LDM 1 and RDY 0 it is kept and REPEAT counts. A forced group whose causes have cleared
drives its set again at the event; one with a cause stays forced. A peak takes the compare values alone. Enabling
copies the shadow set, clears RDY and starts the carrier at PHASE mod PERIOD; SYNC restarts the enabled time carriers
of its mask there, a valley where that is 0. A group with none to report changes nothing. CTL.FORCE 1 forces the
group; FORCE 0 and TRIPCLR only remove their cause. A tripped masked input sets an unset latch, which sets ISTAT.TRIP,
produces TRIP, presents OC_TRIP and forces the group; with no tripped input or a set latch nothing changes. Pins found
at other levels than the command's are so read, and one that has differed for more than 200 ns sets PINERR and
presents PWM_PINERR. Of a complementary channel, the levels that an edge step computes never have both outputs high,
and no SAFE does so while the group is forced; a forced output is low unless its safe level is high, and goes high
from 50 ns to 100 ns after the cause. The model's choices, no rules of the spec: a load acts when the command of its
valley or peak runs (log entry 81); which pins follow their commands (log entry 85). (R280; R285; R286; R287; R293;
R296; R278; R281; R282; R283; R290; spec/09_drive_io.md; tier 2) -/
def Obligations.PwmGroups : Prop :=
  (∀ (s : State) (g : Fin 12),
     let d := s.dev
     let G := d.group g
     (G.valleys = [] → CompletesClocked (.carrierValley g) s fun e => e = d) ∧
     (G.peaks = [] → CompletesClocked (.carrierPeak g) s fun e => e = d) ∧
     (∀ (ev : PwmEvent) (rest : List PwmEvent), G.valleys = ev :: rest → CompletesClocked (.carrierValley g) s fun e =>
       e.evt.produced = d.evt.produced ++ [{ prod := 256 + g, stamp := some (16 * (ev.lt - 1) + ev.step) }] ∧ (e.group g).valleys = rest ∧
       (∀ h, h ≠ g.val → e.group h = d.group h) ∧
       (d.fld (PWM_CFG_LDE g) = 1 → G.act.shape = true → (e.group g).act = G.act ∧ e.io = d.io) ∧
       (d.fld (PWM_CFG_LDE g) = 0 ∨ d.fld (PWM_CFG_LDE g) = 2 →
         (d.fld (PWM_CFG_LDM g) = 0 ∨ ev.rdy = true → (e.group g).act = ev.set ∧ e.fld (PWM_ISTAT_LOAD g) = 1 ∧
           (d.fld (PWM_CFG_LDM g) = 1 → (∀ l, G.rdyAt = some l → l < ev.lt) → e.fld (PWM_CTL_RDY g) = 0)) ∧
         (d.fld (PWM_CFG_LDM g) = 1 → ev.rdy = false → (e.group g).act = G.act ∧
           e.fld (PWM_ISTAT_REPEAT g) = 1 ∧ e.fld (PWM_STAT_REPEAT g) = min 65535 (d.fld (PWM_STAT_REPEAT g) + 1)) ∧
         (e.forceCauses g = 0 → (e.group g).safe = false) ∧ (e.forceCauses g ≠ 0 → (e.group g).safe = true))) ∧
     (∀ (ev : PwmEvent) (rest : List PwmEvent), G.peaks = ev :: rest → CompletesClocked (.carrierPeak g) s fun e =>
       e.evt.produced = d.evt.produced ++ [{ prod := 268 + g, stamp := some (16 * (ev.lt - 1) + ev.step) }] ∧ (e.group g).peaks = rest ∧
       (d.fld (PWM_CFG_LDE g) = 0 → (e.group g).act = G.act ∧ e.io = d.io) ∧
       (d.fld (PWM_CFG_LDE g) = 1 ∨ d.fld (PWM_CFG_LDE g) = 2 →
         d.fld (PWM_CFG_LDM g) = 0 ∨ ev.rdy = true →
         (e.group g).act = { G.act with cmpA := ev.set.cmpA, cmpB := ev.set.cmpB })) ∧
     (d.fld (PWM_CFG_EN g) = 0 → d.mode ≠ modeFog → Completes (.pwmGroupEnable g) s fun e =>
       e.fld (PWM_CFG_EN g) = 1 ∧ e.fld (PWM_CTL_RDY g) = 0 ∧ (e.group g).act = d.shadowSet g ∧ (e.group g).running = true ∧
       (e.group g).k = d.fld (PWM_PHASE_PHASE g) % d.fld (PWM_PERIOD_PERIOD g) ∧
       (d.fld SAFEISL_STAT_FORCE = 1 → (e.group g).safe = true)) ∧
     (d.fld (PWM_CFG_EN g) = 1 → Completes (.pwmGroupEnable g) s fun e => e = d) ∧
     (∀ mask : BitVec 12, Completes (.pwmSync mask) s fun e => e.io = d.io ∧
       (mask.toNat.testBit g = true → d.fld (PWM_CFG_EN g) = 1 → G.act.carr = false →
         (e.group g).k = G.act.phase % G.act.period ∧
         (e.group g).valleys = (if G.act.phase % G.act.period = 0 then
           G.valleys ++ [{ lt := d.lantern.lt, step := 16, set := G.shadow, rdy := G.rdy }] else G.valleys)) ∧
       (mask.toNat.testBit g = false ∨ d.fld (PWM_CFG_EN g) = 0 ∨ G.act.carr = true → e.group g = G))) ∧
  (∀ (s : State) (g : Fin 12),
     let d := s.dev
     (Completes (.swForce g true) s fun e => e.fld (PWM_CTL_FORCE g) = 1 ∧ (e.group g).safe = true) ∧
     (Completes (.swForce g false) s fun e => e.fld (PWM_CTL_FORCE g) = 0 ∧
       ((d.group g).safe = true → (e.group g).safe = true)) ∧
     (Completes (.tripclr g) s fun e => e = d.setGroup g { d.group g with trip := false }) ∧
     ((d.group g).trip = false → (∃ n < 36, (d.tripMask g).testBit n = true ∧ d.sdfTripped n = true) →
       CompletesClocked (.tripLatchSet g) s fun e => (e.group g).trip = true ∧ (e.group g).safe = true ∧
         e.fld (PWM_ISTAT_TRIP g) = 1 ∧ e.hasFault fiOcTrip g = true ∧
         e.evt.produced = d.evt.produced ++ [{ prod := 280 + g, stamp := some d.lanternTime }]) ∧
     ((d.group g).trip = true ∨ (∀ n < 36, (d.tripMask g).testBit n = true → d.sdfTripped n = false) →
       CompletesClocked (.tripLatchSet g) s fun e => e = d) ∧
     (∀ lvl : BitVec 6,
       let off (j : Nat) : Prop := lvl.toNat.testBit j ≠ (d.pwmCmd g).testBit j ∧ 120 < nth 0 (d.group g).differ j
       CompletesClocked (.pwmPinerr g lvl) s fun e => e.pwmPins g = lvl.toNat ∧ e.pwmCmd g = d.pwmCmd g ∧
         ((∃ j < 6, off j) → e.fld (PWM_ISTAT_PINERR g) = 1 ∧ e.hasFault fiPinerr g = true) ∧
         ((∀ j < 6, ¬ off j) → e.io = d.io ∧ e.island = d.island)) ∧
     (∀ (a : ActiveSet) (k : Nat) (x : List Nat × Nat), ∀ c < 3, a.indep.testBit c = false →
       ¬ ((outStep a k x).2.testBit (2 * c) = true ∧ (outStep a k x).2.testBit (2 * c + 1) = true)) ∧
     ((d.group g).safe = true → d.held = false → ∀ j < 6, (d.safeLevel g j ≠ 1 → (d.pwmCmd g).testBit j = false) ∧
       (d.ticks < (d.group g).forcedAt + 30 → (d.pwmCmd g).testBit j = false) ∧
       (d.safeLevel g j = 1 → (d.group g).forcedAt + 60 ≤ d.ticks → (d.pwmCmd g).testBit j = true)) ∧
     ((d.group g).safe = true → ∀ c < 3, (d.group g).act.indep.testBit c = false →
       ¬ ((d.pwmCmd g).testBit (2 * c) = true ∧ (d.pwmCmd g).testBit (2 * c + 1) = true)))

/-- For an enabled input and each of the three rows that bring modulator bits, one clock takes the bit into the record,
sets FAST to the sinc2 sum over the last 2 FOSR bits, trips high at the FCNT-th clock in a row above FTHR.HI with
TRIPH and the input's event, ends the trip when the sum is no longer above, and, when due and 3 DEC clocks have come
since the input was enabled, sets DATA to the sinc3 sum over the last 3 DEC bits with DRDY; several bits act one after
another. 2 us without a clock from outside sets CKLOSS, presents SDF_CKLOSS and counts as tripped until the clock
returns. A triggered snapshot set copies DATA of its masked filters and records the time. An idle enabled converter
starts from its latched trigger, in continuous mode, or at START, and a START while busy sets SWOVR; at its end every
slot's code enters RES, SEQCNT advances, STAMP takes slot 0's instant, and DONE is set and produced. A resolver sample
outside 25 to 95 % sets AMPLO or AMPHI and delivers nothing, another delivers its angle with REVOK 0. A quadrature
step counts by one and a double change sets QERR; Z acts by ZMODE; a due ABZ delivery gives the count's angle and
revolutions. A due SSI frame gives its fields, and one whose line is not high sets SERR. Times that are not due change
nothing. The model's choices, no rules of the spec: bits before the first clock (log entry 82); the length of a
sequence (log entry 83); the scale of the resolver and the levels of ABZ (log entry 84). (R297; R298; R299; R301;
R302; R303; R304; R305; R306; R307; R308; spec/09_drive_io.md; tier 2) -/
def Obligations.DriveInputs : Prop :=
  (∀ (s : State) (n : Fin 36),
     let d := s.dev
     let x := d.sdf n
     (∀ b : Bool, d.fld (SDF_CFG_EN n) = 1 → 1 ≤ d.fld (SDF_CFG_FCNT n) →
       ∀ c ∈ [Instr.sdfFilterOutput n [b], .sdfFastTrip n [b], .sdfTripEnd n [b]],
       let bits := b :: x.bits.take 767
       let v := sinc2 (d.fld (SDF_CFG_FOSR n)) bits
       CompletesClocked c s fun e => (e.sdf n).bits = bits ∧ e.fld (SDF_FAST_FAST n) = wrap 16 v ∧ (e.sdf n).lost = false ∧
         (x.toNext = 1 → (e.sdf n).toNext = d.fld (SDF_CFG_DEC n) ∧
           (3 * d.fld (SDF_CFG_DEC n) ≤ x.clocks + 1 →
             e.fld (SDF_DATA_DATA n) = wrap 32 (sinc3 (d.fld (SDF_CFG_DEC n)) bits) ∧ e.fld (SDF_ISTAT_DRDY n) = 1) ∧
           (x.clocks + 1 < 3 * d.fld (SDF_CFG_DEC n) → e.fld (SDF_DATA_DATA n) = d.fld (SDF_DATA_DATA n))) ∧
         (1 < x.toNext → e.fld (SDF_DATA_DATA n) = d.fld (SDF_DATA_DATA n) ∧ (e.sdf n).toNext = x.toNext - 1) ∧
         (sext 16 (d.fld (SDF_FTHR_HI n)) < v → x.high = false → x.hiRun + 1 = d.fld (SDF_CFG_FCNT n) →
           (e.sdf n).high = true ∧ e.fld (SDF_ISTAT_TRIPH n) = 1 ∧
           { prod := 464 + n, stamp := some d.lanternTime } ∈ e.evt.produced) ∧
         (sext 16 (d.fld (SDF_FTHR_HI n)) < v → x.high = false → x.hiRun + 1 < d.fld (SDF_CFG_FCNT n) → (e.sdf n).high = false) ∧
         (v ≤ sext 16 (d.fld (SDF_FTHR_HI n)) → (e.sdf n).high = false) ∧
         (v < sext 16 (d.fld (SDF_FTHR_LO n)) → x.low = false → x.loRun + 1 = d.fld (SDF_CFG_FCNT n) →
           (e.sdf n).low = true ∧ e.fld (SDF_ISTAT_TRIPL n) = 1)) ∧
     (∀ bits : List Bool, ∀ c ∈ [Instr.sdfFilterOutput n bits, .sdfFastTrip n bits, .sdfTripEnd n bits],
       CompletesClocked c s fun e => e = bits.foldl (fun (d : Dev) b => d.sdfBits n [b]) d) ∧
     (d.fld (SDF_CFG_EN n) = 1 → d.fld (SDF_CFG_CKOUT n) = 0 → x.lost = false → x.lastClock + 1200 ≤ d.ticks →
       CompletesClocked (.sdfCkloss n) s fun e => e.fld (SDF_ISTAT_CKLOSS n) = 1 ∧ e.hasFault fiCkloss n = true ∧
         e.sdfTripped n = true) ∧
     (d.ticks < x.lastClock + 1200 → CompletesClocked (.sdfCkloss n) s fun e => e = d) ∧
     (CompletesClocked (.sdfClockReturn n) s fun e => e = d.setSdf n { x with lost := false, lastClock := d.ticks }) ∧
     (∀ setB : Bool, (d.latch (if setB then 135 else 134) = none → CompletesClocked (.sdfSnapshot setB) s fun e => e = d) ∧
       (d.latch (if setB then 135 else 134) ≠ none → CompletesClocked (.sdfSnapshot setB) s fun e =>
         e.latch (if setB then 135 else 134) = none ∧
         e.fld64 (if setB then SDF_SNAPTBLO_TIME else SDF_SNAPTALO_TIME)
           (if setB then SDF_SNAPTBHI_TIME else SDF_SNAPTAHI_TIME) = d.lanternTime % 2 ^ 64 ∧
         ((if setB then d.fld SDF_SNAPMB0_MASK + d.fld SDF_SNAPMB1_MASK * 2 ^ 32
             else d.fld SDF_SNAPMA0_MASK + d.fld SDF_SNAPMA1_MASK * 2 ^ 32).testBit n = true →
           e.fld (if setB then SDF_SNAPB_DATA n else SDF_SNAPA_DATA n) = d.fld (SDF_DATA_DATA n) ∧
           (d.fld (SDF_CFG_RST n) = 1 → (e.sdf n).toNext = d.fld (SDF_CFG_DEC n) ∧ (e.sdf n).bits = x.bits))))) ∧
  (∀ s : State,
     let d := s.dev
     (∀ c : Fin 6,
       let t0 := (d.adc c).lastEnd.getD ((d.lanternTime / 96 + 1) * 96)
       (d.fld (ADC_CFG_EN c) = 1 → (d.adc c).seq = none →
         (d.fld (ADC_CFG_TRIG c) = 2 → CompletesClocked (.adcSequenceStart c) s fun e =>
           (e.adc c).seq = some { t0 := t0, slots := d.adcSlots c, trig := none }) ∧
         (∀ tr, d.fld (ADC_CFG_TRIG c) = 0 → d.latch (128 + c) = some tr → CompletesClocked (.adcSequenceStart c) s fun e =>
           (e.adc c).seq = some { t0 := t0, slots := d.adcSlots c, trig := some tr } ∧ e.latch (128 + c) = none) ∧
         (d.fld (ADC_CFG_TRIG c) = 0 → d.latch (128 + c) = none → CompletesClocked (.adcSequenceStart c) s fun e => e = d) ∧
         (d.fld (ADC_CFG_TRIG c) = 1 → Completes (.adcStart c) s fun e =>
           (e.adc c).seq = some { t0 := t0, slots := d.adcSlots c, trig := none } ∧ e.io = d.io)) ∧
       (d.fld (ADC_CFG_EN c) = 1 → (d.adc c).seq ≠ none → d.fld (ADC_CFG_TRIG c) = 1 → Completes (.adcStart c) s fun e =>
         e.fld (ADC_ISTAT_SWOVR c) = 1 ∧ e.adc c = d.adc c) ∧
       (∀ (q : AdcSeq) (volts : List Int), (d.adc c).seq = some q → q.slots.length ≤ 4 →
         (d.lanternTime < q.t0 + 1920 * q.slots.length → CompletesClocked (.adcSequenceDone c volts) s fun e => e = d) ∧
         (q.t0 + 1920 * q.slots.length ≤ d.lanternTime → CompletesClocked (.adcSequenceDone c volts) s fun e =>
           (∀ j < q.slots.length, e.fld (ADC_RES_DATA c j) =
             (if nth 0 volts j ≤ 0 then 0 else min 65535 ((nth 0 volts j).toNat * 65536 / 3000000))) ∧
           (∀ j < 4, e.fld (ADC_RES_SEQCNT c j) = (d.fld (ADC_RES_SEQCNT c 0) + 1) % 65536) ∧
           e.fld64 (ADC_STAMPLO_STAMP c) (ADC_STAMPHI_STAMP c) = (q.t0 + 576) % 2 ^ 64 ∧ e.fld (ADC_ISTAT_DONE c) = 1 ∧
           (e.adc c).seq = none ∧ (∃ ev ∈ e.evt.produced, ev.prod = 292 + c ∧ ev.stamp = some (q.t0 + 576))))) ∧
     (∀ i : Fin 12,
       let x := d.posIf i
       let cpr := d.fld (POSIF_ABZ_CPR i)
       (∀ (sin cos : BitVec 16) (neg : Bool), d.posMode i 0 = true →
         let m : Nat := sin.toInt.natAbs * sin.toInt.natAbs + cos.toInt.natAbs * cos.toInt.natAbs
         (16 * m < 2 ^ 30 → CompletesClocked (.resolverSample i sin cos neg) s fun e => e.fld (POSIF_ISTAT_AMPLO i) = 1 ∧
           e.hasFault fiPosErr i = true ∧ e.evt = d.evt ∧ e.fld (POSIF_POS_ANGLE i) = d.fld (POSIF_POS_ANGLE i)) ∧
         (361 * 2 ^ 30 < 400 * m → CompletesClocked (.resolverSample i sin cos neg) s fun e => e.fld (POSIF_ISTAT_AMPHI i) = 1 ∧
           e.hasFault fiPosErr i = true ∧ e.evt = d.evt) ∧
         (2 ^ 30 ≤ 16 * m → 400 * m ≤ 361 * 2 ^ 30 → CompletesClocked (.resolverSample i sin cos neg) s fun e =>
           let k := (angleBits 16 (if neg then -cos.toInt else cos.toInt) (if neg then -sin.toInt else sin.toInt)).1
           (e.fld (POSIF_POS_ANGLE i) = k * 65536 ∨ e.fld (POSIF_POS_ANGLE i) = (k + 1) % 65536 * 65536) ∧
           e.fld (POSIF_REV_REVOK i) = 0 ∧
           e.evt.produced = d.evt.produced ++ [{ prod := 298 + i, stamp := some d.lanternTime }])) ∧
       (∀ a b : Bool, d.posMode i 1 = true →
         (a ≠ x.a → b ≠ x.b → CompletesClocked (.abzEdge i a b) s fun e => e.fld (POSIF_ISTAT_QERR i) = 1 ∧
           (e.posIf i).count = x.count ∧ e.hasFault fiPosErr i = true) ∧
         (a ≠ x.a → b = x.b → CompletesClocked (.abzEdge i a b) s fun e =>
           e.fld (POSIF_COUNT_COUNT i) = wrap 32 (x.count + (if a = x.b then -1 else 1)) ∧ e.evt = d.evt) ∧
         (a = x.a → b ≠ x.b → CompletesClocked (.abzEdge i a b) s fun e =>
           e.fld (POSIF_COUNT_COUNT i) = wrap 32 (x.count + (if b = x.a then 1 else -1)) ∧ e.evt = d.evt)) ∧
       (d.posMode i 1 = true → CompletesClocked (.zIndexEdge i) s fun e =>
         e.evt.produced = d.evt.produced ++ [{ prod := 310 + i, stamp := some (d.lanternTime - d.filterLag i) }] ∧
         (d.fld (POSIF_ABZ_ZMODE i) = 0 ∨ (d.fld (POSIF_ABZ_ZMODE i) = 1 ∧ x.zSeen = true) → e.posIf i = x) ∧
         (d.fld (POSIF_ABZ_ZMODE i) ≠ 0 → x.zSeen = false → (e.posIf i).count = 0 ∧ (e.posIf i).zSeen = true) ∧
         (d.fld (POSIF_ABZ_ZMODE i) = 2 → x.zSeen = true → 0 < cpr → ∃ m : Int, m % cpr = 0 ∧ 2 * (m - x.count).natAbs ≤ cpr ∧
           (m = x.count → e.posIf i = x) ∧
           (m ≠ x.count → e.fld (POSIF_COUNT_COUNT i) = wrap 32 m ∧ e.fld (POSIF_ISTAT_ZERR i) = 1))) ∧
       (d.posMode i 1 = true →
         (d.lantern.lt < x.lastDeliver + d.fld (POSIF_CFG_SPER i) → CompletesClocked (.abzSampleDelivery i) s fun e => e = d) ∧
         (x.lastDeliver + d.fld (POSIF_CFG_SPER i) ≤ d.lantern.lt → (d.fld (POSIF_ABZ_ZMODE i) = 0 ∨ x.zSeen = true) → 0 < cpr →
           CompletesClocked (.abzSampleDelivery i) s fun e =>
             (e.fld (POSIF_POS_ANGLE i) : Int) = x.count % cpr * 2 ^ 32 / cpr ∧
             (e.fld (POSIF_REV_REV i) : Int) = x.count / cpr % 65536 ∧ e.fld (POSIF_REV_REVOK i) = 1 ∧
             e.evt.produced = d.evt.produced ++
               [{ prod := 298 + i, stamp := some (if x.edgeNew then x.edgeTime else d.lanternTime) }])) ∧
       (∀ (line : Bool) (bits : List Bool) (lag : Nat),
         let t := d.lanternTime - lag
         let mtb := d.fld (POSIF_SSI_MTB i)
         let stb := d.fld (POSIF_SSI_STB i)
         d.posMode i 2 = true → 16 * (x.lastDeliver + d.fld (POSIF_CFG_SPER i)) ≤ t →
         (∀ f, x.frameEnd = some f → f + 9600 * d.fld (POSIF_SSITIM_MONO i) ≤ t) → bits.length = d.fld (POSIF_SSI_LEN i) →
         (line = false ∨ (d.fld (POSIF_SSI_PAR i) = 1 ∧ (bits.filter id).length % 2 = 1) ∨
             bits.length < mtb + stb + d.fld (POSIF_SSI_PAR i) →
           CompletesClocked (.ssiFrame i line bits lag) s fun e => e.fld (POSIF_ISTAT_SERR i) = 1 ∧ e.evt = d.evt ∧
             e.hasFault fiPosErr i = true ∧ e.fld (POSIF_POS_ANGLE i) = d.fld (POSIF_POS_ANGLE i)) ∧
         (line = true → d.fld (POSIF_SSI_PAR i) = 0 ∨ (bits.filter id).length % 2 = 0 →
           mtb + stb + d.fld (POSIF_SSI_PAR i) ≤ bits.length → d.fld (POSIF_SSI_GRAY i) = 0 → stb ≤ 32 →
           CompletesClocked (.ssiFrame i line bits lag) s fun e =>
             e.fld (POSIF_POS_ANGLE i) = bitsNat ((bits.drop mtb).take stb) * 2 ^ (32 - stb) ∧
             e.fld (POSIF_REV_REV i) = bitsNat (bits.take mtb) % 65536 ∧
             e.fld (POSIF_REV_REVOK i) = (if 0 < mtb then 1 else 0) ∧
             e.evt.produced = d.evt.produced ++
               [{ prod := 298 + i, stamp := some (t + 48 * d.fld (POSIF_SSITIM_TLAT i)) }]))))

/-- A word v written at its index reads as v without an error. With one of its 64 stored data bits or 8 stored check bits
flipped, it still reads as v and the error is named; with two of its data bits, two of its check bits, or one of each
flipped, the read is uncorrectable and delivers zero. A word whose valid vote is 0 reads as zero unchecked. A write
leaves every other word as it read. (R319; R320; R321; spec/10_memory_ecc.md; tier 2) -/
def Obligations.CheckCodeCorrects : Prop :=
  ∀ (m : Ram) (key index v : Nat), v < 2 ^ 64 → index < 2 ^ 17 →
    let c := eccCheck v index
    (ramRead (ramWrite m key index v) key index = { value := v, kind := .clean, syn := 0, split := false }) ∧
    (∀ j < 64, (ramRead (ramPut m key (v ^^^ 2 ^ j) c) key index).value = v ∧
      (ramRead (ramPut m key (v ^^^ 2 ^ j) c) key index).kind = .dataBit j) ∧
    (∀ k < 8, (ramRead (ramPut m key v (c ^^^ 2 ^ k)) key index).value = v ∧
      (ramRead (ramPut m key v (c ^^^ 2 ^ k)) key index).kind = .checkBit) ∧
    (∀ i < 64, ∀ j < 64, i ≠ j → (ramRead (ramPut m key (v ^^^ 2 ^ i ^^^ 2 ^ j) c) key index).bad = true ∧
      (ramRead (ramPut m key (v ^^^ 2 ^ i ^^^ 2 ^ j) c) key index).value = 0) ∧
    (∀ i < 8, ∀ j < 8, i ≠ j → (ramRead (ramPut m key v (c ^^^ 2 ^ i ^^^ 2 ^ j)) key index).bad = true) ∧
    (∀ i < 64, ∀ k < 8, (ramRead (ramPut m key (v ^^^ 2 ^ i) (c ^^^ 2 ^ k)) key index).bad = true) ∧
    (∀ k', ramVote m k' = false → (ramRead m k' index).value = 0 ∧ (ramRead m k' index).kind = .clean) ∧
    (∀ k' i, k' ≠ key → ramRead (ramWrite m key index v) k' i = ramRead m k' i)

/-- A waiting write-back of a correctable word leaves the word reading the same value without an error, every other word
of its tables as before, and no longer waits; one that does not wait changes nothing. The scrubber reads the next
valid word: an uncorrectable one sets SCRUBUE, is counted, and presents MEM_UNCORR unless its instance is under test;
without EN it does nothing. LEAK ms after the last leak, every bucket above 0 loses 1. ETCTL stores EN only in BOOT,
CONFIG and MAKER-TEST and an INST above 87 as 0. The model's choices, no rules of the spec: the scrubber's error sets
SCRUBUE and not UE (log entry 56); one command is one step of a period (log entry 58). (R326; R331; R332; R340; R341;
spec/10_memory_ecc.md; tier 2) -/
def Obligations.MemoryMaintained : Prop :=
  ∀ s : State,
    (∀ (inst : Fin 153) (word : Nat), inst.val ≠ 152 → s.dev.pairs.length = 16 →
      (s.dev.mem.writeBacks.contains { inst := inst, word := word } = true →
        let m := (s.dev.instRam inst).1
        let k := (s.dev.instRam inst).2 + word
        (ramRead m k word).bad = false → ramVote m k = true →
        Completes (.correctedWriteBack inst word) s fun e =>
          ramRead (e.instRam inst).1 k word =
            { value := (ramRead m k word).value, kind := .clean, syn := 0, split := false } ∧
          (∀ k' i, k' ≠ k → ramRead (e.instRam inst).1 k' i = ramRead m k' i) ∧
          e.mem.writeBacks.contains { inst := inst, word := word } = false ∧ e.io = s.dev.io) ∧
      (s.dev.mem.writeBacks.contains { inst := inst, word := word } = false →
        Completes (.correctedWriteBack inst word) s fun e => e = s.dev)) ∧
    (s.dev.fld MEMCTL_SCRUB_EN = 0 → Completes .scrubRead s fun e => e = s.dev) ∧
    (∀ inst w : Nat, s.dev.fld MEMCTL_SCRUB_EN = 1 → s.dev.scrubTarget = some (inst, w) →
      Completes .scrubRead s fun e => e.mem.scrubInst = inst ∧ e.mem.scrubWord = w + 1 ∧
        ((ramRead (s.dev.instRam inst).1 ((s.dev.instRam inst).2 + w) w).bad = true →
          e.fld MEMCTL_ISTAT_SCRUBUE = 1 ∧
          e.fld (MEMCTL_INST_UECNT inst) = min 255 (s.dev.fld (MEMCTL_INST_UECNT inst) + 1) ∧
          (s.dev.testing inst = false → e.hasFault fiMemUncorr (inst % 65536) = true)) ∧
        ((ramRead (s.dev.instRam inst).1 ((s.dev.instRam inst).2 + w) w).bad = false →
          (ramRead (s.dev.instRam inst).1 ((s.dev.instRam inst).2 + w) w).kind ≠ .clean →
          e.mem.writeBacks.contains { inst := inst, word := w } = true)) ∧
    (s.dev.mem.lastLeak + s.dev.fld MEMCTL_BUCKET_LEAK * 600000 ≤ s.dev.ticks → Completes .bucketLeak s fun e =>
      e.mem.lastLeak = s.dev.ticks ∧ (∀ i < 153, e.fld (MEMCTL_INST_BUCKET i) = s.dev.fld (MEMCTL_INST_BUCKET i) - 1 ∧
        e.fld (MEMCTL_INST_CECNT i) = s.dev.fld (MEMCTL_INST_CECNT i)) ∧
      e = { s.dev with io := e.io, mem := e.mem } ∧ e.mem.ram = s.dev.mem.ram) ∧
    (∀ w : Word, Completes (.etctlWrite w) s fun e =>
      e.fld MEMCTL_ETCTL_INST = (if 87 < w.toNat % 256 then 0 else w.toNat % 256) ∧
      (e.fld MEMCTL_ETCTL_EN = 1 ↔ w.toNat.testBit 31 = true ∧
        (s.dev.mode = modeBoot ∨ s.dev.mode = modeConfig ∨ s.dev.mode = modeMaker)) ∧
      e = { s.dev with io := e.io } ∧ s.dev.SameWords e [0x050050])

/-- For a granted request alone at a bank word: a load delivers the word's bytes with code 0 into the capture stage of its
pair and every word reads as before; a released whole-word store leaves its data in the word and every other word as
it read, and the release moves on. Two whole-word stores of one word: plane A's data stand, plane B's pair is answered
COLLIDE, and COLL records both. A store whose lock mark has been broken, or whose check code failed, writes nothing
and delivers the error status. The model's choices, no rules of the spec: the order of two accesses at one bank (log
entry 51); when an engine's access acts (log entry 55); what a failed check code does (log entry 54). (R320; R324;
R337; R344; R354; spec/10_memory_ecc.md; spec/11_fabric_mpu.md; tier 2) -/
def Obligations.TargetsAnswer : Prop :=
  ∀ (s : State) (r : FabReq) (inst word : Nat), s.dev.pairs.length = 16 → s.dev.grantedReq r.id = some r →
    r.goal = .bank inst word 0 → inst < 88 → word < 131072 → r.lpair < 16 → s.dev.physOf r.lpair < 16 →
    let x := s.dev.pair (s.dev.physOf r.lpair)
    let key := bankKey inst word
    (r.req.op = .ld → r.req.fwdMask = 0 → r.req.size ≤ 8 → r.req.rel = false → r.mark = x.mark → s.dev.brokenFor r = false →
      (ramRead s.dev.mem.ram key word).bad = false →
      Completes (.targetAccess [r.id]) s fun e => e.grantedReq r.id = none ∧
        (e.pair (s.dev.physOf r.lpair)).capture = x.capture ++ [.response r.mark r.req.tag r.req.imm r.req.slot
          (bitsOf (ramRead s.dev.mem.ram key word).value (8 * (r.target % 8)) (8 * r.req.size)) 0 r.req.addr 0] ∧
        ∀ k i, (ramRead e.mem.ram k i).value = (ramRead s.dev.mem.ram k i).value) ∧
    (r.req.op = .st → r.target % 8 = 0 → r.req.size = 8 → r.req.rel = true → s.dev.brokenFor r = false →
      s.dev.testing inst = false → r.phys < 16 →
      Completes (.targetAccess [r.id]) s fun e => e.grantedReq r.id = none ∧
        (ramRead e.mem.ram key word).value = r.req.data % 2 ^ 64 ∧ (ramRead e.mem.ram key word).kind = .clean ∧
        (∀ k i, k ≠ key → ramRead e.mem.ram k i = ramRead s.dev.mem.ram k i) ∧
        (e.pair r.phys).rel = (s.dev.pair r.phys).rel.tail) ∧
    (∀ b : FabReq, s.dev.grantedReq b.id = some b → b.id ≠ r.id → b.bankPlace = some (inst, true, word) →
      r.bankPlace = some (inst, false, word) → r.req.op = .st → b.req.op = .st → r.req.size = 8 → r.target % 8 = 0 →
      s.dev.brokenFor r = false → s.dev.brokenFor b = false → s.dev.testing inst = false → b.lpair < 16 →
      s.dev.physOf b.lpair < 16 → b.req.rel = false → b.mark = (s.dev.pair (s.dev.physOf b.lpair)).mark →
      Completes (.targetAccess [r.id, b.id]) s fun e =>
        (ramRead e.mem.ram key word).value = r.req.data % 2 ^ 64 ∧ e.grantedReq b.id = none ∧
        .response b.mark b.req.tag b.req.imm b.req.slot (2 ^ 63 + 4) 4 b.req.addr 0 ∈
          (e.pair (s.dev.physOf b.lpair)).capture ∧
        e.fld MEMCTL_COLL_AMST = r.lpair ∧ e.fld MEMCTL_COLL_BMST = b.lpair ∧ e.fld MEMCTL_ISTAT_COLLIDE = 1 ∧
        e.fld MEMCTL_COLL_COUNT = min 65535 (s.dev.fld MEMCTL_COLL_COUNT + 1)) ∧
    (r.req.op = .st → r.req.rel = false → r.mark = x.mark → s.dev.brokenFor r = true →
      Completes (.targetAccess [r.id]) s fun e => e.mem = s.dev.mem ∧ e.fab.broken.testBit r.lpair = false ∧
        (e.pair (s.dev.physOf r.lpair)).capture = x.capture ++
          [.response r.mark r.req.tag r.req.imm r.req.slot (2 ^ 63 + 5) 5 r.req.addr 0]) ∧
    (r.req.op = .st → r.req.rel = false → r.mark = x.mark → Completes (.fabProt r.id false) s fun e =>
      e.mem = s.dev.mem ∧ e.fld FABRIC_PROT_DIR = 0 ∧ e.fld FABRIC_PROT_MASTER = r.lpair ∧ e.fld FABRIC_ISTAT_PROT = 1 ∧
      e.hasFault fiFabProt r.lpair = true ∧
      (e.pair (s.dev.physOf r.lpair)).capture = x.capture ++
        [.response r.mark r.req.tag r.req.imm r.req.slot (2 ^ 63 + 2) 2 r.req.addr 0])

/-- At a free point with a presented request that no lock holds back, ARBITRATION_GRANT takes out of the queue a presented
request r that no lock holds back such that every such request x comes after r in the order of R348: urgent first and
by the fc in which it became urgent, then by effective priority, by wait, by master number. Past its last point r is
at its target; MAXWAIT takes its wait. At a point that is not free, and at one with no request to grant, nothing
changes. A presented request whose wait has reached URGENT_AGE becomes urgent and is counted. (R345; R347; R348; R350;
R351; spec/11_fabric_mpu.md; tier 2) -/
def Obligations.FabricGrants : Prop :=
  ∀ (s : State) (pt : Point),
    let d := s.dev
    (d.fab.granted.any (fun r => r.at pt && !r.syncRead) = true → Completes (.arbitrationGrant pt) s fun e => e = d) ∧
    ((∀ x ∈ d.presentedAt pt, d.lockedOut pt x = true) → Completes (.arbitrationGrant pt) s fun e => e = d) ∧
    (d.fab.granted.any (fun r => r.at pt && !r.syncRead) = false → (∃ x ∈ d.presentedAt pt, d.lockedOut pt x = false) →
      Completes (.arbitrationGrant pt) s fun e => ∃ r ∈ d.presentedAt pt, d.lockedOut pt r = false ∧
        (∀ x ∈ d.presentedAt pt, d.lockedOut pt x = false →
          match r.urgentAt, x.urgentAt with
          | some a, some b => a < b ∨ (a = b ∧ r.lpair ≤ x.lpair)
          | some _, none => True
          | none, some _ => False
          | none, none => d.effective x < d.effective r ∨ (d.effective x = d.effective r ∧
              (r.since < x.since ∨ (r.since = x.since ∧ r.lpair ≤ x.lpair)))) ∧
        e.fld FABRIC_URG_MAXWAIT = max (d.fld FABRIC_URG_MAXWAIT) (min 65535 (d.waitOf r)) ∧
        ((∀ n, pt ≠ .uplink n) → e.fab.granted = d.fab.granted ++ [r] ∧ (∀ x ∈ e.fab.waiting, x.id ≠ r.id) ∧
          e = { d with io := e.io, fab := e.fab })) ∧
    (∀ (id : Nat) (r : FabReq), d.fab.waiting.find? (fun x => x.id = id) = some r →
      (∃ q t, r.route = q :: t ∧ r ∈ d.presentedAt q) → r.urgentAt = none → d.fld FABRIC_ARB_URGENT_AGE ≤ d.waitOf r →
      Completes (.requestUrgent id) s fun e => { r with urgentAt := some d.ticks } ∈ e.fab.waiting ∧
        e.fld FABRIC_URG_COUNT = min 65535 (d.fld FABRIC_URG_COUNT + 1) ∧ e.fld FABRIC_ISTAT_URGENT = 1 ∧
        e = { d with io := e.io, fab := e.fab })

/-- When the count of a bank's lock reaches LOCK_MAX the lock is gone, its holder has the broken mark, LKBRK and LKADDR
name it, and FAB_LOCKBREAK is presented; before, nothing changes. The oldest denial is counted, recorded while DENY is
clear, presented, and answered to a pair with code MPU, without reaching memory. A write to the mirror area is denied
to every master whatever its regions. A master's read of MPU.SYNC that none of its pair's requests carries completes
once no request or buffered entry under a set that it replaced is left, and waits while such a request is under way.
The model's choices, no rules of the spec: MPU.SYNC of a master that is no pair (log entry 57). (R353; R354; R364;
R361; R366; spec/11_fabric_mpu.md; tier 2) -/
def Obligations.LocksBreak : Prop :=
  ∀ (s : State), s.dev.pairs.length = 16 →
    let d := s.dev
    (∀ (inst : Fin 153) (l : LockEnt), d.fab.locks.find? (fun l => l.inst = inst.val) = some l → l.lpair < 16 → l.addr < 2 ^ 32 →
      (d.fld FABRIC_LOCKMAX_LOCK_MAX ≤ fcOf (d.ticks - l.since) → Completes (.lockBreak inst) s fun e =>
        (∀ k ∈ e.fab.locks, k.lpair ≠ l.lpair) ∧ e.fab.broken.testBit l.lpair = true ∧
        e.fld FABRIC_LKBRK_MASTER = l.lpair ∧ e.fld FABRIC_LKBRK_INST = inst ∧ e.fld FABRIC_LKADDR_ADDR = l.addr ∧
        e.fld FABRIC_ISTAT_LOCKBREAK = 1 ∧ e.hasFault fiLockbreak l.lpair = true ∧ e.pairs = d.pairs ∧ e.mem = d.mem) ∧
      (fcOf (d.ticks - l.since) < d.fld FABRIC_LOCKMAX_LOCK_MAX → Completes (.lockBreak inst) s fun e => e = d)) ∧
    (∀ (x : Denial) (rest : List Denial) (r : FabReq), d.fab.denials = x :: rest → x.req = some r → r.req.rel = false →
      r.req.op ≠ .fill → r.lpair < 16 → d.physOf r.lpair < 16 → r.mark = (d.pair (d.physOf r.lpair)).mark → x.master < 31 →
      Completes .mpuDeny s fun e => e.fab.denials = rest ∧ e.mem = d.mem ∧ e.fld MPU_ISTAT_DENY = 1 ∧
        e.fld MPU_DENY_COUNT = min 65535 (d.fld MPU_DENY_COUNT + 1) ∧ e.hasFault fiMpuDeny x.master = true ∧
        (d.fld MPU_ISTAT_DENY = 0 → e.fld MPU_DENY_MASTER = x.master ∧ e.fld MPU_DENYADDR_ADDR = x.addr % 2 ^ 32 ∧
          e.fld MPU_DENY_WRITE = (if x.write then 1 else 0) ∧ e.fld MPU_DENY_USER = (if x.user then 1 else 0)) ∧
        (d.fld MPU_ISTAT_DENY = 1 → e.fld MPU_DENY_MASTER = d.fld MPU_DENY_MASTER ∧
          e.fld MPU_DENYADDR_ADDR = d.fld MPU_DENYADDR_ADDR) ∧
        (e.pair (d.physOf r.lpair)).capture = (d.pair (d.physOf r.lpair)).capture ++
          [.response r.mark r.req.tag r.req.imm r.req.slot
            (if r.req.op = .st ∨ r.req.op = .stUnlock ∨ r.req.op = .unlock ∨ r.req.op = .ioWr then 2 ^ 63 + 3 else 0)
            3 r.req.addr r.req.lockCode]) ∧
    (∀ (m : Nat) (a : Access), a.io = false → a.wr = true → 0x11B00000 ≤ a.addr → a.addr < 0x12000000 →
      d.mpuCheck m a = some (true, false)) ∧
    (∀ m : Fin 31, d.fab.granted.find? (fun r => r.syncRead && r.lpair = m.val) = none →
      ((∀ id ∈ arrGet [] d.mpu.replaced m, ∀ r ∈ d.fab.waiting ++ d.fab.granted, r.id ≠ id) → arrGet [] d.mpu.buffered m = [] →
        Completes (.mpuSync m) s fun e => arrGet [] e.mpu.replaced m = [] ∧ e.mpu.sets = d.mpu.sets ∧
          e = { d with mpu := e.mpu }) ∧
      ((∃ r ∈ d.fab.waiting ++ d.fab.granted, r.id ∈ arrGet [] d.mpu.replaced m) →
        Completes (.mpuSync m) s fun e => e = d))

/-- MPU_ENABLE of master m without the lock: a staging set with an enabled region whose LIMIT lies below its BASE, or with
two enabled regions of one space that share a 64-byte line, is refused: the set in force stays, BADREG and OVERLAP are
set as they apply, and OVL names the lowest-numbered bad region twice, or else the overlapping pair lowest by RA and
then RB. Otherwise the staging set with NODEF is in force and GEN increments; every other master's set stays. For an
I/O region only bits [23:6] count. Under the lock, and without ENABLE, the sets stay. (R365; tier 2) -/
def Obligations.RegionSets : Prop :=
  ∀ (s : State) (m : Fin 31) (w : Word),
    let d := s.dev
    let n (r : Nat) : MpuRegion := d.staged m r
    let lo (r : Nat) : Nat := if (n r).io then (n r).base % 2 ^ 18 else (n r).base
    let hi (r : Nat) : Nat := if (n r).io then (n r).limit % 2 ^ 18 else (n r).limit
    let bad (r : Nat) : Prop := r < 16 ∧ (n r).en = true ∧ hi r < lo r
    let share (a b : Nat) : Prop := a < b ∧ b < 16 ∧ (n a).en = true ∧ (n b).en = true ∧ (n a).io = (n b).io ∧
      ¬ bad a ∧ ¬ bad b ∧ lo a ≤ hi b ∧ lo b ≤ hi a
    Completes (.mpuEnable m w) s fun e =>
      (∀ k, k ≠ m.val → e.mpuSet k = d.mpuSet k) ∧ e = { d with io := e.io, mpu := e.mpu } ∧
      (d.fld MPU_LOCK_LOCK = 1 → e = d) ∧
      (d.fld MPU_LOCK_LOCK = 0 → e.fld (MPU_CTL_NODEF m) = bitOf w.toNat 16 ∧
        (w.toNat.testBit 31 = false → e.mpu = d.mpu ∧ e.fld (MPU_CTL_GEN m) = d.fld (MPU_CTL_GEN m)) ∧
        (w.toNat.testBit 31 = true →
          ((∀ r, ¬ bad r) → (∀ a b, ¬ share a b) →
            e.mpuSet m = { regions := (List.range 16).map n, nodef := w.toNat.testBit 16 } ∧
            e.fld (MPU_CTL_GEN m) = (d.fld (MPU_CTL_GEN m) + 1) % 65536) ∧
          ((∃ r, bad r) ∨ (∃ a b, share a b) → e.mpu = d.mpu ∧ e.fld (MPU_CTL_GEN m) = d.fld (MPU_CTL_GEN m) ∧
            e.fld MPU_OVL_MASTER = m ∧
            ((∃ r, bad r) → e.fld MPU_ISTAT_BADREG = 1 ∧ bad (e.fld MPU_OVL_RA) ∧
              e.fld MPU_OVL_RB = e.fld MPU_OVL_RA ∧ ∀ r, bad r → e.fld MPU_OVL_RA ≤ r) ∧
            ((∃ a b, share a b) → e.fld MPU_ISTAT_OVERLAP = 1) ∧
            ((∀ r, ¬ bad r) → share (e.fld MPU_OVL_RA) (e.fld MPU_OVL_RB) ∧
              ∀ a b, share a b → e.fld MPU_OVL_RA < a ∨ (e.fld MPU_OVL_RA = a ∧ e.fld MPU_OVL_RB ≤ b)))))

/-- When one event of producer p (hop below 7) reaches the matrix, channel n emits exactly if n is p mod 64 and PEN bit p
div 64 is 1, or n is p div 8 and PEN bit 8 + (p mod 8) is 1. An emitting channel counts it, sets its flag and records
the event's stamp; any other channel's count is unchanged. With no delivery due before, the deliveries then due reach
exactly the consumer inputs that listen to an emitting channel. (R371; tier 2) -/
def Obligations.ChannelWiring : Prop :=
  ∀ (s : State) (p st hop cons : Nat), p < 512 → hop < 7 →
    s.dev.evt.produced = [{ prod := p, stamp := some st, hop := hop, cons := cons }] → s.dev.evt.due = [] →
    let takes (n : Nat) : Bool :=
      (n = p % 64 && (s.dev.fld (EVTMX_PEN_PEN n)).testBit (p / 64)) ||
      (n = p / 8 && (s.dev.fld (EVTMX_PEN_PEN n)).testBit (8 + p % 8))
    Completes (.eventEmission 1) s fun e =>
      e.evt.produced = [] ∧
      (∀ n < 64, e.fld (EVTMX_CNT_COUNT n) =
        if takes n then min 65535 (s.dev.fld (EVTMX_CNT_COUNT n) + 1) else s.dev.fld (EVTMX_CNT_COUNT n)) ∧
      (∀ n < 64, takes n = true → (e.fld (EVTMX_CHFLAG_FLAG (n / 32))).testBit (n % 32) = true ∧
        e.fld (EVTMX_STAMPLO_STAMP n) = st % 2 ^ 32) ∧
      (∀ c < 384, (∃ x ∈ e.evt.due.flatten, x.input = c) ↔ ∃ n < 64, takes n = true ∧ s.dev.listens c n = true)

/-- A trigger delivered to an input: with W above 0 at a pair input it is sent to the pair bound to that logical pair and
W falls by 1; with the latch empty it is latched; otherwise it is dropped, CSTAT.OVR and ISTAT.OVR set and OVRCNT
counts. A wait request takes a latched event, which is sent to the pair, or with the latch empty raises W by 1. No
other input's latch or W changes. EVT_LOOP with an event of hop 7 or more produced removes one such event, sets
ISTAT.LOOP, presents EVT_LOOP with its producer, and fills LOOPREC where it holds no record. CEN_WRITE with the block
unlocked stores the word unless more than 8 bits would be set across CEN0 and CEN1, when it changes only ISTAT.ENREF.
WATCH_INPUT_TAKE empties the latch of a watch input and changes nothing else. (R375; R377; R379; R374; R381; R382;
spec/12_event_matrix.md; tier 2) -/
def Obligations.EventsDelivered : Prop :=
  (∀ s : State,
     let d := s.dev
     (∀ (x : Deliv) (rest : List (List Deliv)), d.evt.due = [x] :: rest → x.merged = false → x.input < 384 →
       Completes .eventDelivery s fun e =>
         let c := x.input
         e.evt.due = rest ∧
         (c < 128 → 0 < d.waitsOf c → e.waitsOf c = d.waitsOf c - 1 ∧ e.latch c = d.latch c ∧
           e = { d.capture (d.physOf (c / 8)) (.event c x.trig.stamp) with evt := e.evt }) ∧
         ((128 ≤ c ∨ d.waitsOf c = 0) → d.latch c = none → e.latch c = some x.trig ∧ e = { d with evt := e.evt } ∧ e.waitsOf c = d.waitsOf c) ∧
         ((128 ≤ c ∨ d.waitsOf c = 0) → d.latch c ≠ none → e.latch c = d.latch c ∧ e.fld (EVTMX_CSTAT_OVR c) = 1 ∧
           e.fld EVTMX_ISTAT_OVR = 1 ∧ e.fld (EVTMX_CCNT_OVRCNT c) = min 65535 (d.fld (EVTMX_CCNT_OVRCNT c) + 1)) ∧
         ∀ b, b ≠ c → e.latch b = d.latch b ∧ e.waitsOf b = d.waitsOf b) ∧
     (∀ (c : Nat) (rest : List Nat), d.evt.requests = c :: rest → Completes .waitRequestArrival s fun e =>
         e.evt.requests = rest ∧
         (∀ t, d.latch c = some t → e.latch c = none ∧ e.waitsOf c = d.waitsOf c ∧
           e = { d.capture (d.physOf (c / 8)) (.event c t.stamp) with evt := e.evt }) ∧
         (d.latch c = none → e.waitsOf c = d.waitsOf c + 1 ∧ e = { d with evt := e.evt }) ∧
         ∀ b, b ≠ c → e.latch b = d.latch b ∧ e.waitsOf b = d.waitsOf b)) ∧
  (∀ s : State,
     let d := s.dev
     (∀ (x : Ev) (a b : List Ev), d.evt.produced = a ++ x :: b → (∀ y ∈ a, y.hop < 7) → 7 ≤ x.hop → x.prod < 512 →
       Completes .evtLoop s fun e => e.evt.produced.length + 1 = d.evt.produced.length ∧ e.fld EVTMX_ISTAT_LOOP = 1 ∧
         e.hasFault fiEvtLoop x.prod = true ∧
         (d.fld EVTMX_LOOPREC_VALID = 0 → e.fld EVTMX_LOOPREC_VALID = 1 ∧ e.fld EVTMX_LOOPREC_PROD = x.prod ∧
           e.fld EVTMX_LOOPREC_CONS = x.cons % 512) ∧
         (d.fld EVTMX_LOOPREC_VALID = 1 → e.fld EVTMX_LOOPREC_PROD = d.fld EVTMX_LOOPREC_PROD)) ∧
     (∀ (c : Fin 384) (hi : Bool) (v : Word), d.fld EVTMX_LOCK_LOCK = 0 → Completes (.cenWrite c hi v) s fun e =>
       let this := if hi then d.fld (EVTMX_CEN1_CEN c) else d.fld (EVTMX_CEN0_CEN c)
       let other := if hi then d.fld (EVTMX_CEN0_CEN c) else d.fld (EVTMX_CEN1_CEN c)
       let now := if hi then e.fld (EVTMX_CEN1_CEN c) else e.fld (EVTMX_CEN0_CEN c)
       (popCount v.toNat 32 + popCount other 32 ≤ 8 → now = v.toNat ∧ e = { d with io := e.io } ∧
         d.SameWords e [0x061000 + 16 * c + (if hi then 4 else 0)]) ∧
       (8 < popCount v.toNat 32 + popCount other 32 → now = this ∧ e.fld EVTMX_ISTAT_ENREF = 1 ∧
         e = { d with io := e.io } ∧ d.SameWords e [0x060000])) ∧
     (∀ c : Fin 384, 344 ≤ c.val → Completes (.watchInputTake c) s fun e => e.latch c = none ∧
       (∀ b, b ≠ c.val → e.latch b = d.latch b) ∧ e = { d with evt := { d.evt with latch := e.evt.latch } }))

/-- Processing the next presentation, where it makes a new record, gives that record the higher of the input's inherent
class (POWER_FAIL: F1 ridden through, F4 committed) and the class of the reaction applied (F1 for RECORD and
INTERRUPT, else F2 to F5 as codes 2 to 5). A write of a reaction code in BOOT or CONFIG with the block unlocked
stores, for an input that is not fixed, the code with 0b110 and 0b111 as 0b101, and not below the input's floor.
(R392; tier 2) -/
def Obligations.RecordClass : Prop :=
  ∀ s : State,
    (∀ x rest, s.dev.nextFault = some (x, rest) → x.input < 256 →
      s.dev.mergesInto ((s.dev.fld SAFEISL_LOGHEAD_NEXT + 63) % 64) x.input x.detail = false →
      Completes .faultProcessing s fun e =>
        let code := s.dev.reactionOf x.input x.detail
        e.fld (SAFEISL_LOGW0_CLASS (s.dev.fld SAFEISL_LOGHEAD_NEXT)) =
          max (if x.input = fiPowerFail then (if x.detail = 0 then 1 else 4) else (faultRow x.input).inher)
            (if code ≤ 1 then 1 else code)) ∧
    (∀ (i : Fin 256) (v : BitVec 3), (s.dev.mode = modeBoot ∨ s.dev.mode = modeConfig) → s.dev.fld SAFEISL_LOCK_LOCK = 0 →
      fixedInput i = false →
      Completes (.reactWrite i v) s fun e =>
        e.fld (SAFEISL_REACT_REACT i) =
          if (if 6 ≤ v.toNat then 5 else v.toNat) < (faultRow i).floor then (faultRow i).floor
          else if 6 ≤ v.toNat then 5 else v.toNat)

/-- The island takes the lowest input of the sampled cycle, its earliest presentation; a cycle samples every ready input.
With a reaction of RECORD or INTERRUPT and class F1, its count grows by the merged presentations and saturates; a
record with its input, detail and reaction stands at NEXT, unless the newest record is merged into; INTERRUPT sets the
F1 flag. Only SAFEISL registers, the list of presentations and the rest of the cycle change. The model's choices, no
rules of the spec: one command processes one input of a cycle (log entry 29). (R387; R391; R398;
spec/13_keeper_island.md; tier 2) -/
def Obligations.PlainFaultRecorded : Prop :=
  ∀ (s : State) (x : Presented) (rest : List Nat), s.dev.nextFault = some (x, rest) → s.dev.reactionOf x.input x.detail ≤ 1 →
    classOf x.input x.detail (s.dev.reactionOf x.input x.detail) = 1 → x.input < 256 → x.detail < 65536 →
    s.dev.fld SAFEISL_LOGREAD_UNREAD ≤ 64 →
    let n := s.dev.fld SAFEISL_LOGHEAD_NEXT
    let newest := (n + 63) % 64
    Completes .faultProcessing s fun e =>
      s.dev.sampled = x.input :: rest ∧
      (s.dev.island.cycle = [] → ∀ y ∈ s.dev.readyFaults, y.input < 256 → x.input ≤ y.input) ∧
      e = { s.dev with io := e.io, island :=
        { s.dev.island with presented := s.dev.island.presented.erase x, cycle := rest } } ∧
      e.fld (SAFEISL_REACT_COUNT x.input) = min 65535 (s.dev.fld (SAFEISL_REACT_COUNT x.input) + x.count) ∧
      (s.dev.reactionOf x.input x.detail = 1 → (e.fld SAFEISL_ISTAT_FC).testBit 0 = true) ∧
      (if s.dev.mergesInto newest x.input x.detail = true then
        e.fld SAFEISL_LOGHEAD_NEXT = n ∧
        e.fld (SAFEISL_LOGW1_COUNT newest) = min 65535 (s.dev.fld (SAFEISL_LOGW1_COUNT newest) + x.count)
      else
        e.fld SAFEISL_LOGHEAD_NEXT = (n + 1) % 64 ∧ e.fld (SAFEISL_LOGW0_INPUT n) = x.input ∧
        e.fld (SAFEISL_LOGW0_DETAIL n) = x.detail ∧ e.fld (SAFEISL_LOGW0_JNL n) = 0 ∧
        e.fld (SAFEISL_LOGW0_REACT n) = s.dev.reactionOf x.input x.detail ∧
        e.fld SAFEISL_LOGREAD_UNREAD = min 64 (s.dev.fld SAFEISL_LOGREAD_UNREAD + 1)) ∧
      (∀ a, e.word a ≠ s.dev.word a → 0x0C0000 ≤ a ∧ a < 0x0D0000)

/-- ISL_VOTE with every lane in the vote takes the named lane out and presents it, LANE_RESYNC has all three lanes in the
vote, and neither does anything else. LANE_DISAGREEMENT_RESET sends the device back to BOOT with every PWM group at
its safe levels and the cause kept for the next BOOT. LOGREAD_ACK of n marks the n oldest unread records as read, all
of them where n exceeds their number; CLRCNT clears every input's count; HOURLY_FAULT_COUNTS in an hour not yet
journaled marks it and adds one entry where an F1 input's count is not zero and the journal is not full. A REACT write
in another mode sets WREFUSED, and in BOOT and CONFIG under LOCK does nothing. (R385; R396; R393; R398; R399;
spec/13_keeper_island.md; tier 2) -/
def Obligations.IslandLanesAndLog : Prop :=
  (∀ (s : State) (lane : Fin 3),
     (s.dev.fld SAFEISL_STAT_LANES = 7 → Completes (.islVote lane) s fun e =>
       (∀ l : Fin 3, (e.fld SAFEISL_STAT_LANES).testBit l = decide (l ≠ lane)) ∧ e.hasFault fiIslVote lane = true ∧
       e = { s.dev with io := e.io, island := e.island } ∧ s.dev.SameWords e [0x0C0000]) ∧
     (Completes .laneResync s fun e => e.fld SAFEISL_STAT_LANES = 7 ∧ e = { s.dev with io := e.io } ∧
       s.dev.SameWords e [0x0C0000] ∧ e.fld SAFEISL_STAT_FORCE = s.dev.fld SAFEISL_STAT_FORCE) ∧
     (Completes .laneDisagreementReset s fun e => e.backInBoot = true ∧ (∀ g < 12, (e.group g).safe = true) ∧
       e.island.keptCause = some (fiIslVote, 3))) ∧
  (∀ s : State,
     (∀ n : BitVec 8, Completes (.logreadAck n) s fun e =>
       e.fld SAFEISL_LOGREAD_UNREAD = s.dev.fld SAFEISL_LOGREAD_UNREAD - n.toNat ∧
       e.fld SAFEISL_LOGREAD_OLDEST = (s.dev.fld SAFEISL_LOGHEAD_NEXT + 64 - e.fld SAFEISL_LOGREAD_UNREAD) % 64 ∧
       e = { s.dev with io := e.io } ∧ s.dev.SameWords e [0x0C0028]) ∧
     (Completes .clrcnt s fun e => (∀ i < 256, e.fld (SAFEISL_REACT_COUNT i) = 0 ∧
       e.fld (SAFEISL_REACT_REACT i) = s.dev.fld (SAFEISL_REACT_REACT i)) ∧ e = { s.dev with io := e.io }) ∧
     (s.dev.island.lastHour < s.dev.islandTime / 3600000000 →
       Completes .hourlyFaultCounts s fun e => e.island.lastHour = s.dev.islandTime / 3600000000 ∧
         ((∃ n < 256, s.dev.plainInput n = true ∧ s.dev.fld (SAFEISL_REACT_COUNT n) ≠ 0) → s.dev.nvs.full = false →
           ∃ j ∈ e.nvs.opened, j.type = 0x13) ∧
         ((∀ n < 256, s.dev.plainInput n = true → s.dev.fld (SAFEISL_REACT_COUNT n) = 0) → e.nvs = s.dev.nvs)) ∧
     (∀ (i : Fin 256) (v : BitVec 3),
       (s.dev.mode ≠ modeBoot → s.dev.mode ≠ modeConfig →
         Completes (.reactWrite i v) s fun e => e.fld SAFEISL_ISTAT_WREFUSED = 1 ∧ e = { s.dev with io := e.io } ∧
           s.dev.SameWords e [0x0C0004]) ∧
       ((s.dev.mode = modeBoot ∨ s.dev.mode = modeConfig) → s.dev.fld SAFEISL_LOCK_LOCK = 1 →
         Completes (.reactWrite i v) s fun e => e = s.dev)))

/-- While KEEPER.LOCK is 0, KEEPER_ENABLE stores CLK, UNIT, HARD, SVCP and ACT from the written word, sets LOCK, and
starts keeper time at 0: WATCH with a fresh window in RUN, DEGRADED and SAFE-STOP, otherwise HOLD. While LOCK is 1 it
changes nothing. A write is judged against the window in progress, once the closes due have been carried out. In WATCH
with no expiry under way, a write by a pair: from another pair than SVCP it changes nothing but ISTAT.FOREIGN; a value
that is not the complement leaves SVC and sets DOUBLE; the complement takes effect and is EARLY before OPEN, valid
from OPEN to CLOSE - 1 in an unserved window (the window is served and LASTSVC takes KTIME), and EXTRA in a served
one. A fault whose ACT bit is 1 has Keeper expire with its cause, otherwise it presents KPR_SVC. (R401; R403; R404;
R406; R405; R408; R409; R15; spec/13_keeper_island.md; tier 2) -/
def Obligations.KeeperServed : Prop :=
  (∀ (s : State) (w : Word),
     (s.dev.fld KEEPER_LOCK_LOCK = 0 → Completes (.keeperEnable w) s fun e =>
       e.fld KEEPER_CFG_CLK = w.toNat / 2 ^ 28 % 2 ∧ e.fld KEEPER_CFG_UNIT = w.toNat / 2 ^ 27 % 2 ∧
       e.fld KEEPER_CFG_HARD = w.toNat / 2 ^ 20 % 64 ∧ e.fld KEEPER_CFG_SVCP = w.toNat / 2 ^ 16 % 16 ∧
       e.fld KEEPER_CFG_ACT = w.toNat / 2 ^ 8 % 16 ∧ e.fld KEEPER_LOCK_LOCK = 1 ∧ e.keeper.start = s.dev.ticks ∧
       e.fld KEEPER_STAT_STATE = (if s.dev.mode = modeRun ∨ s.dev.mode = modeDegraded ∨ s.dev.mode = modeSafeStop then 2 else 1) ∧
       (e.fld KEEPER_STAT_STATE = 2 → e.keeper.winStart = s.dev.ticks ∧ e.fld KEEPER_STAT_SERVED = 0 ∧
         ∀ t < 64, e.fld (KEEPER_TASK_COUNT t) = 0) ∧ e = { s.dev with io := e.io, keeper := e.keeper }) ∧
     (s.dev.fld KEEPER_LOCK_LOCK = 1 → Completes (.keeperEnable w) s fun e => e = s.dev)) ∧
  (∀ (s : State) (m : Fin 31) (v : BitVec 16),
     let d := s.dev.closeDue
     let svc := BitVec.ofNat 16 (d.fld KEEPER_SVC_SVC)
     (s.dev.ticks < s.dev.keeper.winStart + s.dev.fld KEEPER_WIN_CLOSE * s.dev.ktTicks → d = s.dev) ∧ (m.val < 16 → d.fld KEEPER_STAT_STATE = 2 → d.keeper.expiring = none →
     Completes (.svcWrite m v) s fun e =>
       let faultOf (k : Nat) : Prop :=
         if (d.fld KEEPER_CFG_ACT).testBit k then e.keeper.expiring = some (k + 1) ∧ e.island = d.island
         else e.hasFault fiKprSvc k = true ∧ e.keeper.expiring = none
       (m.val ≠ d.fld KEEPER_CFG_SVCP → e.fld KEEPER_ISTAT_FOREIGN = 1 ∧ e = { d with io := e.io } ∧ d.SameWords e [0x0D0010]) ∧
       (m.val = d.fld KEEPER_CFG_SVCP → v ≠ ~~~svc →
         e.fld KEEPER_SVC_SVC = d.fld KEEPER_SVC_SVC ∧ e.fld KEEPER_ISTAT_DOUBLE = 1 ∧ faultOf 1) ∧
       (m.val = d.fld KEEPER_CFG_SVCP → v = ~~~svc → e.fld KEEPER_SVC_SVC = v.toNat ∧
         (d.kTick < d.fld KEEPER_WIN_OPEN → e.fld KEEPER_ISTAT_EARLY = 1 ∧ faultOf 0) ∧
         (d.fld KEEPER_WIN_OPEN ≤ d.kTick → d.kTick < d.fld KEEPER_WIN_CLOSE →
           (d.fld KEEPER_STAT_SERVED = 0 → e.fld KEEPER_STAT_SERVED = 1 ∧
             e.fld KEEPER_LASTSVCLO_LASTSVC = d.kTime % 2 ^ 32 ∧ e.fld KEEPER_LASTSVCHI_LASTSVC = d.kTime / 2 ^ 32 % 2 ^ 32 ∧
             e = { d with io := e.io }) ∧
           (d.fld KEEPER_STAT_SERVED = 1 → e.fld KEEPER_ISTAT_EXTRA = 1 ∧ faultOf 2)))))

/-- In WATCH with no expiry under way, the closes due carried out, a check-in of task t at the head of pair p's release:
with EN 1 and from OWNER, COUNT grows by 1 up to 255 and LASTCHK holds the task and the logical pair; with EN 1 and
from another pair, nothing is counted, ISTAT.FOREIGN sets, KPR_TASK is presented with bit 15 of the detail set, and
Keeper does not expire; with EN 0 it is ignored and sets ISTAT.UNSUP. The entry leaves the release. (R407; tier 2) -/
def Obligations.KeeperCheckIn : Prop :=
  ∀ (s : State) (p : Fin 16) (en : CbEntry) (rest : List CbEntry),
    let d := s.dev.closeDue
    let t := en.addr
    d.pairs.length = 16 → (d.pair p).releasing = true → (d.pair p).rel = en :: rest →
    (d.pair p).relShadow = en :: rest → en.kind = .chk → t < 64 → d.fld KEEPER_STAT_STATE = 2 →
    d.keeper.expiring = none →
    Completes (.checkIn p) s fun e =>
      (e.pair p).rel = rest ∧ e.keeper = d.keeper ∧
      (d.fld (KEEPER_TASK_EN t) = 1 → d.fld (KEEPER_TASK_OWNER t) = d.lpairOf p →
        e.fld (KEEPER_TASK_COUNT t) = min 255 (d.fld (KEEPER_TASK_COUNT t) + 1) ∧ e.fld KEEPER_LASTCHK_VALID = 1 ∧
        e.fld KEEPER_LASTCHK_TASK = t ∧ e.fld KEEPER_LASTCHK_LPAIR = d.lpairOf p % 16 ∧ e.island = d.island) ∧
      (d.fld (KEEPER_TASK_EN t) = 1 → d.fld (KEEPER_TASK_OWNER t) ≠ d.lpairOf p →
        e.fld (KEEPER_TASK_COUNT t) = d.fld (KEEPER_TASK_COUNT t) ∧ e.fld KEEPER_ISTAT_FOREIGN = 1 ∧
        e.hasFault fiKprTask (0x8000 + t) = true) ∧
      (d.fld (KEEPER_TASK_EN t) = 0 →
        e.fld KEEPER_ISTAT_UNSUP = 1 ∧ e.island = d.island ∧ e.fld (KEEPER_TASK_COUNT t) = d.fld (KEEPER_TASK_COUNT t))

/-- In WATCH with no expiry under way and the window's CLOSE ticks passed: an unserved window has Keeper expire with cause
LATE whatever its tasks. If an enabled task's COUNT lies outside MIN to MAX, ISTAT.TASK sets; TLO0 holds which of
tasks 0 to 31 were below MIN at this close, failure or not; such a failure expires Keeper with TASK in a served window
where ACT says so, and presents KPR_TASK in any window where it does not. Where Keeper does not expire, the next
window starts at the close with every COUNT at zero and unserved. KPR_EXPIRY of an expiry under way: state EXPIRED,
CAUSE, EVTIME and VALID recorded, JNL cleared, KPR_EXPIRY presented, the force line asserted, the hard timer started,
and the trap in the capture stage of every pair ACTIVE or RECOVERING. HARD_TIMER_END after 16 x (HARD + 1) us asserts
the force line, seals the page and leaves the device reset owed. KEEPER_CLOCK_TRIP has a Keeper that is on expire with
cause CLOCK. EVSTAT_CLEAR clears VALID and every EVPC.VALID. The model's choices, no rules of the spec: a reset that
is owed is performed later (log entry 23); older EVPC records are cleared (log entry 96). (R408; R409; R405; R410;
R411; R412; R403; spec/13_keeper_island.md; tier 2) -/
def Obligations.KeeperWindowsAndExpiry : Prop :=
  (∀ s : State,
     let d := s.dev
     let close := d.keeper.winStart + d.fld KEEPER_WIN_CLOSE * d.ktTicks
     let low (t : Nat) := d.fld (KEEPER_TASK_EN t) = 1 ∧ d.fld (KEEPER_TASK_COUNT t) < d.fld (KEEPER_TASK_MIN t)
     let high (t : Nat) := d.fld (KEEPER_TASK_EN t) = 1 ∧ d.fld (KEEPER_TASK_MAX t) < d.fld (KEEPER_TASK_COUNT t)
     let failed := ∃ t < 64, low t ∨ high t
     d.fld KEEPER_STAT_STATE = 2 → d.keeper.expiring = none → close ≤ d.ticks →
     Completes .windowClose s fun e =>
       (d.fld KEEPER_STAT_SERVED = 0 → e.keeper.expiring = some 0) ∧
       (failed → e.fld KEEPER_ISTAT_TASK = 1) ∧ (∀ t < 32, (e.fld (KEEPER_TLO_FAIL 0)).testBit t = true ↔ low t) ∧
       (d.fld KEEPER_STAT_SERVED = 1 → failed → (d.fld KEEPER_CFG_ACT).testBit 3 = true → e.keeper.expiring = some 4) ∧
       (failed → (d.fld KEEPER_CFG_ACT).testBit 3 = false →
         ∃ t < 64, (low t ∨ high t) ∧ (∀ u < t, ¬ (low u ∨ high u)) ∧ e.hasFault fiKprTask t = true) ∧
       (e.keeper.expiring = none → e.keeper.winStart = close ∧ e.fld KEEPER_STAT_SERVED = 0 ∧
         ∀ t < 64, e.fld (KEEPER_TASK_COUNT t) = 0)) ∧
  (∀ s : State,
     let d := s.dev
     (∀ cause < 8, d.keeper.expiring = some cause → d.pairs.length = 16 → Completes .kprExpiry s fun e =>
       e.fld KEEPER_STAT_STATE = 4 ∧ e.fld KEEPER_EVSTAT_CAUSE = cause ∧ e.fld KEEPER_EVSTAT_VALID = 1 ∧
       e.fld KEEPER_EVSTAT_JNL = 0 ∧ e.fld KEEPER_EVTIMELO_EVTIME = d.kTime % 2 ^ 32 ∧ e.hasFault fiKprExpiry cause = true ∧
       e.forced = true ∧ e.keeper.expiring = none ∧ e.keeper.hardStart = some d.ticks ∧
       ∀ p < 16, (e.pair p).capture = (d.pair p).capture ++
         (if d.pairState p = stActive ∨ d.pairState p = stRecovering then [.expiry] else [])) ∧
     (∀ t, d.keeper.hardStart = some t → t + 16 * (d.fld KEEPER_CFG_HARD + 1) * 600 ≤ d.ticks →
       Completes .hardTimerEnd s fun e => e.forced = true ∧ e.fld SAFEISL_STAT_REACT = 1 ∧ e.nvs.opened = [] ∧
         e.island.resetAfterSeal = true ∧ e.keeper.hardStart = none) ∧
     (d.fld KEEPER_STAT_STATE ≠ 0 → d.fld KEEPER_STAT_STATE ≠ 4 → d.keeper.expiring = none →
       Completes .keeperClockTrip s fun e => e = { d with keeper := { d.keeper with expiring := some 5 } }) ∧
     (Completes .evstatClear s fun e => e.fld KEEPER_EVSTAT_VALID = 0 ∧ (∀ p < 16, e.fld (KEEPER_EVPC_VALID p) = 0) ∧
       e = { d with io := e.io } ∧ (∀ p < 16, e.fld (KEEPER_EVPC_RPC p) = d.fld (KEEPER_EVPC_RPC p))))

/-- In BOOT, CONFIG and SAFE-STOP, with both SSTOP inputs energised, no committed power failure, no reaction in progress
and coverage, a RUN that may come this way completes with DONE: the mode becomes SAFE-STOP where SSLATCH is set in
BOOT or CONFIG, otherwise DEGRADED where a pair is FENCED or RETIRED and RUN where none is, PREV holds the old mode,
and SSLATCH clears where SAFE-STOP is entered. An unconfirmed start is confirmed, its slot is active and both fail
counts are 0. In RUN and DEGRADED the force line is released unless a cause demands it. A command code 1 to 8 that may
come this way, in a mode that R421 does not list or without its further conditions, completes with STATE_REFUSED: the
mode, pairs, memories, drive outputs and start are unchanged, REFUSED counts it and holds its code and the mode; so it
is of every command while no other is carried out. A command that arrives while STANDBY is carried out waits behind
those that wait, and changes nothing else. A protected code written to SYSCTL.CMD completes with SIGREQ and changes
only CMDSTAT. A code that no table lists completes with UNKNOWN and changes only CMDSTAT. (R416; R417; R423; R427;
R396; R420; R421; R422; spec/14_modes_boot.md; tier 2) -/
def Obligations.RunAndRefusals : Prop :=
  (∀ (s : State) (src : CmdSrc), s.dev.mayIssue src 1 = true →
     (s.dev.mode = modeBoot ∨ s.dev.mode = modeConfig ∨ s.dev.mode = modeSafeStop) →
     s.dev.energised 0 = true → s.dev.energised 1 = true → s.dev.fld POWER_STAT_PFCOMMIT = 0 →
     s.dev.fld SAFEISL_STAT_REACT = 0 → s.dev.covered = true →
     Completes (.run src) s fun e =>
       let latched := s.dev.fld SAFEISL_STAT_SSLATCH = 1 ∧ s.dev.mode ≠ modeSafeStop
       (latched → e.mode = modeSafeStop ∧ e.fld SAFEISL_STAT_SSLATCH = 0 ∧ e.forced = true) ∧
       (¬latched → e.mode = if s.dev.anyLost then modeDegraded else modeRun) ∧
       (e.running = true → e.forceDemanded = false → e.fld SAFEISL_STAT_FORCE = 0) ∧
       e.fld SYSCTL_STAT_PREV = s.dev.mode ∧ e.fld SYSCTL_CMDSTAT_STATUS = cmdDone ∧ e.fld SYSCTL_CMDSTAT_CODE = 1 ∧
       (s.dev.start.s7End.isSome = true → s.dev.fld SYSCTL_BOOTSTAT_CONFIRMED = 0 →
         e.fld SYSCTL_BOOTSTAT_CONFIRMED = 1 ∧ e.persist.attempt = none ∧ e.persist.actFail = 0 ∧ e.persist.altFail = 0 ∧
         e.persist.actSlot = s.dev.on SYSCTL_STAT_BOOTSLOT)) ∧
  (∀ (s : State) (src : CmdSrc),
     (s.dev.carrying = true → Completes (.run src) s fun e =>
       e = { s.dev with start := { s.dev.start with waiting := s.dev.start.waiting ++ [(src, 1, 0)] } }) ∧
     (s.dev.carrying = false →
     (∀ (c : Instr) (code arg : Nat),
       (c, code, arg) ∈ ([(.run src, 1, 0), (.safeStop src, 2, 0), (.standby src, 3, 0), (.enterConfig src, 4, 0),
         (.makerTest src, 5, 0), (.clearFog src, 6, 0)] ++ (List.finRange 16).map (fun n => (.unfence src n, 7, n.val)) : List (Instr × Nat × Nat)) →
       s.dev.mayIssue src code = true → (permittedIn code s.dev.mode = false ∨ s.dev.conditionsMet code arg = false) →
       Completes c s fun e =>
         e.fld SYSCTL_CMDSTAT_STATUS = cmdRefused ∧ e.fld SYSCTL_CMDSTAT_CODE = code ∧ e.fld SYSCTL_REFUSED_CODE = code ∧
         e.fld SYSCTL_REFUSED_MODE = s.dev.mode ∧ e.fld SYSCTL_REFUSED_COUNT = min 65535 (s.dev.fld SYSCTL_REFUSED_COUNT + 1) ∧
         e.mode = s.dev.mode ∧ e.pairs = s.dev.pairs ∧ e.mem = s.dev.mem ∧ e.drive = s.dev.drive ∧ e.start = s.dev.start ∧
         e.persist = s.dev.persist) ∧
     (∀ c ∈ [Instr.enterConfig .register, .makerTest .register, .clearFog .register, .reset .register] ++
         (List.finRange 16).map (Instr.unfence .register),
       Completes c s fun e => e.fld SYSCTL_CMDSTAT_STATUS = cmdSigreq ∧ e = { s.dev with io := e.io } ∧ s.dev.SameWords e [8]) ∧
     (∀ code : BitVec 8, code.toNat = 0 ∨ 8 < code.toNat →
       Completes (.unknownCommand .register code) s fun e => e.fld SYSCTL_CMDSTAT_STATUS = cmdUnknown ∧
         e.fld SYSCTL_CMDSTAT_CODE = code.toNat ∧ e = { s.dev with io := e.io } ∧ s.dev.SameWords e [8])))

/-- SSTOP_REENERGISED in SAFE-STOP leaves the mode SAFE-STOP. A RUN, by register or signed, that is judged while either
SSTOP input is de-energised completes with STATE_REFUSED and leaves the mode unchanged. (R66; tier 1) -/
def Obligations.SafeStopRefusesRun : Prop :=
  ∀ (s : State) (i : Fin 2),
    (∀ x : StopLevel, s.dev.mode = modeSafeStop → CompletesLine (.sstopReenergised ⟨i, x⟩) s fun e => e.mode = modeSafeStop) ∧
    (∀ src, s.dev.mayIssue src 1 = true → s.dev.carrying = false → s.dev.energised i = false →
      Completes (.run src) s fun e => e.fld SYSCTL_CMDSTAT_STATUS = cmdRefused ∧ e.mode = s.dev.mode)

/-- Each of these commands, in a mode that R421 lists for it, with its further conditions, a mountable journal and a way
that may issue it, completes with DONE, enters its mode with the old one in PREV, and asserts the force line. STANDBY
with no wake source completes with NOWAKE and stays. ENTER_CONFIG confirms an unconfirmed start. STANDBY with no debug
session starts its wait for releases; with one it is emulated. With a journal that is not full and a signed source
whose role has the right: CLEAR_FOG in FOG outside SCRAPPED sets both fail counts to 0, keeps the active slot and
sends the device back to BOOT; UNFENCE of a FENCED pair in CONFIG or SAFE-STOP makes the pair OFF there and in
retention and leaves it to be tested at the next start; RESET sends the device back to BOOT from any mode, once no
other command is carried out. The model's choices, no rules of the spec: a reset is performed by the command that
causes it (log entry 23). (R416; R421; R427; R434; R436; R396; R423; R425; R433; spec/14_modes_boot.md; tier 2) -/
def Obligations.ModeChanges : Prop :=
  (∀ (s : State) (src : CmdSrc), s.dev.nvs.full = false →
     (∀ (c : Instr) (code m : Nat),
       (c, code, m) ∈ ([(.safeStop src, 2, modeSafeStop), (.standby src, 3, modeStandby), (.enterConfig src, 4, modeConfig),
         (.makerTest src, 5, modeMaker)] : List (Instr × Nat × Nat)) →
       s.dev.mayIssue src code = true → permittedIn code s.dev.mode = true → s.dev.conditionsMet code 0 = true →
       (code = 3 → s.dev.word 0x20 ≠ 0) →
       Completes c s fun e =>
         e.mode = m ∧ e.fld SYSCTL_STAT_PREV = s.dev.mode ∧ e.forced = true ∧ e.fld SYSCTL_CMDSTAT_STATUS = cmdDone ∧
         (code = 4 → s.dev.start.s7End.isSome = true → e.fld SYSCTL_BOOTSTAT_CONFIRMED = 1) ∧
         (code = 3 → s.dev.fld DEBUG_STAT_SESSION = 0 → e.start.waitFrom = some s.dev.ticks) ∧
         (code = 3 → s.dev.fld DEBUG_STAT_SESSION = 1 → e.fld SYSCTL_STAT_EMUL = 1)) ∧
     (permittedIn 3 s.dev.mode = true → s.dev.mayIssue src 3 = true → s.dev.word 0x20 = 0 →
       Completes (.standby src) s fun e => e.fld SYSCTL_CMDSTAT_STATUS = cmdNowake ∧ e.mode = s.dev.mode ∧
         e = { s.dev with io := e.io })) ∧
  (∀ (s : State) (role : Fin 3) (slot : Nat) (n : Fin 16), s.dev.nvs.full = false →
     (s.dev.mayIssue (.signed role slot) 6 = true → s.dev.mode = modeFog → s.dev.lcs ≠ lcScrapped →
       Completes (.clearFog (.signed role slot)) s fun e => e.backInBoot = true ∧ e.persist.actFail = 0 ∧
         e.persist.altFail = 0 ∧ e.persist.actSlot = s.dev.persist.actSlot) ∧
     (s.dev.mayIssue (.signed role slot) 7 = true → (s.dev.mode = modeConfig ∨ s.dev.mode = modeSafeStop) →
       s.dev.pairState n = stFenced →
       Completes (.unfence (.signed role slot) n) s fun e => e.pairState n = stOff ∧
         arrGet 0 e.persist.pairState n = stOff ∧ e.persist.unfenced.testBit n = true ∧ e.mode = s.dev.mode ∧
         ∀ m : Fin 16, m ≠ n → e.pairState m = s.dev.pairState m) ∧
     (s.dev.carrying = false → Completes (.reset (.signed role slot)) s fun e => e.backInBoot = true))

/-- In STANDBY, once no ACTIVE pair's release is in progress or 1 ms has passed since the wait began, STANDBY_COMPLETION,
with no command waiting, leaves no unsealed entry, stops the clocks and switches every VPAIRn off. WAKE by an enabled
source, and CAN_WAKE_PATTERN on an enabled controller that may wake, record the source in WAKESRC and send the device
back to BOOT; a disabled source changes nothing. DEVICE_RESET of a device whose temperature does not hold it in reset
ends the start: in FOG with reason JOURNAL where the journal cannot be mounted; in FOG with reason LIFECYCLE where the
device is SCRAPPED and no transition is open; otherwise in FOG, or in BOOT with the confirmation timer started;
Lantern time goes on by the lt since S2. BOOT_CONFIRM_EXPIRY, once the time of an unconfirmed start has run out,
counts a failure with cause CONFIRM on its slot, saturating at 2 on the active slot, and sends the device back to
BOOT. The model's choices, no rules of the spec: the start-up steps are one command, with their times given (log entry
22). (R434; R435; R426; R424; R425; R428; R430; R432; spec/14_modes_boot.md; tier 2) -/
def Obligations.StandbyAndStart : Prop :=
  (∀ s : State, s.dev.mode = modeStandby →
     (∀ t, s.dev.start.waitFrom = some t → s.dev.start.waiting = [] →
       ((∀ p < 16, s.dev.pairState p = stActive → (s.dev.pair p).releasing = false) ∨ t + 600000 ≤ s.dev.ticks) →
       Completes .standbyCompletion s fun e => e.start.clocksOff = true ∧ e.start.waitFrom = none ∧ e.nvs.opened = [] ∧
         (∀ x ∈ e.pairs, x.vmv = 0 ∧ x.clockOff = true) ∧ e.mode = modeStandby) ∧
     (s.dev.fld SYSCTL_WAKE_ETH = 1 → Completes (.wake .eth) s fun e => e.backInBoot = true ∧ e.fld SYSCTL_WAKESRC_SRC = 1) ∧
     (∀ t, s.dev.start.standbyAt = some t → s.dev.fld SYSCTL_WAKE_TMR ≠ 0 →
       t + s.dev.fld SYSCTL_WAKE_TMR * 600000000 ≤ s.dev.ticks →
       Completes (.wake .timer) s fun e => e.backInBoot = true ∧ e.fld SYSCTL_WAKESRC_SRC = 6) ∧
     (∀ k : Fin 4, (s.dev.fld SYSCTL_WAKE_CAN).testBit k = true →
       Completes (.wake (.can k)) s (fun e => e.backInBoot = true ∧ e.fld SYSCTL_WAKESRC_SRC = 2 + k) ∧
       (s.dev.fld (CANXL_CFG_EN k) = 1 →
         Completes (.canWakePattern k) s fun e => e.backInBoot = true ∧ e.fld SYSCTL_WAKESRC_SRC = 2 + k)) ∧
     (s.dev.fld SYSCTL_WAKE_ETH = 0 → Completes (.wake .eth) s fun e => e = s.dev)) ∧
  (∀ s : State,
     (∀ env : BootEnv, s.dev.power.hotReset = false →
       Completes (.deviceReset env) s fun e =>
         e.start.starting = false ∧ (e.mode = modeFog ∨ (e.mode = modeBoot ∧ e.start.s7End = some s.dev.ticks)) ∧
         e.lantern.lt = s.dev.lantern.lt + env.lanternLt ∧
         (env.journalBad = true → e.mode = modeFog ∧ e.fld SYSCTL_FOGREASON_CODE = 7) ∧
         (env.journalBad = false → s.dev.lcs = lcScrapped → s.dev.persist.intent = none →
           e.mode = modeFog ∧ e.fld SYSCTL_FOGREASON_CODE = 8)) ∧
     (∀ t, s.dev.start.s7End = some t → s.dev.fld SYSCTL_BOOTSTAT_CONFIRMED = 0 →
       t + s.dev.start.confirm * 6000000 ≤ s.dev.ticks →
       Completes .bootConfirmExpiry s fun e => e.backInBoot = true ∧ e.persist.attempt = none ∧
         (if s.dev.on SYSCTL_STAT_BOOTSLOT = s.dev.persist.actSlot
           then e.persist.actFail = min 2 (s.dev.persist.actFail + 1) ∧ e.persist.actCause = 4
           else e.persist.altFail = 1 ∧ e.persist.altCause = 4)))

/-- A frame of at most 1,522 bytes without an S-tag that fits the buffer goes to every running egress port and the host
port that the lookup names, but not to its ingress: it queues where the line is taken, and takes a free line where
nothing queues; an oversize frame, one with an S-tag and one without room are dropped, the first and last counted. An
address that has aged out leaves the table. A link change sets LINKCHG and a loss is presented; the role is the forced
one, or the negotiated one under AUTO. An interval with a Sync whose time lies within 1 us of the time carried on is
good; SYNC rises at the eighth good interval in a row and falls at the third bad one, which is presented; a Sync
measures time and rate afresh. A due pulse, at the first multiple after the last, captures gPTP and Lantern time and
is produced; a wrap advances the epoch. What is not due changes nothing. The model's choices, no rules of the spec:
gPTP time between measurements, and pulses (log entry 68); the learning table, the buffer's count and the line's time
(log entry 69). (R437; R438; R439; R441; R442; R445; R457; spec/15_ethernet_can.md; tier 2) -/
def Obligations.EthernetSwitch : Prop :=
  ∀ s : State,
    let d := s.dev
    (∀ (port : Fin 3) (f : Frame), (port.val < 2 → d.portUp port = true) →
      (1522 < frameSize f → port.val < 2 → Completes (.switchForward port f) s fun e => e = d.count (ETH_PORTCNT_OVS port)) ∧
      (frameSize f ≤ 1522 → f.stag = true → Completes (.switchForward port f) s fun e => e = d) ∧
      (frameSize f ≤ 1522 → f.stag = false → 262144 < d.eth.buffered + frameSize f → port.val < 2 →
        Completes (.switchForward port f) s fun e => e = d.count (ETH_PORTCNT_DROP port)) ∧
      (frameSize f ≤ 1522 → f.stag = false → d.eth.buffered + frameSize f ≤ 262144 →
        Completes (.switchForward port f) s fun e =>
          let m := ({ d with eth := { d.eth with learned := learn d.eth.learned f.src port d.ticks } }).lookup f.dst
          let pcp := match f.ctag with
            | some (p, _) => p
            | none => if port.val < 2 then d.fld (ETH_PORTCFG_DPCP port) else 0
          let ns := 8 * frameSize f
          ((∀ q < 2, d.ticks < (d.eth.line q).until_) →
            e.eth.egress = d.eth.egress ++ (([0, 1].filter (fun q => m.testBit q && q != port.val && d.portUp q)).map
              (fun q => { port := q, pcp := pcp, frame := f })) ∧ e.eth.lines = d.eth.lines) ∧
          (∀ q < 2, (m.testBit q && q != port.val && d.portUp q) = true → (d.eth.line q).until_ ≤ d.ticks →
            (∀ x ∈ d.eth.egress, x.port ≠ q) →
            e.eth.line q = { until_ := d.ticks + (8 * (frameSize f + 20) * 3 + 4) / 5, frame := some f } ∧
            ∀ x ∈ e.eth.egress, x.port ≠ q) ∧
          e.eth.host = d.eth.host ++ (if m.testBit 2 = true ∧ port.val ≠ 2 then
            [{ frame := f, first := d.lanternTime - ns * 48 / 5, gptp := d.gptpNow - ns }] else []) ∧
          e = { d with eth := e.eth })) ∧
    (∀ (q : Fin 2) (up master : Bool) (sqi : Fin 8), Completes (.ethLink q up master sqi) s fun e =>
      (e.fld (ETH_PORTSTAT_LINK q) = 1 ↔ up = true ∧ d.fld (ETH_PORTCFG_EN q) = 1) ∧
      e.fld (ETH_PORTSTAT_SQI q) = sqi ∧ e.fld (ETH_PORTSTAT_MSR q) =
        (if d.fld (ETH_PORTCFG_MS q) = 0 then 1 else if d.fld (ETH_PORTCFG_MS q) = 1 then 0 else if master then 1 else 0) ∧
      (e.fld (ETH_PORTSTAT_LINK q) ≠ d.fld (ETH_PORTSTAT_LINK q) → e.fld (ETH_PORTISTAT_LINKCHG q) = 1) ∧
      (d.fld (ETH_PORTSTAT_LINK q) = 1 → up = false → e.hasFault (fiEthLink + q) 0 = true)) ∧
    (∀ x : SyncSample, Completes (.gptpSyncChange x) s fun e =>
      let good := x.got = true ∧ d.eth.gptpSeen = true ∧ offsetOf (syncTime x) d.gptpNow ≤ 1000
      (d.fld ETH_GPTPSTAT_SYNC = 0 → (e.fld ETH_GPTPSTAT_SYNC = 1 ↔ good ∧ 7 ≤ d.eth.inBound)) ∧
      (d.fld ETH_GPTPSTAT_SYNC = 1 →
        (e.fld ETH_GPTPSTAT_SYNC = 0 ↔ ¬good ∧ 2 ≤ d.eth.outBound) ∧
        (e.fld ETH_GPTPSTAT_SYNC = 0 → e.hasFault fiEthSync 0 = true)) ∧
      (good → e.eth.outBound = 0 ∧ e.eth.inBound = min 8 (d.eth.inBound + 1)) ∧
      (¬good → e.eth.inBound = 0 ∧ e.eth.outBound = min 3 (d.eth.outBound + 1)) ∧
      (x.got = true → e.gptpNow = syncTime x ∧
        (d.eth.gptpSeen = true → d.eth.gptpTick < d.ticks → d.eth.gptp < syncTime x →
          e.eth.rateN = syncTime x - d.eth.gptp ∧ e.eth.rateD = d.ticks - d.eth.gptpTick))) ∧
    (let t := d.netNow
     let p := d.fld ETH_GPTPCFG_PPER * 1000000
     let m := (d.eth.lastPulse / p + 1) * p
     let stamp := d.lanternBefore (t - m)
     (p ≠ 0 → m ≤ t → Completes .timePulse s fun e => e.eth.lastPulse = m ∧
        e.fld64 ETH_GPTPSLTLO_SLT ETH_GPTPSLTHI_SLT = stamp % 2 ^ 64 ∧
        e.fld64 ETH_GPTPSGTLO_SGT ETH_GPTPSGTHI_SGT = (d.gptpNow - (t - m)) % 2 ^ 64 ∧
        e.evt.produced = d.evt.produced ++ [{ prod := 462, stamp := some stamp }]) ∧
     (p = 0 ∨ t < m → Completes .timePulse s fun e => e = d)) ∧
    (d.eth.wrapped = true → Completes .epochWrap s fun e => e.persist.epoch = (d.persist.epoch + 1) % 2 ^ 24 ∧
      e.eth.wrapped = false) ∧
    (d.eth.wrapped = false → Completes .epochWrap s fun e => e = d) ∧
    (∀ x : Learned, d.eth.learned.find? (fun y => d.elapsed y.seen (d.fld ETH_SWAGE_AGE * 1000 * 600000)) = some x →
      Completes .learningEntryAgeout s fun e => (∀ y, y ∈ e.eth.learned ↔ y ∈ d.eth.learned ∧ y.mac ≠ x.mac) ∧
        e = { d with eth := e.eth }) ∧
    ((∀ x ∈ d.eth.learned, d.ticks < x.seen + d.fld ETH_SWAGE_AGE * 600000000) →
      Completes .learningEntryAgeout s fun e => e = d)

/-- Of the message at the host port, the first of the seven checks that fails names the counter that grows, with DROP set
and, for a wrong tag, ETH_INTEG presented; the message is gone and the receive ring untouched. One that passes all and
finds room is written, H is the highest SEQ accepted, a DATA message sets RXMSG, a SIGNED one goes on to the island,
and its SEQ is no longer within the window. Another frame is written into the ring while RAW is 1 and dropped while it
is 0. With the fabric idle, a ring that holds a descriptor, whose port is up with its line free, with no frame or ring
of higher priority there and no wrap of the count, sends it and advances HEAD: ungated at once, gated for a trigger; a
trigger that finds a gated ring empty sets TXEMPTY. A message this device builds passes the format and tag checks. The
model's choices, no rules of the spec: when a descriptor waits (log entry 70); the ring's records (log entry 71).
(R444; R446; R448; R449; R450; R451; spec/15_ethernet_can.md; tier 2) -/
def Obligations.SafetyMessages : Prop :=
  (∀ (s : State) (h : HostFrame) (rest : List HostFrame), s.dev.eth.host = h :: rest →
    let d := s.dev
    let f := h.frame
    let first := h.first
    let body := f.body
    let len := beAt body 22 2
    let sq := beAt body 8 6
    let key := if beAt body 1 1 < 4 then d.keyOf (beAt body 1 1) else none
    let drop (c : Fld) (e : Dev) : Prop := e.eth.host = rest ∧ e.fld c = min 255 (d.fld c + 1) ∧ e.fld ETH_ISTAT_DROP = 1 ∧
      e.mem = d.mem ∧ e.fld ETH_RXRTAIL_TAIL = d.fld ETH_RXRTAIL_TAIL
    (f.etype = d.fld ETH_STCFG_ETYPE →
      (formatOk body = false → Completes .safetyMessageReceive s (drop ETH_DROP_FMT)) ∧
      (formatOk body = true → d.dstOk body = false → Completes .safetyMessageReceive s (drop ETH_DROP_DST)) ∧
      (formatOk body = true → d.dstOk body = true →
        (key = none → Completes .safetyMessageReceive s (drop ETH_DROP_KEY)) ∧
        (∀ k, key = some k →
          (messageTag k (body.take (24 + len)) ≠ (body.drop (24 + len)).take 16 → Completes .safetyMessageReceive s fun e =>
            drop ETH_DROP_TAG e ∧ e.hasFault fiEthInteg (beAt body 5 3 % 4096) = true) ∧
          (messageTag k (body.take (24 + len)) = (body.drop (24 + len)).take 16 →
            (d.peerOf (beAt body 5 3) = none → Completes .safetyMessageReceive s (drop ETH_DROP2_PEER)) ∧
            (∀ p, d.peerOf (beAt body 5 3) = some p →
              (d.seqOk p sq = false → Completes .safetyMessageReceive s (drop ETH_DROP2_SEQ)) ∧
              (d.seqOk p sq = true → d.ageOk h.gptp (beAt body 14 8) = false →
                Completes .safetyMessageReceive s (drop ETH_DROP2_AGE)) ∧
              (d.seqOk p sq = true → d.ageOk h.gptp (beAt body 14 8) = true → d.mode ≠ modeStandby → d.fabricIdle →
                let n := (rxEntry first (body.take (24 + len))).length / 32
                n ≤ ringFree (d.fld ETH_RXRCFG_SIZE) (d.fld ETH_RXRHEAD_HEAD) (d.fld ETH_RXRTAIL_TAIL) →
                d.fld ETH_RXRTAIL_TAIL < d.fld ETH_RXRCFG_SIZE →
                Completes .safetyMessageReceive s fun e => e.eth.host = rest ∧ e.peerH p = max (d.peerH p) sq ∧
                  e.seqOk p sq = false ∧
                  e.fld ETH_RXRTAIL_TAIL = ringNext (d.fld ETH_RXRTAIL_TAIL) (d.fld ETH_RXRCFG_SIZE) n ∧
                  (beAt body 0 1 % 16 = 0 → e.fld ETH_ISTAT_RXMSG = 1) ∧
                  (beAt body 0 1 % 16 = 1 → e.trust.frags = d.trust.frags ++
                    [{ src := beAt body 5 3, keyid := beAt body 1 1, bytes := (body.drop 24).take len }]))))))) ∧
    (f.etype ≠ d.fld ETH_STCFG_ETYPE → d.fld ETH_RXRCFG_RAW = 0 → Completes .rawFrameReceive s fun e =>
      e.eth.host = rest ∧ e.io = d.io ∧ e.mem = d.mem) ∧
    (f.etype ≠ d.fld ETH_STCFG_ETYPE → d.fld ETH_RXRCFG_RAW = 1 →
      ringFree (d.fld ETH_RXRCFG_SIZE) (d.fld ETH_RXRHEAD_HEAD) (d.fld ETH_RXRTAIL_TAIL) <
        (rxEntry first (frameBytes f)).length / 32 →
      Completes .rawFrameReceive s (drop ETH_DROP2_FULL)) ∧
    (f.etype ≠ d.fld ETH_STCFG_ETYPE → d.fld ETH_RXRCFG_RAW = 1 → d.fabricIdle →
      let n := (rxEntry first (frameBytes f)).length / 32
      n ≤ ringFree (d.fld ETH_RXRCFG_SIZE) (d.fld ETH_RXRHEAD_HEAD) (d.fld ETH_RXRTAIL_TAIL) →
      d.fld ETH_RXRTAIL_TAIL < d.fld ETH_RXRCFG_SIZE →
      Completes .rawFrameReceive s fun e => e.eth.host = rest ∧ e.fld ETH_ISTAT_DROP = d.fld ETH_ISTAT_DROP ∧
        e.fld ETH_RXRTAIL_TAIL = ringNext (d.fld ETH_RXRTAIL_TAIL) (d.fld ETH_RXRCFG_SIZE) n)) ∧
  (∀ (s : State) (r : Fin 16),
    let d := s.dev
    let next := ringNext (d.fld (ETH_TXRHEAD_HEAD r)) (d.fld (ETH_TXRCFG_SIZE r)) 1
    d.fld (ETH_TXRHEAD_HEAD r) < d.fld (ETH_TXRCFG_SIZE r) →
    (d.fld (ETH_TXRHEAD_HEAD r) ≠ d.fld (ETH_TXRTAIL_TAIL r) → d.txOpen r = true → d.fabricIdle →
      (d.fld (ETH_TXRCFG_GATED r) = 0 → Completes (.txDescriptorSend r) s fun e => e.fld (ETH_TXRHEAD_HEAD r) = next) ∧
      (d.fld (ETH_TXRCFG_GATED r) = 1 → d.latch (328 + r) ≠ none → Completes (.txrGatedTrigger r) s fun e =>
        e.fld (ETH_TXRHEAD_HEAD r) = next ∧ e.latch (328 + r) = none)) ∧
    (d.fld (ETH_TXRHEAD_HEAD r) = d.fld (ETH_TXRTAIL_TAIL r) →
      (Completes (.txDescriptorSend r) s fun e => e = d) ∧
      (d.fld (ETH_TXRCFG_GATED r) = 1 → d.latch (328 + r) ≠ none → Completes (.txrGatedTrigger r) s fun e =>
        e.fld ETH_ISTAT_TXEMPTY = 1 ∧ e.latch (328 + r) = none)) ∧
    (d.latch (328 + r) = none → Completes (.txrGatedTrigger r) s fun e => e = d)) ∧
  (∀ (d : Dev) (k payload : List Byte) (type keyid dst : Nat), type < 2 → keyid < 4 → payload.length ≤ 1460 →
    let m := d.message k type keyid dst payload
    m.length = 40 + payload.length ∧ formatOk m = true ∧ beAt m 1 1 = keyid ∧
    messageTag k (m.take (24 + payload.length)) = (m.drop (24 + payload.length)).take 16)

/-- A frame that a running controller takes, with a right CRC and a matching filter, enters the RX ring where there is
room, with RXF and, for EVT 1, its event, and is counted in RXLOST where there is none; without a match or with a
wrong CRC it is not stored. With the fabric idle, a sendable entry at the head of an ungated TX ring is sent: HEAD
moves past it, TXF is set, TEC falls, and the frame sent is stamped now; a gated head without its trigger waits.
Bus-off sets TEC 255, BUSOFF and ESTATE and is presented; it is left when recovery completes under AUTOREC or after
RECOVER. The model's choices, no rules of the spec: the steps of TEC and REC (PRESUMED, ISO 11898-1) (log entry 72);
filters and passed-over entries (log entry 73). (R453; R454; R455; spec/15_ethernet_can.md; tier 2) -/
def Obligations.CanControllers : Prop :=
  ∀ (s : State) (k : Fin 4),
    let d := s.dev
    (∀ f : CanFrame,
      (d.fld (CANXL_CFG_EN k) = 0 ∨ d.fld (CANXL_STAT_ESTATE k) = 2 → Completes (.canFrameReceive k f) s fun e => e = d) ∧
      (d.fld (CANXL_CFG_EN k) = 1 → d.fld (CANXL_STAT_ESTATE k) ≠ 2 → f.fmt.val ≤ d.fld (CANXL_CFG_FMTS k) →
        (d.canOf k).received = [] →
        let n := (padTo 16 (canHeader f f.sof ++ (if f.remote then [] else f.data))).length / 16
        let room := ringFree (d.fld (CANXL_RXCFG_SIZE k)) (d.fld (CANXL_RXHEAD_HEAD k)) (d.fld (CANXL_RXTAIL_TAIL k))
        (f.crcOk = false ∨ d.canFilter k f.id.toNat = false → Completes (.canFrameReceive k f) s fun e =>
          e.fld (CANXL_RXTAIL_TAIL k) = d.fld (CANXL_RXTAIL_TAIL k) ∧ e.mem = d.mem ∧ e.evt = d.evt ∧
          (f.crcOk = false → d.fld (CANXL_CFG_LOM k) = 0 →
            e.fld (CANXL_STAT_REC k) = min 255 (d.fld (CANXL_STAT_REC k) + 1))) ∧
        (f.crcOk = true → d.canFilter k f.id.toNat = true → room < n → Completes (.canFrameReceive k f) s fun e =>
          e.fld (CANXL_STAT_RXLOST k) = min 255 (d.fld (CANXL_STAT_RXLOST k) + 1) ∧ e.mem = d.mem) ∧
        (f.crcOk = true → d.canFilter k f.id.toNat = true → n ≤ room → d.fabricIdle →
          d.fld (CANXL_RXTAIL_TAIL k) < d.fld (CANXL_RXCFG_SIZE k) → Completes (.canFrameReceive k f) s fun e =>
            e.fld (CANXL_RXTAIL_TAIL k) = ringNext (d.fld (CANXL_RXTAIL_TAIL k)) (d.fld (CANXL_RXCFG_SIZE k)) n ∧
            e.fld (CANXL_ISTAT_RXF k) = 1 ∧
            e.evt.produced = d.evt.produced ++ (if f.evt then [{ prod := 458 + k, stamp := some f.sof }] else [])))) ∧
    (let header := (d.engineLoad mCan (32 * d.fld (CANXL_TXBASE_BASE k) + 16 * d.fld (CANXL_TXHEAD_HEAD k)) 16).1
     let len := leNat ((header.drop 4).take 4) % 4096
     d.fld (CANXL_CFG_EN k) = 1 → d.fld (CANXL_CFG_LOM k) = 0 → d.fld (CANXL_STAT_ESTATE k) ≠ 2 →
     d.fld (CANXL_TXHEAD_HEAD k) < d.fld (CANXL_TXCFG_SIZE k) →
     (d.fld (CANXL_TXHEAD_HEAD k) ≠ d.fld (CANXL_TXTAIL_TAIL k) → d.fld (CANXL_TXCFG_GATED k) = 0 → d.fabricIdle →
        d.canSendable k (bitsOf (leNat (header.take 4)) 30 2) len ((leNat (header.take 4)).testBit 29) = true → Completes (.canFrameSend k) s fun e =>
          e.fld (CANXL_TXHEAD_HEAD k) =
            ringNext (d.fld (CANXL_TXHEAD_HEAD k)) (d.fld (CANXL_TXCFG_SIZE k)) (1 + (len + 15) / 16)
              % d.fld (CANXL_TXCFG_SIZE k) ∧
          e.fld (CANXL_ISTAT_TXF k) = 1 ∧ e.fld (CANXL_STAT_TEC k) = d.fld (CANXL_STAT_TEC k) - 1 ∧
          ∃ f, (e.canOf k).sent = some f ∧ f.sof = d.lanternTime ∧ f.id.toNat = leNat (header.take 4) % 2 ^ 29) ∧
     (d.fld (CANXL_TXHEAD_HEAD k) = d.fld (CANXL_TXTAIL_TAIL k) → Completes (.canFrameSend k) s fun e => e = d) ∧
     (d.fld (CANXL_TXCFG_GATED k) = 1 → d.fabricIdle → (∀ j < 16, d.latch (264 + 16 * k + j) = none) →
       Completes (.canFrameSend k) s fun e => e = d)) ∧
    (d.fld (CANXL_CFG_EN k) = 1 → d.fld (CANXL_STAT_ESTATE k) ≠ 2 → Completes (.canBusoff k) s fun e =>
      e.fld (CANXL_STAT_ESTATE k) = 2 ∧ e.fld (CANXL_STAT_TEC k) = 255 ∧ e.fld (CANXL_ISTAT_BUSOFF k) = 1 ∧
      e.hasFault (fiCanBusoff + k) 0 = true) ∧
    (d.fld (CANXL_STAT_ESTATE k) = 2 → (Completes (.recover k) s fun e => (e.canOf k).recovering = true ∧ e.io = d.io) ∧
      (d.fld (CANXL_CFG_AUTOREC k) = 1 ∨ (d.canOf k).recovering = true → Completes (.busoffAutoRecovery k) s fun e =>
        e.fld (CANXL_STAT_ESTATE k) = 0 ∧ e.fld (CANXL_STAT_TEC k) = 0 ∧ e.fld (CANXL_STAT_REC k) = 0) ∧
      (d.fld (CANXL_CFG_AUTOREC k) = 0 → (d.canOf k).recovering = false →
        Completes (.busoffAutoRecovery k) s fun e => e = d))

/-- BUOY_START of one list queues it with the Lantern time as its stamp, or sets CMDREF alone where the list runs or
waits. BUOY_LIST_START of an idle port starts the lowest waiting list with the stamp of its START, or else of its
latched trigger, which leaves the latch; a healed ring returns to RING mode. BUOY_WAIT_END releases a WAIT whose time
has come. BUOY_CYCLE_COMPLETE after the last final descriptor clears BUSY, sets CYC, writes LAST and adds 1 to CYCLES.
BUOY_MEM ends the cycle with MEMERR, LAST.ABORT and BUOY_MEM. BUOY_ENUM of a port that enumerates, or is idle in RING
mode, whose CLRADDR returns measures RLAT, sets COUNT to the partners, 512 at most, enables exactly their entries with
TMO 2 and RETRY 1, clears every SEQ, FAILS and SIDE, and sets ENUMDONE, with TOOMANY and BUOY_ENUM above 512; where it
does not return, COUNT is 0; refused elsewhere, it sets CMDREF alone. BUOY_BREAK sets BREAK, presents BUOY_BREAKk and
enters LINE mode with every transaction to be sent again, or without LINEOK stops the port. BUOY_HEAL in LINE mode
sets HEAL. The model's choices, no rules of the spec: times of a cycle and START before a trigger (log entry 86); an
enumeration is one command (log entry 87). (R473; R475; R476; R480; R481; R482; R477; R478; R479;
spec/16_buoy_ports.md; tier 2) -/
def Obligations.BuoyListsAndRing : Prop :=
  (∀ (s : State) (k t : Fin 8),
     let d := s.dev
     (let busy := (∃ c, (d.buoyOf k).cycle = some c ∧ c.list = t) ∨ t.val ∈ d.buoyWaiting k
      Completes (.buoyStart k (BitVec.ofNat 8 (2 ^ t.val))) s fun e =>
         (busy → e.fld (BUOY_ISTAT_CMDREF k) = 1 ∧ e = { d with io := e.io } ∧ d.SameWords e [0x101020 + 0x1000 * k]) ∧
         (¬ busy → (e.buoyOf k).starts = (d.buoyOf k).starts ++ [(t.val, d.lanternTime)] ∧ e = { d with buoy := e.buoy })) ∧
     (∀ rest, d.buoyIdle k = true → d.buoyWaiting k = t.val :: rest →
       CompletesClocked (.buoyListStart k) s fun e =>
         e.fld (BUOY_STAT_BUSY k) = 1 ∧ e.fld (BUOY_STAT_LIST k) = t ∧
         e.fld (BUOY_STAT_LINE k) = (if (d.buoyOf k).healed then 0 else d.fld (BUOY_STAT_LINE k)) ∧
         ∃ c, (e.buoyOf k).cycle = some c ∧ c.list = t ∧ c.base = 16 * d.fld (BUOY_LISTBASE_BASE k t) ∧
           c.count = d.fld (BUOY_LISTCNT_COUNT k t) ∧ c.next = 0 ∧ c.txs = [] ∧
           ((∃ x ∈ (d.buoyOf k).starts, x.1 = t.val) →
             (t.val, c.stamp) ∈ (d.buoyOf k).starts ∧ e = { d with io := e.io, buoy := e.buoy }) ∧
           ((∀ x ∈ (d.buoyOf k).starts, x.1 ≠ t.val) → ∃ g, d.latch (200 + 8 * k + t) = some g ∧ c.stamp = g.stamp ∧
             c.trig = some g ∧ e.latch (200 + 8 * k + t) = none)) ∧
     (∀ c u, (d.buoyOf k).cycle = some c → c.waitUntil = some u → u ≤ d.lanternTime →
       CompletesClocked (.buoyWaitEnd k) s fun e => (e.buoyOf k).cycle = some { c with waitUntil := none } ∧
         e = { d with buoy := e.buoy }) ∧
     (∀ c, (d.buoyOf k).cycle = some c → c.memFail = false → c.stopped = false → c.txs = [] → c.count ≤ c.next →
       d.fld (BUOY_CFG_EN k) = 1 → CompletesClocked (.buoyCycleComplete k) s fun e =>
         (e.buoyOf k).cycle = none ∧ e.fld (BUOY_STAT_BUSY k) = 0 ∧ e.fld (BUOY_ISTAT_CYC k) = 1 ∧
         e.fld (BUOY_LAST_ABORT k) = 0 ∧ e.fld (BUOY_LAST_LIST k) = c.list % 8 ∧
         e.fld (BUOY_LAST_FAILED k) = min 255 c.failed ∧
         e.fld (BUOY_LAST_CYCLES k) = (d.fld (BUOY_LAST_CYCLES k) + 1) % 65536) ∧
     (∀ c, (d.buoyOf k).cycle = some c → c.memFail = true → c.txs = [] → c.count ≤ c.next →
       CompletesClocked (.buoyMem k) s fun e => (e.buoyOf k).cycle = none ∧ e.fld (BUOY_STAT_BUSY k) = 0 ∧
         e.fld (BUOY_ISTAT_MEMERR k) = 1 ∧ e.fld (BUOY_LAST_ABORT k) = 1 ∧ e.hasFault fiBuoyMem k = true)) ∧
  (∀ (s : State) (k : Fin 8),
     let d := s.dev
     (∀ ring : EnumRing, d.fabricIdle →
       (d.fld (BUOY_STAT_ENUMBUSY k) = 1 ∨ (d.buoyIdle k = true ∧ d.fld (BUOY_STAT_LINE k) = 0)) →
       Completes (.buoyEnum k ring) s fun e =>
         e.fld (BUOY_ISTAT_ENUMDONE k) = 1 ∧ e.fld (BUOY_STAT_ENUMBUSY k) = 0 ∧
         (e.buoyOf k).cycle = (d.buoyOf k).cycle ∧
         (ring.rlat = none → e.fld (BUOY_STAT_COUNT k) = 0) ∧
         (∀ r < 2 ^ 24, ring.rlat = some r →
           let n := min 512 ring.partners.length
           e.fld (BUOY_RLAT_RLAT k) = r ∧ e.fld (BUOY_STAT_COUNT k) = n ∧
           (512 < ring.partners.length → e.fld (BUOY_ISTAT_TOOMANY k) = 1 ∧ e.hasFault fiBuoyEnum k = true) ∧
           ∀ i < 512, e.fld (BUOY_T_EN k i) = (if i < n then 1 else 0) ∧ e.fld (BUOY_T_SEQ k i) = 0 ∧
             e.fld (BUOY_T_FAILS k i) = 0 ∧ e.fld (BUOY_T_SIDE k i) = 0 ∧
             (i < n → e.fld (BUOY_T_TMO k i) = 2 ∧ e.fld (BUOY_T_RETRY k i) = 1))) ∧
     (∀ ring : EnumRing, (d.buoyIdle k = false ∨ d.fld (BUOY_STAT_LINE k) = 1) → d.fld (BUOY_STAT_ENUMBUSY k) = 0 →
       Completes (.buoyEnum k ring) s fun e => e.fld (BUOY_ISTAT_CMDREF k) = 1 ∧ e = { d with io := e.io } ∧
         d.SameWords e [0x101020 + 0x1000 * k]) ∧
     (d.fld (BUOY_CFG_EN k) = 1 → d.fld (BUOY_STAT_LINE k) = 0 →
       (d.fld (BUOY_CFG_LINEOK k) = 1 ∨ (d.buoyOf k).cycle = none) →
       CompletesClocked (.buoyBreak k) s fun e =>
         e.fld (BUOY_ISTAT_BREAK k) = 1 ∧ e.hasFault (fiBuoyBreak + k) 0 = true ∧
         e = { d with io := e.io, buoy := e.buoy, island := e.island } ∧
         (d.fld (BUOY_CFG_LINEOK k) = 1 → e.fld (BUOY_STAT_LINE k) = 1 ∧ e.fld (BUOY_CFG_EN k) = 1 ∧
           (∀ c, (e.buoyOf k).cycle = some c → ∀ x ∈ c.txs, x.again = true) ∧
           ((e.buoyOf k).cycle.map (fun c => c.txs.length) = (d.buoyOf k).cycle.map (fun c => c.txs.length))) ∧
         (d.fld (BUOY_CFG_LINEOK k) = 0 → e.fld (BUOY_CFG_EN k) = 0 ∧ e.fld (BUOY_STAT_LINE k) = 0)) ∧
     (∀ f o r, (d.buoyOf k).sent = some (f, o, r) → o ≠ r → d.fld (BUOY_CFG_EN k) = 1 → d.fld (BUOY_STAT_LINE k) = 1 →
       CompletesClocked (.buoyHeal k) s fun e => e.fld (BUOY_ISTAT_HEAL k) = 1 ∧ (e.buoyOf k).healed = true ∧
         e.fld (BUOY_STAT_LINE k) = 1 ∧ e = { d with io := e.io, buoy := e.buoy } ∧ d.SameWords e [0x101020 + 0x1000 * k]))

/-- With the fabric idle, in RING mode BUOY_TRANSACTION_SEND takes a WAIT to its time, or sends a READ with the partner's
SEQ advanced, its frame on the out pair and its deadline of R470. For the one transaction in flight,
BUOY_REPLY_RECEIVE ends it NOPART on its own frame come back and STATE on a STATE reply, and a discarded frame is
counted in CRCERR and retried while RETRY allows. BUOY_DEADLINE counts TMOUT and retries, or ends it TIMEOUT; after a
slot before it that returned nothing either, it is a break, which in LINE mode sends the request again without
counting the attempt. An ending other than OK sets FAIL; FAILS counts NOPART and TIMEOUT and STATE clears it. The
model's choices, no rules of the spec: how a frame is matched to a transaction (log entry 86). (R464; R469; R470;
R471; R472; R474; R475; spec/16_buoy_ports.md; tier 2) -/
def Obligations.BuoyTransactions : Prop :=
  ∀ (s : State) (k : Fin 8) (c : BuoyCycle),
    let d := s.dev
    d.fabricIdle → (d.buoyOf k).cycle = some c → c.memFail = false → c.stopped = false → d.fld (BUOY_CFG_EN k) = 1 →
    d.fld (BUOY_STAT_LINE k) = 0 →
    (∀ bytes : List Byte, c.waitUntil = none → c.earliest ≤ d.lanternTime → (∀ x ∈ c.txs, x.again = false) → c.next < c.count →
      d.engineLoad (buoyMaster k) (c.base + 16 * c.next) 16 = (bytes, .ok, d) →
      let w (i : Nat) : Nat := leNat ((bytes.drop (4 * i)).take 4)
      let a := w 0 % 1024
      (w 0 / 2 ^ 16 % 256 = 0 → CompletesClocked (.buoyTransactionSend k) s fun e => e = { d with buoy := e.buoy } ∧
        (e.buoyOf k).cycle = some { c with next := c.next + 1, waitUntil := some (c.stamp + (w 1 * 48 + 4) / 5) }) ∧
      (w 0 / 2 ^ 16 % 256 = 1 → w 0 / 2 ^ 24 % 128 = 3 → 1 ≤ a → a ≤ 512 → d.fld (BUOY_T_EN k (a - 1)) = 1 →
        CompletesClocked (.buoyTransactionSend k) s fun e =>
          let seq := (d.fld (BUOY_T_SEQ k (a - 1)) + 1) % 16
          let body := (leBytes 4 (w 1)).take 3
          e = { d with io := e.io, buoy := e.buoy } ∧ e.fld (BUOY_T_SEQ k (a - 1)) = seq ∧
          (e.buoyOf k).sent = some (buoyFrame a false false seq 1 body, true, false) ∧
          ∃ x c', (e.buoyOf k).cycle = some c' ∧ x ∈ c'.txs ∧ x.addr = a ∧ x.seq = seq ∧ c'.next = c.next + 1 ∧
            x.deadline = d.lanternTime + frameTime 3 + d.fld (BUOY_RLAT_RLAT k) + 9600 * d.fld (BUOY_T_TMO k (a - 1)))) ∧
    (∀ x : BuoyTx, c.txs = [x] → x.again = false → 1 ≤ x.addr → x.addr ≤ 512 →
      let ended (e : Dev) : Prop := ∃ c', (e.buoyOf k).cycle = some c' ∧ c'.txs = [] ∧ c'.failed = c.failed + 1 ∧
        e.fld (BUOY_ISTAT_FAIL k) = 1
      let retried (e : Dev) : Prop := ∃ c', (e.buoyOf k).cycle = some c' ∧ c'.txs = [{ x with again := true }] ∧
        c'.failed = c.failed
      let fails := d.fld (BUOY_T_FAILS k (x.addr - 1))
      (∀ r : BuoyReply, x.sentAt + 3072 + r.delay ≤ x.deadline →
        CompletesClocked (.buoyReplyReceive k r) s fun e =>
          (frameGood r = true → fAddr r.bytes = x.addr → fSeq r.bytes = x.seq → fRsp r.bytes = false →
            fCmd r.bytes = x.cmd → ended e ∧ e.fld (BUOY_T_FAILS k (x.addr - 1)) = min 63 (fails + 1)) ∧
          (frameGood r = true → fAddr r.bytes = x.addr → fSeq r.bytes = x.seq → fRsp r.bytes = true →
            fCmd r.bytes = 0x7F → ended e ∧ e.fld (BUOY_T_FAILS k (x.addr - 1)) = 0) ∧
          (frameGood r = false → x.attempts ≤ d.fld (BUOY_T_RETRY k (x.addr - 1)) → retried e ∧
            e.fld (BUOY_CNT_CRCERR k) = min 65535 (d.fld (BUOY_CNT_CRCERR k) + 1))) ∧
      (x.deadline < d.lanternTime → CompletesClocked (.buoyDeadline k) s fun e =>
        e.fld (BUOY_CNT_TMOUT k) = min 65535 (d.fld (BUOY_CNT_TMOUT k) + 1) ∧
        ((d.buoyOf k).silent = 0 →
          (x.attempts ≤ d.fld (BUOY_T_RETRY k (x.addr - 1)) → retried e) ∧
          (d.fld (BUOY_T_RETRY k (x.addr - 1)) < x.attempts → ended e ∧
            e.fld (BUOY_T_FAILS k (x.addr - 1)) = min 63 (fails + 1))) ∧
        (1 ≤ (d.buoyOf k).silent → e.fld (BUOY_ISTAT_BREAK k) = 1 ∧ e.hasFault (fiBuoyBreak + k) 0 = true ∧
          (d.fld (BUOY_CFG_LINEOK k) = 1 → e.fld (BUOY_STAT_LINE k) = 1 ∧
            ∃ c', (e.buoyOf k).cycle = some c' ∧ c'.txs = [{ x with again := true, attempts := x.attempts - 1 }]) ∧
          (d.fld (BUOY_CFG_LINEOK k) = 0 → e.fld (BUOY_CFG_EN k) = 0 ∧ (e.buoyOf k).cycle = none))))

/-- For a block that passes every check, with no command carried out, the journal not full and the fuses a thermometer:
ENROL_MAKER in BLANK fuses the maker roots and enters MANUFACTURE; PROVISION, in CONFIG or MAKER-TEST with the key
READY, fuses installer roots and wrap key and enters PROVISIONED; DEPLOY in CONFIG enters DEPLOYED; RETURN in CONFIG,
SAFE-STOP or FOG enters RETURNED, and SCRAP enters SCRAPPED, leaving K0 of zeros as the one key, no operator root and
no grant, SCRAP with the attestation key destroyed. Each ends DONE with the role's counter at CTR. A row's block that
arrives while STANDBY is carried out waits. One that passes every check but meets no condition of R497 ends
STATE_REFUSED: its role's counter is set to CTR, and nothing else of the trust state or of what the journal holds of
it changes. GRANT_END after the grant's DURATION ends it and the session. ATTKEY_READY makes a key being built READY;
TRUST_ENTROPY returns one being built to NONE and presents TRUST_ENTROPY. The model's choices, no rules of the spec:
the order of the checks and what a refusal counts (log entry 74). (R484; R485; R486; R487; R494; R497; R502; R506;
spec/17_trust_lifecycle.md; tier 2) -/
def Obligations.LifecycleAndRefusals : Prop :=
  (∀ (s : State) (b : SignedArg),
     let d := s.dev
     d.carrying = false → d.nvs.full = false → (∀ i < 5, arrGet 0 d.trust.lcsFuses i ≠ 0 ↔ i < d.lcs) →
     let ok (code : Nat) : Prop := d.blockStatus (cmdOf code b) true true true = 0
     let done (code lcs : Nat) (e : Dev) : Prop :=
       arrGet 0 e.persist.ctrs b.role = b.ctr ∧ e.fld TRUST_LASTCMD_CODE = code ∧ e.fld TRUST_LASTCMD_STATUS = 0 ∧
       e.lcs = lcs ∧ e.trust.grant = none ∧ e.persist.intent = none
     let erased (e : Dev) : Prop := e.persist.opRoots = [] ∧ e.keyOf 0 = some (List.replicate 32 0) ∧
       ∀ k, k ≠ 0 → e.keyOf k = none
     (ok 0x10 → d.lcs = lcBlank → Completes (.enrolMaker b) s fun e => done 0x10 lcManufacture e ∧
       e.trust.makerRoots = [(0, b.arg.take 64), (1, b.arg.drop 64)]) ∧
     (ok 0x11 → d.trust.att = .ready → (d.mode = modeConfig ∨ d.mode = modeMaker) →
       Completes (.provision b) s fun e => done 0x11 lcProvisioned e ∧ e.trust.iwk = b.arg.drop 128 ∧
         e.trust.instRoots = [(0, b.arg.take 64), (1, (b.arg.drop 64).take 64)]) ∧
     (ok 0x13 → d.mode = modeConfig → Completes (.deploy b) s fun e => done 0x13 lcDeployed e ∧
       e.persist.keys = d.persist.keys ∧ e.persist.opRoots = d.persist.opRoots) ∧
     (ok 0x14 → (d.mode = modeConfig ∨ d.mode = modeSafeStop ∨ d.mode = modeFog) →
       Completes (.returnToMaker b) s fun e => done 0x14 lcReturned e ∧ erased e ∧ e.trust.att = d.trust.att) ∧
     (ok 0x15 → d.lcs ≠ lcScrapped → Completes (.scrap b) s fun e => done 0x15 lcScrapped e ∧ erased e ∧
       e.trust.att = .destroyed)) ∧
  (∀ (s : State) (b : SignedArg),
     let d := s.dev
     (∀ x ∈ [(Instr.enrolMaker b, 0x10), (.provision b, 0x11), (.genkey b 0, 0x12), (.deploy b, 0x13), (.returnToMaker b, 0x14),
         (.scrap b, 0x15), (.revokeRoot b, 0x16), (.setOproot b, 0x17), (.setKey b, 0x18), (.setPolicy b, 0x19),
         (.install b, 0x1A), (.attest b, 0x1C)],
       (d.carrying = true → d.trust.waiting.length < 3 → Completes x.1 s fun e => e.trust.waiting = d.trust.waiting ++
         [{ bytes := [], via := b.via, row := some { code := x.2, arg := b, seeds := 0 } }] ∧ e = { d with trust := e.trust }) ∧
       (d.carrying = false → d.nvs.full = false → d.blockStatus (cmdOf x.2 b) true true true = 0 →
       d.signedMet (cmdOf x.2 b) = false →
       Completes x.1 s fun e => e.fld TRUST_LASTCMD_STATUS = 1 ∧
         e.persist = { d.persist with ctrs := arrSet 0 d.persist.ctrs b.role b.ctr, epoch := e.persist.epoch } ∧
         (d.eth.wrapped = false → e.persist.epoch = d.persist.epoch) ∧
         e.trust = { d.trust with answer := e.trust.answer } ∧
         e.fld SYSCTL_REFUSED_CODE = x.2)) ∧
     (∀ g, d.trust.grant = some g → g.start + g.dur * 600000000 ≤ d.ticks → Completes .grantEnd s fun e =>
       e.trust.grant = none ∧ e.fld DEBUG_STAT_SESSION = 0 ∧ e.fld TRUST_ISTAT_GRANTCHG = 1 ∧
       (d.session = true → e.fld SYSCTL_STAT_DBGATT = 0 ∧ ∀ lp < 16, ∀ k < 8, e.fld (DEBUG_COMPCTL_EN lp k) = 0)) ∧
     (d.trust.att = .generating →
       (Completes .attkeyReady s fun e => e = { d with trust := { d.trust with att := .ready } }) ∧
       (Completes .trustEntropy s fun e => e.trust.att = .none ∧ e.trust.attSeed = 0)) ∧
     (Completes .trustEntropy s fun e => e.fld TRUST_ISTAT_ENTROPY = 1 ∧ e.hasFault fiEntropy 0 = true ∧
       (d.trust.att = .ready → e.trust.att = .ready)))

/-- SIGNED_FRAGMENT_RECEIVE takes the oldest payload. A first fragment of a block of CNT 1 makes a whole block, which
waits with its path, or with three blocks held is answered BUSY. A first fragment of a larger CNT takes a place of
reassembly, and with both in use it is discarded and counted. REASSEMBLY_TIMEOUT discards a block whose first fragment
came 100 ms ago and counts it. SIGNED_BLOCK_CHECK takes the oldest waiting block that came as bytes, GENKEY and
ENROL_MAKER apart here, through the seven checks in order: FORMAT, DEVICE, ROOT, RIGHTS, REPLAY, SIGNATURE, PATH. The
first that fails gives LASTCMD.STATUS and the answer, which repeats the code and counter; no role's counter, root,
key, grant or lifecycle fuse changes. A code of neither table ends UNKNOWN with no counter changed. A block of a row
that waited is carried out as its row is. While STANDBY is carried out, every block waits. The model's choices, no
rules of the spec: the order of the checks (log entry 74); BUSY with three blocks held (log entry 76). (R492; R495;
R496; R493; R494; R507; R491; spec/17_trust_lifecycle.md; tier 2) -/
def Obligations.SignedBlocks : Prop :=
  (∀ (s : State),
     let d := s.dev
     (∀ (f : Fragment) (rest : List Fragment), d.trust.frags = f :: rest → 4 ≤ f.bytes.length →
       let id := beAt f.bytes 0 2
       let idx := beAt f.bytes 2 1 / 16
       let cnt := beAt f.bytes 2 1 % 16
       let via : SignedVia := .transport f.src (Fin.ofNat 4 f.keyid) id
       1 ≤ cnt → cnt ≤ 4 → idx < cnt → (∀ r ∈ d.trust.parts, r.src ≠ f.src ∨ r.id ≠ id) →
       Completes .signedFragmentReceive s fun e =>
         e.trust.frags = rest ∧
         (cnt = 1 → d.trust.parts.length < 2 → d.trust.waiting.length < 3 →
           e = { d with trust := { d.trust with
             frags := rest, waiting := d.trust.waiting ++ [{ bytes := f.bytes.drop 4, via := via }] } }) ∧
         (cnt = 1 → d.trust.parts.length < 2 → 3 ≤ d.trust.waiting.length → e.trust.waiting = d.trust.waiting ∧
           e.fld TRUST_LASTCMD_STATUS = 0x17 ∧ ∃ a, e.trust.answer = some a ∧ a.status = 0x17 ∧ a.via = via) ∧
         (1 < cnt → d.trust.parts.length < 2 → e = { d with trust := { d.trust with
           frags := rest, parts := d.trust.parts ++
             [{ src := f.src, id := id, keyid := f.keyid, cnt := cnt, got := [(idx, f.bytes.drop 4)], first := d.ticks }] } }) ∧
         (2 ≤ d.trust.parts.length → e.trust.parts = d.trust.parts ∧ e.trust.waiting = d.trust.waiting ∧
           e.fld TRUST_SIGCNT_FRAGLOST = min (2 ^ TRUST_SIGCNT_FRAGLOST.w - 1) (d.fld TRUST_SIGCNT_FRAGLOST + 1))) ∧
     (∀ (a c : List Reassembly) (r : Reassembly), d.trust.parts = a ++ r :: c → (∀ x ∈ a, d.ticks < x.first + 60000000) →
       r.first + 60000000 ≤ d.ticks → Completes .reassemblyTimeout s fun e =>
         (∀ x ∈ e.trust.parts, x.src ≠ r.src ∨ x.id ≠ r.id) ∧ e = { d with io := e.io, trust := { d.trust with parts := e.trust.parts } } ∧
         e.fld TRUST_SIGCNT_FRAGLOST = min (2 ^ TRUST_SIGCNT_FRAGLOST.w - 1) (d.fld TRUST_SIGCNT_FRAGLOST + 1))) ∧
  (∀ (s : State) (b : Block) (rest : List Block), s.dev.trust.waiting = b :: rest →
     let d := s.dev
     let c := b.command
     let n := 24 + beAt b.bytes 20 2
     let fmt := b.formatOk = true ∧ argLegal c.code c.arg = true
     let uid := beAt b.bytes 4 8 = d.trust.devuid
     let root := d.usable c.role c.slot = true
     let right := d.rightsOk c = true
     let newer := arrGet 0 d.persist.ctrs c.role < c.ctr
     let sig := Config.xmssVerify (d.rootOf c.role c.slot) (b.bytes.take n) (b.bytes.drop n) = true
     let path := c.code ∈ [0x11, 0x1B] → c.via = .tender
     (d.carrying = true → Completes .signedBlockCheck s fun e => e = d) ∧
     (∀ x : RowBlock, d.carrying = false → b.row = some x → Completes .signedBlockCheck s fun e =>
       e = signedRow x.code x.arg { d with trust := { d.trust with waiting := rest } } x.seeds) ∧
     (d.carrying = false → b.row = none → c.code ≠ 0x10 → c.code ≠ 0x12 →
     Completes .signedBlockCheck s fun e =>
       let stops (st : Nat) : Prop :=
         e.fld TRUST_LASTCMD_STATUS = st ∧ e.persist = { d.persist with epoch := e.persist.epoch } ∧
         (d.eth.wrapped = false → e.persist.epoch = d.persist.epoch) ∧
         (∃ a, e.trust.answer = some a ∧ a.status = st ∧ a.code = c.code ∧ a.ctr = c.ctr ∧ a.via = c.via) ∧
         e.trust.grant = d.trust.grant ∧ e.trust.lcsFuses = d.trust.lcsFuses ∧ e.trust.waiting = rest ∧
         e.trust.instRoots = d.trust.instRoots ∧ e.trust.revoked = d.trust.revoked
       (¬ fmt → stops 0x10) ∧ (fmt → ¬ uid → stops 0x11) ∧ (fmt → uid → ¬ root → stops 0x12) ∧
       (fmt → uid → root → ¬ right → stops 0x13) ∧ (fmt → uid → root → right → ¬ newer → stops 0x14) ∧
       (fmt → uid → root → right → newer → ¬ sig → stops 0x15) ∧
       (fmt → uid → root → right → newer → sig → ¬ path → stops 0x16) ∧
       (fmt → uid → root → right → newer → sig → path → signedCode c.code = false → stops 2)))

/-- For a block that passes every check with no command carried out and the journal not full, in a mode of R497:
REVOKE_ROOT, where R489 does not refuse it, leaves the named slot unusable and every other root; SET_OPROOT writes the
slot; SET_KEY stores W xor SHAKE256(IWK, DEVUID, CTR); SET_POLICY sets OPCOSIGN and OPINSTALL; INSTALL of an accepted
slot with ACTIVATE makes it active with both fail counts 0, and in FOG resets the device; DEBUG_GRANT puts its grant
in force; GENKEY starts building the key; ATTEST answers the statement signed under the next index, which is used up.
The model's choices, no rules of the spec: argument layouts that no rule gives (log entry 75); verification is an
opaque function (log entry 8). (R488; R489; R490; R497; R501; R506; R504; R502; spec/17_trust_lifecycle.md; tier 2) -/
def Obligations.RootAndKeyCommands : Prop :=
  ∀ (s : State) (b : SignedArg),
    let d := s.dev
    d.carrying = false → d.nvs.full = false →
    let ok (code : Nat) : Prop := d.blockStatus (cmdOf code b) true true true = 0
    let x := beAt b.arg 0 1
    let done (code : Nat) (e : Dev) : Prop :=
      arrGet 0 e.persist.ctrs b.role = b.ctr ∧ e.fld TRUST_LASTCMD_CODE = code ∧ e.fld TRUST_LASTCMD_STATUS = 0 ∧
      e.trust.lcsFuses = d.trust.lcsFuses
    (ok 0x16 → (d.mode = modeConfig ∨ d.mode = modeFog) → d.mayRevoke (cmdOf 0x16 b) = true →
      Completes (.revokeRoot b) s fun e => done 0x16 e ∧ e.usable x (beAt b.arg 1 1) = false ∧
        ∀ r t, ¬ (r = x ∧ t = beAt b.arg 1 1) → e.rootOf r t = d.rootOf r t) ∧
    (ok 0x17 → d.mode = modeConfig → Completes (.setOproot b) s fun e => done 0x17 e ∧ e.rootOf 0 x = b.arg.drop 1) ∧
    (ok 0x18 → (d.mode = modeConfig ∨ d.running = true ∨ d.mode = modeSafeStop) →
      Completes (.setKey b) s fun e => done 0x18 e ∧ e.keyOf x = some (List.zipWith (fun p q => p ^^^ q) (b.arg.drop 1)
        (shake256 (d.trust.iwk ++ beBytes 8 d.trust.devuid ++ beBytes 8 b.ctr) 32)) ∧
        ∀ k, k ≠ x → e.keyOf k = d.keyOf k) ∧
    (ok 0x19 → d.mode = modeConfig → Completes (.setPolicy b) s fun e => done 0x19 e ∧
      e.persist.opCosign = x.testBit 0 ∧ e.persist.opInstall = x.testBit 1) ∧
    (ok 0x1A → d.mode ≠ modeBoot → d.mode ≠ modeStandby → d.mayInstall x = true → Completes (.install b) s fun e =>
      arrGet 0 e.persist.ctrs b.role = b.ctr ∧
      (beAt b.arg 1 1 = 0 → done 0x1A e ∧ e.persist.actSlot = d.persist.actSlot ∧ e.persist.actFail = d.persist.actFail) ∧
      (beAt b.arg 1 1 = 1 → e.persist.actSlot = decide (x = 1) ∧ e.persist.actFail = 0 ∧ e.persist.altFail = 0 ∧
        (d.mode ≠ modeFog → done 0x1A e) ∧ (d.mode = modeFog → e.backInBoot = true))) ∧
    (ok 0x1B → Completes (.debugGrant b) s fun e => done 0x1B e ∧ ∃ g, e.trust.grant = some g ∧ g.pairs = beAt b.arg 0 2 ∧
      g.rights = beAt b.arg 2 1 ∧ g.dur = beAt b.arg 4 4 ∧ g.start = d.ticks ∧ g.regions.length = beAt b.arg 3 1) ∧
    (∀ n, ok 0x12 → d.mode = modeMaker → d.trust.att = .none → Completes (.genkey b n) s fun e => done 0x12 e ∧
      e.trust.att = .generating ∧ e.trust.attSeed = n) ∧
    (ok 0x1C → d.mode ≠ modeStandby → d.trust.att = .ready → d.trust.attNext < 2 ^ 40 → Completes (.attest b) s fun e =>
      done 0x1C e ∧ e.trust.attNext = d.trust.attNext + 1 ∧ ∃ a, e.trust.answer = some a ∧
        a.extra = d.statement b.arg ++ beBytes 5 d.trust.attNext ++
          fixLen 5600 (Config.attSignature d.trust.attSeed d.trust.attNext (d.statement b.arg)))

/-- JOURNAL_SEAL with entries open moves them behind those of the active area, counts every page that failed verification
in VFAIL and one in SEALS, and three failures in a row present NVS_JFAIL; SEAL_PERIOD does so once PERIOD has passed
since the last seal. With none open nothing changes. APPEND of a block whose header and payload are read without error
ends with status 1 for a type below 0x8000 or in STANDBY, 2 for a LEN above 4,096, and else adds its entry, sealed
where FLAGS asks. CHAIN_VERIFY sets CHAINOK, or presents NVS_CHAIN with the page. COMPACTION at 6,144 or more pages,
with the other area erased, no append under way and no power failure, makes the other area active with one page,
generation plus 1 and a SUMMARY, keeps the open entries, and begins the erase of the old area; below 6,144 pages
nothing changes. COMPACTION_ERASE_DONE leaves the old area empty with one erase more, and NVS_WEAR at 90,000.
BLOCK_REMAP of an idle store counts the block remapped, and no byte of the window changes. The model's choices, no
rules of the spec: entry types and arguments that no table gives (log entry 10); a seal of a full page comes as a
command (log entry 14). (R514; R516; R518; R521; R527; R511; R522; R526; spec/18_journal.md; tier 2) -/
def Obligations.JournalAndStore : Prop :=
  (∀ s : State,
     let d := s.dev
     (∀ (bad : Nat) (c : Instr), (c = .journalSeal bad ∨
         (c = .sealPeriod bad ∧ d.nvs.lastSeal + d.fld NVS_CFG_PERIOD * 60000000 ≤ d.ticks)) →
       (d.nvs.opened = [] → Completes c s fun e => e = d) ∧
       (d.nvs.opened ≠ [] → Completes c s fun e => e.nvs.opened = [] ∧ e.nvs.active = d.nvs.active ∧
         e.nvs.area.entries = d.nvs.area.entries ++ d.nvs.opened ∧ e.nvs.other = d.nvs.other ∧ e.nvs.lastSeal = d.ticks ∧
         e.fld NVS_JSTAT_VFAIL = min 65535 (d.fld NVS_JSTAT_VFAIL + bad) ∧
         e.fld NVS_JSTAT_SEALS = min 65535 (d.fld NVS_JSTAT_SEALS + 1) ∧
         (3 ≤ d.nvs.verifyRun + bad → d.nvs.area.pages + bad < 65536 → e.fld NVS_ISTAT_JFAIL = 1 ∧
           e.hasFault fiJfail (d.nvs.area.pages + bad) = true))) ∧
     (d.nvs.opened ≠ [] → d.ticks < d.nvs.lastSeal + d.fld NVS_CFG_PERIOD * 60000000 →
       ∀ bad, Completes (.sealPeriod bad) s fun e => e = d) ∧
     (∀ (addr : Word) (h body : List Byte), d.nvs.append = none →
       let a := addr.toNat / 8 * 8
       let d1 := { d with nvs := { d.nvs with append := some a } }.flag NVS_APSTAT_BUSY
       let type := leNat (h.take 2)
       let len := leNat ((h.drop 2).take 2)
       d1.engineLoad mNvs a 8 = (h, .ok, d1) → (type < 65536 ∧ d.nvs.full = false) →
       Completes (.append addr) s fun e =>
         ((type < 0x8000 ∨ d.mode = modeStandby) → e.fld NVS_APSTAT_STATUS = 1 ∧ e.fld NVS_APSTAT_BUSY = 0 ∧ e.nvs = d.nvs) ∧
         (0x8000 ≤ type → d.mode ≠ modeStandby → 4096 < len →
           e.fld NVS_APSTAT_STATUS = 2 ∧ e.fld NVS_APSTAT_BUSY = 0 ∧ e.nvs = d.nvs) ∧
         (0x8000 ≤ type → d.mode ≠ modeStandby → len ≤ 4096 → d1.engineLoad mNvs (a + 8) len = (body, .ok, d1) →
           e.fld NVS_APSTAT_STATUS = 0 ∧ e.fld NVS_APSTAT_BUSY = 0 ∧ e.nvs.append = none ∧
           ∃ j, j.type = type ∧ j.body = body ∧
             (if leNat (h.drop 4) % 2 = 1 then e.nvs.opened = [] ∧ j ∈ e.nvs.area.entries else j ∈ e.nvs.opened))) ∧
     (∀ broken : Option Nat, d.nvs.verifyFrom ≠ none → Completes (.chainVerify broken) s fun e =>
       e = { d with io := e.io, island := e.island, nvs := { d.nvs with verifyFrom := none } } ∧
       (broken = none → e.fld NVS_STAT_CHAINOK = 1 ∧ e.island = d.island) ∧
       (∀ page < 65536, broken = some page → e.fld NVS_ISTAT_CHAIN = 1 ∧ e.hasFault fiChain page = true ∧
         e.fld NVS_STAT_CHAINOK = d.fld NVS_STAT_CHAINOK))) ∧
  (∀ s : State,
     let d := s.dev
     (6144 ≤ d.nvs.area.pages → d.nvs.other.eraseLeft = 0 → d.nvs.append = none → d.fld POWER_STAT_PFAIL = 0 →
       Completes .compaction s fun e => e.nvs.active = !d.nvs.active ∧ e.nvs.area.pages = 1 ∧
         e.nvs.area.gen = d.nvs.area.gen + 1 ∧ (∃ j, e.nvs.area.entries = [j] ∧ j.type = 1 ∧ j.args = d.persist.summary) ∧
         e.nvs.area.seed = chainHash d.nvs.area.chainSeed d.nvs.area.entries ∧ e.nvs.other.eraseLeft = 128 ∧
         e.nvs.opened.length = d.nvs.opened.length ∧ e.fld NVS_STAT_COMPACT = 1 ∧ e = { d with io := e.io, nvs := e.nvs }) ∧
     (d.nvs.area.pages < 6144 → Completes .compaction s fun e => e = d) ∧
     (d.nvs.other.eraseLeft ≠ 0 → d.fld POWER_STAT_PFAIL = 0 → Completes .compactionEraseDone s fun e =>
       e.nvs.other = { gen := d.nvs.other.gen, erases := d.nvs.other.erases + 1 } ∧ e.nvs.area = d.nvs.area ∧
       e.fld NVS_STAT_COMPACT = 0 ∧ (d.nvs.other.erases = 89999 → e.fld NVS_ISTAT_WEAR = 1 ∧
         e.hasFault fiWear (if d.nvs.active then 512 else 640) = true)) ∧
     (∀ b : Fin 2048, d.nvs.slotOp = none → d.nvs.remapped < 256 → Completes (.blockRemap b) s fun e =>
       e = { d with nvs := { d.nvs with remapped := d.nvs.remapped + 1 } } ∧ ∀ o, e.nvs.byte o = d.nvs.byte o))

/-- ERASE, PROGRAM and FINISH with GO, by a master that reaches the block: while an operation runs, or where R525 refuses
it, STATUS is 1 and nothing begins; ERASE of the active slot outside FOG is so refused; otherwise the operation is
held with its registers and BUSY is set. SLOT_OPERATION_DONE of an ERASE leaves every byte of the region at 0xFF; of a
PROGRAM or a slot's FINISH, the bytes read from SRC; of an evidence FINISH, a sealed EVIDENCE entry. No other byte of
slots and evidence changes; an operation that fails or is stopped leaves every byte outside its range; STATUS says how
it ended. The model's choices, no rules of the spec: an operation acts at its DONE; the bytes of one that fails are
free values (log entry 88). (R525; R517; spec/18_journal.md; tier 2) -/
def Obligations.SlotOperations : Prop :=
  ∀ s : State,
    let d := s.dev
    (∀ (m : Fin 31) (w : Word) (x : Instr × Nat), x ∈ [(Instr.erase m w, 0), (.program m w, 1), (.finish m w, 2)] →
      reachesIo m 0x120020 = true → m.val ≠ mDebug → w.toNat.testBit 31 = true →
      let tgt := if w.toNat / 4 % 4 = 3 then 2 else w.toNat / 4 % 4
      let o : SlotOp := { op := x.2, tgt := tgt, record := w.toNat / 16 % 256, src := d.fld NVS_SRC_SRC, off := d.fld NVS_OFF_OFF, len := d.fld NVS_LEN_LEN }
      ((d.nvs.slotOp ≠ none ∨ d.opRefused o = true) → Completes x.1 s fun e => e.nvs = d.nvs ∧ e.fld NVS_SLOTSTAT_STATUS = 1 ∧
        e.fld NVS_SLOTSTAT_BUSY = d.fld NVS_SLOTSTAT_BUSY) ∧
      (d.nvs.slotOp = none → d.opRefused o = false → Completes x.1 s fun e => e.nvs.slotOp = some o ∧
        e.nvs.flash = d.nvs.flash ∧ e.fld NVS_SLOTSTAT_BUSY = 1 ∧ e.fld NVS_STAT_SLOTBUSY = 1) ∧
      (x.2 = 0 → tgt = (if d.persist.actSlot then 1 else 0) → d.mode ≠ modeFog → d.opRefused o = true)) ∧
    (∀ o : SlotOp, d.nvs.slotOp = some o → o.tgt ≤ 2 → o.record < 256 →
      let base := (opRegion o.tgt o.record).1
      let size := (opRegion o.tgt o.record).2
      let inData (a : Nat) : Prop := a < 0x08000000 ∨ (0x0C000000 ≤ a ∧ a < 0x1C000000)
      let ended (st : Nat) (e : Dev) : Prop :=
        e.nvs.slotOp = none ∧ e.fld NVS_SLOTSTAT_STATUS = st ∧ e.fld NVS_SLOTSTAT_BUSY = 0
      let kept (e : Dev) : Prop :=
        ∀ a, inData a → (a < o.range.1 ∨ o.range.1 + o.range.2 ≤ a) → e.nvs.byte a = d.nvs.byte a
      (d.nvs.stoppedByPf = true → ∀ err, Completes (.slotOperationDone err) s fun e => ended 4 e ∧ kept e) ∧
      (d.nvs.stoppedByPf = false →
        (Completes (.slotOperationDone true) s fun e => ended 3 e ∧ kept e) ∧
        (o.op = 0 → Completes (.slotOperationDone false) s fun e => ended 0 e ∧
          ∀ a, inData a → e.nvs.byte a = if base ≤ a ∧ a < base + size then 0xFF else d.nvs.byte a) ∧
        (∀ bytes : List Byte, (o.op = 1 ∨ (o.op = 2 ∧ o.tgt < 2)) →
          let off := if o.op = 1 then base + o.off else base
          let len := if o.op = 1 then o.len else 16384
          d.engineLoad mNvs o.src len = (bytes, .ok, d) → bytes.length = len →
          Completes (.slotOperationDone false) s fun e => ended 0 e ∧
            ∀ a, inData a → e.nvs.byte a = if off ≤ a ∧ a < off + len then nth 0 bytes (a - off) else d.nvs.byte a) ∧
        (o.op = 2 → o.tgt = 2 → d.nvs.full = false → Completes (.slotOperationDone false) s fun e => ended 0 e ∧
          e.nvs.flash = d.nvs.flash ∧ e.nvs.opened = [] ∧
          ∃ j ∈ e.nvs.area.entries, j.type = 0x40 ∧ j.args = [o.record, o.len])))

/-- BIST_START in MAKER-TEST in MANUFACTURE or RETURNED, with no run under way, sets BUSY, clears COUNT and has every pair
OFF with its clock stopped; elsewhere it is refused with STATUS 3 and counted. A check that is due, the first or the
next after 100 us, of a run outside 990 to 1,010 MHz ends it with CLOCK (1), a supply outside VSET by more than 2 %
with SUPPLY (2); within both it goes on. One that is not due does nothing. BIST_END after a first check ends it with
0, and before it does nothing. A run that ends leaves no word of a bank valid; without records COUNT stands. REPAIR
blows what is planned. The model's choices, no rules of the spec: records come with the checks; an ended run clears
the memories (log entry 90). (R528; R529; R530; R531; R532; spec/19_test_ageing.md; tier 2) -/
def Obligations.SelfTest : Prop :=
  ∀ s : State,
    let d := s.dev
    let endedWith (st : Nat) (e : Dev) : Prop :=
      e.fld TEST_BISTSTAT_BUSY = 0 ∧ e.fld TEST_BISTSTAT_STATUS = st ∧ e.fld TEST_BISTSTAT_COUNT = d.fld TEST_BISTSTAT_COUNT ∧
      ∀ inst < 88, ∀ w, (ramRead e.mem.ram (bankKey inst w) w).value = 0
    (d.mode = modeMaker → (d.lcs = lcManufacture ∨ d.lcs = lcReturned) → d.fld TEST_BISTSTAT_BUSY = 0 → d.pairs.length = 16 →
      Completes .bistStart s fun e => e.fld TEST_BISTSTAT_BUSY = 1 ∧ e.fld TEST_BISTSTAT_COUNT = 0 ∧
        e.test.bistFrom = some d.ticks ∧ e.bistCheckDue = true ∧ ∀ p < 16, e.pairState p = stOff ∧ (e.pair p).clockOff = true) ∧
    ((d.mode ≠ modeMaker ∨ (d.lcs ≠ lcManufacture ∧ d.lcs ≠ lcReturned)) →
      Completes .bistStart s fun e => e.fld TEST_BISTSTAT_STATUS = 3 ∧ e.test = d.test ∧ e.pairs = d.pairs ∧
        e.fld SYSCTL_REFUSED_COUNT = min (2 ^ SYSCTL_REFUSED_COUNT.w - 1) (d.fld SYSCTL_REFUSED_COUNT + 1)) ∧
    (d.fld TEST_BISTSTAT_BUSY = 1 → ∀ khz mv : Nat,
      let v := d.fld TEST_BISTCFG_VSET
      let clockOk := 990000 ≤ khz ∧ khz ≤ 1010000
      let supplyOk := 98 * v ≤ 100 * mv ∧ 100 * mv ≤ 102 * v
      let due := ∀ t, d.test.bistChecked = some t → t + 60000 ≤ d.ticks
      (¬ due → Completes (.bistConditionCheck khz mv []) s fun e => e = d) ∧
      (due → ¬ clockOk → Completes (.bistConditionCheck khz mv []) s (endedWith 1)) ∧
      (due → clockOk → ¬ supplyOk → Completes (.bistConditionCheck khz mv []) s (endedWith 2)) ∧
      (due → clockOk → supplyOk → Completes (.bistConditionCheck khz mv []) s fun e =>
        e = { d with test := { d.test with bistChecked := some d.ticks } }) ∧
      (d.test.bistChecked = none → Completes (.bistEnd []) s fun e => e = d) ∧
      (d.test.bistChecked ≠ none → Completes (.bistEnd []) s (endedWith 0)) ∧
      (∀ r : DWord, d.test.bistChecked ≠ none → d.fld TEST_BISTSTAT_COUNT < 256 → Completes (.bistEnd [r]) s fun e =>
        e.fld TEST_BISTSTAT_COUNT = d.fld TEST_BISTSTAT_COUNT + 1 ∧
        e.fld64 (TEST_BISTRESLO_REC (d.fld TEST_BISTSTAT_COUNT)) (TEST_BISTRESHI_REC (d.fld TEST_BISTSTAT_COUNT)) = r.toNat)) ∧
    (d.test.planned ≠ [] → Completes .repair s fun e =>
      e.test = { d.test with repairs := d.test.repairs ++ d.test.planned, planned := [] } ∧
      (d.nvs.full = false → ∃ j ∈ e.nvs.area.entries, j.args = d.test.planned.map BitVec.toNat))

/-- MARCH_WORD of the next word of a bank counts it as covered and leaves its value; each bit that does not take its value
sets MARCH and presents WATCH_MARCH. OFFER is accepted exactly under R536, else OFFDROP counts; OFFER_ABANDON after
0.200 us with no checkpoint begun drops the slice. SPARE_SLICE passes the next slice of a spare, or presents
WATCH_LBIST. LOOPBACK of an enabled block counts it covered and presents WATCH_LOOP on a failure. WATCH_PERIOD_END
lists the uncovered elements and presents WATCH_LATE, or counts a pass, and starts the next period. The model's
choices, no rules of the spec: words count in order; which elements are due (log entry 91). (R533; R534; R536; R537;
R538; R539; spec/19_test_ageing.md; tier 2) -/
def Obligations.WatchRuns : Prop :=
  ∀ s : State,
    let d := s.dev
    d.test.periodStart ≠ none → d.pairs.length = 16 →
    (∀ (inst : Fin 153) (w : Nat) (stuck : List (Fin 75)), inst.val < 88 → w < bankWords inst → arrGet 0 d.test.marched inst = w →
      Completes (.marchWord inst w stuck) s fun e => arrGet 0 e.test.marched inst = w + 1 ∧
        (∀ i < 88, ∀ v < bankWords i, (ramRead e.mem.ram (bankKey i v) v).value = (ramRead d.mem.ram (bankKey i v) v).value) ∧
        (∀ b ∈ stuck, e.fld TEST_ISTAT_MARCH = 1 ∧ e.hasFault fiMarch inst = true) ∧
        (stuck = [] → e.fld TEST_ISTAT_MARCH = d.fld TEST_ISTAT_MARCH)) ∧
    (∀ (lp : Fin 16) (b : BitVec 16),
      let p := d.physOf lp
      let step := d.fld (AGEING_PAIR_STEP p)
      let good := (d.fld TEST_WCFG_SLICEOK).testBit lp = true ∧ d.pairState p = stActive ∧ arrGet 0 d.test.slices p < 64 ∧
        (4700 * step + 748 * 40 ≤ b.toNat * step)
      (good → p < 16 → Completes (.offer lp b) s fun e => (e.pair p).slice = some (arrGet 0 d.test.slices p) ∧
        (∃ o ∈ e.test.offers, o.phys = p ∧ o.lpair = lp.val ∧ o.since = d.ticks) ∧ e.io = d.io) ∧
      (¬ good → Completes (.offer lp b) s fun e => e = { d with io := e.io } ∧
        e.fld TEST_WSTAT_OFFDROP = min 65535 (d.fld TEST_WSTAT_OFFDROP + 1))) ∧
    (∀ (lp : Fin 16) (o : Offer) (rest : List Offer), d.test.offers = o :: rest → o.lpair = lp.val → o.phys < 16 →
      o.since + 120 ≤ d.ticks → (d.pair o.phys).phase = .run → Completes (.offerAbandon lp) s fun e =>
        e.test.offers = rest ∧ (e.pair o.phys).slice = none) ∧
    (∀ (p : Fin 16) (fail : Bool), d.pairState p = stSpare → arrGet 0 d.test.slices p < 64 →
      Completes (.spareSlice p fail) s fun e =>
        (fail = false → arrGet 0 e.test.slices p = arrGet 0 d.test.slices p + 1 ∧ e.io = d.io) ∧
        (fail = true → e.test = d.test ∧ e.fld TEST_ISTAT_LBIST = 1 ∧ e.hasFault fiLbist p = true)) ∧
    (∀ (b : LoopBlock) (pass : Bool), d.loopReady b = true → Completes (.loopback b pass) s fun e =>
      arrGet false e.test.loops (loopId b) = true ∧
      (pass = true → e.io = d.io ∧ e.island = d.island ∧ e.evt = d.evt) ∧
      (pass = false → e.fld TEST_ISTAT_LOOP = 1 ∧ e.hasFault fiLoop (loopDetail b) = true)) ∧
    (∀ t, d.test.periodStart = some t → t + d.fld TEST_WCFG_PERIOD * 36000000000 ≤ d.ticks →
      Completes .watchPeriodEnd s fun e => e.test.periodStart = some d.ticks ∧ e.test.marched = [] ∧ e.test.slices = [] ∧
        e.fld TEST_WSTAT_LATE = d.uncovered ∧
        (d.uncovered = 0 → e.fld TEST_WSTAT_PASSES = (d.fld TEST_WSTAT_PASSES + 1) % 256 ∧ e.island = d.island) ∧
        (d.uncovered ≠ 0 → e.fld TEST_ISTAT_LATE = 1 ∧ e.hasFault fiLate d.uncovered = true))

/-- VOLTAGE_ADJUST of a pair whose supply is on raises VPAIR by 5 mV where the slack is below GUARD, to Vmax at most;
lowers it by 5 mV, to 650 mV at least, where the slack exceeds GUARD + 20 ps; and else leaves it. Slack below GUARD at
Vmax for 10 ms presents AGE_MONITOR once. MARGIN_PLANNER_RUN 500 operating hours after the last sets each pair in use
to the lower of its step and the step projected for it, presents AGE_RETIRE where no step of 36 or more is projected,
and leaves a pair out of use. The model's choices, no rules of the spec: Vmax of an odd step is cut to whole mV (log
entry 26); AGE_MONITOR once; the projections are the command's (log entry 92). (R540; R541; R543;
spec/19_test_ageing.md; tier 2) -/
def Obligations.AgeingHeld : Prop :=
  ∀ s : State,
    let d := s.dev
    d.pairs.length = 16 →
    (∀ (p : Fin 16) (slack nbti : Nat),
      let x := d.pair p
      let top := 700 + 25 * (x.step - 36) / 2
      let g := d.fld AGEING_CFG_GUARD
      x.vmv ≠ 0 → Completes (.voltageAdjust p slack nbti) s fun e =>
        (slack < g → x.vmv < top → (e.pair p).vmv = min top (x.vmv + 5)) ∧
        (slack < g → top ≤ x.vmv → (e.pair p).vmv = x.vmv ∧
          (∀ t, arrGet none d.age.lowSince p = some t → t + 6000000 ≤ d.ticks → d.age.lowTold.testBit p = false →
            e.fld AGEING_ISTAT_MONITOR = 1 ∧ e.hasFault fiMonitor p = true)) ∧
        (g ≤ slack → slack ≤ g + 20 → (e.pair p).vmv = x.vmv) ∧
        (g + 20 < slack → (e.pair p).vmv = max 650 (x.vmv - 5)) ∧
        (∀ q < 16, q ≠ p.val → e.pair q = d.pair q) ∧ e.bind = d.bind) ∧
    (∀ steps : List (Option Nat), steps.length = 16 → d.age.planHours + 500 ≤ d.age.onTicks / 2160000000000 →
      Completes (.marginPlannerRun steps) s fun e =>
        e.age.planHours = d.age.onTicks / 2160000000000 ∧
        ∀ p < 16, e.fld (AGEING_PAIR_STEP p) ≤ d.fld (AGEING_PAIR_STEP p) ∧
          (d.outOfUse p = true → e.fld (AGEING_PAIR_STEP p) = d.fld (AGEING_PAIR_STEP p)) ∧
          (d.outOfUse p = false → ∀ v, nth none steps p = some v → 36 ≤ v →
            e.fld (AGEING_PAIR_STEP p) = min (d.fld (AGEING_PAIR_STEP p)) v) ∧
          (d.outOfUse p = false → (nth none steps p = none ∨ ∃ v < 36, nth none steps p = some v) →
            e.fld AGEING_ISTAT_RETIRE = 1 ∧ e.hasFault fiRetire p = true))

/-- RESET_PULSE resets the device and counts; LINE_ERROR counts, flags and answers nothing; BADFRAME answers BADFRAME with
TAG 0. With no command working, ATTACH opens a session (in an open one it changes nothing else) and answers OK with 12
bytes; while one works it is answered BUSY. DETACH, and SESSION_IDLE_TIMEOUT after IDLE seconds, end the session with
its grant and its comparators. STATUS answers 72 bytes. PENDING_REPLY answers PENDING once; RESULT answers the held
result. SIGNED answers PENDING and hands its block to the island. An unlisted CMD is answered UNKNOWN. The model's
choices, no rules of the spec: replies that no rule names (log entry 64). (R546; R547; R550; R551; R552; R553; R562;
spec/20_debug.md; tier 2) -/
def Obligations.TenderWire : Prop :=
  ∀ (s : State) (tag : BitVec 8),
    let d := s.dev
    let answers (e : Dev) (st : Nat) : Prop := ∃ r, e.tdr.reply = some r ∧ r.status = st ∧ r.tag = tag.toNat
    let ended (e : Dev) : Prop := e.fld DEBUG_STAT_SESSION = 0 ∧ (d.session = true → e.trust.grant = none ∧
      e.fld SYSCTL_STAT_DBGATT = 0 ∧ e.fld DEBUG_ISTAT_SESSION = 1 ∧ ∀ lp < 16, ∀ k < 8, e.fld (DEBUG_COMPCTL_EN lp k) = 0)
    (Completes .resetPulse s fun e => e.backInBoot = true ∧ e.fld DEBUG_STAT_SESSION = 0 ∧
      e.fld DEBUG_RSTCNT_PULSES = min 65535 (d.fld DEBUG_RSTCNT_PULSES + 1)) ∧
    (Completes .lineError s fun e => e.fld DEBUG_CNT_LINE = min 65535 (d.fld DEBUG_CNT_LINE + 1) ∧
      e.fld DEBUG_ISTAT_LINE = 1 ∧ e.tdr.reply = d.tdr.reply) ∧
    (Completes .badframe s fun e => e = { d with tdr := { d.tdr with reply := some { status := 7, tag := 0 } } }) ∧
    (d.working = false → Completes (.attach tag) s fun e => answers e 0 ∧ e.fld DEBUG_STAT_SESSION = 1 ∧
      (∀ r, e.tdr.reply = some r → r.payload.length = 12) ∧
      (d.session = true → e = { d with tdr := e.tdr }) ∧
      (d.session = false → e.fld SYSCTL_STAT_DBGATT = 1 ∧ e.fld DEBUG_ISTAT_SESSION = 1 ∧ e = { d with io := e.io, tdr := e.tdr })) ∧
    (d.working = true → Completes (.attach tag) s fun e => answers e 3 ∧ e = { d with tdr := e.tdr }) ∧
    (Completes (.detach tag) s fun e => answers e 0 ∧ ended e) ∧
    (d.tdr.lastValid + d.fld DEBUG_CFG_IDLE * 600000000 ≤ d.ticks → Completes .sessionIdleTimeout s ended) ∧
    (Completes (.status tag) s fun e => answers e 0 ∧ e = { d with tdr := e.tdr } ∧
      ∀ r, e.tdr.reply = some r → r.payload.length = 72) ∧
    (∀ w, d.tdr.work = some w → w.result = none → w.req = none → w.told = false →
      Completes .pendingReply s fun e => e = { d with tdr := { d.tdr with
        work := some { w with told := true }, reply := some { status := 2, tag := w.tag } } }) ∧
    (∀ w r, d.tdr.work = some w → w.tag = tag.toNat → w.result = some r → Completes (.result tag) s fun e =>
      e.tdr.reply = some { status := r.status, tag := tag.toNat, payload := r.payload } ∧ e = { d with tdr := e.tdr }) ∧
    (∀ block, d.working = false → d.trust.waiting.length < 3 → Completes (.signed tag block) s fun e => answers e 2 ∧
      e = { d with tdr := e.tdr, trust := { d.trust with waiting := d.trust.waiting ++ [{ bytes := block, via := .tender }] } } ∧
      e.working = true) ∧
    (d.working = false → Completes (.debugUnknown tag) s fun e => answers e 10 ∧ e = { d with tdr := e.tdr })

/-- HALT, RESUME, STEP, SETCOMP, RDCORE, WRCORE, READ and WRITE: while a command works each is answered BUSY, and else
with no session NOSESSION, and nothing but the interface's own record of the request changes; in an open session,
where the lifecycle state or the grant gives no right, a READ's or WRITE's range lies in no grant region, or a WRITE
names KEEPER or NVS, it is answered DENIED, CNT.DENY counts, ISTAT.DENY is set, and no pair, memory or configuration
changes. The model's choices, no rules of the spec: a region needs its EN bit (log entry 65). (R554; R505; R506; R551;
R562; spec/20_debug.md; tier 2) -/
def Obligations.DebugJudged : Prop :=
  ∀ (s : State) (tag : BitVec 8) (lp : Fin 16) (pairs n : BitVec 16) (k : Fin 8) (a m c : Word) (area : Fin 3) (count off : Nat)
    (io live : Bool) (data : List Byte),
    let d := s.dev
    let rd : DebugReq := { wr := false, io := io, live := live, addr := a.toNat, count := count, data := [] }
    let wr : DebugReq := { wr := true, io := io, live := false, addr := a.toNat, count := data.length, data := data }
    ∀ x ∈ [(Instr.halt tag pairs, d.debugRight 0 pairs.toNat), (.resume tag pairs, d.debugRight 0 pairs.toNat),
        (.step tag lp n, d.debugRight 0 (2 ^ lp.val)), (.setcomp tag lp k a m c, d.debugRight 0 (2 ^ lp.val)),
        (.rdcore tag lp area count off, d.debugRight 1 (2 ^ lp.val)), (.wrcore tag lp area off data, d.debugRight 3 (2 ^ lp.val)),
        (.read tag io live count a, d.debugRight (if live then 2 else 1) 0 && d.grantCovers rd),
        (.write tag io a data, d.debugRight (if io then 4 else 3) 0 && d.grantCovers wr && !wr.refused)],
      let answers (e : Dev) (st : Nat) : Prop := ∃ r, e.tdr.reply = some r ∧ r.status = st ∧ r.tag = tag.toNat ∧ r.payload = []
      (d.working = true → Completes x.1 s fun e => answers e 3 ∧ e = { d with tdr := e.tdr }) ∧
      (d.working = false → d.session = false → Completes x.1 s fun e => answers e 8 ∧ e = { d with tdr := e.tdr }) ∧
      (d.working = false → d.session = true → x.2 = false → Completes x.1 s fun e => answers e 1 ∧
        e.fld DEBUG_CNT_DENY = min 65535 (d.fld DEBUG_CNT_DENY + 1) ∧ e.fld DEBUG_ISTAT_DENY = 1 ∧
        e = { d with io := e.io, tdr := e.tdr, island := e.island } ∧ d.SameWords e [0x150008, 0x150010])

/-- In an open session with the right: HALT of a pair not halted, and RESUME of one held, reach its capture stage. STEP of
a halted pair reaches its capture stage too, and presented lets the pair go for COUNT bundles; of another it answers
STATE. SETCOMP stores its comparator. RDCORE of a running pair's data memory, both cores alike and its words clean,
answers the bytes; WRCORE of one data word of a halted pair writes both cores and has a checkpoint taken first; of a
pair not halted it answers STATE. With the fabric idle, a peek of a register answers its value and changes nothing; a
WRITE of a register is performed as master 30. Only the named pair changes. The model's choices, no rules of the spec:
replies that no rule names (log entry 64); a write of data memory is undo-logged (log entry 66). (R555; R556; R557;
R558; R560; R561; spec/20_debug.md; tier 2) -/
def Obligations.DebugCommands : Prop :=
  ∀ (s : State) (tag : BitVec 8) (lp : Fin 16),
    let d := s.dev
    let p := d.physOf lp
    let x := d.pair p
    let answers (e : Dev) (st : Nat) (b : List Byte) : Prop := e.tdr.reply = some { status := st, tag := tag.toNat, payload := b }
    d.working = false → d.session = true → d.pairs.length = 16 → p < 16 →
    (d.debugRight 0 (2 ^ lp.val) = true →
      (x.dbg.halted = false → Completes (.halt tag (BitVec.ofNat 16 (2 ^ lp.val))) s fun e => answers e 0 [] ∧
        e = { d.setPair p { x with capture := x.capture ++ [.halt] } with tdr := e.tdr }) ∧
      (x.dbg.halted = true → Completes (.halt tag (BitVec.ofNat 16 (2 ^ lp.val))) s fun e => answers e 0 [] ∧ e = { d with tdr := e.tdr }) ∧
      (x.dbg.halted = true → Completes (.resume tag (BitVec.ofNat 16 (2 ^ lp.val))) s fun e => answers e 0 [] ∧
        e = { d.setPair p { x with capture := x.capture ++ [.resume] } with tdr := e.tdr }) ∧
      (∀ n : BitVec 16, x.dbg.halted = false → Completes (.step tag lp n) s fun e => answers e 9 [] ∧ e = { d with tdr := e.tdr }) ∧
      (∀ n : BitVec 16, n ≠ 0 → x.dbg.halted = true → Completes (.step tag lp n) s fun e => answers e 0 [] ∧
        e = { d.setPair p { x with capture := x.capture ++ [.step n.toNat] } with tdr := e.tdr }) ∧
      (∀ n rest, x.capture = .step n :: rest → d.presents p = true →
        Completes (.captureInput (Fin.ofNat 16 p) false) s fun e => (e.pair p).capture = rest ∧
          (e.pair p).dbg.halted = false ∧ (e.pair p).dbg.stepping = true ∧ (e.pair p).dbg.stepLeft = n ∧
          e.fld (DEBUG_PSTAT_STEP (d.lpairOf p)) = 1 ∧ (e.pair p).lead = x.lead ∧ ∀ q < 16, q ≠ p → e.pair q = d.pair q) ∧
      (∀ (k : Fin 8) (a m c : Word), Completes (.setcomp tag lp k a m c) s fun e => answers e 0 [] ∧
        e.fld (DEBUG_COMPADDR_ADDR lp k) = a.toNat ∧ e.fld (DEBUG_COMPMASK_MASK lp k) = m.toNat ∧
        e.fld (DEBUG_COMPCTL_EN lp k) = c.toNat / 2 ^ 31 % 2 ∧ e.fld (DEBUG_COMPCTL_KIND lp k) = c.toNat / 2 ^ 8 % 4 ∧
        e.fld (DEBUG_COMPCTL_SLOTS lp k) = c.toNat % 256 ∧ e = { d with io := e.io, tdr := e.tdr })) ∧
    (d.debugRight 1 (2 ^ lp.val) = true → d.pairRuns p = true → x.lead = x.shadow → ∀ n off, 1 ≤ n → n ≤ 4096 → off + n ≤ 131072 →
      (x.lead.areaRead 1 off n).2 = [] → Completes (.rdcore tag lp 1 n off) s fun e =>
        answers e 0 (x.lead.areaRead 1 off n).1 ∧ e = { d with tdr := e.tdr }) ∧
    (d.debugRight 3 (2 ^ lp.val) = true → ∀ (off : Nat) (data : List Byte), data.length = 8 → off % 8 = 0 → off + 8 ≤ 131072 →
      (x.dbg.halted = false → Completes (.wrcore tag lp 1 off data) s fun e => answers e 9 [] ∧ e = { d with tdr := e.tdr }) ∧
      (x.dbg.halted = true → Completes (.wrcore tag lp 1 off data) s fun e => answers e 0 [] ∧ (e.pair p).dbg.ckptFirst = true ∧
        (ramRead (e.pair p).lead.dmem (off / 8) (off / 8)).value = leNat data ∧
        (ramRead (e.pair p).shadow.dmem (off / 8) (off / 8)).value = leNat data ∧
        (∀ w, w ≠ off / 8 → ramRead (e.pair p).lead.dmem w w = ramRead x.lead.dmem w w) ∧ ∀ q < 16, q ≠ p → e.pair q = d.pair q)) ∧
    (∀ (a : Word) (r : Reg) (ix : List Nat), a.toNat % 4 = 0 → regAt a.toNat = some (r, ix) →
      let q : DebugReq := { wr := false, io := true, live := false, addr := a.toNat, count := 4, data := [] }
      d.fabricIdle → d.debugRight 1 0 = true → d.grantCovers q = true →
      d.mpuCheck mDebug { io := true, addr := a.toNat, size := 4, rd := true, wr := false } = none →
      Completes (.read tag true false 4 a) s fun e =>
        answers e 0 (leBytes 4 (d.liveWord r ix (d.word a.toNat)).toNat) ∧ e = { d with tdr := e.tdr }) ∧
    (∀ (a v : Word) (r : Reg) (ix : List Nat), regAt a.toNat = some (r, ix) → a.toNat % 4 = 0 → a.toNat / 0x10000 ∈ [3, 0x14] →
      let q : DebugReq := { wr := true, io := true, live := false, addr := a.toNat, count := 4, data := leBytes 4 v.toNat }
      d.fabricIdle → d.debugRight 4 0 = true → d.grantCovers q = true →
      d.mpuCheck mDebug { io := true, addr := a.toNat, size := 4, rd := false, wr := true } = none →
      Completes (.write tag true a (leBytes 4 v.toNat)) s fun e => answers e 0 [] ∧ e = { d with io := e.io, tdr := e.tdr } ∧
        e.word a.toNat = regWritten r.fields (ioLocked d.io a.toNat) (d.word a.toNat) v ∧ d.SameWords e [a.toNat])

/-- A write that the master's MPU denies only leaves the denial to be recorded; one where no register is defined changes
nothing. An allowed write of a register of FABRIC, TRUST, AGEING, DEBUG, or MEMCTL other than ETCTL changes that word
alone: RW, and LCK while unlocked, take the written value as the field stores it; W1C bits clear, W1S bits set; TGL
takes only the complement; LCK when locked, RO, WO and RC keep their value. (R14; R12; R17; R28; R364;
spec/00_scope.md; tier 2) -/
def Obligations.RegisterWrites : Prop :=
  ∀ (s : State) (m : Fin 31) (user : Bool) (a : Nat) (v : Word),
    let d := s.dev
    let acc : Access := { io := true, addr := a, size := 4, rd := false, wr := true, user := user && decide (m.val < 16) }
    (∀ why, d.mpuCheck m acc = some why → Completes (.registerWrite m user a v) s fun e =>
      e = { d with fab := e.fab } ∧ e.fab = { d.fab with denials := e.fab.denials } ∧
      e.fab.denials.length = d.fab.denials.length + 1) ∧
    (d.mpuCheck m acc = none → regAt a = none → Completes (.registerWrite m user a v) s fun e => e = d) ∧
    (∀ r ix, d.mpuCheck m acc = none → regAt a = some (r, ix) → a / 0x10000 ∈ [3, 5, 0x11, 0x14, 0x15] → a ≠ 0x050050 →
      Completes (.registerWrite m user a v) s fun e =>
        e = { d with io := e.io } ∧ d.SameWords e [a] ∧
        ∀ f ∈ r.fields,
          let old := fieldOf (d.word a) f.lo f.w
          let x := fieldOf v f.lo f.w
          let new := fieldOf (e.word a) f.lo f.w
          let locked := ioLocked d.io a = true
          ((f.acc = .rw ∨ (f.acc = .lck ∧ ¬ locked)) → new = f.norm.apply old x % 2 ^ f.w) ∧
          ((f.acc = .ro ∨ f.acc = .wo ∨ f.acc = .rc ∨ (f.acc = .lck ∧ locked)) → new = old) ∧
          (f.acc = .w1c → ∀ i < f.w, new.testBit i = (old.testBit i && !x.testBit i)) ∧
          (f.acc = .w1s → ∀ i < f.w, new.testBit i = (old.testBit i || x.testBit i)) ∧
          (f.acc = .tgl → new = if x + old = 2 ^ f.w - 1 then x else old))

/-- With EN 1: START of an idle channel begins a transfer of what its registers say and sets BUSY; of a busy one it only
sets SWOVR; an idle channel with GATED 1 takes its latched trigger. With EN 0 nothing happens. DMA_TRANSFER_END of a
running transfer whose accesses are all answered clears BUSY, writes CODE, sets the channel's DONE bit for code 0 and
its ERR bit otherwise, and takes the transfer off; a channel with none running is unchanged. The model's choices, no
rules of the spec: a transfer is performed at its end (log entry 55); START with EN 0 (log entry 61). (R564; R381;
spec/21_iomap_electrical.md; tier 2) -/
def Obligations.DmaTransfers : Prop :=
  ∀ (s : State) (n : Fin 2) (j : Fin 32) (sw : Bool),
    let d := s.dev
    let busy := d.fld (DMA_CHSTAT_BUSY n j) = 1
    let begun (trig : Option Trig) (e : Dev) : Prop :=
      e.fld (DMA_CHSTAT_BUSY n j) = 1 ∧ mapFind e.dma (dmaChannel n j) = some
        { trig := trig, src := d.fld (DMA_CHSRC_SRC n j), dst := d.fld (DMA_CHDST_DST n j), len := d.fld (DMA_CHLEN_LEN n j)
          sio := d.on (DMA_CHCFG_SIO n j), dio := d.on (DMA_CHCFG_DIO n j) } ∧
      (∀ c, c ≠ dmaChannel n j → mapFind e.dma c = mapFind d.dma c) ∧ d.SameWords e [0x171110 + 0x1000 * n + 0x20 * j]
    (d.fld (DMA_CHCFG_EN n j) = 0 → Completes (.dmaChannelStart n j sw) s fun e => e = d) ∧
    (d.fld (DMA_CHCFG_EN n j) = 1 →
      (¬ busy → Completes (.dmaChannelStart n j true) s fun e => begun none e ∧ e = { d with io := e.io, dma := e.dma }) ∧
      (busy → Completes (.dmaChannelStart n j true) s fun e => e.fld (DMA_CHSTAT_SWOVR n j) = 1 ∧ e = { d with io := e.io }) ∧
      (∀ t, d.fld (DMA_CHCFG_GATED n j) = 1 → ¬ busy → d.latch (dmaInput n j) = some t →
        Completes (.dmaChannelStart n j false) s fun e => begun (some t) e ∧ e.latch (dmaInput n j) = none)) ∧
    (mapFind d.dma (dmaChannel n j) = none → Completes (.dmaTransferEnd n j) s fun e => e = d) ∧
    (∀ (r : DmaRun) (x : Dev) (code : Nat) (b : BusEnd), mapFind d.dma (dmaChannel n j) = some r →
      d.dmaCopy (16 + n) (dmaChannel n j) r 0 (r.len / 4 + 4) = (b, x) → (mapFind x.dma (dmaChannel n j)).isSome = true →
      (b = if code = 0 then .ok else .error code) → code < 65536 →
      Completes (.dmaTransferEnd n j) s fun e => mapFind e.dma (dmaChannel n j) = none ∧
        e.fld (DMA_CHSTAT_BUSY n j) = 0 ∧ e.fld (DMA_CHSTAT_CODE n j) = code ∧ e.mem = x.mem ∧
        (code = 0 → (e.fld (DMA_DONE_DONE n)).testBit j = true) ∧ (code ≠ 0 → (e.fld (DMA_ERR_ERR n)).testBit j = true))

/-- Where a command waits, a step is exec of the front command on the state with the rest of the queue. Every command
answers a next state in every state and leaves the queue alone, so every step answers a next state. With no command
waiting it is one tick of the device, the queue staying empty (the model's own choice, log entry 1).
(spec/95_what_each_step_holds.md; spec/INDEX.md; tier 1) -/
def Obligations.StepTakesFrontCommand : Prop :=
  (∀ (s : State) (c : Instr) (rest : List Instr), s.pending = c :: rest → step s = exec c { s with pending := rest }) ∧
  (∀ s : State, s.pending = [] → ∃ t, step s = .next t ∧ t.pending = [] ∧ t.dev = tick s.dev) ∧
  (∀ (c : Instr) (s : State), CompletesLine c s fun _ => True) ∧ (∀ s : State, ∃ t, step s = .next t)

/-- With no command waiting (the model's own choice, log entry 1): a device whose converter is off is unchanged.
Otherwise, where no reset is owed, the device's time grows by one lt, and Lantern's by one lt exactly where the device
has started, its temperature does not hold it in reset and its clocks run. (R20; R47; R253; R434; spec/08_lantern.md;
tier 2) -/
def Obligations.TimePasses : Prop :=
  ∀ s : State, s.pending = [] →
    ∃ t, step s = .next t ∧
      (s.dev.power.converter = false → t.dev = s.dev) ∧
      (s.dev.power.converter = true → s.dev.island.resetAfterSeal = false →
        t.dev.ticks = s.dev.ticks + 1 ∧
        t.dev.lantern.lt = s.dev.lantern.lt + (if s.dev.start.starting || s.dev.start.clocksOff || s.dev.power.hotReset then 0 else 1))

/-- The state after power-on reset meets the invariants of this model; nothing waits; the mode is BOOT with S1 to S7 still
to run; the force line is asserted with every group at its safe levels; every pair is OFF; all three island lanes
vote; Keeper is off; every word of every bank reads zero without an error. (R13; R321; R396; R403; R416;
spec/14_modes_boot.md; tier 1) -/
def Obligations.ResetState : Prop :=
  State.reset.Canonical ∧ State.reset.pending = [] ∧ State.reset.dev.backInBoot = true ∧ State.reset.dev.forced = true ∧
  (∀ p < 16, State.reset.dev.pairState p = stOff) ∧ State.reset.dev.fld SAFEISL_STAT_LANES = 7 ∧
  State.reset.dev.fld KEEPER_STAT_STATE = 0 ∧ State.reset.dev.readable ∧
  (∀ inst < 32, ∀ w < 131072, (ramRead State.reset.dev.mem.ram (bankKey inst w) w).value = 0)

/-- From every state whose register map is canonical (addresses rising, no word listed at its reset value) with its 16
pairs, a step leads to such a state, whatever command it takes. (R12; R13; R14; spec/00_scope.md; tier 3) -/
def Obligations.StepKeepsRegisters : Prop :=
  ∀ s t : State, s.dev.ioWf = true → s.dev.pairs.length = 16 → step s = .next t →
    t.dev.ioWf = true ∧ t.dev.pairs.length = 16

/-- From every state whose banks and whose pairs' data and instruction memories are canonical, a step leads to such a
state, whatever command it takes. (R319; R321; R324; spec/10_memory_ecc.md; tier 3) -/
def Obligations.StepKeepsMemories : Prop :=
  ∀ s t : State, s.dev.memWf = true → s.dev.pairs.all Pair.memWf = true → step s = .next t →
    t.dev.memWf = true ∧ t.dev.pairs.all Pair.memWf = true

/-- In every state and whatever command a step takes, a lifecycle state bit that is set stays set, and LCS never falls;
nor does an anchor of the anti-rollback floor. (R485; R486; spec/17_trust_lifecycle.md; tier 3) -/
def Obligations.LifecycleNeverGoesBack : Prop :=
  ∀ s t : State, step s = .next t →
    (∀ i < 5, arrGet 0 s.dev.trust.lcsFuses i ≠ 0 → arrGet 0 t.dev.trust.lcsFuses i ≠ 0) ∧ s.dev.lcs ≤ t.dev.lcs ∧
    s.dev.trust.arbAnchor ≤ t.dev.trust.arbAnchor

/-- For every bundle whose fields fit the encoding and that R130 allows, decoding its 256 bits gives exactly that bundle:
header, moves and long immediates. (R113; R114; R125; R127; R130; spec/04_queba_encoding.md; tier 3) -/
def Obligations.BundleRoundTrip : Prop :=
  ∀ b : Bundle, b.wf = true → encodeBundle b < 2 ^ 256 ∧ decodeBundle (encodeBundle b) = .ok b

/-- The four words that the encoding chapter prints for its bundle worked to the bit, and the words of its packing example
(#2.5d to d3), decode to the bundles that the two tables lay out: every other slot is a no-op move. (R113; R114; R125;
R128; spec/04_queba_encoding.md; tier 1) -/
def Obligations.PackingExample : Prop :=
  decodeBundle (0x15200B0841088C20 + 2 ^ 64 * 0x00030431030A7282 + 2 ^ 128 * 0xAE) = .ok
    { await := some 3, gate := none, isafe := true, limm := 0,
      moves := [⟨false, 2, 3, 0x084, 0x108⟩, ⟨false, 2, 2, 0x085, 0x480⟩, ⟨false, 0, 3, 0x103, 0x0A7⟩, ⟨true, 2, 3, 0x800, 0x0C1⟩,
        nopMove, nopMove, nopMove, nopMove], imms := [] } ∧
  decodeBundle (0x031200E3000C + 2 ^ 192 * 0x1001000000) = .ok
    { await := none, gate := none, isafe := false, limm := 3,
      moves := [⟨false, 0, 3, 0x120, 0x0E3⟩, nopMove, nopMove, nopMove, nopMove], imms := [0x4004000000000000] }
end

