-- ==== Sys2Proof/Laws/Table.lean ====
section
/-! SUPPORT. Table.lean: the laws of sparse tables, arrays and lists: what a write leaves at its key and at every other
key, and that every write keeps the canonical form. -/

set_option Elab.async false

namespace Sys2Proof.Machine

variable {β : Type}

/-! ### Entries -/

theorem mapFind_mapPut_same (m : List (Nat × β)) (k : Nat) (v : β) : mapFind (mapPut m k v) k = some v := by
  induction m with
  | nil => simp [mapPut, mapFind]
  | cons e t ih =>
    obtain ⟨j, w⟩ := e
    by_cases h : j = k
    · simp [mapPut, mapFind, h]
    · by_cases h2 : k < j <;> simp [mapPut, mapFind, h, h2, ih]

theorem mapFind_mapPut_ne (m : List (Nat × β)) {k i : Nat} (v : β) (hi : i ≠ k) :
    mapFind (mapPut m k v) i = mapFind m i := by
  induction m with
  | nil => simp [mapPut, mapFind, Ne.symm hi]
  | cons e t ih =>
    obtain ⟨j, w⟩ := e
    by_cases h : j = k
    · subst h; simp [mapPut, mapFind, Ne.symm hi]
    · by_cases h2 : k < j <;> simp [mapPut, mapFind, h, h2, ih, Ne.symm hi]

theorem mapFind_mapDel_same (m : List (Nat × β)) (k : Nat) : mapFind (mapDel m k) k = none := by
  induction m with
  | nil => rfl
  | cons e t ih =>
    obtain ⟨j, w⟩ := e
    by_cases h : j = k <;> simp [mapDel, mapFind, h, ih]

theorem mapFind_mapDel_ne (m : List (Nat × β)) {k i : Nat} (hi : i ≠ k) : mapFind (mapDel m k) i = mapFind m i := by
  induction m with
  | nil => rfl
  | cons e t ih =>
    obtain ⟨j, w⟩ := e
    by_cases h : j = k
    · subst h; simp [mapDel, mapFind, Ne.symm hi, ih]
    · simp [mapDel, mapFind, h, ih]

/-! ### Reading after a write -/

/-- A key reads as it was set. -/
@[simp] theorem mapGet_mapSet_same [DecidableEq β] (dflt : Nat → β) (m : List (Nat × β)) (k : Nat) (v : β) :
    mapGet dflt (mapSet dflt m k v) k = v := by
  by_cases h : v = dflt k
  · simp [mapGet, mapSet, h, mapFind_mapDel_same]
  · simp [mapGet, mapSet, h, mapFind_mapPut_same]

/-- Every other key reads as before. -/
theorem mapGet_mapSet_ne [DecidableEq β] (dflt : Nat → β) (m : List (Nat × β)) {k i : Nat} (v : β) (hi : i ≠ k) :
    mapGet dflt (mapSet dflt m k v) i = mapGet dflt m i := by
  by_cases h : v = dflt k
  · simp [mapGet, mapSet, h, mapFind_mapDel_ne m hi]
  · simp [mapGet, mapSet, h, mapFind_mapPut_ne m v hi]

/-- Both at once: what any key reads as after a write. -/
theorem mapGet_mapSet [DecidableEq β] (dflt : Nat → β) (m : List (Nat × β)) (k i : Nat) (v : β) :
    mapGet dflt (mapSet dflt m k v) i = if i = k then v else mapGet dflt m i := by
  by_cases hi : i = k
  · subst hi; simp
  · simp [mapGet_mapSet_ne dflt m v hi, hi]

@[simp] theorem mapGet_nil (dflt : Nat → β) (k : Nat) : mapGet dflt [] k = dflt k := rfl

@[simp] theorem arrGet_nil (dflt : β) (k : Nat) : arrGet dflt [] k = dflt := rfl

@[simp] theorem arrGet_arrSet_same [DecidableEq β] (dflt : β) (m : List (Nat × β)) (k : Nat) (v : β) :
    arrGet dflt (arrSet dflt m k v) k = v := mapGet_mapSet_same _ m k v

theorem arrGet_arrSet_ne [DecidableEq β] (dflt : β) (m : List (Nat × β)) {k i : Nat} (v : β) (hi : i ≠ k) :
    arrGet dflt (arrSet dflt m k v) i = arrGet dflt m i := mapGet_mapSet_ne _ m v hi

theorem arrGet_arrSet [DecidableEq β] (dflt : β) (m : List (Nat × β)) (k i : Nat) (v : β) :
    arrGet dflt (arrSet dflt m k v) i = if i = k then v else arrGet dflt m i := mapGet_mapSet _ m k i v

/-! ### The canonical form -/

theorem mapRising_mono {lo lo' : Nat} (hl : lo ≤ lo') : ∀ m : List (Nat × β), mapRising lo' m = true → mapRising lo m = true
  | [], _ => rfl
  | (j, w) :: t, h => by
    simp only [mapRising, Bool.and_eq_true, decide_eq_true_eq] at h ⊢
    exact ⟨by omega, h.2⟩

theorem mapRising_mapPut {k : Nat} (v : β) : ∀ (m : List (Nat × β)) (lo : Nat), lo ≤ k → mapRising lo m = true →
    mapRising lo (mapPut m k v) = true
  | [], lo, hk, _ => by simp [mapPut, mapRising, hk]
  | (j, w) :: t, lo, hk, h => by
    simp only [mapRising, Bool.and_eq_true, decide_eq_true_eq] at h
    obtain ⟨hj, ht⟩ := h
    unfold mapPut
    split
    · next e => subst e; simp [mapRising, hk, ht]
    · next e =>
      split
      · next l =>
        simp only [mapRising, Bool.and_eq_true, decide_eq_true_eq]
        exact ⟨hk, by omega, ht⟩
      · next l =>
        simp only [mapRising, Bool.and_eq_true, decide_eq_true_eq]
        exact ⟨hj, mapRising_mapPut v t (j + 1) (by omega) ht⟩

theorem mapRising_mapDel (k : Nat) : ∀ (m : List (Nat × β)) (lo : Nat), mapRising lo m = true →
    mapRising lo (mapDel m k) = true
  | [], _, _ => rfl
  | (j, w) :: t, lo, h => by
    simp only [mapRising, Bool.and_eq_true, decide_eq_true_eq] at h
    obtain ⟨hj, ht⟩ := h
    unfold mapDel
    split
    · exact mapRising_mono (by omega) _ (mapRising_mapDel k t (j + 1) ht)
    · simp only [mapRising, Bool.and_eq_true, decide_eq_true_eq]
      exact ⟨hj, mapRising_mapDel k t (j + 1) ht⟩

theorem mem_mapPut {k : Nat} {v : β} {e : Nat × β} : ∀ {m : List (Nat × β)}, e ∈ mapPut m k v → e = (k, v) ∨ e ∈ m
  | [], h => by simpa [mapPut] using h
  | (j, w) :: t, h => by
    unfold mapPut at h
    split at h
    · rcases List.mem_cons.1 h with h | h <;> simp [h]
    · split at h
      · rcases List.mem_cons.1 h with h | h <;> simp [h]
      · rcases List.mem_cons.1 h with h | h
        · simp [h]
        · rcases mem_mapPut h with h | h <;> simp [h]

theorem mem_mapDel {k : Nat} {e : Nat × β} : ∀ {m : List (Nat × β)}, e ∈ mapDel m k → e ∈ m
  | [], h => h
  | (j, w) :: t, h => by
    unfold mapDel at h
    split at h
    · exact List.mem_cons_of_mem _ (mem_mapDel h)
    · rcases List.mem_cons.1 h with h | h
      · simp [h]
      · exact List.mem_cons_of_mem _ (mem_mapDel h)

@[simp] theorem mapWf_nil [DecidableEq β] (dflt : Nat → β) : mapWf dflt ([] : List (Nat × β)) = true := rfl

/-- The canonical form in words: keys rise, and no entry is its default. -/
theorem mapWf_iff [DecidableEq β] (dflt : Nat → β) (m : List (Nat × β)) :
    mapWf dflt m = true ↔ mapRising 0 m = true ∧ ∀ e ∈ m, e.2 ≠ dflt e.1 := by
  simp [mapWf]

/-- A write keeps the canonical form. -/
theorem mapWf_mapSet [DecidableEq β] (dflt : Nat → β) {m : List (Nat × β)} (k : Nat) (v : β) (h : mapWf dflt m = true) :
    mapWf dflt (mapSet dflt m k v) = true := by
  rw [mapWf_iff] at h ⊢
  unfold mapSet
  split
  · exact ⟨mapRising_mapDel k m 0 h.1, fun e he => h.2 e (mem_mapDel he)⟩
  · next hv =>
    refine ⟨mapRising_mapPut v m 0 (Nat.zero_le _) h.1, fun e he => ?_⟩
    rcases mem_mapPut he with rfl | he
    · exact hv
    · exact h.2 e he

theorem mapWf_arrSet [DecidableEq β] (dflt : β) {m : List (Nat × β)} (k : Nat) (v : β)
    (h : mapWf (fun _ => dflt) m = true) : mapWf (fun _ => dflt) (arrSet dflt m k v) = true := mapWf_mapSet _ k v h

/-- Dropping entries keeps the keys rising. -/
theorem mapRising_filter (p : Nat × β → Bool) : ∀ (m : List (Nat × β)) (lo : Nat), mapRising lo m = true →
    mapRising lo (m.filter p) = true
  | [], _, _ => rfl
  | (j, w) :: t, lo, h => by
    simp only [mapRising, Bool.and_eq_true, decide_eq_true_eq] at h
    obtain ⟨hj, ht⟩ := h
    rw [List.filter_cons]
    split
    · simp only [mapRising, Bool.and_eq_true, decide_eq_true_eq]
      exact ⟨hj, mapRising_filter p t (j + 1) ht⟩
    · exact mapRising_mono (by omega) _ (mapRising_filter p t (j + 1) ht)

/-- Keeping the entries of some keys keeps the canonical form. -/
theorem mapWf_mapKeep [DecidableEq β] (dflt : Nat → β) {m : List (Nat × β)} (p : Nat → Bool) (h : mapWf dflt m = true) :
    mapWf dflt (mapKeep p m) = true := by
  rw [mapWf_iff] at h ⊢
  exact ⟨mapRising_filter _ m 0 h.1, fun e he => h.2 e (List.mem_filter.1 he).1⟩

/-- A key that a table's keys all exceed is not listed. -/
theorem mapFind_of_rising : ∀ {m : List (Nat × β)} {lo k : Nat}, mapRising lo m = true → k < lo → mapFind m k = none
  | [], _, _, _, _ => rfl
  | (j, w) :: t, lo, k, h, hk => by
    simp only [mapRising, Bool.and_eq_true, decide_eq_true_eq] at h
    have hj : j ≠ k := by omega
    simp only [mapFind, if_neg hj]
    exact mapFind_of_rising h.2 (by omega)

/-- Two tables in canonical form from which every key reads alike are the same data. -/
theorem mapWf_ext [DecidableEq β] (dflt : Nat → β) : ∀ {m n : List (Nat × β)}, mapWf dflt m = true → mapWf dflt n = true →
    (∀ k, mapGet dflt m k = mapGet dflt n k) → m = n := by
  suffices h : ∀ (m n : List (Nat × β)) (lo : Nat), mapRising lo m = true → mapRising lo n = true →
      (∀ e ∈ m, e.2 ≠ dflt e.1) → (∀ e ∈ n, e.2 ≠ dflt e.1) →
      (∀ k, mapGet dflt m k = mapGet dflt n k) → m = n by
    intro m n hm hn hk
    rw [mapWf_iff] at hm hn
    exact h m n 0 hm.1 hn.1 hm.2 hn.2 hk
  intro m
  induction m with
  | nil =>
    intro n lo _ hn _ hd hk
    cases n with
    | nil => rfl
    | cons e t =>
      obtain ⟨j, w⟩ := e
      have := hk j
      simp [mapGet, mapFind] at this
      exact absurd this.symm (hd (j, w) (by simp))
  | cons e t ih =>
    obtain ⟨j, w⟩ := e
    intro n lo hm hn hdm hdn hk
    simp only [mapRising, Bool.and_eq_true, decide_eq_true_eq] at hm
    cases n with
    | nil =>
      have := hk j
      simp [mapGet, mapFind] at this
      exact absurd this (hdm (j, w) (by simp))
    | cons e' t' =>
      obtain ⟨j', w'⟩ := e'
      simp only [mapRising, Bool.and_eq_true, decide_eq_true_eq] at hn
      have hjj : j = j' := by
        rcases Nat.lt_trichotomy j j' with h | h | h
        · have h1 := hk j
          have h2 : mapFind t' j = none := mapFind_of_rising hn.2 (by omega)
          have h3 : ¬ j' = j := by omega
          simp [mapGet, mapFind, h2, h3] at h1
          exact absurd h1 (hdm (j, w) (by simp))
        · exact h
        · have h1 := hk j'
          have h2 : mapFind t j' = none := mapFind_of_rising hm.2 (by omega)
          have h3 : ¬ j = j' := by omega
          simp [mapGet, mapFind, h2, h3] at h1
          exact absurd h1.symm (hdn (j', w') (by simp))
      subst hjj
      have hw : w = w' := by simpa [mapGet, mapFind] using hk j
      subst hw
      refine congrArg _ (ih t' (j + 1) hm.2 hn.2 (fun e he => hdm e (by simp [he])) (fun e he => hdn e (by simp [he])) ?_)
      intro k
      by_cases hkj : j = k
      · subst hkj
        simp [mapGet, mapFind_of_rising hm.2 (Nat.lt_succ_self _), mapFind_of_rising hn.2 (Nat.lt_succ_self _)]
      · have := hk k
        simpa [mapGet, mapFind, hkj] using this

/-! ### Lists by index -/

@[simp] theorem length_setNth : ∀ (l : List β) (i : Nat) (v : β), (setNth l i v).length = l.length
  | [], _, _ => rfl
  | _ :: _, 0, _ => rfl
  | _ :: t, i + 1, v => by simp [setNth, length_setNth t i v]

theorem nth_setNth_same (d : β) : ∀ (l : List β) (i : Nat) (v : β), i < l.length → nth d (setNth l i v) i = v
  | [], _, _, h => by simp at h
  | _ :: _, 0, _, _ => rfl
  | _ :: t, i + 1, v, h => nth_setNth_same d t i v (by simpa using h)

theorem nth_setNth_ne (d : β) : ∀ (l : List β) {i j : Nat} (v : β), j ≠ i → nth d (setNth l i v) j = nth d l j
  | [], _, _, _, _ => rfl
  | _ :: _, 0, 0, _, h => absurd rfl h
  | _ :: _, 0, _ + 1, _, _ => rfl
  | _ :: _, _ + 1, 0, _, _ => rfl
  | _ :: t, i + 1, j + 1, v, h => nth_setNth_ne d t v (by omega)

theorem nth_eq_getD (d : β) : ∀ (l : List β) (i : Nat), nth d l i = l.getD i d
  | [], _ => by simp [nth]
  | _ :: _, 0 => rfl
  | _ :: t, i + 1 => by simpa [nth] using nth_eq_getD d t i

theorem nth_mem (d : β) : ∀ (l : List β) (i : Nat), i < l.length → nth d l i ∈ l
  | [], _, h => by simp at h
  | _ :: _, 0, _ => by simp [nth]
  | _ :: t, i + 1, h => by simpa [nth] using Or.inr (nth_mem d t i (by simpa using h))

theorem mem_setNth {l : List β} {i : Nat} {v x : β} (h : x ∈ setNth l i v) : x = v ∨ x ∈ l := by
  induction l generalizing i with
  | nil => simp [setNth] at h
  | cons y t ih =>
    cases i with
    | zero => rcases List.mem_cons.1 h with h | h <;> simp [h]
    | succ i =>
      rcases List.mem_cons.1 h with h | h
      · simp [h]
      · rcases ih h with h | h <;> simp [h]

/-- A fold of steps that each keep a property keeps it. -/
theorem foldl_keeps {σ α : Type} (P : σ → Prop) (f : σ → α → σ) (hf : ∀ s a, P s → P (f s a)) :
    ∀ (l : List α) (s : σ), P s → P (l.foldl f s)
  | [], _, h => h
  | a :: t, s, h => foldl_keeps P f hf t (f s a) (hf s a h)

/-- A fold of steps that each leave a value leaves it. -/
theorem foldl_same {σ α γ : Type} (g : σ → γ) (f : σ → α → σ) (hf : ∀ s a, g (f s a) = g s) :
    ∀ (l : List α) (s : σ), g (l.foldl f s) = g s
  | [], _ => rfl
  | a :: t, s => (foldl_same g f hf t (f s a)).trans (hf s a)

end Sys2Proof.Machine
end

