-- ==== Sys2Proof/Laws/State.lean ====
section
/-! SUPPORT. State.lean: what each update of the device leaves: one lemma per field per update, true by `rfl`, so that no
proof unfolds a record update; and the short forms that stand for another update. -/

set_option Elab.async false

namespace Sys2Proof.Machine

variable (d : Dev)

/-! ### Short forms -/

@[simp] theorem flag_eq (f : Fld) : d.flag f = d.setFld f 1 := rfl
@[simp] theorem setBitOf_eq (f : Fld) (i : Nat) : d.setBitOf f i = d.setFld f (withBit (d.fld f) i) := rfl
@[simp] theorem clearBitOf_eq (f : Fld) (i : Nat) : d.clearBitOf f i = d.setFld f (withoutBit (d.fld f) i) := rfl
@[simp] theorem count_eq (f : Fld) : d.count f = d.setFld f (satInc (2 ^ f.w - 1) (d.fld f)) := rfl
@[simp] theorem setPair64_eq (lo hi : Fld) (v : Nat) : d.setPair64 lo hi v = (d.setFld lo v).setFld hi (v / 2 ^ 32) := rfl
@[simp] theorem setPairState_eq (p s : Nat) : d.setPairState p s = d.setFld (PAIRCTL_ROLE_STATE p) s := rfl
@[simp] theorem presentPair_eq (p k : Nat) : d.presentPair p k = d.present (pairFault p k) ((d.pair p).segCount / 4) := rfl
@[simp] theorem forceGroup_eq (g : Nat) : d.forceGroup g = d.setGroup g { d.group g with
    safe := true, forcedAt := if (d.group g).safe then (d.group g).forcedAt else d.ticks } := rfl
@[simp] theorem onLine_eq (s : State) (f : Dev → Dev) : s.onLine f = .next { s with dev := f s.dev } := rfl
@[simp] theorem onDev_eq (s : State) (f : Dev → Dev) :
    s.onDev f = .next { s with dev := if s.dev.held then s.dev else f s.dev } := rfl
@[simp] theorem onClock_eq (s : State) (f : Dev → Dev) :
    s.onClock f = .next { s with dev := if s.dev.held then s.dev else if s.dev.start.clocksOff then s.dev else f s.dev } := rfl

/-! ### setWord -/

@[simp] theorem setWord_ticks (a : Nat) (w : Word) : (d.setWord a w).ticks = d.ticks := rfl
@[simp] theorem setWord_free (a : Nat) (w : Word) : (d.setWord a w).free = d.free := rfl
@[simp] theorem setWord_pairs (a : Nat) (w : Word) : (d.setWord a w).pairs = d.pairs := rfl
@[simp] theorem setWord_bind (a : Nat) (w : Word) : (d.setWord a w).bind = d.bind := rfl
@[simp] theorem setWord_spareGone (a : Nat) (w : Word) : (d.setWord a w).spareGone = d.spareGone := rfl
@[simp] theorem setWord_rom (a : Nat) (w : Word) : (d.setWord a w).rom = d.rom := rfl
@[simp] theorem setWord_fab (a : Nat) (w : Word) : (d.setWord a w).fab = d.fab := rfl
@[simp] theorem setWord_mpu (a : Nat) (w : Word) : (d.setWord a w).mpu = d.mpu := rfl
@[simp] theorem setWord_mem (a : Nat) (w : Word) : (d.setWord a w).mem = d.mem := rfl
@[simp] theorem setWord_evt (a : Nat) (w : Word) : (d.setWord a w).evt = d.evt := rfl
@[simp] theorem setWord_intc (a : Nat) (w : Word) : (d.setWord a w).intc = d.intc := rfl
@[simp] theorem setWord_island (a : Nat) (w : Word) : (d.setWord a w).island = d.island := rfl
@[simp] theorem setWord_keeper (a : Nat) (w : Word) : (d.setWord a w).keeper = d.keeper := rfl
@[simp] theorem setWord_power (a : Nat) (w : Word) : (d.setWord a w).power = d.power := rfl
@[simp] theorem setWord_lantern (a : Nat) (w : Word) : (d.setWord a w).lantern = d.lantern := rfl
@[simp] theorem setWord_drive (a : Nat) (w : Word) : (d.setWord a w).drive = d.drive := rfl
@[simp] theorem setWord_nvs (a : Nat) (w : Word) : (d.setWord a w).nvs = d.nvs := rfl
@[simp] theorem setWord_persist (a : Nat) (w : Word) : (d.setWord a w).persist = d.persist := rfl
@[simp] theorem setWord_start (a : Nat) (w : Word) : (d.setWord a w).start = d.start := rfl
@[simp] theorem setWord_mirror (a : Nat) (w : Word) : (d.setWord a w).mirror = d.mirror := rfl
@[simp] theorem setWord_eth (a : Nat) (w : Word) : (d.setWord a w).eth = d.eth := rfl
@[simp] theorem setWord_can (a : Nat) (w : Word) : (d.setWord a w).can = d.can := rfl
@[simp] theorem setWord_buoy (a : Nat) (w : Word) : (d.setWord a w).buoy = d.buoy := rfl
@[simp] theorem setWord_trust (a : Nat) (w : Word) : (d.setWord a w).trust = d.trust := rfl
@[simp] theorem setWord_test (a : Nat) (w : Word) : (d.setWord a w).test = d.test := rfl
@[simp] theorem setWord_age (a : Nat) (w : Word) : (d.setWord a w).age = d.age := rfl
@[simp] theorem setWord_tdr (a : Nat) (w : Word) : (d.setWord a w).tdr = d.tdr := rfl
@[simp] theorem setWord_dma (a : Nat) (w : Word) : (d.setWord a w).dma = d.dma := rfl

/-! ### setFld -/

@[simp] theorem setFld_ticks (f : Fld) (v : Nat) : (d.setFld f v).ticks = d.ticks := rfl
@[simp] theorem setFld_free (f : Fld) (v : Nat) : (d.setFld f v).free = d.free := rfl
@[simp] theorem setFld_pairs (f : Fld) (v : Nat) : (d.setFld f v).pairs = d.pairs := rfl
@[simp] theorem setFld_bind (f : Fld) (v : Nat) : (d.setFld f v).bind = d.bind := rfl
@[simp] theorem setFld_spareGone (f : Fld) (v : Nat) : (d.setFld f v).spareGone = d.spareGone := rfl
@[simp] theorem setFld_rom (f : Fld) (v : Nat) : (d.setFld f v).rom = d.rom := rfl
@[simp] theorem setFld_fab (f : Fld) (v : Nat) : (d.setFld f v).fab = d.fab := rfl
@[simp] theorem setFld_mpu (f : Fld) (v : Nat) : (d.setFld f v).mpu = d.mpu := rfl
@[simp] theorem setFld_mem (f : Fld) (v : Nat) : (d.setFld f v).mem = d.mem := rfl
@[simp] theorem setFld_evt (f : Fld) (v : Nat) : (d.setFld f v).evt = d.evt := rfl
@[simp] theorem setFld_intc (f : Fld) (v : Nat) : (d.setFld f v).intc = d.intc := rfl
@[simp] theorem setFld_island (f : Fld) (v : Nat) : (d.setFld f v).island = d.island := rfl
@[simp] theorem setFld_keeper (f : Fld) (v : Nat) : (d.setFld f v).keeper = d.keeper := rfl
@[simp] theorem setFld_power (f : Fld) (v : Nat) : (d.setFld f v).power = d.power := rfl
@[simp] theorem setFld_lantern (f : Fld) (v : Nat) : (d.setFld f v).lantern = d.lantern := rfl
@[simp] theorem setFld_drive (f : Fld) (v : Nat) : (d.setFld f v).drive = d.drive := rfl
@[simp] theorem setFld_nvs (f : Fld) (v : Nat) : (d.setFld f v).nvs = d.nvs := rfl
@[simp] theorem setFld_persist (f : Fld) (v : Nat) : (d.setFld f v).persist = d.persist := rfl
@[simp] theorem setFld_start (f : Fld) (v : Nat) : (d.setFld f v).start = d.start := rfl
@[simp] theorem setFld_mirror (f : Fld) (v : Nat) : (d.setFld f v).mirror = d.mirror := rfl
@[simp] theorem setFld_eth (f : Fld) (v : Nat) : (d.setFld f v).eth = d.eth := rfl
@[simp] theorem setFld_can (f : Fld) (v : Nat) : (d.setFld f v).can = d.can := rfl
@[simp] theorem setFld_buoy (f : Fld) (v : Nat) : (d.setFld f v).buoy = d.buoy := rfl
@[simp] theorem setFld_trust (f : Fld) (v : Nat) : (d.setFld f v).trust = d.trust := rfl
@[simp] theorem setFld_test (f : Fld) (v : Nat) : (d.setFld f v).test = d.test := rfl
@[simp] theorem setFld_age (f : Fld) (v : Nat) : (d.setFld f v).age = d.age := rfl
@[simp] theorem setFld_tdr (f : Fld) (v : Nat) : (d.setFld f v).tdr = d.tdr := rfl
@[simp] theorem setFld_dma (f : Fld) (v : Nat) : (d.setFld f v).dma = d.dma := rfl

/-! ### present -/

@[simp] theorem present_ticks (i v : Nat) : (d.present i v).ticks = d.ticks := rfl
@[simp] theorem present_free (i v : Nat) : (d.present i v).free = d.free := rfl
@[simp] theorem present_io (i v : Nat) : (d.present i v).io = d.io := rfl
@[simp] theorem present_pairs (i v : Nat) : (d.present i v).pairs = d.pairs := rfl
@[simp] theorem present_bind (i v : Nat) : (d.present i v).bind = d.bind := rfl
@[simp] theorem present_spareGone (i v : Nat) : (d.present i v).spareGone = d.spareGone := rfl
@[simp] theorem present_rom (i v : Nat) : (d.present i v).rom = d.rom := rfl
@[simp] theorem present_fab (i v : Nat) : (d.present i v).fab = d.fab := rfl
@[simp] theorem present_mpu (i v : Nat) : (d.present i v).mpu = d.mpu := rfl
@[simp] theorem present_mem (i v : Nat) : (d.present i v).mem = d.mem := rfl
@[simp] theorem present_evt (i v : Nat) : (d.present i v).evt = d.evt := rfl
@[simp] theorem present_intc (i v : Nat) : (d.present i v).intc = d.intc := rfl
@[simp] theorem present_keeper (i v : Nat) : (d.present i v).keeper = d.keeper := rfl
@[simp] theorem present_power (i v : Nat) : (d.present i v).power = d.power := rfl
@[simp] theorem present_lantern (i v : Nat) : (d.present i v).lantern = d.lantern := rfl
@[simp] theorem present_drive (i v : Nat) : (d.present i v).drive = d.drive := rfl
@[simp] theorem present_nvs (i v : Nat) : (d.present i v).nvs = d.nvs := rfl
@[simp] theorem present_persist (i v : Nat) : (d.present i v).persist = d.persist := rfl
@[simp] theorem present_start (i v : Nat) : (d.present i v).start = d.start := rfl
@[simp] theorem present_mirror (i v : Nat) : (d.present i v).mirror = d.mirror := rfl
@[simp] theorem present_eth (i v : Nat) : (d.present i v).eth = d.eth := rfl
@[simp] theorem present_can (i v : Nat) : (d.present i v).can = d.can := rfl
@[simp] theorem present_buoy (i v : Nat) : (d.present i v).buoy = d.buoy := rfl
@[simp] theorem present_trust (i v : Nat) : (d.present i v).trust = d.trust := rfl
@[simp] theorem present_test (i v : Nat) : (d.present i v).test = d.test := rfl
@[simp] theorem present_age (i v : Nat) : (d.present i v).age = d.age := rfl
@[simp] theorem present_tdr (i v : Nat) : (d.present i v).tdr = d.tdr := rfl
@[simp] theorem present_dma (i v : Nat) : (d.present i v).dma = d.dma := rfl

/-! ### produce -/

@[simp] theorem produce_ticks (e : Ev) : (d.produce e).ticks = d.ticks := rfl
@[simp] theorem produce_free (e : Ev) : (d.produce e).free = d.free := rfl
@[simp] theorem produce_io (e : Ev) : (d.produce e).io = d.io := rfl
@[simp] theorem produce_pairs (e : Ev) : (d.produce e).pairs = d.pairs := rfl
@[simp] theorem produce_bind (e : Ev) : (d.produce e).bind = d.bind := rfl
@[simp] theorem produce_spareGone (e : Ev) : (d.produce e).spareGone = d.spareGone := rfl
@[simp] theorem produce_rom (e : Ev) : (d.produce e).rom = d.rom := rfl
@[simp] theorem produce_fab (e : Ev) : (d.produce e).fab = d.fab := rfl
@[simp] theorem produce_mpu (e : Ev) : (d.produce e).mpu = d.mpu := rfl
@[simp] theorem produce_mem (e : Ev) : (d.produce e).mem = d.mem := rfl
@[simp] theorem produce_intc (e : Ev) : (d.produce e).intc = d.intc := rfl
@[simp] theorem produce_island (e : Ev) : (d.produce e).island = d.island := rfl
@[simp] theorem produce_keeper (e : Ev) : (d.produce e).keeper = d.keeper := rfl
@[simp] theorem produce_power (e : Ev) : (d.produce e).power = d.power := rfl
@[simp] theorem produce_lantern (e : Ev) : (d.produce e).lantern = d.lantern := rfl
@[simp] theorem produce_drive (e : Ev) : (d.produce e).drive = d.drive := rfl
@[simp] theorem produce_nvs (e : Ev) : (d.produce e).nvs = d.nvs := rfl
@[simp] theorem produce_persist (e : Ev) : (d.produce e).persist = d.persist := rfl
@[simp] theorem produce_start (e : Ev) : (d.produce e).start = d.start := rfl
@[simp] theorem produce_mirror (e : Ev) : (d.produce e).mirror = d.mirror := rfl
@[simp] theorem produce_eth (e : Ev) : (d.produce e).eth = d.eth := rfl
@[simp] theorem produce_can (e : Ev) : (d.produce e).can = d.can := rfl
@[simp] theorem produce_buoy (e : Ev) : (d.produce e).buoy = d.buoy := rfl
@[simp] theorem produce_trust (e : Ev) : (d.produce e).trust = d.trust := rfl
@[simp] theorem produce_test (e : Ev) : (d.produce e).test = d.test := rfl
@[simp] theorem produce_age (e : Ev) : (d.produce e).age = d.age := rfl
@[simp] theorem produce_tdr (e : Ev) : (d.produce e).tdr = d.tdr := rfl
@[simp] theorem produce_dma (e : Ev) : (d.produce e).dma = d.dma := rfl

/-! ### setLatch -/

@[simp] theorem setLatch_ticks (k : Nat) (v : Option Trig) : (d.setLatch k v).ticks = d.ticks := rfl
@[simp] theorem setLatch_free (k : Nat) (v : Option Trig) : (d.setLatch k v).free = d.free := rfl
@[simp] theorem setLatch_io (k : Nat) (v : Option Trig) : (d.setLatch k v).io = d.io := rfl
@[simp] theorem setLatch_pairs (k : Nat) (v : Option Trig) : (d.setLatch k v).pairs = d.pairs := rfl
@[simp] theorem setLatch_bind (k : Nat) (v : Option Trig) : (d.setLatch k v).bind = d.bind := rfl
@[simp] theorem setLatch_spareGone (k : Nat) (v : Option Trig) : (d.setLatch k v).spareGone = d.spareGone := rfl
@[simp] theorem setLatch_rom (k : Nat) (v : Option Trig) : (d.setLatch k v).rom = d.rom := rfl
@[simp] theorem setLatch_fab (k : Nat) (v : Option Trig) : (d.setLatch k v).fab = d.fab := rfl
@[simp] theorem setLatch_mpu (k : Nat) (v : Option Trig) : (d.setLatch k v).mpu = d.mpu := rfl
@[simp] theorem setLatch_mem (k : Nat) (v : Option Trig) : (d.setLatch k v).mem = d.mem := rfl
@[simp] theorem setLatch_intc (k : Nat) (v : Option Trig) : (d.setLatch k v).intc = d.intc := rfl
@[simp] theorem setLatch_island (k : Nat) (v : Option Trig) : (d.setLatch k v).island = d.island := rfl
@[simp] theorem setLatch_keeper (k : Nat) (v : Option Trig) : (d.setLatch k v).keeper = d.keeper := rfl
@[simp] theorem setLatch_power (k : Nat) (v : Option Trig) : (d.setLatch k v).power = d.power := rfl
@[simp] theorem setLatch_lantern (k : Nat) (v : Option Trig) : (d.setLatch k v).lantern = d.lantern := rfl
@[simp] theorem setLatch_drive (k : Nat) (v : Option Trig) : (d.setLatch k v).drive = d.drive := rfl
@[simp] theorem setLatch_nvs (k : Nat) (v : Option Trig) : (d.setLatch k v).nvs = d.nvs := rfl
@[simp] theorem setLatch_persist (k : Nat) (v : Option Trig) : (d.setLatch k v).persist = d.persist := rfl
@[simp] theorem setLatch_start (k : Nat) (v : Option Trig) : (d.setLatch k v).start = d.start := rfl
@[simp] theorem setLatch_mirror (k : Nat) (v : Option Trig) : (d.setLatch k v).mirror = d.mirror := rfl
@[simp] theorem setLatch_eth (k : Nat) (v : Option Trig) : (d.setLatch k v).eth = d.eth := rfl
@[simp] theorem setLatch_can (k : Nat) (v : Option Trig) : (d.setLatch k v).can = d.can := rfl
@[simp] theorem setLatch_buoy (k : Nat) (v : Option Trig) : (d.setLatch k v).buoy = d.buoy := rfl
@[simp] theorem setLatch_trust (k : Nat) (v : Option Trig) : (d.setLatch k v).trust = d.trust := rfl
@[simp] theorem setLatch_test (k : Nat) (v : Option Trig) : (d.setLatch k v).test = d.test := rfl
@[simp] theorem setLatch_age (k : Nat) (v : Option Trig) : (d.setLatch k v).age = d.age := rfl
@[simp] theorem setLatch_tdr (k : Nat) (v : Option Trig) : (d.setLatch k v).tdr = d.tdr := rfl
@[simp] theorem setLatch_dma (k : Nat) (v : Option Trig) : (d.setLatch k v).dma = d.dma := rfl

/-! ### setPair -/

@[simp] theorem setPair_ticks (p : Nat) (x : Pair) : (d.setPair p x).ticks = d.ticks := rfl
@[simp] theorem setPair_free (p : Nat) (x : Pair) : (d.setPair p x).free = d.free := rfl
@[simp] theorem setPair_io (p : Nat) (x : Pair) : (d.setPair p x).io = d.io := rfl
@[simp] theorem setPair_bind (p : Nat) (x : Pair) : (d.setPair p x).bind = d.bind := rfl
@[simp] theorem setPair_spareGone (p : Nat) (x : Pair) : (d.setPair p x).spareGone = d.spareGone := rfl
@[simp] theorem setPair_rom (p : Nat) (x : Pair) : (d.setPair p x).rom = d.rom := rfl
@[simp] theorem setPair_fab (p : Nat) (x : Pair) : (d.setPair p x).fab = d.fab := rfl
@[simp] theorem setPair_mpu (p : Nat) (x : Pair) : (d.setPair p x).mpu = d.mpu := rfl
@[simp] theorem setPair_mem (p : Nat) (x : Pair) : (d.setPair p x).mem = d.mem := rfl
@[simp] theorem setPair_evt (p : Nat) (x : Pair) : (d.setPair p x).evt = d.evt := rfl
@[simp] theorem setPair_intc (p : Nat) (x : Pair) : (d.setPair p x).intc = d.intc := rfl
@[simp] theorem setPair_island (p : Nat) (x : Pair) : (d.setPair p x).island = d.island := rfl
@[simp] theorem setPair_keeper (p : Nat) (x : Pair) : (d.setPair p x).keeper = d.keeper := rfl
@[simp] theorem setPair_power (p : Nat) (x : Pair) : (d.setPair p x).power = d.power := rfl
@[simp] theorem setPair_lantern (p : Nat) (x : Pair) : (d.setPair p x).lantern = d.lantern := rfl
@[simp] theorem setPair_drive (p : Nat) (x : Pair) : (d.setPair p x).drive = d.drive := rfl
@[simp] theorem setPair_nvs (p : Nat) (x : Pair) : (d.setPair p x).nvs = d.nvs := rfl
@[simp] theorem setPair_persist (p : Nat) (x : Pair) : (d.setPair p x).persist = d.persist := rfl
@[simp] theorem setPair_start (p : Nat) (x : Pair) : (d.setPair p x).start = d.start := rfl
@[simp] theorem setPair_mirror (p : Nat) (x : Pair) : (d.setPair p x).mirror = d.mirror := rfl
@[simp] theorem setPair_eth (p : Nat) (x : Pair) : (d.setPair p x).eth = d.eth := rfl
@[simp] theorem setPair_can (p : Nat) (x : Pair) : (d.setPair p x).can = d.can := rfl
@[simp] theorem setPair_buoy (p : Nat) (x : Pair) : (d.setPair p x).buoy = d.buoy := rfl
@[simp] theorem setPair_trust (p : Nat) (x : Pair) : (d.setPair p x).trust = d.trust := rfl
@[simp] theorem setPair_test (p : Nat) (x : Pair) : (d.setPair p x).test = d.test := rfl
@[simp] theorem setPair_age (p : Nat) (x : Pair) : (d.setPair p x).age = d.age := rfl
@[simp] theorem setPair_tdr (p : Nat) (x : Pair) : (d.setPair p x).tdr = d.tdr := rfl
@[simp] theorem setPair_dma (p : Nat) (x : Pair) : (d.setPair p x).dma = d.dma := rfl

/-! ### capture -/

@[simp] theorem capture_ticks (p : Nat) (x : CapInput) : (d.capture p x).ticks = d.ticks := rfl
@[simp] theorem capture_free (p : Nat) (x : CapInput) : (d.capture p x).free = d.free := rfl
@[simp] theorem capture_io (p : Nat) (x : CapInput) : (d.capture p x).io = d.io := rfl
@[simp] theorem capture_bind (p : Nat) (x : CapInput) : (d.capture p x).bind = d.bind := rfl
@[simp] theorem capture_spareGone (p : Nat) (x : CapInput) : (d.capture p x).spareGone = d.spareGone := rfl
@[simp] theorem capture_rom (p : Nat) (x : CapInput) : (d.capture p x).rom = d.rom := rfl
@[simp] theorem capture_fab (p : Nat) (x : CapInput) : (d.capture p x).fab = d.fab := rfl
@[simp] theorem capture_mpu (p : Nat) (x : CapInput) : (d.capture p x).mpu = d.mpu := rfl
@[simp] theorem capture_mem (p : Nat) (x : CapInput) : (d.capture p x).mem = d.mem := rfl
@[simp] theorem capture_evt (p : Nat) (x : CapInput) : (d.capture p x).evt = d.evt := rfl
@[simp] theorem capture_intc (p : Nat) (x : CapInput) : (d.capture p x).intc = d.intc := rfl
@[simp] theorem capture_island (p : Nat) (x : CapInput) : (d.capture p x).island = d.island := rfl
@[simp] theorem capture_keeper (p : Nat) (x : CapInput) : (d.capture p x).keeper = d.keeper := rfl
@[simp] theorem capture_power (p : Nat) (x : CapInput) : (d.capture p x).power = d.power := rfl
@[simp] theorem capture_lantern (p : Nat) (x : CapInput) : (d.capture p x).lantern = d.lantern := rfl
@[simp] theorem capture_drive (p : Nat) (x : CapInput) : (d.capture p x).drive = d.drive := rfl
@[simp] theorem capture_nvs (p : Nat) (x : CapInput) : (d.capture p x).nvs = d.nvs := rfl
@[simp] theorem capture_persist (p : Nat) (x : CapInput) : (d.capture p x).persist = d.persist := rfl
@[simp] theorem capture_start (p : Nat) (x : CapInput) : (d.capture p x).start = d.start := rfl
@[simp] theorem capture_mirror (p : Nat) (x : CapInput) : (d.capture p x).mirror = d.mirror := rfl
@[simp] theorem capture_eth (p : Nat) (x : CapInput) : (d.capture p x).eth = d.eth := rfl
@[simp] theorem capture_can (p : Nat) (x : CapInput) : (d.capture p x).can = d.can := rfl
@[simp] theorem capture_buoy (p : Nat) (x : CapInput) : (d.capture p x).buoy = d.buoy := rfl
@[simp] theorem capture_trust (p : Nat) (x : CapInput) : (d.capture p x).trust = d.trust := rfl
@[simp] theorem capture_test (p : Nat) (x : CapInput) : (d.capture p x).test = d.test := rfl
@[simp] theorem capture_age (p : Nat) (x : CapInput) : (d.capture p x).age = d.age := rfl
@[simp] theorem capture_tdr (p : Nat) (x : CapInput) : (d.capture p x).tdr = d.tdr := rfl
@[simp] theorem capture_dma (p : Nat) (x : CapInput) : (d.capture p x).dma = d.dma := rfl

/-! ### setGroup -/

@[simp] theorem setGroup_ticks (g : Nat) (x : PwmGroup) : (d.setGroup g x).ticks = d.ticks := rfl
@[simp] theorem setGroup_free (g : Nat) (x : PwmGroup) : (d.setGroup g x).free = d.free := rfl
@[simp] theorem setGroup_io (g : Nat) (x : PwmGroup) : (d.setGroup g x).io = d.io := rfl
@[simp] theorem setGroup_pairs (g : Nat) (x : PwmGroup) : (d.setGroup g x).pairs = d.pairs := rfl
@[simp] theorem setGroup_bind (g : Nat) (x : PwmGroup) : (d.setGroup g x).bind = d.bind := rfl
@[simp] theorem setGroup_spareGone (g : Nat) (x : PwmGroup) : (d.setGroup g x).spareGone = d.spareGone := rfl
@[simp] theorem setGroup_rom (g : Nat) (x : PwmGroup) : (d.setGroup g x).rom = d.rom := rfl
@[simp] theorem setGroup_fab (g : Nat) (x : PwmGroup) : (d.setGroup g x).fab = d.fab := rfl
@[simp] theorem setGroup_mpu (g : Nat) (x : PwmGroup) : (d.setGroup g x).mpu = d.mpu := rfl
@[simp] theorem setGroup_mem (g : Nat) (x : PwmGroup) : (d.setGroup g x).mem = d.mem := rfl
@[simp] theorem setGroup_evt (g : Nat) (x : PwmGroup) : (d.setGroup g x).evt = d.evt := rfl
@[simp] theorem setGroup_intc (g : Nat) (x : PwmGroup) : (d.setGroup g x).intc = d.intc := rfl
@[simp] theorem setGroup_island (g : Nat) (x : PwmGroup) : (d.setGroup g x).island = d.island := rfl
@[simp] theorem setGroup_keeper (g : Nat) (x : PwmGroup) : (d.setGroup g x).keeper = d.keeper := rfl
@[simp] theorem setGroup_power (g : Nat) (x : PwmGroup) : (d.setGroup g x).power = d.power := rfl
@[simp] theorem setGroup_lantern (g : Nat) (x : PwmGroup) : (d.setGroup g x).lantern = d.lantern := rfl
@[simp] theorem setGroup_nvs (g : Nat) (x : PwmGroup) : (d.setGroup g x).nvs = d.nvs := rfl
@[simp] theorem setGroup_persist (g : Nat) (x : PwmGroup) : (d.setGroup g x).persist = d.persist := rfl
@[simp] theorem setGroup_start (g : Nat) (x : PwmGroup) : (d.setGroup g x).start = d.start := rfl
@[simp] theorem setGroup_mirror (g : Nat) (x : PwmGroup) : (d.setGroup g x).mirror = d.mirror := rfl
@[simp] theorem setGroup_eth (g : Nat) (x : PwmGroup) : (d.setGroup g x).eth = d.eth := rfl
@[simp] theorem setGroup_can (g : Nat) (x : PwmGroup) : (d.setGroup g x).can = d.can := rfl
@[simp] theorem setGroup_buoy (g : Nat) (x : PwmGroup) : (d.setGroup g x).buoy = d.buoy := rfl
@[simp] theorem setGroup_trust (g : Nat) (x : PwmGroup) : (d.setGroup g x).trust = d.trust := rfl
@[simp] theorem setGroup_test (g : Nat) (x : PwmGroup) : (d.setGroup g x).test = d.test := rfl
@[simp] theorem setGroup_age (g : Nat) (x : PwmGroup) : (d.setGroup g x).age = d.age := rfl
@[simp] theorem setGroup_tdr (g : Nat) (x : PwmGroup) : (d.setGroup g x).tdr = d.tdr := rfl
@[simp] theorem setGroup_dma (g : Nat) (x : PwmGroup) : (d.setGroup g x).dma = d.dma := rfl

/-! ### What the updates leave in the field that they change -/

theorem setWord_io (a : Nat) (w : Word) : (d.setWord a w).io = ioSet d.io a w := rfl
theorem setFld_io (f : Fld) (v : Nat) : (d.setFld f v).io = ioSetFld d.io f v := rfl
@[simp] theorem produce_produced (e : Ev) : (d.produce e).evt.produced = d.evt.produced ++ [e] := rfl
@[simp] theorem setPair_pairs (p : Nat) (x : Pair) : (d.setPair p x).pairs = setNth d.pairs p x := rfl

/-! ### Pairs, latches and groups read back -/

theorem pair_setPair_same (p : Nat) (x : Pair) (h : p < d.pairs.length) : (d.setPair p x).pair p = x :=
  nth_setNth_same ({} : Pair) d.pairs p x h

theorem pair_setPair_ne {p q : Nat} (x : Pair) (h : q ≠ p) : (d.setPair p x).pair q = d.pair q :=
  nth_setNth_ne ({} : Pair) d.pairs x h

theorem pair_of_pairs {d e : Dev} (h : e.pairs = d.pairs) (p : Nat) : e.pair p = d.pair p := by
  simp only [Dev.pair, h]

@[simp] theorem length_setPair (p : Nat) (x : Pair) : (d.setPair p x).pairs.length = d.pairs.length := length_setNth _ _ _

@[simp] theorem latch_setLatch_same (k : Nat) (v : Option Trig) : (d.setLatch k v).latch k = v := arrGet_arrSet_same _ _ _ _

theorem latch_setLatch_ne {k j : Nat} (v : Option Trig) (h : j ≠ k) : (d.setLatch k v).latch j = d.latch j :=
  arrGet_arrSet_ne _ _ v h

@[simp] theorem group_setGroup_same (g : Nat) (x : PwmGroup) : (d.setGroup g x).group g = x := arrGet_arrSet_same _ _ _ _

theorem group_setGroup_ne {g j : Nat} (x : PwmGroup) (h : j ≠ g) : (d.setGroup g x).group j = d.group j :=
  arrGet_arrSet_ne _ _ x h

/-! ### Presentations -/

theorem addPresented_any (l : List Presented) (i v : Nat) :
    (addPresented l i v).any (fun x => x.input = i && x.detail = v) = true := by
  induction l with
  | nil => simp [addPresented]
  | cons x t ih =>
    unfold addPresented
    split
    · next h => simp [h.1, h.2]
    · simp only [List.any_cons, ih, Bool.or_true]

/-- A fault that waits for the island still waits after another is presented. -/
theorem addPresented_keeps (l : List Presented) (i v j w : Nat) (h : l.any (fun x => x.input = j && x.detail = w) = true) :
    (addPresented l i v).any (fun x => x.input = j && x.detail = w) = true := by
  induction l with
  | nil => simp at h
  | cons x t ih =>
    unfold addPresented
    simp only [List.any_cons, Bool.or_eq_true] at h
    split
    · simp only [List.any_cons, Bool.or_eq_true]; exact h
    · simp only [List.any_cons, Bool.or_eq_true]; exact h.imp id ih

end Sys2Proof.Machine
end

