-- ==== Sys2Proof/Laws/Complete.lean ====
section
/-! SUPPORT. Complete.lean: how a command completes by the way in which it reaches the device, and that an engine's access
waits for nothing where the fabric is idle. -/

namespace Sys2Proof.Machine

/-! ### Commands that complete -/

/-- A command that acts on the device completes with what its meaning leaves. -/
theorem completes_onDev {c : Instr} {s : State} {f : Dev → Dev} {P : Dev → Prop} (h : exec c s = s.onDev f)
    (hP : s.dev.held = false → P (f s.dev)) : Completes c s P := by
  refine ⟨{ s with dev := if s.dev.held then s.dev else f s.dev }, h, rfl, ?_⟩
  show if s.dev.held = true then (if s.dev.held then s.dev else f s.dev) = s.dev else P (if s.dev.held then s.dev else f s.dev)
  cases hh : s.dev.held
  · exact hP hh
  · rfl

/-- A command from outside completes with what its meaning leaves, the device held or not. -/
theorem completes_onLine {c : Instr} {s : State} {f : Dev → Dev} {P : Dev → Prop} (h : exec c s = s.onLine f)
    (hP : P (f s.dev)) : CompletesLine c s P := ⟨_, h, rfl, hP⟩

/-- A command of a block whose clock stops completes with what its meaning leaves, or, the clocks stopped, with no change. -/
theorem completes_onClock {c : Instr} {s : State} {f : Dev → Dev} {P : Dev → Prop} (h : exec c s = s.onClock f)
    (hP : s.dev.held = false → s.dev.start.clocksOff = false → P (f s.dev)) : CompletesClocked c s P := by
  refine ⟨{ s with dev := if s.dev.held then s.dev else if s.dev.start.clocksOff then s.dev else f s.dev }, h, rfl, ?_⟩
  show if s.dev.held = true then (if s.dev.held then s.dev else if s.dev.start.clocksOff then s.dev else f s.dev) = s.dev
    else (if s.dev.start.clocksOff = true then
        (if s.dev.held then s.dev else if s.dev.start.clocksOff then s.dev else f s.dev) = s.dev
      else P (if s.dev.held then s.dev else if s.dev.start.clocksOff then s.dev else f s.dev))
  cases hh : s.dev.held
  · cases hc : s.dev.start.clocksOff
    · exact hP hh hc
    · rfl
  · rfl

/-- What completes with `P` completes with all that `P` gives. -/
theorem Completes.mono {c : Instr} {s : State} {P Q : Dev → Prop} (h : Completes c s P) (hPQ : ∀ e, P e → Q e) :
    Completes c s Q := by
  obtain ⟨t, h1, h2, h3⟩ := h
  refine ⟨t, h1, h2, ?_⟩
  cases hh : s.dev.held
  · rw [hh] at h3
    exact hPQ _ h3
  · rw [hh] at h3
    exact h3

/-- Two properties that a command completes with hold together. -/
theorem Completes.and {c : Instr} {s : State} {P Q : Dev → Prop} (h : Completes c s P) (k : Completes c s Q) :
    Completes c s (fun e => P e ∧ Q e) := by
  obtain ⟨t, h1, h2, h3⟩ := h
  obtain ⟨u, k1, _, k3⟩ := k
  have e : u = t := by
    have := k1.symm.trans h1
    injection this
  subst e
  refine ⟨u, h1, h2, ?_⟩
  cases hh : s.dev.held
  · rw [hh] at h3 k3
    exact ⟨h3, k3⟩
  · rw [hh] at h3
    exact h3

/-! ### An idle fabric -/

/-- In an idle fabric no range of an engine waits. -/
theorem Dev.fabricIdle.rangeWait {d : Dev} (h : d.fabricIdle) (m a n : Nat) (wr : Bool) : d.rangeWait m a n wr = none := by
  obtain ⟨h1, h2, h3, h4, _⟩ := h
  simp [Dev.rangeWait, h1, h2, h3, h4]

/-- In an idle fabric no register access of an engine waits. -/
theorem Dev.fabricIdle.ioWait {d : Dev} (h : d.fabricIdle) (m a : Nat) (wr : Bool) : d.ioWait m a wr = none := by
  obtain ⟨h1, h2, h3, h4, _⟩ := h
  simp [Dev.ioWait, Dev.blocked, Dev.lockedOut, Dev.presentedAt, Dev.clusterStopped, h1, h3, h4]

/-- In an idle fabric no request of an engine has failed. -/
theorem Dev.fabricIdle.failedAt {d : Dev} (h : d.fabricIdle) (m a : Nat) : d.failedAt m a = none := by
  simp [Dev.failedAt, h.2.2.2.2]

/-- In an idle fabric a burst passes unless the MPU denies it or the target cannot take it. -/
theorem Dev.fabricIdle.burstGate {d : Dev} (h : d.fabricIdle) (m a n : Nat) (wr : Bool) (w : EngineWait) :
    d.burstGate m a n wr ≠ .waits w := by
  unfold Dev.burstGate
  rw [h.failedAt, h.rangeWait]
  split
  · simp
  · split <;> simp

/-- In an idle fabric no burst of a list waits. -/
theorem Dev.fabricIdle.firstWait {d : Dev} (h : d.fabricIdle) (m : Nat) (wr through : Bool) :
    ∀ l : List (Nat × Nat), d.firstWait m wr through l = none
  | [] => rfl
  | (a, n) :: t => by
    unfold Dev.firstWait
    split
    · rename_i w hw
      exact absurd hw (h.burstGate m a n wr w)
    · rfl
    · split
      · exact h.firstWait m wr through t
      · rfl
    · exact h.firstWait m wr through t

/-- In an idle fabric no access of an engine waits, however long. -/
theorem Dev.fabricIdle.spanWait {d : Dev} (h : d.fabricIdle) (m a n : Nat) (wr : Bool) : d.spanWait m a n wr = none :=
  h.firstWait m wr true _

end Sys2Proof.Machine
end

