-- ==== Sys2Proof/Laws/Memory.lean ====
section
/-! SUPPORT. Memory.lean: the laws of a memory: every operation keeps its canonical form, a word reads as it was written
under its true check code, and a write leaves every other word alone (R319 to R326). -/

set_option Elab.async false

namespace Sys2Proof.Machine

/-! ### The canonical form -/

theorem ramWf_iff (r : Ram) : ramWf r = true ↔
    mapWf (fun _ => (0 : Byte)) r.data = true ∧ mapWf (fun _ => (0 : Byte)) r.check = true ∧
      mapWf (fun _ => (0 : BitVec 3)) r.valid = true := by
  simp [ramWf, and_assoc]

theorem ramWf_empty : ramWf {} = true := rfl

/-- Storing bytes changes the bytes alone. -/
theorem ramPutBytes_check (l : List Byte) : ∀ (r : Ram) (a : Nat), (ramPutBytes r a l).check = r.check := by
  induction l with
  | nil => intros; rfl
  | cons b t ih => intro r a; rw [ramPutBytes, ih]

theorem ramPutBytes_valid (l : List Byte) : ∀ (r : Ram) (a : Nat), (ramPutBytes r a l).valid = r.valid := by
  induction l with
  | nil => intros; rfl
  | cons b t ih => intro r a; rw [ramPutBytes, ih]

theorem ramPutBytes_wf (l : List Byte) : ∀ (r : Ram) (a : Nat), mapWf (fun _ => (0 : Byte)) r.data = true →
    mapWf (fun _ => (0 : Byte)) (ramPutBytes r a l).data = true := by
  induction l with
  | nil => intro r a h; exact h
  | cons b t ih => intro r a h; rw [ramPutBytes]; exact ih _ _ (mapWf_mapSet _ a b h)

/-- A word stored keeps the form. -/
theorem ramWf_ramPut {r : Ram} (key v check : Nat) (h : ramWf r = true) : ramWf (ramPut r key v check) = true := by
  rw [ramWf_iff] at h ⊢
  refine ⟨ramPutBytes_wf _ r _ h.1, ?_, ?_⟩
  · show mapWf _ (arrSet 0 (ramPutBytes r _ _).check key _) = true
    rw [ramPutBytes_check]; exact mapWf_arrSet _ _ _ h.2.1
  · show mapWf _ (arrSet 0 (ramPutBytes r (8 * key) (leBytes 8 v)).valid key 7) = true
    rw [ramPutBytes_valid]; exact mapWf_arrSet _ _ _ h.2.2

theorem ramWf_ramWrite {r : Ram} (key index v : Nat) (h : ramWf r = true) : ramWf (ramWrite r key index v) = true :=
  ramWf_ramPut key v _ h

theorem ramWf_ramInvalidate {r : Ram} (h : ramWf r = true) : ramWf (ramInvalidate r) = true := by
  rw [ramWf_iff] at h ⊢
  exact ⟨h.1, h.2.1, rfl⟩

/-! ### Bytes -/

/-- A byte outside those stored reads as before. -/
theorem ramByte_ramPutBytes_out (l : List Byte) : ∀ (r : Ram) (a i : Nat), (i < a ∨ a + l.length ≤ i) →
    ramByte (ramPutBytes r a l) i = ramByte r i := by
  induction l with
  | nil => intros; rfl
  | cons b t ih =>
    intro r a i h
    simp only [List.length_cons] at h
    rw [ramPutBytes, ih _ _ _ (by omega)]
    exact mapGet_mapSet_ne _ _ _ (by omega)

/-- The bytes stored read back. -/
theorem ramBytes_ramPutBytes (l : List Byte) : ∀ (r : Ram) (a : Nat), ramBytes (ramPutBytes r a l) a l.length = l := by
  induction l with
  | nil => intros; rfl
  | cons b t ih =>
    intro r a
    rw [List.length_cons, ramBytes, ramPutBytes, ih, ramByte_ramPutBytes_out t _ _ _ (by omega)]
    simp [ramByte]

theorem ramBytes_congr {r r' : Ram} : ∀ (n a : Nat), (∀ i, a ≤ i → i < a + n → ramByte r i = ramByte r' i) →
    ramBytes r a n = ramBytes r' a n
  | 0, _, _ => rfl
  | n + 1, a, h => by
    rw [ramBytes, ramBytes, h a (by omega) (by omega), ramBytes_congr n (a + 1) (fun i h1 h2 => h i (by omega) (by omega))]

@[simp] theorem length_leBytes : ∀ (n x : Nat), (leBytes n x).length = n
  | 0, _ => rfl
  | n + 1, x => by simp [leBytes, length_leBytes n]

/-- Little-endian bytes and back (R8). -/
theorem leNat_leBytes : ∀ (n x : Nat), leNat (leBytes n x) = x % 256 ^ n
  | 0, x => by simp [leBytes, leNat, Nat.mod_one]
  | n + 1, x => by
    have h : x % (256 * 256 ^ n) = x % 256 + 256 * (x / 256 % 256 ^ n) := Nat.mod_mul
    rw [pow_succ', h]
    simp only [leBytes, leNat, BitVec.toNat_ofNat, leNat_leBytes n]

theorem leNat_lt : ∀ l : List Byte, leNat l < 256 ^ l.length
  | [] => by simp [leNat]
  | b :: t => by
    have h1 := b.isLt
    have h2 := leNat_lt t
    simp only [leNat, List.length_cons, pow_succ]
    omega

/-! ### Words -/

/-- A word's data reads as it was stored. -/
theorem ramRaw_ramPut_same (r : Ram) (key v check : Nat) : ramRaw (ramPut r key v check) key = v % 2 ^ 64 := by
  have h : ramRaw (ramPut r key v check) key = leNat (ramBytes (ramPutBytes r (8 * key) (leBytes 8 v)) (8 * key) 8) := rfl
  have e := ramBytes_ramPutBytes (leBytes 8 v) r (8 * key)
  rw [length_leBytes] at e
  rw [h, e, leNat_leBytes]
  norm_num

/-- Every other word's data is as before. -/
theorem ramRaw_ramPut_ne (r : Ram) {key k : Nat} (v check : Nat) (h : k ≠ key) :
    ramRaw (ramPut r key v check) k = ramRaw r k := by
  have e : ramBytes (ramPutBytes r (8 * key) (leBytes 8 v)) (8 * k) 8 = ramBytes r (8 * k) 8 := by
    apply ramBytes_congr
    intro i h1 h2
    apply ramByte_ramPutBytes_out
    rw [length_leBytes]
    omega
  exact congrArg leNat e

theorem ramCheck_ramPut_same (r : Ram) (key v check : Nat) : ramCheck (ramPut r key v check) key = check % 256 := by
  show (arrGet 0 (arrSet 0 _ key (BitVec.ofNat 8 check)) key).toNat = _
  rw [arrGet_arrSet_same]; rfl

theorem ramCheck_ramPut_ne (r : Ram) {key k : Nat} (v check : Nat) (h : k ≠ key) :
    ramCheck (ramPut r key v check) k = ramCheck r k := by
  show (arrGet 0 (arrSet 0 (ramPutBytes r _ _).check key _) k).toNat = _
  rw [arrGet_arrSet_ne _ _ _ h, ramPutBytes_check]; rfl

theorem ramValid_ramPut_same (r : Ram) (key v check : Nat) : ramValid (ramPut r key v check) key = 7 := by
  show (arrGet 0 (arrSet 0 _ key (7 : BitVec 3)) key).toNat = _
  rw [arrGet_arrSet_same]; rfl

theorem ramValid_ramPut_ne (r : Ram) {key k : Nat} (v check : Nat) (h : k ≠ key) :
    ramValid (ramPut r key v check) k = ramValid r k := by
  show (arrGet 0 (arrSet 0 (ramPutBytes r (8 * key) (leBytes 8 v)).valid key (7 : BitVec 3)) k).toNat = _
  rw [arrGet_arrSet_ne _ _ _ h, ramPutBytes_valid]; rfl

/-- Every other word reads as before, errors and all. -/
theorem ramRead_ramPut_ne (r : Ram) {key k : Nat} (v check index : Nat) (h : k ≠ key) :
    ramRead (ramPut r key v check) k index = ramRead r k index := by
  unfold ramRead ramVote ramSplit
  rw [ramRaw_ramPut_ne r v check h, ramCheck_ramPut_ne r v check h, ramValid_ramPut_ne r v check h]

theorem ramRead_ramWrite_ne (r : Ram) {key k : Nat} (index v i : Nat) (h : k ≠ key) :
    ramRead (ramWrite r key index v) k i = ramRead r k i := ramRead_ramPut_ne r v _ i h

/-- A check code fits its 8 bits. -/
theorem colSum_lt (bits : Nat) : ∀ (cols : List Nat) (i : Nat), (∀ c ∈ cols, c < 256) → colSum bits cols i < 256
  | [], _, _ => by simp [colSum]
  | c :: t, i, h => by
    have h1 : colSum bits t (i + 1) < 2 ^ 8 := colSum_lt bits t (i + 1) (fun x hx => h x (by simp [hx]))
    have h2 : c < 2 ^ 8 := h c (by simp)
    unfold colSum
    refine Nat.xor_lt_two_pow ?_ h1
    split
    · exact h2
    · norm_num

theorem eccCheck_lt (data index : Nat) : eccCheck data index < 256 :=
  Nat.xor_lt_two_pow (n := 8) (colSum_lt data dataCols 0 (by decide)) (colSum_lt index indexCols 0 (by decide))

/-- A word written below 2^64 reads as it was written, without an error. -/
theorem ramRead_ramWrite_same (r : Ram) (key index : Nat) {v : Nat} (h : v < 2 ^ 64) :
    ramRead (ramWrite r key index v) key index = { value := v, kind := .clean, syn := 0, split := false } := by
  have hv : ramRaw (ramWrite r key index v) key = v := by
    rw [ramWrite, ramRaw_ramPut_same, Nat.mod_eq_of_lt h]
  have hc : ramCheck (ramWrite r key index v) key = eccCheck v index := by
    rw [ramWrite, ramCheck_ramPut_same, Nat.mod_eq_of_lt (eccCheck_lt _ _)]
  have hk : ramValid (ramWrite r key index v) key = 7 := ramValid_ramPut_same _ _ _ _
  have hvote : ramVote (ramWrite r key index v) key = true := by rw [ramVote, hk]; decide
  have hsplit : ramSplit (ramWrite r key index v) key = false := by rw [ramSplit, hk]; decide
  simp [ramRead, hvote, hsplit, hv, hc, eccKind]

/-- A word whose valid copies are cleared reads as zero without an error (R321, R322). -/
theorem ramRead_ramInvalidate (r : Ram) (key index : Nat) :
    ramRead (ramInvalidate r) key index = { value := 0, kind := .clean, syn := 0, split := false } := by
  have hk : ramValid (ramInvalidate r) key = 0 := rfl
  simp [ramRead, ramVote, ramSplit, hk, popCount, bitOf]

end Sys2Proof.Machine
end

