-- ==== Sys2Proof/Laws/Reg.lean ====
section
/-! SUPPORT. Reg.lean: the laws of the I/O registers: what a register or a field reads as after another is set, and that the
register map keeps its canonical form. -/

set_option Elab.async false

namespace Sys2Proof.Machine

/-! ### Fields of one word -/

/-- Bit `i` of a field of a word. -/
theorem fieldOf_testBit (x : Word) (lo w i : Nat) :
    (fieldOf x lo w).testBit i = (decide (i < w) && x.getLsbD (lo + i)) := by
  simp [fieldOf, Nat.testBit_mod_two_pow, Nat.testBit_shiftRight, BitVec.getLsbD]

/-- Bit `i` of a word after a field is set. -/
theorem withField_getLsbD (x : Word) (lo w v i : Nat) :
    (withField x lo w v).getLsbD i
      = (decide (i < 32) && if lo ≤ i ∧ i < lo + w then v.testBit (i - lo) else x.getLsbD i) := by
  simp only [withField, BitVec.getLsbD_or, BitVec.getLsbD_and, BitVec.getLsbD_not, BitVec.getLsbD_ofNat,
    Nat.testBit_shiftLeft, Nat.testBit_two_pow_sub_one, Nat.testBit_mod_two_pow]
  by_cases h32 : i < 32 <;> by_cases h1 : lo ≤ i <;> by_cases h2 : i < lo + w <;>
    simp [h32, h1, h2, (by omega : (i - lo < w) ↔ (i < lo + w ∧ (lo ≤ i ∨ 0 < w)))]

/-- A field reads as it was set, cut to its width. -/
theorem fieldOf_withField_same (x : Word) {lo w : Nat} (v : Nat) (h : lo + w ≤ 32) :
    fieldOf (withField x lo w v) lo w = v % 2 ^ w := by
  apply Nat.eq_of_testBit_eq
  intro i
  rw [fieldOf_testBit, withField_getLsbD, Nat.testBit_mod_two_pow]
  by_cases hi : i < w
  · have h1 : lo + i < 32 := by omega
    have h2 : lo ≤ lo + i ∧ lo + i < lo + w := by omega
    simp [hi, h1, h2]
  · simp [hi]

/-- A field apart from the one that is set reads as before. -/
theorem fieldOf_withField_apart (x : Word) {lo w lo' w' : Nat} (v : Nat) (h : lo + w ≤ lo' ∨ lo' + w' ≤ lo) :
    fieldOf (withField x lo w v) lo' w' = fieldOf x lo' w' := by
  apply Nat.eq_of_testBit_eq
  intro i
  rw [fieldOf_testBit, fieldOf_testBit, withField_getLsbD]
  by_cases hi : i < w'
  · have h2 : ¬(lo ≤ lo' + i ∧ lo' + i < lo + w) := by omega
    by_cases h3 : lo' + i < 32
    · simp [h2, h3]
    · have : x.getLsbD (lo' + i) = false := BitVec.getLsbD_of_ge x _ (by omega)
      simp [h3, this]
  · simp [hi]

/-- A field is below two to its width. -/
theorem fieldOf_lt (x : Word) (lo w : Nat) : fieldOf x lo w < 2 ^ w := Nat.mod_lt _ (Nat.two_pow_pos w)

/-! ### Registers and fields of the device -/

/-- A field lies within its word. -/
abbrev Fld.Fits (f : Fld) : Prop := f.lo + f.w ≤ 32

/-- Two fields share no bit. -/
abbrev Fld.Apart (f g : Fld) : Prop := g.addr ≠ f.addr ∨ f.lo + f.w ≤ g.lo ∨ g.lo + g.w ≤ f.lo

theorem word_eq (d : Dev) (a : Nat) : d.word a = mapGet regReset d.io a := rfl

theorem fld_eq (d : Dev) (f : Fld) : d.fld f = fieldOf (d.word f.addr) f.lo f.w := rfl

/-- A field set is its word set. -/
theorem setFld_eq (d : Dev) (f : Fld) (v : Nat) :
    d.setFld f v = d.setWord f.addr (withField (d.word f.addr) f.lo f.w v) := rfl

theorem fld_lt (d : Dev) (f : Fld) : d.fld f < 2 ^ f.w := fieldOf_lt _ _ _

theorem word_of_io {d e : Dev} (h : e.io = d.io) (a : Nat) : e.word a = d.word a := by simp only [Dev.word, h]

theorem fld_of_io {d e : Dev} (h : e.io = d.io) (f : Fld) : e.fld f = d.fld f := by simp only [Dev.fld, h]

theorem fld_of_word {d e : Dev} (f : Fld) (h : e.word f.addr = d.word f.addr) : e.fld f = d.fld f := by
  simp only [fld_eq, h]

@[simp] theorem word_setWord_same (d : Dev) (a : Nat) (w : Word) : (d.setWord a w).word a = w :=
  mapGet_mapSet_same regReset d.io a w

theorem word_setWord_ne (d : Dev) {a b : Nat} (w : Word) (h : b ≠ a) : (d.setWord a w).word b = d.word b :=
  mapGet_mapSet_ne regReset d.io w h

theorem word_setFld_ne (d : Dev) (f : Fld) (v : Nat) {b : Nat} (h : b ≠ f.addr) : (d.setFld f v).word b = d.word b :=
  word_setWord_ne d _ h

theorem word_setFld_same (d : Dev) (f : Fld) (v : Nat) :
    (d.setFld f v).word f.addr = withField (d.word f.addr) f.lo f.w v := word_setWord_same d _ _

/-- A field reads as it was set, cut to its width. -/
theorem fld_setFld_same (d : Dev) {f : Fld} (v : Nat) (h : f.Fits) : (d.setFld f v).fld f = v % 2 ^ f.w := by
  rw [fld_eq, word_setFld_same, fieldOf_withField_same _ v h]

/-- Every field apart from the one set reads as before. -/
theorem fld_setFld_apart (d : Dev) {f g : Fld} (v : Nat) (h : f.Apart g) : (d.setFld f v).fld g = d.fld g := by
  by_cases ha : g.addr = f.addr
  · rw [fld_eq, fld_eq, ha, word_setFld_same, fieldOf_withField_apart _ v (h.resolve_left (not_not.2 ha))]
  · exact fld_of_word g (word_setFld_ne d f v ha)

@[simp] theorem word_present (d : Dev) (i v a : Nat) : (d.present i v).word a = d.word a := rfl
@[simp] theorem fld_present (d : Dev) (i v : Nat) (f : Fld) : (d.present i v).fld f = d.fld f := rfl
@[simp] theorem word_produce (d : Dev) (e : Ev) (a : Nat) : (d.produce e).word a = d.word a := rfl
@[simp] theorem fld_produce (d : Dev) (e : Ev) (f : Fld) : (d.produce e).fld f = d.fld f := rfl
@[simp] theorem word_setPair (d : Dev) (p : Nat) (x : Pair) (a : Nat) : (d.setPair p x).word a = d.word a := rfl
@[simp] theorem fld_setPair (d : Dev) (p : Nat) (x : Pair) (f : Fld) : (d.setPair p x).fld f = d.fld f := rfl
@[simp] theorem word_setGroup (d : Dev) (g : Nat) (x : PwmGroup) (a : Nat) : (d.setGroup g x).word a = d.word a := rfl
@[simp] theorem fld_setGroup (d : Dev) (g : Nat) (x : PwmGroup) (f : Fld) : (d.setGroup g x).fld f = d.fld f := rfl
@[simp] theorem word_setLatch (d : Dev) (k : Nat) (v : Option Trig) (a : Nat) : (d.setLatch k v).word a = d.word a := rfl
@[simp] theorem fld_setLatch (d : Dev) (k : Nat) (v : Option Trig) (f : Fld) : (d.setLatch k v).fld f = d.fld f := rfl
@[simp] theorem word_capture (d : Dev) (p : Nat) (x : CapInput) (a : Nat) : (d.capture p x).word a = d.word a := rfl
@[simp] theorem fld_capture (d : Dev) (p : Nat) (x : CapInput) (f : Fld) : (d.capture p x).fld f = d.fld f := rfl

/-- A write to a register changes no other register, and nothing but the registers. -/
theorem storeReg_cases (d : Dev) (a : Nat) (w : Word) :
    d.storeReg a w = d ∨ ∃ v, d.storeReg a w = d.setWord a v := by
  unfold Dev.storeReg
  split
  · exact .inr ⟨_, rfl⟩
  · exact .inl rfl

theorem word_storeReg_ne (d : Dev) {a b : Nat} (w : Word) (h : b ≠ a) : (d.storeReg a w).word b = d.word b := by
  rcases storeReg_cases d a w with e | ⟨v, e⟩ <;> rw [e]
  exact word_setWord_ne d v h

/-! ### The canonical form -/

theorem ioWf_mapSet {m : IoMap} (a : Nat) (w : Word) (h : mapWf regReset m = true) : mapWf regReset (ioSet m a w) = true :=
  mapWf_mapSet regReset a w h

/-- The canonical form of the register map, as a property of a device. It is the form of `Dev.ioWf`. -/
abbrev Dev.RegsOk (d : Dev) : Prop := mapWf regReset d.io = true

theorem regsOk_of_io {d e : Dev} (h : e.io = d.io) (hd : d.RegsOk) : e.RegsOk := by simpa only [Dev.RegsOk, h] using hd
theorem regsOk_setWord {d : Dev} (a : Nat) (w : Word) (h : d.RegsOk) : (d.setWord a w).RegsOk := ioWf_mapSet a w h
theorem regsOk_setFld {d : Dev} (f : Fld) (v : Nat) (h : d.RegsOk) : (d.setFld f v).RegsOk := ioWf_mapSet _ _ h
theorem regsOk_flag {d : Dev} (f : Fld) (h : d.RegsOk) : (d.flag f).RegsOk := regsOk_setFld f 1 h
theorem regsOk_count {d : Dev} (f : Fld) (h : d.RegsOk) : (d.count f).RegsOk := regsOk_setFld f _ h
theorem regsOk_present {d : Dev} (i v : Nat) (h : d.RegsOk) : (d.present i v).RegsOk := h
theorem regsOk_produce {d : Dev} (e : Ev) (h : d.RegsOk) : (d.produce e).RegsOk := h
theorem regsOk_setPair {d : Dev} (p : Nat) (x : Pair) (h : d.RegsOk) : (d.setPair p x).RegsOk := h
theorem regsOk_setGroup {d : Dev} (g : Nat) (x : PwmGroup) (h : d.RegsOk) : (d.setGroup g x).RegsOk := h
theorem regsOk_setLatch {d : Dev} (k : Nat) (v : Option Trig) (h : d.RegsOk) : (d.setLatch k v).RegsOk := h

theorem regsOk_storeReg {d : Dev} (a : Nat) (w : Word) (h : d.RegsOk) : (d.storeReg a w).RegsOk := by
  rcases storeReg_cases d a w with e | ⟨v, e⟩ <;> rw [e]
  · exact h
  · exact regsOk_setWord a v h

/-- A device reset keeps the form: it lists no register at its reset word. -/
theorem ioReset_wf (m : IoMap) (h : mapWf regReset m = true) : mapWf regReset (ioReset m) = true := by
  have key : ∀ (f : Nat → Word) (t : IoMap) (lo : Nat), mapRising lo t = true →
      mapRising lo (t.filterMap (fun e => if f e.1 = regReset e.1 then none else some (e.1, f e.1))) = true := by
    intro f t
    induction t with
    | nil => intros; rfl
    | cons e t ih =>
      intro lo hl
      obtain ⟨j, w⟩ := e
      simp only [mapRising, Bool.and_eq_true, decide_eq_true_eq] at hl
      rw [List.filterMap_cons]
      split
      · exact mapRising_mono (by omega) _ (ih (j + 1) hl.2)
      · next b hb =>
        split at hb
        · cases hb
        · cases hb
          simp only [mapRising, Bool.and_eq_true, decide_eq_true_eq]
          exact ⟨hl.1, ih (j + 1) hl.2⟩
  rw [mapWf_iff] at h ⊢
  refine ⟨key (regAfterReset m) m 0 h.1, ?_⟩
  intro e he
  obtain ⟨x, -, hx⟩ := List.mem_filterMap.1 he
  split at hx
  · cases hx
  · next hne => cases hx; exact hne

end Sys2Proof.Machine
end

