-- ==== Sys2Proof/Laws/MemoryOps.lean ====
section
/-! SUPPORT. MemoryOps.lean: every operation on the banks and on a core's memories keeps their canonical form; what a bank
access can change. -/

set_option Elab.async false

namespace Sys2Proof.Machine

/-! ### Memories -/

theorem ramWf_ramHeal {m : Ram} (key : Nat) (h : ramWf m = true) : ramWf (ramHeal m key) = true := by
  unfold ramHeal
  split
  · rw [ramWf_iff] at h ⊢
    exact ⟨h.1, h.2.1, mapWf_arrSet _ _ _ h.2.2⟩
  · exact h

theorem ramWf_undoReplay : ∀ (undo : List (Nat × DWord)) (m : Ram), ramWf m = true → ramWf (undoReplay m undo) = true
  | [], _, h => h
  | e :: t, m, h => ramWf_undoReplay t (ramWrite m e.1 e.1 e.2.toNat) (ramWf_ramWrite e.1 e.1 e.2.toNat h)

theorem ramWf_ramDelta : ∀ (l : List (Nat × DWord)) (m : Ram), ramWf m = true → ramWf (ramDelta m l) = true
  | [], _, h => h
  | e :: t, m, h => ramWf_ramDelta t (ramWrite m e.1 e.1 e.2.toNat) (ramWf_ramWrite e.1 e.1 e.2.toNat h)

theorem mapRising_numbered {f : Nat → Byte} {base : Nat} : ∀ (l : List Nat) (lo : Nat), l.Pairwise (· < ·) →
    (∀ i ∈ l, lo ≤ base + i) →
    mapRising lo (l.filterMap (fun i => if f i = 0 then none else some (base + i, f i))) = true
  | [], _, _, _ => rfl
  | i :: t, lo, hp, hl => by
    have ht := (List.pairwise_cons.1 hp).2
    have hi := (List.pairwise_cons.1 hp).1
    rw [List.filterMap_cons]
    split
    · exact mapRising_numbered t lo ht (fun j hj => hl j (by simp [hj]))
    · next b hb =>
      split at hb
      · cases hb
      · cases hb
        simp only [mapRising, Bool.and_eq_true, decide_eq_true_eq]
        refine ⟨hl i (by simp), mapRising_numbered t _ ht (fun j hj => ?_)⟩
        have := hi j hj
        omega

theorem mapRising_append {β : Type} {hi : Nat} {n : List (Nat × β)} (hn : mapRising hi n = true) :
    ∀ (m : List (Nat × β)) (lo : Nat), lo ≤ hi → mapRising lo m = true → (∀ e ∈ m, e.1 < hi) → mapRising lo (m ++ n) = true
  | [], lo, hl, _, _ => mapRising_mono hl _ hn
  | (j, w) :: t, lo, _, hm, hk => by
    simp only [mapRising, Bool.and_eq_true, decide_eq_true_eq] at hm
    have hj : j < hi := hk (j, w) (by simp)
    simp only [List.cons_append, mapRising, Bool.and_eq_true, decide_eq_true_eq]
    exact ⟨hm.1, mapRising_append hn t (j + 1) (by omega) hm.2 (fun e he => hk e (by simp [he]))⟩

theorem imageBytes_rising : ∀ (ws : List Nat) (w : Nat), mapRising (8 * w) (imageBytes w ws) = true
  | [], _ => rfl
  | v :: t, w => by
    unfold imageBytes
    refine mapRising_append (hi := 8 * w + 8) ?_ _ _ (by omega) (mapRising_numbered _ _ (by decide) (fun i _ => by omega)) ?_
    · have := imageBytes_rising t (w + 1)
      rwa [show 8 * (w + 1) = 8 * w + 8 by omega] at this
    · intro e he
      obtain ⟨i, hi, h⟩ := List.mem_filterMap.1 he
      have := List.mem_range.1 hi
      simp only at h
      split at h
      · cases h
      · cases h; simp only; omega

theorem imageBytes_listed : ∀ (ws : List Nat) (w : Nat) (e : Nat × Byte), e ∈ imageBytes w ws → e.2 ≠ 0
  | [], _, _, h => by simp [imageBytes] at h
  | v :: t, w, e, h => by
    unfold imageBytes at h
    rcases List.mem_append.1 h with h | h
    · obtain ⟨i, -, h⟩ := List.mem_filterMap.1 h
      simp only at h
      split at h
      · cases h
      · next hne => cases h; exact hne
    · exact imageBytes_listed t (w + 1) e h

theorem imageChecks_wf : ∀ (ws : List Nat) (w : Nat),
    mapRising w (imageChecks w ws) = true ∧ ∀ e ∈ imageChecks w ws, e.2 ≠ 0
  | [], _ => ⟨rfl, by simp [imageChecks]⟩
  | v :: t, w => by
    obtain ⟨h1, h2⟩ := imageChecks_wf t (w + 1)
    unfold imageChecks
    simp only
    split
    · exact ⟨mapRising_mono (by omega) _ h1, h2⟩
    · next hne =>
      constructor
      · simp only [mapRising, Bool.and_eq_true, decide_eq_true_eq]
        exact ⟨Nat.le_refl _, h1⟩
      · intro e he
        rcases List.mem_cons.1 he with rfl | he
        · exact hne
        · exact h2 e he

theorem validRange_rising {v : BitVec 3} : ∀ (n lo : Nat), mapRising lo ((List.range' lo n).map (fun w => (w, v))) = true
  | 0, _ => rfl
  | n + 1, lo => by
    simp only [List.range'_succ, List.map_cons, mapRising, Bool.and_eq_true, decide_eq_true_eq]
    exact ⟨Nat.le_refl _, validRange_rising n (lo + 1)⟩

/-- A memory that holds an image is in canonical form. -/
theorem ramWf_ramImage (ws : List Nat) : ramWf (ramImage ws) = true := by
  rw [ramWf_iff, mapWf_iff, mapWf_iff, mapWf_iff]
  refine ⟨⟨imageBytes_rising ws 0, imageBytes_listed ws 0⟩, imageChecks_wf ws 0, ?_, ?_⟩
  · show mapRising 0 ((List.range ws.length).map _) = true
    rw [List.range_eq_range']
    exact validRange_rising ws.length 0
  · intro e he
    obtain ⟨w, -, rfl⟩ := List.mem_map.1 he
    exact (by decide : (7 : BitVec 3) ≠ 0)

/-! ### A core's memories -/

theorem Core.memWf_iff (c : Core) : c.memWf = true ↔ ramWf c.dmem = true ∧ ramWf c.imem = true := by simp [Core.memWf]

theorem Pair.memWf_iff (x : Pair) : x.memWf = true ↔ x.lead.memWf = true ∧ x.shadow.memWf = true := by simp [Pair.memWf]

@[simp] theorem logWord_dmem (c : Core) (w : Nat) : (c.logWord w).dmem = c.dmem := by unfold Core.logWord; split <;> rfl

@[simp] theorem logWord_imem (c : Core) (w : Nat) : (c.logWord w).imem = c.imem := by unfold Core.logWord; split <;> rfl

/-- A local store writes one word of the data memory, or nothing. -/
theorem localStore_cases (c : Core) (addr n v : Nat) :
    (c.localStore addr n v).1 = c ∨ ∃ x, (c.localStore addr n v).1 =
      { c.logWord ((addr - localBase) / 8) with
        dmem := ramWrite c.dmem ((addr - localBase) / 8) ((addr - localBase) / 8) x } := by
  unfold Core.localStore
  simp only
  split
  · exact .inr ⟨v % 2 ^ 64, by simp⟩
  · split
    · exact .inl rfl
    · exact .inr ⟨mergeBytes (ramRead c.dmem ((addr - localBase) / 8) ((addr - localBase) / 8)).value
        (v <<< (8 * ((addr - localBase) % 8))) (byteMask ((addr - localBase) % 8) n), by simp⟩

theorem memWf_localStore {c : Core} (addr n v : Nat) (h : c.memWf = true) : (c.localStore addr n v).1.memWf = true := by
  rw [Core.memWf_iff] at h
  rcases localStore_cases c addr n v with e | ⟨x, e⟩ <;> rw [e, Core.memWf_iff]
  · exact h
  · exact ⟨ramWf_ramWrite _ _ _ h.1, by simpa using h.2⟩

theorem memWf_writeLanes : ∀ (l : List DWord) (c : Core) (w : Nat), c.memWf = true → (c.writeLanes w l).memWf = true
  | [], _, _, h => h
  | v :: t, c, w, h => by
    rw [Core.memWf_iff] at h
    refine memWf_writeLanes t _ (w + 1) ((Core.memWf_iff _).2 ⟨?_, by simpa using h.2⟩)
    simpa using ramWf_ramWrite (r := c.dmem) w w v.toNat h.1

theorem memWf_writeImem : ∀ (l : List DWord) (c : Core) (w : Nat), c.memWf = true → (c.writeImem w l).memWf = true
  | [], _, _, h => h
  | v :: t, c, w, h => by
    rw [Core.memWf_iff] at h
    exact memWf_writeImem t _ (w + 1) ((Core.memWf_iff _).2 ⟨h.1, ramWf_ramWrite w w _ h.2⟩)

/-! ### Banks -/

/-- The pairs and the banks of two devices are the same. -/
abbrev Dev.SameMemories (d e : Dev) : Prop := e.pairs = d.pairs ∧ e.mem.ram = d.mem.ram

theorem bucketUp_frame (d : Dev) (inst : Nat) : d.SameMemories (d.bucketUp inst) := by
  unfold Dev.bucketUp
  simp only
  split
  · simp [Dev.SameMemories]
  · split <;> simp [Dev.SameMemories]

theorem correctable_frame (d : Dev) (inst : Nat) : d.SameMemories (d.correctable inst) := by
  unfold Dev.correctable
  simp only
  split
  · simp [Dev.SameMemories]
  · exact bucketUp_frame _ inst

theorem recordUe_frame (d : Dev) (master inst addr : Nat) (scrub : Bool) : d.SameMemories (d.recordUe master inst addr scrub) := by
  unfold Dev.recordUe
  split <;> simp [Dev.SameMemories]

theorem queueWriteBack_frame (d : Dev) (inst word : Nat) : d.SameMemories (d.queueWriteBack inst word) := by
  unfold Dev.queueWriteBack
  extract_lets wb
  split <;> exact ⟨rfl, rfl⟩

theorem uncorrectable_frame (d : Dev) (master inst addr : Nat) (scrub : Bool) :
    d.SameMemories (d.uncorrectable master inst addr scrub) := by
  have h : ∀ e : Dev, d.SameMemories e → d.SameMemories (e.recordUe master inst addr scrub) := fun e he =>
    ⟨(recordUe_frame e master inst addr scrub).1.trans he.1, (recordUe_frame e master inst addr scrub).2.trans he.2⟩
  have h1 : d.SameMemories (if scrub then (d.count (MEMCTL_INST_UECNT inst)).flag MEMCTL_ISTAT_SCRUBUE
      else (d.count (MEMCTL_INST_UECNT inst)).flag MEMCTL_ISTAT_UE) := by split <;> simp [Dev.SameMemories]
  unfold Dev.uncorrectable
  extract_lets e f g
  have hg : d.SameMemories g := h f h1
  clear_value g
  split <;> exact hg

/-- What counting the errors of a read can change: registers, presentations and the write-backs that wait. -/
theorem noteRead_frame (d : Dev) (master inst word addr : Nat) (r : WordRead) (scrub : Bool) :
    d.SameMemories (d.noteRead master inst word addr r scrub) := by
  have h1 : ∀ e : Dev, d.SameMemories e → d.SameMemories (e.uncorrectable master inst addr scrub) := fun e he =>
    ⟨(uncorrectable_frame e master inst addr scrub).1.trans he.1, (uncorrectable_frame e master inst addr scrub).2.trans he.2⟩
  have h2 : ∀ e : Dev, d.SameMemories e → d.SameMemories (e.correctable inst) := fun e he =>
    ⟨(correctable_frame e inst).1.trans he.1, (correctable_frame e inst).2.trans he.2⟩
  have h0 : d.SameMemories (if d.testing inst then
      (((d.flag MEMCTL_ETSYN_NEW).setFld MEMCTL_ETSYN_KIND (synKind r)).setFld MEMCTL_ETSYN_WORD word).setFld
        MEMCTL_ETSYN_SYN r.syn
    else d) := by split <;> simp [Dev.SameMemories]
  unfold Dev.noteRead
  extract_lets e f
  have he : d.SameMemories e := h0
  have hf : d.SameMemories f := h2 e he
  clear_value e f
  split
  · split
    · exact h1 _ (h2 e he)
    · exact h1 e he
  · split
    · split
      · exact hf
      · exact ⟨(queueWriteBack_frame f inst word).1.trans hf.1, (queueWriteBack_frame f inst word).2.trans hf.2⟩
    · exact he

theorem bankRead_pairs (d : Dev) (master inst word : Nat) : (d.bankRead master inst word).2.2.pairs = d.pairs :=
  (noteRead_frame _ _ _ _ _ _ _).1

theorem memWf_bankRead {d : Dev} (master inst word : Nat) (h : d.memWf = true) :
    (d.bankRead master inst word).2.2.memWf = true := by
  have e := fun a => (noteRead_frame { d with mem := { d.mem with ram := ramHeal d.mem.ram (bankKey inst word) } } master inst
    word a (ramRead d.mem.ram (bankKey inst word) word) false).2
  show ramWf _ = true
  rw [show (d.bankRead master inst word).2.2.mem.ram = _ from e _]
  exact ramWf_ramHeal _ h

theorem memWf_bankWrite {d : Dev} (inst word v : Nat) (h : d.memWf = true) : (d.bankWrite inst word v).memWf = true :=
  ramWf_ramPut _ _ _ h

theorem bankWrite_pairs (d : Dev) (inst word v : Nat) : (d.bankWrite inst word v).pairs = d.pairs := rfl

theorem bankWrite_io (d : Dev) (inst word v : Nat) : (d.bankWrite inst word v).io = d.io := rfl

theorem bankStore_frame {d : Dev} (master inst word al data mask : Nat) :
    (d.memWf = true → (d.bankStore master inst word al data mask).2.memWf = true) ∧
    (d.bankStore master inst word al data mask).2.pairs = d.pairs := by
  unfold Dev.bankStore
  split
  · exact ⟨memWf_bankWrite _ _ _, rfl⟩
  · simp only
    split
    · exact ⟨memWf_bankRead _ _ _, bankRead_pairs _ _ _ _⟩
    · exact ⟨fun h => memWf_bankWrite _ _ _ (memWf_bankRead _ _ _ h), bankRead_pairs _ _ _ _⟩

/-- What a write to a target can change: banks, and the registers and presentations of their errors. -/
theorem targetWrite_frame {d : Dev} (master : Nat) (t : Target) (data mask : Nat) :
    (d.memWf = true → (d.targetWrite master t data mask).2.memWf = true) ∧
    (d.targetWrite master t data mask).2.pairs = d.pairs := by
  cases t with
  | bank inst word al => exact bankStore_frame master inst word al data mask
  | rom word => simp [Dev.targetWrite]
  | nv off => simp [Dev.targetWrite]
  | own => simp [Dev.targetWrite]
  | none => simp [Dev.targetWrite]

end Sys2Proof.Machine
end

