-- ==== Sys2Proof/Laws/Ops.lean ====
section
/-! SUPPORT. Ops.lean: for each operation that the blocks share, what it can do, said once: journaling, sealing, the force
line, Keeper with the mode, mode changes, refusals, a device reset. A proof cites these and unfolds none of them. -/

set_option Elab.async false

namespace Sys2Proof.Machine

/-! ### The parts that an operation leaves alone -/

/-- The device without its registers, its store and what waits for the island: all that journaling leaves alone. -/
def Dev.butJournal (d : Dev) : Dev :=
  { d with io := [], nvs := {}, island := { d.island with presented := [] } }

/-- The same without the PWM groups, Keeper and Watch: all that a mode change leaves alone. -/
def Dev.butMode (d : Dev) : Dev := { d.butJournal with drive := {}, keeper := {}, test := {} }

@[simp] theorem butJournal_setWord (d : Dev) (a : Nat) (w : Word) : (d.setWord a w).butJournal = d.butJournal := by simp [Dev.butJournal]
@[simp] theorem butJournal_setFld (d : Dev) (f : Fld) (v : Nat) : (d.setFld f v).butJournal = d.butJournal := by simp [Dev.butJournal]
@[simp] theorem butJournal_present (d : Dev) (i v : Nat) : (d.present i v).butJournal = d.butJournal := by
  simp [Dev.butJournal, Dev.present]
@[simp] theorem butMode_setWord (d : Dev) (a : Nat) (w : Word) : (d.setWord a w).butMode = d.butMode := by simp [Dev.butMode, Dev.butJournal]
@[simp] theorem butMode_setFld (d : Dev) (f : Fld) (v : Nat) : (d.setFld f v).butMode = d.butMode := by simp [Dev.butMode, Dev.butJournal]
@[simp] theorem butMode_present (d : Dev) (i v : Nat) : (d.present i v).butMode = d.butMode := by
  simp [Dev.butMode, Dev.butJournal, Dev.present]
@[simp] theorem butMode_setGroup (d : Dev) (g : Nat) (x : PwmGroup) : (d.setGroup g x).butMode = d.butMode := by simp [Dev.butMode, Dev.butJournal]

theorem butMode_of_butJournal {d e : Dev} (h : e.butJournal = d.butJournal) : e.butMode = d.butMode :=
  congrArg (fun x : Dev => { x with drive := {}, keeper := {}, test := {} }) h

theorem pairs_of_butMode {d e : Dev} (h : e.butMode = d.butMode) : e.pairs = d.pairs :=
  show e.butMode.pairs = d.butMode.pairs from congrArg Dev.pairs h
theorem bind_of_butMode {d e : Dev} (h : e.butMode = d.butMode) : e.bind = d.bind :=
  show e.butMode.bind = d.butMode.bind from congrArg Dev.bind h
theorem mem_of_butMode {d e : Dev} (h : e.butMode = d.butMode) : e.mem = d.mem :=
  show e.butMode.mem = d.butMode.mem from congrArg Dev.mem h
theorem ticks_of_butMode {d e : Dev} (h : e.butMode = d.butMode) : e.ticks = d.ticks :=
  show e.butMode.ticks = d.butMode.ticks from congrArg Dev.ticks h
theorem persist_of_butMode {d e : Dev} (h : e.butMode = d.butMode) : e.persist = d.persist :=
  show e.butMode.persist = d.butMode.persist from congrArg Dev.persist h
theorem trust_of_butMode {d e : Dev} (h : e.butMode = d.butMode) : e.trust = d.trust :=
  show e.butMode.trust = d.butMode.trust from congrArg Dev.trust h
theorem start_of_butMode {d e : Dev} (h : e.butMode = d.butMode) : e.start = d.start :=
  show e.butMode.start = d.butMode.start from congrArg Dev.start h
theorem power_of_butMode {d e : Dev} (h : e.butMode = d.butMode) : e.power = d.power :=
  show e.butMode.power = d.butMode.power from congrArg Dev.power h
theorem lantern_of_butMode {d e : Dev} (h : e.butMode = d.butMode) : e.lantern = d.lantern :=
  show e.butMode.lantern = d.butMode.lantern from congrArg Dev.lantern h
theorem drive_of_butJournal {d e : Dev} (h : e.butJournal = d.butJournal) : e.drive = d.drive :=
  show e.butJournal.drive = d.butJournal.drive from congrArg Dev.drive h
theorem keeper_of_butJournal {d e : Dev} (h : e.butJournal = d.butJournal) : e.keeper = d.keeper :=
  show e.butJournal.keeper = d.butJournal.keeper from congrArg Dev.keeper h
theorem test_of_butJournal {d e : Dev} (h : e.butJournal = d.butJournal) : e.test = d.test :=
  show e.butJournal.test = d.butJournal.test from congrArg Dev.test h

/-! ### Registers that an operation leaves alone -/

/-- Every register of `e` outside the listed addresses reads as in `d`, and `e` keeps the register map's form. -/
structure Dev.Regs (d e : Dev) (l : List Nat) : Prop where
  word : ∀ a, a ∉ l → e.word a = d.word a
  ok : d.RegsOk → e.RegsOk

theorem Dev.Regs.refl (d : Dev) (l : List Nat) : d.Regs d l := ⟨fun _ _ => rfl, id⟩

theorem Dev.Regs.trans {d e f : Dev} {l : List Nat} (h : d.Regs e l) (h' : e.Regs f l) : d.Regs f l :=
  ⟨fun a ha => (h'.word a ha).trans (h.word a ha), fun hd => h'.ok (h.ok hd)⟩

theorem Dev.Regs.mono {d e : Dev} {l m : List Nat} (h : d.Regs e l) (hl : l ⊆ m) : d.Regs e m :=
  ⟨fun a ha => h.word a (fun hm => ha (hl hm)), h.ok⟩

theorem Dev.Regs.of_io {d e : Dev} (h : e.io = d.io) (l : List Nat) : d.Regs e l :=
  ⟨fun a _ => word_of_io h a, regsOk_of_io h⟩

/-- An update that leaves the registers alone. -/
theorem Dev.Regs.same {d e f : Dev} {l : List Nat} (h : d.Regs e l) (hf : f.io = e.io) : d.Regs f l :=
  h.trans (.of_io hf l)

theorem Dev.Regs.setWord {d e : Dev} {l : List Nat} (h : d.Regs e l) (a : Nat) (w : Word) (ha : a ∈ l) :
    d.Regs (e.setWord a w) l :=
  ⟨fun b hb => (word_setWord_ne e w (by rintro rfl; exact hb ha)).trans (h.word b hb), fun hd => regsOk_setWord a w (h.ok hd)⟩

theorem Dev.Regs.setFld {d e : Dev} {l : List Nat} (h : d.Regs e l) (f : Fld) (v : Nat) (hf : f.addr ∈ l) :
    d.Regs (e.setFld f v) l := h.setWord f.addr _ hf

theorem Dev.Regs.present {d e : Dev} {l : List Nat} (h : d.Regs e l) (i v : Nat) : d.Regs (e.present i v) l :=
  h.trans (Dev.Regs.of_io (d := e) (e := e.present i v) rfl l)

/-- A field outside the listed registers reads as before. -/
theorem Dev.Regs.fld {d e : Dev} {l : List Nat} (h : d.Regs e l) (f : Fld) (hf : f.addr ∉ l) : e.fld f = d.fld f :=
  fld_of_word f (h.word f.addr hf)

/-! ### The journal -/

/-- Adding an entry changes the store alone. -/
theorem addEntry_nvs (d : Dev) (type : Nat) (args : List Nat) (body : List Byte) :
    ∃ n, d.addEntry type args body = { d with nvs := n } := by
  unfold Dev.addEntry
  simp only
  split
  · exact ⟨d.nvs, rfl⟩
  · exact ⟨_, rfl⟩

/-- The registers that sealing a page touches: JSTAT and ISTAT. -/
def sealRegs : List Nat := [0x120018, 0x120048]

/-- Sealing a page changes the store, JSTAT, ISTAT and what waits for the island. -/
theorem sealPage_frame (d : Dev) (bad : Nat) :
    (d.sealPage bad).butJournal = d.butJournal ∧ d.Regs (d.sealPage bad) sealRegs := by
  unfold Dev.sealPage
  extract_lets n a run d1 d2 pages ov d3 d4
  have h1 : d1.butJournal = d.butJournal ∧ d.Regs d1 sealRegs := by
    show (if _ then _ else _ : Dev).butJournal = _ ∧ d.Regs (if _ then _ else _) _
    split
    · exact ⟨by simp, ((Dev.Regs.refl d _).present _ _).setFld _ _ (by decide)⟩
    · exact ⟨rfl, .refl d _⟩
  have h2 : d2.butJournal = d.butJournal ∧ d.Regs d2 sealRegs :=
    ⟨(butJournal_setFld d1 _ _).trans h1.1, h1.2.setFld _ _ (by decide)⟩
  have h3 : d3.butJournal = d.butJournal ∧ d.Regs d3 sealRegs := by
    show (if _ then _ else _ : Dev).butJournal = _ ∧ d.Regs (if _ then _ else _) _
    split
    · exact ⟨by simpa using h2.1, (h2.2.present _ _).setFld _ _ (by decide)⟩
    · exact h2
  have h4 : d4.butJournal = d.butJournal ∧ d.Regs d4 sealRegs :=
    ⟨(butJournal_setFld d3 _ _).trans h3.1, h3.2.setFld _ _ (by decide)⟩
  clear_value d4
  exact ⟨h4.1, h4.2.same rfl⟩

/-- A sealed page leaves nothing in the open-page buffer. -/
theorem sealPage_opened (d : Dev) (bad : Nat) : (d.sealPage bad).nvs.opened = [] := rfl

/-- Journaling changes the store, JSTAT, ISTAT and what waits for the island. -/
theorem journal_frame (d : Dev) (type : Nat) (args : List Nat) (body : List Byte) :
    (d.journal type args body).butJournal = d.butJournal ∧ d.Regs (d.journal type args body) sealRegs := by
  unfold Dev.journal
  split
  · exact ⟨rfl, .refl d _⟩
  · obtain ⟨n, hn⟩ := addEntry_nvs d type args body
    have hb : (d.addEntry type args body).butJournal = d.butJournal := by rw [hn]; rfl
    have hr : d.Regs (d.addEntry type args body) sealRegs := .of_io (by rw [hn]) _
    have h := sealPage_frame (d.addEntry type args body) 0
    simp only
    split
    · exact ⟨h.1.trans hb, hr.trans h.2⟩
    · exact ⟨hb, hr⟩

theorem journal_pairs (d : Dev) (type : Nat) (args : List Nat) (body : List Byte) :
    (d.journal type args body).pairs = d.pairs := pairs_of_butMode (butMode_of_butJournal (journal_frame d type args body).1)

theorem journal_mem (d : Dev) (type : Nat) (args : List Nat) (body : List Byte) :
    (d.journal type args body).mem = d.mem := mem_of_butMode (butMode_of_butJournal (journal_frame d type args body).1)

/-! ### The force line (R396) -/

theorem forceAll_frame (l : List Nat) : ∀ d : Dev,
    (l.foldl Dev.forceGroup d).butMode = d.butMode ∧ (l.foldl Dev.forceGroup d).io = d.io ∧
    (l.foldl Dev.forceGroup d).nvs = d.nvs ∧ (l.foldl Dev.forceGroup d).island = d.island ∧
    (l.foldl Dev.forceGroup d).keeper = d.keeper ∧ (l.foldl Dev.forceGroup d).test = d.test ∧
    ∀ g, ((l.foldl Dev.forceGroup d).group g).safe = ((d.group g).safe || l.contains g) := by
  induction l with
  | nil => intro d; simp
  | cons g t ih =>
    intro d
    obtain ⟨h1, h2, h3, h4, h5, h6, h7⟩ := ih (d.forceGroup g)
    refine ⟨h1, h2, h3, h4, h5, h6, fun j => ?_⟩
    rw [List.foldl_cons, h7, forceGroup_eq]
    by_cases hj : j = g
    · subst hj; simp
    · rw [group_setGroup_ne d _ hj]
      simp [hj]

/-- The force line asserted: SAFEISL.STAT.FORCE is 1, every group is at its safe levels, and nothing else of the device
changes but other settings of the groups that stay as they are. -/
theorem assertForce_frame (d : Dev) :
    d.assertForce.butMode = d.butMode ∧ d.assertForce.io = ioSetFld d.io SAFEISL_STAT_FORCE 1 ∧ d.assertForce.nvs = d.nvs ∧
    d.assertForce.island = d.island ∧ d.assertForce.keeper = d.keeper ∧ d.assertForce.test = d.test := by
  obtain ⟨h1, h2, h3, h4, h5, h6, -⟩ := forceAll_frame (List.range 12) (d.flag SAFEISL_STAT_FORCE)
  exact ⟨h1, h2, h3, h4, h5, h6⟩

theorem assertForce_regs (d : Dev) : d.Regs d.assertForce [0x0C0000] :=
  ((Dev.Regs.refl d _).setFld SAFEISL_STAT_FORCE 1 (by decide)).trans (.of_io (assertForce_frame d).2.1 _)

/-- The force line reaches every group. -/
theorem forced_assertForce (d : Dev) : d.assertForce.forced = true := by
  obtain ⟨-, h2, -, -, -, -, h7⟩ := forceAll_frame (List.range 12) (d.flag SAFEISL_STAT_FORCE)
  have hf : d.assertForce.fld SAFEISL_STAT_FORCE = 1 := by
    rw [fld_of_io (show d.assertForce.io = (d.flag SAFEISL_STAT_FORCE).io from h2)]
    exact fld_setFld_same d 1 (by decide)
  have hg : ∀ g < 12, ((d.assertForce).group g).safe = true := by
    intro g hg
    have := h7 g
    rw [show d.assertForce.group g = ((List.range 12).foldl Dev.forceGroup (d.flag SAFEISL_STAT_FORCE)).group g from rfl, this]
    simp [hg]
  simp only [Dev.forced, Dev.on, hf, Bool.and_eq_true, List.all_eq_true, List.mem_range]
  exact ⟨by decide, hg⟩

/-- The force line as the mode has it: asserted, or FORCE released and nothing else. -/
theorem forceByMode_cases (d : Dev) : d.forceByMode = d.assertForce ∨ d.forceByMode = d.setFld SAFEISL_STAT_FORCE 0 := by
  unfold Dev.forceByMode
  split
  · exact .inr rfl
  · exact .inl rfl

theorem forceByMode_frame (d : Dev) :
    d.forceByMode.butMode = d.butMode ∧ d.forceByMode.keeper = d.keeper ∧ d.forceByMode.test = d.test ∧
    d.Regs d.forceByMode [0x0C0000] := by
  have h := assertForce_frame d
  rcases forceByMode_cases d with e | e <;> rw [e]
  · exact ⟨h.1, h.2.2.2.2.1, h.2.2.2.2.2, assertForce_regs d⟩
  · exact ⟨rfl, rfl, rfl, (Dev.Regs.refl d _).setFld _ _ (by decide)⟩

/-! ### Keeper with the mode (R404) -/

/-- The registers of Keeper that a mode change touches: STAT and the task counts. -/
def keeperRegs : List Nat := 0x0D000C :: (List.range 64).map (fun t => 0x0D0100 + 4 * t)

theorem clearCounts_frame (d : Dev) : d.clearCounts.butJournal = d.butJournal ∧ d.clearCounts.nvs = d.nvs ∧
    d.clearCounts.island = d.island ∧ d.Regs d.clearCounts keeperRegs := by
  have h : ∀ (l : List Nat) (e : Dev), (∀ t ∈ l, t < 64) →
      let f := l.foldl (fun x t => x.setFld (KEEPER_TASK_COUNT t) 0) e
      f.butJournal = e.butJournal ∧ f.nvs = e.nvs ∧ f.island = e.island ∧ e.Regs f keeperRegs := by
    intro l
    induction l with
    | nil => intro e _; exact ⟨rfl, rfl, rfl, .refl e _⟩
    | cons t l ih =>
      intro e ht
      obtain ⟨h1, h2, h3, h4⟩ := ih (e.setFld (KEEPER_TASK_COUNT t) 0) (fun x hx => ht x (by simp [hx]))
      refine ⟨h1, h2, h3, ((Dev.Regs.refl e _).setFld _ _ ?_).trans h4⟩
      exact List.mem_cons_of_mem _ (List.mem_map.2 ⟨t, List.mem_range.2 (ht t (by simp)), rfl⟩)
  exact h (List.range 64) d (fun t ht => List.mem_range.1 ht)

theorem freshWindow_eq (d : Dev) :
    ∃ k, d.freshWindow = { d.clearCounts.setFld KEEPER_STAT_SERVED 0 with keeper := k } := ⟨_, rfl⟩

theorem butMode_setKeeper (e : Dev) (k : KeeperSt) : { e with keeper := k }.butMode = e.butMode := rfl

/-- A fresh window changes Keeper's STAT, its counts and its window. -/
theorem freshWindow_frame (d : Dev) : d.freshWindow.butMode = d.butMode ∧ d.freshWindow.drive = d.drive ∧
    d.freshWindow.test = d.test ∧ d.Regs d.freshWindow keeperRegs := by
  obtain ⟨k, hk⟩ := freshWindow_eq d
  have hc := clearCounts_frame d
  have he : (d.clearCounts.setFld KEEPER_STAT_SERVED 0).butJournal = d.butJournal := (butJournal_setFld _ _ _).trans hc.1
  have hr : d.Regs (d.clearCounts.setFld KEEPER_STAT_SERVED 0) keeperRegs := hc.2.2.2.setFld KEEPER_STAT_SERVED 0 (by decide)
  rw [hk]
  generalize d.clearCounts.setFld KEEPER_STAT_SERVED 0 = e at he hr ⊢
  have hm := butMode_of_butJournal he
  have hd := drive_of_butJournal he
  have ht := test_of_butJournal he
  exact ⟨(butMode_setKeeper e k).trans hm, hd, ht, hr.same rfl⟩

/-- Keeper with the mode changes its STAT and counts, and its window. -/
theorem keeperMode_frame (d : Dev) (m : Nat) :
    (d.keeperMode m).butMode = d.butMode ∧ (d.keeperMode m).drive = d.drive ∧ (d.keeperMode m).test = d.test ∧
    d.Regs (d.keeperMode m) keeperRegs := by
  have h0 : d.butMode = d.butMode ∧ d.drive = d.drive ∧ d.test = d.test ∧ d.Regs d keeperRegs :=
    ⟨rfl, rfl, rfl, .refl d _⟩
  have h1 : ∀ v, (d.setFld KEEPER_STAT_STATE v).butMode = d.butMode ∧ (d.setFld KEEPER_STAT_STATE v).drive = d.drive ∧
      (d.setFld KEEPER_STAT_STATE v).test = d.test ∧ d.Regs (d.setFld KEEPER_STAT_STATE v) keeperRegs := fun v =>
    ⟨by simp, by simp, by simp, (Dev.Regs.refl d _).setFld KEEPER_STAT_STATE v (by decide)⟩
  unfold Dev.keeperMode
  extract_lets st
  split
  · exact h0
  · split
    · split
      · have h2 := freshWindow_frame (d.setFld KEEPER_STAT_STATE 2)
        have h3 := h1 2
        exact ⟨h2.1.trans h3.1, h2.2.1.trans h3.2.1, h2.2.2.1.trans h3.2.2.1, h3.2.2.2.trans h2.2.2.2⟩
      · exact h0
    · have h3 := h1 1
      exact ⟨(butMode_setKeeper _ _).trans h3.1, h3.2.1, h3.2.2.1, h3.2.2.2.same rfl⟩

/-! ### Mode changes (R416 to R419) -/

/-- The registers that a mode change touches: SYSCTL.STAT, SAFEISL.STAT, MEMCTL.ETCTL, JSTAT, NVS.ISTAT, and Keeper's. -/
def modeRegs : List Nat := [0x000000, 0x0C0000, 0x050050, 0x120018, 0x120048] ++ keeperRegs

theorem enterMode_frame (d : Dev) (m trig : Nat) :
    (d.enterMode m trig).butMode = d.butMode ∧ d.Regs (d.enterMode m trig) modeRegs := by
  have hk : keeperRegs ⊆ modeRegs := List.subset_append_right _ _
  unfold Dev.enterMode
  extract_lets old d1 d2 d3 d4 d5
  have h1 : d1.butMode = d.butMode ∧ d.Regs d1 modeRegs :=
    ⟨rfl, ((Dev.Regs.refl d _).setFld SYSCTL_STAT_PREV old (by decide)).setFld SYSCTL_STAT_MODE m (by decide)⟩
  have h2 : d2.butMode = d.butMode ∧ d.Regs d2 modeRegs := by
    show (if _ then _ else _ : Dev).butMode = _ ∧ d.Regs (if _ then _ else _) _
    split
    · exact ⟨by simpa using h1.1, h1.2.setFld _ _ (by decide)⟩
    · exact h1
  have h3 : d3.butMode = d.butMode ∧ d.Regs d3 modeRegs := by
    have hj := journal_frame d2 0x11 [old, m, trig] []
    have hq := keeperMode_frame (d2.journal 0x11 [old, m, trig]) m
    exact ⟨hq.1.trans ((butMode_of_butJournal hj.1).trans h2.1),
      (h2.2.trans (hj.2.mono (by decide))).trans (hq.2.2.2.mono hk)⟩
  have h4 : d4.butMode = d.butMode ∧ d.Regs d4 modeRegs :=
    ⟨(forceByMode_frame d3).1.trans h3.1, h3.2.trans ((forceByMode_frame d3).2.2.2.mono (by decide))⟩
  have h5 : d5.butMode = d.butMode ∧ d.Regs d5 modeRegs := by
    show (if _ then _ else _ : Dev).butMode = _ ∧ d.Regs (if _ then _ else _) _
    split
    · exact h4
    · exact ⟨by simpa using h4.1, h4.2.setFld _ _ (by decide)⟩
  clear_value d5
  split
  · exact ⟨h5.1, h5.2.same rfl⟩
  · split
    · exact ⟨h5.1, h5.2.same rfl⟩
    · exact h5

theorem enterMode_pairs (d : Dev) (m trig : Nat) : (d.enterMode m trig).pairs = d.pairs :=
  pairs_of_butMode (enterMode_frame d m trig).1

theorem enterMode_mem (d : Dev) (m trig : Nat) : (d.enterMode m trig).mem = d.mem :=
  mem_of_butMode (enterMode_frame d m trig).1

/-- Every mode but RUN and DEGRADED forces the outputs (R396). -/
theorem forceByMode_forced (d : Dev) (h : d.running = false) : d.forceByMode.forced = true := by
  have : d.forceByMode = d.assertForce := by simp [Dev.forceByMode, h]
  rw [this]
  exact forced_assertForce d

/-- The mode after a mode change, and the one before it in PREV. -/
theorem mode_enterMode (d : Dev) {m : Nat} (trig : Nat) (h : m < 8) :
    (d.enterMode m trig).mode = m ∧ (d.enterMode m trig).fld SYSCTL_STAT_PREV = d.mode := by
  have hs : (0x000000 : Nat) ∉ ([0x0C0000, 0x050050, 0x120018, 0x120048] ++ keeperRegs) := by decide
  have key : (d.enterMode m trig).word 0 = ((d.setFld SYSCTL_STAT_PREV d.mode).setFld SYSCTL_STAT_MODE m).word 0 := by
    have hk : keeperRegs ⊆ [0x0C0000, 0x050050, 0x120018, 0x120048] ++ keeperRegs := List.subset_append_right _ _
    unfold Dev.enterMode
    extract_lets old d1 d2 d3 d4 d5
    have h2 : d1.Regs d2 ([0x0C0000, 0x050050, 0x120018, 0x120048] ++ keeperRegs) := by
      show d1.Regs (if _ then _ else _) _
      split
      · exact (Dev.Regs.refl d1 _).setFld _ _ (by decide)
      · exact .refl d1 _
    have h3 := (h2.trans ((journal_frame d2 0x11 [old, m, trig] []).2.mono (by decide))).trans
      ((keeperMode_frame (d2.journal 0x11 [old, m, trig]) m).2.2.2.mono hk)
    have h4 := h3.trans ((forceByMode_frame d3).2.2.2.mono (by decide))
    have h5 : d1.Regs d5 ([0x0C0000, 0x050050, 0x120018, 0x120048] ++ keeperRegs) := by
      show d1.Regs (if _ then _ else _) _
      split
      · exact h4
      · exact h4.setFld _ _ (by decide)
    clear_value d5
    split
    · exact h5.word 0 hs
    · split
      · exact h5.word 0 hs
      · exact h5.word 0 hs
  constructor
  · rw [Dev.mode, fld_of_word SYSCTL_STAT_MODE key, fld_setFld_same _ _ (by decide)]
    exact Nat.mod_eq_of_lt h
  · rw [fld_of_word SYSCTL_STAT_PREV key, fld_setFld_apart _ _ (by decide), fld_setFld_same _ _ (by decide)]
    exact Nat.mod_eq_of_lt (fld_lt d SYSCTL_STAT_MODE)

/-- A safe-stop cause: the force line, and SAFE-STOP, its latch, or nothing (R417). -/
theorem safeStopCause_frame (d : Dev) (trig : Nat) :
    (d.safeStopCause trig).butMode = d.butMode ∧ d.Regs (d.safeStopCause trig) modeRegs := by
  have hf := assertForce_frame d
  have hr : d.Regs d.assertForce modeRegs := (assertForce_regs d).mono (by decide)
  unfold Dev.safeStopCause
  extract_lets e
  have he : e.butMode = d.butMode := hf.1
  have hre : d.Regs e modeRegs := hr
  clear_value e
  split
  · exact ⟨(enterMode_frame e _ _).1.trans he, hre.trans (enterMode_frame e _ _).2⟩
  · split
    · exact ⟨he, hre⟩
    · exact ⟨by simpa using he, hre.setFld _ _ (by decide)⟩

/-- The mode after a pair is lost (R416): SAFE-STOP, DEGRADED, or as it was. -/
theorem afterPairLost_frame (d : Dev) : d.afterPairLost.butMode = d.butMode ∧ d.Regs d.afterPairLost modeRegs := by
  unfold Dev.afterPairLost
  split
  · have hr : d.Regs d.assertForce modeRegs := (assertForce_regs d).mono (by decide)
    exact ⟨(enterMode_frame _ _ _).1.trans (assertForce_frame d).1, hr.trans (enterMode_frame _ _ _).2⟩
  · split
    · exact enterMode_frame d _ _
    · exact ⟨rfl, .refl d _⟩

/-! ### Commands (R420 to R422) -/

/-- Judging a command changes CMDSTAT. -/
theorem cmdStat_frame (d : Dev) (code status : Nat) :
    (d.cmdStat code status).butJournal = d.butJournal ∧ (d.cmdStat code status).nvs = d.nvs ∧
    (d.cmdStat code status).island = d.island ∧ d.Regs (d.cmdStat code status) [0x000008] :=
  ⟨rfl, rfl, rfl, (((Dev.Regs.refl d _).setFld _ _ (by decide)).setFld _ _ (by decide)).setFld _ _ (by decide)⟩

/-- A refusal changes REFUSED, and the journal where the command is protected. -/
theorem refuse_frame (d : Dev) (code : Nat) (prot : Bool) :
    (d.refuse code prot).butJournal = d.butJournal ∧ d.Regs (d.refuse code prot) (0x000028 :: sealRegs) := by
  unfold Dev.refuse
  extract_lets e
  have he : e.butJournal = d.butJournal ∧ d.Regs e (0x000028 :: sealRegs) :=
    ⟨rfl, (((Dev.Regs.refl d _).setFld _ _ (by decide)).setFld _ _ (by decide)).setFld _ _ (by decide)⟩
  clear_value e
  split
  · exact ⟨(journal_frame e _ _ _).1.trans he.1, he.2.trans ((journal_frame e _ _ _).2.mono (by decide))⟩
  · exact he

/-! ### Device reset (R13, R416) -/

theorem resetRegisters_regsOk {d : Dev} (h : d.RegsOk) : d.resetRegisters.RegsOk := by
  unfold Dev.resetRegisters
  extract_lets old d1 d2
  have h1 : d1.RegsOk := ioReset_wf d.io h
  have h2 : d2.RegsOk := by
    show Dev.RegsOk (if _ then _ else _)
    split
    · exact regsOk_setFld _ _ h1
    · exact h1
  exact regsOk_setFld _ _ h2

/-- A pair that awaits its fence is fenced or retired; no other register changes but those of a journal entry. -/
theorem fencePending_regsOk {d : Dev} (p : Nat) (h : d.RegsOk) : (d.fencePending p).RegsOk := by
  unfold Dev.fencePending
  extract_lets x st e
  split
  · have he : e.RegsOk := regsOk_setFld _ _ h
    exact (journal_frame _ _ _ _).2.ok he
  · exact h

/-- A device reset keeps the register map's form. -/
theorem deviceReset_regsOk {d : Dev} (trig : Nat) (h : d.RegsOk) : (d.deviceReset trig).RegsOk := by
  unfold Dev.deviceReset
  extract_lets c e f
  have hc : c.RegsOk := foldl_keeps (fun e : Dev => e.RegsOk) _ (fun _ p he => fencePending_regsOk p he) (List.range 16) d h
  have he : e.RegsOk := resetRegisters_regsOk hc
  clear_value e
  have hf : f.RegsOk := by
    show Dev.RegsOk (if _ then _ else _)
    split
    · exact regsOk_setFld _ _ he
    · exact he
  clear_value f
  exact hf

end Sys2Proof.Machine
end

