-- ==== Sys2Proof/Laws/Store.lean ====
section
/-! SUPPORT. Store.lean: what an erase or a program of the NV store's slots and evidence area leaves at each byte (R525),
also where an operation that failed had left its range undefined. -/

set_option Elab.async false

namespace Sys2Proof.Machine

theorem spoiltAt_append (l m : List SpoiltRange) (a : Nat) :
    spoiltAt (l ++ m) a = (spoiltAt l a).or (spoiltAt m a) := by
  induction l with
  | nil => rfl
  | cons r t ih => simp only [List.cons_append, spoiltAt, ih]; split <;> rfl

theorem SpoiltRange.outside_at (r : SpoiltRange) (off len a : Nat) :
    spoiltAt (r.outside off len) a =
      if off ≤ a ∧ a < off + len then none else if r.lo ≤ a ∧ a < r.hi then some r.num else none := by
  unfold SpoiltRange.outside
  rw [spoiltAt_append]
  by_cases h1 : r.lo < min r.hi off <;> by_cases h2 : max r.lo (off + len) < r.hi <;>
    simp only [h1, h2, if_true, if_false, spoiltAt] <;>
    split_ifs <;> first | rfl | (exfalso; omega)

/-- Bytes written anew are no longer undefined, and every other byte stays as it was. -/
theorem spoiltAt_spoiltOutside (l : List SpoiltRange) (off len a : Nat) :
    spoiltAt (spoiltOutside l off len) a = if off ≤ a ∧ a < off + len then none else spoiltAt l a := by
  induction l with
  | nil => simp [spoiltOutside, spoiltAt]
  | cons r t ih =>
    have e : spoiltOutside (r :: t) off len = r.outside off len ++ spoiltOutside t off len := by simp [spoiltOutside]
    rw [e, spoiltAt_append, SpoiltRange.outside_at, ih]
    simp only [spoiltAt]
    split_ifs <;> rfl

theorem mapFind_filter {β : Type} (p : Nat → Bool) (m : List (Nat × β)) (k : Nat) :
    mapFind (m.filter (fun e => p e.1)) k = if p k then mapFind m k else none := by
  induction m with
  | nil => simp [mapFind]
  | cons e t ih =>
    obtain ⟨j, w⟩ := e
    by_cases hj : p j = true
    · simp only [List.filter_cons, hj, if_true, mapFind, ih]
      by_cases hk : j = k
      · subst hk; simp [hj]
      · simp [hk]
    · simp only [List.filter_cons, hj, mapFind]
      by_cases hk : j = k
      · subst hk; simp [hj, ih]
      · simp [hk, ih]

/-- An erase leaves 0xFF at every byte of its range and every other byte as it was. -/
theorem NvsSt.erased_flashByte (n : NvsSt) (off len a : Nat) :
    (n.erased off len).flashByte a = if off ≤ a ∧ a < off + len then 0xFF else n.flashByte a := by
  have hf : arrGet 0xFF (n.erased off len).flash a = if off ≤ a ∧ a < off + len then 0xFF else arrGet 0xFF n.flash a := by
    simp only [NvsSt.erased, arrGet, mapGet]
    rw [mapFind_filter (fun k => decide (k < off) || decide (off + len ≤ k))]
    by_cases h : off ≤ a ∧ a < off + len
    · have : (decide (a < off) || decide (off + len ≤ a)) = false := by simp; omega
      simp [this, h]
    · have : (decide (a < off) || decide (off + len ≤ a)) = true := by simp; omega
      simp only [this, if_true, h, if_false]
  have hs : (n.erased off len).spoilt = spoiltOutside n.spoilt off len := rfl
  unfold NvsSt.flashByte
  rw [hs, spoiltAt_spoiltOutside, hf]
  split_ifs <;> rfl

/-- What a run of bytes leaves at each key of an array. -/
theorem arrGet_fill (bytes : List Byte) (off a : Nat) (m : List (Nat × Byte)) :
    arrGet 0xFF (bytes.foldl (fun (x : Nat × List (Nat × Byte)) b => (x.1 + 1, arrSet 0xFF x.2 x.1 b)) (off, m)).2 a =
      if off ≤ a ∧ a < off + bytes.length then nth 0 bytes (a - off) else arrGet 0xFF m a := by
  induction bytes generalizing off m with
  | nil =>
    have : ¬ (off ≤ a ∧ a < off + 0) := by omega
    simp
  | cons b t ih =>
    rw [List.foldl_cons, ih, arrGet_arrSet, List.length_cons]
    by_cases h0 : a = off
    · subst h0
      have h1 : ¬ (a + 1 ≤ a ∧ a < a + 1 + t.length) := by omega
      have h2 : a ≤ a ∧ a < a + (t.length + 1) := by omega
      rw [if_neg h1, if_pos rfl, if_pos h2, Nat.sub_self]; rfl
    · by_cases h1 : off + 1 ≤ a ∧ a < off + 1 + t.length
      · have h2 : off ≤ a ∧ a < off + (t.length + 1) := by omega
        have h3 : a - off = (a - (off + 1)) + 1 := by omega
        rw [if_pos h1, if_pos h2, h3]; rfl
      · have h2 : ¬ (off ≤ a ∧ a < off + (t.length + 1)) := by omega
        rw [if_neg h1, if_neg h0, if_neg h2]

/-- A program leaves its bytes in its range and every other byte as it was. -/
theorem NvsSt.programmedWith_flashByte (n : NvsSt) (off : Nat) (bytes : List Byte) (a : Nat) :
    (n.programmedWith off bytes).flashByte a =
      if off ≤ a ∧ a < off + bytes.length then nth 0 bytes (a - off) else n.flashByte a := by
  have hf := arrGet_fill bytes off a n.flash
  have hs : (n.programmedWith off bytes).spoilt = spoiltOutside n.spoilt off bytes.length := rfl
  have hg : (n.programmedWith off bytes).flash =
      (bytes.foldl (fun (x : Nat × List (Nat × Byte)) b => (x.1 + 1, arrSet 0xFF x.2 x.1 b)) (off, n.flash)).2 := rfl
  unfold NvsSt.flashByte
  rw [hs, spoiltAt_spoiltOutside, hg, hf]
  split_ifs <;> rfl

/-- An operation that has not come to its end leaves every byte outside its range as it was. -/
theorem NvsSt.spoilWith_flashByte (n : NvsSt) (o : SlotOp) (num : Nat) {a : Nat}
    (ha : a < o.range.1 ∨ o.range.1 + o.range.2 ≤ a) : (n.spoilWith o num).flashByte a = n.flashByte a := by
  unfold NvsSt.spoilWith
  by_cases hk : o.range.2 = 0
  · simp [hk]
  · have h : ¬ (o.range.1 ≤ a ∧ a < o.range.1 + o.range.2) := by omega
    simp only [hk, if_false, NvsSt.flashByte, spoiltAt, h]

end Sys2Proof.Machine
end

