-- ==== Sys2Proof/Tests/Slice0.lean ====
section
/-! SUPPORT. Slice0.lean: small tests of the model. Expected values come from the spec's worked examples and rules. For
each statement with hypotheses, a theorem `witness_<statement>…` shows a concrete device and operands that meet the
hypotheses of each of its clauses together, and what the command then leaves. -/

set_option Elab.async false

namespace Sys2Proof.Tests

open Sys2Proof Sys2Proof.Machine

/-! ### Devices for the tests -/

/-- A device right after its start-up, in BOOT, with its 16 pairs. -/
def dev0 : Dev := { Dev.reset with start := { starting := false } }

/-- The same device some time later: the tick count is given. -/
def devAt (t : Nat) : Dev := { dev0 with ticks := t }

/-- Fields set one after another. -/
def sets (d : Dev) (l : List (Fld × Nat)) : Dev := l.foldl (fun e x => e.setFld x.1 x.2) d

/-- A device in the given mode. -/
def inMode (m : Nat) (d : Dev := dev0) : Dev := d.setFld SYSCTL_STAT_MODE m

/-- The device at the given count of Lantern's lt. -/
def atLt (n : Nat) (d : Dev) : Dev := { d with lantern := { d.lantern with lt := n } }

/-- The command completes on the device and leaves what the check says. -/
def c (i : Instr) (d : Dev) (P : Dev → Bool) : Bool := completesWith i ⟨[], d⟩ P

/-! ### Ill-formed operands: each check of WellFormed refuses one -/

/-- A signed command with a counter of more than 64 bits. -/
def longCtr : SignedArg := { role := 0, slot := 0, ctr := 2 ^ 64, arg := [], via := .transport 0 0 0 }

/-- A signed command of the slot 256. -/
def farSlot : SignedArg := { role := 0, slot := 256, ctr := 0, arg := [], via := .transport 0 0 0 }

theorem test_wf_entries_and_samples :
    [Instr.interruptEntry 0 [2, 1], .preciseExceptionEntry 0 [2, 1], .impreciseExceptionEntry 0 [2, 1],
      .checkpointCommit 0 { lgFail := 4096 }, .sdfFilterOutput 0 [], .sdfFastTrip 0 [], .sdfTripEnd 0 [],
      .adcSequenceDone 0 [], .adcSequenceDone 0 [0, 0, 0, 0, 0], .ssiFrame 0 true (List.replicate 42 false) 0].all
      (fun i => !i.wf) = true := by decide +kernel

theorem test_wf_memory_and_modes :
    [Instr.targetAccess [], .targetAccess [1, 2, 3], .correctedWriteBack 0 131072, .marchWord 0 131072 [],
      .deviceReset { cmpFails := [4096] }, .portLoss true 3300, .lowin false 3299, .lowin false 3600,
      .portSupplyReturn true 3299, .portSupplyReturn true 6001, .temperatureSample 0 [], .journalSeal 4, .sealPeriod 4,
      .marginPlannerRun []].all (fun i => !i.wf) = true := by decide +kernel

theorem test_wf_links_and_registers :
    [Instr.switchForward 0 { dst := 2 ^ 48, src := 0, etype := 0, body := [] },
      .switchForward 0 { dst := 0, src := 2 ^ 48, etype := 0, body := [] },
      .switchForward 0 { dst := 0, src := 0, etype := 65536, body := [] },
      .switchForward 0 { dst := 0, src := 0, ctag := some (8, 0), etype := 0, body := [] },
      .switchForward 0 { dst := 0, src := 0, ctag := some (0, 4096), etype := 0, body := [] },
      .canFrameReceive 0 { id := 0, ide := false, fmt := 3, sdt := 0, vcid := 0, data := [], sof := 0 },
      .buoyReplyReceive 0 { bytes := List.replicate 136 0 }, .registerWrite 0 false 2 0,
      .registerWrite 0 false 0x1000000 0].all (fun i => !i.wf) = true := by decide +kernel

theorem test_wf_signed_and_debug :
    ([Instr.enrolMaker longCtr, .provision longCtr, .genkey longCtr 0, .deploy longCtr, .returnToMaker longCtr, .scrap longCtr,
      .revokeRoot longCtr, .setOproot farSlot, .setKey farSlot, .setPolicy farSlot, .install farSlot, .debugGrant farSlot,
      .attest farSlot, .step 0 0 0, .rdcore 0 0 0 0 0, .rdcore 0 0 0 4097 0, .wrcore 0 0 0 0 [], .read 0 true true 0 0,
      .read 0 true true 4097 0, .write 0 true 0 []].all (fun i => !i.wf)) = true ∧
    (Instr.bistEnd (List.replicate 3 0)).wf = true := by decide +kernel

theorem test_wf_lengths :
    (Instr.canFrameReceive 0 { id := 0, ide := false, fmt := 0, sdt := 0, vcid := 0, data := List.replicate 2049 0, sof := 0 }).wf = false ∧
    (Instr.enrolMaker { role := 0, slot := 0, ctr := 0, arg := List.replicate 1025 0, via := .transport 0 0 0 }).wf = false ∧
    (Instr.signed 0 (List.replicate 8193 0)).wf = false ∧ (Instr.bistEnd (List.replicate 65536 0)).wf = false ∧
    (Instr.wrcore 0 0 0 0 (List.replicate 4097 0)).wf = false ∧ (Instr.write 0 true 0 (List.replicate 4097 0)).wf = false := by
  simp only [Instr.wf, CanFrame.wf, SignedArg.wf, List.length_replicate]
  decide

/-! ### Power (chapter 2) -/

/-- A device whose converter is off. -/
def unpowered : Dev := { dev0 with power := { dev0.power with converter := false } }

theorem witness_PortsAndPowerFail :
    c (.portLoss true 0) dev0 (fun e => e.power.vb == 0 && e.fld POWER_ISTAT_PORTLOSS == 1 && e.hasFault fiPortLoss 1) = true ∧
    c (.portLoss false 3299) dev0 (fun e => e.power.va == 3299 && e.hasFault fiPortLoss 0) = true ∧
    c (.lowin true 3599) { dev0 with power := { dev0.power with va := 3300 } } (fun e => e.on POWER_STAT_LOWIN &&
      e.fld POWER_PFCNT_LOWCNT == 1) = true ∧
    c (.portSupplyReturn true 3600) dev0 (fun e => !e.on POWER_STAT_LOWIN) = true ∧
    c (.portSupplyReturn false 4800) unpowered (fun e => e.power.va == 4800 && e.io == unpowered.io) = true ∧
    c (.pfail false) unpowered (fun e => e.power.va == 0 && e.island.presented.isEmpty) = true ∧
    dev0.power.pfStart = none ∧ dev0.fld POWER_STAT_PFCOMMIT = 0 ∧ dev0.nvs.full = false ∧
    c (.pfail false) dev0 (fun e => e.fld POWER_STAT_PFAIL == 1 && e.hasFault fiPowerFail 0 && e.power.pfStart == some 0 &&
      e.nvs.opened.isEmpty && e.power.va == 0) = true := by decide +kernel

/-- RIDE has just run out. -/
def rideOver : Dev := sets { devAt 3000000 with power := { dev0.power with pfStart := some 0 } } [(POWER_PFCFG_RIDE, 5000)]

/-- The device after a committed power failure. -/
def committed : Dev := sets (devAt 600000) [(POWER_STAT_PFCOMMIT, 1)]

theorem witness_RideThroughOrCommit_ride :
    rideOver.power.pfStart = some 0 ∧ 0 + rideOver.fld POWER_PFCFG_RIDE * 600 ≤ rideOver.ticks ∧
    rideOver.fld POWER_STAT_PFCOMMIT = 0 ∧
    c .rideEnd rideOver (fun e => e.fld POWER_ISTAT_PFRIDE == 1 && e.fld POWER_PFCNT_RIDES == 1) = true ∧
    c .rideEnd { rideOver with power := { rideOver.power with goodA := some 2988001, goodB := none } } (fun e =>
      e.fld POWER_STAT_PFCOMMIT == 1 && e.forced && e.fld SAFEISL_STAT_SSLATCH == 1) = true ∧
    (inMode modeRun { rideOver with power := { rideOver.power with goodA := none, goodB := none } }).running = true ∧
    c .rideEnd (inMode modeRun { rideOver with power := { rideOver.power with goodA := none, goodB := none } })
      (fun e => e.mode == modeSafeStop) = true := by decide +kernel

theorem witness_RideThroughOrCommit_commit :
    committed.fld POWER_STAT_PFCOMMIT = 1 ∧ committed.power.cut = false ∧
    committed.power.goodA = some 0 ∧ 0 + 600000 ≤ committed.ticks ∧
    c .powerFailSealDone committed (fun e => e.power.cut && e.nvs.opened.isEmpty && (e.pair 3).clockOff) = true ∧
    c .inputReturn committed (fun e => e.backInBoot) = true ∧
    c .converterStop committed (fun e => !e.power.converter && e.forced && decide (e.power.va < 1800)) = true ∧
    c .powerOnReset committed (fun e => e.fld POWER_STAT_PFCOMMIT == 1) = true ∧
    c .powerOnReset { committed with power := { committed.power with converter := false } } (fun e => e.backInBoot && e.power.converter) = true := by decide +kernel

theorem witness_TemperatureLimits :
    (List.replicate 24 (2159 : Int)).length = 24 ∧ dev0.power.hotReset = false ∧
    c (.temperatureSample 1681 (List.replicate 24 1999)) dev0 (fun e => e.fld POWER_ISTAT_THWARN == 1 &&
      e.island.presented.isEmpty) = true ∧
    c (.temperatureSample 1680 (List.replicate 23 0 ++ [2000])) dev0 (fun e => e.fld POWER_ISTAT_THWARN == 0 &&
      e.hasFault fiThermHi 23 && !e.hasFault fiThermHi 22) = true ∧
    c (.temperatureSample 0 (List.replicate 24 2159)) dev0 (fun e => !e.power.hotReset) = true ∧
    c (.temperatureSample 0 (List.replicate 23 0 ++ [2160])) dev0 (fun e => e.power.hotReset && e.backInBoot) = true ∧
    c (.temperatureSample 0 (List.replicate 24 1840)) { dev0 with power := { dev0.power with hotReset := true } }
      (fun e => !e.power.hotReset) = true ∧
    c (.temperatureSample 0 (List.replicate 24 1841)) { dev0 with power := { dev0.power with hotReset := true } }
      (fun e => e.power.hotReset) = true := by decide +kernel

theorem witness_SuppliesAndStopInputs :
    (inMode modeRun).running = true ∧ dev0.running = false ∧ dev0.mode ≠ modeSafeStop ∧
    c (.supplyOverload true) dev0 (fun e => e.power.v5off && e.fld POWER_ISTAT_SUPOVL == 1) = true ∧
    c (.clockLoss (.pairSynth 15)) dev0 (fun e => e.hasFault fiPsynLoss 15) = true ∧
    c (.sstop ⟨1, 50, 9999⟩) (inMode modeRun (devAt 10000000)) (fun e => !e.energised 1 && e.mode == modeSafeStop && e.forced)
      = true ∧
    c (.sstop ⟨0, 149, 2000⟩) (devAt 10000000) (fun e => e.mode == modeBoot && e.fld SAFEISL_STAT_SSLATCH == 1) = true ∧
    c (.sstop ⟨0, 0, 0⟩) dev0 (fun e => e.fld SAFEISL_STAT_SSLATCH == 0 && e.island.presented.isEmpty) = true ∧
    c (.sstop ⟨0, 150, 2000⟩) (devAt 10000000) (fun e => e.energised 0 && e.island.presented.isEmpty) = true ∧
    (let d := { devAt 300000001 with island := { dev0.island with sstop := [(0, true)] } }
     d.energised 0 ≠ d.energised 1 ∧ d.island.differTold = false ∧ d.island.differSince + 500 * msTicks < d.ticks ∧
     c .sstopDiscrep d (fun e => e.hasFault fiSstopDiscrep 0) = true ∧
     c (.sstopReenergised ⟨1, 240, 5000⟩) d (fun e => e.energised 1) = true) := by decide +kernel

/-! ### Queba cores (chapters 5 to 7) -/

/-- The device with physical pair 0 ACTIVE and in the given state. -/
def run0 (x : Pair) (d : Dev := dev0) : Dev := (d.setPair 0 x).setFld (PAIRCTL_ROLE_STATE 0) stActive

/-- A pair whose two cores are the given core. -/
def both (k : Core) : Pair := { lead := k, shadow := k }

/-- An instruction memory with the given bundle at index 0. -/
def code (b : Nat) : Ram :=
  (List.range 4).foldl (fun m i => ramWrite m i i (b / 2 ^ (64 * i) % 2 ^ 64)) {}

/-- The no-op bundle with ISAFE. -/
def safeNop : Nat := encodeBundle { await := none, gate := none, isafe := true, limm := 0, moves := List.replicate 8 nopMove, imms := [] }

/-- A core at an ISAFE bundle with interrupts enabled. -/
def openCore : Core := { imem := code safeNop, psw := 3 }

/-- A bundle whose eight moves are guarded by the inverse of the guard that is always met. -/
def neverB : Bundle :=
  { await := none, gate := none, isafe := false, limm := 0, moves := List.replicate 8 ⟨true, 0, 0, 0, 0⟩, imms := [] }

/-- A core at that bundle, in the memory's last position, with a transfer that has one position left. -/
def neverCore : Core := { imem := code (encodeBundle neverB), transfers := [{ target := 4095, remain := 1 }] }

theorem witness_LockstepKept :
    (run0 (both {})).pairs.length = 16 ∧ (run0 (both {})).physOf ((run0 (both {})).lpairOf 0) = 0 ∧
    ((run0 (both {})).pair 0).lead = ((run0 (both {})).pair 0).shadow ∧
    c (.bundleIssue 0) (run0 (both {})) (fun e => (e.pair 0).lead.pc == 1 && (e.pair 0).shadow.pc == 1) = true := by decide +kernel

theorem witness_quiet :
    (run0 (both {})).quiet 0 ∧ (run0 (both openCore)).quiet 0 ∧
    (run0 { (both {}) with capture := [.response 0 3 false 0 5 0 0 0] }).quiet 0 := by
  unfold Dev.quiet; decide +kernel

theorem witness_BundleIssues :
    (run0 (both { neverCore with transfers := [] })).atBoundary 0 = true ∧ (run0 (both neverCore)).atBoundary 0 = true ∧
    ((run0 (both { neverCore with transfers := [] })).pair 0).boundary = some (.issue neverB) ∧
    ((run0 (both neverCore)).pair 0).boundary = some (.issue neverB) ∧
    (neverCore.issue ((run0 (both neverCore)).coreEnv 0) neverB).outs = [] ∧
    (neverCore.issue ((run0 (both neverCore)).coreEnv 0) neverB).notes = [] ∧ fetchNotes neverCore.imem neverCore.pc = [] ∧
    neverCore.land.liveMoves neverB neverB.moves 0 = [] ∧
    c (.bundleIssue 0) (run0 (both { neverCore with transfers := [] })) (fun e =>
      (e.pair 0).lead.pc == 1 && (e.pair 0).lead.isafeCount == 1) = true ∧
    c (.bundleIssue 0) (run0 (both neverCore)) (fun e => (e.pair 0).lead.pc == 4095 && (e.pair 0).lead.transfers.isEmpty) = true ∧
    c (.bundleIssue 0) (run0 (both { pc := 4095 })) (fun e => (e.pair 0).lead.pc == 0) = true := by decide +kernel

theorem witness_InputsAndControllers_capture :
    (run0 { (both {}) with capture := [.response 0 3 false 0 5 0 0 0] }).presents 0 = true ∧
    (run0 { (both {}) with capture := [.response 0 3 false 0 5 0 0 0] }).recoverable 0 = true ∧
    c (.tagCompletion 0 3) (run0 { (both {}) with capture := [.response 0 3 false 0 5 0 0 0] }) (fun e =>
      ((e.pair 0).lead.tag 3).value == 5 && ((e.pair 0).shadow.tag 3).st == .done && (e.pair 0).capture.isEmpty) = true ∧
    c (.tagCompletion 0 31) (run0 { (both {}) with capture := [.response 0 31 false 0 5 1 0 0, .halt] }) (fun e =>
      ((e.pair 0).lead.tag 31).st == .failed && (e.pair 0).capture == [.halt]) = true ∧
    c (.captureInput 0 false) (run0 { (both {}) with capture := [.irq (some (255, 15))] }) (fun e =>
      (e.pair 0).lead.visible == some (255, 15) && (e.pair 0).shadow.visible == some (255, 15)) = true ∧
    c (.captureInput 0 true) (run0 { (both {}) with capture := [.halt] }) (fun e =>
      e.fld (PAIRCTL_FSTAT_CAPTERR 0) == 1 && e.fld (PAIRCTL_FSTAT_MISMATCH 0) == 1) = true := by decide +kernel

theorem witness_InputsAndControllers_intc :
    edgeSource 128 = true ∧ edgeSource 191 = true ∧ edgeSource 192 = false ∧ edgeSource 247 = false ∧
    c (.interruptSourceEdge 0 128) dev0 (fun e => e.pendingAt 0 128 && !e.pendingAt 0 129) = true ∧
    c (.interruptSourceEdge 15 255) { dev0 with intc := [(15, { edges := 2 ^ 255 })] } (fun e =>
      (e.fld (INTC_LOST_LOST 15 7)).testBit 31) = true ∧
    c (.interruptSourceEdge 3 0) dev0 (fun e => !(e.intcOf 3).lines.testBit 0) = true ∧
    c (.swsetWrite 0 0x81) dev0 (fun e => e.pendingAt 0 248 && !e.pendingAt 0 249 && e.pendingAt 0 255) = true ∧
    dev0.pairs.length = 16 ∧ dev0.physOf 0 < 16 ∧
    c (.interruptPresentation 0) (sets { dev0 with intc := [(0, { edges := 2 ^ 130 + 2 ^ 128 + 2 ^ 129 })] }
      [(INTC_CFG_PRI 0 128, 3), (INTC_CFG_PRI 0 129, 7), (INTC_CFG_PRI 0 130, 7)]) (fun e =>
      (e.pair 0).capture == [.irq (some (129, 7))]) = true ∧
    c (.interruptPresentation 0) dev0 (fun e => (e.pair 0).capture == [.irq none]) = true := by decide +kernel

/-- A core that finds source 255 at priority 15 visible. -/
def irqCore : Core := { openCore with visible := some (255, 15), pc := 0, lc := 9, isafeCount := 4 }

theorem witness_EntriesTaken_interrupt :
    (run0 (both irqCore)).atBoundary 0 = true ∧ ((run0 (both irqCore)).pair 0).boundary = some (.interrupt 255 15) ∧
    irqCore.expiry = false ∧ irqCore.visible = some (255, 15) ∧ irqCore.freeBank = some 0 ∧
    irqCore.vector (intVector 255) = some 0 ∧
    c (.interruptEntry 0 []) (run0 (both irqCore)) (fun e => (e.pair 0).lead.level == 15 && (e.pair 0).lead.acked == 2 ^ 255 &&
      ((e.pair 0).lead.bank0.map (fun b => (b.pc, b.lc, b.psw))) == some (0, 9, 3)) = true := by decide +kernel

/-- A core before a bundle with the reserved code LIMM 7, if that is illegal. -/
def illegalCore : Core := { imem := code (2 ^ 256 - 1) }

/-- A core with tag 31 failed before an ISAFE bundle. -/
def failedCore : Core := { openCore with tags := [(31, { st := .failed, code := 1 })] }

theorem witness_EntriesTaken_exceptions :
    ((run0 (both illegalCore)).pair 0).boundary = some .illegal ∧ illegalCore.freeBank = some 0 ∧
    illegalCore.vector 0x1FE06 = some 0 ∧
    c (.preciseExceptionEntry 0 []) (run0 (both illegalCore)) (fun e => (e.pair 0).lead.level == 16 &&
      (e.pair 0).shadow.bank0.isSome) = true ∧
    ((run0 (both failedCore)).pair 0).boundary = some (.imprecise (some 31)) ∧
    failedCore.vector (excVector (causeOfError (failedCore.tag 31).code)) = some 0 ∧
    c (.impreciseExceptionEntry 0 []) (run0 (both failedCore)) (fun e => (e.pair 0).lead.level == 16 &&
      ((e.pair 0).lead.tag 31).st == .done) = true ∧
    ((run0 (both { pc := 4095, expiry := true, inflight := [⟨0, 0, 0, 2⟩] })).pair 0).boundary = some .expiry ∧
    ({ pc := 4095, expiry := true } : Core).vector 0x1FE1C = some 0 ∧
    c (.expiryTrapEntry 0) (run0 (both { pc := 4095, expiry := true, inflight := [⟨0, 0, 0, 2⟩] })) (fun e =>
      (e.pair 0).lead.level == 17 && (e.pair 0).lead.inflight.isEmpty && e.fld (KEEPER_EVPC_RPC 0) == 4095) = true := by decide +kernel

/-- What bank 1 holds. -/
def bank1 : Bank :=
  { transfers := [], psw := 3, level := 2, guards := 5, lc := 6, a := [(15, 7)], oports := [], rports := [], inflight := [],
    pc := 4095 }

/-- A core whose `rfi` from bank 1 is due, bank 0 being free. -/
def backCore : Core :=
  { transfers := [{ target := 4095, remain := 0, rfi := true }], level := 16, regs := [(0, 8), (16, 3)], lastBank := 1,
    bank1 := some bank1 }

theorem witness_ReturnsAndStarvation :
    (run0 (both backCore)).atBoundary 0 = true ∧ backCore.returnDue = true ∧ backCore.rfiBank = some 1 ∧
    (backCore.bank 1).isSome = true ∧
    backCore.transfers.find? (fun t => t.rfi && t.remain == 0) = some { target := 4095, remain := 0, rfi := true } ∧
    c (.returnRestore 0) (run0 (both backCore)) (fun e => let h := (e.pair 0).lead
      h.pc == 4095 && h.psw == 3 && h.level == 2 && h.reg 0 == 0 && h.reg 15 == 7 && h.reg 16 == 3 && h.bank1 == none) = true ∧
    (run0 (both { isafeCount := 128 })).pairRuns 0 = true ∧
    ((run0 (both { isafeCount := 128 })).pair 0).isafeMax ≤ 128 ∧
    c (.isafeStarve 0) (run0 (both { isafeCount := 128 })) (fun e => e.fld (INTC_FSTAT_STARVE 0) == 1 &&
      (e.pair 0).lead.starved) = true ∧
    c (.isafeStarve 0) (run0 (both { isafeCount := 128, starved := true })) (fun e => e.io == (run0 (both {})).io) = true := by decide +kernel

/-- A device whose banks nothing has written reads without an error. -/
theorem readable_of_empty (d : Dev) (h : d.mem.ram = {}) : d.readable := by
  intro inst _ w _
  have h0 : ramVote {} (bankKey inst w) = false := by
    simp [ramVote, ramValid, arrGet, mapGet, mapFind, popCount, bitOf]
  simp [h, ramRead, h0, WordRead.bad]

theorem witness_readable : dev0.readable := readable_of_empty dev0 rfl

theorem witness_CheckpointsTaken_due :
    (run0 { (both {}) with asked := true }).atBoundary 0 = true ∧
    c (.checkpointDue 0) (run0 { (both {}) with asked := true }) (fun e => (e.pair 0).due) = true ∧
    c (.checkpointDue 0) (run0 { (both {}) with immIssued := true }) (fun e => (e.pair 0).due) = true ∧
    effective 8000 48 - effective 1200 48 = 6800 ∧
    c (.checkpointDue 0) (run0 { (both {}) with segCount := 6800 }) (fun e => (e.pair 0).due) = true ∧
    c (.checkpointDue 0) (run0 { (both {}) with segCount := 6799 }) (fun e => !(e.pair 0).due) = true ∧
    c (.checkpointDue 0) (run0 (both { cb := List.replicate 249 { kind := .chk, addr := 0 } })) (fun e => (e.pair 0).due) = true ∧
    c (.checkpointDue 0) (run0 (both { undoReserved := 961 })) (fun e => (e.pair 0).due) = true ∧
    c (.checkpointDue 0) (run0 { (both {}) with happ := List.replicate 24 ⟨.depart 0, false⟩ }) (fun e => (e.pair 0).due) = true := by
  decide +kernel

/-- A pair at its K0, with source 3 acknowledged. -/
def atK0 : Pair := { (both { acked := 8, lc := 2, cb := [{ kind := .chk, addr := 5 }] }) with due := true, segCount := 7000 }

/-- The same pair, its segment closed in the retry. -/
def closed : Pair := { atK0 with phase := .closed, retried := true, ckNum := 2 ^ 32 - 1 }

theorem witness_CheckpointsTaken_commit :
    (run0 atK0).atBoundary 0 = true ∧ ((run0 atK0).pair 0).boundary = some .checkpoint ∧ atK0.lead = atK0.shadow ∧
    (∀ t < 32, (atK0.lead.tag t).st ≠ .pending) ∧ atK0.lead.lockAddr = none ∧ atK0.releasing = false ∧ atK0.deltaLeft = false ∧
    c (.checkpointK0 0) (run0 atK0) (fun e => (e.pair 0).phase == .closed && (e.pair 0).segCount == 7028 &&
      (e.pair 0).lead.cb == [{ kind := .chk, addr := 5 }, { kind := .ack, addr := 0, data := 8 }]) = true ∧
    (run0 closed).pairRuns 0 = true ∧ closed.phase = .closed ∧ closed.retried = true ∧
    c (.checkpointCommit 0 {}) (run0 closed) (fun e => (e.pair 0).releasing && (e.pair 0).rel == [{ kind := .chk, addr := 5 }] &&
      e.fld (PAIRCTL_CKNUM_CKNUM 0) == 0 && e.fld (PAIRCTL_FSTAT_RECOVERED 0) == 1 && (e.slotOf 0 true).valid) = true ∧
    effective 8000 48 ≤ 8000 ∧
    c (.segOverrun 0) (run0 { (both {}) with segCount := 8000 }) (fun e => e.fld (PAIRCTL_FSTAT_SEGOVR 0) == 1) = true ∧
    c (.segOverrun 0) (run0 { (both {}) with segCount := 8000, overrun := true }) (fun e => e.fld (PAIRCTL_FSTAT_SEGOVR 0) == 0) = true := by
  decide +kernel

/-- A pair whose commit buffer releases the given entries. -/
def releases (l : List CbEntry) : Pair := { (both {}) with rel := l, relShadow := l, releasing := true }

theorem witness_ReleaseProceeds :
    (releases [{ kind := .sig, addr := 3 }]).relShadow = [{ kind := .sig, addr := 3 }] ∧
    c (.commitBufferRelease 0) (run0 (releases [{ kind := .sig, addr := 3 }])) (fun e =>
      e.evt.produced == [{ prod := 325 }] && !(e.pair 0).releasing) = true ∧
    c (.commitBufferRelease 0) { run0 (releases [{ kind := .clr, addr := 7 }]) with
      evt := { latch := [(6, some ⟨1, 0⟩), (7, some ⟨2, 0⟩)] } } (fun e => e.latch 7 == none && e.latch 6 == some ⟨1, 0⟩) = true ∧
    c (.commitBufferRelease 0) { run0 (releases [{ kind := .ack, addr := 0, data := 2 ^ 128 }]) with
      intc := [(0, { edges := 2 ^ 128 + 2 ^ 129 })] } (fun e => !e.pendingAt 0 128 && e.pendingAt 0 129) = true ∧
    c (.commitBufferRelease 0) (run0 (releases [{ kind := .chk, addr := 63 }])) (fun e => (e.pair 0).rel.isEmpty) = true ∧
    targetOf false 0x10000000 = .bank 0 0 0 ∧ dev0.remap = false ∧
    c (.commitBufferRelease 0) (run0 (releases [{ kind := .store, addr := 0x10000000, size := 8, data := 5 }])) (fun e =>
      (e.pair 0).relSent && (e.pair 0).rel.length == 1 && e.fab.waiting.map (fun r => (r.req.addr, r.req.data)) == [(0x10000000, 5)]) = true ∧
    c (.commitBufferRelease 0) (run0 (releases [{ kind := .ioWrite, addr := 0x17FFFC, size := 4, data := 1 }])) (fun e =>
      e.fab.waiting.map (fun r => (r.req.addr, r.req.data)) == [(0x17FFFC, 1)]) = true ∧
    c (.commitBufferRelease 0) (run0 { releases [{ kind := .store, addr := 8 }] with relSent := true })
      (fun e => (e.pair 0).rel.length == 1 && e.fab.waiting.isEmpty) = true ∧
    c (.commitBufferRelease 0) (run0 (both {})) (fun e => (e.pair 0).rel.isEmpty) = true ∧
    c (.commitEntryFailure 0) (run0 { (both {}) with relFails := [(65535, 2 ^ 32 - 1)] }) (fun e =>
      e.fld (PAIRCTL_CERR_CODE 0) == 65535 && (e.pair 0).shadow.commitErr == some (65535, 2 ^ 32 - 1)) = true ∧
    c (.commitEntryFailure 0) (run0 { (both {}) with relFails := [(2, 0)], relFailed := true }) (fun e =>
      e.fld (PAIRCTL_CERR_MORE 0) == 1 && e.fld (PAIRCTL_CERR_CODE 0) == 0) = true ∧
    (dev0.slotOf 0 (dev0.restartSlot 0)).delta.length ≤ 1024 ∧
    c (.deltaApplied 0) (run0 { (both {}) with deltaLeft := true }) (fun e => !(e.pair 0).deltaLeft && (e.slotOf 0 false).applied) = true := by
  decide +kernel

/-- A pair with work to take back: registers and PC differ from its checkpoint stores. -/
def atWork : Pair :=
  { (both { pc := 9, regs := [(3, 4)], cb := [{ kind := .chk, addr := 0 }] }) with
    storeLead := { pc := 2, regs := [(1, 7)] }, storeShadow := { pc := 2, regs := [(1, 7)] }, segCount := 40 }

/-- The device in which pair 0, in its retry, has pair 1 as its spare. -/
def spared : Dev := (run0 { atWork with retried := true, spareEn := true, spareNum := 1 }).setPairState 1 stSpare

theorem witness_RecoveryAndMigration_mismatch :
    (run0 atWork).recoverable 0 = true ∧
    c (.lockstepMismatch 0 ⟨0, 11⟩) (run0 atWork) (fun e => (e.pair 0).lead.pc == 2 && (e.pair 0).lead.regs == [(1, 7)] &&
      (e.pair 0).retried && e.fld (PAIRCTL_LASTMM_LG 0) == 11 && e.fld (PAIRCTL_LASTMM_SEGCNT 0) == 10) = true ∧
    (run0 { atWork with retried := true }).spareOf 0 = none ∧
    c (.lockstepMismatch 0 ⟨3, 0⟩) (run0 { atWork with retried := true }) (fun e => (e.pair 0).lead.stopped && (e.pair 0).fencing &&
      e.fld (PAIRCTL_FSTAT_NOSPARE 0) == 1) = true ∧
    c (.pairFence 0) (inMode modeRun (run0 { atWork with fencing := true, vmv := 800 })) (fun e => e.pairState 0 == stFenced &&
      (e.pair 0).vmv == 0 && e.mode == modeDegraded) = true ∧
    c (.pairFence 0) (run0 { atWork with fencing := true, retiring := true }) (fun e => e.pairState 0 == stRetired) = true ∧
    c (.pairFence 0) (run0 atWork) (fun e => e.pairState 0 == stActive) = true := by decide +kernel

theorem witness_RecoveryAndMigration_spare :
    spared.pairs.length = 16 ∧ spared.bind.length = 16 ∧ spared.recoverable 0 = true ∧ spared.spareOf 0 = some 1 ∧
    spared.lpairOf 1 ≠ spared.lpairOf 0 ∧
    (spared.slotOf 0 (spared.restartSlot 0)).delta.length ≤ 1024 ∧
    (spared.pair 0).retried = true ∧ (spared.pair 0).dbg.halted = false ∧ (spared.pair 0).dbg.stepping = false ∧
    c (.spareFirstBundle 0) (run0 { (both {}) with movedFrom := some 1 } ((dev0.setPair 1 { (both {}) with releasing := true })))
      (fun e => e.io == (run0 (both {})).io && (e.pair 0).movedFrom == some 1) = true ∧
    ((run0 { (both {}) with movedFrom := some 1 }).pair 0).boundary.isSome = true ∧
    (run0 { (both {}) with movedFrom := some 1 }).pairRuns 0 = true ∧
    c (.spareFirstBundle 0) ((run0 { (both { imem := code (encodeBundle neverB) }) with movedFrom := some 1 }).setPairState 0 stRecovering)
      (fun e => e.pairState 0 == stActive && (e.pair 0).movedFrom == none && (e.pair 0).lead.pc == 1) = true := by decide +kernel

theorem witness_RecoveryAndMigration_designation :
    dev0.fld (PAIRCTL_LOCK_LOCK 0) = 0 ∧
    c (.spareDesignation 0 0x10) dev0 (fun e => e.fld (PAIRCTL_FSTAT_BADSPARE 0) == 1) = true ∧
    c (.spareDesignation 0 0x1F) dev0 (fun e => e.fld (PAIRCTL_FSTAT_BADSPARE 0) == 1) = true ∧
    c (.spareDesignation 0 0x0F) dev0 (fun e => e.fld (PAIRCTL_SPARE_SPARE 0) == 15 && e.fld (PAIRCTL_SPARE_SPEN 0) == 0) = true ∧
    c (.spareDesignation 0 0x1F) ((dev0.setPairState 15 stSpare).setFld (AGEING_PAIR_STEP 0) 48) (fun e =>
      e.fld (PAIRCTL_SPARE_SPEN 0) == 1 && e.fld (PAIRCTL_FSTAT_SLOWSPARE 0) == 1 && e.fld (PAIRCTL_FSTAT_BADSPARE 0) == 0) = true ∧
    c (.cmptestStart 15) dev0 (fun e => (e.pair 15).cmpTest) = true := by decide +kernel

theorem witness_quiet_spare :
    (run0 { (both { imem := code (encodeBundle neverB) }) with movedFrom := some 1 }).quiet 0 ∧
    ((run0 { (both { imem := code (encodeBundle neverB) }) with movedFrom := some 1 }).pair 0).boundary = some (.issue neverB) := by
  unfold Dev.quiet; decide +kernel

/-! ### Lantern and drive I/O (chapters 8 and 9) -/

/-- The device 100 lt on, timebase 0 enabled from a position interface, with one pole and no hysteresis unless given. -/
def tbDev (x : Timebase) (l : List (Fld × Nat) := []) : Dev :=
  (sets { dev0 with lantern := { dev0.lantern with lt := 100 } }
    ([(LANTERN_TBCFG_EN 0, 1), (LANTERN_TBCFG_SRC 0, 1), (LANTERN_TBCFG_POLES 0, 1)] ++ l)).setTb 0 x

/-- A sample at a quarter turn, taken at the end of the present lt. -/
def quarter : Sample := { angle := 2 ^ 46, rev := 0, revOk := true, time := 1600 }

theorem witness_SamplesFollowed_first :
    (tbDev { waiting := some quarter }).tbOn 0 = true ∧ (tbDev { waiting := some quarter }).tbSrc 0 = 1 ∧
    c (.timebaseSample 0 ⟨0, 0, 0⟩) (tbDev { waiting := some quarter }) (fun e => (e.tb 0).p == 2 ^ 46 && (e.tb 0).valid &&
      !(e.tb 0).moved && (e.tb 0).prev == some (2 ^ 46, 1600)) = true ∧
    c (.timebaseSample 0 ⟨0, 0, 0⟩) (tbDev { waiting := some quarter, lastTaken := some 92, prev := some (0, 1600), p := 5 }) (fun e =>
      (e.tb 0).p == 5 && (e.tb 0).prev == some (0, 1600)) = true := by decide +kernel

theorem witness_SamplesFollowed_move :
    c (.timebaseSample 0 ⟨0, 0, 0⟩) (tbDev { waiting := some quarter, prev := some (0, 0) }) (fun e =>
      (e.tb 0).p == 2 ^ 46 && (e.tb 0).moved && (e.tb 0).vel == BitVec.ofInt 32 (2 ^ 31 - 1)) = true ∧
    c (.timebaseSample 0 ⟨0, 0, 0⟩) (tbDev { waiting := some { quarter with angle := 2 ^ 47 + 1 }, prev := some (0, 0) }) (fun e =>
      (e.tb 0).p == 2 ^ 47 + 1 && !(e.tb 0).moved && (e.fld LANTERN_ISTAT_JUMP).testBit 0 && e.hasFault fiLtnJump 0) = true ∧
    c (.timebaseSample 0 ⟨0, 0, 0⟩) (tbDev { waiting := some { quarter with angle := 2 ^ 47 }, prev := some (0, 0) }) (fun e =>
      (e.tb 0).moved && e.fld LANTERN_ISTAT_JUMP == 0) = true ∧
    c (.timebaseSample 0 ⟨0, 0, 0⟩) (tbDev { waiting := some { quarter with angle := 100 * 65536 }, prev := some (0, 0), p := 150 * 65536, p0 := 150 * 65536 }
        [(LANTERN_TBHYST_HYST 0, 50)]) (fun e =>
      (e.tb 0).p == 150 * 65536 && (e.tb 0).held == some (100 * 65536)) = true ∧
    c (.timebaseSample 0 ⟨0, 0, 0⟩) (tbDev { waiting := some { quarter with angle := 100 * 65536 }, prev := some (0, 0), p := 151 * 65536, p0 := 151 * 65536 }
        [(LANTERN_TBHYST_HYST 0, 50)]) (fun e => (e.tb 0).p == 100 * 65536 && (e.tb 0).held == none) = true := by decide +kernel

theorem witness_SamplesFollowed_rest :
    c (.holdResume 0) (tbDev { held := some 5, p := 5, vel := 1 }) (fun e => (e.tb 0).held == none && (e.tb 0).p == 5) = true ∧
    c (.holdResume 0) (tbDev { held := some 4, p := 5, vel := 1 }) (fun e => (e.tb 0).held == some 4) = true ∧
    c (.adj 0 0xFFFFFFFF) (tbDev {}) (fun e => (e.tb 0).adj == -1 && (e.tb 0).adjAny) = true ∧
    c (.adj 1 0xFFFFFFFF) (tbDev {}) (fun e => (e.tb 1).adj == 0) = true ∧
    (tbDev {} [(LANTERN_TBCFG_SRC 0, 3)]).tbSrc 0 = 3 ∧
    c (.lineSampleDelivery 0 1) (tbDev {} [(LANTERN_TBCFG_SRC 0, 3), (LANTERN_TBLPOSA_ANGLE 0, 2), (LANTERN_TBLPOSR_REV 0, 65535),
      (LANTERN_TBLPOSR_REVOK 0, 1), (LANTERN_TBLTIMELO_TIME 0, 9)]) (fun e =>
      (e.tb 0).waiting == some ⟨2 * 65536, 65535, true, 2 ^ 32 + 9⟩) = true := by decide +kernel

/-- A mains timebase on channel 0 at 50 Hz, five million lt after reset, four cycles and more. -/
def mainsDev (x : Timebase) (l : List (Fld × Nat) := []) : Dev :=
  atLt 5000000 (tbDev x ([(LANTERN_TBCFG_SRC 0, 2), (LANTERN_TBMAINS_NOM 0, 50000)] ++ l))

theorem witness_TimebasesAndCrossings_states :
    dev0.fld LANTERN_LOCK_LOCK = 0 ∧
    c (.timebaseEnable 0 0xAC00FFFF) dev0 (fun e => e.tbOn 0 && e.tbSrc 0 == 1 && e.fld (LANTERN_TBCFG_SEL 0) == 0 &&
      e.fld (LANTERN_TBCFG_POLES 0) == 1 && e.fld (LANTERN_TBCFG_STALE 0) == 65535) = true ∧
    c (.timebaseEnable 0 0xAB200000) dev0 (fun e => e.fld (LANTERN_TBCFG_SEL 0) == 11 && e.fld (LANTERN_TBCFG_POLES 0) == 2) = true ∧
    c (.timebaseEnable 0 0x21300000) (tbDev { valid := true, vel := 3 } [(LANTERN_LOCK_LOCK, 1)]) (fun e =>
      !e.tbOn 0 && e.tbSrc 0 == 1 && e.fld (LANTERN_TBCFG_POLES 0) == 1 && !(e.tb 0).valid && (e.tb 0).vel == 3) = true ∧
    c (.ltnLoss 0) (atLt 600 (tbDev { valid := true, vel := 3 } [(LANTERN_TBCFG_STALE 0, 1)])) (fun e => !(e.tb 0).valid &&
      e.hasFault fiLtnLoss 0 && (e.tb 0).vel == 3) = true ∧
    c (.ltnLoss 0) (atLt 599 (tbDev { valid := true } [(LANTERN_TBCFG_STALE 0, 1)])) (fun e => (e.tb 0).valid) = true ∧
    c (.ltnLoss 0) (tbDev { valid := true }) (fun e => (e.tb 0).valid) = true ∧
    c (.mainsLock 0) (mainsDev { holdover := true, goodSince := some 3200000 }) (fun e => (e.tb 0).locked &&
      !(e.tb 0).holdover && (e.tb 0).returning) = true ∧
    c (.mainsLock 0) (mainsDev { goodSince := some 3200001 }) (fun e => !(e.tb 0).locked) = true ∧
    c (.mainsLock 0) (mainsDev {}) (fun e => !(e.tb 0).locked) = true := by decide +kernel

/-- A mains channel that has delivered 200 conversions in the last cycle, the oldest of them at `u`. -/
def fed (u : Nat) : List Nat := List.replicate 199 80000000 ++ [u]

theorem witness_TimebaseStates_holdover :
    c (.holdover 0) (mainsDev { locked := true, lockVel := 7, badSince := some 41600000, convTimes := fed 60800000 }
      [(LANTERN_TBCFG_POLES 0, 3)]) (fun e => (e.tb 0).holdover && (e.tb 0).vel == 21 && e.hasFault fiLtnLoss 0) = true ∧
    c (.holdover 0) (mainsDev { locked := true, offFreq := true, convTimes := fed 60800000 }) (fun e => (e.tb 0).holdover) = true ∧
    c (.holdover 0) (mainsDev { locked := true, convTimes := fed 60799999 }) (fun e => (e.tb 0).holdover) = true ∧
    c (.holdover 0) (mainsDev { locked := true, convTimes := List.replicate 199 80000000 }) (fun e => (e.tb 0).holdover) = true ∧
    c (.holdover 0) (mainsDev { locked := true, badSince := some 41600001, convTimes := fed 60800000 }) (fun e =>
      (e.tb 0).locked) = true := by decide +kernel

/-- Timebase 0 has moved up by 16 angle units in the present lt, comparator 255 and detector 127 standing at unit 4. -/
def crossing (l : List (Fld × Nat)) : Dev :=
  let d := tbDev { p := 16 * 65536, p0 := 0, moved := true } ([(LANTERN_CMPCFG_EN 255, 1), (LANTERN_CMPANGLE_ANGLE 255, 4)] ++ l)
  { d with lantern := { d.lantern with dets := [(127, { armed := true, angle := 4, gen := 2, since := 99 })] } }

theorem witness_TimebasesAndCrossings_crossing :
    ((crossing []).tb 0).moved = true ∧ (((crossing []).tb 0).p - ((crossing []).tb 0).p0).toInt = 16 * 65536 ∧
    (crossing []).cmpSince 255 < 100 ∧
    c (.comparatorCrossing 255) (crossing []) (fun e => e.fld (LANTERN_CMPSTAMPLO_STAMP 255) == 16 * 99 + 4 &&
      e.fld (LANTERN_CMPCFG_EN 255) == 0 && e.evt.produced == [{ prod := 255, stamp := some 1588 }]) = true ∧
    c (.comparatorCrossing 255) (crossing [(LANTERN_CMPCFG_MODE 255, 1), (LANTERN_CMPPERIOD_PERIOD 255, 13)]) (fun e =>
      e.fld (LANTERN_CMPANGLE_ANGLE 255) == 17 && e.fld (LANTERN_CMPCFG_EN 255) == 1 && e.cmpSince 255 == 100) = true ∧
    (crossing [(LANTERN_CMPCFG_DIR 255, 1)]).fld (LANTERN_CMPCFG_DIR 255) = 1 ∧
    c (.comparatorCrossing 255) (crossing [(LANTERN_CMPCFG_DIR 255, 1)]) (fun e => e.fld (LANTERN_CMPSTAT_FIRED 255) == 0) = true ∧
    c (.comparatorCrossing 254) (crossing []) (fun e => e.evt.produced.isEmpty) = true ∧
    ((crossing []).detector 15 7).armed = true ∧ ((crossing []).detector 15 7).down = !true ∧
    c (.gateRelease 15 7) (crossing []) (fun e => (e.pair 15).capture == [.gate 7 2 0 4 false 1588] &&
      !(e.detector 15 7).armed) = true ∧
    c (.gateRelease 0 0) (crossing []) (fun e => (e.pair 0).capture.isEmpty) = true := by decide +kernel

/-- `crossing` with comparator 255 written in this lt: it stands at angle 9 now and stood at angle 4 before. -/
def rewritten : Dev :=
  let d := crossing [(LANTERN_CMPANGLE_ANGLE 255, 9)]
  { d with lantern := { d.lantern with cmpOld := [⟨255, 100, ⟨0, 0, false, 4, 0, true, 99⟩, false, true⟩] } }

theorem witness_CrossingsTaken_written :
    (rewritten.cmpBefore 255).isSome = true ∧ (crossing []).cmpBefore 255 = none ∧ (crossing []).cmpBefore 254 = none ∧
    c (.comparatorCrossing 255) rewritten (fun e => e.fld (LANTERN_CMPSTAMPLO_STAMP 255) == 16 * 99 + 4 &&
      e.fld (LANTERN_CMPANGLE_ANGLE 255) == 9 && e.evt.produced == [{ prod := 255, stamp := some 1588 }]) = true ∧
    c (.comparatorCrossing 255) (atLt 100 (crossing [(LANTERN_CMPANGLE_ANGLE 255, 9)])) (fun e =>
      e.fld (LANTERN_CMPSTAMPLO_STAMP 255) == 16 * 99 + 9) = true := by decide +kernel

theorem test_crossing_down :
    c (.comparatorCrossing 0) (tbDev { p := 0, p0 := 16 * 65536, moved := true }
      [(LANTERN_CMPCFG_EN 0, 1), (LANTERN_CMPANGLE_ANGLE 0, 0), (LANTERN_CMPCFG_DIR 0, 1)]) (fun e =>
      e.fld (LANTERN_CMPSTAMPLO_STAMP 0) == 1600) = true := by decide +kernel

/-- The device with PWM group 11 in the given state, at its safe levels unless said, no cause of force standing. -/
def pwmDev (G : PwmGroup) (l : List (Fld × Nat) := []) : Dev :=
  (sets dev0 ([(SAFEISL_STAT_FORCE, 0), (PWM_CFG_EN 11, 1), (PWM_CMPA_CMP 11 0, 77)] ++ l)).setGroup 11 G

/-- A valley or peak at the given edge step of lt 1, before which the shadow set had compare value 77 and RDY stood as given. -/
def passed (step : Nat) (rdy : Bool := false) : PwmEvent := { lt := 1, step := step, set := { cmpA := [77, 0, 0] }, rdy := rdy }

theorem witness_PwmGroups_events :
    c (.carrierValley 11) (pwmDev {}) (fun e => e.evt.produced.isEmpty) = true ∧
    c (.carrierPeak 11) (pwmDev {}) (fun e => e.evt.produced.isEmpty) = true ∧
    c (.carrierValley 11) (pwmDev { valleys := [passed 5, passed 6] } [(PWM_CFG_LDM 11, 0)]) (fun e =>
      e.evt.produced == [{ prod := 267, stamp := some 5 }] && (e.group 11).valleys == [passed 6] && (e.group 11).act.cmpA == [77, 0, 0] &&
      e.fld (PWM_ISTAT_LOAD 11) == 1 && !(e.group 11).safe) = true ∧
    c (.carrierValley 11) (pwmDev { valleys := [passed 5] } [(PWM_CFG_LDM 11, 1)]) (fun e => (e.group 11).act.cmpA == [0, 0, 0] &&
      e.fld (PWM_ISTAT_REPEAT 11) == 1 && e.fld (PWM_STAT_REPEAT 11) == 1) = true ∧
    c (.carrierValley 11) (pwmDev { valleys := [passed 5 true] } [(PWM_CFG_LDM 11, 1), (PWM_CTL_RDY 11, 1), (PWM_CFG_LDE 11, 2), (PWM_CTL_FORCE 11, 1)])
      (fun e => (e.group 11).act.cmpA == [77, 0, 0] && e.fld (PWM_CTL_RDY 11) == 0 && (e.group 11).safe) = true ∧
    c (.carrierValley 11) (pwmDev { valleys := [passed 5], act := { shape := true } } [(PWM_CFG_LDE 11, 1)]) (fun e =>
      (e.group 11).act == { shape := true }) = true ∧
    c (.carrierPeak 11) (pwmDev { peaks := [passed 9] } [(PWM_CFG_LDE 11, 1)]) (fun e => (e.group 11).act.cmpA == [77, 0, 0] &&
      e.evt.produced == [{ prod := 279, stamp := some 9 }]) = true ∧
    c (.carrierPeak 11) (pwmDev { peaks := [passed 9] }) (fun e => (e.group 11).act.cmpA == [0, 0, 0]) = true := by decide +kernel

theorem witness_PwmGroups_start :
    dev0.fld (PWM_CFG_EN 0) = 0 ∧ dev0.mode ≠ modeFog ∧ dev0.fld SAFEISL_STAT_FORCE = 1 ∧
    c (.pwmGroupEnable 0) (sets dev0 [(PWM_PERIOD_PERIOD 0, 64), (PWM_PHASE_PHASE 0, 65)]) (fun e => (e.group 0).k == 1 && (e.group 0).running &&
      (e.group 0).safe && e.fld (PWM_CTL_RDY 0) == 0) = true ∧
    c (.pwmGroupEnable 11) (pwmDev { k := 4 }) (fun e => (e.group 11).k == 4) = true ∧
    c (.pwmSync 0x800) (pwmDev { k := 4, act := { phase := 96000 } }) (fun e => (e.group 11).k == 0 &&
      (e.group 11).valleys == [{ lt := 0, step := 16, set := {}, rdy := false }]) = true ∧
    c (.pwmSync 0x800) (pwmDev { k := 4, act := { phase := 95999 } }) (fun e => (e.group 11).k == 95999 && (e.group 11).valleys == []) = true ∧
    c (.pwmSync 0x7FF) (pwmDev { k := 4 }) (fun e => (e.group 11).k == 4) = true ∧
    c (.pwmSync 0x800) (pwmDev { k := 4, act := { carr := true } }) (fun e => (e.group 11).k == 4) = true := by decide +kernel

/-- SDF input 35 is tripped and trips group 11. -/
def tripped (G : PwmGroup) : Dev :=
  (pwmDev G [(SDF_CFG_EN 35, 1), (PWM_TRIPSRC1_SRC 11, 8)]).setSdf 35 { high := true }

theorem witness_PwmGroups_forced :
    c (.swForce 11 true) (pwmDev { safe := false }) (fun e => (e.group 11).safe && e.fld (PWM_CTL_FORCE 11) == 1) = true ∧
    c (.swForce 11 false) (pwmDev { safe := true } [(PWM_CTL_FORCE 11, 1)]) (fun e => (e.group 11).safe && e.fld (PWM_CTL_FORCE 11) == 0) = true ∧
    c (.tripclr 11) (pwmDev { trip := true }) (fun e => !(e.group 11).trip && (e.group 11).safe) = true ∧
    ((tripped {}).tripMask 11).testBit 35 = true ∧ (tripped {}).sdfTripped 35 = true ∧
    c (.tripLatchSet 11) (tripped { safe := false }) (fun e => (e.group 11).trip && (e.group 11).safe && e.hasFault fiOcTrip 11 &&
      e.evt.produced == [{ prod := 291, stamp := some 0 }]) = true ∧
    c (.tripLatchSet 11) (tripped { safe := false, trip := true }) (fun e => !(e.group 11).safe) = true ∧
    c (.tripLatchSet 11) (pwmDev { safe := false }) (fun e => !(e.group 11).trip) = true ∧
    (0x3F : BitVec 6).toNat ≠ (pwmDev {}).pwmCmd 11 ∧
    c (.pwmPinerr 11 0x3F) (pwmDev { differ := [0, 0, 0, 0, 0, 121] }) (fun e => e.fld (PWM_ISTAT_PINERR 11) == 1 &&
      e.hasFault fiPinerr 11 && e.pwmPins 11 == 0x3F && e.pwmCmd 11 == 0) = true ∧
    c (.pwmPinerr 11 0x3F) (pwmDev { differ := List.replicate 6 120 }) (fun e => e.fld (PWM_ISTAT_PINERR 11) == 0 &&
      e.pwmPins 11 == 0x3F) = true ∧
    c (.pwmPinerr 11 0) (pwmDev { differ := [121, 0, 0, 0, 0, 0] }) (fun e => e.fld (PWM_ISTAT_PINERR 11) == 0) = true ∧
    (pwmDev {}).pwmCmd 11 = 0 := by decide +kernel

/-- SDF input 35 enabled with FOSR 2, DEC 4, FCNT 2 and thresholds 3 and -3. -/
def sdfDev (x : SdfInput) (l : List (Fld × Nat) := []) : Dev :=
  (sets (devAt 1200) ([(SDF_CFG_EN 35, 1), (SDF_CFG_FOSR 35, 2), (SDF_CFG_DEC 35, 4), (SDF_CFG_FCNT 35, 2), (SDF_FTHR_HI 35, 3),
    (SDF_FTHR_LO 35, 65533)] ++ l)).setSdf 35 x

theorem witness_DriveInputs_sdf :
    (sdfDev {}).fld (SDF_CFG_EN 35) = 1 ∧ 1 ≤ (sdfDev {}).fld (SDF_CFG_FCNT 35) ∧
    c (.sdfFastTrip 35 [true]) (sdfDev { bits := [true, true, true], toNext := 2, hiRun := 1 }) (fun e =>
      (e.sdf 35).high && e.fld (SDF_ISTAT_TRIPH 35) == 1 && e.fld (SDF_FAST_FAST 35) == 4 && (e.sdf 35).toNext == 1 &&
      e.fld (SDF_DATA_DATA 35) == 0) = true ∧
    c (.sdfFilterOutput 35 [true]) (sdfDev { bits := List.replicate 11 true, clocks := 11, toNext := 1 }) (fun e =>
      e.fld (SDF_DATA_DATA 35) == 64 && e.fld (SDF_ISTAT_DRDY 35) == 1 && (e.sdf 35).toNext == 4 && !(e.sdf 35).high) = true ∧
    c (.sdfTripEnd 35 [false]) (sdfDev { bits := [true, true, true], toNext := 2, high := true }) (fun e => !(e.sdf 35).high) = true ∧
    c (.sdfFastTrip 35 [false]) (sdfDev { bits := [false, false, false], toNext := 2, loRun := 1 }) (fun e => (e.sdf 35).low &&
      e.fld (SDF_ISTAT_TRIPL 35) == 1) = true ∧
    c (.sdfCkloss 35) (sdfDev {}) (fun e => e.fld (SDF_ISTAT_CKLOSS 35) == 1 && e.sdfTripped 35) = true ∧
    c (.sdfCkloss 35) (sdfDev { lastClock := 1 }) (fun e => e.fld (SDF_ISTAT_CKLOSS 35) == 0) = true ∧
    c (.sdfClockReturn 35) (sdfDev { lost := true }) (fun e => !(e.sdf 35).lost && (e.sdf 35).lastClock == 1200) = true ∧
    c (.sdfSnapshot true) dev0 (fun e => e.evt.latch.isEmpty) = true ∧
    c (.sdfSnapshot true) ((sdfDev { toNext := 1 } [(SDF_SNAPMB1_MASK, 8), (SDF_DATA_DATA 35, 123), (SDF_CFG_RST 35, 1)]).setLatch 135 (some ⟨0, 0⟩))
      (fun e => e.latch 135 == none && e.fld (SDF_SNAPB_DATA 35) == 123 && (e.sdf 35).toNext == 4) = true := by decide +kernel

/-- Converter 5 enabled with the given TRIG, at 95 lt. -/
def adcDev (trig : Nat) (x : AdcSt := {}) : Dev :=
  let d := atLt 95 (sets dev0 [(ADC_CFG_EN 5, 1), (ADC_CFG_TRIG 5, trig), (ADC_CFG_LEN 5, 1), (ADC_CFG_S0 5, 3)])
  { d with drive := { d.drive with adc := [(5, x)] } }

/-- A sequence of two slots whose last conversion ends at 96 + 3840. -/
def adcSeq : AdcSt := { seq := some { t0 := 96, slots := [3, 0], trig := none } }

theorem witness_DriveInputs_adc :
    c (.adcSequenceStart 5) (adcDev 2) (fun e => (e.adc 5).seq == some { t0 := 1536, slots := [3, 0], trig := none }) = true ∧
    c (.adcSequenceStart 5) ((adcDev 0 { lastEnd := some 960 }).setLatch 133 (some ⟨7, 1⟩)) (fun e =>
      (e.adc 5).seq == some { t0 := 960, slots := [3, 0], trig := some ⟨7, 1⟩ } && e.latch 133 == none) = true ∧
    c (.adcSequenceStart 5) (adcDev 0) (fun e => (e.adc 5).seq == none) = true ∧
    c (.adcStart 5) (adcDev 1) (fun e => (e.adc 5).seq.isSome) = true ∧
    c (.adcStart 5) (adcDev 1 adcSeq) (fun e => e.fld (ADC_ISTAT_SWOVR 5) == 1) = true ∧
    c (.adcSequenceDone 5 [0, 0]) (atLt 245 (adcDev 1 adcSeq)) (fun e => (e.adc 5).seq.isSome) = true ∧
    c (.adcSequenceDone 5 [3000000, 1500000]) (atLt 246 (adcDev 1 adcSeq)) (fun e => e.fld (ADC_RES_DATA 5 0) == 65535 &&
      e.fld (ADC_RES_DATA 5 1) == 32768 && e.fld (ADC_RES_SEQCNT 5 0) == 1 && e.fld (ADC_STAMPLO_STAMP 5) == 672 &&
      (e.adc 5).seq == none) = true := by decide +kernel

/-- Position interface 11 enabled in the given mode. -/
def posDev (mode : Nat) (x : PosIf := {}) (l : List (Fld × Nat) := []) : Dev :=
  (sets (atLt 1000 dev0) ([(POSIF_CFG_EN 11, 1), (POSIF_CFG_MODE 11, mode), (POSIF_CFG_SPER 11, 600)] ++ l)).setPosIf 11 x

theorem witness_DriveInputs_position :
    (posDev 0).posMode 11 0 = true ∧ (posDev 1).posMode 11 1 = true ∧ (posDev 2).posMode 11 2 = true ∧
    c (.resolverSample 11 8191 0 false) (posDev 0) (fun e => e.fld (POSIF_ISTAT_AMPLO 11) == 1 && e.evt.produced.isEmpty) = true ∧
    c (.resolverSample 11 8192 0 false) (posDev 0) (fun e => e.fld (POSIF_ISTAT_AMPLO 11) == 0 &&
      (e.fld (POSIF_POS_ANGLE 11) == 0x40000000 || e.fld (POSIF_POS_ANGLE 11) == 0x40010000) &&
      e.evt.produced == [{ prod := 309, stamp := some 16000 }]) = true ∧
    c (.resolverSample 11 31130 0 false) (posDev 0) (fun e => e.fld (POSIF_ISTAT_AMPHI 11) == 1) = true ∧
    c (.abzEdge 11 true true) (posDev 1) (fun e => e.fld (POSIF_ISTAT_QERR 11) == 1 && e.hasFault fiPosErr 11) = true ∧
    c (.abzEdge 11 true false) (posDev 1) (fun e => e.fld (POSIF_COUNT_COUNT 11) == 1) = true ∧
    c (.abzEdge 11 false true) (posDev 1) (fun e => e.fld (POSIF_COUNT_COUNT 11) == 0xFFFFFFFF) = true ∧
    c (.zIndexEdge 11) (posDev 1 { count := 9 } [(POSIF_ABZ_ZMODE 11, 0), (POSIF_ABZ_FLT 11, 0)]) (fun e => (e.posIf 11).count == 9 &&
      e.evt.produced == [{ prod := 321, stamp := some 16000 }]) = true ∧
    c (.zIndexEdge 11) (posDev 1 { count := 9 } [(POSIF_ABZ_ZMODE 11, 1)]) (fun e => (e.posIf 11).count == 0 && (e.posIf 11).zSeen) = true ∧
    c (.zIndexEdge 11) (posDev 1 { count := 4097, zSeen := true } [(POSIF_ABZ_ZMODE 11, 2), (POSIF_ABZ_CPR 11, 4096)]) (fun e =>
      (e.posIf 11).count == 4096 && e.fld (POSIF_ISTAT_ZERR 11) == 1) = true := by decide +kernel

theorem witness_DriveInputs_delivery :
    c (.abzSampleDelivery 11) (posDev 1 { lastDeliver := 401 }) (fun e => e.evt.produced.isEmpty) = true ∧
    c (.abzSampleDelivery 11) (posDev 1 { lastDeliver := 400, count := -1 } [(POSIF_ABZ_CPR 11, 4)]) (fun e =>
      e.fld (POSIF_POS_ANGLE 11) == 0xC0000000 && e.fld (POSIF_REV_REV 11) == 65535 && e.fld (POSIF_REV_REVOK 11) == 1) = true ∧
    c (.ssiFrame 11 false [true, false, true] 0) (posDev 2 {} [(POSIF_SSI_LEN 11, 3), (POSIF_SSI_MTB 11, 1), (POSIF_SSI_STB 11, 2)])
      (fun e => e.fld (POSIF_ISTAT_SERR 11) == 1 && e.hasFault fiPosErr 11) = true ∧
    c (.ssiFrame 11 true [true, false, true] 0) (posDev 2 {} [(POSIF_SSI_LEN 11, 3), (POSIF_SSI_MTB 11, 1), (POSIF_SSI_STB 11, 2)])
      (fun e => e.fld (POSIF_POS_ANGLE 11) == 0x40000000 && e.fld (POSIF_REV_REV 11) == 1 && e.fld (POSIF_REV_REVOK 11) == 1) = true ∧
    c (.ssiFrame 11 true [true, false, true] 0) (posDev 2 { frameEnd := some 6400 } [(POSIF_SSI_LEN 11, 3),
      (POSIF_SSI_MTB 11, 0), (POSIF_SSI_STB 11, 2), (POSIF_SSI_PAR 11, 1), (POSIF_SSITIM_MONO 11, 1)])
      (fun e => e.fld (POSIF_POS_ANGLE 11) == 0x80000000 && e.fld (POSIF_REV_REVOK 11) == 0) = true := by decide +kernel

/-- Group 11 forced at tick 100 with safe-high outputs 0 and 3, at tick `n`. -/
def safeHigh (n : Nat) : Dev := { pwmDev { forcedAt := 100 } [(PWM_SAFE_SAFE 11, 65)] with ticks := n }

theorem witness_PwmForced_high :
    ((safeHigh 129).group 11).safe = true ∧ (safeHigh 129).held = false ∧
    (safeHigh 129).ticks < ((safeHigh 129).group 11).forcedAt + 30 ∧ (safeHigh 160).safeLevel 11 0 = 1 ∧
    (safeHigh 160).safeLevel 11 3 = 1 ∧ (safeHigh 160).safeLevel 11 1 ≠ 1 ∧
    ((safeHigh 160).group 11).forcedAt + 60 ≤ (safeHigh 160).ticks := by decide +kernel

theorem witness_SdfFilters_early :
    c (.sdfFilterOutput 35 [true]) (sdfDev { bits := List.replicate 11 true, clocks := 10, toNext := 1 }) (fun e =>
      e.fld (SDF_DATA_DATA 35) == 0 && e.fld (SDF_ISTAT_DRDY 35) == 0 && (e.sdf 35).toNext == 4) = true := by decide +kernel

/-! ### Memories, fabric and protection (chapters 10 and 11) -/

theorem witness_CheckCodeCorrects :
    (0xFFFFFFFFFFFFFFFF : Nat) < 2 ^ 64 ∧ 131071 < 2 ^ 17 ∧
    (let v := 0xFFFFFFFFFFFFFFFF
     let k := eccCheck v 131071
     ramRead (ramWrite {} 5 131071 v) 5 131071 = { value := v, kind := .clean, syn := 0, split := false } ∧
     (ramRead (ramPut {} 5 (v ^^^ 2 ^ 63) k) 5 131071).kind = .dataBit 63 ∧
     (ramRead (ramPut {} 5 v (k ^^^ 2 ^ 7)) 5 131071).kind = .checkBit ∧
     (ramRead (ramPut {} 5 (v ^^^ 2 ^ 63 ^^^ 2 ^ 0) k) 5 131071).bad = true ∧
     (ramRead (ramPut {} 5 v (k ^^^ 2 ^ 7 ^^^ 2 ^ 0)) 5 131071).bad = true ∧
     (ramRead (ramPut {} 5 (v ^^^ 2 ^ 0) (k ^^^ 2 ^ 0)) 5 131071).bad = true ∧
     ramVote {} 5 = false) := by decide +kernel

/-- The device with one data bit of word 8 of bank 87 flipped, the write-back waiting. -/
def flipped : Dev :=
  { dev0 with mem := { dev0.mem with ram := ramPut {} (bankKey 87 8) (5 ^^^ 4) (eccCheck 5 8), writeBacks := [{ inst := 87, word := 8 }] } }

/-- The same word with two data bits flipped. -/
def spoilt : Dev := { dev0 with mem := { dev0.mem with ram := ramPut {} (bankKey 87 8) (5 ^^^ 6) (eccCheck 5 8) } }

theorem witness_MemoryMaintained :
    flipped.mem.writeBacks.contains { inst := 87, word := 8 } = true ∧
    (ramRead (flipped.instRam 87).1 ((flipped.instRam 87).2 + 8) 8).bad = false ∧
    (ramRead (flipped.instRam 87).1 ((flipped.instRam 87).2 + 8) 8).corrected = true ∧
    ramVote (flipped.instRam 87).1 ((flipped.instRam 87).2 + 8) = true ∧
    c (.correctedWriteBack 87 8) flipped (fun e => ramRaw e.mem.ram (bankKey 87 8) == 5 && e.mem.writeBacks.isEmpty) = true ∧
    c (.correctedWriteBack 87 9) flipped (fun e => e.mem.writeBacks.length == 1) = true ∧
    c .scrubRead (sets flipped [(MEMCTL_SCRUB_EN, 0)]) (fun e => e.mem.scrubWord == 0) = true ∧
    c .bucketLeak (sets (devAt 600000) [(MEMCTL_BUCKET_LEAK, 1), (MEMCTL_INST_BUCKET 152, 3), (MEMCTL_INST_CECNT 152, 9)]) (fun e =>
      e.fld (MEMCTL_INST_BUCKET 152) == 2 && e.fld (MEMCTL_INST_CECNT 152) == 9 && e.mem.lastLeak == 600000) = true ∧
    c (.etctlWrite 0x80000057) dev0 (fun e => e.fld MEMCTL_ETCTL_INST == 87 && e.fld MEMCTL_ETCTL_EN == 1) = true ∧
    c (.etctlWrite 0x80000058) (inMode modeRun) (fun e => e.fld MEMCTL_ETCTL_INST == 0 && e.fld MEMCTL_ETCTL_EN == 0) = true := by
  decide +kernel

/-- The scrubber, enabled, at word 8 of bank 87. -/
def scrubAt (d : Dev) : Dev := sets { d with mem := { d.mem with scrubInst := 87, scrubWord := 8, writeBacks := [] } } [(MEMCTL_SCRUB_EN, 1)]

theorem witness_MemoryMaintained_scrub :
    (scrubAt spoilt).fld MEMCTL_SCRUB_EN = 1 ∧ (scrubAt spoilt).scrubTarget = some (87, 8) ∧ (scrubAt spoilt).testing 87 = false ∧
    c .scrubRead (scrubAt spoilt) (fun e => e.fld MEMCTL_ISTAT_SCRUBUE == 1 && e.fld (MEMCTL_INST_UECNT 87) == 1 &&
      e.hasFault fiMemUncorr 87 && e.mem.scrubWord == 9) = true ∧
    (scrubAt flipped).scrubTarget = some (87, 8) ∧
    c .scrubRead (scrubAt flipped) (fun e => e.mem.writeBacks.contains { inst := 87, word := 8 }) = true := by decide +kernel

/-- A request of logical pair `lp` (physical pair the same) at word 1 of the first bank of cluster 0. -/
def reqAt (id lp : Nat) (q : PairReq) : FabReq :=
  { id := id, lpair := lp, phys := lp, mark := 0, req := q, target := 0x20000008, route := [], since := 0 }

/-- The word is 0x1122334455667788 and the given requests are granted. -/
def granted (l : List FabReq) : Dev :=
  { dev0 with mem := { dev0.mem with ram := ramWrite {} (bankKey 32 1) 1 0x1122334455667788 }, fab := { granted := l } }

theorem witness_TargetsAnswer_one :
    (reqAt 7 15 { op := .ld, tag := 31, addr := 0x20000008, size := 8 }).goal = .bank 32 1 0 ∧
    (granted [reqAt 7 15 { op := .ld, tag := 31, addr := 0x20000008 }]).grantedReq 7 = some (reqAt 7 15 { op := .ld, tag := 31, addr := 0x20000008 }) ∧
    (granted [reqAt 7 15 { op := .ld, tag := 31, addr := 0x20000008 }]).brokenFor (reqAt 7 15 { op := .ld, tag := 31, addr := 0x20000008 }) = false ∧
    (ramRead (granted []).mem.ram (bankKey 32 1) 1).bad = false ∧
    c (.targetAccess [7]) (granted [reqAt 7 15 { op := .ld, tag := 31, addr := 0x20000008, size := 2 }]) (fun e =>
      (e.pair 15).capture == [.response 0 31 false 0 0x7788 0 0x20000008 0] && e.fab.granted.isEmpty) = true ∧
    c (.targetAccess [7]) (granted [reqAt 7 0 { op := .st, tag := 0, addr := 0x20000008, data := 2 ^ 64 + 9, rel := true }]) (fun e =>
      (ramRead e.mem.ram (bankKey 32 1) 1).value == 9) = true ∧
    (granted []).testing 32 = false := by decide +kernel

theorem witness_TargetsAnswer_two :
    (reqAt 1 3 { op := .st, tag := 0, addr := 0x20000008, data := 3 }).bankPlace = some (32, false, 1) ∧
    (reqAt 2 4 { op := .st, tag := 5, addr := 0x20000008, data := 4 }).bankPlace = some (32, true, 1) ∧
    c (.targetAccess [1, 2]) (granted [reqAt 1 3 { op := .st, tag := 0, addr := 0x20000008, data := 3 },
      reqAt 2 4 { op := .st, tag := 5, addr := 0x20000008, data := 4 }]) (fun e =>
      (ramRead e.mem.ram (bankKey 32 1) 1).value == 3 && e.fld MEMCTL_COLL_AMST == 3 && e.fld MEMCTL_COLL_BMST == 4 &&
      (e.pair 4).capture == [.response 0 5 false 0 (2 ^ 63 + 4) 4 0x20000008 0] && e.fld MEMCTL_COLL_COUNT == 1) = true ∧
    (let r := reqAt 1 3 { op := .st, tag := 6, addr := 0x20000008, data := 3, lockMark := true }
     let d := { granted [r] with fab := { granted := [r], broken := 8 } }
     d.brokenFor r = true ∧
     c (.targetAccess [1]) d (fun e => (ramRead e.mem.ram (bankKey 32 1) 1).value == 0x1122334455667788 && e.fab.broken == 0 &&
       (e.pair 3).capture == [.response 0 6 false 0 (2 ^ 63 + 5) 5 0x20000008 0]) = true) ∧
    c (.fabProt 1 false) (granted [reqAt 1 3 { op := .st, tag := 6, addr := 0x20000008, data := 3 }]) (fun e =>
      e.hasFault fiFabProt 3 && e.fld FABRIC_PROT_DIR == 0 && (ramRead e.mem.ram (bankKey 32 1) 1).value == 0x1122334455667788 &&
      (e.pair 3).capture == [.response 0 6 false 0 (2 ^ 63 + 2) 2 0x20000008 0]) = true := by decide +kernel

/-- A request waiting at plane A of bank 32. -/
def waitAt (id lp since : Nat) (urgent : Option Nat := none) : FabReq :=
  { reqAt id lp { op := .ld, tag := 0, addr := 0x20000008 } with route := [.bank 32 false], since := since, urgentAt := urgent }

/-- The device 1,000 lt on with the given requests waiting and granted. -/
def queued (w g : List FabReq) : Dev := { devAt 1000 with fab := { waiting := w, granted := g } }

theorem witness_FabricGrants :
    (queued [waitAt 1 0 0] [waitAt 9 3 0]).fab.granted.any (fun r => r.at (.bank 32 false) && !r.syncRead) = true ∧
    c (.arbitrationGrant (.bank 32 false)) (queued [waitAt 1 0 0] [waitAt 9 3 0]) (fun e => e.fab.waiting.length == 1) = true ∧
    (queued [waitAt 1 5 0] []).lockedOut (.bank 32 false) (waitAt 1 5 0) = false ∧
    c (.arbitrationGrant (.bank 32 false)) { queued [waitAt 1 5 0] [] with fab := { waiting := [waitAt 1 5 0], locks := [⟨4, 32, 0, 0⟩] } }
      (fun e => e.fab.waiting.length == 1) = true ∧
    (queued [waitAt 1 5 300, waitAt 2 4 10] []).presentedAt (.bank 32 false) = [waitAt 2 4 10, waitAt 1 5 300] ∧
    c (.arbitrationGrant (.bank 32 false)) (queued [waitAt 1 5 300, waitAt 2 4 10] []) (fun e => e.fab.granted.map FabReq.id == [2]) = true ∧
    c (.arbitrationGrant (.bank 32 false)) (queued [waitAt 1 5 300 (some 900), waitAt 2 4 10] []) (fun e =>
      e.fab.granted.map FabReq.id == [1] && e.fld FABRIC_URG_MAXWAIT == 1050) = true ∧
    (queued [waitAt 1 5 0] []).fab.waiting.find? (fun x => x.id = 1) = some (waitAt 1 5 0) ∧
    (queued [waitAt 1 5 0] []).waitOf (waitAt 1 5 0) = 1500 ∧
    c (.requestUrgent 1) (sets (queued [waitAt 1 5 0] []) [(FABRIC_ARB_URGENT_AGE, 1500)]) (fun e =>
      (e.fab.waiting.map FabReq.urgentAt) == [some 1000] && e.fld FABRIC_URG_COUNT == 1) = true := by decide +kernel

/-- A denied store of pair 3. -/
def denial : Denial :=
  { master := 3, addr := 0x20000008, write := true, user := false, fixed := false, noMatch := true,
    req := some (reqAt 1 3 { op := .st, tag := 6, addr := 0x20000008 }) }

theorem witness_LocksBreak :
    c (.lockBreak 32) (sets { devAt 1000 with fab := { locks := [⟨15, 32, 2 ^ 32 - 1, 0⟩] } } [(FABRIC_LOCKMAX_LOCK_MAX, 1500)]) (fun e =>
      e.fab.locks.isEmpty && e.fab.broken == 2 ^ 15 && e.fld FABRIC_LKADDR_ADDR == 2 ^ 32 - 1 && e.hasFault fiLockbreak 15) = true ∧
    c (.lockBreak 32) (sets { devAt 1000 with fab := { locks := [⟨15, 32, 2 ^ 32 - 1, 0⟩] } } [(FABRIC_LOCKMAX_LOCK_MAX, 1501)]) (fun e =>
      e.fab.locks.length == 1) = true ∧
    (dev0.pair (dev0.physOf 3)).mark = 0 ∧ dev0.fld MPU_ISTAT_DENY = 0 ∧
    c .mpuDeny { dev0 with fab := { denials := [denial] } } (fun e => e.fld MPU_DENY_MASTER == 3 && e.fld MPU_DENYADDR_ADDR == 0x20000008 &&
      e.hasFault fiMpuDeny 3 && (e.pair 3).capture == [.response 0 6 false 0 (2 ^ 63 + 3) 3 0x20000008 0]) = true ∧
    c .mpuDeny { sets dev0 [(MPU_ISTAT_DENY, 1), (MPU_DENY_MASTER, 9)] with fab := { denials := [denial] } } (fun e =>
      e.fld MPU_DENY_MASTER == 9 && e.fld MPU_DENY_COUNT == 1) = true ∧
    dev0.mpuCheck 30 { io := false, addr := 0x11B00000, size := 8, rd := false, wr := true } = some (true, false) ∧
    dev0.mpuCheck 0 { io := false, addr := 0x11FFFFFF, size := 1, rd := false, wr := true } = some (true, false) ∧
    dev0.mpuCheck 0 { io := false, addr := 0x12000000, size := 8, rd := false, wr := true } ≠ some (true, false) ∧
    c (.mpuSync 3) { queued [waitAt 1 5 0] [] with mpu := { replaced := [(3, [2])] } } (fun e => e.mpu.replaced.isEmpty) = true ∧
    c (.mpuSync 3) { queued [waitAt 1 5 0] [] with mpu := { replaced := [(3, [1])] } } (fun e => e.mpu.replaced == [(3, [1])]) = true := by
  decide +kernel

/-- Region 0 covers lines 0 to 5 of the data space, region 1 begins at the given line. -/
def touching (base : Nat) : Dev :=
  sets dev0 [(MPU_RATTR_EN 4 0, 1), (MPU_RLIMIT_LIMIT 4 0, 5), (MPU_RATTR_EN 4 1, 1), (MPU_RBASE_BASE 4 1, base), (MPU_RLIMIT_LIMIT 4 1, 9)]

theorem witness_RegionSets :
    dev0.fld MPU_LOCK_LOCK = 0 ∧
    c (.mpuEnable 4 0x80010000) (sets dev0 [(MPU_CTL_GEN 4, 65535)]) (fun e => (e.mpuSet 4).nodef && e.fld (MPU_CTL_GEN 4) == 0) = true ∧
    c (.mpuEnable 4 0x00010000) dev0 (fun e => e.mpu.sets.isEmpty && e.fld (MPU_CTL_NODEF 4) == 1) = true ∧
    c (.mpuEnable 4 0x80000000) (sets dev0 [(MPU_LOCK_LOCK, 1)]) (fun e => e.fld (MPU_CTL_GEN 4) == 0) = true ∧
    c (.mpuEnable 4 0x80000000) (sets dev0 [(MPU_RATTR_EN 4 15, 1), (MPU_RBASE_BASE 4 15, 2), (MPU_RLIMIT_LIMIT 4 15, 1)]) (fun e =>
      e.fld MPU_ISTAT_BADREG == 1 && e.fld MPU_OVL_RA == 15 && e.fld MPU_OVL_RB == 15 && e.mpu.sets.isEmpty) = true ∧
    c (.mpuEnable 4 0x80000000) (touching 5) (fun e => e.fld MPU_ISTAT_OVERLAP == 1 && e.fld MPU_OVL_RA == 0 && e.fld MPU_OVL_RB == 1 &&
      e.mpu.sets.isEmpty) = true ∧
    c (.mpuEnable 4 0x80000000) (touching 6) (fun e => e.fld MPU_ISTAT_OVERLAP == 0 && e.mpu.sets.length == 1) = true := by decide +kernel

/-! ### Events, island and Keeper (chapters 12 and 13) -/

theorem witness_ChannelWiring :
    (511 : Nat) < 512 ∧ (6 : Nat) < 7 ∧
    c (.eventEmission 1) (sets { dev0 with evt := { produced := [{ prod := 511, stamp := some (2 ^ 32 + 5), hop := 6 }] } }
      [(EVTMX_PEN_PEN 63, 0x8000), (EVTMX_CEN1_CEN 383, 2 ^ 31), (EVTMX_CEN1_CEN 0, 2 ^ 31)]) (fun e =>
      e.fld (EVTMX_CNT_COUNT 63) == 1 && (e.fld (EVTMX_CHFLAG_FLAG 1)).testBit 31 && e.fld (EVTMX_STAMPLO_STAMP 63) == 5 &&
      e.evt.due.flatten.map Deliv.input == [0, 383]) = true ∧
    c (.eventEmission 1) (sets { dev0 with evt := { produced := [{ prod := 64, stamp := some 0 }] } } [(EVTMX_PEN_PEN 0, 2), (EVTMX_PEN_PEN 8, 0x100)])
      (fun e => e.fld (EVTMX_CNT_COUNT 0) == 1 && e.fld (EVTMX_CNT_COUNT 8) == 1 && e.fld (EVTMX_CNT_COUNT 1) == 0) = true := by decide +kernel

/-- A trigger due at an input. -/
def due (input : Nat) (e : EvtSt := {}) : Dev := { dev0 with evt := { e with due := [[⟨input, ⟨9, 1⟩, false⟩]] } }

theorem witness_EventsDelivered :
    c .eventDelivery (due 127 { waits := [(127, 2)] }) (fun e => (e.pair 15).capture == [.event 127 9] && e.waitsOf 127 == 1) = true ∧
    c .eventDelivery (due 128 { waits := [(128, 2)] }) (fun e => e.latch 128 == some ⟨9, 1⟩) = true ∧
    c .eventDelivery (due 127) (fun e => e.latch 127 == some ⟨9, 1⟩ && (e.pair 15).capture.isEmpty) = true ∧
    c .eventDelivery (due 383 { latch := [(383, some ⟨1, 0⟩)] }) (fun e => e.latch 383 == some ⟨1, 0⟩ && e.fld (EVTMX_CSTAT_OVR 383) == 1 &&
      e.fld (EVTMX_CCNT_OVRCNT 383) == 1) = true ∧
    c .waitRequestArrival { dev0 with evt := { requests := [8], latch := [(8, some ⟨4, 0⟩)] } } (fun e =>
      (e.pair 1).capture == [.event 8 4] && e.latch 8 == none) = true ∧
    c .waitRequestArrival { dev0 with evt := { requests := [8] } } (fun e => e.waitsOf 8 == 1) = true := by decide +kernel

theorem witness_EventsDelivered_registers :
    c .evtLoop { dev0 with evt := { produced := [{ prod := 1, hop := 6 }, { prod := 511, hop := 7, cons := 383 }] } } (fun e =>
      e.evt.produced.length == 1 && e.fld EVTMX_LOOPREC_PROD == 511 && e.fld EVTMX_LOOPREC_CONS == 383 && e.hasFault fiEvtLoop 511) = true ∧
    c .evtLoop { sets dev0 [(EVTMX_LOOPREC_VALID, 1), (EVTMX_LOOPREC_PROD, 3)] with evt := { produced := [{ prod := 511, hop := 7 }] } } (fun e =>
      e.fld EVTMX_LOOPREC_PROD == 3) = true ∧
    dev0.fld EVTMX_LOCK_LOCK = 0 ∧
    c (.cenWrite 383 true 0xFF) dev0 (fun e => e.fld (EVTMX_CEN1_CEN 383) == 0xFF) = true ∧
    c (.cenWrite 383 false 1) (sets dev0 [(EVTMX_CEN1_CEN 383, 0xFF)]) (fun e => e.fld (EVTMX_CEN0_CEN 383) == 0 && e.fld EVTMX_ISTAT_ENREF == 1) = true ∧
    c (.watchInputTake 344) { dev0 with evt := { latch := [(343, some ⟨1, 0⟩), (344, some ⟨2, 0⟩)] } } (fun e => e.latch 344 == none &&
      e.latch 343 == some ⟨1, 0⟩) = true := by decide +kernel

/-- The given presentations wait for the island. -/
def faulted (l : List Presented) (m : List (Fld × Nat) := []) : Dev := sets { dev0 with island := { dev0.island with presented := l } } m

theorem witness_RecordClass :
    (faulted [⟨fiThermHi, 3, 1⟩]).nextFault = some (⟨fiThermHi, 3, 1⟩, []) ∧ fiThermHi < 256 ∧
    (faulted [⟨fiThermHi, 3, 1⟩]).mergesInto 63 fiThermHi 3 = false ∧
    c .faultProcessing (faulted [⟨fiThermHi, 3, 1⟩] [(SAFEISL_REACT_REACT fiThermHi, 5)]) (fun e => e.fld (SAFEISL_LOGW0_CLASS 0) == 5) = true ∧
    fixedInput 0 = false ∧ dev0.mode = modeBoot ∧ dev0.fld SAFEISL_LOCK_LOCK = 0 ∧
    c (.reactWrite 0 7) dev0 (fun e => e.fld (SAFEISL_REACT_REACT 0) == 5) = true ∧
    c (.reactWrite 0 5) (inMode modeConfig) (fun e => e.fld (SAFEISL_REACT_REACT 0) == 5) = true := by decide +kernel

/-- An input of class F1 whose default reaction is RECORD or INTERRUPT. -/
def plainIn : Nat := fiMpuDeny

theorem witness_PlainFaultRecorded :
    (faulted [⟨plainIn, 65535, 2⟩]).nextFault = some (⟨plainIn, 65535, 2⟩, []) ∧
    (faulted [⟨plainIn, 65535, 2⟩, ⟨plainIn, 7, 1⟩, ⟨fiThermHi, 3, 1⟩]).nextFault =
      some (if fiThermHi < plainIn then (⟨fiThermHi, 3, 1⟩, [plainIn]) else (⟨plainIn, 65535, 2⟩, [fiThermHi])) ∧ (faulted []).reactionOf plainIn 65535 ≤ 1 ∧
    classOf plainIn 65535 ((faulted []).reactionOf plainIn 65535) = 1 ∧ (faulted []).fld SAFEISL_LOGREAD_UNREAD ≤ 64 ∧
    c .faultProcessing (faulted [⟨plainIn, 65535, 2⟩] [(SAFEISL_LOGHEAD_NEXT, 63)]) (fun e => e.fld SAFEISL_LOGHEAD_NEXT == 0 &&
      e.fld (SAFEISL_LOGW0_DETAIL 63) == 65535 && e.fld (SAFEISL_REACT_COUNT plainIn) == 2 && e.fld SAFEISL_LOGREAD_UNREAD == 1) = true := by
  decide +kernel

theorem witness_IslandLanesAndLog :
    dev0.fld SAFEISL_STAT_LANES = 7 ∧
    c (.islVote 2) dev0 (fun e => e.fld SAFEISL_STAT_LANES == 3 && e.hasFault fiIslVote 2) = true ∧
    c .laneResync (sets dev0 [(SAFEISL_STAT_LANES, 3)]) (fun e => e.fld SAFEISL_STAT_LANES == 7) = true ∧
    c .laneDisagreementReset dev0 (fun e => e.backInBoot && e.island.keptCause == some (fiIslVote, 3)) = true ∧
    c (.logreadAck 5) (sets dev0 [(SAFEISL_LOGHEAD_NEXT, 2), (SAFEISL_LOGREAD_UNREAD, 4)]) (fun e => e.fld SAFEISL_LOGREAD_UNREAD == 0 &&
      e.fld SAFEISL_LOGREAD_OLDEST == 2) = true ∧
    c (.logreadAck 3) (sets dev0 [(SAFEISL_LOGHEAD_NEXT, 0), (SAFEISL_LOGREAD_UNREAD, 4)]) (fun e => e.fld SAFEISL_LOGREAD_OLDEST == 63) = true ∧
    c .clrcnt (sets dev0 [(SAFEISL_REACT_COUNT 255, 9)]) (fun e => e.fld (SAFEISL_REACT_COUNT 255) == 0) = true ∧
    (devAt (3600000000 * 600)).island.lastHour < (devAt (3600000000 * 600)).islandTime / 3600000000 ∧
    (sets (devAt (3600000000 * 600)) [(SAFEISL_REACT_COUNT plainIn, 1)]).plainInput plainIn = true ∧
    c .hourlyFaultCounts (sets (devAt (3600000000 * 600)) [(SAFEISL_REACT_COUNT plainIn, 1)]) (fun e => e.island.lastHour == 1 &&
      e.nvs.opened.any (fun j => j.type == 0x13)) = true ∧
    c .hourlyFaultCounts (devAt (3600000000 * 600)) (fun e => e.island.lastHour == 1 && e.nvs.opened.isEmpty) = true ∧
    c (.reactWrite 255 0) (inMode modeRun) (fun e => e.fld SAFEISL_ISTAT_WREFUSED == 1) = true ∧
    c (.reactWrite 0 5) (sets dev0 [(SAFEISL_LOCK_LOCK, 1)]) (fun e => e.fld SAFEISL_ISTAT_WREFUSED == 0) = true := by decide +kernel

/-- Keeper watches a window of ticks 4 to 9 that began at tick 0 of the device, served by pair 2, at the given tick. -/
def watching (t : Nat) (l : List (Fld × Nat) := []) : Dev :=
  sets { devAt t with keeper := {} } ([(KEEPER_LOCK_LOCK, 1), (KEEPER_STAT_STATE, 2), (KEEPER_CFG_SVCP, 2), (KEEPER_CFG_UNIT, 0), (KEEPER_CFG_ACT, 0), (KEEPER_CFG_HARD, 0),
    (KEEPER_WIN_OPEN, 4), (KEEPER_WIN_CLOSE, 10), (KEEPER_SVC_SVC, 0xA55A)] ++ l)

theorem witness_KeeperServed :
    dev0.fld KEEPER_LOCK_LOCK = 0 ∧
    c (.keeperEnable 0x183F0F00) (inMode modeRun) (fun e => e.fld KEEPER_STAT_STATE == 2 && e.fld KEEPER_LOCK_LOCK == 1 &&
      e.fld KEEPER_CFG_SVCP == 15 && e.fld KEEPER_CFG_ACT == 15) = true ∧
    c (.keeperEnable 0) dev0 (fun e => e.fld KEEPER_STAT_STATE == 1) = true ∧
    c (.keeperEnable 0) (watching 0) (fun e => e.fld KEEPER_CFG_SVCP == 2) = true ∧
    (watching 2400).fld KEEPER_STAT_STATE = 2 ∧ (watching 2400).keeper.expiring = none ∧ (watching 2400).kTick = 4 ∧
    (watching 5999).kTick = 9 ∧ (watching 6000).kTick = 10 ∧
    c (.svcWrite 3 0x5AA5) (watching 2400) (fun e => e.fld KEEPER_ISTAT_FOREIGN == 1 && e.fld KEEPER_SVC_SVC == 0xA55A) = true ∧
    c (.svcWrite 2 0x5AA4) (watching 2400) (fun e => e.fld KEEPER_ISTAT_DOUBLE == 1 && e.hasFault fiKprSvc 1) = true ∧
    c (.svcWrite 2 0x5AA5) (watching 2399 [(KEEPER_CFG_ACT, 1)]) (fun e => e.fld KEEPER_ISTAT_EARLY == 1 && e.keeper.expiring == some 1) = true ∧
    c (.svcWrite 2 0x5AA5) (watching 2400) (fun e => e.fld KEEPER_STAT_SERVED == 1 && e.fld KEEPER_SVC_SVC == 0x5AA5 &&
      e.fld KEEPER_LASTSVCLO_LASTSVC == 4) = true ∧
    c (.svcWrite 2 0x5AA5) (watching 5999 [(KEEPER_STAT_SERVED, 1)]) (fun e => e.fld KEEPER_ISTAT_EXTRA == 1 && e.hasFault fiKprSvc 2) = true := by
  decide +kernel

/-- A release of pair 2 whose head is a check-in of task 63. -/
def checking (l : List (Fld × Nat)) : Dev := 
  (watching 0 l).setPair 2 { (both {}) with rel := [{ kind := .chk, addr := 63 }], relShadow := [{ kind := .chk, addr := 63 }], releasing := true }

theorem witness_KeeperCheckIn :
    (checking []).pairs.length = 16 ∧ ((checking []).pair 2).rel = [{ kind := .chk, addr := 63 }] ∧ (checking []).lpairOf 2 = 2 ∧
    ((checking []).closeDue.pair 2).relShadow = [{ kind := .chk, addr := 63 }] ∧
    c (.checkIn 2) (checking [(KEEPER_TASK_EN 63, 1), (KEEPER_TASK_OWNER 63, 2), (KEEPER_TASK_COUNT 63, 255)]) (fun e =>
      e.fld (KEEPER_TASK_COUNT 63) == 255 && e.fld KEEPER_LASTCHK_TASK == 63 && (e.pair 2).rel.isEmpty) = true ∧
    c (.checkIn 2) (checking [(KEEPER_TASK_EN 63, 1), (KEEPER_TASK_OWNER 63, 3)]) (fun e => e.fld KEEPER_ISTAT_FOREIGN == 1 &&
      e.hasFault fiKprTask (0x8000 + 63) && e.keeper.expiring == none) = true ∧
    c (.checkIn 2) (checking []) (fun e => e.fld KEEPER_ISTAT_UNSUP == 1 && e.fld (KEEPER_TASK_COUNT 63) == 0) = true := by decide +kernel

theorem witness_KeeperWindowsAndExpiry :
    (watching 6000).keeper.winStart + (watching 6000).fld KEEPER_WIN_CLOSE * (watching 6000).ktTicks ≤ 6000 ∧
    c .windowClose (watching 6000) (fun e => e.keeper.expiring == some 0) = true ∧
    c .windowClose (watching 6000 [(KEEPER_STAT_SERVED, 1)]) (fun e => e.keeper.winStart == 6000 && e.fld KEEPER_STAT_SERVED == 0) = true ∧
    c .windowClose (watching 6000 [(KEEPER_STAT_SERVED, 1), (KEEPER_TASK_EN 31, 1), (KEEPER_TASK_MIN 31, 1), (KEEPER_CFG_ACT, 8)]) (fun e =>
      e.keeper.expiring == some 4 && (e.fld (KEEPER_TLO_FAIL 0)).testBit 31 && e.fld KEEPER_ISTAT_TASK == 1) = true ∧
    c .windowClose (watching 6000 [(KEEPER_STAT_SERVED, 1), (KEEPER_TASK_EN 63, 1), (KEEPER_TASK_MIN 63, 0), (KEEPER_TASK_MAX 63, 2), (KEEPER_TASK_COUNT 63, 3)])
      (fun e => e.hasFault fiKprTask 63 && e.keeper.expiring == none) = true ∧
    c .kprExpiry (run0 (both {}) { watching 600 with keeper := { expiring := some 7 } }) (fun e => e.fld KEEPER_EVSTAT_CAUSE == 7 &&
      e.hasFault fiKprExpiry 7 && e.forced && (e.pair 0).capture == [.expiry] && (e.pair 1).capture.isEmpty) = true ∧
    c .hardTimerEnd { watching 9600 with keeper := { hardStart := some 0 } } (fun e => e.forced && e.island.resetAfterSeal) = true ∧
    c .keeperClockTrip (watching 0) (fun e => e.keeper.expiring == some 5) = true ∧
    c .evstatClear (sets dev0 [(KEEPER_EVSTAT_VALID, 1), (KEEPER_EVPC_VALID 15, 1), (KEEPER_EVPC_RPC 15, 9)]) (fun e =>
      e.fld KEEPER_EVSTAT_VALID == 0 && e.fld (KEEPER_EVPC_VALID 15) == 0 && e.fld (KEEPER_EVPC_RPC 15) == 9) = true := by decide +kernel

/-! ### Modes and start-up (chapter 14) -/

/-- Both SSTOP inputs energised, no pair needed, lifecycle state `lcs`, in the given mode. -/
def ready (m : Nat) (lcs : Nat := 1) (l : List (Fld × Nat) := []) : Dev :=
  sets { dev0 with island := { dev0.island with sstop := [(0, true), (1, true)] }, trust := ({} : TrustSt).blowTo lcs }
    ([(SYSCTL_STAT_MODE, m), (SYSCTL_NEED_NEED, 0)] ++ l)

/-- The maker as the signer of a command. -/
def maker : CmdSrc := .signed 2 0

theorem witness_RunAndRefusals_run :
    (ready modeBoot).mayIssue .register 1 = true ∧ (ready modeBoot).runAllowed = true ∧ (ready modeBoot).covered = true ∧
    c (.run .register) (ready modeBoot) (fun e => e.mode == modeRun && e.fld SAFEISL_STAT_FORCE == 0 &&
      e.fld SYSCTL_CMDSTAT_STATUS == cmdDone && e.fld SYSCTL_STAT_PREV == modeBoot) = true ∧
    c (.run maker) (ready modeConfig 1 [(SAFEISL_STAT_SSLATCH, 1)]) (fun e => e.mode == modeSafeStop && e.forced &&
      e.fld SAFEISL_STAT_SSLATCH == 0) = true ∧
    c (.run .register) (ready modeSafeStop 1 [(PAIRCTL_ROLE_STATE 15, stRetired), (SAFEISL_STAT_SSLATCH, 1)]) (fun e => e.mode == modeDegraded) = true ∧
    c (.run .register) { ready modeBoot 1 [(SYSCTL_STAT_BOOTSLOT, 1)] with start := { starting := false, s7End := some 0 }, persist := { dev0.persist with actFail := 2 } }
      (fun e => e.fld SYSCTL_BOOTSTAT_CONFIRMED == 1 && e.persist.actSlot && e.persist.actFail == 0) = true := by decide +kernel

theorem witness_RunAndRefusals_refused :
    (dev0.mayIssue .register 1 = true ∧ dev0.conditionsMet 1 0 = false) ∧
    c (.run .register) dev0 (fun e => e.fld SYSCTL_CMDSTAT_STATUS == cmdRefused && e.fld SYSCTL_REFUSED_COUNT == 1) = true ∧
    c (.safeStop .register) dev0 (fun e => e.fld SYSCTL_CMDSTAT_STATUS == cmdRefused && e.fld SYSCTL_REFUSED_CODE == 2) = true ∧
    c (.standby .register) dev0 (fun e => e.fld SYSCTL_CMDSTAT_STATUS == cmdRefused) = true ∧
    c (.enterConfig maker) (ready modeRun) (fun e => e.fld SYSCTL_REFUSED_CODE == 4 && e.fld SYSCTL_REFUSED_MODE == modeRun) = true ∧
    c (.makerTest maker) (ready modeBoot 3) (fun e => e.fld SYSCTL_REFUSED_CODE == 5) = true ∧
    c (.clearFog maker) (ready modeFog 5) (fun e => e.fld SYSCTL_REFUSED_CODE == 6 && e.mode == modeFog) = true ∧
    c (.unfence maker 15) (ready modeConfig) (fun e => e.fld SYSCTL_REFUSED_CODE == 7) = true ∧
    (ready modeRun).mayIssue maker 4 = true ∧ permittedIn 4 modeRun = false ∧
    c (.enterConfig .register) dev0 (fun e => e.fld SYSCTL_CMDSTAT_STATUS == cmdSigreq) = true ∧
    c (.unknownCommand .register 9) dev0 (fun e => e.fld SYSCTL_CMDSTAT_STATUS == cmdUnknown && e.fld SYSCTL_CMDSTAT_CODE == 9) = true ∧
    c (.unknownCommand .register 0) dev0 (fun e => e.fld SYSCTL_CMDSTAT_STATUS == cmdUnknown) = true := by decide +kernel

theorem witness_SafeStopRefusesRun :
    (inMode modeSafeStop).mode = modeSafeStop ∧
    c (.sstopReenergised ⟨1, 150, 2000⟩) (inMode modeSafeStop) (fun e => e.mode == modeSafeStop) = true ∧
    (inMode modeSafeStop).mayIssue maker 1 = true ∧ (inMode modeSafeStop).energised 1 = false ∧
    c (.run maker) (inMode modeSafeStop) (fun e => e.fld SYSCTL_CMDSTAT_STATUS == cmdRefused && e.mode == modeSafeStop) = true := by
  decide +kernel

theorem witness_ModeChanges_modes :
    (ready modeRun).nvs.full = false ∧ (ready modeRun).mayIssue .register 2 = true ∧ permittedIn 2 modeRun = true ∧
    (ready modeRun).conditionsMet 2 0 = true ∧
    c (.safeStop .register) (ready modeRun) (fun e => e.mode == modeSafeStop && e.forced && e.fld SYSCTL_STAT_PREV == modeRun) = true ∧
    c (.standby .register) (ready modeConfig 1 [(SYSCTL_WAKE_ETH, 1)]) (fun e => e.mode == modeStandby && e.start.waitFrom == some 0) = true ∧
    c (.standby .register) (ready modeRun 1 [(SYSCTL_WAKE_TMR, 65535), (DEBUG_STAT_SESSION, 1)]) (fun e => e.fld SYSCTL_STAT_EMUL == 1) = true ∧
    c (.standby .register) (ready modeSafeStop) (fun e => e.fld SYSCTL_CMDSTAT_STATUS == cmdNowake && e.mode == modeSafeStop) = true ∧
    c (.enterConfig maker) { ready modeBoot with start := { starting := false, s7End := some 0 } } (fun e => e.mode == modeConfig &&
      e.fld SYSCTL_BOOTSTAT_CONFIRMED == 1) = true ∧
    c (.makerTest maker) (ready modeConfig 4) (fun e => e.mode == modeMaker && e.fld SYSCTL_CMDSTAT_STATUS == cmdDone) = true := by
  decide +kernel

theorem witness_ModeChanges_signed :
    (ready modeFog).mayIssue maker 6 = true ∧ (ready modeFog).lcs ≠ lcScrapped ∧
    c (.clearFog maker) { ready modeFog with persist := { dev0.persist with actFail := 2, altFail := 1 } } (fun e => e.backInBoot &&
      e.persist.actFail == 0 && e.persist.altFail == 0) = true ∧
    (ready modeConfig).mayIssue maker 7 = true ∧
    c (.unfence maker 15) (ready modeConfig 1 [(PAIRCTL_ROLE_STATE 15, stFenced), (PAIRCTL_ROLE_STATE 14, stFenced)]) (fun e =>
      e.pairState 15 == stOff && e.pairState 14 == stFenced && e.persist.unfenced.testBit 15) = true ∧
    c (.reset (.signed 0 0)) (ready modeRun) (fun e => e.backInBoot) = true := by decide +kernel

/-- In STANDBY since tick 0 with every wake source enabled. -/
def asleep (t : Nat) : Dev :=
  sets { devAt t with start := { starting := false, standbyAt := some 0, waitFrom := some 0 } }
    [(SYSCTL_STAT_MODE, modeStandby), (SYSCTL_WAKE_ETH, 1), (SYSCTL_WAKE_CAN, 15), (SYSCTL_WAKE_TMR, 1), (CANXL_CFG_EN 3, 1)]

theorem witness_StandbyAndStart_standby :
    (asleep 0).mode = modeStandby ∧ (asleep 0).start.waitFrom = some 0 ∧ (∀ p < 16, (asleep 0).pairState p = stActive → ((asleep 0).pair p).releasing = false) ∧
    c .standbyCompletion (asleep 0) (fun e => e.start.clocksOff && (e.pair 15).clockOff && e.mode == modeStandby) = true ∧
    c .standbyCompletion (run0 { (both {}) with releasing := true } (asleep 599999)) (fun e => !e.start.clocksOff) = true ∧
    c .standbyCompletion (run0 { (both {}) with releasing := true } (asleep 600000)) (fun e => e.start.clocksOff) = true ∧
    c (.wake .eth) (asleep 0) (fun e => e.backInBoot && e.fld SYSCTL_WAKESRC_SRC == 1) = true ∧
    c (.wake .timer) (asleep 600000000) (fun e => e.backInBoot && e.fld SYSCTL_WAKESRC_SRC == 6) = true ∧
    c (.wake (.can 0)) (asleep 0) (fun e => e.backInBoot && e.fld SYSCTL_WAKESRC_SRC == 2) = true ∧
    c (.canWakePattern 3) (asleep 0) (fun e => e.backInBoot && e.fld SYSCTL_WAKESRC_SRC == 5) = true ∧
    c (.wake .eth) (inMode modeStandby) (fun e => !e.backInBoot) = true := by decide +kernel

theorem witness_RefusedCommands_carrying :
    (asleep 0).carrying = true ∧ dev0.carrying = false ∧ (inMode modeSafeStop).carrying = false ∧
    c (.run maker) (asleep 0) (fun e => e.start.waiting == [(maker, 1, 0)] && e.mode == modeStandby &&
      e.fld SYSCTL_REFUSED_COUNT == 0) = true := by decide +kernel

theorem witness_StandbyAndStart_start :
    dev0.power.hotReset = false ∧ dev0.persist.intent = none ∧ (ready modeBoot 5).lcs = lcScrapped ∧
    ({ journalBad := false } : BootEnv).journalBad = false ∧ dev0.start.s7End = none ∧
    c .bootConfirmExpiry { devAt 6000000 with start := { starting := false, s7End := some 0, confirm := 1 } } (fun e => e.backInBoot &&
      e.persist.actFail == 1 && e.persist.actCause == 4) = true ∧
    c .bootConfirmExpiry { inMode modeBoot (devAt 6000000) with start := { starting := false, s7End := some 0, confirm := 1 }, persist := { dev0.persist with actSlot := true } }
      (fun e => e.backInBoot && e.persist.altFail == 1) = true ∧
    c .bootConfirmExpiry { devAt 5999999 with start := { starting := false, s7End := some 0, confirm := 1 } } (fun e => !e.backInBoot) = true := by
  decide +kernel

/-! ### Ethernet and CAN XL (chapter 15) -/

/-- A frame of `n` body bytes to a broadcast address. -/
def bcast (n : Nat) (stag : Bool := false) : Frame :=
  { dst := 2 ^ 48 - 1, src := 4, stag := stag, etype := 0x0800, body := List.replicate n 0 }

/-- Both ports up. -/
def ethUp (l : List (Fld × Nat) := []) : Dev :=
  sets dev0 ([(ETH_PORTCFG_EN 0, 1), (ETH_PORTCFG_EN 1, 1), (ETH_PORTSTAT_LINK 0, 1), (ETH_PORTSTAT_LINK 1, 1)] ++ l)

/-- Both ports up, their lines taken until tick `t`. -/
def lined (t : Nat) : Dev := { ethUp with eth := { lines := [(0, { until_ := t }), (1, { until_ := t })] } }

/-- A Sync on port 0 whose time is 1,000 ns, and an interval without one. -/
def sync1000 : SyncSample := ⟨true, 0, 900, 92, 15, none⟩
def noSync : SyncSample := ⟨false, 0, 0, 0, 0, none⟩

/-- The gPTP time carried on is `g` ns at tick 0. -/
def timed (g : Nat) (e : EthSt) (l : List (Fld × Nat) := []) : Dev := { ethUp l with eth := { e with gptp := g, gptpSeen := true } }

theorem witness_EthernetSwitch_frames :
    ethUp.portUp 0 = true ∧ ethUp.portUp 1 = true ∧ frameSize (bcast 1504) = 1522 ∧ frameSize (bcast 1505) = 1523 ∧
    c (.switchForward 0 (bcast 1505)) ethUp (fun e => e.fld (ETH_PORTCNT_OVS 0) == 1 && e.eth.host.isEmpty) = true ∧
    c (.switchForward 0 (bcast 1504)) (lined 9) (fun e => e.eth.egress.map Egress.port == [1] && e.eth.host.length == 1 &&
      e.eth.learned.map Learned.mac == [4]) = true ∧
    c (.switchForward 0 (bcast 1504)) ethUp (fun e => e.eth.egress.isEmpty && e.eth.host.length == 1 &&
      e.eth.line 1 == { until_ := 7402, frame := some (bcast 1504) }) = true ∧
    c (.switchForward 2 (bcast 0)) (lined 9) (fun e => e.eth.egress.map Egress.port == [0, 1] && e.eth.host.isEmpty) = true ∧
    c (.switchForward 0 (bcast 0 true)) ethUp (fun e => e.eth.egress.isEmpty) = true ∧
    (let d := { ethUp with eth := { host := List.replicate 4096 ⟨bcast 0, 0, 0⟩ } }
     d.eth.buffered = 262144 ∧
     c (.switchForward 1 (bcast 0)) d (fun e => e.fld (ETH_PORTCNT_DROP 1) == 1) = true) := by decide +kernel

theorem witness_EthernetSwitch_links :
    c (.ethLink 1 false true 7) ethUp (fun e => e.fld (ETH_PORTSTAT_LINK 1) == 0 && e.hasFault (fiEthLink + 1) 0 &&
      e.fld (ETH_PORTISTAT_LINKCHG 1) == 1 && e.fld (ETH_PORTSTAT_SQI 1) == 7) = true ∧
    syncTime sync1000 = 1000 ∧
    c (.gptpSyncChange sync1000) (timed 2000 { inBound := 7 }) (fun e => e.fld ETH_GPTPSTAT_SYNC == 1 && e.gptpNow == 1000) = true ∧
    c (.gptpSyncChange sync1000) (timed 2001 { inBound := 7 }) (fun e => e.fld ETH_GPTPSTAT_SYNC == 0 && e.eth.inBound == 0) = true ∧
    c (.gptpSyncChange sync1000) (timed 0 { inBound := 6 }) (fun e => e.fld ETH_GPTPSTAT_SYNC == 0 && e.eth.inBound == 7) = true ∧
    c (.gptpSyncChange noSync) (timed 0 { outBound := 2 } [(ETH_GPTPSTAT_SYNC, 1)]) (fun e =>
      e.fld ETH_GPTPSTAT_SYNC == 0 && e.hasFault fiEthSync 0) = true ∧
    c (.gptpSyncChange sync1000) (timed 2001 { outBound := 1 } [(ETH_GPTPSTAT_SYNC, 1)]) (fun e =>
      e.fld ETH_GPTPSTAT_SYNC == 1 && e.eth.outBound == 2) = true ∧
    c (.gptpSyncChange sync1000) { timed 400 {} with ticks := 360 } (fun e => e.eth.rateN == 600 && e.eth.rateD == 360) = true ∧
    c .timePulse (atLt 600000 (ethUp [(ETH_GPTPCFG_PPER, 1)])) (fun e => e.eth.lastPulse == 1000000 &&
      e.evt.produced == [{ prod := 462, stamp := some 9600000 }]) = true ∧
    c .timePulse { atLt 600000 (ethUp [(ETH_GPTPCFG_PPER, 1)]) with eth := { lastPulse := 1000000 } } (fun e => e.evt.produced.isEmpty) = true ∧
    c .epochWrap { ethUp with eth := { wrapped := true }, persist := { dev0.persist with epoch := 2 ^ 24 - 1 } } (fun e =>
      e.persist.epoch == 0 && !e.eth.wrapped) = true ∧
    c .epochWrap ethUp (fun e => e.persist.epoch == 0) = true ∧
    c .learningEntryAgeout (sets { devAt 600000000 with eth := { learned := [⟨4, 0, 0⟩, ⟨5, 1, 1⟩] } } [(ETH_SWAGE_AGE, 1)]) (fun e =>
      e.eth.learned == [⟨5, 1, 1⟩]) = true ∧
    c .learningEntryAgeout (sets { devAt 599999999 with eth := { learned := [⟨4, 0, 0⟩] } } [(ETH_SWAGE_AGE, 1)]) (fun e =>
      e.eth.learned == [⟨4, 0, 0⟩]) = true := by decide +kernel

/-- A key of zeros. -/
def key0 : List Byte := List.replicate 32 0

/-- A device of segment 1, number 2, with key 0 installed, the receive ring in shared memory, and peer 63 the device itself. -/
def host (l : List (Fld × Nat) := []) : Dev :=
  sets { dev0 with persist := { dev0.persist with keys := [(0, key0)] }, eth := { count := 9 } }
    ([(ETH_ADDR_SEG, 1), (ETH_ADDR_DEV, 2), (ETH_STCFG_NOSYNCOK, 1), (ETH_PEERCFG_EN 63, 1),
      (ETH_RXRBASE_BASE, 0x800000), (ETH_RXRCFG_SIZE, 16)] ++ l)

/-- The message that this device would send to itself. -/
def message : List Byte := host.message key0 0 0 host.ownAddr [1, 2, 3]

/-- The device with a frame of the safety EtherType that carries the given bytes at its host port. -/
def receiving (body : List Byte) (d : Dev) : Dev :=
  { d with eth := { d.eth with host := [⟨{ dst := macOf d.ownAddr, src := 0, etype := d.fld ETH_STCFG_ETYPE, body := body }, 0, 0⟩] } }

/-- Its own address is the peer's source. -/
def peered (l : List (Fld × Nat) := []) : Dev := sets host ((ETH_PEERCFG_SRC 63, host.ownAddr) :: l)

theorem witness_SafetyMessages_checks :
    c .safetyMessageReceive (receiving [0] host) (fun e => e.fld ETH_DROP_FMT == 1 && e.fld ETH_ISTAT_DROP == 1) = true ∧
    formatOk message = true ∧ peered.dstOk message = true ∧
    c .safetyMessageReceive (receiving message (sets host [(ETH_ADDR_DEV, 3)])) (fun e => e.fld ETH_DROP_DST == 1) = true ∧
    c .safetyMessageReceive (receiving (host.message key0 0 1 host.ownAddr []) host) (fun e => e.fld ETH_DROP_KEY == 1) = true := by
  decide +kernel

theorem witness_SafetyMessages_tag :
    messageTag key0 (message.take 27) = (message.drop 27).take 16 ∧ peered.peerOf (beAt message 5 3) = some 63 ∧
    peered.seqOk 63 (beAt message 8 6) = true ∧ peered.ageOk 0 (beAt message 14 8) = true ∧
    c .safetyMessageReceive (receiving (message.take 42 ++ [0]) peered) (fun e => e.fld ETH_DROP_TAG == 1 || e.eth.host.isEmpty) = true ∧
    c .safetyMessageReceive (receiving message host) (fun e => e.fld ETH_DROP2_PEER == 1) = true := by decide +kernel

theorem witness_SafetyMessages_window :
    c .safetyMessageReceive (receiving message (peered [(ETH_PEERHLO_H 63, 73)])) (fun e => e.fld ETH_DROP2_SEQ == 1) = true ∧
    c .safetyMessageReceive (receiving message (peered [(ETH_STCFG_NOSYNCOK, 0)])) (fun e => e.fld ETH_DROP2_AGE == 1) = true ∧
    c .safetyMessageReceive (receiving message (peered [(ETH_PEERHLO_H 63, 72)])) (fun e => e.fld ETH_RXRTAIL_TAIL == 2 &&
      e.fld ETH_ISTAT_RXMSG == 1 && !e.seqOk 63 9 && e.peerH 63 == 72) = true := by decide +kernel

theorem witness_SafetyMessages_rings :
    (bcast 0).etype ≠ host.fld ETH_STCFG_ETYPE ∧
    c .rawFrameReceive { host with eth := { host := [⟨bcast 0, 0, 0⟩] } } (fun e => e.eth.host.isEmpty && e.fld ETH_ISTAT_DROP == 0) = true ∧
    c .rawFrameReceive { host [(ETH_RXRCFG_RAW, 1), (ETH_RXRTAIL_TAIL, 15)] with eth := { host := [⟨bcast 0, 0, 0⟩] } } (fun e =>
      e.fld ETH_DROP2_FULL == 1) = true ∧
    c (.txDescriptorSend 15) (ethUp [(ETH_TXRBASE_BASE 15, 0x800000), (ETH_TXRCFG_SIZE 15, 4), (ETH_TXRHEAD_HEAD 15, 3)]) (fun e =>
      e.fld (ETH_TXRHEAD_HEAD 15) == 0) = true ∧
    c (.txrGatedTrigger 15) ((ethUp [(ETH_TXRBASE_BASE 15, 0x800000), (ETH_TXRCFG_SIZE 15, 4), (ETH_TXRTAIL_TAIL 15, 1), (ETH_TXRCFG_GATED 15, 1)]).setLatch 343 (some ⟨0, 0⟩))
      (fun e => e.fld (ETH_TXRHEAD_HEAD 15) == 1 && e.latch 343 == none) = true ∧
    c (.txDescriptorSend 15) (ethUp [(ETH_TXRCFG_SIZE 15, 4)]) (fun e => e.fld (ETH_TXRHEAD_HEAD 15) == 0) = true ∧
    c (.txrGatedTrigger 15) ((ethUp [(ETH_TXRCFG_SIZE 15, 4), (ETH_TXRCFG_GATED 15, 1)]).setLatch 343 (some ⟨0, 0⟩)) (fun e =>
      e.fld ETH_ISTAT_TXEMPTY == 1 && e.latch 343 == none) = true ∧
    c (.txrGatedTrigger 15) (ethUp [(ETH_TXRCFG_SIZE 15, 4), (ETH_TXRCFG_GATED 15, 1)]) (fun e => e.fld ETH_ISTAT_TXEMPTY == 0) = true := by
  decide +kernel

/-- The worked encoding of chapter 15: device 37 of segment 5 sends 8 bytes of DATA to device 12 under key 1. -/
theorem test_message_header :
    messageHeader 0 1 (5 * 4096 + 12) (5 * 4096 + 37) 0x000102 0x000A00 0x17976A4F2C100000 8 =
      [0x10, 0x01, 0x00, 0x50, 0x0C, 0x00, 0x50, 0x25, 0x00, 0x01, 0x02, 0x00, 0x0A, 0x00, 0x17, 0x97,
        0x6A, 0x4F, 0x2C, 0x10, 0x00, 0x00, 0x00, 0x08] ∧ macOf 0x0500C = 0x024B0000500C := by decide +kernel

/-- Controller 3 on, with filter 0 open, rings of 4 units in shared memory, and a frame of 1 byte at its TX head. -/
def canDev (l : List (Fld × Nat) := []) : Dev :=
  sets { dev0 with mem := { dev0.mem with ram := ramWrite {} (bankKey 0 0) 0 (5 + 2 ^ 32) } }
    ([(CANXL_CFG_EN 3, 1), (CANXL_FLTID_EN 3 0, 1), (CANXL_FLTMASK_EN 3 0, 1), (CANXL_TXBASE_BASE 3, 0x800000), (CANXL_TXCFG_SIZE 3, 4),
      (CANXL_RXBASE_BASE 3, 0x800001), (CANXL_RXCFG_SIZE 3, 4), (CANXL_TXTAIL_TAIL 3, 2)] ++ l)

/-- A received frame of 8 data bytes. -/
def canFrame : CanFrame := { id := 5, ide := false, fmt := 0, sdt := 0, vcid := 0, data := List.replicate 8 1, sof := 77, evt := true }

theorem witness_CanControllers_receive :
    c (.canFrameReceive 0 canFrame) dev0 (fun e => e.evt.produced.isEmpty) = true ∧
    canDev.fld (CANXL_STAT_ESTATE 3) ≠ 2 ∧ canDev.canFilter 3 5 = true ∧ (sets canDev [(CANXL_FLTID_EN 3 0, 0)]).canFilter 3 5 = false ∧
    c (.canFrameReceive 3 { canFrame with crcOk := false }) canDev (fun e => e.fld (CANXL_STAT_REC 3) == 1 && e.fld (CANXL_RXTAIL_TAIL 3) == 0) = true ∧
    c (.canFrameReceive 3 canFrame) (canDev [(CANXL_RXTAIL_TAIL 3, 2)]) (fun e => e.fld (CANXL_STAT_RXLOST 3) == 1) = true ∧
    c (.canFrameReceive 3 canFrame) canDev (fun e => e.fld (CANXL_RXTAIL_TAIL 3) == 2 && e.fld (CANXL_ISTAT_RXF 3) == 1 &&
      e.evt.produced == [{ prod := 461, stamp := some 77 }]) = true := by decide +kernel

theorem witness_CanControllers_send :
    canDev.canSendable 3 0 1 false = true ∧ canDev.fld (CANXL_TXHEAD_HEAD 3) < canDev.fld (CANXL_TXCFG_SIZE 3) ∧
    c (.canFrameSend 3) (canDev [(CANXL_STAT_TEC 3, 8)]) (fun e => e.fld (CANXL_TXHEAD_HEAD 3) == 2 && e.fld (CANXL_ISTAT_TXF 3) == 1 &&
      e.fld (CANXL_STAT_TEC 3) == 7 && ((e.canOf 3).sent.map CanFrame.id) == some 5) = true ∧
    c (.canFrameSend 3) (canDev [(CANXL_TXTAIL_TAIL 3, 0)]) (fun e => (e.canOf 3).sent.isNone) = true ∧
    c (.canFrameSend 3) (canDev [(CANXL_TXCFG_GATED 3, 1)]) (fun e => (e.canOf 3).sent.isNone) = true ∧
    c (.canBusoff 3) canDev (fun e => e.fld (CANXL_STAT_ESTATE 3) == 2 && e.fld (CANXL_STAT_TEC 3) == 255 && e.hasFault (fiCanBusoff + 3) 0) = true ∧
    c (.recover 3) (canDev [(CANXL_STAT_ESTATE 3, 2)]) (fun e => (e.canOf 3).recovering) = true ∧
    c (.busoffAutoRecovery 3) (canDev [(CANXL_STAT_ESTATE 3, 2), (CANXL_CFG_AUTOREC 3, 1), (CANXL_STAT_TEC 3, 255)]) (fun e =>
      e.fld (CANXL_STAT_ESTATE 3) == 0 && e.fld (CANXL_STAT_TEC 3) == 0) = true ∧
    c (.busoffAutoRecovery 3) (canDev [(CANXL_STAT_ESTATE 3, 2), (CANXL_CFG_AUTOREC 3, 0)]) (fun e => e.fld (CANXL_STAT_ESTATE 3) == 2) = true := by decide +kernel

theorem witness_links_idle :
    host.start.clocksOff = false ∧ host.fab.locks = [] ∧ host.fab.waiting = [] ∧ host.fab.granted = [] ∧ host.fab.ended = [] ∧
    (canDev.canOf 3).received = [] ∧ host.mode ≠ modeStandby ∧
    (ethUp [(ETH_TXRBASE_BASE 15, 0x800000), (ETH_TXRCFG_SIZE 15, 4), (ETH_TXRHEAD_HEAD 15, 3)]).txOpen 15 = true := by decide +kernel

/-! ### Buoy ports (chapter 16) -/

/-- Port 7 enabled with the given state, at 1,000 lt. -/
def buoyDev (x : BuoySt) (l : List (Fld × Nat) := []) : Dev :=
  { atLt 1000 (sets dev0 ([(BUOY_CFG_EN 7, 1), (BUOY_T_EN 7 511, 1), (BUOY_T_TMO 7 511, 2)] ++ l)) with buoy := [(7, x)] }

/-- A cycle of list 7. -/
def cyc : BuoyCycle := { list := 7, base := 0x10000000, count := 1, stamp := 16000, trig := none, earliest := 0 }

theorem witness_BuoyListsAndRing_lists :
    c (.buoyStart 7 0x80) (buoyDev { cycle := some cyc }) (fun e => e.fld (BUOY_ISTAT_CMDREF 7) == 1) = true ∧
    c (.buoyStart 7 0x80) (buoyDev {}) (fun e => (e.buoyOf 7).starts == [(7, 16000)]) = true ∧
    (buoyDev { starts := [(7, 5)] }).buoyIdle 7 = true ∧ (buoyDev { starts := [(7, 5)] }).buoyWaiting 7 = [7] ∧
    c (.buoyListStart 7) (buoyDev { starts := [(7, 5)], healed := true } [(BUOY_STAT_LINE 7, 1), (BUOY_LISTCNT_COUNT 7 7, 3)]) (fun e =>
      e.fld (BUOY_STAT_LINE 7) == 0 && e.fld (BUOY_STAT_LIST 7) == 7 && ((e.buoyOf 7).cycle.map (fun x => (x.stamp, x.count))) == some (5, 3)) = true ∧
    c (.buoyListStart 7) ((buoyDev {}).setLatch 263 (some ⟨9, 1⟩)) (fun e => e.latch 263 == none &&
      ((e.buoyOf 7).cycle.map (fun x => x.stamp)) == some 9) = true ∧
    c (.buoyWaitEnd 7) (buoyDev { cycle := some { cyc with waitUntil := some 16000 } }) (fun e =>
      ((e.buoyOf 7).cycle.map (fun x => x.waitUntil)) == some none) = true ∧
    c (.buoyCycleComplete 7) (buoyDev { cycle := some { cyc with next := 1, failed := 256 } } [(BUOY_LAST_CYCLES 7, 65535)]) (fun e =>
      (e.buoyOf 7).cycle == none && e.fld (BUOY_LAST_FAILED 7) == 255 && e.fld (BUOY_LAST_CYCLES 7) == 0 && e.fld (BUOY_ISTAT_CYC 7) == 1) = true ∧
    c (.buoyMem 7) (buoyDev { cycle := some { cyc with next := 1, memFail := true } }) (fun e => e.fld (BUOY_ISTAT_MEMERR 7) == 1 &&
      e.fld (BUOY_LAST_ABORT 7) == 1 && e.hasFault fiBuoyMem 7) = true := by decide +kernel

theorem witness_BuoyListsAndRing_ring :
    (buoyDev {}).fab.locks = [] ∧ (buoyDev {}).buoyIdle 7 = true ∧ (buoyDev {}).fld (BUOY_STAT_LINE 7) = 0 ∧
    (buoyDev { cycle := some cyc }).fld (BUOY_STAT_ENUMBUSY 7) = 0 ∧
    c (.buoyEnum 7 { rlat := none, partners := [] }) (buoyDev { cycle := some cyc }) (fun e => e.fld (BUOY_ISTAT_CMDREF 7) == 1) = true ∧
    c (.buoyEnum 7 { rlat := none, partners := [] }) (buoyDev {} [(BUOY_STAT_LINE 7, 1)]) (fun e => e.fld (BUOY_ISTAT_CMDREF 7) == 1) = true ∧
    c (.buoyBreak 7) (buoyDev {} [(BUOY_CFG_LINEOK 7, 1)]) (fun e => e.fld (BUOY_STAT_LINE 7) == 1 && e.hasFault (fiBuoyBreak + 7) 0) = true ∧
    c (.buoyBreak 7) (buoyDev {} [(BUOY_CFG_LINEOK 7, 0)]) (fun e => e.fld (BUOY_CFG_EN 7) == 0) = true ∧
    c (.buoyHeal 7) (buoyDev { sent := some ([], true, false) } [(BUOY_STAT_LINE 7, 1)]) (fun e => e.fld (BUOY_ISTAT_HEAL 7) == 1 &&
      (e.buoyOf 7).healed) = true := by decide +kernel

/-- The same port whose descriptor stands in shared memory as the given two words. -/
def described (w0 w1 : Nat) : Dev :=
  let d := buoyDev { cycle := some cyc }
  { d with mem := { d.mem with ram := ramWrite (ramWrite {} (bankKey 0 0) 0 w0) (bankKey 0 1) 1 w1 } }

/-- READ of 3 payload bytes of partner 512: word 0 of its descriptor. -/
def readDesc : Nat := 512 + 1 * 2 ^ 16 + 3 * 2 ^ 24 + 0x030201 * 2 ^ 32

theorem witness_BuoyTransactions_send :
    (described 0 0).fab.locks = [] ∧ (described 0 0).fld (BUOY_STAT_LINE 7) = 0 ∧ cyc.waitUntil = none ∧ cyc.next < cyc.count ∧
    c (.buoyTransactionSend 7) (described (10 * 2 ^ 32) 0) (fun e => ((e.buoyOf 7).cycle.map (fun x => x.waitUntil)) == some (some 16096)) = true ∧
    c (.buoyTransactionSend 7) (described readDesc 0) (fun e => e.fld (BUOY_T_SEQ 7 511) == 1 &&
      (e.buoyOf 7).sent == some (buoyFrame 512 false false 1 1 [1, 2, 3], true, false)) = true := by decide +kernel

/-- A transaction of partner 512 in flight since 1,000. -/
def tx : BuoyTx := { j := 0, addr := 512, cmd := 1, payload := [], rptr := 0, rlen := 0, stop := false, seq := 3, attempts := 1, sentAt := 1000, deadline := 15999 }

/-- The port with that transaction and the given RETRY. -/
def inFlight (retry : Nat) : Dev := buoyDev { cycle := some { cyc with next := 1, txs := [tx] } } [(BUOY_T_RETRY 7 511, retry), (BUOY_T_FAILS 7 511, 63)]

theorem test_failmax_presents_once :
    let d := sets (inFlight 0) [(BUOY_CFG_FAILMAX 7, 63)]
    ((d.countFails 7 512 1).hasFault fiBuoyPfail (7 * 1024 + 512) && (d.countFails 7 512 1).fld (BUOY_ISTAT_PFAIL 7) == 1) = true ∧
    (d.setBuoy 7 { d.buoyOf 7 with told := [512] }).countFails 7 512 1 = d.setBuoy 7 { d.buoyOf 7 with told := [512] } ∧
    ((d.countFails 7 512 1).countFails 7 512 0).buoyOf 7 = d.buoyOf 7 := by decide +kernel

theorem witness_BuoyTransactions_ends :
    frameGood { bytes := buoyFrame 512 false false 3 1 [] } = true ∧ fAddr (buoyFrame 512 false false 3 1 []) = 512 ∧
    fSeq (buoyFrame 512 false false 3 1 []) = 3 ∧ fRsp (buoyFrame 512 false false 3 1 []) = false ∧ fCmd (buoyFrame 512 false false 3 1 []) = 1 ∧
    c (.buoyReplyReceive 7 { bytes := buoyFrame 512 false false 3 1 [], delay := 15999 - 1000 - 3072 }) (inFlight 0) (fun e =>
      e.fld (BUOY_ISTAT_FAIL 7) == 1 && e.fld (BUOY_T_FAILS 7 511) == 63) = true ∧
    c (.buoyReplyReceive 7 { bytes := buoyFrame 512 false true 3 0x7F [] }) (inFlight 0) (fun e => e.fld (BUOY_T_FAILS 7 511) == 0 &&
      e.fld (BUOY_ISTAT_FAIL 7) == 1) = true ∧
    c (.buoyReplyReceive 7 { bytes := [0] }) (inFlight 1) (fun e => e.fld (BUOY_CNT_CRCERR 7) == 1 && e.fld (BUOY_ISTAT_FAIL 7) == 0) = true ∧
    tx.deadline < (inFlight 1).lanternTime ∧
    c (.buoyDeadline 7) (inFlight 1) (fun e => e.fld (BUOY_CNT_TMOUT 7) == 1 &&
      ((e.buoyOf 7).cycle.map (fun x => x.txs.map BuoyTx.again)) == some [true]) = true ∧
    c (.buoyDeadline 7) (inFlight 0) (fun e => e.fld (BUOY_ISTAT_FAIL 7) == 1 &&
      ((e.buoyOf 7).cycle.map (fun x => x.txs.length)) == some 0) = true := by decide +kernel

/-- The port with that transaction in flight after a slot that returned nothing. -/
def silent (lineok : Nat) : Dev := buoyDev { cycle := some { cyc with next := 1, txs := [tx] }, silent := 1 } [(BUOY_CFG_LINEOK 7, lineok)]

theorem witness_BuoyTransactions_break :
    (silent 1).start.clocksOff = false ∧ (silent 1).fab.waiting = [] ∧ (silent 1).fab.granted = [] ∧ (silent 1).fab.ended = [] ∧
    (silent 1).fab.locks = [] ∧ ((inFlight 1).buoyOf 7).silent = 0 ∧ tx.deadline < (silent 1).lanternTime ∧
    c (.buoyDeadline 7) (silent 1) (fun e => e.fld (BUOY_STAT_LINE 7) == 1 && e.hasFault (fiBuoyBreak + 7) 0 &&
      e.fld (BUOY_CNT_TMOUT 7) == 1 &&
      ((e.buoyOf 7).cycle.map (fun x => x.txs)) == some [{ tx with again := true, attempts := 0 }]) = true ∧
    c (.buoyDeadline 7) (silent 0) (fun e => e.fld (BUOY_CFG_EN 7) == 0 && (e.buoyOf 7).cycle == none) = true := by decide +kernel

/-! ### Trust and lifecycle (chapter 17) -/

/-- A device in the given mode and lifecycle state, with a maker root, an installer root and two operator roots. -/
def trusted (m lcs : Nat) (t : TrustSt := {}) : Dev :=
  let t := t.blowTo lcs
  { inMode m with
    trust := { t with makerRoots := [(0, [1]), (1, [2])], instRoots := [(0, [3]), (1, [4])] }
    persist := { dev0.persist with opRoots := [(0, [5]), (3, [6])] } }

/-- A command of a role's slot 0 with counter 1 and the given argument. -/
def by' (role : Fin 3) (arg : List Byte := []) (via : SignedVia := .tender) : SignedArg :=
  { role := role, slot := 0, ctr := 1, arg := arg, via := via }

/-- The block passes every check. -/
def passes (d : Dev) (code : Nat) (b : SignedArg) : Prop := d.blockStatus (cmdOf code b) true true true = 0

theorem witness_LifecycleAndRefusals_moves :
    ((trusted modeBoot 0).nvs.full = false ∧ (∀ i < 5, arrGet 0 (trusted modeBoot 0).trust.lcsFuses i ≠ 0 ↔ i < (trusted modeBoot 0).lcs)) ∧
    ((trusted modeBoot 0).blockStatus (cmdOf 0x10 (by' 2 (List.replicate 128 7))) true true true = 0 ∧ (trusted modeBoot 0).lcs = lcBlank) ∧
    c (.enrolMaker (by' 2 (List.replicate 128 7))) (trusted modeBoot 0) (fun e => e.lcs == lcManufacture && arrGet 0 e.persist.ctrs 2 == 1) = true ∧
    (trusted modeMaker 1 { att := .ready }).blockStatus (cmdOf 0x11 (by' 2 (List.replicate 160 7))) true true true = 0 ∧
    c (.provision (by' 2 (List.replicate 160 7))) (trusted modeMaker 1 { att := .ready }) (fun e => e.lcs == lcProvisioned &&
      e.trust.iwk == List.replicate 32 7) = true ∧
    (trusted modeConfig 2).blockStatus (cmdOf 0x13 (by' 1)) true true true = 0 ∧
    c (.deploy (by' 1)) (trusted modeConfig 2) (fun e => e.lcs == lcDeployed) = true ∧
    (trusted modeFog 3).blockStatus (cmdOf 0x14 (by' 2)) true true true = 0 ∧
    (∀ i < 5, arrGet 0 (trusted modeFog 3).trust.lcsFuses i ≠ 0 ↔ i < (trusted modeFog 3).lcs) ∧
    c (.returnToMaker (by' 2)) (trusted modeFog 3) (fun e => e.lcs == lcReturned && e.persist.opRoots.isEmpty && e.fld TRUST_LASTCMD_STATUS == 0) = true ∧
    (trusted modeRun 4 { att := .ready }).blockStatus (cmdOf 0x15 (by' 1)) true true true = 0 ∧
    c (.scrap (by' 1)) (trusted modeRun 4 { att := .ready }) (fun e => e.lcs == lcScrapped && e.trust.att == .destroyed) = true := by
  decide +kernel

theorem witness_LifecycleAndRefusals_refused :
    [((trusted modeRun 2).blockStatus (cmdOf 0x13 (by' 1)) true true true, (trusted modeRun 2).signedMet (cmdOf 0x13 (by' 1))),
      ((trusted modeMaker 2).blockStatus (cmdOf 0x14 (by' 1)) true true true, (trusted modeMaker 2).signedMet (cmdOf 0x14 (by' 1))),
      ((trusted modeMaker 1).blockStatus (cmdOf 0x11 (by' 2 (List.replicate 160 7))) true true true, (trusted modeMaker 1).signedMet (cmdOf 0x11 (by' 2))),
      ((trusted modeBoot 1).blockStatus (cmdOf 0x12 (by' 2)) true true true, (trusted modeBoot 1).signedMet (cmdOf 0x12 (by' 2))),
      ((trusted modeConfig 5).blockStatus (cmdOf 0x15 (by' 1)) true true true, (trusted modeConfig 5).signedMet (cmdOf 0x15 (by' 1))),
      ((trusted modeRun 3).blockStatus (cmdOf 0x16 (by' 1 [1, 1])) true true true, (trusted modeRun 3).signedMet (cmdOf 0x16 (by' 1 [1, 1]))),
      ((trusted modeRun 3).blockStatus (cmdOf 0x17 (by' 1 (List.replicate 65 3))) true true true, (trusted modeRun 3).signedMet (cmdOf 0x17 (by' 1))),
      ((trusted modeBoot 3).blockStatus (cmdOf 0x18 (by' 1 (List.replicate 33 3))) true true true, (trusted modeBoot 3).signedMet (cmdOf 0x18 (by' 1))),
      ((trusted modeBoot 3).blockStatus (cmdOf 0x19 (by' 1 [3])) true true true, (trusted modeBoot 3).signedMet (cmdOf 0x19 (by' 1 [3]))),
      ((trusted modeBoot 3).blockStatus (cmdOf 0x1A (by' 1 [1, 1])) true true true, (trusted modeBoot 3).signedMet (cmdOf 0x1A (by' 1 [1, 1]))),
      ((trusted modeRun 3).blockStatus (cmdOf 0x1C (by' 0 (List.replicate 32 1))) true true true, (trusted modeRun 3).signedMet (cmdOf 0x1C (by' 0)))].all
      (fun x => x == (0, false)) = true ∧
    c (.deploy (by' 1)) (trusted modeRun 2) (fun e => e.fld TRUST_LASTCMD_STATUS == 1 && arrGet 0 e.persist.ctrs 1 == 1 && e.lcs == lcProvisioned &&
      e.fld SYSCTL_REFUSED_CODE == 0x13) = true ∧
    c .grantEnd { devAt 600000000 with trust := { grant := some ⟨1, 1, [], 0, 1⟩ } } (fun e => e.trust.grant == none && e.fld TRUST_ISTAT_GRANTCHG == 1) = true ∧
    c .attkeyReady { dev0 with trust := { att := .generating } } (fun e => e.trust.att == .ready) = true ∧
    c .trustEntropy { dev0 with trust := { att := .generating, attSeed := 5 } } (fun e => e.trust.att == .none && e.trust.attSeed == 0 &&
      e.hasFault fiEntropy 0) = true ∧
    c .trustEntropy { dev0 with trust := { att := .ready } } (fun e => e.trust.att == .ready) = true := by decide +kernel

/-- A fragment of block 5, index `idx` of `cnt`. -/
def frag (idx cnt : Nat) : Fragment := { src := 8, keyid := 3, bytes := [0, 5, BitVec.ofNat 8 (16 * idx + cnt), 0, 9] }

/-- A reassembly of another block. -/
def other (id first : Nat) : Reassembly := { src := 8, id := id, keyid := 0, cnt := 2, got := [], first := first }

theorem witness_SignedBlocks_fragments :
    c .signedFragmentReceive { dev0 with trust := { frags := [frag 0 1] } } (fun e => (e.trust.waiting.map Block.bytes) == [[9]]) = true ∧
    c .signedFragmentReceive { dev0 with trust := { frags := [frag 0 1], waiting := List.replicate 3 ⟨[], .tender, none⟩ } } (fun e =>
      e.fld TRUST_LASTCMD_STATUS == 0x17 && e.trust.waiting.length == 3) = true ∧
    c .signedFragmentReceive { dev0 with trust := { frags := [frag 3 4] } } (fun e => (e.trust.parts.map Reassembly.got) == [[(3, [9])]]) = true ∧
    c .signedFragmentReceive { dev0 with trust := { frags := [frag 0 1], parts := [other 6 0, other 7 0] } } (fun e =>
      e.fld TRUST_SIGCNT_FRAGLOST == 1 && e.trust.waiting.isEmpty) = true ∧
    c .reassemblyTimeout { devAt 60000000 with trust := { parts := [other 6 1, other 7 0] } } (fun e => (e.trust.parts.map Reassembly.id) == [6] &&
      e.fld TRUST_SIGCNT_FRAGLOST == 1) = true := by decide +kernel

/-- A block of the given code and counter from the maker's slot 0, with no argument and a signature of zeros. -/
def block (code ctr : Nat) (slot : Nat := 0) : Block :=
  { bytes := [1, 2, BitVec.ofNat 8 slot, BitVec.ofNat 8 code] ++ beBytes 8 7 ++ beBytes 8 ctr ++ [0, 0, 0, 0] ++ List.replicate 2820 0, via := .tender }

/-- The device, of identity 7 and in the given state, with the block waiting. -/
def checkOf (b : Block) (lcs : Nat := 3) : Dev :=
  let d := trusted modeConfig lcs
  { d with trust := { d.trust with waiting := [b], devuid := 7 } }

theorem witness_SignedBlocks_checks :
    (block 8 1).formatOk = true ∧ (block 8 1).command.code = 8 ∧ argLegal 8 (block 8 1).command.arg = true ∧ beAt (block 8 1).bytes 4 8 = 7 ∧
    c .signedBlockCheck (checkOf { bytes := [1], via := .tender }) (fun e => e.fld TRUST_LASTCMD_STATUS == 0x10) = true ∧
    c .signedBlockCheck (let d := checkOf (block 8 1); { d with trust := { d.trust with devuid := 6 } }) (fun e => e.fld TRUST_LASTCMD_STATUS == 0x11) = true ∧
    c .signedBlockCheck (checkOf (block 8 1 2)) (fun e => e.fld TRUST_LASTCMD_STATUS == 0x12) = true ∧
    c .signedBlockCheck (checkOf (block 4 1)) (fun e => e.fld TRUST_LASTCMD_STATUS == 0x13) = true ∧
    c .signedBlockCheck (checkOf (block 8 0)) (fun e => e.fld TRUST_LASTCMD_STATUS == 0x14) = true ∧
    ((checkOf (block 9 1)).usable 2 0 = true ∧ (checkOf (block 9 1)).rightsOk (block 9 1).command = true ∧
      arrGet 0 (checkOf (block 9 1)).persist.ctrs 2 < (block 9 1).command.ctr ∧ signedCode 9 = false ∧ (block 9 1).formatOk = true) := by decide +kernel

/-- An INSTALL of slot 0 with ACTIVATE meets R499 where the signature of its manifest verifies, whatever that value is else. -/
def image : Dev :=
  let d := trusted modeConfig 1
  { d with nvs := { d.nvs with flash :=
      [(0, 0x46), (1, 0x4D), (2, 0x42), (3, 0x51), (4, 1), (5, 0), (6, 1), (7, 0)] ++ ((List.range 8).map (fun i => (16 + i, 0)))
      ++ (shake256 [] 32).zipIdx.map (fun x => (24 + x.2, x.1)) ++ [(56, 2)] ++ ((List.range 8).map (fun i => (64 + i, 0)))
      ++ [(384, 2), (385, 0)] } }

theorem witness_RootAndKeyCommands :
    (trusted modeConfig 3).blockStatus (cmdOf 0x16 (by' 2 [2, 1])) true true true = 0 ∧ (trusted modeConfig 3).mayRevoke (cmdOf 0x16 (by' 2 [2, 1])) = true ∧
    c (.revokeRoot (by' 2 [2, 1])) (trusted modeConfig 3) (fun e => !e.usable 2 1 && e.usable 2 0) = true ∧
    c (.revokeRoot (by' 2 [0, 3])) (trusted modeFog 3) (fun e => !e.usable 0 3 && e.usable 0 0 && arrGet 0 e.persist.ctrs 2 == 1) = true ∧
    (trusted modeConfig 3).blockStatus (cmdOf 0x17 (by' 1 (3 :: List.replicate 64 9))) true true true = 0 ∧
    c (.setOproot (by' 1 (3 :: List.replicate 64 9))) (trusted modeConfig 3) (fun e => e.rootOf 0 3 == List.replicate 64 9) = true ∧
    (trusted modeRun 3).blockStatus (cmdOf 0x18 (by' 1 (3 :: List.replicate 32 9))) true true true = 0 ∧ (trusted modeRun 3).running = true ∧
    (trusted modeConfig 2).blockStatus (cmdOf 0x19 (by' 1 [2])) true true true = 0 ∧
    c (.setPolicy (by' 1 [2])) (trusted modeConfig 2) (fun e => !e.persist.opCosign && e.persist.opInstall) = true ∧
    image.blockStatus (cmdOf 0x1A (by' 2 [0, 1])) true true true = 0 ∧
    (trusted modeRun 3).blockStatus (cmdOf 0x1B (by' 2 [255, 255, 31, 0, 0, 1, 81, 128])) true true true = 0 ∧
    c (.debugGrant (by' 2 [255, 255, 31, 0, 0, 1, 81, 128])) (trusted modeRun 3) (fun e => (e.trust.grant.map (fun g => (g.pairs, g.rights, g.dur))) == some (65535, 31, 86400)) = true ∧
    (trusted modeMaker 1).blockStatus (cmdOf 0x12 (by' 2)) true true true = 0 ∧
    c (.genkey (by' 2) 6) (trusted modeMaker 1) (fun e => e.trust.att == .generating && e.trust.attSeed == 6) = true ∧
    (trusted modeRun 3 { att := .ready, attNext := 2 ^ 40 - 1 }).blockStatus (cmdOf 0x1C (by' 0 (List.replicate 32 1))) true true true = 0 ∧
    (trusted modeRun 3 { att := .ready, attNext := 2 ^ 40 - 1 }).trust.att = .ready := by decide +kernel

theorem witness_RootAndKeyCommands_install (h : ∀ k m s, Config.xmssVerify k m s = true) : image.mayInstall 0 = true := by
  simp only [Dev.mayInstall, Dev.verifySlot, Dev.slotSigners, h]
  decide +kernel

/-- The device while STANDBY is carried out. -/
def carried (d : Dev) : Dev := { sets d [(SYSCTL_STAT_MODE, modeStandby)] with start := { d.start with waitFrom := some 0 } }

/-- A DEPLOY by its row that waits. -/
def rowBlock : Block := { bytes := [], via := .tender, row := some { code := 0x13, arg := by' 1, seeds := 0 } }

theorem witness_SignedChecks_carrying :
    (carried (checkOf (block 8 1))).carrying = true ∧ (checkOf (block 8 1)).carrying = false ∧ (block 8 1).row = none ∧
    c .signedBlockCheck (carried (checkOf (block 8 1))) (fun e => e.trust.waiting == [block 8 1]) = true ∧
    (let d := trusted modeConfig 2
     c .signedBlockCheck { d with trust := { d.trust with waiting := [rowBlock] } } (fun e => e.lcs == lcDeployed && e.trust.waiting.isEmpty)) = true ∧
    c (.deploy (by' 1)) (carried (trusted modeConfig 2)) (fun e => e.trust.waiting == [rowBlock] && e.lcs == lcProvisioned) = true ∧
    (trusted modeConfig 2).carrying = false := by decide +kernel

/-! ### Journal and store (chapter 18) -/

/-- An open journal entry. -/
def entry : JEntry := { seq := 4, type := 0x10, time := 0 }

/-- The device with one open entry, 3,600,000,000 ticks on. -/
def openPage (x : NvsSt := {}) : Dev := { devAt 36000000000 with nvs := { x with opened := [entry], nextSeq := 5 } }

theorem witness_JournalAndStore_seals :
    c (.journalSeal 3) dev0 (fun e => e.fld NVS_JSTAT_SEALS == 0) = true ∧ (openPage).nvs.opened ≠ [] ∧
    c (.journalSeal 2) openPage (fun e => e.nvs.opened.isEmpty && e.nvs.area0.entries == [entry] && e.fld NVS_JSTAT_VFAIL == 2 &&
      e.fld NVS_JSTAT_SEALS == 1 && e.fld NVS_ISTAT_JFAIL == 0) = true ∧
    c (.journalSeal 0) (openPage { verifyRun := 3 }) (fun e => e.fld NVS_ISTAT_JFAIL == 1 && e.hasFault fiJfail 0) = true ∧
    c (.sealPeriod 3) (sets openPage [(NVS_CFG_PERIOD, 600)]) (fun e => e.nvs.opened.isEmpty && e.hasFault fiJfail 3) = true ∧
    c (.sealPeriod 0) (sets (openPage { lastSeal := 1 }) [(NVS_CFG_PERIOD, 600)]) (fun e => e.nvs.opened.length == 1) = true ∧
    c (.chainVerify none) { dev0 with nvs := { verifyFrom := some 0 } } (fun e => e.fld NVS_STAT_CHAINOK == 1) = true ∧
    c (.chainVerify (some 65535)) { dev0 with nvs := { verifyFrom := some 0 } } (fun e => e.hasFault fiChain 65535 && e.fld NVS_ISTAT_CHAIN == 1) = true := by
  decide +kernel

/-- Shared memory holds an append block: the given header and one payload word. -/
def appending (h : Nat) : Dev := { dev0 with mem := { dev0.mem with ram := ramWrite (ramWrite {} (bankKey 0 0) 0 h) (bankKey 0 1) 1 0xAB } }

/-- The same while the append is under way. -/
def appending1 (h : Nat) : Dev := { appending h with nvs := { dev0.nvs with append := some 0x10000000 } }.flag NVS_APSTAT_BUSY

theorem witness_JournalAndStore_append :
    (appending1 0x18000).engineLoad mNvs 0x10000000 8 = (leBytes 8 0x18000, .ok, appending1 0x18000) ∧
    (appending1 0x18000).engineLoad mNvs 0x10000008 1 = ([0xAB], .ok, appending1 0x18000) ∧
    c (.append 0x10000000) (appending 0x17FFF) (fun e => e.fld NVS_APSTAT_STATUS == 1 && e.nvs.opened.isEmpty) = true ∧
    c (.append 0x10000000) (inMode modeStandby (appending 0x18000)) (fun e => e.fld NVS_APSTAT_STATUS == 1) = true ∧
    c (.append 0x10000000) (appending 0x10018000) (fun e => e.fld NVS_APSTAT_STATUS == 2) = true ∧
    c (.append 0x10000000) (appending 0x18000) (fun e => e.fld NVS_APSTAT_STATUS == 0 && (e.nvs.opened.map (fun j => (j.type, j.body))) == [(1, []), (0x8000, [0xAB])]) = true ∧
    c (.append 0x10000007) (appending 0x100018000) (fun e => e.nvs.opened.isEmpty && e.nvs.area0.entries.length == 2) = true := by decide +kernel

theorem witness_JournalAndStore_areas :
    c .compaction { dev0 with nvs := { area0 := { pages := 6144, gen := 3 }, opened := [entry], nextSeq := 5 } } (fun e => e.nvs.active &&
      e.nvs.area1.gen == 4 && e.nvs.area1.pages == 1 && e.nvs.area0.eraseLeft == 128 && e.nvs.opened.length == 1 && e.fld NVS_STAT_COMPACT == 1) = true ∧
    c .compaction { dev0 with nvs := { area0 := { pages := 6143 } } } (fun e => !e.nvs.active) = true ∧
    c .compactionEraseDone { dev0 with nvs := { area0 := { eraseLeft := 128, erases := 89999, pages := 6144 }, active := true } } (fun e =>
      e.nvs.area0 == { erases := 90000 } && e.hasFault fiWear 512) = true ∧
    c (.blockRemap 2047) { dev0 with nvs := { remapped := 255 } } (fun e => e.nvs.remapped == 256) = true := by decide +kernel

/-- A command word of SLOTCTL with GO for a target and record. -/
def go (tgt record : Nat) : Word := BitVec.ofNat 32 (2 ^ 31 + record * 16 + tgt * 4)

theorem witness_SlotOperations_begin :
    reachesIo 0 0x120020 = true ∧ (go 1 0).toNat.testBit 31 = true ∧
    c (.erase 0 (go 0 0)) dev0 (fun e => e.fld NVS_SLOTSTAT_STATUS == 1 && e.nvs.slotOp == none) = true ∧
    c (.erase 0 (go 1 0)) dev0 (fun e => (e.nvs.slotOp.map (fun o => (o.op, o.tgt))) == some (0, 1) && e.fld NVS_SLOTSTAT_BUSY == 1) = true ∧
    c (.erase 0 (go 0 0)) (inMode modeFog) (fun e => e.nvs.slotOp.isSome) = true ∧
    c (.finish 17 (go 2 255)) dev0 (fun e => (e.nvs.slotOp.map (fun o => (o.op, o.tgt, o.record))) == some (2, 2, 255)) = true ∧
    c (.program 1 (go 1 0)) (sets dev0 [(NVS_OFF_OFF, 4096), (NVS_LEN_LEN, 4096)]) (fun e => e.fld NVS_SLOTSTAT_STATUS == 1) = true ∧
    c (.program 1 (go 1 0)) (sets dev0 [(NVS_OFF_OFF, 16384), (NVS_LEN_LEN, 4096)]) (fun e => e.nvs.slotOp.isSome) = true := by decide +kernel

/-- An operation that runs. -/
def running (o : SlotOp) (n : NvsSt := {}) : Dev := { dev0 with nvs := { n with slotOp := some o } }

theorem witness_SlotOperations_done :
    c (.slotOperationDone false) (running ⟨0, 1, 0, 0, 0, 0⟩ { flash := [(0x03FFFFFF, 1), (0x04000000, 2), (0x07FFFFFF, 3)] }) (fun e =>
      e.nvs.flash == [(0x03FFFFFF, 1)] && e.fld NVS_SLOTSTAT_STATUS == 0 && e.nvs.slotOp == none) = true ∧
    c (.slotOperationDone true) (running ⟨0, 1, 0, 0, 0, 0⟩ { flash := [(0x04000000, 2)] }) (fun e => e.fld NVS_SLOTSTAT_STATUS == 3 &&
      e.nvs.flash == [(0x04000000, 2)]) = true ∧
    c (.slotOperationDone false) (running ⟨0, 1, 0, 0, 0, 0⟩ { stoppedByPf := true }) (fun e => e.fld NVS_SLOTSTAT_STATUS == 4) = true ∧
    c (.slotOperationDone false) (running ⟨2, 2, 255, 0, 0, 77⟩) (fun e => e.nvs.area0.entries.any (fun j => j.type == 0x40 && j.args == [255, 77])) = true ∧
    ((running ⟨1, 2, 255, 0x10000000, 0, 8⟩).engineLoad mNvs 0x10000000 8).1.length = 8 ∧
    ((running ⟨1, 2, 255, 0x10000000, 0, 8⟩).engineLoad mNvs 0x10000000 8).2.1 = .ok ∧
    c (.slotOperationDone false) { running ⟨1, 2, 255, 0x10000000, 0, 8⟩ with mem := (appending 0x0123456789ABCDEF).mem } (fun e =>
      e.nvs.byte 0x1BF00000 == 0xEF && e.nvs.byte 0x1BF00007 == 0x01 && e.nvs.byte 0x1BF00008 == 0xFF) = true := by decide +kernel

/-! ### Self-test, Watch and ageing (chapter 19) -/

/-- A factory run under way with VSET 1,000 mV and records already there. -/
def bist (count : Nat := 3) : Dev := sets (trusted modeMaker 1) [(TEST_BISTSTAT_BUSY, 1), (TEST_BISTCFG_VSET, 1000), (TEST_BISTSTAT_COUNT, count)]

/-- The same run `t` ticks after its first check. -/
def checked (t : Nat) (count : Nat := 3) : Dev := { bist count with ticks := t, test := { (bist count).test with bistChecked := some 0 } }

theorem witness_SelfTest :
    (trusted modeMaker 1).fld TEST_BISTSTAT_BUSY = 0 ∧
    c .bistStart (trusted modeMaker 1) (fun e => e.fld TEST_BISTSTAT_BUSY == 1 && (e.pair 15).clockOff && e.pairState 15 == stOff) = true ∧
    c .bistStart (trusted modeMaker 3) (fun e => e.fld TEST_BISTSTAT_STATUS == 3 && e.fld SYSCTL_REFUSED_COUNT == 1) = true ∧
    c .bistStart (trusted modeConfig 1) (fun e => e.fld TEST_BISTSTAT_STATUS == 3) = true ∧
    c (.bistConditionCheck 989999 1000 []) bist (fun e => e.fld TEST_BISTSTAT_STATUS == 1 && e.fld TEST_BISTSTAT_BUSY == 0) = true ∧
    c (.bistConditionCheck 1010000 1021 []) bist (fun e => e.fld TEST_BISTSTAT_STATUS == 2 && e.fld TEST_BISTSTAT_COUNT == 3) = true ∧
    c (.bistConditionCheck 990000 980 []) bist (fun e => e.fld TEST_BISTSTAT_BUSY == 1) = true ∧
    c (.bistConditionCheck 990000 980 []) (checked 59999) (fun e => e.test.bistChecked == some 0) = true ∧
    c (.bistConditionCheck 990000 980 []) (checked 60000) (fun e => e.test.bistChecked == some 60000) = true ∧
    c (.bistEnd []) bist (fun e => e.fld TEST_BISTSTAT_BUSY == 1) = true ∧
    c (.bistEnd []) (checked 0) (fun e => e.fld TEST_BISTSTAT_STATUS == 0 && e.fld TEST_BISTSTAT_BUSY == 0) = true ∧
    c (.bistEnd [0xFEDCBA9876543210]) (checked 0 255) (fun e => e.fld TEST_BISTSTAT_COUNT == 256 &&
      e.fld64 (TEST_BISTRESLO_REC 255) (TEST_BISTRESHI_REC 255) == 0xFEDCBA9876543210) = true ∧
    c .repair { trusted modeMaker 1 with test := { planned := [7] } } (fun e => e.test.repairs == [7] && e.test.planned.isEmpty &&
      e.nvs.area0.entries.length == 2) = true := by decide +kernel

/-- Watch, its period begun at tick 0, with pair 0 ACTIVE and 63 slices done. -/
def watch (l : List (Fld × Nat) := []) (t : TestSt := {}) : Dev :=
  sets (run0 (both {}) { dev0 with test := { t with periodStart := some 0, slices := [(0, 63)] } }) ((TEST_WCFG_SLICEOK, 1) :: l)

theorem witness_WatchRuns :
    watch.test.periodStart ≠ none ∧ watch.pairs.length = 16 ∧ (65535 : Nat) < bankWords 87 ∧
    c (.marchWord 87 65535 [74]) (watch [] { marched := [(87, 65535)] }) (fun e => arrGet 0 e.test.marched 87 == 65536 && e.hasFault fiMarch 87 &&
      e.fld TEST_ISTAT_MARCH == 1) = true ∧
    c (.marchWord 0 0 []) watch (fun e => arrGet 0 e.test.marched 0 == 1 && e.fld TEST_ISTAT_MARCH == 0) = true ∧
    4700 * 48 + 748 * 40 ≤ 5324 * 48 ∧ ¬ (4700 * 48 + 748 * 40 ≤ 5323 * 48) ∧
    c (.offer 0 5324) (watch [(AGEING_PAIR_STEP 0, 48)]) (fun e => (e.pair 0).slice == some 63 && e.test.offers.length == 1) = true ∧
    c (.offer 0 5323) (watch [(AGEING_PAIR_STEP 0, 48)]) (fun e => (e.pair 0).slice == none && e.fld TEST_WSTAT_OFFDROP == 1) = true ∧
    c (.offerAbandon 0) { run0 { (both {}) with slice := some 3 } (devAt 120) with test := { periodStart := some 0, offers := [⟨0, 0, 0⟩] } } (fun e =>
      e.test.offers.isEmpty && (e.pair 0).slice == none) = true ∧
    c (.spareSlice 0 false) (watch [(PAIRCTL_ROLE_STATE 0, stSpare)]) (fun e => arrGet 0 e.test.slices 0 == 64) = true ∧
    c (.spareSlice 0 true) (watch [(PAIRCTL_ROLE_STATE 0, stSpare)]) (fun e => e.hasFault fiLbist 0 && arrGet 0 e.test.slices 0 == 63) = true ∧
    (watch [(SDF_CFG_EN 35, 1)]).loopReady (.sdf 35) = true ∧
    c (.loopback (.sdf 35) false) (watch [(SDF_CFG_EN 35, 1)]) (fun e => e.fld TEST_ISTAT_LOOP == 1 && e.hasFault fiLoop (loopDetail (.sdf 35))) = true ∧
    c (.loopback (.pwm 11) true) (watch [(PWM_CFG_EN 11, 1)]) (fun e => e.fld TEST_ISTAT_LOOP == 0 && arrGet false e.test.loops 11) = true := by decide +kernel

/-- Everything that Watch tests has been covered. -/
def covered : TestSt := { marched := (List.range 88).map (fun i => (i, bankWords i)), romDone := true, cmpDone := 1, periodStart := some 0, slices := [(0, 64)] }

theorem witness_WatchRuns_period :
    (sets { run0 (both {}) (devAt 36000000000) with test := covered } [(TEST_WCFG_PERIOD, 1)]).uncovered = 0 ∧
    c .watchPeriodEnd (sets { run0 (both {}) (devAt 36000000000) with test := covered } [(TEST_WCFG_PERIOD, 1)]) (fun e =>
      e.fld TEST_WSTAT_PASSES == 1 && e.test.periodStart == some 36000000000 && e.test.marched.isEmpty) = true ∧
    c .watchPeriodEnd (sets { run0 (both {}) (devAt 36000000000) with test := { covered with romDone := false } } [(TEST_WCFG_PERIOD, 1)]) (fun e =>
      e.fld TEST_WSTAT_LATE == 2 && e.hasFault fiLate 2) = true := by decide +kernel

/-- Pair 0 on step 48 with the given VPAIR, GUARD 30 ps and slack low since tick 0. -/
def aged (mv t : Nat) : Dev :=
  sets { run0 { (both {}) with vmv := mv } (devAt t) with age := { lowSince := [(0, some 0)], onTicks := 500 * 2160000000000 } } [(AGEING_CFG_GUARD, 30)]

theorem witness_AgeingHeld :
    700 + 25 * (48 - 36) / 2 = 850 ∧
    c (.voltageAdjust 0 29 0) (aged 846 0) (fun e => (e.pair 0).vmv == 850) = true ∧
    c (.voltageAdjust 0 29 0) (aged 850 6000000) (fun e => (e.pair 0).vmv == 850 && e.hasFault fiMonitor 0) = true ∧
    c (.voltageAdjust 0 29 0) (aged 850 5999999) (fun e => !e.hasFault fiMonitor 0) = true ∧
    c (.voltageAdjust 0 30 0) (aged 800 0) (fun e => (e.pair 0).vmv == 800) = true ∧
    c (.voltageAdjust 0 50 0) (aged 800 0) (fun e => (e.pair 0).vmv == 800) = true ∧
    c (.voltageAdjust 0 51 0) (aged 652 0) (fun e => (e.pair 0).vmv == 650) = true ∧
    (aged 800 0).age.planHours + 500 ≤ (aged 800 0).age.onTicks / 2160000000000 ∧ (aged 800 0).outOfUse 0 = false ∧
    c (.marginPlannerRun (some 36 :: none :: some 35 :: List.replicate 13 (some 48))) (sets (aged 800 0) [(PAIRCTL_ROLE_STATE 15, stRetired), (AGEING_PAIR_STEP 0, 48), (AGEING_PAIR_STEP 14, 40)]) (fun e =>
      e.fld (AGEING_PAIR_STEP 0) == 36 && e.hasFault fiRetire 1 && e.hasFault fiRetire 2 && e.fld (AGEING_PAIR_STEP 14) == 40 &&
      e.age.planHours == 500) = true := by decide +kernel

/-! ### Debug (chapter 20) -/

/-- An open session in MANUFACTURE, pair 0 in the given state. -/
def session (x : Pair := both {}) (l : List (Fld × Nat) := []) : Dev :=
  sets (run0 x { devAt 600000000 with trust := ({} : TrustSt).blowTo 1 }) ([(DEBUG_STAT_SESSION, 1), (SYSCTL_STAT_DBGATT, 1), (DEBUG_CFG_IDLE, 1)] ++ l)

/-- The same with a command working. -/
def working (d : Dev) : Dev := { d with tdr := { d.tdr with work := some ⟨5, none, none, false⟩ } }

/-- The status, tag and length of the last reply. -/
def reply (e : Dev) : Option (Nat × Nat × Nat) := e.tdr.reply.map (fun r => (r.status, r.tag, r.payload.length))

theorem witness_TenderWire :
    c .resetPulse session (fun e => e.backInBoot && e.fld DEBUG_STAT_SESSION == 0 && e.fld DEBUG_RSTCNT_PULSES == 1) = true ∧
    c .lineError session (fun e => e.fld DEBUG_CNT_LINE == 1 && e.tdr.reply == none) = true ∧
    c .badframe session (fun e => reply e == some (7, 0, 0)) = true ∧
    dev0.working = false ∧ dev0.session = false ∧ session.session = true ∧ (working session).working = true ∧
    c (.attach 9) dev0 (fun e => reply e == some (0, 9, 12) && e.fld DEBUG_STAT_SESSION == 1 && e.fld SYSCTL_STAT_DBGATT == 1) = true ∧
    c (.attach 9) session (fun e => reply e == some (0, 9, 12)) = true ∧
    c (.attach 9) (working session) (fun e => reply e == some (3, 9, 0)) = true ∧
    c (.detach 9) { session with trust := { session.trust with grant := some ⟨1, 1, [], 0, 1⟩ } } (fun e => reply e == some (0, 9, 0) &&
      e.fld DEBUG_STAT_SESSION == 0 && e.trust.grant == none) = true ∧
    c .sessionIdleTimeout session (fun e => e.fld DEBUG_STAT_SESSION == 0) = true ∧
    c (.status 9) dev0 (fun e => reply e == some (0, 9, 72)) = true ∧
    c .pendingReply (working session) (fun e => reply e == some (2, 5, 0)) = true ∧
    c (.result 5) { session with tdr := { session.tdr with work := some ⟨5, some ⟨0, 5, [1]⟩, none, true⟩ } } (fun e => reply e == some (0, 5, 1)) = true ∧
    session.trust.waiting.length < 3 ∧
    c (.signed 9 [1, 2]) session (fun e => reply e == some (2, 9, 0) && e.trust.waiting == [⟨[1, 2], .tender, none⟩] && e.working) = true ∧
    c (.debugUnknown 9) session (fun e => reply e == some (10, 9, 0)) = true := by decide +kernel

/-- In DEPLOYED with a grant of pair 0, all rights, and one region of I/O from 0 to 0xFFFFFF. -/
def deployed : Dev :=
  let d := { session with trust := ({} : TrustSt).blowTo 3 }
  { d with trust := { d.trust with grant := some ⟨1, 31, [(0, 0xFFFFC0, 2 ^ 31 + 16 + 3)], 0, 1⟩ } }

theorem witness_DebugJudged :
    [Instr.halt 9 1, .resume 9 1, .step 9 0 1, .setcomp 9 0 0 0 0 0, .rdcore 9 0 1 1 0, .wrcore 9 0 1 0 [0], .read 9 true false 4 0, .write 9 true 0 [0]].all
      (fun i => c i (working session) (fun e => reply e == some (3, 9, 0)) && c i dev0 (fun e => reply e == some (8, 9, 0)) &&
        c i { session with trust := ({} : TrustSt).blowTo 5 } (fun e => reply e == some (1, 9, 0) && e.fld DEBUG_CNT_DENY == 1)) = true ∧
    deployed.debugRight 0 1 = true ∧ deployed.debugRight 0 3 = false ∧
    deployed.grantCovers { wr := false, io := true, live := false, addr := 0xFFFFFC, count := 4, data := [] } = true ∧
    deployed.grantCovers { wr := false, io := true, live := false, addr := 0xFFFFFC, count := 5, data := [] } = false ∧
    ({ wr := true, io := true, live := false, addr := 0x0DFFFC, count := 4, data := [] } : DebugReq).refused = true ∧
    ({ wr := true, io := true, live := false, addr := 0x0E0000, count := 4, data := [] } : DebugReq).refused = false ∧
    c (.write 9 true 0x120000 [0, 0, 0, 0]) deployed (fun e => reply e == some (1, 9, 0)) = true := by decide +kernel

/-- Pair 0 halted. -/
def halted : Pair := { (both {}) with dbg := { ({} : DbgState) with halted := true } }

theorem witness_DebugCommands_pair :
    session.pairs.length = 16 ∧ session.physOf 0 < 16 ∧ session.debugRight 0 1 = true ∧ session.debugRight 3 1 = true ∧
    c (.halt 9 1) session (fun e => (e.pair 0).capture == [.halt] && reply e == some (0, 9, 0)) = true ∧
    c (.halt 9 1) (session halted) (fun e => (e.pair 0).capture == []) = true ∧
    c (.resume 9 1) (session halted) (fun e => (e.pair 0).capture == [.resume]) = true ∧
    c (.step 9 0 65535) session (fun e => reply e == some (9, 9, 0)) = true ∧
    c (.step 9 0 65535) (session halted) (fun e => (e.pair 0).capture == [.step 65535] && reply e == some (0, 9, 0)) = true ∧
    (session { halted with capture := [.step 65535] }).presents 0 = true ∧
    c (.captureInput 0 false) (session { halted with capture := [.step 65535] }) (fun e => (e.pair 0).dbg.stepLeft == 65535 &&
      !(e.pair 0).dbg.halted && e.fld (DEBUG_PSTAT_STEP 0) == 1 && (e.pair 0).capture == []) = true ∧
    c (.setcomp 9 0 7 0xFFFFFFFF 1 0x800003FF) session (fun e => e.fld (DEBUG_COMPADDR_ADDR 0 7) == 0xFFFFFFFF && e.fld (DEBUG_COMPCTL_EN 0 7) == 1 &&
      e.fld (DEBUG_COMPCTL_KIND 0 7) == 3 && e.fld (DEBUG_COMPCTL_SLOTS 0 7) == 255) = true := by decide +kernel

theorem witness_DebugCommands_data :
    session.pairRuns 0 = true ∧ ((({} : Core).areaRead 1 131068 4).2 = []) ∧
    c (.rdcore 9 0 1 4 131068) session (fun e => e.tdr.reply == some ⟨0, 9, [0, 0, 0, 0]⟩) = true ∧
    c (.wrcore 9 0 1 131064 [1, 2, 3, 4, 5, 6, 7, 8]) session (fun e => reply e == some (9, 9, 0)) = true ∧
    c (.wrcore 9 0 1 131064 [1, 2, 3, 4, 5, 6, 7, 8]) (session halted) (fun e => (e.pair 0).dbg.ckptFirst &&
      (ramRead (e.pair 0).shadow.dmem 16383 16383).value == 0x0807060504030201) = true ∧
    session.start.clocksOff = false ∧ session.fab == {} ∧ (regAt 0x150000).isSome = true ∧ (regAt 0x030000).isSome = true ∧ session.debugRight 4 0 = true ∧
    session.grantCovers { wr := false, io := true, live := false, addr := 0x150000, count := 4, data := [] } = true ∧
    session.mpuCheck mDebug { io := true, addr := 0x150000, size := 4, rd := true, wr := false } = none ∧
    session.mpuCheck mDebug { io := true, addr := 0x030000, size := 4, rd := false, wr := true } = none ∧
    c (.read 9 true false 4 0x150000) session (fun e => reply e == some (0, 9, 4)) = true ∧
    c (.write 9 true 0x030000 [1, 0, 0, 0]) session (fun e => reply e == some (0, 9, 0)) = true := by decide +kernel

/-! ### Registers, DMA and the queue (chapters 0 and 21) -/

/-- Logical pair 1's MPU has no default rule. -/
def shut : Dev := { dev0 with mpu := { sets := [(1, { nodef := true })] } }

theorem witness_RegisterWrites :
    shut.mpuCheck 1 { io := true, addr := 0x030000, size := 4, rd := false, wr := true } = some (false, true) ∧
    c (.registerWrite 1 false 0x030000 1) shut (fun e => e.fab.denials.length == 1 && e.io == dev0.io) = true ∧
    dev0.mpuCheck 1 { io := true, addr := 0x03FFFC, size := 4, rd := false, wr := true } = none ∧ regAt 0x03FFFC = none ∧
    c (.registerWrite 1 false 0x03FFFC 1) dev0 (fun e => e.io == dev0.io) = true ∧
    c (.registerWrite 1 false 0x050000 0xFFFFFFFF) (sets dev0 [(MEMCTL_ISTAT_COLLIDE, 1)]) (fun e => e.fld MEMCTL_ISTAT_COLLIDE == 0) = true ∧
    ioLocked (sets dev0 [(FABRIC_LOCK_LOCK, 1)]).io 0x030000 = true := by decide +kernel

theorem witness_DmaTransfers :
    c (.dmaChannelStart 1 31 true) dev0 (fun e => e.fld (DMA_CHSTAT_BUSY 1 31) == 0) = true ∧
    c (.dmaChannelStart 1 31 true) (sets dev0 [(DMA_CHCFG_EN 1 31, 1), (DMA_CHLEN_LEN 1 31, 8)]) (fun e => e.fld (DMA_CHSTAT_BUSY 1 31) == 1 &&
      (e.dma.map (fun x => x.2.len)) == [8]) = true ∧
    c (.dmaChannelStart 1 31 true) (sets dev0 [(DMA_CHCFG_EN 1 31, 1), (DMA_CHSTAT_BUSY 1 31, 1)]) (fun e => e.fld (DMA_CHSTAT_SWOVR 1 31) == 1) = true ∧
    c (.dmaChannelStart 1 31 false) ((sets dev0 [(DMA_CHCFG_EN 1 31, 1), (DMA_CHCFG_GATED 1 31, 1)]).setLatch (dmaInput 1 31) (some ⟨6, 2⟩)) (fun e =>
      (e.dma.map (fun x => x.2.trig)) == [some ⟨6, 2⟩] && e.latch (dmaInput 1 31) == none) = true ∧
    mapFind dev0.dma (dmaChannel 1 31) = none ∧
    (let r : DmaRun := { trig := none, src := 0x10000000, dst := 0x10000040, len := 8, sio := false, dio := false }
     let d := sets { appending 0x1122 with dma := [(dmaChannel 1 31, r)] } [(DMA_CHSTAT_BUSY 1 31, 1)]
     (d.dmaCopy 17 (dmaChannel 1 31) r 0 (8 / 4 + 4)).1 = .ok ∧
     c (.dmaTransferEnd 1 31) d (fun e => e.fld (DMA_CHSTAT_BUSY 1 31) == 0 && (e.fld (DMA_DONE_DONE 1)).testBit 31 &&
       (ramRead e.mem.ram (bankKey 1 0) 0).value == 0x1122 && e.dma.isEmpty) = true) := by decide +kernel

theorem witness_StepTakesFrontCommand :
    (match step ⟨[.v5on, .v3on], dev0⟩ with | .next t => t.pending == [.v3on] | _ => false) = true ∧
    (match step ⟨[], dev0⟩ with | .next t => t.pending == [] && t.dev.ticks == 1 | _ => false) = true := by decide +kernel

theorem witness_TimePasses :
    dev0.power.converter = true ∧ dev0.island.resetAfterSeal = false ∧
    (match step ⟨[], dev0⟩ with | .next t => t.dev.lantern.lt == 1 | _ => false) = true ∧
    (match step ⟨[], Dev.reset⟩ with | .next t => t.dev.lantern.lt == 0 && t.dev.ticks == 1 | _ => false) = true ∧
    (match step ⟨[], { dev0 with power := { dev0.power with converter := false } }⟩ with | .next t => t.dev.ticks == 0 | _ => false) = true := by
  decide +kernel

theorem witness_sound_states :
    dev0.ioWf = true ∧ dev0.pairs.length = 16 ∧ dev0.memWf = true ∧ dev0.pairs.all Pair.memWf = true ∧
    (match step ⟨[.sstop ⟨0, 0, 0⟩], dev0⟩ with | .next t => t.dev.ioWf && t.dev.memWf | _ => false) = true := by decide +kernel

theorem witness_BundleRoundTrip :
    neverB.wf = true ∧ encodeBundle neverB < 2 ^ 256 ∧ (match decodeBundle (encodeBundle neverB) with | .ok b => b == neverB | .error _ => false) = true := by decide +kernel

end Sys2Proof.Tests
end

section
/-! PROOFS. Every step keeps the register map canonical and the 16 pairs (`Obligations.StepKeepsRegisters`). The model
writes its registers through `Dev.setWord`, `Dev.setFld` and `Dev.storeReg` and its pairs through `Dev.setPair`, each of
which keeps both; so a device function keeps both whenever it is put together from these and from updates of other
fields. `Dev.Sound.f` says so of the function `f`, in the order of the model's files. -/

namespace Sys2Proof.Machine

/-! ### Sound devices -/

/-- A device whose register map is canonical, with its 16 pairs: what every step keeps. -/
structure Dev.Sound (d : Dev) : Prop where
  regs : d.RegsOk
  pairs : d.pairs.length = 16

section
variable {d e : Dev}

theorem Dev.Sound.ite {c : Prop} {_ : Decidable c} (hd : d.Sound) (he : e.Sound) : (if c then d else e).Sound := by
  split
  · exact hd
  · exact he

theorem Dev.Sound.iteSnd {α : Type} {c : Prop} {_ : Decidable c} {x y : α × Dev} (hx : x.2.Sound) (hy : y.2.Sound) :
    (if c then x else y).2.Sound := by
  split
  · exact hx
  · exact hy

theorem Dev.Sound.iteThd {α β : Type} {c : Prop} {_ : Decidable c} {x y : α × β × Dev} (hx : x.2.2.Sound)
    (hy : y.2.2.Sound) : (if c then x else y).2.2.Sound := by
  split
  · exact hx
  · exact hy

/-- The device that a pair of values carries. -/
theorem Dev.Sound.of_fst {α : Type} {x : Dev × α} {e : Dev} {a : α} (hx : x = (e, a)) (h : x.1.Sound) : e.Sound := by
  subst hx
  exact h

theorem Dev.Sound.of_snd {α : Type} {x : α × Dev} {a : α} (hx : x = (a, e)) (h : x.2.Sound) : e.Sound := by
  subst hx
  exact h

theorem Dev.Sound.of_thd {α β : Type} {x : α × β × Dev} {a : α} {b : β} (hx : x = (a, b, e)) (h : x.2.2.Sound) :
    e.Sound := by
  subst hx
  exact h

theorem Dev.Sound.foldl {α : Type} {f : Dev → α → Dev} {l : List α} (h : d.Sound)
    (hf : ∀ e a, e.Sound → (f e a).Sound) : (l.foldl f d).Sound :=
  foldl_keeps Dev.Sound f hf l d h

theorem Dev.Sound.setWord {a w} (h : d.Sound) : (d.setWord a w).Sound := ⟨regsOk_setWord a w h.regs, h.pairs⟩
theorem Dev.Sound.setFld {f v} (h : d.Sound) : (d.setFld f v).Sound := ⟨regsOk_setFld f v h.regs, h.pairs⟩
theorem Dev.Sound.storeReg {a w} (h : d.Sound) : (d.storeReg a w).Sound :=
  ⟨regsOk_storeReg a w h.regs, by rcases storeReg_cases d a w with e | ⟨v, e⟩ <;> rw [e] <;> exact h.pairs⟩
theorem Dev.Sound.setPair {p x} (h : d.Sound) : (d.setPair p x).Sound :=
    ⟨h.regs, (length_setPair d p x).trans h.pairs⟩

theorem Dev.Sound.withTicks {x} (h : d.Sound) : Dev.Sound { d with ticks := x } := ⟨h.regs, h.pairs⟩
theorem Dev.Sound.withFree {x} (h : d.Sound) : Dev.Sound { d with free := x } := ⟨h.regs, h.pairs⟩
theorem Dev.Sound.withBind {x} (h : d.Sound) : Dev.Sound { d with bind := x } := ⟨h.regs, h.pairs⟩
theorem Dev.Sound.withSpareGone {x} (h : d.Sound) : Dev.Sound { d with spareGone := x } := ⟨h.regs, h.pairs⟩
theorem Dev.Sound.withFab {x} (h : d.Sound) : Dev.Sound { d with fab := x } := ⟨h.regs, h.pairs⟩
theorem Dev.Sound.withMpu {x} (h : d.Sound) : Dev.Sound { d with mpu := x } := ⟨h.regs, h.pairs⟩
theorem Dev.Sound.withMem {x} (h : d.Sound) : Dev.Sound { d with mem := x } := ⟨h.regs, h.pairs⟩
theorem Dev.Sound.withEvt {x} (h : d.Sound) : Dev.Sound { d with evt := x } := ⟨h.regs, h.pairs⟩
theorem Dev.Sound.withIntc {x} (h : d.Sound) : Dev.Sound { d with intc := x } := ⟨h.regs, h.pairs⟩
theorem Dev.Sound.withIsland {x} (h : d.Sound) : Dev.Sound { d with island := x } := ⟨h.regs, h.pairs⟩
theorem Dev.Sound.withKeeper {x} (h : d.Sound) : Dev.Sound { d with keeper := x } := ⟨h.regs, h.pairs⟩
theorem Dev.Sound.withPower {x} (h : d.Sound) : Dev.Sound { d with power := x } := ⟨h.regs, h.pairs⟩
theorem Dev.Sound.withLantern {x} (h : d.Sound) : Dev.Sound { d with lantern := x } := ⟨h.regs, h.pairs⟩
theorem Dev.Sound.withDrive {x} (h : d.Sound) : Dev.Sound { d with drive := x } := ⟨h.regs, h.pairs⟩
theorem Dev.Sound.withNvs {x} (h : d.Sound) : Dev.Sound { d with nvs := x } := ⟨h.regs, h.pairs⟩
theorem Dev.Sound.withPersist {x} (h : d.Sound) : Dev.Sound { d with persist := x } := ⟨h.regs, h.pairs⟩
theorem Dev.Sound.withStart {x} (h : d.Sound) : Dev.Sound { d with start := x } := ⟨h.regs, h.pairs⟩
theorem Dev.Sound.withMirror {x} (h : d.Sound) : Dev.Sound { d with mirror := x } := ⟨h.regs, h.pairs⟩
theorem Dev.Sound.withEth {x} (h : d.Sound) : Dev.Sound { d with eth := x } := ⟨h.regs, h.pairs⟩
theorem Dev.Sound.withCan {x} (h : d.Sound) : Dev.Sound { d with can := x } := ⟨h.regs, h.pairs⟩
theorem Dev.Sound.withBuoy {x} (h : d.Sound) : Dev.Sound { d with buoy := x } := ⟨h.regs, h.pairs⟩
theorem Dev.Sound.withTrust {x} (h : d.Sound) : Dev.Sound { d with trust := x } := ⟨h.regs, h.pairs⟩
theorem Dev.Sound.withTest {x} (h : d.Sound) : Dev.Sound { d with test := x } := ⟨h.regs, h.pairs⟩
theorem Dev.Sound.withAge {x} (h : d.Sound) : Dev.Sound { d with age := x } := ⟨h.regs, h.pairs⟩
theorem Dev.Sound.withTdr {x} (h : d.Sound) : Dev.Sound { d with tdr := x } := ⟨h.regs, h.pairs⟩
theorem Dev.Sound.withDma {x} (h : d.Sound) : Dev.Sound { d with dma := x } := ⟨h.regs, h.pairs⟩

/-! ### Ops -/

theorem Dev.Sound.flag {f} (h : d.Sound) : (d.flag f).Sound := h.setFld

theorem Dev.Sound.setBitOf {f i} (h : d.Sound) : (d.setBitOf f i).Sound := h.setFld

theorem Dev.Sound.clearBitOf {f i} (h : d.Sound) : (d.clearBitOf f i).Sound := h.setFld

theorem Dev.Sound.count {f} (h : d.Sound) : (d.count f).Sound := h.setFld

theorem Dev.Sound.setPair64 {lo hi v} (h : d.Sound) : (d.setPair64 lo hi v).Sound := h.setFld.setFld

theorem Dev.Sound.fresh (h : d.Sound) : d.fresh.2.Sound := h.withFree

theorem Dev.Sound.present {input detail} (h : d.Sound) : (d.present input detail).Sound := h.withIsland

theorem Dev.Sound.produce {e} (h : d.Sound) : (d.produce e).Sound := h.withEvt

theorem Dev.Sound.setLatch {c v} (h : d.Sound) : (d.setLatch c v).Sound := h.withEvt

theorem Dev.Sound.setPairState {p s} (h : d.Sound) : (d.setPairState p s).Sound := h.setFld

theorem Dev.Sound.capture {p c} (h : d.Sound) : (d.capture p c).Sound := h.setPair

theorem Dev.Sound.presentPair {p k} (h : d.Sound) : (d.presentPair p k).Sound := h.present

theorem Dev.Sound.addEntry {type args body} (h : d.Sound) : (d.addEntry type args body).Sound := .ite h h.withNvs

theorem Dev.Sound.sealPage {bad} (h : d.Sound) : (d.sealPage bad).Sound := by
  unfold Dev.sealPage
  extract_lets n a run d1
  have h1 : d1.Sound := .ite h.present.flag h
  exact (Dev.Sound.ite h1.setFld.present.flag h1.setFld).count.withNvs

theorem Dev.Sound.journal {type args body} (h : d.Sound) : (d.journal type args body).Sound :=
  .ite h (.ite h.addEntry.sealPage h.addEntry)

theorem Dev.Sound.setGroup {g x} (h : d.Sound) : (d.setGroup g x).Sound := h.withDrive

theorem Dev.Sound.forceGroup {g} (h : d.Sound) : (d.forceGroup g).Sound := h.setGroup

theorem Dev.Sound.assertForce (h : d.Sound) : d.assertForce.Sound := .foldl h.flag fun _ _ h => h.forceGroup

theorem Dev.Sound.forceByMode (h : d.Sound) : d.forceByMode.Sound := .ite h.setFld h.assertForce

theorem Dev.Sound.clearCounts (h : d.Sound) : d.clearCounts.Sound := .foldl h fun _ _ h => h.setFld

theorem Dev.Sound.freshWindow (h : d.Sound) : d.freshWindow.Sound := h.clearCounts.setFld.withKeeper

theorem Dev.Sound.keeperMode {m} (h : d.Sound) : (d.keeperMode m).Sound :=
  .ite h (.ite (.ite h.setFld.freshWindow h) h.setFld.withKeeper)

theorem Dev.Sound.enterMode {m trig} (h : d.Sound) : (d.enterMode m trig).Sound := by
  unfold Dev.enterMode
  extract_lets old d1 d2 d3 d4 d5
  have h3 : d3.Sound := (Dev.Sound.ite h.setFld.setFld.setFld h.setFld.setFld).journal.keeperMode
  have h5 : d5.Sound := .ite h3.forceByMode h3.forceByMode.setFld
  exact .ite h5.withTest (.ite h5.withTest h5)

theorem Dev.Sound.safeStopCause {trig} (h : d.Sound) : (d.safeStopCause trig).Sound :=
  .ite h.assertForce.enterMode (.ite h.assertForce h.assertForce.flag)

theorem Dev.Sound.afterPairLost (h : d.Sound) : d.afterPairLost.Sound :=
  .ite h.assertForce.enterMode (.ite h.enterMode h)

theorem Dev.Sound.cmdStat {code status} (h : d.Sound) : (d.cmdStat code status).Sound := h.setFld.setFld.setFld

theorem Dev.Sound.refuse {code prot} (h : d.Sound) : (d.refuse code prot).Sound := by
  unfold Dev.refuse
  extract_lets d1
  have h1 : d1.Sound := h.count.setFld.setFld
  exact .ite h1.journal h1

/-! ### Intc -/

theorem Dev.Sound.setIntc {n x} (h : d.Sound) : (d.setIntc n x).Sound := h.withIntc

theorem Dev.Sound.edge {n s} (h : d.Sound) : (d.edge n s).Sound := .ite h.setBitOf h.setIntc

theorem Dev.Sound.clearEdge {n s} (h : d.Sound) : (d.clearEdge n s).Sound := h.setIntc

theorem Dev.Sound.acknowledge {n set} (h : d.Sound) : (d.acknowledge n set).Sound := .foldl h fun _ _ h => h.clearEdge

theorem Dev.Sound.sourceEdge {n s} (h : d.Sound) : (Machine.sourceEdge n s d).Sound := .ite h.edge h.setIntc

theorem Dev.Sound.presentIrq {n} (h : d.Sound) : (Machine.presentIrq n d).Sound := h.setIntc.capture

theorem Dev.Sound.swset {n set} (h : d.Sound) : (Machine.swset n set d).Sound := .foldl h fun _ _ h => h.edge

/-! ### Events -/

theorem Dev.Sound.consequence {prod cons trig stamp} (h : d.Sound) : (d.consequence prod cons trig stamp).Sound :=
  h.produce

theorem Dev.Sound.setWaits {c n} (h : d.Sound) : (d.setWaits c n).Sound := h.withEvt

theorem Dev.Sound.sendWait {c stamp} (h : d.Sound) : (d.sendWait c stamp).Sound := h.capture

theorem Dev.Sound.emitted {n t merged} (h : d.Sound) : (d.emitted n t merged).Sound :=
  .foldl (Dev.Sound.ite h.count.flag h).count.setBitOf.setFld.setFld fun _ _ h => h.edge

theorem Dev.Sound.emission {n} (h : d.Sound) : (Machine.emission n d).Sound := by
  unfold Machine.emission
  extract_lets ready loops evs out due _ d1 d2
  have h2 : d2.Sound := .foldl h.withEvt fun _ _ h => h.emitted
  exact .ite h2 h2.withEvt

theorem Dev.Sound.deliver {x} (h : d.Sound) : (d.deliver x).Sound := by
  unfold Dev.deliver
  extract_lets c d1
  have h1 : d1.Sound := .ite h.flag.flag.count h
  exact .ite h1.setWaits.sendWait (.ite h1.setLatch h1.flag.flag.count)

theorem Dev.Sound.delivery (h : d.Sound) : (Machine.delivery d).Sound := by
  unfold Machine.delivery
  split
  · exact h
  · exact .foldl h.withEvt fun _ _ h => h.deliver

theorem Dev.Sound.waitArrival (h : d.Sound) : (Machine.waitArrival d).Sound := by
  unfold Machine.waitArrival
  split
  · exact h
  · extract_lets
    split
    · exact h.withEvt.setLatch.sendWait
    · exact h.withEvt.setWaits

theorem Dev.Sound.dropLoop (h : d.Sound) : (Machine.dropLoop d).Sound := by
  unfold Machine.dropLoop
  split
  · exact h
  · exact .ite h.withEvt.flag.present h.withEvt.flag.present.flag.setFld.setFld

theorem Dev.Sound.cenWrite {c hi v} (h : d.Sound) : (Machine.cenWrite c hi v d).Sound := .ite h (.ite h.flag h.setFld)

theorem Dev.Sound.watchTake {c} (h : d.Sound) : (Machine.watchTake c d).Sound := .ite h.setLatch h

/-! ### Memory -/

theorem Dev.Sound.bucketUp {inst} (h : d.Sound) : (d.bucketUp inst).Sound :=
  .ite h.setFld (.ite h.setFld h.setFld.setBitOf.flag.present)

theorem Dev.Sound.correctable {inst} (h : d.Sound) : (d.correctable inst).Sound := .ite h.count h.count.bucketUp

theorem Dev.Sound.recordUe {master inst addr scrub} (h : d.Sound) : (d.recordUe master inst addr scrub).Sound :=
  .ite h h.flag.setFld.setFld.setFld.setFld

theorem Dev.Sound.uncorrectable {master inst addr scrub} (h : d.Sound) :
    (d.uncorrectable master inst addr scrub).Sound := by
  unfold Dev.uncorrectable
  extract_lets d1 d2
  have h2 : d2.Sound := .ite h.count.flag h.count.flag
  exact .ite h2.recordUe h2.recordUe.present

theorem Dev.Sound.queueWriteBack {inst word} (h : d.Sound) : (d.queueWriteBack inst word).Sound := .ite h h.withMem

theorem Dev.Sound.noteRead {master inst word addr r scrub} (h : d.Sound) :
    (d.noteRead master inst word addr r scrub).Sound := by
  unfold Dev.noteRead
  extract_lets d1
  have h1 : d1.Sound := .ite h.flag.setFld.setFld.setFld h
  exact .ite (.uncorrectable (.ite h1.correctable h1)) (.ite (.ite h1.correctable h1.correctable.queueWriteBack) h1)

theorem Dev.Sound.bankRead {master inst word} (h : d.Sound) : (d.bankRead master inst word).2.2.Sound :=
  h.withMem.noteRead

theorem Dev.Sound.bankWrite {inst word v} (h : d.Sound) : (d.bankWrite inst word v).Sound := h.withMem

theorem Dev.Sound.bankStore {master inst word al data mask} (h : d.Sound) :
    (d.bankStore master inst word al data mask).2.Sound :=
  .iteSnd h.bankWrite (.iteSnd h.bankRead h.bankRead.bankWrite)

theorem Dev.Sound.romRead {master word} (h : d.Sound) : (d.romRead master word).2.2.Sound :=
  .iteThd h (.ite h.uncorrectable h.correctable)

theorem Dev.Sound.targetRead {master t} (h : d.Sound) : (d.targetRead master t).2.2.Sound := by
  unfold Dev.targetRead
  split
  · exact .iteThd h.bankRead h.bankRead
  · exact .iteThd h.romRead h.romRead
  · exact .iteThd h h
  · exact h
  · exact h

theorem Dev.Sound.targetWrite {master t data mask} (h : d.Sound) : (d.targetWrite master t data mask).2.Sound := by
  unfold Dev.targetWrite
  split
  · exact h.bankStore
  · exact h

theorem Dev.Sound.setLocalRam {inst m} (h : d.Sound) : (d.setLocalRam inst m).Sound := h.setPair

theorem Dev.Sound.setInstRam {inst m} (h : d.Sound) : (d.setInstRam inst m).Sound := .ite h.withMem h.setLocalRam

theorem Dev.Sound.writeBack {inst word} (h : d.Sound) : (Machine.writeBack inst word d).Sound :=
  .ite (.ite h.withMem h.withMem.setInstRam) h

theorem Dev.Sound.scrub (h : d.Sound) : (Machine.scrub d).Sound := by
  unfold Machine.scrub
  split
  · split
    · exact h
    · exact h.withMem.setInstRam.noteRead
  · exact h

theorem Dev.Sound.leak (h : d.Sound) : (Machine.leak d).Sound :=
  .ite (.foldl h.withMem fun _ _ h => .ite h h.setFld) h

theorem Dev.Sound.etctlWrite {w} (h : d.Sound) : (Machine.etctlWrite w d).Sound := h.setFld.setFld

/-! ### Mpu -/

theorem Dev.Sound.denied {m a why req} (h : d.Sound) : (d.denied m a why req).Sound := h.withFab

theorem Dev.Sound.recordDenial {x} (h : d.Sound) : (d.recordDenial x).Sound :=
  (Dev.Sound.ite h.count h.count.setFld.setFld.setFld.setFld.setFld.setFld).flag.present

theorem Dev.Sound.enableWrite {by_ m w} (h : d.Sound) : (Machine.enableWrite by_ m w d).Sound := by
  unfold Machine.enableWrite
  extract_lets locked d1 rs bad ov
  clear_value bad ov
  have h1 : d1.Sound := .ite h h.setFld
  have h2 : Dev.Sound (if ov.isSome then (if bad.isSome then d1.flag MPU_ISTAT_BADREG else d1).flag MPU_ISTAT_OVERLAP
      else if bad.isSome then d1.flag MPU_ISTAT_BADREG else d1) := .ite (.flag (.ite h1.flag h1)) (.ite h1.flag h1)
  split
  · exact h1
  · split
    · exact h1.withMpu.setFld
    · exact h2.setFld.setFld.setFld

theorem Dev.Sound.syncDone {x} (h : d.Sound) : (d.syncDone x).Sound := h.withMpu

/-! ### Fabric -/

/-- The function is unfolded while it stands alone: against the applied one, the kernel would try to evaluate the
  mirror's
address and count out its factor 0x50000. So also below. -/
theorem Dev.Sound.mirrorWord {lp off v} (h : d.Sound) : (d.mirrorWord lp off v).Sound := by
  generalize hf : Dev.mirrorWord = f
  delta Dev.mirrorWord at hf
  subst hf
  beta_reduce
  split
  · exact h.bankWrite
  · exact h

theorem Dev.Sound.mirrorWords {lp} : ∀ {l : List DWord} {d : Dev} {off}, d.Sound → (d.mirrorWords lp off l).Sound
  | [], _, _, h => h
  | _ :: _, _, _, h => h.mirrorWord.mirrorWords

theorem Dev.Sound.answer {lp imm mark tag slot value code addr lock fill} (h : d.Sound) :
    (d.answer lp imm mark tag slot value code addr lock fill).Sound := by
  unfold Dev.answer
  extract_lets p d1
  have h1 : d1.Sound := by
    unfold d1
    split
    · exact .ite h h.mirrorWords
    · exact h
  exact .ite h1.capture (.ite h1 (.ite h1.setPair.capture h1.setPair))

theorem Dev.Sound.respond {r value code} (h : d.Sound) : (d.respond r value code).Sound :=
  .ite h.setPair (.ite h.answer h.answer)

theorem Dev.Sound.dropLock {lp} (h : d.Sound) : (d.dropLock lp).Sound := h.withFab

theorem Dev.Sound.respondError {r code} (h : d.Sound) : (d.respondError r code).Sound := .respond (.ite h.dropLock h)

theorem Dev.Sound.clearBroken {lp} (h : d.Sound) : (d.clearBroken lp).Sound := h.withFab

theorem Dev.Sound.refuseReq {r} (h : d.Sound) : (d.refuseReq r).Sound :=
  .ite h.clearBroken.respondError h.respondError

theorem Dev.Sound.enqueue {r} (h : d.Sound) : (d.enqueue r).Sound := h.withFab

theorem Dev.Sound.sendReq {p r} (h : d.Sound) : (d.sendReq p r).Sound := by
  unfold Dev.sendReq
  extract_lets
  split
  · exact h.withFab.denied
  · exact .ite (.ite h.withFab.respondError h.withFab.enqueue)
      (.ite h.withFab.answer (.ite h.withFab.refuseReq
      (.ite (.ite h.withFab.refuseReq h.withFab.enqueue) h.withFab.enqueue)))

theorem Dev.Sound.leaveQueue {pt r} (h : d.Sound) : (d.leaveQueue pt r).Sound := (Dev.Sound.ite h.setFld h).withFab

theorem Dev.Sound.passPoint {pt r} (h : d.Sound) : (d.passPoint pt r).Sound := by
  unfold Dev.passPoint
  split
  · exact .ite h.refuseReq h.enqueue
  · exact h.withFab

theorem Dev.Sound.grant {pt} (h : d.Sound) : (Machine.grant pt d).Sound := by
  unfold Machine.grant
  split
  · exact h
  · split
    · exact h
    · exact h.leaveQueue.passPoint

theorem Dev.Sound.urgent {id} (h : d.Sound) : (Machine.urgent id d).Sound := by
  unfold Machine.urgent
  split
  · exact h
  · exact .ite h.withFab.count.flag h

theorem Dev.Sound.breakLock {l} (h : d.Sound) : (d.breakLock l).Sound :=
  h.dropLock.withFab.flag.count.setFld.setFld.setFld.present

theorem Dev.Sound.recoveryBreak {lp} (h : d.Sound) : (d.recoveryBreak lp).Sound := by
  unfold Dev.recoveryBreak
  split
  · exact h.breakLock
  · exact h

theorem Dev.Sound.lockBreak {inst} (h : d.Sound) : (Machine.lockBreak inst d).Sound := by
  unfold Machine.lockBreak
  split
  · exact .ite h.breakLock h
  · exact h

theorem Dev.Sound.deny (h : d.Sound) : (Machine.deny d).Sound := by
  unfold Machine.deny
  split
  · exact h
  · extract_lets
    split
    · exact h.withFab.recordDenial.respondError
    · exact h.withFab.recordDenial

/-! ### Engine -/

theorem Dev.Sound.waits {w} (h : d.Sound) : (d.waits w).Sound := .ite h h.withFab

theorem Dev.Sound.onHold {h'} (h : d.Sound) : (d.onHold h').Sound := by
  unfold Dev.onHold
  split
  · exact h.waits
  · exact h

/-- What an engine's command leaves is sound, unless its access waits. -/
def SoundOrHeld : Except Hold Dev → Prop
  | .ok e => e.Sound
  | .error _ => True

theorem SoundOrHeld.ite {c : Prop} {_ : Decidable c} {x y : Except Hold Dev} (hx : SoundOrHeld x) (hy : SoundOrHeld y)
    :
    SoundOrHeld (if c then x else y) := by
  split
  · exact hx
  · exact hy

theorem SoundOrHeld.of_ok {x : Except Hold Dev} {e : Dev} (hx : x = .ok e) (h : SoundOrHeld x) : e.Sound := by
  subst hx
  exact h

theorem Dev.Sound.orWait {x} (h : d.Sound) (hx : SoundOrHeld x) : (d.orWait x).Sound := by
  unfold Dev.orWait
  split
  · exact hx
  · exact h.onHold

theorem Dev.Sound.served {m a} (h : d.Sound) : (d.served m a).Sound :=
  (Dev.Sound.foldl h fun _ _ h => h.leaveQueue).withFab

theorem Dev.Sound.takeFailure {m a} (h : d.Sound) : (d.takeFailure m a).Sound := h.withFab

theorem Dev.Sound.lostWrite {r} (h : d.Sound) : (d.lostWrite r).Sound := .ite h.withFab.enqueue h.withFab.withFab

theorem Dev.Sound.engineRead {m addr n} (h : d.Sound) : (d.engineRead m addr n).2.2.Sound := h.targetRead

theorem Dev.Sound.engineWrite {m addr n v} (h : d.Sound) : (d.engineWrite m addr n v).2.Sound := h.targetWrite

theorem Dev.Sound.readPieces {m} : ∀ {l : List (Nat × Nat)} {d : Dev}, d.Sound → (d.readPieces m l).2.2.Sound
  | [], _, h => h
  | (a, n) :: t, d, h => by
    rw [Dev.readPieces]
    split
    next v code d1 hr =>
      have h1 : d1.Sound := .of_thd hr h.engineRead
      exact .iteThd h1 h1.readPieces

theorem Dev.Sound.writePieces {m} : ∀ {l : List (Nat × Nat)} {d : Dev} {bytes}, d.Sound →
    (d.writePieces m bytes l).2.Sound
  | [], _, _, h => h
  | _ :: _, _, _, h => .iteSnd h.engineWrite h.engineWrite.writePieces

theorem Dev.Sound.busRead {m a n} (h : d.Sound) : (d.busRead m a n).2.2.Sound := by
  unfold Dev.busRead
  split
  · exact h
  · split
    · exact h.denied
    · exact h.takeFailure
    · exact h
    · exact .iteThd h.served.readPieces h.served.readPieces

theorem Dev.Sound.busWrite {m a bytes} (h : d.Sound) : (d.busWrite m a bytes).2.Sound := by
  unfold Dev.busWrite
  extract_lets
  split
  · exact h
  · split
    · exact h.denied
    · exact h.takeFailure
    · exact h
    · exact .iteSnd h.served.writePieces h.served.writePieces

theorem Dev.Sound.readBursts {m} : ∀ {l : List (Nat × Nat)} {d : Dev}, d.Sound → (d.readBursts m l).2.2.Sound
  | [], _, h => h
  | (a, n) :: t, d, h => by
    rw [Dev.readBursts]
    split
    next b e d1 hb =>
      have h1 : d1.Sound := .of_thd hb h.busRead
      split
      · exact h1.readBursts
      · exact h1

theorem Dev.Sound.writeBursts {m} : ∀ {l : List (Nat × Nat)} {d : Dev} {bytes}, d.Sound →
    (d.writeBursts m bytes l).2.Sound
  | [], _, _, h => h
  | (a, n) :: t, d, bytes, h => by
    rw [Dev.writeBursts]
    split
    next e d1 hb =>
      have h1 : d1.Sound := .of_snd hb h.busWrite
      split
      · exact h1.writeBursts
      · exact h1

theorem Dev.Sound.engineLoad {m a n} (h : d.Sound) : (d.engineLoad m a n).2.2.Sound := by
  unfold Dev.engineLoad
  split
  · exact h
  · exact h.readBursts

theorem Dev.Sound.engineStore {m a bytes} (h : d.Sound) : (d.engineStore m a bytes).2.Sound := by
  unfold Dev.engineStore
  split
  · exact h
  · exact h.writeBursts

/-! ### Keeper -/

theorem Dev.Sound.expireWith {cause} (h : d.Sound) : (d.expireWith cause).Sound := .ite h h.withKeeper

theorem Dev.Sound.keeperFault {k} (h : d.Sound) : (d.keeperFault k).Sound := .ite h.expireWith h.present

theorem Dev.Sound.keeperEnable {w} (h : d.Sound) : (Machine.keeperEnable w d).Sound :=
  .ite h h.setFld.setFld.setFld.setFld.setFld.setFld.withKeeper.setFld.keeperMode

theorem Dev.Sound.judgeService {m v} (h : d.Sound) : (Machine.judgeService m v d).Sound :=
  .ite h (.ite (.ite h h.flag) (.ite (.ite h h.flag.keeperFault)
    (.ite h.setFld (.ite h.setFld.flag.keeperFault (.ite h.setFld
    (.ite h.setFld.flag.keeperFault h.setFld.flag.setPair64))))))

theorem Dev.Sound.countCheckIn {lp t} (h : d.Sound) : (Machine.countCheckIn lp t d).Sound :=
  .ite h (.ite h.flag (.ite h.flag.present h.count.flag.setFld.setFld))

theorem Dev.Sound.windowClose (h : d.Sound) : (Machine.windowClose d).Sound := by
  unfold Machine.windowClose
  extract_lets len d1
  have h1 : d1.Sound := .ite h h.expireWith
  split
  · exact .ite (.ite h1.setPair64.setPair64 (.ite h1.setPair64.setPair64.flag.expireWith
      h1.setPair64.setPair64.flag.present))
      (.withKeeper (.freshWindow (.ite h1.setPair64.setPair64
        (.ite h1.setPair64.setPair64.flag.expireWith h1.setPair64.setPair64.flag.present))))
  · exact h

theorem Dev.Sound.closeDue (h : d.Sound) : d.closeDue.Sound := h.windowClose.windowClose

theorem Dev.Sound.service {m v} (h : d.Sound) : (Machine.service m v d).Sound := h.closeDue.judgeService

theorem Dev.Sound.keeperCheck {lp t} (h : d.Sound) : (Machine.keeperCheck lp t d).Sound := h.closeDue.countCheckIn

theorem Dev.Sound.resetReaction {trig} (h : d.Sound) : (d.resetReaction trig).Sound := by
  unfold Dev.resetReaction
  extract_lets d1
  have h1 : d1.Sound := h.safeStopCause.flag
  exact (Dev.Sound.ite h1 h1.sealPage).withIsland

theorem Dev.Sound.raiseTrap {p} (h : d.Sound) : (d.raiseTrap p).Sound := .ite h.capture h

theorem Dev.Sound.keeperExpiry (h : d.Sound) : (Machine.keeperExpiry d).Sound := by
  unfold Machine.keeperExpiry
  split
  · exact h
  · exact .foldl (Dev.Sound.foldl h.withKeeper.setFld.setPair64.setFld.flag.setFld fun _ _ h =>
      h.setFld).present.assertForce fun _ _ h => h.raiseTrap

theorem Dev.Sound.hardTimerEnd (h : d.Sound) : (Machine.hardTimerEnd d).Sound := by
  unfold Machine.hardTimerEnd
  split
  · exact h
  · exact .ite h.withKeeper.resetReaction h

theorem Dev.Sound.trapRpc {p rpc} (h : d.Sound) : (d.trapRpc p rpc).Sound := h.setFld.setFld.flag

theorem Dev.Sound.evstatClear (h : d.Sound) : (Machine.evstatClear d).Sound := .foldl h.setFld fun _ _ h => h.setFld

theorem Dev.Sound.keeperFreeze {lp} (h : d.Sound) : (d.keeperFreeze lp).Sound := .ite h.setFld.withKeeper h

theorem Dev.Sound.keeperThaw (h : d.Sound) : d.keeperThaw.Sound :=
  .ite h.count.setFld.flag.setFld.freshWindow.journal h

/-! ### Pair -/

theorem Dev.Sound.noteOcc {p} (h : d.Sound) : (d.noteOcc p).Sound := by
  have up : ∀ {e : Dev} {f v}, e.Sound → Dev.Sound (if e.fld f < v then e.setFld f (min 255 v) else e) :=
    fun he => .ite he.setFld he
  exact up (up (up h))

theorem Dev.Sound.haltPair {p cause} (h : d.Sound) : (d.haltPair p cause).Sound :=
  h.setPair.setFld.setFld.setFld.setFld.setBitOf.flag.keeperFreeze

theorem Dev.Sound.settleHalt {p} (h : d.Sound) : (d.settleHalt p).Sound := .ite h (.ite h.setFld (.ite h.haltPair h))

theorem Dev.Sound.releasePair {p} (h : d.Sound) : (d.releasePair p).Sound :=
  h.setPair.setFld.setFld.clearBitOf.keeperThaw

theorem Dev.Sound.askHalt {p cause} (h : d.Sound) : (d.askHalt p cause).Sound := h.setPair

theorem Dev.Sound.setDetector {p k x} (h : d.Sound) : (d.setDetector p k x).Sound := h.withLantern

theorem Dev.Sound.armDetector {p k} (h : d.Sound) : (d.armDetector p k).Sound := h.setDetector

theorem Dev.Sound.disarmDetector {p k} (h : d.Sound) : (d.disarmDetector p k).Sound := h.setDetector

theorem Dev.Sound.emitArm {p k tb angle down} (h : d.Sound) : (d.emitArm p k tb angle down).Sound := by
  unfold Dev.emitArm
  extract_lets
  split
  · exact h.setPair.disarmDetector
  · exact h.armDetector

theorem Dev.Sound.emitWait {p c} (h : d.Sound) : (d.emitWait p c).Sound := by
  unfold Dev.emitWait
  extract_lets
  split
  · exact h.setPair
  · exact h.withEvt

theorem Dev.Sound.emitImmediate {p r send} (h : d.Sound) (hs : ∀ e : Dev, e.Sound → (send e).Sound) :
    (d.emitImmediate p r send).Sound := by
  unfold Dev.emitImmediate
  extract_lets x y z
  split
  · split
    · exact h.setPair
    · exact h.setPair
  · exact hs _ h.setPair

theorem Dev.Sound.emitSig {p n slot} (h : d.Sound) : (d.emitSig p n slot).Sound := by
  unfold Dev.emitSig
  extract_lets
  split
  · exact h.setPair
  · exact h.setPair.produce

theorem Dev.Sound.emit {p o} (h : d.Sound) : (d.emit p o).Sound := by
  unfold Dev.emit
  extract_lets
  split
  · exact .ite (h.emitImmediate fun _ h => h.sendReq) h.sendReq
  · exact h.emitImmediate fun _ h => h.answer
  · exact h.emitArm
  · exact h.disarmDetector
  · exact h.emitWait
  · exact h.emitSig
  · exact h.denied
  · exact h.presentPair
  · exact h.flag.presentPair
  · exact h.flag.presentPair
  · exact h.trapRpc

theorem Dev.Sound.noteLocal {p shadow n} (h : d.Sound) : (d.noteLocal p shadow n).Sound := by
  unfold Dev.noteLocal
  extract_lets inst m split d1
  have h1 : d1.Sound := .ite h.setLocalRam h
  exact .ite (.count (.ite h1.correctable h1)) (.ite h1.correctable h1.correctable.queueWriteBack)

theorem Dev.Sound.noteBoth {p a b} (h : d.Sound) : (d.noteBoth p a b).Sound :=
  .foldl (.foldl h fun _ _ h => h.noteLocal) fun _ _ h => h.noteLocal

/-! ### Frame -/

theorem Dev.Sound.setSlot {lp b x} (h : d.Sound) : (d.setSlot lp b x).Sound := h.withMirror

theorem Dev.Sound.writeHeader {lp b x} (h : d.Sound) : (d.writeHeader lp b x).Sound := h.mirrorWords.setSlot

theorem Dev.Sound.writeSlot {lp b x} (h : d.Sound) : (d.writeSlot lp b x).Sound :=
  h.mirrorWords.mirrorWords.writeHeader

theorem Dev.Sound.mirrorRead {lp off} (h : d.Sound) : (d.mirrorRead lp off).2.2.Sound := by
  generalize hx : d.mirrorRead lp off = x
  generalize hf : Dev.mirrorRead = f at hx
  delta Dev.mirrorRead at hf
  subst hf
  beta_reduce at hx
  split at hx
  · exact hx ▸ h.bankRead
  · exact hx ▸ h

theorem Dev.Sound.mirrorReads {lp} : ∀ {n} {d : Dev} {off}, d.Sound → (d.mirrorReads lp off n).2.2.Sound
  | 0, _, _, h => h
  | _ + 1, _, _, h => .iteThd h.mirrorRead h.mirrorRead.mirrorReads

theorem Dev.Sound.applyDelta {lp} : ∀ {l : List (Nat × DWord)} {d : Dev}, d.Sound → (d.applyDelta lp l).Sound
  | [], _, h => h
  | _ :: _, _, h => h.mirrorWord.applyDelta

/-! ### Recovery -/

theorem Dev.Sound.restoreGate {p k} (h : d.Sound) : (d.restoreGate p k).Sound := .ite h.emitArm h.setDetector

theorem Dev.Sound.restoreWait {p w} (h : d.Sound) : (d.restoreWait p w).Sound := by
  unfold Dev.restoreWait
  extract_lets
  split
  · exact h.setPair
  · exact h

theorem Dev.Sound.restoreW {p i} (h : d.Sound) : (d.restoreW p i).Sound := h.setWaits

theorem Dev.Sound.settleRestored {p} (h : d.Sound) : (d.settleRestored p).Sound :=
  .foldl (Dev.Sound.foldl (Dev.Sound.foldl h.withEvt fun _ _ h => h.restoreW) fun _ _ h => h.restoreWait) fun _ _ h =>
    h.restoreGate

theorem Dev.Sound.haltAgain {p} (h : d.Sound) : (d.haltAgain p).Sound := .ite h.haltPair h

theorem Dev.Sound.rewriteBundle {p i} (h : d.Sound) : (d.rewriteBundle p i).Sound := by
  generalize hf : Dev.rewriteBundle = f
  delta Dev.rewriteBundle at hf
  subst hf
  beta_reduce
  split
  next ws bad d1 hr =>
    have h1 : d1.Sound := .of_thd hr h.mirrorReads
    exact .ite h1 h1.setPair

theorem Dev.Sound.restart {p fix} (h : d.Sound) : (d.restart p fix).Sound := by
  unfold Dev.restart
  extract_lets _ _ d1 d2
  have h2 : d2.Sound := by
    unfold d2
    split
    · exact h.setPair.rewriteBundle
    · exact h.setPair
  exact h2.settleRestored.haltAgain

theorem Dev.Sound.takeSpare {q} (h : d.Sound) : (d.takeSpare q).Sound := h.withSpareGone

theorem Dev.Sound.designate {p w} (h : d.Sound) : (Machine.designate p w d).Sound :=
  .ite h (.ite h.flag (Dev.Sound.ite h.setFld.setFld.flag h.setFld.setFld).withSpareGone.capture)

theorem Dev.Sound.noteSlow (h : d.Sound) : d.noteSlow.Sound := .foldl h fun _ _ h => .ite h.flag h

theorem Dev.Sound.checkShort {lp} (h : d.Sound) : (d.checkShort lp).Sound := .ite h.setBitOf.flag.present h

theorem Dev.Sound.toFence {p retire} (h : d.Sound) : (d.toFence p retire).Sound := h.setPair

theorem Dev.Sound.stopPair {p} (h : d.Sound) : (d.stopPair p).Sound := h.toFence.flag.presentPair

theorem Dev.Sound.migrate {p q retire} (h : d.Sound) : (d.migrate p q retire).Sound := by
  generalize hf : Dev.migrate = f
  delta Dev.migrate at hf
  subst hf
  beta_reduce
  extract_lets lp own d1 b s
  have h1 : d1.Sound := h.withBind.setFld.setPairState
  clear_value d1
  split
  next imem bad1 d2 e1 =>
    have h2 : d2.Sound := .of_thd e1 h1.mirrorReads
    split
    next dmem bad2 d3 e2 =>
      have h3 : d3.Sound := .of_thd e2 (.iteThd h2 h2.mirrorReads)
      split
      next frame bad3 d4 e3 =>
        have h4 : d4.Sound := .of_thd e3 (.iteThd h3 h3.mirrorReads)
        split
        next got bad4 d5 e4 =>
          have h5 : d5.Sound := .of_thd e4 (.iteThd h4 h4.mirrorReads)
          split
          · exact h5.withBind.setFld.setPairState.setPair.stopPair
          · refine .haltAgain (.settleRestored (.checkShort (.setFld (.presentPair (.setFld (.count
              (.flag (.flag (.setPair (.toFence ?_))))))))))
            exact .ite h5.setPair.takeSpare h5.setPair.takeSpare.applyDelta.writeHeader

theorem Dev.Sound.mismatch {p kind lg fix} (h : d.Sound) : (d.mismatch p kind lg fix).Sound := by
  unfold Dev.mismatch
  split
  · exact h
  · extract_lets
    split
    · exact h.flag.setFld.setFld.setFld.recoveryBreak.restart
    · split
      · exact h.flag.setFld.setFld.setFld.recoveryBreak.migrate
      · exact h.flag.setFld.setFld.setFld.recoveryBreak.stopPair

theorem Dev.Sound.fenceReaction {p retire} (h : d.Sound) : (d.fenceReaction p retire).Sound := by
  unfold Dev.fenceReaction
  extract_lets
  split
  · exact h
  · split
    · exact h.recoveryBreak.migrate
    · exact h.recoveryBreak.toFence

theorem Dev.Sound.shutPorts {p} (h : d.Sound) : (d.shutPorts p).Sound := h.withFab

theorem Dev.Sound.fencePair {p} (h : d.Sound) : (Machine.fencePair p d).Sound :=
  .ite (Dev.Sound.foldl h.setPairState.setPair.shutPorts fun _ _ h => h.setDetector).withPersist.journal.afterPairLost
    h

/-! ### Issue -/

theorem Dev.Sound.pairCycle {p a b f} (h : d.Sound) : (d.pairCycle p a b f).Sound := by
  unfold Dev.pairCycle
  extract_lets _ _ d1
  have h1 : d1.Sound := h.setPair.noteBoth
  split
  · exact h1.mismatch
  · exact .noteOcc (.foldl h1 fun _ _ h => h.emit)

theorem Dev.Sound.diverged {p} (h : d.Sound) : (d.diverged p).Sound := h.mismatch

theorem Dev.Sound.stepped {p} (h : d.Sound) : (d.stepped p).Sound :=
  .ite (.ite h.setPair.askHalt.settleHalt h.setPair) h

theorem Dev.Sound.unreadableBoth {p} (h : d.Sound) : (d.unreadableBoth p).Sound := h.noteBoth.setPair.presentPair

theorem Dev.Sound.issueBundle {p b} (h : d.Sound) : (d.issueBundle p b).Sound := by
  unfold Dev.issueBundle
  extract_lets x lp env i imm hit a s d1 d2
  have h2 : d2.Sound := by
    unfold d2
    cases hit with
    | none => exact h.pairCycle
    | some k => exact h.pairCycle.askHalt
  exact h2.stepped.settleHalt

theorem Dev.Sound.bundleIssue {p} (h : d.Sound) : (Machine.bundleIssue p d).Sound := by
  unfold Machine.bundleIssue
  split
  · exact h
  · extract_lets
    split
    · exact h.diverged
    · split
      · exact h.askHalt.settleHalt
      · exact h.issueBundle
    · exact h.unreadableBoth
    · exact h

theorem Dev.Sound.presentInput {p c} (h : d.Sound) : (d.presentInput p c).Sound := by
  unfold Dev.presentInput
  extract_lets
  split
  · exact h.setPair
  · exact h.setPair
  · exact h.setPair
  · exact .ite h.setPair h.setPair
  · exact h.setPair.settleHalt
  · exact h.setPair.releasePair
  · exact h.setPair.releasePair.setPair.flag
  · exact h.setPair
  · exact h.setPair
  · exact h.setPair
  · exact h.setPair
  · exact h.setPair

theorem Dev.Sound.presentFirst {p} : ∀ {n} {d : Dev}, d.Sound → (d.presentFirst p n).Sound
  | 0, _, h => h
  | n + 1, d, h => by
    rw [Dev.presentFirst]
    split
    · exact .ite h.presentInput.noteOcc.presentFirst h
    · exact h

theorem Dev.Sound.captureNext {p} (h : d.Sound) : (d.captureNext p).Sound := h.presentFirst

theorem Dev.Sound.captureInput {p parityErr} (h : d.Sound) : (Machine.captureInput p parityErr d).Sound :=
  .ite (.ite h h.flag.presentPair.mismatch) h.captureNext

theorem Dev.Sound.tagCompletion {p t} (h : d.Sound) : (Machine.tagCompletion p t d).Sound := by
  unfold Machine.tagCompletion
  split
  · exact h
  · extract_lets _ _ d1
    have h1 : d1.Sound := by
      unfold d1
      split
      · exact h.presentFirst
      · split
        · exact .ite h.setPair h.mismatch
        · exact h.mismatch
        · exact h.mismatch
        · split
          · exact h.setPair
          · exact h.mismatch
          · exact h.mismatch
          · exact h
    exact h1.noteOcc.settleHalt

theorem Dev.Sound.arrive {p} : ∀ {l : List (Fin 5)} {d : Dev} {e n}, d.Sound → (d.arrive p e n l).1.Sound
  | [], _, _, _, h => h
  | _ :: _, _, _, _, h => h.captureNext.arrive

theorem Dev.Sound.enterBoth {p f cycles} (h : d.Sound) : (d.enterBoth p f cycles).Sound := h.pairCycle.settleHalt

theorem Dev.Sound.interruptEntry {p arrivals} (h : d.Sound) : (Machine.interruptEntry p arrivals d).Sound := by
  unfold Machine.interruptEntry
  split
  · exact h
  · split
    · exact h.diverged
    · split
      · next ha => exact (Dev.Sound.of_fst ha h.arrive).enterBoth
      · next ha => exact (Dev.Sound.of_fst ha h.arrive).enterBoth
    · exact h

theorem Dev.Sound.precise {p enter displaced arrivals} (h : d.Sound) :
    (d.precise p enter displaced arrivals).Sound := by
  unfold Dev.precise
  split
  · next ha => exact (Dev.Sound.of_fst ha h.arrive).enterBoth
  · next ha => exact (Dev.Sound.of_fst ha h.arrive).enterBoth.stepped

theorem Dev.Sound.preciseEntry {p arrivals} (h : d.Sound) : (Machine.preciseEntry p arrivals d).Sound := by
  unfold Machine.preciseEntry
  split
  · exact h
  · extract_lets new
    split
    · exact h.diverged
    · exact h.precise
    · exact h.precise
    · exact h.precise
    · exact h.precise
    · exact h

theorem Dev.Sound.impreciseEntry {p arrivals} (h : d.Sound) : (Machine.impreciseEntry p arrivals d).Sound := by
  unfold Machine.impreciseEntry
  split
  · exact h
  · split
    · exact h.diverged
    · split
      · next ha => exact (Dev.Sound.of_fst ha h.arrive).enterBoth
      · next ha => exact (Dev.Sound.of_fst ha h.arrive).enterBoth
    · exact h

theorem Dev.Sound.expiryEntry {p} (h : d.Sound) : (Machine.expiryEntry p d).Sound := by
  unfold Machine.expiryEntry
  split
  · exact h
  · split
    · exact h.diverged
    · exact h.enterBoth
    · exact h

theorem Dev.Sound.returnRestore {p} (h : d.Sound) : (Machine.returnRestore p d).Sound := .ite h.setPair.settleHalt h

theorem Dev.Sound.isafeStarve {p} (h : d.Sound) : (Machine.isafeStarve p d).Sound := .ite h.setPair.flag.presentPair h

/-! ### Checkpoint -/

theorem Dev.Sound.checkpointDue {p} (h : d.Sound) : (Machine.checkpointDue p d).Sound := .ite h.setPair h

theorem Dev.Sound.overran {p} (h : d.Sound) : (d.overran p).Sound := .ite h h.setPair.flag.presentPair

theorem Dev.Sound.dropSlice {o} (h : d.Sound) : (d.dropSlice o).Sound := h.setPair.withTest

theorem Dev.Sound.dropLateSlice {p} (h : d.Sound) : (d.dropLateSlice p).Sound := by
  unfold Dev.dropLateSlice
  split
  · exact .ite h.dropSlice h
  · exact h

theorem Dev.Sound.checkpointK0 {p} (h : d.Sound) : (Machine.checkpointK0 p d).Sound := by
  unfold Machine.checkpointK0
  split
  · extract_lets d1 _ d2 d3
    have h3 : d3.Sound := .ite h.dropLateSlice.setPair.overran h.dropLateSlice.setPair
    exact .ite h3.mismatch h3.setPair
  · exact h

theorem Dev.Sound.segOverrun {p} (h : d.Sound) : (Machine.segOverrun p d).Sound := .ite h.overran h

theorem Dev.Sound.selfTest {p lgFail} (h : d.Sound) : (d.selfTest p lgFail).Sound :=
  .ite h.setFld.setFld h.setFld.setFld.flag.presentPair

theorem Dev.Sound.holdSelfTest {p lgFail} (h : d.Sound) : (d.holdSelfTest p lgFail).Sound :=
  .ite h.setPair.withTest.selfTest h

theorem Dev.Sound.sliceFailed {p slice} (h : d.Sound) : (d.sliceFailed p slice).Sound := h.setFld.flag.present

theorem Dev.Sound.holdSlice {p fail} (h : d.Sound) : (d.holdSlice p fail).Sound := by
  unfold Dev.holdSlice
  extract_lets
  split
  · exact h
  · exact .ite h.setPair.sliceFailed h.setPair.withTest

theorem Dev.Sound.holdStep {p} (h : d.Sound) : (d.holdStep p).Sound := .ite h h.setPair

theorem Dev.Sound.retrySucceeded {p} (h : d.Sound) : (d.retrySucceeded p).Sound := .ite h.flag.count.presentPair h

theorem Dev.Sound.checkpointCommit {p h'} (h : d.Sound) : (Machine.checkpointCommit p h' d).Sound := by
  unfold Machine.checkpointCommit
  extract_lets
  split
  · split
    · exact h.mismatch
    · exact h.writeSlot.retrySucceeded.setPair.setFld.holdSelfTest.holdSlice.holdStep.noteOcc.settleHalt
  · exact h

theorem Dev.Sound.deltaApplied {p} (h : d.Sound) : (Machine.deltaApplied p d).Sound :=
  .ite (.ite h.setPair.mirrorReads h.setPair.mirrorReads.applyDelta.writeHeader) h

theorem Dev.Sound.clearLatch {c} (h : d.Sound) : (d.clearLatch c).Sound := h.setLatch

theorem Dev.Sound.releaseHead {p e} (h : d.Sound) : (d.releaseHead p e).Sound := by
  unfold Dev.releaseHead
  extract_lets lp done
  split
  · exact h.produce.setPair
  · exact h.clearLatch.setPair
  · exact h.keeperCheck.setPair
  · exact h.acknowledge.setPair
  · exact .ite h h.setPair.sendReq
  · exact .ite h h.setPair.sendReq

theorem Dev.Sound.releaseNext {p q} (h : d.Sound) : (d.releaseNext p q).Sound := by
  unfold Dev.releaseNext
  extract_lets
  split
  · exact h
  · split
    · exact h.setPair.mismatch
    · split
      · exact h.setPair
      · exact .ite h.releaseHead h

theorem Dev.Sound.release {p} (h : d.Sound) : (Machine.release p d).Sound := h.releaseNext

theorem Dev.Sound.checkIn {p} (h : d.Sound) : (Machine.checkIn p d).Sound := h.releaseNext

theorem Dev.Sound.entryFailure {p} (h : d.Sound) : (Machine.entryFailure p d).Sound := by
  unfold Machine.entryFailure
  extract_lets
  split
  · exact h
  · exact .ite h.setPair.count h.setPair.setFld.setFld.setFld.flag

theorem Dev.Sound.cmptestStart {p} (h : d.Sound) : (Machine.cmptestStart p d).Sound := h.setPair.setFld

theorem Dev.Sound.spareFirst {q} (h : d.Sound) : (Machine.spareFirst q d).Sound := by
  unfold Machine.spareFirst
  split
  · exact h
  · exact .ite h h.setPair.setPairState.bundleIssue

/-! ### Reset -/

theorem Dev.Sound.fencePending {p} (h : d.Sound) : (d.fencePending p).Sound :=
  .ite h.setPairState.withPersist.journal h

theorem Dev.Sound.resetRegisters (h : d.Sound) : d.resetRegisters.Sound := by
  refine ⟨resetRegisters_regsOk h.regs, ?_⟩
  unfold Dev.resetRegisters
  extract_lets old d1 d2
  have h2 : d2.pairs = d.pairs := by
    unfold d2
    split <;> rfl
  exact (congrArg List.length h2).trans h.pairs

theorem Dev.Sound.deviceReset {trig} (h : d.Sound) : (d.deviceReset trig).Sound := by
  refine ⟨deviceReset_regsOk trig h.regs, ?_⟩
  unfold Dev.deviceReset
  extract_lets d1 d2 d3
  have h1 : d1.Sound := .foldl h fun _ _ h => h.fencePending
  have h3 : d3.Sound := .ite h1.resetRegisters.flag h1.resetRegisters
  clear_value d3
  exact (List.length_map _).trans h3.pairs

theorem Dev.Sound.keptReset {input detail trig} (h : d.Sound) : (d.keptReset input detail trig).Sound :=
  h.assertForce.deviceReset.withIsland

/-! ### Island -/

theorem Dev.Sound.setOldest (h : d.Sound) : d.setOldest.Sound := h.setFld

theorem Dev.Sound.newRecord {n detail k code cls} (h : d.Sound) : (d.newRecord n detail k code cls).Sound := by
  unfold Dev.newRecord
  extract_lets e d1 d2 d3 d4 u d5
  have h3 : d3.Sound := h.setFld.setFld.setFld.setFld.setFld.setFld.setPair64
  have h5 : d5.Sound := .ite h3.setFld.setFld.setFld h3.setFld.setFld.count.flag
  exact .ite h5.setOldest.journal h5.setOldest

theorem Dev.Sound.record {n detail k code} (h : d.Sound) : (d.record n detail k code).Sound := by
  unfold Dev.record
  extract_lets cls _ d1 d2 e d3
  have h1 : d1.Sound := .ite h.withIsland h
  have h3 : d3.Sound := .ite h1.setFld.setFld h1.setFld.newRecord
  exact .ite h3.setBitOf h3

theorem Dev.Sound.safeStopReaction (h : d.Sound) : d.safeStopReaction.Sound := h.safeStopCause

theorem Dev.Sound.pairReaction {n p code} (h : d.Sound) : (d.pairReaction n p code).Sound :=
  .ite h.mismatch (.ite h.fenceReaction h)

theorem Dev.Sound.react {n detail code} (h : d.Sound) : (d.react n detail code).Sound := by
  unfold Dev.react
  extract_lets d1
  have h1 : d1.Sound := by
    unfold d1
    split
    · exact h.pairReaction
    · exact h
  exact .ite h1.resetReaction (.ite h1.safeStopReaction h1)

theorem Dev.Sound.processFault (h : d.Sound) : (Machine.processFault d).Sound := by
  unfold Machine.processFault
  split
  · exact h
  · exact .ite h.withIsland.record h.withIsland.record.react

theorem Dev.Sound.dropLane {lane} (h : d.Sound) : (Machine.dropLane lane d).Sound := .ite h.clearBitOf.present h

theorem Dev.Sound.resyncLanes (h : d.Sound) : (Machine.resyncLanes d).Sound := h.setFld

theorem Dev.Sound.lanesDiffer (h : d.Sound) : (Machine.lanesDiffer d).Sound := h.keptReset

theorem Dev.Sound.hourlyCounts (h : d.Sound) : (Machine.hourlyCounts d).Sound :=
  .ite (.ite h.withIsland h.withIsland.journal) h

theorem Dev.Sound.logAck {n} (h : d.Sound) : (Machine.logAck n d).Sound := h.setFld.setOldest

theorem Dev.Sound.clearFaultCounts (h : d.Sound) : (Machine.clearFaultCounts d).Sound :=
  .foldl h fun _ _ h => h.setFld

theorem Dev.Sound.reactWrite {i v} (h : d.Sound) : (Machine.reactWrite i v d).Sound := .ite h.flag (.ite h h.setFld)

/-! ### Power -/

theorem Dev.Sound.noteLowin (h : d.Sound) : d.noteLowin.Sound := .ite (.ite h h.flag.count) h.setFld

theorem Dev.Sound.setPort {b v} (h : d.Sound) : (d.setPort b v).Sound := .ite h.withPower.noteLowin h.withPower

theorem Dev.Sound.setPorts {va vb} (h : d.Sound) : (d.setPorts va vb).Sound := .ite h.withPower.noteLowin h.withPower

theorem Dev.Sound.portLoss {b v} (h : d.Sound) : (Machine.portLoss b v d).Sound :=
  .ite h.setPort.flag.present h.setPort

theorem Dev.Sound.pfail {hold} (h : d.Sound) : (Machine.pfail hold d).Sound := by
  unfold Machine.pfail
  split
  · exact h
  · extract_lets d1 _ d2 d3 d4
    have h4 : d4.Sound := (Dev.Sound.ite h h.setPorts).withPower.flag.flag.present.produce.journal
    exact ⟨h4.regs, h4.pairs⟩

theorem Dev.Sound.settlePowerFail {detail} (h : d.Sound) : (d.settlePowerFail detail).Sound := h.withIsland

theorem Dev.Sound.pfailLine {hold} (h : d.Sound) : (Machine.pfailLine hold d).Sound :=
  .ite (.ite h h.setPorts) h.pfail

theorem Dev.Sound.rideEnd (h : d.Sound) : (Machine.rideEnd d).Sound := by
  unfold Machine.rideEnd
  split
  · exact h
  · exact .ite h (.ite h.withPower.setFld.count.flag.settlePowerFail h.flag.settlePowerFail.safeStopCause)

theorem Dev.Sound.stopPairs (h : d.Sound) : d.stopPairs.Sound := ⟨h.regs, (List.length_map _).trans h.pairs⟩

theorem Dev.Sound.sealDone (h : d.Sound) : (Machine.sealDone d).Sound :=
  .ite ((Dev.Sound.ite h h.sealPage).withPower.stopPairs) h

theorem Dev.Sound.inputReturn (h : d.Sound) : (Machine.inputReturn d).Sound :=
  .ite (.deviceReset (.ite h h.sealPage)) h

theorem Dev.Sound.converterStop (h : d.Sound) : (Machine.converterStop d).Sound :=
  h.setPorts.withPower.stopPairs.assertForce

/-- The device right after power-on reset lists no register, and has its 16 pairs. -/
theorem Dev.Sound.reset : Dev.reset.Sound := ⟨rfl, rfl⟩

/-- A device switched on is sound whatever it was before. -/
theorem Dev.sound_switchedOn (d : Dev) : d.switchedOn.Sound := by
  unfold Dev.switchedOn
  extract_lets p up va vb good _ _ e
  have he : e.Sound := ⟨Dev.Sound.reset.regs, Dev.Sound.reset.pairs⟩
  exact .ite he.flag he

theorem Dev.Sound.powerOn (h : d.Sound) : (Machine.powerOn d).Sound := .ite h d.sound_switchedOn

theorem Dev.Sound.temperature {base dies} (h : d.Sound) : (Machine.temperature base dies d).Sound := by
  unfold Machine.temperature
  split
  · exact h
  · extract_lets _ d1 _ d2 hi d3 d4
    have h2 : d2.Sound := .ite h.withPower.flag h.withPower
    have h4 : d4.Sound := .foldl (Dev.Sound.ite h2 h2.flag) fun _ _ h => h.present
    split
    · exact h.withPower.withPower
    · split
      · exact h4
      · exact h4.record.keptReset.withPower

theorem Dev.Sound.supplyOverload {v5} (h : d.Sound) : (Machine.supplyOverload v5 d).Sound := h.flag.withPower

theorem Dev.Sound.setSstop {i x} (h : d.Sound) : (d.setSstop i x).Sound :=
  .ite h (.ite h.withIsland.withIsland h.withIsland.withIsland)

theorem Dev.Sound.sstop {i x} (h : d.Sound) : (Machine.sstop i x d).Sound :=
  .ite h.setSstop.present.safeStopCause h.setSstop

theorem Dev.Sound.sstopDiscrep (h : d.Sound) : (Machine.sstopDiscrep d).Sound := .ite h.withIsland.present h

theorem Dev.Sound.clockLoss {c} (h : d.Sound) : (Machine.clockLoss c d).Sound := by
  unfold Machine.clockLoss
  split
  · exact h.withIsland.present
  · exact h.present
  · exact h.present
  · exact h.present

/-! ### Lifecycle -/

theorem Dev.Sound.endGrant (h : d.Sound) : d.endGrant.Sound := by
  unfold Dev.endGrant
  split
  · exact h
  · exact h.withTrust.flag.journal

theorem Dev.Sound.lifecycleEffects {s} (h : d.Sound) : (d.lifecycleEffects s).Sound := by
  unfold Dev.lifecycleEffects
  extract_lets _ d1
  have h1 : d1.Sound := .ite h.withPersist.endGrant h
  exact .ite h1.withTrust h1

theorem Dev.Sound.lifecycleTo {s} (h : d.Sound) : (d.lifecycleTo s).Sound :=
  h.withPersist.journal.withTrust.lifecycleEffects.endGrant.withPersist.journal

theorem Dev.Sound.checkSlot {b} (h : d.Sound) : (d.checkSlot b).2.Sound := .ite h.present h

theorem Dev.Sound.blowAnchor (h : d.Sound) : d.blowAnchor.Sound := .ite h.withTrust.journal h

theorem Dev.Sound.raiseArb {svn} (h : d.Sound) : (d.raiseArb svn).Sound :=
  .ite h.withPersist.journal.flag.blowAnchor h

/-! ### Modes -/

theorem Dev.Sound.showSlots (h : d.Sound) : d.showSlots.Sound := h.setFld.setFld.setFld.setFld.setFld

theorem Dev.Sound.setActive {b} (h : d.Sound) : (d.setActive b).Sound := h.withPersist.journal.showSlots

theorem Dev.Sound.failStart {b cause} (h : d.Sound) : (d.failStart b cause).Sound :=
  h.withPersist.journal.journal.showSlots

theorem Dev.Sound.confirmStart (h : d.Sound) : d.confirmStart.Sound :=
  .ite h h.withPersist.flag.journal.setActive.raiseArb

theorem Dev.Sound.confirmExpiry (h : d.Sound) : (Machine.confirmExpiry d).Sound := by
  unfold Machine.confirmExpiry
  split
  · exact h
  · exact .ite h h.failStart.deviceReset

theorem Dev.Sound.haltAll (h : d.Sound) : d.haltAll.Sound := .foldl h fun _ _ h => .ite h.capture h

theorem Dev.Sound.enterStandby (h : d.Sound) : d.enterStandby.Sound := by
  unfold Dev.enterStandby
  extract_lets d1
  have h1 : d1.Sound := h.assertForce.enterMode
  exact .ite h1.withStart.flag.haltAll h1.withStart.withStart

theorem Dev.Sound.unfence {p} (h : d.Sound) : (d.unfence p).Sound := h.setPairState.withPersist.journal

theorem Dev.Sound.command {code arg} (h : d.Sound) : (d.command code arg).Sound :=
  .ite h.confirmStart.enterMode (.ite h.assertForce.enterMode
    (.ite h.enterStandby (.ite h.confirmStart.enterMode
    (.ite h.enterMode (.ite h.setActive.deviceReset (.ite h.unfence h.deviceReset))))))

theorem Dev.Sound.judge {code arg} (h : d.Sound) : (d.judge code arg).2.Sound :=
  .iteSnd h.refuse.cmdStat (.iteSnd h.cmdStat h.cmdStat.command)

theorem Dev.Sound.carryOut {src code arg} (h : d.Sound) : (d.carryOut src code arg).Sound := by
  unfold Dev.carryOut
  split
  · exact .ite h.cmdStat (.ite h.cmdStat h.judge)
  · exact .ite h.cmdStat (.ite h.count h.judge)

theorem Dev.Sound.issueCommand {src code arg} (h : d.Sound) : (d.issueCommand src code arg).Sound :=
  .ite h.withStart h.carryOut

theorem Dev.Sound.carryWaiting : ∀ {l : List (CmdSrc × Nat × Nat)} {d : Dev}, d.Sound → (Dev.carryWaiting l d).Sound
  | [], _, h => h
  | _ :: _, _, h => .ite h h.carryOut.carryWaiting

theorem Dev.Sound.standbyComplete (h : d.Sound) : (Machine.standbyComplete d).Sound := by
  unfold Machine.standbyComplete
  split
  · exact h
  · exact .ite h ((Dev.Sound.ite h h.sealPage).withStart.stopPairs.carryWaiting)

theorem Dev.Sound.wakeUp {w} (h : d.Sound) : (Machine.wakeUp w d).Sound := .ite h.setFld.deviceReset h

theorem Dev.Sound.canWake {k} (h : d.Sound) : (Machine.canWake k d).Sound := .ite h.flag.wakeUp h

/-! ### Boot -/

theorem Dev.Sound.formatJournal (h : d.Sound) : d.formatJournal.Sound := .ite h.withNvs h

theorem Dev.Sound.restoreRetained (h : d.Sound) : d.restoreRetained.Sound :=
  (Dev.Sound.foldl h.setFld.setWord fun _ _ h => (Dev.Sound.ite h.setPairState h).setPair.setFld).showSlots

theorem Dev.Sound.journalPast (h : d.Sound) : d.journalPast.Sound := by
  unfold Dev.journalPast
  extract_lets d1 d2 d3 _ d4
  have h2 : d2.Sound := by
    unfold d2
    split
    · exact h.journal.failStart
    · exact h.journal
  have h3 : d3.Sound := .ite h2.journal.flag h2
  have h4 : d4.Sound := by
    unfold d4
    split
    · exact h3.withIsland.journal
    · exact h3
  exact .ite h4.withTrust.journal h4

theorem Dev.Sound.trustStart (h : d.Sound) : d.trustStart.Sound := by
  unfold Dev.trustStart
  extract_lets d2
  have h2 : d2.Sound := by
    unfold d2
    split
    · exact h.withTrust.lifecycleEffects.withPersist.journal
    · exact h
  exact h2.lifecycleEffects.blowAnchor.withTrust

theorem Dev.Sound.nextEpoch (h : d.Sound) : d.nextEpoch.Sound := h.withPersist.journal

theorem Dev.Sound.stepsToS3 (h : d.Sound) : d.stepsToS3.Sound := by
  unfold Dev.stepsToS3
  extract_lets _ _ d1
  have h1 : d1.Sound := ⟨h.regs, h.pairs⟩
  exact h1.formatJournal.restoreRetained.journalPast.trustStart.nextEpoch

theorem Dev.Sound.retire {p} (h : d.Sound) : (d.retire p).Sound := h.setPairState.withPersist.journal

theorem Dev.Sound.setStep {p s} (h : d.Sound) : (d.setStep p s).Sound := h.setFld.withPersist.journal

theorem Dev.Sound.planAtStart {steps p} (h : d.Sound) : (d.planAtStart steps p).Sound := by
  unfold Dev.planAtStart
  split
  · exact h
  · split
    · exact h
    · split
      · exact h.retire
      · exact (Dev.Sound.ite h h.setStep).setPair

theorem Dev.Sound.plan {steps} (h : d.Sound) : (d.plan steps).Sound :=
  .foldl (Dev.Sound.noteSlow (.foldl h fun _ _ h => h.planAtStart)) fun _ _ h => h.checkShort

theorem Dev.Sound.tryUnfenced {fails p} (h : d.Sound) : (d.tryUnfenced fails p).Sound :=
  .ite h (.ite h.withPersist.setPairState.sliceFailed.withPersist.journal h.withPersist)

theorem Dev.Sound.loadPair {p lp st entry im dm lgFail} (h : d.Sound) :
    (d.loadPair p lp st entry im dm lgFail).Sound :=
  h.setPair.setPairState.withBind.setFld.mirrorWords.mirrorWords.writeSlot.selfTest

theorem Dev.Sound.loadFrom {o e p st cmpFails} (h : d.Sound) : (d.loadFrom o e p st cmpFails).Sound := h.loadPair

theorem Dev.Sound.unloadPairs (h : d.Sound) : d.unloadPairs.Sound := .foldl h fun _ _ h => .ite h h.setPairState

theorem Dev.Sound.loadSlot {o env e} (h : d.Sound) (he : d.loadSlot o env = some e) : e.Sound := by
  unfold Dev.loadSlot at he
  extract_lets d1 d2 role acts skipped spares cover d3 d4 d5 at he
  have h1 : d1.Sound := .foldl h fun _ _ h => h.tryUnfenced
  split at he
  · cases he
  · have h3 : d3.Sound := .foldl h1.unloadPairs fun _ _ h => h.loadFrom
    have h4 : d4.Sound := .foldl h3 fun _ _ h => h.loadFrom
    have h5 : d5.Sound := .foldl h4 fun _ _ h => h.loadFrom
    clear_value d5
    rw [← Option.some.inj he]
    exact h5.setFld

theorem Dev.Sound.enterFog {env code} (h : d.Sound) : (d.enterFog env code).Sound := by
  unfold Dev.enterFog
  extract_lets d1 d2 d3
  have h2 : d2.Sound := .foldl h.setFld.unloadPairs fun _ _ h => h.tryUnfenced
  have h3 : d3.Sound := by
    unfold d3
    split
    · exact h2.loadPair
    · exact h2
  exact h3.enterMode.withStart

theorem Dev.Sound.started {b} (h : d.Sound) : (d.started b).Sound := h.setFld.withStart

theorem Dev.Sound.attempts {env} : ∀ {k last} {d : Dev}, d.Sound → (Dev.attempts env k last d).Sound
  | 0, _, _, h => h.enterFog
  | k + 1, last, d, h => by
    rw [Dev.attempts]
    split
    · exact h.enterFog
    · extract_lets _ d0
      split
      next cause d1 hc =>
        have h1 : d1.Sound := .of_snd hc (Dev.Sound.checkSlot (.journal h.withPersist))
        refine .ite h1.failStart.attempts ?_
        extract_lets d2
        split
        · exact h1.plan.failStart.attempts
        · next hl => exact (h1.plan.loadSlot hl).started

theorem Dev.Sound.startUp {env} (h : d.Sound) : (d.startUp env).Sound :=
  .ite (.enterFog ⟨h.regs, h.pairs⟩) (.ite h.stepsToS3.enterFog h.stepsToS3.attempts)

theorem Dev.Sound.resetAndStart {env} (h : d.Sound) : (Machine.resetAndStart env d).Sound := by
  unfold Machine.resetAndStart
  extract_lets d1
  have h1 : d1.Sound := .ite h.deviceReset (.ite h h.deviceReset)
  exact .ite h1 h1.startUp.withLantern

/-! ### Lantern -/

theorem Dev.Sound.setTb {t x} (h : d.Sound) : (d.setTb t x).Sound := h.withLantern

theorem Dev.Sound.carriersJump {t} (h : d.Sound) : (d.carriersJump t).Sound := .foldl h fun _ _ h => .ite h.flag h

theorem Dev.Sound.jumped {t} (h : d.Sound) : (d.jumped t).Sound := h.setBitOf.carriersJump.present

theorem Dev.Sound.stepTb {t x from_ tgt row} (h : d.Sound) : (d.stepTb t x from_ tgt row).Sound := by
  unfold Dev.stepTb
  split
  · exact h.setTb.jumped
  · exact h.setTb
  · exact h.setTb

theorem Dev.Sound.takeSample {t s} (h : d.Sound) : (d.takeSample t s).Sound := by
  unfold Dev.takeSample
  extract_lets
  split
  · exact h.setTb
  · exact .ite h.setTb h.stepTb

theorem Dev.Sound.timebaseSample {t det} (h : d.Sound) : (Machine.timebaseSample t det d).Sound := by
  unfold Machine.timebaseSample
  extract_lets
  split
  · exact h
  · split
    · exact h
    · extract_lets d1
      have h1 : d1.Sound := .ite h.setTb h
      exact .ite h1.setTb h1.takeSample

theorem Dev.Sound.offerSample {src sel s} (h : d.Sound) : (d.offerSample src sel s).Sound :=
  .foldl h fun _ _ h => .ite h.setTb h

theorem Dev.Sound.offerConversion {ch code time} (h : d.Sound) : (d.offerConversion ch code time).Sound :=
  .foldl h fun _ _ h => .ite h.setTb h

theorem Dev.Sound.lineSample {t hi} (h : d.Sound) : (Machine.lineSample t hi d).Sound := .ite h.setTb h

theorem Dev.Sound.adjWrite {t v} (h : d.Sound) : (Machine.adjWrite t v d).Sound := .ite h.setTb h

theorem Dev.Sound.holdResume {t} (h : d.Sound) : (Machine.holdResume t d).Sound := by
  unfold Machine.holdResume
  extract_lets
  split
  · exact h
  · exact .ite h.setTb h

theorem Dev.Sound.restartTb {t} (h : d.Sound) : (d.restartTb t).Sound := h.setTb

theorem Dev.Sound.timebaseWrite {t w} (h : d.Sound) : (Machine.timebaseWrite t w d).Sound := by
  unfold Machine.timebaseWrite
  extract_lets a key was old d1 d2
  have h2 : d2.Sound := .ite h.storeReg.setFld h.storeReg
  exact .foldl (Dev.Sound.ite h2.restartTb h2) fun _ _ h => .ite h.forceGroup h

theorem Dev.Sound.lossTold {t} (h : d.Sound) : (d.lossTold t).Sound := h.setBitOf.present

theorem Dev.Sound.sourceLost {t} (h : d.Sound) : (Machine.sourceLost t d).Sound := .ite h.setTb.lossTold h

theorem Dev.Sound.mainsLock {t} (h : d.Sound) : (Machine.mainsLock t d).Sound := .ite h.setTb h

theorem Dev.Sound.mainsLost {t} (h : d.Sound) : (Machine.mainsLost t d).Sound := .ite h.setTb.lossTold h

theorem Dev.Sound.tickTb {t} (h : d.Sound) : (d.tickTb t).Sound := .ite h.setTb (.ite h.stepTb h.setTb)

theorem Dev.Sound.tickLantern (h : d.Sound) : d.tickLantern.Sound := .foldl h.withLantern fun _ _ h => .ite h.tickTb h

theorem Dev.Sound.armCmp {c} (h : d.Sound) : (d.armCmp c).Sound := h.withLantern

theorem Dev.Sound.cmpAfter {c w keepCfg keepAngle x} (h : d.Sound) : (d.cmpAfter c w keepCfg keepAngle x).Sound :=
  .ite (.ite h h.setFld) ((Dev.Sound.ite h h.setFld).setFld)

theorem Dev.Sound.cmpWrite {c r a w} (h : d.Sound) : (d.cmpWrite c r a w).Sound := h.withLantern.storeReg.armCmp

theorem Dev.Sound.comparator {c} (h : d.Sound) : (Machine.comparator c d).Sound := by
  unfold Machine.comparator
  extract_lets
  split
  · exact h
  · split
    · exact h
    · exact .ite h h.withLantern.setPair64.setFld.setFld.flag.cmpAfter.armCmp.produce

theorem Dev.Sound.gateRelease {n k} (h : d.Sound) : (Machine.gateRelease n k d).Sound := by
  unfold Machine.gateRelease
  extract_lets
  split
  · exact h
  · split
    · exact h
    · exact .ite h h.withLantern.capture

/-! ### Drive -/

theorem Dev.Sound.checkForce {g} (h : d.Sound) : (d.checkForce g).Sound := .ite h h.forceGroup

theorem Dev.Sound.passLt {g M} (h : d.Sound) : (d.passLt g M).Sound := h.setGroup

theorem Dev.Sound.passAngle {g} (h : d.Sound) : (d.passAngle g).Sound := .ite h.passLt h

theorem Dev.Sound.passTime {g} (h : d.Sound) : (d.passTime g).Sound := .ite (Dev.Sound.ite h.passLt h).passLt h

theorem Dev.Sound.noteShadow {g} (h : d.Sound) : (d.noteShadow g).Sound := .ite h.setGroup h

theorem Dev.Sound.tickOutputs {g} (h : d.Sound) : (d.tickOutputs g).Sound := .ite h h.setGroup

theorem Dev.Sound.tickPwm (h : d.Sound) : d.tickPwm.Sound := .foldl h fun _ _ h => h.noteShadow.passTime.tickOutputs

theorem Dev.Sound.endPwm (h : d.Sound) : d.endPwm.Sound := .foldl h fun _ _ h => h.passAngle

theorem Dev.Sound.tickPins (h : d.Sound) : d.tickPins.Sound := .foldl h fun _ _ h => .ite h h.setGroup

theorem Dev.Sound.startGroup {g} (h : d.Sound) : (d.startGroup g).Sound := h.setFld.setFld.setGroup.checkForce

theorem Dev.Sound.enableGroup {g} (h : d.Sound) : (Machine.enableGroup g d).Sound := .ite h h.startGroup

theorem Dev.Sound.stopGroup {g} (h : d.Sound) : (d.stopGroup g).Sound := .ite h h.setGroup

theorem Dev.Sound.takeShadow {g valley e} (h : d.Sound) : (d.takeShadow g valley e).Sound := h.setGroup

theorem Dev.Sound.releaseGroup {g e} (h : d.Sound) : (d.releaseGroup g e).Sound := .ite h.setGroup h

theorem Dev.Sound.loadEvent {g valley e} (h : d.Sound) : (d.loadEvent g valley e).Sound := by
  unfold Dev.loadEvent
  extract_lets ldm again d1
  have h1 : d1.Sound := h.takeShadow.flag
  exact (Dev.Sound.ite h.count.flag (.ite h1.setFld h1)).releaseGroup.checkForce

theorem Dev.Sound.carrierValley {g} (h : d.Sound) : (Machine.carrierValley g d).Sound := by
  unfold Machine.carrierValley
  extract_lets
  split
  · exact h
  · extract_lets d1
    have h1 : d1.Sound := h.setGroup.produce
    exact .ite h1.loadEvent h1

theorem Dev.Sound.carrierPeak {g} (h : d.Sound) : (Machine.carrierPeak g d).Sound := by
  unfold Machine.carrierPeak
  extract_lets
  split
  · exact h
  · extract_lets d1
    have h1 : d1.Sound := h.setGroup.produce
    exact .ite h1.loadEvent h1

theorem Dev.Sound.syncGroup {g} (h : d.Sound) : (d.syncGroup g).Sound := .ite h.setGroup h

theorem Dev.Sound.pwmSync {mask} (h : d.Sound) : (Machine.pwmSync mask d).Sound := .foldl h fun _ _ h => h.syncGroup

theorem Dev.Sound.swForce {g on} (h : d.Sound) : (Machine.swForce g on d).Sound := h.setFld.checkForce

theorem Dev.Sound.tripClear {g} (h : d.Sound) : (Machine.tripClear g d).Sound := h.setGroup

theorem Dev.Sound.setSdf {n x} (h : d.Sound) : (d.setSdf n x).Sound := h.withDrive

theorem Dev.Sound.tripLatch {g} (h : d.Sound) : (Machine.tripLatch g d).Sound :=
  .ite h h.setGroup.flag.produce.present.forceGroup

theorem Dev.Sound.pinError {g lvl} (h : d.Sound) : (Machine.pinError g lvl d).Sound :=
  .ite h.setGroup.flag.present h.setGroup

theorem Dev.Sound.pwmWrite {a w} (h : d.Sound) : (d.pwmWrite a w).Sound := by
  unfold Dev.pwmWrite
  extract_lets off g r d1 was d2 _ d3 d4
  have h1 : d1.Sound := .ite h.flag h
  have h4 : d4.Sound := (Dev.Sound.ite h1.setGroup h1).storeReg.checkForce
  exact .ite h.pwmSync (.ite h.storeReg (.ite (.ite h1.storeReg.startGroup (.ite h1.storeReg.stopGroup h1.storeReg))
    (.ite (.ite h4.tripClear h4) (.ite (.ite h1.storeReg.setFld h1.storeReg) h1.storeReg))))

theorem Dev.Sound.startSdf {n} (h : d.Sound) : (d.startSdf n).Sound := h.setSdf

theorem Dev.Sound.fastTrip {n f} (h : d.Sound) : (d.fastTrip n f).Sound := h.flag.produce

theorem Dev.Sound.sdfClock {n b} (h : d.Sound) : (d.sdfClock n b).Sound := by
  unfold Dev.sdfClock
  extract_lets _ bits v hi lo hiRun loRun fcnt high low next due d1 d2 d3 d4
  have h3 : d3.Sound := .ite h.setSdf.setFld.fastTrip h.setSdf.setFld
  have h4 : d4.Sound := .ite h3.fastTrip h3
  exact .ite h4.setFld.flag h4

theorem Dev.Sound.sdfBits {n bits} (h : d.Sound) : (d.sdfBits n bits).Sound :=
  .ite (.foldl h fun _ _ h => h.sdfClock) h

theorem Dev.Sound.clockLost {n} (h : d.Sound) : (Machine.clockLost n d).Sound := .ite h.setSdf.flag.present h

theorem Dev.Sound.clockReturns {n} (h : d.Sound) : (Machine.clockReturns n d).Sound := h.setSdf

theorem Dev.Sound.snapshot {setB} (h : d.Sound) : (Machine.snapshot setB d).Sound :=
  .ite h (.foldl (Dev.Sound.ite h.setLatch.setPair64 h.setLatch.setPair64) fun _ _ h => .ite h.setFld.setSdf h.setFld)

theorem Dev.Sound.sdfWrite {a w} (h : d.Sound) : (d.sdfWrite a w).Sound :=
  .ite (.ite h.storeReg.startSdf (.ite h.storeReg.setSdf h.storeReg)) h.storeReg

theorem Dev.Sound.setAdc {c x} (h : d.Sound) : (d.setAdc c x).Sound := h.withDrive

theorem Dev.Sound.startSeq {c trig} (h : d.Sound) : (d.startSeq c trig).Sound := h.setAdc

theorem Dev.Sound.adcSequenceStart {c} (h : d.Sound) : (Machine.adcSequenceStart c d).Sound := by
  unfold Machine.adcSequenceStart
  split
  · exact h
  · split
    · exact h.startSeq
    · split
      · split
        · exact h.setLatch.startSeq
        · exact h
      · exact h

theorem Dev.Sound.adcStart {c} (h : d.Sound) : (Machine.adcStart c d).Sound := .ite h (.ite h.startSeq h.flag)

theorem Dev.Sound.adcDone {c volts} (h : d.Sound) : (Machine.adcDone c volts d).Sound := by
  unfold Machine.adcDone
  split
  · exact h
  · exact .ite h (.foldl (Dev.Sound.foldl h fun _ _ h => .ite h.setFld.setFld
      h.setFld).setPair64.flag.consequence.setAdc fun _ _ h => h.offerConversion)

theorem Dev.Sound.adcWrite {a w} (h : d.Sound) : (d.adcWrite a w).Sound :=
  .ite h.storeReg.setAdc (.ite (.ite h.adcStart h) h.storeReg)

theorem Dev.Sound.setPosIf {i x} (h : d.Sound) : (d.setPosIf i x).Sound := h.withDrive

theorem Dev.Sound.posErr {i f} (h : d.Sound) : (d.posErr i f).Sound := h.flag.present

theorem Dev.Sound.deliverSample {i angle rev revOk time} (h : d.Sound) :
    (d.deliverSample i angle rev revOk time).Sound :=
  h.setFld.setFld.setFld.produce.offerSample

theorem Dev.Sound.resolverSample {i sin cos neg} (h : d.Sound) : (Machine.resolverSample i sin cos neg d).Sound :=
  .ite h (.ite h.posErr (.ite h.posErr h.fresh.deliverSample))

theorem Dev.Sound.setCount {i n} (h : d.Sound) : (d.setCount i n).Sound := h.setPosIf.setFld

theorem Dev.Sound.abzEdge {i a b} (h : d.Sound) : (Machine.abzEdge i a b d).Sound :=
  .ite h (.ite h.setPosIf.posErr h.setPosIf.setCount.setPosIf)

theorem Dev.Sound.zIndex {i} (h : d.Sound) : (Machine.zIndex i d).Sound :=
  .ite h (.ite h.produce (.ite h.produce.setPosIf.setCount
    (.ite h.produce (.ite h.produce.fresh h.produce.fresh.setCount.posErr))))

theorem Dev.Sound.abzDelivery {i} (h : d.Sound) : (Machine.abzDelivery i d).Sound :=
  .ite h (.ite h.setPosIf h.setPosIf.deliverSample)

theorem Dev.Sound.ssiAngle {stb st} (h : d.Sound) : (d.ssiAngle stb st).2.Sound := .iteSnd h h.withFree

theorem Dev.Sound.ssiFrame {i line bits lag} (h : d.Sound) : (Machine.ssiFrame i line bits lag d).Sound :=
  .ite h (.ite h.setPosIf.posErr h.setPosIf.setFld.ssiAngle.deliverSample)

theorem Dev.Sound.restartPos {i} (h : d.Sound) : (d.restartPos i).Sound := h.setPosIf.setFld

theorem Dev.Sound.posWrite {a w} (h : d.Sound) : (d.posWrite a w).Sound :=
  .ite (.ite h.storeReg.restartPos h.storeReg) (.ite h.storeReg.restartPos h.storeReg)

/-! ### Buoy -/

theorem Dev.Sound.setBuoy {k x} (h : d.Sound) : (d.setBuoy k x).Sound := h.withBuoy

theorem Dev.Sound.setCycle {k c} (h : d.Sound) : (d.setCycle k c).Sound := h.setBuoy

theorem Dev.Sound.startCycle {k t stamp trig} (h : d.Sound) : (d.startCycle k t stamp trig).Sound :=
  (Dev.Sound.ite h.setFld h).setBuoy.flag.setFld

theorem Dev.Sound.listStart {k} (h : d.Sound) : (Machine.listStart k d).Sound := by
  unfold Machine.listStart
  split
  · exact h
  · split
    · exact h
    · extract_lets
      split
      · exact h.setBuoy.startCycle
      · split
        · exact h.setLatch.startCycle
        · exact h

theorem Dev.Sound.startWrite {k t} (h : d.Sound) : (Machine.Dev.startWrite k d t).Sound := .ite h.flag h.setBuoy

theorem Dev.Sound.startLists {k mask} (h : d.Sound) : (Machine.startLists k mask d).Sound :=
  .foldl h fun _ _ h => h.startWrite

theorem Dev.Sound.countFails {k addr status} (h : d.Sound) : (d.countFails k addr status).Sound :=
  .ite h.setFld.setBuoy (.ite h.setFld.setBuoy.flag.present h.setFld)

theorem Dev.Sound.buoyFinal {k c x status detail} (h : d.Sound) : SoundOrHeld (d.buoyFinal k c x status detail) := by
  unfold Dev.buoyFinal
  extract_lets bytes
  split
  · trivial
  · next e d1 _ hs =>
    have h1 : d1.Sound := .of_snd hs h.engineStore
    have h2 : Dev.Sound (if status = 0 then d1 else d1.flag (BUOY_ISTAT_FAIL k)) := .ite h1 h1.flag
    exact .setCycle (.ite h2 h2.countFails)

theorem Dev.Sound.attemptFailed {k c x} (h : d.Sound) : SoundOrHeld (d.attemptFailed k c x) :=
  .ite h.setCycle h.buoyFinal

theorem Dev.Sound.transmit {k c x} (h : d.Sound) : SoundOrHeld (d.transmit k c x) := by
  unfold Dev.transmit
  extract_lets
  exact .ite (Dev.Sound.setBuoy (.ite h.flag h)).buoyFinal (.setCycle (.setBuoy (.ite h.flag h)))

theorem Dev.Sound.takeSeq {k addr} (h : d.Sound) : (d.takeSeq k addr).2.Sound := .iteSnd h.setBuoy h.setFld

theorem Dev.Sound.memFailed {k c} (h : d.Sound) : SoundOrHeld (d.memFailed k c) := h.setCycle

theorem Dev.Sound.nextDescriptor {k c} (h : d.Sound) : SoundOrHeld (d.nextDescriptor k c) := by
  unfold Dev.nextDescriptor
  split
  · trivial
  · next hl => exact (Dev.Sound.of_thd hl h.engineLoad).memFailed
  · next bytes d1 hl =>
    have h1 : d1.Sound := .of_thd hl h.engineLoad
    extract_lets w addr cmd qlen x c1
    refine .ite h1.setCycle (.ite h1.buoyFinal (.ite h1.buoyFinal ?_))
    split
    next body e d2 hb =>
      have h2 : d2.Sound := .of_thd hb (.iteThd h1 h1.engineLoad)
      split
      · trivial
      · exact h2.memFailed
      · exact h2.takeSeq.transmit

theorem Dev.Sound.buoySend {k} (h : d.Sound) : (Machine.buoySend k d).Sound := by
  unfold Machine.buoySend
  split
  · exact h
  · split
    · exact h
    · split
      · exact h.orWait h.transmit
      · exact .ite h (h.orWait h.nextDescriptor)

theorem Dev.Sound.buoyWaitEnd {k} (h : d.Sound) : (Machine.buoyWaitEnd k d).Sound := by
  unfold Machine.buoyWaitEnd
  split
  · exact h
  · split
    · exact .ite h.setCycle h
    · exact h

theorem Dev.Sound.abortDescriptor {k base j} (h : d.Sound) : (Machine.Dev.abortDescriptor k base d j).Sound :=
  .ite h.engineLoad.engineStore h.engineLoad

theorem Dev.Sound.endCycle {k c early} (h : d.Sound) : SoundOrHeld (d.endCycle k c early) := by
  unfold Dev.endCycle
  extract_lets left d1
  split
  · trivial
  · have h1 : d1.Sound := .foldl h fun _ _ h => h.abortDescriptor
    exact h1.setFld.setFld.setFld.setFld.setFld.flag.setCycle.consequence

theorem Dev.Sound.cycleComplete {k} (h : d.Sound) : (Machine.cycleComplete k d).Sound := by
  unfold Machine.cycleComplete
  split
  · exact h
  · exact .ite h (.ite (h.orWait h.endCycle) (.ite (h.orWait h.endCycle) h))

theorem Dev.Sound.memFailure {k} (h : d.Sound) : (Machine.memFailure k d).Sound := by
  unfold Machine.memFailure
  split
  · exact h
  · exact .ite (h.orWait h.flag.present.endCycle) h

theorem Dev.Sound.ringBreak {k} (h : d.Sound) : (Machine.ringBreak k d).Sound := by
  unfold Machine.ringBreak
  split
  · exact h
  · extract_lets
    split
    · exact h.flag.present.flag.setBuoy
    · split
      · exact h.orWait h.flag.present.setFld.endCycle
      · exact h.flag.present.setFld

theorem Dev.Sound.replyOk {k c x body} (h : d.Sound) : SoundOrHeld (d.replyOk k c x body) := by
  unfold Dev.replyOk
  split
  · trivial
  · next hs => exact (Dev.Sound.of_snd hs h.engineStore).memFailed
  · next hs => exact (Dev.Sound.of_snd hs h.engineStore).buoyFinal

theorem Dev.Sound.replyTo {k c x r} (h : d.Sound) : SoundOrHeld (d.replyTo k c x r) := by
  unfold Dev.replyTo
  extract_lets f d1
  have h1 : d1.Sound := .ite h.setFld h
  exact .ite h.setFld.buoyFinal (.ite h.buoyFinal (.ite h1.buoyFinal (.ite h1.buoyFinal h1.replyOk)))

theorem Dev.Sound.buoyReceive {k r} (h : d.Sound) : (Machine.buoyReceive k r d).Sound := by
  unfold Machine.buoyReceive
  split
  · exact h
  · next c hc =>
    extract_lets inTime quiet _ d1 hit d2
    clear_value hit
    have h2 : d2.Sound := .ite h.setBuoy h.setBuoy.count
    refine .ite h ?_
    split
    · exact h.orWait h2.replyTo
    · refine .ite h2 ?_
      split
      · exact h.orWait h2.attemptFailed
      · exact h2

theorem Dev.Sound.buoyDeadlinePass {k} (h : d.Sound) : (Machine.buoyDeadlinePass k d).Sound := by
  unfold Machine.buoyDeadlinePass
  split
  · exact h
  · split
    · exact h
    · split
      · exact h
      · extract_lets b d1
        have h1 : d1.Sound := .ite h h.setBuoy
        exact .ite (.ringBreak (.ite h1 h1.count)) (.ite (h.orWait h1.buoyFinal) (h.orWait h1.count.attemptFailed))

theorem Dev.Sound.ringHeal {k} (h : d.Sound) : (Machine.ringHeal k d).Sound := by
  unfold Machine.ringHeal
  extract_lets
  split
  · exact .ite h.flag.setBuoy h
  · exact h

theorem Dev.Sound.enumEntry {k n i} (h : d.Sound) : (Machine.Dev.enumEntry k n d i).Sound := by
  unfold Dev.enumEntry
  extract_lets d1
  have h1 : d1.Sound := h.setFld.setFld.setFld
  exact .ite h1.flag.setFld.setFld h1.setFld

theorem Dev.Sound.enumRecords {k} : ∀ {l : List (BitVec 64 × BitVec 16)} {d : Dev} {base}, d.Sound →
    (d.enumRecords k base l).Sound
  | [], _, _, h => h
  | _ :: _, _, _, h => h.engineStore.enumRecords

theorem Dev.Sound.enumWrite {k} (h : d.Sound) : (d.enumWrite k).Sound := .ite h.flag h.flag

theorem Dev.Sound.enumTable {k n} (h : d.Sound) : (d.enumTable k n).Sound :=
  .setBuoy (.foldl h fun _ _ h => h.enumEntry)

theorem Dev.Sound.enumRun {k ring} (h : d.Sound) : SoundOrHeld (d.enumRun k ring) := by
  unfold Dev.enumRun
  extract_lets base d1 ps
  split
  next s d2 hs =>
    have h2 : d2.Sound := .of_snd hs (Dev.Sound.takeSeq h.setFld)
    split
    · exact h2.setFld.flag
    · extract_lets d3 d4
      split
      · trivial
      · have h4 : d4.Sound := .ite h2.setFld.enumRecords.flag.present h2.setFld.enumRecords
        exact h4.setFld.enumTable.flag

theorem Dev.Sound.enumGo {k ring} (h : d.Sound) : (d.enumGo k ring).Sound := .ite (h.orWait h.enumRun) h

theorem Dev.Sound.enumerate {k ring} (h : d.Sound) : (Machine.enumerate k ring d).Sound :=
  .enumGo (.ite h h.enumWrite)

theorem Dev.Sound.buoyWrite {a w} (h : d.Sound) : (d.buoyWrite a w).Sound :=
  .ite (.startLists (.ite h.enumWrite h)) h.storeReg

/-! ### Ethernet -/

theorem Dev.Sound.syncInterval {s} (h : d.Sound) : (Machine.syncInterval s d).Sound :=
  .ite h.withEth.setFld (.ite h.withEth.setFld.setFld.withEth.present h.withEth.setFld.setFld.withEth)

theorem Dev.Sound.timePulse (h : d.Sound) : (Machine.timePulse d).Sound :=
  .ite h h.withEth.setPair64.setPair64.produce

theorem Dev.Sound.deliverFrame {f pcp ns port} (h : d.Sound) : (d.deliverFrame f pcp ns port).Sound :=
  .ite h.withEth (.ite h.withEth h)

theorem Dev.Sound.startLine {q f} (h : d.Sound) : (d.startLine q f).Sound := h.withEth

theorem Dev.Sound.drainPort {q} (h : d.Sound) : (d.drainPort q).Sound := by
  unfold Dev.drainPort
  split
  · exact h
  · split
    · exact h
    · exact h.withEth.startLine

theorem Dev.Sound.drainPorts (h : d.Sound) : d.drainPorts.Sound := h.drainPort.drainPort

theorem Dev.Sound.forward {ingress f pcp ns} (h : d.Sound) : (d.forward ingress f pcp ns).Sound :=
  .drainPorts (.foldl h fun _ _ h => h.deliverFrame)

theorem Dev.Sound.switchFrame {port f} (h : d.Sound) : (Machine.switchFrame port f d).Sound :=
  .ite h (.ite (.ite h.count h) (.ite h (.ite (.ite h.count h) h.withEth.forward)))

theorem Dev.Sound.ageOut (h : d.Sound) : (Machine.ageOut d).Sound := by
  unfold Machine.ageOut
  split
  · exact h.withEth
  · exact h

theorem Dev.Sound.linkChange {q up auto sqi} (h : d.Sound) : (Machine.linkChange q up auto sqi d).Sound := by
  unfold Machine.linkChange
  extract_lets ms master up was d1 d2 d3
  have h3 : d3.Sound := .ite h.setFld.setFld.setFld h.setFld.setFld.setFld.flag
  exact .ite h3.present h3

theorem Dev.Sound.advanceSeq (h : d.Sound) : d.advanceSeq.Sound := h.withEth

theorem Dev.Sound.epochWrap (h : d.Sound) : (Machine.epochWrap d).Sound := .ite (.journal ⟨h.regs, h.pairs⟩) h

theorem Dev.Sound.sendSigned {keyid dst payload} (h : d.Sound) : (d.sendSigned keyid dst payload).Sound := by
  unfold Dev.sendSigned
  split
  · exact h
  · exact .advanceSeq (.ite h.epochWrap.forward h.epochWrap)

theorem Dev.Sound.txEmit {r raw type keyid dst payload} (h : d.Sound) :
    (d.txEmit r raw type keyid dst payload).Sound := by
  unfold Dev.txEmit
  extract_lets send
  have hs : ∀ f, (send f).Sound := fun _ => .ite h h.startLine
  split
  · exact hs _
  · split
    · exact h
    · exact (hs _).advanceSeq

theorem Dev.Sound.sendHead {r} (h : d.Sound) : SoundOrHeld (d.sendHead r) := by
  unfold Dev.sendHead
  extract_lets head a
  split
  next desc e0 d1 h1e =>
    have h1 : d1.Sound := .of_thd h1e h.engineLoad
    extract_lets w raw len type keyid dst st
    split
    next payload e1 d2 h2e =>
      have h2 : d2.Sound := .of_thd h2e (.iteThd h1.engineLoad h1)
      split
      · trivial
      · split
        next status d3 h3e =>
          have h3 : d3.Sound := by
            refine .of_snd h3e ?_
            split
            · exact .iteSnd h2 (.iteSnd h2 h2.txEmit)
            · exact h2.fresh
          exact h3.engineStore.setFld

theorem Dev.Sound.txSend {r} (h : d.Sound) : (Machine.txSend r d).Sound := .ite (h.orWait h.sendHead) h

theorem Dev.Sound.txGated {r} (h : d.Sound) : (Machine.txGated r d).Sound := by
  unfold Machine.txGated
  refine .ite h (.ite h.setLatch.flag (.ite h ?_))
  split
  · next hs => exact (SoundOrHeld.of_ok hs h.sendHead).setLatch
  · exact h.onHold

theorem Dev.Sound.ringWrite {m base unit size tail bytes} (h : d.Sound) :
    SoundOrHeld (d.ringWrite m base unit size tail bytes) := by
  unfold Dev.ringWrite
  extract_lets first a
  split
  · trivial
  · exact h.engineStore.engineStore

theorem Dev.Sound.rxPut {entry e} (h : d.Sound) (he : d.rxPut entry = .written e) : e.Sound := by
  unfold Dev.rxPut at he
  extract_lets size tail n at he
  split at he
  · cases he
  · split at he
    · next hw =>
      cases he
      exact (SoundOrHeld.of_ok hw h.ringWrite).setFld
    · cases he

theorem Dev.Sound.dropped {f} (h : d.Sound) : (d.dropped f).Sound := h.count.flag

theorem Dev.Sound.takeHost (h : d.Sound) : d.takeHost.Sound := h.withEth

theorem Dev.Sound.seqTaken {n s} (h : d.Sound) : (d.seqTaken n s).Sound := .ite h.withEth.setPair64 h.withEth

theorem Dev.Sound.accept {n first body} (h : d.Sound) : (d.accept n first body).Sound := by
  unfold Dev.accept
  extract_lets type len d1
  have h1 : d1.Sound := h.takeHost.seqTaken
  refine .ite h1.wakeUp ?_
  split
  · exact h.onHold
  · exact h1.dropped
  · next hr =>
    have h2 := h1.rxPut hr
    exact .ite h2.flag (.ite h2.withTrust h2)

theorem Dev.Sound.checkMessage {first gptp body} (h : d.Sound) : (d.checkMessage first gptp body).Sound := by
  unfold Dev.checkMessage
  extract_lets
  split
  · exact h.takeHost.dropped
  · split
    · exact h.takeHost.dropped
    · split
      · exact h.takeHost.dropped
      · split
        · exact h.takeHost.dropped.present
        · split
          · exact h.takeHost.dropped
          · exact .ite h.takeHost.dropped (.ite h.takeHost.dropped h.accept)

theorem Dev.Sound.messageReceive (h : d.Sound) : (Machine.messageReceive d).Sound := by
  unfold Machine.messageReceive
  split
  · exact h
  · exact .ite h.checkMessage h

theorem Dev.Sound.rawReceive (h : d.Sound) : (Machine.rawReceive d).Sound := by
  unfold Machine.rawReceive
  split
  · exact h
  · refine .ite h (.ite h.takeHost ?_)
    split
    · exact h.onHold
    · exact h.takeHost.dropped
    · next hr => exact h.takeHost.rxPut hr

/-! ### Can -/

theorem Dev.Sound.setCan {k x} (h : d.Sound) : (d.setCan k x).Sound := h.withCan

theorem Dev.Sound.errorState {k} (h : d.Sound) : (d.errorState k).Sound := .ite h h.setFld

theorem Dev.Sound.canEvent {k f} (h : d.Sound) : (d.canEvent k f).Sound := .ite h.produce h

theorem Dev.Sound.canStore {k f} (h : d.Sound) : SoundOrHeld (d.canStore k f) := by
  unfold Dev.canStore
  extract_lets bytes size tail n
  refine .ite h.count ?_
  split
  · trivial
  · next hw => exact (SoundOrHeld.of_ok hw h.ringWrite).setFld.flag

theorem Dev.Sound.canStoreAll {k} : ∀ {l : List CanFrame} {d : Dev}, d.Sound → (d.canStoreAll k l).Sound
  | [], _, h => h.setCan
  | f :: t, d, h => by
    rw [Dev.canStoreAll]
    split
    · next hs => exact (SoundOrHeld.of_ok hs h.canStore).canStoreAll
    · exact h.setCan.onHold

theorem Dev.Sound.canRetry (h : d.Sound) : d.canRetry.Sound := .foldl h fun _ _ h => .ite h h.canStoreAll

theorem Dev.Sound.canReceive {k f} (h : d.Sound) : (Machine.canReceive k f d).Sound := by
  unfold Machine.canReceive
  split
  · exact h
  · extract_lets rec_ d1
    have h1 : d1.Sound := .ite h h.setFld.errorState
    exact .ite h1.canEvent.canStoreAll h1

theorem Dev.Sound.canSendHead {k header} (h : d.Sound) : SoundOrHeld (d.canSendHead k header) := by
  unfold Dev.canSendHead
  extract_lets base size head w1 fmt len n start first a done
  refine .ite h.setFld ?_
  split
  · trivial
  · exact h.engineLoad.engineLoad.engineStore.setFld.errorState.setCan.setFld.flag.canEvent

theorem Dev.Sound.canSend {k} (h : d.Sound) : (Machine.canSend k d).Sound := by
  unfold Machine.canSend
  extract_lets size head
  refine .ite h ?_
  split
  next header e d1 hl =>
    have h1 : d1.Sound := .of_thd hl h.engineLoad
    extract_lets j input
    split
    · exact h.onHold
    · refine .ite h ?_
      split
      · exact h.onHold
      · next hs =>
        have h2 := SoundOrHeld.of_ok hs h1.canSendHead
        exact .ite h2.setLatch h2

theorem Dev.Sound.goBusOff {k} (h : d.Sound) : (Machine.goBusOff k d).Sound := .ite h h.setFld.setFld.flag.present

theorem Dev.Sound.busRecovered {k} (h : d.Sound) : (Machine.busRecovered k d).Sound :=
  .ite h.setFld.setFld.setFld.setCan h

theorem Dev.Sound.startRecovery {k} (h : d.Sound) : (Machine.startRecovery k d).Sound := .ite h.setCan h

/-! ### Nvs -/

theorem Dev.Sound.sealOpen {bad} (h : d.Sound) : (Machine.sealOpen bad d).Sound := .ite h h.sealPage

theorem Dev.Sound.sealPeriod {bad} (h : d.Sound) : (Machine.sealPeriod bad d).Sound := .ite h.sealOpen h

theorem Dev.Sound.appendEnd {st} (h : d.Sound) : (d.appendEnd st).Sound := h.withNvs.setFld.setFld

theorem Dev.Sound.tryAppend (h : d.Sound) : d.tryAppend.Sound := by
  unfold Dev.tryAppend
  split
  · exact h
  · refine .ite h.appendEnd ?_
    extract_lets quiet
    split
    next hd e d1 hl =>
      have h1 : d1.Sound := .of_thd hl h.engineLoad
      split
      · exact h.onHold
      · exact h1.appendEnd
      · extract_lets type len
        refine .ite h1.appendEnd (.ite h1.appendEnd (.ite h1.appendEnd ?_))
        split
        next body e d2 hl =>
          have h2 : d2.Sound := .of_thd hl h1.engineLoad
          split
          · exact h.onHold
          · exact h2.appendEnd
          · exact .appendEnd (.ite h2.journal.sealOpen h2.journal)

theorem Dev.Sound.appendWrite {addr} (h : d.Sound) : (Machine.appendWrite addr d).Sound :=
  .ite h h.withNvs.flag.tryAppend

theorem Dev.Sound.chainVerify {broken} (h : d.Sound) : (Machine.chainVerify broken d).Sound := by
  unfold Machine.chainVerify
  split
  · exact h
  · extract_lets
    split
    · exact h.withNvs.flag
    · exact h.withNvs.flag.present

theorem Dev.Sound.compact (h : d.Sound) : (Machine.compact d).Sound := .ite h.withNvs.flag h

theorem Dev.Sound.eraseDone (h : d.Sound) : (Machine.eraseDone d).Sound :=
  .ite h (.ite h.withNvs.setFld.flag.present h.withNvs.setFld)

theorem Dev.Sound.blockRemap (h : d.Sound) : (Machine.blockRemap d).Sound := .ite h.withNvs h

theorem Dev.Sound.slotctlWrite {op m w} (h : d.Sound) : (Machine.slotctlWrite op m w d).Sound := by
  unfold Machine.slotctlWrite
  split
  · exact h
  · extract_lets tgt d1
    have h1 : d1.Sound := h.setFld.setFld.setFld
    exact .ite h1 (.ite h1.setFld h1.withNvs.flag.flag)

theorem Dev.Sound.opEnd {st} (h : d.Sound) : (d.opEnd st).Sound := h.withNvs.setFld.setFld.setFld

theorem Dev.Sound.opFail {st} (h : d.Sound) : (d.opFail st).Sound := by
  unfold Dev.opFail
  split
  next k e hf => exact (Dev.Sound.of_snd hf h.fresh).withNvs.opEnd

theorem Dev.Sound.opCopy {src off len} (h : d.Sound) : (d.opCopy src off len).Sound := by
  unfold Dev.opCopy
  split
  next bytes e d1 hl =>
    have h1 : d1.Sound := .of_thd hl h.engineLoad
    split
    · exact h1.onHold
    · exact h1.opFail
    · exact h1.withNvs.opEnd

theorem Dev.Sound.slotDone {err} (h : d.Sound) : (Machine.slotDone err d).Sound := by
  unfold Machine.slotDone
  split
  · exact h
  · exact .ite h.opFail (.ite h.opFail (.ite h.withNvs.opEnd (.ite h.opCopy (.ite h.opCopy h.journal.opEnd))))

/-! ### Test -/

theorem Dev.Sound.bistStop {p} (h : d.Sound) : (d.bistStop p).Sound := h.setPair.setPairState

theorem Dev.Sound.bistStart (h : d.Sound) : (Machine.bistStart d).Sound :=
  .ite (.ite h ((Dev.Sound.foldl h fun _ _ h => h.bistStop).flag.setFld.setFld.withTest)) h.refuse.setFld

theorem Dev.Sound.bistRecord {r} (h : d.Sound) : (d.bistRecord r).Sound := by
  unfold Dev.bistRecord
  extract_lets n _ d1
  have h1 : d1.Sound := .ite h.withTest h
  exact .ite h1.count h1.setPair64.setFld

theorem Dev.Sound.bistOver {status} (h : d.Sound) : (d.bistOver status).Sound := by
  unfold Dev.bistOver
  extract_lets clear d1
  have h1 : d1.Sound := h.setFld.setFld
  exact ⟨h1.regs, (List.length_map _).trans h1.pairs⟩

theorem Dev.Sound.bistCheck {clockKHz supplyMv results} (h : d.Sound) :
    (Machine.bistCheck clockKHz supplyMv results d).Sound := by
  unfold Machine.bistCheck
  split
  · exact h
  · extract_lets d1
    have h1 : d1.Sound := .foldl h fun _ _ h => h.bistRecord
    exact .ite h1.bistOver (.ite h1.bistOver h1.withTest)

theorem Dev.Sound.bistEnd {results} (h : d.Sound) : (Machine.bistEnd results d).Sound :=
  .ite (.bistOver (.foldl h fun _ _ h => h.bistRecord)) h

theorem Dev.Sound.repair (h : d.Sound) : (Machine.repair d).Sound := .ite h h.journal.withTest

theorem Dev.Sound.bistctlWrite {w} (h : d.Sound) : (Machine.bistctlWrite w d).Sound := by
  unfold Machine.bistctlWrite
  extract_lets d1
  have h1 : d1.Sound := .ite h.repair h
  exact .ite h1.bistStart h1

theorem Dev.Sound.watchPeriodEnd (h : d.Sound) : (Machine.watchPeriodEnd d).Sound := by
  unfold Machine.watchPeriodEnd
  split
  · exact h
  · exact .ite ((Dev.Sound.ite h.setFld.setFld h.setFld.flag.present).withTest) h

theorem Dev.Sound.covered1 {inst word} (h : d.Sound) : (d.covered1 inst word).Sound := .ite h.withTest h

theorem Dev.Sound.marchFailed {inst bit} (h : d.Sound) : (Machine.Dev.marchFailed inst d bit).Sound :=
  h.setFld.flag.present

theorem Dev.Sound.marchWord {inst word stuck} (h : d.Sound) : (Machine.marchWord inst word stuck d).Sound :=
  .ite h (.ite (.ite h.romRead.covered1 h) (.ite (.covered1 (.foldl h.setInstRam.noteRead fun _ _ h => h.marchFailed))
    h))

theorem Dev.Sound.offer {lp budget} (h : d.Sound) : (Machine.offer lp budget d).Sound :=
  .ite h.setPair.withTest h.count

theorem Dev.Sound.offerAbandon {lp} (h : d.Sound) : (Machine.offerAbandon lp d).Sound := by
  unfold Machine.offerAbandon
  split
  · exact h
  · exact .ite h.dropSlice h

theorem Dev.Sound.spareSlice {p fail} (h : d.Sound) : (Machine.spareSlice p fail d).Sound :=
  .ite h (.ite h.sliceFailed h.withTest)

theorem Dev.Sound.loopDelay {x1} (h : d.Sound) : (d.loopDelay x1).Sound := by
  unfold Dev.loopDelay
  split
  · exact h.setAdc
  · exact h

theorem Dev.Sound.loopback {b pass} (h : d.Sound) : (Machine.loopback b pass d).Sound :=
  .ite h (.ite h.loopDelay.withTest h.loopDelay.withTest.flag.present)

theorem Dev.Sound.slackLow {p} (h : d.Sound) : (d.slackLow p).Sound := by
  unfold Dev.slackLow
  split
  · exact h.withAge
  · exact .ite h.withAge.flag.present h

theorem Dev.Sound.slackFine {p} (h : d.Sound) : (d.slackFine p).Sound := h.withAge

theorem Dev.Sound.voltageAdjust {p slack nbti} (h : d.Sound) : (Machine.voltageAdjust p slack nbti d).Sound :=
  .ite h.withAge (.ite (.ite h.withAge.setPair.slackFine h.withAge.slackLow)
    (.ite h.withAge.setPair.slackFine h.withAge.slackFine))

theorem Dev.Sound.planInService {steps p} (h : d.Sound) : (d.planInService steps p).Sound := by
  unfold Dev.planInService
  split
  · exact h
  · split
    · exact h
    · split
      · exact h.flag.present
      · extract_lets d1
        have h1 : d1.Sound := .ite h h.setStep
        exact .ite h1 h1.setPair

theorem Dev.Sound.plannerRun {steps} (h : d.Sound) : (Machine.plannerRun steps d).Sound :=
  .ite h (.foldl (Dev.Sound.noteSlow (.foldl ⟨h.regs, h.pairs⟩ fun _ _ h => h.planInService)) fun _ _ h =>
    h.checkShort)

/-! ### Session -/

theorem Dev.Sound.resumeHeld {p} (h : d.Sound) : (d.resumeHeld p).Sound := .ite h.capture h

theorem Dev.Sound.clearComparators (h : d.Sound) : d.clearComparators.Sound := .foldl h fun _ _ h => h.setFld

theorem Dev.Sound.endSession (h : d.Sound) : d.endSession.Sound := by
  unfold Dev.endSession
  split
  · exact h
  · extract_lets d1 d2
    have h2 : d2.Sound := (Dev.Sound.clearComparators (.foldl h fun _ _ h => h.resumeHeld)).setFld.setFld.flag
    exact .ite h2.setFld.withStart h2

theorem Dev.Sound.grantEnded (h : d.Sound) : d.grantEnded.Sound := h.endGrant.endSession

theorem Dev.Sound.withGrantEnd {old} (h : d.Sound) : (Dev.withGrantEnd old d).Sound := .ite h.endSession h

/-! ### Trust -/

theorem Dev.Sound.revoke {role slot} (h : d.Sound) : (d.revoke role slot).Sound := .ite h.withPersist h.withTrust

theorem Dev.Sound.reserveAtt (h : d.Sound) : d.reserveAtt.Sound := by
  unfold Dev.reserveAtt
  split
  · exact h
  · extract_lets b _ _ d1
    have h1 : d1.Sound := .journal ⟨h.regs, h.pairs⟩
    exact .ite h1.withTrust.journal h1

theorem Dev.Sound.attest {nonce} (h : d.Sound) : (d.attest nonce).2.Sound :=
  .ite h.reserveAtt.withTrust.flag h.reserveAtt.withTrust

theorem Dev.Sound.install {slot act} (h : d.Sound) : (d.install slot act).Sound :=
  .ite h.journal (.ite h.journal.setActive.deviceReset h.journal.setActive)

theorem Dev.Sound.signedEffect {c seed} (h : d.Sound) : (d.signedEffect c seed).2.Sound :=
  .iteSnd h.withTrust.flag.lifecycleTo (.iteSnd h.withTrust.flag.lifecycleTo
    (.iteSnd h.withTrust (.iteSnd h.lifecycleTo (.iteSnd h.lifecycleTo
    (.iteSnd h.lifecycleTo (.iteSnd (.ite h.revoke.flag.journal h.revoke.flag)
    (.iteSnd h.withPersist.journal.flag (.iteSnd h.withPersist.journal.flag
    (.iteSnd h.withPersist.journal (.iteSnd h.install (.iteSnd h.withTrust.journal.flag h.attest)))))))))))

theorem Dev.Sound.workResult {status payload} (h : d.Sound) : (d.workResult status payload).Sound := by
  unfold Dev.workResult
  split
  · exact .ite h.withTdr h
  · exact h

theorem Dev.Sound.answerBlock {role a} (h : d.Sound) : (d.answerBlock role a).Sound := by
  unfold Dev.answerBlock
  extract_lets d1
  have h1 : d1.Sound := h.setFld.setFld.setFld
  split
  · exact h1.setFld.withTrust.workResult
  · exact .foldl h1.setFld.withTrust fun _ _ h => h.sendSigned

theorem Dev.Sound.auditCounts (h : d.Sound) : d.auditCounts.Sound := .ite h.withTrust.journal h

theorem Dev.Sound.signatureFailed {role} (h : d.Sound) : (d.signatureFailed role).Sound :=
  .ite h.withTrust.present h.withTrust

theorem Dev.Sound.blockFailed {role status} (h : d.Sound) : (d.blockFailed role status).Sound := by
  unfold Dev.blockFailed
  extract_lets d1 d2
  have h1 : d1.Sound := .ite h.count h.count
  have h2 : d2.Sound := .ite h1.flag h1
  exact (Dev.Sound.ite h2.signatureFailed h2).withTrust.auditCounts

theorem Dev.Sound.recordBlock {c status} (h : d.Sound) : (d.recordBlock c status).Sound := h.withPersist.journal

theorem Dev.Sound.installFailed {c} (h : d.Sound) : (d.installFailed c).Sound :=
  .ite (.ite h.checkSlot h.checkSlot.journal) h

theorem Dev.Sound.judgeSigned {c seed} (h : d.Sound) : (d.judgeSigned c seed).2.2.Sound :=
  .iteThd h.cmdStat (.iteThd h.refuse.cmdStat (.iteThd h.recordBlock.judge
    (.iteThd h.recordBlock.installFailed.refuse.cmdStat h.recordBlock.cmdStat.signedEffect.withGrantEnd)))

theorem Dev.Sound.runBlock {c fmt dev sig seed} (h : d.Sound) : (d.runBlock c fmt dev sig seed).Sound :=
  .ite h.blockFailed.answerBlock (.ite h.judgeSigned h.judgeSigned.answerBlock)

theorem Dev.Sound.blockArrives {b} (h : d.Sound) : (d.blockArrives b).Sound := .ite h.answerBlock h.withTrust

theorem Dev.Sound.signedRow {code b seeds} (h : d.Sound) : (Machine.signedRow code b d seeds).Sound :=
  .ite h.blockArrives h.runBlock

theorem Dev.Sound.takeFragment {f} (h : d.Sound) : (d.takeFragment f).Sound :=
  .ite h (.ite h.count (.ite h.withTrust.blockArrives h.withTrust))

theorem Dev.Sound.fragmentReceive (h : d.Sound) : (Machine.fragmentReceive d).Sound := by
  unfold Machine.fragmentReceive
  split
  · exact h
  · exact h.withTrust.takeFragment

theorem Dev.Sound.reassemblyTimeout (h : d.Sound) : (Machine.reassemblyTimeout d).Sound := by
  unfold Machine.reassemblyTimeout
  split
  · exact h.withTrust.count
  · exact h

theorem Dev.Sound.blockCheck (h : d.Sound) : (Machine.blockCheck d).Sound := by
  unfold Machine.blockCheck
  split
  · exact h
  · split
    · exact h
    · extract_lets
      split
      · exact h.withTrust.runBlock
      · exact .runBlock (.iteSnd h.withTrust.fresh h.withTrust)

theorem Dev.Sound.attReady (h : d.Sound) : (Machine.attReady d).Sound := .ite h.withTrust h

theorem Dev.Sound.entropyFailed (h : d.Sound) : (Machine.entropyFailed d).Sound :=
  (Dev.Sound.ite h.withTrust h).flag.present

theorem Dev.Sound.grantEnd (h : d.Sound) : (Machine.grantEnd d).Sound := by
  unfold Machine.grantEnd
  split
  · exact .ite h.grantEnded h
  · exact h

/-! ### IoPort -/

theorem Dev.Sound.ioRead {a peek} (h : d.Sound) : (d.ioRead a peek).2.2.Sound := by
  unfold Dev.ioRead
  split
  · exact h
  · exact .ite h h.setWord

theorem Dev.Sound.dmaBegin {e j trig} (h : d.Sound) : (d.dmaBegin e j trig).Sound := h.withDma.flag

theorem Dev.Sound.dmaStart {e j sw} (h : d.Sound) : (Machine.dmaStart e j sw d).Sound := by
  unfold Machine.dmaStart
  split
  · exact h
  · split
    · exact .ite h.flag h.dmaBegin
    · split
      · exact h
      · split
        · exact h.setLatch.dmaBegin
        · exact h

theorem Dev.Sound.configWrite {a w} (h : d.Sound) : (d.configWrite a w).Sound := .ite h.storeReg h.refuse

theorem Dev.Sound.sysctlWrite {m user a w} (h : d.Sound) : (d.sysctlWrite m user a w).Sound :=
  .ite (.ite h h.issueCommand) (.ite (.ite h.configWrite.withPersist.journal h.configWrite)
    (.ite h.configWrite h.storeReg))

theorem Dev.Sound.pairctlWrite {a w} (h : d.Sound) : (d.pairctlWrite a w).Sound :=
  .ite (Dev.Sound.ite h.storeReg h.storeReg.setFld).capture
    (.ite h.designate (.ite (.ite h.cmptestStart h) h.storeReg))

theorem Dev.Sound.intcWrite {a w} (h : d.Sound) : (d.intcWrite a w).Sound :=
  .ite (.ite h.setFld h) (.ite (.foldl h fun _ _ h => .ite h.clearEdge h)
    (.ite h.swset (.ite h.storeReg.capture h.storeReg)))

theorem Dev.Sound.evtmxWrite {a w} (h : d.Sound) : (d.evtmxWrite a w).Sound :=
  .ite (.ite h.cenWrite (.ite h.cenWrite (.ite (.ite h.storeReg.watchTake h.storeReg) h.storeReg))) h.storeReg

theorem Dev.Sound.lanternWrite {a w} (h : d.Sound) : (d.lanternWrite a w).Sound :=
  .ite (.ite h.timebaseWrite (.ite (.ite h.storeReg.restartTb h.storeReg)
    (.ite h.lineSample (.ite h.adjWrite h.storeReg))))
    (.ite (.ite h.cmpWrite (.ite h.storeReg.setFld h.storeReg)) h.storeReg)

theorem Dev.Sound.safeislWrite {a w} (h : d.Sound) : (d.safeislWrite a w).Sound :=
  .ite (.ite h.clearFaultCounts h) (.ite h.logAck (.ite (.ite h.storeReg.setFld h.storeReg)
    (.ite h.reactWrite h.storeReg)))

theorem Dev.Sound.keeperWrite {m user a w} (h : d.Sound) : (d.keeperWrite m user a w).Sound :=
  .ite h (.ite h.keeperEnable (.ite (.ite h.storeReg h.storeReg.setFld)
    (.ite h.service (.ite (.ite h.evstatClear h) (.ite (.ite h.storeReg h.storeReg.setFld) h.storeReg)))))

theorem Dev.Sound.ethWrite {a w} (h : d.Sound) : (d.ethWrite a w).Sound :=
  .ite (.ite h.configWrite.withPersist.journal h.configWrite) (.ite h.configWrite h.storeReg)

theorem Dev.Sound.canWrite {a w} (h : d.Sound) : (d.canWrite a w).Sound :=
  .ite (.ite h.storeReg (.ite h.storeReg.setFld (.ite h.storeReg.setFld (.ite (.ite h.startRecovery h) h.storeReg))))
    h.storeReg

theorem Dev.Sound.nvsWrite {m a w} (h : d.Sound) : (d.nvsWrite m a w).Sound :=
  .ite h.appendWrite (.ite h.slotctlWrite h.storeReg)

theorem Dev.Sound.testWrite {a w} (h : d.Sound) : (d.testWrite a w).Sound :=
  .ite h.bistctlWrite (.ite h.offer h.storeReg)

theorem Dev.Sound.powerWrite {a w} (h : d.Sound) : (d.powerWrite a w).Sound := .ite h.withPower h.storeReg

theorem Dev.Sound.dmaWrite {a w} (h : d.Sound) : (d.dmaWrite a w).Sound := .ite h.storeReg.dmaStart h.storeReg

theorem Dev.Sound.blockWrite {m user a w} (h : d.Sound) : (d.blockWrite m user a w).Sound := by
  unfold Dev.blockWrite
  split
  · exact h.sysctlWrite
  · exact h.pairctlWrite
  · exact h.intcWrite
  · exact .ite h.enableWrite h.storeReg
  · exact .ite h.etctlWrite h.storeReg
  · exact h.evtmxWrite
  · exact h.lanternWrite
  · exact h.pwmWrite
  · exact h.sdfWrite
  · exact h.adcWrite
  · exact h.posWrite
  · exact h.safeislWrite
  · exact h.keeperWrite
  · exact h.ethWrite
  · exact h.canWrite
  · exact h.buoyWrite
  · exact h.nvsWrite
  · exact h.testWrite
  · exact h.powerWrite
  · exact h.dmaWrite
  · exact h.storeReg

theorem Dev.Sound.ioWrite {m user a w} (h : d.Sound) : (d.ioWrite m user a w).2.Sound := .iteSnd h.blockWrite h

theorem Dev.Sound.registerWrite {m user a w} (h : d.Sound) : (Machine.registerWrite m user a w d).Sound := by
  unfold Machine.registerWrite
  extract_lets
  split
  · exact h.denied
  · exact h.ioWrite

/-! ### Target -/

theorem Dev.Sound.readBundle {map lp} : ∀ {n} {d : Dev} {a}, d.Sound → (d.readBundle map lp a n).2.2.Sound
  | 0, _, _, h => h
  | _ + 1, _, _, h => .iteThd h.targetRead h.targetRead.readBundle

theorem Dev.Sound.readFill {r} : ∀ {n} {d : Dev} {a first}, d.Sound → (d.readFill r a first n).2.2.Sound
  | 0, _, _, _, h => h
  | n + 1, d, a, first, h => by
    rw [Dev.readFill]
    split
    · exact h.denied
    · split
      next ws code d1 hr =>
        have h1 : d1.Sound := .of_thd hr h.readBundle
        exact .iteThd h1 h1.readFill

theorem Dev.Sound.openLock {lp inst addr} (h : d.Sound) : (d.openLock lp inst addr).Sound :=
  h.dropLock.clearBroken.withFab

theorem Dev.Sound.perform {r} (h : d.Sound) : (d.perform r).2.2.2.Sound := by
  unfold Dev.perform
  extract_lets q lp o cut store
  have hs : ∀ {e : Dev}, e.Sound → (store e).2.2.2.Sound := fun he => he.targetWrite
  split
  · exact h.targetRead
  · split
    · split
      next hr =>
        have h1 := Dev.Sound.of_thd hr h.targetRead
        split
        · exact h1.openLock
        · exact h1
    · exact h
  · exact hs h
  · exact hs h.dropLock
  · exact h.dropLock
  · split
    · split
      next hr =>
        have h1 := Dev.Sound.of_thd hr h.bankRead
        split
        · exact h1
        · exact h1.bankWrite
    · exact h
  · split
    · split
      next hr =>
        have h1 := Dev.Sound.of_thd hr h.bankRead
        split
        · exact h1
        · exact h1.bankWrite
    · exact h
  · exact h.readFill
  · exact .ite h.ioRead.syncDone h.ioRead
  · exact h.ioWrite
  · exact h
  · exact h

theorem Dev.Sound.deliverAnswer {r value code words} (h : d.Sound) : (d.deliverAnswer r value code words).Sound :=
  .ite h.answer h.respond

theorem Dev.Sound.ungrant {id} (h : d.Sound) : (d.ungrant id).Sound := h.withFab

theorem Dev.Sound.dropHeld {r} (h : d.Sound) : (d.dropHeld r).Sound := h.withFab

theorem Dev.Sound.accessNow {r} (h : d.Sound) : (d.accessNow r).Sound :=
  .ite h (.ite h.dropHeld.ungrant.clearBroken.respondError
    (.ite h.dropHeld.perform.ungrant.deliverAnswer h.dropHeld.perform))

theorem Dev.Sound.collided {a b inst word} (h : d.Sound) : (d.collided a b inst word).Sound :=
  h.count.flag.setFld.setFld.setFld

theorem Dev.Sound.sameWord {a b inst word} (h : d.Sound) : (d.sameWord a b inst word).Sound := by
  unfold Dev.sameWord
  split
  · extract_lets d1
    have h1 : d1.Sound := h.accessNow.collided
    exact .ite h1.lostWrite h1.dropHeld.ungrant.respondError
  · exact .ite h.accessNow.accessNow h.accessNow.accessNow

theorem Dev.Sound.resend {id} (h : d.Sound) : (d.resend id).Sound := by
  unfold Dev.resend
  split
  · exact h
  · exact h.dropHeld.deliverAnswer

theorem Dev.Sound.targetAccess {ids} (h : d.Sound) : (Machine.targetAccess ids d).Sound := by
  unfold Machine.targetAccess
  split
  · split
    · split
      · exact .ite (.ite h.sameWord h.sameWord) h.accessNow.accessNow
      · exact h.accessNow.accessNow
    · exact h.accessNow.resend
    · exact h.resend.accessNow
    · exact h.resend.resend
  · refine .foldl h fun _ _ h => ?_
    split
    · exact h.accessNow
    · exact h.resend

theorem Dev.Sound.protFailed {master response} (h : d.Sound) : (d.protFailed master response).Sound :=
  h.flag.count.setFld.setFld.present

theorem Dev.Sound.fabProt {id response} (h : d.Sound) : (Machine.fabProt id response d).Sound := by
  unfold Machine.fabProt
  split
  · next r hr =>
    refine .ite h.ungrant.withFab.protFailed (.ite h.ungrant.respondError.protFailed (.ite h ?_))
    extract_lets broken d1
    have h1 : d1.Sound := h.dropHeld
    clear_value d1
    split
    next v code ws d2 hp =>
      have h2 : d2.Sound := by
        split at hp
        · cases hp
          exact h1.clearBroken
        · have hq := h1.perform (r := r)
          rw [hp] at hq
          exact hq
      have h3 : Dev.Sound (if r.req.rel then ((d2.ungrant id).protFailed r.lpair true).respond r v code
          else (d2.ungrant id).protFailed r.lpair true) := .ite h2.ungrant.protFailed.respond h2.ungrant.protFailed
      exact .ite h2.protFailed (.ite h2.ungrant.protFailed.withFab (.ite h3.flag.presentPair.mismatch h3))
  · split
    · exact .ite h.dropHeld.protFailed.deliverAnswer h
    · exact h

theorem Dev.Sound.mpuSync {m} (h : d.Sound) : (Machine.mpuSync m d).Sound := by
  unfold Machine.mpuSync
  split
  · exact h.accessNow
  · exact .ite h.syncDone h

/-! ### Debug -/

theorem Dev.Sound.reply {status tag payload} (h : d.Sound) : (d.reply status tag payload).Sound := h.withTdr

theorem Dev.Sound.received {code} (h : d.Sound) : (d.received code).Sound := .ite h.withTdr h.withTdr.withTdr

theorem Dev.Sound.rate {l n fi detail} (h : d.Sound) : (d.rate l n fi detail).2.Sound := .iteSnd h.present h

theorem Dev.Sound.lineError (h : d.Sound) : (Machine.lineError d).Sound := h.count.flag.rate.withTdr

theorem Dev.Sound.resetPulse (h : d.Sound) : (Machine.resetPulse d).Sound := h.deviceReset.count

theorem Dev.Sound.badFrame (h : d.Sound) : (Machine.badFrame d).Sound := h.reply

theorem Dev.Sound.debugDenied {tag} (h : d.Sound) : (d.debugDenied tag).Sound := h.count.flag.rate.withTdr.reply

theorem Dev.Sound.sessionCommand {code tag allowed f} (h : d.Sound) (hf : ∀ e : Dev, e.Sound → (f e).Sound) :
    (d.sessionCommand code tag allowed f).Sound :=
  .ite h.received.reply (.ite h.received.reply (.ite h.received.debugDenied (hf _ h.received)))

theorem Dev.Sound.attach {tag} (h : d.Sound) : (Machine.attach tag d).Sound :=
  .ite h.received.reply (Dev.Sound.ite h.received h.received.setFld.flag.flag).reply

theorem Dev.Sound.closeSession (h : d.Sound) : d.closeSession.Sound := .ite h.endGrant.endSession h

theorem Dev.Sound.detach {tag} (h : d.Sound) : (Machine.detach tag d).Sound := h.received.closeSession.reply

theorem Dev.Sound.sessionIdle (h : d.Sound) : (Machine.sessionIdle d).Sound := .ite h.closeSession h

theorem Dev.Sound.debugStatus {tag} (h : d.Sound) : (Machine.debugStatus tag d).Sound := h.received.reply

theorem Dev.Sound.readBeats : ∀ {l : List (Nat × Nat)} {d : Dev}, d.Sound → (d.readBeats l).2.2.Sound
  | [], _, h => h
  | (a, n) :: t, d, h => by
    rw [Dev.readBeats]
    split
    · exact h.denied
    · refine .iteThd h ?_
      split
      next b code d1 hr =>
        have h1 : d1.Sound := by
          refine .of_thd hr ?_
          split
          · exact h.takeFailure
          · exact h.served.readPieces
        exact .iteThd h1 h1.readBeats

theorem Dev.Sound.writeBeats : ∀ {l : List (Nat × Nat)} {d : Dev} {bytes}, d.Sound → (d.writeBeats bytes l).2.Sound
  | [], _, _, h => h
  | (a, n) :: t, d, bytes, h => by
    rw [Dev.writeBeats]
    split
    · exact h.denied
    · refine .iteSnd h ?_
      split
      next code d1 hr =>
        have h1 : d1.Sound := by
          refine .of_snd hr ?_
          split
          · exact h.takeFailure
          · exact h.served.writePieces
        exact .iteSnd h1 h1.writeBeats

theorem Dev.Sound.readRegs {live} : ∀ {n} {d : Dev} {a}, d.Sound → (d.readRegs live a n).2.2.Sound
  | 0, _, _, h => h
  | n + 1, d, a, h => by
    rw [Dev.readRegs]
    split
    · exact h.denied
    · split
      next v code d1 hr =>
        have h1 : d1.Sound := by
          refine .of_thd hr ?_
          split
          · exact h.takeFailure
          · exact h.served.ioRead
        exact .iteThd h1 (Dev.Sound.readRegs (.ite h1.syncDone h1))

theorem Dev.Sound.writeRegs : ∀ {n} {d : Dev} {bytes a}, d.Sound → (d.writeRegs bytes a n).2.Sound
  | 0, _, _, _, h => h
  | n + 1, d, bytes, a, h => by
    rw [Dev.writeRegs]
    split
    · exact h.denied
    · split
      next code d1 hr =>
        have h1 : d1.Sound := by
          refine .of_snd hr ?_
          split
          · exact h.takeFailure
          · exact h.served.ioWrite
        exact .iteSnd h1 h1.writeRegs

theorem Dev.Sound.debugRun {q} (h : d.Sound) : (d.debugRun q).2.2.Sound :=
  .iteThd (.iteThd h.writeRegs h.readRegs) (.iteThd h.writeBeats h.readBeats)

theorem Dev.Sound.transfer {tag q} (h : d.Sound) : (d.transfer tag q).Sound := by
  unfold Dev.transfer
  split
  · exact h.reply
  · split
    · exact h.withTdr.onHold
    · exact h.debugRun.reply

theorem Dev.Sound.retryWork (h : d.Sound) : d.retryWork.Sound := by
  unfold Dev.retryWork
  split
  · split
    · exact h.onHold
    · exact .ite h.debugRun.workResult h.debugRun.withTdr.reply
  · exact h

theorem Dev.Sound.pendingReply (h : d.Sound) : (Machine.pendingReply d).Sound := by
  unfold Machine.pendingReply
  extract_lets
  split
  · exact .ite h.retryWork.withTdr.reply h.retryWork
  · exact h.retryWork

theorem Dev.Sound.debugResult {tag} (h : d.Sound) : (Machine.debugResult tag d).Sound := by
  unfold Machine.debugResult
  extract_lets d1
  have h1 : d1.Sound := h.received.retryWork
  split
  · split
    · split
      · exact h1.reply
      · exact h1.reply
    · exact h1.fresh.reply
  · exact h1.fresh.reply

theorem Dev.Sound.debugRead {tag q} (h : d.Sound) : (Machine.debugRead tag q d).Sound :=
  h.sessionCommand fun _ h => h.transfer

theorem Dev.Sound.debugWrite {tag q} (h : d.Sound) : (Machine.debugWrite tag q d).Sound :=
  h.sessionCommand fun _ h => h.transfer

theorem Dev.Sound.debugHalt {tag pairs} (h : d.Sound) : (Machine.debugHalt tag pairs d).Sound :=
  h.sessionCommand fun _ h => .reply (.foldl h fun _ _ h => .ite h h.capture)

theorem Dev.Sound.debugResume {tag pairs} (h : d.Sound) : (Machine.debugResume tag pairs d).Sound :=
  h.sessionCommand fun _ h => .reply (.foldl h fun _ _ h => h.resumeHeld)

theorem Dev.Sound.debugStep {tag lp n} (h : d.Sound) : (Machine.debugStep tag lp n d).Sound :=
  h.sessionCommand fun _ h => .ite h.reply (.ite h.reply h.capture.reply)

theorem Dev.Sound.setComparator {tag lp k addr mask ctl} (h : d.Sound) :
    (Machine.setComparator tag lp k addr mask ctl d).Sound :=
  h.sessionCommand fun _ h => h.setFld.setFld.setFld.setFld.setFld.reply

theorem Dev.Sound.readCore {tag lp area n off} (h : d.Sound) : (Machine.readCore tag lp area n off d).Sound :=
  h.sessionCommand fun _ h => .ite h.reply (.ite h.reply
    (.ite h.noteBoth.withTdr.mismatch (.ite h.noteBoth.reply h.noteBoth.reply)))

theorem Dev.Sound.imageFrom {lp off n c} (h : d.Sound) : (d.imageFrom lp off n c).Sound :=
  .foldl h fun _ _ h => h.mirrorWord

theorem Dev.Sound.writeCore {tag lp area off bytes} (h : d.Sound) :
    (Machine.writeCore tag lp area off bytes d).Sound :=
  h.sessionCommand fun _ h => .ite h.reply (.ite h.reply (.ite h.setPair.reply
    (.reply (.ite h.setPair.noteBoth.imageFrom h.setPair.noteBoth))))

theorem Dev.Sound.signedBlock {tag block} (h : d.Sound) : (Machine.signedBlock tag block d).Sound :=
  .ite h.received.reply h.received.withTdr.reply.blockArrives

theorem Dev.Sound.unknownRequest {tag} (h : d.Sound) : (Machine.unknownRequest tag d).Sound := h.received.reply

/-! ### Dma -/

theorem Dev.Sound.ioBeatRead {m} : ∀ {n} {d : Dev} {a}, d.Sound → (d.ioBeatRead m a n).2.2.Sound
  | 0, _, _, h => h
  | n + 1, d, a, h => by
    rw [Dev.ioBeatRead]
    split
    · exact h
    · exact h.takeFailure
    · split
      next v code d1 hr =>
        have h1 : d1.Sound := by
          refine .of_thd hr ?_
          split
          · exact h.denied
          · exact .ite h.served.ioRead.syncDone h.served.ioRead
        exact .iteThd h1 h1.ioBeatRead

theorem Dev.Sound.ioBeatWrite {m} : ∀ {n} {d : Dev} {a bytes}, d.Sound → (d.ioBeatWrite m a bytes n).2.Sound
  | 0, _, _, _, h => h
  | n + 1, d, a, bytes, h => by
    rw [Dev.ioBeatWrite]
    split
    · exact h
    · exact h.takeFailure
    · split
      next code d1 hr =>
        have h1 : d1.Sound := by
          refine .of_snd hr ?_
          split
          · exact h.denied
          · exact h.served.ioWrite
        exact .iteSnd h1 h1.ioBeatWrite

theorem Dev.Sound.dmaRead {m r a n} (h : d.Sound) : (d.dmaRead m r a n).2.2.Sound :=
  .iteThd (.iteThd h h.ioBeatRead) h.busRead

theorem Dev.Sound.dmaWriteBeat {m r a bytes} (h : d.Sound) : (d.dmaWriteBeat m r a bytes).2.Sound :=
  .iteSnd h.ioBeatWrite h.busWrite

theorem Dev.Sound.dmaCopy {m ch r} : ∀ {k} {d : Dev} {done}, d.Sound → (d.dmaCopy m ch r done k).2.Sound
  | 0, _, _, h => h
  | k + 1, d, done, h => by
    rw [Dev.dmaCopy]
    refine .iteSnd h ?_
    extract_lets n
    split
    next bytes e d1 hr =>
      have h1 : d1.Sound := .of_thd hr h.dmaRead
      split
      · split
        next e d2 hw =>
          have h2 : d2.Sound := .of_snd hw h1.dmaWriteBeat
          split
          · exact .iteSnd h2 h2.dmaCopy
          · exact h2
      · exact h1

theorem Dev.Sound.dmaFinish {e j code r} (h : d.Sound) : (d.dmaFinish e j code r).Sound :=
  (Dev.Sound.ite h.withDma.setFld.setFld.setBitOf h.withDma.setFld.setFld.setBitOf).consequence

theorem Dev.Sound.dmaTransferEnd {e j} (h : d.Sound) : (Machine.dmaTransferEnd e j d).Sound := by
  unfold Machine.dmaTransferEnd
  split
  · exact h
  · split
    next b x hc =>
      have h1 : x.Sound := .of_snd hc h.dmaCopy
      split
      · exact h.onHold
      · exact .ite h1 h1.dmaFinish
      · exact .ite h1 h1.dmaFinish

/-! ### Tick -/

theorem Dev.Sound.tickPairs (h : d.Sound) : d.tickPairs.Sound := .foldl h fun _ _ h => .ite h.setPair h

theorem Dev.Sound.tickVin (h : d.Sound) : d.tickVin.Sound := .ite h.withPower h

theorem Dev.Sound.tickAge (h : d.Sound) : d.tickAge.Sound := .ite h.withAge h

theorem Dev.Sound.tickClocks (h : d.Sound) : d.tickClocks.Sound := .ite h h.endPwm.tickLantern.tickPwm.tickPins

theorem Dev.Sound.tickWork (h : d.Sound) : d.tickWork.Sound :=
  (Dev.Sound.ite h.deviceReset h).tryAppend.retryWork.auditCounts.drainPorts.canRetry

theorem Dev.Sound.tick (h : d.Sound) : (Machine.tick d).Sound :=
  .ite h (.ite h.withTicks.tickVin h.withTicks.tickClocks.tickPairs.tickVin.tickAge.tickWork)

/-! ### Step -/

/-! ### A step -/

/-- Where an outcome goes on, it goes on with a sound device. -/
def SoundNext (o : Host.Outcome State Fault Refusal) : Prop := ∀ t, o = .next t → t.dev.Sound

variable {s t : State} {f : Dev → Dev}

theorem SoundNext.onLine (h : s.dev.Sound) (hf : ∀ d : Dev, d.Sound → (f d).Sound) : SoundNext (s.onLine f) := by
  rintro t ⟨⟩
  exact hf _ h

theorem SoundNext.onDev (h : s.dev.Sound) (hf : ∀ d : Dev, d.Sound → (f d).Sound) : SoundNext (s.onDev f) :=
  .onLine h fun _ h => .ite h (hf _ h)

theorem SoundNext.onClock (h : s.dev.Sound) (hf : ∀ d : Dev, d.Sound → (f d).Sound) : SoundNext (s.onClock f) :=
  .onDev h fun _ h => .ite h (hf _ h)

/-- Every command keeps a sound device sound: the lemma about what it does to the device, for each in turn. -/
theorem soundNext_exec (c : Instr) (h : s.dev.Sound) : SoundNext (exec c s) := by
  cases c with
  | bundleIssue => exact .onDev h fun _ h => h.bundleIssue
  | tagCompletion => exact .onDev h fun _ h => h.tagCompletion
  | captureInput => exact .onDev h fun _ h => h.captureInput
  | interruptEntry => exact .onDev h fun _ h => h.interruptEntry
  | preciseExceptionEntry => exact .onDev h fun _ h => h.preciseEntry
  | impreciseExceptionEntry => exact .onDev h fun _ h => h.impreciseEntry
  | expiryTrapEntry => exact .onDev h fun _ h => h.expiryEntry
  | returnRestore => exact .onDev h fun _ h => h.returnRestore
  | isafeStarve => exact .onDev h fun _ h => h.isafeStarve
  | interruptSourceEdge => exact .onDev h fun _ h => h.sourceEdge
  | interruptPresentation => exact .onDev h fun _ h => h.presentIrq
  | swsetWrite => exact .onDev h fun _ h => h.swset
  | checkpointDue => exact .onDev h fun _ h => h.checkpointDue
  | checkpointK0 => exact .onDev h fun _ h => h.checkpointK0
  | checkpointCommit => exact .onDev h fun _ h => h.checkpointCommit
  | commitBufferRelease => exact .onDev h fun _ h => h.release
  | deltaApplied => exact .onDev h fun _ h => h.deltaApplied
  | commitEntryFailure => exact .onDev h fun _ h => h.entryFailure
  | segOverrun => exact .onDev h fun _ h => h.segOverrun
  | lockstepMismatch => exact .onDev h fun _ h => h.mismatch
  | spareFirstBundle => exact .onDev h fun _ h => h.spareFirst
  | pairFence => exact .onDev h fun _ h => h.fencePair
  | spareDesignation => exact .onDev h fun _ h => h.designate
  | cmptestStart => exact .onDev h fun _ h => h.cmptestStart
  | timebaseSample => exact .onClock h fun _ h => h.timebaseSample
  | holdResume => exact .onClock h fun _ h => h.holdResume
  | lineSampleDelivery => exact .onDev h fun _ h => h.lineSample
  | adj => exact .onDev h fun _ h => h.adjWrite
  | timebaseEnable => exact .onDev h fun _ h => h.timebaseWrite
  | ltnLoss => exact .onClock h fun _ h => h.sourceLost
  | mainsLock => exact .onClock h fun _ h => h.mainsLock
  | holdover => exact .onClock h fun _ h => h.mainsLost
  | comparatorCrossing => exact .onClock h fun _ h => h.comparator
  | gateRelease => exact .onClock h fun _ h => h.gateRelease
  | carrierValley => exact .onClock h fun _ h => h.carrierValley
  | carrierPeak => exact .onClock h fun _ h => h.carrierPeak
  | pwmGroupEnable => exact .onDev h fun _ h => h.enableGroup
  | pwmSync => exact .onDev h fun _ h => h.pwmSync
  | swForce => exact .onDev h fun _ h => h.swForce
  | tripclr => exact .onDev h fun _ h => h.tripClear
  | tripLatchSet => exact .onClock h fun _ h => h.tripLatch
  | pwmPinerr => exact .onClock h fun _ h => h.pinError
  | sdfFilterOutput n bits => exact .onClock (f := fun d => d.sdfBits n bits) h fun _ h => h.sdfBits
  | sdfFastTrip n bits => exact .onClock (f := fun d => d.sdfBits n bits) h fun _ h => h.sdfBits
  | sdfCkloss => exact .onClock h fun _ h => h.clockLost
  | sdfSnapshot => exact .onClock h fun _ h => h.snapshot
  | adcSequenceStart => exact .onClock h fun _ h => h.adcSequenceStart
  | adcStart => exact .onDev h fun _ h => h.adcStart
  | adcSequenceDone => exact .onClock h fun _ h => h.adcDone
  | resolverSample => exact .onClock h fun _ h => h.resolverSample
  | abzEdge => exact .onClock h fun _ h => h.abzEdge
  | zIndexEdge => exact .onClock h fun _ h => h.zIndex
  | abzSampleDelivery => exact .onClock h fun _ h => h.abzDelivery
  | ssiFrame => exact .onClock h fun _ h => h.ssiFrame
  | targetAccess => exact .onDev h fun _ h => h.targetAccess
  | correctedWriteBack => exact .onDev h fun _ h => h.writeBack
  | scrubRead => exact .onDev h fun _ h => h.scrub
  | bucketLeak => exact .onDev h fun _ h => h.leak
  | etctlWrite => exact .onDev h fun _ h => h.etctlWrite
  | arbitrationGrant => exact .onDev h fun _ h => h.grant
  | requestUrgent => exact .onDev h fun _ h => h.urgent
  | fabProt => exact .onDev h fun _ h => h.fabProt
  | lockBreak => exact .onDev h fun _ h => h.lockBreak
  | mpuDeny => exact .onDev h fun _ h => h.deny
  | mpuEnable => exact .onDev h fun _ h => h.enableWrite
  | mpuSync => exact .onDev h fun _ h => h.mpuSync
  | eventEmission => exact .onDev h fun _ h => h.emission
  | eventDelivery => exact .onDev h fun _ h => h.delivery
  | waitRequestArrival => exact .onDev h fun _ h => h.waitArrival
  | evtLoop => exact .onDev h fun _ h => h.dropLoop
  | cenWrite => exact .onDev h fun _ h => h.cenWrite
  | watchInputTake => exact .onDev h fun _ h => h.watchTake
  | faultProcessing => exact .onDev h fun _ h => h.processFault
  | islVote => exact .onDev h fun _ h => h.dropLane
  | laneResync => exact .onDev h fun _ h => h.resyncLanes
  | laneDisagreementReset => exact .onDev h fun _ h => h.lanesDiffer
  | hourlyFaultCounts => exact .onDev h fun _ h => h.hourlyCounts
  | logreadAck => exact .onDev h fun _ h => h.logAck
  | clrcnt => exact .onDev h fun _ h => h.clearFaultCounts
  | reactWrite => exact .onDev h fun _ h => h.reactWrite
  | keeperEnable => exact .onDev h fun _ h => h.keeperEnable
  | svcWrite => exact .onDev h fun _ h => h.service
  | checkIn => exact .onDev h fun _ h => h.checkIn
  | windowClose => exact .onDev h fun _ h => h.windowClose
  | kprExpiry => exact .onDev h fun _ h => h.keeperExpiry
  | hardTimerEnd => exact .onDev h fun _ h => h.hardTimerEnd
  | keeperClockTrip => exact .onDev h fun _ h => h.expireWith
  | evstatClear => exact .onDev h fun _ h => h.evstatClear
  | run => exact .onDev h fun _ h => h.issueCommand
  | safeStop => exact .onDev h fun _ h => h.issueCommand
  | standby => exact .onDev h fun _ h => h.issueCommand
  | standbyCompletion => exact .onDev h fun _ h => h.standbyComplete
  | enterConfig => exact .onDev h fun _ h => h.issueCommand
  | makerTest => exact .onDev h fun _ h => h.issueCommand
  | clearFog => exact .onDev h fun _ h => h.issueCommand
  | unfence => exact .onDev h fun _ h => h.issueCommand
  | reset => exact .onDev h fun _ h => h.issueCommand
  | unknownCommand => exact .onDev h fun _ h => .ite h h.issueCommand
  | deviceReset => exact .onDev h fun _ h => h.resetAndStart
  | bootConfirmExpiry => exact .onDev h fun _ h => h.confirmExpiry
  | wake => exact .onDev h fun _ h => h.wakeUp
  | powerOnReset => exact .onLine h fun _ h => h.powerOn
  | portLoss => exact .onLine h fun _ h => .ite h.setPort h.portLoss
  | lowin => exact .onLine h fun _ h => h.setPort
  | pfail => exact .onLine h fun _ h => h.pfailLine
  | rideEnd => exact .onDev h fun _ h => h.rideEnd
  | powerFailSealDone => exact .onDev h fun _ h => h.sealDone
  | inputReturn => exact .onDev h fun _ h => h.inputReturn
  | converterStop => exact .onLine h fun _ h => h.converterStop
  | temperatureSample => exact .onLine h fun _ h => h.temperature
  | supplyOverload => exact .onDev h fun _ h => h.supplyOverload
  | v5on => exact .onDev h fun _ h => h.withPower
  | v3on => exact .onDev h fun _ h => h.withPower
  | clockLoss => exact .onDev h fun _ h => h.clockLoss
  | sstop => exact .onLine h fun _ h => h.sstop
  | sstopDiscrep => exact .onDev h fun _ h => h.sstopDiscrep
  | switchForward => exact .onDev h fun _ h => h.switchFrame
  | ethLink => exact .onDev h fun _ h => h.linkChange
  | safetyMessageReceive => exact .onDev h fun _ h => h.messageReceive
  | rawFrameReceive => exact .onDev h fun _ h => h.rawReceive
  | txDescriptorSend => exact .onDev h fun _ h => h.txSend
  | txrGatedTrigger => exact .onDev h fun _ h => h.txGated
  | gptpSyncChange => exact .onDev h fun _ h => h.syncInterval
  | timePulse => exact .onDev h fun _ h => h.timePulse
  | epochWrap => exact .onDev h fun _ h => h.epochWrap
  | canFrameReceive => exact .onDev h fun _ h => h.canReceive
  | canFrameSend => exact .onDev h fun _ h => h.canSend
  | canBusoff => exact .onDev h fun _ h => h.goBusOff
  | busoffAutoRecovery => exact .onDev h fun _ h => h.busRecovered
  | recover => exact .onDev h fun _ h => h.startRecovery
  | canWakePattern => exact .onDev h fun _ h => h.canWake
  | buoyListStart => exact .onClock h fun _ h => h.listStart
  | buoyStart => exact .onDev h fun _ h => h.startLists
  | buoyTransactionSend => exact .onClock h fun _ h => h.buoySend
  | buoyReplyReceive => exact .onClock h fun _ h => h.buoyReceive
  | buoyDeadline => exact .onClock h fun _ h => h.buoyDeadlinePass
  | buoyWaitEnd => exact .onClock h fun _ h => h.buoyWaitEnd
  | buoyCycleComplete => exact .onClock h fun _ h => h.cycleComplete
  | buoyEnum => exact .onDev h fun _ h => h.enumerate
  | buoyBreak => exact .onClock h fun _ h => h.ringBreak
  | buoyHeal => exact .onClock h fun _ h => h.ringHeal
  | buoyMem => exact .onClock h fun _ h => h.memFailure
  | signedFragmentReceive => exact .onDev h fun _ h => h.fragmentReceive
  | reassemblyTimeout => exact .onDev h fun _ h => h.reassemblyTimeout
  | signedBlockCheck => exact .onDev h fun _ h => h.blockCheck
  | enrolMaker => exact .onDev h fun _ h => h.signedRow
  | provision => exact .onDev h fun _ h => h.signedRow
  | genkey => exact .onDev h fun _ h => h.signedRow
  | attkeyReady => exact .onDev h fun _ h => h.attReady
  | trustEntropy => exact .onDev h fun _ h => h.entropyFailed
  | deploy => exact .onDev h fun _ h => h.signedRow
  | returnToMaker => exact .onDev h fun _ h => h.signedRow
  | scrap => exact .onDev h fun _ h => h.signedRow
  | revokeRoot => exact .onDev h fun _ h => h.signedRow
  | setOproot => exact .onDev h fun _ h => h.signedRow
  | setKey => exact .onDev h fun _ h => h.signedRow
  | setPolicy => exact .onDev h fun _ h => h.signedRow
  | install => exact .onDev h fun _ h => h.signedRow
  | debugGrant => exact .onDev h fun _ h => h.signedRow
  | grantEnd => exact .onDev h fun _ h => h.grantEnd
  | attest => exact .onDev h fun _ h => h.signedRow
  | journalSeal => exact .onDev h fun _ h => h.sealOpen
  | sealPeriod => exact .onDev h fun _ h => h.sealPeriod
  | append => exact .onDev h fun _ h => h.appendWrite
  | chainVerify => exact .onDev h fun _ h => h.chainVerify
  | compaction => exact .onDev h fun _ h => h.compact
  | blockRemap => exact .onDev h fun _ h => h.blockRemap
  | erase => exact .onDev h fun _ h => h.slotctlWrite
  | program => exact .onDev h fun _ h => h.slotctlWrite
  | finish => exact .onDev h fun _ h => h.slotctlWrite
  | bistStart => exact .onDev h fun _ h => h.bistStart
  | bistConditionCheck => exact .onDev h fun _ h => h.bistCheck
  | bistEnd => exact .onDev h fun _ h => h.bistEnd
  | repair => exact .onDev h fun _ h => h.repair
  | watchPeriodEnd => exact .onDev h fun _ h => h.watchPeriodEnd
  | marchWord => exact .onDev h fun _ h => h.marchWord
  | offer => exact .onDev h fun _ h => h.offer
  | offerAbandon => exact .onDev h fun _ h => h.offerAbandon
  | spareSlice => exact .onDev h fun _ h => h.spareSlice
  | loopback => exact .onDev h fun _ h => h.loopback
  | voltageAdjust => exact .onDev h fun _ h => h.voltageAdjust
  | marginPlannerRun => exact .onDev h fun _ h => h.plannerRun
  | resetPulse => exact .onDev h fun _ h => h.resetPulse
  | lineError => exact .onDev h fun _ h => h.lineError
  | badframe => exact .onDev h fun _ h => h.badFrame
  | pendingReply => exact .onDev h fun _ h => h.pendingReply
  | attach => exact .onDev h fun _ h => h.attach
  | detach => exact .onDev h fun _ h => h.detach
  | sessionIdleTimeout => exact .onDev h fun _ h => h.sessionIdle
  | status => exact .onDev h fun _ h => h.debugStatus
  | result => exact .onDev h fun _ h => h.debugResult
  | signed => exact .onDev h fun _ h => h.signedBlock
  | halt => exact .onDev h fun _ h => h.debugHalt
  | resume => exact .onDev h fun _ h => h.debugResume
  | step => exact .onDev h fun _ h => h.debugStep
  | setcomp => exact .onDev h fun _ h => h.setComparator
  | rdcore => exact .onDev h fun _ h => h.readCore
  | wrcore => exact .onDev h fun _ h => h.writeCore
  | read => exact .onDev h fun _ h => h.debugRead
  | write => exact .onDev h fun _ h => h.debugWrite
  | debugUnknown => exact .onDev h fun _ h => h.unknownRequest
  | dmaChannelStart => exact .onDev h fun _ h => h.dmaStart
  | dmaTransferEnd => exact .onDev h fun _ h => h.dmaTransferEnd
  | registerWrite => exact .onDev h fun _ h => h.registerWrite
  | portSupplyReturn => exact .onLine h fun _ h => h.setPort
  | sstopReenergised => exact .onLine h fun _ h => h.setSstop
  | sdfClockReturn => exact .onClock h fun _ h => h.clockReturns
  | sdfTripEnd n bits => exact .onClock (f := fun d => d.sdfBits n bits) h fun _ h => h.sdfBits
  | slotOperationDone => exact .onDev h fun _ h => h.slotDone
  | compactionEraseDone => exact .onDev h fun _ h => h.eraseDone
  | learningEntryAgeout => exact .onDev h fun _ h => h.ageOut

theorem Dev.Sound.step (h : s.dev.Sound) (hs : Machine.step s = .next t) : t.dev.Sound := by
  unfold Machine.step at hs
  split at hs
  · cases hs
    exact h.tick
  · next c rest _ => exact soundNext_exec (s := { s with pending := rest }) c h t hs

end

/-- Settles O56: `Dev.Sound` is kept by every command and by a tick. -/
theorem stepKeepsRegisters : Obligations.StepKeepsRegisters := by
  intro s t hio hpairs hs
  have h : t.dev.Sound := Dev.Sound.step ⟨hio, hpairs⟩ hs
  exact ⟨h.regs, h.pairs⟩

end Sys2Proof.Machine
end

section
/-! PROOFS. RegisterWrites: what a write leaves in each field of a register (R14), and in which blocks a write of a
register is no more than that (`Obligations.RegisterWrites`). -/

namespace Sys2Proof.Machine

/-! ### Words put together from fields (R12) -/

/-- Fields that lie within a word and share no bit. -/
def fieldsDisjoint (fs : List FieldRow) : Bool :=
  fs.all (fun f => decide (f.lo + f.w ≤ 32)) &&
    decide (fs.Pairwise fun f g => f.lo + f.w ≤ g.lo ∨ g.lo + g.w ≤ f.lo)

theorem fieldsDisjoint_iff (fs : List FieldRow) :
    fieldsDisjoint fs = true ↔
      (∀ f ∈ fs, f.lo + f.w ≤ 32) ∧ fs.Pairwise fun f g => f.lo + f.w ≤ g.lo ∨ g.lo + g.w ≤ f.lo := by
  simp [fieldsDisjoint]

theorem wordOf_cons_testBit (v : FieldRow → Nat) (f : FieldRow) (t : List FieldRow) (i : Nat) :
    (wordOf v (f :: t)).testBit i =
      (decide (f.lo ≤ i ∧ i < f.lo + f.w) && (v f).testBit (i - f.lo) || (wordOf v t).testBit i) := by
  by_cases hl : f.lo ≤ i
  · have hw : i - f.lo < f.w ↔ i < f.lo + f.w := by omega
    simp [wordOf, Nat.testBit_shiftLeft, Nat.testBit_mod_two_pow, hl, hw]
  · simp [wordOf, Nat.testBit_shiftLeft, hl]

/-- A bit that no field covers is zero. -/
theorem wordOf_testBit_uncovered (v : FieldRow → Nat) {i : Nat} :
    ∀ {fs : List FieldRow}, (∀ f ∈ fs, ¬ (f.lo ≤ i ∧ i < f.lo + f.w)) → (wordOf v fs).testBit i = false
  | [], _ => by simp [wordOf]
  | f :: t, h => by
    obtain ⟨hf, ht⟩ := List.forall_mem_cons.1 h
    rw [wordOf_cons_testBit, wordOf_testBit_uncovered v ht]
    simp [hf]

/-- A bit of a field that shares none with the others is that bit of the field's value. -/
theorem wordOf_testBit_field (v : FieldRow → Nat) {f : FieldRow} {i : Nat} (hi : i < f.w) :
    ∀ {fs : List FieldRow}, (fs.Pairwise fun f g => f.lo + f.w ≤ g.lo ∨ g.lo + g.w ≤ f.lo) → f ∈ fs →
      (wordOf v fs).testBit (f.lo + i) = (v f).testBit i
  | g :: t, hp, hf => by
    obtain ⟨hg, ht⟩ := List.pairwise_cons.1 hp
    rw [wordOf_cons_testBit]
    rcases List.mem_cons.1 hf with rfl | hf
    · have hrest : (wordOf v t).testBit (f.lo + i) = false :=
        wordOf_testBit_uncovered v fun x hx => by have := hg x hx; omega
      simp [hrest, hi]
    · have hout : ¬ (g.lo ≤ f.lo + i ∧ f.lo + i < g.lo + g.w) := by have := hg f hf; omega
      simp [hout, wordOf_testBit_field v hi ht hf]

/-- A field of the word put together from disjoint fields reads as its value, cut to its width. -/
theorem fieldOf_wordOf (v : FieldRow → Nat) {fs : List FieldRow} {f : FieldRow} (hd : fieldsDisjoint fs = true)
    (hf : f ∈ fs) : fieldOf (BitVec.ofNat 32 (wordOf v fs)) f.lo f.w = v f % 2 ^ f.w := by
  obtain ⟨hfit, hapart⟩ := (fieldsDisjoint_iff fs).1 hd
  have hw := hfit f hf
  apply Nat.eq_of_testBit_eq
  intro i
  rw [fieldOf_testBit, Nat.testBit_mod_two_pow, BitVec.getLsbD_ofNat]
  by_cases hi : i < f.w
  · have h32 : f.lo + i < 32 := by omega
    simp [hi, h32, wordOf_testBit_field v hi hapart hf]
  · simp [hi]

/-! ### The access codes (R14) -/

/-- A field after a write of `x` to its register. -/
theorem fieldOf_regWritten {fs : List FieldRow} {f : FieldRow} (locked : Bool) (old x : Word)
    (hd : fieldsDisjoint fs = true) (hf : f ∈ fs) :
    fieldOf (regWritten fs locked old x) f.lo f.w =
      f.written locked (fieldOf old f.lo f.w) (fieldOf x f.lo f.w) % 2 ^ f.w :=
  fieldOf_wordOf _ hd hf

theorem notW_testBit (w x i : Nat) : (notW w x).testBit i = (decide (i < w) && !(x % 2 ^ w).testBit i) := by
  have e : notW w x = 2 ^ w - (x % 2 ^ w + 1) := by unfold notW; omega
  rw [e, Nat.testBit_two_pow_sub_succ (Nat.mod_lt _ (Nat.two_pow_pos w))]

/-- The complement is the one value that adds up with `old` to all ones. -/
theorem eq_notW_iff {w old x : Nat} (ho : old < 2 ^ w) : x = notW w old ↔ x + old = 2 ^ w - 1 := by
  unfold notW
  rw [Nat.mod_eq_of_lt ho]
  omega

variable {f : FieldRow} {locked : Bool} {old x : Nat}

theorem written_stores (h : f.acc = .rw ∨ (f.acc = .lck ∧ ¬ locked = true)) :
    f.written locked old x = f.norm.apply old x := by
  rcases h with h | ⟨h, hl⟩ <;> simp [FieldRow.written, *]

theorem written_keeps (h : f.acc = .ro ∨ f.acc = .wo ∨ f.acc = .rc ∨ (f.acc = .lck ∧ locked = true)) :
    f.written locked old x = old := by
  rcases h with h | h | h | ⟨h, hl⟩ <;> simp [FieldRow.written, *]

theorem written_w1c_testBit (h : f.acc = .w1c) {i : Nat} (hi : i < f.w) :
    (f.written locked old x % 2 ^ f.w).testBit i = (old.testBit i && !x.testBit i) := by
  simp [FieldRow.written, h, Nat.testBit_mod_two_pow, notW_testBit, hi]

theorem written_w1s_testBit (h : f.acc = .w1s) {i : Nat} (hi : i < f.w) :
    (f.written locked old x % 2 ^ f.w).testBit i = (old.testBit i || x.testBit i) := by
  simp [FieldRow.written, h, Nat.testBit_mod_two_pow, hi]

theorem written_tgl (h : f.acc = .tgl) (ho : old < 2 ^ f.w) :
    f.written locked old x = if x + old = 2 ^ f.w - 1 then x else old := by
  simp [FieldRow.written, h, eq_notW_iff ho]

/-! ### Registers of a block -/

/-- A register found in a block's table is listed there. -/
theorem exists_mem_of_rowAt {r : Reg} {ix : List Nat} {off : Nat} :
    ∀ {rows : List (Nat × List (Nat × Nat) × Reg)}, rowAt rows off = some (r, ix) → ∃ row ∈ rows, row.2.2 = r
  | (o, dims, q) :: t, h => by
    have rest (h : rowAt t off = some (r, ix)) : ∃ row ∈ (o, dims, q) :: t, row.2.2 = r :=
      let ⟨row, hrow, e⟩ := exists_mem_of_rowAt h
      ⟨row, List.mem_cons_of_mem _ hrow, e⟩
    unfold rowAt at h
    split at h
    · split at h
      · cases h
        exact ⟨_, List.mem_cons_self, rfl⟩
      · exact rest h
    · exact rest h

/-- The blocks whose registers, ETCTL apart, a write changes by the access codes alone: FABRIC, MEMCTL, TRUST, AGEING
and DEBUG (R28). -/
abbrev plainBlocks : List Nat := [3, 5, 0x11, 0x14, 0x15]

theorem plainBlocks_fieldsDisjoint :
    ∀ k ∈ plainBlocks, ∀ b ∈ ioBlock k, ∀ row ∈ b.rows, fieldsDisjoint row.2.2.fields = true := by
  decide

variable {d : Dev} {a : Nat} {r : Reg} {ix : List Nat}

theorem regAt_fieldsDisjoint (hk : a / 0x10000 ∈ plainBlocks) (hr : regAt a = some (r, ix)) :
    fieldsDisjoint r.fields = true := by
  unfold regAt at hr
  split at hr
  · next b hb =>
    obtain ⟨row, hrow, rfl⟩ := exists_mem_of_rowAt hr
    exact plainBlocks_fieldsDisjoint _ hk b hb row hrow
  · cases hr

/-! ### A write of a register -/

theorem storeReg_of_regAt (hr : regAt a = some (r, ix)) (v : Word) :
    d.storeReg a v = d.setWord a (regWritten r.fields (ioLocked d.io a) (d.word a) v) := by
  unfold Dev.storeReg
  rw [hr]
  rfl

theorem blockWrite_plain (hk : a / 0x10000 ∈ plainBlocks) (ha : a ≠ 0x050050) (m : Nat) (user : Bool) (v : Word) :
    d.blockWrite m user a v = d.storeReg a v := by
  unfold Dev.blockWrite
  simp only [List.mem_cons, List.not_mem_nil, or_false] at hk
  rcases hk with hk | hk | hk | hk | hk <;> simp only [hk]
  exact if_neg (by omega)

/-- The access that REGISTER_WRITE asks the master's MPU for. -/
abbrev registerWriteAccess (m : Nat) (user : Bool) (a : Nat) : Access :=
  { io := true, addr := a, size := 4, rd := false, wr := true, user := user && decide (m < 16) }

theorem registerWrite_denied {m : Nat} {user : Bool} {why : Bool × Bool} (v : Word)
    (h : d.mpuCheck m (registerWriteAccess m user a) = some why) :
    registerWrite m user a v d = d.denied m (registerWriteAccess m user a) why none := by
  simp [registerWrite, h]

theorem registerWrite_unmapped {m : Nat} {user : Bool} (v : Word)
    (h : d.mpuCheck m (registerWriteAccess m user a) = none) (hr : regAt a = none) : registerWrite m user a v d = d := by
  simp [registerWrite, h, Dev.ioWrite, hr]

/-- An allowed write of a register of these blocks sets its word, each field as its access code says. -/
theorem registerWrite_plain {m : Nat} {user : Bool} (v : Word) (h : d.mpuCheck m (registerWriteAccess m user a) = none)
    (hr : regAt a = some (r, ix)) (hk : a / 0x10000 ∈ plainBlocks) (ha : a ≠ 0x050050) :
    registerWrite m user a v d = d.setWord a (regWritten r.fields (ioLocked d.io a) (d.word a) v) := by
  simp only [registerWrite, h, Dev.ioWrite, hr, Option.isSome_some, if_true]
  rw [blockWrite_plain hk ha, storeReg_of_regAt hr]

/-- Settles O51: an allowed write sets the one word, and of its fields, which share no bit, each takes what its access
code gives. -/
theorem registerWrites : Obligations.RegisterWrites := by
  intro s m user a v d acc
  refine ⟨fun why hm => ?denied, fun hm hr => ?unmapped, fun r ix hm hr hk ha => ?plain⟩
  case denied =>
    refine completes_onDev rfl fun _ => ?_
    rw [registerWrite_denied v hm]
    exact ⟨rfl, rfl, List.length_append⟩
  case unmapped => exact completes_onDev rfl fun _ => registerWrite_unmapped v hm hr
  case plain =>
    refine completes_onDev rfl fun _ => ?_
    rw [registerWrite_plain v hm hr hk ha]
    refine ⟨rfl, fun b hb => word_setWord_ne d _ (by simpa using hb), fun f hf => ?_⟩
    rw [word_setWord_same, fieldOf_regWritten _ _ _ (regAt_fieldsDisjoint hk hr) hf]
    have ho := fieldOf_lt (d.word a) f.lo f.w
    refine ⟨fun h => ?_, fun h => ?_, fun h i hi => written_w1c_testBit h hi, fun h i hi => written_w1s_testBit h hi,
      fun h => ?_⟩
    · rw [written_stores h]
    · rw [written_keeps h, Nat.mod_eq_of_lt ho]
    · have hx := fieldOf_lt v f.lo f.w
      rw [written_tgl h ho, Nat.mod_eq_of_lt]
      split
      · exact hx
      · exact ho

end Sys2Proof.Machine
end

section
/-! PROOFS. ResetState: what the device holds right after power-on reset (`Obligations.ResetState`). -/

namespace Sys2Proof.Machine

theorem canonical_reset : State.reset.Canonical := ⟨rfl, by decide, by decide, rfl⟩

theorem backInBoot_reset : State.reset.dev.backInBoot = true := by decide

theorem forced_reset : State.reset.dev.forced = true := by decide

theorem pairState_reset : ∀ p < 16, State.reset.dev.pairState p = stOff := by decide

/-- No copy of a word's valid bit is set after power-on reset, so every word reads as zero (R321, R322). -/
theorem ramRead_reset (key index : Nat) :
    ramRead State.reset.dev.mem.ram key index = { value := 0, kind := .clean, syn := 0, split := false } := by
  have hinvalid : State.reset.dev.mem.ram = ramInvalidate State.reset.dev.mem.ram := rfl
  rw [hinvalid, ramRead_ramInvalidate]

theorem readable_reset : State.reset.dev.readable := by
  intro inst _ w _
  rw [ramRead_reset]
  rfl

/-- Settles O55: the registers at their reset values say the states, and no word is valid. -/
theorem resetState : Obligations.ResetState := by
  refine ⟨canonical_reset, rfl, backInBoot_reset, forced_reset, pairState_reset, ?lanes, ?keeper, readable_reset, ?words⟩
  case lanes => decide
  case keeper => decide
  case words =>
    intro inst _ w _
    rw [ramRead_reset]

end Sys2Proof.Machine
end

section
/-! PROOFS. TimePasses: a tick of the clock counts one lt of the device and, where Lantern runs, one of Lantern
(`Obligations.TimePasses`). The tick itself counts both; everything else that it carries out leaves both counts where
they are, even a debug write that waited, to whatever register, and a device reset. `Dev.AtTime.f` says so of the
function `f`, in the order of the model's files. -/

namespace Sys2Proof.Machine

/-! ### Devices at a time -/

/-- The device has counted `T` lt since power-on (R20) and its Lantern `L` (R253). -/
structure Dev.AtTime (d : Dev) (T L : Nat) : Prop where
  ticks : d.ticks = T
  lt : d.lantern.lt = L

section
variable {d e : Dev} {T L : Nat}

theorem Dev.AtTime.of_butMode (h : d.AtTime T L) (he : e.butMode = d.butMode) : e.AtTime T L :=
  ⟨(ticks_of_butMode he).trans h.ticks, (congrArg LanternSt.lt (lantern_of_butMode he)).trans h.lt⟩

theorem Dev.AtTime.of_butJournal (h : d.AtTime T L) (he : e.butJournal = d.butJournal) : e.AtTime T L :=
  h.of_butMode (butMode_of_butJournal he)

theorem Dev.AtTime.ite {c : Prop} {_ : Decidable c} (hd : d.AtTime T L) (he : e.AtTime T L) :
    (if c then d else e).AtTime T L := by
  split
  · exact hd
  · exact he

theorem Dev.AtTime.iteSnd {α : Type} {c : Prop} {_ : Decidable c} {x y : α × Dev} (hx : x.2.AtTime T L)
    (hy : y.2.AtTime T L) : (if c then x else y).2.AtTime T L := by
  split
  · exact hx
  · exact hy

theorem Dev.AtTime.iteThd {α β : Type} {c : Prop} {_ : Decidable c} {x y : α × β × Dev} (hx : x.2.2.AtTime T L)
    (hy : y.2.2.AtTime T L) : (if c then x else y).2.2.AtTime T L := by
  split
  · exact hx
  · exact hy

theorem Dev.AtTime.of_snd {α : Type} {x : α × Dev} {a : α} (hx : x = (a, e)) (h : x.2.AtTime T L) : e.AtTime T L := by
  subst hx
  exact h

theorem Dev.AtTime.of_thd {α β : Type} {x : α × β × Dev} {a : α} {b : β} (hx : x = (a, b, e)) (h : x.2.2.AtTime T L) :
    e.AtTime T L := by
  subst hx
  exact h

theorem Dev.AtTime.foldl {α : Type} {f : Dev → α → Dev} {xs : List α} (h : d.AtTime T L)
    (hf : ∀ e a, e.AtTime T L → (f e a).AtTime T L) : (xs.foldl f d).AtTime T L :=
  foldl_keeps (Dev.AtTime · T L) f hf xs d h

theorem Dev.AtTime.storeReg {a w} (h : d.AtTime T L) : (d.storeReg a w).AtTime T L := by
  rcases storeReg_cases d a w with e | ⟨v, e⟩ <;> rw [e] <;> exact ⟨h.ticks, h.lt⟩

/-! ### Updates of other parts -/

theorem Dev.AtTime.setWord {a w} (h : d.AtTime T L) : (d.setWord a w).AtTime T L := ⟨h.ticks, h.lt⟩
theorem Dev.AtTime.setFld {f v} (h : d.AtTime T L) : (d.setFld f v).AtTime T L := ⟨h.ticks, h.lt⟩
theorem Dev.AtTime.setPair {p x} (h : d.AtTime T L) : (d.setPair p x).AtTime T L := ⟨h.ticks, h.lt⟩
theorem Dev.AtTime.flag {f} (h : d.AtTime T L) : (d.flag f).AtTime T L := ⟨h.ticks, h.lt⟩
theorem Dev.AtTime.setBitOf {f i} (h : d.AtTime T L) : (d.setBitOf f i).AtTime T L := ⟨h.ticks, h.lt⟩
theorem Dev.AtTime.count {f} (h : d.AtTime T L) : (d.count f).AtTime T L := ⟨h.ticks, h.lt⟩
theorem Dev.AtTime.setPair64 {lo hi v} (h : d.AtTime T L) : (d.setPair64 lo hi v).AtTime T L := ⟨h.ticks, h.lt⟩
theorem Dev.AtTime.present {input detail} (h : d.AtTime T L) : (d.present input detail).AtTime T L := ⟨h.ticks, h.lt⟩
theorem Dev.AtTime.setLatch {c v} (h : d.AtTime T L) : (d.setLatch c v).AtTime T L := ⟨h.ticks, h.lt⟩
theorem Dev.AtTime.setPairState {p s} (h : d.AtTime T L) : (d.setPairState p s).AtTime T L := ⟨h.ticks, h.lt⟩
theorem Dev.AtTime.capture {p c} (h : d.AtTime T L) : (d.capture p c).AtTime T L := ⟨h.ticks, h.lt⟩
theorem Dev.AtTime.setGroup {g x} (h : d.AtTime T L) : (d.setGroup g x).AtTime T L := ⟨h.ticks, h.lt⟩
theorem Dev.AtTime.forceGroup {g} (h : d.AtTime T L) : (d.forceGroup g).AtTime T L := ⟨h.ticks, h.lt⟩
theorem Dev.AtTime.cmdStat {code status} (h : d.AtTime T L) : (d.cmdStat code status).AtTime T L := ⟨h.ticks, h.lt⟩

theorem Dev.AtTime.withSpareGone {x} (h : d.AtTime T L) : Dev.AtTime { d with spareGone := x } T L := ⟨h.ticks, h.lt⟩
theorem Dev.AtTime.withFab {x} (h : d.AtTime T L) : Dev.AtTime { d with fab := x } T L := ⟨h.ticks, h.lt⟩
theorem Dev.AtTime.withMpu {x} (h : d.AtTime T L) : Dev.AtTime { d with mpu := x } T L := ⟨h.ticks, h.lt⟩
theorem Dev.AtTime.withMem {x} (h : d.AtTime T L) : Dev.AtTime { d with mem := x } T L := ⟨h.ticks, h.lt⟩
theorem Dev.AtTime.withKeeper {x} (h : d.AtTime T L) : Dev.AtTime { d with keeper := x } T L := ⟨h.ticks, h.lt⟩
theorem Dev.AtTime.withPower {x} (h : d.AtTime T L) : Dev.AtTime { d with power := x } T L := ⟨h.ticks, h.lt⟩
theorem Dev.AtTime.withNvs {x} (h : d.AtTime T L) : Dev.AtTime { d with nvs := x } T L := ⟨h.ticks, h.lt⟩
theorem Dev.AtTime.withPersist {x} (h : d.AtTime T L) : Dev.AtTime { d with persist := x } T L := ⟨h.ticks, h.lt⟩
theorem Dev.AtTime.withStart {x} (h : d.AtTime T L) : Dev.AtTime { d with start := x } T L := ⟨h.ticks, h.lt⟩
theorem Dev.AtTime.withEth {x} (h : d.AtTime T L) : Dev.AtTime { d with eth := x } T L := ⟨h.ticks, h.lt⟩
theorem Dev.AtTime.withTrust {x} (h : d.AtTime T L) : Dev.AtTime { d with trust := x } T L := ⟨h.ticks, h.lt⟩
theorem Dev.AtTime.withTest {x} (h : d.AtTime T L) : Dev.AtTime { d with test := x } T L := ⟨h.ticks, h.lt⟩
theorem Dev.AtTime.withAge {x} (h : d.AtTime T L) : Dev.AtTime { d with age := x } T L := ⟨h.ticks, h.lt⟩
theorem Dev.AtTime.withTdr {x} (h : d.AtTime T L) : Dev.AtTime { d with tdr := x } T L := ⟨h.ticks, h.lt⟩

/-! ### The journal, the force line and the modes -/

theorem Dev.AtTime.sealPage {bad} (h : d.AtTime T L) : (d.sealPage bad).AtTime T L :=
  h.of_butJournal (sealPage_frame d bad).1

theorem Dev.AtTime.journal {type args body} (h : d.AtTime T L) : (d.journal type args body).AtTime T L :=
  h.of_butJournal (journal_frame d type args body).1

theorem Dev.AtTime.assertForce (h : d.AtTime T L) : d.assertForce.AtTime T L := h.of_butMode (assertForce_frame d).1

theorem Dev.AtTime.freshWindow (h : d.AtTime T L) : d.freshWindow.AtTime T L := h.of_butMode (freshWindow_frame d).1

theorem Dev.AtTime.keeperMode {m} (h : d.AtTime T L) : (d.keeperMode m).AtTime T L :=
  h.of_butMode (keeperMode_frame d m).1

theorem Dev.AtTime.enterMode {m trig} (h : d.AtTime T L) : (d.enterMode m trig).AtTime T L :=
  h.of_butMode (enterMode_frame d m trig).1

theorem Dev.AtTime.refuse {code prot} (h : d.AtTime T L) : (d.refuse code prot).AtTime T L :=
  h.of_butJournal (refuse_frame d code prot).1

/-! ### Intc -/

theorem Dev.AtTime.setIntc {n x} (h : d.AtTime T L) : (d.setIntc n x).AtTime T L := ⟨h.ticks, h.lt⟩

theorem Dev.AtTime.edge {n s} (h : d.AtTime T L) : (d.edge n s).AtTime T L := .ite h.setBitOf h.setIntc

theorem Dev.AtTime.clearEdge {n s} (h : d.AtTime T L) : (d.clearEdge n s).AtTime T L := ⟨h.ticks, h.lt⟩

theorem Dev.AtTime.swset {n set} (h : d.AtTime T L) : (Machine.swset n set d).AtTime T L :=
  .foldl h fun _ _ h => h.edge

/-! ### Events -/

theorem Dev.AtTime.cenWrite {c hi v} (h : d.AtTime T L) : (Machine.cenWrite c hi v d).AtTime T L :=
  .ite h (.ite h.flag h.setFld)

theorem Dev.AtTime.watchTake {c} (h : d.AtTime T L) : (Machine.watchTake c d).AtTime T L := .ite h.setLatch h

/-! ### Memory -/

theorem Dev.AtTime.bucketUp {inst} (h : d.AtTime T L) : (d.bucketUp inst).AtTime T L :=
  .ite h.setFld (.ite h.setFld h.setFld.setBitOf.flag.present)

theorem Dev.AtTime.correctable {inst} (h : d.AtTime T L) : (d.correctable inst).AtTime T L :=
  .ite h.count h.count.bucketUp

theorem Dev.AtTime.recordUe {master inst addr scrub} (h : d.AtTime T L) :
    (d.recordUe master inst addr scrub).AtTime T L :=
  .ite h h.flag.setFld.setFld.setFld.setFld

theorem Dev.AtTime.uncorrectable {master inst addr scrub} (h : d.AtTime T L) :
    (d.uncorrectable master inst addr scrub).AtTime T L := by
  unfold Dev.uncorrectable
  extract_lets d1 d2
  have h2 : d2.AtTime T L := .ite h.count.flag h.count.flag
  exact .ite h2.recordUe h2.recordUe.present

theorem Dev.AtTime.queueWriteBack {inst word} (h : d.AtTime T L) : (d.queueWriteBack inst word).AtTime T L :=
  .ite h h.withMem

theorem Dev.AtTime.noteRead {master inst word addr r scrub} (h : d.AtTime T L) :
    (d.noteRead master inst word addr r scrub).AtTime T L := by
  unfold Dev.noteRead
  extract_lets d1
  have h1 : d1.AtTime T L := .ite h.flag.setFld.setFld.setFld h
  exact .ite (.uncorrectable (.ite h1.correctable h1)) (.ite (.ite h1.correctable h1.correctable.queueWriteBack) h1)

theorem Dev.AtTime.bankRead {master inst word} (h : d.AtTime T L) : (d.bankRead master inst word).2.2.AtTime T L :=
  h.withMem.noteRead

theorem Dev.AtTime.bankWrite {inst word v} (h : d.AtTime T L) : (d.bankWrite inst word v).AtTime T L :=
  ⟨h.ticks, h.lt⟩

theorem Dev.AtTime.bankStore {master inst word al data mask} (h : d.AtTime T L) :
    (d.bankStore master inst word al data mask).2.AtTime T L :=
  .iteSnd h.bankWrite (.iteSnd h.bankRead h.bankRead.bankWrite)

theorem Dev.AtTime.romRead {master word} (h : d.AtTime T L) : (d.romRead master word).2.2.AtTime T L :=
  .iteThd h (.ite h.uncorrectable h.correctable)

theorem Dev.AtTime.targetRead {master t} (h : d.AtTime T L) : (d.targetRead master t).2.2.AtTime T L := by
  unfold Dev.targetRead
  split
  · exact .iteThd h.bankRead h.bankRead
  · exact .iteThd h.romRead h.romRead
  · exact .iteThd h h
  · exact h
  · exact h

theorem Dev.AtTime.targetWrite {master t data mask} (h : d.AtTime T L) :
    (d.targetWrite master t data mask).2.AtTime T L := by
  unfold Dev.targetWrite
  split
  · exact h.bankStore
  · exact h

theorem Dev.AtTime.etctlWrite {w} (h : d.AtTime T L) : (Machine.etctlWrite w d).AtTime T L := h.setFld.setFld

/-! ### Mpu -/

theorem Dev.AtTime.denied {m a why req} (h : d.AtTime T L) : (d.denied m a why req).AtTime T L := ⟨h.ticks, h.lt⟩

theorem Dev.AtTime.enableWrite {by_ m w} (h : d.AtTime T L) : (Machine.enableWrite by_ m w d).AtTime T L := by
  unfold Machine.enableWrite
  extract_lets locked d1 rs bad ov
  clear_value bad ov
  have h1 : d1.AtTime T L := .ite h h.setFld
  split
  · exact h1
  · split
    · exact h1.withMpu.setFld
    · exact .setFld (.setFld (.setFld (.ite (.flag (.ite h1.flag h1)) (.ite h1.flag h1))))

theorem Dev.AtTime.syncDone {x} (h : d.AtTime T L) : (d.syncDone x).AtTime T L := ⟨h.ticks, h.lt⟩

/-! ### Fabric -/

theorem Dev.AtTime.leaveQueue {pt r} (h : d.AtTime T L) : (d.leaveQueue pt r).AtTime T L :=
  (Dev.AtTime.ite h.setFld h).withFab

/-! ### Engine -/

theorem Dev.AtTime.waits {w} (h : d.AtTime T L) : (d.waits w).AtTime T L := .ite h h.withFab

theorem Dev.AtTime.onHold {h'} (h : d.AtTime T L) : (d.onHold h').AtTime T L := by
  unfold Dev.onHold
  split
  · exact h.waits
  · exact h

theorem Dev.AtTime.served {m a} (h : d.AtTime T L) : (d.served m a).AtTime T L :=
  (Dev.AtTime.foldl h fun _ _ h => h.leaveQueue).withFab

theorem Dev.AtTime.takeFailure {m a} (h : d.AtTime T L) : (d.takeFailure m a).AtTime T L := ⟨h.ticks, h.lt⟩

theorem Dev.AtTime.engineRead {m addr n} (h : d.AtTime T L) : (d.engineRead m addr n).2.2.AtTime T L := h.targetRead

theorem Dev.AtTime.engineWrite {m addr n v} (h : d.AtTime T L) : (d.engineWrite m addr n v).2.AtTime T L :=
  h.targetWrite

theorem Dev.AtTime.readPieces {m} : ∀ {l : List (Nat × Nat)} {d : Dev}, d.AtTime T L →
    (d.readPieces m l).2.2.AtTime T L
  | [], _, h => h
  | (a, n) :: t, d, h => by
    rw [Dev.readPieces]
    split
    next v code d1 hr =>
      have h1 : d1.AtTime T L := .of_thd hr h.engineRead
      exact .iteThd h1 h1.readPieces

theorem Dev.AtTime.writePieces {m} : ∀ {l : List (Nat × Nat)} {d : Dev} {bytes}, d.AtTime T L →
    (d.writePieces m bytes l).2.AtTime T L
  | [], _, _, h => h
  | _ :: _, _, _, h => .iteSnd h.engineWrite h.engineWrite.writePieces

theorem Dev.AtTime.busRead {m a n} (h : d.AtTime T L) : (d.busRead m a n).2.2.AtTime T L := by
  unfold Dev.busRead
  split
  · exact h
  · split
    · exact h.denied
    · exact h.takeFailure
    · exact h
    · exact .iteThd h.served.readPieces h.served.readPieces

theorem Dev.AtTime.busWrite {m a bytes} (h : d.AtTime T L) : (d.busWrite m a bytes).2.AtTime T L := by
  unfold Dev.busWrite
  extract_lets
  split
  · exact h
  · split
    · exact h.denied
    · exact h.takeFailure
    · exact h
    · exact .iteSnd h.served.writePieces h.served.writePieces

theorem Dev.AtTime.readBursts {m} : ∀ {l : List (Nat × Nat)} {d : Dev}, d.AtTime T L →
    (d.readBursts m l).2.2.AtTime T L
  | [], _, h => h
  | (a, n) :: t, d, h => by
    rw [Dev.readBursts]
    split
    next b e d1 hb =>
      have h1 : d1.AtTime T L := .of_thd hb h.busRead
      split
      · exact h1.readBursts
      · exact h1

theorem Dev.AtTime.writeBursts {m} : ∀ {l : List (Nat × Nat)} {d : Dev} {bytes}, d.AtTime T L →
    (d.writeBursts m bytes l).2.AtTime T L
  | [], _, _, h => h
  | (a, n) :: t, d, bytes, h => by
    rw [Dev.writeBursts]
    split
    next e d1 hb =>
      have h1 : d1.AtTime T L := .of_snd hb h.busWrite
      split
      · exact h1.writeBursts
      · exact h1

theorem Dev.AtTime.engineLoad {m a n} (h : d.AtTime T L) : (d.engineLoad m a n).2.2.AtTime T L := by
  unfold Dev.engineLoad
  split
  · exact h
  · exact h.readBursts

theorem Dev.AtTime.engineStore {m a bytes} (h : d.AtTime T L) : (d.engineStore m a bytes).2.AtTime T L := by
  unfold Dev.engineStore
  split
  · exact h
  · exact h.writeBursts

/-! ### Keeper -/

theorem Dev.AtTime.expireWith {cause} (h : d.AtTime T L) : (d.expireWith cause).AtTime T L := .ite h h.withKeeper

theorem Dev.AtTime.keeperFault {k} (h : d.AtTime T L) : (d.keeperFault k).AtTime T L := .ite h.expireWith h.present

theorem Dev.AtTime.keeperEnable {w} (h : d.AtTime T L) : (Machine.keeperEnable w d).AtTime T L :=
  .ite h h.setFld.setFld.setFld.setFld.setFld.setFld.withKeeper.setFld.keeperMode

theorem Dev.AtTime.judgeService {m v} (h : d.AtTime T L) : (Machine.judgeService m v d).AtTime T L :=
  .ite h (.ite (.ite h h.flag) (.ite (.ite h h.flag.keeperFault)
    (.ite h.setFld (.ite h.setFld.flag.keeperFault (.ite h.setFld
    (.ite h.setFld.flag.keeperFault h.setFld.flag.setPair64))))))

theorem Dev.AtTime.windowClose (h : d.AtTime T L) : (Machine.windowClose d).AtTime T L := by
  unfold Machine.windowClose
  extract_lets len d1
  have h1 : d1.AtTime T L := .ite h h.expireWith
  split
  · split
    extract_lets d2 d3
    have h3 : d3.AtTime T L := .ite h1.setPair64.setPair64
      (.ite h1.setPair64.setPair64.flag.expireWith h1.setPair64.setPair64.flag.present)
    exact .ite h3 h3.freshWindow.withKeeper
  · exact h

theorem Dev.AtTime.closeDue (h : d.AtTime T L) : d.closeDue.AtTime T L := h.windowClose.windowClose

theorem Dev.AtTime.service {m v} (h : d.AtTime T L) : (Machine.service m v d).AtTime T L := h.closeDue.judgeService

theorem Dev.AtTime.evstatClear (h : d.AtTime T L) : (Machine.evstatClear d).AtTime T L :=
  .foldl h.setFld fun _ _ h => h.setFld

/-! ### Recovery -/

theorem Dev.AtTime.designate {p w} (h : d.AtTime T L) : (Machine.designate p w d).AtTime T L :=
  .ite h (.ite h.flag (Dev.AtTime.ite h.setFld.setFld.flag h.setFld.setFld).withSpareGone.capture)

theorem Dev.AtTime.cmptestStart {p} (h : d.AtTime T L) : (Machine.cmptestStart p d).AtTime T L := ⟨h.ticks, h.lt⟩

/-! ### Reset -/

theorem Dev.AtTime.fencePending {p} (h : d.AtTime T L) : (d.fencePending p).AtTime T L :=
  .ite h.setPairState.withPersist.journal h

theorem Dev.AtTime.resetRegisters (h : d.AtTime T L) : d.resetRegisters.AtTime T L := by
  unfold Dev.resetRegisters
  extract_lets old d1
  have h1 : d1.AtTime T L := ⟨h.ticks, h.lt⟩
  exact .setFld (.ite h1.setFld h1)

/-- A device reset clears Lantern and keeps its time. -/
theorem Dev.AtTime.deviceReset {trig} (h : d.AtTime T L) : (d.deviceReset trig).AtTime T L := by
  unfold Dev.deviceReset
  extract_lets d1 d2 d3
  have h1 : d1.AtTime T L := .foldl h fun _ _ h => h.fencePending
  have h3 : d3.AtTime T L := .ite h1.resetRegisters.flag h1.resetRegisters
  clear_value d3
  exact ⟨h3.ticks, h3.lt⟩

/-! ### Island -/

theorem Dev.AtTime.logAck {n} (h : d.AtTime T L) : (Machine.logAck n d).AtTime T L := ⟨h.ticks, h.lt⟩

theorem Dev.AtTime.clearFaultCounts (h : d.AtTime T L) : (Machine.clearFaultCounts d).AtTime T L :=
  .foldl h fun _ _ h => h.setFld

theorem Dev.AtTime.reactWrite {i v} (h : d.AtTime T L) : (Machine.reactWrite i v d).AtTime T L :=
  .ite h.flag (.ite h h.setFld)

/-! ### Lifecycle -/

theorem Dev.AtTime.blowAnchor (h : d.AtTime T L) : d.blowAnchor.AtTime T L := .ite h.withTrust.journal h

theorem Dev.AtTime.raiseArb {svn} (h : d.AtTime T L) : (d.raiseArb svn).AtTime T L :=
  .ite h.withPersist.journal.flag.blowAnchor h

/-! ### Modes -/

theorem Dev.AtTime.showSlots (h : d.AtTime T L) : d.showSlots.AtTime T L := ⟨h.ticks, h.lt⟩

theorem Dev.AtTime.setActive {b} (h : d.AtTime T L) : (d.setActive b).AtTime T L := h.withPersist.journal.showSlots

theorem Dev.AtTime.confirmStart (h : d.AtTime T L) : d.confirmStart.AtTime T L :=
  .ite h h.withPersist.flag.journal.setActive.raiseArb

theorem Dev.AtTime.haltAll (h : d.AtTime T L) : d.haltAll.AtTime T L := .foldl h fun _ _ h => .ite h.capture h

theorem Dev.AtTime.enterStandby (h : d.AtTime T L) : d.enterStandby.AtTime T L := by
  unfold Dev.enterStandby
  extract_lets d1
  have h1 : d1.AtTime T L := h.assertForce.enterMode
  exact .ite h1.withStart.flag.haltAll h1.withStart.withStart

theorem Dev.AtTime.unfence {p} (h : d.AtTime T L) : (d.unfence p).AtTime T L := h.setPairState.withPersist.journal

theorem Dev.AtTime.command {code arg} (h : d.AtTime T L) : (d.command code arg).AtTime T L :=
  .ite h.confirmStart.enterMode (.ite h.assertForce.enterMode
    (.ite h.enterStandby (.ite h.confirmStart.enterMode
    (.ite h.enterMode (.ite h.setActive.deviceReset (.ite h.unfence h.deviceReset))))))

theorem Dev.AtTime.judge {code arg} (h : d.AtTime T L) : (d.judge code arg).2.AtTime T L :=
  .iteSnd h.refuse.cmdStat (.iteSnd h.cmdStat h.cmdStat.command)

theorem Dev.AtTime.carryOut {src code arg} (h : d.AtTime T L) : (d.carryOut src code arg).AtTime T L := by
  unfold Dev.carryOut
  split
  · exact .ite h.cmdStat (.ite h.cmdStat h.judge)
  · exact .ite h.cmdStat (.ite h.count h.judge)

theorem Dev.AtTime.issueCommand {src code arg} (h : d.AtTime T L) : (d.issueCommand src code arg).AtTime T L :=
  .ite h.withStart h.carryOut

/-! ### Lantern -/

theorem Dev.AtTime.setTb {t x} (h : d.AtTime T L) : (d.setTb t x).AtTime T L := ⟨h.ticks, h.lt⟩

theorem Dev.AtTime.carriersJump {t} (h : d.AtTime T L) : (d.carriersJump t).AtTime T L :=
  .foldl h fun _ _ h => .ite h.flag h

theorem Dev.AtTime.jumped {t} (h : d.AtTime T L) : (d.jumped t).AtTime T L := h.setBitOf.carriersJump.present

theorem Dev.AtTime.stepTb {t x from_ tgt row} (h : d.AtTime T L) : (d.stepTb t x from_ tgt row).AtTime T L := by
  unfold Dev.stepTb
  split
  · exact h.setTb.jumped
  · exact h.setTb
  · exact h.setTb

theorem Dev.AtTime.lineSample {t hi} (h : d.AtTime T L) : (Machine.lineSample t hi d).AtTime T L := .ite h.setTb h

theorem Dev.AtTime.adjWrite {t v} (h : d.AtTime T L) : (Machine.adjWrite t v d).AtTime T L := .ite h.setTb h

theorem Dev.AtTime.restartTb {t} (h : d.AtTime T L) : (d.restartTb t).AtTime T L := ⟨h.ticks, h.lt⟩

theorem Dev.AtTime.timebaseWrite {t w} (h : d.AtTime T L) : (Machine.timebaseWrite t w d).AtTime T L := by
  unfold Machine.timebaseWrite
  extract_lets a key was old d1 d2
  have h2 : d2.AtTime T L := .ite h.storeReg.setFld h.storeReg
  exact .foldl (Dev.AtTime.ite h2.restartTb h2) fun _ _ h => .ite h.forceGroup h

theorem Dev.AtTime.tickTb {t} (h : d.AtTime T L) : (d.tickTb t).AtTime T L := .ite h.setTb (.ite h.stepTb h.setTb)

/-- Lantern's lt is the one count that a tick of it advances. -/
theorem Dev.AtTime.tickLantern (h : d.AtTime T L) : d.tickLantern.AtTime T (L + 1) :=
  .foldl ⟨h.ticks, congrArg (· + 1) h.lt⟩ fun _ _ h => .ite h.tickTb h

theorem Dev.AtTime.armCmp {c} (h : d.AtTime T L) : (d.armCmp c).AtTime T L := ⟨h.ticks, h.lt⟩

theorem Dev.AtTime.cmpWrite {c r a w} (h : d.AtTime T L) : (d.cmpWrite c r a w).AtTime T L :=
  .armCmp (.storeReg ⟨h.ticks, h.lt⟩)

/-! ### Drive -/

theorem Dev.AtTime.checkForce {g} (h : d.AtTime T L) : (d.checkForce g).AtTime T L := .ite h h.forceGroup

theorem Dev.AtTime.passLt {g M} (h : d.AtTime T L) : (d.passLt g M).AtTime T L := ⟨h.ticks, h.lt⟩

theorem Dev.AtTime.passAngle {g} (h : d.AtTime T L) : (d.passAngle g).AtTime T L := .ite h.passLt h

theorem Dev.AtTime.passTime {g} (h : d.AtTime T L) : (d.passTime g).AtTime T L :=
  .ite (Dev.AtTime.ite h.passLt h).passLt h

theorem Dev.AtTime.noteShadow {g} (h : d.AtTime T L) : (d.noteShadow g).AtTime T L := .ite h.setGroup h

theorem Dev.AtTime.tickOutputs {g} (h : d.AtTime T L) : (d.tickOutputs g).AtTime T L := .ite h h.setGroup

theorem Dev.AtTime.tickPwm (h : d.AtTime T L) : d.tickPwm.AtTime T L :=
  .foldl h fun _ _ h => h.noteShadow.passTime.tickOutputs

theorem Dev.AtTime.endPwm (h : d.AtTime T L) : d.endPwm.AtTime T L := .foldl h fun _ _ h => h.passAngle

theorem Dev.AtTime.tickPins (h : d.AtTime T L) : d.tickPins.AtTime T L := .foldl h fun _ _ h => .ite h h.setGroup

theorem Dev.AtTime.startGroup {g} (h : d.AtTime T L) : (d.startGroup g).AtTime T L :=
  h.setFld.setFld.setGroup.checkForce

theorem Dev.AtTime.stopGroup {g} (h : d.AtTime T L) : (d.stopGroup g).AtTime T L := .ite h h.setGroup

theorem Dev.AtTime.syncGroup {g} (h : d.AtTime T L) : (d.syncGroup g).AtTime T L := .ite h.setGroup h

theorem Dev.AtTime.pwmSync {mask} (h : d.AtTime T L) : (Machine.pwmSync mask d).AtTime T L :=
  .foldl h fun _ _ h => h.syncGroup

theorem Dev.AtTime.tripClear {g} (h : d.AtTime T L) : (Machine.tripClear g d).AtTime T L := ⟨h.ticks, h.lt⟩

theorem Dev.AtTime.setSdf {n x} (h : d.AtTime T L) : (d.setSdf n x).AtTime T L := ⟨h.ticks, h.lt⟩

theorem Dev.AtTime.pwmWrite {a w} (h : d.AtTime T L) : (d.pwmWrite a w).AtTime T L := by
  unfold Dev.pwmWrite
  extract_lets off g r d1 was d2 _ d3 d4
  have h1 : d1.AtTime T L := .ite h.flag h
  have h4 : d4.AtTime T L := (Dev.AtTime.ite h1.setGroup h1).storeReg.checkForce
  exact .ite h.pwmSync (.ite h.storeReg (.ite (.ite h1.storeReg.startGroup (.ite h1.storeReg.stopGroup h1.storeReg))
    (.ite (.ite h4.tripClear h4) (.ite (.ite h1.storeReg.setFld h1.storeReg) h1.storeReg))))

theorem Dev.AtTime.startSdf {n} (h : d.AtTime T L) : (d.startSdf n).AtTime T L := ⟨h.ticks, h.lt⟩

theorem Dev.AtTime.sdfWrite {a w} (h : d.AtTime T L) : (d.sdfWrite a w).AtTime T L :=
  .ite (.ite h.storeReg.startSdf (.ite h.storeReg.setSdf h.storeReg)) h.storeReg

theorem Dev.AtTime.setAdc {c x} (h : d.AtTime T L) : (d.setAdc c x).AtTime T L := ⟨h.ticks, h.lt⟩

theorem Dev.AtTime.startSeq {c trig} (h : d.AtTime T L) : (d.startSeq c trig).AtTime T L := ⟨h.ticks, h.lt⟩

theorem Dev.AtTime.adcStart {c} (h : d.AtTime T L) : (Machine.adcStart c d).AtTime T L :=
  .ite h (.ite h.startSeq h.flag)

theorem Dev.AtTime.adcWrite {a w} (h : d.AtTime T L) : (d.adcWrite a w).AtTime T L :=
  .ite h.storeReg.setAdc (.ite (.ite h.adcStart h) h.storeReg)

theorem Dev.AtTime.restartPos {i} (h : d.AtTime T L) : (d.restartPos i).AtTime T L := ⟨h.ticks, h.lt⟩

theorem Dev.AtTime.posWrite {a w} (h : d.AtTime T L) : (d.posWrite a w).AtTime T L :=
  .ite (.ite h.storeReg.restartPos h.storeReg) (.ite h.storeReg.restartPos h.storeReg)

/-! ### Buoy -/

theorem Dev.AtTime.setBuoy {k x} (h : d.AtTime T L) : (d.setBuoy k x).AtTime T L := ⟨h.ticks, h.lt⟩

theorem Dev.AtTime.startWrite {k t} (h : d.AtTime T L) : (Machine.Dev.startWrite k d t).AtTime T L :=
  .ite h.flag h.setBuoy

theorem Dev.AtTime.startLists {k mask} (h : d.AtTime T L) : (Machine.startLists k mask d).AtTime T L :=
  .foldl h fun _ _ h => h.startWrite

theorem Dev.AtTime.enumWrite {k} (h : d.AtTime T L) : (d.enumWrite k).AtTime T L := .ite h.flag h.flag

theorem Dev.AtTime.buoyWrite {a w} (h : d.AtTime T L) : (d.buoyWrite a w).AtTime T L :=
  .ite (.startLists (.ite h.enumWrite h)) h.storeReg

/-! ### Ethernet -/

theorem Dev.AtTime.startLine {q f} (h : d.AtTime T L) : (d.startLine q f).AtTime T L := ⟨h.ticks, h.lt⟩

theorem Dev.AtTime.drainPort {q} (h : d.AtTime T L) : (d.drainPort q).AtTime T L := by
  unfold Dev.drainPort
  split
  · exact h
  · split
    · exact h
    · exact h.withEth.startLine

theorem Dev.AtTime.drainPorts (h : d.AtTime T L) : d.drainPorts.AtTime T L := h.drainPort.drainPort

theorem Dev.AtTime.ringWrite {m base unit size tail bytes} (h : d.AtTime T L)
    (he : d.ringWrite m base unit size tail bytes = .ok e) : e.AtTime T L := by
  unfold Dev.ringWrite at he
  extract_lets first a at he
  split at he
  · cases he
  · cases he
    exact h.engineStore.engineStore

/-! ### Can -/

theorem Dev.AtTime.setCan {k x} (h : d.AtTime T L) : (d.setCan k x).AtTime T L := ⟨h.ticks, h.lt⟩

theorem Dev.AtTime.canStore {k f} (h : d.AtTime T L) (he : d.canStore k f = .ok e) : e.AtTime T L := by
  unfold Dev.canStore at he
  extract_lets bytes size tail n at he
  split at he
  · cases he
    exact h.count
  · split at he
    · cases he
    · next hw =>
      cases he
      exact (h.ringWrite hw).setFld.flag

theorem Dev.AtTime.canStoreAll {k} : ∀ {l : List CanFrame} {d : Dev}, d.AtTime T L → (d.canStoreAll k l).AtTime T L
  | [], _, h => h.setCan
  | f :: t, d, h => by
    rw [Dev.canStoreAll]
    split
    · next hs => exact (h.canStore hs).canStoreAll
    · exact h.setCan.onHold

theorem Dev.AtTime.canRetry (h : d.AtTime T L) : d.canRetry.AtTime T L := .foldl h fun _ _ h => .ite h h.canStoreAll

theorem Dev.AtTime.startRecovery {k} (h : d.AtTime T L) : (Machine.startRecovery k d).AtTime T L := .ite h.setCan h

/-! ### Nvs -/

theorem Dev.AtTime.sealOpen {bad} (h : d.AtTime T L) : (Machine.sealOpen bad d).AtTime T L := .ite h h.sealPage

theorem Dev.AtTime.appendEnd {st} (h : d.AtTime T L) : (d.appendEnd st).AtTime T L := ⟨h.ticks, h.lt⟩

theorem Dev.AtTime.tryAppend (h : d.AtTime T L) : d.tryAppend.AtTime T L := by
  unfold Dev.tryAppend
  split
  · exact h
  · refine .ite h.appendEnd ?_
    extract_lets quiet
    split
    next hd e d1 hl =>
      have h1 : d1.AtTime T L := .of_thd hl h.engineLoad
      split
      · exact h.onHold
      · exact h1.appendEnd
      · extract_lets type len
        refine .ite h1.appendEnd (.ite h1.appendEnd (.ite h1.appendEnd ?_))
        split
        next body e d2 hl =>
          have h2 : d2.AtTime T L := .of_thd hl h1.engineLoad
          split
          · exact h.onHold
          · exact h2.appendEnd
          · exact .appendEnd (.ite h2.journal.sealOpen h2.journal)

theorem Dev.AtTime.appendWrite {addr} (h : d.AtTime T L) : (Machine.appendWrite addr d).AtTime T L :=
  .ite h h.withNvs.flag.tryAppend

theorem Dev.AtTime.slotctlWrite {op m w} (h : d.AtTime T L) : (Machine.slotctlWrite op m w d).AtTime T L := by
  unfold Machine.slotctlWrite
  split
  · exact h
  · extract_lets tgt d1
    have h1 : d1.AtTime T L := h.setFld.setFld.setFld
    exact .ite h1 (.ite h1.setFld h1.withNvs.flag.flag)

/-! ### Test -/

theorem Dev.AtTime.bistStop {p} (h : d.AtTime T L) : (d.bistStop p).AtTime T L := ⟨h.ticks, h.lt⟩

theorem Dev.AtTime.bistStart (h : d.AtTime T L) : (Machine.bistStart d).AtTime T L :=
  .ite (.ite h ((Dev.AtTime.foldl h fun _ _ h => h.bistStop).flag.setFld.setFld.withTest)) h.refuse.setFld

theorem Dev.AtTime.repair (h : d.AtTime T L) : (Machine.repair d).AtTime T L := .ite h h.journal.withTest

theorem Dev.AtTime.bistctlWrite {w} (h : d.AtTime T L) : (Machine.bistctlWrite w d).AtTime T L := by
  unfold Machine.bistctlWrite
  extract_lets d1
  have h1 : d1.AtTime T L := .ite h.repair h
  exact .ite h1.bistStart h1

theorem Dev.AtTime.offer {lp budget} (h : d.AtTime T L) : (Machine.offer lp budget d).AtTime T L :=
  .ite h.setPair.withTest h.count

/-! ### Trust -/

theorem Dev.AtTime.workResult {status payload} (h : d.AtTime T L) : (d.workResult status payload).AtTime T L := by
  unfold Dev.workResult
  split
  · exact .ite h.withTdr h
  · exact h

theorem Dev.AtTime.auditCounts (h : d.AtTime T L) : d.auditCounts.AtTime T L := .ite h.withTrust.journal h

/-! ### IoPort -/

theorem Dev.AtTime.ioRead {a peek} (h : d.AtTime T L) : (d.ioRead a peek).2.2.AtTime T L := by
  unfold Dev.ioRead
  split
  · exact h
  · exact .ite h h.setWord

theorem Dev.AtTime.dmaBegin {e j trig} (h : d.AtTime T L) : (d.dmaBegin e j trig).AtTime T L := ⟨h.ticks, h.lt⟩

theorem Dev.AtTime.dmaStart {e j sw} (h : d.AtTime T L) : (Machine.dmaStart e j sw d).AtTime T L := by
  unfold Machine.dmaStart
  split
  · exact h
  · split
    · exact .ite h.flag h.dmaBegin
    · split
      · exact h
      · split
        · exact h.setLatch.dmaBegin
        · exact h

theorem Dev.AtTime.configWrite {a w} (h : d.AtTime T L) : (d.configWrite a w).AtTime T L := .ite h.storeReg h.refuse

theorem Dev.AtTime.sysctlWrite {m user a w} (h : d.AtTime T L) : (d.sysctlWrite m user a w).AtTime T L :=
  .ite (.ite h h.issueCommand) (.ite (.ite h.configWrite.withPersist.journal h.configWrite)
    (.ite h.configWrite h.storeReg))

theorem Dev.AtTime.pairctlWrite {a w} (h : d.AtTime T L) : (d.pairctlWrite a w).AtTime T L :=
  .ite (Dev.AtTime.ite h.storeReg h.storeReg.setFld).capture
    (.ite h.designate (.ite (.ite h.cmptestStart h) h.storeReg))

theorem Dev.AtTime.intcWrite {a w} (h : d.AtTime T L) : (d.intcWrite a w).AtTime T L :=
  .ite (.ite h.setFld h) (.ite (.foldl h fun _ _ h => .ite h.clearEdge h)
    (.ite h.swset (.ite h.storeReg.capture h.storeReg)))

theorem Dev.AtTime.evtmxWrite {a w} (h : d.AtTime T L) : (d.evtmxWrite a w).AtTime T L :=
  .ite (.ite h.cenWrite (.ite h.cenWrite (.ite (.ite h.storeReg.watchTake h.storeReg) h.storeReg))) h.storeReg

theorem Dev.AtTime.lanternWrite {a w} (h : d.AtTime T L) : (d.lanternWrite a w).AtTime T L :=
  .ite (.ite h.timebaseWrite (.ite (.ite h.storeReg.restartTb h.storeReg)
    (.ite h.lineSample (.ite h.adjWrite h.storeReg))))
    (.ite (.ite h.cmpWrite (.ite h.storeReg.setFld h.storeReg)) h.storeReg)

theorem Dev.AtTime.safeislWrite {a w} (h : d.AtTime T L) : (d.safeislWrite a w).AtTime T L :=
  .ite (.ite h.clearFaultCounts h) (.ite h.logAck (.ite (.ite h.storeReg.setFld h.storeReg)
    (.ite h.reactWrite h.storeReg)))

theorem Dev.AtTime.keeperWrite {m user a w} (h : d.AtTime T L) : (d.keeperWrite m user a w).AtTime T L :=
  .ite h (.ite h.keeperEnable (.ite (.ite h.storeReg h.storeReg.setFld)
    (.ite h.service (.ite (.ite h.evstatClear h) (.ite (.ite h.storeReg h.storeReg.setFld) h.storeReg)))))

theorem Dev.AtTime.ethWrite {a w} (h : d.AtTime T L) : (d.ethWrite a w).AtTime T L :=
  .ite (.ite h.configWrite.withPersist.journal h.configWrite) (.ite h.configWrite h.storeReg)

theorem Dev.AtTime.canWrite {a w} (h : d.AtTime T L) : (d.canWrite a w).AtTime T L :=
  .ite (.ite h.storeReg (.ite h.storeReg.setFld (.ite h.storeReg.setFld (.ite (.ite h.startRecovery h) h.storeReg))))
    h.storeReg

theorem Dev.AtTime.nvsWrite {m a w} (h : d.AtTime T L) : (d.nvsWrite m a w).AtTime T L :=
  .ite h.appendWrite (.ite h.slotctlWrite h.storeReg)

theorem Dev.AtTime.testWrite {a w} (h : d.AtTime T L) : (d.testWrite a w).AtTime T L :=
  .ite h.bistctlWrite (.ite h.offer h.storeReg)

theorem Dev.AtTime.powerWrite {a w} (h : d.AtTime T L) : (d.powerWrite a w).AtTime T L := .ite h.withPower h.storeReg

theorem Dev.AtTime.dmaWrite {a w} (h : d.AtTime T L) : (d.dmaWrite a w).AtTime T L :=
  .ite h.storeReg.dmaStart h.storeReg

theorem Dev.AtTime.blockWrite {m user a w} (h : d.AtTime T L) : (d.blockWrite m user a w).AtTime T L := by
  unfold Dev.blockWrite
  split
  · exact h.sysctlWrite
  · exact h.pairctlWrite
  · exact h.intcWrite
  · exact .ite h.enableWrite h.storeReg
  · exact .ite h.etctlWrite h.storeReg
  · exact h.evtmxWrite
  · exact h.lanternWrite
  · exact h.pwmWrite
  · exact h.sdfWrite
  · exact h.adcWrite
  · exact h.posWrite
  · exact h.safeislWrite
  · exact h.keeperWrite
  · exact h.ethWrite
  · exact h.canWrite
  · exact h.buoyWrite
  · exact h.nvsWrite
  · exact h.testWrite
  · exact h.powerWrite
  · exact h.dmaWrite
  · exact h.storeReg

theorem Dev.AtTime.ioWrite {m user a w} (h : d.AtTime T L) : (d.ioWrite m user a w).2.AtTime T L :=
  .iteSnd h.blockWrite h

/-! ### Debug -/

theorem Dev.AtTime.reply {status tag payload} (h : d.AtTime T L) : (d.reply status tag payload).AtTime T L :=
  ⟨h.ticks, h.lt⟩

theorem Dev.AtTime.readBeats : ∀ {l : List (Nat × Nat)} {d : Dev}, d.AtTime T L → (d.readBeats l).2.2.AtTime T L
  | [], _, h => h
  | (a, n) :: t, d, h => by
    rw [Dev.readBeats]
    split
    · exact h.denied
    · refine .iteThd h ?_
      split
      next b code d1 hr =>
        have h1 : d1.AtTime T L := by
          refine .of_thd hr ?_
          split
          · exact h.takeFailure
          · exact h.served.readPieces
        exact .iteThd h1 h1.readBeats

theorem Dev.AtTime.writeBeats : ∀ {l : List (Nat × Nat)} {d : Dev} {bytes}, d.AtTime T L →
    (d.writeBeats bytes l).2.AtTime T L
  | [], _, _, h => h
  | (a, n) :: t, d, bytes, h => by
    rw [Dev.writeBeats]
    split
    · exact h.denied
    · refine .iteSnd h ?_
      split
      next code d1 hr =>
        have h1 : d1.AtTime T L := by
          refine .of_snd hr ?_
          split
          · exact h.takeFailure
          · exact h.served.writePieces
        exact .iteSnd h1 h1.writeBeats

theorem Dev.AtTime.readRegs {live} : ∀ {n} {d : Dev} {a}, d.AtTime T L → (d.readRegs live a n).2.2.AtTime T L
  | 0, _, _, h => h
  | n + 1, d, a, h => by
    rw [Dev.readRegs]
    split
    · exact h.denied
    · split
      next v code d1 hr =>
        have h1 : d1.AtTime T L := by
          refine .of_thd hr ?_
          split
          · exact h.takeFailure
          · exact h.served.ioRead
        exact .iteThd h1 (Dev.AtTime.readRegs (.ite h1.syncDone h1))

theorem Dev.AtTime.writeRegs : ∀ {n} {d : Dev} {bytes a}, d.AtTime T L → (d.writeRegs bytes a n).2.AtTime T L
  | 0, _, _, _, h => h
  | n + 1, d, bytes, a, h => by
    rw [Dev.writeRegs]
    split
    · exact h.denied
    · split
      next code d1 hr =>
        have h1 : d1.AtTime T L := by
          refine .of_snd hr ?_
          split
          · exact h.takeFailure
          · exact h.served.ioWrite
        exact .iteSnd h1 h1.writeRegs

theorem Dev.AtTime.debugRun {q} (h : d.AtTime T L) : (d.debugRun q).2.2.AtTime T L :=
  .iteThd (.iteThd h.writeRegs h.readRegs) (.iteThd h.writeBeats h.readBeats)

theorem Dev.AtTime.retryWork (h : d.AtTime T L) : d.retryWork.AtTime T L := by
  unfold Dev.retryWork
  split
  · split
    · exact h.onHold
    · exact .ite h.debugRun.workResult h.debugRun.withTdr.reply
  · exact h

/-! ### Tick -/

theorem Dev.AtTime.tickPairs (h : d.AtTime T L) : d.tickPairs.AtTime T L := .foldl h fun _ _ h => .ite h.setPair h

theorem Dev.AtTime.tickVin (h : d.AtTime T L) : d.tickVin.AtTime T L := .ite h.withPower h

theorem Dev.AtTime.tickAge (h : d.AtTime T L) : d.tickAge.AtTime T L := .ite h.withAge h

/-- Lantern and the carriers move unless their clocks stand. -/
theorem Dev.AtTime.tickClocks (h : d.AtTime T L) :
    d.tickClocks.AtTime T (L + if d.start.starting || d.start.clocksOff then 0 else 1) := by
  unfold Dev.tickClocks
  split
  · exact h
  · exact h.endPwm.tickLantern.tickPwm.tickPins

theorem Dev.AtTime.tickWork (h : d.AtTime T L) : d.tickWork.AtTime T L :=
  (Dev.AtTime.ite h.deviceReset h).tryAppend.retryWork.auditCounts.drainPorts.canRetry

/-! ### A tick -/

/-- The lt of Lantern that pass in one lt of the device (R253, R434). -/
def Dev.lanternStep (d : Dev) : Nat := if d.start.starting || d.start.clocksOff || d.power.hotReset then 0 else 1

/-- With the converter on a tick is one lt of the device, and of Lantern where it runs. -/
theorem Dev.AtTime.tick (h : d.AtTime T L) (hon : d.power.converter = true) :
    (Machine.tick d).AtTime (T + 1) (L + d.lanternStep) := by
  have h1 : Dev.AtTime { d with ticks := d.ticks + 1 } (T + 1) L := ⟨congrArg (· + 1) h.ticks, h.lt⟩
  unfold Machine.tick Dev.lanternStep
  rw [hon]
  cases d.power.hotReset with
  | true => simpa using h1.tickVin
  | false => simpa using h1.tickClocks.tickPairs.tickVin.tickAge.tickWork

theorem tick_converterOff (h : d.power.converter = false) : tick d = d := by simp [tick, h]

end

/-- Settles O54: the step of an empty queue is a tick. Both counts follow from it whether or not a reset is owed, for a
device reset keeps them. -/
theorem timePasses : Obligations.TimePasses := by
  intro s hempty
  refine ⟨{ s with dev := tick s.dev }, by simp [step, hempty], tick_converterOff, fun hon _ => ?_⟩
  have h : (tick s.dev).AtTime (s.dev.ticks + 1) (s.dev.lantern.lt + s.dev.lanternStep) := .tick ⟨rfl, rfl⟩ hon
  exact ⟨h.ticks, h.lt⟩

end Sys2Proof.Machine
end

section
/-! PROOFS. PowerFrames: what the operations that the module's supply, temperature and stop commands share leave: the
faults that wait for the island, the journal, a safe-stop cause (R417), a device reset (R13, R416). -/

namespace Sys2Proof.Machine

section
variable {d e : Dev} {n v : Nat}

/-! ### Faults that wait for the island -/

/-- The fault input `n` has been presented with detail `v` and waits for the island. -/
structure Dev.Awaits (d : Dev) (n v : Nat) : Prop where
  hasFault : d.hasFault n v = true

theorem Dev.Awaits.of_island (h : d.Awaits n v) (he : e.island = d.island) : e.Awaits n v :=
  ⟨by simpa only [Dev.hasFault, he] using h.hasFault⟩

theorem Dev.Awaits.ite {c : Prop} {_ : Decidable c} (hd : d.Awaits n v) (he : e.Awaits n v) :
    (if c then d else e).Awaits n v := by
  split
  · exact hd
  · exact he

/-- A fault presented waits. -/
theorem Dev.awaits_present (d : Dev) (n : Nat) (hv : v < 65536) : (d.present n v).Awaits n v := by
  have h := addPresented_any d.island.presented n (v % 65536)
  rw [Nat.mod_eq_of_lt hv] at h
  exact ⟨by simpa only [Dev.hasFault, Dev.present, Nat.mod_eq_of_lt hv] using h⟩

theorem Dev.Awaits.present {i w : Nat} (h : d.Awaits n v) : (d.present i w).Awaits n v :=
  ⟨addPresented_keeps d.island.presented i (w % 65536) n v h.hasFault⟩

theorem Dev.Awaits.setFld {f : Fld} {x : Nat} (h : d.Awaits n v) : (d.setFld f x).Awaits n v := ⟨h.hasFault⟩

theorem Dev.Awaits.flag {f : Fld} (h : d.Awaits n v) : (d.flag f).Awaits n v := h.setFld

theorem Dev.Awaits.sealPage {bad : Nat} (h : d.Awaits n v) : (d.sealPage bad).Awaits n v := by
  unfold Dev.sealPage
  extract_lets p a run d1 d2 pages ov d3 d4
  have h1 : d1.Awaits n v := .ite h.present.flag h
  have h3 : d3.Awaits n v := .ite h1.setFld.present.flag h1.setFld
  exact ⟨h3.hasFault⟩

theorem Dev.Awaits.journal {type : Nat} {args : List Nat} {body : List Byte} (h : d.Awaits n v) :
    (d.journal type args body).Awaits n v := by
  obtain ⟨s, hs⟩ := addEntry_nvs d type args body
  have h1 : (d.addEntry type args body).Awaits n v := h.of_island (by rw [hs])
  exact .ite h (.ite h1.sealPage h1)

theorem Dev.Awaits.assertForce (h : d.Awaits n v) : d.assertForce.Awaits n v :=
  h.of_island (assertForce_frame d).2.2.2.1

theorem Dev.Awaits.forceByMode (h : d.Awaits n v) : d.forceByMode.Awaits n v := .ite h.setFld h.assertForce

theorem Dev.Awaits.withKeeper {x : KeeperSt} (h : d.Awaits n v) : Dev.Awaits { d with keeper := x } n v := ⟨h.hasFault⟩

theorem Dev.Awaits.clearCounts (h : d.Awaits n v) : d.clearCounts.Awaits n v := h.of_island (clearCounts_frame d).2.2.1

theorem Dev.Awaits.freshWindow (h : d.Awaits n v) : d.freshWindow.Awaits n v := h.clearCounts.setFld.withKeeper

theorem Dev.Awaits.keeperMode {m : Nat} (h : d.Awaits n v) : (d.keeperMode m).Awaits n v :=
  .ite h (.ite (.ite h.setFld.freshWindow h) h.setFld.withKeeper)

theorem Dev.Awaits.enterMode {m trig : Nat} (h : d.Awaits n v) : (d.enterMode m trig).Awaits n v := by
  unfold Dev.enterMode
  extract_lets old d1 d2 d3 d4 d5
  have h2 : d2.Awaits n v := .ite h.setFld.setFld.setFld h.setFld.setFld
  have h4 : d4.Awaits n v := h2.journal.keeperMode.forceByMode
  have h5 : d5.Awaits n v := .ite h4 h4.setFld
  exact .ite ⟨h5.hasFault⟩ (.ite ⟨h5.hasFault⟩ h5)

theorem Dev.Awaits.safeStopCause {trig : Nat} (h : d.Awaits n v) : (d.safeStopCause trig).Awaits n v :=
  .ite h.assertForce.enterMode (.ite h.assertForce h.assertForce.flag)

/-! ### The journal (R514, R523) -/

/-- An entry of a type marked S leaves no unsealed entry, unless the journal is full. -/
theorem journal_opened {type : Nat} (args : List Nat) (body : List Byte) (hs : sealedType type = true)
    (hf : d.nvs.full = false) : (d.journal type args body).nvs.opened = [] := by
  simp only [Dev.journal, hf, hs, if_true]
  exact sealPage_opened _ 0

theorem evt_of_butMode (h : e.butMode = d.butMode) : e.evt = d.evt :=
  show e.butMode.evt = d.butMode.evt from congrArg Dev.evt h

/-! ### A safe-stop cause (R396, R417) -/

theorem running_of_mode (h : e.mode = d.mode) : e.running = d.running := by simp only [Dev.running, h]

theorem mode_assertForce : d.assertForce.mode = d.mode := (assertForce_regs d).fld SYSCTL_STAT_MODE (by decide)

/-- The force line is asserted wherever STAT.FORCE and the PWM groups read as in a device in which it is. -/
theorem forced_of_force (hf : e.fld SAFEISL_STAT_FORCE = d.fld SAFEISL_STAT_FORCE) (hd : e.drive = d.drive)
    (h : d.forced = true) : e.forced = true := by
  simpa only [Dev.forced, Dev.on, Dev.group, hf, hd] using h

/-- Entering a mode other than RUN and DEGRADED asserts the force line. -/
theorem forced_enterMode (d : Dev) {m : Nat} (trig : Nat) (hm : m < 8)
    (hr : (m = modeRun || m = modeDegraded) = false) : (d.enterMode m trig).forced = true := by
  have hmode := (mode_enterMode d trig hm).1
  revert hmode
  unfold Dev.enterMode
  extract_lets old d1 d2 d3 d4 d5
  have h3 : d3.mode = m → d4.forced = true := fun h => forceByMode_forced d3 (by rw [Dev.running, h]; exact hr)
  have h4 : d4.mode = m → d4.forced = true := fun h =>
    h3 (((forceByMode_frame d3).2.2.2.fld SYSCTL_STAT_MODE (by decide)).symm.trans h)
  have h5 : d5.mode = m → d5.forced = true := by
    unfold d5
    split
    · exact h4
    · intro h
      have hmode4 : d4.mode = m := (fld_setFld_apart _ _ (by decide)).symm.trans h
      exact forced_of_force (fld_setFld_apart _ _ (by decide)) rfl (h4 hmode4)
  clear_value d5
  split
  · exact h5
  · split
    · exact h5
    · exact h5

theorem safeStopCause_of_running (trig : Nat) (h : d.running = true) :
    d.safeStopCause trig = d.assertForce.enterMode modeSafeStop trig :=
  if_pos ((running_of_mode mode_assertForce).trans h)

theorem safeStopCause_of_safeStop (trig : Nat) (h : d.mode = modeSafeStop) : d.safeStopCause trig = d.assertForce := by
  have hm : d.assertForce.mode = modeSafeStop := mode_assertForce.trans h
  have hr : d.assertForce.running = false := by rw [Dev.running, hm]; rfl
  rw [Dev.safeStopCause, hr, if_neg Bool.false_ne_true, if_pos hm]

theorem safeStopCause_elsewhere (trig : Nat) (hr : d.running = false) (hm : d.mode ≠ modeSafeStop) :
    d.safeStopCause trig = d.assertForce.setFld SAFEISL_STAT_SSLATCH 1 := by
  rw [Dev.safeStopCause, running_of_mode mode_assertForce, hr, if_neg Bool.false_ne_true,
    if_neg (by rwa [mode_assertForce]), flag_eq]

/-- A safe-stop cause asserts the force line; from RUN and DEGRADED the mode becomes SAFE-STOP, elsewhere it stays, with
SSLATCH set outside SAFE-STOP. -/
theorem safeStopCause_stops (d : Dev) (trig : Nat) :
    (d.safeStopCause trig).forced = true ∧ (d.running = true → (d.safeStopCause trig).mode = modeSafeStop) ∧
    (d.running = false → (d.safeStopCause trig).mode = d.mode ∧
      (d.mode ≠ modeSafeStop → (d.safeStopCause trig).fld SAFEISL_STAT_SSLATCH = 1)) := by
  have hforce := forced_assertForce d
  have hmode := mode_assertForce (d := d)
  cases hr : d.running with
  | true =>
    rw [safeStopCause_of_running trig hr]
    exact ⟨forced_enterMode _ trig (by decide) rfl, fun _ => (mode_enterMode _ trig (by decide)).1, nofun⟩
  | false =>
    by_cases hs : d.mode = modeSafeStop
    · rw [safeStopCause_of_safeStop trig hs]
      exact ⟨hforce, nofun, fun _ => ⟨hmode, fun h => absurd hs h⟩⟩
    · rw [safeStopCause_elsewhere trig hr hs]
      exact ⟨forced_of_force (fld_setFld_apart _ 1 (by decide)) (setFld_drive _ _ 1) hforce, nofun, fun _ =>
        ⟨(fld_setFld_apart _ 1 (by decide)).trans hmode, fun _ => fld_setFld_same _ 1 (by decide)⟩⟩

/-! ### Registers through a device reset (R13) -/

section
variable {r : Reg} {ix : List Nat} {a : Nat} {f : FieldRow}

/-- After a device reset a register holds what R13 leaves of it, or, unlisted, its reset word. -/
theorem ioGet_ioReset (m : IoMap) (a : Nat) :
    ioGet (ioReset m) a = regAfterReset m a ∨ ioGet (ioReset m) a = regReset a := by
  have key (g : Nat → Word) (t : IoMap) :
      ioGet (t.filterMap fun e => if g e.1 = regReset e.1 then none else some (e.1, g e.1)) a = g a ∨
        ioGet (t.filterMap fun e => if g e.1 = regReset e.1 then none else some (e.1, g e.1)) a = regReset a := by
    induction t with
    | nil => exact .inr rfl
    | cons e t ih =>
      by_cases h : g e.1 = regReset e.1
      · simpa only [List.filterMap_cons, h, if_true] using ih
      · by_cases ha : e.1 = a
        · subst ha
          simp only [List.filterMap_cons, h, if_false, ioGet, mapGet, mapFind, if_true, true_or]
        · simpa only [List.filterMap_cons, h, if_false, ioGet, mapGet, mapFind, ha] using ih
  exact key (regAfterReset m) m

/-- A field that a device reset does not keep reads as its reset value. -/
theorem fieldOf_ioReset {m : IoMap} (hr : regAt a = some (r, ix)) (hd : fieldsDisjoint r.fields = true)
    (hf : f ∈ r.fields) (hk : ∀ locked, f.keeps locked = false) :
    fieldOf (ioGet (ioReset m) a) f.lo f.w = f.resetAt (nth 0 ix 0) % 2 ^ f.w := by
  rcases ioGet_ioReset m a with h | h
  · rw [h, regAfterReset, hr, fieldOf_wordOf _ hd hf, hk, if_neg Bool.false_ne_true]
  · rw [h, regReset, hr, fieldOf_wordOf _ hd hf]

end

/-! ### A device reset (R13, R416) -/

/-- The registers' reset sets the mode to BOOT. -/
theorem mode_resetRegisters (d : Dev) : d.resetRegisters.mode = modeBoot := by
  have h : Dev.mode { d with io := ioReset d.io } = modeBoot :=
    fieldOf_ioReset (r := .SYSCTL_STAT) (ix := []) (f := { lo := 0, w := 3, acc := .ro }) rfl (by decide) (by decide)
      (fun _ => rfl)
  unfold Dev.resetRegisters
  extract_lets old d1 d2
  have h2 : d2.mode = d1.mode := by
    unfold d2
    split
    · exact fld_setFld_apart _ _ (by decide)
    · rfl
  exact (fld_setFld_apart _ _ (by decide)).trans (h2.trans h)

/-- The supply and the retained fail counts of `e` are those of `d`. -/
structure Dev.SameSupply (d e : Dev) : Prop where
  power : e.power = d.power
  actFail : e.persist.actFail = d.persist.actFail
  altFail : e.persist.altFail = d.persist.altFail

theorem Dev.SameSupply.refl (d : Dev) : d.SameSupply d := ⟨rfl, rfl, rfl⟩

theorem Dev.SameSupply.of_butMode {f : Dev} (h : d.SameSupply e) (he : f.butMode = e.butMode) : d.SameSupply f :=
  ⟨(power_of_butMode he).trans h.power, (congrArg Persist.actFail (persist_of_butMode he)).trans h.actFail,
    (congrArg Persist.altFail (persist_of_butMode he)).trans h.altFail⟩

theorem Dev.SameSupply.ite {f : Dev} {c : Prop} {_ : Decidable c} (he : d.SameSupply e) (hf : d.SameSupply f) :
    d.SameSupply (if c then e else f) := by
  split
  · exact he
  · exact hf

theorem Dev.SameSupply.setFld {f : Fld} {x : Nat} (h : d.SameSupply e) : d.SameSupply (e.setFld f x) :=
  ⟨h.power, h.actFail, h.altFail⟩

theorem Dev.SameSupply.sealPage {bad : Nat} (h : d.SameSupply e) : d.SameSupply (e.sealPage bad) :=
  h.of_butMode (butMode_of_butJournal (sealPage_frame e bad).1)

theorem Dev.SameSupply.journal {type : Nat} {args : List Nat} {body : List Byte} (h : d.SameSupply e) :
    d.SameSupply (e.journal type args body) := h.of_butMode (butMode_of_butJournal (journal_frame e type args body).1)

theorem Dev.SameSupply.assertForce (h : d.SameSupply e) : d.SameSupply e.assertForce :=
  h.of_butMode (assertForce_frame e).1

theorem Dev.SameSupply.withPairState {x : List (Nat × Nat)} (h : d.SameSupply e) :
    d.SameSupply { e with persist := { e.persist with pairState := x } } := ⟨h.power, h.actFail, h.altFail⟩

theorem Dev.SameSupply.fencePending {p : Nat} (h : d.SameSupply e) : d.SameSupply (e.fencePending p) :=
  .ite h.setFld.withPairState.journal h

theorem Dev.SameSupply.resetRegisters (h : d.SameSupply e) : d.SameSupply e.resetRegisters := by
  unfold Dev.resetRegisters
  extract_lets old d1
  have h1 : d.SameSupply d1 := ⟨h.power, h.actFail, h.altFail⟩
  exact .setFld (.ite h1.setFld h1)

/-- A device reset sends the device back to BOOT with the drive blocks at their reset values, nothing unsealed, no
power-fail sequence, and the fail counts and the rest of the supply as they were. -/
theorem deviceReset_restarts (d : Dev) (trig : Nat) :
    (d.deviceReset trig).backInBoot = true ∧ (d.deviceReset trig).drive = {} ∧ (d.deviceReset trig).nvs.opened = [] ∧
    (d.deviceReset trig).power = { d.power with pfStart := none, cut := false } ∧
    (d.deviceReset trig).persist.actFail = d.persist.actFail ∧
    (d.deviceReset trig).persist.altFail = d.persist.altFail := by
  unfold Dev.deviceReset
  extract_lets d1 d2 d3
  have h1 : d.SameSupply d1 := foldl_keeps d.SameSupply _ (fun _ _ h => h.fencePending) (List.range 16) d (.refl d)
  have h3 : d.SameSupply d3 := .ite h1.resetRegisters.setFld h1.resetRegisters
  have hmode : d3.mode = modeBoot := by
    unfold d3
    split
    · exact (fld_setFld_apart _ _ (by decide)).trans (mode_resetRegisters d1)
    · exact mode_resetRegisters d1
  clear_value d3
  refine ⟨?_, rfl, rfl, congrArg (fun p : PowerSt => { p with pfStart := none, cut := false }) h3.power, h3.actFail,
    h3.altFail⟩
  rw [Dev.backInBoot, Bool.and_true, decide_eq_true_eq]
  exact hmode

/-- A PWM group is at its safe levels where the drive blocks are at their reset values. -/
theorem safe_of_drive_reset (h : d.drive = {}) (g : Nat) : (d.group g).safe = true := by
  rw [Dev.group, h]
  rfl

/-- A reset whose cause is kept is a device reset, after the force line, beside what the island keeps. -/
theorem keptReset_eq (d : Dev) (input detail trig : Nat) :
    ∃ x, d.keptReset input detail trig = { d.assertForce.deviceReset trig with island := x } := ⟨_, rfl⟩

/-- A reset whose cause is kept restarts the device as a device reset does. -/
theorem keptReset_restarts (d : Dev) (input detail trig : Nat) :
    (d.keptReset input detail trig).backInBoot = true ∧ (d.keptReset input detail trig).drive = {} ∧
    (d.keptReset input detail trig).power = { d.power with pfStart := none, cut := false } := by
  obtain ⟨x, hx⟩ := keptReset_eq d input detail trig
  have h := deviceReset_restarts d.assertForce trig
  rw [power_of_butMode (assertForce_frame d).1] at h
  rw [hx]
  generalize d.assertForce.deviceReset trig = e at h
  obtain ⟨hboot, hdrive, -, hpower, -, -⟩ := h
  exact ⟨hboot, hdrive, hpower⟩

end
end Sys2Proof.Machine
end

section
/-! PROOFS. StopInputs: the supply outputs, the loss of a clock and the safe-stop inputs
(`Obligations.SuppliesAndStopInputs`), and that RUN is refused while an input is de-energised
(`Obligations.SafeStopRefusesRun`). -/

namespace Sys2Proof.Machine

section
variable {d : Dev}

/-! ### The level of an input (R62) -/

theorem energises_high {x : StopLevel} {old : Bool} (hv : 150 ≤ x.dv) (hi : 2000 ≤ x.ua) : energises x old = true :=
  if_pos ⟨hv, hi⟩

theorem energises_low {x : StopLevel} {old : Bool} (h : x.dv ≤ 50 ∨ x.ua ≤ 500) : energises x old = false := by
  unfold energises
  rw [if_neg (by omega), if_pos h]

theorem energises_between {x : StopLevel} {old : Bool} (hv : 50 < x.dv) (hi : 500 < x.ua)
    (h : x.dv < 150 ∨ x.ua < 2000) : energises x old = old := by
  unfold energises
  rw [if_neg (by omega), if_neg (by omega)]

/-- What a level at an input leaves of its state, whatever it was (R62). -/
theorem energises_level {x : StopLevel} {old on : Bool} (h : on = energises x old) :
    (150 ≤ x.dv ∧ 2000 ≤ x.ua → on = true) ∧ (x.dv ≤ 50 ∨ x.ua ≤ 500 → on = false) ∧
    (50 < x.dv → 500 < x.ua → (x.dv < 150 ∨ x.ua < 2000) → on = old) := by
  subst h
  exact ⟨fun h => energises_high h.1 h.2, energises_low, energises_between⟩

/-- What a level at an input can do: nothing, where the input keeps its state; or it changes the input's state, with the
tick since which the input is de-energised, and what is held of the inputs' difference. -/
theorem setSstop_cases (d : Dev) (i : Nat) (x : StopLevel) :
    (energises x (d.energised i) = d.energised i ∧ d.setSstop i x = d) ∨
    (energises x (d.energised i) ≠ d.energised i ∧ ∃ since told, d.setSstop i x = { d with island := { d.island with
      sstop := arrSet false d.island.sstop i (energises x (d.energised i))
      lowSince := if energises x (d.energised i) then d.island.lowSince else arrSet 0 d.island.lowSince i d.ticks
      differSince := since, differTold := told } }) := by
  unfold Dev.setSstop
  extract_lets old on l e
  by_cases h : on = old
  · exact .inl ⟨h, if_pos h⟩
  · refine .inr ⟨h, ?_⟩
    rw [if_neg h]
    split
    · exact ⟨_, _, rfl⟩
    · exact ⟨_, _, rfl⟩

/-- An input at which a level is applied takes the state that the level gives it. -/
theorem energised_setSstop (d : Dev) (i : Nat) (x : StopLevel) :
    (d.setSstop i x).energised i = energises x (d.energised i) := by
  rcases setSstop_cases d i x with ⟨hx, h⟩ | ⟨-, since, told, h⟩
  · rw [h, hx]
  · rw [h]
    exact arrGet_arrSet_same _ _ _ _

/-- A level at an input changes the state of the inputs alone. -/
theorem setSstop_frame (d : Dev) (i : Nat) (x : StopLevel) :
    d.setSstop i x = { d with island := { d.island with
      sstop := (d.setSstop i x).island.sstop, lowSince := (d.setSstop i x).island.lowSince,
      differSince := (d.setSstop i x).island.differSince, differTold := (d.setSstop i x).island.differTold } } := by
  rcases setSstop_cases d i x with ⟨-, h⟩ | ⟨-, since, told, h⟩ <;> rw [h]

/-- An input that a level de-energises is so since now, unless it was before. -/
theorem lowSince_setSstop {i : Nat} {x : StopLevel} (hx : energises x (d.energised i) = false) :
    arrGet 0 (d.setSstop i x).island.lowSince i = if d.energised i then d.ticks else arrGet 0 d.island.lowSince i := by
  rcases setSstop_cases d i x with ⟨hsame, h⟩ | ⟨hnew, since, told, h⟩
  · rw [h, ← hsame, hx, if_neg Bool.false_ne_true]
  · rw [h, hx, if_neg Bool.false_ne_true, if_pos (by simpa [hx] using hnew.symm)]
    exact arrGet_arrSet_same _ _ _ _

/-- An input trips when it was and stays de-energised, for longer than its filter time (R63): one that was energised has
been de-energised for no time. -/
theorem sstopTrips_setSstop (d : Dev) (i : Nat) (x : StopLevel) :
    (d.setSstop i x).sstopTrips i = true ↔ d.energised i = false ∧ (d.setSstop i x).energised i = false ∧
      arrGet 0 d.island.lowSince i + d.fld SAFEISL_SSTOP_FILT * 30000 < d.ticks := by
  have hfilt : (d.setSstop i x).sstopFilter = d.fld SAFEISL_SSTOP_FILT * 30000 := by rw [setSstop_frame]; rfl
  have hticks : (d.setSstop i x).ticks = d.ticks := by rw [setSstop_frame]
  rw [Dev.sstopTrips, hfilt, hticks, energised_setSstop]
  cases hx : energises x (d.energised i) with
  | true => simp
  | false =>
    rw [lowSince_setSstop hx]
    cases d.energised i with
    | true => simp
    | false => simp

/-! ### SSTOP (R63) -/

theorem held_setSstop (d : Dev) (i : Nat) (x : StopLevel) : (d.setSstop i x).held = d.held := by
  rw [setSstop_frame]
  rfl

theorem sstop_of_trip {i : Nat} {x : StopLevel} (hheld : d.held = false) (h : (d.setSstop i x).sstopTrips i = true) :
    sstop i x d = ((d.setSstop i x).present fiSstop i).safeStopCause trigSstop := by
  simp only [sstop, held_setSstop, hheld, h, Bool.not_false, Bool.and_self, if_true]

theorem sstop_of_not_trip {i : Nat} {x : StopLevel} (h : ¬ (d.held = false ∧ (d.setSstop i x).sstopTrips i = true)) :
    sstop i x d = d.setSstop i x := by
  simpa only [sstop, held_setSstop, Bool.and_eq_true, Bool.not_eq_true', ite_eq_right_iff] using fun k => absurd k h

theorem sstop_of_butMode {e : Dev} (h : e.butMode = d.butMode) : e.island.sstop = d.island.sstop :=
  show e.butMode.island.sstop = d.butMode.island.sstop from congrArg (fun f : Dev => f.island.sstop) h

/-- SSTOP leaves the input at its level: the trip changes no input. -/
theorem energised_sstop (d : Dev) (i : Nat) (x : StopLevel) :
    (sstop i x d).energised i = energises x (d.energised i) := by
  rw [← energised_setSstop]
  by_cases h : d.held = false ∧ (d.setSstop i x).sstopTrips i = true
  · have hs := sstop_of_butMode (safeStopCause_frame ((d.setSstop i x).present fiSstop i) trigSstop).1
    rw [sstop_of_trip h.1 h.2, Dev.energised, hs]
    rfl
  · rw [sstop_of_not_trip h]

/-! ### Commands refused (R421, R423) -/

/-- A command outside its modes or without its conditions is refused. -/
theorem judge_refused {code arg : Nat} (h : permittedIn code d.mode = false ∨ d.conditionsMet code arg = false) :
    (d.judge code arg).2 = (d.refuse code (protectedCode code)).cmdStat code cmdRefused := by
  have hc : (!(permittedIn code d.mode) || !(d.conditionsMet code arg) || (d.nvs.full && protectedCode code)) = true :=
    by rcases h with h | h <;> simp [h]
  rw [Dev.judge, if_pos hc]

/-- What judging a command reports of it. -/
theorem fld_status_cmdStat (d : Dev) (code : Nat) {status : Nat} (h : status < 256) :
    (d.cmdStat code status).fld SYSCTL_CMDSTAT_STATUS = status := by
  rw [Dev.cmdStat, fld_setFld_apart _ _ (by decide), fld_setFld_same _ _ (by decide)]
  exact Nat.mod_eq_of_lt h

/-- A refusal leaves the mode. -/
theorem mode_refuse_cmdStat (d : Dev) (code : Nat) (prot : Bool) (status : Nat) :
    ((d.refuse code prot).cmdStat code status).mode = d.mode :=
  ((cmdStat_frame _ code status).2.2.2.fld SYSCTL_STAT_MODE (by decide)).trans
    ((refuse_frame d code prot).2.fld SYSCTL_STAT_MODE (by decide))

/-- A command of R421 that comes by a way that may issue it, while no other is carried out, is judged (R420). -/
theorem issueCommand_judged {src : CmdSrc} {code : Nat} (arg : Nat) (hcode : 1 ≤ code ∧ code ≤ 8)
    (hmay : d.mayIssue src code = true) (hfree : d.carrying = false) :
    d.issueCommand src code arg = (d.judge code arg).2 := by
  have hknown : (code = 0 || decide (8 < code)) = false := by simp; omega
  rw [Dev.issueCommand, hfree, if_neg Bool.false_ne_true]
  cases src with
  | register =>
    have hprot : protectedCode code = false := by simpa [Dev.mayIssue] using hmay
    simp [Dev.carryOut, hknown, hprot]
  | signed role via =>
    have hright : rightOf code role d.lcs d.persist.opInstall = true := hmay
    simp [Dev.carryOut, hknown, hright]

/-- The conditions of RUN are not met while a safe-stop input is de-energised (R423). -/
theorem conditionsMet_run_of_low (i : Fin 2) (arg : Nat) (h : d.energised i = false) :
    d.conditionsMet 1 arg = false := by
  have hrun : d.conditionsMet 1 arg = d.runAllowed := rfl
  rw [hrun, Dev.runAllowed]
  fin_cases i
  · simp [show d.energised 0 = false from h]
  · simp [show d.energised 1 = false from h]

end

/-- Settles O32: the level of an input is no mode, and a RUN that finds an input low is judged and refused. -/
theorem safeStopRefusesRun : Obligations.SafeStopRefusesRun := by
  intro s i
  constructor
  · intro x hm
    refine completes_onLine (f := fun d => d.setSstop i x) rfl ?_
    rw [setSstop_frame]
    exact hm
  · intro src hmay hfree hlow
    refine completes_onDev (f := fun d => d.issueCommand src 1 0) rfl fun _ => ?_
    rw [issueCommand_judged 0 (by decide) hmay hfree, judge_refused (.inr (conditionsMet_run_of_low i 0 hlow))]
    exact ⟨fld_status_cmdStat _ _ (by decide), mode_refuse_cmdStat _ _ _ _⟩

/-- Settles O4: a supply's flag and switch, a clock's presentation, and the trip of an input that stays de-energised. -/
theorem suppliesAndStopInputs : Obligations.SuppliesAndStopInputs := by
  refine ⟨fun s => ⟨?overload, ?v5on, ?v3on, ?clock⟩, ?inputs⟩
  case overload =>
    intro v5
    have hflag : (s.dev.flag POWER_ISTAT_SUPOVL).fld POWER_ISTAT_SUPOVL = 1 := fld_setFld_same s.dev 1 (by decide)
    refine completes_onDev rfl fun _ => ⟨hflag, ?_, rfl, fun a ha =>
      word_setFld_ne s.dev POWER_ISTAT_SUPOVL 1 (List.ne_of_not_mem_cons ha)⟩
    cases v5 <;> exact ⟨rfl, rfl⟩
  case v5on =>
    exact completes_onDev (f := fun d => { d with power := { d.power with v5off := false } }) rfl fun _ => rfl
  case v3on =>
    exact completes_onDev (f := fun d => { d with power := { d.power with v3off := false } }) rfl fun _ => rfl
  case clock =>
    intro c
    refine completes_onDev rfl fun _ => ?_
    cases c with
    | sysPll => exact ⟨(Dev.awaits_present _ _ (by decide)).hasFault, rfl⟩
    | ethPll => exact ⟨(Dev.awaits_present _ _ (by decide)).hasFault, rfl⟩
    | pairSynth n => exact ⟨(Dev.awaits_present _ _ (by omega)).hasFault, rfl⟩
    | refosc => exact ⟨(Dev.awaits_present _ _ (by decide)).hasFault, rfl⟩
  case inputs =>
    intro s i x d level over' inputOnly
    refine ⟨?sstop, ?discrep, ?reenergised⟩
    case sstop =>
      have hover : over' (sstop i x d) ↔ d.held = false ∧ (d.setSstop i x).sstopTrips i = true := by
        rw [sstopTrips_setSstop, energised_setSstop, ← energised_sstop]
        exact ⟨fun ⟨h1, h2, h3, h4⟩ => ⟨h4, h1, h2, h3⟩, fun ⟨h4, h1, h2, h3⟩ => ⟨h1, h2, h3, h4⟩⟩
      refine completes_onLine rfl ⟨energises_level (energised_sstop _ _ _), ?_, ?_⟩
      · intro hno
        rw [sstop_of_not_trip (mt hover.2 hno)]
        exact setSstop_frame _ _ _
      · intro hyes
        obtain ⟨hheld, htrip⟩ := hover.1 hyes
        have hmode : ((d.setSstop i x).present fiSstop i).mode = d.mode := by rw [setSstop_frame]; rfl
        have hstop := safeStopCause_stops ((d.setSstop i x).present fiSstop i) trigSstop
        rw [running_of_mode hmode, hmode] at hstop
        rw [sstop_of_trip hheld htrip]
        exact ⟨(Dev.awaits_present _ _ (by omega)).safeStopCause.hasFault, hstop⟩
    case discrep =>
      intro hne htold hlong
      have hdue : sstopDiscrep d =
          Dev.present { d with island := { d.island with differTold := true } } fiSstopDiscrep 0 :=
        if_pos (by simpa [htold, hlong] using hne)
      refine completes_onDev rfl fun _ => ?_
      rw [hdue]
      exact ⟨(Dev.awaits_present _ _ (by decide)).hasFault, rfl⟩
    case reenergised =>
      refine completes_onLine (f := fun d => d.setSstop i x) rfl
        ⟨energises_level (energised_setSstop _ _ _), ?_, setSstop_frame _ _ _⟩
      rw [setSstop_frame]
      rfl

end Sys2Proof.Machine
end

section
/-! PROOFS. Temperature: what a reading of the temperature sensors does at each threshold (R33,
`Obligations.TemperatureLimits`). -/

namespace Sys2Proof.Machine

section
variable {d e : Dev}

/-! ### A record of the island leaves the supply -/

theorem Dev.SameSupply.newRecord {n detail k code cls : Nat} (h : d.SameSupply e) :
    d.SameSupply (e.newRecord n detail k code cls) := by
  unfold Dev.newRecord
  extract_lets x d1 d2 d3 d4 u d5 d6
  have h4 : d.SameSupply d4 := h.setFld.setFld.setFld.setFld.setFld.setFld.setFld.setFld.setFld.setFld
  have h6 : d.SameSupply d6 := .setFld (.ite h4.setFld h4.setFld.setFld)
  exact .ite h6.journal h6

theorem Dev.SameSupply.withAbove {x : Nat} (h : d.SameSupply e) :
    d.SameSupply { e with island := { e.island with above := x } } := ⟨h.power, h.actFail, h.altFail⟩

theorem Dev.SameSupply.record {n detail k code : Nat} (h : d.SameSupply e) :
    d.SameSupply (e.record n detail k code) := by
  unfold Dev.record
  extract_lets cls _ d1 d2 x d3
  have h2 : d.SameSupply d2 := .setFld (.ite h.withAbove h)
  have h3 : d.SameSupply d3 := .ite h2.setFld h2.newRecord
  exact .ite h3.setFld h3

/-! ### The dies at or above a temperature -/

variable {dies : List Int} {limit : Int}

theorem mem_hotDies {i : Nat} : i ∈ hotDies dies limit ↔ i < 24 ∧ ∃ t, dies[i]? = some t ∧ limit ≤ t := by
  rw [hotDies, List.mem_filter, List.mem_range]
  cases dies[i]? <;> simp

/-- With its 24 sensors read, a die is hot exactly where one reads the limit or more. -/
theorem hotDies_eq_nil_iff (hlen : dies.length = 24) : hotDies dies limit = [] ↔ ∀ t ∈ dies, t < limit := by
  rw [List.eq_nil_iff_forall_not_mem]
  constructor
  · intro h t ht
    obtain ⟨i, hi, rfl⟩ := List.mem_iff_getElem.1 ht
    exact lt_of_not_ge fun hge => h i (mem_hotDies.2 ⟨hlen ▸ hi, _, List.getElem?_eq_getElem hi, hge⟩)
  · intro h i hi
    obtain ⟨-, t, ht, hge⟩ := mem_hotDies.1 hi
    exact absurd hge (not_le.2 (h t (List.mem_of_getElem? ht)))

/-! ### Presentations for every hot die -/

theorem Dev.Awaits.presentAll {input n v : Nat} (h : d.Awaits n v) :
    ∀ l : List Nat, (l.foldl (fun d i => d.present input i) d).Awaits n v := fun l =>
  foldl_keeps (Dev.Awaits · n v) _ (fun _ _ h => h.present) l d h

/-- Each of the dies for which an input is presented waits for the island. -/
theorem Dev.awaits_presentAll {input i : Nat} (hi : i < 65536) {l : List Nat} (h : i ∈ l) (d : Dev) :
    (l.foldl (fun d i => d.present input i) d).Awaits input i := by
  induction l generalizing d with
  | nil => cases h
  | cons j l ih =>
    rw [List.foldl_cons]
    rcases List.mem_cons.1 h with rfl | h
    · exact (d.awaits_present input hi).presentAll l
    · exact ih h _

/-- Presentations leave the registers and the supply. -/
theorem presentAll_frame (input : Nat) (l : List Nat) (d : Dev) :
    (l.foldl (fun d i => d.present input i) d).io = d.io ∧ (l.foldl (fun d i => d.present input i) d).power = d.power :=
  ⟨foldl_same Dev.io (fun d i => d.present input i) (fun _ _ => rfl) l d,
    foldl_same Dev.power (fun d i => d.present input i) (fun _ _ => rfl) l d⟩

/-! ### A reading (R33) -/

/-- The device with a reading taken, its warning flags set and THERM_HI presented for every hot die. -/
def Dev.warmed (d : Dev) (base : Int) (dies : List Int) : Dev :=
  let d := { d with power := { d.power with base := base, dies := dies.take 24 } }
  let d := if 1680 < base then d.flag POWER_ISTAT_THWARN else d
  let d := if (hotDies dies 2000).isEmpty then d else d.flag POWER_ISTAT_THHI
  (hotDies dies 2000).foldl (fun d i => d.present fiThermHi i) d

/-- The device reset by a critical die, which holds it. -/
def Dev.criticalReset (d : Dev) (i : Nat) : Dev :=
  { d.keptReset fiThermCrit i trigTherm with
    power := { (d.keptReset fiThermCrit i trigTherm).power with hotReset := true } }

theorem temperature_off {base : Int} (h : d.power.converter = false) : temperature base dies d = d := by
  simp [temperature, h]

/-- While a die holds the device in reset, a reading only judges whether it still does. -/
theorem temperature_hot {base : Int} (hon : d.power.converter = true) (h : d.power.hotReset = true) :
    temperature base dies d = { d with power := { d.power with
      base := base, dies := dies.take 24, hotReset := (dies.take 24).any (fun t => decide (1840 < t)) } } := by
  simp [temperature, hon, h]

/-- Outside a temperature reset a reading warns; from 135.0 °C on it is recorded as well and resets the device. -/
theorem temperature_cold {base : Int} (hon : d.power.converter = true) (h : d.power.hotReset = false) :
    (hotDies dies 2160 = [] → temperature base dies d = d.warmed base dies) ∧
    ∀ i l, hotDies dies 2160 = i :: l →
      temperature base dies d = ((d.warmed base dies).record fiThermCrit i 1 5).criticalReset i := by
  have hoff : ¬ (!d.power.converter) = true := by simp [hon]
  have hcold : ¬ d.power.hotReset = true := by simp [h]
  unfold temperature
  rw [if_neg hoff]
  extract_lets _ d1 _ d2 hi d3 d4
  rw [if_neg hcold]
  have hwarmed : d4 = d.warmed base dies := rfl
  clear_value d4
  subst hwarmed
  constructor
  · intro hnone
    rw [hnone]
  · intro i l hcrit
    rw [hcrit]
    rfl

/-- A warning takes the reading and leaves the rest of the supply and the registers but ISTAT. -/
theorem warmed_frame (d : Dev) (base : Int) (dies : List Int) :
    (d.warmed base dies).power = { d.power with base := base, dies := dies.take 24 } ∧
    (d.warmed base dies).mode = d.mode := by
  unfold Dev.warmed
  extract_lets _ d1 d2 d3
  obtain ⟨hio, hpower⟩ := presentAll_frame fiThermHi (hotDies dies 2000) d3
  have h2 : d2.power = d1.power ∧ d1.Regs d2 [0x160014] := by
    unfold d2
    split
    · exact ⟨rfl, (Dev.Regs.refl d1 _).setFld _ _ (by decide)⟩
    · exact ⟨rfl, .refl d1 _⟩
  have h3 : d3.power = d1.power ∧ d1.Regs d3 [0x160014] := by
    unfold d3
    split
    · exact h2
    · exact ⟨h2.1, h2.2.setFld _ _ (by decide)⟩
  exact ⟨hpower.trans h3.1, (fld_of_io hio SYSCTL_STAT_MODE).trans (h3.2.fld SYSCTL_STAT_MODE (by decide))⟩

/-- The flags of a warning (R33). -/
theorem warmed_flags (d : Dev) (base : Int) (dies : List Int) :
    (1680 < base → (d.warmed base dies).fld POWER_ISTAT_THWARN = 1) ∧
    (hotDies dies 2000 ≠ [] → (d.warmed base dies).fld POWER_ISTAT_THHI = 1) := by
  unfold Dev.warmed
  extract_lets _ d1 d2 d3
  have hio := (presentAll_frame fiThermHi (hotDies dies 2000) d3).1
  rw [fld_of_io hio, fld_of_io hio]
  constructor
  · intro h
    have h2 : d2.fld POWER_ISTAT_THWARN = 1 := by
      unfold d2
      rw [if_pos h]
      exact fld_setFld_same _ _ (by decide)
    unfold d3
    split
    · exact h2
    · exact (fld_setFld_apart _ _ (by decide)).trans h2
  · intro h
    unfold d3
    rw [if_neg (by simpa using h)]
    exact fld_setFld_same _ _ (by decide)

/-- With every die below 125.0 °C a warning presents nothing. -/
theorem warmed_island {base : Int} (h : hotDies dies 2000 = []) : (d.warmed base dies).island = d.island := by
  unfold Dev.warmed
  extract_lets _ d1 d2 d3
  rw [h]
  unfold d3 d2
  split <;> split <;> rfl

/-- A warning presents THERM_HI for every hot die. -/
theorem warmed_awaits (d : Dev) (base : Int) {i : Nat} (h : i ∈ hotDies dies 2000) :
    (d.warmed base dies).Awaits fiThermHi i :=
  Dev.awaits_presentAll ((mem_hotDies.1 h).1.trans (by decide)) h _

/-- A critical reading resets the device, holds it, and keeps the reading. -/
theorem criticalReset_holds (d : Dev) (i : Nat) :
    (d.criticalReset i).backInBoot = true ∧ (d.criticalReset i).drive = {} ∧ (d.criticalReset i).power.hotReset = true ∧
    (d.criticalReset i).power.base = d.power.base ∧ (d.criticalReset i).power.dies = d.power.dies := by
  have h := keptReset_restarts d fiThermCrit i trigTherm
  unfold Dev.criticalReset
  generalize d.keptReset fiThermCrit i trigTherm = e at h
  obtain ⟨hboot, hdrive, hpower⟩ := h
  have hkept : e.power.base = d.power.base ∧ e.power.dies = d.power.dies := by simp [hpower]
  exact ⟨hboot, hdrive, rfl, hkept⟩

end

/-- Settles O3: by the four cases of a reading, without supplies, held, warning, critical. -/
theorem temperatureLimits : Obligations.TemperatureLimits := by
  intro s base dies hlen
  have htake : dies.take 24 = dies := List.take_of_length_le hlen.le
  refine completes_onLine rfl ⟨temperature_off, fun hon => ?_⟩
  cases hhot : s.dev.power.hotReset with
  | true =>
    rw [temperature_hot hon hhot, htake]
    exact ⟨rfl, rfl, fun _ => ⟨rfl, rfl⟩, nofun, nofun⟩
  | false =>
    obtain ⟨hpower, hmode⟩ := warmed_frame s.dev base dies
    rw [htake] at hpower
    cases hcrit : hotDies dies 2160 with
    | nil =>
      obtain ⟨hwarn, hhi⟩ := warmed_flags s.dev base dies
      have hnone : ¬ ∃ t ∈ dies, 2160 ≤ t := by simpa using (hotDies_eq_nil_iff hlen).1 hcrit
      rw [(temperature_cold hon hhot).1 hcrit]
      refine ⟨by rw [hpower], by rw [hpower], nofun, fun _ _ => ⟨by rw [hpower, hhot], hmode, hwarn, ?_, ?_, ?_⟩,
        fun _ h => absurd h hnone⟩
      · rintro ⟨t, ht, hge⟩
        exact hhi fun h => absurd hge (not_le.2 ((hotDies_eq_nil_iff hlen).1 h t ht))
      · intro h
        exact warmed_island ((hotDies_eq_nil_iff hlen).2 h)
      · intro i t hi ht
        refine (warmed_awaits s.dev base (mem_hotDies.2 ⟨?_, t, hi, ht⟩)).hasFault
        exact hlen ▸ (List.getElem?_eq_some_iff.1 hi).1
    | cons i l =>
      obtain ⟨hboot, hdrive, hheld, hbase, hdies⟩ :=
        criticalReset_holds ((s.dev.warmed base dies).record fiThermCrit i 1 5) i
      rw [((Dev.SameSupply.refl _).record).power, hpower] at hbase hdies
      rw [(temperature_cold hon hhot).2 i l hcrit]
      refine ⟨hbase, hdies, nofun, fun _ h => ?_, fun _ _ => ⟨hheld, hboot, fun g _ => safe_of_drive_reset hdrive g⟩⟩
      exact absurd ((hotDies_eq_nil_iff hlen).2 h) (by simp [hcrit])

end Sys2Proof.Machine
end

section
/-! PROOFS. Ports: what a port's voltage, its loss and a power failure leave (R44, R45, R51, R52, R54,
`Obligations.PortsAndPowerFail`). -/

namespace Sys2Proof.Machine

section
variable {d e : Dev}

/-! ### LOWIN (R52) -/

theorem satInc_eq_min {top x : Nat} (h : x ≤ top) : satInc top x = min top (x + 1) := by
  unfold satInc
  split <;> omega

/-- A count advances by one and stays at its field's highest value. -/
theorem fld_count {f : Fld} (hf : f.Fits) : (d.count f).fld f = min (2 ^ f.w - 1) (d.fld f + 1) := by
  have hlt := fld_lt d f
  rw [count_eq, fld_setFld_same _ _ hf, satInc_eq_min (by omega), Nat.mod_eq_of_lt (by omega)]

/-- Noting LOWIN changes the registers STAT and PFCNT alone. -/
theorem noteLowin_frame (d : Dev) :
    d.noteLowin = { d with io := d.noteLowin.io } ∧ d.Regs d.noteLowin [0x160000, 0x160008] := by
  unfold Dev.noteLowin
  split
  · split
    · exact ⟨rfl, .refl d _⟩
    · exact ⟨rfl, ((Dev.Regs.refl d _).setFld _ _ (by decide)).setFld _ _ (by decide)⟩
  · exact ⟨rfl, (Dev.Regs.refl d _).setFld _ _ (by decide)⟩

/-- STAT.LOWIN follows the port voltages. -/
theorem on_lowin_noteLowin (d : Dev) : d.noteLowin.on POWER_STAT_LOWIN = d.power.low := by
  unfold Dev.noteLowin
  cases hlow : d.power.low with
  | true =>
    cases hon : d.on POWER_STAT_LOWIN with
    | true => exact hon
    | false =>
      have h : (d.flag POWER_STAT_LOWIN).fld POWER_STAT_LOWIN = 1 := fld_setFld_same _ _ (by decide)
      exact bne_iff_ne.2 (((fld_setFld_apart _ _ (by decide)).trans h).trans_ne one_ne_zero)
  | false =>
    have h : (d.setFld POWER_STAT_LOWIN 0).fld POWER_STAT_LOWIN = 0 := fld_setFld_same _ _ (by decide)
    exact bne_eq_false_iff_eq.2 h

/-- Each entry into the condition counts. -/
theorem lowcnt_noteLowin (d : Dev) :
    d.noteLowin.fld POWER_PFCNT_LOWCNT = if d.noteLowin.on POWER_STAT_LOWIN && !(d.on POWER_STAT_LOWIN)
      then min 65535 (d.fld POWER_PFCNT_LOWCNT + 1) else d.fld POWER_PFCNT_LOWCNT := by
  rw [on_lowin_noteLowin]
  unfold Dev.noteLowin
  cases hlow : d.power.low with
  | true =>
    cases hon : d.on POWER_STAT_LOWIN with
    | true => rfl
    | false =>
      have hflag : (d.flag POWER_STAT_LOWIN).fld POWER_PFCNT_LOWCNT = d.fld POWER_PFCNT_LOWCNT :=
        fld_setFld_apart _ _ (by decide)
      exact (fld_count (by decide)).trans (by rw [hflag]; rfl)
  | false => exact fld_setFld_apart _ _ (by decide)

/-! ### Port voltages (R44, R52) -/

/-- The device with its supply at `p`, LOWIN noted while the converter runs: what every command that changes a port's
voltage comes to. -/
def Dev.notePorts (d : Dev) (p : PowerSt) : Dev :=
  if d.power.converter then Dev.noteLowin { d with power := p } else { d with power := p }

theorem setPort_eq_notePorts (d : Dev) (b : Bool) (v : Nat) :
    d.setPort b v = d.notePorts (d.power.setPort b (v % 65536) d.ticks) := rfl

theorem setPorts_eq_notePorts (d : Dev) (va vb : Nat) :
    d.setPorts va vb = d.notePorts ((d.power.setPort false va d.ticks).setPort true vb d.ticks) := rfl

@[simp] theorem notePorts_power (d : Dev) (p : PowerSt) : (d.notePorts p).power = p := by
  unfold Dev.notePorts
  split
  · rw [(noteLowin_frame _).1]
  · rfl

/-- It changes the supply and, in the registers, STAT and PFCNT. -/
theorem notePorts_frame (d : Dev) (p : PowerSt) :
    d.notePorts p = { d with io := (d.notePorts p).io, power := p } ∧ d.Regs (d.notePorts p) [0x160000, 0x160008] := by
  have h0 : d.Regs { d with power := p } [0x160000, 0x160008] := (Dev.Regs.refl d _).same rfl
  unfold Dev.notePorts
  split
  · obtain ⟨h, hregs⟩ := noteLowin_frame { d with power := p }
    exact ⟨h, h0.trans hregs⟩
  · exact ⟨rfl, h0⟩

theorem notePorts_off (p : PowerSt) (h : d.power.converter = false) : (d.notePorts p).io = d.io := by
  rw [Dev.notePorts, if_neg (by simp [h])]

theorem notePorts_on (p : PowerSt) (h : d.power.converter = true) :
    (d.notePorts p).on POWER_STAT_LOWIN = p.low ∧
    (d.notePorts p).fld POWER_PFCNT_LOWCNT = if (d.notePorts p).on POWER_STAT_LOWIN && !(d.on POWER_STAT_LOWIN)
      then min 65535 (d.fld POWER_PFCNT_LOWCNT + 1) else d.fld POWER_PFCNT_LOWCNT := by
  rw [Dev.notePorts, if_pos h]
  exact ⟨on_lowin_noteLowin _, lowcnt_noteLowin _⟩

/-- What every command leaves that gives port `b` of `d` the voltage `v`. -/
structure Dev.PortAt (d : Dev) (b : Bool) (v : Nat) (e : Dev) : Prop where
  va : e.power.va = if b then d.power.va else v
  vb : e.power.vb = if b then v else d.power.vb
  low : d.power.converter = true →
    e.on POWER_STAT_LOWIN = (decide (3300 ≤ max e.power.va e.power.vb) && decide (max e.power.va e.power.vb < 3600)) ∧
    e.fld POWER_PFCNT_LOWCNT = (if e.on POWER_STAT_LOWIN && !(d.on POWER_STAT_LOWIN)
      then min 65535 (d.fld POWER_PFCNT_LOWCNT + 1) else d.fld POWER_PFCNT_LOWCNT)
  off : d.power.converter = false → e.io = d.io
  rest : e = { d with io := e.io, power := e.power, island := { d.island with presented := e.island.presented } }
  words : d.SameWords e [0x160000, 0x160008, 0x160014]

theorem Dev.portAt_setPort (d : Dev) (b : Bool) {v : Nat} (hv : v < 65536) : d.PortAt b v (d.setPort b v) := by
  rw [setPort_eq_notePorts, Nat.mod_eq_of_lt hv]
  obtain ⟨hrest, hregs⟩ := notePorts_frame d (d.power.setPort b v d.ticks)
  constructor
  case va => rw [notePorts_power]; cases b <;> rfl
  case vb => rw [notePorts_power]; cases b <;> rfl
  case low =>
    intro hon
    have h := notePorts_on (d.power.setPort b v d.ticks) hon
    rwa [notePorts_power]
  case off => exact notePorts_off _
  case rest => rw [hrest]
  case words => exact fun a ha => hregs.word a fun h => ha (List.mem_append_left [0x160014] h)

/-- The flag and the presentation of a lost port leave its voltage and what follows from it. -/
theorem Dev.PortAt.lost {b : Bool} {v i w : Nat} (h : d.PortAt b v e) (hon : d.power.converter = true) :
    d.PortAt b v ((e.flag POWER_ISTAT_PORTLOSS).present i w) := by
  have hstat : ((e.flag POWER_ISTAT_PORTLOSS).present i w).on POWER_STAT_LOWIN = e.on POWER_STAT_LOWIN :=
    congrArg (· != 0) (fld_setFld_apart e (f := POWER_ISTAT_PORTLOSS) 1 (by decide))
  have hcnt : ((e.flag POWER_ISTAT_PORTLOSS).present i w).fld POWER_PFCNT_LOWCNT = e.fld POWER_PFCNT_LOWCNT :=
    fld_setFld_apart e (f := POWER_ISTAT_PORTLOSS) 1 (by decide)
  constructor
  case va => exact h.va
  case vb => exact h.vb
  case low =>
    rw [hstat, hcnt]
    exact h.low
  case off => exact fun hoff => absurd hon (by simp [hoff])
  case rest =>
    obtain ⟨io, p, l, he⟩ : ∃ io p l, e = { d with io := io, power := p, island := { d.island with presented := l } } :=
      ⟨_, _, _, h.rest⟩
    rw [he]
    rfl
  case words =>
    intro a ha
    exact (word_setFld_ne e POWER_ISTAT_PORTLOSS 1 fun hp => ha (by rw [hp]; decide)).trans (h.words a ha)

/-- PORT_LOSS gives the port its voltage, and in a device with its converter on reports the port lost, where it is. -/
theorem Dev.portAt_portLoss (d : Dev) (b : Bool) {v : Nat} (hv : v < 65536) (hon : d.power.converter = true) :
    d.PortAt b v (portLoss b v d) := by
  unfold portLoss
  extract_lets other e
  split
  · exact (d.portAt_setPort b hv).lost hon
  · exact d.portAt_setPort b hv

/-- A port whose loss the other outlives is reported (R45). -/
theorem portLoss_reports {b : Bool} {v : Nat} (hv : v < 3300) (hother : 3600 ≤ if b then d.power.va else d.power.vb) :
    (portLoss b v d).fld POWER_ISTAT_PORTLOSS = 1 ∧ (portLoss b v d).Awaits fiPortLoss (if b then 1 else 0) := by
  have hlost : v % 65536 < 3300 ∧ 3600 ≤ if b then d.power.va else d.power.vb := ⟨by omega, hother⟩
  unfold portLoss
  extract_lets other e
  rw [if_pos hlost]
  exact ⟨fld_setFld_same (f := POWER_ISTAT_PORTLOSS) e 1 (by decide), Dev.awaits_present _ _ (by cases b <;> decide)⟩

theorem setPort_island (d : Dev) (b : Bool) (v : Nat) : (d.setPort b v).island = d.island := by
  rw [setPort_eq_notePorts, (notePorts_frame _ _).1]

/-- In a device that is held PORT_LOSS is the fall of a port, and no more. -/
theorem execPortLoss_held {s : State} (b : Bool) (v : Nat) (h : s.dev.held = true) :
    execPortLoss b v s = s.onLine (fun d => d.setPort b v) := by
  simp [execPortLoss, h]

theorem execPortLoss_free {s : State} (b : Bool) (v : Nat) (h : s.dev.held = false) :
    execPortLoss b v s = s.onLine (portLoss b v) := by
  simp [execPortLoss, h]

/-! ### Power failure (R51, R54) -/

/-- The device with the power-fail sequence started, before the entry of it is journaled. -/
def Dev.failing (d : Dev) : Dev :=
  let d := { d with power := { d.power with pfStart := some d.ticks } }
  (((d.flag POWER_STAT_PFAIL).flag POWER_ISTAT_PFSTART).present fiPowerFail 0).produce { prod := 463 }

/-- What of the start of the sequence its journal entry leaves as it is. -/
structure Dev.Failing (d e : Dev) : Prop where
  pfail : e.fld POWER_STAT_PFAIL = 1
  pfstart : e.fld POWER_ISTAT_PFSTART = 1
  awaits : e.Awaits fiPowerFail 0
  produced : { prod := 463 } ∈ e.evt.produced
  power : e.power = { d.power with pfStart := some d.ticks }
  mode : e.mode = d.mode
  drive : e.drive = d.drive

theorem Dev.failing_failing (d : Dev) : d.Failing d.failing where
  pfail := (fld_setFld_apart (f := POWER_ISTAT_PFSTART) _ 1 (by decide)).trans
    (fld_setFld_same (f := POWER_STAT_PFAIL) _ 1 (by decide))
  pfstart := fld_setFld_same (f := POWER_ISTAT_PFSTART) _ 1 (by decide)
  awaits := ⟨(Dev.awaits_present (Dev.flag (Dev.flag { d with power := { d.power with pfStart := some d.ticks } }
    POWER_STAT_PFAIL) POWER_ISTAT_PFSTART) fiPowerFail (by decide)).hasFault⟩
  produced := List.mem_append_right _ (List.mem_singleton_self _)
  power := rfl
  mode := (fld_setFld_apart (f := POWER_ISTAT_PFSTART) _ 1 (by decide)).trans
    (fld_setFld_apart (f := POWER_STAT_PFAIL) _ 1 (by decide))
  drive := rfl

theorem Dev.Failing.journal {type : Nat} {args : List Nat} {body : List Byte} (h : d.Failing e) :
    d.Failing (e.journal type args body) := by
  obtain ⟨hbut, hregs⟩ := journal_frame e type args body
  have hbutMode := butMode_of_butJournal hbut
  constructor
  case pfail => exact (hregs.fld POWER_STAT_PFAIL (by decide)).trans h.pfail
  case pfstart => exact (hregs.fld POWER_ISTAT_PFSTART (by decide)).trans h.pfstart
  case awaits => exact h.awaits.journal
  case produced =>
    rw [evt_of_butMode hbutMode]
    exact h.produced
  case power => exact (power_of_butMode hbutMode).trans h.power
  case mode => exact (hregs.fld SYSCTL_STAT_MODE (by decide)).trans h.mode
  case drive => exact (drive_of_butJournal hbut).trans h.drive

/-- The ports as a power failure leaves them: with `hold` as they were, otherwise both without supply. -/
def Dev.failPorts (d : Dev) (hold : Bool) : Dev := if hold then d else d.setPorts 0 0

theorem failPorts_down (d : Dev) : (d.failPorts false).power.va = 0 ∧ (d.failPorts false).power.vb = 0 := by
  have h : d.failPorts false = d.setPorts 0 0 := rfl
  rw [h, setPorts_eq_notePorts, notePorts_power]
  exact ⟨rfl, rfl⟩

/-- The fall of the ports changes nothing else of the device but STAT and PFCNT. -/
theorem failPorts_frame (d : Dev) (hold : Bool) :
    d.failPorts hold = { d with io := (d.failPorts hold).io, power := (d.failPorts hold).power } ∧
    (d.failPorts hold).mode = d.mode := by
  cases hold with
  | true => exact ⟨rfl, rfl⟩
  | false =>
    have h : d.failPorts false = d.setPorts 0 0 := rfl
    rw [h, setPorts_eq_notePorts, notePorts_power]
    obtain ⟨hrest, hregs⟩ := notePorts_frame d ((d.power.setPort false 0 d.ticks).setPort true 0 d.ticks)
    exact ⟨hrest, hregs.fld SYSCTL_STAT_MODE (by decide)⟩

/-- A power failure outside a sequence and a commit starts the sequence, journals it, and drops the attempt. -/
theorem pfail_eq {hold : Bool} (hstart : d.power.pfStart = none) (hcommit : d.fld POWER_STAT_PFCOMMIT = 0) :
    ∃ x, x = (d.failPorts hold).failing.journal 0x10 [] ∧ pfail hold d = { x with
      nvs := { x.nvs with stoppedByPf := x.nvs.slotOp.isSome }, persist := { x.persist with attempt := none } } := by
  refine ⟨_, rfl, ?_⟩
  have hout : ¬ (d.power.pfStart.isSome || d.on POWER_STAT_PFCOMMIT) = true := by simp [hstart, Dev.on, hcommit]
  unfold pfail
  rw [if_neg hout]
  rfl

/-- The sequence that a power failure starts, its entry sealed unless the journal is full. -/
theorem pfail_starts {hold : Bool} (hstart : d.power.pfStart = none) (hcommit : d.fld POWER_STAT_PFCOMMIT = 0) :
    (d.failPorts hold).Failing (pfail hold d) ∧ (d.nvs.full = false → (pfail hold d).nvs.opened = []) := by
  obtain ⟨x, hx, hpfail⟩ := pfail_eq (hold := hold) hstart hcommit
  have hfull : (d.failPorts hold).nvs.full = d.nvs.full := by rw [(failPorts_frame d hold).1]
  have hopened : d.nvs.full = false → x.nvs.opened = [] := fun h => hx ▸ journal_opened [] [] rfl (hfull.trans h)
  have hfailing : (d.failPorts hold).Failing x := hx ▸ (Dev.failing_failing _).journal
  clear hx
  obtain ⟨hflag, hint, hawait, hevent, hpower, hmode, hdrive⟩ := hfailing
  rw [hpfail]
  exact ⟨⟨hflag, hint, ⟨hawait.hasFault⟩, hevent, hpower, hmode, hdrive⟩, hopened⟩

end

/-- Settles O1: a port's voltage and what follows from it, PORT_LOSS's report beside it, and the power-fail sequence. -/
theorem portsAndPowerFail : Obligations.PortsAndPowerFail := by
  refine ⟨?ports, ?pfail⟩
  case ports =>
    intro s b v hv c hc
    obtain ⟨hva, hvb, hlow, hoff, hrest, hwords⟩ := s.dev.portAt_setPort b hv
    have hisland := setPort_island s.dev b v
    simp only [List.mem_cons, List.not_mem_nil, or_false] at hc
    rcases hc with rfl | rfl | rfl
    · cases hheld : s.dev.held with
      | true =>
        exact completes_onLine (execPortLoss_held b v hheld)
          ⟨hva, hvb, hlow, fun _ => hisland, hoff, fun _ h => absurd (hheld.symm.trans h) nofun, hrest, hwords⟩
      | false =>
        have hon : s.dev.power.converter = true := by simpa [Dev.held] using (Bool.or_eq_false_iff.1 hheld).1
        obtain ⟨hva, hvb, hlow, hoff, hrest, hwords⟩ := s.dev.portAt_portLoss b hv hon
        refine completes_onLine (execPortLoss_free b v hheld)
          ⟨hva, hvb, hlow, fun h => absurd (hheld.symm.trans h) nofun, hoff, fun _ _ hlt hother => ?_, hrest, hwords⟩
        obtain ⟨hflag, hawait⟩ := portLoss_reports hlt hother
        exact ⟨hflag, hawait.hasFault⟩
    · exact completes_onLine (f := fun d => d.setPort b v) rfl
        ⟨hva, hvb, hlow, fun _ => hisland, hoff, nofun, hrest, hwords⟩
    · exact completes_onLine (f := fun d => d.setPort b v) rfl
        ⟨hva, hvb, hlow, fun _ => hisland, hoff, nofun, hrest, hwords⟩
  case pfail =>
    intro s hold hstart hcommit
    obtain ⟨hrest, hmode⟩ := failPorts_frame s.dev hold
    have hdown : hold = false → (s.dev.failPorts hold).power.va = 0 ∧ (s.dev.failPorts hold).power.vb = 0 := by
      rintro rfl
      exact failPorts_down s.dev
    refine completes_onLine (f := pfailLine hold) rfl ?_
    cases hheld : s.dev.held with
    | true =>
      have hline : pfailLine hold s.dev = s.dev.failPorts hold := by rw [pfailLine, if_pos hheld]; rfl
      rw [hline]
      exact ⟨fun _ => ⟨by rw [hrest], by rw [hrest], hmode⟩, hdown, nofun⟩
    | false =>
      have hline : pfailLine hold s.dev = pfail hold s.dev := by rw [pfailLine, hheld, if_neg Bool.false_ne_true]
      obtain ⟨⟨hflag, hint, hawait, hevent, hpower, hkept, hdrive⟩, hopened⟩ :=
        pfail_starts (hold := hold) hstart hcommit
      rw [hline]
      refine ⟨nofun, fun hh => ?_, fun _ => ⟨hflag, hint, hawait.hasFault, hevent, ?_, hopened, hkept.trans hmode, ?_⟩⟩
      · rw [hpower]
        exact hdown hh
      · rw [hpower, hrest]
      · exact hdrive.trans (by rw [hrest])

end Sys2Proof.Machine
end

section
/-! PROOFS. RideThrough: the end of RIDE, and what follows a committed power failure to the next power-on (R47, R48,
R57, R59 to R61, `Obligations.RideThroughOrCommit`). -/

namespace Sys2Proof.Machine

section
variable {d e : Dev} {t : Nat}

/-! ### The end of RIDE (R57) -/

/-- The device after a ride-through. -/
def Dev.riddenThrough (d : Dev) : Dev :=
  let d := { d with power := { d.power with pfStart := none } }
  (((d.setFld POWER_STAT_PFAIL 0).count POWER_PFCNT_RIDES).flag POWER_ISTAT_PFRIDE).settlePowerFail 0

/-- The device with its power failure committed, before the safe stop. -/
def Dev.committed (d : Dev) : Dev := (d.flag POWER_STAT_PFCOMMIT).settlePowerFail 1

/-- At the end of a RIDE without a commit the failure is ridden through or committed. -/
theorem rideEnd_eq (hstart : d.power.pfStart = some t) (hover : t + d.fld POWER_PFCFG_RIDE * 600 ≤ d.ticks)
    (hcommit : d.fld POWER_STAT_PFCOMMIT = 0) :
    rideEnd d = if d.fld POWER_PFCFG_RIDE != 0 && d.inputGood 12000 then d.riddenThrough
      else d.committed.safeStopCause trigPower := by
  have hrun : ¬ (!(d.elapsed t (d.fld POWER_PFCFG_RIDE * usTicks)) || d.on POWER_STAT_PFCOMMIT) = true := by
    simp [Dev.elapsed, Dev.on, hcommit, usTicks, hover]
  unfold rideEnd
  rw [hstart]
  exact if_neg hrun

/-- A ride-through clears PFAIL, counts, and leaves the mode, PFCOMMIT and the PWM groups. -/
theorem riddenThrough_leaves (d : Dev) :
    d.riddenThrough.fld POWER_STAT_PFAIL = 0 ∧ d.riddenThrough.fld POWER_ISTAT_PFRIDE = 1 ∧
    d.riddenThrough.fld POWER_PFCNT_RIDES = min 65535 (d.fld POWER_PFCNT_RIDES + 1) ∧ d.riddenThrough.mode = d.mode ∧
    d.riddenThrough.fld POWER_STAT_PFCOMMIT = d.fld POWER_STAT_PFCOMMIT ∧ d.riddenThrough.drive = d.drive := by
  unfold Dev.riddenThrough
  extract_lets _ d0
  have hclear : (d0.setFld POWER_STAT_PFAIL 0).fld POWER_STAT_PFAIL = 0 := fld_setFld_same _ _ (by decide)
  have hapart {f : Fld} (hf : POWER_STAT_PFAIL.Apart f) (hc : POWER_PFCNT_RIDES.Apart f)
      (hi : POWER_ISTAT_PFRIDE.Apart f) :
      (((d0.setFld POWER_STAT_PFAIL 0).count POWER_PFCNT_RIDES).flag POWER_ISTAT_PFRIDE).fld f = d.fld f :=
    (fld_setFld_apart _ _ hi).trans ((fld_setFld_apart _ _ hc).trans (fld_setFld_apart _ _ hf))
  have hrides : (d0.setFld POWER_STAT_PFAIL 0).fld POWER_PFCNT_RIDES = d.fld POWER_PFCNT_RIDES :=
    fld_setFld_apart d0 _ (by decide)
  have hcount : ((d0.setFld POWER_STAT_PFAIL 0).count POWER_PFCNT_RIDES).fld POWER_PFCNT_RIDES =
      min 65535 (d.fld POWER_PFCNT_RIDES + 1) := hrides ▸ fld_count (by decide)
  exact ⟨(fld_setFld_apart (f := POWER_ISTAT_PFRIDE) _ 1 (by decide)).trans
      ((fld_setFld_apart (f := POWER_PFCNT_RIDES) _ _ (by decide)).trans hclear),
    fld_setFld_same (f := POWER_ISTAT_PFRIDE) _ 1 (by decide),
    (fld_setFld_apart (f := POWER_ISTAT_PFRIDE) _ 1 (by decide)).trans hcount,
    hapart (f := SYSCTL_STAT_MODE) (by decide) (by decide) (by decide),
    hapart (f := POWER_STAT_PFCOMMIT) (by decide) (by decide) (by decide), rfl⟩

/-- A commit sets PFCOMMIT and leaves the mode; the safe stop leaves PFCOMMIT. -/
theorem committed_leaves (d : Dev) (trig : Nat) :
    (d.committed.safeStopCause trig).fld POWER_STAT_PFCOMMIT = 1 ∧ d.committed.mode = d.mode :=
  ⟨((safeStopCause_frame d.committed trig).2.fld POWER_STAT_PFCOMMIT (by decide)).trans
      (fld_setFld_same (f := POWER_STAT_PFCOMMIT) d 1 (by decide)),
    fld_setFld_apart (f := POWER_STAT_PFCOMMIT) d 1 (by decide)⟩

/-! ### After a commit (R59, R60) -/

/-- Sealing what is open leaves nothing unsealed, and the supply, the fail counts and the pairs as they were. -/
theorem sealOpen_frame (bad : Nat) (d : Dev) :
    (sealOpen bad d).nvs.opened = [] ∧ d.SameSupply (sealOpen bad d) ∧ (sealOpen bad d).pairs = d.pairs := by
  unfold sealOpen
  split
  · next h => exact ⟨List.isEmpty_iff.1 h, .refl d, rfl⟩
  · exact ⟨sealPage_opened d bad, (Dev.SameSupply.refl d).sealPage,
      pairs_of_butMode (butMode_of_butJournal (sealPage_frame d bad).1)⟩

theorem sealDone_eq (hcommit : d.fld POWER_STAT_PFCOMMIT = 1) (hcut : d.power.cut = false) :
    ∃ x, x = sealOpen 0 d ∧ sealDone d = Dev.stopPairs { x with power := { x.power with cut := true } } :=
  ⟨_, rfl, if_pos (by simp [Dev.on, hcommit, hcut])⟩

theorem inputReturn_eq (hcommit : d.fld POWER_STAT_PFCOMMIT = 1) (hgood : d.inputGood msTicks = true) :
    inputReturn d = (sealOpen 0 d).deviceReset trigReturn :=
  if_pos (by simp [Dev.on, hcommit, hgood])

/-- A port that has been at or above 36.0 V for `n` ticks is good input. -/
theorem inputGood_of_port {n : Nat} (h : (d.power.goodA = some t ∨ d.power.goodB = some t) ∧ t + n ≤ d.ticks) :
    d.inputGood n = true := by
  obtain ⟨hport, ht⟩ := h
  rcases hport with h | h <;> simp [Dev.inputGood, Dev.elapsed, h, ht]

/-! ### The converter's stop and the next power-on (R47, R48) -/

/-- The converter's stop leaves both ports below 18.0 V, every pair stopped and every PWM group held safe. -/
theorem converterStop_leaves (d : Dev) :
    (converterStop d).power.converter = false ∧ (converterStop d).forced = true ∧ (converterStop d).power.va < 1800 ∧
    (converterStop d).power.vb < 1800 ∧
    (converterStop d).pairs = d.pairs.map (fun x => { x with clockOff := true, vmv := 0 }) := by
  unfold converterStop
  extract_lets e
  have hpower : e.power =
      (d.power.setPort false (min d.power.va 1799) d.ticks).setPort true (min d.power.vb 1799) d.ticks :=
    notePorts_power _ _
  have hpairs : e.pairs = d.pairs := by
    unfold e
    rw [setPorts_eq_notePorts, (notePorts_frame _ _).1]
  clear_value e
  have hva : e.power.va < 1800 := by
    rw [hpower]
    exact (min_le_right _ _).trans_lt (by decide)
  have hvb : e.power.vb < 1800 := by
    rw [hpower]
    exact (min_le_right _ _).trans_lt (by decide)
  obtain ⟨hbut, -⟩ := assertForce_frame
    (Dev.stopPairs { e with power := { e.power with converter := false, cut := true } })
  rw [power_of_butMode hbut, pairs_of_butMode hbut]
  exact ⟨rfl, forced_assertForce _, hva, hvb, congrArg _ hpairs⟩

theorem spoilRunning_flash (n : NvsSt) (num : Nat) : (n.spoilRunning num).flash = n.flash := by
  unfold NvsSt.spoilRunning
  split
  · next o _ => by_cases hk : o.range.2 = 0 <;> simp [NvsSt.spoilWith, hk]
  · rfl

theorem spoilRunning_spoilt {n : NvsSt} (num : Nat) (h : n.slotOp = none) : (n.spoilRunning num).spoilt = n.spoilt := by
  simp [NvsSt.spoilRunning, h]

/-- A power-on reset starts in BOOT with memories invalid and pairs off, and keeps what flash and fuses hold. -/
theorem switchedOn_keeps (d : Dev) :
    d.switchedOn.backInBoot = true ∧ d.switchedOn.mem.ram = {} ∧ d.switchedOn.pairs = List.replicate 16 {} ∧
    d.switchedOn.nvs.flash = d.nvs.flash ∧ (d.nvs.slotOp = none → d.switchedOn.nvs.spoilt = d.nvs.spoilt) ∧
    d.switchedOn.persist = d.persist ∧ d.switchedOn.trust.lcsFuses = d.trust.lcsFuses ∧
    d.switchedOn.power.converter = true := by
  unfold Dev.switchedOn
  extract_lets p up va vb good _ _ e
  have hmode : e.mode = modeBoot := fld_of_io (d := State.reset.dev) rfl SYSCTL_STAT_MODE
  have hboot : ∀ f : Dev, f.mode = e.mode → f.start = e.start → f.backInBoot = true := fun f hm hs => by
    rw [Dev.backInBoot, hm, hmode, hs]
    rfl
  have hnvs : e.nvs.flash = d.nvs.flash ∧ (d.nvs.slotOp = none → e.nvs.spoilt = d.nvs.spoilt) :=
    ⟨spoilRunning_flash d.nvs d.free, spoilRunning_spoilt d.free⟩
  split
  · exact ⟨hboot _ (fld_setFld_apart _ _ (by decide)) rfl, rfl, rfl, hnvs.1, hnvs.2, rfl, rfl, rfl⟩
  · exact ⟨hboot _ rfl rfl, rfl, rfl, hnvs.1, hnvs.2, rfl, rfl, rfl⟩

end

/-- Settles O2: by the two ends of RIDE, and for each command after a commit by what it leaves. -/
theorem rideThroughOrCommit : Obligations.RideThroughOrCommit := by
  refine ⟨?ride, fun s => ⟨?sealed, ?returned, ?stop, ?start⟩⟩
  case ride =>
    intro s t d good saved hstart hover hcommit
    have hsaved : (d.fld POWER_PFCFG_RIDE != 0 && d.inputGood 12000) = saved := rfl
    refine completes_onDev rfl fun _ => ?_
    rw [rideEnd_eq hstart hover hcommit, hsaved]
    cases saved with
    | true =>
      obtain ⟨hpfail, hride, hcnt, hmode, hkept, hdrive⟩ := riddenThrough_leaves d
      exact ⟨fun _ => ⟨hpfail, hride, hcnt, hmode, hkept.trans hcommit, hdrive⟩, nofun⟩
    | false =>
      obtain ⟨hset, hmode⟩ := committed_leaves d trigPower
      have hstop := safeStopCause_stops d.committed trigPower
      rw [running_of_mode hmode, hmode] at hstop
      exact ⟨nofun, fun _ => ⟨hset, hstop⟩⟩
  case sealed =>
    intro hcommit hcut
    refine completes_onDev rfl fun _ => ?_
    obtain ⟨x, hx, hdone⟩ := sealDone_eq hcommit hcut
    obtain ⟨hopened, -, hpairs⟩ := sealOpen_frame 0 s.dev
    rw [hdone]
    rw [← hx] at hopened hpairs
    exact ⟨hopened, rfl, congrArg _ hpairs⟩
  case returned =>
    rintro hcommit ⟨t, hport⟩
    refine completes_onDev rfl fun _ => ?_
    rw [inputReturn_eq hcommit (inputGood_of_port hport)]
    obtain ⟨-, hsupply, -⟩ := sealOpen_frame 0 s.dev
    obtain ⟨hboot, -, hopened, -, hact, halt⟩ := deviceReset_restarts (sealOpen 0 s.dev) trigReturn
    exact ⟨hboot, hact.trans hsupply.actFail, halt.trans hsupply.altFail, hopened⟩
  case stop => exact completes_onLine rfl (converterStop_leaves s.dev)
  case start =>
    refine completes_onLine rfl ⟨fun hon => if_pos hon, fun hoff => ?_⟩
    rw [powerOn, if_neg (by simp [hoff])]
    exact switchedOn_keeps s.dev

end Sys2Proof.Machine
end

section
/-! PROOFS. CaptureErr: a parity error in the capture stage stays reported through the recovery that it starts (R206, R209,
R239 to R244). -/

namespace Sys2Proof.Machine

/-! ### Fields apart from CAPTERR and MISMATCH -/

/-- No bit of the field is CAPTERR or MISMATCH of a pair's FSTAT: it lies in another register of PAIRCTL, in a later block, or
in other bits of FSTAT. -/
abbrev Fld.OffCaptErr (f : Fld) : Prop :=
  f.addr % 0x1000 ≠ 0x10 ∨ 0x20000 ≤ f.addr ∨ 5 ≤ f.lo ∨ (1 ≤ f.lo ∧ f.lo + f.w ≤ 4)

theorem Fld.OffCaptErr.later {b k lo w : Nat} (h : 0x20000 ≤ b := by decide) : Fld.OffCaptErr ⟨b + k, lo, w⟩ :=
  .inr (.inl (Nat.le_add_right_of_le h))

theorem Fld.OffCaptErr.register {b n lo w : Nat} (h : b % 0x1000 ≠ 0x10 := by decide) :
    Fld.OffCaptErr ⟨b + 0x1000 * n, lo, w⟩ :=
  .inl (by rwa [Nat.add_mul_mod_self_left])

theorem Fld.OffCaptErr.bits {a lo w : Nat} (h : 5 ≤ lo ∨ (1 ≤ lo ∧ lo + w ≤ 4) := by decide) :
    Fld.OffCaptErr ⟨a, lo, w⟩ :=
  .inr (.inr h)

section
variable {p : Fin 16} {v : Nat} {d e : Dev}

theorem Fld.OffCaptErr.apart_capterr {f : Fld} (h : f.OffCaptErr) : f.Apart (PAIRCTL_FSTAT_CAPTERR p) := by
  show 0x010010 + 0x1000 * p.val ≠ f.addr ∨ f.lo + f.w ≤ 4 ∨ 5 ≤ f.lo
  omega

theorem Fld.OffCaptErr.apart_mismatch {f : Fld} (h : f.OffCaptErr) : f.Apart (PAIRCTL_FSTAT_MISMATCH p) := by
  show 0x010010 + 0x1000 * p.val ≠ f.addr ∨ f.lo + f.w ≤ 0 ∨ 1 ≤ f.lo
  omega

/-! ### The report of a capture error -/

/-- Pair `p`'s capture error is reported: its two FSTAT bits, and CAPT_ERR with detail `v` at the island. -/
structure Dev.CaptErr (d : Dev) (p : Fin 16) (v : Nat) : Prop where
  capterr : d.fld (PAIRCTL_FSTAT_CAPTERR p) = 1
  mismatch : d.fld (PAIRCTL_FSTAT_MISMATCH p) = 1
  fault : d.Awaits (pairFault p pfCapture) v

theorem Dev.CaptErr.of_same (h : d.CaptErr p v) (hio : e.io = d.io) (hi : e.island = d.island) : e.CaptErr p v :=
  ⟨(fld_of_io hio _).trans h.capterr, (fld_of_io hio _).trans h.mismatch, h.fault.of_island hi⟩

theorem Dev.CaptErr.ite {c : Prop} {_ : Decidable c} (hd : d.CaptErr p v) (he : e.CaptErr p v) :
    (if c then d else e).CaptErr p v := by
  split
  · exact hd
  · exact he

theorem Dev.CaptErr.iteThd {α β : Type} {c : Prop} {_ : Decidable c} {x y : α × β × Dev} (hx : x.2.2.CaptErr p v)
    (hy : y.2.2.CaptErr p v) : (if c then x else y).2.2.CaptErr p v := by
  split
  · exact hx
  · exact hy

theorem Dev.CaptErr.of_thd {α β : Type} {x : α × β × Dev} {a : α} {b : β} (hx : x = (a, b, e)) (h : x.2.2.CaptErr p v) :
    e.CaptErr p v := by
  subst hx
  exact h

theorem Dev.CaptErr.foldl {α : Type} {f : Dev → α → Dev} {l : List α} (h : d.CaptErr p v)
    (hf : ∀ (d : Dev) (a : α), d.CaptErr p v → (f d a).CaptErr p v) : (l.foldl f d).CaptErr p v :=
  foldl_keeps (fun d => d.CaptErr p v) f hf l d h

/-! ### Updates -/

theorem Dev.CaptErr.setFld {f x} (h : d.CaptErr p v) (hf : f.OffCaptErr := by decide) : (d.setFld f x).CaptErr p v :=
  ⟨(fld_setFld_apart _ _ hf.apart_capterr).trans h.capterr, (fld_setFld_apart _ _ hf.apart_mismatch).trans h.mismatch,
    h.fault.setFld⟩

theorem Dev.CaptErr.flag {f} (h : d.CaptErr p v) (hf : f.OffCaptErr := by decide) : (d.flag f).CaptErr p v := h.setFld hf

theorem Dev.CaptErr.setBitOf {f i} (h : d.CaptErr p v) (hf : f.OffCaptErr := by decide) : (d.setBitOf f i).CaptErr p v :=
  h.setFld hf

theorem Dev.CaptErr.count {f} (h : d.CaptErr p v) (hf : f.OffCaptErr := by decide) : (d.count f).CaptErr p v := h.setFld hf

theorem Dev.CaptErr.present {i x} (h : d.CaptErr p v) : (d.present i x).CaptErr p v :=
  ⟨h.capterr, h.mismatch, h.fault.present⟩

theorem Dev.CaptErr.presentPair {q k} (h : d.CaptErr p v) : (d.presentPair q k).CaptErr p v := h.present

theorem Dev.CaptErr.setPair {q x} (h : d.CaptErr p v) : (d.setPair q x).CaptErr p v := h.of_same rfl rfl

theorem Dev.CaptErr.setDetector {q k x} (h : d.CaptErr p v) : (d.setDetector q k x).CaptErr p v := h.of_same rfl rfl

theorem Dev.CaptErr.setWaits {c n} (h : d.CaptErr p v) : (d.setWaits c n).CaptErr p v := h.of_same rfl rfl

theorem Dev.CaptErr.withBind {x} (h : d.CaptErr p v) : Dev.CaptErr { d with bind := x } p v := h.of_same rfl rfl

theorem Dev.CaptErr.withFab {x} (h : d.CaptErr p v) : Dev.CaptErr { d with fab := x } p v := h.of_same rfl rfl

theorem Dev.CaptErr.withMem {x} (h : d.CaptErr p v) : Dev.CaptErr { d with mem := x } p v := h.of_same rfl rfl

theorem Dev.CaptErr.withEvt {x} (h : d.CaptErr p v) : Dev.CaptErr { d with evt := x } p v := h.of_same rfl rfl

theorem Dev.CaptErr.withKeeper {x} (h : d.CaptErr p v) : Dev.CaptErr { d with keeper := x } p v := h.of_same rfl rfl

theorem Dev.CaptErr.takeSpare {q} (h : d.CaptErr p v) : (d.takeSpare q).CaptErr p v := h.of_same rfl rfl

/-! ### Reads and writes of the mirror -/

theorem Dev.CaptErr.bucketUp {i} (h : d.CaptErr p v) : (d.bucketUp i).CaptErr p v :=
  .ite (h.setFld .later) (.ite (h.setFld .later) ((h.setFld .later).setBitOf .later).flag.present)

theorem Dev.CaptErr.correctable {i} (h : d.CaptErr p v) : (d.correctable i).CaptErr p v :=
  .ite (h.count .later) (h.count .later).bucketUp

theorem Dev.CaptErr.recordUe {m i a scrub} (h : d.CaptErr p v) : (d.recordUe m i a scrub).CaptErr p v :=
  .ite h h.flag.setFld.setFld.setFld.setFld

theorem Dev.CaptErr.uncorrectable {m i a scrub} (h : d.CaptErr p v) : (d.uncorrectable m i a scrub).CaptErr p v := by
  have h1 : (d.count (MEMCTL_INST_UECNT i)).CaptErr p v := h.count .later
  unfold Dev.uncorrectable
  extract_lets d1 d2
  have h2 : d2.CaptErr p v := .ite h1.flag h1.flag
  exact .ite h2.recordUe h2.recordUe.present

theorem Dev.CaptErr.queueWriteBack {i w} (h : d.CaptErr p v) : (d.queueWriteBack i w).CaptErr p v := .ite h h.withMem

theorem Dev.CaptErr.noteRead {m i w a r scrub} (h : d.CaptErr p v) : (d.noteRead m i w a r scrub).CaptErr p v := by
  unfold Dev.noteRead
  extract_lets d1
  have h1 : d1.CaptErr p v := .ite h.flag.setFld.setFld.setFld h
  exact .ite (.uncorrectable (.ite h1.correctable h1)) (.ite (.ite h1.correctable h1.correctable.queueWriteBack) h1)

theorem Dev.CaptErr.bankRead {m i w} (h : d.CaptErr p v) : (d.bankRead m i w).2.2.CaptErr p v := h.withMem.noteRead

/-- The function is unfolded while it stands alone, so that the kernel never evaluates the mirror's address. So also below. -/
theorem Dev.CaptErr.mirrorWord {lp off x} (h : d.CaptErr p v) : (d.mirrorWord lp off x).CaptErr p v := by
  generalize hf : Dev.mirrorWord = f
  delta Dev.mirrorWord at hf
  subst hf
  beta_reduce
  split
  · exact h.withMem
  · exact h

theorem Dev.CaptErr.mirrorWords {lp} : ∀ {l : List DWord} {d : Dev} {off}, d.CaptErr p v →
    (d.mirrorWords lp off l).CaptErr p v
  | [], _, _, h => h
  | _ :: _, _, _, h => h.mirrorWord.mirrorWords

theorem Dev.CaptErr.writeHeader {lp b x} (h : d.CaptErr p v) : (d.writeHeader lp b x).CaptErr p v :=
  h.mirrorWords.of_same rfl rfl

theorem Dev.CaptErr.applyDelta {lp} : ∀ {l : List (Nat × DWord)} {d : Dev}, d.CaptErr p v →
    (d.applyDelta lp l).CaptErr p v
  | [], _, h => h
  | _ :: _, _, h => h.mirrorWord.applyDelta

theorem Dev.CaptErr.mirrorRead {lp off} (h : d.CaptErr p v) : (d.mirrorRead lp off).2.2.CaptErr p v := by
  generalize hx : d.mirrorRead lp off = x
  generalize hf : Dev.mirrorRead = f at hx
  delta Dev.mirrorRead at hf
  subst hf
  beta_reduce at hx
  split at hx
  · exact hx ▸ h.bankRead
  · exact hx ▸ h

theorem Dev.CaptErr.mirrorReads {lp} : ∀ {n} {d : Dev} {off}, d.CaptErr p v → (d.mirrorReads lp off n).2.2.CaptErr p v
  | 0, _, _, h => h
  | _ + 1, _, _, h => .iteThd h.mirrorRead h.mirrorRead.mirrorReads

/-! ### Restart, migration and stop -/

theorem Dev.CaptErr.recoveryBreak {lp} (h : d.CaptErr p v) : (d.recoveryBreak lp).CaptErr p v := by
  unfold Dev.recoveryBreak
  split
  · exact h.withFab.withFab.flag.count.setFld.setFld.setFld.present
  · exact h

theorem Dev.CaptErr.emitArm {q k tb angle down} (h : d.CaptErr p v) : (d.emitArm q k tb angle down).CaptErr p v := by
  unfold Dev.emitArm
  extract_lets
  split
  · exact h.setPair.setDetector
  · exact h.setDetector

theorem Dev.CaptErr.restoreGate {q k} (h : d.CaptErr p v) : (d.restoreGate q k).CaptErr p v := .ite h.emitArm h.setDetector

theorem Dev.CaptErr.restoreWait {q w} (h : d.CaptErr p v) : (d.restoreWait q w).CaptErr p v := by
  unfold Dev.restoreWait
  extract_lets
  split
  · exact h.setPair
  · exact h

theorem Dev.CaptErr.settleRestored {q} (h : d.CaptErr p v) : (d.settleRestored q).CaptErr p v :=
  .foldl (.foldl (.foldl h.withEvt fun _ _ h => h.setWaits) fun _ _ h => h.restoreWait) fun _ _ h => h.restoreGate

theorem Dev.CaptErr.keeperFreeze {lp} (h : d.CaptErr p v) : (d.keeperFreeze lp).CaptErr p v := .ite h.setFld.withKeeper h

theorem Dev.CaptErr.haltPair {q cause} (h : d.CaptErr p v) : (d.haltPair q cause).CaptErr p v :=
  (((((h.setPair.setFld .later).setFld .later).setFld .later).setFld .later).setBitOf.flag).keeperFreeze

theorem Dev.CaptErr.haltAgain {q} (h : d.CaptErr p v) : (d.haltAgain q).CaptErr p v := .ite h.haltPair h

theorem Dev.CaptErr.rewriteBundle {q i} (h : d.CaptErr p v) : (d.rewriteBundle q i).CaptErr p v := by
  generalize hf : Dev.rewriteBundle = f
  delta Dev.rewriteBundle at hf
  subst hf
  beta_reduce
  split
  next ws bad d1 hr =>
    have h1 : d1.CaptErr p v := .of_thd hr h.mirrorReads
    exact .ite h1 h1.setPair

theorem Dev.CaptErr.restart {q fix} (h : d.CaptErr p v) : (d.restart q fix).CaptErr p v := by
  unfold Dev.restart
  extract_lets _ _ d1 d2
  have h2 : d2.CaptErr p v := by
    unfold d2
    split
    · exact h.setPair.rewriteBundle
    · exact h.setPair
  exact h2.settleRestored.haltAgain

theorem Dev.CaptErr.checkShort {lp} (h : d.CaptErr p v) : (d.checkShort lp).CaptErr p v := .ite h.setBitOf.flag.present h

theorem Dev.CaptErr.toFence {q retire} (h : d.CaptErr p v) : (d.toFence q retire).CaptErr p v := h.setPair

theorem Dev.CaptErr.stopPair {q} (h : d.CaptErr p v) : (d.stopPair q).CaptErr p v := (h.toFence.flag .bits).presentPair

theorem Dev.CaptErr.rebound {lp q st x} (h : d.CaptErr p v) :
    (({ d with bind := x }.setFld (PAIRCTL_ROLE_LPAIR q) lp).setPairState q st).CaptErr p v :=
  (h.withBind.setFld .register).setFld .register

/-- What a migration shows of itself once the spare has the state. -/
theorem Dev.CaptErr.migrated {lp q r n x} (h : d.CaptErr p v) :
    ((((((d.flag (PAIRCTL_FSTAT_MIGRATED q)).flag (PAIRCTL_FSTAT_MIGRATED r)).count (PAIRCTL_CNT_MIGRATIONS q)).setFld
      (PAIRCTL_CKNUM_CKNUM r) n).presentPair q pfMigrated).setFld (DEBUG_PSTAT_PPAIR lp) x).CaptErr p v :=
  (((((h.flag .bits).flag .bits).count .register).setFld .register).presentPair).setFld .later

theorem Dev.CaptErr.migrate {q r retire} (h : d.CaptErr p v) : (d.migrate q r retire).CaptErr p v := by
  generalize hf : Dev.migrate = f
  delta Dev.migrate at hf
  subst hf
  beta_reduce
  extract_lets lp own d1 b s
  have h1 : d1.CaptErr p v := h.rebound
  clear_value d1
  split
  next imem bad1 d2 e1 =>
    have h2 : d2.CaptErr p v := .of_thd e1 h1.mirrorReads
    split
    next dmem bad2 d3 e2 =>
      have h3 : d3.CaptErr p v := .of_thd e2 (.iteThd h2 h2.mirrorReads)
      split
      next frame bad3 d4 e3 =>
        have h4 : d4.CaptErr p v := .of_thd e3 (.iteThd h3 h3.mirrorReads)
        split
        next got bad4 d5 e4 =>
          have h5 : d5.CaptErr p v := .of_thd e4 (.iteThd h4 h4.mirrorReads)
          split
          · exact h5.rebound.setPair.stopPair
          · refine Dev.CaptErr.haltAgain (.settleRestored (.checkShort (.migrated (.setPair (.toFence ?_)))))
            exact .ite h5.setPair.takeSpare h5.setPair.takeSpare.applyDelta.writeHeader

/-! ### A parity error (R206) -/

theorem awaits_present_cut (d : Dev) (n x : Nat) : (d.present n x).Awaits n (x % 65536) :=
  ⟨addPresented_any d.island.presented n (x % 65536)⟩

theorem recoverable_setFld_apart {q : Nat} {f : Fld} {x : Nat} (hf : f.Apart (PAIRCTL_ROLE_STATE q)) :
    (d.setFld f x).recoverable q = d.recoverable q := by
  have hst : (d.setFld f x).pairState q = d.pairState q := fld_setFld_apart _ _ hf
  unfold Dev.recoverable Dev.pairRuns
  rw [hst]
  rfl

theorem recoverable_presentPair (d : Dev) (q k : Nat) : (d.presentPair q k).recoverable q = d.recoverable q := rfl

/-- A mismatch of a pair that can recover sets MISMATCH, and leaves a capture error reported. -/
theorem captErr_mismatch {kind lg : Nat} {fix : Option Nat} (hrec : d.recoverable p = true)
    (hbit : d.fld (PAIRCTL_FSTAT_CAPTERR p) = 1) (hfault : d.Awaits (pairFault p pfCapture) v) :
    (d.mismatch p kind lg fix).CaptErr p v := by
  have h0 : (d.flag (PAIRCTL_FSTAT_MISMATCH p)).CaptErr p v :=
    ⟨(fld_setFld_apart _ _ (.inr (.inl (by decide : 0 + 1 ≤ 4)))).trans hbit, fld_setFld_same _ _ (by decide : 0 + 1 ≤ 32),
      hfault.flag⟩
  have h1 := fun x y z lp =>
    (((h0.setFld (f := PAIRCTL_LASTMM_KIND p) (x := x) .register).setFld (f := PAIRCTL_LASTMM_LG p) (x := y) .register).setFld
      (f := PAIRCTL_LASTMM_SEGCNT p) (x := z) .register).recoveryBreak (lp := lp)
  unfold Dev.mismatch
  rw [hrec, if_neg (by decide)]
  extract_lets
  split
  · exact (h1 ..).restart
  · split
    · exact (h1 ..).migrate
    · exact (h1 ..).stopPair

theorem captureInput_parity (hrec : d.recoverable p = true) (hcap : (d.pair p).capture ≠ []) :
    captureInput p true d = ((d.flag (PAIRCTL_FSTAT_CAPTERR p)).presentPair p pfCapture).mismatch p 3 0 none := by
  have hempty : (d.pair p).capture.isEmpty = false := by simpa using hcap
  rw [captureInput, if_pos rfl, hempty, hrec]
  exact if_neg (by decide)

/-- A parity error in a captured input of a pair that can recover is reported. -/
theorem captErr_captureInput (hrec : d.recoverable p = true) (hcap : (d.pair p).capture ≠ []) :
    (captureInput p true d).CaptErr p ((d.pair p).segCount / 4 % 65536) := by
  have hapart : (PAIRCTL_FSTAT_CAPTERR p).Apart (PAIRCTL_ROLE_STATE p) := by
    show 0x010000 + 0x1000 * p.val ≠ 0x010010 + 0x1000 * p.val ∨ _
    omega
  have hstill : ((d.flag (PAIRCTL_FSTAT_CAPTERR p)).presentPair p pfCapture).recoverable p = true :=
    (recoverable_presentPair ..).trans ((recoverable_setFld_apart hapart).trans hrec)
  have hbit : ((d.flag (PAIRCTL_FSTAT_CAPTERR p)).presentPair p pfCapture).fld (PAIRCTL_FSTAT_CAPTERR p) = 1 :=
    fld_setFld_same d (f := PAIRCTL_FSTAT_CAPTERR p) 1 (by decide : 4 + 1 ≤ 32)
  rw [captureInput_parity hrec hcap]
  exact captErr_mismatch hstill hbit (awaits_present_cut ..)

end

end Sys2Proof.Machine
end

section
/-! PROOFS. Inputs: what presenting the oldest captured input leaves in both cores (R104, R106, R203). -/

namespace Sys2Proof.Machine

section
variable {d : Dev} {x : Pair} {p t : Nat} {f : Core → Core} {rest : List CapInput}

@[simp] theorem noteOcc_pairs (d : Dev) (p : Nat) : (d.noteOcc p).pairs = d.pairs := by
  have raised (e : Dev) (f : Fld) (v : Nat) : (if e.fld f < v then e.setFld f (min 255 v) else e).pairs = e.pairs := by
    split <;> rfl
  exact (raised ..).trans ((raised ..).trans (raised ..))

theorem settleHalt_of_not_asked (h : (d.pair p).dbg.haltAsked = false) : d.settleHalt p = d := by simp [Dev.settleHalt, h]

/-- A pair that presents inputs presents its oldest one. -/
theorem presentFirst_one {c : CapInput} (hp : d.presents p = true) (hc : (d.pair p).capture = c :: rest) :
    d.presentFirst p 1 = (d.presentInput p c).noteOcc p := by
  simp [Dev.presentFirst, hc, hp]

/-- The pair with its oldest captured input taken. -/
abbrev Pair.taken (x : Pair) (rest : List CapInput) : Pair := { x with capture := rest }

theorem presentInput_response {mark tag slot value code addr lock : Nat}
    (hc : (d.pair p).capture = .response mark tag false slot value code addr lock :: rest) :
    d.presentInput p (.response mark tag false slot value code addr lock) =
      d.setPair p (((d.pair p).taken rest).both
        fun k => (k.completeTag tag (BitVec.ofNat 64 value) code addr 0).lockAfter lock code) := by
  simp only [Dev.presentInput, hc, List.erase_cons_head]
  rfl

theorem presentInput_irq {r : Option (Nat × Nat)} (hc : (d.pair p).capture = .irq r :: rest) :
    d.presentInput p (.irq r) = d.setPair p (((d.pair p).taken rest).everywhere fun k => { k with visible := r }) := by
  simp only [Dev.presentInput, hc, List.erase_cons_head]

/-- A response captured first completes its tag at once. -/
theorem tagCompletion_response {mark slot value code addr lock : Nat} (hp : d.presents p = true)
    (hc : (d.pair p).capture = .response mark t false slot value code addr lock :: rest) :
    tagCompletion p t d =
      ((((d.presentInput p (.response mark t false slot value code addr lock)).noteOcc p).noteOcc p).settleHalt p) := by
  have hany : (d.pair p).capture.any (CapInput.completes t) = true := by simp [hc, CapInput.completes]
  have hone : upTo (CapInput.completes t) (d.pair p).capture = 1 := by simp [hc, upTo, findIdxOf, CapInput.completes]
  simp only [tagCompletion, hp, hany, hone, presentFirst_one hp hc, Bool.not_true, Bool.false_eq_true, if_false, if_true]

/-- A request captured first is presented at once. -/
theorem captureInput_irq {r : Option (Nat × Nat)} (hp : d.presents p = true)
    (hc : (d.pair p).capture = .irq r :: rest) : captureInput p false d = (d.presentInput p (.irq r)).noteOcc p := by
  have hone : upTo (fun c : CapInput => !c.isTag) (d.pair p).capture = 1 := by simp [hc, upTo, findIdxOf, CapInput.isTag]
  rw [captureInput, if_neg (by decide), Dev.captureNext, hone, presentFirst_one hp hc]

/-- The tag of a completion holds its value, and is done or failed by its code. -/
theorem tag_completeTag (c : Core) (t : Nat) (value : DWord) (code addr flags : Nat) :
    (c.completeTag t value code addr flags).tag t =
      { value := value, st := if code = 0 then .done else .failed, code := code, addr := addr, barrier := none } :=
  arrGet_arrSet_same ..

@[simp] theorem tag_lockAfter (c : Core) (lock code t : Nat) : (c.lockAfter lock code).tag t = c.tag t := by
  unfold Core.lockAfter
  split <;> rfl

/-- Both cores of a pair at `y` hold one state, which satisfies `P`. -/
theorem cores_of_pair {e : Dev} {y : Pair} {P : Core → Prop} (he : e.pair p = y) (heq : y.lead = y.shadow) (hP : P y.lead) :
    e.cores p P := by
  subst he
  exact ⟨heq, hP⟩

theorem tagCompletion_leaves {mark slot value code addr lock : Nat} (hq : d.quiet p) (hp16 : p < 16)
    (hp : d.presents p = true) (hv : value < 2 ^ 64)
    (hc : (d.pair p).capture = .response mark t false slot value code addr lock :: rest) :
    ((tagCompletion p t d).pair p).capture = rest ∧
      (tagCompletion p t d).cores p fun k =>
        (k.tag t).value.toNat = value ∧ (k.tag t).st = if code = 0 then .done else .failed := by
  obtain ⟨hlen, heq, -, hhalt, -, -⟩ := hq
  have hset := pair_setPair_same d p (((d.pair p).taken rest).both
    fun k => (k.completeTag t (BitVec.ofNat 64 value) code addr 0).lockAfter lock code) (hlen ▸ hp16)
  have hpair := (pair_of_pairs ((noteOcc_pairs _ p).trans (noteOcc_pairs _ p)) p).trans hset
  rw [tagCompletion_response hp hc, presentInput_response hc,
    settleHalt_of_not_asked ((congrArg (fun y : Pair => y.dbg.haltAsked) hpair).trans hhalt)]
  refine ⟨congrArg Pair.capture hpair, cores_of_pair hpair (congrArg
    (fun k : Core => (k.completeTag t (BitVec.ofNat 64 value) code addr 0).lockAfter lock code) heq) ?_⟩
  show ((Core.lockAfter _ lock code).tag t).value.toNat = value ∧ ((Core.lockAfter _ lock code).tag t).st = _
  rw [tag_lockAfter, tag_completeTag]
  exact ⟨by simpa using Nat.mod_eq_of_lt hv, rfl⟩

theorem captureInput_irq_leaves {r : Option (Nat × Nat)} (hq : d.quiet p) (hp16 : p < 16) (hp : d.presents p = true)
    (hc : (d.pair p).capture = .irq r :: rest) :
    ((captureInput p false d).pair p).capture = rest ∧ (captureInput p false d).cores p fun k => k.visible = r := by
  obtain ⟨hlen, heq, -⟩ := hq
  have hset := pair_setPair_same d p (((d.pair p).taken rest).everywhere fun k => { k with visible := r }) (hlen ▸ hp16)
  have hpair := (pair_of_pairs (noteOcc_pairs _ p) p).trans hset
  rw [captureInput_irq hp hc, presentInput_irq hc]
  exact ⟨congrArg Pair.capture hpair, cores_of_pair hpair (congrArg (fun k : Core => { k with visible := r }) heq) rfl⟩

end

end Sys2Proof.Machine
end

section
/-! PROOFS. Controllers: what an edge, a level, a write of SWSET and a presentation leave of an interrupt controller (R175,
R176). -/

namespace Sys2Proof.Machine

section
variable {d : Dev} {n s x : Nat}

theorem testBit_withBit (m i j : Nat) : (withBit m i).testBit j = (m.testBit j || decide (j = i)) := by
  rw [withBit, Nat.testBit_or, Nat.one_shiftLeft, Nat.testBit_two_pow]
  simp only [eq_comm]

theorem testBit_withoutBit_same (m i : Nat) : (withoutBit m i).testBit i = false := by
  unfold withoutBit
  split
  · next h =>
    have hdiv : (m - 2 ^ i) / 2 ^ i = m / 2 ^ i - 1 := by simpa using Nat.sub_mul_div m (2 ^ i) 1
    rw [Nat.testBit_eq_decide_div_mod_eq, decide_eq_true_eq] at h
    rw [Nat.testBit_eq_decide_div_mod_eq, hdiv, decide_eq_false_iff_not]
    omega
  · next h => simpa using h

/-! ### Edges -/

theorem intcOf_setIntc_same (d : Dev) (n : Nat) (y : IntcSt) : (d.setIntc n y).intcOf n = y := arrGet_arrSet_same ..

theorem line_setIntc (d : Dev) (n lp s : Nat) (y : IntcSt) : (d.setIntc n y).line lp s = d.line lp s := rfl

theorem pendingAt_edgeSource (hs : edgeSource s = true) : d.pendingAt n s = (d.intcOf n).edges.testBit s := if_pos hs

theorem pendingAt_setEdges (hs : edgeSource s = true) :
    (d.setIntc n { d.intcOf n with edges := withBit (d.intcOf n).edges s }).pendingAt n x =
      (d.pendingAt n x || decide (x = s)) := by
  unfold Dev.pendingAt
  rw [intcOf_setIntc_same, line_setIntc]
  split
  · exact testBit_withBit ..
  · next hx =>
    have hne : x ≠ s := fun h => hx (h ▸ hs)
    simp [hne]

theorem edge_of_pending (hs : edgeSource s = true) (h : d.pendingAt n s = true) :
    d.edge n s = d.setBitOf (INTC_LOST_LOST n (s / 32)) (s % 32) := by
  rw [pendingAt_edgeSource hs] at h
  exact if_pos h

theorem edge_of_not_pending (hs : edgeSource s = true) (h : d.pendingAt n s = false) :
    d.edge n s = d.setIntc n { d.intcOf n with edges := withBit (d.intcOf n).edges s } := by
  rw [pendingAt_edgeSource hs] at h
  exact if_neg (by simp [h])

/-- An edge makes its source pending, and no other edge source. -/
theorem pendingAt_edge (hs : edgeSource s = true) (hx : edgeSource x = true) :
    (d.edge n s).pendingAt n x = (d.pendingAt n x || decide (x = s)) := by
  cases h : d.pendingAt n s with
  | true =>
    have hsame : (d.edge n s).pendingAt n x = d.pendingAt n x := by
      rw [edge_of_pending hs h, pendingAt_edgeSource hx, pendingAt_edgeSource hx]
      rfl
    by_cases he : x = s
    · subst he
      simp [hsame, h]
    · simp [hsame, he]
  | false => rw [edge_of_not_pending hs h, pendingAt_setEdges hs]

theorem lost_edge (hs : edgeSource s = true) (h : d.pendingAt n s = true) :
    ((d.edge n s).fld (INTC_LOST_LOST n (s / 32))).testBit (s % 32) = true := by
  have hbit : s % 32 < 32 := Nat.mod_lt _ (by decide)
  rw [edge_of_pending hs h, setBitOf_eq, fld_setFld_same _ _ (by decide : 0 + 32 ≤ 32), Nat.testBit_mod_two_pow,
    testBit_withBit]
  simp [INTC_LOST_LOST, hbit]

/-- Edges of several sources make each of them pending. -/
theorem pendingAt_edges (hx : edgeSource x = true) : ∀ (l : List Nat) (d : Dev), (∀ j ∈ l, edgeSource (248 + j) = true) →
    (l.foldl (fun d j => d.edge n (248 + j)) d).pendingAt n x = (d.pendingAt n x || l.any fun j => x = 248 + j)
  | [], d, _ => by simp
  | j :: t, d, hl => by
    obtain ⟨hj, ht⟩ := List.forall_mem_cons.1 hl
    rw [List.foldl_cons, pendingAt_edges hx t _ ht, pendingAt_edge hj hx, Bool.or_assoc, List.any_cons]

theorem edgeSource_software {j : Nat} (h : j < 8) : edgeSource (248 + j) = true := by
  simp only [edgeSource, Bool.or_eq_true, Bool.and_eq_true, decide_eq_true_eq]
  omega

theorem mem_bitsList {m w i : Nat} : i ∈ bitsList m w ↔ i < w ∧ m.testBit i = true := by simp [bitsList]

/-- A write of SWSET makes pending the software sources that it names. -/
theorem pendingAt_swset {set j : Nat} (hj : j < 8) :
    (swset n set d).pendingAt n (248 + j) = (d.pendingAt n (248 + j) || set.testBit j) := by
  have hany : ((bitsList set 8).any fun i => 248 + j = 248 + i) = set.testBit j := by
    rw [Bool.eq_iff_iff]
    simp [mem_bitsList, hj]
  rw [swset, pendingAt_edges (edgeSource_software hj) _ _ fun i hi => edgeSource_software (mem_bitsList.1 hi).1, hany]

/-- The line of a level source is taken. -/
theorem sourceEdge_level (hs : edgeSource s = false) :
    ((sourceEdge n s d).intcOf n).lines.testBit s = d.line n s ∧
      sourceEdge n s d = { d with intc := (sourceEdge n s d).intc } := by
  rw [sourceEdge, if_neg (by simp [hs])]
  refine ⟨?_, rfl⟩
  rw [intcOf_setIntc_same]
  cases d.line n s with
  | true => simp [testBit_withBit]
  | false => simp [testBit_withoutBit_same]

/-! ### The request presented -/

/-- `r` names the first source of a list whose priority is highest, or none of an empty list. -/
def BestOf (pri : Nat → Nat) (l : List Nat) (r : Option (Nat × Nat)) : Prop :=
  (r = none ↔ l = []) ∧ ∀ x q, r = some (x, q) → x ∈ l ∧ q = pri x ∧ ∀ y ∈ l, pri y < q ∨ (pri y = q ∧ x ≤ y)

/-- A source above those of the list replaces their best only by a higher priority. -/
theorem BestOf.snoc {pri : Nat → Nat} {l : List Nat} {r : Option (Nat × Nat)} {s : Nat} (h : BestOf pri l r)
    (hs : ∀ y ∈ l, y < s) : BestOf pri (l ++ [s]) (betterIrq r (s, pri s)) := by
  obtain ⟨hnone, hbest⟩ := h
  cases r with
  | none =>
    obtain rfl : l = [] := hnone.1 rfl
    simp [BestOf, betterIrq]
  | some a =>
    obtain ⟨x, q⟩ := a
    obtain ⟨hx, rfl, hmax⟩ := hbest x q rfl
    by_cases hlt : pri x < pri s
    · have hr : betterIrq (some (x, pri x)) (s, pri s) = some (s, pri s) := if_pos hlt
      rw [hr]
      refine ⟨by simp, fun y q e => ?_⟩
      cases e
      refine ⟨by simp, rfl, fun z hz => ?_⟩
      rcases List.mem_append.1 hz with hz | hz
      · have := hmax z hz
        omega
      · simp_all
    · have hr : betterIrq (some (x, pri x)) (s, pri s) = some (x, pri x) := if_neg hlt
      rw [hr]
      refine ⟨by simp, fun y q e => ?_⟩
      cases e
      refine ⟨by simp [hx], rfl, fun z hz => ?_⟩
      rcases List.mem_append.1 hz with hz | hz
      · exact hmax z hz
      · obtain rfl : z = s := by simpa using hz
        have := hs x hx
        omega

theorem bestOf_foldl (pri : Nat → Nat) (l : List Nat) (h : l.Pairwise (· < ·)) :
    BestOf pri l (l.foldl (fun a s => betterIrq a (s, pri s)) none) := by
  induction l using List.reverseRecOn with
  | nil => simp [BestOf]
  | append_singleton l s ih =>
    obtain ⟨hl, -, hs⟩ := List.pairwise_append.1 h
    rw [List.foldl_append]
    exact (ih hl).snoc fun y hy => hs y hy s (by simp)

/-- Source `s` asks for logical pair `n`: it exists, is pending and enabled, and the pair has not acknowledged it (R176). -/
def Dev.asks (d : Dev) (n s : Nat) : Prop :=
  s < 256 ∧ sourceExists s = true ∧ d.pendingAt n s = true ∧ (d.pair (d.physOf n)).ackedSet.testBit s = false ∧
    d.fld (INTC_CFG_PRI n s) ≠ 0

/-- The sources that ask for logical pair `n`, rising. -/
def Dev.askers (d : Dev) (n : Nat) : List Nat :=
  (List.range 256).filter fun s => sourceExists s && d.pendingAt n s &&
    !((d.pair (d.physOf n)).ackedSet.testBit s) && d.fld (INTC_CFG_PRI n s) != 0

theorem mem_askers : x ∈ d.askers n ↔ d.asks n x := by simp [Dev.askers, Dev.asks, and_assoc]

/-- The best request is the first of the highest priority among the sources that ask, or none where none does. -/
theorem bestIrq_spec (d : Dev) (n : Nat) :
    (d.bestIrq n = none ↔ ∀ x, ¬ d.asks n x) ∧
    ∀ x q, d.bestIrq n = some (x, q) → d.asks n x ∧ q = d.fld (INTC_CFG_PRI n x) ∧
      ∀ y, d.asks n y → d.fld (INTC_CFG_PRI n y) < q ∨ (d.fld (INTC_CFG_PRI n y) = q ∧ x ≤ y) := by
  have hbest : BestOf (fun s => d.fld (INTC_CFG_PRI n s)) (d.askers n) (d.bestIrq n) :=
    bestOf_foldl _ _ (List.pairwise_lt_range.filter _)
  simpa only [BestOf, mem_askers, List.eq_nil_iff_forall_not_mem] using hbest

/-- The controller's best request enters the capture stage of the pair bound to its number. -/
theorem presentIrq_capture (hlen : d.pairs.length = 16) (hp : d.physOf n < 16) :
    ((presentIrq n d).pair (d.physOf n)).capture = (d.pair (d.physOf n)).capture ++ [.irq (d.bestIrq n)] :=
  congrArg Pair.capture (pair_setPair_same (d.setIntc n { d.intcOf n with presented := d.bestIrq n }) (d.physOf n) _
    (hlen ▸ hp : d.physOf n < d.pairs.length))

end

/-- Settles O7: by what one presented input leaves, by the recovery that keeps a capture error reported, and by what an edge,
a level and a presentation leave of a controller. -/
theorem inputsAndControllers : Obligations.InputsAndControllers := by
  refine ⟨fun s p hq hp => ⟨?response, ?request, ?parity⟩, fun s n => ⟨?edge, ?level, ?swset, ?present⟩⟩
  case response =>
    intro t mark slot value code addr lock rest hv hc
    exact completes_onDev rfl fun _ => tagCompletion_leaves hq p.isLt hp hv hc
  case request =>
    intro r rest hc
    exact completes_onDev rfl fun _ => captureInput_irq_leaves hq p.isLt hp hc
  case parity =>
    intro hrec hcap
    have h := captErr_captureInput hrec hcap
    exact completes_onDev rfl fun _ => ⟨h.capterr, h.mismatch, h.fault.hasFault⟩
  case edge =>
    intro src hs
    have hedge : sourceEdge n src s.dev = s.dev.edge n src := if_pos hs
    refine completes_onDev rfl fun _ => ?_
    rw [hedge]
    refine ⟨by simp [pendingAt_edge hs hs], fun hpend => ⟨lost_edge hs hpend, ?_⟩, fun hidle => ?_⟩
    · rw [edge_of_pending hs hpend]
      rfl
    · rw [edge_of_not_pending hs hidle]
      exact ⟨rfl, fun x hx => by simp [pendingAt_setEdges hs, Fin.val_ne_of_ne hx]⟩
  case level => exact fun src hs => completes_onDev rfl fun _ => sourceEdge_level hs
  case swset => exact fun set => completes_onDev rfl fun _ j => pendingAt_swset j.isLt
  case present =>
    intro hlen hphys
    exact completes_onDev rfl fun _ => ⟨_, presentIrq_capture hlen hphys, bestIrq_spec s.dev n⟩

end Sys2Proof.Machine
end

section
/-! PROOFS. BundleEncoding: decoding reads back every part of an encoded bundle: the header, the move slots and the long
immediates (`Obligations.BundleRoundTrip`, `Obligations.PackingExample`). `Holds` says which slots of the 256 bits hold
which values; it ties the slots that `encodeBundle` packs to those that `decodeBundle` reads. -/

namespace Sys2Proof.Machine

/-! ### What a well-formed bundle satisfies -/

/-- Every field of a move fits its place in the slot (R117). -/
structure Move.Fits (m : Move) : Prop where
  greg : m.greg < 8
  width : m.width < 4
  src : m.src < 2 ^ 12
  dst : m.dst < 2 ^ 12

/-- The 64-bit value `v` can travel in a long immediate of form `f`: a 60-bit one must be restored by sign extension
(R126). -/
def ImmFits (v : Nat) (f : Nat × Bool) : Prop :=
  v < 2 ^ 64 ∧ (f.2 = true ∨ wrap 64 (sext 60 (v % 2 ^ 60)) = v)

/-- `Bundle.wf` condition by condition. -/
structure Bundle.Fits (b : Bundle) : Prop where
  await : ∀ t, b.await = some t → t < 32
  gate : ∀ k, b.gate = some k → k < 8
  limm : b.limm < 7
  moves_length : b.moves.length = moveSlots b.limm
  imms_length : b.imms.length = (immForms b.limm).length
  moves : ∀ m ∈ b.moves, m.Fits
  imms : ∀ e ∈ b.imms.zip (immForms b.limm), ImmFits e.1 e.2
  legal : movesIllegal b.moves b.imms.length = none

theorem Bundle.fits_of_wf {b : Bundle} (h : b.wf = true) : b.Fits := by
  simp only [Bundle.wf, Bool.and_eq_true, decide_eq_true_eq, List.all_eq_true, Bool.or_eq_true,
    Option.isNone_iff_eq_none] at h
  obtain ⟨⟨⟨⟨⟨⟨⟨hawait, hgate⟩, hlimm⟩, hmlen⟩, hilen⟩, hmoves⟩, himms⟩, hlegal⟩ := h
  refine ⟨fun t ht => ?_, fun k hk => ?_, hlimm, hmlen, hilen, fun m hm => ?_, himms, hlegal⟩
  · simpa [ht] using hawait
  · simpa [hk] using hgate
  · obtain ⟨⟨⟨hgreg, hwidth⟩, hsrc⟩, hdst⟩ := hmoves m hm
    exact ⟨hgreg, hwidth, hsrc, hdst⟩

/-! ### Slots -/

/-- From slot `s` upwards, the slots of `x` hold the listed values. -/
def Holds (x : Nat) : Nat → List Nat → Prop
  | _, [] => True
  | s, v :: t => slotBits x s = v ∧ Holds x (s + 1) t

theorem holds_append {x : Nat} {k : List Nat} :
    ∀ {l : List Nat} {s : Nat}, Holds x s (l ++ k) ↔ Holds x s l ∧ Holds x (s + l.length) k
  | [], s => by simp [Holds]
  | v :: t, s => by
    rw [List.cons_append, Holds, Holds, holds_append, and_assoc, List.length_cons, Nat.add_right_comm, Nat.add_assoc]

/-- Reading slots that hold a list, in slot order, gives the list. -/
theorem map_slotBits_of_holds {x : Nat} :
    ∀ {l : List Nat} {s : Nat}, Holds x s l → (List.range' s l.length).map (slotBits x) = l
  | [], _, _ => rfl
  | v :: t, s, h => by
    obtain ⟨hv, ht⟩ := h
    rw [List.length_cons, List.range'_succ, List.map_cons, hv, map_slotBits_of_holds ht]

/-- Packed slot values, above `y` in the bits below slot `s`, are held from slot `s` upwards. -/
theorem holds_packSlots : ∀ {l : List Nat} {s y : Nat}, (∀ v ∈ l, v < 2 ^ 30) → y < 2 ^ (16 + 30 * s) →
    Holds (y + 2 ^ (16 + 30 * s) * packSlots l) s l
  | [], _, _, _, _ => trivial
  | v :: t, s, y, hl, hy => by
    obtain ⟨hv, ht⟩ := List.forall_mem_cons.1 hl
    constructor
    · rw [slotBits, packSlots, Nat.add_mul_div_left _ _ (Nat.two_pow_pos _), Nat.div_eq_of_lt hy, Nat.zero_add,
        Nat.add_mul_mod_self_left, Nat.mod_eq_of_lt hv]
    · have hnext : 2 ^ (16 + 30 * (s + 1)) = 2 ^ (16 + 30 * s) * 2 ^ 30 := by rw [← Nat.pow_add]; rfl
      have hsplit : y + 2 ^ (16 + 30 * s) * packSlots (v :: t) =
          (y + 2 ^ (16 + 30 * s) * v) + 2 ^ (16 + 30 * (s + 1)) * packSlots t := by
        rw [packSlots, hnext, Nat.mul_add, Nat.add_assoc, Nat.mul_assoc]
      rw [hsplit]
      refine holds_packSlots ht ?_
      have hslot : y + 2 ^ (16 + 30 * s) * v < 2 ^ (16 + 30 * s) * (v + 1) := by
        rw [Nat.mul_succ, Nat.add_comm]
        exact Nat.add_lt_add_left hy _
      refine hslot.trans_le ?_
      rw [hnext]
      exact Nat.mul_le_mul_left _ (Nat.succ_le_of_lt hv)

theorem packSlots_lt : ∀ {l : List Nat}, (∀ v ∈ l, v < 2 ^ 30) → packSlots l < 2 ^ (30 * l.length)
  | [], _ => by decide
  | v :: t, hl => by
    obtain ⟨hv, ht⟩ := List.forall_mem_cons.1 hl
    have hrest := packSlots_lt ht
    calc packSlots (v :: t) < 2 ^ 30 * (packSlots t + 1) := by rw [packSlots]; omega
      _ ≤ 2 ^ 30 * 2 ^ (30 * t.length) := Nat.mul_le_mul_left (2 ^ 30) (Nat.succ_le_of_lt hrest)
      _ = 2 ^ (30 * (v :: t).length) := by rw [← Nat.pow_add, List.length_cons, Nat.mul_succ, Nat.add_comm]

/-! ### Moves -/

theorem encodeMove_lt {m : Move} (h : m.Fits) : encodeMove m < 2 ^ 30 := by
  obtain ⟨hgreg, hwidth, hsrc, hdst⟩ := h
  unfold encodeMove
  split <;> omega

theorem decodeMove_encodeMove {m : Move} (h : m.Fits) : decodeMove (encodeMove m) = m := by
  obtain ⟨hgreg, hwidth, hsrc, hdst⟩ := h
  obtain ⟨ginv, greg, width, src, dst⟩ := m
  simp only [decodeMove, encodeMove, Move.mk.injEq] at *
  cases ginv <;> simp only [decide_eq_true_eq, decide_eq_false_iff_not, if_true, Bool.false_eq_true, if_false] <;> omega

/-- Slots that hold encoded moves decode to these moves. -/
theorem moves_of_holds {x : Nat} {ms : List Move} (hfits : ∀ m ∈ ms, m.Fits) (h : Holds x 0 (ms.map encodeMove)) :
    (List.range ms.length).map (fun s => decodeMove (slotBits x s)) = ms := by
  have hread := map_slotBits_of_holds h
  rw [List.length_map, ← List.range_eq_range'] at hread
  calc (List.range ms.length).map (fun s => decodeMove (slotBits x s))
    _ = ((List.range ms.length).map (slotBits x)).map decodeMove := by rw [List.map_map]; rfl
    _ = ms.map (decodeMove ∘ encodeMove) := by rw [hread, List.map_map]
    _ = ms.map id := List.map_congr_left fun m hm => decodeMove_encodeMove (hfits m hm)
    _ = ms := List.map_id ms

/-! ### Long immediates -/

theorem immSlots_lt {v : Nat} {is64 : Bool} : ∀ u ∈ immSlots v is64, u < 2 ^ 30 := by
  cases is64 <;> simp [immSlots] <;> omega

theorem length_immSlots (v : Nat) (is64 : Bool) : (immSlots v is64).length = if is64 then 3 else 2 := by
  cases is64 <;> rfl

/-- The slot values of the immediates `imms` of forms `fs`, from the lowest slot upwards. -/
def formSlots (fs : List (Nat × Bool)) (imms : List Nat) : List Nat :=
  (imms.zip (fs.map (·.2))).reverse.flatMap fun e => immSlots e.1 e.2

theorem immTail_eq (limm : Nat) (imms : List Nat) : immTail limm imms = formSlots (immForms limm) imms := rfl

theorem formSlots_cons (f : Nat × Bool) (fs : List (Nat × Bool)) (v : Nat) (vs : List Nat) :
    formSlots (f :: fs) (v :: vs) = formSlots fs vs ++ immSlots v f.2 := by simp [formSlots]

theorem formSlots_lt {fs : List (Nat × Bool)} {imms : List Nat} : ∀ u ∈ formSlots fs imms, u < 2 ^ 30 := by
  intro u hu
  obtain ⟨e, -, he⟩ := List.mem_flatMap.1 hu
  exact immSlots_lt u he

/-- Listed from slot `top` downwards, the forms fill the slots down to slot `low` without a gap. -/
def stacked : Nat → List (Nat × Bool) → Nat → Bool
  | top, [], low => top == low
  | top, f :: fs, low => top == f.1 + (if f.2 then 3 else 2) && stacked f.1 fs low

/-- The long immediates of a LIMM value fill exactly the slots above its move slots (R125). -/
theorem stacked_immForms : ∀ limm < 7, stacked 8 (immForms limm) (moveSlots limm) = true := by decide

theorem length_formSlots {low : Nat} : ∀ {fs : List (Nat × Bool)} {imms : List Nat} {top : Nat},
    stacked top fs low = true → imms.length = fs.length → low + (formSlots fs imms).length = top
  | [], [], top, h, _ => (beq_iff_eq.1 h).symm
  | f :: fs, v :: vs, top, h, hlen => by
    obtain ⟨htop, hfs⟩ := Bool.and_eq_true_iff.1 h
    rw [formSlots_cons, List.length_append, length_immSlots, ← Nat.add_assoc,
      length_formSlots hfs (Nat.succ.inj hlen)]
    exact (beq_iff_eq.1 htop).symm

/-- The slots above the moves hold each long immediate where its form says (R125). -/
theorem holds_immSlots_of_formSlots {x low : Nat} : ∀ {fs : List (Nat × Bool)} {imms : List Nat} {top : Nat},
    stacked top fs low = true → imms.length = fs.length → Holds x low (formSlots fs imms) →
    ∀ e ∈ imms.zip fs, Holds x e.2.1 (immSlots e.1 e.2.2)
  | [], [], _, _, _, _ => by simp
  | f :: fs, v :: vs, top, h, hlen, hx => by
    obtain ⟨-, hfs⟩ := Bool.and_eq_true_iff.1 h
    rw [formSlots_cons, holds_append, length_formSlots hfs (Nat.succ.inj hlen)] at hx
    obtain ⟨hrest, hv⟩ := hx
    rw [List.zip_cons_cons, List.forall_mem_cons]
    exact ⟨hv, holds_immSlots_of_formSlots hfs (Nat.succ.inj hlen) hrest⟩

/-- The slots that hold a long immediate give its value back (R126). -/
theorem immValue_of_holds {x v : Nat} {f : Nat × Bool} (hfits : ImmFits v f) (h : Holds x f.1 (immSlots v f.2)) :
    immValue x f = v := by
  obtain ⟨s, is64⟩ := f
  obtain ⟨hv, hform⟩ := hfits
  cases is64 with
  | true =>
    obtain ⟨h0, h1, h2, -⟩ := h
    simp only [immValue, h0, h1, h2, if_true]
    omega
  | false =>
    obtain ⟨h0, h1, -⟩ := h
    have hsext : wrap 64 (sext 60 (v % 2 ^ 60)) = v := by simpa using hform
    have hlow : v % 2 ^ 30 + v / 2 ^ 30 % 2 ^ 30 * 2 ^ 30 = v % 2 ^ 60 := by omega
    simp only [immValue, h0, h1, hlow, hsext, Bool.false_eq_true, if_false]

/-- The bits above a 64-bit immediate are zero in its top slot (R126, R130). -/
theorem immTop_of_holds {x v s : Nat} (h : Holds x s (immSlots v true)) : slotBits x (s + 2) / 16 = 0 := by
  obtain ⟨-, -, h2, -⟩ := h
  rw [h2]
  omega

/-- Reading the forms where their immediates are held gives the immediates. -/
theorem map_immValue {x : Nat} {fs : List (Nat × Bool)} {imms : List Nat} (hlen : imms.length = fs.length)
    (hfits : ∀ e ∈ imms.zip fs, ImmFits e.1 e.2) (h : ∀ e ∈ imms.zip fs, Holds x e.2.1 (immSlots e.1 e.2.2)) :
    fs.map (immValue x) = imms := by
  calc fs.map (immValue x)
    _ = (imms.zip fs).map (fun e => immValue x e.2) := by
      rw [← Function.comp_def, ← List.map_map, List.map_snd_zip hlen.ge]
    _ = (imms.zip fs).map Prod.fst := List.map_congr_left fun e he => immValue_of_holds (hfits e he) (h e he)
    _ = imms := List.map_fst_zip hlen.le

/-- No 64-bit form has bits above its value where its immediate is held, so R130 does not refuse it. -/
theorem immTop_clear {x : Nat} {fs : List (Nat × Bool)} {imms : List Nat} (hlen : imms.length = fs.length)
    (h : ∀ e ∈ imms.zip fs, Holds x e.2.1 (immSlots e.1 e.2.2)) :
    fs.any (fun f => f.2 && slotBits x (f.1 + 2) / 16 != 0) = false := by
  rw [List.any_eq_false]
  rintro ⟨s, is64⟩ hf
  rw [← List.map_snd_zip hlen.ge, List.mem_map] at hf
  obtain ⟨⟨v, _⟩, he, rfl⟩ := hf
  cases is64 with
  | true => simp [immTop_of_holds (h _ he)]
  | false => simp

/-! ### The header -/

/-- An enable bit above `w` bits of a value: AWE above AWTAG and ANG above GATE; all zero where not enabled (R114). -/
def enabledField (w : Nat) : Option Nat → Nat
  | some v => 2 ^ w + v
  | none => 0

theorem encodeHeader_eq (b : Bundle) : encodeHeader b =
    enabledField 5 b.await * 2 ^ 10 + enabledField 3 b.gate * 2 ^ 6 + b.isafe.toNat * 2 ^ 5 + b.limm * 4 := by
  unfold encodeHeader
  refine congrArg₂ (· + ·) (congrArg₂ (· + ·) (congrArg₂ (· + ·) ?await ?gate) ?isafe) rfl
  case await =>
    cases b.await with
    | none => rfl
    | some t => exact (Nat.add_mul (2 ^ 5) t (2 ^ 10)).symm
  case gate =>
    cases b.gate with
    | none => rfl
    | some k => exact (Nat.add_mul (2 ^ 3) k (2 ^ 6)).symm
  case isafe => cases b.isafe <;> rfl

/-- The enable bit set gives the value, the enable bit clear none, and then the value's bits are zero (R114). -/
theorem enabledField_reads {w : Nat} {o : Option Nat} (h : ∀ v, o = some v → v < 2 ^ w) :
    enabledField w o < 2 ^ (w + 1) ∧
    (if enabledField w o / 2 ^ w = 1 then some (enabledField w o % 2 ^ w) else none) = o ∧
    (enabledField w o / 2 ^ w ≠ 1 → enabledField w o % 2 ^ w = 0) := by
  cases o with
  | none => simp [enabledField]
  | some v =>
    have hv := h v rfl
    have henable : (2 ^ w + v) / 2 ^ w = 1 := by rw [Nat.add_div_left v (Nat.two_pow_pos w), Nat.div_eq_of_lt hv]
    have hvalue : (2 ^ w + v) % 2 ^ w = v := by rw [Nat.add_mod_left, Nat.mod_eq_of_lt hv]
    simp only [enabledField, henable, hvalue, if_true]
    exact ⟨by omega, trivial, fun hclear => absurd rfl hclear⟩

/-- The decoder reads from the header bits `h` the header of `b`, and nothing that R130 refuses (R114). -/
structure HeaderReads (h : Nat) (b : Bundle) : Prop where
  lt : h < 2 ^ 16
  reserved : h % 4 = 0
  limm : h / 4 % 8 = b.limm
  isafe : decide (h / 2 ^ 5 % 2 = 1) = b.isafe
  await : (if h / 2 ^ 15 % 2 = 1 then some (h / 2 ^ 10 % 32) else none) = b.await
  tag : h / 2 ^ 15 % 2 ≠ 1 → h / 2 ^ 10 % 32 = 0
  gate : (if h / 2 ^ 9 % 2 = 1 then some (h / 2 ^ 6 % 8) else none) = b.gate
  angle : h / 2 ^ 9 % 2 ≠ 1 → h / 2 ^ 6 % 8 = 0

theorem headerReads_encodeHeader {b : Bundle} (h : b.Fits) : HeaderReads (encodeHeader b) b := by
  obtain ⟨hawaitLt, hawait, htag⟩ := enabledField_reads (w := 5) h.await
  obtain ⟨hgateLt, hgate, hangle⟩ := enabledField_reads (w := 3) h.gate
  have hlimm := h.limm
  have hisafe := Bool.toNat_lt b.isafe
  have heq := encodeHeader_eq b
  have hawe : encodeHeader b / 2 ^ 15 % 2 = enabledField 5 b.await / 2 ^ 5 := by omega
  have hawtag : encodeHeader b / 2 ^ 10 % 32 = enabledField 5 b.await % 2 ^ 5 := by omega
  have hang : encodeHeader b / 2 ^ 9 % 2 = enabledField 3 b.gate / 2 ^ 3 := by omega
  have hgateNo : encodeHeader b / 2 ^ 6 % 8 = enabledField 3 b.gate % 2 ^ 3 := by omega
  have hsafe : encodeHeader b / 2 ^ 5 % 2 = b.isafe.toNat := by omega
  refine ⟨by omega, by omega, by omega, ?isafe, ?await, ?tag, ?gate, ?angle⟩
  case isafe => rw [hsafe]; cases b.isafe <;> rfl
  case await => rw [hawe, hawtag, hawait]
  case tag => rw [hawe, hawtag]; exact htag
  case gate => rw [hang, hgateNo, hgate]
  case angle => rw [hang, hgateNo]; exact hangle

/-! ### The whole bundle -/

/-- Decoding succeeds where the header, the moves and the long immediates read back those of a legal bundle. -/
theorem decodeBundle_of_reads {x : Nat} {b : Bundle} (hlimm : b.limm < 7) (hhead : HeaderReads (x % 2 ^ 16) b)
    (htop : (immForms b.limm).any (fun f => f.2 && slotBits x (f.1 + 2) / 16 != 0) = false)
    (hmoves : (List.range (moveSlots b.limm)).map (fun s => decodeMove (slotBits x s)) = b.moves)
    (himms : (immForms b.limm).map (immValue x) = b.imms)
    (hlegal : movesIllegal b.moves b.imms.length = none) : decodeBundle x = .ok b := by
  obtain ⟨-, hreserved, hl, hisafe, hawait, htag, hgate, hangle⟩ := hhead
  have hstrayTag : ¬ (¬ x % 2 ^ 16 / 2 ^ 15 % 2 = 1 ∧ x % 2 ^ 16 / 2 ^ 10 % 32 ≠ 0) := fun ⟨hn, ht⟩ => ht (htag hn)
  have hstrayGate : ¬ (¬ x % 2 ^ 16 / 2 ^ 9 % 2 = 1 ∧ x % 2 ^ 16 / 2 ^ 6 % 8 ≠ 0) := fun ⟨hn, hg⟩ => hg (hangle hn)
  have hreservedLimm : ¬ b.limm = 7 := hlimm.ne
  simp only [decodeBundle, hl, hmoves, himms, hlegal, htop, hisafe, hawait, hgate, if_neg hstrayTag, if_neg hstrayGate,
    if_neg hreservedLimm, if_neg (not_not_intro hreserved), Bool.false_eq_true, if_false]

section
variable {b : Bundle} (h : b.Fits)
include h

/-- Every value that encoding packs into a slot fits its 30 bits (R113). -/
theorem slots_lt : ∀ v ∈ b.moves.map encodeMove ++ immTail b.limm b.imms, v < 2 ^ 30 := by
  intro v hv
  rcases List.mem_append.1 hv with hv | hv
  · obtain ⟨m, hm, rfl⟩ := List.mem_map.1 hv
    exact encodeMove_lt (h.moves m hm)
  · rw [immTail_eq] at hv
    exact formSlots_lt v hv

theorem length_slots : (b.moves.map encodeMove ++ immTail b.limm b.imms).length = 8 := by
  rw [List.length_append, List.length_map, h.moves_length, immTail_eq]
  exact length_formSlots (stacked_immForms b.limm h.limm) h.imms_length

theorem encodeBundle_lt : encodeBundle b < 2 ^ 256 := by
  have hhead := (headerReads_encodeHeader h).lt
  have hslots := packSlots_lt (slots_lt h)
  rw [length_slots h] at hslots
  unfold encodeBundle
  omega

theorem encodeBundle_mod_header : encodeBundle b % 2 ^ 16 = encodeHeader b := by
  rw [encodeBundle, Nat.add_mul_mod_self_left, Nat.mod_eq_of_lt (headerReads_encodeHeader h).lt]

theorem holds_encodeBundle : Holds (encodeBundle b) 0 (b.moves.map encodeMove ++ immTail b.limm b.imms) :=
  holds_packSlots (s := 0) (slots_lt h) (headerReads_encodeHeader h).lt

theorem holds_imms : ∀ e ∈ b.imms.zip (immForms b.limm), Holds (encodeBundle b) e.2.1 (immSlots e.1 e.2.2) := by
  have htail := (holds_append.1 (holds_encodeBundle h)).2
  rw [Nat.zero_add, List.length_map, h.moves_length, immTail_eq] at htail
  exact holds_immSlots_of_formSlots (stacked_immForms b.limm h.limm) h.imms_length htail

theorem decodeBundle_encodeBundle : decodeBundle (encodeBundle b) = .ok b := by
  have hhead := headerReads_encodeHeader h
  have himms := holds_imms h
  refine decodeBundle_of_reads h.limm ?_ (immTop_clear h.imms_length himms) ?_
    (map_immValue h.imms_length h.imms himms) h.legal
  · rwa [encodeBundle_mod_header h]
  · rw [← h.moves_length]
    exact moves_of_holds h.moves (holds_append.1 (holds_encodeBundle h)).1

end

/-- Settles O59: the header and each slot are read back from their own bits, and those from what was packed. -/
theorem bundleRoundTrip : Obligations.BundleRoundTrip := fun _ hwf =>
  ⟨encodeBundle_lt (Bundle.fits_of_wf hwf), decodeBundle_encodeBundle (Bundle.fits_of_wf hwf)⟩

theorem decodeBundle_of_encodeBundle_eq {b : Bundle} {x : Nat} (hwf : b.wf = true) (hx : encodeBundle b = x) :
    decodeBundle x = .ok b :=
  hx ▸ (bundleRoundTrip b hwf).2

/-- Settles O60: the words printed are the encodings of the bundles that the tables lay out, which are well formed. -/
theorem packingExample : Obligations.PackingExample :=
  ⟨decodeBundle_of_encodeBundle_eq (by decide) (by decide), decodeBundle_of_encodeBundle_eq (by decide) (by decide)⟩

end Sys2Proof.Machine
end

section
/-! PROOFS. PairCycles: what a cycle in which both cores of a pair act alike leaves (R208, R330). The notes of their reads
heal the words noted in both cores alike, and count in the memory controller alone. -/

namespace Sys2Proof.Machine

/-! ### What the memory controller counts (R332) -/

/-- `e` is `d` but for what the memory controller counts, reports and queues: the pairs and the registers of the blocks
ahead of its own are the same. -/
structure Dev.Counted (d e : Dev) : Prop where
  pairs : e.pairs = d.pairs
  word : ∀ a < 0x050000, e.word a = d.word a

section
variable {d e f : Dev}

theorem Dev.Counted.refl (d : Dev) : d.Counted d := ⟨rfl, fun _ _ => rfl⟩

theorem Dev.Counted.trans (h : d.Counted e) (h' : e.Counted f) : d.Counted f :=
  ⟨h'.pairs.trans h.pairs, fun a ha => (h'.word a ha).trans (h.word a ha)⟩

theorem Dev.Counted.ite {c : Prop} {_ : Decidable c} (he : d.Counted e) (hf : d.Counted f) :
    d.Counted (if c then e else f) := by
  split
  · exact he
  · exact hf

theorem Dev.Counted.setFld {g : Fld} {v : Nat} (h : d.Counted e) (hg : 0x050000 ≤ g.addr) : d.Counted (e.setFld g v) :=
  ⟨h.pairs, fun a ha => (word_setFld_ne e g v (ha.trans_le hg).ne).trans (h.word a ha)⟩

theorem Dev.Counted.present {i v : Nat} (h : d.Counted e) : d.Counted (e.present i v) := ⟨h.pairs, h.word⟩

theorem Dev.Counted.setPair {p : Nat} {x : Pair} (h : d.Counted e) : (d.setPair p x).Counted (e.setPair p x) :=
  ⟨congrArg (fun l => setNth l p x) h.pairs, h.word⟩

theorem Dev.Counted.pair (h : d.Counted e) (p : Nat) : e.pair p = d.pair p := pair_of_pairs h.pairs p

theorem Dev.Counted.fld (h : d.Counted e) {g : Fld} (hg : g.addr < 0x050000) : e.fld g = d.fld g :=
  fld_of_word g (h.word _ hg)

theorem Dev.Counted.bucketUp {inst : Nat} (h : d.Counted e) : d.Counted (e.bucketUp inst) := by
  have inst_addr : 0x050000 ≤ (MEMCTL_INST_BUCKET inst).addr := Nat.le_add_right_of_le (by decide)
  have ovf_addr : 0x050000 ≤ (MEMCTL_OVF_OVF (inst / 32)).addr := Nat.le_add_right_of_le (by decide)
  unfold Dev.bucketUp
  extract_lets b limit d1
  have h1 : d.Counted d1 := h.setFld inst_addr
  exact .ite (h.setFld inst_addr) (.ite h1 ((h1.setFld ovf_addr).setFld (by decide)).present)

theorem Dev.Counted.correctable {inst : Nat} (h : d.Counted e) : d.Counted (e.correctable inst) := by
  have hcount : d.Counted (e.count (MEMCTL_INST_CECNT inst)) := h.setFld (Nat.le_add_right_of_le (by decide))
  exact .ite hcount hcount.bucketUp

theorem Dev.Counted.queueWriteBack {inst word : Nat} (h : d.Counted e) : d.Counted (e.queueWriteBack inst word) :=
  .ite h ⟨h.pairs, h.word⟩

end

/-! ### Healed words (R322) -/

/-- The core with the valid copies of the word that a note names in agreement. -/
def Core.heal (c : Core) (n : MemNote) : Core :=
  if n.m = 1 then { c with imem := ramHeal c.imem n.word } else { c with dmem := ramHeal c.dmem n.word }

/-- The core with the valid copies of every word noted in agreement. -/
def Core.healed (l : List MemNote) (c : Core) : Core := l.foldl Core.heal c

/-- Nothing of a core but its memories is healed. -/
theorem healed_eq : ∀ (l : List MemNote) (c : Core), ∃ dm im, c.healed l = { c with dmem := dm, imem := im }
  | [], c => ⟨c.dmem, c.imem, rfl⟩
  | n :: t, c => by
    obtain ⟨dm, im, h⟩ := healed_eq t (c.heal n)
    have hcons : c.healed (n :: t) = (c.heal n).healed t := rfl
    rw [hcons, h, Core.heal]
    split <;> exact ⟨dm, im, rfl⟩

/-- The pair with its lead, or its shadow, changed by `f`. -/
def Pair.inCore (x : Pair) (shadow : Bool) (f : Core → Core) : Pair :=
  if shadow then { x with shadow := f x.shadow } else { x with lead := f x.lead }

theorem inCore_inCore (x : Pair) (shadow : Bool) (f g : Core → Core) :
    (x.inCore shadow f).inCore shadow g = x.inCore shadow (g ∘ f) := by cases shadow <;> rfl

theorem setNth_setNth {β : Type} : ∀ (l : List β) (i : Nat) (v w : β), setNth (setNth l i v) i w = setNth l i w
  | [], _, _, _ => rfl
  | _ :: _, 0, _, _ => rfl
  | x :: t, i + 1, v, w => congrArg (x :: ·) (setNth_setNth t i v w)

theorem setNth_nth {β : Type} (dflt : β) : ∀ (l : List β) (i : Nat), setNth l i (nth dflt l i) = l
  | [], _ => rfl
  | _ :: _, 0 => rfl
  | x :: t, i + 1 => congrArg (x :: ·) (setNth_nth dflt t i)

theorem setPair_setPair (d : Dev) (p : Nat) (x y : Pair) : (d.setPair p x).setPair p y = d.setPair p y :=
  congrArg (fun l => { d with pairs := l }) (setNth_setNth d.pairs p x y)

theorem setPair_pair (d : Dev) (p : Nat) : d.setPair p (d.pair p) = d :=
  congrArg (fun l => { d with pairs := l }) (setNth_nth {} d.pairs p)

section
variable {n : MemNote}

/-- The number of the memory that a note of a core of pair `p` names (R315). -/
abbrev noteInst (p : Nat) (shadow : Bool) (n : MemNote) : Nat := 88 + 4 * p + (if shadow then 2 else 0) + n.m

theorem localInst_noteInst (p : Nat) (shadow : Bool) (h : n.m < 2) :
    localInst (noteInst p shadow n) = (p, shadow, decide (n.m = 1)) := by
  cases shadow <;> simp only [localInst, noteInst, Prod.mk.injEq, decide_eq_decide, decide_eq_true_eq,
    decide_eq_false_iff_not, Bool.false_eq_true, if_true, if_false] <;> omega

theorem localRam_noteInst (d : Dev) (p : Nat) (shadow : Bool) (h : n.m < 2) :
    d.localRam (noteInst p shadow n) =
      if n.m = 1 then (if shadow then (d.pair p).shadow else (d.pair p).lead).imem
      else (if shadow then (d.pair p).shadow else (d.pair p).lead).dmem := by
  simp only [Dev.localRam, localInst_noteInst p shadow h, decide_eq_true_eq]

theorem setLocalRam_noteInst (d : Dev) (p : Nat) (shadow : Bool) (h : n.m < 2) (m : Ram) :
    d.setLocalRam (noteInst p shadow n) m = d.setPair p ((d.pair p).inCore shadow fun c =>
      if n.m = 1 then { c with imem := m } else { c with dmem := m }) := by
  simp only [Dev.setLocalRam, localInst_noteInst p shadow h, decide_eq_true_eq, Pair.inCore]

/-- A note heals its word in the core that read it. -/
theorem setLocalRam_heal (d : Dev) (p : Nat) (shadow : Bool) (h : n.m < 2) :
    d.setLocalRam (noteInst p shadow n) (ramHeal (d.localRam (noteInst p shadow n)) n.word) =
      d.setPair p ((d.pair p).inCore shadow fun c => c.heal n) := by
  rw [setLocalRam_noteInst d p shadow h, localRam_noteInst d p shadow h]
  unfold Pair.inCore Core.heal
  split <;> split <;> rfl

/-- A word whose valid copies agree has nothing to heal. -/
theorem inCore_heal_of_not_split (d : Dev) (p : Nat) (shadow : Bool) (h : n.m < 2)
    (hs : ¬ ramSplit (d.localRam (noteInst p shadow n)) n.word = true) :
    (d.pair p).inCore shadow (fun c => c.heal n) = d.pair p := by
  rw [localRam_noteInst d p shadow h] at hs
  cases shadow <;> by_cases hm : n.m = 1 <;> simp_all [Pair.inCore, Core.heal, ramHeal]

/-- The notes of one core's reads heal its words, and are counted (R330). -/
theorem counted_noteLocal (d : Dev) (p : Nat) (shadow : Bool) (h : n.m < 2) :
    (d.setPair p ((d.pair p).inCore shadow fun c => c.heal n)).Counted (d.noteLocal p shadow n) := by
  unfold Dev.noteLocal
  extract_lets inst m split d1 d2
  have h1 : d1 = d.setPair p ((d.pair p).inCore shadow fun c => c.heal n) := by
    show (if split then _ else d) = _
    split
    · exact setLocalRam_heal d p shadow h
    · next hs => rw [inCore_heal_of_not_split d p shadow h hs, setPair_pair]
  have hd : (d.setPair p ((d.pair p).inCore shadow fun c => c.heal n)).Counted d1 := h1 ▸ .refl _
  refine .ite (.setFld (.ite hd.correctable hd) (Nat.le_add_right_of_le (by decide))) ?_
  exact .ite hd.correctable hd.correctable.queueWriteBack

/-- Counting after a change of a pair, and then after another of the same pair, is counting after the last. -/
theorem Dev.Counted.overwrite {d e f : Dev} {p : Nat} {x y : Pair} (h : (d.setPair p x).Counted e)
    (h' : (e.setPair p y).Counted f) : (d.setPair p y).Counted f := by
  have hset := h.setPair (p := p) (x := y)
  rw [setPair_setPair] at hset
  exact hset.trans h'

theorem Dev.Counted.pair_same {d e : Dev} {p : Nat} {x : Pair} (h : (d.setPair p x).Counted e) (hp : p < d.pairs.length) :
    e.pair p = x := (h.pair p).trans (pair_setPair_same d p x hp)

theorem Dev.Counted.length {d e : Dev} {p : Nat} {x : Pair} (h : (d.setPair p x).Counted e) :
    e.pairs.length = d.pairs.length := (congrArg List.length h.pairs).trans (length_setPair d p x)

theorem counted_foldl_noteLocal (p : Nat) (shadow : Bool) : ∀ (l : List MemNote) (d : Dev), p < d.pairs.length →
    (∀ n ∈ l, n.m < 2) → (d.setPair p ((d.pair p).inCore shadow (Core.healed l))).Counted
      (l.foldl (fun d n => d.noteLocal p shadow n) d)
  | [], d, _, _ => by
    have hid : (d.pair p).inCore shadow (Core.healed []) = d.pair p := by cases shadow <;> rfl
    rw [hid, setPair_pair]
    exact .refl d
  | n :: t, d, hp, hl => by
    obtain ⟨hn, ht⟩ := List.forall_mem_cons.1 hl
    have h1 := counted_noteLocal d p shadow hn
    have h2 := counted_foldl_noteLocal p shadow t _ (h1.length ▸ hp) ht
    rw [h1.pair_same hp, inCore_inCore] at h2
    exact h1.overwrite h2

/-- The notes of both cores heal the words of each, and are counted (R330). -/
theorem counted_noteBoth {d : Dev} {p : Nat} {a b : List MemNote} (hp : p < d.pairs.length) (ha : ∀ n ∈ a, n.m < 2)
    (hb : ∀ n ∈ b, n.m < 2) :
    (d.setPair p { d.pair p with lead := (d.pair p).lead.healed a, shadow := (d.pair p).shadow.healed b }).Counted
      (d.noteBoth p a b) := by
  have h1 := counted_foldl_noteLocal p false a d hp ha
  have h2 := counted_foldl_noteLocal p true b _ (h1.length ▸ hp) hb
  rw [h1.pair_same hp] at h2
  exact h1.overwrite h2

end

/-! ### Both cores enter (R208) -/

section
variable {d : Dev} {p n : Nat} {f : Core → CoreStep}

/-- The pair with both its cores as `a` leaves them, after `n` cycles: the words that its reads note are healed. -/
abbrev Pair.agreed (x : Pair) (a : CoreStep) (n : Nat) : Pair := (x.both fun _ => a.core.healed a.notes).spend n

/-- What both cores of pair `p` leave that act alike: their notes counted, their signals still to leave the pair. -/
def Dev.agreed (d : Dev) (p : Nat) (a : CoreStep) (n : Nat) : Dev :=
  (d.setPair p (((d.pair p).both fun _ => a.core).spend n)).noteBoth p a.notes a.notes

theorem counted_agreed {a : CoreStep} (hp : p < d.pairs.length) (ha : ∀ n ∈ a.notes, n.m < 2) :
    (d.setPair p ((d.pair p).agreed a n)).Counted (d.agreed p a n) := by
  have h := counted_noteBoth (d := d.setPair p (((d.pair p).both fun _ => a.core).spend n)) (by rwa [length_setPair]) ha ha
  rw [pair_setPair_same _ _ _ hp, setPair_setPair] at h
  exact h

/-- The same with the signals of both cores, which agree, sent out of the pair. -/
def Dev.signalled (d : Dev) (p : Nat) (a : CoreStep) (n : Nat) : Dev :=
  (a.outs.foldl (fun d o => d.emit p o) (d.agreed p a n)).noteOcc p

/-- Cores that enter alike differ in no signal. -/
theorem enterBoth_of_agree (heq : (d.pair p).lead = (d.pair p).shadow) :
    d.enterBoth p f n = (d.signalled p (f (d.pair p).lead) n).settleHalt p := by
  have hagree (u : Nat) (l : List CoreOut) : outDiffer u l l = none := if_pos rfl
  simp only [Dev.enterBoth, Dev.pairCycle, ← heq, hagree]
  rfl

theorem length_of_quiet (hq : d.quiet p) : d.pairs.length = 16 := hq.1

/-- The report of a trap's PC acts on no pair. -/
theorem foldl_emit_pairs : ∀ (l : List CoreOut) (d : Dev), (∀ o ∈ l, ∃ rpc, o = .expiryPc rpc) →
    (l.foldl (fun d o => d.emit p o) d).pairs = d.pairs
  | [], _, _ => rfl
  | o :: t, d, h => by
    obtain ⟨⟨rpc, rfl⟩, ht⟩ := List.forall_mem_cons.1 h
    exact foldl_emit_pairs t _ ht

/-- A core's act notes reads of its own memories, and sends out nothing but the PC of an expiry trap. -/
structure CoreStep.Contained (a : CoreStep) : Prop where
  notes : ∀ n ∈ a.notes, n.m < 2
  outs : ∀ o ∈ a.outs, ∃ rpc, o = .expiryPc rpc

section
variable (hq : d.quiet p) (hp : p < 16) (hf : (f (d.pair p).lead).Contained)
include hq hp hf

theorem pair_signalled :
    (d.signalled p (f (d.pair p).lead) n).pair p = (d.pair p).agreed (f (d.pair p).lead) n := by
  have hlen := length_of_quiet hq
  exact (pair_of_pairs ((noteOcc_pairs _ p).trans (foldl_emit_pairs _ _ hf.outs)) p).trans
    ((counted_agreed (hlen ▸ hp) hf.notes).pair_same (hlen ▸ hp))

/-- In a quiet pair an entry ends with its signals, as no halt is asked for. -/
theorem enterBoth_eq : d.enterBoth p f n = d.signalled p (f (d.pair p).lead) n := by
  have hpair := pair_signalled (n := n) hq hp hf
  obtain ⟨-, heq, -, hhalt, -⟩ := hq
  rw [enterBoth_of_agree heq]
  exact settleHalt_of_not_asked ((congrArg (fun y : Pair => y.dbg.haltAsked) hpair).trans hhalt)

theorem pair_enterBoth : (d.enterBoth p f n).pair p = (d.pair p).agreed (f (d.pair p).lead) n := by
  rw [enterBoth_eq hq hp hf]
  exact pair_signalled hq hp hf

/-- Both cores of a quiet pair come to what the entry makes of them, but for healed words of their memories. -/
theorem cores_enterBoth {P : Core → Prop} (hP : ∀ dm im, P { (f (d.pair p).lead).core with dmem := dm, imem := im }) :
    (d.enterBoth p f n).cores p P := by
  obtain ⟨dm, im, hheal⟩ := healed_eq (f (d.pair p).lead).notes (f (d.pair p).lead).core
  refine cores_of_pair (pair_enterBoth hq hp hf) rfl ?_
  show P ((f (d.pair p).lead).core.healed _)
  rw [hheal]
  exact hP dm im

/-- An entry in a pair that makes no debug step is no step of one. -/
theorem stepped_enterBoth : (d.enterBoth p f n).stepped p = d.enterBoth p f n := by
  have hpair := pair_enterBoth (n := n) hq hp hf
  obtain ⟨-, -, -, -, hstep, -⟩ := hq
  have hoff : ((d.enterBoth p f n).pair p).dbg.stepping = false :=
    (congrArg (fun y : Pair => y.dbg.stepping) hpair).trans hstep
  simp [Dev.stepped, hoff]

end

end

end Sys2Proof.Machine
end

section
/-! PROOFS. Entries: what the entry of an interrupt, an exception and the expiry trap makes of a core and of a quiet pair
(R179 to R193, `Obligations.EntriesTaken`). -/

namespace Sys2Proof.Machine

/-! ### Stores of a record (R187, R223) -/

section
variable {c : Core} {k pc vec level : Nat}

theorem logWord_eq (c : Core) (w : Nat) : ∃ u, c.logWord w = { c with undo := u } := by
  unfold Core.logWord
  split
  · exact ⟨c.undo, rfl⟩
  · exact ⟨_, rfl⟩

theorem localStore_eq (c : Core) (addr n v : Nat) :
    ∃ dm u, (c.localStore addr n v).1 = { c with dmem := dm, undo := u } := by
  rcases localStore_cases c addr n v with h | ⟨x, h⟩
  · exact ⟨c.dmem, c.undo, h⟩
  · obtain ⟨u, hu⟩ := logWord_eq c ((addr - localBase) / 8)
    exact ⟨_, u, h.trans (by rw [hu])⟩

/-- A record changes nothing of the core but the data memory and the undo log. -/
theorem writeRecord_eq (c : Core) (w : Nat) (r : Rec) : ∃ dm u, c.writeRecord w r = { c with dmem := dm, undo := u } := by
  unfold Core.writeRecord
  extract_lets put
  have hput (c : Core) (i v : Nat) : ∃ dm u, put c i v = { c with dmem := dm, undo := u } := localStore_eq ..
  obtain ⟨dm1, u1, h1⟩ := hput c 0 r.word0
  obtain ⟨dm2, u2, h2⟩ := hput (put c 0 r.word0) 1 r.addr
  obtain ⟨dm3, u3, h3⟩ := hput (put (put c 0 r.word0) 1 r.addr) 2 r.info
  obtain ⟨dm4, u4, h4⟩ := hput (put (put (put c 0 r.word0) 1 r.addr) 2 r.info) 3 0
  exact ⟨dm4, u4, by rw [h4, h3, h2, h1]⟩

/-! ### Entering a handler (R179, R180, R182) -/

/-- `h` has begun the handler at `pc` and `level`, from the context of `c`, which bank `k` holds. -/
structure Core.Handles (c h : Core) (k pc level : Nat) : Prop where
  pc : h.pc = pc
  level : h.level = level
  priv : pswPriv h.psw = true
  ie : pswIE h.psw = pswIE c.psw
  transfers : h.transfers = []
  inflight : h.inflight = []
  regs : h.regs = c.regs
  tags : h.tags = c.tags
  oports : h.oports = c.oports
  rports : h.rports = c.rports
  stopped : h.stopped = c.stopped
  saved : h.bank k = some c.saved
  other : h.bank (1 - k) = c.bank (1 - k)

theorem pswPriv_entered (psw : Nat) : pswPriv (pswEntered psw) = true := by simp [pswPriv, pswEntered]

theorem pswIE_entered (psw : Nat) : pswIE (pswEntered psw) = pswIE psw := by
  simp [pswIE, pswEntered, Nat.testBit_or, Nat.testBit_one_eq_true_iff_self_eq_zero]

/-- A bank occupied and a handler started, whatever else is stored. -/
theorem handles_startHandler (c : Core) (k pc level : Nat) (dm : Ram) (u : List (Nat × DWord)) :
    c.Handles (({ c.occupy k c.saved with dmem := dm, undo := u } : Core).startHandler pc level) k pc level := by
  unfold Core.occupy
  split
  · next hk =>
    subst hk
    exact ⟨rfl, rfl, pswPriv_entered _, pswIE_entered _, rfl, rfl, rfl, rfl, rfl, rfl, rfl, rfl, rfl⟩
  · next hk =>
    have hother : 1 - k = 0 := by omega
    refine ⟨rfl, rfl, pswPriv_entered _, pswIE_entered _, rfl, rfl, rfl, rfl, rfl, rfl, rfl, if_neg hk, ?_⟩
    rw [hother]
    rfl

theorem vectorNotes_m (c : Core) (vec : Nat) : ∀ n ∈ c.vectorNotes vec, n.m < 2 := by
  unfold Core.vectorNotes localRead
  extract_lets o r v
  split <;> simp

/-- With a free bank and a vector that can be read, an entry saves the bank and starts the handler. -/
theorem handles_enter (hk : c.freeBank = some k) (hv : c.vector vec = some pc) (mk : Rec → Rec) :
    c.Handles (c.enter vec level mk).core k pc level ∧ (c.enter vec level mk).Contained := by
  obtain ⟨dm, u, hrec⟩ := writeRecord_eq (c.occupy k c.saved) (recordWord k)
    (mk { rpc := c.pc, cause := 0, level := c.level, priv := pswPriv c.psw, ie := pswIE c.psw })
  have henter : c.enter vec level mk =
      { core := ({ c.occupy k c.saved with dmem := dm, undo := u } : Core).startHandler pc level
        notes := c.vectorNotes vec } := by
    simp only [Core.enter, hk, hv, hrec]
  rw [henter]
  exact ⟨handles_startHandler c k pc level dm u, vectorNotes_m c vec, by simp⟩

/-- The source of an interrupt that is entered is acknowledged (R177). -/
theorem handles_enterInterrupt {src : Nat} (hs : c.stopped = false) (hk : c.freeBank = some k)
    (hv : c.vector (intVector src) = some pc) :
    c.Handles (c.enterInterrupt src level).core k pc level ∧ (c.enterInterrupt src level).core.acked.testBit src = true ∧
      (c.enterInterrupt src level).Contained := by
  obtain ⟨hh, hc⟩ := handles_enter (level := level) hk hv fun r => { r with cause := 1, num := src }
  have hrun := Bool.eq_false_iff.1 (hh.stopped.trans hs)
  simp only [Core.enterInterrupt, if_neg hrun]
  exact ⟨{ hh with }, by simp [testBit_withBit], hc.notes, hc.outs⟩

theorem handles_enterException (hk : c.freeBank = some k) {e : Exc} (hv : c.vector (excVector e.cause) = some pc) :
    c.Handles (c.enterException e).core k pc 16 ∧ (c.enterException e).Contained := handles_enter hk hv _

/-- A precise exception is entered from the context with its trap spent and its report delivered. -/
theorem handles_enterPrecise (hs : c.stopped = false) (hk : c.freeBank = some k) {e : Exc}
    (hv : c.vector (excVector e.cause) = some pc) :
    (Core.reported { c with trapDue := none } e).Handles (c.enterPrecise e).core k pc 16 ∧ (c.enterPrecise e).Contained := by
  have h := handles_enterException (c := Core.reported { c with trapDue := none } e) hk hv
  have hrun := Bool.eq_false_iff.1 (h.1.stopped.trans hs)
  simp only [Core.enterPrecise, if_neg hrun]
  exact h

/-- The imprecise exception of a failed tag is entered at the vector of its error, and the tag is done again (R192). -/
theorem handles_enterImprecise {t : Nat} (hs : c.stopped = false) (hk : c.freeBank = some k)
    (hv : c.vector (excVector (causeOfError (c.tag t).code)) = some pc) :
    ∃ y, c.Handles y k pc 16 ∧ (c.enterImprecise (some t)).core = y.clearFailed t ∧
      (c.enterImprecise (some t)).Contained := by
  obtain ⟨hh, hc⟩ := handles_enterException hk
    (e := { cause := causeOfError (c.tag t).code, tag := t, addr := (c.tag t).addr, info := errorStatus (c.tag t).code }) hv
  have hrun := Bool.eq_false_iff.1 (hh.stopped.trans hs)
  simp only [Core.enterImprecise, if_neg hrun]
  exact ⟨_, hh, rfl, hc.notes, hc.outs⟩

theorem tag_clearFailed (c : Core) (t : Nat) : ((c.clearFailed t).tag t).st = .done :=
  congrArg TagEnt.st (arrGet_arrSet_same ..)

/-- The expiry trap saves no bank: only a record is stored (R193). -/
theorem enterExpiry_eq (hv : c.vector (excVector 0x0E) = some pc) :
    ∃ dm u, c.enterExpiry =
      { core := { ({ c with dmem := dm, undo := u } : Core).startHandler pc 17 with expiry := false }
        outs := [.expiryPc c.pc], notes := c.vectorNotes (excVector 0x0E) } := by
  obtain ⟨dm, u, hrec⟩ := writeRecord_eq c (0x1FFC0 / 8)
    { rpc := c.pc, cause := 0x0E, level := c.level, priv := pswPriv c.psw, ie := pswIE c.psw }
  exact ⟨dm, u, by simp only [Core.enterExpiry, hv, hrec]⟩

end

/-! ### The boundary that asks for an entry (R172) -/

section
variable {d : Dev} {p : Nat} {b : Boundary}

/-- A quiet pair whose boundary brings anything has not stopped. -/
theorem not_stopped_of_boundary (hq : d.quiet p) (hb : (d.pair p).boundary = some b) (hne : b ≠ .none) :
    (d.pair p).lead.stopped = false := by
  obtain ⟨-, -, -, -, hstep, -⟩ := hq
  have hlead : (d.pair p).boundaryOf (d.pair p).lead = b := by
    unfold Pair.boundary at hb
    extract_lets a at hb
    split at hb
    · exact Option.some.inj hb
    · cases hb
  cases hs : (d.pair p).lead.stopped with
  | false => rfl
  | true => exact absurd (by simp [← hlead, Pair.boundaryOf, hstep, Core.boundary, hs]) hne

theorem interruptEntry_enters {src pr : Nat} (hat : d.atBoundary p = true) (hb : (d.pair p).boundary = some (.interrupt src pr)) :
    interruptEntry p [] d = d.enterBoth p (fun c => c.enterInterrupt src pr) 8 := by
  simp [interruptEntry, hat, hb, Dev.arrive]

theorem preciseEntry_illegal (hat : d.atBoundary p = true) (hb : (d.pair p).boundary = some .illegal) :
    preciseEntry p [] d = (d.enterBoth p (fun c => c.enterPrecise { cause := 3 }) 8).stepped p := by
  simp [preciseEntry, hat, hb, Dev.precise, Dev.arrive]

theorem impreciseEntry_enters {tag : Option Nat} (hat : d.atBoundary p = true)
    (hb : (d.pair p).boundary = some (.imprecise tag)) :
    impreciseEntry p [] d = d.enterBoth p (fun c => c.enterImprecise tag) 8 := by
  simp [impreciseEntry, hat, hb, Dev.arrive]

theorem expiryEntry_enters (hat : d.atBoundary p = true) (hb : (d.pair p).boundary = some .expiry) :
    expiryEntry p d = d.enterBoth p Core.enterExpiry 8 := by
  simp [expiryEntry, hat, hb]

end

/-! ### Keeper's record of the trap (R193, R410) -/

section
variable {d : Dev} {p rpc : Nat}

theorem word_noteOcc_ne (d : Dev) (p : Nat) {a : Nat} (h : a ≠ 0x010028 + 0x1000 * p) : (d.noteOcc p).word a = d.word a := by
  have raised (e : Dev) (f : Fld) (v : Nat) (hf : f.addr = 0x010028 + 0x1000 * p) :
      (if e.fld f < v then e.setFld f (min 255 v) else e).word a = e.word a := by
    split
    · exact word_setFld_ne _ _ _ (hf ▸ h)
    · rfl
  exact (raised _ _ _ rfl).trans ((raised _ _ _ rfl).trans (raised _ _ _ rfl))

theorem fld_trapRpc (d : Dev) (p rpc : Nat) :
    (d.trapRpc p rpc).fld (KEEPER_EVPC_VALID p) = 1 ∧ (d.trapRpc p rpc).fld (KEEPER_EVPC_RPC p) = rpc % 4096 ∧
      (d.trapRpc p rpc).fld (KEEPER_EVPC_LPAIR p) = d.lpairOf p % 16 := by
  have rpc_fits : (KEEPER_EVPC_RPC p).Fits := (by decide : 0 + 12 ≤ 32)
  have lpair_fits : (KEEPER_EVPC_LPAIR p).Fits := (by decide : 16 + 4 ≤ 32)
  have valid_fits : (KEEPER_EVPC_VALID p).Fits := (by decide : 31 + 1 ≤ 32)
  have rpc_lpair : (KEEPER_EVPC_LPAIR p).Apart (KEEPER_EVPC_RPC p) := .inr (.inr (by decide : 0 + 12 ≤ 16))
  have rpc_valid : (KEEPER_EVPC_VALID p).Apart (KEEPER_EVPC_RPC p) := .inr (.inr (by decide : 0 + 12 ≤ 31))
  have lpair_valid : (KEEPER_EVPC_VALID p).Apart (KEEPER_EVPC_LPAIR p) := .inr (.inr (by decide : 16 + 4 ≤ 31))
  refine ⟨fld_setFld_same _ 1 valid_fits, ?_, ?_⟩
  · exact (fld_setFld_apart _ 1 rpc_valid).trans ((fld_setFld_apart _ _ rpc_lpair).trans (fld_setFld_same d rpc rpc_fits))
  · exact (fld_setFld_apart _ 1 lpair_valid).trans (fld_setFld_same _ _ lpair_fits)

end

/-! ### The entries of a quiet pair -/

section
variable {d : Dev} {p : Nat} {k pc : Nat} (hq : d.quiet p) (hp : p < 16) (hat : d.atBoundary p = true)
include hq hp hat

theorem cores_interruptEntry {src pr : Nat} (hb : (d.pair p).boundary = some (.interrupt src pr))
    (hk : (d.pair p).lead.freeBank = some k) (hv : (d.pair p).lead.vector (intVector src) = some pc) :
    (interruptEntry p [] d).cores p fun h => (d.pair p).lead.Handles h k pc pr ∧ h.acked.testBit src = true := by
  obtain ⟨hh, hack, hc⟩ := handles_enterInterrupt (level := pr) (not_stopped_of_boundary hq hb (by simp)) hk hv
  rw [interruptEntry_enters hat hb]
  exact cores_enterBoth hq hp hc fun dm im => ⟨{ hh with }, hack⟩

theorem cores_preciseEntry_illegal (hb : (d.pair p).boundary = some .illegal)
    (hk : (d.pair p).lead.freeBank = some k) (hv : (d.pair p).lead.vector (excVector 3) = some pc) :
    (preciseEntry p [] d).cores p fun h =>
      (Core.reported { (d.pair p).lead with trapDue := none } { cause := 3 }).Handles h k pc 16 := by
  obtain ⟨hh, hc⟩ := handles_enterPrecise (e := { cause := 3 }) (not_stopped_of_boundary hq hb (by simp)) hk hv
  rw [preciseEntry_illegal hat hb, stepped_enterBoth hq hp hc]
  exact cores_enterBoth hq hp hc fun dm im => { hh with }

theorem cores_impreciseEntry {t : Nat} (hb : (d.pair p).boundary = some (.imprecise (some t)))
    (hk : (d.pair p).lead.freeBank = some k)
    (hv : (d.pair p).lead.vector (excVector (causeOfError ((d.pair p).lead.tag t).code)) = some pc) :
    (impreciseEntry p [] d).cores p fun h => ∃ y, (d.pair p).lead.Handles y k pc 16 ∧ h = y.clearFailed t := by
  obtain ⟨y, hh, hy, hc⟩ := handles_enterImprecise (t := t) (not_stopped_of_boundary hq hb (by simp)) hk hv
  rw [impreciseEntry_enters hat hb]
  refine cores_enterBoth hq hp hc fun dm im => ⟨{ y with dmem := dm, imem := im }, { hh with }, ?_⟩
  show ({ (Core.enterImprecise _ (some t)).core with dmem := dm, imem := im } : Core) = _
  rw [hy]
  rfl

theorem expiryEntry_leaves (hb : (d.pair p).boundary = some .expiry)
    (hv : (d.pair p).lead.vector (excVector 0x0E) = some pc) :
    ((expiryEntry p d).cores p fun h => ∃ dm u im, h =
      { ({ (d.pair p).lead with dmem := dm, undo := u } : Core).startHandler pc 17 with expiry := false, imem := im }) ∧
    (expiryEntry p d).fld (KEEPER_EVPC_VALID p) = 1 ∧
    (expiryEntry p d).fld (KEEPER_EVPC_RPC p) = (d.pair p).lead.pc % 4096 ∧
    (expiryEntry p d).fld (KEEPER_EVPC_LPAIR p) = d.lpairOf p % 16 := by
  obtain ⟨dm, u, hx⟩ := enterExpiry_eq hv
  have hc : (d.pair p).lead.enterExpiry.Contained := by
    rw [hx]
    exact ⟨vectorNotes_m _ _, by simp⟩
  rw [expiryEntry_enters hat hb]
  refine ⟨cores_enterBoth hq hp hc fun dm' im => ⟨dm', u, im, by rw [hx]; rfl⟩, ?_⟩
  have hcount := counted_agreed (n := 8) (length_of_quiet hq ▸ hp) hc.notes
  have hlp : (d.agreed p (d.pair p).lead.enterExpiry 8).lpairOf p = d.lpairOf p :=
    hcount.fld (g := PAIRCTL_ROLE_LPAIR p) (by show 0x010000 + 0x1000 * p < 0x050000; omega)
  have houts : (d.pair p).lead.enterExpiry.outs = [.expiryPc (d.pair p).lead.pc] := by rw [hx]
  have hocc (e : Dev) (lo w : Nat) : (e.noteOcc p).fld ⟨0x0D0080 + 0x4 * p, lo, w⟩ = e.fld ⟨0x0D0080 + 0x4 * p, lo, w⟩ :=
    fld_of_word _ (word_noteOcc_ne e p (by show 0x0D0080 + 0x4 * p ≠ _; omega))
  rw [enterBoth_eq hq hp hc, Dev.signalled, houts, ← hlp]
  obtain ⟨hvalid, hrpc, hlpair⟩ := fld_trapRpc (d.agreed p (d.pair p).lead.enterExpiry 8) p (d.pair p).lead.pc
  exact ⟨(hocc ..).trans hvalid, (hocc ..).trans hrpc, (hocc ..).trans hlpair⟩

end

/-- Settles O8: by what each entry makes of a core, which both cores of the pair come to alike. -/
theorem entriesTaken : Obligations.EntriesTaken := by
  refine ⟨fun s p src pr k pc hq hat hb _ _ hk hv => ?interrupt, fun s p pc hq hat => ⟨?illegal, ?imprecise, ?expiry⟩⟩
  case interrupt =>
    refine completes_onDev rfl fun _ => ?_
    obtain ⟨heq, hh, hack⟩ := cores_interruptEntry hq p.isLt hat hb hk hv
    exact ⟨heq, hh.pc, hh.level, hh.priv, hh.ie, hh.transfers, hh.inflight, hack, hh.regs, hh.tags, hh.oports, hh.rports,
      ⟨_, hh.saved, rfl, rfl, rfl, rfl, rfl, rfl, rfl⟩, hh.other⟩
  case illegal =>
    intro k _ hk hb hv
    refine completes_onDev rfl fun _ => ?_
    obtain ⟨heq, hh⟩ := cores_preciseEntry_illegal hq p.isLt hat hb hk hv
    exact ⟨heq, hh.pc, hh.level, hh.priv, hh.inflight, Option.isSome_of_eq_some hh.saved, hh.regs⟩
  case imprecise =>
    intro k t _ _ hk hb hv
    refine completes_onDev rfl fun _ => ?_
    obtain ⟨heq, y, hh, hy⟩ := cores_impreciseEntry hq p.isLt hat hb hk hv
    refine ⟨heq, ?_⟩
    rw [hy]
    exact ⟨hh.pc, hh.level, tag_clearFailed y t, Option.isSome_of_eq_some hh.saved, hh.regs⟩
  case expiry =>
    intro hb hv
    refine completes_onDev rfl fun _ => ?_
    obtain ⟨⟨heq, dm, u, im, hh⟩, hevpc⟩ := expiryEntry_leaves hq p.isLt hat hb hv
    refine ⟨⟨heq, ?_⟩, hevpc⟩
    rw [hh]
    exact ⟨rfl, rfl, rfl, rfl, rfl, rfl, rfl, rfl, rfl⟩

end Sys2Proof.Machine
end

section
/-! PROOFS. Returns: what a return restores of a core, and the report of a starved schedule (R188, R194,
`Obligations.ReturnsAndStarvation`). -/

namespace Sys2Proof.Machine

/-! ### A return (R188) -/

theorem arrGet_foldl_arrSet {β : Type} [DecidableEq β] (dflt : β) (g : Nat → β) (m : List (Nat × β)) (i : Nat) :
    ∀ n, arrGet dflt ((List.range n).foldl (fun m j => arrSet dflt m j (g j)) m) i = if i < n then g i else arrGet dflt m i
  | 0 => rfl
  | n + 1 => by
    rw [List.range_succ, List.foldl_append, List.foldl_cons, List.foldl_nil, arrGet_arrSet, arrGet_foldl_arrSet dflt g m i n]
    split
    · next h => simp [h]
    · next h =>
      have hlt : i < n + 1 ↔ i < n := by omega
      simp only [hlt]

/-- `h` is `c` back in the context that bank `k` held as `b`, at the target of its `rfi`. -/
structure Core.Returned (c h : Core) (k : Nat) (b : Bank) (target : Nat) : Prop where
  pc : h.pc = target
  transfers : h.transfers = b.transfers
  psw : h.psw = b.psw
  level : h.level = b.level
  guards : h.guards = b.guards
  lc : h.lc = b.lc
  oports : h.oports = b.oports
  rports : h.rports = b.rports
  inflight : h.inflight = b.inflight
  freed : h.bank k = none
  other : h.bank (1 - k) = c.bank (1 - k)
  low : ∀ i < 16, h.reg i = (arrGet (0 : DWord) b.a i).toNat
  high : ∀ i, 16 ≤ i → h.reg i = c.reg i

theorem bank_freeBankK_same (c : Core) (k : Nat) : (c.freeBankK k).bank k = none := by
  unfold Core.freeBankK Core.bank
  split <;> rfl

theorem bank_freeBankK_other (c : Core) (k : Nat) : (c.freeBankK k).bank (1 - k) = c.bank (1 - k) := by
  unfold Core.freeBankK
  split
  · next hk => subst hk; rfl
  · next hk =>
    have hother : 1 - k = 0 := by omega
    rw [hother]
    rfl

theorem returned_restore {c : Core} {t : Transfer} {k : Nat} {b : Bank}
    (ht : c.transfers.find? (fun t => t.rfi && t.remain == 0) = some t) (hk : c.rfiBank = some k) (hb : c.bank k = some b) :
    c.Returned c.restore k b t.target := by
  simp only [Core.restore, ht, hk, hb]
  refine ⟨rfl, rfl, rfl, rfl, rfl, rfl, rfl, rfl, rfl, bank_freeBankK_same c k, bank_freeBankK_other c k, fun i hi => ?_,
    fun i hi => ?_⟩
  · exact congrArg BitVec.toNat ((arrGet_foldl_arrSet 0 _ c.regs i 16).trans (if_pos hi))
  · exact congrArg BitVec.toNat ((arrGet_foldl_arrSet 0 _ c.regs i 16).trans (if_neg hi.not_gt))

section
variable {d : Dev} {p : Nat}

/-- A return that is due is made by both cores of a quiet pair. -/
theorem cores_returnRestore (hq : d.quiet p) (hp : p < 16) (hat : d.atBoundary p = true)
    (hdue : (d.pair p).lead.returnDue = true) {P : Core → Prop} (hP : P (d.pair p).lead.restore) :
    (returnRestore p d).cores p P := by
  obtain ⟨hlen, heq, -, hhalt, -⟩ := hq
  have hpair := pair_setPair_same d p (((d.pair p).both Core.restore).spend 2) (hlen ▸ hp)
  have hret : returnRestore p d = d.setPair p (((d.pair p).both Core.restore).spend 2) := by
    simp only [returnRestore, hat, hdue, Bool.and_self, if_true]
    exact settleHalt_of_not_asked ((congrArg (fun y : Pair => y.dbg.haltAsked) hpair).trans hhalt)
  rw [hret]
  exact cores_of_pair hpair (congrArg Core.restore heq) hP

/-! ### A starved schedule (R194) -/

theorem isafeStarve_of_reached (hrun : d.pairRuns p = true) (hcount : (d.pair p).isafeMax ≤ (d.pair p).lead.isafeCount)
    (hnot : (d.pair p).lead.starved = false) : isafeStarve p d =
      ((d.setPair p ((d.pair p).both fun c => { c with starved := true })).flag (INTC_FSTAT_STARVE (d.lpairOf p))).presentPair
        p pfStarve := by
  simp only [isafeStarve, hrun, hcount, hnot, decide_true, Bool.not_false, Bool.and_self, if_true]
  rfl

theorem isafeStarve_of_starved (h : (d.pair p).lead.starved = true) : isafeStarve p d = d := by
  simp [isafeStarve, h]

/-- A pair's fault waits at the island with a quarter of the segment's count as its detail (R389). -/
theorem awaits_presentPair {n : Nat} (k : Nat) (h : (d.pair p).segCount = n) :
    (d.presentPair p k).Awaits (pairFault p k) (n / 4 % 65536) := h ▸ awaits_present_cut ..

/-- The first report sets the flag, presents the fault input, and marks both cores. -/
theorem isafeStarve_leaves (hq : d.quiet p) (hp : p < 16) (hrun : d.pairRuns p = true)
    (hcount : (d.pair p).isafeMax ≤ (d.pair p).lead.isafeCount) (hnot : (d.pair p).lead.starved = false) :
    (isafeStarve p d).fld (INTC_FSTAT_STARVE (d.lpairOf p)) = 1 ∧
      (isafeStarve p d).Awaits (pairFault p pfStarve) ((d.pair p).segCount / 4 % 65536) ∧
      (isafeStarve p d).cores p fun h => h = { (d.pair p).lead with starved := true } := by
  obtain ⟨hlen, heq, -⟩ := hq
  have hpair := pair_setPair_same d p ((d.pair p).both fun c => { c with starved := true }) (hlen ▸ hp)
  rw [isafeStarve_of_reached hrun hcount hnot]
  have hseg := congrArg Pair.segCount hpair
  refine ⟨?flag, awaits_presentPair pfStarve hseg, ?cores⟩
  case flag =>
    rw [presentPair_eq, fld_present, flag_eq, fld_setFld_same _ 1 (by decide : 0 + 1 ≤ 32)]
    rfl
  case cores => exact cores_of_pair hpair (congrArg (fun c : Core => { c with starved := true }) heq) rfl

end

/-- Settles O9: by what a return restores, and by what the first report of a starved schedule leaves. -/
theorem returnsAndStarvation : Obligations.ReturnsAndStarvation := by
  refine fun s p hq => ⟨?restores, ?reports, ?again⟩
  case restores =>
    intro t k b hat hdue ht hk hb
    refine completes_onDev rfl fun _ => cores_returnRestore hq p.isLt hat hdue ?_
    have h := returned_restore ht hk hb
    exact ⟨h.pc, h.transfers, h.psw, h.level, h.guards, h.lc, h.oports, h.rports, h.inflight, h.freed, h.other, h.low, h.high⟩
  case reports =>
    intro hrun hcount hnot
    obtain ⟨hflag, hfault, hcores⟩ := isafeStarve_leaves hq p.isLt hrun hcount hnot
    exact completes_onDev rfl fun _ => ⟨hflag, hfault.hasFault, hcores⟩
  case again => exact fun hstarved => completes_onDev rfl fun _ => isafeStarve_of_starved hstarved

end Sys2Proof.Machine
end

section
/-! PROOFS. CoreNotes: every read that a core's act notes is a read of the core's own memories (R330). -/

namespace Sys2Proof.Machine

/-- Every note names a memory of the core itself: its data memory or its instruction memory. -/
structure OwnNotes (l : List MemNote) : Prop where
  m : ∀ n ∈ l, n.m < 2

theorem OwnNotes.nil : OwnNotes [] := ⟨fun _ h => absurd h List.not_mem_nil⟩

theorem OwnNotes.cons {n : MemNote} {l : List MemNote} (h : n.m < 2) (hl : OwnNotes l) : OwnNotes (n :: l) :=
  ⟨List.forall_mem_cons.2 ⟨h, hl.m⟩⟩

theorem OwnNotes.append {k l : List MemNote} (hk : OwnNotes k) (hl : OwnNotes l) : OwnNotes (k ++ l) :=
  ⟨List.forall_mem_append.2 ⟨hk.m, hl.m⟩⟩

theorem OwnNotes.ite {p : Prop} {_ : Decidable p} {k l : List MemNote} (hk : OwnNotes k) (hl : OwnNotes l) :
    OwnNotes (if p then k else l) := by
  split
  · exact hk
  · exact hl

/-- An act of a core notes reads of its own memories alone. -/
structure CoreStep.OwnNotes (a : CoreStep) : Prop where
  notes : Machine.OwnNotes a.notes

theorem CoreStep.OwnNotes.ite {p : Prop} {_ : Decidable p} {a b : CoreStep} (ha : a.OwnNotes) (hb : b.OwnNotes) :
    (if p then a else b).OwnNotes := by
  split
  · exact ha
  · exact hb

/-! ### Reads of the local memories (R328, R329) -/

theorem ownNotes_localRead (m : Ram) (addr n : Nat) : OwnNotes (localRead m addr n).2.2 :=
  .ite (.cons Nat.two_pos .nil) .nil

theorem ownNotes_localStore (c : Core) (addr n v : Nat) : OwnNotes (c.localStore addr n v).2.2 := by
  unfold Core.localStore
  extract_lets o w d r
  split
  · exact .nil
  · split
    · exact .cons Nat.two_pos .nil
    · exact .ite (.cons Nat.two_pos .nil) .nil

theorem ownNotes_readWords (m : Ram) : ∀ n w : Nat, OwnNotes (readWords m w n).2.2
  | 0, _ => .nil
  | n + 1, w => .ite (.cons Nat.two_pos (ownNotes_readWords m n (w + 1))) (ownNotes_readWords m n (w + 1))

theorem ownNotes_localFill (m : Ram) : ∀ n a : Nat, OwnNotes (localFill m a n).2.2
  | 0, _ => .nil
  | n + 1, a => by
    have hread := ownNotes_readWords m 4 ((a - localBase) / 8)
    unfold localFill
    split
    · exact .nil
    · simp only
      split
      · exact hread
      · exact hread.append (ownNotes_localFill m n (a + 32))

theorem ownNotes_fetch (m : Ram) (i : Nat) : OwnNotes (fetchNotes m i) := by
  refine ⟨fun n hn => ?_⟩
  obtain ⟨q, -, hq⟩ := List.mem_filterMap.1 hn
  obtain ⟨-, hq⟩ := Option.ite_none_right_eq_some.1 hq
  cases hq
  exact Nat.one_lt_two

/-! ### Triggers (R75 step 4) -/

section
variable (c : Core) (env : CoreEnv) (user : Bool) (m0 : Ram) (cb0 : List CbEntry) (op : Nat) (m : LiveMove)

theorem ownNotes_trigCu : (c.trigCu op m).OwnNotes := by
  unfold Core.trigCu
  refine .ite ⟨.nil⟩ (.ite ⟨.nil⟩ (.ite ⟨.nil⟩ (.ite ?rfi (.ite ⟨.nil⟩ (.ite ⟨.nil⟩ (.ite ⟨.nil⟩ ⟨.nil⟩))))))
  case rfi =>
    split
    · exact ⟨ownNotes_localRead _ _ 8⟩
    · exact ⟨.nil⟩

/-- A load/store unit notes what its local forms read. -/
theorem ownNotes_trigLs (u : Nat) : (c.trigLs env user m0 cb0 u op m).OwnNotes := by
  unfold Core.trigLs
  extract_lets w n a cc r ad err unlocking
  refine .ite ⟨ownNotes_localRead m0 ad n⟩ (.ite ⟨ownNotes_localStore ..⟩ (.ite ?far (.ite ⟨.nil⟩ (.ite ?store (.ite ⟨.nil⟩
    (.ite ?unlock (.ite ⟨.nil⟩ (.ite ?lock ⟨.nil⟩))))))))
  case far => exact .ite ⟨ownNotes_localRead m0 ad n⟩ ⟨ownNotes_localStore ..⟩
  case store => exact .ite ⟨.nil⟩ ⟨.nil⟩
  case unlock => exact .ite ⟨.nil⟩ ⟨.nil⟩
  case lock => exact .ite ⟨.nil⟩ ⟨.nil⟩

theorem ownNotes_trigIo : (c.trigIo env user op m).OwnNotes := .ite (.ite ⟨.nil⟩ ⟨.nil⟩) ⟨.nil⟩

theorem ownNotes_trigKc : (c.trigKc m0 op m).OwnNotes := by
  have hsource (p : Prop) [Decidable p] (n w : Nat) :
      OwnNotes (if p then readWords m0 w n else ([], false, [])).2.2 := by
    split
    · exact ownNotes_readWords ..
    · exact .nil
  have hread (p : Prop) [Decidable p] (n w v : Nat) := (ownNotes_readWords m0 25 v).append (hsource p n w)
  exact .ite (.ite ⟨hread ..⟩ ⟨hread ..⟩) ⟨.nil⟩

theorem ownNotes_trigFill : (c.trigFill user m0 m).OwnNotes :=
  .ite ⟨.nil⟩ (.ite ⟨.nil⟩ (.ite ⟨ownNotes_localFill ..⟩ ⟨.nil⟩))

theorem ownNotes_trigAg : (c.trigAg op m).OwnNotes := .ite ⟨.nil⟩ (.ite ⟨.nil⟩ ⟨.nil⟩)

theorem ownNotes_trigEv : (c.trigEv op m).OwnNotes := .ite ⟨.nil⟩ (.ite ⟨.nil⟩ (.ite ⟨.nil⟩ ⟨.nil⟩))

/-- Of the units, the control, load/store, Keccak/CRC and fill units read the local memories. -/
theorem ownNotes_trigger (rm : Rm) : (c.trigger env rm user m0 cb0 m).OwnNotes :=
  .ite (ownNotes_trigCu ..) (.ite ⟨.nil⟩ (.ite ⟨.nil⟩ (.ite ⟨.nil⟩ (.ite ⟨.nil⟩ (.ite (ownNotes_trigLs ..)
    (.ite (ownNotes_trigIo ..) (.ite ⟨.nil⟩ (.ite (ownNotes_trigKc ..) (.ite (ownNotes_trigFill ..) (.ite (ownNotes_trigAg ..)
      (.ite (ownNotes_trigEv ..) ⟨.nil⟩)))))))))))

theorem ownNotes_triggers (rm : Rm) : ∀ (l : List LiveMove) (s : CoreStep), s.OwnNotes →
    (Core.triggers env rm user m0 cb0 l s).OwnNotes
  | [], _, h => h
  | _ :: t, _, h => ownNotes_triggers rm t _ ⟨h.notes.append (ownNotes_trigger ..).notes⟩

end

/-- A bundle that issues notes reads of its core's own memories. -/
theorem ownNotes_issue (c : Core) (env : CoreEnv) (b : Bundle) : (c.issue env b).OwnNotes :=
  ⟨(ownNotes_triggers env _ _ _ _ _ _ ⟨.nil⟩).notes⟩

/-! ### Entries (R182 to R193) -/

section
variable (c : Core)

theorem ownNotes_vector (vec : Nat) : OwnNotes (c.vectorNotes vec) := ⟨vectorNotes_m c vec⟩

theorem ownNotes_enter (vec level : Nat) (mk : Rec → Rec) : (c.enter vec level mk).OwnNotes := by
  unfold Core.enter
  split
  · exact ⟨.nil⟩
  · split <;> exact ⟨ownNotes_vector ..⟩

theorem ownNotes_enterExpiry : c.enterExpiry.OwnNotes := by
  unfold Core.enterExpiry
  split <;> exact ⟨ownNotes_vector ..⟩

theorem ownNotes_enterInterrupt (s p : Nat) : (c.enterInterrupt s p).OwnNotes := by
  unfold Core.enterInterrupt
  extract_lets x
  have hx : x.OwnNotes := ownNotes_enter ..
  exact .ite hx ⟨hx.notes⟩

theorem ownNotes_enterPrecise (e : Exc) : (c.enterPrecise e).OwnNotes := by
  unfold Core.enterPrecise
  extract_lets x
  have hx : x.OwnNotes := ownNotes_enter ..
  exact .ite ⟨hx.notes⟩ hx

theorem ownNotes_enterKept (k : KeptExc) : (c.enterKept k).OwnNotes := by
  unfold Core.enterKept
  extract_lets x
  have hx : x.OwnNotes := ownNotes_enter ..
  exact .ite ⟨hx.notes⟩ hx

theorem ownNotes_enterImprecise (tag : Option Nat) : (c.enterImprecise tag).OwnNotes := by
  unfold Core.enterImprecise
  split
  · extract_lets e x
    have hx : x.OwnNotes := ownNotes_enter ..
    exact .ite hx ⟨hx.notes⟩
  · split
    extract_lets x
    have hx : x.OwnNotes := ownNotes_enter ..
    exact .ite hx ⟨hx.notes⟩

end

end Sys2Proof.Machine
end

section
/-! PROOFS. Lockstep: the operations that act on both cores of a pair alike keep cores that are equal equal, and leave every
other pair as it is (R201, R203, R208). -/

namespace Sys2Proof.Machine

/-! ### Pairs in lockstep -/

/-- The two cores of the pair are in the same state. -/
abbrev Pair.Twin (x : Pair) : Prop := x.lead = x.shadow

section
variable {x : Pair}

theorem Pair.Twin.both (h : x.Twin) (f : Core → Core) : (x.both f).Twin := congrArg f h

theorem Pair.Twin.everywhere (h : x.Twin) (f : Core → Core) : (x.everywhere f).Twin := h.both f

/-- Cores that are equal reach one boundary (R172). -/
theorem Pair.Twin.boundary_ne_none (h : x.Twin) : x.boundary ≠ none := by simp [Pair.boundary, h]

theorem Pair.Twin.takeResponse (h : x.Twin) (c : CapInput) : (x.takeResponse c).Twin := by
  unfold Pair.takeResponse
  split
  · extract_lets y
    have hy : y.Twin := by
      unfold y
      split <;> exact h
    exact hy.both _
  · exact congrArg (fun c : Core => (c.fillWritten _ _).completeTag _ _ _ _ 0) h
  · exact h

end

/-- Of `d`, `e` keeps the number that pair `p` is bound to and every other pair; the cores of pair `p` are equal in `e`. -/
structure Dev.InStep (d : Dev) (p : Nat) (e : Dev) : Prop where
  lt : p < 16
  bound : d.physOf (d.lpairOf p) = p
  length : e.pairs.length = 16
  bind : e.bind = d.bind
  role : e.lpairOf p = d.lpairOf p
  others : ∀ q, q ≠ p → e.pair q = d.pair q
  twin : (e.pair p).Twin

/-- The field lies in no pair's ROLE register, the first of each pair's page. -/
abbrev Fld.OffRole (f : Fld) : Prop := f.addr % 0x1000 ≠ 0 ∨ 0x20000 ≤ f.addr

theorem Fld.OffRole.later {b k lo w : Nat} (h : 0x20000 ≤ b := by decide) : Fld.OffRole ⟨b + k, lo, w⟩ :=
  .inr (Nat.le_add_right_of_le h)

section
variable {d e f : Dev} {p : Nat}

theorem Dev.InStep.refl (hp : p < 16) (hlen : d.pairs.length = 16) (hbound : d.physOf (d.lpairOf p) = p)
    (htwin : (d.pair p).Twin) : d.InStep p d := ⟨hp, hbound, hlen, rfl, rfl, fun _ _ => rfl, htwin⟩

/-- The number of the pair is bound to it throughout. -/
theorem Dev.InStep.phys (h : d.InStep p e) : e.physOf (d.lpairOf p) = p :=
  (congrArg (fun b => nth (d.lpairOf p) b (d.lpairOf p)) h.bind).trans h.bound

/-! ### Updates -/

theorem Dev.InStep.of_pairs (h : d.InStep p e) (hpairs : f.pairs = e.pairs) (hbind : f.bind = e.bind)
    (hrole : f.lpairOf p = e.lpairOf p) : d.InStep p f where
  lt := h.lt
  bound := h.bound
  length := hpairs ▸ h.length
  bind := hbind.trans h.bind
  role := hrole.trans h.role
  others q hq := (pair_of_pairs hpairs q).trans (h.others q hq)
  twin := (pair_of_pairs hpairs p).symm ▸ h.twin

theorem Dev.InStep.of_same (h : d.InStep p e) (hpairs : f.pairs = e.pairs) (hbind : f.bind = e.bind) (hio : f.io = e.io) :
    d.InStep p f := h.of_pairs hpairs hbind (fld_of_io hio _)

theorem Dev.InStep.ite {c : Prop} {_ : Decidable c} (he : d.InStep p e) (hf : d.InStep p f) :
    d.InStep p (if c then e else f) := by
  split
  · exact he
  · exact hf

theorem Dev.InStep.foldl {α : Type} {g : Dev → α → Dev} {l : List α} (h : d.InStep p e)
    (hg : ∀ (e : Dev) (a : α), d.InStep p e → d.InStep p (g e a)) : d.InStep p (l.foldl g e) :=
  foldl_keeps (fun e => d.InStep p e) g hg l e h

theorem Dev.InStep.setPair {x : Pair} (h : d.InStep p e) (hx : x.Twin) : d.InStep p (e.setPair p x) where
  lt := h.lt
  bound := h.bound
  length := (length_setPair e p x).trans h.length
  bind := h.bind
  role := h.role
  others q hq := (pair_setPair_ne e x hq).trans (h.others q hq)
  twin := (pair_setPair_same e p x (h.length ▸ h.lt)).symm ▸ hx

theorem Dev.InStep.setFld {g v} (h : d.InStep p e) (hg : g.OffRole := by decide) : d.InStep p (e.setFld g v) := by
  have hlt := h.lt
  refine h.of_pairs rfl rfl (fld_setFld_apart e v (.inl ?_))
  show 0x010000 + 0x1000 * p ≠ g.addr
  omega

theorem Dev.InStep.flag {g} (h : d.InStep p e) (hg : g.OffRole := by decide) : d.InStep p (e.flag g) := h.setFld hg

theorem Dev.InStep.setBitOf {g i} (h : d.InStep p e) (hg : g.OffRole := by decide) : d.InStep p (e.setBitOf g i) := h.setFld hg

theorem Dev.InStep.clearBitOf {g i} (h : d.InStep p e) (hg : g.OffRole := by decide) : d.InStep p (e.clearBitOf g i) :=
  h.setFld hg

theorem Dev.InStep.count {g} (h : d.InStep p e) (hg : g.OffRole := by decide) : d.InStep p (e.count g) := h.setFld hg

theorem Dev.InStep.presentPair {q k} (h : d.InStep p e) : d.InStep p (e.presentPair q k) := h.of_same rfl rfl rfl

theorem Dev.InStep.capture {c} (h : d.InStep p e) : d.InStep p (e.capture p c) := h.setPair h.twin

theorem Dev.InStep.setDetector {q k x} (h : d.InStep p e) : d.InStep p (e.setDetector q k x) := h.of_same rfl rfl rfl

theorem Dev.InStep.produce {v} (h : d.InStep p e) : d.InStep p (e.produce v) := h.of_same rfl rfl rfl

theorem Dev.InStep.denied {m a why r} (h : d.InStep p e) : d.InStep p (e.denied m a why r) := h.of_same rfl rfl rfl

theorem Dev.InStep.enqueue {r} (h : d.InStep p e) : d.InStep p (e.enqueue r) := h.of_same rfl rfl rfl

theorem noteOcc_bind (d : Dev) (p : Nat) : (d.noteOcc p).bind = d.bind := by
  have raised (e : Dev) (f : Fld) (v : Nat) : (if e.fld f < v then e.setFld f (min 255 v) else e).bind = e.bind := by
    split <;> rfl
  exact (raised ..).trans ((raised ..).trans (raised ..))

theorem Dev.InStep.noteOcc (h : d.InStep p e) : d.InStep p (e.noteOcc p) :=
  h.of_pairs (noteOcc_pairs e p) (noteOcc_bind e p)
    (fld_of_word _ (word_noteOcc_ne e p (by show 0x010000 + 0x1000 * p ≠ _; omega)))

/-! ### The memory controller's counts (R330, R332) -/

theorem correctable_bind (d : Dev) (inst : Nat) : (d.correctable inst).bind = d.bind := by
  have hbucket (e : Dev) : (e.bucketUp inst).bind = e.bind := by
    unfold Dev.bucketUp
    extract_lets
    split
    · rfl
    · split <;> rfl
  unfold Dev.correctable
  extract_lets e
  split
  · rfl
  · exact hbucket e

theorem noteLocal_bind (d : Dev) (p : Nat) (shadow : Bool) (n : MemNote) : (d.noteLocal p shadow n).bind = d.bind := by
  unfold Dev.noteLocal
  extract_lets inst m split d1 d2
  have h1 : d1.bind = d.bind := by
    unfold d1
    split <;> rfl
  have h2 : d2.bind = d.bind := (correctable_bind d1 inst).trans h1
  have hqueue : (d2.queueWriteBack inst n.word).bind = d.bind := by
    unfold Dev.queueWriteBack
    extract_lets
    split <;> exact h2
  split
  · show (if split then d1.correctable inst else d1).bind = d.bind
    split
    · exact h2
    · exact h1
  · split
    · exact h2
    · exact hqueue

theorem noteBoth_bind (d : Dev) (p : Nat) (a b : List MemNote) : (d.noteBoth p a b).bind = d.bind := by
  have hfold (shadow : Bool) (l : List MemNote) (e : Dev) (he : e.bind = d.bind) :
      (l.foldl (fun d n => d.noteLocal p shadow n) e).bind = d.bind :=
    foldl_keeps (fun e : Dev => e.bind = d.bind) _ (fun e n he => (noteLocal_bind e p shadow n).trans he) l e he
  exact hfold true b _ (hfold false a d rfl)

/-- The notes that both cores make heal the same words in both. -/
theorem Dev.InStep.noteBoth {l} (h : d.InStep p e) (hl : OwnNotes l) : d.InStep p (e.noteBoth p l l) := by
  have hc := counted_noteBoth (h.length ▸ h.lt : p < e.pairs.length) hl.m hl.m
  have hlt := h.lt
  have hset := h.setPair (x := { e.pair p with lead := (e.pair p).lead.healed l, shadow := (e.pair p).shadow.healed l })
    (congrArg (Core.healed l) h.twin)
  refine hset.of_pairs hc.pairs (noteBoth_bind e p l l) (hc.fld ?_)
  show 0x010000 + 0x1000 * p < 0x050000
  omega

/-! ### Requests and their answers (R202, R233) -/

/-- The function is unfolded while it stands alone, so that the kernel never evaluates the mirror's address. -/
theorem mirrorWord_mem (d : Dev) (lp off v : Nat) : ∃ m, d.mirrorWord lp off v = { d with mem := m } := by
  generalize hf : Dev.mirrorWord = f
  delta Dev.mirrorWord at hf
  subst hf
  beta_reduce
  split
  · exact ⟨_, rfl⟩
  · exact ⟨d.mem, rfl⟩

/-- A write of the mirror changes the banks alone. -/
theorem mirrorWords_mem (lp : Nat) : ∀ (l : List DWord) (d : Dev) (off : Nat), ∃ m, d.mirrorWords lp off l = { d with mem := m }
  | [], d, _ => ⟨d.mem, rfl⟩
  | v :: t, d, off => by
    obtain ⟨m, hm⟩ := mirrorWord_mem d lp off v.toNat
    obtain ⟨m', hm'⟩ := mirrorWords_mem lp t (d.mirrorWord lp off v.toNat) (off + 8)
    refine ⟨m', hm'.trans ?_⟩
    rw [hm]

theorem Dev.InStep.mirrorWords {lp l off} (h : d.InStep p e) : d.InStep p (e.mirrorWords lp off l) := by
  obtain ⟨m, hm⟩ := mirrorWords_mem lp l e off
  rw [hm]
  exact h.of_same rfl rfl rfl

/-- An answer to the pair reaches its own capture stage, or its record. -/
theorem Dev.InStep.answer {lp imm mark tag slot value code addr lock fill} (h : d.InStep p e) (hlp : lp = d.lpairOf p) :
    d.InStep p (e.answer lp imm mark tag slot value code addr lock fill) := by
  unfold Dev.answer
  rw [hlp, h.phys]
  extract_lets q d1 x input y again z d2
  have h1 : d.InStep p d1 := by
    unfold d1
    split
    · exact .ite h h.mirrorWords
    · exact h
  have hy : y.Twin := by
    unfold y
    split
    · exact h1.twin.both _
    · exact h1.twin
  have h2 : d.InStep p d2 := h1.setPair hy
  exact .ite h1.capture (.ite h1 (.ite h2.capture h2))

theorem Dev.InStep.respond {r value code} (h : d.InStep p e) (hphys : r.phys = p) (hlp : r.lpair = d.lpairOf p) :
    d.InStep p (e.respond r value code) := by
  unfold Dev.respond
  rw [hphys]
  exact .ite (h.setPair h.twin) (.ite (h.answer hlp) (h.answer hlp))

theorem Dev.InStep.respondError {r code} (h : d.InStep p e) (hphys : r.phys = p) (hlp : r.lpair = d.lpairOf p) :
    d.InStep p (e.respondError r code) := .respond (.ite (h.of_same rfl rfl rfl) h) hphys hlp

theorem Dev.InStep.refuseReq {r} (h : d.InStep p e) (hphys : r.phys = p) (hlp : r.lpair = d.lpairOf p) :
    d.InStep p (e.refuseReq r) :=
  .ite (.respondError (h.of_same rfl rfl rfl) hphys hlp) (h.respondError hphys hlp)

theorem Dev.InStep.sendReq {r} (h : d.InStep p e) : d.InStep p (e.sendReq p r) := by
  unfold Dev.sendReq
  extract_lets lp id fab d1 f t
  have h1 : d.InStep p d1 := h.of_same rfl rfl rfl
  have hlp : f.lpair = d.lpairOf p := h.role
  split
  · exact h1.denied
  · exact .ite (.ite (h1.respondError rfl hlp) h1.enqueue) (.ite (h1.answer hlp) (.ite (h1.refuseReq rfl hlp)
      (.ite (.ite (h1.refuseReq rfl hlp) h1.enqueue) h1.enqueue)))

/-! ### What leaves the pair (R207, R228, R233) -/

theorem Dev.InStep.armDetector {q k} (h : d.InStep p e) : d.InStep p (e.armDetector q k) := h.setDetector

theorem Dev.InStep.disarmDetector {q k} (h : d.InStep p e) : d.InStep p (e.disarmDetector q k) := h.setDetector

theorem Dev.InStep.emitArm {k tb angle down} (h : d.InStep p e) : d.InStep p (e.emitArm p k tb angle down) := by
  unfold Dev.emitArm
  extract_lets x y
  split
  · refine .disarmDetector (h.setPair (Pair.Twin.both ?_ _))
    exact h.twin
  · exact h.armDetector

theorem Dev.InStep.emitWait {c} (h : d.InStep p e) : d.InStep p (e.emitWait p c) := by
  unfold Dev.emitWait
  extract_lets x
  split
  · refine h.setPair (Pair.Twin.both ?_ _)
    exact h.twin
  · exact h.of_same rfl rfl rfl

theorem Dev.InStep.emitImmediate {r send} (h : d.InStep p e) (hsend : ∀ e, d.InStep p e → d.InStep p (send e)) :
    d.InStep p (e.emitImmediate p r send) := by
  unfold Dev.emitImmediate
  extract_lets x y
  split
  · split <;> exact h.setPair h.twin
  · exact hsend _ (h.setPair h.twin)

theorem Dev.InStep.emitSig {n slot} (h : d.InStep p e) : d.InStep p (e.emitSig p n slot) := by
  unfold Dev.emitSig
  extract_lets x
  split
  · exact h.setPair h.twin
  · exact .produce (h.setPair h.twin)

theorem Dev.InStep.trapRpc {rpc} (h : d.InStep p e) : d.InStep p (e.trapRpc p rpc) :=
  ((h.setFld .later).setFld .later).flag .later

theorem Dev.InStep.emit {o} (h : d.InStep p e) : d.InStep p (e.emit p o) := by
  cases o with
  | req r => exact .ite (h.emitImmediate fun _ h' => h'.sendReq) h.sendReq
  | fillLocal r ws code => exact h.emitImmediate fun _ h' => h'.answer h.role
  | arm k tb angle down => exact h.emitArm
  | disarm k => exact h.disarmDetector
  | wait i => exact h.emitWait
  | sigImm n slot => exact h.emitSig
  | denied io addr size user => exact h.denied
  | lmemError => exact h.presentPair
  | vecError => exact (h.flag .later).presentPair
  | noBank => exact (h.flag .later).presentPair
  | expiryPc rpc => exact h.trapRpc

/-! ### Halts (R556 to R558) -/

theorem Dev.InStep.keeperFreeze {lp} (h : d.InStep p e) : d.InStep p (e.keeperFreeze lp) :=
  .ite (h.setFld.of_same rfl rfl rfl) h

theorem Dev.InStep.haltPair {cause} (h : d.InStep p e) : d.InStep p (e.haltPair p cause) := by
  unfold Dev.haltPair
  extract_lets lp x dbg d1 d2 d3
  have h1 : d.InStep p d1 := h.setPair h.twin
  have h2 : d.InStep p d2 := ((h1.setFld .later).setFld .later).setFld .later
  have h3 : d.InStep p d3 := (h2.setFld .later).setBitOf
  exact h3.flag.keeperFreeze

theorem Dev.InStep.settleHalt (h : d.InStep p e) : d.InStep p (e.settleHalt p) :=
  .ite h (.ite (h.setFld .later) (.ite h.haltPair h))

theorem Dev.InStep.askHalt {cause} (h : d.InStep p e) : d.InStep p (e.askHalt p cause) := h.setPair h.twin

theorem Dev.InStep.of_butMode {l} (h : d.InStep p e) (hf : f.butMode = e.butMode) (hr : e.Regs f l)
    (hl : ∀ a ∈ l, 0x20000 ≤ a := by decide) : d.InStep p f := by
  have hlt := h.lt
  refine h.of_pairs (pairs_of_butMode hf) (bind_of_butMode hf) (hr.fld _ fun hmem => ?_)
  have : 0x20000 ≤ 0x010000 + 0x1000 * p := hl _ hmem
  omega

theorem Dev.InStep.keeperThaw (h : d.InStep p e) : d.InStep p e.keeperThaw := by
  unfold Dev.keeperThaw
  extract_lets len d1
  have h1 : d.InStep p (d1.setFld KEEPER_STAT_STATE 2) := h.count.setFld.flag.setFld
  have hw := freshWindow_frame (d1.setFld KEEPER_STAT_STATE 2)
  have hj := journal_frame (d1.setFld KEEPER_STAT_STATE 2).freshWindow 0x15 [len] []
  exact .ite ((h1.of_butMode hw.1 hw.2.2.2).of_butMode (butMode_of_butJournal hj.1) hj.2) h

theorem Dev.InStep.releasePair (h : d.InStep p e) : d.InStep p (e.releasePair p) := by
  unfold Dev.releasePair
  extract_lets lp x dbg d1 d2
  have h1 : d.InStep p d1 := h.setPair h.twin
  have h2 : d.InStep p d2 := ((h1.setFld .later).setFld .later).clearBitOf
  exact h2.keeperThaw

theorem Dev.InStep.stepped (h : d.InStep p e) : d.InStep p (e.stepped p) := by
  unfold Dev.stepped
  extract_lets x dbg d1
  have h1 : d.InStep p d1 := h.setPair h.twin
  exact .ite (.ite h1.askHalt.settleHalt h1) h

/-! ### The capture stage (R202 to R206) -/

theorem Dev.InStep.presentInput {c} (h : d.InStep p e) : d.InStep p (e.presentInput p c) := by
  unfold Dev.presentInput
  extract_lets x y
  have hy : y.Twin := h.twin
  cases c with
  | response mark tag imm slot value code addr lock => exact h.setPair (hy.takeResponse _)
  | fillDone mark tag slot index code addr words => exact h.setPair (hy.takeResponse _)
  | irq req => exact h.setPair (hy.everywhere _)
  | event input stamp => exact h.setPair (congrArg (fun k : Core => k.completeWait _ _) hy)
  | gate k gen tb angle down stamp => exact .ite (h.setPair (congrArg (fun q : Core => q.releaseGate k gen) hy)) (h.setPair hy)
  | expiry => exact h.setPair (hy.everywhere _)
  | halt => exact .settleHalt (h.setPair h.twin)
  | resume => exact (h.setPair hy).releasePair
  | step n =>
    have h1 := (h.setPair hy).releasePair
    exact .flag (h1.setPair h1.twin) .later
  | isafeMax limit => exact h.setPair h.twin
  | segMax limit drain => exact h.setPair h.twin
  | spare en n => exact h.setPair h.twin

theorem Dev.InStep.presentFirst : ∀ (n : Nat) {e : Dev}, d.InStep p e → d.InStep p (e.presentFirst p n)
  | 0, _, h => h
  | n + 1, e, h => by
    unfold Dev.presentFirst
    split
    · exact .ite (Dev.InStep.presentFirst n h.presentInput.noteOcc) h
    · exact h

theorem Dev.InStep.captureNext (h : d.InStep p e) : d.InStep p (e.captureNext p) := h.presentFirst _

/-- A completion is taken by both cores, which have the same operations and barriers ready. -/
theorem Dev.InStep.tagCompletion {t} (h : d.InStep p e) : d.InStep p (Machine.tagCompletion p t e) := by
  have hagree (a : LocalOp) : e.opsAgree p a a = true := by simp [Dev.opsAgree]
  unfold Machine.tagCompletion
  dsimp only
  rw [← h.twin]
  refine .ite h (.settleHalt (.noteOcc (.ite (h.presentFirst _) ?_)))
  cases (e.pair p).lead.readyOp t with
  | some a =>
    simp only [hagree, if_true]
    exact h.setPair rfl
  | none =>
    cases (e.pair p).lead.readyBarrier t with
    | some a => exact h.setPair rfl
    | none => exact h

/-! ### Both cores at once (R208) -/

/-- Equal cores send equal signals: the pair's signals leave it, and nothing mismatches. -/
theorem Dev.InStep.pairCycle {a : CoreStep} {g : Pair → Pair} (h : d.InStep p e) (ha : a.OwnNotes)
    (hg : (g { e.pair p with lead := a.core, shadow := a.core }).Twin) : d.InStep p (e.pairCycle p a a g) := by
  have hagree (u : Nat) : outDiffer u a.outs a.outs = none := if_pos rfl
  unfold Dev.pairCycle
  extract_lets x d1
  rw [hagree]
  exact (Dev.InStep.foldl ((h.setPair hg).noteBoth ha.notes) fun _ _ h' => h'.emit).noteOcc

theorem Dev.InStep.enterBoth {g : Core → CoreStep} {n : Nat} (h : d.InStep p e) (hg : ∀ c, (g c).OwnNotes) :
    d.InStep p (e.enterBoth p g n) := by
  unfold Dev.enterBoth
  extract_lets x
  have hx : x.shadow = x.lead := h.twin.symm
  rw [hx]
  exact (h.pairCycle (hg _) rfl).settleHalt

/-! ### The commands -/

/-- The two cores issue a bundle alike where they find the same entries under release (R208, R219). -/
theorem Dev.InStep.issueBundle {b} (h : d.InStep p e) (hrel : (e.pair p).rel = (e.pair p).relShadow) :
    d.InStep p (e.issueBundle p b) := by
  unfold Dev.issueBundle
  extract_lets x lp env i imm hit a s d1 d2
  have hs : s = a := by
    show (x.shadow.issue { env with rel := x.relShadow } b).noting _ = _
    rw [← show x.lead = x.shadow from h.twin, ← show x.rel = x.relShadow from hrel]
    rfl
  have ha : a.OwnNotes := ⟨(ownNotes_fetch ..).append (ownNotes_issue ..).notes⟩
  have h1 : d.InStep p d1 := by
    unfold d1
    rw [hs]
    exact h.pairCycle ha rfl
  have h2 : d.InStep p d2 := by
    unfold d2
    cases (hit : Option Nat) with
    | some k => exact h1.askHalt
    | none => exact h1
  exact h2.stepped.settleHalt

/-- A bundle that neither core can read stops both. -/
theorem Dev.InStep.unreadableBoth (h : d.InStep p e) : d.InStep p (e.unreadableBoth p) := by
  unfold Dev.unreadableBoth
  dsimp only
  rw [← h.twin]
  have h1 := h.noteBoth (ownNotes_fetch (e.pair p).lead.imem (e.pair p).lead.pc)
  exact .presentPair (h1.setPair (h1.twin.both _))

theorem Dev.InStep.bundleIssue (h : d.InStep p e) (hrel : (e.pair p).rel = (e.pair p).relShadow) :
    d.InStep p (Machine.bundleIssue p e) := by
  unfold Machine.bundleIssue
  refine .ite h ?_
  extract_lets x
  split
  · next hb => exact absurd hb h.twin.boundary_ne_none
  · split
    · exact h.askHalt.settleHalt
    · exact h.issueBundle hrel
  · exact h.unreadableBoth
  · exact h

/-- The inputs that arrive during an entry are presented to both cores (R182, R183). -/
theorem Dev.InStep.arrive : ∀ (l : List (Fin 5)) {e : Dev} {en : Entering} {n : Nat}, d.InStep p e →
    d.InStep p (e.arrive p en n l).1
  | [], _, _, _, h => h
  | _ :: t, _, _, _, h => Dev.InStep.arrive t h.captureNext

theorem Dev.InStep.of_arrive {l : List (Fin 5)} {en en' : Entering} {n n' : Nat} (h : d.InStep p e)
    (ha : e.arrive p en n l = (f, en', n')) : d.InStep p f := by
  have h1 := h.arrive l (en := en) (n := n)
  rwa [ha] at h1

theorem Dev.InStep.interruptEntry {arr} (h : d.InStep p e) : d.InStep p (Machine.interruptEntry p arr e) := by
  unfold Machine.interruptEntry
  refine .ite h ?_
  split
  · next hb => exact absurd hb h.twin.boundary_ne_none
  · split
    · next ha => exact (h.of_arrive ha).enterBoth fun c => ownNotes_enterInterrupt c _ _
    · next ha => exact (h.of_arrive ha).enterBoth ownNotes_enterExpiry
  · exact h

theorem Dev.InStep.precise {enter displaced : Core → CoreStep} {arr} (h : d.InStep p e) (henter : ∀ c, (enter c).OwnNotes)
    (hdisplaced : ∀ c, (displaced c).OwnNotes) : d.InStep p (e.precise p enter displaced arr) := by
  unfold Dev.precise
  split
  · next ha => exact (h.of_arrive ha).enterBoth hdisplaced
  · next ha => exact ((h.of_arrive ha).enterBoth henter).stepped

theorem Dev.InStep.preciseEntry {arr} (h : d.InStep p e) : d.InStep p (Machine.preciseEntry p arr e) := by
  unfold Machine.preciseEntry
  refine .ite h ?_
  extract_lets new
  have hnew (x : Exc) : d.InStep p (new x) := h.precise (fun c => ownNotes_enterPrecise c x) fun _ => ownNotes_enterExpiry _
  split
  · next hb => exact absurd hb h.twin.boundary_ne_none
  · exact hnew _
  · exact hnew _
  · exact hnew _
  · next k _ => exact h.precise (fun c => ownNotes_enterKept c k) ownNotes_enterExpiry
  · exact h

theorem Dev.InStep.impreciseEntry {arr} (h : d.InStep p e) : d.InStep p (Machine.impreciseEntry p arr e) := by
  unfold Machine.impreciseEntry
  refine .ite h ?_
  split
  · next hb => exact absurd hb h.twin.boundary_ne_none
  · next tag _ =>
    split
    · next ha => exact (h.of_arrive ha).enterBoth ownNotes_enterExpiry
    · next ha => exact (h.of_arrive ha).enterBoth fun c => ownNotes_enterImprecise c tag
  · exact h

theorem Dev.InStep.expiryEntry (h : d.InStep p e) : d.InStep p (Machine.expiryEntry p e) := by
  unfold Machine.expiryEntry
  refine .ite h ?_
  split
  · next hb => exact absurd hb h.twin.boundary_ne_none
  · exact h.enterBoth ownNotes_enterExpiry
  · exact h

theorem Dev.InStep.returnRestore (h : d.InStep p e) : d.InStep p (Machine.returnRestore p e) :=
  .ite (.settleHalt (h.setPair (h.twin.both Core.restore))) h

end

/-- Settles O5: each of the commands acts on both cores of the pair alike, and on no other pair. -/
theorem lockstepKept : Obligations.LockstepKept := by
  intro s p t arr hlen hbound hcores hrel c hc
  have h0 := Dev.InStep.refl p.isLt hlen hbound hcores
  have completes {c : Instr} {f : Dev → Dev} (hexec : exec c s = s.onDev f) (h : s.dev.InStep p (f s.dev)) :
      Completes c s fun e => (e.pair p).lead = (e.pair p).shadow ∧ e.pairs.length = 16 ∧
        ∀ q < 16, q ≠ p.val → e.pair q = s.dev.pair q :=
    completes_onDev hexec fun _ => ⟨h.twin, h.length, fun q _ hq => h.others q hq⟩
  simp only [List.mem_cons, List.not_mem_nil, or_false] at hc
  rcases hc with rfl | rfl | rfl | rfl | rfl | rfl | rfl | rfl
  · exact completes rfl (h0.bundleIssue hrel)
  · exact completes rfl h0.tagCompletion
  · exact completes rfl h0.captureNext
  · exact completes rfl h0.interruptEntry
  · exact completes rfl h0.preciseEntry
  · exact completes rfl h0.impreciseEntry
  · exact completes rfl h0.expiryEntry
  · exact completes rfl h0.returnRestore

end Sys2Proof.Machine
end

section
/-! PROOFS. Checkpoints: when a checkpoint falls due, what K0 closes, what a commit leaves and how its hold keeps it, and an
overrun (R211, R213 to R218, R241, `Obligations.CheckpointsTaken`). -/

namespace Sys2Proof.Machine

/-! ### Due (R211) -/

section
variable {x : Pair} {d : Dev} {p : Nat}

theorem dueNow_of_condition (b : Option Bundle) (h : x.asked = true ∨ x.immIssued = true ∨
    effective x.segLimit x.step - effective x.segDrain x.step ≤ x.segCount ∨ 248 < x.lead.cb.length + x.rel.length ∨
      960 < x.lead.undo.length + x.lead.undoReserved ∨ 24 ≤ x.happ.length) : x.dueNow b = true := by
  have hlimit : (effective x.segLimit x.step - effective x.segDrain x.step ≤ x.segCount) = (x.dueAt ≤ x.segCount) := rfl
  have hbuffer : 248 < x.lead.cb.length + x.rel.length ↔ 256 < x.cbUsed + 8 := by
    unfold Pair.cbUsed
    omega
  have hundo : 960 < x.lead.undo.length + x.lead.undoReserved ↔ 1024 < x.undoUsed + 64 := by
    unfold Pair.undoUsed
    omega
  rw [hlimit, hbuffer, hundo] at h
  rcases h with h | h | h | h | h | h <;> simp [Pair.dueNow, h]

theorem checkpointDue_of_condition (hat : d.atBoundary p = true) (h : (d.pair p).dueNow (d.pair p).nextBundle = true) :
    checkpointDue p d = d.setPair p { d.pair p with due := true } := by simp [checkpointDue, hat, h]

end

/-! ### Overruns (R214) -/

section
variable {d : Dev} {p : Nat}

theorem overran_of_reported (h : (d.pair p).overrun = true) : d.overran p = d := by simp [Dev.overran, h]

theorem overran_of_not_reported (h : (d.pair p).overrun = false) : d.overran p =
    ((d.setPair p { d.pair p with overrun := true }).flag (PAIRCTL_FSTAT_SEGOVR p)).presentPair p pfOverrun := by
  simp only [Dev.overran, h, Bool.false_eq_true, if_false]

/-- The first overrun of a segment is flagged, presented and marked. -/
theorem overran_leaves (hp : p < d.pairs.length) (h : (d.pair p).overrun = false) :
    (d.overran p).fld (PAIRCTL_FSTAT_SEGOVR p) = 1 ∧ (d.overran p).pair p = { d.pair p with overrun := true } ∧
      (d.overran p).Awaits (pairFault p pfOverrun) ((d.pair p).segCount / 4 % 65536) := by
  rw [overran_of_not_reported h]
  generalize hy : ({ d.pair p with overrun := true } : Pair) = y
  have hset := pair_setPair_same d p y hp
  have hseg : ((d.setPair p y).pair p).segCount = (d.pair p).segCount :=
    (congrArg Pair.segCount hset).trans (by rw [← hy])
  refine ⟨?flag, hset, awaits_presentPair pfOverrun hseg⟩
  case flag =>
    rw [presentPair_eq, fld_present, flag_eq, fld_setFld_same _ 1 (by decide : 5 + 1 ≤ 32)]
    rfl

theorem pair_overran (hp : p < d.pairs.length) : ∃ o, (d.overran p).pair p = { d.pair p with overrun := o } := by
  cases h : (d.pair p).overrun with
  | false => exact ⟨true, (overran_leaves hp h).2.1⟩
  | true => exact ⟨true, by rw [overran_of_reported h, ← h]⟩

theorem length_overran : (d.overran p).pairs.length = d.pairs.length := by
  cases h : (d.pair p).overrun with
  | false =>
    rw [overran_of_not_reported h]
    exact length_setPair ..
  | true => rw [overran_of_reported h]

theorem segOverrun_of_reached (hrun : d.pairRuns p = true) (hphase : (d.pair p).phase = .run)
    (hlen : effective (d.pair p).segLimit (d.pair p).step ≤ (d.pair p).segCount) : segOverrun p d = d.overran p := by
  simp [segOverrun, hrun, hphase, Pair.len, hlen]

theorem segOverrun_of_reported (h : (d.pair p).overrun = true) : segOverrun p d = d := by
  simp [segOverrun, overran_of_reported h]

end

/-! ### K0 (R213, R216) -/

section
variable (c : Core)

@[simp] theorem acked_handAcked : c.handAcked.acked = 0 := by
  unfold Core.handAcked
  split
  · next h => exact h
  · rfl

theorem cb_handAcked :
    c.handAcked.cb = c.cb ++ (if c.acked = 0 then [] else [{ kind := .ack, addr := 0, data := c.acked }]) := by
  unfold Core.handAcked
  split
  · exact (List.append_nil _).symm
  · rfl

end

/-- The pair as the cycles of K0 leave it: the acknowledged set handed over. -/
def Pair.handed (x : Pair) : Pair := (x.both Core.handAcked).spend 28

/-- The pair at the end of K0: a slice may have been abandoned, and an overrun reported. -/
def Pair.atK0 (x : Pair) (slice : Option Nat) (overrun : Bool) : Pair := { x.handed with slice := slice, overrun := overrun }

/-- The pair with its segment closed under its signature. -/
def Pair.closed (x : Pair) : Pair := { x with phase := .closed, due := true, ckSig := x.lead.signature x.shadow }

/-- The device once pair `p` has spent the cycles of K0, an overrun in them reported. -/
def Dev.handedOver (d : Dev) (p : Nat) : Dev :=
  let e := d.setPair p (d.pair p).handed
  if (d.pair p).handed.len < (d.pair p).handed.segCount then e.overran p else e

/-- What K0 makes of a pair whose cores agree. -/
structure Pair.Closes (x y : Pair) : Prop where
  phase : y.phase = .closed
  segCount : y.segCount = x.segCount + 28
  acked : y.lead.acked = 0
  sig : y.ckSig = y.lead.signature y.shadow
  twin : y.Twin
  cb : y.lead.cb = x.lead.cb ++ (if x.lead.acked = 0 then [] else [{ kind := .ack, addr := 0, data := x.lead.acked }])

theorem Pair.Twin.atK0 {x : Pair} (h : x.Twin) (slice : Option Nat) (overrun : Bool) : (x.atK0 slice overrun).Twin :=
  congrArg Core.handAcked h

theorem Pair.Twin.closes {x : Pair} (h : x.Twin) (slice : Option Nat) (overrun : Bool) :
    x.Closes (x.atK0 slice overrun).closed :=
  ⟨rfl, rfl, acked_handAcked x.lead, rfl, h.atK0 slice overrun, cb_handAcked x.lead⟩

theorem Pair.Twin.sigDiffer {x : Pair} (h : x.Twin) : x.sigDiffer = false := by simp [Pair.sigDiffer, h]

section
variable {d : Dev} {p : Nat}

theorem k0Ready_of (htags : ∀ t < 32, ((d.pair p).lead.tag t).st ≠ .pending) (hlock : (d.pair p).lead.lockAddr = none)
    (hrel : (d.pair p).releasing = false) (hdelta : (d.pair p).deltaLeft = false) : d.k0Ready p = true := by
  simp only [Dev.k0Ready, hlock, hrel, hdelta, Option.isNone_none, Bool.true_or, Bool.and_true, Bool.not_false,
    List.all_eq_true, List.mem_range, bne_iff_ne]
  exact htags

/-- A slice offered too long ago is abandoned; nothing else of the pair changes. -/
theorem pair_dropLateSlice (hp : p < d.pairs.length) :
    (∃ sl, (d.dropLateSlice p).pair p = { d.pair p with slice := sl }) ∧
      (d.dropLateSlice p).pairs.length = d.pairs.length := by
  unfold Dev.dropLateSlice
  split
  · next o ho =>
    have hphys : o.phys = p := by simpa using List.find?_some ho
    split
    · refine ⟨⟨none, ?_⟩, length_setPair ..⟩
      subst hphys
      exact pair_setPair_same d o.phys _ hp
    · exact ⟨⟨_, rfl⟩, rfl⟩
  · exact ⟨⟨_, rfl⟩, rfl⟩

theorem dropLateSlice_of_no_offer (h : ∀ o ∈ d.test.offers, o.phys ≠ p) : d.dropLateSlice p = d := by
  have hnone : d.test.offers.find? (fun o => o.phys = p) = none := by simpa using h
  simp [Dev.dropLateSlice, hnone]

theorem pair_handedOver (hp : p < d.pairs.length) :
    (∃ o, (d.handedOver p).pair p = { (d.pair p).handed with overrun := o }) ∧
      (d.handedOver p).pairs.length = d.pairs.length := by
  have hset := pair_setPair_same d p (d.pair p).handed hp
  have hlen := length_setPair d p (d.pair p).handed
  unfold Dev.handedOver
  extract_lets e
  split
  · obtain ⟨o, ho⟩ := pair_overran (d := e) (p := p) (hlen ▸ hp)
    exact ⟨⟨o, ho.trans (by rw [hset])⟩, length_overran.trans hlen⟩
  · exact ⟨⟨_, hset⟩, hlen⟩

theorem handedOver_of_within (h : (d.pair p).segCount + 28 ≤ effective (d.pair p).segLimit (d.pair p).step) :
    d.handedOver p = d.setPair p (d.pair p).handed := if_neg h.not_gt

theorem segovr_handedOver (hp : p < d.pairs.length) (h : effective (d.pair p).segLimit (d.pair p).step < (d.pair p).segCount + 28)
    (hnot : (d.pair p).overrun = false) : (d.handedOver p).fld (PAIRCTL_FSTAT_SEGOVR p) = 1 := by
  have hset := pair_setPair_same d p (d.pair p).handed hp
  have hover : d.handedOver p = (d.setPair p (d.pair p).handed).overran p := if_pos h
  rw [hover]
  exact (overran_leaves (by rwa [length_setPair]) ((congrArg Pair.overrun hset).trans hnot)).1

/-- The pair before its segment closes. -/
theorem pair_beforeClose (hp : p < d.pairs.length) :
    (∃ slice o, ((d.dropLateSlice p).handedOver p).pair p = (d.pair p).atK0 slice o) ∧
      ((d.dropLateSlice p).handedOver p).pairs.length = d.pairs.length := by
  obtain ⟨⟨slice, hslice⟩, hlen⟩ := pair_dropLateSlice hp
  obtain ⟨⟨o, ho⟩, hlen'⟩ := pair_handedOver (d := d.dropLateSlice p) (hlen ▸ hp)
  rw [hslice] at ho
  exact ⟨⟨slice, o, ho⟩, hlen'.trans hlen⟩

theorem segovr_beforeClose (hp : p < d.pairs.length)
    (h : effective (d.pair p).segLimit (d.pair p).step < (d.pair p).segCount + 28) (hnot : (d.pair p).overrun = false) :
    ((d.dropLateSlice p).handedOver p).fld (PAIRCTL_FSTAT_SEGOVR p) = 1 := by
  obtain ⟨⟨slice, hslice⟩, hlen⟩ := pair_dropLateSlice hp
  exact segovr_handedOver (hlen ▸ hp) (by rw [hslice]; exact h) ((congrArg Pair.overrun hslice).trans hnot)

/-- Cores that agree close their segment at a K0 that may begin. -/
theorem checkpointK0_of_twin (hat : d.atBoundary p = true) (hb : (d.pair p).boundary = some .checkpoint)
    (hready : d.k0Ready p = true) {e : Dev} (he : e = (d.dropLateSlice p).handedOver p) (htwin : (e.pair p).Twin) :
    checkpointK0 p d = e.setPair p (e.pair p).closed := by
  have hdiffer := htwin.sigDiffer
  subst he
  simp only [checkpointK0, hat, hb, hready, decide_true, Bool.and_self, if_true]
  show (if ((((d.dropLateSlice p).handedOver p).pair p).sigDiffer && _) = true then _ else _) = _
  rw [hdiffer]
  rfl

end

/-! ### The commit (R216, R218, R241) -/

/-- The slot that a commit of pair `x`, bound to logical pair `lp`, writes. -/
def Pair.newSlot (x : Pair) (lp : Nat) : Slot :=
  { ckNum := x.ckNum + 1, sig := x.ckSig, delta := x.lead.dirty, lpair := lp, step := x.step, valid := true,
    frame := x.lead.frame }

/-- The device with the slot of pair `p` written and a retry reported. -/
def Dev.slotCommitted (d : Dev) (p : Nat) : Dev :=
  (d.writeSlot (d.lpairOf p) (d.nextSlot (d.lpairOf p)) ((d.pair p).newSlot (d.lpairOf p))).retrySucceeded p

/-- The device with the checkpoint of pair `p` committed, its hold still to come. -/
def Dev.resumedPair (d : Dev) (p : Nat) : Dev :=
  ((d.slotCommitted p).setPair p ((d.slotCommitted p).pair p).resumed).setFld (PAIRCTL_CKNUM_CKNUM p) ((d.pair p).ckNum + 1)

/-- The checkpoint hold of pair `p`. -/
def Dev.hold (d : Dev) (p : Nat) (h : HoldReport) : Dev :=
  ((((d.holdSelfTest p h.lgFail).holdSlice p h.sliceFail).holdStep p).noteOcc p).settleHalt p

theorem Pair.Twin.mirrorDiffer {x : Pair} (h : x.Twin) : x.mirrorDiffer = none := by simp [Pair.mirrorDiffer, h]

section
variable {d : Dev} {p : Nat}

theorem checkpointCommit_of_twin (h : HoldReport) (hrun : d.pairRuns p = true) (hphase : (d.pair p).phase = .closed)
    (hfence : (d.pair p).fencing = false) (htwin : (d.pair p).Twin) :
    checkpointCommit p h d = (d.resumedPair p).hold p h := by
  simp only [checkpointCommit, hrun, hphase, hfence, htwin.mirrorDiffer, Option.filter_none, beq_self_eq_true, Bool.not_false,
    Bool.and_self, if_true]
  rfl

/-- A slot written changes the banks, and the slot itself. -/
theorem writeSlot_mem (d : Dev) (lp : Nat) (b : Bool) (x : Slot) :
    ∃ m, d.writeSlot lp b x = { d with mem := m }.setSlot lp b x := by
  obtain ⟨m1, h1⟩ := mirrorWords_mem lp ((List.range frameWords).map (fun w => BitVec.ofNat 64 (x.frame.frameWord w))) d
    (slotBase b + 0x40)
  obtain ⟨m2, h2⟩ := mirrorWords_mem lp x.deltaWords { d with mem := m1 } (slotBase b + 0x4000)
  obtain ⟨m3, h3⟩ := mirrorWords_mem lp x.header { d with mem := m2 } (slotBase b)
  refine ⟨m3, ?_⟩
  rw [Dev.writeSlot, h1, h2, Dev.writeHeader, h3]

theorem slotOf_setSlot_same (d : Dev) (lp : Nat) (b : Bool) (x : Slot) : (d.setSlot lp b x).slotOf lp b = x :=
  arrGet_arrSet_same ..

theorem slotOf_setSlot_not (d : Dev) (lp : Nat) (b : Bool) (x : Slot) : (d.setSlot lp (!b) x).slotOf lp b = d.slotOf lp b :=
  arrGet_arrSet_ne _ _ _ (by cases b <;> simp)

theorem slotOf_of_mirror {e : Dev} (h : e.mirror = d.mirror) (lp : Nat) (b : Bool) : e.slotOf lp b = d.slotOf lp b := by
  simp only [Dev.slotOf, h]

theorem retrySucceeded_of_retried (h : (d.pair p).retried = true) : d.retrySucceeded p =
    ((d.flag (PAIRCTL_FSTAT_RECOVERED p)).count (PAIRCTL_CNT_RESTARTS p)).presentPair p pfMismatch := if_pos h

theorem retrySucceeded_frame (d : Dev) (p : Nat) :
    (d.retrySucceeded p).pairs = d.pairs ∧ (d.retrySucceeded p).mirror = d.mirror := by
  unfold Dev.retrySucceeded
  split <;> exact ⟨rfl, rfl⟩

/-- The slot committed last is the new one; the other slot and the pairs are as they were. -/
theorem slotCommitted_leaves (d : Dev) (p : Nat) :
    (d.slotCommitted p).pairs = d.pairs ∧
      (d.slotCommitted p).slotOf (d.lpairOf p) (!(d.restartSlot (d.lpairOf p))) = (d.pair p).newSlot (d.lpairOf p) ∧
      (d.slotCommitted p).slotOf (d.lpairOf p) (d.restartSlot (d.lpairOf p)) =
        d.slotOf (d.lpairOf p) (d.restartSlot (d.lpairOf p)) := by
  unfold Dev.slotCommitted Dev.nextSlot
  generalize d.lpairOf p = lp
  generalize d.restartSlot lp = b
  obtain ⟨m, hm⟩ := writeSlot_mem d lp (!b) ((d.pair p).newSlot lp)
  obtain ⟨hpairs, hmirror⟩ := retrySucceeded_frame (d.writeSlot lp (!b) ((d.pair p).newSlot lp)) p
  rw [hm] at hpairs hmirror ⊢
  refine ⟨hpairs, ?_, ?_⟩
  · exact (slotOf_of_mirror hmirror lp _).trans (slotOf_setSlot_same ..)
  · exact (slotOf_of_mirror hmirror lp _).trans (slotOf_setSlot_not ..)

/-- A retry that reaches its checkpoint is reported as recovered. -/
theorem slotCommitted_reports (h : (d.pair p).retried = true) :
    (d.slotCommitted p).fld (PAIRCTL_FSTAT_RECOVERED p) = 1 ∧
      (d.slotCommitted p).fld (PAIRCTL_CNT_RESTARTS p) = min 65535 (d.fld (PAIRCTL_CNT_RESTARTS p) + 1) ∧
      (d.slotCommitted p).Awaits (pairFault p pfMismatch) ((d.pair p).segCount / 4 % 65536) := by
  have hne : 0x010010 + 0x1000 * p ≠ 0x010014 + 0x1000 * p := by omega
  unfold Dev.slotCommitted
  obtain ⟨m, hm⟩ := writeSlot_mem d (d.lpairOf p) (d.nextSlot (d.lpairOf p)) ((d.pair p).newSlot (d.lpairOf p))
  rw [hm]
  generalize hf : Dev.setSlot { d with mem := m } (d.lpairOf p) (d.nextSlot (d.lpairOf p)) ((d.pair p).newSlot (d.lpairOf p)) = f
  have hpair : f.pair p = d.pair p := hf ▸ rfl
  have hio : f.io = d.io := hf ▸ rfl
  rw [retrySucceeded_of_retried ((congrArg Pair.retried hpair).trans h)]
  refine ⟨?recovered, ?restarts, awaits_presentPair pfMismatch (congrArg Pair.segCount hpair)⟩
  case recovered =>
    rw [presentPair_eq, fld_present, count_eq, fld_setFld_apart _ _ (.inl hne), flag_eq,
      fld_setFld_same _ 1 (by decide : 1 + 1 ≤ 32)]
    rfl
  case restarts =>
    have hold : (f.flag (PAIRCTL_FSTAT_RECOVERED p)).fld (PAIRCTL_CNT_RESTARTS p) = d.fld (PAIRCTL_CNT_RESTARTS p) :=
      (fld_setFld_apart f 1 (.inl hne.symm)).trans (fld_of_io hio _)
    rw [presentPair_eq, fld_present, fld_count (by decide : 0 + 16 ≤ 32), hold]
    rfl

/-- The commit itself changes its pair and CKNUM. -/
theorem resumedPair_leaves (hp : p < d.pairs.length) :
    (d.resumedPair p).pair p = (d.pair p).resumed ∧ (d.resumedPair p).pairs.length = d.pairs.length ∧
      (d.resumedPair p).mirror = (d.slotCommitted p).mirror ∧
      (d.resumedPair p).fld (PAIRCTL_CKNUM_CKNUM p) = ((d.pair p).ckNum + 1) % 2 ^ 32 := by
  have hpairs := (slotCommitted_leaves d p).1
  unfold Dev.resumedPair
  rw [← pair_of_pairs hpairs p, ← hpairs]
  rw [← hpairs] at hp
  generalize d.slotCommitted p = e at hp
  rw [pair_of_pairs (setFld_pairs ..) p, setFld_pairs, setFld_mirror, setPair_mirror, length_setPair,
    fld_setFld_same _ _ (by decide : 0 + 32 ≤ 32)]
  exact ⟨pair_setPair_same e p (e.pair p).resumed hp, rfl, rfl, rfl⟩

/-- What the slot's commit has shown of a retry stays. -/
theorem resumedPair_reports (h : (d.pair p).retried = true) :
    (d.resumedPair p).fld (PAIRCTL_FSTAT_RECOVERED p) = 1 ∧
      (d.resumedPair p).fld (PAIRCTL_CNT_RESTARTS p) = min 65535 (d.fld (PAIRCTL_CNT_RESTARTS p) + 1) ∧
      (d.resumedPair p).Awaits (pairFault p pfMismatch) ((d.pair p).segCount / 4 % 65536) := by
  obtain ⟨hrec, hcnt, hfault⟩ := slotCommitted_reports h
  have hfstat : (PAIRCTL_CKNUM_CKNUM p).Apart (PAIRCTL_FSTAT_RECOVERED p) :=
    .inl (by show 0x010010 + 0x1000 * p ≠ 0x010018 + 0x1000 * p; omega)
  have hcntApart : (PAIRCTL_CKNUM_CKNUM p).Apart (PAIRCTL_CNT_RESTARTS p) :=
    .inl (by show 0x010014 + 0x1000 * p ≠ 0x010018 + 0x1000 * p; omega)
  unfold Dev.resumedPair
  rw [fld_setFld_apart _ _ hfstat, fld_setFld_apart _ _ hcntApart, fld_setPair, fld_setPair]
  exact ⟨hrec, hcnt, (hfault.of_island (setPair_island ..)).setFld⟩

end

/-! ### The hold (R218, R250, R537, R542) -/

/-- The field lies apart from the CKNUM, CNT.RESTARTS and FSTAT.RECOVERED of every pair. -/
abbrev Fld.OffCommit (f : Fld) : Prop :=
  (f.addr % 0x1000 ≠ 0x10 ∧ f.addr % 0x1000 ≠ 0x14 ∧ f.addr % 0x1000 ≠ 0x18) ∨ 0x20000 ≤ f.addr ∨
    (f.addr % 0x1000 = 0x10 ∧ 2 ≤ f.lo)

theorem Fld.OffCommit.later {b k lo w : Nat} (h : 0x20000 ≤ b := by decide) : Fld.OffCommit ⟨b + k, lo, w⟩ :=
  .inr (.inl (Nat.le_add_right_of_le h))

theorem Fld.OffCommit.register {b n lo w : Nat}
    (h : b % 0x1000 ≠ 0x10 ∧ b % 0x1000 ≠ 0x14 ∧ b % 0x1000 ≠ 0x18 := by decide) : Fld.OffCommit ⟨b + 0x1000 * n, lo, w⟩ :=
  .inl (by rwa [Nat.add_mul_mod_self_left])

/-- The pair without what a checkpoint hold may change of it. -/
def Pair.butHold (x : Pair) : Pair :=
  { x with lead := { undo := x.lead.undo, cb := x.lead.cb }, shadow := {}, step := 0, vmv := 0, cmpTest := false
           slice := none, dbg := {} }

/-- What a commit and its hold leave of a pair whose cores agree. -/
structure Pair.Resumes (x y : Pair) : Prop where
  phase : y.phase = .run
  undo : y.lead.undo = []
  cb : y.lead.cb = []
  happ : y.happ = []
  segCount : y.segCount = 0
  rel : y.rel = x.lead.cb
  relShadow : y.relShadow = x.lead.cb
  releasing : y.releasing = !x.lead.cb.isEmpty
  deltaLeft : y.deltaLeft = true
  storeLead : y.storeLead = x.lead.frame
  storeShadow : y.storeShadow = x.shadow.frame
  ckNum : y.ckNum = x.ckNum + 1

theorem Pair.Twin.resumes {x y : Pair} (htwin : x.Twin) (h : y.butHold = x.resumed.butHold) : x.Resumes y where
  phase := congrArg Pair.phase h
  undo := congrArg (fun z : Pair => z.lead.undo) h
  cb := congrArg (fun z : Pair => z.lead.cb) h
  happ := congrArg Pair.happ h
  segCount := congrArg Pair.segCount h
  rel := congrArg Pair.rel h
  relShadow := (congrArg Pair.relShadow h).trans (congrArg Core.cb htwin).symm
  releasing := by
    refine (congrArg Pair.releasing h).trans ?_
    show (!(x.lead.cb.isEmpty && x.shadow.cb.isEmpty)) = _
    rw [← htwin, Bool.and_self]
  deltaLeft := congrArg Pair.deltaLeft h
  storeLead := congrArg Pair.storeLead h
  storeShadow := congrArg Pair.storeShadow h
  ckNum := congrArg Pair.ckNum h

/-- `e` keeps what a commit of pair `p` has left in `d`: the pair but for its hold, the mirror, what the commit shows in
PAIRCTL, and the faults that wait for the island. -/
structure Dev.Held (d : Dev) (p : Nat) (e : Dev) : Prop where
  lt : p < 16
  length : e.pairs.length = 16
  pair : (e.pair p).butHold = (d.pair p).butHold
  mirror : e.mirror = d.mirror
  cknum : e.fld (PAIRCTL_CKNUM_CKNUM p) = d.fld (PAIRCTL_CKNUM_CKNUM p)
  recovered : e.fld (PAIRCTL_FSTAT_RECOVERED p) = d.fld (PAIRCTL_FSTAT_RECOVERED p)
  restarts : e.fld (PAIRCTL_CNT_RESTARTS p) = d.fld (PAIRCTL_CNT_RESTARTS p)
  faults : ∀ n v, d.Awaits n v → e.Awaits n v

section
variable {d e f : Dev} {p : Nat}

theorem Dev.Held.refl (hp : p < 16) (hlen : d.pairs.length = 16) : d.Held p d :=
  ⟨hp, hlen, rfl, rfl, rfl, rfl, rfl, fun _ _ => id⟩

theorem Dev.Held.of_same (h : d.Held p e) (hpairs : f.pairs = e.pairs) (hmirror : f.mirror = e.mirror) (hio : f.io = e.io)
    (hisland : f.island = e.island) : d.Held p f where
  lt := h.lt
  length := hpairs ▸ h.length
  pair := (congrArg Pair.butHold (pair_of_pairs hpairs p)).trans h.pair
  mirror := hmirror.trans h.mirror
  cknum := (fld_of_io hio _).trans h.cknum
  recovered := (fld_of_io hio _).trans h.recovered
  restarts := (fld_of_io hio _).trans h.restarts
  faults n v hv := (h.faults n v hv).of_island hisland

theorem Dev.Held.ite {c : Prop} {_ : Decidable c} (he : d.Held p e) (hf : d.Held p f) :
    d.Held p (if c then e else f) := by
  split
  · exact he
  · exact hf

theorem Dev.Held.setPair {x : Pair} (h : d.Held p e) (hx : x.butHold = (e.pair p).butHold) : d.Held p (e.setPair p x) where
  lt := h.lt
  length := (length_setPair e p x).trans h.length
  pair := (congrArg Pair.butHold (pair_setPair_same e p x (h.length ▸ h.lt))).trans (hx.trans h.pair)
  mirror := h.mirror
  cknum := h.cknum
  recovered := h.recovered
  restarts := h.restarts
  faults n v hv := (h.faults n v hv).of_island rfl

theorem Dev.Held.setFld {g v} (h : d.Held p e) (hg : g.OffCommit := by decide) : d.Held p (e.setFld g v) := by
  have hcknum : g.Apart (PAIRCTL_CKNUM_CKNUM p) := by
    show 0x010018 + 0x1000 * p ≠ g.addr ∨ _
    have := h.lt
    omega
  have hrecovered : g.Apart (PAIRCTL_FSTAT_RECOVERED p) := by
    show 0x010010 + 0x1000 * p ≠ g.addr ∨ g.lo + g.w ≤ 1 ∨ 1 + 1 ≤ g.lo
    have := h.lt
    omega
  have hrestarts : g.Apart (PAIRCTL_CNT_RESTARTS p) := by
    show 0x010014 + 0x1000 * p ≠ g.addr ∨ _
    have := h.lt
    omega
  exact ⟨h.lt, h.length, h.pair, h.mirror, (fld_setFld_apart e v hcknum).trans h.cknum,
    (fld_setFld_apart e v hrecovered).trans h.recovered, (fld_setFld_apart e v hrestarts).trans h.restarts,
    fun n w hw => (h.faults n w hw).setFld⟩

theorem Dev.Held.flag {g} (h : d.Held p e) (hg : g.OffCommit := by decide) : d.Held p (e.flag g) := h.setFld hg

theorem Dev.Held.setBitOf {g i} (h : d.Held p e) (hg : g.OffCommit := by decide) : d.Held p (e.setBitOf g i) := h.setFld hg

theorem Dev.Held.present {i v} (h : d.Held p e) : d.Held p (e.present i v) :=
  ⟨h.lt, h.length, h.pair, h.mirror, h.cknum, h.recovered, h.restarts, fun n w hw => (h.faults n w hw).present⟩

theorem Dev.Held.presentPair {q k} (h : d.Held p e) : d.Held p (e.presentPair q k) := h.present

theorem Dev.Held.noteOcc (h : d.Held p e) : d.Held p (e.noteOcc p) := by
  have raised {e : Dev} {f : Fld} {v : Nat} (h : d.Held p e) (hf : f.OffCommit) :
      d.Held p (if e.fld f < v then e.setFld f (min 255 v) else e) := .ite (h.setFld hf) h
  exact raised (raised (raised h .register) .register) .register

theorem Dev.Held.keeperFreeze {lp} (h : d.Held p e) : d.Held p (e.keeperFreeze lp) :=
  .ite (h.setFld.of_same rfl rfl rfl rfl) h

theorem Dev.Held.haltPair {cause} (h : d.Held p e) : d.Held p (e.haltPair p cause) := by
  unfold Dev.haltPair
  extract_lets lp x dbg d1 d2 d3
  have h1 : d.Held p d1 := h.setPair rfl
  have h2 : d.Held p d2 := ((h1.setFld .later).setFld .later).setFld .later
  have h3 : d.Held p d3 := (h2.setFld .later).setBitOf
  exact h3.flag.keeperFreeze

theorem Dev.Held.settleHalt (h : d.Held p e) : d.Held p (e.settleHalt p) :=
  .ite h (.ite (h.setFld .later) (.ite h.haltPair h))

theorem Dev.Held.selfTest {lgFail} (h : d.Held p e) : d.Held p (e.selfTest p lgFail) := by
  have hflag : (PAIRCTL_FSTAT_CMPFAIL p).OffCommit := by
    show _ ∨ _ ∨ ((0x010010 + 0x1000 * p) % 0x1000 = 0x10 ∧ 2 ≤ 7)
    omega
  unfold Dev.selfTest
  extract_lets d1
  have h1 : d.Held p d1 := (h.setFld .register).setFld .register
  exact .ite h1 (h1.flag hflag).presentPair

theorem Dev.Held.holdSelfTest {lgFail} (h : d.Held p e) : d.Held p (e.holdSelfTest p lgFail) := by
  unfold Dev.holdSelfTest
  extract_lets x watch d1
  have h1 : d.Held p d1 := h.setPair rfl
  exact .ite (.selfTest (h1.of_same rfl rfl rfl rfl)) h

theorem Dev.Held.sliceFailed {slice} (h : d.Held p e) : d.Held p (e.sliceFailed p slice) := h.setFld.flag.present

theorem Dev.Held.holdSlice {fail} (h : d.Held p e) : d.Held p (e.holdSlice p fail) := by
  unfold Dev.holdSlice
  extract_lets x y z d1
  have hz : z.butHold = (e.pair p).butHold := rfl
  have h1 : d.Held p d1 := h.setPair hz
  have h2 : d.Held p (e.setPair p (z.both fun c => { c with stopped := true })) := h.setPair hz
  clear_value z
  split
  · exact h
  · exact .ite h2.sliceFailed (h1.of_same rfl rfl rfl rfl)

theorem Dev.Held.holdStep (h : d.Held p e) : d.Held p (e.holdStep p) := by
  have hstep (x : Pair) (s : Nat) : (x.takeStep s).butHold = x.butHold := by
    unfold Pair.takeStep
    split <;> rfl
  exact .ite h (h.setPair (hstep _ _))

/-- A checkpoint hold keeps what the commit has left. -/
theorem Dev.Held.hold {r} (h : d.Held p e) : d.Held p (e.hold p r) := h.holdSelfTest.holdSlice.holdStep.noteOcc.settleHalt

end

/-! ### What a commit leaves -/

section
variable {d : Dev} {p : Nat} (hp : p < 16) (hlen : d.pairs.length = 16)
include hp hlen

theorem held_resumedPair (r : HoldReport) : (d.resumedPair p).Held p ((d.resumedPair p).hold p r) := by
  obtain ⟨-, hlength, -⟩ := resumedPair_leaves (hp.trans_eq hlen.symm)
  exact (Dev.Held.refl hp (hlength.trans hlen)).hold

/-- After its hold the pair is as it resumed, but for what a hold may change. -/
theorem resumes_hold (htwin : (d.pair p).Twin) (r : HoldReport) :
    (d.pair p).Resumes (((d.resumedPair p).hold p r).pair p) := by
  obtain ⟨hpair, -⟩ := resumedPair_leaves (hp.trans_eq hlen.symm)
  exact htwin.resumes ((held_resumedPair hp hlen r).pair.trans (congrArg Pair.butHold hpair))

/-- After its hold the slot not used last holds the checkpoint, and the other is as it was. -/
theorem slotOf_hold (r : HoldReport) :
    ((d.resumedPair p).hold p r).slotOf (d.lpairOf p) (!(d.restartSlot (d.lpairOf p))) = (d.pair p).newSlot (d.lpairOf p) ∧
      ((d.resumedPair p).hold p r).slotOf (d.lpairOf p) (d.restartSlot (d.lpairOf p)) =
        d.slotOf (d.lpairOf p) (d.restartSlot (d.lpairOf p)) := by
  obtain ⟨-, hnew, hold⟩ := slotCommitted_leaves d p
  obtain ⟨-, -, hmirror, -⟩ := resumedPair_leaves (hp.trans_eq hlen.symm)
  have hkept := (held_resumedPair hp hlen r).mirror.trans hmirror
  exact ⟨(slotOf_of_mirror hkept ..).trans hnew, (slotOf_of_mirror hkept ..).trans hold⟩

end

/-- Settles O10: by what each of the commands leaves of a pair whose cores agree. -/
theorem checkpointsTaken : Obligations.CheckpointsTaken := by
  intro s p hlen x lp
  have hp : p.val < s.dev.pairs.length := p.isLt.trans_eq hlen.symm
  refine ⟨?due, ?k0, ?commit, ?overrun, ?again⟩
  case due =>
    exact fun hat h => completes_onDev rfl fun _ => checkpointDue_of_condition hat (dueNow_of_condition _ h)
  case k0 =>
    intro hat hb htwin htags hlock hrel hdelta
    obtain ⟨⟨slice, o, hpair⟩, hlength⟩ := pair_beforeClose hp
    have hcloses := Pair.Twin.closes htwin slice o
    refine completes_onDev rfl fun _ => ?_
    have hagree : (((s.dev.dropLateSlice p).handedOver p).pair p).Twin := by
      rw [hpair]
      exact Pair.Twin.atK0 htwin slice o
    rw [checkpointK0_of_twin hat hb (k0Ready_of htags hlock hrel hdelta) rfl hagree,
      pair_setPair_same _ _ _ (hp.trans_eq hlength.symm), hpair]
    refine ⟨hcloses.phase, hcloses.segCount, hcloses.acked, hcloses.sig, hcloses.twin, hcloses.cb, ?segovr, ?frame⟩
    case segovr => exact segovr_beforeClose hp
    case frame =>
      intro hwithin hoffers
      rw [dropLateSlice_of_no_offer hoffers, handedOver_of_within hwithin, setPair_setPair]
  case commit =>
    intro h hrun hphase hfence htwin
    have hresumes := resumes_hold p.isLt hlen htwin h
    have hheld := held_resumedPair p.isLt hlen h
    obtain ⟨hnew, hold⟩ := slotOf_hold p.isLt hlen h
    obtain ⟨-, -, -, hcknum⟩ := resumedPair_leaves hp
    refine completes_onDev rfl fun _ => ?_
    rw [checkpointCommit_of_twin h hrun hphase hfence htwin]
    refine ⟨hresumes.phase, hresumes.undo, hresumes.cb, hresumes.happ, hresumes.segCount, hresumes.rel, hresumes.relShadow,
      hresumes.releasing, hresumes.deltaLeft, hresumes.storeLead, hresumes.storeShadow, hresumes.ckNum,
      hheld.cknum.trans hcknum, hnew, hold, ?retried⟩
    case retried =>
      intro hretried
      obtain ⟨hrec, hcnt, hfault⟩ := resumedPair_reports hretried
      exact ⟨hheld.recovered.trans hrec, hheld.restarts.trans hcnt, (hheld.faults _ _ hfault).hasFault⟩
  case overrun =>
    intro hrun hphase hreached hnot
    obtain ⟨hflag, hpair, hfault⟩ := overran_leaves hp hnot
    refine completes_onDev rfl fun _ => ?_
    rw [segOverrun_of_reached hrun hphase hreached]
    exact ⟨hflag, hpair, hfault.hasFault⟩
  case again => exact fun h => completes_onDev rfl fun _ => segOverrun_of_reported h

end Sys2Proof.Machine
end

section
/-! PROOFS. TimebaseOps: positions and velocities as two's complement words (R7, R253), what an update of a timebase leaves,
and the row of a step (R259 to R261). -/

namespace Sys2Proof.Machine

/-! ### Two's complement -/

theorem sext_toNat {w : Nat} (x : BitVec w) : sext w x.toNat = x.toInt := by
  have hlt := x.isLt
  cases w with
  | zero => simp [BitVec.eq_nil x, sext]
  | succ n =>
    have hpow : 2 ^ (n + 1) = 2 * 2 ^ n := by ring
    rw [sext, Nat.mod_eq_of_lt hlt, Nat.add_sub_cancel, BitVec.toInt_eq_toNat_cond]
    push_cast
    split_ifs <;> omega

theorem wrap_eq_toNat (w : Nat) (x : Int) : wrap w x = (BitVec.ofInt w x).toNat := by
  rw [BitVec.toNat_ofInt, wrap]
  push_cast
  rfl

theorem ofInt_toNat (a : DWord) : BitVec.ofInt 64 a.toNat = a := by simp

theorem Timebase.v_eq (x : Timebase) : x.v = x.vel.toInt := sext_toNat x.vel

theorem toPos_toNat (a : DWord) : toPos a.toNat = a := by simp [toPos]

theorem posAdd_eq_toNat (p : Nat) (x : Int) : posAdd p x = (BitVec.ofInt 64 (p + x)).toNat := wrap_eq_toNat 64 _

/-- The difference of two positions with a revolution count is that of the numbers modulo 2^64, with its sign. -/
theorem posDiff_false (a b : Nat) : posDiff false a b = (BitVec.ofInt 64 ((a : Int) - b)).toInt := by
  rw [posDiff, if_neg Bool.false_ne_true, wrap_eq_toNat, sext_toNat]

theorem posDiff_toNat (a b : DWord) : posDiff false a.toNat b.toNat = (a - b).toInt := by
  rw [posDiff_false, sub_eq_add_neg, BitVec.ofInt_add, BitVec.ofInt_neg, ofInt_toNat, ofInt_toNat, ← sub_eq_add_neg]

/-- A step by the difference of two positions leads from one to the other. -/
theorem posAdd_sub (a b : DWord) : posAdd b.toNat (a - b).toInt = a.toNat := by
  rw [posAdd_eq_toNat, BitVec.ofInt_add, ofInt_toNat, BitVec.ofInt_toInt, add_sub_cancel]

/-! ### A timebase set (R252) -/

section
variable {d e : Dev} {t u : Nat} {x : Timebase}

@[simp] theorem tb_setTb_same : (d.setTb t x).tb t = x := arrGet_arrSet_same _ _ _ _

theorem tb_setTb_ne (h : u ≠ t) : (d.setTb t x).tb u = d.tb u := arrGet_arrSet_ne _ _ _ h

theorem tb_of_lantern (h : e.lantern = d.lantern) (u : Nat) : e.tb u = d.tb u := by simp only [Dev.tb, h]

/-! ### Flags of a timebase in ISTAT (R260, R263) -/

/-- A bit of a 16-bit field reads as 1 once set. -/
theorem testBit_setBitOf {f : Fld} (hf : f.Fits) (ht : t < f.w) : ((d.setBitOf f t).fld f).testBit t = true := by
  rw [setBitOf_eq, fld_setFld_same _ _ hf, Nat.testBit_mod_two_pow, testBit_withBit]
  simp [ht]

/-- A timebase's jump is noted at PWM groups alone. -/
theorem carriersJump_frame (d : Dev) (t : Nat) :
    (d.carriersJump t).lantern = d.lantern ∧
    (d.carriersJump t).fld LANTERN_ISTAT_JUMP = d.fld LANTERN_ISTAT_JUMP := by
  refine foldl_keeps (fun e : Dev => e.lantern = d.lantern ∧ e.fld LANTERN_ISTAT_JUMP = d.fld LANTERN_ISTAT_JUMP) _
    (fun e g h => ?_) _ d ⟨rfl, rfl⟩
  obtain ⟨hlantern, hjump⟩ := h
  have hg : (PWM_ISTAT_TBJ g).Apart LANTERN_ISTAT_JUMP := by
    left
    show (0x070008 : Nat) ≠ 0x08013C + 0x80 * g
    omega
  split
  · exact ⟨hlantern, (fld_setFld_apart _ 1 hg).trans hjump⟩
  · exact ⟨hlantern, hjump⟩

/-- A jump is flagged in ISTAT and presented; no timebase changes by its report. -/
theorem jumped_leaves (d : Dev) (ht : t < 16) :
    (d.jumped t).lantern = d.lantern ∧ ((d.jumped t).fld LANTERN_ISTAT_JUMP).testBit t = true ∧
    (d.jumped t).hasFault fiLtnJump t = true := by
  obtain ⟨hlantern, hjump⟩ := carriersJump_frame (d.setBitOf LANTERN_ISTAT_JUMP t) t
  refine ⟨hlantern, ?_, (Dev.awaits_present _ _ (by omega)).hasFault⟩
  rw [Dev.jumped, fld_present, hjump]
  exact testBit_setBitOf (by decide) ht

/-- A loss is flagged in ISTAT and presented; no timebase changes by its report. -/
theorem lossTold_leaves (d : Dev) (ht : t < 16) :
    (d.lossTold t).lantern = d.lantern ∧ ((d.lossTold t).fld LANTERN_ISTAT_LOSS).testBit t = true ∧
    (d.lossTold t).hasFault fiLtnLoss t = true := by
  refine ⟨rfl, ?_, (Dev.awaits_present _ _ (by omega)).hasFault⟩
  rw [Dev.lossTold, fld_present]
  exact testBit_setBitOf (by decide) ht

/-! ### The row of a step (R259 to R261) -/

theorem stepRow_jump {v s : Int} {hyst : Nat} (h : 2 ^ 47 < s.natAbs) : stepRow v s false hyst = .jump := by
  have hbeyond : halfTurn < s ∨ s < -halfTurn := by
    unfold halfTurn
    omega
  rcases hbeyond with h | h <;> simp [stepRow, h]

/-- Within half a turn, a small step against the velocity holds and any other moves. -/
theorem stepRow_within {v s : Int} {hyst : Nat} (h : s.natAbs ≤ 2 ^ 47) :
    stepRow v s false hyst =
      if s ≠ 0 ∧ v ≠ 0 ∧ (s < 0 ↔ 0 < v) ∧ s.natAbs ≤ hyst * 65536 then .hold else .move := by
  have hhigh : ¬ halfTurn < s := by unfold halfTurn; omega
  have hlow : ¬ s < -halfTurn := by unfold halfTurn; omega
  have hsign (hv : v ≠ 0) : (s < 0 ↔ 0 < v) ↔ ¬ (s < 0 ↔ v < 0) := by omega
  unfold stepRow
  simp only [hhigh, hlow, decide_false, Bool.or_self, Bool.false_and, Bool.false_eq_true, if_false]
  congr 1
  by_cases hv : v = 0
  · simp [hv]
  · simp [hv, hsign hv, and_assoc]

end

end Sys2Proof.Machine
end

section
/-! PROOFS. Samples: what a sample, a hold, an ADJ and a line sample leave of their timebase (R256 to R262,
`Obligations.SamplesFollowed`). -/

namespace Sys2Proof.Machine

section
variable {d : Dev} {t : Nat} {smp : Sample} {pp tp : Nat}

/-! ### A sample taken (R256 to R258) -/

/-- A sample from an interface or line is taken where one is due and the timebase is not in holdover. -/
theorem timebaseSample_of_waiting (det : MainsOut) (hon : d.tbOn t = true) (hsrc : d.tbSrc t = 1 ∨ d.tbSrc t = 3)
    (hwaiting : (d.tb t).waiting = some smp) (hholdover : (d.tb t).holdover = false)
    (hfree : ∀ l, (d.tb t).lastTaken = some l → l + 8 ≤ d.lantern.lt) :
    timebaseSample t det d = d.takeSample t smp := by
  have hmains : d.tbSrc t ≠ 2 := by omega
  have hrunning : d.tbSrc t ≠ 0 := by omega
  have hsample : d.sampleOf t det = some smp := by rw [Dev.sampleOf, if_neg hmains, if_neg hrunning, hwaiting]
  unfold timebaseSample
  extract_lets x free
  have hdue : free = true := by
    unfold free
    split
    · next l hlast => exact decide_eq_true (hfree l hlast)
    · rfl
  simp only [hon, hdue, hsample, hmains, hholdover, Bool.not_true, Bool.or_self, Bool.false_eq_true, if_false]

/-- The position that a sample predicts, as P holds it. -/
def Dev.prediction (d : Dev) (t : Nat) (smp : Sample) (v : Int) : DWord :=
  BitVec.ofInt 64 (d.scaled t smp + (v * (16 * d.lantern.lt - smp.time)).tdiv 16)

theorem predicted_eq_toNat (v : Int) :
    predicted (d.scaled t smp) v d.lantern.lt smp.time = (d.prediction t smp v).toNat := posAdd_eq_toNat _ _

/-- The first sample sets P to its prediction without a move. -/
theorem takeSample_first (hprev : (d.tb t).prev = none) :
    d.takeSample t smp = d.setTb t { d.tb t with
      waiting := none, conv := none, p := d.prediction t smp (d.tb t).vel.toInt, moved := false, held := none
      prev := some (d.scaled t smp, smp.time), velFresh := true, valid := true, lossTold := false
      lastTaken := some d.lantern.lt, lastValid := d.lantern.lt } := by
  unfold Dev.takeSample
  simp only [hprev, predicted_eq_toNat, toPos_toNat]
  rw [← Timebase.v_eq]
  rfl

theorem takeSample_late (hprev : (d.tb t).prev = some (pp, tp)) (hlate : smp.time ≤ tp) :
    d.takeSample t smp = d.setTb t { d.tb t with waiting := none, conv := none } := by
  unfold Dev.takeSample
  simp only [hprev, if_pos hlate]

/-- VEL after a sample with a valid revolution count (R258). -/
def Dev.velAfter (d : Dev) (t : Nat) (smp : Sample) (pp tp : Nat) : Int :=
  let x := d.tb t
  let raw := satInt 32 (((BitVec.ofInt 64 ((d.scaled t smp : Int) - pp)).toInt * 16).tdiv ((smp.time : Int) - tp))
  if x.velFresh then raw else x.vel.toInt + (raw - x.vel.toInt) >>> d.fld (LANTERN_TBCFG_VSH t)

/-- The timebase with a later sample noted, before its step. -/
def Dev.withSample (d : Dev) (t : Nat) (smp : Sample) (v : Int) : Timebase :=
  { d.tb t with
    waiting := none, conv := none, returning := false, vel := BitVec.ofInt 32 v, velFresh := false
    prev := some (d.scaled t smp, smp.time), valid := true, lossTold := false
    lastTaken := some d.lantern.lt, lastValid := d.lantern.lt }

/-- A later sample with a valid revolution count is one step to its prediction, from the position at the end of the lt
before. -/
theorem takeSample_later (hsrc : d.tbSrc t ≠ 2) (hprev : (d.tb t).prev = some (pp, tp)) (hlater : tp < smp.time)
    (hrev : smp.revOk = true) :
    let v := d.velAfter t smp pp tp
    let T := d.prediction t smp v
    d.takeSample t smp = d.stepTb t (d.withSample t smp v) (d.tb t).p0.toNat T.toNat
      (stepRow v (T - (d.tb t).p0).toInt false (d.fld (LANTERN_TBHYST_HYST t))) := by
  intro v T
  have hlate : ¬ smp.time ≤ tp := by omega
  have hraw := posDiff_false (d.scaled t smp) pp
  have hv : (if (d.tb t).velFresh = true then _ else _) = v := rfl
  have hstep : posDiff false (predicted (d.scaled t smp) v d.lantern.lt smp.time) (d.tb t).p0.toNat =
      (T - (d.tb t).p0).toInt := by rw [predicted_eq_toNat, posDiff_toNat]
  unfold Dev.takeSample
  simp only [hprev, hlate, hsrc, hrev, Bool.not_true, if_false, newVel, hraw, Timebase.v_eq, hv, hstep, posAdd_sub,
    bne_self_eq_false, decide_false, Bool.false_eq_true, Bool.and_false, Dev.withSample]

/-! ### A step taken (R259 to R261) -/

theorem tb_stepTb_ne (d : Dev) {t u : Nat} (h : u ≠ t) (ht : t < 16) (x : Timebase) (from_ tgt : Nat) (row : StepRow) :
    (d.stepTb t x from_ tgt row).tb u = d.tb u := by
  cases row with
  | jump => exact (tb_of_lantern (jumped_leaves _ ht).1 u).trans (tb_setTb_ne h)
  | hold => exact tb_setTb_ne h
  | move => exact tb_setTb_ne h

theorem stepTb_jump (d : Dev) (ht : t < 16) (x : Timebase) (from_ : Nat) (T : DWord) :
    let e := d.stepTb t x from_ T.toNat .jump
    e.tb t = { x with p := T, moved := false, held := none, velFresh := true } ∧
    (e.fld LANTERN_ISTAT_JUMP).testBit t = true ∧ e.hasFault fiLtnJump t = true := by
  obtain ⟨hlantern, hflag, hfault⟩ :=
    jumped_leaves (d.setTb t { x with p := toPos T.toNat, moved := false, held := none, velFresh := true }) ht
  refine ⟨(tb_of_lantern hlantern t).trans ?_, hflag, hfault⟩
  rw [tb_setTb_same, toPos_toNat]

theorem stepTb_hold (d : Dev) (t : Nat) (x : Timebase) (P T : DWord) :
    d.stepTb t x P.toNat T.toNat .hold = d.setTb t { x with p := P, moved := false, held := some T } := by
  simp only [Dev.stepTb, toPos_toNat]

theorem stepTb_move (d : Dev) (t : Nat) (x : Timebase) (from_ : Nat) (T : DWord) :
    d.stepTb t x from_ T.toNat .move = d.setTb t { x with p := T, moved := true, held := none } := by
  simp only [Dev.stepTb, toPos_toNat]

theorem stepTb_withSample (d : Dev) (ht : t < 16) (smp : Sample) (v : Int) (P T : DWord) (row : StepRow) :
    let x := (d.stepTb t (d.withSample t smp v) P.toNat T.toNat row).tb t
    x.vel = BitVec.ofInt 32 v ∧ x.valid = true ∧ x.prev = some (d.scaled t smp, smp.time) := by
  cases row with
  | jump =>
    obtain ⟨htb, -⟩ := stepTb_jump d ht (d.withSample t smp v) P.toNat T
    rw [htb]
    exact ⟨rfl, rfl, rfl⟩
  | hold =>
    rw [stepTb_hold, tb_setTb_same]
    exact ⟨rfl, rfl, rfl⟩
  | move =>
    rw [stepTb_move, tb_setTb_same]
    exact ⟨rfl, rfl, rfl⟩

/-! ### Holds, ADJ and line samples (R257, R261, R262) -/

section
variable {T : DWord} (hheld : (d.tb t).held = some T) (hvel : 0 < (d.tb t).vel.toInt)
include hheld hvel

theorem holdResume_reached (hon : d.tbOn t = true) (h : 0 ≤ (T - (d.tb t).p).toInt) :
    holdResume t d = d.setTb t { d.tb t with p := T, held := none, moved := true } := by
  simp only [holdResume, hheld, hon, Timebase.v_eq, Timebase.pos, posDiff_toNat, hvel, h, decide_true,
    Bool.and_self, Bool.true_or, if_true]

theorem holdResume_ahead (h : (T - (d.tb t).p).toInt < 0) : holdResume t d = d := by
  have hup : ¬ (d.tb t).vel.toInt < 0 := by omega
  have hgap : ¬ 0 ≤ (T - (d.tb t).p).toInt := by omega
  simp only [holdResume, hheld, Timebase.v_eq, Timebase.pos, posDiff_toNat, hup, hgap, decide_false,
    Bool.and_false, Bool.false_and, Bool.or_self, Bool.false_eq_true, if_false]

end

theorem adjWrite_on (v : Word) (hon : d.tbOn t = true) :
    adjWrite t v.toNat d = d.setTb t { d.tb t with adj := (d.tb t).adj + v.toInt, adjAny := true } := by
  simp [adjWrite, hon, sext_toNat]

theorem adjWrite_off (v : Nat) (hon : d.tbOn t = false) : adjWrite t v d = d := by simp [adjWrite, hon]

theorem lineSample_on (hi : Word) (hon : d.tbOn t = true) (hsrc : d.tbSrc t = 3) :
    lineSample t hi.toNat d = d.setTb t { d.tb t with
      waiting := some ⟨d.fld (LANTERN_TBLPOSA_ANGLE t) * 65536, d.fld (LANTERN_TBLPOSR_REV t),
        d.on (LANTERN_TBLPOSR_REVOK t), d.fld (LANTERN_TBLTIMELO_TIME t) + hi.toNat * 2 ^ 32⟩ } := by
  simp only [lineSample, hon, hsrc, Nat.mod_eq_of_lt hi.isLt]
  rfl

end

/-- Settles O13: a sample that waits is taken whole, left aside or one step to its prediction, and the step's row says
what becomes of P. -/
theorem samplesFollowed : Obligations.SamplesFollowed := by
  intro s t det d x L
  have ht := t.isLt
  refine ⟨?samples, fun T hon hheld hvel => ?holds, fun v => ?adj,
    fun hi hon hsrc => ?line⟩
  case samples =>
    intro smp hon hsrc hwaiting hholdover hfree ps
    have htaken := timebaseSample_of_waiting det hon hsrc hwaiting hholdover hfree
    refine ⟨fun hprev => ?first, fun pp tp hprev hlate => ?late, ?later⟩
    case first =>
      refine completes_onClock rfl fun _ _ => ?_
      rw [htaken, takeSample_first hprev, tb_setTb_same]
      exact ⟨rfl, rfl, rfl, rfl, rfl, rfl, rfl⟩
    case late =>
      refine completes_onClock rfl fun _ _ => ?_
      rw [htaken, takeSample_late hprev hlate, tb_setTb_same]
      exact ⟨rfl, rfl, rfl, rfl⟩
    case later =>
      intro pp tp hprev hlater hrev raw v T dd against
      have hstep : d.takeSample t smp = d.stepTb t (d.withSample t smp v) x.p0.toNat T.toNat
          (stepRow v dd false (d.fld (LANTERN_TBHYST_HYST t))) := takeSample_later (by omega) hprev hlater hrev
      obtain ⟨hvel, hvalid, hprev'⟩ :=
        stepTb_withSample d ht smp v x.p0 T (stepRow v dd false (d.fld (LANTERN_TBHYST_HYST t)))
      refine completes_onClock rfl fun _ _ => ?_
      rw [htaken, hstep]
      refine ⟨hvel, hvalid, hprev', fun u hu => tb_stepTb_ne d hu ht _ _ _ _, fun hjump => ?jump,
        fun hwithin hagainst => ?hold, fun hwithin hagainst => ?move⟩
      case jump =>
        obtain ⟨htb, hflag, hfault⟩ := stepTb_jump d ht (d.withSample t smp v) x.p0.toNat T
        rw [stepRow_jump hjump, htb]
        exact ⟨rfl, rfl, rfl, rfl, hflag, hfault⟩
      case hold =>
        rw [stepRow_within hwithin, if_pos hagainst, stepTb_hold, tb_setTb_same]
        exact ⟨rfl, rfl, rfl⟩
      case move =>
        rw [stepRow_within hwithin, if_neg hagainst, stepTb_move, tb_setTb_same]
        exact ⟨rfl, rfl, rfl, rfl⟩
  case holds =>
    refine ⟨fun h => completes_onClock rfl fun _ _ => ?_,
      fun h => completes_onClock rfl fun _ _ => holdResume_ahead hheld hvel h⟩
    rw [holdResume_reached hheld hvel hon h, tb_setTb_same]
    exact ⟨rfl, rfl, rfl, rfl⟩
  case adj =>
    exact ⟨fun hon => completes_onDev rfl fun _ => adjWrite_on v hon,
      fun hon => completes_onDev rfl fun _ => adjWrite_off _ hon⟩
  case line => exact completes_onDev rfl fun _ => lineSample_on hi hon hsrc

end Sys2Proof.Machine
end

section
/-! PROOFS. TimebaseWrites: what a write of CFG leaves of a timebase, of its registers and of the groups whose carrier runs
on it (R255, R264, R290). -/

namespace Sys2Proof.Machine

section
variable {d : Dev} {t : Nat} {w : Word}

/-! ### CFG as a write stores it (R14, R569) -/

/-- The address of a timebase's CFG. -/
abbrev tbCfg (t : Nat) : Nat := 0x070100 + 0x40 * t

theorem regAt_tbCfg : ∀ t < 16, regAt (tbCfg t) = some (.LANTERN_TBCFG, [t]) := by decide

theorem lockAddr_tbCfg : ∀ t < 16, lockAddr (tbCfg t) = some 0x07001C := by decide

theorem ioLocked_tbCfg (ht : t < 16) : ioLocked d.io (tbCfg t) = decide (d.fld LANTERN_LOCK_LOCK = 1) := by
  rw [ioLocked, lockAddr_tbCfg t ht]
  exact Nat.testBit_zero _

theorem storeReg_tbCfg (ht : t < 16) (w : Word) : ∃ v, d.storeReg (tbCfg t) w = d.setWord (tbCfg t) v :=
  ⟨_, storeReg_of_regAt (regAt_tbCfg t ht) w⟩

section
variable {f : FieldRow} (ht : t < 16) (hf : f ∈ fieldsLANTERN_TBCFG)
include ht hf

/-- A field of CFG after a write takes what its access code gives. -/
theorem fld_storeReg_tbCfg (w : Word) : (d.storeReg (tbCfg t) w).fld ⟨tbCfg t, f.lo, f.w⟩ =
    f.written (decide (d.fld LANTERN_LOCK_LOCK = 1)) (d.fld ⟨tbCfg t, f.lo, f.w⟩) (fieldOf w f.lo f.w) % 2 ^ f.w := by
  rw [storeReg_of_regAt (regAt_tbCfg t ht), fld_eq, word_setWord_same, ioLocked_tbCfg ht]
  exact fieldOf_regWritten _ _ _ (by decide) hf

theorem fld_storeReg_tbCfg_stored (w : Word) (h : f.acc = .rw ∨ (f.acc = .lck ∧ d.fld LANTERN_LOCK_LOCK = 0)) :
    (d.storeReg (tbCfg t) w).fld ⟨tbCfg t, f.lo, f.w⟩ =
      f.norm.apply (d.fld ⟨tbCfg t, f.lo, f.w⟩) (fieldOf w f.lo f.w) % 2 ^ f.w := by
  have hopen : f.acc = .rw ∨ (f.acc = .lck ∧ ¬ decide (d.fld LANTERN_LOCK_LOCK = 1) = true) :=
    h.imp id fun ⟨hacc, hlock⟩ => ⟨hacc, by simp [hlock]⟩
  rw [fld_storeReg_tbCfg ht hf, written_stores hopen]

theorem fld_storeReg_tbCfg_locked (w : Word) (hacc : f.acc = .lck) (h : d.fld LANTERN_LOCK_LOCK = 1) :
    (d.storeReg (tbCfg t) w).fld ⟨tbCfg t, f.lo, f.w⟩ = d.fld ⟨tbCfg t, f.lo, f.w⟩ := by
  rw [fld_storeReg_tbCfg ht hf, written_keeps (.inr (.inr (.inr ⟨hacc, decide_eq_true h⟩)))]
  exact Nat.mod_eq_of_lt (fld_lt _ _)

end

/-- The device with CFG stored, a SEL beyond its source as 0 (R255). -/
def Dev.storeCfg (d : Dev) (t : Nat) (w : Word) : Dev :=
  let d := d.storeReg (tbCfg t) w
  if selTop (d.tbSrc t) < d.fld (LANTERN_TBCFG_SEL t) then d.setFld (LANTERN_TBCFG_SEL t) 0 else d

/-- Storing CFG changes no register but CFG, and nothing but the registers. -/
theorem storeCfg_frame (ht : t < 16) (w : Word) :
    (d.storeCfg t w).lantern = d.lantern ∧ (d.storeCfg t w).drive = d.drive ∧
    ∀ a, a ≠ tbCfg t → (d.storeCfg t w).word a = d.word a := by
  obtain ⟨v, hv⟩ := storeReg_tbCfg (d := d) ht w
  unfold Dev.storeCfg
  rw [hv]
  extract_lets d1
  have h1 : ∀ a, a ≠ tbCfg t → d1.word a = d.word a := fun a ha => word_setWord_ne d v ha
  split
  · exact ⟨rfl, rfl, fun a ha => (word_setFld_ne d1 _ 0 ha).trans (h1 a ha)⟩
  · exact ⟨rfl, rfl, h1⟩

/-- The fields of CFG but SEL are as the write stores them. -/
theorem fld_storeCfg {lo n : Nat} (h : 29 ≤ lo ∨ lo + n ≤ 24) :
    (d.storeCfg t w).fld ⟨tbCfg t, lo, n⟩ = (d.storeReg (tbCfg t) w).fld ⟨tbCfg t, lo, n⟩ := by
  unfold Dev.storeCfg
  extract_lets d1
  split
  · exact fld_setFld_apart d1 0 (.inr h)
  · rfl

/-- EN, VSH and STALE are stored whatever LOCK is. -/
theorem storeCfg_stores (ht : t < 16) (w : Word) :
    (d.storeCfg t w).fld (LANTERN_TBCFG_EN t) = bitOf w.toNat 31 ∧
    (d.storeCfg t w).fld (LANTERN_TBCFG_VSH t) = bitsOf w.toNat 17 3 ∧
    (d.storeCfg t w).fld (LANTERN_TBCFG_STALE t) = bitsOf w.toNat 0 16 := by
  have hstored {f : FieldRow} (hf : f ∈ fieldsLANTERN_TBCFG) (hacc : f.acc = .rw) (hnorm : f.norm = .any)
      (hsel : 29 ≤ f.lo ∨ f.lo + f.w ≤ 24) : (d.storeCfg t w).fld ⟨tbCfg t, f.lo, f.w⟩ = fieldOf w f.lo f.w := by
    rw [fld_storeCfg hsel, fld_storeReg_tbCfg_stored ht hf w (.inl hacc), hnorm]
    exact Nat.mod_eq_of_lt (fieldOf_lt _ _ _)
  exact ⟨hstored (f := { lo := 31, w := 1, acc := .rw }) (by decide) rfl rfl (by decide),
    hstored (f := { lo := 17, w := 3, acc := .rw, rst := .value 2 }) (by decide) rfl rfl (by decide),
    hstored (f := { lo := 0, w := 16, acc := .rw, rst := .value 100 }) (by decide) rfl rfl (by decide)⟩

/-- The rows of the fields of CFG that LOCK governs. -/
abbrev rowSrc : FieldRow := { lo := 29, w := 2, acc := .lck }
abbrev rowSel : FieldRow := { lo := 24, w := 5, acc := .lck }
abbrev rowPoles : FieldRow := { lo := 20, w := 4, acc := .lck, rst := .value 1, norm := .clamped 1 15 }

theorem clamp_poles {n : Nat} (h : n < 16) : clamp 1 15 n % 16 = if n = 0 then 1 else n := by
  unfold clamp
  split_ifs <;> omega

/-- The highest SEL of a source is below 31 for a position interface and a mains detector alone. -/
theorem selTop_lt_iff {src sel : Nat} (h : sel < 32) :
    selTop src < sel ↔ (src = 1 ∧ 11 < sel) ∨ (src = 2 ∧ 23 < sel) := by
  unfold selTop
  split_ifs <;> omega

/-- While LOCK is 0, SRC, POLES and SEL are stored, POLES 0 as 1 and a SEL beyond its source as 0. -/
theorem storeCfg_unlocked (ht : t < 16) (w : Word) (hlock : d.fld LANTERN_LOCK_LOCK = 0) :
    (d.storeCfg t w).fld (LANTERN_TBCFG_SRC t) = bitsOf w.toNat 29 2 ∧
    (d.storeCfg t w).fld (LANTERN_TBCFG_POLES t) = (if bitsOf w.toNat 20 4 = 0 then 1 else bitsOf w.toNat 20 4) ∧
    (d.storeCfg t w).fld (LANTERN_TBCFG_SEL t) =
      (if (bitsOf w.toNat 29 2 = 1 ∧ 11 < bitsOf w.toNat 24 5) ∨ (bitsOf w.toNat 29 2 = 2 ∧ 23 < bitsOf w.toNat 24 5)
        then 0 else bitsOf w.toNat 24 5) := by
  have hstored {f : FieldRow} (hf : f ∈ fieldsLANTERN_TBCFG) (hacc : f.acc = .lck) :=
    fld_storeReg_tbCfg_stored (d := d) ht hf w (.inr ⟨hacc, hlock⟩)
  have hsrc : (d.storeReg (tbCfg t) w).fld (LANTERN_TBCFG_SRC t) = bitsOf w.toNat 29 2 :=
    (hstored (f := rowSrc) (by decide) rfl).trans (Nat.mod_eq_of_lt (fieldOf_lt w 29 2))
  have hpoles : (d.storeReg (tbCfg t) w).fld (LANTERN_TBCFG_POLES t) = _ :=
    (hstored (f := rowPoles) (by decide) rfl).trans (clamp_poles (fieldOf_lt w 20 4))
  have hsel : (d.storeReg (tbCfg t) w).fld (LANTERN_TBCFG_SEL t) = bitsOf w.toNat 24 5 :=
    (hstored (f := rowSel) (by decide) rfl).trans (Nat.mod_eq_of_lt (fieldOf_lt w 24 5))
  refine ⟨(fld_storeCfg (.inl (by decide))).trans hsrc, (fld_storeCfg (.inr (by decide))).trans hpoles, ?_⟩
  unfold Dev.storeCfg
  extract_lets d1
  have htop := selTop_lt_iff (src := bitsOf w.toNat 29 2) (sel := bitsOf w.toNat 24 5) (fieldOf_lt w 24 5)
  rw [show d1.tbSrc t = bitsOf w.toNat 29 2 from hsrc, hsel]
  split
  · next h => rw [if_pos (htop.1 h), fld_setFld_same _ 0 (f := LANTERN_TBCFG_SEL t) (by show 24 + 5 ≤ 32; decide)]; rfl
  · next h => rw [if_neg (h ∘ htop.2), hsel]

/-- While LOCK is 1, SRC and POLES stay. -/
theorem storeCfg_locked (ht : t < 16) (w : Word) (hlock : d.fld LANTERN_LOCK_LOCK = 1) :
    (d.storeCfg t w).fld (LANTERN_TBCFG_SRC t) = d.fld (LANTERN_TBCFG_SRC t) ∧
    (d.storeCfg t w).fld (LANTERN_TBCFG_POLES t) = d.fld (LANTERN_TBCFG_POLES t) :=
  ⟨(fld_storeCfg (.inl (by decide))).trans (fld_storeReg_tbCfg_locked (f := rowSrc) ht (by decide) w rfl hlock),
    (fld_storeCfg (.inr (by decide))).trans (fld_storeReg_tbCfg_locked (f := rowPoles) ht (by decide) w rfl hlock)⟩

/-! ### Groups whose timebase is off (R290) -/

/-- The device with every group forced whose angle carrier's timebase is off. -/
def Dev.forceStopped (d : Dev) (l : List Nat) : Dev :=
  l.foldl (fun d g => if d.tbStopped g then d.forceGroup g else d) d

/-- Forcing a group changes neither the registers nor Lantern, and no group's carrier. -/
theorem forceStopped_frame (d : Dev) (l : List Nat) :
    (d.forceStopped l).io = d.io ∧ (d.forceStopped l).lantern = d.lantern ∧
    ∀ h, ((d.forceStopped l).group h).act = (d.group h).act ∧
      ((d.group h).safe = true → ((d.forceStopped l).group h).safe = true) := by
  refine foldl_keeps (fun e : Dev => e.io = d.io ∧ e.lantern = d.lantern ∧
    ∀ h, (e.group h).act = (d.group h).act ∧ ((d.group h).safe = true → (e.group h).safe = true)) _
    (fun e g he => ?_) l d ⟨rfl, rfl, fun _ => ⟨rfl, id⟩⟩
  obtain ⟨hio, hlantern, hgroup⟩ := he
  split
  · refine ⟨hio, hlantern, fun h => ?_⟩
    rw [forceGroup_eq]
    by_cases hg : h = g
    · subst hg
      rw [group_setGroup_same]
      exact ⟨(hgroup h).1, fun _ => rfl⟩
    · rw [group_setGroup_ne _ _ hg]
      exact hgroup h
  · exact ⟨hio, hlantern, hgroup⟩

/-- A group whose timebase is off is at its safe levels once the groups have been gone through. -/
theorem forceStopped_safe {g : Nat} {l : List Nat} (hg : g ∈ l) :
    ∀ {d : Dev}, d.tbStopped g = true → ((d.forceStopped l).group g).safe = true := by
  induction l with
  | nil => cases hg
  | cons h l ih =>
    intro d hstopped
    obtain ⟨hio, -, hgroup⟩ := forceStopped_frame d [h]
    have hfold : d.forceStopped (h :: l) = (d.forceStopped [h]).forceStopped l := rfl
    rw [hfold]
    rcases List.mem_cons.1 hg with rfl | hg
    · obtain ⟨-, -, hkept⟩ := forceStopped_frame (d.forceStopped [g]) l
      refine (hkept g).2 ?_
      rw [Dev.forceStopped, List.foldl_cons, List.foldl_nil, if_pos hstopped, forceGroup_eq, group_setGroup_same]
    · refine ih hg (Eq.trans ?_ hstopped)
      simp only [Dev.tbStopped, Dev.tbOn, Dev.on, (hgroup g).1, fld_of_io hio]

/-! ### The write (R264) -/

/-- A write of CFG stores it, starts the timebase afresh where EN, or a field that an enabled one takes its samples by,
has changed, and forces the groups whose timebase is off. -/
theorem timebaseWrite_cases (d : Dev) (t : Nat) (w : Word) :
    ∃ e, timebaseWrite t w d = e.forceStopped (List.range 12) ∧
      (e = (d.storeCfg t w).restartTb t ∨
        (e = d.storeCfg t w ∧ e.tbOn t = d.tbOn t ∧ (d.tbOn t = true → e.tbSrc t = d.tbSrc t))) := by
  unfold timebaseWrite
  extract_lets a key was old d1 d2 d3
  have h2 : d2 = d.storeCfg t w := rfl
  refine ⟨d3, rfl, ?_⟩
  unfold d3
  rw [h2]
  split
  · exact .inl rfl
  · next h =>
    simp only [Bool.or_eq_true, Bool.and_eq_true, bne_iff_ne, not_or, not_not, not_and] at h
    obtain ⟨hon, hsame⟩ := h
    exact .inr ⟨rfl, hon.symm, fun h => (congrArg Prod.fst (hsame h)).symm⟩

/-- The registers after a write of CFG are as it stores them. -/
theorem timebaseWrite_io (d : Dev) (t : Nat) (w : Word) : (timebaseWrite t w d).io = (d.storeCfg t w).io := by
  obtain ⟨e, he, hcases⟩ := timebaseWrite_cases d t w
  rw [he, (forceStopped_frame e _).1]
  rcases hcases with rfl | ⟨rfl, -⟩ <;> rfl

/-- A write of CFG leaves every other timebase, and P and VEL of its own; its own starts afresh where EN changes, or the
source of an enabled timebase. -/
theorem timebaseWrite_tb (d : Dev) (ht : t < 16) (w : Word) :
    let e := timebaseWrite t w d
    (∀ u, u ≠ t → e.tb u = d.tb u) ∧ (e.tb t).p = (d.tb t).p ∧ (e.tb t).vel = (d.tb t).vel ∧
    (e.tbOn t ≠ d.tbOn t ∨ (d.tbOn t = true ∧ e.tbSrc t ≠ d.tbSrc t) → e.tb t = (d.tb t).fresh d.lantern.lt) := by
  obtain ⟨hlantern, -, -⟩ := storeCfg_frame (d := d) ht w
  have htb := tb_of_lantern hlantern
  obtain ⟨e, he, hcases⟩ := timebaseWrite_cases d t w
  obtain ⟨hio, hforced, -⟩ := forceStopped_frame e (List.range 12)
  have hon : (e.forceStopped (List.range 12)).tbOn t = e.tbOn t := congrArg (· != 0) (fld_of_io hio _)
  have hsrc : (e.forceStopped (List.range 12)).tbSrc t = e.tbSrc t := fld_of_io hio _
  simp only [he, tb_of_lantern hforced, hon, hsrc]
  rcases hcases with rfl | ⟨rfl, hon, hsrc⟩
  · simp only [Dev.restartTb, tb_setTb_same, htb, hlantern]
    exact ⟨fun u hu => (tb_setTb_ne hu).trans (htb u), rfl, rfl, fun _ => trivial⟩
  · refine ⟨fun u _ => htb u, congrArg _ (htb t), congrArg _ (htb t), fun h => ?_⟩
    rcases h with h | ⟨h, hne⟩
    · exact absurd hon h
    · exact absurd (hsrc h) hne

/-- After a write of CFG that leaves its timebase off, an enabled group whose carrier runs on it is at its safe levels. -/
theorem timebaseWrite_group (d : Dev) (ht : t < 16) (w : Word) {g : Nat} (hg : g < 12) (hen : d.on (PWM_CFG_EN g) = true)
    (hcarr : (d.group g).act.carr = true) (htb : (d.group g).act.tb = t) (hoff : (timebaseWrite t w d).tbOn t = false) :
    ((timebaseWrite t w d).group g).safe = true := by
  obtain ⟨-, hdrive, hword⟩ := storeCfg_frame (d := d) ht w
  obtain ⟨e, he, hcases⟩ := timebaseWrite_cases d t w
  have hio : e.io = (d.storeCfg t w).io := by rcases hcases with rfl | ⟨rfl, -⟩ <;> rfl
  have hgroup : e.group g = d.group g := by
    have h : e.drive = d.drive := by rcases hcases with rfl | ⟨rfl, -⟩ <;> exact hdrive
    simp only [Dev.group, h]
  have hpwm : (PWM_CFG_EN g).addr ≠ tbCfg t := by
    show 0x080100 + 0x80 * g ≠ 0x070100 + 0x40 * t
    omega
  have hon : e.on (PWM_CFG_EN g) = d.on (PWM_CFG_EN g) :=
    congrArg (· != 0) ((fld_of_io hio _).trans (fld_of_word _ (hword _ hpwm)))
  have hstopped : e.tbStopped g = true := by
    have hoff' : e.tbOn t = false :=
      (congrArg (· != 0) (fld_of_io (hio.trans (timebaseWrite_io d t w).symm) (LANTERN_TBCFG_EN t))).trans hoff
    simp [Dev.tbStopped, hon, hgroup, hen, hcarr, htb, hoff']
  rw [he]
  exact forceStopped_safe (List.mem_range.2 hg) hstopped

theorem tbOn_ne_of_en {e : Dev} (h : e.fld (LANTERN_TBCFG_EN t) ≠ d.fld (LANTERN_TBCFG_EN t)) : e.tbOn t ≠ d.tbOn t := by
  have hd : d.fld (LANTERN_TBCFG_EN t) < 2 := fld_lt d _
  have he : e.fld (LANTERN_TBCFG_EN t) < 2 := fld_lt e _
  intro hon
  rw [Dev.tbOn, Dev.tbOn, Dev.on, Dev.on, Bool.eq_iff_iff, bne_iff_ne, bne_iff_ne] at hon
  omega

end

end Sys2Proof.Machine
end

section
/-! PROOFS. TimebaseLosses: when a source is lost, and when a mains timebase locks and goes into holdover (R263, R265,
R266). -/

namespace Sys2Proof.Machine

section
variable {d : Dev} {t : Nat}

/-! ### A stale source (R263) -/

theorem sourceLost_of_stale (hon : d.tbOn t = true) (hsrc : d.tbSrc t ≠ 0) (hstale : d.fld (LANTERN_TBCFG_STALE t) ≠ 0)
    (htold : (d.tb t).lossTold = false)
    (hlast : (d.tb t).lastValid + 600 * d.fld (LANTERN_TBCFG_STALE t) ≤ d.lantern.lt) :
    sourceLost t d = (d.setTb t { d.tb t with valid := false, lossTold := true }).lossTold t := by
  simp [sourceLost, hon, hsrc, hstale, htold, hlast]

theorem sourceLost_of_zero (h : d.fld (LANTERN_TBCFG_STALE t) = 0) : sourceLost t d = d := by simp [sourceLost, h]

/-! ### Lock and holdover of a mains timebase (R265, R266) -/

theorem mayLock_iff :
    d.mayLock t = true ↔ ∃ g, (d.tb t).goodSince = some g ∧ g + 4 * d.nomCycle t ≤ d.lanternTime := by
  unfold Dev.mayLock
  split
  · next h => simp [h]
  · next h => simp [h]

theorem starved_iff : d.starved t = true ↔ (d.tb t).convTimes[199]? = none ∨
    ∃ u, (d.tb t).convTimes[199]? = some u ∧ u + d.nomCycle t < d.lanternTime := by
  unfold Dev.starved
  split
  · next h => simp [h]
  · next h => simp [h]

theorem mustUnlock_iff :
    d.mustUnlock t = true ↔ (∃ b, (d.tb t).badSince = some b ∧ b + 2 * d.nomCycle t ≤ d.lanternTime) ∨
      (d.tb t).offFreq = true ∨ (d.tb t).convTimes[199]? = none ∨
      ∃ u, (d.tb t).convTimes[199]? = some u ∧ u + d.nomCycle t < d.lanternTime := by
  rw [← starved_iff]
  unfold Dev.mustUnlock
  extract_lets x bad
  have hbad : bad = true ↔ ∃ b, x.badSince = some b ∧ b + 2 * d.nomCycle t ≤ d.lanternTime := by
    unfold bad
    split
    · next h => simp [h]
    · next h => simp [h]
  rw [Bool.or_eq_true, Bool.or_eq_true, hbad, or_assoc]

theorem mainsLock_of_mayLock (hon : d.tbOn t = true) (hsrc : d.tbSrc t = 2) (hlocked : (d.tb t).locked = false)
    (h : d.mayLock t = true) : mainsLock t d = d.setTb t { d.tb t with
      locked := true, everLocked := true, holdover := false, returning := (d.tb t).holdover } := by
  simp [mainsLock, hon, hsrc, hlocked, h]

theorem mainsLock_of_not_mayLock (h : ¬ d.mayLock t = true) : mainsLock t d = d := by simp [mainsLock, h]

theorem mainsLost_of_mustUnlock (hon : d.tbOn t = true) (hsrc : d.tbSrc t = 2) (hlocked : (d.tb t).locked = true)
    (h : d.mustUnlock t = true) : mainsLost t d = (d.setTb t { d.tb t with
      locked := false, holdover := true
      vel := BitVec.ofInt 32 (satInt 32 ((d.tb t).lockVel * d.fld (LANTERN_TBCFG_POLES t))) }).lossTold t := by
  simp [mainsLost, hon, hsrc, hlocked, h]

theorem mainsLost_of_not_mustUnlock (h : ¬ d.mustUnlock t = true) : mainsLost t d = d := by simp [mainsLost, h]

end

end Sys2Proof.Machine
end

section
/-! PROOFS. Crossings: where a timebase's move crosses an angle, and what a comparator and a gate detector do at a crossing
(R267 to R274); with the writes and losses, `Obligations.TimebasesAndCrossings`. -/

namespace Sys2Proof.Machine

section
variable {d : Dev}

/-! ### A crossing (R267) -/

/-- In the present lt timebase `tb` has moved from P0 by `r` units over angle `a`, which lies there at position `X`. -/
structure Dev.CrossesAt (d : Dev) (tb r a : Nat) (up : Bool) (X : Int) : Prop where
  on : d.tbOn tb = true
  moved : (d.tb tb).moved = true
  detects : d.tbSrc tb = 2 → (d.tb tb).everLocked = true
  pos : 0 < r
  half : r ≤ 2 ^ 47
  move : ((d.tb tb).p - (d.tb tb).p0).toInt = if up then (r : Int) else -r
  angle : X % 2 ^ 48 = a * 65536
  passed : if up then ((d.tb tb).p0.toNat : Int) < X ∧ X ≤ (d.tb tb).p0.toNat + r
    else X < (d.tb tb).p0.toNat ∧ (d.tb tb).p0.toNat - r ≤ X

/-- The crossing of an angle at position `X` by a move of `r` units. -/
def Dev.crossingAt (d : Dev) (tb r : Nat) (up : Bool) (X : Int) : Crossing :=
  { x := (X - (d.tb tb).p0.toNat).natAbs, r := r, up := up }

/-- The distance to an angle in the direction of the move, which is at most half a turn, is that to its position. -/
theorem turnsTo_eq {a p0 r : Nat} {up : Bool} {X : Int} (hr : r ≤ 2 ^ 47) (hangle : X % 2 ^ 48 = a * 65536)
    (hpassed : if up then (p0 : Int) < X ∧ X ≤ p0 + r else X < p0 ∧ p0 - r ≤ X) :
    (if up then (a * 65536 + 2 * turn - p0 % turn - 1) % turn + 1 else (p0 % turn + 2 * turn - a * 65536 - 1) % turn + 1) =
      (X - p0).natAbs := by
  unfold turn
  cases up
  · simp only [Bool.false_eq_true, if_false] at hpassed ⊢
    omega
  · simp only [if_true] at hpassed ⊢
    omega

theorem Dev.CrossesAt.crossing {tb r a : Nat} {up : Bool} {X : Int} (h : d.CrossesAt tb r a up X) :
    d.crossing tb a = some (d.crossingAt tb r up X) := by
  obtain ⟨hon, hmoved, hdetects, hpos, hhalf, hmove, hangle, hpassed⟩ := h
  have hmove' : posDiff false (d.tb tb).pos (d.tb tb).p0.toNat = if up then (r : Int) else -r :=
    (posDiff_toNat _ _).trans hmove
  have hne : (if up then (r : Int) else -r) ≠ 0 := by split <;> omega
  have hlength : (if up then (r : Int) else -r).natAbs = r := by split <;> omega
  have hup : decide (0 < (if up then (r : Int) else -r)) = up := by
    cases up
    · simp
    · simp [hpos]
  have hdetects' : d.tbDetects tb = true := by
    simpa only [Dev.tbDetects, Bool.or_eq_true, bne_iff_ne, ne_eq, imp_iff_not_or] using hdetects
  have hdist := turnsTo_eq hhalf hangle hpassed
  have hwithin : (X - (d.tb tb).p0.toNat).natAbs ≤ r := by split at hpassed <;> omega
  unfold Dev.crossing
  simp only [hon, hmoved, hdetects', hmove', hne, hlength, hup, hdist, hwithin]
  rfl

/-! ### A comparator at a crossing (R270, R271) -/

/-- The device with a comparator's crossing recorded in its registers. -/
def Dev.cmpRecorded (d : Dev) (c tb : Nat) (x : Crossing) : Dev :=
  let p := (d.tb tb).pos
  let d := { d with lantern := { d.lantern with cmpOld := d.lantern.cmpOld.filter (fun o => o.c != c) } }
  let d := d.setPair64 (LANTERN_CMPSTAMPLO_STAMP c) (LANTERN_CMPSTAMPHI_STAMP c) (x.stamp d.lantern.lt)
  ((d.setFld (LANTERN_CMPSTAMPPOS_POS c) (p / 65536)).setFld (LANTERN_CMPSTAT_REV c) (p / turn)).flag
    (LANTERN_CMPSTAT_FIRED c)

theorem fld_withLantern (d : Dev) (l : LanternSt) (f : Fld) : ({ d with lantern := l } : Dev).fld f = d.fld f := rfl

/-- Fields of different registers of a comparator share no bit. -/
theorem Fld.apart_register {b b' k lo n lo' n' : Nat} (h : b' ≠ b := by decide) :
    Fld.Apart ⟨b + k, lo, n⟩ ⟨b' + k, lo', n'⟩ :=
  .inl fun e => h (Nat.add_right_cancel e)

/-- The stamp, P1 and FIRED read as recorded (R270). -/
theorem cmpRecorded_leaves (d : Dev) (c tb : Nat) (x : Crossing) :
    let e := d.cmpRecorded c tb x
    e.fld64 (LANTERN_CMPSTAMPLO_STAMP c) (LANTERN_CMPSTAMPHI_STAMP c) = x.stamp d.lantern.lt % 2 ^ 64 ∧
    e.fld (LANTERN_CMPSTAMPPOS_POS c) = bitsOf (d.tb tb).p.toNat 16 32 ∧
    e.fld (LANTERN_CMPSTAT_REV c) = bitsOf (d.tb tb).p.toNat 48 16 ∧
    e.fld (LANTERN_CMPSTAT_FIRED c) = 1 := by
  have hstamp (n : Nat) : n % 2 ^ 32 + n / 2 ^ 32 % 2 ^ 32 * 2 ^ 32 = n % 2 ^ 64 := by omega
  simpa [Dev.cmpRecorded, Dev.fld64, fld_setFld_apart, fld_setFld_same, Fld.Apart, Fld.Fits, LANTERN_CMPSTAMPLO_STAMP,
    LANTERN_CMPSTAMPHI_STAMP, LANTERN_CMPSTAMPPOS_POS, LANTERN_CMPSTAT_REV, LANTERN_CMPSTAT_FIRED, Timebase.pos, turn,
    bitsOf, Nat.shiftRight_eq_div_pow] using hstamp (x.stamp d.lantern.lt)

/-- Recording a crossing leaves the comparator's target and misses, the events and the timebases. -/
theorem cmpRecorded_frame (d : Dev) (c tb : Nat) (x : Crossing) :
    let e := d.cmpRecorded c tb x
    e.fld (LANTERN_CMPCFG_EN c) = d.fld (LANTERN_CMPCFG_EN c) ∧
    e.fld (LANTERN_CMPANGLE_ANGLE c) = d.fld (LANTERN_CMPANGLE_ANGLE c) ∧
    e.fld (LANTERN_CMPSTAT_MISS c) = d.fld (LANTERN_CMPSTAT_MISS c) ∧
    e.evt = d.evt ∧ e.lantern.tbs = d.lantern.tbs ∧ e.lantern.lt = d.lantern.lt := by
  simp [Dev.cmpRecorded, fld_setFld_apart, Fld.Apart, LANTERN_CMPSTAMPLO_STAMP, LANTERN_CMPSTAMPHI_STAMP,
    LANTERN_CMPSTAMPPOS_POS, LANTERN_CMPSTAT_REV, LANTERN_CMPSTAT_FIRED, LANTERN_CMPCFG_EN, LANTERN_CMPANGLE_ANGLE,
    LANTERN_CMPSTAT_MISS, fld_withLantern]

/-! ### The comparator after it (R271, R272) -/

section
variable {c : Nat} {w : CmpTarget} {keepCfg keepAngle : Bool} {x : Crossing}

theorem cmpAfter_oneShot (hw : w.periodic = false) : d.cmpAfter c w keepCfg keepAngle x =
    if keepCfg then d else d.setFld (LANTERN_CMPCFG_EN c) 0 := by
  rw [Dev.cmpAfter, hw]
  rfl

/-- The angle to which a periodic comparator moves on. -/
def CmpTarget.next (w : CmpTarget) (x : Crossing) : Nat :=
  wrap 32 (if x.up then w.angle + periodSteps w.period x * w.period else w.angle - periodSteps w.period x * w.period)

/-- The count of misses after a periodic comparator has moved on. -/
def Dev.missAfter (d : Dev) (c : Nat) (w : CmpTarget) (x : Crossing) : Nat :=
  satAdd 255 (d.fld (LANTERN_CMPSTAT_MISS c)) (periodSteps w.period x - 1)

theorem cmpAfter_periodic (hw : w.periodic = true) : d.cmpAfter c w keepCfg keepAngle x =
    (if keepAngle then d else d.setFld (LANTERN_CMPANGLE_ANGLE c) (w.next x)).setFld (LANTERN_CMPSTAT_MISS c)
      (d.missAfter c w x) := by
  have hmiss : (d.setFld (LANTERN_CMPANGLE_ANGLE c) (w.next x)).fld (LANTERN_CMPSTAT_MISS c) =
      d.fld (LANTERN_CMPSTAT_MISS c) := fld_setFld_apart _ _ Fld.apart_register
  cases keepAngle
  · simp only [Dev.cmpAfter, hw, Dev.missAfter, ← hmiss]
    rfl
  · simp only [Dev.cmpAfter, hw]
    rfl

/-- What follows a crossing changes EN, ANGLE and MISS alone. -/
theorem fld_cmpAfter {f : Fld} (hen : (LANTERN_CMPCFG_EN c).Apart f) (hangle : (LANTERN_CMPANGLE_ANGLE c).Apart f)
    (hmiss : (LANTERN_CMPSTAT_MISS c).Apart f) : (d.cmpAfter c w keepCfg keepAngle x).fld f = d.fld f := by
  cases hw : w.periodic with
  | false =>
    rw [cmpAfter_oneShot hw]
    split
    · rfl
    · exact fld_setFld_apart _ _ hen
  | true =>
    rw [cmpAfter_periodic hw, fld_setFld_apart _ _ hmiss]
    split
    · rfl
    · exact fld_setFld_apart _ _ hangle

/-- A comparator's EN stays where it is periodic, or CFG was written in the same lt. -/
theorem fld_cmpAfter_en (h : w.periodic = true ∨ keepCfg = true) :
    (d.cmpAfter c w keepCfg keepAngle x).fld (LANTERN_CMPCFG_EN c) = d.fld (LANTERN_CMPCFG_EN c) := by
  cases hw : w.periodic with
  | false => rw [cmpAfter_oneShot hw, if_pos (h.resolve_left (by simp [hw]))]
  | true =>
    rw [cmpAfter_periodic hw]
    refine (fld_setFld_apart _ _ Fld.apart_register).trans ?_
    split
    · rfl
    · exact fld_setFld_apart _ _ Fld.apart_register

/-- A comparator's ANGLE stays where it is one-shot, or ANGLE was written in the same lt. -/
theorem fld_cmpAfter_angle (h : w.periodic = false ∨ keepAngle = true) :
    (d.cmpAfter c w keepCfg keepAngle x).fld (LANTERN_CMPANGLE_ANGLE c) = d.fld (LANTERN_CMPANGLE_ANGLE c) := by
  cases hw : w.periodic with
  | false =>
    rw [cmpAfter_oneShot hw]
    split
    · rfl
    · exact fld_setFld_apart _ _ Fld.apart_register
  | true =>
    rw [cmpAfter_periodic hw, if_pos (h.resolve_left (by simp [hw]))]
    exact fld_setFld_apart _ _ Fld.apart_register

theorem cmpAfter_frame (d : Dev) (c : Nat) (w : CmpTarget) (keepCfg keepAngle : Bool) (x : Crossing) :
    (d.cmpAfter c w keepCfg keepAngle x).evt = d.evt ∧ (d.cmpAfter c w keepCfg keepAngle x).lantern = d.lantern := by
  cases hw : w.periodic with
  | false => rw [cmpAfter_oneShot hw]; cases keepCfg <;> exact ⟨rfl, rfl⟩
  | true => rw [cmpAfter_periodic hw]; cases keepAngle <;> exact ⟨rfl, rfl⟩

/-- One step of PERIOD lies beyond the rest of the move. -/
theorem periodSteps_one (h : w.period = 0 ∨ x.r - x.x < w.period * 65536) : periodSteps w.period x = 1 := by
  rcases h with h | h
  · rw [h]; rfl
  · unfold periodSteps
    split
    · rfl
    · rw [Nat.div_eq_of_lt h]

/-- A periodic comparator that moves on by one PERIOD has missed no crossing. -/
theorem cmpAfter_oneStep (hw : w.periodic = true) (hp : w.period < 2 ^ 32)
    (h : w.period = 0 ∨ x.r - x.x < w.period * 65536) :
    let e := d.cmpAfter c w keepCfg false x
    e.fld (LANTERN_CMPSTAT_MISS c) = d.fld (LANTERN_CMPSTAT_MISS c) ∧
    e.fld (LANTERN_CMPANGLE_ANGLE c) =
      (if x.up then w.angle + w.period else w.angle + 2 ^ 32 - w.period) % 2 ^ 32 := by
  have hmiss : d.missAfter c w x % 2 ^ 8 = d.fld (LANTERN_CMPSTAT_MISS c) := by
    have hlt : d.fld (LANTERN_CMPSTAT_MISS c) < 2 ^ 8 := fld_lt d _
    rw [Dev.missAfter, periodSteps_one h, satAdd]
    split <;> omega
  have hangle : w.next x % 2 ^ 32 = (if x.up then w.angle + w.period else w.angle + 2 ^ 32 - w.period) % 2 ^ 32 := by
    rw [CmpTarget.next, periodSteps_one h, wrap]
    split <;> omega
  intro e
  have he : e = _ := cmpAfter_periodic hw
  rw [he]
  refine ⟨(fld_setFld_same _ _ ?_).trans hmiss, ?_⟩
  · show 8 + 8 ≤ 32
    decide
  · refine (fld_setFld_apart _ _ Fld.apart_register).trans ((fld_setFld_same _ _ ?_).trans hangle)
    show 0 + 32 ≤ 32
    decide

/-! ### A crossing taken (R270 to R272) -/

/-- The device after a comparator with target `w` has taken a crossing. -/
def Dev.cmpFired (d : Dev) (c : Nat) (w : CmpTarget) (keepCfg keepAngle : Bool) (x : Crossing) : Dev :=
  (((d.cmpRecorded c w.tb x).cmpAfter c w keepCfg keepAngle x).armCmp c).produce
    { prod := c, stamp := some (x.stamp d.lantern.lt) }

theorem fld_cmpFired (f : Fld) : (d.cmpFired c w keepCfg keepAngle x).fld f =
    ((d.cmpRecorded c w.tb x).cmpAfter c w keepCfg keepAngle x).fld f := rfl

/-- A comparator that takes a crossing records it, produces its event with the stamp and is armed anew in this lt. -/
theorem cmpFired_leaves (d : Dev) (c : Nat) (w : CmpTarget) (keepCfg keepAngle : Bool) (x : Crossing) :
    let e := d.cmpFired c w keepCfg keepAngle x
    e.fld64 (LANTERN_CMPSTAMPLO_STAMP c) (LANTERN_CMPSTAMPHI_STAMP c) = x.stamp d.lantern.lt % 2 ^ 64 ∧
    e.fld (LANTERN_CMPSTAMPPOS_POS c) = bitsOf (d.tb w.tb).p.toNat 16 32 ∧
    e.fld (LANTERN_CMPSTAT_REV c) = bitsOf (d.tb w.tb).p.toNat 48 16 ∧
    e.fld (LANTERN_CMPSTAT_FIRED c) = 1 ∧
    e.evt.produced = d.evt.produced ++ [{ prod := c, stamp := some (x.stamp d.lantern.lt) }] ∧
    e.lantern.tbs = d.lantern.tbs ∧ e.cmpSince c = d.lantern.lt := by
  obtain ⟨hstamp, hpos, hrev, hfired⟩ := cmpRecorded_leaves d c w.tb x
  obtain ⟨-, -, -, hevt, htbs, hlt⟩ := cmpRecorded_frame d c w.tb x
  obtain ⟨hevt', hlantern⟩ := cmpAfter_frame (d.cmpRecorded c w.tb x) c w keepCfg keepAngle x
  have hregister {b lo n : Nat} (hen : b ≠ 0x071000 := by decide) (hangle : b ≠ 0x071004 := by decide)
      (hmiss : b ≠ 0x071018 ∨ 16 ≤ lo ∨ lo + n ≤ 8 := by decide) :
      (d.cmpFired c w keepCfg keepAngle x).fld ⟨b + 0x20 * c, lo, n⟩ =
        (d.cmpRecorded c w.tb x).fld ⟨b + 0x20 * c, lo, n⟩ :=
    fld_cmpAfter (Fld.apart_register hen) (Fld.apart_register hangle)
      (hmiss.imp_left fun h e => h (Nat.add_right_cancel e))
  refine ⟨?_, Eq.trans hregister hpos, Eq.trans hregister hrev, Eq.trans hregister hfired, ?_, ?_, ?_⟩
  · exact Eq.trans (congrArg₂ (· + · * 2 ^ 32) hregister hregister) hstamp
  · rw [Dev.cmpFired, produce_produced]
    exact congrArg (fun l : EvtSt => l.produced ++ _) (hevt'.trans hevt)
  · exact (congrArg LanternSt.tbs hlantern).trans htbs
  · refine (arrGet_arrSet_same _ _ _ _).trans ?_
    exact (congrArg LanternSt.lt hlantern).trans hlt

/-- The target that counts for a comparator's crossings in the present lt, and whether CFG and ANGLE were written in it. -/
def Dev.cmpTarget (d : Dev) (c : Nat) : CmpTarget := ((d.cmpBefore c).map (·.was)).getD (d.cmpNow c)
def Dev.cmpWroteCfg (d : Dev) (c : Nat) : Bool := ((d.cmpBefore c).map (·.wroteCfg)).getD false
def Dev.cmpWroteAngle (d : Dev) (c : Nat) : Bool := ((d.cmpBefore c).map (·.wroteAngle)).getD false

/-- A crossing by a move in direction `up` is none for a comparator with this DIR (R270). -/
theorem dirRefuses_iff {dir : Nat} {up : Bool} :
    ((dir = 0 && !up) || (dir = 1 && up)) = true ↔ dir = if up then 1 else 0 := by
  cases up <;> simp

theorem comparator_off (hen : (d.cmpTarget c).en = false) : comparator c d = d := by
  unfold comparator
  extract_lets o w
  have hw : w = d.cmpTarget c := by
    unfold w o Dev.cmpTarget
    cases d.cmpBefore c <;> rfl
  rw [hw, hen]
  rfl

/-- What a comparator armed in an earlier lt does at a crossing of its angle: nothing where its DIR refuses the direction. -/
theorem comparator_of_crossing (htarget : d.cmpTarget c = w) (hcfg : d.cmpWroteCfg c = keepCfg)
    (hangle : d.cmpWroteAngle c = keepAngle) (hen : w.en = true) (hsince : w.since < d.lantern.lt)
    (hx : d.crossing w.tb w.angle = some x) :
    comparator c d = if w.dir = (if x.up then 1 else 0) then d else d.cmpFired c w keepCfg keepAngle x := by
  unfold comparator
  extract_lets o w' L
  have hw : w' = w := by
    rw [← htarget]
    unfold w' o Dev.cmpTarget
    cases d.cmpBefore c <;> rfl
  have hpast : decide (L ≤ w.since) = false := decide_eq_false (not_le.2 hsince)
  clear_value w'
  subst hw hcfg hangle
  simp only [hen, hpast, hx, dirRefuses_iff, Bool.not_true, Bool.or_self, Bool.false_eq_true, if_false]
  rfl

/-- A comparator with no target of before takes the crossings of the target in its registers. -/
theorem comparator_of_now {r : Nat} {up : Bool} {X : Int}
    (h : d.CrossesAt (d.fld (LANTERN_CMPCFG_TB c)) r (d.fld (LANTERN_CMPANGLE_ANGLE c)) up X) (hnow : d.cmpBefore c = none)
    (hen : d.fld (LANTERN_CMPCFG_EN c) = 1) (hsince : d.cmpSince c < d.lantern.lt) :
    comparator c d = if d.fld (LANTERN_CMPCFG_DIR c) = (if up then 1 else 0) then d
      else d.cmpFired c (d.cmpNow c) false false (d.crossingAt (d.fld (LANTERN_CMPCFG_TB c)) r up X) := by
  have hon : (d.cmpNow c).en = true := bne_iff_ne.2 (by rw [hen]; decide)
  exact comparator_of_crossing (by simp [Dev.cmpTarget, hnow]) (by simp [Dev.cmpWroteCfg, hnow])
    (by simp [Dev.cmpWroteAngle, hnow]) hon hsince h.crossing

/-- A comparator written in the present lt takes the crossings of the target that it had before. -/
theorem comparator_of_before {r : Nat} {up : Bool} {X : Int} {o : CmpOld} (h : d.CrossesAt o.was.tb r o.was.angle up X)
    (hbefore : d.cmpBefore c = some o) (hen : o.was.en = true) (hsince : o.was.since < d.lantern.lt) :
    comparator c d = if o.was.dir = (if up then 1 else 0) then d
      else d.cmpFired c o.was o.wroteCfg o.wroteAngle (d.crossingAt o.was.tb r up X) :=
  comparator_of_crossing (by simp [Dev.cmpTarget, hbefore]) (by simp [Dev.cmpWroteCfg, hbefore])
    (by simp [Dev.cmpWroteAngle, hbefore]) hen hsince h.crossing

theorem comparator_of_off (hnow : d.cmpBefore c = none) (hoff : d.fld (LANTERN_CMPCFG_EN c) = 0) : comparator c d = d := by
  have htarget : d.cmpTarget c = d.cmpNow c := by simp [Dev.cmpTarget, hnow]
  have hen : (d.cmpNow c).en = false := bne_eq_false_iff_eq.2 hoff
  exact comparator_off (by rwa [htarget])

/-! ### What a crossing leaves of the comparator's target (R271, R272) -/

/-- A one-shot comparator is off and keeps its ANGLE. -/
theorem cmpFired_oneShot (hw : w.periodic = false) :
    (d.cmpFired c w false false x).fld (LANTERN_CMPCFG_EN c) = 0 ∧
    (d.cmpFired c w false false x).fld (LANTERN_CMPANGLE_ANGLE c) = d.fld (LANTERN_CMPANGLE_ANGLE c) := by
  obtain ⟨-, hangle, -⟩ := cmpRecorded_frame d c w.tb x
  rw [fld_cmpFired, fld_cmpFired, fld_cmpAfter_angle (.inl hw), cmpAfter_oneShot hw]
  exact ⟨fld_setFld_same _ 0 (show 31 + 1 ≤ 32 by decide), hangle⟩

/-- A periodic comparator whose PERIOD leaves the move stays on, has missed none and stands one PERIOD on. -/
theorem cmpFired_oneStep (hw : w.periodic = true) (hp : w.period < 2 ^ 32)
    (h : w.period = 0 ∨ x.r - x.x < w.period * 65536) :
    let e := d.cmpFired c w false false x
    e.fld (LANTERN_CMPCFG_EN c) = d.fld (LANTERN_CMPCFG_EN c) ∧
    e.fld (LANTERN_CMPSTAT_MISS c) = d.fld (LANTERN_CMPSTAT_MISS c) ∧
    e.fld (LANTERN_CMPANGLE_ANGLE c) =
      (if x.up then w.angle + w.period else w.angle + 2 ^ 32 - w.period) % 2 ^ 32 := by
  obtain ⟨hen, -, hmiss, -⟩ := cmpRecorded_frame d c w.tb x
  obtain ⟨hmiss', hangle⟩ := cmpAfter_oneStep (d := d.cmpRecorded c w.tb x) (c := c) (keepCfg := false) hw hp h
  exact ⟨(fld_cmpAfter_en (.inl hw)).trans hen, hmiss'.trans hmiss, hangle⟩

/-- What was written in the lt of the crossing stays. -/
theorem cmpFired_written :
    (keepCfg = true → (d.cmpFired c w keepCfg keepAngle x).fld (LANTERN_CMPCFG_EN c) = d.fld (LANTERN_CMPCFG_EN c)) ∧
    (keepAngle = true →
      (d.cmpFired c w keepCfg keepAngle x).fld (LANTERN_CMPANGLE_ANGLE c) = d.fld (LANTERN_CMPANGLE_ANGLE c)) := by
  obtain ⟨hen, hangle, -⟩ := cmpRecorded_frame d c w.tb x
  exact ⟨fun h => (fld_cmpAfter_en (.inr h)).trans hen, fun h => (fld_cmpAfter_angle (.inr h)).trans hangle⟩

end

/-! ### Gate detectors (R273, R274) -/

section
variable {n k : Nat} {x : Crossing}

theorem detector_setDetector_same (d : Dev) (n k : Nat) (x : Detector) : (d.setDetector n k x).detector n k = x :=
  arrGet_arrSet_same ({} : Detector) _ _ _

/-- An input captured stands behind those that wait at the pair. -/
theorem captured_capture (y : CapInput) (h : n < d.pairs.length) :
    ((d.capture n y).pair n).capture = (d.pair n).capture ++ [y] := by
  rw [Dev.capture, pair_setPair_same _ _ _ h]

theorem gateRelease_of_idle (h : (d.detector n k).armed = false) : gateRelease n k d = d := by
  simp only [Dev.detector] at h
  simp [gateRelease, h]

/-- A detector armed in an earlier lt whose angle is crossed in its direction becomes idle and sends its release. -/
theorem gateRelease_of_crossing (harmed : (d.detector n k).armed = true) (hsince : (d.detector n k).since < d.lantern.lt)
    (hx : d.crossing (d.detector n k).tb (d.detector n k).angle = some x) (hdir : (d.detector n k).down = !x.up) :
    gateRelease n k d =
      (d.setDetector n k { d.detector n k with armed := false, sent := true }).capture n
        (.gate k (d.detector n k).gen (d.detector n k).tb (d.detector n k).angle (d.detector n k).down
          (x.stamp d.lantern.lt)) := by
  have hpast : decide (d.lantern.lt ≤ (d.detector n k).since) = false := decide_eq_false (not_le.2 hsince)
  have hup : ¬ x.up = (d.detector n k).down := by rw [hdir]; simp
  have hg : arrGet ({} : Detector) d.lantern.dets (8 * n + k) = d.detector n k := rfl
  unfold gateRelease
  simp only [hg, harmed, hpast, hx, hup, Bool.not_true, Bool.or_self, Bool.false_eq_true, if_false]
  rfl

end

end

/-! ### The statement -/

/-- Settles O14: a write of CFG by what it stores and where it starts afresh, losses and locks by their conditions, and a
comparator or detector by the crossing that the move makes. -/
theorem timebasesAndCrossings : Obligations.TimebasesAndCrossings := by
  refine ⟨fun s t => ?timebases, ?crossings⟩
  case timebases =>
    intro d x cycle may must
    have ht := t.isLt
    have hmay : d.mayLock t = true ↔ may := mayLock_iff
    have hmust : d.mustUnlock t = true ↔ must := mustUnlock_iff
    refine ⟨fun w => ?write, fun hon hsrc hstale htold hlast => ?lost, fun hstale => ?never,
      fun hon hsrc hlocked h => ?lock, fun h => ?wait, fun h => ?stay, fun hon hsrc hlocked h => ?holdover⟩
    case write =>
      obtain ⟨hen, hvsh, hstale⟩ := storeCfg_stores (d := d) ht w
      obtain ⟨hothers, hp, hvel, hfresh⟩ := timebaseWrite_tb d ht w
      have hfld := fld_of_io (timebaseWrite_io d t w)
      refine completes_onDev rfl fun _ => ⟨(hfld _).trans hen, (hfld _).trans hvsh, (hfld _).trans hstale, hp, hvel,
        fun hlock => ?unlocked, fun hlock => ?locked, fun hchanged => ?changed,
        fun g hg hpwm hcarr htb hoff => timebaseWrite_group d ht w hg hpwm hcarr htb hoff, hothers⟩
      case unlocked =>
        obtain ⟨hsrc, hpoles, hsel⟩ := storeCfg_unlocked ht w hlock
        exact ⟨(hfld _).trans hsrc, (hfld _).trans hpoles, (hfld _).trans hsel⟩
      case locked =>
        obtain ⟨hsrc, hpoles⟩ := storeCfg_locked ht w hlock
        exact ⟨(hfld _).trans hsrc, (hfld _).trans hpoles⟩
      case changed =>
        have htb := hfresh (hchanged.imp_left tbOn_ne_of_en)
        exact ⟨congrArg _ htb, congrArg _ htb, congrArg _ htb, congrArg _ htb, congrArg _ htb⟩
    case lost =>
      obtain ⟨hlantern, hflag, hfault⟩ := lossTold_leaves (d.setTb t { x with valid := false, lossTold := true }) ht
      refine completes_onClock rfl fun _ _ => ?_
      rw [sourceLost_of_stale hon hsrc hstale htold hlast, tb_of_lantern hlantern, tb_setTb_same]
      exact ⟨rfl, rfl, rfl, hflag, hfault⟩
    case never => exact completes_onClock rfl fun _ _ => sourceLost_of_zero hstale
    case lock => exact completes_onClock rfl fun _ _ => mainsLock_of_mayLock hon hsrc hlocked (hmay.2 h)
    case wait => exact completes_onClock rfl fun _ _ => mainsLock_of_not_mayLock (h ∘ hmay.1)
    case stay => exact completes_onClock rfl fun _ _ => mainsLost_of_not_mustUnlock (h ∘ hmust.1)
    case holdover =>
      obtain ⟨hlantern, hflag, hfault⟩ := lossTold_leaves (d.setTb t { x with
        locked := false, holdover := true
        vel := BitVec.ofInt 32 (satInt 32 (x.lockVel * d.fld (LANTERN_TBCFG_POLES t))) }) ht
      refine completes_onClock rfl fun _ _ => ?_
      rw [mainsLost_of_mustUnlock hon hsrc hlocked (hmust.2 h), tb_of_lantern hlantern, tb_setTb_same]
      exact ⟨rfl, rfl, rfl, rfl, hflag, hfault⟩
  case crossings =>
    intro s tb r a up X d x L dist stamp htb hon hmoved hdetects hpos hhalf ha hmove hangle hpassed
    have hcross : d.CrossesAt tb r a up X := ⟨hon, hmoved, hdetects, hpos, hhalf, hmove, hangle, hpassed⟩
    refine ⟨fun c hnow hen htb' hangle' hsince => ?now, fun c o hbefore hen hsince htb' hangle' hdir => ?before,
      fun c hnow hoff => completes_onClock rfl fun _ _ => comparator_of_off hnow hoff,
      fun n k hlen htb' hangle' => ⟨fun harmed hsince hdown => ?released,
        fun hidle => completes_onClock rfl fun _ _ => gateRelease_of_idle hidle⟩⟩
    case now =>
      subst htb' hangle'
      have hcomp := comparator_of_now hcross hnow hen hsince
      refine ⟨fun hdir => completes_onClock rfl fun _ _ => ?_,
        fun hdir => completes_onClock rfl fun _ _ => hcomp.trans (if_pos hdir)⟩
      obtain ⟨hstamp, hp1, hrev, hfired, hevent, htbs, harm⟩ := cmpFired_leaves d c (d.cmpNow c) false false
        (d.crossingAt (d.fld (LANTERN_CMPCFG_TB c)) r up X)
      rw [hcomp, if_neg hdir]
      refine ⟨hstamp, hp1, hrev, hfired, hevent, fun hmode => ?oneShot, fun hmode hperiod => ?periodic, htbs⟩
      case oneShot => exact cmpFired_oneShot (bne_eq_false_iff_eq.2 hmode)
      case periodic =>
        have hperiodic : (d.cmpNow c).periodic = true := bne_iff_ne.2 (by rw [hmode]; decide)
        obtain ⟨hen', hmiss, hangle'⟩ := cmpFired_oneStep (d := d) (c := c)
          (x := d.crossingAt (d.fld (LANTERN_CMPCFG_TB c)) r up X) hperiodic (fld_lt d (LANTERN_CMPPERIOD_PERIOD c)) hperiod
        exact ⟨hen'.trans hen, harm, hmiss, hangle'⟩
    case before =>
      subst htb' hangle'
      obtain ⟨hstamp, -, -, hfired, hevent, -, -⟩ :=
        cmpFired_leaves d c o.was o.wroteCfg o.wroteAngle (d.crossingAt o.was.tb r up X)
      refine completes_onClock rfl fun _ _ => ?_
      rw [comparator_of_before hcross hbefore hen hsince, if_neg hdir]
      exact ⟨hstamp, hfired, hevent, cmpFired_written⟩
    case released =>
      subst htb' hangle'
      refine completes_onClock rfl fun _ _ => ?_
      rw [gateRelease_of_crossing harmed hsince hcross.crossing hdown]
      refine ⟨(captured_capture _ (n.isLt.trans_eq hlen.symm)).trans ?_, detector_setDetector_same d n k _, rfl⟩
      rw [hdown]
      rfl

end Sys2Proof.Machine
end

section
/-! PROOFS. PwmLoads: causes of forcing, and what a valley or a peak of a PWM group loads and releases (R287, R290, R293,
R296). -/

namespace Sys2Proof.Machine

section
variable {d e x : Dev} {g : Nat} {ev : PwmEvent} {valley : Bool}

/-! ### Fields that switch, and flags -/

theorem on_of_one {f : Fld} (h : d.fld f = 1) : d.on f = true := by simp [Dev.on, h]

theorem on_of_zero {f : Fld} (h : d.fld f = 0) : d.on f = false := by simp [Dev.on, h]

theorem on_of_fld {f : Fld} (h : e.fld f = d.fld f) : e.on f = d.on f := by simp only [Dev.on, h]

/-- Fields side by side in one register share no bit. -/
theorem Fld.apart_bits {a lo n lo' n' : Nat} (h : lo + n ≤ lo' ∨ lo' + n' ≤ lo := by decide) :
    Fld.Apart ⟨a, lo, n⟩ ⟨a, lo', n'⟩ := .inr h

theorem fld_setFld_cut {a lo n : Nat} (d : Dev) (v : Nat) (h : lo + n ≤ 32 := by decide) :
    (d.setFld ⟨a, lo, n⟩ v).fld ⟨a, lo, n⟩ = v % 2 ^ n := fld_setFld_same d v h

theorem fld_flag {a lo : Nat} (d : Dev) (h : lo + 1 ≤ 32 := by decide) : (d.flag ⟨a, lo, 1⟩).fld ⟨a, lo, 1⟩ = 1 :=
  fld_setFld_cut d 1 h

/-! ### Causes of forcing (R290) -/

/-- A group has no cause of forcing where the force line, its trip latch, its CTL.FORCE and a stopped timebase are absent. -/
theorem forceCauses_eq_zero : d.forceCauses g = 0 ↔ d.fld SAFEISL_STAT_FORCE = 0 ∧ (d.group g).trip = false ∧
    d.fld (PWM_CTL_FORCE g) = 0 ∧ d.tbStopped g = false := by
  have hline : d.fld SAFEISL_STAT_FORCE < 2 := fld_lt d _
  have hforce : d.fld (PWM_CTL_FORCE g) < 2 := fld_lt d _
  cases htrip : (d.group g).trip <;> cases hstopped : d.tbStopped g <;>
    simp [Dev.forceCauses, packFields, Nat.or_eq_zero_iff, Nat.mod_eq_of_lt hline, Nat.mod_eq_of_lt hforce, htrip, hstopped]

/-- The causes of a group stand in the registers, its trip latch and its carrier. -/
theorem forceCauses_of (hio : e.io = d.io) (htrip : (e.group g).trip = (d.group g).trip)
    (hact : (e.group g).act = (d.group g).act) : e.forceCauses g = d.forceCauses g := by
  have hstopped : e.tbStopped g = d.tbStopped g := by simp only [Dev.tbStopped, Dev.tbOn, Dev.on, hact, fld_of_io hio]
  rw [Dev.forceCauses, Dev.forceCauses, hstopped, htrip, fld_of_io hio, fld_of_io hio]

/-! ### What a load event leaves alone -/

/-- `e` has the events of `d`, its groups but for group `g`, and the valleys and peaks of `g`. -/
structure Dev.ButLoad (d : Dev) (g : Nat) (e : Dev) : Prop where
  evt : e.evt = d.evt
  others : ∀ h, h ≠ g → e.group h = d.group h
  valleys : (e.group g).valleys = (d.group g).valleys
  peaks : (e.group g).peaks = (d.group g).peaks

/-- `e` is `d` but for the outputs of group `g`: also its registers, and the carrier and trip latch of `g`, are those of
`d`. -/
structure Dev.ButOutputs (d : Dev) (g : Nat) (e : Dev) : Prop extends d.ButLoad g e where
  io : e.io = d.io
  act : (e.group g).act = (d.group g).act
  trip : (e.group g).trip = (d.group g).trip

theorem Dev.ButLoad.trans (h : d.ButLoad g e) (h' : e.ButLoad g x) : d.ButLoad g x where
  evt := h'.evt.trans h.evt
  others j hj := (h'.others j hj).trans (h.others j hj)
  valleys := h'.valleys.trans h.valleys
  peaks := h'.peaks.trans h.peaks

theorem Dev.ButOutputs.refl (d : Dev) (g : Nat) : d.ButOutputs g d := ⟨⟨rfl, fun _ _ => rfl, rfl, rfl⟩, rfl, rfl, rfl⟩

theorem Dev.ButOutputs.trans (h : d.ButOutputs g e) (h' : e.ButOutputs g x) : d.ButOutputs g x :=
  ⟨h.toButLoad.trans h'.toButLoad, h'.io.trans h.io, h'.act.trans h.act, h'.trip.trans h.trip⟩

theorem Dev.ButOutputs.forceCauses (h : d.ButOutputs g e) : e.forceCauses g = d.forceCauses g :=
  forceCauses_of h.io h.trip h.act

theorem Dev.butLoad_setGroup {y : PwmGroup} (hvalleys : y.valleys = (d.group g).valleys)
    (hpeaks : y.peaks = (d.group g).peaks) : d.ButLoad g (d.setGroup g y) where
  evt := rfl
  others _ hj := group_setGroup_ne _ _ hj
  valleys := by rw [group_setGroup_same, hvalleys]
  peaks := by rw [group_setGroup_same, hpeaks]

theorem Dev.ButLoad.setFld {f : Fld} {v : Nat} (h : d.ButLoad g e) : d.ButLoad g (e.setFld f v) :=
  ⟨h.evt, h.others, h.valleys, h.peaks⟩

theorem Dev.ButLoad.ite {c : Prop} {_ : Decidable c} (he : d.ButLoad g e) (hx : d.ButLoad g x) :
    d.ButLoad g (if c then e else x) := by
  split
  · exact he
  · exact hx

/-! ### Forcing and release (R291, R293) -/

theorem butOutputs_forceGroup (d : Dev) (g : Nat) : d.ButOutputs g (d.forceGroup g) := by
  rw [forceGroup_eq]
  exact ⟨Dev.butLoad_setGroup rfl rfl, rfl, by rw [group_setGroup_same], by rw [group_setGroup_same]⟩

theorem safe_forceGroup (d : Dev) (g : Nat) : ((d.forceGroup g).group g).safe = true := by
  rw [forceGroup_eq, group_setGroup_same]

theorem checkForce_of_none (h : d.forceCauses g = 0) : d.checkForce g = d := if_pos h

theorem checkForce_of_cause (h : d.forceCauses g ≠ 0) : d.checkForce g = d.forceGroup g := if_neg h

theorem butOutputs_checkForce (d : Dev) (g : Nat) : d.ButOutputs g (d.checkForce g) := by
  by_cases h : d.forceCauses g = 0
  · rw [checkForce_of_none h]
    exact .refl d g
  · rw [checkForce_of_cause h]
    exact butOutputs_forceGroup d g

/-- Forcing changes neither whether a carrier runs nor where it stands. -/
theorem carrier_checkForce (d : Dev) (g : Nat) : ((d.checkForce g).group g).running = (d.group g).running ∧
    ((d.checkForce g).group g).k = (d.group g).k := by
  by_cases h : d.forceCauses g = 0
  · rw [checkForce_of_none h]
    exact ⟨rfl, rfl⟩
  · rw [checkForce_of_cause h, forceGroup_eq, group_setGroup_same]
    exact ⟨rfl, rfl⟩

theorem safe_checkForce (h : d.forceCauses g ≠ 0) : ((d.checkForce g).group g).safe = true := by
  rw [checkForce_of_cause h]
  exact safe_forceGroup d g

theorem butOutputs_releaseGroup (d : Dev) (g : Nat) (ev : PwmEvent) : d.ButOutputs g (d.releaseGroup g ev) := by
  unfold Dev.releaseGroup
  extract_lets G todo
  split
  · exact ⟨Dev.butLoad_setGroup rfl rfl, rfl, by rw [group_setGroup_same], by rw [group_setGroup_same]⟩
  · exact .refl d g

theorem safe_releaseGroup (h : d.forceCauses g = 0) : ((d.releaseGroup g ev).group g).safe = false := by
  unfold Dev.releaseGroup
  extract_lets G todo
  cases hsafe : G.safe
  · simpa [h] using hsafe
  · simp [h]

/-- The device after a load event has released group `g` or forced it. -/
def Dev.settled (d : Dev) (g : Nat) (ev : PwmEvent) : Dev := (d.releaseGroup g ev).checkForce g

theorem butOutputs_settled (d : Dev) (g : Nat) (ev : PwmEvent) : d.ButOutputs g (d.settled g ev) :=
  (butOutputs_releaseGroup d g ev).trans (butOutputs_checkForce _ g)

/-- After a load event a group is forced exactly while it has a cause. -/
theorem safe_settled (d : Dev) (g : Nat) (ev : PwmEvent) :
    ((d.settled g ev).forceCauses g = 0 → ((d.settled g ev).group g).safe = false) ∧
    ((d.settled g ev).forceCauses g ≠ 0 → ((d.settled g ev).group g).safe = true) := by
  have hreleased : (d.releaseGroup g ev).forceCauses g = d.forceCauses g := (butOutputs_releaseGroup d g ev).forceCauses
  rw [(butOutputs_settled d g ev).forceCauses]
  refine ⟨fun h => ?_, fun h => safe_checkForce (hreleased.trans_ne h)⟩
  rw [Dev.settled, checkForce_of_none (hreleased.trans h)]
  exact safe_releaseGroup h

/-! ### Loads (R287) -/

/-- RDY has been set since the event, in its lt or later. -/
def Dev.rdyAgain (d : Dev) (g : Nat) (ev : PwmEvent) : Bool := (d.group g).rdyAt.any (fun l => decide (ev.lt ≤ l))

/-- The device after a load event has taken the shadow set. -/
def Dev.loadTaken (d : Dev) (g : Nat) (valley : Bool) (ev : PwmEvent) : Dev :=
  let e := (d.takeShadow g valley ev).flag (PWM_ISTAT_LOAD g)
  if d.on (PWM_CFG_LDM g) && !(d.rdyAgain g ev) then e.setFld (PWM_CTL_RDY g) 0 else e

/-- The device after a load event has kept the active set. -/
def Dev.loadRepeated (d : Dev) (g : Nat) : Dev := (d.count (PWM_STAT_REPEAT g)).flag (PWM_ISTAT_REPEAT g)

/-- A load event takes the shadow set or repeats, and then releases or forces the group. -/
theorem loadEvent_eq (d : Dev) (g : Nat) (valley : Bool) (ev : PwmEvent) : d.loadEvent g valley ev =
    (if d.on (PWM_CFG_LDM g) && !ev.rdy then d.loadRepeated g else d.loadTaken g valley ev).settled g ev := by
  have hagain : (match (d.group g).rdyAt with | some l => decide (ev.lt ≤ l) | none => false) = d.rdyAgain g ev := by
    unfold Dev.rdyAgain
    cases (d.group g).rdyAt <;> rfl
  unfold Dev.loadTaken
  rw [← hagain]
  rfl

theorem butLoad_takeShadow (d : Dev) (g : Nat) (valley : Bool) (ev : PwmEvent) : d.ButLoad g (d.takeShadow g valley ev) :=
  Dev.butLoad_setGroup rfl rfl

theorem act_takeShadow (d : Dev) (g : Nat) (valley : Bool) (ev : PwmEvent) :
    ((d.takeShadow g valley ev).group g).act = loadedSet (d.group g).act ev.set valley := by
  rw [Dev.takeShadow, group_setGroup_same]

theorem butLoad_loadTaken (d : Dev) (g : Nat) (valley : Bool) (ev : PwmEvent) : d.ButLoad g (d.loadTaken g valley ev) :=
  .ite (butLoad_takeShadow d g valley ev).setFld.setFld (butLoad_takeShadow d g valley ev).setFld

theorem act_loadTaken (d : Dev) (g : Nat) (valley : Bool) (ev : PwmEvent) :
    ((d.loadTaken g valley ev).group g).act = loadedSet (d.group g).act ev.set valley := by
  unfold Dev.loadTaken
  extract_lets e
  split <;> exact act_takeShadow d g valley ev

/-- A load is flagged, and takes RDY unless it was set since. -/
theorem fld_loadTaken (d : Dev) (g : Nat) (valley : Bool) (ev : PwmEvent) :
    (d.loadTaken g valley ev).fld (PWM_ISTAT_LOAD g) = 1 ∧
    (d.fld (PWM_CFG_LDM g) = 1 → (∀ l, (d.group g).rdyAt = some l → l < ev.lt) →
      (d.loadTaken g valley ev).fld (PWM_CTL_RDY g) = 0) := by
  unfold Dev.loadTaken
  extract_lets e
  have hflag : e.fld (PWM_ISTAT_LOAD g) = 1 := fld_flag _
  refine ⟨?_, fun hldm hrdyAt => ?_⟩
  · split
    · exact (fld_setFld_apart _ _ Fld.apart_register).trans hflag
    · exact hflag
  · have hagain : d.rdyAgain g ev = false := by
      cases h : (d.group g).rdyAt with
      | none => simp [Dev.rdyAgain, h]
      | some l => simpa [Dev.rdyAgain, h] using hrdyAt l h
    rw [hagain, on_of_one hldm]
    exact fld_setFld_cut e 0

theorem butLoad_loadRepeated (d : Dev) (g : Nat) : d.ButLoad g (d.loadRepeated g) :=
  (Dev.ButOutputs.refl d g).toButLoad.setFld.setFld

theorem fld_loadRepeated (d : Dev) (g : Nat) : (d.loadRepeated g).fld (PWM_ISTAT_REPEAT g) = 1 ∧
    (d.loadRepeated g).fld (PWM_STAT_REPEAT g) = min 65535 (d.fld (PWM_STAT_REPEAT g) + 1) :=
  ⟨fld_flag _, (fld_setFld_apart _ _ Fld.apart_register).trans (fld_count (Nat.le_of_ble_eq_true rfl))⟩

/-- A load event changes nothing beyond the load and the group's outputs, and forces the group exactly while it has a
cause. -/
theorem loadEvent_frame (d : Dev) (g : Nat) (valley : Bool) (ev : PwmEvent) :
    let e := d.loadEvent g valley ev
    d.ButLoad g e ∧ (e.forceCauses g = 0 → (e.group g).safe = false) ∧
      (e.forceCauses g ≠ 0 → (e.group g).safe = true) := by
  rw [loadEvent_eq]
  exact ⟨(Dev.ButLoad.ite (butLoad_loadRepeated d g) (butLoad_loadTaken d g valley ev)).trans
    (butOutputs_settled _ g ev).toButLoad, safe_settled _ g ev⟩

/-- With LDM 0 or RDY 1 a load event takes the shadow set, is flagged, and spends RDY unless it was set since. -/
theorem loadEvent_taken (h : d.fld (PWM_CFG_LDM g) = 0 ∨ ev.rdy = true) :
    let e := d.loadEvent g valley ev
    (e.group g).act = loadedSet (d.group g).act ev.set valley ∧ e.fld (PWM_ISTAT_LOAD g) = 1 ∧
    (d.fld (PWM_CFG_LDM g) = 1 → (∀ l, (d.group g).rdyAt = some l → l < ev.lt) → e.fld (PWM_CTL_RDY g) = 0) := by
  have hc : (d.on (PWM_CFG_LDM g) && !ev.rdy) = false := by
    rcases h with h | h
    · rw [on_of_zero h, Bool.false_and]
    · rw [h, Bool.not_true, Bool.and_false]
  obtain ⟨hload, hrdy⟩ := fld_loadTaken d g valley ev
  have hs := butOutputs_settled (d.loadTaken g valley ev) g ev
  rw [loadEvent_eq, hc]
  exact ⟨hs.act.trans (act_loadTaken d g valley ev), (fld_of_io hs.io _).trans hload,
    fun hldm hrdyAt => (fld_of_io hs.io _).trans (hrdy hldm hrdyAt)⟩

/-- With LDM 1 and RDY 0 a load event keeps the active set and counts. -/
theorem loadEvent_repeated (hldm : d.fld (PWM_CFG_LDM g) = 1) (hrdy : ev.rdy = false) :
    let e := d.loadEvent g valley ev
    (e.group g).act = (d.group g).act ∧ e.fld (PWM_ISTAT_REPEAT g) = 1 ∧
    e.fld (PWM_STAT_REPEAT g) = min 65535 (d.fld (PWM_STAT_REPEAT g) + 1) := by
  obtain ⟨hflag, hcount⟩ := fld_loadRepeated d g
  have hs := butOutputs_settled (d.loadRepeated g) g ev
  rw [loadEvent_eq, on_of_one hldm, hrdy]
  exact ⟨hs.act, (fld_of_io hs.io _).trans hflag, (fld_of_io hs.io _).trans hcount⟩

/-! ### Valleys and peaks (R280, R296) -/

/-- The device with the oldest valley of group `g` taken and its event produced. -/
def Dev.valleyTold (d : Dev) (g : Nat) (ev : PwmEvent) (rest : List PwmEvent) : Dev :=
  (d.setGroup g { d.group g with valleys := rest }).produce { prod := 256 + g, stamp := some ev.stamp }

/-- The device with the oldest peak of group `g` taken and its event produced. -/
def Dev.peakTold (d : Dev) (g : Nat) (ev : PwmEvent) (rest : List PwmEvent) : Dev :=
  (d.setGroup g { d.group g with peaks := rest }).produce { prod := 268 + g, stamp := some ev.stamp }

variable {rest : List PwmEvent}

theorem group_valleyTold_same : (d.valleyTold g ev rest).group g = { d.group g with valleys := rest } :=
  group_setGroup_same d g _

theorem group_peakTold_same : (d.peakTold g ev rest).group g = { d.group g with peaks := rest } :=
  group_setGroup_same d g _

theorem carrierValley_nil (h : (d.group g).valleys = []) : carrierValley g d = d := by simp only [carrierValley, h]

theorem carrierPeak_nil (h : (d.group g).peaks = []) : carrierPeak g d = d := by simp only [carrierPeak, h]

theorem carrierValley_cons (h : (d.group g).valleys = ev :: rest) : carrierValley g d =
    if (d.valleyTold g ev rest).loads g true then (d.valleyTold g ev rest).loadEvent g true ev
    else d.valleyTold g ev rest := by
  simp only [carrierValley, h]
  rfl

theorem carrierPeak_cons (h : (d.group g).peaks = ev :: rest) : carrierPeak g d =
    if (d.peakTold g ev rest).loads g false then (d.peakTold g ev rest).loadEvent g false ev
    else d.peakTold g ev rest := by
  simp only [carrierPeak, h]
  rfl

/-- What follows a valley's event leaves the events, the valleys that wait and the other groups. -/
theorem butLoad_carrierValley (h : (d.group g).valleys = ev :: rest) :
    (d.valleyTold g ev rest).ButLoad g (carrierValley g d) := by
  rw [carrierValley_cons h]
  exact .ite (loadEvent_frame _ g true ev).1 (Dev.ButOutputs.refl _ g).toButLoad

/-- What follows a peak's event leaves the events, the peaks that wait and the other groups. -/
theorem butLoad_carrierPeak (h : (d.group g).peaks = ev :: rest) :
    (d.peakTold g ev rest).ButLoad g (carrierPeak g d) := by
  rw [carrierPeak_cons h]
  exact .ite (loadEvent_frame _ g false ev).1 (Dev.ButOutputs.refl _ g).toButLoad

/-- A valley is a load event where LDE selects valleys or both; a carrier that has peaks (SHAPE 1) may leave them out. -/
theorem loads_valley (h : d.fld (PWM_CFG_LDE g) = 0 ∨ d.fld (PWM_CFG_LDE g) = 2) : d.loads g true = true := by
  rcases h with h | h <;> simp [Dev.loads, h]

theorem not_loads_valley (h : d.fld (PWM_CFG_LDE g) = 1) (hshape : (d.group g).act.shape = true) :
    d.loads g true = false := by simp [Dev.loads, h, hshape]

theorem loads_peak (h : d.fld (PWM_CFG_LDE g) = 1 ∨ d.fld (PWM_CFG_LDE g) = 2) : d.loads g false = true := by
  rcases h with h | h <;> simp [Dev.loads, h]

theorem not_loads_peak (h : d.fld (PWM_CFG_LDE g) = 0) : d.loads g false = false := by simp [Dev.loads, h]

end

end Sys2Proof.Machine
end

section
/-! PROOFS. PwmGroups: enabling and restarting PWM groups, trips and forcing, pins and safe levels (R278 to R295,
`Obligations.PwmGroups`). -/

namespace Sys2Proof.Machine

section
variable {d e : Dev} {g : Nat}

/-! ### Enabling (R285) -/

/-- The force line's flag lies apart from the registers of every group. -/
theorem Fld.apart_forceLine {b lo n : Nat} (hg : g < 12) (hb : b < 0x090000 := by decide) :
    Fld.Apart ⟨b + 0x80 * g, lo, n⟩ SAFEISL_STAT_FORCE := by
  left
  show 0x0C0000 ≠ b + 0x80 * g
  omega

/-- The group that enabling makes. -/
def Dev.startedGroup (d : Dev) (g : Nat) : PwmGroup :=
  { d.group g with
    act := d.shadowSet g, k := (d.shadowSet g).phase % (d.shadowSet g).period, running := true
    done := d.lantern.lt + (if (d.shadowSet g).carr then 0 else 1), shadow := d.shadowSet g, rdy := false, rdyAt := none
    rise := [0, 0, 0, 0, 0, 0], high := 0, todo := [], pipe := [0, 0, 0], valleys := [], peaks := [] }

/-- The device with a group enabled, before its causes of forcing are looked at. -/
def Dev.groupStarted (d : Dev) (g : Nat) : Dev :=
  ((d.setFld (PWM_CFG_EN g) 1).setFld (PWM_CTL_RDY g) 0).setGroup g (d.startedGroup g)

theorem startGroup_eq (d : Dev) (g : Nat) : d.startGroup g = (d.groupStarted g).checkForce g := rfl

theorem fld_groupStarted (d : Dev) (hg : g < 12) :
    (d.groupStarted g).fld (PWM_CFG_EN g) = 1 ∧ (d.groupStarted g).fld (PWM_CTL_RDY g) = 0 ∧
    (d.groupStarted g).fld SAFEISL_STAT_FORCE = d.fld SAFEISL_STAT_FORCE := by
  simp only [Dev.groupStarted, fld_setGroup]
  exact ⟨(fld_setFld_apart _ _ Fld.apart_register).trans (fld_setFld_cut d 1), fld_setFld_cut _ 0,
    (fld_setFld_apart _ _ (Fld.apart_forceLine hg)).trans (fld_setFld_apart _ _ (Fld.apart_forceLine hg))⟩

/-- A group that is enabled starts on the shadow set at PHASE mod PERIOD, at its safe levels where the force line stands. -/
theorem startGroup_leaves (d : Dev) (hg : g < 12) :
    let e := d.startGroup g
    e.fld (PWM_CFG_EN g) = 1 ∧ e.fld (PWM_CTL_RDY g) = 0 ∧ (e.group g).act = d.shadowSet g ∧ (e.group g).running = true ∧
    (e.group g).k = d.fld (PWM_PHASE_PHASE g) % d.fld (PWM_PERIOD_PERIOD g) ∧
    (d.fld SAFEISL_STAT_FORCE = 1 → (e.group g).safe = true) := by
  obtain ⟨hen, hrdy, hline⟩ := fld_groupStarted d hg
  have hgroup : (d.groupStarted g).group g = d.startedGroup g := group_setGroup_same _ g _
  have hframe := butOutputs_checkForce (d.groupStarted g) g
  obtain ⟨hrunning, hk⟩ := carrier_checkForce (d.groupStarted g) g
  rw [hgroup] at hrunning hk
  rw [startGroup_eq]
  refine ⟨(fld_of_io hframe.io _).trans hen, (fld_of_io hframe.io _).trans hrdy, hframe.act.trans (by rw [hgroup]; rfl),
    hrunning, hk, fun h => safe_checkForce fun hnone => ?_⟩
  obtain ⟨hoff, -⟩ := forceCauses_eq_zero.1 hnone
  exact absurd (hline.symm.trans hoff) (by rw [h]; decide)

theorem enableGroup_of_off (hen : d.fld (PWM_CFG_EN g) = 0) (hmode : d.mode ≠ modeFog) :
    enableGroup g d = d.startGroup g := by
  simp [enableGroup, on_of_zero hen, Dev.mayEnable, hmode]

theorem enableGroup_of_on (hen : d.fld (PWM_CFG_EN g) = 1) : enableGroup g d = d := by
  simp [enableGroup, on_of_one hen]

/-! ### A restart of carriers (R286) -/

/-- A group as SYNC leaves it where its mask names it. -/
def Dev.synced (d : Dev) (g : Nat) : PwmGroup := (d.syncGroup g).group g

theorem syncGroup_frame (d : Dev) (g : Nat) : (d.syncGroup g).io = d.io ∧ (d.syncGroup g).lantern = d.lantern ∧
    ∀ h, h ≠ g → (d.syncGroup g).group h = d.group h := by
  unfold Dev.syncGroup
  extract_lets G k ev
  split
  · exact ⟨rfl, rfl, fun h hh => group_setGroup_ne d _ hh⟩
  · exact ⟨rfl, rfl, fun _ _ => rfl⟩

theorem synced_of_time (hen : d.fld (PWM_CFG_EN g) = 1) (hcarr : (d.group g).act.carr = false) :
    (d.synced g).k = (d.group g).act.phase % (d.group g).act.period ∧
    (d.synced g).valleys = (if (d.group g).act.phase % (d.group g).act.period = 0 then (d.group g).valleys ++
      [{ lt := d.lantern.lt, step := 16, set := (d.group g).shadow, rdy := (d.group g).rdy }] else (d.group g).valleys) := by
  simp [Dev.synced, Dev.syncGroup, on_of_one hen, hcarr]

theorem synced_of_other (h : d.fld (PWM_CFG_EN g) = 0 ∨ (d.group g).act.carr = true) : d.synced g = d.group g := by
  rcases h with h | h
  · simp [Dev.synced, Dev.syncGroup, on_of_zero h]
  · simp [Dev.synced, Dev.syncGroup, h]

/-- What SYNC makes of a group stands in the group, the registers and the time. -/
theorem synced_of (hio : e.io = d.io) (hlantern : e.lantern = d.lantern) (hgroup : e.group g = d.group g) :
    e.synced g = d.synced g := by
  have hen : e.on (PWM_CFG_EN g) = d.on (PWM_CFG_EN g) := on_of_fld (fld_of_io hio _)
  unfold Dev.synced Dev.syncGroup
  rw [hen, hgroup, hlantern]
  extract_lets G k ev
  split
  · rw [group_setGroup_same, group_setGroup_same]
  · exact hgroup

/-- A restart of listed groups reaches each of them once, and no other. -/
theorem foldl_syncGroup : ∀ {l : List Nat} (d : Dev), l.Nodup →
    (l.foldl Dev.syncGroup d).io = d.io ∧ (l.foldl Dev.syncGroup d).lantern = d.lantern ∧
    ∀ g, (l.foldl Dev.syncGroup d).group g = if g ∈ l then d.synced g else d.group g
  | [], _, _ => ⟨rfl, rfl, fun _ => by simp⟩
  | h :: l, d, hl => by
    obtain ⟨hnot, hl⟩ := List.nodup_cons.1 hl
    obtain ⟨hio, hlantern, hothers⟩ := syncGroup_frame d h
    obtain ⟨hio', hlantern', hgroup⟩ := foldl_syncGroup (d.syncGroup h) hl
    refine ⟨hio'.trans hio, hlantern'.trans hlantern, fun g => ?_⟩
    rw [List.foldl_cons, hgroup]
    by_cases hg : g = h
    · subst hg
      rw [if_neg hnot, if_pos List.mem_cons_self]
      rfl
    · simp only [List.mem_cons, hg, false_or, hothers g hg, synced_of hio hlantern (hothers g hg)]

theorem pwmSync_leaves (d : Dev) (mask : Nat) : (pwmSync mask d).io = d.io ∧
    ∀ g < 12, (pwmSync mask d).group g = if mask.testBit g = true then d.synced g else d.group g := by
  have hl : (bitsList mask 12).Nodup := List.nodup_range.filter _
  obtain ⟨hio, -, hgroup⟩ := foldl_syncGroup d hl
  refine ⟨hio, fun g hg => (hgroup g).trans ?_⟩
  simp only [mem_bitsList, hg, true_and]

/-! ### CTL.FORCE and trips (R290, R295) -/

theorem swForce_on (d : Dev) (g : Nat) :
    (swForce g true d).fld (PWM_CTL_FORCE g) = 1 ∧ ((swForce g true d).group g).safe = true := by
  have hforce : (d.setFld (PWM_CTL_FORCE g) 1).fld (PWM_CTL_FORCE g) = 1 := fld_setFld_cut d 1
  refine ⟨(fld_of_io (butOutputs_checkForce _ g).io _).trans hforce, safe_checkForce fun hnone => ?_⟩
  obtain ⟨-, -, hoff, -⟩ := forceCauses_eq_zero.1 hnone
  exact absurd (hforce.symm.trans hoff) one_ne_zero

theorem safe_checkForce_of_safe (h : (d.group g).safe = true) : ((d.checkForce g).group g).safe = true := by
  by_cases hnone : d.forceCauses g = 0
  · rwa [checkForce_of_none hnone]
  · exact safe_checkForce hnone

theorem swForce_off (d : Dev) (g : Nat) : (swForce g false d).fld (PWM_CTL_FORCE g) = 0 ∧
    ((d.group g).safe = true → ((swForce g false d).group g).safe = true) :=
  ⟨(fld_of_io (butOutputs_checkForce _ g).io _).trans (fld_setFld_cut d 0),
    fun h => safe_checkForce_of_safe (d := d.setFld (PWM_CTL_FORCE g) 0) h⟩

/-- Some masked input is tripped. -/
theorem any_sdfTripped_iff : (bitsList (d.tripMask g) 36).any d.sdfTripped = true ↔
    ∃ n < 36, (d.tripMask g).testBit n = true ∧ d.sdfTripped n = true := by
  simp only [List.any_eq_true, mem_bitsList, and_assoc]

theorem tripLatch_of_tripped (hlatch : (d.group g).trip = false)
    (h : ∃ n < 36, (d.tripMask g).testBit n = true ∧ d.sdfTripped n = true) :
    tripLatch g d = (((d.setGroup g { d.group g with trip := true }).flag (PWM_ISTAT_TRIP g)).produce
      { prod := 280 + g, stamp := some d.lanternTime } |>.present fiOcTrip g).forceGroup g := by
  rw [tripLatch, hlatch, any_sdfTripped_iff.2 h]
  rfl

theorem tripLatch_of_quiet (h : (d.group g).trip = true ∨
    ∀ n < 36, (d.tripMask g).testBit n = true → d.sdfTripped n = false) : tripLatch g d = d := by
  rcases h with h | h
  · simp [tripLatch, h]
  · have hnone : (bitsList (d.tripMask g) 36).any d.sdfTripped = false := by
      rw [Bool.eq_false_iff]
      intro hany
      obtain ⟨n, hn, hbit, htripped⟩ := any_sdfTripped_iff.1 hany
      simp [h n hn hbit] at htripped
    simp [tripLatch, hnone]

/-- A trip sets the latch and its flag, is presented and told, and forces the group. -/
theorem tripLatch_leaves (hg : g < 12) (hlatch : (d.group g).trip = false)
    (h : ∃ n < 36, (d.tripMask g).testBit n = true ∧ d.sdfTripped n = true) :
    let e := tripLatch g d
    (e.group g).trip = true ∧ (e.group g).safe = true ∧ e.fld (PWM_ISTAT_TRIP g) = 1 ∧ e.hasFault fiOcTrip g = true ∧
    e.evt.produced = d.evt.produced ++ [{ prod := 280 + g, stamp := some d.lanternTime }] := by
  rw [tripLatch_of_tripped hlatch h]
  extract_lets e
  refine ⟨(butOutputs_forceGroup _ g).trip.trans ?_, safe_forceGroup _ g,
    fld_flag (d.setGroup g { d.group g with trip := true }), (Dev.awaits_present _ fiOcTrip (by omega)).hasFault, rfl⟩
  exact congrArg PwmGroup.trip (group_setGroup_same d g _)

/-! ### Pins (R294) -/

theorem maskOf_lt (p : Nat → Bool) : ∀ n, maskOf p n < 2 ^ n
  | 0 => Nat.one_pos
  | n + 1 => by
    have h := maskOf_lt p n
    have hadd : (if p n = true then 2 ^ n else 0) ≤ 2 ^ n := by split <;> omega
    rw [maskOf, pow_succ]
    omega

theorem testBit_maskOf (p : Nat → Bool) (i : Nat) : ∀ n, (maskOf p n).testBit i = (decide (i < n) && p i)
  | 0 => by simp [maskOf]
  | n + 1 => by
    have ih := testBit_maskOf p i n
    have hlt := maskOf_lt p n
    have hcut : (maskOf p (n + 1)).testBit i = if i = n then p n else (maskOf p n).testBit i := by
      rw [maskOf]
      cases p n
      · by_cases h : i = n
        · simp [h, Nat.testBit_lt_two_pow hlt]
        · simp [h]
      · rw [if_pos rfl, Nat.add_comm]
        rcases lt_trichotomy i n with h | rfl | h
        · rw [Nat.testBit_two_pow_add_gt h, if_neg (by omega)]
        · rw [Nat.testBit_two_pow_add_eq, Nat.testBit_lt_two_pow hlt, if_pos rfl, Bool.not_false]
        · have hpow : 2 ^ (n + 1) ≤ 2 ^ i := Nat.pow_le_pow_right (by omega) h
          rw [pow_succ] at hpow
          rw [Nat.testBit_lt_two_pow (by omega), if_neg (by omega), Nat.testBit_lt_two_pow (by omega)]
    rw [hcut, ih]
    by_cases h : i = n
    · simp [h]
    · rw [if_neg h, decide_eq_decide.2 (by omega : i < n ↔ i < n + 1)]

/-- The device with the levels found at the pins of group `g`. -/
def Dev.pinsFound (d : Dev) (g lvl : Nat) : Dev :=
  d.setGroup g { d.group g with stuck := lvl ^^^ d.pwmCmd g, stuckLvl := lvl }

/-- Pin `j` differs from the command at `lvl` and has done so for more than 200 ns. -/
def Dev.pinOff (d : Dev) (g lvl j : Nat) : Prop :=
  lvl.testBit j ≠ (d.pwmCmd g).testBit j ∧ 120 < nth 0 (d.group g).differ j

theorem pwmCmd_pinsFound (d : Dev) (g lvl : Nat) : (d.pinsFound g lvl).pwmCmd g = d.pwmCmd g := by
  have hgroup : (d.pinsFound g lvl).group g = { d.group g with stuck := lvl ^^^ d.pwmCmd g, stuckLvl := lvl } :=
    group_setGroup_same d g _
  unfold Dev.pwmCmd Dev.safeLevel
  rw [hgroup]
  rfl

/-- The levels found are those that the pins read as. -/
theorem pwmPins_pinsFound (d : Dev) (g : Nat) {lvl : Nat} (h : lvl < 64) : (d.pinsFound g lvl).pwmPins g = lvl := by
  have hgroup : (d.pinsFound g lvl).group g = { d.group g with stuck := lvl ^^^ d.pwmCmd g, stuckLvl := lvl } :=
    group_setGroup_same d g _
  apply Nat.eq_of_testBit_eq
  intro j
  rw [Dev.pwmPins, pwmCmd_pinsFound, hgroup, testBit_maskOf]
  by_cases hj : j < 6
  · cases hl : lvl.testBit j <;> cases hc : (d.pwmCmd g).testBit j <;> simp [hj, hl, hc, Nat.testBit_xor]
  · have hpow : 2 ^ 6 ≤ 2 ^ j := Nat.pow_le_pow_right (by omega) (by omega)
    simp [hj, Nat.testBit_lt_two_pow (show lvl < 2 ^ j by omega)]

theorem any_pinOff_iff {lvl : Nat} : (List.range 6).any (fun j => (lvl ^^^ d.pwmCmd g).testBit j &&
    decide (120 < nth 0 (d.group g).differ j)) = true ↔ ∃ j < 6, d.pinOff g lvl j := by
  simp only [List.any_eq_true, List.mem_range, Nat.testBit_xor, Bool.and_eq_true, bne_iff_ne, decide_eq_true_eq,
    Dev.pinOff]

theorem pinError_of_off {lvl : Nat} (h : ∃ j < 6, d.pinOff g lvl j) :
    pinError g lvl d = ((d.pinsFound g lvl).flag (PWM_ISTAT_PINERR g)).present fiPinerr g := by
  unfold pinError
  extract_lets off told
  rw [show told = true from any_pinOff_iff.2 h]
  rfl

theorem pinError_of_none {lvl : Nat} (h : ∀ j < 6, ¬ d.pinOff g lvl j) : pinError g lvl d = d.pinsFound g lvl := by
  unfold pinError
  extract_lets off told
  rw [show told = false from Bool.eq_false_iff.2 fun ht => ?_]
  · rfl
  · obtain ⟨j, hj, hoff⟩ := any_pinOff_iff.1 ht
    exact h j hj hoff

theorem pwmCmd_reported (d : Dev) (g : Nat) :
    ((d.flag (PWM_ISTAT_PINERR g)).present fiPinerr g).pwmCmd g = d.pwmCmd g := by
  have hsafe : ((d.flag (PWM_ISTAT_PINERR g)).present fiPinerr g).fld (PWM_SAFE_SAFE g) = d.fld (PWM_SAFE_SAFE g) :=
    fld_setFld_apart d 1 Fld.apart_register
  unfold Dev.pwmCmd Dev.safeLevel
  rw [hsafe]
  rfl

theorem pwmPins_reported (d : Dev) (g : Nat) :
    ((d.flag (PWM_ISTAT_PINERR g)).present fiPinerr g).pwmPins g = d.pwmPins g := by
  rw [Dev.pwmPins, pwmCmd_reported]
  rfl

/-- The pins read as the levels found, and the command stays. -/
theorem pinError_pins (d : Dev) (g : Nat) {lvl : Nat} (h : lvl < 64) :
    (pinError g lvl d).pwmPins g = lvl ∧ (pinError g lvl d).pwmCmd g = d.pwmCmd g := by
  by_cases hoff : ∃ j < 6, d.pinOff g lvl j
  · rw [pinError_of_off hoff, pwmPins_reported, pwmCmd_reported]
    exact ⟨pwmPins_pinsFound d g h, pwmCmd_pinsFound d g lvl⟩
  · rw [pinError_of_none fun j hj hp => hoff ⟨j, hj, hp⟩]
    exact ⟨pwmPins_pinsFound d g h, pwmCmd_pinsFound d g lvl⟩

/-! ### Output levels (R278, R291, R292) -/

/-- The references of a complementary channel are never both high, and so neither are its outputs. -/
theorem outStep_complementary (a : ActiveSet) (k : Nat) (x : List Nat × Nat) {c : Nat} (h : a.indep.testBit c = false) :
    ¬ ((outStep a k x).2.testBit (2 * c) = true ∧ (outStep a k x).2.testBit (2 * c + 1) = true) := by
  have href : outRef a k (2 * c + 1) = !outRef a k (2 * c) := by
    have hodd : (2 * c + 1) / 2 = c := by omega
    have heven : 2 * c / 2 = c := by omega
    simp [outRef, hodd, heven, h]
  rw [outStep, testBit_maskOf, testBit_maskOf, href]
  cases outRef a k (2 * c) <;> simp

theorem pwmCmd_of_held (h : d.held = true) : d.pwmCmd g = 0 := by simp [Dev.pwmCmd, h]

/-- A forced output is high from the end of its delay on where its safe level is high. -/
theorem pwmCmd_of_safe (hheld : d.held = false) (hsafe : (d.group g).safe = true) {j : Nat} (hj : j < 6) :
    (d.pwmCmd g).testBit j = true ↔ d.safeLevel g j = 1 ∧ (d.group g).forcedAt + safeHighAfter g ≤ d.ticks := by
  simp [Dev.pwmCmd, hheld, hsafe, testBit_maskOf, hj]

theorem safeHighAfter_bounds (g : Nat) : 30 ≤ safeHighAfter g ∧ safeHighAfter g ≤ 60 := by
  unfold safeHighAfter
  omega

/-- SAFE makes at most one output of a complementary channel high (R292). -/
theorem safeLevel_complementary {c : Nat} (h : (d.group g).act.indep.testBit c = false) :
    ¬ (d.safeLevel g (2 * c) = 1 ∧ d.safeLevel g (2 * c + 1) = 1) := by
  have hodd : (2 * c + 1) / 2 = c := by omega
  have heven : 2 * c / 2 = c := by omega
  have hdouble : c * 2 = 2 * c := by omega
  rintro ⟨hlow, hhigh⟩
  simp only [Dev.safeLevel, hodd, heven, hdouble, h] at hlow hhigh
  split at hlow <;> simp_all

end

/-! ### The statement -/

/-- Settles O15: a load event by whether it takes the shadow set, a restart group by group, a trip or a pin error by its
condition, and the output levels by the reference or the safe level that they follow. -/
theorem pwmGroups : Obligations.PwmGroups := by
  refine ⟨fun s g => ?carriers, fun s g => ?outputs⟩
  case carriers =>
    intro d G
    refine ⟨fun h => completes_onClock rfl fun _ _ => carrierValley_nil h,
      fun h => completes_onClock rfl fun _ _ => carrierPeak_nil h, fun ev rest h => ?valley, fun ev rest h => ?peak,
      fun hen hmode => ?enable, fun hen => completes_onDev rfl fun _ => enableGroup_of_on hen, fun mask => ?sync⟩
    case valley =>
      have hframe := butLoad_carrierValley h
      have htold : (d.valleyTold g ev rest).group g = { G with valleys := rest } := group_valleyTold_same
      have hact : ((d.valleyTold g ev rest).group g).act = G.act := by rw [htold]
      refine completes_onClock rfl fun _ _ => ⟨congrArg EvtSt.produced hframe.evt,
        hframe.valleys.trans (congrArg PwmGroup.valleys htold),
        fun j hj => (hframe.others j hj).trans (group_setGroup_ne d _ hj), fun hlde hshape => ?_, fun hlde => ?_⟩
      · rw [carrierValley_cons h, not_loads_valley (d := d.valleyTold g ev rest) hlde (by rwa [hact])]
        exact ⟨hact, rfl⟩
      · obtain ⟨-, hfree, hforced⟩ := loadEvent_frame (d.valleyTold g ev rest) g true ev
        rw [carrierValley_cons h, if_pos (loads_valley (d := d.valleyTold g ev rest) hlde)]
        refine ⟨fun htake => ?_, fun hldm hrdy => ?_, hfree, hforced⟩
        · obtain ⟨hset, hload, hspent⟩ := loadEvent_taken (valley := true) (d := d.valleyTold g ev rest) htake
          exact ⟨hset, hload, fun hldm hrdyAt => hspent hldm (by rwa [htold])⟩
        · obtain ⟨hset, hrepeat, hcount⟩ := loadEvent_repeated (valley := true) (d := d.valleyTold g ev rest) hldm hrdy
          exact ⟨hset.trans hact, hrepeat, hcount⟩
    case peak =>
      have hframe := butLoad_carrierPeak h
      have htold : (d.peakTold g ev rest).group g = { G with peaks := rest } := group_peakTold_same
      have hact : ((d.peakTold g ev rest).group g).act = G.act := by rw [htold]
      refine completes_onClock rfl fun _ _ => ⟨congrArg EvtSt.produced hframe.evt,
        hframe.peaks.trans (congrArg PwmGroup.peaks htold), fun hlde => ?_, fun hlde htake => ?_⟩
      · rw [carrierPeak_cons h, not_loads_peak (d := d.peakTold g ev rest) hlde]
        exact ⟨hact, rfl⟩
      · obtain ⟨hset, -⟩ := loadEvent_taken (valley := false) (d := d.peakTold g ev rest) htake
        rw [carrierPeak_cons h, if_pos (loads_peak (d := d.peakTold g ev rest) hlde), hset, hact]
        rfl
    case enable =>
      refine completes_onDev rfl fun _ => ?_
      rw [enableGroup_of_off hen hmode]
      exact startGroup_leaves d g.isLt
    case sync =>
      obtain ⟨hio, hgroup⟩ := pwmSync_leaves d mask.toNat
      refine completes_onDev rfl fun _ => ⟨hio, fun hbit hen hcarr => ?_, fun hnot => (hgroup g g.isLt).trans ?_⟩
      · rw [hgroup g g.isLt, if_pos hbit]
        exact synced_of_time hen hcarr
      · split
        · next hbit => exact synced_of_other (hnot.resolve_left (by simp [hbit]))
        · rfl
  case outputs =>
    intro d
    refine ⟨completes_onDev rfl fun _ => swForce_on d g, completes_onDev rfl fun _ => swForce_off d g,
      completes_onDev rfl fun _ => rfl, fun hlatch h => completes_onClock rfl fun _ _ => tripLatch_leaves g.isLt hlatch h,
      fun h => completes_onClock rfl fun _ _ => tripLatch_of_quiet h, fun lvl => ?pins,
      fun a k x c _ h => outStep_complementary a k x h, fun hsafe hheld j hj => ?levels, fun hsafe c hc h => ?both⟩
    case pins =>
      obtain ⟨hpins, hcmd⟩ := pinError_pins d g lvl.isLt
      refine completes_onClock rfl fun _ _ => ⟨hpins, hcmd, fun hoff => ?_, fun hnone => ?_⟩
      · rw [pinError_of_off hoff]
        exact ⟨(fld_present ..).trans (fld_flag _), (Dev.awaits_present _ fiPinerr (g.isLt.trans (by decide))).hasFault⟩
      · rw [pinError_of_none hnone]
        exact ⟨rfl, rfl⟩
    case levels =>
      obtain ⟨hleast, hmost⟩ := safeHighAfter_bounds g
      have hcmd := pwmCmd_of_safe hheld hsafe hj
      refine ⟨fun hlow => Bool.eq_false_iff.2 fun h => hlow (hcmd.1 h).1,
        fun hearly => Bool.eq_false_iff.2 fun h => ?_, fun hhigh hlate => hcmd.2 ⟨hhigh, by omega⟩⟩
      obtain ⟨-, hafter⟩ := hcmd.1 h
      omega
    case both =>
      rintro ⟨hlow, hhigh⟩
      cases hheld : d.held with
      | true => simp [pwmCmd_of_held hheld] at hlow
      | false =>
        obtain ⟨hlow, -⟩ := (pwmCmd_of_safe hheld hsafe (by omega)).1 hlow
        obtain ⟨hhigh, -⟩ := (pwmCmd_of_safe hheld hsafe (by omega)).1 hhigh
        exact safeLevel_complementary h ⟨hlow, hhigh⟩

end Sys2Proof.Machine
end

section
/-! PROOFS. SdfInputs: what a modulator clock, the loss of the clocks and a snapshot leave of an SDF input and its registers
(R297 to R302). -/

namespace Sys2Proof.Machine

section
variable {d e : Dev} {n : Nat} {b : Bool}

/-! ### An input read back -/

theorem sdf_setSdf_same (d : Dev) (n : Nat) (x : SdfInput) : (d.setSdf n x).sdf n = x := arrGet_arrSet_same _ _ _ _

theorem sdf_setSdf_ne {m : Nat} (d : Dev) (x : SdfInput) (h : m ≠ n) : (d.setSdf n x).sdf m = d.sdf m :=
  arrGet_arrSet_ne _ _ x h

theorem sdf_of_drive (h : e.drive = d.drive) (n : Nat) : e.sdf n = d.sdf n := by simp only [Dev.sdf, h]

/-- A low and a high word read as the value set, cut to 64 bits. -/
theorem fld64_setPair64 {a a' : Nat} (d : Dev) (v : Nat) (h : a' ≠ a) :
    (d.setPair64 ⟨a, 0, 32⟩ ⟨a', 0, 32⟩ v).fld64 ⟨a, 0, 32⟩ ⟨a', 0, 32⟩ = v % 2 ^ 64 := by
  rw [setPair64_eq, Dev.fld64, fld_setFld_apart _ _ (.inl h.symm), fld_setFld_cut, fld_setFld_cut]
  omega

theorem wrap_lt (w : Nat) (x : Int) : wrap w x < 2 ^ w := by
  have hpos : (0 : Int) < 2 ^ w := by positivity
  have hlt := Int.emod_lt_of_pos x hpos
  have hnonneg := Int.emod_nonneg x hpos.ne'
  rw [wrap]
  zify
  rwa [Int.toNat_of_nonneg hnonneg]

/-! ### Trips of the fast filter (R299) -/

/-- Whether an input is tripped after a clock: its sum is beyond the threshold, and it was tripped or the clocks in a row
beyond it have reached FCNT. -/
def tripAfter (beyond was : Bool) (run fcnt : Nat) : Bool :=
  beyond && (was || decide (fcnt ≤ if beyond then satInc 15 run else 0))

theorem tripAfter_reached {was : Bool} {run fcnt : Nat} (h : run + 1 = fcnt) (hfcnt : fcnt < 16) :
    tripAfter true was run fcnt = true := by
  have hrun : satInc 15 run = fcnt := (if_pos (by omega)).trans h
  simp [tripAfter, hrun]

theorem tripAfter_early {run fcnt : Nat} (h : run + 1 < fcnt) : tripAfter true false run fcnt = false := by
  have hrun : satInc 15 run < fcnt := by
    unfold satInc
    split <;> omega
  simpa [tripAfter] using hrun

theorem tripAfter_ended (was : Bool) (run fcnt : Nat) : tripAfter false was run fcnt = false := rfl

/-- The device after a trip of an input that begins where `c` says so. -/
def Dev.tripTold (d : Dev) (c : Bool) (n : Nat) (f : Fld) : Dev := if c then d.fastTrip n f else d

theorem tripTold_frame (d : Dev) (c : Bool) (n : Nat) (f : Fld) : (d.tripTold c n f).drive = d.drive ∧
    (d.tripTold c n f).lanternTime = d.lanternTime ∧ (∀ ev ∈ d.evt.produced, ev ∈ (d.tripTold c n f).evt.produced) ∧
    ∀ f', f.Apart f' → (d.tripTold c n f).fld f' = d.fld f' := by
  cases c with
  | false => exact ⟨rfl, rfl, fun _ h => h, fun _ _ => rfl⟩
  | true => exact ⟨rfl, rfl, fun _ h => List.mem_append_left _ h, fun _ h => fld_setFld_apart d 1 h⟩

theorem tripTold_begins {a lo : Nat} (d : Dev) (n : Nat) (h : lo + 1 ≤ 32 := by decide) :
    (d.tripTold true n ⟨a, lo, 1⟩).fld ⟨a, lo, 1⟩ = 1 ∧
    ({ prod := 464 + n, stamp := some d.lanternTime } : Ev) ∈ (d.tripTold true n ⟨a, lo, 1⟩).evt.produced :=
  ⟨fld_flag d h, List.mem_append_right _ List.mem_cons_self⟩

/-! ### One modulator clock (R298, R299, R301) -/

/-- The bits of an input's record after a clock, newest first. -/
def Dev.sdfRecord (d : Dev) (n : Nat) (b : Bool) : List Bool := b :: (d.sdf n).bits.take 767

/-- The fast filter's sum after a clock. -/
def Dev.sdfSum (d : Dev) (n : Nat) (b : Bool) : Int := sinc2 (d.fld (SDF_CFG_FOSR n)) (d.sdfRecord n b)

/-- The sum after a clock is above FTHR.HI, or below FTHR.LO. -/
def Dev.sdfAbove (d : Dev) (n : Nat) (b : Bool) : Bool := decide (sext 16 (d.fld (SDF_FTHR_HI n)) < d.sdfSum n b)
def Dev.sdfBelow (d : Dev) (n : Nat) (b : Bool) : Bool := decide (d.sdfSum n b < sext 16 (d.fld (SDF_FTHR_LO n)))

/-- An input after a clock. -/
def Dev.sdfAfter (d : Dev) (n : Nat) (b : Bool) : SdfInput :=
  { clocks := min 768 ((d.sdf n).clocks + 1), bits := d.sdfRecord n b
    hiRun := if d.sdfAbove n b then satInc 15 (d.sdf n).hiRun else 0
    loRun := if d.sdfBelow n b then satInc 15 (d.sdf n).loRun else 0
    high := tripAfter (d.sdfAbove n b) (d.sdf n).high (d.sdf n).hiRun (d.fld (SDF_CFG_FCNT n))
    low := tripAfter (d.sdfBelow n b) (d.sdf n).low (d.sdf n).loRun (d.fld (SDF_CFG_FCNT n))
    lost := false, lastClock := d.ticks
    toNext := if decide ((d.sdf n).toNext ≤ 1) then d.fld (SDF_CFG_DEC n) else (d.sdf n).toNext - 1 }

/-- The device after a clock's record and sum, before its trips. -/
def Dev.sdfSampled (d : Dev) (n : Nat) (b : Bool) : Dev :=
  (d.setSdf n (d.sdfAfter n b)).setFld (SDF_FAST_FAST n) (wrap 16 (d.sdfSum n b))

/-- The device after a clock's trip above FTHR.HI. -/
def Dev.sdfHighTold (d : Dev) (n : Nat) (b : Bool) : Dev :=
  (d.sdfSampled n b).tripTold ((d.sdfAfter n b).high && !(d.sdf n).high) n (SDF_ISTAT_TRIPH n)

/-- The device after a clock's record, sum and trips, before its output. -/
def Dev.sdfJudged (d : Dev) (n : Nat) (b : Bool) : Dev :=
  (d.sdfHighTold n b).tripTold ((d.sdfAfter n b).low && !(d.sdf n).low) n (SDF_ISTAT_TRIPL n)

/-- A clock brings an output of the main filter. -/
def Dev.sdfDue (d : Dev) (n : Nat) : Bool :=
  decide ((d.sdf n).toNext ≤ 1) && decide (3 * d.fld (SDF_CFG_DEC n) ≤ (d.sdf n).clocks + 1)

/-- The device with an output of the main filter over `bits`. -/
def Dev.sdfDelivered (d : Dev) (n : Nat) (bits : List Bool) : Dev :=
  (d.setFld (SDF_DATA_DATA n) (wrap 32 (sinc3 (d.fld (SDF_CFG_DEC n)) bits))).flag (SDF_ISTAT_DRDY n)

theorem sdfClock_eq (d : Dev) (n : Nat) (b : Bool) : d.sdfClock n b =
    if d.sdfDue n then (d.sdfJudged n b).sdfDelivered n (d.sdfRecord n b) else d.sdfJudged n b := rfl

/-- An output changes DATA and DRDY alone. -/
theorem fld_sdfDelivered {bits : List Bool} {f : Fld} (hdata : (SDF_DATA_DATA n).Apart f)
    (hflag : (SDF_ISTAT_DRDY n).Apart f) : (d.sdfDelivered n bits).fld f = d.fld f := by
  rw [Dev.sdfDelivered, flag_eq, fld_setFld_apart _ _ hflag, fld_setFld_apart _ _ hdata]

/-! ### When an output is due, and when a trip begins and ends -/

theorem toNext_of_last (h : (d.sdf n).toNext = 1) : (d.sdfAfter n b).toNext = d.fld (SDF_CFG_DEC n) :=
  if_pos (decide_eq_true h.le)

theorem toNext_of_more (h : 1 < (d.sdf n).toNext) : (d.sdfAfter n b).toNext = (d.sdf n).toNext - 1 :=
  if_neg (by simpa using h)

theorem sdfDue_of_full (h : (d.sdf n).toNext = 1) (hfull : 3 * d.fld (SDF_CFG_DEC n) ≤ (d.sdf n).clocks + 1) :
    d.sdfDue n = true := by simp [Dev.sdfDue, h, hfull]

theorem sdfDue_of_short (h : (d.sdf n).clocks + 1 < 3 * d.fld (SDF_CFG_DEC n)) : d.sdfDue n = false := by
  simp [Dev.sdfDue, h]

theorem sdfDue_of_more (h : 1 < (d.sdf n).toNext) : d.sdfDue n = false := by simp [Dev.sdfDue, h]

/-- A trip above FTHR.HI begins at the FCNT-th clock in a row, not before, and ends with its cause. -/
theorem high_sdfAfter (hwas : (d.sdf n).high = false) (h : sext 16 (d.fld (SDF_FTHR_HI n)) < d.sdfSum n b) :
    ((d.sdf n).hiRun + 1 = d.fld (SDF_CFG_FCNT n) → (d.sdfAfter n b).high = true) ∧
    ((d.sdf n).hiRun + 1 < d.fld (SDF_CFG_FCNT n) → (d.sdfAfter n b).high = false) := by
  have habove : d.sdfAbove n b = true := decide_eq_true h
  have hfcnt : d.fld (SDF_CFG_FCNT n) < 16 := fld_lt d _
  simp only [Dev.sdfAfter, habove, hwas]
  exact ⟨fun hrun => tripAfter_reached hrun hfcnt, tripAfter_early⟩

theorem high_sdfAfter_ended (h : d.sdfSum n b ≤ sext 16 (d.fld (SDF_FTHR_HI n))) : (d.sdfAfter n b).high = false := by
  have habove : d.sdfAbove n b = false := decide_eq_false (not_lt.2 h)
  simp only [Dev.sdfAfter, habove, tripAfter_ended]

theorem low_sdfAfter (h : d.sdfSum n b < sext 16 (d.fld (SDF_FTHR_LO n)))
    (hrun : (d.sdf n).loRun + 1 = d.fld (SDF_CFG_FCNT n)) : (d.sdfAfter n b).low = true := by
  have hbelow : d.sdfBelow n b = true := decide_eq_true h
  simp only [Dev.sdfAfter, hbelow, tripAfter_reached hrun (fld_lt d (SDF_CFG_FCNT n))]

/-! ### What a clock leaves -/

theorem sdfJudged_drive (d : Dev) (n : Nat) (b : Bool) :
    (d.sdfJudged n b).drive = (d.setSdf n (d.sdfAfter n b)).drive :=
  (tripTold_frame _ _ n _).1.trans (tripTold_frame (d.sdfSampled n b) _ n _).1

/-- The input after a clock. -/
theorem sdf_sdfClock (d : Dev) (n : Nat) (b : Bool) : (d.sdfClock n b).sdf n = d.sdfAfter n b := by
  rw [sdfClock_eq]
  refine (sdf_of_drive (Eq.trans ?_ (sdfJudged_drive d n b)) n).trans (sdf_setSdf_same d n _)
  split <;> rfl

/-- Before its output a clock changes FAST and the trip flags alone. -/
theorem fld_sdfJudged {a lo w : Nat} (hfast : a ≠ 0x09010C := by decide)
    (htrips : a ≠ 0x090110 ∨ 3 ≤ lo ∨ lo + w ≤ 1 := by decide) :
    (d.sdfJudged n b).fld ⟨a + 0x20 * n, lo, w⟩ = d.fld ⟨a + 0x20 * n, lo, w⟩ := by
  obtain ⟨-, -, -, hlow⟩ := tripTold_frame (d.sdfHighTold n b) ((d.sdfAfter n b).low && !(d.sdf n).low) n (SDF_ISTAT_TRIPL n)
  obtain ⟨-, -, -, hhigh⟩ := tripTold_frame (d.sdfSampled n b) ((d.sdfAfter n b).high && !(d.sdf n).high) n (SDF_ISTAT_TRIPH n)
  have hne : a ≠ 0x090110 → a + 0x20 * n ≠ 0x090110 + 0x20 * n := fun h e => h (Nat.add_right_cancel e)
  have hapartLow : (SDF_ISTAT_TRIPL n).Apart ⟨a + 0x20 * n, lo, w⟩ :=
    htrips.imp hne (Or.imp_left fun h => show 1 + 1 ≤ lo by omega)
  have hapartHigh : (SDF_ISTAT_TRIPH n).Apart ⟨a + 0x20 * n, lo, w⟩ :=
    htrips.imp hne (Or.imp (fun h => show 2 + 1 ≤ lo by omega) fun h => show lo + w ≤ 2 by omega)
  exact (hlow _ hapartLow).trans ((hhigh _ hapartHigh).trans (fld_setFld_apart _ _ (Fld.apart_register hfast)))

/-- A clock leaves the control and the thresholds of its input. -/
theorem fld_sdfClock {a lo w : Nat} (hfast : a ≠ 0x09010C := by decide) (hdata : a ≠ 0x090108 := by decide)
    (hflags : a ≠ 0x090110 := by decide) :
    (d.sdfClock n b).fld ⟨a + 0x20 * n, lo, w⟩ = d.fld ⟨a + 0x20 * n, lo, w⟩ := by
  have hjudged : (d.sdfJudged n b).fld ⟨a + 0x20 * n, lo, w⟩ = d.fld ⟨a + 0x20 * n, lo, w⟩ :=
    fld_sdfJudged hfast (.inl hflags)
  rw [sdfClock_eq]
  split
  · exact (fld_sdfDelivered (Fld.apart_register hdata) (Fld.apart_register hflags)).trans hjudged
  · exact hjudged

/-- After its trips a clock changes DATA and DRDY alone. -/
theorem fld_sdfClock_judged {a lo w : Nat} (hdata : a ≠ 0x090108 := by decide) (hflag : a ≠ 0x090110 ∨ 1 ≤ lo := by decide) :
    (d.sdfClock n b).fld ⟨a + 0x20 * n, lo, w⟩ = (d.sdfJudged n b).fld ⟨a + 0x20 * n, lo, w⟩ := by
  rw [sdfClock_eq]
  split
  · exact fld_sdfDelivered (Fld.apart_register hdata)
      (hflag.imp (fun h e => h (Nat.add_right_cancel e)) fun h => .inl (show 0 + 1 ≤ lo by omega))
  · rfl

/-- FAST reads as the sum after each clock. -/
theorem fast_sdfClock (d : Dev) (n : Nat) (b : Bool) :
    (d.sdfClock n b).fld (SDF_FAST_FAST n) = wrap 16 (d.sdfSum n b) := by
  obtain ⟨-, -, -, hlow⟩ := tripTold_frame (d.sdfHighTold n b) ((d.sdfAfter n b).low && !(d.sdf n).low) n (SDF_ISTAT_TRIPL n)
  obtain ⟨-, -, -, hhigh⟩ := tripTold_frame (d.sdfSampled n b) ((d.sdfAfter n b).high && !(d.sdf n).high) n (SDF_ISTAT_TRIPH n)
  calc (d.sdfClock n b).fld (SDF_FAST_FAST n)
      = (d.sdfJudged n b).fld (SDF_FAST_FAST n) := fld_sdfClock_judged
    _ = (d.sdfHighTold n b).fld (SDF_FAST_FAST n) := hlow _ Fld.apart_register
    _ = (d.sdfSampled n b).fld (SDF_FAST_FAST n) := hhigh _ Fld.apart_register
    _ = wrap 16 (d.sdfSum n b) % 2 ^ 16 := fld_setFld_cut _ _
    _ = wrap 16 (d.sdfSum n b) := Nat.mod_eq_of_lt (wrap_lt 16 _)

/-- A due clock delivers the main filter's sum with DRDY. -/
theorem data_sdfClock_due (h : d.sdfDue n = true) :
    (d.sdfClock n b).fld (SDF_DATA_DATA n) = wrap 32 (sinc3 (d.fld (SDF_CFG_DEC n)) (d.sdfRecord n b)) ∧
    (d.sdfClock n b).fld (SDF_ISTAT_DRDY n) = 1 := by
  have hdec : (d.sdfJudged n b).fld (SDF_CFG_DEC n) = d.fld (SDF_CFG_DEC n) := fld_sdfJudged
  rw [sdfClock_eq, if_pos h, Dev.sdfDelivered, hdec]
  exact ⟨(fld_setFld_apart _ _ Fld.apart_register).trans ((fld_setFld_cut _ _).trans (Nat.mod_eq_of_lt (wrap_lt 32 _))),
    fld_flag _⟩

/-- DATA stays at a clock that is not due. -/
theorem data_sdfClock_early (h : d.sdfDue n = false) :
    (d.sdfClock n b).fld (SDF_DATA_DATA n) = d.fld (SDF_DATA_DATA n) := by
  rw [sdfClock_eq, h]
  exact fld_sdfJudged

/-- A trip that begins is flagged, and its event produced. -/
theorem tripHigh_sdfClock (hhigh : (d.sdfAfter n b).high = true) (hwas : (d.sdf n).high = false) :
    (d.sdfClock n b).fld (SDF_ISTAT_TRIPH n) = 1 ∧
    ({ prod := 464 + n, stamp := some d.lanternTime } : Ev) ∈ (d.sdfClock n b).evt.produced := by
  have htold : d.sdfHighTold n b = (d.sdfSampled n b).tripTold true n (SDF_ISTAT_TRIPH n) := by
    rw [Dev.sdfHighTold, hhigh, hwas]
    rfl
  obtain ⟨hflag, hevent⟩ := tripTold_begins (a := 0x090110 + 0x20 * n) (lo := 2) (d.sdfSampled n b) n
  obtain ⟨-, -, hkept, hlow⟩ :=
    tripTold_frame (d.sdfHighTold n b) ((d.sdfAfter n b).low && !(d.sdf n).low) n (SDF_ISTAT_TRIPL n)
  refine ⟨Eq.trans fld_sdfClock_judged
    ((hlow _ Fld.apart_bits).trans ((congrArg (fun e : Dev => e.fld _) htold).trans hflag)), ?_⟩
  have hevt : (d.sdfClock n b).evt = (d.sdfJudged n b).evt := by
    rw [sdfClock_eq]
    split <;> rfl
  rw [hevt]
  exact hkept _ (by rw [htold]; exact hevent)

theorem tripLow_sdfClock (hlow : (d.sdfAfter n b).low = true) (hwas : (d.sdf n).low = false) :
    (d.sdfClock n b).fld (SDF_ISTAT_TRIPL n) = 1 := by
  have htold : d.sdfJudged n b = (d.sdfHighTold n b).tripTold true n (SDF_ISTAT_TRIPL n) := by
    rw [Dev.sdfJudged, hlow, hwas]
    rfl
  obtain ⟨hflag, -⟩ := tripTold_begins (a := 0x090110 + 0x20 * n) (lo := 1) (d.sdfHighTold n b) n
  exact Eq.trans fld_sdfClock_judged ((congrArg (fun e : Dev => e.fld _) htold).trans hflag)

/-! ### Several clocks -/

theorem sdfBits_one (hen : d.on (SDF_CFG_EN n) = true) : d.sdfBits n [b] = d.sdfClock n b := if_pos hen

/-- An enabled input takes its bits one after another. -/
theorem foldl_sdfBits : ∀ (bits : List Bool) {d : Dev}, d.on (SDF_CFG_EN n) = true →
    bits.foldl (fun d b => d.sdfBits n [b]) d = bits.foldl (fun d b => d.sdfClock n b) d
  | [], _, _ => rfl
  | b :: bits, d, hen => by
    have hen' : (d.sdfClock n b).on (SDF_CFG_EN n) = true := (on_of_fld fld_sdfClock).trans hen
    rw [List.foldl_cons, List.foldl_cons, sdfBits_one hen, foldl_sdfBits bits hen']

theorem sdfBits_eq_foldl (d : Dev) (n : Nat) (bits : List Bool) :
    d.sdfBits n bits = bits.foldl (fun d b => d.sdfBits n [b]) d := by
  cases hen : d.on (SDF_CFG_EN n) with
  | true => exact (if_pos hen).trans (foldl_sdfBits bits hen).symm
  | false =>
    have hnone : ∀ l, d.sdfBits n l = d := fun l => if_neg (by simp [hen])
    rw [hnone, List.foldl_fixed' fun b => hnone [b]]

/-! ### Loss and return of the clocks (R301) -/

theorem clockLost_of_stopped (hen : d.fld (SDF_CFG_EN n) = 1) (hckout : d.fld (SDF_CFG_CKOUT n) = 0)
    (hlost : (d.sdf n).lost = false) (h : (d.sdf n).lastClock + 1200 ≤ d.ticks) :
    clockLost n d = ((d.setSdf n { d.sdf n with lost := true }).flag (SDF_ISTAT_CKLOSS n)).present fiCkloss n := by
  simp [clockLost, on_of_one hen, on_of_zero hckout, hlost, Dev.elapsed, h]

theorem clockLost_of_running (h : d.ticks < (d.sdf n).lastClock + 1200) : clockLost n d = d := by
  simp [clockLost, Dev.elapsed, not_le.2 h]

/-- A loss is flagged and presented, and its input counts as tripped. -/
theorem clockLost_leaves (hn : n < 65536) (hen : d.fld (SDF_CFG_EN n) = 1) (hckout : d.fld (SDF_CFG_CKOUT n) = 0)
    (hlost : (d.sdf n).lost = false) (h : (d.sdf n).lastClock + 1200 ≤ d.ticks) :
    (clockLost n d).fld (SDF_ISTAT_CKLOSS n) = 1 ∧ (clockLost n d).hasFault fiCkloss n = true ∧
    (clockLost n d).sdfTripped n = true := by
  rw [clockLost_of_stopped hen hckout hlost h]
  refine ⟨(fld_present ..).trans (fld_flag _), (Dev.awaits_present _ fiCkloss hn).hasFault, ?_⟩
  have hon : ((d.setSdf n { d.sdf n with lost := true }).flag (SDF_ISTAT_CKLOSS n)).on (SDF_CFG_EN n) = true :=
    on_of_one ((fld_setFld_apart _ _ Fld.apart_register).trans hen)
  have hsdf := congrArg SdfInput.lost (sdf_setSdf_same d n { d.sdf n with lost := true })
  exact Bool.and_eq_true_iff.2 ⟨hon, by rw [Bool.or_eq_true]; exact .inr hsdf⟩

end

/-! ### Snapshots (R302) -/

section
variable {d : Dev} {n : Nat} {setB : Bool}

/-- The register that holds a filter's output in a snapshot set. -/
def snapFld (setB : Bool) (n : Nat) : Fld := if setB then SDF_SNAPB_DATA n else SDF_SNAPA_DATA n

/-- The input after a snapshot of its filter. -/
def Dev.snapInput (d : Dev) (n : Nat) : SdfInput :=
  if d.on (SDF_CFG_RST n) then { d.sdf n with toNext := d.fld (SDF_CFG_DEC n) } else d.sdf n

/-- The device after a snapshot of one filter. -/
def Dev.snapOne (setB : Bool) (d : Dev) (n : Nat) : Dev :=
  let d := d.setFld (snapFld setB n) (d.fld (SDF_DATA_DATA n))
  if d.on (SDF_CFG_RST n) then d.setSdf n { d.sdf n with toNext := d.fld (SDF_CFG_DEC n) } else d

theorem snapFld_apart {m : Nat} (h : m ≠ n) : (snapFld setB n).Apart (snapFld setB m) := by
  left
  cases setB
  · show 0x090800 + 0x4 * m ≠ 0x090800 + 0x4 * n
    omega
  · show 0x090900 + 0x4 * m ≠ 0x090900 + 0x4 * n
    omega

theorem snapFld_apart_below {f : Fld} (h : f.addr < 0x090800) : (snapFld setB n).Apart f := by
  left
  cases setB
  · show f.addr ≠ 0x090800 + 0x4 * n
    omega
  · show f.addr ≠ 0x090900 + 0x4 * n
    omega

theorem fld_snapFld_setFld (d : Dev) (f : Fld) :
    (d.setFld (snapFld setB n) (d.fld f)).fld (snapFld setB n) = d.fld f % 2 ^ 32 := by
  cases setB <;> exact fld_setFld_cut d _

/-- `e` has the events and the registers below the snapshots of `d`. -/
structure Dev.SnapFrame (d e : Dev) : Prop where
  evt : e.evt = d.evt
  fld : ∀ f : Fld, f.addr < 0x090800 → e.fld f = d.fld f

theorem Dev.SnapFrame.snapInput {e : Dev} (h : d.SnapFrame e) (hn : n < 36) (hsdf : e.sdf n = d.sdf n) :
    e.snapInput n = d.snapInput n := by
  have hcfg : 0x090100 + 0x20 * n < 0x090800 := by omega
  rw [Dev.snapInput, Dev.snapInput, on_of_fld (h.fld (SDF_CFG_RST n) hcfg), h.fld (SDF_CFG_DEC n) hcfg, hsdf]

theorem snapOne_leaves (d : Dev) (hn : n < 36) : d.SnapFrame (d.snapOne setB n) ∧
    (d.snapOne setB n).fld (snapFld setB n) = d.fld (SDF_DATA_DATA n) ∧ (d.snapOne setB n).sdf n = d.snapInput n ∧
    ∀ m, m ≠ n → (d.snapOne setB n).fld (snapFld setB m) = d.fld (snapFld setB m) ∧ (d.snapOne setB n).sdf m = d.sdf m := by
  have hcopy : (d.setFld (snapFld setB n) (d.fld (SDF_DATA_DATA n))).fld (snapFld setB n) = d.fld (SDF_DATA_DATA n) :=
    (fld_snapFld_setFld d _).trans (Nat.mod_eq_of_lt (fld_lt d (SDF_DATA_DATA n)))
  have hframe : d.SnapFrame (d.setFld (snapFld setB n) (d.fld (SDF_DATA_DATA n))) :=
    ⟨rfl, fun _ h => fld_setFld_apart d _ (snapFld_apart_below h)⟩
  have hother : ∀ m, m ≠ n → (d.setFld (snapFld setB n) (d.fld (SDF_DATA_DATA n))).fld (snapFld setB m) =
      d.fld (snapFld setB m) := fun m hm => fld_setFld_apart d _ (snapFld_apart hm)
  have hinput := hframe.snapInput hn rfl
  unfold Dev.snapInput at hinput
  unfold Dev.snapOne
  extract_lets d1
  rw [Dev.snapInput, ← hinput]
  split
  · exact ⟨⟨hframe.evt, hframe.fld⟩, hcopy, sdf_setSdf_same d1 n _, fun m hm => ⟨hother m hm, sdf_setSdf_ne d1 _ hm⟩⟩
  · exact ⟨hframe, hcopy, rfl, fun m hm => ⟨hother m hm, rfl⟩⟩

theorem foldl_snapOne : ∀ {l : List Nat} (d : Dev), l.Nodup → (∀ n ∈ l, n < 36) →
    d.SnapFrame (l.foldl (Dev.snapOne setB) d) ∧
    (∀ n ∈ l, (l.foldl (Dev.snapOne setB) d).fld (snapFld setB n) = d.fld (SDF_DATA_DATA n) ∧
      (l.foldl (Dev.snapOne setB) d).sdf n = d.snapInput n) ∧
    ∀ n, n ∉ l → (l.foldl (Dev.snapOne setB) d).fld (snapFld setB n) = d.fld (snapFld setB n) ∧
      (l.foldl (Dev.snapOne setB) d).sdf n = d.sdf n
  | [], _, _, _ => ⟨⟨rfl, fun _ _ => rfl⟩, fun _ h => absurd h List.not_mem_nil, fun _ _ => ⟨rfl, rfl⟩⟩
  | m :: l, d, hl, hlt => by
    obtain ⟨hnot, hl⟩ := List.nodup_cons.1 hl
    obtain ⟨hframe, hcopy, hinput, hothers⟩ := snapOne_leaves (setB := setB) d (hlt m List.mem_cons_self)
    obtain ⟨hframe', hlisted, hrest⟩ :=
      foldl_snapOne (d.snapOne setB m) hl fun n hn => hlt n (List.mem_cons_of_mem m hn)
    refine ⟨⟨hframe'.evt.trans hframe.evt, fun f hf => (hframe'.fld f hf).trans (hframe.fld f hf)⟩, fun n hn => ?_,
      fun n hn => ?_⟩
    · rcases List.mem_cons.1 hn with rfl | hin
      · exact ⟨(hrest n hnot).1.trans hcopy, (hrest n hnot).2.trans hinput⟩
      · have hne : n ≠ m := fun h => hnot (h ▸ hin)
        have hn36 := hlt n hn
        have hdata : 0x090108 + 0x20 * n < 0x090800 := by omega
        exact ⟨(hlisted n hin).1.trans (hframe.fld (SDF_DATA_DATA n) hdata),
          (hlisted n hin).2.trans (hframe.snapInput hn36 (hothers n hne).2)⟩
    · obtain ⟨hne, hout⟩ := not_or.1 (mt List.mem_cons.2 hn)
      exact ⟨(hrest n hout).1.trans (hothers n hne).1, (hrest n hout).2.trans (hothers n hne).2⟩

/-- The filters of a snapshot set. -/
def Dev.snapMask (d : Dev) (setB : Bool) : Nat :=
  if setB then d.fld SDF_SNAPMB0_MASK + d.fld SDF_SNAPMB1_MASK * 2 ^ 32
  else d.fld SDF_SNAPMA0_MASK + d.fld SDF_SNAPMA1_MASK * 2 ^ 32

/-- The registers of the time of a snapshot set. -/
def snapLo (setB : Bool) : Fld := if setB then SDF_SNAPTBLO_TIME else SDF_SNAPTALO_TIME
def snapHi (setB : Bool) : Fld := if setB then SDF_SNAPTBHI_TIME else SDF_SNAPTAHI_TIME

/-- The consumer input that triggers a snapshot set. -/
def snapLatch (setB : Bool) : Nat := if setB then 135 else 134

/-- The device with a snapshot set's trigger taken and its time recorded. -/
def Dev.snapTaken (d : Dev) (setB : Bool) : Dev :=
  (d.setLatch (snapLatch setB) none).setPair64 (snapLo setB) (snapHi setB) d.lanternTime

theorem snapshot_of_idle (h : d.latch (snapLatch setB) = none) : snapshot setB d = d := by
  unfold snapLatch at h
  simp [snapshot, h]

theorem snapshot_of_triggered (h : d.latch (snapLatch setB) ≠ none) :
    snapshot setB d = (bitsList (d.snapMask setB) 36).foldl (Dev.snapOne setB) (d.snapTaken setB) := by
  unfold snapLatch at h
  simp only [snapshot, Option.isNone_iff_eq_none, h, if_false]
  cases setB <;> rfl

/-- Taking a snapshot's trigger leaves every filter and its output. -/
theorem snapTaken_leaves (d : Dev) (setB : Bool) : (d.snapTaken setB).latch (snapLatch setB) = none ∧
    (d.snapTaken setB).fld64 (snapLo setB) (snapHi setB) = d.lanternTime % 2 ^ 64 ∧
    (d.snapTaken setB).drive = d.drive ∧
    ∀ f : Fld, 0x090100 ≤ f.addr → (d.snapTaken setB).fld f = d.fld f := by
  refine ⟨latch_setLatch_same d _ none, ?_, rfl, fun f hf => ?_⟩
  · cases setB <;> exact fld64_setPair64 _ _ (by decide)
  · have hlo : (snapLo setB).Apart f := by left; cases setB <;> exact (lt_of_lt_of_le (by decide) hf).ne'
    have hhi : (snapHi setB).Apart f := by left; cases setB <;> exact (lt_of_lt_of_le (by decide) hf).ne'
    exact (fld_setFld_apart _ _ hhi).trans (fld_setFld_apart _ _ hlo)

/-- A triggered snapshot set takes its trigger, the time, and the output of each of its filters. -/
theorem snapshot_leaves (hn : n < 36) (h : d.latch (snapLatch setB) ≠ none) :
    let e := snapshot setB d
    e.latch (snapLatch setB) = none ∧ e.fld64 (snapLo setB) (snapHi setB) = d.lanternTime % 2 ^ 64 ∧
    ((d.snapMask setB).testBit n = true → e.fld (snapFld setB n) = d.fld (SDF_DATA_DATA n) ∧
      (d.fld (SDF_CFG_RST n) = 1 → (e.sdf n).toNext = d.fld (SDF_CFG_DEC n) ∧ (e.sdf n).bits = (d.sdf n).bits)) := by
  obtain ⟨hlatch, htime, hdrive, hfld⟩ := snapTaken_leaves d setB
  have hl : (bitsList (d.snapMask setB) 36).Nodup := List.nodup_range.filter _
  obtain ⟨hframe, hlisted, -⟩ := foldl_snapOne (setB := setB) (d.snapTaken setB) hl fun m hm => (mem_bitsList.1 hm).1
  rw [snapshot_of_triggered h]
  have hlo : (snapLo setB).addr < 0x090800 := by cases setB <;> decide
  have hhi : (snapHi setB).addr < 0x090800 := by cases setB <;> decide
  refine ⟨?_, ?_, fun hbit => ?_⟩
  · rw [Dev.latch, hframe.evt]
    exact hlatch
  · rw [Dev.fld64, hframe.fld _ hlo, hframe.fld _ hhi]
    exact htime
  · have hcfg : 0x090100 ≤ 0x090100 + 0x20 * n := by omega
    have hdata : 0x090100 ≤ 0x090108 + 0x20 * n := by omega
    obtain ⟨hcopy, hinput⟩ := hlisted n (mem_bitsList.2 ⟨hn, hbit⟩)
    refine ⟨hcopy.trans (hfld (SDF_DATA_DATA n) hdata), fun hrst => ?_⟩
    have hon : (d.snapTaken setB).on (SDF_CFG_RST n) = true := on_of_one ((hfld (SDF_CFG_RST n) hcfg).trans hrst)
    rw [hinput, Dev.snapInput, hon, sdf_of_drive hdrive, hfld (SDF_CFG_DEC n) hcfg]
    exact ⟨rfl, rfl⟩

end

end Sys2Proof.Machine
end

section
/-! PROOFS. Converters: how an SAR converter starts a sequence and what the end of one leaves (R303 to R305). -/

namespace Sys2Proof.Machine

section
variable {d : Dev} {c : Nat}

/-! ### A converter read back -/

theorem adc_setAdc_same (d : Dev) (c : Nat) (x : AdcSt) : (d.setAdc c x).adc c = x := arrGet_arrSet_same _ _ _ _

/-! ### Starts (R304, R305) -/

/-- The first edge of a sequence that starts now. -/
def Dev.seqStart (d : Dev) (c : Nat) : Nat := (d.adc c).lastEnd.getD ((d.lanternTime / 96 + 1) * 96)

theorem startSeq_eq (d : Dev) (c : Nat) (trig : Option Trig) : d.startSeq c trig =
    d.setAdc c { seq := some { t0 := d.seqStart c, slots := d.adcSlots c, trig := trig }, lastEnd := none } := by
  unfold Dev.startSeq Dev.seqStart
  cases (d.adc c).lastEnd <;> rfl

theorem seq_startSeq (d : Dev) (c : Nat) (trig : Option Trig) :
    ((d.startSeq c trig).adc c).seq = some { t0 := d.seqStart c, slots := d.adcSlots c, trig := trig } := by
  rw [startSeq_eq, adc_setAdc_same]

theorem startSeq_frame (d : Dev) (c : Nat) (trig : Option Trig) :
    (d.startSeq c trig).io = d.io ∧ (d.startSeq c trig).evt = d.evt := by
  rw [startSeq_eq]
  exact ⟨rfl, rfl⟩

section
variable (hen : d.fld (ADC_CFG_EN c) = 1)
include hen

theorem adcStart_of_busy (hseq : (d.adc c).seq ≠ none) (htrig : d.fld (ADC_CFG_TRIG c) = 1) :
    adcStart c d = d.flag (ADC_ISTAT_SWOVR c) := by
  simp [adcStart, on_of_one hen, htrig, hseq]

variable (hseq : (d.adc c).seq = none)
include hseq

theorem adcSequenceStart_continuous (htrig : d.fld (ADC_CFG_TRIG c) = 2) : adcSequenceStart c d = d.startSeq c none := by
  simp [adcSequenceStart, Dev.adcIdle, on_of_one hen, hseq, htrig]

theorem adcSequenceStart_triggered {tr : Trig} (htrig : d.fld (ADC_CFG_TRIG c) = 0) (h : d.latch (128 + c) = some tr) :
    adcSequenceStart c d = (d.setLatch (128 + c) none).startSeq c (some tr) := by
  simp [adcSequenceStart, Dev.adcIdle, on_of_one hen, hseq, htrig, h]

theorem adcSequenceStart_waiting (htrig : d.fld (ADC_CFG_TRIG c) = 0) (h : d.latch (128 + c) = none) :
    adcSequenceStart c d = d := by
  simp [adcSequenceStart, Dev.adcIdle, on_of_one hen, hseq, htrig, h]

theorem adcStart_of_idle (htrig : d.fld (ADC_CFG_TRIG c) = 1) : adcStart c d = d.startSeq c none := by
  simp [adcStart, on_of_one hen, htrig, hseq]

end

/-! ### Results (R304) -/

section
variable {n : Nat} {codes : Nat → Nat} {len : Nat}

/-- The device with the count of sequences, and its code where the sequence has slot `j`, in result `j`. -/
def Dev.resultOne (c n len : Nat) (codes : Nat → Nat) (d : Dev) (j : Nat) : Dev :=
  let d := d.setFld (ADC_RES_SEQCNT c j) n
  if j < len then d.setFld (ADC_RES_DATA c j) (codes j) else d

/-- A result is written in its own register alone. -/
theorem resultOne_frame (d : Dev) (j : Nat) : (d.resultOne c n len codes j).evt = d.evt ∧
    (d.resultOne c n len codes j).drive = d.drive ∧ (d.resultOne c n len codes j).lantern = d.lantern ∧
    ∀ k, k ≠ j → ∀ lo w, (d.resultOne c n len codes j).fld ⟨0x0A0108 + 0x40 * c + 0x4 * k, lo, w⟩ =
      d.fld ⟨0x0A0108 + 0x40 * c + 0x4 * k, lo, w⟩ := by
  have hcount : ∀ k, k ≠ j → ∀ lo w, (d.setFld (ADC_RES_SEQCNT c j) n).fld ⟨0x0A0108 + 0x40 * c + 0x4 * k, lo, w⟩ =
      d.fld ⟨0x0A0108 + 0x40 * c + 0x4 * k, lo, w⟩ := fun k hk lo w =>
    fld_setFld_apart _ _ (.inl (by show 0x0A0108 + 0x40 * c + 0x4 * k ≠ 0x0A0108 + 0x40 * c + 0x4 * j; omega))
  unfold Dev.resultOne
  extract_lets d1
  split
  · refine ⟨rfl, rfl, rfl, fun k hk lo w => (fld_setFld_apart _ _ (.inl ?_)).trans (hcount k hk lo w)⟩
    show 0x0A0108 + 0x40 * c + 0x4 * k ≠ 0x0A0108 + 0x40 * c + 0x4 * j
    omega
  · exact ⟨rfl, rfl, rfl, hcount⟩

theorem resultOne_leaves (d : Dev) (j : Nat) : (d.resultOne c n len codes j).fld (ADC_RES_SEQCNT c j) = n % 2 ^ 16 ∧
    (j < len → (d.resultOne c n len codes j).fld (ADC_RES_DATA c j) = codes j % 2 ^ 16) := by
  have hcount : (d.setFld (ADC_RES_SEQCNT c j) n).fld (ADC_RES_SEQCNT c j) = n % 2 ^ 16 := fld_setFld_cut d n
  unfold Dev.resultOne
  extract_lets d1
  split
  · exact ⟨(fld_setFld_apart _ _ Fld.apart_bits).trans hcount, fun _ => fld_setFld_cut _ _⟩
  · next h => exact ⟨hcount, fun hj => absurd hj h⟩

/-- Results written one after another each read as written. -/
theorem foldl_resultOne : ∀ {l : List Nat} (d : Dev), l.Nodup →
    let e := l.foldl (Dev.resultOne c n len codes) d
    (e.evt = d.evt ∧ e.drive = d.drive ∧ e.lantern = d.lantern) ∧
    (∀ j ∈ l, e.fld (ADC_RES_SEQCNT c j) = n % 2 ^ 16 ∧ (j < len → e.fld (ADC_RES_DATA c j) = codes j % 2 ^ 16)) ∧
    ∀ k, k ∉ l → ∀ lo w, e.fld ⟨0x0A0108 + 0x40 * c + 0x4 * k, lo, w⟩ = d.fld ⟨0x0A0108 + 0x40 * c + 0x4 * k, lo, w⟩
  | [], _, _ => ⟨⟨rfl, rfl, rfl⟩, fun _ h => absurd h List.not_mem_nil, fun _ _ _ _ => rfl⟩
  | m :: l, d, hl => by
    obtain ⟨hnot, hl⟩ := List.nodup_cons.1 hl
    obtain ⟨hevt, hdrive, hlantern, hothers⟩ := resultOne_frame (c := c) (n := n) (len := len) (codes := codes) d m
    obtain ⟨hcount, hcode⟩ := resultOne_leaves (c := c) (n := n) (len := len) (codes := codes) d m
    obtain ⟨⟨hevt', hdrive', hlantern'⟩, hlisted, hrest⟩ := foldl_resultOne (d.resultOne c n len codes m) hl
    refine ⟨⟨hevt'.trans hevt, hdrive'.trans hdrive, hlantern'.trans hlantern⟩, fun j hj => ?_, fun k hk lo w => ?_⟩
    · rcases List.mem_cons.1 hj with rfl | hin
      · exact ⟨(hrest j hnot 16 16).trans hcount, fun h => (hrest j hnot 0 16).trans (hcode h)⟩
      · exact hlisted j hin
    · obtain ⟨hne, hout⟩ := not_or.1 (mt List.mem_cons.2 hk)
      exact (hrest k hout lo w).trans (hothers k hne lo w)

end

/-! ### Samples offered to timebases (R257, R265) -/

/-- `e` has the registers, the events and the drive I/O of `d`. -/
structure Dev.ButLantern (d e : Dev) : Prop where
  io : e.io = d.io
  evt : e.evt = d.evt
  drive : e.drive = d.drive

theorem butLantern_offerSample (d : Dev) (src sel : Nat) (smp : Sample) : d.ButLantern (d.offerSample src sel smp) := by
  refine foldl_keeps (fun e : Dev => d.ButLantern e) _ (fun e t h => ?_) _ d ⟨rfl, rfl, rfl⟩
  split
  · exact ⟨h.io, h.evt, h.drive⟩
  · exact h

theorem butLantern_offerConversion (d : Dev) (ch code time : Nat) : d.ButLantern (d.offerConversion ch code time) := by
  refine foldl_keeps (fun e : Dev => d.ButLantern e) _ (fun e t h => ?_) _ d ⟨rfl, rfl, rfl⟩
  split
  · exact ⟨h.io, h.evt, h.drive⟩
  · exact h

/-! ### The end of a sequence (R304) -/

section
variable {q : AdcSeq} {volts : List Int}

/-- The device with a sequence's results, its stamp and DONE. -/
def Dev.seqRecorded (d : Dev) (c : Nat) (q : AdcSeq) (volts : List Int) : Dev :=
  (((List.range 4).foldl (Dev.resultOne c (d.fld (ADC_RES_SEQCNT c 0) + 1) q.slots.length fun j => adcCode (nth 0 volts j)) d
    ).setPair64 (ADC_STAMPLO_STAMP c) (ADC_STAMPHI_STAMP c) (q.t0 + 576)).flag (ADC_ISTAT_DONE c)

/-- The end of the sequence before, where the next one starts there. -/
def Dev.seqChain (d : Dev) (c stop : Nat) : Option Nat :=
  if d.fld (ADC_CFG_TRIG c) = 2 || (d.fld (ADC_CFG_TRIG c) = 0 && (d.latch (128 + c)).isSome) then some stop else none

/-- The device with a sequence's event produced, and its converter idle. -/
def Dev.seqEnded (d : Dev) (c : Nat) (q : AdcSeq) : Dev :=
  let e := d.consequence (292 + c) (128 + c) q.trig (some (q.t0 + 576))
  e.setAdc c { seq := none, lastEnd := e.seqChain c (q.t0 + 1920 * q.slots.length) }

theorem adcDone_of_due (hseq : (d.adc c).seq = some q) (h : q.t0 + 1920 * q.slots.length ≤ d.lanternTime) :
    adcDone c volts d = (List.range q.slots.length).foldl (fun d j => d.offerConversion (4 * c + nth 0 q.slots j)
      (adcCode (nth 0 volts j)) (q.t0 + 1920 * j + 576)) ((d.seqRecorded c q volts).seqEnded c q) := by
  simp only [adcDone, hseq, not_lt.2 h, if_false]
  rfl

theorem adcDone_of_early (hseq : (d.adc c).seq = some q) (h : d.lanternTime < q.t0 + 1920 * q.slots.length) :
    adcDone c volts d = d := by
  simp only [adcDone, hseq, h, if_true]

theorem adcCode_lt (v : Int) : adcCode v < 2 ^ 16 := by
  unfold adcCode
  split <;> omega

/-- Every result reads as recorded, with the stamp and DONE. -/
theorem seqRecorded_leaves (d : Dev) (c : Nat) (volts : List Int) (hlen : q.slots.length ≤ 4) :
    let e := d.seqRecorded c q volts
    (∀ j < q.slots.length, e.fld (ADC_RES_DATA c j) = adcCode (nth 0 volts j)) ∧
    (∀ j < 4, e.fld (ADC_RES_SEQCNT c j) = (d.fld (ADC_RES_SEQCNT c 0) + 1) % 65536) ∧
    e.fld64 (ADC_STAMPLO_STAMP c) (ADC_STAMPHI_STAMP c) = (q.t0 + 576) % 2 ^ 64 ∧ e.fld (ADC_ISTAT_DONE c) = 1 := by
  obtain ⟨-, hresults, -⟩ := foldl_resultOne (c := c) (n := d.fld (ADC_RES_SEQCNT c 0) + 1) (len := q.slots.length)
    (codes := fun j => adcCode (nth 0 volts j)) d (List.nodup_range (n := 4))
  unfold Dev.seqRecorded
  generalize (List.range 4).foldl _ d = x at hresults ⊢
  have hkept : ∀ j < 4, ∀ lo w, ((x.setPair64 (ADC_STAMPLO_STAMP c) (ADC_STAMPHI_STAMP c) (q.t0 + 576)).flag
      (ADC_ISTAT_DONE c)).fld ⟨0x0A0108 + 0x40 * c + 0x4 * j, lo, w⟩ = x.fld ⟨0x0A0108 + 0x40 * c + 0x4 * j, lo, w⟩ := by
    intro j hj lo w
    rw [flag_eq, setPair64_eq]
    refine (fld_setFld_apart _ _ (.inl ?_)).trans ((fld_setFld_apart _ _ (.inl ?_)).trans (fld_setFld_apart _ _ (.inl ?_)))
    · show 0x0A0108 + 0x40 * c + 0x4 * j ≠ 0x0A0120 + 0x40 * c
      omega
    · show 0x0A0108 + 0x40 * c + 0x4 * j ≠ 0x0A011C + 0x40 * c
      omega
    · show 0x0A0108 + 0x40 * c + 0x4 * j ≠ 0x0A0118 + 0x40 * c
      omega
  have hstamp : (x.setPair64 (ADC_STAMPLO_STAMP c) (ADC_STAMPHI_STAMP c) (q.t0 + 576)).fld64 (ADC_STAMPLO_STAMP c)
      (ADC_STAMPHI_STAMP c) = (q.t0 + 576) % 2 ^ 64 := fld64_setPair64 x _ (by omega)
  refine ⟨fun j hj => ?_, fun j hj => ?_, ?_, fld_flag _⟩
  · have hj4 := hj.trans_le hlen
    exact (hkept j hj4 0 16).trans (((hresults j (List.mem_range.2 hj4)).2 hj).trans (Nat.mod_eq_of_lt (adcCode_lt _)))
  · exact (hkept j hj 16 16).trans (hresults j (List.mem_range.2 hj)).1
  · rw [← hstamp]
    exact congrArg₂ (· + · * 2 ^ 32) (fld_setFld_apart _ _ Fld.apart_register) (fld_setFld_apart _ _ Fld.apart_register)

/-- The end of a sequence leaves its results, its stamp with DONE, an idle converter and the event. -/
theorem adcDone_leaves (hseq : (d.adc c).seq = some q) (hlen : q.slots.length ≤ 4)
    (h : q.t0 + 1920 * q.slots.length ≤ d.lanternTime) :
    let e := adcDone c volts d
    (∀ j < q.slots.length, e.fld (ADC_RES_DATA c j) = adcCode (nth 0 volts j)) ∧
    (∀ j < 4, e.fld (ADC_RES_SEQCNT c j) = (d.fld (ADC_RES_SEQCNT c 0) + 1) % 65536) ∧
    e.fld64 (ADC_STAMPLO_STAMP c) (ADC_STAMPHI_STAMP c) = (q.t0 + 576) % 2 ^ 64 ∧ e.fld (ADC_ISTAT_DONE c) = 1 ∧
    (e.adc c).seq = none ∧ ∃ ev ∈ e.evt.produced, ev.prod = 292 + c ∧ ev.stamp = some (q.t0 + 576) := by
  obtain ⟨hdata, hcount, hstamp, hdone⟩ := seqRecorded_leaves (q := q) d c volts hlen
  have hoffered : ((d.seqRecorded c q volts).seqEnded c q).ButLantern (adcDone c volts d) := by
    rw [adcDone_of_due hseq h]
    refine foldl_keeps (fun e : Dev => Dev.ButLantern _ e) _ (fun e j he => ?_) _ _ ⟨rfl, rfl, rfl⟩
    have hone := butLantern_offerConversion e (4 * c + nth 0 q.slots j) (adcCode (nth 0 volts j)) (q.t0 + 1920 * j + 576)
    exact ⟨hone.io.trans he.io, hone.evt.trans he.evt, hone.drive.trans he.drive⟩
  have hfld := fld_of_io (d := d.seqRecorded c q volts) hoffered.io
  refine ⟨fun j hj => (hfld _).trans (hdata j hj), fun j hj => (hfld _).trans (hcount j hj), ?_, (hfld _).trans hdone, ?_, ?_⟩
  · rw [Dev.fld64, hfld, hfld]
    exact hstamp
  · rw [Dev.adc, hoffered.drive]
    exact congrArg AdcSt.seq (adc_setAdc_same _ c _)
  · rw [hoffered.evt]
    exact ⟨_, List.mem_append_right _ List.mem_cons_self, rfl, rfl⟩

end

end

end Sys2Proof.Machine
end

section
/-! PROOFS. Positions: what a position interface makes of a resolver's sample, of the edges of A, B and Z, of a due delivery
and of an SSI frame (R306 to R311). -/

namespace Sys2Proof.Machine

section
variable {d : Dev} {i : Nat}

/-! ### An interface read back -/

theorem posIf_setPosIf_same (d : Dev) (i : Nat) (x : PosIf) : (d.setPosIf i x).posIf i = x := arrGet_arrSet_same _ _ _ _

@[simp] theorem fld_setPosIf (d : Dev) (i : Nat) (x : PosIf) (f : Fld) : (d.setPosIf i x).fld f = d.fld f := rfl

/-! ### Errors and deliveries -/

theorem fld_posErr {a lo : Nat} (d : Dev) (i : Nat) (h : lo + 1 ≤ 32 := by decide) :
    (d.posErr i ⟨a, lo, 1⟩).fld ⟨a, lo, 1⟩ = 1 := (fld_present ..).trans (fld_flag d h)

theorem hasFault_posErr (d : Dev) (f : Fld) (hi : i < 65536) : (d.posErr i f).hasFault fiPosErr i = true :=
  (Dev.awaits_present _ fiPosErr hi).hasFault

theorem posIf_posErr (d : Dev) (i : Nat) (f : Fld) : (d.posErr i f).posIf i = d.posIf i := rfl

theorem fld_posErr_apart {f f' : Fld} (h : f.Apart f') : (d.posErr i f).fld f' = d.fld f' :=
  (fld_present ..).trans (fld_setFld_apart d 1 h)

/-- The device with a sample in POS and REV, before it is told. -/
def Dev.sampleShown (d : Dev) (i angle rev : Nat) (revOk : Bool) : Dev :=
  ((d.setFld (POSIF_POS_ANGLE i) angle).setFld (POSIF_REV_REV i) rev).setFld (POSIF_REV_REVOK i) (if revOk then 1 else 0)

/-- A sample delivered stands in POS and REV, and its event follows. -/
theorem deliverSample_leaves (d : Dev) (i angle rev : Nat) (revOk : Bool) (time : Nat) :
    let e := d.deliverSample i angle rev revOk time
    e.fld (POSIF_POS_ANGLE i) = angle % 2 ^ 32 ∧ e.fld (POSIF_REV_REV i) = rev % 2 ^ 16 ∧
    e.fld (POSIF_REV_REVOK i) = (if revOk then 1 else 0) ∧
    e.evt.produced = d.evt.produced ++ [{ prod := 298 + i, stamp := some time }] := by
  have hoffered := butLantern_offerSample ((d.sampleShown i angle rev revOk).produce { prod := 298 + i, stamp := some time })
    1 i { angle := angle * 65536, rev := rev, revOk := revOk, time := time }
  have hfld := fld_of_io (d := d.sampleShown i angle rev revOk) hoffered.io
  have hok : (if revOk then 1 else 0) % 2 ^ 1 = if revOk then 1 else 0 := by cases revOk <;> rfl
  refine ⟨(hfld _).trans ?_, (hfld _).trans ?_, (hfld _).trans ((fld_setFld_cut _ _).trans hok),
    congrArg EvtSt.produced hoffered.evt⟩
  · exact (fld_setFld_apart _ _ Fld.apart_register).trans ((fld_setFld_apart _ _ Fld.apart_register).trans (fld_setFld_cut d _))
  · exact (fld_setFld_apart _ _ Fld.apart_bits).trans (fld_setFld_cut _ _)

/-! ### Resolvers (R306) -/

theorem angleBits_lt : ∀ (n : Nat) (c s : Int), (angleBits n c s).1 < 2 ^ n
  | 0, _, _ => Nat.one_pos
  | n + 1, c, s => by
    have ih := angleBits_lt n (c * c - s * s) (2 * c * s)
    rw [angleBits, pow_succ]
    dsimp only
    split <;> omega

/-- A coordinate of a sample, negated at a negative peak. -/
def peakOf (neg : Bool) (v : BitVec 16) : Int := if neg then -v.toInt else v.toInt

/-- The square of a sample's amplitude. -/
def amplitude2 (sin cos : BitVec 16) : Nat :=
  sin.toInt.natAbs * sin.toInt.natAbs + cos.toInt.natAbs * cos.toInt.natAbs

theorem peakOf_eq (neg : Bool) (v : BitVec 16) : (if neg then -1 else 1) * sext 16 v.toNat = peakOf neg v := by
  rw [sext_toNat]
  cases neg <;> simp [peakOf]

theorem amplitude2_eq (neg : Bool) (sin cos : BitVec 16) :
    peakOf neg sin * peakOf neg sin + peakOf neg cos * peakOf neg cos = amplitude2 sin cos := by
  rw [amplitude2]
  push_cast
  rw [abs_mul_abs_self, abs_mul_abs_self]
  cases neg <;> simp [peakOf]

/-- The device with a free value used. -/
def Dev.usedFree (d : Dev) : Dev := { d with free := d.free + 1 }

/-- The 16-bit angle that a resolver delivers: the bits of its vector's angle, or, between two values, either. -/
def Dev.resolverAngle (d : Dev) (neg : Bool) (sin cos : BitVec 16) : Nat :=
  let r := angleBits 16 (peakOf neg cos) (peakOf neg sin)
  if !r.2 && Config.freeBit d.free then r.1 + 1 else r.1

/-- A resolver's sample by its amplitude: too low, too high or an angle. -/
theorem resolverSample_eq (hmode : d.posMode i 0 = true) (sin cos : BitVec 16) (neg : Bool) :
    resolverSample i sin.toNat cos.toNat neg d =
      if 16 * amplitude2 sin cos < 2 ^ 30 then d.posErr i (POSIF_ISTAT_AMPLO i)
      else if 361 * 2 ^ 30 < 400 * amplitude2 sin cos then d.posErr i (POSIF_ISTAT_AMPHI i)
      else d.usedFree.deliverSample i (d.resolverAngle neg sin cos % 65536 * 65536) 0 false d.lanternTime := by
  have hlow : (16 * (amplitude2 sin cos : Int) < 2 ^ 30) = (16 * amplitude2 sin cos < 2 ^ 30) := by
    rw [eq_iff_iff]
    exact_mod_cast Iff.rfl
  have hhigh : (361 * 2 ^ 30 < 400 * (amplitude2 sin cos : Int)) = (361 * 2 ^ 30 < 400 * amplitude2 sin cos) := by
    rw [eq_iff_iff]
    exact_mod_cast Iff.rfl
  simp only [resolverSample, hmode, Bool.not_true, Bool.false_eq_true, if_false, peakOf_eq, amplitude2_eq, hlow, hhigh]
  rfl

/-- An angle of 16 bits is delivered as one of the two nearest values. -/
theorem resolverAngle_cases (d : Dev) (neg : Bool) (sin cos : BitVec 16) :
    let k := (angleBits 16 (peakOf neg cos) (peakOf neg sin)).1
    d.resolverAngle neg sin cos % 65536 * 65536 = k * 65536 ∨
    d.resolverAngle neg sin cos % 65536 * 65536 = (k + 1) % 65536 * 65536 := by
  have hlt := angleBits_lt 16 (peakOf neg cos) (peakOf neg sin)
  rw [Dev.resolverAngle]
  generalize angleBits 16 (peakOf neg cos) (peakOf neg sin) = r at hlt ⊢
  dsimp only
  split
  · exact .inr rfl
  · exact .inl (congrArg (· * 65536) (Nat.mod_eq_of_lt hlt))

/-! ### Edges of A and B (R307) -/

section
variable {a b : Bool} (hmode : d.posMode i 1 = true)
include hmode

theorem abzEdge_double (ha : a ≠ (d.posIf i).a) (hb : b ≠ (d.posIf i).b) :
    abzEdge i a b d = (d.setPosIf i { d.posIf i with a := a, b := b }).posErr i (POSIF_ISTAT_QERR i) := by
  simp [abzEdge, hmode, ha, hb]

/-- A single change of A or B counts by one. -/
theorem abzEdge_single {up : Bool} (hchange : (a ≠ (d.posIf i).a ∧ b = (d.posIf i).b ∧ up = (a != (d.posIf i).b)) ∨
    (a = (d.posIf i).a ∧ b ≠ (d.posIf i).b ∧ up = decide (b = (d.posIf i).a))) :
    (abzEdge i a b d).fld (POSIF_COUNT_COUNT i) = wrap 32 ((d.posIf i).count + (if up then 1 else -1)) ∧
    (abzEdge i a b d).evt = d.evt := by
  have hstep : ∃ x : PosIf, abzEdge i a b d = ((d.setPosIf i { d.posIf i with a := a, b := b }).setCount i
      ((d.posIf i).count + (if up then 1 else -1))).setPosIf i x := by
    rcases hchange with ⟨ha, hb, hup⟩ | ⟨ha, hb, hup⟩
    · simp only [abzEdge, hmode, hup, ← hb]
      simp [ha]
    · simp [abzEdge, hmode, ha, hb, hup]
  obtain ⟨x, hx⟩ := hstep
  rw [hx, fld_setPosIf]
  exact ⟨(fld_setFld_cut _ _).trans (Nat.mod_eq_of_lt (wrap_lt 32 _)), rfl⟩

end

/-! ### The index (R308) -/

/-- The multiple nearest to a count is one, at most half a revolution away. -/
theorem nearestMultiple_spec {cpr : Int} (h : 0 < cpr) (n : Int) (high : Bool) :
    nearestMultiple cpr n high % cpr = 0 ∧ 2 * ((nearestMultiple cpr n high - n).natAbs : Int) ≤ cpr := by
  have hlt := Int.emod_lt_of_pos n h
  have hnonneg := Int.emod_nonneg n h.ne'
  have hmultiple : (n - n % cpr) % cpr = 0 := Int.emod_eq_zero_of_dvd (Int.dvd_self_sub_emod)
  unfold nearestMultiple
  extract_lets r
  split
  · next hnear =>
    simp only [Bool.or_eq_true, Bool.and_eq_true, decide_eq_true_eq] at hnear
    exact ⟨hmultiple, by omega⟩
  · next hfar =>
    simp only [Bool.or_eq_true, decide_eq_true_eq, not_or, not_lt] at hfar
    exact ⟨by rw [Int.add_emod_right]; exact hmultiple, by omega⟩

/-- The device with the event of an index pulse produced. -/
def Dev.indexTold (d : Dev) (i : Nat) : Dev :=
  d.produce { prod := 310 + i, stamp := some (d.lanternTime - d.filterLag i) }

/-- The multiple of CPR that an index pulse compares the count with. -/
def Dev.indexCount (d : Dev) (i : Nat) : Int :=
  nearestMultiple (d.fld (POSIF_ABZ_CPR i)) (d.posIf i).count (Config.freeBit d.free)

section
variable (hmode : d.posMode i 1 = true)
include hmode

theorem zIndex_of_ignored
    (h : d.fld (POSIF_ABZ_ZMODE i) = 0 ∨ (d.fld (POSIF_ABZ_ZMODE i) = 1 ∧ (d.posIf i).zSeen = true)) :
    zIndex i d = d.indexTold i := by
  rcases h with h | ⟨h, hseen⟩
  · simp only [zIndex, hmode, h]
    rfl
  · simp only [zIndex, hmode, h, hseen]
    rfl

theorem zIndex_of_first (h : d.fld (POSIF_ABZ_ZMODE i) ≠ 0) (hseen : (d.posIf i).zSeen = false) :
    zIndex i d = ((d.indexTold i).setPosIf i { d.posIf i with zSeen := true }).setCount i 0 := by
  simp only [zIndex, hmode, h, hseen]
  rfl

theorem zIndex_of_later (hzero : d.fld (POSIF_ABZ_ZMODE i) ≠ 0) (hone : d.fld (POSIF_ABZ_ZMODE i) ≠ 1)
    (hseen : (d.posIf i).zSeen = true) :
    zIndex i d = if d.indexCount i = (d.posIf i).count then (d.indexTold i).usedFree
      else ((d.indexTold i).usedFree.setCount i (d.indexCount i)).posErr i (POSIF_ISTAT_ZERR i) := by
  simp only [zIndex, hmode, hzero, hone, hseen]
  rfl

/-- Whatever it makes of the count, an index pulse's event is produced. -/
theorem evt_zIndex : (zIndex i d).evt = (d.indexTold i).evt := by
  by_cases hzero : d.fld (POSIF_ABZ_ZMODE i) = 0
  · rw [zIndex_of_ignored hmode (.inl hzero)]
  · cases hseen : (d.posIf i).zSeen with
    | false =>
      rw [zIndex_of_first hmode hzero hseen]
      rfl
    | true =>
      by_cases hone : d.fld (POSIF_ABZ_ZMODE i) = 1
      · rw [zIndex_of_ignored hmode (.inr ⟨hone, hseen⟩)]
      · rw [zIndex_of_later hmode hzero hone hseen]
        split <;> rfl

/-- The first index pulse sets the count to 0. -/
theorem posIf_zIndex_first (h : d.fld (POSIF_ABZ_ZMODE i) ≠ 0) (hseen : (d.posIf i).zSeen = false) :
    ((zIndex i d).posIf i).count = 0 ∧ ((zIndex i d).posIf i).zSeen = true := by
  have hcount (e : Dev) : (e.setCount i 0).posIf i = { e.posIf i with count := sext 32 (wrap 32 0) } :=
    posIf_setPosIf_same e i _
  rw [zIndex_of_first hmode h hseen, hcount, posIf_setPosIf_same]
  exact ⟨show sext 32 (wrap 32 0) = 0 by decide, rfl⟩

/-- A later index pulse keeps a count that is a multiple of CPR, and flags and corrects any other. -/
theorem zIndex_later_leaves (hz : d.fld (POSIF_ABZ_ZMODE i) = 2) (hseen : (d.posIf i).zSeen = true) :
    (d.indexCount i = (d.posIf i).count → (zIndex i d).posIf i = d.posIf i) ∧
    (d.indexCount i ≠ (d.posIf i).count →
      (zIndex i d).fld (POSIF_COUNT_COUNT i) = wrap 32 (d.indexCount i) ∧ (zIndex i d).fld (POSIF_ISTAT_ZERR i) = 1) := by
  rw [zIndex_of_later hmode (by rw [hz]; decide) (by rw [hz]; decide) hseen]
  refine ⟨fun h => ?_, fun h => ?_⟩
  · rw [if_pos h]
    rfl
  · rw [if_neg h]
    exact ⟨(fld_posErr_apart Fld.apart_register).trans ((fld_setFld_cut _ _).trans (Nat.mod_eq_of_lt (wrap_lt 32 _))),
      fld_posErr _ i⟩

end

/-! ### Deliveries of a count (R308, R309) -/

/-- The angle of a count in parts of 2^32 of a revolution. -/
def countAngle (cpr n : Int) : Int := n % cpr * 2 ^ 32 / cpr

theorem countAngle_bounds {cpr : Int} (h : 0 < cpr) (n : Int) : 0 ≤ countAngle cpr n ∧ countAngle cpr n < 2 ^ 32 := by
  have hlt := Int.emod_lt_of_pos n h
  have hnonneg := Int.emod_nonneg n h.ne'
  exact ⟨Int.ediv_nonneg (by omega) h.le, Int.ediv_lt_of_lt_mul h (by nlinarith)⟩

theorem abzDelivery_of_early (h : d.lantern.lt < (d.posIf i).lastDeliver + d.fld (POSIF_CFG_SPER i)) :
    abzDelivery i d = d := by
  simp [abzDelivery, h]

theorem abzDelivery_of_due (hmode : d.posMode i 1 = true)
    (hdue : (d.posIf i).lastDeliver + d.fld (POSIF_CFG_SPER i) ≤ d.lantern.lt)
    (hz : d.fld (POSIF_ABZ_ZMODE i) = 0 ∨ (d.posIf i).zSeen = true) :
    abzDelivery i d = (d.setPosIf i { d.posIf i with lastDeliver := d.lantern.lt, edgeNew := false }).deliverSample i
      (countAngle (d.fld (POSIF_ABZ_CPR i)) (d.posIf i).count).toNat
      (wrap 16 ((d.posIf i).count / (d.fld (POSIF_ABZ_CPR i) : Int))) true
      (if (d.posIf i).edgeNew then (d.posIf i).edgeTime else d.lanternTime) := by
  have hknown : (d.fld (POSIF_ABZ_ZMODE i) != 0 && !(d.posIf i).zSeen) = false := by
    rcases hz with h | h <;> simp [h]
  simp only [abzDelivery, hmode, not_lt.2 hdue, fld_setPosIf, hknown]
  rfl

/-- A due delivery gives the count's angle and revolutions. -/
theorem abzDelivery_leaves (hmode : d.posMode i 1 = true)
    (hdue : (d.posIf i).lastDeliver + d.fld (POSIF_CFG_SPER i) ≤ d.lantern.lt)
    (hz : d.fld (POSIF_ABZ_ZMODE i) = 0 ∨ (d.posIf i).zSeen = true) (hcpr : 0 < d.fld (POSIF_ABZ_CPR i)) :
    let e := abzDelivery i d
    (e.fld (POSIF_POS_ANGLE i) : Int) = countAngle (d.fld (POSIF_ABZ_CPR i)) (d.posIf i).count ∧
    (e.fld (POSIF_REV_REV i) : Int) = (d.posIf i).count / (d.fld (POSIF_ABZ_CPR i) : Int) % 65536 ∧
    e.fld (POSIF_REV_REVOK i) = 1 ∧ e.evt.produced = d.evt.produced ++
      [{ prod := 298 + i, stamp := some (if (d.posIf i).edgeNew then (d.posIf i).edgeTime else d.lanternTime) }] := by
  obtain ⟨hnonneg, hlt⟩ := countAngle_bounds (Int.natCast_pos.2 hcpr) (d.posIf i).count
  intro e
  have he : e = _ := abzDelivery_of_due hmode hdue hz
  obtain ⟨hangle, hrev, hok, hevent⟩ := deliverSample_leaves
    (d.setPosIf i { d.posIf i with lastDeliver := d.lantern.lt, edgeNew := false }) i
    (countAngle (d.fld (POSIF_ABZ_CPR i)) (d.posIf i).count).toNat
    (wrap 16 ((d.posIf i).count / (d.fld (POSIF_ABZ_CPR i) : Int))) true
    (if (d.posIf i).edgeNew then (d.posIf i).edgeTime else d.lanternTime)
  rw [he, hangle, hrev]
  refine ⟨by omega, ?_, hok, hevent⟩
  rw [Nat.mod_eq_of_lt (wrap_lt 16 _), wrap]
  omega

/-! ### SSI frames (R310, R311) -/

theorem bitsNat_append_lt : ∀ (bits : List Bool) (n : Nat),
    bits.foldl (fun n b => 2 * n + b.toNat) n < (n + 1) * 2 ^ bits.length
  | [], n => by simp
  | b :: bits, n => by
    have ih := bitsNat_append_lt bits (2 * n + b.toNat)
    have hb : b.toNat ≤ 1 := b.toNat_le
    have hle : (2 * n + b.toNat + 1) * 2 ^ bits.length ≤ (2 * n + 2) * 2 ^ bits.length :=
      Nat.mul_le_mul_right _ (by omega)
    rw [List.foldl_cons, List.length_cons, pow_succ]
    linarith

theorem bitsNat_lt (bits : List Bool) : bitsNat bits < 2 ^ bits.length := by
  simpa [bitsNat] using bitsNat_append_lt bits 0

/-- The device with a frame taken that began at Lantern time `t`. -/
def Dev.frameTaken (d : Dev) (i t : Nat) : Dev :=
  d.setPosIf i { d.posIf i with lastDeliver := t / 16, frameEnd := some d.lanternTime }

/-- A frame is discarded: its line was not high, its parity is odd or its fields do not fit. -/
def Dev.frameBad (d : Dev) (i : Nat) (line : Bool) (bits : List Bool) : Prop :=
  line = false ∨ (d.fld (POSIF_SSI_PAR i) = 1 ∧ (bits.filter id).length % 2 = 1) ∨
    bits.length < d.fld (POSIF_SSI_MTB i) + d.fld (POSIF_SSI_STB i) + d.fld (POSIF_SSI_PAR i)

/-- The device with the fields of a frame that began at Lantern time `t` delivered. -/
def Dev.frameShown (d : Dev) (i : Nat) (bits : List Bool) (t : Nat) : Dev :=
  let mtb := d.fld (POSIF_SSI_MTB i)
  let stb := d.fld (POSIF_SSI_STB i)
  let status := (bits.drop (mtb + stb)).take (d.fld (POSIF_SSI_LEN i) - mtb - stb - d.fld (POSIF_SSI_PAR i))
  ((d.frameTaken i t).setFld (POSIF_REV_SSTAT i) (bitsNat status)).deliverSample i
    (bitsNat ((bits.drop mtb).take stb) * 2 ^ (32 - stb)) (bitsNat (bits.take mtb) % 65536) (decide (0 < mtb))
    (t + 48 * d.fld (POSIF_SSITIM_TLAT i))

section
variable {line : Bool} {bits : List Bool} {lag : Nat}

/-- A due frame is discarded or its fields are delivered. -/
theorem ssiFrame_reads (hmode : d.posMode i 2 = true)
    (hdue : 16 * ((d.posIf i).lastDeliver + d.fld (POSIF_CFG_SPER i)) ≤ d.lanternTime - lag)
    (hmono : ∀ f, (d.posIf i).frameEnd = some f → f + 9600 * d.fld (POSIF_SSITIM_MONO i) ≤ d.lanternTime - lag)
    (hlen : bits.length = d.fld (POSIF_SSI_LEN i)) :
    (d.frameBad i line bits →
      ssiFrame i line bits lag d = (d.frameTaken i (d.lanternTime - lag)).posErr i (POSIF_ISTAT_SERR i)) ∧
    (¬ d.frameBad i line bits → d.fld (POSIF_SSI_GRAY i) = 0 → d.fld (POSIF_SSI_STB i) ≤ 32 →
      ssiFrame i line bits lag d = d.frameShown i bits (d.lanternTime - lag)) := by
  unfold ssiFrame
  extract_lets x t waits d1 len mtb stb par cut odd raw pos status d2
  have hwaits : waits = false := by
    unfold waits
    split
    · next f hf => exact decide_eq_false (not_lt.2 (hmono f hf))
    · rfl
  have hskip : (!(d.posMode i 2) || waits || decide (t < 16 * (x.lastDeliver + d.fld (POSIF_CFG_SPER i)))) = false := by
    simp [hmode, hwaits, t, x, hdue]
  have hcut : cut = bits := List.take_of_length_le hlen.le
  have hbad : (!line || odd || decide (len < mtb + stb + par)) = true ↔ d.frameBad i line bits := by
    simp only [odd, hcut, Bool.or_eq_true, Bool.not_eq_true', Bool.and_eq_true, decide_eq_true_eq, Dev.frameBad, hlen, or_assoc]
    rfl
  rw [hskip]
  refine ⟨fun h => ?_, fun h hgray hstb => ?_⟩
  · rw [hbad.2 h]
    rfl
  · have hplain : pos = raw := if_neg (by rw [show d1.on (POSIF_SSI_GRAY i) = false from on_of_zero hgray]; decide)
    have hfields : raw.drop mtb = (bits.drop mtb).take stb ∧ raw.take mtb = bits.take mtb := by
      simp [raw, hcut, List.drop_take, List.take_take]
    have hangle (n : Nat) : d2.ssiAngle stb n = (n * 2 ^ (32 - stb), d2) := if_pos hstb
    have hshown : d2 = (d.frameTaken i t).setFld (POSIF_REV_SSTAT i)
        (bitsNat ((bits.drop (mtb + stb)).take (len - mtb - stb - par))) := by
      rw [← hcut]
      rfl
    have htlat : d2.fld (POSIF_SSITIM_TLAT i) = d.fld (POSIF_SSITIM_TLAT i) := fld_setFld_apart _ _ Fld.apart_register
    rw [Bool.eq_false_iff.2 (mt hbad.1 h), hangle, hplain, hfields.1, hfields.2]
    simp only [Bool.false_eq_true, if_false, htlat]
    rw [hshown]
    rfl

/-- A part of a frame of up to 32 bits, put at the top of 32 bits, fits them. -/
theorem bitsNat_top_lt (l : List Bool) {w : Nat} (hw : w ≤ 32) : bitsNat (l.take w) * 2 ^ (32 - w) < 2 ^ 32 := by
  have hlt : bitsNat (l.take w) < 2 ^ w :=
    (bitsNat_lt _).trans_le (Nat.pow_le_pow_right (by decide) (List.length_take_le w l))
  calc bitsNat (l.take w) * 2 ^ (32 - w) < 2 ^ w * 2 ^ (32 - w) := Nat.mul_lt_mul_of_pos_right hlt (Nat.two_pow_pos _)
    _ = 2 ^ 32 := by rw [← pow_add, Nat.add_sub_cancel' hw]

/-- A frame's fields stand in POS and REV. -/
theorem frameShown_leaves (d : Dev) (i : Nat) (bits : List Bool) (t : Nat) (hstb : d.fld (POSIF_SSI_STB i) ≤ 32) :
    let e := d.frameShown i bits t
    e.fld (POSIF_POS_ANGLE i) = bitsNat ((bits.drop (d.fld (POSIF_SSI_MTB i))).take (d.fld (POSIF_SSI_STB i))) *
      2 ^ (32 - d.fld (POSIF_SSI_STB i)) ∧
    e.fld (POSIF_REV_REV i) = bitsNat (bits.take (d.fld (POSIF_SSI_MTB i))) % 65536 ∧
    e.fld (POSIF_REV_REVOK i) = (if 0 < d.fld (POSIF_SSI_MTB i) then 1 else 0) ∧
    e.evt.produced = d.evt.produced ++ [{ prod := 298 + i, stamp := some (t + 48 * d.fld (POSIF_SSITIM_TLAT i)) }] := by
  unfold Dev.frameShown
  extract_lets mtb stb status
  obtain ⟨hangle, hrev, hok, hevent⟩ := deliverSample_leaves
    ((d.frameTaken i t).setFld (POSIF_REV_SSTAT i) (bitsNat status)) i (bitsNat ((bits.drop mtb).take stb) * 2 ^ (32 - stb))
    (bitsNat (bits.take mtb) % 65536) (decide (0 < mtb)) (t + 48 * d.fld (POSIF_SSITIM_TLAT i))
  refine ⟨hangle.trans (Nat.mod_eq_of_lt (bitsNat_top_lt _ hstb)), hrev.trans (Nat.mod_mod _ _), hok.trans ?_, hevent⟩
  simp only [decide_eq_true_eq, mtb]

end

end

end Sys2Proof.Machine
end

section
/-! PROOFS. DriveInputs: SDF inputs, converters and position interfaces (R297 to R311, `Obligations.DriveInputs`). -/

namespace Sys2Proof.Machine

/-- Settles O16: an SDF clock by the record, sum and trips that it makes, a converter by whether it is idle and its sequence
due, and a position interface by what its sample, edge or frame is. -/
theorem driveInputs : Obligations.DriveInputs := by
  refine ⟨fun s n => ?filters, fun s => ⟨fun c => ?converters, fun i => ?positions⟩⟩
  case filters =>
    intro d x
    have hn36 : (n : Nat) < 36 := n.isLt
    refine ⟨fun b hen _ c hc => ?clock, fun bits c hc => ?several, fun hen hckout hlost h => ?lost,
      fun h => completes_onClock rfl fun _ _ => clockLost_of_running h, completes_onClock rfl fun _ _ => rfl,
      fun setB => ⟨fun h => completes_onClock rfl fun _ _ => snapshot_of_idle h, fun h => ?taken⟩⟩
    case clock =>
      intro bits v
      have hexec : exec c s = s.onClock fun d => d.sdfBits n [b] := by
        simp only [List.mem_cons, List.not_mem_nil, or_false] at hc
        rcases hc with rfl | rfl | rfl <;> rfl
      refine completes_onClock hexec fun _ _ => ?_
      have hafter : (d.sdfClock n b).sdf n = d.sdfAfter n b := sdf_sdfClock d n b
      rw [sdfBits_one (on_of_one hen), hafter]
      refine ⟨rfl, fast_sdfClock d n b, rfl,
        fun hlast => ⟨toNext_of_last hlast, fun hfull => data_sdfClock_due (sdfDue_of_full hlast hfull),
          fun hshort => data_sdfClock_early (sdfDue_of_short hshort)⟩,
        fun hmore => ⟨data_sdfClock_early (sdfDue_of_more hmore), toNext_of_more hmore⟩,
        fun habove hwas hrun => ?_, fun habove hwas hrun => (high_sdfAfter hwas habove).2 hrun, high_sdfAfter_ended,
        fun hbelow hwas hrun => ?_⟩
      · have hhigh := (high_sdfAfter hwas habove).1 hrun
        exact ⟨hhigh, tripHigh_sdfClock hhigh hwas⟩
      · have hlow := low_sdfAfter hbelow hrun
        exact ⟨hlow, tripLow_sdfClock hlow hwas⟩
    case several =>
      have hexec : exec c s = s.onClock fun d => d.sdfBits n bits := by
        simp only [List.mem_cons, List.not_mem_nil, or_false] at hc
        rcases hc with rfl | rfl | rfl <;> rfl
      exact completes_onClock hexec fun _ _ => sdfBits_eq_foldl d n bits
    case lost =>
      exact completes_onClock rfl fun _ _ => clockLost_leaves (hn36.trans (by decide)) hen hckout hlost h
    case taken =>
      obtain ⟨hlatch, htime, hcopy⟩ := snapshot_leaves hn36 h
      exact completes_onClock rfl fun _ _ => ⟨hlatch, htime, hcopy⟩
  case converters =>
    intro t0
    refine ⟨fun hen hseq => ⟨fun htrig => ?continuous, fun tr htrig h => ?triggered, fun htrig h => ?waiting,
      fun htrig => ?start⟩, fun hen hseq htrig => ?busy, fun q volts hseq hlen => ⟨fun h => ?early, fun h => ?due⟩⟩
    case continuous =>
      refine completes_onClock rfl fun _ _ => ?_
      rw [adcSequenceStart_continuous hen hseq htrig]
      exact seq_startSeq s.dev c none
    case triggered =>
      refine completes_onClock rfl fun _ _ => ?_
      rw [adcSequenceStart_triggered hen hseq htrig h]
      refine ⟨seq_startSeq (s.dev.setLatch (128 + c) none) c (some tr), ?_⟩
      rw [Dev.latch, (startSeq_frame _ c (some tr)).2]
      exact latch_setLatch_same s.dev (128 + c) none
    case waiting => exact completes_onClock rfl fun _ _ => adcSequenceStart_waiting hen hseq htrig h
    case start =>
      refine completes_onDev rfl fun _ => ?_
      rw [adcStart_of_idle hen hseq htrig]
      exact ⟨seq_startSeq s.dev c none, (startSeq_frame s.dev c none).1⟩
    case busy =>
      refine completes_onDev rfl fun _ => ?_
      rw [adcStart_of_busy hen hseq htrig]
      exact ⟨fld_flag _, rfl⟩
    case early => exact completes_onClock rfl fun _ _ => adcDone_of_early hseq h
    case due => exact completes_onClock rfl fun _ _ => adcDone_leaves hseq hlen h
  case positions =>
    intro x cpr
    have hi : (i : Nat) < 65536 := i.isLt.trans (by decide)
    refine ⟨fun sin cos neg hmode => ?resolver, fun a b hmode => ?edges, fun hmode => ?index,
      fun hmode => ⟨fun h => completes_onClock rfl fun _ _ => abzDelivery_of_early h, fun hdue hz hcpr => ?delivery⟩,
      fun line bits lag => ?frames⟩
    case resolver =>
      intro m
      have hm : amplitude2 sin cos = m := rfl
      have hsample := resolverSample_eq hmode sin cos neg
      rw [hm] at hsample
      refine ⟨fun hlow => completes_onClock rfl fun _ _ => ?_, fun hhigh => completes_onClock rfl fun _ _ => ?_,
        fun hleast hmost => completes_onClock rfl fun _ _ => ?_⟩
      · rw [hsample, if_pos hlow]
        exact ⟨fld_posErr _ i, hasFault_posErr _ _ hi, rfl, fld_posErr_apart Fld.apart_register⟩
      · rw [hsample, if_neg (by omega), if_pos hhigh]
        exact ⟨fld_posErr _ i, hasFault_posErr _ _ hi, rfl⟩
      · rw [hsample, if_neg (not_lt.2 hleast), if_neg (not_lt.2 hmost)]
        obtain ⟨hangle, -, hok, hevent⟩ := deliverSample_leaves s.dev.usedFree i
          (s.dev.resolverAngle neg sin cos % 65536 * 65536) 0 false s.dev.lanternTime
        rw [hangle, Nat.mod_eq_of_lt (by omega)]
        exact ⟨resolverAngle_cases s.dev neg sin cos, hok, hevent⟩
    case edges =>
      refine ⟨fun ha hb => completes_onClock rfl fun _ _ => ?_, fun ha hb => completes_onClock rfl fun _ _ => ?_,
        fun ha hb => completes_onClock rfl fun _ _ => ?_⟩
      · rw [abzEdge_double hmode ha hb]
        refine ⟨fld_posErr _ i, ?_, hasFault_posErr _ _ hi⟩
        rw [posIf_posErr, posIf_setPosIf_same]
      · obtain ⟨hcount, hevt⟩ := abzEdge_single hmode (.inl ⟨ha, hb, rfl⟩)
        refine ⟨hcount.trans ?_, hevt⟩
        by_cases h : a = x.b <;> simp [h, x]
      · obtain ⟨hcount, hevt⟩ := abzEdge_single hmode (.inr ⟨ha, hb, rfl⟩)
        refine ⟨hcount.trans ?_, hevt⟩
        by_cases h : b = x.a <;> simp [h, x]
    case index =>
      refine completes_onClock rfl fun _ _ => ⟨?_, fun h => ?_, fun hz hseen => posIf_zIndex_first hmode hz hseen,
        fun hz hseen hcpr => ?_⟩
      · rw [evt_zIndex hmode]
        rfl
      · rw [zIndex_of_ignored hmode h]
        rfl
      · obtain ⟨hmultiple, hnear⟩ := nearestMultiple_spec (Int.natCast_pos.2 hcpr) x.count (Config.freeBit s.dev.free)
        obtain ⟨hkept, hcorrected⟩ := zIndex_later_leaves hmode hz hseen
        exact ⟨s.dev.indexCount i, hmultiple, by exact_mod_cast hnear, hkept, hcorrected⟩
    case delivery => exact completes_onClock rfl fun _ _ => abzDelivery_leaves hmode hdue hz hcpr
    case frames =>
      intro t mtb stb hmode hdue hmono hlen
      obtain ⟨hbad, hgood⟩ := ssiFrame_reads (line := line) hmode hdue hmono hlen
      refine ⟨fun h => completes_onClock rfl fun _ _ => ?_,
        fun hline hpar hfits hgray hstb => completes_onClock rfl fun _ _ => ?_⟩
      · rw [hbad h]
        exact ⟨fld_posErr _ i, rfl, hasFault_posErr _ _ hi, fld_posErr_apart Fld.apart_register⟩
      · have hkept : ¬ s.dev.frameBad i line bits := by
          rintro (h | ⟨hone, hodd⟩ | h)
          · simp [hline] at h
          · omega
          · exact not_lt.2 hfits h
        rw [hgood hkept hgray hstb]
        exact frameShown_leaves s.dev i bits t hstb

end Sys2Proof.Machine
end

section
/-! PROOFS. CoreMemories: everything that a core and a pair do keeps the data and instruction memories of both cores canonical
(R319, R321). A core writes its data memory with stores, Keccak states and records, its instruction memory with fills; a
pair takes memories over from images and deltas. -/

set_option Elab.async false

namespace Sys2Proof.Machine

/-! ### Cores -/

/-- A core whose memories are canonical. -/
structure Core.MemOk (c : Core) : Prop where
  dmem : ramWf c.dmem = true
  imem : ramWf c.imem = true

theorem Core.memOk_iff (c : Core) : c.MemOk ↔ c.memWf = true :=
  ⟨fun h => c.memWf_iff.2 ⟨h.dmem, h.imem⟩, fun h => ⟨(c.memWf_iff.1 h).1, (c.memWf_iff.1 h).2⟩⟩

/-- The core that an act leaves has canonical memories. -/
structure CoreStep.MemOk (a : CoreStep) : Prop where
  core : a.core.MemOk

section
variable {c e : Core}

/-- An update of anything but the memories. -/
theorem Core.MemOk.same (h : c.MemOk) (hd : e.dmem = c.dmem := by rfl) (hi : e.imem = c.imem := by rfl) : e.MemOk :=
  ⟨hd ▸ h.dmem, hi ▸ h.imem⟩

theorem Core.MemOk.ite {p : Prop} {_ : Decidable p} (hc : c.MemOk) (he : e.MemOk) : (if p then c else e).MemOk := by
  split
  · exact hc
  · exact he

theorem CoreStep.MemOk.ite {p : Prop} {_ : Decidable p} {a b : CoreStep} (ha : a.MemOk) (hb : b.MemOk) :
    (if p then a else b).MemOk := by
  split
  · exact ha
  · exact hb

/-! ### A bundle that issues (R75) -/

theorem Core.MemOk.setGuard {n v} (h : c.MemOk) : (c.setGuard n v).MemOk := .ite h h.same

theorem Core.MemOk.landOne {f} (h : c.MemOk) : (c.landOne f).MemOk := .ite (.setGuard h.same) h.same

theorem Core.MemOk.land (h : c.MemOk) : c.land.MemOk := foldl_keeps Core.MemOk _ (fun _ _ h => h.landOne) _ _ h.same

theorem Core.MemOk.applyMove {m} (h : c.MemOk) : (c.applyMove m).MemOk := by
  unfold Core.applyMove
  exact .ite h (.ite h (.ite h.same (.ite h.same (.ite h.same (.ite h.setGuard (.ite h.same h.same))))))

theorem Core.MemOk.localStore {a n v} (h : c.MemOk) : (c.localStore a n v).1.MemOk :=
  (Core.memOk_iff _).2 (memWf_localStore a n v ((Core.memOk_iff c).1 h))

section
variable {env : CoreEnv} {user : Bool} {m0 : Ram} {cb0 : List CbEntry} {op : Nat} {m : LiveMove}

theorem Core.MemOk.trigCu (h : c.MemOk) : (c.trigCu op m).MemOk := by
  unfold Core.trigCu
  refine .ite ⟨h.same⟩ (.ite ⟨h.same⟩ (.ite ?dbnz (.ite ?rfi (.ite ⟨h.same⟩ (.ite ⟨h⟩ (.ite ⟨h.same⟩ ⟨h.same⟩))))))
  case dbnz =>
    refine ⟨?_⟩
    simp only
    split
    · exact h.same
    · exact h.same
  case rfi =>
    split
    · exact ⟨h.same⟩
    · exact ⟨h⟩

/-- Of the load/store unit's operations, the local stores write the data memory (R151, R152). -/
theorem Core.MemOk.trigLs {u} (h : c.MemOk) : (c.trigLs env user m0 cb0 u op m).MemOk := by
  unfold Core.trigLs
  extract_lets w n a cc r ad err unlocking
  refine .ite ⟨.ite h.same h.same⟩ (.ite ⟨.ite h.localStore.same h.localStore⟩ (.ite ?far (.ite ⟨h.same⟩
    (.ite ?store (.ite ⟨h.same⟩ (.ite ?unlock (.ite ⟨h.same⟩ (.ite ?lock ⟨h.same⟩))))))))
  case far => exact .ite ⟨h.same⟩ ⟨h.localStore.same⟩
  case store => exact .ite ⟨h.same⟩ ⟨h.same⟩
  case unlock => exact .ite ⟨h.same⟩ ⟨h.same⟩
  case lock => exact .ite ⟨h.same⟩ ⟨h.same⟩

theorem Core.MemOk.trigIo (h : c.MemOk) : (c.trigIo env user op m).MemOk := .ite (.ite ⟨h.same⟩ ⟨h.same⟩) ⟨h.same⟩

theorem Core.MemOk.trigKc (h : c.MemOk) : (c.trigKc m0 op m).MemOk := .ite (.ite ⟨h.same⟩ ⟨h.same⟩) ⟨h.same⟩

theorem Core.MemOk.trigFill (h : c.MemOk) : (c.trigFill user m0 m).MemOk :=
  .ite ⟨h.same⟩ (.ite ⟨h.same⟩ (.ite ⟨h.same⟩ ⟨h.same⟩))

theorem Core.MemOk.trigAg (h : c.MemOk) : (c.trigAg op m).MemOk := .ite ⟨h.same⟩ (.ite ⟨h.same⟩ ⟨h.same⟩)

theorem Core.MemOk.trigEv (h : c.MemOk) : (c.trigEv op m).MemOk := .ite ⟨h.same⟩ (.ite ⟨h⟩ (.ite ⟨h.same⟩ ⟨h.same⟩))

theorem Core.MemOk.trigger {rm} (h : c.MemOk) : (c.trigger env rm user m0 cb0 m).MemOk := by
  unfold Core.trigger
  exact .ite h.trigCu (.ite ⟨h.same⟩ (.ite ⟨h.same⟩ (.ite ⟨h.same⟩ (.ite ⟨h.same⟩ (.ite h.trigLs (.ite h.trigIo
    (.ite ⟨h.same⟩ (.ite h.trigKc (.ite h.trigFill (.ite h.trigAg (.ite h.trigEv ⟨h.same⟩)))))))))))

theorem CoreStep.MemOk.triggers {rm} : ∀ {l : List LiveMove} {s : CoreStep}, s.MemOk →
    (Core.triggers env rm user m0 cb0 l s).MemOk
  | [], _, h => h
  | _ :: t, _, h => CoreStep.MemOk.triggers (l := t) ⟨h.core.trigger.core⟩

end

theorem Core.MemOk.advance (h : c.MemOk) : c.advance.MemOk := by
  unfold Core.advance
  extract_lets ts
  split
  · exact h.same
  · exact h.same

theorem Core.MemOk.issue {env b} (h : c.MemOk) : (c.issue env b).MemOk := by
  unfold Core.issue
  extract_lets user rm c1 ms c2 m0 cb0 c3 s c4
  have h2 : c2.MemOk := .ite h.land.same h.land
  have h3 : c3.MemOk := foldl_keeps Core.MemOk _ (fun _ _ h => h.applyMove) _ _ h2
  have hs : s.MemOk := .triggers ⟨h3⟩
  exact ⟨hs.core.advance.same⟩

theorem CoreStep.MemOk.noting {a : CoreStep} {l} (h : a.MemOk) : (a.noting l).MemOk := ⟨h.core⟩

/-! ### Entries and returns (R179 to R193) -/

theorem Core.MemOk.occupy {k b} (h : c.MemOk) : (c.occupy k b).MemOk := .ite h.same h.same

theorem Core.MemOk.writeRecord {w r} (h : c.MemOk) : (c.writeRecord w r).MemOk := h.localStore.localStore.localStore.localStore

theorem Core.MemOk.startHandler {pc level} (h : c.MemOk) : (c.startHandler pc level).MemOk := h.same

theorem Core.MemOk.enter {vec level mk} (h : c.MemOk) : (c.enter vec level mk).MemOk := by
  unfold Core.enter
  split
  · exact ⟨h.same⟩
  · split
    · exact ⟨h.same⟩
    · exact ⟨h.occupy.writeRecord.startHandler⟩

theorem Core.MemOk.enterInterrupt {s p} (h : c.MemOk) : (c.enterInterrupt s p).MemOk := by
  unfold Core.enterInterrupt
  extract_lets x
  have hx : x.MemOk := h.enter
  exact .ite hx ⟨hx.core.same⟩

theorem Core.MemOk.enterException {e} (h : c.MemOk) : (c.enterException e).MemOk := h.enter

theorem Core.MemOk.enterExpiry (h : c.MemOk) : c.enterExpiry.MemOk := by
  unfold Core.enterExpiry
  split
  · exact ⟨h.same⟩
  · extract_lets notes r rpc c1
    have h1 : c1.MemOk := h.writeRecord.startHandler
    clear_value c1
    exact ⟨h1.same⟩

theorem Core.MemOk.enterImprecise {tag} (h : c.MemOk) : (c.enterImprecise tag).MemOk := by
  unfold Core.enterImprecise
  split
  · extract_lets e x
    have hx : x.MemOk := h.enterException
    exact .ite hx ⟨hx.core.same⟩
  · split
    extract_lets x
    have hx : x.MemOk := h.enterException
    exact .ite hx ⟨hx.core.same⟩

theorem Core.MemOk.enterPrecise {e} (h : c.MemOk) : (c.enterPrecise e).MemOk := by
  unfold Core.enterPrecise
  extract_lets x
  have hx : x.MemOk := Core.MemOk.enterException h.same
  exact .ite ⟨hx.core.same⟩ hx

theorem Core.MemOk.enterKept {k} (h : c.MemOk) : (c.enterKept k).MemOk := by
  unfold Core.enterKept
  extract_lets x
  have hx : x.MemOk := Core.MemOk.enter h.same
  exact .ite ⟨hx.core.same⟩ hx

theorem Core.MemOk.displaced {e} (h : c.MemOk) : (c.displaced e).MemOk := Core.MemOk.enterExpiry h.same

theorem Core.MemOk.freeBankK {k} (h : c.MemOk) : (c.freeBankK k).MemOk := .ite h.same h.same

theorem Core.MemOk.restore (h : c.MemOk) : c.restore.MemOk := by
  unfold Core.restore
  split
  · split
    · exact h.freeBankK.same
    · exact h.same
  · exact h.same

theorem Core.MemOk.restartIsafe {old} (h : c.MemOk) : (c.restartIsafe old).MemOk := .ite h.same h

/-! ### Completions (R104 to R107, R160, R162) -/

theorem Core.MemOk.writeLanes {w l} (h : c.MemOk) : (c.writeLanes w l).MemOk :=
  (Core.memOk_iff _).2 (memWf_writeLanes l c w ((Core.memOk_iff c).1 h))

theorem Core.MemOk.setTag {t e} (h : c.MemOk) : (c.setTag t e).MemOk := h.same

theorem Core.MemOk.clearFailed {t} (h : c.MemOk) : (c.clearFailed t).MemOk := h.same

theorem Core.MemOk.completeTag {t v code addr flags} (h : c.MemOk) : (c.completeTag t v code addr flags).MemOk := h.same

theorem Core.MemOk.finishOp {o} (h : c.MemOk) : (c.finishOp o).MemOk := by
  unfold Core.finishOp
  extract_lets c1 c2
  have h1 : c1.MemOk := by
    unfold c1
    split
    · exact h.writeLanes
    · exact h
  have h2 : c2.MemOk := .ite h1.same h1
  exact h2.completeTag

theorem Core.MemOk.completeOp {o} (h : c.MemOk) : (c.completeOp o).MemOk := .finishOp h.same

theorem Core.MemOk.completeBarrier {b} (h : c.MemOk) : (c.completeBarrier b).MemOk := by
  unfold Core.completeBarrier
  extract_lets c1
  have h1 : c1.MemOk := h.same
  split
  · exact .setTag (.completeTag h1.clearFailed)
  · exact h1.completeTag

theorem Core.MemOk.completeWait {input stamp} (h : c.MemOk) : (c.completeWait input stamp).MemOk := by
  unfold Core.completeWait
  split
  · exact h.same
  · exact h

theorem Core.MemOk.releaseGate {k gen} (h : c.MemOk) : (c.releaseGate k gen).MemOk := .ite h.same h

theorem Core.MemOk.lockAfter {lock code} (h : c.MemOk) : (c.lockAfter lock code).MemOk := .ite h.same h

theorem Core.MemOk.writeImem {w l} (h : c.MemOk) : (c.writeImem w l).MemOk :=
  (Core.memOk_iff _).2 (memWf_writeImem l c w ((Core.memOk_iff c).1 h))

theorem Core.MemOk.fillWritten {index words} (h : c.MemOk) : (c.fillWritten index words).MemOk := h.writeImem.same

theorem Core.MemOk.handAcked (h : c.MemOk) : c.handAcked.MemOk := .ite h h.same

/-! ### Debug writes (R560) -/

theorem Core.MemOk.foldl {α : Type} {f : Core → α → Core} {l : List α} (h : c.MemOk)
    (hf : ∀ (c : Core) a, c.MemOk → (f c a).MemOk) : (l.foldl f c).MemOk :=
  foldl_keeps Core.MemOk f hf l c h

theorem Core.MemOk.gatesOf {k l} (h : c.MemOk) : (c.gatesOf k l).MemOk := by
  fun_induction Core.gatesOf c k l with
  | case1 c k a r t g dn n l ih => exact ih h.same
  | case2 => exact h

theorem Core.MemOk.writeOpen {w o bytes} (h : c.MemOk) : (c.writeOpen w o bytes).MemOk := by
  unfold Core.writeOpen
  exact .ite h (.ite h.same (.ite h.same (.ite h.gatesOf (.ite h.same h.same))))

theorem Core.MemOk.setFrameWord {w v} (h : c.MemOk) : (c.setFrameWord w v).MemOk := by
  unfold Core.setFrameWord
  exact .ite h (.ite h.same (.ite h.same (.ite h (.ite h.same (.ite h (.ite h.setTag (.ite (h.foldl fun _ _ h => h.setTag)
    (.ite (h.foldl fun _ _ h => h.setTag) (.ite h.same h)))))))))

theorem Core.MemOk.pokeFrame : ∀ {l : List (Nat × Nat)} {c : Core} {bytes}, c.MemOk → (c.pokeFrame bytes l).MemOk
  | [], _, _, h => h
  | _ :: _, _, _, h => h.setFrameWord.pokeFrame

/-- A debug write of the frame leaves the memories alone. -/
theorem Core.MemOk.writeFrame {off bytes} (h : c.MemOk) : (c.writeFrame off bytes).MemOk :=
  h.pokeFrame.foldl fun _ _ h => h.writeOpen

theorem Core.MemOk.pokeMemory {area} : ∀ {l : List (Nat × Nat)} {c : Core} {bytes}, c.MemOk →
    (c.pokeMemory area bytes l).1.MemOk
  | [], _, _, h => h
  | (a, n) :: t, c, bytes, h => by
    unfold Core.pokeMemory
    extract_lets w r v c1
    have h1 : c1.MemOk := .ite h.localStore ⟨h.dmem, ramWf_ramWrite _ _ _ h.imem⟩
    split
    · exact h
    · exact h1.pokeMemory

end

/-! ### Pairs -/

/-- A pair whose cores have canonical memories. -/
structure Pair.MemOk (x : Pair) : Prop where
  lead : x.lead.MemOk
  shadow : x.shadow.MemOk

theorem Pair.memOk_iff (x : Pair) : x.MemOk ↔ x.memWf = true :=
  ⟨fun h => x.memWf_iff.2 ⟨x.lead.memOk_iff.1 h.lead, x.shadow.memOk_iff.1 h.shadow⟩,
    fun h => ⟨x.lead.memOk_iff.2 (x.memWf_iff.1 h).1, x.shadow.memOk_iff.2 (x.memWf_iff.1 h).2⟩⟩

theorem Pair.MemOk.fresh : ({} : Pair).MemOk := ⟨⟨rfl, rfl⟩, ⟨rfl, rfl⟩⟩

section
variable {x y : Pair}

/-- An update of anything but the memories of the cores. -/
theorem Pair.MemOk.same (h : x.MemOk) (hl : y.lead.dmem = x.lead.dmem ∧ y.lead.imem = x.lead.imem := by exact ⟨rfl, rfl⟩)
    (hs : y.shadow.dmem = x.shadow.dmem ∧ y.shadow.imem = x.shadow.imem := by exact ⟨rfl, rfl⟩) : y.MemOk :=
  ⟨h.lead.same hl.1 hl.2, h.shadow.same hs.1 hs.2⟩

theorem Pair.MemOk.ite {p : Prop} {_ : Decidable p} (hx : x.MemOk) (hy : y.MemOk) : (if p then x else y).MemOk := by
  split
  · exact hx
  · exact hy

theorem Pair.MemOk.both {f : Core → Core} (h : x.MemOk) (hf : ∀ c : Core, c.MemOk → (f c).MemOk) : (x.both f).MemOk :=
  ⟨hf _ h.lead, hf _ h.shadow⟩

theorem Pair.MemOk.filled {index words} (h : x.MemOk) : (x.filled index words).MemOk := h.both fun _ h => h.fillWritten

theorem Pair.MemOk.takeResponse {c} (h : x.MemOk) : (x.takeResponse c).MemOk := by
  unfold Pair.takeResponse
  split
  · exact Pair.MemOk.both (.ite h.same h) fun _ h => h.completeTag.lockAfter
  · exact h.filled.same
  · exact h

theorem Pair.MemOk.sortInput {c} (h : x.MemOk) : (x.sortInput c).MemOk := by
  unfold Pair.sortInput
  split
  · exact .ite h.same h
  · exact h.filled.same
  · exact h.same
  · exact h.same
  · exact h.same

theorem Pair.MemOk.sorted (h : x.MemOk) : x.sorted.MemOk :=
  foldl_keeps Pair.MemOk _ (fun _ _ h => h.sortInput) _ _ h.same

theorem Pair.MemOk.spend {n} (h : x.MemOk) : (x.spend n).MemOk := h.same

theorem Pair.MemOk.resumed (h : x.MemOk) : x.resumed.MemOk := h.same

theorem Pair.MemOk.takeStep {s} (h : x.MemOk) : (x.takeStep s).MemOk := .ite h h.same

/-! ### Memories taken over or given up (R239, R240, R321) -/

/-- A core restored from its checkpoint store keeps its own memories, the undo log replayed. -/
theorem Core.MemOk.restored {store c : Core} (h : c.MemOk) : (store.restored c).MemOk :=
  ⟨ramWf_undoReplay c.undo c.dmem h.dmem, h.imem⟩

/-- Memories that hold images, a delta applied to the data image or not. -/
theorem Core.MemOk.ofImages (f : Core) (im dm : List Nat) (delta : List (Nat × DWord)) (p : Prop) {_ : Decidable p} :
    Core.MemOk { f with dmem := if p then ramImage dm else ramDelta (ramImage dm) delta, imem := ramImage im } := by
  refine ⟨?_, ramWf_ramImage im⟩
  show ramWf (if p then ramImage dm else ramDelta (ramImage dm) delta) = true
  split
  · exact ramWf_ramImage dm
  · exact ramWf_ramDelta _ _ (ramWf_ramImage dm)

theorem Core.MemOk.invalidated {c : Core} (f : Core) (h : c.MemOk) :
    Core.MemOk { f with dmem := ramInvalidate c.dmem, imem := ramInvalidate c.imem } :=
  ⟨ramWf_ramInvalidate h.dmem, ramWf_ramInvalidate h.imem⟩

theorem Pair.MemOk.cleared (h : x.MemOk) : x.cleared.MemOk := ⟨h.lead.invalidated {}, h.shadow.invalidated {}⟩

theorem Pair.memOk_takenOver {s imem dmem p} : (takenOver x y s imem dmem p).MemOk :=
  ⟨.ofImages _ imem dmem s.delta _, .ofImages _ imem dmem s.delta _⟩

theorem Pair.MemOk.spareReset {imem dmem delta} (h : x.MemOk) : (x.spareReset imem dmem delta).MemOk := by
  have hc {c : Core} (hc : c.MemOk) : Core.MemOk
      { dmem := ramDelta (ramDelta c.dmem (wordsFrom 0 dmem)) delta, imem := ramDelta c.imem (wordsFrom 0 imem) } :=
    ⟨ramWf_ramDelta _ _ (ramWf_ramDelta _ _ hc.dmem), ramWf_ramDelta _ _ hc.imem⟩
  exact ⟨hc h.lead, hc h.shadow⟩

end

end Sys2Proof.Machine
end

section
/-! PROOFS. StepKeepsMemories: every step keeps the banks and every core's memories canonical
(`Obligations.StepKeepsMemories`). The model writes the banks through `ramPut`, `ramHeal` and `ramInvalidate`, and a pair
through `Dev.setPair`, with cores whose memories CoreMemories has shown canonical; all else leaves both as they are.
`Dev.MemOk.f` says so of the function `f`, in the order of the model's files. -/

set_option Elab.async false

namespace Sys2Proof.Machine

/-! ### Devices -/

/-- A device whose banks and whose cores' memories are canonical: what every step keeps. -/
structure Dev.MemOk (d : Dev) : Prop where
  banks : ramWf d.mem.ram = true
  pairs : ∀ x ∈ d.pairs, x.MemOk

section
variable {d e : Dev}

theorem Dev.MemOk.ite {c : Prop} {_ : Decidable c} (hd : d.MemOk) (he : e.MemOk) : (if c then d else e).MemOk := by
  split
  · exact hd
  · exact he

theorem Dev.MemOk.iteSnd {α : Type} {c : Prop} {_ : Decidable c} {x y : α × Dev} (hx : x.2.MemOk) (hy : y.2.MemOk) :
    (if c then x else y).2.MemOk := by
  split
  · exact hx
  · exact hy

theorem Dev.MemOk.iteThd {α β : Type} {c : Prop} {_ : Decidable c} {x y : α × β × Dev} (hx : x.2.2.MemOk)
    (hy : y.2.2.MemOk) : (if c then x else y).2.2.MemOk := by
  split
  · exact hx
  · exact hy

/-- The device that a pair of values carries. -/
theorem Dev.MemOk.of_fst {α : Type} {x : Dev × α} {e : Dev} {a : α} (hx : x = (e, a)) (h : x.1.MemOk) : e.MemOk := by
  subst hx
  exact h

theorem Dev.MemOk.of_snd {α : Type} {x : α × Dev} {a : α} (hx : x = (a, e)) (h : x.2.MemOk) : e.MemOk := by
  subst hx
  exact h

theorem Dev.MemOk.of_thd {α β : Type} {x : α × β × Dev} {a : α} {b : β} (hx : x = (a, b, e)) (h : x.2.2.MemOk) :
    e.MemOk := by
  subst hx
  exact h

theorem Dev.MemOk.foldl {α : Type} {f : Dev → α → Dev} {l : List α} (h : d.MemOk)
    (hf : ∀ e a, e.MemOk → (f e a).MemOk) : (l.foldl f d).MemOk :=
  foldl_keeps Dev.MemOk f hf l d h

theorem Dev.MemOk.pair (h : d.MemOk) (p : Nat) : (d.pair p).MemOk := by
  by_cases hp : p < d.pairs.length
  · exact h.pairs _ (nth_mem ({} : Pair) d.pairs p hp)
  · rw [Dev.pair, nth_eq_getD, List.getD_eq_default _ _ (not_lt.1 hp)]
    exact .fresh

/-- What leaves the pairs and the banks alone. -/
theorem Dev.MemOk.same (h : d.MemOk) (hp : e.pairs = d.pairs := by rfl) (hm : e.mem.ram = d.mem.ram := by rfl) : e.MemOk :=
  ⟨hm ▸ h.banks, hp ▸ h.pairs⟩

theorem Dev.MemOk.of_butMode (h : d.MemOk) (he : e.butMode = d.butMode) : e.MemOk :=
  h.same (pairs_of_butMode he) (congrArg MemSt.ram (mem_of_butMode he))

theorem Dev.MemOk.of_butJournal (h : d.MemOk) (he : e.butJournal = d.butJournal) : e.MemOk :=
  h.of_butMode (butMode_of_butJournal he)

theorem Dev.MemOk.setWord {a w} (h : d.MemOk) : (d.setWord a w).MemOk := ⟨h.banks, h.pairs⟩
theorem Dev.MemOk.setFld {f v} (h : d.MemOk) : (d.setFld f v).MemOk := ⟨h.banks, h.pairs⟩
theorem Dev.MemOk.storeReg {a w} (h : d.MemOk) : (d.storeReg a w).MemOk := by
  rcases storeReg_cases d a w with e | ⟨v, e⟩ <;> rw [e] <;> exact ⟨h.banks, h.pairs⟩

theorem Dev.MemOk.setPair {p x} (h : d.MemOk) (hx : x.MemOk) : (d.setPair p x).MemOk := by
  refine ⟨h.banks, fun y hy => ?_⟩
  rcases mem_setNth hy with rfl | hy
  · exact hx
  · exact h.pairs y hy

/-- A pair updated in anything but its cores' memories. -/
theorem Dev.MemOk.keepPair {p x} (h : d.MemOk)
    (hl : x.lead.dmem = (d.pair p).lead.dmem ∧ x.lead.imem = (d.pair p).lead.imem := by exact ⟨rfl, rfl⟩)
    (hs : x.shadow.dmem = (d.pair p).shadow.dmem ∧ x.shadow.imem = (d.pair p).shadow.imem := by exact ⟨rfl, rfl⟩) :
    (d.setPair p x).MemOk :=
  h.setPair ((h.pair p).same hl hs)

theorem Dev.MemOk.withTicks {x} (h : d.MemOk) : Dev.MemOk { d with ticks := x } := ⟨h.banks, h.pairs⟩
theorem Dev.MemOk.withFree {x} (h : d.MemOk) : Dev.MemOk { d with free := x } := ⟨h.banks, h.pairs⟩
theorem Dev.MemOk.withBind {x} (h : d.MemOk) : Dev.MemOk { d with bind := x } := ⟨h.banks, h.pairs⟩
theorem Dev.MemOk.withSpareGone {x} (h : d.MemOk) : Dev.MemOk { d with spareGone := x } := ⟨h.banks, h.pairs⟩
theorem Dev.MemOk.withFab {x} (h : d.MemOk) : Dev.MemOk { d with fab := x } := ⟨h.banks, h.pairs⟩
theorem Dev.MemOk.withMpu {x} (h : d.MemOk) : Dev.MemOk { d with mpu := x } := ⟨h.banks, h.pairs⟩
theorem Dev.MemOk.withMem {x : MemSt} (h : d.MemOk) (hx : ramWf x.ram = true) : Dev.MemOk { d with mem := x } := ⟨hx, h.pairs⟩
theorem Dev.MemOk.withEvt {x} (h : d.MemOk) : Dev.MemOk { d with evt := x } := ⟨h.banks, h.pairs⟩
theorem Dev.MemOk.withIntc {x} (h : d.MemOk) : Dev.MemOk { d with intc := x } := ⟨h.banks, h.pairs⟩
theorem Dev.MemOk.withIsland {x} (h : d.MemOk) : Dev.MemOk { d with island := x } := ⟨h.banks, h.pairs⟩
theorem Dev.MemOk.withKeeper {x} (h : d.MemOk) : Dev.MemOk { d with keeper := x } := ⟨h.banks, h.pairs⟩
theorem Dev.MemOk.withPower {x} (h : d.MemOk) : Dev.MemOk { d with power := x } := ⟨h.banks, h.pairs⟩
theorem Dev.MemOk.withLantern {x} (h : d.MemOk) : Dev.MemOk { d with lantern := x } := ⟨h.banks, h.pairs⟩
theorem Dev.MemOk.withDrive {x} (h : d.MemOk) : Dev.MemOk { d with drive := x } := ⟨h.banks, h.pairs⟩
theorem Dev.MemOk.withNvs {x} (h : d.MemOk) : Dev.MemOk { d with nvs := x } := ⟨h.banks, h.pairs⟩
theorem Dev.MemOk.withPersist {x} (h : d.MemOk) : Dev.MemOk { d with persist := x } := ⟨h.banks, h.pairs⟩
theorem Dev.MemOk.withStart {x} (h : d.MemOk) : Dev.MemOk { d with start := x } := ⟨h.banks, h.pairs⟩
theorem Dev.MemOk.withMirror {x} (h : d.MemOk) : Dev.MemOk { d with mirror := x } := ⟨h.banks, h.pairs⟩
theorem Dev.MemOk.withEth {x} (h : d.MemOk) : Dev.MemOk { d with eth := x } := ⟨h.banks, h.pairs⟩
theorem Dev.MemOk.withCan {x} (h : d.MemOk) : Dev.MemOk { d with can := x } := ⟨h.banks, h.pairs⟩
theorem Dev.MemOk.withBuoy {x} (h : d.MemOk) : Dev.MemOk { d with buoy := x } := ⟨h.banks, h.pairs⟩
theorem Dev.MemOk.withTrust {x} (h : d.MemOk) : Dev.MemOk { d with trust := x } := ⟨h.banks, h.pairs⟩
theorem Dev.MemOk.withTest {x} (h : d.MemOk) : Dev.MemOk { d with test := x } := ⟨h.banks, h.pairs⟩
theorem Dev.MemOk.withAge {x} (h : d.MemOk) : Dev.MemOk { d with age := x } := ⟨h.banks, h.pairs⟩
theorem Dev.MemOk.withTdr {x} (h : d.MemOk) : Dev.MemOk { d with tdr := x } := ⟨h.banks, h.pairs⟩
theorem Dev.MemOk.withDma {x} (h : d.MemOk) : Dev.MemOk { d with dma := x } := ⟨h.banks, h.pairs⟩

/-! ### Ops -/

theorem Dev.MemOk.flag {f} (h : d.MemOk) : (d.flag f).MemOk := h.setFld

theorem Dev.MemOk.setBitOf {f i} (h : d.MemOk) : (d.setBitOf f i).MemOk := h.setFld

theorem Dev.MemOk.clearBitOf {f i} (h : d.MemOk) : (d.clearBitOf f i).MemOk := h.setFld

theorem Dev.MemOk.count {f} (h : d.MemOk) : (d.count f).MemOk := h.setFld

theorem Dev.MemOk.setPair64 {lo hi v} (h : d.MemOk) : (d.setPair64 lo hi v).MemOk := h.setFld.setFld

theorem Dev.MemOk.fresh (h : d.MemOk) : d.fresh.2.MemOk := h.withFree

theorem Dev.MemOk.present {input detail} (h : d.MemOk) : (d.present input detail).MemOk := h.withIsland

theorem Dev.MemOk.produce {e} (h : d.MemOk) : (d.produce e).MemOk := h.withEvt

theorem Dev.MemOk.setLatch {c v} (h : d.MemOk) : (d.setLatch c v).MemOk := h.withEvt

theorem Dev.MemOk.setPairState {p s} (h : d.MemOk) : (d.setPairState p s).MemOk := h.setFld

theorem Dev.MemOk.capture {p c} (h : d.MemOk) : (d.capture p c).MemOk := h.keepPair

theorem Dev.MemOk.presentPair {p k} (h : d.MemOk) : (d.presentPair p k).MemOk := h.present

theorem Dev.MemOk.sealPage {bad} (h : d.MemOk) : (d.sealPage bad).MemOk := h.of_butJournal (sealPage_frame d bad).1

theorem Dev.MemOk.journal {type args body} (h : d.MemOk) : (d.journal type args body).MemOk :=
  h.of_butJournal (journal_frame d type args body).1

theorem Dev.MemOk.setGroup {g x} (h : d.MemOk) : (d.setGroup g x).MemOk := h.withDrive

theorem Dev.MemOk.forceGroup {g} (h : d.MemOk) : (d.forceGroup g).MemOk := h.setGroup

theorem Dev.MemOk.assertForce (h : d.MemOk) : d.assertForce.MemOk := h.of_butMode (assertForce_frame d).1

theorem Dev.MemOk.freshWindow (h : d.MemOk) : d.freshWindow.MemOk := h.of_butMode (freshWindow_frame d).1

theorem Dev.MemOk.keeperMode {m} (h : d.MemOk) : (d.keeperMode m).MemOk := h.of_butMode (keeperMode_frame d m).1

theorem Dev.MemOk.enterMode {m trig} (h : d.MemOk) : (d.enterMode m trig).MemOk := h.of_butMode (enterMode_frame d m trig).1

theorem Dev.MemOk.safeStopCause {trig} (h : d.MemOk) : (d.safeStopCause trig).MemOk :=
  h.of_butMode (safeStopCause_frame d trig).1

theorem Dev.MemOk.afterPairLost (h : d.MemOk) : d.afterPairLost.MemOk := h.of_butMode (afterPairLost_frame d).1

theorem Dev.MemOk.cmdStat {code status} (h : d.MemOk) : (d.cmdStat code status).MemOk :=
  h.of_butJournal (cmdStat_frame d code status).1

theorem Dev.MemOk.refuse {code prot} (h : d.MemOk) : (d.refuse code prot).MemOk := h.of_butJournal (refuse_frame d code prot).1

/-! ### Intc -/

theorem Dev.MemOk.setIntc {n x} (h : d.MemOk) : (d.setIntc n x).MemOk := h.withIntc

theorem Dev.MemOk.edge {n s} (h : d.MemOk) : (d.edge n s).MemOk := .ite h.setBitOf h.setIntc

theorem Dev.MemOk.clearEdge {n s} (h : d.MemOk) : (d.clearEdge n s).MemOk := h.setIntc

theorem Dev.MemOk.acknowledge {n set} (h : d.MemOk) : (d.acknowledge n set).MemOk := .foldl h fun _ _ h => h.clearEdge

theorem Dev.MemOk.sourceEdge {n s} (h : d.MemOk) : (Machine.sourceEdge n s d).MemOk := .ite h.edge h.setIntc

theorem Dev.MemOk.presentIrq {n} (h : d.MemOk) : (Machine.presentIrq n d).MemOk := h.setIntc.capture

theorem Dev.MemOk.swset {n set} (h : d.MemOk) : (Machine.swset n set d).MemOk := .foldl h fun _ _ h => h.edge

/-! ### Events -/

theorem Dev.MemOk.consequence {prod cons trig stamp} (h : d.MemOk) : (d.consequence prod cons trig stamp).MemOk :=
  h.produce

theorem Dev.MemOk.setWaits {c n} (h : d.MemOk) : (d.setWaits c n).MemOk := h.withEvt

theorem Dev.MemOk.sendWait {c stamp} (h : d.MemOk) : (d.sendWait c stamp).MemOk := h.capture

theorem Dev.MemOk.emitted {n t merged} (h : d.MemOk) : (d.emitted n t merged).MemOk :=
  .foldl (Dev.MemOk.ite h.count.flag h).count.setBitOf.setFld.setFld fun _ _ h => h.edge

theorem Dev.MemOk.emission {n} (h : d.MemOk) : (Machine.emission n d).MemOk := by
  unfold Machine.emission
  extract_lets ready loops evs out due _ d1 d2
  have h2 : d2.MemOk := .foldl h.withEvt fun _ _ h => h.emitted
  exact .ite h2 h2.withEvt

theorem Dev.MemOk.deliver {x} (h : d.MemOk) : (d.deliver x).MemOk := by
  unfold Dev.deliver
  extract_lets c d1
  have h1 : d1.MemOk := .ite h.flag.flag.count h
  exact .ite h1.setWaits.sendWait (.ite h1.setLatch h1.flag.flag.count)

theorem Dev.MemOk.delivery (h : d.MemOk) : (Machine.delivery d).MemOk := by
  unfold Machine.delivery
  split
  · exact h
  · exact .foldl h.withEvt fun _ _ h => h.deliver

theorem Dev.MemOk.waitArrival (h : d.MemOk) : (Machine.waitArrival d).MemOk := by
  unfold Machine.waitArrival
  split
  · exact h
  · extract_lets
    split
    · exact h.withEvt.setLatch.sendWait
    · exact h.withEvt.setWaits

theorem Dev.MemOk.dropLoop (h : d.MemOk) : (Machine.dropLoop d).MemOk := by
  unfold Machine.dropLoop
  split
  · exact h
  · exact .ite h.withEvt.flag.present h.withEvt.flag.present.flag.setFld.setFld

theorem Dev.MemOk.cenWrite {c hi v} (h : d.MemOk) : (Machine.cenWrite c hi v d).MemOk := .ite h (.ite h.flag h.setFld)

theorem Dev.MemOk.watchTake {c} (h : d.MemOk) : (Machine.watchTake c d).MemOk := .ite h.setLatch h

/-! ### Memory -/

theorem Dev.MemOk.correctable {inst} (h : d.MemOk) : (d.correctable inst).MemOk :=
  h.same (correctable_frame d inst).1 (correctable_frame d inst).2

theorem Dev.MemOk.uncorrectable {master inst addr scrub} (h : d.MemOk) :
    (d.uncorrectable master inst addr scrub).MemOk :=
  h.same (uncorrectable_frame d ..).1 (uncorrectable_frame d ..).2

theorem Dev.MemOk.queueWriteBack {inst word} (h : d.MemOk) : (d.queueWriteBack inst word).MemOk :=
  h.same (queueWriteBack_frame d inst word).1 (queueWriteBack_frame d inst word).2

theorem Dev.MemOk.noteRead {master inst word addr r scrub} (h : d.MemOk) :
    (d.noteRead master inst word addr r scrub).MemOk :=
  h.same (noteRead_frame d ..).1 (noteRead_frame d ..).2

theorem Dev.MemOk.bankRead {master inst word} (h : d.MemOk) : (d.bankRead master inst word).2.2.MemOk :=
  .noteRead (h.withMem (ramWf_ramHeal _ h.banks))

theorem Dev.MemOk.bankWrite {inst word v} (h : d.MemOk) : (d.bankWrite inst word v).MemOk :=
  h.withMem (ramWf_ramPut _ _ _ h.banks)

theorem Dev.MemOk.bankStore {master inst word al data mask} (h : d.MemOk) :
    (d.bankStore master inst word al data mask).2.MemOk :=
  .iteSnd h.bankWrite (.iteSnd h.bankRead h.bankRead.bankWrite)

theorem Dev.MemOk.romRead {master word} (h : d.MemOk) : (d.romRead master word).2.2.MemOk :=
  .iteThd h (.ite h.uncorrectable h.correctable)

theorem Dev.MemOk.targetRead {master t} (h : d.MemOk) : (d.targetRead master t).2.2.MemOk := by
  unfold Dev.targetRead
  split
  · exact .iteThd h.bankRead h.bankRead
  · exact .iteThd h.romRead h.romRead
  · exact .iteThd h h
  · exact h
  · exact h

theorem Dev.MemOk.targetWrite {master t data mask} (h : d.MemOk) : (d.targetWrite master t data mask).2.MemOk := by
  unfold Dev.targetWrite
  split
  · exact h.bankStore
  · exact h

theorem Dev.MemOk.localRam (h : d.MemOk) (inst : Nat) : ramWf (d.localRam inst) = true := by
  have hp := h.pair (localInst inst).1
  unfold Dev.localRam
  split
  next p sh im hi =>
    rw [hi] at hp
    extract_lets c
    have hc : c.MemOk := .ite hp.shadow hp.lead
    split
    · exact hc.imem
    · exact hc.dmem

theorem Dev.MemOk.setLocalRam {inst m} (h : d.MemOk) (hm : ramWf m = true) : (d.setLocalRam inst m).MemOk := by
  have hp := h.pair (localInst inst).1
  unfold Dev.setLocalRam
  split
  next p sh im hi =>
    rw [hi] at hp
    extract_lets x put
    have hput {c : Core} (hc : c.MemOk) : (put c).MemOk := .ite ⟨hc.dmem, hm⟩ ⟨hm, hc.imem⟩
    exact h.setPair (.ite ⟨hp.lead, hput hp.shadow⟩ ⟨hput hp.lead, hp.shadow⟩)

theorem Dev.MemOk.instRam (h : d.MemOk) (inst : Nat) : ramWf (d.instRam inst).1 = true := by
  unfold Dev.instRam
  split
  · exact h.banks
  · exact h.localRam inst

theorem Dev.MemOk.setInstRam {inst m} (h : d.MemOk) (hm : ramWf m = true) : (d.setInstRam inst m).MemOk :=
  .ite (h.withMem hm) (h.setLocalRam hm)

theorem Dev.MemOk.writeBack {inst word} (h : d.MemOk) : (Machine.writeBack inst word d).MemOk :=
  .ite (.ite h.same (.setInstRam h.same (ramWf_ramPut _ _ _ (h.instRam inst)))) h

theorem Dev.MemOk.scrub (h : d.MemOk) : (Machine.scrub d).MemOk := by
  unfold Machine.scrub
  split
  · split
    · exact h
    · exact .noteRead (.setInstRam h.same (ramWf_ramHeal _ (h.instRam _)))
  · exact h

theorem Dev.MemOk.leak (h : d.MemOk) : (Machine.leak d).MemOk :=
  .ite (.foldl h.same fun _ _ h => .ite h h.setFld) h

theorem Dev.MemOk.etctlWrite {w} (h : d.MemOk) : (Machine.etctlWrite w d).MemOk := h.setFld.setFld

/-! ### Mpu -/

theorem Dev.MemOk.denied {m a why req} (h : d.MemOk) : (d.denied m a why req).MemOk := h.withFab

theorem Dev.MemOk.recordDenial {x} (h : d.MemOk) : (d.recordDenial x).MemOk :=
  (Dev.MemOk.ite h.count h.count.setFld.setFld.setFld.setFld.setFld.setFld).flag.present

theorem Dev.MemOk.enableWrite {by_ m w} (h : d.MemOk) : (Machine.enableWrite by_ m w d).MemOk := by
  unfold Machine.enableWrite
  extract_lets locked d1 rs bad ov
  clear_value bad ov
  have h1 : d1.MemOk := .ite h h.setFld
  have h2 : Dev.MemOk (if ov.isSome then (if bad.isSome then d1.flag MPU_ISTAT_BADREG else d1).flag MPU_ISTAT_OVERLAP
      else if bad.isSome then d1.flag MPU_ISTAT_BADREG else d1) := .ite (.flag (.ite h1.flag h1)) (.ite h1.flag h1)
  split
  · exact h1
  · split
    · exact h1.withMpu.setFld
    · exact h2.setFld.setFld.setFld

theorem Dev.MemOk.syncDone {x} (h : d.MemOk) : (d.syncDone x).MemOk := h.withMpu

/-! ### Fabric -/

/-- The function is unfolded while it stands alone: against the applied one, the kernel would try to evaluate the
  mirror's
address and count out its factor 0x50000. So also below. -/
theorem Dev.MemOk.mirrorWord {lp off v} (h : d.MemOk) : (d.mirrorWord lp off v).MemOk := by
  generalize hf : Dev.mirrorWord = f
  delta Dev.mirrorWord at hf
  subst hf
  beta_reduce
  split
  · exact h.bankWrite
  · exact h

theorem Dev.MemOk.mirrorWords {lp} : ∀ {l : List DWord} {d : Dev} {off}, d.MemOk → (d.mirrorWords lp off l).MemOk
  | [], _, _, h => h
  | _ :: _, _, _, h => h.mirrorWord.mirrorWords

theorem Dev.MemOk.answer {lp imm mark tag slot value code addr lock fill} (h : d.MemOk) :
    (d.answer lp imm mark tag slot value code addr lock fill).MemOk := by
  unfold Dev.answer
  extract_lets p d1 x input y again z d2
  have h1 : d1.MemOk := by
    unfold d1
    split
    · exact .ite h h.mirrorWords
    · exact h
  have hy : y.MemOk := by
    unfold y
    split
    · exact (h1.pair p).filled
    · exact h1.pair p
  have h2 : d2.MemOk := h1.setPair hy.same
  exact .ite h1.capture (.ite h1 (.ite h2.capture h2))

theorem Dev.MemOk.respond {r value code} (h : d.MemOk) : (d.respond r value code).MemOk :=
  .ite h.keepPair (.ite h.answer h.answer)

theorem Dev.MemOk.dropLock {lp} (h : d.MemOk) : (d.dropLock lp).MemOk := h.withFab

theorem Dev.MemOk.respondError {r code} (h : d.MemOk) : (d.respondError r code).MemOk := .respond (.ite h.dropLock h)

theorem Dev.MemOk.clearBroken {lp} (h : d.MemOk) : (d.clearBroken lp).MemOk := h.withFab

theorem Dev.MemOk.refuseReq {r} (h : d.MemOk) : (d.refuseReq r).MemOk :=
  .ite h.clearBroken.respondError h.respondError

theorem Dev.MemOk.enqueue {r} (h : d.MemOk) : (d.enqueue r).MemOk := h.withFab

theorem Dev.MemOk.sendReq {p r} (h : d.MemOk) : (d.sendReq p r).MemOk := by
  unfold Dev.sendReq
  extract_lets
  split
  · exact h.withFab.denied
  · exact .ite (.ite h.withFab.respondError h.withFab.enqueue)
      (.ite h.withFab.answer (.ite h.withFab.refuseReq
      (.ite (.ite h.withFab.refuseReq h.withFab.enqueue) h.withFab.enqueue)))

theorem Dev.MemOk.leaveQueue {pt r} (h : d.MemOk) : (d.leaveQueue pt r).MemOk := (Dev.MemOk.ite h.setFld h).withFab

theorem Dev.MemOk.passPoint {pt r} (h : d.MemOk) : (d.passPoint pt r).MemOk := by
  unfold Dev.passPoint
  split
  · exact .ite h.refuseReq h.enqueue
  · exact h.withFab

theorem Dev.MemOk.grant {pt} (h : d.MemOk) : (Machine.grant pt d).MemOk := by
  unfold Machine.grant
  split
  · exact h
  · split
    · exact h
    · exact h.leaveQueue.passPoint

theorem Dev.MemOk.urgent {id} (h : d.MemOk) : (Machine.urgent id d).MemOk := by
  unfold Machine.urgent
  split
  · exact h
  · exact .ite h.withFab.count.flag h

theorem Dev.MemOk.breakLock {l} (h : d.MemOk) : (d.breakLock l).MemOk :=
  h.dropLock.withFab.flag.count.setFld.setFld.setFld.present

theorem Dev.MemOk.recoveryBreak {lp} (h : d.MemOk) : (d.recoveryBreak lp).MemOk := by
  unfold Dev.recoveryBreak
  split
  · exact h.breakLock
  · exact h

theorem Dev.MemOk.lockBreak {inst} (h : d.MemOk) : (Machine.lockBreak inst d).MemOk := by
  unfold Machine.lockBreak
  split
  · exact .ite h.breakLock h
  · exact h

theorem Dev.MemOk.deny (h : d.MemOk) : (Machine.deny d).MemOk := by
  unfold Machine.deny
  split
  · exact h
  · extract_lets
    split
    · exact h.withFab.recordDenial.respondError
    · exact h.withFab.recordDenial

/-! ### Engine -/

theorem Dev.MemOk.waits {w} (h : d.MemOk) : (d.waits w).MemOk := .ite h h.withFab

theorem Dev.MemOk.onHold {h'} (h : d.MemOk) : (d.onHold h').MemOk := by
  unfold Dev.onHold
  split
  · exact h.waits
  · exact h

/-- What an engine's command leaves has canonical memories, unless its access waits. -/
def MemOkOrHeld : Except Hold Dev → Prop
  | .ok e => e.MemOk
  | .error _ => True

theorem MemOkOrHeld.ite {c : Prop} {_ : Decidable c} {x y : Except Hold Dev} (hx : MemOkOrHeld x) (hy : MemOkOrHeld y)
    :
    MemOkOrHeld (if c then x else y) := by
  split
  · exact hx
  · exact hy

theorem MemOkOrHeld.of_ok {x : Except Hold Dev} {e : Dev} (hx : x = .ok e) (h : MemOkOrHeld x) : e.MemOk := by
  subst hx
  exact h

theorem Dev.MemOk.orWait {x} (h : d.MemOk) (hx : MemOkOrHeld x) : (d.orWait x).MemOk := by
  unfold Dev.orWait
  split
  · exact hx
  · exact h.onHold

theorem Dev.MemOk.served {m a} (h : d.MemOk) : (d.served m a).MemOk :=
  (Dev.MemOk.foldl h fun _ _ h => h.leaveQueue).withFab

theorem Dev.MemOk.takeFailure {m a} (h : d.MemOk) : (d.takeFailure m a).MemOk := h.withFab

theorem Dev.MemOk.lostWrite {r} (h : d.MemOk) : (d.lostWrite r).MemOk := .ite h.withFab.enqueue h.withFab.withFab

theorem Dev.MemOk.engineRead {m addr n} (h : d.MemOk) : (d.engineRead m addr n).2.2.MemOk := h.targetRead

theorem Dev.MemOk.engineWrite {m addr n v} (h : d.MemOk) : (d.engineWrite m addr n v).2.MemOk := h.targetWrite

theorem Dev.MemOk.readPieces {m} : ∀ {l : List (Nat × Nat)} {d : Dev}, d.MemOk → (d.readPieces m l).2.2.MemOk
  | [], _, h => h
  | (a, n) :: t, d, h => by
    rw [Dev.readPieces]
    split
    next v code d1 hr =>
      have h1 : d1.MemOk := .of_thd hr h.engineRead
      exact .iteThd h1 h1.readPieces

theorem Dev.MemOk.writePieces {m} : ∀ {l : List (Nat × Nat)} {d : Dev} {bytes}, d.MemOk →
    (d.writePieces m bytes l).2.MemOk
  | [], _, _, h => h
  | _ :: _, _, _, h => .iteSnd h.engineWrite h.engineWrite.writePieces

theorem Dev.MemOk.busRead {m a n} (h : d.MemOk) : (d.busRead m a n).2.2.MemOk := by
  unfold Dev.busRead
  split
  · exact h
  · split
    · exact h.denied
    · exact h.takeFailure
    · exact h
    · exact .iteThd h.served.readPieces h.served.readPieces

theorem Dev.MemOk.busWrite {m a bytes} (h : d.MemOk) : (d.busWrite m a bytes).2.MemOk := by
  unfold Dev.busWrite
  extract_lets
  split
  · exact h
  · split
    · exact h.denied
    · exact h.takeFailure
    · exact h
    · exact .iteSnd h.served.writePieces h.served.writePieces

theorem Dev.MemOk.readBursts {m} : ∀ {l : List (Nat × Nat)} {d : Dev}, d.MemOk → (d.readBursts m l).2.2.MemOk
  | [], _, h => h
  | (a, n) :: t, d, h => by
    rw [Dev.readBursts]
    split
    next b e d1 hb =>
      have h1 : d1.MemOk := .of_thd hb h.busRead
      split
      · exact h1.readBursts
      · exact h1

theorem Dev.MemOk.writeBursts {m} : ∀ {l : List (Nat × Nat)} {d : Dev} {bytes}, d.MemOk →
    (d.writeBursts m bytes l).2.MemOk
  | [], _, _, h => h
  | (a, n) :: t, d, bytes, h => by
    rw [Dev.writeBursts]
    split
    next e d1 hb =>
      have h1 : d1.MemOk := .of_snd hb h.busWrite
      split
      · exact h1.writeBursts
      · exact h1

theorem Dev.MemOk.engineLoad {m a n} (h : d.MemOk) : (d.engineLoad m a n).2.2.MemOk := by
  unfold Dev.engineLoad
  split
  · exact h
  · exact h.readBursts

theorem Dev.MemOk.engineStore {m a bytes} (h : d.MemOk) : (d.engineStore m a bytes).2.MemOk := by
  unfold Dev.engineStore
  split
  · exact h
  · exact h.writeBursts

/-! ### Keeper -/

theorem Dev.MemOk.expireWith {cause} (h : d.MemOk) : (d.expireWith cause).MemOk := .ite h h.withKeeper

theorem Dev.MemOk.keeperFault {k} (h : d.MemOk) : (d.keeperFault k).MemOk := .ite h.expireWith h.present

theorem Dev.MemOk.keeperEnable {w} (h : d.MemOk) : (Machine.keeperEnable w d).MemOk :=
  .ite h h.setFld.setFld.setFld.setFld.setFld.setFld.withKeeper.setFld.keeperMode

theorem Dev.MemOk.judgeService {m v} (h : d.MemOk) : (Machine.judgeService m v d).MemOk :=
  .ite h (.ite (.ite h h.flag) (.ite (.ite h h.flag.keeperFault)
    (.ite h.setFld (.ite h.setFld.flag.keeperFault (.ite h.setFld
    (.ite h.setFld.flag.keeperFault h.setFld.flag.setPair64))))))

theorem Dev.MemOk.countCheckIn {lp t} (h : d.MemOk) : (Machine.countCheckIn lp t d).MemOk :=
  .ite h (.ite h.flag (.ite h.flag.present h.count.flag.setFld.setFld))

theorem Dev.MemOk.windowClose (h : d.MemOk) : (Machine.windowClose d).MemOk := by
  unfold Machine.windowClose
  extract_lets len d1
  have h1 : d1.MemOk := .ite h h.expireWith
  split
  · exact .ite (.ite h1.setPair64.setPair64 (.ite h1.setPair64.setPair64.flag.expireWith
      h1.setPair64.setPair64.flag.present))
      (.withKeeper (.freshWindow (.ite h1.setPair64.setPair64
        (.ite h1.setPair64.setPair64.flag.expireWith h1.setPair64.setPair64.flag.present))))
  · exact h

theorem Dev.MemOk.closeDue (h : d.MemOk) : d.closeDue.MemOk := h.windowClose.windowClose

theorem Dev.MemOk.service {m v} (h : d.MemOk) : (Machine.service m v d).MemOk := h.closeDue.judgeService

theorem Dev.MemOk.keeperCheck {lp t} (h : d.MemOk) : (Machine.keeperCheck lp t d).MemOk := h.closeDue.countCheckIn

theorem Dev.MemOk.resetReaction {trig} (h : d.MemOk) : (d.resetReaction trig).MemOk := by
  unfold Dev.resetReaction
  extract_lets d1
  have h1 : d1.MemOk := h.safeStopCause.flag
  exact (Dev.MemOk.ite h1 h1.sealPage).withIsland

theorem Dev.MemOk.raiseTrap {p} (h : d.MemOk) : (d.raiseTrap p).MemOk := .ite h.capture h

theorem Dev.MemOk.keeperExpiry (h : d.MemOk) : (Machine.keeperExpiry d).MemOk := by
  unfold Machine.keeperExpiry
  split
  · exact h
  · exact .foldl (Dev.MemOk.foldl h.withKeeper.setFld.setPair64.setFld.flag.setFld fun _ _ h =>
      h.setFld).present.assertForce fun _ _ h => h.raiseTrap

theorem Dev.MemOk.hardTimerEnd (h : d.MemOk) : (Machine.hardTimerEnd d).MemOk := by
  unfold Machine.hardTimerEnd
  split
  · exact h
  · exact .ite h.withKeeper.resetReaction h

theorem Dev.MemOk.trapRpc {p rpc} (h : d.MemOk) : (d.trapRpc p rpc).MemOk := h.setFld.setFld.flag

theorem Dev.MemOk.evstatClear (h : d.MemOk) : (Machine.evstatClear d).MemOk := .foldl h.setFld fun _ _ h => h.setFld

theorem Dev.MemOk.keeperFreeze {lp} (h : d.MemOk) : (d.keeperFreeze lp).MemOk := .ite h.setFld.withKeeper h

theorem Dev.MemOk.keeperThaw (h : d.MemOk) : d.keeperThaw.MemOk :=
  .ite h.count.setFld.flag.setFld.freshWindow.journal h

/-! ### Pair -/

theorem Dev.MemOk.noteOcc {p} (h : d.MemOk) : (d.noteOcc p).MemOk := by
  have up : ∀ {e : Dev} {f v}, e.MemOk → Dev.MemOk (if e.fld f < v then e.setFld f (min 255 v) else e) :=
    fun he => .ite he.setFld he
  exact up (up (up h))

theorem Dev.MemOk.haltPair {p cause} (h : d.MemOk) : (d.haltPair p cause).MemOk :=
  h.keepPair.setFld.setFld.setFld.setFld.setBitOf.flag.keeperFreeze

theorem Dev.MemOk.settleHalt {p} (h : d.MemOk) : (d.settleHalt p).MemOk := .ite h (.ite h.setFld (.ite h.haltPair h))

theorem Dev.MemOk.releasePair {p} (h : d.MemOk) : (d.releasePair p).MemOk :=
  h.keepPair.setFld.setFld.clearBitOf.keeperThaw

theorem Dev.MemOk.askHalt {p cause} (h : d.MemOk) : (d.askHalt p cause).MemOk := h.keepPair

theorem Dev.MemOk.setDetector {p k x} (h : d.MemOk) : (d.setDetector p k x).MemOk := h.withLantern

theorem Dev.MemOk.armDetector {p k} (h : d.MemOk) : (d.armDetector p k).MemOk := h.setDetector

theorem Dev.MemOk.disarmDetector {p k} (h : d.MemOk) : (d.disarmDetector p k).MemOk := h.setDetector

theorem Dev.MemOk.emitArm {p k tb angle down} (h : d.MemOk) : (d.emitArm p k tb angle down).MemOk := by
  unfold Dev.emitArm
  extract_lets
  split
  · exact h.keepPair.disarmDetector
  · exact h.armDetector

theorem Dev.MemOk.emitWait {p c} (h : d.MemOk) : (d.emitWait p c).MemOk := by
  unfold Dev.emitWait
  extract_lets
  split
  · exact h.setPair (Pair.MemOk.both (h.pair p).same fun _ h => h.completeWait)
  · exact h.withEvt

theorem Dev.MemOk.emitImmediate {p r send} (h : d.MemOk) (hs : ∀ e : Dev, e.MemOk → (send e).MemOk) :
    (d.emitImmediate p r send).MemOk := by
  unfold Dev.emitImmediate
  extract_lets x y z
  split
  · split
    · exact h.keepPair
    · exact h.keepPair
  · exact hs _ h.keepPair

theorem Dev.MemOk.emitSig {p n slot} (h : d.MemOk) : (d.emitSig p n slot).MemOk := by
  unfold Dev.emitSig
  extract_lets
  split
  · exact h.keepPair
  · exact h.keepPair.produce

theorem Dev.MemOk.emit {p o} (h : d.MemOk) : (d.emit p o).MemOk := by
  unfold Dev.emit
  extract_lets
  split
  · exact .ite (h.emitImmediate fun _ h => h.sendReq) h.sendReq
  · exact h.emitImmediate fun _ h => h.answer
  · exact h.emitArm
  · exact h.disarmDetector
  · exact h.emitWait
  · exact h.emitSig
  · exact h.denied
  · exact h.presentPair
  · exact h.flag.presentPair
  · exact h.flag.presentPair
  · exact h.trapRpc

theorem Dev.MemOk.noteLocal {p shadow n} (h : d.MemOk) : (d.noteLocal p shadow n).MemOk := by
  unfold Dev.noteLocal
  extract_lets inst m split d1
  have h1 : d1.MemOk := .ite (h.setLocalRam (ramWf_ramHeal _ (h.localRam inst))) h
  exact .ite (.count (.ite h1.correctable h1)) (.ite h1.correctable h1.correctable.queueWriteBack)

theorem Dev.MemOk.noteBoth {p a b} (h : d.MemOk) : (d.noteBoth p a b).MemOk :=
  .foldl (.foldl h fun _ _ h => h.noteLocal) fun _ _ h => h.noteLocal

/-! ### Frame -/

theorem Dev.MemOk.setSlot {lp b x} (h : d.MemOk) : (d.setSlot lp b x).MemOk := h.withMirror

theorem Dev.MemOk.writeHeader {lp b x} (h : d.MemOk) : (d.writeHeader lp b x).MemOk := h.mirrorWords.setSlot

theorem Dev.MemOk.writeSlot {lp b x} (h : d.MemOk) : (d.writeSlot lp b x).MemOk :=
  h.mirrorWords.mirrorWords.writeHeader

theorem Dev.MemOk.mirrorRead {lp off} (h : d.MemOk) : (d.mirrorRead lp off).2.2.MemOk := by
  generalize hx : d.mirrorRead lp off = x
  generalize hf : Dev.mirrorRead = f at hx
  delta Dev.mirrorRead at hf
  subst hf
  beta_reduce at hx
  split at hx
  · exact hx ▸ h.bankRead
  · exact hx ▸ h

theorem Dev.MemOk.mirrorReads {lp} : ∀ {n} {d : Dev} {off}, d.MemOk → (d.mirrorReads lp off n).2.2.MemOk
  | 0, _, _, h => h
  | n + 1, d, off, h => by
    rw [Dev.mirrorReads]
    split
    next v bad d1 hr =>
      have h1 : d1.MemOk := .of_thd hr h.mirrorRead
      exact .iteThd h1 h1.mirrorReads

theorem Dev.MemOk.applyDelta {lp} : ∀ {l : List (Nat × DWord)} {d : Dev}, d.MemOk → (d.applyDelta lp l).MemOk
  | [], _, h => h
  | _ :: _, _, h => h.mirrorWord.applyDelta

/-! ### Recovery -/

theorem Dev.MemOk.restoreGate {p k} (h : d.MemOk) : (d.restoreGate p k).MemOk := .ite h.emitArm h.setDetector

theorem Dev.MemOk.restoreWait {p w} (h : d.MemOk) : (d.restoreWait p w).MemOk := by
  unfold Dev.restoreWait
  extract_lets
  split
  · exact h.setPair (Pair.MemOk.both (h.pair p).same fun _ h => h.completeWait)
  · exact h

theorem Dev.MemOk.restoreW {p i} (h : d.MemOk) : (d.restoreW p i).MemOk := h.setWaits

theorem Dev.MemOk.settleRestored {p} (h : d.MemOk) : (d.settleRestored p).MemOk :=
  .foldl (Dev.MemOk.foldl (Dev.MemOk.foldl h.withEvt fun _ _ h => h.restoreW) fun _ _ h => h.restoreWait) fun _ _ h =>
    h.restoreGate

theorem Dev.MemOk.haltAgain {p} (h : d.MemOk) : (d.haltAgain p).MemOk := .ite h.haltPair h

theorem Dev.MemOk.rewriteBundle {p i} (h : d.MemOk) : (d.rewriteBundle p i).MemOk := by
  generalize hf : Dev.rewriteBundle = f
  delta Dev.rewriteBundle at hf
  subst hf
  beta_reduce
  split
  next ws bad d1 hr =>
    have h1 : d1.MemOk := .of_thd hr h.mirrorReads
    exact .ite h1 (h1.setPair ((h1.pair p).both fun _ h => h.writeImem))

theorem Dev.MemOk.restart {p fix} (h : d.MemOk) : (d.restart p fix).MemOk := by
  unfold Dev.restart
  extract_lets x y d1 d2
  have hx : x.MemOk := (h.pair p).sorted.same
  have h1 : d1.MemOk := h.setPair ⟨hx.lead.restored, hx.shadow.restored⟩
  have h2 : d2.MemOk := by
    unfold d2
    split
    · exact h1.rewriteBundle
    · exact h1
  exact h2.settleRestored.haltAgain

theorem Dev.MemOk.takeSpare {q} (h : d.MemOk) : (d.takeSpare q).MemOk := h.withSpareGone

theorem Dev.MemOk.designate {p w} (h : d.MemOk) : (Machine.designate p w d).MemOk :=
  .ite h (.ite h.flag (Dev.MemOk.ite h.setFld.setFld.flag h.setFld.setFld).withSpareGone.capture)

theorem Dev.MemOk.noteSlow (h : d.MemOk) : d.noteSlow.MemOk := .foldl h fun _ _ h => .ite h.flag h

theorem Dev.MemOk.checkShort {lp} (h : d.MemOk) : (d.checkShort lp).MemOk := .ite h.setBitOf.flag.present h

theorem Dev.MemOk.toFence {p retire} (h : d.MemOk) : (d.toFence p retire).MemOk := h.keepPair

theorem Dev.MemOk.stopPair {p} (h : d.MemOk) : (d.stopPair p).MemOk := h.toFence.flag.presentPair

theorem Dev.MemOk.migrate {p q retire} (h : d.MemOk) : (d.migrate p q retire).MemOk := by
  generalize hf : Dev.migrate = f
  delta Dev.migrate at hf
  subst hf
  beta_reduce
  extract_lets lp own d1 b s
  have h1 : d1.MemOk := h.withBind.setFld.setPairState
  clear_value d1
  split
  next imem bad1 d2 e1 =>
    have h2 : d2.MemOk := .of_thd e1 h1.mirrorReads
    split
    next dmem bad2 d3 e2 =>
      have h3 : d3.MemOk := .of_thd e2 (.iteThd h2 h2.mirrorReads)
      split
      next frame bad3 d4 e3 =>
        have h4 : d4.MemOk := .of_thd e3 (.iteThd h3 h3.mirrorReads)
        split
        next got bad4 d5 e4 =>
          have h5 : d5.MemOk := .of_thd e4 (.iteThd h4 h4.mirrorReads)
          split
          · extract_lets d6
            have h6 : d6.MemOk := h5.withBind.setFld.setPairState
            exact (h6.setPair (h6.pair q).spareReset).stopPair
          · refine .haltAgain (.settleRestored (.checkShort (.setFld (.presentPair (.setFld (.count
              (.flag (.flag (.keepPair (.toFence ?_))))))))))
            have h6 := (h5.setPair (p := q) (Pair.memOk_takenOver (x := (d5.pair p).sorted) (y := d5.pair q) (s := s)
              (imem := imem) (dmem := dmem) (p := p))).takeSpare (q := q)
            exact .ite h6 h6.applyDelta.writeHeader

theorem Dev.MemOk.mismatch {p kind lg fix} (h : d.MemOk) : (d.mismatch p kind lg fix).MemOk := by
  unfold Dev.mismatch
  split
  · exact h
  · extract_lets
    split
    · exact h.flag.setFld.setFld.setFld.recoveryBreak.restart
    · split
      · exact h.flag.setFld.setFld.setFld.recoveryBreak.migrate
      · exact h.flag.setFld.setFld.setFld.recoveryBreak.stopPair

theorem Dev.MemOk.fenceReaction {p retire} (h : d.MemOk) : (d.fenceReaction p retire).MemOk := by
  unfold Dev.fenceReaction
  extract_lets
  split
  · exact h
  · split
    · exact h.recoveryBreak.migrate
    · exact h.recoveryBreak.toFence

theorem Dev.MemOk.shutPorts {p} (h : d.MemOk) : (d.shutPorts p).MemOk := h.withFab

theorem Dev.MemOk.fencePair {p} (h : d.MemOk) : (Machine.fencePair p d).MemOk :=
  .ite (Dev.MemOk.foldl (Dev.MemOk.setPair h.setPairState (h.pair p).cleared).shutPorts fun _ _ h =>
    h.setDetector).withPersist.journal.afterPairLost h

/-! ### Issue -/

theorem Dev.MemOk.pairCycle {p a b f} (h : d.MemOk) (ha : a.MemOk) (hb : b.MemOk)
    (hf : ∀ x : Pair, x.MemOk → (f x).MemOk) : (d.pairCycle p a b f).MemOk := by
  unfold Dev.pairCycle
  extract_lets _ _ d1
  have h1 : d1.MemOk := (h.setPair (hf _ ⟨ha.core, hb.core⟩)).noteBoth
  split
  · exact h1.mismatch
  · exact .noteOcc (.foldl h1 fun _ _ h => h.emit)

theorem Dev.MemOk.diverged {p} (h : d.MemOk) : (d.diverged p).MemOk := h.mismatch

theorem Dev.MemOk.stepped {p} (h : d.MemOk) : (d.stepped p).MemOk :=
  .ite (.ite h.keepPair.askHalt.settleHalt h.keepPair) h

theorem Dev.MemOk.unreadableBoth {p} (h : d.MemOk) : (d.unreadableBoth p).MemOk := by
  unfold Dev.unreadableBoth
  extract_lets x i d1
  have h1 : d1.MemOk := h.noteBoth
  clear_value d1
  exact h1.keepPair.presentPair

theorem Dev.MemOk.issueBundle {p b} (h : d.MemOk) : (d.issueBundle p b).MemOk := by
  unfold Dev.issueBundle
  extract_lets x lp env i imm hit a s d1 d2
  have ha : a.MemOk := (h.pair p).lead.issue.noting
  have hs : s.MemOk := (h.pair p).shadow.issue.noting
  have h1 : d1.MemOk := h.pairCycle ha hs fun _ h => .spend (.both h.same fun _ h => h.restartIsafe)
  clear_value d1
  have h2 : d2.MemOk := by
    unfold d2
    cases hit with
    | none => exact h1
    | some k => exact h1.askHalt
  exact h2.stepped.settleHalt

theorem Dev.MemOk.bundleIssue {p} (h : d.MemOk) : (Machine.bundleIssue p d).MemOk := by
  unfold Machine.bundleIssue
  split
  · exact h
  · extract_lets
    split
    · exact h.diverged
    · split
      · exact h.askHalt.settleHalt
      · exact h.issueBundle
    · exact h.unreadableBoth
    · exact h

theorem Dev.MemOk.presentInput {p c} (h : d.MemOk) : (d.presentInput p c).MemOk := by
  unfold Dev.presentInput
  extract_lets x y
  have hy : y.MemOk := (h.pair p).same
  have h1 : (d.setPair p y).MemOk := h.setPair hy
  split
  · exact h.setPair hy.same
  · exact h.setPair hy.same
  · exact h.setPair (hy.both fun _ h => h.completeWait).same
  · exact .ite (h.setPair (hy.both fun _ h => h.releaseGate).same) h1
  · exact (h.setPair hy.same).settleHalt
  · exact h1.releasePair
  · exact h1.releasePair.keepPair.flag
  · exact h.setPair hy.same
  · exact h.setPair hy.same
  · exact h.setPair hy.same
  · exact h.setPair hy.takeResponse
  · exact h.setPair hy.takeResponse

theorem Dev.MemOk.presentFirst {p} : ∀ {n} {d : Dev}, d.MemOk → (d.presentFirst p n).MemOk
  | 0, _, h => h
  | n + 1, d, h => by
    rw [Dev.presentFirst]
    split
    · exact .ite h.presentInput.noteOcc.presentFirst h
    · exact h

theorem Dev.MemOk.captureNext {p} (h : d.MemOk) : (d.captureNext p).MemOk := h.presentFirst

theorem Dev.MemOk.captureInput {p parityErr} (h : d.MemOk) : (Machine.captureInput p parityErr d).MemOk :=
  .ite (.ite h h.flag.presentPair.mismatch) h.captureNext

theorem Dev.MemOk.tagCompletion {p t} (h : d.MemOk) : (Machine.tagCompletion p t d).MemOk := by
  unfold Machine.tagCompletion
  split
  · exact h
  · extract_lets _ _ d1
    have h1 : d1.MemOk := by
      unfold d1
      split
      · exact h.presentFirst
      · split
        · exact .ite (h.setPair ⟨(h.pair p).lead.completeOp, .finishOp (h.pair p).shadow.same⟩) h.mismatch
        · exact h.mismatch
        · exact h.mismatch
        · split
          · exact h.setPair ⟨(h.pair p).lead.completeBarrier, (h.pair p).shadow.completeBarrier⟩
          · exact h.mismatch
          · exact h.mismatch
          · exact h
    exact h1.noteOcc.settleHalt

theorem Dev.MemOk.arrive {p} : ∀ {l : List (Fin 5)} {d : Dev} {e n}, d.MemOk → (d.arrive p e n l).1.MemOk
  | [], _, _, _, h => h
  | _ :: _, _, _, _, h => h.captureNext.arrive

/-- An entry that keeps the memories of a core keeps those of both. -/
theorem Dev.MemOk.enterBoth {p f cycles} (h : d.MemOk) (hf : ∀ c : Core, c.MemOk → (f c).MemOk) :
    (d.enterBoth p f cycles).MemOk :=
  (h.pairCycle (hf _ (h.pair p).lead) (hf _ (h.pair p).shadow) fun _ h => h.spend).settleHalt

theorem Dev.MemOk.interruptEntry {p arrivals} (h : d.MemOk) : (Machine.interruptEntry p arrivals d).MemOk := by
  unfold Machine.interruptEntry
  split
  · exact h
  · split
    · exact h.diverged
    · split
      · next ha => exact (Dev.MemOk.of_fst ha h.arrive).enterBoth fun _ h => h.enterInterrupt
      · next ha => exact (Dev.MemOk.of_fst ha h.arrive).enterBoth fun _ h => h.enterExpiry
    · exact h

theorem Dev.MemOk.precise {p enter displaced arrivals} (h : d.MemOk) (he : ∀ c : Core, c.MemOk → (enter c).MemOk)
    (hd : ∀ c : Core, c.MemOk → (displaced c).MemOk) : (d.precise p enter displaced arrivals).MemOk := by
  unfold Dev.precise
  split
  · next ha => exact (Dev.MemOk.of_fst ha h.arrive).enterBoth hd
  · next ha => exact ((Dev.MemOk.of_fst ha h.arrive).enterBoth he).stepped

theorem Dev.MemOk.preciseEntry {p arrivals} (h : d.MemOk) : (Machine.preciseEntry p arrivals d).MemOk := by
  unfold Machine.preciseEntry
  split
  · exact h
  · extract_lets new
    have hn e : (new e).MemOk := h.precise (fun _ h => h.enterPrecise) fun _ h => h.displaced
    split
    · exact h.diverged
    · exact hn _
    · exact hn _
    · exact hn _
    · exact h.precise (fun _ h => h.enterKept) fun _ h => h.enterExpiry
    · exact h

theorem Dev.MemOk.impreciseEntry {p arrivals} (h : d.MemOk) : (Machine.impreciseEntry p arrivals d).MemOk := by
  unfold Machine.impreciseEntry
  split
  · exact h
  · split
    · exact h.diverged
    · split
      · next ha => exact (Dev.MemOk.of_fst ha h.arrive).enterBoth fun _ h => h.enterExpiry
      · next ha => exact (Dev.MemOk.of_fst ha h.arrive).enterBoth fun _ h => h.enterImprecise
    · exact h

theorem Dev.MemOk.expiryEntry {p} (h : d.MemOk) : (Machine.expiryEntry p d).MemOk := by
  unfold Machine.expiryEntry
  split
  · exact h
  · split
    · exact h.diverged
    · exact h.enterBoth fun _ h => h.enterExpiry
    · exact h

theorem Dev.MemOk.returnRestore {p} (h : d.MemOk) : (Machine.returnRestore p d).MemOk :=
  .ite (h.setPair ((h.pair p).both fun _ h => h.restore).spend).settleHalt h

theorem Dev.MemOk.isafeStarve {p} (h : d.MemOk) : (Machine.isafeStarve p d).MemOk := .ite h.keepPair.flag.presentPair h

/-! ### Checkpoint -/

theorem Dev.MemOk.checkpointDue {p} (h : d.MemOk) : (Machine.checkpointDue p d).MemOk := .ite h.keepPair h

theorem Dev.MemOk.overran {p} (h : d.MemOk) : (d.overran p).MemOk := .ite h h.keepPair.flag.presentPair

theorem Dev.MemOk.dropSlice {o} (h : d.MemOk) : (d.dropSlice o).MemOk := h.keepPair.withTest

theorem Dev.MemOk.dropLateSlice {p} (h : d.MemOk) : (d.dropLateSlice p).MemOk := by
  unfold Dev.dropLateSlice
  split
  · exact .ite h.dropSlice h
  · exact h

theorem Dev.MemOk.checkpointK0 {p} (h : d.MemOk) : (Machine.checkpointK0 p d).MemOk := by
  unfold Machine.checkpointK0
  split
  · extract_lets d1 x d2 d3
    have h1 : d1.MemOk := h.dropLateSlice
    have hx : x.MemOk := ((h1.pair p).both fun _ h => h.handAcked).spend
    have h3 : d3.MemOk := .ite (h1.setPair hx).overran (h1.setPair hx)
    exact .ite h3.mismatch h3.keepPair
  · exact h

theorem Dev.MemOk.segOverrun {p} (h : d.MemOk) : (Machine.segOverrun p d).MemOk := .ite h.overran h

theorem Dev.MemOk.selfTest {p lgFail} (h : d.MemOk) : (d.selfTest p lgFail).MemOk :=
  .ite h.setFld.setFld h.setFld.setFld.flag.presentPair

theorem Dev.MemOk.holdSelfTest {p lgFail} (h : d.MemOk) : (d.holdSelfTest p lgFail).MemOk :=
  .ite h.keepPair.withTest.selfTest h

theorem Dev.MemOk.sliceFailed {p slice} (h : d.MemOk) : (d.sliceFailed p slice).MemOk := h.setFld.flag.present

theorem Dev.MemOk.holdSlice {p fail} (h : d.MemOk) : (d.holdSlice p fail).MemOk := by
  unfold Dev.holdSlice
  extract_lets
  split
  · exact h
  · exact .ite h.keepPair.sliceFailed h.keepPair.withTest

theorem Dev.MemOk.holdStep {p} (h : d.MemOk) : (d.holdStep p).MemOk := .ite h (h.setPair (h.pair p).takeStep)

theorem Dev.MemOk.retrySucceeded {p} (h : d.MemOk) : (d.retrySucceeded p).MemOk := .ite h.flag.count.presentPair h

theorem Dev.MemOk.checkpointCommit {p h'} (h : d.MemOk) : (Machine.checkpointCommit p h' d).MemOk := by
  unfold Machine.checkpointCommit
  extract_lets x lp b s d1 d2 d3
  split
  · split
    · exact h.mismatch
    · have h1 : d1.MemOk := h.writeSlot.retrySucceeded
      exact (h1.setPair (h1.pair p).resumed).setFld.holdSelfTest.holdSlice.holdStep.noteOcc.settleHalt
  · exact h

theorem Dev.MemOk.deltaApplied {p} (h : d.MemOk) : (Machine.deltaApplied p d).MemOk :=
  .ite (.ite h.keepPair.mirrorReads h.keepPair.mirrorReads.applyDelta.writeHeader) h

theorem Dev.MemOk.clearLatch {c} (h : d.MemOk) : (d.clearLatch c).MemOk := h.setLatch

theorem Dev.MemOk.releaseHead {p e} (h : d.MemOk) : (d.releaseHead p e).MemOk := by
  unfold Dev.releaseHead
  extract_lets lp done
  have hdone {e : Dev} (h : e.MemOk) : (done e).MemOk := h.keepPair
  split
  · exact hdone h.produce
  · exact hdone h.clearLatch
  · exact hdone h.keeperCheck
  · exact hdone h.acknowledge
  · exact .ite h h.keepPair.sendReq
  · exact .ite h h.keepPair.sendReq

theorem Dev.MemOk.releaseNext {p q} (h : d.MemOk) : (d.releaseNext p q).MemOk := by
  unfold Dev.releaseNext
  extract_lets
  split
  · exact h
  · split
    · exact h.keepPair.mismatch
    · split
      · exact h.keepPair
      · exact .ite h.releaseHead h

theorem Dev.MemOk.release {p} (h : d.MemOk) : (Machine.release p d).MemOk := h.releaseNext

theorem Dev.MemOk.checkIn {p} (h : d.MemOk) : (Machine.checkIn p d).MemOk := h.releaseNext

theorem Dev.MemOk.entryFailure {p} (h : d.MemOk) : (Machine.entryFailure p d).MemOk := by
  unfold Machine.entryFailure
  extract_lets
  split
  · exact h
  · exact .ite h.keepPair.count h.keepPair.setFld.setFld.setFld.flag

theorem Dev.MemOk.cmptestStart {p} (h : d.MemOk) : (Machine.cmptestStart p d).MemOk := h.keepPair.setFld

theorem Dev.MemOk.spareFirst {q} (h : d.MemOk) : (Machine.spareFirst q d).MemOk := by
  unfold Machine.spareFirst
  split
  · exact h
  · exact .ite h h.keepPair.setPairState.bundleIssue

/-! ### Reset -/

theorem Dev.MemOk.fencePending {p} (h : d.MemOk) : (d.fencePending p).MemOk :=
  .ite h.setPairState.withPersist.journal h

theorem Dev.MemOk.resetRegisters (h : d.MemOk) : d.resetRegisters.MemOk := by
  have h1 : Dev.MemOk { d with io := ioReset d.io } := ⟨h.banks, h.pairs⟩
  exact (Dev.MemOk.ite h1.setFld h1).setFld

/-- A list of pairs each of which is updated by what keeps canonical memories canonical. -/
theorem Pair.memOk_map {l : List Pair} {f : Pair → Pair} (h : ∀ x ∈ l, x.MemOk) (hf : ∀ x : Pair, x.MemOk → (f x).MemOk) :
    ∀ x ∈ l.map f, x.MemOk :=
  List.forall_mem_map.2 fun x hx => hf x (h x hx)

theorem Dev.MemOk.deviceReset {trig} (h : d.MemOk) : (d.deviceReset trig).MemOk := by
  unfold Dev.deviceReset
  extract_lets d1 d2 d3
  have h1 : d1.MemOk := .foldl h fun _ _ h => h.fencePending
  have h3 : d3.MemOk := .ite h1.resetRegisters.flag h1.resetRegisters
  clear_value d3
  exact ⟨ramWf_ramInvalidate h3.banks, Pair.memOk_map h3.pairs fun _ h => h.cleared.same⟩

theorem Dev.MemOk.keptReset {input detail trig} (h : d.MemOk) : (d.keptReset input detail trig).MemOk :=
  h.assertForce.deviceReset.withIsland

/-! ### Island -/

theorem Dev.MemOk.setOldest (h : d.MemOk) : d.setOldest.MemOk := h.setFld

theorem Dev.MemOk.newRecord {n detail k code cls} (h : d.MemOk) : (d.newRecord n detail k code cls).MemOk := by
  unfold Dev.newRecord
  extract_lets e d1 d2 d3 d4 u d5
  have h3 : d3.MemOk := h.setFld.setFld.setFld.setFld.setFld.setFld.setPair64
  have h5 : d5.MemOk := .ite h3.setFld.setFld.setFld h3.setFld.setFld.count.flag
  exact .ite h5.setOldest.journal h5.setOldest

theorem Dev.MemOk.record {n detail k code} (h : d.MemOk) : (d.record n detail k code).MemOk := by
  unfold Dev.record
  extract_lets cls _ d1 d2 e d3
  have h1 : d1.MemOk := .ite h.withIsland h
  have h3 : d3.MemOk := .ite h1.setFld.setFld h1.setFld.newRecord
  exact .ite h3.setBitOf h3

theorem Dev.MemOk.safeStopReaction (h : d.MemOk) : d.safeStopReaction.MemOk := h.safeStopCause

theorem Dev.MemOk.pairReaction {n p code} (h : d.MemOk) : (d.pairReaction n p code).MemOk :=
  .ite h.mismatch (.ite h.fenceReaction h)

theorem Dev.MemOk.react {n detail code} (h : d.MemOk) : (d.react n detail code).MemOk := by
  unfold Dev.react
  extract_lets d1
  have h1 : d1.MemOk := by
    unfold d1
    split
    · exact h.pairReaction
    · exact h
  exact .ite h1.resetReaction (.ite h1.safeStopReaction h1)

theorem Dev.MemOk.processFault (h : d.MemOk) : (Machine.processFault d).MemOk := by
  unfold Machine.processFault
  split
  · exact h
  · exact .ite h.withIsland.record h.withIsland.record.react

theorem Dev.MemOk.dropLane {lane} (h : d.MemOk) : (Machine.dropLane lane d).MemOk := .ite h.clearBitOf.present h

theorem Dev.MemOk.resyncLanes (h : d.MemOk) : (Machine.resyncLanes d).MemOk := h.setFld

theorem Dev.MemOk.lanesDiffer (h : d.MemOk) : (Machine.lanesDiffer d).MemOk := h.keptReset

theorem Dev.MemOk.hourlyCounts (h : d.MemOk) : (Machine.hourlyCounts d).MemOk :=
  .ite (.ite h.withIsland h.withIsland.journal) h

theorem Dev.MemOk.logAck {n} (h : d.MemOk) : (Machine.logAck n d).MemOk := h.setFld.setOldest

theorem Dev.MemOk.clearFaultCounts (h : d.MemOk) : (Machine.clearFaultCounts d).MemOk :=
  .foldl h fun _ _ h => h.setFld

theorem Dev.MemOk.reactWrite {i v} (h : d.MemOk) : (Machine.reactWrite i v d).MemOk := .ite h.flag (.ite h h.setFld)

/-! ### Power -/

theorem Dev.MemOk.noteLowin (h : d.MemOk) : d.noteLowin.MemOk := .ite (.ite h h.flag.count) h.setFld

theorem Dev.MemOk.setPort {b v} (h : d.MemOk) : (d.setPort b v).MemOk := .ite h.withPower.noteLowin h.withPower

theorem Dev.MemOk.setPorts {va vb} (h : d.MemOk) : (d.setPorts va vb).MemOk := .ite h.withPower.noteLowin h.withPower

theorem Dev.MemOk.portLoss {b v} (h : d.MemOk) : (Machine.portLoss b v d).MemOk :=
  .ite h.setPort.flag.present h.setPort

theorem Dev.MemOk.pfail {hold} (h : d.MemOk) : (Machine.pfail hold d).MemOk := by
  unfold Machine.pfail
  split
  · exact h
  · extract_lets d1 _ d2 d3 d4
    have h4 : d4.MemOk := (Dev.MemOk.ite h h.setPorts).withPower.flag.flag.present.produce.journal
    exact ⟨h4.banks, h4.pairs⟩

theorem Dev.MemOk.settlePowerFail {detail} (h : d.MemOk) : (d.settlePowerFail detail).MemOk := h.withIsland

theorem Dev.MemOk.pfailLine {hold} (h : d.MemOk) : (Machine.pfailLine hold d).MemOk :=
  .ite (.ite h h.setPorts) h.pfail

theorem Dev.MemOk.rideEnd (h : d.MemOk) : (Machine.rideEnd d).MemOk := by
  unfold Machine.rideEnd
  split
  · exact h
  · exact .ite h (.ite h.withPower.setFld.count.flag.settlePowerFail h.flag.settlePowerFail.safeStopCause)

theorem Dev.MemOk.stopPairs (h : d.MemOk) : d.stopPairs.MemOk := ⟨h.banks, Pair.memOk_map h.pairs fun _ h => h.same⟩

theorem Dev.MemOk.sealDone (h : d.MemOk) : (Machine.sealDone d).MemOk :=
  .ite ((Dev.MemOk.ite h h.sealPage).withPower.stopPairs) h

theorem Dev.MemOk.inputReturn (h : d.MemOk) : (Machine.inputReturn d).MemOk :=
  .ite (.deviceReset (.ite h h.sealPage)) h

theorem Dev.MemOk.converterStop (h : d.MemOk) : (Machine.converterStop d).MemOk :=
  h.setPorts.withPower.stopPairs.assertForce

/-- The device right after power-on reset: no memory holds anything. -/
theorem Dev.MemOk.reset : Dev.reset.MemOk := ⟨rfl, List.forall_mem_replicate.2 (.inr .fresh)⟩

/-- A device switched on has canonical memories whatever it was before. -/
theorem Dev.memOk_switchedOn (d : Dev) : d.switchedOn.MemOk := by
  unfold Dev.switchedOn
  extract_lets p up va vb good _ _ e
  have he : e.MemOk := ⟨Dev.MemOk.reset.banks, Dev.MemOk.reset.pairs⟩
  exact .ite he.flag he

theorem Dev.MemOk.powerOn (h : d.MemOk) : (Machine.powerOn d).MemOk := .ite h d.memOk_switchedOn

theorem Dev.MemOk.temperature {base dies} (h : d.MemOk) : (Machine.temperature base dies d).MemOk := by
  unfold Machine.temperature
  split
  · exact h
  · extract_lets _ d1 _ d2 hi d3 d4
    have h2 : d2.MemOk := .ite h.withPower.flag h.withPower
    have h4 : d4.MemOk := .foldl (Dev.MemOk.ite h2 h2.flag) fun _ _ h => h.present
    split
    · exact h.withPower.withPower
    · split
      · exact h4
      · exact h4.record.keptReset.withPower

theorem Dev.MemOk.supplyOverload {v5} (h : d.MemOk) : (Machine.supplyOverload v5 d).MemOk := h.flag.withPower

theorem Dev.MemOk.setSstop {i x} (h : d.MemOk) : (d.setSstop i x).MemOk :=
  .ite h (.ite h.withIsland.withIsland h.withIsland.withIsland)

theorem Dev.MemOk.sstop {i x} (h : d.MemOk) : (Machine.sstop i x d).MemOk :=
  .ite h.setSstop.present.safeStopCause h.setSstop

theorem Dev.MemOk.sstopDiscrep (h : d.MemOk) : (Machine.sstopDiscrep d).MemOk := .ite h.withIsland.present h

theorem Dev.MemOk.clockLoss {c} (h : d.MemOk) : (Machine.clockLoss c d).MemOk := by
  unfold Machine.clockLoss
  split
  · exact h.withIsland.present
  · exact h.present
  · exact h.present
  · exact h.present

/-! ### Lifecycle -/

theorem Dev.MemOk.endGrant (h : d.MemOk) : d.endGrant.MemOk := by
  unfold Dev.endGrant
  split
  · exact h
  · exact h.withTrust.flag.journal

theorem Dev.MemOk.lifecycleEffects {s} (h : d.MemOk) : (d.lifecycleEffects s).MemOk := by
  unfold Dev.lifecycleEffects
  extract_lets _ d1
  have h1 : d1.MemOk := .ite h.withPersist.endGrant h
  exact .ite h1.withTrust h1

theorem Dev.MemOk.lifecycleTo {s} (h : d.MemOk) : (d.lifecycleTo s).MemOk :=
  h.withPersist.journal.withTrust.lifecycleEffects.endGrant.withPersist.journal

theorem Dev.MemOk.checkSlot {b} (h : d.MemOk) : (d.checkSlot b).2.MemOk := .ite h.present h

theorem Dev.MemOk.blowAnchor (h : d.MemOk) : d.blowAnchor.MemOk := .ite h.withTrust.journal h

theorem Dev.MemOk.raiseArb {svn} (h : d.MemOk) : (d.raiseArb svn).MemOk :=
  .ite h.withPersist.journal.flag.blowAnchor h

/-! ### Modes -/

theorem Dev.MemOk.showSlots (h : d.MemOk) : d.showSlots.MemOk := h.setFld.setFld.setFld.setFld.setFld

theorem Dev.MemOk.setActive {b} (h : d.MemOk) : (d.setActive b).MemOk := h.withPersist.journal.showSlots

theorem Dev.MemOk.failStart {b cause} (h : d.MemOk) : (d.failStart b cause).MemOk :=
  h.withPersist.journal.journal.showSlots

theorem Dev.MemOk.confirmStart (h : d.MemOk) : d.confirmStart.MemOk :=
  .ite h h.withPersist.flag.journal.setActive.raiseArb

theorem Dev.MemOk.confirmExpiry (h : d.MemOk) : (Machine.confirmExpiry d).MemOk := by
  unfold Machine.confirmExpiry
  split
  · exact h
  · exact .ite h h.failStart.deviceReset

theorem Dev.MemOk.haltAll (h : d.MemOk) : d.haltAll.MemOk := .foldl h fun _ _ h => .ite h.capture h

theorem Dev.MemOk.enterStandby (h : d.MemOk) : d.enterStandby.MemOk := by
  unfold Dev.enterStandby
  extract_lets d1
  have h1 : d1.MemOk := h.assertForce.enterMode
  exact .ite h1.withStart.flag.haltAll h1.withStart.withStart

theorem Dev.MemOk.unfence {p} (h : d.MemOk) : (d.unfence p).MemOk := h.setPairState.withPersist.journal

theorem Dev.MemOk.command {code arg} (h : d.MemOk) : (d.command code arg).MemOk :=
  .ite h.confirmStart.enterMode (.ite h.assertForce.enterMode
    (.ite h.enterStandby (.ite h.confirmStart.enterMode
    (.ite h.enterMode (.ite h.setActive.deviceReset (.ite h.unfence h.deviceReset))))))

theorem Dev.MemOk.judge {code arg} (h : d.MemOk) : (d.judge code arg).2.MemOk :=
  .iteSnd h.refuse.cmdStat (.iteSnd h.cmdStat h.cmdStat.command)

theorem Dev.MemOk.carryOut {src code arg} (h : d.MemOk) : (d.carryOut src code arg).MemOk := by
  unfold Dev.carryOut
  split
  · exact .ite h.cmdStat (.ite h.cmdStat h.judge)
  · exact .ite h.cmdStat (.ite h.count h.judge)

theorem Dev.MemOk.issueCommand {src code arg} (h : d.MemOk) : (d.issueCommand src code arg).MemOk :=
  .ite h.withStart h.carryOut

theorem Dev.MemOk.carryWaiting : ∀ {l : List (CmdSrc × Nat × Nat)} {d : Dev}, d.MemOk → (Dev.carryWaiting l d).MemOk
  | [], _, h => h
  | _ :: _, _, h => .ite h h.carryOut.carryWaiting

theorem Dev.MemOk.standbyComplete (h : d.MemOk) : (Machine.standbyComplete d).MemOk := by
  unfold Machine.standbyComplete
  split
  · exact h
  · exact .ite h ((Dev.MemOk.ite h h.sealPage).withStart.stopPairs.carryWaiting)

theorem Dev.MemOk.wakeUp {w} (h : d.MemOk) : (Machine.wakeUp w d).MemOk := .ite h.setFld.deviceReset h

theorem Dev.MemOk.canWake {k} (h : d.MemOk) : (Machine.canWake k d).MemOk := .ite h.flag.wakeUp h

/-! ### Boot -/

theorem Dev.MemOk.formatJournal (h : d.MemOk) : d.formatJournal.MemOk := .ite h.withNvs h

theorem Dev.MemOk.restoreRetained (h : d.MemOk) : d.restoreRetained.MemOk :=
  (Dev.MemOk.foldl h.setFld.setWord fun _ _ h => (Dev.MemOk.ite h.setPairState h).keepPair.setFld).showSlots

theorem Dev.MemOk.journalPast (h : d.MemOk) : d.journalPast.MemOk := by
  unfold Dev.journalPast
  extract_lets d1 d2 d3 _ d4
  have h2 : d2.MemOk := by
    unfold d2
    split
    · exact h.journal.failStart
    · exact h.journal
  have h3 : d3.MemOk := .ite h2.journal.flag h2
  have h4 : d4.MemOk := by
    unfold d4
    split
    · exact h3.withIsland.journal
    · exact h3
  exact .ite h4.withTrust.journal h4

theorem Dev.MemOk.trustStart (h : d.MemOk) : d.trustStart.MemOk := by
  unfold Dev.trustStart
  extract_lets d2
  have h2 : d2.MemOk := by
    unfold d2
    split
    · exact h.withTrust.lifecycleEffects.withPersist.journal
    · exact h
  exact h2.lifecycleEffects.blowAnchor.withTrust

theorem Dev.MemOk.nextEpoch (h : d.MemOk) : d.nextEpoch.MemOk := h.withPersist.journal

theorem Dev.MemOk.stepsToS3 (h : d.MemOk) : d.stepsToS3.MemOk := by
  unfold Dev.stepsToS3
  extract_lets _ _ d1
  have h1 : d1.MemOk := ⟨h.banks, h.pairs⟩
  exact h1.formatJournal.restoreRetained.journalPast.trustStart.nextEpoch

theorem Dev.MemOk.retire {p} (h : d.MemOk) : (d.retire p).MemOk := h.setPairState.withPersist.journal

theorem Dev.MemOk.setStep {p s} (h : d.MemOk) : (d.setStep p s).MemOk := h.setFld.withPersist.journal

theorem Dev.MemOk.planAtStart {steps p} (h : d.MemOk) : (d.planAtStart steps p).MemOk := by
  unfold Dev.planAtStart
  split
  · exact h
  · split
    · exact h
    · split
      · exact h.retire
      · extract_lets d1
        have h1 : d1.MemOk := .ite h h.setStep
        exact h1.keepPair

theorem Dev.MemOk.plan {steps} (h : d.MemOk) : (d.plan steps).MemOk :=
  .foldl (Dev.MemOk.noteSlow (.foldl h fun _ _ h => h.planAtStart)) fun _ _ h => h.checkShort

theorem Dev.MemOk.tryUnfenced {fails p} (h : d.MemOk) : (d.tryUnfenced fails p).MemOk :=
  .ite h (.ite h.withPersist.setPairState.sliceFailed.withPersist.journal h.withPersist)

theorem Dev.MemOk.loadPair {p lp st entry im dm lgFail} (h : d.MemOk) :
    (d.loadPair p lp st entry im dm lgFail).MemOk :=
  have hc {c : Core} (hd : c.dmem = ramImage dm) (hi : c.imem = ramImage im) : c.MemOk :=
    ⟨hd ▸ ramWf_ramImage dm, hi ▸ ramWf_ramImage im⟩
  (h.setPair ⟨hc rfl rfl, hc rfl rfl⟩).setPairState.withBind.setFld.mirrorWords.mirrorWords.writeSlot.selfTest

theorem Dev.MemOk.loadFrom {o e p st cmpFails} (h : d.MemOk) : (d.loadFrom o e p st cmpFails).MemOk := h.loadPair

theorem Dev.MemOk.unloadPairs (h : d.MemOk) : d.unloadPairs.MemOk := .foldl h fun _ _ h => .ite h h.setPairState

theorem Dev.MemOk.loadSlot {o env e} (h : d.MemOk) (he : d.loadSlot o env = some e) : e.MemOk := by
  unfold Dev.loadSlot at he
  extract_lets d1 d2 role acts skipped spares cover d3 d4 d5 at he
  have h1 : d1.MemOk := .foldl h fun _ _ h => h.tryUnfenced
  split at he
  · cases he
  · have h3 : d3.MemOk := .foldl h1.unloadPairs fun _ _ h => h.loadFrom
    have h4 : d4.MemOk := .foldl h3 fun _ _ h => h.loadFrom
    have h5 : d5.MemOk := .foldl h4 fun _ _ h => h.loadFrom
    clear_value d5
    rw [← Option.some.inj he]
    exact h5.setFld

theorem Dev.MemOk.enterFog {env code} (h : d.MemOk) : (d.enterFog env code).MemOk := by
  unfold Dev.enterFog
  extract_lets d1 d2 d3
  have h2 : d2.MemOk := .foldl h.setFld.unloadPairs fun _ _ h => h.tryUnfenced
  have h3 : d3.MemOk := by
    unfold d3
    split
    · exact h2.loadPair
    · exact h2
  exact h3.enterMode.withStart

theorem Dev.MemOk.started {b} (h : d.MemOk) : (d.started b).MemOk := h.setFld.withStart

theorem Dev.MemOk.attempts {env} : ∀ {k last} {d : Dev}, d.MemOk → (Dev.attempts env k last d).MemOk
  | 0, _, _, h => h.enterFog
  | k + 1, last, d, h => by
    rw [Dev.attempts]
    split
    · exact h.enterFog
    · extract_lets _ d0
      split
      next cause d1 hc =>
        have h1 : d1.MemOk := .of_snd hc (Dev.MemOk.checkSlot (.journal h.withPersist))
        refine .ite h1.failStart.attempts ?_
        extract_lets d2
        split
        · exact h1.plan.failStart.attempts
        · next hl => exact (h1.plan.loadSlot hl).started

theorem Dev.MemOk.startUp {env} (h : d.MemOk) : (d.startUp env).MemOk :=
  .ite (.enterFog ⟨h.banks, h.pairs⟩) (.ite h.stepsToS3.enterFog h.stepsToS3.attempts)

theorem Dev.MemOk.resetAndStart {env} (h : d.MemOk) : (Machine.resetAndStart env d).MemOk := by
  unfold Machine.resetAndStart
  extract_lets d1
  have h1 : d1.MemOk := .ite h.deviceReset (.ite h h.deviceReset)
  exact .ite h1 h1.startUp.withLantern

/-! ### Lantern -/

theorem Dev.MemOk.setTb {t x} (h : d.MemOk) : (d.setTb t x).MemOk := h.withLantern

theorem Dev.MemOk.carriersJump {t} (h : d.MemOk) : (d.carriersJump t).MemOk := .foldl h fun _ _ h => .ite h.flag h

theorem Dev.MemOk.jumped {t} (h : d.MemOk) : (d.jumped t).MemOk := h.setBitOf.carriersJump.present

theorem Dev.MemOk.stepTb {t x from_ tgt row} (h : d.MemOk) : (d.stepTb t x from_ tgt row).MemOk := by
  unfold Dev.stepTb
  split
  · exact h.setTb.jumped
  · exact h.setTb
  · exact h.setTb

theorem Dev.MemOk.takeSample {t s} (h : d.MemOk) : (d.takeSample t s).MemOk := by
  unfold Dev.takeSample
  extract_lets
  split
  · exact h.setTb
  · exact .ite h.setTb h.stepTb

theorem Dev.MemOk.timebaseSample {t det} (h : d.MemOk) : (Machine.timebaseSample t det d).MemOk := by
  unfold Machine.timebaseSample
  extract_lets
  split
  · exact h
  · split
    · exact h
    · extract_lets d1
      have h1 : d1.MemOk := .ite h.setTb h
      exact .ite h1.setTb h1.takeSample

theorem Dev.MemOk.offerSample {src sel s} (h : d.MemOk) : (d.offerSample src sel s).MemOk :=
  .foldl h fun _ _ h => .ite h.setTb h

theorem Dev.MemOk.offerConversion {ch code time} (h : d.MemOk) : (d.offerConversion ch code time).MemOk :=
  .foldl h fun _ _ h => .ite h.setTb h

theorem Dev.MemOk.lineSample {t hi} (h : d.MemOk) : (Machine.lineSample t hi d).MemOk := .ite h.setTb h

theorem Dev.MemOk.adjWrite {t v} (h : d.MemOk) : (Machine.adjWrite t v d).MemOk := .ite h.setTb h

theorem Dev.MemOk.holdResume {t} (h : d.MemOk) : (Machine.holdResume t d).MemOk := by
  unfold Machine.holdResume
  extract_lets
  split
  · exact h
  · exact .ite h.setTb h

theorem Dev.MemOk.restartTb {t} (h : d.MemOk) : (d.restartTb t).MemOk := h.setTb

theorem Dev.MemOk.timebaseWrite {t w} (h : d.MemOk) : (Machine.timebaseWrite t w d).MemOk := by
  unfold Machine.timebaseWrite
  extract_lets a key was old d1 d2
  have h2 : d2.MemOk := .ite h.storeReg.setFld h.storeReg
  exact .foldl (Dev.MemOk.ite h2.restartTb h2) fun _ _ h => .ite h.forceGroup h

theorem Dev.MemOk.lossTold {t} (h : d.MemOk) : (d.lossTold t).MemOk := h.setBitOf.present

theorem Dev.MemOk.sourceLost {t} (h : d.MemOk) : (Machine.sourceLost t d).MemOk := .ite h.setTb.lossTold h

theorem Dev.MemOk.mainsLock {t} (h : d.MemOk) : (Machine.mainsLock t d).MemOk := .ite h.setTb h

theorem Dev.MemOk.mainsLost {t} (h : d.MemOk) : (Machine.mainsLost t d).MemOk := .ite h.setTb.lossTold h

theorem Dev.MemOk.tickTb {t} (h : d.MemOk) : (d.tickTb t).MemOk := .ite h.setTb (.ite h.stepTb h.setTb)

theorem Dev.MemOk.tickLantern (h : d.MemOk) : d.tickLantern.MemOk := .foldl h.withLantern fun _ _ h => .ite h.tickTb h

theorem Dev.MemOk.armCmp {c} (h : d.MemOk) : (d.armCmp c).MemOk := h.withLantern

theorem Dev.MemOk.cmpAfter {c w keepCfg keepAngle x} (h : d.MemOk) : (d.cmpAfter c w keepCfg keepAngle x).MemOk :=
  .ite (.ite h h.setFld) ((Dev.MemOk.ite h h.setFld).setFld)

theorem Dev.MemOk.cmpWrite {c r a w} (h : d.MemOk) : (d.cmpWrite c r a w).MemOk := h.withLantern.storeReg.armCmp

theorem Dev.MemOk.comparator {c} (h : d.MemOk) : (Machine.comparator c d).MemOk := by
  unfold Machine.comparator
  extract_lets
  split
  · exact h
  · split
    · exact h
    · exact .ite h h.withLantern.setPair64.setFld.setFld.flag.cmpAfter.armCmp.produce

theorem Dev.MemOk.gateRelease {n k} (h : d.MemOk) : (Machine.gateRelease n k d).MemOk := by
  unfold Machine.gateRelease
  extract_lets
  split
  · exact h
  · split
    · exact h
    · exact .ite h h.withLantern.capture

/-! ### Drive -/

theorem Dev.MemOk.checkForce {g} (h : d.MemOk) : (d.checkForce g).MemOk := .ite h h.forceGroup

theorem Dev.MemOk.passLt {g M} (h : d.MemOk) : (d.passLt g M).MemOk := h.setGroup

theorem Dev.MemOk.passAngle {g} (h : d.MemOk) : (d.passAngle g).MemOk := .ite h.passLt h

theorem Dev.MemOk.passTime {g} (h : d.MemOk) : (d.passTime g).MemOk := .ite (Dev.MemOk.ite h.passLt h).passLt h

theorem Dev.MemOk.noteShadow {g} (h : d.MemOk) : (d.noteShadow g).MemOk := .ite h.setGroup h

theorem Dev.MemOk.tickOutputs {g} (h : d.MemOk) : (d.tickOutputs g).MemOk := .ite h h.setGroup

theorem Dev.MemOk.tickPwm (h : d.MemOk) : d.tickPwm.MemOk := .foldl h fun _ _ h => h.noteShadow.passTime.tickOutputs

theorem Dev.MemOk.endPwm (h : d.MemOk) : d.endPwm.MemOk := .foldl h fun _ _ h => h.passAngle

theorem Dev.MemOk.tickPins (h : d.MemOk) : d.tickPins.MemOk := .foldl h fun _ _ h => .ite h h.setGroup

theorem Dev.MemOk.startGroup {g} (h : d.MemOk) : (d.startGroup g).MemOk := h.setFld.setFld.setGroup.checkForce

theorem Dev.MemOk.enableGroup {g} (h : d.MemOk) : (Machine.enableGroup g d).MemOk := .ite h h.startGroup

theorem Dev.MemOk.stopGroup {g} (h : d.MemOk) : (d.stopGroup g).MemOk := .ite h h.setGroup

theorem Dev.MemOk.takeShadow {g valley e} (h : d.MemOk) : (d.takeShadow g valley e).MemOk := h.setGroup

theorem Dev.MemOk.releaseGroup {g e} (h : d.MemOk) : (d.releaseGroup g e).MemOk := .ite h.setGroup h

theorem Dev.MemOk.loadEvent {g valley e} (h : d.MemOk) : (d.loadEvent g valley e).MemOk := by
  unfold Dev.loadEvent
  extract_lets ldm again d1
  have h1 : d1.MemOk := h.takeShadow.flag
  exact (Dev.MemOk.ite h.count.flag (.ite h1.setFld h1)).releaseGroup.checkForce

theorem Dev.MemOk.carrierValley {g} (h : d.MemOk) : (Machine.carrierValley g d).MemOk := by
  unfold Machine.carrierValley
  extract_lets
  split
  · exact h
  · extract_lets d1
    have h1 : d1.MemOk := h.setGroup.produce
    exact .ite h1.loadEvent h1

theorem Dev.MemOk.carrierPeak {g} (h : d.MemOk) : (Machine.carrierPeak g d).MemOk := by
  unfold Machine.carrierPeak
  extract_lets
  split
  · exact h
  · extract_lets d1
    have h1 : d1.MemOk := h.setGroup.produce
    exact .ite h1.loadEvent h1

theorem Dev.MemOk.syncGroup {g} (h : d.MemOk) : (d.syncGroup g).MemOk := .ite h.setGroup h

theorem Dev.MemOk.pwmSync {mask} (h : d.MemOk) : (Machine.pwmSync mask d).MemOk := .foldl h fun _ _ h => h.syncGroup

theorem Dev.MemOk.swForce {g on} (h : d.MemOk) : (Machine.swForce g on d).MemOk := h.setFld.checkForce

theorem Dev.MemOk.tripClear {g} (h : d.MemOk) : (Machine.tripClear g d).MemOk := h.setGroup

theorem Dev.MemOk.setSdf {n x} (h : d.MemOk) : (d.setSdf n x).MemOk := h.withDrive

theorem Dev.MemOk.tripLatch {g} (h : d.MemOk) : (Machine.tripLatch g d).MemOk :=
  .ite h h.setGroup.flag.produce.present.forceGroup

theorem Dev.MemOk.pinError {g lvl} (h : d.MemOk) : (Machine.pinError g lvl d).MemOk :=
  .ite h.setGroup.flag.present h.setGroup

theorem Dev.MemOk.pwmWrite {a w} (h : d.MemOk) : (d.pwmWrite a w).MemOk := by
  unfold Dev.pwmWrite
  extract_lets off g r d1 was d2 _ d3 d4
  have h1 : d1.MemOk := .ite h.flag h
  have h4 : d4.MemOk := (Dev.MemOk.ite h1.setGroup h1).storeReg.checkForce
  exact .ite h.pwmSync (.ite h.storeReg (.ite (.ite h1.storeReg.startGroup (.ite h1.storeReg.stopGroup h1.storeReg))
    (.ite (.ite h4.tripClear h4) (.ite (.ite h1.storeReg.setFld h1.storeReg) h1.storeReg))))

theorem Dev.MemOk.startSdf {n} (h : d.MemOk) : (d.startSdf n).MemOk := h.setSdf

theorem Dev.MemOk.fastTrip {n f} (h : d.MemOk) : (d.fastTrip n f).MemOk := h.flag.produce

theorem Dev.MemOk.sdfClock {n b} (h : d.MemOk) : (d.sdfClock n b).MemOk := by
  unfold Dev.sdfClock
  extract_lets _ bits v hi lo hiRun loRun fcnt high low next due d1 d2 d3 d4
  have h3 : d3.MemOk := .ite h.setSdf.setFld.fastTrip h.setSdf.setFld
  have h4 : d4.MemOk := .ite h3.fastTrip h3
  exact .ite h4.setFld.flag h4

theorem Dev.MemOk.sdfBits {n bits} (h : d.MemOk) : (d.sdfBits n bits).MemOk :=
  .ite (.foldl h fun _ _ h => h.sdfClock) h

theorem Dev.MemOk.clockLost {n} (h : d.MemOk) : (Machine.clockLost n d).MemOk := .ite h.setSdf.flag.present h

theorem Dev.MemOk.clockReturns {n} (h : d.MemOk) : (Machine.clockReturns n d).MemOk := h.setSdf

theorem Dev.MemOk.snapshot {setB} (h : d.MemOk) : (Machine.snapshot setB d).MemOk :=
  .ite h (.foldl (Dev.MemOk.ite h.setLatch.setPair64 h.setLatch.setPair64) fun _ _ h => .ite h.setFld.setSdf h.setFld)

theorem Dev.MemOk.sdfWrite {a w} (h : d.MemOk) : (d.sdfWrite a w).MemOk :=
  .ite (.ite h.storeReg.startSdf (.ite h.storeReg.setSdf h.storeReg)) h.storeReg

theorem Dev.MemOk.setAdc {c x} (h : d.MemOk) : (d.setAdc c x).MemOk := h.withDrive

theorem Dev.MemOk.startSeq {c trig} (h : d.MemOk) : (d.startSeq c trig).MemOk := h.setAdc

theorem Dev.MemOk.adcSequenceStart {c} (h : d.MemOk) : (Machine.adcSequenceStart c d).MemOk := by
  unfold Machine.adcSequenceStart
  split
  · exact h
  · split
    · exact h.startSeq
    · split
      · split
        · exact h.setLatch.startSeq
        · exact h
      · exact h

theorem Dev.MemOk.adcStart {c} (h : d.MemOk) : (Machine.adcStart c d).MemOk := .ite h (.ite h.startSeq h.flag)

theorem Dev.MemOk.adcDone {c volts} (h : d.MemOk) : (Machine.adcDone c volts d).MemOk := by
  unfold Machine.adcDone
  split
  · exact h
  · exact .ite h (.foldl (Dev.MemOk.foldl h fun _ _ h => .ite h.setFld.setFld
      h.setFld).setPair64.flag.consequence.setAdc fun _ _ h => h.offerConversion)

theorem Dev.MemOk.adcWrite {a w} (h : d.MemOk) : (d.adcWrite a w).MemOk :=
  .ite h.storeReg.setAdc (.ite (.ite h.adcStart h) h.storeReg)

theorem Dev.MemOk.setPosIf {i x} (h : d.MemOk) : (d.setPosIf i x).MemOk := h.withDrive

theorem Dev.MemOk.posErr {i f} (h : d.MemOk) : (d.posErr i f).MemOk := h.flag.present

theorem Dev.MemOk.deliverSample {i angle rev revOk time} (h : d.MemOk) :
    (d.deliverSample i angle rev revOk time).MemOk :=
  h.setFld.setFld.setFld.produce.offerSample

theorem Dev.MemOk.resolverSample {i sin cos neg} (h : d.MemOk) : (Machine.resolverSample i sin cos neg d).MemOk :=
  .ite h (.ite h.posErr (.ite h.posErr h.fresh.deliverSample))

theorem Dev.MemOk.setCount {i n} (h : d.MemOk) : (d.setCount i n).MemOk := h.setPosIf.setFld

theorem Dev.MemOk.abzEdge {i a b} (h : d.MemOk) : (Machine.abzEdge i a b d).MemOk :=
  .ite h (.ite h.setPosIf.posErr h.setPosIf.setCount.setPosIf)

theorem Dev.MemOk.zIndex {i} (h : d.MemOk) : (Machine.zIndex i d).MemOk :=
  .ite h (.ite h.produce (.ite h.produce.setPosIf.setCount
    (.ite h.produce (.ite h.produce.fresh h.produce.fresh.setCount.posErr))))

theorem Dev.MemOk.abzDelivery {i} (h : d.MemOk) : (Machine.abzDelivery i d).MemOk :=
  .ite h (.ite h.setPosIf h.setPosIf.deliverSample)

theorem Dev.MemOk.ssiAngle {stb st} (h : d.MemOk) : (d.ssiAngle stb st).2.MemOk := .iteSnd h h.withFree

theorem Dev.MemOk.ssiFrame {i line bits lag} (h : d.MemOk) : (Machine.ssiFrame i line bits lag d).MemOk :=
  .ite h (.ite h.setPosIf.posErr h.setPosIf.setFld.ssiAngle.deliverSample)

theorem Dev.MemOk.restartPos {i} (h : d.MemOk) : (d.restartPos i).MemOk := h.setPosIf.setFld

theorem Dev.MemOk.posWrite {a w} (h : d.MemOk) : (d.posWrite a w).MemOk :=
  .ite (.ite h.storeReg.restartPos h.storeReg) (.ite h.storeReg.restartPos h.storeReg)

/-! ### Buoy -/

theorem Dev.MemOk.setBuoy {k x} (h : d.MemOk) : (d.setBuoy k x).MemOk := h.withBuoy

theorem Dev.MemOk.setCycle {k c} (h : d.MemOk) : (d.setCycle k c).MemOk := h.setBuoy

theorem Dev.MemOk.startCycle {k t stamp trig} (h : d.MemOk) : (d.startCycle k t stamp trig).MemOk :=
  (Dev.MemOk.ite h.setFld h).setBuoy.flag.setFld

theorem Dev.MemOk.listStart {k} (h : d.MemOk) : (Machine.listStart k d).MemOk := by
  unfold Machine.listStart
  split
  · exact h
  · split
    · exact h
    · extract_lets
      split
      · exact h.setBuoy.startCycle
      · split
        · exact h.setLatch.startCycle
        · exact h

theorem Dev.MemOk.startWrite {k t} (h : d.MemOk) : (Machine.Dev.startWrite k d t).MemOk := .ite h.flag h.setBuoy

theorem Dev.MemOk.startLists {k mask} (h : d.MemOk) : (Machine.startLists k mask d).MemOk :=
  .foldl h fun _ _ h => h.startWrite

theorem Dev.MemOk.countFails {k addr status} (h : d.MemOk) : (d.countFails k addr status).MemOk :=
  .ite h.setFld.setBuoy (.ite h.setFld.setBuoy.flag.present h.setFld)

theorem Dev.MemOk.buoyFinal {k c x status detail} (h : d.MemOk) : MemOkOrHeld (d.buoyFinal k c x status detail) := by
  unfold Dev.buoyFinal
  extract_lets bytes
  split
  · trivial
  · next e d1 _ hs =>
    have h1 : d1.MemOk := .of_snd hs h.engineStore
    have h2 : Dev.MemOk (if status = 0 then d1 else d1.flag (BUOY_ISTAT_FAIL k)) := .ite h1 h1.flag
    exact .setCycle (.ite h2 h2.countFails)

theorem Dev.MemOk.attemptFailed {k c x} (h : d.MemOk) : MemOkOrHeld (d.attemptFailed k c x) :=
  .ite h.setCycle h.buoyFinal

theorem Dev.MemOk.transmit {k c x} (h : d.MemOk) : MemOkOrHeld (d.transmit k c x) := by
  unfold Dev.transmit
  extract_lets
  exact .ite (Dev.MemOk.setBuoy (.ite h.flag h)).buoyFinal (.setCycle (.setBuoy (.ite h.flag h)))

theorem Dev.MemOk.takeSeq {k addr} (h : d.MemOk) : (d.takeSeq k addr).2.MemOk := .iteSnd h.setBuoy h.setFld

theorem Dev.MemOk.memFailed {k c} (h : d.MemOk) : MemOkOrHeld (d.memFailed k c) := h.setCycle

theorem Dev.MemOk.nextDescriptor {k c} (h : d.MemOk) : MemOkOrHeld (d.nextDescriptor k c) := by
  unfold Dev.nextDescriptor
  split
  · trivial
  · next hl => exact (Dev.MemOk.of_thd hl h.engineLoad).memFailed
  · next bytes d1 hl =>
    have h1 : d1.MemOk := .of_thd hl h.engineLoad
    extract_lets w addr cmd qlen x c1
    refine .ite h1.setCycle (.ite h1.buoyFinal (.ite h1.buoyFinal ?_))
    split
    next body e d2 hb =>
      have h2 : d2.MemOk := .of_thd hb (.iteThd h1 h1.engineLoad)
      split
      · trivial
      · exact h2.memFailed
      · exact h2.takeSeq.transmit

theorem Dev.MemOk.buoySend {k} (h : d.MemOk) : (Machine.buoySend k d).MemOk := by
  unfold Machine.buoySend
  split
  · exact h
  · split
    · exact h
    · split
      · exact h.orWait h.transmit
      · exact .ite h (h.orWait h.nextDescriptor)

theorem Dev.MemOk.buoyWaitEnd {k} (h : d.MemOk) : (Machine.buoyWaitEnd k d).MemOk := by
  unfold Machine.buoyWaitEnd
  split
  · exact h
  · split
    · exact .ite h.setCycle h
    · exact h

theorem Dev.MemOk.abortDescriptor {k base j} (h : d.MemOk) : (Machine.Dev.abortDescriptor k base d j).MemOk :=
  .ite h.engineLoad.engineStore h.engineLoad

theorem Dev.MemOk.endCycle {k c early} (h : d.MemOk) : MemOkOrHeld (d.endCycle k c early) := by
  unfold Dev.endCycle
  extract_lets left d1
  split
  · trivial
  · have h1 : d1.MemOk := .foldl h fun _ _ h => h.abortDescriptor
    exact h1.setFld.setFld.setFld.setFld.setFld.flag.setCycle.consequence

theorem Dev.MemOk.cycleComplete {k} (h : d.MemOk) : (Machine.cycleComplete k d).MemOk := by
  unfold Machine.cycleComplete
  split
  · exact h
  · exact .ite h (.ite (h.orWait h.endCycle) (.ite (h.orWait h.endCycle) h))

theorem Dev.MemOk.memFailure {k} (h : d.MemOk) : (Machine.memFailure k d).MemOk := by
  unfold Machine.memFailure
  split
  · exact h
  · exact .ite (h.orWait h.flag.present.endCycle) h

theorem Dev.MemOk.ringBreak {k} (h : d.MemOk) : (Machine.ringBreak k d).MemOk := by
  unfold Machine.ringBreak
  split
  · exact h
  · extract_lets
    split
    · exact h.flag.present.flag.setBuoy
    · split
      · exact h.orWait h.flag.present.setFld.endCycle
      · exact h.flag.present.setFld

theorem Dev.MemOk.replyOk {k c x body} (h : d.MemOk) : MemOkOrHeld (d.replyOk k c x body) := by
  unfold Dev.replyOk
  split
  · trivial
  · next hs => exact (Dev.MemOk.of_snd hs h.engineStore).memFailed
  · next hs => exact (Dev.MemOk.of_snd hs h.engineStore).buoyFinal

theorem Dev.MemOk.replyTo {k c x r} (h : d.MemOk) : MemOkOrHeld (d.replyTo k c x r) := by
  unfold Dev.replyTo
  extract_lets f d1
  have h1 : d1.MemOk := .ite h.setFld h
  exact .ite h.setFld.buoyFinal (.ite h.buoyFinal (.ite h1.buoyFinal (.ite h1.buoyFinal h1.replyOk)))

theorem Dev.MemOk.buoyReceive {k r} (h : d.MemOk) : (Machine.buoyReceive k r d).MemOk := by
  unfold Machine.buoyReceive
  split
  · exact h
  · next c hc =>
    extract_lets inTime quiet _ d1 hit d2
    clear_value hit
    have h2 : d2.MemOk := .ite h.setBuoy h.setBuoy.count
    refine .ite h ?_
    split
    · exact h.orWait h2.replyTo
    · refine .ite h2 ?_
      split
      · exact h.orWait h2.attemptFailed
      · exact h2

theorem Dev.MemOk.buoyDeadlinePass {k} (h : d.MemOk) : (Machine.buoyDeadlinePass k d).MemOk := by
  unfold Machine.buoyDeadlinePass
  split
  · exact h
  · split
    · exact h
    · split
      · exact h
      · extract_lets b d1
        have h1 : d1.MemOk := .ite h h.setBuoy
        exact .ite (.ringBreak (.ite h1 h1.count)) (.ite (h.orWait h1.buoyFinal) (h.orWait h1.count.attemptFailed))

theorem Dev.MemOk.ringHeal {k} (h : d.MemOk) : (Machine.ringHeal k d).MemOk := by
  unfold Machine.ringHeal
  extract_lets
  split
  · exact .ite h.flag.setBuoy h
  · exact h

theorem Dev.MemOk.enumEntry {k n i} (h : d.MemOk) : (Machine.Dev.enumEntry k n d i).MemOk := by
  unfold Dev.enumEntry
  extract_lets d1
  have h1 : d1.MemOk := h.setFld.setFld.setFld
  exact .ite h1.flag.setFld.setFld h1.setFld

theorem Dev.MemOk.enumRecords {k} : ∀ {l : List (BitVec 64 × BitVec 16)} {d : Dev} {base}, d.MemOk →
    (d.enumRecords k base l).MemOk
  | [], _, _, h => h
  | _ :: _, _, _, h => h.engineStore.enumRecords

theorem Dev.MemOk.enumWrite {k} (h : d.MemOk) : (d.enumWrite k).MemOk := .ite h.flag h.flag

theorem Dev.MemOk.enumTable {k n} (h : d.MemOk) : (d.enumTable k n).MemOk :=
  .setBuoy (.foldl h fun _ _ h => h.enumEntry)

theorem Dev.MemOk.enumRun {k ring} (h : d.MemOk) : MemOkOrHeld (d.enumRun k ring) := by
  unfold Dev.enumRun
  extract_lets base d1 ps
  split
  next s d2 hs =>
    have h2 : d2.MemOk := .of_snd hs (Dev.MemOk.takeSeq h.setFld)
    split
    · exact h2.setFld.flag
    · extract_lets d3 d4
      split
      · trivial
      · have h4 : d4.MemOk := .ite h2.setFld.enumRecords.flag.present h2.setFld.enumRecords
        exact h4.setFld.enumTable.flag

theorem Dev.MemOk.enumGo {k ring} (h : d.MemOk) : (d.enumGo k ring).MemOk := .ite (h.orWait h.enumRun) h

theorem Dev.MemOk.enumerate {k ring} (h : d.MemOk) : (Machine.enumerate k ring d).MemOk :=
  .enumGo (.ite h h.enumWrite)

theorem Dev.MemOk.buoyWrite {a w} (h : d.MemOk) : (d.buoyWrite a w).MemOk :=
  .ite (.startLists (.ite h.enumWrite h)) h.storeReg

/-! ### Ethernet -/

theorem Dev.MemOk.syncInterval {s} (h : d.MemOk) : (Machine.syncInterval s d).MemOk :=
  .ite h.withEth.setFld (.ite h.withEth.setFld.setFld.withEth.present h.withEth.setFld.setFld.withEth)

theorem Dev.MemOk.timePulse (h : d.MemOk) : (Machine.timePulse d).MemOk :=
  .ite h h.withEth.setPair64.setPair64.produce

theorem Dev.MemOk.deliverFrame {f pcp ns port} (h : d.MemOk) : (d.deliverFrame f pcp ns port).MemOk :=
  .ite h.withEth (.ite h.withEth h)

theorem Dev.MemOk.startLine {q f} (h : d.MemOk) : (d.startLine q f).MemOk := h.withEth

theorem Dev.MemOk.drainPort {q} (h : d.MemOk) : (d.drainPort q).MemOk := by
  unfold Dev.drainPort
  split
  · exact h
  · split
    · exact h
    · exact h.withEth.startLine

theorem Dev.MemOk.drainPorts (h : d.MemOk) : d.drainPorts.MemOk := h.drainPort.drainPort

theorem Dev.MemOk.forward {ingress f pcp ns} (h : d.MemOk) : (d.forward ingress f pcp ns).MemOk :=
  .drainPorts (.foldl h fun _ _ h => h.deliverFrame)

theorem Dev.MemOk.switchFrame {port f} (h : d.MemOk) : (Machine.switchFrame port f d).MemOk :=
  .ite h (.ite (.ite h.count h) (.ite h (.ite (.ite h.count h) h.withEth.forward)))

theorem Dev.MemOk.ageOut (h : d.MemOk) : (Machine.ageOut d).MemOk := by
  unfold Machine.ageOut
  split
  · exact h.withEth
  · exact h

theorem Dev.MemOk.linkChange {q up auto sqi} (h : d.MemOk) : (Machine.linkChange q up auto sqi d).MemOk := by
  unfold Machine.linkChange
  extract_lets ms master up was d1 d2 d3
  have h3 : d3.MemOk := .ite h.setFld.setFld.setFld h.setFld.setFld.setFld.flag
  exact .ite h3.present h3

theorem Dev.MemOk.advanceSeq (h : d.MemOk) : d.advanceSeq.MemOk := h.withEth

theorem Dev.MemOk.epochWrap (h : d.MemOk) : (Machine.epochWrap d).MemOk := .ite (.journal ⟨h.banks, h.pairs⟩) h

theorem Dev.MemOk.sendSigned {keyid dst payload} (h : d.MemOk) : (d.sendSigned keyid dst payload).MemOk := by
  unfold Dev.sendSigned
  split
  · exact h
  · exact .advanceSeq (.ite h.epochWrap.forward h.epochWrap)

theorem Dev.MemOk.txEmit {r raw type keyid dst payload} (h : d.MemOk) :
    (d.txEmit r raw type keyid dst payload).MemOk := by
  unfold Dev.txEmit
  extract_lets send
  have hs : ∀ f, (send f).MemOk := fun _ => .ite h h.startLine
  split
  · exact hs _
  · split
    · exact h
    · exact (hs _).advanceSeq

theorem Dev.MemOk.sendHead {r} (h : d.MemOk) : MemOkOrHeld (d.sendHead r) := by
  unfold Dev.sendHead
  extract_lets head a
  split
  next desc e0 d1 h1e =>
    have h1 : d1.MemOk := .of_thd h1e h.engineLoad
    extract_lets w raw len type keyid dst st
    split
    next payload e1 d2 h2e =>
      have h2 : d2.MemOk := .of_thd h2e (.iteThd h1.engineLoad h1)
      split
      · trivial
      · split
        next status d3 h3e =>
          have h3 : d3.MemOk := by
            refine .of_snd h3e ?_
            split
            · exact .iteSnd h2 (.iteSnd h2 h2.txEmit)
            · exact h2.fresh
          exact h3.engineStore.setFld

theorem Dev.MemOk.txSend {r} (h : d.MemOk) : (Machine.txSend r d).MemOk := .ite (h.orWait h.sendHead) h

theorem Dev.MemOk.txGated {r} (h : d.MemOk) : (Machine.txGated r d).MemOk := by
  unfold Machine.txGated
  refine .ite h (.ite h.setLatch.flag (.ite h ?_))
  split
  · next hs => exact (MemOkOrHeld.of_ok hs h.sendHead).setLatch
  · exact h.onHold

theorem Dev.MemOk.ringWrite {m base unit size tail bytes} (h : d.MemOk) :
    MemOkOrHeld (d.ringWrite m base unit size tail bytes) := by
  unfold Dev.ringWrite
  extract_lets first a
  split
  · trivial
  · exact h.engineStore.engineStore

theorem Dev.MemOk.rxPut {entry e} (h : d.MemOk) (he : d.rxPut entry = .written e) : e.MemOk := by
  unfold Dev.rxPut at he
  extract_lets size tail n at he
  split at he
  · cases he
  · split at he
    · next hw =>
      cases he
      exact (MemOkOrHeld.of_ok hw h.ringWrite).setFld
    · cases he

theorem Dev.MemOk.dropped {f} (h : d.MemOk) : (d.dropped f).MemOk := h.count.flag

theorem Dev.MemOk.takeHost (h : d.MemOk) : d.takeHost.MemOk := h.withEth

theorem Dev.MemOk.seqTaken {n s} (h : d.MemOk) : (d.seqTaken n s).MemOk := .ite h.withEth.setPair64 h.withEth

theorem Dev.MemOk.accept {n first body} (h : d.MemOk) : (d.accept n first body).MemOk := by
  unfold Dev.accept
  extract_lets type len d1
  have h1 : d1.MemOk := h.takeHost.seqTaken
  refine .ite h1.wakeUp ?_
  split
  · exact h.onHold
  · exact h1.dropped
  · next hr =>
    have h2 := h1.rxPut hr
    exact .ite h2.flag (.ite h2.withTrust h2)

theorem Dev.MemOk.checkMessage {first gptp body} (h : d.MemOk) : (d.checkMessage first gptp body).MemOk := by
  unfold Dev.checkMessage
  extract_lets
  split
  · exact h.takeHost.dropped
  · split
    · exact h.takeHost.dropped
    · split
      · exact h.takeHost.dropped
      · split
        · exact h.takeHost.dropped.present
        · split
          · exact h.takeHost.dropped
          · exact .ite h.takeHost.dropped (.ite h.takeHost.dropped h.accept)

theorem Dev.MemOk.messageReceive (h : d.MemOk) : (Machine.messageReceive d).MemOk := by
  unfold Machine.messageReceive
  split
  · exact h
  · exact .ite h.checkMessage h

theorem Dev.MemOk.rawReceive (h : d.MemOk) : (Machine.rawReceive d).MemOk := by
  unfold Machine.rawReceive
  split
  · exact h
  · refine .ite h (.ite h.takeHost ?_)
    split
    · exact h.onHold
    · exact h.takeHost.dropped
    · next hr => exact h.takeHost.rxPut hr

/-! ### Can -/

theorem Dev.MemOk.setCan {k x} (h : d.MemOk) : (d.setCan k x).MemOk := h.withCan

theorem Dev.MemOk.errorState {k} (h : d.MemOk) : (d.errorState k).MemOk := .ite h h.setFld

theorem Dev.MemOk.canEvent {k f} (h : d.MemOk) : (d.canEvent k f).MemOk := .ite h.produce h

theorem Dev.MemOk.canStore {k f} (h : d.MemOk) : MemOkOrHeld (d.canStore k f) := by
  unfold Dev.canStore
  extract_lets bytes size tail n
  refine .ite h.count ?_
  split
  · trivial
  · next hw => exact (MemOkOrHeld.of_ok hw h.ringWrite).setFld.flag

theorem Dev.MemOk.canStoreAll {k} : ∀ {l : List CanFrame} {d : Dev}, d.MemOk → (d.canStoreAll k l).MemOk
  | [], _, h => h.setCan
  | f :: t, d, h => by
    rw [Dev.canStoreAll]
    split
    · next hs => exact (MemOkOrHeld.of_ok hs h.canStore).canStoreAll
    · exact h.setCan.onHold

theorem Dev.MemOk.canRetry (h : d.MemOk) : d.canRetry.MemOk := .foldl h fun _ _ h => .ite h h.canStoreAll

theorem Dev.MemOk.canReceive {k f} (h : d.MemOk) : (Machine.canReceive k f d).MemOk := by
  unfold Machine.canReceive
  split
  · exact h
  · extract_lets rec_ d1
    have h1 : d1.MemOk := .ite h h.setFld.errorState
    exact .ite h1.canEvent.canStoreAll h1

theorem Dev.MemOk.canSendHead {k header} (h : d.MemOk) : MemOkOrHeld (d.canSendHead k header) := by
  unfold Dev.canSendHead
  extract_lets base size head w1 fmt len n start first a done
  refine .ite h.setFld ?_
  split
  · trivial
  · exact h.engineLoad.engineLoad.engineStore.setFld.errorState.setCan.setFld.flag.canEvent

theorem Dev.MemOk.canSend {k} (h : d.MemOk) : (Machine.canSend k d).MemOk := by
  unfold Machine.canSend
  extract_lets size head
  refine .ite h ?_
  split
  next header e d1 hl =>
    have h1 : d1.MemOk := .of_thd hl h.engineLoad
    extract_lets j input
    split
    · exact h.onHold
    · refine .ite h ?_
      split
      · exact h.onHold
      · next hs =>
        have h2 := MemOkOrHeld.of_ok hs h1.canSendHead
        exact .ite h2.setLatch h2

theorem Dev.MemOk.goBusOff {k} (h : d.MemOk) : (Machine.goBusOff k d).MemOk := .ite h h.setFld.setFld.flag.present

theorem Dev.MemOk.busRecovered {k} (h : d.MemOk) : (Machine.busRecovered k d).MemOk :=
  .ite h.setFld.setFld.setFld.setCan h

theorem Dev.MemOk.startRecovery {k} (h : d.MemOk) : (Machine.startRecovery k d).MemOk := .ite h.setCan h

/-! ### Nvs -/

theorem Dev.MemOk.sealOpen {bad} (h : d.MemOk) : (Machine.sealOpen bad d).MemOk := .ite h h.sealPage

theorem Dev.MemOk.sealPeriod {bad} (h : d.MemOk) : (Machine.sealPeriod bad d).MemOk := .ite h.sealOpen h

theorem Dev.MemOk.appendEnd {st} (h : d.MemOk) : (d.appendEnd st).MemOk := h.withNvs.setFld.setFld

theorem Dev.MemOk.tryAppend (h : d.MemOk) : d.tryAppend.MemOk := by
  unfold Dev.tryAppend
  split
  · exact h
  · refine .ite h.appendEnd ?_
    extract_lets quiet
    split
    next hd e d1 hl =>
      have h1 : d1.MemOk := .of_thd hl h.engineLoad
      split
      · exact h.onHold
      · exact h1.appendEnd
      · extract_lets type len
        refine .ite h1.appendEnd (.ite h1.appendEnd (.ite h1.appendEnd ?_))
        split
        next body e d2 hl =>
          have h2 : d2.MemOk := .of_thd hl h1.engineLoad
          split
          · exact h.onHold
          · exact h2.appendEnd
          · exact .appendEnd (.ite h2.journal.sealOpen h2.journal)

theorem Dev.MemOk.appendWrite {addr} (h : d.MemOk) : (Machine.appendWrite addr d).MemOk :=
  .ite h h.withNvs.flag.tryAppend

theorem Dev.MemOk.chainVerify {broken} (h : d.MemOk) : (Machine.chainVerify broken d).MemOk := by
  unfold Machine.chainVerify
  split
  · exact h
  · extract_lets
    split
    · exact h.withNvs.flag
    · exact h.withNvs.flag.present

theorem Dev.MemOk.compact (h : d.MemOk) : (Machine.compact d).MemOk := .ite h.withNvs.flag h

theorem Dev.MemOk.eraseDone (h : d.MemOk) : (Machine.eraseDone d).MemOk :=
  .ite h (.ite h.withNvs.setFld.flag.present h.withNvs.setFld)

theorem Dev.MemOk.blockRemap (h : d.MemOk) : (Machine.blockRemap d).MemOk := .ite h.withNvs h

theorem Dev.MemOk.slotctlWrite {op m w} (h : d.MemOk) : (Machine.slotctlWrite op m w d).MemOk := by
  unfold Machine.slotctlWrite
  split
  · exact h
  · extract_lets tgt d1
    have h1 : d1.MemOk := h.setFld.setFld.setFld
    exact .ite h1 (.ite h1.setFld h1.withNvs.flag.flag)

theorem Dev.MemOk.opEnd {st} (h : d.MemOk) : (d.opEnd st).MemOk := h.withNvs.setFld.setFld.setFld

theorem Dev.MemOk.opFail {st} (h : d.MemOk) : (d.opFail st).MemOk := by
  unfold Dev.opFail
  split
  next k e hf => exact (Dev.MemOk.of_snd hf h.fresh).withNvs.opEnd

theorem Dev.MemOk.opCopy {src off len} (h : d.MemOk) : (d.opCopy src off len).MemOk := by
  unfold Dev.opCopy
  split
  next bytes e d1 hl =>
    have h1 : d1.MemOk := .of_thd hl h.engineLoad
    split
    · exact h1.onHold
    · exact h1.opFail
    · exact h1.withNvs.opEnd

theorem Dev.MemOk.slotDone {err} (h : d.MemOk) : (Machine.slotDone err d).MemOk := by
  unfold Machine.slotDone
  split
  · exact h
  · exact .ite h.opFail (.ite h.opFail (.ite h.withNvs.opEnd (.ite h.opCopy (.ite h.opCopy h.journal.opEnd))))

/-! ### Test -/

theorem Dev.MemOk.bistStop {p} (h : d.MemOk) : (d.bistStop p).MemOk := h.keepPair.setPairState

theorem Dev.MemOk.bistStart (h : d.MemOk) : (Machine.bistStart d).MemOk :=
  .ite (.ite h ((Dev.MemOk.foldl h fun _ _ h => h.bistStop).flag.setFld.setFld.withTest)) h.refuse.setFld

theorem Dev.MemOk.bistRecord {r} (h : d.MemOk) : (d.bistRecord r).MemOk := by
  unfold Dev.bistRecord
  extract_lets n _ d1
  have h1 : d1.MemOk := .ite h.withTest h
  exact .ite h1.count h1.setPair64.setFld

theorem Dev.MemOk.bistOver {status} (h : d.MemOk) : (d.bistOver status).MemOk := by
  unfold Dev.bistOver
  extract_lets clear d1
  have h1 : d1.MemOk := h.setFld.setFld
  exact ⟨ramWf_ramInvalidate h1.banks,
    Pair.memOk_map h1.pairs fun _ h => h.both fun _ h => h.invalidated _⟩

theorem Dev.MemOk.bistCheck {clockKHz supplyMv results} (h : d.MemOk) :
    (Machine.bistCheck clockKHz supplyMv results d).MemOk := by
  unfold Machine.bistCheck
  split
  · exact h
  · extract_lets d1
    have h1 : d1.MemOk := .foldl h fun _ _ h => h.bistRecord
    exact .ite h1.bistOver (.ite h1.bistOver h1.withTest)

theorem Dev.MemOk.bistEnd {results} (h : d.MemOk) : (Machine.bistEnd results d).MemOk :=
  .ite (.bistOver (.foldl h fun _ _ h => h.bistRecord)) h

theorem Dev.MemOk.repair (h : d.MemOk) : (Machine.repair d).MemOk := .ite h h.journal.withTest

theorem Dev.MemOk.bistctlWrite {w} (h : d.MemOk) : (Machine.bistctlWrite w d).MemOk := by
  unfold Machine.bistctlWrite
  extract_lets d1
  have h1 : d1.MemOk := .ite h.repair h
  exact .ite h1.bistStart h1

theorem Dev.MemOk.watchPeriodEnd (h : d.MemOk) : (Machine.watchPeriodEnd d).MemOk := by
  unfold Machine.watchPeriodEnd
  split
  · exact h
  · exact .ite ((Dev.MemOk.ite h.setFld.setFld h.setFld.flag.present).withTest) h

theorem Dev.MemOk.covered1 {inst word} (h : d.MemOk) : (d.covered1 inst word).MemOk := .ite h.withTest h

theorem Dev.MemOk.marchFailed {inst bit} (h : d.MemOk) : (Machine.Dev.marchFailed inst d bit).MemOk :=
  h.setFld.flag.present

theorem Dev.MemOk.marchWord {inst word stuck} (h : d.MemOk) : (Machine.marchWord inst word stuck d).MemOk :=
  have hread : Dev.MemOk _ := (h.setInstRam (inst := inst) (ramWf_ramHeal _ (h.instRam inst))).noteRead
  .ite h (.ite (.ite h.romRead.covered1 h) (.ite (.covered1 (.foldl hread fun _ _ h => h.marchFailed)) h))

theorem Dev.MemOk.offer {lp budget} (h : d.MemOk) : (Machine.offer lp budget d).MemOk :=
  .ite h.keepPair.withTest h.count

theorem Dev.MemOk.offerAbandon {lp} (h : d.MemOk) : (Machine.offerAbandon lp d).MemOk := by
  unfold Machine.offerAbandon
  split
  · exact h
  · exact .ite h.dropSlice h

theorem Dev.MemOk.spareSlice {p fail} (h : d.MemOk) : (Machine.spareSlice p fail d).MemOk :=
  .ite h (.ite h.sliceFailed h.withTest)

theorem Dev.MemOk.loopDelay {x1} (h : d.MemOk) : (d.loopDelay x1).MemOk := by
  unfold Dev.loopDelay
  split
  · exact h.setAdc
  · exact h

theorem Dev.MemOk.loopback {b pass} (h : d.MemOk) : (Machine.loopback b pass d).MemOk :=
  .ite h (.ite h.loopDelay.withTest h.loopDelay.withTest.flag.present)

theorem Dev.MemOk.slackLow {p} (h : d.MemOk) : (d.slackLow p).MemOk := by
  unfold Dev.slackLow
  split
  · exact h.withAge
  · exact .ite h.withAge.flag.present h

theorem Dev.MemOk.slackFine {p} (h : d.MemOk) : (d.slackFine p).MemOk := h.withAge

theorem Dev.MemOk.voltageAdjust {p slack nbti} (h : d.MemOk) : (Machine.voltageAdjust p slack nbti d).MemOk :=
  .ite h.withAge (.ite (.ite h.withAge.keepPair.slackFine h.withAge.slackLow)
    (.ite h.withAge.keepPair.slackFine h.withAge.slackFine))

theorem Dev.MemOk.planInService {steps p} (h : d.MemOk) : (d.planInService steps p).MemOk := by
  unfold Dev.planInService
  split
  · exact h
  · split
    · exact h
    · split
      · exact h.flag.present
      · extract_lets d1
        have h1 : d1.MemOk := .ite h h.setStep
        exact .ite h1 (h1.setPair (h1.pair p).takeStep)

theorem Dev.MemOk.plannerRun {steps} (h : d.MemOk) : (Machine.plannerRun steps d).MemOk :=
  .ite h (.foldl (Dev.MemOk.noteSlow (.foldl ⟨h.banks, h.pairs⟩ fun _ _ h => h.planInService)) fun _ _ h =>
    h.checkShort)

/-! ### Session -/

theorem Dev.MemOk.resumeHeld {p} (h : d.MemOk) : (d.resumeHeld p).MemOk := .ite h.capture h

theorem Dev.MemOk.clearComparators (h : d.MemOk) : d.clearComparators.MemOk := .foldl h fun _ _ h => h.setFld

theorem Dev.MemOk.endSession (h : d.MemOk) : d.endSession.MemOk := by
  unfold Dev.endSession
  split
  · exact h
  · extract_lets d1 d2
    have h2 : d2.MemOk := (Dev.MemOk.clearComparators (.foldl h fun _ _ h => h.resumeHeld)).setFld.setFld.flag
    exact .ite h2.setFld.withStart h2

theorem Dev.MemOk.grantEnded (h : d.MemOk) : d.grantEnded.MemOk := h.endGrant.endSession

theorem Dev.MemOk.withGrantEnd {old} (h : d.MemOk) : (Dev.withGrantEnd old d).MemOk := .ite h.endSession h

/-! ### Trust -/

theorem Dev.MemOk.revoke {role slot} (h : d.MemOk) : (d.revoke role slot).MemOk := .ite h.withPersist h.withTrust

theorem Dev.MemOk.reserveAtt (h : d.MemOk) : d.reserveAtt.MemOk := by
  unfold Dev.reserveAtt
  split
  · exact h
  · extract_lets b _ _ d1
    have h1 : d1.MemOk := .journal ⟨h.banks, h.pairs⟩
    exact .ite h1.withTrust.journal h1

theorem Dev.MemOk.attest {nonce} (h : d.MemOk) : (d.attest nonce).2.MemOk :=
  .ite h.reserveAtt.withTrust.flag h.reserveAtt.withTrust

theorem Dev.MemOk.install {slot act} (h : d.MemOk) : (d.install slot act).MemOk :=
  .ite h.journal (.ite h.journal.setActive.deviceReset h.journal.setActive)

theorem Dev.MemOk.signedEffect {c seed} (h : d.MemOk) : (d.signedEffect c seed).2.MemOk :=
  .iteSnd h.withTrust.flag.lifecycleTo (.iteSnd h.withTrust.flag.lifecycleTo
    (.iteSnd h.withTrust (.iteSnd h.lifecycleTo (.iteSnd h.lifecycleTo
    (.iteSnd h.lifecycleTo (.iteSnd (.ite h.revoke.flag.journal h.revoke.flag)
    (.iteSnd h.withPersist.journal.flag (.iteSnd h.withPersist.journal.flag
    (.iteSnd h.withPersist.journal (.iteSnd h.install (.iteSnd h.withTrust.journal.flag h.attest)))))))))))

theorem Dev.MemOk.workResult {status payload} (h : d.MemOk) : (d.workResult status payload).MemOk := by
  unfold Dev.workResult
  split
  · exact .ite h.withTdr h
  · exact h

theorem Dev.MemOk.answerBlock {role a} (h : d.MemOk) : (d.answerBlock role a).MemOk := by
  unfold Dev.answerBlock
  extract_lets d1
  have h1 : d1.MemOk := h.setFld.setFld.setFld
  split
  · exact h1.setFld.withTrust.workResult
  · exact .foldl h1.setFld.withTrust fun _ _ h => h.sendSigned

theorem Dev.MemOk.auditCounts (h : d.MemOk) : d.auditCounts.MemOk := .ite h.withTrust.journal h

theorem Dev.MemOk.signatureFailed {role} (h : d.MemOk) : (d.signatureFailed role).MemOk :=
  .ite h.withTrust.present h.withTrust

theorem Dev.MemOk.blockFailed {role status} (h : d.MemOk) : (d.blockFailed role status).MemOk := by
  unfold Dev.blockFailed
  extract_lets d1 d2
  have h1 : d1.MemOk := .ite h.count h.count
  have h2 : d2.MemOk := .ite h1.flag h1
  exact (Dev.MemOk.ite h2.signatureFailed h2).withTrust.auditCounts

theorem Dev.MemOk.recordBlock {c status} (h : d.MemOk) : (d.recordBlock c status).MemOk := h.withPersist.journal

theorem Dev.MemOk.installFailed {c} (h : d.MemOk) : (d.installFailed c).MemOk :=
  .ite (.ite h.checkSlot h.checkSlot.journal) h

theorem Dev.MemOk.judgeSigned {c seed} (h : d.MemOk) : (d.judgeSigned c seed).2.2.MemOk :=
  .iteThd h.cmdStat (.iteThd h.refuse.cmdStat (.iteThd h.recordBlock.judge
    (.iteThd h.recordBlock.installFailed.refuse.cmdStat h.recordBlock.cmdStat.signedEffect.withGrantEnd)))

theorem Dev.MemOk.runBlock {c fmt dev sig seed} (h : d.MemOk) : (d.runBlock c fmt dev sig seed).MemOk :=
  .ite h.blockFailed.answerBlock (.ite h.judgeSigned h.judgeSigned.answerBlock)

theorem Dev.MemOk.blockArrives {b} (h : d.MemOk) : (d.blockArrives b).MemOk := .ite h.answerBlock h.withTrust

theorem Dev.MemOk.signedRow {code b seeds} (h : d.MemOk) : (Machine.signedRow code b d seeds).MemOk :=
  .ite h.blockArrives h.runBlock

theorem Dev.MemOk.takeFragment {f} (h : d.MemOk) : (d.takeFragment f).MemOk :=
  .ite h (.ite h.count (.ite h.withTrust.blockArrives h.withTrust))

theorem Dev.MemOk.fragmentReceive (h : d.MemOk) : (Machine.fragmentReceive d).MemOk := by
  unfold Machine.fragmentReceive
  split
  · exact h
  · exact h.withTrust.takeFragment

theorem Dev.MemOk.reassemblyTimeout (h : d.MemOk) : (Machine.reassemblyTimeout d).MemOk := by
  unfold Machine.reassemblyTimeout
  split
  · exact h.withTrust.count
  · exact h

theorem Dev.MemOk.blockCheck (h : d.MemOk) : (Machine.blockCheck d).MemOk := by
  unfold Machine.blockCheck
  split
  · exact h
  · split
    · exact h
    · extract_lets
      split
      · exact h.withTrust.runBlock
      · exact .runBlock (.iteSnd h.withTrust.fresh h.withTrust)

theorem Dev.MemOk.attReady (h : d.MemOk) : (Machine.attReady d).MemOk := .ite h.withTrust h

theorem Dev.MemOk.entropyFailed (h : d.MemOk) : (Machine.entropyFailed d).MemOk :=
  (Dev.MemOk.ite h.withTrust h).flag.present

theorem Dev.MemOk.grantEnd (h : d.MemOk) : (Machine.grantEnd d).MemOk := by
  unfold Machine.grantEnd
  split
  · exact .ite h.grantEnded h
  · exact h

/-! ### IoPort -/

theorem Dev.MemOk.ioRead {a peek} (h : d.MemOk) : (d.ioRead a peek).2.2.MemOk := by
  unfold Dev.ioRead
  split
  · exact h
  · exact .ite h h.setWord

theorem Dev.MemOk.dmaBegin {e j trig} (h : d.MemOk) : (d.dmaBegin e j trig).MemOk := h.withDma.flag

theorem Dev.MemOk.dmaStart {e j sw} (h : d.MemOk) : (Machine.dmaStart e j sw d).MemOk := by
  unfold Machine.dmaStart
  split
  · exact h
  · split
    · exact .ite h.flag h.dmaBegin
    · split
      · exact h
      · split
        · exact h.setLatch.dmaBegin
        · exact h

theorem Dev.MemOk.configWrite {a w} (h : d.MemOk) : (d.configWrite a w).MemOk := .ite h.storeReg h.refuse

theorem Dev.MemOk.sysctlWrite {m user a w} (h : d.MemOk) : (d.sysctlWrite m user a w).MemOk :=
  .ite (.ite h h.issueCommand) (.ite (.ite h.configWrite.withPersist.journal h.configWrite)
    (.ite h.configWrite h.storeReg))

theorem Dev.MemOk.pairctlWrite {a w} (h : d.MemOk) : (d.pairctlWrite a w).MemOk :=
  .ite (Dev.MemOk.ite h.storeReg h.storeReg.setFld).capture
    (.ite h.designate (.ite (.ite h.cmptestStart h) h.storeReg))

theorem Dev.MemOk.intcWrite {a w} (h : d.MemOk) : (d.intcWrite a w).MemOk :=
  .ite (.ite h.setFld h) (.ite (.foldl h fun _ _ h => .ite h.clearEdge h)
    (.ite h.swset (.ite h.storeReg.capture h.storeReg)))

theorem Dev.MemOk.evtmxWrite {a w} (h : d.MemOk) : (d.evtmxWrite a w).MemOk :=
  .ite (.ite h.cenWrite (.ite h.cenWrite (.ite (.ite h.storeReg.watchTake h.storeReg) h.storeReg))) h.storeReg

theorem Dev.MemOk.lanternWrite {a w} (h : d.MemOk) : (d.lanternWrite a w).MemOk :=
  .ite (.ite h.timebaseWrite (.ite (.ite h.storeReg.restartTb h.storeReg)
    (.ite h.lineSample (.ite h.adjWrite h.storeReg))))
    (.ite (.ite h.cmpWrite (.ite h.storeReg.setFld h.storeReg)) h.storeReg)

theorem Dev.MemOk.safeislWrite {a w} (h : d.MemOk) : (d.safeislWrite a w).MemOk :=
  .ite (.ite h.clearFaultCounts h) (.ite h.logAck (.ite (.ite h.storeReg.setFld h.storeReg)
    (.ite h.reactWrite h.storeReg)))

theorem Dev.MemOk.keeperWrite {m user a w} (h : d.MemOk) : (d.keeperWrite m user a w).MemOk :=
  .ite h (.ite h.keeperEnable (.ite (.ite h.storeReg h.storeReg.setFld)
    (.ite h.service (.ite (.ite h.evstatClear h) (.ite (.ite h.storeReg h.storeReg.setFld) h.storeReg)))))

theorem Dev.MemOk.ethWrite {a w} (h : d.MemOk) : (d.ethWrite a w).MemOk :=
  .ite (.ite h.configWrite.withPersist.journal h.configWrite) (.ite h.configWrite h.storeReg)

theorem Dev.MemOk.canWrite {a w} (h : d.MemOk) : (d.canWrite a w).MemOk :=
  .ite (.ite h.storeReg (.ite h.storeReg.setFld (.ite h.storeReg.setFld (.ite (.ite h.startRecovery h) h.storeReg))))
    h.storeReg

theorem Dev.MemOk.nvsWrite {m a w} (h : d.MemOk) : (d.nvsWrite m a w).MemOk :=
  .ite h.appendWrite (.ite h.slotctlWrite h.storeReg)

theorem Dev.MemOk.testWrite {a w} (h : d.MemOk) : (d.testWrite a w).MemOk :=
  .ite h.bistctlWrite (.ite h.offer h.storeReg)

theorem Dev.MemOk.powerWrite {a w} (h : d.MemOk) : (d.powerWrite a w).MemOk := .ite h.withPower h.storeReg

theorem Dev.MemOk.dmaWrite {a w} (h : d.MemOk) : (d.dmaWrite a w).MemOk := .ite h.storeReg.dmaStart h.storeReg

theorem Dev.MemOk.blockWrite {m user a w} (h : d.MemOk) : (d.blockWrite m user a w).MemOk := by
  unfold Dev.blockWrite
  split
  · exact h.sysctlWrite
  · exact h.pairctlWrite
  · exact h.intcWrite
  · exact .ite h.enableWrite h.storeReg
  · exact .ite h.etctlWrite h.storeReg
  · exact h.evtmxWrite
  · exact h.lanternWrite
  · exact h.pwmWrite
  · exact h.sdfWrite
  · exact h.adcWrite
  · exact h.posWrite
  · exact h.safeislWrite
  · exact h.keeperWrite
  · exact h.ethWrite
  · exact h.canWrite
  · exact h.buoyWrite
  · exact h.nvsWrite
  · exact h.testWrite
  · exact h.powerWrite
  · exact h.dmaWrite
  · exact h.storeReg

theorem Dev.MemOk.ioWrite {m user a w} (h : d.MemOk) : (d.ioWrite m user a w).2.MemOk := .iteSnd h.blockWrite h

theorem Dev.MemOk.registerWrite {m user a w} (h : d.MemOk) : (Machine.registerWrite m user a w d).MemOk := by
  unfold Machine.registerWrite
  extract_lets
  split
  · exact h.denied
  · exact h.ioWrite

/-! ### Target -/

theorem Dev.MemOk.readBundle {map lp} : ∀ {n} {d : Dev} {a}, d.MemOk → (d.readBundle map lp a n).2.2.MemOk
  | 0, _, _, h => h
  | _ + 1, _, _, h => .iteThd h.targetRead h.targetRead.readBundle

theorem Dev.MemOk.readFill {r} : ∀ {n} {d : Dev} {a first}, d.MemOk → (d.readFill r a first n).2.2.MemOk
  | 0, _, _, _, h => h
  | n + 1, d, a, first, h => by
    rw [Dev.readFill]
    split
    · exact h.denied
    · split
      next ws code d1 hr =>
        have h1 : d1.MemOk := .of_thd hr h.readBundle
        exact .iteThd h1 h1.readFill

theorem Dev.MemOk.openLock {lp inst addr} (h : d.MemOk) : (d.openLock lp inst addr).MemOk :=
  h.dropLock.clearBroken.withFab

theorem Dev.MemOk.perform {r} (h : d.MemOk) : (d.perform r).2.2.2.MemOk := by
  unfold Dev.perform
  extract_lets q lp o cut store
  have hs : ∀ {e : Dev}, e.MemOk → (store e).2.2.2.MemOk := fun he => he.targetWrite
  split
  · exact h.targetRead
  · split
    · split
      next hr =>
        have h1 := Dev.MemOk.of_thd hr h.targetRead
        split
        · exact h1.openLock
        · exact h1
    · exact h
  · exact hs h
  · exact hs h.dropLock
  · exact h.dropLock
  · split
    · split
      next hr =>
        have h1 := Dev.MemOk.of_thd hr h.bankRead
        split
        · exact h1
        · exact h1.bankWrite
    · exact h
  · split
    · split
      next hr =>
        have h1 := Dev.MemOk.of_thd hr h.bankRead
        split
        · exact h1
        · exact h1.bankWrite
    · exact h
  · exact h.readFill
  · exact .ite h.ioRead.syncDone h.ioRead
  · exact h.ioWrite
  · exact h
  · exact h

theorem Dev.MemOk.deliverAnswer {r value code words} (h : d.MemOk) : (d.deliverAnswer r value code words).MemOk :=
  .ite h.answer h.respond

theorem Dev.MemOk.ungrant {id} (h : d.MemOk) : (d.ungrant id).MemOk := h.withFab

theorem Dev.MemOk.dropHeld {r} (h : d.MemOk) : (d.dropHeld r).MemOk := h.withFab

theorem Dev.MemOk.accessNow {r} (h : d.MemOk) : (d.accessNow r).MemOk :=
  .ite h (.ite h.dropHeld.ungrant.clearBroken.respondError
    (.ite h.dropHeld.perform.ungrant.deliverAnswer h.dropHeld.perform))

theorem Dev.MemOk.collided {a b inst word} (h : d.MemOk) : (d.collided a b inst word).MemOk :=
  h.count.flag.setFld.setFld.setFld

theorem Dev.MemOk.sameWord {a b inst word} (h : d.MemOk) : (d.sameWord a b inst word).MemOk := by
  unfold Dev.sameWord
  split
  · extract_lets d1
    have h1 : d1.MemOk := h.accessNow.collided
    exact .ite h1.lostWrite h1.dropHeld.ungrant.respondError
  · exact .ite h.accessNow.accessNow h.accessNow.accessNow

theorem Dev.MemOk.resend {id} (h : d.MemOk) : (d.resend id).MemOk := by
  unfold Dev.resend
  split
  · exact h
  · exact h.dropHeld.deliverAnswer

theorem Dev.MemOk.targetAccess {ids} (h : d.MemOk) : (Machine.targetAccess ids d).MemOk := by
  unfold Machine.targetAccess
  split
  · split
    · split
      · exact .ite (.ite h.sameWord h.sameWord) h.accessNow.accessNow
      · exact h.accessNow.accessNow
    · exact h.accessNow.resend
    · exact h.resend.accessNow
    · exact h.resend.resend
  · refine .foldl h fun _ _ h => ?_
    split
    · exact h.accessNow
    · exact h.resend

theorem Dev.MemOk.protFailed {master response} (h : d.MemOk) : (d.protFailed master response).MemOk :=
  h.flag.count.setFld.setFld.present

theorem Dev.MemOk.fabProt {id response} (h : d.MemOk) : (Machine.fabProt id response d).MemOk := by
  unfold Machine.fabProt
  split
  · next r hr =>
    refine .ite h.ungrant.withFab.protFailed (.ite h.ungrant.respondError.protFailed (.ite h ?_))
    extract_lets broken d1
    have h1 : d1.MemOk := h.dropHeld
    clear_value d1
    split
    next v code ws d2 hp =>
      have h2 : d2.MemOk := by
        split at hp
        · cases hp
          exact h1.clearBroken
        · have hq := h1.perform (r := r)
          rw [hp] at hq
          exact hq
      have h3 : Dev.MemOk (if r.req.rel then ((d2.ungrant id).protFailed r.lpair true).respond r v code
          else (d2.ungrant id).protFailed r.lpair true) := .ite h2.ungrant.protFailed.respond h2.ungrant.protFailed
      exact .ite h2.protFailed (.ite h2.ungrant.protFailed.withFab (.ite h3.flag.presentPair.mismatch h3))
  · split
    · exact .ite h.dropHeld.protFailed.deliverAnswer h
    · exact h

theorem Dev.MemOk.mpuSync {m} (h : d.MemOk) : (Machine.mpuSync m d).MemOk := by
  unfold Machine.mpuSync
  split
  · exact h.accessNow
  · exact .ite h.syncDone h

/-! ### Debug -/

theorem Dev.MemOk.reply {status tag payload} (h : d.MemOk) : (d.reply status tag payload).MemOk := h.withTdr

theorem Dev.MemOk.received {code} (h : d.MemOk) : (d.received code).MemOk := .ite h.withTdr h.withTdr.withTdr

theorem Dev.MemOk.rate {l n fi detail} (h : d.MemOk) : (d.rate l n fi detail).2.MemOk := .iteSnd h.present h

theorem Dev.MemOk.lineError (h : d.MemOk) : (Machine.lineError d).MemOk := h.count.flag.rate.withTdr

theorem Dev.MemOk.resetPulse (h : d.MemOk) : (Machine.resetPulse d).MemOk := h.deviceReset.count

theorem Dev.MemOk.badFrame (h : d.MemOk) : (Machine.badFrame d).MemOk := h.reply

theorem Dev.MemOk.debugDenied {tag} (h : d.MemOk) : (d.debugDenied tag).MemOk := h.count.flag.rate.withTdr.reply

theorem Dev.MemOk.sessionCommand {code tag allowed f} (h : d.MemOk) (hf : ∀ e : Dev, e.MemOk → (f e).MemOk) :
    (d.sessionCommand code tag allowed f).MemOk :=
  .ite h.received.reply (.ite h.received.reply (.ite h.received.debugDenied (hf _ h.received)))

theorem Dev.MemOk.attach {tag} (h : d.MemOk) : (Machine.attach tag d).MemOk :=
  .ite h.received.reply (Dev.MemOk.ite h.received h.received.setFld.flag.flag).reply

theorem Dev.MemOk.closeSession (h : d.MemOk) : d.closeSession.MemOk := .ite h.endGrant.endSession h

theorem Dev.MemOk.detach {tag} (h : d.MemOk) : (Machine.detach tag d).MemOk := h.received.closeSession.reply

theorem Dev.MemOk.sessionIdle (h : d.MemOk) : (Machine.sessionIdle d).MemOk := .ite h.closeSession h

theorem Dev.MemOk.debugStatus {tag} (h : d.MemOk) : (Machine.debugStatus tag d).MemOk := h.received.reply

theorem Dev.MemOk.readBeats : ∀ {l : List (Nat × Nat)} {d : Dev}, d.MemOk → (d.readBeats l).2.2.MemOk
  | [], _, h => h
  | (a, n) :: t, d, h => by
    rw [Dev.readBeats]
    split
    · exact h.denied
    · refine .iteThd h ?_
      split
      next b code d1 hr =>
        have h1 : d1.MemOk := by
          refine .of_thd hr ?_
          split
          · exact h.takeFailure
          · exact h.served.readPieces
        exact .iteThd h1 h1.readBeats

theorem Dev.MemOk.writeBeats : ∀ {l : List (Nat × Nat)} {d : Dev} {bytes}, d.MemOk → (d.writeBeats bytes l).2.MemOk
  | [], _, _, h => h
  | (a, n) :: t, d, bytes, h => by
    rw [Dev.writeBeats]
    split
    · exact h.denied
    · refine .iteSnd h ?_
      split
      next code d1 hr =>
        have h1 : d1.MemOk := by
          refine .of_snd hr ?_
          split
          · exact h.takeFailure
          · exact h.served.writePieces
        exact .iteSnd h1 h1.writeBeats

theorem Dev.MemOk.readRegs {live} : ∀ {n} {d : Dev} {a}, d.MemOk → (d.readRegs live a n).2.2.MemOk
  | 0, _, _, h => h
  | n + 1, d, a, h => by
    rw [Dev.readRegs]
    split
    · exact h.denied
    · split
      next v code d1 hr =>
        have h1 : d1.MemOk := by
          refine .of_thd hr ?_
          split
          · exact h.takeFailure
          · exact h.served.ioRead
        exact .iteThd h1 (Dev.MemOk.readRegs (.ite h1.syncDone h1))

theorem Dev.MemOk.writeRegs : ∀ {n} {d : Dev} {bytes a}, d.MemOk → (d.writeRegs bytes a n).2.MemOk
  | 0, _, _, _, h => h
  | n + 1, d, bytes, a, h => by
    rw [Dev.writeRegs]
    split
    · exact h.denied
    · split
      next code d1 hr =>
        have h1 : d1.MemOk := by
          refine .of_snd hr ?_
          split
          · exact h.takeFailure
          · exact h.served.ioWrite
        exact .iteSnd h1 h1.writeRegs

theorem Dev.MemOk.debugRun {q} (h : d.MemOk) : (d.debugRun q).2.2.MemOk :=
  .iteThd (.iteThd h.writeRegs h.readRegs) (.iteThd h.writeBeats h.readBeats)

theorem Dev.MemOk.transfer {tag q} (h : d.MemOk) : (d.transfer tag q).MemOk := by
  unfold Dev.transfer
  split
  · exact h.reply
  · split
    · exact h.withTdr.onHold
    · exact h.debugRun.reply

theorem Dev.MemOk.retryWork (h : d.MemOk) : d.retryWork.MemOk := by
  unfold Dev.retryWork
  split
  · split
    · exact h.onHold
    · exact .ite h.debugRun.workResult h.debugRun.withTdr.reply
  · exact h

theorem Dev.MemOk.pendingReply (h : d.MemOk) : (Machine.pendingReply d).MemOk := by
  unfold Machine.pendingReply
  extract_lets
  split
  · exact .ite h.retryWork.withTdr.reply h.retryWork
  · exact h.retryWork

theorem Dev.MemOk.debugResult {tag} (h : d.MemOk) : (Machine.debugResult tag d).MemOk := by
  unfold Machine.debugResult
  extract_lets d1
  have h1 : d1.MemOk := h.received.retryWork
  split
  · split
    · split
      · exact h1.reply
      · exact h1.reply
    · exact h1.fresh.reply
  · exact h1.fresh.reply

theorem Dev.MemOk.debugRead {tag q} (h : d.MemOk) : (Machine.debugRead tag q d).MemOk :=
  h.sessionCommand fun _ h => h.transfer

theorem Dev.MemOk.debugWrite {tag q} (h : d.MemOk) : (Machine.debugWrite tag q d).MemOk :=
  h.sessionCommand fun _ h => h.transfer

theorem Dev.MemOk.debugHalt {tag pairs} (h : d.MemOk) : (Machine.debugHalt tag pairs d).MemOk :=
  h.sessionCommand fun _ h => .reply (.foldl h fun _ _ h => .ite h h.capture)

theorem Dev.MemOk.debugResume {tag pairs} (h : d.MemOk) : (Machine.debugResume tag pairs d).MemOk :=
  h.sessionCommand fun _ h => .reply (.foldl h fun _ _ h => h.resumeHeld)

theorem Dev.MemOk.debugStep {tag lp n} (h : d.MemOk) : (Machine.debugStep tag lp n d).MemOk :=
  h.sessionCommand fun _ h => .ite h.reply (.ite h.reply h.capture.reply)

theorem Dev.MemOk.setComparator {tag lp k addr mask ctl} (h : d.MemOk) :
    (Machine.setComparator tag lp k addr mask ctl d).MemOk :=
  h.sessionCommand fun _ h => h.setFld.setFld.setFld.setFld.setFld.reply

theorem Dev.MemOk.readCore {tag lp area n off} (h : d.MemOk) : (Machine.readCore tag lp area n off d).MemOk :=
  h.sessionCommand fun _ h => .ite h.reply (.ite h.reply
    (.ite h.noteBoth.withTdr.mismatch (.ite h.noteBoth.reply h.noteBoth.reply)))

theorem Dev.MemOk.imageFrom {lp off n c} (h : d.MemOk) : (d.imageFrom lp off n c).MemOk :=
  .foldl h fun _ _ h => h.mirrorWord

theorem Dev.MemOk.writeCore {tag lp area off bytes} (h : d.MemOk) : (Machine.writeCore tag lp area off bytes d).MemOk :=
  h.sessionCommand fun e h => by
    extract_lets p x n dbg y
    have hy : y.MemOk := (h.pair p).same
    have h1 {a b : Core} {na nb} (ha : a.MemOk) (hb : b.MemOk) :
        ((e.setPair p { y with lead := a, shadow := b }).noteBoth p na nb).MemOk := (h.setPair ⟨ha, hb⟩).noteBoth
    have h2 := hy.lead.pokeMemory (area := area) (bytes := bytes) (l := piecesOf off n)
    have h3 := hy.shadow.pokeMemory (area := area) (bytes := bytes) (l := piecesOf off n)
    exact .ite h.reply (.ite h.reply (.ite (h.setPair (hy.both fun _ h => h.writeFrame)).reply
      (.reply (.ite (h1 h2 h3).imageFrom (h1 h2 h3)))))

theorem Dev.MemOk.signedBlock {tag block} (h : d.MemOk) : (Machine.signedBlock tag block d).MemOk :=
  .ite h.received.reply h.received.withTdr.reply.blockArrives

theorem Dev.MemOk.unknownRequest {tag} (h : d.MemOk) : (Machine.unknownRequest tag d).MemOk := h.received.reply

/-! ### Dma -/

theorem Dev.MemOk.ioBeatRead {m} : ∀ {n} {d : Dev} {a}, d.MemOk → (d.ioBeatRead m a n).2.2.MemOk
  | 0, _, _, h => h
  | n + 1, d, a, h => by
    rw [Dev.ioBeatRead]
    split
    · exact h
    · exact h.takeFailure
    · split
      next v code d1 hr =>
        have h1 : d1.MemOk := by
          refine .of_thd hr ?_
          split
          · exact h.denied
          · exact .ite h.served.ioRead.syncDone h.served.ioRead
        exact .iteThd h1 h1.ioBeatRead

theorem Dev.MemOk.ioBeatWrite {m} : ∀ {n} {d : Dev} {a bytes}, d.MemOk → (d.ioBeatWrite m a bytes n).2.MemOk
  | 0, _, _, _, h => h
  | n + 1, d, a, bytes, h => by
    rw [Dev.ioBeatWrite]
    split
    · exact h
    · exact h.takeFailure
    · split
      next code d1 hr =>
        have h1 : d1.MemOk := by
          refine .of_snd hr ?_
          split
          · exact h.denied
          · exact h.served.ioWrite
        exact .iteSnd h1 h1.ioBeatWrite

theorem Dev.MemOk.dmaRead {m r a n} (h : d.MemOk) : (d.dmaRead m r a n).2.2.MemOk :=
  .iteThd (.iteThd h h.ioBeatRead) h.busRead

theorem Dev.MemOk.dmaWriteBeat {m r a bytes} (h : d.MemOk) : (d.dmaWriteBeat m r a bytes).2.MemOk :=
  .iteSnd h.ioBeatWrite h.busWrite

theorem Dev.MemOk.dmaCopy {m ch r} : ∀ {k} {d : Dev} {done}, d.MemOk → (d.dmaCopy m ch r done k).2.MemOk
  | 0, _, _, h => h
  | k + 1, d, done, h => by
    rw [Dev.dmaCopy]
    refine .iteSnd h ?_
    extract_lets n
    split
    next bytes e d1 hr =>
      have h1 : d1.MemOk := .of_thd hr h.dmaRead
      split
      · split
        next e d2 hw =>
          have h2 : d2.MemOk := .of_snd hw h1.dmaWriteBeat
          split
          · exact .iteSnd h2 h2.dmaCopy
          · exact h2
      · exact h1

theorem Dev.MemOk.dmaFinish {e j code r} (h : d.MemOk) : (d.dmaFinish e j code r).MemOk :=
  (Dev.MemOk.ite h.withDma.setFld.setFld.setBitOf h.withDma.setFld.setFld.setBitOf).consequence

theorem Dev.MemOk.dmaTransferEnd {e j} (h : d.MemOk) : (Machine.dmaTransferEnd e j d).MemOk := by
  unfold Machine.dmaTransferEnd
  split
  · exact h
  · split
    next b x hc =>
      have h1 : x.MemOk := .of_snd hc h.dmaCopy
      split
      · exact h.onHold
      · exact .ite h1 h1.dmaFinish
      · exact .ite h1 h1.dmaFinish

/-! ### Tick -/

theorem Dev.MemOk.tickPairs (h : d.MemOk) : d.tickPairs.MemOk := .foldl h fun _ _ h => .ite h.keepPair h

theorem Dev.MemOk.tickVin (h : d.MemOk) : d.tickVin.MemOk := .ite h.withPower h

theorem Dev.MemOk.tickAge (h : d.MemOk) : d.tickAge.MemOk := .ite h.withAge h

theorem Dev.MemOk.tickClocks (h : d.MemOk) : d.tickClocks.MemOk := .ite h h.endPwm.tickLantern.tickPwm.tickPins

theorem Dev.MemOk.tickWork (h : d.MemOk) : d.tickWork.MemOk :=
  (Dev.MemOk.ite h.deviceReset h).tryAppend.retryWork.auditCounts.drainPorts.canRetry

theorem Dev.MemOk.tick (h : d.MemOk) : (Machine.tick d).MemOk :=
  .ite h (.ite h.withTicks.tickVin h.withTicks.tickClocks.tickPairs.tickVin.tickAge.tickWork)

/-! ### Step -/

/-! ### A step -/

/-- Where an outcome goes on, it goes on with a device whose memories are canonical. -/
def MemOkNext (o : Host.Outcome State Fault Refusal) : Prop := ∀ t, o = .next t → t.dev.MemOk

variable {s t : State} {f : Dev → Dev}

theorem MemOkNext.onLine (h : s.dev.MemOk) (hf : ∀ d : Dev, d.MemOk → (f d).MemOk) : MemOkNext (s.onLine f) := by
  rintro t ⟨⟩
  exact hf _ h

theorem MemOkNext.onDev (h : s.dev.MemOk) (hf : ∀ d : Dev, d.MemOk → (f d).MemOk) : MemOkNext (s.onDev f) :=
  .onLine h fun _ h => .ite h (hf _ h)

theorem MemOkNext.onClock (h : s.dev.MemOk) (hf : ∀ d : Dev, d.MemOk → (f d).MemOk) : MemOkNext (s.onClock f) :=
  .onDev h fun _ h => .ite h (hf _ h)

/-- Every command keeps the memories canonical: the lemma about what it does to the device, for each in turn. -/
theorem memOkNext_exec (c : Instr) (h : s.dev.MemOk) : MemOkNext (exec c s) := by
  cases c with
  | bundleIssue => exact .onDev h fun _ h => h.bundleIssue
  | tagCompletion => exact .onDev h fun _ h => h.tagCompletion
  | captureInput => exact .onDev h fun _ h => h.captureInput
  | interruptEntry => exact .onDev h fun _ h => h.interruptEntry
  | preciseExceptionEntry => exact .onDev h fun _ h => h.preciseEntry
  | impreciseExceptionEntry => exact .onDev h fun _ h => h.impreciseEntry
  | expiryTrapEntry => exact .onDev h fun _ h => h.expiryEntry
  | returnRestore => exact .onDev h fun _ h => h.returnRestore
  | isafeStarve => exact .onDev h fun _ h => h.isafeStarve
  | interruptSourceEdge => exact .onDev h fun _ h => h.sourceEdge
  | interruptPresentation => exact .onDev h fun _ h => h.presentIrq
  | swsetWrite => exact .onDev h fun _ h => h.swset
  | checkpointDue => exact .onDev h fun _ h => h.checkpointDue
  | checkpointK0 => exact .onDev h fun _ h => h.checkpointK0
  | checkpointCommit => exact .onDev h fun _ h => h.checkpointCommit
  | commitBufferRelease => exact .onDev h fun _ h => h.release
  | deltaApplied => exact .onDev h fun _ h => h.deltaApplied
  | commitEntryFailure => exact .onDev h fun _ h => h.entryFailure
  | segOverrun => exact .onDev h fun _ h => h.segOverrun
  | lockstepMismatch => exact .onDev h fun _ h => h.mismatch
  | spareFirstBundle => exact .onDev h fun _ h => h.spareFirst
  | pairFence => exact .onDev h fun _ h => h.fencePair
  | spareDesignation => exact .onDev h fun _ h => h.designate
  | cmptestStart => exact .onDev h fun _ h => h.cmptestStart
  | timebaseSample => exact .onClock h fun _ h => h.timebaseSample
  | holdResume => exact .onClock h fun _ h => h.holdResume
  | lineSampleDelivery => exact .onDev h fun _ h => h.lineSample
  | adj => exact .onDev h fun _ h => h.adjWrite
  | timebaseEnable => exact .onDev h fun _ h => h.timebaseWrite
  | ltnLoss => exact .onClock h fun _ h => h.sourceLost
  | mainsLock => exact .onClock h fun _ h => h.mainsLock
  | holdover => exact .onClock h fun _ h => h.mainsLost
  | comparatorCrossing => exact .onClock h fun _ h => h.comparator
  | gateRelease => exact .onClock h fun _ h => h.gateRelease
  | carrierValley => exact .onClock h fun _ h => h.carrierValley
  | carrierPeak => exact .onClock h fun _ h => h.carrierPeak
  | pwmGroupEnable => exact .onDev h fun _ h => h.enableGroup
  | pwmSync => exact .onDev h fun _ h => h.pwmSync
  | swForce => exact .onDev h fun _ h => h.swForce
  | tripclr => exact .onDev h fun _ h => h.tripClear
  | tripLatchSet => exact .onClock h fun _ h => h.tripLatch
  | pwmPinerr => exact .onClock h fun _ h => h.pinError
  | sdfFilterOutput n bits => exact .onClock (f := fun d => d.sdfBits n bits) h fun _ h => h.sdfBits
  | sdfFastTrip n bits => exact .onClock (f := fun d => d.sdfBits n bits) h fun _ h => h.sdfBits
  | sdfCkloss => exact .onClock h fun _ h => h.clockLost
  | sdfSnapshot => exact .onClock h fun _ h => h.snapshot
  | adcSequenceStart => exact .onClock h fun _ h => h.adcSequenceStart
  | adcStart => exact .onDev h fun _ h => h.adcStart
  | adcSequenceDone => exact .onClock h fun _ h => h.adcDone
  | resolverSample => exact .onClock h fun _ h => h.resolverSample
  | abzEdge => exact .onClock h fun _ h => h.abzEdge
  | zIndexEdge => exact .onClock h fun _ h => h.zIndex
  | abzSampleDelivery => exact .onClock h fun _ h => h.abzDelivery
  | ssiFrame => exact .onClock h fun _ h => h.ssiFrame
  | targetAccess => exact .onDev h fun _ h => h.targetAccess
  | correctedWriteBack => exact .onDev h fun _ h => h.writeBack
  | scrubRead => exact .onDev h fun _ h => h.scrub
  | bucketLeak => exact .onDev h fun _ h => h.leak
  | etctlWrite => exact .onDev h fun _ h => h.etctlWrite
  | arbitrationGrant => exact .onDev h fun _ h => h.grant
  | requestUrgent => exact .onDev h fun _ h => h.urgent
  | fabProt => exact .onDev h fun _ h => h.fabProt
  | lockBreak => exact .onDev h fun _ h => h.lockBreak
  | mpuDeny => exact .onDev h fun _ h => h.deny
  | mpuEnable => exact .onDev h fun _ h => h.enableWrite
  | mpuSync => exact .onDev h fun _ h => h.mpuSync
  | eventEmission => exact .onDev h fun _ h => h.emission
  | eventDelivery => exact .onDev h fun _ h => h.delivery
  | waitRequestArrival => exact .onDev h fun _ h => h.waitArrival
  | evtLoop => exact .onDev h fun _ h => h.dropLoop
  | cenWrite => exact .onDev h fun _ h => h.cenWrite
  | watchInputTake => exact .onDev h fun _ h => h.watchTake
  | faultProcessing => exact .onDev h fun _ h => h.processFault
  | islVote => exact .onDev h fun _ h => h.dropLane
  | laneResync => exact .onDev h fun _ h => h.resyncLanes
  | laneDisagreementReset => exact .onDev h fun _ h => h.lanesDiffer
  | hourlyFaultCounts => exact .onDev h fun _ h => h.hourlyCounts
  | logreadAck => exact .onDev h fun _ h => h.logAck
  | clrcnt => exact .onDev h fun _ h => h.clearFaultCounts
  | reactWrite => exact .onDev h fun _ h => h.reactWrite
  | keeperEnable => exact .onDev h fun _ h => h.keeperEnable
  | svcWrite => exact .onDev h fun _ h => h.service
  | checkIn => exact .onDev h fun _ h => h.checkIn
  | windowClose => exact .onDev h fun _ h => h.windowClose
  | kprExpiry => exact .onDev h fun _ h => h.keeperExpiry
  | hardTimerEnd => exact .onDev h fun _ h => h.hardTimerEnd
  | keeperClockTrip => exact .onDev h fun _ h => h.expireWith
  | evstatClear => exact .onDev h fun _ h => h.evstatClear
  | run => exact .onDev h fun _ h => h.issueCommand
  | safeStop => exact .onDev h fun _ h => h.issueCommand
  | standby => exact .onDev h fun _ h => h.issueCommand
  | standbyCompletion => exact .onDev h fun _ h => h.standbyComplete
  | enterConfig => exact .onDev h fun _ h => h.issueCommand
  | makerTest => exact .onDev h fun _ h => h.issueCommand
  | clearFog => exact .onDev h fun _ h => h.issueCommand
  | unfence => exact .onDev h fun _ h => h.issueCommand
  | reset => exact .onDev h fun _ h => h.issueCommand
  | unknownCommand => exact .onDev h fun _ h => .ite h h.issueCommand
  | deviceReset => exact .onDev h fun _ h => h.resetAndStart
  | bootConfirmExpiry => exact .onDev h fun _ h => h.confirmExpiry
  | wake => exact .onDev h fun _ h => h.wakeUp
  | powerOnReset => exact .onLine h fun _ h => h.powerOn
  | portLoss => exact .onLine h fun _ h => .ite h.setPort h.portLoss
  | lowin => exact .onLine h fun _ h => h.setPort
  | pfail => exact .onLine h fun _ h => h.pfailLine
  | rideEnd => exact .onDev h fun _ h => h.rideEnd
  | powerFailSealDone => exact .onDev h fun _ h => h.sealDone
  | inputReturn => exact .onDev h fun _ h => h.inputReturn
  | converterStop => exact .onLine h fun _ h => h.converterStop
  | temperatureSample => exact .onLine h fun _ h => h.temperature
  | supplyOverload => exact .onDev h fun _ h => h.supplyOverload
  | v5on => exact .onDev h fun _ h => h.withPower
  | v3on => exact .onDev h fun _ h => h.withPower
  | clockLoss => exact .onDev h fun _ h => h.clockLoss
  | sstop => exact .onLine h fun _ h => h.sstop
  | sstopDiscrep => exact .onDev h fun _ h => h.sstopDiscrep
  | switchForward => exact .onDev h fun _ h => h.switchFrame
  | ethLink => exact .onDev h fun _ h => h.linkChange
  | safetyMessageReceive => exact .onDev h fun _ h => h.messageReceive
  | rawFrameReceive => exact .onDev h fun _ h => h.rawReceive
  | txDescriptorSend => exact .onDev h fun _ h => h.txSend
  | txrGatedTrigger => exact .onDev h fun _ h => h.txGated
  | gptpSyncChange => exact .onDev h fun _ h => h.syncInterval
  | timePulse => exact .onDev h fun _ h => h.timePulse
  | epochWrap => exact .onDev h fun _ h => h.epochWrap
  | canFrameReceive => exact .onDev h fun _ h => h.canReceive
  | canFrameSend => exact .onDev h fun _ h => h.canSend
  | canBusoff => exact .onDev h fun _ h => h.goBusOff
  | busoffAutoRecovery => exact .onDev h fun _ h => h.busRecovered
  | recover => exact .onDev h fun _ h => h.startRecovery
  | canWakePattern => exact .onDev h fun _ h => h.canWake
  | buoyListStart => exact .onClock h fun _ h => h.listStart
  | buoyStart => exact .onDev h fun _ h => h.startLists
  | buoyTransactionSend => exact .onClock h fun _ h => h.buoySend
  | buoyReplyReceive => exact .onClock h fun _ h => h.buoyReceive
  | buoyDeadline => exact .onClock h fun _ h => h.buoyDeadlinePass
  | buoyWaitEnd => exact .onClock h fun _ h => h.buoyWaitEnd
  | buoyCycleComplete => exact .onClock h fun _ h => h.cycleComplete
  | buoyEnum => exact .onDev h fun _ h => h.enumerate
  | buoyBreak => exact .onClock h fun _ h => h.ringBreak
  | buoyHeal => exact .onClock h fun _ h => h.ringHeal
  | buoyMem => exact .onClock h fun _ h => h.memFailure
  | signedFragmentReceive => exact .onDev h fun _ h => h.fragmentReceive
  | reassemblyTimeout => exact .onDev h fun _ h => h.reassemblyTimeout
  | signedBlockCheck => exact .onDev h fun _ h => h.blockCheck
  | enrolMaker => exact .onDev h fun _ h => h.signedRow
  | provision => exact .onDev h fun _ h => h.signedRow
  | genkey => exact .onDev h fun _ h => h.signedRow
  | attkeyReady => exact .onDev h fun _ h => h.attReady
  | trustEntropy => exact .onDev h fun _ h => h.entropyFailed
  | deploy => exact .onDev h fun _ h => h.signedRow
  | returnToMaker => exact .onDev h fun _ h => h.signedRow
  | scrap => exact .onDev h fun _ h => h.signedRow
  | revokeRoot => exact .onDev h fun _ h => h.signedRow
  | setOproot => exact .onDev h fun _ h => h.signedRow
  | setKey => exact .onDev h fun _ h => h.signedRow
  | setPolicy => exact .onDev h fun _ h => h.signedRow
  | install => exact .onDev h fun _ h => h.signedRow
  | debugGrant => exact .onDev h fun _ h => h.signedRow
  | grantEnd => exact .onDev h fun _ h => h.grantEnd
  | attest => exact .onDev h fun _ h => h.signedRow
  | journalSeal => exact .onDev h fun _ h => h.sealOpen
  | sealPeriod => exact .onDev h fun _ h => h.sealPeriod
  | append => exact .onDev h fun _ h => h.appendWrite
  | chainVerify => exact .onDev h fun _ h => h.chainVerify
  | compaction => exact .onDev h fun _ h => h.compact
  | blockRemap => exact .onDev h fun _ h => h.blockRemap
  | erase => exact .onDev h fun _ h => h.slotctlWrite
  | program => exact .onDev h fun _ h => h.slotctlWrite
  | finish => exact .onDev h fun _ h => h.slotctlWrite
  | bistStart => exact .onDev h fun _ h => h.bistStart
  | bistConditionCheck => exact .onDev h fun _ h => h.bistCheck
  | bistEnd => exact .onDev h fun _ h => h.bistEnd
  | repair => exact .onDev h fun _ h => h.repair
  | watchPeriodEnd => exact .onDev h fun _ h => h.watchPeriodEnd
  | marchWord => exact .onDev h fun _ h => h.marchWord
  | offer => exact .onDev h fun _ h => h.offer
  | offerAbandon => exact .onDev h fun _ h => h.offerAbandon
  | spareSlice => exact .onDev h fun _ h => h.spareSlice
  | loopback => exact .onDev h fun _ h => h.loopback
  | voltageAdjust => exact .onDev h fun _ h => h.voltageAdjust
  | marginPlannerRun => exact .onDev h fun _ h => h.plannerRun
  | resetPulse => exact .onDev h fun _ h => h.resetPulse
  | lineError => exact .onDev h fun _ h => h.lineError
  | badframe => exact .onDev h fun _ h => h.badFrame
  | pendingReply => exact .onDev h fun _ h => h.pendingReply
  | attach => exact .onDev h fun _ h => h.attach
  | detach => exact .onDev h fun _ h => h.detach
  | sessionIdleTimeout => exact .onDev h fun _ h => h.sessionIdle
  | status => exact .onDev h fun _ h => h.debugStatus
  | result => exact .onDev h fun _ h => h.debugResult
  | signed => exact .onDev h fun _ h => h.signedBlock
  | halt => exact .onDev h fun _ h => h.debugHalt
  | resume => exact .onDev h fun _ h => h.debugResume
  | step => exact .onDev h fun _ h => h.debugStep
  | setcomp => exact .onDev h fun _ h => h.setComparator
  | rdcore => exact .onDev h fun _ h => h.readCore
  | wrcore => exact .onDev h fun _ h => h.writeCore
  | read => exact .onDev h fun _ h => h.debugRead
  | write => exact .onDev h fun _ h => h.debugWrite
  | debugUnknown => exact .onDev h fun _ h => h.unknownRequest
  | dmaChannelStart => exact .onDev h fun _ h => h.dmaStart
  | dmaTransferEnd => exact .onDev h fun _ h => h.dmaTransferEnd
  | registerWrite => exact .onDev h fun _ h => h.registerWrite
  | portSupplyReturn => exact .onLine h fun _ h => h.setPort
  | sstopReenergised => exact .onLine h fun _ h => h.setSstop
  | sdfClockReturn => exact .onClock h fun _ h => h.clockReturns
  | sdfTripEnd n bits => exact .onClock (f := fun d => d.sdfBits n bits) h fun _ h => h.sdfBits
  | slotOperationDone => exact .onDev h fun _ h => h.slotDone
  | compactionEraseDone => exact .onDev h fun _ h => h.eraseDone
  | learningEntryAgeout => exact .onDev h fun _ h => h.ageOut

theorem Dev.MemOk.step (h : s.dev.MemOk) (hs : Machine.step s = .next t) : t.dev.MemOk := by
  unfold Machine.step at hs
  split at hs
  · cases hs
    exact h.tick
  · next c rest _ => exact memOkNext_exec (s := { s with pending := rest }) c h t hs

end

theorem Dev.memOk_iff (d : Dev) : d.MemOk ↔ d.memWf = true ∧ d.pairs.all Pair.memWf = true := by
  simp only [List.all_eq_true, ← Pair.memOk_iff]
  exact ⟨fun h => ⟨h.banks, h.pairs⟩, fun h => ⟨h.1, h.2⟩⟩

/-- Settles O57: `Dev.MemOk` is kept by every command and by a tick. -/
theorem stepKeepsMemories : Obligations.StepKeepsMemories := by
  intro s t hbanks hpairs hs
  have h : s.dev.MemOk := (Dev.memOk_iff _).2 ⟨hbanks, hpairs⟩
  exact (Dev.memOk_iff _).1 (h.step hs)

end Sys2Proof.Machine
end

section
/-! PROOFS. CheckCode: what a read makes of flipped bits (R319, R320). The check code is a parity sum, so the syndrome of a
word with flipped bits is the sum of the columns of those bits. Every column has odd weight: one flipped bit shows its own
column, and two show a sum of even weight, which is no column. -/

set_option Elab.async false

namespace Sys2Proof.Machine

/-! ### The syndrome of flipped bits -/

/-- The data that a read delivers of the stored data `d`, by the kind of error (R320). -/
def EccKind.deliver : EccKind → Nat → Nat
  | .clean, d | .checkBit, d => d
  | .dataBit j, d => d ^^^ 2 ^ j
  | .uncorrectable, _ => 0

/-- A read of a stored word with a true valid vote goes by its syndrome. -/
theorem ramRead_of_vote {r : Ram} {key : Nat} (index : Nat) (h : ramVote r key = true) :
    ramRead r key index =
      { value := (eccKind (ramCheck r key ^^^ eccCheck (ramRaw r key) index)).deliver (ramRaw r key)
        kind := eccKind (ramCheck r key ^^^ eccCheck (ramRaw r key) index)
        syn := ramCheck r key ^^^ eccCheck (ramRaw r key) index
        split := ramSplit r key } := by
  simp only [ramRead, if_pos h]
  congr 1
  cases eccKind (ramCheck r key ^^^ eccCheck (ramRaw r key) index) <;> rfl

/-- The columns of a sum of bits sum up. -/
theorem colSum_xor (x y : Nat) : ∀ (cols : List Nat) (i : Nat), colSum (x ^^^ y) cols i = colSum x cols i ^^^ colSum y cols i
  | [], _ => by simp [colSum]
  | c :: t, i => by
    rw [colSum, colSum, colSum, colSum_xor x y t, Nat.testBit_xor]
    cases x.testBit i <;> cases y.testBit i <;> simp [Nat.xor_left_comm, Nat.xor_assoc]

/-- A lone bit below the running one has no column. -/
theorem colSum_two_pow_of_lt {j : Nat} : ∀ (cols : List Nat) (i : Nat), j < i → colSum (2 ^ j) cols i = 0
  | [], _, _ => rfl
  | c :: t, i, h => by
    rw [colSum, colSum_two_pow_of_lt t (i + 1) (by omega), Nat.testBit_two_pow_of_ne h.ne]
    simp

/-- A lone bit sums up to its column. -/
theorem colSum_two_pow (j : Nat) : ∀ (cols : List Nat) (i : Nat), colSum (2 ^ (i + j)) cols i = nth 0 cols j
  | [], _ => rfl
  | c :: t, i => by
    rw [colSum]
    cases j with
    | zero => rw [colSum_two_pow_of_lt t (i + 1) (by omega)]; simp [nth]
    | succ j =>
      rw [Nat.testBit_two_pow_of_ne (by omega), (by omega : i + (j + 1) = i + 1 + j), colSum_two_pow j t (i + 1)]
      simp [nth]

/-- The column of a data bit. -/
abbrev dataCol (j : Nat) : Nat := nth 0 dataCols j

theorem colSum_dataBit (j : Nat) : colSum (2 ^ j) dataCols 0 = dataCol j := by
  rw [dataCol, ← colSum_two_pow j dataCols 0, Nat.zero_add]

theorem eccCheck_xor (v e index : Nat) : eccCheck (v ^^^ e) index = eccCheck v index ^^^ colSum e dataCols 0 := by
  rw [eccCheck, eccCheck, colSum_xor, Nat.xor_assoc, Nat.xor_assoc, Nat.xor_comm (colSum e _ _)]

/-- A word stored with the data bits of `e` and the check bits of `f` flipped reads with the sum of their columns as its
syndrome. -/
theorem ramRead_flipped (m : Ram) (key index : Nat) {v e f : Nat} (hv : v < 2 ^ 64) (he : e < 2 ^ 64) (hf : f < 2 ^ 8) :
    ramRead (ramPut m key (v ^^^ e) (eccCheck v index ^^^ f)) key index =
      { value := (eccKind (f ^^^ colSum e dataCols 0)).deliver (v ^^^ e)
        kind := eccKind (f ^^^ colSum e dataCols 0)
        syn := f ^^^ colSum e dataCols 0
        split := false } := by
  have hvalid := ramValid_ramPut_same m key (v ^^^ e) (eccCheck v index ^^^ f)
  have hvote : ramVote (ramPut m key (v ^^^ e) (eccCheck v index ^^^ f)) key = true := by rw [ramVote, hvalid]; decide
  have hsplit : ramSplit (ramPut m key (v ^^^ e) (eccCheck v index ^^^ f)) key = false := by rw [ramSplit, hvalid]; decide
  have hsyn : eccCheck v index ^^^ f ^^^ eccCheck (v ^^^ e) index = f ^^^ colSum e dataCols 0 := by
    rw [eccCheck_xor, Nat.xor_comm _ f, Nat.xor_assoc, Nat.xor_xor_cancel_left]
  rw [ramRead_of_vote index hvote, hsplit, ramRaw_ramPut_same, ramCheck_ramPut_same,
    Nat.mod_eq_of_lt (Nat.xor_lt_two_pow hv he), Nat.mod_eq_of_lt (Nat.xor_lt_two_pow (eccCheck_lt v index) hf), hsyn]

/-! ### The kinds of error -/

/-- A syndrome that is a data bit's column names the bit. -/
theorem eccKind_dataCol : ∀ j < 64, eccKind (dataCol j) = .dataBit j := by decide

/-- A syndrome of one set bit is a check bit. -/
theorem eccKind_two_pow : ∀ k < 8, eccKind (2 ^ k) = .checkBit := by decide

/-- The weight of a sum is even or odd as the sum of the weights is. -/
theorem popCount_xor (x y : Nat) : ∀ n, popCount (x ^^^ y) n % 2 = (popCount x n + popCount y n) % 2
  | 0 => rfl
  | n + 1 => by
    have hbit : bitOf (x ^^^ y) n % 2 = (bitOf x n + bitOf y n) % 2 := by
      rw [bitOf, bitOf, bitOf, Nat.shiftRight_xor_distrib, Nat.mod_mod, Nat.xor_mod_two_eq, ← Nat.add_mod]
    have ih := popCount_xor x y n
    rw [popCount, popCount, popCount]
    omega

theorem popCount_dataCols : ∀ c ∈ dataCols, popCount c 8 % 2 = 1 := by decide

theorem popCount_dataCol : ∀ j < 64, popCount (dataCol j) 8 % 2 = 1 := by decide

theorem popCount_two_pow : ∀ k < 8, popCount (2 ^ k) 8 % 2 = 1 := by decide

/-- Nothing is found where nothing fits. -/
theorem findIdxOf_eq_none {β : Type} {p : β → Bool} : ∀ {l : List β}, (∀ x ∈ l, p x = false) → findIdxOf p l = none
  | [], _ => rfl
  | x :: t, h => by
    rw [findIdxOf, h x (by simp), findIdxOf_eq_none fun y hy => h y (by simp [hy])]
    rfl

/-- A syndrome of even weight other than 0 is no column. -/
theorem eccKind_of_even {syn : Nat} (h0 : syn ≠ 0) (h : popCount syn 8 % 2 = 0) : eccKind syn = .uncorrectable := by
  have hcol : findIdxOf (fun c => c = syn) dataCols = none := findIdxOf_eq_none fun c hc => by
    rw [decide_eq_false_iff_not]
    rintro rfl
    have := popCount_dataCols c hc
    omega
  have hone : popCount syn 8 ≠ 1 := by omega
  rw [eccKind, if_neg h0, hcol]
  exact if_neg hone

/-- The sum of two different columns of odd weight is uncorrectable. -/
theorem eccKind_xor {x y : Nat} (h : x ≠ y) (hx : popCount x 8 % 2 = 1) (hy : popCount y 8 % 2 = 1) :
    eccKind (x ^^^ y) = .uncorrectable := by
  refine eccKind_of_even (fun h0 => h (Nat.xor_eq_zero_iff.1 h0)) ?_
  rw [popCount_xor]
  omega

/-- Two data bits have different columns. -/
theorem dataCol_ne {i j : Nat} (hi : i < 64) (hj : j < 64) (h : i ≠ j) : dataCol i ≠ dataCol j := fun hc =>
  h (EccKind.dataBit.inj ((eccKind_dataCol i hi).symm.trans ((congrArg eccKind hc).trans (eccKind_dataCol j hj))))

/-- A data bit's column is none of the check bits'. -/
theorem two_pow_ne_dataCol {i k : Nat} (hi : i < 64) (hk : k < 8) : 2 ^ k ≠ dataCol i := fun hc =>
  EccKind.noConfusion ((eccKind_two_pow k hk).symm.trans ((congrArg eccKind hc).trans (eccKind_dataCol i hi)))

/-! ### Flipped words -/

section
variable (m : Ram) (key index : Nat) {v : Nat} (hv : v < 2 ^ 64)
include hv

/-- One flipped data bit is named and corrected. -/
theorem ramRead_dataBit_flipped {j : Nat} (hj : j < 64) :
    ramRead (ramPut m key (v ^^^ 2 ^ j) (eccCheck v index)) key index =
      { value := v, kind := .dataBit j, syn := dataCol j, split := false } := by
  have h := ramRead_flipped m key index (f := 0) hv (Nat.pow_lt_pow_right (by decide) hj) (by decide)
  rw [Nat.xor_zero, Nat.zero_xor, colSum_dataBit, eccKind_dataCol j hj, EccKind.deliver, Nat.xor_xor_cancel_right] at h
  exact h

/-- One flipped check bit is named, and the data are delivered as stored. -/
theorem ramRead_checkBit_flipped {k : Nat} (hk : k < 8) :
    ramRead (ramPut m key v (eccCheck v index ^^^ 2 ^ k)) key index =
      { value := v, kind := .checkBit, syn := 2 ^ k, split := false } := by
  have h := ramRead_flipped m key index (e := 0) hv (by decide) (Nat.pow_lt_pow_right (by decide) hk)
  have h0 : colSum 0 dataCols 0 = 0 := by decide
  rw [Nat.xor_zero, h0, Nat.xor_zero, eccKind_two_pow k hk, EccKind.deliver] at h
  exact h

/-- Two flipped data bits are uncorrectable, and zero is delivered. -/
theorem ramRead_dataBits_flipped {i j : Nat} (hi : i < 64) (hj : j < 64) (h : i ≠ j) :
    ramRead (ramPut m key (v ^^^ 2 ^ i ^^^ 2 ^ j) (eccCheck v index)) key index =
      { value := 0, kind := .uncorrectable, syn := dataCol i ^^^ dataCol j, split := false } := by
  have hlt : 2 ^ i ^^^ 2 ^ j < 2 ^ 64 :=
    Nat.xor_lt_two_pow (Nat.pow_lt_pow_right (by decide) hi) (Nat.pow_lt_pow_right (by decide) hj)
  have hr := ramRead_flipped m key index (f := 0) hv hlt (by decide)
  rw [Nat.xor_zero, Nat.zero_xor, colSum_xor, colSum_dataBit, colSum_dataBit, ← Nat.xor_assoc,
    eccKind_xor (dataCol_ne hi hj h) (popCount_dataCol i hi) (popCount_dataCol j hj), EccKind.deliver] at hr
  exact hr

/-- Two flipped check bits are uncorrectable, and zero is delivered. -/
theorem ramRead_checkBits_flipped {i j : Nat} (hi : i < 8) (hj : j < 8) (h : i ≠ j) :
    ramRead (ramPut m key v (eccCheck v index ^^^ 2 ^ i ^^^ 2 ^ j)) key index =
      { value := 0, kind := .uncorrectable, syn := 2 ^ i ^^^ 2 ^ j, split := false } := by
  have hlt : 2 ^ i ^^^ 2 ^ j < 2 ^ 8 :=
    Nat.xor_lt_two_pow (Nat.pow_lt_pow_right (by decide) hi) (Nat.pow_lt_pow_right (by decide) hj)
  have hr := ramRead_flipped m key index (e := 0) hv (by decide) hlt
  have h0 : colSum 0 dataCols 0 = 0 := by decide
  have hne : 2 ^ i ≠ 2 ^ j := fun hp => h (Nat.pow_right_injective (le_refl 2) hp)
  rw [Nat.xor_zero, h0, Nat.xor_zero, ← Nat.xor_assoc, eccKind_xor hne (popCount_two_pow i hi) (popCount_two_pow j hj),
    EccKind.deliver] at hr
  exact hr

/-- A flipped data bit and a flipped check bit are uncorrectable, and zero is delivered. -/
theorem ramRead_mixedBits_flipped {i k : Nat} (hi : i < 64) (hk : k < 8) :
    ramRead (ramPut m key (v ^^^ 2 ^ i) (eccCheck v index ^^^ 2 ^ k)) key index =
      { value := 0, kind := .uncorrectable, syn := 2 ^ k ^^^ dataCol i, split := false } := by
  have hr := ramRead_flipped m key index hv (Nat.pow_lt_pow_right (by decide) hi) (Nat.pow_lt_pow_right (by decide) hk)
  rw [colSum_dataBit, eccKind_xor (two_pow_ne_dataCol hi hk) (popCount_two_pow k hk) (popCount_dataCol i hi),
    EccKind.deliver] at hr
  exact hr

end

/-- A word whose valid vote is 0 reads as zero unchecked (R322). -/
theorem ramRead_of_not_vote {r : Ram} {key : Nat} (index : Nat) (h : ramVote r key = false) :
    ramRead r key index = { value := 0, kind := .clean, syn := 0, split := ramSplit r key } := by
  rw [ramRead, if_neg (by simp [h])]

/-- Settles O17: one flipped bit reads as its own column, two as a sum of even weight. -/
theorem checkCodeCorrects : Obligations.CheckCodeCorrects := by
  unfold Obligations.CheckCodeCorrects
  intro m key index v hv _ c
  refine ⟨ramRead_ramWrite_same m key index hv, fun j hj => ?_, fun k hk => ?_, fun i hi j hj hij => ?_,
    fun i hi j hj hij => ?_, fun i hi k hk => ?_, fun k' hvote => ?_, fun k' i hk => ramRead_ramWrite_ne m index v i hk⟩
  · rw [ramRead_dataBit_flipped m key index hv hj]; exact ⟨rfl, rfl⟩
  · rw [ramRead_checkBit_flipped m key index hv hk]; exact ⟨rfl, rfl⟩
  · rw [ramRead_dataBits_flipped m key index hv hi hj hij]; exact ⟨rfl, rfl⟩
  · rw [ramRead_checkBits_flipped m key index hv hi hj hij]; rfl
  · rw [ramRead_mixedBits_flipped m key index hv hi hk]; rfl
  · rw [ramRead_of_not_vote index hvote]; exact ⟨rfl, rfl⟩

end Sys2Proof.Machine
end

section
/-! PROOFS. MemoryUpkeep: the upkeep of the memories: corrected words written back (R326), the scrubber (R331), the leaking
buckets (R332) and ETCTL (R341). -/

set_option Elab.async false

namespace Sys2Proof.Machine

variable {d e : Dev}

/-! ### What a read delivers fits a word -/

/-- A data bit named by a syndrome is one of a word's. -/
theorem dataBit_lt {syn j : Nat} (h : eccKind syn = .dataBit j) : j < 64 := by
  have hfind : ∀ (p : Nat → Bool) (l : List Nat) (i : Nat), findIdxOf p l = some i → i < l.length := by
    intro p l
    induction l with
    | nil => intro i hi; cases hi
    | cons x t ih =>
      intro i hi
      rw [findIdxOf] at hi
      split at hi
      · cases hi; exact Nat.succ_pos _
      · obtain ⟨k, hk, rfl⟩ := Option.map_eq_some_iff.1 hi
        exact Nat.succ_lt_succ (ih k hk)
  have hlen : dataCols.length = 64 := by decide
  rw [eccKind] at h
  split at h
  · cases h
  · split at h
    · next hf => cases h; exact hlen ▸ hfind _ _ _ hf
    · split at h <;> cases h

theorem deliver_lt {syn x : Nat} (h : x < 2 ^ 64) : (eccKind syn).deliver x < 2 ^ 64 := by
  cases hk : eccKind syn with
  | clean => exact h
  | checkBit => exact h
  | dataBit j => exact Nat.xor_lt_two_pow h (Nat.pow_lt_pow_right (by decide) (dataBit_lt hk))
  | uncorrectable => exact Nat.two_pow_pos 64

theorem length_ramBytes (r : Ram) : ∀ (n a : Nat), (ramBytes r a n).length = n
  | 0, _ => rfl
  | n + 1, a => by rw [ramBytes, List.length_cons, length_ramBytes r n]

theorem ramRaw_lt (r : Ram) (key : Nat) : ramRaw r key < 2 ^ 64 := by
  have h := leNat_lt (ramBytes r (8 * key) 8)
  rw [length_ramBytes] at h
  exact h.trans_le (by norm_num)

/-- The data that a read delivers fit a word. -/
theorem ramRead_value_lt (r : Ram) (key index : Nat) : (ramRead r key index).value < 2 ^ 64 := by
  cases h : ramVote r key
  · rw [ramRead_of_not_vote index h]; exact Nat.two_pow_pos 64
  · rw [ramRead_of_vote index h]; exact deliver_lt (ramRaw_lt r key)

/-! ### The memory of an instance -/

/-- The tables of an instance, set, read back, with the same key of its word 0. -/
theorem instRam_setInstRam {inst : Nat} (m : Ram) (h : inst < 88 ∨ (inst - 88) / 4 < d.pairs.length) :
    (d.setInstRam inst m).instRam inst = (m, (d.instRam inst).2) := by
  by_cases hi : inst < 88
  · simp only [Dev.instRam, Dev.setInstRam, if_pos hi]
  · have hp : (localInst inst).1 < d.pairs.length := h.resolve_left hi
    simp only [Dev.instRam, Dev.setInstRam, if_neg hi, Dev.localRam, Dev.setLocalRam]
    generalize localInst inst = place at hp
    obtain ⟨p, shadow, im⟩ := place
    rw [pair_setPair_same d p _ hp]
    cases shadow <;> cases im <;> rfl

/-- Nothing of the memories' state but the banks' words is set with an instance's tables. -/
theorem setInstRam_mem (d : Dev) (inst : Nat) (m : Ram) : ∃ r, (d.setInstRam inst m).mem = { d.mem with ram := r } := by
  unfold Dev.setInstRam
  split
  · exact ⟨m, rfl⟩
  · exact ⟨d.mem.ram, rfl⟩

theorem setInstRam_io (d : Dev) (inst : Nat) (m : Ram) : (d.setInstRam inst m).io = d.io := by
  unfold Dev.setInstRam
  split <;> rfl

/-! ### Write-backs (R326) -/

/-- The device with a write-back no longer waiting. -/
def Dev.unqueue (d : Dev) (inst word : Nat) : Dev :=
  { d with mem := { d.mem with
      writeBacks := d.mem.writeBacks.filter (fun x => x != ({ inst := inst, word := word } : WriteBack)) } }

/-- A waiting write-back of a word that reads without an uncorrectable error writes the word that the read delivers. -/
theorem writeBack_of_waiting {inst word : Nat} (hw : d.mem.writeBacks.contains { inst := inst, word := word } = true)
    (hi : inst ≠ 152) (hbad : (ramRead (d.instRam inst).1 ((d.instRam inst).2 + word) word).bad = false)
    (hvote : ramVote (d.instRam inst).1 ((d.instRam inst).2 + word) = true) :
    writeBack inst word d = (d.unqueue inst word).setInstRam inst (ramWrite (d.instRam inst).1 ((d.instRam inst).2 + word)
      word (ramRead (d.instRam inst).1 ((d.instRam inst).2 + word) word).value) := by
  have hc : (d.mem.writeBacks.contains { inst := inst, word := word } && inst != 152) = true := by
    rw [hw, Bool.true_and, bne_iff_ne]
    exact hi
  have hn : ¬ ((ramRead (d.instRam inst).1 ((d.instRam inst).2 + word) word).bad ||
      !ramVote (d.instRam inst).1 ((d.instRam inst).2 + word)) = true := by rw [hbad, hvote]; decide
  rw [writeBack]
  exact (if_pos hc).trans (if_neg hn)

theorem writeBack_of_not_waiting {inst word : Nat}
    (hw : d.mem.writeBacks.contains { inst := inst, word := word } = false) : writeBack inst word d = d := by
  rw [writeBack]
  exact if_neg (by rw [hw, Bool.false_and]; exact Bool.false_ne_true)

/-- A write-back dropped no longer waits. -/
theorem contains_unqueue (d : Dev) (inst word : Nat) :
    (d.unqueue inst word).mem.writeBacks.contains { inst := inst, word := word } = false := by
  simp [Dev.unqueue]

/-! ### The counts of a read's errors (R327, R331, R332) -/

/-- The uncorrectable errors counted, the instance's test mode and the memories' state are the same. -/
structure Dev.SameErrors (inst : Nat) (d e : Dev) : Prop where
  uecnt : e.fld (MEMCTL_INST_UECNT inst) = d.fld (MEMCTL_INST_UECNT inst)
  testing : e.testing inst = d.testing inst
  mem : e.mem = d.mem

/-- A field set outside ETCTL leaves test mode; an instance above 255 is in none (R340). -/
theorem testing_setFld {inst v : Nat} {g : Fld} (h : inst < 256 → g.addr ≠ 0x050050) :
    (d.setFld g v).testing inst = d.testing inst := by
  by_cases hi : inst < 256
  · have hw : (d.setFld g v).word 0x050050 = d.word 0x050050 := word_setFld_ne d g v (h hi).symm
    rw [Dev.testing, Dev.testing, Dev.on, Dev.on, fld_of_word MEMCTL_ETCTL_EN hw, fld_of_word MEMCTL_ETCTL_INST hw]
  · have hne : ∀ f : Dev, f.fld MEMCTL_ETCTL_INST ≠ inst := fun f hf =>
      hi (hf ▸ fld_lt f MEMCTL_ETCTL_INST)
    simp [Dev.testing, hne]

section
variable {inst : Nat}

theorem Dev.SameErrors.refl (d : Dev) : d.SameErrors inst d := ⟨rfl, rfl, rfl⟩

theorem Dev.SameErrors.setFld {g : Fld} {v : Nat} (h : d.SameErrors inst e) (hg : g.Apart (MEMCTL_INST_UECNT inst))
    (ht : inst < 256 → g.addr ≠ 0x050050) : d.SameErrors inst (e.setFld g v) :=
  ⟨(fld_setFld_apart e v hg).trans h.uecnt, (testing_setFld ht).trans h.testing, h.mem⟩

/-- A register ahead of the instances' and other than ETCTL counts no error. -/
theorem Dev.SameErrors.setCtl {g : Fld} {v : Nat} (h : d.SameErrors inst e) (hg : g.addr < 0x050400)
    (ht : g.addr ≠ 0x050050) : d.SameErrors inst (e.setFld g v) :=
  h.setFld (.inl (hg.trans_le (Nat.le_add_right _ _)).ne') fun _ => ht

theorem Dev.SameErrors.present {i v : Nat} (h : d.SameErrors inst e) : d.SameErrors inst (e.present i v) :=
  ⟨h.uecnt, h.testing, h.mem⟩

theorem inst_addr_ne (i : Nat) : 0x050400 + 0x4 * i ≠ 0x050050 := by omega

theorem Dev.SameErrors.bucketUp (h : d.SameErrors inst e) : d.SameErrors inst (e.bucketUp inst) := by
  have hb : ∀ v, d.SameErrors inst (e.setFld (MEMCTL_INST_BUCKET inst) v) := fun v =>
    h.setFld (.inr (.inl (by decide : (0 + 8 : Nat) ≤ 8))) fun _ => inst_addr_ne inst
  have hovf : (MEMCTL_OVF_OVF (inst / 32)).Apart (MEMCTL_INST_UECNT inst) :=
    .inl (by show 0x050400 + 0x4 * inst ≠ 0x050010 + 0x4 * (inst / 32); omega)
  have hovf' : inst < 256 → (MEMCTL_OVF_OVF (inst / 32)).addr ≠ 0x050050 := by
    show inst < 256 → 0x050010 + 0x4 * (inst / 32) ≠ 0x050050
    omega
  unfold Dev.bucketUp
  extract_lets b limit d1
  split
  · exact hb b
  · split
    · exact hb limit
    · exact (((hb limit).setFld hovf hovf').setCtl (by decide) (by decide)).present

theorem Dev.SameErrors.correctable (h : d.SameErrors inst e) : d.SameErrors inst (e.correctable inst) := by
  have hc : d.SameErrors inst (e.count (MEMCTL_INST_CECNT inst)) :=
    h.setFld (.inr (.inr (by decide : (8 + 8 : Nat) ≤ 16))) fun _ => inst_addr_ne inst
  unfold Dev.correctable
  extract_lets d1
  split
  · exact hc
  · exact hc.bucketUp

theorem Dev.SameErrors.recordUe {master i addr : Nat} {scrub : Bool} (h : d.SameErrors inst e) :
    d.SameErrors inst (e.recordUe master i addr scrub) := by
  unfold Dev.recordUe
  split
  · exact h
  · exact ((((h.setCtl (by decide) (by decide)).setCtl (by decide) (by decide)).setCtl (by decide) (by decide)).setCtl
      (by decide) (by decide)).setCtl (by decide) (by decide)

/-- The record of an uncorrectable error leaves ISTAT. -/
theorem recordUe_istat (d : Dev) (master i addr : Nat) (scrub : Bool) :
    (d.recordUe master i addr scrub).fld MEMCTL_ISTAT_SCRUBUE = d.fld MEMCTL_ISTAT_SCRUBUE := by
  have h : d.Regs (d.recordUe master i addr scrub) [0x050030, 0x050034] := by
    unfold Dev.recordUe
    split
    · exact .refl d _
    · exact (((((Dev.Regs.refl d _).setFld _ _ (by decide)).setFld _ _ (by decide)).setFld _ _ (by decide)).setFld _ _
        (by decide)).setFld _ _ (by decide)
  exact h.fld _ (by decide)

/-- The device with an uncorrectable error that the scrubber met counted and recorded, ahead of its presentation. -/
def Dev.scrubUe (d : Dev) (master inst addr : Nat) : Dev :=
  ((d.count (MEMCTL_INST_UECNT inst)).flag MEMCTL_ISTAT_SCRUBUE).recordUe master inst addr true

theorem uncorrectable_scrub_eq (d : Dev) (master inst addr : Nat) : d.uncorrectable master inst addr true =
    if (d.scrubUe master inst addr).testing inst then d.scrubUe master inst addr
    else (d.scrubUe master inst addr).present fiMemUncorr inst := rfl

theorem scrubUe_fields (d : Dev) (master inst addr : Nat) :
    (d.scrubUe master inst addr).fld MEMCTL_ISTAT_SCRUBUE = 1 ∧
    (d.scrubUe master inst addr).fld (MEMCTL_INST_UECNT inst) = min 255 (d.fld (MEMCTL_INST_UECNT inst) + 1) ∧
    (d.scrubUe master inst addr).testing inst = d.testing inst ∧ (d.scrubUe master inst addr).mem = d.mem := by
  have hsame : (d.count (MEMCTL_INST_UECNT inst)).SameErrors inst (d.scrubUe master inst addr) :=
    ((Dev.SameErrors.refl _).setCtl (by decide) (by decide)).recordUe
  have hcount : (d.count (MEMCTL_INST_UECNT inst)).fld (MEMCTL_INST_UECNT inst) =
      min 255 (d.fld (MEMCTL_INST_UECNT inst) + 1) := fld_count (by decide : 8 + 8 ≤ 32)
  have hflag : (d.scrubUe master inst addr).fld MEMCTL_ISTAT_SCRUBUE = 1 :=
    (recordUe_istat _ master inst addr true).trans (fld_setFld_same _ 1 (by decide))
  exact ⟨hflag, hsame.uecnt.trans hcount, hsame.testing.trans (testing_setFld fun _ => inst_addr_ne inst), hsame.mem⟩

/-- An uncorrectable error that the scrubber meets sets SCRUBUE, is counted, and is presented unless the instance is under
test (R331, R340). -/
theorem uncorrectable_scrub (d : Dev) (master inst addr : Nat) :
    (d.uncorrectable master inst addr true).fld MEMCTL_ISTAT_SCRUBUE = 1 ∧
    (d.uncorrectable master inst addr true).fld (MEMCTL_INST_UECNT inst) =
      min 255 (d.fld (MEMCTL_INST_UECNT inst) + 1) ∧
    (d.testing inst = false →
      (d.uncorrectable master inst addr true).hasFault fiMemUncorr (inst % 65536) = true) ∧
    (d.uncorrectable master inst addr true).mem = d.mem := by
  obtain ⟨hflag, hcount, htest, hmem⟩ := scrubUe_fields d master inst addr
  rw [uncorrectable_scrub_eq, htest]
  cases ht : d.testing inst
  · exact ⟨hflag, hcount, fun _ => addPresented_any _ _ _, hmem⟩
  · exact ⟨hflag, hcount, fun hf => Bool.noConfusion hf, hmem⟩

/-- ETSYN of a read of an instance under test (R340). -/
def Dev.noteSyn (d : Dev) (inst word : Nat) (r : WordRead) : Dev :=
  if d.testing inst then
    (((d.flag MEMCTL_ETSYN_NEW).setFld MEMCTL_ETSYN_KIND (synKind r)).setFld MEMCTL_ETSYN_WORD word).setFld
      MEMCTL_ETSYN_SYN r.syn
  else d

theorem Dev.SameErrors.noteSyn {word : Nat} {r : WordRead} (h : d.SameErrors inst e) :
    d.SameErrors inst (e.noteSyn inst word r) := by
  unfold Dev.noteSyn
  split
  · exact (((h.setCtl (by decide) (by decide)).setCtl (by decide) (by decide)).setCtl (by decide) (by decide)).setCtl
      (by decide) (by decide)
  · exact h

variable {master word addr : Nat} {r : WordRead} {scrub : Bool}

theorem noteRead_of_bad (h : r.bad = true) : d.noteRead master inst word addr r scrub =
    (if r.split then (d.noteSyn inst word r).correctable inst else d.noteSyn inst word r).uncorrectable master inst addr
      scrub := if_pos h

theorem noteRead_of_corrected (hb : r.bad = false) (hc : r.corrected = true) (hk : r.kind ≠ .clean) :
    d.noteRead master inst word addr r scrub = ((d.noteSyn inst word r).correctable inst).queueWriteBack inst word :=
  (if_neg (by rw [hb]; decide)).trans ((if_pos hc).trans (if_neg hk))

theorem noteRead_of_clean (hb : r.bad = false) (hc : r.corrected = true) (hk : r.kind = .clean) :
    d.noteRead master inst word addr r scrub = (d.noteSyn inst word r).correctable inst :=
  (if_neg (by rw [hb]; decide)).trans ((if_pos hc).trans (if_pos hk))

theorem noteRead_of_not_corrected (hb : r.bad = false) (hc : r.corrected = false) :
    d.noteRead master inst word addr r scrub = d.noteSyn inst word r :=
  (if_neg (by rw [hb]; decide)).trans (if_neg (by rw [hc]; decide))

/-- A read with an error other than an uncorrectable one counts as corrected. -/
theorem corrected_of_not_bad (hb : r.bad = false) (hk : r.kind ≠ .clean) : r.corrected = true := by
  rw [WordRead.bad, decide_eq_false_iff_not] at hb
  rw [WordRead.corrected]
  cases hr : r.kind with
  | clean => exact absurd hr hk
  | uncorrectable => exact absurd hr hb
  | dataBit j => simp
  | checkBit => simp

theorem sameErrors_correctable_ite (d : Dev) (inst word : Nat) (r : WordRead) :
    d.SameErrors inst (if r.split then (d.noteSyn inst word r).correctable inst else d.noteSyn inst word r) := by
  have h : d.SameErrors inst (d.noteSyn inst word r) := (Dev.SameErrors.refl d).noteSyn
  split
  · exact h.correctable
  · exact h

end

/-- A write-back queued waits. -/
theorem contains_queueWriteBack (d : Dev) (inst word : Nat) :
    (d.queueWriteBack inst word).mem.writeBacks.contains { inst := inst, word := word } = true := by
  unfold Dev.queueWriteBack
  extract_lets wb
  split
  · assumption
  · simp [wb]

/-- The scrubber's place is moved by no note of a read. -/
theorem noteRead_scrubPlace (d : Dev) (master inst word addr : Nat) (r : WordRead) :
    (d.noteRead master inst word addr r true).mem.scrubInst = d.mem.scrubInst ∧
      (d.noteRead master inst word addr r true).mem.scrubWord = d.mem.scrubWord := by
  have hsyn : d.SameErrors inst (d.noteSyn inst word r) := (Dev.SameErrors.refl d).noteSyn
  have of_mem : ∀ {e : Dev}, e.mem = d.mem → e.mem.scrubInst = d.mem.scrubInst ∧ e.mem.scrubWord = d.mem.scrubWord := by
    intro e h; rw [h]; exact ⟨rfl, rfl⟩
  cases hb : r.bad with
  | true =>
    obtain ⟨_, _, _, hmem⟩ := uncorrectable_scrub
      (if r.split then (d.noteSyn inst word r).correctable inst else d.noteSyn inst word r) master inst addr
    rw [noteRead_of_bad hb]
    exact of_mem (hmem.trans (sameErrors_correctable_ite d inst word r).mem)
  | false =>
    cases hc : r.corrected with
    | false => rw [noteRead_of_not_corrected hb hc]; exact of_mem hsyn.mem
    | true =>
      have hcor := of_mem hsyn.correctable.mem
      by_cases hk : r.kind = .clean
      · rw [noteRead_of_clean hb hc hk]; exact hcor
      · rw [noteRead_of_corrected hb hc hk, Dev.queueWriteBack]
        extract_lets wb
        split <;> exact hcor

/-! ### The scrubber (R331) -/

/-- The device as the scrubber notes its read of a word: its place moved on, the word's valid copies in agreement. -/
def Dev.scrubAt (d : Dev) (inst w : Nat) : Dev :=
  { d with mem := { d.mem with scrubInst := inst, scrubWord := w + 1 } }.setInstRam inst
    (ramHeal (d.instRam inst).1 ((d.instRam inst).2 + w))

theorem scrub_of_target {inst w : Nat} (hen : d.fld MEMCTL_SCRUB_EN = 1) (ht : d.scrubTarget = some (inst, w)) :
    scrub d = (d.scrubAt inst w).noteRead 31 inst w ((d.scrubAt inst w).dataAddr inst w)
      (ramRead (d.instRam inst).1 ((d.instRam inst).2 + w) w) true := by
  have hon : d.on MEMCTL_SCRUB_EN = true := by rw [Dev.on, hen]; decide
  rw [scrub, if_pos hon, ht]
  rfl

theorem scrub_of_not_enabled (h : d.fld MEMCTL_SCRUB_EN = 0) : scrub d = d := by
  rw [scrub]
  exact if_neg (by rw [Dev.on, h]; decide)

theorem scrubAt_io (d : Dev) (inst w : Nat) : (d.scrubAt inst w).io = d.io := setInstRam_io _ _ _

theorem scrubAt_place (d : Dev) (inst w : Nat) :
    (d.scrubAt inst w).mem.scrubInst = inst ∧ (d.scrubAt inst w).mem.scrubWord = w + 1 := by
  obtain ⟨r, hr⟩ := setInstRam_mem { d with mem := { d.mem with scrubInst := inst, scrubWord := w + 1 } } inst
    (ramHeal (d.instRam inst).1 ((d.instRam inst).2 + w))
  rw [Dev.scrubAt, hr]
  exact ⟨rfl, rfl⟩

theorem testing_of_io (h : e.io = d.io) (inst : Nat) : e.testing inst = d.testing inst := by
  rw [Dev.testing, Dev.testing, Dev.on, Dev.on, fld_of_io h, fld_of_io h]

/-! ### Leaking buckets (R332) -/

/-- The bucket of an instance loses one, if it is above zero. -/
def leakOne (d : Dev) (i : Nat) : Dev :=
  if d.fld (MEMCTL_INST_BUCKET i) = 0 then d else d.setFld (MEMCTL_INST_BUCKET i) (d.fld (MEMCTL_INST_BUCKET i) - 1)

theorem leak_of_due (h : d.mem.lastLeak + d.fld MEMCTL_BUCKET_LEAK * 600000 ≤ d.ticks) :
    leak d = (List.range 153).foldl leakOne { d with mem := { d.mem with lastLeak := d.ticks } } :=
  if_pos (decide_eq_true h)

/-- The bucket is one lower, to no less than zero. -/
theorem fld_leakOne_same (d : Dev) (i : Nat) :
    (leakOne d i).fld (MEMCTL_INST_BUCKET i) = d.fld (MEMCTL_INST_BUCKET i) - 1 := by
  have hlt : d.fld (MEMCTL_INST_BUCKET i) < 2 ^ 8 := fld_lt d _
  unfold leakOne
  split
  · omega
  · rw [fld_setFld_same d _ (by decide : 0 + 8 ≤ 32)]
    exact Nat.mod_eq_of_lt ((Nat.sub_le _ 1).trans_lt hlt)

theorem fld_leakOne_apart (d : Dev) (i : Nat) {g : Fld} (h : (MEMCTL_INST_BUCKET i).Apart g) :
    (leakOne d i).fld g = d.fld g := by
  unfold leakOne
  split
  · rfl
  · exact fld_setFld_apart d _ h

theorem leakOne_rest (d : Dev) (i : Nat) : leakOne d i = { d with io := (leakOne d i).io } := by
  unfold leakOne
  split <;> rfl

/-- `e` is `d` with the buckets of the first `n` instances one lower. -/
structure Dev.Leaked (d : Dev) (n : Nat) (e : Dev) : Prop where
  bucket : ∀ i, e.fld (MEMCTL_INST_BUCKET i) = d.fld (MEMCTL_INST_BUCKET i) - (if i < n then 1 else 0)
  cecnt : ∀ i, e.fld (MEMCTL_INST_CECNT i) = d.fld (MEMCTL_INST_CECNT i)
  rest : e = { d with io := e.io }

theorem leaked_range (d : Dev) : ∀ n, d.Leaked n ((List.range n).foldl leakOne d)
  | 0 => ⟨fun _ => rfl, fun _ => rfl, rfl⟩
  | n + 1 => by
    rw [List.range_succ, List.foldl_append]
    have h := leaked_range d n
    generalize (List.range n).foldl leakOne d = e at h
    have hbucket : ∀ i, (leakOne e n).fld (MEMCTL_INST_BUCKET i) =
        d.fld (MEMCTL_INST_BUCKET i) - (if i < n + 1 then 1 else 0) := by
      intro i
      by_cases hi : i = n
      · subst hi
        rw [fld_leakOne_same, h.bucket, if_neg (Nat.lt_irrefl i), if_pos (Nat.lt_succ_self i), Nat.sub_zero]
      · have hapart : (MEMCTL_INST_BUCKET n).Apart (MEMCTL_INST_BUCKET i) :=
          .inl (by show 0x050400 + 0x4 * i ≠ 0x050400 + 0x4 * n; omega)
        rw [fld_leakOne_apart e n hapart, h.bucket, if_congr (by omega : i < n ↔ i < n + 1) rfl rfl]
    have hcecnt : ∀ i, (leakOne e n).fld (MEMCTL_INST_CECNT i) = d.fld (MEMCTL_INST_CECNT i) := fun i =>
      (fld_leakOne_apart e n (g := MEMCTL_INST_CECNT i) (.inr (.inl (by decide : (0 + 8 : Nat) ≤ 16)))).trans (h.cecnt i)
    have hrest : leakOne e n = { d with io := (leakOne e n).io } :=
      (leakOne_rest e n).trans (congrArg (fun f : Dev => { f with io := (leakOne e n).io }) h.rest)
    exact ⟨hbucket, hcecnt, hrest⟩

/-! ### ETCTL (R341) -/

theorem configurable_or_maker (d : Dev) : (d.configurable || decide (d.mode = modeMaker)) = true ↔
    d.mode = modeBoot ∨ d.mode = modeConfig ∨ d.mode = modeMaker := by
  simp [Dev.configurable, or_assoc]

theorem mode_setFld {g : Fld} {v : Nat} (h : g.addr ≠ SYSCTL_STAT_MODE.addr) : (d.setFld g v).mode = d.mode :=
  fld_setFld_apart d v (.inl h.symm)

/-- ETCTL takes its fields: an instance above 87 as 0, and EN in the modes that allow it. -/
theorem etctlWrite_fields (w : Nat) (d : Dev) :
    (etctlWrite w d).fld MEMCTL_ETCTL_INST = (if 87 < w % 256 then 0 else w % 256) ∧
    ((etctlWrite w d).fld MEMCTL_ETCTL_EN = 1 ↔
      w.testBit 31 = true ∧ (d.mode = modeBoot ∨ d.mode = modeConfig ∨ d.mode = modeMaker)) ∧
    d.SameWords (etctlWrite w d) [0x050050] := by
  have hmode : ∀ v, (d.setFld MEMCTL_ETCTL_INST v).mode = d.mode := fun v => mode_setFld (by decide)
  rw [etctlWrite]
  refine ⟨?_, ?_, ?_⟩
  · rw [fld_setFld_apart _ _ (.inr (.inr (by decide))), fld_setFld_same d _ (by decide)]
    split
    · rfl
    · exact Nat.mod_eq_of_lt (Nat.mod_lt w (by decide))
  · rw [fld_setFld_same _ _ (by decide), ← configurable_or_maker, Dev.configurable, hmode, ← Dev.configurable]
    cases w.testBit 31 <;> cases (d.configurable || decide (d.mode = modeMaker)) <;> decide
  · exact (((Dev.Regs.refl d _).setFld _ _ (by decide)).setFld _ _ (by decide)).word

/-- Settles O18, by what each of the five commands leaves. -/
theorem memoryMaintained : Obligations.MemoryMaintained := by
  unfold Obligations.MemoryMaintained
  intro s
  refine ⟨fun inst word hi hp => ⟨?_, ?_⟩, ?_, ?_, ?_, ?_⟩
  · intro hw m k hbad hvote
    refine completes_onDev rfl fun _ => ?_
    have hplace : inst.val < 88 ∨ (inst.val - 88) / 4 < (s.dev.unqueue inst word).pairs.length := by
      have h : (s.dev.unqueue inst word).pairs.length = 16 := hp
      rw [h]
      omega
    obtain ⟨r, hmem⟩ := setInstRam_mem (s.dev.unqueue inst word) inst (ramWrite m k word (ramRead m k word).value)
    rw [writeBack_of_waiting hw hi hbad hvote, instRam_setInstRam _ hplace, hmem, setInstRam_io]
    exact ⟨ramRead_ramWrite_same m k word (ramRead_value_lt m k word),
      fun k' i hk => ramRead_ramWrite_ne m word _ i hk, contains_unqueue s.dev inst word, rfl⟩
  · exact fun hw => completes_onDev rfl fun _ => writeBack_of_not_waiting hw
  · exact fun hen => completes_onDev rfl fun _ => scrub_of_not_enabled hen
  · intro inst w hen ht
    refine completes_onDev rfl fun _ => ?_
    rw [scrub_of_target hen ht]
    obtain ⟨hinst, hword⟩ := noteRead_scrubPlace (s.dev.scrubAt inst w) 31 inst w ((s.dev.scrubAt inst w).dataAddr inst w)
      (ramRead (s.dev.instRam inst).1 ((s.dev.instRam inst).2 + w) w)
    obtain ⟨hat, hat'⟩ := scrubAt_place s.dev inst w
    refine ⟨hinst.trans hat, hword.trans hat', fun hbad => ?_, fun hbad hk => ?_⟩
    · rw [noteRead_of_bad hbad]
      have hsame := sameErrors_correctable_ite (s.dev.scrubAt inst w) inst w
        (ramRead (s.dev.instRam inst).1 ((s.dev.instRam inst).2 + w) w)
      obtain ⟨hflag, hcount, hfault, _⟩ := uncorrectable_scrub _ 31 inst ((s.dev.scrubAt inst w).dataAddr inst w)
      rw [hsame.uecnt, fld_of_io (scrubAt_io s.dev inst w)] at hcount
      rw [hsame.testing, testing_of_io (scrubAt_io s.dev inst w)] at hfault
      exact ⟨hflag, hcount, hfault⟩
    · rw [noteRead_of_corrected hbad (corrected_of_not_bad hbad hk) hk]
      exact contains_queueWriteBack _ inst w
  · intro hdue
    refine completes_onDev rfl fun _ => ?_
    rw [leak_of_due hdue]
    have h := leaked_range { s.dev with mem := { s.dev.mem with lastLeak := s.dev.ticks } } 153
    generalize (List.range 153).foldl leakOne _ = e at h
    have hmem : e.mem = { s.dev.mem with lastLeak := s.dev.ticks } := congrArg (·.mem) h.rest
    refine ⟨by rw [hmem], fun i hi => ⟨?_, h.cecnt i⟩, ?_, by rw [hmem]⟩
    · rw [h.bucket, if_pos hi]; rfl
    · exact h.rest.trans (by rw [hmem])
  · intro w
    refine completes_onDev rfl fun _ => ?_
    obtain ⟨hinst, hen, hwords⟩ := etctlWrite_fields w.toNat s.dev
    exact ⟨hinst, hen, rfl, hwords⟩

end Sys2Proof.Machine
end

section
/-! PROOFS. TargetAccesses: what a pair's granted request does at a bank and what its pair is answered (R320, R324, R337,
R344, R354). -/

set_option Elab.async false

namespace Sys2Proof.Machine

variable {d e : Dev} {r : FabReq}

/-! ### Bytes of a word -/

/-- No byte selected leaves the old word. -/
theorem mergeBytes_zero (old v : Nat) : mergeBytes old v 0 = old % 2 ^ 64 := by
  have h : (List.range 8).map (fun i => BitVec.ofNat 8 (if (0 : Nat).testBit i then v >>> (8 * i) else old >>> (8 * i))) =
      leBytes 8 old := by
    simp [List.range_succ, leBytes, Nat.shiftRight_eq_div_pow, Nat.div_div_eq_div_mul]
  rw [mergeBytes, h, leNat_leBytes]
  norm_num

theorem bitsOf_lt_word (v lo : Nat) {size : Nat} (h : size ≤ 8) : bitsOf v lo (8 * size) < 2 ^ 64 :=
  (Nat.mod_lt _ (Nat.two_pow_pos _)).trans_le (Nat.pow_le_pow_right (by decide) (by omega))

/-! ### Bank accesses -/

/-- The majority of the valid copies is the same once they agree (R322). -/
theorem ramVote_ramHeal (m : Ram) (key k : Nat) : ramVote (ramHeal m key) k = ramVote m k := by
  unfold ramHeal
  split
  · by_cases hk : k = key
    · subst hk
      rw [ramVote, ramValid, arrGet_arrSet_same]
      cases ramVote m k <;> decide
    · rw [ramVote, ramValid, arrGet_arrSet_ne _ _ _ hk]
      rfl
  · rfl

/-- A word whose valid copies are put in agreement delivers the same data, and so does every other. -/
theorem ramRead_ramHeal_value (m : Ram) (key k index : Nat) :
    (ramRead (ramHeal m key) k index).value = (ramRead m k index).value := by
  have hraw : ramRaw (ramHeal m key) k = ramRaw m k := by unfold ramHeal; split <;> rfl
  have hcheck : ramCheck (ramHeal m key) k = ramCheck m k := by unfold ramHeal; split <;> rfl
  have hvote := ramVote_ramHeal m key k
  cases h : ramVote m k
  · rw [ramRead_of_not_vote index h, ramRead_of_not_vote index (hvote.trans h)]
  · rw [ramRead_of_vote index h, ramRead_of_vote index (hvote.trans h), hraw, hcheck]

/-- Outside test mode a bank write stores the word with its true check bits (R324). -/
theorem bankWrite_ram {inst word v : Nat} (h : d.testing inst = false) :
    (d.bankWrite inst word v).mem.ram = ramWrite d.mem.ram (bankKey inst word) word (v % 2 ^ 64) := by
  simp only [Dev.bankWrite, h, Bool.false_eq_true, if_false, Nat.xor_zero]
  rfl

/-- The pairs, their binding and the fabric are the same: what an answer goes by. -/
structure Dev.SameRoute (d e : Dev) : Prop where
  pairs : e.pairs = d.pairs
  bind : e.bind = d.bind
  fab : e.fab = d.fab

theorem Dev.SameRoute.setFld {g : Fld} {v : Nat} (h : d.SameRoute e) : d.SameRoute (e.setFld g v) :=
  ⟨h.pairs, h.bind, h.fab⟩

theorem Dev.SameRoute.present {i v : Nat} (h : d.SameRoute e) : d.SameRoute (e.present i v) := ⟨h.pairs, h.bind, h.fab⟩

theorem Dev.SameRoute.ite {f : Dev} {c : Prop} {_ : Decidable c} (he : d.SameRoute e) (hf : d.SameRoute f) :
    d.SameRoute (if c then e else f) := by
  split
  · exact he
  · exact hf

theorem Dev.SameRoute.bucketUp {inst : Nat} (h : d.SameRoute e) : d.SameRoute (e.bucketUp inst) :=
  .ite h.setFld (.ite h.setFld h.setFld.setFld.setFld.present)

theorem Dev.SameRoute.correctable {inst : Nat} (h : d.SameRoute e) : d.SameRoute (e.correctable inst) :=
  .ite h.setFld (.bucketUp h.setFld)

theorem Dev.SameRoute.queueWriteBack {inst word : Nat} (h : d.SameRoute e) : d.SameRoute (e.queueWriteBack inst word) :=
  .ite h ⟨h.pairs, h.bind, h.fab⟩

theorem Dev.SameRoute.noteSyn {inst word : Nat} {w : WordRead} (h : d.SameRoute e) :
    d.SameRoute (e.noteSyn inst word w) := .ite h.setFld.setFld.setFld.setFld h

theorem bankRead_eq (d : Dev) (master inst word : Nat) : d.bankRead master inst word =
    ((ramRead d.mem.ram (bankKey inst word) word).value, (ramRead d.mem.ram (bankKey inst word) word).bad,
      { d with mem := { d.mem with ram := ramHeal d.mem.ram (bankKey inst word) } }.noteRead master inst word
        (d.dataAddr inst word) (ramRead d.mem.ram (bankKey inst word) word) false) := rfl

/-- A note of a read without an uncorrectable error changes nothing that an answer goes by. -/
theorem Dev.SameRoute.noteRead {master inst word addr : Nat} {w : WordRead} {scrub : Bool} (h : d.SameRoute e)
    (hb : w.bad = false) : d.SameRoute (e.noteRead master inst word addr w scrub) := by
  cases hc : w.corrected with
  | false => rw [noteRead_of_not_corrected hb hc]; exact h.noteSyn
  | true =>
    by_cases hk : w.kind = .clean
    · rw [noteRead_of_clean hb hc hk]; exact h.noteSyn.correctable
    · rw [noteRead_of_corrected hb hc hk]; exact h.noteSyn.correctable.queueWriteBack

/-- The device after a bank read without an uncorrectable error: every word delivers the same data. -/
theorem bankRead_leaves {master inst word : Nat} (hb : (ramRead d.mem.ram (bankKey inst word) word).bad = false) :
    d.SameRoute (d.bankRead master inst word).2.2 ∧
      ∀ k i, (ramRead (d.bankRead master inst word).2.2.mem.ram k i).value = (ramRead d.mem.ram k i).value := by
  rw [bankRead_eq]
  refine ⟨.noteRead (d := d) ⟨rfl, rfl, rfl⟩ hb, fun k i => ?_⟩
  rw [(noteRead_frame _ _ _ _ _ _ _).2]
  exact ramRead_ramHeal_value d.mem.ram (bankKey inst word) k i

/-! ### Requests performed -/

section
variable {inst word : Nat} (hgoal : r.goal = .bank inst word 0)
include hgoal

theorem perform_ld (hop : r.req.op = .ld) (hmask : r.req.fwdMask = 0) (hsize : r.req.size ≤ 8)
    (hb : (ramRead d.mem.ram (bankKey inst word) word).bad = false) :
    d.perform r = (bitsOf (ramRead d.mem.ram (bankKey inst word) word).value (8 * (r.target % 8)) (8 * r.req.size), 0, [],
      (d.bankRead r.lpair inst word).2.2) := by
  have hread : d.targetRead r.lpair r.goal =
      ((ramRead d.mem.ram (bankKey inst word) word).value, 0, (d.bankRead r.lpair inst word).2.2) := by
    rw [hgoal]
    exact if_neg (by rw [hb]; exact Bool.false_ne_true)
  simp only [Dev.perform, hop, hread, hmask, mergeBytes_zero,
    Nat.mod_eq_of_lt (bitsOf_lt_word _ (8 * (r.target % 8)) hsize)]

theorem perform_st (hop : r.req.op = .st) (hplace : r.target % 8 = 0) (hsize : r.req.size = 8) :
    d.perform r = (0, 0, [], d.bankWrite inst word (r.req.data % 2 ^ 64)) := by
  have hmask : byteMask 0 8 = 255 := by decide
  simp only [Dev.perform, hop, hgoal, hplace, hsize, Dev.targetWrite, Dev.bankStore, hmask, Nat.mul_zero, Nat.shiftLeft_zero,
    and_self, if_true]

end

/-! ### Answers -/

/-- A request that has been taken out of the granted ones is none of them. -/
theorem grantedReq_ungrant (d : Dev) (id : Nat) : (d.ungrant id).grantedReq id = none := by
  rw [Dev.grantedReq, List.find?_eq_none]
  intro x hx
  simpa [Dev.ungrant] using (List.mem_filter.1 hx).2

theorem grantedReq_of_fab (h : e.fab.granted = d.fab.granted) (id : Nat) : e.grantedReq id = d.grantedReq id := by
  rw [Dev.grantedReq, Dev.grantedReq, h]

theorem physOf_of_bind (h : e.bind = d.bind) (lp : Nat) : e.physOf lp = d.physOf lp := by
  rw [Dev.physOf, Dev.physOf, h]

theorem pair_capture_same {p : Nat} (c : CapInput) (h : p < d.pairs.length) :
    ((d.capture p c).pair p).capture = (d.pair p).capture ++ [c] := by
  rw [Dev.capture, pair_setPair_same d p _ h]

/-- The response that answers a request with a value and an error code (R202). -/
def FabReq.response (r : FabReq) (value code : Nat) : CapInput :=
  .response r.mark r.req.tag r.req.imm r.req.slot value code r.req.addr r.req.lockCode

/-- A pair's request of its present execution is answered through the pair's capture stage. -/
theorem respond_capture {value code : Nat} (hrel : r.req.rel = false) (hop : r.req.op ≠ .fill)
    (hmark : r.mark = (d.pair (d.physOf r.lpair)).mark) :
    d.respond r value code = d.capture (d.physOf r.lpair) (r.response value code) := by
  have hfill : ¬ (r.req.op == .fill) = true := by simpa using hop
  rw [Dev.respond, if_neg (by rw [hrel]; exact Bool.false_ne_true), if_neg hfill, Dev.answer]
  refine (if_pos hmark).trans ?_
  rw [FabReq.response, hmark]

/-- A release's request is answered to the release (R221). -/
theorem respond_release {value code : Nat} (hrel : r.req.rel = true) :
    d.respond r value code = d.setPair r.phys ((d.pair r.phys).accepted code r.req.addr) := if_pos hrel

theorem lockCode_eq_zero (h : r.req.op = .ld ∨ r.req.op = .st) : r.req.lockCode = 0 := by
  rcases h with h | h <;> simp [PairReq.lockCode, PairReq.unlocks, h]

/-- A store's refusal is answered with the error status (R139). -/
theorem respondError_st {code : Nat} (hop : r.req.op = .st) (hrel : r.req.rel = false)
    (hmark : r.mark = (d.pair (d.physOf r.lpair)).mark) : d.respondError r code = d.capture (d.physOf r.lpair)
      (.response r.mark r.req.tag r.req.imm r.req.slot (errorStatus code) code r.req.addr 0) := by
  have hfill : r.req.op ≠ .fill := by rw [hop]; decide
  have hrespond : d.respondError r code = d.respond r (errorStatus code) code := by
    simp [Dev.respondError, PairReq.unlocks, PairReq.failValue, hop]
  rw [hrespond, respond_capture hrel hfill hmark, FabReq.response, lockCode_eq_zero (.inr hop)]

theorem setNth_of_length_le {β : Type} : ∀ {l : List β} {i : Nat} (v : β), l.length ≤ i → setNth l i v = l
  | [], _, _, _ => rfl
  | x :: _, _ + 1, v, h => congrArg (x :: ·) (setNth_of_length_le v (Nat.le_of_succ_le_succ h))

/-- A pair set with the mark it had leaves the marks of all. -/
theorem mark_setPair {p : Nat} {x : Pair} (hx : x.mark = (d.pair p).mark) (q : Nat) :
    ((d.setPair p x).pair q).mark = (d.pair q).mark := by
  by_cases hq : q = p
  · subst hq
    by_cases hlen : q < d.pairs.length
    · rw [pair_setPair_same d q x hlen, hx]
    · rw [pair_of_pairs (d := d) (setNth_of_length_le x (Nat.le_of_not_lt hlen))]
  · rw [pair_setPair_ne d x hq]

/-- An answer leaves the memories, the registers, the binding, the fabric, and the execution that each pair is in. -/
structure Dev.Answered (d e : Dev) : Prop where
  mem : e.mem = d.mem
  io : e.io = d.io
  bind : e.bind = d.bind
  fab : e.fab = d.fab
  length : e.pairs.length = d.pairs.length
  mark : ∀ p, (e.pair p).mark = (d.pair p).mark

theorem Dev.Answered.refl (d : Dev) : d.Answered d := ⟨rfl, rfl, rfl, rfl, rfl, fun _ => rfl⟩

theorem Dev.Answered.setPair {p : Nat} {x : Pair} (h : d.Answered e) (hx : x.mark = (e.pair p).mark) :
    d.Answered (e.setPair p x) :=
  ⟨h.mem, h.io, h.bind, h.fab, (length_setPair e p x).trans h.length, fun q => (mark_setPair hx q).trans (h.mark q)⟩

theorem Dev.Answered.capture {p : Nat} {c : CapInput} (h : d.Answered e) : d.Answered (e.capture p c) := h.setPair rfl

theorem Dev.Answered.ite {f : Dev} {c : Prop} {_ : Decidable c} (he : d.Answered e) (hf : d.Answered f) :
    d.Answered (if c then e else f) := by
  split
  · exact he
  · exact hf

theorem Dev.Answered.answer {lp mark tag slot value code addr lock : Nat} {imm : Bool} (h : d.Answered e) :
    d.Answered (e.answer lp imm mark tag slot value code addr lock none) :=
  .ite h.capture (.ite h (.ite (.capture (h.setPair rfl)) (h.setPair rfl)))

theorem answered_respond {value code : Nat} (hop : r.req.op ≠ .fill) : d.Answered (d.respond r value code) := by
  have hfill : ¬ (r.req.op == .fill) = true := by simpa using hop
  rw [Dev.respond, if_neg hfill]
  exact .ite ((Dev.Answered.refl d).setPair rfl) (Dev.Answered.refl d).answer

/-! ### Granted requests at their targets -/

/-- Neither a load nor a store waits at its target (R351, R366). -/
theorem mustHold_eq_false (h : r.req.op = .ld ∨ r.req.op = .st) : d.mustHold r = false := by
  rcases h with h | h <;> simp [Dev.mustHold, FabReq.syncRead, h]

theorem engine_eq_false (h : r.lpair < 16) : r.engine = false := decide_eq_false (by omega)

theorem targetAccess_one (h : d.grantedReq r.id = some r) : targetAccess [r.id] d = d.accessNow r := by
  simp only [targetAccess, List.foldl_cons, List.foldl_nil, h]

section
variable (hlp : r.lpair < 16) (hop : r.req.op = .ld ∨ r.req.op = .st)
include hlp hop

/-- A request that meets no error is performed, and its pair answered. -/
theorem accessNow_performed {value : Nat} (hreq : d.grantedReq r.id = some r) (hbroken : d.brokenFor r = false)
    (hdo : (d.dropHeld r).perform r = (value, 0, [], e)) (hfab : e.fab.granted = d.fab.granted) :
    d.accessNow r = (e.ungrant r.id).respond r value 0 := by
  have hact : ¬ (r.engine || d.mustHold r) = true := by rw [engine_eq_false hlp, mustHold_eq_false hop]; decide
  have hb : ¬ (d.dropHeld r).brokenFor r = true := by
    show ¬ d.brokenFor r = true
    rw [hbroken]
    decide
  have hstill : (e.grantedReq r.id).isSome = true := by rw [grantedReq_of_fab hfab, hreq]; rfl
  have hfill : ¬ (r.req.op == .fill && !r.req.rel) = true := by rcases hop with h | h <;> simp [h]
  simp only [Dev.accessNow, if_neg hact, if_neg hb, hdo, hstill, if_true, Dev.deliverAnswer, if_neg hfill]

/-- A request whose lock has been broken is answered LOCKBREAK (R354). -/
theorem accessNow_broken (hbroken : d.brokenFor r = true) :
    d.accessNow r = (((d.dropHeld r).ungrant r.id).clearBroken r.lpair).respondError r 5 := by
  have hact : ¬ (r.engine || d.mustHold r) = true := by rw [engine_eq_false hlp, mustHold_eq_false hop]; decide
  have hb : (d.dropHeld r).brokenFor r = true := hbroken
  simp only [Dev.accessNow, if_neg hact, if_pos hb]

end

section
variable {inst word : Nat} (hlp : r.lpair < 16) (hgoal : r.goal = .bank inst word 0)
  (hreq : d.grantedReq r.id = some r) (hbroken : d.brokenFor r = false)
include hlp hgoal hreq hbroken

/-- A load reads its word and is answered with the bytes it names. -/
theorem accessNow_ld (hop : r.req.op = .ld) (hmask : r.req.fwdMask = 0) (hsize : r.req.size ≤ 8)
    (hb : (ramRead d.mem.ram (bankKey inst word) word).bad = false) :
    d.accessNow r = (((d.dropHeld r).bankRead r.lpair inst word).2.2.ungrant r.id).respond r
      (bitsOf (ramRead d.mem.ram (bankKey inst word) word).value (8 * (r.target % 8)) (8 * r.req.size)) 0 := by
  obtain ⟨hroute, _⟩ := bankRead_leaves (d := d.dropHeld r) (master := r.lpair) hb
  exact accessNow_performed hlp (.inl hop) hreq hbroken (perform_ld hgoal hop hmask hsize hb)
    (by rw [hroute.fab]; rfl)

/-- A whole-word store writes its word and is answered. -/
theorem accessNow_st (hop : r.req.op = .st) (hplace : r.target % 8 = 0) (hsize : r.req.size = 8) :
    d.accessNow r =
      (((d.dropHeld r).bankWrite inst word (r.req.data % 2 ^ 64)).ungrant r.id).respond r 0 0 :=
  accessNow_performed hlp (.inr hop) hreq hbroken (perform_st hgoal hop hplace hsize) rfl

/-- What a whole-word store leaves: its word written alone, and its pair answered. -/
theorem accessNow_st_leaves (hop : r.req.op = .st) (hplace : r.target % 8 = 0) (hsize : r.req.size = 8)
    (htest : d.testing inst = false) :
    (d.accessNow r).mem.ram = ramWrite d.mem.ram (bankKey inst word) word (r.req.data % 2 ^ 64) ∧
    (d.accessNow r).io = d.io ∧ (d.accessNow r).bind = d.bind ∧ (d.accessNow r).grantedReq r.id = none ∧
    (d.accessNow r).pairs.length = d.pairs.length ∧ ∀ p, ((d.accessNow r).pair p).mark = (d.pair p).mark := by
  rw [accessNow_st hlp hgoal hreq hbroken hop hplace hsize]
  have h := answered_respond (d := ((d.dropHeld r).bankWrite inst word (r.req.data % 2 ^ 64)).ungrant r.id) (value := 0)
    (code := 0) (by rw [hop]; decide : r.req.op ≠ .fill)
  generalize Dev.respond _ r 0 0 = e at h
  have hram : ((d.dropHeld r).bankWrite inst word (r.req.data % 2 ^ 64)).mem.ram = _ :=
    bankWrite_ram (d := d.dropHeld r) htest
  rw [Nat.mod_mod] at hram
  exact ⟨(congrArg (·.ram) h.mem).trans hram, h.io, h.bind,
    (grantedReq_of_fab (congrArg (·.granted) h.fab) r.id).trans (grantedReq_ungrant _ r.id), h.length, h.mark⟩

end

/-! ### Collisions (R337) -/

theorem targetAccess_collision {b : FabReq} {inst word : Nat} (ha : d.grantedReq r.id = some r)
    (hb : d.grantedReq b.id = some b) (hpa : r.bankPlace = some (inst, false, word))
    (hpb : b.bankPlace = some (inst, true, word)) : targetAccess [r.id, b.id] d = d.sameWord r b inst word := by
  simp [targetAccess, ha, hb, hpa, hpb]

theorem sameWord_stores {b : FabReq} {inst word : Nat} (ha : r.req.op = .st) (hb : b.req.op = .st)
    (hra : d.brokenFor r = false) (hrb : d.brokenFor b = false) (hlp : b.lpair < 16) :
    d.sameWord r b inst word =
      ((((d.accessNow r).collided r b inst word).dropHeld b).ungrant b.id).respondError b 4 := by
  simp [Dev.sameWord, PairReq.writes, ha, hb, hra, hrb, engine_eq_false hlp]

theorem collided_mem (d : Dev) (a b : FabReq) (inst word : Nat) : (d.collided a b inst word).mem = d.mem := rfl

theorem collided_pairs (d : Dev) (a b : FabReq) (inst word : Nat) : (d.collided a b inst word).pairs = d.pairs := rfl

theorem collided_bind (d : Dev) (a b : FabReq) (inst word : Nat) : (d.collided a b inst word).bind = d.bind := rfl

/-- The record of a collision names both pairs and counts it. -/
theorem collided_fields (d : Dev) {a b : FabReq} (inst word : Nat) (ha : a.lpair < 16) (hb : b.lpair < 16) :
    (d.collided a b inst word).fld MEMCTL_COLL_AMST = a.lpair ∧ (d.collided a b inst word).fld MEMCTL_COLL_BMST = b.lpair ∧
    (d.collided a b inst word).fld MEMCTL_ISTAT_COLLIDE = 1 ∧
    (d.collided a b inst word).fld MEMCTL_COLL_COUNT = min 65535 (d.fld MEMCTL_COLL_COUNT + 1) := by
  have hcount : (d.count MEMCTL_COLL_COUNT).fld MEMCTL_COLL_COUNT = min 65535 (d.fld MEMCTL_COLL_COUNT + 1) :=
    fld_count (by decide)
  rw [Dev.collided]
  refine ⟨?_, ?_, ?_, ?_⟩
  · rw [fld_setFld_apart _ _ (by decide), fld_setFld_apart _ _ (by decide), fld_setFld_same _ _ (by decide)]
    exact Nat.mod_eq_of_lt (ha.trans (by decide))
  · rw [fld_setFld_apart _ _ (by decide), fld_setFld_same _ _ (by decide)]
    exact Nat.mod_eq_of_lt (hb.trans (by decide))
  · rw [fld_setFld_apart _ _ (by decide), fld_setFld_apart _ _ (by decide), fld_setFld_apart _ _ (by decide)]
    exact fld_setFld_same _ _ (by decide)
  · rw [fld_setFld_apart _ _ (by decide), fld_setFld_apart _ _ (by decide), fld_setFld_apart _ _ (by decide)]
    exact (fld_setFld_apart _ _ (by decide)).trans hcount

/-! ### Check codes (R344) -/

theorem fabProt_request (hreq : d.grantedReq r.id = some r) (hlp : r.lpair < 16) :
    fabProt r.id false d = ((d.ungrant r.id).respondError r 2).protFailed r.lpair false := by
  simp [fabProt, hreq, engine_eq_false hlp]

theorem protFailed_request (d : Dev) {master : Nat} (h : master < 16) :
    (d.protFailed master false).fld FABRIC_PROT_DIR = 0 ∧ (d.protFailed master false).fld FABRIC_PROT_MASTER = master ∧
    (d.protFailed master false).fld FABRIC_ISTAT_PROT = 1 ∧ (d.protFailed master false).hasFault fiFabProt master = true := by
  rw [Dev.protFailed]
  refine ⟨?_, ?_, ?_, (Dev.awaits_present _ fiFabProt (h.trans (by decide))).hasFault⟩
  · rw [fld_present, fld_setFld_apart _ _ (by decide)]
    exact fld_setFld_same _ _ (by decide)
  · rw [fld_present, fld_setFld_same _ _ (by decide)]
    exact Nat.mod_eq_of_lt (h.trans (by decide))
  · rw [fld_present, fld_setFld_apart _ _ (by decide), fld_setFld_apart _ _ (by decide), count_eq,
      fld_setFld_apart _ _ (by decide)]
    exact fld_setFld_same _ _ (by decide)

/-! ### What each access leaves -/

theorem grantedReq_capture (d : Dev) (p : Nat) (c : CapInput) (id : Nat) :
    (d.capture p c).grantedReq id = d.grantedReq id := rfl

section
variable {inst word : Nat} (hlen : d.pairs.length = 16) (hreq : d.grantedReq r.id = some r) (hlp : r.lpair < 16)

section
variable (hgoal : r.goal = .bank inst word 0) (hbroken : d.brokenFor r = false)
include hlen hreq hlp hgoal hbroken

/-- A load is answered with its bytes, and every word reads as before. -/
theorem load_answered (hphys : d.physOf r.lpair < 16) (hop : r.req.op = .ld) (hmask : r.req.fwdMask = 0)
    (hsize : r.req.size ≤ 8) (hrel : r.req.rel = false) (hmark : r.mark = (d.pair (d.physOf r.lpair)).mark)
    (hb : (ramRead d.mem.ram (bankKey inst word) word).bad = false) :
    (targetAccess [r.id] d).grantedReq r.id = none ∧
    ((targetAccess [r.id] d).pair (d.physOf r.lpair)).capture = (d.pair (d.physOf r.lpair)).capture ++
      [.response r.mark r.req.tag r.req.imm r.req.slot
        (bitsOf (ramRead d.mem.ram (bankKey inst word) word).value (8 * (r.target % 8)) (8 * r.req.size)) 0 r.req.addr 0] ∧
    ∀ k i, (ramRead (targetAccess [r.id] d).mem.ram k i).value = (ramRead d.mem.ram k i).value := by
  have hfill : r.req.op ≠ .fill := by rw [hop]; decide
  have hplace : d.physOf r.lpair < d.pairs.length := hlen.symm ▸ hphys
  obtain ⟨hroute, hvalues⟩ := bankRead_leaves (d := d.dropHeld r) (master := r.lpair) hb
  rw [targetAccess_one hreq, accessNow_ld hlp hgoal hreq hbroken hop hmask hsize hb]
  generalize ((d.dropHeld r).bankRead r.lpair inst word).2.2 = e at hroute hvalues
  have hbind : (e.ungrant r.id).physOf r.lpair = d.physOf r.lpair := physOf_of_bind hroute.bind _
  have hpair : (e.ungrant r.id).pair (d.physOf r.lpair) = d.pair (d.physOf r.lpair) := pair_of_pairs hroute.pairs _
  have hlen' : d.physOf r.lpair < (e.ungrant r.id).pairs.length :=
    hplace.trans_eq (congrArg List.length hroute.pairs).symm
  rw [respond_capture hrel hfill (by rw [hbind, hpair, hmark]), hbind, grantedReq_capture, grantedReq_ungrant, capture_mem,
    pair_capture_same _ hlen', hpair, FabReq.response, lockCode_eq_zero (.inl hop)]
  exact ⟨rfl, rfl, hvalues⟩

/-- A release's whole-word store writes its word alone, and the release moves on. -/
theorem release_stored (hphys : r.phys < 16) (hop : r.req.op = .st) (hal : r.target % 8 = 0) (hsize : r.req.size = 8)
    (hrel : r.req.rel = true) (htest : d.testing inst = false) :
    (targetAccess [r.id] d).grantedReq r.id = none ∧
    (targetAccess [r.id] d).mem.ram = ramWrite d.mem.ram (bankKey inst word) word (r.req.data % 2 ^ 64) ∧
    ((targetAccess [r.id] d).pair r.phys).rel = (d.pair r.phys).rel.tail := by
  obtain ⟨hram, _, _, hgone, _, _⟩ := accessNow_st_leaves hlp hgoal hreq hbroken hop hal hsize htest
  have hphys' : r.phys < (((d.dropHeld r).bankWrite inst word (r.req.data % 2 ^ 64)).ungrant r.id).pairs.length :=
    hlen.symm ▸ hphys
  rw [targetAccess_one hreq]
  refine ⟨hgone, hram, ?_⟩
  rw [accessNow_st hlp hgoal hreq hbroken hop hal hsize, respond_release hrel, pair_setPair_same _ _ _ hphys']
  rfl

/-- Of two whole-word stores of one word that of plane A is performed, and the other's pair answered COLLIDE. -/
theorem stores_collide {b : FabReq} (hop : r.req.op = .st) (hal : r.target % 8 = 0) (hsize : r.req.size = 8)
    (htest : d.testing inst = false) (hreqb : d.grantedReq b.id = some b)
    (hpr : r.bankPlace = some (inst, false, word)) (hpb : b.bankPlace = some (inst, true, word)) (hopb : b.req.op = .st)
    (hbrokenb : d.brokenFor b = false) (hlpb : b.lpair < 16) (hphysb : d.physOf b.lpair < 16) (hrelb : b.req.rel = false)
    (hmarkb : b.mark = (d.pair (d.physOf b.lpair)).mark) :
    (targetAccess [r.id, b.id] d).mem.ram = ramWrite d.mem.ram (bankKey inst word) word (r.req.data % 2 ^ 64) ∧
    (targetAccess [r.id, b.id] d).grantedReq b.id = none ∧
    .response b.mark b.req.tag b.req.imm b.req.slot (errorStatus 4) 4 b.req.addr 0 ∈
      ((targetAccess [r.id, b.id] d).pair (d.physOf b.lpair)).capture ∧
    (targetAccess [r.id, b.id] d).fld MEMCTL_COLL_AMST = r.lpair ∧
    (targetAccess [r.id, b.id] d).fld MEMCTL_COLL_BMST = b.lpair ∧
    (targetAccess [r.id, b.id] d).fld MEMCTL_ISTAT_COLLIDE = 1 ∧
    (targetAccess [r.id, b.id] d).fld MEMCTL_COLL_COUNT = min 65535 (d.fld MEMCTL_COLL_COUNT + 1) := by
  obtain ⟨hram, hio, hbind, _, hlen', hmarks⟩ := accessNow_st_leaves hlp hgoal hreq hbroken hop hal hsize htest
  rw [targetAccess_collision hreq hreqb hpr hpb, sameWord_stores hop hopb hbroken hbrokenb hlpb]
  generalize d.accessNow r = e at hram hio hbind hlen' hmarks
  obtain ⟨hamst, hbmst, hflag, hcount⟩ := collided_fields e inst word hlp hlpb
  rw [fld_of_io hio] at hcount
  rw [← collided_mem e r b inst word] at hram
  rw [← collided_bind e r b inst word] at hbind
  have hpairs := collided_pairs e r b inst word
  generalize e.collided r b inst word = f at hamst hbmst hflag hcount hram hbind hpairs
  have hphys' : ((f.dropHeld b).ungrant b.id).physOf b.lpair = d.physOf b.lpair := physOf_of_bind hbind _
  have hplace' : d.physOf b.lpair < ((f.dropHeld b).ungrant b.id).pairs.length :=
    hphysb.trans_eq ((congrArg List.length hpairs).trans (hlen'.trans hlen)).symm
  have hmark' : b.mark = (((f.dropHeld b).ungrant b.id).pair (d.physOf b.lpair)).mark :=
    hmarkb.trans ((congrArg Pair.mark (pair_of_pairs hpairs _)).trans (hmarks _)).symm
  rw [respondError_st hopb hrelb (by rw [hphys']; exact hmark'), hphys', capture_mem, grantedReq_capture, grantedReq_ungrant,
    pair_capture_same _ hplace', fld_capture, fld_capture, fld_capture, fld_capture]
  exact ⟨hram, rfl, List.mem_append_right _ (List.mem_singleton_self _), hamst, hbmst, hflag, hcount⟩

end

section
variable (hphys : d.physOf r.lpair < 16) (hop : r.req.op = .st) (hrel : r.req.rel = false)
  (hmark : r.mark = (d.pair (d.physOf r.lpair)).mark)
include hlen hreq hlp hphys hop hrel hmark

/-- A store whose lock has been broken writes nothing and is answered LOCKBREAK, and the broken mark is gone. -/
theorem broken_store_answered (hbroken : d.brokenFor r = true) :
    (targetAccess [r.id] d).mem = d.mem ∧ (targetAccess [r.id] d).fab.broken.testBit r.lpair = false ∧
    ((targetAccess [r.id] d).pair (d.physOf r.lpair)).capture = (d.pair (d.physOf r.lpair)).capture ++
      [.response r.mark r.req.tag r.req.imm r.req.slot (errorStatus 5) 5 r.req.addr 0] := by
  have hanswer := respondError_st (d := ((d.dropHeld r).ungrant r.id).clearBroken r.lpair) (code := 5) hop hrel hmark
  have hplace : d.physOf r.lpair < (((d.dropHeld r).ungrant r.id).clearBroken r.lpair).pairs.length := hlen.symm ▸ hphys
  have hcapture := pair_capture_same
    (.response r.mark r.req.tag r.req.imm r.req.slot (errorStatus 5) 5 r.req.addr 0) hplace
  rw [targetAccess_one hreq, accessNow_broken hlp (.inr hop) hbroken, hanswer, capture_mem, capture_fab]
  exact ⟨rfl, testBit_withoutBit_same _ _, hcapture⟩

/-- A store whose check code has failed writes nothing and is answered with an error. -/
theorem fabProt_store_answered :
    (fabProt r.id false d).mem = d.mem ∧
    ((fabProt r.id false d).pair (d.physOf r.lpair)).capture = (d.pair (d.physOf r.lpair)).capture ++
      [.response r.mark r.req.tag r.req.imm r.req.slot (errorStatus 2) 2 r.req.addr 0] := by
  have hanswer := respondError_st (d := d.ungrant r.id) (code := 2) hop hrel hmark
  have hplace : d.physOf r.lpair < (d.ungrant r.id).pairs.length := hlen.symm ▸ hphys
  have hcapture := pair_capture_same
    (.response r.mark r.req.tag r.req.imm r.req.slot (errorStatus 2) 2 r.req.addr 0) hplace
  rw [fabProt_request hreq hlp, hanswer]
  exact ⟨rfl, hcapture⟩

end

end

/-- Settles O19, by the access of a granted request and its answer. -/
theorem targetsAnswer : Obligations.TargetsAnswer := by
  unfold Obligations.TargetsAnswer
  intro s r inst word hlen hreq hgoal _ _ hlp hphys x key
  refine ⟨fun hop hmask hsize hrel hmark hbroken hb => ?_, fun hop hal hsize hrel hbroken htest hp => ?_,
    fun b hreqb _ hpb hpr hop hopb hsize hal hbroken hbrokenb htest hlpb hphysb hrelb hmarkb => ?_,
    fun hop hrel hmark hbroken => ?_, fun hop hrel hmark => ?_⟩
  · exact completes_onDev rfl fun _ => load_answered hlen hreq hlp hgoal hbroken hphys hop hmask hsize hrel hmark hb
  · refine completes_onDev rfl fun _ => ?_
    obtain ⟨hgone, hram, hmoved⟩ := release_stored hlen hreq hlp hgoal hbroken hp hop hal hsize hrel htest
    have hword := ramRead_ramWrite_same s.dev.mem.ram key word (Nat.mod_lt r.req.data (Nat.two_pow_pos 64))
    rw [hram, hword]
    exact ⟨hgone, rfl, rfl, fun k i hk => ramRead_ramWrite_ne _ _ _ _ hk, hmoved⟩
  · refine completes_onDev rfl fun _ => ?_
    obtain ⟨hram, hrest⟩ := stores_collide hlen hreq hlp hgoal hbroken hop hal hsize htest hreqb hpr hpb hopb hbrokenb hlpb
      hphysb hrelb hmarkb
    have hword := ramRead_ramWrite_same s.dev.mem.ram key word (Nat.mod_lt r.req.data (Nat.two_pow_pos 64))
    rw [hram, hword]
    exact ⟨rfl, hrest⟩
  · exact completes_onDev rfl fun _ => broken_store_answered hlen hreq hlp hphys hop hrel hmark hbroken
  · refine completes_onDev rfl fun _ => ?_
    obtain ⟨hmem, hcapture⟩ := fabProt_store_answered hlen hreq hlp hphys hop hrel hmark
    obtain ⟨hdir, hmaster, hflag, hfault⟩ := protFailed_request ((s.dev.ungrant r.id).respondError r 2) hlp
    rw [← fabProt_request hreq hlp] at hdir hmaster hflag hfault
    exact ⟨hmem, hdir, hmaster, hflag, hfault, hcapture⟩

end Sys2Proof.Machine
end

section
/-! PROOFS. Grants: which request an arbitration point grants, and when a presented request becomes urgent (R345 to R350). -/

set_option Elab.async false

namespace Sys2Proof.Machine

variable {d : Dev} {pt : Point} {a b r x : FabReq}

/-! ### The order of R348 -/

/-- In the order of R348 `a` comes before `b`, or the two are level: an urgent request first and by the tick at which it
became urgent, then by effective priority, by wait, by master number. -/
def Dev.Ahead (d : Dev) (a b : FabReq) : Prop :=
  match a.urgentAt, b.urgentAt with
  | some s, some t => s < t ∨ (s = t ∧ a.lpair ≤ b.lpair)
  | some _, none => True
  | none, some _ => False
  | none, none => d.effective b < d.effective a ∨ (d.effective b = d.effective a ∧
      (a.since < b.since ∨ (a.since = b.since ∧ a.lpair ≤ b.lpair)))

theorem ahead_refl (d : Dev) (a : FabReq) : d.Ahead a a := by
  unfold Dev.Ahead
  cases a.urgentAt <;> simp

theorem ahead_trans (hab : d.Ahead a b) (hbx : d.Ahead b x) : d.Ahead a x := by
  unfold Dev.Ahead at hab hbx ⊢
  generalize a.urgentAt = ua at *
  generalize b.urgentAt = ub at *
  generalize x.urgentAt = ux at *
  match ua, ub, ux with
  | none, none, none => dsimp only at hab hbx ⊢; omega
  | some _, some _, some _ => dsimp only at hab hbx ⊢; omega
  | some _, _, none => exact trivial
  | none, some _, _ => exact hab.elim
  | _, none, some _ => exact hbx.elim

/-- Of two requests the better one is one of the two, and comes before both. -/
theorem betterReq_spec (d : Dev) (a b : FabReq) :
    (d.betterReq a b = a ∧ d.Ahead a b) ∨ (d.betterReq a b = b ∧ d.Ahead b a) := by
  unfold Dev.betterReq Dev.Ahead
  cases a.urgentAt <;> cases b.urgentAt <;> dsimp only
  · split_ifs <;> simp <;> omega
  · simp
  · simp
  · split_ifs <;> simp <;> omega

/-- The best request of a list is in it and comes before every other. -/
theorem foldl_betterReq_spec (d : Dev) : ∀ (l : List FabReq) (r : FabReq),
    l.foldl d.betterReq r ∈ r :: l ∧ ∀ x ∈ r :: l, d.Ahead (l.foldl d.betterReq r) x
  | [], r => ⟨List.mem_singleton_self r, fun x hx => List.mem_singleton.1 hx ▸ ahead_refl d r⟩
  | b :: t, r => by
    obtain ⟨hmem, hahead⟩ := foldl_betterReq_spec d t (d.betterReq r b)
    obtain ⟨hbest, hrest⟩ := List.forall_mem_cons.1 hahead
    rw [List.foldl_cons]
    rcases betterReq_spec d r b with ⟨he, hrb⟩ | ⟨he, hbr⟩ <;> rw [he] at hmem hbest hrest ⊢
    · exact ⟨List.cons_subset_cons r (List.subset_cons_self b t) hmem,
        List.forall_mem_cons.2 ⟨hbest, List.forall_mem_cons.2 ⟨ahead_trans hbest hrb, hrest⟩⟩⟩
    · exact ⟨List.mem_cons_of_mem _ hmem,
        List.forall_mem_cons.2 ⟨ahead_trans hbest hbr, List.forall_mem_cons.2 ⟨hbest, hrest⟩⟩⟩

/-! ### The winner of a point -/

theorem winner_eq_none (h : ∀ x ∈ d.presentedAt pt, d.lockedOut pt x = true) : d.winner pt = none := by
  have hnil : (d.presentedAt pt).filter (fun r => !(d.lockedOut pt r)) = [] :=
    List.filter_eq_nil_iff.2 fun x hx => by simp [h x hx]
  rw [Dev.winner, hnil]

/-- Among presented requests of which some are not held back, one of these wins that comes before all of them. -/
theorem exists_winner (h : ∃ x ∈ d.presentedAt pt, d.lockedOut pt x = false) :
    ∃ r ∈ d.presentedAt pt, d.lockedOut pt r = false ∧
      (∀ x ∈ d.presentedAt pt, d.lockedOut pt x = false → d.Ahead r x) ∧ d.winner pt = some r := by
  have hfree : ∀ x, x ∈ (d.presentedAt pt).filter (fun r => !(d.lockedOut pt r)) ↔
      x ∈ d.presentedAt pt ∧ d.lockedOut pt x = false := fun x => by simp
  obtain ⟨x, hx, hopen⟩ := h
  rw [Dev.winner]
  generalize (d.presentedAt pt).filter (fun r => !(d.lockedOut pt r)) = l at hfree
  match l with
  | [] => exact absurd ((hfree x).2 ⟨hx, hopen⟩) List.not_mem_nil
  | r :: t =>
    obtain ⟨hmem, hahead⟩ := foldl_betterReq_spec d t r
    obtain ⟨hpresented, hpasses⟩ := (hfree _).1 hmem
    exact ⟨_, hpresented, hpasses, fun y hy ho => hahead y ((hfree y).2 ⟨hy, ho⟩), rfl⟩

/-! ### The queue after a grant -/

/-- The requests that wait after one has left are the others. -/
theorem exists_of_mem_nextPresented {now lp : Nat} : ∀ {l : List FabReq},
    x ∈ nextPresented now lp pt l → ∃ y ∈ l, y.id = x.id
  | [], h => absurd h List.not_mem_nil
  | r :: t, h => by
    rw [nextPresented] at h
    split at h
    · rcases List.mem_cons.1 h with rfl | h
      · exact ⟨r, List.mem_cons_self, rfl⟩
      · exact ⟨x, List.mem_cons_of_mem _ h, rfl⟩
    · rcases List.mem_cons.1 h with rfl | h
      · exact ⟨x, List.mem_cons_self, rfl⟩
      · obtain ⟨y, hy, hid⟩ := exists_of_mem_nextPresented h
        exact ⟨y, List.mem_cons_of_mem _ hy, hid⟩

/-- A request that leaves the queue is gone from it; nothing but the registers and the queue changes. -/
theorem leaveQueue_leaves (d : Dev) (pt : Point) (r : FabReq) :
    (∀ x ∈ (d.leaveQueue pt r).fab.waiting, x.id ≠ r.id) ∧ (d.leaveQueue pt r).fab.granted = d.fab.granted ∧
    d.leaveQueue pt r = { d with io := (d.leaveQueue pt r).io, fab := (d.leaveQueue pt r).fab } := by
  have hgone : ∀ (now : Nat) (l : List FabReq), ∀ x ∈ nextPresented now r.lpair pt (l.filter (fun x => x.id != r.id)),
      x.id ≠ r.id := fun now l x hx => by
    obtain ⟨y, hy, hid⟩ := exists_of_mem_nextPresented hx
    exact hid ▸ bne_iff_ne.1 (List.mem_filter.1 hy).2
  rw [Dev.leaveQueue]
  dsimp only
  split
  · exact ⟨hgone _ _, rfl, rfl⟩
  · exact ⟨hgone _ _, rfl, rfl⟩

/-- MAXWAIT takes the wait of the request that leaves (R350). -/
theorem maxwait_leaveQueue (d : Dev) (pt : Point) (r : FabReq) : (d.leaveQueue pt r).fld FABRIC_URG_MAXWAIT =
    max (d.fld FABRIC_URG_MAXWAIT) (min 65535 (d.waitOf r)) := by
  have hio : ∀ e : Dev, ∀ l, ({ e with fab := { e.fab with waiting := l } } : Dev).fld FABRIC_URG_MAXWAIT =
      e.fld FABRIC_URG_MAXWAIT := fun _ _ => rfl
  rw [Dev.leaveQueue, hio]
  split
  · next h =>
    rw [fld_setFld_same _ _ (by decide), max_eq_right h.le]
    exact Nat.mod_eq_of_lt ((Nat.min_le_left ..).trans_lt (by decide))
  · next h => exact (max_eq_left (not_lt.1 h)).symm

/-! ### Past the point -/

/-- Every answer of a request leaves the registers, a refused fill's among them. -/
theorem io_respond (d : Dev) (r : FabReq) (value code : Nat) : (d.respond r value code).io = d.io := by
  by_cases hop : r.req.op = .fill
  · have hfill : (r.req.op == .fill) = true := by rw [hop]; rfl
    have h : d.Answered (d.answer r.lpair true r.mark r.req.tag r.req.slot value code r.req.addr 0 (some (r.req.dst, []))) :=
      .ite (Dev.Answered.refl d).capture (.ite (Dev.Answered.refl d)
        (.ite (.capture ((Dev.Answered.refl d).setPair rfl)) ((Dev.Answered.refl d).setPair rfl)))
    rw [Dev.respond, if_pos hfill]
    split
    · rfl
    · exact h.io
  · exact (answered_respond hop).io

theorem io_respondError (d : Dev) (r : FabReq) (code : Nat) : (d.respondError r code).io = d.io := by
  rw [Dev.respondError, io_respond]
  split <;> rfl

/-- No point's crossing changes a register. -/
theorem io_passPoint (d : Dev) (pt : Point) (r : FabReq) : (d.passPoint pt r).io = d.io := by
  unfold Dev.passPoint
  split
  · extract_lets q
    split
    · unfold Dev.refuseReq
      split
      · exact io_respondError _ _ _
      · exact io_respondError _ _ _
    · rfl
  · rfl

/-- Past its last point a request is at its target. -/
theorem passPoint_last (h : ∀ n, pt ≠ .uplink n) :
    d.passPoint pt r = { d with fab := { d.fab with granted := d.fab.granted ++ [r] } } := by
  cases pt with
  | uplink n => exact absurd rfl (h n)
  | _ => rfl

/-! ### Grants -/

theorem grant_of_busy (h : d.fab.granted.any (fun r => r.at pt && !r.syncRead) = true) : grant pt d = d := if_pos h

theorem grant_of_no_winner (h : d.winner pt = none) : grant pt d = d := by
  rw [grant, h]
  split <;> rfl

theorem grant_of_winner (hfree : d.fab.granted.any (fun r => r.at pt && !r.syncRead) = false) (h : d.winner pt = some r) :
    grant pt d = (d.leaveQueue pt r).passPoint pt r := by
  rw [grant, hfree, h]
  rfl

/-- What the grant of a request leaves. -/
theorem granted_leaves (d : Dev) (pt : Point) (r : FabReq) :
    ((d.leaveQueue pt r).passPoint pt r).fld FABRIC_URG_MAXWAIT =
      max (d.fld FABRIC_URG_MAXWAIT) (min 65535 (d.waitOf r)) ∧
    ((∀ n, pt ≠ .uplink n) → ((d.leaveQueue pt r).passPoint pt r).fab.granted = d.fab.granted ++ [r] ∧
      (∀ x ∈ ((d.leaveQueue pt r).passPoint pt r).fab.waiting, x.id ≠ r.id) ∧
      (d.leaveQueue pt r).passPoint pt r = { d with
        io := ((d.leaveQueue pt r).passPoint pt r).io, fab := ((d.leaveQueue pt r).passPoint pt r).fab }) := by
  refine ⟨(fld_of_io (io_passPoint _ pt r) _).trans (maxwait_leaveQueue d pt r), fun hlast => ?_⟩
  obtain ⟨hgone, hgranted, hframe⟩ := leaveQueue_leaves d pt r
  rw [passPoint_last hlast]
  generalize d.leaveQueue pt r = e at hgone hgranted hframe
  exact ⟨congrArg (· ++ [r]) hgranted, hgone, by rw [hframe]⟩

/-! ### Urgency (R347) -/

/-- The device with the waiting request `id` urgent from now on. -/
def Dev.madeUrgent (d : Dev) (id : Nat) : Dev :=
  { d with fab := { d.fab with
      waiting := d.fab.waiting.map (fun (x : FabReq) => if x.id = id then { x with urgentAt := some d.ticks } else x) } }

/-- A presented request whose wait has reached URGENT_AGE becomes urgent and is counted. -/
theorem urgent_leaves {id : Nat} {q : Point} {t : List Point} (hfind : d.fab.waiting.find? (fun x => x.id = id) = some r)
    (hroute : r.route = q :: t) (hpresented : r ∈ d.presentedAt q) (hnew : r.urgentAt = none)
    (hage : d.fld FABRIC_ARB_URGENT_AGE ≤ d.waitOf r) :
    { r with urgentAt := some d.ticks } ∈ (urgent id d).fab.waiting ∧
    (urgent id d).fld FABRIC_URG_COUNT = min 65535 (d.fld FABRIC_URG_COUNT + 1) ∧
    (urgent id d).fld FABRIC_ISTAT_URGENT = 1 ∧
    urgent id d = { d with io := (urgent id d).io, fab := (urgent id d).fab } := by
  have hid : r.id = id := by simpa using List.find?_some hfind
  have hdue : ((d.presentedAt q).any (fun x => x.id = id) && r.urgentAt.isNone
      && decide (d.fld FABRIC_ARB_URGENT_AGE ≤ d.waitOf r)) = true := by
    have hany : (d.presentedAt q).any (fun x => x.id = id) = true :=
      List.any_eq_true.2 ⟨r, hpresented, decide_eq_true hid⟩
    rw [hany, hnew, decide_eq_true hage]
    rfl
  have hhead : r.route.headD .rom = q := by rw [hroute]; rfl
  have heq : urgent id d = ((d.madeUrgent id).count FABRIC_URG_COUNT).flag FABRIC_ISTAT_URGENT := by
    rw [urgent, hfind]
    dsimp only
    rw [hhead]
    exact if_pos hdue
  rw [heq]
  refine ⟨List.mem_map.2 ⟨r, List.mem_of_find?_eq_some hfind, if_pos hid⟩, ?_, fld_flag _, rfl⟩
  exact (fld_setFld_apart _ _ (by decide)).trans (fld_count (by decide))

/-- Settles O20, by the winner of the order of R348 and by what its grant leaves. -/
theorem fabricGrants : Obligations.FabricGrants := by
  unfold Obligations.FabricGrants
  intro s pt d
  refine ⟨fun hbusy => ?_, fun hheld => ?_, fun hfree hopen => ?_,
    fun id r hfind ⟨q, t, hroute, hpresented⟩ hnew hage => ?_⟩
  · exact completes_onDev rfl fun _ => grant_of_busy hbusy
  · exact completes_onDev rfl fun _ => grant_of_no_winner (winner_eq_none hheld)
  · refine completes_onDev rfl fun _ => ?_
    obtain ⟨r, hr, hpasses, hahead, hwinner⟩ := exists_winner hopen
    rw [grant_of_winner hfree hwinner]
    obtain ⟨hmaxwait, hlast⟩ := granted_leaves d pt r
    exact ⟨r, hr, hpasses, hahead, hmaxwait, hlast⟩
  · exact completes_onDev rfl fun _ => urgent_leaves hfind hroute hpresented hnew hage

end Sys2Proof.Machine
end

section
/-! PROOFS. LocksAndDenials: the break of a lock whose count has run out (R353, R354), the answer to a denied access (R361,
R364), and a read of MPU.SYNC that no pair's request carries (R366). -/

set_option Elab.async false

namespace Sys2Proof.Machine

variable {d : Dev} {r : FabReq}

/-! ### Locks (R353, R354) -/

section
variable {inst : Nat} {l : LockEnt} (hfind : d.fab.locks.find? (fun l => l.inst = inst) = some l)
include hfind

theorem lockBreak_of_due (h : d.fld FABRIC_LOCKMAX_LOCK_MAX ≤ fcOf (d.ticks - l.since)) :
    lockBreak inst d = d.breakLock l := by
  rw [lockBreak, hfind]
  exact if_pos h

theorem lockBreak_of_early (h : fcOf (d.ticks - l.since) < d.fld FABRIC_LOCKMAX_LOCK_MAX) : lockBreak inst d = d := by
  rw [lockBreak, hfind]
  exact if_neg (not_le.2 h)

end

/-- The device with a lock gone and its holder marked. -/
def Dev.lockClosed (d : Dev) (l : LockEnt) : Dev :=
  { d with fab := { d.fab with
      locks := d.fab.locks.filter (fun k => k.lpair != l.lpair), broken := withBit d.fab.broken l.lpair } }

/-- The record of a lock's break. -/
def Dev.breakNoted (d : Dev) (l : LockEnt) : Dev :=
  ((((d.flag FABRIC_ISTAT_LOCKBREAK).count FABRIC_LKBRK_COUNT).setFld FABRIC_LKBRK_MASTER l.lpair).setFld
    FABRIC_LKBRK_INST l.inst).setFld FABRIC_LKADDR_ADDR l.addr

theorem breakLock_eq (d : Dev) (l : LockEnt) :
    d.breakLock l = ((d.lockClosed l).breakNoted l).present fiLockbreak l.lpair := rfl

theorem breakNoted_fields (d : Dev) {l : LockEnt} (hlp : l.lpair < 16) (hinst : l.inst < 153) (haddr : l.addr < 2 ^ 32) :
    (d.breakNoted l).fld FABRIC_LKBRK_MASTER = l.lpair ∧ (d.breakNoted l).fld FABRIC_LKBRK_INST = l.inst ∧
    (d.breakNoted l).fld FABRIC_LKADDR_ADDR = l.addr ∧ (d.breakNoted l).fld FABRIC_ISTAT_LOCKBREAK = 1 := by
  simp (disch := decide) only [Dev.breakNoted, flag_eq, count_eq, fld_setFld_apart, fld_setFld_same]
  exact ⟨Nat.mod_eq_of_lt (hlp.trans (by decide)), Nat.mod_eq_of_lt (hinst.trans (by decide)), Nat.mod_eq_of_lt haddr, rfl⟩

/-- A broken lock is gone, its holder marked and named, and the break presented. -/
theorem breakLock_leaves (d : Dev) {l : LockEnt} (hlp : l.lpair < 16) (hinst : l.inst < 153) (haddr : l.addr < 2 ^ 32) :
    (∀ k ∈ (d.breakLock l).fab.locks, k.lpair ≠ l.lpair) ∧ (d.breakLock l).fab.broken.testBit l.lpair = true ∧
    (d.breakLock l).fld FABRIC_LKBRK_MASTER = l.lpair ∧ (d.breakLock l).fld FABRIC_LKBRK_INST = l.inst ∧
    (d.breakLock l).fld FABRIC_LKADDR_ADDR = l.addr ∧ (d.breakLock l).fld FABRIC_ISTAT_LOCKBREAK = 1 ∧
    (d.breakLock l).hasFault fiLockbreak l.lpair = true ∧ (d.breakLock l).pairs = d.pairs ∧
    (d.breakLock l).mem = d.mem := by
  have hgone : ∀ k ∈ (d.lockClosed l).fab.locks, k.lpair ≠ l.lpair := fun k hk => bne_iff_ne.1 (List.mem_filter.1 hk).2
  have hmarked : (d.lockClosed l).fab.broken.testBit l.lpair = true := by simp [Dev.lockClosed, testBit_withBit]
  have hfab : ((d.lockClosed l).breakNoted l).fab = (d.lockClosed l).fab := by simp [Dev.breakNoted]
  have hpairs : ((d.lockClosed l).breakNoted l).pairs = d.pairs := rfl
  have hmem : ((d.lockClosed l).breakNoted l).mem = d.mem := rfl
  obtain ⟨hmaster, hnamed, hplace, hflag⟩ := breakNoted_fields (d.lockClosed l) hlp hinst haddr
  rw [breakLock_eq, present_fab, hfab]
  generalize (d.lockClosed l).breakNoted l = e at hmaster hnamed hplace hflag hpairs hmem
  have hfault := (e.awaits_present fiLockbreak (hlp.trans (by decide))).hasFault
  exact ⟨hgone, hmarked, hmaster, hnamed, hplace, hflag, hfault, hpairs, hmem⟩

/-! ### The record of a denial (R364) -/

/-- The record of the first denied access: its kind, its master and its address. -/
def Dev.firstDenial (d : Dev) (x : Denial) : Dev :=
  let b (p : Bool) : Nat := if p then 1 else 0
  (((((d.setFld MPU_DENY_FIXED (b x.fixed)).setFld MPU_DENY_NOMATCH (b x.noMatch)).setFld MPU_DENY_USER (b x.user)).setFld
    MPU_DENY_WRITE (b x.write)).setFld MPU_DENY_MASTER x.master).setFld MPU_DENYADDR_ADDR x.addr

theorem firstDenial_fields (d : Dev) {x : Denial} (hmaster : x.master < 31) :
    (d.firstDenial x).fld MPU_DENY_MASTER = x.master ∧ (d.firstDenial x).fld MPU_DENYADDR_ADDR = x.addr % 2 ^ 32 ∧
    (d.firstDenial x).fld MPU_DENY_WRITE = (if x.write then 1 else 0) ∧
    (d.firstDenial x).fld MPU_DENY_USER = (if x.user then 1 else 0) ∧
    (d.firstDenial x).fld MPU_DENY_COUNT = d.fld MPU_DENY_COUNT := by
  have hbit : ∀ b : Bool, (if b then 1 else 0) % 2 = if b then 1 else 0 := by decide
  simp (disch := decide) only [Dev.firstDenial, fld_setFld_apart, fld_setFld_same]
  exact ⟨Nat.mod_eq_of_lt (hmaster.trans (by decide)), rfl, hbit x.write, hbit x.user, trivial⟩

/-- The record of a denial counts it, and holds it while no record is held. -/
theorem recordDenial_eq (d : Dev) (x : Denial) : d.recordDenial x =
    ((if d.on MPU_ISTAT_DENY then d.count MPU_DENY_COUNT else (d.count MPU_DENY_COUNT).firstDenial x).flag
      MPU_ISTAT_DENY).present fiMpuDeny x.master := by
  have hon : (d.count MPU_DENY_COUNT).on MPU_ISTAT_DENY = d.on MPU_ISTAT_DENY :=
    on_of_fld (fld_setFld_apart _ _ (by decide))
  simp only [Dev.recordDenial, Dev.firstDenial, hon]

/-- A denial's record changes the registers and the presentations alone. -/
theorem butJournal_recordDenial (d : Dev) (x : Denial) : (d.recordDenial x).butJournal = d.butJournal := by
  rw [recordDenial_eq]
  split
  · simp
  · simp [Dev.firstDenial]

theorem recordDenial_leaves (d : Dev) {x : Denial} (hmaster : x.master < 31) :
    (d.recordDenial x).fld MPU_ISTAT_DENY = 1 ∧
    (d.recordDenial x).fld MPU_DENY_COUNT = min 65535 (d.fld MPU_DENY_COUNT + 1) ∧
    (d.recordDenial x).hasFault fiMpuDeny x.master = true ∧
    (d.fld MPU_ISTAT_DENY = 0 → (d.recordDenial x).fld MPU_DENY_MASTER = x.master ∧
      (d.recordDenial x).fld MPU_DENYADDR_ADDR = x.addr % 2 ^ 32 ∧
      (d.recordDenial x).fld MPU_DENY_WRITE = (if x.write then 1 else 0) ∧
      (d.recordDenial x).fld MPU_DENY_USER = (if x.user then 1 else 0)) ∧
    (d.fld MPU_ISTAT_DENY = 1 → (d.recordDenial x).fld MPU_DENY_MASTER = d.fld MPU_DENY_MASTER ∧
      (d.recordDenial x).fld MPU_DENYADDR_ADDR = d.fld MPU_DENYADDR_ADDR) := by
  have hcount : (d.count MPU_DENY_COUNT).fld MPU_DENY_COUNT = min 65535 (d.fld MPU_DENY_COUNT + 1) := fld_count (by decide)
  obtain ⟨hm, ha, hw, hu, hc⟩ := firstDenial_fields (d.count MPU_DENY_COUNT) hmaster
  have hflagged : ∀ (e : Dev) (f : Fld), MPU_ISTAT_DENY.Apart f →
      ((e.flag MPU_ISTAT_DENY).present fiMpuDeny x.master).fld f = e.fld f := fun e f h => fld_setFld_apart e 1 h
  rw [recordDenial_eq]
  refine ⟨?_, ?_, (Dev.awaits_present _ fiMpuDeny (by omega)).hasFault, fun h => ?_, fun h => ?_⟩
  · rw [fld_present]
    exact fld_flag _
  · rw [hflagged _ _ (by decide)]
    split
    · exact hcount
    · exact hc.trans hcount
  · rw [on_of_zero h, if_neg Bool.false_ne_true, hflagged _ _ (by decide), hflagged _ _ (by decide),
      hflagged _ _ (by decide), hflagged _ _ (by decide)]
    exact ⟨hm, ha, hw, hu⟩
  · rw [on_of_one h, if_pos rfl, hflagged _ _ (by decide), hflagged _ _ (by decide)]
    exact ⟨fld_setFld_apart _ _ (by decide), fld_setFld_apart _ _ (by decide)⟩

/-! ### The answer to a denied access (R139, R364) -/

/-- A denied request keeps its lock, and is answered with the status MPU or with zero. -/
theorem respondError_denied (hrel : r.req.rel = false) (hop : r.req.op ≠ .fill)
    (hmark : r.mark = (d.pair (d.physOf r.lpair)).mark) : d.respondError r 3 = d.capture (d.physOf r.lpair)
      (.response r.mark r.req.tag r.req.imm r.req.slot
        (if r.req.op = .st ∨ r.req.op = .stUnlock ∨ r.req.op = .unlock ∨ r.req.op = .ioWr then 2 ^ 63 + 3 else 0) 3
        r.req.addr r.req.lockCode) := by
  have hrespond : d.respondError r 3 = d.respond r (r.req.failValue 3) 3 := by simp [Dev.respondError]
  have hvalue : r.req.failValue 3 =
      if r.req.op = .st ∨ r.req.op = .stUnlock ∨ r.req.op = .unlock ∨ r.req.op = .ioWr then 2 ^ 63 + 3 else 0 := by
    simp [PairReq.failValue, hop, or_assoc, errorStatus]
  rw [hrespond, respond_capture hrel hop hmark, FabReq.response, hvalue]

/-- The device with the oldest denial taken. -/
def Dev.denialTaken (d : Dev) (rest : List Denial) : Dev := { d with fab := { d.fab with denials := rest } }

theorem deny_request {x : Denial} {rest : List Denial} (hx : d.fab.denials = x :: rest) (hreq : x.req = some r) :
    deny d = ((d.denialTaken rest).recordDenial x).respondError r 3 := by
  simp only [deny, hx, hreq, Dev.denialTaken]

/-- The record of the oldest denial leaves the pairs, the memories and the other denials. -/
theorem recordDenial_taken (d : Dev) (x : Denial) (rest : List Denial) :
    ((d.denialTaken rest).recordDenial x).pairs = d.pairs ∧ ((d.denialTaken rest).recordDenial x).bind = d.bind ∧
    ((d.denialTaken rest).recordDenial x).mem = d.mem ∧ ((d.denialTaken rest).recordDenial x).fab.denials = rest := by
  have h := butJournal_recordDenial (d.denialTaken rest) x
  have hmode := butMode_of_butJournal h
  have hfab : ((d.denialTaken rest).recordDenial x).butJournal.fab = (d.denialTaken rest).butJournal.fab :=
    congrArg Dev.fab h
  exact ⟨pairs_of_butMode (d := d.denialTaken rest) hmode, bind_of_butMode (d := d.denialTaken rest) hmode,
    mem_of_butMode (d := d.denialTaken rest) hmode, congrArg FabricSt.denials hfab⟩

/-! ### The mirror area (R236, R361) -/

theorem targetOf_mirror (remap : Bool) {a : Nat} (hlo : 0x11B00000 ≤ a) (hhi : a < 0x12000000) :
    targetOf remap a = sharedTarget (a - 0x10000000) 0 := by
  unfold targetOf localBase localSize
  rw [if_neg (by omega), if_neg (by omega), if_pos (by omega), if_neg (by omega)]

theorem inMirror_targetOf (remap : Bool) {a : Nat} (hlo : 0x11B00000 ≤ a) (hhi : a < 0x12000000) :
    inMirror (targetOf remap a) = true := by
  rw [targetOf_mirror remap hlo hhi, sharedTarget, inMirror, wordAddr, if_pos (Nat.mod_lt _ (by decide))]
  simp only [Bool.and_eq_true, decide_eq_true_eq]
  omega

/-- A write to the mirror area is denied by a fixed rule. -/
theorem mpuCheck_mirror (m : Nat) {a : Access} (hio : a.io = false) (hwr : a.wr = true) (hlo : 0x11B00000 ≤ a.addr)
    (hhi : a.addr < 0x12000000) : d.mpuCheck m a = some (true, false) := by
  have hfixed : d.fixedDeny m a = true := by
    simp [Dev.fixedDeny, hio, hwr, inMirror_targetOf d.remap hlo hhi]
  exact if_pos hfixed

/-! ### MPU.SYNC (R366) -/

section
variable {m : Nat} (hnone : d.fab.granted.find? (fun r => r.syncRead && r.lpair = m) = none)
include hnone

theorem mpuSync_of_ready (hreqs : ∀ id ∈ arrGet [] d.mpu.replaced m, ∀ r ∈ d.fab.waiting ++ d.fab.granted, r.id ≠ id)
    (hbuffered : arrGet [] d.mpu.buffered m = []) : mpuSync m d = d.syncDone m := by
  have hready : d.syncReady m = true := by
    rw [Dev.syncReady, hbuffered, Bool.and_eq_true, List.all_eq_true]
    refine ⟨fun id hid => ?_, rfl⟩
    have hgone : (d.fab.waiting ++ d.fab.granted).any (fun r => r.id = id) = false :=
      List.any_eq_false.2 fun r hr => by simpa using hreqs id hid r hr
    rw [hgone]
    rfl
  rw [mpuSync, hnone]
  exact if_pos hready

theorem mpuSync_of_request (h : ∃ r ∈ d.fab.waiting ++ d.fab.granted, r.id ∈ arrGet [] d.mpu.replaced m) :
    mpuSync m d = d := by
  obtain ⟨r, hr, hid⟩ := h
  have hany : (d.fab.waiting ++ d.fab.granted).any (fun x => x.id = r.id) = true :=
    List.any_eq_true.2 ⟨r, hr, decide_eq_true rfl⟩
  have hwaits : ¬ d.syncReady m = true := fun hready => by
    rw [Dev.syncReady, Bool.and_eq_true, List.all_eq_true] at hready
    simpa [hany] using hready.1 r.id hid
  rw [mpuSync, hnone]
  exact if_neg hwaits

end

/-- Settles O21: the break of a lock, the record and the answer of the oldest denial, the fixed rule on the mirror area, and
a read of MPU.SYNC by whether a request is under way. -/
theorem locksBreak : Obligations.LocksBreak := by
  unfold Obligations.LocksBreak
  intro s hlen d
  refine ⟨fun inst l hfind hlp haddr => ⟨fun hdue => ?_, fun hearly => ?_⟩,
    fun x rest r hx hreq hrel hop hlp hphys hmark hmaster => ?_,
    fun m a hio hwr hlo hhi => mpuCheck_mirror m hio hwr hlo hhi,
    fun m hnone => ⟨fun hreqs hbuffered => ?_, fun h => ?_⟩⟩
  · refine completes_onDev rfl fun _ => ?_
    have hinst : l.inst = inst := by simpa using List.find?_some hfind
    rw [lockBreak_of_due hfind hdue, ← hinst]
    exact breakLock_leaves d hlp (hinst ▸ inst.isLt) haddr
  · exact completes_onDev rfl fun _ => lockBreak_of_early hfind hearly
  · refine completes_onDev rfl fun _ => ?_
    obtain ⟨hpairs, hbind, hmem, hrest⟩ := recordDenial_taken d x rest
    obtain ⟨hflag, hcount, hfault, hfirst, hlater⟩ := recordDenial_leaves (d.denialTaken rest) hmaster
    rw [deny_request hx hreq]
    generalize (d.denialTaken rest).recordDenial x = e at *
    have hphysE : e.physOf r.lpair = d.physOf r.lpair := physOf_of_bind hbind _
    have hpairE := pair_of_pairs hpairs (d.physOf r.lpair)
    rw [respondError_denied hrel hop (by rw [hphysE, hpairE, hmark]), hphysE,
      pair_capture_same _ (by rw [hpairs, hlen]; exact hphys), hpairE]
    exact ⟨hrest, hmem, hflag, hcount, hfault, hfirst, hlater, rfl⟩
  · refine completes_onDev rfl fun _ => ?_
    rw [mpuSync_of_ready hnone hreqs hbuffered]
    exact ⟨arrGet_arrSet_same [] d.mpu.replaced m.val [], rfl, rfl⟩
  · exact completes_onDev rfl fun _ => mpuSync_of_request hnone h

end Sys2Proof.Machine
end

section
/-! PROOFS. RegionSets: what a write of MPU.CTLm makes of the staging set of master m (R365). -/

set_option Elab.async false

namespace Sys2Proof.Machine

variable {d : Dev} {m : Nat}

/-! ### The first that fits -/

theorem findIdxOf_eq_findIdx? {β : Type} (p : β → Bool) : ∀ l : List β, findIdxOf p l = l.findIdx? p
  | [] => rfl
  | x :: t => by rw [findIdxOf, List.findIdx?_cons, findIdxOf_eq_findIdx? p t]

/-- In a list in order, the element found comes before every other that fits. -/
theorem find?_least {β : Type} {R : β → β → Prop} {p : β → Bool} {l : List β} {x y : β} (hl : l.Pairwise R)
    (hx : l.find? p = some x) (hy : y ∈ l) (hp : p y = true) : y = x ∨ R x y := by
  obtain ⟨-, before, after, rfl, hbefore⟩ := List.find?_eq_some_iff_append.1 hx
  rcases List.mem_append.1 hy with h | h
  · exact absurd hp (by simpa using hbefore y h)
  · rcases List.mem_cons.1 h with h | h
    · exact .inl h
    · exact .inr ((List.pairwise_cons.1 (List.pairwise_append.1 hl).2.1).1 y h)

/-! ### The staging set -/

/-- The staging set of a master. -/
def Dev.stagedSet (d : Dev) (m : Nat) : List MpuRegion := (List.range 16).map (d.staged m)

theorem nth_stagedSet (d : Dev) (m : Nat) {r : Nat} (h : r < 16) : nth {} (d.stagedSet m) r = d.staged m r := by
  simp [nth_eq_getD, Dev.stagedSet, h]

/-- The registers of a staging set lie ahead of MPU.CTL. -/
theorem staged_setFld {f : Fld} {v r : Nat} (hm : m < 31) (hr : r < 16) (hf : 0x042000 ≤ f.addr) :
    (d.setFld f v).staged m r = d.staged m r := by
  have hfld : ∀ g : Fld, g.addr < 0x042000 → (d.setFld f v).fld g = d.fld g := fun g hg =>
    fld_setFld_apart d v (.inl (hg.trans_le hf).ne)
  have hattr : 0x040008 + 0x100 * m + 0x10 * r < 0x042000 := by omega
  simp only [Dev.staged, Dev.on, hfld (MPU_RATTR_EN m r) hattr, hfld (MPU_RATTR_SPACE m r) hattr,
    hfld (MPU_RATTR_U m r) hattr, hfld (MPU_RATTR_W m r) hattr, hfld (MPU_RATTR_R m r) hattr,
    hfld (MPU_RBASE_BASE m r) (by show 0x040000 + 0x100 * m + 0x10 * r < 0x042000; omega),
    hfld (MPU_RLIMIT_LIMIT m r) (by show 0x040004 + 0x100 * m + 0x10 * r < 0x042000; omega)]

theorem stagedSet_setFld {f : Fld} {v : Nat} (hm : m < 31) (hf : 0x042000 ≤ f.addr) :
    (d.setFld f v).stagedSet m = d.stagedSet m :=
  List.map_congr_left fun _ hr => staged_setFld hm (List.mem_range.1 hr) hf

/-! ### Bad regions -/

/-- Region `r` of the staging set is enabled with LIMIT below BASE. -/
def Dev.BadStaged (d : Dev) (m r : Nat) : Prop := r < 16 ∧ (d.staged m r).bad = true

/-- The lowest-numbered bad region. -/
def Dev.firstBad (d : Dev) (m : Nat) : Option Nat := findIdxOf MpuRegion.bad (d.stagedSet m)

theorem firstBad_eq_none : d.firstBad m = none ↔ ∀ r, ¬ d.BadStaged m r := by
  simp [Dev.firstBad, findIdxOf_eq_findIdx?, Dev.stagedSet, Dev.BadStaged]

theorem firstBad_eq_some {r : Nat} (h : d.firstBad m = some r) : d.BadStaged m r ∧ ∀ k, d.BadStaged m k → r ≤ k := by
  rw [Dev.firstBad, findIdxOf_eq_findIdx?, List.findIdx?_eq_some_iff_getElem] at h
  obtain ⟨hlt, hbad, hless⟩ := h
  have hr : r < 16 := by simpa [Dev.stagedSet] using hlt
  refine ⟨⟨hr, by simpa [Dev.stagedSet] using hbad⟩, fun k ⟨_, hk⟩ => ?_⟩
  by_contra hkr
  exact hless k (not_le.1 hkr) (by simpa [Dev.stagedSet] using hk)

/-! ### Overlapping regions -/

/-- Regions `a` and `b` of the staging set, `a` below `b`, are enabled, of one space, and share a line. -/
def Dev.ShareStaged (d : Dev) (m a b : Nat) : Prop :=
  a < b ∧ b < 16 ∧ (d.staged m a).overlaps (d.staged m b) = true

/-- The pairs of regions, by the lower one and then by the upper one. -/
def regionPairs : List (Nat × Nat) :=
  (List.range 16).flatMap (fun a => ((List.range 16).filter (fun b => decide (a < b))).map (fun b => (a, b)))

theorem mem_regionPairs {a b : Nat} : (a, b) ∈ regionPairs ↔ a < b ∧ b < 16 := by
  simp only [regionPairs, List.mem_flatMap, List.mem_map, List.mem_filter, List.mem_range, decide_eq_true_eq, Prod.mk.injEq]
  constructor
  · rintro ⟨_, _, _, ⟨hb, hab⟩, rfl, rfl⟩
    exact ⟨hab, hb⟩
  · rintro ⟨hab, hb⟩
    exact ⟨a, hab.trans hb, b, ⟨hb, hab⟩, rfl, rfl⟩

theorem regionPairs_ordered : regionPairs.Pairwise (fun x y => x.1 < y.1 ∨ (x.1 = y.1 ∧ x.2 < y.2)) := by
  refine List.pairwise_flatMap.2 ⟨fun a _ => ?_, List.pairwise_lt_range.imp fun hab x hx y hy => ?_⟩
  · exact List.pairwise_map.2 ((List.pairwise_lt_range.filter _).imp fun h => .inr ⟨rfl, h⟩)
  · obtain ⟨_, _, rfl⟩ := List.mem_map.1 hx
    obtain ⟨_, _, rfl⟩ := List.mem_map.1 hy
    exact .inl hab

/-- The regions of a pair overlap in the staging set. -/
def Dev.pairOverlaps (d : Dev) (m : Nat) (x : Nat × Nat) : Bool :=
  (nth {} (d.stagedSet m) x.1).overlaps (nth {} (d.stagedSet m) x.2)

theorem pairOverlaps_iff {x : Nat × Nat} (h : x ∈ regionPairs) :
    d.pairOverlaps m x = true ↔ d.ShareStaged m x.1 x.2 := by
  obtain ⟨hlt, h16⟩ := mem_regionPairs.1 h
  rw [Dev.pairOverlaps, nth_stagedSet d m h16, nth_stagedSet d m (hlt.trans h16)]
  exact ⟨fun ho => ⟨hlt, h16, ho⟩, fun ⟨_, _, ho⟩ => ho⟩

theorem pairOverlaps_of_shareStaged {a b : Nat} (h : d.ShareStaged m a b) :
    (a, b) ∈ regionPairs ∧ d.pairOverlaps m (a, b) = true := by
  have hmem : (a, b) ∈ regionPairs := mem_regionPairs.2 ⟨h.1, h.2.1⟩
  exact ⟨hmem, (pairOverlaps_iff hmem).2 h⟩

/-- The lowest-numbered overlapping pair of the staging set. -/
def Dev.firstShare (d : Dev) (m : Nat) : Option (Nat × Nat) := firstOverlap (d.stagedSet m)

theorem firstShare_eq_find? (d : Dev) (m : Nat) : d.firstShare m = regionPairs.find? (d.pairOverlaps m) := rfl

theorem firstShare_eq_none : d.firstShare m = none ↔ ∀ a b, ¬ d.ShareStaged m a b := by
  rw [firstShare_eq_find?, List.find?_eq_none]
  refine ⟨fun h a b hs => ?_, fun h x hx ho => h x.1 x.2 ((pairOverlaps_iff hx).1 ho)⟩
  obtain ⟨hmem, ho⟩ := pairOverlaps_of_shareStaged hs
  exact h (a, b) hmem ho

theorem firstShare_eq_some {x : Nat × Nat} (h : d.firstShare m = some x) : d.ShareStaged m x.1 x.2 ∧
    ∀ a b, d.ShareStaged m a b → x.1 < a ∨ (x.1 = a ∧ x.2 ≤ b) := by
  rw [firstShare_eq_find?] at h
  refine ⟨(pairOverlaps_iff (List.mem_of_find?_eq_some h)).1 (List.find?_some h), fun a b hs => ?_⟩
  obtain ⟨hmem, ho⟩ := pairOverlaps_of_shareStaged hs
  rcases find?_least regionPairs_ordered h hmem ho with rfl | hlt | ⟨heq, hlt⟩
  · exact .inr ⟨rfl, le_rfl⟩
  · exact .inl hlt
  · exact .inr ⟨heq, hlt.le⟩

/-! ### ENABLE -/

/-- NODEF as a write of MPU.CTLm stores it. -/
def Dev.nodefStored (d : Dev) (m w : Nat) : Dev := d.setFld (MPU_CTL_NODEF m) (bitOf w 16)

/-- The staging set of master `m` in force; the requests under the set that it replaces are noted for `by_`. -/
def Dev.stagingApplied (d : Dev) (by_ m : Nat) : Dev :=
  let e := { d with mpu := { d.mpu with
    sets := arrSet {} d.mpu.sets m { regions := d.stagedSet m, nodef := d.on (MPU_CTL_NODEF m) }
    replaced := arrSet [] d.mpu.replaced by_ (arrGet [] d.mpu.replaced by_ ++ d.requestsOf m)
    buffered := arrSet [] d.mpu.buffered by_ (arrGet [] d.mpu.buffered by_ ++ d.bufferedOf m) } }
  e.setFld (MPU_CTL_GEN m) (e.fld (MPU_CTL_GEN m) + 1)

/-- The regions that OVL names: the bad region twice, or else the overlapping pair. -/
def ovlNamed : Option Nat → Option (Nat × Nat) → Nat × Nat
  | some r, _ => (r, r)
  | none, some x => x
  | none, none => (0, 0)

/-- BADREG and OVERLAP as they apply. -/
def Dev.refusalFlagged (d : Dev) (bad : Option Nat) (ov : Option (Nat × Nat)) : Dev :=
  let d := if bad.isSome then d.flag MPU_ISTAT_BADREG else d
  if ov.isSome then d.flag MPU_ISTAT_OVERLAP else d

/-- The staging set of master `m` refused: the flags and OVL. -/
def Dev.stagingRefused (d : Dev) (m : Nat) (bad : Option Nat) (ov : Option (Nat × Nat)) : Dev :=
  (((d.refusalFlagged bad ov).setFld MPU_OVL_MASTER m).setFld MPU_OVL_RA (ovlNamed bad ov).1).setFld MPU_OVL_RB
    (ovlNamed bad ov).2

/-- The staging set of master `m` in force where it is sound, and refused otherwise. -/
def Dev.stagingOutcome (d : Dev) (by_ m : Nat) : Option Nat → Option (Nat × Nat) → Dev
  | none, none => d.stagingApplied by_ m
  | bad, ov => d.stagingRefused m bad ov

section
variable {by_ w : Nat}

theorem enableWrite_locked (h : d.fld MPU_LOCK_LOCK = 1) : enableWrite by_ m w d = d := by
  simp [enableWrite, on_of_one h]

variable (hlock : d.fld MPU_LOCK_LOCK = 0)
include hlock

theorem enableWrite_stored (h : w.testBit 31 = false) : enableWrite by_ m w d = d.nodefStored m w := by
  simp [enableWrite, on_of_zero hlock, h, Dev.nodefStored]

theorem enableWrite_checked (h : w.testBit 31 = true) : enableWrite by_ m w d =
    (d.nodefStored m w).stagingOutcome by_ m ((d.nodefStored m w).firstBad m) ((d.nodefStored m w).firstShare m) := by
  have hstored : d.setFld (MPU_CTL_NODEF m) (bitOf w 16) = d.nodefStored m w := rfl
  have hbad : findIdxOf MpuRegion.bad ((List.range 16).map ((d.nodefStored m w).staged m)) =
    (d.nodefStored m w).firstBad m := rfl
  have hshare : firstOverlap ((List.range 16).map ((d.nodefStored m w).staged m)) =
    (d.nodefStored m w).firstShare m := rfl
  simp only [enableWrite, on_of_zero hlock, h, Bool.not_true, Bool.or_false, Bool.false_eq_true, if_false, hstored, hbad,
    hshare]
  match (d.nodefStored m w).firstBad m, (d.nodefStored m w).firstShare m with
  | some _, _ => rfl
  | none, some _ => rfl
  | none, none => rfl

end

/-! ### What each outcome leaves -/

theorem bitOf_eq (x i : Nat) : bitOf x i = (x.testBit i).toNat := by
  rw [bitOf, Nat.shiftRight_eq_div_pow, Nat.toNat_testBit]

theorem nodefStored_leaves (d : Dev) (m w : Nat) :
    (d.nodefStored m w).fld (MPU_CTL_NODEF m) = bitOf w 16 ∧
    (d.nodefStored m w).on (MPU_CTL_NODEF m) = w.testBit 16 ∧
    (d.nodefStored m w).fld (MPU_CTL_GEN m) = d.fld (MPU_CTL_GEN m) := by
  have hbit : (d.nodefStored m w).fld (MPU_CTL_NODEF m) = bitOf w 16 :=
    (fld_setFld_same d _ (by decide : 16 + 1 ≤ 32)).trans (Nat.mod_mod _ _)
  refine ⟨hbit, ?_, fld_setFld_apart d _ Fld.apart_bits⟩
  rw [Dev.on, hbit, bitOf_eq]
  cases w.testBit 16 <;> rfl

theorem stagingApplied_leaves (d : Dev) (by_ m : Nat) :
    (d.stagingApplied by_ m).mpuSet m = { regions := d.stagedSet m, nodef := d.on (MPU_CTL_NODEF m) } ∧
    (∀ k, k ≠ m → (d.stagingApplied by_ m).mpuSet k = d.mpuSet k) ∧
    (d.stagingApplied by_ m).fld (MPU_CTL_NODEF m) = d.fld (MPU_CTL_NODEF m) ∧
    (d.stagingApplied by_ m).fld (MPU_CTL_GEN m) = (d.fld (MPU_CTL_GEN m) + 1) % 65536 ∧
    d.stagingApplied by_ m = { d with io := (d.stagingApplied by_ m).io, mpu := (d.stagingApplied by_ m).mpu } := by
  have hsets : (d.stagingApplied by_ m).mpu.sets =
    arrSet {} d.mpu.sets m { regions := d.stagedSet m, nodef := d.on (MPU_CTL_NODEF m) } := rfl
  refine ⟨?_, fun k hk => ?_, fld_setFld_apart _ _ Fld.apart_bits, fld_setFld_same _ _ (by decide : 0 + 16 ≤ 32), rfl⟩
  · rw [Dev.mpuSet, hsets, arrGet_arrSet_same]
  · rw [Dev.mpuSet, hsets, arrGet_arrSet_ne _ _ _ hk, Dev.mpuSet]

/-- The flags of a refusal are in ISTAT. -/
theorem refusalFlagged_regs (d : Dev) (bad : Option Nat) (ov : Option (Nat × Nat)) :
    d.Regs (d.refusalFlagged bad ov) [0x042104] := by
  cases bad with
  | none => cases ov with
    | none => exact .refl d _
    | some x => exact (Dev.Regs.refl d _).setFld MPU_ISTAT_OVERLAP 1 (by decide)
  | some r => cases ov with
    | none => exact (Dev.Regs.refl d _).setFld MPU_ISTAT_BADREG 1 (by decide)
    | some x => exact ((Dev.Regs.refl d _).setFld MPU_ISTAT_BADREG 1 (by decide)).setFld MPU_ISTAT_OVERLAP 1 (by decide)

theorem fld_badreg_refusalFlagged (d : Dev) (r : Nat) (ov : Option (Nat × Nat)) :
    (d.refusalFlagged (some r) ov).fld MPU_ISTAT_BADREG = 1 := by
  cases ov with
  | none => exact fld_flag d
  | some x => exact (fld_setFld_apart _ 1 (by decide)).trans (fld_flag d)

theorem fld_overlap_refusalFlagged (d : Dev) (bad : Option Nat) (x : Nat × Nat) :
    (d.refusalFlagged bad (some x)).fld MPU_ISTAT_OVERLAP = 1 := fld_flag _

theorem refusalFlagged_frame (d : Dev) (bad : Option Nat) (ov : Option (Nat × Nat)) :
    d.refusalFlagged bad ov = { d with io := (d.refusalFlagged bad ov).io } := by
  cases bad <;> cases ov <;> rfl

/-- A refusal changes the registers ISTAT and OVL alone. -/
theorem stagingRefused_frame (d : Dev) (m : Nat) (bad : Option Nat) (ov : Option (Nat × Nat)) :
    d.stagingRefused m bad ov = { d with io := (d.stagingRefused m bad ov).io } ∧
    d.Regs (d.stagingRefused m bad ov) [0x042104, 0x04210C] := by
  have hregs := (refusalFlagged_regs d bad ov).mono (m := [0x042104, 0x04210C]) (by decide)
  have hframe := refusalFlagged_frame d bad ov
  rw [Dev.stagingRefused]
  generalize d.refusalFlagged bad ov = e at hregs hframe
  exact ⟨by rw [hframe]; rfl,
    ((hregs.setFld MPU_OVL_MASTER _ (by decide)).setFld MPU_OVL_RA _ (by decide)).setFld MPU_OVL_RB _ (by decide)⟩

/-- OVL names regions of the set. -/
theorem stagingRefused_regions (d : Dev) (m : Nat) {bad : Option Nat} {ov : Option (Nat × Nat)}
    (ha : (ovlNamed bad ov).1 < 16) (hb : (ovlNamed bad ov).2 < 16) :
    (d.stagingRefused m bad ov).fld MPU_OVL_RA = (ovlNamed bad ov).1 ∧
    (d.stagingRefused m bad ov).fld MPU_OVL_RB = (ovlNamed bad ov).2 := by
  simp (disch := decide) only [Dev.stagingRefused, fld_setFld_apart, fld_setFld_same]
  exact ⟨Nat.mod_eq_of_lt ha, Nat.mod_eq_of_lt hb⟩

/-- The flags read as they were set. -/
theorem stagingRefused_istat (d : Dev) (m : Nat) (bad : Option Nat) (ov : Option (Nat × Nat)) {f : Fld}
    (hf : f.addr = 0x042104) : (d.stagingRefused m bad ov).fld f = (d.refusalFlagged bad ov).fld f := by
  have hne : f.addr ≠ 0x04210C := hf.trans_ne (by decide)
  exact ((fld_setFld_apart _ _ (.inl hne)).trans (fld_setFld_apart _ _ (.inl hne))).trans (fld_setFld_apart _ _ (.inl hne))

/-- A refusal leaves the sets in force and MPU.CTL, and OVL names the master. -/
theorem stagingRefused_leaves (d : Dev) (hm : m < 31) (bad : Option Nat) (ov : Option (Nat × Nat)) :
    (d.stagingRefused m bad ov).mpu = d.mpu ∧ (∀ k, (d.stagingRefused m bad ov).mpuSet k = d.mpuSet k) ∧
    (∀ f : Fld, f.addr = 0x042000 + 0x4 * m → (d.stagingRefused m bad ov).fld f = d.fld f) ∧
    (d.stagingRefused m bad ov).fld MPU_OVL_MASTER = m ∧
    d.stagingRefused m bad ov = { d with
      io := (d.stagingRefused m bad ov).io, mpu := (d.stagingRefused m bad ov).mpu } := by
  obtain ⟨hframe, hregs⟩ := stagingRefused_frame d m bad ov
  have hmpu : (d.stagingRefused m bad ov).mpu = d.mpu := by rw [hframe]
  refine ⟨hmpu, fun k => by rw [Dev.mpuSet, hmpu, Dev.mpuSet], fun f hf => hregs.fld f ?_, ?_, by rw [hmpu]; exact hframe⟩
  · rw [List.mem_cons, List.mem_singleton]
    omega
  · simp (disch := decide) only [Dev.stagingRefused, fld_setFld_apart, fld_setFld_same]
    exact Nat.mod_eq_of_lt (hm.trans (by decide))

/-- A bad region is flagged, and the lowest-numbered one named twice. -/
theorem stagingRefused_bad (h : ∃ r, d.BadStaged m r) (ov : Option (Nat × Nat)) :
    let e := d.stagingRefused m (d.firstBad m) ov
    e.fld MPU_ISTAT_BADREG = 1 ∧ d.BadStaged m (e.fld MPU_OVL_RA) ∧ e.fld MPU_OVL_RB = e.fld MPU_OVL_RA ∧
      ∀ r, d.BadStaged m r → e.fld MPU_OVL_RA ≤ r := by
  obtain ⟨r, hr⟩ := Option.ne_none_iff_exists'.1 fun hnone => h.elim (firstBad_eq_none.1 hnone)
  obtain ⟨hbad, hleast⟩ := firstBad_eq_some hr
  rw [hr]
  obtain ⟨ha, hb⟩ := stagingRefused_regions d m (bad := some r) (ov := ov) hbad.1 hbad.1
  intro e
  rw [ha, hb]
  exact ⟨(stagingRefused_istat d m _ _ rfl).trans (fld_badreg_refusalFlagged d r ov), hbad, rfl, hleast⟩

theorem exists_firstShare (h : ∃ a b, d.ShareStaged m a b) : ∃ x, d.firstShare m = some x :=
  Option.ne_none_iff_exists'.1 fun hnone => by
    obtain ⟨a, b, hs⟩ := h
    exact firstShare_eq_none.1 hnone a b hs

/-- An overlap is flagged. -/
theorem stagingRefused_overlap (h : ∃ a b, d.ShareStaged m a b) (bad : Option Nat) :
    (d.stagingRefused m bad (d.firstShare m)).fld MPU_ISTAT_OVERLAP = 1 := by
  obtain ⟨x, hx⟩ := exists_firstShare h
  rw [hx]
  exact (stagingRefused_istat d m _ _ rfl).trans (fld_overlap_refusalFlagged d bad x)

/-- Where no region is bad, the lowest-numbered overlapping pair is named. -/
theorem stagingRefused_share (hsound : ∀ r, ¬ d.BadStaged m r) (h : ∃ a b, d.ShareStaged m a b) :
    let e := d.stagingRefused m (d.firstBad m) (d.firstShare m)
    d.ShareStaged m (e.fld MPU_OVL_RA) (e.fld MPU_OVL_RB) ∧
      ∀ a b, d.ShareStaged m a b → e.fld MPU_OVL_RA < a ∨ (e.fld MPU_OVL_RA = a ∧ e.fld MPU_OVL_RB ≤ b) := by
  obtain ⟨x, hx⟩ := exists_firstShare h
  obtain ⟨hshare, hleast⟩ := firstShare_eq_some hx
  rw [hx, firstBad_eq_none.2 hsound]
  obtain ⟨ha, hb⟩ := stagingRefused_regions d m (bad := none) (ov := some x) (hshare.1.trans hshare.2.1) hshare.2.1
  intro e
  rw [ha, hb]
  exact ⟨hshare, hleast⟩

/-! ### Which outcome a write has -/

theorem stagingOutcome_applied {by_ : Nat} (hbad : ∀ r, ¬ d.BadStaged m r) (hshare : ∀ a b, ¬ d.ShareStaged m a b) :
    d.stagingOutcome by_ m (d.firstBad m) (d.firstShare m) = d.stagingApplied by_ m := by
  rw [firstBad_eq_none.2 hbad, firstShare_eq_none.2 hshare]
  rfl

theorem stagingOutcome_refused {by_ : Nat} (h : (∃ r, d.BadStaged m r) ∨ ∃ a b, d.ShareStaged m a b) :
    d.stagingOutcome by_ m (d.firstBad m) (d.firstShare m) = d.stagingRefused m (d.firstBad m) (d.firstShare m) := by
  match hbad : d.firstBad m, hshare : d.firstShare m with
  | some _, _ => rfl
  | none, some _ => rfl
  | none, none =>
    rcases h with ⟨r, hr⟩ | ⟨a, b, hs⟩
    · exact absurd hr (firstBad_eq_none.1 hbad r)
    · exact absurd hs (firstShare_eq_none.1 hshare a b)

/-! ### Bad and overlapping regions in the words of R365 -/

theorem lines_fst (r : MpuRegion) : r.lines.1 = if r.io then r.base % 2 ^ 18 else r.base := by
  unfold MpuRegion.lines
  split <;> rfl

theorem lines_snd (r : MpuRegion) : r.lines.2 = if r.io then r.limit % 2 ^ 18 else r.limit := by
  unfold MpuRegion.lines
  split <;> rfl

theorem MpuRegion.bad_iff (r : MpuRegion) : r.bad = true ↔ r.en = true ∧ r.lines.2 < r.lines.1 := by
  simp [MpuRegion.bad]

theorem MpuRegion.overlaps_iff (r s : MpuRegion) : r.overlaps s = true ↔ r.en = true ∧ s.en = true ∧ r.io = s.io ∧
    ¬ r.bad = true ∧ ¬ s.bad = true ∧ r.lines.1 ≤ s.lines.2 ∧ s.lines.1 ≤ r.lines.2 := by
  simp [MpuRegion.overlaps, and_assoc]

/-- NODEF is no part of the staging set. -/
theorem staged_nodefStored {w r : Nat} (hm : m < 31) (hr : r < 16) : (d.nodefStored m w).staged m r = d.staged m r :=
  staged_setFld hm hr (Nat.le_add_right _ _)

theorem badStaged_nodefStored {w r : Nat} (hm : m < 31) : (d.nodefStored m w).BadStaged m r ↔ r < 16 ∧
    (d.staged m r).en = true ∧ (d.staged m r).lines.2 < (d.staged m r).lines.1 :=
  and_congr_right fun hr => by rw [staged_nodefStored hm hr, MpuRegion.bad_iff]

theorem shareStaged_nodefStored {w a b : Nat} (hm : m < 31) : (d.nodefStored m w).ShareStaged m a b ↔ a < b ∧ b < 16 ∧
    (d.staged m a).en = true ∧ (d.staged m b).en = true ∧ (d.staged m a).io = (d.staged m b).io ∧
    ¬ (d.nodefStored m w).BadStaged m a ∧ ¬ (d.nodefStored m w).BadStaged m b ∧
    (d.staged m a).lines.1 ≤ (d.staged m b).lines.2 ∧ (d.staged m b).lines.1 ≤ (d.staged m a).lines.2 :=
  and_congr_right fun hab => and_congr_right fun hb => by
    have ha := hab.trans hb
    rw [Dev.BadStaged, Dev.BadStaged, staged_nodefStored hm ha, staged_nodefStored hm hb, MpuRegion.overlaps_iff]
    simp only [ha, hb, true_and]

/-- Settles O22, by the lock, by ENABLE, and by whether the staging set holds a bad region or an overlap. -/
theorem regionSets : Obligations.RegionSets := by
  unfold Obligations.RegionSets
  intro s m w d n lo hi bad share
  have hm : (m : Nat) < 31 := m.isLt
  have hbad : ∀ r, bad r ↔ (d.nodefStored m w.toNat).BadStaged m r := fun r => by
    rw [badStaged_nodefStored hm, lines_fst, lines_snd]
  have hshare : ∀ a b, share a b ↔ (d.nodefStored m w.toNat).ShareStaged m a b := fun a b => by
    rw [shareStaged_nodefStored hm, ← hbad, ← hbad, lines_fst, lines_fst, lines_snd, lines_snd]
  simp only [hbad, hshare]
  refine completes_onDev rfl fun _ => ?_
  obtain ⟨hnodef, hon, hgen⟩ := nodefStored_leaves d m w.toNat
  have hset : (d.nodefStored m w.toNat).stagedSet m = (List.range 16).map n := stagedSet_setFld hm (Nat.le_add_right _ _)
  have hlock : d.fld MPU_LOCK_LOCK = 0 ∨ d.fld MPU_LOCK_LOCK = 1 :=
    Nat.le_one_iff_eq_zero_or_eq_one.1 (Nat.lt_succ_iff.1 (fld_lt d MPU_LOCK_LOCK))
  rcases hlock with hlock | hlock
  · have hnot : d.fld MPU_LOCK_LOCK ≠ 1 := by rw [hlock]; decide
    cases hen : w.toNat.testBit 31 with
    | false =>
      rw [enableWrite_stored hlock hen]
      exact ⟨fun _ _ => rfl, rfl, fun h => absurd h hnot, fun _ =>
        ⟨hnodef, fun _ => ⟨rfl, hgen⟩, fun h => Bool.noConfusion h⟩⟩
    | true =>
      rw [enableWrite_checked hlock hen]
      by_cases hno : (∃ r, (d.nodefStored m w.toNat).BadStaged m r) ∨
        ∃ a b, (d.nodefStored m w.toNat).ShareStaged m a b
      · rw [stagingOutcome_refused hno]
        obtain ⟨hmpu, hsets, hctl, hmaster, hframe⟩ := stagingRefused_leaves (d.nodefStored m w.toNat) hm
          ((d.nodefStored m w.toNat).firstBad m) ((d.nodefStored m w.toNat).firstShare m)
        refine ⟨fun k _ => hsets k, hframe, fun h => absurd h hnot, fun _ =>
          ⟨(hctl (MPU_CTL_NODEF m) rfl).trans hnodef, fun h => Bool.noConfusion h, fun _ => ⟨fun hb hs => ?_, fun _ => ?_⟩⟩⟩
        · exact absurd hno (not_or.2 ⟨not_exists.2 hb, fun ⟨a, b, hab⟩ => hs a b hab⟩)
        · exact ⟨hmpu, (hctl (MPU_CTL_GEN m) rfl).trans hgen, hmaster, fun hb => stagingRefused_bad hb _,
            fun hs => stagingRefused_overlap hs _, fun hb => stagingRefused_share hb (hno.resolve_left (not_exists.2 hb))⟩
      · obtain ⟨hb, hs⟩ := not_or.1 hno
        rw [stagingOutcome_applied (not_exists.1 hb) fun a b hab => hs ⟨a, b, hab⟩]
        obtain ⟨hsame, hothers, hkept, hcounted, hframe⟩ := stagingApplied_leaves (d.nodefStored m w.toNat) m m
        rw [hset, hon] at hsame
        rw [hgen] at hcounted
        exact ⟨hothers, hframe, fun h => absurd h hnot, fun _ => ⟨hkept.trans hnodef, fun h => Bool.noConfusion h,
          fun _ => ⟨fun _ _ => ⟨hsame, hcounted⟩, fun h => absurd h hno⟩⟩⟩
  · rw [enableWrite_locked hlock]
    exact ⟨fun _ _ => rfl, rfl, fun _ => rfl, fun h => absurd (hlock.symm.trans h) one_ne_zero⟩

end Sys2Proof.Machine
end

section
/-! PROOFS. Lifecycle fuses and the anchor of the anti-rollback floor are only ever blown (R485, R500,
`Obligations.LifecycleNeverGoesBack`). Of the functions on the device only a lifecycle transition and the raising of the
anchor touch them; every other one leaves them alone. `Dev.Aged.f` says so of the function `f`, in the order of the
model's files. -/

set_option Elab.async false

namespace Sys2Proof.Machine

/-! ### Aged devices -/

/-- Every lifecycle fuse of `T` is blown in `d` too, and the anchor stands at least as high. -/
structure Dev.Aged (T : TrustSt) (d : Dev) : Prop where
  fuses : ∀ i, arrGet 0 T.lcsFuses i ≠ 0 → arrGet 0 d.trust.lcsFuses i ≠ 0
  anchor : T.arbAnchor ≤ d.trust.arbAnchor

section
variable {T : TrustSt} {d e : Dev}

theorem Dev.Aged.ite {c : Prop} {_ : Decidable c} (hd : d.Aged T) (he : e.Aged T) : (if c then d else e).Aged T := by
  split
  · exact hd
  · exact he

theorem Dev.Aged.iteSnd {α : Type} {c : Prop} {_ : Decidable c} {x y : α × Dev} (hx : x.2.Aged T) (hy : y.2.Aged T) :
    (if c then x else y).2.Aged T := by
  split
  · exact hx
  · exact hy

theorem Dev.Aged.iteThd {α β : Type} {c : Prop} {_ : Decidable c} {x y : α × β × Dev} (hx : x.2.2.Aged T)
    (hy : y.2.2.Aged T) : (if c then x else y).2.2.Aged T := by
  split
  · exact hx
  · exact hy

/-- The device that a pair of values carries. -/
theorem Dev.Aged.of_fst {α : Type} {x : Dev × α} {e : Dev} {a : α} (hx : x = (e, a)) (h : x.1.Aged T) : e.Aged T := by
  subst hx
  exact h

theorem Dev.Aged.of_snd {α : Type} {x : α × Dev} {a : α} (hx : x = (a, e)) (h : x.2.Aged T) : e.Aged T := by
  subst hx
  exact h

theorem Dev.Aged.of_thd {α β : Type} {x : α × β × Dev} {a : α} {b : β} (hx : x = (a, b, e)) (h : x.2.2.Aged T) :
    e.Aged T := by
  subst hx
  exact h

theorem Dev.Aged.foldl {α : Type} {f : Dev → α → Dev} {l : List α} (h : d.Aged T)
    (hf : ∀ e a, e.Aged T → (f e a).Aged T) : (l.foldl f d).Aged T :=
  foldl_keeps (Dev.Aged T) f hf l d h

theorem Dev.Aged.setWord {a w} (h : d.Aged T) : (d.setWord a w).Aged T := ⟨h.fuses, h.anchor⟩
theorem Dev.Aged.setFld {f v} (h : d.Aged T) : (d.setFld f v).Aged T := ⟨h.fuses, h.anchor⟩
theorem Dev.Aged.storeReg {a w} (h : d.Aged T) : (d.storeReg a w).Aged T := by
  rcases storeReg_cases d a w with e | ⟨v, e⟩ <;> rw [e]
  · exact h
  · exact h.setWord
theorem Dev.Aged.setPair {p x} (h : d.Aged T) : (d.setPair p x).Aged T := ⟨h.fuses, h.anchor⟩

theorem Dev.Aged.withTicks {x} (h : d.Aged T) : Dev.Aged T { d with ticks := x } := ⟨h.fuses, h.anchor⟩
theorem Dev.Aged.withFree {x} (h : d.Aged T) : Dev.Aged T { d with free := x } := ⟨h.fuses, h.anchor⟩
theorem Dev.Aged.withIo {x} (h : d.Aged T) : Dev.Aged T { d with io := x } := ⟨h.fuses, h.anchor⟩
theorem Dev.Aged.withBind {x} (h : d.Aged T) : Dev.Aged T { d with bind := x } := ⟨h.fuses, h.anchor⟩
theorem Dev.Aged.withSpareGone {x} (h : d.Aged T) : Dev.Aged T { d with spareGone := x } := ⟨h.fuses, h.anchor⟩
theorem Dev.Aged.withFab {x} (h : d.Aged T) : Dev.Aged T { d with fab := x } := ⟨h.fuses, h.anchor⟩
theorem Dev.Aged.withMpu {x} (h : d.Aged T) : Dev.Aged T { d with mpu := x } := ⟨h.fuses, h.anchor⟩
theorem Dev.Aged.withMem {x} (h : d.Aged T) : Dev.Aged T { d with mem := x } := ⟨h.fuses, h.anchor⟩
theorem Dev.Aged.withEvt {x} (h : d.Aged T) : Dev.Aged T { d with evt := x } := ⟨h.fuses, h.anchor⟩
theorem Dev.Aged.withIntc {x} (h : d.Aged T) : Dev.Aged T { d with intc := x } := ⟨h.fuses, h.anchor⟩
theorem Dev.Aged.withIsland {x} (h : d.Aged T) : Dev.Aged T { d with island := x } := ⟨h.fuses, h.anchor⟩
theorem Dev.Aged.withKeeper {x} (h : d.Aged T) : Dev.Aged T { d with keeper := x } := ⟨h.fuses, h.anchor⟩
theorem Dev.Aged.withPower {x} (h : d.Aged T) : Dev.Aged T { d with power := x } := ⟨h.fuses, h.anchor⟩
theorem Dev.Aged.withLantern {x} (h : d.Aged T) : Dev.Aged T { d with lantern := x } := ⟨h.fuses, h.anchor⟩
theorem Dev.Aged.withDrive {x} (h : d.Aged T) : Dev.Aged T { d with drive := x } := ⟨h.fuses, h.anchor⟩
theorem Dev.Aged.withNvs {x} (h : d.Aged T) : Dev.Aged T { d with nvs := x } := ⟨h.fuses, h.anchor⟩
theorem Dev.Aged.withPersist {x} (h : d.Aged T) : Dev.Aged T { d with persist := x } := ⟨h.fuses, h.anchor⟩
theorem Dev.Aged.withStart {x} (h : d.Aged T) : Dev.Aged T { d with start := x } := ⟨h.fuses, h.anchor⟩
theorem Dev.Aged.withMirror {x} (h : d.Aged T) : Dev.Aged T { d with mirror := x } := ⟨h.fuses, h.anchor⟩
theorem Dev.Aged.withEth {x} (h : d.Aged T) : Dev.Aged T { d with eth := x } := ⟨h.fuses, h.anchor⟩
theorem Dev.Aged.withCan {x} (h : d.Aged T) : Dev.Aged T { d with can := x } := ⟨h.fuses, h.anchor⟩
theorem Dev.Aged.withBuoy {x} (h : d.Aged T) : Dev.Aged T { d with buoy := x } := ⟨h.fuses, h.anchor⟩
/-- An update of the trust block that touches neither. -/
theorem Dev.Aged.withTrust {x : TrustSt} (h : d.Aged T) (hf : x.lcsFuses = d.trust.lcsFuses := by rfl)
    (ha : x.arbAnchor = d.trust.arbAnchor := by rfl) : Dev.Aged T { d with trust := x } :=
  ⟨fun i hi => by simpa only [hf] using h.fuses i hi, by simpa only [ha] using h.anchor⟩
theorem Dev.Aged.withTest {x} (h : d.Aged T) : Dev.Aged T { d with test := x } := ⟨h.fuses, h.anchor⟩
theorem Dev.Aged.withAge {x} (h : d.Aged T) : Dev.Aged T { d with age := x } := ⟨h.fuses, h.anchor⟩
theorem Dev.Aged.withTdr {x} (h : d.Aged T) : Dev.Aged T { d with tdr := x } := ⟨h.fuses, h.anchor⟩
theorem Dev.Aged.withDma {x} (h : d.Aged T) : Dev.Aged T { d with dma := x } := ⟨h.fuses, h.anchor⟩

/-! ### Ops -/

theorem Dev.Aged.flag {f} (h : d.Aged T) : (d.flag f).Aged T := h.setFld

theorem Dev.Aged.setBitOf {f i} (h : d.Aged T) : (d.setBitOf f i).Aged T := h.setFld

theorem Dev.Aged.clearBitOf {f i} (h : d.Aged T) : (d.clearBitOf f i).Aged T := h.setFld

theorem Dev.Aged.count {f} (h : d.Aged T) : (d.count f).Aged T := h.setFld

theorem Dev.Aged.setPair64 {lo hi v} (h : d.Aged T) : (d.setPair64 lo hi v).Aged T := h.setFld.setFld

theorem Dev.Aged.fresh (h : d.Aged T) : d.fresh.2.Aged T := h.withFree

theorem Dev.Aged.present {input detail} (h : d.Aged T) : (d.present input detail).Aged T := h.withIsland

theorem Dev.Aged.produce {e} (h : d.Aged T) : (d.produce e).Aged T := h.withEvt

theorem Dev.Aged.setLatch {c v} (h : d.Aged T) : (d.setLatch c v).Aged T := h.withEvt

theorem Dev.Aged.setPairState {p s} (h : d.Aged T) : (d.setPairState p s).Aged T := h.setFld

theorem Dev.Aged.capture {p c} (h : d.Aged T) : (d.capture p c).Aged T := h.setPair

theorem Dev.Aged.presentPair {p k} (h : d.Aged T) : (d.presentPair p k).Aged T := h.present

theorem Dev.Aged.addEntry {type args body} (h : d.Aged T) : (d.addEntry type args body).Aged T := .ite h h.withNvs

theorem Dev.Aged.sealPage {bad} (h : d.Aged T) : (d.sealPage bad).Aged T := by
  unfold Dev.sealPage
  extract_lets n a run d1
  have h1 : d1.Aged T := .ite h.present.flag h
  exact (Dev.Aged.ite h1.setFld.present.flag h1.setFld).count.withNvs

theorem Dev.Aged.journal {type args body} (h : d.Aged T) : (d.journal type args body).Aged T :=
  .ite h (.ite h.addEntry.sealPage h.addEntry)

theorem Dev.Aged.setGroup {g x} (h : d.Aged T) : (d.setGroup g x).Aged T := h.withDrive

theorem Dev.Aged.forceGroup {g} (h : d.Aged T) : (d.forceGroup g).Aged T := h.setGroup

theorem Dev.Aged.assertForce (h : d.Aged T) : d.assertForce.Aged T := .foldl h.flag fun _ _ h => h.forceGroup

theorem Dev.Aged.forceByMode (h : d.Aged T) : d.forceByMode.Aged T := .ite h.setFld h.assertForce

theorem Dev.Aged.clearCounts (h : d.Aged T) : d.clearCounts.Aged T := .foldl h fun _ _ h => h.setFld

theorem Dev.Aged.freshWindow (h : d.Aged T) : d.freshWindow.Aged T := h.clearCounts.setFld.withKeeper

theorem Dev.Aged.keeperMode {m} (h : d.Aged T) : (d.keeperMode m).Aged T :=
  .ite h (.ite (.ite h.setFld.freshWindow h) h.setFld.withKeeper)

theorem Dev.Aged.enterMode {m trig} (h : d.Aged T) : (d.enterMode m trig).Aged T := by
  unfold Dev.enterMode
  extract_lets old d1 d2 d3 d4 d5
  have h3 : d3.Aged T := (Dev.Aged.ite h.setFld.setFld.setFld h.setFld.setFld).journal.keeperMode
  have h5 : d5.Aged T := .ite h3.forceByMode h3.forceByMode.setFld
  exact .ite h5.withTest (.ite h5.withTest h5)

theorem Dev.Aged.safeStopCause {trig} (h : d.Aged T) : (d.safeStopCause trig).Aged T :=
  .ite h.assertForce.enterMode (.ite h.assertForce h.assertForce.flag)

theorem Dev.Aged.afterPairLost (h : d.Aged T) : d.afterPairLost.Aged T :=
  .ite h.assertForce.enterMode (.ite h.enterMode h)

theorem Dev.Aged.cmdStat {code status} (h : d.Aged T) : (d.cmdStat code status).Aged T := h.setFld.setFld.setFld

theorem Dev.Aged.refuse {code prot} (h : d.Aged T) : (d.refuse code prot).Aged T := by
  unfold Dev.refuse
  extract_lets d1
  have h1 : d1.Aged T := h.count.setFld.setFld
  exact .ite h1.journal h1

/-! ### Intc -/

theorem Dev.Aged.setIntc {n x} (h : d.Aged T) : (d.setIntc n x).Aged T := h.withIntc

theorem Dev.Aged.edge {n s} (h : d.Aged T) : (d.edge n s).Aged T := .ite h.setBitOf h.setIntc

theorem Dev.Aged.clearEdge {n s} (h : d.Aged T) : (d.clearEdge n s).Aged T := h.setIntc

theorem Dev.Aged.acknowledge {n set} (h : d.Aged T) : (d.acknowledge n set).Aged T := .foldl h fun _ _ h => h.clearEdge

theorem Dev.Aged.sourceEdge {n s} (h : d.Aged T) : (Machine.sourceEdge n s d).Aged T := .ite h.edge h.setIntc

theorem Dev.Aged.presentIrq {n} (h : d.Aged T) : (Machine.presentIrq n d).Aged T := h.setIntc.capture

theorem Dev.Aged.swset {n set} (h : d.Aged T) : (Machine.swset n set d).Aged T := .foldl h fun _ _ h => h.edge

/-! ### Events -/

theorem Dev.Aged.consequence {prod cons trig stamp} (h : d.Aged T) : (d.consequence prod cons trig stamp).Aged T :=
  h.produce

theorem Dev.Aged.setWaits {c n} (h : d.Aged T) : (d.setWaits c n).Aged T := h.withEvt

theorem Dev.Aged.sendWait {c stamp} (h : d.Aged T) : (d.sendWait c stamp).Aged T := h.capture

theorem Dev.Aged.emitted {n t merged} (h : d.Aged T) : (d.emitted n t merged).Aged T :=
  .foldl (Dev.Aged.ite h.count.flag h).count.setBitOf.setFld.setFld fun _ _ h => h.edge

theorem Dev.Aged.emission {n} (h : d.Aged T) : (Machine.emission n d).Aged T := by
  unfold Machine.emission
  extract_lets ready loops evs out due _ d1 d2
  have h2 : d2.Aged T := .foldl h.withEvt fun _ _ h => h.emitted
  exact .ite h2 h2.withEvt

theorem Dev.Aged.deliver {x} (h : d.Aged T) : (d.deliver x).Aged T := by
  unfold Dev.deliver
  extract_lets c d1
  have h1 : d1.Aged T := .ite h.flag.flag.count h
  exact .ite h1.setWaits.sendWait (.ite h1.setLatch h1.flag.flag.count)

theorem Dev.Aged.delivery (h : d.Aged T) : (Machine.delivery d).Aged T := by
  unfold Machine.delivery
  split
  · exact h
  · exact .foldl h.withEvt fun _ _ h => h.deliver

theorem Dev.Aged.waitArrival (h : d.Aged T) : (Machine.waitArrival d).Aged T := by
  unfold Machine.waitArrival
  split
  · exact h
  · extract_lets
    split
    · exact h.withEvt.setLatch.sendWait
    · exact h.withEvt.setWaits

theorem Dev.Aged.dropLoop (h : d.Aged T) : (Machine.dropLoop d).Aged T := by
  unfold Machine.dropLoop
  split
  · exact h
  · exact .ite h.withEvt.flag.present h.withEvt.flag.present.flag.setFld.setFld

theorem Dev.Aged.cenWrite {c hi v} (h : d.Aged T) : (Machine.cenWrite c hi v d).Aged T := .ite h (.ite h.flag h.setFld)

theorem Dev.Aged.watchTake {c} (h : d.Aged T) : (Machine.watchTake c d).Aged T := .ite h.setLatch h

/-! ### Memory -/

theorem Dev.Aged.bucketUp {inst} (h : d.Aged T) : (d.bucketUp inst).Aged T :=
  .ite h.setFld (.ite h.setFld h.setFld.setBitOf.flag.present)

theorem Dev.Aged.correctable {inst} (h : d.Aged T) : (d.correctable inst).Aged T := .ite h.count h.count.bucketUp

theorem Dev.Aged.recordUe {master inst addr scrub} (h : d.Aged T) : (d.recordUe master inst addr scrub).Aged T :=
  .ite h h.flag.setFld.setFld.setFld.setFld

theorem Dev.Aged.uncorrectable {master inst addr scrub} (h : d.Aged T) :
    (d.uncorrectable master inst addr scrub).Aged T := by
  unfold Dev.uncorrectable
  extract_lets d1 d2
  have h2 : d2.Aged T := .ite h.count.flag h.count.flag
  exact .ite h2.recordUe h2.recordUe.present

theorem Dev.Aged.queueWriteBack {inst word} (h : d.Aged T) : (d.queueWriteBack inst word).Aged T := .ite h h.withMem

theorem Dev.Aged.noteRead {master inst word addr r scrub} (h : d.Aged T) :
    (d.noteRead master inst word addr r scrub).Aged T := by
  unfold Dev.noteRead
  extract_lets d1
  have h1 : d1.Aged T := .ite h.flag.setFld.setFld.setFld h
  exact .ite (.uncorrectable (.ite h1.correctable h1)) (.ite (.ite h1.correctable h1.correctable.queueWriteBack) h1)

theorem Dev.Aged.bankRead {master inst word} (h : d.Aged T) : (d.bankRead master inst word).2.2.Aged T :=
  h.withMem.noteRead

theorem Dev.Aged.bankWrite {inst word v} (h : d.Aged T) : (d.bankWrite inst word v).Aged T := h.withMem

theorem Dev.Aged.bankStore {master inst word al data mask} (h : d.Aged T) :
    (d.bankStore master inst word al data mask).2.Aged T :=
  .iteSnd h.bankWrite (.iteSnd h.bankRead h.bankRead.bankWrite)

theorem Dev.Aged.romRead {master word} (h : d.Aged T) : (d.romRead master word).2.2.Aged T :=
  .iteThd h (.ite h.uncorrectable h.correctable)

theorem Dev.Aged.targetRead {master t} (h : d.Aged T) : (d.targetRead master t).2.2.Aged T := by
  unfold Dev.targetRead
  split
  · exact .iteThd h.bankRead h.bankRead
  · exact .iteThd h.romRead h.romRead
  · exact .iteThd h h
  · exact h
  · exact h

theorem Dev.Aged.targetWrite {master t data mask} (h : d.Aged T) : (d.targetWrite master t data mask).2.Aged T := by
  unfold Dev.targetWrite
  split
  · exact h.bankStore
  · exact h

theorem Dev.Aged.setLocalRam {inst m} (h : d.Aged T) : (d.setLocalRam inst m).Aged T := h.setPair

theorem Dev.Aged.setInstRam {inst m} (h : d.Aged T) : (d.setInstRam inst m).Aged T := .ite h.withMem h.setLocalRam

theorem Dev.Aged.writeBack {inst word} (h : d.Aged T) : (Machine.writeBack inst word d).Aged T :=
  .ite (.ite h.withMem h.withMem.setInstRam) h

theorem Dev.Aged.scrub (h : d.Aged T) : (Machine.scrub d).Aged T := by
  unfold Machine.scrub
  split
  · split
    · exact h
    · exact h.withMem.setInstRam.noteRead
  · exact h

theorem Dev.Aged.leak (h : d.Aged T) : (Machine.leak d).Aged T :=
  .ite (.foldl h.withMem fun _ _ h => .ite h h.setFld) h

theorem Dev.Aged.etctlWrite {w} (h : d.Aged T) : (Machine.etctlWrite w d).Aged T := h.setFld.setFld

/-! ### Mpu -/

theorem Dev.Aged.denied {m a why req} (h : d.Aged T) : (d.denied m a why req).Aged T := h.withFab

theorem Dev.Aged.recordDenial {x} (h : d.Aged T) : (d.recordDenial x).Aged T :=
  (Dev.Aged.ite h.count h.count.setFld.setFld.setFld.setFld.setFld.setFld).flag.present

theorem Dev.Aged.enableWrite {by_ m w} (h : d.Aged T) : (Machine.enableWrite by_ m w d).Aged T := by
  unfold Machine.enableWrite
  extract_lets locked d1 rs bad ov
  clear_value bad ov
  have h1 : d1.Aged T := .ite h h.setFld
  have h2 : (Dev.Aged T) (if ov.isSome then (if bad.isSome then d1.flag MPU_ISTAT_BADREG else d1).flag MPU_ISTAT_OVERLAP
      else if bad.isSome then d1.flag MPU_ISTAT_BADREG else d1) := .ite (.flag (.ite h1.flag h1)) (.ite h1.flag h1)
  split
  · exact h1
  · split
    · exact h1.withMpu.setFld
    · exact h2.setFld.setFld.setFld

theorem Dev.Aged.syncDone {x} (h : d.Aged T) : (d.syncDone x).Aged T := h.withMpu

/-! ### Fabric -/

/-- The function is unfolded while it stands alone: against the applied one, the kernel would try to evaluate the
  mirror's
address and count out its factor 0x50000. So also below. -/
theorem Dev.Aged.mirrorWord {lp off v} (h : d.Aged T) : (d.mirrorWord lp off v).Aged T := by
  generalize hf : Dev.mirrorWord = f
  delta Dev.mirrorWord at hf
  subst hf
  beta_reduce
  split
  · exact h.bankWrite
  · exact h

theorem Dev.Aged.mirrorWords {lp} : ∀ {l : List DWord} {d : Dev} {off}, d.Aged T → (d.mirrorWords lp off l).Aged T
  | [], _, _, h => h
  | _ :: _, _, _, h => h.mirrorWord.mirrorWords

theorem Dev.Aged.answer {lp imm mark tag slot value code addr lock fill} (h : d.Aged T) :
    (d.answer lp imm mark tag slot value code addr lock fill).Aged T := by
  unfold Dev.answer
  extract_lets p d1
  have h1 : d1.Aged T := by
    unfold d1
    split
    · exact .ite h h.mirrorWords
    · exact h
  exact .ite h1.capture (.ite h1 (.ite h1.setPair.capture h1.setPair))

theorem Dev.Aged.respond {r value code} (h : d.Aged T) : (d.respond r value code).Aged T :=
  .ite h.setPair (.ite h.answer h.answer)

theorem Dev.Aged.dropLock {lp} (h : d.Aged T) : (d.dropLock lp).Aged T := h.withFab

theorem Dev.Aged.respondError {r code} (h : d.Aged T) : (d.respondError r code).Aged T := .respond (.ite h.dropLock h)

theorem Dev.Aged.clearBroken {lp} (h : d.Aged T) : (d.clearBroken lp).Aged T := h.withFab

theorem Dev.Aged.refuseReq {r} (h : d.Aged T) : (d.refuseReq r).Aged T :=
  .ite h.clearBroken.respondError h.respondError

theorem Dev.Aged.enqueue {r} (h : d.Aged T) : (d.enqueue r).Aged T := h.withFab

theorem Dev.Aged.sendReq {p r} (h : d.Aged T) : (d.sendReq p r).Aged T := by
  unfold Dev.sendReq
  extract_lets
  split
  · exact h.withFab.denied
  · exact .ite (.ite h.withFab.respondError h.withFab.enqueue)
      (.ite h.withFab.answer (.ite h.withFab.refuseReq
      (.ite (.ite h.withFab.refuseReq h.withFab.enqueue) h.withFab.enqueue)))

theorem Dev.Aged.leaveQueue {pt r} (h : d.Aged T) : (d.leaveQueue pt r).Aged T := (Dev.Aged.ite h.setFld h).withFab

theorem Dev.Aged.passPoint {pt r} (h : d.Aged T) : (d.passPoint pt r).Aged T := by
  unfold Dev.passPoint
  split
  · exact .ite h.refuseReq h.enqueue
  · exact h.withFab

theorem Dev.Aged.grant {pt} (h : d.Aged T) : (Machine.grant pt d).Aged T := by
  unfold Machine.grant
  split
  · exact h
  · split
    · exact h
    · exact h.leaveQueue.passPoint

theorem Dev.Aged.urgent {id} (h : d.Aged T) : (Machine.urgent id d).Aged T := by
  unfold Machine.urgent
  split
  · exact h
  · exact .ite h.withFab.count.flag h

theorem Dev.Aged.breakLock {l} (h : d.Aged T) : (d.breakLock l).Aged T :=
  h.dropLock.withFab.flag.count.setFld.setFld.setFld.present

theorem Dev.Aged.recoveryBreak {lp} (h : d.Aged T) : (d.recoveryBreak lp).Aged T := by
  unfold Dev.recoveryBreak
  split
  · exact h.breakLock
  · exact h

theorem Dev.Aged.lockBreak {inst} (h : d.Aged T) : (Machine.lockBreak inst d).Aged T := by
  unfold Machine.lockBreak
  split
  · exact .ite h.breakLock h
  · exact h

theorem Dev.Aged.deny (h : d.Aged T) : (Machine.deny d).Aged T := by
  unfold Machine.deny
  split
  · exact h
  · extract_lets
    split
    · exact h.withFab.recordDenial.respondError
    · exact h.withFab.recordDenial

/-! ### Engine -/

theorem Dev.Aged.waits {w} (h : d.Aged T) : (d.waits w).Aged T := .ite h h.withFab

theorem Dev.Aged.onHold {h'} (h : d.Aged T) : (d.onHold h').Aged T := by
  unfold Dev.onHold
  split
  · exact h.waits
  · exact h

/-- What an engine's command leaves has only aged, unless its access waits. -/
def AgedOrHeld (T : TrustSt) : Except Hold Dev → Prop
  | .ok e => e.Aged T
  | .error _ => True

theorem AgedOrHeld.ite {c : Prop} {_ : Decidable c} {x y : Except Hold Dev} (hx : AgedOrHeld T x) (hy : AgedOrHeld T y) :
    AgedOrHeld T (if c then x else y) := by
  split
  · exact hx
  · exact hy

theorem AgedOrHeld.of_ok {x : Except Hold Dev} {e : Dev} (hx : x = .ok e) (h : AgedOrHeld T x) : e.Aged T := by
  subst hx
  exact h

theorem Dev.Aged.orWait {x} (h : d.Aged T) (hx : AgedOrHeld T x) : (d.orWait x).Aged T := by
  unfold Dev.orWait
  split
  · exact hx
  · exact h.onHold

theorem Dev.Aged.served {m a} (h : d.Aged T) : (d.served m a).Aged T :=
  (Dev.Aged.foldl h fun _ _ h => h.leaveQueue).withFab

theorem Dev.Aged.takeFailure {m a} (h : d.Aged T) : (d.takeFailure m a).Aged T := h.withFab

theorem Dev.Aged.lostWrite {r} (h : d.Aged T) : (d.lostWrite r).Aged T := .ite h.withFab.enqueue h.withFab.withFab

theorem Dev.Aged.engineRead {m addr n} (h : d.Aged T) : (d.engineRead m addr n).2.2.Aged T := h.targetRead

theorem Dev.Aged.engineWrite {m addr n v} (h : d.Aged T) : (d.engineWrite m addr n v).2.Aged T := h.targetWrite

theorem Dev.Aged.readPieces {m} : ∀ {l : List (Nat × Nat)} {d : Dev}, d.Aged T → (d.readPieces m l).2.2.Aged T
  | [], _, h => h
  | (a, n) :: t, d, h => by
    rw [Dev.readPieces]
    split
    next v code d1 hr =>
      have h1 : d1.Aged T := .of_thd hr h.engineRead
      exact .iteThd h1 h1.readPieces

theorem Dev.Aged.writePieces {m} : ∀ {l : List (Nat × Nat)} {d : Dev} {bytes}, d.Aged T →
    (d.writePieces m bytes l).2.Aged T
  | [], _, _, h => h
  | _ :: _, _, _, h => .iteSnd h.engineWrite h.engineWrite.writePieces

theorem Dev.Aged.busRead {m a n} (h : d.Aged T) : (d.busRead m a n).2.2.Aged T := by
  unfold Dev.busRead
  split
  · exact h
  · split
    · exact h.denied
    · exact h.takeFailure
    · exact h
    · exact .iteThd h.served.readPieces h.served.readPieces

theorem Dev.Aged.busWrite {m a bytes} (h : d.Aged T) : (d.busWrite m a bytes).2.Aged T := by
  unfold Dev.busWrite
  extract_lets
  split
  · exact h
  · split
    · exact h.denied
    · exact h.takeFailure
    · exact h
    · exact .iteSnd h.served.writePieces h.served.writePieces

theorem Dev.Aged.readBursts {m} : ∀ {l : List (Nat × Nat)} {d : Dev}, d.Aged T → (d.readBursts m l).2.2.Aged T
  | [], _, h => h
  | (a, n) :: t, d, h => by
    rw [Dev.readBursts]
    split
    next b e d1 hb =>
      have h1 : d1.Aged T := .of_thd hb h.busRead
      split
      · exact h1.readBursts
      · exact h1

theorem Dev.Aged.writeBursts {m} : ∀ {l : List (Nat × Nat)} {d : Dev} {bytes}, d.Aged T →
    (d.writeBursts m bytes l).2.Aged T
  | [], _, _, h => h
  | (a, n) :: t, d, bytes, h => by
    rw [Dev.writeBursts]
    split
    next e d1 hb =>
      have h1 : d1.Aged T := .of_snd hb h.busWrite
      split
      · exact h1.writeBursts
      · exact h1

theorem Dev.Aged.engineLoad {m a n} (h : d.Aged T) : (d.engineLoad m a n).2.2.Aged T := by
  unfold Dev.engineLoad
  split
  · exact h
  · exact h.readBursts

theorem Dev.Aged.engineStore {m a bytes} (h : d.Aged T) : (d.engineStore m a bytes).2.Aged T := by
  unfold Dev.engineStore
  split
  · exact h
  · exact h.writeBursts

/-! ### Keeper -/

theorem Dev.Aged.expireWith {cause} (h : d.Aged T) : (d.expireWith cause).Aged T := .ite h h.withKeeper

theorem Dev.Aged.keeperFault {k} (h : d.Aged T) : (d.keeperFault k).Aged T := .ite h.expireWith h.present

theorem Dev.Aged.keeperEnable {w} (h : d.Aged T) : (Machine.keeperEnable w d).Aged T :=
  .ite h h.setFld.setFld.setFld.setFld.setFld.setFld.withKeeper.setFld.keeperMode

theorem Dev.Aged.judgeService {m v} (h : d.Aged T) : (Machine.judgeService m v d).Aged T :=
  .ite h (.ite (.ite h h.flag) (.ite (.ite h h.flag.keeperFault)
    (.ite h.setFld (.ite h.setFld.flag.keeperFault (.ite h.setFld
    (.ite h.setFld.flag.keeperFault h.setFld.flag.setPair64))))))

theorem Dev.Aged.countCheckIn {lp t} (h : d.Aged T) : (Machine.countCheckIn lp t d).Aged T :=
  .ite h (.ite h.flag (.ite h.flag.present h.count.flag.setFld.setFld))

theorem Dev.Aged.windowClose (h : d.Aged T) : (Machine.windowClose d).Aged T := by
  unfold Machine.windowClose
  extract_lets len d1
  have h1 : d1.Aged T := .ite h h.expireWith
  split
  · exact .ite (.ite h1.setPair64.setPair64 (.ite h1.setPair64.setPair64.flag.expireWith
      h1.setPair64.setPair64.flag.present))
      (.withKeeper (.freshWindow (.ite h1.setPair64.setPair64
        (.ite h1.setPair64.setPair64.flag.expireWith h1.setPair64.setPair64.flag.present))))
  · exact h

theorem Dev.Aged.closeDue (h : d.Aged T) : d.closeDue.Aged T := h.windowClose.windowClose

theorem Dev.Aged.service {m v} (h : d.Aged T) : (Machine.service m v d).Aged T := h.closeDue.judgeService

theorem Dev.Aged.keeperCheck {lp t} (h : d.Aged T) : (Machine.keeperCheck lp t d).Aged T := h.closeDue.countCheckIn

theorem Dev.Aged.resetReaction {trig} (h : d.Aged T) : (d.resetReaction trig).Aged T := by
  unfold Dev.resetReaction
  extract_lets d1
  have h1 : d1.Aged T := h.safeStopCause.flag
  exact (Dev.Aged.ite h1 h1.sealPage).withIsland

theorem Dev.Aged.raiseTrap {p} (h : d.Aged T) : (d.raiseTrap p).Aged T := .ite h.capture h

theorem Dev.Aged.keeperExpiry (h : d.Aged T) : (Machine.keeperExpiry d).Aged T := by
  unfold Machine.keeperExpiry
  split
  · exact h
  · exact .foldl (Dev.Aged.foldl h.withKeeper.setFld.setPair64.setFld.flag.setFld fun _ _ h =>
      h.setFld).present.assertForce fun _ _ h => h.raiseTrap

theorem Dev.Aged.hardTimerEnd (h : d.Aged T) : (Machine.hardTimerEnd d).Aged T := by
  unfold Machine.hardTimerEnd
  split
  · exact h
  · exact .ite h.withKeeper.resetReaction h

theorem Dev.Aged.trapRpc {p rpc} (h : d.Aged T) : (d.trapRpc p rpc).Aged T := h.setFld.setFld.flag

theorem Dev.Aged.evstatClear (h : d.Aged T) : (Machine.evstatClear d).Aged T := .foldl h.setFld fun _ _ h => h.setFld

theorem Dev.Aged.keeperFreeze {lp} (h : d.Aged T) : (d.keeperFreeze lp).Aged T := .ite h.setFld.withKeeper h

theorem Dev.Aged.keeperThaw (h : d.Aged T) : d.keeperThaw.Aged T :=
  .ite h.count.setFld.flag.setFld.freshWindow.journal h

/-! ### Pair -/

theorem Dev.Aged.noteOcc {p} (h : d.Aged T) : (d.noteOcc p).Aged T := by
  have up : ∀ {e : Dev} {f v}, e.Aged T → (Dev.Aged T) (if e.fld f < v then e.setFld f (min 255 v) else e) :=
    fun he => .ite he.setFld he
  exact up (up (up h))

theorem Dev.Aged.haltPair {p cause} (h : d.Aged T) : (d.haltPair p cause).Aged T :=
  h.setPair.setFld.setFld.setFld.setFld.setBitOf.flag.keeperFreeze

theorem Dev.Aged.settleHalt {p} (h : d.Aged T) : (d.settleHalt p).Aged T := .ite h (.ite h.setFld (.ite h.haltPair h))

theorem Dev.Aged.releasePair {p} (h : d.Aged T) : (d.releasePair p).Aged T :=
  h.setPair.setFld.setFld.clearBitOf.keeperThaw

theorem Dev.Aged.askHalt {p cause} (h : d.Aged T) : (d.askHalt p cause).Aged T := h.setPair

theorem Dev.Aged.setDetector {p k x} (h : d.Aged T) : (d.setDetector p k x).Aged T := h.withLantern

theorem Dev.Aged.armDetector {p k} (h : d.Aged T) : (d.armDetector p k).Aged T := h.setDetector

theorem Dev.Aged.disarmDetector {p k} (h : d.Aged T) : (d.disarmDetector p k).Aged T := h.setDetector

theorem Dev.Aged.emitArm {p k tb angle down} (h : d.Aged T) : (d.emitArm p k tb angle down).Aged T := by
  unfold Dev.emitArm
  extract_lets
  split
  · exact h.setPair.disarmDetector
  · exact h.armDetector

theorem Dev.Aged.emitWait {p c} (h : d.Aged T) : (d.emitWait p c).Aged T := by
  unfold Dev.emitWait
  extract_lets
  split
  · exact h.setPair
  · exact h.withEvt

theorem Dev.Aged.emitImmediate {p r send} (h : d.Aged T) (hs : ∀ e : Dev, e.Aged T → (send e).Aged T) :
    (d.emitImmediate p r send).Aged T := by
  unfold Dev.emitImmediate
  extract_lets x y z
  split
  · split
    · exact h.setPair
    · exact h.setPair
  · exact hs _ h.setPair

theorem Dev.Aged.emitSig {p n slot} (h : d.Aged T) : (d.emitSig p n slot).Aged T := by
  unfold Dev.emitSig
  extract_lets
  split
  · exact h.setPair
  · exact h.setPair.produce

theorem Dev.Aged.emit {p o} (h : d.Aged T) : (d.emit p o).Aged T := by
  unfold Dev.emit
  extract_lets
  split
  · exact .ite (h.emitImmediate fun _ h => h.sendReq) h.sendReq
  · exact h.emitImmediate fun _ h => h.answer
  · exact h.emitArm
  · exact h.disarmDetector
  · exact h.emitWait
  · exact h.emitSig
  · exact h.denied
  · exact h.presentPair
  · exact h.flag.presentPair
  · exact h.flag.presentPair
  · exact h.trapRpc

theorem Dev.Aged.noteLocal {p shadow n} (h : d.Aged T) : (d.noteLocal p shadow n).Aged T := by
  unfold Dev.noteLocal
  extract_lets inst m split d1
  have h1 : d1.Aged T := .ite h.setLocalRam h
  exact .ite (.count (.ite h1.correctable h1)) (.ite h1.correctable h1.correctable.queueWriteBack)

theorem Dev.Aged.noteBoth {p a b} (h : d.Aged T) : (d.noteBoth p a b).Aged T :=
  .foldl (.foldl h fun _ _ h => h.noteLocal) fun _ _ h => h.noteLocal

/-! ### Frame -/

theorem Dev.Aged.setSlot {lp b x} (h : d.Aged T) : (d.setSlot lp b x).Aged T := h.withMirror

theorem Dev.Aged.writeHeader {lp b x} (h : d.Aged T) : (d.writeHeader lp b x).Aged T := h.mirrorWords.setSlot

theorem Dev.Aged.writeSlot {lp b x} (h : d.Aged T) : (d.writeSlot lp b x).Aged T :=
  h.mirrorWords.mirrorWords.writeHeader

theorem Dev.Aged.mirrorRead {lp off} (h : d.Aged T) : (d.mirrorRead lp off).2.2.Aged T := by
  generalize hx : d.mirrorRead lp off = x
  generalize hf : Dev.mirrorRead = f at hx
  delta Dev.mirrorRead at hf
  subst hf
  beta_reduce at hx
  split at hx
  · exact hx ▸ h.bankRead
  · exact hx ▸ h

theorem Dev.Aged.mirrorReads {lp} : ∀ {n} {d : Dev} {off}, d.Aged T → (d.mirrorReads lp off n).2.2.Aged T
  | 0, _, _, h => h
  | _ + 1, _, _, h => .iteThd h.mirrorRead h.mirrorRead.mirrorReads

theorem Dev.Aged.applyDelta {lp} : ∀ {l : List (Nat × DWord)} {d : Dev}, d.Aged T → (d.applyDelta lp l).Aged T
  | [], _, h => h
  | _ :: _, _, h => h.mirrorWord.applyDelta

/-! ### Recovery -/

theorem Dev.Aged.restoreGate {p k} (h : d.Aged T) : (d.restoreGate p k).Aged T := .ite h.emitArm h.setDetector

theorem Dev.Aged.restoreWait {p w} (h : d.Aged T) : (d.restoreWait p w).Aged T := by
  unfold Dev.restoreWait
  extract_lets
  split
  · exact h.setPair
  · exact h

theorem Dev.Aged.restoreW {p i} (h : d.Aged T) : (d.restoreW p i).Aged T := h.setWaits

theorem Dev.Aged.settleRestored {p} (h : d.Aged T) : (d.settleRestored p).Aged T :=
  .foldl (Dev.Aged.foldl (Dev.Aged.foldl h.withEvt fun _ _ h => h.restoreW) fun _ _ h => h.restoreWait) fun _ _ h =>
    h.restoreGate

theorem Dev.Aged.haltAgain {p} (h : d.Aged T) : (d.haltAgain p).Aged T := .ite h.haltPair h

theorem Dev.Aged.rewriteBundle {p i} (h : d.Aged T) : (d.rewriteBundle p i).Aged T := by
  generalize hf : Dev.rewriteBundle = f
  delta Dev.rewriteBundle at hf
  subst hf
  beta_reduce
  split
  next ws bad d1 hr =>
    have h1 : d1.Aged T := .of_thd hr h.mirrorReads
    exact .ite h1 h1.setPair

theorem Dev.Aged.restart {p fix} (h : d.Aged T) : (d.restart p fix).Aged T := by
  unfold Dev.restart
  extract_lets _ _ d1 d2
  have h2 : d2.Aged T := by
    unfold d2
    split
    · exact h.setPair.rewriteBundle
    · exact h.setPair
  exact h2.settleRestored.haltAgain

theorem Dev.Aged.takeSpare {q} (h : d.Aged T) : (d.takeSpare q).Aged T := h.withSpareGone

theorem Dev.Aged.designate {p w} (h : d.Aged T) : (Machine.designate p w d).Aged T :=
  .ite h (.ite h.flag (Dev.Aged.ite h.setFld.setFld.flag h.setFld.setFld).withSpareGone.capture)

theorem Dev.Aged.noteSlow (h : d.Aged T) : d.noteSlow.Aged T := .foldl h fun _ _ h => .ite h.flag h

theorem Dev.Aged.checkShort {lp} (h : d.Aged T) : (d.checkShort lp).Aged T := .ite h.setBitOf.flag.present h

theorem Dev.Aged.toFence {p retire} (h : d.Aged T) : (d.toFence p retire).Aged T := h.setPair

theorem Dev.Aged.stopPair {p} (h : d.Aged T) : (d.stopPair p).Aged T := h.toFence.flag.presentPair

theorem Dev.Aged.migrate {p q retire} (h : d.Aged T) : (d.migrate p q retire).Aged T := by
  generalize hf : Dev.migrate = f
  delta Dev.migrate at hf
  subst hf
  beta_reduce
  extract_lets lp own d1 b s
  have h1 : d1.Aged T := h.withBind.setFld.setPairState
  clear_value d1
  split
  next imem bad1 d2 e1 =>
    have h2 : d2.Aged T := .of_thd e1 h1.mirrorReads
    split
    next dmem bad2 d3 e2 =>
      have h3 : d3.Aged T := .of_thd e2 (.iteThd h2 h2.mirrorReads)
      split
      next frame bad3 d4 e3 =>
        have h4 : d4.Aged T := .of_thd e3 (.iteThd h3 h3.mirrorReads)
        split
        next got bad4 d5 e4 =>
          have h5 : d5.Aged T := .of_thd e4 (.iteThd h4 h4.mirrorReads)
          split
          · exact h5.withBind.setFld.setPairState.setPair.stopPair
          · refine .haltAgain (.settleRestored (.checkShort (.setFld (.presentPair (.setFld (.count
              (.flag (.flag (.setPair (.toFence ?_))))))))))
            exact .ite h5.setPair.takeSpare h5.setPair.takeSpare.applyDelta.writeHeader

theorem Dev.Aged.mismatch {p kind lg fix} (h : d.Aged T) : (d.mismatch p kind lg fix).Aged T := by
  unfold Dev.mismatch
  split
  · exact h
  · extract_lets
    split
    · exact h.flag.setFld.setFld.setFld.recoveryBreak.restart
    · split
      · exact h.flag.setFld.setFld.setFld.recoveryBreak.migrate
      · exact h.flag.setFld.setFld.setFld.recoveryBreak.stopPair

theorem Dev.Aged.fenceReaction {p retire} (h : d.Aged T) : (d.fenceReaction p retire).Aged T := by
  unfold Dev.fenceReaction
  extract_lets
  split
  · exact h
  · split
    · exact h.recoveryBreak.migrate
    · exact h.recoveryBreak.toFence

theorem Dev.Aged.shutPorts {p} (h : d.Aged T) : (d.shutPorts p).Aged T := h.withFab

theorem Dev.Aged.fencePair {p} (h : d.Aged T) : (Machine.fencePair p d).Aged T :=
  .ite (Dev.Aged.foldl h.setPairState.setPair.shutPorts fun _ _ h => h.setDetector).withPersist.journal.afterPairLost
    h

/-! ### Issue -/

theorem Dev.Aged.pairCycle {p a b f} (h : d.Aged T) : (d.pairCycle p a b f).Aged T := by
  unfold Dev.pairCycle
  extract_lets _ _ d1
  have h1 : d1.Aged T := h.setPair.noteBoth
  split
  · exact h1.mismatch
  · exact .noteOcc (.foldl h1 fun _ _ h => h.emit)

theorem Dev.Aged.diverged {p} (h : d.Aged T) : (d.diverged p).Aged T := h.mismatch

theorem Dev.Aged.stepped {p} (h : d.Aged T) : (d.stepped p).Aged T :=
  .ite (.ite h.setPair.askHalt.settleHalt h.setPair) h

theorem Dev.Aged.unreadableBoth {p} (h : d.Aged T) : (d.unreadableBoth p).Aged T := h.noteBoth.setPair.presentPair

theorem Dev.Aged.issueBundle {p b} (h : d.Aged T) : (d.issueBundle p b).Aged T := by
  unfold Dev.issueBundle
  extract_lets x lp env i imm hit a s d1 d2
  have h2 : d2.Aged T := by
    unfold d2
    cases hit with
    | none => exact h.pairCycle
    | some k => exact h.pairCycle.askHalt
  exact h2.stepped.settleHalt

theorem Dev.Aged.bundleIssue {p} (h : d.Aged T) : (Machine.bundleIssue p d).Aged T := by
  unfold Machine.bundleIssue
  split
  · exact h
  · extract_lets
    split
    · exact h.diverged
    · split
      · exact h.askHalt.settleHalt
      · exact h.issueBundle
    · exact h.unreadableBoth
    · exact h

theorem Dev.Aged.presentInput {p c} (h : d.Aged T) : (d.presentInput p c).Aged T := by
  unfold Dev.presentInput
  extract_lets
  split
  · exact h.setPair
  · exact h.setPair
  · exact h.setPair
  · exact .ite h.setPair h.setPair
  · exact h.setPair.settleHalt
  · exact h.setPair.releasePair
  · exact h.setPair.releasePair.setPair.flag
  · exact h.setPair
  · exact h.setPair
  · exact h.setPair
  · exact h.setPair
  · exact h.setPair

theorem Dev.Aged.presentFirst {p} : ∀ {n} {d : Dev}, d.Aged T → (d.presentFirst p n).Aged T
  | 0, _, h => h
  | n + 1, d, h => by
    rw [Dev.presentFirst]
    split
    · exact .ite h.presentInput.noteOcc.presentFirst h
    · exact h

theorem Dev.Aged.captureNext {p} (h : d.Aged T) : (d.captureNext p).Aged T := h.presentFirst

theorem Dev.Aged.captureInput {p parityErr} (h : d.Aged T) : (Machine.captureInput p parityErr d).Aged T :=
  .ite (.ite h h.flag.presentPair.mismatch) h.captureNext

theorem Dev.Aged.tagCompletion {p t} (h : d.Aged T) : (Machine.tagCompletion p t d).Aged T := by
  unfold Machine.tagCompletion
  split
  · exact h
  · extract_lets _ _ d1
    have h1 : d1.Aged T := by
      unfold d1
      split
      · exact h.presentFirst
      · split
        · exact .ite h.setPair h.mismatch
        · exact h.mismatch
        · exact h.mismatch
        · split
          · exact h.setPair
          · exact h.mismatch
          · exact h.mismatch
          · exact h
    exact h1.noteOcc.settleHalt

theorem Dev.Aged.arrive {p} : ∀ {l : List (Fin 5)} {d : Dev} {e n}, d.Aged T → (d.arrive p e n l).1.Aged T
  | [], _, _, _, h => h
  | _ :: _, _, _, _, h => h.captureNext.arrive

theorem Dev.Aged.enterBoth {p f cycles} (h : d.Aged T) : (d.enterBoth p f cycles).Aged T := h.pairCycle.settleHalt

theorem Dev.Aged.interruptEntry {p arrivals} (h : d.Aged T) : (Machine.interruptEntry p arrivals d).Aged T := by
  unfold Machine.interruptEntry
  split
  · exact h
  · split
    · exact h.diverged
    · split
      · next ha => exact (Dev.Aged.of_fst ha h.arrive).enterBoth
      · next ha => exact (Dev.Aged.of_fst ha h.arrive).enterBoth
    · exact h

theorem Dev.Aged.precise {p enter displaced arrivals} (h : d.Aged T) :
    (d.precise p enter displaced arrivals).Aged T := by
  unfold Dev.precise
  split
  · next ha => exact (Dev.Aged.of_fst ha h.arrive).enterBoth
  · next ha => exact (Dev.Aged.of_fst ha h.arrive).enterBoth.stepped

theorem Dev.Aged.preciseEntry {p arrivals} (h : d.Aged T) : (Machine.preciseEntry p arrivals d).Aged T := by
  unfold Machine.preciseEntry
  split
  · exact h
  · extract_lets new
    split
    · exact h.diverged
    · exact h.precise
    · exact h.precise
    · exact h.precise
    · exact h.precise
    · exact h

theorem Dev.Aged.impreciseEntry {p arrivals} (h : d.Aged T) : (Machine.impreciseEntry p arrivals d).Aged T := by
  unfold Machine.impreciseEntry
  split
  · exact h
  · split
    · exact h.diverged
    · split
      · next ha => exact (Dev.Aged.of_fst ha h.arrive).enterBoth
      · next ha => exact (Dev.Aged.of_fst ha h.arrive).enterBoth
    · exact h

theorem Dev.Aged.expiryEntry {p} (h : d.Aged T) : (Machine.expiryEntry p d).Aged T := by
  unfold Machine.expiryEntry
  split
  · exact h
  · split
    · exact h.diverged
    · exact h.enterBoth
    · exact h

theorem Dev.Aged.returnRestore {p} (h : d.Aged T) : (Machine.returnRestore p d).Aged T := .ite h.setPair.settleHalt h

theorem Dev.Aged.isafeStarve {p} (h : d.Aged T) : (Machine.isafeStarve p d).Aged T := .ite h.setPair.flag.presentPair h

/-! ### Checkpoint -/

theorem Dev.Aged.checkpointDue {p} (h : d.Aged T) : (Machine.checkpointDue p d).Aged T := .ite h.setPair h

theorem Dev.Aged.overran {p} (h : d.Aged T) : (d.overran p).Aged T := .ite h h.setPair.flag.presentPair

theorem Dev.Aged.dropSlice {o} (h : d.Aged T) : (d.dropSlice o).Aged T := h.setPair.withTest

theorem Dev.Aged.dropLateSlice {p} (h : d.Aged T) : (d.dropLateSlice p).Aged T := by
  unfold Dev.dropLateSlice
  split
  · exact .ite h.dropSlice h
  · exact h

theorem Dev.Aged.checkpointK0 {p} (h : d.Aged T) : (Machine.checkpointK0 p d).Aged T := by
  unfold Machine.checkpointK0
  split
  · extract_lets d1 _ d2 d3
    have h3 : d3.Aged T := .ite h.dropLateSlice.setPair.overran h.dropLateSlice.setPair
    exact .ite h3.mismatch h3.setPair
  · exact h

theorem Dev.Aged.segOverrun {p} (h : d.Aged T) : (Machine.segOverrun p d).Aged T := .ite h.overran h

theorem Dev.Aged.selfTest {p lgFail} (h : d.Aged T) : (d.selfTest p lgFail).Aged T :=
  .ite h.setFld.setFld h.setFld.setFld.flag.presentPair

theorem Dev.Aged.holdSelfTest {p lgFail} (h : d.Aged T) : (d.holdSelfTest p lgFail).Aged T :=
  .ite h.setPair.withTest.selfTest h

theorem Dev.Aged.sliceFailed {p slice} (h : d.Aged T) : (d.sliceFailed p slice).Aged T := h.setFld.flag.present

theorem Dev.Aged.holdSlice {p fail} (h : d.Aged T) : (d.holdSlice p fail).Aged T := by
  unfold Dev.holdSlice
  extract_lets
  split
  · exact h
  · exact .ite h.setPair.sliceFailed h.setPair.withTest

theorem Dev.Aged.holdStep {p} (h : d.Aged T) : (d.holdStep p).Aged T := .ite h h.setPair

theorem Dev.Aged.retrySucceeded {p} (h : d.Aged T) : (d.retrySucceeded p).Aged T := .ite h.flag.count.presentPair h

theorem Dev.Aged.checkpointCommit {p h'} (h : d.Aged T) : (Machine.checkpointCommit p h' d).Aged T := by
  unfold Machine.checkpointCommit
  extract_lets
  split
  · split
    · exact h.mismatch
    · exact h.writeSlot.retrySucceeded.setPair.setFld.holdSelfTest.holdSlice.holdStep.noteOcc.settleHalt
  · exact h

theorem Dev.Aged.deltaApplied {p} (h : d.Aged T) : (Machine.deltaApplied p d).Aged T :=
  .ite (.ite h.setPair.mirrorReads h.setPair.mirrorReads.applyDelta.writeHeader) h

theorem Dev.Aged.clearLatch {c} (h : d.Aged T) : (d.clearLatch c).Aged T := h.setLatch

theorem Dev.Aged.releaseHead {p e} (h : d.Aged T) : (d.releaseHead p e).Aged T := by
  unfold Dev.releaseHead
  extract_lets lp done
  split
  · exact h.produce.setPair
  · exact h.clearLatch.setPair
  · exact h.keeperCheck.setPair
  · exact h.acknowledge.setPair
  · exact .ite h h.setPair.sendReq
  · exact .ite h h.setPair.sendReq

theorem Dev.Aged.releaseNext {p q} (h : d.Aged T) : (d.releaseNext p q).Aged T := by
  unfold Dev.releaseNext
  extract_lets
  split
  · exact h
  · split
    · exact h.setPair.mismatch
    · split
      · exact h.setPair
      · exact .ite h.releaseHead h

theorem Dev.Aged.release {p} (h : d.Aged T) : (Machine.release p d).Aged T := h.releaseNext

theorem Dev.Aged.checkIn {p} (h : d.Aged T) : (Machine.checkIn p d).Aged T := h.releaseNext

theorem Dev.Aged.entryFailure {p} (h : d.Aged T) : (Machine.entryFailure p d).Aged T := by
  unfold Machine.entryFailure
  extract_lets
  split
  · exact h
  · exact .ite h.setPair.count h.setPair.setFld.setFld.setFld.flag

theorem Dev.Aged.cmptestStart {p} (h : d.Aged T) : (Machine.cmptestStart p d).Aged T := h.setPair.setFld

theorem Dev.Aged.spareFirst {q} (h : d.Aged T) : (Machine.spareFirst q d).Aged T := by
  unfold Machine.spareFirst
  split
  · exact h
  · exact .ite h h.setPair.setPairState.bundleIssue

/-! ### Reset -/

theorem Dev.Aged.fencePending {p} (h : d.Aged T) : (d.fencePending p).Aged T :=
  .ite h.setPairState.withPersist.journal h

theorem Dev.Aged.resetRegisters (h : d.Aged T) : d.resetRegisters.Aged T := .setFld (.ite h.withIo.setFld h.withIo)

theorem Dev.Aged.deviceReset {trig} (h : d.Aged T) : (d.deviceReset trig).Aged T := by
  unfold Dev.deviceReset
  extract_lets d1 d2 d3
  have h1 : d1.Aged T := .foldl h fun _ _ h => h.fencePending
  have h3 : d3.Aged T := .ite h1.resetRegisters.flag h1.resetRegisters
  clear_value d3
  exact ⟨h3.fuses, h3.anchor⟩

theorem Dev.Aged.keptReset {input detail trig} (h : d.Aged T) : (d.keptReset input detail trig).Aged T :=
  h.assertForce.deviceReset.withIsland

/-! ### Island -/

theorem Dev.Aged.setOldest (h : d.Aged T) : d.setOldest.Aged T := h.setFld

theorem Dev.Aged.newRecord {n detail k code cls} (h : d.Aged T) : (d.newRecord n detail k code cls).Aged T := by
  unfold Dev.newRecord
  extract_lets e d1 d2 d3 d4 u d5
  have h3 : d3.Aged T := h.setFld.setFld.setFld.setFld.setFld.setFld.setPair64
  have h5 : d5.Aged T := .ite h3.setFld.setFld.setFld h3.setFld.setFld.count.flag
  exact .ite h5.setOldest.journal h5.setOldest

theorem Dev.Aged.record {n detail k code} (h : d.Aged T) : (d.record n detail k code).Aged T := by
  unfold Dev.record
  extract_lets cls _ d1 d2 e d3
  have h1 : d1.Aged T := .ite h.withIsland h
  have h3 : d3.Aged T := .ite h1.setFld.setFld h1.setFld.newRecord
  exact .ite h3.setBitOf h3

theorem Dev.Aged.safeStopReaction (h : d.Aged T) : d.safeStopReaction.Aged T := h.safeStopCause

theorem Dev.Aged.pairReaction {n p code} (h : d.Aged T) : (d.pairReaction n p code).Aged T :=
  .ite h.mismatch (.ite h.fenceReaction h)

theorem Dev.Aged.react {n detail code} (h : d.Aged T) : (d.react n detail code).Aged T := by
  unfold Dev.react
  extract_lets d1
  have h1 : d1.Aged T := by
    unfold d1
    split
    · exact h.pairReaction
    · exact h
  exact .ite h1.resetReaction (.ite h1.safeStopReaction h1)

theorem Dev.Aged.processFault (h : d.Aged T) : (Machine.processFault d).Aged T := by
  unfold Machine.processFault
  split
  · exact h
  · exact .ite h.withIsland.record h.withIsland.record.react

theorem Dev.Aged.dropLane {lane} (h : d.Aged T) : (Machine.dropLane lane d).Aged T := .ite h.clearBitOf.present h

theorem Dev.Aged.resyncLanes (h : d.Aged T) : (Machine.resyncLanes d).Aged T := h.setFld

theorem Dev.Aged.lanesDiffer (h : d.Aged T) : (Machine.lanesDiffer d).Aged T := h.keptReset

theorem Dev.Aged.hourlyCounts (h : d.Aged T) : (Machine.hourlyCounts d).Aged T :=
  .ite (.ite h.withIsland h.withIsland.journal) h

theorem Dev.Aged.logAck {n} (h : d.Aged T) : (Machine.logAck n d).Aged T := h.setFld.setOldest

theorem Dev.Aged.clearFaultCounts (h : d.Aged T) : (Machine.clearFaultCounts d).Aged T :=
  .foldl h fun _ _ h => h.setFld

theorem Dev.Aged.reactWrite {i v} (h : d.Aged T) : (Machine.reactWrite i v d).Aged T := .ite h.flag (.ite h h.setFld)

/-! ### Power -/

theorem Dev.Aged.noteLowin (h : d.Aged T) : d.noteLowin.Aged T := .ite (.ite h h.flag.count) h.setFld

theorem Dev.Aged.setPort {b v} (h : d.Aged T) : (d.setPort b v).Aged T := .ite h.withPower.noteLowin h.withPower

theorem Dev.Aged.setPorts {va vb} (h : d.Aged T) : (d.setPorts va vb).Aged T := .ite h.withPower.noteLowin h.withPower

theorem Dev.Aged.portLoss {b v} (h : d.Aged T) : (Machine.portLoss b v d).Aged T :=
  .ite h.setPort.flag.present h.setPort

theorem Dev.Aged.pfail {hold} (h : d.Aged T) : (Machine.pfail hold d).Aged T := by
  unfold Machine.pfail
  split
  · exact h
  · extract_lets d1 _ d2 d3 d4
    have h4 : d4.Aged T := (Dev.Aged.ite h h.setPorts).withPower.flag.flag.present.produce.journal
    exact ⟨h4.fuses, h4.anchor⟩

theorem Dev.Aged.settlePowerFail {detail} (h : d.Aged T) : (d.settlePowerFail detail).Aged T := h.withIsland

theorem Dev.Aged.pfailLine {hold} (h : d.Aged T) : (Machine.pfailLine hold d).Aged T :=
  .ite (.ite h h.setPorts) h.pfail

theorem Dev.Aged.rideEnd (h : d.Aged T) : (Machine.rideEnd d).Aged T := by
  unfold Machine.rideEnd
  split
  · exact h
  · exact .ite h (.ite h.withPower.setFld.count.flag.settlePowerFail h.flag.settlePowerFail.safeStopCause)

theorem Dev.Aged.stopPairs (h : d.Aged T) : d.stopPairs.Aged T := ⟨h.fuses, h.anchor⟩

theorem Dev.Aged.sealDone (h : d.Aged T) : (Machine.sealDone d).Aged T :=
  .ite ((Dev.Aged.ite h h.sealPage).withPower.stopPairs) h

theorem Dev.Aged.inputReturn (h : d.Aged T) : (Machine.inputReturn d).Aged T :=
  .ite (.deviceReset (.ite h h.sealPage)) h

theorem Dev.Aged.converterStop (h : d.Aged T) : (Machine.converterStop d).Aged T :=
  h.setPorts.withPower.stopPairs.assertForce

/-- A device switched on keeps its fuses. -/
theorem Dev.Aged.switchedOn (h : d.Aged T) : d.switchedOn.Aged T := by
  unfold Dev.switchedOn
  extract_lets p up va vb good _ _ e
  have he : e.Aged T := ⟨h.fuses, h.anchor⟩
  exact .ite he.flag he

theorem Dev.Aged.powerOn (h : d.Aged T) : (Machine.powerOn d).Aged T := .ite h h.switchedOn

theorem Dev.Aged.temperature {base dies} (h : d.Aged T) : (Machine.temperature base dies d).Aged T := by
  unfold Machine.temperature
  split
  · exact h
  · extract_lets _ d1 _ d2 hi d3 d4
    have h2 : d2.Aged T := .ite h.withPower.flag h.withPower
    have h4 : d4.Aged T := .foldl (Dev.Aged.ite h2 h2.flag) fun _ _ h => h.present
    split
    · exact h.withPower.withPower
    · split
      · exact h4
      · exact h4.record.keptReset.withPower

theorem Dev.Aged.supplyOverload {v5} (h : d.Aged T) : (Machine.supplyOverload v5 d).Aged T := h.flag.withPower

theorem Dev.Aged.setSstop {i x} (h : d.Aged T) : (d.setSstop i x).Aged T :=
  .ite h (.ite h.withIsland.withIsland h.withIsland.withIsland)

theorem Dev.Aged.sstop {i x} (h : d.Aged T) : (Machine.sstop i x d).Aged T :=
  .ite h.setSstop.present.safeStopCause h.setSstop

theorem Dev.Aged.sstopDiscrep (h : d.Aged T) : (Machine.sstopDiscrep d).Aged T := .ite h.withIsland.present h

theorem Dev.Aged.clockLoss {c} (h : d.Aged T) : (Machine.clockLoss c d).Aged T := by
  unfold Machine.clockLoss
  split
  · exact h.withIsland.present
  · exact h.present
  · exact h.present
  · exact h.present

/-! ### Lifecycle -/

/-- Blowing fuses leaves those that are blown. -/
theorem TrustSt.blowTo_fuses (t : TrustSt) (s : Nat) {i : Nat} (h : arrGet 0 t.lcsFuses i ≠ 0) :
    arrGet 0 (t.blowTo s).lcsFuses i ≠ 0 :=
  foldl_keeps (fun f : List (Nat × Nat) => arrGet 0 f i ≠ 0) _ (fun f k hf => by
    rw [arrGet_arrSet]
    split
    · decide
    · exact hf) _ _ h

theorem Dev.Aged.blown {s} (h : d.Aged T) : Dev.Aged T { d with trust := d.trust.blowTo s } :=
  ⟨fun i hi => d.trust.blowTo_fuses s (h.fuses i hi), h.anchor⟩


theorem Dev.Aged.endGrant (h : d.Aged T) : d.endGrant.Aged T := by
  unfold Dev.endGrant
  split
  · exact h
  · exact h.withTrust.flag.journal

theorem Dev.Aged.lifecycleEffects {s} (h : d.Aged T) : (d.lifecycleEffects s).Aged T := by
  unfold Dev.lifecycleEffects
  extract_lets _ d1
  have h1 : d1.Aged T := .ite h.withPersist.endGrant h
  exact .ite h1.withTrust h1

theorem Dev.Aged.lifecycleTo {s} (h : d.Aged T) : (d.lifecycleTo s).Aged T :=
  h.withPersist.journal.blown.lifecycleEffects.endGrant.withPersist.journal

theorem Dev.Aged.checkSlot {b} (h : d.Aged T) : (d.checkSlot b).2.Aged T := .ite h.present h

/-- The anchor is only ever raised. -/
theorem Dev.Aged.blowAnchor (h : d.Aged T) : d.blowAnchor.Aged T := by
  unfold Dev.blowAnchor
  extract_lets k
  split
  · next hk => exact .journal ⟨h.fuses, h.anchor.trans (Nat.le_of_lt hk)⟩
  · exact h

theorem Dev.Aged.raiseArb {svn} (h : d.Aged T) : (d.raiseArb svn).Aged T :=
  .ite h.withPersist.journal.flag.blowAnchor h

/-! ### Modes -/

theorem Dev.Aged.showSlots (h : d.Aged T) : d.showSlots.Aged T := h.setFld.setFld.setFld.setFld.setFld

theorem Dev.Aged.setActive {b} (h : d.Aged T) : (d.setActive b).Aged T := h.withPersist.journal.showSlots

theorem Dev.Aged.failStart {b cause} (h : d.Aged T) : (d.failStart b cause).Aged T :=
  h.withPersist.journal.journal.showSlots

theorem Dev.Aged.confirmStart (h : d.Aged T) : d.confirmStart.Aged T :=
  .ite h h.withPersist.flag.journal.setActive.raiseArb

theorem Dev.Aged.confirmExpiry (h : d.Aged T) : (Machine.confirmExpiry d).Aged T := by
  unfold Machine.confirmExpiry
  split
  · exact h
  · exact .ite h h.failStart.deviceReset

theorem Dev.Aged.haltAll (h : d.Aged T) : d.haltAll.Aged T := .foldl h fun _ _ h => .ite h.capture h

theorem Dev.Aged.enterStandby (h : d.Aged T) : d.enterStandby.Aged T := by
  unfold Dev.enterStandby
  extract_lets d1
  have h1 : d1.Aged T := h.assertForce.enterMode
  exact .ite h1.withStart.flag.haltAll h1.withStart.withStart

theorem Dev.Aged.unfence {p} (h : d.Aged T) : (d.unfence p).Aged T := h.setPairState.withPersist.journal

theorem Dev.Aged.command {code arg} (h : d.Aged T) : (d.command code arg).Aged T :=
  .ite h.confirmStart.enterMode (.ite h.assertForce.enterMode
    (.ite h.enterStandby (.ite h.confirmStart.enterMode
    (.ite h.enterMode (.ite h.setActive.deviceReset (.ite h.unfence h.deviceReset))))))

theorem Dev.Aged.judge {code arg} (h : d.Aged T) : (d.judge code arg).2.Aged T :=
  .iteSnd h.refuse.cmdStat (.iteSnd h.cmdStat h.cmdStat.command)

theorem Dev.Aged.carryOut {src code arg} (h : d.Aged T) : (d.carryOut src code arg).Aged T := by
  unfold Dev.carryOut
  split
  · exact .ite h.cmdStat (.ite h.cmdStat h.judge)
  · exact .ite h.cmdStat (.ite h.count h.judge)

theorem Dev.Aged.issueCommand {src code arg} (h : d.Aged T) : (d.issueCommand src code arg).Aged T :=
  .ite h.withStart h.carryOut

theorem Dev.Aged.carryWaiting : ∀ {l : List (CmdSrc × Nat × Nat)} {d : Dev}, d.Aged T → (Dev.carryWaiting l d).Aged T
  | [], _, h => h
  | _ :: _, _, h => .ite h h.carryOut.carryWaiting

theorem Dev.Aged.standbyComplete (h : d.Aged T) : (Machine.standbyComplete d).Aged T := by
  unfold Machine.standbyComplete
  split
  · exact h
  · exact .ite h ((Dev.Aged.ite h h.sealPage).withStart.stopPairs.carryWaiting)

theorem Dev.Aged.wakeUp {w} (h : d.Aged T) : (Machine.wakeUp w d).Aged T := .ite h.setFld.deviceReset h

theorem Dev.Aged.canWake {k} (h : d.Aged T) : (Machine.canWake k d).Aged T := .ite h.flag.wakeUp h

/-! ### Boot -/

theorem Dev.Aged.formatJournal (h : d.Aged T) : d.formatJournal.Aged T := .ite h.withNvs h

theorem Dev.Aged.restoreRetained (h : d.Aged T) : d.restoreRetained.Aged T :=
  (Dev.Aged.foldl h.setFld.setWord fun _ _ h => (Dev.Aged.ite h.setPairState h).setPair.setFld).showSlots

theorem Dev.Aged.journalPast (h : d.Aged T) : d.journalPast.Aged T := by
  unfold Dev.journalPast
  extract_lets d1 d2 d3 _ d4
  have h2 : d2.Aged T := by
    unfold d2
    split
    · exact h.journal.failStart
    · exact h.journal
  have h3 : d3.Aged T := .ite h2.journal.flag h2
  have h4 : d4.Aged T := by
    unfold d4
    split
    · exact h3.withIsland.journal
    · exact h3
  exact .ite h4.withTrust.journal h4

theorem Dev.Aged.trustStart (h : d.Aged T) : d.trustStart.Aged T := by
  unfold Dev.trustStart
  extract_lets d2
  have h2 : d2.Aged T := by
    unfold d2
    split
    · exact h.blown.lifecycleEffects.withPersist.journal
    · exact h
  exact h2.lifecycleEffects.blowAnchor.withTrust

theorem Dev.Aged.nextEpoch (h : d.Aged T) : d.nextEpoch.Aged T := h.withPersist.journal

theorem Dev.Aged.stepsToS3 (h : d.Aged T) : d.stepsToS3.Aged T := by
  unfold Dev.stepsToS3
  extract_lets _ _ d1
  have h1 : d1.Aged T := ⟨h.fuses, h.anchor⟩
  exact h1.formatJournal.restoreRetained.journalPast.trustStart.nextEpoch

theorem Dev.Aged.retire {p} (h : d.Aged T) : (d.retire p).Aged T := h.setPairState.withPersist.journal

theorem Dev.Aged.setStep {p s} (h : d.Aged T) : (d.setStep p s).Aged T := h.setFld.withPersist.journal

theorem Dev.Aged.planAtStart {steps p} (h : d.Aged T) : (d.planAtStart steps p).Aged T := by
  unfold Dev.planAtStart
  split
  · exact h
  · split
    · exact h
    · split
      · exact h.retire
      · exact (Dev.Aged.ite h h.setStep).setPair

theorem Dev.Aged.plan {steps} (h : d.Aged T) : (d.plan steps).Aged T :=
  .foldl (Dev.Aged.noteSlow (.foldl h fun _ _ h => h.planAtStart)) fun _ _ h => h.checkShort

theorem Dev.Aged.tryUnfenced {fails p} (h : d.Aged T) : (d.tryUnfenced fails p).Aged T :=
  .ite h (.ite h.withPersist.setPairState.sliceFailed.withPersist.journal h.withPersist)

theorem Dev.Aged.loadPair {p lp st entry im dm lgFail} (h : d.Aged T) :
    (d.loadPair p lp st entry im dm lgFail).Aged T :=
  h.setPair.setPairState.withBind.setFld.mirrorWords.mirrorWords.writeSlot.selfTest

theorem Dev.Aged.loadFrom {o e p st cmpFails} (h : d.Aged T) : (d.loadFrom o e p st cmpFails).Aged T := h.loadPair

theorem Dev.Aged.unloadPairs (h : d.Aged T) : d.unloadPairs.Aged T := .foldl h fun _ _ h => .ite h h.setPairState

theorem Dev.Aged.loadSlot {o env e} (h : d.Aged T) (he : d.loadSlot o env = some e) : e.Aged T := by
  unfold Dev.loadSlot at he
  extract_lets d1 d2 role acts skipped spares cover d3 d4 d5 at he
  have h1 : d1.Aged T := .foldl h fun _ _ h => h.tryUnfenced
  split at he
  · cases he
  · have h3 : d3.Aged T := .foldl h1.unloadPairs fun _ _ h => h.loadFrom
    have h4 : d4.Aged T := .foldl h3 fun _ _ h => h.loadFrom
    have h5 : d5.Aged T := .foldl h4 fun _ _ h => h.loadFrom
    clear_value d5
    rw [← Option.some.inj he]
    exact h5.setFld

theorem Dev.Aged.enterFog {env code} (h : d.Aged T) : (d.enterFog env code).Aged T := by
  unfold Dev.enterFog
  extract_lets d1 d2 d3
  have h2 : d2.Aged T := .foldl h.setFld.unloadPairs fun _ _ h => h.tryUnfenced
  have h3 : d3.Aged T := by
    unfold d3
    split
    · exact h2.loadPair
    · exact h2
  exact h3.enterMode.withStart

theorem Dev.Aged.started {b} (h : d.Aged T) : (d.started b).Aged T := h.setFld.withStart

theorem Dev.Aged.attempts {env} : ∀ {k last} {d : Dev}, d.Aged T → (Dev.attempts env k last d).Aged T
  | 0, _, _, h => h.enterFog
  | k + 1, last, d, h => by
    rw [Dev.attempts]
    split
    · exact h.enterFog
    · extract_lets _ d0
      split
      next cause d1 hc =>
        have h1 : d1.Aged T := .of_snd hc (Dev.Aged.checkSlot (.journal h.withPersist))
        refine .ite h1.failStart.attempts ?_
        extract_lets d2
        split
        · exact h1.plan.failStart.attempts
        · next hl => exact (h1.plan.loadSlot hl).started

theorem Dev.Aged.startUp {env} (h : d.Aged T) : (d.startUp env).Aged T :=
  .ite (.enterFog ⟨h.fuses, h.anchor⟩) (.ite h.stepsToS3.enterFog h.stepsToS3.attempts)

theorem Dev.Aged.resetAndStart {env} (h : d.Aged T) : (Machine.resetAndStart env d).Aged T := by
  unfold Machine.resetAndStart
  extract_lets d1
  have h1 : d1.Aged T := .ite h.deviceReset (.ite h h.deviceReset)
  exact .ite h1 h1.startUp.withLantern

/-! ### Lantern -/

theorem Dev.Aged.setTb {t x} (h : d.Aged T) : (d.setTb t x).Aged T := h.withLantern

theorem Dev.Aged.carriersJump {t} (h : d.Aged T) : (d.carriersJump t).Aged T := .foldl h fun _ _ h => .ite h.flag h

theorem Dev.Aged.jumped {t} (h : d.Aged T) : (d.jumped t).Aged T := h.setBitOf.carriersJump.present

theorem Dev.Aged.stepTb {t x from_ tgt row} (h : d.Aged T) : (d.stepTb t x from_ tgt row).Aged T := by
  unfold Dev.stepTb
  split
  · exact h.setTb.jumped
  · exact h.setTb
  · exact h.setTb

theorem Dev.Aged.takeSample {t s} (h : d.Aged T) : (d.takeSample t s).Aged T := by
  unfold Dev.takeSample
  extract_lets
  split
  · exact h.setTb
  · exact .ite h.setTb h.stepTb

theorem Dev.Aged.timebaseSample {t det} (h : d.Aged T) : (Machine.timebaseSample t det d).Aged T := by
  unfold Machine.timebaseSample
  extract_lets
  split
  · exact h
  · split
    · exact h
    · extract_lets d1
      have h1 : d1.Aged T := .ite h.setTb h
      exact .ite h1.setTb h1.takeSample

theorem Dev.Aged.offerSample {src sel s} (h : d.Aged T) : (d.offerSample src sel s).Aged T :=
  .foldl h fun _ _ h => .ite h.setTb h

theorem Dev.Aged.offerConversion {ch code time} (h : d.Aged T) : (d.offerConversion ch code time).Aged T :=
  .foldl h fun _ _ h => .ite h.setTb h

theorem Dev.Aged.lineSample {t hi} (h : d.Aged T) : (Machine.lineSample t hi d).Aged T := .ite h.setTb h

theorem Dev.Aged.adjWrite {t v} (h : d.Aged T) : (Machine.adjWrite t v d).Aged T := .ite h.setTb h

theorem Dev.Aged.holdResume {t} (h : d.Aged T) : (Machine.holdResume t d).Aged T := by
  unfold Machine.holdResume
  extract_lets
  split
  · exact h
  · exact .ite h.setTb h

theorem Dev.Aged.restartTb {t} (h : d.Aged T) : (d.restartTb t).Aged T := h.setTb

theorem Dev.Aged.timebaseWrite {t w} (h : d.Aged T) : (Machine.timebaseWrite t w d).Aged T := by
  unfold Machine.timebaseWrite
  extract_lets a key was old d1 d2
  have h2 : d2.Aged T := .ite h.storeReg.setFld h.storeReg
  exact .foldl (Dev.Aged.ite h2.restartTb h2) fun _ _ h => .ite h.forceGroup h

theorem Dev.Aged.lossTold {t} (h : d.Aged T) : (d.lossTold t).Aged T := h.setBitOf.present

theorem Dev.Aged.sourceLost {t} (h : d.Aged T) : (Machine.sourceLost t d).Aged T := .ite h.setTb.lossTold h

theorem Dev.Aged.mainsLock {t} (h : d.Aged T) : (Machine.mainsLock t d).Aged T := .ite h.setTb h

theorem Dev.Aged.mainsLost {t} (h : d.Aged T) : (Machine.mainsLost t d).Aged T := .ite h.setTb.lossTold h

theorem Dev.Aged.tickTb {t} (h : d.Aged T) : (d.tickTb t).Aged T := .ite h.setTb (.ite h.stepTb h.setTb)

theorem Dev.Aged.tickLantern (h : d.Aged T) : d.tickLantern.Aged T := .foldl h.withLantern fun _ _ h => .ite h.tickTb h

theorem Dev.Aged.armCmp {c} (h : d.Aged T) : (d.armCmp c).Aged T := h.withLantern

theorem Dev.Aged.cmpAfter {c w keepCfg keepAngle x} (h : d.Aged T) : (d.cmpAfter c w keepCfg keepAngle x).Aged T :=
  .ite (.ite h h.setFld) ((Dev.Aged.ite h h.setFld).setFld)

theorem Dev.Aged.cmpWrite {c r a w} (h : d.Aged T) : (d.cmpWrite c r a w).Aged T := h.withLantern.storeReg.armCmp

theorem Dev.Aged.comparator {c} (h : d.Aged T) : (Machine.comparator c d).Aged T := by
  unfold Machine.comparator
  extract_lets
  split
  · exact h
  · split
    · exact h
    · exact .ite h h.withLantern.setPair64.setFld.setFld.flag.cmpAfter.armCmp.produce

theorem Dev.Aged.gateRelease {n k} (h : d.Aged T) : (Machine.gateRelease n k d).Aged T := by
  unfold Machine.gateRelease
  extract_lets
  split
  · exact h
  · split
    · exact h
    · exact .ite h h.withLantern.capture

/-! ### Drive -/

theorem Dev.Aged.checkForce {g} (h : d.Aged T) : (d.checkForce g).Aged T := .ite h h.forceGroup

theorem Dev.Aged.passLt {g M} (h : d.Aged T) : (d.passLt g M).Aged T := h.setGroup

theorem Dev.Aged.passAngle {g} (h : d.Aged T) : (d.passAngle g).Aged T := .ite h.passLt h

theorem Dev.Aged.passTime {g} (h : d.Aged T) : (d.passTime g).Aged T := .ite (Dev.Aged.ite h.passLt h).passLt h

theorem Dev.Aged.noteShadow {g} (h : d.Aged T) : (d.noteShadow g).Aged T := .ite h.setGroup h

theorem Dev.Aged.tickOutputs {g} (h : d.Aged T) : (d.tickOutputs g).Aged T := .ite h h.setGroup

theorem Dev.Aged.tickPwm (h : d.Aged T) : d.tickPwm.Aged T := .foldl h fun _ _ h => h.noteShadow.passTime.tickOutputs

theorem Dev.Aged.endPwm (h : d.Aged T) : d.endPwm.Aged T := .foldl h fun _ _ h => h.passAngle

theorem Dev.Aged.tickPins (h : d.Aged T) : d.tickPins.Aged T := .foldl h fun _ _ h => .ite h h.setGroup

theorem Dev.Aged.startGroup {g} (h : d.Aged T) : (d.startGroup g).Aged T := h.setFld.setFld.setGroup.checkForce

theorem Dev.Aged.enableGroup {g} (h : d.Aged T) : (Machine.enableGroup g d).Aged T := .ite h h.startGroup

theorem Dev.Aged.stopGroup {g} (h : d.Aged T) : (d.stopGroup g).Aged T := .ite h h.setGroup

theorem Dev.Aged.takeShadow {g valley e} (h : d.Aged T) : (d.takeShadow g valley e).Aged T := h.setGroup

theorem Dev.Aged.releaseGroup {g e} (h : d.Aged T) : (d.releaseGroup g e).Aged T := .ite h.setGroup h

theorem Dev.Aged.loadEvent {g valley e} (h : d.Aged T) : (d.loadEvent g valley e).Aged T := by
  unfold Dev.loadEvent
  extract_lets ldm again d1
  have h1 : d1.Aged T := h.takeShadow.flag
  exact (Dev.Aged.ite h.count.flag (.ite h1.setFld h1)).releaseGroup.checkForce

theorem Dev.Aged.carrierValley {g} (h : d.Aged T) : (Machine.carrierValley g d).Aged T := by
  unfold Machine.carrierValley
  extract_lets
  split
  · exact h
  · extract_lets d1
    have h1 : d1.Aged T := h.setGroup.produce
    exact .ite h1.loadEvent h1

theorem Dev.Aged.carrierPeak {g} (h : d.Aged T) : (Machine.carrierPeak g d).Aged T := by
  unfold Machine.carrierPeak
  extract_lets
  split
  · exact h
  · extract_lets d1
    have h1 : d1.Aged T := h.setGroup.produce
    exact .ite h1.loadEvent h1

theorem Dev.Aged.syncGroup {g} (h : d.Aged T) : (d.syncGroup g).Aged T := .ite h.setGroup h

theorem Dev.Aged.pwmSync {mask} (h : d.Aged T) : (Machine.pwmSync mask d).Aged T := .foldl h fun _ _ h => h.syncGroup

theorem Dev.Aged.swForce {g on} (h : d.Aged T) : (Machine.swForce g on d).Aged T := h.setFld.checkForce

theorem Dev.Aged.tripClear {g} (h : d.Aged T) : (Machine.tripClear g d).Aged T := h.setGroup

theorem Dev.Aged.setSdf {n x} (h : d.Aged T) : (d.setSdf n x).Aged T := h.withDrive

theorem Dev.Aged.tripLatch {g} (h : d.Aged T) : (Machine.tripLatch g d).Aged T :=
  .ite h h.setGroup.flag.produce.present.forceGroup

theorem Dev.Aged.pinError {g lvl} (h : d.Aged T) : (Machine.pinError g lvl d).Aged T :=
  .ite h.setGroup.flag.present h.setGroup

theorem Dev.Aged.pwmWrite {a w} (h : d.Aged T) : (d.pwmWrite a w).Aged T := by
  unfold Dev.pwmWrite
  extract_lets off g r d1 was d2 _ d3 d4
  have h1 : d1.Aged T := .ite h.flag h
  have h4 : d4.Aged T := (Dev.Aged.ite h1.setGroup h1).storeReg.checkForce
  exact .ite h.pwmSync (.ite h.storeReg (.ite (.ite h1.storeReg.startGroup (.ite h1.storeReg.stopGroup h1.storeReg))
    (.ite (.ite h4.tripClear h4) (.ite (.ite h1.storeReg.setFld h1.storeReg) h1.storeReg))))

theorem Dev.Aged.startSdf {n} (h : d.Aged T) : (d.startSdf n).Aged T := h.setSdf

theorem Dev.Aged.fastTrip {n f} (h : d.Aged T) : (d.fastTrip n f).Aged T := h.flag.produce

theorem Dev.Aged.sdfClock {n b} (h : d.Aged T) : (d.sdfClock n b).Aged T := by
  unfold Dev.sdfClock
  extract_lets _ bits v hi lo hiRun loRun fcnt high low next due d1 d2 d3 d4
  have h3 : d3.Aged T := .ite h.setSdf.setFld.fastTrip h.setSdf.setFld
  have h4 : d4.Aged T := .ite h3.fastTrip h3
  exact .ite h4.setFld.flag h4

theorem Dev.Aged.sdfBits {n bits} (h : d.Aged T) : (d.sdfBits n bits).Aged T :=
  .ite (.foldl h fun _ _ h => h.sdfClock) h

theorem Dev.Aged.clockLost {n} (h : d.Aged T) : (Machine.clockLost n d).Aged T := .ite h.setSdf.flag.present h

theorem Dev.Aged.clockReturns {n} (h : d.Aged T) : (Machine.clockReturns n d).Aged T := h.setSdf

theorem Dev.Aged.snapshot {setB} (h : d.Aged T) : (Machine.snapshot setB d).Aged T :=
  .ite h (.foldl (Dev.Aged.ite h.setLatch.setPair64 h.setLatch.setPair64) fun _ _ h => .ite h.setFld.setSdf h.setFld)

theorem Dev.Aged.sdfWrite {a w} (h : d.Aged T) : (d.sdfWrite a w).Aged T :=
  .ite (.ite h.storeReg.startSdf (.ite h.storeReg.setSdf h.storeReg)) h.storeReg

theorem Dev.Aged.setAdc {c x} (h : d.Aged T) : (d.setAdc c x).Aged T := h.withDrive

theorem Dev.Aged.startSeq {c trig} (h : d.Aged T) : (d.startSeq c trig).Aged T := h.setAdc

theorem Dev.Aged.adcSequenceStart {c} (h : d.Aged T) : (Machine.adcSequenceStart c d).Aged T := by
  unfold Machine.adcSequenceStart
  split
  · exact h
  · split
    · exact h.startSeq
    · split
      · split
        · exact h.setLatch.startSeq
        · exact h
      · exact h

theorem Dev.Aged.adcStart {c} (h : d.Aged T) : (Machine.adcStart c d).Aged T := .ite h (.ite h.startSeq h.flag)

theorem Dev.Aged.adcDone {c volts} (h : d.Aged T) : (Machine.adcDone c volts d).Aged T := by
  unfold Machine.adcDone
  split
  · exact h
  · exact .ite h (.foldl (Dev.Aged.foldl h fun _ _ h => .ite h.setFld.setFld
      h.setFld).setPair64.flag.consequence.setAdc fun _ _ h => h.offerConversion)

theorem Dev.Aged.adcWrite {a w} (h : d.Aged T) : (d.adcWrite a w).Aged T :=
  .ite h.storeReg.setAdc (.ite (.ite h.adcStart h) h.storeReg)

theorem Dev.Aged.setPosIf {i x} (h : d.Aged T) : (d.setPosIf i x).Aged T := h.withDrive

theorem Dev.Aged.posErr {i f} (h : d.Aged T) : (d.posErr i f).Aged T := h.flag.present

theorem Dev.Aged.deliverSample {i angle rev revOk time} (h : d.Aged T) :
    (d.deliverSample i angle rev revOk time).Aged T :=
  h.setFld.setFld.setFld.produce.offerSample

theorem Dev.Aged.resolverSample {i sin cos neg} (h : d.Aged T) : (Machine.resolverSample i sin cos neg d).Aged T :=
  .ite h (.ite h.posErr (.ite h.posErr h.fresh.deliverSample))

theorem Dev.Aged.setCount {i n} (h : d.Aged T) : (d.setCount i n).Aged T := h.setPosIf.setFld

theorem Dev.Aged.abzEdge {i a b} (h : d.Aged T) : (Machine.abzEdge i a b d).Aged T :=
  .ite h (.ite h.setPosIf.posErr h.setPosIf.setCount.setPosIf)

theorem Dev.Aged.zIndex {i} (h : d.Aged T) : (Machine.zIndex i d).Aged T :=
  .ite h (.ite h.produce (.ite h.produce.setPosIf.setCount
    (.ite h.produce (.ite h.produce.fresh h.produce.fresh.setCount.posErr))))

theorem Dev.Aged.abzDelivery {i} (h : d.Aged T) : (Machine.abzDelivery i d).Aged T :=
  .ite h (.ite h.setPosIf h.setPosIf.deliverSample)

theorem Dev.Aged.ssiAngle {stb st} (h : d.Aged T) : (d.ssiAngle stb st).2.Aged T := .iteSnd h h.withFree

theorem Dev.Aged.ssiFrame {i line bits lag} (h : d.Aged T) : (Machine.ssiFrame i line bits lag d).Aged T :=
  .ite h (.ite h.setPosIf.posErr h.setPosIf.setFld.ssiAngle.deliverSample)

theorem Dev.Aged.restartPos {i} (h : d.Aged T) : (d.restartPos i).Aged T := h.setPosIf.setFld

theorem Dev.Aged.posWrite {a w} (h : d.Aged T) : (d.posWrite a w).Aged T :=
  .ite (.ite h.storeReg.restartPos h.storeReg) (.ite h.storeReg.restartPos h.storeReg)

/-! ### Buoy -/

theorem Dev.Aged.setBuoy {k x} (h : d.Aged T) : (d.setBuoy k x).Aged T := h.withBuoy

theorem Dev.Aged.setCycle {k c} (h : d.Aged T) : (d.setCycle k c).Aged T := h.setBuoy

theorem Dev.Aged.startCycle {k t stamp trig} (h : d.Aged T) : (d.startCycle k t stamp trig).Aged T :=
  (Dev.Aged.ite h.setFld h).setBuoy.flag.setFld

theorem Dev.Aged.listStart {k} (h : d.Aged T) : (Machine.listStart k d).Aged T := by
  unfold Machine.listStart
  split
  · exact h
  · split
    · exact h
    · extract_lets
      split
      · exact h.setBuoy.startCycle
      · split
        · exact h.setLatch.startCycle
        · exact h

theorem Dev.Aged.startWrite {k t} (h : d.Aged T) : (Machine.Dev.startWrite k d t).Aged T := .ite h.flag h.setBuoy

theorem Dev.Aged.startLists {k mask} (h : d.Aged T) : (Machine.startLists k mask d).Aged T :=
  .foldl h fun _ _ h => h.startWrite

theorem Dev.Aged.countFails {k addr status} (h : d.Aged T) : (d.countFails k addr status).Aged T :=
  .ite h.setFld.setBuoy (.ite h.setFld.setBuoy.flag.present h.setFld)

theorem Dev.Aged.buoyFinal {k c x status detail} (h : d.Aged T) : AgedOrHeld T (d.buoyFinal k c x status detail) := by
  unfold Dev.buoyFinal
  extract_lets bytes
  split
  · trivial
  · next e d1 _ hs =>
    have h1 : d1.Aged T := .of_snd hs h.engineStore
    have h2 : (Dev.Aged T) (if status = 0 then d1 else d1.flag (BUOY_ISTAT_FAIL k)) := .ite h1 h1.flag
    exact .setCycle (.ite h2 h2.countFails)

theorem Dev.Aged.attemptFailed {k c x} (h : d.Aged T) : AgedOrHeld T (d.attemptFailed k c x) :=
  .ite h.setCycle h.buoyFinal

theorem Dev.Aged.transmit {k c x} (h : d.Aged T) : AgedOrHeld T (d.transmit k c x) := by
  unfold Dev.transmit
  extract_lets
  exact .ite (Dev.Aged.setBuoy (.ite h.flag h)).buoyFinal (.setCycle (.setBuoy (.ite h.flag h)))

theorem Dev.Aged.takeSeq {k addr} (h : d.Aged T) : (d.takeSeq k addr).2.Aged T := .iteSnd h.setBuoy h.setFld

theorem Dev.Aged.memFailed {k c} (h : d.Aged T) : AgedOrHeld T (d.memFailed k c) := h.setCycle

theorem Dev.Aged.nextDescriptor {k c} (h : d.Aged T) : AgedOrHeld T (d.nextDescriptor k c) := by
  unfold Dev.nextDescriptor
  split
  · trivial
  · next hl => exact (Dev.Aged.of_thd hl h.engineLoad).memFailed
  · next bytes d1 hl =>
    have h1 : d1.Aged T := .of_thd hl h.engineLoad
    extract_lets w addr cmd qlen x c1
    refine .ite h1.setCycle (.ite h1.buoyFinal (.ite h1.buoyFinal ?_))
    split
    next body e d2 hb =>
      have h2 : d2.Aged T := .of_thd hb (.iteThd h1 h1.engineLoad)
      split
      · trivial
      · exact h2.memFailed
      · exact h2.takeSeq.transmit

theorem Dev.Aged.buoySend {k} (h : d.Aged T) : (Machine.buoySend k d).Aged T := by
  unfold Machine.buoySend
  split
  · exact h
  · split
    · exact h
    · split
      · exact h.orWait h.transmit
      · exact .ite h (h.orWait h.nextDescriptor)

theorem Dev.Aged.buoyWaitEnd {k} (h : d.Aged T) : (Machine.buoyWaitEnd k d).Aged T := by
  unfold Machine.buoyWaitEnd
  split
  · exact h
  · split
    · exact .ite h.setCycle h
    · exact h

theorem Dev.Aged.abortDescriptor {k base j} (h : d.Aged T) : (Machine.Dev.abortDescriptor k base d j).Aged T :=
  .ite h.engineLoad.engineStore h.engineLoad

theorem Dev.Aged.endCycle {k c early} (h : d.Aged T) : AgedOrHeld T (d.endCycle k c early) := by
  unfold Dev.endCycle
  extract_lets left d1
  split
  · trivial
  · have h1 : d1.Aged T := .foldl h fun _ _ h => h.abortDescriptor
    exact h1.setFld.setFld.setFld.setFld.setFld.flag.setCycle.consequence

theorem Dev.Aged.cycleComplete {k} (h : d.Aged T) : (Machine.cycleComplete k d).Aged T := by
  unfold Machine.cycleComplete
  split
  · exact h
  · exact .ite h (.ite (h.orWait h.endCycle) (.ite (h.orWait h.endCycle) h))

theorem Dev.Aged.memFailure {k} (h : d.Aged T) : (Machine.memFailure k d).Aged T := by
  unfold Machine.memFailure
  split
  · exact h
  · exact .ite (h.orWait h.flag.present.endCycle) h

theorem Dev.Aged.ringBreak {k} (h : d.Aged T) : (Machine.ringBreak k d).Aged T := by
  unfold Machine.ringBreak
  split
  · exact h
  · extract_lets
    split
    · exact h.flag.present.flag.setBuoy
    · split
      · exact h.orWait h.flag.present.setFld.endCycle
      · exact h.flag.present.setFld

theorem Dev.Aged.replyOk {k c x body} (h : d.Aged T) : AgedOrHeld T (d.replyOk k c x body) := by
  unfold Dev.replyOk
  split
  · trivial
  · next hs => exact (Dev.Aged.of_snd hs h.engineStore).memFailed
  · next hs => exact (Dev.Aged.of_snd hs h.engineStore).buoyFinal

theorem Dev.Aged.replyTo {k c x r} (h : d.Aged T) : AgedOrHeld T (d.replyTo k c x r) := by
  unfold Dev.replyTo
  extract_lets f d1
  have h1 : d1.Aged T := .ite h.setFld h
  exact .ite h.setFld.buoyFinal (.ite h.buoyFinal (.ite h1.buoyFinal (.ite h1.buoyFinal h1.replyOk)))

theorem Dev.Aged.buoyReceive {k r} (h : d.Aged T) : (Machine.buoyReceive k r d).Aged T := by
  unfold Machine.buoyReceive
  split
  · exact h
  · next c hc =>
    extract_lets inTime quiet _ d1 hit d2
    clear_value hit
    have h2 : d2.Aged T := .ite h.setBuoy h.setBuoy.count
    refine .ite h ?_
    split
    · exact h.orWait h2.replyTo
    · refine .ite h2 ?_
      split
      · exact h.orWait h2.attemptFailed
      · exact h2

theorem Dev.Aged.buoyDeadlinePass {k} (h : d.Aged T) : (Machine.buoyDeadlinePass k d).Aged T := by
  unfold Machine.buoyDeadlinePass
  split
  · exact h
  · split
    · exact h
    · split
      · exact h
      · extract_lets b d1
        have h1 : d1.Aged T := .ite h h.setBuoy
        exact .ite (.ringBreak (.ite h1 h1.count)) (.ite (h.orWait h1.buoyFinal) (h.orWait h1.count.attemptFailed))

theorem Dev.Aged.ringHeal {k} (h : d.Aged T) : (Machine.ringHeal k d).Aged T := by
  unfold Machine.ringHeal
  extract_lets
  split
  · exact .ite h.flag.setBuoy h
  · exact h

theorem Dev.Aged.enumEntry {k n i} (h : d.Aged T) : (Machine.Dev.enumEntry k n d i).Aged T := by
  unfold Dev.enumEntry
  extract_lets d1
  have h1 : d1.Aged T := h.setFld.setFld.setFld
  exact .ite h1.flag.setFld.setFld h1.setFld

theorem Dev.Aged.enumRecords {k} : ∀ {l : List (BitVec 64 × BitVec 16)} {d : Dev} {base}, d.Aged T →
    (d.enumRecords k base l).Aged T
  | [], _, _, h => h
  | _ :: _, _, _, h => h.engineStore.enumRecords

theorem Dev.Aged.enumWrite {k} (h : d.Aged T) : (d.enumWrite k).Aged T := .ite h.flag h.flag

theorem Dev.Aged.enumTable {k n} (h : d.Aged T) : (d.enumTable k n).Aged T :=
  .setBuoy (.foldl h fun _ _ h => h.enumEntry)

theorem Dev.Aged.enumRun {k ring} (h : d.Aged T) : AgedOrHeld T (d.enumRun k ring) := by
  unfold Dev.enumRun
  extract_lets base d1 ps
  split
  next s d2 hs =>
    have h2 : d2.Aged T := .of_snd hs (Dev.Aged.takeSeq h.setFld)
    split
    · exact h2.setFld.flag
    · extract_lets d3 d4
      split
      · trivial
      · have h4 : d4.Aged T := .ite h2.setFld.enumRecords.flag.present h2.setFld.enumRecords
        exact h4.setFld.enumTable.flag

theorem Dev.Aged.enumGo {k ring} (h : d.Aged T) : (d.enumGo k ring).Aged T := .ite (h.orWait h.enumRun) h

theorem Dev.Aged.enumerate {k ring} (h : d.Aged T) : (Machine.enumerate k ring d).Aged T :=
  .enumGo (.ite h h.enumWrite)

theorem Dev.Aged.buoyWrite {a w} (h : d.Aged T) : (d.buoyWrite a w).Aged T :=
  .ite (.startLists (.ite h.enumWrite h)) h.storeReg

/-! ### Ethernet -/

theorem Dev.Aged.syncInterval {s} (h : d.Aged T) : (Machine.syncInterval s d).Aged T :=
  .ite h.withEth.setFld (.ite h.withEth.setFld.setFld.withEth.present h.withEth.setFld.setFld.withEth)

theorem Dev.Aged.timePulse (h : d.Aged T) : (Machine.timePulse d).Aged T :=
  .ite h h.withEth.setPair64.setPair64.produce

theorem Dev.Aged.deliverFrame {f pcp ns port} (h : d.Aged T) : (d.deliverFrame f pcp ns port).Aged T :=
  .ite h.withEth (.ite h.withEth h)

theorem Dev.Aged.startLine {q f} (h : d.Aged T) : (d.startLine q f).Aged T := h.withEth

theorem Dev.Aged.drainPort {q} (h : d.Aged T) : (d.drainPort q).Aged T := by
  unfold Dev.drainPort
  split
  · exact h
  · split
    · exact h
    · exact h.withEth.startLine

theorem Dev.Aged.drainPorts (h : d.Aged T) : d.drainPorts.Aged T := h.drainPort.drainPort

theorem Dev.Aged.forward {ingress f pcp ns} (h : d.Aged T) : (d.forward ingress f pcp ns).Aged T :=
  .drainPorts (.foldl h fun _ _ h => h.deliverFrame)

theorem Dev.Aged.switchFrame {port f} (h : d.Aged T) : (Machine.switchFrame port f d).Aged T :=
  .ite h (.ite (.ite h.count h) (.ite h (.ite (.ite h.count h) h.withEth.forward)))

theorem Dev.Aged.ageOut (h : d.Aged T) : (Machine.ageOut d).Aged T := by
  unfold Machine.ageOut
  split
  · exact h.withEth
  · exact h

theorem Dev.Aged.linkChange {q up auto sqi} (h : d.Aged T) : (Machine.linkChange q up auto sqi d).Aged T := by
  unfold Machine.linkChange
  extract_lets ms master up was d1 d2 d3
  have h3 : d3.Aged T := .ite h.setFld.setFld.setFld h.setFld.setFld.setFld.flag
  exact .ite h3.present h3

theorem Dev.Aged.advanceSeq (h : d.Aged T) : d.advanceSeq.Aged T := h.withEth

theorem Dev.Aged.epochWrap (h : d.Aged T) : (Machine.epochWrap d).Aged T := .ite (.journal ⟨h.fuses, h.anchor⟩) h

theorem Dev.Aged.sendSigned {keyid dst payload} (h : d.Aged T) : (d.sendSigned keyid dst payload).Aged T := by
  unfold Dev.sendSigned
  split
  · exact h
  · exact .advanceSeq (.ite h.epochWrap.forward h.epochWrap)

theorem Dev.Aged.txEmit {r raw type keyid dst payload} (h : d.Aged T) :
    (d.txEmit r raw type keyid dst payload).Aged T := by
  unfold Dev.txEmit
  extract_lets send
  have hs : ∀ f, (send f).Aged T := fun _ => .ite h h.startLine
  split
  · exact hs _
  · split
    · exact h
    · exact (hs _).advanceSeq

theorem Dev.Aged.sendHead {r} (h : d.Aged T) : AgedOrHeld T (d.sendHead r) := by
  unfold Dev.sendHead
  extract_lets head a
  split
  next desc e0 d1 h1e =>
    have h1 : d1.Aged T := .of_thd h1e h.engineLoad
    extract_lets w raw len type keyid dst st
    split
    next payload e1 d2 h2e =>
      have h2 : d2.Aged T := .of_thd h2e (.iteThd h1.engineLoad h1)
      split
      · trivial
      · split
        next status d3 h3e =>
          have h3 : d3.Aged T := by
            refine .of_snd h3e ?_
            split
            · exact .iteSnd h2 (.iteSnd h2 h2.txEmit)
            · exact h2.fresh
          exact h3.engineStore.setFld

theorem Dev.Aged.txSend {r} (h : d.Aged T) : (Machine.txSend r d).Aged T := .ite (h.orWait h.sendHead) h

theorem Dev.Aged.txGated {r} (h : d.Aged T) : (Machine.txGated r d).Aged T := by
  unfold Machine.txGated
  refine .ite h (.ite h.setLatch.flag (.ite h ?_))
  split
  · next hs => exact (AgedOrHeld.of_ok hs h.sendHead).setLatch
  · exact h.onHold

theorem Dev.Aged.ringWrite {m base unit size tail bytes} (h : d.Aged T) :
    AgedOrHeld T (d.ringWrite m base unit size tail bytes) := by
  unfold Dev.ringWrite
  extract_lets first a
  split
  · trivial
  · exact h.engineStore.engineStore

theorem Dev.Aged.rxPut {entry e} (h : d.Aged T) (he : d.rxPut entry = .written e) : e.Aged T := by
  unfold Dev.rxPut at he
  extract_lets size tail n at he
  split at he
  · cases he
  · split at he
    · next hw =>
      cases he
      exact (AgedOrHeld.of_ok hw h.ringWrite).setFld
    · cases he

theorem Dev.Aged.dropped {f} (h : d.Aged T) : (d.dropped f).Aged T := h.count.flag

theorem Dev.Aged.takeHost (h : d.Aged T) : d.takeHost.Aged T := h.withEth

theorem Dev.Aged.seqTaken {n s} (h : d.Aged T) : (d.seqTaken n s).Aged T := .ite h.withEth.setPair64 h.withEth

theorem Dev.Aged.accept {n first body} (h : d.Aged T) : (d.accept n first body).Aged T := by
  unfold Dev.accept
  extract_lets type len d1
  have h1 : d1.Aged T := h.takeHost.seqTaken
  refine .ite h1.wakeUp ?_
  split
  · exact h.onHold
  · exact h1.dropped
  · next hr =>
    have h2 := h1.rxPut hr
    exact .ite h2.flag (.ite h2.withTrust h2)

theorem Dev.Aged.checkMessage {first gptp body} (h : d.Aged T) : (d.checkMessage first gptp body).Aged T := by
  unfold Dev.checkMessage
  extract_lets
  split
  · exact h.takeHost.dropped
  · split
    · exact h.takeHost.dropped
    · split
      · exact h.takeHost.dropped
      · split
        · exact h.takeHost.dropped.present
        · split
          · exact h.takeHost.dropped
          · exact .ite h.takeHost.dropped (.ite h.takeHost.dropped h.accept)

theorem Dev.Aged.messageReceive (h : d.Aged T) : (Machine.messageReceive d).Aged T := by
  unfold Machine.messageReceive
  split
  · exact h
  · exact .ite h.checkMessage h

theorem Dev.Aged.rawReceive (h : d.Aged T) : (Machine.rawReceive d).Aged T := by
  unfold Machine.rawReceive
  split
  · exact h
  · refine .ite h (.ite h.takeHost ?_)
    split
    · exact h.onHold
    · exact h.takeHost.dropped
    · next hr => exact h.takeHost.rxPut hr

/-! ### Can -/

theorem Dev.Aged.setCan {k x} (h : d.Aged T) : (d.setCan k x).Aged T := h.withCan

theorem Dev.Aged.errorState {k} (h : d.Aged T) : (d.errorState k).Aged T := .ite h h.setFld

theorem Dev.Aged.canEvent {k f} (h : d.Aged T) : (d.canEvent k f).Aged T := .ite h.produce h

theorem Dev.Aged.canStore {k f} (h : d.Aged T) : AgedOrHeld T (d.canStore k f) := by
  unfold Dev.canStore
  extract_lets bytes size tail n
  refine .ite h.count ?_
  split
  · trivial
  · next hw => exact (AgedOrHeld.of_ok hw h.ringWrite).setFld.flag

theorem Dev.Aged.canStoreAll {k} : ∀ {l : List CanFrame} {d : Dev}, d.Aged T → (d.canStoreAll k l).Aged T
  | [], _, h => h.setCan
  | f :: t, d, h => by
    rw [Dev.canStoreAll]
    split
    · next hs => exact (AgedOrHeld.of_ok hs h.canStore).canStoreAll
    · exact h.setCan.onHold

theorem Dev.Aged.canRetry (h : d.Aged T) : d.canRetry.Aged T := .foldl h fun _ _ h => .ite h h.canStoreAll

theorem Dev.Aged.canReceive {k f} (h : d.Aged T) : (Machine.canReceive k f d).Aged T := by
  unfold Machine.canReceive
  split
  · exact h
  · extract_lets rec_ d1
    have h1 : d1.Aged T := .ite h h.setFld.errorState
    exact .ite h1.canEvent.canStoreAll h1

theorem Dev.Aged.canSendHead {k header} (h : d.Aged T) : AgedOrHeld T (d.canSendHead k header) := by
  unfold Dev.canSendHead
  extract_lets base size head w1 fmt len n start first a done
  refine .ite h.setFld ?_
  split
  · trivial
  · exact h.engineLoad.engineLoad.engineStore.setFld.errorState.setCan.setFld.flag.canEvent

theorem Dev.Aged.canSend {k} (h : d.Aged T) : (Machine.canSend k d).Aged T := by
  unfold Machine.canSend
  extract_lets size head
  refine .ite h ?_
  split
  next header e d1 hl =>
    have h1 : d1.Aged T := .of_thd hl h.engineLoad
    extract_lets j input
    split
    · exact h.onHold
    · refine .ite h ?_
      split
      · exact h.onHold
      · next hs =>
        have h2 := AgedOrHeld.of_ok hs h1.canSendHead
        exact .ite h2.setLatch h2

theorem Dev.Aged.goBusOff {k} (h : d.Aged T) : (Machine.goBusOff k d).Aged T := .ite h h.setFld.setFld.flag.present

theorem Dev.Aged.busRecovered {k} (h : d.Aged T) : (Machine.busRecovered k d).Aged T :=
  .ite h.setFld.setFld.setFld.setCan h

theorem Dev.Aged.startRecovery {k} (h : d.Aged T) : (Machine.startRecovery k d).Aged T := .ite h.setCan h

/-! ### Nvs -/

theorem Dev.Aged.sealOpen {bad} (h : d.Aged T) : (Machine.sealOpen bad d).Aged T := .ite h h.sealPage

theorem Dev.Aged.sealPeriod {bad} (h : d.Aged T) : (Machine.sealPeriod bad d).Aged T := .ite h.sealOpen h

theorem Dev.Aged.appendEnd {st} (h : d.Aged T) : (d.appendEnd st).Aged T := h.withNvs.setFld.setFld

theorem Dev.Aged.tryAppend (h : d.Aged T) : d.tryAppend.Aged T := by
  unfold Dev.tryAppend
  split
  · exact h
  · refine .ite h.appendEnd ?_
    extract_lets quiet
    split
    next hd e d1 hl =>
      have h1 : d1.Aged T := .of_thd hl h.engineLoad
      split
      · exact h.onHold
      · exact h1.appendEnd
      · extract_lets type len
        refine .ite h1.appendEnd (.ite h1.appendEnd (.ite h1.appendEnd ?_))
        split
        next body e d2 hl =>
          have h2 : d2.Aged T := .of_thd hl h1.engineLoad
          split
          · exact h.onHold
          · exact h2.appendEnd
          · exact .appendEnd (.ite h2.journal.sealOpen h2.journal)

theorem Dev.Aged.appendWrite {addr} (h : d.Aged T) : (Machine.appendWrite addr d).Aged T :=
  .ite h h.withNvs.flag.tryAppend

theorem Dev.Aged.chainVerify {broken} (h : d.Aged T) : (Machine.chainVerify broken d).Aged T := by
  unfold Machine.chainVerify
  split
  · exact h
  · extract_lets
    split
    · exact h.withNvs.flag
    · exact h.withNvs.flag.present

theorem Dev.Aged.compact (h : d.Aged T) : (Machine.compact d).Aged T := .ite h.withNvs.flag h

theorem Dev.Aged.eraseDone (h : d.Aged T) : (Machine.eraseDone d).Aged T :=
  .ite h (.ite h.withNvs.setFld.flag.present h.withNvs.setFld)

theorem Dev.Aged.blockRemap (h : d.Aged T) : (Machine.blockRemap d).Aged T := .ite h.withNvs h

theorem Dev.Aged.slotctlWrite {op m w} (h : d.Aged T) : (Machine.slotctlWrite op m w d).Aged T := by
  unfold Machine.slotctlWrite
  split
  · exact h
  · extract_lets tgt d1
    have h1 : d1.Aged T := h.setFld.setFld.setFld
    exact .ite h1 (.ite h1.setFld h1.withNvs.flag.flag)

theorem Dev.Aged.opEnd {st} (h : d.Aged T) : (d.opEnd st).Aged T := h.withNvs.setFld.setFld.setFld

theorem Dev.Aged.opFail {st} (h : d.Aged T) : (d.opFail st).Aged T := by
  unfold Dev.opFail
  split
  next k e hf => exact (Dev.Aged.of_snd hf h.fresh).withNvs.opEnd

theorem Dev.Aged.opCopy {src off len} (h : d.Aged T) : (d.opCopy src off len).Aged T := by
  unfold Dev.opCopy
  split
  next bytes e d1 hl =>
    have h1 : d1.Aged T := .of_thd hl h.engineLoad
    split
    · exact h1.onHold
    · exact h1.opFail
    · exact h1.withNvs.opEnd

theorem Dev.Aged.slotDone {err} (h : d.Aged T) : (Machine.slotDone err d).Aged T := by
  unfold Machine.slotDone
  split
  · exact h
  · exact .ite h.opFail (.ite h.opFail (.ite h.withNvs.opEnd (.ite h.opCopy (.ite h.opCopy h.journal.opEnd))))

/-! ### Test -/

theorem Dev.Aged.bistStop {p} (h : d.Aged T) : (d.bistStop p).Aged T := h.setPair.setPairState

theorem Dev.Aged.bistStart (h : d.Aged T) : (Machine.bistStart d).Aged T :=
  .ite (.ite h ((Dev.Aged.foldl h fun _ _ h => h.bistStop).flag.setFld.setFld.withTest)) h.refuse.setFld

theorem Dev.Aged.bistRecord {r} (h : d.Aged T) : (d.bistRecord r).Aged T := by
  unfold Dev.bistRecord
  extract_lets n _ d1
  have h1 : d1.Aged T := .ite h.withTest h
  exact .ite h1.count h1.setPair64.setFld

theorem Dev.Aged.bistOver {status} (h : d.Aged T) : (d.bistOver status).Aged T := by
  unfold Dev.bistOver
  extract_lets clear d1
  have h1 : d1.Aged T := h.setFld.setFld
  exact ⟨h1.fuses, h1.anchor⟩

theorem Dev.Aged.bistCheck {clockKHz supplyMv results} (h : d.Aged T) :
    (Machine.bistCheck clockKHz supplyMv results d).Aged T := by
  unfold Machine.bistCheck
  split
  · exact h
  · extract_lets d1
    have h1 : d1.Aged T := .foldl h fun _ _ h => h.bistRecord
    exact .ite h1.bistOver (.ite h1.bistOver h1.withTest)

theorem Dev.Aged.bistEnd {results} (h : d.Aged T) : (Machine.bistEnd results d).Aged T :=
  .ite (.bistOver (.foldl h fun _ _ h => h.bistRecord)) h

theorem Dev.Aged.repair (h : d.Aged T) : (Machine.repair d).Aged T := .ite h h.journal.withTest

theorem Dev.Aged.bistctlWrite {w} (h : d.Aged T) : (Machine.bistctlWrite w d).Aged T := by
  unfold Machine.bistctlWrite
  extract_lets d1
  have h1 : d1.Aged T := .ite h.repair h
  exact .ite h1.bistStart h1

theorem Dev.Aged.watchPeriodEnd (h : d.Aged T) : (Machine.watchPeriodEnd d).Aged T := by
  unfold Machine.watchPeriodEnd
  split
  · exact h
  · exact .ite ((Dev.Aged.ite h.setFld.setFld h.setFld.flag.present).withTest) h

theorem Dev.Aged.covered1 {inst word} (h : d.Aged T) : (d.covered1 inst word).Aged T := .ite h.withTest h

theorem Dev.Aged.marchFailed {inst bit} (h : d.Aged T) : (Machine.Dev.marchFailed inst d bit).Aged T :=
  h.setFld.flag.present

theorem Dev.Aged.marchWord {inst word stuck} (h : d.Aged T) : (Machine.marchWord inst word stuck d).Aged T :=
  .ite h (.ite (.ite h.romRead.covered1 h) (.ite (.covered1 (.foldl h.setInstRam.noteRead fun _ _ h => h.marchFailed))
    h))

theorem Dev.Aged.offer {lp budget} (h : d.Aged T) : (Machine.offer lp budget d).Aged T :=
  .ite h.setPair.withTest h.count

theorem Dev.Aged.offerAbandon {lp} (h : d.Aged T) : (Machine.offerAbandon lp d).Aged T := by
  unfold Machine.offerAbandon
  split
  · exact h
  · exact .ite h.dropSlice h

theorem Dev.Aged.spareSlice {p fail} (h : d.Aged T) : (Machine.spareSlice p fail d).Aged T :=
  .ite h (.ite h.sliceFailed h.withTest)

theorem Dev.Aged.loopDelay {x1} (h : d.Aged T) : (d.loopDelay x1).Aged T := by
  unfold Dev.loopDelay
  split
  · exact h.setAdc
  · exact h

theorem Dev.Aged.loopback {b pass} (h : d.Aged T) : (Machine.loopback b pass d).Aged T :=
  .ite h (.ite h.loopDelay.withTest h.loopDelay.withTest.flag.present)

theorem Dev.Aged.slackLow {p} (h : d.Aged T) : (d.slackLow p).Aged T := by
  unfold Dev.slackLow
  split
  · exact h.withAge
  · exact .ite h.withAge.flag.present h

theorem Dev.Aged.slackFine {p} (h : d.Aged T) : (d.slackFine p).Aged T := h.withAge

theorem Dev.Aged.voltageAdjust {p slack nbti} (h : d.Aged T) : (Machine.voltageAdjust p slack nbti d).Aged T :=
  .ite h.withAge (.ite (.ite h.withAge.setPair.slackFine h.withAge.slackLow)
    (.ite h.withAge.setPair.slackFine h.withAge.slackFine))

theorem Dev.Aged.planInService {steps p} (h : d.Aged T) : (d.planInService steps p).Aged T := by
  unfold Dev.planInService
  split
  · exact h
  · split
    · exact h
    · split
      · exact h.flag.present
      · extract_lets d1
        have h1 : d1.Aged T := .ite h h.setStep
        exact .ite h1 h1.setPair

theorem Dev.Aged.plannerRun {steps} (h : d.Aged T) : (Machine.plannerRun steps d).Aged T :=
  .ite h (.foldl (Dev.Aged.noteSlow (.foldl ⟨h.fuses, h.anchor⟩ fun _ _ h => h.planInService)) fun _ _ h =>
    h.checkShort)

/-! ### Session -/

theorem Dev.Aged.resumeHeld {p} (h : d.Aged T) : (d.resumeHeld p).Aged T := .ite h.capture h

theorem Dev.Aged.clearComparators (h : d.Aged T) : d.clearComparators.Aged T := .foldl h fun _ _ h => h.setFld

theorem Dev.Aged.endSession (h : d.Aged T) : d.endSession.Aged T := by
  unfold Dev.endSession
  split
  · exact h
  · extract_lets d1 d2
    have h2 : d2.Aged T := (Dev.Aged.clearComparators (.foldl h fun _ _ h => h.resumeHeld)).setFld.setFld.flag
    exact .ite h2.setFld.withStart h2

theorem Dev.Aged.grantEnded (h : d.Aged T) : d.grantEnded.Aged T := h.endGrant.endSession

theorem Dev.Aged.withGrantEnd {old} (h : d.Aged T) : (Dev.withGrantEnd old d).Aged T := .ite h.endSession h

/-! ### Trust -/

theorem Dev.Aged.revoke {role slot} (h : d.Aged T) : (d.revoke role slot).Aged T := .ite h.withPersist h.withTrust

theorem Dev.Aged.reserveAtt (h : d.Aged T) : d.reserveAtt.Aged T := by
  unfold Dev.reserveAtt
  split
  · exact h
  · extract_lets b _ _ d1
    have h1 : d1.Aged T := .journal ⟨h.fuses, h.anchor⟩
    exact .ite h1.withTrust.journal h1

theorem Dev.Aged.attest {nonce} (h : d.Aged T) : (d.attest nonce).2.Aged T :=
  .ite h.reserveAtt.withTrust.flag h.reserveAtt.withTrust

theorem Dev.Aged.install {slot act} (h : d.Aged T) : (d.install slot act).Aged T :=
  .ite h.journal (.ite h.journal.setActive.deviceReset h.journal.setActive)

theorem Dev.Aged.signedEffect {c seed} (h : d.Aged T) : (d.signedEffect c seed).2.Aged T :=
  .iteSnd h.withTrust.flag.lifecycleTo (.iteSnd h.withTrust.flag.lifecycleTo
    (.iteSnd h.withTrust (.iteSnd h.lifecycleTo (.iteSnd h.lifecycleTo
    (.iteSnd h.lifecycleTo (.iteSnd (.ite h.revoke.flag.journal h.revoke.flag)
    (.iteSnd h.withPersist.journal.flag (.iteSnd h.withPersist.journal.flag
    (.iteSnd h.withPersist.journal (.iteSnd h.install (.iteSnd h.withTrust.journal.flag h.attest)))))))))))

theorem Dev.Aged.workResult {status payload} (h : d.Aged T) : (d.workResult status payload).Aged T := by
  unfold Dev.workResult
  split
  · exact .ite h.withTdr h
  · exact h

theorem Dev.Aged.answerBlock {role a} (h : d.Aged T) : (d.answerBlock role a).Aged T := by
  unfold Dev.answerBlock
  extract_lets d1
  have h1 : d1.Aged T := h.setFld.setFld.setFld
  split
  · exact h1.setFld.withTrust.workResult
  · exact .foldl h1.setFld.withTrust fun _ _ h => h.sendSigned

theorem Dev.Aged.auditCounts (h : d.Aged T) : d.auditCounts.Aged T := .ite h.withTrust.journal h

theorem Dev.Aged.signatureFailed {role} (h : d.Aged T) : (d.signatureFailed role).Aged T :=
  .ite h.withTrust.present h.withTrust

theorem Dev.Aged.blockFailed {role status} (h : d.Aged T) : (d.blockFailed role status).Aged T := by
  unfold Dev.blockFailed
  extract_lets d1 d2
  have h1 : d1.Aged T := .ite h.count h.count
  have h2 : d2.Aged T := .ite h1.flag h1
  exact (Dev.Aged.ite h2.signatureFailed h2).withTrust.auditCounts

theorem Dev.Aged.recordBlock {c status} (h : d.Aged T) : (d.recordBlock c status).Aged T := h.withPersist.journal

theorem Dev.Aged.installFailed {c} (h : d.Aged T) : (d.installFailed c).Aged T :=
  .ite (.ite h.checkSlot h.checkSlot.journal) h

theorem Dev.Aged.judgeSigned {c seed} (h : d.Aged T) : (d.judgeSigned c seed).2.2.Aged T :=
  .iteThd h.cmdStat (.iteThd h.refuse.cmdStat (.iteThd h.recordBlock.judge
    (.iteThd h.recordBlock.installFailed.refuse.cmdStat h.recordBlock.cmdStat.signedEffect.withGrantEnd)))

theorem Dev.Aged.runBlock {c fmt dev sig seed} (h : d.Aged T) : (d.runBlock c fmt dev sig seed).Aged T :=
  .ite h.blockFailed.answerBlock (.ite h.judgeSigned h.judgeSigned.answerBlock)

theorem Dev.Aged.blockArrives {b} (h : d.Aged T) : (d.blockArrives b).Aged T := .ite h.answerBlock h.withTrust

theorem Dev.Aged.signedRow {code b seeds} (h : d.Aged T) : (Machine.signedRow code b d seeds).Aged T :=
  .ite h.blockArrives h.runBlock

theorem Dev.Aged.takeFragment {f} (h : d.Aged T) : (d.takeFragment f).Aged T :=
  .ite h (.ite h.count (.ite h.withTrust.blockArrives h.withTrust))

theorem Dev.Aged.fragmentReceive (h : d.Aged T) : (Machine.fragmentReceive d).Aged T := by
  unfold Machine.fragmentReceive
  split
  · exact h
  · exact h.withTrust.takeFragment

theorem Dev.Aged.reassemblyTimeout (h : d.Aged T) : (Machine.reassemblyTimeout d).Aged T := by
  unfold Machine.reassemblyTimeout
  split
  · exact h.withTrust.count
  · exact h

theorem Dev.Aged.blockCheck (h : d.Aged T) : (Machine.blockCheck d).Aged T := by
  unfold Machine.blockCheck
  split
  · exact h
  · split
    · exact h
    · extract_lets
      split
      · exact h.withTrust.runBlock
      · exact .runBlock (.iteSnd h.withTrust.fresh h.withTrust)

theorem Dev.Aged.attReady (h : d.Aged T) : (Machine.attReady d).Aged T := .ite h.withTrust h

theorem Dev.Aged.entropyFailed (h : d.Aged T) : (Machine.entropyFailed d).Aged T :=
  (Dev.Aged.ite h.withTrust h).flag.present

theorem Dev.Aged.grantEnd (h : d.Aged T) : (Machine.grantEnd d).Aged T := by
  unfold Machine.grantEnd
  split
  · exact .ite h.grantEnded h
  · exact h

/-! ### IoPort -/

theorem Dev.Aged.ioRead {a peek} (h : d.Aged T) : (d.ioRead a peek).2.2.Aged T := by
  unfold Dev.ioRead
  split
  · exact h
  · exact .ite h h.setWord

theorem Dev.Aged.dmaBegin {e j trig} (h : d.Aged T) : (d.dmaBegin e j trig).Aged T := h.withDma.flag

theorem Dev.Aged.dmaStart {e j sw} (h : d.Aged T) : (Machine.dmaStart e j sw d).Aged T := by
  unfold Machine.dmaStart
  split
  · exact h
  · split
    · exact .ite h.flag h.dmaBegin
    · split
      · exact h
      · split
        · exact h.setLatch.dmaBegin
        · exact h

theorem Dev.Aged.configWrite {a w} (h : d.Aged T) : (d.configWrite a w).Aged T := .ite h.storeReg h.refuse

theorem Dev.Aged.sysctlWrite {m user a w} (h : d.Aged T) : (d.sysctlWrite m user a w).Aged T :=
  .ite (.ite h h.issueCommand) (.ite (.ite h.configWrite.withPersist.journal h.configWrite)
    (.ite h.configWrite h.storeReg))

theorem Dev.Aged.pairctlWrite {a w} (h : d.Aged T) : (d.pairctlWrite a w).Aged T :=
  .ite (Dev.Aged.ite h.storeReg h.storeReg.setFld).capture
    (.ite h.designate (.ite (.ite h.cmptestStart h) h.storeReg))

theorem Dev.Aged.intcWrite {a w} (h : d.Aged T) : (d.intcWrite a w).Aged T :=
  .ite (.ite h.setFld h) (.ite (.foldl h fun _ _ h => .ite h.clearEdge h)
    (.ite h.swset (.ite h.storeReg.capture h.storeReg)))

theorem Dev.Aged.evtmxWrite {a w} (h : d.Aged T) : (d.evtmxWrite a w).Aged T :=
  .ite (.ite h.cenWrite (.ite h.cenWrite (.ite (.ite h.storeReg.watchTake h.storeReg) h.storeReg))) h.storeReg

theorem Dev.Aged.lanternWrite {a w} (h : d.Aged T) : (d.lanternWrite a w).Aged T :=
  .ite (.ite h.timebaseWrite (.ite (.ite h.storeReg.restartTb h.storeReg)
    (.ite h.lineSample (.ite h.adjWrite h.storeReg))))
    (.ite (.ite h.cmpWrite (.ite h.storeReg.setFld h.storeReg)) h.storeReg)

theorem Dev.Aged.safeislWrite {a w} (h : d.Aged T) : (d.safeislWrite a w).Aged T :=
  .ite (.ite h.clearFaultCounts h) (.ite h.logAck (.ite (.ite h.storeReg.setFld h.storeReg)
    (.ite h.reactWrite h.storeReg)))

theorem Dev.Aged.keeperWrite {m user a w} (h : d.Aged T) : (d.keeperWrite m user a w).Aged T :=
  .ite h (.ite h.keeperEnable (.ite (.ite h.storeReg h.storeReg.setFld)
    (.ite h.service (.ite (.ite h.evstatClear h) (.ite (.ite h.storeReg h.storeReg.setFld) h.storeReg)))))

theorem Dev.Aged.ethWrite {a w} (h : d.Aged T) : (d.ethWrite a w).Aged T :=
  .ite (.ite h.configWrite.withPersist.journal h.configWrite) (.ite h.configWrite h.storeReg)

theorem Dev.Aged.canWrite {a w} (h : d.Aged T) : (d.canWrite a w).Aged T :=
  .ite (.ite h.storeReg (.ite h.storeReg.setFld (.ite h.storeReg.setFld (.ite (.ite h.startRecovery h) h.storeReg))))
    h.storeReg

theorem Dev.Aged.nvsWrite {m a w} (h : d.Aged T) : (d.nvsWrite m a w).Aged T :=
  .ite h.appendWrite (.ite h.slotctlWrite h.storeReg)

theorem Dev.Aged.testWrite {a w} (h : d.Aged T) : (d.testWrite a w).Aged T :=
  .ite h.bistctlWrite (.ite h.offer h.storeReg)

theorem Dev.Aged.powerWrite {a w} (h : d.Aged T) : (d.powerWrite a w).Aged T := .ite h.withPower h.storeReg

theorem Dev.Aged.dmaWrite {a w} (h : d.Aged T) : (d.dmaWrite a w).Aged T := .ite h.storeReg.dmaStart h.storeReg

theorem Dev.Aged.blockWrite {m user a w} (h : d.Aged T) : (d.blockWrite m user a w).Aged T := by
  unfold Dev.blockWrite
  split
  · exact h.sysctlWrite
  · exact h.pairctlWrite
  · exact h.intcWrite
  · exact .ite h.enableWrite h.storeReg
  · exact .ite h.etctlWrite h.storeReg
  · exact h.evtmxWrite
  · exact h.lanternWrite
  · exact h.pwmWrite
  · exact h.sdfWrite
  · exact h.adcWrite
  · exact h.posWrite
  · exact h.safeislWrite
  · exact h.keeperWrite
  · exact h.ethWrite
  · exact h.canWrite
  · exact h.buoyWrite
  · exact h.nvsWrite
  · exact h.testWrite
  · exact h.powerWrite
  · exact h.dmaWrite
  · exact h.storeReg

theorem Dev.Aged.ioWrite {m user a w} (h : d.Aged T) : (d.ioWrite m user a w).2.Aged T := .iteSnd h.blockWrite h

theorem Dev.Aged.registerWrite {m user a w} (h : d.Aged T) : (Machine.registerWrite m user a w d).Aged T := by
  unfold Machine.registerWrite
  extract_lets
  split
  · exact h.denied
  · exact h.ioWrite

/-! ### Target -/

theorem Dev.Aged.readBundle {map lp} : ∀ {n} {d : Dev} {a}, d.Aged T → (d.readBundle map lp a n).2.2.Aged T
  | 0, _, _, h => h
  | _ + 1, _, _, h => .iteThd h.targetRead h.targetRead.readBundle

theorem Dev.Aged.readFill {r} : ∀ {n} {d : Dev} {a first}, d.Aged T → (d.readFill r a first n).2.2.Aged T
  | 0, _, _, _, h => h
  | n + 1, d, a, first, h => by
    rw [Dev.readFill]
    split
    · exact h.denied
    · split
      next ws code d1 hr =>
        have h1 : d1.Aged T := .of_thd hr h.readBundle
        exact .iteThd h1 h1.readFill

theorem Dev.Aged.openLock {lp inst addr} (h : d.Aged T) : (d.openLock lp inst addr).Aged T :=
  h.dropLock.clearBroken.withFab

theorem Dev.Aged.perform {r} (h : d.Aged T) : (d.perform r).2.2.2.Aged T := by
  unfold Dev.perform
  extract_lets q lp o cut store
  have hs : ∀ {e : Dev}, e.Aged T → (store e).2.2.2.Aged T := fun he => he.targetWrite
  split
  · exact h.targetRead
  · split
    · split
      next hr =>
        have h1 := Dev.Aged.of_thd hr h.targetRead
        split
        · exact h1.openLock
        · exact h1
    · exact h
  · exact hs h
  · exact hs h.dropLock
  · exact h.dropLock
  · split
    · split
      next hr =>
        have h1 := Dev.Aged.of_thd hr h.bankRead
        split
        · exact h1
        · exact h1.bankWrite
    · exact h
  · split
    · split
      next hr =>
        have h1 := Dev.Aged.of_thd hr h.bankRead
        split
        · exact h1
        · exact h1.bankWrite
    · exact h
  · exact h.readFill
  · exact .ite h.ioRead.syncDone h.ioRead
  · exact h.ioWrite
  · exact h
  · exact h

theorem Dev.Aged.deliverAnswer {r value code words} (h : d.Aged T) : (d.deliverAnswer r value code words).Aged T :=
  .ite h.answer h.respond

theorem Dev.Aged.ungrant {id} (h : d.Aged T) : (d.ungrant id).Aged T := h.withFab

theorem Dev.Aged.dropHeld {r} (h : d.Aged T) : (d.dropHeld r).Aged T := h.withFab

theorem Dev.Aged.accessNow {r} (h : d.Aged T) : (d.accessNow r).Aged T :=
  .ite h (.ite h.dropHeld.ungrant.clearBroken.respondError
    (.ite h.dropHeld.perform.ungrant.deliverAnswer h.dropHeld.perform))

theorem Dev.Aged.collided {a b inst word} (h : d.Aged T) : (d.collided a b inst word).Aged T :=
  h.count.flag.setFld.setFld.setFld

theorem Dev.Aged.sameWord {a b inst word} (h : d.Aged T) : (d.sameWord a b inst word).Aged T := by
  unfold Dev.sameWord
  split
  · extract_lets d1
    have h1 : d1.Aged T := h.accessNow.collided
    exact .ite h1.lostWrite h1.dropHeld.ungrant.respondError
  · exact .ite h.accessNow.accessNow h.accessNow.accessNow

theorem Dev.Aged.resend {id} (h : d.Aged T) : (d.resend id).Aged T := by
  unfold Dev.resend
  split
  · exact h
  · exact h.dropHeld.deliverAnswer

theorem Dev.Aged.targetAccess {ids} (h : d.Aged T) : (Machine.targetAccess ids d).Aged T := by
  unfold Machine.targetAccess
  split
  · split
    · split
      · exact .ite (.ite h.sameWord h.sameWord) h.accessNow.accessNow
      · exact h.accessNow.accessNow
    · exact h.accessNow.resend
    · exact h.resend.accessNow
    · exact h.resend.resend
  · refine .foldl h fun _ _ h => ?_
    split
    · exact h.accessNow
    · exact h.resend

theorem Dev.Aged.protFailed {master response} (h : d.Aged T) : (d.protFailed master response).Aged T :=
  h.flag.count.setFld.setFld.present

theorem Dev.Aged.fabProt {id response} (h : d.Aged T) : (Machine.fabProt id response d).Aged T := by
  unfold Machine.fabProt
  split
  · next r hr =>
    refine .ite h.ungrant.withFab.protFailed (.ite h.ungrant.respondError.protFailed (.ite h ?_))
    extract_lets broken d1
    have h1 : d1.Aged T := h.dropHeld
    clear_value d1
    split
    next v code ws d2 hp =>
      have h2 : d2.Aged T := by
        split at hp
        · cases hp
          exact h1.clearBroken
        · have hq := h1.perform (r := r)
          rw [hp] at hq
          exact hq
      have h3 : (Dev.Aged T) (if r.req.rel then ((d2.ungrant id).protFailed r.lpair true).respond r v code
          else (d2.ungrant id).protFailed r.lpair true) := .ite h2.ungrant.protFailed.respond h2.ungrant.protFailed
      exact .ite h2.protFailed (.ite h2.ungrant.protFailed.withFab (.ite h3.flag.presentPair.mismatch h3))
  · split
    · exact .ite h.dropHeld.protFailed.deliverAnswer h
    · exact h

theorem Dev.Aged.mpuSync {m} (h : d.Aged T) : (Machine.mpuSync m d).Aged T := by
  unfold Machine.mpuSync
  split
  · exact h.accessNow
  · exact .ite h.syncDone h

/-! ### Debug -/

theorem Dev.Aged.reply {status tag payload} (h : d.Aged T) : (d.reply status tag payload).Aged T := h.withTdr

theorem Dev.Aged.received {code} (h : d.Aged T) : (d.received code).Aged T := .ite h.withTdr h.withTdr.withTdr

theorem Dev.Aged.rate {l n fi detail} (h : d.Aged T) : (d.rate l n fi detail).2.Aged T := .iteSnd h.present h

theorem Dev.Aged.lineError (h : d.Aged T) : (Machine.lineError d).Aged T := h.count.flag.rate.withTdr

theorem Dev.Aged.resetPulse (h : d.Aged T) : (Machine.resetPulse d).Aged T := h.deviceReset.count

theorem Dev.Aged.badFrame (h : d.Aged T) : (Machine.badFrame d).Aged T := h.reply

theorem Dev.Aged.debugDenied {tag} (h : d.Aged T) : (d.debugDenied tag).Aged T := h.count.flag.rate.withTdr.reply

theorem Dev.Aged.sessionCommand {code tag allowed f} (h : d.Aged T) (hf : ∀ e : Dev, e.Aged T → (f e).Aged T) :
    (d.sessionCommand code tag allowed f).Aged T :=
  .ite h.received.reply (.ite h.received.reply (.ite h.received.debugDenied (hf _ h.received)))

theorem Dev.Aged.attach {tag} (h : d.Aged T) : (Machine.attach tag d).Aged T :=
  .ite h.received.reply (Dev.Aged.ite h.received h.received.setFld.flag.flag).reply

theorem Dev.Aged.closeSession (h : d.Aged T) : d.closeSession.Aged T := .ite h.endGrant.endSession h

theorem Dev.Aged.detach {tag} (h : d.Aged T) : (Machine.detach tag d).Aged T := h.received.closeSession.reply

theorem Dev.Aged.sessionIdle (h : d.Aged T) : (Machine.sessionIdle d).Aged T := .ite h.closeSession h

theorem Dev.Aged.debugStatus {tag} (h : d.Aged T) : (Machine.debugStatus tag d).Aged T := h.received.reply

theorem Dev.Aged.readBeats : ∀ {l : List (Nat × Nat)} {d : Dev}, d.Aged T → (d.readBeats l).2.2.Aged T
  | [], _, h => h
  | (a, n) :: t, d, h => by
    rw [Dev.readBeats]
    split
    · exact h.denied
    · refine .iteThd h ?_
      split
      next b code d1 hr =>
        have h1 : d1.Aged T := by
          refine .of_thd hr ?_
          split
          · exact h.takeFailure
          · exact h.served.readPieces
        exact .iteThd h1 h1.readBeats

theorem Dev.Aged.writeBeats : ∀ {l : List (Nat × Nat)} {d : Dev} {bytes}, d.Aged T → (d.writeBeats bytes l).2.Aged T
  | [], _, _, h => h
  | (a, n) :: t, d, bytes, h => by
    rw [Dev.writeBeats]
    split
    · exact h.denied
    · refine .iteSnd h ?_
      split
      next code d1 hr =>
        have h1 : d1.Aged T := by
          refine .of_snd hr ?_
          split
          · exact h.takeFailure
          · exact h.served.writePieces
        exact .iteSnd h1 h1.writeBeats

theorem Dev.Aged.readRegs {live} : ∀ {n} {d : Dev} {a}, d.Aged T → (d.readRegs live a n).2.2.Aged T
  | 0, _, _, h => h
  | n + 1, d, a, h => by
    rw [Dev.readRegs]
    split
    · exact h.denied
    · split
      next v code d1 hr =>
        have h1 : d1.Aged T := by
          refine .of_thd hr ?_
          split
          · exact h.takeFailure
          · exact h.served.ioRead
        exact .iteThd h1 (Dev.Aged.readRegs (.ite h1.syncDone h1))

theorem Dev.Aged.writeRegs : ∀ {n} {d : Dev} {bytes a}, d.Aged T → (d.writeRegs bytes a n).2.Aged T
  | 0, _, _, _, h => h
  | n + 1, d, bytes, a, h => by
    rw [Dev.writeRegs]
    split
    · exact h.denied
    · split
      next code d1 hr =>
        have h1 : d1.Aged T := by
          refine .of_snd hr ?_
          split
          · exact h.takeFailure
          · exact h.served.ioWrite
        exact .iteSnd h1 h1.writeRegs

theorem Dev.Aged.debugRun {q} (h : d.Aged T) : (d.debugRun q).2.2.Aged T :=
  .iteThd (.iteThd h.writeRegs h.readRegs) (.iteThd h.writeBeats h.readBeats)

theorem Dev.Aged.transfer {tag q} (h : d.Aged T) : (d.transfer tag q).Aged T := by
  unfold Dev.transfer
  split
  · exact h.reply
  · split
    · exact h.withTdr.onHold
    · exact h.debugRun.reply

theorem Dev.Aged.retryWork (h : d.Aged T) : d.retryWork.Aged T := by
  unfold Dev.retryWork
  split
  · split
    · exact h.onHold
    · exact .ite h.debugRun.workResult h.debugRun.withTdr.reply
  · exact h

theorem Dev.Aged.pendingReply (h : d.Aged T) : (Machine.pendingReply d).Aged T := by
  unfold Machine.pendingReply
  extract_lets
  split
  · exact .ite h.retryWork.withTdr.reply h.retryWork
  · exact h.retryWork

theorem Dev.Aged.debugResult {tag} (h : d.Aged T) : (Machine.debugResult tag d).Aged T := by
  unfold Machine.debugResult
  extract_lets d1
  have h1 : d1.Aged T := h.received.retryWork
  split
  · split
    · split
      · exact h1.reply
      · exact h1.reply
    · exact h1.fresh.reply
  · exact h1.fresh.reply

theorem Dev.Aged.debugRead {tag q} (h : d.Aged T) : (Machine.debugRead tag q d).Aged T :=
  h.sessionCommand fun _ h => h.transfer

theorem Dev.Aged.debugWrite {tag q} (h : d.Aged T) : (Machine.debugWrite tag q d).Aged T :=
  h.sessionCommand fun _ h => h.transfer

theorem Dev.Aged.debugHalt {tag pairs} (h : d.Aged T) : (Machine.debugHalt tag pairs d).Aged T :=
  h.sessionCommand fun _ h => .reply (.foldl h fun _ _ h => .ite h h.capture)

theorem Dev.Aged.debugResume {tag pairs} (h : d.Aged T) : (Machine.debugResume tag pairs d).Aged T :=
  h.sessionCommand fun _ h => .reply (.foldl h fun _ _ h => h.resumeHeld)

theorem Dev.Aged.debugStep {tag lp n} (h : d.Aged T) : (Machine.debugStep tag lp n d).Aged T :=
  h.sessionCommand fun _ h => .ite h.reply (.ite h.reply h.capture.reply)

theorem Dev.Aged.setComparator {tag lp k addr mask ctl} (h : d.Aged T) :
    (Machine.setComparator tag lp k addr mask ctl d).Aged T :=
  h.sessionCommand fun _ h => h.setFld.setFld.setFld.setFld.setFld.reply

theorem Dev.Aged.readCore {tag lp area n off} (h : d.Aged T) : (Machine.readCore tag lp area n off d).Aged T :=
  h.sessionCommand fun _ h => .ite h.reply (.ite h.reply
    (.ite h.noteBoth.withTdr.mismatch (.ite h.noteBoth.reply h.noteBoth.reply)))

theorem Dev.Aged.imageFrom {lp off n c} (h : d.Aged T) : (d.imageFrom lp off n c).Aged T :=
  .foldl h fun _ _ h => h.mirrorWord

theorem Dev.Aged.writeCore {tag lp area off bytes} (h : d.Aged T) :
    (Machine.writeCore tag lp area off bytes d).Aged T :=
  h.sessionCommand fun _ h => .ite h.reply (.ite h.reply (.ite h.setPair.reply
    (.reply (.ite h.setPair.noteBoth.imageFrom h.setPair.noteBoth))))

theorem Dev.Aged.signedBlock {tag block} (h : d.Aged T) : (Machine.signedBlock tag block d).Aged T :=
  .ite h.received.reply h.received.withTdr.reply.blockArrives

theorem Dev.Aged.unknownRequest {tag} (h : d.Aged T) : (Machine.unknownRequest tag d).Aged T := h.received.reply

/-! ### Dma -/

theorem Dev.Aged.ioBeatRead {m} : ∀ {n} {d : Dev} {a}, d.Aged T → (d.ioBeatRead m a n).2.2.Aged T
  | 0, _, _, h => h
  | n + 1, d, a, h => by
    rw [Dev.ioBeatRead]
    split
    · exact h
    · exact h.takeFailure
    · split
      next v code d1 hr =>
        have h1 : d1.Aged T := by
          refine .of_thd hr ?_
          split
          · exact h.denied
          · exact .ite h.served.ioRead.syncDone h.served.ioRead
        exact .iteThd h1 h1.ioBeatRead

theorem Dev.Aged.ioBeatWrite {m} : ∀ {n} {d : Dev} {a bytes}, d.Aged T → (d.ioBeatWrite m a bytes n).2.Aged T
  | 0, _, _, _, h => h
  | n + 1, d, a, bytes, h => by
    rw [Dev.ioBeatWrite]
    split
    · exact h
    · exact h.takeFailure
    · split
      next code d1 hr =>
        have h1 : d1.Aged T := by
          refine .of_snd hr ?_
          split
          · exact h.denied
          · exact h.served.ioWrite
        exact .iteSnd h1 h1.ioBeatWrite

theorem Dev.Aged.dmaRead {m r a n} (h : d.Aged T) : (d.dmaRead m r a n).2.2.Aged T :=
  .iteThd (.iteThd h h.ioBeatRead) h.busRead

theorem Dev.Aged.dmaWriteBeat {m r a bytes} (h : d.Aged T) : (d.dmaWriteBeat m r a bytes).2.Aged T :=
  .iteSnd h.ioBeatWrite h.busWrite

theorem Dev.Aged.dmaCopy {m ch r} : ∀ {k} {d : Dev} {done}, d.Aged T → (d.dmaCopy m ch r done k).2.Aged T
  | 0, _, _, h => h
  | k + 1, d, done, h => by
    rw [Dev.dmaCopy]
    refine .iteSnd h ?_
    extract_lets n
    split
    next bytes e d1 hr =>
      have h1 : d1.Aged T := .of_thd hr h.dmaRead
      split
      · split
        next e d2 hw =>
          have h2 : d2.Aged T := .of_snd hw h1.dmaWriteBeat
          split
          · exact .iteSnd h2 h2.dmaCopy
          · exact h2
      · exact h1

theorem Dev.Aged.dmaFinish {e j code r} (h : d.Aged T) : (d.dmaFinish e j code r).Aged T :=
  (Dev.Aged.ite h.withDma.setFld.setFld.setBitOf h.withDma.setFld.setFld.setBitOf).consequence

theorem Dev.Aged.dmaTransferEnd {e j} (h : d.Aged T) : (Machine.dmaTransferEnd e j d).Aged T := by
  unfold Machine.dmaTransferEnd
  split
  · exact h
  · split
    next b x hc =>
      have h1 : x.Aged T := .of_snd hc h.dmaCopy
      split
      · exact h.onHold
      · exact .ite h1 h1.dmaFinish
      · exact .ite h1 h1.dmaFinish

/-! ### Tick -/

theorem Dev.Aged.tickPairs (h : d.Aged T) : d.tickPairs.Aged T := .foldl h fun _ _ h => .ite h.setPair h

theorem Dev.Aged.tickVin (h : d.Aged T) : d.tickVin.Aged T := .ite h.withPower h

theorem Dev.Aged.tickAge (h : d.Aged T) : d.tickAge.Aged T := .ite h.withAge h

theorem Dev.Aged.tickClocks (h : d.Aged T) : d.tickClocks.Aged T := .ite h h.endPwm.tickLantern.tickPwm.tickPins

theorem Dev.Aged.tickWork (h : d.Aged T) : d.tickWork.Aged T :=
  (Dev.Aged.ite h.deviceReset h).tryAppend.retryWork.auditCounts.drainPorts.canRetry

theorem Dev.Aged.tick (h : d.Aged T) : (Machine.tick d).Aged T :=
  .ite h (.ite h.withTicks.tickVin h.withTicks.tickClocks.tickPairs.tickVin.tickAge.tickWork)

/-! ### Step -/

/-- Where an outcome goes on, it goes on with a device that has only aged. -/
def AgedNext (T : TrustSt) (o : Host.Outcome State Fault Refusal) : Prop := ∀ t, o = .next t → t.dev.Aged T

variable {s t : State} {f : Dev → Dev}

theorem AgedNext.onLine (h : s.dev.Aged T) (hf : ∀ d : Dev, d.Aged T → (f d).Aged T) : AgedNext T (s.onLine f) := by
  rintro t ⟨⟩
  exact hf _ h

theorem AgedNext.onDev (h : s.dev.Aged T) (hf : ∀ d : Dev, d.Aged T → (f d).Aged T) : AgedNext T (s.onDev f) :=
  .onLine h fun _ h => .ite h (hf _ h)

theorem AgedNext.onClock (h : s.dev.Aged T) (hf : ∀ d : Dev, d.Aged T → (f d).Aged T) : AgedNext T (s.onClock f) :=
  .onDev h fun _ h => .ite h (hf _ h)

/-- Every command only ages the trust block: the lemma about what it does to the device, for each in turn. -/
theorem agedNext_exec (c : Instr) (h : s.dev.Aged T) : AgedNext T (exec c s) := by
  cases c with
  | bundleIssue => exact .onDev h fun _ h => h.bundleIssue
  | tagCompletion => exact .onDev h fun _ h => h.tagCompletion
  | captureInput => exact .onDev h fun _ h => h.captureInput
  | interruptEntry => exact .onDev h fun _ h => h.interruptEntry
  | preciseExceptionEntry => exact .onDev h fun _ h => h.preciseEntry
  | impreciseExceptionEntry => exact .onDev h fun _ h => h.impreciseEntry
  | expiryTrapEntry => exact .onDev h fun _ h => h.expiryEntry
  | returnRestore => exact .onDev h fun _ h => h.returnRestore
  | isafeStarve => exact .onDev h fun _ h => h.isafeStarve
  | interruptSourceEdge => exact .onDev h fun _ h => h.sourceEdge
  | interruptPresentation => exact .onDev h fun _ h => h.presentIrq
  | swsetWrite => exact .onDev h fun _ h => h.swset
  | checkpointDue => exact .onDev h fun _ h => h.checkpointDue
  | checkpointK0 => exact .onDev h fun _ h => h.checkpointK0
  | checkpointCommit => exact .onDev h fun _ h => h.checkpointCommit
  | commitBufferRelease => exact .onDev h fun _ h => h.release
  | deltaApplied => exact .onDev h fun _ h => h.deltaApplied
  | commitEntryFailure => exact .onDev h fun _ h => h.entryFailure
  | segOverrun => exact .onDev h fun _ h => h.segOverrun
  | lockstepMismatch => exact .onDev h fun _ h => h.mismatch
  | spareFirstBundle => exact .onDev h fun _ h => h.spareFirst
  | pairFence => exact .onDev h fun _ h => h.fencePair
  | spareDesignation => exact .onDev h fun _ h => h.designate
  | cmptestStart => exact .onDev h fun _ h => h.cmptestStart
  | timebaseSample => exact .onClock h fun _ h => h.timebaseSample
  | holdResume => exact .onClock h fun _ h => h.holdResume
  | lineSampleDelivery => exact .onDev h fun _ h => h.lineSample
  | adj => exact .onDev h fun _ h => h.adjWrite
  | timebaseEnable => exact .onDev h fun _ h => h.timebaseWrite
  | ltnLoss => exact .onClock h fun _ h => h.sourceLost
  | mainsLock => exact .onClock h fun _ h => h.mainsLock
  | holdover => exact .onClock h fun _ h => h.mainsLost
  | comparatorCrossing => exact .onClock h fun _ h => h.comparator
  | gateRelease => exact .onClock h fun _ h => h.gateRelease
  | carrierValley => exact .onClock h fun _ h => h.carrierValley
  | carrierPeak => exact .onClock h fun _ h => h.carrierPeak
  | pwmGroupEnable => exact .onDev h fun _ h => h.enableGroup
  | pwmSync => exact .onDev h fun _ h => h.pwmSync
  | swForce => exact .onDev h fun _ h => h.swForce
  | tripclr => exact .onDev h fun _ h => h.tripClear
  | tripLatchSet => exact .onClock h fun _ h => h.tripLatch
  | pwmPinerr => exact .onClock h fun _ h => h.pinError
  | sdfFilterOutput n bits => exact .onClock (f := fun d => d.sdfBits n bits) h fun _ h => h.sdfBits
  | sdfFastTrip n bits => exact .onClock (f := fun d => d.sdfBits n bits) h fun _ h => h.sdfBits
  | sdfCkloss => exact .onClock h fun _ h => h.clockLost
  | sdfSnapshot => exact .onClock h fun _ h => h.snapshot
  | adcSequenceStart => exact .onClock h fun _ h => h.adcSequenceStart
  | adcStart => exact .onDev h fun _ h => h.adcStart
  | adcSequenceDone => exact .onClock h fun _ h => h.adcDone
  | resolverSample => exact .onClock h fun _ h => h.resolverSample
  | abzEdge => exact .onClock h fun _ h => h.abzEdge
  | zIndexEdge => exact .onClock h fun _ h => h.zIndex
  | abzSampleDelivery => exact .onClock h fun _ h => h.abzDelivery
  | ssiFrame => exact .onClock h fun _ h => h.ssiFrame
  | targetAccess => exact .onDev h fun _ h => h.targetAccess
  | correctedWriteBack => exact .onDev h fun _ h => h.writeBack
  | scrubRead => exact .onDev h fun _ h => h.scrub
  | bucketLeak => exact .onDev h fun _ h => h.leak
  | etctlWrite => exact .onDev h fun _ h => h.etctlWrite
  | arbitrationGrant => exact .onDev h fun _ h => h.grant
  | requestUrgent => exact .onDev h fun _ h => h.urgent
  | fabProt => exact .onDev h fun _ h => h.fabProt
  | lockBreak => exact .onDev h fun _ h => h.lockBreak
  | mpuDeny => exact .onDev h fun _ h => h.deny
  | mpuEnable => exact .onDev h fun _ h => h.enableWrite
  | mpuSync => exact .onDev h fun _ h => h.mpuSync
  | eventEmission => exact .onDev h fun _ h => h.emission
  | eventDelivery => exact .onDev h fun _ h => h.delivery
  | waitRequestArrival => exact .onDev h fun _ h => h.waitArrival
  | evtLoop => exact .onDev h fun _ h => h.dropLoop
  | cenWrite => exact .onDev h fun _ h => h.cenWrite
  | watchInputTake => exact .onDev h fun _ h => h.watchTake
  | faultProcessing => exact .onDev h fun _ h => h.processFault
  | islVote => exact .onDev h fun _ h => h.dropLane
  | laneResync => exact .onDev h fun _ h => h.resyncLanes
  | laneDisagreementReset => exact .onDev h fun _ h => h.lanesDiffer
  | hourlyFaultCounts => exact .onDev h fun _ h => h.hourlyCounts
  | logreadAck => exact .onDev h fun _ h => h.logAck
  | clrcnt => exact .onDev h fun _ h => h.clearFaultCounts
  | reactWrite => exact .onDev h fun _ h => h.reactWrite
  | keeperEnable => exact .onDev h fun _ h => h.keeperEnable
  | svcWrite => exact .onDev h fun _ h => h.service
  | checkIn => exact .onDev h fun _ h => h.checkIn
  | windowClose => exact .onDev h fun _ h => h.windowClose
  | kprExpiry => exact .onDev h fun _ h => h.keeperExpiry
  | hardTimerEnd => exact .onDev h fun _ h => h.hardTimerEnd
  | keeperClockTrip => exact .onDev h fun _ h => h.expireWith
  | evstatClear => exact .onDev h fun _ h => h.evstatClear
  | run => exact .onDev h fun _ h => h.issueCommand
  | safeStop => exact .onDev h fun _ h => h.issueCommand
  | standby => exact .onDev h fun _ h => h.issueCommand
  | standbyCompletion => exact .onDev h fun _ h => h.standbyComplete
  | enterConfig => exact .onDev h fun _ h => h.issueCommand
  | makerTest => exact .onDev h fun _ h => h.issueCommand
  | clearFog => exact .onDev h fun _ h => h.issueCommand
  | unfence => exact .onDev h fun _ h => h.issueCommand
  | reset => exact .onDev h fun _ h => h.issueCommand
  | unknownCommand => exact .onDev h fun _ h => .ite h h.issueCommand
  | deviceReset => exact .onDev h fun _ h => h.resetAndStart
  | bootConfirmExpiry => exact .onDev h fun _ h => h.confirmExpiry
  | wake => exact .onDev h fun _ h => h.wakeUp
  | powerOnReset => exact .onLine h fun _ h => h.powerOn
  | portLoss => exact .onLine h fun _ h => .ite h.setPort h.portLoss
  | lowin => exact .onLine h fun _ h => h.setPort
  | pfail => exact .onLine h fun _ h => h.pfailLine
  | rideEnd => exact .onDev h fun _ h => h.rideEnd
  | powerFailSealDone => exact .onDev h fun _ h => h.sealDone
  | inputReturn => exact .onDev h fun _ h => h.inputReturn
  | converterStop => exact .onLine h fun _ h => h.converterStop
  | temperatureSample => exact .onLine h fun _ h => h.temperature
  | supplyOverload => exact .onDev h fun _ h => h.supplyOverload
  | v5on => exact .onDev h fun _ h => h.withPower
  | v3on => exact .onDev h fun _ h => h.withPower
  | clockLoss => exact .onDev h fun _ h => h.clockLoss
  | sstop => exact .onLine h fun _ h => h.sstop
  | sstopDiscrep => exact .onDev h fun _ h => h.sstopDiscrep
  | switchForward => exact .onDev h fun _ h => h.switchFrame
  | ethLink => exact .onDev h fun _ h => h.linkChange
  | safetyMessageReceive => exact .onDev h fun _ h => h.messageReceive
  | rawFrameReceive => exact .onDev h fun _ h => h.rawReceive
  | txDescriptorSend => exact .onDev h fun _ h => h.txSend
  | txrGatedTrigger => exact .onDev h fun _ h => h.txGated
  | gptpSyncChange => exact .onDev h fun _ h => h.syncInterval
  | timePulse => exact .onDev h fun _ h => h.timePulse
  | epochWrap => exact .onDev h fun _ h => h.epochWrap
  | canFrameReceive => exact .onDev h fun _ h => h.canReceive
  | canFrameSend => exact .onDev h fun _ h => h.canSend
  | canBusoff => exact .onDev h fun _ h => h.goBusOff
  | busoffAutoRecovery => exact .onDev h fun _ h => h.busRecovered
  | recover => exact .onDev h fun _ h => h.startRecovery
  | canWakePattern => exact .onDev h fun _ h => h.canWake
  | buoyListStart => exact .onClock h fun _ h => h.listStart
  | buoyStart => exact .onDev h fun _ h => h.startLists
  | buoyTransactionSend => exact .onClock h fun _ h => h.buoySend
  | buoyReplyReceive => exact .onClock h fun _ h => h.buoyReceive
  | buoyDeadline => exact .onClock h fun _ h => h.buoyDeadlinePass
  | buoyWaitEnd => exact .onClock h fun _ h => h.buoyWaitEnd
  | buoyCycleComplete => exact .onClock h fun _ h => h.cycleComplete
  | buoyEnum => exact .onDev h fun _ h => h.enumerate
  | buoyBreak => exact .onClock h fun _ h => h.ringBreak
  | buoyHeal => exact .onClock h fun _ h => h.ringHeal
  | buoyMem => exact .onClock h fun _ h => h.memFailure
  | signedFragmentReceive => exact .onDev h fun _ h => h.fragmentReceive
  | reassemblyTimeout => exact .onDev h fun _ h => h.reassemblyTimeout
  | signedBlockCheck => exact .onDev h fun _ h => h.blockCheck
  | enrolMaker => exact .onDev h fun _ h => h.signedRow
  | provision => exact .onDev h fun _ h => h.signedRow
  | genkey => exact .onDev h fun _ h => h.signedRow
  | attkeyReady => exact .onDev h fun _ h => h.attReady
  | trustEntropy => exact .onDev h fun _ h => h.entropyFailed
  | deploy => exact .onDev h fun _ h => h.signedRow
  | returnToMaker => exact .onDev h fun _ h => h.signedRow
  | scrap => exact .onDev h fun _ h => h.signedRow
  | revokeRoot => exact .onDev h fun _ h => h.signedRow
  | setOproot => exact .onDev h fun _ h => h.signedRow
  | setKey => exact .onDev h fun _ h => h.signedRow
  | setPolicy => exact .onDev h fun _ h => h.signedRow
  | install => exact .onDev h fun _ h => h.signedRow
  | debugGrant => exact .onDev h fun _ h => h.signedRow
  | grantEnd => exact .onDev h fun _ h => h.grantEnd
  | attest => exact .onDev h fun _ h => h.signedRow
  | journalSeal => exact .onDev h fun _ h => h.sealOpen
  | sealPeriod => exact .onDev h fun _ h => h.sealPeriod
  | append => exact .onDev h fun _ h => h.appendWrite
  | chainVerify => exact .onDev h fun _ h => h.chainVerify
  | compaction => exact .onDev h fun _ h => h.compact
  | blockRemap => exact .onDev h fun _ h => h.blockRemap
  | erase => exact .onDev h fun _ h => h.slotctlWrite
  | program => exact .onDev h fun _ h => h.slotctlWrite
  | finish => exact .onDev h fun _ h => h.slotctlWrite
  | bistStart => exact .onDev h fun _ h => h.bistStart
  | bistConditionCheck => exact .onDev h fun _ h => h.bistCheck
  | bistEnd => exact .onDev h fun _ h => h.bistEnd
  | repair => exact .onDev h fun _ h => h.repair
  | watchPeriodEnd => exact .onDev h fun _ h => h.watchPeriodEnd
  | marchWord => exact .onDev h fun _ h => h.marchWord
  | offer => exact .onDev h fun _ h => h.offer
  | offerAbandon => exact .onDev h fun _ h => h.offerAbandon
  | spareSlice => exact .onDev h fun _ h => h.spareSlice
  | loopback => exact .onDev h fun _ h => h.loopback
  | voltageAdjust => exact .onDev h fun _ h => h.voltageAdjust
  | marginPlannerRun => exact .onDev h fun _ h => h.plannerRun
  | resetPulse => exact .onDev h fun _ h => h.resetPulse
  | lineError => exact .onDev h fun _ h => h.lineError
  | badframe => exact .onDev h fun _ h => h.badFrame
  | pendingReply => exact .onDev h fun _ h => h.pendingReply
  | attach => exact .onDev h fun _ h => h.attach
  | detach => exact .onDev h fun _ h => h.detach
  | sessionIdleTimeout => exact .onDev h fun _ h => h.sessionIdle
  | status => exact .onDev h fun _ h => h.debugStatus
  | result => exact .onDev h fun _ h => h.debugResult
  | signed => exact .onDev h fun _ h => h.signedBlock
  | halt => exact .onDev h fun _ h => h.debugHalt
  | resume => exact .onDev h fun _ h => h.debugResume
  | step => exact .onDev h fun _ h => h.debugStep
  | setcomp => exact .onDev h fun _ h => h.setComparator
  | rdcore => exact .onDev h fun _ h => h.readCore
  | wrcore => exact .onDev h fun _ h => h.writeCore
  | read => exact .onDev h fun _ h => h.debugRead
  | write => exact .onDev h fun _ h => h.debugWrite
  | debugUnknown => exact .onDev h fun _ h => h.unknownRequest
  | dmaChannelStart => exact .onDev h fun _ h => h.dmaStart
  | dmaTransferEnd => exact .onDev h fun _ h => h.dmaTransferEnd
  | registerWrite => exact .onDev h fun _ h => h.registerWrite
  | portSupplyReturn => exact .onLine h fun _ h => h.setPort
  | sstopReenergised => exact .onLine h fun _ h => h.setSstop
  | sdfClockReturn => exact .onClock h fun _ h => h.clockReturns
  | sdfTripEnd n bits => exact .onClock (f := fun d => d.sdfBits n bits) h fun _ h => h.sdfBits
  | slotOperationDone => exact .onDev h fun _ h => h.slotDone
  | compactionEraseDone => exact .onDev h fun _ h => h.eraseDone
  | learningEntryAgeout => exact .onDev h fun _ h => h.ageOut

theorem Dev.Aged.step (h : s.dev.Aged T) (hs : Machine.step s = .next t) : t.dev.Aged T := by
  unfold Machine.step at hs
  split at hs
  · cases hs
    exact h.tick
  · next c rest _ => exact agedNext_exec (s := { s with pending := rest }) c h t hs

end

/-- LCS counts the state bits that are set (R485): with more of them set it is no lower. -/
theorem lcs_le_of_fuses {T t : TrustSt} (h : ∀ i, arrGet 0 T.lcsFuses i ≠ 0 → arrGet 0 t.lcsFuses i ≠ 0) :
    T.lcs ≤ t.lcs := by
  refine (List.monotone_filter_right _ fun i hi => ?_).length_le
  rw [bne_iff_ne] at hi ⊢
  exact h i hi

/-- Settles O58: a step from `s` leaves a device that has only aged since `s`. -/
theorem lifecycleNeverGoesBack : Obligations.LifecycleNeverGoesBack := by
  intro s t hs
  have h : t.dev.Aged s.dev.trust := Dev.Aged.step ⟨fun _ hi => hi, Nat.le_refl _⟩ hs
  exact ⟨fun i _ => h.fuses i, lcs_le_of_fuses h.fuses, h.anchor⟩

end Sys2Proof.Machine
end

section
/-! PROOFS. Step: a step takes the command at the front of the queue, and every command answers a next state
(`Obligations.StepTakesFrontCommand`). -/

set_option Elab.async false

namespace Sys2Proof.Machine

/-- Each command is an update of the device: it answers a next state and leaves the queue alone. -/
theorem exec_answers (c : Instr) (s : State) : ∃ e : Dev, exec c s = .next { s with dev := e } := by
  cases c <;> exact ⟨_, rfl⟩

theorem step_of_front {s : State} {c : Instr} {rest : List Instr} (h : s.pending = c :: rest) :
    step s = exec c { s with pending := rest } := by
  rw [step, h]

theorem step_of_empty {s : State} (h : s.pending = []) : step s = .next { s with dev := tick s.dev } := by
  rw [step, h]

/-- Settles O53: the queue's head decides what a step is, and each command updates the device alone. -/
theorem stepTakesFrontCommand : Obligations.StepTakesFrontCommand := by
  refine ⟨fun s c rest h => step_of_front h, fun s h => ⟨_, step_of_empty h, h, rfl⟩, fun c s => ?_, fun s => ?_⟩
  · obtain ⟨e, he⟩ := exec_answers c s
    exact ⟨_, he, rfl, trivial⟩
  · cases h : s.pending with
    | nil => exact ⟨_, step_of_empty h⟩
    | cons c rest =>
      obtain ⟨e, he⟩ := exec_answers c { s with pending := rest }
      exact ⟨_, (step_of_front h).trans he⟩

end Sys2Proof.Machine
end

section
/-! PROOFS. RegisterPlaces: what an update of one field leaves of a field at another place, and where a register with an
index stands in the I/O map (R28), read off its block's rows. -/

set_option Elab.async false

namespace Sys2Proof.Machine

/-! ### Fields by their places -/

section
variable {a lo w a' lo' w' : Nat} (d : Dev) (v : Nat)

/-- A field that shares no bit with the one set reads as before. The places are given in numbers, so that `omega` finds
two fields apart where they have an index. -/
theorem fld_setFld_off (h : a' ≠ a ∨ lo + w ≤ lo' ∨ lo' + w' ≤ lo) :
    (d.setFld ⟨a, lo, w⟩ v).fld ⟨a', lo', w'⟩ = d.fld ⟨a', lo', w'⟩ := fld_setFld_apart d v h

theorem fld_flag_off (h : a' ≠ a ∨ lo + w ≤ lo' ∨ lo' + w' ≤ lo) :
    (d.flag ⟨a, lo, w⟩).fld ⟨a', lo', w'⟩ = d.fld ⟨a', lo', w'⟩ := fld_setFld_apart d 1 h

theorem fld_count_off (h : a' ≠ a ∨ lo + w ≤ lo' ∨ lo' + w' ≤ lo) :
    (d.count ⟨a, lo, w⟩).fld ⟨a', lo', w'⟩ = d.fld ⟨a', lo', w'⟩ := fld_setFld_apart d _ h

theorem fld_setBitOf_off {i : Nat} (h : a' ≠ a ∨ lo + w ≤ lo' ∨ lo' + w' ≤ lo) :
    (d.setBitOf ⟨a, lo, w⟩ i).fld ⟨a', lo', w'⟩ = d.fld ⟨a', lo', w'⟩ := fld_setFld_apart d _ h

/-- A count by one stays at its field's highest value. -/
theorem fld_count_cut (h : lo + w ≤ 32) :
    (d.count ⟨a, lo, w⟩).fld ⟨a, lo, w⟩ = min (2 ^ w - 1) (d.fld ⟨a, lo, w⟩ + 1) := fld_count (f := ⟨a, lo, w⟩) h

/-- A bit set in a field leaves the field's other bits. -/
theorem testBit_setBitOf_cut {i j : Nat} (h : lo + w ≤ 32) (hj : j < w) :
    ((d.setBitOf ⟨a, lo, w⟩ i).fld ⟨a, lo, w⟩).testBit j = ((d.fld ⟨a, lo, w⟩).testBit j || decide (j = i)) := by
  rw [setBitOf_eq, fld_setFld_cut d _ h, Nat.testBit_mod_two_pow, testBit_withBit, decide_eq_true hj, Bool.true_and]

end

/-! ### Rows -/

section
variable {o off stride count i : Nat} {dims : List (Nat × Nat)} {r : Reg} {t : List (Nat × List (Nat × Nat) × Reg)}

theorem rowAt_plain_other (h : off ≠ o) : rowAt ((o, [], r) :: t) off = rowAt t off := by
  rw [rowAt]
  by_cases hlo : o ≤ off
  · simp only [if_pos hlo, dimIndex, if_neg (by omega : ¬ off - o = 0)]
  · simp only [if_neg hlo]

theorem rowAt_array_beyond (h : off < o ∨ o + stride * count ≤ off) (hs : 0 < stride) :
    rowAt ((o, [(stride, count)], r) :: t) off = rowAt t off := by
  rw [rowAt]
  by_cases hlo : o ≤ off
  · have hout : ¬ (off - o) / stride < count := by
      rw [Nat.div_lt_iff_lt_mul hs, Nat.mul_comm]
      omega
    simp only [if_pos hlo, dimIndex, if_neg hout]
  · simp only [if_neg hlo]

theorem rowAt_array_between (h : o ≤ off) (hs : (off - o) % stride ≠ 0) :
    rowAt ((o, [(stride, count)], r) :: t) off = rowAt t off := by
  rw [rowAt]
  simp only [if_pos h, dimIndex, if_neg hs, ite_self]

theorem rowAt_array_same (hi : i < count) (hs : 0 < stride) :
    rowAt ((o, [(stride, count)], r) :: t) (o + stride * i) = some (r, [i]) := by
  rw [rowAt]
  simp only [if_pos (Nat.le_add_right _ _), Nat.add_sub_cancel_left, dimIndex, Nat.mul_div_cancel_left i hs, if_pos hi,
    Nat.mul_mod_right, if_true]

end

/-! ### Locks (R14, R569) -/

theorem lockAddr_of_block {a o : Nat} {b : IoBlock} (hb : ioBlock (a / 0x10000) = some b) (hl : b.lock = some o)
    (hp : b.perPair = false) : lockAddr a = some (a / 0x10000 * 0x10000 + o) := by
  rw [lockAddr, hb]
  simp only [hl, hp, Bool.false_eq_true, if_false]

/-- A register of a block with one LOCK is locked exactly where LOCK holds 1. -/
theorem ioLocked_of_block {a k o : Nat} {b : IoBlock} (d : Dev) (ha : a / 0x10000 = k) (hb : ioBlock k = some b)
    (hl : b.lock = some o) (hp : b.perPair = false) :
    ioLocked d.io a = decide (d.fld ⟨k * 0x10000 + o, 0, 1⟩ = 1) := by
  rw [ioLocked, lockAddr_of_block (ha.symm ▸ hb) hl hp, ha]
  exact Nat.testBit_zero _

/-! ### The enables of the event matrix (R374) -/

theorem ioLocked_EVTMX {a : Nat} (d : Dev) (h : a / 0x10000 = 6) :
    ioLocked d.io a = decide (d.fld EVTMX_LOCK_LOCK = 1) := ioLocked_of_block d h rfl rfl rfl

/-- The rows of the event matrix before CEN0 end below it. -/
theorem rowAt_EVTMX {off : Nat} (h : 0x1000 ≤ off) : rowAt rowsEVTMX off = rowAt [
    (0x1000, [(0x10, 384)], .EVTMX_CEN0), (0x1004, [(0x10, 384)], .EVTMX_CEN1),
    (0x1008, [(0x10, 384)], .EVTMX_CSTAT), (0x100C, [(0x10, 384)], .EVTMX_CCNT)] off := by
  rw [rowsEVTMX, rowAt_plain_other (by omega), rowAt_plain_other (by omega), rowAt_plain_other (by omega),
    rowAt_array_beyond (by omega) (by omega), rowAt_plain_other (by omega), rowAt_array_beyond (by omega) (by omega),
    rowAt_array_beyond (by omega) (by omega), rowAt_array_beyond (by omega) (by omega),
    rowAt_array_beyond (by omega) (by omega)]

theorem regAt_cen0 {c : Nat} (hc : c < 384) : regAt (0x061000 + 0x10 * c) = some (.EVTMX_CEN0, [c]) := by
  have hblock : (0x061000 + 0x10 * c) / 0x10000 = 6 := by omega
  have hoff : (0x061000 + 0x10 * c) % 0x10000 = 0x1000 + 0x10 * c := by omega
  rw [regAt, hblock, hoff]
  exact (rowAt_EVTMX (by omega)).trans (rowAt_array_same hc (by decide))

theorem regAt_cen1 {c : Nat} (hc : c < 384) : regAt (0x061004 + 0x10 * c) = some (.EVTMX_CEN1, [c]) := by
  have hblock : (0x061004 + 0x10 * c) / 0x10000 = 6 := by omega
  have hoff : (0x061004 + 0x10 * c) % 0x10000 = 0x1004 + 0x10 * c := by omega
  rw [regAt, hblock, hoff]
  exact (rowAt_EVTMX (by omega)).trans
    ((rowAt_array_between (by omega) (by omega)).trans (rowAt_array_same hc (by decide)))

/-- Both registers of an input's enables are zero after reset (R374). -/
theorem regReset_cen {c : Nat} (hc : c < 384) : regReset (0x061000 + 0x10 * c) = 0 ∧ regReset (0x061004 + 0x10 * c) = 0 := by
  constructor
  · rw [regReset, regAt_cen0 hc]
    show BitVec.ofNat 32 (wordOf (fun f => f.resetAt c) fieldsEVTMX_CEN0) = 0
    simp [fieldsEVTMX_CEN0, wordOf, FieldRow.resetAt]
  · rw [regReset, regAt_cen1 hc]
    show BitVec.ofNat 32 (wordOf (fun f => f.resetAt c) fieldsEVTMX_CEN1) = 0
    simp [fieldsEVTMX_CEN1, wordOf, FieldRow.resetAt]

end Sys2Proof.Machine
end

section
/-! PROOFS. Events: which channels an event reaches and which inputs they trigger (R371 to R375,
`Obligations.ChannelWiring`), and what a delivery, a wait request, a loop and the writes of CEN and PEND leave
(R374 to R382, `Obligations.EventsDelivered`). -/

set_option Elab.async false

namespace Sys2Proof.Machine

section
variable {d e : Dev} {n p st : Nat}

/-! ### An edge at every pair (R175, R372) -/

/-- An edge touches the registers of INTC and the controller alone. -/
theorem edge_leaves (d : Dev) {lp s : Nat} (h : lp < 16) (hs : s < 256) :
    (d.edge lp s).evt = d.evt ∧ ∀ f : Fld, 0x030000 ≤ f.addr → (d.edge lp s).fld f = d.fld f := by
  unfold Dev.edge
  extract_lets x
  split
  · refine ⟨rfl, fun f hf => fld_setFld_apart _ _ (.inl ?_)⟩
    simp only [INTC_LOST_LOST]
    omega
  · exact ⟨rfl, fun f _ => rfl⟩

theorem edges_leave {s : Nat} (hs : s < 256) : ∀ (l : List Nat) (d : Dev), (∀ lp ∈ l, lp < 16) →
    (l.foldl (fun d lp => d.edge lp s) d).evt = d.evt ∧
    ∀ f : Fld, 0x030000 ≤ f.addr → (l.foldl (fun d lp => d.edge lp s) d).fld f = d.fld f
  | [], d, _ => ⟨rfl, fun _ _ => rfl⟩
  | lp :: t, d, h => by
    obtain ⟨hevt, hfld⟩ := edges_leave hs t (d.edge lp s) fun x hx => h x (List.mem_cons_of_mem _ hx)
    obtain ⟨hevt', hfld'⟩ := edge_leaves d (h lp List.mem_cons_self) hs
    exact ⟨hevt.trans hevt', fun f hf => (hfld f hf).trans (hfld' f hf)⟩

/-! ### Emissions (R372) -/

/-- `e` is `d` after the channels of `l` have each emitted the trigger `t`: what holds of every channel. -/
structure Dev.Emitted (d : Dev) (t : Trig) (l : List Nat) (e : Dev) : Prop where
  evt : e.evt = d.evt
  count : ∀ k < 64, e.fld (EVTMX_CNT_COUNT k) =
    if k ∈ l then min 65535 (d.fld (EVTMX_CNT_COUNT k) + 1) else d.fld (EVTMX_CNT_COUNT k)
  flag : ∀ k < 64, k ∈ l → (e.fld (EVTMX_CHFLAG_FLAG (k / 32))).testBit (k % 32) = true
  stamp : ∀ k < 64, k ∈ l → e.fld (EVTMX_STAMPLO_STAMP k) = t.stamp % 2 ^ 32

/-- What one emission that merges nothing leaves of each channel's registers. -/
theorem emitted_leaves (d : Dev) (t : Trig) (hn : n < 64) :
    (d.emitted n t false).evt = d.evt ∧
    (∀ k < 64, (d.emitted n t false).fld (EVTMX_CNT_COUNT k) =
      if k = n then min 65535 (d.fld (EVTMX_CNT_COUNT k) + 1) else d.fld (EVTMX_CNT_COUNT k)) ∧
    (∀ k < 64, (d.emitted n t false).fld (EVTMX_STAMPLO_STAMP k) =
      if k = n then t.stamp % 2 ^ 32 else d.fld (EVTMX_STAMPLO_STAMP k)) ∧
    (∀ k < 64, ((d.emitted n t false).fld (EVTMX_CHFLAG_FLAG (k / 32))).testBit (k % 32) =
      ((d.fld (EVTMX_CHFLAG_FLAG (k / 32))).testBit (k % 32) || decide (k = n))) := by
  obtain ⟨hevt, hfld⟩ := edges_leave (by omega : 128 + n < 256) (List.range 16)
    ((((d.count (EVTMX_CNT_COUNT n)).setBitOf (EVTMX_CHFLAG_FLAG (n / 32)) (n % 32)).setFld (EVTMX_STAMPLO_STAMP n)
      t.stamp).setFld (EVTMX_STAMPHI_STAMP n) (t.stamp / 2 ^ 32)) (fun _ h => List.mem_range.1 h)
  refine ⟨hevt, fun k hk => (hfld _ ?_).trans ?_, fun k hk => (hfld _ ?_).trans ?_, fun k hk => ?_⟩
  · simp only [EVTMX_CNT_COUNT]; omega
  · by_cases h : k = n
    · subst h
      simp (disch := omega) only [EVTMX_CNT_COUNT, EVTMX_CHFLAG_FLAG, EVTMX_STAMPLO_STAMP, EVTMX_STAMPHI_STAMP,
        fld_setFld_off, fld_setBitOf_off, fld_count_cut, if_true]
      rfl
    · simp (disch := omega) only [EVTMX_CNT_COUNT, EVTMX_CHFLAG_FLAG, EVTMX_STAMPLO_STAMP, EVTMX_STAMPHI_STAMP,
        fld_setFld_off, fld_setBitOf_off, fld_count_off, if_neg h]
  · simp only [EVTMX_STAMPLO_STAMP]; omega
  · by_cases h : k = n
    · subst h
      simp (disch := omega) only [EVTMX_STAMPLO_STAMP, EVTMX_STAMPHI_STAMP, fld_setFld_off, fld_setFld_cut, if_true]
    · simp (disch := omega) only [EVTMX_CNT_COUNT, EVTMX_CHFLAG_FLAG, EVTMX_STAMPLO_STAMP, EVTMX_STAMPHI_STAMP,
        fld_setFld_off, fld_setBitOf_off, fld_count_off, if_neg h]
  · rw [show (d.emitted n t false).fld (EVTMX_CHFLAG_FLAG (k / 32)) = _ from
      hfld _ (by simp only [EVTMX_CHFLAG_FLAG]; omega)]
    by_cases h : k / 32 = n / 32
    · rw [h]
      simp (disch := omega) only [EVTMX_CNT_COUNT, EVTMX_CHFLAG_FLAG, EVTMX_STAMPLO_STAMP, EVTMX_STAMPHI_STAMP,
        fld_setFld_off, fld_count_off, testBit_setBitOf_cut]
      congr 1
      exact decide_eq_decide.2 (by omega)
    · simp (disch := omega) only [EVTMX_CNT_COUNT, EVTMX_CHFLAG_FLAG, EVTMX_STAMPLO_STAMP, EVTMX_STAMPHI_STAMP,
        fld_setFld_off, fld_setBitOf_off, fld_count_off]
      rw [decide_eq_false (by omega : ¬ k = n), Bool.or_false]

theorem emitted_foldl (t : Trig) : ∀ (l : List Nat) (d : Dev), (∀ n ∈ l, n < 64) → l.Nodup →
    d.Emitted t l (l.foldl (fun d n => d.emitted n t false) d) := by
  intro l
  induction l using List.reverseRecOn with
  | nil => exact fun d _ _ => ⟨rfl, fun _ _ => by simp, fun _ _ h => by simp at h, fun _ _ h => by simp at h⟩
  | append_singleton l n ih =>
    intro d hl hnd
    obtain ⟨hndl, -, hdisj⟩ := List.nodup_append.1 hnd
    have hnot : n ∉ l := fun h => hdisj n h n (by simp) rfl
    have h := ih d (fun k hk => hl k (by simp [hk])) hndl
    rw [List.foldl_append, List.foldl_cons, List.foldl_nil]
    generalize l.foldl (fun d n => d.emitted n t false) d = e at h
    obtain ⟨hevt, hcount, hstamp, hflag⟩ := emitted_leaves e t (hl n (by simp))
    refine ⟨hevt.trans h.evt, fun k hk => ?_, fun k hk hm => ?_, fun k hk hm => ?_⟩
    · rw [hcount k hk, h.count k hk]
      by_cases hkn : k = n
      · subst hkn; simp [hnot]
      · simp [hkn]
    · rw [hflag k hk]
      rcases List.mem_append.1 hm with hm | hm
      · rw [h.flag k hk hm, Bool.true_or]
      · rw [decide_eq_true (List.mem_singleton.1 hm), Bool.or_true]
    · rw [hstamp k hk]
      split
      · rfl
      · next hkn => exact h.stamp k hk ((List.mem_append.1 hm).resolve_right fun hm => hkn (List.mem_singleton.1 hm))

/-! ### The inputs that listen (R374) -/

theorem mem_uniq {x : Nat} : ∀ l : List Nat, x ∈ uniq l ↔ x ∈ l
  | [] => Iff.rfl
  | [_] => Iff.rfl
  | y :: z :: t => by
    rw [uniq]
    split
    · next h => rw [mem_uniq (z :: t), h]; simp
    · rw [List.mem_cons, mem_uniq (z :: t), List.mem_cons (b := y)]

/-- A register that does not hold its reset word is listed in the map. -/
theorem mem_io_of_word {a : Nat} (h : d.word a ≠ regReset a) : (a, d.word a) ∈ d.io := by
  have key : ∀ (l : List (Nat × Word)) w, mapFind l a = some w → (a, w) ∈ l := by
    intro l
    induction l with
    | nil => exact fun _ h => nomatch h
    | cons x t ih =>
      obtain ⟨j, v⟩ := x
      intro w hw
      rw [mapFind] at hw
      split at hw
      · next hj => cases hw; rw [hj]; exact List.mem_cons_self
      · exact List.mem_cons_of_mem _ (ih w hw)
  rw [word_eq, mapGet] at h ⊢
  cases hf : mapFind d.io a with
  | none => rw [hf] at h; exact absurd rfl h
  | some w => exact key d.io w hf

/-- An input that listens to a channel has its CEN registers in the map. -/
theorem mem_listeningInputs {c : Nat} (hc : c < 384) (h : d.listens c n = true) : c ∈ d.listeningInputs := by
  have hmem : ∀ a, 0x061000 + 16 * c ≤ a → a < 0x061000 + 16 * c + 8 → regReset a = 0 →
      (∃ i, (fieldOf (d.word a) 0 32).testBit i = true) → c ∈ d.listeningInputs := by
    rintro a hlo hhi hreset ⟨i, hi⟩
    have hword : d.word a ≠ regReset a := fun hz => by simp [hreset ▸ hz, fieldOf] at hi
    refine (mem_uniq _).2 (List.mem_map.2 ⟨_, List.mem_filter.2 ⟨mem_io_of_word hword, ?_⟩, ?_⟩)
    · simp only [Bool.and_eq_true, decide_eq_true_eq]
      omega
    · simp only
      omega
  rw [Dev.listens] at h
  split at h
  · exact hmem _ (by omega) (by omega) (regReset_cen hc).1 ⟨_, h⟩
  · exact hmem (0x061004 + 0x10 * c) (by omega) (by omega) (regReset_cen hc).2 ⟨_, h⟩

/-! ### One event that reaches the matrix (R371 to R375) -/

/-- The channels that an event of producer `p` reaches. -/
def Dev.channelsOf (d : Dev) (p : Nat) : List Nat := (List.range 64).filter (fun n => d.channelTakes n p)

theorem mem_channelsOf : n ∈ d.channelsOf p ↔ n < 64 ∧ d.channelTakes n p = true := by
  rw [Dev.channelsOf, List.mem_filter, List.mem_range]

/-- What the channels emit of one event: its own trigger, at each channel that takes it. -/
theorem channelEmit_one (d : Dev) (p : Nat) (t : Trig) :
    ((List.range 64).filterMap fun ch => (d.channelEmit [(p, t)] ch).map fun x => (ch, x)) =
      (d.channelsOf p).map fun ch => (ch, t, false) := by
  have h : ∀ ch, ((d.channelEmit [(p, t)] ch).map fun x => (ch, x)) =
      if d.channelTakes ch p = true then some (ch, t, false) else none := by
    intro ch
    unfold Dev.channelEmit
    by_cases hc : d.channelTakes ch p = true
    · simp [hc, minStamp, maxOf]
    · simp [hc]
  simp only [h, Dev.channelsOf, ← List.filterMap_eq_map, List.filterMap_filter]
  rfl

/-- An input receives something exactly if it listens to a channel that emits. -/
theorem deliveryTo_isSome (es : List (Nat × Trig)) (c : Nat) :
    (∃ x, d.deliveryTo es c = some x) ↔ ∃ y ∈ es, d.listens c y.1 = true := by
  unfold Dev.deliveryTo
  cases h : es.filter (fun y => d.listens c y.1) with
  | nil =>
    refine ⟨fun ⟨_, hx⟩ => by simp at hx, fun ⟨y, hy, hl⟩ => ?_⟩
    exact absurd (List.mem_filter.2 ⟨hy, hl⟩) (h ▸ List.not_mem_nil)
  | cons y t =>
    have hy : y ∈ es.filter (fun y => d.listens c y.1) := h ▸ List.mem_cons_self
    exact ⟨fun _ => ⟨y, (List.mem_filter.1 hy).1, (List.mem_filter.1 hy).2⟩, fun _ => ⟨_, rfl⟩⟩

theorem input_of_deliveryTo {es : List (Nat × Trig)} {c : Nat} {x : Deliv} (h : d.deliveryTo es c = some x) :
    x.input = c := by
  unfold Dev.deliveryTo at h
  split at h
  · exact nomatch h
  · cases h; rfl

/-- The deliveries that one event brings about. -/
def Dev.dueOf (d : Dev) (p : Nat) (t : Trig) : List Deliv :=
  d.listeningInputs.filterMap (d.deliveryTo ((d.channelsOf p).map fun ch => (ch, t)))

theorem mem_dueOf {c : Nat} (t : Trig) (hc : c < 384) :
    (∃ x ∈ d.dueOf p t, x.input = c) ↔ ∃ n < 64, d.channelTakes n p = true ∧ d.listens c n = true := by
  constructor
  · rintro ⟨x, hx, rfl⟩
    obtain ⟨c, -, hdel⟩ := List.mem_filterMap.1 hx
    obtain ⟨y, hy, hl⟩ := (deliveryTo_isSome _ _).1 ⟨x, hdel⟩
    obtain ⟨n, hn, rfl⟩ := List.mem_map.1 hy
    rw [mem_channelsOf] at hn
    exact ⟨n, hn.1, hn.2, input_of_deliveryTo hdel ▸ hl⟩
  · rintro ⟨n, hn, htakes, hl⟩
    obtain ⟨x, hx⟩ := (deliveryTo_isSome (d := d) ((d.channelsOf p).map fun ch => (ch, t)) c).2
      ⟨(n, t), List.mem_map_of_mem (mem_channelsOf.2 ⟨hn, htakes⟩), hl⟩
    exact ⟨x, List.mem_filterMap.2 ⟨c, mem_listeningInputs hc hl, hx⟩, input_of_deliveryTo hx⟩

/-- One event of a hop below 7 that reaches the matrix: its channels emit, and its deliveries are due. -/
theorem emission_one {ev : Ev} (hev : d.evt.produced = [ev]) (hhop : ev.hop < 7) :
    let t : Trig := { stamp := ev.stamp.getD d.lanternTime, hop := ev.hop }
    let e := (d.channelsOf ev.prod).foldl (fun d n => d.emitted n t false) { d with evt := { d.evt with produced := [] } }
    emission 1 d =
      if (d.dueOf ev.prod t).isEmpty then e else { e with evt := { e.evt with due := e.evt.due ++ [d.dueOf ev.prod t] } } := by
  intro t
  have hready : d.evt.produced.filter (fun x => decide (x.hop < 7)) = [ev] := by rw [hev]; simp [hhop]
  have hloops : d.evt.produced.filter (fun x => !decide (x.hop < 7)) = [] := by rw [hev]; simp [hhop]
  unfold emission
  rw [hready, hloops]
  simp only [List.take_succ_cons, List.take_zero, List.map_cons, List.map_nil, channelEmit_one, List.map_map, List.foldl_map,
    List.drop_succ_cons, List.drop_nil, List.append_nil]
  rfl

/-- Settles O23: the channels that take the event each emit once, and the inputs that listen to one of them are due. -/
theorem channelWiring : Obligations.ChannelWiring := by
  intro s p st hop cons hp hhop hprod hdue takes
  refine completes_onDev rfl fun _ => ?_
  have htakes : ∀ n, takes n = s.dev.channelTakes n p := fun n => by
    simp only [takes, Dev.channelTakes, eq_comm]
  have hone := emission_one hprod hhop
  simp only [Option.getD_some] at hone
  have hemit := emitted_foldl { stamp := st, hop := hop } (s.dev.channelsOf p)
    { s.dev with evt := { s.dev.evt with produced := [] } } (fun n hn => (mem_channelsOf.1 hn).1)
    (List.nodup_range.filter _)
  show _ ∧ _ ∧ _ ∧ _
  rw [hone]
  generalize (s.dev.channelsOf p).foldl _ _ = e at hemit
  have hevt : e.evt.produced = [] ∧ e.evt.due = [] := by rw [hemit.evt]; exact ⟨rfl, hdue⟩
  have hmem : ∀ c < 384, (∃ x ∈ s.dev.dueOf p { stamp := st, hop := hop }, x.input = c) ↔
      ∃ n < 64, takes n = true ∧ s.dev.listens c n = true := fun c hc => by simp only [htakes, mem_dueOf _ hc]
  have hfields : (∀ n < 64, e.fld (EVTMX_CNT_COUNT n) =
        if takes n then min 65535 (s.dev.fld (EVTMX_CNT_COUNT n) + 1) else s.dev.fld (EVTMX_CNT_COUNT n)) ∧
      (∀ n < 64, takes n = true → (e.fld (EVTMX_CHFLAG_FLAG (n / 32))).testBit (n % 32) = true ∧
        e.fld (EVTMX_STAMPLO_STAMP n) = st % 2 ^ 32) := by
    refine ⟨fun n hn => ?_, fun n hn ht => ?_⟩
    · rw [hemit.count n hn, htakes]
      simp only [mem_channelsOf, hn, true_and]
      rfl
    · have hin := mem_channelsOf.2 ⟨hn, htakes n ▸ ht⟩
      exact ⟨hemit.flag n hn hin, hemit.stamp n hn hin⟩
  split
  · next hempty =>
    rw [List.isEmpty_iff] at hempty
    refine ⟨hevt.1, hfields.1, hfields.2, fun c hc => ?_⟩
    rw [← hmem c hc, hevt.2, hempty]
    simp
  · refine ⟨hevt.1, hfields.1, hfields.2, fun c hc => ?_⟩
    rw [← hmem c hc]
    simp [hevt.2]

end
end Sys2Proof.Machine
end

section
/-! PROOFS. EventInputs: what a delivery, a wait request, a loop and the writes of CEN and PEND leave (R374 to R382,
`Obligations.EventsDelivered`). -/

set_option Elab.async false

namespace Sys2Proof.Machine

section
variable {d e : Dev} {c : Nat}

/-! ### Latches and waits of other inputs -/

@[simp] theorem waitsOf_setWaits_same (d : Dev) (c n : Nat) : (d.setWaits c n).waitsOf c = n := arrGet_arrSet_same _ _ _ _

theorem waitsOf_setWaits_ne {b : Nat} (d : Dev) (n : Nat) (h : b ≠ c) : (d.setWaits c n).waitsOf b = d.waitsOf b :=
  arrGet_arrSet_ne _ _ _ h

/-! ### Deliveries (R375, R377, R379) -/

/-- The device with its oldest deliveries taken off those due. -/
def Dev.withDue (d : Dev) (l : List (List Deliv)) : Dev := { d with evt := { d.evt with due := l } }

/-- The device with its oldest wait request taken off. -/
def Dev.withRequests (d : Dev) (l : List Nat) : Dev := { d with evt := { d.evt with requests := l } }

theorem delivery_one {x : Deliv} {rest : List (List Deliv)} (h : d.evt.due = [x] :: rest) :
    delivery d = (d.withDue rest).deliver x := by
  rw [delivery, h]
  rfl

/-- A trigger completes a wait, fills the latch, or is dropped. -/
theorem deliver_wait {x : Deliv} (hm : x.merged = false) (hc : x.input < 128) (hw : 0 < d.waitsOf x.input) :
    d.deliver x = (d.setWaits x.input (d.waitsOf x.input - 1)).sendWait x.input x.trig.stamp := by
  unfold Dev.deliver
  simp only [hm, Bool.false_eq_true, if_false, if_pos (And.intro hc hw)]

theorem deliver_latch {x : Deliv} (hm : x.merged = false) (hw : 128 ≤ x.input ∨ d.waitsOf x.input = 0)
    (hl : d.latch x.input = none) : d.deliver x = d.setLatch x.input (some x.trig) := by
  have hno : ¬ (x.input < 128 ∧ 0 < d.waitsOf x.input) := by omega
  unfold Dev.deliver
  simp only [hm, Bool.false_eq_true, if_false, if_neg hno, hl, Option.isNone_none, if_true]

theorem deliver_overrun {x : Deliv} (hm : x.merged = false) (hw : 128 ≤ x.input ∨ d.waitsOf x.input = 0)
    (hl : d.latch x.input ≠ none) :
    d.deliver x = ((d.flag (EVTMX_CSTAT_OVR x.input)).flag EVTMX_ISTAT_OVR).count (EVTMX_CCNT_OVRCNT x.input) := by
  have hno : ¬ (x.input < 128 ∧ 0 < d.waitsOf x.input) := by omega
  have hsome : (d.latch x.input).isNone = false := by rw [Option.isNone_eq_false_iff, Option.isSome_iff_ne_none]; exact hl
  unfold Dev.deliver
  simp only [hm, Bool.false_eq_true, if_false, if_neg hno, hsome]

/-- A delivery leaves every other input's latch and waits. -/
theorem deliver_others {x : Deliv} {b : Nat} (d : Dev) (hm : x.merged = false) (h : b ≠ x.input) :
    (d.deliver x).latch b = d.latch b ∧ (d.deliver x).waitsOf b = d.waitsOf b := by
  by_cases hw : x.input < 128 ∧ 0 < d.waitsOf x.input
  · rw [deliver_wait hm hw.1 hw.2]
    exact ⟨rfl, waitsOf_setWaits_ne d _ h⟩
  · by_cases hl : d.latch x.input = none
    · rw [deliver_latch hm (by omega) hl]
      exact ⟨latch_setLatch_ne d _ h, rfl⟩
    · rw [deliver_overrun hm (by omega) hl]
      exact ⟨rfl, rfl⟩

/-- A delivery takes nothing off those that are due later. -/
theorem deliver_due {x : Deliv} (hm : x.merged = false) : (d.deliver x).evt.due = d.evt.due := by
  by_cases hw : x.input < 128 ∧ 0 < d.waitsOf x.input
  · rw [deliver_wait hm hw.1 hw.2]
    rfl
  · by_cases hl : d.latch x.input = none
    · rw [deliver_latch hm (by omega) hl]
      rfl
    · rw [deliver_overrun hm (by omega) hl]
      rfl

theorem overrun_fields (d : Dev) (c : Nat) :
    let e := ((d.flag (EVTMX_CSTAT_OVR c)).flag EVTMX_ISTAT_OVR).count (EVTMX_CCNT_OVRCNT c)
    e.fld (EVTMX_CSTAT_OVR c) = 1 ∧ e.fld EVTMX_ISTAT_OVR = 1 ∧
    e.fld (EVTMX_CCNT_OVRCNT c) = min 65535 (d.fld (EVTMX_CCNT_OVRCNT c) + 1) := by
  simp (disch := omega) only [EVTMX_CSTAT_OVR, EVTMX_ISTAT_OVR, EVTMX_CCNT_OVRCNT, fld_flag_off, fld_count_off, fld_flag,
    fld_count_cut]
  exact ⟨trivial, trivial, rfl⟩

/-! ### Wait requests (R379) -/

theorem waitArrival_latched {t : Trig} {rest : List Nat} (h : d.evt.requests = c :: rest) (hl : d.latch c = some t) :
    waitArrival d =
      ((d.withRequests rest).setLatch c none).sendWait c t.stamp := by
  have hl' : (d.withRequests rest).latch c = some t := hl
  rw [waitArrival, h]
  show (match (d.withRequests rest).latch c with | some x => _ | none => _) = _
  rw [hl']
  rfl

theorem waitArrival_empty {rest : List Nat} (h : d.evt.requests = c :: rest) (hl : d.latch c = none) :
    waitArrival d = (d.withRequests rest).setWaits c (d.waitsOf c + 1) := by
  have hl' : (d.withRequests rest).latch c = none := hl
  rw [waitArrival, h]
  show (match (d.withRequests rest).latch c with | some x => _ | none => _) = _
  rw [hl']
  rfl

/-! ### Loops (R381) -/

/-- The device with its events on their way replaced. -/
def Dev.withProduced (d : Dev) (l : List Ev) : Dev := { d with evt := { d.evt with produced := l } }

theorem Dev.fld_withProduced (d : Dev) (l : List Ev) (f : Fld) : (d.withProduced l).fld f = d.fld f := rfl

/-- The device with a looping event taken off its way and reported, before LOOPREC is looked at. -/
def Dev.loopReported (d : Dev) (x : Ev) : Dev :=
  ((d.withProduced (d.evt.produced.erase x)).flag EVTMX_ISTAT_LOOP).present fiEvtLoop x.prod

theorem dropLoop_eq {x : Ev} (h : d.evt.produced.find? (fun e => decide (7 ≤ e.hop)) = some x) : dropLoop d =
    if d.on EVTMX_LOOPREC_VALID then d.loopReported x
    else (((d.loopReported x).flag EVTMX_LOOPREC_VALID).setFld EVTMX_LOOPREC_CONS x.cons).setFld EVTMX_LOOPREC_PROD x.prod := by
  have hvalid : (d.loopReported x).on EVTMX_LOOPREC_VALID = d.on EVTMX_LOOPREC_VALID :=
    on_of_fld (fld_setFld_apart _ _ (by decide))
  rw [dropLoop, h, ← hvalid]
  show (if (d.loopReported x).on EVTMX_LOOPREC_VALID then _ else _) = _
  rfl

/-- The first looping event of the list is the one found. -/
theorem find_loop {l a b : List Ev} {x : Ev} (h : l = a ++ x :: b) (ha : ∀ y ∈ a, y.hop < 7) (hx : 7 ≤ x.hop) :
    l.find? (fun e => decide (7 ≤ e.hop)) = some x := by
  have hnone : a.find? (fun e => decide (7 ≤ e.hop)) = none :=
    List.find?_eq_none.2 fun y hy => by simpa using ha y hy
  rw [h, List.find?_append, hnone, Option.none_or, List.find?_cons_of_pos (by simpa using hx)]

theorem loopReported_leaves (d : Dev) {x : Ev} (hx : x ∈ d.evt.produced) (hp : x.prod < 512) :
    (d.loopReported x).evt.produced.length + 1 = d.evt.produced.length ∧ (d.loopReported x).fld EVTMX_ISTAT_LOOP = 1 ∧
    (d.loopReported x).Awaits fiEvtLoop x.prod ∧
    (∀ f : Fld, f.addr = 0x060008 → (d.loopReported x).fld f = d.fld f) := by
  refine ⟨?_, fld_flag _, Dev.awaits_present _ _ (by omega), fun f hf => ?_⟩
  case refine_2 =>
    have hapart : f.addr ≠ EVTMX_ISTAT_LOOP.addr := by
      rw [hf]
      decide
    rw [Dev.loopReported, fld_present, flag_eq, fld_setFld_apart _ _ (.inl hapart), Dev.fld_withProduced]
  show (d.evt.produced.erase x).length + 1 = _
  rw [List.length_erase_of_mem hx]
  have := List.length_pos_of_mem hx
  omega

/-! ### CEN (R374) -/

/-- The enables of an input in one of its two registers. -/
abbrev cenOf (c : Nat) (hi : Bool) : Fld := if hi then EVTMX_CEN1_CEN c else EVTMX_CEN0_CEN c

theorem addr_cenOf (c : Nat) (hi : Bool) : (cenOf c hi).addr = 0x061000 + 16 * c + if hi then 4 else 0 := by
  cases hi
  · rfl
  · show 0x061004 + 0x10 * c = 0x061000 + 16 * c + 4
    omega

theorem cenOf_eq (c : Nat) (hi : Bool) : cenOf c hi = ⟨(cenOf c hi).addr, 0, 32⟩ := by cases hi <;> rfl

section
variable {hi : Bool} {v : Nat} (hc : c < 384) (hlock : d.fld EVTMX_LOCK_LOCK = 0)
include hc hlock

theorem ioLocked_cenOf : ioLocked d.io (cenOf c hi).addr = false := by
  have hblock : (cenOf c hi).addr / 0x10000 = 6 := by
    rw [addr_cenOf]
    split <;> omega
  rw [ioLocked_EVTMX d hblock, hlock]
  rfl

theorem cenWrite_fits (h : popCount v 32 + popCount (d.fld (cenOf c !hi)) 32 ≤ 8) :
    cenWrite c hi v d = d.setFld (cenOf c hi) v := by
  have hopen := ioLocked_cenOf (hi := hi) hc hlock
  have hfit : ¬ 8 < popCount v 32 + popCount (d.fld (cenOf c !hi)) 32 := by omega
  cases hi <;> exact (if_neg (by rw [hopen]; decide)).trans (if_neg hfit)

theorem cenWrite_exceeds (h : 8 < popCount v 32 + popCount (d.fld (cenOf c !hi)) 32) :
    cenWrite c hi v d = d.flag EVTMX_ISTAT_ENREF := by
  have hopen := ioLocked_cenOf (hi := hi) hc hlock
  cases hi <;> exact (if_neg (by rw [hopen]; decide)).trans (if_pos h)

/-- CEN_WRITE in full: the word stored, or the refusal flagged. -/
theorem cenWrite_leaves (hv : v < 2 ^ 32) :
    let e := cenWrite c hi v d
    (popCount v 32 + popCount (d.fld (cenOf c !hi)) 32 ≤ 8 → e.fld (cenOf c hi) = v ∧ e = { d with io := e.io } ∧
      d.SameWords e [0x061000 + 16 * c + if hi then 4 else 0]) ∧
    (8 < popCount v 32 + popCount (d.fld (cenOf c !hi)) 32 → e.fld (cenOf c hi) = d.fld (cenOf c hi) ∧
      e.fld EVTMX_ISTAT_ENREF = 1 ∧ e = { d with io := e.io } ∧ d.SameWords e [0x060000]) := by
  refine ⟨fun h => ?_, fun h => ?_⟩
  · rw [cenWrite_fits hc hlock h, ← addr_cenOf]
    refine ⟨?_, rfl, ((Dev.Regs.refl d _).setFld _ _ List.mem_cons_self).word⟩
    rw [cenOf_eq, fld_setFld_cut _ _, Nat.mod_eq_of_lt hv]
  · rw [cenWrite_exceeds hc hlock h]
    refine ⟨fld_setFld_apart _ _ (.inl ?_), fld_flag _, rfl, ((Dev.Regs.refl d _).setFld _ _ (by decide)).word⟩
    rw [addr_cenOf]
    show _ ≠ 0x060000
    split <;> omega

end

/-- Settles O24, part by part from the lemma about each command. -/
theorem eventsDelivered : Obligations.EventsDelivered := by
  refine ⟨fun s => ⟨fun x rest hdue hm hx => ?_, fun c rest hreq => ?_⟩, fun s => ⟨fun x a b hprod ha hhop hp => ?_,
    fun c hi v hlock => ?_, fun c hc => ?_⟩⟩
  · refine completes_onDev rfl fun _ => ?_
    rw [delivery_one hdue]
    refine ⟨deliver_due hm, fun hc hw => ?_, fun hw hl => ?_, fun hw hl => ?_, fun b hb => deliver_others _ hm hb⟩
    · rw [deliver_wait (d := s.dev.withDue rest) hm hc hw]
      exact ⟨waitsOf_setWaits_same _ _ _, rfl, rfl⟩
    · rw [deliver_latch (d := s.dev.withDue rest) hm hw hl]
      exact ⟨latch_setLatch_same _ _ _, rfl, rfl⟩
    · rw [deliver_overrun (d := s.dev.withDue rest) hm hw hl]
      obtain ⟨hovr, histat, hcnt⟩ := overrun_fields (s.dev.withDue rest) x.input
      exact ⟨rfl, hovr, histat, hcnt⟩
  · refine completes_onDev rfl fun _ => ?_
    rcases hl : s.dev.latch c with _ | t
    case some =>
      rw [waitArrival_latched hreq hl]
      refine ⟨rfl, fun t' ht => ?_, fun h => absurd h (Option.some_ne_none t), fun b hb => ⟨latch_setLatch_ne _ _ hb, rfl⟩⟩
      cases ht
      exact ⟨latch_setLatch_same _ _ _, rfl, rfl⟩
    case none =>
      rw [waitArrival_empty hreq hl]
      exact ⟨rfl, fun t' ht => absurd ht (Option.some_ne_none t').symm, fun _ => ⟨waitsOf_setWaits_same _ _ _, rfl⟩,
        fun b hb => ⟨rfl, waitsOf_setWaits_ne _ _ hb⟩⟩
  · refine completes_onDev rfl fun _ => ?_
    have hmem : x ∈ s.dev.evt.produced := by rw [hprod]; simp
    obtain ⟨hlen, hloop, hfault, hrec⟩ := loopReported_leaves s.dev hmem hp
    rw [dropLoop_eq (find_loop hprod ha hhop)]
    cases hv : s.dev.on EVTMX_LOOPREC_VALID with
    | true =>
      refine ⟨hlen, hloop, hfault.hasFault, fun h0 => ?_, fun _ => hrec _ rfl⟩
      rw [on_of_zero h0] at hv
      cases hv
    | false =>
      simp only [Bool.false_eq_true, if_false]
      generalize s.dev.loopReported x = e at *
      refine ⟨hlen, ?_, (hfault.flag.setFld.setFld).hasFault, fun _ => ?_, fun h1 => ?_⟩
      · simp (disch := decide) only [flag_eq, fld_setFld_apart, hloop]
      · simp (disch := decide) only [flag_eq, fld_setFld_apart, fld_setFld_same]
        exact ⟨rfl, Nat.mod_eq_of_lt hp, rfl⟩
      · rw [on_of_one h1] at hv
        cases hv
  · refine completes_onDev rfl fun _ => ?_
    cases hi with
    | true => exact cenWrite_leaves (hi := true) c.isLt hlock v.isLt
    | false => exact cenWrite_leaves (hi := false) c.isLt hlock v.isLt
  · refine completes_onDev rfl fun _ => ?_
    rw [watchTake, if_pos hc]
    exact ⟨latch_setLatch_same _ _ _, fun b hb => latch_setLatch_ne _ _ hb, rfl⟩

end
end Sys2Proof.Machine
end

section
/-! PROOFS. RecordsKept: a reaction on a pair and a change of mode leave the words in which the island's records stand
(R391, R398). -/

set_option Elab.async false

namespace Sys2Proof.Machine

/-- The field stands in no word of the island's log: in the lower half of a page, or in another block. -/
abbrev Fld.OffLog (f : Fld) : Prop := f.addr % 0x1000 < 0x800 ∨ f.addr < 0x0C0000 ∨ 0x0C1000 ≤ f.addr

theorem Fld.OffLog.later {b k lo w : Nat} (h : 0x0C1000 ≤ b := by decide) : Fld.OffLog ⟨b + k, lo, w⟩ :=
  .inr (.inr (Nat.le_add_right_of_le h))

theorem Fld.OffLog.register {b n lo w : Nat} (h : b % 0x1000 < 0x800 := by decide) : Fld.OffLog ⟨b + 0x1000 * n, lo, w⟩ :=
  .inl (by rwa [Nat.add_mul_mod_self_left])

/-- Every word of the log reads as in `o`. -/
structure Dev.LogKept (d o : Dev) : Prop where
  word : ∀ a, 0x0C0800 ≤ a → a < 0x0C0C00 → d.word a = o.word a

section
variable {d e o : Dev}

theorem Dev.LogKept.refl : d.LogKept d := ⟨fun _ _ _ => rfl⟩

theorem Dev.LogKept.of_io (h : d.LogKept o) (hio : e.io = d.io) : e.LogKept o :=
  ⟨fun a hlo hhi => (word_of_io hio a).trans (h.word a hlo hhi)⟩

theorem Dev.LogKept.of_regs {l : List Nat} (h : d.LogKept o) (hr : d.Regs e l)
    (hl : ∀ a ∈ l, a < 0x0C0800 ∨ 0x0C0C00 ≤ a := by decide) : e.LogKept o :=
  ⟨fun a hlo hhi => (hr.word a fun ha => by have := hl a ha; omega).trans (h.word a hlo hhi)⟩

theorem Dev.LogKept.ite {c : Prop} {_ : Decidable c} (hd : d.LogKept o) (he : e.LogKept o) :
    (if c then d else e).LogKept o := by
  split
  · exact hd
  · exact he

theorem Dev.LogKept.iteThd {α β : Type} {c : Prop} {_ : Decidable c} {x y : α × β × Dev} (hx : x.2.2.LogKept o)
    (hy : y.2.2.LogKept o) : (if c then x else y).2.2.LogKept o := by
  split
  · exact hx
  · exact hy

theorem Dev.LogKept.of_thd {α β : Type} {x : α × β × Dev} {a : α} {b : β} (hx : x = (a, b, e)) (h : x.2.2.LogKept o) :
    e.LogKept o := by
  subst hx
  exact h

theorem Dev.LogKept.foldl {α : Type} {f : Dev → α → Dev} {l : List α} (h : d.LogKept o)
    (hf : ∀ (d : Dev) (a : α), d.LogKept o → (f d a).LogKept o) : (l.foldl f d).LogKept o :=
  foldl_keeps (fun d => d.LogKept o) f hf l d h

/-! ### Updates -/

theorem Dev.LogKept.setFld {f x} (h : d.LogKept o) (hf : f.OffLog := by decide) : (d.setFld f x).LogKept o :=
  ⟨fun a hlo hhi => (word_setFld_ne d f x (by unfold Fld.OffLog at hf; omega)).trans (h.word a hlo hhi)⟩

theorem Dev.LogKept.flag {f} (h : d.LogKept o) (hf : f.OffLog := by decide) : (d.flag f).LogKept o := h.setFld hf

theorem Dev.LogKept.setBitOf {f i} (h : d.LogKept o) (hf : f.OffLog := by decide) : (d.setBitOf f i).LogKept o :=
  h.setFld hf

theorem Dev.LogKept.count {f} (h : d.LogKept o) (hf : f.OffLog := by decide) : (d.count f).LogKept o := h.setFld hf

theorem Dev.LogKept.present {i x} (h : d.LogKept o) : (d.present i x).LogKept o := h.of_io rfl

theorem Dev.LogKept.presentPair {q k} (h : d.LogKept o) : (d.presentPair q k).LogKept o := h.present

theorem Dev.LogKept.setPair {q x} (h : d.LogKept o) : (d.setPair q x).LogKept o := h.of_io rfl

theorem Dev.LogKept.setDetector {q k x} (h : d.LogKept o) : (d.setDetector q k x).LogKept o := h.of_io rfl

theorem Dev.LogKept.setWaits {c n} (h : d.LogKept o) : (d.setWaits c n).LogKept o := h.of_io rfl

theorem Dev.LogKept.withBind {x} (h : d.LogKept o) : Dev.LogKept { d with bind := x } o := h.of_io rfl

theorem Dev.LogKept.withFab {x} (h : d.LogKept o) : Dev.LogKept { d with fab := x } o := h.of_io rfl

theorem Dev.LogKept.withMem {x} (h : d.LogKept o) : Dev.LogKept { d with mem := x } o := h.of_io rfl

theorem Dev.LogKept.withEvt {x} (h : d.LogKept o) : Dev.LogKept { d with evt := x } o := h.of_io rfl

theorem Dev.LogKept.withKeeper {x} (h : d.LogKept o) : Dev.LogKept { d with keeper := x } o := h.of_io rfl

theorem Dev.LogKept.takeSpare {q} (h : d.LogKept o) : (d.takeSpare q).LogKept o := h.of_io rfl

/-! ### Reads and writes of the mirror -/

theorem Fld.OffLog.ofInstance {i lo w : Nat} (hi : i < 256) : Fld.OffLog ⟨0x050400 + 0x4 * i, lo, w⟩ :=
  .inr (.inl (by show 0x050400 + 0x4 * i < 0x0C0000; omega))

theorem Fld.OffLog.overflow {i lo w : Nat} (hi : i < 256) : Fld.OffLog ⟨0x050010 + 0x4 * (i / 32), lo, w⟩ :=
  .inr (.inl (by show 0x050010 + 0x4 * (i / 32) < 0x0C0000; omega))

theorem Dev.LogKept.bucketUp {i} (h : d.LogKept o) (hi : i < 256) : (d.bucketUp i).LogKept o :=
  .ite (h.setFld (.ofInstance hi)) (.ite (h.setFld (.ofInstance hi))
    ((h.setFld (.ofInstance hi)).setBitOf (.overflow hi)).flag.present)

theorem Dev.LogKept.correctable {i} (h : d.LogKept o) (hi : i < 256) : (d.correctable i).LogKept o :=
  .ite (h.count (.ofInstance hi)) ((h.count (.ofInstance hi)).bucketUp hi)

theorem Dev.LogKept.recordUe {m i a scrub} (h : d.LogKept o) : (d.recordUe m i a scrub).LogKept o :=
  .ite h h.flag.setFld.setFld.setFld.setFld

theorem Dev.LogKept.uncorrectable {m i a scrub} (h : d.LogKept o) (hi : i < 256) :
    (d.uncorrectable m i a scrub).LogKept o := by
  have h1 : (d.count (MEMCTL_INST_UECNT i)).LogKept o := h.count (.ofInstance hi)
  unfold Dev.uncorrectable
  extract_lets d1 d2
  have h2 : d2.LogKept o := .ite h1.flag h1.flag
  exact .ite h2.recordUe h2.recordUe.present

theorem Dev.LogKept.queueWriteBack {i w} (h : d.LogKept o) : (d.queueWriteBack i w).LogKept o := .ite h h.withMem

theorem Dev.LogKept.noteRead {m i w a r scrub} (h : d.LogKept o) (hi : i < 256) :
    (d.noteRead m i w a r scrub).LogKept o := by
  unfold Dev.noteRead
  extract_lets d1
  have h1 : d1.LogKept o := .ite h.flag.setFld.setFld.setFld h
  exact .ite (.uncorrectable (.ite (h1.correctable hi) h1) hi)
    (.ite (.ite (h1.correctable hi) (h1.correctable hi).queueWriteBack) h1)

theorem Dev.LogKept.bankRead {m i w} (h : d.LogKept o) (hi : i < 256) : (d.bankRead m i w).2.2.LogKept o :=
  h.withMem.noteRead hi

/-- Every bank that an address names is one of the 88 of shared and cluster memory. -/
theorem instance_lt_of_targetOf {remap : Bool} {a i w al : Nat} (h : targetOf remap a = .bank i w al) : i < 256 := by
  simp only [targetOf, lowTarget, sharedTarget, clusterAt, clusterTarget] at h
  split_ifs at h <;> simp only [Target.bank.injEq] at h <;> omega

/-- The function is unfolded while it stands alone, so that the kernel never evaluates the mirror's address. So also below. -/
theorem Dev.LogKept.mirrorWord {lp off x} (h : d.LogKept o) : (d.mirrorWord lp off x).LogKept o := by
  generalize hf : Dev.mirrorWord = f
  delta Dev.mirrorWord at hf
  subst hf
  beta_reduce
  split
  · exact h.withMem
  · exact h

theorem Dev.LogKept.mirrorWords {lp} : ∀ {l : List DWord} {d : Dev} {off}, d.LogKept o →
    (d.mirrorWords lp off l).LogKept o
  | [], _, _, h => h
  | _ :: _, _, _, h => h.mirrorWord.mirrorWords

theorem Dev.LogKept.writeHeader {lp b x} (h : d.LogKept o) : (d.writeHeader lp b x).LogKept o :=
  h.mirrorWords.of_io rfl

theorem Dev.LogKept.applyDelta {lp} : ∀ {l : List (Nat × DWord)} {d : Dev}, d.LogKept o →
    (d.applyDelta lp l).LogKept o
  | [], _, h => h
  | _ :: _, _, h => h.mirrorWord.applyDelta

theorem Dev.LogKept.mirrorRead {lp off} (h : d.LogKept o) : (d.mirrorRead lp off).2.2.LogKept o := by
  generalize hx : d.mirrorRead lp off = x
  generalize hf : Dev.mirrorRead = f at hx
  delta Dev.mirrorRead at hf
  subst hf
  beta_reduce at hx
  split at hx
  next ht => exact hx ▸ h.bankRead (instance_lt_of_targetOf ht)
  · exact hx ▸ h

theorem Dev.LogKept.mirrorReads {lp} : ∀ {n} {d : Dev} {off}, d.LogKept o → (d.mirrorReads lp off n).2.2.LogKept o
  | 0, _, _, h => h
  | _ + 1, _, _, h => .iteThd h.mirrorRead h.mirrorRead.mirrorReads

/-! ### Restart, migration and stop -/

theorem Dev.LogKept.recoveryBreak {lp} (h : d.LogKept o) : (d.recoveryBreak lp).LogKept o := by
  unfold Dev.recoveryBreak
  split
  · exact h.withFab.withFab.flag.count.setFld.setFld.setFld.present
  · exact h

theorem Dev.LogKept.emitArm {q k tb angle down} (h : d.LogKept o) : (d.emitArm q k tb angle down).LogKept o := by
  unfold Dev.emitArm
  extract_lets
  split
  · exact h.setPair.setDetector
  · exact h.setDetector

theorem Dev.LogKept.restoreGate {q k} (h : d.LogKept o) : (d.restoreGate q k).LogKept o := .ite h.emitArm h.setDetector

theorem Dev.LogKept.restoreWait {q w} (h : d.LogKept o) : (d.restoreWait q w).LogKept o := by
  unfold Dev.restoreWait
  extract_lets
  split
  · exact h.setPair
  · exact h

theorem Dev.LogKept.settleRestored {q} (h : d.LogKept o) : (d.settleRestored q).LogKept o :=
  .foldl (.foldl (.foldl h.withEvt fun _ _ h => h.setWaits) fun _ _ h => h.restoreWait) fun _ _ h => h.restoreGate

theorem Dev.LogKept.keeperFreeze {lp} (h : d.LogKept o) : (d.keeperFreeze lp).LogKept o := .ite h.setFld.withKeeper h

theorem Dev.LogKept.haltPair {q cause} (h : d.LogKept o) : (d.haltPair q cause).LogKept o :=
  (((((h.setPair.setFld .later).setFld .later).setFld .later).setFld .later).setBitOf.flag).keeperFreeze

theorem Dev.LogKept.haltAgain {q} (h : d.LogKept o) : (d.haltAgain q).LogKept o := .ite h.haltPair h

theorem Dev.LogKept.rewriteBundle {q i} (h : d.LogKept o) : (d.rewriteBundle q i).LogKept o := by
  generalize hf : Dev.rewriteBundle = f
  delta Dev.rewriteBundle at hf
  subst hf
  beta_reduce
  split
  next ws bad d1 hr =>
    have h1 : d1.LogKept o := .of_thd hr h.mirrorReads
    exact .ite h1 h1.setPair

theorem Dev.LogKept.restart {q fix} (h : d.LogKept o) : (d.restart q fix).LogKept o := by
  unfold Dev.restart
  extract_lets _ _ d1 d2
  have h2 : d2.LogKept o := by
    unfold d2
    split
    · exact h.setPair.rewriteBundle
    · exact h.setPair
  exact h2.settleRestored.haltAgain

theorem Dev.LogKept.checkShort {lp} (h : d.LogKept o) : (d.checkShort lp).LogKept o := .ite h.setBitOf.flag.present h

theorem Dev.LogKept.toFence {q retire} (h : d.LogKept o) : (d.toFence q retire).LogKept o := h.setPair

theorem Dev.LogKept.stopPair {q} (h : d.LogKept o) : (d.stopPair q).LogKept o := (h.toFence.flag .register).presentPair

theorem Dev.LogKept.rebound {lp q st x} (h : d.LogKept o) :
    (({ d with bind := x }.setFld (PAIRCTL_ROLE_LPAIR q) lp).setPairState q st).LogKept o :=
  (h.withBind.setFld .register).setFld .register

/-- What a migration shows of itself once the spare has the state. -/
theorem Dev.LogKept.migrated {lp q r n x} (h : d.LogKept o) :
    ((((((d.flag (PAIRCTL_FSTAT_MIGRATED q)).flag (PAIRCTL_FSTAT_MIGRATED r)).count (PAIRCTL_CNT_MIGRATIONS q)).setFld
      (PAIRCTL_CKNUM_CKNUM r) n).presentPair q pfMigrated).setFld (DEBUG_PSTAT_PPAIR lp) x).LogKept o :=
  (((((h.flag .register).flag .register).count .register).setFld .register).presentPair).setFld .later

theorem Dev.LogKept.migrate {q r retire} (h : d.LogKept o) : (d.migrate q r retire).LogKept o := by
  generalize hf : Dev.migrate = f
  delta Dev.migrate at hf
  subst hf
  beta_reduce
  extract_lets lp own d1 b s
  have h1 : d1.LogKept o := h.rebound
  clear_value d1
  split
  next imem bad1 d2 e1 =>
    have h2 : d2.LogKept o := .of_thd e1 h1.mirrorReads
    split
    next dmem bad2 d3 e2 =>
      have h3 : d3.LogKept o := .of_thd e2 (.iteThd h2 h2.mirrorReads)
      split
      next frame bad3 d4 e3 =>
        have h4 : d4.LogKept o := .of_thd e3 (.iteThd h3 h3.mirrorReads)
        split
        next got bad4 d5 e4 =>
          have h5 : d5.LogKept o := .of_thd e4 (.iteThd h4 h4.mirrorReads)
          split
          · exact h5.rebound.setPair.stopPair
          · refine Dev.LogKept.haltAgain (.settleRestored (.checkShort (.migrated (.setPair (.toFence ?_)))))
            exact .ite h5.setPair.takeSpare h5.setPair.takeSpare.applyDelta.writeHeader

theorem Dev.LogKept.mismatch {q kind lg fix} (h : d.LogKept o) : (d.mismatch q kind lg fix).LogKept o := by
  unfold Dev.mismatch
  split
  · exact h
  · extract_lets
    have h1 := fun x y z lp =>
      ((((h.flag (f := PAIRCTL_FSTAT_MISMATCH q) .register).setFld (f := PAIRCTL_LASTMM_KIND q) (x := x) .register).setFld
        (f := PAIRCTL_LASTMM_LG q) (x := y) .register).setFld (f := PAIRCTL_LASTMM_SEGCNT q) (x := z) .register).recoveryBreak
          (lp := lp)
    split
    · exact (h1 ..).restart
    · split
      · exact (h1 ..).migrate
      · exact (h1 ..).stopPair

theorem Dev.LogKept.fenceReaction {q retire} (h : d.LogKept o) : (d.fenceReaction q retire).LogKept o := by
  unfold Dev.fenceReaction
  extract_lets
  split
  · exact h
  · split
    · exact h.recoveryBreak.migrate
    · exact h.recoveryBreak.toFence

/-! ### Journal, mode and reactions -/

theorem Dev.LogKept.journal {type args body} (h : d.LogKept o) : (d.journal type args body).LogKept o :=
  h.of_regs (journal_frame d type args body).2

theorem Dev.LogKept.sealPage {bad} (h : d.LogKept o) : (d.sealPage bad).LogKept o := h.of_regs (sealPage_frame d bad).2

theorem Dev.LogKept.safeStopCause {trig} (h : d.LogKept o) : (d.safeStopCause trig).LogKept o :=
  h.of_regs (safeStopCause_frame d trig).2

theorem Dev.LogKept.resetReaction {trig} (h : d.LogKept o) : (d.resetReaction trig).LogKept o := by
  have h1 : ((d.safeStopCause trigSafeStop).flag SAFEISL_STAT_REACT).LogKept o := h.safeStopCause.flag
  exact Dev.LogKept.of_io (.ite h1 h1.sealPage) rfl

theorem Dev.LogKept.pairReaction {n q code} (h : d.LogKept o) : (d.pairReaction n q code).LogKept o :=
  .ite h.mismatch (.ite h.fenceReaction h)

theorem Dev.LogKept.react {n detail code} (h : d.LogKept o) : (d.react n detail code).LogKept o := by
  unfold Dev.react
  extract_lets d1
  have h1 : d1.LogKept o := by
    unfold d1
    split
    · exact h.pairReaction
    · exact h
  exact .ite h1.resetReaction (.ite h1.safeStopCause h1)

end
end Sys2Proof.Machine
end

section
/-! PROOFS. RegisterArrays: a field cleared in every row of an array of registers. -/

set_option Elab.async false

namespace Sys2Proof.Machine

/-- A field cleared in each of the listed rows of an array. -/
def Dev.clearRows (d : Dev) (a s lo w : Nat) (l : List Nat) : Dev := l.foldl (fun d i => d.setFld ⟨a + s * i, lo, w⟩ 0) d

section
variable {a s lo w i : Nat} {l : List Nat}

theorem clearRows_only (d : Dev) : d.clearRows a s lo w l = { d with io := (d.clearRows a s lo w l).io } := by
  refine foldl_keeps (fun e => e = { d with io := e.io }) _ (fun e i he => ?_) l d rfl
  exact congrArg (fun x : Dev => { x with io := (e.setFld ⟨a + s * i, lo, w⟩ 0).io }) he

theorem fld_clearRows_off (d : Dev) {f : Fld} (h : ∀ i ∈ l, Fld.Apart ⟨a + s * i, lo, w⟩ f) :
    (d.clearRows a s lo w l).fld f = d.fld f := by
  induction l generalizing d with
  | nil => rfl
  | cons j l ih =>
    refine (ih (d.setFld ⟨a + s * j, lo, w⟩ 0) fun i hi => h i (List.mem_cons_of_mem _ hi)).trans ?_
    exact fld_setFld_apart d 0 (h j List.mem_cons_self)

/-- The field reads zero in each of the rows. -/
theorem fld_clearRows (d : Dev) (hs : 0 < s) (hw : lo + w ≤ 32) (hi : i ∈ l) :
    (d.clearRows a s lo w l).fld ⟨a + s * i, lo, w⟩ = 0 := by
  induction l generalizing d with
  | nil => cases hi
  | cons j l ih =>
    show ((d.setFld ⟨a + s * j, lo, w⟩ 0).clearRows a s lo w l).fld _ = 0
    by_cases hmem : i ∈ l
    · exact ih _ hmem
    · obtain rfl : i = j := (List.mem_cons.1 hi).resolve_right hmem
      rw [fld_clearRows_off _ fun k hk => .inl ?_]
      · exact (fld_setFld_cut d _ hw).trans (Nat.zero_mod _)
      · intro heq
        have : s * i = s * k := Nat.add_left_cancel heq
        exact hmem (Nat.eq_of_mul_eq_mul_left hs this ▸ hk)

end
end Sys2Proof.Machine
end
section
/-! PROOFS. Island: the record that the safety island makes of a presentation, and what else its processing leaves (R387, R391
to R393, R398, `Obligations.RecordClass`, `Obligations.PlainFaultRecorded`). -/

namespace Sys2Proof.Machine

section
variable {d e f : Dev} {n detail k code cls : Nat}

/-! ### A new record (R398) -/

/-- The four words of record `i`. -/
def Dev.recordBody (d : Dev) (i n detail k code cls : Nat) : Dev :=
  (((((((d.setFld (SAFEISL_LOGW0_DETAIL i) detail).setFld (SAFEISL_LOGW0_JNL i) (if 2 ≤ cls then 1 else 0)).setFld
    (SAFEISL_LOGW0_REACT i) code).setFld (SAFEISL_LOGW0_CLASS i) cls).setFld (SAFEISL_LOGW0_INPUT i) n).setFld
    (SAFEISL_LOGW1_COUNT i) (min k 65535)).setPair64 (SAFEISL_LOGW2_TIME i) (SAFEISL_LOGW3_TIME i) d.islandTime)

/-- The head of the log moves past record `i`. -/
def Dev.recordHead (d : Dev) (i : Nat) : Dev :=
  (d.setFld SAFEISL_LOGHEAD_NEXT (i + 1)).setFld SAFEISL_LOGHEAD_TOTAL (d.fld SAFEISL_LOGHEAD_TOTAL + 1)

/-- One more record is unread, or the oldest is lost. -/
def Dev.recordUnread (d : Dev) : Dev :=
  if d.fld SAFEISL_LOGREAD_UNREAD < 64 then d.setFld SAFEISL_LOGREAD_UNREAD (d.fld SAFEISL_LOGREAD_UNREAD + 1)
  else (d.count SAFEISL_LOGHEAD_LOST).flag SAFEISL_ISTAT_LOGLOST

/-- A new record, before the journal is looked at. -/
def Dev.logged (d : Dev) (n detail k code cls : Nat) : Dev :=
  (((d.recordBody (d.fld SAFEISL_LOGHEAD_NEXT) n detail k code cls).recordHead
    (d.fld SAFEISL_LOGHEAD_NEXT)).recordUnread).setOldest

theorem newRecord_eq (d : Dev) (n detail k code cls : Nat) : d.newRecord n detail k code cls =
    if 2 ≤ cls then (d.logged n detail k code cls).journal 0x12 [n, detail, code, cls, k] else d.logged n detail k code cls :=
  rfl

theorem recordBody_fields (d : Dev) (i n detail k code cls : Nat) :
    let e := d.recordBody i n detail k code cls
    e.fld (SAFEISL_LOGW0_INPUT i) = n % 2 ^ 8 ∧ e.fld (SAFEISL_LOGW0_DETAIL i) = detail % 2 ^ 16 ∧
    e.fld (SAFEISL_LOGW0_CLASS i) = cls % 2 ^ 3 ∧ e.fld (SAFEISL_LOGW0_REACT i) = code % 2 ^ 3 ∧
    e.fld (SAFEISL_LOGW0_JNL i) = (if 2 ≤ cls then 1 else 0) % 2 ^ 1 := by
  simp (disch := omega) only [Dev.recordBody, setPair64_eq, SAFEISL_LOGW0_INPUT, SAFEISL_LOGW0_DETAIL, SAFEISL_LOGW0_CLASS,
    SAFEISL_LOGW0_REACT, SAFEISL_LOGW0_JNL, SAFEISL_LOGW1_COUNT, SAFEISL_LOGW2_TIME, SAFEISL_LOGW3_TIME, fld_setFld_off,
    fld_setFld_cut]
  exact ⟨trivial, trivial, trivial, trivial, trivial⟩

/-- A field of a record's first word is apart from the head of the log. -/
theorem fld_recordHead_of_record {i j lo w : Nat} (d : Dev) :
    (d.recordHead j).fld ⟨0x0C0800 + 0x10 * i, lo, w⟩ = d.fld ⟨0x0C0800 + 0x10 * i, lo, w⟩ := by
  simp (disch := omega) only [Dev.recordHead, SAFEISL_LOGHEAD_NEXT, SAFEISL_LOGHEAD_TOTAL, fld_setFld_off]

theorem fld_recordUnread_of_record {i lo w : Nat} (d : Dev) :
    d.recordUnread.fld ⟨0x0C0800 + 0x10 * i, lo, w⟩ = d.fld ⟨0x0C0800 + 0x10 * i, lo, w⟩ := by
  unfold Dev.recordUnread
  split
  · exact fld_setFld_off _ _ (by omega)
  · exact (fld_flag_off _ (by omega)).trans (fld_count_off _ (by omega))

theorem fld_setOldest_of_record {i lo w : Nat} (d : Dev) :
    d.setOldest.fld ⟨0x0C0800 + 0x10 * i, lo, w⟩ = d.fld ⟨0x0C0800 + 0x10 * i, lo, w⟩ := fld_setFld_off _ _ (by omega)

theorem logged_record (d : Dev) (n detail k code cls : Nat) {lo w : Nat} :
    (d.logged n detail k code cls).fld ⟨0x0C0800 + 0x10 * d.fld SAFEISL_LOGHEAD_NEXT, lo, w⟩ =
      (d.recordBody (d.fld SAFEISL_LOGHEAD_NEXT) n detail k code cls).fld
        ⟨0x0C0800 + 0x10 * d.fld SAFEISL_LOGHEAD_NEXT, lo, w⟩ := by
  rw [Dev.logged, fld_setOldest_of_record, fld_recordUnread_of_record, fld_recordHead_of_record]

/-- The head of the log after a new record. -/
theorem logged_head (d : Dev) (n detail k code cls : Nat) (hu : d.fld SAFEISL_LOGREAD_UNREAD ≤ 64) :
    (d.logged n detail k code cls).fld SAFEISL_LOGHEAD_NEXT = (d.fld SAFEISL_LOGHEAD_NEXT + 1) % 64 ∧
    (d.logged n detail k code cls).fld SAFEISL_LOGREAD_UNREAD = min 64 (d.fld SAFEISL_LOGREAD_UNREAD + 1) := by
  have hbody : (d.recordBody (d.fld SAFEISL_LOGHEAD_NEXT) n detail k code cls).fld SAFEISL_LOGREAD_UNREAD =
      d.fld SAFEISL_LOGREAD_UNREAD := by
    simp (disch := omega) only [Dev.recordBody, setPair64_eq, SAFEISL_LOGW0_INPUT, SAFEISL_LOGW0_DETAIL,
      SAFEISL_LOGW0_CLASS, SAFEISL_LOGW0_REACT, SAFEISL_LOGW0_JNL, SAFEISL_LOGW1_COUNT, SAFEISL_LOGW2_TIME,
      SAFEISL_LOGW3_TIME, SAFEISL_LOGREAD_UNREAD, fld_setFld_off]
  unfold Dev.logged
  generalize d.recordBody (d.fld SAFEISL_LOGHEAD_NEXT) n detail k code cls = b at hbody ⊢
  generalize d.fld SAFEISL_LOGHEAD_NEXT = i
  generalize d.fld SAFEISL_LOGREAD_UNREAD = u at hbody hu ⊢
  have hhead : (b.recordHead i).fld SAFEISL_LOGHEAD_NEXT = (i + 1) % 2 ^ 6 ∧
      (b.recordHead i).fld SAFEISL_LOGREAD_UNREAD = u := by
    rw [← hbody]
    simp (disch := omega) only [Dev.recordHead, SAFEISL_LOGHEAD_NEXT, SAFEISL_LOGHEAD_TOTAL, SAFEISL_LOGREAD_UNREAD,
      fld_setFld_off, fld_setFld_cut]
    exact ⟨trivial, trivial⟩
  obtain ⟨hnext, hunread⟩ := hhead
  generalize b.recordHead i = h at hnext hunread ⊢
  have hold : ∀ x : Dev, x.setOldest.fld SAFEISL_LOGHEAD_NEXT = x.fld SAFEISL_LOGHEAD_NEXT ∧
      x.setOldest.fld SAFEISL_LOGREAD_UNREAD = x.fld SAFEISL_LOGREAD_UNREAD := fun x =>
    ⟨fld_setFld_apart _ _ (by decide), fld_setFld_apart _ _ (by decide)⟩
  rw [(hold _).1, (hold _).2, Dev.recordUnread, hunread]
  split
  · refine ⟨(fld_setFld_apart _ _ (by decide)).trans hnext, (fld_setFld_same _ _ (by decide)).trans ?_⟩
    show (u + 1) % 2 ^ 7 = _
    omega
  · simp only [SAFEISL_LOGHEAD_LOST, SAFEISL_ISTAT_LOGLOST]
    refine ⟨(fld_flag_off _ (by omega)).trans ((fld_count_off _ (by omega)).trans hnext),
      (fld_flag_off _ (by omega)).trans ((fld_count_off _ (by omega)).trans (hunread.trans ?_))⟩
    omega

/-! ### The registers of the island -/

/-- Only registers of SAFEISL differ from `d`. -/
structure Dev.IslandWords (d e : Dev) : Prop where
  only : e = { d with io := e.io }
  word : ∀ a, e.word a ≠ d.word a → 0x0C0000 ≤ a ∧ a < 0x0D0000

theorem Dev.IslandWords.refl (d : Dev) : d.IslandWords d := ⟨rfl, fun _ ha => absurd rfl ha⟩

theorem Dev.IslandWords.setFld {g : Fld} {v : Nat} (h : d.IslandWords e) (hlo : 0x0C0000 ≤ g.addr := by decide)
    (hhi : g.addr < 0x0D0000 := by decide) : d.IslandWords (e.setFld g v) := by
  refine ⟨congrArg (fun x : Dev => { x with io := (e.setFld g v).io }) h.only, fun a ha => ?_⟩
  by_cases hag : a = g.addr
  · exact hag ▸ ⟨hlo, hhi⟩
  · exact h.word a (by rwa [word_setFld_ne e g v hag] at ha)

theorem Dev.IslandWords.record {i c lo w v : Nat} (h : d.IslandWords e) (hi : i < 64) (hc : 0x0C0800 ≤ c ∧ c < 0x0C0C00 := by decide) :
    d.IslandWords (e.setFld ⟨c + 0x10 * i, lo, w⟩ v) :=
  h.setFld (by show _ ≤ c + 0x10 * i; omega) (by show c + 0x10 * i < _; omega)

theorem Dev.IslandWords.recordBody {i : Nat} (h : d.IslandWords e) (hi : i < 64) :
    d.IslandWords (e.recordBody i n detail k code cls) :=
  (((((((h.record hi).record hi).record hi).record hi).record hi).record hi).record hi).record hi

theorem Dev.IslandWords.recordUnread (h : d.IslandWords e) : d.IslandWords e.recordUnread := by
  unfold Dev.recordUnread
  split
  · exact h.setFld
  · exact Dev.IslandWords.setFld (Dev.IslandWords.setFld h)

theorem Dev.IslandWords.recordHead {i : Nat} (h : d.IslandWords e) : d.IslandWords (e.recordHead i) :=
  Dev.IslandWords.setFld (Dev.IslandWords.setFld h)

theorem Dev.IslandWords.setOldest (h : d.IslandWords e) : d.IslandWords e.setOldest := Dev.IslandWords.setFld h

theorem Dev.IslandWords.logged (h : d.IslandWords e) : d.IslandWords (e.logged n detail k code cls) :=
  (h.recordBody (fld_lt e SAFEISL_LOGHEAD_NEXT)).recordHead.recordUnread.setOldest

end

section
variable {d e o : Dev} {n detail k code cls : Nat}

/-! ### The processing of one presentation (R387, R391, R398) -/

/-- The device with a presentation and its cycle taken. -/
def Dev.taken (d : Dev) (x : Presented) (rest : List Nat) : Dev :=
  { d with island := { d.island with presented := d.island.presented.erase x, cycle := rest } }

/-- An input that has had a record above F1 is marked. -/
def Dev.markAbove (d : Dev) (n cls : Nat) : Dev :=
  if 2 ≤ cls then { d with island := { d.island with above := withBit d.island.above n } } else d

/-- The count of an input grows by the merged presentations. -/
def Dev.counted (d : Dev) (n k : Nat) : Dev :=
  d.setFld (SAFEISL_REACT_COUNT n) (satAdd 65535 (d.fld (SAFEISL_REACT_COUNT n)) k)

/-- The presentations are merged into record `i`. -/
def Dev.merged (d : Dev) (i k : Nat) : Dev :=
  d.setFld (SAFEISL_LOGW1_COUNT i) (satAdd 65535 (d.fld (SAFEISL_LOGW1_COUNT i)) k)

/-- The flag of a record's class, where the reaction is INTERRUPT or higher. -/
def Dev.classFlag (d : Dev) (code cls : Nat) : Dev := if 1 ≤ code then d.setBitOf SAFEISL_ISTAT_FC (cls - 1) else d

theorem processFault_of_next {x : Presented} {rest : List Nat} (h : d.nextFault = some (x, rest)) :
    processFault d =
      if d.island.resetAfterSeal || fixedInput x.input then
        (d.taken x rest).record x.input x.detail x.count (d.reactionOf x.input x.detail)
      else ((d.taken x rest).record x.input x.detail x.count (d.reactionOf x.input x.detail)).react x.input x.detail
        (d.reactionOf x.input x.detail) := by
  rw [processFault, h]
  rfl

theorem reaction_code_lt (d : Dev) (n detail : Nat) : d.reactionOf n detail < 8 := by
  have hreg : d.fld (SAFEISL_REACT_REACT n) < 2 ^ 3 := fld_lt d _
  unfold Dev.reactionOf
  split_ifs <;> omega

/-- The classes and floors that a row of the fault table holds (R388 to R390). -/
abbrev FaultRow.InTable (r : FaultRow) : Prop := r.inher ≤ 5 ∧ (r.floor ≤ 5 ∨ r.floor = 7)

theorem FaultRow.InTable.ite {c : Prop} {_ : Decidable c} {a b : FaultRow} (ha : a.InTable) (hb : b.InTable) :
    (if c then a else b).InTable := by
  split
  · exact ha
  · exact hb

theorem deviceRow_inTable (n : Nat) : (deviceRow n).InTable :=
  .ite (by decide) (.ite (by decide) (.ite (by decide) (.ite (by decide) (.ite (by decide) (.ite (by decide)
    (.ite (by decide) (.ite (by decide) (by decide))))))))

theorem pairRow_inTable (k : Nat) : (pairRow k).InTable :=
  .ite (by decide) (.ite (by decide) (.ite (by decide) (.ite (by decide) (.ite (by decide) (by decide)))))

theorem faultRow_inTable (n : Nat) : (faultRow n).InTable :=
  .ite (deviceRow_inTable n) (.ite (pairRow_inTable _) (.ite (by decide) (.ite (by decide) (.ite (by decide)
    (.ite (by decide) (.ite (by decide) (.ite (by decide) (.ite (by decide) (.ite (by decide) (.ite (by decide)
      (.ite (by decide) (.ite (by decide) (.ite (by decide) (by decide))))))))))))))

theorem classOf_lt (h : code < 8) : classOf n detail code < 8 := by
  obtain ⟨hrow, -⟩ := faultRow_inTable n
  unfold classOf reactionClass
  dsimp only
  split_ifs <;> omega

section
variable (hn : n < 256)
include hn

/-- Neither the mark nor the count of an input stands in the head or in a record of the log. -/
theorem counted_log (d : Dev) (k cls : Nat) :
    ((d.markAbove n cls).counted n k).LogKept d ∧
    ((d.markAbove n cls).counted n k).fld SAFEISL_LOGHEAD_NEXT = d.fld SAFEISL_LOGHEAD_NEXT ∧
    ((d.markAbove n cls).counted n k).fld SAFEISL_LOGREAD_UNREAD = d.fld SAFEISL_LOGREAD_UNREAD ∧
    ((d.markAbove n cls).counted n k).islandTime = d.islandTime := by
  have hmark : (d.markAbove n cls).io = d.io := by
    unfold Dev.markAbove
    split <;> rfl
  have htime : (d.markAbove n cls).islandTime = d.islandTime := by
    unfold Dev.markAbove
    split <;> rfl
  have hkept : (d.markAbove n cls).LogKept d := Dev.LogKept.refl.of_io hmark
  refine ⟨hkept.setFld (.inl ?_), ?_, ?_, htime⟩
  · show (0x0C0400 + 0x4 * n) % 0x1000 < 0x800
    omega
  · exact (fld_setFld_off _ _ (by omega)).trans (fld_of_io hmark _)
  · exact (fld_setFld_off _ _ (by omega)).trans (fld_of_io hmark _)

theorem mergesInto_counted (d : Dev) {i : Nat} (m detail k cls : Nat) (hi : i < 64) :
    ((d.markAbove n cls).counted n k).mergesInto i m detail = d.mergesInto i m detail := by
  obtain ⟨hlog, -, -, htime⟩ := counted_log hn d k cls
  have hfld : ∀ c lo w, 0x0C0800 ≤ c → c < 0x0C0810 →
      ((d.markAbove n cls).counted n k).fld ⟨c + 0x10 * i, lo, w⟩ = d.fld ⟨c + 0x10 * i, lo, w⟩ := fun c lo w hlo hhi =>
    fld_of_word _ (hlog.word _ (by show _ ≤ c + 0x10 * i; omega) (by show c + 0x10 * i < _; omega))
  rw [Bool.eq_iff_iff]
  simp only [Dev.mergesInto, Bool.and_eq_true, bne_iff_ne, decide_eq_true_eq]
  simp only [Dev.fld64, htime, SAFEISL_LOGW0_INPUT, SAFEISL_LOGW0_DETAIL, SAFEISL_LOGW1_COUNT,
    SAFEISL_LOGW2_TIME, SAFEISL_LOGW3_TIME]
  simp only [hfld 0x0C0804 0 16 (by omega) (by omega), hfld 0x0C0800 0 8 (by omega) (by omega),
    hfld 0x0C0800 16 16 (by omega) (by omega), hfld 0x0C0808 0 32 (by omega) (by omega),
    hfld 0x0C080C 0 32 (by omega) (by omega)]

theorem record_merged (h : d.mergesInto ((d.fld SAFEISL_LOGHEAD_NEXT + 63) % 64) n detail = true) :
    d.record n detail k code = ((((d.markAbove n (classOf n detail code)).counted n k).merged
      ((d.fld SAFEISL_LOGHEAD_NEXT + 63) % 64) k).classFlag code (classOf n detail code)) := by
  obtain ⟨-, hnext, -, -⟩ := counted_log hn d k (classOf n detail code)
  have hmerge := mergesInto_counted hn d n detail k (classOf n detail code) (Nat.mod_lt (d.fld SAFEISL_LOGHEAD_NEXT + 63) (by decide : 0 < 64))
  rw [h, ← hnext] at hmerge
  rw [← hnext]
  exact congrArg (fun x : Dev => x.classFlag code (classOf n detail code)) (if_pos hmerge)

theorem record_new (h : d.mergesInto ((d.fld SAFEISL_LOGHEAD_NEXT + 63) % 64) n detail = false) :
    d.record n detail k code = ((((d.markAbove n (classOf n detail code)).counted n k).newRecord n detail k code
      (classOf n detail code)).classFlag code (classOf n detail code)) := by
  obtain ⟨-, hnext, -, -⟩ := counted_log hn d k (classOf n detail code)
  have hmerge := mergesInto_counted hn d n detail k (classOf n detail code) (Nat.mod_lt (d.fld SAFEISL_LOGHEAD_NEXT + 63) (by decide : 0 < 64))
  rw [h, ← hnext] at hmerge
  exact congrArg (fun x : Dev => x.classFlag code (classOf n detail code)) (if_neg (hmerge ▸ Bool.false_ne_true))

end

/-! ### The class of a record (R392) -/

theorem Dev.LogKept.classFlag (h : d.LogKept o) : (d.classFlag code cls).LogKept o := .ite h.setBitOf h

theorem Dev.LogKept.fld_class {i : Nat} (h : d.LogKept o) (hi : i < 64) :
    d.fld (SAFEISL_LOGW0_CLASS i) = o.fld (SAFEISL_LOGW0_CLASS i) :=
  fld_of_word _ (h.word _ (by show _ ≤ 0x0C0800 + 0x10 * i; omega) (by show 0x0C0800 + 0x10 * i < _; omega))

/-- The class of a new record stands in it, and no reaction touches it. -/
theorem newRecord_class (d : Dev) {n detail k code cls : Nat} :
    (d.newRecord n detail k code cls).LogKept (d.logged n detail k code cls) := by
  rw [newRecord_eq]
  exact .ite Dev.LogKept.refl.journal Dev.LogKept.refl

theorem logged_class (d : Dev) (h : cls < 8) :
    (d.logged n detail k code cls).fld (SAFEISL_LOGW0_CLASS (d.fld SAFEISL_LOGHEAD_NEXT)) = cls := by
  obtain ⟨-, -, hclass, -⟩ := recordBody_fields d (d.fld SAFEISL_LOGHEAD_NEXT) n detail k code cls
  exact (logged_record d n detail k code cls).trans (hclass.trans (Nat.mod_eq_of_lt h))

theorem record_class (hn : n < 256) (hcode : code < 8)
    (h : d.mergesInto ((d.fld SAFEISL_LOGHEAD_NEXT + 63) % 64) n detail = false) :
    (d.record n detail k code).fld (SAFEISL_LOGW0_CLASS (d.fld SAFEISL_LOGHEAD_NEXT)) = classOf n detail code := by
  obtain ⟨-, hnext, -, -⟩ := counted_log hn d k (classOf n detail code)
  have hi := fld_lt d SAFEISL_LOGHEAD_NEXT
  rw [record_new hn h]
  generalize (d.markAbove n (classOf n detail code)).counted n k = c at hnext ⊢
  rw [(Dev.LogKept.classFlag (newRecord_class c)).fld_class hi, ← hnext]
  exact logged_class c (classOf_lt hcode)

theorem processFault_class {x : Presented} {rest : List Nat} (h : d.nextFault = some (x, rest)) (hn : x.input < 256)
    (hm : d.mergesInto ((d.fld SAFEISL_LOGHEAD_NEXT + 63) % 64) x.input x.detail = false) :
    (processFault d).fld (SAFEISL_LOGW0_CLASS (d.fld SAFEISL_LOGHEAD_NEXT)) =
      classOf x.input x.detail (d.reactionOf x.input x.detail) := by
  have hrec := record_class (d := d.taken x rest) (k := x.count) hn (reaction_code_lt d x.input x.detail) hm
  have hi := fld_lt d SAFEISL_LOGHEAD_NEXT
  rw [processFault_of_next h]
  split
  · exact hrec
  · exact (Dev.LogKept.refl.react.fld_class hi).trans hrec

/-! ### A write of a reaction (R392, R393) -/

theorem floor_le (i : Nat) (h : fixedInput i = false) : (faultRow i).floor ≤ 5 :=
  (faultRow_inTable i).2.resolve_right (of_decide_eq_false h)

theorem reactionStored_of_free (i v : Nat) (h : fixedInput i = false) : reactionStored i v =
    if (if 6 ≤ v then 5 else v) < (faultRow i).floor then (faultRow i).floor else if 6 ≤ v then 5 else v := by
  rw [reactionStored, h, if_neg (by decide)]
  split_ifs <;> omega

theorem fld_reactWrite (hm : d.mode = modeBoot ∨ d.mode = modeConfig) (hl : d.fld SAFEISL_LOCK_LOCK = 0) {i v : Nat}
    (h : fixedInput i = false) (hv : v < 8) : (reactWrite i v d).fld (SAFEISL_REACT_REACT i) = reactionStored i v := by
  have hconf : d.configurable = true := by simpa [Dev.configurable] using hm
  have hopen : d.on SAFEISL_LOCK_LOCK = false := on_of_zero hl
  have hlt : reactionStored i v < 2 ^ 3 := by
    have := floor_le i h
    rw [reactionStored, h, if_neg (by decide)]
    omega
  rw [reactWrite, hconf, hopen]
  exact (fld_setFld_cut (a := 0x0C0400 + 0x4 * i) d _ (by decide)).trans (Nat.mod_eq_of_lt hlt)

/-- Settles O25: a new record's class, which no reaction touches, and the stored reaction. -/
theorem recordClass : Obligations.RecordClass := by
  refine fun s => ⟨fun x rest hnext hn hm => ?_, fun i v hmode hl hfix => ?_⟩
  · exact completes_onDev rfl fun _ => processFault_class hnext hn hm
  · exact completes_onDev rfl fun _ => (fld_reactWrite hmode hl hfix v.isLt).trans (reactionStored_of_free i v.toNat hfix)

end

section
variable {d e : Dev} {n detail k code : Nat}

/-! ### An F1 fault under RECORD or INTERRUPT (R391, R398) -/

theorem satAdd_eq_min (top x k : Nat) : satAdd top x k = min top (x + k) := by
  unfold satAdd
  split <;> omega

/-- The device with an F1 presentation recorded: merged, or in a record of its own. -/
def Dev.plainRecord (d : Dev) (n detail k code : Nat) : Dev :=
  if d.mergesInto ((d.fld SAFEISL_LOGHEAD_NEXT + 63) % 64) n detail = true then
    (d.counted n k).merged ((d.fld SAFEISL_LOGHEAD_NEXT + 63) % 64) k
  else (d.counted n k).logged n detail k code 1

theorem record_plain (hn : n < 256) (h : classOf n detail code = 1) :
    d.record n detail k code = (d.plainRecord n detail k code).classFlag code 1 := by
  unfold Dev.plainRecord
  split
  next hm => rw [record_merged hn hm, h, Dev.markAbove, if_neg (by decide)]
  next hm => rw [record_new hn (by simpa using hm), h, Dev.markAbove, if_neg (by decide), newRecord_eq, if_neg (by decide)]

/-- Under RECORD and INTERRUPT the reaction does nothing (R391). -/
theorem react_plain (h : code ≤ 1) : d.react n detail code = d := by
  have hpair : ∀ p, d.pairReaction n p code = d := fun p => by
    rw [Dev.pairReaction, if_neg (by omega), if_neg (by omega)]
  have hno : (code = 4 || (code = 3 && (pairOfFault n detail).isNone)) = false := by
    simp [show code ≠ 4 by omega, show code ≠ 3 by omega]
  unfold Dev.react
  cases pairOfFault n detail <;> simp only [hpair, if_neg (show ¬ code = 5 by omega)] <;> exact if_neg (by simp [show code ≠ 4 by omega, show code ≠ 3 by omega])

theorem processFault_plain {x : Presented} {rest : List Nat} (h : d.nextFault = some (x, rest)) (hn : x.input < 256)
    (hcode : d.reactionOf x.input x.detail ≤ 1) (hcls : classOf x.input x.detail (d.reactionOf x.input x.detail) = 1) :
    processFault d = ((d.taken x rest).plainRecord x.input x.detail x.count (d.reactionOf x.input x.detail)).classFlag
      (d.reactionOf x.input x.detail) 1 := by
  rw [processFault_of_next h, react_plain hcode, ite_self, record_plain hn hcls]

theorem fld_classFlag (d : Dev) (code cls : Nat) {a lo w : Nat} (h : a ≠ 0x0C0004) :
    (d.classFlag code cls).fld ⟨a, lo, w⟩ = d.fld ⟨a, lo, w⟩ := by
  unfold Dev.classFlag
  split
  · exact fld_setBitOf_off _ (.inl h)
  · rfl

theorem classFlag_interrupt (d : Dev) : ((d.classFlag 1 1).fld SAFEISL_ISTAT_FC).testBit 0 = true := by
  rw [Dev.classFlag, if_pos (Nat.le_refl 1), SAFEISL_ISTAT_FC, testBit_setBitOf_cut d (by decide) (by decide)]
  exact Bool.or_true _

/-- A new record leaves the rows of the reaction table. -/
theorem fld_logged_of_react {i lo w detail k code cls : Nat} (d : Dev) (hi : i < 256) :
    (d.logged n detail k code cls).fld ⟨0x0C0400 + 0x4 * i, lo, w⟩ = d.fld ⟨0x0C0400 + 0x4 * i, lo, w⟩ := by
  have hunread : ∀ x : Dev, x.recordUnread.fld ⟨0x0C0400 + 0x4 * i, lo, w⟩ = x.fld ⟨0x0C0400 + 0x4 * i, lo, w⟩ := fun x => by
    unfold Dev.recordUnread
    split
    · exact fld_setFld_off _ _ (by omega)
    · exact (fld_flag_off _ (by omega)).trans (fld_count_off _ (by omega))
  simp (disch := omega) only [Dev.logged, Dev.setOldest, SAFEISL_LOGREAD_OLDEST, fld_setFld_off, hunread]
  simp (disch := omega) only [Dev.recordHead, Dev.recordBody, setPair64_eq, SAFEISL_LOGW0_INPUT, SAFEISL_LOGW0_DETAIL,
    SAFEISL_LOGW0_CLASS, SAFEISL_LOGW0_REACT, SAFEISL_LOGW0_JNL, SAFEISL_LOGW1_COUNT, SAFEISL_LOGW2_TIME,
    SAFEISL_LOGW3_TIME, SAFEISL_LOGHEAD_NEXT, SAFEISL_LOGHEAD_TOTAL, fld_setFld_off]

theorem counted_count (d : Dev) (n k : Nat) :
    (d.counted n k).fld (SAFEISL_REACT_COUNT n) = min 65535 (d.fld (SAFEISL_REACT_COUNT n) + k) := by
  rw [Dev.counted, satAdd_eq_min]
  refine (fld_setFld_cut (a := 0x0C0400 + 0x4 * n) d _ (by decide)).trans (Nat.mod_eq_of_lt ?_)
  omega

theorem Dev.IslandWords.plainRecord (h : d.IslandWords e) (hn : n < 256) :
    d.IslandWords (e.plainRecord n detail k code) := by
  have hc : d.IslandWords (e.counted n k) :=
    h.setFld (by show _ ≤ 0x0C0400 + 0x4 * n; omega) (by show 0x0C0400 + 0x4 * n < _; omega)
  unfold Dev.plainRecord
  split
  · exact Dev.IslandWords.record (c := 0x0C0804) hc (Nat.mod_lt _ (by decide))
  · exact hc.logged

theorem Dev.IslandWords.classFlag {cls : Nat} (h : d.IslandWords e) : d.IslandWords (e.classFlag code cls) := by
  unfold Dev.classFlag
  split
  · exact Dev.IslandWords.setFld h
  · exact h

theorem plainRecord_count (hn : n < 256) :
    (d.plainRecord n detail k code).fld (SAFEISL_REACT_COUNT n) = min 65535 (d.fld (SAFEISL_REACT_COUNT n) + k) := by
  unfold Dev.plainRecord
  split
  · exact (fld_setFld_off _ _ (by omega)).trans (counted_count d n k)
  · exact (fld_logged_of_react _ hn).trans (counted_count d n k)

theorem plainRecord_log (hn : n < 256) (hd : detail < 65536) (hcode : code ≤ 1) (hu : d.fld SAFEISL_LOGREAD_UNREAD ≤ 64) :
    let e := d.plainRecord n detail k code
    let i := d.fld SAFEISL_LOGHEAD_NEXT
    if d.mergesInto ((i + 63) % 64) n detail = true then
      e.fld SAFEISL_LOGHEAD_NEXT = i ∧
      e.fld (SAFEISL_LOGW1_COUNT ((i + 63) % 64)) = min 65535 (d.fld (SAFEISL_LOGW1_COUNT ((i + 63) % 64)) + k)
    else
      e.fld SAFEISL_LOGHEAD_NEXT = (i + 1) % 64 ∧ e.fld (SAFEISL_LOGW0_INPUT i) = n ∧
      e.fld (SAFEISL_LOGW0_DETAIL i) = detail ∧ e.fld (SAFEISL_LOGW0_JNL i) = 0 ∧
      e.fld (SAFEISL_LOGW0_REACT i) = code ∧ e.fld SAFEISL_LOGREAD_UNREAD = min 64 (d.fld SAFEISL_LOGREAD_UNREAD + 1) := by
  intro e i
  have hcounted : ∀ a lo w, a < 0x0C0400 ∨ 0x0C0800 ≤ a → (d.counted n k).fld ⟨a, lo, w⟩ = d.fld ⟨a, lo, w⟩ :=
    fun a lo w ha => fld_setFld_off _ _ (by omega)
  have hnext : (d.counted n k).fld SAFEISL_LOGHEAD_NEXT = i := hcounted _ _ _ (by omega)
  have hunread : (d.counted n k).fld SAFEISL_LOGREAD_UNREAD = d.fld SAFEISL_LOGREAD_UNREAD := hcounted _ _ _ (by omega)
  split
  next hm =>
    have he : e = (d.counted n k).merged ((i + 63) % 64) k := if_pos hm
    rw [he, Dev.merged, satAdd_eq_min]
    refine ⟨(fld_setFld_off _ _ (by omega)).trans hnext, (fld_setFld_cut (a := 0x0C0804 + 0x10 * ((i + 63) % 64)) _ _ (by decide)).trans ?_⟩
    rw [show (d.counted n k).fld (SAFEISL_LOGW1_COUNT ((i + 63) % 64)) = d.fld (SAFEISL_LOGW1_COUNT ((i + 63) % 64)) from hcounted _ _ _ (by omega)]
    exact Nat.mod_eq_of_lt (by omega)
  next hm =>
    have he : e = (d.counted n k).logged n detail k code 1 := if_neg hm
    obtain ⟨hnext', hunread'⟩ := logged_head (d.counted n k) n detail k code 1 (hunread.trans_le hu)
    obtain ⟨hinput, hdetail, -, hreact, hjnl⟩ := recordBody_fields (d.counted n k) i n detail k code 1
    have hrec := fun lo w => logged_record (d.counted n k) n detail k code 1 (lo := lo) (w := w)
    rw [hnext] at hrec hnext'
    rw [he]
    exact ⟨hnext', (hrec _ _).trans (hinput.trans (Nat.mod_eq_of_lt hn)), (hrec _ _).trans (hdetail.trans (Nat.mod_eq_of_lt hd)),
      (hrec _ _).trans hjnl, (hrec _ _).trans (hreact.trans (Nat.mod_eq_of_lt (by omega))), hunread'.trans (by rw [hunread])⟩

/-- All that the record of an F1 fault leaves. -/
theorem plainRecord_leaves (d : Dev) (hn : n < 256) (hd : detail < 65536) (hcode : code ≤ 1)
    (hu : d.fld SAFEISL_LOGREAD_UNREAD ≤ 64) :
    let e := (d.plainRecord n detail k code).classFlag code 1
    let i := d.fld SAFEISL_LOGHEAD_NEXT
    d.IslandWords e ∧ e.fld (SAFEISL_REACT_COUNT n) = min 65535 (d.fld (SAFEISL_REACT_COUNT n) + k) ∧
    (code = 1 → (e.fld SAFEISL_ISTAT_FC).testBit 0 = true) ∧
    if d.mergesInto ((i + 63) % 64) n detail = true then
      e.fld SAFEISL_LOGHEAD_NEXT = i ∧
      e.fld (SAFEISL_LOGW1_COUNT ((i + 63) % 64)) = min 65535 (d.fld (SAFEISL_LOGW1_COUNT ((i + 63) % 64)) + k)
    else
      e.fld SAFEISL_LOGHEAD_NEXT = (i + 1) % 64 ∧ e.fld (SAFEISL_LOGW0_INPUT i) = n ∧
      e.fld (SAFEISL_LOGW0_DETAIL i) = detail ∧ e.fld (SAFEISL_LOGW0_JNL i) = 0 ∧
      e.fld (SAFEISL_LOGW0_REACT i) = code ∧
      e.fld SAFEISL_LOGREAD_UNREAD = min 64 (d.fld SAFEISL_LOGREAD_UNREAD + 1) := by
  intro e i
  have hlog := plainRecord_log (d := d) (k := k) hn hd hcode hu
  have hkeep : ∀ a lo w, a ≠ 0x0C0004 → e.fld ⟨a, lo, w⟩ = (d.plainRecord n detail k code).fld ⟨a, lo, w⟩ :=
    fun a lo w ha => fld_classFlag _ code 1 ha
  refine ⟨((Dev.IslandWords.refl d).plainRecord hn).classFlag, (hkeep _ _ _ (by omega)).trans (plainRecord_count hn),
    fun h1 => ?_, ?_⟩
  · subst h1
    exact classFlag_interrupt _
  · clear_value e
    simp (disch := omega) only [SAFEISL_LOGW0_INPUT, SAFEISL_LOGW0_DETAIL, SAFEISL_LOGW0_JNL, SAFEISL_LOGW0_REACT,
      SAFEISL_LOGW1_COUNT, SAFEISL_LOGHEAD_NEXT, SAFEISL_LOGREAD_UNREAD, hkeep]
    exact hlog

theorem fld_taken (d : Dev) (x : Presented) (rest : List Nat) (f : Fld) : (d.taken x rest).fld f = d.fld f := rfl

theorem mergesInto_taken (d : Dev) (x : Presented) (rest : List Nat) (i n detail : Nat) :
    (d.taken x rest).mergesInto i n detail = d.mergesInto i n detail := rfl

/-! ### The cycle (R387) -/

theorem sampled_of_next {x : Presented} {rest : List Nat} (h : d.nextFault = some (x, rest)) :
    d.sampled = x.input :: rest := by
  rw [Dev.nextFault] at h
  cases hs : d.sampled with
  | nil => simp [hs] at h
  | cons m l =>
    rw [hs] at h
    obtain ⟨y, hy, heq⟩ := Option.map_eq_some_iff.1 h
    have hin := List.find?_some hy
    cases heq
    rw [of_decide_eq_true hin]

/-- A cycle samples every ready input, the lowest first. -/
theorem sampled_lowest {m : Nat} {rest : List Nat} (hc : d.island.cycle = []) (h : d.sampled = m :: rest) :
    ∀ y ∈ d.readyFaults, y.input < 256 → m ≤ y.input := by
  intro y hy hlt
  have hs : d.sampled = (List.range 256).filter (fun n => d.readyFaults.any (fun x => x.input = n)) := by
    rw [Dev.sampled, hc]
    rfl
  have hmem : y.input ∈ d.sampled := by
    rw [hs, List.mem_filter, List.mem_range, List.any_eq_true]
    exact ⟨hlt, y, hy, decide_eq_true rfl⟩
  have hsorted : d.sampled.Pairwise (· < ·) := hs ▸ List.pairwise_lt_range.filter _
  rw [h] at hmem hsorted
  rcases List.mem_cons.1 hmem with heq | hrest
  · exact heq.ge
  · exact (List.rel_of_pairwise_cons hsorted hrest).le

/-- Settles O26, the record, the cycle and what else changes each from its own lemma. -/
theorem plainFaultRecorded : Obligations.PlainFaultRecorded := by
  intro s x rest hnext hcode hcls hn hd hu
  refine completes_onDev rfl fun _ => ?_
  obtain ⟨hwords, hcount, hflag, hlog⟩ := plainRecord_leaves (k := x.count) (s.dev.taken x rest) hn hd hcode hu
  rw [processFault_plain hnext hn hcode hcls]
  simp only [fld_taken, mergesInto_taken] at hcount hlog
  generalize (((s.dev.taken x rest).plainRecord x.input x.detail x.count (s.dev.reactionOf x.input x.detail)).classFlag
    (s.dev.reactionOf x.input x.detail) 1) = e at hwords hcount hflag hlog ⊢
  exact ⟨sampled_of_next hnext, fun hc => sampled_lowest hc (sampled_of_next hnext), hwords.only, hcount, hflag, hlog,
    hwords.word⟩

end

section
variable {d e : Dev}

/-! ### Lanes (R385) -/

theorem lanes_without (lane l : Fin 3) : (withoutBit 7 lane % 2 ^ 3).testBit l = decide (l ≠ lane) := by
  revert lane l
  decide

/-- The first difference takes the named lane out of the vote. -/
theorem dropLane_leaves (lane : Fin 3) (h : d.fld SAFEISL_STAT_LANES = 7) :
    let e := dropLane lane d
    (∀ l : Fin 3, (e.fld SAFEISL_STAT_LANES).testBit l = decide (l ≠ lane)) ∧ e.hasFault fiIslVote lane = true ∧
    e = { d with io := e.io, island := e.island } ∧ d.SameWords e [0x0C0000] := by
  have he : dropLane lane d = (d.setFld SAFEISL_STAT_LANES (withoutBit 7 lane)).present fiIslVote lane := by
    rw [dropLane, if_pos h, clearBitOf_eq, h]
  intro e
  have hlane : e.fld SAFEISL_STAT_LANES = withoutBit 7 lane % 2 ^ 3 := by
    rw [show e = _ from he, fld_present]
    exact fld_setFld_cut d _
  refine ⟨fun l => hlane ▸ lanes_without lane l, ?_, ?_, ?_⟩
  · rw [show e = _ from he]
    exact (Dev.awaits_present _ _ (by omega)).hasFault
  · rw [show e = _ from he]
    rfl
  · rw [show e = _ from he]
    exact (((Dev.Regs.refl d _).setFld _ _ (by decide)).present _ _).word

theorem resyncLanes_leaves (d : Dev) :
    (resyncLanes d).fld SAFEISL_STAT_LANES = 7 ∧ resyncLanes d = { d with io := (resyncLanes d).io } ∧
    d.SameWords (resyncLanes d) [0x0C0000] ∧
    (resyncLanes d).fld SAFEISL_STAT_FORCE = d.fld SAFEISL_STAT_FORCE :=
  ⟨fld_setFld_cut d 7, rfl, ((Dev.Regs.refl d _).setFld _ _ (by decide)).word, fld_setFld_apart d 7 (by decide)⟩

theorem lanesDiffer_leaves (d : Dev) :
    (lanesDiffer d).backInBoot = true ∧ (∀ g < 12, ((lanesDiffer d).group g).safe = true) ∧
    (lanesDiffer d).island.keptCause = some (fiIslVote, 3) := by
  obtain ⟨hboot, hdrive, -⟩ := keptReset_restarts d fiIslVote 3 trigLanes
  exact ⟨hboot, fun g _ => safe_of_drive_reset hdrive g, rfl⟩

/-! ### The log and the counts (R398, R399) -/

theorem logAck_leaves (d : Dev) (n : Nat) :
    let e := logAck n d
    e.fld SAFEISL_LOGREAD_UNREAD = d.fld SAFEISL_LOGREAD_UNREAD - n ∧
    e.fld SAFEISL_LOGREAD_OLDEST = (d.fld SAFEISL_LOGHEAD_NEXT + 64 - e.fld SAFEISL_LOGREAD_UNREAD) % 64 ∧
    e = { d with io := e.io } ∧ d.SameWords e [0x0C0028] := by
  have hu : d.fld SAFEISL_LOGREAD_UNREAD < 2 ^ 7 := fld_lt d _
  unfold logAck
  generalize hx : d.setFld SAFEISL_LOGREAD_UNREAD (d.fld SAFEISL_LOGREAD_UNREAD - n) = x
  have hunread : x.fld SAFEISL_LOGREAD_UNREAD = d.fld SAFEISL_LOGREAD_UNREAD - n := by
    rw [← hx]
    exact (fld_setFld_cut d _).trans (Nat.mod_eq_of_lt (by omega))
  have hnext : x.fld SAFEISL_LOGHEAD_NEXT = d.fld SAFEISL_LOGHEAD_NEXT := hx ▸ fld_setFld_apart d _ (by decide)
  have hkept : x.setOldest.fld SAFEISL_LOGREAD_UNREAD = x.fld SAFEISL_LOGREAD_UNREAD := fld_setFld_apart x _ (by decide)
  refine ⟨hkept.trans hunread, ?_, ?_, ?_⟩
  · rw [hkept, ← hnext]
    exact (fld_setFld_cut x _).trans (Nat.mod_mod _ _)
  · rw [← hx]
    rfl
  · rw [← hx]
    exact (((Dev.Regs.refl d _).setFld _ _ (by decide)).setFld _ _ (by decide)).word

theorem clearFaultCounts_eq (d : Dev) : clearFaultCounts d = d.clearRows 0x0C0400 4 16 16 (List.range 256) := rfl

theorem clearFaultCounts_leaves (d : Dev) :
    (∀ i < 256, (clearFaultCounts d).fld (SAFEISL_REACT_COUNT i) = 0 ∧
      (clearFaultCounts d).fld (SAFEISL_REACT_REACT i) = d.fld (SAFEISL_REACT_REACT i)) ∧
    clearFaultCounts d = { d with io := (clearFaultCounts d).io } := by
  refine ⟨fun i hi => ⟨?_, ?_⟩, ?_⟩ <;> rw [clearFaultCounts_eq]
  · exact fld_clearRows d (by decide) (by decide) (List.mem_range.2 hi)
  · exact fld_clearRows_off d fun j _ => .inr (.inr (by decide : 0 + 3 ≤ 16))
  · exact clearRows_only d

/-- The inputs and counts that an hour's entry holds (R399). -/
def Dev.hourCounts (d : Dev) : List Nat :=
  ((List.range 256).filter (fun n => d.plainInput n && d.fld (SAFEISL_REACT_COUNT n) != 0)).flatMap
    (fun n => [n, d.fld (SAFEISL_REACT_COUNT n)])

/-- The device in an hour that is marked as journaled. -/
def Dev.atHour (d : Dev) (hour : Nat) : Dev := { d with island := { d.island with lastHour := hour } }

theorem hourlyCounts_due (h : d.island.lastHour < d.islandTime / 3600000000) : hourlyCounts d =
    if d.hourCounts.isEmpty then d.atHour (d.islandTime / 3600000000)
    else (d.atHour (d.islandTime / 3600000000)).journal 0x13 d.hourCounts := by
  rw [hourlyCounts, if_pos h]
  rfl

theorem hourCounts_ne_nil {n : Nat} (hn : n < 256) (hp : d.plainInput n = true) (hc : d.fld (SAFEISL_REACT_COUNT n) ≠ 0) :
    d.hourCounts ≠ [] := by
  intro h
  have hnone := List.flatMap_eq_nil_iff.1 h n
    (List.mem_filter.2 ⟨List.mem_range.2 hn, by rw [hp, Bool.true_and, bne_iff_ne]; exact hc⟩)
  cases hnone

theorem hourCounts_eq_nil (h : ∀ n < 256, d.plainInput n = true → d.fld (SAFEISL_REACT_COUNT n) = 0) :
    d.hourCounts = [] := by
  have hnone : (List.range 256).filter (fun n => d.plainInput n && d.fld (SAFEISL_REACT_COUNT n) != 0) = [] := by
    refine List.filter_eq_nil_iff.2 fun n hn hb => ?_
    rw [Bool.and_eq_true, bne_iff_ne] at hb
    exact hb.2 (h n (List.mem_range.1 hn) hb.1)
  rw [Dev.hourCounts, hnone]
  rfl

/-- An entry of a type that is not sealed at once stands open. -/
theorem journal_opens {type : Nat} (args : List Nat) (body : List Byte) (hs : sealedType type = false)
    (hf : d.nvs.full = false) : ∃ j ∈ (d.journal type args body).nvs.opened, j.type = type := by
  have he : d.journal type args body = d.addEntry type args body := by
    simp only [Dev.journal, hf, hs, Bool.false_eq_true, if_false]
  rw [he, Dev.addEntry, hf, if_neg (by decide)]
  exact ⟨_, List.mem_append_right _ (List.mem_singleton.2 rfl), rfl⟩

theorem hourlyCounts_leaves (h : d.island.lastHour < d.islandTime / 3600000000) :
    let e := hourlyCounts d
    e.island.lastHour = d.islandTime / 3600000000 ∧
    ((∃ n < 256, d.plainInput n = true ∧ d.fld (SAFEISL_REACT_COUNT n) ≠ 0) → d.nvs.full = false →
      ∃ j ∈ e.nvs.opened, j.type = 0x13) ∧
    ((∀ n < 256, d.plainInput n = true → d.fld (SAFEISL_REACT_COUNT n) = 0) → e.nvs = d.nvs) := by
  intro e
  have he : e = _ := hourlyCounts_due h
  rw [he]
  refine ⟨?_, fun ⟨n, hn, hp, hc⟩ hfull => ?_, fun hall => ?_⟩
  · split
    · rfl
    · have hj := congrArg (fun x : Dev => x.island.lastHour)
        (journal_frame (d.atHour (d.islandTime / 3600000000)) 0x13 d.hourCounts []).1
      exact hj
  · rw [if_neg (by simpa using hourCounts_ne_nil hn hp hc)]
    exact journal_opens _ _ (by decide) hfull
  · rw [hourCounts_eq_nil hall]
    rfl

/-! ### A write of a reaction that is refused (R393) -/

theorem reactWrite_elsewhere {i v : Nat} (hb : d.mode ≠ modeBoot) (hc : d.mode ≠ modeConfig) :
    reactWrite i v d = d.flag SAFEISL_ISTAT_WREFUSED := by
  have hconf : d.configurable = false := by simp [Dev.configurable, hb, hc]
  rw [reactWrite, hconf]
  rfl

theorem reactWrite_locked {i v : Nat} (hm : d.mode = modeBoot ∨ d.mode = modeConfig) (hl : d.fld SAFEISL_LOCK_LOCK = 1) :
    reactWrite i v d = d := by
  have hconf : d.configurable = true := by simpa [Dev.configurable] using hm
  rw [reactWrite, hconf, on_of_one hl]
  rfl

/-- Settles O27, each command from the lemma about it. -/
theorem islandLanesAndLog : Obligations.IslandLanesAndLog := by
  refine ⟨fun s lane => ⟨fun h => ?_, ?_, ?_⟩, fun s => ⟨fun n => ?_, ?_, fun h => ?_, fun i v => ⟨fun hb hc => ?_,
    fun hm hl => ?_⟩⟩⟩
  · exact completes_onDev rfl fun _ => dropLane_leaves lane h
  · exact completes_onDev rfl fun _ => resyncLanes_leaves s.dev
  · exact completes_onDev rfl fun _ => lanesDiffer_leaves s.dev
  · exact completes_onDev rfl fun _ => logAck_leaves s.dev n.toNat
  · exact completes_onDev rfl fun _ => clearFaultCounts_leaves s.dev
  · exact completes_onDev rfl fun _ => hourlyCounts_leaves h
  · refine completes_onDev rfl fun _ => ?_
    rw [reactWrite_elsewhere hb hc]
    exact ⟨fld_flag s.dev, rfl, ((Dev.Regs.refl s.dev _).setFld _ _ (by decide)).word⟩
  · exact completes_onDev rfl fun _ => reactWrite_locked hm hl

end
end Sys2Proof.Machine
end

section
/-! PROOFS. Keeper: the window in progress, its close, a write of SVC, a check-in and an expiry (R401 to R412,
`Obligations.KeeperServed`, `Obligations.KeeperCheckIn`, `Obligations.KeeperWindowsAndExpiry`). -/

set_option Elab.async false

namespace Sys2Proof.Machine

section
variable {d e : Dev}

/-! ### Only registers -/

/-- The device differs in its registers alone. -/
abbrev Dev.OnlyIo (d e : Dev) : Prop := e = { d with io := e.io }

theorem Dev.OnlyIo.refl (d : Dev) : d.OnlyIo d := rfl

theorem Dev.OnlyIo.setFld {f : Fld} {v : Nat} (h : d.OnlyIo e) : d.OnlyIo (e.setFld f v) :=
  congrArg (fun x : Dev => { x with io := (e.setFld f v).io }) h

theorem Dev.OnlyIo.pairs (h : d.OnlyIo e) : e.pairs = d.pairs := by rw [h]

theorem Dev.OnlyIo.keeper (h : d.OnlyIo e) : e.keeper = d.keeper := by rw [h]

theorem Dev.OnlyIo.trans {f : Dev} (h : d.OnlyIo e) (h' : e.OnlyIo f) : d.OnlyIo f := by
  rw [Dev.OnlyIo, h', h]

/-! ### Expiry asked for (R404, R409) -/

theorem expireWith_io (d : Dev) (cause : Nat) : (d.expireWith cause).io = d.io := by
  unfold Dev.expireWith
  split <;> rfl

theorem fld_expireWith (d : Dev) (cause : Nat) (f : Fld) : (d.expireWith cause).fld f = d.fld f :=
  fld_of_io (expireWith_io d cause) f

theorem expireWith_deaf {cause : Nat} (h : d.keeperDeaf = true) : d.expireWith cause = d := if_pos h

theorem expireWith_listening {cause : Nat} (h : d.keeperDeaf = false) :
    d.expireWith cause = { d with keeper := { d.keeper with expiring := some cause } } :=
  if_neg (h ▸ Bool.false_ne_true)

theorem keeperDeaf_eq_false (hst : d.fld KEEPER_STAT_STATE = 2) (hexp : d.keeper.expiring = none) :
    d.keeperDeaf = false := by
  rw [Dev.keeperDeaf, hst, hexp]
  rfl

theorem keeperDeaf_of_expiring {c : Nat} (hexp : d.keeper.expiring = some c) : d.keeperDeaf = true := by
  rw [Dev.keeperDeaf, hexp]
  exact Bool.or_true _

/-- Keeper's faults, its expiry and its windows touch no other part of the device. -/
theorem expireWith_butMode (d : Dev) (cause : Nat) : (d.expireWith cause).butMode = d.butMode := by
  unfold Dev.expireWith
  split <;> rfl

/-! ### The close tick (R408) -/

/-- The masks of the tasks that fail, recorded at a close. -/
def Dev.masksKept (d : Dev) : Dev :=
  (d.setPair64 (KEEPER_TLO_FAIL 0) (KEEPER_TLO_FAIL 1) d.taskFails.1).setPair64 (KEEPER_THI_FAIL 0) (KEEPER_THI_FAIL 1)
    d.taskFails.2

/-- The tasks judged at a close: the fail masks recorded, and what a failure does. -/
def Dev.tasksJudged (d : Dev) : Dev :=
  if d.taskFails.1 + d.taskFails.2 = 0 then d.masksKept
  else if (d.masksKept.fld KEEPER_CFG_ACT).testBit 3 then (d.masksKept.flag KEEPER_ISTAT_TASK).expireWith 4
  else (d.masksKept.flag KEEPER_ISTAT_TASK).present fiKprTask (lowestBit (d.taskFails.1 ||| d.taskFails.2))

/-- The service judged at a close. -/
def Dev.serviceJudged (d : Dev) : Dev := if d.on KEEPER_STAT_SERVED then d else d.expireWith 0

/-- The device with its window begun at a tick. -/
def Dev.windowAt (d : Dev) (start : Nat) : Dev := { d with keeper := { d.keeper with winStart := start } }

theorem windowClose_eq (d : Dev) : windowClose d =
    if d.fld KEEPER_STAT_STATE = 2 && d.keeper.expiring.isNone &&
        d.elapsed d.keeper.winStart (d.fld KEEPER_WIN_CLOSE * d.ktTicks) then
      if d.serviceJudged.tasksJudged.keeper.expiring.isSome then d.serviceJudged.tasksJudged
      else d.serviceJudged.tasksJudged.freshWindow.windowAt
        (d.serviceJudged.tasksJudged.keeper.winStart + d.fld KEEPER_WIN_CLOSE * d.ktTicks)
    else d := by
  generalize hfun : windowClose = f
  delta windowClose at hfun
  subst hfun
  beta_reduce
  generalize hfresh : Dev.freshWindow = fresh
  generalize hfails : Dev.taskFails = fails
  unfold Dev.windowAt Dev.tasksJudged Dev.masksKept Dev.serviceJudged
  rw [hfails]

theorem windowClose_due (hst : d.fld KEEPER_STAT_STATE = 2) (hexp : d.keeper.expiring = none)
    (hdue : d.keeper.winStart + d.fld KEEPER_WIN_CLOSE * d.ktTicks ≤ d.ticks) : windowClose d =
      if d.serviceJudged.tasksJudged.keeper.expiring.isSome then d.serviceJudged.tasksJudged
      else d.serviceJudged.tasksJudged.freshWindow.windowAt
        (d.serviceJudged.tasksJudged.keeper.winStart + d.fld KEEPER_WIN_CLOSE * d.ktTicks) := by
  rw [windowClose_eq, if_pos]
  simp [hst, hexp, Dev.elapsed, hdue]

theorem windowClose_early (h : d.ticks < d.keeper.winStart + d.fld KEEPER_WIN_CLOSE * d.ktTicks) : windowClose d = d := by
  rw [windowClose_eq, if_neg]
  simp [Dev.elapsed, h]

/-- The registers that a close touches. -/
def windowRegs : List Nat := [0x0D0010, 0x0D0040, 0x0D0044, 0x0D0048, 0x0D004C] ++ keeperRegs

/-- The registers, apart from those that hold the tasks' settings, that judging the tasks touches. -/
def judgeRegs : List Nat := [0x0D0010, 0x0D0040, 0x0D0044, 0x0D0048, 0x0D004C]

theorem masksKept_frame (d : Dev) : d.masksKept.butMode = d.butMode ∧ d.Regs d.masksKept judgeRegs :=
  ⟨by simp [Dev.masksKept], ((((Dev.Regs.refl d _).setFld _ _ (by decide)).setFld _ _ (by decide)).setFld _ _ (by decide)).setFld _ _ (by decide)⟩

theorem tasksJudged_frame (d : Dev) : d.tasksJudged.butMode = d.butMode ∧ d.Regs d.tasksJudged judgeRegs := by
  obtain ⟨hbut, hregs⟩ := masksKept_frame d
  unfold Dev.tasksJudged
  generalize d.masksKept = f at hbut hregs ⊢
  have hflag : d.Regs (f.flag KEEPER_ISTAT_TASK) judgeRegs := hregs.setFld _ _ (by decide)
  have hflagged : (f.flag KEEPER_ISTAT_TASK).butMode = d.butMode := (butMode_setFld _ _ _).trans hbut
  generalize f.flag KEEPER_ISTAT_TASK = g at hflag hflagged ⊢
  split
  · exact ⟨hbut, hregs⟩
  · split
    · exact ⟨(expireWith_butMode _ _).trans hflagged, hflag.same (expireWith_io _ _)⟩
    · exact ⟨(butMode_present _ _ _).trans hflagged, hflag.present _ _⟩

theorem serviceJudged_frame (d : Dev) (l : List Nat) :
    d.serviceJudged.butMode = d.butMode ∧ d.serviceJudged.io = d.io ∧ d.Regs d.serviceJudged l := by
  unfold Dev.serviceJudged
  split
  · exact ⟨rfl, rfl, .refl d _⟩
  · exact ⟨expireWith_butMode d 0, expireWith_io d 0, (Dev.Regs.refl d _).same (expireWith_io d 0)⟩

theorem windowAt_frame (d : Dev) (start : Nat) (l : List Nat) :
    (d.windowAt start).butMode = d.butMode ∧ d.Regs (d.windowAt start) l := ⟨rfl, (Dev.Regs.refl d l).same rfl⟩

theorem windowClose_frame (d : Dev) : (windowClose d).butMode = d.butMode ∧ d.Regs (windowClose d) windowRegs := by
  have hk : keeperRegs ⊆ windowRegs := List.subset_append_right _ _
  have hj : judgeRegs ⊆ windowRegs := List.subset_append_left _ _
  rw [windowClose_eq]
  split
  · obtain ⟨hbut, -, hregs⟩ := serviceJudged_frame d windowRegs
    obtain ⟨hbut', hregs'⟩ := tasksJudged_frame d.serviceJudged
    generalize d.serviceJudged.tasksJudged = j at hbut' hregs' ⊢
    split
    · exact ⟨hbut'.trans hbut, hregs.trans (hregs'.mono hj)⟩
    · obtain ⟨hfresh, -, -, hfregs⟩ := freshWindow_frame j
      generalize j.freshWindow = f at hfresh hfregs ⊢
      obtain ⟨hat, hatregs⟩ := windowAt_frame f (j.keeper.winStart + d.fld KEEPER_WIN_CLOSE * d.ktTicks) windowRegs
      exact ⟨hat.trans (hfresh.trans (hbut'.trans hbut)),
        ((hregs.trans (hregs'.mono hj)).trans (hfregs.mono hk)).trans hatregs⟩
  · exact ⟨rfl, .refl d _⟩

theorem closeDue_frame (d : Dev) : d.closeDue.butMode = d.butMode ∧ d.Regs d.closeDue windowRegs := by
  obtain ⟨hbut, hregs⟩ := windowClose_frame d
  obtain ⟨hbut', hregs'⟩ := windowClose_frame (windowClose d)
  exact ⟨hbut'.trans hbut, hregs.trans hregs'⟩

theorem closeDue_early (h : d.ticks < d.keeper.winStart + d.fld KEEPER_WIN_CLOSE * d.ktTicks) : d.closeDue = d := by
  rw [Dev.closeDue, windowClose_early h, windowClose_early h]

/-! ### Enabling (R401, R403, R404) -/

/-- The device with its window begun now, and not frozen. -/
def Dev.windowNow (d : Dev) : Dev := { d with keeper := { d.keeper with winStart := d.ticks, frozenAt := none } }

theorem freshWindow_now (d : Dev) : d.freshWindow = (d.clearCounts.setFld KEEPER_STAT_SERVED 0).windowNow := by
  unfold Dev.freshWindow
  generalize d.clearCounts = c
  rfl

theorem windowNow_of_io {c : Dev} (honly : c = { d with io := c.io }) :
    (c.setFld KEEPER_STAT_SERVED 0).windowNow.keeper = { d.keeper with winStart := d.ticks, frozenAt := none } ∧
    (c.setFld KEEPER_STAT_SERVED 0).windowNow = { d with
      io := (c.setFld KEEPER_STAT_SERVED 0).windowNow.io, keeper := (c.setFld KEEPER_STAT_SERVED 0).windowNow.keeper } := by
  generalize hx : c.setFld KEEPER_STAT_SERVED 0 = x
  have honly' : x = { d with io := x.io } := by
    rw [← hx]
    exact congrArg (fun y : Dev => { y with io := (c.setFld KEEPER_STAT_SERVED 0).io }) honly
  generalize x.io = i at honly'
  subst honly'
  exact ⟨rfl, rfl⟩

theorem fld_windowNow (d : Dev) (f : Fld) : d.windowNow.fld f = d.fld f := rfl

/-- A fresh window is unserved, starts now, and every count in it is zero. -/
theorem freshWindow_starts (d : Dev) : d.freshWindow.fld KEEPER_STAT_SERVED = 0 ∧
    d.freshWindow.fld KEEPER_STAT_STATE = d.fld KEEPER_STAT_STATE ∧
    (∀ t < 64, d.freshWindow.fld (KEEPER_TASK_COUNT t) = 0) ∧
    d.freshWindow.keeper = { d.keeper with winStart := d.ticks, frozenAt := none } ∧
    d.freshWindow = { d with io := d.freshWindow.io, keeper := d.freshWindow.keeper } := by
  have hcounts : d.clearCounts = d.clearRows 0x0D0100 4 16 8 (List.range 64) := rfl
  have honly : d.clearCounts = { d with io := d.clearCounts.io } := by
    rw [hcounts]
    exact clearRows_only d
  have hzero : ∀ t < 64, d.clearCounts.fld (KEEPER_TASK_COUNT t) = 0 := fun t ht => by
    rw [hcounts]
    exact fld_clearRows d (by decide) (by decide) (List.mem_range.2 ht)
  have hstate : d.clearCounts.fld KEEPER_STAT_STATE = d.fld KEEPER_STAT_STATE := by
    rw [hcounts]
    exact fld_clearRows_off d fun t _ => .inl (show 0x0D000C ≠ 0x0D0100 + 4 * t by omega)
  rw [freshWindow_now]
  clear hcounts
  generalize d.clearCounts = c at honly hzero hstate ⊢
  obtain ⟨hkeeper, hframe⟩ := windowNow_of_io honly
  refine ⟨?_, ?_, fun t ht => ?_, hkeeper, hframe⟩
  · rw [fld_windowNow]
    exact fld_setFld_cut c 0
  · rw [fld_windowNow]
    exact (fld_setFld_apart c 0 (by decide)).trans hstate
  · rw [fld_windowNow, KEEPER_STAT_SERVED, KEEPER_TASK_COUNT, fld_setFld_off c 0 (by omega)]
    exact hzero t ht

/-- The settings of CFG from the written word, and LOCK. -/
def Dev.cfgSet (d : Dev) (w : Nat) : Dev :=
  (((((d.setFld KEEPER_CFG_CLK (bitOf w 28)).setFld KEEPER_CFG_UNIT (bitOf w 27)).setFld KEEPER_CFG_HARD
    (bitsOf w 20 6)).setFld KEEPER_CFG_SVCP (bitsOf w 16 4)).setFld KEEPER_CFG_ACT (bitsOf w 8 4)).setFld KEEPER_LOCK_LOCK 1

/-- Keeper time at 0. -/
def Dev.keeperNow (d : Dev) : Dev := { d with keeper := { start := d.ticks, winStart := d.ticks } }

theorem keeperEnable_off {w : Nat} (h : d.fld KEEPER_LOCK_LOCK = 0) :
    keeperEnable w d = ((d.cfgSet w).keeperNow.setFld KEEPER_STAT_STATE 1).keeperMode (d.cfgSet w).keeperNow.mode := by
  rw [keeperEnable, on_of_zero h, if_neg Bool.false_ne_true]
  extract_lets d1 d2 d3 d4
  have h3 : d3 = d.cfgSet w := rfl
  have h4 : d4 = d3.keeperNow := rfl
  rw [h4, h3]

theorem keeperEnable_on {w : Nat} (h : d.fld KEEPER_LOCK_LOCK = 1) : keeperEnable w d = d := by
  rw [keeperEnable, on_of_one h]
  rfl

theorem cfgSet_leaves (d : Dev) (w : Nat) :
    let x := d.cfgSet w
    x.fld KEEPER_CFG_CLK = w / 2 ^ 28 % 2 ∧ x.fld KEEPER_CFG_UNIT = w / 2 ^ 27 % 2 ∧
    x.fld KEEPER_CFG_HARD = w / 2 ^ 20 % 64 ∧ x.fld KEEPER_CFG_SVCP = w / 2 ^ 16 % 16 ∧
    x.fld KEEPER_CFG_ACT = w / 2 ^ 8 % 16 ∧ x.fld KEEPER_LOCK_LOCK = 1 ∧ x.mode = d.mode ∧ x = { d with io := x.io } := by
  refine ⟨?_, ?_, ?_, ?_, ?_, ?_, ?_, (Dev.OnlyIo.refl d).setFld.setFld.setFld.setFld.setFld.setFld⟩ <;>
    simp (disch := decide) only [Dev.cfgSet, Dev.mode, fld_setFld_apart, fld_setFld_same, bitOf, bitsOf,
      Nat.shiftRight_eq_div_pow]
  · exact Nat.mod_mod _ _
  · exact Nat.mod_mod _ _
  · exact Nat.mod_mod _ _
  · exact Nat.mod_mod _ _
  · exact Nat.mod_mod _ _
  · rfl

/-- Keeper time at 0, in HOLD. -/
theorem keeperNow_leaves (d : Dev) :
    let x := d.keeperNow.setFld KEEPER_STAT_STATE 1
    x.fld KEEPER_STAT_STATE = 1 ∧ (∀ f : Fld, f.addr = 0x0D0000 ∨ f.addr = 0x0D003C → x.fld f = d.fld f) ∧
    d.keeperNow.mode = d.mode ∧ x.keeper.start = d.ticks ∧ x.ticks = d.ticks ∧
    x = { d with io := x.io, keeper := x.keeper } := by
  refine ⟨fld_setFld_cut _ _, fun f hf => ?_, rfl, rfl, rfl, rfl⟩
  refine (fld_setFld_apart d.keeperNow 1 (.inl ?_)).trans rfl
  rcases hf with hf | hf <;> rw [hf] <;> decide

/-- The device with Keeper's window not frozen. -/
def Dev.unfrozen (d : Dev) : Dev := { d with keeper := { d.keeper with frozenAt := none } }

/-- Keeper as its first mode has it (R404). -/
theorem keeperMode_of_hold {m : Nat} (h : d.fld KEEPER_STAT_STATE = 1) : d.keeperMode m =
    if watchMode m then (d.setFld KEEPER_STAT_STATE 2).freshWindow else (d.setFld KEEPER_STAT_STATE 1).unfrozen := by
  unfold Dev.keeperMode
  rw [h]
  generalize Dev.freshWindow = fresh
  rfl

theorem watchMode_iff (m : Nat) : watchMode m = true ↔ m = modeRun ∨ m = modeDegraded ∨ m = modeSafeStop := by
  simp [watchMode, or_assoc]

/-- The first mode leaves Keeper in WATCH with a fresh window, or in HOLD. -/
theorem keeperMode_starts {m : Nat} (h : d.fld KEEPER_STAT_STATE = 1) :
    let e := d.keeperMode m
    e.fld KEEPER_STAT_STATE = (if m = modeRun ∨ m = modeDegraded ∨ m = modeSafeStop then 2 else 1) ∧
    (e.fld KEEPER_STAT_STATE = 2 → e.keeper.winStart = d.ticks ∧ e.fld KEEPER_STAT_SERVED = 0 ∧
      ∀ t < 64, e.fld (KEEPER_TASK_COUNT t) = 0) ∧
    e.keeper.start = d.keeper.start ∧ e = { d with io := e.io, keeper := e.keeper } := by
  intro e
  have he : e = _ := keeperMode_of_hold h
  clear_value e
  have hset : ∀ v, (d.setFld KEEPER_STAT_STATE v).fld KEEPER_STAT_STATE = v % 2 ^ 3 := fun v => fld_setFld_cut d v
  by_cases hw : watchMode m = true
  · obtain ⟨hserved, hstate, hcounts, hkeeper, honly⟩ := freshWindow_starts (d.setFld KEEPER_STAT_STATE 2)
    rw [if_pos hw] at he
    rw [← he] at hserved hstate hcounts hkeeper honly
    rw [if_pos ((watchMode_iff m).1 hw), hkeeper]
    refine ⟨hstate.trans (hset 2), fun _ => ⟨rfl, hserved, hcounts⟩, rfl, ?_⟩
    rw [← hkeeper]
    exact honly
  · rw [if_neg hw] at he
    have hstate : e.fld KEEPER_STAT_STATE = 1 := he ▸ hset 1
    rw [if_neg (mt (watchMode_iff m).2 hw)]
    refine ⟨hstate, fun h2 => absurd (hstate.symm.trans h2) (by decide), ?_, ?_⟩
    · rw [he]
      rfl
    · rw [he]
      rfl

theorem keeperEnable_leaves {w : Nat} (h : d.fld KEEPER_LOCK_LOCK = 0) :
    let e := keeperEnable w d
    e.fld KEEPER_CFG_CLK = w / 2 ^ 28 % 2 ∧ e.fld KEEPER_CFG_UNIT = w / 2 ^ 27 % 2 ∧
    e.fld KEEPER_CFG_HARD = w / 2 ^ 20 % 64 ∧ e.fld KEEPER_CFG_SVCP = w / 2 ^ 16 % 16 ∧
    e.fld KEEPER_CFG_ACT = w / 2 ^ 8 % 16 ∧ e.fld KEEPER_LOCK_LOCK = 1 ∧ e.keeper.start = d.ticks ∧
    e.fld KEEPER_STAT_STATE = (if d.mode = modeRun ∨ d.mode = modeDegraded ∨ d.mode = modeSafeStop then 2 else 1) ∧
    (e.fld KEEPER_STAT_STATE = 2 → e.keeper.winStart = d.ticks ∧ e.fld KEEPER_STAT_SERVED = 0 ∧
      ∀ t < 64, e.fld (KEEPER_TASK_COUNT t) = 0) ∧ e = { d with io := e.io, keeper := e.keeper } := by
  obtain ⟨hclk, hunit, hhard, hsvcp, hact, hlock, hmode, hcfg⟩ := cfgSet_leaves d w
  intro e
  have he : e = _ := keeperEnable_off h
  generalize d.cfgSet w = c at *
  obtain ⟨hhold, hkept, hmode', hstart, hticks, honly⟩ := keeperNow_leaves c
  have hct : c.ticks = d.ticks := by rw [hcfg]
  rw [hct] at hstart hticks
  rw [hmode', hmode] at he
  generalize c.keeperNow.setFld KEEPER_STAT_STATE 1 = x at *
  obtain ⟨hstate, hwin, hkstart, hframe⟩ := keeperMode_starts (m := d.mode) hhold
  obtain ⟨-, -, -, hregs⟩ := keeperMode_frame x d.mode
  rw [← he] at hstate hwin hkstart hframe hregs
  clear_value e
  rw [hticks] at hwin
  have hfld : ∀ f : Fld, f.addr = 0x0D0000 ∨ f.addr = 0x0D003C → e.fld f = c.fld f := fun f hf => by
    refine (hregs.fld f ?_).trans (hkept f hf)
    rcases hf with hf | hf <;> rw [hf] <;> decide
  refine ⟨(hfld _ (.inl rfl)).trans hclk, (hfld _ (.inl rfl)).trans hunit, (hfld _ (.inl rfl)).trans hhard,
    (hfld _ (.inl rfl)).trans hsvcp, (hfld _ (.inl rfl)).trans hact, (hfld _ (.inr rfl)).trans hlock,
    hkstart.trans hstart, hstate, hwin, ?_⟩
  generalize e.io = i at hframe ⊢
  generalize e.keeper = k at hframe ⊢
  rw [hframe, honly, hcfg]

end

section
variable {d e : Dev} {m v k : Nat}

/-! ### Service (R406, R409) -/

theorem ktTicks_of_unit (h : e.fld KEEPER_CFG_UNIT = d.fld KEEPER_CFG_UNIT) : e.ktTicks = d.ktTicks := by
  rw [Dev.ktTicks, Dev.ktTicks, on_of_fld h]

/-- The present tick of a window stands in the registers of the state and the unit, and in the window's start. -/
theorem kTick_setFld (d : Dev) {f : Fld} (v : Nat) (hst : f.Apart KEEPER_STAT_STATE) (hu : f.Apart KEEPER_CFG_UNIT) :
    (d.setFld f v).kTick = d.kTick := by
  have hunit : (d.setFld f v).ktTicks = d.ktTicks := ktTicks_of_unit (fld_setFld_apart d v hu)
  rw [Dev.kTick, Dev.kTick, fld_setFld_apart d v hst, hunit]
  rfl

theorem kTime_setFld (d : Dev) {f : Fld} (v : Nat) (hl : f.Apart KEEPER_LOCK_LOCK) (hu : f.Apart KEEPER_CFG_UNIT) :
    (d.setFld f v).kTime = d.kTime := by
  have hunit : (d.setFld f v).ktTicks = d.ktTicks := ktTicks_of_unit (fld_setFld_apart d v hu)
  rw [Dev.kTime, Dev.kTime, on_of_fld (fld_setFld_apart d v hl), hunit]
  rfl

/-- What a Keeper fault does in WATCH with no expiry under way: it expires Keeper, or presents KPR_SVC. -/
theorem keeperFault_watching (hst : d.fld KEEPER_STAT_STATE = 2) (hexp : d.keeper.expiring = none) (hk : k < 65536) :
    (d.keeperFault k).io = d.io ∧
    if (d.fld KEEPER_CFG_ACT).testBit k then
      (d.keeperFault k).keeper.expiring = some (k + 1) ∧ (d.keeperFault k).island = d.island
    else (d.keeperFault k).hasFault fiKprSvc k = true ∧ (d.keeperFault k).keeper.expiring = none := by
  unfold Dev.keeperFault
  split
  · rw [expireWith_listening (keeperDeaf_eq_false hst hexp)]
    exact ⟨rfl, rfl, rfl⟩
  · exact ⟨rfl, (Dev.awaits_present d _ hk).hasFault, hexp⟩

section
variable (hm : m < 16) (hst : d.fld KEEPER_STAT_STATE = 2) (hexp : d.keeper.expiring = none)
include hm hst hexp

theorem judgeService_foreign (h : m ≠ d.fld KEEPER_CFG_SVCP) : judgeService m v d = d.flag KEEPER_ISTAT_FOREIGN := by
  rw [judgeService, hst, keeperDeaf_eq_false hst hexp]
  simp [show ¬ 16 ≤ m by omega, h]

theorem judgeService_double (h : m = d.fld KEEPER_CFG_SVCP) (hv : v ≠ notW 16 (d.fld KEEPER_SVC_SVC)) :
    judgeService m v d = (d.flag KEEPER_ISTAT_DOUBLE).keeperFault 1 := by
  rw [judgeService, hst, keeperDeaf_eq_false hst hexp]
  have hm' : ¬ 16 ≤ d.fld KEEPER_CFG_SVCP := by omega
  simp [hm', h, hv]

/-- The device with the complement taken by SVC. -/
abbrev Dev.svcTaken (d : Dev) (v : Nat) : Dev := d.setFld KEEPER_SVC_SVC v

theorem judgeService_complement (h : m = d.fld KEEPER_CFG_SVCP) (hv : v = notW 16 (d.fld KEEPER_SVC_SVC)) :
    judgeService m v d =
      if d.kTick < d.fld KEEPER_WIN_OPEN then ((d.svcTaken v).flag KEEPER_ISTAT_EARLY).keeperFault 0
      else if d.fld KEEPER_WIN_CLOSE ≤ d.kTick then d.svcTaken v
      else if d.on KEEPER_STAT_SERVED then ((d.svcTaken v).flag KEEPER_ISTAT_EXTRA).keeperFault 2
      else ((d.svcTaken v).flag KEEPER_STAT_SERVED).setPair64 KEEPER_LASTSVCLO_LASTSVC KEEPER_LASTSVCHI_LASTSVC d.kTime := by
  have hm' : ¬ 16 ≤ d.fld KEEPER_CFG_SVCP := by omega
  have htick : (d.svcTaken v).kTick = d.kTick := kTick_setFld d v (by decide) (by decide)
  have htime : (d.svcTaken v).kTime = d.kTime := kTime_setFld d v (by decide) (by decide)
  have hopen : (d.svcTaken v).fld KEEPER_WIN_OPEN = d.fld KEEPER_WIN_OPEN := fld_setFld_apart d v (by decide)
  have hclose : (d.svcTaken v).fld KEEPER_WIN_CLOSE = d.fld KEEPER_WIN_CLOSE := fld_setFld_apart d v (by decide)
  have hserved : (d.svcTaken v).on KEEPER_STAT_SERVED = d.on KEEPER_STAT_SERVED :=
    on_of_fld (fld_setFld_apart d v (by decide))
  unfold judgeService
  rw [hst, keeperDeaf_eq_false hst hexp]
  simp only [Bool.false_or, Bool.and_eq_true, decide_eq_true_eq, h, hm', false_and, if_false, ne_eq, not_true_eq_false, ← hv,
    htick, htime, hopen, hclose, hserved]


end

/-- The complement of SVC as the register holds it. -/
theorem toNat_complement (v : BitVec 16) (k : Nat) : v = ~~~(BitVec.ofNat 16 k) ↔ v.toNat = notW 16 k := by
  rw [← BitVec.toNat_inj, BitVec.toNat_not, BitVec.toNat_ofNat, notW]

theorem flagged_watching {f : Fld} {x : Nat} (hst : d.fld KEEPER_STAT_STATE = 2) (hf : f.addr ≠ 0x0D000C) :
    (d.setFld f x).fld KEEPER_STAT_STATE = 2 :=
  (fld_setFld_apart d x (.inl (Ne.symm hf))).trans hst

/-- A fault of the service: its flag, and what its ACT bit says. -/
theorem flagged_fault {c : Dev} {f : Fld} (hst : c.fld KEEPER_STAT_STATE = 2) (hexp : c.keeper.expiring = none) (hk : k < 65536)
    (hf : f.addr = 0x0D0010) (hw : f.lo + f.w ≤ 32) (hw1 : f.w = 1) :
    let e := (c.flag f).keeperFault k
    e.fld f = 1 ∧ (∀ g : Fld, g.addr ≠ 0x0D0010 → e.fld g = c.fld g) ∧
    if (c.fld KEEPER_CFG_ACT).testBit k then e.keeper.expiring = some (k + 1) ∧ e.island = c.island
    else e.hasFault fiKprSvc k = true ∧ e.keeper.expiring = none := by
  have hother : ∀ g : Fld, g.addr ≠ 0x0D0010 → (c.flag f).fld g = c.fld g := fun g hg =>
    fld_setFld_apart c 1 (.inl (hf ▸ hg))
  obtain ⟨hio, hfault⟩ := keeperFault_watching (d := c.flag f) (k := k) ((hother _ (by decide)).trans hst) hexp hk
  rw [hother _ (by decide)] at hfault
  refine ⟨?_, fun g hg => (fld_of_io hio g).trans (hother g hg), hfault⟩
  rw [fld_of_io hio f, flag_eq, fld_setFld_same c 1 hw, hw1]
  rfl

/-- The service written by its pair in the window in progress. -/
theorem judgeService_leaves (hm : m < 16) (hst : d.fld KEEPER_STAT_STATE = 2) (hexp : d.keeper.expiring = none)
    (w : BitVec 16) :
    let e := judgeService m w.toNat d
    let svc := BitVec.ofNat 16 (d.fld KEEPER_SVC_SVC)
    let faultOf (k : Nat) : Prop :=
      if (d.fld KEEPER_CFG_ACT).testBit k then e.keeper.expiring = some (k + 1) ∧ e.island = d.island
      else e.hasFault fiKprSvc k = true ∧ e.keeper.expiring = none
    (m ≠ d.fld KEEPER_CFG_SVCP → e.fld KEEPER_ISTAT_FOREIGN = 1 ∧ e = { d with io := e.io } ∧ d.SameWords e [0x0D0010]) ∧
    (m = d.fld KEEPER_CFG_SVCP → w ≠ ~~~svc →
      e.fld KEEPER_SVC_SVC = d.fld KEEPER_SVC_SVC ∧ e.fld KEEPER_ISTAT_DOUBLE = 1 ∧ faultOf 1) ∧
    (m = d.fld KEEPER_CFG_SVCP → w = ~~~svc → e.fld KEEPER_SVC_SVC = w.toNat ∧
      (d.kTick < d.fld KEEPER_WIN_OPEN → e.fld KEEPER_ISTAT_EARLY = 1 ∧ faultOf 0) ∧
      (d.fld KEEPER_WIN_OPEN ≤ d.kTick → d.kTick < d.fld KEEPER_WIN_CLOSE →
        (d.fld KEEPER_STAT_SERVED = 0 → e.fld KEEPER_STAT_SERVED = 1 ∧
          e.fld KEEPER_LASTSVCLO_LASTSVC = d.kTime % 2 ^ 32 ∧ e.fld KEEPER_LASTSVCHI_LASTSVC = d.kTime / 2 ^ 32 % 2 ^ 32 ∧
          e = { d with io := e.io }) ∧
        (d.fld KEEPER_STAT_SERVED = 1 → e.fld KEEPER_ISTAT_EXTRA = 1 ∧ faultOf 2))) := by
  intro e svc faultOf
  have hcomp := toNat_complement w (d.fld KEEPER_SVC_SVC)
  refine ⟨fun hne => ?_, fun hp hv => ?_, fun hp hv => ?_⟩
  · have he : e = d.flag KEEPER_ISTAT_FOREIGN := judgeService_foreign hm hst hexp hne
    rw [he]
    exact ⟨fld_flag d, rfl, ((Dev.Regs.refl d _).setFld _ _ (by decide)).word⟩
  · have he : e = _ := judgeService_double hm hst hexp hp (mt hcomp.2 hv)
    obtain ⟨hflag, hother, hfault⟩ := flagged_fault (k := 1) (f := KEEPER_ISTAT_DOUBLE) hst hexp (by decide) rfl (by decide) rfl
    rw [← he] at hflag hother hfault
    exact ⟨hother _ (by decide), hflag, hfault⟩
  · have he : e = _ := judgeService_complement hm hst hexp hp (hcomp.1 hv)
    have hst' : (d.svcTaken w.toNat).fld KEEPER_STAT_STATE = 2 := flagged_watching hst (by decide)
    have hact : (d.svcTaken w.toNat).fld KEEPER_CFG_ACT = d.fld KEEPER_CFG_ACT := fld_setFld_apart d _ (by decide)
    have hsvc : (d.svcTaken w.toNat).fld KEEPER_SVC_SVC = w.toNat :=
      (fld_setFld_cut d _).trans (Nat.mod_eq_of_lt w.isLt)
    have hisland : (d.svcTaken w.toNat).island = d.island := rfl
    have honly : d.OnlyIo (d.svcTaken w.toNat) := (Dev.OnlyIo.refl d).setFld
    have hexp' : (d.svcTaken w.toNat).keeper.expiring = none := hexp
    generalize d.svcTaken w.toNat = c at *
    have hfault := fun (k : Nat) (f : Fld) => flagged_fault (c := c) (k := k) (f := f) hst' hexp'
    simp only [hact, hisland] at hfault
    by_cases hearly : d.kTick < d.fld KEEPER_WIN_OPEN
    · rw [if_pos hearly] at he
      obtain ⟨hflag, hother, hfault⟩ := hfault 0 KEEPER_ISTAT_EARLY (by decide) rfl (by decide) rfl
      rw [← he] at hflag hother hfault
      exact ⟨(hother _ (by decide)).trans hsvc, fun _ => ⟨hflag, hfault⟩, fun h => absurd hearly (by omega)⟩
    · rw [if_neg hearly] at he
      by_cases hlate : d.fld KEEPER_WIN_CLOSE ≤ d.kTick
      · rw [if_pos hlate] at he
        rw [he]
        exact ⟨hsvc, fun h => absurd h hearly, fun _ h => absurd h (by omega)⟩
      · rw [if_neg hlate] at he
        cases hserved : d.on KEEPER_STAT_SERVED with
        | true =>
          rw [if_pos hserved] at he
          obtain ⟨hflag, hother, hfault⟩ := hfault 2 KEEPER_ISTAT_EXTRA (by decide) rfl (by decide) rfl
          rw [← he] at hflag hother hfault
          refine ⟨(hother _ (by decide)).trans hsvc, fun h => absurd h hearly, fun _ _ => ⟨fun h0 => ?_, fun _ => ⟨hflag, hfault⟩⟩⟩
          rw [on_of_zero h0] at hserved
          cases hserved
        | false =>
          rw [if_neg (by rw [hserved]; decide)] at he
          rw [he]
          refine ⟨?_, fun h => absurd h hearly, fun _ _ => ⟨fun _ => ⟨?_, ?_, ?_, ?_⟩, fun h1 => ?_⟩⟩
          · simp (disch := decide) only [setPair64_eq, flag_eq, fld_setFld_apart, hsvc]
          · simp (disch := decide) only [setPair64_eq, flag_eq, fld_setFld_apart, fld_setFld_same]
            rfl
          · simp (disch := decide) only [setPair64_eq, flag_eq, fld_setFld_apart, fld_setFld_same]
            rfl
          · exact fld_setFld_same _ _ (by decide)
          · exact honly.setFld.setFld.setFld
          · rw [on_of_one h1] at hserved
            cases hserved

/-- Settles O28, enabling and the service each from its own lemma. -/
theorem keeperServed : Obligations.KeeperServed := by
  refine ⟨fun s w => ⟨fun h => ?_, fun h => ?_⟩, fun s m v => ⟨closeDue_early, fun hm hst hexp => ?_⟩⟩
  · exact completes_onDev rfl fun _ => keeperEnable_leaves h
  · exact completes_onDev rfl fun _ => keeperEnable_on h
  · exact completes_onDev rfl fun _ => judgeService_leaves hm hst hexp v

end

section
variable {d e : Dev} {lp t : Nat}

/-! ### A check-in (R407) -/

theorem windowRegs_high : ∀ a ∈ windowRegs, 0x0D0000 ≤ a := by decide

/-- A close leaves the pairs and the binding. -/
theorem closeDue_keeps (d : Dev) (p : Fin 16) : d.closeDue.pair p = d.pair p ∧ d.closeDue.lpairOf p = d.lpairOf p := by
  obtain ⟨hbut, hregs⟩ := closeDue_frame d
  constructor
  · rw [Dev.pair, Dev.pair, pairs_of_butMode hbut]
  · refine hregs.fld _ fun hmem => ?_
    have hhigh : 0x0D0000 ≤ 0x010000 + 0x1000 * p.val := windowRegs_high _ hmem
    omega

section
variable (hst : d.fld KEEPER_STAT_STATE = 2) (hexp : d.keeper.expiring = none)
include hst hexp

theorem countCheckIn_watching : countCheckIn lp t d =
    if !(d.on (KEEPER_TASK_EN t)) then d.flag KEEPER_ISTAT_UNSUP
    else if d.fld (KEEPER_TASK_OWNER t) ≠ lp then (d.flag KEEPER_ISTAT_FOREIGN).present fiKprTask (0x8000 + t)
    else (((d.count (KEEPER_TASK_COUNT t)).flag KEEPER_LASTCHK_VALID).setFld KEEPER_LASTCHK_LPAIR lp).setFld
      KEEPER_LASTCHK_TASK t := by
  rw [countCheckIn, hst, keeperDeaf_eq_false hst hexp]
  rfl

theorem countCheckIn_leaves (ht : t < 64) :
    let e := countCheckIn lp t d
    e.keeper = d.keeper ∧ e.pairs = d.pairs ∧
    (d.fld (KEEPER_TASK_EN t) = 1 → d.fld (KEEPER_TASK_OWNER t) = lp →
      e.fld (KEEPER_TASK_COUNT t) = min 255 (d.fld (KEEPER_TASK_COUNT t) + 1) ∧ e.fld KEEPER_LASTCHK_VALID = 1 ∧
      e.fld KEEPER_LASTCHK_TASK = t ∧ e.fld KEEPER_LASTCHK_LPAIR = lp % 16 ∧ e.island = d.island) ∧
    (d.fld (KEEPER_TASK_EN t) = 1 → d.fld (KEEPER_TASK_OWNER t) ≠ lp →
      e.fld (KEEPER_TASK_COUNT t) = d.fld (KEEPER_TASK_COUNT t) ∧ e.fld KEEPER_ISTAT_FOREIGN = 1 ∧
      e.hasFault fiKprTask (0x8000 + t) = true) ∧
    (d.fld (KEEPER_TASK_EN t) = 0 →
      e.fld KEEPER_ISTAT_UNSUP = 1 ∧ e.island = d.island ∧ e.fld (KEEPER_TASK_COUNT t) = d.fld (KEEPER_TASK_COUNT t)) := by
  intro e
  have he : e = _ := countCheckIn_watching hst hexp
  cases hen : d.on (KEEPER_TASK_EN t) with
  | false =>
    rw [hen] at he
    have hno : d.fld (KEEPER_TASK_EN t) ≠ 1 := fun h => by
      rw [on_of_one h] at hen
      cases hen
    rw [he]
    exact ⟨rfl, rfl, fun h => absurd h hno, fun h => absurd h hno, fun _ => ⟨fld_flag d, rfl, fld_flag_off d (by omega)⟩⟩
  | true =>
    rw [hen, if_neg (by decide)] at he
    have hyes : d.fld (KEEPER_TASK_EN t) ≠ 0 := fun h => by
      rw [on_of_zero h] at hen
      cases hen
    by_cases hown : d.fld (KEEPER_TASK_OWNER t) = lp
    · rw [if_neg (not_not.2 hown)] at he
      rw [he]
      refine ⟨rfl, rfl, fun _ _ => ?_, fun _ h => absurd hown h, fun h => absurd h hyes⟩
      simp (disch := omega) only [KEEPER_TASK_COUNT, KEEPER_LASTCHK_VALID, KEEPER_LASTCHK_LPAIR, KEEPER_LASTCHK_TASK,
        fld_setFld_off, fld_setFld_cut, fld_flag_off, fld_flag, fld_count_cut]
      exact ⟨rfl, trivial, Nat.mod_eq_of_lt ht, rfl, rfl⟩
    · rw [if_pos hown] at he
      rw [he]
      exact ⟨rfl, rfl, fun _ h => absurd h hown, fun _ _ => ⟨fld_flag_off d (by omega), fld_flag d,
        (Dev.awaits_present _ _ (by omega)).hasFault⟩, fun h => absurd h hyes⟩

end

/-! ### A check-in at the head of a release (R221) -/

/-- The head entry of a release sets out where its copies agree. -/
theorem releaseNext_head {p : Nat} {q : CbEntry → Bool} {en : CbEntry} {rest : List CbEntry}
    (hrun : (d.pair p).releasing = true) (hrel : (d.pair p).rel = en :: rest) (hshadow : (d.pair p).relShadow = en :: rest)
    (hq : q en = true) : d.releaseNext p q = d.releaseHead p en := by
  have hsame : (d.pair p).headDiffer (d.unprotected p) = none := by
    rw [Pair.headDiffer, hrel, hshadow, if_pos rfl]
  rw [Dev.releaseNext, hrun, hsame, ite_self, hrel]
  simp only [Bool.not_true, Bool.false_eq_true, if_false, hq, if_true]

theorem releaseHead_check {p : Nat} {en : CbEntry} (h : en.kind = .chk) :
    d.releaseHead p en = (keeperCheck (d.lpairOf p) (en.addr % 64) d).setPair p
      (((keeperCheck (d.lpairOf p) (en.addr % 64) d).pair p).accepted 0 0) := by
  rw [Dev.releaseHead, h]

/-- Settles O29: the entry leaves the release, and the check-in is judged in the window in progress. -/
theorem keeperCheckIn : Obligations.KeeperCheckIn := by
  intro s p en rest d t hlen hrun hrel hshadow hkind ht hst hexp
  refine completes_onDev rfl fun _ => ?_
  obtain ⟨hpair, hlp⟩ := closeDue_keeps s.dev p
  have hcheck : checkIn p s.dev = s.dev.releaseHead p en :=
    releaseNext_head (hpair ▸ hrun) (hpair ▸ hrel) (hpair ▸ hshadow) (by rw [hkind]; rfl)
  rw [hcheck, releaseHead_check hkind, Nat.mod_eq_of_lt ht, ← hlp, keeperCheck]
  obtain ⟨hkeeper, hpairs, hjudged⟩ := countCheckIn_leaves (lp := d.lpairOf p) hst hexp ht
  have hk : (countCheckIn (d.lpairOf p) t d).pair p = d.pair p := by rw [Dev.pair, Dev.pair, hpairs]
  have hmem : p.val < (countCheckIn (d.lpairOf p) t d).pairs.length := by
    rw [hpairs, hlen]
    exact p.isLt
  refine ⟨?_, hkeeper, hjudged⟩
  rw [pair_setPair_same _ _ _ hmem]
  show ((countCheckIn (d.lpairOf p) t d).pair p).rel.tail = rest
  rw [hk, hrel]
  rfl

end

section
variable {d e : Dev}

/-! ### The tasks at a close (R408) -/

/-- An enabled task with COUNT below MIN, and one with COUNT above MAX. -/
abbrev Dev.taskLow (d : Dev) (t : Nat) : Prop :=
  d.fld (KEEPER_TASK_EN t) = 1 ∧ d.fld (KEEPER_TASK_COUNT t) < d.fld (KEEPER_TASK_MIN t)

abbrev Dev.taskHigh (d : Dev) (t : Nat) : Prop :=
  d.fld (KEEPER_TASK_EN t) = 1 ∧ d.fld (KEEPER_TASK_MAX t) < d.fld (KEEPER_TASK_COUNT t)

theorem on_iff_one {f : Fld} (hw : f.w = 1) : d.on f = true ↔ d.fld f = 1 := by
  have hlt := fld_lt d f
  rw [hw] at hlt
  rw [Dev.on, bne_iff_ne]
  omega

theorem testBit_taskFails (d : Dev) {t : Nat} (ht : t < 64) :
    (d.taskFails.1.testBit t = true ↔ d.taskLow t) ∧ (d.taskFails.2.testBit t = true ↔ d.taskHigh t) := by
  have hen : d.on (KEEPER_TASK_EN t) = true ↔ d.fld (KEEPER_TASK_EN t) = 1 := on_iff_one rfl
  constructor
  · rw [Dev.taskFails, testBit_maskOf, decide_eq_true ht, Bool.true_and, Bool.and_eq_true, hen, decide_eq_true_eq]
  · rw [Dev.taskFails, testBit_maskOf, decide_eq_true ht, Bool.true_and, Bool.and_eq_true, hen, decide_eq_true_eq]

theorem eq_zero_of_testBit {x : Nat} (hx : x < 2 ^ 64) (h : ∀ t < 64, x.testBit t = false) : x = 0 := by
  refine Nat.eq_of_testBit_eq fun t => ?_
  rw [Nat.zero_testBit]
  by_cases ht : t < 64
  · exact h t ht
  · exact Nat.testBit_lt_two_pow (hx.trans_le (Nat.pow_le_pow_right (by decide) (by omega)))

/-- The masks are empty exactly where no task fails. -/
theorem taskFails_eq_zero (d : Dev) :
    d.taskFails.1 + d.taskFails.2 = 0 ↔ ¬ ∃ t < 64, d.taskLow t ∨ d.taskHigh t := by
  constructor
  · rintro h ⟨t, ht, hfail⟩
    obtain ⟨hlow, hhigh⟩ := testBit_taskFails d ht
    obtain ⟨h1, h2⟩ := Nat.add_eq_zero_iff.1 h
    rw [h1, Nat.zero_testBit] at hlow
    rw [h2, Nat.zero_testBit] at hhigh
    rcases hfail with hl | hh
    · exact Bool.false_ne_true (hlow.2 hl)
    · exact Bool.false_ne_true (hhigh.2 hh)
  · intro h
    have hzero : d.taskFails.1 = 0 ∧ d.taskFails.2 = 0 := by
      refine ⟨eq_zero_of_testBit (maskOf_lt _ 64) fun t ht => ?_, eq_zero_of_testBit (maskOf_lt _ 64) fun t ht => ?_⟩
      · exact Bool.eq_false_iff.2 fun hb => h ⟨t, ht, .inl ((testBit_taskFails d ht).1.1 hb)⟩
      · exact Bool.eq_false_iff.2 fun hb => h ⟨t, ht, .inr ((testBit_taskFails d ht).2.1 hb)⟩
    rw [hzero.1, hzero.2]

/-- The lowest set bit is set, and no lower one is. -/
theorem lowestBit_lowest {x t : Nat} (ht : t < 64) (hx : x.testBit t = true) :
    lowestBit x < 64 ∧ x.testBit (lowestBit x) = true ∧ ∀ u < lowestBit x, x.testBit u = false := by
  obtain ⟨b, hb⟩ := Option.isSome_iff_exists.1 (List.find?_isSome.2 ⟨t, List.mem_range.2 ht, hx⟩ :
    ((List.range 64).find? (fun i => x.testBit i)).isSome)
  have hlow : lowestBit x = b := by rw [lowestBit, hb]; rfl
  obtain ⟨hset, l, r, hl, hnone⟩ := List.find?_eq_some_iff_append.1 hb
  rw [hlow]
  have hmem : b ∈ List.range 64 := hl ▸ List.mem_append_right _ List.mem_cons_self
  refine ⟨List.mem_range.1 hmem, hset, fun u hu => ?_⟩
  have hsorted : (l ++ b :: r).Pairwise (· < ·) := hl ▸ List.pairwise_lt_range
  have humem : u ∈ l ++ b :: r := hl ▸ List.mem_range.2 (hu.trans (List.mem_range.1 hmem))
  rcases List.mem_append.1 humem with hul | hur
  · simpa using hnone u hul
  · have hle : b ≤ u := by
      rcases List.mem_cons.1 hur with rfl | hr
      · exact Nat.le_refl _
      · exact (List.rel_of_pairwise_cons (List.pairwise_append.1 hsorted).2.1 hr).le
    omega

/-! ### The close of a window (R408, R409) -/

theorem masksKept_keeps (d : Dev) : d.masksKept.keeper = d.keeper ∧ d.masksKept.fld KEEPER_STAT_STATE = d.fld KEEPER_STAT_STATE ∧
    d.masksKept.fld KEEPER_CFG_ACT = d.fld KEEPER_CFG_ACT ∧
    d.masksKept.fld (KEEPER_TLO_FAIL 0) = d.taskFails.1 % 2 ^ 32 := by
  refine ⟨rfl, ?_, ?_, ?_⟩ <;> simp (disch := decide) only [Dev.masksKept, setPair64_eq, fld_setFld_apart, fld_setFld_same]
  rfl

/-- What the tasks' judgement leaves, in WATCH. -/
theorem tasksJudged_leaves (d : Dev) (hst : d.fld KEEPER_STAT_STATE = 2) :
    let e := d.tasksJudged
    let failed := ∃ t < 64, d.taskLow t ∨ d.taskHigh t
    (failed → e.fld KEEPER_ISTAT_TASK = 1) ∧ (∀ t < 32, (e.fld (KEEPER_TLO_FAIL 0)).testBit t = true ↔ d.taskLow t) ∧
    (d.keeper.expiring = none → failed → (d.fld KEEPER_CFG_ACT).testBit 3 = true → e.keeper.expiring = some 4) ∧
    (failed → (d.fld KEEPER_CFG_ACT).testBit 3 = false →
      ∃ t < 64, (d.taskLow t ∨ d.taskHigh t) ∧ (∀ u < t, ¬ (d.taskLow u ∨ d.taskHigh u)) ∧ e.Awaits fiKprTask t) ∧
    (∀ c, d.keeper.expiring = some c → e.keeper = d.keeper) ∧ e.keeper.winStart = d.keeper.winStart := by
  obtain ⟨hkeeper, hstate, hact, htlo⟩ := masksKept_keeps d
  have hlow : ∀ t < 32, (d.taskFails.1 % 2 ^ 32).testBit t = true ↔ d.taskLow t := fun t ht => by
    rw [Nat.testBit_mod_two_pow, decide_eq_true ht, Bool.true_and]
    exact (testBit_taskFails d (by omega)).1
  intro e failed
  by_cases hfail : failed
  · have hne : ¬ d.taskFails.1 + d.taskFails.2 = 0 := fun h => (taskFails_eq_zero d).1 h hfail
    have he : e = _ := if_neg hne
    rw [hact] at he
    have hflag : (d.masksKept.flag KEEPER_ISTAT_TASK).fld KEEPER_ISTAT_TASK = 1 := fld_flag _
    have htlo' : (d.masksKept.flag KEEPER_ISTAT_TASK).fld (KEEPER_TLO_FAIL 0) = d.taskFails.1 % 2 ^ 32 :=
      (fld_setFld_apart _ 1 (by decide)).trans htlo
    have hkeeper' : (d.masksKept.flag KEEPER_ISTAT_TASK).keeper = d.keeper := hkeeper
    have hstate' : (d.masksKept.flag KEEPER_ISTAT_TASK).fld KEEPER_STAT_STATE = 2 :=
      (fld_setFld_apart _ 1 (by decide)).trans (hstate.trans hst)
    generalize d.masksKept.flag KEEPER_ISTAT_TASK = f at *
    cases hbit : (d.fld KEEPER_CFG_ACT).testBit 3 with
    | true =>
      rw [if_pos hbit] at he
      have hfld : ∀ g, e.fld g = f.fld g := fun g => he ▸ fld_expireWith f 4 g
      rw [hfld, hfld, htlo']
      refine ⟨fun _ => hflag, hlow, fun hnone _ _ => ?_, nofun, fun c hc => ?_, ?_⟩
      · rw [he, expireWith_listening (keeperDeaf_eq_false hstate' (hkeeper' ▸ hnone))]
      · rw [he, expireWith_deaf (keeperDeaf_of_expiring (hkeeper' ▸ hc)), hkeeper']
      · rw [← hkeeper', he, Dev.expireWith]
        split <;> rfl
    | false =>
      rw [if_neg (by rw [hbit]; decide)] at he
      have hfld : ∀ g, e.fld g = f.fld g := fun g => he ▸ rfl
      rw [hfld, hfld, htlo']
      refine ⟨fun _ => hflag, hlow, fun _ _ => nofun, fun _ _ => ?_, fun _ _ => he ▸ hkeeper', he ▸ congrArg _ hkeeper'⟩
      obtain ⟨t, ht, htf⟩ := hfail
      have hor : ∀ u < 64, ((d.taskFails.1 ||| d.taskFails.2).testBit u = true ↔ d.taskLow u ∨ d.taskHigh u) := fun u hu => by
        rw [Nat.testBit_or, Bool.or_eq_true, (testBit_taskFails d hu).1, (testBit_taskFails d hu).2]
      obtain ⟨hlt, hset, hleast⟩ := lowestBit_lowest ht ((hor t ht).2 htf)
      refine ⟨_, hlt, (hor _ hlt).1 hset, fun u hu hf => ?_, he ▸ Dev.awaits_present f _ (by omega)⟩
      have hbit' := (hor u (hu.trans hlt)).2 hf
      rw [hleast u hu] at hbit'
      cases hbit'
  · have he : e = d.masksKept := if_pos ((taskFails_eq_zero d).2 hfail)
    rw [he, htlo]
    exact ⟨fun h => absurd h hfail, hlow, fun _ h => absurd h hfail, fun h => absurd h hfail, fun _ _ => hkeeper,
      congrArg _ hkeeper⟩

theorem windowAt_keeps (d : Dev) (start : Nat) :
    (d.windowAt start).keeper = { d.keeper with winStart := start } ∧ (∀ f, (d.windowAt start).fld f = d.fld f) ∧
    ∀ n v, d.Awaits n v → (d.windowAt start).Awaits n v :=
  ⟨rfl, fun _ => rfl, fun _ _ h => ⟨h.hasFault⟩⟩

/-- A fresh window from the tick of a close leaves the tasks' flags. -/
theorem windowAt_leaves (d : Dev) (start : Nat) :
    let e := d.freshWindow.windowAt start
    e.keeper.winStart = start ∧ e.keeper.expiring = d.keeper.expiring ∧ e.fld KEEPER_STAT_SERVED = 0 ∧
    (∀ t < 64, e.fld (KEEPER_TASK_COUNT t) = 0) ∧ (∀ f : Fld, f.addr ∉ keeperRegs → e.fld f = d.fld f) ∧
    ∀ n v, d.Awaits n v → e.Awaits n v := by
  obtain ⟨hserved, -, hcounts, hkeeper, -⟩ := freshWindow_starts d
  obtain ⟨-, -, -, hregs⟩ := freshWindow_frame d
  obtain ⟨hat, hfld, hwait⟩ := windowAt_keeps d.freshWindow start
  intro e
  refine ⟨congrArg KeeperSt.winStart hat, ?_, (hfld _).trans hserved, fun t ht => (hfld _).trans (hcounts t ht),
    fun g hg => (hfld g).trans (hregs.fld g hg), fun n v h => hwait n v h.freshWindow⟩
  rw [show e.keeper = _ from hat, hkeeper]

theorem serviceJudged_leaves (hst : d.fld KEEPER_STAT_STATE = 2) (hexp : d.keeper.expiring = none) :
    (d.fld KEEPER_STAT_SERVED = 0 → d.serviceJudged.keeper.expiring = some 0) ∧
    (d.fld KEEPER_STAT_SERVED = 1 → d.serviceJudged = d) ∧ d.serviceJudged.keeper.winStart = d.keeper.winStart := by
  refine ⟨fun h => ?_, fun h => if_pos (on_of_one h), ?_⟩
  · rw [Dev.serviceJudged, on_of_zero h, if_neg Bool.false_ne_true,
      expireWith_listening (keeperDeaf_eq_false hst hexp)]
  · rw [Dev.serviceJudged, expireWith_listening (keeperDeaf_eq_false hst hexp)]
    split <;> rfl

theorem windowClose_leaves (hst : d.fld KEEPER_STAT_STATE = 2) (hexp : d.keeper.expiring = none)
    (hdue : d.keeper.winStart + d.fld KEEPER_WIN_CLOSE * d.ktTicks ≤ d.ticks) :
    let e := windowClose d
    let failed := ∃ t < 64, d.taskLow t ∨ d.taskHigh t
    (d.fld KEEPER_STAT_SERVED = 0 → e.keeper.expiring = some 0) ∧
    (failed → e.fld KEEPER_ISTAT_TASK = 1) ∧ (∀ t < 32, (e.fld (KEEPER_TLO_FAIL 0)).testBit t = true ↔ d.taskLow t) ∧
    (d.fld KEEPER_STAT_SERVED = 1 → failed → (d.fld KEEPER_CFG_ACT).testBit 3 = true → e.keeper.expiring = some 4) ∧
    (failed → (d.fld KEEPER_CFG_ACT).testBit 3 = false →
      ∃ t < 64, (d.taskLow t ∨ d.taskHigh t) ∧ (∀ u < t, ¬ (d.taskLow u ∨ d.taskHigh u)) ∧
        e.hasFault fiKprTask t = true) ∧
    (e.keeper.expiring = none → e.keeper.winStart = d.keeper.winStart + d.fld KEEPER_WIN_CLOSE * d.ktTicks ∧
      e.fld KEEPER_STAT_SERVED = 0 ∧ ∀ t < 64, e.fld (KEEPER_TASK_COUNT t) = 0) := by
  obtain ⟨-, hio, -⟩ := serviceJudged_frame d []
  obtain ⟨hunserved, hserved, hstart⟩ := serviceJudged_leaves hst hexp
  have hfld : ∀ f, d.serviceJudged.fld f = d.fld f := fld_of_io hio
  obtain ⟨hflag, htlo, hexpire, hpresent, hstands, hstart'⟩ := tasksJudged_leaves d.serviceJudged ((hfld _).trans hst)
  intro e failed
  have he : e = _ := windowClose_due hst hexp hdue
  generalize hs : d.serviceJudged = s at *
  simp only [Dev.taskLow, Dev.taskHigh, hfld] at hflag htlo hexpire hpresent
  generalize s.tasksJudged = j at *
  obtain ⟨hwin, hwexp, hwserved, hwcounts, hwregs, hwait⟩ := windowAt_leaves j (j.keeper.winStart + d.fld KEEPER_WIN_CLOSE * d.ktTicks)
  cases hjexp : j.keeper.expiring with
  | some c =>
    rw [hjexp, Option.isSome_some, if_pos rfl] at he
    rw [he]
    refine ⟨fun h0 => ?_, hflag, htlo, fun h1 => ?_, fun hf hb => ?_, fun h => ?_⟩
    · rw [hstands 0 (hunserved h0), hunserved h0]
    · exact hexpire (by rw [hserved h1]; exact hexp)
    · obtain ⟨t, ht, htf, hleast, hfault⟩ := hpresent hf hb
      exact ⟨t, ht, htf, hleast, hfault.hasFault⟩
    · rw [hjexp] at h
      cases h
  | none =>
    rw [hjexp, if_neg (by decide)] at he
    rw [← he] at hwin hwexp hwserved hwcounts hwregs hwait
    refine ⟨fun h0 => ?_, fun hf => (hwregs _ (by decide)).trans (hflag hf), fun t ht => ?_, fun h1 hf hb => ?_, fun hf hb => ?_,
      fun _ => ⟨hwin.trans ?_, hwserved, hwcounts⟩⟩
    · rw [hstands 0 (hunserved h0), hunserved h0] at hjexp
      cases hjexp
    · rw [hwregs _ (by decide)]
      exact htlo t ht
    · rw [hexpire (by rw [hserved h1]; exact hexp) hf hb] at hjexp
      cases hjexp
    · obtain ⟨t, ht, htf, hleast, hfault⟩ := hpresent hf hb
      exact ⟨t, ht, htf, hleast, (hwait _ _ hfault).hasFault⟩
    · rw [hstart', hstart]

end

section
variable {d e : Dev} {cause : Nat}

/-! ### The trap of every pair that runs (R410 step 3) -/

theorem raiseTrap_length (d : Dev) (p : Nat) : (d.raiseTrap p).pairs.length = d.pairs.length := by
  unfold Dev.raiseTrap
  split
  · exact length_setNth ..
  · rfl

theorem raiseTrap_keeps (d : Dev) (p : Nat) : (d.raiseTrap p).io = d.io ∧ (d.raiseTrap p).island = d.island ∧
    (d.raiseTrap p).drive = d.drive ∧ (d.raiseTrap p).keeper = d.keeper := by
  unfold Dev.raiseTrap
  split <;> exact ⟨rfl, rfl, rfl, rfl⟩

/-- What a pair that runs takes into its capture stage. -/
def Dev.trapOf (d : Dev) (p : Nat) : List CapInput :=
  if d.pairState p = stActive ∨ d.pairState p = stRecovering then [.expiry] else []

theorem raiseTrap_capture (d : Dev) {p : Nat} (q : Nat) (hp : p < d.pairs.length) :
    ((d.raiseTrap p).pair q).capture = (d.pair q).capture ++ if q = p then d.trapOf p else [] := by
  by_cases hrun : d.pairState p = stActive ∨ d.pairState p = stRecovering
  · have he : d.raiseTrap p = d.capture p .expiry := if_pos (by simpa using hrun)
    rw [he, Dev.capture, Dev.trapOf, if_pos hrun]
    by_cases hq : q = p
    · rw [hq, pair_setPair_same _ _ _ hp, if_pos rfl]
    · rw [pair_setPair_ne _ _ hq, if_neg hq, List.append_nil]
  · have he : d.raiseTrap p = d := if_neg (by simpa using hrun)
    rw [he, Dev.trapOf, if_neg hrun, ite_self, List.append_nil]

/-- Every listed pair takes the trap that its state gives, and nothing but the pairs changes. -/
theorem raiseTraps {l : List Nat} (d : Dev) (hnodup : l.Nodup) (hlen : ∀ p ∈ l, p < d.pairs.length) :
    let e := l.foldl Dev.raiseTrap d
    (∀ q, (e.pair q).capture = (d.pair q).capture ++ if q ∈ l then d.trapOf q else []) ∧
    e.io = d.io ∧ e.island = d.island ∧ e.drive = d.drive ∧ e.keeper = d.keeper := by
  induction l generalizing d with
  | nil => exact ⟨fun q => by simp, rfl, rfl, rfl, rfl⟩
  | cons p l ih =>
    obtain ⟨hp, hnodup⟩ := List.nodup_cons.1 hnodup
    have hpl : p < d.pairs.length := hlen p List.mem_cons_self
    obtain ⟨hio, hisland, hdrive, hkeeper⟩ := raiseTrap_keeps d p
    have hcap := fun q => raiseTrap_capture d q hpl
    have htrap : ∀ q, (d.raiseTrap p).trapOf q = d.trapOf q := fun q => by
      unfold Dev.trapOf Dev.pairState
      rw [fld_of_io hio]
    obtain ⟨hcap', hio', hisland', hdrive', hkeeper'⟩ := ih (d.raiseTrap p) hnodup fun q hq => by
      rw [raiseTrap_length]
      exact hlen q (List.mem_cons_of_mem _ hq)
    refine ⟨fun q => (hcap' q).trans ?_, hio'.trans hio, hisland'.trans hisland, hdrive'.trans hdrive,
      hkeeper'.trans hkeeper⟩
    rw [hcap q, htrap, List.append_assoc]
    by_cases hq : q = p
    · rw [hq, if_pos rfl, if_neg hp, if_pos List.mem_cons_self, List.append_nil]
    · simp only [List.mem_cons, hq, false_or, if_false, List.nil_append]

/-! ### Expiry (R410, R412) -/

/-- Keeper's part of an expiry: the cause taken, the hard timer started. -/
def Dev.expiryTaken (d : Dev) : Dev :=
  { d with keeper := { d.keeper with expiring := none, hardStart := some d.ticks } }

/-- The evidence of an expiry recorded. -/
def Dev.evidenceKept (d : Dev) (cause now : Nat) : Dev :=
  ((((d.setFld KEEPER_STAT_STATE 4).setPair64 KEEPER_EVTIMELO_EVTIME KEEPER_EVTIMEHI_EVTIME now).setFld
    KEEPER_EVSTAT_CAUSE cause).flag KEEPER_EVSTAT_VALID).setFld KEEPER_EVSTAT_JNL 0

theorem keeperExpiry_eq (h : d.keeper.expiring = some cause) : keeperExpiry d =
    (List.range 16).foldl Dev.raiseTrap ((((d.expiryTaken.evidenceKept cause d.kTime).clearRows 0x0D0080 4 31 1
      (List.range 16)).present fiKprExpiry cause).assertForce) := by
  rw [keeperExpiry, h]
  rfl

/-- Keeper expired, before the pairs are reached. -/
def Dev.expired (d : Dev) (cause : Nat) : Dev :=
  ((d.expiryTaken.evidenceKept cause d.kTime).clearRows 0x0D0080 4 31 1 (List.range 16)).present fiKprExpiry cause

theorem evidenceKept_leaves (d : Dev) (cause now : Nat) (hc : cause < 8) :
    let e := d.evidenceKept cause now
    e.fld KEEPER_STAT_STATE = 4 ∧ e.fld KEEPER_EVSTAT_CAUSE = cause ∧ e.fld KEEPER_EVSTAT_VALID = 1 ∧
    e.fld KEEPER_EVSTAT_JNL = 0 ∧ e.fld KEEPER_EVTIMELO_EVTIME = now % 2 ^ 32 ∧
    d.Regs e [0x0D000C, 0x0D0028, 0x0D002C, 0x0D0030] ∧ d.OnlyIo e := by
  refine ⟨?_, ?_, ?_, ?_, ?_, ?_, (Dev.OnlyIo.refl d).setFld.setFld.setFld.setFld.setFld.setFld⟩
  case refine_6 =>
    exact ((((((Dev.Regs.refl d _).setFld _ _ (by decide)).setFld _ _ (by decide)).setFld _ _ (by decide)).setFld _ _
      (by decide)).setFld _ _ (by decide)).setFld _ _ (by decide)
  all_goals simp (disch := decide) only [Dev.evidenceKept, setPair64_eq, flag_eq, fld_setFld_apart, fld_setFld_same]
  · rfl
  · exact Nat.mod_eq_of_lt hc
  · rfl
  · rfl
  · rfl

theorem expiryTaken_keeps (d : Dev) : d.expiryTaken.pairs = d.pairs ∧ (∀ f, d.expiryTaken.fld f = d.fld f) ∧
    d.expiryTaken.keeper = { d.keeper with expiring := none, hardStart := some d.ticks } := ⟨rfl, fun _ => rfl, rfl⟩

theorem present_keeps (d : Dev) (n v : Nat) : (d.present n v).pairs = d.pairs ∧ (d.present n v).keeper = d.keeper ∧
    (∀ f, (d.present n v).fld f = d.fld f) := ⟨rfl, rfl, fun _ => rfl⟩

theorem expired_leaves (d : Dev) (hc : cause < 8) :
    let e := d.expired cause
    e.fld KEEPER_STAT_STATE = 4 ∧ e.fld KEEPER_EVSTAT_CAUSE = cause ∧ e.fld KEEPER_EVSTAT_VALID = 1 ∧
    e.fld KEEPER_EVSTAT_JNL = 0 ∧ e.fld KEEPER_EVTIMELO_EVTIME = d.kTime % 2 ^ 32 ∧ e.Awaits fiKprExpiry cause ∧
    e.pairs = d.pairs ∧ e.keeper = { d.keeper with expiring := none, hardStart := some d.ticks } ∧
    ∀ p < 16, e.pairState p = d.pairState p := by
  obtain ⟨hstate, hcause, hvalid, hjnl, htime, hregs, honly⟩ := evidenceKept_leaves d.expiryTaken cause d.kTime hc
  obtain ⟨hpairs, hfld, hkeeper⟩ := expiryTaken_keeps d
  intro e
  have he : e = ((d.expiryTaken.evidenceKept cause d.kTime).clearRows 0x0D0080 4 31 1 (List.range 16)).present
    fiKprExpiry cause := rfl
  clear_value e
  generalize d.expiryTaken = t at *
  generalize t.evidenceKept cause d.kTime = v at *
  have hclear : v.OnlyIo (v.clearRows 0x0D0080 4 31 1 (List.range 16)) := clearRows_only v
  have hkeep : ∀ f : Fld, f.addr < 0x0D0080 → (v.clearRows 0x0D0080 4 31 1 (List.range 16)).fld f = v.fld f := fun f hf =>
    fld_clearRows_off v fun i _ => .inl (by show f.addr ≠ 0x0D0080 + 4 * i; omega)
  generalize v.clearRows 0x0D0080 4 31 1 (List.range 16) = c at *
  obtain ⟨hepairs, hekeeper, hefld⟩ := present_keeps c fiKprExpiry cause
  have hawaits : (c.present fiKprExpiry cause).Awaits fiKprExpiry cause := Dev.awaits_present _ _ (by omega)
  rw [← he] at hepairs hekeeper hefld hawaits
  have hall : ∀ f : Fld, f.addr < 0x0D0080 → e.fld f = v.fld f := fun f hf => (hefld f).trans (hkeep f hf)
  refine ⟨(hall _ (by decide)).trans hstate, (hall _ (by decide)).trans hcause, (hall _ (by decide)).trans hvalid,
    (hall _ (by decide)).trans hjnl, (hall _ (by decide)).trans htime, hawaits,
    hepairs.trans (hclear.pairs.trans (honly.pairs.trans hpairs)),
    hekeeper.trans (hclear.keeper.trans (honly.keeper.trans hkeeper)), fun p hp => ?_⟩
  refine (hall _ (by show 0x010000 + 0x1000 * p < 0x0D0080; omega)).trans ((hregs.fld _ ?_).trans (hfld _))
  show ¬ 0x010000 + 0x1000 * p ∈ _
  simp only [List.mem_cons, List.not_mem_nil, or_false]
  omega

theorem keeperExpiry_leaves (hexp : d.keeper.expiring = some cause) (hc : cause < 8) (hlen : d.pairs.length = 16) :
    let e := keeperExpiry d
    e.fld KEEPER_STAT_STATE = 4 ∧ e.fld KEEPER_EVSTAT_CAUSE = cause ∧ e.fld KEEPER_EVSTAT_VALID = 1 ∧
    e.fld KEEPER_EVSTAT_JNL = 0 ∧ e.fld KEEPER_EVTIMELO_EVTIME = d.kTime % 2 ^ 32 ∧ e.hasFault fiKprExpiry cause = true ∧
    e.forced = true ∧ e.keeper.expiring = none ∧ e.keeper.hardStart = some d.ticks ∧
    ∀ p < 16, (e.pair p).capture = (d.pair p).capture ++
      (if d.pairState p = stActive ∨ d.pairState p = stRecovering then [.expiry] else []) := by
  obtain ⟨hstate, hcause, hvalid, hjnl, htime, hfault, hpairs, hkeeper, hrole⟩ := expired_leaves d hc
  intro e
  have he : e = (List.range 16).foldl Dev.raiseTrap (d.expired cause).assertForce := keeperExpiry_eq hexp
  generalize d.expired cause = x at *
  obtain ⟨hbut, -, -, hisland, hkeep, -⟩ := assertForce_frame x
  have hregs := assertForce_regs x
  have hforced := forced_assertForce x
  have hfp : x.assertForce.pairs = d.pairs := (pairs_of_butMode hbut).trans hpairs
  generalize x.assertForce = y at *
  obtain ⟨hcap, hio, hisland', hdrive, hkeep'⟩ := raiseTraps (l := List.range 16) y List.nodup_range fun p hp => by
    rw [hfp, hlen]
    exact List.mem_range.1 hp
  rw [← he] at hcap hio hisland' hdrive hkeep'
  clear_value e
  have hfld : ∀ f : Fld, f.addr ≠ 0x0C0000 → e.fld f = x.fld f := fun f hf =>
    (fld_of_io hio f).trans (hregs.fld f (by simpa using hf))
  rw [hkeep', hkeep, hkeeper]
  refine ⟨(hfld _ (by decide)).trans hstate, (hfld _ (by decide)).trans hcause, (hfld _ (by decide)).trans hvalid,
    (hfld _ (by decide)).trans hjnl, (hfld _ (by decide)).trans htime, (hfault.of_island (hisland'.trans hisland)).hasFault,
    forced_of_force (fld_of_io hio _) hdrive hforced, rfl, rfl, fun p hp => ?_⟩
  have hst : y.pairState p = d.pairState p := by
    refine (hregs.fld _ ?_).trans (hrole p hp)
    show ¬ 0x010000 + 0x1000 * p ∈ _
    simp only [List.mem_cons, List.not_mem_nil, or_false]
    omega
  have hpair : y.pair p = d.pair p := by rw [Dev.pair, Dev.pair, hfp]
  rw [hcap, if_pos (List.mem_range.2 hp), hpair, Dev.trapOf, hst]

/-! ### The hard timer, and the commands that ask for an expiry (R403, R410 to R412) -/

theorem hardStart_keeperMode (d : Dev) (m : Nat) : (d.keeperMode m).keeper.hardStart = d.keeper.hardStart := by
  have hfresh : ∀ x : Dev, x.freshWindow.keeper.hardStart = x.keeper.hardStart := fun x => by
    obtain ⟨-, -, -, hkeeper, -⟩ := freshWindow_starts x
    rw [hkeeper]
  unfold Dev.keeperMode
  extract_lets st
  split
  · rfl
  · split
    · split
      · exact hfresh _
      · rfl
    · rfl

theorem hardStart_enterMode (d : Dev) (m trig : Nat) : (d.enterMode m trig).keeper.hardStart = d.keeper.hardStart := by
  unfold Dev.enterMode
  extract_lets old d1 d2 d3 d4 d5
  have h2 : d2.keeper = d.keeper := by
    unfold d2
    split <;> rfl
  have h3 : d3.keeper.hardStart = d.keeper.hardStart :=
    (hardStart_keeperMode _ m).trans (congrArg KeeperSt.hardStart ((keeper_of_butJournal (journal_frame d2 _ _ _).1).trans h2))
  have h4 : d4.keeper.hardStart = d.keeper.hardStart :=
    (congrArg KeeperSt.hardStart (forceByMode_frame d3).2.1).trans h3
  have h5 : d5.keeper.hardStart = d.keeper.hardStart := by
    unfold d5
    split
    · exact h4
    · exact h4
  clear_value d5
  split
  · exact h5
  · split
    · exact h5
    · exact h5

theorem hardStart_safeStopCause (d : Dev) (trig : Nat) : (d.safeStopCause trig).keeper.hardStart = d.keeper.hardStart := by
  obtain ⟨-, -, -, -, hkeeper, -⟩ := assertForce_frame d
  unfold Dev.safeStopCause
  extract_lets f
  have hf : f.keeper.hardStart = d.keeper.hardStart := congrArg KeeperSt.hardStart hkeeper
  clear_value f
  split
  · exact (hardStart_enterMode f _ _).trans hf
  · split
    · exact hf
    · exact hf

/-- A RESET reaction forces the outputs, seals the open page and leaves the reset owed. -/
theorem resetReaction_leaves (d : Dev) (trig : Nat) :
    let e := d.resetReaction trig
    e.forced = true ∧ e.fld SAFEISL_STAT_REACT = 1 ∧ e.nvs.opened = [] ∧ e.island.resetAfterSeal = true ∧
    e.keeper.hardStart = d.keeper.hardStart := by
  obtain ⟨hforced, -⟩ := safeStopCause_stops d trigSafeStop
  have hhard := hardStart_safeStopCause d trigSafeStop
  unfold Dev.resetReaction
  generalize d.safeStopCause trigSafeStop = x at *
  extract_lets f g
  have hf : f.forced = true ∧ f.fld SAFEISL_STAT_REACT = 1 ∧ f.keeper.hardStart = d.keeper.hardStart :=
    ⟨forced_of_force (fld_setFld_apart _ 1 (by decide)) rfl hforced, fld_flag x, hhard⟩
  clear_value f
  obtain ⟨hff, hreact, hfhard⟩ := hf
  have hg : g.forced = true ∧ g.fld SAFEISL_STAT_REACT = 1 ∧ g.nvs.opened = [] ∧
      g.keeper.hardStart = d.keeper.hardStart := by
    unfold g
    split
    next hempty => exact ⟨hff, hreact, List.isEmpty_iff.1 hempty, hfhard⟩
    next =>
      obtain ⟨hbut, hregs⟩ := sealPage_frame f 0
      exact ⟨forced_of_force (hregs.fld _ (by decide)) (drive_of_butJournal hbut) hff, (hregs.fld _ (by decide)).trans hreact,
        sealPage_opened f 0, (congrArg KeeperSt.hardStart (keeper_of_butJournal hbut)).trans hfhard⟩
  clear_value g
  obtain ⟨hgf, hgreact, hgopen, hghard⟩ := hg
  exact ⟨hgf, hgreact, hgopen, rfl, hghard⟩

theorem hardTimerEnd_leaves {t : Nat} (h : d.keeper.hardStart = some t)
    (hdue : t + 16 * (d.fld KEEPER_CFG_HARD + 1) * 600 ≤ d.ticks) :
    let e := hardTimerEnd d
    e.forced = true ∧ e.fld SAFEISL_STAT_REACT = 1 ∧ e.nvs.opened = [] ∧ e.island.resetAfterSeal = true ∧
    e.keeper.hardStart = none := by
  have hel : d.elapsed t (16 * (d.fld KEEPER_CFG_HARD + 1) * usTicks) = true := decide_eq_true hdue
  obtain ⟨hforced, hreact, hopened, howed, hhard⟩ := resetReaction_leaves
    { d with keeper := { d.keeper with hardStart := none } } trigKeeper
  rw [hardTimerEnd, h]
  simp only [hel, if_true]
  exact ⟨hforced, hreact, hopened, howed, hhard⟩

theorem evstatClear_eq (d : Dev) :
    evstatClear d = (d.setFld KEEPER_EVSTAT_VALID 0).clearRows 0x0D0080 4 31 1 (List.range 16) := rfl

theorem evstatClear_leaves (d : Dev) :
    let e := evstatClear d
    e.fld KEEPER_EVSTAT_VALID = 0 ∧ (∀ p < 16, e.fld (KEEPER_EVPC_VALID p) = 0) ∧ e = { d with io := e.io } ∧
    ∀ p < 16, e.fld (KEEPER_EVPC_RPC p) = d.fld (KEEPER_EVPC_RPC p) := by
  have hset : (d.setFld KEEPER_EVSTAT_VALID 0).fld KEEPER_EVSTAT_VALID = 0 := fld_setFld_cut d 0
  have honly : d.OnlyIo (d.setFld KEEPER_EVSTAT_VALID 0) := (Dev.OnlyIo.refl d).setFld
  have hrpc : ∀ p, (d.setFld KEEPER_EVSTAT_VALID 0).fld (KEEPER_EVPC_RPC p) = d.fld (KEEPER_EVPC_RPC p) := fun p =>
    fld_setFld_off d 0 (by omega)
  intro e
  have he : e = _ := evstatClear_eq d
  clear_value e
  generalize d.setFld KEEPER_EVSTAT_VALID 0 = v at *
  have hclear : v.OnlyIo (v.clearRows 0x0D0080 4 31 1 (List.range 16)) := clearRows_only v
  have hzero := fun p (hp : p < 16) => fld_clearRows (a := 0x0D0080) (s := 4) (lo := 31) (w := 1) v (by decide) (by decide)
    (List.mem_range.2 hp)
  have hvalid : (v.clearRows 0x0D0080 4 31 1 (List.range 16)).fld KEEPER_EVSTAT_VALID = v.fld KEEPER_EVSTAT_VALID :=
    fld_clearRows_off v fun i _ => .inl (by show 0x0D0028 ≠ 0x0D0080 + 4 * i; omega)
  have hkeep : ∀ p, (v.clearRows 0x0D0080 4 31 1 (List.range 16)).fld (KEEPER_EVPC_RPC p) = v.fld (KEEPER_EVPC_RPC p) :=
    fun p => fld_clearRows_off v fun i _ => .inr (.inr (by decide : 0 + 12 ≤ 31))
  rw [← he] at hclear hzero hvalid hkeep
  refine ⟨hvalid.trans hset, hzero, honly.trans hclear, fun p _ => (hkeep p).trans (hrpc p)⟩

/-- Settles O30: the close, the expiry and the commands about it, each from its own lemma. -/
theorem keeperWindowsAndExpiry : Obligations.KeeperWindowsAndExpiry := by
  refine ⟨fun s => ?_, fun s => ⟨fun cause hc hexp hlen => ?_, fun t ht hdue => ?_, fun h0 h4 hexp => ?_, ?_⟩⟩
  · intro d close low high failed hst hexp hdue
    exact completes_onDev rfl fun _ => windowClose_leaves hst hexp hdue
  · exact completes_onDev rfl fun _ => keeperExpiry_leaves hexp hc hlen
  · exact completes_onDev rfl fun _ => hardTimerEnd_leaves ht hdue
  · refine completes_onDev (f := fun d => d.expireWith 5) rfl fun _ => expireWith_listening ?_
    simp [Dev.keeperDeaf, h0, h4, hexp]
  · exact completes_onDev rfl fun _ => evstatClear_leaves s.dev

end

end Sys2Proof.Machine
end

section
/-! PROOFS. Modes: what the commands of the mode table leave, and what a refusal leaves (R416 to R427, R433 to R436,
`Obligations.RunAndRefusals`, `Obligations.ModeChanges`). -/

set_option Elab.async false

namespace Sys2Proof.Machine

section
variable {d e : Dev} {code arg : Nat}

/-! ### Confirmation of a start (R427) -/

/-- The field is none that shows the slots, and stands in no register that a journal entry or ARB touches. -/
abbrev Fld.OffSlots (f : Fld) : Prop :=
  SYSCTL_STAT_ACTSLOT.Apart f ∧ SYSCTL_BOOTSTAT_ACTFAIL.Apart f ∧ SYSCTL_BOOTSTAT_ALTFAIL.Apart f ∧
  SYSCTL_FOGREASON_ACTCAUSE.Apart f ∧ SYSCTL_FOGREASON_ALTCAUSE.Apart f ∧ f.addr ∉ sealRegs ∧
  TRUST_ISTAT_ARBUP.addr ≠ f.addr

theorem Fld.OffSlots.high {f : Fld} (hlo : 0x001000 ≤ f.addr) (hhi : f.addr < 0x100000) : f.OffSlots := by
  have hmem : f.addr ∉ sealRegs := by
    simp only [sealRegs, List.mem_cons, List.not_mem_nil, or_false]
    omega
  refine ⟨.inl ?_, .inl ?_, .inl ?_, .inl ?_, .inl ?_, hmem, ?_⟩
  · show f.addr ≠ 0x000000
    omega
  · show f.addr ≠ 0x000010
    omega
  · show f.addr ≠ 0x000010
    omega
  · show f.addr ≠ 0x000014
    omega
  · show f.addr ≠ 0x000014
    omega
  · show TRUST_ISTAT_ARBUP.addr ≠ _
    rw [TRUST_ISTAT_ARBUP]
    dsimp only
    omega

theorem showSlots_keeps (d : Dev) : d.OnlyIo d.showSlots ∧ ∀ f : Fld, f.OffSlots → d.showSlots.fld f = d.fld f := by
  refine ⟨(Dev.OnlyIo.refl d).setFld.setFld.setFld.setFld.setFld, fun f hf => ?_⟩
  obtain ⟨h1, h2, h3, h4, h5, -, -⟩ := hf
  unfold Dev.showSlots
  rw [fld_setFld_apart _ _ h5, fld_setFld_apart _ _ h4, fld_setFld_apart _ _ h3, fld_setFld_apart _ _ h2,
    fld_setFld_apart _ _ h1]

theorem fld_journal (d : Dev) (type : Nat) (args : List Nat) (body : List Byte) {f : Fld} (hf : f.addr ∉ sealRegs) :
    (d.journal type args body).fld f = d.fld f := (journal_frame d type args body).2.fld f hf

theorem persist_journal (d : Dev) (type : Nat) (args : List Nat) (body : List Byte) :
    (d.journal type args body).persist = d.persist :=
  persist_of_butMode (butMode_of_butJournal (journal_frame d type args body).1)

/-- The retained state after slot `b` has become active. -/
def Persist.activated (p : Persist) (b : Bool) : Persist :=
  { (if b = p.actSlot then p else { p with actSlot := b, actCause := p.altCause, altCause := p.actCause }) with
    actFail := 0, altFail := 0 }

theorem setActive_keeps (d : Dev) (b : Bool) :
    (d.setActive b).persist = d.persist.activated b ∧ ∀ f : Fld, f.OffSlots → (d.setActive b).fld f = d.fld f := by
  have he : d.setActive b =
      ((Dev.journal { d with persist := d.persist.activated b } 0x23 [if b then 1 else 0, 0, 0]).showSlots) := rfl
  obtain ⟨honly, hshow⟩ := showSlots_keeps (Dev.journal { d with persist := d.persist.activated b } 0x23 [if b then 1 else 0, 0, 0])
  rw [he]
  refine ⟨?_, fun f hf => (hshow f hf).trans (fld_journal _ _ _ _ hf.2.2.2.2.2.1)⟩
  have hp : ∀ x y : Dev, x.OnlyIo y → y.persist = x.persist := fun x y h => by rw [h]
  exact (hp _ _ honly).trans (persist_journal _ _ _ _)

theorem activated_keeps (p : Persist) (b : Bool) : (p.activated b).actSlot = b ∧ (p.activated b).actFail = 0 ∧
    (p.activated b).altFail = 0 ∧ (p.activated b).attempt = p.attempt := by
  unfold Persist.activated
  split
  next h => exact ⟨h.symm, rfl, rfl, rfl⟩
  next => exact ⟨rfl, rfl, rfl, rfl⟩

theorem blowAnchor_keeps (d : Dev) : d.blowAnchor.persist = d.persist ∧
    ∀ f : Fld, f.addr ∉ sealRegs → d.blowAnchor.fld f = d.fld f := by
  unfold Dev.blowAnchor
  extract_lets k
  split
  · exact ⟨persist_journal _ _ _ _, fun f hf => fld_journal _ _ _ _ hf⟩
  · exact ⟨rfl, fun _ _ => rfl⟩

theorem raiseArb_keeps (d : Dev) (svn : Nat) : (∃ x, (d.raiseArb svn).persist = { d.persist with arb := x }) ∧
    ∀ f : Fld, f.OffSlots → (d.raiseArb svn).fld f = d.fld f := by
  unfold Dev.raiseArb
  split
  · generalize hj : Dev.journal { d with persist := { d.persist with arb := svn } } 0x33 [svn] = j
    obtain ⟨hpersist, hfld⟩ := blowAnchor_keeps (j.flag TRUST_ISTAT_ARBUP)
    refine ⟨⟨svn, hpersist.trans ?_⟩, fun f hf => ?_⟩
    · show j.persist = _
      rw [← hj]
      exact persist_journal _ _ _ _
    · obtain ⟨-, -, -, -, -, hseal, harb⟩ := hf
      rw [hfld f hseal, flag_eq, fld_setFld_apart _ _ (.inl (Ne.symm harb)), ← hj]
      exact fld_journal _ _ _ _ hseal
  · exact ⟨⟨d.persist.arb, rfl⟩, fun _ _ => rfl⟩

/-- The start is one that nothing has confirmed. -/
abbrev Dev.unconfirmed (d : Dev) : Prop := d.start.s7End.isSome = true ∧ d.fld SYSCTL_BOOTSTAT_CONFIRMED = 0

/-- The device as the first command that confirms its start finds it, before the slot becomes active. -/
def Dev.confirmed (d : Dev) : Dev :=
  (Dev.flag { d with persist := { d.persist with attempt := none } } SYSCTL_BOOTSTAT_CONFIRMED).journal 0x22
    [if d.on SYSCTL_STAT_BOOTSLOT then 1 else 0]

theorem confirmStart_of_unconfirmed (h : d.unconfirmed) :
    d.confirmStart = ((d.confirmed).setActive (d.on SYSCTL_STAT_BOOTSLOT)).raiseArb d.confirmed.start.imgSvn := by
  have hnone : d.start.s7End.isNone = false := by
    rw [Option.isNone_eq_false_iff]
    exact h.1
  rw [Dev.confirmStart, hnone, on_of_zero h.2]
  rfl

theorem confirmStart_of_other (h : ¬ d.unconfirmed) : d.confirmStart = d := by
  refine if_pos ?_
  rw [Bool.or_eq_true, ← Option.not_isSome, Bool.not_eq_true']
  by_cases hs : d.start.s7End.isSome = true
  · refine .inr ?_
    rw [Dev.on, bne_iff_ne]
    exact fun h0 => h ⟨hs, h0⟩
  · exact .inl (by simpa using hs)

theorem confirmed_keeps (d : Dev) : d.confirmed.persist = { d.persist with attempt := none } ∧
    d.confirmed.fld SYSCTL_BOOTSTAT_CONFIRMED = 1 ∧
    ∀ f : Fld, f.OffSlots → SYSCTL_BOOTSTAT_CONFIRMED.Apart f → d.confirmed.fld f = d.fld f := by
  unfold Dev.confirmed
  refine ⟨persist_journal _ _ _ _, ?_, fun f hf ha => ?_⟩
  · rw [fld_journal _ _ _ _ (by decide)]
    exact fld_flag _
  · rw [fld_journal _ _ _ _ hf.2.2.2.2.2.1]
    exact fld_setFld_apart _ 1 ha

/-- A confirmation leaves the fields that show no slot. -/
theorem confirmStart_keeps (d : Dev) {f : Fld} (hf : f.OffSlots) (ha : SYSCTL_BOOTSTAT_CONFIRMED.Apart f) :
    d.confirmStart.fld f = d.fld f := by
  by_cases h : d.unconfirmed
  · rw [confirmStart_of_unconfirmed h, (raiseArb_keeps _ _).2 f hf, (setActive_keeps _ _).2 f hf]
    exact (confirmed_keeps d).2.2 f hf ha
  · rw [confirmStart_of_other h]

/-- An unconfirmed start is confirmed: its slot is active, and both fail counts are zero. -/
theorem confirmStart_confirms (h : d.unconfirmed) :
    d.confirmStart.fld SYSCTL_BOOTSTAT_CONFIRMED = 1 ∧ d.confirmStart.persist.attempt = none ∧
    d.confirmStart.persist.actFail = 0 ∧ d.confirmStart.persist.altFail = 0 ∧
    d.confirmStart.persist.actSlot = d.on SYSCTL_STAT_BOOTSLOT := by
  obtain ⟨hpersist, hconf, -⟩ := confirmed_keeps d
  rw [confirmStart_of_unconfirmed h]
  generalize d.confirmed = c at *
  obtain ⟨hactive, hafld⟩ := setActive_keeps c (d.on SYSCTL_STAT_BOOTSLOT)
  obtain ⟨hslot, hact, halt, hatt⟩ := activated_keeps c.persist (d.on SYSCTL_STAT_BOOTSLOT)
  generalize c.setActive (d.on SYSCTL_STAT_BOOTSLOT) = a at *
  obtain ⟨⟨x, hx⟩, hrfld⟩ := raiseArb_keeps a c.start.imgSvn
  rw [hx, hactive]
  refine ⟨(hrfld _ (by decide)).trans ((hafld _ (by decide)).trans hconf), hatt.trans ?_, hact, halt, hslot⟩
  rw [hpersist]

/-! ### The mode entered (R396, R417, R419) -/

/-- A mode change ends with the force line as the mode has it, and the ECC test off outside its modes. -/
theorem enterMode_ends (d : Dev) (m trig : Nat) : ∃ x : Dev, (m = modeSafeStop → x.fld SAFEISL_STAT_SSLATCH = 0) ∧
    ∀ f : Fld, f.addr ≠ 0x050050 → (d.enterMode m trig).fld f = x.forceByMode.fld f := by
  unfold Dev.enterMode
  extract_lets old d1 d2 d3 d4 d5
  refine ⟨d3, fun hm => ?_, fun f hf => ?_⟩
  · have h2 : d2.fld SAFEISL_STAT_SSLATCH = 0 := by
      unfold d2
      rw [if_pos hm]
      exact fld_setFld_cut _ 0
    have hk := (keeperMode_frame (d2.journal 0x11 [old, m, trig]) m).2.2.2.fld SAFEISL_STAT_SSLATCH (by decide)
    exact hk.trans ((fld_journal _ _ _ _ (by decide)).trans h2)
  · have h5 : d5.fld f = d3.forceByMode.fld f := by
      unfold d5
      split
      · rfl
      · exact fld_setFld_apart _ 0 (.inl hf)
    clear_value d5
    split
    · exact h5
    · split
      · exact h5
      · exact h5

theorem fld_assertForce (d : Dev) {f : Fld} (hf : SAFEISL_STAT_FORCE.Apart f) : d.assertForce.fld f = d.fld f :=
  (fld_of_io (d := d.flag SAFEISL_STAT_FORCE) (assertForce_frame d).2.1 f).trans (fld_setFld_apart d 1 hf)

theorem fld_forceByMode (d : Dev) {f : Fld} (hf : SAFEISL_STAT_FORCE.Apart f) : d.forceByMode.fld f = d.fld f := by
  rcases forceByMode_cases d with h | h
  · rw [h, fld_assertForce d hf]
  · rw [h, fld_setFld_apart d 0 hf]

/-- SSLATCH clears where SAFE-STOP is entered (R417). -/
theorem sslatch_enterMode (d : Dev) (trig : Nat) : (d.enterMode modeSafeStop trig).fld SAFEISL_STAT_SSLATCH = 0 := by
  obtain ⟨x, hlatch, hends⟩ := enterMode_ends d modeSafeStop trig
  rw [hends _ (by decide), fld_forceByMode x (by decide)]
  exact hlatch rfl

theorem running_of_fld (h : e.fld SYSCTL_STAT_MODE = d.fld SYSCTL_STAT_MODE) : e.running = d.running := running_of_mode h

theorem forceDemanded_of_fld (hr : e.fld SAFEISL_STAT_REACT = d.fld SAFEISL_STAT_REACT)
    (hk : e.fld KEEPER_STAT_STATE = d.fld KEEPER_STAT_STATE)
    (hp : e.fld POWER_STAT_PFCOMMIT = d.fld POWER_STAT_PFCOMMIT) : e.forceDemanded = d.forceDemanded := by
  simp only [Dev.forceDemanded, on_of_fld hr, on_of_fld hp, hk]

/-- In RUN and DEGRADED the force line is released unless a cause demands it (R396). -/
theorem force_enterMode (d : Dev) (m trig : Nat) (hrun : (d.enterMode m trig).running = true)
    (hfree : (d.enterMode m trig).forceDemanded = false) : (d.enterMode m trig).fld SAFEISL_STAT_FORCE = 0 := by
  obtain ⟨x, -, hends⟩ := enterMode_ends d m trig
  generalize d.enterMode m trig = e at *
  have hxrun : x.running = true := by
    rw [← running_of_fld ((hends _ (by decide)).trans (fld_forceByMode x (by decide)))]
    exact hrun
  have hxfree : x.forceDemanded = false := by
    rw [← forceDemanded_of_fld ((hends _ (by decide)).trans (fld_forceByMode x (by decide)))
      ((hends _ (by decide)).trans (fld_forceByMode x (by decide)))
      ((hends _ (by decide)).trans (fld_forceByMode x (by decide)))]
    exact hfree
  rw [hends _ (by decide), Dev.forceByMode, hxrun, hxfree, if_pos (by decide)]
  exact fld_setFld_cut x 0

/-! ### A command judged (R421 to R423) -/

theorem carrying_of_mode (h : d.mode ≠ modeStandby) : d.carrying = false := by
  rw [Dev.carrying, decide_eq_false h, Bool.false_and]

/-- A command in its modes, with its conditions and room in the journal, is carried out. -/
theorem judge_done (hmode : permittedIn code d.mode = true) (hcond : d.conditionsMet code arg = true)
    (hfull : d.nvs.full = false ∨ protectedCode code = false) (hwake : code = 3 → d.word 0x000020 ≠ 0) :
    (d.judge code arg).2 = (d.cmdStat code cmdDone).command code arg := by
  have hno : (d.nvs.full && protectedCode code) = false := by rcases hfull with h | h <;> simp [h]
  have hw : ¬ (code = 3 && d.word 0x000020 = 0) = true := by
    rw [Bool.and_eq_true, decide_eq_true_eq, decide_eq_true_eq]
    exact fun h => hwake h.1 h.2
  rw [Dev.judge, hmode, hcond, hno, if_neg (by decide), if_neg hw]

theorem fld_code_cmdStat (d : Dev) {code : Nat} (status : Nat) (h : code < 256) :
    (d.cmdStat code status).fld SYSCTL_CMDSTAT_CODE = code := by
  rw [Dev.cmdStat, fld_setFld_apart _ _ (by decide), fld_setFld_apart _ _ (by decide), fld_setFld_same _ _ (by decide)]
  exact Nat.mod_eq_of_lt h

theorem fld_cmdStat (d : Dev) (code status : Nat) {f : Fld} (hf : f.addr ≠ 0x000008) :
    (d.cmdStat code status).fld f = d.fld f := (cmdStat_frame d code status).2.2.2.fld f (by simpa using hf)

theorem anyLost_of_states (h : ∀ p < 16, e.pairState p = d.pairState p) : e.anyLost = d.anyLost := by
  rw [Bool.eq_iff_iff]
  simp only [Dev.anyLost, List.any_eq_true, List.mem_range]
  refine exists_congr fun p => and_congr_right fun hp => ?_
  rw [h p hp]

/-! ### RUN (R416, R417, R423) -/

theorem conditionsMet_run (h0 : d.energised 0 = true) (h1 : d.energised 1 = true) (hpf : d.fld POWER_STAT_PFCOMMIT = 0)
    (hreact : d.fld SAFEISL_STAT_REACT = 0) (hcover : d.covered = true) : d.conditionsMet 1 arg = true := by
  show d.runAllowed = true
  rw [Dev.runAllowed, h0, h1, hcover, on_of_zero hpf, on_of_zero hreact]
  rfl

/-- What RUN reads of the device is what it finds before the start is confirmed. -/
theorem runMode_confirmStart (d : Dev) : d.confirmStart.runMode = d.runMode := by
  have hlatch : d.confirmStart.on SAFEISL_STAT_SSLATCH = d.on SAFEISL_STAT_SSLATCH :=
    on_of_fld (confirmStart_keeps d (by decide) (by decide))
  have hmode : d.confirmStart.mode = d.mode := confirmStart_keeps d (by decide) (by decide)
  have hlost : d.confirmStart.anyLost = d.anyLost := anyLost_of_states fun p hp =>
    confirmStart_keeps d (.high (by show _ ≤ 0x010000 + 0x1000 * p; omega) (by show 0x010000 + 0x1000 * p < _; omega))
      (.inl (by show 0x010000 + 0x1000 * p ≠ 0x000010; omega))
  rw [Dev.runMode, Dev.runMode, hlatch, hmode, hlost]

theorem runMode_cmdStat (d : Dev) (code status : Nat) : (d.cmdStat code status).runMode = d.runMode := by
  have hlatch : (d.cmdStat code status).on SAFEISL_STAT_SSLATCH = d.on SAFEISL_STAT_SSLATCH :=
    on_of_fld (fld_cmdStat d code status (by decide))
  have hmode : (d.cmdStat code status).mode = d.mode := fld_cmdStat d code status (by decide)
  have hlost : (d.cmdStat code status).anyLost = d.anyLost := anyLost_of_states fun p hp =>
    fld_cmdStat d code status (by show 0x010000 + 0x1000 * p ≠ 0x000008; omega)
  rw [Dev.runMode, Dev.runMode, hlatch, hmode, hlost]

theorem runMode_latched (h : d.fld SAFEISL_STAT_SSLATCH = 1) (hm : d.mode = modeBoot ∨ d.mode = modeConfig) :
    d.runMode = modeSafeStop := by
  rw [Dev.runMode, on_of_one h, if_pos (by simpa using hm)]

theorem runMode_lt (d : Dev) : d.runMode < 8 := by
  unfold Dev.runMode
  split_ifs <;> decide

/-- A confirmed start after RUN or ENTER_CONFIG. -/
theorem enterMode_confirmStart (d : Dev) (m trig : Nat) :
    let e := d.confirmStart.enterMode m trig
    (d.unconfirmed → e.fld SYSCTL_BOOTSTAT_CONFIRMED = 1 ∧ e.persist.attempt = none ∧ e.persist.actFail = 0 ∧
      e.persist.altFail = 0 ∧ e.persist.actSlot = d.on SYSCTL_STAT_BOOTSLOT) ∧
    (d.fld SYSCTL_BOOTSTAT_CONFIRMED = 1 → e.fld SYSCTL_BOOTSTAT_CONFIRMED = 1) ∧
    e.fld SYSCTL_CMDSTAT_STATUS = d.fld SYSCTL_CMDSTAT_STATUS ∧ e.fld SYSCTL_CMDSTAT_CODE = d.fld SYSCTL_CMDSTAT_CODE := by
  obtain ⟨hbut, hregs⟩ := enterMode_frame d.confirmStart m trig
  have hpersist := persist_of_butMode hbut
  refine ⟨fun h => ?_, fun h => ?_, (hregs.fld _ (by decide)).trans (confirmStart_keeps d (by decide) (by decide)),
    (hregs.fld _ (by decide)).trans (confirmStart_keeps d (by decide) (by decide))⟩
  · obtain ⟨hconf, hatt, hact, halt, hslot⟩ := confirmStart_confirms h
    exact ⟨(hregs.fld _ (by decide)).trans hconf, (congrArg Persist.attempt hpersist).trans hatt,
      (congrArg Persist.actFail hpersist).trans hact, (congrArg Persist.altFail hpersist).trans halt,
      (congrArg Persist.actSlot hpersist).trans hslot⟩
  · have hno : ¬ d.unconfirmed := fun hu => by
      rw [hu.2] at h
      cases h
    rw [confirmStart_of_other hno] at hregs ⊢
    exact (hregs.fld _ (by decide)).trans h

theorem command_run_leaves (d : Dev) :
    let e := (d.cmdStat 1 cmdDone).command 1 0
    let latched := d.fld SAFEISL_STAT_SSLATCH = 1 ∧ d.mode ≠ modeSafeStop
    (d.mode = modeBoot ∨ d.mode = modeConfig ∨ d.mode = modeSafeStop) →
    (latched → e.mode = modeSafeStop ∧ e.fld SAFEISL_STAT_SSLATCH = 0 ∧ e.forced = true) ∧
    (¬latched → e.mode = if d.anyLost then modeDegraded else modeRun) ∧
    (e.running = true → e.forceDemanded = false → e.fld SAFEISL_STAT_FORCE = 0) ∧
    e.fld SYSCTL_STAT_PREV = d.mode ∧ e.fld SYSCTL_CMDSTAT_STATUS = cmdDone ∧ e.fld SYSCTL_CMDSTAT_CODE = 1 ∧
    (d.start.s7End.isSome = true → d.fld SYSCTL_BOOTSTAT_CONFIRMED = 0 →
      e.fld SYSCTL_BOOTSTAT_CONFIRMED = 1 ∧ e.persist.attempt = none ∧ e.persist.actFail = 0 ∧ e.persist.altFail = 0 ∧
      e.persist.actSlot = d.on SYSCTL_STAT_BOOTSLOT) := by
  have hrun := (runMode_confirmStart (d.cmdStat 1 cmdDone)).trans (runMode_cmdStat d 1 cmdDone)
  have hmode : (d.cmdStat 1 cmdDone).mode = d.mode := fld_cmdStat d 1 cmdDone (by decide)
  have hstatus := fld_status_cmdStat d 1 (by decide : cmdDone < 256)
  have hcode := fld_code_cmdStat d cmdDone (by decide : 1 < 256)
  have hconf : (d.cmdStat 1 cmdDone).fld SYSCTL_BOOTSTAT_CONFIRMED = d.fld SYSCTL_BOOTSTAT_CONFIRMED :=
    fld_cmdStat d 1 cmdDone (by decide)
  have hslot : (d.cmdStat 1 cmdDone).on SYSCTL_STAT_BOOTSLOT = d.on SYSCTL_STAT_BOOTSLOT :=
    on_of_fld (fld_cmdStat d 1 cmdDone (by decide))
  have hstart : (d.cmdStat 1 cmdDone).start = d.start := rfl
  intro e latched hm
  have he : e = (d.cmdStat 1 cmdDone).confirmStart.enterMode ((d.cmdStat 1 cmdDone).confirmStart.runMode) trigCommand := rfl
  rw [hrun] at he
  clear_value e
  generalize d.cmdStat 1 cmdDone = c at *
  obtain ⟨hconfirms, -, hestatus, hecode⟩ := enterMode_confirmStart c d.runMode trigCommand
  obtain ⟨hemode, heprev⟩ := mode_enterMode c.confirmStart trigCommand (runMode_lt d)
  have hforce := force_enterMode c.confirmStart d.runMode trigCommand
  rw [← he] at hconfirms hestatus hecode hemode heprev hforce
  refine ⟨fun hl => ?_, fun hl => ?_, hforce, ?_, hestatus.trans hstatus, hecode.trans hcode, fun hs hc => ?_⟩
  · have hrm := runMode_latched hl.1 (by
      rcases hm with h | h | h
      · exact .inl h
      · exact .inr h
      · exact absurd h hl.2)
    rw [hrm] at he hemode
    rw [he]
    exact ⟨he ▸ hemode, sslatch_enterMode _ _, forced_enterMode _ _ (by decide) rfl⟩
  · rw [hemode, Dev.runMode, if_neg]
    rw [Bool.and_eq_true, Bool.or_eq_true, decide_eq_true_eq, decide_eq_true_eq, on_iff_one rfl]
    rintro ⟨h1, h2⟩
    refine hl ⟨h1, fun h => ?_⟩
    rw [h] at h2
    rcases h2 with h2 | h2 <;> cases h2
  · rw [heprev, ← hmode]
    exact confirmStart_keeps c (by decide) (by decide)
  · rw [← hslot]
    exact hconfirms ⟨hstart ▸ hs, hconf.trans hc⟩

/-! ### Refusals (R420 to R422) -/

/-- What a refused command leaves. -/
theorem refused_leaves (d : Dev) {code : Nat} (prot : Bool) (hc : code < 256) :
    let e := (d.refuse code prot).cmdStat code cmdRefused
    e.fld SYSCTL_CMDSTAT_STATUS = cmdRefused ∧ e.fld SYSCTL_CMDSTAT_CODE = code ∧ e.fld SYSCTL_REFUSED_CODE = code ∧
    e.fld SYSCTL_REFUSED_MODE = d.mode ∧ e.fld SYSCTL_REFUSED_COUNT = min 65535 (d.fld SYSCTL_REFUSED_COUNT + 1) ∧
    e.mode = d.mode ∧ e.pairs = d.pairs ∧ e.mem = d.mem ∧ e.drive = d.drive ∧ e.start = d.start ∧ e.persist = d.persist := by
  obtain ⟨hbut, -, -, -⟩ := cmdStat_frame (d.refuse code prot) code cmdRefused
  obtain ⟨hrbut, -⟩ := refuse_frame d code prot
  have hall := hbut.trans hrbut
  have hrefused : ∀ f : Fld, f.addr = 0x000028 →
      (d.refuse code prot).fld f = (((d.count SYSCTL_REFUSED_COUNT).setFld SYSCTL_REFUSED_MODE d.mode).setFld
        SYSCTL_REFUSED_CODE code).fld f := fun f hf => by
    unfold Dev.refuse
    extract_lets x
    have hx : x.fld f = (((d.count SYSCTL_REFUSED_COUNT).setFld SYSCTL_REFUSED_MODE d.mode).setFld
        SYSCTL_REFUSED_CODE code).fld f := rfl
    clear_value x
    split
    · exact (fld_journal x _ _ _ (by rw [hf]; decide)).trans hx
    · exact hx
  have hmlt : d.mode < 2 ^ 3 := fld_lt d SYSCTL_STAT_MODE
  refine ⟨fld_status_cmdStat _ _ (by decide), fld_code_cmdStat _ _ hc, ?_, ?_, ?_, mode_refuse_cmdStat _ _ _ _, ?_⟩
  · rw [fld_cmdStat _ _ _ (by decide), hrefused _ rfl, fld_setFld_same _ _ (by decide)]
    exact Nat.mod_eq_of_lt hc
  · rw [fld_cmdStat _ _ _ (by decide), hrefused _ rfl, fld_setFld_apart _ _ (by decide), fld_setFld_same _ _ (by decide)]
    exact Nat.mod_eq_of_lt hmlt
  · rw [fld_cmdStat _ _ _ (by decide), hrefused _ rfl, fld_setFld_apart _ _ (by decide), fld_setFld_apart _ _ (by decide)]
    exact fld_count (by decide)
  · have hm := butMode_of_butJournal hall
    exact ⟨pairs_of_butMode hm, mem_of_butMode hm, drive_of_butJournal hall, start_of_butMode hm, persist_of_butMode hm⟩

theorem issueCommand_waits {src : CmdSrc} (h : d.carrying = true) : d.issueCommand src code arg =
    { d with start := { d.start with waiting := d.start.waiting ++ [(src, code, arg)] } } := if_pos h

theorem issueCommand_refused {src : CmdSrc} (arg : Nat) (hcode : 1 ≤ code ∧ code ≤ 8) (hmay : d.mayIssue src code = true)
    (hfree : d.carrying = false) (h : permittedIn code d.mode = false ∨ d.conditionsMet code arg = false) :
    d.issueCommand src code arg = (d.refuse code (protectedCode code)).cmdStat code cmdRefused := by
  rw [issueCommand_judged arg hcode hmay hfree, judge_refused h]

/-- A code that no command of R421 has, written to SYSCTL.CMD, is unknown (R422). -/
theorem issueCommand_unknown (hfree : d.carrying = false) (h : code = 0 ∨ 8 < code) :
    d.issueCommand .register code arg = d.cmdStat code cmdUnknown := by
  rw [Dev.issueCommand, hfree, if_neg Bool.false_ne_true]
  exact if_pos (by simpa using h)

/-- A protected code written to SYSCTL.CMD needs a signature (R420). -/
theorem issueCommand_sigreq (hfree : d.carrying = false) (h : 4 ≤ code ∧ code ≤ 8) :
    d.issueCommand .register code arg = d.cmdStat code cmdSigreq := by
  have hknown : (code = 0 || decide (8 < code)) = false := by simp; omega
  have hprot : protectedCode code = true := by simp [protectedCode, h]
  rw [Dev.issueCommand, hfree, if_neg Bool.false_ne_true]
  simp [Dev.carryOut, hknown, hprot]

theorem cmdStat_leaves (d : Dev) (code : Nat) {status : Nat} (hs : status < 256) :
    (d.cmdStat code status).fld SYSCTL_CMDSTAT_STATUS = status ∧ d.cmdStat code status = { d with io := (d.cmdStat code status).io } ∧
    d.SameWords (d.cmdStat code status) [8] :=
  ⟨fld_status_cmdStat d code hs, rfl, (cmdStat_frame d code status).2.2.2.word⟩

section
variable {s : State} {c : Instr} {src : CmdSrc}

theorem completes_refused (hexec : exec c s = s.onDev fun d => d.issueCommand src code arg) (hcode : 1 ≤ code ∧ code ≤ 8)
    (hmay : s.dev.mayIssue src code = true) (hfree : s.dev.carrying = false)
    (h : permittedIn code s.dev.mode = false ∨ s.dev.conditionsMet code arg = false) :
    Completes c s fun e =>
      e.fld SYSCTL_CMDSTAT_STATUS = cmdRefused ∧ e.fld SYSCTL_CMDSTAT_CODE = code ∧ e.fld SYSCTL_REFUSED_CODE = code ∧
      e.fld SYSCTL_REFUSED_MODE = s.dev.mode ∧ e.fld SYSCTL_REFUSED_COUNT = min 65535 (s.dev.fld SYSCTL_REFUSED_COUNT + 1) ∧
      e.mode = s.dev.mode ∧ e.pairs = s.dev.pairs ∧ e.mem = s.dev.mem ∧ e.drive = s.dev.drive ∧ e.start = s.dev.start ∧
      e.persist = s.dev.persist := by
  refine completes_onDev hexec fun _ => ?_
  rw [issueCommand_refused arg hcode hmay hfree h]
  exact refused_leaves s.dev _ (by omega)

theorem completes_sigreq (hexec : exec c s = s.onDev fun d => d.issueCommand .register code arg)
    (hcode : 4 ≤ code ∧ code ≤ 8) (hfree : s.dev.carrying = false) :
    Completes c s fun e => e.fld SYSCTL_CMDSTAT_STATUS = cmdSigreq ∧ e = { s.dev with io := e.io } ∧ s.dev.SameWords e [8] := by
  refine completes_onDev hexec fun _ => ?_
  rw [issueCommand_sigreq hfree hcode]
  exact cmdStat_leaves s.dev code (by decide)

end

/-- Settles O31: RUN from what its command leaves, and every refusal from what it leaves of the device. -/
theorem runAndRefusals : Obligations.RunAndRefusals := by
  refine ⟨fun s src hmay hm h0 h1 hpf hreact hcover => ?_, fun s src => ⟨fun hbusy => ?_, fun hfree => ⟨?_, ?_, ?_⟩⟩⟩
  · refine completes_onDev (f := fun d => d.issueCommand src 1 0) rfl fun _ => ?_
    have hfree : s.dev.carrying = false := carrying_of_mode fun h => by
      rw [h] at hm
      rcases hm with hm | hm | hm <;> cases hm
    have hperm : permittedIn 1 s.dev.mode = true := by
      rcases hm with h | h | h <;> rw [h] <;> rfl
    rw [issueCommand_judged 0 (by decide) hmay hfree,
      judge_done hperm (conditionsMet_run h0 h1 hpf hreact hcover) (.inr rfl) (fun h => absurd h (by decide))]
    exact command_run_leaves s.dev hm
  · exact completes_onDev (f := fun d => d.issueCommand src 1 0) rfl fun _ => issueCommand_waits hbusy
  · intro c code arg hmem hmay hrefuse
    rcases List.mem_append.1 hmem with hlist | hunfence
    · simp only [List.mem_cons, Prod.mk.injEq, List.not_mem_nil, or_false] at hlist
      rcases hlist with ⟨rfl, rfl, rfl⟩ | ⟨rfl, rfl, rfl⟩ | ⟨rfl, rfl, rfl⟩ | ⟨rfl, rfl, rfl⟩ | ⟨rfl, rfl, rfl⟩ | ⟨rfl, rfl, rfl⟩ <;>
        exact completes_refused rfl (by decide) hmay hfree hrefuse
    · obtain ⟨n, -, heq⟩ := List.mem_map.1 hunfence
      cases heq
      exact completes_refused rfl (by decide) hmay hfree hrefuse
  · intro c hmem
    rcases List.mem_append.1 hmem with hlist | hunfence
    · simp only [List.mem_cons, List.not_mem_nil, or_false] at hlist
      rcases hlist with rfl | rfl | rfl | rfl
      · exact completes_sigreq (code := 4) rfl (by decide) hfree
      · exact completes_sigreq (code := 5) rfl (by decide) hfree
      · exact completes_sigreq (code := 6) rfl (by decide) hfree
      · exact completes_sigreq (code := 8) rfl (by decide) hfree
    · obtain ⟨n, -, rfl⟩ := List.mem_map.1 hunfence
      exact completes_sigreq (code := 7) rfl (by decide) hfree
  · intro code hcode
    refine completes_onDev (f := fun d => if decide (1 ≤ code.toNat) && decide (code.toNat ≤ 8) then d
      else d.issueCommand .register code.toNat 0) rfl fun _ => ?_
    have hunlisted : ¬ (decide (1 ≤ code.toNat) && decide (code.toNat ≤ 8)) = true := by
      rw [Bool.and_eq_true, decide_eq_true_eq, decide_eq_true_eq]
      omega
    rw [if_neg hunlisted, issueCommand_unknown hfree hcode]
    obtain ⟨hstatus, honly, hwords⟩ := cmdStat_leaves s.dev code.toNat (by decide : cmdUnknown < 256)
    exact ⟨hstatus, fld_code_cmdStat _ _ code.isLt, honly, hwords⟩

/-! ### Commands that enter a mode (R416, R421, R427, R434, R436) -/

theorem completes_done {s : State} {c : Instr} {src : CmdSrc} {P : Dev → Prop}
    (hexec : exec c s = s.onDev fun d => d.issueCommand src code arg) (hcode : 1 ≤ code ∧ code ≤ 8)
    (hmay : s.dev.mayIssue src code = true) (hfree : s.dev.carrying = false)
    (hmode : permittedIn code s.dev.mode = true) (hcond : s.dev.conditionsMet code arg = true)
    (hfull : s.dev.nvs.full = false) (hwake : code = 3 → s.dev.word 0x000020 ≠ 0)
    (hP : P ((s.dev.cmdStat code cmdDone).command code arg)) : Completes c s P := by
  refine completes_onDev hexec fun _ => ?_
  rw [issueCommand_judged arg hcode hmay hfree, judge_done hmode hcond (.inl hfull) hwake]
  exact hP

/-- A mode other than RUN and DEGRADED, entered from the device as the command was judged. -/
theorem entered_leaves (d : Dev) {m : Nat} (hm : m < 8) (hr : (m = modeRun || m = modeDegraded) = false) :
    let e := d.enterMode m trigCommand
    e.mode = m ∧ e.fld SYSCTL_STAT_PREV = d.mode ∧ e.forced = true ∧
    e.fld SYSCTL_CMDSTAT_STATUS = d.fld SYSCTL_CMDSTAT_STATUS ∧ e.fld DEBUG_STAT_SESSION = d.fld DEBUG_STAT_SESSION ∧
    e.ticks = d.ticks := by
  obtain ⟨hbut, hregs⟩ := enterMode_frame d m trigCommand
  obtain ⟨hmode, hprev⟩ := mode_enterMode d trigCommand hm
  exact ⟨hmode, hprev, forced_enterMode d trigCommand hm hr, hregs.fld _ (by decide), hregs.fld _ (by decide),
    ticks_of_butMode hbut⟩

theorem haltAll_keeps (d : Dev) : d.haltAll.io = d.io ∧ d.haltAll.drive = d.drive ∧ d.haltAll.start = d.start := by
  refine foldl_keeps (fun e : Dev => e.io = d.io ∧ e.drive = d.drive ∧ e.start = d.start) _ (fun e p he => ?_) _ d ⟨rfl, rfl, rfl⟩
  split
  · exact he
  · exact he

/-- STANDBY entered, with its time noted for the wake timer (R435). -/
def Dev.standbyFrom (d : Dev) : Dev := { d with start := { d.start with standbyAt := some d.ticks } }

/-- The wait for the releases begun (R434). -/
def Dev.waitBegun (d : Dev) : Dev := { d with start := { d.start with waitFrom := some d.ticks } }

theorem standbyFrom_keeps (d : Dev) : d.standbyFrom.io = d.io ∧ d.standbyFrom.drive = d.drive ∧ d.standbyFrom.ticks = d.ticks :=
  ⟨rfl, rfl, rfl⟩

theorem waitBegun_keeps (d : Dev) : d.waitBegun.io = d.io ∧ d.waitBegun.drive = d.drive ∧
    d.waitBegun.start.waitFrom = some d.ticks := ⟨rfl, rfl, rfl⟩

/-- STANDBY is entered by way of its mode, and then waits, or is emulated where a session is open (R434, R436). -/
theorem enterStandby_eq (d : Dev) : d.enterStandby =
    if (d.assertForce.enterMode modeStandby trigCommand).standbyFrom.session then
      ((d.assertForce.enterMode modeStandby trigCommand).standbyFrom.flag SYSCTL_STAT_EMUL).haltAll
    else (d.assertForce.enterMode modeStandby trigCommand).standbyFrom.waitBegun := rfl

/-- What entry into STANDBY leaves. -/
theorem enterStandby_leaves (d : Dev) :
    d.enterStandby.mode = modeStandby ∧ d.enterStandby.fld SYSCTL_STAT_PREV = d.mode ∧ d.enterStandby.forced = true ∧
    d.enterStandby.fld SYSCTL_CMDSTAT_STATUS = d.fld SYSCTL_CMDSTAT_STATUS ∧
    (d.fld DEBUG_STAT_SESSION = 0 → d.enterStandby.start.waitFrom = some d.ticks) ∧
    (d.fld DEBUG_STAT_SESSION = 1 → d.enterStandby.fld SYSCTL_STAT_EMUL = 1) := by
  obtain ⟨hmode, hprev, hforced, hstatus, hsession, hticks⟩ := entered_leaves d.assertForce (m := modeStandby) (by decide) rfl
  have hbut := (assertForce_frame d).1
  rw [fld_assertForce d (by decide)] at hstatus hsession
  have hprev' : d.assertForce.mode = d.mode := fld_assertForce d (by decide)
  rw [hprev'] at hprev
  rw [ticks_of_butMode hbut] at hticks
  rw [enterStandby_eq]
  generalize d.assertForce.enterMode modeStandby trigCommand = x at *
  obtain ⟨hio, hdrive, hyt⟩ := standbyFrom_keeps x
  generalize x.standbyFrom = y at *
  have hys : y.session = d.on DEBUG_STAT_SESSION := on_of_fld ((fld_of_io hio _).trans hsession)
  rw [hys]
  cases hs : d.on DEBUG_STAT_SESSION with
  | true =>
    obtain ⟨hhio, hhdrive, -⟩ := haltAll_keeps (y.flag SYSCTL_STAT_EMUL)
    have hfld : ∀ f : Fld, SYSCTL_STAT_EMUL.Apart f → (y.flag SYSCTL_STAT_EMUL).haltAll.fld f = x.fld f := fun f hf =>
      (fld_of_io hhio f).trans ((fld_setFld_apart y 1 hf).trans (fld_of_io hio f))
    rw [if_pos rfl]
    refine ⟨(hfld _ (by decide)).trans hmode, (hfld _ (by decide)).trans hprev,
      forced_of_force (hfld _ (by decide)) (hhdrive.trans hdrive) hforced, (hfld _ (by decide)).trans hstatus, fun h0 => ?_,
      fun _ => (fld_of_io hhio _).trans (fld_flag y)⟩
    rw [on_of_zero h0] at hs
    cases hs
  | false =>
    obtain ⟨hwio, hwdrive, hwait⟩ := waitBegun_keeps y
    rw [if_neg Bool.false_ne_true]
    refine ⟨(fld_of_io (hwio.trans hio) _).trans hmode, (fld_of_io (hwio.trans hio) _).trans hprev,
      forced_of_force (fld_of_io (hwio.trans hio) _) (hwdrive.trans hdrive) hforced,
      (fld_of_io (hwio.trans hio) _).trans hstatus, fun _ => hwait.trans (congrArg some (hyt.trans hticks)), fun h1 => ?_⟩
    rw [on_of_one h1] at hs
    cases hs

/-! ### A device reset on a command (R421, R433) -/

/-- The retained state without the state of the pairs. -/
def Persist.butPairs (p : Persist) : Persist := { p with pairState := [] }

/-- The retained state of `e` is that of `d`, the state of the pairs apart. -/
def Dev.KeptButPairs (d e : Dev) : Prop := e.persist.butPairs = d.persist.butPairs

theorem Dev.KeptButPairs.of_persist {f : Dev} (h : d.KeptButPairs e) (hf : f.persist = e.persist) : d.KeptButPairs f :=
  (congrArg Persist.butPairs hf).trans h

theorem Dev.KeptButPairs.ite {f : Dev} {c : Prop} {_ : Decidable c} (he : d.KeptButPairs e) (hf : d.KeptButPairs f) :
    d.KeptButPairs (if c then e else f) := by
  split
  · exact he
  · exact hf

theorem Dev.KeptButPairs.withPairState {x : List (Nat × Nat)} (h : d.KeptButPairs e) :
    d.KeptButPairs { e with persist := { e.persist with pairState := x } } := h

theorem Dev.KeptButPairs.journal {type : Nat} {args : List Nat} {body : List Byte} (h : d.KeptButPairs e) :
    d.KeptButPairs (e.journal type args body) := h.of_persist (persist_journal e type args body)

theorem Dev.KeptButPairs.setFld {f : Fld} {x : Nat} (h : d.KeptButPairs e) : d.KeptButPairs (e.setFld f x) := h

theorem Dev.KeptButPairs.fencePending {p : Nat} (h : d.KeptButPairs e) : d.KeptButPairs (e.fencePending p) :=
  .ite (Dev.KeptButPairs.setFld h).withPairState.journal h

theorem Dev.KeptButPairs.resetRegisters (h : d.KeptButPairs e) : d.KeptButPairs e.resetRegisters := by
  unfold Dev.resetRegisters
  extract_lets old d1
  have h1 : d.KeptButPairs d1 := h
  exact .setFld (.ite h1.setFld h1)

/-- A device reset keeps what the journal retains, the state of the pairs that it fences apart (R13). -/
theorem deviceReset_retains (d : Dev) (trig : Nat) : d.KeptButPairs (d.deviceReset trig) := by
  unfold Dev.deviceReset
  extract_lets d1 d2 d3
  have h1 : d.KeptButPairs d1 := foldl_keeps d.KeptButPairs _ (fun _ _ h => h.fencePending) (List.range 16) d rfl
  have h3 : d.KeptButPairs d3 := .ite h1.resetRegisters.setFld h1.resetRegisters
  clear_value d3
  exact h3

/-- CLEAR_FOG: the fail counts at zero, the active slot kept, and a device reset (R433). -/
theorem command_clearFog_leaves (d : Dev) :
    let e := d.command 6 0
    e.backInBoot = true ∧ e.persist.actFail = 0 ∧ e.persist.altFail = 0 ∧ e.persist.actSlot = d.persist.actSlot := by
  obtain ⟨hslot, hact, halt, -⟩ := activated_keeps d.persist d.persist.actSlot
  have hset := (setActive_keeps d d.persist.actSlot).1
  intro e
  have he : e = (d.setActive d.persist.actSlot).deviceReset trigFog := rfl
  clear_value e
  generalize d.setActive d.persist.actSlot = y at hset he
  rw [← hset] at hslot hact halt
  have hkept := deviceReset_retains y trigFog
  have hboot := (deviceReset_restarts y trigFog).1
  rw [he]
  generalize y.deviceReset trigFog = z at hkept hboot ⊢
  exact ⟨hboot, (congrArg Persist.actFail hkept).trans hact,
    (congrArg Persist.altFail hkept).trans halt, (congrArg Persist.actSlot hkept).trans hslot⟩

/-- The retained state after pair `p` has been unfenced. -/
def Persist.withUnfenced (x : Persist) (p : Nat) : Persist :=
  { x with pairState := arrSet 0 x.pairState p stOff, unfenced := withBit x.unfenced p }

/-- UNFENCE: the pair OFF there and in retention, to be tested at the next start (R249). -/
theorem unfence_leaves (d : Dev) (n : Fin 16) :
    (d.unfence n).pairState n = stOff ∧ arrGet 0 (d.unfence n).persist.pairState n = stOff ∧
    (d.unfence n).persist.unfenced.testBit n = true ∧ (d.unfence n).mode = d.mode ∧
    ∀ m : Fin 16, m ≠ n → (d.unfence n).pairState m = d.pairState m := by
  have hpersist : (d.unfence n).persist = d.persist.withUnfenced n := persist_journal _ _ _ _
  have hfld : ∀ f : Fld, f.addr ∉ sealRegs → (d.unfence n).fld f = (d.setPairState n stOff).fld f := fun f hf =>
    fld_journal _ _ _ _ hf
  have hseal : ∀ m : Fin 16, (PAIRCTL_ROLE_STATE m).addr ∉ sealRegs := by decide
  have hfits : ∀ m : Fin 16, (PAIRCTL_ROLE_STATE m).Fits := by decide
  refine ⟨(hfld _ (hseal n)).trans (fld_setFld_same _ _ (hfits n)), ?_, ?_, (hfld _ (by decide)).trans (fld_setFld_apart _ _ ?_),
    fun m hne => (hfld _ (hseal m)).trans (fld_setFld_apart _ _ ?_)⟩
  · rw [hpersist]
    exact arrGet_arrSet_same 0 d.persist.pairState n stOff
  · rw [hpersist]
    show (withBit d.persist.unfenced n).testBit n = true
    rw [testBit_withBit, decide_eq_true rfl, Bool.or_true]
  · have h : ∀ m : Fin 16, (PAIRCTL_ROLE_STATE m).Apart SYSCTL_STAT_MODE := by decide
    exact h n
  · have h : ∀ m n : Fin 16, m ≠ n → (PAIRCTL_ROLE_STATE n).Apart (PAIRCTL_ROLE_STATE m) := by decide
    exact h m n hne

theorem conditionsMet_clearFog (h : d.lcs ≠ lcScrapped) : d.conditionsMet 6 0 = true := by
  show (d.lcs != lcScrapped) = true
  rwa [bne_iff_ne]

theorem conditionsMet_unfence {n : Fin 16} (h : d.pairState n = stFenced) : d.conditionsMet 7 n = true := by
  show decide (d.pairState ((n : Nat) % 16) = stFenced) = true
  rw [Nat.mod_eq_of_lt n.isLt, decide_eq_true_eq]
  exact h

/-! ### The mode changes -/

/-- What the commands that enter a mode leave, by their codes. -/
theorem command_enters (d : Dev) (m : Nat)
    (h : (code, m) ∈ [(2, modeSafeStop), (3, modeStandby), (4, modeConfig), (5, modeMaker)]) :
    let e := d.command code 0
    e.mode = m ∧ e.fld SYSCTL_STAT_PREV = d.mode ∧ e.forced = true ∧
    e.fld SYSCTL_CMDSTAT_STATUS = d.fld SYSCTL_CMDSTAT_STATUS ∧
    (code = 4 → d.start.s7End.isSome = true → e.fld SYSCTL_BOOTSTAT_CONFIRMED = 1) ∧
    (code = 3 → d.fld DEBUG_STAT_SESSION = 0 → e.start.waitFrom = some d.ticks) ∧
    (code = 3 → d.fld DEBUG_STAT_SESSION = 1 → e.fld SYSCTL_STAT_EMUL = 1) := by
  simp only [List.mem_cons, Prod.mk.injEq, List.not_mem_nil, or_false] at h
  rcases h with ⟨rfl, rfl⟩ | ⟨rfl, rfl⟩ | ⟨rfl, rfl⟩ | ⟨rfl, rfl⟩ <;> intro e
  · obtain ⟨hmode, hprev, hforced, hstatus, -, -⟩ := entered_leaves d.assertForce (m := modeSafeStop) (by decide) rfl
    refine ⟨hmode, hprev.trans (fld_assertForce d (by decide)), hforced, hstatus.trans (fld_assertForce d (by decide)), ?_, ?_, ?_⟩ <;>
      exact fun h => absurd h (by decide)
  · obtain ⟨hmode, hprev, hforced, hstatus, hwait, hemul⟩ := enterStandby_leaves d
    exact ⟨hmode, hprev, hforced, hstatus, fun h => absurd h (by decide), fun _ => hwait, fun _ => hemul⟩
  · obtain ⟨hmode, hprev, hforced, -, -, -⟩ := entered_leaves d.confirmStart (m := modeConfig) (by decide) rfl
    obtain ⟨hconf, hkept, hstatus, -⟩ := enterMode_confirmStart d modeConfig trigCommand
    refine ⟨hmode, hprev.trans (confirmStart_keeps d (by decide) (by decide)), hforced, hstatus, fun _ hs => ?_,
      fun h => absurd h (by decide), fun h => absurd h (by decide)⟩
    have hlt : d.fld SYSCTL_BOOTSTAT_CONFIRMED < 2 := fld_lt d _
    by_cases h0 : d.fld SYSCTL_BOOTSTAT_CONFIRMED = 0
    · exact (hconf ⟨hs, h0⟩).1
    · exact hkept (by omega)
  · obtain ⟨hmode, hprev, hforced, hstatus, -, -⟩ := entered_leaves d (m := modeMaker) (by decide) rfl
    refine ⟨hmode, hprev, hforced, hstatus, ?_, ?_, ?_⟩ <;> exact fun h => absurd h (by decide)

/-- A command that enters a mode, from a device in which nothing turns it away. -/
theorem completes_enters {s : State} {c : Instr} {src : CmdSrc} {m : Nat}
    (hexec : exec c s = s.onDev fun d => d.issueCommand src code 0)
    (h : (code, m) ∈ [(2, modeSafeStop), (3, modeStandby), (4, modeConfig), (5, modeMaker)])
    (hmay : s.dev.mayIssue src code = true) (hmode : permittedIn code s.dev.mode = true)
    (hcond : s.dev.conditionsMet code 0 = true) (hfull : s.dev.nvs.full = false) (hwake : code = 3 → s.dev.word 0x20 ≠ 0) :
    Completes c s fun e =>
      e.mode = m ∧ e.fld SYSCTL_STAT_PREV = s.dev.mode ∧ e.forced = true ∧ e.fld SYSCTL_CMDSTAT_STATUS = cmdDone ∧
      (code = 4 → s.dev.start.s7End.isSome = true → e.fld SYSCTL_BOOTSTAT_CONFIRMED = 1) ∧
      (code = 3 → s.dev.fld DEBUG_STAT_SESSION = 0 → e.start.waitFrom = some s.dev.ticks) ∧
      (code = 3 → s.dev.fld DEBUG_STAT_SESSION = 1 → e.fld SYSCTL_STAT_EMUL = 1) := by
  have hcode : 2 ≤ code ∧ code ≤ 5 := by
    simp only [List.mem_cons, Prod.mk.injEq, List.not_mem_nil, or_false] at h
    omega
  have hfree : s.dev.carrying = false := carrying_of_mode fun hs => by
    rw [hs] at hmode
    have hno : ∀ code : Fin 6, 2 ≤ code.val → permittedIn code.val modeStandby = false := by decide
    rw [hno ⟨code, by omega⟩ hcode.1] at hmode
    cases hmode
  refine completes_done hexec (by omega) hmay hfree hmode hcond hfull hwake ?_
  obtain ⟨hemode, hprev, hforced, hstatus, hconf, hwait, hemul⟩ := command_enters (s.dev.cmdStat code cmdDone) m h
  have hd : (s.dev.cmdStat code cmdDone).mode = s.dev.mode := fld_cmdStat _ _ _ (by decide)
  have hsession : (s.dev.cmdStat code cmdDone).fld DEBUG_STAT_SESSION = s.dev.fld DEBUG_STAT_SESSION :=
    fld_cmdStat _ _ _ (by decide)
  rw [hsession] at hwait hemul
  exact ⟨hemode, hprev.trans hd, hforced, hstatus.trans (fld_status_cmdStat s.dev code (by decide)), hconf, hwait, hemul⟩

/-- STANDBY without a wake source (R435). -/
theorem completes_nowake {s : State} {src : CmdSrc} (hmode : permittedIn 3 s.dev.mode = true)
    (hmay : s.dev.mayIssue src 3 = true) (hwake : s.dev.word 0x20 = 0) :
    Completes (.standby src) s fun e => e.fld SYSCTL_CMDSTAT_STATUS = cmdNowake ∧ e.mode = s.dev.mode ∧
      e = { s.dev with io := e.io } := by
  have hfree : s.dev.carrying = false := carrying_of_mode fun hs => by
    rw [hs] at hmode
    cases hmode
  have hjudge : (s.dev.judge 3 0).2 = s.dev.cmdStat 3 cmdNowake := by
    have hcond : s.dev.conditionsMet 3 0 = true := rfl
    have hprot : protectedCode 3 = false := rfl
    rw [Dev.judge, hmode, hcond, hprot, hwake]
    simp
  refine completes_onDev (f := fun d => d.issueCommand src 3 0) rfl fun _ => ?_
  rw [issueCommand_judged 0 (by decide) hmay hfree, hjudge]
  obtain ⟨hstatus, honly, -⟩ := cmdStat_leaves s.dev 3 (by decide : cmdNowake < 256)
  exact ⟨hstatus, fld_cmdStat _ _ _ (by decide), honly⟩

/-- Settles O33: each command from what its effect leaves of the device as judged. -/
theorem modeChanges : Obligations.ModeChanges := by
  refine ⟨fun s src hfull => ⟨fun c code m hmem hmay hmode hcond hwake => ?_, completes_nowake⟩,
    fun s role slot n hfull => ⟨fun hmay hfog hscrap => ?_, fun hmay hmode hfenced => ?_, fun hfree => ?_⟩⟩
  · simp only [List.mem_cons, Prod.mk.injEq, List.not_mem_nil, or_false] at hmem
    rcases hmem with ⟨rfl, rfl, rfl⟩ | ⟨rfl, rfl, rfl⟩ | ⟨rfl, rfl, rfl⟩ | ⟨rfl, rfl, rfl⟩ <;>
      exact completes_enters rfl (by decide) hmay hmode hcond hfull hwake
  · have hfree : s.dev.carrying = false := carrying_of_mode fun h => by
      rw [hfog] at h
      cases h
    have hmode : permittedIn 6 s.dev.mode = true := by
      rw [hfog]
      rfl
    exact completes_done (code := 6) (arg := 0) rfl (by decide) hmay hfree hmode (conditionsMet_clearFog hscrap) hfull
      (fun h => absurd h (by decide)) (command_clearFog_leaves (s.dev.cmdStat 6 cmdDone))
  · have hfree : s.dev.carrying = false := carrying_of_mode fun h => by
      rw [h] at hmode
      rcases hmode with hmode | hmode <;> cases hmode
    have hperm : permittedIn 7 s.dev.mode = true := by
      rcases hmode with h | h <;> rw [h] <;> rfl
    refine completes_done (code := 7) (arg := n) rfl (by decide) hmay hfree hperm (conditionsMet_unfence hfenced) hfull
      (fun h => absurd h (by decide)) ?_
    have hcommand : (s.dev.cmdStat 7 cmdDone).command 7 n = (s.dev.cmdStat 7 cmdDone).unfence n := by
      show Dev.unfence _ ((n : Nat) % 16) = _
      rw [Nat.mod_eq_of_lt n.isLt]
    obtain ⟨hstate, hretained, htested, hm, hothers⟩ := unfence_leaves (s.dev.cmdStat 7 cmdDone) n
    have hrole : ∀ m : Fin 16, (PAIRCTL_ROLE_STATE m).addr ≠ 0x000008 := by decide
    rw [hcommand]
    exact ⟨hstate, hretained, htested, hm.trans (fld_cmdStat _ _ _ (by decide)),
      fun m hne => (hothers m hne).trans (fld_cmdStat _ _ _ (hrole m))⟩
  · exact completes_done (code := 8) (arg := 0) rfl (by decide) rfl hfree rfl rfl hfull (fun h => absurd h (by decide))
      (deviceReset_restarts _ _).1

end
end Sys2Proof.Machine
end

section
/-! PROOFS. Starts: the end of STANDBY, wakes, the start-up after a device reset and its confirmation that did not come
(R424 to R435, `Obligations.StandbyAndStart`). -/

set_option Elab.async false

namespace Sys2Proof.Machine

section
variable {o d e : Dev}

/-! ### A kept field through a device reset (R13) -/

theorem ioGet_ioReset_or_absent (m : IoMap) (a : Nat) :
    ioGet (ioReset m) a = regAfterReset m a ∨ (mapFind m a = none ∧ ioGet (ioReset m) a = regReset a) := by
  have key (g : Nat → Word) (t : IoMap) :
      ioGet (t.filterMap fun e => if g e.1 = regReset e.1 then none else some (e.1, g e.1)) a = g a ∨
        (mapFind t a = none ∧
          ioGet (t.filterMap fun e => if g e.1 = regReset e.1 then none else some (e.1, g e.1)) a = regReset a) := by
    induction t with
    | nil => exact .inr ⟨rfl, rfl⟩
    | cons e t ih =>
      by_cases ha : e.1 = a
      · subst ha
        by_cases h : g e.1 = regReset e.1
        · rcases ih with ih | ⟨-, ih⟩
          · exact .inl (by simpa only [List.filterMap_cons, h, if_true] using ih)
          · refine .inl ?_
            simp only [List.filterMap_cons, h, if_true]
            exact ih
        · exact .inl (by simp only [List.filterMap_cons, h, if_false, ioGet, mapGet, mapFind, if_true])
      · by_cases h : g e.1 = regReset e.1
        · simpa only [List.filterMap_cons, h, if_true, mapFind, ha, if_false] using ih
        · simpa only [List.filterMap_cons, h, if_false, ioGet, mapGet, mapFind, ha] using ih
  exact key (regAfterReset m) m

/-- A field that every device reset keeps. -/
theorem fieldOf_ioReset_kept {r : Reg} {ix : List Nat} {a : Nat} {f : FieldRow} {m : IoMap} (hr : regAt a = some (r, ix))
    (hd : fieldsDisjoint r.fields = true) (hf : f ∈ r.fields) (hk : ∀ locked, f.keeps locked = true) :
    fieldOf (ioGet (ioReset m) a) f.lo f.w = fieldOf (ioGet m a) f.lo f.w := by
  rcases ioGet_ioReset_or_absent m a with h | ⟨hnone, h⟩
  · rw [h, regAfterReset, hr, fieldOf_wordOf _ hd hf, hk, if_pos rfl]
    exact Nat.mod_eq_of_lt (fieldOf_lt _ _ _)
  · have hget : ioGet m a = regReset a := by
      rw [ioGet, mapGet, hnone]
    rw [h, hget]

theorem fld_wakesrc_fencePending (d : Dev) (p : Nat) :
    (d.fencePending p).fld SYSCTL_WAKESRC_SRC = d.fld SYSCTL_WAKESRC_SRC := by
  have hrole : 0x010000 ≤ (PAIRCTL_ROLE_STATE p).addr := Nat.le_add_right _ _
  have hne : (PAIRCTL_ROLE_STATE p).addr ≠ SYSCTL_WAKESRC_SRC.addr := fun h => absurd (h ▸ hrole) (by decide)
  unfold Dev.fencePending
  extract_lets x st y
  split
  · exact (fld_journal _ _ _ _ (by decide)).trans (fld_setFld_apart d st (.inl (Ne.symm hne)))
  · rfl

theorem fld_wakesrc_resetRegisters (d : Dev) : d.resetRegisters.fld SYSCTL_WAKESRC_SRC = d.fld SYSCTL_WAKESRC_SRC := by
  have hkept : Dev.fld { d with io := ioReset d.io } SYSCTL_WAKESRC_SRC = d.fld SYSCTL_WAKESRC_SRC :=
    fieldOf_ioReset_kept (r := .SYSCTL_WAKESRC) (ix := []) (f := { lo := 0, w := 3, acc := .ro, ret := true }) rfl
      (by decide) (by decide) (fun _ => rfl)
  unfold Dev.resetRegisters
  extract_lets old y1 y2
  have hy2 : y2.fld SYSCTL_WAKESRC_SRC = y1.fld SYSCTL_WAKESRC_SRC := by
    unfold y2
    split
    · exact fld_setFld_apart _ _ (by decide)
    · rfl
  exact (fld_setFld_apart _ _ (by decide)).trans (hy2.trans hkept)

/-- WAKESRC stands through a device reset. -/
theorem fld_wakesrc_deviceReset (d : Dev) (trig : Nat) :
    (d.deviceReset trig).fld SYSCTL_WAKESRC_SRC = d.fld SYSCTL_WAKESRC_SRC := by
  unfold Dev.deviceReset
  extract_lets d1 d2 d3
  have h1 : d1.fld SYSCTL_WAKESRC_SRC = d.fld SYSCTL_WAKESRC_SRC :=
    foldl_keeps (fun e : Dev => e.fld SYSCTL_WAKESRC_SRC = d.fld SYSCTL_WAKESRC_SRC) _
      (fun e p he => (fld_wakesrc_fencePending e p).trans he) (List.range 16) d rfl
  have h2 := (fld_wakesrc_resetRegisters d1).trans h1
  have h3 : d3.fld SYSCTL_WAKESRC_SRC = d2.fld SYSCTL_WAKESRC_SRC := by
    unfold d3
    split
    · exact fld_setFld_apart _ 1 (by decide)
    · rfl
  have h := h3.trans h2
  clear_value d3
  exact h

/-! ### STANDBY's end (R434) and wakes (R435) -/

theorem standbyComplete_done {t : Nat} (hmode : d.mode = modeStandby) (hwait : d.start.waitFrom = some t)
    (hnone : d.start.waiting = []) (hover : d.releasesOver = true ∨ t + 600000 ≤ d.ticks) :
    let e := standbyComplete d
    e.start.clocksOff = true ∧ e.start.waitFrom = none ∧ e.nvs.opened = [] ∧ (∀ x ∈ e.pairs, x.vmv = 0 ∧ x.clockOff = true) ∧
    e.mode = modeStandby := by
  have hdone : (d.mode != modeStandby || !(d.releasesOver || d.elapsed t msTicks)) = false := by
    rw [hmode, bne_self_eq_false, Bool.false_or, Bool.not_eq_false', Bool.or_eq_true]
    exact hover.imp_right decide_eq_true
  intro e
  have he : e = Dev.stopPairs { (if d.nvs.opened.isEmpty then d else d.sealPage 0) with start :=
      { (if d.nvs.opened.isEmpty then d else d.sealPage 0).start with waitFrom := none, waiting := [], clocksOff := true } } := by
    have hs : (if d.nvs.opened.isEmpty then d else d.sealPage 0).start.waiting = [] := by
      split
      · exact hnone
      · exact (congrArg ModeSt.waiting (start_of_butMode (butMode_of_butJournal (sealPage_frame d 0).1))).trans hnone
    unfold e standbyComplete
    rw [hwait]
    simp only
    rw [hdone, if_neg Bool.false_ne_true, hs]
    rfl
  have hopen : (if d.nvs.opened.isEmpty then d else d.sealPage 0).nvs.opened = [] := by
    split
    next h => exact List.isEmpty_iff.1 h
    next => exact sealPage_opened d 0
  have hm : (if d.nvs.opened.isEmpty then d else d.sealPage 0).mode = modeStandby := by
    split
    · exact hmode
    · exact ((sealPage_frame d 0).2.fld _ (by decide)).trans hmode
  clear_value e
  generalize (if d.nvs.opened.isEmpty then d else d.sealPage 0) = y at he hopen hm
  subst he
  refine ⟨rfl, rfl, hopen, fun x hx => ?_, hm⟩
  obtain ⟨y, -, rfl⟩ := List.mem_map.1 hx
  exact ⟨rfl, rfl⟩

theorem wakeUp_leaves {w : WakeBy} (hmode : d.mode = modeStandby) (hw : d.wakeEnabled w = true) :
    (wakeUp w d).backInBoot = true ∧ (wakeUp w d).fld SYSCTL_WAKESRC_SRC = wakeNumber w := by
  have hlt : wakeNumber w < 2 ^ 3 := by
    cases w with
    | eth => decide
    | can k => have := k.isLt; simp only [wakeNumber]; omega
    | timer => decide
  rw [wakeUp, hw, decide_eq_true hmode, Bool.and_self, if_pos rfl]
  exact ⟨(deviceReset_restarts _ _).1,
    (fld_wakesrc_deviceReset _ _).trans ((fld_setFld_same d _ (by decide)).trans (Nat.mod_eq_of_lt hlt))⟩

/-! ### What the start-up steps keep (R424)

Of the fields of SYSCTL that a start decides, the mode and the reason of FOG, no step before the entry into FOG writes
either. `Dev.Begun.f` says so of the function `f`. -/

/-- `e` has the time of `d`, its mode and its reason of FOG. -/
structure Dev.Begun (d e : Dev) : Prop where
  time : e.AtTime d.ticks d.lantern.lt
  mode : e.fld SYSCTL_STAT_MODE = d.fld SYSCTL_STAT_MODE
  reason : e.fld SYSCTL_FOGREASON_CODE = d.fld SYSCTL_FOGREASON_CODE

theorem Dev.Begun.refl (d : Dev) : d.Begun d := ⟨⟨rfl, rfl⟩, rfl, rfl⟩

theorem Dev.Begun.ite {f : Dev} {c : Prop} {_ : Decidable c} (he : d.Begun e) (hf : d.Begun f) : d.Begun (if c then e else f) := by
  split
  · exact he
  · exact hf

theorem Dev.Begun.foldl {α : Type} {f : Dev → α → Dev} {l : List α} (h : d.Begun e)
    (hf : ∀ x a, d.Begun x → d.Begun (f x a)) : d.Begun (l.foldl f e) := foldl_keeps d.Begun f hf l e h

theorem Dev.Begun.of_snd {α : Type} {f : Dev} {x : α × Dev} {a : α} (hx : x = (a, f)) (h : d.Begun x.2) : d.Begun f := by
  subst hx
  exact h

theorem Dev.Begun.setFld {f : Fld} {v : Nat} (h : d.Begun e) (hm : f.Apart SYSCTL_STAT_MODE := by decide)
    (hr : f.Apart SYSCTL_FOGREASON_CODE := by decide) : d.Begun (e.setFld f v) :=
  ⟨h.time.setFld, (fld_setFld_apart e v hm).trans h.mode, (fld_setFld_apart e v hr).trans h.reason⟩

/-- A field beyond the first registers of SYSCTL. -/
theorem Dev.Begun.setHigh {f : Fld} {v : Nat} (h : d.Begun e) (hf : 0x18 ≤ f.addr) : d.Begun (e.setFld f v) := by
  have hm : SYSCTL_STAT_MODE.addr = 0 := rfl
  have hr : SYSCTL_FOGREASON_CODE.addr = 0x14 := rfl
  exact h.setFld (.inl (by omega)) (.inl (by omega))

theorem Dev.Begun.setWord {a : Nat} {w : Word} (h : d.Begun e) (ha : 0x18 ≤ a) : d.Begun (e.setWord a w) := by
  have hm : SYSCTL_STAT_MODE.addr = 0 := rfl
  have hr : SYSCTL_FOGREASON_CODE.addr = 0x14 := rfl
  exact ⟨h.time.setWord, (fld_of_word _ (word_setWord_ne e w (by omega))).trans h.mode,
    (fld_of_word _ (word_setWord_ne e w (by omega))).trans h.reason⟩

section
variable (h : d.Begun e)
include h

theorem Dev.Begun.withPersist {x} : d.Begun { e with persist := x } := ⟨h.time.withPersist, h.mode, h.reason⟩
theorem Dev.Begun.withTrust {x} : d.Begun { e with trust := x } := ⟨h.time.withTrust, h.mode, h.reason⟩
theorem Dev.Begun.withNvs {x} : d.Begun { e with nvs := x } := ⟨h.time.withNvs, h.mode, h.reason⟩
theorem Dev.Begun.withStart {x} : d.Begun { e with start := x } := ⟨h.time.withStart, h.mode, h.reason⟩
theorem Dev.Begun.withMem {x} : d.Begun { e with mem := x } := ⟨h.time.withMem, h.mode, h.reason⟩
theorem Dev.Begun.withIsland {x} : d.Begun { e with island := x } := ⟨⟨h.time.ticks, h.time.lt⟩, h.mode, h.reason⟩
theorem Dev.Begun.withBind {x} : d.Begun { e with bind := x } := ⟨⟨h.time.ticks, h.time.lt⟩, h.mode, h.reason⟩
theorem Dev.Begun.withMirror {x} : d.Begun { e with mirror := x } := ⟨⟨h.time.ticks, h.time.lt⟩, h.mode, h.reason⟩
theorem Dev.Begun.setPair {p x} : d.Begun (e.setPair p x) := ⟨h.time.setPair, h.mode, h.reason⟩
theorem Dev.Begun.present {i v} : d.Begun (e.present i v) := ⟨h.time.present, h.mode, h.reason⟩

theorem Dev.Begun.journal {type : Nat} {args : List Nat} {body : List Byte} : d.Begun (e.journal type args body) :=
  ⟨h.time.journal, (fld_journal e _ _ _ (by decide)).trans h.mode, (fld_journal e _ _ _ (by decide)).trans h.reason⟩

theorem Dev.Begun.setPairState {p s : Nat} : d.Begun (e.setPairState p s) :=
  h.setHigh (le_trans (by decide : 0x18 ≤ 0x010000) (Nat.le_add_right _ _))

theorem Dev.Begun.setAgeStep {p s : Nat} : d.Begun (e.setFld (AGEING_PAIR_STEP p) s) :=
  h.setHigh (le_trans (by decide : 0x18 ≤ 0x140200) (Nat.le_add_right _ _))

theorem Dev.Begun.showSlots : d.Begun e.showSlots := h.setFld.setFld.setFld.setFld.setFld

/-! ### S3 -/

theorem Dev.Begun.failStart {b : Bool} {cause : Nat} : d.Begun (e.failStart b cause) := by
  unfold Dev.failStart
  exact h.withPersist.journal.journal.showSlots

theorem Dev.Begun.endGrant : d.Begun e.endGrant := by
  unfold Dev.endGrant
  split
  · exact h
  · exact (h.withTrust.setHigh (f := TRUST_ISTAT_GRANTCHG) (by decide)).journal

theorem Dev.Begun.lifecycleEffects {s : Nat} : d.Begun (e.lifecycleEffects s) := by
  unfold Dev.lifecycleEffects
  extract_lets _ y
  have hy : d.Begun y := .ite h.withPersist.endGrant h
  exact .ite hy.withTrust hy

theorem Dev.Begun.blowAnchor : d.Begun e.blowAnchor := .ite h.withTrust.journal h

theorem Dev.Begun.formatJournal : d.Begun e.formatJournal := .ite h.withNvs h

theorem Dev.Begun.restoreRetained : d.Begun e.restoreRetained := by
  unfold Dev.restoreRetained
  extract_lets p y
  have hy : d.Begun y := h.setFld.setWord (by decide)
  clear_value y
  exact (hy.foldl fun _ _ hx => (Dev.Begun.ite hx.setPairState hx).setPair.setAgeStep).showSlots

theorem Dev.Begun.journalPast : d.Begun e.journalPast := by
  unfold Dev.journalPast
  extract_lets d1 d2 d3 _ d4
  have h2 : d.Begun d2 := by
    unfold d2
    split
    · exact h.journal.failStart
    · exact h.journal
  have h3 : d.Begun d3 := .ite (h2.journal.setHigh (f := KEEPER_EVSTAT_JNL) (by decide)) h2
  have h4 : d.Begun d4 := by
    unfold d4
    split
    · exact h3.withIsland.journal
    · exact h3
  exact .ite h4.withTrust.journal h4

theorem Dev.Begun.trustStart : d.Begun e.trustStart := by
  unfold Dev.trustStart
  extract_lets d2
  have h2 : d.Begun d2 := by
    unfold d2
    generalize e.persist.intent = i
    cases i with
    | some s => exact h.withTrust.lifecycleEffects.withPersist.journal
    | none => exact h
  exact h2.lifecycleEffects.blowAnchor.withTrust

theorem Dev.Begun.nextEpoch : d.Begun e.nextEpoch := h.withPersist.journal

theorem Dev.Begun.stepsToS3 : d.Begun e.stepsToS3 := by
  unfold Dev.stepsToS3
  extract_lets _ _ d1
  have h1 : d.Begun d1 := ⟨⟨h.time.ticks, h.time.lt⟩, h.mode, h.reason⟩
  exact h1.formatJournal.restoreRetained.journalPast.trustStart.nextEpoch

/-! ### S4 to S6 -/

theorem Dev.Begun.checkSlot {b : Bool} : d.Begun (e.checkSlot b).2 := .ite h.present h

theorem Dev.Begun.retire {p : Nat} : d.Begun (e.retire p) := h.setPairState.withPersist.journal

theorem Dev.Begun.setStep {p s : Nat} : d.Begun (e.setStep p s) := h.setAgeStep.withPersist.journal

theorem Dev.Begun.planAtStart {steps : List (Option Nat)} {p : Nat} : d.Begun (e.planAtStart steps p) := by
  unfold Dev.planAtStart
  split
  · exact h
  · split
    · exact h
    · split
      · exact h.retire
      · exact (Dev.Begun.ite h h.setStep).setPair

theorem Dev.Begun.noteSlow : d.Begun e.noteSlow :=
  h.foldl fun _ _ hx => .ite (hx.setHigh (le_trans (by decide : 0x18 ≤ 0x010010) (Nat.le_add_right _ _))) hx

theorem Dev.Begun.checkShort {lp : Nat} : d.Begun (e.checkShort lp) :=
  .ite ((h.setHigh (f := AGEING_SHORT_SHORT) (by decide)).setHigh (f := AGEING_ISTAT_SHORTFALL) (by decide)).present h

theorem Dev.Begun.plan {steps : List (Option Nat)} : d.Begun (e.plan steps) :=
  (Dev.Begun.noteSlow (h.foldl fun _ _ hx => hx.planAtStart)).foldl fun _ _ hx => hx.checkShort

/-! ### S7 -/

theorem Dev.Begun.sliceFailed {p slice : Nat} : d.Begun (e.sliceFailed p slice) :=
  ((h.setHigh (f := TEST_WFAIL_REC) (by decide)).setHigh (f := TEST_ISTAT_LBIST) (by decide)).present

theorem Dev.Begun.tryUnfenced {fails : List Nat} {p : Nat} : d.Begun (e.tryUnfenced fails p) :=
  .ite h (.ite h.withPersist.setPairState.sliceFailed.withPersist.journal h.withPersist)

theorem Dev.Begun.mirrorWord {lp off v : Nat} : d.Begun (e.mirrorWord lp off v) := by
  generalize hf : Dev.mirrorWord = f
  delta Dev.mirrorWord at hf
  subst hf
  beta_reduce
  generalize targetOf _ _ = t
  cases t with
  | bank inst word al => exact h.withMem
  | _ => exact h

omit h in
theorem Dev.Begun.mirrorWords {lp : Nat} : ∀ {l : List DWord} {off : Nat} {e : Dev}, d.Begun e → d.Begun (e.mirrorWords lp off l)
  | [], _, _, h => h
  | _ :: _, _, _, h => h.mirrorWord.mirrorWords

theorem Dev.Begun.writeSlot {lp : Nat} {b : Bool} {x : Slot} : d.Begun (e.writeSlot lp b x) :=
  h.mirrorWords.mirrorWords.mirrorWords.withMirror

theorem Dev.Begun.selfTest {p lgFail : Nat} : d.Begun (e.selfTest p lgFail) := by
  unfold Dev.selfTest
  extract_lets y
  have hy : d.Begun y :=
    (h.setHigh (le_trans (by decide : 0x18 ≤ 0x01002C) (Nat.le_add_right _ _))).setHigh
      (le_trans (by decide : 0x18 ≤ 0x01002C) (Nat.le_add_right _ _))
  exact .ite hy (hy.setHigh (le_trans (by decide : 0x18 ≤ 0x010010) (Nat.le_add_right _ _))).present

theorem Dev.Begun.loadPair {p lp st entry : Nat} {im dm : List Nat} {lgFail : Nat} :
    d.Begun (e.loadPair p lp st entry im dm lgFail) := by
  unfold Dev.loadPair
  extract_lets core x lim dr d1 d2 d3 d4 s
  have h1 : d.Begun d1 := h.setPair.setPairState
  have h2 : d.Begun d2 := h1.withBind.setHigh (le_trans (by decide : 0x18 ≤ 0x010000) (Nat.le_add_right _ _))
  exact h2.mirrorWords.mirrorWords.writeSlot.selfTest

theorem Dev.Begun.loadFrom {o q p st : Nat} {cmpFails : List Nat} : d.Begun (e.loadFrom o q p st cmpFails) := h.loadPair

theorem Dev.Begun.unloadPairs : d.Begun e.unloadPairs := h.foldl fun _ _ hx => .ite hx hx.setPairState

theorem Dev.Begun.loadSlot {o : Nat} {env : BootEnv} {f : Dev} (hf : e.loadSlot o env = some f) : d.Begun f := by
  unfold Dev.loadSlot at hf
  extract_lets d1 d2 role acts skipped spares cover d3 d4 d5 at hf
  have h1 : d.Begun d1 := h.foldl fun _ _ hx => hx.tryUnfenced
  split at hf
  · cases hf
  · have h3 : d.Begun d3 := h1.unloadPairs.foldl fun _ _ hx => hx.loadFrom
    have h4 : d.Begun d4 := h3.foldl fun _ _ hx => hx.loadFrom
    have h5 : d.Begun d5 := h4.foldl fun _ _ hx => hx.loadFrom
    clear_value d5
    rw [← Option.some.inj hf]
    exact h5.setHigh (f := SYSCTL_NEED_NEED) (by decide)

end

/-! ### The end of a start -/

/-- The start from `d` has ended in `e`: in FOG, or in BOOT where `d` was in BOOT. -/
structure Dev.Ended (d e : Dev) : Prop where
  time : e.AtTime d.ticks d.lantern.lt
  done : e.start.starting = false
  mode : e.mode = modeFog ∨ (e.mode = d.mode ∧ e.start.s7End = some d.ticks)

/-- The start ended in FOG. -/
def Dev.ended (d : Dev) : Dev := { d with start := { d.start with starting := false, fogAt := d.ticks } }

theorem ended_keeps (d : Dev) : d.ended.io = d.io ∧ d.ended.start.starting = false ∧
    ∀ T L, d.AtTime T L → d.ended.AtTime T L := ⟨rfl, rfl, fun _ _ h => h.withStart⟩

/-- The device that enters FOG, loaded with its recovery pair. -/
def Dev.fogLoaded (d : Dev) (env : BootEnv) : Dev :=
  let d := d.unloadPairs
  let d := (List.range 16).foldl (fun d p => d.tryUnfenced env.sliceFails p) d
  match (List.range 16).find? (fun p => !(d.outOfUse p)) with
  | some p => d.loadPair p p stActive Config.recoveryEntry (recoveryWords 0) (recoveryWords 0x20000)
      (nth 0 env.cmpFails p)
  | none => d

theorem fogLoaded_begun (d : Dev) (env : BootEnv) : d.Begun (d.fogLoaded env) := by
  unfold Dev.fogLoaded
  extract_lets d1 d2
  have h2 : d.Begun d2 := (Dev.Begun.refl d).unloadPairs.foldl fun _ _ hx => hx.tryUnfenced
  clear_value d2
  generalize List.find? _ _ = p
  cases p with
  | some p => exact h2.loadPair
  | none => exact h2

theorem enterFog_eq (d : Dev) (env : BootEnv) (code : Nat) : d.enterFog env code =
    Dev.ended ((((d.setFld SYSCTL_FOGREASON_CODE code).fogLoaded env).enterMode modeFog trigStart)) := by
  unfold Dev.enterFog
  extract_lets d1 d2 d3 d4
  have h3 : d3 = (d.setFld SYSCTL_FOGREASON_CODE code).fogLoaded env := rfl
  have h4 : d4 = d3.enterMode modeFog trigStart := rfl
  rw [← h3, ← h4]
  clear_value d4
  rfl

/-- FOG entered, by its mode. -/
theorem Dev.Begun.enterMode_fog (h : d.Begun e) :
    (e.enterMode modeFog trigStart).AtTime d.ticks d.lantern.lt ∧ (e.enterMode modeFog trigStart).mode = modeFog ∧
    (e.enterMode modeFog trigStart).fld SYSCTL_FOGREASON_CODE = d.fld SYSCTL_FOGREASON_CODE :=
  ⟨h.time.enterMode, (mode_enterMode e trigStart (by decide)).1,
    ((enterMode_frame e modeFog trigStart).2.fld _ (by decide)).trans h.reason⟩

/-- Entry into FOG ends the start (R431). -/
theorem Dev.Begun.enterFog {env : BootEnv} {code : Nat} (h : d.Begun e) :
    d.Ended (e.enterFog env code) ∧ (e.enterFog env code).mode = modeFog ∧
    (e.enterFog env code).fld SYSCTL_FOGREASON_CODE = code % 16 := by
  have hcode : (e.setFld SYSCTL_FOGREASON_CODE code).fld SYSCTL_FOGREASON_CODE = code % 16 :=
    fld_setFld_same e code (by decide)
  obtain ⟨htime, hmode, hreason⟩ := (fogLoaded_begun (e.setFld SYSCTL_FOGREASON_CODE code) env).enterMode_fog
  have heq := enterFog_eq e env code
  generalize ((e.setFld SYSCTL_FOGREASON_CODE code).fogLoaded env).enterMode modeFog trigStart = z at htime hmode hreason heq
  obtain ⟨hio, hdone, hkeeps⟩ := ended_keeps z
  have hm : z.ended.mode = modeFog := (fld_of_io hio SYSCTL_STAT_MODE).trans hmode
  have ht : z.AtTime d.ticks d.lantern.lt := ⟨htime.ticks.trans h.time.ticks, htime.lt.trans h.time.lt⟩
  rw [heq]
  exact ⟨⟨hkeeps _ _ ht, hdone, .inl hm⟩, hm, (fld_of_io hio _).trans (hreason.trans hcode)⟩

theorem Dev.Begun.started {b : Bool} (h : d.Begun e) : d.Ended (e.started b) := by
  have hm : (e.started b).mode = d.mode := (fld_setFld_apart e _ (by decide)).trans h.mode
  have hs : (e.started b).start.s7End = some e.ticks := rfl
  exact ⟨⟨h.time.ticks, h.time.lt⟩, rfl, .inr ⟨hm, hs.trans (congrArg some h.time.ticks)⟩⟩

/-- The attempts to start end in FOG or in BOOT (R425, R428). -/
theorem Dev.Begun.attempts {env : BootEnv} : ∀ {k last : Nat} {e : Dev}, d.Begun e → d.Ended (Dev.attempts env k last e)
  | 0, _, _, h => h.enterFog.1
  | k + 1, last, e, h => by
    rw [Dev.attempts]
    split
    · exact h.enterFog.1
    · extract_lets _ d0
      split
      next cause d1 hc =>
        have h1 : d.Begun d1 := .of_snd hc (Dev.Begun.checkSlot (.journal h.withPersist))
        split
        · exact h1.failStart.attempts
        · extract_lets d2
          split
          · exact h1.plan.failStart.attempts
          · next hl => exact (h1.plan.loadSlot hl).started

/-- The device whose start cannot mount the journal, as it enters FOG. -/
def Dev.journalLost (d : Dev) : Dev :=
  { d with island := { d.island with kosc := false }
           persist := { d.persist with epoch := (d.persist.epoch + 1) % 2 ^ 24 } }

theorem journalLost_begun (d : Dev) : d.Begun d.journalLost := ⟨⟨rfl, rfl⟩, rfl, rfl⟩

theorem startUp_eq (d : Dev) (env : BootEnv) : d.startUp env =
    if env.journalBad then d.journalLost.enterFog env 7
    else if d.stepsToS3.lcs = lcScrapped then d.stepsToS3.enterFog env 8
    else Dev.attempts env 4 d.stepsToS3.persist.altCause d.stepsToS3 := rfl

/-- A start ends, with its reason where the journal cannot be mounted or the device is SCRAPPED. -/
theorem startUp_ends (d : Dev) (env : BootEnv) : d.Ended (d.startUp env) ∧
    (env.journalBad = true → (d.startUp env).mode = modeFog ∧ (d.startUp env).fld SYSCTL_FOGREASON_CODE = 7) ∧
    (env.journalBad = false → d.stepsToS3.lcs = lcScrapped →
      (d.startUp env).mode = modeFog ∧ (d.startUp env).fld SYSCTL_FOGREASON_CODE = 8) := by
  have hs3 : d.Begun d.stepsToS3 := (Dev.Begun.refl d).stepsToS3
  rw [startUp_eq]
  cases hj : env.journalBad with
  | true =>
    obtain ⟨hend, hfog⟩ := (journalLost_begun d).enterFog (env := env) (code := 7)
    rw [if_pos rfl]
    exact ⟨hend, fun _ => hfog, fun h => absurd h (by decide)⟩
  | false =>
    rw [if_neg Bool.false_ne_true]
    by_cases hl : d.stepsToS3.lcs = lcScrapped
    · obtain ⟨hend, hfog⟩ := hs3.enterFog (env := env) (code := 8)
      rw [if_pos hl]
      exact ⟨hend, fun h => absurd h (by decide), fun _ _ => hfog⟩
    · rw [if_neg hl]
      exact ⟨hs3.attempts, fun h => absurd h (by decide), fun _ h => absurd h hl⟩

/-! ### A device reset and its start (R424) -/

theorem Dev.Aged.refl (d : Dev) : d.Aged d.trust := ⟨fun _ h => h, le_refl _⟩

theorem TrustSt.lcs_le (t : TrustSt) : t.lcs ≤ 5 := List.length_filter_le _ _

theorem lcs_scrapped_of_aged {T : TrustSt} (h : d.Aged T) (hT : T.lcs = lcScrapped) : d.lcs = lcScrapped :=
  Nat.le_antisymm d.trust.lcs_le (hT ▸ lcs_le_of_fuses h.fuses)

/-- The device from which the start-up goes on: a device reset performed, or begun by another command. -/
def Dev.atStart (d : Dev) : Dev :=
  if d.island.resetAfterSeal then d.deviceReset d.island.resetTrig
  else if d.start.starting && d.mode = modeBoot then d else d.deviceReset trigBare

theorem atStart_keeps (d : Dev) : d.atStart.AtTime d.ticks d.lantern.lt ∧ d.atStart.Aged d.trust ∧ d.atStart.mode = modeBoot ∧
    (d.held = false → d.atStart.held = false) := by
  have hreset : ∀ trig, (d.deviceReset trig).AtTime d.ticks d.lantern.lt ∧ (d.deviceReset trig).Aged d.trust ∧
      (d.deviceReset trig).mode = modeBoot ∧ (d.held = false → (d.deviceReset trig).held = false) := fun trig => by
    obtain ⟨hboot, -, -, hpower, -, -⟩ := deviceReset_restarts d trig
    have hm : (d.deviceReset trig).mode = modeBoot := by
      rw [Dev.backInBoot, Bool.and_eq_true, decide_eq_true_eq] at hboot
      exact hboot.1
    refine ⟨Dev.AtTime.deviceReset ⟨rfl, rfl⟩, (Dev.Aged.refl d).deviceReset, hm, fun h => ?_⟩
    rw [Dev.held, hpower]
    exact h
  unfold Dev.atStart
  split
  · exact hreset _
  · split
    next h =>
      rw [Bool.and_eq_true, decide_eq_true_eq] at h
      exact ⟨⟨rfl, rfl⟩, .refl d, h.2, id⟩
    next => exact hreset _

/-- Lantern's time taken on by the lt since S2 (R254). -/
def Dev.lanternOn (d : Dev) (n : Nat) : Dev := { d with lantern := { d.lantern with lt := d.lantern.lt + n } }

theorem lanternOn_keeps (d : Dev) (n : Nat) : (d.lanternOn n).io = d.io ∧ (d.lanternOn n).start = d.start ∧
    (d.lanternOn n).lantern.lt = d.lantern.lt + n := ⟨rfl, rfl, rfl⟩

theorem resetAndStart_eq (d : Dev) (env : BootEnv) : resetAndStart env d =
    if d.atStart.held then d.atStart else (d.atStart.startUp env).lanternOn env.lanternLt := rfl

theorem resetAndStart_leaves (env : BootEnv) (hheld : d.held = false) :
    let e := resetAndStart env d
    e.start.starting = false ∧ (e.mode = modeFog ∨ (e.mode = modeBoot ∧ e.start.s7End = some d.ticks)) ∧
    e.lantern.lt = d.lantern.lt + env.lanternLt ∧
    (env.journalBad = true → e.mode = modeFog ∧ e.fld SYSCTL_FOGREASON_CODE = 7) ∧
    (env.journalBad = false → d.lcs = lcScrapped → d.persist.intent = none →
      e.mode = modeFog ∧ e.fld SYSCTL_FOGREASON_CODE = 8) := by
  obtain ⟨htime, haged, hboot, hstays⟩ := atStart_keeps d
  have hs3 := haged.stepsToS3
  obtain ⟨⟨htime', hdone, hmode⟩, hbad, hscrap⟩ := startUp_ends d.atStart env
  rw [htime.ticks, hboot] at hmode
  rw [htime.ticks, htime.lt] at htime'
  obtain ⟨hio, hstart, hlt⟩ := lanternOn_keeps (d.atStart.startUp env) env.lanternLt
  have hm : ((d.atStart.startUp env).lanternOn env.lanternLt).mode = (d.atStart.startUp env).mode := fld_of_io hio _
  intro e
  have he : e = (d.atStart.startUp env).lanternOn env.lanternLt := by
    have h := resetAndStart_eq d env
    rw [hstays hheld, if_neg Bool.false_ne_true] at h
    exact h
  clear_value e
  rw [← he] at hio hstart hlt hm
  generalize d.atStart.startUp env = y at *
  refine ⟨(congrArg ModeSt.starting hstart).trans hdone, ?_, hlt.trans (congrArg (· + env.lanternLt) htime'.lt), fun h => ?_,
    fun h hl _ => ?_⟩
  · rw [hm, hstart]
    exact hmode
  · rw [hm, fld_of_io hio]
    exact hbad h
  · rw [hm, fld_of_io hio]
    exact hscrap h (lcs_scrapped_of_aged hs3 hl)

/-! ### A start that nothing confirms (R426, R428) -/

/-- The retained state after a start on slot `b` has failed. -/
def Persist.failed (p : Persist) (b : Bool) (cause : Nat) : Persist :=
  if b = p.actSlot then { p with attempt := none, actFail := min 2 (p.actFail + 1), actCause := cause }
  else { p with attempt := none, altFail := 1, altCause := cause }

theorem failStart_persist (d : Dev) (b : Bool) (cause : Nat) : (d.failStart b cause).persist = d.persist.failed b cause := by
  have hshow : ∀ x : Dev, x.showSlots.persist = x.persist := fun x => by rw [(showSlots_keeps x).1]
  unfold Dev.failStart
  extract_lets src p1 p2 y
  have hp : p2 = d.persist.failed b cause := rfl
  have hy : y.persist = p2 := persist_journal _ _ _ _
  rw [hshow, persist_journal, hy, hp]

theorem failed_counts (p : Persist) (b : Bool) (cause : Nat) : (p.failed b cause).attempt = none ∧
    if b = p.actSlot then (p.failed b cause).actFail = min 2 (p.actFail + 1) ∧ (p.failed b cause).actCause = cause
    else (p.failed b cause).altFail = 1 ∧ (p.failed b cause).altCause = cause := by
  unfold Persist.failed
  split
  · exact ⟨rfl, rfl, rfl⟩
  · exact ⟨rfl, rfl, rfl⟩

theorem confirmExpiry_leaves {t : Nat} (hs : d.start.s7End = some t) (hc : d.fld SYSCTL_BOOTSTAT_CONFIRMED = 0)
    (ht : t + d.start.confirm * 6000000 ≤ d.ticks) :
    let e := confirmExpiry d
    e.backInBoot = true ∧ e.persist.attempt = none ∧
    (if d.on SYSCTL_STAT_BOOTSLOT = d.persist.actSlot
      then e.persist.actFail = min 2 (d.persist.actFail + 1) ∧ e.persist.actCause = 4
      else e.persist.altFail = 1 ∧ e.persist.altCause = 4) := by
  intro e
  have he : e = (d.failStart (d.on SYSCTL_STAT_BOOTSLOT) 4).deviceReset trigConfirm := by
    have helapsed : d.elapsed t (d.start.confirm * 10 * msTicks) = true := by
      rw [Dev.elapsed, decide_eq_true_eq, Nat.mul_assoc]
      exact ht
    unfold e confirmExpiry
    rw [hs]
    simp only
    rw [on_of_zero hc, helapsed]
    rfl
  have hfail := failStart_persist d (d.on SYSCTL_STAT_BOOTSLOT) 4
  generalize d.failStart (d.on SYSCTL_STAT_BOOTSLOT) 4 = y at he hfail
  have hkept := deviceReset_retains y trigConfirm
  have hboot := (deviceReset_restarts y trigConfirm).1
  rw [← he] at hkept hboot
  clear_value e
  obtain ⟨hatt, hcounts⟩ := failed_counts d.persist (d.on SYSCTL_STAT_BOOTSLOT) 4
  rw [← hfail] at hatt hcounts
  refine ⟨hboot, (congrArg Persist.attempt hkept).trans hatt, ?_⟩
  split
  next h =>
    rw [if_pos h] at hcounts
    exact ⟨(congrArg Persist.actFail hkept).trans hcounts.1, (congrArg Persist.actCause hkept).trans hcounts.2⟩
  next h =>
    rw [if_neg h] at hcounts
    exact ⟨(congrArg Persist.altFail hkept).trans hcounts.1, (congrArg Persist.altCause hkept).trans hcounts.2⟩

/-- The releases of the ACTIVE pairs over, or the wait's time. -/
theorem releasesOver_of (h : ∀ p < 16, d.pairState p = stActive → (d.pair p).releasing = false) : d.releasesOver = true := by
  rw [Dev.releasesOver, List.all_eq_true]
  intro p hp
  by_cases ha : d.pairState p = stActive
  · rw [h p (List.mem_range.1 hp) ha, Bool.not_false, Bool.or_true]
  · rw [bne_iff_ne.2 ha, Bool.true_or]

end

/-- Settles O34: STANDBY's end and the wakes each from its function, the start from what its steps keep. -/
theorem standbyAndStart : Obligations.StandbyAndStart := by
  refine ⟨fun s hmode => ⟨fun t hwait hnone hover => ?_, fun heth => ?_, fun t ht htmr htime => ?_,
    fun k hk => ⟨?_, fun hen => ?_⟩, fun heth => ?_⟩, fun s => ⟨fun env _ => ?_, fun t hs hc ht => ?_⟩⟩
  · exact completes_onDev (f := standbyComplete) rfl fun _ =>
      standbyComplete_done hmode hwait hnone (hover.imp_left releasesOver_of)
  · exact completes_onDev (f := wakeUp .eth) rfl fun _ => wakeUp_leaves hmode (on_of_one heth)
  · refine completes_onDev (f := wakeUp .timer) rfl fun _ => wakeUp_leaves hmode ?_
    have helapsed : s.dev.elapsed t (s.dev.fld SYSCTL_WAKE_TMR * 1000 * msTicks) = true := by
      rw [Dev.elapsed, decide_eq_true_eq, Nat.mul_assoc]
      exact htime
    rw [Dev.wakeEnabled]
    simp only [ht, helapsed, Bool.and_true, bne_iff_ne]
    exact htmr
  · exact completes_onDev (f := wakeUp (.can k)) rfl fun _ => wakeUp_leaves hmode hk
  · refine completes_onDev (f := canWake k) rfl fun _ => ?_
    have haddr : 0x0F0118 ≤ (CANXL_ISTAT_WAKE k).addr := Nat.le_add_right _ _
    have hm0 : SYSCTL_STAT_MODE.addr = 0 := rfl
    have hw0 : SYSCTL_WAKE_CAN.addr = 0x20 := rfl
    have hm : (s.dev.flag (CANXL_ISTAT_WAKE k)).mode = modeStandby :=
      (fld_setFld_apart s.dev 1 (.inl (by omega))).trans hmode
    have hw : (s.dev.flag (CANXL_ISTAT_WAKE k)).fld SYSCTL_WAKE_CAN = s.dev.fld SYSCTL_WAKE_CAN :=
      fld_setFld_apart s.dev 1 (.inl (by omega))
    have heq : canWake k s.dev = wakeUp (.can k) (s.dev.flag (CANXL_ISTAT_WAKE k)) := by
      rw [canWake, decide_eq_true hmode, on_of_one hen]
      rfl
    rw [heq]
    exact wakeUp_leaves hm (show (Dev.fld _ SYSCTL_WAKE_CAN).testBit k = true by rw [hw]; exact hk)
  · refine completes_onDev (f := wakeUp .eth) rfl fun _ => if_neg ?_
    rw [show s.dev.wakeEnabled .eth = s.dev.on SYSCTL_WAKE_ETH from rfl, on_of_zero heth, Bool.and_false]
    exact Bool.false_ne_true
  · exact completes_onDev (f := resetAndStart env) rfl fun hheld => resetAndStart_leaves env hheld
  · exact completes_onDev (f := confirmExpiry) rfl fun _ => confirmExpiry_leaves hs hc ht

end Sys2Proof.Machine
end

section
/-! PROOFS. Switch: forwarding, links, gPTP, time pulses and the learning table (R437 to R442, R445, R457,
`Obligations.EthernetSwitch`). -/

set_option Elab.async false

namespace Sys2Proof.Machine

section
variable {d e : Dev}

/-! ### Frames delivered to ports (R438) -/

/-- The device with entries behind those of the egress queues and of the host port. -/
def Dev.delivered (d : Dev) (xs : List Egress) (hs : List HostFrame) : Dev :=
  { d with eth := { d.eth with egress := d.eth.egress ++ xs, host := d.eth.host ++ hs } }

/-- What a frame adds to the egress queues, and to the host port, when it is delivered to port `q`. -/
def Dev.egressFor (d : Dev) (f : Frame) (pcp q : Nat) : List Egress :=
  if q != 2 && d.portUp q then [{ port := q, pcp := pcp, frame := f }] else []

def Dev.hostFor (d : Dev) (f : Frame) (ns q : Nat) : List HostFrame :=
  if q = 2 then [{ frame := f, first := d.lanternTime - ns * 48 / 5, gptp := d.gptpNow - ns }] else []

theorem delivered_nil (d : Dev) : d.delivered [] [] = d := by
  unfold Dev.delivered
  rw [List.append_nil, List.append_nil]

theorem delivered_delivered (d : Dev) (xs xs' : List Egress) (hs hs' : List HostFrame) :
    (d.delivered xs hs).delivered xs' hs' = d.delivered (xs ++ xs') (hs ++ hs') := by
  unfold Dev.delivered
  simp only [List.append_assoc]

theorem deliverFrame_eq (d : Dev) (f : Frame) (pcp ns q : Nat) :
    d.deliverFrame f pcp ns q = d.delivered (d.egressFor f pcp q) (d.hostFor f ns q) := by
  unfold Dev.deliverFrame Dev.egressFor Dev.hostFor
  by_cases h2 : q = 2
  · rw [if_pos h2, if_pos h2, h2, bne_self_eq_false, Bool.false_and, if_neg Bool.false_ne_true]
    unfold Dev.delivered
    rw [List.append_nil]
  · rw [if_neg h2, if_neg h2, bne_iff_ne.2 h2, Bool.true_and]
    split
    · unfold Dev.delivered
      rw [List.append_nil]
    · exact (delivered_nil d).symm

theorem deliverAll_eq (f : Frame) (pcp ns : Nat) : ∀ (l : List Nat) (d : Dev),
    l.foldl (fun d q => d.deliverFrame f pcp ns q) d =
      d.delivered (l.flatMap (d.egressFor f pcp)) (l.flatMap (d.hostFor f ns))
  | [], d => (delivered_nil d).symm
  | q :: l, d => by
    rw [List.foldl_cons, deliverFrame_eq, deliverAll_eq f pcp ns l, delivered_delivered, List.flatMap_cons, List.flatMap_cons]
    rfl

/-- The ports that a mask names, the ingress port apart, in the order of delivery. -/
theorem flatMap_ports {β : Type} (m port : Nat) (g : Nat → List β) :
    ((bitsList m 3).filter (fun q => q != port)).flatMap g =
      [0, 1, 2].flatMap (fun q => if m.testBit q && q != port then g q else []) := by
  have h : bitsList m 3 = [0, 1, 2].filter (fun q => m.testBit q) := rfl
  rw [h, List.filter_filter]
  generalize [0, 1, 2] = l
  induction l with
  | nil => rfl
  | cons q l ih =>
    rw [List.filter_cons, List.flatMap_cons, ← ih, Bool.and_comm]
    split
    · rfl
    · rfl

/-! ### Ports that send (R438, R439) -/

/-- What a port's queue and line are to the other: the device with the egress queues and lines changed. -/
theorem drainPort_only (d : Dev) (q : Nat) : ∃ x l, d.drainPort q = { d with eth := { d.eth with egress := x, lines := l } } := by
  unfold Dev.drainPort
  split
  · exact ⟨d.eth.egress, d.eth.lines, rfl⟩
  · split
    · exact ⟨d.eth.egress, d.eth.lines, rfl⟩
    · exact ⟨_, _, rfl⟩

theorem drainPort_busy {q : Nat} (h : d.ticks < (d.eth.line q).until_) : d.drainPort q = d := by
  rw [Dev.drainPort, decide_eq_true h, Bool.or_true, if_pos rfl]

/-- The next frame of a port is one of its queue. -/
theorem nextFrame_mem {e : EthSt} {q : Nat} {x : Egress} (h : e.nextFrame q = some x) : x ∈ e.egress.filter (fun x => x.port = q) := by
  unfold EthSt.nextFrame at h
  split at h
  · cases h
  next y t heq =>
    rw [heq, ← Option.some.inj h]
    have key : ∀ (t : List Egress) (a : Egress), t.foldl (fun a b => if a.pcp < b.pcp then b else a) a ∈ a :: t := by
      intro t
      induction t with
      | nil => exact fun a => List.mem_singleton.2 rfl
      | cons b t ih =>
        intro a
        rw [List.foldl_cons]
        rcases List.mem_cons.1 (ih (if a.pcp < b.pcp then b else a)) with hm | hm
        · rw [hm]
          split
          · exact List.mem_cons_of_mem _ List.mem_cons_self
          · exact List.mem_cons_self
        · exact List.mem_cons_of_mem _ (List.mem_cons_of_mem _ hm)
    exact key t y

/-- A port's own sending leaves the queue and the line of another port. -/
theorem drainPort_other {q q' : Nat} (h : q' ≠ q) : (d.drainPort q).eth.line q' = d.eth.line q' ∧
    (d.drainPort q).eth.egress.filter (fun x => x.port = q') = d.eth.egress.filter (fun x => x.port = q') := by
  unfold Dev.drainPort
  split
  · exact ⟨rfl, rfl⟩
  · split
    · exact ⟨rfl, rfl⟩
    next x hx =>
      refine ⟨arrGet_arrSet_ne _ _ _ h, ?_⟩
      show (d.eth.egress.erase x).filter _ = _
      rw [← List.erase_filter]
      refine List.erase_of_not_mem fun hm => ?_
      have h1 := (List.mem_filter.1 (nextFrame_mem hx)).2
      have h2 := (List.mem_filter.1 hm).2
      exact h (by rw [← of_decide_eq_true h1, of_decide_eq_true h2])

/-- A free port with one frame queued sends it. -/
theorem drainPort_sends {q : Nat} {x : Egress} (hup : d.portUp q = true) (hfree : (d.eth.line q).until_ ≤ d.ticks)
    (hone : d.eth.egress.filter (fun x => x.port = q) = [x]) :
    (d.drainPort q).eth.line q = { until_ := d.ticks + (8 * (frameSize x.frame + 20) * 3 + 4) / 5, frame := some x.frame } ∧
    (d.drainPort q).eth.egress.filter (fun x => x.port = q) = [] := by
  have hnext : d.eth.nextFrame q = some x := by
    rw [EthSt.nextFrame, hone]
    rfl
  have hdrain : d.drainPort q = ({ d with eth := { d.eth with egress := d.eth.egress.erase x } }).startLine q x.frame := by
    rw [Dev.drainPort, hup, decide_eq_false (Nat.not_lt.2 hfree), hnext]
    rfl
  rw [hdrain]
  refine ⟨arrGet_arrSet_same _ _ _ _, ?_⟩
  show (d.eth.egress.erase x).filter _ = _
  rw [← List.erase_filter, hone]
  exact List.erase_cons_head ..

/-- Both ports in turn: a free one with one frame queued sends it, the other or not. -/
theorem drainPorts_sends {q : Nat} {x : Egress} (hq : q < 2) (hup : d.portUp q = true)
    (hfree : (d.eth.line q).until_ ≤ d.ticks) (hone : d.eth.egress.filter (fun x => x.port = q) = [x]) :
    d.drainPorts.eth.line q = { until_ := d.ticks + (8 * (frameSize x.frame + 20) * 3 + 4) / 5, frame := some x.frame } ∧
    d.drainPorts.eth.egress.filter (fun x => x.port = q) = [] := by
  unfold Dev.drainPorts
  obtain rfl | rfl : q = 0 ∨ q = 1 := by omega
  · obtain ⟨hline, hgone⟩ := drainPort_sends hup hfree hone
    obtain ⟨hline', hgone'⟩ := drainPort_other (d := d.drainPort 0) (q := 1) (q' := 0) (by decide)
    exact ⟨hline'.trans hline, hgone'.trans hgone⟩
  · obtain ⟨hline, hqueue⟩ := drainPort_other (d := d) (q := 0) (q' := 1) (by decide)
    obtain ⟨_, _, honly⟩ := drainPort_only d 0
    have hup' : (d.drainPort 0).portUp 1 = true := by
      rw [honly]
      exact hup
    have hticks : (d.drainPort 0).ticks = d.ticks := by rw [honly]
    have h := drainPort_sends (d := d.drainPort 0) hup' (by rw [hline, hticks]; exact hfree) (hqueue.trans hone)
    rw [hticks] at h
    exact h

theorem drainPorts_only (d : Dev) : ∃ x l, d.drainPorts = { d with eth := { d.eth with egress := x, lines := l } } := by
  obtain ⟨x, l, h⟩ := drainPort_only d 0
  obtain ⟨x', l', h'⟩ := drainPort_only (d.drainPort 0) 1
  exact ⟨x', l', by rw [Dev.drainPorts, h', h]⟩

theorem drainPorts_busy (h : ∀ q < 2, d.ticks < (d.eth.line q).until_) : d.drainPorts = d := by
  rw [Dev.drainPorts, drainPort_busy (h 0 (by decide)), drainPort_busy (h 1 (by decide))]

/-! ### A frame forwarded (R438) -/

/-- The ports to which a frame goes from its ingress: those running that the lookup names. -/
theorem forward_eq (d : Dev) (port : Nat) (f : Frame) (pcp ns : Nat) :
    d.forward port f pcp ns = (d.delivered
      (([0, 1].filter (fun q => (d.lookup f.dst).testBit q && q != port && d.portUp q)).map
        (fun q => { port := q, pcp := pcp, frame := f }))
      (if (d.lookup f.dst).testBit 2 = true ∧ port ≠ 2 then
        [{ frame := f, first := d.lanternTime - ns * 48 / 5, gptp := d.gptpNow - ns }] else [])).drainPorts := by
  rw [Dev.forward, deliverAll_eq, flatMap_ports, flatMap_ports]
  generalize d.lookup f.dst = m
  congr 2
  · have h2 : d.egressFor f pcp 2 = [] := rfl
    have hq : ∀ q, q ≠ 2 → d.egressFor f pcp q = if d.portUp q then [{ port := q, pcp := pcp, frame := f }] else [] := by
      intro q hq
      rw [Dev.egressFor, bne_iff_ne.2 hq, Bool.true_and]
    simp only [List.flatMap_cons, List.flatMap_nil, List.append_nil, h2, ite_self, hq 0 (by decide), hq 1 (by decide),
      List.filter_cons, List.filter_nil]
    cases m.testBit 0 && 0 != port <;> cases m.testBit 1 && 1 != port <;> cases d.portUp 0 <;> cases d.portUp 1 <;> rfl
  · have h0 : d.hostFor f ns 0 = [] := rfl
    have h1 : d.hostFor f ns 1 = [] := rfl
    simp only [List.flatMap_cons, List.flatMap_nil, List.append_nil, h0, h1, ite_self, List.nil_append]
    have h2 : (m.testBit 2 && 2 != port) = decide (m.testBit 2 = true ∧ port ≠ 2) := by
      rw [Bool.eq_iff_iff, Bool.and_eq_true, bne_iff_ne, decide_eq_true_eq, ne_comm]
    rw [h2]
    by_cases h : m.testBit 2 = true ∧ port ≠ 2
    · rw [if_pos h, decide_eq_true h]
      rfl
    · rw [if_neg h, decide_eq_false h]
      rfl

theorem filter_egress (f : Frame) (pcp : Nat) (l : List Nat) (q : Nat) :
    (l.map (fun q => ({ port := q, pcp := pcp, frame := f } : Egress))).filter (fun x => x.port = q) =
      (l.filter (fun p => p = q)).map (fun q => { port := q, pcp := pcp, frame := f }) := List.filter_map ..

theorem filter_port {q : Nat} {c : Nat → Bool} (hq : q < 2) (h : c q = true) : (([0, 1].filter c).filter (fun p => p = q)) = [q] := by
  rw [List.filter_filter]
  obtain rfl | rfl : q = 0 ∨ q = 1 := by omega
  · simp [h]
  · simp [h]

/-- What forwarding leaves: queues, lines and the host port, as R438 lays down. -/
theorem forward_leaves (d : Dev) (port : Nat) (f : Frame) (pcp : Nat) :
    let m := d.lookup f.dst
    let ns := 8 * frameSize f
    let e := d.forward port f pcp (frameNs f)
    ((∀ q < 2, d.ticks < (d.eth.line q).until_) →
      e.eth.egress = d.eth.egress ++ (([0, 1].filter (fun q => m.testBit q && q != port && d.portUp q)).map
        (fun q => { port := q, pcp := pcp, frame := f })) ∧ e.eth.lines = d.eth.lines) ∧
    (∀ q < 2, (m.testBit q && q != port && d.portUp q) = true → (d.eth.line q).until_ ≤ d.ticks →
      (∀ x ∈ d.eth.egress, x.port ≠ q) →
      e.eth.line q = { until_ := d.ticks + (8 * (frameSize f + 20) * 3 + 4) / 5, frame := some f } ∧
      ∀ x ∈ e.eth.egress, x.port ≠ q) ∧
    e.eth.host = d.eth.host ++ (if m.testBit 2 = true ∧ port ≠ 2 then
      [{ frame := f, first := d.lanternTime - ns * 48 / 5, gptp := d.gptpNow - ns }] else []) ∧
    e = { d with eth := e.eth } := by
  intro m ns e
  have he : e = (d.delivered
      (([0, 1].filter (fun q => m.testBit q && q != port && d.portUp q)).map
        (fun q => { port := q, pcp := pcp, frame := f }))
      (if m.testBit 2 = true ∧ port ≠ 2 then
        [{ frame := f, first := d.lanternTime - ns * 48 / 5, gptp := d.gptpNow - ns }] else [])).drainPorts :=
    forward_eq d port f pcp (frameNs f)
  clear_value e
  generalize hhs : (if m.testBit 2 = true ∧ port ≠ 2 then
    [({ frame := f, first := d.lanternTime - ns * 48 / 5, gptp := d.gptpNow - ns } : HostFrame)] else []) = hs at he
  refine ⟨fun hbusy => ?_, fun q hq hm hfree hnone => ?_, ?_, ?_⟩
  · have hstays := drainPorts_busy (d := d.delivered (([0, 1].filter (fun q => m.testBit q && q != port && d.portUp q)).map
      (fun q => { port := q, pcp := pcp, frame := f })) hs) hbusy
    rw [he, hstays]
    exact ⟨rfl, rfl⟩
  · have hup : d.portUp q = true := (Bool.and_eq_true_iff.1 hm).2
    have hempty : d.eth.egress.filter (fun x => x.port = q) = [] :=
      List.filter_eq_nil_iff.2 fun x hx => by simpa using hnone x hx
    obtain ⟨hline, hgone⟩ := drainPorts_sends
      (d := d.delivered (([0, 1].filter (fun q => m.testBit q && q != port && d.portUp q)).map
        (fun q => { port := q, pcp := pcp, frame := f })) hs) (x := { port := q, pcp := pcp, frame := f }) hq hup hfree (by
          show (d.eth.egress ++ _).filter _ = _
          rw [List.filter_append, hempty, List.nil_append, filter_egress, filter_port hq hm]
          rfl)
    rw [he]
    exact ⟨hline, fun x hx hp => List.filter_eq_nil_iff.1 hgone x hx (decide_eq_true hp)⟩
  · obtain ⟨x, l, honly⟩ := drainPorts_only (d.delivered (([0, 1].filter (fun q => m.testBit q && q != port && d.portUp q)).map
      (fun q => { port := q, pcp := pcp, frame := f })) hs)
    rw [he, honly]
    rfl
  · obtain ⟨x, l, honly⟩ := drainPorts_only (d.delivered (([0, 1].filter (fun q => m.testBit q && q != port && d.portUp q)).map
      (fun q => { port := q, pcp := pcp, frame := f })) hs)
    rw [he, honly]
    rfl

/-! ### Links (R437, R457) -/

/-- The device after a link has been judged, but for the change that it shows. -/
def Dev.linkSet (d : Dev) (q : Nat) (up master : Bool) (sqi : Nat) : Dev :=
  ((d.setFld (ETH_PORTSTAT_LINK q) (if up then 1 else 0)).setFld (ETH_PORTSTAT_MSR q) (if master then 1 else 0)).setFld
    (ETH_PORTSTAT_SQI q) sqi

theorem linkSet_fields (d : Dev) (q : Fin 2) (up master : Bool) (sqi : Fin 8) :
    (d.linkSet q up master sqi).fld (ETH_PORTSTAT_LINK q) = (if up then 1 else 0) ∧
    (d.linkSet q up master sqi).fld (ETH_PORTSTAT_MSR q) = (if master then 1 else 0) ∧
    (d.linkSet q up master sqi).fld (ETH_PORTSTAT_SQI q) = sqi := by
  have hsm : ∀ q : Fin 2, (ETH_PORTSTAT_SQI q).Apart (ETH_PORTSTAT_MSR q) := by decide
  have hsl : ∀ q : Fin 2, (ETH_PORTSTAT_SQI q).Apart (ETH_PORTSTAT_LINK q) := by decide
  have hml : ∀ q : Fin 2, (ETH_PORTSTAT_MSR q).Apart (ETH_PORTSTAT_LINK q) := by decide
  have hfits : ∀ q : Fin 2, (ETH_PORTSTAT_LINK q).Fits ∧ (ETH_PORTSTAT_MSR q).Fits ∧ (ETH_PORTSTAT_SQI q).Fits := by decide
  have hbit : ∀ b : Bool, (if b then 1 else 0) % 2 ^ 1 = if b then 1 else 0 := by decide
  unfold Dev.linkSet
  refine ⟨?_, ?_, ?_⟩
  · rw [fld_setFld_apart _ _ (hsl q), fld_setFld_apart _ _ (hml q), fld_setFld_same _ _ (hfits q).1]
    exact hbit up
  · rw [fld_setFld_apart _ _ (hsm q), fld_setFld_same _ _ (hfits q).2.1]
    exact hbit master
  · rw [fld_setFld_same _ _ (hfits q).2.2]
    exact Nat.mod_eq_of_lt sqi.isLt

/-- A change of a link shown, and its loss presented. -/
def Dev.linkTold (d : Dev) (q : Nat) (was now : Bool) : Dev :=
  let d := if was = now then d else d.flag (ETH_PORTISTAT_LINKCHG q)
  if was && !now then d.present (fiEthLink + q) 0 else d

theorem linkTold_leaves (d : Dev) (q : Fin 2) (was now : Bool) :
    (∀ f : Fld, (ETH_PORTISTAT_LINKCHG q).Apart f → (d.linkTold q was now).fld f = d.fld f) ∧
    (was ≠ now → (d.linkTold q was now).fld (ETH_PORTISTAT_LINKCHG q) = 1) ∧
    (was = true → now = false → (d.linkTold q was now).hasFault (fiEthLink + q) 0 = true) := by
  have hflag : (d.flag (ETH_PORTISTAT_LINKCHG q)).fld (ETH_PORTISTAT_LINKCHG q) = 1 := by
    have hfits : ∀ q : Fin 2, (ETH_PORTISTAT_LINKCHG q).Fits := by decide
    exact fld_setFld_same d 1 (hfits q)
  have hoff : ∀ f : Fld, (ETH_PORTISTAT_LINKCHG q).Apart f → (d.flag (ETH_PORTISTAT_LINKCHG q)).fld f = d.fld f :=
    fun f hf => fld_setFld_apart d 1 hf
  unfold Dev.linkTold
  cases was with
  | true =>
    cases now with
    | true => exact ⟨fun _ _ => rfl, fun h => absurd rfl h, fun _ h => absurd h (by decide)⟩
    | false => exact ⟨hoff, fun _ => hflag, fun _ _ => (Dev.awaits_present _ _ (by decide)).hasFault⟩
  | false =>
    cases now with
    | true => exact ⟨hoff, fun _ => hflag, fun h => absurd h (by decide)⟩
    | false => exact ⟨fun _ _ => rfl, fun h => absurd rfl h, fun h => absurd h (by decide)⟩

/-- A change of a link: its status, then the change and the loss that it shows. -/
theorem linkChange_eq (d : Dev) (q : Nat) (up auto : Bool) (sqi : Nat) : linkChange q up auto sqi d =
    (d.linkSet q (up && d.on (ETH_PORTCFG_EN q))
      (if d.fld (ETH_PORTCFG_MS q) = 0 then true else if d.fld (ETH_PORTCFG_MS q) = 1 then false else auto) sqi).linkTold q
      (d.on (ETH_PORTSTAT_LINK q)) (up && d.on (ETH_PORTCFG_EN q)) := rfl

theorem bit_of_on {f : Fld} (hw : f.w = 1) (d : Dev) : d.fld f = if d.on f then 1 else 0 := by
  have hlt := fld_lt d f
  rw [hw] at hlt
  by_cases h : d.fld f = 0
  · rw [on_of_zero h, h]
    rfl
  · have h1 : d.fld f = 1 := by omega
    rw [on_of_one h1, h1]
    rfl

theorem linkChange_leaves (q : Fin 2) (up auto : Bool) (sqi : Fin 8) :
    let e := linkChange q up auto sqi d
    (e.fld (ETH_PORTSTAT_LINK q) = 1 ↔ up = true ∧ d.fld (ETH_PORTCFG_EN q) = 1) ∧
    e.fld (ETH_PORTSTAT_SQI q) = sqi ∧ e.fld (ETH_PORTSTAT_MSR q) =
      (if d.fld (ETH_PORTCFG_MS q) = 0 then 1 else if d.fld (ETH_PORTCFG_MS q) = 1 then 0 else if auto then 1 else 0) ∧
    (e.fld (ETH_PORTSTAT_LINK q) ≠ d.fld (ETH_PORTSTAT_LINK q) → e.fld (ETH_PORTISTAT_LINKCHG q) = 1) ∧
    (d.fld (ETH_PORTSTAT_LINK q) = 1 → up = false → e.hasFault (fiEthLink + q) 0 = true) := by
  have hen := on_iff_one (d := d) (f := ETH_PORTCFG_EN q) rfl
  have hwas := bit_of_on (f := ETH_PORTSTAT_LINK q) rfl d
  rw [linkChange_eq, ← hen]
  generalize hmaster : (if d.fld (ETH_PORTCFG_MS q) = 0 then true else if d.fld (ETH_PORTCFG_MS q) = 1 then false else auto) = master
  generalize hnow : (up && d.on (ETH_PORTCFG_EN q)) = now
  obtain ⟨hlink, hmsr, hsqi⟩ := linkSet_fields d q now master sqi
  obtain ⟨hfld, hchg, hfault⟩ := linkTold_leaves (d.linkSet q now master sqi) q (d.on (ETH_PORTSTAT_LINK q)) now
  generalize (d.linkSet q now master sqi).linkTold q (d.on (ETH_PORTSTAT_LINK q)) now = e at *
  have hap : ∀ q : Fin 2, (ETH_PORTISTAT_LINKCHG q).Apart (ETH_PORTSTAT_LINK q) ∧
      (ETH_PORTISTAT_LINKCHG q).Apart (ETH_PORTSTAT_MSR q) ∧ (ETH_PORTISTAT_LINKCHG q).Apart (ETH_PORTSTAT_SQI q) := by decide
  obtain ⟨hapl, hapm, haps⟩ := hap q
  rw [← hfld _ hapl] at hlink
  refine ⟨?_, (hfld _ haps).trans hsqi, ?_, fun hne => hchg fun hsame => hne ?_, fun h1 hup => hfault (on_of_one h1) ?_⟩
  · rw [hlink, ← Bool.and_eq_true_iff, hnow]
    cases now <;> decide
  · rw [hfld _ hapm, hmsr, ← hmaster]
    split
    · rfl
    · split
      · rfl
      · rfl
  · rw [hlink, hwas, hsame]
  · rw [← hnow, hup, Bool.false_and]

/-! ### gPTP (R441, R442) -/

theorem gptpNow_measured (x : EthSt) (g t : Nat) : (x.measured g t).gptpAt t = g := by
  show g + (t - t) * _ / _ = g
  rw [Nat.sub_self, Nat.zero_mul, Nat.zero_div, Nat.add_zero]

/-- The Sync interval's counts after it. -/
def EthSt.counted (e : EthSt) (good : Bool) (sent : Nat) : EthSt :=
  { e with inBound := if good then min 8 (e.inBound + 1) else 0
           outBound := if good then 0 else min 3 (e.outBound + 1)
           syncSent := sent }

/-- The change of SYNC that an interval brings: the count of pulses starts afresh, and a loss is presented. -/
def Dev.syncTurn (d : Dev) (was now : Bool) : Dev :=
  if was = now then d
  else
    let d := d.setFld ETH_GPTPSTAT_SYNC (if now then 1 else 0)
    let d := { d with eth := { d.eth with lastPulse := d.netNow } }
    if was then d.present fiEthSync 0 else d

theorem syncTurn_leaves (d : Dev) (now : Bool) :
    let e := d.syncTurn (d.on ETH_GPTPSTAT_SYNC) now
    e.fld ETH_GPTPSTAT_SYNC = (if now then 1 else 0) ∧ (∃ x, e.eth = { d.eth with lastPulse := x }) ∧ e.ticks = d.ticks ∧
    (d.on ETH_GPTPSTAT_SYNC = true → now = false → e.hasFault fiEthSync 0 = true) := by
  intro e
  by_cases h : d.on ETH_GPTPSTAT_SYNC = now
  · have he : e = d := if_pos h
    rw [he]
    refine ⟨?_, ⟨_, rfl⟩, rfl, fun h1 h0 => ?_⟩
    · rw [← h]
      exact bit_of_on rfl d
    · rw [h1, h0] at h
      cases h
  · have hbit : (if now then 1 else 0) % 2 ^ 1 = if now then 1 else 0 := by cases now <;> rfl
    have hs : (d.setFld ETH_GPTPSTAT_SYNC (if now then 1 else 0)).fld ETH_GPTPSTAT_SYNC = if now then 1 else 0 :=
      (fld_setFld_same d _ (by decide)).trans hbit
    unfold e Dev.syncTurn
    rw [if_neg h]
    cases d.on ETH_GPTPSTAT_SYNC with
    | true => exact ⟨hs, ⟨_, rfl⟩, rfl, fun _ _ => (Dev.awaits_present _ _ (by decide)).hasFault⟩
    | false => exact ⟨hs, ⟨_, rfl⟩, rfl, fun h1 => absurd h1 (by decide)⟩

/-- An interval: its counts, and then what they make of SYNC. -/
theorem syncInterval_eq (d : Dev) (x : SyncSample) {good : Bool}
    (hgood : good = (x.got && d.eth.gptpSeen && decide (offsetOf (syncTime x) d.gptpNow ≤ 1000))) :
    ∃ gm sent, ∀ (c : EthSt) (y : Dev), c = (if x.got then d.eth.measured (syncTime x) d.ticks else d.eth).counted good sent →
      y = Dev.setFld { d with eth := c } ETH_GPTPSTAT_GM gm →
      syncInterval x d = y.syncTurn (y.on ETH_GPTPSTAT_SYNC)
        (if y.on ETH_GPTPSTAT_SYNC then decide (c.outBound < 3) else decide (8 ≤ c.inBound)) := by
  refine ⟨if d.isMaster x then 1 else 0, if d.isMaster x then 3 else if x.got then 2 ^ (1 - x.port.val) else 0, ?_⟩
  rintro c y rfl rfl
  rw [hgood]
  rfl

theorem syncInterval_leaves (x : SyncSample) :
    let e := syncInterval x d
    let good := x.got = true ∧ d.eth.gptpSeen = true ∧ offsetOf (syncTime x) d.gptpNow ≤ 1000
    (d.fld ETH_GPTPSTAT_SYNC = 0 → (e.fld ETH_GPTPSTAT_SYNC = 1 ↔ good ∧ 7 ≤ d.eth.inBound)) ∧
    (d.fld ETH_GPTPSTAT_SYNC = 1 →
      (e.fld ETH_GPTPSTAT_SYNC = 0 ↔ ¬good ∧ 2 ≤ d.eth.outBound) ∧
      (e.fld ETH_GPTPSTAT_SYNC = 0 → e.hasFault fiEthSync 0 = true)) ∧
    (good → e.eth.outBound = 0 ∧ e.eth.inBound = min 8 (d.eth.inBound + 1)) ∧
    (¬good → e.eth.inBound = 0 ∧ e.eth.outBound = min 3 (d.eth.outBound + 1)) ∧
    (x.got = true → e.gptpNow = syncTime x ∧
      (d.eth.gptpSeen = true → d.eth.gptpTick < d.ticks → d.eth.gptp < syncTime x →
        e.eth.rateN = syncTime x - d.eth.gptp ∧ e.eth.rateD = d.ticks - d.eth.gptpTick)) := by
  obtain ⟨good, hgood⟩ : ∃ good, good = (x.got && d.eth.gptpSeen && decide (offsetOf (syncTime x) d.gptpNow ≤ 1000)) :=
    ⟨_, rfl⟩
  obtain ⟨gm, sent, heq⟩ := syncInterval_eq d x hgood
  have hiff : (x.got = true ∧ d.eth.gptpSeen = true ∧ offsetOf (syncTime x) d.gptpNow ≤ 1000) ↔ good = true := by
    rw [hgood, Bool.and_eq_true, Bool.and_eq_true, decide_eq_true_eq, and_assoc]
  obtain ⟨m, hm⟩ : ∃ m, m = if x.got then d.eth.measured (syncTime x) d.ticks else d.eth := ⟨_, rfl⟩
  have hin : m.inBound = d.eth.inBound := by
    rw [hm]
    split <;> rfl
  have hout : m.outBound = d.eth.outBound := by
    rw [hm]
    split <;> rfl
  obtain ⟨y, hy⟩ : ∃ y, y = Dev.setFld { d with eth := m.counted good sent } ETH_GPTPSTAT_GM gm := ⟨_, rfl⟩
  have hys : y.fld ETH_GPTPSTAT_SYNC = d.fld ETH_GPTPSTAT_SYNC := by
    rw [hy]
    exact fld_setFld_apart _ _ (by decide)
  have hye : y.eth = m.counted good sent := by rw [hy]; rfl
  have hyt : y.ticks = d.ticks := by rw [hy]; rfl
  have heqy := heq (m.counted good sent) y (by rw [hm]) hy
  clear heq hy
  obtain ⟨hsync, ⟨p, heth⟩, hticks, hfault⟩ := syncTurn_leaves y
    (if y.on ETH_GPTPSTAT_SYNC then decide ((m.counted good sent).outBound < 3) else decide (8 ≤ (m.counted good sent).inBound))
  intro e g
  have hee : e = _ := heqy
  clear_value e
  rw [← hee] at hsync heth hticks hfault
  have hin' : (m.counted good sent).inBound = if good then min 8 (d.eth.inBound + 1) else 0 := by
    rw [← hin]
    rfl
  have hout' : (m.counted good sent).outBound = if good then 0 else min 3 (d.eth.outBound + 1) := by
    rw [← hout]
    rfl
  have hein : e.eth.inBound = if good then min 8 (d.eth.inBound + 1) else 0 := by
    rw [heth, hye, ← hin']
  have heout : e.eth.outBound = if good then 0 else min 3 (d.eth.outBound + 1) := by
    rw [heth, hye, ← hout']
  rw [hin', hout'] at hsync hfault
  have hg : g ↔ good = true := hiff
  rw [hg]
  refine ⟨fun h0 => ?_, fun h1 => ⟨?_, fun hgone => hfault (on_of_one (hys.trans h1)) ?_⟩, fun h => ?_, fun h => ?_, fun hgot => ?_⟩
  · rw [hsync, on_of_zero (hys.trans h0), if_neg Bool.false_ne_true]
    cases good
    · simp
    · simp only [if_true, ite_eq_left_iff, decide_eq_true_eq, true_and]
      omega
  · rw [hsync, on_of_one (hys.trans h1), if_pos rfl]
    cases good
    · simp only [Bool.false_eq_true, if_false, ite_eq_right_iff, decide_eq_true_eq, not_false_eq_true, true_and]
      omega
    · simp
  · rw [hsync] at hgone
    exact Bool.eq_false_iff.2 fun ht => by
      rw [if_pos ht] at hgone
      cases hgone
  · rw [hein, heout, h]
    exact ⟨rfl, rfl⟩
  · have hbad : good = false := Bool.eq_false_iff.2 h
    rw [hein, heout, hbad]
    exact ⟨rfl, rfl⟩
  · have hmg : m = d.eth.measured (syncTime x) d.ticks := by rw [hm, if_pos hgot]
    have hrates : e.eth.rateN = m.rateN ∧ e.eth.rateD = m.rateD := by
      rw [heth, hye]
      exact ⟨rfl, rfl⟩
    refine ⟨?_, fun hseen htick hlt => ?_⟩
    · rw [Dev.gptpNow, hticks, hyt, heth, hye]
      show m.gptpAt d.ticks = syncTime x
      rw [hmg]
      exact gptpNow_measured d.eth (syncTime x) d.ticks
    · rw [hrates.1, hrates.2, hmg]
      have hmoved : (d.eth.gptpSeen && decide (d.eth.gptpTick < d.ticks) && decide (d.eth.gptp < syncTime x)) = true := by
        rw [hseen, decide_eq_true htick, decide_eq_true hlt]
        rfl
      exact ⟨if_pos hmoved, if_pos hmoved⟩

/-- A pulse taken at transport time `m`: its captures and its event. -/
def Dev.pulsed (d : Dev) (m stamp gptp : Nat) : Dev :=
  ((({ d with eth := { d.eth with lastPulse := m } } : Dev).setPair64 ETH_GPTPSGTLO_SGT ETH_GPTPSGTHI_SGT gptp).setPair64
    ETH_GPTPSLTLO_SLT ETH_GPTPSLTHI_SLT stamp).produce { prod := 462, stamp := some stamp }

theorem fld64_pulse_times (d : Dev) (gptp stamp : Nat) :
    let e := (d.setPair64 ETH_GPTPSGTLO_SGT ETH_GPTPSGTHI_SGT gptp).setPair64 ETH_GPTPSLTLO_SLT ETH_GPTPSLTHI_SLT stamp
    e.fld64 ETH_GPTPSLTLO_SLT ETH_GPTPSLTHI_SLT = stamp % 2 ^ 64 ∧
    e.fld64 ETH_GPTPSGTLO_SGT ETH_GPTPSGTHI_SGT = gptp % 2 ^ 64 := by
  have hgptp := fld64_setPair64 (a := 0x0E0208) (a' := 0x0E020C) d gptp (by decide)
  refine ⟨fld64_setPair64 (a := 0x0E0210) (a' := 0x0E0214) _ stamp (by decide), Eq.trans ?_ hgptp⟩
  rw [setPair64_eq (d.setPair64 ETH_GPTPSGTLO_SGT ETH_GPTPSGTHI_SGT gptp), Dev.fld64, fld_setFld_apart _ _ (by decide), fld_setFld_apart _ _ (by decide),
    fld_setFld_apart _ _ (by decide), fld_setFld_apart _ _ (by decide)]
  rfl

theorem pulsed_leaves (d : Dev) (m stamp gptp : Nat) : (d.pulsed m stamp gptp).eth.lastPulse = m ∧
    (d.pulsed m stamp gptp).fld64 ETH_GPTPSLTLO_SLT ETH_GPTPSLTHI_SLT = stamp % 2 ^ 64 ∧
    (d.pulsed m stamp gptp).fld64 ETH_GPTPSGTLO_SGT ETH_GPTPSGTHI_SGT = gptp % 2 ^ 64 ∧
    (d.pulsed m stamp gptp).evt.produced = d.evt.produced ++ [{ prod := 462, stamp := some stamp }] := by
  unfold Dev.pulsed
  generalize hx : ({ d with eth := { d.eth with lastPulse := m } } : Dev) = x
  have hlast : x.eth.lastPulse = m := by rw [← hx]
  have hevt : x.evt = d.evt := by rw [← hx]
  clear hx
  obtain ⟨hslt, hsgt⟩ := fld64_pulse_times x gptp stamp
  exact ⟨hlast, hslt, hsgt, congrArg (fun y : EvtSt => y.produced ++ _) hevt⟩

/-- A time pulse at transport time `t` with the period `p` in ns. -/
def Dev.pulseAt (d : Dev) (t p : Nat) : Dev :=
  let m := (d.eth.lastPulse / p + 1) * p
  if p = 0 || decide (t < m) then d
  else
    let stamp := d.lanternBefore (t - m)
    let d := { d with eth := { d.eth with lastPulse := m } }
    let d := d.setPair64 ETH_GPTPSGTLO_SGT ETH_GPTPSGTHI_SGT (d.gptpNow - (t - m))
    (d.setPair64 ETH_GPTPSLTLO_SLT ETH_GPTPSLTHI_SLT stamp).produce { prod := 462, stamp := some stamp }

theorem pulseAt_eq (d : Dev) {t p m : Nat} (hm : (d.eth.lastPulse / p + 1) * p = m) :
    d.pulseAt t p = if p = 0 || decide (t < m) then d else d.pulsed m (d.lanternBefore (t - m)) (d.gptpNow - (t - m)) := by
  subst hm
  rfl

/-- The pulse is that of the present time and of PPER (the conversion to ns stands apart: a check by evaluation would
count it out). -/
theorem timePulse_eq : timePulse = fun d => d.pulseAt d.netNow (d.fld ETH_GPTPCFG_PPER * 1000000) := by
  delta timePulse Dev.pulseAt
  rfl

theorem timePulse_leaves :
    let t := d.netNow
    let p := d.fld ETH_GPTPCFG_PPER * 1000000
    let m := (d.eth.lastPulse / p + 1) * p
    let stamp := d.lanternBefore (t - m)
    let e := timePulse d
    (p ≠ 0 → m ≤ t → e.eth.lastPulse = m ∧
      e.fld64 ETH_GPTPSLTLO_SLT ETH_GPTPSLTHI_SLT = stamp % 2 ^ 64 ∧
      e.fld64 ETH_GPTPSGTLO_SGT ETH_GPTPSGTHI_SGT = (d.gptpNow - (t - m)) % 2 ^ 64 ∧
      e.evt.produced = d.evt.produced ++ [{ prod := 462, stamp := some stamp }]) ∧
    (p = 0 ∨ t < m → e = d) := by
  intro t p m stamp e
  have he : e = d.pulseAt t p := congrFun timePulse_eq d
  have hm : (d.eth.lastPulse / p + 1) * p = m := rfl
  have hs : d.lanternBefore (t - m) = stamp := rfl
  clear_value e stamp m p t
  rw [pulseAt_eq d hm, hs] at he
  rw [he]
  refine ⟨fun hp hm => ?_, fun h => if_pos ?_⟩
  · rw [if_neg]
    · exact pulsed_leaves d m stamp _
    · rw [Bool.or_eq_true, decide_eq_true_eq, decide_eq_true_eq]
      exact fun h => h.elim hp (Nat.not_lt.2 hm)
  · rw [Bool.or_eq_true, decide_eq_true_eq, decide_eq_true_eq]
    exact h

/-! ### The epoch and the learning table (R438, R445) -/

/-- The wrap taken by the next epoch, before it is journaled. -/
def Dev.epochTaken (d : Dev) : Dev :=
  { d with eth := { d.eth with wrapped := false }, persist := { d.persist with epoch := (d.persist.epoch + 1) % 2 ^ 24 } }

theorem epochWrap_wrapped (h : d.eth.wrapped = true) :
    epochWrap d = d.epochTaken.journal 0x25 [(d.persist.epoch + 1) % 2 ^ 24] := by
  rw [epochWrap, h]
  rfl

theorem eth_journal (d : Dev) (type : Nat) (args : List Nat) (body : List Byte) : (d.journal type args body).eth = d.eth := by
  have h := congrArg Dev.eth (journal_frame d type args body).1
  exact h

theorem epochWrap_leaves (h : d.eth.wrapped = true) :
    (epochWrap d).persist.epoch = (d.persist.epoch + 1) % 2 ^ 24 ∧ (epochWrap d).eth.wrapped = false := by
  rw [epochWrap_wrapped h, persist_journal, eth_journal]
  exact ⟨rfl, rfl⟩

theorem ageOut_removes {x : Learned}
    (h : d.eth.learned.find? (fun y => d.elapsed y.seen (d.fld ETH_SWAGE_AGE * 1000 * msTicks)) = some x) :
    (∀ y, y ∈ (ageOut d).eth.learned ↔ y ∈ d.eth.learned ∧ y.mac ≠ x.mac) ∧ ageOut d = { d with eth := (ageOut d).eth } := by
  have he : ageOut d = { d with eth := { d.eth with learned := d.eth.learned.filter (fun y => y.mac != x.mac) } } := by
    rw [ageOut, h]
  rw [he]
  refine ⟨fun y => ?_, rfl⟩
  show y ∈ d.eth.learned.filter _ ↔ _
  rw [List.mem_filter, bne_iff_ne]

theorem ageOut_of_fresh (h : ∀ x ∈ d.eth.learned, d.ticks < x.seen + d.fld ETH_SWAGE_AGE * 600000000) : ageOut d = d := by
  have hnone : d.eth.learned.find? (fun y => d.elapsed y.seen (d.fld ETH_SWAGE_AGE * 1000 * msTicks)) = none := by
    refine List.find?_eq_none.2 fun x hx => ?_
    rw [Dev.elapsed, decide_eq_true_eq, Nat.mul_assoc]
    exact Nat.not_le.2 (h x hx)
  rw [ageOut, hnone]

end

/-- The priority of a frame that came in at a port (R438). -/
def Dev.framePcp (d : Dev) (port : Nat) (f : Frame) : Nat :=
  match f.ctag with
  | some (p, _) => p
  | none => if port < 2 then d.fld (ETH_PORTCFG_DPCP port) else 0

theorem switchFrame_open {port : Nat} {f : Frame} {d : Dev} (h : port < 2 → d.portUp port = true) :
    switchFrame port f d = if 1522 < frameSize f then (if port < 2 then d.count (ETH_PORTCNT_OVS port) else d)
      else if f.stag then d
      else if !(d.bufferTakes f) then (if port < 2 then d.count (ETH_PORTCNT_DROP port) else d)
      else Dev.forward { d with eth := { d.eth with learned := learn d.eth.learned f.src port d.ticks } } port f
        (d.framePcp port f) (frameNs f) := by
  have hopen : (decide (port < 2) && !d.portUp port) = false := by
    by_cases hp : port < 2
    · rw [h hp, Bool.not_true, Bool.and_false]
    · rw [decide_eq_false hp, Bool.false_and]
  unfold switchFrame
  rw [hopen, if_neg Bool.false_ne_true]
  rfl

/-- Settles O35: forwarding, the links, an interval's counts, a pulse and the ageing of an address, each from its function. -/
theorem ethernetSwitch : Obligations.EthernetSwitch := by
  intro s d
  refine ⟨fun port f hup => ?_, fun q up master sqi => ?_, fun x => ?_, ?_, fun h => ?_, fun h => ?_, fun x hx => ?_, fun h => ?_⟩
  · have hstart := switchFrame_open (f := f) hup
    refine ⟨fun hsize hp => ?_, fun hsize hstag => ?_, fun hsize hstag hfull hp => ?_, fun hsize hstag hroom => ?_⟩ <;>
      refine completes_onDev (f := switchFrame port f) rfl fun _ => ?_ <;> rw [hstart]
    · rw [if_pos hsize, if_pos hp]
    · rw [if_neg (Nat.not_lt.2 hsize), hstag, if_pos rfl]
    · have htakes : d.bufferTakes f = false := decide_eq_false (Nat.not_le.2 hfull)
      rw [if_neg (Nat.not_lt.2 hsize), hstag, htakes, if_neg Bool.false_ne_true, Bool.not_false, if_pos rfl, if_pos hp]
    · have htakes : d.bufferTakes f = true := decide_eq_true hroom
      rw [if_neg (Nat.not_lt.2 hsize), hstag, htakes, if_neg Bool.false_ne_true, Bool.not_true, if_neg Bool.false_ne_true]
      exact forward_leaves { d with eth := { d.eth with learned := learn d.eth.learned f.src port d.ticks } } port f _
  · exact completes_onDev (f := linkChange q up master sqi) rfl fun _ => linkChange_leaves q up master sqi
  · exact completes_onDev (f := syncInterval x) rfl fun _ => syncInterval_leaves x
  · intro t p m stamp
    exact ⟨fun hp hm => completes_onDev (f := timePulse) rfl fun _ => timePulse_leaves.1 hp hm,
      fun h => completes_onDev (f := timePulse) rfl fun _ => timePulse_leaves.2 h⟩
  · exact completes_onDev (f := epochWrap) rfl fun _ => epochWrap_leaves h
  · refine completes_onDev (f := epochWrap) rfl fun _ => if_neg ?_
    rw [h]
    exact Bool.false_ne_true
  · exact completes_onDev (f := ageOut) rfl fun _ => ageOut_removes hx
  · exact completes_onDev (f := ageOut) rfl fun _ => ageOut_of_fresh h

end Sys2Proof.Machine
end

section
/-! PROOFS. Accesses: what an engine's access of memory leaves alone (R325, R339, R364): it changes memory, the fabric, what
waits for the island, and registers of FABRIC and MEMCTL alone. `Dev.Accessed.f` says so of the function `f`. -/

set_option Elab.async false

namespace Sys2Proof.Machine

/-- The field stands in neither FABRIC nor MEMCTL. -/
abbrev Fld.OffAccess (f : Fld) : Prop := f.addr < 0x030000 ∨ 0x060000 ≤ f.addr

/-- The device without what an access of memory changes. -/
def Dev.butAccess (d : Dev) : Dev :=
  { d with io := [], mem := {}, fab := {}, island := { d.island with presented := [] } }

/-- The device `e` is `d` after accesses of memory. -/
structure Dev.Accessed (d e : Dev) : Prop where
  rest : e.butAccess = d.butAccess
  fld : ∀ f : Fld, f.OffAccess → e.fld f = d.fld f
  idle : d.fabricIdle → e.fabricIdle

section
variable {d e : Dev}

theorem Dev.Accessed.refl (d : Dev) : d.Accessed d := ⟨rfl, fun _ _ => rfl, id⟩

theorem Dev.Accessed.trans {f : Dev} (h : d.Accessed e) (h' : e.Accessed f) : d.Accessed f :=
  ⟨h'.rest.trans h.rest, fun g hg => (h'.fld g hg).trans (h.fld g hg), fun hi => h'.idle (h.idle hi)⟩

theorem Dev.Accessed.evt (h : d.Accessed e) : e.evt = d.evt := show e.butAccess.evt = d.butAccess.evt from congrArg Dev.evt h.rest
theorem Dev.Accessed.can (h : d.Accessed e) : e.can = d.can := show e.butAccess.can = d.butAccess.can from congrArg Dev.can h.rest
theorem Dev.Accessed.lantern (h : d.Accessed e) : e.lantern = d.lantern := show e.butAccess.lantern = d.butAccess.lantern from congrArg Dev.lantern h.rest

theorem Dev.Accessed.ite {f : Dev} {c : Prop} {_ : Decidable c} (he : d.Accessed e) (hf : d.Accessed f) :
    d.Accessed (if c then e else f) := by
  split
  · exact he
  · exact hf

theorem Dev.Accessed.iteSnd {α : Type} {c : Prop} {_ : Decidable c} {x y : α × Dev} (hx : d.Accessed x.2)
    (hy : d.Accessed y.2) : d.Accessed (if c then x else y).2 := by
  split
  · exact hx
  · exact hy

theorem Dev.Accessed.iteThd {α β : Type} {c : Prop} {_ : Decidable c} {x y : α × β × Dev} (hx : d.Accessed x.2.2)
    (hy : d.Accessed y.2.2) : d.Accessed (if c then x else y).2.2 := by
  split
  · exact hx
  · exact hy

theorem Dev.Accessed.of_snd {α : Type} {x : α × Dev} {a : α} (hx : x = (a, e)) (h : d.Accessed x.2) : d.Accessed e := by
  subst hx
  exact h

theorem Dev.Accessed.of_thd {α β : Type} {x : α × β × Dev} {a : α} {b : β} (hx : x = (a, b, e)) (h : d.Accessed x.2.2) :
    d.Accessed e := by
  subst hx
  exact h

theorem Dev.Accessed.foldl {α : Type} {f : Dev → α → Dev} {l : List α} (h : d.Accessed e)
    (hf : ∀ x a, d.Accessed x → d.Accessed (f x a)) : d.Accessed (l.foldl f e) := foldl_keeps d.Accessed f hf l e h

/-! ### Updates -/

theorem Dev.Accessed.setFld {f : Fld} {x : Nat} (h : d.Accessed e) (hf : 0x030000 ≤ f.addr ∧ f.addr < 0x060000 := by decide) :
    d.Accessed (e.setFld f x) :=
  ⟨h.rest, fun g hg => (fld_setFld_apart e x (.inl fun he => by unfold Fld.OffAccess at hg; omega)).trans (h.fld g hg), h.idle⟩

theorem Dev.Accessed.flag {f : Fld} (h : d.Accessed e) (hf : 0x030000 ≤ f.addr ∧ f.addr < 0x060000 := by decide) :
    d.Accessed (e.flag f) := h.setFld hf

theorem Dev.Accessed.setBitOf {f : Fld} {i : Nat} (h : d.Accessed e)
    (hf : 0x030000 ≤ f.addr ∧ f.addr < 0x060000 := by decide) : d.Accessed (e.setBitOf f i) := h.setFld hf

theorem Dev.Accessed.count {f : Fld} (h : d.Accessed e) (hf : 0x030000 ≤ f.addr ∧ f.addr < 0x060000 := by decide) :
    d.Accessed (e.count f) := h.setFld hf

theorem Dev.Accessed.withMem {x : MemSt} (h : d.Accessed e) : d.Accessed { e with mem := x } := ⟨h.rest, h.fld, h.idle⟩

theorem Dev.Accessed.present {i x : Nat} (h : d.Accessed e) : d.Accessed (e.present i x) := ⟨h.rest, h.fld, h.idle⟩

/-- An update of the fabric that takes requests away, or notes a denial. -/
theorem Dev.Accessed.withFab {x : FabricSt} (h : d.Accessed e)
    (hx : e.fabricIdle → x.locks = [] ∧ x.waiting = [] ∧ x.granted = [] ∧ x.ended = []) : d.Accessed { e with fab := x } :=
  ⟨h.rest, h.fld, fun hi => ⟨(h.idle hi).1, hx (h.idle hi)⟩⟩

/-! ### Banks -/

theorem instance_in_memctl {i lo w : Nat} (hi : i < 256) : 0x030000 ≤ (Fld.mk (0x050400 + 0x4 * i) lo w).addr ∧
    (Fld.mk (0x050400 + 0x4 * i) lo w).addr < 0x060000 := by
  show 0x030000 ≤ 0x050400 + 0x4 * i ∧ 0x050400 + 0x4 * i < 0x060000
  omega

theorem overflow_in_memctl {i lo w : Nat} (hi : i < 256) : 0x030000 ≤ (Fld.mk (0x050010 + 0x4 * (i / 32)) lo w).addr ∧
    (Fld.mk (0x050010 + 0x4 * (i / 32)) lo w).addr < 0x060000 := by
  show 0x030000 ≤ 0x050010 + 0x4 * (i / 32) ∧ 0x050010 + 0x4 * (i / 32) < 0x060000
  omega

section
variable {i : Nat} (h : d.Accessed e) (hi : i < 256)
include h hi

theorem Dev.Accessed.bucketUp : d.Accessed (e.bucketUp i) :=
  .ite (h.setFld (instance_in_memctl hi)) (.ite (h.setFld (instance_in_memctl hi))
    ((h.setFld (instance_in_memctl hi)).setBitOf (overflow_in_memctl hi)).flag.present)

theorem Dev.Accessed.correctable : d.Accessed (e.correctable i) :=
  .ite (h.count (instance_in_memctl hi)) ((h.count (instance_in_memctl hi)).bucketUp hi)

omit hi in
theorem Dev.Accessed.recordUe {m a : Nat} {scrub : Bool} : d.Accessed (e.recordUe m i a scrub) :=
  .ite h h.flag.setFld.setFld.setFld.setFld

theorem Dev.Accessed.uncorrectable {m a : Nat} {scrub : Bool} : d.Accessed (e.uncorrectable m i a scrub) := by
  have h1 : d.Accessed (e.count (MEMCTL_INST_UECNT i)) := h.count (instance_in_memctl hi)
  unfold Dev.uncorrectable
  extract_lets d1 d2
  have h2 : d.Accessed d2 := .ite h1.flag h1.flag
  exact .ite h2.recordUe h2.recordUe.present

omit hi in
theorem Dev.Accessed.queueWriteBack {w : Nat} : d.Accessed (e.queueWriteBack i w) := .ite h h.withMem

theorem Dev.Accessed.noteRead {m w a : Nat} {r : WordRead} {scrub : Bool} : d.Accessed (e.noteRead m i w a r scrub) := by
  unfold Dev.noteRead
  extract_lets d1
  have h1 : d.Accessed d1 := .ite h.flag.setFld.setFld.setFld h
  exact .ite (.uncorrectable (.ite (h1.correctable hi) h1) hi)
    (.ite (.ite (h1.correctable hi) (h1.correctable hi).queueWriteBack) h1)

theorem Dev.Accessed.bankRead {m w : Nat} : d.Accessed (e.bankRead m i w).2.2 := h.withMem.noteRead hi

omit hi in
theorem Dev.Accessed.bankWrite {w v : Nat} : d.Accessed (e.bankWrite i w v) := h.withMem

theorem Dev.Accessed.bankStore {m w al data mask : Nat} : d.Accessed (e.bankStore m i w al data mask).2 :=
  .iteSnd h.bankWrite (.iteSnd (h.bankRead hi) (h.bankRead hi).bankWrite)

end

theorem Dev.Accessed.romRead {m w : Nat} (h : d.Accessed e) : d.Accessed (e.romRead m w).2.2 :=
  .iteThd h (.ite (h.uncorrectable (by decide)) (h.correctable (by decide)))

/-- The banks that an engine's address names. -/
theorem instance_lt_of_engineTarget {remap : Bool} {a i w al : Nat} (h : engineTarget remap a = .bank i w al) : i < 256 := by
  unfold engineTarget at h
  split at h
  · cases h
  · exact instance_lt_of_targetOf h

section
variable (h : d.Accessed e)
include h

theorem Dev.Accessed.engineRead {m a n : Nat} : d.Accessed (e.engineRead m a n).2.2 := by
  show d.Accessed (e.targetRead m (engineTarget e.remap a)).2.2
  cases ht : engineTarget e.remap a with
  | bank inst word al =>
    have hi := instance_lt_of_engineTarget ht
    exact .iteThd (h.bankRead hi) (h.bankRead hi)
  | rom word => exact .iteThd h.romRead h.romRead
  | nv off => exact .iteThd h h
  | own => exact h
  | none => exact h

theorem Dev.Accessed.engineWrite {m a n v : Nat} : d.Accessed (e.engineWrite m a n v).2 := by
  show d.Accessed (e.targetWrite m (engineTarget e.remap a) (v <<< (8 * (a % 8)) % 2 ^ 64) (byteMask (a % 8) n)).2
  cases ht : engineTarget e.remap a with
  | bank inst word al => exact h.bankStore (instance_lt_of_engineTarget ht)
  | rom word => exact h
  | nv off => exact h
  | own => exact h
  | none => exact h

/-! ### Turns at the points -/

theorem Dev.Accessed.denied {m : Nat} {a : Access} {why : Bool × Bool} {req : Option FabReq} : d.Accessed (e.denied m a why req) :=
  h.withFab fun hi => ⟨hi.2.1, hi.2.2.1, hi.2.2.2.1, hi.2.2.2.2⟩

theorem Dev.Accessed.takeFailure {m a : Nat} : d.Accessed (e.takeFailure m a) :=
  h.withFab fun hi => ⟨hi.2.1, hi.2.2.1, hi.2.2.2.1, by rw [hi.2.2.2.2]; rfl⟩

omit h in
/-- What `leaveQueue` leaves of the fabric where the queue is empty. -/
theorem served_idle (m a : Nat) (hi : d.fabricIdle) : (d.served m a).fabricIdle := by
  obtain ⟨hclock, hlocks, hwait, hgranted, hended⟩ := hi
  unfold Dev.served
  rw [hwait]
  exact ⟨hclock, hlocks, hwait, by show d.fab.granted.filter _ = []; rw [hgranted]; rfl, hended⟩

theorem Dev.Accessed.served {m a : Nat} : d.Accessed (e.served m a) := by
  have hleave : ∀ (x : Dev) (r : FabReq), x.butAccess = e.butAccess ∧ (∀ f : Fld, f.OffAccess → x.fld f = e.fld f) →
      (x.leaveQueue (r.route.headD .rom) r).butAccess = e.butAccess ∧
      (∀ f : Fld, f.OffAccess → (x.leaveQueue (r.route.headD .rom) r).fld f = e.fld f) := by
    rintro x r ⟨hrest, hfld⟩
    unfold Dev.leaveQueue
    extract_lets w y rest
    have hy : y.butAccess = e.butAccess ∧ ∀ f : Fld, f.OffAccess → y.fld f = e.fld f := by
      unfold y
      split
      · refine ⟨hrest, fun f hf => (fld_setFld_apart x w (.inl fun he => ?_)).trans (hfld f hf)⟩
        have ha : FABRIC_URG_MAXWAIT.addr = 0x030098 := rfl
        unfold Fld.OffAccess at hf
        omega
      · exact ⟨hrest, hfld⟩
    exact hy
  obtain ⟨hrest, hfld⟩ := foldl_keeps (fun x : Dev => x.butAccess = e.butAccess ∧ ∀ f : Fld, f.OffAccess → x.fld f = e.fld f)
    _ (fun x r hx => hleave x r hx) (e.fab.waiting.filter fun r => r.lpair = m && r.req.addr = a) e ⟨rfl, fun _ _ => rfl⟩
  exact h.trans ⟨hrest, hfld, served_idle m a⟩

end

/-! ### Reads and writes of ranges -/

theorem Dev.Accessed.readPieces {m : Nat} : ∀ {l : List (Nat × Nat)} {e : Dev}, d.Accessed e → d.Accessed (e.readPieces m l).2.2
  | [], _, h => h
  | (a, n) :: t, e, h => by
    rw [Dev.readPieces]
    split
    next v code d1 hr =>
      have h1 : d.Accessed d1 := .of_thd hr h.engineRead
      exact .iteThd h1 h1.readPieces

theorem Dev.Accessed.writePieces {m : Nat} : ∀ {l : List (Nat × Nat)} {e : Dev} {bytes : List Byte}, d.Accessed e →
    d.Accessed (e.writePieces m bytes l).2
  | [], _, _, h => h
  | _ :: _, _, _, h => .iteSnd h.engineWrite h.engineWrite.writePieces

theorem Dev.Accessed.busRead {m a n : Nat} (h : d.Accessed e) : d.Accessed (e.busRead m a n).2.2 := by
  unfold Dev.busRead
  split
  · exact h
  · split
    · exact h.denied
    · exact h.takeFailure
    · exact h
    · exact .iteThd h.served.readPieces h.served.readPieces

theorem Dev.Accessed.busWrite {m a : Nat} {bytes : List Byte} (h : d.Accessed e) : d.Accessed (e.busWrite m a bytes).2 := by
  unfold Dev.busWrite
  extract_lets
  split
  · exact h
  · split
    · exact h.denied
    · exact h.takeFailure
    · exact h
    · exact .iteSnd h.served.writePieces h.served.writePieces

theorem Dev.Accessed.readBursts {m : Nat} : ∀ {l : List (Nat × Nat)} {e : Dev}, d.Accessed e → d.Accessed (e.readBursts m l).2.2
  | [], _, h => h
  | (a, n) :: t, e, h => by
    rw [Dev.readBursts]
    split
    next b c d1 hb =>
      have h1 : d.Accessed d1 := .of_thd hb h.busRead
      split
      · exact h1.readBursts
      · exact h1

theorem Dev.Accessed.writeBursts {m : Nat} : ∀ {l : List (Nat × Nat)} {e : Dev} {bytes : List Byte}, d.Accessed e →
    d.Accessed (e.writeBursts m bytes l).2
  | [], _, _, h => h
  | (a, n) :: t, e, bytes, h => by
    rw [Dev.writeBursts]
    split
    next c d1 hb =>
      have h1 : d.Accessed d1 := .of_snd hb h.busWrite
      split
      · exact h1.writeBursts
      · exact h1

theorem Dev.Accessed.engineLoad {m a n : Nat} (h : d.Accessed e) : d.Accessed (e.engineLoad m a n).2.2 := by
  unfold Dev.engineLoad
  split
  · exact h
  · exact h.readBursts

theorem Dev.Accessed.engineStore {m a : Nat} {bytes : List Byte} (h : d.Accessed e) :
    d.Accessed (e.engineStore m a bytes).2 := by
  unfold Dev.engineStore
  split
  · exact h
  · exact h.writeBursts

/-! ### An idle fabric -/

theorem busRead_not_held (hi : d.fabricIdle) (m a n : Nat) (x : Hold) : (d.busRead m a n).2.1 ≠ .held x := by
  unfold Dev.busRead
  split
  · nofun
  · split
    · nofun
    · nofun
    next w hw => exact absurd hw (hi.burstGate m a n false w)
    · split
      · split
        · nofun
        · nofun

theorem readBursts_not_held (m : Nat) (x : Hold) : ∀ {l : List (Nat × Nat)} {d : Dev}, d.fabricIdle →
    (d.readBursts m l).2.1 ≠ .held x
  | [], _, _ => nofun
  | (a, n) :: t, d, hi => by
    have hnot := busRead_not_held hi m a n x
    have hacc := (Dev.Accessed.refl d).busRead (m := m) (a := a) (n := n)
    rw [Dev.readBursts]
    generalize d.busRead m a n = r at hnot hacc
    obtain ⟨b, c, d1⟩ := r
    cases c with
    | ok => exact readBursts_not_held m x (hacc.idle hi)
    | error code => nofun
    | held w => exact hnot

/-- In an idle fabric no read of an engine is held. -/
theorem engineLoad_not_held (hi : d.fabricIdle) (m a n : Nat) (x : Hold) : (d.engineLoad m a n).2.1 ≠ .held x := by
  rw [Dev.engineLoad, hi.spanWait]
  exact readBursts_not_held m x hi

end
end Sys2Proof.Machine
end

section
/-! PROOFS. Can: the CAN XL controllers' rings, error counters and bus-off (R452 to R455, `Obligations.CanControllers`). -/

set_option Elab.async false

namespace Sys2Proof.Machine

section
variable {d e : Dev} {k : Fin 4}

/-! ### Rings (R451, R453) -/

theorem ringFree_lt {size head tail n : Nat} (hs : 0 < size) (h : n ≤ ringFree size head tail) : n < size := by
  rw [ringFree, if_neg (by omega)] at h
  exact lt_of_le_of_lt h (Nat.mod_lt _ hs)

theorem ringNext_lt {size tail n : Nat} (ht : tail < size) (hn : n ≤ size) : ringNext tail size n < size := by
  unfold ringNext
  split
  · omega
  · omega

/-- In an idle fabric bytes go into a ring at once. -/
theorem ringWrite_idle (hi : d.fabricIdle) (m base unit size tail : Nat) (bytes : List Byte) :
    ∃ e, d.ringWrite m base unit size tail bytes = .ok e ∧ d.Accessed e := by
  refine ⟨((d.engineStore m (base + unit * tail) (bytes.take ((size - tail) * unit))).2.engineStore m base
    (bytes.drop ((size - tail) * unit))).2, ?_, (Dev.Accessed.refl d).engineStore.engineStore⟩
  unfold Dev.ringWrite
  extract_lets first a
  rw [hi.spanWait, hi.spanWait]
  rfl

/-! ### Error counters (R455) -/

theorem canOf_setCan_same (d : Dev) (k : Nat) (x : CanSt) : (d.setCan k x).canOf k = x := arrGet_arrSet_same _ _ _ _

/-- The controller after the receive error counter has taken a frame. -/
def Dev.recCounted (d : Dev) (k : Nat) (ok : Bool) : Dev :=
  if d.on (CANXL_CFG_LOM k) then d
  else (d.setFld (CANXL_STAT_REC k) (if ok then recAfter (d.fld (CANXL_STAT_REC k)) else min 255 (d.fld (CANXL_STAT_REC k) + 1))).errorState k

theorem errorState_keeps (d : Dev) (k : Nat) : d.OnlyIo (d.errorState k) ∧
    ∀ f : Fld, (CANXL_STAT_ESTATE k).Apart f → (d.errorState k).fld f = d.fld f := by
  unfold Dev.errorState
  split
  · exact ⟨.refl d, fun _ _ => rfl⟩
  · exact ⟨(Dev.OnlyIo.refl d).setFld, fun f hf => fld_setFld_apart d _ hf⟩

theorem recCounted_keeps (d : Dev) (k : Nat) (ok : Bool) : d.OnlyIo (d.recCounted k ok) ∧
    ∀ f : Fld, (CANXL_STAT_ESTATE k).Apart f → (CANXL_STAT_REC k).Apart f → (d.recCounted k ok).fld f = d.fld f := by
  unfold Dev.recCounted
  split
  · exact ⟨.refl d, fun _ _ _ => rfl⟩
  · obtain ⟨honly, hfld⟩ := errorState_keeps (d.setFld (CANXL_STAT_REC k)
      (if ok then recAfter (d.fld (CANXL_STAT_REC k)) else min 255 (d.fld (CANXL_STAT_REC k) + 1))) k
    exact ⟨(Dev.OnlyIo.refl d).setFld.trans honly, fun f he hr => (hfld f he).trans (fld_setFld_apart d _ hr)⟩

theorem recCounted_bad (h : d.fld (CANXL_CFG_LOM k) = 0) :
    (d.recCounted k false).fld (CANXL_STAT_REC k) = min 255 (d.fld (CANXL_STAT_REC k) + 1) := by
  have hap : ∀ k : Fin 4, (CANXL_STAT_ESTATE k).Apart (CANXL_STAT_REC k) ∧ (CANXL_STAT_REC k).Fits := by decide
  have hlt : min 255 (d.fld (CANXL_STAT_REC k) + 1) < 2 ^ 8 := by omega
  rw [Dev.recCounted, on_of_zero h, if_neg Bool.false_ne_true, if_neg Bool.false_ne_true, (errorState_keeps _ k).2 _ (hap k).1,
    fld_setFld_same _ _ (hap k).2]
  exact Nat.mod_eq_of_lt hlt

/-- The filters are read in words beyond the status of every controller. -/
theorem canFilter_of_fld (h : ∀ f : Fld, (CANXL_STAT_REC k).addr < f.addr → e.fld f = d.fld f) (id : Nat) :
    e.canFilter k id = d.canFilter k id := by
  have hk := k.isLt
  have hrec : (CANXL_STAT_REC k).addr = 0x0F0114 + 0x100 * k := rfl
  have hfirst : ∀ b j lo w : Nat, 0x0F0180 ≤ b → e.fld ⟨b + 0x100 * k + 0x8 * j, lo, w⟩ = d.fld ⟨b + 0x100 * k + 0x8 * j, lo, w⟩ :=
    fun b j lo w hb => h _ (by show _ < b + 0x100 * (k : Nat) + 0x8 * j; omega)
  have hsecond : ∀ b j lo w : Nat, 0x0F0800 ≤ b → e.fld ⟨b + 0x80 * k + 0x8 * j, lo, w⟩ = d.fld ⟨b + 0x80 * k + 0x8 * j, lo, w⟩ :=
    fun b j lo w hb => h _ (by show _ < b + 0x80 * (k : Nat) + 0x8 * j; omega)
  refine List.any_congr rfl fun j => ?_
  have hid := hfirst 0x0F0180 j 0 29 (by decide)
  have hmask := hfirst 0x0F0184 j 0 29 (by decide)
  have hid2 := hsecond 0x0F0800 j 0 29 (by decide)
  have hmask2 := hsecond 0x0F0804 j 0 29 (by decide)
  have hen : e.on (CANXL_FLTID_EN k j) = d.on (CANXL_FLTID_EN k j) := on_of_fld (hfirst 0x0F0180 j 31 1 (by decide))
  have hen' : e.on (CANXL_FLTMASK_EN k j) = d.on (CANXL_FLTMASK_EN k j) := on_of_fld (hfirst 0x0F0184 j 31 1 (by decide))
  have hen2 : e.on (CANXL_FLT2ID_EN k j) = d.on (CANXL_FLT2ID_EN k j) := on_of_fld (hsecond 0x0F0800 j 31 1 (by decide))
  have hen2' : e.on (CANXL_FLT2MASK_EN k j) = d.on (CANXL_FLT2MASK_EN k j) := on_of_fld (hsecond 0x0F0804 j 31 1 (by decide))
  unfold CANXL_FLTID_ID CANXL_FLTMASK_MASK CANXL_FLT2ID_ID CANXL_FLT2MASK_MASK
  rw [hen, hen', hen2, hen2', hid, hmask, hid2, hmask2]

/-! ### Frames received (R453, R454) -/

theorem canReceive_running (f : CanFrame) (hen : d.fld (CANXL_CFG_EN k) = 1) (hon : d.fld (CANXL_STAT_ESTATE k) ≠ 2)
    (hfmt : f.fmt.val ≤ d.fld (CANXL_CFG_FMTS k)) : canReceive k f d =
    if f.crcOk && (d.recCounted k f.crcOk).canFilter k f.id.toNat then
      ((d.recCounted k f.crcOk).canEvent k f).canStoreAll k (((d.recCounted k f.crcOk).canOf k).received ++ [f])
    else d.recCounted k f.crcOk := by
  have hrun : (!d.on (CANXL_CFG_EN k) || d.busOff k || decide (d.fld (CANXL_CFG_FMTS k) < f.fmt.val)) = false := by
    rw [on_of_one hen, Dev.busOff, decide_eq_false hon, decide_eq_false (Nat.not_lt.2 hfmt)]
    rfl
  unfold canReceive
  rw [hrun, if_neg Bool.false_ne_true]
  rfl

theorem canEvent_keeps (d : Dev) (k : Nat) (f : CanFrame) : (d.canEvent k f).io = d.io ∧ (d.canEvent k f).mem = d.mem ∧
    (d.canEvent k f).evt.produced = d.evt.produced ++ (if f.evt then [{ prod := 458 + k, stamp := some f.sof }] else []) ∧
    (d.fabricIdle → (d.canEvent k f).fabricIdle) := by
  unfold Dev.canEvent
  cases f.evt
  · exact ⟨rfl, rfl, (List.append_nil _).symm, id⟩
  · exact ⟨rfl, rfl, rfl, id⟩

/-- The bytes of a frame's entry in the RX ring. -/
def rxBytes (f : CanFrame) : List Byte := padTo 16 (canHeader f f.sof ++ (if f.remote then [] else f.data))

theorem canStoreAll_ok {f : CanFrame} {k : Nat} (h : d.canStore k f = .ok e) :
    d.canStoreAll k [f] = e.setCan k { e.canOf k with received := [] } := by
  rw [Dev.canStoreAll, h]
  rfl

theorem canStore_full {f : CanFrame}
    (h : ringFree (d.fld (CANXL_RXCFG_SIZE k)) (d.fld (CANXL_RXHEAD_HEAD k)) (d.fld (CANXL_RXTAIL_TAIL k)) < (rxBytes f).length / 16) :
    d.canStoreAll k [f] =
      (d.count (CANXL_STAT_RXLOST k)).setCan k { (d.count (CANXL_STAT_RXLOST k)).canOf k with received := [] } := by
  exact canStoreAll_ok (if_pos h)

/-- A frame that finds room, written in an idle fabric. -/
theorem canStore_room {f : CanFrame} (hi : d.fabricIdle)
    (h : (rxBytes f).length / 16 ≤ ringFree (d.fld (CANXL_RXCFG_SIZE k)) (d.fld (CANXL_RXHEAD_HEAD k)) (d.fld (CANXL_RXTAIL_TAIL k)))
    (ht : d.fld (CANXL_RXTAIL_TAIL k) < d.fld (CANXL_RXCFG_SIZE k)) :
    let e := d.canStoreAll k [f]
    e.fld (CANXL_RXTAIL_TAIL k) =
      ringNext (d.fld (CANXL_RXTAIL_TAIL k)) (d.fld (CANXL_RXCFG_SIZE k)) ((rxBytes f).length / 16) ∧
    e.fld (CANXL_ISTAT_RXF k) = 1 ∧ e.evt = d.evt := by
  obtain ⟨y, hy, hacc⟩ := ringWrite_idle hi mCan (32 * d.fld (CANXL_RXBASE_BASE k)) 16 (d.fld (CANXL_RXCFG_SIZE k))
    (d.fld (CANXL_RXTAIL_TAIL k)) (rxBytes f)
  have hs : d.canStore k f = .ok ((y.setFld (CANXL_RXTAIL_TAIL k) (ringNext (d.fld (CANXL_RXTAIL_TAIL k))
      (d.fld (CANXL_RXCFG_SIZE k)) ((rxBytes f).length / 16))).flag (CANXL_ISTAT_RXF k)) := by
    unfold Dev.canStore
    extract_lets bytes size tail n
    have hy' : d.ringWrite mCan (32 * d.fld (CANXL_RXBASE_BASE k)) 16 size tail bytes = .ok y := hy
    have hroom : ¬ ringFree size (d.fld (CANXL_RXHEAD_HEAD k)) tail < n := Nat.not_lt.2 h
    rw [if_neg hroom, hy']
    rfl
  have hsize : d.fld (CANXL_RXCFG_SIZE k) < 2 ^ 12 := fld_lt d _
  have hn := ringFree_lt (by omega) h
  have hnext := ringNext_lt ht hn.le
  have hap : ∀ k : Fin 4, (CANXL_ISTAT_RXF k).Apart (CANXL_RXTAIL_TAIL k) ∧ (CANXL_ISTAT_RXF k).Fits ∧
      (CANXL_RXTAIL_TAIL k).Fits := by decide
  obtain ⟨hapart, hfit, hfit'⟩ := hap k
  intro e
  have he : e = _ := canStoreAll_ok hs
  clear_value e
  have hio : e.io = ((y.setFld (CANXL_RXTAIL_TAIL k) (ringNext (d.fld (CANXL_RXTAIL_TAIL k))
      (d.fld (CANXL_RXCFG_SIZE k)) ((rxBytes f).length / 16))).flag (CANXL_ISTAT_RXF k)).io := by
    rw [he]
    rfl
  have hevt : e.evt = y.evt := by
    rw [he]
    rfl
  refine ⟨?_, ?_, hevt.trans hacc.evt⟩
  · rw [fld_of_io hio, flag_eq, fld_setFld_apart _ 1 hapart, fld_setFld_same _ _ hfit']
    exact Nat.mod_eq_of_lt (hnext.trans hsize)
  · rw [fld_of_io hio, flag_eq, fld_setFld_same _ _ hfit]
    rfl

/-! ### Frames sent (R452, R454) -/

/-- A frame sent, the head of the ring at `head`. -/
def Dev.canSent (d : Dev) (k : Nat) (f : CanFrame) (head : Nat) : Dev :=
  let d := (d.setFld (CANXL_STAT_TEC k) (d.fld (CANXL_STAT_TEC k) - 1)).errorState k
  let d := d.setCan k { d.canOf k with sent := some f }
  ((d.setFld (CANXL_TXHEAD_HEAD k) head).flag (CANXL_ISTAT_TXF k)).canEvent k f

theorem canSent_leaves (d : Dev) (f : CanFrame) {head : Nat} (hhead : head < 4096) :
    (d.canSent k f head).fld (CANXL_TXHEAD_HEAD k) = head ∧ (d.canSent k f head).fld (CANXL_ISTAT_TXF k) = 1 ∧
    (d.canSent k f head).fld (CANXL_STAT_TEC k) = d.fld (CANXL_STAT_TEC k) - 1 ∧
    ((d.canSent k f head).canOf k).sent = some f := by
  have hap : ∀ k : Fin 4, (CANXL_ISTAT_TXF k).Apart (CANXL_TXHEAD_HEAD k) ∧ (CANXL_ISTAT_TXF k).Apart (CANXL_STAT_TEC k) ∧
      (CANXL_TXHEAD_HEAD k).Apart (CANXL_STAT_TEC k) ∧ (CANXL_STAT_ESTATE k).Apart (CANXL_STAT_TEC k) ∧
      (CANXL_ISTAT_TXF k).Fits ∧ (CANXL_TXHEAD_HEAD k).Fits ∧ (CANXL_STAT_TEC k).Fits := by decide
  obtain ⟨h1, h2, h3, h4, f1, f2, f3⟩ := hap k
  unfold Dev.canSent
  extract_lets x _ y
  have hx : x.fld (CANXL_STAT_TEC k) = d.fld (CANXL_STAT_TEC k) - 1 := by
    have hlt : d.fld (CANXL_STAT_TEC k) < 2 ^ 8 := fld_lt d _
    refine ((errorState_keeps _ k).2 _ h4).trans ((fld_setFld_same d _ f3).trans ?_)
    exact Nat.mod_eq_of_lt (by show _ < 2 ^ 8; omega)
  have hy : y.io = x.io ∧ (y.canOf k).sent = some f := ⟨rfl, congrArg CanSt.sent (canOf_setCan_same _ _ _)⟩
  clear_value y x
  obtain ⟨hio, hsent⟩ := hy
  have hcan : ∀ z : Dev, (z.canEvent k f).io = z.io ∧ (z.canEvent k f).can = z.can := fun z => by
    unfold Dev.canEvent
    split
    · exact ⟨rfl, rfl⟩
    · exact ⟨rfl, rfl⟩
  obtain ⟨hzio, hzcan⟩ := hcan ((y.setFld (CANXL_TXHEAD_HEAD k) head).flag (CANXL_ISTAT_TXF k))
  refine ⟨?_, ?_, ?_, ?_⟩
  · rw [fld_of_io hzio, flag_eq, fld_setFld_apart _ 1 h1, fld_setFld_same _ _ f2]
    exact Nat.mod_eq_of_lt hhead
  · rw [fld_of_io hzio, flag_eq, fld_setFld_same _ _ f1]
    rfl
  · rw [fld_of_io hzio, flag_eq, fld_setFld_apart _ 1 h2, fld_setFld_apart _ _ h3, fld_of_io hio]
    exact hx
  · unfold Dev.canOf
    rw [hzcan]
    exact hsent

/-- A sendable head goes out at once in an idle fabric, after its data has been read and its time written. -/
theorem canSendHead_idle {header : List Byte} (hi : d.fabricIdle)
    (hok : d.canSendable k (bitsOf (leNat (header.take 4)) 30 2) (leNat ((header.drop 4).take 4) % 4096)
      ((leNat (header.take 4)).testBit 29) = true) :
    ∃ y data, d.Accessed y ∧ d.canSendHead k header = .ok (y.canSent k (canOfHeader header data d.lanternTime)
      (ringNext (d.fld (CANXL_TXHEAD_HEAD k)) (d.fld (CANXL_TXCFG_SIZE k))
        (1 + (leNat ((header.drop 4).take 4) % 4096 + 15) / 16) % max 1 (d.fld (CANXL_TXCFG_SIZE k)))) := by
  unfold Dev.canSendHead
  extract_lets base size head w1 fmt len n start first a done
  rw [hi.spanWait, hi.spanWait, hi.spanWait, show d.canSendable k fmt len ((leNat (header.take 4)).testBit 29) = true from hok,
    Bool.not_true, if_neg Bool.false_ne_true]
  obtain ⟨x, hx⟩ : ∃ x, d.engineLoad mCan a (min len first) = x := ⟨_, rfl⟩
  have hacc : d.Accessed x.2.2 := hx ▸ (Dev.Accessed.refl d).engineLoad
  obtain ⟨y, hy⟩ : ∃ y, x.2.2.engineLoad mCan base (len - first) = y := ⟨_, rfl⟩
  have hacc' : d.Accessed y.2.2 := hy ▸ hacc.engineLoad
  have hlantern : y.2.2.lanternTime = d.lanternTime := congrArg (fun l : LanternSt => 16 * l.lt) hacc'.lantern
  refine ⟨(y.2.2.engineStore mCan (base + 16 * head + 8) (leBytes 8 d.lanternTime)).2, x.1 ++ y.1, hacc'.engineStore, ?_⟩
  obtain ⟨xb, xe, xd⟩ := x
  obtain ⟨yb, ye, yd⟩ := y
  rw [hx]
  dsimp only [Option.or]
  rw [hy]
  dsimp only
  rw [show yd.lanternTime = d.lanternTime from hlantern]
  rfl

/-! ### Bus-off (R455) -/

theorem goBusOff_leaves (hen : d.fld (CANXL_CFG_EN k) = 1) (hon : d.fld (CANXL_STAT_ESTATE k) ≠ 2) :
    let e := goBusOff k d
    e.fld (CANXL_STAT_ESTATE k) = 2 ∧ e.fld (CANXL_STAT_TEC k) = 255 ∧ e.fld (CANXL_ISTAT_BUSOFF k) = 1 ∧
    e.hasFault (fiCanBusoff + k) 0 = true := by
  have hrun : (!d.on (CANXL_CFG_EN k) || d.busOff k) = false := by
    rw [on_of_one hen, Dev.busOff, decide_eq_false hon]
    rfl
  have hap : ∀ k : Fin 4, (CANXL_ISTAT_BUSOFF k).Apart (CANXL_STAT_ESTATE k) ∧ (CANXL_ISTAT_BUSOFF k).Apart (CANXL_STAT_TEC k) ∧
      (CANXL_STAT_ESTATE k).Apart (CANXL_STAT_TEC k) ∧ (CANXL_ISTAT_BUSOFF k).Fits ∧ (CANXL_STAT_ESTATE k).Fits ∧
      (CANXL_STAT_TEC k).Fits := by decide
  obtain ⟨h1, h2, h3, f1, f2, f3⟩ := hap k
  intro e
  have he : e = ((((d.setFld (CANXL_STAT_TEC k) 255).setFld (CANXL_STAT_ESTATE k) 2).flag (CANXL_ISTAT_BUSOFF k)).present
      (fiCanBusoff + k) 0) := by
    unfold e goBusOff
    rw [hrun, if_neg Bool.false_ne_true]
  clear_value e
  rw [he]
  refine ⟨?_, ?_, ?_, (Dev.awaits_present _ _ (by decide)).hasFault⟩
  · rw [fld_present, flag_eq, fld_setFld_apart _ 1 h1, fld_setFld_same _ _ f2]
    rfl
  · rw [fld_present, flag_eq, fld_setFld_apart _ 1 h2, fld_setFld_apart _ 2 h3, fld_setFld_same _ _ f3]
    rfl
  · rw [fld_present, flag_eq, fld_setFld_same _ _ f1]
    rfl

theorem busRecovered_leaves (hoff : d.fld (CANXL_STAT_ESTATE k) = 2)
    (h : d.fld (CANXL_CFG_AUTOREC k) = 1 ∨ (d.canOf k).recovering = true) :
    let e := busRecovered k d
    e.fld (CANXL_STAT_ESTATE k) = 0 ∧ e.fld (CANXL_STAT_TEC k) = 0 ∧ e.fld (CANXL_STAT_REC k) = 0 := by
  have hrec : (d.busOff k && (d.on (CANXL_CFG_AUTOREC k) || (d.canOf k).recovering)) = true := by
    rw [Dev.busOff, decide_eq_true hoff, Bool.true_and, Bool.or_eq_true]
    exact h.imp_left on_of_one
  have hap : ∀ k : Fin 4, (CANXL_STAT_ESTATE k).Apart (CANXL_STAT_REC k) ∧ (CANXL_STAT_ESTATE k).Apart (CANXL_STAT_TEC k) ∧
      (CANXL_STAT_REC k).Apart (CANXL_STAT_TEC k) ∧ (CANXL_STAT_REC k).Fits ∧ (CANXL_STAT_ESTATE k).Fits ∧
      (CANXL_STAT_TEC k).Fits := by decide
  obtain ⟨h1, h2, h3, f1, f2, f3⟩ := hap k
  intro e
  obtain ⟨x, hx⟩ : ∃ x, e = (((d.setFld (CANXL_STAT_TEC k) 0).setFld (CANXL_STAT_REC k) 0).setFld (CANXL_STAT_ESTATE k) 0).setCan k x := by
    unfold e busRecovered
    rw [hrec, if_pos rfl]
    exact ⟨_, rfl⟩
  have hio : e.io = (((d.setFld (CANXL_STAT_TEC k) 0).setFld (CANXL_STAT_REC k) 0).setFld (CANXL_STAT_ESTATE k) 0).io := by
    rw [hx]
    rfl
  clear_value e
  refine ⟨?_, ?_, ?_⟩
  · rw [fld_of_io hio, fld_setFld_same _ _ f2]
    rfl
  · rw [fld_of_io hio, fld_setFld_apart _ _ h2, fld_setFld_apart _ _ h3, fld_setFld_same _ _ f3]
    rfl
  · rw [fld_of_io hio, fld_setFld_apart _ _ h1, fld_setFld_same _ _ f1]
    rfl

/-! ### The commands -/

theorem canReceive_leaves (f : CanFrame) (hen : d.fld (CANXL_CFG_EN k) = 1) (hon : d.fld (CANXL_STAT_ESTATE k) ≠ 2)
    (hfmt : f.fmt.val ≤ d.fld (CANXL_CFG_FMTS k)) (hnone : (d.canOf k).received = []) :
    let e := canReceive k f d
    let n := (rxBytes f).length / 16
    let room := ringFree (d.fld (CANXL_RXCFG_SIZE k)) (d.fld (CANXL_RXHEAD_HEAD k)) (d.fld (CANXL_RXTAIL_TAIL k))
    (f.crcOk = false ∨ d.canFilter k f.id.toNat = false →
      e.fld (CANXL_RXTAIL_TAIL k) = d.fld (CANXL_RXTAIL_TAIL k) ∧ e.mem = d.mem ∧ e.evt = d.evt ∧
      (f.crcOk = false → d.fld (CANXL_CFG_LOM k) = 0 →
        e.fld (CANXL_STAT_REC k) = min 255 (d.fld (CANXL_STAT_REC k) + 1))) ∧
    (f.crcOk = true → d.canFilter k f.id.toNat = true → room < n →
      e.fld (CANXL_STAT_RXLOST k) = min 255 (d.fld (CANXL_STAT_RXLOST k) + 1) ∧ e.mem = d.mem) ∧
    (f.crcOk = true → d.canFilter k f.id.toNat = true → n ≤ room → d.fabricIdle →
      d.fld (CANXL_RXTAIL_TAIL k) < d.fld (CANXL_RXCFG_SIZE k) →
        e.fld (CANXL_RXTAIL_TAIL k) = ringNext (d.fld (CANXL_RXTAIL_TAIL k)) (d.fld (CANXL_RXCFG_SIZE k)) n ∧
        e.fld (CANXL_ISTAT_RXF k) = 1 ∧
        e.evt.produced = d.evt.produced ++ (if f.evt then [{ prod := 458 + k, stamp := some f.sof }] else [])) := by
  obtain ⟨honly, hfld⟩ := recCounted_keeps d k f.crcOk
  have hap : ∀ k : Fin 4, ∀ g ∈ [CANXL_RXTAIL_TAIL k, CANXL_RXHEAD_HEAD k, CANXL_RXCFG_SIZE k, CANXL_STAT_RXLOST k],
      (CANXL_STAT_ESTATE k).Apart g ∧ (CANXL_STAT_REC k).Apart g := by decide
  have htail := hfld _ (hap k (CANXL_RXTAIL_TAIL k) (by simp)).1 (hap k (CANXL_RXTAIL_TAIL k) (by simp)).2
  have hhead := hfld _ (hap k (CANXL_RXHEAD_HEAD k) (by simp)).1 (hap k (CANXL_RXHEAD_HEAD k) (by simp)).2
  have hsize := hfld _ (hap k (CANXL_RXCFG_SIZE k) (by simp)).1 (hap k (CANXL_RXCFG_SIZE k) (by simp)).2
  have hlost := hfld _ (hap k (CANXL_STAT_RXLOST k) (by simp)).1 (hap k (CANXL_STAT_RXLOST k) (by simp)).2
  have hfilter : (d.recCounted k f.crcOk).canFilter k f.id.toNat = d.canFilter k f.id.toNat :=
    canFilter_of_fld (fun g hg => hfld g (.inl (Nat.ne_of_gt hg)) (.inl (Nat.ne_of_gt hg))) _
  have hbad : f.crcOk = false → d.fld (CANXL_CFG_LOM k) = 0 →
      (d.recCounted k f.crcOk).fld (CANXL_STAT_REC k) = min 255 (d.fld (CANXL_STAT_REC k) + 1) := fun h h0 => by
    rw [h]
    exact recCounted_bad h0
  intro e n room
  have he : e = _ := canReceive_running f hen hon hfmt
  rw [hfilter] at he
  clear_value e
  generalize d.recCounted k f.crcOk = x at *
  have hmem : x.mem = d.mem := by rw [honly]
  have hevt : x.evt = d.evt := by rw [honly]
  have hcan : (x.canOf k).received = [] := by
    rw [honly]
    exact hnone
  have hidle : d.fabricIdle → x.fabricIdle := fun h => by
    rw [honly]
    exact h
  obtain ⟨hvio, hvmem, hvevt, hvidle⟩ := canEvent_keeps x k f
  refine ⟨fun h => ?_, fun hcrc hmatch hfull => ?_, fun hcrc hmatch hroom hi ht => ?_⟩
  · have hno : (f.crcOk && d.canFilter k f.id.toNat) = false := by
      rw [Bool.and_eq_false_iff]
      exact h
    rw [hno, if_neg Bool.false_ne_true] at he
    rw [he]
    exact ⟨htail, hmem, hevt, hbad⟩
  · rw [hcrc, hmatch, Bool.and_true, if_pos rfl, hcan, List.nil_append] at he
    generalize x.canEvent k f = v at *
    have hstore := canStore_full (d := v) (k := k) (f := f) (by
      rw [fld_of_io hvio, fld_of_io hvio, fld_of_io hvio, htail, hhead, hsize]
      exact hfull)
    have hio : e.io = (v.count (CANXL_STAT_RXLOST k)).io := by
      rw [he, hstore]
      rfl
    have hemem : e.mem = v.mem := by
      rw [he, hstore]
      rfl
    have hfits : ∀ k : Fin 4, (CANXL_STAT_RXLOST k).Fits := by decide
    refine ⟨?_, hemem.trans (hvmem.trans hmem)⟩
    rw [fld_of_io hio, fld_count (hfits k), fld_of_io hvio, hlost]
    rfl
  · rw [hcrc, hmatch, Bool.and_true, if_pos rfl, hcan, List.nil_append] at he
    generalize x.canEvent k f = v at *
    have hsame : ∀ g : Fld, v.fld g = x.fld g := fld_of_io hvio
    obtain ⟨hetail, hrxf, heevt⟩ := canStore_room (d := v) (k := k) (f := f) (hvidle (hidle hi))
      (by rw [hsame, hsame, hsame, htail, hhead, hsize]; exact hroom)
      (by rw [hsame, hsame, htail, hsize]; exact ht)
    rw [← he, hsame, hsame, htail, hsize] at hetail
    rw [← he] at hrxf heevt
    exact ⟨hetail, hrxf, by rw [heevt, hvevt, hevt]⟩

/-- The controller takes part in the bus with a ring that is not empty. -/
theorem canSend_runs (hen : d.fld (CANXL_CFG_EN k) = 1) (hlom : d.fld (CANXL_CFG_LOM k) = 0)
    (hon : d.fld (CANXL_STAT_ESTATE k) ≠ 2) (hhead : d.fld (CANXL_TXHEAD_HEAD k) < d.fld (CANXL_TXCFG_SIZE k))
    (hne : d.fld (CANXL_TXHEAD_HEAD k) ≠ d.fld (CANXL_TXTAIL_TAIL k)) :
    (!(d.on (CANXL_CFG_EN k)) || d.on (CANXL_CFG_LOM k) || d.busOff k || decide (d.fld (CANXL_TXCFG_SIZE k) = 0)
      || decide (d.fld (CANXL_TXHEAD_HEAD k) = d.fld (CANXL_TXTAIL_TAIL k))) = false := by
  rw [on_of_one hen, on_of_zero hlom, Dev.busOff, decide_eq_false hon, decide_eq_false hne,
    decide_eq_false (by omega : ¬ d.fld (CANXL_TXCFG_SIZE k) = 0)]
  rfl

section
variable {header : List Byte} {d1 y : Dev}
  (hrun : (!(d.on (CANXL_CFG_EN k)) || d.on (CANXL_CFG_LOM k) || d.busOff k || decide (d.fld (CANXL_TXCFG_SIZE k) = 0)
    || decide (d.fld (CANXL_TXHEAD_HEAD k) = d.fld (CANXL_TXTAIL_TAIL k))) = false) (hi : d.fabricIdle)
include hrun hi

/-- A head without a gate is sent as it has been read. -/
theorem canSend_open (hgate : d.fld (CANXL_TXCFG_GATED k) = 0)
    (hsend : (d.engineLoad mCan (32 * d.fld (CANXL_TXBASE_BASE k) + 16 * d.fld (CANXL_TXHEAD_HEAD k)) 16).2.2.canSendHead k
      (d.engineLoad mCan (32 * d.fld (CANXL_TXBASE_BASE k) + 16 * d.fld (CANXL_TXHEAD_HEAD k)) 16).1 = .ok y) :
    canSend k d = y := by
  have hnot := engineLoad_not_held hi mCan (32 * d.fld (CANXL_TXBASE_BASE k) + 16 * d.fld (CANXL_TXHEAD_HEAD k)) 16
  unfold canSend
  extract_lets size head gated
  rw [hrun, if_neg Bool.false_ne_true]
  generalize d.engineLoad mCan (32 * d.fld (CANXL_TXBASE_BASE k) + 16 * d.fld (CANXL_TXHEAD_HEAD k)) 16 = x at hsend hnot ⊢
  obtain ⟨b, c, d1⟩ := x
  dsimp only at hsend ⊢
  rw [show gated = false from on_of_zero hgate, Bool.false_and, if_neg Bool.false_ne_true, hsend]
  cases c with
  | held h => exact absurd rfl (hnot h)
  | ok => rfl
  | error code => rfl

/-- A gated head without its trigger waits. -/
theorem canSend_gated (hgate : d.fld (CANXL_TXCFG_GATED k) = 1) (hnone : ∀ j < 16, d.latch (264 + 16 * k + j) = none) :
    canSend k d = d := by
  have hnot := engineLoad_not_held hi mCan (32 * d.fld (CANXL_TXBASE_BASE k) + 16 * d.fld (CANXL_TXHEAD_HEAD k)) 16
  unfold canSend
  extract_lets size head gated
  rw [hrun, if_neg Bool.false_ne_true]
  generalize d.engineLoad mCan (32 * d.fld (CANXL_TXBASE_BASE k) + 16 * d.fld (CANXL_TXHEAD_HEAD k)) 16 = x at hnot ⊢
  obtain ⟨b, c, d1⟩ := x
  dsimp only
  have hj : bitsOf (leNat ((b.drop 4).take 4)) 12 4 < 16 := Nat.mod_lt _ (by decide)
  rw [show gated = true from on_of_one hgate, hnone _ hj]
  cases c with
  | held h => exact absurd rfl (hnot h)
  | ok => rfl
  | error code => rfl

end

theorem canSend_empty (h : d.fld (CANXL_TXHEAD_HEAD k) = d.fld (CANXL_TXTAIL_TAIL k)) : canSend k d = d := by
  unfold canSend
  extract_lets size head
  rw [decide_eq_true (show head = d.fld (CANXL_TXTAIL_TAIL k) from h), Bool.or_true, if_pos rfl]

/-- A sendable head of a ring without a gate goes out, and its frame is stamped now. -/
theorem canSend_sends (hen : d.fld (CANXL_CFG_EN k) = 1) (hlom : d.fld (CANXL_CFG_LOM k) = 0)
    (hon : d.fld (CANXL_STAT_ESTATE k) ≠ 2) (hhead : d.fld (CANXL_TXHEAD_HEAD k) < d.fld (CANXL_TXCFG_SIZE k))
    (hne : d.fld (CANXL_TXHEAD_HEAD k) ≠ d.fld (CANXL_TXTAIL_TAIL k)) (hgate : d.fld (CANXL_TXCFG_GATED k) = 0)
    (hi : d.fabricIdle) {header : List Byte}
    (hheader : header = (d.engineLoad mCan (32 * d.fld (CANXL_TXBASE_BASE k) + 16 * d.fld (CANXL_TXHEAD_HEAD k)) 16).1)
    (hok : d.canSendable k (bitsOf (leNat (header.take 4)) 30 2) (leNat ((header.drop 4).take 4) % 4096)
      ((leNat (header.take 4)).testBit 29) = true) :
    let e := canSend k d
    e.fld (CANXL_TXHEAD_HEAD k) = ringNext (d.fld (CANXL_TXHEAD_HEAD k)) (d.fld (CANXL_TXCFG_SIZE k))
      (1 + (leNat ((header.drop 4).take 4) % 4096 + 15) / 16) % d.fld (CANXL_TXCFG_SIZE k) ∧
    e.fld (CANXL_ISTAT_TXF k) = 1 ∧ e.fld (CANXL_STAT_TEC k) = d.fld (CANXL_STAT_TEC k) - 1 ∧
    ∃ f, (e.canOf k).sent = some f ∧ f.sof = d.lanternTime ∧ f.id.toNat = leNat (header.take 4) % 2 ^ 29 := by
  have hopen := fun y => canSend_open (y := y) (canSend_runs hen hlom hon hhead hne) hi hgate
  have hacc : d.Accessed (d.engineLoad mCan (32 * d.fld (CANXL_TXBASE_BASE k) + 16 * d.fld (CANXL_TXHEAD_HEAD k)) 16).2.2 :=
    (Dev.Accessed.refl d).engineLoad
  rw [← hheader] at hopen
  generalize (d.engineLoad mCan (32 * d.fld (CANXL_TXBASE_BASE k) + 16 * d.fld (CANXL_TXHEAD_HEAD k)) 16).2.2 = d1 at hopen hacc
  have hoff : ∀ k : Fin 4, ∀ g ∈ [CANXL_CFG_FMTS k, CANXL_TXHEAD_HEAD k, CANXL_TXCFG_SIZE k, CANXL_STAT_TEC k], g.OffAccess := by
    decide
  have hfmts := hacc.fld _ (hoff k (CANXL_CFG_FMTS k) (by simp))
  have hh := hacc.fld _ (hoff k (CANXL_TXHEAD_HEAD k) (by simp))
  have hs := hacc.fld _ (hoff k (CANXL_TXCFG_SIZE k) (by simp))
  have ht := hacc.fld _ (hoff k (CANXL_STAT_TEC k) (by simp))
  have hlantern : d1.lanternTime = d.lanternTime := congrArg (fun l : LanternSt => 16 * l.lt) hacc.lantern
  have hok1 : d1.canSendable k (bitsOf (leNat (header.take 4)) 30 2) (leNat ((header.drop 4).take 4) % 4096)
      ((leNat (header.take 4)).testBit 29) = true := by
    rw [Dev.canSendable, hfmts]
    exact hok
  obtain ⟨y, data, hacc', hsend⟩ := canSendHead_idle (hacc.idle hi) hok1
  have htec := hacc'.fld _ (hoff k (CANXL_STAT_TEC k) (by simp))
  have hsize : d.fld (CANXL_TXCFG_SIZE k) < 2 ^ 12 := fld_lt d _
  have hmax : max 1 (d.fld (CANXL_TXCFG_SIZE k)) = d.fld (CANXL_TXCFG_SIZE k) := by omega
  rw [hh, hs, hlantern, hmax] at hsend
  obtain ⟨h1, h2, h3, h4⟩ := canSent_leaves (k := k) y (canOfHeader header data d.lanternTime)
    (head := ringNext (d.fld (CANXL_TXHEAD_HEAD k)) (d.fld (CANXL_TXCFG_SIZE k))
      (1 + (leNat ((header.drop 4).take 4) % 4096 + 15) / 16) % d.fld (CANXL_TXCFG_SIZE k))
    ((Nat.mod_lt _ (by omega)).trans hsize)
  rw [hopen _ hsend]
  exact ⟨h1, h2, by rw [h3, htec, ht], _, h4, rfl, BitVec.toNat_ofNat _ _⟩

end

/-- Settles O37: reception by what the ring and the filters make of it, sending by its gate, and bus-off by its registers. -/
theorem canControllers : Obligations.CanControllers := by
  intro s k d
  refine ⟨fun f => ⟨fun h => ?_, fun hen hon hfmt hnone => ?_⟩, ?_, fun hen hon => ?_, fun hoff => ⟨?_, fun h => ?_, fun hno hrec => ?_⟩⟩
  · refine completes_onDev (f := canReceive k f) rfl fun _ => if_pos ?_
    rcases h with h | h
    · rw [on_of_zero h]
      rfl
    · rw [Dev.busOff, decide_eq_true h, Bool.or_true, Bool.true_or]
  · obtain ⟨hno, hlost, hroom⟩ := canReceive_leaves f hen hon hfmt hnone
    exact ⟨fun h => completes_onDev (f := canReceive k f) rfl fun _ => hno h,
      fun h h' hr => completes_onDev (f := canReceive k f) rfl fun _ => hlost h h' hr,
      fun h h' hr hi ht => completes_onDev (f := canReceive k f) rfl fun _ => hroom h h' hr hi ht⟩
  · intro header len hen hlom hon hhead
    exact ⟨fun hne hgate hi hok => completes_onDev (f := canSend k) rfl fun _ =>
        canSend_sends hen hlom hon hhead hne hgate hi rfl hok,
      fun h => completes_onDev (f := canSend k) rfl fun _ => canSend_empty h,
      fun hgate hi hnone => completes_onDev (f := canSend k) rfl fun _ => by
        by_cases hne : d.fld (CANXL_TXHEAD_HEAD k) = d.fld (CANXL_TXTAIL_TAIL k)
        · exact canSend_empty hne
        · exact canSend_gated (canSend_runs hen hlom hon hhead hne) hi hgate hnone⟩
  · exact completes_onDev (f := goBusOff k) rfl fun _ => goBusOff_leaves hen hon
  · refine completes_onDev (f := startRecovery k) rfl fun _ => ?_
    have h : startRecovery k d = d.setCan k { d.canOf k with recovering := true } := if_pos (decide_eq_true hoff)
    rw [h]
    exact ⟨by rw [canOf_setCan_same], rfl⟩
  · exact completes_onDev (f := busRecovered k) rfl fun _ => busRecovered_leaves hoff h
  · refine completes_onDev (f := busRecovered k) rfl fun _ => if_neg ?_
    rw [on_of_zero hno, hrec, Bool.or_false, Bool.and_false]
    exact Bool.false_ne_true

end Sys2Proof.Machine
end

section
/-! PROOFS. BuoyLists: the Buoy ports' lists, the ends of their cycles, and the ring enumerated, broken and healed (R473,
R475 to R482, `Obligations.BuoyListsAndRing`). -/

set_option Elab.async false

namespace Sys2Proof.Machine

section
variable {d e : Dev} {k t : Fin 8}

theorem buoyOf_setBuoy_same (d : Dev) (k : Nat) (x : BuoySt) : (d.setBuoy k x).buoyOf k = x := arrGet_arrSet_same _ _ _ _

/-- One flag set: the device's registers alone change, and of them one word. -/
theorem flag_leaves {f : Fld} (hf : f.Fits) (hw : f.w = 1) :
    (d.flag f).fld f = 1 ∧ d.flag f = { d with io := (d.flag f).io } ∧ d.SameWords (d.flag f) [f.addr] := by
  refine ⟨?_, rfl, fun a ha => word_setFld_ne d f 1 fun h => ha (List.mem_singleton.2 h)⟩
  rw [flag_eq, fld_setFld_same d 1 hf, hw]
  rfl

theorem cmdref_leaves (d : Dev) (k : Fin 8) : (d.flag (BUOY_ISTAT_CMDREF k)).fld (BUOY_ISTAT_CMDREF k) = 1 ∧
    d.flag (BUOY_ISTAT_CMDREF k) = { d with io := (d.flag (BUOY_ISTAT_CMDREF k)).io } ∧
    d.SameWords (d.flag (BUOY_ISTAT_CMDREF k)) [0x101020 + 0x1000 * k] :=
  flag_leaves (show 8 + 1 ≤ 32 by decide) rfl

/-! ### Starting (R473) -/

theorem startLists_one (d : Dev) (k t : Fin 8) : startLists k (BitVec.ofNat 8 (2 ^ t.val)).toNat d = Dev.startWrite k d t := by
  have hbits : ∀ t : Fin 8, bitsList (BitVec.ofNat 8 (2 ^ t.val)).toNat 8 = [t.val] := by decide
  rw [startLists, hbits]
  rfl

/-- List `t` runs, as `startWrite` judges it. -/
theorem runs_iff {o : Option BuoyCycle} {t : Nat} :
    (match o with | some c => decide (c.list = t) | none => false) = true ↔ ∃ c, o = some c ∧ c.list = t := by
  cases o with
  | none => simp
  | some c => simp

theorem startWrite_leaves (d : Dev) (k t : Fin 8) :
    let busy := (∃ c, (d.buoyOf k).cycle = some c ∧ c.list = t) ∨ t.val ∈ d.buoyWaiting k
    let e := Dev.startWrite k d t
    (busy → e.fld (BUOY_ISTAT_CMDREF k) = 1 ∧ e = { d with io := e.io } ∧ d.SameWords e [0x101020 + 0x1000 * k]) ∧
    (¬ busy → (e.buoyOf k).starts = (d.buoyOf k).starts ++ [(t.val, d.lanternTime)] ∧ e = { d with buoy := e.buoy }) := by
  intro busy e
  have he : e = if busy then d.flag (BUOY_ISTAT_CMDREF k)
      else d.setBuoy k { d.buoyOf k with starts := (d.buoyOf k).starts ++ [(t.val, d.lanternTime)] } := by
    unfold e Dev.startWrite
    extract_lets b runs
    refine if_congr ?_ rfl rfl
    rw [Bool.or_eq_true, List.contains_iff_mem]
    exact or_congr_left runs_iff
  clear_value e
  refine ⟨fun h => ?_, fun h => ?_⟩
  · rw [he, if_pos h]
    exact cmdref_leaves d k
  · rw [he, if_neg h, buoyOf_setBuoy_same]
    exact ⟨rfl, rfl⟩

/-- The cycle that list `t` starts with (R473). -/
def Dev.freshCycle (d : Dev) (k t stamp : Nat) (trig : Option Trig) : BuoyCycle :=
  { list := t, base := 16 * d.fld (BUOY_LISTBASE_BASE k t), count := d.fld (BUOY_LISTCNT_COUNT k t), stamp := stamp
    trig := trig, earliest := d.lanternTime }

theorem startCycle_leaves (d : Dev) (k t : Fin 8) (stamp : Nat) (trig : Option Trig) :
    let e := d.startCycle k t stamp trig
    e.fld (BUOY_STAT_BUSY k) = 1 ∧ e.fld (BUOY_STAT_LIST k) = t ∧
    e.fld (BUOY_STAT_LINE k) = (if (d.buoyOf k).healed then 0 else d.fld (BUOY_STAT_LINE k)) ∧
    (e.buoyOf k).cycle = some (d.freshCycle k t stamp trig) ∧ e = { d with io := e.io, buoy := e.buoy } := by
  have hap : ∀ k : Fin 8, (BUOY_STAT_LIST k).Apart (BUOY_STAT_BUSY k) ∧ (BUOY_STAT_LIST k).Apart (BUOY_STAT_LINE k) ∧
      (BUOY_STAT_BUSY k).Apart (BUOY_STAT_LINE k) ∧ (BUOY_STAT_LIST k).Fits ∧ (BUOY_STAT_BUSY k).Fits ∧
      (BUOY_STAT_LINE k).Fits := by decide
  obtain ⟨h1, h2, h3, f1, f2, f3⟩ := hap k
  unfold Dev.startCycle
  extract_lets c x _ y e
  have hc : c = d.freshCycle k t stamp trig := rfl
  have hx : x.fld (BUOY_STAT_LINE k) = (if (d.buoyOf k).healed then 0 else d.fld (BUOY_STAT_LINE k)) ∧ d.OnlyIo x := by
    unfold x
    split
    · rw [fld_setFld_same _ _ f3]
      exact ⟨rfl, (Dev.OnlyIo.refl d).setFld⟩
    · exact ⟨rfl, .refl d⟩
  have hy : y.io = x.io ∧ (y.buoyOf k).cycle = some c ∧ y = { x with buoy := y.buoy } := by
    refine ⟨rfl, ?_, rfl⟩
    unfold y
    rw [buoyOf_setBuoy_same]
  clear_value c x y
  obtain ⟨hline, honly⟩ := hx
  obtain ⟨hio, hcycle, hrest⟩ := hy
  refine ⟨?_, ?_, ?_, hcycle.trans (congrArg some hc), ?_⟩
  · unfold e
    rw [fld_setFld_apart _ _ h1, flag_eq, fld_setFld_same _ _ f2]
    rfl
  · unfold e
    rw [fld_setFld_same _ _ f1]
    exact Nat.mod_eq_of_lt t.isLt
  · unfold e
    rw [fld_setFld_apart _ _ h2, flag_eq, fld_setFld_apart _ _ h3, fld_of_io hio, hline]
  · have he : e = { y with io := e.io } := rfl
    rw [hrest, honly] at he
    rw [he]

section
variable {rest : List Nat}

theorem listStart_start {x : Nat × Nat} (hidle : d.buoyIdle k = true) (hwait : d.buoyWaiting k = t.val :: rest)
    (hf : (d.buoyOf k).starts.find? (fun x => x.1 = t.val) = some x) : listStart k d =
      (d.setBuoy k { d.buoyOf k with starts := (d.buoyOf k).starts.erase x }).startCycle k t x.2 none := by
  unfold listStart
  rw [hidle, hwait, Bool.not_true, if_neg Bool.false_ne_true]
  dsimp only
  rw [hf]

theorem listStart_trigger {g : Trig} (hidle : d.buoyIdle k = true) (hwait : d.buoyWaiting k = t.val :: rest)
    (hf : (d.buoyOf k).starts.find? (fun x => x.1 = t.val) = none) (hg : d.latch (200 + 8 * k + t) = some g) :
    listStart k d = (d.setLatch (200 + 8 * k + t) none).startCycle k t g.stamp (some g) := by
  unfold listStart
  rw [hidle, hwait, Bool.not_true, if_neg Bool.false_ne_true]
  dsimp only
  rw [hf, hg]

/-- A list that waits without a START waits by its trigger. -/
theorem latch_of_waiting (hwait : d.buoyWaiting k = t.val :: rest) (hno : ∀ x ∈ (d.buoyOf k).starts, x.1 ≠ t.val) :
    ∃ g, d.latch (200 + 8 * k + t) = some g := by
  have hmem : t.val ∈ d.buoyWaiting k := hwait ▸ List.mem_cons_self
  obtain ⟨-, h⟩ := List.mem_filter.1 hmem
  rw [Bool.or_eq_true] at h
  rcases h with h | h
  · obtain ⟨x, hx, he⟩ := List.any_eq_true.1 h
    exact absurd (of_decide_eq_true he) (hno x hx)
  · exact Option.isSome_iff_exists.1 h

theorem listStart_leaves (hidle : d.buoyIdle k = true) (hwait : d.buoyWaiting k = t.val :: rest) :
    let e := listStart k d
    e.fld (BUOY_STAT_BUSY k) = 1 ∧ e.fld (BUOY_STAT_LIST k) = t ∧
    e.fld (BUOY_STAT_LINE k) = (if (d.buoyOf k).healed then 0 else d.fld (BUOY_STAT_LINE k)) ∧
    ∃ c, (e.buoyOf k).cycle = some c ∧ c.list = t ∧ c.base = 16 * d.fld (BUOY_LISTBASE_BASE k t) ∧
      c.count = d.fld (BUOY_LISTCNT_COUNT k t) ∧ c.next = 0 ∧ c.txs = [] ∧
      ((∃ x ∈ (d.buoyOf k).starts, x.1 = t.val) →
        (t.val, c.stamp) ∈ (d.buoyOf k).starts ∧ e = { d with io := e.io, buoy := e.buoy }) ∧
      ((∀ x ∈ (d.buoyOf k).starts, x.1 ≠ t.val) → ∃ g, d.latch (200 + 8 * k + t) = some g ∧ c.stamp = g.stamp ∧
        c.trig = some g ∧ e.latch (200 + 8 * k + t) = none) := by
  intro e
  cases hf : (d.buoyOf k).starts.find? (fun x => x.1 = t.val) with
  | some x =>
    have hx : x ∈ (d.buoyOf k).starts ∧ x.1 = t.val := ⟨List.mem_of_find?_eq_some hf, by simpa using List.find?_some hf⟩
    have he : e = _ := listStart_start hidle hwait hf
    clear_value e
    obtain ⟨hbusy, hlist, hline, hcycle, hrest⟩ := startCycle_leaves
      (d.setBuoy k { d.buoyOf k with starts := (d.buoyOf k).starts.erase x }) k t x.2 none
    rw [← he, buoyOf_setBuoy_same] at hline
    rw [← he] at hbusy hlist hcycle hrest
    have hmem : (t.val, x.2) ∈ (d.buoyOf k).starts := by
      rw [← hx.2]
      exact hx.1
    refine ⟨hbusy, hlist, hline, _, hcycle, rfl, rfl, rfl, rfl, rfl, fun _ => ⟨hmem, hrest⟩, fun h => absurd hx.2 (h x hx.1)⟩
  | none =>
    have hno : ∀ x ∈ (d.buoyOf k).starts, x.1 ≠ t.val := fun x hx h =>
      List.find?_eq_none.1 hf x hx (decide_eq_true h)
    obtain ⟨g, hg⟩ := latch_of_waiting hwait hno
    have he : e = _ := listStart_trigger hidle hwait hf hg
    clear_value e
    obtain ⟨hbusy, hlist, hline, hcycle, hrest⟩ := startCycle_leaves (d.setLatch (200 + 8 * k + t) none) k t g.stamp (some g)
    rw [← he] at hbusy hlist hline hcycle hrest
    have hlatch : e.latch (200 + 8 * k + t) = none := by
      rw [hrest]
      exact latch_setLatch_same (d := d) _ none
    exact ⟨hbusy, hlist, hline, _, hcycle, rfl, rfl, rfl, rfl, rfl, fun ⟨x, hx, h⟩ => absurd h (hno x hx),
      fun _ => ⟨g, hg, rfl, rfl, hlatch⟩⟩

end

/-! ### Waits and ends of cycles (R475, R476, R481) -/

theorem buoyWaitEnd_leaves {c : BuoyCycle} {u : Nat} (hc : (d.buoyOf k).cycle = some c) (hu : c.waitUntil = some u)
    (h : u ≤ d.lanternTime) : ((buoyWaitEnd k d).buoyOf k).cycle = some { c with waitUntil := none } ∧
      buoyWaitEnd k d = { d with buoy := (buoyWaitEnd k d).buoy } := by
  have he : buoyWaitEnd k d = d.setCycle k (some { c with waitUntil := none }) := by
    rw [buoyWaitEnd, hc]
    dsimp only
    rw [hu]
    exact if_pos h
  rw [he, Dev.setCycle, buoyOf_setBuoy_same]
  exact ⟨rfl, rfl⟩

/-- The port with its cycle's end in its registers. -/
def Dev.cycleEnded (d : Dev) (k : Nat) (c : BuoyCycle) (early : Bool) : Dev :=
  let d := (d.setFld (BUOY_LAST_ABORT k) (if early then 1 else 0)).setFld (BUOY_LAST_LIST k) c.list
  let d := d.setFld (BUOY_LAST_FAILED k) (min 255 c.failed)
  let d := d.setFld (BUOY_LAST_CYCLES k) (d.fld (BUOY_LAST_CYCLES k) + 1)
  ((d.setFld (BUOY_STAT_BUSY k) 0).flag (BUOY_ISTAT_CYC k)).setCycle k none

theorem cycleEnded_leaves (d : Dev) (k : Fin 8) (c : BuoyCycle) (early : Bool) :
    let e := d.cycleEnded k c early
    (e.buoyOf k).cycle = none ∧ e.fld (BUOY_STAT_BUSY k) = 0 ∧ e.fld (BUOY_ISTAT_CYC k) = 1 ∧
    e.fld (BUOY_LAST_ABORT k) = early.toNat ∧ e.fld (BUOY_LAST_LIST k) = c.list % 8 ∧
    e.fld (BUOY_LAST_FAILED k) = min 255 c.failed ∧
    e.fld (BUOY_LAST_CYCLES k) = (d.fld (BUOY_LAST_CYCLES k) + 1) % 65536 ∧
    e.fld (BUOY_ISTAT_MEMERR k) = d.fld (BUOY_ISTAT_MEMERR k) ∧ e.island = d.island := by
  have hap : ∀ k : Fin 8, List.Pairwise Fld.Apart [BUOY_ISTAT_CYC k, BUOY_STAT_BUSY k, BUOY_LAST_CYCLES k,
      BUOY_LAST_FAILED k, BUOY_LAST_LIST k, BUOY_LAST_ABORT k, BUOY_ISTAT_MEMERR k] ∧ ∀ f ∈ [BUOY_ISTAT_CYC k, BUOY_STAT_BUSY k,
      BUOY_LAST_CYCLES k, BUOY_LAST_FAILED k, BUOY_LAST_LIST k, BUOY_LAST_ABORT k], f.Fits := by decide
  have hcycles : ∀ k : Fin 8, (BUOY_LAST_FAILED k).Apart (BUOY_LAST_CYCLES k) ∧
      (BUOY_LAST_LIST k).Apart (BUOY_LAST_CYCLES k) ∧ (BUOY_LAST_ABORT k).Apart (BUOY_LAST_CYCLES k) := by decide
  obtain ⟨hapart, hfits⟩ := hap k
  simp only [List.pairwise_cons, List.forall_mem_cons] at hapart hfits
  intro e
  have hio : e.io = ((((((d.setFld (BUOY_LAST_ABORT k) (if early then 1 else 0)).setFld (BUOY_LAST_LIST k) c.list).setFld
      (BUOY_LAST_FAILED k) (min 255 c.failed)).setFld (BUOY_LAST_CYCLES k) (d.fld (BUOY_LAST_CYCLES k) + 1)).setFld
      (BUOY_STAT_BUSY k) 0).setFld (BUOY_ISTAT_CYC k) 1).io := by
    unfold e Dev.cycleEnded
    simp only [fld_setFld_apart, hcycles]
    rfl
  have hfailed : min 255 c.failed < 256 := by omega
  refine ⟨congrArg BuoySt.cycle (buoyOf_setBuoy_same _ _ _), ?_, ?_, ?_, ?_, ?_, ?_, ?_, rfl⟩
  all_goals
    rw [fld_of_io hio]
    simp only [fld_setFld_apart, fld_setFld_same, hapart, hfits]
  · rfl
  · rfl
  · cases early <;> rfl
  · rfl
  · exact Nat.mod_eq_of_lt hfailed
  · rfl

section
variable {c : BuoyCycle}

/-- With no transaction and no descriptor left, a cycle ends in its registers and the event alone. -/
theorem endCycle_empty (d : Dev) (k : Nat) (early : Bool) (htxs : c.txs = []) (hnext : c.count ≤ c.next) :
    d.endCycle k c early = .ok ((d.cycleEnded k c early).consequence (450 + k) (200 + 8 * k + c.list) c.trig
      (some d.lanternTime)) := by
  have hleft : c.txs.map (·.j) ++ (List.range c.count).drop c.next = [] := by
    rw [htxs, List.drop_eq_nil_of_le (by rw [List.length_range]; exact hnext)]
    rfl
  unfold Dev.endCycle
  rw [hleft]
  rfl

theorem cycleComplete_leaves (hc : (d.buoyOf k).cycle = some c) (hmem : c.memFail = false) (hstop : c.stopped = false)
    (htxs : c.txs = []) (hnext : c.count ≤ c.next) (hen : d.fld (BUOY_CFG_EN k) = 1) :
    let e := cycleComplete k d
    (e.buoyOf k).cycle = none ∧ e.fld (BUOY_STAT_BUSY k) = 0 ∧ e.fld (BUOY_ISTAT_CYC k) = 1 ∧
    e.fld (BUOY_LAST_ABORT k) = 0 ∧ e.fld (BUOY_LAST_LIST k) = c.list % 8 ∧ e.fld (BUOY_LAST_FAILED k) = min 255 c.failed ∧
    e.fld (BUOY_LAST_CYCLES k) = (d.fld (BUOY_LAST_CYCLES k) + 1) % 65536 := by
  have he : cycleComplete k d = (d.cycleEnded k c false).consequence (450 + k) (200 + 8 * k + c.list) c.trig
      (some d.lanternTime) := by
    rw [cycleComplete, hc]
    dsimp only
    rw [hmem, hstop, on_of_one hen, decide_eq_true hnext, htxs, endCycle_empty d k false htxs hnext]
    rfl
  obtain ⟨hcyc, hbusy, hflag, habort, hlist, hfailed, hcycles, -, -⟩ := cycleEnded_leaves d k c false
  intro e
  have hio : e.io = (d.cycleEnded k c false).io := Eq.trans (congrArg Dev.io he) rfl
  have hbuoy : e.buoyOf k = (d.cycleEnded k c false).buoyOf k := Eq.trans (congrArg (Dev.buoyOf · k) he) rfl
  clear_value e
  rw [hbuoy]
  iterate 6 rw [fld_of_io hio]
  exact ⟨hcyc, hbusy, hflag, habort, hlist, hfailed, hcycles⟩

theorem memFailure_leaves (hc : (d.buoyOf k).cycle = some c) (hmem : c.memFail = true) (htxs : c.txs = [])
    (hnext : c.count ≤ c.next) :
    let e := memFailure k d
    (e.buoyOf k).cycle = none ∧ e.fld (BUOY_STAT_BUSY k) = 0 ∧ e.fld (BUOY_ISTAT_MEMERR k) = 1 ∧
    e.fld (BUOY_LAST_ABORT k) = 1 ∧ e.hasFault fiBuoyMem k = true := by
  have hk : k.val < 65536 := k.isLt.trans (by decide)
  obtain ⟨x, hx⟩ : ∃ x, x = (d.flag (BUOY_ISTAT_MEMERR k)).present fiBuoyMem k := ⟨_, rfl⟩
  have hflag : x.fld (BUOY_ISTAT_MEMERR k) = 1 := by
    rw [hx, fld_present]
    exact (flag_leaves (f := BUOY_ISTAT_MEMERR k) (show 6 + 1 ≤ 32 by decide) rfl).1
  have hfault : x.hasFault fiBuoyMem k = true := by
    rw [hx]
    exact (Dev.awaits_present _ _ hk).hasFault
  have he : memFailure k d = (x.cycleEnded k c true).consequence (450 + k) (200 + 8 * k + c.list) c.trig
      (some x.lanternTime) := by
    rw [memFailure, hc]
    dsimp only
    rw [hmem, if_pos rfl, ← hx, endCycle_empty x k true htxs hnext]
    rfl
  obtain ⟨hcyc, hbusy, -, habort, -, -, -, hmemerr, hisland⟩ := cycleEnded_leaves x k c true
  intro e
  have hio : e.io = (x.cycleEnded k c true).io := Eq.trans (congrArg Dev.io he) rfl
  have hbuoy : e.buoyOf k = (x.cycleEnded k c true).buoyOf k := Eq.trans (congrArg (Dev.buoyOf · k) he) rfl
  have hisl : e.island = x.island := (congrArg Dev.island he).trans hisland
  clear_value e
  rw [hbuoy]
  iterate 3 rw [fld_of_io hio]
  refine ⟨hcyc, hbusy, hmemerr.trans hflag, habort, ?_⟩
  rw [Dev.hasFault, hisl]
  exact hfault

/-! ### Breaks (R479, R480) -/

theorem ringHeal_leaves {f : List Byte} {o r : Bool} (hs : (d.buoyOf k).sent = some (f, o, r)) (hor : o ≠ r)
    (hen : d.fld (BUOY_CFG_EN k) = 1) (hline : d.fld (BUOY_STAT_LINE k) = 1) :
    let e := ringHeal k d
    e.fld (BUOY_ISTAT_HEAL k) = 1 ∧ (e.buoyOf k).healed = true ∧ e.fld (BUOY_STAT_LINE k) = 1 ∧
    e = { d with io := e.io, buoy := e.buoy } ∧ d.SameWords e [0x101020 + 0x1000 * k] := by
  have hap : ∀ k : Fin 8, (BUOY_ISTAT_HEAL k).Apart (BUOY_STAT_LINE k) := by decide
  obtain ⟨hflag, -, hwords⟩ := flag_leaves (d := d) (f := BUOY_ISTAT_HEAL k) (show 3 + 1 ≤ 32 by decide) rfl
  have he : ringHeal k d = (d.flag (BUOY_ISTAT_HEAL k)).setBuoy k { d.buoyOf k with healed := true } := by
    rw [ringHeal, hs]
    dsimp only
    rw [on_of_one hen, Dev.buoyLine, on_of_one hline, bne_iff_ne.2 hor, hs]
    rfl
  intro e
  have hrest : e = { d with io := e.io, buoy := e.buoy } := by
    rw [show e = _ from he]
    rfl
  have hhealed : (e.buoyOf k).healed = true := by
    rw [show e = _ from he, buoyOf_setBuoy_same]
  have hio : e.io = (d.flag (BUOY_ISTAT_HEAL k)).io := Eq.trans (congrArg Dev.io he) rfl
  clear_value e
  refine ⟨(fld_of_io hio _).trans hflag, hhealed, ?_, hrest, fun a ha => ?_⟩
  · rw [fld_of_io hio, flag_eq, fld_setFld_apart _ _ (hap k)]
    exact hline
  · rw [Dev.word, hio]
    exact hwords a ha

end

theorem again_resend (x : BuoyTx) : x.resend.again = true := by
  unfold BuoyTx.resend
  split
  next h => exact h
  · rfl

/-- The port with a break noted and presented. -/
def Dev.broken (d : Dev) (k : Nat) : Dev := (d.flag (BUOY_ISTAT_BREAK k)).present (fiBuoyBreak + k) 0

theorem broken_rest (d : Dev) (k : Fin 8) : d.broken k = { d with io := (d.broken k).io, island := (d.broken k).island } := by
  rfl

theorem hasFault_broken (d : Dev) (k : Fin 8) : (d.broken k).hasFault (fiBuoyBreak + k) 0 = true := by
  rw [Dev.broken]
  exact (Dev.awaits_present _ _ (by decide)).hasFault

theorem flag_broken (d : Dev) (k : Fin 8) : (d.broken k).fld (BUOY_ISTAT_BREAK k) = 1 := by
  rw [Dev.broken, fld_present]
  exact (flag_leaves (f := BUOY_ISTAT_BREAK k) (show 2 + 1 ≤ 32 by decide) rfl).1

theorem fld_broken (d : Dev) (k : Fin 8) {f : Fld} (hf : (BUOY_ISTAT_BREAK k).Apart f) : (d.broken k).fld f = d.fld f := by
  rw [Dev.broken, fld_present]
  exact fld_setFld_apart d 1 hf

/-- The port as a break leaves it in LINE mode. -/
def Dev.inLine (d : Dev) (k : Nat) (b : BuoySt) : Dev :=
  let d := d.flag (BUOY_STAT_LINE k)
  d.setBuoy k { b with
    silent := 0, healed := false
    cycle := b.cycle.map (fun c => { c with txs := c.txs.map BuoyTx.resend, earliest := d.lanternTime }) }

section
variable (hen : d.fld (BUOY_CFG_EN k) = 1) (hring : d.fld (BUOY_STAT_LINE k) = 0)
include hen hring

theorem ringBreak_line (hok : d.fld (BUOY_CFG_LINEOK k) = 1) : ringBreak k d = (d.broken k).inLine k (d.buoyOf k) := by
  have hap : ∀ k : Fin 8, (BUOY_ISTAT_BREAK k).Apart (BUOY_CFG_LINEOK k) := by decide
  have hlineok : (d.broken k).on (BUOY_CFG_LINEOK k) = true := on_of_one ((fld_broken d k (hap k)).trans hok)
  have hx : (d.flag (BUOY_ISTAT_BREAK k)).present (fiBuoyBreak + k) 0 = d.broken k := rfl
  unfold ringBreak
  rw [on_of_one hen, Dev.buoyLine, on_of_zero hring]
  dsimp only
  have hb : (d.broken k).buoyOf k = d.buoyOf k := by rw [broken_rest]; rfl
  rw [hx, hlineok, hb, Bool.not_true, Bool.or_false, if_neg Bool.false_ne_true, if_pos rfl]
  generalize d.broken k = x
  rfl

theorem ringBreak_stops (hok : d.fld (BUOY_CFG_LINEOK k) = 0) (hnone : (d.buoyOf k).cycle = none) :
    ringBreak k d = (d.broken k).setFld (BUOY_CFG_EN k) 0 := by
  have hap : ∀ k : Fin 8, (BUOY_ISTAT_BREAK k).Apart (BUOY_CFG_LINEOK k) := by decide
  have hlineok : (d.broken k).on (BUOY_CFG_LINEOK k) = false := on_of_zero ((fld_broken d k (hap k)).trans hok)
  have hcycle : ((d.broken k).buoyOf k).cycle = none := by
    rw [broken_rest]
    exact hnone
  have hx : (d.flag (BUOY_ISTAT_BREAK k)).present (fiBuoyBreak + k) 0 = d.broken k := rfl
  unfold ringBreak
  rw [on_of_one hen, Dev.buoyLine, on_of_zero hring]
  dsimp only
  rw [hx, hlineok, hcycle]
  generalize d.broken k = x
  rfl

theorem ringBreak_leaves_line (hok : d.fld (BUOY_CFG_LINEOK k) = 1) :
    let e := ringBreak k d
    e.fld (BUOY_ISTAT_BREAK k) = 1 ∧ e.hasFault (fiBuoyBreak + k) 0 = true ∧
    e = { d with io := e.io, buoy := e.buoy, island := e.island } ∧ e.fld (BUOY_STAT_LINE k) = 1 ∧ e.fld (BUOY_CFG_EN k) = 1 ∧
    (∀ c, (e.buoyOf k).cycle = some c → ∀ x ∈ c.txs, x.again = true) ∧
    (e.buoyOf k).cycle.map (fun c => c.txs.length) = (d.buoyOf k).cycle.map (fun c => c.txs.length) := by
  have hap : ∀ k : Fin 8, (BUOY_STAT_LINE k).Apart (BUOY_ISTAT_BREAK k) ∧ (BUOY_STAT_LINE k).Apart (BUOY_CFG_EN k) ∧
      (BUOY_ISTAT_BREAK k).Apart (BUOY_CFG_EN k) ∧ (BUOY_STAT_LINE k).Fits := by decide
  obtain ⟨h1, h2, h3, hfits⟩ := hap k
  have hbreak := flag_broken d k
  have hfault := hasFault_broken d k
  have hrest := broken_rest d k
  have hen' := (fld_broken d k h3).trans hen
  intro e
  have he : e = _ := ringBreak_line hen hring hok
  clear_value e
  generalize d.broken k = x at *
  have hio : e.io = (x.setFld (BUOY_STAT_LINE k) 1).io := by rw [he]; rfl
  have hisl : e.island = x.island := by rw [he]; rfl
  have hcycle : (e.buoyOf k).cycle = (d.buoyOf k).cycle.map
      (fun c => { c with txs := c.txs.map BuoyTx.resend, earliest := (x.flag (BUOY_STAT_LINE k)).lanternTime }) := by
    rw [he, Dev.inLine, buoyOf_setBuoy_same]
  have hx : e = { x with io := e.io, buoy := e.buoy } := by rw [he]; rfl
  have hall : e = { d with io := e.io, buoy := e.buoy, island := e.island } := by
    rw [hrest] at hx
    rw [hx]
  clear he hx hrest
  refine ⟨?_, ?_, hall, ?_, ?_, fun c hc y hy => ?_, ?_⟩
  · rw [fld_of_io hio, fld_setFld_apart _ _ h1, hbreak]
  · rw [Dev.hasFault, hisl]
    exact hfault
  · rw [fld_of_io hio, fld_setFld_same _ _ hfits]
    rfl
  · rw [fld_of_io hio, fld_setFld_apart _ _ h2, hen']
  · rw [hcycle] at hc
    obtain ⟨c', -, rfl⟩ := Option.map_eq_some_iff.1 hc
    obtain ⟨z, -, rfl⟩ := List.mem_map.1 hy
    exact again_resend z
  · rw [hcycle, Option.map_map]
    congr 1
    funext c
    exact List.length_map _

theorem ringBreak_leaves_stopped (hok : d.fld (BUOY_CFG_LINEOK k) = 0) (hnone : (d.buoyOf k).cycle = none) :
    let e := ringBreak k d
    e.fld (BUOY_ISTAT_BREAK k) = 1 ∧ e.hasFault (fiBuoyBreak + k) 0 = true ∧
    e = { d with io := e.io, buoy := e.buoy, island := e.island } ∧ e.fld (BUOY_CFG_EN k) = 0 ∧
    e.fld (BUOY_STAT_LINE k) = 0 := by
  have hap : ∀ k : Fin 8, (BUOY_CFG_EN k).Apart (BUOY_ISTAT_BREAK k) ∧ (BUOY_CFG_EN k).Apart (BUOY_STAT_LINE k) ∧
      (BUOY_ISTAT_BREAK k).Apart (BUOY_STAT_LINE k) ∧ (BUOY_CFG_EN k).Fits := by decide
  obtain ⟨h1, h2, h3, hfits⟩ := hap k
  have hbreak := flag_broken d k
  have hfault := hasFault_broken d k
  have hrest := broken_rest d k
  have hring' := (fld_broken d k h3).trans hring
  intro e
  have he : e = _ := ringBreak_stops hen hring hok hnone
  clear_value e
  generalize d.broken k = x at *
  have hx : e = { x with io := e.io } := by rw [he]; rfl
  have hall : e = { d with io := e.io, buoy := e.buoy, island := e.island } := by
    rw [hrest] at hx
    rw [hx]
  clear hx hrest
  refine ⟨?_, ?_, hall, ?_, ?_⟩
  · rw [he, fld_setFld_apart _ _ h1, hbreak]
  · rw [Dev.hasFault, show e.island = x.island by rw [he]; rfl]
    exact hfault
  · rw [he, fld_setFld_same _ _ hfits]
    rfl
  · rw [he, fld_setFld_apart _ _ h2, hring']

end

/-! ### Enumeration (R478) -/

/-- Entry `i` of the partner table is as an enumeration of `n` partners leaves it. -/
def Dev.Enumerated (d : Dev) (k n i : Nat) : Prop :=
  d.fld (BUOY_T_EN k i) = (if i < n then 1 else 0) ∧ d.fld (BUOY_T_SEQ k i) = 0 ∧ d.fld (BUOY_T_FAILS k i) = 0 ∧
  d.fld (BUOY_T_SIDE k i) = 0 ∧ (i < n → d.fld (BUOY_T_TMO k i) = 2 ∧ d.fld (BUOY_T_RETRY k i) = 1)

/-- The device `e` is `d` but for the words of port `k`'s partner table. -/
structure Dev.TableOnly (d : Dev) (k : Nat) (e : Dev) : Prop where
  only : d.OnlyIo e
  word : ∀ a, a < 0x101800 + 0x1000 * k → e.word a = d.word a

theorem Dev.TableOnly.setFld {x : Dev} {k : Nat} {f : Fld} {v : Nat} (h : d.TableOnly k x) (hf : 0x101800 + 0x1000 * k ≤ f.addr) :
    d.TableOnly k (x.setFld f v) :=
  ⟨h.only.setFld, fun a ha => (word_setFld_ne x f v (by omega)).trans (h.word a ha)⟩

section
variable (d : Dev) (k n i : Nat)

theorem tableOnly_enumEntry {x : Dev} (h : d.TableOnly k x) : d.TableOnly k (x.enumEntry k n i) := by
  have ht : ∀ {lo w : Nat}, 0x101800 + 0x1000 * k ≤ (Fld.mk (0x101800 + 0x1000 * k + 0x4 * i) lo w).addr := by
    intro lo w
    exact Nat.le_add_right _ _
  have hseq := ((h.setFld (f := BUOY_T_SEQ k i) (v := 0) ht).setFld (f := BUOY_T_FAILS k i) (v := 0) ht).setFld
    (f := BUOY_T_SIDE k i) (v := 0) ht
  unfold Dev.enumEntry
  extract_lets y
  have hy : d.TableOnly k y := hseq
  clear_value y
  split
  · exact ((hy.setFld (f := BUOY_T_EN k i) (v := 1) ht).setFld (f := BUOY_T_TMO k i) ht).setFld (f := BUOY_T_RETRY k i) ht
  · exact hy.setFld (f := BUOY_T_EN k i) ht

theorem enumerated_enumEntry : (d.enumEntry k n i).Enumerated k n i := by
  unfold Dev.Enumerated Dev.enumEntry BUOY_T_EN BUOY_T_SEQ BUOY_T_FAILS BUOY_T_SIDE BUOY_T_TMO BUOY_T_RETRY
  split
  next h => simp [h, flag_eq, fld_setFld_off, fld_setFld_cut]
  next h => simp [h, fld_setFld_off, fld_setFld_cut]

theorem enumEntry_keeps {j : Nat} (hij : j ≠ i) : (d.enumEntry k n j).word (0x101800 + 0x1000 * k + 0x4 * i) =
    d.word (0x101800 + 0x1000 * k + 0x4 * i) := by
  have hne : 0x101800 + 0x1000 * k + 0x4 * i ≠ 0x101800 + 0x1000 * k + 0x4 * j := by omega
  unfold Dev.enumEntry BUOY_T_EN BUOY_T_SEQ BUOY_T_FAILS BUOY_T_SIDE BUOY_T_TMO BUOY_T_RETRY
  split
  · simp only [flag_eq, word_setFld_ne, ne_eq, hne, not_false_eq_true]
  · simp only [word_setFld_ne, ne_eq, hne, not_false_eq_true]

theorem enumerated_of_word {e : Dev}
    (h : e.word (0x101800 + 0x1000 * k + 0x4 * i) = d.word (0x101800 + 0x1000 * k + 0x4 * i)) (hd : d.Enumerated k n i) :
    e.Enumerated k n i := by
  have hfld : ∀ {lo w : Nat}, e.fld ⟨0x101800 + 0x1000 * k + 0x4 * i, lo, w⟩ = d.fld ⟨0x101800 + 0x1000 * k + 0x4 * i, lo, w⟩ :=
    fld_of_word _ h
  unfold Dev.Enumerated BUOY_T_EN BUOY_T_SEQ BUOY_T_FAILS BUOY_T_SIDE BUOY_T_TMO BUOY_T_RETRY at *
  iterate 6 rw [hfld]
  exact hd

/-- Each entry is written on its own: one entry's write leaves an enumerated entry as it is. -/
theorem enumerated_foldl : ∀ (l : List Nat) (d : Dev), i ∈ l ∨ d.Enumerated k n i →
    (l.foldl (Dev.enumEntry k n) d).Enumerated k n i
  | [], _, h => h.resolve_left List.not_mem_nil
  | j :: t, d, h => by
    refine enumerated_foldl t (d.enumEntry k n j) ?_
    by_cases hj : j = i
    · exact .inr (hj ▸ enumerated_enumEntry d k n j)
    · exact h.imp (fun hm => (List.mem_cons.1 hm).resolve_left (Ne.symm hj))
        (enumerated_of_word d k n i (enumEntry_keeps d k n i hj))

/-- The partner table written, and nothing else of the registers. -/
theorem enumTable_leaves : (∀ i < 512, (d.enumTable k n).Enumerated k n i) ∧
    (∀ a, a < 0x101800 + 0x1000 * k → (d.enumTable k n).word a = d.word a) ∧
    ((d.enumTable k n).buoyOf k).cycle = (d.buoyOf k).cycle ∧ (d.enumTable k n).island = d.island := by
  have htable : d.TableOnly k ((List.range 512).foldl (Dev.enumEntry k n) d) :=
    foldl_keeps (d.TableOnly k) _ (fun x j hx => tableOnly_enumEntry d k n j hx) _ d ⟨.refl d, fun _ _ => rfl⟩
  have hentries : ∀ i < 512, ((List.range 512).foldl (Dev.enumEntry k n) d).Enumerated k n i := fun i hi =>
    enumerated_foldl k n i _ d (.inl (List.mem_range.2 hi))
  unfold Dev.enumTable
  generalize (List.range 512).foldl (Dev.enumEntry k n) d = x at *
  refine ⟨fun i hi => enumerated_of_word x k n i rfl (hentries i hi), fun a ha => htable.word a ha, ?_, ?_⟩
  · rw [buoyOf_setBuoy_same]
  · show x.island = d.island
    rw [htable.only]

end

/-- An enumeration's partners noted: too many of them presented, their number and their table's entries written. -/
def Dev.enumNoted (d : Dev) (k n : Nat) (many : Prop) [Decidable many] : Dev :=
  let d := if many then (d.flag (BUOY_ISTAT_TOOMANY k)).present fiBuoyEnum k else d
  let d := d.setFld (BUOY_STAT_COUNT k) n
  (d.enumTable k n).flag (BUOY_ISTAT_ENUMDONE k)

theorem enumNoted_leaves (d : Dev) (k : Fin 8) {n : Nat} (hn : n ≤ 512) (many : Prop) [Decidable many] :
    let e := d.enumNoted k n many
    e.fld (BUOY_ISTAT_ENUMDONE k) = 1 ∧ e.fld (BUOY_STAT_ENUMBUSY k) = d.fld (BUOY_STAT_ENUMBUSY k) ∧
    (e.buoyOf k).cycle = (d.buoyOf k).cycle ∧ e.fld (BUOY_RLAT_RLAT k) = d.fld (BUOY_RLAT_RLAT k) ∧
    e.fld (BUOY_STAT_COUNT k) = n ∧ (many → e.fld (BUOY_ISTAT_TOOMANY k) = 1 ∧ e.hasFault fiBuoyEnum k = true) ∧
    ∀ i < 512, e.Enumerated k n i := by
  have hk : k.val < 65536 := k.isLt.trans (by decide)
  have hcount : n % 2 ^ 10 = n := Nat.mod_eq_of_lt (by omega)
  unfold Dev.enumNoted
  extract_lets x y e
  have he : e = (y.enumTable k n).flag (BUOY_ISTAT_ENUMDONE k) := rfl
  clear_value e
  subst he
  have hx : x.fld (BUOY_STAT_ENUMBUSY k) = d.fld (BUOY_STAT_ENUMBUSY k) ∧ x.fld (BUOY_RLAT_RLAT k) = d.fld (BUOY_RLAT_RLAT k) ∧
      (x.buoyOf k).cycle = (d.buoyOf k).cycle ∧
      (many → x.fld (BUOY_ISTAT_TOOMANY k) = 1 ∧ x.hasFault fiBuoyEnum k = true) := by
    unfold x
    split
    · refine ⟨?_, ?_, rfl, fun _ => ⟨?_, (Dev.awaits_present _ _ hk).hasFault⟩⟩
      all_goals
        simp [BUOY_STAT_ENUMBUSY, BUOY_RLAT_RLAT, BUOY_ISTAT_TOOMANY, fld_setFld_off, fld_setFld_cut]
    next h => exact ⟨rfl, rfl, rfl, fun h' => absurd h' h⟩
  clear_value x
  obtain ⟨hbusy, hrlat, hcycle, hmany⟩ := hx
  obtain ⟨htable, hwords, htcycle, hisland⟩ := enumTable_leaves y k n
  have hlow : ∀ f : Fld, f.addr < 0x101800 + 0x1000 * k → (y.enumTable k n).fld f = y.fld f := fun f hf =>
    fld_of_word f (hwords _ hf)
  have hap : ∀ k : Fin 8, ∀ f ∈ [BUOY_STAT_ENUMBUSY k, BUOY_RLAT_RLAT k, BUOY_STAT_COUNT k, BUOY_ISTAT_TOOMANY k],
      (BUOY_ISTAT_ENUMDONE k).Apart f ∧ f.addr < 0x101800 + 0x1000 * k := by decide
  have hap' : ∀ k : Fin 8, ∀ f ∈ [BUOY_STAT_ENUMBUSY k, BUOY_RLAT_RLAT k, BUOY_ISTAT_TOOMANY k],
      (BUOY_STAT_COUNT k).Apart f := by decide
  have hkeep : ∀ f ∈ [BUOY_STAT_ENUMBUSY k, BUOY_RLAT_RLAT k, BUOY_STAT_COUNT k, BUOY_ISTAT_TOOMANY k],
      ((y.enumTable k n).flag (BUOY_ISTAT_ENUMDONE k)).fld f = y.fld f := fun f hf => by
    rw [flag_eq, fld_setFld_apart _ _ (hap k f hf).1, hlow f (hap k f hf).2]
  have hy : ∀ f ∈ [BUOY_STAT_ENUMBUSY k, BUOY_RLAT_RLAT k, BUOY_ISTAT_TOOMANY k], y.fld f = x.fld f := fun f hf => by
    unfold y
    rw [fld_setFld_apart _ _ (hap' k f hf)]
  have hycount : y.fld (BUOY_STAT_COUNT k) = n := by
    unfold y
    exact (fld_setFld_cut x n).trans hcount
  have hyrest : (y.buoyOf k).cycle = (x.buoyOf k).cycle ∧ y.island = x.island := ⟨rfl, rfl⟩
  clear_value y
  generalize y.enumTable k n = z at *
  refine ⟨(flag_leaves (f := BUOY_ISTAT_ENUMDONE k) (show 4 + 1 ≤ 32 by decide) rfl).1, ?_, ?_, ?_, ?_, fun h => ⟨?_, ?_⟩,
    fun i hi => enumerated_of_word z k n i ?_ (htable i hi)⟩
  · rw [hkeep _ (by simp), hy _ (by simp), hbusy]
  · exact (htcycle.trans hyrest.1).trans hcycle
  · rw [hkeep _ (by simp), hy _ (by simp), hrlat]
  · rw [hkeep _ (by simp), hycount]
  · rw [hkeep _ (by simp), hy _ (by simp), (hmany h).1]
  · have hisl : (z.flag (BUOY_ISTAT_ENUMDONE k)).island = x.island := hisland.trans hyrest.2
    rw [Dev.hasFault, hisl]
    exact (hmany h).2
  · have hdone : (BUOY_ISTAT_ENUMDONE k).addr = 0x101020 + 0x1000 * k := rfl
    exact word_setFld_ne _ _ _ (by omega)

/-! ### The run of an enumeration -/

theorem Dev.Accessed.buoy (h : d.Accessed e) : e.buoy = d.buoy :=
  show e.butAccess.buoy = d.butAccess.buoy from congrArg Dev.buoy h.rest

theorem Dev.Accessed.enumRecords {k : Nat} : ∀ {l : List (BitVec 64 × BitVec 16)} {e : Dev} {base : Nat}, d.Accessed e →
    d.Accessed (e.enumRecords k base l)
  | [], _, _, h => h
  | _ :: _, _, _, h => h.engineStore.enumRecords

/-- The port as an enumeration begins to run: no longer busy, the broadcast SEQ advanced. -/
def Dev.enumStarted (d : Dev) (k : Nat) : Dev := ((d.setFld (BUOY_STAT_ENUMBUSY k) 0).takeSeq k 1023).2

theorem enumStarted_leaves (d : Dev) (k : Fin 8) : (d.enumStarted k).io = (d.setFld (BUOY_STAT_ENUMBUSY k) 0).io ∧
    ((d.enumStarted k).buoyOf k).cycle = (d.buoyOf k).cycle ∧ (d.fabricIdle → (d.enumStarted k).fabricIdle) := by
  have he : d.enumStarted k = (d.setFld (BUOY_STAT_ENUMBUSY k) 0).setBuoy k
      { d.buoyOf k with bseq := ((d.buoyOf k).bseq + 1) % 16 } := rfl
  rw [he]
  refine ⟨rfl, ?_, id⟩
  rw [buoyOf_setBuoy_same]

/-- An enumeration whose CLRADDR does not return. -/
def Dev.enumEmpty (d : Dev) (k : Nat) : Dev := (d.setFld (BUOY_STAT_COUNT k) 0).flag (BUOY_ISTAT_ENUMDONE k)

theorem enumEmpty_leaves (d : Dev) (k : Fin 8) : (d.enumEmpty k).fld (BUOY_ISTAT_ENUMDONE k) = 1 ∧
    (d.enumEmpty k).fld (BUOY_STAT_ENUMBUSY k) = d.fld (BUOY_STAT_ENUMBUSY k) ∧ (d.enumEmpty k).buoy = d.buoy ∧
    (d.enumEmpty k).fld (BUOY_STAT_COUNT k) = 0 := by
  have hap : ∀ k : Fin 8, (BUOY_ISTAT_ENUMDONE k).Apart (BUOY_STAT_ENUMBUSY k) ∧
      (BUOY_ISTAT_ENUMDONE k).Apart (BUOY_STAT_COUNT k) ∧ (BUOY_STAT_COUNT k).Apart (BUOY_STAT_ENUMBUSY k) ∧
      (BUOY_ISTAT_ENUMDONE k).Fits ∧ (BUOY_STAT_COUNT k).Fits := by decide
  obtain ⟨h1, h2, h3, f1, f2⟩ := hap k
  unfold Dev.enumEmpty
  refine ⟨?_, ?_, rfl, ?_⟩
  · rw [flag_eq, fld_setFld_same _ _ f1]
    rfl
  · rw [flag_eq, fld_setFld_apart _ _ h1, fld_setFld_apart _ _ h3]
  · rw [flag_eq, fld_setFld_apart _ _ h2, fld_setFld_same _ _ f2]
    rfl

theorem enumRun_none {ring : EnumRing} (h : ring.rlat = none) : d.enumRun k ring =
    .ok ((d.enumStarted k).enumEmpty k) := by
  unfold Dev.enumRun
  rw [h]
  rfl

theorem enumRun_some {ring : EnumRing} {r : Nat} (hi : d.fabricIdle) (h : ring.rlat = some r) : d.enumRun k ring =
    .ok ((((d.enumStarted k).setFld (BUOY_RLAT_RLAT k) r).enumRecords k (16 * d.fld (BUOY_ENUMBUF_BASE k))
      (ring.partners.take 512)).enumNoted k (ring.partners.take 512).length (512 < ring.partners.length)) := by
  have hwait := ((enumStarted_leaves d k).2.2 hi).spanWait (buoyMaster k) (16 * d.fld (BUOY_ENUMBUF_BASE k))
    (16 * (ring.partners.take 512).length) true
  unfold Dev.enumStarted at *
  unfold Dev.enumRun
  rw [h]
  dsimp only
  rw [hwait]
  rfl

/-- What an enumeration leaves of port `k` where its ring is `ring` (R478). -/
def Dev.EnumDone (d : Dev) (k : Nat) (ring : EnumRing) (e : Dev) : Prop :=
  e.fld (BUOY_ISTAT_ENUMDONE k) = 1 ∧ e.fld (BUOY_STAT_ENUMBUSY k) = 0 ∧ (e.buoyOf k).cycle = (d.buoyOf k).cycle ∧
  (ring.rlat = none → e.fld (BUOY_STAT_COUNT k) = 0) ∧
  ∀ r < 2 ^ 24, ring.rlat = some r → e.fld (BUOY_RLAT_RLAT k) = r ∧
    e.fld (BUOY_STAT_COUNT k) = min 512 ring.partners.length ∧
    (512 < ring.partners.length → e.fld (BUOY_ISTAT_TOOMANY k) = 1 ∧ e.hasFault fiBuoyEnum k = true) ∧
    ∀ i < 512, e.Enumerated k (min 512 ring.partners.length) i

theorem enumRun_leaves (ring : EnumRing) (hi : d.fabricIdle) :
    ∃ e, d.enumRun k ring = .ok e ∧ d.EnumDone k ring e := by
  obtain ⟨hio, hcycle, hidle⟩ := enumStarted_leaves d k
  have hbusy : (d.enumStarted k).fld (BUOY_STAT_ENUMBUSY k) = 0 := by
    rw [fld_of_io hio]
    exact fld_setFld_cut d 0
  have hnone := enumRun_none (d := d) (k := k) (ring := ring)
  have hsome := fun r => enumRun_some (k := k) (ring := ring) (r := r) hi
  generalize d.enumStarted k = y at *
  cases hr : ring.rlat with
  | none =>
    obtain ⟨hdone, hbusy', hbuoy, hcount⟩ := enumEmpty_leaves y k
    refine ⟨y.enumEmpty k, hnone hr, hdone, hbusy'.trans hbusy, ?_, fun _ => hcount, fun r _ h => absurd (hr.symm.trans h) nofun⟩
    rw [Dev.buoyOf, hbuoy]
    exact hcycle
  | some r =>
    have hrun := hsome r hr
    have hlen : (ring.partners.take 512).length = min 512 ring.partners.length := List.length_take
    rw [hlen] at hrun
    have hacc : (y.setFld (BUOY_RLAT_RLAT k) r).Accessed
        ((y.setFld (BUOY_RLAT_RLAT k) r).enumRecords k (16 * d.fld (BUOY_ENUMBUF_BASE k))
          (ring.partners.take 512)) := (Dev.Accessed.refl _).enumRecords
    generalize (y.setFld (BUOY_RLAT_RLAT k) r).enumRecords k (16 * d.fld (BUOY_ENUMBUF_BASE k))
      (ring.partners.take 512) = x at hrun hacc
    have hoff : ∀ k : Fin 8, (BUOY_STAT_ENUMBUSY k).OffAccess ∧ (BUOY_RLAT_RLAT k).OffAccess ∧
        (BUOY_RLAT_RLAT k).Apart (BUOY_STAT_ENUMBUSY k) := by decide
    obtain ⟨hoffBusy, hoffRlat, hapart⟩ := hoff k
    have hxbusy := (hacc.fld _ hoffBusy).trans ((fld_setFld_apart _ _ hapart).trans hbusy)
    have hxrlat := (hacc.fld _ hoffRlat).trans (fld_setFld_cut _ r)
    have hxcycle : (x.buoyOf k).cycle = (d.buoyOf k).cycle := by
      rw [← hcycle, Dev.buoyOf, hacc.buoy]
      rfl
    obtain ⟨hdone, hbusy', hcycle', hrlat, hcount, hmany, htable⟩ :=
      enumNoted_leaves x k (Nat.min_le_left 512 ring.partners.length) (512 < ring.partners.length)
    refine ⟨_, hrun, hdone, hbusy'.trans hxbusy, hcycle'.trans hxcycle, fun h => absurd (hr.symm.trans h) nofun, fun r' hlt h => ?_⟩
    obtain rfl : r = r' := Option.some.inj (hr.symm.trans h)
    exact ⟨(hrlat.trans hxrlat).trans (Nat.mod_eq_of_lt hlt), hcount, hmany, htable⟩

theorem enumGo_leaves (ring : EnumRing) (hi : d.fabricIdle) (hb : d.fld (BUOY_STAT_ENUMBUSY k) = 1) :
    d.EnumDone k ring (d.enumGo k ring) := by
  obtain ⟨e, hrun, hdone⟩ := enumRun_leaves (k := k) ring hi
  rw [Dev.enumGo, on_of_one hb, hi.1, hrun]
  exact hdone

theorem enumerate_leaves (ring : EnumRing) (hi : d.fabricIdle)
    (h : d.fld (BUOY_STAT_ENUMBUSY k) = 1 ∨ (d.buoyIdle k = true ∧ d.fld (BUOY_STAT_LINE k) = 0)) :
    d.EnumDone k ring (enumerate k ring d) := by
  have hlt : d.fld (BUOY_STAT_ENUMBUSY k) < 2 ^ 1 := fld_lt d _
  unfold enumerate
  by_cases hb : d.fld (BUOY_STAT_ENUMBUSY k) = 1
  · rw [on_of_one hb, if_pos rfl]
    exact enumGo_leaves ring hi hb
  · obtain ⟨hidle, hline⟩ := h.resolve_left hb
    have hwrite : d.enumWrite k = d.flag (BUOY_STAT_ENUMBUSY k) := by
      rw [Dev.enumWrite, hidle, Dev.buoyLine, on_of_zero hline]
      rfl
    rw [on_of_zero (by omega : d.fld (BUOY_STAT_ENUMBUSY k) = 0), if_neg Bool.false_ne_true, hwrite]
    exact enumGo_leaves (d := d.flag (BUOY_STAT_ENUMBUSY k)) ring hi (fld_flag d)

/-- An enumeration refused: nothing runs, and CMDREF alone is set. -/
theorem enumerate_refused (ring : EnumRing) (h : d.buoyIdle k = false ∨ d.fld (BUOY_STAT_LINE k) = 1)
    (hb : d.fld (BUOY_STAT_ENUMBUSY k) = 0) : enumerate k ring d = d.flag (BUOY_ISTAT_CMDREF k) := by
  have hap : ∀ k : Fin 8, (BUOY_ISTAT_CMDREF k).Apart (BUOY_STAT_ENUMBUSY k) := by decide
  have hno : (d.buoyIdle k && !d.buoyLine k) = false := by
    rcases h with h | h
    · rw [h, Bool.false_and]
    · rw [Dev.buoyLine, on_of_one h, Bool.not_true, Bool.and_false]
  have hoff : (d.flag (BUOY_ISTAT_CMDREF k)).on (BUOY_STAT_ENUMBUSY k) = false :=
    on_of_zero ((fld_setFld_apart d 1 (hap k)).trans hb)
  rw [enumerate, on_of_zero hb, if_neg Bool.false_ne_true, Dev.enumWrite, hno, if_neg Bool.false_ne_true, Dev.enumGo, hoff]
  rfl

end

/-- Settles O38: lists by what starts them, cycles by what is left of them, the ring by its enumeration, its break and its
healing. -/
theorem buoyListsAndRing : Obligations.BuoyListsAndRing := by
  refine ⟨fun s k t => ?_, fun s k => ?_⟩
  · intro d
    refine ⟨?_, fun rest hidle hwait => completes_onClock (f := listStart k) rfl fun _ _ => listStart_leaves hidle hwait,
      fun c u hc hu h => completes_onClock (f := buoyWaitEnd k) rfl fun _ _ => buoyWaitEnd_leaves hc hu h,
      fun c hc hmem hstop htxs hnext hen => completes_onClock (f := cycleComplete k) rfl fun _ _ =>
        cycleComplete_leaves hc hmem hstop htxs hnext hen,
      fun c hc hmem htxs hnext => completes_onClock (f := memFailure k) rfl fun _ _ => memFailure_leaves hc hmem htxs hnext⟩
    intro busy
    refine completes_onDev (f := startLists k (BitVec.ofNat 8 (2 ^ t.val)).toNat) rfl fun _ => ?_
    rw [startLists_one]
    exact startWrite_leaves d k t
  · intro d
    refine ⟨fun ring hi h => completes_onDev (f := enumerate k ring) rfl fun _ => enumerate_leaves ring hi h,
      fun ring h hb => completes_onDev (f := enumerate k ring) rfl fun _ => ?_,
      fun hen hring hor => completes_onClock (f := ringBreak k) rfl fun _ _ => ?_,
      fun f o r hs hor hen hline => completes_onClock (f := ringHeal k) rfl fun _ _ => ringHeal_leaves hs hor hen hline⟩
    · rw [enumerate_refused ring h hb]
      exact cmdref_leaves d k
    · have hlt : d.fld (BUOY_CFG_LINEOK k) < 2 ^ 1 := fld_lt d _
      rcases Nat.lt_or_ge 0 (d.fld (BUOY_CFG_LINEOK k)) with hok | hok
      · have hone : d.fld (BUOY_CFG_LINEOK k) = 1 := by omega
        obtain ⟨hbreak, hfault, hrest, hafter⟩ := ringBreak_leaves_line hen hring hone
        exact ⟨hbreak, hfault, hrest, fun _ => hafter, fun h => absurd (hone.symm.trans h) (by decide)⟩
      · have hzero : d.fld (BUOY_CFG_LINEOK k) = 0 := by omega
        have hnone := hor.resolve_left fun h => absurd (hzero.symm.trans h) (by decide)
        obtain ⟨hbreak, hfault, hrest, hafter⟩ := ringBreak_leaves_stopped hen hring hzero hnone
        exact ⟨hbreak, hfault, hrest, fun h => absurd (hzero.symm.trans h) (by decide), fun _ => hafter⟩

end Sys2Proof.Machine
end

section
/-! PROOFS. SignedAnswers: what journaling a block and answering it leave alone (R420, R494, R496, R507), and what the end
of a session and of a grant leaves (R506, R553). -/

set_option Elab.async false

namespace Sys2Proof.Machine

section
variable {d e : Dev}

/-! ### Notes: registers of commands, the journal -/

/-- The registers in which commands and signed blocks are noted: CMDSTAT, REFUSED, LASTCMD, ISTAT and SIGCNT of TRUST, and those
of the journal. -/
def noteRegs : List Nat := [0x000008, 0x000028, 0x110038, 0x110040, 0x110048, 0x120018, 0x120048]

/-- `e` is `d` with commands noted in registers and in the journal. -/
structure Dev.Noted (d e : Dev) : Prop where
  rest : e.butJournal = d.butJournal
  regs : d.Regs e noteRegs

theorem Dev.Noted.refl (d : Dev) : d.Noted d := ⟨rfl, .refl d _⟩

theorem Dev.Noted.trans {f : Dev} (h : d.Noted e) (h' : e.Noted f) : d.Noted f :=
  ⟨h'.rest.trans h.rest, h.regs.trans h'.regs⟩

section
variable (h : d.Noted e)
include h

theorem Dev.Noted.setFld {f : Fld} {v : Nat} (hf : f.addr ∈ noteRegs := by decide) : d.Noted (e.setFld f v) :=
  ⟨(butJournal_setFld e f v).trans h.rest, h.regs.setFld f v hf⟩

theorem Dev.Noted.journal {type : Nat} {args : List Nat} {body : List Byte} : d.Noted (e.journal type args body) :=
  ⟨(journal_frame e type args body).1.trans h.rest, h.regs.trans ((journal_frame e type args body).2.mono (by decide))⟩

theorem Dev.Noted.present {i v : Nat} : d.Noted (e.present i v) := ⟨(butJournal_present e i v).trans h.rest, h.regs.present i v⟩

theorem Dev.Noted.cmdStat {code status : Nat} : d.Noted (e.cmdStat code status) :=
  ⟨(cmdStat_frame e code status).1.trans h.rest, h.regs.trans ((cmdStat_frame e code status).2.2.2.mono (by decide))⟩

theorem Dev.Noted.refuse {code : Nat} {prot : Bool} : d.Noted (e.refuse code prot) :=
  ⟨(refuse_frame e code prot).1.trans h.rest, h.regs.trans ((refuse_frame e code prot).2.mono (by decide))⟩

theorem Dev.Noted.persist : e.persist = d.persist := persist_of_butMode (butMode_of_butJournal h.rest)
theorem Dev.Noted.trust : e.trust = d.trust := trust_of_butMode (butMode_of_butJournal h.rest)
theorem Dev.Noted.ticks : e.ticks = d.ticks := ticks_of_butMode (butMode_of_butJournal h.rest)
theorem Dev.Noted.start : e.start = d.start := start_of_butMode (butMode_of_butJournal h.rest)
theorem Dev.Noted.eth : e.eth = d.eth := show e.butJournal.eth = d.butJournal.eth from congrArg Dev.eth h.rest

theorem Dev.Noted.fld {f : Fld} (hf : f.addr ∉ noteRegs := by decide) : e.fld f = d.fld f := h.regs.fld f hf

theorem Dev.Noted.mode : e.mode = d.mode := h.fld

end

theorem Dev.Noted.ite {f : Dev} {c : Prop} {_ : Decidable c} (he : d.Noted e) (hf : d.Noted f) : d.Noted (if c then e else f) := by
  split
  · exact he
  · exact hf

/-! ### Messages sent by the island (R445, R496) -/

/-- The device without the journal, the switch, the replies of the Tender wire, and the epoch. -/
def Dev.butSent (d : Dev) : Dev :=
  { d.butJournal with eth := {}, tdr := {}, persist := { d.persist with epoch := 0 } }

/-- `e` is `d` after replies and messages of the island. -/
structure Dev.Sent (d e : Dev) : Prop where
  rest : e.butSent = d.butSent
  regs : d.Regs e sealRegs

theorem Dev.Sent.refl (d : Dev) : d.Sent d := ⟨rfl, .refl d _⟩

theorem Dev.Sent.trans {f : Dev} (h : d.Sent e) (h' : e.Sent f) : d.Sent f := ⟨h'.rest.trans h.rest, h.regs.trans h'.regs⟩

section
variable (h : d.Sent e)
include h

theorem Dev.Sent.trust : e.trust = d.trust := show e.butSent.trust = d.butSent.trust from congrArg Dev.trust h.rest
theorem Dev.Sent.start : e.start = d.start := show e.butSent.start = d.butSent.start from congrArg Dev.start h.rest

/-- Of the retained state, the epoch alone changes. -/
theorem Dev.Sent.persist : e.persist = { d.persist with epoch := e.persist.epoch } := by
  have hp : ({ e.persist with epoch := 0 } : Persist) = { d.persist with epoch := 0 } :=
    show e.butSent.persist = d.butSent.persist from congrArg Dev.persist h.rest
  exact congrArg (fun p : Persist => { p with epoch := e.persist.epoch }) hp

theorem Dev.Sent.fld {f : Fld} (hf : f.addr ∉ sealRegs := by decide) : e.fld f = d.fld f := h.regs.fld f hf

theorem Dev.Sent.withEth {x : EthSt} : d.Sent { e with eth := x } := ⟨h.rest, h.regs.same rfl⟩

end

/-- Forwarding changes the switch alone. -/
theorem forward_only (d : Dev) (port : Nat) (f : Frame) (pcp ns : Nat) :
    d.forward port f pcp ns = { d with eth := (d.forward port f pcp ns).eth } := by
  rw [forward_eq]
  generalize ([0, 1].filter (fun q => (d.lookup f.dst).testBit q && q != port && d.portUp q)).map
    (fun q => ({ port := q, pcp := pcp, frame := f } : Egress)) = xs
  generalize (if (d.lookup f.dst).testBit 2 = true ∧ port ≠ 2 then _ else _ : List HostFrame) = hs
  obtain ⟨x, l, honly⟩ := drainPorts_only (d.delivered xs hs)
  rw [honly]
  rfl

theorem epochWrap_sent (d : Dev) : d.Sent (epochWrap d) := by
  by_cases h : d.eth.wrapped = true
  · rw [epochWrap_wrapped h]
    obtain ⟨hbut, hregs⟩ := journal_frame d.epochTaken 0x25 [(d.persist.epoch + 1) % 2 ^ 24] []
    refine ⟨?_, ((Dev.Regs.refl d _).same (f := d.epochTaken) rfl).trans hregs⟩
    have hp : ∀ x : Dev, x.butJournal = d.epochTaken.butJournal → x.butSent = d.epochTaken.butSent := fun x hx =>
      congrArg (fun y : Dev => { y with eth := {}, tdr := {}, persist := { y.persist with epoch := 0 } }) hx
    exact (hp _ hbut).trans rfl
  · rw [epochWrap, if_neg h]
    exact .refl d

theorem sendSigned_sent (d : Dev) (keyid dst : Nat) (payload : List Byte) : d.Sent (d.sendSigned keyid dst payload) := by
  unfold Dev.sendSigned
  split
  · exact .refl d
  next k _ =>
    extract_lets x f
    have hx : d.Sent x := epochWrap_sent d
    clear_value x
    split
    · rw [forward_only]
      exact hx.withEth
    · exact hx.withEth

theorem persist_advanceSeq (d : Dev) : d.advanceSeq.persist = d.persist := rfl

/-- While no wrap of the count waits, a message keeps the epoch. -/
theorem epoch_sendSigned (h : d.eth.wrapped = false) (keyid dst : Nat) (payload : List Byte) :
    (d.sendSigned keyid dst payload).persist.epoch = d.persist.epoch := by
  unfold Dev.sendSigned
  split
  · rfl
  · have hx : epochWrap d = d := by rw [epochWrap, h, if_neg Bool.false_ne_true]
    rw [hx]
    extract_lets y f
    have hy : y = d := rfl
    clear_value f y
    subst hy
    split
    · rw [forward_only]
      rw [persist_advanceSeq]
    · rw [persist_advanceSeq]

/-! ### Answers (R496) -/

/-- LASTCMD and the answer recorded, the answer not yet sent. -/
def Dev.answered (d : Dev) (role : Nat) (a : Answer) : Dev :=
  let d := ((d.setFld TRUST_LASTCMD_CODE a.code).setFld TRUST_LASTCMD_STATUS a.status).setFld TRUST_LASTCMD_ROLE role
  let d := (d.setFld TRUST_LASTCMD_PATH (if a.via = .tender then 1 else 0))
  { d with trust := { d.trust with answer := some a } }

theorem workResult_sent (d : Dev) (status : Nat) (payload : List Byte) : d.Sent (d.workResult status payload) := by
  unfold Dev.workResult
  split
  · split
    · exact ⟨rfl, (Dev.Regs.refl d _).same rfl⟩
    · exact .refl d
  · exact .refl d

theorem epoch_workResult (d : Dev) (status : Nat) (payload : List Byte) :
    (d.workResult status payload).persist.epoch = d.persist.epoch := by
  unfold Dev.workResult
  split
  · split
    · rfl
    · rfl
  · rfl

theorem answerBlock_sent (d : Dev) (role : Nat) (a : Answer) : (d.answered role a).Sent (d.answerBlock role a) := by
  unfold Dev.answerBlock
  extract_lets x y _ z
  have hz : d.answered role a = z := rfl
  rw [hz]
  clear_value z
  split
  · exact workResult_sent z _ _
  · exact foldl_keeps z.Sent _ (fun x f hx => hx.trans (sendSigned_sent x _ _ f)) _ z (.refl z)

theorem length_beBytes (n x : Nat) : (beBytes n x).length = n := by rw [beBytes, List.length_reverse, length_leBytes]

/-- An answer without a statement goes in one fragment. -/
theorem fragmentsOf_short {a : Answer} (id : Nat) (h : a.extra = []) : ∃ f, fragmentsOf id a.bytes = [f] := by
  have hlen : a.bytes.length = 12 := by
    simp only [Answer.bytes, h, List.append_nil, List.length_append, length_beBytes]
  have hone : (12 + 1455) / 1456 = 1 := by decide
  unfold fragmentsOf
  rw [hlen, hone]
  exact ⟨_, rfl⟩

theorem epoch_answerBlock {a : Answer} (role : Nat) (hw : d.eth.wrapped = false) (h : a.extra = []) :
    (d.answerBlock role a).persist.epoch = d.persist.epoch := by
  unfold Dev.answerBlock
  extract_lets x y _ z
  have hz : z.eth.wrapped = false ∧ z.persist = d.persist := ⟨hw, rfl⟩
  clear_value z
  obtain ⟨hzw, hzp⟩ := hz
  split
  · rw [← hzp]
    exact epoch_workResult z 0 _
  next src keyid id _ =>
    obtain ⟨f, hf⟩ := fragmentsOf_short id h
    rw [hf, ← hzp]
    exact epoch_sendSigned hzw _ _ f

/-! ### Sessions and grants (R506, R553) -/

/-- The device without what the end of a session changes beside registers. -/
def Dev.butSession (d : Dev) : Dev := { d with io := [], pairs := [], start := { d.start with waitFrom := none } }

/-- `e` is `d` after its session has ended, or with it open. -/
structure Dev.Unsessioned (d e : Dev) : Prop where
  rest : e.butSession = d.butSession
  fld : ∀ f : Fld, f.addr < 0x150000 → SYSCTL_STAT_DBGATT.Apart f → SYSCTL_STAT_EMUL.Apart f → e.fld f = d.fld f

theorem Dev.Unsessioned.refl (d : Dev) : d.Unsessioned d := ⟨rfl, fun _ _ _ _ => rfl⟩

section
variable (h : d.Unsessioned e)
include h

theorem Dev.Unsessioned.setFld {f : Fld} {v : Nat} (hf : 0x150000 ≤ f.addr ∨ f = SYSCTL_STAT_DBGATT ∨ f = SYSCTL_STAT_EMUL) :
    d.Unsessioned (e.setFld f v) := by
  refine ⟨h.rest, fun g hg h1 h2 => ?_⟩
  have hap : f.Apart g := by
    rcases hf with hf | rfl | rfl
    · exact .inl (by omega)
    · exact h1
    · exact h2
  rw [fld_setFld_apart e v hap]
  exact h.fld g hg h1 h2

theorem Dev.Unsessioned.resumeHeld {p : Nat} : d.Unsessioned (e.resumeHeld p) := by
  unfold Dev.resumeHeld
  split
  · exact ⟨h.rest, h.fld⟩
  · exact h

theorem Dev.Unsessioned.trust : e.trust = d.trust := show e.butSession.trust = d.butSession.trust from congrArg Dev.trust h.rest
theorem Dev.Unsessioned.persist : e.persist = d.persist :=
  show e.butSession.persist = d.butSession.persist from congrArg Dev.persist h.rest
theorem Dev.Unsessioned.eth : e.eth = d.eth := show e.butSession.eth = d.butSession.eth from congrArg Dev.eth h.rest
theorem Dev.Unsessioned.starting : e.start.starting = d.start.starting :=
  show e.butSession.start.starting = d.butSession.start.starting from congrArg (fun x : Dev => x.start.starting) h.rest

end

theorem comparators_far (p k : Nat) : 0x150000 ≤ (DEBUG_COMPCTL_EN p k).addr := by
  show 0x150000 ≤ 0x150118 + 0x100 * p + 0x10 * k
  omega

theorem Dev.Unsessioned.clearComparators (h : d.Unsessioned e) : d.Unsessioned e.clearComparators :=
  foldl_keeps d.Unsessioned _ (fun _ _ hx => hx.setFld (.inl (comparators_far _ _))) _ e h

/-- The device of an open session with its pairs resumed and its comparators off. -/
def Dev.released (d : Dev) : Dev := ((List.range 16).foldl Dev.resumeHeld d).clearComparators

theorem released_keeps (d : Dev) : d.Unsessioned d.released :=
  (foldl_keeps d.Unsessioned _ (fun _ _ hx => hx.resumeHeld) _ d (.refl d)).clearComparators

/-- The session's end noted in the registers. -/
def Dev.sessionOver (d : Dev) : Dev :=
  ((d.setFld SYSCTL_STAT_DBGATT 0).setFld DEBUG_STAT_SESSION 0).flag DEBUG_ISTAT_SESSION

theorem Dev.Unsessioned.sessionOver (h : d.Unsessioned e) : d.Unsessioned e.sessionOver := by
  unfold Dev.sessionOver
  exact ((h.setFld (.inr (.inl rfl))).setFld (.inl (by decide))).setFld (.inl (by decide))

/-- An emulated STANDBY goes on from its wait. -/
def Dev.waitsOn (d : Dev) : Dev :=
  { d.setFld SYSCTL_STAT_EMUL 0 with start := { d.start with waitFrom := some d.ticks } }

theorem fld_waitsOn (d : Dev) (f : Fld) : d.waitsOn.fld f = (d.setFld SYSCTL_STAT_EMUL 0).fld f := rfl

theorem endSession_eq (d : Dev) : d.endSession = if !d.session then d else
    if d.released.sessionOver.on SYSCTL_STAT_EMUL then d.released.sessionOver.waitsOn else d.released.sessionOver := by
  unfold Dev.endSession
  extract_lets x y
  have hx : x = d.released := rfl
  have hy : y = x.sessionOver := rfl
  clear_value y x
  rw [← hx, ← hy]
  rfl

theorem Dev.Unsessioned.waitsOn (h : d.Unsessioned e) : d.Unsessioned e.waitsOn := by
  have hy := h.setFld (f := SYSCTL_STAT_EMUL) (v := 0) (.inr (.inr rfl))
  refine ⟨Eq.trans ?_ h.rest, fun f hf h1 h2 => (fld_waitsOn e f).trans (hy.fld f hf h1 h2)⟩
  rfl

theorem endSession_keeps (d : Dev) : d.Unsessioned d.endSession := by
  have hx : d.Unsessioned d.released.sessionOver := (released_keeps d).sessionOver
  rw [endSession_eq]
  split
  · exact .refl d
  · split
    · exact hx.waitsOn
    · exact hx

theorem comparator_apart {lp k p j : Nat} (hk : k < 8) (hj : j < 8) (h : ¬ (p = lp ∧ j = k)) :
    (DEBUG_COMPCTL_EN p j).Apart (DEBUG_COMPCTL_EN lp k) := by
  refine .inl fun he => h ?_
  have ha : 0x150118 + 0x100 * lp + 0x10 * k = 0x150118 + 0x100 * p + 0x10 * j := he
  omega

/-- A comparator switched off stays off while the others are. -/
theorem comparators_off {lp k : Nat} (hk : k < 8) : ∀ (l : List Nat) (d : Dev),
    8 * lp + k ∈ l ∨ d.fld (DEBUG_COMPCTL_EN lp k) = 0 →
    (l.foldl (fun d i => d.setFld (DEBUG_COMPCTL_EN (i / 8) (i % 8)) 0) d).fld (DEBUG_COMPCTL_EN lp k) = 0
  | [], _, h => h.resolve_left List.not_mem_nil
  | i :: t, d, h => by
    refine comparators_off hk t (d.setFld (DEBUG_COMPCTL_EN (i / 8) (i % 8)) 0) ?_
    by_cases hi : i / 8 = lp ∧ i % 8 = k
    · rw [hi.1, hi.2]
      exact .inr (fld_setFld_cut d 0)
    · rw [fld_setFld_apart d 0 (comparator_apart hk (Nat.mod_lt _ (by decide)) hi)]
      exact h.imp_left fun hm => (List.mem_cons.1 hm).resolve_left (by omega)

theorem fld_comp_released (d : Dev) {lp k : Nat} (hlp : lp < 16) (hk : k < 8) :
    d.released.fld (DEBUG_COMPCTL_EN lp k) = 0 :=
  comparators_off hk _ _ (.inl (List.mem_range.2 (by omega)))

theorem sessionOver_leaves (d : Dev) : d.sessionOver.fld DEBUG_STAT_SESSION = 0 ∧ d.sessionOver.fld SYSCTL_STAT_DBGATT = 0 ∧
    ∀ lp k, d.sessionOver.fld (DEBUG_COMPCTL_EN lp k) = d.fld (DEBUG_COMPCTL_EN lp k) := by
  unfold Dev.sessionOver
  refine ⟨?_, ?_, fun lp k => ?_⟩
  · rw [flag_eq, fld_setFld_apart _ _ (by decide), fld_setFld_same _ _ (by decide)]
    rfl
  · rw [flag_eq, fld_setFld_apart _ _ (by decide), fld_setFld_apart _ _ (by decide), fld_setFld_same _ _ (by decide)]
    rfl
  · have hfar : ∀ f : Fld, f.addr < 0x150010 → f.Apart (DEBUG_COMPCTL_EN lp k) := fun f hf =>
      .inl (by show 0x150118 + 0x100 * lp + 0x10 * k ≠ f.addr; omega)
    rw [flag_eq, fld_setFld_apart _ _ (hfar _ (by decide)), fld_setFld_apart _ _ (hfar _ (by decide)),
      fld_setFld_apart _ _ (hfar _ (by decide))]

theorem of_not_on {f : Fld} (h : d.on f = false) : d.fld f = 0 := by
  simpa [Dev.on] using h

/-- The end of a session leaves none open, and of an open one no debugger attached and no comparator on. -/
theorem endSession_leaves (d : Dev) : d.endSession.fld DEBUG_STAT_SESSION = 0 ∧
    (d.session = true → d.endSession.fld SYSCTL_STAT_DBGATT = 0 ∧
      ∀ lp < 16, ∀ k < 8, d.endSession.fld (DEBUG_COMPCTL_EN lp k) = 0) := by
  rw [endSession_eq]
  cases hs : d.session with
  | false => exact ⟨of_not_on hs, nofun⟩
  | true =>
    have hcomp := fun lp k => fld_comp_released d (lp := lp) (k := k)
    obtain ⟨hsession, hatt, hkeep⟩ := sessionOver_leaves d.released
    generalize d.released.sessionOver = x at *
    have hx : x.fld DEBUG_STAT_SESSION = 0 ∧ x.fld SYSCTL_STAT_DBGATT = 0 ∧
        ∀ lp < 16, ∀ k < 8, x.fld (DEBUG_COMPCTL_EN lp k) = 0 :=
      ⟨hsession, hatt, fun lp hlp k hk => (hkeep lp k).trans (hcomp lp k hlp hk)⟩
    clear hsession hatt hkeep hcomp
    rw [Bool.not_true, if_neg Bool.false_ne_true]
    split
    · have hemul : ∀ f : Fld, SYSCTL_STAT_EMUL.Apart f → x.waitsOn.fld f = x.fld f := fun f hf =>
        (fld_waitsOn x f).trans (fld_setFld_apart x 0 hf)
      refine ⟨(hemul _ (by decide)).trans hx.1, fun _ => ⟨(hemul _ (by decide)).trans hx.2.1, fun lp hlp k hk => ?_⟩⟩
      exact (hemul _ (.inl (by have := comparators_far lp k; show _ ≠ 0; omega))).trans (hx.2.2 lp hlp k hk)
    · exact ⟨hx.1, fun _ => hx.2⟩

/-- No grant in force. -/
def TrustSt.noGrant (t : TrustSt) : TrustSt := { t with grant := none }

theorem TrustSt.noGrant_of_none {t : TrustSt} (h : t.grant = none) : t.noGrant = t :=
  (congrArg (fun g => { t with grant := g }) h.symm : t.noGrant = { t with grant := t.grant })

/-- The device with its trust state at `t`. -/
def Dev.setTrust (d : Dev) (t : TrustSt) : Dev := { d with trust := t }

/-- The device with its retained state at `p`. -/
def Dev.setPersist (d : Dev) (p : Persist) : Dev := { d with persist := p }

theorem regs_setTrust (d : Dev) (t : TrustSt) (l : List Nat) : d.Regs (d.setTrust t) l :=
  (Dev.Regs.refl d l).same (f := d.setTrust t) rfl

theorem endGrant_of_some {g : Grant} (h : d.trust.grant = some g) :
    d.endGrant = ((d.setTrust d.trust.noGrant).flag TRUST_ISTAT_GRANTCHG).journal 0x39 [0] := by
  unfold Dev.endGrant
  rw [h]
  rfl

theorem endGrant_leaves (d : Dev) : d.endGrant.trust = d.trust.noGrant ∧ d.endGrant.persist = d.persist ∧
    d.endGrant.eth = d.eth ∧ d.Regs d.endGrant noteRegs := by
  cases h : d.trust.grant with
  | none =>
    have he : d.endGrant = d := by rw [Dev.endGrant, h]
    rw [he]
    exact ⟨(TrustSt.noGrant_of_none h).symm, rfl, rfl, .refl d _⟩
  | some g =>
    rw [endGrant_of_some h]
    have hn := ((Dev.Noted.refl (d.setTrust d.trust.noGrant)).setFld (f := TRUST_ISTAT_GRANTCHG) (v := 1)).journal
      (type := 0x39) (args := [0]) (body := [])
    exact ⟨hn.trust, hn.persist, hn.eth, (regs_setTrust d _ _).trans hn.regs⟩

theorem endGrant_flag {g : Grant} (h : d.trust.grant = some g) : d.endGrant.fld TRUST_ISTAT_GRANTCHG = 1 := by
  rw [endGrant_of_some h, fld_journal _ _ _ _ (by decide)]
  exact fld_flag _

/-! ### Lifecycle transitions (R485, R487) -/

/-- The trust state after the side effects of entry into state `s`. -/
def TrustSt.entering (t : TrustSt) (s : Nat) : TrustSt :=
  if s = lcScrapped then { t.noGrant with att := .destroyed, attSeed := 0 } else t.noGrant

/-- The retained state without its keys and operator roots. -/
def Persist.erased (p : Persist) : Persist := { p with keys := [(0, List.replicate 32 0)], opRoots := [] }

/-- The retained state after the side effects of entry into state `s`. -/
def Persist.entering (p : Persist) (s : Nat) : Persist := if s = lcReturned || s = lcScrapped then p.erased else p

/-- The trust state of a device that is scrapped. -/
def TrustSt.scrapped (t : TrustSt) : TrustSt := { t with att := .destroyed, attSeed := 0 }

theorem lifecycleEffects_eq (d : Dev) (s : Nat) : d.lifecycleEffects s =
    if s = lcScrapped then (d.setPersist d.persist.erased).endGrant.setTrust (d.setPersist d.persist.erased).endGrant.trust.scrapped
    else if s = lcReturned then (d.setPersist d.persist.erased).endGrant else d := by
  by_cases hs : s = lcScrapped
  · subst hs
    rfl
  · rw [if_neg hs, Dev.lifecycleEffects, decide_eq_false hs, Bool.or_false]
    dsimp only
    rw [if_neg hs]
    by_cases hr : s = lcReturned
    · rw [decide_eq_true hr, if_pos rfl, if_pos hr]
      rfl
    · rw [decide_eq_false hr, if_neg Bool.false_ne_true, if_neg hr]

theorem lifecycleEffects_leaves (d : Dev) (s : Nat) :
    (d.lifecycleEffects s).endGrant.trust = d.trust.entering s ∧
    (d.lifecycleEffects s).endGrant.persist = d.persist.entering s ∧
    (d.lifecycleEffects s).endGrant.eth = d.eth := by
  obtain ⟨ht, hp, he, -⟩ := endGrant_leaves (d.lifecycleEffects s)
  obtain ⟨ht', hp', he', -⟩ := endGrant_leaves (d.setPersist d.persist.erased)
  rw [ht, hp, he, lifecycleEffects_eq, TrustSt.entering, Persist.entering]
  generalize (d.setPersist d.persist.erased).endGrant = y at *
  by_cases hs : s = lcScrapped
  · rw [if_pos hs, if_pos hs, decide_eq_true hs, Bool.or_true, if_pos rfl]
    exact ⟨(congrArg (fun t : TrustSt => t.scrapped.noGrant) ht').trans rfl, hp', he'⟩
  · rw [if_neg hs, if_neg hs, decide_eq_false hs, Bool.or_false]
    by_cases hr : s = lcReturned
    · rw [if_pos hr, decide_eq_true hr, if_pos rfl]
      exact ⟨(congrArg TrustSt.noGrant ht').trans rfl, hp', he'⟩
    · rw [if_neg hr, decide_eq_false hr, if_neg Bool.false_ne_true]
      exact ⟨rfl, rfl, rfl⟩

/-- The retained state with a transition's intent at `i`. -/
def Persist.withIntent (p : Persist) (i : Option Nat) : Persist := { p with intent := i }

theorem lifecycleTo_eq (d : Dev) (s : Nat) : ∃ x y : Dev, (d.setPersist (d.persist.withIntent (some s))).Noted x ∧
    y = ((x.setTrust (x.trust.blowTo s)).lifecycleEffects s).endGrant ∧
    (y.setPersist (y.persist.withIntent none)).Noted (d.lifecycleTo s) :=
  ⟨_, _, (Dev.Noted.refl _).journal (type := 0x31) (args := [s]) (body := []), rfl,
    (Dev.Noted.refl _).journal (type := 0x32) (args := [s]) (body := [])⟩

theorem lifecycleTo_leaves (d : Dev) (s : Nat) :
    (d.lifecycleTo s).trust = (d.trust.blowTo s).entering s ∧
    (d.lifecycleTo s).persist = (d.persist.entering s).withIntent none ∧ (d.lifecycleTo s).eth = d.eth := by
  obtain ⟨x, y, hx, hy, hz⟩ := lifecycleTo_eq d s
  obtain ⟨ht, hp, he⟩ := lifecycleEffects_leaves (x.setTrust (x.trust.blowTo s)) s
  rw [← hy] at ht hp he
  have hpe : (Persist.withIntent d.persist (some s)).entering s = (d.persist.entering s).withIntent (some s) := by
    unfold Persist.entering
    split
    · rfl
    · rfl
  refine ⟨hz.trust.trans (ht.trans ?_), hz.persist.trans ?_, hz.eth.trans (he.trans hx.eth)⟩
  · exact congrArg (fun t : TrustSt => (t.blowTo s).entering s) hx.trust
  · refine (congrArg (fun p : Persist => p.withIntent none) (hp.trans ((congrArg (Persist.entering · s) hx.persist).trans hpe))).trans ?_
    rfl

/-! ### Judgement (R493, R494, R497) -/

/-- The retained state with a role's counter at the block's. -/
def Persist.counted (p : Persist) (c : SignedCmd) : Persist := { p with ctrs := arrSet 0 p.ctrs c.role c.ctr }

theorem recordBlock_noted (d : Dev) (c : SignedCmd) (status : Nat) :
    (d.setPersist (d.persist.counted c)).Noted (d.recordBlock c status) :=
  (Dev.Noted.refl _).journal (type := 0x30) (args := [c.role, c.slot, c.code, c.ctr, status]) (body := [])

/-- The device with a command of R497 recorded and its CMDSTAT at DONE. -/
def Dev.judged (d : Dev) (c : SignedCmd) : Dev := (d.recordBlock c cmdDone).cmdStat c.code cmdDone

theorem judged_noted (d : Dev) (c : SignedCmd) : (d.setPersist (d.persist.counted c)).Noted (d.judged c) :=
  (recordBlock_noted d c cmdDone).cmdStat

theorem withGrantEnd_keeps (old new : Dev) : new.Unsessioned (old.withGrantEnd new) := by
  unfold Dev.withGrantEnd
  split
  · exact endSession_keeps new
  · exact .refl new

/-- The answer to a block. -/
def SignedCmd.answer (c : SignedCmd) (status : Nat) (extra : List Byte) : Answer :=
  { via := c.via, code := c.code, status := status, ctr := c.ctr, extra := extra }

section
variable {c : SignedCmd} {fmt dev sig : Bool} {seed : Nat}

theorem runBlock_stopped (h : d.blockStatus c fmt dev sig ≠ 0) : d.runBlock c fmt dev sig seed =
    (d.blockFailed c.role (d.blockStatus c fmt dev sig)).answerBlock c.role (c.answer (d.blockStatus c fmt dev sig) []) := by
  rw [Dev.runBlock, if_pos (bne_iff_ne.2 h)]
  rfl

theorem runBlock_checked (h : d.blockStatus c fmt dev sig = 0) : d.runBlock c fmt dev sig seed =
    if (d.judgeSigned c seed).1 = cmdDone && d.resetsDevice c then (d.judgeSigned c seed).2.2
    else (d.judgeSigned c seed).2.2.answerBlock c.role (c.answer (d.judgeSigned c seed).1 (d.judgeSigned c seed).2.1) := by
  rw [Dev.runBlock, if_neg (by rw [h]; decide)]
  rfl

section
variable (hsigned : signedCode c.code = true) (hfull : d.nvs.full = false) (hcode : 8 < c.code)
include hsigned hfull hcode

theorem judgeSigned_met (hmet : d.signedMet c = true) : d.judgeSigned c seed =
    (cmdDone, ((d.judged c).signedEffect c seed).1, d.withGrantEnd ((d.judged c).signedEffect c seed).2) := by
  rw [Dev.judgeSigned, hsigned, Bool.not_true, if_neg Bool.false_ne_true, hfull, if_neg Bool.false_ne_true,
    if_neg (Nat.not_le.2 hcode), hmet, Bool.not_true, if_neg Bool.false_ne_true]
  rfl

theorem judgeSigned_unmet (hmet : d.signedMet c = false) : d.judgeSigned c seed =
    (cmdRefused, [], (((d.recordBlock c cmdRefused).installFailed c).refuse c.code true).cmdStat c.code cmdRefused) := by
  rw [Dev.judgeSigned, hsigned, Bool.not_true, if_neg Bool.false_ne_true, hfull, if_neg Bool.false_ne_true,
    if_neg (Nat.not_le.2 hcode), hmet, Bool.not_false, if_pos rfl]

end

theorem answered_leaves (d : Dev) (role : Nat) (a : Answer) (hcode : a.code < 256) (hst : a.status < 256) :
    (d.answered role a).fld TRUST_LASTCMD_CODE = a.code ∧ (d.answered role a).fld TRUST_LASTCMD_STATUS = a.status := by
  have hio : (d.answered role a).io = ((((d.setFld TRUST_LASTCMD_CODE a.code).setFld TRUST_LASTCMD_STATUS a.status).setFld
      TRUST_LASTCMD_ROLE role).setFld TRUST_LASTCMD_PATH (if a.via = .tender then 1 else 0)).io := rfl
  refine ⟨?_, ?_⟩
  · rw [fld_of_io hio, fld_setFld_apart _ _ (by decide), fld_setFld_apart _ _ (by decide), fld_setFld_apart _ _ (by decide),
      fld_setFld_same _ _ (by decide)]
    exact Nat.mod_eq_of_lt hcode
  · rw [fld_of_io hio, fld_setFld_apart _ _ (by decide), fld_setFld_apart _ _ (by decide), fld_setFld_same _ _ (by decide)]
    exact Nat.mod_eq_of_lt hst

theorem answered_regs (d : Dev) (role : Nat) (a : Answer) : d.Regs (d.answered role a) [TRUST_LASTCMD_CODE.addr] := by
  have h := (((Dev.Regs.refl d [TRUST_LASTCMD_CODE.addr]).setFld TRUST_LASTCMD_CODE a.code (by decide)).setFld
    TRUST_LASTCMD_STATUS a.status (by decide)).setFld TRUST_LASTCMD_ROLE role (by decide)
  exact (h.setFld TRUST_LASTCMD_PATH (if a.via = .tender then 1 else 0) (by decide)).same rfl

/-- What answering a block leaves: LASTCMD, the answer, and of the retained state all but the epoch. -/
theorem answerBlock_leaves (d : Dev) (role : Nat) (a : Answer) (hcode : a.code < 256) (hst : a.status < 256) :
    let e := d.answerBlock role a
    e.fld TRUST_LASTCMD_CODE = a.code ∧ e.fld TRUST_LASTCMD_STATUS = a.status ∧
    e.trust = { d.trust with answer := some a } ∧ e.persist = { d.persist with epoch := e.persist.epoch } ∧
    ∀ f : Fld, f.addr ∉ noteRegs → e.fld f = d.fld f := by
  obtain ⟨hc, hs⟩ := answered_leaves d role a hcode hst
  have hsent := answerBlock_sent d role a
  intro e
  refine ⟨hsent.fld.trans hc, hsent.fld.trans hs, hsent.trust, hsent.persist, fun f hf => ?_⟩
  rw [hsent.fld (fun h => hf ((by decide : sealRegs ⊆ noteRegs) h))]
  exact (answered_regs d role a).fld f fun h => hf ((by decide : [TRUST_LASTCMD_CODE.addr] ⊆ noteRegs) h)

end

end
end Sys2Proof.Machine
end

section
/-! PROOFS. Lifecycle: the commands of the lifecycle, blocks that wait, and commands that meet no condition (R484 to R487,
R497, `Obligations.LifecycleAndRefusals`). -/

set_option Elab.async false

namespace Sys2Proof.Machine

section
variable {d e : Dev}

/-! ### Fuses (R485) -/

theorem blown_blowTo (t : TrustSt) (s i : Nat) :
    arrGet 0 (t.blowTo s).lcsFuses i ≠ 0 ↔ i < s ∨ arrGet 0 t.lcsFuses i ≠ 0 := by
  have hfold : ∀ (l : List Nat) (f : List (Nat × Nat)),
      arrGet 0 (l.foldl (fun f i => arrSet 0 f i 3) f) i ≠ 0 ↔ i ∈ l ∨ arrGet 0 f i ≠ 0 := by
    intro l
    induction l with
    | nil => intro f; simp
    | cons j t ih =>
      intro f
      rw [List.foldl_cons, ih, arrGet_arrSet, List.mem_cons]
      by_cases h : i = j
      · simp [h]
      · simp [h]
  rw [TrustSt.blowTo, hfold, List.mem_range]

/-- Where the blown bits are the first ones, blowing as far as state `s` leads to it. -/
theorem lcs_blowTo {t : TrustSt} {s : Nat} (hs : s ≤ 5) (hle : t.lcs ≤ s) (h : ∀ i < 5, arrGet 0 t.lcsFuses i ≠ 0 ↔ i < t.lcs) :
    (t.blowTo s).lcs = s := by
  have hfilter : (List.range 5).filter (fun i => arrGet 0 (t.blowTo s).lcsFuses i != 0) =
      (List.range 5).filter (fun i => decide (i < s)) := by
    refine List.filter_congr fun i hi => ?_
    rw [Bool.eq_iff_iff, bne_iff_ne, decide_eq_true_eq, blown_blowTo, h i (List.mem_range.1 hi)]
    omega
  rw [TrustSt.lcs, hfilter]
  interval_cases s <;> rfl

/-! ### A command of R497 carried out -/

section
variable {code : Nat} {b : SignedArg} {seeds : Nat}

theorem signedRow_met (hcode : 8 < code ∧ code < 256) (hsigned : signedCode code = true) (hfree : d.carrying = false)
    (hfull : d.nvs.full = false) (hok : d.blockStatus (cmdOf code b) true true true = 0)
    (hmet : d.signedMet (cmdOf code b) = true) (hno : d.resetsDevice (cmdOf code b) = false) :
    let x := (d.judged (cmdOf code b)).signedEffect (cmdOf code b) seeds
    let e := signedRow code b d seeds
    e.fld TRUST_LASTCMD_CODE = code ∧ e.fld TRUST_LASTCMD_STATUS = 0 ∧
    e.trust = { x.2.trust with answer := some ((cmdOf code b).answer cmdDone x.1) } ∧
    e.persist = { x.2.persist with epoch := e.persist.epoch } := by
  intro x e
  obtain ⟨hc, hs, ht, hp, -⟩ := answerBlock_leaves (d.withGrantEnd x.2) b.role ((cmdOf code b).answer cmdDone x.1)
    hcode.2 (by decide : cmdDone < 256)
  have he : e = (d.withGrantEnd x.2).answerBlock b.role ((cmdOf code b).answer cmdDone x.1) := by
    unfold e signedRow
    rw [hfree, if_neg Bool.false_ne_true, runBlock_checked hok, judgeSigned_met (c := cmdOf code b) hsigned hfull hcode.1 hmet, hno]
    rfl
  have hu := withGrantEnd_keeps d x.2
  rw [← he] at hc hs ht hp
  rw [hu.trust] at ht
  rw [hu.persist] at hp
  exact ⟨hc, hs, ht, hp⟩

theorem blockArrives_room {k : Block} (h : d.trust.waiting.length < 3) :
    d.blockArrives k = d.setTrust { d.trust with waiting := d.trust.waiting ++ [k] } := by
  have hno : ¬ blockPlaces ≤ d.trust.waiting.length := Nat.not_le.2 h
  rw [Dev.blockArrives, if_neg hno]
  rfl

/-- A block that arrives while a command is carried out waits. -/
theorem signedRow_waits (hbusy : d.carrying = true) (hroom : d.trust.waiting.length < 3) :
    let e := signedRow code b d seeds
    e.trust.waiting = d.trust.waiting ++ [{ bytes := [], via := b.via, row := some { code := code, arg := b, seeds := seeds } }] ∧
    e = { d with trust := e.trust } := by
  intro e
  have he : e = d.setTrust { d.trust with waiting := d.trust.waiting ++
      [{ bytes := [], via := b.via, row := some { code := code, arg := b, seeds := seeds } }] } := by
    unfold e signedRow
    rw [hbusy, if_pos rfl, blockArrives_room hroom]
  rw [he]
  exact ⟨rfl, rfl⟩

theorem installFailed_noted (d : Dev) (c : SignedCmd) : d.Noted (d.installFailed c) := by
  unfold Dev.installFailed
  split
  · have hx : ∀ x : Nat × Dev, d.Noted x.2 →
        d.Noted (if x.1 = 0 then x.2 else x.2.journal 0x27 [c.code, x.2.mode, beAt c.arg 0 1, x.1]) := fun x h => .ite h h.journal
    refine hx (d.checkSlot (beAt c.arg 0 1 = 1)) ?_
    exact .ite (Dev.Noted.refl d).present (.refl d)
  · exact .refl d

theorem fld_refused (d : Dev) (status : Nat) (hcode : code < 256) :
    ((d.refuse code true).cmdStat code status).fld SYSCTL_REFUSED_CODE = code := by
  rw [fld_cmdStat _ _ _ (by decide), Dev.refuse]
  rw [if_pos rfl, fld_journal _ _ _ _ (by decide), fld_setFld_same _ _ (by decide)]
  exact Nat.mod_eq_of_lt hcode

/-- A command that passes every check and meets no condition of R497. -/
theorem signedRow_unmet (hcode : 8 < code ∧ code < 256) (hsigned : signedCode code = true) (hfree : d.carrying = false)
    (hfull : d.nvs.full = false) (hok : d.blockStatus (cmdOf code b) true true true = 0)
    (hmet : d.signedMet (cmdOf code b) = false) :
    let e := signedRow code b d seeds
    e.fld TRUST_LASTCMD_STATUS = 1 ∧
    e.persist = { d.persist with ctrs := arrSet 0 d.persist.ctrs b.role b.ctr, epoch := e.persist.epoch } ∧
    (d.eth.wrapped = false → e.persist.epoch = d.persist.epoch) ∧
    e.trust = { d.trust with answer := e.trust.answer } ∧ e.fld SYSCTL_REFUSED_CODE = code := by
  intro e
  obtain ⟨x, hx⟩ : ∃ x, x = (((d.recordBlock (cmdOf code b) cmdRefused).installFailed (cmdOf code b)).refuse code true).cmdStat
    code cmdRefused := ⟨_, rfl⟩
  have hn : (d.setPersist (d.persist.counted (cmdOf code b))).Noted x := by
    rw [hx]
    exact (((recordBlock_noted d _ _).trans (installFailed_noted _ _)).refuse).cmdStat
  have hrefused : x.fld SYSCTL_REFUSED_CODE = code := by
    rw [hx]
    exact fld_refused _ _ hcode.2
  have he : e = x.answerBlock b.role ((cmdOf code b).answer cmdRefused []) := by
    unfold e signedRow
    rw [hfree, if_neg Bool.false_ne_true, runBlock_checked hok, judgeSigned_unmet (c := cmdOf code b) hsigned hfull hcode.1 hmet, hx]
    rfl
  obtain ⟨-, hs, ht, hp, -⟩ := answerBlock_leaves x b.role ((cmdOf code b).answer cmdRefused []) hcode.2 (by decide : cmdRefused < 256)
  have hsent := (answerBlock_sent x b.role ((cmdOf code b).answer cmdRefused [])).fld (f := SYSCTL_REFUSED_CODE)
  have hkept := (answered_regs x b.role ((cmdOf code b).answer cmdRefused [])).fld SYSCTL_REFUSED_CODE (by decide)
  have hepoch := fun hw => epoch_answerBlock (d := x) (a := (cmdOf code b).answer cmdRefused []) b.role hw rfl
  rw [← he] at hs ht hp hsent hepoch
  rw [hn.persist] at hp hepoch
  rw [hn.trust] at ht
  rw [hn.eth] at hepoch
  clear_value e
  refine ⟨hs, hp, hepoch, ?_, hsent.trans (hkept.trans hrefused)⟩
  have ha : e.trust.answer = some ((cmdOf code b).answer cmdRefused []) := congrArg TrustSt.answer ht
  rw [ha]
  exact ht

end

/-! ### What the checks of a block say (R493) -/

theorem blockStatus_zero {c : SignedCmd} (h : d.blockStatus c true true true = 0) :
    argLegal c.code c.arg = true ∧ d.rightsOk c = true ∧ (tenderOnly c.code = true → c.via = .tender) := by
  unfold Dev.blockStatus at h
  split at h
  · exact absurd h (by decide)
  next hfmt =>
    split at h
    · exact absurd h (by decide)
    · split at h
      · exact absurd h (by decide)
      · split at h
        · exact absurd h (by decide)
        next hrights =>
          split at h
          · exact absurd h (by decide)
          · split at h
            · exact absurd h (by decide)
            · split at h
              · exact absurd h (by decide)
              next hpath =>
                refine ⟨by simpa using hfmt, by simpa using hrights, fun ht => ?_⟩
                simpa [ht] using hpath

/-- A signer whose block passes every check has the command's right (R497). -/
theorem rightOf_checked {code : Nat} {b : SignedArg} (hs : signedCode code = true) (hc : code ≠ 0x10)
    (h : d.blockStatus (cmdOf code b) true true true = 0) : rightOf code b.role d.lcs d.persist.opInstall = true := by
  have hr := (blockStatus_zero h).2.1
  simp [Dev.rightsOk, cmdOf, hs, hc] at hr
  exact hr.1

/-! ### Transitions -/

theorem lcs_entering (t : TrustSt) (s : Nat) : (t.entering s).lcs = t.lcs ∧ (t.entering s).grant = none := by
  unfold TrustSt.entering
  split
  · exact ⟨rfl, rfl⟩
  · exact ⟨rfl, rfl⟩

/-- What a transition to state `s` leaves where the block that made it has been recorded and answered. -/
theorem transition_leaves {z : Dev} {c : SignedCmd} {s : Nat} {a : Option Answer}
    (ht : e.trust = { (z.lifecycleTo s).trust with answer := a })
    (hp : e.persist = { (z.lifecycleTo s).persist with epoch := e.persist.epoch })
    (hzf : z.trust.lcsFuses = d.trust.lcsFuses) (hzp : z.persist = d.persist.counted c) (hs : s ≤ 5) (hle : d.lcs ≤ s)
    (hfuses : ∀ i < 5, arrGet 0 d.trust.lcsFuses i ≠ 0 ↔ i < d.lcs) :
    arrGet 0 e.persist.ctrs c.role = c.ctr ∧ e.lcs = s ∧ e.trust.grant = none ∧ e.persist.intent = none ∧
    e.trust = { (z.trust.blowTo s).entering s with answer := a } ∧
    e.persist.keys = (d.persist.entering s).keys ∧ e.persist.opRoots = (d.persist.entering s).opRoots := by
  obtain ⟨hlt, hlp, -⟩ := lifecycleTo_leaves z s
  rw [hlt] at ht
  rw [hlp, hzp] at hp
  have hlcs : z.trust.lcs = d.lcs := by rw [Dev.lcs, TrustSt.lcs, TrustSt.lcs, hzf]
  have hcount : ((d.persist.counted c).entering s).ctrs = arrSet 0 d.persist.ctrs c.role c.ctr ∧
      ((d.persist.counted c).entering s).keys = (d.persist.entering s).keys ∧
      ((d.persist.counted c).entering s).opRoots = (d.persist.entering s).opRoots := by
    unfold Persist.entering
    split
    · exact ⟨rfl, rfl, rfl⟩
    · exact ⟨rfl, rfl, rfl⟩
  obtain ⟨hctrs, hkeys, hroots⟩ := hcount
  obtain ⟨hel, heg⟩ := lcs_entering (z.trust.blowTo s) s
  have hblown : (z.trust.blowTo s).lcs = s := lcs_blowTo hs (hlcs ▸ hle) (by rw [hlcs, hzf]; exact hfuses)
  refine ⟨?_, ?_, ?_, ?_, ht, ?_, ?_⟩
  · rw [hp]
    exact (congrArg (arrGet 0 · c.role) hctrs).trans (arrGet_arrSet_same _ _ _ _)
  · rw [Dev.lcs, ht]
    exact hel.trans hblown
  · rw [ht]
    exact heg
  · rw [hp]
    rfl
  · rw [hp]
    exact hkeys
  · rw [hp]
    exact hroots

/-! ### The five commands -/

/-- What each of the five commands leaves: its code DONE, the counter counted, the state entered, no grant and no intent. -/
def Dev.Transitioned (e : Dev) (b : SignedArg) (code lcs : Nat) : Prop :=
  arrGet 0 e.persist.ctrs b.role = b.ctr ∧ e.fld TRUST_LASTCMD_CODE = code ∧ e.fld TRUST_LASTCMD_STATUS = 0 ∧
  e.lcs = lcs ∧ e.trust.grant = none ∧ e.persist.intent = none

section
variable {b : SignedArg} {code s : Nat} {f : Dev → Dev} {T : TrustSt → TrustSt}

/-- A command whose effect is an update of the trust state and a transition to state `s`. -/
theorem signedRow_transition (hcode : 8 < code ∧ code < 256) (hsigned : signedCode code = true) (hfree : d.carrying = false)
    (hfull : d.nvs.full = false) (hok : d.blockStatus (cmdOf code b) true true true = 0)
    (hmet : d.signedMet (cmdOf code b) = true) (hno : d.resetsDevice (cmdOf code b) = false)
    (heffect : ∀ x : Dev, x.signedEffect (cmdOf code b) 0 = ([], (f x).lifecycleTo s))
    (hf : ∀ x : Dev, (f x).trust = T x.trust ∧ (f x).persist = x.persist) (hT : ∀ t, (T t).lcsFuses = t.lcsFuses) (hs : s ≤ 5)
    (hle : d.lcs ≤ s) (hfuses : ∀ i < 5, arrGet 0 d.trust.lcsFuses i ≠ 0 ↔ i < d.lcs) :
    let e := signedRow code b d
    e.Transitioned b code s ∧ e.persist.keys = (d.persist.entering s).keys ∧
    e.persist.opRoots = (d.persist.entering s).opRoots ∧
    ∃ a, e.trust = { ((T d.trust).blowTo s).entering s with answer := a } := by
  obtain ⟨hc, hst, ht, hp⟩ := signedRow_met (seeds := 0) hcode hsigned hfree hfull hok hmet hno
  have hn := judged_noted d (cmdOf code b)
  obtain ⟨hft, hfp⟩ := hf (d.judged (cmdOf code b))
  rw [hn.trust] at hft
  rw [hn.persist] at hfp
  rw [heffect] at ht hp
  intro e
  obtain ⟨hctr, hlcs, hgrant, hintent, htrust, hkeys, hroots⟩ := transition_leaves (d := d) (c := cmdOf code b) ht hp
    ((congrArg TrustSt.lcsFuses hft).trans (hT _)) hfp hs hle hfuses
  rw [hft] at htrust
  exact ⟨⟨hctr, hc, hst, hlcs, hgrant, hintent⟩, hkeys, hroots, _, htrust⟩

end

section
variable {b : SignedArg} (hfree : d.carrying = false) (hfull : d.nvs.full = false)
  (hfuses : ∀ i < 5, arrGet 0 d.trust.lcsFuses i ≠ 0 ↔ i < d.lcs)
include hfree hfull hfuses

theorem enrolMaker_leaves (hok : d.blockStatus (cmdOf 0x10 b) true true true = 0) (hl : d.lcs = lcBlank) :
    let e := signedRow 0x10 b d
    e.Transitioned b 0x10 lcManufacture ∧ e.trust.makerRoots = [(0, b.arg.take 64), (1, b.arg.drop 64)] := by
  obtain ⟨hdone, -, -, a, ht⟩ := signedRow_transition (s := lcManufacture)
    (f := fun x => (x.setTrust { x.trust with makerRoots := [(0, b.arg.take 64), (1, b.arg.drop 64)] }).flag TRUST_ISTAT_ROOTCHG)
    (T := fun t => { t with makerRoots := [(0, b.arg.take 64), (1, b.arg.drop 64)] })
    (by decide) rfl hfree hfull hok (decide_eq_true hl) rfl (fun _ => rfl) (fun _ => ⟨rfl, rfl⟩) (fun _ => rfl) (by decide)
    (by rw [hl]; decide) hfuses
  intro e
  exact ⟨hdone, congrArg TrustSt.makerRoots ht⟩

theorem provision_leaves (hok : d.blockStatus (cmdOf 0x11 b) true true true = 0) (hatt : d.trust.att = .ready)
    (hm : d.mode = modeConfig ∨ d.mode = modeMaker) :
    let e := signedRow 0x11 b d
    e.Transitioned b 0x11 lcProvisioned ∧ e.trust.iwk = b.arg.drop 128 ∧
    e.trust.instRoots = [(0, b.arg.take 64), (1, (b.arg.drop 64).take 64)] := by
  have hmet : d.signedMet (cmdOf 0x11 b) = true := by
    show (decide (d.trust.att = .ready) && (decide (d.mode = modeConfig) || decide (d.mode = modeMaker))) = true
    simpa [hatt] using hm
  have hl : d.lcs = lcManufacture := by
    have hr := rightOf_checked rfl (by decide) hok
    simp [rightOf] at hr
    exact hr.2
  obtain ⟨hdone, -, -, a, ht⟩ := signedRow_transition (s := lcProvisioned)
    (f := fun x => (x.setTrust { x.trust with
      instRoots := [(0, b.arg.take 64), (1, (b.arg.drop 64).take 64)], iwk := b.arg.drop 128 }).flag TRUST_ISTAT_ROOTCHG)
    (T := fun t => { t with instRoots := [(0, b.arg.take 64), (1, (b.arg.drop 64).take 64)], iwk := b.arg.drop 128 })
    (by decide) rfl hfree hfull hok hmet rfl (fun _ => rfl) (fun _ => ⟨rfl, rfl⟩) (fun _ => rfl) (by decide)
    (by rw [hl]; decide) hfuses
  intro e
  exact ⟨hdone, congrArg TrustSt.iwk ht, congrArg TrustSt.instRoots ht⟩

theorem deploy_leaves (hok : d.blockStatus (cmdOf 0x13 b) true true true = 0) (hm : d.mode = modeConfig) :
    let e := signedRow 0x13 b d
    e.Transitioned b 0x13 lcDeployed ∧ e.persist.keys = d.persist.keys ∧ e.persist.opRoots = d.persist.opRoots := by
  have hl : d.lcs = lcProvisioned := by
    have hr := rightOf_checked rfl (by decide) hok
    simp [rightOf] at hr
    exact hr.2
  obtain ⟨hdone, hkeys, hroots, -⟩ := signedRow_transition (s := lcDeployed) (f := id) (T := id)
    (by decide) rfl hfree hfull hok (decide_eq_true hm) rfl (fun _ => rfl) (fun _ => ⟨rfl, rfl⟩) (fun _ => rfl) (by decide)
    (by rw [hl]; decide) hfuses
  exact ⟨hdone, hkeys, hroots⟩

omit hfree hfull hfuses in
/-- The one key and no operator root, read off the retained state. -/
theorem erased_of_keys {e : Dev} (hk : e.persist.keys = [(0, List.replicate 32 0)]) (hr : e.persist.opRoots = []) :
    e.persist.opRoots = [] ∧ e.keyOf 0 = some (List.replicate 32 0) ∧ ∀ k, k ≠ 0 → e.keyOf k = none := by
  refine ⟨hr, ?_, fun k hne => ?_⟩
  · rw [Dev.keyOf, hk]
    rfl
  · have hfind : mapFind [(0, List.replicate 32 (0 : Byte))] k = none := by
      simp [mapFind, Ne.symm hne]
    rw [Dev.keyOf, hk, hfind, if_neg hne]

theorem returnToMaker_leaves (hok : d.blockStatus (cmdOf 0x14 b) true true true = 0)
    (hm : d.mode = modeConfig ∨ d.mode = modeSafeStop ∨ d.mode = modeFog) :
    let e := signedRow 0x14 b d
    e.Transitioned b 0x14 lcReturned ∧ (e.persist.opRoots = [] ∧ e.keyOf 0 = some (List.replicate 32 0) ∧
      ∀ k, k ≠ 0 → e.keyOf k = none) ∧ e.trust.att = d.trust.att := by
  have hmet : d.signedMet (cmdOf 0x14 b) = true := by
    show (decide (d.mode = modeConfig) || decide (d.mode = modeSafeStop) || decide (d.mode = modeFog)) = true
    simpa [or_assoc] using hm
  have hl : d.lcs = lcProvisioned ∨ d.lcs = lcDeployed := by
    have hr := rightOf_checked rfl (by decide) hok
    simp [rightOf] at hr
    exact hr.2
  obtain ⟨hdone, hkeys, hroots, a, ht⟩ := signedRow_transition (s := lcReturned) (f := id) (T := id)
    (by decide) rfl hfree hfull hok hmet rfl (fun _ => rfl) (fun _ => ⟨rfl, rfl⟩) (fun _ => rfl) (by decide)
    (by rcases hl with h | h <;> rw [h] <;> decide) hfuses
  exact ⟨hdone, erased_of_keys hkeys hroots, (congrArg TrustSt.att ht).trans rfl⟩

theorem scrap_leaves (hok : d.blockStatus (cmdOf 0x15 b) true true true = 0) (hl : d.lcs ≠ lcScrapped) :
    let e := signedRow 0x15 b d
    e.Transitioned b 0x15 lcScrapped ∧ (e.persist.opRoots = [] ∧ e.keyOf 0 = some (List.replicate 32 0) ∧
      ∀ k, k ≠ 0 → e.keyOf k = none) ∧ e.trust.att = .destroyed := by
  have hmet : d.signedMet (cmdOf 0x15 b) = true := bne_iff_ne.2 hl
  obtain ⟨hdone, hkeys, hroots, a, ht⟩ := signedRow_transition (s := lcScrapped) (f := id) (T := id)
    (by decide) rfl hfree hfull hok hmet rfl (fun _ => rfl) (fun _ => ⟨rfl, rfl⟩) (fun _ => rfl) (by decide)
    (TrustSt.lcs_le _) hfuses
  exact ⟨hdone, erased_of_keys hkeys hroots, (congrArg TrustSt.att ht).trans rfl⟩

end

/-! ### Grants and the attestation key (R502, R506) -/

theorem grantEnd_leaves {g : Grant} (hg : d.trust.grant = some g) (hdur : g.start + g.dur * 600000000 ≤ d.ticks) :
    let e := grantEnd d
    e.trust.grant = none ∧ e.fld DEBUG_STAT_SESSION = 0 ∧ e.fld TRUST_ISTAT_GRANTCHG = 1 ∧
    (d.session = true → e.fld SYSCTL_STAT_DBGATT = 0 ∧ ∀ lp < 16, ∀ k < 8, e.fld (DEBUG_COMPCTL_EN lp k) = 0) := by
  have hdue : d.elapsed g.start (g.dur * 1000 * msTicks) = true := by
    rw [Dev.elapsed, decide_eq_true_eq, Nat.mul_assoc]
    exact hdur
  have he : grantEnd d = d.endGrant.endSession := by
    rw [grantEnd, hg]
    dsimp only
    rw [if_pos hdue]
    rfl
  obtain ⟨ht, -, -, hregs⟩ := endGrant_leaves d
  obtain ⟨hsession, hopen⟩ := endSession_leaves d.endGrant
  have hu := endSession_keeps d.endGrant
  have hs : d.endGrant.session = d.session := on_of_fld (hregs.fld _ (by decide))
  rw [hs] at hopen
  intro e
  have he' : e = d.endGrant.endSession := he
  clear_value e
  rw [he']
  refine ⟨?_, hsession, ?_, hopen⟩
  · rw [hu.trust, ht]
    rfl
  · rw [hu.fld _ (by decide) (by decide) (by decide)]
    exact endGrant_flag hg

theorem entropyFailed_leaves (d : Dev) :
    let e := entropyFailed d
    (d.trust.att = .generating → e.trust.att = .none ∧ e.trust.attSeed = 0) ∧ e.fld TRUST_ISTAT_ENTROPY = 1 ∧
    e.hasFault fiEntropy 0 = true ∧ (d.trust.att = .ready → e.trust.att = .ready) := by
  unfold entropyFailed
  extract_lets _ x
  have hx : x.trust = if d.trust.att = .generating then { d.trust with att := .none, attSeed := 0 } else d.trust := by
    unfold x
    split
    · rfl
    · rfl
  clear_value x
  refine ⟨fun h => ?_, ?_, (Dev.awaits_present _ _ (by decide)).hasFault, fun h => ?_⟩
  · rw [if_pos h] at hx
    exact ⟨congrArg TrustSt.att hx, congrArg TrustSt.attSeed hx⟩
  · rw [fld_present]
    exact fld_flag x
  · rw [if_neg (by rw [h]; decide)] at hx
    exact (congrArg TrustSt.att hx).trans h

end

/-- Settles O40: the five transitions by what a transition leaves, the rows by whether their block waits or meets a condition. -/
theorem lifecycleAndRefusals : Obligations.LifecycleAndRefusals := by
  refine ⟨fun s b => ?_, fun s b => ?_⟩
  · intro d hfree hfull hfuses ok done erased
    refine ⟨fun hok hl => completes_onDev (f := signedRow 0x10 b) rfl fun _ => enrolMaker_leaves hfree hfull hfuses hok hl,
      fun hok hatt hm => completes_onDev (f := signedRow 0x11 b) rfl fun _ => provision_leaves hfree hfull hfuses hok hatt hm,
      fun hok hm => completes_onDev (f := signedRow 0x13 b) rfl fun _ => deploy_leaves hfree hfull hfuses hok hm,
      fun hok hm => completes_onDev (f := signedRow 0x14 b) rfl fun _ => returnToMaker_leaves hfree hfull hfuses hok hm,
      fun hok hl => completes_onDev (f := signedRow 0x15 b) rfl fun _ => scrap_leaves hfree hfull hfuses hok hl⟩
  · intro d
    refine ⟨fun x hx => ?_, fun g hg hdur => completes_onDev (f := grantEnd) rfl fun _ => grantEnd_leaves hg hdur,
      fun hatt => ⟨completes_onDev (f := attReady) rfl fun _ => if_pos hatt,
        completes_onDev (f := entropyFailed) rfl fun _ => (entropyFailed_leaves d).1 hatt⟩,
      completes_onDev (f := entropyFailed) rfl fun _ => (entropyFailed_leaves d).2⟩
    have hcodes : ∀ n ∈ [0x10, 0x11, 0x12, 0x13, 0x14, 0x15, 0x16, 0x17, 0x18, 0x19, 0x1A, 0x1C],
        (8 < n ∧ n < 256) ∧ signedCode n = true := by decide
    obtain ⟨hcode, hsigned⟩ := hcodes x.2 (List.mem_map_of_mem (f := Prod.snd) hx)
    have hexec : exec x.1 s = s.onDev (fun d => signedRow x.2 b d) := by
      simp only [List.mem_cons, List.not_mem_nil, or_false] at hx
      rcases hx with rfl | rfl | rfl | rfl | rfl | rfl | rfl | rfl | rfl | rfl | rfl | rfl <;> rfl
    exact ⟨fun hbusy hroom => completes_onDev hexec fun _ => signedRow_waits hbusy hroom,
      fun hfree hfull hok hmet => completes_onDev hexec fun _ => signedRow_unmet hcode hsigned hfree hfull hok hmet⟩

end Sys2Proof.Machine
end

section
/-! PROOFS. SignedBlocks: fragments, reassembly, and the checks of a block (R491 to R496, R507,
`Obligations.SignedBlocks`). -/

set_option Elab.async false

namespace Sys2Proof.Machine

section
variable {d e : Dev}

/-! ### Fragments (R492) -/

theorem beAt_one_lt (l : List Byte) (o : Nat) : beAt l o 1 < 256 := by
  have h := leNat_lt ((l.drop o).take 1).reverse
  have hlen : ((l.drop o).take 1).reverse.length ≤ 1 := by
    rw [List.length_reverse]
    exact List.length_take_le _ _
  exact lt_of_lt_of_le h (Nat.pow_le_pow_right (by decide) hlen)

/-- The reassembly that a block's first fragment begins. -/
def Dev.newPart (d : Dev) (f : Fragment) : Reassembly :=
  { src := f.src, id := beAt f.bytes 0 2, keyid := f.keyid, cnt := beAt f.bytes 2 1 % 16
    got := [(beAt f.bytes 2 1 / 16, f.bytes.drop 4)], first := d.ticks }

/-- The block that a fragment of its own makes. -/
def Fragment.whole (f : Fragment) : Block :=
  { bytes := f.bytes.drop 4, via := .transport f.src (Fin.ofNat 4 f.keyid) (beAt f.bytes 0 2) }

section
variable {f : Fragment} (hlen : 4 ≤ f.bytes.length) (h1 : 1 ≤ beAt f.bytes 2 1 % 16) (h4 : beAt f.bytes 2 1 % 16 ≤ 4)
  (hidx : beAt f.bytes 2 1 / 16 < beAt f.bytes 2 1 % 16)
  (hnew : ∀ r ∈ d.trust.parts, r.src ≠ f.src ∨ r.id ≠ beAt f.bytes 0 2)
include hlen h1 h4 hidx hnew

/-- The first fragment of a block: it is discarded, makes a whole block, or begins a reassembly. -/
theorem takeFragment_first : d.takeFragment f =
    if 2 ≤ d.trust.parts.length then d.count TRUST_SIGCNT_FRAGLOST
    else if beAt f.bytes 2 1 % 16 ≤ 1 then d.blockArrives f.whole
    else d.setTrust { d.trust with parts := d.trust.parts ++ [d.newPart f] } := by
  have hill : (decide (f.bytes.length < 4) || decide (beAt f.bytes 2 1 % 16 = 0) || decide (4 < beAt f.bytes 2 1 % 16) ||
      decide (beAt f.bytes 2 1 % 16 ≤ beAt f.bytes 2 1 / 16)) = false := by
    simp only [Bool.or_eq_false_iff, decide_eq_false_iff_not]
    omega
  have hno : ∀ r ∈ d.trust.parts, r.is f.src (beAt f.bytes 0 2) = false := fun r hr => by
    rw [Reassembly.is, Bool.and_eq_false_iff, decide_eq_false_iff_not, decide_eq_false_iff_not]
    exact hnew r hr
  have hfind : d.trust.parts.find? (fun r => r.is f.src (beAt f.bytes 0 2)) = none :=
    List.find?_eq_none.2 fun r hr => by rw [hno r hr]; decide
  have hothers : d.trust.parts.filter (fun r => !(r.is f.src (beAt f.bytes 0 2))) = d.trust.parts :=
    List.filter_eq_self.2 fun r hr => by rw [hno r hr]; rfl
  unfold Dev.takeFragment
  dsimp only
  rw [hill, if_neg Bool.false_ne_true, hfind, hothers]
  by_cases hfull : 2 ≤ d.trust.parts.length
  · rw [decide_eq_true hfull, if_pos hfull]
    rfl
  · rw [decide_eq_false hfull, if_neg hfull]
    have hput : (((none : Option Reassembly).getD
        { src := f.src, id := beAt f.bytes 0 2, keyid := f.keyid, cnt := beAt f.bytes 2 1 % 16, got := [], first := d.ticks }).put
        (beAt f.bytes 2 1 / 16) (f.bytes.drop 4)) = d.newPart f := rfl
    have hwhole : (d.newPart f).got.flatMap (fun (e : Nat × List Byte) => e.2) = f.bytes.drop 4 := List.append_nil _
    rw [hput, hwhole]
    rfl

end

/-! ### The island's reassembly -/

theorem fragmentReceive_cons {f : Fragment} {rest : List Fragment} (h : d.trust.frags = f :: rest) :
    fragmentReceive d = (d.setTrust { d.trust with frags := rest }).takeFragment f := by
  rw [fragmentReceive, h]
  rfl

theorem blockArrives_full {k : Block} (h : 3 ≤ d.trust.waiting.length) :
    d.blockArrives k = d.answerBlock k.command.role
      { via := k.via, code := k.command.code, status := stBusy, ctr := k.command.ctr } := by
  have hfull : blockPlaces ≤ d.trust.waiting.length := h
  rw [Dev.blockArrives, if_pos hfull]

theorem reassemblyTimeout_leaves {a c : List Reassembly} {r : Reassembly} (hp : d.trust.parts = a ++ r :: c)
    (ha : ∀ x ∈ a, d.ticks < x.first + 60000000) (hr : r.first + 60000000 ≤ d.ticks) :
    let e := reassemblyTimeout d
    (∀ x ∈ e.trust.parts, x.src ≠ r.src ∨ x.id ≠ r.id) ∧
    e = { d with io := e.io, trust := { d.trust with parts := e.trust.parts } } ∧
    e.fld TRUST_SIGCNT_FRAGLOST = min (2 ^ TRUST_SIGCNT_FRAGLOST.w - 1) (d.fld TRUST_SIGCNT_FRAGLOST + 1) := by
  have hdue : ∀ x : Reassembly, d.elapsed x.first (100 * msTicks) = decide (x.first + 60000000 ≤ d.ticks) := fun _ => rfl
  have hfind : d.trust.parts.find? (fun r => d.elapsed r.first (100 * msTicks)) = some r := by
    rw [hp, List.find?_append, List.find?_eq_none.2 fun x hx => by rw [hdue, decide_eq_true_eq]; exact Nat.not_le.2 (ha x hx),
      Option.none_or, List.find?_cons_of_pos (by rw [hdue, decide_eq_true hr])]
  have he : reassemblyTimeout d = (d.setTrust { d.trust with
      parts := d.trust.parts.filter (fun x => !(x.is r.src r.id)) }).count TRUST_SIGCNT_FRAGLOST := by
    rw [reassemblyTimeout, hfind]
    rfl
  intro e
  have he' : e = _ := he
  clear_value e
  rw [he']
  refine ⟨fun x hx => ?_, rfl, fld_count (by decide)⟩
  obtain ⟨-, hx'⟩ := List.mem_filter.1 hx
  rw [Bool.not_eq_true', Reassembly.is, Bool.and_eq_false_iff, decide_eq_false_iff_not, decide_eq_false_iff_not] at hx'
  exact hx'

theorem command_code_whole (f : Fragment) : f.whole.command.code < 256 := beAt_one_lt _ _

theorem fragmentReceive_leaves {f : Fragment} {rest : List Fragment} (hf : d.trust.frags = f :: rest)
    (hlen : 4 ≤ f.bytes.length) (h1 : 1 ≤ beAt f.bytes 2 1 % 16) (h4 : beAt f.bytes 2 1 % 16 ≤ 4)
    (hidx : beAt f.bytes 2 1 / 16 < beAt f.bytes 2 1 % 16)
    (hnew : ∀ r ∈ d.trust.parts, r.src ≠ f.src ∨ r.id ≠ beAt f.bytes 0 2) :
    let e := fragmentReceive d
    e.trust.frags = rest ∧
    (beAt f.bytes 2 1 % 16 = 1 → d.trust.parts.length < 2 → d.trust.waiting.length < 3 →
      e = { d with trust := { d.trust with frags := rest, waiting := d.trust.waiting ++ [f.whole] } }) ∧
    (beAt f.bytes 2 1 % 16 = 1 → d.trust.parts.length < 2 → 3 ≤ d.trust.waiting.length → e.trust.waiting = d.trust.waiting ∧
      e.fld TRUST_LASTCMD_STATUS = 0x17 ∧ ∃ a, e.trust.answer = some a ∧ a.status = 0x17 ∧ a.via = f.whole.via) ∧
    (1 < beAt f.bytes 2 1 % 16 → d.trust.parts.length < 2 → e = { d with trust := { d.trust with
      frags := rest, parts := d.trust.parts ++ [d.newPart f] } }) ∧
    (2 ≤ d.trust.parts.length → e.trust.parts = d.trust.parts ∧ e.trust.waiting = d.trust.waiting ∧
      e.fld TRUST_SIGCNT_FRAGLOST = min (2 ^ TRUST_SIGCNT_FRAGLOST.w - 1) (d.fld TRUST_SIGCNT_FRAGLOST + 1)) := by
  have hcons := fragmentReceive_cons hf
  have hfirst := takeFragment_first (d := d.setTrust { d.trust with frags := rest }) hlen h1 h4 hidx hnew
  have hparts : (d.setTrust { d.trust with frags := rest }).trust.parts.length = d.trust.parts.length := rfl
  rw [hfirst, hparts] at hcons
  intro e
  have he : e = _ := hcons
  clear_value e
  by_cases hfull : 2 ≤ d.trust.parts.length
  · rw [if_pos hfull] at he
    rw [he]
    exact ⟨rfl, fun _ h => absurd h (Nat.not_lt.2 hfull), fun _ h => absurd h (Nat.not_lt.2 hfull),
      fun _ h => absurd h (Nat.not_lt.2 hfull), fun _ => ⟨rfl, rfl, fld_count (by decide)⟩⟩
  · rw [if_neg hfull] at he
    by_cases hone : beAt f.bytes 2 1 % 16 ≤ 1
    · rw [if_pos hone] at he
      have hnot : ¬ 1 < beAt f.bytes 2 1 % 16 := Nat.not_lt.2 hone
      by_cases hroom : d.trust.waiting.length < 3
      · rw [blockArrives_room (d := d.setTrust { d.trust with frags := rest }) hroom] at he
        rw [he]
        exact ⟨rfl, fun _ _ _ => rfl, fun _ _ h => absurd hroom (Nat.not_lt.2 h), fun h => absurd h hnot,
          fun h => absurd h hfull⟩
      · have hthree : 3 ≤ d.trust.waiting.length := Nat.not_lt.1 hroom
        rw [blockArrives_full (d := d.setTrust { d.trust with frags := rest }) hthree] at he
        obtain ⟨-, hst, ht, -, -⟩ := answerBlock_leaves (d.setTrust { d.trust with frags := rest }) f.whole.command.role
          { via := f.whole.via, code := f.whole.command.code, status := stBusy, ctr := f.whole.command.ctr }
          (command_code_whole f) (show stBusy < 256 by decide)
        rw [← he] at hst ht
        exact ⟨congrArg TrustSt.frags ht, fun _ _ h => absurd h hroom,
          fun _ _ _ => ⟨(congrArg TrustSt.waiting ht).trans rfl, hst, _, congrArg TrustSt.answer ht, rfl, rfl⟩, fun h => absurd h hnot,
          fun h => absurd h hfull⟩
    · rw [if_neg hone] at he
      rw [he]
      exact ⟨rfl, fun h => absurd h.le hone, fun h => absurd h.le hone, fun _ _ => rfl, fun h => absurd h hfull⟩

/-! ### Blocks that a check stops (R493, R507) -/

/-- The device without what the audit of failed blocks changes. -/
def Dev.butAudit (d : Dev) : Dev :=
  { d.butJournal with trust := { d.trust with sigTimes := [], auditAt := none, auditPend := 0 } }

/-- `e` is `d` with a failed block counted and audited. -/
structure Dev.Audited (d e : Dev) : Prop where
  rest : e.butAudit = d.butAudit
  regs : d.Regs e noteRegs

theorem Dev.Audited.refl (d : Dev) : d.Audited d := ⟨rfl, .refl d _⟩

theorem Dev.Audited.note {f : Dev} (h : d.Audited e) (h' : e.Noted f) : d.Audited f :=
  ⟨(congrArg (fun x : Dev => { x with trust := { x.trust with sigTimes := [], auditAt := none, auditPend := 0 } })
    h'.rest : f.butAudit = e.butAudit).trans h.rest, h.regs.trans h'.regs⟩

theorem Dev.Audited.setTrust {t : TrustSt} (h : d.Audited e)
    (ht : { t with sigTimes := [], auditAt := none, auditPend := 0 } =
      ({ e.trust with sigTimes := [], auditAt := none, auditPend := 0 } : TrustSt)) : d.Audited (e.setTrust t) := by
  refine ⟨Eq.trans ?_ h.rest, h.regs.trans (regs_setTrust e t _)⟩
  show { e.butJournal with trust := { t with sigTimes := [], auditAt := none, auditPend := 0 } } = e.butAudit
  rw [ht]
  rfl

theorem Dev.Audited.ite {f : Dev} {c : Prop} {_ : Decidable c} (he : d.Audited e) (hf : d.Audited f) :
    d.Audited (if c then e else f) := by
  split
  · exact he
  · exact hf

section
variable (h : d.Audited e)
include h

theorem Dev.Audited.signatureFailed {role : Nat} : d.Audited (e.signatureFailed role) := by
  unfold Dev.signatureFailed
  extract_lets ts
  split
  · exact (h.setTrust (t := { e.trust with sigTimes := [] }) rfl).note (Dev.Noted.refl _).present
  · exact h.setTrust (t := { e.trust with sigTimes := ts }) rfl

theorem Dev.Audited.auditCounts : d.Audited e.auditCounts := by
  unfold Dev.auditCounts
  extract_lets due
  split
  · exact (h.setTrust (t := { e.trust with auditAt := some e.ticks, auditPend := 0 }) rfl).note (Dev.Noted.refl _).journal
  · exact h

theorem Dev.Audited.blockFailed {role status : Nat} : d.Audited (e.blockFailed role status) := by
  unfold Dev.blockFailed
  extract_lets x y z
  have hx : d.Audited x := .ite (h.note ((Dev.Noted.refl e).setFld (f := TRUST_SIGCNT_REPLAY)))
    (h.note ((Dev.Noted.refl e).setFld (f := TRUST_SIGCNT_SIGFAIL)))
  have hy : d.Audited y := .ite (hx.note ((Dev.Noted.refl x).setFld (f := TRUST_ISTAT_SIGFAIL))) hx
  have hz : d.Audited z := .ite hy.signatureFailed hy
  clear_value z
  exact (hz.setTrust (t := { z.trust with auditPend := z.trust.auditPend + 1 }) rfl).auditCounts

theorem Dev.Audited.persist : e.persist = d.persist :=
  show e.butAudit.persist = d.butAudit.persist from congrArg Dev.persist h.rest
theorem Dev.Audited.eth : e.eth = d.eth := show e.butAudit.eth = d.butAudit.eth from congrArg Dev.eth h.rest

/-- Of the trust state, the times of signature failures and the audit's counts alone change. -/
theorem Dev.Audited.trust : e.trust = { d.trust with
    sigTimes := e.trust.sigTimes, auditAt := e.trust.auditAt, auditPend := e.trust.auditPend } := by
  have ht : { e.trust with sigTimes := [], auditAt := none, auditPend := 0 } =
      ({ d.trust with sigTimes := [], auditAt := none, auditPend := 0 } : TrustSt) :=
    show e.butAudit.trust = d.butAudit.trust from congrArg Dev.trust h.rest
  exact congrArg (fun t : TrustSt => { t with
    sigTimes := e.trust.sigTimes, auditAt := e.trust.auditAt, auditPend := e.trust.auditPend }) ht

end

/-- A block of `d` that is stopped with status `st`, the blocks that wait behind it at `rest`. -/
def Dev.Stopped (d : Dev) (c : SignedCmd) (rest : List Block) (st : Nat) (e : Dev) : Prop :=
  e.fld TRUST_LASTCMD_STATUS = st ∧ e.persist = { d.persist with epoch := e.persist.epoch } ∧
  (d.eth.wrapped = false → e.persist.epoch = d.persist.epoch) ∧
  (∃ a, e.trust.answer = some a ∧ a.status = st ∧ a.code = c.code ∧ a.ctr = c.ctr ∧ a.via = c.via) ∧
  e.trust.grant = d.trust.grant ∧ e.trust.lcsFuses = d.trust.lcsFuses ∧ e.trust.waiting = rest ∧
  e.trust.instRoots = d.trust.instRoots ∧ e.trust.revoked = d.trust.revoked

section
variable {c : SignedCmd} {rest : List Block} {st : Nat} {x y : Dev}

theorem stopped_answerBlock (hx : x = d.setTrust { d.trust with waiting := rest }) (h : x.Audited y) (hcode : c.code < 256)
    (hst : st < 256) : d.Stopped c rest st (y.answerBlock c.role (c.answer st [])) := by
  obtain ⟨-, hs, ht, hp, -⟩ := answerBlock_leaves y c.role (c.answer st []) hcode hst
  have hepoch := fun hw => epoch_answerBlock (d := y) (a := c.answer st []) c.role hw rfl
  have hpersist : y.persist = d.persist := h.persist.trans (by rw [hx]; rfl)
  have heth : y.eth = d.eth := h.eth.trans (by rw [hx]; rfl)
  have htrust := h.trust
  have hkept : y.trust.grant = d.trust.grant ∧ y.trust.lcsFuses = d.trust.lcsFuses ∧ y.trust.waiting = rest ∧
      y.trust.instRoots = d.trust.instRoots ∧ y.trust.revoked = d.trust.revoked := by
    rw [htrust, hx]
    exact ⟨rfl, rfl, rfl, rfl, rfl⟩
  rw [hpersist] at hp hepoch
  rw [heth] at hepoch
  obtain ⟨hgrant, hfuses, hwaiting, hinst, hrevoked⟩ := hkept
  generalize y.answerBlock c.role (c.answer st []) = e at *
  refine ⟨hs, hp, hepoch, ⟨_, congrArg TrustSt.answer ht, rfl, rfl, rfl, rfl⟩, ?_⟩
  rw [ht]
  exact ⟨hgrant, hfuses, hwaiting, hinst, hrevoked⟩

theorem stopped_runBlock {fmt dev sig : Bool} {seed : Nat} (hx : x = d.setTrust { d.trust with waiting := rest })
    (h : x.blockStatus c fmt dev sig = st) (h0 : st ≠ 0) (hcode : c.code < 256) (hst : st < 256) :
    d.Stopped c rest st (x.runBlock c fmt dev sig seed) := by
  rw [runBlock_stopped (by rw [h]; exact h0), h]
  exact stopped_answerBlock hx (Dev.Audited.refl x).blockFailed hcode hst

/-- A code of neither table ends UNKNOWN. -/
theorem stopped_unknown {fmt dev sig : Bool} {seed : Nat} (hx : x = d.setTrust { d.trust with waiting := rest })
    (h : x.blockStatus c fmt dev sig = 0) (hcode : c.code < 256) (hunknown : signedCode c.code = false) :
    d.Stopped c rest 2 (x.runBlock c fmt dev sig seed) := by
  have hj : x.judgeSigned c seed = (cmdUnknown, [], x.cmdStat c.code cmdUnknown) := by
    rw [Dev.judgeSigned, hunknown]
    rfl
  have hne : (decide (cmdUnknown = cmdDone) && x.resetsDevice c) = false := rfl
  rw [runBlock_checked h, hj, hne, if_neg Bool.false_ne_true]
  exact stopped_answerBlock hx ((Dev.Audited.refl x).note (Dev.Noted.refl x).cmdStat) hcode (by decide)

end

/-! ### The seven checks (R493) -/

/-- The checks in their order, for every code but ENROL_MAKER's. -/
theorem blockStatus_eq {c : SignedCmd} {fmt dev sig : Bool} (hc : c.code ≠ 0x10) : d.blockStatus c fmt dev sig =
    if ¬ (fmt = true ∧ argLegal c.code c.arg = true) then 0x10
    else if ¬ dev = true then 0x11
    else if ¬ d.usable c.role c.slot = true then 0x12
    else if ¬ d.rightsOk c = true then 0x13
    else if ¬ arrGet 0 d.persist.ctrs c.role < c.ctr then 0x14
    else if ¬ sig = true then 0x15
    else if ¬ (c.code ∈ [0x11, 0x1B] → c.via = .tender) then 0x16 else 0 := by
  have hpath : (tenderOnly c.code && c.via != .tender) = true ↔ ¬ (c.code ∈ [0x11, 0x1B] → c.via = .tender) := by
    simp [tenderOnly, hc]
  have hfmt : (!fmt || !argLegal c.code c.arg) = true ↔ ¬ (fmt = true ∧ argLegal c.code c.arg = true) := by
    cases fmt <;> cases argLegal c.code c.arg <;> decide
  have hroot : (c.code != 0x10 && !d.usable c.role c.slot) = true ↔ ¬ d.usable c.role c.slot = true := by
    simp [hc]
  have hsig : (c.code != 0x10 && !sig) = true ↔ ¬ sig = true := by
    simp [hc]
  have hnot : ∀ x : Bool, (!x) = true ↔ ¬ x = true := by decide
  unfold Dev.blockStatus
  simp only [hfmt, hroot, hsig, hpath, hnot, Dev.roleCtr, Nat.not_lt]
  rfl

theorem blockCheck_row {b : Block} {rest : List Block} {x : RowBlock} (hfree : d.carrying = false)
    (hw : d.trust.waiting = b :: rest) (hrow : b.row = some x) :
    blockCheck d = signedRow x.code x.arg (d.setTrust { d.trust with waiting := rest }) x.seeds := by
  have hfree' : (d.setTrust { d.trust with waiting := rest }).carrying = false := hfree
  have hcommand : b.command = cmdOf x.code x.arg := by rw [Block.command, hrow]
  rw [signedRow, hfree', if_neg Bool.false_ne_true, ← hcommand, blockCheck, hfree, if_neg Bool.false_ne_true, hw]
  dsimp only
  rw [hrow]
  rfl

/-- A block that came as bytes, GENKEY's apart: its checks are those of its bytes. -/
theorem blockCheck_bytes {b : Block} {rest : List Block} (hfree : d.carrying = false) (hw : d.trust.waiting = b :: rest)
    (hrow : b.row = none) (hc : b.command.code ≠ 0x12) :
    blockCheck d = (d.setTrust { d.trust with waiting := rest }).runBlock b.command b.formatOk
      (beAt b.bytes 4 8 = d.trust.devuid)
      (d.usable b.command.role b.command.slot && Config.xmssVerify (d.rootOf b.command.role b.command.slot)
        (b.bytes.take (24 + beAt b.bytes 20 2)) (b.bytes.drop (24 + beAt b.bytes 20 2))) (Config.freeNat 0) := by
  rw [blockCheck, hfree, if_neg Bool.false_ne_true, hw]
  dsimp only
  rw [hrow]
  dsimp only
  rw [if_neg hc]
  rfl

theorem command_code_lt {b : Block} (hrow : b.row = none) : b.command.code < 256 := by
  rw [Block.command, hrow]
  exact beAt_one_lt _ _

theorem blockCheck_leaves {b : Block} {rest : List Block} (hfree : d.carrying = false) (hw : d.trust.waiting = b :: rest)
    (hrow : b.row = none) (h10 : b.command.code ≠ 0x10) (h12 : b.command.code ≠ 0x12) :
    let c := b.command
    let n := 24 + beAt b.bytes 20 2
    let fmt := b.formatOk = true ∧ argLegal c.code c.arg = true
    let uid := beAt b.bytes 4 8 = d.trust.devuid
    let root := d.usable c.role c.slot = true
    let right := d.rightsOk c = true
    let newer := arrGet 0 d.persist.ctrs c.role < c.ctr
    let sig := Config.xmssVerify (d.rootOf c.role c.slot) (b.bytes.take n) (b.bytes.drop n) = true
    let path := c.code ∈ [0x11, 0x1B] → c.via = .tender
    let stops := fun st => d.Stopped c rest st (blockCheck d)
    (¬ fmt → stops 0x10) ∧ (fmt → ¬ uid → stops 0x11) ∧ (fmt → uid → ¬ root → stops 0x12) ∧
    (fmt → uid → root → ¬ right → stops 0x13) ∧ (fmt → uid → root → right → ¬ newer → stops 0x14) ∧
    (fmt → uid → root → right → newer → ¬ sig → stops 0x15) ∧
    (fmt → uid → root → right → newer → sig → ¬ path → stops 0x16) ∧
    (fmt → uid → root → right → newer → sig → path → signedCode c.code = false → stops 2) := by
  intro c n fmt uid root right newer sig path stops
  have hcode : c.code < 256 := command_code_lt hrow
  have hrun := blockCheck_bytes hfree hw hrow h12
  have hstatus := blockStatus_eq (d := d.setTrust { d.trust with waiting := rest }) (c := c) (fmt := b.formatOk)
    (dev := decide uid) (sig := d.usable c.role c.slot && Config.xmssVerify (d.rootOf c.role c.slot) (b.bytes.take n)
      (b.bytes.drop n)) h10
  have husable : (d.setTrust { d.trust with waiting := rest }).usable c.role c.slot = d.usable c.role c.slot := rfl
  have hrights : (d.setTrust { d.trust with waiting := rest }).rightsOk c = d.rightsOk c := rfl
  have hctrs : (d.setTrust { d.trust with waiting := rest }).persist.ctrs = d.persist.ctrs := rfl
  rw [husable, hrights, hctrs] at hstatus
  have hstops : ∀ st, (d.setTrust { d.trust with waiting := rest }).blockStatus c b.formatOk (decide uid)
      (d.usable c.role c.slot && Config.xmssVerify (d.rootOf c.role c.slot) (b.bytes.take n) (b.bytes.drop n)) = st →
      st ≠ 0 → st < 256 → stops st := fun st h h0 hst => by
    show d.Stopped c rest st (blockCheck d)
    rw [hrun]
    exact stopped_runBlock rfl h h0 hcode hst
  refine ⟨fun hf => hstops _ ?_ (by decide) (by decide), fun hf hu => hstops _ ?_ (by decide) (by decide),
    fun hf hu hr => hstops _ ?_ (by decide) (by decide), fun hf hu hr hri => hstops _ ?_ (by decide) (by decide),
    fun hf hu hr hri hn => hstops _ ?_ (by decide) (by decide),
    fun hf hu hr hri hn hs => hstops _ ?_ (by decide) (by decide),
    fun hf hu hr hri hn hs hp => hstops _ ?_ (by decide) (by decide), fun hf hu hr hri hn hs hp hunknown => ?_⟩
  · rw [hstatus, if_pos hf]
  · rw [hstatus, if_neg (not_not.2 hf), if_pos (by simpa using hu)]
  · rw [hstatus, if_neg (not_not.2 hf), if_neg (by simpa using hu), if_pos hr]
  · rw [hstatus, if_neg (not_not.2 hf), if_neg (by simpa using hu), if_neg (not_not.2 hr), if_pos hri]
  · rw [hstatus, if_neg (not_not.2 hf), if_neg (by simpa using hu), if_neg (not_not.2 hr), if_neg (not_not.2 hri), if_pos hn]
  · rw [hstatus, if_neg (not_not.2 hf), if_neg (by simpa using hu), if_neg (not_not.2 hr), if_neg (not_not.2 hri),
      if_neg (not_not.2 hn), if_pos (by rw [Bool.and_eq_true]; exact fun h => hs h.2)]
  · rw [hstatus, if_neg (not_not.2 hf), if_neg (by simpa using hu), if_neg (not_not.2 hr), if_neg (not_not.2 hri),
      if_neg (not_not.2 hn), if_neg (by rw [Bool.and_eq_true]; exact not_not.2 ⟨hr, hs⟩), if_pos hp]
  · rw [if_neg (not_not.2 hf), if_neg (by simpa using hu), if_neg (not_not.2 hr), if_neg (not_not.2 hri),
      if_neg (not_not.2 hn), if_neg (by rw [Bool.and_eq_true]; exact not_not.2 ⟨hr, hs⟩), if_neg (not_not.2 hp)] at hstatus
    show d.Stopped c rest 2 (blockCheck d)
    rw [hrun]
    exact stopped_unknown rfl hstatus hcode hunknown

end

/-- Settles O41: fragments by what the first one makes, blocks by the first check that fails. -/
theorem signedBlocks : Obligations.SignedBlocks := by
  refine ⟨fun s => ⟨?_, fun a c r hp ha hr => completes_onDev (f := reassemblyTimeout) rfl fun _ =>
    reassemblyTimeout_leaves hp ha hr⟩, fun s b rest hw => ⟨fun hbusy => ?_, fun x hfree hrow => ?_, fun hfree hrow h10 h12 => ?_⟩⟩
  · intro f rest hf hlen id idx cnt via h1 h4 hidx hnew
    exact completes_onDev (f := fragmentReceive) rfl fun _ => fragmentReceive_leaves hf hlen h1 h4 hidx hnew
  · exact completes_onDev (f := blockCheck) rfl fun _ => if_pos hbusy
  · exact completes_onDev (f := blockCheck) rfl fun _ => blockCheck_row hfree hw hrow
  · exact completes_onDev (f := blockCheck) rfl fun _ => blockCheck_leaves hfree hw hrow h10 h12

end Sys2Proof.Machine
end

section
/-! PROOFS. RootsAndKeys: the signed commands that change roots, keys, policy, installations, grants and the attestation key
(R488 to R490, R497, R501 to R506, `Obligations.RootAndKeyCommands`). -/

set_option Elab.async false

namespace Sys2Proof.Machine

section
variable {d e : Dev} {b : SignedArg} {code : Nat}

/-! ### A command done -/

/-- What a command of R497 that is DONE leaves beside its effect. -/
def Dev.CommandDone (d : Dev) (b : SignedArg) (code : Nat) (e : Dev) : Prop :=
  arrGet 0 e.persist.ctrs b.role = b.ctr ∧ e.fld TRUST_LASTCMD_CODE = code ∧ e.fld TRUST_LASTCMD_STATUS = 0 ∧
  e.trust.lcsFuses = d.trust.lcsFuses

/-- A command whose effect changes the trust state by `T`, keeping the fuses of the lifecycle, and the retained state by `P`,
keeping the counters. -/
theorem signedRow_effect {seeds : Nat} {T : TrustSt → TrustSt} {P : Persist → Persist} (hcode : 8 < code ∧ code < 256)
    (hsigned : signedCode code = true) (hfree : d.carrying = false) (hfull : d.nvs.full = false)
    (hok : d.blockStatus (cmdOf code b) true true true = 0) (hmet : d.signedMet (cmdOf code b) = true)
    (hno : d.resetsDevice (cmdOf code b) = false)
    (heffect : ∀ x : Dev, (d.setPersist (d.persist.counted (cmdOf code b))).Noted x → (x.signedEffect (cmdOf code b) seeds).2.trust = T x.trust ∧
      (x.signedEffect (cmdOf code b) seeds).2.persist = P x.persist)
    (hT : ∀ t, (T t).lcsFuses = t.lcsFuses) (hP : ∀ p, (P p).ctrs = p.ctrs) :
    let e := signedRow code b d seeds
    d.CommandDone b code e ∧ (∃ a, e.trust = { T d.trust with answer := a }) ∧
    e.persist = { P (d.persist.counted (cmdOf code b)) with epoch := e.persist.epoch } := by
  obtain ⟨hc, hst, ht, hp⟩ := signedRow_met (seeds := seeds) hcode hsigned hfree hfull hok hmet hno
  have hn := judged_noted d (cmdOf code b)
  obtain ⟨het, hep⟩ := heffect (d.judged (cmdOf code b)) hn
  rw [het, hn.trust] at ht
  rw [hep, hn.persist] at hp
  intro e
  have hp' : e.persist = { P (d.persist.counted (cmdOf code b)) with epoch := e.persist.epoch } := hp
  refine ⟨⟨?_, hc, hst, ?_⟩, ⟨_, ht⟩, hp'⟩
  · rw [hp']
    show arrGet 0 (P (d.persist.counted (cmdOf code b))).ctrs b.role = b.ctr
    rw [hP]
    exact arrGet_arrSet_same _ _ _ _
  · exact (congrArg TrustSt.lcsFuses ht).trans (hT _)

/-! ### Roots (R488, R489) -/

theorem rootOf_congr (hop : e.persist.opRoots = d.persist.opRoots) (hrev : e.trust.revoked = d.trust.revoked)
    (hinst : e.trust.instRoots = d.trust.instRoots) (hmaker : e.trust.makerRoots = d.trust.makerRoots) (r t : Nat) :
    e.rootOf r t = d.rootOf r t := by
  rw [Dev.rootOf, hop, hrev, hinst, hmaker]
  rfl

/-- The slots that REVOKE_ROOT may name (R493). -/
theorem revocable {arg : List Byte} (h : argLegal 0x16 arg = true) :
    (beAt arg 0 1 = 0 ∧ beAt arg 1 1 < 4) ∨ ((beAt arg 0 1 = 1 ∨ beAt arg 0 1 = 2) ∧ beAt arg 1 1 < 2) := by
  have h' : (decide (arg.length = 2) && (decide (beAt arg 1 1 < 2) && (decide (beAt arg 0 1 = 1) || decide (beAt arg 0 1 = 2)) ||
      (decide (beAt arg 0 1 = 0) && decide (beAt arg 1 1 < 4)))) = true := h
  simp only [Bool.or_eq_true, Bool.and_eq_true, decide_eq_true_eq] at h'
  omega

theorem rootOf_revoke {a i : Nat} (h : (a = 0 ∧ i < 4) ∨ ((a = 1 ∨ a = 2) ∧ i < 2)) (r t : Nat) :
    (d.revoke a i).rootOf r t = if r = a ∧ t = i then [] else d.rootOf r t := by
  by_cases ht : t = i
  · subst ht
    rcases h with ⟨rfl, hi⟩ | ⟨rfl | rfl, hi⟩
    · by_cases h0 : r = 0
      · simp [Dev.revoke, Dev.rootOf, h0]
      · simp [Dev.revoke, Dev.rootOf, h0]
    · by_cases h1 : r = 1
      · simp [Dev.revoke, Dev.rootOf, h1]
      · simp [Dev.revoke, Dev.rootOf, h1, arrGet_arrSet]
    · by_cases h2 : r = 2
      · simp [Dev.revoke, Dev.rootOf, h2]
      · simp [Dev.revoke, Dev.rootOf, h2, arrGet_arrSet]
  · rw [if_neg fun h => ht h.2]
    rcases h with ⟨rfl, hi⟩ | ⟨rfl | rfl, hi⟩
    · simp [Dev.revoke, Dev.rootOf, arrGet_arrSet, ht]
    · have hfar : ¬ 4 + t = 2 + i := by omega
      simp [Dev.revoke, Dev.rootOf, arrGet_arrSet, ht, hfar]
    · by_cases hb : t < 2
      · have hfar : ¬ 2 + t = 4 + i := by omega
        simp [Dev.revoke, Dev.rootOf, arrGet_arrSet, ht, hfar]
      · have hb' : ¬ t ≤ 1 := by omega
        simp [Dev.revoke, Dev.rootOf, arrGet_arrSet, ht, hb']

/-- The trust state with a root revoked, an operator's apart. -/
def TrustSt.withoutRoot (t : TrustSt) (role slot : Nat) : TrustSt :=
  if role = 0 then t else { t with revoked := arrSet false t.revoked (2 * role + slot) true }

/-- The retained state with an operator's root emptied. -/
def Persist.withoutRoot (p : Persist) (role slot : Nat) : Persist :=
  if role = 0 then { p with opRoots := arrSet [] p.opRoots slot [] } else p

theorem lcsFuses_withoutRoot (t : TrustSt) (role slot : Nat) : (t.withoutRoot role slot).lcsFuses = t.lcsFuses := by
  unfold TrustSt.withoutRoot
  split
  · rfl
  · rfl

theorem ctrs_withoutRoot (p : Persist) (role slot : Nat) : (p.withoutRoot role slot).ctrs = p.ctrs := by
  unfold Persist.withoutRoot
  split
  · rfl
  · rfl

theorem opRoots_withoutRoot (p : Persist) (c : SignedCmd) (role slot : Nat) :
    ((p.counted c).withoutRoot role slot).opRoots = (p.withoutRoot role slot).opRoots := by
  unfold Persist.withoutRoot
  split
  · rfl
  · rfl

theorem revoke_eq (d : Dev) (role slot : Nat) :
    (d.revoke role slot).trust = d.trust.withoutRoot role slot ∧ (d.revoke role slot).persist = d.persist.withoutRoot role slot := by
  unfold Dev.revoke TrustSt.withoutRoot Persist.withoutRoot
  split
  · exact ⟨rfl, rfl⟩
  · exact ⟨rfl, rfl⟩

theorem revoke_effect (x : Dev) (b : SignedArg) :
    (x.signedEffect (cmdOf 0x16 b) 0).2.trust = x.trust.withoutRoot (beAt b.arg 0 1) (beAt b.arg 1 1) ∧
    (x.signedEffect (cmdOf 0x16 b) 0).2.persist = x.persist.withoutRoot (beAt b.arg 0 1) (beAt b.arg 1 1) := by
  have he : (x.signedEffect (cmdOf 0x16 b) 0).2 = if beAt b.arg 0 1 = 0 then
      ((x.revoke (beAt b.arg 0 1) (beAt b.arg 1 1)).flag TRUST_ISTAT_ROOTCHG).journal 0x37 [beAt b.arg 1 1, 0]
    else (x.revoke (beAt b.arg 0 1) (beAt b.arg 1 1)).flag TRUST_ISTAT_ROOTCHG := rfl
  have hflag := (Dev.Noted.refl (x.revoke (beAt b.arg 0 1) (beAt b.arg 1 1))).setFld (f := TRUST_ISTAT_ROOTCHG) (v := 1)
  have hn : (x.revoke (beAt b.arg 0 1) (beAt b.arg 1 1)).Noted (x.signedEffect (cmdOf 0x16 b) 0).2 := by
    rw [he]
    exact .ite hflag.journal hflag
  obtain ⟨ht, hp⟩ := revoke_eq x (beAt b.arg 0 1) (beAt b.arg 1 1)
  exact ⟨hn.trust.trans ht, hn.persist.trans hp⟩

section
variable (hfree : d.carrying = false) (hfull : d.nvs.full = false)
include hfree hfull

theorem revokeRoot_leaves (hok : d.blockStatus (cmdOf 0x16 b) true true true = 0)
    (hm : d.mode = modeConfig ∨ d.mode = modeFog) (hmay : d.mayRevoke (cmdOf 0x16 b) = true) :
    let e := signedRow 0x16 b d
    d.CommandDone b 0x16 e ∧ e.usable (beAt b.arg 0 1) (beAt b.arg 1 1) = false ∧
    ∀ r t, ¬ (r = beAt b.arg 0 1 ∧ t = beAt b.arg 1 1) → e.rootOf r t = d.rootOf r t := by
  have hmet : d.signedMet (cmdOf 0x16 b) = true := by
    show ((decide (d.mode = modeConfig) || decide (d.mode = modeFog)) && d.mayRevoke (cmdOf 0x16 b)) = true
    rw [hmay, Bool.and_true, Bool.or_eq_true, decide_eq_true_eq, decide_eq_true_eq]
    exact hm
  obtain ⟨hdone, ⟨a, ht⟩, hp⟩ := signedRow_effect (seeds := 0) (T := fun t => t.withoutRoot (beAt b.arg 0 1) (beAt b.arg 1 1))
    (P := fun p => p.withoutRoot (beAt b.arg 0 1) (beAt b.arg 1 1)) (by decide) rfl hfree hfull hok hmet rfl
    (fun x _ => revoke_effect x b) (fun t => lcsFuses_withoutRoot t _ _) (fun p => ctrs_withoutRoot p _ _)
  have hroot := rootOf_revoke (d := d) (revocable (arg := b.arg) (blockStatus_zero hok).1)
  obtain ⟨hrt, hrp⟩ := revoke_eq d (beAt b.arg 0 1) (beAt b.arg 1 1)
  have hall : ∀ r t, (signedRow 0x16 b d).rootOf r t = (d.revoke (beAt b.arg 0 1) (beAt b.arg 1 1)).rootOf r t := fun r t => by
    refine rootOf_congr ?_ ?_ ?_ ?_ r t
    · rw [hp, hrp]
      exact opRoots_withoutRoot _ _ _ _
    · rw [ht, hrt]
    · rw [ht, hrt]
    · rw [ht, hrt]
  refine ⟨hdone, ?_, fun r t hne => ?_⟩
  · rw [Dev.usable, hall, hroot, if_pos ⟨rfl, rfl⟩]
    rfl
  · rw [hall, hroot, if_neg hne]

theorem setOproot_leaves (hok : d.blockStatus (cmdOf 0x17 b) true true true = 0) (hm : d.mode = modeConfig) :
    let e := signedRow 0x17 b d
    d.CommandDone b 0x17 e ∧ e.rootOf 0 (beAt b.arg 0 1) = b.arg.drop 1 := by
  have hslot : beAt b.arg 0 1 < 4 := by
    have h : (decide (b.arg.length = 65) && decide (beAt b.arg 0 1 < 4)) = true := (blockStatus_zero hok).1
    exact of_decide_eq_true (Bool.and_eq_true_iff.1 h).2
  obtain ⟨hdone, -, hp⟩ := signedRow_effect (seeds := 0) (T := id)
    (P := fun p => { p with opRoots := arrSet [] p.opRoots (beAt b.arg 0 1) (b.arg.drop 1) }) (by decide) rfl hfree hfull hok
    (decide_eq_true hm) rfl (fun x _ => by
      have hn := ((Dev.Noted.refl (x.setPersist { x.persist with
        opRoots := arrSet [] x.persist.opRoots (beAt b.arg 0 1) (b.arg.drop 1) })).journal (type := 0x37)
        (args := [beAt b.arg 0 1, 1]) (body := b.arg.drop 1)).setFld (f := TRUST_ISTAT_ROOTCHG) (v := 1)
      exact ⟨hn.trust, hn.persist⟩) (fun _ => rfl) (fun _ => rfl)
  refine ⟨hdone, ?_⟩
  rw [Dev.rootOf, if_pos rfl, if_pos hslot, hp]
  exact arrGet_arrSet_same _ _ _ _

theorem setKey_leaves (hok : d.blockStatus (cmdOf 0x18 b) true true true = 0)
    (hm : d.mode = modeConfig ∨ d.running = true ∨ d.mode = modeSafeStop) :
    let e := signedRow 0x18 b d
    d.CommandDone b 0x18 e ∧ e.keyOf (beAt b.arg 0 1) = some (List.zipWith (fun p q => p ^^^ q) (b.arg.drop 1)
      (shake256 (d.trust.iwk ++ beBytes 8 d.trust.devuid ++ beBytes 8 b.ctr) 32)) ∧
    ∀ k, k ≠ beAt b.arg 0 1 → e.keyOf k = d.keyOf k := by
  have hmet : d.signedMet (cmdOf 0x18 b) = true := by
    show (decide (d.mode = modeConfig) || d.running || decide (d.mode = modeSafeStop)) = true
    simpa [or_assoc] using hm
  obtain ⟨hdone, -, hp⟩ := signedRow_effect (seeds := 0) (T := id)
    (P := fun p => { p with keys := mapPut p.keys (beAt b.arg 0 1) (d.newKey (b.arg.drop 1) b.ctr) }) (by decide) rfl hfree hfull
    hok hmet rfl (fun x hx => by
      have hkey : d.newKey (b.arg.drop 1) b.ctr = x.newKey (b.arg.drop 1) b.ctr := by rw [Dev.newKey, Dev.newKey, show x.trust = d.trust from hx.trust]
      have hn := ((Dev.Noted.refl (x.setPersist { x.persist with
        keys := mapPut x.persist.keys (beAt b.arg 0 1) (x.newKey (b.arg.drop 1) b.ctr) })).journal (type := 0x36)
        (args := [beAt b.arg 0 1]) (body := [])).setFld (f := TRUST_ISTAT_KEYSET) (v := 1)
      rw [hkey]
      exact ⟨hn.trust, hn.persist⟩) (fun _ => rfl) (fun _ => rfl)
  have hkeys : (signedRow 0x18 b d).persist.keys = mapPut d.persist.keys (beAt b.arg 0 1) (d.newKey (b.arg.drop 1) b.ctr) :=
    (congrArg Persist.keys hp).trans rfl
  refine ⟨hdone, ?_, fun k hk => ?_⟩
  · rw [Dev.keyOf, hkeys, mapFind_mapPut_same]
    rfl
  · rw [Dev.keyOf, hkeys, mapFind_mapPut_ne _ _ hk]
    rfl

theorem setPolicy_leaves (hok : d.blockStatus (cmdOf 0x19 b) true true true = 0) (hm : d.mode = modeConfig) :
    let e := signedRow 0x19 b d
    d.CommandDone b 0x19 e ∧ e.persist.opCosign = (beAt b.arg 0 1).testBit 0 ∧
    e.persist.opInstall = (beAt b.arg 0 1).testBit 1 := by
  obtain ⟨hdone, -, hp⟩ := signedRow_effect (seeds := 0) (T := id)
    (P := fun p => { p with opCosign := (beAt b.arg 0 1).testBit 0, opInstall := (beAt b.arg 0 1).testBit 1 }) (by decide) rfl
    hfree hfull hok (decide_eq_true hm) rfl (fun x _ => by
      have hn := (Dev.Noted.refl (x.setPersist { x.persist with
        opCosign := (beAt b.arg 0 1).testBit 0, opInstall := (beAt b.arg 0 1).testBit 1 })).journal (type := 0x38)
        (args := [beAt b.arg 0 1]) (body := [])
      exact ⟨hn.trust, hn.persist⟩) (fun _ => rfl) (fun _ => rfl)
  exact ⟨hdone, congrArg Persist.opCosign hp, congrArg Persist.opInstall hp⟩

theorem debugGrant_leaves (hok : d.blockStatus (cmdOf 0x1B b) true true true = 0) :
    let e := signedRow 0x1B b d
    d.CommandDone b 0x1B e ∧ ∃ g, e.trust.grant = some g ∧ g.pairs = beAt b.arg 0 2 ∧
      g.rights = beAt b.arg 2 1 ∧ g.dur = beAt b.arg 4 4 ∧ g.start = d.ticks ∧ g.regions.length = beAt b.arg 3 1 := by
  obtain ⟨hdone, ⟨a, ht⟩, -⟩ := signedRow_effect (seeds := 0) (T := fun t => { t with grant := some (grantOf b.arg d.ticks) })
    (P := id) (by decide) rfl hfree hfull hok rfl rfl (fun x hx => by
      have hn := ((Dev.Noted.refl (x.setTrust { x.trust with grant := some (grantOf b.arg x.ticks) })).journal (type := 0x39)
        (args := [1, beAt b.arg 0 2, beAt b.arg 2 1, beAt b.arg 4 4]) (body := [])).setFld (f := TRUST_ISTAT_GRANTCHG) (v := 1)
      rw [show d.ticks = x.ticks from hx.ticks.symm]
      exact ⟨hn.trust, hn.persist⟩) (fun _ => rfl) (fun _ => rfl)
  refine ⟨hdone, _, congrArg TrustSt.grant ht, rfl, rfl, rfl, rfl, ?_⟩
  show ((List.range (beAt b.arg 3 1)).map _).length = _
  rw [List.length_map, List.length_range]

theorem genkey_leaves {n : Nat} (hok : d.blockStatus (cmdOf 0x12 b) true true true = 0) (hm : d.mode = modeMaker)
    (hatt : d.trust.att = .none) :
    let e := signedRow 0x12 b d n
    d.CommandDone b 0x12 e ∧ e.trust.att = .generating ∧ e.trust.attSeed = n := by
  have hmet : d.signedMet (cmdOf 0x12 b) = true := by
    show (decide (d.trust.att = .none) && decide (d.mode = modeMaker)) = true
    rw [hatt, hm]
    rfl
  obtain ⟨hdone, ⟨a, ht⟩, -⟩ := signedRow_effect (seeds := n)
    (T := fun t => { t with att := .generating, attSeed := n, attFrom := d.ticks }) (P := id) (by decide) rfl hfree hfull hok
    hmet rfl (fun x hx => by
      rw [show d.ticks = x.ticks from hx.ticks.symm]
      exact ⟨rfl, rfl⟩) (fun _ => rfl) (fun _ => rfl)
  exact ⟨hdone, congrArg TrustSt.att ht, congrArg TrustSt.attSeed ht⟩

end

/-! ### INSTALL (R501) -/

theorem trust_setActive (d : Dev) (b : Bool) : (d.setActive b).trust = d.trust := by
  have he : d.setActive b =
      ((Dev.journal (d.setPersist (d.persist.activated b)) 0x23 [if b then 1 else 0, 0, 0]).showSlots) := rfl
  have hn := (Dev.Noted.refl (d.setPersist (d.persist.activated b))).journal (type := 0x23) (args := [if b then 1 else 0, 0, 0])
    (body := [])
  have ht : ∀ x y : Dev, x.OnlyIo y → y.trust = x.trust := fun x y h => by rw [h]
  rw [he]
  exact (ht _ _ (showSlots_keeps _).1).trans hn.trust

theorem ctrs_activated (p : Persist) (b : Bool) : (p.activated b).ctrs = p.ctrs := by
  unfold Persist.activated
  split
  · rfl
  · rfl

theorem install_inactive (x : Dev) (slot : Nat) : x.Noted (x.install slot 0) := (Dev.Noted.refl x).journal

/-- A slot installed with ACTIVATE, before a reset in FOG. -/
def Dev.installed (x : Dev) (slot : Nat) : Dev := (x.journal 0x3B [slot, 1]).setActive (slot = 1)

theorem installed_leaves (x : Dev) (slot : Nat) : (x.installed slot).trust = x.trust ∧
    (x.installed slot).persist = x.persist.activated (slot = 1) ∧ (x.installed slot).mode = x.mode := by
  have hn := (Dev.Noted.refl x).journal (type := 0x3B) (args := [slot, 1]) (body := [])
  obtain ⟨hp, hf⟩ := setActive_keeps (x.journal 0x3B [slot, 1]) (slot = 1)
  exact ⟨(trust_setActive _ _).trans hn.trust, hp.trans (congrArg (Persist.activated · (slot = 1)) hn.persist),
    (hf _ (by decide)).trans hn.mode⟩

theorem install_active (x : Dev) (slot : Nat) : x.install slot 1 =
    if x.mode = modeFog then (x.installed slot).deviceReset trigFog else x.installed slot := by
  rw [← (installed_leaves x slot).2.2]
  rfl

/-- The operands of INSTALL (R493). -/
theorem installable {arg : List Byte} (h : argLegal 0x1A arg = true) : beAt arg 1 1 = 0 ∨ beAt arg 1 1 = 1 := by
  have h' : (decide (arg.length = 2) && decide (beAt arg 0 1 < 2) && decide (beAt arg 1 1 < 2)) = true := h
  simp only [Bool.and_eq_true, decide_eq_true_eq] at h'
  omega

theorem install_keeps_ctrs {p q : Persist} (h : q.butPairs = p.butPairs) :
    q.ctrs = p.ctrs ∧ q.actSlot = p.actSlot ∧ q.actFail = p.actFail ∧ q.altFail = p.altFail :=
  ⟨show q.butPairs.ctrs = p.butPairs.ctrs by rw [h], show q.butPairs.actSlot = p.butPairs.actSlot by rw [h],
    show q.butPairs.actFail = p.butPairs.actFail by rw [h], show q.butPairs.altFail = p.butPairs.altFail by rw [h]⟩

section
variable (hfree : d.carrying = false) (hfull : d.nvs.full = false)
include hfree hfull

theorem install_leaves (hok : d.blockStatus (cmdOf 0x1A b) true true true = 0) (hboot : d.mode ≠ modeBoot)
    (hstandby : d.mode ≠ modeStandby) (hmay : d.mayInstall (beAt b.arg 0 1) = true) :
    let e := signedRow 0x1A b d
    arrGet 0 e.persist.ctrs b.role = b.ctr ∧
    (beAt b.arg 1 1 = 0 → d.CommandDone b 0x1A e ∧ e.persist.actSlot = d.persist.actSlot ∧
      e.persist.actFail = d.persist.actFail) ∧
    (beAt b.arg 1 1 = 1 → e.persist.actSlot = decide (beAt b.arg 0 1 = 1) ∧ e.persist.actFail = 0 ∧ e.persist.altFail = 0 ∧
      (d.mode ≠ modeFog → d.CommandDone b 0x1A e) ∧ (d.mode = modeFog → e.backInBoot = true)) := by
  have hmet : d.signedMet (cmdOf 0x1A b) = true := by
    show (d.mode != modeBoot && d.mode != modeStandby && d.mayInstall (beAt b.arg 0 1)) = true
    rw [bne_iff_ne.2 hboot, bne_iff_ne.2 hstandby, hmay]
    rfl
  have hresets : d.resetsDevice (cmdOf 0x1A b) = (decide (d.mode = modeFog) && decide (beAt b.arg 1 1 = 1)) := by
    show (false || false || (true && decide (d.mode = modeFog) && decide (beAt b.arg 1 1 = 1))) = _
    rfl
  have heffect : ∀ x : Dev, (x.signedEffect (cmdOf 0x1A b) 0).2 = x.install (beAt b.arg 0 1) (beAt b.arg 1 1) := fun _ => rfl
  rcases installable (arg := b.arg) (blockStatus_zero hok).1 with hact | hact
  · obtain ⟨hdone, -, hp⟩ := signedRow_effect (seeds := 0) (T := id) (P := id) (by decide) rfl hfree hfull hok hmet
      (by rw [hresets, hact]; exact Bool.and_false _) (fun x _ => by
        rw [heffect, hact]
        exact ⟨(install_inactive x _).trust, (install_inactive x _).persist⟩) (fun _ => rfl) (fun _ => rfl)
    exact ⟨hdone.1, fun _ => ⟨hdone, (congrArg Persist.actSlot hp).trans rfl, (congrArg Persist.actFail hp).trans rfl⟩,
      fun h => absurd (hact.symm.trans h) (by decide)⟩
  · have hno : ¬ beAt b.arg 1 1 = 0 := fun h => absurd (hact.symm.trans h) (by decide)
    obtain ⟨hslot, hfail, halt, -⟩ := activated_keeps (d.persist.counted (cmdOf 0x1A b)) (beAt b.arg 0 1 = 1)
    by_cases hfog : d.mode = modeFog
    · obtain ⟨x, hx⟩ : ∃ x, x = (d.judged (cmdOf 0x1A b)).installed (beAt b.arg 0 1) := ⟨_, rfl⟩
      have hn := judged_noted d (cmdOf 0x1A b)
      have hxp : x.persist = (d.persist.counted (cmdOf 0x1A b)).activated (beAt b.arg 0 1 = 1) := by
        rw [hx, (installed_leaves _ _).2.1, hn.persist]
        rfl
      have he : signedRow 0x1A b d = d.withGrantEnd (x.deviceReset trigFog) := by
        rw [signedRow, hfree, if_neg Bool.false_ne_true, runBlock_checked hok,
          judgeSigned_met (c := cmdOf 0x1A b) rfl hfull (show 8 < 0x1A by decide) hmet, hresets, hact, decide_eq_true hfog]
        show d.withGrantEnd ((d.judged (cmdOf 0x1A b)).signedEffect (cmdOf 0x1A b) 0).2 = _
        rw [heffect, hact, install_active, if_pos (hn.mode.trans hfog), hx]
      have hu := withGrantEnd_keeps d (x.deviceReset trigFog)
      have hboot' := (deviceReset_restarts x trigFog).1
      obtain ⟨hctrs, hs, hf, ha⟩ := install_keeps_ctrs (deviceReset_retains x trigFog)
      rw [← he] at hu
      generalize x.deviceReset trigFog = y at *
      intro e
      have hep : e.persist = y.persist := hu.persist
      refine ⟨?_, fun h => absurd h hno, fun _ => ⟨?_, ?_, ?_, fun h => absurd hfog h, fun _ => ?_⟩⟩
      · rw [hep, hctrs, hxp, ctrs_activated]
        exact arrGet_arrSet_same _ _ _ _
      · rw [hep, hs, hxp, hslot]
      · rw [hep, hf, hxp, hfail]
      · rw [hep, ha, hxp, halt]
      · have hmode : e.mode = y.mode := hu.fld _ (by decide) (by decide) (by decide)
        rw [Dev.backInBoot, hmode, hu.starting]
        exact hboot'
    · obtain ⟨hdone, -, hp⟩ := signedRow_effect (seeds := 0) (T := id) (P := fun p => p.activated (beAt b.arg 0 1 = 1))
        (by decide) rfl hfree hfull hok hmet (by rw [hresets, decide_eq_false hfog]; rfl) (fun x hx => by
          rw [heffect, hact, install_active, if_neg (by rw [hx.mode]; exact hfog)]
          obtain ⟨ht, hp, -⟩ := installed_leaves x (beAt b.arg 0 1)
          exact ⟨ht, hp⟩) (fun _ => rfl) (fun p => ctrs_activated p _)
      exact ⟨hdone.1, fun h => absurd h hno, fun _ => ⟨(congrArg Persist.actSlot hp).trans hslot,
        (congrArg Persist.actFail hp).trans hfail, (congrArg Persist.altFail hp).trans halt, fun _ => hdone,
        fun h => absurd h hfog⟩⟩

end

/-! ### ATTEST (R503, R504) -/

/-- The device without the reservation of indices of the attestation key. -/
def Dev.butReserved (d : Dev) : Dev :=
  { d.butJournal with trust := { d.trust with attEnd := 0, attAnchor := 0 }, persist := { d.persist with attBlock := 0 } }

/-- `e` is `d` with indices of the attestation key reserved. -/
structure Dev.Reserved (d e : Dev) : Prop where
  rest : e.butReserved = d.butReserved
  regs : d.Regs e noteRegs

theorem Dev.Reserved.note {f : Dev} (h : d.Reserved e) (h' : e.Noted f) : d.Reserved f :=
  ⟨(congrArg (fun x : Dev => { x with
      trust := { x.trust with attEnd := 0, attAnchor := 0 }, persist := { x.persist with attBlock := 0 } })
    h'.rest : f.butReserved = e.butReserved).trans h.rest, h.regs.trans h'.regs⟩

/-- The block of indices reserved. -/
def Dev.withBlock (d : Dev) (k : Nat) : Dev :=
  { d with persist := { d.persist with attBlock := k + 1 }, trust := { d.trust with attEnd := 1024 * (k + 1) } }

/-- A bit of the anchor blown. -/
def Dev.anchored (d : Dev) : Dev := d.setTrust { d.trust with attAnchor := d.trust.attAnchor + 1 }

theorem withBlock_reserved (d : Dev) (k : Nat) : d.Reserved (d.withBlock k) :=
  ⟨rfl, (Dev.Regs.refl d _).same (f := d.withBlock k) rfl⟩

theorem Dev.Reserved.anchored (h : d.Reserved e) : d.Reserved e.anchored :=
  ⟨Eq.trans rfl h.rest, h.regs.same (f := e.anchored) rfl⟩

theorem reserveAtt_eq (d : Dev) : d.reserveAtt = if d.trust.attNext < d.trust.attEnd then d else
    let x := (d.withBlock (d.trust.attNext / 1024)).journal 0x35 [d.trust.attNext / 1024]
    if d.trust.attNext / 1024 % 2 ^ 20 = 0 && d.trust.attNext / 1024 != 0 then
      x.anchored.journal 0x34 [d.trust.attNext / 1024 / 2 ^ 20]
    else x := rfl

theorem reserveAtt_reserved (d : Dev) : d.Reserved d.reserveAtt := by
  rw [reserveAtt_eq]
  have hx : d.Reserved ((d.withBlock (d.trust.attNext / 1024)).journal 0x35 [d.trust.attNext / 1024]) :=
    (withBlock_reserved d _).note (Dev.Noted.refl _).journal
  generalize (d.withBlock (d.trust.attNext / 1024)).journal 0x35 [d.trust.attNext / 1024] = x at hx ⊢
  split
  · exact ⟨rfl, .refl d _⟩
  · dsimp only
    split
    · exact hx.anchored.note (Dev.Noted.refl _).journal
    · exact hx

section
variable (h : d.Reserved e)
include h

theorem Dev.Reserved.ticks : e.ticks = d.ticks := show e.butReserved.ticks = d.butReserved.ticks from congrArg Dev.ticks h.rest
theorem Dev.Reserved.start : e.start = d.start := show e.butReserved.start = d.butReserved.start from congrArg Dev.start h.rest

theorem Dev.Reserved.trust : e.trust = { d.trust with attEnd := e.trust.attEnd, attAnchor := e.trust.attAnchor } := by
  have ht : { e.trust with attEnd := 0, attAnchor := 0 } = ({ d.trust with attEnd := 0, attAnchor := 0 } : TrustSt) :=
    show e.butReserved.trust = d.butReserved.trust from congrArg Dev.trust h.rest
  exact congrArg (fun t : TrustSt => { t with attEnd := e.trust.attEnd, attAnchor := e.trust.attAnchor }) ht

theorem Dev.Reserved.persist : e.persist = { d.persist with attBlock := e.persist.attBlock } := by
  have hp : ({ e.persist with attBlock := 0 } : Persist) = { d.persist with attBlock := 0 } :=
    show e.butReserved.persist = d.butReserved.persist from congrArg Dev.persist h.rest
  exact congrArg (fun p : Persist => { p with attBlock := e.persist.attBlock }) hp

end

theorem stateBits_congr (h : ∀ f : Fld, f.addr ∉ noteRegs → e.fld f = d.fld f) : e.stateBits = d.stateBits := by
  have hs : ∀ p ∈ List.range 16, stateCode (e.pairState p) * 4 ^ p = stateCode (d.pairState p) * 4 ^ p := fun p hp => by
    have hp' := List.mem_range.1 hp
    have haddr : (PAIRCTL_ROLE_STATE p).addr = 0x010000 + 0x1000 * p := rfl
    have hoff : (PAIRCTL_ROLE_STATE p).addr ∉ noteRegs := by
      simp only [haddr, noteRegs, List.mem_cons, List.not_mem_nil, or_false]
      omega
    rw [Dev.pairState, Dev.pairState, h _ hoff]
  rw [Dev.stateBits, Dev.stateBits, List.map_congr_left hs]

/-- What the statement of R504 speaks of. -/
theorem statement_congr (h : ∀ f : Fld, f.addr ∉ noteRegs → e.fld f = d.fld f) (hfuses : e.trust.lcsFuses = d.trust.lcsFuses)
    (huid : e.trust.devuid = d.trust.devuid) (hticks : e.ticks = d.ticks) (harb : e.persist.arb = d.persist.arb)
    (hstart : e.start = d.start) (nonce : List Byte) : e.statement nonce = d.statement nonce := by
  have hlcs : e.lcs = d.lcs := by rw [Dev.lcs, TrustSt.lcs, hfuses]; rfl
  have hmode : e.mode = d.mode := h _ (by decide)
  have hslot : e.fld SYSCTL_STAT_BOOTSLOT = d.fld SYSCTL_STAT_BOOTSLOT := h _ (by decide)
  rw [Dev.statement, Dev.statement, hlcs, hmode, hslot, huid, Dev.islandTime, Dev.islandTime, hticks, harb, hstart,
    stateBits_congr h]

theorem attest_leaves (d : Dev) (nonce : List Byte) : ∃ x, d.Reserved x ∧
    (d.attest nonce).1 = x.statement nonce ++ (beBytes 5 x.trust.attNext ++
      fixLen 5600 (Config.attSignature x.trust.attSeed x.trust.attNext (x.statement nonce))) ∧
    (d.attest nonce).2.trust = { x.trust with attNext := x.trust.attNext + 1 } ∧ (d.attest nonce).2.persist = x.persist := by
  refine ⟨d.reserveAtt, reserveAtt_reserved d, rfl, ?_⟩
  unfold Dev.attest
  generalize d.reserveAtt = x
  dsimp only
  split
  · exact ⟨rfl, rfl⟩
  · exact ⟨rfl, rfl⟩

theorem attestCommand_leaves (hfree : d.carrying = false) (hfull : d.nvs.full = false)
    (hok : d.blockStatus (cmdOf 0x1C b) true true true = 0) (hm : d.mode ≠ modeStandby) (hatt : d.trust.att = .ready)
    (hnext : d.trust.attNext < 2 ^ 40) :
    let e := signedRow 0x1C b d
    d.CommandDone b 0x1C e ∧ e.trust.attNext = d.trust.attNext + 1 ∧ ∃ a, e.trust.answer = some a ∧
      a.extra = d.statement b.arg ++ beBytes 5 d.trust.attNext ++
        fixLen 5600 (Config.attSignature d.trust.attSeed d.trust.attNext (d.statement b.arg)) := by
  have hmet : d.signedMet (cmdOf 0x1C b) = true := by
    show (decide (d.trust.att = .ready) && d.mode != modeStandby && decide (d.trust.attNext < 2 ^ 40)) = true
    rw [decide_eq_true hatt, bne_iff_ne.2 hm, decide_eq_true hnext]
    rfl
  obtain ⟨hc, hst, ht, hp⟩ := signedRow_met (seeds := 0) (by decide) rfl hfree hfull hok hmet rfl
  have hn := judged_noted d (cmdOf 0x1C b)
  have heffect : (d.judged (cmdOf 0x1C b)).signedEffect (cmdOf 0x1C b) 0 = (d.judged (cmdOf 0x1C b)).attest b.arg := rfl
  obtain ⟨x, hres, hextra, hxt, hxp⟩ := attest_leaves (d.judged (cmdOf 0x1C b)) b.arg
  rw [heffect, hxt] at ht
  rw [heffect, hxp] at hp
  rw [hextra] at ht
  have htrust := hres.trust
  rw [hn.trust] at htrust
  have hpersist := hres.persist
  rw [hn.persist] at hpersist
  have hfuses : x.trust.lcsFuses = d.trust.lcsFuses := by rw [htrust]; rfl
  have huid : x.trust.devuid = d.trust.devuid := by rw [htrust]; rfl
  have hattNext : x.trust.attNext = d.trust.attNext := by rw [htrust]; rfl
  have hseed : x.trust.attSeed = d.trust.attSeed := by rw [htrust]; rfl
  have hctrs : x.persist.ctrs = arrSet 0 d.persist.ctrs b.role b.ctr := by rw [hpersist]; rfl
  have harb : x.persist.arb = d.persist.arb := by rw [hpersist]; rfl
  have hstatement : x.statement b.arg = d.statement b.arg :=
    statement_congr (fun f hf => (hres.regs.fld f hf).trans (hn.regs.fld f hf)) hfuses huid (hres.ticks.trans hn.ticks) harb
      (hres.start.trans hn.start) _
  rw [hstatement, hattNext, hseed] at ht
  intro e
  refine ⟨⟨?_, hc, hst, ?_⟩, congrArg TrustSt.attNext ht, _, congrArg TrustSt.answer ht, ?_⟩
  · have hec : e.persist.ctrs = x.persist.ctrs := (congrArg Persist.ctrs hp).trans rfl
    rw [hec, hctrs]
    exact arrGet_arrSet_same _ _ _ _
  · exact (congrArg TrustSt.lcsFuses ht).trans hfuses
  · exact (List.append_assoc _ _ _).symm

end

/-- Settles O42: each command by what its effect leaves of roots, keys and grants, INSTALL and ATTEST apart. -/
theorem rootAndKeyCommands : Obligations.RootAndKeyCommands := by
  intro s b d hfree hfull ok x done
  exact ⟨fun hok hm hmay => completes_onDev (f := signedRow 0x16 b) rfl fun _ => revokeRoot_leaves hfree hfull hok hm hmay,
    fun hok hm => completes_onDev (f := signedRow 0x17 b) rfl fun _ => setOproot_leaves hfree hfull hok hm,
    fun hok hm => completes_onDev (f := signedRow 0x18 b) rfl fun _ => setKey_leaves hfree hfull hok hm,
    fun hok hm => completes_onDev (f := signedRow 0x19 b) rfl fun _ => setPolicy_leaves hfree hfull hok hm,
    fun hok hb hs hmay => completes_onDev (f := signedRow 0x1A b) rfl fun _ => install_leaves hfree hfull hok hb hs hmay,
    fun hok => completes_onDev (f := signedRow 0x1B b) rfl fun _ => debugGrant_leaves hfree hfull hok,
    fun n hok hm hatt => completes_onDev (f := fun d => signedRow 0x12 b d n) rfl fun _ => genkey_leaves hfree hfull hok hm hatt,
    fun hok hm hatt hnext => completes_onDev (f := signedRow 0x1C b) rfl fun _ =>
      attestCommand_leaves hfree hfull hok hm hatt hnext⟩

end Sys2Proof.Machine
end

section
/-! PROOFS. JournalStore: what seals, appends, chain checks, compaction, erases and remaps leave of the journal (O43; R511 to
R527). -/

set_option Elab.async false

namespace Sys2Proof.Machine

variable {d e : Dev} {n v : Nat}

/-! ### Areas of the store -/

theorem area_setArea (n : NvsSt) (a : JArea) : (n.setArea a).area = a ∧ (n.setArea a).other = n.other ∧ (n.setArea a).active = n.active := by
  unfold NvsSt.setArea NvsSt.area NvsSt.other
  cases n.active <;> exact ⟨rfl, rfl, rfl⟩

theorem area_setOther (n : NvsSt) (a : JArea) : (n.setOther a).other = a ∧ (n.setOther a).area = n.area ∧ (n.setOther a).active = n.active := by
  unfold NvsSt.setOther NvsSt.area NvsSt.other
  cases n.active <;> exact ⟨rfl, rfl, rfl⟩

/-! ### A seal (R516) -/

/-- The device with a fault presented and its bit of NVS.ISTAT set, where `c` holds. -/
def Dev.alerted (d : Dev) (c : Prop) [Decidable c] (input detail : Nat) (f : Fld) : Dev :=
  if c then (d.present input detail).flag f else d

/-- The store after a seal at tick `t` of a page that took `bad` further pages. -/
def NvsSt.sealed (n : NvsSt) (bad t : Nat) : NvsSt :=
  { (n.setArea { n.area with pages := min (n.area.pages + bad + 1) areaPages, entries := n.area.entries ++ n.opened }) with
      opened := [], lastSeal := t, verifyRun := 0
      full := n.full || decide (areaPages ≤ n.area.pages + bad + 1) && n.other.eraseLeft != 0 }

/-- The device with VFAIL counted on. -/
def Dev.vfailed (d : Dev) (bad : Nat) : Dev := d.setFld NVS_JSTAT_VFAIL (satAdd 65535 (d.fld NVS_JSTAT_VFAIL) bad)

theorem alerted_off {c : Prop} [Decidable c] {input detail : Nat} {f g : Fld} (h : f.Apart g) : (d.alerted c input detail f).fld g = d.fld g := by
  unfold Dev.alerted
  split
  · exact (fld_setFld_apart _ _ h).trans (fld_present _ _ _ _)
  · rfl

theorem ticks_alerted {c : Prop} [Decidable c] {input detail : Nat} {f : Fld} (d : Dev) : (d.alerted c input detail f).ticks = d.ticks := by
  unfold Dev.alerted
  split <;> rfl

theorem alerted_awaits {c : Prop} [Decidable c] {input detail : Nat} {f : Fld} (h : d.Awaits n v) : (d.alerted c input detail f).Awaits n v :=
  .ite (h.present.setFld) h

/-- The device after the presentations and counts of a seal. -/
def Dev.sealNoted (d : Dev) (bad : Nat) : Dev :=
  (((d.alerted (3 ≤ d.nvs.verifyRun + bad) fiJfail (d.nvs.area.pages + bad) NVS_ISTAT_JFAIL).vfailed bad).alerted
    ((decide (areaPages ≤ d.nvs.area.pages + bad + 1) && d.nvs.other.eraseLeft != 0) && !d.nvs.full) fiFull (if d.nvs.active then 1 else 0)
    NVS_ISTAT_FULL).count NVS_JSTAT_SEALS

theorem ticks_sealNoted (d : Dev) (bad : Nat) : (d.sealNoted bad).ticks = d.ticks :=
  (ticks_alerted (Dev.vfailed _ bad)).trans (ticks_alerted d)

/-- The device with its store at `n`. -/
def Dev.setNvs (d : Dev) (n : NvsSt) : Dev := { d with nvs := n }

/-- A seal: the pages that failed presented and counted, the page sealed (R516, R523). -/
theorem sealPage_eq (d : Dev) (bad : Nat) :
    d.sealPage bad = (d.sealNoted bad).setNvs (d.nvs.sealed bad d.ticks) := by
  unfold Dev.sealPage
  extract_lets n a run d1 d2 pages ov d3 d4
  have h4 : d4 = d.sealNoted bad := rfl
  have ht : d4.ticks = d.ticks := ticks_sealNoted d bad
  rw [← h4]
  clear_value d4
  rw [← ht]
  rfl

/-- A field apart from what the presentations set is counted on from its value before. -/
theorem sealNoted_counts (d : Dev) (bad : Nat) :
    (d.sealNoted bad).fld NVS_JSTAT_VFAIL = min 65535 (d.fld NVS_JSTAT_VFAIL + bad) ∧
    (d.sealNoted bad).fld NVS_JSTAT_SEALS = min 65535 (d.fld NVS_JSTAT_SEALS + 1) := by
  have hlt : min 65535 (d.fld NVS_JSTAT_VFAIL + bad) < 65536 := by omega
  constructor
  · calc (d.sealNoted bad).fld NVS_JSTAT_VFAIL
        = ((d.alerted (3 ≤ d.nvs.verifyRun + bad) fiJfail (d.nvs.area.pages + bad) NVS_ISTAT_JFAIL).vfailed bad).fld NVS_JSTAT_VFAIL :=
          (fld_setFld_apart _ _ (by decide)).trans (alerted_off (by decide))
      _ = min 65535 (d.fld NVS_JSTAT_VFAIL + bad) % 65536 := by
          rw [Dev.vfailed, fld_setFld_same _ _ (by decide), alerted_off (by decide), satAdd_eq_min]
          rfl
      _ = _ := Nat.mod_eq_of_lt hlt
  · rw [Dev.sealNoted, fld_count (by decide), alerted_off (by decide), Dev.vfailed, fld_setFld_apart _ _ (by decide), alerted_off (by decide)]
    rfl

theorem sealNoted_warns {bad : Nat} (hrun : 3 ≤ d.nvs.verifyRun + bad) (hp : d.nvs.area.pages + bad < 65536) :
    (d.sealNoted bad).fld NVS_ISTAT_JFAIL = 1 ∧ (d.sealNoted bad).hasFault fiJfail (d.nvs.area.pages + bad) = true := by
  have hal : d.alerted (3 ≤ d.nvs.verifyRun + bad) fiJfail (d.nvs.area.pages + bad) NVS_ISTAT_JFAIL
      = (d.present fiJfail (d.nvs.area.pages + bad)).flag NVS_ISTAT_JFAIL := if_pos hrun
  constructor
  · rw [Dev.sealNoted, Dev.count, fld_setFld_apart _ _ (by decide), alerted_off (by decide), Dev.vfailed,
      fld_setFld_apart _ _ (by decide), hal]
    exact fld_flag _
  · have h := Dev.awaits_present d fiJfail hp
    exact (alerted_awaits (d := Dev.vfailed _ bad) (hal ▸ h.flag.setFld)).setFld.hasFault

/-- What a seal leaves: the waiting entries stand sealed, and the fields count it. -/
theorem sealPage_leaves (d : Dev) (bad : Nat) :
    let e := d.sealPage bad
    e.nvs = d.nvs.sealed bad d.ticks ∧ (∀ f, e.fld f = (d.sealNoted bad).fld f) ∧ e.island = (d.sealNoted bad).island := by
  rw [sealPage_eq]
  exact ⟨rfl, fun _ => rfl, rfl⟩

theorem area_sealed (n : NvsSt) (bad t : Nat) :
    (n.sealed bad t).area.entries = n.area.entries ++ n.opened ∧ (n.sealed bad t).other = n.other ∧ (n.sealed bad t).active = n.active := by
  obtain ⟨ha, ho, hx⟩ := area_setArea n { n.area with pages := min (n.area.pages + bad + 1) areaPages, entries := n.area.entries ++ n.opened }
  exact ⟨congrArg JArea.entries ha, ho, hx⟩

theorem sealOpen_none {bad : Nat} (h : d.nvs.opened = []) : sealOpen bad d = d := by
  rw [sealOpen, h]
  rfl

theorem sealOpen_some {bad : Nat} (h : d.nvs.opened ≠ []) : sealOpen bad d = d.sealPage bad := by
  rw [sealOpen, if_neg (by simpa using h)]

theorem sealPeriod_eq (bad : Nat) (d : Dev) :
    sealPeriod bad d = if d.nvs.lastSeal + d.fld NVS_CFG_PERIOD * 60000000 ≤ d.ticks then sealOpen bad d else d := by
  unfold sealPeriod
  simp only [Dev.elapsed, decide_eq_true_eq, Nat.mul_assoc]
  rfl

/-! ### An append (R518) -/

/-- The store while an append is in progress. -/
def Dev.appending (d : Dev) (a : Nat) : Dev := { d with nvs := { d.nvs with append := some a } }.flag NVS_APSTAT_BUSY

theorem appendEnd_leaves (d : Dev) {st : Nat} (hst : st < 8) :
    (d.appendEnd st).fld NVS_APSTAT_STATUS = st ∧ (d.appendEnd st).fld NVS_APSTAT_BUSY = 0 ∧
    (d.appendEnd st).nvs = { d.nvs with append := none } := by
  refine ⟨?_, ?_, rfl⟩
  · rw [Dev.appendEnd, fld_setFld_apart _ _ (by decide), fld_setFld_same _ _ (by decide)]
    exact Nat.mod_eq_of_lt hst
  · rw [Dev.appendEnd, fld_setFld_same _ _ (by decide)]
    rfl

theorem appendWrite_eq {addr : Nat} (h : d.nvs.append = none) : appendWrite addr d = (d.appending (addr / 8 * 8)).tryAppend := by
  rw [appendWrite, h]
  rfl

/-- An entry of a type that is not sealed at once stands open with what it carries. -/
theorem journal_opens_body {type : Nat} (args : List Nat) (body : List Byte) (hs : sealedType type = false) (hf : d.nvs.full = false) :
    ∃ j ∈ (d.journal type args body).nvs.opened, j.type = type ∧ j.args = args ∧ j.body = body := by
  have he : d.journal type args body = d.addEntry type args body := by
    simp only [Dev.journal, hf, hs, Bool.false_eq_true, if_false]
  rw [he, Dev.addEntry, hf, if_neg (by decide)]
  exact ⟨_, List.mem_append_right _ (List.mem_singleton.2 rfl), rfl, rfl, rfl⟩

theorem sealedType_of_software {type : Nat} (h : 0x8000 ≤ type) : sealedType type = false := by
  unfold sealedType
  simp only [Bool.or_eq_false_iff, Bool.and_eq_false_iff, decide_eq_false_iff_not]
  refine ⟨⟨⟨⟨⟨?_, ?_⟩, ?_⟩, ?_⟩, ?_⟩, ?_⟩ <;> omega

theorem tryAppend_standby {a : Nat} (ha : d.nvs.append = some a) (hm : d.mode = modeStandby) : d.tryAppend = d.appendEnd 1 := by
  simp only [Dev.tryAppend, ha, hm, if_true]

section
variable {a : Nat} {h : List Byte} (ha : d.nvs.append = some a) (hm : d.mode ≠ modeStandby)
  (hl : d.engineLoad mNvs a 8 = (h, .ok, d))
include ha hm hl

theorem tryAppend_reserved (ht : leNat (h.take 2) < 0x8000) : d.tryAppend = d.appendEnd 1 := by
  simp only [Dev.tryAppend, ha, if_neg hm, hl, if_pos ht]

theorem tryAppend_long (ht : 0x8000 ≤ leNat (h.take 2)) (hlen : 4096 < leNat ((h.drop 2).take 2)) : d.tryAppend = d.appendEnd 2 := by
  simp only [Dev.tryAppend, ha, if_neg hm, hl, if_neg (Nat.not_lt.2 ht), if_pos hlen]

theorem tryAppend_entry {body : List Byte} (ht : 0x8000 ≤ leNat (h.take 2)) (hlen : leNat ((h.drop 2).take 2) ≤ 4096)
    (hf : d.nvs.full = false) (hb : d.engineLoad mNvs (a + 8) (leNat ((h.drop 2).take 2)) = (body, .ok, d)) :
    d.tryAppend = (if leNat (h.drop 4) % 2 = 1 then sealOpen 0 (d.journal (leNat (h.take 2)) [] body)
      else d.journal (leNat (h.take 2)) [] body).appendEnd 0 := by
  simp only [Dev.tryAppend, ha, if_neg hm, hl, if_neg (Nat.not_lt.2 ht), if_neg (Nat.not_lt.2 hlen), hf, hb,
    Bool.false_eq_true, if_false]

end

/-- The entry of a software type stands open, or sealed where FLAGS asks for the seal (R518). -/
theorem appended_entry {type flags : Nat} (body : List Byte) (ht : 0x8000 ≤ type) (hf : d.nvs.full = false) :
    let e := if flags % 2 = 1 then sealOpen 0 (d.journal type [] body) else d.journal type [] body
    ∃ j, j.type = type ∧ j.body = body ∧
      (if flags % 2 = 1 then e.nvs.opened = [] ∧ j ∈ e.nvs.area.entries else j ∈ e.nvs.opened) := by
  obtain ⟨j, hj, htype, -, hbody⟩ := journal_opens_body [] body (sealedType_of_software ht) hf
  refine ⟨j, htype, hbody, ?_⟩
  by_cases hflag : flags % 2 = 1
  · rw [if_pos hflag, if_pos hflag, sealOpen_some (List.ne_nil_of_mem hj), (sealPage_leaves _ 0).1, (area_sealed _ _ _).1]
    exact ⟨rfl, List.mem_append_right _ hj⟩
  · rwa [if_neg hflag, if_neg hflag]

/-! ### Compaction, erase and remapping (R522, R526) -/

/-- The entries that a compaction leaves in the area that it makes active: a SUMMARY. -/
def Dev.compactSummary (d : Dev) : JEntry :=
  { seq := d.nvs.nextSeq - d.nvs.opened.length, type := 1, time := d.islandTime, args := d.persist.summary }

/-- The area that a compaction makes active. -/
def Dev.compactArea (d : Dev) : JArea :=
  { d.nvs.other with gen := d.nvs.area.gen + 1, pages := 1, seed := chainHash d.nvs.area.chainSeed d.nvs.area.entries
                     entries := [d.compactSummary] }

/-- The store with both areas as a compaction leaves them. -/
def Dev.compactAreas (d : Dev) : NvsSt := (d.nvs.setArea { d.nvs.area with eraseLeft := 128 }).setOther d.compactArea

/-- The store whose areas have changed their parts: its open entries follow a SUMMARY. -/
def NvsSt.swapped (n : NvsSt) : NvsSt :=
  { n with
    active := !n.active, full := false, nextSeq := n.nextSeq + 1
    opened := n.opened.map fun e : JEntry => { e with seq := e.seq + 1 } }

/-- The store after a compaction. -/
def Dev.compacted (d : Dev) : NvsSt := d.compactAreas.swapped

theorem compact_eq (d : Dev) :
    compact d = if 6144 ≤ d.nvs.area.pages && d.nvs.other.eraseLeft = 0 && d.nvs.append.isNone && !(d.on POWER_STAT_PFAIL) then
      (d.setNvs d.compacted).flag NVS_STAT_COMPACT else d := rfl

theorem swapped_areas (n : NvsSt) : n.swapped.area = n.other ∧ n.swapped.other = n.area := by
  unfold NvsSt.swapped NvsSt.area NvsSt.other
  cases n.active <;> exact ⟨rfl, rfl⟩

theorem compactAreas_opened (d : Dev) : d.compactAreas.opened = d.nvs.opened := by
  unfold Dev.compactAreas NvsSt.setOther NvsSt.setArea
  cases d.nvs.active <;> rfl

/-- A compaction leaves a SUMMARY alone in the area that it makes active, and the old area to be erased. -/
theorem compacted_leaves (d : Dev) :
    d.compacted.active = (!d.nvs.active) ∧ d.compacted.area = d.compactArea ∧ d.compacted.other.eraseLeft = 128 ∧
    d.compacted.opened.length = d.nvs.opened.length := by
  obtain ⟨-, -, hact⟩ := area_setArea d.nvs { d.nvs.area with eraseLeft := 128 }
  obtain ⟨hoth, hare, hact'⟩ := area_setOther (d.nvs.setArea { d.nvs.area with eraseLeft := 128 }) d.compactArea
  obtain ⟨hsa, hso⟩ := swapped_areas d.compactAreas
  refine ⟨congrArg Bool.not (hact'.trans hact), hsa.trans hoth, ?_, ?_⟩
  · exact congrArg JArea.eraseLeft (hso.trans (hare.trans (area_setArea d.nvs _).1))
  · exact (List.length_map ..).trans (congrArg List.length (compactAreas_opened d))

/-- The old area of the store, erased once more. -/
def NvsSt.oldErased (n : NvsSt) : NvsSt := n.setOther { gen := n.other.gen, erases := n.other.erases + 1 }

theorem eraseDone_eq (d : Dev) :
    eraseDone d = if d.nvs.other.eraseLeft = 0 || d.on POWER_STAT_PFAIL then d
      else if d.nvs.other.erases + 1 = 90000 then
        (((d.setNvs d.nvs.oldErased).setFld NVS_STAT_COMPACT 0).flag NVS_ISTAT_WEAR).present fiWear d.nvs.otherBlock
      else (d.setNvs d.nvs.oldErased).setFld NVS_STAT_COMPACT 0 := rfl

theorem eraseDone_leaves (he : d.nvs.other.eraseLeft ≠ 0) (hp : d.fld POWER_STAT_PFAIL = 0) :
    let e := eraseDone d
    e.nvs.other = { gen := d.nvs.other.gen, erases := d.nvs.other.erases + 1 } ∧ e.nvs.area = d.nvs.area ∧
    e.fld NVS_STAT_COMPACT = 0 ∧ (d.nvs.other.erases = 89999 → e.fld NVS_ISTAT_WEAR = 1 ∧
      e.hasFault fiWear (if d.nvs.active then 512 else 640) = true) := by
  intro e
  have hx : e = if d.nvs.other.erases + 1 = 90000 then
        (((d.setNvs d.nvs.oldErased).setFld NVS_STAT_COMPACT 0).flag NVS_ISTAT_WEAR).present fiWear d.nvs.otherBlock
      else (d.setNvs d.nvs.oldErased).setFld NVS_STAT_COMPACT 0 :=
    (eraseDone_eq d).trans (if_neg (by simp [he, on_of_zero hp]))
  obtain ⟨hoth, hare, -⟩ := area_setOther d.nvs { gen := d.nvs.other.gen, erases := d.nvs.other.erases + 1 }
  have hcompact : ((d.setNvs d.nvs.oldErased).setFld NVS_STAT_COMPACT 0).fld NVS_STAT_COMPACT = 0 := fld_setFld_same _ _ (by decide)
  clear_value e
  subst hx
  split
  next hw =>
    refine ⟨hoth, hare, ?_, fun _ => ⟨?_, ?_⟩⟩
    · rw [fld_present, Dev.flag, fld_setFld_apart _ _ (by decide), hcompact]
    · rw [fld_present]
      exact fld_flag _
    · have hlt : d.nvs.otherBlock < 65536 := by
        unfold NvsSt.otherBlock
        split <;> decide
      exact (Dev.awaits_present _ _ hlt).hasFault
  next hw => exact ⟨hoth, hare, hcompact, fun h => absurd (congrArg (· + 1) h) hw⟩

/-! ### The statement's parts -/

section
variable {s : State}

theorem seal_completes {bad : Nat} {c : Instr} {f : Dev → Dev} (hc : exec c s = s.onDev f) (hf : f s.dev = sealOpen bad s.dev) :
    (s.dev.nvs.opened = [] → Completes c s fun e => e = s.dev) ∧
    (s.dev.nvs.opened ≠ [] → Completes c s fun e => e = s.dev.sealPage bad) :=
  ⟨fun h => completes_onDev hc fun _ => hf.trans (sealOpen_none h), fun h => completes_onDev hc fun _ => hf.trans (sealOpen_some h)⟩

/-- What a seal leaves of the journal and its counts (R516). -/
theorem sealPage_reports (d : Dev) (bad : Nat) :
    let e := d.sealPage bad
    e.nvs.opened = [] ∧ e.nvs.active = d.nvs.active ∧ e.nvs.area.entries = d.nvs.area.entries ++ d.nvs.opened ∧
    e.nvs.other = d.nvs.other ∧ e.nvs.lastSeal = d.ticks ∧
    e.fld NVS_JSTAT_VFAIL = min 65535 (d.fld NVS_JSTAT_VFAIL + bad) ∧
    e.fld NVS_JSTAT_SEALS = min 65535 (d.fld NVS_JSTAT_SEALS + 1) ∧
    (3 ≤ d.nvs.verifyRun + bad → d.nvs.area.pages + bad < 65536 → e.fld NVS_ISTAT_JFAIL = 1 ∧
      e.hasFault fiJfail (d.nvs.area.pages + bad) = true) := by
  intro e
  obtain ⟨hn, hf, hi⟩ := sealPage_leaves d bad
  obtain ⟨hent, hoth, hact⟩ := area_sealed d.nvs bad d.ticks
  obtain ⟨hv, hs⟩ := sealNoted_counts d bad
  have hnvs : e.nvs = d.nvs.sealed bad d.ticks := hn
  have hfld : ∀ f, e.fld f = (d.sealNoted bad).fld f := hf
  have hisl : e.island = (d.sealNoted bad).island := hi
  clear_value e
  rw [hnvs, hfld, hfld, hfld]
  refine ⟨rfl, hact, hent, hoth, rfl, hv, hs, fun hrun hp => ?_⟩
  obtain ⟨hj, ha⟩ := sealNoted_warns hrun hp
  exact ⟨hj, (Dev.Awaits.of_island ⟨ha⟩ hisl).hasFault⟩

theorem appendEnd_restores {a st : Nat} (hst : st < 8) (ha : d.nvs.append = none) :
    ((d.appending a).appendEnd st).fld NVS_APSTAT_STATUS = st ∧ ((d.appending a).appendEnd st).fld NVS_APSTAT_BUSY = 0 ∧
    ((d.appending a).appendEnd st).nvs = d.nvs := by
  obtain ⟨hs, hb, hn⟩ := appendEnd_leaves (d.appending a) hst
  refine ⟨hs, hb, hn.trans ?_⟩
  show { d.nvs with append := none } = d.nvs
  rw [← ha]

/-- How an append of a readable block ends (R518). -/
theorem appendWrite_leaves {addr : Nat} {h : List Byte} (ha : d.nvs.append = none) (hf : d.nvs.full = false)
    (hl : (d.appending (addr / 8 * 8)).engineLoad mNvs (addr / 8 * 8) 8 = (h, .ok, d.appending (addr / 8 * 8))) :
    let e := appendWrite addr d
    ((leNat (h.take 2) < 0x8000 ∨ d.mode = modeStandby) →
      e.fld NVS_APSTAT_STATUS = 1 ∧ e.fld NVS_APSTAT_BUSY = 0 ∧ e.nvs = d.nvs) ∧
    (0x8000 ≤ leNat (h.take 2) → d.mode ≠ modeStandby → 4096 < leNat ((h.drop 2).take 2) →
      e.fld NVS_APSTAT_STATUS = 2 ∧ e.fld NVS_APSTAT_BUSY = 0 ∧ e.nvs = d.nvs) ∧
    (∀ body, 0x8000 ≤ leNat (h.take 2) → d.mode ≠ modeStandby → leNat ((h.drop 2).take 2) ≤ 4096 →
      (d.appending (addr / 8 * 8)).engineLoad mNvs (addr / 8 * 8 + 8) (leNat ((h.drop 2).take 2))
        = (body, .ok, d.appending (addr / 8 * 8)) →
      e.fld NVS_APSTAT_STATUS = 0 ∧ e.fld NVS_APSTAT_BUSY = 0 ∧ e.nvs.append = none ∧
      ∃ j, j.type = leNat (h.take 2) ∧ j.body = body ∧
        (if leNat (h.drop 4) % 2 = 1 then e.nvs.opened = [] ∧ j ∈ e.nvs.area.entries else j ∈ e.nvs.opened)) := by
  intro e
  have he : e = (d.appending (addr / 8 * 8)).tryAppend := appendWrite_eq ha
  have hap : (d.appending (addr / 8 * 8)).nvs.append = some (addr / 8 * 8) := rfl
  have hfull : (d.appending (addr / 8 * 8)).nvs.full = false := hf
  have hmode : (d.appending (addr / 8 * 8)).mode = d.mode := fld_setFld_apart _ _ (by decide)
  have hback := fun {st : Nat} (hst : st < 8) => appendEnd_restores (a := addr / 8 * 8) hst ha
  clear_value e
  subst he
  generalize d.appending (addr / 8 * 8) = x at *
  refine ⟨fun hor => ?_, fun ht hm hlen => ?_, fun body ht hm hlen hb => ?_⟩
  · by_cases hm : d.mode = modeStandby
    · rw [tryAppend_standby hap (hmode.trans hm)]
      exact hback (by decide)
    · rw [tryAppend_reserved hap (hmode ▸ hm) hl (hor.resolve_right hm)]
      exact hback (by decide)
  · rw [tryAppend_long hap (hmode ▸ hm) hl ht hlen]
    exact hback (by decide)
  · rw [tryAppend_entry hap (hmode ▸ hm) hl ht hlen hfull hb]
    obtain ⟨j, htype, hbody, hj⟩ := appended_entry (flags := leNat (h.drop 4)) body ht hfull
    obtain ⟨hs, hbusy, hn⟩ := appendEnd_leaves (if leNat (h.drop 4) % 2 = 1 then sealOpen 0 (x.journal (leNat (h.take 2)) [] body)
      else x.journal (leNat (h.take 2)) [] body) (st := 0) (by decide)
    rw [hn]
    exact ⟨hs, hbusy, rfl, j, htype, hbody, hj⟩

/-- How the verification of the chain ends (R521). -/
theorem chainVerify_leaves (broken : Option Nat) (h : d.nvs.verifyFrom ≠ none) :
    let e := chainVerify broken d
    e = { d with io := e.io, island := e.island, nvs := { d.nvs with verifyFrom := none } } ∧
    (broken = none → e.fld NVS_STAT_CHAINOK = 1 ∧ e.island = d.island) ∧
    (∀ page < 65536, broken = some page → e.fld NVS_ISTAT_CHAIN = 1 ∧ e.hasFault fiChain page = true ∧
      e.fld NVS_STAT_CHAINOK = d.fld NVS_STAT_CHAINOK) := by
  intro e
  obtain ⟨t, ht⟩ := Option.ne_none_iff_exists'.1 h
  cases broken with
  | none =>
    have he : e = (d.setNvs { d.nvs with verifyFrom := none }).flag NVS_STAT_CHAINOK := by
      simp only [e, chainVerify, ht]
      rfl
    clear_value e
    subst he
    exact ⟨rfl, fun _ => ⟨fld_flag _, rfl⟩, fun _ _ h => (Option.some_ne_none _ h.symm).elim⟩
  | some page =>
    have he : e = ((d.setNvs { d.nvs with verifyFrom := none }).flag NVS_ISTAT_CHAIN).present fiChain page := by
      simp only [e, chainVerify, ht]
      rfl
    clear_value e
    subst he
    refine ⟨rfl, fun h => (Option.some_ne_none _ h).elim, fun page' hp h => ?_⟩
    cases h
    refine ⟨(fld_present ..).trans (fld_flag _), (Dev.awaits_present _ _ hp).hasFault, (fld_present ..).trans ?_⟩
    exact fld_setFld_apart _ _ (by decide)

/-- What a compaction that is due leaves (R522). -/
theorem compact_leaves (hp : 6144 ≤ d.nvs.area.pages) (hoff : d.nvs.other.eraseLeft = 0) (ha : d.nvs.append = none)
    (hpf : d.fld POWER_STAT_PFAIL = 0) : compact d = (d.setNvs d.compacted).flag NVS_STAT_COMPACT :=
  (compact_eq d).trans (if_pos (by simp [hp, hoff, ha, on_of_zero hpf]))

end

/-- Settles O43: each command's effect on the store is one of the lemmas above, for the tick, the flags and the areas. -/
theorem journalAndStore : Obligations.JournalAndStore := by
  unfold Obligations.JournalAndStore
  refine ⟨fun s => ⟨fun bad c hc => ?_, fun _ hlt bad => ?_, fun addr h body ha => ?_, fun broken hv => ?_⟩,
    fun s => ⟨fun hp hoff ha hpf => ?_, fun hp => ?_, fun he hpf => ?_, fun b hs hr => ?_⟩⟩
  · have hseal : (s.dev.nvs.opened = [] → Completes c s fun e => e = s.dev) ∧
        (s.dev.nvs.opened ≠ [] → Completes c s fun e => e = s.dev.sealPage bad) := by
      rcases hc with rfl | ⟨rfl, hdue⟩
      · exact seal_completes (f := sealOpen bad) rfl rfl
      · exact seal_completes (f := sealPeriod bad) rfl ((sealPeriod_eq bad s.dev).trans (if_pos hdue))
    refine ⟨hseal.1, fun hne => (hseal.2 hne).mono ?_⟩
    rintro e rfl
    exact sealPage_reports s.dev bad
  · exact completes_onDev rfl fun _ => (sealPeriod_eq bad s.dev).trans (if_neg (Nat.not_le.2 hlt))
  · intro a d1 type len hl ⟨_, hf⟩
    refine completes_onDev (f := appendWrite addr.toNat) rfl fun _ => ?_
    obtain ⟨hrefused, hlong, hentry⟩ := appendWrite_leaves ha hf hl
    exact ⟨hrefused, hlong, hentry body⟩
  · exact completes_onDev (f := chainVerify broken) rfl fun _ => chainVerify_leaves broken hv
  · refine completes_onDev (f := compact) rfl fun _ => ?_
    rw [compact_leaves hp hoff ha hpf]
    obtain ⟨hact, hare, hoth, hop⟩ := compacted_leaves s.dev
    refine ⟨hact, congrArg JArea.pages hare, congrArg JArea.gen hare, ⟨_, congrArg JArea.entries hare, rfl, rfl⟩,
      congrArg JArea.seed hare, hoth, hop, fld_flag _, rfl⟩
  · exact completes_onDev (f := compact) rfl fun _ => (compact_eq s.dev).trans (if_neg (by simp [Nat.not_le.2 hp]))
  · exact completes_onDev (f := eraseDone) rfl fun _ => eraseDone_leaves he hpf
  · refine completes_onDev (f := blockRemap) rfl fun _ => ?_
    have hb : blockRemap s.dev = s.dev.setNvs { s.dev.nvs with remapped := s.dev.nvs.remapped + 1 } :=
      if_pos (by simp [hs, hr])
    rw [hb]
    exact ⟨rfl, fun _ => rfl⟩

end Sys2Proof.Machine
end

section
/-! PROOFS. SlotOperation: how SLOTCTL begins an operation and what a finished one leaves of slots and evidence (O44; R517,
R525). -/

set_option Elab.async false

namespace Sys2Proof.Machine

variable {d e : Dev}

/-! ### The begin of an operation -/

/-- The device with the fields of SLOTCTL as written. -/
def Dev.slotAsked (d : Dev) (op w : Nat) : Dev :=
  ((d.setFld NVS_SLOTCTL_REC (bitsOf w 4 8)).setFld NVS_SLOTCTL_TGT (if bitsOf w 2 2 = 3 then 2 else bitsOf w 2 2)).setFld NVS_SLOTCTL_OP op

/-- The operation that a write of SLOTCTL names. -/
def Dev.slotNamed (d : Dev) (op w : Nat) : SlotOp :=
  { op := op, tgt := if bitsOf w 2 2 = 3 then 2 else bitsOf w 2 2, record := bitsOf w 4 8
    src := d.fld NVS_SRC_SRC, off := d.fld NVS_OFF_OFF, len := d.fld NVS_LEN_LEN }

/-- The device with an operation under way. -/
def Dev.slotBegun (d : Dev) (o : SlotOp) : Dev :=
  ((d.setNvs { d.nvs with slotOp := some o, stoppedByPf := false }).flag NVS_SLOTSTAT_BUSY).flag NVS_STAT_SLOTBUSY

theorem slotctlWrite_eq {op m w : Nat} (hr : reachesIo m 0x120020 = true) (hm : m ≠ mDebug) (hgo : w.testBit 31 = true) :
    slotctlWrite op m w d =
      if (d.slotAsked op w).nvs.slotOp.isSome || (d.slotAsked op w).opRefused ((d.slotAsked op w).slotNamed op w) then
        (d.slotAsked op w).setFld NVS_SLOTSTAT_STATUS 1
      else (d.slotAsked op w).slotBegun ((d.slotAsked op w).slotNamed op w) := by
  unfold slotctlWrite
  rw [if_neg (by simp [hr, hm])]
  extract_lets tgt x o
  have hx : x = d.slotAsked op w := rfl
  rw [if_neg (by simp [hgo])]
  have ho : o = x.slotNamed op w := rfl
  rw [← hx, ← ho]
  clear_value x
  rfl

theorem slotAsked_fld {op w : Nat} {f : Fld} (h : f.addr ≠ 0x120020) : (d.slotAsked op w).fld f = d.fld f :=
  ((((Dev.Regs.refl d [0x120020]).setFld _ _ (by decide)).setFld _ _ (by decide)).setFld _ _ (by decide)).fld f (by simpa using h)

theorem slotAsked_named (op w : Nat) : (d.slotAsked op w).slotNamed op w = d.slotNamed op w := by
  unfold Dev.slotNamed
  rw [slotAsked_fld (by decide), slotAsked_fld (by decide), slotAsked_fld (by decide)]

/-- Refusal depends on the active slot, the mode, the power failure and the store alone. -/
theorem opRefused_congr (hp : e.persist = d.persist) (hn : e.nvs = d.nvs) (hm : e.mode = d.mode)
    (hf : e.on POWER_STAT_PFAIL = d.on POWER_STAT_PFAIL) (o : SlotOp) : e.opRefused o = d.opRefused o := by
  unfold Dev.opRefused
  rw [hp, hn, hm, hf]

theorem slotAsked_refused (op w : Nat) (o : SlotOp) : (d.slotAsked op w).opRefused o = d.opRefused o :=
  have hm : (d.slotAsked op w).mode = d.mode := slotAsked_fld (by decide)
  opRefused_congr (e := d.slotAsked op w) (d := d) rfl rfl hm (on_of_fld (slotAsked_fld (by decide))) o

/-- A write with GO is refused with STATUS 1, or begins the operation that it names. -/
theorem slotctlWrite_leaves {op m w : Nat} (hr : reachesIo m 0x120020 = true) (hm : m ≠ mDebug) (hgo : w.testBit 31 = true) :
    let e := slotctlWrite op m w d
    ((d.nvs.slotOp ≠ none ∨ d.opRefused (d.slotNamed op w) = true) → e.nvs = d.nvs ∧ e.fld NVS_SLOTSTAT_STATUS = 1 ∧
      e.fld NVS_SLOTSTAT_BUSY = d.fld NVS_SLOTSTAT_BUSY) ∧
    (d.nvs.slotOp = none → d.opRefused (d.slotNamed op w) = false → e.nvs.slotOp = some (d.slotNamed op w) ∧
      e.nvs.flash = d.nvs.flash ∧ e.fld NVS_SLOTSTAT_BUSY = 1 ∧ e.fld NVS_STAT_SLOTBUSY = 1) := by
  intro e
  have he : e = _ := slotctlWrite_eq hr hm hgo
  rw [slotAsked_named, slotAsked_refused, show (d.slotAsked op w).nvs = d.nvs from rfl] at he
  clear_value e
  constructor
  · intro hor
    rw [if_pos (by simpa [Option.isSome_iff_ne_none] using hor)] at he
    subst he
    refine ⟨rfl, fld_setFld_same _ _ (by decide), ?_⟩
    rw [fld_setFld_apart _ _ (by decide), slotAsked_fld (by decide)]
  · intro hnone href
    rw [if_neg (by simp [hnone, href])] at he
    subst he
    refine ⟨rfl, rfl, ?_, fld_flag _⟩
    rw [Dev.slotBegun, Dev.flag, fld_setFld_apart _ _ (by decide)]
    exact fld_flag _

/-- An erase of the active slot is refused outside FOG (R525). -/
theorem opRefused_active {o : SlotOp} (hop : o.op = 0) (ht : o.tgt = if d.persist.actSlot then 1 else 0) (hm : d.mode ≠ modeFog) :
    d.opRefused o = true := by
  simp [Dev.opRefused, hop, ht, hm]

/-! ### The end of an operation -/

/-- The addresses of the slots and of the evidence area (R510). -/
abbrev slotData (a : Nat) : Prop := a < 0x08000000 ∨ (0x0C000000 ≤ a ∧ a < 0x1C000000)

theorem byte_of_slotData {n : NvsSt} {a : Nat} (h : slotData a) : n.byte a = n.flashByte a := by
  unfold NvsSt.byte
  rcases h with h | ⟨h, h'⟩
  · rw [if_pos h]
  · rw [if_neg (by omega), if_neg (by omega), if_neg (by omega), if_pos h']

theorem opEnd_leaves (d : Dev) {st : Nat} (hst : st < 8) :
    ((d.opEnd st).nvs.slotOp = none ∧ (d.opEnd st).fld NVS_SLOTSTAT_STATUS = st ∧ (d.opEnd st).fld NVS_SLOTSTAT_BUSY = 0) ∧
    (d.opEnd st).nvs = { d.nvs with slotOp := none, stoppedByPf := false } := by
  refine ⟨⟨rfl, ?_, ?_⟩, rfl⟩
  · rw [Dev.opEnd, fld_setFld_same _ _ (by decide)]
    exact Nat.mod_eq_of_lt hst
  · rw [Dev.opEnd, fld_setFld_apart _ _ (by decide), fld_setFld_apart _ _ (by decide), fld_setFld_same _ _ (by decide)]
    rfl

theorem opEnd_byte (d : Dev) (st a : Nat) : (d.opEnd st).nvs.byte a = d.nvs.byte a := rfl

/-- An operation that fails leaves every byte outside its range. -/
theorem opFail_leaves {o : SlotOp} {st : Nat} (ho : d.nvs.slotOp = some o) (hst : st < 8) :
    let e := d.opFail st
    (e.nvs.slotOp = none ∧ e.fld NVS_SLOTSTAT_STATUS = st ∧ e.fld NVS_SLOTSTAT_BUSY = 0) ∧
    ∀ a, slotData a → (a < o.range.1 ∨ o.range.1 + o.range.2 ≤ a) → e.nvs.byte a = d.nvs.byte a := by
  intro e
  have hx : d.nvs.spoilRunning d.free = d.nvs.spoilWith o d.free := by rw [NvsSt.spoilRunning, ho]
  refine ⟨(opEnd_leaves _ hst).1, fun a ha hout => ?_⟩
  calc e.nvs.byte a = (d.nvs.spoilRunning d.free).byte a := rfl
    _ = (d.nvs.spoilWith o d.free).flashByte a := by rw [hx, byte_of_slotData ha]
    _ = d.nvs.byte a := by rw [NvsSt.spoilWith_flashByte _ _ _ hout, byte_of_slotData ha]

section
variable {o : SlotOp} (ho : d.nvs.slotOp = some o)
include ho

theorem slotDone_stopped (hp : d.nvs.stoppedByPf = true) (err : Bool) : slotDone err d = d.opFail 4 := by
  simp only [slotDone, ho, hp, if_true]

variable (hp : d.nvs.stoppedByPf = false)
include hp

theorem slotDone_failed : slotDone true d = d.opFail 3 := by
  simp only [slotDone, ho, hp, if_true, Bool.false_eq_true, if_false]

/-- An operation that neither fails nor is stopped ends as its code and target say. -/
theorem slotDone_done :
    slotDone false d =
      if o.op = 0 then (d.setNvs (d.nvs.erased (opRegion o.tgt o.record).1 (opRegion o.tgt o.record).2)).opEnd 0
      else if o.op = 1 then d.opCopy o.src ((opRegion o.tgt o.record).1 + o.off) o.len
      else if o.tgt < 2 then d.opCopy o.src (opRegion o.tgt o.record).1 16384
      else (d.journal 0x40 [o.record, o.len]
        (leBytes 4 o.record ++ leBytes 4 o.len ++ shake256 (d.nvs.bytes (opRegion o.tgt o.record).1 o.len) 32)).opEnd 0 := by
  simp only [slotDone, ho, hp, Bool.false_eq_true, if_false]
  rfl

end

/-- A copy that can be read leaves its bytes in its range. -/
theorem opCopy_leaves {src off len : Nat} {bytes : List Byte} (hl : d.engineLoad mNvs src len = (bytes, .ok, d))
    (hlen : bytes.length = len) :
    let e := d.opCopy src off len
    (e.nvs.slotOp = none ∧ e.fld NVS_SLOTSTAT_STATUS = 0 ∧ e.fld NVS_SLOTSTAT_BUSY = 0) ∧
    ∀ a, slotData a → e.nvs.byte a = if off ≤ a ∧ a < off + len then nth 0 bytes (a - off) else d.nvs.byte a := by
  intro e
  have he : e = (d.setNvs (d.nvs.programmedWith off bytes)).opEnd 0 := by
    simp only [e, Dev.opCopy, hl]
    rfl
  clear_value e
  subst he hlen
  refine ⟨(opEnd_leaves _ (by decide)).1, fun a ha => ?_⟩
  rw [opEnd_byte, byte_of_slotData ha, byte_of_slotData ha]
  exact NvsSt.programmedWith_flashByte _ _ _ _

theorem addEntry_flash (d : Dev) (type : Nat) (args : List Nat) (body : List Byte) :
    (d.addEntry type args body).nvs.flash = d.nvs.flash := by
  unfold Dev.addEntry
  extract_lets
  split <;> rfl

theorem sealed_flash (n : NvsSt) (bad t : Nat) : (n.sealed bad t).flash = n.flash := by
  unfold NvsSt.sealed NvsSt.setArea
  cases n.active <;> rfl

/-- An entry of a type that is sealed at once stands sealed, and no byte of slots or evidence changes (R514). -/
theorem journal_seals {type : Nat} (args : List Nat) (body : List Byte) (hs : sealedType type = true) (hf : d.nvs.full = false) :
    let e := d.journal type args body
    e.nvs.flash = d.nvs.flash ∧ e.nvs.opened = [] ∧ ∃ j ∈ e.nvs.area.entries, j.type = type ∧ j.args = args := by
  intro e
  have he : e.nvs = (d.addEntry type args body).nvs.sealed 0 (d.addEntry type args body).ticks := by
    simp only [e, Dev.journal, hf, hs, Bool.false_eq_true, if_false, if_true]
    exact (sealPage_leaves _ 0).1
  have hj : ∃ j ∈ (d.addEntry type args body).nvs.opened, j.type = type ∧ j.args = args := by
    rw [Dev.addEntry, hf, if_neg (by decide)]
    exact ⟨_, List.mem_append_right _ (List.mem_singleton.2 rfl), rfl, rfl⟩
  obtain ⟨j, hmem, htype, hargs⟩ := hj
  rw [he]
  refine ⟨(sealed_flash _ _ _).trans (addEntry_flash ..), rfl, j, ?_, htype, hargs⟩
  rw [(area_sealed _ _ _).1]
  exact List.mem_append_right _ hmem

theorem bitsOf_eq (w lo n : Nat) : bitsOf w lo n = w / 2 ^ lo % 2 ^ n := by rw [bitsOf, Nat.shiftRight_eq_div_pow]

/-- Settles O44: a write with GO is refused or begins (`slotctlWrite_leaves`), and each end of an operation is a failure,
an erase, a copy or an entry. -/
theorem slotOperations : Obligations.SlotOperations := by
  unfold Obligations.SlotOperations
  refine fun s => ⟨fun m w x hx hr hm hgo => ?_, fun o ho ht hrec => ?_⟩
  · intro tgt o
    have ho : o = s.dev.slotNamed x.2 w.toNat := by
      unfold Dev.slotNamed
      simp only [bitsOf_eq]
      rfl
    have hx' : exec x.1 s = s.onDev (slotctlWrite x.2 m w.toNat) := by
      simp only [List.mem_cons, List.not_mem_nil, or_false] at hx
      rcases hx with rfl | rfl | rfl <;> rfl
    obtain ⟨href, hbeg⟩ := slotctlWrite_leaves (d := s.dev) (op := x.2) hr hm hgo
    rw [← ho] at href hbeg
    exact ⟨fun h => completes_onDev hx' fun _ => href h, fun h h' => completes_onDev hx' fun _ => hbeg h h',
      fun hop ht hmode => opRefused_active hop ht hmode⟩
  · intro base size inData ended kept
    refine ⟨fun hp err => ?_, fun hp => ⟨?_, fun hop => ?_, fun bytes hkind => ?_, fun hop htgt hf => ?_⟩⟩
    · refine completes_onDev (f := slotDone err) rfl fun _ => ?_
      rw [slotDone_stopped ho hp]
      exact opFail_leaves ho (by decide)
    · refine completes_onDev (f := slotDone true) rfl fun _ => ?_
      rw [slotDone_failed ho hp]
      exact opFail_leaves ho (by decide)
    · refine completes_onDev (f := slotDone false) rfl fun _ => ?_
      rw [slotDone_done ho hp, if_pos hop]
      refine ⟨(opEnd_leaves _ (by decide)).1, fun a ha => ?_⟩
      rw [opEnd_byte, byte_of_slotData ha, byte_of_slotData ha]
      exact NvsSt.erased_flashByte _ _ _ _
    · intro off len hl hlen
      refine completes_onDev (f := slotDone false) rfl fun _ => ?_
      rw [slotDone_done ho hp]
      rcases hkind with hop | ⟨hop, htgt⟩
      · have hoff : off = base + o.off := if_pos hop
        have hn : len = o.len := if_pos hop
        clear_value off len
        subst hoff hn
        rw [if_neg (by omega), if_pos hop]
        exact opCopy_leaves hl hlen
      · have hoff : off = base := if_neg (by omega)
        have hn : len = 16384 := if_neg (by omega)
        clear_value off len
        subst hoff hn
        rw [if_neg (by omega), if_neg (by omega), if_pos htgt]
        exact opCopy_leaves hl hlen
    · refine completes_onDev (f := slotDone false) rfl fun _ => ?_
      rw [slotDone_done ho hp, if_neg (by omega), if_neg (by omega), if_neg (by omega)]
      exact ⟨(opEnd_leaves _ (by decide)).1, journal_seals _ _ (by decide) hf⟩

end Sys2Proof.Machine
end

section
/-! PROOFS. FactoryTest: how a BIST run starts, is checked and ends, and what its repairs leave (O45; R528 to R532). -/

set_option Elab.async false

namespace Sys2Proof.Machine

variable {d e : Dev} {p q : Nat}

/-! ### The start of a run (R528) -/

/-- The pair is OFF with its clock stopped. -/
structure Dev.OffAt (d : Dev) (p : Nat) : Prop where
  state : d.pairState p = stOff
  clock : (d.pair p).clockOff = true

theorem Dev.OffAt.congr (h : d.OffAt p) (hs : e.pairState p = d.pairState p) (hp : e.pair p = d.pair p) : e.OffAt p :=
  ⟨hs.trans h.state, hp ▸ h.clock⟩

theorem offAt_bistStop (h : p < d.pairs.length) : (d.bistStop p).OffAt p :=
  ⟨fld_setFld_same _ _ (show 0 + 3 ≤ 32 by decide),
    congrArg Pair.clockOff (pair_setPair_same (d := d) p _ h)⟩

theorem Dev.OffAt.bistStop_ne (h : d.OffAt q) (hne : q ≠ p) : (d.bistStop p).OffAt q :=
  have haddr : Fld.Apart (PAIRCTL_ROLE_STATE p) (PAIRCTL_ROLE_STATE q) := .inl (show 0x010000 + 0x1000 * q ≠ 0x010000 + 0x1000 * p by omega)
  h.congr (fld_setFld_apart _ _ haddr) (pair_setPair_ne (d := d) _ hne)

theorem length_bistStop (d : Dev) (p : Nat) : (d.bistStop p).pairs.length = d.pairs.length := length_setNth ..

theorem offAt_bistStops {l : List Nat} (hl : ∀ p ∈ l, p < d.pairs.length) (h : q ∈ l ∨ d.OffAt q) : (l.foldl Dev.bistStop d).OffAt q := by
  induction l generalizing d with
  | nil => exact h.resolve_left (List.not_mem_nil)
  | cons p l ih =>
    rw [List.forall_mem_cons] at hl
    refine ih (fun r hr => (length_bistStop d p).symm ▸ hl.2 r hr) ?_
    by_cases hq : q = p
    · subst hq
      exact .inr (offAt_bistStop hl.1)
    · rcases h with h | h
      · exact .inl ((List.mem_cons.1 h).resolve_left hq)
      · exact .inr (h.bistStop_ne hq)

/-- The device as the start of a run leaves it once the pairs are OFF. -/
def Dev.bistBegun (d : Dev) : Dev :=
  { ((d.flag TEST_BISTSTAT_BUSY).setFld TEST_BISTSTAT_COUNT 0).setFld TEST_BISTSTAT_LOST 0 with
    test := { d.test with bistFrom := some d.ticks, bistChecked := none, planned := [] } }

theorem bistStart_eq (hm : d.mode = modeMaker) (hl : d.lcs = lcManufacture ∨ d.lcs = lcReturned) (hb : d.fld TEST_BISTSTAT_BUSY = 0) :
    bistStart d = ((List.range 16).foldl Dev.bistStop d).bistBegun := by
  unfold bistStart
  rw [if_pos (by simpa [hm] using hl), if_neg (by simp [on_of_zero hb])]
  extract_lets x y
  change _ = x.bistBegun
  clear_value x
  rfl

theorem bistBegun_fld (d : Dev) :
    d.bistBegun.fld TEST_BISTSTAT_BUSY = 1 ∧ d.bistBegun.fld TEST_BISTSTAT_COUNT = 0 ∧
    ∀ f : Fld, f.addr ≠ 0x130008 → d.bistBegun.fld f = d.fld f := by
  have hio : ∀ f, d.bistBegun.fld f = (((d.flag TEST_BISTSTAT_BUSY).setFld TEST_BISTSTAT_COUNT 0).setFld TEST_BISTSTAT_LOST 0).fld f :=
    fun _ => rfl
  refine ⟨?_, ?_, fun f hf => ?_⟩
  · rw [hio, fld_setFld_apart _ _ (by decide), fld_setFld_apart _ _ (by decide)]
    exact fld_flag _
  · rw [hio, fld_setFld_apart _ _ (by decide)]
    exact fld_setFld_same _ _ (by decide)
  · rw [hio]
    exact ((((Dev.Regs.refl d [0x130008]).setFld _ _ (by decide)).setFld _ _ (by decide)).setFld _ _ (by decide)).fld f (by simpa using hf)

theorem bistStops_ticks (l : List Nat) (d : Dev) : (l.foldl Dev.bistStop d).ticks = d.ticks :=
  foldl_same Dev.ticks Dev.bistStop (fun _ _ => rfl) l d

/-! ### Records (R531) and the end of a run (R530) -/

/-- A run that ends sets STATUS and BUSY alone of BISTSTAT, and leaves no word of a bank valid. -/
theorem bistOver_leaves (d : Dev) {st : Nat} (hst : st < 8) :
    let e := d.bistOver st
    e.fld TEST_BISTSTAT_BUSY = 0 ∧ e.fld TEST_BISTSTAT_STATUS = st ∧
    (∀ inst < 88, ∀ w, (ramRead e.mem.ram (bankKey inst w) w).value = 0) ∧
    ∀ f : Fld, Fld.Apart TEST_BISTSTAT_STATUS f → Fld.Apart TEST_BISTSTAT_BUSY f → e.fld f = d.fld f := by
  intro e
  have hio : ∀ f, e.fld f = ((d.setFld TEST_BISTSTAT_STATUS st).setFld TEST_BISTSTAT_BUSY 0).fld f := fun _ => rfl
  have hram : e.mem.ram = ramInvalidate d.mem.ram := rfl
  clear_value e
  refine ⟨?_, ?_, fun _ _ _ => by rw [hram, ramRead_ramInvalidate], fun f hs hb => ?_⟩
  · rw [hio]
    exact fld_setFld_same _ _ (by decide)
  · rw [hio, fld_setFld_apart _ _ (by decide), fld_setFld_same _ _ (by decide)]
    exact Nat.mod_eq_of_lt hst
  · rw [hio, fld_setFld_apart _ _ hb, fld_setFld_apart _ _ hs]

/-- The device with a repair record planned. -/
def Dev.plannedWith (d : Dev) (r : DWord) : Dev :=
  if r.toNat / 2 ^ 56 = 3 then { d with test := { d.test with planned := d.test.planned ++ [r] } } else d

/-- A record enters the next entry where one is free. -/
theorem bistRecord_enters (r : DWord) (h : d.fld TEST_BISTSTAT_COUNT < 256) :
    let e := d.bistRecord r
    e.fld TEST_BISTSTAT_COUNT = d.fld TEST_BISTSTAT_COUNT + 1 ∧
    e.fld64 (TEST_BISTRESLO_REC (d.fld TEST_BISTSTAT_COUNT)) (TEST_BISTRESHI_REC (d.fld TEST_BISTSTAT_COUNT)) = r.toNat := by
  intro e
  have he : e = ((d.plannedWith r).setPair64 (TEST_BISTRESLO_REC (d.fld TEST_BISTSTAT_COUNT)) (TEST_BISTRESHI_REC (d.fld TEST_BISTSTAT_COUNT))
      r.toNat).setFld TEST_BISTSTAT_COUNT (d.fld TEST_BISTSTAT_COUNT + 1) := if_neg (Nat.not_le.2 h)
  clear_value e
  subst he
  generalize d.fld TEST_BISTSTAT_COUNT = n at h ⊢
  have hlo : Fld.Apart TEST_BISTSTAT_COUNT (TEST_BISTRESLO_REC n) := .inl (show 0x130100 + 0x8 * n ≠ 0x130008 by omega)
  have hhi : Fld.Apart TEST_BISTSTAT_COUNT (TEST_BISTRESHI_REC n) := .inl (show 0x130104 + 0x8 * n ≠ 0x130008 by omega)
  constructor
  · rw [fld_setFld_same _ _ (by decide)]
    exact Nat.mod_eq_of_lt (show n + 1 < 512 by omega)
  · rw [Dev.fld64, fld_setFld_apart _ _ hlo, fld_setFld_apart _ _ hhi]
    exact (fld64_setPair64 _ _ (by omega)).trans (Nat.mod_eq_of_lt r.isLt)

/-! ### Checks (R529) and repairs (R532) -/

theorem bistCheckDue_iff (hb : d.fld TEST_BISTSTAT_BUSY = 1) :
    d.bistCheckDue = true ↔ ∀ t, d.test.bistChecked = some t → t + 60000 ≤ d.ticks := by
  rw [Dev.bistCheckDue, on_of_one hb, Bool.true_and]
  cases d.test.bistChecked with
  | none => simp
  | some t => simp [Dev.elapsed]

theorem bistCheck_eq {khz mv : Nat} (h : d.bistCheckDue = true) :
    bistCheck khz mv [] d = if khz < 990000 ∨ 1010000 < khz then d.bistOver 1
      else if 100 * mv < 98 * d.fld TEST_BISTCFG_VSET ∨ 102 * d.fld TEST_BISTCFG_VSET < 100 * mv then d.bistOver 2
      else { d with test := { d.test with bistChecked := some d.ticks } } := by
  unfold bistCheck
  rw [if_neg (by simp [h])]
  simp only [Bool.or_eq_true, decide_eq_true_eq]
  rfl

theorem bistEnd_eq (hb : d.fld TEST_BISTSTAT_BUSY = 1) (hc : d.test.bistChecked ≠ none) (l : List DWord) :
    bistEnd l d = (l.foldl Dev.bistRecord d).bistOver 0 := by
  rw [bistEnd, if_pos]
  simp [on_of_one hb, Option.isSome_iff_ne_none, hc]

/-- Blown repairs stand with those before, and in a sealed entry (R514). -/
theorem repair_leaves (h : d.test.planned ≠ []) :
    let e := repair d
    e.test = { d.test with repairs := d.test.repairs ++ d.test.planned, planned := [] } ∧
    (d.nvs.full = false → ∃ j ∈ e.nvs.area.entries, j.args = d.test.planned.map BitVec.toNat) := by
  intro e
  let x := d.journal 0x26 (d.test.planned.map BitVec.toNat)
  have he : e = { x with test := { x.test with repairs := x.test.repairs ++ x.test.planned, planned := [] } } :=
    if_neg (by simpa using h)
  have hx : x.test = d.test := test_of_butJournal (journal_frame d 0x26 (d.test.planned.map BitVec.toNat) []).1
  have hn : d.nvs.full = false → ∃ j ∈ x.nvs.area.entries, j.args = d.test.planned.map BitVec.toNat := fun hf => by
    obtain ⟨-, -, j, hj, -, hargs⟩ := journal_seals (d.test.planned.map BitVec.toNat) [] (show sealedType 0x26 = true by decide) hf
    exact ⟨j, hj, hargs⟩
  clear_value x e
  subst he
  rw [← hx] at hn ⊢
  exact ⟨rfl, hn⟩

/-- A run started in MAKER-TEST leaves every pair OFF (R528). -/
theorem bistStart_leaves (hm : d.mode = modeMaker) (hl : d.lcs = lcManufacture ∨ d.lcs = lcReturned)
    (hb : d.fld TEST_BISTSTAT_BUSY = 0) (hlen : d.pairs.length = 16) :
    let e := bistStart d
    e.fld TEST_BISTSTAT_BUSY = 1 ∧ e.fld TEST_BISTSTAT_COUNT = 0 ∧ e.test.bistFrom = some d.ticks ∧ e.bistCheckDue = true ∧
    ∀ p < 16, e.pairState p = stOff ∧ (e.pair p).clockOff = true := by
  intro e
  have he : e = _ := bistStart_eq hm hl hb
  have hoff : ∀ p < 16, ((List.range 16).foldl Dev.bistStop d).OffAt p := fun p hp =>
    offAt_bistStops (fun q hq => hlen ▸ List.mem_range.1 hq) (.inl (List.mem_range.2 hp))
  have hticks := bistStops_ticks (List.range 16) d
  generalize (List.range 16).foldl Dev.bistStop d = x at he hoff hticks
  clear_value e
  subst he
  obtain ⟨hbusy, hcount, hrest⟩ := bistBegun_fld x
  refine ⟨hbusy, hcount, congrArg some hticks, (bistCheckDue_iff hbusy).2 (fun t h => (Option.some_ne_none t h.symm).elim), fun p hp => ?_⟩
  exact ⟨(hrest _ (show 0x010000 + 0x1000 * p ≠ 0x130008 by omega)).trans (hoff p hp).state, (hoff p hp).clock⟩

/-- A start that is refused sets STATUS and counts (R528). -/
theorem bistStart_refused (h : d.mode ≠ modeMaker ∨ (d.lcs ≠ lcManufacture ∧ d.lcs ≠ lcReturned)) :
    let e := bistStart d
    e.fld TEST_BISTSTAT_STATUS = 3 ∧ e.test = d.test ∧ e.pairs = d.pairs ∧
    e.fld SYSCTL_REFUSED_COUNT = min (2 ^ SYSCTL_REFUSED_COUNT.w - 1) (d.fld SYSCTL_REFUSED_COUNT + 1) := by
  intro e
  have he : e = (d.refuse refusedWrite false).setFld TEST_BISTSTAT_STATUS 3 := if_neg (by
    simp only [Bool.and_eq_true, Bool.or_eq_true, decide_eq_true_eq]
    tauto)
  clear_value e
  subst he
  refine ⟨fld_setFld_same _ _ (by decide), rfl, rfl, ?_⟩
  calc ((d.refuse refusedWrite false).setFld TEST_BISTSTAT_STATUS 3).fld SYSCTL_REFUSED_COUNT
      = (((d.count SYSCTL_REFUSED_COUNT).setFld SYSCTL_REFUSED_MODE d.mode).setFld SYSCTL_REFUSED_CODE refusedWrite).fld SYSCTL_REFUSED_COUNT :=
        fld_setFld_apart _ _ (by decide)
    _ = (d.count SYSCTL_REFUSED_COUNT).fld SYSCTL_REFUSED_COUNT := by
        rw [fld_setFld_apart _ _ (by decide), fld_setFld_apart _ _ (by decide)]
    _ = _ := fld_count (by decide)

/-- Settles O45: a run starts, is checked and ends by the lemmas above; a check's three outcomes follow the order of its
conditions. -/
theorem selfTest : Obligations.SelfTest := by
  unfold Obligations.SelfTest
  intro s d endedWith
  have hover : ∀ st < 8, endedWith st (d.bistOver st) := fun st hst => by
    obtain ⟨hb, hs, hm, hf⟩ := bistOver_leaves d hst
    exact ⟨hb, hs, hf _ (by decide) (by decide), hm⟩
  refine ⟨fun hm hl hb hlen => completes_onDev (f := bistStart) rfl fun _ => bistStart_leaves hm hl hb hlen,
    fun h => completes_onDev (f := bistStart) rfl fun _ => bistStart_refused h, fun hb khz mv => ?_,
    fun h => completes_onDev (f := repair) rfl fun _ => repair_leaves h⟩
  intro v clockOk supplyOk due
  have hdue := bistCheckDue_iff hb
  refine ⟨fun h => ?_, fun h hc => ?_, fun h hc hs => ?_, fun h hc hs => ?_, fun h => ?_, fun h => ?_, fun r h hlt => ?_⟩
  · exact completes_onDev (f := bistCheck khz mv []) rfl fun _ => if_pos (by simpa using mt hdue.1 h)
  · refine completes_onDev (f := bistCheck khz mv []) rfl fun _ => ?_
    rw [bistCheck_eq (hdue.2 h), if_pos (by omega)]
    exact hover 1 (by decide)
  · refine completes_onDev (f := bistCheck khz mv []) rfl fun _ => ?_
    rw [bistCheck_eq (hdue.2 h), if_neg (by omega), if_pos (by omega)]
    exact hover 2 (by decide)
  · refine completes_onDev (f := bistCheck khz mv []) rfl fun _ => ?_
    exact (bistCheck_eq (hdue.2 h)).trans ((if_neg (by omega)).trans (if_neg (by omega)))
  · exact completes_onDev (f := bistEnd []) rfl fun _ => if_neg (by simp [show s.dev.test.bistChecked = none from h])
  · refine completes_onDev (f := bistEnd []) rfl fun _ => ?_
    rw [bistEnd_eq hb h]
    exact hover 0 (by decide)
  · refine completes_onDev (f := bistEnd [r]) rfl fun _ => ?_
    rw [bistEnd_eq hb h]
    obtain ⟨hcount, hrec⟩ := bistRecord_enters r hlt
    obtain ⟨-, -, -, hf⟩ := bistOver_leaves (d.bistRecord r) (show 0 < 8 by decide)
    generalize d.fld TEST_BISTSTAT_COUNT = n at *
    have hoff : ∀ a : Nat, a ≠ 0x130008 → ((d.bistRecord r).bistOver 0).fld ⟨a, 0, 32⟩ = (d.bistRecord r).fld ⟨a, 0, 32⟩ := fun a ha =>
      hf _ (.inl ha) (.inl ha)
    refine ⟨(hf _ (by decide) (by decide)).trans hcount, ?_⟩
    rw [Dev.fld64, show TEST_BISTRESLO_REC n = ⟨0x130100 + 0x8 * n, 0, 32⟩ from rfl,
      show TEST_BISTRESHI_REC n = ⟨0x130104 + 0x8 * n, 0, 32⟩ from rfl, List.foldl_cons, List.foldl_nil, hoff _ (by omega), hoff _ (by omega)]
    exact hrec

end Sys2Proof.Machine
end

section
/-! PROOFS. WatchPeriod: what Watch's march, slices, loopbacks and the end of its period leave (O46; R533 to R539). -/

set_option Elab.async false

namespace Sys2Proof.Machine

variable {d e : Dev} {n v : Nat}

/-! ### The march (R534) -/

/-- The device with a failing bit of a march recorded, flagged and presented keeps all but registers and presentations. -/
theorem marchFailed_leaves (inst : Nat) (d : Dev) (bit : Nat) :
    (Dev.marchFailed inst d bit).fld TEST_ISTAT_MARCH = 1 ∧ (Dev.marchFailed inst d bit).test = d.test ∧
    (Dev.marchFailed inst d bit).mem = d.mem := by
  refine ⟨?_, rfl, rfl⟩
  rw [Dev.marchFailed, fld_present]
  exact fld_flag _

/-- The stuck bits of a word, presented one by one. -/
theorem marchFails_leave {inst : Nat} (hi : inst < 65536) (stuck : List (Fin 75)) (d : Dev) :
    let e := stuck.foldl (fun d b => Dev.marchFailed inst d b.val) d
    e.test = d.test ∧ e.mem = d.mem ∧ ((d.fld TEST_ISTAT_MARCH = 1 ∧ d.Awaits fiMarch inst) ∨ stuck ≠ [] →
      e.fld TEST_ISTAT_MARCH = 1 ∧ e.Awaits fiMarch inst) := by
  induction stuck generalizing d with
  | nil => exact ⟨rfl, rfl, fun h => h.resolve_right (· rfl)⟩
  | cons b l ih =>
    obtain ⟨hflag, ht, hm⟩ := marchFailed_leaves inst d b.val
    obtain ⟨iht, ihm, ihf⟩ := ih (Dev.marchFailed inst d b.val)
    exact ⟨iht.trans ht, ihm.trans hm, fun _ => ihf (.inl ⟨hflag, Dev.awaits_present _ _ hi⟩)⟩

/-- The device with the march's word read and its valid copies in agreement. -/
def Dev.marchRead (d : Dev) (inst word : Nat) : Dev :=
  (d.setInstRam inst (ramHeal (d.instRam inst).1 ((d.instRam inst).2 + word))).noteRead 31 inst word (wordAddr inst word)
    (ramRead (d.instRam inst).1 ((d.instRam inst).2 + word) word) true

theorem marchWord_eq {inst word : Nat} {stuck : List (Fin 75)} (hp : d.test.periodStart ≠ none) (hi : inst < 88) (hw : word < bankWords inst) :
    marchWord inst word stuck d = (stuck.foldl (fun d b => Dev.marchFailed inst d b.val) (d.marchRead inst word)).covered1 inst word := by
  unfold marchWord
  rw [if_neg (by simpa using hp), if_neg (by omega), if_pos (by simp [hi, hw])]
  rfl

/-- The march reads a word without a change of any word's value. -/
theorem marchRead_leaves {inst word : Nat} (hi : inst < 88) :
    (d.marchRead inst word).test = d.test ∧ (d.marchRead inst word).fld TEST_ISTAT_MARCH = d.fld TEST_ISTAT_MARCH ∧
    ∀ key index, (ramRead (d.marchRead inst word).mem.ram key index).value = (ramRead d.mem.ram key index).value := by
  have hset : d.setInstRam inst (ramHeal (d.instRam inst).1 ((d.instRam inst).2 + word))
      = { d with mem := { d.mem with ram := ramHeal d.mem.ram (bankKey inst 0 + word) } } := by
    rw [Dev.setInstRam, Dev.instRam, if_pos hi, if_pos hi]
  have hacc : d.Accessed (d.marchRead inst word) := by
    have hmem : d.Accessed (d.setInstRam inst (ramHeal (d.instRam inst).1 ((d.instRam inst).2 + word))) := by
      rw [hset]
      exact (Dev.Accessed.refl d).withMem
    exact hmem.noteRead (by omega)
  have hframe := (noteRead_frame (d.setInstRam inst (ramHeal (d.instRam inst).1 ((d.instRam inst).2 + word))) 31 inst word
    (wordAddr inst word) (ramRead (d.instRam inst).1 ((d.instRam inst).2 + word) word) true).2
  change (d.marchRead inst word).mem.ram = _ at hframe
  generalize d.marchRead inst word = x at *
  rw [hset] at hframe
  refine ⟨show x.butAccess.test = d.butAccess.test from congrArg Dev.test hacc.rest, hacc.fld _ (by decide), fun key index => ?_⟩
  rw [hframe]
  exact ramRead_ramHeal_value ..

theorem covered1_leaves {inst word : Nat} (h : arrGet 0 d.test.marched inst = word) :
    arrGet 0 (d.covered1 inst word).test.marched inst = word + 1 ∧ (d.covered1 inst word).mem = d.mem ∧
    (d.covered1 inst word).io = d.io ∧ (d.covered1 inst word).island = d.island := by
  rw [Dev.covered1, if_pos h]
  exact ⟨arrGet_arrSet_same 0 d.test.marched inst (word + 1), rfl, rfl, rfl⟩

/-- What the march of a bank's next word leaves. -/
theorem marchWord_leaves {inst word : Nat} {stuck : List (Fin 75)} (hp : d.test.periodStart ≠ none) (hi : inst < 88)
    (hw : word < bankWords inst) (hnext : arrGet 0 d.test.marched inst = word) :
    let e := marchWord inst word stuck d
    arrGet 0 e.test.marched inst = word + 1 ∧
    (∀ key index, (ramRead e.mem.ram key index).value = (ramRead d.mem.ram key index).value) ∧
    (stuck ≠ [] → e.fld TEST_ISTAT_MARCH = 1 ∧ e.hasFault fiMarch inst = true) ∧
    (stuck = [] → e.fld TEST_ISTAT_MARCH = d.fld TEST_ISTAT_MARCH) := by
  intro e
  have he : e = _ := marchWord_eq hp hi hw
  obtain ⟨hrt, hrf, hrv⟩ := marchRead_leaves (d := d) (word := word) hi
  obtain ⟨hft, hfm, hff⟩ := marchFails_leave (show inst < 65536 by omega) stuck (d.marchRead inst word)
  have hnil : stuck = [] → (stuck.foldl (fun d b => Dev.marchFailed inst d b.val) (d.marchRead inst word)) = d.marchRead inst word :=
    fun h => by rw [h]; rfl
  generalize stuck.foldl (fun d b => Dev.marchFailed inst d b.val) (d.marchRead inst word) = x at *
  obtain ⟨hc, hcm, hci, hcs⟩ := covered1_leaves (d := x) (word := word) (inst := inst) (by rw [hft, hrt, hnext])
  clear_value e
  subst he
  refine ⟨hc, fun key index => by rw [hcm, hfm, hrv], fun h => ?_, fun h => ?_⟩
  · obtain ⟨hflag, haw⟩ := hff (.inr h)
    exact ⟨(fld_of_io hci _).trans hflag, (haw.of_island hcs).hasFault⟩
  · rw [fld_of_io hci, hnil h, hrf]

/-! ### Logic slices (R536 to R538) -/

/-- The conditions of an accepted offer (R536). -/
def Dev.offerGood (d : Dev) (lp budget : Nat) : Prop :=
  (d.fld TEST_WCFG_SLICEOK).testBit lp = true ∧ d.pairState (d.physOf lp) = stActive ∧ arrGet 0 d.test.slices (d.physOf lp) < 64 ∧
  4700 * d.fld (AGEING_PAIR_STEP (d.physOf lp)) + 748 * 40 ≤ budget * d.fld (AGEING_PAIR_STEP (d.physOf lp))

/-- The device with the next slice of the bound pair accepted. -/
def Dev.offered (d : Dev) (lp : Nat) : Dev :=
  let x := d.setPair (d.physOf lp) { d.pair (d.physOf lp) with slice := some (arrGet 0 d.test.slices (d.physOf lp)) }
  { x with test := { x.test with
      offers := x.test.offers.filter (fun o => o.phys != d.physOf lp) ++ [{ lpair := lp, phys := d.physOf lp, since := x.ticks }] } }

theorem offer_accepted {lp budget : Nat} (hp : d.test.periodStart ≠ none) (h : d.offerGood lp budget) : offer lp budget d = d.offered lp := by
  obtain ⟨hok, hact, hlt, hcost⟩ := h
  unfold offer
  extract_lets p step ok
  exact if_pos (by simp [ok, p, step, hok, hact, hlt, sliceCost, hcost, Option.isSome_iff_ne_none, hp])

theorem offer_dropped {lp budget : Nat} (h : ¬ d.offerGood lp budget) : offer lp budget d = d.count TEST_WSTAT_OFFDROP := by
  unfold offer
  extract_lets p step ok
  refine if_neg fun hok => h ?_
  simp only [ok, Bool.and_eq_true, decide_eq_true_eq] at hok
  obtain ⟨⟨⟨⟨hbit, hact⟩, -⟩, hlt⟩, hcost⟩ := hok
  exact ⟨hbit, hact, hlt, hcost⟩

theorem offered_leaves {lp : Nat} (hlen : d.physOf lp < d.pairs.length) :
    ((d.offered lp).pair (d.physOf lp)).slice = some (arrGet 0 d.test.slices (d.physOf lp)) ∧
    (∃ o ∈ (d.offered lp).test.offers, o.phys = d.physOf lp ∧ o.lpair = lp ∧ o.since = d.ticks) ∧ (d.offered lp).io = d.io :=
  ⟨congrArg Pair.slice (pair_setPair_same (d := d) _ _ hlen),
    ⟨_, List.mem_append_right _ (List.mem_singleton.2 rfl), rfl, rfl, rfl⟩, rfl⟩

/-- An offer whose checkpoint has not begun in time is dropped (R537). -/
theorem offerAbandon_drops {lp : Nat} {o : Offer} {rest : List Offer} (ho : d.test.offers = o :: rest) (hl : o.lpair = lp)
    (ht : o.since + 120 ≤ d.ticks) (hr : (d.pair o.phys).phase = .run) : offerAbandon lp d = d.dropSlice o := by
  have hf : d.test.offers.find? (fun o => o.lpair = lp) = some o := by
    rw [ho]
    exact List.find?_cons_of_pos (by simpa using hl)
  unfold offerAbandon
  rw [hf]
  exact if_pos (by simp [Dev.elapsed, ht, hr])

theorem dropSlice_leaves {o : Offer} {rest : List Offer} (ho : d.test.offers = o :: rest) (hlen : o.phys < d.pairs.length) :
    (d.dropSlice o).test.offers = rest ∧ ((d.dropSlice o).pair o.phys).slice = none := by
  refine ⟨?_, congrArg Pair.slice (pair_setPair_same (d := d) _ _ hlen)⟩
  show d.test.offers.erase o = rest
  rw [ho, List.erase_cons_head]

theorem spareSlice_eq {p : Nat} (fail : Bool) (hp : d.test.periodStart ≠ none) (hs : d.pairState p = stSpare)
    (hlt : arrGet 0 d.test.slices p < 64) :
    spareSlice p fail d = if fail then d.sliceFailed p (arrGet 0 d.test.slices p)
      else { d with test := { d.test with slices := arrSet 0 d.test.slices p (arrGet 0 d.test.slices p + 1) } } := by
  unfold spareSlice
  exact if_neg (by simp [hp, hs, hlt])

theorem sliceFailed_leaves {p : Nat} (slice : Nat) (hp : p < 65536) :
    (d.sliceFailed p slice).test = d.test ∧ (d.sliceFailed p slice).fld TEST_ISTAT_LBIST = 1 ∧
    (d.sliceFailed p slice).hasFault fiLbist p = true :=
  ⟨rfl, (fld_present ..).trans (fld_flag _), (Dev.awaits_present _ _ hp).hasFault⟩

/-! ### Loopbacks (R539) -/

/-- The device with a block's loopback covered. -/
def Dev.looped (d : Dev) (b : LoopBlock) : Dev := { d with test := { d.test with loops := arrSet false d.test.loops (loopId b) true } }

theorem loopback_eq {b : LoopBlock} (pass : Bool) (hp : d.test.periodStart ≠ none) (hr : d.loopReady b = true) :
    loopback b pass d = if pass then (d.loopDelay b).looped b
      else (((d.loopDelay b).looped b).flag TEST_ISTAT_LOOP).present fiLoop (loopDetail b) := by
  unfold loopback
  exact if_neg (by simp [hp, hr])

theorem loopDelay_keeps (d : Dev) (b : LoopBlock) :
    (d.loopDelay b).io = d.io ∧ (d.loopDelay b).island = d.island ∧ (d.loopDelay b).evt = d.evt := by
  cases b <;> exact ⟨rfl, rfl, rfl⟩

theorem loopDetail_lt (b : LoopBlock) : loopDetail b < 65536 := by
  cases b <;> simp only [loopDetail] <;> omega

/-! ### The end of a period (R533) -/

/-- The next period starts now, with nothing covered. -/
def Dev.periodBegun (d : Dev) : Dev :=
  { d with test := { d.test with
      periodStart := some d.ticks, marched := [], romDone := false, slices := [], cmpDone := 0, loops := [] } }

theorem watchPeriodEnd_eq {t : Nat} (hp : d.test.periodStart = some t) (ht : t + d.fld TEST_WCFG_PERIOD * 36000000000 ≤ d.ticks) :
    watchPeriodEnd d = (if d.uncovered = 0 then
        (d.setFld TEST_WSTAT_LATE d.uncovered).setFld TEST_WSTAT_PASSES ((d.setFld TEST_WSTAT_LATE d.uncovered).fld TEST_WSTAT_PASSES + 1)
      else ((d.setFld TEST_WSTAT_LATE d.uncovered).flag TEST_ISTAT_LATE).present fiLate d.uncovered).periodBegun := by
  have hdue : d.elapsed t (d.fld TEST_WCFG_PERIOD * 60000 * msTicks) = true := by
    rw [Dev.elapsed, decide_eq_true_eq, Nat.mul_assoc]
    exact ht
  unfold watchPeriodEnd
  rw [hp]
  simp only [hdue, if_true]
  rfl

/-- The uncovered elements fit five bits. -/
theorem uncovered_lt (d : Dev) : d.uncovered < 32 := by
  unfold Dev.uncovered
  extract_lets t banks slices cmps loops
  clear_value t banks slices cmps loops
  cases banks <;> cases t.romDone <;> cases slices <;> cases cmps <;> cases loops <;> decide

/-- What the end of a period leaves. -/
theorem watchPeriodEnd_leaves {t : Nat} (hp : d.test.periodStart = some t) (ht : t + d.fld TEST_WCFG_PERIOD * 36000000000 ≤ d.ticks) :
    let e := watchPeriodEnd d
    e.test.periodStart = some d.ticks ∧ e.test.marched = [] ∧ e.test.slices = [] ∧ e.fld TEST_WSTAT_LATE = d.uncovered ∧
    (d.uncovered = 0 → e.fld TEST_WSTAT_PASSES = (d.fld TEST_WSTAT_PASSES + 1) % 256 ∧ e.island = d.island) ∧
    (d.uncovered ≠ 0 → e.fld TEST_ISTAT_LATE = 1 ∧ e.hasFault fiLate d.uncovered = true) := by
  intro e
  have he : e = _ := watchPeriodEnd_eq hp ht
  have hlt := uncovered_lt d
  generalize d.uncovered = u at *
  have hlate : (d.setFld TEST_WSTAT_LATE u).fld TEST_WSTAT_LATE = u := (fld_setFld_same _ _ (by decide)).trans (Nat.mod_eq_of_lt hlt)
  have hpass : (d.setFld TEST_WSTAT_LATE u).fld TEST_WSTAT_PASSES = d.fld TEST_WSTAT_PASSES := fld_setFld_apart _ _ (by decide)
  have hlater : ∀ x : Dev, x.periodBegun.test.periodStart = some x.ticks ∧ x.periodBegun.test.marched = [] ∧ x.periodBegun.test.slices = [] :=
    fun _ => ⟨rfl, rfl, rfl⟩
  have hfld : ∀ (x : Dev) (f : Fld), x.periodBegun.fld f = x.fld f := fun _ _ => rfl
  have hisl : ∀ x : Dev, x.periodBegun.island = x.island := fun _ => rfl
  clear_value e
  by_cases hu : u = 0
  · rw [if_pos hu, hpass] at he
    subst he
    obtain ⟨hs, hm, hsl⟩ := hlater ((d.setFld TEST_WSTAT_LATE u).setFld TEST_WSTAT_PASSES (d.fld TEST_WSTAT_PASSES + 1))
    refine ⟨hs, hm, hsl, ?_, fun _ => ⟨?_, hisl _⟩, fun h => absurd hu h⟩
    · rw [hfld, fld_setFld_apart _ _ (by decide), hlate]
    · rw [hfld]
      exact fld_setFld_same _ _ (by decide)
  · rw [if_neg hu] at he
    subst he
    obtain ⟨hs, hm, hsl⟩ := hlater (((d.setFld TEST_WSTAT_LATE u).flag TEST_ISTAT_LATE).present fiLate u)
    refine ⟨hs, hm, hsl, ?_, fun h => absurd h hu, fun _ => ⟨?_, ?_⟩⟩
    · rw [hfld, fld_present, Dev.flag, fld_setFld_apart _ _ (by decide), hlate]
    · rw [hfld, fld_present]
      exact fld_flag _
    · exact ((Dev.awaits_present _ _ (by omega)).of_island (hisl _)).hasFault

/-- Settles O46: each of Watch's commands by the lemma above on what it leaves. -/
theorem watchRuns : Obligations.WatchRuns := by
  unfold Obligations.WatchRuns
  intro s d hp hlen
  refine ⟨fun inst w stuck hi hw hnext => ?_, fun lp b => ?_, fun lp o rest ho hl hphys ht hr => ?_, fun p fail hs hlt => ?_,
    fun b pass hr => ?_, fun t hstart ht => ?_⟩
  · refine completes_onDev (f := marchWord inst.val w stuck) rfl fun _ => ?_
    obtain ⟨hcov, hval, hfail, hfine⟩ := marchWord_leaves (stuck := stuck) hp hi hw hnext
    exact ⟨hcov, fun _ _ _ _ => hval _ _, fun b hb => hfail (List.ne_nil_of_mem hb), hfine⟩
  · intro p step good
    refine ⟨fun hgood hp16 => ?_, fun hbad => ?_⟩
    · refine completes_onDev (f := offer lp.val b.toNat) rfl fun _ => ?_
      rw [offer_accepted (d := s.dev) hp hgood]
      exact offered_leaves (show p < s.dev.pairs.length from hlen.symm ▸ hp16)
    · refine completes_onDev (f := offer lp.val b.toNat) rfl fun _ => ?_
      rw [offer_dropped (d := s.dev) hbad]
      exact ⟨rfl, fld_count (by decide)⟩
  · refine completes_onDev (f := offerAbandon lp.val) rfl fun _ => ?_
    rw [offerAbandon_drops ho hl ht hr]
    exact dropSlice_leaves ho (show o.phys < s.dev.pairs.length from hlen.symm ▸ hphys)
  · refine completes_onDev (f := spareSlice p.val fail) rfl fun _ => ?_
    rw [spareSlice_eq fail hp hs hlt]
    refine ⟨fun hf => ?_, fun hf => ?_⟩
    · rw [if_neg (by simp [hf])]
      exact ⟨arrGet_arrSet_same 0 d.test.slices p.val (arrGet 0 d.test.slices p.val + 1), rfl⟩
    · rw [if_pos hf]
      exact sliceFailed_leaves _ (by omega)
  · refine completes_onDev (f := loopback b pass) rfl fun _ => ?_
    rw [loopback_eq pass hp hr]
    have hcov : ∀ x : Dev, arrGet false (x.looped b).test.loops (loopId b) = true := fun x =>
      arrGet_arrSet_same false x.test.loops (loopId b) true
    cases pass
    · rw [if_neg Bool.false_ne_true]
      refine ⟨hcov _, fun h => absurd h Bool.false_ne_true, fun _ => ⟨(fld_present ..).trans (fld_flag _), ?_⟩⟩
      exact (Dev.awaits_present _ _ (loopDetail_lt b)).hasFault
    · exact ⟨hcov _, fun _ => loopDelay_keeps s.dev b, fun h => absurd h.symm Bool.false_ne_true⟩
  · exact completes_onDev (f := watchPeriodEnd) rfl fun _ => watchPeriodEnd_leaves hstart ht

end Sys2Proof.Machine
end

section
/-! PROOFS. Ageing: what a regulator's step and the margin planner leave of a pair (O47; R540 to R544). -/

set_option Elab.async false

namespace Sys2Proof.Machine

variable {d e : Dev} {p q n v : Nat}

/-! ### The regulator (R540) -/

/-- The device with what the pair's monitors report. -/
def Dev.monitored (d : Dev) (p slack nbti : Nat) : Dev :=
  { d with age := { d.age with slack := arrSet 0 d.age.slack p slack, nbti := arrSet 0 d.age.nbti p nbti } }

/-- The device with VPAIR of a pair at `mv`, its slack not low at Vmax. -/
def Dev.regulated (d : Dev) (p mv : Nat) : Dev := (d.setPair p { d.pair p with vmv := mv }).slackFine p

theorem slackFine_keeps (d : Dev) (p : Nat) : (d.slackFine p).pairs = d.pairs ∧ (d.slackFine p).bind = d.bind := ⟨rfl, rfl⟩

theorem slackLow_keeps (d : Dev) (p : Nat) : (d.slackLow p).pairs = d.pairs ∧ (d.slackLow p).bind = d.bind := by
  unfold Dev.slackLow
  cases arrGet none d.age.lowSince p with
  | none => exact ⟨rfl, rfl⟩
  | some t =>
    dsimp only
    split <;> exact ⟨rfl, rfl⟩

/-- Slack that has been low at Vmax for 10 ms is presented (R540). -/
theorem slackLow_tells {t : Nat} (hp : p < 65536) (ht : arrGet none d.age.lowSince p = some t) (hdue : t + 6000000 ≤ d.ticks)
    (htold : d.age.lowTold.testBit p = false) :
    (d.slackLow p).fld AGEING_ISTAT_MONITOR = 1 ∧ (d.slackLow p).hasFault fiMonitor p = true := by
  have he : (d.elapsed t (10 * msTicks) && !d.age.lowTold.testBit p) = true := by
    simp only [Dev.elapsed, htold, Bool.not_false, Bool.and_true, decide_eq_true_eq]
    exact hdue
  have hx : d.slackLow p = (Dev.flag { d with age := { d.age with lowTold := withBit d.age.lowTold p } } AGEING_ISTAT_MONITOR).present fiMonitor p := by
    unfold Dev.slackLow
    rw [ht]
    exact if_pos he
  rw [hx]
  exact ⟨(fld_present ..).trans (fld_flag _), (Dev.awaits_present _ _ hp).hasFault⟩

/-- A step of the regulator, by the slack that the monitors report. -/
theorem voltageAdjust_eq {slack nbti : Nat} (hv : (d.pair p).vmv ≠ 0) :
    voltageAdjust p slack nbti d =
      if slack < d.fld AGEING_CFG_GUARD then
        if (d.pair p).vmv < vMax (d.pair p).step then
          (d.monitored p slack nbti).regulated p (min (vMax (d.pair p).step) ((d.pair p).vmv + 5))
        else (d.monitored p slack nbti).slackLow p
      else if d.fld AGEING_CFG_GUARD + 20 < slack then (d.monitored p slack nbti).regulated p (max 650 ((d.pair p).vmv - 5))
      else (d.monitored p slack nbti).slackFine p :=
  if_neg hv

theorem regulated_leaves {mv : Nat} (hp : p < d.pairs.length) :
    ((d.regulated p mv).pair p).vmv = mv ∧ (∀ q, q ≠ p → (d.regulated p mv).pair q = d.pair q) ∧ (d.regulated p mv).bind = d.bind :=
  ⟨congrArg Pair.vmv (pair_setPair_same (d := d) _ _ hp), fun _ hq => pair_setPair_ne (d := d) _ hq, rfl⟩

/-- What a step of the regulator leaves (R540). -/
theorem voltageAdjust_leaves {slack nbti : Nat} (hp : p < d.pairs.length) (hp' : p < 65536) (hv : (d.pair p).vmv ≠ 0) :
    let e := voltageAdjust p slack nbti d
    let top := vMax (d.pair p).step
    let g := d.fld AGEING_CFG_GUARD
    (slack < g → (d.pair p).vmv < top → (e.pair p).vmv = min top ((d.pair p).vmv + 5)) ∧
    (slack < g → top ≤ (d.pair p).vmv → (e.pair p).vmv = (d.pair p).vmv ∧
      (∀ t, arrGet none d.age.lowSince p = some t → t + 6000000 ≤ d.ticks → d.age.lowTold.testBit p = false →
        e.fld AGEING_ISTAT_MONITOR = 1 ∧ e.hasFault fiMonitor p = true)) ∧
    (g ≤ slack → slack ≤ g + 20 → (e.pair p).vmv = (d.pair p).vmv) ∧
    (g + 20 < slack → (e.pair p).vmv = max 650 ((d.pair p).vmv - 5)) ∧
    (∀ q, q ≠ p → e.pair q = d.pair q) ∧ e.bind = d.bind := by
  intro e top g
  have he : e = _ := voltageAdjust_eq (nbti := nbti) (slack := slack) hv
  have hmp : ∀ q, (d.monitored p slack nbti).pair q = d.pair q := fun _ => rfl
  have hmb : (d.monitored p slack nbti).bind = d.bind := rfl
  have hml : p < (d.monitored p slack nbti).pairs.length := hp
  have htells := fun t => slackLow_tells (d := d.monitored p slack nbti) (t := t) hp'
  change ∀ t, arrGet none d.age.lowSince p = some t → t + 6000000 ≤ d.ticks → d.age.lowTold.testBit p = false → _ at htells
  generalize d.monitored p slack nbti = x at *
  clear_value e
  split at he
  next hlow =>
    split at he
    next hlt =>
      subst he
      obtain ⟨hset, hoth, hbind⟩ := regulated_leaves (mv := min (vMax (d.pair p).step) ((d.pair p).vmv + 5)) hml
      exact ⟨fun _ _ => hset, fun _ h => absurd hlt (Nat.not_lt.2 h), fun h => absurd hlow (Nat.not_lt.2 h), fun h => by omega,
        fun q hq => (hoth q hq).trans (hmp q), hbind.trans hmb⟩
    next hge =>
      obtain ⟨hps, hbind⟩ := slackLow_keeps x p
      subst he
      exact ⟨fun _ h => absurd h hge, fun _ _ => ⟨by rw [pair_of_pairs hps, hmp], htells⟩, fun h => absurd hlow (Nat.not_lt.2 h),
        fun h => by omega, fun q _ => (pair_of_pairs hps q).trans (hmp q), hbind.trans hmb⟩
  next hlow =>
    split at he
    next hhigh =>
      subst he
      obtain ⟨hset, hoth, hbind⟩ := regulated_leaves (mv := max 650 ((d.pair p).vmv - 5)) hml
      exact ⟨fun h => absurd h hlow, fun h => absurd h hlow, fun _ h => absurd hhigh (Nat.not_lt.2 h), fun _ => hset,
        fun q hq => (hoth q hq).trans (hmp q), hbind.trans hmb⟩
    next hmid =>
      obtain ⟨hps, hbind⟩ := slackFine_keeps x p
      subst he
      exact ⟨fun h => absurd h hlow, fun h => absurd h hlow, fun _ _ => by rw [pair_of_pairs hps, hmp], fun h => absurd h hmid,
        fun q _ => (pair_of_pairs hps q).trans (hmp q), hbind.trans hmb⟩

/-! ### The planner (R541 to R544) -/

/-- What the planner keeps of pair `p` while it plans other pairs: its step and its state, the flag and the presentations of a
retirement, and the hours of its last run. -/
structure Dev.PlanKept (p : Nat) (d e : Dev) : Prop where
  age : e.age = d.age
  step : e.fld (AGEING_PAIR_STEP p) = d.fld (AGEING_PAIR_STEP p)
  state : ∀ q < 16, e.pairState q = d.pairState q
  flag : d.fld AGEING_ISTAT_RETIRE = 1 → e.fld AGEING_ISTAT_RETIRE = 1
  waits : ∀ n v, d.Awaits n v → e.Awaits n v

/-- Setting the field changes no step but that of `p`, no state and no retirement flag. -/
structure Fld.OffPlan (f : Fld) (p : Nat) : Prop where
  step : Fld.Apart f (AGEING_PAIR_STEP p)
  state : ∀ q < 16, Fld.Apart f (PAIRCTL_ROLE_STATE q)
  flag : Fld.Apart f AGEING_ISTAT_RETIRE

theorem Fld.OffPlan.of_addr {f : Fld} (h : f.addr = 0x140008 ∨ f.addr = 0x140010 ∧ f.lo + f.w ≤ 1 ∨ 0x140200 ≤ f.addr ∧ f.addr ≠ 0x140200 + 0x4 * p ∨
    f.addr ≤ 0x020000 ∧ f.addr % 0x1000 ≠ 0) : f.OffPlan p := by
  refine ⟨.inl (show 0x140200 + 0x4 * p ≠ f.addr by omega), fun q hq => .inl (show 0x010000 + 0x1000 * q ≠ f.addr by omega), ?_⟩
  show 0x140010 ≠ f.addr ∨ f.lo + f.w ≤ 1 ∨ 1 + 1 ≤ f.lo
  omega

theorem Dev.PlanKept.refl (p : Nat) (d : Dev) : Dev.PlanKept p d d := ⟨rfl, rfl, fun _ _ => rfl, id, fun _ _ => id⟩

theorem Dev.PlanKept.trans {f : Dev} (h : Dev.PlanKept p d e) (h' : Dev.PlanKept p e f) : Dev.PlanKept p d f :=
  ⟨h'.age.trans h.age, h'.step.trans h.step, fun q hq => (h'.state q hq).trans (h.state q hq), fun hf => h'.flag (h.flag hf),
    fun n v hw => h'.waits n v (h.waits n v hw)⟩

theorem Dev.PlanKept.setFld {f : Fld} {v : Nat} (h : Dev.PlanKept p d e) (hf : f.OffPlan p) : Dev.PlanKept p d (e.setFld f v) :=
  ⟨h.age, (fld_setFld_apart _ _ hf.step).trans h.step, fun q hq => (fld_setFld_apart _ _ (hf.state q hq)).trans (h.state q hq),
    fun hd => (fld_setFld_apart _ _ hf.flag).trans (h.flag hd), fun n v hw => (h.waits n v hw).setFld⟩

theorem Dev.PlanKept.present {i v : Nat} (h : Dev.PlanKept p d e) : Dev.PlanKept p d (e.present i v) :=
  ⟨h.age, h.step, h.state, h.flag, fun n v hw => (h.waits n v hw).present⟩

theorem Dev.PlanKept.ite {c : Prop} {_ : Decidable c} {f : Dev} (h : Dev.PlanKept p d e) (h' : Dev.PlanKept p d f) :
    Dev.PlanKept p d (if c then e else f) := by
  split
  · exact h
  · exact h'

theorem Dev.PlanKept.setPair {x : Pair} (h : Dev.PlanKept p d e) : Dev.PlanKept p d (e.setPair q x) :=
  ⟨h.age, h.step, h.state, h.flag, fun n v hw => (h.waits n v hw).of_island rfl⟩

theorem Dev.PlanKept.persist {x : Persist} (h : Dev.PlanKept p d e) : Dev.PlanKept p d { e with persist := x } :=
  ⟨h.age, h.step, h.state, h.flag, fun n v hw => (h.waits n v hw).of_island rfl⟩

theorem Dev.PlanKept.journal {type : Nat} {args : List Nat} {body : List Byte} (h : Dev.PlanKept p d e) :
    Dev.PlanKept p d (e.journal type args body) :=
  ⟨(show (e.journal type args body).butJournal.age = e.butJournal.age from congrArg Dev.age (journal_frame e type args body).1).trans h.age,
    (fld_journal _ _ _ _ (by simp [sealRegs, AGEING_PAIR_STEP]; omega)).trans h.step,
    fun q hq => (fld_journal _ _ _ _ (by simp [sealRegs, PAIRCTL_ROLE_STATE]; omega)).trans (h.state q hq),
    fun hd => (fld_journal _ _ _ _ (by decide)).trans (h.flag hd), fun n v hw => (h.waits n v hw).journal⟩

theorem Dev.PlanKept.setStep {s : Nat} (h : Dev.PlanKept p d e) (hq : q ≠ p) : Dev.PlanKept p d (e.setStep q s) :=
  (h.setFld (.of_addr (.inr (.inr (.inl ⟨show 0x140200 ≤ 0x140200 + 0x4 * q by omega, show 0x140200 + 0x4 * q ≠ _ by omega⟩))))).persist.journal

theorem Dev.PlanKept.retireFlag (h : Dev.PlanKept p d e) : Dev.PlanKept p d (e.flag AGEING_ISTAT_RETIRE) :=
  ⟨h.age, (fld_setFld_apart _ _ (.inl (show 0x140200 + 0x4 * p ≠ 0x140010 by omega))).trans h.step,
    fun q hq => (fld_setFld_apart _ _ (.inl (show 0x010000 + 0x1000 * q ≠ 0x140010 by omega))).trans (h.state q hq),
    fun _ => fld_flag _, fun n v hw => (h.waits n v hw).flag⟩

/-- A plan that names no step of 36 or more presents the retirement of its pair. -/
def Dev.ageRetired (d : Dev) (p : Nat) : Dev := (d.flag AGEING_ISTAT_RETIRE).present fiRetire p

/-- The device with a pair's step at `s`, journaled where it changes. -/
def Dev.stepAt (d : Dev) (p s : Nat) : Dev := if s = d.fld (AGEING_PAIR_STEP p) then d else d.setStep p s

/-- The device with a pair in service at the step planned for it. -/
def Dev.planned (d : Dev) (p s : Nat) : Dev :=
  if (d.stepAt p s).pairState p = stActive then d.stepAt p s else (d.stepAt p s).setPair p (((d.stepAt p s).pair p).takeStep s)

theorem planInService_eq {steps : List (Option Nat)} {a : Option Nat} (ha : steps[p]? = some a) :
    d.planInService steps p = if d.outOfUse p then d else match planStep (d.fld (AGEING_PAIR_STEP p)) a with
      | none => d.ageRetired p
      | some s => d.planned p s := by
  unfold Dev.planInService
  rw [ha]
  rfl

theorem Dev.PlanKept.outOfUse (h : Dev.PlanKept p d e) (hq : q < 16) : e.outOfUse q = d.outOfUse q := by
  simp only [Dev.outOfUse, h.state q hq]

theorem Dev.PlanKept.ageRetired (h : Dev.PlanKept p d e) : Dev.PlanKept p d (e.ageRetired q) := h.retireFlag.present

theorem Dev.PlanKept.planned {s : Nat} (h : Dev.PlanKept p d e) (hq : q ≠ p) : Dev.PlanKept p d (e.planned q s) := by
  have hs : Dev.PlanKept p d (e.stepAt q s) := .ite h (h.setStep hq)
  exact .ite hs hs.setPair

/-- Planning another pair keeps what the plan of `p` rests on. -/
theorem Dev.PlanKept.planInService {steps : List (Option Nat)} (h : Dev.PlanKept p d e) (hq : q ≠ p) :
    Dev.PlanKept p d (e.planInService steps q) := by
  cases ha : steps[q]? with
  | none =>
    unfold Dev.planInService
    rwa [ha]
  | some a =>
    rw [planInService_eq ha]
    refine .ite h ?_
    cases planStep (e.fld (AGEING_PAIR_STEP q)) a with
    | none => exact h.ageRetired
    | some s => exact h.planned hq

theorem Dev.PlanKept.plans {steps : List (Option Nat)} {l : List Nat} (h : Dev.PlanKept p d e) (hl : p ∉ l) :
    Dev.PlanKept p d (l.foldl (fun d q => d.planInService steps q) e) := by
  induction l generalizing e with
  | nil => exact h
  | cons q l ih =>
    rw [List.mem_cons, not_or] at hl
    exact ih (h.planInService (Ne.symm hl.1)) hl.2

/-! ### A pair's own plan -/

/-- A pair's step is set, or stands where it is the same. -/
theorem stepAt_leaves (d : Dev) {s : Nat} (hs : s < 64) : (d.stepAt p s).fld (AGEING_PAIR_STEP p) = s ∧ (d.stepAt p s).age = d.age := by
  unfold Dev.stepAt
  split
  next h => exact ⟨h.symm, rfl⟩
  next h =>
    have hjournal := journal_frame { d.setFld (AGEING_PAIR_STEP p) s with persist := { d.persist with pairStep := arrSet 48 d.persist.pairStep p s } }
      0x26 [p, (d.setFld (AGEING_PAIR_STEP p) s).pairState p, s] []
    refine ⟨(hjournal.2.fld (AGEING_PAIR_STEP p) ?_).trans ?_, (congrArg Dev.age hjournal.1 : Dev.age (Dev.butJournal _) = _)⟩
    · simp [sealRegs, AGEING_PAIR_STEP]
      omega
    · exact (fld_setFld_same d s (show 0 + 6 ≤ 32 by decide)).trans (Nat.mod_eq_of_lt hs)

theorem planned_leaves (d : Dev) {s : Nat} (hs : s < 64) : (d.planned p s).fld (AGEING_PAIR_STEP p) = s ∧ (d.planned p s).age = d.age := by
  unfold Dev.planned
  split <;> exact stepAt_leaves d hs

theorem ageRetired_leaves (d : Dev) (hp : p < 65536) :
    (d.ageRetired p).fld AGEING_ISTAT_RETIRE = 1 ∧ (d.ageRetired p).Awaits fiRetire p ∧
    (d.ageRetired p).fld (AGEING_PAIR_STEP p) = d.fld (AGEING_PAIR_STEP p) ∧ (d.ageRetired p).age = d.age :=
  ⟨(fld_present ..).trans (fld_flag _), Dev.awaits_present _ _ hp,
    (fld_present ..).trans (fld_setFld_apart _ _ (.inl (show 0x140200 + 0x4 * p ≠ 0x140010 by omega))), rfl⟩

/-- What the plan of pair `p`, projected to the step `a`, leaves of it: `d` before the planner runs, `e` after. -/
structure Dev.PlanDone (p : Nat) (a : Option Nat) (d e : Dev) : Prop where
  age : e.age = d.age
  le : e.fld (AGEING_PAIR_STEP p) ≤ d.fld (AGEING_PAIR_STEP p)
  out : d.outOfUse p = true → e.fld (AGEING_PAIR_STEP p) = d.fld (AGEING_PAIR_STEP p)
  lower : d.outOfUse p = false → ∀ v, a = some v → 36 ≤ v → e.fld (AGEING_PAIR_STEP p) = min (d.fld (AGEING_PAIR_STEP p)) v
  retire : d.outOfUse p = false → (a = none ∨ ∃ v < 36, a = some v) → e.fld AGEING_ISTAT_RETIRE = 1 ∧ e.Awaits fiRetire p

/-- A pair's plan in its turn. -/
theorem planInService_done {steps : List (Option Nat)} {a : Option Nat} (ha : steps[p]? = some a) (hp : p < 65536) :
    Dev.PlanDone p a d (d.planInService steps p) := by
  rw [planInService_eq ha]
  split
  next hout => exact ⟨rfl, le_rfl, fun _ => rfl, fun h => absurd hout (by simp [h]), fun h => absurd hout (by simp [h])⟩
  next hin =>
    by_cases hlow : a = none ∨ ∃ v < 36, a = some v
    · have hplan : planStep (d.fld (AGEING_PAIR_STEP p)) a = none := by
        rcases hlow with rfl | ⟨v, hv, rfl⟩
        · rfl
        · exact if_pos hv
      obtain ⟨hflag, hwait, hstep, hage⟩ := ageRetired_leaves d hp
      rw [hplan]
      refine ⟨hage, hstep.le, fun _ => hstep, fun _ v hv hge => ?_, fun _ _ => ⟨hflag, hwait⟩⟩
      rcases hlow with h | ⟨w, hw, h⟩
      · exact absurd (h.symm.trans hv) (Option.some_ne_none v).symm
      · exact absurd (Option.some.inj (h.symm.trans hv)) (by omega)
    · obtain ⟨v, rfl⟩ := Option.ne_none_iff_exists'.1 fun h => hlow (.inl h)
      have hge : 36 ≤ v := by
        by_contra hlt
        exact hlow (.inr ⟨v, by omega, rfl⟩)
      have hplan : planStep (d.fld (AGEING_PAIR_STEP p)) (some v) = some (min (d.fld (AGEING_PAIR_STEP p)) v) := if_neg (by omega)
      have hlt : min (d.fld (AGEING_PAIR_STEP p)) v < 64 := lt_of_le_of_lt (Nat.min_le_left ..) (fld_lt d (AGEING_PAIR_STEP p))
      obtain ⟨hstep, hage⟩ := planned_leaves (p := p) d hlt
      rw [hplan]
      refine ⟨hage, hstep.le.trans (Nat.min_le_left ..), fun h => absurd h hin, fun _ w hw _ => ?_, fun _ h => absurd h hlow⟩
      exact hstep.trans (congrArg _ (Option.some.inj hw))

/-- What comes before and after a pair's own plan keeps what it leaves. -/
theorem Dev.PlanDone.between {x y : Dev} {a : Option Nat} (hp : p < 16) (h : Dev.PlanKept p d x) (hd : Dev.PlanDone p a x y)
    (h' : Dev.PlanKept p y e) : Dev.PlanDone p a d e := by
  have hout := h.outOfUse hp
  refine ⟨h'.age.trans (hd.age.trans h.age), ?_, fun ho => ?_, fun ho v hv hge => ?_, fun ho ha => ?_⟩
  · rw [h'.step, ← h.step]
    exact hd.le
  · rw [h'.step, hd.out (hout.trans ho), h.step]
  · rw [h'.step, hd.lower (hout.trans ho) v hv hge, h.step]
  · obtain ⟨hflag, hwait⟩ := hd.retire (hout.trans ho) ha
    exact ⟨h'.flag hflag, h'.waits _ _ hwait⟩

/-- The plan of all pairs does each pair's own plan. -/
theorem plans_done {steps : List (Option Nat)} {a : Option Nat} (ha : steps[p]? = some a) (hp : p < 16) :
    Dev.PlanDone p a d ((List.range 16).foldl (fun d q => d.planInService steps q) d) := by
  obtain ⟨l, r, hlr⟩ := List.append_of_mem (List.mem_range.2 hp)
  have hnodup := hlr ▸ List.nodup_range (n := 16)
  obtain ⟨-, hr, hdisj⟩ := List.nodup_append.1 hnodup
  rw [hlr, List.foldl_append, List.foldl_cons]
  exact .between hp ((Dev.PlanKept.refl p d).plans fun h => hdisj p h p (List.mem_cons_self ..) rfl) (planInService_done ha (by omega))
    ((Dev.PlanKept.refl p _).plans (List.nodup_cons.1 hr).1)

theorem Dev.PlanKept.noteSlow (h : Dev.PlanKept p d e) : Dev.PlanKept p d e.noteSlow := by
  unfold Dev.noteSlow
  have hall : ∀ l : List Nat, (∀ q ∈ l, q < 16) → ∀ x, Dev.PlanKept p d x → Dev.PlanKept p d (l.foldl (fun d q =>
      if d.on (PAIRCTL_SPARE_SPEN q) && decide (d.fld (AGEING_PAIR_STEP (d.fld (PAIRCTL_SPARE_SPARE q))) < d.fld (AGEING_PAIR_STEP q)) then
        d.flag (PAIRCTL_FSTAT_SLOWSPARE q) else d) x) := by
    intro l
    induction l with
    | nil => exact fun _ _ hx => hx
    | cons q l ih =>
      intro hl x hx
      rw [List.forall_mem_cons] at hl
      refine ih hl.2 _ (.ite (hx.setFld (.of_addr (.inr (.inr (.inr ⟨?_, ?_⟩))))) hx)
      · show 0x010010 + 0x1000 * q ≤ 0x020000
        omega
      · show (0x010010 + 0x1000 * q) % 0x1000 ≠ 0
        omega
  exact hall _ (fun q hq => List.mem_range.1 hq) e h

theorem Dev.PlanKept.checkShort {lp : Nat} (h : Dev.PlanKept p d e) : Dev.PlanKept p d (e.checkShort lp) := by
  have h1 : Dev.PlanKept p d (e.setBitOf AGEING_SHORT_SHORT lp) := h.setFld (.of_addr (.inl rfl))
  have h2 : Dev.PlanKept p d ((e.setBitOf AGEING_SHORT_SHORT lp).flag AGEING_ISTAT_SHORTFALL) :=
    h1.setFld (.of_addr (.inr (.inl ⟨rfl, by decide⟩)))
  exact .ite h2.present h

/-- The device with the hours of the planner's run kept. -/
def Dev.atHours (d : Dev) : Dev := { d with age := { d.age with planHours := d.hours }, persist := { d.persist with hours := d.hours } }

theorem plannerRun_eq {steps : List (Option Nat)} (h : d.age.planHours + 500 ≤ d.hours) :
    plannerRun steps d = (List.range 16).foldl (fun d lp => d.checkShort lp)
      ((List.range 16).foldl (fun d p => d.planInService steps p) d.atHours).noteSlow :=
  if_neg (Nat.not_lt.2 h)

/-- What the planner leaves of a pair (R541 to R543). -/
theorem plannerRun_leaves {steps : List (Option Nat)} {a : Option Nat} (h : d.age.planHours + 500 ≤ d.hours) (ha : steps[p]? = some a)
    (hp : p < 16) : Dev.PlanDone p a d.atHours (plannerRun steps d) := by
  rw [plannerRun_eq h]
  refine .between hp (.refl p _) (plans_done ha hp) ?_
  exact foldl_keeps (Dev.PlanKept p _) _ (fun _ _ hx => hx.checkShort) _ _ (Dev.PlanKept.refl p _).noteSlow

/-- Settles O47: the regulator's step by the slack reported, and each pair's plan in its turn of the planner's run. -/
theorem ageingHeld : Obligations.AgeingHeld := by
  unfold Obligations.AgeingHeld
  intro s d hlen
  refine ⟨fun p slack nbti => ?_, fun steps hsteps hdue => ?_⟩
  · intro x top g hv
    refine completes_onDev (f := voltageAdjust p.val slack nbti) rfl fun _ => ?_
    obtain ⟨hraise, hlow, hmid, hdown, hoth, hbind⟩ := voltageAdjust_leaves (slack := slack) (nbti := nbti)
      (show p.val < d.pairs.length by omega) (by omega) hv
    exact ⟨hraise, hlow, hmid, hdown, fun q _ hq => hoth q hq, hbind⟩
  · refine completes_onDev (f := plannerRun steps) rfl fun _ => ?_
    have hdone : ∀ p < 16, Dev.PlanDone p (nth none steps p) d.atHours (plannerRun steps d) := fun p hp => by
      refine plannerRun_leaves hdue ?_ hp
      rw [nth_eq_getD, List.getD_eq_getElem _ _ (by omega)]
      exact List.getElem?_eq_getElem (by omega)
    refine ⟨congrArg AgeSt.planHours (hdone 0 (by decide)).age, fun p hp => ?_⟩
    obtain ⟨-, hle, hout, hlower, hret⟩ := hdone p hp
    exact ⟨hle, hout, hlower, fun ho ha => (hret ho ha).imp_right Dev.Awaits.hasFault⟩

end Sys2Proof.Machine
end

section
/-! PROOFS. TenderSessions: what arrives on the Tender wire, and how sessions open and end (O48; R546 to R553). -/

set_option Elab.async false

namespace Sys2Proof.Machine

variable {d e : Dev} {tag code : Nat}

/-! ### Requests and replies (R550, R551) -/

/-- The device with its debug interface at `t`. -/
def Dev.setTdr (d : Dev) (t : DebugSt) : Dev := { d with tdr := t }

/-- The interface after a valid request of a command. -/
def Dev.receivedTdr (d : Dev) (code : Nat) : DebugSt :=
  { d.tdr with lastValid := d.ticks, lastCmd := code, work := if code = 4 || d.working then d.tdr.work else none }

theorem received_eq (d : Dev) (code : Nat) : d.received code = d.setTdr (d.receivedTdr code) := by
  have hw : ∀ t : DebugSt, t.work = d.tdr.work → (d.setTdr t).working = d.working := fun t h => by
    simp only [Dev.working, Dev.setTdr, h]
  unfold Dev.received Dev.receivedTdr
  extract_lets _ x
  have hx : x.working = d.working := hw { d.tdr with lastValid := d.ticks, lastCmd := code } rfl
  rw [hx]
  split <;> rfl

theorem working_setTdr {t : DebugSt} (h : t.work = d.tdr.work) : (d.setTdr t).working = d.working := by
  simp only [Dev.working, Dev.setTdr, h]

theorem working_of_none (h : d.tdr.work = none) : d.working = false := by rw [Dev.working, h]

/-- A request leaves the work under way. -/
theorem working_received (d : Dev) (code : Nat) : (d.received code).working = d.working := by
  rw [received_eq]
  cases h : d.working with
  | true => exact (working_setTdr (by simp [Dev.receivedTdr, h])).trans h
  | false =>
    by_cases hc : code = 4
    · exact (working_setTdr (by simp [Dev.receivedTdr, hc])).trans h
    · exact working_of_none (by simp [Dev.setTdr, Dev.receivedTdr, hc, h])

/-- The interface after a reply. -/
def DebugSt.replied (t : DebugSt) (status tag : Nat) (payload : List Byte) : DebugSt :=
  { t with reply := some { status := status, tag := tag, payload := payload } }

theorem reply_eq (d : Dev) (status tag : Nat) (payload : List Byte) : d.reply status tag payload = d.setTdr (d.tdr.replied status tag payload) := rfl

/-- The device answers with a status, a TAG and a number of bytes. -/
def Dev.Answers (e : Dev) (status tag len : Nat) : Prop := ∃ r, e.tdr.reply = some r ∧ r.status = status ∧ r.tag = tag ∧ r.payload.length = len

theorem answers_reply (d : Dev) (status tag : Nat) {payload : List Byte} {n : Nat} (h : payload.length = n) :
    (d.reply status tag payload).Answers status tag n := ⟨_, rfl, rfl, rfl, h⟩

/-- A reply to a request that touches the interface alone. -/
theorem reply_received (d : Dev) (code status tag : Nat) (payload : List Byte) :
    (d.received code).reply status tag payload = d.setTdr ((d.receivedTdr code).replied status tag payload) := by
  rw [received_eq]
  rfl

/-! ### Rates (R562) -/

/-- Counting an event into the last second presents a fault at most. -/
theorem rate_keeps (d : Dev) (l : List Nat) (n fi detail : Nat) :
    (∀ f, (d.rate l n fi detail).2.fld f = d.fld f) ∧ (d.rate l n fi detail).2 = { d with island := (d.rate l n fi detail).2.island } := by
  unfold Dev.rate
  extract_lets l'
  split <;> exact ⟨fun _ => rfl, rfl⟩

/-! ### A reset pulse (R547) -/

/-- A field of the DEBUG block reads after a device reset as its register's reset leaves it. -/
theorem fld_deviceReset (trig : Nat) {f : Fld} (hf : 0x150000 ≤ f.addr ∧ f.addr < 0x160000) :
    (d.deviceReset trig).fld f = fieldOf (ioGet (ioReset ((List.range 16).foldl Dev.fencePending d).io) f.addr) f.lo f.w := by
  have haddr : ∀ g : Fld, g.addr < 0x150000 ∨ 0x160000 ≤ g.addr → Fld.Apart g f := fun g hg => .inl (by omega)
  unfold Dev.deviceReset
  extract_lets d1 d2 d3
  have hd1 : d1 = (List.range 16).foldl Dev.fencePending d := rfl
  rw [← hd1]
  clear_value d1
  have h2 : d2.fld f = fieldOf (ioGet (ioReset d1.io) f.addr) f.lo f.w := by
    have hy1 : Dev.fld { d1 with io := ioReset d1.io } f = fieldOf (ioGet (ioReset d1.io) f.addr) f.lo f.w := rfl
    unfold d2 Dev.resetRegisters
    extract_lets old y1 y2
    change y1.fld f = _ at hy1
    have hy2 : y2.fld f = y1.fld f := by
      unfold y2
      split
      · exact fld_setFld_apart _ _ (haddr _ (by decide))
      · rfl
    exact (fld_setFld_apart _ _ (haddr _ (by decide))).trans (hy2.trans hy1)
  have h3 : d3.fld f = d2.fld f := by
    unfold d3
    split
    · exact fld_setFld_apart _ 1 (haddr _ (by decide))
    · rfl
  have h := h3.trans h2
  clear_value d3
  exact h

theorem fld_pulses_fencePending (d : Dev) (p : Nat) : (d.fencePending p).fld DEBUG_RSTCNT_PULSES = d.fld DEBUG_RSTCNT_PULSES := by
  have hap : Fld.Apart (PAIRCTL_ROLE_STATE p) DEBUG_RSTCNT_PULSES := .inl (show 0x150014 ≠ 0x010000 + 0x1000 * p by omega)
  unfold Dev.fencePending
  extract_lets x st y
  split
  · exact (fld_journal _ _ _ _ (by decide)).trans (fld_setFld_apart d st hap)
  · rfl

/-- A device reset keeps the count of reset pulses, and ends a session. -/
theorem fld_debug_deviceReset (d : Dev) (trig : Nat) :
    (d.deviceReset trig).fld DEBUG_RSTCNT_PULSES = d.fld DEBUG_RSTCNT_PULSES ∧ (d.deviceReset trig).fld DEBUG_STAT_SESSION = 0 := by
  have hfence : ((List.range 16).foldl Dev.fencePending d).fld DEBUG_RSTCNT_PULSES = d.fld DEBUG_RSTCNT_PULSES :=
    foldl_keeps (fun e : Dev => e.fld DEBUG_RSTCNT_PULSES = d.fld DEBUG_RSTCNT_PULSES) _
      (fun e p he => (fld_pulses_fencePending e p).trans he) (List.range 16) d rfl
  rw [fld_deviceReset _ (by decide), fld_deviceReset _ (by decide)]
  generalize (List.range 16).foldl Dev.fencePending d = x at *
  constructor
  · exact (fieldOf_ioReset_kept (r := .DEBUG_RSTCNT) (ix := []) (f := { lo := 0, w := 16, acc := .ro, ret := true }) rfl (by decide)
      (by decide) (fun _ => rfl)).trans hfence
  · exact fieldOf_ioReset (r := .DEBUG_STAT) (ix := []) (f := { lo := 0, w := 1, acc := .ro }) rfl (by decide) (by decide) (fun _ => rfl)

theorem resetPulse_leaves (d : Dev) :
    (resetPulse d).backInBoot = true ∧ (resetPulse d).fld DEBUG_STAT_SESSION = 0 ∧
    (resetPulse d).fld DEBUG_RSTCNT_PULSES = min 65535 (d.fld DEBUG_RSTCNT_PULSES + 1) := by
  have hboot := (deviceReset_restarts d trigPulse).1
  obtain ⟨hpulses, hsession⟩ := fld_debug_deviceReset d trigPulse
  unfold resetPulse
  generalize d.deviceReset trigPulse = x at *
  refine ⟨?_, (fld_setFld_apart _ _ (by decide)).trans hsession, ?_⟩
  · rw [Dev.backInBoot, Bool.and_eq_true, decide_eq_true_eq] at hboot ⊢
    exact ⟨(fld_setFld_apart _ _ (by decide)).trans hboot.1, hboot.2⟩
  · rw [fld_count (by decide), hpulses]
    rfl

theorem lineError_leaves (d : Dev) :
    (lineError d).fld DEBUG_CNT_LINE = min 65535 (d.fld DEBUG_CNT_LINE + 1) ∧ (lineError d).fld DEBUG_ISTAT_LINE = 1 ∧
    (lineError d).tdr.reply = d.tdr.reply := by
  have hline : ((d.count DEBUG_CNT_LINE).flag DEBUG_ISTAT_LINE).fld DEBUG_CNT_LINE = min 65535 (d.fld DEBUG_CNT_LINE + 1) := by
    rw [Dev.flag, fld_setFld_apart _ _ (by decide), fld_count (by decide)]
    rfl
  have hflag : ((d.count DEBUG_CNT_LINE).flag DEBUG_ISTAT_LINE).fld DEBUG_ISTAT_LINE = 1 := fld_flag _
  have htdr : ((d.count DEBUG_CNT_LINE).flag DEBUG_ISTAT_LINE).tdr = d.tdr := rfl
  unfold lineError
  extract_lets x
  change x.fld _ = _ at hline hflag
  change x.tdr = _ at htdr
  clear_value x
  obtain ⟨hf, hr⟩ := rate_keeps x x.tdr.lineTimes 16 fiDbgLine 0
  generalize x.rate x.tdr.lineTimes 16 fiDbgLine 0 = y at *
  obtain ⟨l, y⟩ := y
  have hx := congrArg Dev.tdr hr
  have ht : y.tdr = d.tdr := Eq.trans hx htdr
  refine ⟨(hf _).trans hline, (hf _).trans hflag, ?_⟩
  show y.tdr.reply = d.tdr.reply
  rw [ht]

/-! ### Sessions (R553) -/

theorem endSession_flag (h : d.session = true) : d.endSession.fld DEBUG_ISTAT_SESSION = 1 := by
  have hflag : d.released.sessionOver.fld DEBUG_ISTAT_SESSION = 1 := fld_flag _
  rw [endSession_eq, h, Bool.not_true, if_neg Bool.false_ne_true]
  split
  · exact ((fld_waitsOn _ _).trans (fld_setFld_apart _ _ (by decide))).trans hflag
  · exact hflag

/-- The close of a session ends it with its grant and its comparators (R506, R553). -/
theorem closeSession_leaves (d : Dev) : d.closeSession.fld DEBUG_STAT_SESSION = 0 ∧ (d.session = true → d.closeSession.trust.grant = none ∧
    d.closeSession.fld SYSCTL_STAT_DBGATT = 0 ∧ d.closeSession.fld DEBUG_ISTAT_SESSION = 1 ∧
    ∀ lp < 16, ∀ k < 8, d.closeSession.fld (DEBUG_COMPCTL_EN lp k) = 0) := by
  cases h : d.session with
  | false =>
    rw [Dev.closeSession, h]
    exact ⟨of_not_on h, fun h => (Bool.false_ne_true h).elim⟩
  | true =>
    obtain ⟨htrust, -, -, hregs⟩ := endGrant_leaves d
    have hsession : d.endGrant.session = true := (on_of_fld (hregs.fld DEBUG_STAT_SESSION (by decide))).trans h
    obtain ⟨hover, hrest⟩ := endSession_leaves d.endGrant
    obtain ⟨hatt, hcomp⟩ := hrest hsession
    rw [Dev.closeSession, h, if_pos rfl]
    refine ⟨hover, fun _ => ⟨?_, hatt, endSession_flag hsession, hcomp⟩⟩
    rw [(endSession_keeps d.endGrant).trust, htrust]
    rfl

/-- The device with a session open. -/
def Dev.attached (d : Dev) : Dev := ((d.setFld SYSCTL_STAT_DBGATT 1).flag DEBUG_STAT_SESSION).flag DEBUG_ISTAT_SESSION

theorem attached_leaves (d : Dev) : d.attached.fld SYSCTL_STAT_DBGATT = 1 ∧ d.attached.fld DEBUG_STAT_SESSION = 1 ∧
    d.attached.fld DEBUG_ISTAT_SESSION = 1 ∧ d.attached = { d with io := d.attached.io } := by
  unfold Dev.attached
  refine ⟨?_, ?_, fld_flag _, rfl⟩
  · rw [flag_eq, flag_eq, fld_setFld_apart _ _ (by decide), fld_setFld_apart _ _ (by decide), fld_setFld_same _ _ (by decide)]
    rfl
  · rw [flag_eq, fld_setFld_apart _ _ (by decide)]
    exact fld_flag _

/-- What ATTACH answers with. -/
def Dev.attachBytes (d : Dev) : List Byte := leBytes 1 d.lcs ++ leBytes 1 d.mode ++ leBytes 1 d.grantRights ++ [0] ++ leBytes 8 d.trust.devuid

theorem length_attachBytes (d : Dev) : d.attachBytes.length = 12 := by
  simp [Dev.attachBytes, length_leBytes]

theorem attach_eq (tag : Nat) (d : Dev) :
    attach tag d = if (d.received 1).working then (d.received 1).reply dsBusy tag []
      else (if (d.received 1).session then d.received 1 else (d.received 1).attached).reply dsOk tag
        (if (d.received 1).session then d.received 1 else (d.received 1).attached).attachBytes := rfl

theorem session_received (d : Dev) (code : Nat) : (d.received code).session = d.session := by
  rw [received_eq]
  rfl

theorem attach_busy (h : d.working = true) : attach tag d = d.setTdr ((d.receivedTdr 1).replied dsBusy tag []) := by
  rw [attach_eq, working_received, if_pos h, reply_received]

theorem attach_again (h : d.working = false) (hs : d.session = true) :
    attach tag d = d.setTdr ((d.receivedTdr 1).replied dsOk tag (d.received 1).attachBytes) := by
  rw [attach_eq, working_received, if_neg (by simp [h]), session_received, if_pos hs, reply_received]

theorem attach_opens (h : d.working = false) (hs : d.session = false) :
    attach tag d = (d.received 1).attached.reply dsOk tag (d.received 1).attached.attachBytes := by
  rw [attach_eq, working_received, if_neg (by simp [h]), session_received, if_neg (by simp [hs])]

/-! ### STATUS, PENDING, RESULT and SIGNED (R550, R552) -/

/-- What STATUS answers with. -/
def Dev.statusBytes (d : Dev) : List Byte :=
  ([0x150000, 0x000000] ++ (List.range 16).map (fun p => 0x150100 + 0x100 * p)).flatMap (fun a => leBytes 4 (d.peekWord a))

theorem length_statusBytes (d : Dev) : d.statusBytes.length = 72 := by
  simp [Dev.statusBytes, List.length_flatMap, length_leBytes, Function.comp_def]

theorem debugStatus_eq (tag : Nat) (d : Dev) : debugStatus tag d = d.setTdr ((d.receivedTdr 3).replied dsOk tag (d.received 3).statusBytes) :=
  reply_received d 3 dsOk tag (d.received 3).statusBytes

theorem retryWork_of_no_req {w : Work} (hw : d.tdr.work = some w) (h : w.result ≠ none ∨ w.req = none) : d.retryWork = d := by
  obtain ⟨wtag, result, req, told⟩ := w
  unfold Dev.retryWork
  rw [hw]
  cases result with
  | some r => rfl
  | none =>
    obtain rfl : req = none := h.resolve_left (· rfl)
    rfl

theorem pendingReply_eq {w : Work} (hw : d.tdr.work = some w) (hres : w.result = none) (hreq : w.req = none) (htold : w.told = false) :
    pendingReply d = d.setTdr { d.tdr with work := some { w with told := true }, reply := some { status := 2, tag := w.tag } } := by
  unfold pendingReply
  rw [retryWork_of_no_req hw (.inr hreq)]
  extract_lets x
  have hx : x = d := rfl
  clear_value x
  subst hx
  rw [hw]
  simp only [hres, htold, Option.isNone_none, Bool.not_false, Bool.and_true, if_true]
  rfl

theorem debugResult_eq {w : Work} {r : Reply} (hw : d.tdr.work = some w) (htag : w.tag = tag) (hres : w.result = some r) :
    debugResult tag d = d.setTdr ((d.receivedTdr 4).replied r.status tag r.payload) := by
  have hrec : (d.received 4).tdr.work = some w := by
    rw [received_eq]
    exact hw
  unfold debugResult
  rw [retryWork_of_no_req hrec (.inl (by simp [hres]))]
  extract_lets x
  have hx : x = d.received 4 := rfl
  clear_value x
  subst hx
  rw [hrec]
  simp only [htag, hres, if_true]
  exact reply_received d 4 r.status tag r.payload

/-- The interface with a signed block's answer awaited. -/
def DebugSt.awaitingBlock (t : DebugSt) (tag : Nat) : DebugSt :=
  { t with work := some { tag := tag, result := none, told := true }, reply := some { status := dsPending, tag := tag } }

theorem signedBlock_eq {block : List Byte} (h : d.working = false) (hroom : d.trust.waiting.length < 3) :
    signedBlock tag block d = (d.setTdr ((d.receivedTdr 5).awaitingBlock tag)).setTrust
      { d.trust with waiting := d.trust.waiting ++ [{ bytes := block, via := .tender }] } := by
  have hwork : (d.received 5).working = false := (working_received d 5).trans h
  rw [received_eq] at hwork
  unfold signedBlock
  rw [received_eq]
  extract_lets x _ y
  have hy : Dev.reply y dsPending tag [] = d.setTdr ((d.receivedTdr 5).awaitingBlock tag) := rfl
  rw [if_neg (by simp only [x, hwork]; decide), hy]
  exact blockArrives_room (d := d.setTdr ((d.receivedTdr 5).awaitingBlock tag)) hroom

/-- The device with a session open or opened answers ATTACH with OK and 12 bytes. -/
theorem attach_leaves (h : d.working = false) :
    let e := attach tag d
    e.Answers 0 tag 12 ∧ e.fld DEBUG_STAT_SESSION = 1 ∧ (d.session = true → e = { d with tdr := e.tdr }) ∧
    (d.session = false → e.fld SYSCTL_STAT_DBGATT = 1 ∧ e.fld DEBUG_ISTAT_SESSION = 1 ∧ e = { d with io := e.io, tdr := e.tdr }) := by
  intro e
  cases hs : d.session with
  | true =>
    have he : e = _ := attach_again h hs
    clear_value e
    subst he
    exact ⟨answers_reply (d.received 1) _ _ (length_attachBytes _), (on_iff_one rfl).1 hs, fun _ => rfl, fun h => absurd h.symm Bool.false_ne_true⟩
  | false =>
    have he : e = _ := attach_opens h hs
    clear_value e
    subst he
    obtain ⟨hatt, hstat, hflag, hio⟩ := attached_leaves (d.received 1)
    refine ⟨answers_reply _ _ _ (length_attachBytes _), hstat, fun h => absurd h Bool.false_ne_true, fun _ => ⟨hatt, hflag, ?_⟩⟩
    rw [reply_eq, hio, received_eq]
    rfl

/-- Settles O48: each of the wire's commands by the lemma above on what it leaves. -/
theorem tenderWire : Obligations.TenderWire := by
  unfold Obligations.TenderWire
  intro s tag d answers ended
  have hanswers : ∀ {e : Dev} {st n : Nat}, e.Answers st tag.toNat n → answers e st := fun ⟨r, hr, hs, ht, _⟩ => ⟨r, hr, hs, ht⟩
  have hlength : ∀ {e : Dev} {st n : Nat}, e.Answers st tag.toNat n → ∀ r, e.tdr.reply = some r → r.payload.length = n :=
    fun ⟨r, hr, _, _, hn⟩ r' hr' => Option.some.inj (hr.symm.trans hr') ▸ hn
  refine ⟨completes_onDev (f := resetPulse) rfl fun _ => resetPulse_leaves d,
    completes_onDev (f := lineError) rfl fun _ => lineError_leaves d, completes_onDev (f := badFrame) rfl fun _ => rfl,
    fun h => completes_onDev (f := attach tag.toNat) rfl fun _ => ?_, fun h => completes_onDev (f := attach tag.toNat) rfl fun _ => ?_,
    completes_onDev (f := detach tag.toNat) rfl fun _ => ?_, fun h => completes_onDev (f := sessionIdle) rfl fun _ => ?_,
    completes_onDev (f := debugStatus tag.toNat) rfl fun _ => ?_,
    fun w hw hres hreq htold => completes_onDev (f := pendingReply) rfl fun _ => pendingReply_eq hw hres hreq htold,
    fun w r hw htag hres => completes_onDev (f := debugResult tag.toNat) rfl fun _ => ?_,
    fun block h hroom => completes_onDev (f := signedBlock tag.toNat block) rfl fun _ => ?_,
    fun h => completes_onDev (f := unknownRequest tag.toNat) rfl fun _ => ?_⟩
  · obtain ⟨hans, hstat, hagain, hopens⟩ := attach_leaves (tag := tag.toNat) h
    exact ⟨hanswers hans, hstat, hlength hans, hagain, hopens⟩
  · rw [attach_busy h]
    exact ⟨⟨_, rfl, rfl, rfl⟩, rfl⟩
  · obtain ⟨hover, hrest⟩ := closeSession_leaves (d.received 2)
    rw [session_received] at hrest
    exact ⟨⟨_, rfl, rfl, rfl⟩, hover, hrest⟩
  · have hdue : sessionIdle d = d.closeSession := if_pos (by
      rw [Dev.elapsed, decide_eq_true_eq, Nat.mul_assoc]
      exact h)
    rw [hdue]
    exact closeSession_leaves d
  · rw [debugStatus_eq]
    have hans : (d.setTdr ((d.receivedTdr 3).replied dsOk tag.toNat (d.received 3).statusBytes)).Answers dsOk tag.toNat 72 :=
      ⟨_, rfl, rfl, rfl, length_statusBytes _⟩
    exact ⟨hanswers hans, rfl, hlength hans⟩
  · rw [debugResult_eq hw htag hres]
    exact ⟨rfl, rfl⟩
  · rw [signedBlock_eq h hroom]
    exact ⟨⟨_, rfl, rfl, rfl⟩, rfl, rfl⟩
  · have hun : unknownRequest tag.toNat d = d.setTdr ((d.receivedTdr 0).replied dsUnknown tag.toNat []) := by
      unfold unknownRequest
      extract_lets x
      rw [show x.working = false from (working_received d 0).trans h]
      exact reply_received d 0 dsUnknown tag.toNat []
    rw [hun]
    exact ⟨⟨_, rfl, rfl, rfl⟩, rfl⟩

end Sys2Proof.Machine
end

section
/-! PROOFS. DebugJudgement: how the commands that need a session are turned away (O49; R505, R506, R551, R554). -/

set_option Elab.async false

namespace Sys2Proof.Machine

variable {d e : Dev} {tag code : Nat} {allowed : Bool} {f : Dev → Dev}

/-- The DEBUG registers that a denial changes: ISTAT and CNT. -/
def denyRegs : List Nat := [0x150008, 0x150010]

/-- A command that needs a session, once received. -/
theorem sessionCommand_eq (d : Dev) (code tag : Nat) (allowed : Bool) (f : Dev → Dev) :
    d.sessionCommand code tag allowed f = if d.working then d.setTdr ((d.receivedTdr code).replied dsBusy tag [])
      else if !d.session then d.setTdr ((d.receivedTdr code).replied dsNosession tag [])
      else if !allowed then (d.setTdr (d.receivedTdr code)).debugDenied tag
      else f (d.setTdr (d.receivedTdr code)) := by
  unfold Dev.sessionCommand
  extract_lets x
  have hx : x = d.received code := rfl
  clear_value x
  subst hx
  rw [working_received, session_received, reply_received, reply_received, received_eq]

theorem sessionCommand_busy (h : d.working = true) :
    d.sessionCommand code tag allowed f = d.setTdr ((d.receivedTdr code).replied dsBusy tag []) :=
  (sessionCommand_eq ..).trans (if_pos h)

theorem sessionCommand_closed (h : d.working = false) (hs : d.session = false) :
    d.sessionCommand code tag allowed f = d.setTdr ((d.receivedTdr code).replied dsNosession tag []) := by
  rw [sessionCommand_eq, if_neg (by simp [h]), if_pos (by simp [hs])]

theorem sessionCommand_denied (h : d.working = false) (hs : d.session = true) (ha : allowed = false) :
    d.sessionCommand code tag allowed f = (d.setTdr (d.receivedTdr code)).debugDenied tag := by
  rw [sessionCommand_eq, if_neg (by simp [h]), if_neg (by simp [hs]), if_pos (by simp [ha])]

theorem sessionCommand_allowed (h : d.working = false) (hs : d.session = true) (ha : allowed = true) :
    d.sessionCommand code tag allowed f = f (d.setTdr (d.receivedTdr code)) := by
  rw [sessionCommand_eq, if_neg (by simp [h]), if_neg (by simp [hs]), if_neg (by simp [ha])]

/-- The device with a denial counted and flagged. -/
def Dev.denialNoted (d : Dev) : Dev := (d.count DEBUG_CNT_DENY).flag DEBUG_ISTAT_DENY

theorem denialNoted_leaves (d : Dev) :
    d.denialNoted.fld DEBUG_CNT_DENY = min 65535 (d.fld DEBUG_CNT_DENY + 1) ∧ d.denialNoted.fld DEBUG_ISTAT_DENY = 1 ∧
    d.denialNoted = { d with io := d.denialNoted.io } ∧ d.Regs d.denialNoted denyRegs := by
  refine ⟨?_, fld_flag _, rfl, ((Dev.Regs.refl d _).setFld _ _ (by decide)).setFld _ _ (by decide)⟩
  rw [Dev.denialNoted, flag_eq, fld_setFld_apart _ _ (by decide), fld_count (by decide)]
  rfl

/-- A denial is counted and flagged, answered, and at most presented (R554, R562). -/
theorem debugDenied_leaves (d : Dev) (tag : Nat) :
    let e := d.debugDenied tag
    (∃ r, e.tdr.reply = some r ∧ r.status = 1 ∧ r.tag = tag ∧ r.payload = []) ∧
    e.fld DEBUG_CNT_DENY = min 65535 (d.fld DEBUG_CNT_DENY + 1) ∧ e.fld DEBUG_ISTAT_DENY = 1 ∧
    e = { d with io := e.io, tdr := e.tdr, island := e.island } ∧ d.Regs e denyRegs := by
  intro e
  obtain ⟨hcnt, hflag, hio, hregs⟩ := denialNoted_leaves d
  obtain ⟨hfld, hisl⟩ := rate_keeps d.denialNoted d.denialNoted.tdr.denyTimes 8 fiDbgDeny d.denialNoted.tdr.lastCmd
  have he : e = (Dev.setTdr (d.denialNoted.rate d.denialNoted.tdr.denyTimes 8 fiDbgDeny d.denialNoted.tdr.lastCmd).2
      { (d.denialNoted.rate d.denialNoted.tdr.denyTimes 8 fiDbgDeny d.denialNoted.tdr.lastCmd).2.tdr with
        denyTimes := (d.denialNoted.rate d.denialNoted.tdr.denyTimes 8 fiDbgDeny d.denialNoted.tdr.lastCmd).1 }).reply dsDenied tag [] := rfl
  clear_value e
  generalize d.denialNoted.rate d.denialNoted.tdr.denyTimes 8 fiDbgDeny d.denialNoted.tdr.lastCmd = y at *
  obtain ⟨l, y⟩ := y
  subst he
  refine ⟨⟨_, rfl, rfl, rfl, rfl⟩, (hfld _).trans hcnt, (hfld _).trans hflag, ?_, ?_⟩
  · have hy : y = { d.denialNoted with island := y.island } := hisl
    rw [reply_eq, hy, hio]
    rfl
  · have hyio := congrArg Dev.io hisl
    exact hregs.same (f := (y.setTdr { y.tdr with denyTimes := l }).reply dsDenied tag []) hyio

/-- A command that needs a session is turned away by BUSY, NOSESSION or DENIED, and changes nothing else (R554). -/
theorem turnedAway {s : State} {c : Instr} {g : Dev → Dev} (hc : exec c s = s.onDev g)
    (hg : g s.dev = s.dev.sessionCommand code tag allowed f) :
    let d := s.dev
    let answers (e : Dev) (st : Nat) : Prop := ∃ r, e.tdr.reply = some r ∧ r.status = st ∧ r.tag = tag ∧ r.payload = []
    (d.working = true → Completes c s fun e => answers e 3 ∧ e = { d with tdr := e.tdr }) ∧
    (d.working = false → d.session = false → Completes c s fun e => answers e 8 ∧ e = { d with tdr := e.tdr }) ∧
    (d.working = false → d.session = true → allowed = false → Completes c s fun e => answers e 1 ∧
      e.fld DEBUG_CNT_DENY = min 65535 (d.fld DEBUG_CNT_DENY + 1) ∧ e.fld DEBUG_ISTAT_DENY = 1 ∧
      e = { d with io := e.io, tdr := e.tdr, island := e.island } ∧ d.SameWords e [0x150008, 0x150010]) := by
  intro d answers
  refine ⟨fun h => completes_onDev hc fun _ => ?_, fun h hs => completes_onDev hc fun _ => ?_,
    fun h hs ha => completes_onDev hc fun _ => ?_⟩ <;> rw [hg]
  · rw [sessionCommand_busy h]
    exact ⟨⟨_, rfl, rfl, rfl, rfl⟩, rfl⟩
  · rw [sessionCommand_closed h hs]
    exact ⟨⟨_, rfl, rfl, rfl, rfl⟩, rfl⟩
  · rw [sessionCommand_denied h hs ha]
    obtain ⟨hans, hcnt, hflag, hrest, hregs⟩ := debugDenied_leaves (d.setTdr (d.receivedTdr code)) tag
    exact ⟨hans, hcnt, hflag, hrest, hregs.word⟩

/-- Settles O49: each of the eight commands is one command that needs a session, with its own judgement. -/
theorem debugJudged : Obligations.DebugJudged := by
  unfold Obligations.DebugJudged
  intro s tag lp pairs n k a m c area count off io live data d rd wr x hx
  simp only [List.mem_cons, List.not_mem_nil, or_false] at hx
  rcases hx with rfl | rfl | rfl | rfl | rfl | rfl | rfl | rfl
  · exact turnedAway (g := debugHalt tag.toNat pairs.toNat) rfl rfl
  · exact turnedAway (g := debugResume tag.toNat pairs.toNat) rfl rfl
  · exact turnedAway (g := debugStep tag.toNat lp.val n.toNat) rfl rfl
  · exact turnedAway (g := setComparator tag.toNat lp.val k.val a.toNat m.toNat c.toNat) rfl rfl
  · exact turnedAway (g := readCore tag.toNat lp.val area.val count off) rfl rfl
  · exact turnedAway (g := writeCore tag.toNat lp.val area.val off data) rfl rfl
  · exact turnedAway (g := debugRead tag.toNat rd) rfl rfl
  · exact turnedAway (g := debugWrite tag.toNat wr) rfl rfl

end Sys2Proof.Machine
end

section
/-! PROOFS. DebugOperations: what a debugger's allowed commands do to the pair or the register that they name (O50; R555 to
R561). -/

set_option Elab.async false

namespace Sys2Proof.Machine

variable {d e : Dev} {p q lp tag : Nat}

/-! ### The interface alone -/

/-- What a register reads as does not depend on the debug interface. -/
theorem liveWord_setTdr (d : Dev) (t : DebugSt) (r : Reg) (ix : List Nat) (w : Word) :
    (d.setTdr t).liveWord r ix w = d.liveWord r ix w := by
  cases r <;> rfl

/-- The mask of one logical pair names it alone. -/
theorem bitsList_one_pair : ∀ lp : Fin 16, bitsList (BitVec.ofNat 16 (2 ^ lp.val)).toNat 16 = [lp.val] ∧
    (BitVec.ofNat 16 (2 ^ lp.val)).toNat = 2 ^ lp.val := by decide

/-! ### Halts and steps reach the capture stage (R556 to R558) -/

section
variable (hw : d.working = false) (hs : d.session = true)
include hw hs

theorem debugHalt_one (lp : Fin 16) (hr : d.debugRight 0 (2 ^ lp.val) = true) :
    debugHalt tag (BitVec.ofNat 16 (2 ^ lp.val)).toNat d =
      (if (d.pair (d.physOf lp.val)).dbg.halted then d.setTdr (d.receivedTdr 0x10)
        else (d.setTdr (d.receivedTdr 0x10)).capture (d.physOf lp.val) .halt).reply dsOk tag [] := by
  obtain ⟨hbits, hnum⟩ := bitsList_one_pair lp
  unfold debugHalt
  rw [sessionCommand_allowed hw hs (by rw [hnum]; exact hr), hbits]
  rfl

theorem debugResume_one (lp : Fin 16) (hr : d.debugRight 0 (2 ^ lp.val) = true) :
    debugResume tag (BitVec.ofNat 16 (2 ^ lp.val)).toNat d =
      ((d.setTdr (d.receivedTdr 0x11)).resumeHeld (d.physOf lp.val)).reply dsOk tag [] := by
  obtain ⟨hbits, hnum⟩ := bitsList_one_pair lp
  unfold debugResume
  rw [sessionCommand_allowed hw hs (by rw [hnum]; exact hr), hbits]
  rfl

theorem debugStep_eq (n : Nat) (hr : d.debugRight 0 (2 ^ lp) = true) :
    debugStep tag lp n d = if !(d.pair (d.physOf lp)).dbg.halted then (d.setTdr (d.receivedTdr 0x12)).reply dsState tag []
      else if n = 0 then (d.setTdr (d.receivedTdr 0x12)).reply dsOk tag []
      else ((d.setTdr (d.receivedTdr 0x12)).capture (d.physOf lp) (.step n)).reply dsOk tag [] :=
  sessionCommand_allowed hw hs hr

end

/-! ### A step presented (R558) -/

/-- The pairs and their places in the binding are those of `d`. -/
structure Dev.PlacesKept (d e : Dev) : Prop where
  pairs : e.pairs = d.pairs
  role : ∀ p < 16, e.lpairOf p = d.lpairOf p

theorem Dev.PlacesKept.refl (d : Dev) : d.PlacesKept d := ⟨rfl, fun _ _ => rfl⟩

theorem Dev.PlacesKept.setFld {f : Fld} {v : Nat} (h : d.PlacesKept e) (hf : 0x20000 ≤ f.addr) : d.PlacesKept (e.setFld f v) :=
  ⟨h.pairs, fun p hp => (fld_setFld_apart _ _ (.inl (show 0x010000 + 0x1000 * p ≠ f.addr by omega))).trans (h.role p hp)⟩

theorem Dev.PlacesKept.of_butMode {f : Dev} {l : List Nat} (h : d.PlacesKept e) (hf : f.butMode = e.butMode) (hr : e.Regs f l)
    (hl : ∀ a ∈ l, 0x20000 ≤ a) : d.PlacesKept f :=
  ⟨(pairs_of_butMode hf).trans h.pairs, fun p hp => (hr.fld (PAIRCTL_ROLE_LPAIR p) fun hmem => by
    have hge : 0x20000 ≤ 0x010000 + 0x1000 * p := hl _ hmem
    omega).trans (h.role p hp)⟩

theorem Dev.PlacesKept.ite {c : Prop} {_ : Decidable c} {f : Dev} (h : d.PlacesKept e) (h' : d.PlacesKept f) :
    d.PlacesKept (if c then e else f) := by
  split
  · exact h
  · exact h'

/-- The end of Keeper's freeze keeps every pair and its place. -/
theorem Dev.PlacesKept.keeperThaw (h : d.PlacesKept e) : d.PlacesKept e.keeperThaw := by
  unfold Dev.keeperThaw
  extract_lets len x
  have hx : d.PlacesKept (x.setFld KEEPER_STAT_STATE 2) :=
    (((h.setFld (f := KEEPER_PAUSE_COUNT) (by decide)).setFld (by decide)).setFld (by decide)).setFld (by decide)
  have hfresh := freshWindow_frame (x.setFld KEEPER_STAT_STATE 2)
  have hjournal := journal_frame (x.setFld KEEPER_STAT_STATE 2).freshWindow 0x15 [len] []
  exact .ite ((hx.of_butMode hfresh.1 hfresh.2.2.2 (by decide)).of_butMode (butMode_of_butJournal hjournal.1) hjournal.2 (by decide)) h

/-- A pair released from its halt: its debug state, and nothing of another pair. -/
theorem releasePair_leaves (hp : p < d.pairs.length) :
    (d.releasePair p).pair p = { d.pair p with dbg := { (d.pair p).dbg with halted := false, haltAsked := false, pass := true } } ∧
    (∀ q, q ≠ p → (d.releasePair p).pair q = d.pair q) ∧ (d.releasePair p).pairs.length = d.pairs.length ∧
    ∀ q < 16, (d.releasePair p).lpairOf q = d.lpairOf q := by
  unfold Dev.releasePair
  extract_lets lp x dbg y z
  have hy : y.PlacesKept z := by
    have hfar : ∀ f : Fld, 0x150100 ≤ f.addr → 0x20000 ≤ f.addr := fun f hf => by omega
    exact (((Dev.PlacesKept.refl y).setFld (f := DEBUG_PSTAT_HALTED lp) (hfar _ (Nat.le_add_right ..))).setFld
      (f := DEBUG_PSTAT_DEFER lp) (hfar _ (Nat.le_add_right ..))).setFld (by decide)
  have hthaw := hy.keeperThaw
  have hsame := pair_setPair_same (d := d) p { x with dbg := { dbg with halted := false, haltAsked := false, pass := true } } hp
  have hne := fun q (hq : q ≠ p) => pair_setPair_ne (d := d) { x with dbg := { dbg with halted := false, haltAsked := false, pass := true } } hq
  have hlen : y.pairs.length = d.pairs.length := length_setPair ..
  have hrole : ∀ q, y.lpairOf q = d.lpairOf q := fun _ => rfl
  change y.pair p = _ at hsame
  change ∀ q, q ≠ p → y.pair q = _ at hne
  clear_value z y
  exact ⟨(pair_of_pairs hthaw.pairs p).trans hsame, fun q hq => (pair_of_pairs hthaw.pairs q).trans (hne q hq),
    (congrArg List.length hthaw.pairs).trans hlen, fun q hq => (hthaw.role q hq).trans (hrole q)⟩

/-- The device whose pair goes on for `n` bundles. -/
def Dev.stepping (d : Dev) (p n : Nat) : Dev :=
  (d.setPair p { d.pair p with dbg := { (d.pair p).dbg with stepping := true, stepLeft := n } }).flag (DEBUG_PSTAT_STEP (d.lpairOf p))

theorem presentInput_step {n : Nat} {rest : List CapInput} (hc : (d.pair p).capture = .step n :: rest) :
    d.presentInput p (.step n) = ((d.setPair p ((d.pair p).taken rest)).releasePair p).stepping p n := by
  simp only [Dev.presentInput, hc, List.erase_cons_head]
  rfl

/-- A step captured first is presented at once. -/
theorem captureInput_step {n : Nat} {rest : List CapInput} (hp : d.presents p = true) (hc : (d.pair p).capture = .step n :: rest) :
    captureInput p false d = (((d.setPair p ((d.pair p).taken rest)).releasePair p).stepping p n).noteOcc p := by
  have hone : upTo (fun c : CapInput => !c.isTag) (d.pair p).capture = 1 := by simp [hc, upTo, findIdxOf, CapInput.isTag]
  rw [captureInput, if_neg (by decide), Dev.captureNext, hone, presentFirst_one hp hc, presentInput_step hc]

theorem stepping_leaves {n : Nat} (hp : p < d.pairs.length) :
    (d.stepping p n).pair p = { d.pair p with dbg := { (d.pair p).dbg with stepping := true, stepLeft := n } } ∧
    (∀ q, q ≠ p → (d.stepping p n).pair q = d.pair q) ∧ (d.stepping p n).fld (DEBUG_PSTAT_STEP (d.lpairOf p)) = 1 :=
  ⟨pair_setPair_same (d := d) p _ hp, fun _ hq => pair_setPair_ne (d := d) _ hq, fld_flag _⟩

/-- A step presented lets its pair go for its count of bundles, and no other pair changes (R558). -/
theorem captureInput_step_leaves {n : Nat} {rest : List CapInput} (hlen : d.pairs.length = 16) (hp16 : p < 16)
    (hp : d.presents p = true) (hc : (d.pair p).capture = .step n :: rest) :
    let e := captureInput p false d
    (e.pair p).capture = rest ∧ (e.pair p).dbg.halted = false ∧ (e.pair p).dbg.stepping = true ∧ (e.pair p).dbg.stepLeft = n ∧
    e.fld (DEBUG_PSTAT_STEP (d.lpairOf p)) = 1 ∧ (e.pair p).lead = (d.pair p).lead ∧ ∀ q < 16, q ≠ p → e.pair q = d.pair q := by
  intro e
  have he : e = _ := captureInput_step hp hc
  have htaken := pair_setPair_same (d := d) p ((d.pair p).taken rest) (by omega)
  have htakenNe := fun q (hq : q ≠ p) => pair_setPair_ne (d := d) ((d.pair p).taken rest) hq
  have hlenTaken : (d.setPair p ((d.pair p).taken rest)).pairs.length = 16 := (length_setPair ..).trans hlen
  obtain ⟨hrel, hrelNe, hrelLen, hrelRole⟩ := releasePair_leaves (d := d.setPair p ((d.pair p).taken rest)) (p := p) (by omega)
  have hrole : ((d.setPair p ((d.pair p).taken rest)).releasePair p).lpairOf p = d.lpairOf p := hrelRole p hp16
  generalize (d.setPair p ((d.pair p).taken rest)).releasePair p = y at *
  obtain ⟨hstep, hstepNe, hflag⟩ := stepping_leaves (d := y) (p := p) (n := n) (by omega)
  rw [hrole] at hflag
  generalize y.stepping p n = z at *
  clear_value e
  subst he
  have hpair : ((z.noteOcc p).pair p) = z.pair p := pair_of_pairs (noteOcc_pairs z p) p
  rw [hpair, hstep, hrel, htaken]
  refine ⟨rfl, rfl, rfl, rfl, ?_, rfl, fun q _ hq => ?_⟩
  · exact (fld_of_word _ (word_noteOcc_ne z p (show 0x150100 + 0x100 * d.lpairOf p ≠ 0x010028 + 0x1000 * p by omega))).trans hflag
  · rw [pair_of_pairs (noteOcc_pairs z p) q, hstepNe q hq, hrelNe q hq, htakenNe q hq]

/-! ### Comparators (R561) -/

/-- The device with a comparator set. -/
def Dev.comparing (d : Dev) (lp k addr mask ctl : Nat) : Dev :=
  ((((d.setFld (DEBUG_COMPADDR_ADDR lp k) addr).setFld (DEBUG_COMPMASK_MASK lp k) mask).setFld (DEBUG_COMPCTL_EN lp k)
    (bitOf ctl 31)).setFld (DEBUG_COMPCTL_KIND lp k) (bitsOf ctl 8 2)).setFld (DEBUG_COMPCTL_SLOTS lp k) (bitsOf ctl 0 8)

theorem comparing_leaves (d : Dev) (lp k : Nat) (a m c : Word) :
    let e := d.comparing lp k a.toNat m.toNat c.toNat
    e.fld (DEBUG_COMPADDR_ADDR lp k) = a.toNat ∧ e.fld (DEBUG_COMPMASK_MASK lp k) = m.toNat ∧
    e.fld (DEBUG_COMPCTL_EN lp k) = c.toNat / 2 ^ 31 % 2 ∧ e.fld (DEBUG_COMPCTL_KIND lp k) = c.toNat / 2 ^ 8 % 4 ∧
    e.fld (DEBUG_COMPCTL_SLOTS lp k) = c.toNat % 256 ∧ e = { d with io := e.io } := by
  have ha := a.isLt
  have hm := m.isLt
  refine ⟨?_, ?_, ?_, ?_, ?_, rfl⟩ <;>
    simp [Dev.comparing, DEBUG_COMPADDR_ADDR, DEBUG_COMPMASK_MASK, DEBUG_COMPCTL_EN, DEBUG_COMPCTL_KIND, DEBUG_COMPCTL_SLOTS,
      fld_setFld_off, fld_setFld_cut, bitOf, bitsOf, Nat.shiftRight_eq_div_pow, Nat.mod_eq_of_lt ha, Nat.mod_eq_of_lt hm]

theorem setComparator_eq {k addr mask ctl : Nat} (hw : d.working = false) (hs : d.session = true) (hr : d.debugRight 0 (2 ^ lp) = true) :
    setComparator tag lp k addr mask ctl d = ((d.setTdr (d.receivedTdr 0x13)).comparing lp k addr mask ctl).reply dsOk tag [] :=
  sessionCommand_allowed hw hs hr

/-! ### Core state (R560) -/

/-- Two cores alike, their words clean, answer the bytes of their data memory. -/
theorem readCore_data {n off : Nat} (hw : d.working = false) (hs : d.session = true) (hr : d.debugRight 1 (2 ^ lp) = true)
    (hruns : d.pairRuns (d.physOf lp) = true) (htwin : (d.pair (d.physOf lp)).lead = (d.pair (d.physOf lp)).shadow)
    (hok : areaOk 1 off n = true) (hclean : ((d.pair (d.physOf lp)).lead.areaRead 1 off n).2 = []) :
    readCore tag lp 1 n off d =
      d.setTdr ((d.receivedTdr 0x14).replied dsOk tag ((d.pair (d.physOf lp)).lead.areaRead 1 off n).1) := by
  unfold readCore
  rw [sessionCommand_allowed hw hs hr]
  have hphys : (d.setTdr (d.receivedTdr 0x14)).physOf lp = d.physOf lp := rfl
  have hpair : (d.setTdr (d.receivedTdr 0x14)).pair (d.physOf lp) = d.pair (d.physOf lp) := rfl
  have hrun : (d.setTdr (d.receivedTdr 0x14)).pairRuns (d.physOf lp) = true := hruns
  simp only [hphys, hpair, hrun, hok, ← htwin, hclean, List.any_nil, bne_self_eq_false, Bool.and_false, Bool.or_self]
  rfl

/-- One data word put into a core: the word's new value, every other word as before. -/
theorem pokeMemory_word (c : Core) {off : Nat} {data : List Byte} (hoff : off % 8 = 0) (hlen : data.length = 8) :
    let y := c.pokeMemory 1 data (piecesOf off data.length)
    y.2 = (false, []) ∧ (ramRead y.1.dmem (off / 8) (off / 8)).value = leNat data ∧
    ∀ w, w ≠ off / 8 → ramRead y.1.dmem w w = ramRead c.dmem w w := by
  have hpieces : piecesOf off data.length = [(off, 8)] := by
    rw [hlen]
    simp [piecesOf, wordPieces, hoff]
  have htake : data.take 8 = data := List.take_of_length_le hlen.le
  have haddr : (localBase + 8 * (off / 8) - localBase) / 8 = off / 8 := by omega
  have hlt : leNat data < 2 ^ 64 := by
    have h := leNat_lt data
    rwa [hlen] at h
  have hpoke : c.pokeMemory 1 data [(off, 8)] = ((c.localStore (localBase + 8 * (off / 8)) 8 (leNat data)).1, false, []) := by
    simp only [Core.pokeMemory, htake, if_true, ne_eq, not_true_eq_false, false_and, if_false, List.append_nil]
  have hdm : (c.localStore (localBase + 8 * (off / 8)) 8 (leNat data)).1.dmem = ramWrite c.dmem (off / 8) (off / 8) (leNat data) := by
    rw [Core.localStore]
    simp only [haddr, if_true, logWord_dmem, Nat.mod_eq_of_lt hlt]
  rw [hpieces, hpoke]
  refine ⟨rfl, ?_, fun w hne => ?_⟩
  · rw [hdm, ramRead_ramWrite_same _ _ _ hlt]
  · rw [hdm, ramRead_ramWrite_ne _ _ _ _ hne]

/-- The pair with the next bundle's checkpoint asked for and a range of both data memories written. -/
def Pair.poked (x : Pair) (off : Nat) (bytes : List Byte) : Pair :=
  { x with
    dbg := { x.dbg with ckptFirst := true }
    lead := (x.lead.pokeMemory 1 bytes (piecesOf off bytes.length)).1
    shadow := (x.shadow.pokeMemory 1 bytes (piecesOf off bytes.length)).1 }

theorem writeCore_running {off : Nat} {data : List Byte} (hw : d.working = false) (hs : d.session = true)
    (hr : d.debugRight 3 (2 ^ lp) = true) (hok : areaOk 1 off data.length = true) (hh : (d.pair (d.physOf lp)).dbg.halted = false) :
    writeCore tag lp 1 off data d = d.setTdr ((d.receivedTdr 0x15).replied dsState tag []) := by
  unfold writeCore
  rw [sessionCommand_allowed hw hs hr]
  have hhalt : ((d.setTdr (d.receivedTdr 0x15)).pair ((d.setTdr (d.receivedTdr 0x15)).physOf lp)).dbg.halted = false := hh
  simp only [hok, hhalt]
  rfl

theorem writeCore_word {off : Nat} {data : List Byte} (hw : d.working = false) (hs : d.session = true)
    (hr : d.debugRight 3 (2 ^ lp) = true) (hok : areaOk 1 off data.length = true) (hh : (d.pair (d.physOf lp)).dbg.halted = true)
    (hoff : off % 8 = 0) (hlen : data.length = 8) :
    writeCore tag lp 1 off data d =
      ((d.setTdr (d.receivedTdr 0x15)).setPair (d.physOf lp) ((d.pair (d.physOf lp)).poked off data)).reply dsOk tag [] := by
  obtain ⟨hlead, -⟩ := pokeMemory_word (d.pair (d.physOf lp)).lead hoff hlen
  obtain ⟨hshadow, -⟩ := pokeMemory_word (d.pair (d.physOf lp)).shadow hoff hlen
  have hphys : (d.setTdr (d.receivedTdr 0x15)).physOf lp = d.physOf lp := rfl
  have hpair : (d.setTdr (d.receivedTdr 0x15)).pair (d.physOf lp) = d.pair (d.physOf lp) := rfl
  unfold writeCore Pair.poked
  rw [sessionCommand_allowed hw hs hr]
  simp only [hphys, hpair, hok, hh]
  generalize (d.pair (d.physOf lp)).lead.pokeMemory 1 data (piecesOf off data.length) = y at *
  generalize (d.pair (d.physOf lp)).shadow.pokeMemory 1 data (piecesOf off data.length) = z at *
  obtain ⟨y, b⟩ := y
  obtain ⟨z, b'⟩ := z
  obtain rfl : b = (false, []) := hlead
  obtain rfl : b' = (false, []) := hshadow
  rfl

/-! ### Registers (R555) -/

/-- In an idle fabric nothing of an access has to be taken out of a queue. -/
theorem served_of_idle (h : d.fabricIdle) (m a : Nat) : d.served m a = d := by
  obtain ⟨-, -, hwait, hgranted, -⟩ := h
  unfold Dev.served
  rw [hwait]
  have hfab : { d.fab with granted := [] } = d.fab := by rw [← hgranted]
  show { d with fab := { d.fab with granted := d.fab.granted.filter _ } } = d
  rw [hgranted]
  exact congrArg (fun f => { d with fab := f }) hfab

/-- A peek of a register. -/
abbrev peekReq (a : Nat) : DebugReq := { wr := false, io := true, live := false, addr := a, count := 4, data := [] }

theorem debugRun_peek {a : Nat} {r : Reg} {ix : List Nat} (hi : d.fabricIdle) (hreg : regAt a = some (r, ix))
    (hm : d.mpuCheck mDebug { io := true, addr := a, size := 4, rd := true, wr := false } = none) :
    d.debugRun (peekReq a) = (dsOk, leBytes 4 (d.liveWord r ix (d.word a)).toNat, d) := by
  have hread : d.readRegs false a 1 = (dsOk, leBytes 4 (d.liveWord r ix (d.word a)).toNat ++ [], d) := by
    simp only [Dev.readRegs, hm, hi.failedAt, served_of_idle hi, Dev.ioRead, hreg]
    simp
  unfold Dev.debugRun
  simp only [hread]
  simp

/-- A write of a register. -/
abbrev writeReq (a v : Word) : DebugReq :=
  { wr := true, io := true, live := false, addr := a.toNat, count := 4, data := leBytes 4 v.toNat }

/-- A register of a block that a write changes by its access codes alone is written as its fields say. -/
theorem debugRun_write {a v : Word} {r : Reg} {ix : List Nat} (hi : d.fabricIdle) (hreg : regAt a.toNat = some (r, ix))
    (hk : a.toNat / 0x10000 ∈ plainBlocks) (ha : a.toNat ≠ 0x050050)
    (hm : d.mpuCheck mDebug { io := true, addr := a.toNat, size := 4, rd := false, wr := true } = none) :
    d.debugRun (writeReq a v) = (dsOk, [], d.setWord a.toNat (regWritten r.fields (ioLocked d.io a.toNat) (d.word a.toNat) v)) := by
  have hword : BitVec.ofNat 32 (leNat ((leBytes 4 v.toNat).take 4)) = v := by
    have htake : (leBytes 4 v.toNat).take 4 = leBytes 4 v.toNat := List.take_of_length_le (length_leBytes ..).le
    rw [htake, leNat_leBytes]
    exact BitVec.eq_of_toNat_eq (by simpa using v.isLt)
  have hio : d.ioWrite mDebug false a.toNat v
      = (0, d.setWord a.toNat (regWritten r.fields (ioLocked d.io a.toNat) (d.word a.toNat) v)) := by
    rw [Dev.ioWrite, hreg, Option.isSome_some, if_pos rfl, blockWrite_plain hk ha, storeReg_of_regAt hreg]
  have hwrite : d.writeRegs (leBytes 4 v.toNat) a.toNat 1
      = (dsOk, d.setWord a.toNat (regWritten r.fields (ioLocked d.io a.toNat) (d.word a.toNat) v)) := by
    simp only [Dev.writeRegs, hm, hi.failedAt, served_of_idle hi, hword, hio]
    rfl
  unfold Dev.debugRun
  simp only [hwrite]
  rfl

/-- A transfer that nothing holds is carried out at once. -/
theorem transfer_run {q : DebugReq} (hc : q.countOk = true) (hh : d.debugHold q = none) :
    d.transfer tag q = (d.debugRun q).2.2.reply (d.debugRun q).1 tag (d.debugRun q).2.1 := by
  unfold Dev.transfer
  rw [hc, hh]
  rfl

theorem debugRead_peek {a : Nat} {r : Reg} {ix : List Nat} (hw : d.working = false) (hs : d.session = true) (hi : d.fabricIdle)
    (hr : d.debugRight 1 0 = true) (hg : d.grantCovers (peekReq a) = true) (ha : a % 4 = 0) (hreg : regAt a = some (r, ix))
    (hm : d.mpuCheck mDebug { io := true, addr := a, size := 4, rd := true, wr := false } = none) :
    debugRead tag (peekReq a) d = d.setTdr ((d.receivedTdr 0x20).replied dsOk tag (leBytes 4 (d.liveWord r ix (d.word a)).toNat)) := by
  have hcount : (peekReq a).countOk = true := by simp [DebugReq.countOk, ha]
  have hrun := debugRun_peek (d := d.setTdr (d.receivedTdr 0x20)) hi hreg hm
  rw [liveWord_setTdr] at hrun
  unfold debugRead
  rw [sessionCommand_allowed hw hs (by simpa [hr] using hg), transfer_run hcount rfl, hrun]
  rfl

theorem debugWrite_register {a v : Word} {r : Reg} {ix : List Nat} (hw : d.working = false) (hs : d.session = true) (hi : d.fabricIdle)
    (hr : d.debugRight 4 0 = true) (hg : d.grantCovers (writeReq a v) = true) (ha : a.toNat % 4 = 0) (hreg : regAt a.toNat = some (r, ix))
    (hk : a.toNat / 0x10000 ∈ [3, 0x14])
    (hm : d.mpuCheck mDebug { io := true, addr := a.toNat, size := 4, rd := false, wr := true } = none) :
    debugWrite tag (writeReq a v) d = ((d.setTdr (d.receivedTdr 0x21)).setWord a.toNat
      (regWritten r.fields (ioLocked d.io a.toNat) (d.word a.toNat) v)).reply dsOk tag [] := by
  have hblock : a.toNat / 0x10000 = 3 ∨ a.toNat / 0x10000 = 0x14 := by simpa using hk
  have hcount : (writeReq a v).countOk = true := by simp [DebugReq.countOk, ha]
  have href : (writeReq a v).refused = false := by
    simp [DebugReq.refused]
    omega
  have hplain : a.toNat / 0x10000 ∈ plainBlocks := by
    rcases hblock with h | h <;> rw [h] <;> decide
  have hidle : (d.setTdr (d.receivedTdr 0x21)).fabricIdle := hi
  have hhold : (d.setTdr (d.receivedTdr 0x21)).debugHold (writeReq a v) = none := by
    simp [Dev.debugHold, hidle.ioWait]
  have hrun := debugRun_write (d := d.setTdr (d.receivedTdr 0x21)) (v := v) hidle hreg hplain (by omega) hm
  unfold debugWrite
  rw [sessionCommand_allowed hw hs (by simp [hr, hg, href]), transfer_run hcount hhold, hrun]
  rfl

/-- Settles O50: each allowed command by the equation above; a step by what its presentation leaves. -/
theorem debugCommands : Obligations.DebugCommands := by
  unfold Obligations.DebugCommands
  intro s tag lp d p x answers hw hs hlen hp
  have hset : ∀ (t : DebugSt) (y : Pair), ((d.setTdr t).setPair p y) = (d.setPair p y).setTdr t := fun _ _ => rfl
  refine ⟨fun hr => ⟨fun hh => ?_, fun hh => ?_, fun hh => ?_, fun n hh => ?_, fun n hn hh => ?_, fun n rest hc hpres => ?_,
    fun k a m c => ?_⟩, fun hr hruns htwin n off h1 h2 h3 hclean => ?_, fun hr off data hdata hoff hle => ⟨fun hh => ?_, fun hh => ?_⟩,
    fun a r ix ha hreg => ?_, fun a v r ix hreg ha hk => ?_⟩
  · refine completes_onDev (f := debugHalt tag.toNat (BitVec.ofNat 16 (2 ^ lp.val)).toNat) rfl fun _ => ?_
    rw [debugHalt_one hw hs lp hr, if_neg (by rw [show (s.dev.pair (s.dev.physOf lp.val)).dbg.halted = false from hh]; decide)]
    exact ⟨rfl, rfl⟩
  · refine completes_onDev (f := debugHalt tag.toNat (BitVec.ofNat 16 (2 ^ lp.val)).toNat) rfl fun _ => ?_
    rw [debugHalt_one hw hs lp hr, if_pos hh]
    exact ⟨rfl, rfl⟩
  · refine completes_onDev (f := debugResume tag.toNat (BitVec.ofNat 16 (2 ^ lp.val)).toNat) rfl fun _ => ?_
    have hheld : ((s.dev.setTdr (s.dev.receivedTdr 0x11)).pair (s.dev.physOf lp.val)).heldByDebug = true := by
      rw [Pair.heldByDebug, show ((s.dev.setTdr (s.dev.receivedTdr 0x11)).pair (s.dev.physOf lp.val)).dbg.halted = true from hh]
      rfl
    rw [debugResume_one hw hs lp hr, Dev.resumeHeld, if_pos hheld]
    exact ⟨rfl, rfl⟩
  · refine completes_onDev (f := debugStep tag.toNat lp.val n.toNat) rfl fun _ => ?_
    rw [debugStep_eq hw hs _ hr, show (s.dev.pair (s.dev.physOf lp.val)).dbg.halted = false from hh]
    exact ⟨rfl, rfl⟩
  · refine completes_onDev (f := debugStep tag.toNat lp.val n.toNat) rfl fun _ => ?_
    have hne : n.toNat ≠ 0 := fun h => hn (BitVec.eq_of_toNat_eq h)
    rw [debugStep_eq hw hs _ hr, show (s.dev.pair (s.dev.physOf lp.val)).dbg.halted = true from hh, Bool.not_true,
      if_neg Bool.false_ne_true, if_neg hne]
    exact ⟨rfl, rfl⟩
  · have hval : (Fin.ofNat 16 p).val = p := Nat.mod_eq_of_lt hp
    refine completes_onDev (f := captureInput (Fin.ofNat 16 p).val false) rfl fun _ => ?_
    rw [hval]
    exact captureInput_step_leaves hlen hp hpres hc
  · refine completes_onDev (f := setComparator tag.toNat lp.val k.val a.toNat m.toNat c.toNat) rfl fun _ => ?_
    obtain ⟨haddr, hmask, hen, hkind, hslots, hio⟩ := comparing_leaves (s.dev.setTdr (s.dev.receivedTdr 0x13)) lp.val k.val a m c
    rw [setComparator_eq hw hs hr]
    exact ⟨rfl, haddr, hmask, hen, hkind, hslots, by rw [hio]; rfl⟩
  · refine completes_onDev (f := readCore tag.toNat lp.val 1 n off) rfl fun _ => ?_
    rw [readCore_data hw hs hr hruns htwin (by simp [areaOk, areaBytes, h1, h2, h3]) hclean]
    exact ⟨rfl, rfl⟩
  · refine completes_onDev (f := writeCore tag.toNat lp.val 1 off data) rfl fun _ => ?_
    rw [writeCore_running hw hs hr (by simp [areaOk, areaBytes, hdata, hle]) hh]
    exact ⟨rfl, rfl⟩
  · refine completes_onDev (f := writeCore tag.toNat lp.val 1 off data) rfl fun _ => ?_
    obtain ⟨-, hlead, hrest⟩ := pokeMemory_word x.lead hoff hdata
    obtain ⟨-, hshadow, -⟩ := pokeMemory_word x.shadow hoff hdata
    rw [writeCore_word hw hs hr (by simp [areaOk, areaBytes, hdata, hle]) hh hoff hdata]
    have hpair : (((s.dev.setTdr (s.dev.receivedTdr 0x15)).setPair p (x.poked off data)).reply dsOk tag.toNat []).pair p = x.poked off data :=
      pair_setPair_same (d := s.dev) p (x.poked off data) (show p < d.pairs.length by omega)
    refine ⟨rfl, congrArg (fun y : Pair => y.dbg.ckptFirst) hpair, ?_, ?_, fun w hne => ?_,
      fun q _ hq => pair_setPair_ne (d := s.dev) (x.poked off data) hq⟩
    · exact (congrArg (fun y : Pair => (ramRead y.lead.dmem (off / 8) (off / 8)).value) hpair).trans hlead
    · exact (congrArg (fun y : Pair => (ramRead y.shadow.dmem (off / 8) (off / 8)).value) hpair).trans hshadow
    · exact (congrArg (fun y : Pair => ramRead y.lead.dmem w w) hpair).trans (hrest w hne)
  · intro q hi hr hg hm
    refine completes_onDev (f := debugRead tag.toNat (peekReq a.toNat)) rfl fun _ => ?_
    rw [debugRead_peek hw hs hi hr hg ha hreg hm]
    exact ⟨rfl, rfl⟩
  · intro q hi hr hg hm
    refine completes_onDev (f := debugWrite tag.toNat (writeReq a v)) rfl fun _ => ?_
    rw [debugWrite_register hw hs hi hr hg ha hreg hk hm]
    exact ⟨rfl, rfl, word_setWord_same .., fun b hb => word_setWord_ne s.dev _ (by simpa using hb)⟩

end Sys2Proof.Machine
end
